-- ==== Sys2Proof/Word.lean ====
section
/-! DEFINITION. The word types of the module and nothing else: registers are 32 bits (02, R46), memories are bytes. -/

namespace Sys2Proof

/-- A byte of one of the module's memories. -/
abbrev W8 := BitVec 8
/-- A 16-bit table entry (Q1.15 or Q2.14, R6). -/
abbrev W16 := BitVec 16
/-- A register word or a signal-table entry (R24, R46). -/
abbrev W32 := BitVec 32
/-- A 64-bit register pair, read by the high-low-high rule (R53). -/
abbrev W64 := BitVec 64

/-- Sparse data by key: strictly rising keys, and no entry equal to what an unlisted key reads as. -/
abbrev Tab (α : Type) := List (Nat × α)

end Sys2Proof
end

