-- ==== Sys2Proof/Machine/Bits.lean ====
section
/-! DEFINITION. Bit fields, sign extension and byte order: the helpers every block's registers are read with. -/

namespace Sys2Proof.Machine

/-- Bits [hi:lo] of a word, as a number (bit 0 is the least significant, 00 "Naming and notation"). -/
def fld (w : W32) (hi lo : Nat) : Nat := (w.toNat >>> lo) % 2 ^ (hi - lo + 1)

/-- Bit i of a word. -/
def bit (w : W32) (i : Nat) : Bool := (w.toNat >>> i) % 2 == 1

/-- A word with bits [hi:lo] replaced. -/
def putFld (w : W32) (hi lo v : Nat) : W32 :=
  BitVec.ofNat 32 (w.toNat - (fld w hi lo) * 2 ^ lo + (v % 2 ^ (hi - lo + 1)) * 2 ^ lo)

/-- A word with bit i replaced. -/
def putBit (w : W32) (i : Nat) (b : Bool) : W32 := putFld w i i (if b then 1 else 0)

/-- A number as a word, modulo 2^32. -/
def w32 (n : Nat) : W32 := BitVec.ofNat 32 n

/-- An integer as a word, two's complement. -/
def w32i (i : Int) : W32 := BitVec.ofInt 32 i

/-- 1 for true. -/
def b2n (b : Bool) : Nat := if b then 1 else 0

/-- The signed value of the low n bits of a number. -/
def sgn (n v : Nat) : Int :=
  let m := v % 2 ^ n
  if m < 2 ^ (n - 1) then (m : Int) else (m : Int) - (2 ^ n : Nat)

/-- The Q1.15 value of an entry, in units of 2^-15 (R6, R7). -/
def q15 (w : W32) : Int := sgn 16 w.toNat

/-- A Q1.15 entry: bits [31:16] are the sign extension of bit 15 (R7). -/
def ofQ15 (i : Int) : W32 := w32i (sgn 16 (BitVec.ofInt 16 i).toNat)

/-- A value limited to a range. -/
def clampI (lo hi x : Int) : Int := if x < lo then lo else if x > hi then hi else x

/-- Saturation to Q1.15. -/
def satQ15 (x : Int) : Int := clampI (-32768) 32767 x

/-- Round to nearest, ties to even, of x / 2^n. -/
def rndEven (x : Int) (n : Nat) : Int :=
  let q := x / (2 ^ n : Nat)
  let r := x % (2 ^ n : Nat)
  let h : Int := ((2 ^ n / 2 : Nat) : Int)
  if n = 0 then x else if r < h then q else if h < r then q + 1 else if q % 2 = 0 then q else q + 1

/-- The low and the high word of a 64-bit value. -/
def lo64 (v : Nat) : W32 := w32 v
def hi64 (v : Nat) : W32 := w32 (v / 2 ^ 32)
/-- A 64-bit value from its words. -/
def mk64 (lo hi : W32) : Nat := lo.toNat + hi.toNat * 2 ^ 32

/-- A 64-bit number as the two's complement integer it holds. -/
def s64 (v : Nat) : Int := sgn 64 v
/-- An integer as a 64-bit number. -/
def u64 (i : Int) : Nat := (i % (2 ^ 64 : Nat)).toNat

/-- Little-endian number of a list of bytes (00: memory is little-endian). -/
def leNat : List W8 → Nat
  | [] => 0
  | b :: t => b.toNat + 256 * leNat t

/-- The n low bytes of a number, little-endian. -/
def leBytes : Nat → Nat → List W8
  | 0, _ => []
  | n + 1, v => BitVec.ofNat 8 v :: leBytes n (v / 256)

/-- One step of the CRC-32C register (reflected polynomial 0x82F63B78) over a bit. -/
def crcBit (c : Nat) : Nat := if c % 2 = 1 then (c / 2) ^^^ 0x82F63B78 else c / 2

/-- The register after a byte. -/
def crcByte (c : Nat) (b : W8) : Nat :=
  let x := c ^^^ b.toNat
  crcBit (crcBit (crcBit (crcBit (crcBit (crcBit (crcBit (crcBit x)))))))

/-- CRC-32C of a list of bytes: initial value and final XOR 0xFFFF_FFFF. -/
def crc32c (bs : List W8) : Nat := (bs.foldl crcByte 0xFFFFFFFF) ^^^ 0xFFFFFFFF

/-- The item at a place of a list, or a default. -/
def nth {α : Type} (l : List α) (n : Nat) (d : α) : α := (l[n]?).getD d

/-- A list with the item at a place replaced (unchanged where there is no such place). -/
def lset {α : Type} : List α → Nat → α → List α
  | [], _, _ => []
  | _ :: t, 0, v => v :: t
  | h :: t, n + 1, v => h :: lset t n v

end Sys2Proof.Machine
end

