-- ==== Sys2Proof/Machine/Pages.lean ====
section
/-! DEFINITION. The BAR0 address map (02, Tables 2-3 and 2-4): the register pages, their base addresses, types, event
source numbers and slots, and the windows. -/

namespace Sys2Proof.Machine

/-- The register pages of the module, one constructor a kind, with the instance number. -/
inductive Page
  | id | clk | pwr | sig | evr | pcie | tw | gl | sb | hlth
  | lt (t : Nat) | lc (g : Nat) | mt (m : Nat) | ax (a : Nat) | sq (l : Nat)
  | ac (k : Nat) | ao (j : Nat) | dio (g : Nat) | enc (e : Nat) | stp (s : Nat) | sio | oh
  | lp (p : Nat) | sfa | db | sfb
  | pl (s : Nat) | cx (x : Nat) | tb | eth (e : Nat) | tr | tl | tk | mb (b : Nat)
deriving DecidableEq, Repr

/-! Base addresses (Tables 2-3 and 2-4 and the first rule of each chapter). -/
def idBase : Nat := 0x00000000
def clkBase : Nat := 0x00001000
def pwrBase : Nat := 0x00002000
def sigBase : Nat := 0x00003000
def evrBase : Nat := 0x00004000
def msixBase : Nat := 0x00005000
def pbaBase : Nat := 0x00006000
def pcieBase : Nat := 0x00007000
def twBase : Nat := 0x00008000
def glBase : Nat := 0x00009000
def sbBase : Nat := 0x0000A000
def hlthBase : Nat := 0x0000B000
def attrBase : Nat := 0x00080000
def ltBase (t : Nat) : Nat := 0x00100000 + t * 0x10000
def lcBase (g : Nat) : Nat := ltBase (g / 32) + 0x1000 + (g % 32) * 0x400
def mtBase (m : Nat) : Nat := 0x00500000 + m * 0x10000
def axBase (a : Nat) : Nat := mtBase (a / 8) + 0x1000 + (a % 8) * 0x1000
def sqBase (l : Nat) : Nat := 0x00580000 + l * 0x4000
def acBase (k : Nat) : Nat := 0x00600000 + k * 0x1000
def aoBase (j : Nat) : Nat := 0x00610000 + j * 0x1000
def dioBase (g : Nat) : Nat := 0x00620000 + g * 0x1000
def encBase (e : Nat) : Nat := 0x00640000 + e * 0x1000
def stpBase (s : Nat) : Nat := 0x00660000 + s * 0x1000
def sioBase : Nat := 0x00680000
def ohBase : Nat := 0x00690000
def lpBase (p : Nat) : Nat := 0x00700000 + p * 0x1000
/-- The safety channel pages: 0 is channel A (SFA), 1 is channel B (SFB). -/
def sfBase (f : Nat) : Nat := if f = 0 then 0x00708000 else 0x00880000
def dbBase : Nat := 0x00709000
def plBase (s : Nat) : Nat := 0x00800000 + s * 0x2000
def cxBase (x : Nat) : Nat := 0x00840000 + x * 0x4000
def tbBase : Nat := 0x00860000
def ethBase (e : Nat) : Nat := 0x00870000 + e * 0x4000
def trBase : Nat := 0x00890000
def tlBase : Nat := 0x008A0000
def tkBase : Nat := 0x008D0000
def mbBase (b : Nat) : Nat := 0x008E0000 + b * 0x1000
def sigWin : Nat := 0x01000000
def varWin : Nat := 0x02000000
def mramWin : Nat := 0x04000000
def sramWin : Nat := 0x08000000

/-- The base address of a page. -/
def pageBase : Page → Nat
  | .id => idBase | .clk => clkBase | .pwr => pwrBase | .sig => sigBase | .evr => evrBase | .pcie => pcieBase
  | .tw => twBase | .gl => glBase | .sb => sbBase | .hlth => hlthBase
  | .lt t => ltBase t | .lc g => lcBase g | .mt m => mtBase m | .ax a => axBase a | .sq l => sqBase l
  | .ac k => acBase k | .ao j => aoBase j | .dio g => dioBase g | .enc e => encBase e | .stp s => stpBase s
  | .sio => sioBase | .oh => ohBase | .lp p => lpBase p | .sfa => sfBase 0 | .db => dbBase | .sfb => sfBase 1
  | .pl s => plBase s | .cx x => cxBase x | .tb => tbBase | .eth e => ethBase e | .tr => trBase | .tl => tlBase
  | .tk => tkBase | .mb b => mbBase b

/-- A page of a regular range: base, distance, count, page size. -/
def inRange (a base step n size : Nat) (mk : Nat → Page) : Option (Page × Nat) :=
  if base ≤ a ∧ a < base + step * n ∧ (a - base) % step < size then some (mk ((a - base) / step), (a - base) % step)
  else none

/-- The device page set (Table 2-4). -/
def devPage (a : Nat) : Option (Page × Nat) :=
  let o := a % 0x1000
  match a / 0x1000 with
  | 0 => some (.id, o) | 1 => some (.clk, o) | 2 => some (.pwr, o) | 3 => some (.sig, o) | 4 => some (.evr, o)
  | 7 => some (.pcie, o) | 8 => some (.tw, o) | 9 => some (.gl, o) | 10 => some (.sb, o) | 11 => some (.hlth, o)
  | _ => none

/-- The page and the offset in it that a BAR0 address names (Table 2-3); none for windows and unassigned addresses. -/
def locate (a : Nat) : Option (Page × Nat) :=
  if a < 0x80000 then devPage a
  else if a < 0x100000 then none
  else if a < 0x500000 then
    let t := (a - 0x100000) / 0x10000
    let o := a % 0x10000
    if o < 0x1000 then some (.lt t, o)
    else if o < 0x9000 then some (.lc (32 * t + (o - 0x1000) / 0x400), o % 0x400) else none
  else if a < 0x580000 then
    let m := (a - 0x500000) / 0x10000
    let o := a % 0x10000
    if o < 0x1000 then some (.mt m, o)
    else if o < 0x9000 then some (.ax (8 * m + (o - 0x1000) / 0x1000), o % 0x1000) else none
  else if a < 0x5C0000 then inRange a 0x580000 0x4000 16 0x1000 .sq
  else if a < 0x610000 then inRange a 0x600000 0x1000 16 0x1000 .ac
  else if a < 0x620000 then inRange a 0x610000 0x1000 16 0x1000 .ao
  else if a < 0x640000 then inRange a 0x620000 0x1000 16 0x1000 .dio
  else if a < 0x660000 then inRange a 0x640000 0x1000 32 0x1000 .enc
  else if a < 0x680000 then inRange a 0x660000 0x1000 32 0x1000 .stp
  else if a < 0x690000 then inRange a 0x680000 0x10000 1 0x1000 (fun _ => .sio)
  else if a < 0x6A0000 then inRange a 0x690000 0x10000 1 0x1000 (fun _ => .oh)
  else if a < 0x708000 then inRange a 0x700000 0x1000 4 0x1000 .lp
  else if a < 0x709000 then some (.sfa, a % 0x1000)
  else if a < 0x70A000 then some (.db, a % 0x1000)
  else if a < 0x800000 then none
  else if a < 0x840000 then inRange a 0x800000 0x2000 16 0x2000 .pl
  else if a < 0x860000 then inRange a 0x840000 0x4000 8 0x1000 .cx
  else if a < 0x870000 then inRange a 0x860000 0x10000 1 0x1000 (fun _ => .tb)
  else if a < 0x880000 then inRange a 0x870000 0x4000 4 0x1000 .eth
  else if a < 0x890000 then inRange a 0x880000 0x10000 1 0x1000 (fun _ => .sfb)
  else if a < 0x8A0000 then inRange a 0x890000 0x10000 1 0x5000 (fun _ => .tr)
  else if a < 0x8D0000 then inRange a 0x8A0000 0x30000 1 0x30000 (fun _ => .tl)
  else if a < 0x8E0000 then inRange a 0x8D0000 0x10000 1 0x1000 (fun _ => .tk)
  else if a < 0x900000 then inRange a 0x8E0000 0x1000 32 0x1000 .mb
  else none

/-- A page that exists: its instance number lies in the range of its kind. -/
def pageOk (p : Page) : Bool := locate (pageBase p) == some (p, 0)

/-- BLK_ID.TYPE (the first rule of each chapter). The device pages of chapters 2 and 18 have no type given: 0, log entry 1. -/
def pageType : Page → Nat
  | .id | .clk | .pwr | .sig | .evr | .pcie | .hlth => 0
  | .lt _ => 0x10 | .lc _ => 0x11 | .mt _ => 0x20 | .ax _ => 0x21 | .sq _ => 0x30 | .ac _ => 0x40 | .ao _ => 0x41
  | .dio _ => 0x42 | .enc _ => 0x50 | .stp _ => 0x51 | .lp _ => 0x60 | .sio => 0x70 | .sfa => 0x71 | .sfb => 0x72
  | .oh => 0x78 | .db => 0x80 | .pl _ => 0x90 | .tw => 0xA0 | .gl => 0xA1 | .sb => 0xB0 | .cx _ => 0xC0 | .tb => 0xD0
  | .eth _ => 0xD1 | .tr => 0xE0 | .tl => 0xF0 | .tk => 0xF1 | .mb _ => 0xF2

/-- The instance number of a page. -/
def pageInst : Page → Nat
  | .lt n | .lc n | .mt n | .ax n | .sq n | .ac n | .ao n | .dio n | .enc n | .stp n | .lp n | .pl n | .cx n | .eth n | .mb n => n
  | _ => 0

/-- BLK_ID of a page: type in [31:16], instance in [15:0] (R46). -/
def blkId (p : Page) : W32 := w32 (pageType p * 0x10000 + pageInst p)

/-- The first event source number of a page and its number of slots (Table 2-7); none for a loop cell (R57). -/
def pageSource : Page → Option (Nat × Nat)
  | .id => some (0, 1) | .clk => some (1, 1) | .pwr => some (2, 2) | .sig => some (4, 1) | .evr => some (5, 1)
  | .pcie => some (6, 1) | .tw => some (7, 2) | .gl => some (9, 1) | .sb => some (10, 2) | .hlth => some (12, 2)
  | .lt t => some (32 + t, 1) | .lc _ => none | .mt m => some (96 + m, 1) | .ax a => some (104 + a, 1)
  | .sq l => some (168 + l, 1) | .ac k => some (184 + k, 1) | .ao j => some (200 + j, 1) | .dio g => some (216 + g, 1)
  | .enc e => some (232 + e, 1) | .stp s => some (264 + s, 1) | .sio => some (296, 1) | .sfa => some (297, 1)
  | .sfb => some (298, 1) | .oh => some (299, 1) | .lp p => some (300 + p, 1) | .pl s => some (304 + 2 * s, 2)
  | .cx x => some (336 + 4 * x, 4) | .eth e => some (368 + 4 * e, 4) | .tb => some (384, 4) | .tr => some (388, 4)
  | .db => some (392, 2) | .tl => some (394, 2) | .tk => some (396, 2) | .mb b => some (398 + b, 1)

/-- The Daybook source number of a page's slot 0, or 0x800 + g for a loop cell (R462). -/
def pageOrigin (p : Page) : Nat :=
  match p with
  | .lc g => 0x800 + g
  | p => match pageSource p with
    | some (s, _) => s
    | none => 0

/-- The page of an event source number, with the slot. -/
def sourcePage (s : Nat) : Option (Page × Nat) :=
  if s < 32 then
    match s with
    | 0 => some (.id, 0) | 1 => some (.clk, 0) | 2 => some (.pwr, 0) | 3 => some (.pwr, 1) | 4 => some (.sig, 0)
    | 5 => some (.evr, 0) | 6 => some (.pcie, 0) | 7 => some (.tw, 0) | 8 => some (.tw, 1) | 9 => some (.gl, 0)
    | 10 => some (.sb, 0) | 11 => some (.sb, 1) | 12 => some (.hlth, 0) | 13 => some (.hlth, 1) | _ => none
  else if s < 96 then some (.lt (s - 32), 0) else if s < 104 then some (.mt (s - 96), 0)
  else if s < 168 then some (.ax (s - 104), 0) else if s < 184 then some (.sq (s - 168), 0)
  else if s < 200 then some (.ac (s - 184), 0) else if s < 216 then some (.ao (s - 200), 0)
  else if s < 232 then some (.dio (s - 216), 0) else if s < 264 then some (.enc (s - 232), 0)
  else if s < 296 then some (.stp (s - 264), 0) else if s = 296 then some (.sio, 0) else if s = 297 then some (.sfa, 0)
  else if s = 298 then some (.sfb, 0) else if s = 299 then some (.oh, 0) else if s < 304 then some (.lp (s - 300), 0)
  else if s < 336 then some (.pl ((s - 304) / 2), (s - 304) % 2) else if s < 368 then some (.cx ((s - 336) / 4), (s - 336) % 4)
  else if s < 384 then some (.eth ((s - 368) / 4), (s - 368) % 4) else if s < 388 then some (.tb, s - 384)
  else if s < 392 then some (.tr, s - 388) else if s < 394 then some (.db, s - 392) else if s < 396 then some (.tl, s - 394)
  else if s < 398 then some (.tk, s - 396) else if s < 430 then some (.mb (s - 398), 0) else none

end Sys2Proof.Machine
end

