-- ==== Sys2Proof/Machine/Tab.lean ====
section
/-! DEFINITION. The one sparse table of the model (registers, instances, memories): find, read with a default, write. -/

namespace Sys2Proof.Machine

variable {α : Type}

/-- The entry listed for a key. -/
def tfind : Tab α → Nat → Option α
  | [], _ => none
  | (k, v) :: t, n => if n = k then some v else tfind t n

/-- What a key reads as: its entry, or the default of an unlisted key. -/
def tget (dflt : α) (t : Tab α) (n : Nat) : α := (tfind t n).getD dflt

/-- List a key with a value: in its place, or where its place is in rising order. -/
def tput : Tab α → Nat → α → Tab α
  | [], n, v => [(n, v)]
  | (k, w) :: t, n, v =>
    if n = k then (n, v) :: t
    else if n < k then (n, v) :: (k, w) :: t
    else (k, w) :: tput t n v

/-- Write a key. Writing the default removes the entry, so that equal tables are equal data. -/
def tset [DecidableEq α] (dflt : α) (t : Tab α) (n : Nat) (v : α) : Tab α :=
  if v = dflt then t.filter (fun p => p.1 != n) else tput t n v

/-- The canonical form: keys strictly rising from a bound on, no entry equal to its key's default. -/
def twfFrom [DecidableEq α] (dflt : Nat → α) : Nat → Tab α → Bool
  | _, [] => true
  | lo, (k, v) :: t => decide (lo ≤ k) && decide (v ≠ dflt k) && twfFrom dflt (k + 1) t

/-- The canonical form of a whole table. -/
def twf [DecidableEq α] (dflt : Nat → α) (t : Tab α) : Bool := twfFrom dflt 0 t

/-- Drop the entries of a half-open range of keys: they read as their default afterwards. -/
def tclear (lo hi : Nat) (t : Tab α) : Tab α := t.filter (fun p => decide (p.1 < lo) || decide (hi ≤ p.1))

/-- The keys a table lists, in rising order. -/
def tkeys (t : Tab α) : List Nat := t.map (·.1)

/-- The canonical form of a memory: addresses strictly rising, no byte listed that an unlisted address reads as (log entry 3). -/
abbrev Memory.wf (m : Tab (BitVec 8)) : Prop := twf (fun _ => 0) m = true

end Sys2Proof.Machine
end

