-- ==== Sys2Proof/Machine/TypesIo.lean ====
section
/-! DEFINITION. What converter cores, analog outputs and digital pins hold beside their registers (chapter 06). -/

namespace Sys2Proof.Machine

/-- The roles of a converter slice (AC_SLs_STAT); leaving: exchanged, with a sampled window still to deliver (R153), shown as ACTIVE. -/
inductive SlRole
  | active | leaving | calibrating | spare | retired
deriving DecidableEq, Repr, Inhabited

/-- A slice: role, slot, calibration periods, its next result is the first after calibration, failed checks in a row. -/
structure Slice where
  role : SlRole
  slot : Nat
  periods : Nat
  fresh : Bool
  fails : Nat
deriving DecidableEq, Repr, Inhabited

/-- A conversion that has started and not been delivered: channel, capture flag, tag, slice, TB_NS of the window start,
reference settled at the start. -/
structure Conv where
  ch : Nat
  cap : Bool
  tag : Nat
  slice : Nat
  w0 : Nat
  settled : Bool
deriving DecidableEq, Repr, Inhabited

/-- A channel: usable samples of the interval (newest first), whether any result was delivered in it and any not withheld,
latest word not withheld, BP of the latest interval with a result, OPEN, results in a row against OPEN, latest results of a
pulse window beyond the limit (newest first), no decision at BP 100 of the present pulse window (R157), BP of a range change that is
settling. -/
structure AcCh where
  use_ : List Int
  any_ : Bool
  kept : Bool
  word : W32
  lastBp : Nat
  open_ : Bool
  run : Nat
  hist : List Bool
  skip : Bool
  settling : Option Nat
deriving DecidableEq, Repr, Inhabited

/-- A converter core: converting, active length, next entry, next slot, tag, committed shadow waiting, reference settled,
quarantined, conversions in progress (oldest first), nine slices, channels, exchange due (outgoing, spare), windows counted
for the tag of a pair, burst being filled and the TB_NS of its first aperture, BP of the latest rotation boundary taken. -/
structure Core where
  on : Bool
  len : Nat
  pos : Nat
  slot : Nat
  tag : Nat
  pend : Bool
  settled : Bool
  quar : Bool
  flight : List Conv
  slices : List Slice
  chans : Tab AcCh
  xchg : Option (Nat × Nat)
  pairN : Nat
  burst : List W32
  burstTb : Nat
  rotAt : Option Nat
deriving DecidableEq, Repr, Inhabited

/-- The states of an analog output (Table 6-12) and of a digital pin (Table 6-15). -/
inductive AoSt
  | off | running | safe | fault | held
deriving DecidableEq, Repr, Inhabited
inductive DioSt
  | off | input | running | safe | fault | held
deriving DecidableEq, Repr, Inhabited

/-- An analog output: state, value taken from its source, clamp, levels OPEN_LOAD, ILIM, OTEMP and RB_DEV, BP in a row of
ILIM and of deviation, BP since RUNNING, FCAUSE. -/
structure AoCh where
  st : AoSt
  act : Int
  clamp : Bool
  openLoad : Bool
  ilim : Bool
  otemp : Bool
  rbDev : Bool
  ilimRun : Nat
  rbRun : Nat
  since : Nat
  fcause : Nat
deriving DecidableEq, Repr, Inhabited

/-- A digital pin: state, switch command, raw pin level, accepted input level, ILIM, OTEMP, UNDERCUR, BP in a row of ILIM
and of under-current, FCAUSE, queue of scheduled switchings (instant, level), instants to be judged late after a resume. -/
structure DioPin where
  st : DioSt
  level : Bool
  raw : Bool
  acc : Bool
  ilim : Bool
  otemp : Bool
  under : Bool
  ilimRun : Nat
  underRun : Nat
  fcause : Nat
  queue : List (Nat × Bool)
  judge : Bool
deriving DecidableEq, Repr, Inhabited

/-- What an analog output's driver and readback show in a BP. -/
structure AoIn where
  rb : Int
  openLoad : Bool
  ilim : Bool
  otemp : Bool
deriving DecidableEq, Repr, Inhabited

/-- What a digital output's switch shows in a BP: mean current in mA, level at the pin, current limit, thermal shutdown. -/
structure DioIn where
  cur : Nat
  level : Bool
  ilim : Bool
  otemp : Bool
deriving DecidableEq, Repr, Inhabited

/-- What an ABZ interface counted in the past BP, and the levels of A, B and Z. -/
structure EncIn where
  delta : Int
  a : Bool
  b : Bool
  z : Bool
deriving DecidableEq, Repr, Inhabited

/-- What the field shows to a base period: analog outputs, digital outputs, encoders, by number; one that is not listed
shows what it is driven to. And the defects of R14 and R81: tiles that overran (0 to 63 loop tiles, 64 to 71 motion tiles)
and lanes that overran. -/
structure BpEnv where
  ao : Tab AoIn
  dio : Tab DioIn
  enc : Tab EncIn
  tiles : List Nat
  lanes : List Nat
deriving DecidableEq, Repr, Inhabited

end Sys2Proof.Machine
end

