-- ==== Sys2Proof/Machine/TypesCore.lean ====
section
/-! DEFINITION. The state that is no register of a page: signal table, event router, crossing writes, Daybook, trace,
power, health and identity (chapters 01, 02, 15, 16, 18). -/

namespace Sys2Proof.Machine

/-- A write to a signal entry staged for the next commit instant (R25), with the SAFE attribute it carries (R22). -/
structure SigW where
  n : Nat
  v : W32
  safe : Bool
deriving DecidableEq, Repr, Inhabited

/-- A write that reached a page and has not been applied: its address, its value and who sent it (R51). -/
structure Posted where
  addr : Nat
  val : W32
  who : Nat
deriving DecidableEq, Repr, Inhabited

/-- The states of a vector (R58, Table 2-8). -/
inductive VecState
  | armed | pending | sent
deriving DecidableEq, Repr, Inhabited

/-- An MSI-X message the module has sent (R58). -/
structure Msi where
  vec : Nat
  addr : Nat
  data : W32
deriving DecidableEq, Repr, Inhabited

/-- The part of configuration space that R38 names beside MSI-X and the link (Table 2-1): class code, payload and read-request size,
the AER status words. Its layout is the PCI Express Base Specification's, PRESUMED (log entry 54); the Device Serial Number
capability carries ID_SERIAL, which the vault holds. -/
structure PciCfg where
  classCode : Nat
  mps : Nat
  mrrs : Nat
  aerUnc : W32
  aerCor : W32
deriving DecidableEq, Repr, Inhabited

/-- The event router and the endpoint: vector states, MSI-X capability, link and D3hot, messages sent and words returned for
reads that timed out (newest first), configuration space. -/
structure Evr where
  vec : Tab VecState
  msixEnable : Bool
  funcMask : Bool
  busMaster : Bool
  linkUp : Bool
  d3hot : Bool
  leftL0 : Bool
  sent : List Msi
  cpl : List W32
  cfg : PciCfg
deriving DecidableEq, Repr, Inhabited

/-- A report as it stands in staging (R381, R384): everything of a record but SEQ and CRC. part: the part number of a CONT. -/
structure DbBody where
  typ : Nat
  sev : Nat
  src : Nat
  opt : Nat
  pcc : Nat
  wall : Option Nat
  pay : List W32
  part : Option Nat
deriving DecidableEq, Repr, Inhabited

/-- A staging entry: a record, or a clear with its target GEN, key, reason and requester (R390). -/
inductive DbEntry
  | record (b : DbBody)
  | clear (gen : Nat) (key : Nat) (reason : W32) (requester : Nat)
deriving DecidableEq, Repr, Inhabited

/-- A committed record: its offset from the area base, its SEQ and its bytes (R380, R381). -/
structure DbRec where
  off : Nat
  seq : Nat
  bytes : List W8
deriving DecidableEq, Repr, Inhabited

/-- The suppression state of a source (R387). -/
structure DbSupp where
  count : Nat
  first : Nat
  last : Nat
  sev : Nat
  rate : Bool
  full : Bool
deriving DecidableEq, Repr, Inhabited

/-- The Daybook but for its founding area: staging, intake, suppression states, tokens taken from each bucket, the OPT_MS
after the latest gain of a bucket, running records (oldest first), SEQ of the latest first part, whether the writer runs, and what the command that crosses has taken from the requester's side. -/
structure Daybook where
  staging : List DbEntry
  intake : List DbBody
  supp : Tab DbSupp
  spent : Tab Nat
  gained : Tab Nat
  running : List DbRec
  firstSeq : Nat
  writerUp : Bool
  args : List W32
deriving DecidableEq, Repr, Inhabited

/-- What no command but the Daybook's own commits touches: the factory identity (serial number, certificate, KEY_ID of the
vendor key) and the founding area (R379, R430, R431). -/
structure Vault where
  serial : Nat
  cert : List W8
  vendorKid : Nat
  founding : List DbRec
  fndHead : Nat
  fndFull : Bool
deriving DecidableEq, Repr, Inhabited

/-- The trace states (R403, Table 16-6). -/
inductive TrState
  | stopped | running | freezing | frozen
deriving DecidableEq, Repr, Inhabited

/-- A packet in the ring: position, length, list (255: pad) and BP of its last sample. -/
structure TrPkt where
  pos : Nat
  len : Nat
  list : Nat
  lastBp : Nat
deriving DecidableEq, Repr, Inhabited

/-- A packet being filled: stamp and BP of the first sample, BP of the last, samples, their words in order. -/
structure TrOpen where
  stamp : Nat
  bp : Nat
  lastBp : Nat
  samples : Nat
  words : List W32
deriving DecidableEq, Repr, Inhabited

/-- The trace engine: state, packets in the ring (oldest first), open packets, lists whose next packet carries GAP,
PROTECT, stream active, transfer busy and overtaken, POST in ms of the freeze in progress, total of TR_DMA_REL writes. -/
structure Trace where
  state : TrState
  pkts : List TrPkt
  opens : Tab TrOpen
  gap : Tab Bool
  protect : Bool
  streaming : Bool
  xferBusy : Bool
  xferOver : Bool
  post : Nat
  dmaRel : Nat
deriving DecidableEq, Repr, Inhabited

/-- The power phases (R434, Table 18-4). `on` is Ready or Run, which R434 tells apart by the blocks that run. -/
inductive Phase
  | off | keepAlive | boot | on | held | service
deriving DecidableEq, Repr, Inhabited

/-- The pair roles (R259, TW_STAT). -/
inductive Role
  | solo | authority | standby | syncing
deriving DecidableEq, Repr, Inhabited

/-- A cause of Held: BLK_ID, ERR_CODE, ERR_ADDR of the record (R435). -/
structure HeldCause where
  blk : W32
  code : W32
  addr : W32
deriving DecidableEq, Repr, Inhabited

/-- The kinds of a start (R292): warm reset, VIN return, cold reset; in rising strength warm, VIN return, cold. -/
inductive StartKind
  | warm | vin | cold
deriving DecidableEq, Repr, Inhabited

/-- A power failure (R305, R307): none; declared, the final boundary to come; the final snapshot drains; the final commit has ended. -/
inductive Failing
  | no | declared | draining | done
deriving DecidableEq, Repr, Inhabited

/-- Power, clock loss and hot plug: phase, the Held triggers pending in Boot (oldest first), flags of PWR_STAT, an install in progress, loss
of lock in progress (the report of it), VFLD low, the BP at which field outputs were enabled after a start, PRES_N asserted, power failure,
start in progress and its RESET_SRC, active firmware bank, whether an install has made the other one the next, banks marked
invalid, BODY_SHA256 and IMG_VER of a bank an install has written (none: the factory's), MRAM copies of PCC, OPT_MS and the
insertion count, and the base periods of the module's own clock, from which OPT_MS and KA_RTC advance. -/
structure Power where
  phase : Phase
  heldPending : List HeldCause
  holdupOk : Bool
  kaVka : Bool
  kaLow : Bool
  kaLost : Bool
  vinLow : Bool
  installing : Bool
  lockLost : Option DbBody
  vfldLow : Bool
  firstC2 : Bool
  pres : Bool
  fail : Failing
  kind : StartKind
  src : Nat
  bank : Nat
  newBank : Bool
  badBanks : List Nat
  fw : Tab (Option (List W8 × Nat))
  kaPcc : Nat
  kaOpt : Nat
  kaIns : Nat
  beat : Nat
deriving DecidableEq, Repr, Inhabited

/-- Health: samples in a row at 120 degrees or more for each region, OPT_MS of the latest level change, hourly values of the
six end-of-life indicators (newest first), hour of the latest update, ESR at manufacture. -/
structure Health where
  hot : List Nat
  levelAt : Nat
  hist : List (List Nat)
  hour : Nat
  esr0 : Nat
deriving DecidableEq, Repr, Inhabited

/-- An entry of the wear ledger (R446, Table 18-10); frac: the carried fraction of travel, last: the bit's last value. -/
structure Wear where
  count : Nat
  thr : Nat
  src : Nat
  bitNo : Nat
  en : Bool
  worn : Bool
  frac : Nat
  last : Bool
deriving DecidableEq, Repr, Inhabited

/-- An entry of the image directory (R296): base of the block's page, bank (a logic processor's; else 0), TYPE, LENGTH, BODY_SHA256. -/
structure DirEnt where
  base : Nat
  bank : Nat
  typ : Nat
  len : Nat
  sha : List W8
deriving DecidableEq, Repr, Inhabited

/-- A sample of the sensors (R442): case, four junctions (0.1 degrees), VIN, VFLD, keep-alive store, VKA (mV), VIN power (10 mW). -/
structure HSample where
  tcase : Int
  tj : List Int
  vin : Nat
  vfld : Nat
  store : Nat
  vka : Nat
  pin : Nat
deriving DecidableEq, Repr, Inhabited

/-- What the supervisor finds at the hourly update (R445): slowdown and stress of the regions, cycles in the bins, MRAM error rate. -/
structure EolSample where
  age : List Nat
  em : List Nat
  cyc : List Nat
  mram : Nat
deriving DecidableEq, Repr, Inhabited

/-- An identity command in progress (R433), with the digest to be signed. -/
inductive IdBusy
  | idle | attest (digest : List W8)
deriving DecidableEq, Repr, Inhabited

end Sys2Proof.Machine
end

