-- ==== Sys2Proof/Machine/TypesLane.lean ====
section
/-! DEFINITION. What a recipe lane holds beside its registers (chapter 03): the loaded image and the step position. -/

namespace Sys2Proof.Machine

/-- An action entry or a scheduled payload (R76, Table 3-11). -/
structure Act where
  kind : Nat
  flags : Nat
  a0 : Nat
  a1 : Nat
  a2 : Nat
deriving DecidableEq, Repr, Inhabited

/-- A step (R73, Table 3-8), with TARGET and RECOVERY resolved to step indices. -/
structure LStep where
  kind : Nat
  resume : Nat
  name : Nat
  mark : Nat
  dur : Nat
  maxOff : Nat
  target : Nat
  recovery : Nat
  condOp : Nat
  condSrc : Nat
  condMask : Nat
  condVal : Nat
  rampSig : Nat
  param : Nat
  stepId : Nat
  acts : List Act
  targetIx : Nat
  recoveryIx : Nat
deriving DecidableEq, Repr, Inhabited

/-- A target-list entry (R71). -/
structure LTarget where
  n : Nat
  wide : Bool
  safe : W32
deriving DecidableEq, Repr, Inhabited

/-- A verified Ledger image (R71): steps, targets, abort step, 32 scheduled payloads, critical cell set (256 bytes), RECIPE_ID. -/
structure LImg where
  steps : List LStep
  targets : List LTarget
  abort : Nat
  sched : List Act
  cells : List W8
  recipe : Nat
deriving DecidableEq, Repr, Inhabited

/-- The lane states (R67, Table 3-5). -/
inductive LaneSt
  | empty | loading | loaded | running | paused | done | fault
deriving DecidableEq, Repr, Inhabited

/-- A lane: state, the container read by LOAD, the loaded image, the step to enter at the next tick and whether the entry
limit left it waiting, whether it left the current step so, whether the current step was entered without its work of elapsed 0, the
open repeat blocks (REPEAT step, count; innermost first), critical mark, ramp start value, due times of the armed slots, arms of
steps that take effect at the C2 of this BP (slot, T), late slots to execute at the next tick, the due time whose lateness that tick
shows, commands that have taken effect and the lane acts on at its next tick (with RUN as it stood), ticks off of a resume whose
policy is still to be applied, slots to be judged. -/
structure Lane where
  st : LaneSt
  copy : List W8
  copyLen : Nat
  img : LImg
  entry : Option Nat
  limit : Bool
  chained : Bool
  mid : Bool
  stack : List (Nat × Nat)
  crit : Bool
  v0 : Int
  due : Tab Nat
  staged : Tab Nat
  late : List Nat
  lateT : Option Nat
  cmds : List (W32 × Bool)
  resume : Option Nat
  judge : Bool
deriving DecidableEq, Repr, Inhabited

end Sys2Proof.Machine
end

