-- ==== Sys2Proof/Machine/TypesLogic.lean ====
section
/-! DEFINITION. What a logic processor holds beside its registers (chapter 08). -/

namespace Sys2Proof.Machine

/-- A task entry (Table 8-15); k is NUMBER, plus 8 for EVENT. -/
structure LTask where
  event : Bool
  k : Nat
  prio : Nat
  span : Nat
  entry : Nat
  wcet : Nat
  pliale : Nat
deriving DecidableEq, Repr, Inhabited

/-- An instance entry of an image (Table 8-16). -/
structure LInst where
  id : Nat
  kind : Nat
  base : Nat
  preset : Nat
deriving DecidableEq, Repr, Inhabited

/-- A symbol (Table 8-17): ID, area, address, word or bit. -/
structure LSym where
  id : Nat
  area : Nat
  addr : Nat
  word : Bool
deriving DecidableEq, Repr, Inhabited

/-- An input entry and an output entry (Table 8-17). -/
structure LIn where
  n : Nat
  k : Nat
deriving DecidableEq, Repr, Inhabited
structure LOut where
  n : Nat
  wide : Bool
  k : Nat
  safe : W32
deriving DecidableEq, Repr, Inhabited

/-- An INIT record (Table 8-17). -/
structure LInit where
  area : Nat
  addr : Nat
  onChange : Bool
  words : List W16
deriving DecidableEq, Repr, Inhabited

/-- A verified logic program (R235). -/
structure LProg where
  tasks : List LTask
  code : List W32
  insts : List LInst
  syms : List LSym
  ins : List LIn
  outs : List LOut
  inits : List LInit
  id : Nat
deriving DecidableEq, Repr, Inhabited

/-- A slot of the instance memory (Table 8-16, window column): kind, IN or edge memory, Q, INIT, BASE, PT or PV, start BP or CV. -/
structure Slot where
  kind : Nat
  inp : Bool
  q : Bool
  init : Bool
  base : Nat
  preset : Int
  val : Int
deriving DecidableEq, Repr, Inhabited

/-- A released instance (R215, R236): task, release and deadline BP, signal image (inputs and outputs as read at release),
outputs, shared words and
slots written and not committed, the shared area as committed before the release, LB, branch stack (saved LB and
0 AND, 1 OR, 2 XOR), ACC, X, instruction address, END executed, cycles executed, F flags. -/
structure TInst where
  k : Nat
  rel : Nat
  dead : Nat
  image : Tab W32
  outs : List (Nat × W32)
  hw : List (Nat × W16)
  sl : List (Nat × Slot)
  h : Tab W16
  lb : Bool
  stack : List (Bool × Nat)
  acc : W16
  x : W16
  pc : Nat
  ended : Bool
  cyc : Nat
  first : Bool
  changed : Bool
  resumed : Bool
  synced : Bool
deriving DecidableEq, Repr, Inhabited

/-- What a task keeps between instances: OV, DZ, instance count, flags for its next instance, a pending trigger. -/
structure TKeep where
  ov : Bool
  dz : Bool
  count : Nat
  first : Bool
  changed : Bool
  resumed : Bool
  synced : Bool
  pend : Bool
deriving DecidableEq, Repr, Inhabited

/-- The processor states and the states of its staged bank (LP_STAT). -/
inductive LpSt
  | empty | loading | loaded | running | quarantined | held
deriving DecidableEq, Repr, Inhabited
inductive LpStage
  | none | verifying | staged | pending
deriving DecidableEq, Repr, Inhabited

/-- A command of LP_CMD that a C2 has committed and the next t0 carries out (R230): LOAD with its address and length, UNLOAD. -/
inductive LpCmd
  | load (addr len : Nat)
  | unload
deriving DecidableEq, Repr, Inhabited

/-- A logic processor: state, stage, active bank, programs, container being verified, bit and word memory, own quarter of the
shared area (live), instance memory, instances released, what tasks keep, forces (symbol ID, value), change point, its
DROP_FORCES, deferrals, task in execution (for the cost of pre-emption), time off at the latest resume in ms, cycle of the BP at
which the processor stands, commands that the next t0 carries out. -/
structure Lp where
  st : LpSt
  stage : LpStage
  bank : Bool
  prog : LProg
  next : LProg
  copy : List W8
  copyLen : Nat
  m : Tab W16
  w : Tab W16
  h : Tab W16
  slots : Tab Slot
  insts : List TInst
  keep : Tab TKeep
  forces : List (Nat × Nat)
  chgAt : Nat
  chgDrop : Bool
  deferrals : Nat
  current : Option Nat
  offMs : Nat
  at_ : Nat
  cmds : List LpCmd
deriving DecidableEq, Repr, Inhabited

/-- A trigger of a TRIG instruction that takes effect at the next C2: from processor and address, to processor and event task. -/
structure LTrig where
  src : Nat
  pc : Nat
  dst : Nat
  task : Nat
deriving DecidableEq, Repr, Inhabited

end Sys2Proof.Machine
end

