-- ==== Sys2Proof/Machine/TypesLoop.lean ====
section
/-! DEFINITION. What a loop cell holds beside its registers (chapters 04 and 05). -/

namespace Sys2Proof.Machine

/-- The cell states (Table 4-7); HELD is RUNNING while the device is in Held (R102). -/
inductive CellSt
  | stopped | running | fault | quarantined
deriving DecidableEq, Repr, Inhabited

/-- A loop cell: state, coefficient set, clamp and slew flags of the latest sample and the clamp flags as committed at the
latest C2, supervisor timer and OUT, friction half, model state,
whether the model starts at the next sample, delay line of outputs, live rows dirtied in this epoch, drift scan: position,
greatest drift so far and its entry, whether the outer cell has committed the set-point entry since the latest sample (R111). -/
structure Cell where
  st : CellSt
  aset : Nat
  hi : Bool
  lo : Bool
  slew : Bool
  hiC : Bool
  loC : Bool
  timer : Nat
  out : Bool
  neg : Bool
  m : Int
  mNew : Bool
  dl : List Int
  rows : List Nat
  scanPos : Nat
  scanMax : Nat
  scanIx : Nat
  fresh : Bool
deriving DecidableEq, Repr, Inhabited

end Sys2Proof.Machine
end

