-- ==== Sys2Proof/Config.lean ====
section
/-! DEFINITION. What an implementation fixes and what the spec leaves open: constants without a body, so that no proof can
see a value of them. Each is named in notes/assumptions. -/

namespace Sys2Proof

/-- What a parsed X.509 certificate says (R431): whether it chains to the vendor authority, which key signed it, the
KEY_ID of its key and its Vilnihus key-use bits (none where the extension is absent). -/
structure CertInfo where
  vendorChain : Bool
  signer : Nat
  keyId : Nat
  types : Option Nat
deriving DecidableEq, Repr, Inhabited

/-- SHA-256 (11, R293; 18, R432). DESIGN CHOICE, log entry 10: not computed in the model. -/
opaque Config.sha256 : List W8 → List W8
/-- ECDSA P-256 verification of a digest with the key of a KEY_ID. Log entry 10. -/
opaque Config.sigValid : Nat → List W8 → List W8 → Bool
/-- The deterministic signature of the module key over a digest (R461): one value per digest. Log entry 10. -/
opaque Config.moduleSign : List W8 → List W8
/-- Parsing of a DER certificate; none where it cannot be parsed. Log entry 10. -/
opaque Config.parseCert : List W8 → Option CertInfo
/-- A fresh free value, by the model's own counter. Log entry 9. -/
opaque Config.freeW32 : Nat → W32
/-- A fresh free number, by the model's own counter. Log entry 9. -/
opaque Config.freeNat : Nat → Nat
/-- A fresh free yes or no, by the model's own counter. Log entry 9. -/
opaque Config.freeBool : Nat → Bool

/-- One stretch of a motion profile: how many BP, the jerk in units of 2^-64 counts/BP^3, and the
segment of R183 it belongs to. -/
structure Seg where
  len : Nat
  jerk : Int
  no : Nat
deriving DecidableEq, Repr, Inhabited

/-- The profile of a move that starts from motion and has a length that is no whole number of BP: R183 to R185 bound it and
do not fix it. Arguments: v, a, way (2^-64 counts and BP), velocity, acceleration, deceleration and jerk limits. It is taken only
where it keeps R183. Log entry 11. -/
opaque Config.planMove : List Int → List Seg

/-- The number that a SAFETY_TRIP record gives for a cause: kind (0 condition, 1 connection, 2 fault, 3 delay end, 4 Held,
5 locked again) and index (R246 names the causes and no numbers). Log entry 9. -/
opaque Config.tripCause : Nat → Nat → W32

/-- The event code that a BUS_EVENT record gives (Table 15-6 says 'of its chapter'; the chapters give no numbers): 0 Pliale
HALTED, 1 Pliale DUP_MASTER, 2 Pliale SILENT, 3 CAN bus off. Log entry 9. -/
opaque Config.busEventCode : Nat → Nat

/-- The ERR_CODE that a FIELD_FAULT record gives where the spec names no code: 0 core fault (R407), 1 Tally error (R416),
2 row repaired and 3 row without a spare (R423), 4 test-buffer error (R426), 5 case excursion (R442), 6 end of life reached (R445), 7 VFLD low (R453); or a HELD record for
which it names none: 8 authority disagreement (R280). Log entry 9. -/
opaque Config.faultCode : Nat → Nat

/-- The number that a PAIR_ROLE record gives for the cause of a role change (Table 15-6 names none): 0 Held, 1 lost holder or
seizure won, 2 sync, 3 mismatch, 4 witness check, 5 handover, 6 partner lost, 7 partner present, 8 pairing switched. Log entry 9. -/
opaque Config.roleCause : Nat → W32

/-- The 90 % confidence half-width of a fitted slope, from the hourly values (R445 names the bounds and not their
computation), as a rational: numerator and denominator. Log entry 9. -/
opaque Config.slopeBand : List Nat → Nat × Nat

/-- What a byte of the MRAM window reads as in the parts whose layout the spec does not give: kept settings, repair map, image
directory and stored images, staging queue and suppression states of the Daybook. Arguments: offset, counter. Log entry 21. -/
opaque Config.mramOpen : Nat → Nat → BitVec 8

end Sys2Proof
end

