-- ==== Sys2Proof/Machine/TypesMotion.lean ====
section
/-! DEFINITION. What axes, step generators and encoder interfaces hold beside their registers (chapter 07). -/

namespace Sys2Proof.Machine

/-- The axis states (R180, AX_STAT.STATE). -/
inductive AxSt
  | disabled | idle | moving | stopping | estopping | homing | geared | fault | quarantined | held
deriving DecidableEq, Repr, Inhabited

/-- A switch of an axis: debounced state, BPs in which the raw state differed, AX_POS_ACT and the index count at the first of them
(R204, R205). -/
structure Sw where
  on : Bool
  run : Nat
  pos : Int
  idx : Nat
deriving DecidableEq, Repr, Inhabited

/-- An armed ratio change (R193). -/
structure Armed where
  num : Int
  den : Int
  down : Bool
  mpos : Int
deriving DecidableEq, Repr, Inhabited

/-- The registers that a command reads when it commits (R176): AX_TGT, the motion limits, the homing velocities and offset, the gear
registers. -/
structure AxRegs where
  tgt : Int
  vm : Int
  am : Int
  dm : Int
  jm : Int
  hv1 : Int
  hv2 : Int
  hofs : Int
  gnum : Int
  gden : Nat
  anum : Int
  aden : Nat
  adir : Bool
  mpos : Int
deriving DecidableEq, Repr, Inhabited

/-- A committed command that waits for the axis's next compute window (R180): its code, the registers it has read, and, for a lane's
AXIS_MOVE, the lane and the location to which a refusal is reported (R77). -/
structure AxCmd where
  code : Nat
  r : AxRegs
  lane : Option (Nat × Nat)
deriving DecidableEq, Repr, Inhabited

/-- What homing does at the next standstill: the phase to start, or the end of the run (R205 to R208). -/
inductive HNext
  | none | phase (n : Nat) | ok | fail | chatter | reverse
deriving DecidableEq, Repr, Inhabited

/-- An axis cell: state; generator p, v, a with 64 fraction bits (R178); profile left and whether it ends on a target or
cruises on; the direction of a jog (0 none); target (p48.16); extended feedback count, feedback offset (p48.16), extended master, whether each has been
read (R179); history of commanded positions, newest first, and deviation timer (R195); switches; chatter count, homing
phase, direction, reversal, next, last index count, position of an index passed before INDEX begins; gear references and armed change; flags of AX_STAT; a resume whose
position is to be adopted at its first BP (whether VIN was off); the registers that the latest command in force has read, and the commands
that wait for the next compute window. -/
structure Axis where
  st : AxSt
  p : Int
  v : Int
  a : Int
  plan : List Seg
  jog : Bool
  jogDir : Int
  target : Int
  fb : Int
  fbSeen : Bool
  fbOff : Int
  m : Int
  mSeen : Bool
  hist : List Int
  dev : Int
  devTimer : Nat
  devOut : Bool
  limP : Sw
  limN : Sw
  home : Sw
  chat : Nat
  hphase : Nat
  hdir : Int
  hrev : Bool
  hnext : HNext
  idx : Nat
  idxAt : Option Int
  m0 : Int
  f0 : Int
  num : Int
  den : Int
  armed : Option Armed
  done : Bool
  ref : Bool
  overshoot : Bool
  reverse : Bool
  interrupted : Bool
  estop : Bool
  hres : Nat
  back : Option Bool
  lim : AxRegs
  cmds : List AxCmd
deriving DecidableEq, Repr, Inhabited

/-- A step generator: step positions of the latest two C2 instants in units of 1 / (65536 x DEN), steps carried, tick of
the latest edge against the present t0, direction level, CARRY, whether a C2 has been taken since it was enabled (R199). -/
structure Stp where
  s0 : Int
  s1 : Int
  carried : Int
  lastEdge : Int
  dir : Bool
  carry : Bool
  seen : Bool
deriving DecidableEq, Repr, Inhabited

/-- An encoder interface: VALID, levels, frame errors in a row, latched SSI value of the BP (R201, R202). -/
structure Enc where
  valid : Bool
  a : Bool
  b : Bool
  z : Bool
  ssiErr : Nat
  on : Bool
deriving DecidableEq, Repr, Inhabited

end Sys2Proof.Machine
end

