-- ==== Sys2Proof/Machine/TypesPliale.lean ====
section
/-! DEFINITION. Pliale schedules and segments (chapter 12). -/

namespace Sys2Proof.Machine

/-- A slot of a schedule (Table 12-5). -/
structure PlEnt where
  addr : Nat
  inQ : Bool
  outQ : Bool
  outLen : Nat
  inLen : Nat
  invCyc : Nat
  pollOfs : Nat
  replyOfs : Nat
  outSig : Nat
  inSig : Nat
  safe : W32
deriving DecidableEq, Repr, Inhabited

/-- A schedule (Table 12-4). -/
structure PlSched where
  cyc : Nat
  l3 : Bool
  latch : Nat
  apply : Nat
  acycOfs : Nat
  acycLen : Nat
  guardNs : Nat
  id : Nat
  ents : List PlEnt
deriving DecidableEq, Repr, Inhabited

/-- The segment states (Table 12-9). -/
inductive PlSt
  | empty | loading | stopped | listen | running | halted | quarantined
deriving DecidableEq, Repr, Inhabited

/-- The slot states (Table 12-8). -/
inductive SlSt
  | off | init | seeking | active | silent
deriving DecidableEq, Repr, Inhabited

/-- A slot at work: state; LOST; INVALID; slot-edge run; DELAY_RANGE; witness; MISS_RUN; cycles without an accepted reply
since SEEKING; reply accepted, anything heard and a frame of the master spoilt by a readback mismatch in this cycle; NOREPLY; invalid run of the entries; input bytes of the
latest accepted reply; forwarded ones; an L3 commit is due; exchanges sent, answered and their sum; measured. -/
structure SlS where
  st : SlSt
  lost : Bool
  invalid : Bool
  edgeRun : Nat
  range : Bool
  witness : Nat
  missRun : Nat
  lostRun : Nat
  got : Bool
  heard : Bool
  spoilt : Bool
  mute : Bool
  invRun : Nat
  data : List W8
  fwd : Option (List W8)
  due : Bool
  asked : Nat
  answers : Nat
  sum : Int
  measured : Bool
deriving DecidableEq, Repr, Inhabited

/-- A segment: state; schedule; copy in verification and its length; effective cycle length; BP at which the present cycle
began; BP of the latest line activity in LISTEN; cycles since LISTEN; DUP_MASTER; collisions; closing cycle (2 to come, 1
under way); slots; acyclic request waiting or sent, with its RMAX; slots to be sent RESYNC; violators of the cycle (slot,
start, end); output bytes of each slot for its POLL, and those captured at the latest C2; the slots keep their states when the silence ends (a
resume, R332); frames sent in the cycle (instant, body); witness counts of a check:
replies, and replies that name the partner's port. -/
structure Pl where
  st : PlSt
  sched : Option PlSched
  copy : List W8
  copyLen : Nat
  cyc : Nat
  start : Option Nat
  heardAt : Nat
  cycles : Nat
  dup : Bool
  coll : Nat
  closing : Nat
  slots : List SlS
  wait : Bool
  asked : Bool
  resync : List Nat
  violators : List (Nat × Nat × Nat)
  outs : List (List W8)
  taken : List (List W8)
  kept : Bool
  sent : List (Nat × List W8)
  wr : Nat
  wp : Nat
deriving DecidableEq, Repr, Inhabited

end Sys2Proof.Machine
end

