-- ==== Sys2Proof/Machine/TypesSafety.lean ====
section
/-! DEFINITION. The safety table and the state of the two safety channels (chapter 09). -/

namespace Sys2Proof.Machine

/-- What the output switches read at a safety cycle (R243): those that read open, those that read conducting, whatever they are told. -/
structure SoSeen where
  opens : Nat
  shorts : Nat
deriving DecidableEq, Repr, Inhabited

/-- A contact change as the channels see it (R238, R241): the channels whose comparators see it (bit 0 A, bit 1 B), the new level, and
the 10 µs sample of the present cycle. -/
structure SioSeen where
  channels : Nat
  lvl : Bool
  sample : Nat
deriving DecidableEq, Repr, Inhabited

/-- An input pair of the table: MODE (Table 9-4) and DISC in ms. -/
structure SfPair where
  mode : Nat
  disc : Nat
deriving DecidableEq, Repr, Inhabited

/-- An output of the table: EN, DARK and DARK_US. -/
structure SfOut where
  en : Bool
  dark : Bool
  us : Nat
deriving DecidableEq, Repr, Inhabited

/-- An instance of the table (R255): type, RESTART = AUTO, RESET_PAIR, four condition references, AUX, OUT_MASK, producer
bit (connection, bit), OFF_DELAY, request (entry, bit), PARAM. -/
structure SfInst where
  typ : Nat
  auto : Bool
  rpair : Nat
  conds : List Nat
  aux : Nat
  outs : Nat
  prod : Option (Nat × Nat)
  delay : Nat
  req : Option (Nat × Nat)
  param : Nat
deriving DecidableEq, Repr, Inhabited

/-- A producer connection: CONN_ID (0 unused), PERIOD, CONN_KEY. -/
structure SfProd where
  conn : Nat
  period : Nat
  key : Nat
deriving DecidableEq, Repr, Inhabited

/-- A consumer connection: CONN_ID (0 unused), PERIOD, WD in ms, TOL in s, CONN_KEY. -/
structure SfCons where
  conn : Nat
  period : Nat
  wd : Nat
  tol : Nat
  key : Nat
deriving DecidableEq, Repr, Inhabited

/-- A parsed safety table with its body, the key that signed it, and the CRC-32C of the body. -/
structure SfTable where
  body : List W8
  crc : Nat
  kid : Nat
  id : Nat
  etype : Nat
  stat : Nat
  pairs : List SfPair
  outs : List SfOut
  insts : List SfInst
  prods : List SfProd
  cons : List SfCons
deriving DecidableEq, Repr, Inhabited

/-- SF_STAT.MODE. -/
inductive SfMode
  | unconfigured | pending | active | lockout
deriving DecidableEq, Repr, Inhabited

/-- The instance states (Table 9-8). -/
inductive SfSt
  | stop | ready | run | delay | fault
deriving DecidableEq, Repr, Inhabited

/-- An instance: state, output Q, delay timer, ms of muting in this period and whether it has ended, ms for which AUX has read ON,
its transition of the coming cycle taken ahead by OFF_DELAY_END. -/
structure SfIs where
  st : SfSt
  q : Bool
  timer : Nat
  mute : Nat
  muted : Bool
  aux : Option Nat
  moved : Bool
deriving DecidableEq, Repr, Inhabited

/-- The consumer connection states (Table 9-11). -/
inductive SfCst
  | unused | ok | degraded | tripped
deriving DecidableEq, Repr, Inhabited

/-- A consumer connection: state; latest SEQ accepted from network A and B; cycles since a frame from each; frames
accepted from one network whose copy has not come (network, SEQ, bytes); copies that differed; equal pairs in a row and the
SEQ of the latest; tolerance timer; highest SEQ accepted and its data. -/
structure SfConn where
  st : SfCst
  seqA : Option Nat
  seqB : Option Nat
  ageA : Nat
  ageB : Nat
  waiting : List (Nat × Nat × List W8)
  differ : Bool
  equal : Nat
  eqSeq : Nat
  tol : Nat
  hi : Option Nat
  data : W32
deriving DecidableEq, Repr, Inhabited

/-- An input pair at work: latched ON; filtered pattern ON; instant at which it came ON; length of its latest ON period, both in
10 µs of the channels' own time; whether that is new; discrepancy timer; ms for which it differs from the forwarded state. -/
structure SfPs where
  on : Bool
  now : Bool
  onAt : Nat
  len : Nat
  fresh : Bool
  disc : Option Nat
  diff : Nat
deriving DecidableEq, Repr, Inhabited

/-- A latched input image (R252): pairs, reset edges, jams, discrepancies (bit i: pair i), consumer data and states. -/
structure SfImg where
  pairs : Nat
  edges : Nat
  jam : Nat
  disc : Nat
  data : List W32
  conns : List SfCst
deriving DecidableEq, Repr, Inhabited

/-- What is one channel's own: instances, image of the cycle, forwarded image that has arrived, CLK_ALONE. -/
structure SfChan where
  insts : List SfIs
  img : SfImg
  fwd : Option SfImg
  alone : Bool
deriving DecidableEq, Repr, Inhabited

/-- The safety channels: mode, tables, seal, the two channels, pairs, connections, producers' SEQ, frames sent in the
latest cycle, cycles for which a switch that is on has read open, mismatches in a row, lockout cause, UNLOCKED, password
store (salt; hash, none: the factory password), failed attempts in a row, SF_CYC of the latest failure, of the latest
configuration command and of the load of the pending table, PAIR_FWD; the contacts as channel B's comparators see them (bit i:
SIiiA, SIiiB); commands that wait for c0; a confirmed table that takes effect at c0; images sent to the partner in the latest cycle. -/
structure Safety where
  mode : SfMode
  table : Option SfTable
  pend : Option SfTable
  sealed_ : List W8
  a : SfChan
  b : SfChan
  pairs : List SfPs
  conns : List SfConn
  seqs : Tab Nat
  sent : List (List W8)
  openRun : Tab Nat
  xrun : Nat
  cause : Nat
  unlocked : Bool
  salt : List W8
  hash : Option (List W8)
  fails : Nat
  failAt : Nat
  cfgAt : Nat
  pendAt : Nat
  fwd : Bool
  inA : Nat
  inB : Nat
  cmds : List Nat
  confirmed : Bool
  imgs : List SfImg
deriving DecidableEq, Repr, Inhabited

end Sys2Proof.Machine
end

