-- ==== Sys2Proof/Machine/TypesJournal.lean ====
section
/-! DEFINITION. The journalled state, its commits, the output hold and the image directory's digest (chapter 11). -/

namespace Sys2Proof.Machine

/-- What the journal holds of a boundary: the (J) registers, the signal table and every block's journalled state. -/
structure Snap where
  regs : Tab W32
  sig : Tab W32
  attr : Tab W32
  lanes : Tab Lane
  axes : Tab Axis
  stps : Tab Stp
  encs : Tab Enc
  quar : List Nat
  lps : Tab Lp
  shared : Tab W16
  trigs : List LTrig
  cells : Tab Cell
  ctab : Tab W16
  cores : Tab Core
  aos : Tab AoCh
  dios : Tab DioPin
  sf : Safety
  pls : Tab Pl
deriving DecidableEq, Repr, Inhabited

/-- A commit (Table 11-7) with the state it restores. -/
structure Commit where
  number : Nat
  boundary : Nat
  ka : Nat
  tb : Nat
  digest : Nat
  fw : Nat
  rows : Nat
  final : Bool
  baseline : Bool
  snap : Snap
deriving DecidableEq, Repr, Inhabited

/-- The Strongbox journal: the newest complete commit and the one before it, the drain in progress, whether this BP is an epoch boundary
whose snapshot is still to be taken, the state that C2 of a boundary left (R34), the epoch length in force, starts in a row from the newest commit
without a new one, number of the latest commit, highest number that a commit slot or a row tag may hold (R301), FORCE_COLD armed. -/
structure Journal where
  commits : List Commit
  draining : Option Commit
  due : Bool
  shadow : Option Snap
  epoch : Nat
  starts : Nat
  top : Nat
  tagTop : Nat
  cold : Bool
deriving DecidableEq, Repr, Inhabited

/-- The output hold (R308): holding, HOLD_TIME reached, RESET_SRC of the start it belongs to, values held: analog outputs (none:
driver off), digital outputs, direction levels of the step generators; the safe values of the outputs, which apply when the hold expires. -/
structure OutHold where
  holding : Bool
  expired : Bool
  src : Nat
  ao : Tab (Option Int)
  dio : Tab Bool
  dir : Tab Bool
  aoSafe : Tab (Option Int)
  dioSafe : Tab Bool
deriving DecidableEq, Repr, Inhabited

/-- What the boot finds (R275, R295, R313, R315): firmware banks whose container fails its check, a commit slot that failed,
the newest commit and the one before it not recoverable, the directory seal wrong, images (page base, bank) whose bytes no
longer match, Guyline wires healthy; KA_RTC units and ms of OPT_MS that have passed since the start began or the command last came;
outputs whose switches the output test of the start does not find healthy (bit o: output o). -/
structure BootEnv where
  fwBad : List Nat
  slotBad : Bool
  newestBad : Bool
  prevBad : Bool
  sealBad : Bool
  images : List (Nat × Nat)
  wireA : Bool
  wireB : Bool
  ka : Nat
  ms : Nat
  soBad : Nat
deriving DecidableEq, Repr, Inhabited

end Sys2Proof.Machine

namespace Sys2Proof

/-- The digest of R303 over a journalled state with its LOCAL rows left out: the spec does not lay the rows out. Log entry 21. -/
opaque Config.digest : Machine.Snap → Nat
/-- The SHA-256 of the image directory (R296, R432): the spec does not lay the directory out. Log entry 21. -/
opaque Config.dirDigest : List Machine.DirEnt → List W8
/-- The journal layout of a firmware, by its BODY_SHA256 (Table 11-7). Log entry 21. -/
opaque Config.fwLayout : List W8 → Nat
/-- BODY_SHA256 of the firmware that a bank holds from the factory. Log entry 21. -/
opaque Config.factoryFw : Nat → List W8
/-- IMG_VER of the firmware that a bank holds from the factory. Log entry 21. -/
opaque Config.factoryVer : Nat → Nat

end Sys2Proof
end

