-- ==== Sys2Proof/Machine/TypesTime.lean ====
section
/-! DEFINITION. The time base, the PTP domains and the Ethernet ports (chapter 14). -/

namespace Sys2Proof.Machine

/-- A domain's servo: Sync intervals in a row within 100 ns; announce receipt and Sync timeouts in force; OPT_MS of the entry
into HOLDOVER; currentUtcOffset as TB_UTC_OFS shows it. -/
structure Dom where
  run : Nat
  hoAnn : Bool
  hoSync : Bool
  holdAt : Nat
  utc : W32
deriving DecidableEq, Repr, Inhabited

/-- The time base: frequency and phase part of TB_INC; remaining slew of a domain switch and of the pair correction, in units
of 2^-24 ns; SET waiting for t0; pair step waiting for t0 (2^-24 ns); first lock after a VIN resume to come; domains. -/
structure Tb where
  fpart : Int
  phase : Int
  slew : Option Int
  pairSlew : Option Int
  set : Bool
  pairStep : Option Int
  vinResume : Bool
  doms : Tab Dom
deriving DecidableEq, Repr, Inhabited

/-- What supervisor firmware has worked out from a PTP message (R360): Sync or Announce; offset in ns; error of the domain's own servo in
ns (log entry 61); mean path delay;
frequency error in 0.01 ppb; frequency and phase part for TB_INC; grandmaster; port state; stepsRemoved; TB_UTC_OFS. -/
structure PtpMsg where
  sync : Bool
  offset : Int
  own : Int
  delay : Nat
  freq : Int
  fpart : Int
  phase : Int
  gmid : Nat
  pstate : Nat
  steps : Nat
  utc : W32
deriving DecidableEq, Repr, Inhabited

/-- A gate control list (R372): base, cycle, entries (gate states, interval). -/
structure Gcl where
  base : Nat
  cycle : Nat
  ents : List (Nat × Nat)
deriving DecidableEq, Repr, Inhabited

/-- A stream of sequence recovery (R375): source, destination and VID; latest sequence number; history, bit i: number i
before it was seen; OPT_MS of the latest frame. -/
structure CbStream where
  src : Nat
  dst : Nat
  vid : Nat
  seq : Nat
  hist : Nat
  last : Nat
deriving DecidableEq, Repr, Inhabited

/-- A port: committed list that waits, TB_NS of its commit; operational list, entry in force, gates held after a step of
TB_NS; streams; publication frames that wait (port and number of the publication); frames sent in the latest BP. -/
structure Eth where
  pend : Option Gcl
  pendAt : Nat
  oper : Option Gcl
  entry : Nat
  hold : Bool
  streams : List CbStream
  pubq : List (Nat × Nat × List W8)
  sent : List (List W8)
deriving DecidableEq, Repr, Inhabited

end Sys2Proof.Machine
end

