-- ==== Sys2Proof/Machine/TypesTwin.lean ====
section
/-! DEFINITION. The twin controller and the Guyline (chapter 10), and the message bus channels (chapter 13). -/

namespace Sys2Proof.Machine

/-- A lane frame that bears on control: inputs of a BP with TT(n); a batch of pair-ordered writes from a sequence number on;
a forwarded Pliale reply; a safety image of a channel. -/
inductive TwFrame
  | input (bp tt : Nat) (vals : List (W32 × Bool))
  | writes (bp first : Nat) (ws : List (Nat × W32))
  | pliale (bp s k : Nat) (data : List W8)
  | image (bp f : Nat) (img : SfImg)
deriving DecidableEq, Repr, Inhabited

/-- What a lane frame's header and tag tell its receiver (R262): the lane, the frame counter, tag and length right. -/
structure TwHead where
  lane : Nat
  ctr : Nat
  good : Bool
deriving DecidableEq, Repr, Inhabited

/-- A lane frame as it arrives: its head, and the first field of its content. -/
structure TwRx (α : Type) where
  head : TwHead
  body : α
deriving DecidableEq, Repr, Inhabited

/-- What a Lantern beat says (R277, R287): its number, the role, HELD, RELEASE, PREF, the unit code, the epoch of the last commit,
the handover BP it names. -/
structure TwBeat where
  number : Nat
  role : Nat
  held : Bool
  release : Bool
  pref : Bool
  code : Nat
  epoch : Nat
  handover : Option Nat
deriving DecidableEq, Repr, Inhabited

/-- A frame that the module sends on its lanes (Table 10-3): BEAT, INPUT, PLIALE, WRITES, DIGEST, CTRL, BASE (a whole state), TIME
with the trim applied to the root. SAFE_IMG frames stand with the safety channels. -/
inductive TwOut
  | beat (b : TwBeat)
  | input (bp tt : Nat) (vals : List (W32 × Bool))
  | pliale (bp s k : Nat) (data : List W8)
  | writes (bp first : Nat) (ws : List (Nat × W32))
  | digest (epoch dig : Nat)
  | ctrl (kind : Nat)
  | base (epoch : Nat) (s : Snap)
  | time (bp ns frac : Nat) (trim : W32)
deriving DecidableEq, Repr, Inhabited

/-- The twin controller: lanes trained and trusted; flags of TW_STAT; consecutive equal digests; flags of the partner's
latest beat; Lantern failure; code decoded on the line, line idle, own train, seizing,
seizure won and lost since the latest t0; wires healthy; authority copies of the safety channels; sync phase, failures in a
row, failures of a chunk, BP of base installation; frames held for their BP; BP of entry into STANDBY, hold-off over; return asked for
(and without hold-off); handover BP; next sequence number and queue of pair-ordered writes; own and partner's digests by
epoch that wait for each other; BP at which a witness check ends; BP whose missing INPUT and WRITES frame has been counted; exchange
of a lane failed and to be retried; base chunks that have passed, and those that have failed, once for each time; the latest counter
accepted on each lane; the trim of the authority's root; a sync request to be served; frames sent since the latest t0. -/
structure Twin where
  tr0 : Bool
  tr1 : Bool
  up0 : Bool
  up1 : Bool
  retry0 : Bool
  retry1 : Bool
  strapErr : Bool
  joining : Bool
  baseOk : Bool
  halt : Bool
  withdrawn : Bool
  orphan : Bool
  matches_ : Nat
  heldP : Bool
  releaseP : Bool
  failure : Bool
  holder : Option Nat
  idle : Bool
  hold : Bool
  seizing : Bool
  won : Bool
  lostSz : Bool
  wireA : Bool
  wireB : Bool
  authA : Bool
  authB : Bool
  phase : Nat
  fails : Nat
  chunkFails : List Nat
  baseAt : Nat
  frames : List TwFrame
  standbyAt : Nat
  holdDone : Bool
  asked : Bool
  askNow : Bool
  handover : Option Nat
  seq : Nat
  queue : List Posted
  own : List (Nat × Nat)
  peer : List (Nat × Nat)
  witness : Option Nat
  counted : Nat
  countedW : Nat
  chunks : List Nat
  ctr0 : Option Nat
  ctr1 : Option Nat
  trim : W32
  serve : Bool
  sent : List TwOut
deriving DecidableEq, Repr, Inhabited

/-- The channel states (Table 13-5). -/
inductive CxSt
  | stopped | integrating | active | passive | busOff | recovering | monitor
deriving DecidableEq, Repr, Inhabited

/-- A channel: state, TEC, REC, CX_RCV11, the request on the bus (queue, TB_NS of its start of frame), STOP asked for during
it, requests of a queue that a FLUSH has removed and that wait behind it. -/
structure Cx where
  st : CxSt
  tec : Nat
  rec_ : Nat
  rcv : Nat
  busy : Option (Nat × Nat)
  stopping : Bool
  flush : Tab Nat
deriving DecidableEq, Repr, Inhabited

/-- A frame on a message bus: identifier, IDE, RTR, format (1 classical, 2 FD, 3 XL), BRS, ESI, SEC, SDT, VCID, AF, data, TB_NS of its start. -/
structure CanFrame where
  id : Nat
  ide : Bool
  rtr : Bool
  fmt : Nat
  brs : Bool
  esi : Bool
  sec : Bool
  sdt : Nat
  vcid : Nat
  af : Nat
  data : List W8
  stamp : Nat
deriving DecidableEq, Repr, Inhabited

end Sys2Proof.Machine
end

