-- ==== Sys2Proof/Syntax.lean ====
section
/-! DEFINITION. The commands of the block: one constructor a row of spec/opcode_table.json, with the operands the row needs. A
command is a host access with a row of its own, any other host access (REGISTER_WRITE), an event at a pin, a bus or a link, or
the instant at which the block does something by itself. The constructors stand in the order of the table, but that those with
operands come first, those without after them, and logic instructions and NOP commands last: compiled Lean builds no constructor
with operands beyond the 245th, and a run by evaluation then still reaches every other command. -/

namespace Sys2Proof

open Sys2Proof.Machine

/-- The commands. -/
inductive Instr
  /-- BASE_PERIOD (R25). Start of a base period at t0, driving the commits, compute window and configuration window of that BP. -/
  | basePeriod (env : BpEnv)
  /-- SCRATCHPAD_UE (R96). An uncorrectable scratchpad error quarantines the tile with SCRATCH_UE. -/
  | scratchpadUe (p : Page) (off : Nat)
  /-- SIG_WINDOW_WRITE (R21). Host or application-core write through the signal-table window. -/
  | sigWindowWrite (n : Nat) (val : W32)
  /-- PLL_RELOCK (R31). The root PLL relocks, and a warm reset follows. -/
  | pllRelock (us : Nat)
  /-- PLL_RELOCK_TIMEOUT (R31). The 10 ms relock attempt expires, and a warm reset follows. -/
  | pllRelockTimeout (us : Nat)
  /-- REGION_FAULT (R13). An uncorrectable region fault (crossbar parity, region clock loss, store ECC) occurs. -/
  | regionFault (p : Page) (code : Nat) (addr : Nat)
  /-- CLK_TRIM_WRITE (R30). A trim request is clamped and ramped into the root PLL at no more than 1 ppm/s. -/
  | clkTrimWrite (val : W32)
  /-- LINK_UP (R40). The host link returns to L0 and vectors are no longer masked for the link. -/
  | linkUp (rate : Nat) (width : Nat)
  /-- REGISTER_WRITE (R51). Write to a register that has no row of its own, checked for lock, BUSY, alignment and mapping. -/
  | registerWrite (who : Nat) (addr : Nat) (be : Nat) (val : W64)
  /-- WRITE_CROSSING_DONE (R51). A posted write finishes crossing into its block's domain and BUSY clears. -/
  | writeCrossingDone (p : Page)
  /-- XDOM_TIMEOUT (R52). A cross-domain access is not answered within 2 µs; the read returns all ones or the posted write is dropped. -/
  | xdomTimeout (p : Page) (write : Bool)
  /-- KEYLOCK_ENGAGE (R49). Writing 0x0000_A5C3 to KEYLOCK engages the page write lock. -/
  | keylockEngage (p : Page)
  /-- KEYLOCK_RELEASE (R49). Writing 0x0000_5A3C to KEYLOCK releases the page write lock. -/
  | keylockRelease (p : Page)
  /-- ACK_WRITE (R50). Writing a seen count into an _ACK field clears the condition that its counter drives. -/
  | ackWrite (addr : Nat) (val : W32)
  /-- EVT_EN_WRITE (R56). Setting an event enable can make its source pending at once. -/
  | evtEnWrite (p : Page) (val : W32)
  /-- MSIX_MASK_WRITE (R58). The host changes an MSI-X vector or function mask, enable or bus master enable. -/
  | msixMaskWrite (kind : Nat) (vec : Nat) (on : Bool)
  /-- VEC_DONE (R58). Writing a vector into DEV_VEC_DONE ends its SENT state and may send a fresh message. -/
  | vecDone (val : W32)
  /-- SWE_RAISE (R60). Writing k to DEV_SWE_RAISE increments doorbell k's count. -/
  | sweRaise (val : W32)
  /-- ID_RING_WRITE (R378). A write of ID_RING updates both Daybook headers and writes a RING_SET record. -/
  | idRingWrite (val : W32)
  /-- BLK_CTRL_RUN (R46). Setting or clearing a block's RUN bit starts or stops the block. -/
  | blkCtrlRun (p : Page) (on : Bool)
  /-- BLK_CTRL_SAFE_REQ (R46). Setting or clearing SAFE_REQ sends a block's outputs to their safe values or releases them. -/
  | blkCtrlSafeReq (p : Page) (on : Bool)
  /-- LANE_LOAD (R67). LOAD command starts verification of the Ledger image at SQ_LOAD_ADDR. -/
  | laneLoad (l : Nat)
  /-- LANE_VERIFY_DONE (R70). Image verification ends; the lane enters LOADED and claims its targets, or returns EMPTY with a failure code. -/
  | laneVerifyDone (l : Nat)
  /-- LANE_UNLOAD (R67). UNLOAD command releases every claim and empties the lane. -/
  | laneUnload (l : Nat)
  /-- LANE_START (R66). START command enters the start step, checked for a valid NAME. -/
  | laneStart (l : Nat) (name : Nat)
  /-- LANE_PAUSE (R69). PAUSE command freezes the elapsed count, ramp and timeout. -/
  | lanePause (l : Nat)
  /-- LANE_CONTINUE (R67). CONTINUE command carries on from the frozen position. -/
  | laneContinue (l : Nat)
  /-- LANE_STOP (R67). STOP command sends targets safe, disarms slots and returns the lane to LOADED. -/
  | laneStop (l : Nat)
  /-- LANE_ABORT (R67). ABORT command enters the abort step, or acts as STOP when there is none. -/
  | laneAbort (l : Nat)
  /-- STEP_DURATION_END (R74). A TIMED or RAMP step reaches its duration and the next step is entered. -/
  | stepDurationEnd (l : Nat)
  /-- WAIT_TIMEOUT (R74). A WAIT step times out and goes to TARGET, or faults with TARGET 0. -/
  | waitTimeout (l : Nat)
  /-- SCHED_ARM (R87). A host write arms scheduled slot k with SQ_SCHk_TIME. -/
  | schedArm (l : Nat) (k : Nat) (pol : Bool)
  /-- SCHED_DISARM (R89). A host write disarms scheduled slot k. -/
  | schedDisarm (l : Nat) (k : Nat) (pol : Bool)
  /-- SCHED_SLOT_FIRE (R87). A scheduled slot fires at the first tick whose tick time reaches its due time. -/
  | schedSlotFire (l : Nat) (k : Nat)
  /-- ACT_SIG_WRITE (R76). Lane action SIG_WRITE stages a value to a signal entry. -/
  | actSigWrite (l : Nat) (j : Nat)
  /-- ACT_AXIS_MOVE (R181). Lane action AXIS_MOVE writes a target and issues an absolute or relative move. -/
  | actAxisMove (l : Nat) (j : Nat)
  /-- ACT_LOGIC_EVENT (R216). Lane action LOGIC_EVENT triggers an event task of a logic processor. -/
  | actLogicEvent (l : Nat) (j : Nat)
  /-- ACT_ARM_SCHED (R87). Lane action ARM_SCHED arms a slot at tick time plus DELAY. -/
  | actArmSched (l : Nat) (j : Nat)
  /-- ACT_DISARM_SCHED (R89). Lane action DISARM_SCHED disarms a slot. -/
  | actDisarmSched (l : Nat) (j : Nat)
  /-- ACT_CRITICAL (R85). Lane action CRITICAL marks the step critical and freezes its critical cell set. -/
  | actCritical (l : Nat) (j : Nat)
  /-- LT_GRP_START (R95). Loop tile group command START sets RUN of every masked cell. -/
  | ltGrpStart (t : Nat)
  /-- LT_GRP_STOP (R95). Loop tile group command STOP clears RUN of every masked cell. -/
  | ltGrpStop (t : Nat)
  /-- COEF_WRITE (R98). A coefficient window write goes to the set named by LC_CSEL, subject to running and frozen rules. -/
  | coefWrite (g : Nat) (sec : Nat) (r : Nat) (val : W32)
  /-- LOOP_ROUTE_WRITE (R100). A write of LC_OUT_DST or LC_PUB claims or releases output entries. -/
  | loopRouteWrite (g : Nat) (pub : Bool) (val : W32)
  /-- SUPERVISION_TRIP (R126). The supervisor timer reaches LC_SUP_TIME and the cell faults with FE_TRIP or PLAUS_TRIP. -/
  | supervisionTrip (g : Nat)
  /-- LEARN_BUDGET_RESET (R136). BUD_USED returns to 0 at each BP whose BP_CNT mod 100,000 is 0. -/
  | learnBudgetReset (g : Nat)
  /-- DRIFT_SCAN_END (R138). A 768-entry drift scan ends and LC_DRIFT_MAX is updated, with a record when DRIFT sets. -/
  | driftScanEnd (g : Nat)
  /-- RESET_LIVE (R139). LC_COMP_CMD RESET_LIVE copies commissioned tables to live tables. -/
  | resetLive (g : Nat)
  /-- ADOPT (R139). LC_COMP_CMD ADOPT copies live tables to commissioned tables. -/
  | adopt (g : Nat)
  /-- COMP_BIND_WRITE (R129). A write of LC_COMP_CFG binds or releases a table slot, refused if bound elsewhere. -/
  | compBindWrite (g : Nat) (val : W32)
  /-- COMP_SLOT_WRITE (R130). A write to a table-slot word, refused while its bound cell is not stopped. -/
  | compSlotWrite (t : Nat) (off : Nat) (val : W32)
  /-- ADC_WINDOW_START (R145). A conversion slot starts a window on the next entry of the active sequence. -/
  | adcWindowStart (k : Nat) (w0 : Nat)
  /-- ADC_CONVERSION_DONE (R147). A slice delivers a corrected result word. -/
  | adcConversionDone (k : Nat) (sample : Int) (ovr : Bool) (ok : Bool)
  /-- ADC_CHANNEL_STARVED (R150). A channel without a result for 16 BP becomes invalid. -/
  | adcChannelStarved (k : Nat) (n : Nat)
  /-- SEQ_COMMIT (R146). AC_SEQ_COMMIT schedules the shadow sequence for the next wrap. -/
  | seqCommit (k : Nat)
  /-- RANGE_SETTLE_END (R143). The 50 µs invalid period after a range change ends. -/
  | rangeSettleEnd (k : Nat) (n : Nat)
  /-- CAL_ROTATION (R153). At a calibration boundary the spare takes the slot of the oldest active slice. -/
  | calRotation (k : Nat)
  /-- SLICE_CAL_DONE (R153). A calibrating slice finishes its calibration and becomes SPARE. -/
  | sliceCalDone (k : Nat) (res : Option (Int × Int × Int))
  /-- CAL_STORE_UE (R155). An uncorrectable error in the calibration store quarantines the core. -/
  | calStoreUe (k : Nat)
  /-- REF_SETTLE (R156). The selected reference meets its settle condition and REF_SETTLED sets. -/
  | refSettle (k : Nat)
  /-- REF_LOST (R156). The reference leaves its window and REF_SETTLED clears. -/
  | refLost (k : Nat)
  /-- AO_OTEMP (R163). An analog output overheats and enters FAULT. -/
  | aoOtemp (c : Nat)
  /-- AO_ILIM_FAULT (R163). An analog output current-limits for 100 consecutive BP and enters FAULT. -/
  | aoIlimFault (c : Nat)
  /-- AO_READBACK_FAULT (R163). Readback deviates beyond TOL for TIME consecutive BP and the channel faults. -/
  | aoReadbackFault (c : Nat)
  /-- DIO_INPUT_EDGE (R167). An input level change holds for the filter time and is accepted and time-stamped. -/
  | dioInputEdge (n : Nat) (lvl : Bool) (ts : Nat)
  /-- DIO_SCH_PUSH (R169). DIO_SCH_CTRL PUSH queues a scheduled switching, judged late or refused. -/
  | dioSchPush (n : Nat) (lvl : Bool)
  /-- DIO_SCH_FLUSH (R169). DIO_SCH_CTRL FLUSH empties the pin's switching queue. -/
  | dioSchFlush (n : Nat)
  /-- DIO_SCHED_SWITCH (R169). A queued switching executes when TB_NS reaches its instant. -/
  | dioSchedSwitch (n : Nat)
  /-- DIO_UNDERCURRENT (R168). An on output carries less than DIO_IMIN for 10 consecutive BP and UNDERCUR sets. -/
  | dioUndercurrent (n : Nat)
  /-- DIO_OTEMP (R170). An output switch enters thermal shutdown and the pin faults. -/
  | dioOtemp (n : Nat)
  /-- DIO_ILIM_FAULT (R170). An output current-limits for 100 consecutive BP and the pin faults. -/
  | dioIlimFault (n : Nat)
  /-- AX_MOVE_ABS (R183). Axis command MOVE_ABS plans a move to AX_TGT. -/
  | axMoveAbs (a : Nat)
  /-- AX_MOVE_REL (R183). Axis command MOVE_REL plans a move by AX_TGT. -/
  | axMoveRel (a : Nat)
  /-- AX_UPDATE (R184). Axis command UPDATE replans the present move with present limits and target. -/
  | axUpdate (a : Nat)
  /-- AX_JOG_POS (R187). Axis command JOG_POS moves positive at AX_VMAX until stopped. -/
  | axJogPos (a : Nat)
  /-- AX_JOG_NEG (R187). Axis command JOG_NEG moves negative at AX_VMAX until stopped. -/
  | axJogNeg (a : Nat)
  /-- AX_STOP (R180). Axis command STOP stops at AX_DMAX and AX_JMAX. -/
  | axStop (a : Nat)
  /-- AX_ESTOP (R180). Axis command ESTOP stops at emergency limits. -/
  | axEstop (a : Nat)
  /-- AX_HOME (R205). Axis command HOME runs the homing method. -/
  | axHome (a : Nat)
  /-- AX_GEAR_ENGAGE (R192). Axis command GEAR_ENGAGE latches references and follows the master. -/
  | axGearEngage (a : Nat)
  /-- AX_GEAR_ARM (R193). Axis command GEAR_ARM arms a ratio change at a master position. -/
  | axGearArm (a : Nat)
  /-- AX_GEAR_RELEASE (R180). Axis command GEAR_RELEASE leaves gearing and stops. -/
  | axGearRelease (a : Nat)
  /-- AX_SET_POS (R174). Axis command SET_POS shifts positions so AX_POS_CMD equals AX_TGT and sets REFERENCED. -/
  | axSetPos (a : Nat)
  /-- MT_GRP_START (R172). Motion tile group command START sets RUN of masked axes. -/
  | mtGrpStart (m : Nat)
  /-- MT_GRP_STOP (R172). Motion tile group command STOP clears RUN of masked axes. -/
  | mtGrpStop (m : Nat)
  /-- MT_GRP_GO (R172). Motion tile group command GO issues MOVE_ABS to every masked axis in one window. -/
  | mtGrpGo (m : Nat)
  /-- AXIS_PROFILE_END (R180). A move profile ends at its target; the axis enters IDLE with DONE. -/
  | axisProfileEnd (a : Nat)
  /-- AXIS_STANDSTILL (R180). A stopping or emergency-stopping axis reaches standstill. -/
  | axisStandstill (a : Nat)
  /-- SWITCH_DEBOUNCED (R204). A limit or home switch changes its debounced state. -/
  | switchDebounced (a : Nat) (w : Nat) (on : Bool)
  /-- HOME_CHATTER (R208). The switch-change count exceeds CHAT_N and homing ends with an emergency stop. -/
  | homeChatter (a : Nat)
  /-- AXIS_STALL (R195). The deviation timer reaches DEV_TIME and the axis faults with STALL. -/
  | axisStall (a : Nat)
  /-- ENC_QUAD_ERROR (R201). A and B change in the same accepted sample; VALID clears. -/
  | encQuadError (e : Nat)
  /-- ENC_INDEX (R201). An active index edge latches position and time. -/
  | encIndex (e : Nat) (pos : Nat) (ts : Nat)
  /-- SSI_FRAME (R202). An SSI frame completes and gives a position, or a frame error. -/
  | ssiFrame (e : Nat) (raw : Nat) (good : Bool)
  /-- LP_LOAD (R230). LOAD command verifies a logic image into the active bank. -/
  | lpLoad (p : Nat)
  /-- LP_VERIFY_DONE (R230). Logic image verification ends with LOADED or a failure. -/
  | lpVerifyDone (p : Nat)
  /-- LP_UNLOAD (R230). UNLOAD command releases claims and empties the force table. -/
  | lpUnload (p : Nat)
  /-- LP_STAGE (R231). STAGE command verifies an image into the inactive bank. -/
  | lpStage (p : Nat)
  /-- LP_STAGE_DONE (R231). Staging verification ends with STAGED or a failure. -/
  | lpStageDone (p : Nat)
  /-- LP_UNSTAGE (R231). UNSTAGE command discards a staged bank. -/
  | lpUnstage (p : Nat)
  /-- LP_CHANGE (R232). CHANGE command plans an on-line change point. -/
  | lpChange (p : Nat) (drop : Bool)
  /-- LP_CANCEL (R231). CANCEL command returns a pending change to STAGED. -/
  | lpCancel (p : Nat)
  /-- LP_TRIG (R216). TRIG command triggers event tasks named in LP_EVT_TRIG. -/
  | lpTrig (p : Nat)
  /-- CHANGE_POINT (R233). At the change point the forces and claims are checked and banks swap. -/
  | changePoint (p : Nat)
  /-- FORCE_SET (R229). Force command SET holds a symbol at a value. -/
  | forceSet (p : Nat)
  /-- FORCE_REMOVE (R229). Force command REMOVE removes a force. -/
  | forceRemove (p : Nat)
  /-- FORCE_CLEAR_ALL (R229). Force command CLEAR_ALL empties the force table. -/
  | forceClearAll (p : Nat)
  /-- TASK_RELEASE (R215). A cyclic or pending event task is released and its input image copied. -/
  | taskRelease (p : Nat) (k : Nat)
  /-- TASK_DEADLINE (R215). At the deadline C2 the instance's outputs commit together. -/
  | taskDeadline (p : Nat) (k : Nat)
  /-- LP_VAR_WRITE (R213). A pair-ordered write through the variable window takes effect between instructions at C2. -/
  | lpVarWrite (p : Nat) (off : Nat) (val : W32)
  /-- LP_MEMORY_UE (R230). An uncorrectable error in program, data or instance memory quarantines the processor. -/
  | lpMemoryUe (p : Nat) (off : Nat)
  /-- SAFETY_CYCLE (R238). A safety cycle starts at c0: latch, evaluate, compare, apply switch commands and send producers. so: what
  the switches read; differ: the channels disagree on this c0's commands. -/
  | safetyCycle (so : SoSeen) (differ : Bool)
  /-- SAFETY_CONTACT_CHANGE (R238). A safety contact change passes the 100 µs filter. c: which channels see it, the level, the sample. -/
  | safetyContactChange (i : Nat) (second : Bool) (c : SioSeen)
  /-- DISCREPANCY_FAULT (R241). A pair's discrepancy timer passes DISC and the pair faults. -/
  | discrepancyFault (i : Nat)
  /-- RESET_JAM (R242). A reset pair's ON period reaches 5 s and the pair jams. -/
  | resetJam (i : Nat)
  /-- OUTPUT_LOCKOUT (R243). A switch still conducts 1.0 ms after being commanded off and the output locks out. -/
  | outputLockout (o : Nat) (sw : Nat)
  /-- DARK_TEST (R243). A switch of a conducting output is opened briefly and its readback checked. -/
  | darkTest (o : Nat) (sw : Nat) (opened : Bool)
  /-- OFF_DELAY_END (R244). An instance's delay timer reaches OFF_DELAY and the instance stops. -/
  | offDelayEnd (k : Nat)
  /-- MUTING_TIMEOUT (R245). AREA muting lasts PARAM ms and ends. -/
  | mutingTimeout (k : Nat)
  /-- LOCK_AUX_DELAY_END (R245). A LOCK instance's AUX condition has read ON for PARAM ms, allowing unlock. -/
  | lockAuxDelayEnd (k : Nat)
  /-- CHANNEL_SELF_TEST_FAIL (R247). A safety channel's internal self-test fails and both channels lock out. -/
  | channelSelfTestFail (ch : Nat)
  /-- SAFETY_CLOCK_DEVIATION (R237). The channel time bases differ by more than 5 % or the BP grid stops; CLK_ALONE sets. -/
  | safetyClockDeviation (ch : Nat) (covered : Bool)
  /-- SAFE_FRAME_RECEIVE (R249). A safe frame is received and accepted or discarded for a consumer connection. -/
  | safeFrameReceive (net : Nat) (bs : List W8)
  /-- CONN_WATCHDOG (R251). No accepted frame arrives for WD and the connection trips. -/
  | connWatchdog (c : Nat)
  /-- NETWORK_MISSING (R251). One network delivers nothing for 3 periods; the connection degrades or trips. -/
  | networkMissing (c : Nat)
  /-- DEGRADED_TIMEOUT (R251). The degraded tolerance timer passes TOL and the connection trips. -/
  | degradedTimeout (c : Nat)
  /-- SAFE_IMG_RECEIVE (R252). The standby's channel receives the authority's forwarded input image. -/
  | safeImgReceive (n : TwRx Nat) (f : Nat) (img : SfImg) (good : Bool)
  /-- BEAT_RECEIVE (R277). A Lantern BEAT frame arrives from the partner. -/
  | beatReceive (b : TwRx TwBeat)
  /-- INPUT_FRAME_RECEIVE (R265). The standby receives forwarded inputs and stages them for C1. -/
  | inputFrameReceive (n : TwRx Nat) (tt : Nat) (vals : List (W32 × Bool))
  /-- PLIALE_FRAME_RECEIVE (R266). The standby receives a forwarded Pliale reply. -/
  | plialeFrameReceive (n : TwRx Nat) (seg : Nat) (k : Nat) (bs : List W8)
  /-- WRITES_FRAME_RECEIVE (R268). The standby receives a batch of pair-ordered writes to apply at C2. -/
  | writesFrameReceive (n : TwRx Nat) (first : Nat) (ws : List (Nat × W32))
  /-- DIGEST_RECEIVE (R270). A partner's epoch digest arrives and is compared. -/
  | digestReceive (epoch : TwRx Nat) (digest : Nat)
  /-- CTRL_FRAME_RECEIVE (R286). A CTRL frame for sync, return or release arrives. -/
  | ctrlFrameReceive (kind : TwRx Nat)
  /-- IMAGE_FRAME_RECEIVE (R282). An IMAGE frame of the sync arrives. -/
  | imageFrameReceive (p : TwRx Page) (bank : Nat) (typ : Nat) (bs : List W8)
  /-- BASE_FRAME_RECEIVE (R283). A BASE chunk of the sync arrives and is CRC-checked. -/
  | baseFrameReceive (chunk : TwRx Nat) (ok : Bool)
  /-- BASE_INSTALLED (R283). Every base chunk has passed and the base is installed. -/
  | baseInstalled (epoch : Nat) (base : Snap)
  /-- TIME_FRAME_RECEIVE (R366). A TIME frame lets the standby measure and correct its offset. n: its number and the authority's trim. -/
  | timeFrameReceive (n : TwRx (Nat × W32)) (ns : Nat) (frac : Nat)
  /-- LANE_TRAINED (R262). A twin lane completes training. -/
  | laneTrained (n : Nat)
  /-- LANE_AUTH_DONE (R262). A lane's authentication exchange ends, trusted or failed. -/
  | laneAuthDone (n : Nat) (ok : Bool) (same : Bool)
  /-- AUTH_RETRY (R262). One second after a failed exchange the authentication is retried. -/
  | authRetry (n : Nat)
  /-- TWIN_LANE_DOWN (R264). A lane loses training or delivers no valid frame for 100 µs. -/
  | twinLaneDown (n : Nat)
  /-- HOLDER_DECODED (R274). Two consecutive valid train frames decode a holder. -/
  | holderDecoded (code : Nat)
  /-- GUYLINE_WIRE_FAIL (R275). A Guyline wire fails its health rules. -/
  | guylineWireFail (w : Nat)
  /-- GUYLINE_WIRE_HEALTHY (R275). A failed wire carries 1000 agreeing valid frames and is healthy again. -/
  | guylineWireHealthy (w : Nat)
  /-- AUTH_DISAGREE (R280). AUTH_A and AUTH_B differ for more than 2 µs; the train stops and the device enters Held. -/
  | authDisagree (a : Bool) (b : Bool)
  /-- GL_FORCE_SEIZE (R276). Guyline command FORCE_SEIZE forces a seizure with key 0x5EE5. -/
  | glForceSeize (key : Nat)
  /-- GL_RETEST (R289). Guyline command RETEST clears wire health and repeats the wire test. -/
  | glRetest (a : Bool) (b : Bool)
  /-- WARM_RESET (R291). A warm reset resets non-safety blocks and starts an output hold. -/
  | warmReset (src : Nat)
  /-- COLD_RESET (R291). A cold reset resets the whole module, safety channels included. -/
  | coldReset (src : Nat)
  /-- VIN_RISE (R297). VIN enters its operating range with PRES_N asserted and boot begins. -/
  | vinRise (ka : Nat)
  /-- BOOT_COMPLETE (R310). Firmware is checked and the supervisor decides how to start. -/
  | bootComplete (env : BootEnv)
  /-- PL_LOAD (R324). Segment command LOAD verifies a schedule. -/
  | plLoad (seg : Nat)
  /-- PL_VERIFY_DONE (R333). Schedule verification ends with STOPPED and claims, or EMPTY with a failure. -/
  | plVerifyDone (seg : Nat)
  /-- PL_UNLOAD (R333). Segment command UNLOAD releases claims. -/
  | plUnload (seg : Nat)
  /-- PL_START (R333). Segment command START enters LISTEN with the silence timer. -/
  | plStart (seg : Nat)
  /-- PL_STOP (R333). Segment command STOP sends one last cycle with STOPPING, then silence. -/
  | plStop (seg : Nat)
  /-- PL_RESTART (R333). Local command RESTART returns a HALTED segment to LISTEN. -/
  | plRestart (seg : Nat)
  /-- PL_ACYC (R335). Local command ACYC issues the buffered acyclic request. -/
  | plAcyc (seg : Nat)
  /-- PL_RESYNC (R338). Local command RESYNC resynchronises one slot. -/
  | plResync (seg : Nat) (k : Nat)
  /-- PLIALE_CYCLE_START (R321). At a cycle boundary the master sends SYNC. -/
  | plialeCycleStart (seg : Nat)
  /-- POLL_SEND (R322). The master sends a slot's POLL at its scheduled instant. -/
  | pollSend (seg : Nat) (k : Nat)
  /-- REPLY_RECEIVE (R330). A reception in the poll phase is accepted or classified. -/
  | replyReceive (seg : Nat) (j : Nat) (good : Bool) (bs : List W8)
  /-- ACYC_WINDOW_END (R332). At the end of the acyclic window each slot's state machine is evaluated. -/
  | acycWindowEnd (seg : Nat)
  /-- MEAS_RSP_RECEIVE (R327). A MEAS_RSP is stamped and a delay exchange completes. -/
  | measRspReceive (seg : Nat) (k : Nat) (dt : Nat)
  /-- ACYC_RSP_RECEIVE (R335). An acyclic response is received and the request concludes. -/
  | acycRspReceive (seg : Nat) (ofs : Nat) (good : Bool) (bs : List W8)
  /-- ACYC_RESPONSE_TIMEOUT (R335). No acyclic response arrives in time; the request ends NO_RESPONSE. -/
  | acycResponseTimeout (seg : Nat)
  /-- FOREIGN_SYNC (R333). A valid SYNC from another master stops the segment with DUP_MASTER. -/
  | foreignSync (seg : Nat)
  /-- PL_COLLISION (R333). SYNC readback mismatches the driven level. -/
  | plCollision (seg : Nat) (sync : Bool) (k : Nat)
  /-- LINE_ACTIVITY (R333). Activity on the line restarts a LISTEN silence timer. -/
  | lineActivity (seg : Nat)
  /-- LISTEN_SILENCE_EXPIRED (R333). The silence timer expires and the segment starts RUNNING. -/
  | listenSilenceExpired (seg : Nat)
  /-- PL_SCHED_UE (R333). An uncorrectable schedule-store error quarantines the segment. -/
  | plSchedUe (seg : Nat)
  /-- CX_START (R344). Channel command START checks configuration and enters INTEGRATING. -/
  | cxStart (x : Nat)
  /-- CX_STOP (R344). Channel command STOP returns the channel to STOPPED. -/
  | cxStop (x : Nat)
  /-- CX_RECOVER (R344). Channel command RECOVER starts bus-off recovery. -/
  | cxRecover (x : Nat)
  /-- CX_FLUSH (R347). Channel command FLUSH completes outstanding requests of a queue with FLUSHED. -/
  | cxFlush (x : Nat) (q : Nat)
  /-- CX_TX_POST (R346). Writing CX_TQq_POST posts transmit requests. -/
  | cxTxPost (x : Nat) (q : Nat) (val : W32)
  /-- CX_TX_START (R347). With the bus idle the channel starts the head request of the highest-priority queue. -/
  | cxTxStart (x : Nat)
  /-- CX_TX_COMPLETE (R347). A transmit request completes with one code, STATUS and STAMP written. -/
  | cxTxComplete (x : Nat) (code : Nat)
  /-- CX_RX_FRAME (R350). A correct frame is received, filtered and stored. -/
  | cxRxFrame (x : Nat) (fr : CanFrame)
  /-- CX_BUS_ERROR (R350). A frame is received with an error, raising REC. -/
  | cxBusError (x : Nat) (eight : Bool)
  /-- CX_RQ_ACK (R351). Writing CX_RQr_ACK releases receive entries. -/
  | cxRqAck (x : Nat) (r : Nat) (val : W32)
  /-- CX_INTEGRATED (R344). Eleven recessive bits end INTEGRATING. -/
  | cxIntegrated (x : Nat)
  /-- CX_RECOVERED (R344). 128 sequences of 11 recessive bits end RECOVERING. -/
  | cxRecovered (x : Nat)
  /-- TB_INC_WRITE (R355). The host writes TB_INC within its range. -/
  | tbIncWrite (val : W32)
  /-- TB_SEL_WRITE (R363). A write of SEL switches the steering domain by a slew. -/
  | tbSelWrite (val : W32)
  /-- PTP_EVENT_FRAME (R357). A PTP event frame raises its port source and latches sequence information. -/
  | ptpEventFrame (e : Nat) (tx : Bool) (seq : Nat) (typ : Nat) (dn : Nat)
  /-- PTP_MESSAGE_RECEIVE (R360). Supervisor firmware processes a PTP message and updates its domain servo. -/
  | ptpMessageReceive (k : Nat) (m : PtpMsg)
  /-- ANNOUNCE_TIMEOUT (R361). An announce receipt timeout puts a domain in HOLDOVER. -/
  | announceTimeout (k : Nat)
  /-- SYNC_TIMEOUT (R361). Four Sync intervals without a Sync put a domain in HOLDOVER. -/
  | syncTimeout (k : Nat)
  /-- ETH_TX_POST (R370). Writing ETH_TQq_POST posts transmit frames. -/
  | ethTxPost (e : Nat) (q : Nat) (val : W32)
  /-- ETH_TX_COMPLETE (R370). A transmit frame completes with its STATUS. -/
  | ethTxComplete (e : Nat) (q : Nat) (overrun : Bool)
  /-- ETH_RX_FRAME (R370). A frame is received and delivered to a ring or taken by the module. -/
  | ethRxFrame (e : Nat) (bs : List W8) (bad : Bool)
  /-- ETH_RQ_ACK (R370). Writing ETH_RQr_ACK releases receive entries. -/
  | ethRqAck (e : Nat) (r : Nat) (val : W32)
  /-- ETH_GCL_COMMIT (R372). ETH_GCL_COMMIT schedules the administrative gate list. -/
  | ethGclCommit (e : Nat)
  /-- GCL_CYCLE_START (R372). A Qbv cycle starts and a committed list may become operational. -/
  | gclCycleStart (e : Nat)
  /-- GCL_ENTRY_CHANGE (R372). A gate control entry's interval ends and the next gate states apply. -/
  | gclEntryChange (e : Nat)
  /-- ETH_LINK_CHANGE (R369). A port's link comes up or goes down. -/
  | ethLinkChange (e : Nat) (speed : Nat)
  /-- CB_STREAM_RESET (R375). A stream without frames for the reset time is released. -/
  | cbStreamReset (e : Nat) (i : Nat)
  /-- DAYBOOK_REPORT (R384). A report is raised and enters staging, subject to buckets and a full queue. -/
  | daybookReport (typ : Nat) (src : Nat) (pay : List W32)
  /-- TOKEN_GAIN (R386). A source's bucket gains a token at its OPT_MS interval. -/
  | tokenGain (src : Nat)
  /-- DB_APP_PUT (R391). Daybook command APP_PUT copies an application record into staging. -/
  | dbAppPut (who : Nat)
  /-- TR_RELEASE (R398). Writing TR_RD_REL advances the read position. -/
  | trRelease (val : W32)
  /-- TR_DMA_COPY (R399). The stream DMA copies ring bytes to host memory and writes back its position. -/
  | trDmaCopy (n : Nat)
  /-- YIELD (R410). Tally operation YIELD readies the current thread and dispatches. -/
  | yield (c : Nat)
  /-- BLOCK (R410). Tally operation BLOCK blocks the current thread and dispatches. -/
  | block (c : Nat)
  /-- EXIT (R410). Tally operation EXIT frees the current thread and dispatches. -/
  | exit (c : Nat)
  /-- DISPATCH (R411). Tally operation DISPATCH grants a thread to the core or idles it. -/
  | dispatch (c : Nat)
  /-- WAKE (R410). Tally operation WAKE readies a blocked thread or counts a wake. -/
  | wake (c : Nat) (t : Nat)
  /-- CREATE (R410). Tally operation CREATE readies a free thread. -/
  | create (c : Nat) (t : Nat)
  /-- SUSPEND (R410). Tally operation SUSPEND suspends a blocked or ready thread. -/
  | suspend (c : Nat) (t : Nat)
  /-- RESUME (R410). Tally operation RESUME readies a suspended thread. -/
  | resume (c : Nat) (t : Nat)
  /-- DESTROY (R410). Tally operation DESTROY frees a thread that is not running. -/
  | destroy (c : Nat) (t : Nat)
  /-- PATIENCE_EXPIRED (R411). A ready thread's patience expires and other cores may steal it. -/
  | patienceExpired (t : Nat)
  /-- DESCRIPTOR_WRITE (R409). A write through the descriptor window updates PRIO, AFF or CTX. -/
  | descriptorWrite (t : Nat) (w : Nat) (val : W32)
  /-- CORE_WATCHDOG (R407). An application core misses its watchdog and is reset alone. -/
  | coreWatchdog (c : Nat)
  /-- CORE_FAULT (R407). An application core takes a cache UE or machine check and is reset alone. -/
  | coreFault (c : Nat)
  /-- CORE_RESET (R408). Core command RESET resets an application core. -/
  | coreReset (c : Nat)
  /-- CORE_HALT (R408). Core command HALT halts an application core. -/
  | coreHalt (c : Nat)
  /-- CORE_START (R408). Core command START starts a halted application core. -/
  | coreStart (c : Nat)
  /-- MB_POWER_REQUEST (R419). A write of MB_PWR changes the power state of a bank segment. -/
  | mbPowerRequest (b : Nat) (val : W32)
  /-- MB_POWER_DONE (R419). A bank segment finishes its power transition. -/
  | mbPowerDone (b : Nat)
  /-- SRAM_CE (R420). A single-bit SRAM error is corrected, written back and the row queued for test. -/
  | sramCe (addr : Nat)
  /-- SRAM_UE (R420). A double-bit SRAM error is reported to its requester. -/
  | sramUe (addr : Nat)
  /-- TINKER_ROW_DONE (R422). A row test ends with restore and release. -/
  | tinkerRowDone (failed : Bool)
  /-- TEST_ROW (R424). Tinker command TEST_ROW queues an out-of-turn row test. -/
  | testRow (b : Nat) (row : Nat)
  /-- TINKER_BUFFER_UE (R426). An uncorrectable test-buffer error ends the test and puts Tinker in FAULT. -/
  | tinkerBufferUe (mask : Nat)
  /-- NV_WRITE (R428). A write through the MRAM window to the user NV area is accepted. -/
  | nvWrite (off : Nat) (bs : List W8)
  /-- NV_LINE_WRITE (R428). The NV writer writes a merged 64-byte line to MRAM. -/
  | nvLineWrite (line : Nat)
  /-- KEY_ADD (R431). Identity command KEY_ADD installs a key in slot 2 to 15. -/
  | keyAdd (k : Nat)
  /-- KEY_DEL (R431). Identity command KEY_DEL empties a key slot. -/
  | keyDel (k : Nat)
  /-- PWR_WARM (R438). Power command WARM requests a warm reset with key 0xC01D. -/
  | pwrWarm (key : Nat)
  /-- PWR_COLD (R438). Power command COLD requests a cold reset with key 0xC01D. -/
  | pwrCold (key : Nat)
  /-- INSTALL_DONE (R438). A firmware install concludes with its result. -/
  | installDone (bs : List W8) (readOk : Bool)
  /-- HEALTH_SAMPLE (R442). Temperature sensors are sampled every 10 ms. -/
  | healthSample (smp : HSample)
  /-- HOLDUP_MEASURE (R442). The supervisor measures hold-up capacitance, ESR and energy. -/
  | holdupMeasure (esr : Nat) (cap : Nat) (energy : Nat)
  /-- EOL_UPDATE (R445). Each hour the end-of-life indicators and prediction are updated. -/
  | eolUpdate (smp : EolSample)
  /-- VFLD_LOW (R453). VFLD stays below 17.0 V for 1 ms; field outputs go undriven and inputs read OFF. -/
  | vfldLow (mv : Nat)
  /-- VFLD_RESTORED (R453). VFLD stands at 19.2 V or more for 1 ms and outputs follow their commands again. -/
  | vfldRestored (mv : Nat)
  /-- ACYCLIC_WINDOW_START (R335). At the scheduled start of a cycle's acyclic window the master sends the pending acyclic request, MEASURE exchanges and RESYNC or SET_DELAY commands. -/
  | acyclicWindowStart (seg : Nat)
  /-- VIN_LOW (R437). VIN stays below 19.2 V for 1 ms without a power failure, or later recovers, and VIN_LOW in PWR_STAT and its event bit follow. -/
  | vinLow (low : Bool)
  /-- OFF_BANK_ACCESS (R419). An access to an SRAM bank that is not ON is not served: a read returns all ones or faults the core, a write is dropped, and MB_OFF_ACC_CNT counts it. -/
  | offBankAccess (addr : Nat)
  /-- D3HOT_TRANSITION (R38). The host moves the function between D0 and D3hot, disabling or enabling BAR access while control runs on. -/
  | d3hotTransition (on : Bool)
  /-- SCRATCHPAD_CE (R95). A corrected ECC error in a loop or motion tile scratchpad or in logic processor memory is counted in LT_ECC_CNT, MT_ECC_CNT or LP_ECC_CNT. -/
  | scratchpadCe (p : Page)
  /-- PLL_LOCK_LOSS (R31). Root PLL loses lock for more than 1 µs; outputs go safe and relock is attempted. -/
  | pllLockLoss
  /-- FLR (R39). Function-level reset of the endpoint, MSI-X state and trace DMA, counted in DEV_FLR_CNT. -/
  | flr
  /-- ENDPOINT_RESET (R39). PERST#, hot reset or link-down reset reaching only the endpoint, MSI-X state and trace DMA. -/
  | endpointReset
  /-- LINK_DOWN (R40). The host link leaves L0; vectors count as masked and trace DMA pauses. -/
  | linkDown
  /-- VECTOR_EVALUATION (R58). Each vector's state machine is evaluated against assertion and masking. -/
  | vectorEvaluation
  /-- OW_PULSE_START (R157). The shared open-wire pulse window begins at BP_CNT mod 10,000 = 0. -/
  | owPulseStart
  /-- OW_PULSE_DECIDE (R157). At BP 100 of the window OPEN is decided for PULSE channels. -/
  | owPulseDecide
  /-- OW_PULSE_END (R157). Result withholding ends at BP 150 of the pulse grid. -/
  | owPulseEnd
  /-- SAFETY_STATUS_COMMIT (R256). Each channel commits its status block at C2 of BP n + 70. -/
  | safetyStatusCommit
  /-- SF_NOP (R253). Safety command NOP. -/
  | sfNop
  /-- SF_UNLOCK (R253). Safety command UNLOCK checks the password hash. -/
  | sfUnlock
  /-- SF_LOCK (R253). Safety command LOCK clears UNLOCKED. -/
  | sfLock
  /-- SF_LOAD (R254). Safety command LOAD verifies and parses a safety table into PENDING. -/
  | sfLoad
  /-- SF_CONFIRM (R254). Safety command CONFIRM activates the pending table and seals it. -/
  | sfConfirm
  /-- SF_DISCARD (R254). Safety command DISCARD drops the pending table. -/
  | sfDiscard
  /-- SF_SET_PW (R253). Safety command SET_PW sets a new password. -/
  | sfSetPw
  /-- CONFIRM_TIMEOUT (R254). A pending table not confirmed within 10 min is discarded. -/
  | confirmTimeout
  /-- UNLOCK_TIMEOUT (R253). UNLOCKED clears after 15 min without a configuration command. -/
  | unlockTimeout
  /-- LANTERN_FAILURE (R277). Four consecutive beat instants are missed on both lanes. -/
  | lanternFailure
  /-- FORWARD_MISS (R267). A forwarded frame is missing by its deadline; the standby uses its own values. -/
  | forwardMiss
  /-- CATCHUP_JOINED (R284). All regions catch up and the module runs in lockstep. -/
  | catchupJoined
  /-- CATCHUP_TIMEOUT (R285). Catch-up does not join within 100 ms and the sync fails. -/
  | catchupTimeout
  /-- SEIZE (R273). A module starts a Guyline seizure after the line has been idle for 3 µs. -/
  | seize
  /-- SEIZURE_WON (R273). A module completes its code and starts its holding train. -/
  | seizureWon
  /-- SEIZURE_LOST (R273). A module reads dominant while sending recessive and stops. -/
  | seizureLost
  /-- HOLDER_LOST (R274). Every healthy wire stays recessive for 3 µs. -/
  | holderLost
  /-- WITNESS_CHECK_END (R279). The witness check ends and the standby withdraws or becomes ORPHAN. -/
  | witnessCheckEnd
  /-- TW_NOP (R288). Twin command NOP. -/
  | twNop
  /-- TW_RELEASE (R286). Twin command RELEASE offers authority to a qualified standby. -/
  | twRelease
  /-- TW_RESYNC (R285). Twin command RESYNC starts a sync. -/
  | twResync
  /-- TW_CLEAR_HALT (R285). Twin command CLEAR_HALT clears SYNC_HALT. -/
  | twClearHalt
  /-- TW_RETURN_NOW (R286). Twin command RETURN_NOW asks for authority without the hold-off. -/
  | twReturnNow
  /-- HOLDOFF_EXPIRED (R286). The preferred unit's hold-off expires. -/
  | holdoffExpired
  /-- HANDOVER_START (R287). At BP h the old authority stops its train and the preferred unit seizes. -/
  | handoverStart
  /-- HANDOVER_TIMEOUT (R287). The preferred unit's train is not decoded by t0 + 8.0 µs; the old authority seizes again. -/
  | handoverTimeout
  /-- GL_NOP (R289). Guyline command NOP. -/
  | glNop
  /-- SUPERVISOR_WATCHDOG (R290). Supervisor firmware fails to service its watchdog for 50 ms and a warm reset follows. -/
  | supervisorWatchdog
  /-- SERVICE_PORT_RESET (R290). A system reset through the IEEE 1149.1 port causes a cold reset. -/
  | servicePortReset
  /-- POWER_FAILURE (R305). VIN below 18.0 V for 5 µs is declared a power failure and the final boundary is taken. -/
  | powerFailure
  /-- FINAL_COMMIT_DONE (R305). The final commit with FINAL set is complete. -/
  | finalCommitDone
  /-- BROWNOUT (R307). VIN returns for 100 µs before hold-up is spent and a warm reset follows. -/
  | brownout
  /-- HOLDUP_SPENT (R307). Hold-up energy runs out and the module enters Keep-alive. -/
  | holdupSpent
  /-- HOLDUP_OK_SET (R306). The hold-up store reaches 2 ms at 75 W and control may start. -/
  | holdupOkSet
  /-- HOLDUP_LOW (R306). HOLDUP_OK clears while control runs. -/
  | holdupLow
  /-- OUTPUT_HOLD_EXPIRED (R308). HOLD_TIME expires and held outputs take their safe values. -/
  | outputHoldExpired
  /-- JOURNAL_EPOCH (R298). At an epoch boundary blocks copy dirty rows to their shadows. -/
  | journalEpoch
  /-- JOURNAL_COMMIT (R300). A drain ends and its commit record is written last. -/
  | journalCommit
  /-- SB_NOP (R317). Strongbox command NOP. -/
  | sbNop
  /-- FORCE_COLD (R317). Strongbox command FORCE_COLD makes the next start cold. -/
  | forceCold
  /-- CANCEL_COLD (R317). Strongbox command CANCEL_COLD cancels FORCE_COLD. -/
  | cancelCold
  /-- TB_NOP (R367). Time-base command NOP. -/
  | tbNop
  /-- TB_SET (R364). Time-base command SET loads TB_SET at the next t0. -/
  | tbSet
  /-- DOMAIN_AUTO_SWITCH (R362). After 1 s of HOLDOVER the other LOCKED domain is selected. -/
  | domainAutoSwitch
  /-- SLEW_DONE (R363). The remaining slew falls below 1 ns and SLEWING clears. -/
  | slewDone
  /-- RECORD_COMMIT (R380). The writer commits the head staged record to the running area. -/
  | recordCommit
  /-- DB_NOP (R392). Daybook command NOP. -/
  | dbNop
  /-- DB_CLEAR (R390). Daybook command CLEAR checks a token and stages a clear. -/
  | dbClear
  /-- CLEAR_EXECUTE (R390). The writer carries out a staged clear between commits. -/
  | clearExecute
  /-- TR_NOP (R401). Trace command NOP. -/
  | trNop
  /-- TR_START (R401). Trace command START checks load and starts sampling. -/
  | trStart
  /-- TR_STOP (R403). Trace command STOP closes open packets. -/
  | trStop
  /-- TR_TRIGGER (R402). Trace command TRIGGER raises a trigger of class HOST. -/
  | trTrigger
  /-- TR_UNFREEZE (R403). Trace command UNFREEZE releases the frozen ring. -/
  | trUnfreeze
  /-- TR_XFER (R400). Trace command XFER starts a copy from the ring to host memory. -/
  | trXfer
  /-- XFER_DONE (R400). A ring transfer concludes with its result. -/
  | xferDone
  /-- TR_RESET_RING (R401). Trace command RESET_RING zeroes both positions. -/
  | trResetRing
  /-- FREEZE_END (R403). At BP n_T + 100 × POST the freeze completes and trace enters FROZEN. -/
  | freezeEnd
  /-- WAKE_TOKEN (R413). A queued wake token from an event source is applied as WAKE. -/
  | wakeToken
  /-- TALLY_UE (R416). An uncorrectable descriptor-store error puts Tally in FAULT. -/
  | tallyUe
  /-- TINKER_ROW_TEST (R424). Tinker starts testing the next row at its pace. -/
  | tinkerRowTest
  /-- TK_NOP (R421). Tinker command NOP. -/
  | tkNop
  /-- RESTART_PASS (R421). Tinker command RESTART_PASS restarts the test pass. -/
  | restartPass
  /-- ID_NOP (R433). Identity command NOP. -/
  | idNop
  /-- ATTEST (R432). Identity command ATTEST latches BP_CNT and starts signing. -/
  | attest
  /-- ATTEST_DONE (R432). The attestation signature appears in ID_ATT_SIG. -/
  | attestDone
  /-- OWNER_SET (R431). Identity command OWNER_SET installs the owner key. -/
  | ownerSet
  /-- PWR_NOP (R437). Power command NOP. -/
  | pwrNop
  /-- PWR_INSTALL (R438). Power command INSTALL fetches a firmware container from host memory. -/
  | pwrInstall
  /-- KA_STORE_LOST (R439). The keep-alive store falls below 1.8 V without VKA and KA_RTC is lost. -/
  | kaStoreLost
  /-- KEEPALIVE_PERSIST (R439). PCC, OPT_MS and the insertion count are copied to MRAM once per second. -/
  | keepalivePersist
  /-- INSERTION (R440). Stage 2 contacts mate, pre-charge begins and the insertion count increments. -/
  | insertion
  /-- REMOVAL (R441). Contacts break on removal; REMOVED is set and VIN is lost. -/
  | removal
  /-- WEAR_LEDGER_SAVE (R446). Wear ledger counts are written to MRAM once per second. -/
  | wearLedgerSave
  /-- WL_NOP (R447). Wear ledger command NOP. -/
  | wlNop
  /-- WL_SET (R447). Wear ledger command SET writes a threshold and source. -/
  | wlSet
  /-- WL_CLEAR_COUNT (R447). Wear ledger command CLEAR_COUNT zeroes a count and writes a record. -/
  | wlClearCount
  /-- TRIM_SLEW_DONE (R30). CLK_TRIM_ACT reaches the requested CLK_TRIM after its 1 ppm/s ramp and TRIM_SLEW clears. -/
  | trimSlewDone
  /-- LANE_NOP (R66). Lane NOP command, with no effect. -/
  | laneNop (l : Nat)
  /-- AX_NOP (R180). Axis NOP command. -/
  | axNop (a : Nat)
  /-- LP_NOP (R211). Logic processor NOP command. -/
  | lpNop (p : Nat)
  /-- NOP (R220). Logic instruction NOP. -/
  | lgNop (p : Nat)
  /-- LD (R220). Logic instruction LD loads the logic bit. -/
  | lgLd (p : Nat)
  /-- LDN (R220). Logic instruction LDN loads the inverted operand. -/
  | lgLdn (p : Nat)
  /-- AND (R220). Logic instruction AND. -/
  | lgAnd (p : Nat)
  /-- ANDN (R220). Logic instruction ANDN. -/
  | lgAndn (p : Nat)
  /-- OR (R220). Logic instruction OR. -/
  | lgOr (p : Nat)
  /-- ORN (R220). Logic instruction ORN. -/
  | lgOrn (p : Nat)
  /-- XOR (R220). Logic instruction XOR. -/
  | lgXor (p : Nat)
  /-- ST (R220). Logic instruction ST stores the logic bit. -/
  | lgSt (p : Nat)
  /-- STN (R220). Logic instruction STN stores the inverted logic bit. -/
  | lgStn (p : Nat)
  /-- SET (R220). Logic instruction SET sets the operand when LB is 1. -/
  | lgSet (p : Nat)
  /-- RST (R220). Logic instruction RST clears the operand when LB is 1. -/
  | lgRst (p : Nat)
  /-- ANDP (R221). Logic instruction ANDP pushes LB with AND. -/
  | lgAndp (p : Nat)
  /-- ORP (R221). Logic instruction ORP pushes LB with OR. -/
  | lgOrp (p : Nat)
  /-- XORP (R221). Logic instruction XORP pushes LB with XOR. -/
  | lgXorp (p : Nat)
  /-- POP (R221). Logic instruction POP joins the saved bit with LB. -/
  | lgPop (p : Nat)
  /-- NOT (R220). Logic instruction NOT inverts LB. -/
  | lgNot (p : Nat)
  /-- RED (R225). Logic instruction RED detects a rising edge. -/
  | lgRed (p : Nat)
  /-- FED (R225). Logic instruction FED detects a falling edge. -/
  | lgFed (p : Nat)
  /-- TON (R223). Logic instruction TON runs an on-delay timer. -/
  | lgTon (p : Nat)
  /-- TOF (R223). Logic instruction TOF runs an off-delay timer. -/
  | lgTof (p : Nat)
  /-- TP (R223). Logic instruction TP runs a pulse timer. -/
  | lgTp (p : Nat)
  /-- CTU (R224). Logic instruction CTU counts up. -/
  | lgCtu (p : Nat)
  /-- CTD (R224). Logic instruction CTD counts down. -/
  | lgCtd (p : Nat)
  /-- CRS (R220). Logic instruction CRS resets a counter. -/
  | lgCrs (p : Nat)
  /-- CLD (R220). Logic instruction CLD loads a counter with PV. -/
  | lgCld (p : Nat)
  /-- LPT (R220). Logic instruction LPT loads a timer preset from ACC. -/
  | lgLpt (p : Nat)
  /-- LPV (R220). Logic instruction LPV loads a counter preset from ACC. -/
  | lgLpv (p : Nat)
  /-- LDW (R220). Logic instruction LDW loads ACC. -/
  | lgLdw (p : Nat)
  /-- STW (R220). Logic instruction STW stores ACC. -/
  | lgStw (p : Nat)
  /-- STWC (R220). Logic instruction STWC stores ACC when LB is 1. -/
  | lgStwc (p : Nat)
  /-- ADD (R220). Logic instruction ADD. -/
  | lgAdd (p : Nat)
  /-- SUB (R220). Logic instruction SUB. -/
  | lgSub (p : Nat)
  /-- MUL (R220). Logic instruction MUL with saturation. -/
  | lgMul (p : Nat)
  /-- DIV (R220). Logic instruction DIV with division-by-zero handling. -/
  | lgDiv (p : Nat)
  /-- ANDW (R220). Logic instruction ANDW. -/
  | lgAndw (p : Nat)
  /-- ORW (R220). Logic instruction ORW. -/
  | lgOrw (p : Nat)
  /-- XORW (R220). Logic instruction XORW. -/
  | lgXorw (p : Nat)
  /-- SHL (R220). Logic instruction SHL. -/
  | lgShl (p : Nat)
  /-- SHR (R220). Logic instruction SHR, arithmetic. -/
  | lgShr (p : Nat)
  /-- CEQ (R220). Logic instruction CEQ compares for equality. -/
  | lgCeq (p : Nat)
  /-- CGT (R220). Logic instruction CGT compares signed greater. -/
  | lgCgt (p : Nat)
  /-- CLT (R220). Logic instruction CLT compares signed less. -/
  | lgClt (p : Nat)
  /-- LDX (R220). Logic instruction LDX loads the index register. -/
  | lgLdx (p : Nat)
  /-- JMP (R220). Logic instruction JMP jumps within the bank. -/
  | lgJmp (p : Nat)
  /-- JC (R220). Logic instruction JC jumps if LB is 1. -/
  | lgJc (p : Nat)
  /-- JNC (R220). Logic instruction JNC jumps if LB is 0. -/
  | lgJnc (p : Nat)
  /-- TRIG (R216). Logic instruction TRIG triggers an event task when LB is 1. -/
  | lgTrig (p : Nat)
  /-- END (R220). Logic instruction END ends the instance. -/
  | lgEnd (p : Nat)
  /-- PL_NOP (R338). Pliale segment command NOP. -/
  | plNop (seg : Nat)
  /-- PL_LCMD_NOP (R338). Segment local command NOP. -/
  | plLcmdNop (seg : Nat)
  /-- CX_NOP (R344). CAN channel command NOP. -/
  | cxNop (x : Nat)
  /-- CORE_NOP (R408). Core command NOP. -/
  | coreNop (c : Nat)
deriving DecidableEq, Repr, Inhabited

end Sys2Proof
end

