-- ==== Sys2Proof/Machine/RegMap.lean ====
section
/-! DEFINITION. The register map: for every page kind, where its registers stand, with the access code (R8), the reset
class (R10) and the reset value of the tables of spec/. A 64-bit register is two words. -/

namespace Sys2Proof.Machine

/-- The access codes of R8. -/
inductive Acc
  | rw | ro | wo | wp | cnt
deriving DecidableEq, Repr

/-- The class of a reset value (R10): cold-start value, journalled, kept in MRAM, written at the factory or read from pins. -/
inductive Keep
  | plain | journal | kept | factory
deriving DecidableEq, Repr

/-- Registers of one row of a table: first offset, distance, how many, words each, access, class, reset value. -/
structure RegRow where
  off : Nat
  step : Nat
  count : Nat
  words : Nat
  acc : Acc
  keep : Keep
  reset : Nat
deriving DecidableEq, Repr

/-- The common header (Table 2-5). BLK_ID and BLK_VER are per block. -/
def headerRows : List RegRow := [
  ⟨0x0, 0, 1, 1, .ro, .plain, 0⟩,
  ⟨0x4, 0, 1, 1, .ro, .plain, 0⟩,
  ⟨0x8, 0, 1, 1, .wp, .journal, 0⟩,
  ⟨0xC, 0, 1, 1, .ro, .plain, 0⟩,
  ⟨0x10, 0, 1, 1, .ro, .plain, 0⟩,
  ⟨0x14, 0, 1, 1, .rw, .journal, 0⟩,
  ⟨0x18, 0, 1, 1, .ro, .plain, 0⟩,
  ⟨0x1C, 0, 1, 1, .rw, .journal, 0⟩,
  ⟨0x20, 0, 1, 1, .rw, .plain, 0⟩,
  ⟨0x24, 0, 1, 1, .ro, .plain, 0⟩,
  ⟨0x28, 0, 1, 1, .ro, .plain, 0⟩,
  ⟨0x2C, 0, 1, 1, .wp, .journal, 0⟩]

/-- The registers of the sig page. -/
def sigRows : List RegRow := [
  ⟨0x100, 0, 1, 1, .cnt, .plain, 0x0⟩,
  ⟨0x104, 0, 1, 1, .rw, .plain, 0x0⟩,
  ⟨0x108, 0, 1, 1, .ro, .plain, 0x0⟩]

/-- The registers of the clk page. -/
def clkRows : List RegRow := [
  ⟨0x100, 0, 1, 1, .ro, .plain, 0x3⟩,
  ⟨0x104, 0, 1, 1, .wp, .plain, 0x0⟩,
  ⟨0x108, 0, 1, 1, .wp, .plain, 0x0⟩,
  ⟨0x10C, 0, 1, 1, .ro, .plain, 0x0⟩,
  ⟨0x110, 0, 1, 1, .cnt, .plain, 0x0⟩,
  ⟨0x114, 0, 1, 1, .rw, .plain, 0x0⟩,
  ⟨0x118, 0, 1, 2, .ro, .journal, 0x0⟩]

/-- The registers of the evr page. -/
def evrRows : List RegRow := [
  ⟨0x100, 0, 1, 1, .wo, .plain, 0x0⟩,
  ⟨0x104, 0, 1, 1, .wo, .plain, 0x0⟩,
  ⟨0x120, 4, 8, 1, .ro, .plain, 0x0⟩,
  ⟨0x140, 4, 8, 1, .ro, .plain, 0x0⟩,
  ⟨0x180, 4, 16, 1, .ro, .plain, 0x0⟩,
  ⟨0x200, 4, 64, 1, .cnt, .plain, 0x0⟩,
  ⟨0x300, 4, 64, 1, .rw, .plain, 0x0⟩,
  ⟨0x400, 4, 16, 1, .rw, .plain, 0x0⟩,
  ⟨0x800, 8, 256, 2, .ro, .plain, 0x0⟩]

/-- The registers of the pcie page. -/
def pcieRows : List RegRow := [
  ⟨0x100, 0, 1, 1, .ro, .plain, 0x0⟩,
  ⟨0x104, 0, 1, 1, .cnt, .plain, 0x0⟩,
  ⟨0x108, 0, 1, 1, .rw, .plain, 0x0⟩,
  ⟨0x10C, 0, 1, 1, .cnt, .plain, 0x0⟩,
  ⟨0x110, 0, 1, 1, .rw, .plain, 0x0⟩,
  ⟨0x114, 0, 1, 1, .cnt, .plain, 0x0⟩,
  ⟨0x118, 0, 1, 1, .rw, .plain, 0x0⟩,
  ⟨0x11C, 0, 1, 1, .cnt, .plain, 0x0⟩,
  ⟨0x120, 0, 1, 1, .rw, .plain, 0x0⟩,
  ⟨0x124, 0, 1, 1, .cnt, .plain, 0x0⟩,
  ⟨0x128, 0, 1, 1, .rw, .plain, 0x0⟩]

/-- The registers of the id page. -/
def idRows : List RegRow := [
  ⟨0x100, 0, 1, 2, .ro, .factory, 0x0⟩,
  ⟨0x108, 0, 1, 1, .ro, .factory, 0x20480000⟩,
  ⟨0x10C, 0, 1, 1, .ro, .factory, 0x100⟩,
  ⟨0x110, 0, 1, 1, .rw, .kept, 0x0⟩,
  ⟨0x200, 0, 1, 1, .wp, .plain, 0x0⟩,
  ⟨0x204, 0, 1, 1, .ro, .plain, 0x0⟩,
  ⟨0x208, 0, 1, 1, .cnt, .plain, 0x0⟩,
  ⟨0x20C, 0, 1, 1, .rw, .plain, 0x0⟩,
  ⟨0x210, 0, 1, 1, .rw, .plain, 0x0⟩,
  ⟨0x214, 0, 1, 1, .rw, .plain, 0x0⟩,
  ⟨0x218, 0, 1, 1, .ro, .factory, 0x0⟩,
  ⟨0x220, 0, 1, 2, .ro, .plain, 0x0⟩,
  ⟨0x240, 4, 8, 1, .rw, .plain, 0x0⟩,
  ⟨0x260, 4, 16, 1, .ro, .plain, 0x0⟩,
  ⟨0x300, 16, 16, 2, .ro, .kept, 0x0⟩,
  ⟨0x308, 16, 16, 1, .ro, .kept, 0x0⟩,
  ⟨0x400, 4, 256, 1, .ro, .factory, 0x0⟩]

/-- The registers of the sq page. -/
def sqRows : List RegRow := [
  ⟨0x100, 0, 1, 1, .wp, .plain, 0x0⟩,
  ⟨0x104, 0, 1, 1, .ro, .journal, 0x0⟩,
  ⟨0x108, 0, 1, 1, .ro, .journal, 0x0⟩,
  ⟨0x10C, 0, 1, 1, .ro, .journal, 0x0⟩,
  ⟨0x110, 0, 1, 1, .ro, .journal, 0x0⟩,
  ⟨0x114, 0, 1, 1, .ro, .journal, 0x0⟩,
  ⟨0x118, 0, 1, 1, .wp, .journal, 0x0⟩,
  ⟨0x120, 4, 4, 1, .ro, .journal, 0x0⟩,
  ⟨0x130, 0, 1, 1, .ro, .journal, 0x0⟩,
  ⟨0x134, 0, 1, 1, .ro, .journal, 0x0⟩,
  ⟨0x138, 0, 1, 1, .wp, .plain, 0x0⟩,
  ⟨0x13C, 0, 1, 1, .wp, .plain, 0x0⟩,
  ⟨0x140, 0, 1, 1, .ro, .journal, 0x0⟩,
  ⟨0x148, 0, 1, 1, .cnt, .plain, 0x0⟩,
  ⟨0x14C, 0, 1, 1, .rw, .plain, 0x0⟩,
  ⟨0x150, 0, 1, 1, .cnt, .journal, 0x0⟩,
  ⟨0x154, 0, 1, 1, .rw, .journal, 0x0⟩,
  ⟨0x158, 0, 1, 1, .ro, .journal, 0x0⟩,
  ⟨0x160, 0, 1, 1, .cnt, .journal, 0x0⟩,
  ⟨0x164, 0, 1, 1, .rw, .journal, 0x0⟩,
  ⟨0x168, 0, 1, 1, .ro, .journal, 0x0⟩,
  ⟨0x16C, 0, 1, 1, .ro, .journal, 0x0⟩,
  ⟨0x170, 0, 1, 1, .cnt, .journal, 0x0⟩,
  ⟨0x174, 0, 1, 1, .rw, .journal, 0x0⟩,
  ⟨0x178, 0, 1, 1, .ro, .journal, 0x0⟩,
  ⟨0x17C, 0, 1, 1, .ro, .journal, 0x0⟩,
  ⟨0x180, 0, 1, 2, .ro, .journal, 0x0⟩,
  ⟨0x200, 16, 32, 2, .wp, .journal, 0x0⟩,
  ⟨0x208, 16, 32, 1, .wp, .journal, 0x0⟩,
  ⟨0x20C, 16, 32, 1, .ro, .journal, 0x0⟩]

/-- The registers of the lt page. -/
def ltRows : List RegRow := [
  ⟨0x100, 0, 1, 1, .ro, .plain, 0x0⟩,
  ⟨0x104, 0, 1, 1, .ro, .journal, 0x0⟩,
  ⟨0x108, 0, 1, 1, .ro, .journal, 0x0⟩,
  ⟨0x10C, 0, 1, 1, .ro, .journal, 0x0⟩,
  ⟨0x110, 0, 1, 1, .ro, .plain, 0x0⟩,
  ⟨0x114, 0, 1, 1, .cnt, .plain, 0x0⟩,
  ⟨0x118, 0, 1, 1, .rw, .plain, 0x0⟩,
  ⟨0x11C, 0, 1, 1, .wp, .plain, 0x0⟩,
  ⟨0x120, 0, 1, 1, .wp, .plain, 0x0⟩]

/-- The registers of the lc page. -/
def lcRows : List RegRow := [
  ⟨0x100, 0, 1, 1, .wp, .journal, 0x1⟩,
  ⟨0x104, 0, 1, 1, .wp, .journal, 0x0⟩,
  ⟨0x108, 0, 1, 1, .wp, .journal, 0x0⟩,
  ⟨0x10C, 0, 1, 1, .wp, .journal, 0x1⟩,
  ⟨0x110, 0, 1, 1, .wp, .journal, 0x0⟩,
  ⟨0x114, 0, 1, 1, .wp, .journal, 0x0⟩,
  ⟨0x118, 0, 1, 1, .wp, .journal, 0x0⟩,
  ⟨0x11C, 0, 1, 1, .wp, .journal, 0x0⟩,
  ⟨0x120, 0, 1, 1, .wp, .journal, 0x7FFF⟩,
  ⟨0x124, 0, 1, 1, .wp, .journal, 0x8000⟩,
  ⟨0x128, 0, 1, 1, .wp, .journal, 0x0⟩,
  ⟨0x12C, 0, 1, 1, .wp, .journal, 0x0⟩,
  ⟨0x130, 0, 1, 1, .wp, .journal, 0x0⟩,
  ⟨0x134, 4, 3, 1, .wp, .journal, 0x0⟩,
  ⟨0x140, 0, 1, 1, .wp, .journal, 0x0⟩,
  ⟨0x144, 0, 1, 1, .wp, .journal, 0x0⟩,
  ⟨0x148, 0, 1, 1, .rw, .plain, 0x0⟩,
  ⟨0x150, 0, 1, 1, .ro, .journal, 0x0⟩,
  ⟨0x158, 0, 1, 2, .ro, .journal, 0x0⟩,
  ⟨0x160, 0, 1, 1, .cnt, .journal, 0x0⟩,
  ⟨0x164, 0, 1, 1, .rw, .journal, 0x0⟩,
  ⟨0x168, 0, 1, 1, .cnt, .journal, 0x0⟩,
  ⟨0x16C, 0, 1, 1, .rw, .journal, 0x0⟩,
  ⟨0x200, 4, 64, 1, .wp, .journal, 0x0⟩,
  ⟨0x300, 4, 24, 1, .ro, .journal, 0x0⟩,
  ⟨0x360, 0, 1, 1, .ro, .journal, 0x0⟩,
  ⟨0x364, 0, 1, 1, .ro, .journal, 0x0⟩,
  ⟨0x368, 0, 1, 1, .ro, .journal, 0x0⟩,
  ⟨0x36C, 0, 1, 1, .ro, .journal, 0x0⟩,
  ⟨0x370, 0, 1, 1, .ro, .journal, 0x0⟩,
  ⟨0x180, 0, 1, 1, .wp, .journal, 0x0⟩,
  ⟨0x184, 0, 1, 1, .wp, .journal, 0x0⟩,
  ⟨0x188, 0, 1, 1, .wp, .journal, 0x0⟩,
  ⟨0x18C, 0, 1, 1, .wp, .journal, 0x0⟩,
  ⟨0x190, 0, 1, 1, .wp, .journal, 0x0⟩,
  ⟨0x194, 0, 1, 1, .wp, .journal, 0x0⟩,
  ⟨0x198, 0, 1, 1, .ro, .journal, 0x0⟩,
  ⟨0x19C, 0, 1, 1, .ro, .journal, 0x0⟩,
  ⟨0x1A0, 0, 1, 1, .ro, .journal, 0x0⟩,
  ⟨0x1A4, 0, 1, 1, .ro, .journal, 0x0⟩,
  ⟨0x1A8, 0, 1, 1, .wp, .journal, 0x0⟩,
  ⟨0x1AC, 0, 1, 1, .wp, .journal, 0x0⟩,
  ⟨0x1B0, 0, 1, 1, .wp, .journal, 0x0⟩,
  ⟨0x1B4, 0, 1, 1, .wp, .journal, 0x0⟩,
  ⟨0x1B8, 0, 1, 1, .wp, .journal, 0x0⟩,
  ⟨0x1BC, 0, 1, 1, .ro, .journal, 0x0⟩,
  ⟨0x1C0, 0, 1, 1, .wp, .journal, 0x0⟩,
  ⟨0x1C4, 0, 1, 1, .wp, .journal, 0x0⟩,
  ⟨0x1C8, 0, 1, 1, .wp, .journal, 0x0⟩,
  ⟨0x1CC, 0, 1, 1, .wp, .journal, 0x0⟩,
  ⟨0x1D0, 0, 1, 1, .ro, .journal, 0x0⟩,
  ⟨0x1D4, 0, 1, 1, .ro, .journal, 0x0⟩,
  ⟨0x1D8, 0, 1, 1, .ro, .journal, 0x0⟩,
  ⟨0x1DC, 0, 1, 1, .cnt, .journal, 0x0⟩,
  ⟨0x1E0, 0, 1, 1, .rw, .journal, 0x0⟩,
  ⟨0x1E4, 0, 1, 1, .cnt, .journal, 0x0⟩,
  ⟨0x1E8, 0, 1, 1, .rw, .journal, 0x0⟩,
  ⟨0x1EC, 0, 1, 1, .wp, .plain, 0x0⟩]

/-- The registers of the ac page. -/
def acRows : List RegRow := [
  ⟨0x100, 0, 1, 1, .wp, .journal, 0x0⟩,
  ⟨0x104, 0, 1, 1, .wp, .journal, 0x64⟩,
  ⟨0x108, 0, 1, 1, .wp, .journal, 0x0⟩,
  ⟨0x10C, 0, 1, 1, .wp, .plain, 0x0⟩,
  ⟨0x110, 0, 1, 1, .ro, .plain, 0x0⟩,
  ⟨0x114, 0, 1, 1, .ro, .plain, 0x0⟩,
  ⟨0x118, 0, 1, 1, .ro, .plain, 0x0⟩,
  ⟨0x11C, 0, 1, 1, .ro, .plain, 0x0⟩,
  ⟨0x120, 0, 1, 1, .cnt, .plain, 0x0⟩,
  ⟨0x124, 0, 1, 1, .rw, .plain, 0x0⟩,
  ⟨0x128, 0, 1, 1, .cnt, .plain, 0x0⟩,
  ⟨0x12C, 0, 1, 1, .rw, .plain, 0x0⟩,
  ⟨0x130, 0, 1, 1, .wp, .journal, 0x0⟩,
  ⟨0x134, 0, 1, 1, .wp, .journal, 0x0⟩,
  ⟨0x138, 0, 1, 1, .ro, .plain, 0x0⟩,
  ⟨0x13C, 0, 1, 1, .wp, .plain, 0x0⟩,
  ⟨0x140, 0, 1, 1, .cnt, .plain, 0x0⟩,
  ⟨0x144, 0, 1, 1, .rw, .plain, 0x0⟩,
  ⟨0x180, 4, 16, 1, .wp, .journal, 0x0⟩,
  ⟨0x1C0, 4, 16, 1, .wp, .journal, 0x0⟩,
  ⟨0x200, 4, 16, 1, .wp, .journal, 0x0⟩,
  ⟨0x240, 4, 16, 1, .ro, .plain, 0x0⟩,
  ⟨0x280, 4, 16, 1, .wp, .journal, 0x0⟩,
  ⟨0x2C0, 4, 16, 1, .ro, .journal, 0x0⟩,
  ⟨0x300, 16, 9, 1, .ro, .factory, 0x0⟩,
  ⟨0x304, 16, 9, 1, .ro, .factory, 0x0⟩,
  ⟨0x308, 16, 9, 1, .ro, .factory, 0x0⟩,
  ⟨0x30C, 16, 9, 1, .ro, .plain, 0x0⟩]

/-- The registers of the ao page. -/
def aoRows : List RegRow := [
  ⟨0x100, 64, 4, 1, .wp, .journal, 0x0⟩,
  ⟨0x104, 64, 4, 1, .wp, .journal, 0x0⟩,
  ⟨0x108, 64, 4, 1, .wp, .journal, 0x1⟩,
  ⟨0x10C, 64, 4, 1, .wp, .journal, 0x0⟩,
  ⟨0x110, 64, 4, 1, .wp, .journal, 0x0⟩,
  ⟨0x114, 64, 4, 1, .ro, .journal, 0x0⟩,
  ⟨0x118, 64, 4, 1, .ro, .plain, 0x0⟩,
  ⟨0x11C, 64, 4, 1, .ro, .plain, 0x0⟩,
  ⟨0x120, 64, 4, 1, .cnt, .journal, 0x0⟩,
  ⟨0x124, 64, 4, 1, .rw, .journal, 0x0⟩]

/-- The registers of the dio page. -/
def dioRows : List RegRow := [
  ⟨0x100, 0, 1, 1, .wp, .journal, 0x0⟩,
  ⟨0x104, 0, 1, 1, .ro, .journal, 0x0⟩,
  ⟨0x108, 0, 1, 1, .cnt, .journal, 0x0⟩,
  ⟨0x10C, 0, 1, 1, .rw, .journal, 0x0⟩,
  ⟨0x110, 0, 1, 1, .ro, .journal, 0x0⟩,
  ⟨0x114, 0, 1, 1, .ro, .journal, 0x0⟩,
  ⟨0x200, 64, 8, 1, .wp, .journal, 0x0⟩,
  ⟨0x204, 64, 8, 1, .wp, .journal, 0x0⟩,
  ⟨0x208, 64, 8, 1, .wp, .journal, 0x0⟩,
  ⟨0x20C, 64, 8, 1, .ro, .journal, 0x0⟩,
  ⟨0x210, 64, 8, 1, .ro, .journal, 0x0⟩,
  ⟨0x214, 64, 8, 1, .wp, .plain, 0x0⟩,
  ⟨0x218, 64, 8, 2, .wp, .plain, 0x0⟩,
  ⟨0x220, 64, 8, 2, .ro, .journal, 0x0⟩,
  ⟨0x228, 64, 8, 2, .ro, .journal, 0x0⟩,
  ⟨0x230, 64, 8, 1, .cnt, .journal, 0x0⟩,
  ⟨0x234, 64, 8, 1, .rw, .journal, 0x0⟩,
  ⟨0x238, 64, 8, 1, .cnt, .journal, 0x0⟩,
  ⟨0x23C, 64, 8, 1, .rw, .plain, 0x0⟩]

/-- The registers of the mt page. -/
def mtRows : List RegRow := [
  ⟨0x100, 0, 1, 1, .ro, .journal, 0x0⟩,
  ⟨0x104, 0, 1, 1, .ro, .journal, 0x0⟩,
  ⟨0x108, 0, 1, 1, .ro, .plain, 0x0⟩,
  ⟨0x10C, 0, 1, 1, .cnt, .plain, 0x0⟩,
  ⟨0x110, 0, 1, 1, .rw, .plain, 0x0⟩,
  ⟨0x114, 0, 1, 1, .wp, .plain, 0x0⟩,
  ⟨0x118, 0, 1, 1, .wp, .plain, 0x0⟩]

/-- The registers of the ax page. -/
def axRows : List RegRow := [
  ⟨0x100, 0, 1, 1, .wp, .plain, 0x0⟩,
  ⟨0x104, 0, 1, 1, .ro, .journal, 0x0⟩,
  ⟨0x108, 0, 1, 1, .wp, .journal, 0x0⟩,
  ⟨0x10C, 0, 1, 1, .wp, .journal, 0x0⟩,
  ⟨0x110, 0, 1, 2, .wp, .journal, 0x0⟩,
  ⟨0x118, 0, 1, 2, .wp, .journal, 0x0⟩,
  ⟨0x120, 0, 1, 2, .wp, .journal, 0x0⟩,
  ⟨0x128, 0, 1, 2, .wp, .journal, 0x0⟩,
  ⟨0x130, 0, 1, 2, .wp, .journal, 0x0⟩,
  ⟨0x138, 0, 1, 2, .wp, .journal, 0x0⟩,
  ⟨0x140, 0, 1, 2, .wp, .journal, 0x0⟩,
  ⟨0x148, 0, 1, 2, .wp, .journal, 0x7FFFFFFFFFFFFFFF⟩,
  ⟨0x150, 0, 1, 2, .wp, .journal, 0x8000000000000000⟩,
  ⟨0x158, 0, 1, 2, .ro, .journal, 0x0⟩,
  ⟨0x160, 0, 1, 2, .ro, .journal, 0x0⟩,
  ⟨0x168, 0, 1, 2, .ro, .journal, 0x0⟩,
  ⟨0x170, 0, 1, 2, .ro, .journal, 0x0⟩,
  ⟨0x178, 0, 1, 1, .ro, .journal, 0x0⟩,
  ⟨0x17C, 0, 1, 1, .ro, .journal, 0x0⟩,
  ⟨0x180, 0, 1, 1, .wp, .journal, 0x0⟩,
  ⟨0x184, 0, 1, 1, .wp, .journal, 0x0⟩,
  ⟨0x188, 0, 1, 1, .wp, .journal, 0x0⟩,
  ⟨0x18C, 0, 1, 1, .wp, .journal, 0x0⟩,
  ⟨0x190, 0, 1, 1, .wp, .journal, 0x0⟩,
  ⟨0x194, 0, 1, 1, .wp, .journal, 0x0⟩,
  ⟨0x198, 0, 1, 1, .wp, .journal, 0x0⟩,
  ⟨0x19C, 0, 1, 1, .wp, .journal, 0x40000⟩,
  ⟨0x1A0, 0, 1, 1, .wp, .journal, 0x0⟩,
  ⟨0x1A4, 0, 1, 1, .wp, .journal, 0x0⟩,
  ⟨0x1A8, 0, 1, 1, .wp, .journal, 0x0⟩,
  ⟨0x1B0, 0, 1, 2, .wp, .journal, 0x0⟩,
  ⟨0x1B8, 0, 1, 1, .wp, .journal, 0x0⟩,
  ⟨0x1BC, 0, 1, 1, .wp, .journal, 0x0⟩,
  ⟨0x1C0, 0, 1, 1, .wp, .journal, 0x0⟩,
  ⟨0x1C4, 0, 1, 1, .wp, .journal, 0x0⟩,
  ⟨0x1C8, 0, 1, 1, .wp, .journal, 0x0⟩,
  ⟨0x1CC, 0, 1, 1, .wp, .journal, 0x0⟩,
  ⟨0x1D0, 0, 1, 2, .wp, .journal, 0x0⟩,
  ⟨0x1D8, 0, 1, 1, .cnt, .journal, 0x0⟩,
  ⟨0x1DC, 0, 1, 1, .rw, .journal, 0x0⟩,
  ⟨0x1E0, 0, 1, 1, .cnt, .journal, 0x0⟩,
  ⟨0x1E4, 0, 1, 1, .rw, .journal, 0x0⟩,
  ⟨0x1E8, 0, 1, 2, .ro, .journal, 0x0⟩]

/-- The registers of the stp page. -/
def stpRows : List RegRow := [
  ⟨0x100, 0, 1, 1, .wp, .journal, 0x0⟩,
  ⟨0x104, 0, 1, 1, .wp, .journal, 0x140014⟩,
  ⟨0x108, 0, 1, 1, .wp, .journal, 0x10001⟩,
  ⟨0x110, 0, 1, 2, .ro, .journal, 0x0⟩,
  ⟨0x118, 0, 1, 1, .ro, .plain, 0x0⟩,
  ⟨0x11C, 0, 1, 1, .cnt, .plain, 0x0⟩,
  ⟨0x120, 0, 1, 1, .rw, .plain, 0x0⟩]

/-- The registers of the enc page. -/
def encRows : List RegRow := [
  ⟨0x100, 0, 1, 1, .wp, .journal, 0x0⟩,
  ⟨0x104, 0, 1, 1, .wp, .journal, 0x0⟩,
  ⟨0x108, 0, 1, 1, .wp, .journal, 0x0⟩,
  ⟨0x110, 0, 1, 2, .ro, .plain, 0x0⟩,
  ⟨0x118, 0, 1, 2, .ro, .plain, 0x0⟩,
  ⟨0x120, 0, 1, 2, .ro, .plain, 0x0⟩,
  ⟨0x128, 0, 1, 1, .ro, .plain, 0x0⟩,
  ⟨0x12C, 0, 1, 1, .cnt, .plain, 0x0⟩,
  ⟨0x130, 0, 1, 1, .rw, .plain, 0x0⟩,
  ⟨0x134, 0, 1, 1, .cnt, .plain, 0x0⟩,
  ⟨0x138, 0, 1, 1, .rw, .plain, 0x0⟩,
  ⟨0x13C, 0, 1, 1, .cnt, .plain, 0x0⟩,
  ⟨0x140, 0, 1, 1, .rw, .plain, 0x0⟩]

/-- The registers of the lp page. -/
def lpRows : List RegRow := [
  ⟨0x100, 0, 1, 1, .wp, .plain, 0x0⟩,
  ⟨0x104, 0, 1, 1, .ro, .journal, 0x0⟩,
  ⟨0x108, 0, 1, 1, .wp, .plain, 0x0⟩,
  ⟨0x10C, 0, 1, 1, .wp, .plain, 0x0⟩,
  ⟨0x110, 0, 1, 1, .ro, .journal, 0x0⟩,
  ⟨0x114, 0, 1, 1, .ro, .journal, 0x0⟩,
  ⟨0x118, 0, 1, 1, .ro, .journal, 0x0⟩,
  ⟨0x120, 0, 1, 2, .wp, .journal, 0x0⟩,
  ⟨0x128, 0, 1, 2, .ro, .journal, 0x0⟩,
  ⟨0x130, 0, 1, 1, .ro, .journal, 0x0⟩,
  ⟨0x134, 0, 1, 1, .cnt, .journal, 0x0⟩,
  ⟨0x138, 0, 1, 1, .rw, .journal, 0x0⟩,
  ⟨0x13C, 0, 1, 1, .wp, .plain, 0x0⟩,
  ⟨0x140, 0, 1, 1, .wp, .plain, 0x0⟩,
  ⟨0x144, 0, 1, 1, .wp, .plain, 0x0⟩,
  ⟨0x148, 0, 1, 1, .ro, .journal, 0x0⟩,
  ⟨0x14C, 0, 1, 1, .ro, .journal, 0x0⟩,
  ⟨0x150, 0, 1, 1, .wp, .plain, 0x0⟩,
  ⟨0x154, 0, 1, 1, .cnt, .journal, 0x0⟩,
  ⟨0x158, 0, 1, 1, .rw, .journal, 0x0⟩,
  ⟨0x15C, 0, 1, 1, .cnt, .journal, 0x0⟩,
  ⟨0x160, 0, 1, 1, .rw, .journal, 0x0⟩,
  ⟨0x164, 0, 1, 1, .ro, .journal, 0x0⟩,
  ⟨0x168, 0, 1, 1, .ro, .journal, 0x0⟩,
  ⟨0x16C, 0, 1, 1, .cnt, .plain, 0x0⟩,
  ⟨0x170, 0, 1, 1, .rw, .plain, 0x0⟩,
  ⟨0x174, 0, 1, 1, .cnt, .journal, 0x0⟩,
  ⟨0x178, 0, 1, 1, .rw, .journal, 0x0⟩,
  ⟨0x17C, 0, 1, 1, .ro, .journal, 0x0⟩,
  ⟨0x200, 8, 16, 1, .ro, .plain, 0x0⟩,
  ⟨0x204, 8, 16, 1, .ro, .plain, 0x0⟩]

/-- The registers of the sio page. -/
def sioRows : List RegRow := [
  ⟨0x100, 0, 1, 1, .ro, .plain, 0x0⟩,
  ⟨0x104, 0, 1, 1, .ro, .plain, 0x0⟩,
  ⟨0x108, 0, 1, 1, .ro, .plain, 0x0⟩,
  ⟨0x10C, 0, 1, 1, .ro, .journal, 0x0⟩,
  ⟨0x110, 0, 1, 1, .ro, .journal, 0x0⟩,
  ⟨0x114, 0, 1, 1, .ro, .plain, 0x0⟩,
  ⟨0x118, 0, 1, 1, .ro, .plain, 0x0⟩,
  ⟨0x11C, 0, 1, 1, .ro, .journal, 0x0⟩,
  ⟨0x120, 0, 1, 1, .ro, .plain, 0x0⟩,
  ⟨0x124, 0, 1, 1, .cnt, .journal, 0x0⟩,
  ⟨0x128, 0, 1, 1, .rw, .journal, 0x0⟩]

/-- The registers of the sfa page. -/
def sfaRows : List RegRow := [
  ⟨0x100, 0, 1, 1, .ro, .journal, 0x0⟩,
  ⟨0x104, 0, 1, 1, .wp, .plain, 0x0⟩,
  ⟨0x108, 0, 1, 1, .wp, .plain, 0x0⟩,
  ⟨0x10C, 0, 1, 1, .wp, .plain, 0x0⟩,
  ⟨0x110, 0, 1, 1, .ro, .journal, 0x0⟩,
  ⟨0x114, 0, 1, 1, .ro, .journal, 0x0⟩,
  ⟨0x118, 0, 1, 1, .ro, .journal, 0x0⟩,
  ⟨0x11C, 0, 1, 1, .wp, .plain, 0x0⟩,
  ⟨0x120, 4, 8, 1, .wo, .plain, 0x0⟩,
  ⟨0x140, 0, 1, 1, .ro, .journal, 0x0⟩,
  ⟨0x148, 0, 1, 2, .ro, .journal, 0x0⟩,
  ⟨0x150, 4, 8, 1, .ro, .journal, 0x0⟩,
  ⟨0x170, 4, 2, 1, .ro, .journal, 0x0⟩,
  ⟨0x178, 0, 1, 1, .cnt, .journal, 0x0⟩,
  ⟨0x17C, 0, 1, 1, .rw, .journal, 0x0⟩,
  ⟨0x180, 0, 1, 1, .cnt, .journal, 0x0⟩,
  ⟨0x184, 0, 1, 1, .rw, .journal, 0x0⟩,
  ⟨0x188, 0, 1, 1, .cnt, .journal, 0x0⟩,
  ⟨0x18C, 0, 1, 1, .rw, .journal, 0x0⟩,
  ⟨0x190, 0, 1, 1, .cnt, .journal, 0x0⟩,
  ⟨0x194, 0, 1, 1, .rw, .journal, 0x0⟩]

/-- The registers of the tw page. -/
def twRows : List RegRow := [
  ⟨0x100, 0, 1, 1, .wp, .kept, 0x2⟩,
  ⟨0x104, 0, 1, 1, .wp, .plain, 0x0⟩,
  ⟨0x108, 0, 1, 1, .wp, .kept, 0x3C⟩,
  ⟨0x10C, 0, 1, 1, .ro, .plain, 0x0⟩,
  ⟨0x110, 0, 1, 2, .wp, .kept, 0x0⟩,
  ⟨0x118, 0, 1, 2, .ro, .journal, 0x0⟩,
  ⟨0x120, 0, 1, 2, .ro, .plain, 0x0⟩,
  ⟨0x128, 0, 1, 2, .ro, .plain, 0x0⟩,
  ⟨0x130, 0, 1, 2, .ro, .plain, 0x0⟩,
  ⟨0x138, 0, 1, 1, .ro, .plain, 0x0⟩,
  ⟨0x13C, 0, 1, 1, .ro, .plain, 0x0⟩,
  ⟨0x140, 0, 1, 1, .cnt, .plain, 0x0⟩,
  ⟨0x144, 0, 1, 1, .rw, .plain, 0x0⟩,
  ⟨0x148, 0, 1, 1, .cnt, .plain, 0x0⟩,
  ⟨0x14C, 0, 1, 1, .rw, .plain, 0x0⟩,
  ⟨0x150, 0, 1, 1, .cnt, .plain, 0x0⟩,
  ⟨0x154, 0, 1, 1, .rw, .plain, 0x0⟩,
  ⟨0x158, 0, 1, 1, .cnt, .plain, 0x0⟩,
  ⟨0x15C, 0, 1, 1, .rw, .plain, 0x0⟩,
  ⟨0x160, 0, 1, 1, .cnt, .plain, 0x0⟩,
  ⟨0x164, 0, 1, 1, .rw, .plain, 0x0⟩,
  ⟨0x168, 0, 1, 1, .cnt, .plain, 0x0⟩,
  ⟨0x16C, 0, 1, 1, .rw, .plain, 0x0⟩,
  ⟨0x170, 0, 1, 1, .cnt, .plain, 0x0⟩,
  ⟨0x174, 0, 1, 1, .rw, .plain, 0x0⟩]

/-- The registers of the gl page. -/
def glRows : List RegRow := [
  ⟨0x100, 0, 1, 1, .ro, .plain, 0x0⟩,
  ⟨0x104, 0, 1, 1, .ro, .factory, 0x0⟩,
  ⟨0x108, 0, 1, 1, .wp, .plain, 0x0⟩,
  ⟨0x10C, 0, 1, 1, .cnt, .plain, 0x0⟩,
  ⟨0x110, 0, 1, 1, .rw, .plain, 0x0⟩,
  ⟨0x114, 0, 1, 1, .cnt, .plain, 0x0⟩,
  ⟨0x118, 0, 1, 1, .rw, .plain, 0x0⟩,
  ⟨0x11C, 0, 1, 1, .cnt, .plain, 0x0⟩,
  ⟨0x120, 0, 1, 1, .rw, .plain, 0x0⟩,
  ⟨0x124, 0, 1, 1, .cnt, .plain, 0x0⟩,
  ⟨0x128, 0, 1, 1, .rw, .plain, 0x0⟩]

/-- The registers of the oh page. -/
def ohRows : List RegRow := [
  ⟨0x100, 0, 1, 1, .wp, .kept, 0x3E8⟩,
  ⟨0x104, 0, 1, 1, .ro, .plain, 0x0⟩,
  ⟨0x108, 0, 1, 1, .cnt, .plain, 0x0⟩,
  ⟨0x10C, 0, 1, 1, .rw, .plain, 0x0⟩]

/-- The registers of the sb page. -/
def sbRows : List RegRow := [
  ⟨0x100, 0, 1, 1, .wp, .journal, 0x64⟩,
  ⟨0x104, 0, 1, 1, .wp, .kept, 0x258⟩,
  ⟨0x108, 0, 1, 1, .wp, .plain, 0x0⟩,
  ⟨0x10C, 0, 1, 1, .ro, .plain, 0x0⟩,
  ⟨0x110, 0, 1, 2, .ro, .plain, 0x0⟩,
  ⟨0x118, 0, 1, 2, .ro, .plain, 0x0⟩,
  ⟨0x120, 0, 1, 2, .ro, .plain, 0x0⟩,
  ⟨0x128, 0, 1, 1, .ro, .plain, 0x0⟩,
  ⟨0x12C, 0, 1, 1, .ro, .plain, 0x0⟩,
  ⟨0x130, 0, 1, 1, .cnt, .plain, 0x0⟩,
  ⟨0x134, 0, 1, 1, .rw, .plain, 0x0⟩,
  ⟨0x138, 0, 1, 1, .cnt, .plain, 0x0⟩,
  ⟨0x13C, 0, 1, 1, .rw, .plain, 0x0⟩,
  ⟨0x140, 0, 1, 1, .ro, .plain, 0x0⟩,
  ⟨0x148, 0, 1, 2, .ro, .plain, 0x0⟩,
  ⟨0x150, 0, 1, 2, .ro, .plain, 0x0⟩]

/-- The registers of the pl page. -/
def plRows : List RegRow := [
  ⟨0x100, 0, 1, 1, .wp, .kept, 0x820⟩,
  ⟨0x104, 0, 1, 1, .wp, .plain, 0x0⟩,
  ⟨0x108, 0, 1, 1, .wp, .plain, 0x0⟩,
  ⟨0x10C, 0, 1, 1, .ro, .journal, 0x0⟩,
  ⟨0x110, 0, 1, 1, .wp, .journal, 0x0⟩,
  ⟨0x114, 0, 1, 1, .wp, .plain, 0x0⟩,
  ⟨0x118, 0, 1, 1, .wp, .plain, 0x0⟩,
  ⟨0x11C, 0, 1, 1, .ro, .journal, 0x0⟩,
  ⟨0x120, 0, 1, 1, .ro, .journal, 0x0⟩,
  ⟨0x124, 0, 1, 1, .ro, .journal, 0x0⟩,
  ⟨0x128, 0, 1, 1, .ro, .plain, 0x0⟩,
  ⟨0x12C, 0, 1, 1, .ro, .plain, 0x0⟩,
  ⟨0x130, 0, 1, 1, .ro, .plain, 0x0⟩,
  ⟨0x134, 0, 1, 1, .ro, .plain, 0x0⟩,
  ⟨0x138, 0, 1, 1, .cnt, .plain, 0x0⟩,
  ⟨0x13C, 0, 1, 1, .rw, .plain, 0x0⟩,
  ⟨0x140, 0, 1, 1, .cnt, .plain, 0x0⟩,
  ⟨0x144, 0, 1, 1, .rw, .plain, 0x0⟩,
  ⟨0x148, 0, 1, 1, .cnt, .plain, 0x0⟩,
  ⟨0x14C, 0, 1, 1, .rw, .plain, 0x0⟩,
  ⟨0x150, 0, 1, 1, .cnt, .plain, 0x0⟩,
  ⟨0x154, 0, 1, 1, .rw, .plain, 0x0⟩,
  ⟨0x158, 0, 1, 1, .cnt, .plain, 0x0⟩,
  ⟨0x15C, 0, 1, 1, .rw, .plain, 0x0⟩,
  ⟨0x160, 0, 1, 1, .ro, .plain, 0x0⟩,
  ⟨0x164, 0, 1, 1, .cnt, .plain, 0x0⟩,
  ⟨0x168, 0, 1, 1, .rw, .plain, 0x0⟩,
  ⟨0x1000, 16, 32, 1, .ro, .plain, 0x0⟩,
  ⟨0x1004, 16, 32, 1, .ro, .plain, 0x0⟩,
  ⟨0x1008, 16, 32, 1, .ro, .plain, 0x0⟩,
  ⟨0x100C, 16, 32, 1, .ro, .plain, 0x0⟩,
  ⟨0x1400, 0, 1, 1, .rw, .plain, 0x0⟩,
  ⟨0x1404, 0, 1, 1, .ro, .plain, 0x0⟩,
  ⟨0x1500, 4, 64, 1, .rw, .plain, 0x0⟩,
  ⟨0x1700, 4, 64, 1, .ro, .plain, 0x0⟩]

/-- The registers of the cx page. -/
def cxRows : List RegRow := [
  ⟨0x100, 0, 1, 1, .wp, .plain, 0x10⟩,
  ⟨0x104, 0, 1, 1, .wp, .plain, 0x0⟩,
  ⟨0x108, 0, 1, 1, .wp, .plain, 0x0⟩,
  ⟨0x10C, 0, 1, 1, .wp, .plain, 0x0⟩,
  ⟨0x110, 0, 1, 1, .ro, .plain, 0x0⟩,
  ⟨0x114, 0, 1, 1, .ro, .plain, 0x0⟩,
  ⟨0x118, 0, 1, 1, .ro, .plain, 0x0⟩,
  ⟨0x140, 32, 4, 1, .wp, .plain, 0x0⟩,
  ⟨0x144, 32, 4, 1, .wp, .plain, 0x0⟩,
  ⟨0x148, 32, 4, 1, .wp, .plain, 0x0⟩,
  ⟨0x14C, 32, 4, 1, .cnt, .plain, 0x0⟩,
  ⟨0x150, 32, 4, 1, .rw, .plain, 0x0⟩,
  ⟨0x154, 32, 4, 1, .ro, .plain, 0x0⟩,
  ⟨0x1C0, 32, 4, 1, .wp, .plain, 0x0⟩,
  ⟨0x1C4, 32, 4, 1, .wp, .plain, 0x0⟩,
  ⟨0x1C8, 32, 4, 1, .cnt, .plain, 0x0⟩,
  ⟨0x1CC, 32, 4, 1, .rw, .plain, 0x0⟩,
  ⟨0x1D0, 32, 4, 1, .cnt, .plain, 0x0⟩,
  ⟨0x1D4, 32, 4, 1, .rw, .plain, 0x0⟩,
  ⟨0x240, 0, 1, 1, .cnt, .plain, 0x0⟩,
  ⟨0x244, 0, 1, 1, .rw, .plain, 0x0⟩,
  ⟨0x248, 0, 1, 1, .cnt, .plain, 0x0⟩,
  ⟨0x24C, 0, 1, 1, .rw, .plain, 0x0⟩,
  ⟨0x250, 0, 1, 1, .cnt, .plain, 0x0⟩,
  ⟨0x254, 0, 1, 1, .rw, .plain, 0x0⟩,
  ⟨0x258, 0, 1, 1, .cnt, .plain, 0x0⟩,
  ⟨0x25C, 0, 1, 1, .rw, .plain, 0x0⟩,
  ⟨0x400, 16, 64, 1, .wp, .plain, 0x0⟩,
  ⟨0x404, 16, 64, 1, .wp, .plain, 0x0⟩,
  ⟨0x408, 16, 64, 1, .wp, .plain, 0x0⟩]

/-- The registers of the tb page. -/
def tbRows : List RegRow := [
  ⟨0x100, 0, 1, 2, .ro, .plain, 0x0⟩,
  ⟨0x108, 0, 1, 1, .wp, .plain, 0x5000000⟩,
  ⟨0x10C, 0, 1, 1, .ro, .plain, 0x0⟩,
  ⟨0x110, 0, 1, 1, .wp, .kept, 0x640010⟩,
  ⟨0x114, 0, 1, 1, .ro, .plain, 0x0⟩,
  ⟨0x118, 0, 1, 2, .wp, .plain, 0x0⟩,
  ⟨0x120, 0, 1, 1, .wp, .plain, 0x0⟩,
  ⟨0x124, 0, 1, 1, .ro, .plain, 0x0⟩,
  ⟨0x128, 0, 1, 1, .ro, .plain, 0x0⟩,
  ⟨0x12C, 0, 1, 1, .ro, .plain, 0x0⟩,
  ⟨0x130, 0, 1, 1, .cnt, .plain, 0x0⟩,
  ⟨0x134, 0, 1, 1, .rw, .plain, 0x0⟩,
  ⟨0x138, 0, 1, 1, .cnt, .plain, 0x0⟩,
  ⟨0x13C, 0, 1, 1, .rw, .plain, 0x0⟩,
  ⟨0x140, 64, 2, 1, .wp, .kept, 0x0⟩,
  ⟨0x144, 64, 2, 1, .ro, .plain, 0x0⟩,
  ⟨0x148, 64, 2, 2, .ro, .plain, 0x0⟩,
  ⟨0x150, 64, 2, 1, .ro, .plain, 0x0⟩,
  ⟨0x154, 64, 2, 1, .ro, .plain, 0x0⟩,
  ⟨0x158, 64, 2, 2, .ro, .plain, 0x0⟩,
  ⟨0x160, 64, 2, 1, .cnt, .plain, 0x0⟩,
  ⟨0x164, 64, 2, 1, .rw, .plain, 0x0⟩]

/-- The registers of the eth page. -/
def ethRows : List RegRow := [
  ⟨0x100, 0, 1, 1, .wp, .kept, 0x7⟩,
  ⟨0x104, 0, 1, 1, .ro, .plain, 0x0⟩,
  ⟨0x108, 0, 1, 2, .wp, .plain, 0x0⟩,
  ⟨0x110, 0, 1, 2, .wp, .journal, 0x0⟩,
  ⟨0x118, 0, 1, 1, .wp, .journal, 0x0⟩,
  ⟨0x11C, 0, 1, 1, .wp, .plain, 0x0⟩,
  ⟨0x120, 0, 1, 1, .wp, .plain, 0x64⟩,
  ⟨0x128, 0, 1, 1, .cnt, .plain, 0x0⟩,
  ⟨0x12C, 0, 1, 1, .rw, .plain, 0x0⟩,
  ⟨0x130, 0, 1, 1, .ro, .plain, 0x0⟩,
  ⟨0x134, 0, 1, 1, .cnt, .plain, 0x0⟩,
  ⟨0x138, 0, 1, 1, .rw, .plain, 0x0⟩,
  ⟨0x13C, 0, 1, 1, .ro, .plain, 0x0⟩,
  ⟨0x140, 32, 4, 1, .wp, .plain, 0x0⟩,
  ⟨0x144, 32, 4, 1, .wp, .plain, 0x0⟩,
  ⟨0x148, 32, 4, 1, .wp, .plain, 0x0⟩,
  ⟨0x14C, 32, 4, 1, .cnt, .plain, 0x0⟩,
  ⟨0x150, 32, 4, 1, .rw, .plain, 0x0⟩,
  ⟨0x1C0, 32, 4, 1, .wp, .plain, 0x0⟩,
  ⟨0x1C4, 32, 4, 1, .wp, .plain, 0x0⟩,
  ⟨0x1C8, 32, 4, 1, .cnt, .plain, 0x0⟩,
  ⟨0x1CC, 32, 4, 1, .rw, .plain, 0x0⟩,
  ⟨0x1D0, 32, 4, 1, .cnt, .plain, 0x0⟩,
  ⟨0x1D4, 32, 4, 1, .rw, .plain, 0x0⟩,
  ⟨0x240, 0, 1, 1, .cnt, .plain, 0x0⟩,
  ⟨0x244, 0, 1, 1, .rw, .plain, 0x0⟩,
  ⟨0x248, 0, 1, 1, .cnt, .plain, 0x0⟩,
  ⟨0x24C, 0, 1, 1, .rw, .plain, 0x0⟩,
  ⟨0x250, 0, 1, 1, .cnt, .plain, 0x0⟩,
  ⟨0x254, 0, 1, 1, .rw, .plain, 0x0⟩,
  ⟨0x258, 0, 1, 1, .cnt, .plain, 0x0⟩,
  ⟨0x25C, 0, 1, 1, .rw, .plain, 0x0⟩,
  ⟨0x300, 0, 1, 2, .wp, .plain, 0x0⟩,
  ⟨0x308, 0, 1, 1, .wp, .plain, 0x0⟩,
  ⟨0x30C, 0, 1, 1, .wp, .plain, 0x0⟩,
  ⟨0x310, 0, 1, 1, .wp, .plain, 0x0⟩,
  ⟨0x400, 32, 16, 1, .wp, .journal, 0x0⟩,
  ⟨0x404, 32, 16, 1, .wp, .journal, 0x1⟩,
  ⟨0x408, 32, 16, 1, .wp, .journal, 0x0⟩,
  ⟨0x410, 32, 16, 2, .wp, .journal, 0x0⟩,
  ⟨0x418, 32, 16, 1, .ro, .journal, 0x0⟩,
  ⟨0x800, 4, 256, 1, .wp, .plain, 0x0⟩]

/-- The registers of the db page. -/
def dbRows : List RegRow := [
  ⟨0x100, 0, 1, 1, .ro, .plain, 0x0⟩,
  ⟨0x104, 0, 1, 1, .ro, .kept, 0x0⟩,
  ⟨0x108, 0, 1, 1, .ro, .kept, 0x0⟩,
  ⟨0x10C, 0, 1, 1, .ro, .kept, 0x40⟩,
  ⟨0x110, 0, 1, 1, .ro, .kept, 0x40⟩,
  ⟨0x114, 0, 1, 1, .ro, .kept, 0x0⟩,
  ⟨0x118, 0, 1, 1, .cnt, .plain, 0x0⟩,
  ⟨0x11C, 0, 1, 1, .rw, .plain, 0x0⟩,
  ⟨0x120, 0, 1, 1, .cnt, .plain, 0x0⟩,
  ⟨0x124, 0, 1, 1, .rw, .plain, 0x0⟩,
  ⟨0x128, 0, 1, 1, .cnt, .plain, 0x0⟩,
  ⟨0x12C, 0, 1, 1, .rw, .plain, 0x0⟩,
  ⟨0x130, 0, 1, 1, .cnt, .plain, 0x0⟩,
  ⟨0x134, 0, 1, 1, .rw, .plain, 0x0⟩,
  ⟨0x138, 0, 1, 1, .cnt, .plain, 0x0⟩,
  ⟨0x13C, 0, 1, 1, .rw, .plain, 0x0⟩,
  ⟨0x140, 0, 1, 1, .wp, .plain, 0x0⟩,
  ⟨0x144, 0, 1, 1, .ro, .plain, 0x0⟩,
  ⟨0x148, 0, 1, 1, .rw, .plain, 0x0⟩,
  ⟨0x14C, 0, 1, 1, .rw, .plain, 0x0⟩,
  ⟨0x150, 0, 1, 1, .rw, .plain, 0x0⟩,
  ⟨0x154, 0, 1, 1, .rw, .plain, 0x0⟩,
  ⟨0x180, 4, 16, 1, .wp, .kept, 0x100064⟩,
  ⟨0x400, 4, 250, 1, .rw, .plain, 0x0⟩,
  ⟨0x800, 4, 512, 1, .wp, .kept, 0x11111111⟩]

/-- The registers of the tr page. -/
def trRows : List RegRow := [
  ⟨0x100, 0, 1, 1, .wp, .plain, 0x0⟩,
  ⟨0x104, 0, 1, 1, .wp, .plain, 0x0⟩,
  ⟨0x108, 0, 1, 1, .ro, .plain, 0x0⟩,
  ⟨0x10C, 0, 1, 1, .ro, .plain, 0x0⟩,
  ⟨0x110, 0, 1, 2, .ro, .plain, 0x0⟩,
  ⟨0x118, 0, 1, 2, .ro, .plain, 0x0⟩,
  ⟨0x120, 0, 1, 1, .wp, .plain, 0x0⟩,
  ⟨0x124, 0, 1, 1, .wp, .plain, 0x0⟩,
  ⟨0x128, 0, 1, 1, .wp, .plain, 0x0⟩,
  ⟨0x12C, 0, 1, 1, .ro, .plain, 0x0⟩,
  ⟨0x130, 0, 1, 2, .ro, .plain, 0x0⟩,
  ⟨0x138, 0, 1, 2, .ro, .plain, 0x0⟩,
  ⟨0x140, 0, 1, 2, .ro, .plain, 0x0⟩,
  ⟨0x148, 0, 1, 1, .cnt, .plain, 0x0⟩,
  ⟨0x14C, 0, 1, 1, .rw, .plain, 0x0⟩,
  ⟨0x150, 0, 1, 1, .cnt, .plain, 0x0⟩,
  ⟨0x154, 0, 1, 1, .rw, .plain, 0x0⟩,
  ⟨0x158, 0, 1, 1, .cnt, .plain, 0x0⟩,
  ⟨0x15C, 0, 1, 1, .rw, .plain, 0x0⟩,
  ⟨0x160, 0, 1, 2, .wp, .plain, 0x0⟩,
  ⟨0x168, 0, 1, 1, .wp, .plain, 0x0⟩,
  ⟨0x16C, 0, 1, 1, .wp, .plain, 0x0⟩,
  ⟨0x170, 0, 1, 2, .wp, .plain, 0x0⟩,
  ⟨0x178, 0, 1, 2, .ro, .plain, 0x0⟩,
  ⟨0x180, 0, 1, 2, .wp, .plain, 0x0⟩,
  ⟨0x188, 0, 1, 2, .wp, .plain, 0x0⟩,
  ⟨0x190, 0, 1, 1, .wp, .plain, 0x0⟩,
  ⟨0x194, 0, 1, 1, .ro, .plain, 0x0⟩,
  ⟨0x198, 0, 1, 1, .cnt, .plain, 0x0⟩,
  ⟨0x19C, 0, 1, 1, .rw, .plain, 0x0⟩,
  ⟨0x400, 8, 64, 1, .wp, .plain, 0x1⟩,
  ⟨0x404, 8, 64, 1, .wp, .plain, 0x0⟩,
  ⟨0x600, 4, 64, 1, .ro, .plain, 0x0⟩]

/-- The registers of the tl page. -/
def tlRows : List RegRow := [
  ⟨0x100, 0, 1, 1, .wp, .plain, 0x14⟩,
  ⟨0x104, 0, 1, 1, .ro, .plain, 0x0⟩,
  ⟨0x108, 0, 1, 1, .ro, .plain, 0x0⟩,
  ⟨0x10C, 0, 1, 1, .wp, .plain, 0x0⟩,
  ⟨0x110, 0, 1, 1, .ro, .plain, 0x4B0⟩,
  ⟨0x114, 0, 1, 1, .cnt, .plain, 0x0⟩,
  ⟨0x118, 0, 1, 1, .rw, .plain, 0x0⟩,
  ⟨0x11C, 0, 1, 1, .cnt, .plain, 0x0⟩,
  ⟨0x120, 0, 1, 1, .rw, .plain, 0x0⟩,
  ⟨0x124, 0, 1, 1, .cnt, .plain, 0x0⟩,
  ⟨0x128, 0, 1, 1, .rw, .plain, 0x0⟩]

/-- The registers of the mb page. -/
def mbRows : List RegRow := [
  ⟨0x100, 0, 1, 1, .wp, .plain, 0x0⟩,
  ⟨0x104, 0, 1, 1, .ro, .plain, 0x0⟩,
  ⟨0x108, 0, 1, 1, .cnt, .plain, 0x0⟩,
  ⟨0x10C, 0, 1, 1, .rw, .plain, 0x0⟩,
  ⟨0x110, 0, 1, 1, .ro, .plain, 0x0⟩,
  ⟨0x114, 0, 1, 1, .cnt, .plain, 0x0⟩,
  ⟨0x118, 0, 1, 1, .rw, .plain, 0x0⟩,
  ⟨0x11C, 0, 1, 1, .ro, .plain, 0x0⟩,
  ⟨0x120, 0, 1, 1, .cnt, .plain, 0x0⟩,
  ⟨0x124, 0, 1, 1, .rw, .plain, 0x0⟩,
  ⟨0x128, 0, 1, 1, .cnt, .plain, 0x0⟩,
  ⟨0x12C, 0, 1, 1, .rw, .plain, 0x0⟩,
  ⟨0x140, 4, 8, 1, .ro, .kept, 0x0⟩,
  ⟨0x180, 0, 1, 1, .wp, .kept, 0x0⟩]

/-- The registers of the tk page. -/
def tkRows : List RegRow := [
  ⟨0x100, 0, 1, 1, .wp, .kept, 0xC8⟩,
  ⟨0x104, 0, 1, 1, .ro, .plain, 0x0⟩,
  ⟨0x108, 0, 1, 1, .wp, .plain, 0x0⟩,
  ⟨0x10C, 0, 1, 1, .ro, .plain, 0x0⟩,
  ⟨0x110, 0, 1, 1, .cnt, .plain, 0x0⟩,
  ⟨0x114, 0, 1, 1, .rw, .plain, 0x0⟩,
  ⟨0x118, 0, 1, 1, .cnt, .plain, 0x0⟩,
  ⟨0x11C, 0, 1, 1, .rw, .plain, 0x0⟩,
  ⟨0x120, 0, 1, 1, .cnt, .plain, 0x0⟩,
  ⟨0x124, 0, 1, 1, .rw, .plain, 0x0⟩]

/-- The registers of the pwr page. -/
def pwrRows : List RegRow := [
  ⟨0x100, 0, 1, 1, .ro, .plain, 0x0⟩,
  ⟨0x104, 0, 1, 1, .wp, .plain, 0x0⟩,
  ⟨0x108, 0, 1, 2, .rw, .plain, 0x0⟩,
  ⟨0x110, 0, 1, 1, .rw, .plain, 0x0⟩,
  ⟨0x114, 0, 1, 1, .ro, .plain, 0x0⟩,
  ⟨0x118, 0, 1, 1, .cnt, .plain, 0x0⟩,
  ⟨0x11C, 0, 1, 1, .rw, .plain, 0x0⟩,
  ⟨0x120, 0, 1, 2, .ro, .kept, 0x0⟩,
  ⟨0x128, 0, 1, 2, .ro, .kept, 0x0⟩,
  ⟨0x130, 0, 1, 1, .ro, .kept, 0x0⟩,
  ⟨0x134, 0, 1, 1, .ro, .plain, 0x0⟩,
  ⟨0x138, 0, 1, 1, .ro, .plain, 0x0⟩,
  ⟨0x13C, 0, 1, 1, .ro, .plain, 0x0⟩,
  ⟨0x140, 0, 1, 1, .ro, .plain, 0x0⟩]

/-- The registers of the hlth page. -/
def hlthRows : List RegRow := [
  ⟨0x100, 0, 1, 1, .ro, .plain, 0x0⟩,
  ⟨0x104, 4, 4, 1, .ro, .plain, 0x0⟩,
  ⟨0x114, 0, 1, 1, .ro, .plain, 0x0⟩,
  ⟨0x118, 0, 1, 1, .cnt, .plain, 0x0⟩,
  ⟨0x11C, 0, 1, 1, .rw, .plain, 0x0⟩,
  ⟨0x120, 4, 4, 1, .ro, .kept, 0x0⟩,
  ⟨0x130, 4, 4, 1, .ro, .kept, 0x0⟩,
  ⟨0x140, 4, 4, 1, .ro, .kept, 0x0⟩,
  ⟨0x150, 0, 1, 1, .ro, .kept, 0x0⟩,
  ⟨0x154, 0, 1, 1, .ro, .kept, 0x0⟩,
  ⟨0x158, 0, 1, 1, .ro, .kept, 0x0⟩,
  ⟨0x15C, 0, 1, 1, .ro, .kept, 0x0⟩,
  ⟨0x160, 0, 1, 1, .ro, .kept, 0x0⟩,
  ⟨0x164, 0, 1, 1, .ro, .kept, 0x0⟩,
  ⟨0x168, 0, 1, 1, .ro, .kept, 0x0⟩,
  ⟨0x16C, 0, 1, 1, .ro, .kept, 0x0⟩,
  ⟨0x170, 0, 1, 1, .wp, .kept, 0x2238⟩,
  ⟨0x180, 0, 1, 1, .rw, .plain, 0x0⟩,
  ⟨0x184, 0, 1, 1, .rw, .plain, 0x0⟩,
  ⟨0x188, 0, 1, 1, .rw, .plain, 0x0⟩,
  ⟨0x18C, 0, 1, 1, .wp, .plain, 0x0⟩,
  ⟨0x190, 0, 1, 1, .cnt, .plain, 0x0⟩,
  ⟨0x194, 0, 1, 1, .rw, .plain, 0x0⟩,
  ⟨0x1A0, 4, 14, 1, .ro, .kept, 0x0⟩]

/-- The registers of the sfb page. -/
def sfbRows : List RegRow := [
  ⟨0x100, 0, 1, 1, .ro, .journal, 0x0⟩,
  ⟨0x110, 0, 1, 1, .ro, .journal, 0x0⟩,
  ⟨0x114, 0, 1, 1, .ro, .journal, 0x0⟩,
  ⟨0x118, 0, 1, 1, .ro, .journal, 0x0⟩,
  ⟨0x140, 0, 1, 1, .ro, .journal, 0x0⟩,
  ⟨0x148, 0, 1, 2, .ro, .journal, 0x0⟩,
  ⟨0x150, 4, 8, 1, .ro, .journal, 0x0⟩,
  ⟨0x170, 4, 2, 1, .ro, .journal, 0x0⟩,
  ⟨0x178, 0, 1, 1, .cnt, .journal, 0x0⟩,
  ⟨0x17C, 0, 1, 1, .rw, .journal, 0x0⟩,
  ⟨0x180, 0, 1, 1, .cnt, .journal, 0x0⟩,
  ⟨0x184, 0, 1, 1, .rw, .journal, 0x0⟩,
  ⟨0x188, 0, 1, 1, .cnt, .journal, 0x0⟩,
  ⟨0x18C, 0, 1, 1, .rw, .journal, 0x0⟩,
  ⟨0x190, 0, 1, 1, .cnt, .journal, 0x0⟩,
  ⟨0x194, 0, 1, 1, .rw, .journal, 0x0⟩]

/-- The block-specific registers of a page. -/
def pageRows : Page → List RegRow
  | .sig => sigRows
  | .clk => clkRows
  | .evr => evrRows
  | .pcie => pcieRows
  | .id => idRows
  | .sq _ => sqRows
  | .lt _ => ltRows
  | .lc _ => lcRows
  | .ac _ => acRows
  | .ao _ => aoRows
  | .dio _ => dioRows
  | .mt _ => mtRows
  | .ax _ => axRows
  | .stp _ => stpRows
  | .enc _ => encRows
  | .lp _ => lpRows
  | .sio => sioRows
  | .sfa => sfaRows
  | .tw => twRows
  | .gl => glRows
  | .oh => ohRows
  | .sb => sbRows
  | .pl _ => plRows
  | .cx _ => cxRows
  | .tb => tbRows
  | .eth _ => ethRows
  | .db => dbRows
  | .tr => trRows
  | .tl => tlRows
  | .mb n => mbRows.filter (fun r => r.off != 0x180 || n == 0)
  | .tk => tkRows
  | .pwr => pwrRows
  | .hlth => hlthRows
  | .sfb => sfbRows

/-- The reset values that are not 0: (first offset, distance, how many, words, value). -/
def pageResets : Page → List (Nat × Nat × Nat × Nat × Nat)
  | .clk => [(0x100, 0, 1, 1, 0x3)]
  | .id => [(0x108, 0, 1, 1, 0x20480000), (0x10C, 0, 1, 1, 0x100)]
  | .lc _ => [(0x100, 0, 1, 1, 0x1), (0x10C, 0, 1, 1, 0x1), (0x120, 0, 1, 1, 0x7FFF), (0x124, 0, 1, 1, 0x8000)]
  | .ac _ => [(0x104, 0, 1, 1, 0x64)]
  | .ao _ => [(0x108, 64, 4, 1, 0x1)]
  | .ax _ => [(0x148, 0, 1, 2, 0x7FFFFFFFFFFFFFFF), (0x150, 0, 1, 2, 0x8000000000000000), (0x19C, 0, 1, 1, 0x40000)]
  | .stp _ => [(0x104, 0, 1, 1, 0x140014), (0x108, 0, 1, 1, 0x10001)]
  | .tw => [(0x100, 0, 1, 1, 0x2), (0x108, 0, 1, 1, 0x3C)]
  | .oh => [(0x100, 0, 1, 1, 0x3E8)]
  | .sb => [(0x100, 0, 1, 1, 0x64), (0x104, 0, 1, 1, 0x258)]
  | .pl _ => [(0x100, 0, 1, 1, 0x820)]
  | .cx _ => [(0x100, 0, 1, 1, 0x10)]
  | .tb => [(0x108, 0, 1, 1, 0x5000000), (0x110, 0, 1, 1, 0x640010)]
  | .eth _ => [(0x100, 0, 1, 1, 0x7), (0x120, 0, 1, 1, 0x64), (0x404, 32, 16, 1, 0x1)]
  | .db => [(0x10C, 0, 1, 1, 0x40), (0x110, 0, 1, 1, 0x40), (0x800, 4, 512, 1, 0x11111111), (0x184, 4, 15, 1, 0x100064)]
  | .tr => [(0x400, 8, 64, 1, 0x1)]
  | .tl => [(0x100, 0, 1, 1, 0x14), (0x110, 0, 1, 1, 0x4B0)]
  | .tk => [(0x100, 0, 1, 1, 0xC8), (0x8, 0, 1, 1, 0x1)]
  | .hlth => [(0x170, 0, 1, 1, 0x2238)]
  | .sig => []
  | .evr => []
  | .pcie => []
  | .sq _ => []
  | .lt _ => []
  | .dio _ => []
  | .mt _ => []
  | .enc _ => []
  | .lp _ => []
  | .sio => []
  | .sfa => []
  | .gl => []
  | .mb _ => []
  | .pwr => []
  | .sfb => []

/-- The journalled registers that lie outside the digest beside the header's (R164, R171, R269, R339): first offset, distance, how
many. -/
def localRows : Page → List (Nat × Nat × Nat)
  | .sq _ => [(0x154, 0, 1), (0x164, 0, 1), (0x174, 0, 1)]
  | .lc _ => [(0x164, 0, 1), (0x16C, 0, 1), (0x1E0, 0, 1), (0x1E8, 0, 1)]
  | .ao _ => [(0x124, 64, 4)]
  | .dio _ => [(0x104, 0, 1), (0x10C, 0, 1), (0x210, 64, 8), (0x220, 64, 8), (0x224, 64, 8), (0x228, 64, 8), (0x22C, 64, 8), (0x234, 64, 8), (0x238, 64, 8)]
  | .ax _ => [(0x1DC, 0, 1), (0x1E4, 0, 1)]
  | .lp _ => [(0x138, 0, 1), (0x158, 0, 1), (0x160, 0, 1), (0x178, 0, 1)]
  | .sio => [(0x128, 0, 1)]
  | .sfa => [(0x17C, 0, 1), (0x184, 0, 1), (0x18C, 0, 1), (0x194, 0, 1)]
  | .tw => [(0x118, 0, 1)]
  | .sfb => [(0x17C, 0, 1), (0x184, 0, 1), (0x18C, 0, 1), (0x194, 0, 1)]
  | _ => []

/-- The acknowledge registers: first offset, distance, how many. -/
def ackRows : Page → List (Nat × Nat × Nat)
  | .sig => [(0x104, 0, 1)]
  | .clk => [(0x114, 0, 1)]
  | .evr => [(0x300, 4, 64)]
  | .pcie => [(0x108, 0, 1), (0x110, 0, 1), (0x118, 0, 1), (0x120, 0, 1), (0x128, 0, 1)]
  | .id => [(0x20C, 0, 1)]
  | .sq _ => [(0x14C, 0, 1), (0x154, 0, 1), (0x164, 0, 1), (0x174, 0, 1)]
  | .lt _ => [(0x118, 0, 1)]
  | .lc _ => [(0x164, 0, 1), (0x16C, 0, 1), (0x1E0, 0, 1), (0x1E8, 0, 1)]
  | .ac _ => [(0x124, 0, 1), (0x12C, 0, 1), (0x144, 0, 1)]
  | .ao _ => [(0x124, 64, 4)]
  | .dio _ => [(0x10C, 0, 1), (0x234, 64, 8), (0x23C, 64, 8)]
  | .mt _ => [(0x110, 0, 1)]
  | .ax _ => [(0x1DC, 0, 1), (0x1E4, 0, 1)]
  | .stp _ => [(0x120, 0, 1)]
  | .enc _ => [(0x130, 0, 1), (0x138, 0, 1), (0x140, 0, 1)]
  | .lp _ => [(0x138, 0, 1), (0x158, 0, 1), (0x160, 0, 1), (0x170, 0, 1), (0x178, 0, 1)]
  | .sio => [(0x128, 0, 1)]
  | .sfa => [(0x17C, 0, 1), (0x184, 0, 1), (0x18C, 0, 1), (0x194, 0, 1)]
  | .tw => [(0x144, 0, 1), (0x14C, 0, 1), (0x154, 0, 1), (0x15C, 0, 1), (0x164, 0, 1), (0x16C, 0, 1), (0x174, 0, 1)]
  | .gl => [(0x110, 0, 1), (0x118, 0, 1), (0x120, 0, 1), (0x128, 0, 1)]
  | .oh => [(0x10C, 0, 1)]
  | .sb => [(0x134, 0, 1), (0x13C, 0, 1)]
  | .pl _ => [(0x13C, 0, 1), (0x144, 0, 1), (0x14C, 0, 1), (0x154, 0, 1), (0x15C, 0, 1), (0x168, 0, 1)]
  | .cx _ => [(0x150, 32, 4), (0x1CC, 32, 4), (0x1D4, 32, 4), (0x244, 0, 1), (0x24C, 0, 1), (0x254, 0, 1), (0x25C, 0, 1)]
  | .tb => [(0x134, 0, 1), (0x13C, 0, 1), (0x164, 64, 2)]
  | .eth _ => [(0x12C, 0, 1), (0x138, 0, 1), (0x150, 32, 4), (0x1CC, 32, 4), (0x1D4, 32, 4), (0x244, 0, 1), (0x24C, 0, 1), (0x254, 0, 1), (0x25C, 0, 1)]
  | .db => [(0x11C, 0, 1), (0x124, 0, 1), (0x12C, 0, 1), (0x134, 0, 1), (0x13C, 0, 1)]
  | .tr => [(0x14C, 0, 1), (0x154, 0, 1), (0x15C, 0, 1), (0x19C, 0, 1)]
  | .tl => [(0x118, 0, 1), (0x120, 0, 1), (0x128, 0, 1)]
  | .mb _ => [(0x10C, 0, 1), (0x118, 0, 1), (0x124, 0, 1), (0x12C, 0, 1)]
  | .tk => [(0x114, 0, 1), (0x11C, 0, 1), (0x124, 0, 1)]
  | .pwr => [(0x11C, 0, 1)]
  | .hlth => [(0x11C, 0, 1), (0x194, 0, 1)]
  | .sfb => [(0x17C, 0, 1), (0x184, 0, 1), (0x18C, 0, 1), (0x194, 0, 1)]

end Sys2Proof.Machine
end

