-- ==== Sys2Proof/Machine/RegNames.lean ====
section
/-! DEFINITION. The address of every register the register tables of spec/ name, by the table's own name
(page base plus offset; the instance and the index within the page are arguments). -/

namespace Sys2Proof.Machine

def DEV_SIG_REJ_CNT : Nat := sigBase + 0x100
def DEV_SIG_REJ_ACK : Nat := sigBase + 0x104
def DEV_SIG_REJ_LAST : Nat := sigBase + 0x108
def CLK_STAT : Nat := clkBase + 0x100
def CLK_CTRL : Nat := clkBase + 0x104
def CLK_TRIM : Nat := clkBase + 0x108
def CLK_TRIM_ACT : Nat := clkBase + 0x10C
def CLK_LOSS_CNT : Nat := clkBase + 0x110
def CLK_LOSS_ACK : Nat := clkBase + 0x114
def BP_CNT : Nat := clkBase + 0x118
def DEV_VEC_DONE : Nat := evrBase + 0x100
def DEV_SWE_RAISE : Nat := evrBase + 0x104
def DEV_VEC_ASSERT (i : Nat) : Nat := evrBase + 0x120 + 4 * i
def DEV_VEC_SENT (i : Nat) : Nat := evrBase + 0x140 + 4 * i
def DEV_SRC_PEND (i : Nat) : Nat := evrBase + 0x180 + 4 * i
def DEV_SWE_CNT (i : Nat) : Nat := evrBase + 0x200 + 4 * i
def DEV_SWE_ACK (i : Nat) : Nat := evrBase + 0x300 + 4 * i
def DEV_SWE_VEC (i : Nat) : Nat := evrBase + 0x400 + 4 * i
def DEV_VEC_STAMP (i : Nat) : Nat := evrBase + 0x800 + 8 * i
def DEV_PCIE_STAT : Nat := pcieBase + 0x100
def DEV_LINK_DOWN_CNT : Nat := pcieBase + 0x104
def DEV_LINK_DOWN_ACK : Nat := pcieBase + 0x108
def DEV_UNMAPPED_CNT : Nat := pcieBase + 0x10C
def DEV_UNMAPPED_ACK : Nat := pcieBase + 0x110
def DEV_BAD_ACC_CNT : Nat := pcieBase + 0x114
def DEV_BAD_ACC_ACK : Nat := pcieBase + 0x118
def DEV_XTO_CNT : Nat := pcieBase + 0x11C
def DEV_XTO_ACK : Nat := pcieBase + 0x120
def DEV_FLR_CNT : Nat := pcieBase + 0x124
def DEV_FLR_ACK : Nat := pcieBase + 0x128
def ID_SERIAL : Nat := idBase + 0x100
def ID_PCI_ID : Nat := idBase + 0x108
def ID_STRAP : Nat := idBase + 0x10C
def ID_RING : Nat := idBase + 0x110
def SQ_CMD (n : Nat) : Nat := sqBase n + 0x100
def SQ_STAT (n : Nat) : Nat := sqBase n + 0x104
def SQ_STEP (n : Nat) : Nat := sqBase n + 0x108
def SQ_STEP_ID (n : Nat) : Nat := sqBase n + 0x10C
def SQ_ELAPSED (n : Nat) : Nat := sqBase n + 0x110
def SQ_MARKER (n : Nat) : Nat := sqBase n + 0x114
def SQ_MARK_EVT (n : Nat) : Nat := sqBase n + 0x118
def SQ_REP (n : Nat) (i : Nat) : Nat := sqBase n + 0x120 + 4 * i
def SQ_REP_DEPTH (n : Nat) : Nat := sqBase n + 0x130
def SQ_RECIPE_ID (n : Nat) : Nat := sqBase n + 0x134
def SQ_LOAD_ADDR (n : Nat) : Nat := sqBase n + 0x138
def SQ_LOAD_LEN (n : Nat) : Nat := sqBase n + 0x13C
def SQ_LOAD_RES (n : Nat) : Nat := sqBase n + 0x140
def SQ_CMD_REJ_CNT (n : Nat) : Nat := sqBase n + 0x148
def SQ_CMD_REJ_ACK (n : Nat) : Nat := sqBase n + 0x14C
def SQ_ACT_REJ_CNT (n : Nat) : Nat := sqBase n + 0x150
def SQ_ACT_REJ_ACK (n : Nat) : Nat := sqBase n + 0x154
def SQ_ACT_REJ_LAST (n : Nat) : Nat := sqBase n + 0x158
def SQ_LATE_CNT (n : Nat) : Nat := sqBase n + 0x160
def SQ_LATE_ACK (n : Nat) : Nat := sqBase n + 0x164
def SQ_LATE_NS (n : Nat) : Nat := sqBase n + 0x168
def SQ_LATE_SLOT (n : Nat) : Nat := sqBase n + 0x16C
def SQ_RESUME_CNT (n : Nat) : Nat := sqBase n + 0x170
def SQ_RESUME_ACK (n : Nat) : Nat := sqBase n + 0x174
def SQ_RESUME_INFO (n : Nat) : Nat := sqBase n + 0x178
def SQ_OFF_TICKS (n : Nat) : Nat := sqBase n + 0x17C
def SQ_ENTRY_TT (n : Nat) : Nat := sqBase n + 0x180
def SQ_SCH_TIME (n : Nat) (i : Nat) : Nat := sqBase n + 0x200 + 16 * i
def SQ_SCH_CTRL (n : Nat) (i : Nat) : Nat := sqBase n + 0x208 + 16 * i
def SQ_SCH_STAT (n : Nat) (i : Nat) : Nat := sqBase n + 0x20C + 16 * i
def LT_CELL_PEND (n : Nat) : Nat := ltBase n + 0x100
def LT_CELL_RUN (n : Nat) : Nat := ltBase n + 0x104
def LT_CELL_FAULT (n : Nat) : Nat := ltBase n + 0x108
def LT_CELL_FROZEN (n : Nat) : Nat := ltBase n + 0x10C
def LT_CYC (n : Nat) : Nat := ltBase n + 0x110
def LT_ECC_CNT (n : Nat) : Nat := ltBase n + 0x114
def LT_ECC_ACK (n : Nat) : Nat := ltBase n + 0x118
def LT_GRP_MASK (n : Nat) : Nat := ltBase n + 0x11C
def LT_GRP_CMD (n : Nat) : Nat := ltBase n + 0x120
def LC_RATE (n : Nat) : Nat := lcBase n + 0x100
def LC_PV_SRC (n : Nat) : Nat := lcBase n + 0x104
def LC_SP_SRC (n : Nat) : Nat := lcBase n + 0x108
def LC_NEST (n : Nat) : Nat := lcBase n + 0x10C
def LC_FF_CFG (n : Nat) : Nat := lcBase n + 0x110
def LC_KVFF (n : Nat) : Nat := lcBase n + 0x114
def LC_OUT_DST (n : Nat) : Nat := lcBase n + 0x118
def LC_PUB (n : Nat) : Nat := lcBase n + 0x11C
def LC_OUT_MAX (n : Nat) : Nat := lcBase n + 0x120
def LC_OUT_MIN (n : Nat) : Nat := lcBase n + 0x124
def LC_OUT_SLEW (n : Nat) : Nat := lcBase n + 0x128
def LC_SAFE (n : Nat) : Nat := lcBase n + 0x12C
def LC_SCHED (n : Nat) : Nat := lcBase n + 0x130
def LC_TH (n : Nat) (i : Nat) : Nat := lcBase n + 0x134 + 4 * i
def LC_HYST (n : Nat) : Nat := lcBase n + 0x140
def LC_SEC (n : Nat) : Nat := lcBase n + 0x144
def LC_CSEL (n : Nat) : Nat := lcBase n + 0x148
def LC_STAT (n : Nat) : Nat := lcBase n + 0x150
def LC_SAMPLES (n : Nat) : Nat := lcBase n + 0x158
def LC_SW_CNT (n : Nat) : Nat := lcBase n + 0x160
def LC_SW_ACK (n : Nat) : Nat := lcBase n + 0x164
def LC_SAT_CNT (n : Nat) : Nat := lcBase n + 0x168
def LC_SAT_ACK (n : Nat) : Nat := lcBase n + 0x16C
def LC_COEF (n : Nat) (i : Nat) : Nat := lcBase n + 0x200 + 4 * i
def LC_STATE (n : Nat) (i : Nat) : Nat := lcBase n + 0x300 + 4 * i
def LC_SP_ACT (n : Nat) : Nat := lcBase n + 0x360
def LC_FF_ACT (n : Nat) : Nat := lcBase n + 0x364
def LC_OUT_PREV (n : Nat) : Nat := lcBase n + 0x368
def LC_NEST_ST (n : Nat) : Nat := lcBase n + 0x36C
def LC_NEST_J (n : Nat) : Nat := lcBase n + 0x370
def LC_SUP_CFG (n : Nat) : Nat := lcBase n + 0x180
def LC_SUP_LIM (n : Nat) : Nat := lcBase n + 0x184
def LC_SUP_TIME (n : Nat) : Nat := lcBase n + 0x188
def LC_MDL_GAIN (n : Nat) : Nat := lcBase n + 0x18C
def LC_MDL_ALPHA (n : Nat) : Nat := lcBase n + 0x190
def LC_MDL_OFF (n : Nat) : Nat := lcBase n + 0x194
def LC_SUP_STAT (n : Nat) : Nat := lcBase n + 0x198
def LC_SUP_X (n : Nat) : Nat := lcBase n + 0x19C
def LC_SUP_TRIP (n : Nat) : Nat := lcBase n + 0x1A0
def LC_MDL_Y (n : Nat) : Nat := lcBase n + 0x1A4
def LC_COMP_CFG (n : Nat) : Nat := lcBase n + 0x1A8
def LC_FR_CFG (n : Nat) : Nat := lcBase n + 0x1AC
def LC_FR_ORG (n : Nat) : Nat := lcBase n + 0x1B0
def LC_COG_ORG (n : Nat) : Nat := lcBase n + 0x1B4
def LC_COG_PITCH (n : Nat) : Nat := lcBase n + 0x1B8
def LC_COMP_ACT (n : Nat) : Nat := lcBase n + 0x1BC
def LC_LRN_CFG (n : Nat) : Nat := lcBase n + 0x1C0
def LC_LRN_BUDGET (n : Nat) : Nat := lcBase n + 0x1C4
def LC_DRIFT_WARN (n : Nat) : Nat := lcBase n + 0x1C8
def LC_DRIFT_LIM (n : Nat) : Nat := lcBase n + 0x1CC
def LC_DRIFT_MAX (n : Nat) : Nat := lcBase n + 0x1D0
def LC_LRN_STAT (n : Nat) : Nat := lcBase n + 0x1D4
def LC_LRN_UPD (n : Nat) : Nat := lcBase n + 0x1D8
def LC_LRN_LIM_CNT (n : Nat) : Nat := lcBase n + 0x1DC
def LC_LRN_LIM_ACK (n : Nat) : Nat := lcBase n + 0x1E0
def LC_LRN_SKIP_CNT (n : Nat) : Nat := lcBase n + 0x1E4
def LC_LRN_SKIP_ACK (n : Nat) : Nat := lcBase n + 0x1E8
def LC_COMP_CMD (n : Nat) : Nat := lcBase n + 0x1EC
def AC_CFG (n : Nat) : Nat := acBase n + 0x100
def AC_CAL_PER (n : Nat) : Nat := acBase n + 0x104
def AC_SEQ_LEN (n : Nat) : Nat := acBase n + 0x108
def AC_SEQ_COMMIT (n : Nat) : Nat := acBase n + 0x10C
def AC_STAT (n : Nat) : Nat := acBase n + 0x110
def AC_OPEN (n : Nat) : Nat := acBase n + 0x114
def AC_OVR (n : Nat) : Nat := acBase n + 0x118
def AC_INVAL (n : Nat) : Nat := acBase n + 0x11C
def AC_CAL_CNT (n : Nat) : Nat := acBase n + 0x120
def AC_CAL_ACK (n : Nat) : Nat := acBase n + 0x124
def AC_LOST_CNT (n : Nat) : Nat := acBase n + 0x128
def AC_LOST_ACK (n : Nat) : Nat := acBase n + 0x12C
def AC_CAP_BASE (n : Nat) : Nat := acBase n + 0x130
def AC_CAP_LEN (n : Nat) : Nat := acBase n + 0x134
def AC_CAP_WR (n : Nat) : Nat := acBase n + 0x138
def AC_CAP_RD (n : Nat) : Nat := acBase n + 0x13C
def AC_CAP_DROP_CNT (n : Nat) : Nat := acBase n + 0x140
def AC_CAP_DROP_ACK (n : Nat) : Nat := acBase n + 0x144
def AC_CH_CFG (n : Nat) (i : Nat) : Nat := acBase n + 0x180 + 4 * i
def AC_CH_DST (n : Nat) (i : Nat) : Nat := acBase n + 0x1C0 + 4 * i
def AC_CH_SAFE (n : Nat) (i : Nat) : Nat := acBase n + 0x200 + 4 * i
def AC_CH_LAST (n : Nat) (i : Nat) : Nat := acBase n + 0x240 + 4 * i
def AC_SEQ (n : Nat) (i : Nat) : Nat := acBase n + 0x280 + 4 * i
def AC_SEQA (n : Nat) (i : Nat) : Nat := acBase n + 0x2C0 + 4 * i
def AC_SL_OFF (n : Nat) (i : Nat) : Nat := acBase n + 0x300 + 16 * i
def AC_SL_GAIN (n : Nat) (i : Nat) : Nat := acBase n + 0x304 + 16 * i
def AC_SL_SKEW (n : Nat) (i : Nat) : Nat := acBase n + 0x308 + 16 * i
def AC_SL_STAT (n : Nat) (i : Nat) : Nat := acBase n + 0x30C + 16 * i
def AO_CFG (n : Nat) (i : Nat) : Nat := aoBase n + 0x100 + 64 * i
def AO_SRC (n : Nat) (i : Nat) : Nat := aoBase n + 0x104 + 64 * i
def AO_RATE (n : Nat) (i : Nat) : Nat := aoBase n + 0x108 + 64 * i
def AO_SAFE (n : Nat) (i : Nat) : Nat := aoBase n + 0x10C + 64 * i
def AO_RB_CFG (n : Nat) (i : Nat) : Nat := aoBase n + 0x110 + 64 * i
def AO_STAT (n : Nat) (i : Nat) : Nat := aoBase n + 0x114 + 64 * i
def AO_ACT (n : Nat) (i : Nat) : Nat := aoBase n + 0x118 + 64 * i
def AO_RB (n : Nat) (i : Nat) : Nat := aoBase n + 0x11C + 64 * i
def AO_FLT_CNT (n : Nat) (i : Nat) : Nat := aoBase n + 0x120 + 64 * i
def AO_FLT_ACK (n : Nat) (i : Nat) : Nat := aoBase n + 0x124 + 64 * i
def DIO_IN_DST (n : Nat) : Nat := dioBase n + 0x100
def DIO_LVL (n : Nat) : Nat := dioBase n + 0x104
def DIO_LATE_CNT (n : Nat) : Nat := dioBase n + 0x108
def DIO_LATE_ACK (n : Nat) : Nat := dioBase n + 0x10C
def DIO_LATE_NS (n : Nat) : Nat := dioBase n + 0x110
def DIO_LATE_PIN (n : Nat) : Nat := dioBase n + 0x114
def DIO_CFG (n : Nat) (i : Nat) : Nat := dioBase n + 0x200 + 64 * i
def DIO_SRC (n : Nat) (i : Nat) : Nat := dioBase n + 0x204 + 64 * i
def DIO_IMIN (n : Nat) (i : Nat) : Nat := dioBase n + 0x208 + 64 * i
def DIO_STAT (n : Nat) (i : Nat) : Nat := dioBase n + 0x20C + 64 * i
def DIO_IOUT (n : Nat) (i : Nat) : Nat := dioBase n + 0x210 + 64 * i
def DIO_SCH_CTRL (n : Nat) (i : Nat) : Nat := dioBase n + 0x214 + 64 * i
def DIO_SCH_TIME (n : Nat) (i : Nat) : Nat := dioBase n + 0x218 + 64 * i
def DIO_TS_RISE (n : Nat) (i : Nat) : Nat := dioBase n + 0x220 + 64 * i
def DIO_TS_FALL (n : Nat) (i : Nat) : Nat := dioBase n + 0x228 + 64 * i
def DIO_FLT_CNT (n : Nat) (i : Nat) : Nat := dioBase n + 0x230 + 64 * i
def DIO_FLT_ACK (n : Nat) (i : Nat) : Nat := dioBase n + 0x234 + 64 * i
def DIO_EDGE_CNT (n : Nat) (i : Nat) : Nat := dioBase n + 0x238 + 64 * i
def DIO_EDGE_ACK (n : Nat) (i : Nat) : Nat := dioBase n + 0x23C + 64 * i
def MT_AX_RUN (n : Nat) : Nat := mtBase n + 0x100
def MT_AX_FAULT (n : Nat) : Nat := mtBase n + 0x104
def MT_CYC (n : Nat) : Nat := mtBase n + 0x108
def MT_ECC_CNT (n : Nat) : Nat := mtBase n + 0x10C
def MT_ECC_ACK (n : Nat) : Nat := mtBase n + 0x110
def MT_GRP_MASK (n : Nat) : Nat := mtBase n + 0x114
def MT_GRP_CMD (n : Nat) : Nat := mtBase n + 0x118
def AX_CMD (n : Nat) : Nat := axBase n + 0x100
def AX_STAT (n : Nat) : Nat := axBase n + 0x104
def AX_CFG (n : Nat) : Nat := axBase n + 0x108
def AX_GATE_SRC (n : Nat) : Nat := axBase n + 0x10C
def AX_TGT (n : Nat) : Nat := axBase n + 0x110
def AX_VMAX (n : Nat) : Nat := axBase n + 0x118
def AX_AMAX (n : Nat) : Nat := axBase n + 0x120
def AX_DMAX (n : Nat) : Nat := axBase n + 0x128
def AX_JMAX (n : Nat) : Nat := axBase n + 0x130
def AX_EDEC (n : Nat) : Nat := axBase n + 0x138
def AX_EJERK (n : Nat) : Nat := axBase n + 0x140
def AX_SLIM_POS (n : Nat) : Nat := axBase n + 0x148
def AX_SLIM_NEG (n : Nat) : Nat := axBase n + 0x150
def AX_POS_CMD (n : Nat) : Nat := axBase n + 0x158
def AX_VEL_CMD (n : Nat) : Nat := axBase n + 0x160
def AX_ACC_CMD (n : Nat) : Nat := axBase n + 0x168
def AX_POS_ACT (n : Nat) : Nat := axBase n + 0x170
def AX_DEV (n : Nat) : Nat := axBase n + 0x178
def AX_PROF (n : Nat) : Nat := axBase n + 0x17C
def AX_PUB (n : Nat) : Nat := axBase n + 0x180
def AX_VNORM (n : Nat) : Nat := axBase n + 0x184
def AX_DEV_CFG (n : Nat) : Nat := axBase n + 0x188
def AX_DEV_WIN (n : Nat) : Nat := axBase n + 0x18C
def AX_LIMP_SRC (n : Nat) : Nat := axBase n + 0x190
def AX_LIMN_SRC (n : Nat) : Nat := axBase n + 0x194
def AX_HOME_SRC (n : Nat) : Nat := axBase n + 0x198
def AX_SW_FILT (n : Nat) : Nat := axBase n + 0x19C
def AX_HOME_CFG (n : Nat) : Nat := axBase n + 0x1A0
def AX_HVEL1 (n : Nat) : Nat := axBase n + 0x1A4
def AX_HVEL2 (n : Nat) : Nat := axBase n + 0x1A8
def AX_HOME_OFS (n : Nat) : Nat := axBase n + 0x1B0
def AX_GEAR_SRC (n : Nat) : Nat := axBase n + 0x1B8
def AX_GEAR_NUM (n : Nat) : Nat := axBase n + 0x1BC
def AX_GEAR_DEN (n : Nat) : Nat := axBase n + 0x1C0
def AX_GEAR_ANUM (n : Nat) : Nat := axBase n + 0x1C4
def AX_GEAR_ADEN (n : Nat) : Nat := axBase n + 0x1C8
def AX_GEAR_ADIR (n : Nat) : Nat := axBase n + 0x1CC
def AX_GEAR_MPOS (n : Nat) : Nat := axBase n + 0x1D0
def AX_MOVE_CNT (n : Nat) : Nat := axBase n + 0x1D8
def AX_MOVE_ACK (n : Nat) : Nat := axBase n + 0x1DC
def AX_REJ_CNT (n : Nat) : Nat := axBase n + 0x1E0
def AX_REJ_ACK (n : Nat) : Nat := axBase n + 0x1E4
def AX_FLT_POS (n : Nat) : Nat := axBase n + 0x1E8
def STP_CFG (n : Nat) : Nat := stpBase n + 0x100
def STP_TIMING (n : Nat) : Nat := stpBase n + 0x104
def STP_RATIO (n : Nat) : Nat := stpBase n + 0x108
def STP_CNT (n : Nat) : Nat := stpBase n + 0x110
def STP_STAT (n : Nat) : Nat := stpBase n + 0x118
def STP_CARRY_CNT (n : Nat) : Nat := stpBase n + 0x11C
def STP_CARRY_ACK (n : Nat) : Nat := stpBase n + 0x120
def ENC_CFG (n : Nat) : Nat := encBase n + 0x100
def ENC_SSI (n : Nat) : Nat := encBase n + 0x104
def ENC_DST (n : Nat) : Nat := encBase n + 0x108
def ENC_POS (n : Nat) : Nat := encBase n + 0x110
def ENC_Z_POS (n : Nat) : Nat := encBase n + 0x118
def ENC_Z_TS (n : Nat) : Nat := encBase n + 0x120
def ENC_STAT (n : Nat) : Nat := encBase n + 0x128
def ENC_Z_CNT (n : Nat) : Nat := encBase n + 0x12C
def ENC_Z_ACK (n : Nat) : Nat := encBase n + 0x130
def ENC_QERR_CNT (n : Nat) : Nat := encBase n + 0x134
def ENC_QERR_ACK (n : Nat) : Nat := encBase n + 0x138
def ENC_SSI_ERR_CNT (n : Nat) : Nat := encBase n + 0x13C
def ENC_SSI_ERR_ACK (n : Nat) : Nat := encBase n + 0x140
def LP_CMD (n : Nat) : Nat := lpBase n + 0x100
def LP_STAT (n : Nat) : Nat := lpBase n + 0x104
def LP_LOAD_ADDR (n : Nat) : Nat := lpBase n + 0x108
def LP_LOAD_LEN (n : Nat) : Nat := lpBase n + 0x10C
def LP_LOAD_RES (n : Nat) : Nat := lpBase n + 0x110
def LP_PROG_ID (n : Nat) : Nat := lpBase n + 0x114
def LP_STAGE_ID (n : Nat) : Nat := lpBase n + 0x118
def LP_CHG_BP (n : Nat) : Nat := lpBase n + 0x120
def LP_CHG_AT (n : Nat) : Nat := lpBase n + 0x128
def LP_CHG_RES (n : Nat) : Nat := lpBase n + 0x130
def LP_CHG_CNT (n : Nat) : Nat := lpBase n + 0x134
def LP_CHG_ACK (n : Nat) : Nat := lpBase n + 0x138
def LP_FRC_SYM (n : Nat) : Nat := lpBase n + 0x13C
def LP_FRC_VAL (n : Nat) : Nat := lpBase n + 0x140
def LP_FRC_CMD (n : Nat) : Nat := lpBase n + 0x144
def LP_FRC_COUNT (n : Nat) : Nat := lpBase n + 0x148
def LP_FRC_RES (n : Nat) : Nat := lpBase n + 0x14C
def LP_EVT_TRIG (n : Nat) : Nat := lpBase n + 0x150
def LP_MERGE_CNT (n : Nat) : Nat := lpBase n + 0x154
def LP_MERGE_ACK (n : Nat) : Nat := lpBase n + 0x158
def LP_IDX_CNT (n : Nat) : Nat := lpBase n + 0x15C
def LP_IDX_ACK (n : Nat) : Nat := lpBase n + 0x160
def LP_IDX_LAST (n : Nat) : Nat := lpBase n + 0x164
def LP_OVR_INFO (n : Nat) : Nat := lpBase n + 0x168
def LP_ECC_CNT (n : Nat) : Nat := lpBase n + 0x16C
def LP_ECC_ACK (n : Nat) : Nat := lpBase n + 0x170
def LP_TRIG_LOST_CNT (n : Nat) : Nat := lpBase n + 0x174
def LP_TRIG_LOST_ACK (n : Nat) : Nat := lpBase n + 0x178
def LP_TRIG_LOST_LAST (n : Nat) : Nat := lpBase n + 0x17C
def LP_TK_LAST (n : Nat) (i : Nat) : Nat := lpBase n + 0x200 + 8 * i
def LP_TK_PEAK (n : Nat) (i : Nat) : Nat := lpBase n + 0x204 + 8 * i
def SIO_IN_A : Nat := sioBase + 0x100
def SIO_IN_B : Nat := sioBase + 0x104
def SIO_PAIR : Nat := sioBase + 0x108
def SIO_DISC : Nat := sioBase + 0x10C
def SIO_JAM : Nat := sioBase + 0x110
def SIO_SO_CMD : Nat := sioBase + 0x114
def SIO_SO_RB : Nat := sioBase + 0x118
def SIO_SO_LOCK : Nat := sioBase + 0x11C
def SIO_PAIR_DIFF : Nat := sioBase + 0x120
def SIO_FLT_CNT : Nat := sioBase + 0x124
def SIO_FLT_ACK : Nat := sioBase + 0x128
def SF_STAT (f : Nat) : Nat := sfBase f + 0x100
def SF_CMD (f : Nat) : Nat := sfBase f + 0x104
def SF_LOAD_ADDR (f : Nat) : Nat := sfBase f + 0x108
def SF_LOAD_LEN (f : Nat) : Nat := sfBase f + 0x10C
def SF_RES (f : Nat) : Nat := sfBase f + 0x110
def SF_CFG_CRC (f : Nat) : Nat := sfBase f + 0x114
def SF_PEND_CRC (f : Nat) : Nat := sfBase f + 0x118
def SF_CONFIRM (f : Nat) : Nat := sfBase f + 0x11C
def SF_PW (f : Nat) (i : Nat) : Nat := sfBase f + 0x120 + 4 * i
def SF_CFG_ID (f : Nat) : Nat := sfBase f + 0x140
def SF_CYC (f : Nat) : Nat := sfBase f + 0x148
def SF_INST (f : Nat) (i : Nat) : Nat := sfBase f + 0x150 + 4 * i
def SF_CONN (f : Nat) (i : Nat) : Nat := sfBase f + 0x170 + 4 * i
def SF_XCMP_CNT (f : Nat) : Nat := sfBase f + 0x178
def SF_XCMP_ACK (f : Nat) : Nat := sfBase f + 0x17C
def SF_TRIP_CNT (f : Nat) : Nat := sfBase f + 0x180
def SF_TRIP_ACK (f : Nat) : Nat := sfBase f + 0x184
def SF_CTRIP_CNT (f : Nat) : Nat := sfBase f + 0x188
def SF_CTRIP_ACK (f : Nat) : Nat := sfBase f + 0x18C
def SF_PWF_CNT (f : Nat) : Nat := sfBase f + 0x190
def SF_PWF_ACK (f : Nat) : Nat := sfBase f + 0x194
def TW_CFG : Nat := twBase + 0x100
def TW_CMD : Nat := twBase + 0x104
def TW_HOLDOFF : Nat := twBase + 0x108
def TW_STAT : Nat := twBase + 0x10C
def TW_PEER_SERIAL : Nat := twBase + 0x110
def TW_PO_SEQ : Nat := twBase + 0x118
def TW_EPOCH : Nat := twBase + 0x120
def TW_DIG_OWN : Nat := twBase + 0x128
def TW_DIG_PEER : Nat := twBase + 0x130
def TW_HOLD_LEFT : Nat := twBase + 0x138
def TW_SYNC_PROG : Nat := twBase + 0x13C
def TW_ROLE_CNT : Nat := twBase + 0x140
def TW_ROLE_ACK : Nat := twBase + 0x144
def TW_FWD_MISS_CNT : Nat := twBase + 0x148
def TW_FWD_MISS_ACK : Nat := twBase + 0x14C
def TW_DIG_MIS_CNT : Nat := twBase + 0x150
def TW_DIG_MIS_ACK : Nat := twBase + 0x154
def TW_AUTH_FAIL_CNT : Nat := twBase + 0x158
def TW_AUTH_FAIL_ACK : Nat := twBase + 0x15C
def TW_LANE_ERR_CNT : Nat := twBase + 0x160
def TW_LANE_ERR_ACK : Nat := twBase + 0x164
def TW_SYNC_CNT : Nat := twBase + 0x168
def TW_SYNC_ACK : Nat := twBase + 0x16C
def TW_SYNC_FAIL_CNT : Nat := twBase + 0x170
def TW_SYNC_FAIL_ACK : Nat := twBase + 0x174
def GL_STAT : Nat := glBase + 0x100
def GL_CODE : Nat := glBase + 0x104
def GL_CMD : Nat := glBase + 0x108
def GL_SEIZE_CNT : Nat := glBase + 0x10C
def GL_SEIZE_ACK : Nat := glBase + 0x110
def GL_LOSS_CNT : Nat := glBase + 0x114
def GL_LOSS_ACK : Nat := glBase + 0x118
def GL_WIRE_CNT : Nat := glBase + 0x11C
def GL_WIRE_ACK : Nat := glBase + 0x120
def GL_DISAGREE_CNT : Nat := glBase + 0x124
def GL_DISAGREE_ACK : Nat := glBase + 0x128
def OH_CFG : Nat := ohBase + 0x100
def OH_STAT : Nat := ohBase + 0x104
def OH_EXP_CNT : Nat := ohBase + 0x108
def OH_EXP_ACK : Nat := ohBase + 0x10C
def SB_EPOCH : Nat := sbBase + 0x100
def SB_RESUME_MAX : Nat := sbBase + 0x104
def SB_CMD : Nat := sbBase + 0x108
def SB_STAT : Nat := sbBase + 0x10C
def SB_NUMBER : Nat := sbBase + 0x110
def SB_BOUNDARY : Nat := sbBase + 0x118
def SB_DIGEST : Nat := sbBase + 0x120
def SB_ROWS : Nat := sbBase + 0x128
def SB_DRAIN_US : Nat := sbBase + 0x12C
def SB_SKIP_CNT : Nat := sbBase + 0x130
def SB_SKIP_ACK : Nat := sbBase + 0x134
def SB_START_CNT : Nat := sbBase + 0x138
def SB_START_ACK : Nat := sbBase + 0x13C
def SB_START_INFO : Nat := sbBase + 0x140
def SB_OFF : Nat := sbBase + 0x148
def SB_RESUMED : Nat := sbBase + 0x150
def PL_CFG (n : Nat) : Nat := plBase n + 0x100
def PL_CMD (n : Nat) : Nat := plBase n + 0x104
def PL_LCMD (n : Nat) : Nat := plBase n + 0x108
def PL_STAT (n : Nat) : Nat := plBase n + 0x10C
def PL_CYCLE (n : Nat) : Nat := plBase n + 0x110
def PL_LOAD_ADDR (n : Nat) : Nat := plBase n + 0x114
def PL_LOAD_LEN (n : Nat) : Nat := plBase n + 0x118
def PL_LOAD_RES (n : Nat) : Nat := plBase n + 0x11C
def PL_SCHED_ID (n : Nat) : Nat := plBase n + 0x120
def PL_CYC_NUM (n : Nat) : Nat := plBase n + 0x124
def PL_ACT (n : Nat) : Nat := plBase n + 0x128
def PL_INVAL (n : Nat) : Nat := plBase n + 0x12C
def PL_SILENT (n : Nat) : Nat := plBase n + 0x130
def PL_LOST (n : Nat) : Nat := plBase n + 0x134
def PL_DUP_CNT (n : Nat) : Nat := plBase n + 0x138
def PL_DUP_ACK (n : Nat) : Nat := plBase n + 0x13C
def PL_COLL_CNT (n : Nat) : Nat := plBase n + 0x140
def PL_COLL_ACK (n : Nat) : Nat := plBase n + 0x144
def PL_EDGE_CNT (n : Nat) : Nat := plBase n + 0x148
def PL_EDGE_ACK (n : Nat) : Nat := plBase n + 0x14C
def PL_CRC_CNT (n : Nat) : Nat := plBase n + 0x150
def PL_CRC_ACK (n : Nat) : Nat := plBase n + 0x154
def PL_WIT_DIFF_CNT (n : Nat) : Nat := plBase n + 0x158
def PL_WIT_DIFF_ACK (n : Nat) : Nat := plBase n + 0x15C
def PL_ACYC_STAT (n : Nat) : Nat := plBase n + 0x160
def PL_ACYC_CNT (n : Nat) : Nat := plBase n + 0x164
def PL_ACYC_ACK (n : Nat) : Nat := plBase n + 0x168
def PL_SL_STAT (n : Nat) (i : Nat) : Nat := plBase n + 0x1000 + 16 * i
def PL_SL_TIME (n : Nat) (i : Nat) : Nat := plBase n + 0x1004 + 16 * i
def PL_SL_EDGE (n : Nat) (i : Nat) : Nat := plBase n + 0x1008 + 16 * i
def PL_SL_MISC (n : Nat) (i : Nat) : Nat := plBase n + 0x100C + 16 * i
def PL_AREQ_HDR (n : Nat) : Nat := plBase n + 0x1400
def PL_ARSP_HDR (n : Nat) : Nat := plBase n + 0x1404
def PL_AREQ_DATA (n : Nat) (i : Nat) : Nat := plBase n + 0x1500 + 4 * i
def PL_ARSP_DATA (n : Nat) (i : Nat) : Nat := plBase n + 0x1700 + 4 * i
def CX_CFG (n : Nat) : Nat := cxBase n + 0x100
def CX_NBT (n : Nat) : Nat := cxBase n + 0x104
def CX_DBT (n : Nat) : Nat := cxBase n + 0x108
def CX_CMD (n : Nat) : Nat := cxBase n + 0x10C
def CX_STAT (n : Nat) : Nat := cxBase n + 0x110
def CX_ERRC (n : Nat) : Nat := cxBase n + 0x114
def CX_RCV11 (n : Nat) : Nat := cxBase n + 0x118
def CX_TQ_BASE (n : Nat) (i : Nat) : Nat := cxBase n + 0x140 + 32 * i
def CX_TQ_CFG (n : Nat) (i : Nat) : Nat := cxBase n + 0x144 + 32 * i
def CX_TQ_POST (n : Nat) (i : Nat) : Nat := cxBase n + 0x148 + 32 * i
def CX_TQ_DONE (n : Nat) (i : Nat) : Nat := cxBase n + 0x14C + 32 * i
def CX_TQ_DACK (n : Nat) (i : Nat) : Nat := cxBase n + 0x150 + 32 * i
def CX_TQ_LAST (n : Nat) (i : Nat) : Nat := cxBase n + 0x154 + 32 * i
def CX_RQ_BASE (n : Nat) (i : Nat) : Nat := cxBase n + 0x1C0 + 32 * i
def CX_RQ_CFG (n : Nat) (i : Nat) : Nat := cxBase n + 0x1C4 + 32 * i
def CX_RQ_CNT (n : Nat) (i : Nat) : Nat := cxBase n + 0x1C8 + 32 * i
def CX_RQ_ACK (n : Nat) (i : Nat) : Nat := cxBase n + 0x1CC + 32 * i
def CX_RQ_OVF_CNT (n : Nat) (i : Nat) : Nat := cxBase n + 0x1D0 + 32 * i
def CX_RQ_OVF_ACK (n : Nat) (i : Nat) : Nat := cxBase n + 0x1D4 + 32 * i
def CX_ERRFR_CNT (n : Nat) : Nat := cxBase n + 0x240
def CX_ERRFR_ACK (n : Nat) : Nat := cxBase n + 0x244
def CX_IDCLASH_CNT (n : Nat) : Nat := cxBase n + 0x248
def CX_IDCLASH_ACK (n : Nat) : Nat := cxBase n + 0x24C
def CX_BUSOFF_CNT (n : Nat) : Nat := cxBase n + 0x250
def CX_BUSOFF_ACK (n : Nat) : Nat := cxBase n + 0x254
def CX_NOMATCH_CNT (n : Nat) : Nat := cxBase n + 0x258
def CX_NOMATCH_ACK (n : Nat) : Nat := cxBase n + 0x25C
def CX_FLT_ID (n : Nat) (i : Nat) : Nat := cxBase n + 0x400 + 16 * i
def CX_FLT_MASK (n : Nat) (i : Nat) : Nat := cxBase n + 0x404 + 16 * i
def CX_FLT_CTL (n : Nat) (i : Nat) : Nat := cxBase n + 0x408 + 16 * i
def TB_NS : Nat := tbBase + 0x100
def TB_INC : Nat := tbBase + 0x108
def TB_FRAC : Nat := tbBase + 0x10C
def TB_CFG : Nat := tbBase + 0x110
def TB_STAT : Nat := tbBase + 0x114
def TB_SET : Nat := tbBase + 0x118
def TB_CMD : Nat := tbBase + 0x120
def TB_SLEW_LEFT : Nat := tbBase + 0x124
def TB_PAIR_OFS : Nat := tbBase + 0x128
def TB_UTC_OFS : Nat := tbBase + 0x12C
def TB_SWITCH_CNT : Nat := tbBase + 0x130
def TB_SWITCH_ACK : Nat := tbBase + 0x134
def TB_STEP_CNT : Nat := tbBase + 0x138
def TB_STEP_ACK : Nat := tbBase + 0x13C
def TB_DOM_CFG (i : Nat) : Nat := tbBase + 0x140 + 64 * i
def TB_DOM_STAT (i : Nat) : Nat := tbBase + 0x144 + 64 * i
def TB_DOM_OFS (i : Nat) : Nat := tbBase + 0x148 + 64 * i
def TB_DOM_DELAY (i : Nat) : Nat := tbBase + 0x150 + 64 * i
def TB_DOM_FREQ (i : Nat) : Nat := tbBase + 0x154 + 64 * i
def TB_DOM_GMID (i : Nat) : Nat := tbBase + 0x158 + 64 * i
def TB_DOM_LOST_CNT (i : Nat) : Nat := tbBase + 0x160 + 64 * i
def TB_DOM_LOST_ACK (i : Nat) : Nat := tbBase + 0x164 + 64 * i
def ETH_CFG (n : Nat) : Nat := ethBase n + 0x100
def ETH_STAT (n : Nat) : Nat := ethBase n + 0x104
def ETH_MAC (n : Nat) : Nat := ethBase n + 0x108
def ETH_PMAC (n : Nat) : Nat := ethBase n + 0x110
def ETH_VLAN (n : Nat) : Nat := ethBase n + 0x118
def ETH_RXMAP (n : Nat) : Nat := ethBase n + 0x11C
def ETH_CB_RESET (n : Nat) : Nat := ethBase n + 0x120
def ETH_PTP_RX_CNT (n : Nat) : Nat := ethBase n + 0x128
def ETH_PTP_RX_ACK (n : Nat) : Nat := ethBase n + 0x12C
def ETH_PTP_RX_INFO (n : Nat) : Nat := ethBase n + 0x130
def ETH_PTP_TX_CNT (n : Nat) : Nat := ethBase n + 0x134
def ETH_PTP_TX_ACK (n : Nat) : Nat := ethBase n + 0x138
def ETH_PTP_TX_INFO (n : Nat) : Nat := ethBase n + 0x13C
def ETH_TQ_BASE (n : Nat) (i : Nat) : Nat := ethBase n + 0x140 + 32 * i
def ETH_TQ_CFG (n : Nat) (i : Nat) : Nat := ethBase n + 0x144 + 32 * i
def ETH_TQ_POST (n : Nat) (i : Nat) : Nat := ethBase n + 0x148 + 32 * i
def ETH_TQ_DONE (n : Nat) (i : Nat) : Nat := ethBase n + 0x14C + 32 * i
def ETH_TQ_DACK (n : Nat) (i : Nat) : Nat := ethBase n + 0x150 + 32 * i
def ETH_RQ_BASE (n : Nat) (i : Nat) : Nat := ethBase n + 0x1C0 + 32 * i
def ETH_RQ_CFG (n : Nat) (i : Nat) : Nat := ethBase n + 0x1C4 + 32 * i
def ETH_RQ_CNT (n : Nat) (i : Nat) : Nat := ethBase n + 0x1C8 + 32 * i
def ETH_RQ_ACK (n : Nat) (i : Nat) : Nat := ethBase n + 0x1CC + 32 * i
def ETH_RQ_OVF_CNT (n : Nat) (i : Nat) : Nat := ethBase n + 0x1D0 + 32 * i
def ETH_RQ_OVF_ACK (n : Nat) (i : Nat) : Nat := ethBase n + 0x1D4 + 32 * i
def ETH_CB_ROGUE_CNT (n : Nat) : Nat := ethBase n + 0x240
def ETH_CB_ROGUE_ACK (n : Nat) : Nat := ethBase n + 0x244
def ETH_CB_FULL_CNT (n : Nat) : Nat := ethBase n + 0x248
def ETH_CB_FULL_ACK (n : Nat) : Nat := ethBase n + 0x24C
def ETH_PUB_SKIP_CNT (n : Nat) : Nat := ethBase n + 0x250
def ETH_PUB_SKIP_ACK (n : Nat) : Nat := ethBase n + 0x254
def ETH_ERR_CNT (n : Nat) : Nat := ethBase n + 0x258
def ETH_ERR_ACK (n : Nat) : Nat := ethBase n + 0x25C
def ETH_GCL_BASE (n : Nat) : Nat := ethBase n + 0x300
def ETH_GCL_CYCLE (n : Nat) : Nat := ethBase n + 0x308
def ETH_GCL_LEN (n : Nat) : Nat := ethBase n + 0x30C
def ETH_GCL_COMMIT (n : Nat) : Nat := ethBase n + 0x310
def ETH_PUB_CFG (n : Nat) (i : Nat) : Nat := ethBase n + 0x400 + 32 * i
def ETH_PUB_RATE (n : Nat) (i : Nat) : Nat := ethBase n + 0x404 + 32 * i
def ETH_PUB_SIG (n : Nat) (i : Nat) : Nat := ethBase n + 0x408 + 32 * i
def ETH_PUB_DST (n : Nat) (i : Nat) : Nat := ethBase n + 0x410 + 32 * i
def ETH_PUB_SEQ (n : Nat) (i : Nat) : Nat := ethBase n + 0x418 + 32 * i
def ETH_GCL (n : Nat) (i : Nat) : Nat := ethBase n + 0x800 + 4 * i
def DB_STAT : Nat := dbBase + 0x100
def DB_GEN : Nat := dbBase + 0x104
def DB_SEQ : Nat := dbBase + 0x108
def DB_RUN_TAIL : Nat := dbBase + 0x10C
def DB_RUN_HEAD : Nat := dbBase + 0x110
def DB_FND_HEAD : Nat := dbBase + 0x114
def DB_REC_CNT : Nat := dbBase + 0x118
def DB_REC_ACK : Nat := dbBase + 0x11C
def DB_SUP_CNT : Nat := dbBase + 0x120
def DB_SUP_ACK : Nat := dbBase + 0x124
def DB_CRIT_CNT : Nat := dbBase + 0x128
def DB_CRIT_ACK : Nat := dbBase + 0x12C
def DB_REJ_CNT : Nat := dbBase + 0x130
def DB_REJ_ACK : Nat := dbBase + 0x134
def DB_BAD_CNT : Nat := dbBase + 0x138
def DB_BAD_ACK : Nat := dbBase + 0x13C
def DB_CMD : Nat := dbBase + 0x140
def DB_RES : Nat := dbBase + 0x144
def DB_CLR_ADDR : Nat := dbBase + 0x148
def DB_CLR_LEN : Nat := dbBase + 0x14C
def DB_APP_HDR : Nat := dbBase + 0x150
def DB_APP_LEN : Nat := dbBase + 0x154
def DB_PROF (i : Nat) : Nat := dbBase + 0x180 + 4 * i
def DB_APP_DATA (i : Nat) : Nat := dbBase + 0x400 + 4 * i
def DB_MAP (i : Nat) : Nat := dbBase + 0x800 + 4 * i
def TR_CFG : Nat := trBase + 0x100
def TR_CMD : Nat := trBase + 0x104
def TR_STAT : Nat := trBase + 0x108
def TR_LOAD : Nat := trBase + 0x10C
def TR_WR_POS : Nat := trBase + 0x110
def TR_RD_POS : Nat := trBase + 0x118
def TR_RD_REL : Nat := trBase + 0x120
def TR_FRZ_CFG : Nat := trBase + 0x124
def TR_TRIG_EN : Nat := trBase + 0x128
def TR_FRZ_INFO : Nat := trBase + 0x12C
def TR_FRZ_START : Nat := trBase + 0x130
def TR_FRZ_END : Nat := trBase + 0x138
def TR_FRZ_BP : Nat := trBase + 0x140
def TR_TRIG_CNT : Nat := trBase + 0x148
def TR_TRIG_ACK : Nat := trBase + 0x14C
def TR_DROP_CNT : Nat := trBase + 0x150
def TR_DROP_ACK : Nat := trBase + 0x154
def TR_OVWR_CNT : Nat := trBase + 0x158
def TR_OVWR_ACK : Nat := trBase + 0x15C
def TR_DMA_BASE : Nat := trBase + 0x160
def TR_DMA_SIZE : Nat := trBase + 0x168
def TR_DMA_REL : Nat := trBase + 0x16C
def TR_DMA_WBACK : Nat := trBase + 0x170
def TR_DMA_POS : Nat := trBase + 0x178
def TR_XFER_SRC : Nat := trBase + 0x180
def TR_XFER_DST : Nat := trBase + 0x188
def TR_XFER_LEN : Nat := trBase + 0x190
def TR_XFER_RES : Nat := trBase + 0x194
def TR_XFER_CNT : Nat := trBase + 0x198
def TR_XFER_ACK : Nat := trBase + 0x19C
def TR_LST_RATE (i : Nat) : Nat := trBase + 0x400 + 8 * i
def TR_LST_CFG (i : Nat) : Nat := trBase + 0x404 + 8 * i
def TR_LST_SEQ (i : Nat) : Nat := trBase + 0x600 + 4 * i
def TL_CFG : Nat := tlBase + 0x100
def TL_STAT : Nat := tlBase + 0x104
def TL_CORE_STAT : Nat := tlBase + 0x108
def TL_CORE_CMD : Nat := tlBase + 0x10C
def TL_CORE_CLK : Nat := tlBase + 0x110
def TL_BP_CNT : Nat := tlBase + 0x114
def TL_BP_ACK : Nat := tlBase + 0x118
def TL_STRAY_CNT : Nat := tlBase + 0x11C
def TL_STRAY_ACK : Nat := tlBase + 0x120
def TL_WDT_CNT : Nat := tlBase + 0x124
def TL_WDT_ACK : Nat := tlBase + 0x128
def MB_PWR (n : Nat) : Nat := mbBase n + 0x100
def MB_STAT (n : Nat) : Nat := mbBase n + 0x104
def MB_CE_CNT (n : Nat) : Nat := mbBase n + 0x108
def MB_CE_ACK (n : Nat) : Nat := mbBase n + 0x10C
def MB_CE_ADDR (n : Nat) : Nat := mbBase n + 0x110
def MB_UE_CNT (n : Nat) : Nat := mbBase n + 0x114
def MB_UE_ACK (n : Nat) : Nat := mbBase n + 0x118
def MB_UE_ADDR (n : Nat) : Nat := mbBase n + 0x11C
def MB_OFF_ACC_CNT (n : Nat) : Nat := mbBase n + 0x120
def MB_OFF_ACC_ACK (n : Nat) : Nat := mbBase n + 0x124
def MB_REPAIR_CNT (n : Nat) : Nat := mbBase n + 0x128
def MB_REPAIR_ACK (n : Nat) : Nat := mbBase n + 0x12C
def MB_MAP (n : Nat) (i : Nat) : Nat := mbBase n + 0x140 + 4 * i
def MB_ILV (n : Nat) : Nat := mbBase n + 0x180
def TK_PACE : Nat := tkBase + 0x100
def TK_STAT : Nat := tkBase + 0x104
def TK_CMD : Nat := tkBase + 0x108
def TK_PASS_MS : Nat := tkBase + 0x10C
def TK_PASS_CNT : Nat := tkBase + 0x110
def TK_PASS_ACK : Nat := tkBase + 0x114
def TK_FAIL_CNT : Nat := tkBase + 0x118
def TK_FAIL_ACK : Nat := tkBase + 0x11C
def TK_NOSPARE_CNT : Nat := tkBase + 0x120
def TK_NOSPARE_ACK : Nat := tkBase + 0x124
def ID_CMD : Nat := idBase + 0x200
def ID_RES : Nat := idBase + 0x204
def ID_CMD_CNT : Nat := idBase + 0x208
def ID_CMD_ACK : Nat := idBase + 0x20C
def ID_CERT_ADDR : Nat := idBase + 0x210
def ID_CERT_IN_LEN : Nat := idBase + 0x214
def ID_CERT_LEN : Nat := idBase + 0x218
def ID_ATT_BP : Nat := idBase + 0x220
def ID_NONCE (i : Nat) : Nat := idBase + 0x240 + 4 * i
def ID_ATT_SIG (i : Nat) : Nat := idBase + 0x260 + 4 * i
def ID_SLOT_KID (i : Nat) : Nat := idBase + 0x300 + 16 * i
def ID_SLOT_USE (i : Nat) : Nat := idBase + 0x308 + 16 * i
def ID_CERT (i : Nat) : Nat := idBase + 0x400 + 4 * i
def PWR_STAT : Nat := pwrBase + 0x100
def PWR_CMD : Nat := pwrBase + 0x104
def PWR_INST_ADDR : Nat := pwrBase + 0x108
def PWR_INST_LEN : Nat := pwrBase + 0x110
def PWR_INST_RES : Nat := pwrBase + 0x114
def PWR_INST_CNT : Nat := pwrBase + 0x118
def PWR_INST_ACK : Nat := pwrBase + 0x11C
def PWR_OPT_MS : Nat := pwrBase + 0x120
def PWR_KA_RTC : Nat := pwrBase + 0x128
def PWR_PCC : Nat := pwrBase + 0x130
def PWR_VIN : Nat := pwrBase + 0x134
def PWR_VKA : Nat := pwrBase + 0x138
def PWR_PIN : Nat := pwrBase + 0x13C
def PWR_HOLDUP : Nat := pwrBase + 0x140
def HLTH_TCASE : Nat := hlthBase + 0x100
def HLTH_TJ (i : Nat) : Nat := hlthBase + 0x104 + 4 * i
def HLTH_THERM : Nat := hlthBase + 0x114
def HLTH_DERATE_CNT : Nat := hlthBase + 0x118
def HLTH_DERATE_ACK : Nat := hlthBase + 0x11C
def HLTH_AGE (i : Nat) : Nat := hlthBase + 0x120 + 4 * i
def HLTH_EM (i : Nat) : Nat := hlthBase + 0x130 + 4 * i
def HLTH_CYC (i : Nat) : Nat := hlthBase + 0x140 + 4 * i
def HLTH_TCDMG : Nat := hlthBase + 0x150
def HLTH_MRAM_ER : Nat := hlthBase + 0x154
def HLTH_ESR : Nat := hlthBase + 0x158
def HLTH_INSERT : Nat := hlthBase + 0x15C
def HLTH_EOL : Nat := hlthBase + 0x160
def HLTH_EOL_LO : Nat := hlthBase + 0x164
def HLTH_EOL_HI : Nat := hlthBase + 0x168
def HLTH_EOL_INFO : Nat := hlthBase + 0x16C
def HLTH_EOL_WARN : Nat := hlthBase + 0x170
def HLTH_WL_SEL : Nat := hlthBase + 0x180
def HLTH_WL_THR : Nat := hlthBase + 0x184
def HLTH_WL_SRC : Nat := hlthBase + 0x188
def HLTH_WL_CMD : Nat := hlthBase + 0x18C
def HLTH_WL_CNT : Nat := hlthBase + 0x190
def HLTH_WL_ACK : Nat := hlthBase + 0x194
def HLTH_WL_OVER (i : Nat) : Nat := hlthBase + 0x1A0 + 4 * i

/-! Offsets of the common header (R46, Table 2-5). -/
def BLK_ID : Nat := 0x0
def BLK_VER : Nat := 0x4
def BLK_CTRL : Nat := 0x8
def BLK_STAT : Nat := 0xC
def EVT_RAW : Nat := 0x10
def EVT_EN : Nat := 0x14
def EVT_PEND : Nat := 0x18
def EVT_VEC : Nat := 0x1C
def POST_STAT : Nat := 0x20
def ERR_CODE : Nat := 0x24
def ERR_ADDR : Nat := 0x28
def KEYLOCK : Nat := 0x2C

end Sys2Proof.Machine
end

