-- ==== Sys2Proof/Machine/TypesTally.lean ====
section
/-! DEFINITION. Thread descriptors, application cores, the wake queue and the background memory test (chapter 17). -/

namespace Sys2Proof.Machine

/-- The thread states (Table 17-2). -/
inductive ThSt
  | free | blocked | ready | running | suspended
deriving DecidableEq, Repr, Inhabited

/-- A thread descriptor (Table 17-2): STATE, PRIO, AFF, LAST (none: never run), FAULTED, WAKES, CTX, READY_TS, RUN_CNT. -/
structure Thr where
  st : ThSt
  prio : Nat
  aff : Nat
  last : Option Nat
  faulted : Bool
  wakes : Nat
  ctx : Nat
  ts : Nat
  runs : Nat
deriving DecidableEq, Repr, Inhabited

/-- An application core: halted; idle; FAULTED; thread that is RUNNING on it; TLP_ARG, TLP_RES, TLP_TID, TLP_CTX; OPT_MS of
its latest Tally operation or restart; idle and preempt signals sent to it. -/
structure TCore where
  halted : Bool
  idle : Bool
  faulted : Bool
  cur : Option Nat
  arg : Nat
  res : Nat
  tid : Nat
  ctx : Nat
  opAt : Nat
  idleSig : Nat
  preSig : Nat
deriving DecidableEq, Repr, Inhabited

/-- Tally: descriptors, cores, wake queue (source, none for a core's WAKE; thread), sources owed a token, sources seen
pending at the latest look, FAULT. -/
structure Tally where
  thrs : Tab Thr
  cores : Tab TCore
  queue : List (Option Nat × Nat)
  owed : List Nat
  seen : List Nat
  fault : Bool
deriving DecidableEq, Repr, Inhabited

/-- Tinker: place in the pass (row × 32 + bank, then 196,608 + bank × 8 + spare); out-of-turn queue (bank, row); row or
spare under test (bank, row or spare, spare); FAULT; OPT_MS at the start of the pass. -/
structure Tink where
  pos : Nat
  queue : List (Nat × Nat)
  testing : Option (Nat × Nat × Bool)
  fault : Bool
  passAt : Nat
deriving DecidableEq, Repr, Inhabited

end Sys2Proof.Machine
end

