-- ==== Sys2Proof/Machine/State.lean ====
section
/-! DEFINITION. The state of the module, the reasons a step can stop, and the state after a cold start. -/

namespace Sys2Proof.Machine

/-- Everything the journal does not hold apart and every command may change: registers by BAR0 address (an unlisted one
holds its reset value), the signal table with its attribute words and staged writes, and one record a block. -/
structure Dev where
  regs : Tab W32
  sig : Tab W32
  attr : Tab W32
  stage1 : List SigW
  stage2 : List SigW
  hostq : List (Nat × W32)
  crossing : List Posted
  cfgq : List Posted
  evr : Evr
  db : Daybook
  tr : Trace
  power : Power
  health : Health
  wear : Tab Wear
  idBusy : IdBusy
  tt : Nat
  ttFrac : Nat
  lanes : Tab Lane
  axes : Tab Axis
  stps : Tab Stp
  encs : Tab Enc
  quar : List Nat
  lps : Tab Lp
  shared : Tab W16
  trigs : List LTrig
  cells : Tab Cell
  ctab : Tab W16
  cores : Tab Core
  aos : Tab AoCh
  dios : Tab DioPin
  role : Role
  sf : Safety
  pls : Tab Pl
  tw : Twin
  cxs : Tab Cx
  tb : Tb
  eths : Tab Eth
  tl : Tally
  tk : Tink
  sram : Tab W8
  poison : List Nat
  mram : Tab W8
  nv : Tab Nat
  nvAt : Tab Nat
  ring : Tab W8
  dir : List DirEnt
  jn : Journal
  oh : OutHold
  free : Nat
deriving DecidableEq, Repr, Inhabited

/-- The machine: the vault, everything else, and the commands that wait, first in first out. -/
structure State where
  vault : Vault
  dev : Dev
  pending : List Instr
deriving DecidableEq, Repr, Inhabited

/-- Why a step stops with a fault. -/
inductive Fault
  /-- The command names something that does not exist: a number beyond the range of what it counts, an address outside BAR0, a
  page with an instance it has not. Raised by every meaning through onDev and onVault. Nothing outside the module can spell
  such a command, so the fault is safe: it hides no behaviour (log entry 22). -/
  | illFormed
deriving DecidableEq, Repr

/-- Why a step is refused. -/
inductive Refusal
  /-- A command that has no meaning yet. Raised by a dispatch arm only; no arm raises it now. Safe. -/
  | notModelled (mnemonic : String)
deriving DecidableEq, Repr

/-- Configuration space after a reset (Table 2-1; sizes PRESUMED, log entry 54). -/
def pciReset : PciCfg := ⟨0x118000, 128, 512, 0, 0⟩

/-- The machine after a cold start, in Ready (log entries 1 and 2). Every register holds the value of its Reset column (R10), so
none is listed; the link is down, as DEV_PCIE_STAT says; the hold-up store is charged, as Table 11-5 says. -/
def State.reset : State where
  vault := { serial := 0, cert := [], vendorKid := 0, founding := [], fndHead := 0x40, fndFull := false }
  dev :=
    { regs := [], sig := [], attr := [], stage1 := [], stage2 := [], hostq := [], crossing := [], cfgq := []
      evr := { vec := [], msixEnable := false, funcMask := false, busMaster := false, linkUp := false, d3hot := false, leftL0 := false, sent := [], cpl := [], cfg := pciReset }
      db := { staging := [], intake := [], supp := [], spent := [], gained := [], running := [], firstSeq := 0, writerUp := true, args := [] }
      tr := { state := .stopped, pkts := [], opens := [], gap := [], protect := false, streaming := false, xferBusy := false, xferOver := false
              post := 0, dmaRel := 0 }
      power := { phase := .on, heldPending := [], holdupOk := true, kaVka := false, kaLow := false, kaLost := false, vinLow := false
                 installing := false, lockLost := none, vfldLow := false, firstC2 := false, pres := true, fail := .no, kind := .cold, src := 0
                 bank := 0, newBank := false, badBanks := [], fw := [], kaPcc := 0, kaOpt := 0, kaIns := 0, beat := 0 }
      health := { hot := [0, 0, 0, 0], levelAt := 0, hist := [], hour := 0, esr0 := 400 }
      wear := [], idBusy := .idle, tt := 0, ttFrac := 0, lanes := [], axes := [], stps := [], encs := [], quar := [], lps := [], shared := []
      trigs := [], cells := [], ctab := [], cores := [], aos := [], dios := [], role := .solo
      sf := { mode := .unconfigured, table := none, pend := none, sealed_ := [], a := ⟨[], ⟨0, 0, 0, 0, [], []⟩, none, false⟩
              b := ⟨[], ⟨0, 0, 0, 0, [], []⟩, none, false⟩, pairs := List.replicate 16 default, conns := List.replicate 32 default
              seqs := [], sent := [], openRun := [], xrun := 0, cause := 0, unlocked := false, salt := [], hash := none, fails := 0
              failAt := 0, cfgAt := 0, pendAt := 0, fwd := false, inA := 0, inB := 0, cmds := [], confirmed := false, imgs := [] }
      pls := []
      tw := { tr0 := false, tr1 := false, up0 := false, up1 := false, retry0 := false, retry1 := false, strapErr := false
              joining := false, baseOk := false, halt := false, withdrawn := false, orphan := false, matches_ := 0
              heldP := false, releaseP := false, failure := false, holder := none, idle := true, hold := false
              seizing := false, won := false, lostSz := false, wireA := true, wireB := true, authA := false, authB := false, phase := 0
              fails := 0, chunkFails := [], baseAt := 0, frames := [], standbyAt := 0, holdDone := false, asked := false, askNow := false
              handover := none, seq := 0, queue := [], own := [], peer := [], witness := none, counted := 0, countedW := 0, chunks := []
              ctr0 := none, ctr1 := none, trim := 0, serve := false, sent := [] }
      cxs := [], tb := ⟨0, 0, none, none, false, none, false, []⟩, eths := [], tl := ⟨[], [], [], [], [], false⟩
      tk := ⟨0, [], none, false, 0⟩, sram := [], poison := [], mram := [], nv := [], nvAt := [], ring := [], dir := []
      jn := { commits := [], draining := none, due := false, shadow := none, epoch := 100, starts := 0, top := 0, tagTop := 0, cold := false }
      oh := ⟨false, false, 0, [], [], [], [], []⟩, free := 0 }
  pending := []

end Sys2Proof.Machine
end

