-- ==== Sys2Proof/Machine/Ops.lean ====
section
/-! DEFINITION. The named operations every block shares: registers, errors (R47), counters (R9), the signal table (R19 to
R27, R463, R464), free values. -/

namespace Sys2Proof.Machine

/-! ### Registers -/

/-- The reset value of the word at an offset, from the rows of a page's tables. -/
def resetIn : List (Nat × Nat × Nat × Nat × Nat) → Nat → W32
  | [], _ => 0
  | (lo, step, n, w, v) :: t, off =>
    let st := if step = 0 then 4 * w else step
    if lo ≤ off ∧ off < lo + st * (n - 1) + 4 * w ∧ (off - lo) % st < 4 * w
    then w32 (v / 2 ^ (8 * ((off - lo) % st))) else resetIn t off

/-- What a register reads after a cold start (R10). BLK_ID is the page's; the MSI-X vector control words are masked (R465). -/
def resetOf (a : Nat) : W32 :=
  match locate a with
  | some (p, 0) => blkId p
  | some (p, off) => resetIn (pageResets p) off
  | none => if msixBase ≤ a ∧ a < pbaBase ∧ a % 16 = 12 then 1 else 0

/-- The word a register holds. -/
def rd (d : Dev) (a : Nat) : W32 := tget (resetOf a) d.regs a

/-- Write a register. -/
def wr (d : Dev) (a : Nat) (v : W32) : Dev := { d with regs := tset (resetOf a) d.regs a v }

/-- The number a register holds. -/
def rdN (d : Dev) (a : Nat) : Nat := (rd d a).toNat

/-- Write a register from a number, modulo 2^32. -/
def wrN (d : Dev) (a v : Nat) : Dev := wr d a (w32 v)

/-- A 64-bit register (low word at a). -/
def rd64 (d : Dev) (a : Nat) : Nat := mk64 (rd d a) (rd d (a + 4))

/-- Write a 64-bit register. -/
def wr64 (d : Dev) (a v : Nat) : Dev := wr (wr d a (lo64 v)) (a + 4) (hi64 v)

/-- Count an occurrence, modulo 2^32 (R9). -/
def bump (d : Dev) (a : Nat) : Dev := wr d a (rd d a + 1)

/-- Write one field of a register. -/
def wrFld (d : Dev) (a hi lo v : Nat) : Dev := wr d a (putFld (rd d a) hi lo v)

/-- Write one bit of a register. -/
def wrBit (d : Dev) (a i : Nat) (b : Bool) : Dev := wr d a (putBit (rd d a) i b)

/-- One bit of a register. -/
def rdBit (d : Dev) (a i : Nat) : Bool := bit (rd d a) i

/-- BLK_CTRL.RUN and BLK_CTRL.SAFE_REQ of a page (R46). -/
def runBit (d : Dev) (p : Page) : Bool := rdBit d (pageBase p + BLK_CTRL) 0
def safeReq (d : Dev) (p : Page) : Bool := rdBit d (pageBase p + BLK_CTRL) 1

/-! ### Errors (R47, Table 2-6) -/

/-- An error of a page: ERR_CODE with the next ERR_SEQ, and ERR_ADDR with it. -/
def err (d : Dev) (p : Page) (code addr : Nat) : Dev :=
  let c := rd d (pageBase p + ERR_CODE)
  wrN (wrN d (pageBase p + ERR_CODE) (((fld c 31 24 + 1) % 256) * 0x1000000 + code)) (pageBase p + ERR_ADDR) addr

/-- A write dropped under R49, R51, R52 or R55: counted in POST_ERR_CNT, with its code and its offset. -/
def postErr (d : Dev) (p : Page) (code addr : Nat) : Dev :=
  let a := pageBase p + POST_STAT
  err (wrFld d a 15 8 (fld (rd d a) 15 8 + 1)) p code addr

/-! ### Grid and time -/

/-- BP_CNT (R32). -/
def bp (d : Dev) : Nat := rd64 d BP_CNT
/-- TB_NS (R354). -/
def tbNs (d : Dev) : Nat := rd64 d TB_NS
/-- OPT_MS and PCC (R439). -/
def optMs (d : Dev) : Nat := rd64 d PWR_OPT_MS
def pcc (d : Dev) : Nat := rdN d PWR_PCC

/-- The device is in Held. -/
def held (d : Dev) : Bool := d.power.phase == .held

/-- The clock of the base periods runs: in Ready, Run and Held, with the root PLL locked (R31), until the final boundary of a power failure
has been taken (R305). From a hold on the controllers of Pliale, CAN and Ethernet are reset (R308). -/
def clocked (d : Dev) : Bool :=
  (d.power.phase == .on || d.power.phase == .held) && d.power.lockLost.isNone && (d.power.fail == .no || d.power.fail == .declared)

/-- What a bus event does while the buses run; else it finds no controller. -/
def onBus (f : Dev → Dev) (d : Dev) : Dev := if clocked d then f d else d

/-- A divider and phase laid out as LC_RATE: [12:0] DIV, [28:16] PHASE; due when BP_CNT mod DIV = PHASE (R33). -/
def dueAt (n div phase : Nat) : Bool := decide (0 < div) && n % div == phase

/-! ### Free values (log entry 9) -/

/-- A free word, and the counter that makes the next one fresh. -/
def freeWord (d : Dev) : W32 × Dev := (Config.freeW32 d.free, { d with free := d.free + 1 })
/-- A free number. -/
def freeNum (d : Dev) : Nat × Dev := (Config.freeNat d.free, { d with free := d.free + 1 })
/-- A free yes or no. -/
def freeYes (d : Dev) : Bool × Dev := (Config.freeBool d.free, { d with free := d.free + 1 })

/-! ### Signal table -/

/-- The writer classes of Table 1-5. -/
def clsCell : Nat := 1
def clsAxis : Nat := 2
def clsLane : Nat := 3
def clsAdc : Nat := 4
def clsEnc : Nat := 5
def clsDin : Nat := 6
def clsPl : Nat := 7
def clsLp : Nat := 8
def clsSafety : Nat := 9
def clsSup : Nat := 10

/-- The value of SIG[n]. -/
def sigVal (d : Dev) (n : Nat) : W32 := tget 0 d.sig n
/-- The attribute word of SIG[n] (Table 1-4). -/
def attrOf (d : Dev) (n : Nat) : W32 := tget 0 d.attr n
/-- SIG[n] holds a 32-bit value. -/
def sigWide (d : Dev) (n : Nat) : Bool := bit (attrOf d n) 31
/-- The SAFE attribute of SIG[n]. -/
def sigSafe (d : Dev) (n : Nat) : Bool := bit (attrOf d n) 30
/-- The writer class and instance of SIG[n]; class 0: no owner. -/
def sigOwner (d : Dev) (n : Nat) : Nat × Nat := (fld (attrOf d n) 23 16, fld (attrOf d n) 15 0)
/-- SIG[n] as a Q1.15 number. -/
def sigQ (d : Dev) (n : Nat) : Int := q15 (sigVal d n)
/-- Bit b of SIG[n]. -/
def sigBit (d : Dev) (n b : Nat) : Bool := bit (sigVal d n) b

/-- What an entry holds when v is written to it: the whole word if it is wide, else its Q1.15 half, sign extended (R7). -/
def sigForm (wide : Bool) (v : W32) : W32 := if wide then v else ofQ15 (q15 v)

/-- Commit one staged write: value and SAFE attribute (R22, R25). -/
def commitSig (d : Dev) (w : SigW) : Dev :=
  { d with sig := tset 0 d.sig w.n (sigForm (sigWide d w.n) w.v), attr := tset 0 d.attr w.n (putBit (attrOf d w.n) 30 w.safe) }

/-- The attribute word of a claim: W32, SAFE clear, WCLASS, WINST. -/
def attrWord (cls inst : Nat) (wide : Bool) : W32 := w32 (b2n wide * 0x80000000 + cls * 0x10000 + inst)

/-- Another writer owns an entry (R20); an entry beyond the table counts as owned. -/
def sigTaken (d : Dev) (n cls inst : Nat) : Bool :=
  decide (32768 ≤ n) || (decide ((sigOwner d n).1 ≠ 0) && decide (sigOwner d n ≠ (cls, inst)))

/-- A claim takes effect at once: attribute word, and the claimant's safe value (R463). -/
def claim (d : Dev) (n cls inst : Nat) (wide : Bool) (safeVal : W32) : Dev :=
  { d with sig := tset 0 d.sig n (sigForm wide safeVal), attr := tset 0 d.attr n (attrWord cls inst wide) }

/-- A release: the attribute word returns to 0, the last committed word stays and reads as Q1.15, staged writes go (R464). -/
def release (d : Dev) (n : Nat) : Dev :=
  { d with
    sig := tset 0 d.sig n (sigForm false (sigVal d n))
    attr := tset 0 d.attr n 0
    stage1 := d.stage1.filter (fun w => w.n != n)
    stage2 := d.stage2.filter (fun w => w.n != n) }

/-- Release every entry of a list. -/
def releaseAll (d : Dev) (ns : List Nat) : Dev := ns.foldl release d

/-- The entries a writer owns. -/
def ownedBy (d : Dev) (cls inst : Nat) : List Nat :=
  (d.attr.filter (fun p => fld p.2 23 16 == cls && fld p.2 15 0 == inst)).map (·.1)

/-- Stage a write for C1 (field-region inputs). -/
def put1 (d : Dev) (n : Nat) (v : W32) (safe : Bool) : Dev := { d with stage1 := d.stage1 ++ [⟨n, v, safe⟩] }
/-- Stage a write for C2 (Loop- and Logic-region results). -/
def put2 (d : Dev) (n : Nat) (v : W32) (safe : Bool) : Dev := { d with stage2 := d.stage2 ++ [⟨n, v, safe⟩] }

/-- C1: the staged field inputs become visible all together (R25). -/
def commit1 (d : Dev) : Dev := { d.stage1.foldl commitSig d with stage1 := [] }

/-- A host or application-core write at its C2: dropped, counted and named where the entry is owned then (R21). -/
def hostSigWrite (d : Dev) (w : Nat × W32) : Dev :=
  if (sigOwner d w.1).1 = 0 then { d with sig := tset 0 d.sig w.1 (sigForm false w.2) }
  else wrN (bump d DEV_SIG_REJ_CNT) DEV_SIG_REJ_LAST w.1

/-- C2: the staged results of the compute window, and the host writes that have arrived (R25, R27). -/
def commit2 (d : Dev) : Dev :=
  let d1 := { d.stage2.foldl commitSig d with stage2 := [] }
  { d1.hostq.foldl hostSigWrite d1 with hostq := [] }

/-! ### Memories -/

/-- A byte of a memory; an unlisted one reads 0 (log entry 3). -/
def mrd (m : Tab W8) (a : Nat) : W8 := tget 0 m a
/-- Write a byte. -/
def mwr (m : Tab W8) (a : Nat) (b : W8) : Tab W8 := tset 0 m a b
/-- The n bytes from an address. -/
def mbytes (m : Tab W8) (a n : Nat) : List W8 := (List.range n).map (fun i => mrd m (a + i))
/-- Write bytes from an address on. -/
def mput (m : Tab W8) (a : Nat) : List W8 → Tab W8
  | [] => m
  | b :: t => mput (mwr m a b) (a + 1) t
/-- A little-endian number of n bytes. -/
def mnum (m : Tab W8) (a n : Nat) : Nat := leNat (mbytes m a n)

/-- The sizes of the memories (Table 0-2; 02, Table 2-2). -/
def sramSize : Nat := 48 * 1024 * 1024
def mramSize : Nat := 64 * 1024 * 1024
def ringSize : Nat := 2 ^ 32

/-- A word of a window range that holds plain words in the register store. -/
def words32 (bs : List W8) : List W32 :=
  match bs with
  | a :: b :: c :: e :: t => w32 (leNat [a, b, c, e]) :: words32 t
  | _ => []

/-- The bytes of words, little-endian. -/
def bytes32 (ws : List W32) : List W8 := ws.flatMap (fun w => leBytes 4 w.toNat)

/-- PAIR_EN. -/
def pairEn (d : Dev) : Bool := rdBit d TW_CFG 0

/-- A module that follows its partner's state: STANDBY, or SYNCING from its base on. -/
def followsPair (d : Dev) : Bool := pairEn d && (d.role == .standby || (d.role == .syncing && d.tw.baseOk))

/-- A partner is authenticated: at least one lane is trusted. -/
def twPaired (d : Dev) : Bool := d.tw.up0 || d.tw.up1

/-- Change the twin record. -/
def setTw (d : Dev) (t : Twin) : Dev := { d with tw := t }

/-- A frame goes out on the lanes in use (R263). -/
def twSend (d : Dev) (f : TwOut) : Dev := if pairEn d && twPaired d then setTw d { d.tw with sent := d.tw.sent ++ [f] } else d

/-- Direct outputs take their configured safe values: SAFE_REQ, or a SYNCING module (R46, R271). -/
def outSafe (d : Dev) (p : Page) : Bool := safeReq d p || d.role == .syncing

end Sys2Proof.Machine
end

