-- ==== Sys2Proof/Machine/WriteMask.lean ====
section
/-! DEFINITION. The bits of each WP register that its field table names (R8): every other bit is reserved and reads 0, also while a
write waits, and in a command register after it. -/

namespace Sys2Proof.Machine

/-- A stretch of offsets of a page, [lo, hi), at every so many bytes from lo, and the bits its registers have. -/
abbrev MaskRow := Nat × Nat × Nat × Nat

/-- The bits at an offset by the first row that holds it; a register no row names has all its bits. -/
def maskIn : List MaskRow → Nat → Nat
  | [], _ => 0xFFFFFFFF
  | (lo, hi, step, m) :: t, off => if lo ≤ off ∧ off < hi ∧ (off - lo) % step = 0 then m else maskIn t off

/-- One register. -/
def maskAt (off m : Nat) : MaskRow := (off, off + 4, 4, m)

/-- Chapters 3 to 5: lanes, loop tiles (Tables 3-1 and 4-1). -/
def sqMasks : List MaskRow := [maskAt 0x100 0xFFFF000F, maskAt 0x118 0xFFFF, (0x208, 0x400, 16, 3)]
def ltMasks : List MaskRow := [maskAt 0x120 3]

/-- Loop cell pages (Tables 4-2 and 5-1). -/
def lcMasks : List MaskRow :=
  [maskAt 0x100 0x1FFF1FFF, maskAt 0x104 0x17FFF, maskAt 0x108 0x77FFF, maskAt 0x10C 0x107FF, maskAt 0x110 0x777FFF, maskAt 0x114 0xFFFF,
   (0x118, 0x120, 4, 0x17FFF), (0x120, 0x130, 4, 0xFFFF), maskAt 0x130 0x37FFF, (0x134, 0x144, 4, 0xFFFF), maskAt 0x144 0x10F,
   maskAt 0x180 3, (0x184, 0x18C, 4, 0xFFFF), maskAt 0x18C 0x7FFFF, maskAt 0x190 0xFFFF, maskAt 0x194 0x3FFFFF, maskAt 0x1A8 0x177FFF,
   maskAt 0x1AC 0xFFFF001F, maskAt 0x1C0 0xFF01FF, (0x1C4, 0x1D0, 4, 0xFFFF), maskAt 0x1EC 3]

/-- Chapter 6: converter cores, analog outputs, digital pins (Tables 6-2, 6-10 and 6-13). -/
def acMasks : List MaskRow :=
  [maskAt 0x100 0xF33, maskAt 0x104 0x3FFF, maskAt 0x108 0x7F, maskAt 0x10C 1, (0x180, 0x1C0, 4, 0x1FFB), (0x1C0, 0x200, 4, 0x37FFF)]
def aoMasks : List MaskRow :=
  [(0x100, 0x200, 0x40, 0x73), (0x104, 0x200, 0x40, 0x7FFF), (0x108, 0x200, 0x40, 0x1FFF1FFF), (0x10C, 0x200, 0x40, 0xFFFF)]
def dioMasks : List MaskRow :=
  [maskAt 0x100 0x17FFF, (0x200, 0x400, 0x40, 0x3FF003F), (0x204, 0x400, 0x40, 0x1F7FFF), (0x208, 0x400, 0x40, 0x3FF), (0x214, 0x400, 0x40, 7)]

/-- Chapter 7: motion tiles, axes, step generators, encoders (Tables 7-1, 7-2, 7-7 and 7-8). -/
def mtMasks : List MaskRow := [maskAt 0x114 0xFF, maskAt 0x118 3]
def axMasks : List MaskRow :=
  [maskAt 0x100 0xF, maskAt 0x108 0x1FF, maskAt 0x10C 0x7F7FFF, maskAt 0x180 0x17FFF, (0x190, 0x19C, 4, 0x7F7FFF), maskAt 0x1A0 7,
   maskAt 0x1B8 0x7FFF, maskAt 0x1CC 1]
def stpMasks : List MaskRow := [maskAt 0x100 0x1FF, maskAt 0x104 0x3FF03FF]
def encMasks : List MaskRow := [maskAt 0x100 0xFF, maskAt 0x104 0xFFFF7F, maskAt 0x108 0x17FFF]

/-- Chapters 8 to 12: logic processors, safety channel A, pair, Strongbox, Pliale (Tables 8-2, 9-3, 10-6, 11-8, 11-12 and 12-11). -/
def lpMasks : List MaskRow := [maskAt 0x100 0x10F, maskAt 0x140 0xFFFF, maskAt 0x144 3, maskAt 0x150 0xFF]
def sfaMasks : List MaskRow := [maskAt 0x104 0xF]
def twMasks : List MaskRow := [maskAt 0x100 3, maskAt 0x104 0xF, maskAt 0x108 0x1FFFF]
def glMasks : List MaskRow := [maskAt 0x108 0xFFFF000F]
def ohMasks : List MaskRow := [maskAt 0x100 0x3FFF]
def sbMasks : List MaskRow := [maskAt 0x100 0x3FF, maskAt 0x104 0x1FFFF, maskAt 0x108 3]
def plMasks : List MaskRow := [maskAt 0x100 0xFF7F, maskAt 0x104 0xF, maskAt 0x108 0x1F0F, maskAt 0x110 0x3FF]

/-- Chapters 13 to 18: CAN, time base, Ethernet, Daybook, trace, Tally, banks, Tinker, identity, power, health. -/
def cxMasks : List MaskRow :=
  [maskAt 0x100 0x7F, maskAt 0x104 0x7F7FFF1F, maskAt 0x108 0xFFFF1F1F, maskAt 0x10C 0x30F, (0x144, 0x1C0, 0x20, 0x101FF), (0x1C4, 0x240, 0x20, 0x10001), (0x400, 0x800, 16, 0x1FFFFFFF),
   (0x404, 0x800, 16, 0x1FFFFFFF), (0x408, 0x800, 16, 0x3F)]
def tbMasks : List MaskRow := [maskAt 0x110 0x7F001F, maskAt 0x120 3, (0x140, 0x1C0, 0x40, 0x77FFF)]
def ethMasks : List MaskRow :=
  [maskAt 0x100 0x307, maskAt 0x10C 0xFFFF, maskAt 0x114 0xFFFF, maskAt 0x118 0xFFF, maskAt 0x11C 0xFFFF, maskAt 0x120 0x3FFF,
   maskAt 0x30C 0x1FF, maskAt 0x310 1, (0x400, 0x600, 0x20, 0xFFF7003), (0x404, 0x600, 0x20, 0x1FFF1FFF), (0x408, 0x600, 0x20, 0x1FF7FFF),
   (0x414, 0x600, 0x20, 0xFFFF)]
def dbMasks : List MaskRow := [maskAt 0x140 0xF, (0x180, 0x1C0, 4, 0xFF03FF)]
def trMasks : List MaskRow :=
  [maskAt 0x100 3, maskAt 0x104 0xF, maskAt 0x124 0x7FF07FF, maskAt 0x128 0xFF, (0x400, 0x600, 8, 0x1FFF1FFF), (0x1000, 0x5000, 4, 0x7FFF7FFF)]
def tlMasks : List MaskRow := [maskAt 0x100 0x3FF007F, maskAt 0x10C 0x37]
def tkMasks : List MaskRow := [maskAt 0x100 0x3FFF, maskAt 0x108 0xFFFF01F3]

/-- The bits that a WP register of a page has (the header's: R46). -/
def wpBits (p : Page) (off : Nat) : W32 := w32 (if off = 0x008 then 3 else maskIn (match p with
  | .sq _ => sqMasks | .lt _ => ltMasks | .lc _ => lcMasks | .ac _ => acMasks | .ao _ => aoMasks | .dio _ => dioMasks | .mt _ => mtMasks
  | .ax _ => axMasks | .stp _ => stpMasks | .enc _ => encMasks | .lp _ => lpMasks | .sfa => sfaMasks | .tw => twMasks | .gl => glMasks
  | .oh => ohMasks | .sb => sbMasks | .pl _ => plMasks | .cx _ => cxMasks | .tb => tbMasks | .eth _ => ethMasks | .db => dbMasks
  | .tr => trMasks | .tl => tlMasks | .tk => tkMasks | .mb _ => [maskAt 0x100 3, maskAt 0x180 3] | .clk => [maskAt 0x104 1]
  | .id => [maskAt 0x200 0xF0F] | .pwr => [maskAt 0x104 0xFFFF000F] | .hlth => [maskAt 0x170 0xFFFFF, maskAt 0x18C 3]
  | .pcie | .sig | .evr | .sio | .sfb => []) off)

end Sys2Proof.Machine
end

