-- ==== Sys2Proof/Machine/Cfg.lean ====
section
/-! DEFINITION. Configuration writes (R47): fields with their ranges, the order of the refusal causes, routing claims (R19, R20). -/

namespace Sys2Proof.Machine

/-- A writable field: bits [hi:lo] and the values it admits. -/
structure Fld where
  hi : Nat
  lo : Nat
  mn : Nat
  mx : Nat
deriving DecidableEq, Repr

/-- A field that admits every value. -/
def anyF (hi lo : Nat) : Fld := ⟨hi, lo, 0, 2 ^ (hi - lo + 1) - 1⟩
/-- A field with a greatest value. -/
def maxF (hi lo mx : Nat) : Fld := ⟨hi, lo, 0, mx⟩
/-- A whole register. -/
def wordF : List Fld := [anyF 31 0]

/-- The code of a field's value: CFG_ZERO for a forbidden 0, CFG_RANGE outside the range (R47). -/
def fldCode (f : Fld) (v : W32) : Option Nat :=
  let x := fld v f.hi f.lo
  if x = 0 ∧ 0 < f.mn then some 7 else if x < f.mn ∨ f.mx < x then some 5 else none

/-- The first failing field, from the lowest bit. -/
def badField : List Fld → W32 → Option Nat
  | [], _ => none
  | f :: t, v => match fldCode f v with
    | some c => some c
    | none => badField t v

/-- The value a register takes: its fields; reserved bits read 0 (R8). -/
def onlyFlds (fs : List Fld) (v : W32) : W32 := w32 ((fs.map (fun f => fld v f.hi f.lo * 2 ^ f.lo)).foldl (· + ·) 0)

/-- The first of several causes. -/
def firstOf : List (Option Nat) → Option Nat
  | [] => none
  | some c :: _ => some c
  | none :: t => firstOf t

/-- A cause if it holds. -/
def causeIf (b : Bool) (c : Nat) : Option Nat := if b then some c else none

/-- A configuration write: refused with the first cause (state, freeze, fields, relation), else stored (R47). -/
def cfgPut (d : Dev) (p : Page) (a : Nat) (fs : List Fld) (v : W32) (before after : List (Option Nat)) : Dev × Bool :=
  match firstOf (before ++ [badField fs v] ++ after) with
  | some c => (err d p c a, false)
  | none => (wr d a (onlyFlds fs v), true)

/-- The entries a routing register gives up and those it names: claimed together or refused with SIG_OWNED (R19, R20). -/
def reroute (d : Dev) (cls inst : Nat) (old : List Nat) (new : List (Nat × Bool × W32)) : Option Dev :=
  if new.any (fun e => sigTaken d e.1 cls inst) then none
  else some (new.foldl (fun d e => claim d e.1 cls inst e.2.1 e.2.2) (releaseAll d old))

/-- A write of a routing register. -/
def routePut (d : Dev) (p : Page) (a : Nat) (fs : List Fld) (v : W32) (before after : List (Option Nat)) (cls inst : Nat)
    (old : List Nat) (new : List (Nat × Bool × W32)) : Dev :=
  match firstOf (before ++ [badField fs v] ++ after) with
  | some c => err d p c a
  | none => match reroute d cls inst old new with
    | some d' => wr d' a (onlyFlds fs v)
    | none => err d p 0x31 a

/-! ### Command registers -/

/-- The number of errors of a page, modulo 256. -/
def errSeq (d : Dev) (p : Page) : Nat := fld (rd d (pageBase p + ERR_CODE)) 31 24

/-- A command register is written, its reserved bits as 0 (R8), and its command carried out; a refused one keeps the register's
value (R51). -/
def withCommand (d : Dev) (p : Page) (a : Nat) (v : W32) (f : Dev → Dev) : Dev :=
  let e := f (wr d a (v &&& wpBits p (a - pageBase p)))
  if errSeq e p = (errSeq d p + 1) % 256 ∧ rd e a = v &&& wpBits p (a - pageBase p) then wr e a (rd d a) else e

end Sys2Proof.Machine
end

