-- ==== Sys2Proof/Machine/Trace.lean ====
section
/-! DEFINITION. The signal trace (chapter 16): sampling, packets, the ring, freeze on fault, streaming and transfers. -/

namespace Sys2Proof.Machine

/-- TR_LSTL_CFG of a list: EN, PACK, FIRST, COUNT (Table 16-1). -/
def trEn (d : Dev) (l : Nat) : Bool := rdBit d (TR_LST_CFG l) 0
def trPack (d : Dev) (l : Nat) : Nat := fld (rd d (TR_LST_CFG l)) 7 1
def trFirst (d : Dev) (l : Nat) : Nat := fld (rd d (TR_LST_CFG l)) 20 8
def trCount (d : Dev) (l : Nat) : Nat := fld (rd d (TR_LST_CFG l)) 31 21
def trDiv (d : Dev) (l : Nat) : Nat := fld (rd d (TR_LST_RATE l)) 12 0
def trPhase (d : Dev) (l : Nat) : Nat := fld (rd d (TR_LST_RATE l)) 28 16

/-- The lists that form packets, in ascending number: enabled, with entries (R393, R394). -/
def trLists (d : Dev) : List Nat := (List.range 64).filter (fun l => trEn d l && trCount d l != 0)

/-- Words of one sample: the entries, then a word of SAFE bits for every 32 of them (Table 16-5). -/
def sampleWords (count : Nat) : Nat := count + (count + 31) / 32

/-- LENGTH of a packet of s samples (Table 16-5): a multiple of 8. -/
def packetLen (s count : Nat) : Nat := (32 + s * (4 * sampleWords count) + 7) / 8 * 8

/-- Signal number of an index-table entry (R393). -/
def trIndex (d : Dev) (i : Nat) : Nat :=
  let w := rd d (trBase + 0x1000 + 4 * (i / 2))
  if i % 2 = 0 then fld w 14 0 else fld w 30 16

/-- The SAFE word of up to 32 entries. -/
def safeWord (d : Dev) (ns : List Nat) : W32 :=
  w32 ((ns.zipIdx.map (fun p => b2n (sigSafe d p.1) * 2 ^ p.2)).foldl (· + ·) 0)

/-- One sample of a list, as it stands after C2 (R394). -/
def trSample (d : Dev) (l : Nat) : List W32 :=
  let ns := (List.range (trCount d l)).map (fun j => trIndex d (trFirst d l + j))
  ns.map (sigVal d) ++ (List.range ((trCount d l + 31) / 32)).map (fun k => safeWord d ((ns.drop (32 * k)).take 32))

/-- Write bytes into the ring at a position of the count (R396). -/
def ringPut (d : Dev) (pos : Nat) (bs : List W8) : Dev :=
  { d with ring := (bs.zipIdx.foldl (fun m p => mwr m ((pos + p.2) % ringSize) p.1) d.ring) }

/-- R of R397: TR_FRZ_START while PROTECT is 1, else TR_RD_POS. -/
def trR (d : Dev) : Nat := if d.tr.protect then rd64 d TR_FRZ_START else rd64 d TR_RD_POS

/-- Advance TR_RD_POS past whole packets, oldest first, until need bytes fit; each is counted (R397, WRAP). -/
def trMakeRoom (d : Dev) (need : Nat) : List TrPkt → Dev
  | [] => d
  | p :: t =>
    if rd64 d TR_WR_POS + need - rd64 d TR_RD_POS ≤ ringSize then d
    else if p.pos + p.len ≤ rd64 d TR_RD_POS then trMakeRoom d need t
    else trMakeRoom (bump (wr64 d TR_RD_POS (p.pos + p.len)) TR_OVWR_CNT) need t

/-- Put a packet at TR_WR_POS and forget the packets whose bytes it overwrites. -/
def trAppend (d : Dev) (bs : List W8) (len l lastBp : Nat) : Dev :=
  let pos := rd64 d TR_WR_POS
  let d := wr64 (ringPut d pos bs) TR_WR_POS (pos + len)
  { d with tr := { d.tr with pkts := (d.tr.pkts.filter (fun p => decide (pos + len ≤ p.pos + ringSize))) ++ [⟨pos, len, l, lastBp⟩],
                             xferOver := d.tr.xferOver || (d.tr.xferBusy && decide (rd64 d TR_XFER_SRC + ringSize < pos + len)) } }

/-- Write a formed packet, with a pad packet before the end of the ring (R396), or drop it (R397). -/
def trWritePacket (d : Dev) (bs : List W8) (len l lastBp : Nat) : Dev :=
  let pos := rd64 d TR_WR_POS
  let left := ringSize - pos % ringSize
  let pad := if left < len then left else 0
  let room := if d.tr.protect || rdBit d TR_CFG 1 then d else trMakeRoom d (pad + len) d.tr.pkts
  if rd64 room TR_WR_POS + pad + len - trR room ≤ ringSize then
    let d1 := if pad = 0 then room else trAppend room (leBytes 4 pad ++ [255]) pad 255 lastBp
    let d2 := trAppend d1 bs len l lastBp
    { d2 with tr := { d2.tr with gap := tset false d2.tr.gap l false } }
  else
    let d1 := bump room TR_DROP_CNT
    { d1 with tr := { d1.tr with gap := tset false d1.tr.gap l true } }

/-- The bytes of a packet (Table 16-5). -/
def packetBytes (d : Dev) (l : Nat) (o : TrOpen) (seq : W32) : List W8 :=
  let len := packetLen o.samples (trCount d l)
  let ringId := rd d ID_RING
  let flags := b2n (tget false d.tr.gap l) + 2 * b2n (decide (o.samples < trPack d l))
  let body := leBytes 4 len ++ leBytes 1 l ++ leBytes 1 flags ++ leBytes 1 o.samples ++ leBytes 1 (fld ringId 5 0)
    ++ leBytes 2 (fld ringId 31 16) ++ leBytes 2 (trCount d l) ++ leBytes 4 seq.toNat ++ leBytes 8 o.stamp ++ leBytes 8 o.bp
    ++ bytes32 o.words
  body ++ List.replicate (len - body.length) 0

/-- Close an open packet: it takes the next TR_LSTL_SEQ and is written or dropped (R395). -/
def trClose (d : Dev) (l : Nat) : Dev :=
  match tfind d.tr.opens l with
  | none => d
  | some o =>
    let bs := packetBytes d l o (rd d (TR_LST_SEQ l))
    let d1 := bump d (TR_LST_SEQ l)
    let d2 := { d1 with tr := { d1.tr with opens := tclear l (l + 1) d1.tr.opens } }
    trWritePacket d2 bs bs.length l o.lastBp

/-- Close every open packet, in ascending list number. -/
def trCloseAll (d : Dev) : Dev := (tkeys d.tr.opens).foldl trClose d

/-- Take a sample of a due list; the PACK-th one closes the packet (R394, R395). -/
def trTake (d : Dev) (l : Nat) : Dev :=
  let ws := trSample d l
  let o := match tfind d.tr.opens l with
    | none => ⟨tbNs d, bp d, bp d, 1, ws⟩
    | some o => { o with lastBp := bp d, samples := o.samples + 1, words := o.words ++ ws }
  let d1 := { d with tr := { d.tr with opens := tset default d.tr.opens l o } }
  if o.samples < trPack d l then d1 else trClose d1 l

/-- The due lists sample their entries (R394), where packets are formed: in RUNNING and FREEZING. -/
def trSampleDue (d : Dev) : Dev :=
  if d.tr.state = .running ∨ d.tr.state = .freezing then
    ((trLists d).filter (fun l => dueAt (bp d) (trDiv d l) (trPhase d l))).foldl trTake d
  else d

/-- The end of a freeze: open packets closed, TR_FRZ_END, FROZEN (R403). -/
def trEndFreeze (d : Dev) : Dev :=
  let d := trCloseAll d
  let d := wr64 d TR_FRZ_END (rd64 d TR_WR_POS)
  { d with tr := { d.tr with state := .frozen } }

/-- The last BP that a freeze samples: n_T + 100 x POST (R403). -/
def trLastBp (d : Dev) : Nat := rd64 d TR_FRZ_BP + 100 * d.tr.post

/-- TRACE_SAMPLE: the engine's part of C2 (R394, R403). A freeze ends at the C2 of its last BP, with that BP's samples taken; a
trigger of an earlier BP whose last BP lies behind it ends before the samples of this one. -/
def traceSample (d : Dev) : Dev :=
  let d := if d.tr.state = .freezing ∧ trLastBp d < bp d then trEndFreeze d else d
  let d := trSampleDue d
  if d.tr.state = .freezing ∧ trLastBp d ≤ bp d then trEndFreeze d else d

/-- The start of a freeze: trigger BP, cause, first retained packet, PROTECT (R403). -/
def trBeginFreeze (d : Dev) (cause src pre post : Nat) : Dev :=
  let n := bp d
  let keep := d.tr.pkts.filter (fun p => p.list != 255 && decide (n ≤ p.lastBp + 100 * pre))
  let start := match keep with
    | p :: _ => p.pos
    | [] => rd64 d TR_WR_POS
  let d := wr64 (wrN (wr64 d TR_FRZ_BP n) TR_FRZ_INFO (cause + src * 0x10000)) TR_FRZ_START start
  { d with tr := { d.tr with state := .freezing, protect := true, post := post } }

/-- A trigger of class bit c from a source: counted where the class is enabled; the first one governs a freeze (R402, R403). -/
def trTrigger (d : Dev) (c src : Nat) : Dev :=
  if rdBit d TR_TRIG_EN c then
    let d := bump d TR_TRIG_CNT
    let pre := fld (rd d TR_FRZ_CFG) 10 0
    let post := fld (rd d TR_FRZ_CFG) 26 16
    if d.tr.state = .running ∧ pre ≠ 0 then trBeginFreeze d (c + 1) src pre post else d
  else d

/-- The trigger class of a report (Table 16-4): its bit, by record type and the second value of a CONN_TRIP. -/
def trClass (typ : Nat) (pay : List W32) : Option Nat :=
  if typ = 0x0005 then some 1
  else if typ = 0x0021 then some 2
  else if typ = 0x0020 ∨ typ = 0x0040 then some 3
  else if typ = 0x0031 then some 4
  else if typ = 0x0051 ∨ typ = 0x0053 then some 5
  else if typ = 0x0052 then (if 1 ≤ (nth pay 1 0).toNat ∧ (nth pay 1 0).toNat ≤ 3 then some 5 else none)
  else if typ = 0x0060 ∨ typ = 0x0064 then some 6
  else if typ = 0x0070 then some 7
  else none

/-- Refuse a trace command (R47). -/
def trRefuse (d : Dev) (code : Nat) : Dev := err d .tr code TR_CMD

/-- Sum of B of R401 over the enabled lists, as a fraction (numerator, denominator). -/
def trBytesPerS (d : Dev) : Nat × Nat :=
  (trLists d).foldl (fun (q : Nat × Nat) l =>
    let c := trCount d l
    let den := trDiv d l * trPack d l
    let num := 100000 * ((4 * c + 4 * ((c + 31) / 32)) * trPack d l + 40)
    (q.1 * den + num * q.2, q.2 * den)) (0, 1)

/-- Sum of COUNT over the enabled lists (TR_LOAD.ENTRIES). -/
def trEntries (d : Dev) : Nat := ((trLists d).map (trCount d)).foldl (· + ·) 0

/-- n is a power of 2. -/
def pow2 (n : Nat) : Bool := decide (n ≠ 0) && decide (2 ^ Nat.log2 n = n)

/-- The stream buffer, base and write-back address keep to Table 16-1. -/
def trDmaOk (d : Dev) : Bool :=
  let size := rdN d TR_DMA_SIZE
  rd64 d TR_DMA_BASE % 4096 == 0 && rd64 d TR_DMA_WBACK % 8 == 0 && pow2 size && decide (65536 ≤ size) && decide (size ≤ 2 ^ 30)

/-- START of TR_CMD (R401, Table 16-3). -/
def trStart (d : Dev) : Dev :=
  let q := trBytesPerS d
  if d.tr.state ≠ .stopped then trRefuse d 0x1003
  else if 8192 < trEntries d ∨ 2000000000 * q.2 < q.1 then trRefuse d 0x1001
  else if (trLists d).any (fun l => decide (65536 < packetLen (trPack d l) (trCount d l)) || decide (8192 < trFirst d l + trCount d l)) then
    trRefuse d 0x1002
  else if rdBit d TR_CFG 0 ∧ trDmaOk d = false then trRefuse d 0x1005
  else
    let d := wr64 d TR_DMA_POS 0
    { d with tr := { d.tr with state := .running, gap := (trLists d).foldl (fun t l => tset false t l true) d.tr.gap,
                               opens := [], streaming := rdBit d TR_CFG 0, dmaRel := 0 } }

/-- STOP of TR_CMD (R403): from RUNNING to STOPPED, from FREEZING to FROZEN, open packets closed. -/
def trStop (d : Dev) : Dev :=
  match d.tr.state with
  | .running => let d := trCloseAll d; { d with tr := { d.tr with state := .stopped } }
  | .freezing => trEndFreeze d
  | _ => trRefuse d 0x1003

/-- UNFREEZE of TR_CMD (R403). -/
def trUnfreeze (d : Dev) : Dev :=
  if d.tr.state = .frozen then { d with tr := { d.tr with state := .stopped, protect := false } } else trRefuse d 0x1003

/-- RESET_RING of TR_CMD (Table 16-3): positions to 0, PROTECT cleared, the bytes stay. -/
def trResetRing (d : Dev) : Dev :=
  if d.tr.state = .stopped then
    let d := wr64 (wr64 d TR_WR_POS 0) TR_RD_POS 0
    { d with tr := { d.tr with protect := false, pkts := [] } }
  else trRefuse d 0x1003

/-- A transfer concludes with a result (R400). -/
def trXferEnd (d : Dev) (res : Nat) : Dev :=
  let d := bump (wrN d TR_XFER_RES res) TR_XFER_CNT
  { d with tr := { d.tr with xferBusy := false, xferOver := false } }

/-- XFER of TR_CMD (R400). -/
def trXfer (d : Dev) : Dev :=
  let src := rd64 d TR_XFER_SRC
  let len := rdN d TR_XFER_LEN
  if rdBit d TR_CFG 0 ∨ d.tr.xferBusy then trRefuse d 0x1003
  else if len = 0 then trXferEnd d 1
  else if src < trR d ∨ rd64 d TR_WR_POS < src + len ∨ len % 8 ≠ 0 then trXferEnd d 2
  else { d with tr := { d.tr with xferBusy := true, xferOver := false } }

/-- A write of TR_CMD (Table 16-3). -/
def trCommand (d : Dev) (v : W32) : Dev :=
  match fld v 3 0 with
  | 0 => d
  | 1 => trStart d
  | 2 => trStop d
  | 3 => trTrigger d 0 388
  | 4 => trUnfreeze d
  | 5 => trXfer d
  | 6 => trResetRing d
  | _ => trRefuse d 0x1004

/-- A write of TR_RD_REL (R398, R399): rounded up to the end of the packet in which it ends. -/
def trRelease (d : Dev) (n : Nat) : Dev :=
  let rdp := rd64 d TR_RD_POS
  if rdBit d TR_CFG 0 then err d .tr 6 TR_RD_REL
  else if rd64 d TR_WR_POS < rdp + n then err d .tr 5 TR_RD_REL
  else if n = 0 then d
  else
    let tgt := rdp + n
    let stop := match d.tr.pkts.find? (fun p => decide (p.pos < tgt) && decide (tgt ≤ p.pos + p.len)) with
      | some p => p.pos + p.len
      | none => tgt
    wr64 d TR_RD_POS stop

/-- The warm reset's part in the trace state machine (R403): the trigger of cause RESET, PRE 2000, POST 0. -/
def trWarm (d : Dev) : Dev :=
  match d.tr.state with
  | .running => trEndFreeze (trBeginFreeze d 9 0 2000 0)
  | .freezing => trEndFreeze d
  | _ => d

/-- Bytes the DMA stream may copy now: staged in the ring, free in the host buffer, at most 64 KiB (R399). -/
def trCopyable (d : Dev) : Nat :=
  min 65536 (min (rd64 d TR_WR_POS - rd64 d TR_RD_POS) (rdN d TR_DMA_SIZE - (rd64 d TR_DMA_POS - d.tr.dmaRel)))

/-! ### The rows of the trace family -/

/-- TR_NOP. -/
def trNop (d : Dev) : Dev := d

/-- TR_DMA_COPY: the engine streams the next bytes, while the link is up (R399, R404); n caps the bytes of this copy. -/
def trDmaCopy (d : Dev) (n : Nat) : Dev :=
  if d.tr.streaming ∧ rdBit d TR_CFG 0 ∧ d.evr.linkUp then
    let k := min n (trCopyable d)
    wr64 (wr64 d TR_RD_POS (rd64 d TR_RD_POS + k)) TR_DMA_POS (rd64 d TR_DMA_POS + k)
  else d

/-- XFER_DONE: a transfer in progress ends, with the link up: copied, or overtaken by the ring (R400). -/
def trXferDone (d : Dev) : Dev :=
  if d.tr.xferBusy ∧ d.evr.linkUp then trXferEnd d (if d.tr.xferOver then 3 else 0) else d

/-- FREEZE_END: the C2 of BP n_T + 100 x POST has passed (R403). -/
def trFreezeEnd (d : Dev) : Dev :=
  if d.tr.state = .freezing ∧ trLastBp d ≤ bp d then trEndFreeze d else d

/-- What FLR, PERST# and a hot reset do to the trace DMA engine (R404). -/
def trEndpointReset (d : Dev) : Dev :=
  let d := if d.tr.xferBusy then trXferEnd d 4 else d
  let d := wr64 (wr64 (wr64 (wrN (wrN d TR_DMA_SIZE 0) TR_DMA_REL 0) TR_DMA_BASE 0) TR_DMA_WBACK 0) TR_DMA_POS 0
  { d with tr := { d.tr with streaming := false, dmaRel := 0 } }

end Sys2Proof.Machine
end

