-- ==== Sys2Proof/Machine/Daybook.lean ====
section
/-! DEFINITION. The event recorder (chapter 15): reports, staging, floods, commits to the running and founding areas. -/

namespace Sys2Proof.Machine

/-- The severity of a record type (Table 15-6). -/
def sevOf (typ : Nat) : Nat :=
  if typ = 0x0001 then 2 else if typ = 0x0002 then 10 else if typ = 0x0003 then 12 else if typ = 0x0004 then 14
  else if typ = 0x0005 then 15 else if typ = 0x0006 then 10 else if typ = 0x0007 then 8 else if typ = 0x0010 then 8
  else if typ = 0x0011 then 6 else if typ = 0x0012 then 4 else if typ = 0x0020 then 13 else if typ = 0x0021 then 12
  else if typ = 0x0022 then 8 else if typ = 0x0023 then 5 else if typ = 0x0024 then 5 else if typ = 0x0030 then 6
  else if typ = 0x0031 then 12 else if typ = 0x0040 then 13 else if typ = 0x0041 then 5 else if typ = 0x0042 then 5
  else if typ = 0x0050 then 14 else if typ = 0x0051 then 15 else if typ = 0x0052 then 15 else if typ = 0x0053 then 15
  else if typ = 0x0054 then 7 else if typ = 0x0060 then 3 else if typ = 0x0061 then 12 else if typ = 0x0062 then 9
  else if typ = 0x0063 then 12 else if typ = 0x0064 then 15 else if typ = 0x0070 then 12 else if typ = 0x0071 then 9
  else if typ = 0x0F01 then 6 else if typ = 0x0F02 then 12 else 0

/-- The two words of a value marked (64), low word first (R381). -/
def pay64 (v : Nat) : List W32 := [lo64 v, hi64 v]

/-- A report as it stands at its report instant: OPT_MS, PCC, and TB_NS while TB_STAT.TRACE is 1 (R382, R365). -/
def mkBody (d : Dev) (typ sev src : Nat) (pay : List W32) (part : Option Nat) : DbBody :=
  { typ := typ, sev := sev, src := src, opt := optMs d % 2 ^ 40, pcc := pcc d % 2 ^ 24,
    wall := if rdBit d TB_STAT 2 then some (tbNs d) else none, pay := pay, part := part }

/-- Change the Daybook record of the state. -/
def setDb (d : Dev) (b : Daybook) : Dev := { d with db := b }

/-- No suppression. -/
def noSupp : DbSupp := ⟨0, 0, 0, 0, false, false⟩

/-- A report is suppressed (R387): its source's state counts it, and DB_SUP_CNT. -/
def suppress (d : Dev) (src opt sev : Nat) (full : Bool) : Dev :=
  let s := tget noSupp d.db.supp src
  let s' : DbSupp :=
    { count := min 65535 (s.count + 1), first := if s.count = 0 then opt else s.first, last := opt, sev := max s.sev sev,
      rate := s.rate || !full, full := s.full || full }
  bump (setDb d { d.db with supp := tset noSupp d.db.supp src s' }) DB_SUP_CNT

/-- DB_PROFk of a source: nibble s mod 8 of DB_MAP(s / 8) names k (R386). -/
def profOf (d : Dev) (src : Nat) : W32 := rd d (DB_PROF (fld (rd d (DB_MAP (src / 8))) (4 * (src % 8) + 3) (4 * (src % 8))))
/-- RATE and BURST of a source's profile. -/
def rateOf (d : Dev) (src : Nat) : Nat := fld (profOf d src) 9 0
def burstOf (d : Dev) (src : Nat) : Nat := fld (profOf d src) 23 16
/-- Tokens in a source's bucket. -/
def tokens (d : Dev) (src : Nat) : Nat := burstOf d src - tget 0 d.db.spent src
/-- Take a token. -/
def takeToken (d : Dev) (src : Nat) : Dev := setDb d { d.db with spent := tset 0 d.db.spent src (tget 0 d.db.spent src + 1) }

/-- A report of a source may go on to staging without a token: severity 15, source 0x202, or a profile of RATE 0 (R386). -/
def bypasses (d : Dev) (src sev : Nat) : Bool := sev == 15 || src == 0x202 || rateOf d src == 0

/-- A staging entry that a report of this severity may displace (Table 15-7); a staged clear never is. -/
def displaceable (sev : Nat) (top : Bool) : DbEntry → Bool
  | .record b => if top then decide (b.sev < 15) else decide (b.sev < sev)
  | .clear _ _ _ _ => false

/-- Remove the first entry that a test picks; the entry, and the rest. -/
def takeFirst (f : DbEntry → Bool) : List DbEntry → Option (DbEntry × List DbEntry)
  | [] => none
  | e :: t => if f e then some (e, t) else (takeFirst f t).map (fun p => (p.1, e :: p.2))

/-- The severity of the head, for Table 15-7: the oldest record entry. -/
def headSev (l : List DbEntry) : Nat :=
  match l with
  | [] => 0
  | .record b :: _ => b.sev
  | .clear _ _ _ _ :: t => match t with
    | .record b :: _ => b.sev
    | _ => 0

/-- The entry that a report displaces from a full queue, and the rest: never the head, which the writer is committing. -/
def displaced (sev : Nat) (l : List DbEntry) : Option (DbEntry × List DbEntry) :=
  if sev = 15 ∨ headSev l < sev then
    (takeFirst (displaceable sev (sev == 15)) (l.drop 1)).map (fun p => (p.1, l.take 1 ++ p.2))
  else none

/-- Enter the staging queue, or displace an entry, or be suppressed (R385, Table 15-7). -/
def enqueue (d : Dev) (b : DbBody) : Dev :=
  if d.db.staging.length < 256 then setDb d { d.db with staging := d.db.staging ++ [.record b] }
  else match displaced b.sev d.db.staging with
    | some (.record e, rest) => suppress (setDb d { d.db with staging := rest ++ [.record b] }) e.src e.opt e.sev true
    | _ => suppress d b.src b.opt b.sev true

/-- A report with its token, or its suppression (R386). -/
def stageReport (d : Dev) (b : DbBody) : Dev :=
  if bypasses d b.src b.sev then enqueue d b
  else if 0 < tokens d b.src then enqueue (takeToken d b.src) b
  else suppress d b.src b.opt b.sev false

/-- The payload of a SUMMARY (R387): count, first and last OPT_MS, causes. -/
def summaryPay (s : DbSupp) : List W32 := [w32 s.count] ++ pay64 s.first ++ pay64 s.last ++ [w32 (b2n s.rate + 2 * b2n s.full)]

/-- A SUMMARY is staged for a source where R387 allows one. -/
def stageSummary (d : Dev) (src : Nat) : Dev :=
  let s := tget noSupp d.db.supp src
  let free := rateOf d src == 0 || src == 0x202
  if s.count ≠ 0 ∧ d.db.staging.length < 192 ∧ (free = true ∨ 0 < tokens d src) then
    let d1 := if free then d else takeToken d src
    let d2 := setDb d1 { d1.db with supp := tset noSupp d1.db.supp src noSupp }
    enqueue d2 (mkBody d2 0x0F00 s.sev src (summaryPay s) none)
  else d

/-- Every source that qualifies, in ascending number (R387). -/
def stageSummaries (d : Dev) : Dev := if d.db.writerUp then (tkeys d.db.supp).foldl stageSummary d else d

/-- A body enters staging, or the intake while the writer is down (R384). -/
def submit (d : Dev) (b : DbBody) : Dev :=
  if d.db.writerUp then stageReport d b
  else if d.db.intake.length < 32 then setDb d { d.db with intake := d.db.intake ++ [b] }
  else suppress d b.src b.opt b.sev true

/-- The parts of a long set of values: 250 words in the first record, 248 in each CONT (R381). -/
def contParts : Nat → Nat → List W32 → List (Nat × List W32)
  | 0, _, _ => []
  | _ + 1, _, [] => []
  | f + 1, k, ws => (k, ws.take 248) :: contParts f (k + 1) (ws.drop 248)

/-- The trace trigger of a report's class, taken before the rate limits (R402). -/
def reportTrigger (d : Dev) (typ src : Nat) (pay : List W32) : Dev := match trClass typ pay with
  | some c => trTrigger d c src
  | none => d

/-- DAYBOOK_REPORT: a report is raised: the trigger of its class, then it is submitted, with CONT records where its values do not fit (R381, R384 to R387). -/
def reportSev (d : Dev) (typ sev src : Nat) (pay : List W32) : Dev :=
  let d := reportTrigger (stageSummaries d) typ src pay
  let d := submit d (mkBody d typ sev src (pay.take 250) none)
  (contParts 64 2 (pay.drop 250)).foldl (fun d p => submit d (mkBody d 0x0F03 sev src p.2 (some p.1))) d

/-- A report of a type of Table 15-6 with the severity the table gives it. -/
def report (d : Dev) (typ src : Nat) (pay : List W32) : Dev := reportSev d typ (sevOf typ) src pay

/-- A FIELD_FAULT record of a page (R467): BLK_ID, ERR_CODE and ERR_ADDR as the outcome set them, a detail. -/
def fieldFault (d : Dev) (p : Page) (code addr detail : Nat) : Dev :=
  report d 0x0070 (pageOrigin p) [blkId p, w32 code, w32 addr, w32 detail]

/-- A FIELD_FAULT record whose condition stands in another slot than slot 0 (R462). -/
def fieldFaultAt (d : Dev) (src : Nat) (p : Page) (code addr detail : Nat) : Dev :=
  report d 0x0070 src [blkId p, w32 code, w32 addr, w32 detail]

/-- A TILE_QUAR record of a page (R467). -/
def tileQuar (d : Dev) (p : Page) (code addr : Nat) : Dev := report d 0x0020 (pageOrigin p) [blkId p, w32 code, w32 addr]

/-- A BUS_EVENT record of a page. -/
def busEvent (d : Dev) (p : Page) (src event counter : Nat) : Dev := report d 0x0071 src [blkId p, w32 event, w32 counter]

/-! ### The writer -/

/-- The areas' ends, as offsets from their bases (Table 15-1). -/
def fndEnd : Nat := 0x100000
def runEnd : Nat := 0x300000

/-- The bytes of a record with its SEQ (Table 15-3). A CONT begins with the SEQ of the set's first record and its part. -/
def recBytes (b : DbBody) (seq first : Nat) : List W8 :=
  let pay := match b.part with
    | some k => [w32 first, w32 k] ++ b.pay
    | none => b.pay
  let wall := match b.wall with
    | some w => leBytes 8 w
    | none => []
  let len := 24 + wall.length + 4 * pay.length
  let body := leBytes 2 len ++ leBytes 2 (b.typ % 32768 + 32768 * b2n b.wall.isSome) ++ leBytes 2 (b.sev * 4096 + b.src % 4096)
    ++ leBytes 5 b.opt ++ leBytes 3 b.pcc ++ leBytes 4 seq ++ [0, 0] ++ wall ++ bytes32 pay
  body ++ leBytes 4 (crc32c body)

/-- A record lies in the bytes from p to p + n - 1. -/
def recIn (p n : Nat) (r : DbRec) : Bool := decide (r.off < p + n) && decide (p < r.off + r.bytes.length)

/-- Discard whole records at the tail until none lies in the bytes p to p + n - 1 (R380, step 2). -/
def discardTail (p n : Nat) : List DbRec → List DbRec
  | [] => []
  | h :: t => if (h :: t).any (recIn p n) then discardTail p n t else h :: t

/-- The founding copy of a record (R379): written at the founding head while it fits; the first that does not sets FULL. -/
def fndAppend (v : Vault) (seq : Nat) (bs : List W8) : Vault :=
  if v.fndFull then v
  else if v.fndHead + bs.length + 4 ≤ fndEnd then
    { v with founding := v.founding ++ [⟨v.fndHead, seq, bs⟩], fndHead := v.fndHead + bs.length }
  else { v with fndFull := true }

/-- The base of the running area in MRAM (Table 15-1). -/
def runBase : Nat := 0x2100000

/-- The bytes that a commit writes (R380): the wrap mark at the old head where the record does not fit there, then the record and
the end mark behind it. -/
def runBytes (d : Dev) (p0 p : Nat) (bs : List W8) : Dev :=
  let m := if p = p0 then d.mram else mput d.mram (runBase + p0) [255, 255]
  { d with mram := mput m (runBase + p) (bs ++ [0, 0]) }

/-- Commit a body to the running area under R380, with the next SEQ. -/
def runAppend (d : Dev) (b : DbBody) (seq : Nat) (bs : List W8) : Dev :=
  let p0 := rdN d DB_RUN_HEAD
  let p := if runEnd < p0 + bs.length + 4 then 0x40 else p0
  let kept := discardTail p (bs.length + 4) d.db.running
  let tail := match kept with
    | r :: _ => r.off
    | [] => p
  let d := runBytes d p0 p bs
  let d := setDb d { d.db with running := kept ++ [⟨p, seq, bs⟩], firstSeq := if b.part.isNone then seq else d.db.firstSeq }
  let d := wrN (wrN (wrN d DB_RUN_TAIL tail) DB_RUN_HEAD (p + bs.length)) DB_SEQ seq
  let d := bump d DB_REC_CNT
  if b.sev = 15 then bump d DB_CRIT_CNT else d

/-- Commit a body: running area, then the founding copy with identical bytes (R379, R380, R384). -/
def commitBody (v : Vault) (d : Dev) (b : DbBody) : Vault × Dev :=
  let seq := (rdN d DB_SEQ + 1) % 2 ^ 32
  let bs := recBytes b seq d.db.firstSeq
  (fndAppend v seq bs, runAppend d b seq bs)

/-- Carry out a staged clear (R390): empty running area with the target GEN, then the CLEAR record as its first. -/
def clearArea (v : Vault) (d : Dev) (gen key : Nat) (reason : W32) (requester : Nat) : Vault × Dev :=
  let old := rdN d DB_GEN
  let seqs := d.db.running.map (·.seq)
  let pay := [w32 old, w32 gen, w32 seqs.length, w32 (seqs.headD 0), w32 (seqs.getLastD 0)] ++ pay64 key ++ [reason] ++ pay64 requester
  let d := { d with mram := mput d.mram (runBase + 0x40) [0, 0] }
  let d := wrN (wrN (wrN (setDb d { d.db with running := [] }) DB_GEN gen) DB_RUN_TAIL 0x40) DB_RUN_HEAD 0x40
  commitBody v d (mkBody d 0x0F01 (sevOf 0x0F01) 0x202 pay none)

/-- The writer takes the head entry of staging (R384). -/
def commitHead (v : Vault) (d : Dev) : Vault × Dev :=
  match d.db.staging with
  | [] => (v, d)
  | .record b :: t => commitBody v (setDb d { d.db with staging := t }) b
  | .clear g k r q :: t => clearArea v (setDb d { d.db with staging := t }) g k r q

/-- Drain staging at a start: a staged clear first, then the rest in order; n bounds the entries (R384). -/
def drain : Nat → Vault → Dev → Vault × Dev
  | 0, v, d => (v, d)
  | n + 1, v, d => let r := commitHead v d; drain n r.1 r.2

/-- A staged clear is completed before any other record at a start (R390). -/
def clearFirst (l : List DbEntry) : List DbEntry :=
  l.filter (fun e => match e with | .clear _ _ _ _ => true | _ => false)
    ++ l.filter (fun e => match e with | .clear _ _ _ _ => false | _ => true)

/-- The writer runs again (R384): full buckets (R386), drain of staging, then the intake passes to staging. -/
def writerStart (v : Vault) (d : Dev) : Vault × Dev :=
  let d := wrN (setDb d { d.db with staging := clearFirst d.db.staging, spent := [], gained := [] }) DB_REC_CNT 0
  let r := drain d.db.staging.length v d
  let held := r.2.db.intake
  let d := setDb r.2 { r.2.db with intake := [], writerUp := true }
  (r.1, held.foldl stageReport d)

/-- A record's bytes pass the scan of R389: a length that is a multiple of 4 from 24 to 1032, and the CRC. -/
def recOk (r : DbRec) : Bool :=
  let n := r.bytes.length
  n % 4 == 0 && decide (24 ≤ n) && decide (n ≤ 1032) && leNat (r.bytes.drop (n - 4)) == crc32c (r.bytes.take (n - 4))

/-- DAYBOOK_SCAN (R389): the scan of both areas; at a bad record the running head is set there, or founding FULL. -/
def scanAreas (v : Vault) (d : Dev) : Vault × Dev :=
  let goodR := d.db.running.takeWhile recOk
  let goodF := v.founding.takeWhile recOk
  let d := match d.db.running.drop goodR.length with
    | [] => d
    | bad :: _ =>
      let d := wrN (bump (setDb d { d.db with running := goodR }) DB_BAD_CNT) DB_RUN_HEAD bad.off
      report d 0x0F02 0x202 [1, w32 bad.off, w32 ((goodR.getLastD default).seq)]
  match v.founding.drop goodF.length with
  | [] => (v, d)
  | bad :: _ =>
    ({ v with fndFull := true }, report (bump d DB_BAD_CNT) 0x0F02 0x202 [0, w32 bad.off, w32 ((goodF.getLastD default).seq)])

/-! ### The rows of the Daybook family -/

/-- RECORD_COMMIT: the writer commits the record at the head of staging (R380, R384); a clear there is CLEAR_EXECUTE's. -/
def recordCommit (v : Vault) (d : Dev) : Vault × Dev :=
  match d.db.staging with
  | .record _ :: _ => if d.db.writerUp then (let r := commitHead v d; (r.1, stageSummaries r.2)) else (v, d)
  | _ => (v, d)

/-- CLEAR_EXECUTE: the writer carries out the clear at the head of staging (R390). -/
def clearExecute (v : Vault) (d : Dev) : Vault × Dev :=
  match d.db.staging with
  | .clear _ _ _ _ :: _ => if d.db.writerUp then commitHead v d else (v, d)
  | _ => (v, d)

/-- TOKEN_GAIN: at an OPT_MS that is a multiple of 1000 / RATE, once, a bucket that is not full gains a token (R386); a
pending SUMMARY takes it first (R387). -/
def tokenGain (d : Dev) (src : Nat) : Dev :=
  let rate := rateOf d src
  if rate ≠ 0 ∧ optMs d % (1000 / rate) = 0 ∧ tget 0 d.db.gained src ≠ optMs d + 1 then
    let d := setDb d { d.db with spent := tset 0 d.db.spent src (tget 0 d.db.spent src - 1), gained := tset 0 d.db.gained src (optMs d + 1) }
    if d.db.writerUp then stageSummary d src else d
  else d

/-- CLEARING (DB_STAT [4]): a clear is staged. -/
def clearing (d : Dev) : Bool := d.db.staging.any (fun e => match e with | .clear _ _ _ _ => true | _ => false)

/-- DB_NOP. -/
def dbNop (d : Dev) : Dev := if clearing d then err d .db 0x0F01 DB_CMD else wrN d DB_RES 0

/-- What DB_CMD takes from the requester's side of the crossing: DB_CLR_ADDR, DB_CLR_LEN, DB_APP_HDR, DB_APP_LEN, DB_APP_DATA
(R391, R392). -/
def dbArgs (d : Dev) : List W32 :=
  [rd d DB_CLR_ADDR, rd d DB_CLR_LEN, rd d DB_APP_HDR, rd d DB_APP_LEN] ++ (List.range 250).map (fun i => rd d (DB_APP_DATA i))

/-- A report passes R386 and R385 now: it takes a token where it needs one, and staging has room or an entry to displace. -/
def taken (d : Dev) (b : DbBody) : Bool :=
  (bypasses d b.src b.sev || decide (0 < tokens d b.src))
    && (decide (d.db.staging.length < 256) || (displaced b.sev d.db.staging).isSome)

/-- DB_APP_PUT (R391): who is 0 for the host, 1 to 8 for application cores 0 to 7; args as the command has taken them. -/
def dbAppPut (d : Dev) (who : Nat) (args : List W32) : Dev :=
  let hdr := nth args 2 0
  let len := fld (nth args 3 0) 10 0
  let typ := fld hdr 14 0
  let sev := fld hdr 19 16
  if clearing d then err d .db 0x0F01 DB_CMD
  else if len < 24 ∨ 1024 < len ∨ len % 4 ≠ 0 then bump (wrN d DB_RES 7) DB_REJ_CNT
  else if typ < 0x7000 ∨ sev = 15 then bump (wrN d DB_RES 8) DB_REJ_CNT
  else
    let pay := (args.drop 4).take ((len - 24) / 4)
    let d := stageSummaries d
    reportSev (wrN d DB_RES (if taken d (mkBody d typ sev (0x300 + who) pay none) then 0 else 9)) typ sev (0x300 + who) pay

end Sys2Proof.Machine
end

