-- ==== Sys2Proof/Machine/Sram.lean ====
section
/-! DEFINITION. SRAM banks, their power and errors, and the user NV area of the MRAM (chapter 17). -/

namespace Sys2Proof.Machine

/-! ### The map from offsets to banks (R417) -/

/-- W: banks an offset is interleaved over (MB_ILV.ACT: 0 W32, 1 W16, 2 W8). -/
def ilvW (d : Dev) : Nat :=
  let act := fld (rd d (MB_ILV 0)) 5 4
  if act = 1 then 16 else if act = 2 then 8 else 32

/-- S: bytes of a segment. -/
def segBytes (d : Dev) : Nat := 0x180000 * ilvW d

/-- Segment, bank, row in the bank and 64-bit word in the row of an offset (R417). -/
def segOf (d : Dev) (a : Nat) : Nat := a / segBytes d
def bankOf (d : Dev) (a : Nat) : Nat := segOf d a * ilvW d + (a % segBytes d / 8) % ilvW d
def rowOf (d : Dev) (a : Nat) : Nat := a % segBytes d / 8 / ilvW d / 32

/-- STATE of a bank (MB_STAT [2:0]). -/
def bankSt (d : Dev) (b : Nat) : Nat := fld (rd d (MB_STAT b)) 2 0
/-- A bank is ON. -/
def bankOn (d : Dev) (b : Nat) : Bool := bankSt d b == 0

/-- Every bank that a range of the window lies in is ON: the banks of a segment share one state (R419). -/
def rangeOn (d : Dev) (a n : Nat) : Bool :=
  let g := segOf d a
  (List.range (segOf d (a + n - 1) - g + 1)).all (fun i => bankOn d ((g + i) * ilvW d))

/-- A word of the range is uncorrectable. -/
def rangeBad (d : Dev) (a n : Nat) : Bool := d.poison.any (fun w => decide (a < 8 * w + 8) && decide (8 * w < a + n))

/-- The range lies wholly inside the window, its banks are ON and no word of it is uncorrectable. -/
def sramOk (d : Dev) (a n : Nat) : Bool := decide (a + n ≤ sramSize) && rangeOn d a n && !rangeBad d a n

/-- Write bytes: dropped where the range is not served; a word that is written is uncorrectable no longer (R419, R420). -/
def sramPut (d : Dev) (a : Nat) (bs : List W8) : Dev :=
  if a + bs.length ≤ sramSize ∧ rangeOn d a bs.length = true then
    { d with sram := mput d.sram a bs
             poison := d.poison.filter (fun w => decide (8 * w + 8 ≤ a) || decide (a + bs.length ≤ 8 * w)) }
  else d

/-- A little-endian word of n bytes of the SRAM. -/
def sramNum (d : Dev) (a n : Nat) : Nat := mnum d.sram a n

/-! ### Bank power (R419) -/

/-- The banks of a bank's segment. -/
def segBanks (d : Dev) (b : Nat) : List Nat := (List.range (ilvW d)).map (fun i => b / ilvW d * ilvW d + i)

/-- A row of a bank's segment is under test (R425). -/
def segTested (d : Dev) (b : Nat) : Bool :=
  match d.tk.testing with
  | some (tb, _, _) => tb / ilvW d == b / ilvW d
  | none => false

/-- The contents of a segment are lost. -/
def segClear (d : Dev) (b : Nat) : Dev :=
  let lo := b / ilvW d * segBytes d
  let hi := lo + segBytes d
  { d with sram := tclear lo hi d.sram, poison := d.poison.filter (fun w => decide (8 * w < lo) || decide (hi ≤ 8 * w)) }

/-- STATE of every bank of a segment. -/
def segState (d : Dev) (b st : Nat) : Dev := (segBanks d b).foldl (fun d k => wrFld d (MB_STAT k) 2 0 st) d

/-- MB_POWER_REQUEST: MB_PWR of the segment's banks; a bank that is to be ON wakes or is initialised first. -/
def mbPower (d : Dev) (b : Nat) (v : W32) : Dev :=
  let req := fld v 1 0
  if req = 3 then err d (.mb b) 5 (MB_PWR b)
  else
    let d := (segBanks d b).foldl (fun d k => wrN d (MB_PWR k) req) d
    if req = 0 ∧ bankSt d b = 1 then segState d b 3
    else if req = 0 ∧ bankSt d b = 2 then segState d b 4 else d

/-- MB_POWER_DONE: the transition ends, after the release of a row under test (R425); OFF loses the contents. -/
def mbPowerDone (d : Dev) (b : Nat) : Dev :=
  let req := fld (rd d (MB_PWR b)) 1 0
  if segTested d b ∨ bankSt d b = req then d
  else segState (if req = 2 ∨ bankSt d b = 4 then segClear d b else d) b req

/-- A reset's part in the banks, from their states before it: every bank returns to ON, one that was OFF through INIT (R419). -/
def banksReset (old d : Dev) : Dev :=
  (List.range 32).foldl (fun d b => wrN (wrN d (MB_PWR b) 0) (MB_STAT b) (if bankSt old b = 2 ∨ bankSt old b = 4 then 4 else 0)) d

/-- MB_MAPk: USED, RETIRED. -/
def spareUsed (d : Dev) (b k : Nat) : Bool := rdBit d (MB_MAP b k) 15
def spareRetired (d : Dev) (b k : Nat) : Bool := rdBit d (MB_MAP b k) 16

/-- MB_STAT (Table 17-4): STATE and NOSPARE as held; TESTING; the spares in use, from the map. -/
def mbStat (d : Dev) (b : Nat) : Nat :=
  let testing := match d.tk.testing with
    | some (tb, _, _) => tb == b
    | none => false
  bankSt d b + 8 * b2n testing + 16 * ((List.range 8).filter (spareUsed d b)).length + 256 * b2n (rdBit d (MB_STAT b) 8)

/-- OFF_BANK_ACCESS: an access to a bank that is not ON is not served, and counted. -/
def offBankAccess (d : Dev) (a : Nat) : Dev :=
  if a < sramSize ∧ bankOn d (bankOf d a) = false then bump d (MB_OFF_ACC_CNT (bankOf d a)) else d

/-! ### Errors (R420) -/

/-- A row is queued for an out-of-turn test: not twice, and not where the queue is full (R424). -/
def queueRow (d : Dev) (b row : Nat) : Dev :=
  if (b, row) ∈ d.tk.queue ∨ 16 ≤ d.tk.queue.length then d else { d with tk := { d.tk with queue := d.tk.queue ++ [(b, row)] } }

/-- SRAM_CE: counted, its offset kept, the row queued for a test. -/
def sramCe (d : Dev) (a : Nat) : Dev :=
  let b := bankOf d a
  if a < sramSize ∧ bankOn d b = true then queueRow (wrN (bump d (MB_CE_CNT b)) (MB_CE_ADDR b) (a / 8 * 8)) b (rowOf d a) else d

/-- SRAM_UE: counted, its offset kept; the word stays uncorrectable until it is written. -/
def sramUe (d : Dev) (a : Nat) : Dev :=
  let b := bankOf d a
  if a < sramSize ∧ bankOn d b = true then
    let d := wrN (bump d (MB_UE_CNT b)) (MB_UE_ADDR b) (a / 8 * 8)
    { d with poison := if a / 8 ∈ d.poison then d.poison else (a / 8) :: d.poison }
  else d

/-- A write of a bank page register that has no row of its own. MB_ILV is MB00's only. -/
def mbWrite (d : Dev) (b off : Nat) (v : W32) : Dev :=
  if off = 0x180 ∧ b = 0 then
    if fld v 1 0 = 3 then err d (.mb 0) 5 (MB_ILV 0) else wrFld d (MB_ILV 0) 1 0 (fld v 1 0)
  else if off = 0x100 then mbPower d b v
  else d

/-! ### The user NV area (R428) -/

/-- The user NV area of the MRAM. -/
def nvLo : Nat := 0x03C00000
def nvHi : Nat := 0x04000000

/-- NV_WRITE: accepted in the user NV area and merged with its line; elsewhere dropped and counted. -/
def nvWrite (d : Dev) (a : Nat) (bs : List W8) : Dev :=
  if nvLo ≤ a ∧ a + bs.length ≤ nvHi then
    { d with nv := bs.zipIdx.foldl (fun m p => tset 256 m (a + p.2) p.1.toNat) d.nv }
  else bump d DEV_BAD_ACC_CNT

/-- Move the merged bytes of a range into the MRAM. -/
def nvFlush (d : Dev) (lo hi : Nat) : Dev :=
  let mine := d.nv.filter (fun p => decide (lo ≤ p.1) && decide (p.1 < hi))
  { d with mram := mine.foldl (fun m p => mwr m p.1 (BitVec.ofNat 8 p.2)) d.mram, nv := tclear lo hi d.nv }

/-- NV_LINE_WRITE: the writer writes a merged 64-byte line, each line at most once in 100 µs (10 BP). -/
def nvLineWrite (d : Dev) (line : Nat) : Dev :=
  if d.nv.any (fun p => p.1 / 64 == line) ∧ (tget 0 d.nvAt line = 0 ∨ tget 0 d.nvAt line + 10 ≤ bp d + 1) then
    { nvFlush d (64 * line) (64 * line + 64) with nvAt := tset 0 d.nvAt line (bp d + 1) }
  else d

end Sys2Proof.Machine
end

