-- ==== Sys2Proof/Machine/Images.lean ====
section
/-! DEFINITION. The image container and its checks (R293, R294), shared by every loader. -/

namespace Sys2Proof.Machine

/-- The little-endian number of n bytes at an offset of an image. -/
def num (bs : List W8) (off n : Nat) : Nat := leNat ((bs.drop off).take n)

/-- All bytes of a stretch are 0. -/
def zeros (bs : List W8) (off n : Nat) : Bool := ((bs.drop off).take n).all (fun b => b == 0)

/-- The body of a container (from offset 0x80). -/
def bodyOf (bs : List W8) : List W8 := bs.drop 0x80

/-- A key of the protected store is authorised for a container type (R431): slots 1 to 15. -/
def keyAuth (d : Dev) (kid typ : Nat) : Bool :=
  (List.range 15).any (fun i =>
    let u := rd d (ID_SLOT_USE (i + 1))
    bit u 16 && bit u typ && rd64 d (ID_SLOT_KID (i + 1)) == kid)

/-- The signature of a container verifies with the key of its KEY_ID. -/
def sigOk (bs : List W8) : Bool := Config.sigValid (num bs 0x10 8) (Config.sha256 (bs.take 0x40)) ((bs.drop 0x40).take 64)

/-- Step 1 of R294: magic, type, header version, reserved bytes, LENGTH. -/
def headerOk (bs : List W8) (typ len : Nat) : Bool :=
  num bs 0 4 == 0x4D495851 && num bs 4 2 == typ && num bs 6 2 == 1 && num bs 8 4 == len && decide (0x88 ≤ len) && zeros bs 0x18 8

/-- The checks of R294 in order on a container of a key-store type: 0 passed, 1 BAD_CONTAINER, 2 BAD_HASH, 3 BAD_SIG. A length
of 2^32 and more marks an image with an uncorrectable word, which fails BAD_HASH (R420). -/
def containerCheck (d : Dev) (bs : List W8) (typ len : Nat) : Nat :=
  if bs.length ≠ len % 2 ^ 32 ∨ headerOk bs typ (len % 2 ^ 32) = false then 1
  else if 2 ^ 32 ≤ len then 2
  else if Config.sha256 (bodyOf bs) ≠ (bs.drop 0x20).take 32 then 2
  else if keyAuth d (num bs 0x10 8) typ = false ∨ sigOk bs = false then 3 else 0

/-- The container a loader reads, once, from the SRAM window (R294); nothing where it does not lie wholly inside, or lies in
a bank that is not ON (R419). -/
def sramCopy (d : Dev) (addr len : Nat) : List W8 := if addr + len ≤ sramSize ∧ rangeOn d addr len = true then mbytes d.sram addr len else []

/-- The length a loader keeps with its copy: 2^32 is added where a word of it was uncorrectable (R420). -/
def sramLen (d : Dev) (addr len : Nat) : Nat := if rangeBad d addr len then len + 2 ^ 32 else len

/-- The bytes that a loader of a lane or a logic processor verifies: those of the SRAM window; in a pair the authority reads them
and forwards them, and the other module has none until they come (R70, R230). -/
def loadCopy (d : Dev) (addr len : Nat) : List W8 := if followsPair d then [] else sramCopy d addr len
def loadLen (d : Dev) (addr len : Nat) : Nat := if followsPair d then 0 else sramLen d addr len

/-- A load has been accepted: its image is kept, with an entry. -/
def dirPut (d : Dev) (p : Page) (bank typ len : Nat) (sha : List W8) : Dev :=
  let b := pageBase p
  { d with dir := ⟨b, bank, typ, len, sha⟩ :: d.dir.filter (fun e => !(e.base == b && e.bank == bank)) }

/-- No two stretches of a list overlap, each starts at a multiple of m and lies inside size bytes. -/
def stretchesOk (m size : Nat) : List (Nat × Nat) → Bool
  | [] => true
  | (o, n) :: t =>
    o % m == 0 && decide (o + n ≤ size)
      && t.all (fun q => decide (o + n ≤ q.1) || decide (q.1 + q.2 ≤ o) || n == 0 || q.2 == 0) && stretchesOk m size t

end Sys2Proof.Machine
end

