-- ==== Sys2Proof/Machine/LaneImage.lean ====
section
/-! DEFINITION. The verification of a Ledger image (R71 to R76, R83, R84): body bytes to a step table, or a result code of
Table 3-7. -/

namespace Sys2Proof.Machine

/-- An action entry of 16 bytes. -/
def parseAct (bs : List W8) (off : Nat) : Act := ⟨num bs off 1, num bs (off + 1) 1, num bs (off + 2) 2, num bs (off + 4) 4, num bs (off + 8) 8⟩

/-- A step at an offset, its action entries behind it. Names are resolved later. -/
def parseStep (bs : List W8) (off : Nat) : LStep :=
  { kind := num bs off 1, resume := num bs (off + 1) 1, name := num bs (off + 4) 2, mark := num bs (off + 6) 2,
    dur := num bs (off + 8) 4, maxOff := num bs (off + 12) 4, target := num bs (off + 0x10) 2, recovery := num bs (off + 0x12) 2,
    condOp := num bs (off + 0x14) 1, condSrc := num bs (off + 0x16) 2, condMask := num bs (off + 0x18) 4,
    condVal := num bs (off + 0x1C) 4, rampSig := num bs (off + 0x20) 2, param := num bs (off + 0x24) 4,
    stepId := num bs (off + 0x28) 4, acts := (List.range (num bs (off + 2) 2)).map (fun i => parseAct bs (off + 64 + 16 * i)),
    targetIx := 0, recoveryIx := 0 }

/-- The offsets of the steps, one after another without gaps; none where ACT_COUNT exceeds 32. -/
def stepOffs (bs : List W8) : Nat → Nat → List Nat
  | 0, off => [off]
  | n + 1, off => off :: stepOffs bs n (off + 64 + 16 * num bs (off + 2) 2)

/-- The reserved bytes of a step header are 0, and ACT_COUNT is in range (Table 3-8). -/
def stepRawOk (bs : List W8) (off : Nat) : Bool :=
  zeros bs (off + 0x15) 1 && zeros bs (off + 0x22) 2 && zeros bs (off + 0x2C) 20 && decide (num bs (off + 2) 2 ≤ 32)

/-- An action entry inside a step (Table 3-11): kinds 1 to 6, AFLAGS 0, the unused fields 0; a signal beyond the table is a breach of the
entry, BAD_STEP or BAD_BODY (DESIGN CHOICE, log entry 52). -/
def actOk (a : Act) : Bool :=
  a.flags == 0 &&
  (match a.kind with
   | 1 => decide (a.a0 < 32768) && a.a2 == 0
   | 2 => a.a0 &&& 0xFEC0 == 0 && a.a1 == 0
   | 3 => decide (a.a0 < 32) && a.a1 == 0 && a.a2 == 0
   | 4 => decide (a.a0 < 32) && a.a2 == 0
   | 5 => decide (a.a0 < 32) && a.a1 == 0 && a.a2 == 0
   | 6 => a.a0 == 0 && a.a1 == 0 && a.a2 == 0
   | _ => false)

/-- A scheduled payload (R76): NONE, SIG_WRITE, AXIS_MOVE or LOGIC_EVENT, AFLAGS bit 0 only. -/
def payloadOk (a : Act) : Bool :=
  decide (a.flags < 2) && (a.kind == 0 && a.a0 == 0 && a.a1 == 0 && a.a2 == 0 || decide (1 ≤ a.kind ∧ a.kind ≤ 3) && actOk { a with flags := 0 })

/-- The rules of Tables 3-8 and 3-9, R74 and R75 on one step. -/
def stepOk (s : LStep) : Bool :=
  let noCond := s.condOp == 0
  let timed := s.kind == 1 || s.kind == 2 || s.kind == 3
  decide (1 ≤ s.kind ∧ s.kind ≤ 6) && decide (s.resume ≤ 2) && (s.resume != 2 || s.recovery != 0)
  && decide (s.condOp ≤ 10)
  && (if 9 ≤ s.condOp then decide (s.condSrc < 16) else if noCond then true else decide (s.condSrc < 32768))
  && (timed || s.dur == 0)
  && (match s.kind with
      | 1 => s.target == 0 && !(s.dur == 0 && noCond)
      | 2 => !noCond
      | 3 => s.target == 0 && s.dur != 0 && decide (s.rampSig < 32768)
      | 4 => s.target != 0 && noCond && s.condSrc == 0 && s.condMask == 0 && s.condVal == 0 && s.acts.isEmpty
      | 5 => s.target != 0
      | _ => s.target == 0 && noCond && s.condSrc == 0 && s.condMask == 0 && s.condVal == 0)
  && (s.kind == 3 || s.rampSig == 0) && (s.kind == 3 || s.kind == 4 || s.param == 0)
  && s.acts.all actOk

/-- The index of the step of a name. -/
def nameIx (ss : List LStep) (n : Nat) : Option Nat := ss.findIdx? (fun s => s.name == n)

/-- The names that steps and the abort entry refer to. -/
def refNames (ss : List LStep) (abort : Nat) : List Nat :=
  (abort :: ss.map (·.target) ++ ss.map (·.recovery)).filter (· != 0)

/-- Resolve TARGET and RECOVERY. -/
def resolveStep (ss : List LStep) (s : LStep) : LStep :=
  { s with targetIx := (nameIx ss s.target).getD 0, recoveryIx := (nameIx ss s.recovery).getD 0 }

/-- The repeat blocks: (REPEAT step, first step, last step). -/
def blocksOf (ss : List LStep) : List (Nat × Nat × Nat) :=
  ss.zipIdx.filterMap (fun p => if p.1.kind = 4 then some (p.2, p.2 + 1, p.1.targetIx) else none)

/-- A step lies in a block. -/
def inBlock (b : Nat × Nat × Nat) (i : Nat) : Bool := decide (b.2.1 ≤ i) && decide (i ≤ b.2.2)

/-- A transition enters no block from outside (R84). -/
def jumpOk (bs : List (Nat × Nat × Nat)) (src dst : Nat) : Bool := bs.all (fun b => !inBlock b dst || inBlock b src)

/-- Two blocks are nested or apart (R83). -/
def nestOk (b c : Nat × Nat × Nat) : Bool :=
  decide (b.2.2 < c.1) || decide (c.2.2 < b.1) || (inBlock b c.1 && decide (c.2.2 ≤ b.2.2)) || (inBlock c b.1 && decide (b.2.2 ≤ c.2.2))
    || b == c

/-- The block rules of R83 and R84. -/
def blocksOk (ss : List LStep) (abort : Nat) : Bool :=
  let bs := blocksOf ss
  bs.all (fun b => decide (b.1 < b.2.2)) && bs.all (fun b => bs.all (nestOk b))
  && (List.range ss.length).all (fun i => decide ((bs.filter (fun b => inBlock b i)).length ≤ 4))
  && ss.zipIdx.all (fun p => (p.1.kind == 4 || p.1.target == 0 || jumpOk bs p.2 p.1.targetIx) && (p.1.recovery == 0 || jumpOk bs p.2 p.1.recoveryIx))
  && (abort == 0 || bs.all (fun b => !inBlock b ((nameIx ss abort).getD 0)))

/-- The signals that steps and scheduled payloads write (R71). -/
def writtenSigs (ss : List LStep) (sched : List Act) : List Nat :=
  ((ss.flatMap (·.acts) ++ sched).filter (fun a => a.kind == 1)).map (·.a0) ++ (ss.filter (fun s => s.kind == 3)).map (·.rampSig)

/-- A target-list entry at an offset. -/
def parseTarget (bs : List W8) (off : Nat) : LTarget := ⟨num bs off 2, num bs (off + 2) 2 % 2 == 1, w32 (num bs (off + 4) 4)⟩

/-- The body header rules of R71 and Table 3-6. -/
def laneBodyOk (bs : List W8) : Bool :=
  num bs 0 4 == 0x5247444C && num bs 4 2 == 1 && decide (1 ≤ num bs 6 2 ∧ num bs 6 2 ≤ 2048) && decide (num bs 0x14 2 ≤ 1024)
  && zeros bs 0x24 28 && decide (64 ≤ bs.length) && decide (bs.length ≤ 131072)
  && stretchesOk 8 bs.length [(0, 64), (num bs 8 4, num bs 12 4), (num bs 0x10 4, 8 * num bs 0x14 2), (num bs 0x18 4, 512), (num bs 0x1C 4, 256)]

/-- A Ledger body: an image, or the first failing code of Table 3-7 in the table's order. -/
def parseLane (bs : List W8) : Except Nat LImg :=
  if laneBodyOk bs = false then .error 4
  else
    let offs := stepOffs bs (num bs 6 2) (num bs 8 4)
    let starts := offs.dropLast
    let sched := (List.range 32).map (fun i => parseAct bs (num bs 0x18 4 + 16 * i))
    let raw := starts.map (parseStep bs)
    let abort := num bs 0x16 2
    let tg := (List.range (num bs 0x14 2)).map (fun i => parseTarget bs (num bs 0x10 4 + 8 * i))
    let flags := (List.range (num bs 0x14 2)).map (fun i => num bs (num bs 0x10 4 + 8 * i + 2) 2)
    let names := (raw.map (·.name)).filter (· != 0)
    if offs.getLastD 0 ≠ num bs 8 4 + num bs 12 4 ∨ sched.all payloadOk = false then .error 4
    else if starts.all (stepRawOk bs) = false ∨ raw.all stepOk = false then .error 5
    else if names.Nodup = false ∨ (refNames raw abort).all (fun n => names.contains n) = false then .error 6
    else
      let ss := raw.map (resolveStep raw)
      let last := ss.getLastD default
      if blocksOk ss abort = false then .error 7
      else if ¬ (last.kind = 6 ∨ (last.kind = 5 ∧ last.condOp = 0)) then .error 8
      else if tg.any (fun t => decide (32767 < t.n)) = true ∨ (tg.map (·.n)).Nodup = false ∨ flags.any (fun f => decide (1 < f)) = true
          ∨ (writtenSigs ss sched).all (fun n => tg.any (fun t => t.n == n)) = false then .error 9
      else .ok { steps := ss, targets := tg, abort := abort, sched := sched, cells := (bs.drop (num bs 0x1C 4)).take 256, recipe := num bs 0x20 4 }

end Sys2Proof.Machine
end

