-- ==== Sys2Proof/Machine/LaneCore.lean ====
section
/-! DEFINITION. Recipe lanes (chapter 03): states, claims and safe values of the targets, commands, scheduled slots,
critical marks. -/

namespace Sys2Proof.Machine

/-- No image. -/
def noLImg : LImg := ⟨[], [], 0, [], [], 0⟩
/-- A lane after a cold start: EMPTY. -/
def lane0 : Lane :=
  { st := .empty, copy := [], copyLen := 0, img := noLImg, entry := none, limit := false, chained := false, mid := false, stack := []
    crit := false, v0 := 0, due := [], staged := [], late := [], lateT := none, cmds := [], resume := none, judge := false }

/-- A lane, and its replacement. -/
def laneOf (d : Dev) (l : Nat) : Lane := tget lane0 d.lanes l
def setLane (d : Dev) (l : Nat) (x : Lane) : Dev := { d with lanes := tset lane0 d.lanes l x }

/-- The current step index and the elapsed count (SQ_STEP, SQ_ELAPSED). -/
def laneIx (d : Dev) (l : Nat) : Nat := fld (rd d (SQ_STEP l)) 15 0
def laneStep (d : Dev) (l : Nat) : LStep := nth (laneOf d l).img.steps (laneIx d l) default
def laneMarker (d : Dev) (l : Nat) : Nat := fld (rd d (SQ_MARKER l)) 15 0

/-- TB_NS at the next t0, as the present increment gives it (R354): 2000 CLK_TB ticks after TT(n). -/
def nextTT (d : Dev) : Nat := (d.tt * 2 ^ 24 + d.ttFrac + 2000 * rdN d TB_INC) / 2 ^ 24

/-- The target of a lane for an entry. -/
def laneTarget (d : Dev) (l n : Nat) : Option LTarget := (laneOf d l).img.targets.find? (fun t => t.n == n)

/-- A write of a lane to a target: its safe value while SAFE_REQ is 1 (R67). -/
def laneWrite (d : Dev) (l n : Nat) (v : W32) : Dev :=
  match laneTarget d l n with
  | some t => put2 d n (if safeReq d (.sq l) then t.safe else v) false
  | none => d

/-- Every target takes its safe value at the next C2, with the SAFE attribute a fault sets (R22, R67). -/
def laneSafe (d : Dev) (l : Nat) (safe : Bool) : Dev := (laneOf d l).img.targets.foldl (fun d t => put2 d t.n t.safe safe) d

/-- ARMED, FIRED and DISCARDED of a slot (SQ_SCHk_STAT). -/
def slotArmed (d : Dev) (l k : Nat) : Bool := rdBit d (SQ_SCH_STAT l k) 0

/-- The due time with which a slot was armed (SQ_SCHk_CTRL commits SQ_SCHk_TIME, R54, R64). -/
def slotT (d : Dev) (l k : Nat) : Nat := tget 0 (laneOf d l).due k

/-- A slot without an arm in waiting: neither armed, nor late, nor about to be armed. -/
def laneUnarm (x : Lane) (k : Nat) : Lane :=
  { x with late := x.late.filter (· != k), due := x.due.filter (·.1 != k), staged := x.staged.filter (·.1 != k) }

/-- Disarm one slot: an armed slot is no longer armed; a late one waiting is dropped. -/
def disarmSlot (d : Dev) (l k : Nat) : Dev :=
  let d := if slotArmed d l k then wrBit d (SQ_SCH_STAT l k) 0 false else d
  setLane d l (laneUnarm (laneOf d l) k)

/-- Disarm all slots (R89). -/
def disarmAll (d : Dev) (l : Nat) : Dev := (List.range 32).foldl (fun d k => disarmSlot d l k) d

/-- LATEPOL of a slot (SQ_SCHk_CTRL [1]). -/
def latePol (d : Dev) (l k : Nat) : Bool := rdBit d (SQ_SCH_CTRL l k) 1

/-- LATE_ACTION (R88): counted and named; executed at the next tick, or discarded under LATEPOL 1. Its lateness shows at that tick. -/
def lateAction (d : Dev) (l k : Nat) : Dev :=
  let disc := latePol d l k
  let x := laneOf d l
  let d := wrN (bump d (SQ_LATE_CNT l)) (SQ_LATE_SLOT l) (k + 256 * b2n disc)
  let d := wrN d (SQ_SCH_STAT l k) (if disc then 4 else 1)
  setLane d l { x with lateT := some (tget 0 x.due k), late := if disc then x.late.filter (· != k) else x.late.filter (· != k) ++ [k] }

/-- The tick m shows the lateness of the latest late action, TT(m) - T; a negative difference reads 0 (R88). -/
def lateShow (d : Dev) (l : Nat) : Dev :=
  let x := laneOf d l
  match x.lateT with
  | some t => wrN (setLane d l { x with lateT := none }) (SQ_LATE_NS l) (min 0xFFFFFFFF (d.tt - t))
  | none => d

/-- An arm takes effect at C2 with the present due time (R87): late where T is at or before TT(n) + 10,000 ns. -/
def armSlot (d : Dev) (l k : Nat) : Dev :=
  let t := rd64 d (SQ_SCH_TIME l k)
  let x := laneUnarm (laneOf d l) k
  let d := setLane (wrN d (SQ_SCH_STAT l k) 1) l { x with due := tset 0 x.due k t }
  if t ≤ d.tt + 8000 + 2000 then lateAction d l k else d

/-- C2: the arms that the steps of this BP have made, but for the slots that the host has armed or disarmed at it (R87). -/
def commitArms (d : Dev) (l : Nat) : Dev :=
  let x := laneOf d l
  x.staged.foldl (fun d e => armSlot (wr64 d (SQ_SCH_TIME l e.1) e.2) l e.1) (setLane d l { x with staged := [] })

/-- A refused lane command (R66): counted, nothing else changed but ERR_CODE. -/
def laneRefuse (d : Dev) (l code : Nat) : Dev := bump (err d (.sq l) code (SQ_CMD l)) (SQ_CMD_REJ_CNT l)

/-- Leave a step for good: critical mark and stack end (R84, R85). -/
def laneHalt (d : Dev) (l : Nat) (st : LaneSt) : Dev :=
  setLane (disarmAll d l) l { laneOf (disarmAll d l) l with st := st, entry := none, limit := false, chained := false, mid := false, stack := [], crit := false, resume := none }

/-- STOP, RUN = 0, or ABORT without an abort step, from RUNNING or PAUSED (R67): LOADED, targets safe, slots disarmed, marker 0. -/
def laneToLoaded (d : Dev) (l : Nat) : Dev := wrN (laneHalt (laneSafe d l false) l .loaded) (SQ_MARKER l) 0

/-- A cell fault of a lane (R67, R467): FAULT, targets safe with SAFE set, slots disarmed, ERR_ADDR the current step index. -/
def laneFault (d : Dev) (l code : Nat) : Dev :=
  let ix := laneIx d l
  fieldFault (err (laneHalt (laneSafe d l true) l .fault) (.sq l) code ix) (.sq l) code ix 0

/-- Open blocks that contain a step stay open at a transition to it (R84). -/
def keepBlocks (img : LImg) (st : List (Nat × Nat)) (dst : Nat) : List (Nat × Nat) :=
  st.filter (fun r => inBlock (r.1, r.1 + 1, (nth img.steps r.1 default).targetIx) dst)

/-- Send the lane to a step at its next tick, blocks outside closed (R84). -/
def laneGoto (d : Dev) (l dst : Nat) : Dev :=
  let x := laneOf d l
  setLane d l { x with entry := some dst, limit := false, mid := false, stack := keepBlocks x.img x.stack dst }

/-- An EMPTY lane; what waits for its next tick stays. -/
def emptied (x : Lane) : Lane := { lane0 with lateT := x.lateT, cmds := x.cmds }

/-- Release the targets and forget the image (R67). SQ_STEP, SQ_STEP_ID and SQ_RECIPE_ID keep their values (DESIGN CHOICE, log entry
52). -/
def laneEmpty (d : Dev) (l : Nat) : Dev :=
  setLane (wrN (releaseAll d (ownedBy d clsLane l)) (SQ_MARKER l) 0) l (emptied (laneOf d l))

/-- LOAD (R67, R70): the container is read once, verification begins. -/
def laneLoad (d : Dev) (l : Nat) : Dev :=
  if (laneOf d l).st = .empty then
    let len := rdN d (SQ_LOAD_LEN l)
    setLane d l { emptied (laneOf d l) with st := .loading, copy := loadCopy d (rdN d (SQ_LOAD_ADDR l)) len, copyLen := loadLen d (rdN d (SQ_LOAD_ADDR l)) len }
  else laneRefuse d l 0x0101

/-- The image that the authority forwards while a lane's LOAD is verified (R70). -/
def laneForwarded (d : Dev) (l : Nat) (bs : List W8) : Dev :=
  if (laneOf d l).st = .loading then setLane d l { laneOf d l with copy := bs, copyLen := bs.length } else d

/-- A load that ends with a failure code: EMPTY, no claim left (R20, R67). -/
def laneLoadFail (d : Dev) (l code : Nat) : Dev := err (wrN (setLane d l (emptied (laneOf d l))) (SQ_LOAD_RES l) code) (.sq l) 0x0104 (SQ_CMD l)

/-- The loaded image: claims and safe values of the targets, LATEPOL of the slots from the payloads (R67, R76, R463). -/
def laneLoadOk (d : Dev) (l : Nat) (img : LImg) : Dev :=
  let d := img.targets.foldl (fun d t => claim d t.n clsLane l t.wide t.safe) (disarmAll d l)
  let d := (List.range 32).foldl (fun d k => wrN d (SQ_SCH_CTRL l k) (2 * ((nth img.sched k default).flags % 2))) d
  wrN (wrN (setLane d l { emptied (laneOf d l) with st := .loaded, img := img }) (SQ_LOAD_RES l) 0) (SQ_RECIPE_ID l) img.recipe

/-- The end of verification (R70, R294, Table 3-7). -/
def laneVerify (d : Dev) (l : Nat) : Dev :=
  let x := laneOf d l
  if x.st = .loading then
    match containerCheck d x.copy 2 x.copyLen with
    | 0 => match parseLane (bodyOf x.copy) with
      | .ok img => if img.targets.any (fun t => sigTaken d t.n clsLane l) then laneLoadFail d l 10 else laneLoadOk d l img
      | .error c => laneLoadFail d l c
    | c => laneLoadFail d l c
  else d

/-- UNLOAD (R67). -/
def laneUnload (d : Dev) (l : Nat) : Dev :=
  match (laneOf d l).st with
  | .loaded | .done | .fault => laneEmpty (disarmAll d l) l
  | _ => laneRefuse d l 0x0101

/-- The step a START names: index 0 for ARG 0; none where the name is absent or inside a repeat block (R66, R84). -/
def startIx (img : LImg) (arg : Nat) : Option Nat :=
  if arg = 0 then some 0 else
  match nameIx img.steps arg with
  | some i => if (blocksOf img.steps).any (fun b => inBlock b i) then none else some i
  | none => none

/-- START (R66, R67): from LOADED and DONE with RUN = 1; marker 0, stack empty, slots disarmed, the start step entered at
the next tick. run: RUN as it stood when the command took effect. -/
def laneStartAt (run : Bool) (d : Dev) (l arg : Nat) : Dev :=
  let x := laneOf d l
  if (x.st = .loaded ∨ x.st = .done) ∧ run = true then
    match startIx x.img arg with
    | some i =>
      let d := wrN (laneHalt d l .running) (SQ_MARKER l) 0
      setLane d l { laneOf d l with entry := some i }
    | none => laneRefuse d l 0x0107
  else laneRefuse d l 0x0101
def laneStart (d : Dev) (l arg : Nat) : Dev := laneStartAt (runBit d (.sq l)) d l arg

/-- PAUSE and CONTINUE (R67, R69). -/
def lanePause (d : Dev) (l : Nat) : Dev :=
  if (laneOf d l).st = .running then setLane d l { laneOf d l with st := .paused } else laneRefuse d l 0x0101
def laneContinue (d : Dev) (l : Nat) : Dev :=
  if (laneOf d l).st = .paused then setLane d l { laneOf d l with st := .running } else laneRefuse d l 0x0101

/-- STOP (R67). -/
def laneStop (d : Dev) (l : Nat) : Dev :=
  match (laneOf d l).st with
  | .running | .paused => laneToLoaded d l
  | .done => laneToLoaded d l
  | .fault => laneToLoaded d l
  | _ => laneRefuse d l 0x0101

/-- ABORT (R67): to the abort step, or as STOP where the image names none. -/
def laneAbort (d : Dev) (l : Nat) : Dev :=
  let x := laneOf d l
  if x.st = .running ∨ x.st = .paused then
    match x.img.abort with
    | 0 => laneToLoaded d l
    | n => laneGoto (setLane d l { x with st := .running }) l ((nameIx x.img.steps n).getD 0)
  else laneRefuse d l 0x0101

/-- The lane acts on a command (Table 3-2). -/
def laneCommand (run : Bool) (d : Dev) (l : Nat) (v : W32) : Dev :=
  match fld v 3 0 with
  | 0 => d
  | 1 => laneLoad d l
  | 2 => laneUnload d l
  | 3 => laneStartAt run d l (fld v 31 16)
  | 4 => lanePause d l
  | 5 => laneContinue d l
  | 6 => laneStop d l
  | 7 => laneAbort d l
  | _ => laneRefuse d l 0x0106

/-- A write of SQ_CMD takes effect at C2: the lane acts on it at its next tick (R66). -/
def laneQueue (d : Dev) (l : Nat) (v : W32) : Dev :=
  let x := laneOf d l
  setLane d l { x with cmds := x.cmds ++ [(v, runBit d (.sq l))] }

/-- The lane acts on the commands that have taken effect, in their order, each judged against the state the one before left (R66). -/
def laneObeys (d : Dev) (l : Nat) : Dev :=
  let x := laneOf d l
  x.cmds.foldl (fun d c => withCommand d (.sq l) (SQ_CMD l) c.1 (fun d => laneCommand c.2 d l c.1)) (setLane d l { x with cmds := [] })

/-- A write of SQ_SCHk_CTRL: ARM 1 refused in EMPTY, LOADED and FAULT, and of a slot whose payload is NONE (R76, log entry 15);
ARM 0 disarms (R89). -/
def laneArmWrite (d : Dev) (l k : Nat) (v : W32) : Dev :=
  let st := (laneOf d l).st
  if bit v 0 then
    if st = .empty ∨ st = .loaded ∨ st = .fault then err d (.sq l) 0x0101 (SQ_SCH_CTRL l k)
    else if (nth (laneOf d l).img.sched k default).kind = 0 then err d (.sq l) 5 (SQ_SCH_CTRL l k)
    else armSlot (wrN d (SQ_SCH_CTRL l k) (v.toNat % 4)) l k
  else disarmSlot (wrN d (SQ_SCH_CTRL l k) (v.toNat % 4)) l k

/-- A loop cell is in the critical set of a lane whose current step is critical (R85). -/
def cellFrozen (d : Dev) (g : Nat) : Bool :=
  (d.lanes.map (·.2)).any (fun x => x.crit && bit (w32 (nth x.img.cells (g / 8) 0).toNat) (g % 8))

end Sys2Proof.Machine
end

