-- ==== Sys2Proof/Machine/LogicImage.lean ====
section
/-! DEFINITION. The verification of a logic image (R214, R216, R218, R220, R221, R235): body bytes to a program, or a result
code of Table 8-11. -/

namespace Sys2Proof.Machine

/-- The fields of an instruction word (R220). -/
def opcodeOf (w : W32) : Nat := fld w 31 26
def classOf (w : W32) : Nat := fld w 25 24
def areaOf (w : W32) : Nat := fld w 23 20
def addrOf (w : W32) : Nat := fld w 19 0

/-- The shape of an opcode: 1 bit read, 2 bit write, 3 word read, 4 word write, 5 immediate 0, 6 slot, 7 shift, 8 jump,
9 TRIG, 0 reserved (Table 8-7). -/
def opShape (o : Nat) : Nat :=
  if o = 0 then 5 else if o ≤ 7 then 1 else if o ≤ 0x0B then 2 else if o ≤ 0x10 then 5 else if o ≤ 0x1B then 6
  else if o ≤ 0x1F then 0 else if o = 0x20 then 3 else if o ≤ 0x22 then 4 else if o ≤ 0x29 then 3 else if o ≤ 0x2B then 7
  else if o ≤ 0x2F then 3 else if o ≤ 0x37 then 0 else if o ≤ 0x3A then 8 else if o = 0x3B then 9 else if o = 0x3C then 5 else 0

/-- The cycles of an opcode (Table 8-7). -/
def opCycles (o : Nat) : Nat :=
  if 0x11 ≤ o ∧ o ≤ 0x17 then 3 else if 0x18 ≤ o ∧ o ≤ 0x1B then 2 else if o = 0x25 then 2 else if o = 0x26 then 8
  else if 0x38 ≤ o ∧ o ≤ 0x3B then 2 else 1

/-- Class allowed and unused bits 0 (R220): false is BAD_INSN. -/
def insnOk (p : Nat) (tasks : List LTask) (w : W32) : Bool :=
  let c := classOf w
  let v := w.toNat % 2 ^ 24
  match opShape (opcodeOf w) with
  | 1 => decide (c = 0 ∨ c = 3) || (c == 2 && decide (v < 2))
  | 2 => decide (c = 0 ∨ c = 3)
  | 3 => decide (c = 1 ∨ c = 3) || (c == 2 && decide (v < 65536))
  | 4 => decide (c = 1 ∨ c = 3)
  | 5 => c == 2 && v == 0
  | 6 => c == 2 && decide (v < 8192)
  | 7 => c == 2 && decide (v < 16)
  | 8 => c == 2 && decide (v < 131072)
  | 9 => c == 2 && decide (v < 32) && (v % 4 != p || tasks.any (fun t => t.event && t.k == 8 + v / 4))
  | _ => false

/-- Bit and word addresses of an area (Table 8-4): how many of each. -/
def areaBits (a : Nat) : Nat :=
  match a with
  | 0 => 65536 | 1 => 1048576 | 2 => 1048576 | 3 => 262144 | 4 => 16384 | 5 => 8 | _ => 0
def areaWords (a : Nat) : Nat :=
  match a with
  | 0 => 4096 | 1 => 65536 | 2 => 65536 | 3 => 16384 | 4 => 16384 | 5 => 9 | _ => 0

/-- The signal of an S address. -/
def sigOfBit (b : Nat) : Nat := b / 32
def sigOfWord (w : Nat) : Nat := w / 2

/-- The program may write an address of an area (Table 8-4): task's outputs in S, own quarter in H, OV and DZ in F. -/
def mayWrite (p : Nat) (outs : List Nat) (area addr : Nat) (word : Bool) : Bool :=
  match area with
  | 0 | 1 => true
  | 2 => outs.contains (if word then sigOfWord addr else sigOfBit addr)
  | 3 => (if word then addr / 4096 else addr / 65536) == p
  | 5 => !word && decide (addr = 3 ∨ addr = 4)
  | _ => false

/-- The operand of an instruction keeps to Table 8-4 (R220), for a task with these inputs and outputs: false is BAD_OPERAND. No
word of area F can be written, so an indirect word write there is refused as well. -/
def operandOk (p codeLen : Nat) (ins outs : List Nat) (w : W32) : Bool :=
  let c := classOf w
  let a := areaOf w
  let n := addrOf w
  let sh := opShape (opcodeOf w)
  let word := sh == 3 || sh == 4
  let inArea := decide (n < (if word then areaWords a else areaBits a))
  let seen := ins ++ outs
  if sh = 8 then decide (w.toNat % 131072 < codeLen)
  else if sh = 0 ∨ 5 ≤ sh ∨ c = 2 then true
  else if c = 3 then decide (a ≤ 5) && inArea && !((sh == 2 || sh == 4) && a == 4) && !(sh == 4 && a == 5)
  else if sh = 2 ∨ sh = 4 then inArea && mayWrite p outs a n word
  else inArea && (a != 2 || seen.contains (if word then sigOfWord n else sigOfBit n))

/-- Where control goes after an instruction, for the static check of the branch stack (R221). -/
def flowNext (w : W32) (pc : Nat) : List Nat :=
  let o := opcodeOf w
  let t := w.toNat % 131072
  if o = 0x3C then [] else if o = 0x38 then [t] else if o = 0x39 ∨ o = 0x3A then [t, pc + 1] else [pc + 1]

/-- Follow every path of a task: the depth at each instruction (plus 1), or BAD_STACK / BAD_INSN (R221). -/
def walkCode (code : List W32) : Nat → List (Nat × Nat) → Tab Nat → Except Nat (Tab Nat)
  | 0, _, seen => .ok seen
  | _ + 1, [], seen => .ok seen
  | f + 1, (pc, dep) :: work, seen =>
    match tget 0 seen pc with
    | 0 =>
      match code[pc]? with
      | none => .error 5
      | some w =>
        let o := opcodeOf w
        let push := decide (0x0C ≤ o ∧ o ≤ 0x0E)
        let nxt := opcodeOf (nth code (pc + 1) 0)
        if push ∧ (8 ≤ dep ∨ (nxt ≠ 1 ∧ nxt ≠ 2)) then .error 7
        else if o = 0x0F ∧ dep = 0 then .error 7
        else if o = 0x3C ∧ dep ≠ 0 then .error 7
        else
          let dep' := if push then dep + 1 else if o = 0x0F then dep - 1 else dep
          walkCode code f ((flowNext w pc).map (fun q => (q, dep')) ++ work) (tset 0 seen pc (dep + 1))
    | s + 1 => if s = dep then walkCode code f work seen else .error 7

/-- The slots that the instructions of a task name, with the kind each instruction needs (0: any counter; 8: any timer). -/
def slotUse (w : W32) : Option (Nat × Nat) :=
  let o := opcodeOf w
  let s := w.toNat % 8192
  if o = 0x11 then some (s, 6) else if o = 0x12 then some (s, 7) else if o = 0x13 then some (s, 1) else if o = 0x14 then some (s, 2)
  else if o = 0x15 then some (s, 3) else if o = 0x16 then some (s, 4) else if o = 0x17 then some (s, 5)
  else if o = 0x18 ∨ o = 0x19 ∨ o = 0x1B then some (s, 0) else if o = 0x1A then some (s, 8) else none

/-- A slot's kind serves an instruction. -/
def kindFits (kind need : Nat) : Bool :=
  if need = 0 then decide (kind = 4 ∨ kind = 5) else if need = 8 then decide (1 ≤ kind ∧ kind ≤ 3) else kind == need

/-- Iterate the response-time equation of R218 from below. -/
def respTime (c : Nat) (others : List (Nat × Nat)) (limit : Nat) : Nat → Nat → Nat
  | 0, r => r
  | f + 1, r =>
    let r' := c + (others.map (fun o => ((r + 4000 * o.2 - 1) / (4000 * o.2)) * o.1)).foldl (· + ·) 0
    if r' = r ∨ limit < r' then r' else respTime c others limit f r'

/-- C of a task (R218). -/
def taskCost (p : LProg) (t : LTask) : Nat :=
  t.wcet + 40 + (p.ins.filter (fun i => i.k == t.k)).length + (p.outs.filter (fun o => o.k == t.k)).length

/-- Every task meets its response-time limit (R218). -/
def schedOk (p : LProg) : Bool :=
  p.tasks.all (fun t =>
    let others := (p.tasks.filter (fun u => decide (u.k ≠ t.k) && decide (t.prio ≤ u.prio))).map (fun u => (taskCost p u, u.span))
    let limit := 4000 * t.span - 2400
    decide (respTime (taskCost p t) others limit 100000 (taskCost p t) ≤ limit))

/-- Entries of the image's tables. -/
def parseTask (bs : List W8) (o : Nat) : LTask :=
  let ev := num bs o 1 == 2
  { event := ev, k := num bs (o + 1) 1 + 8 * b2n ev, prio := num bs (o + 2) 1, span := num bs (o + 4) 4, entry := num bs (o + 8) 4,
    wcet := num bs (o + 12) 4, pliale := num bs (o + 16) 2 }
def parseInst (bs : List W8) (o : Nat) : LInst := ⟨num bs o 4, num bs (o + 4) 1, num bs (o + 5) 1, num bs (o + 8) 4⟩
def parseSym (bs : List W8) (o : Nat) : LSym :=
  ⟨num bs o 4, num bs (o + 4) 4 / 2 ^ 20 % 16, num bs (o + 4) 4 % 2 ^ 20, num bs (o + 4) 4 / 2 ^ 24 % 2 == 1⟩
def parseIn (bs : List W8) (o : Nat) : LIn := ⟨num bs o 4 % 32768, num bs o 4 / 65536 % 16⟩
def parseOut (bs : List W8) (o : Nat) : LOut := ⟨num bs o 4 % 32768, num bs o 4 / 32768 % 2 == 1, num bs o 4 / 65536 % 16, w32 (num bs (o + 4) 4)⟩

/-- The INIT records in a stretch of bytes; none where one is malformed. -/
def parseInits : Nat → List W8 → Option (List LInit)
  | _, [] => some []
  | 0, _ => none
  | f + 1, bs =>
    let h := num bs 0 4
    let c := num bs 4 2
    let n := 8 + (2 * c + 3) / 4 * 4
    let a := h % 16
    let w0 := h / 16 % 65536
    if c = 0 ∨ bs.length < n ∨ num bs 6 2 ≠ 0 ∨ h / 2 ^ 20 % 2048 ≠ 0 ∨ ¬ (a = 0 ∨ a = 1 ∨ a = 3) ∨ areaWords a < w0 + c
        ∨ zeros bs (8 + 2 * c) (n - 8 - 2 * c) = false then none
    else (parseInits f (bs.drop n)).map (fun t => ⟨a, w0, h / 2 ^ 31 == 1, (List.range c).map (fun i => BitVec.ofNat 16 (num bs (8 + 2 * i) 2))⟩ :: t)

/-- The layout rules of R235. -/
def logicBodyOk (bs : List W8) : Bool :=
  let cl := num bs 0x0C 4
  let ic := num bs 0x18 4
  let sc := num bs 0x20 4
  let nc := num bs 0x28 4
  let oc := num bs 0x30 4
  let tc := num bs 6 2
  num bs 0 4 == 0x5250474C && num bs 4 2 == 1 && decide (64 ≤ bs.length) && decide (1 ≤ tc ∧ tc ≤ 16) && cl % 4 == 0
  && decide (4 ≤ cl ∧ cl ≤ 524288) && decide (ic ≤ 8192) && decide (sc ≤ 65536) && decide (nc ≤ 4096) && decide (oc ≤ 1024) && num bs 0x38 4 % 4 == 0
  && stretchesOk 8 bs.length [(0, 64), (num bs 8 4, cl), (num bs 0x10 4, 32 * tc), (num bs 0x14 4, 16 * ic), (num bs 0x1C 4, 12 * sc),
      (num bs 0x24 4, 4 * nc), (num bs 0x2C 4, 8 * oc), (num bs 0x34 4, num bs 0x38 4)]

/-- Strictly rising. -/
def rising : List Nat → Bool
  | a :: b :: t => decide (a < b) && rising (b :: t)
  | _ => true

/-- The entries are laid out as Tables 8-15 to 8-17 say: reserved bytes 0, PLIALE of an event task 0, symbols ascending (BAD_BODY). -/
def listsOk (bs : List W8) (p : LProg) : Bool :=
  let ks := p.tasks.map (·.k)
  (List.range (num bs 0x28 4)).all (fun i => num bs (num bs 0x24 4 + 4 * i) 4 / 2 ^ 20 == 0 && num bs (num bs 0x24 4 + 4 * i) 4 / 2 ^ 15 % 2 == 0)
  && (List.range (num bs 0x30 4)).all (fun i => num bs (num bs 0x2C 4 + 8 * i) 4 / 2 ^ 20 == 0)
  && (List.range (num bs 6 2)).all (fun i => num bs (num bs 0x10 4 + 32 * i + 3) 1 == 0 && zeros bs (num bs 0x10 4 + 32 * i + 0x12) 14)
  && p.tasks.all (fun t => !t.event || t.pliale == 0)
  && (List.range (num bs 0x18 4)).all (fun i => num bs (num bs 0x14 4 + 16 * i + 6) 2 == 0 && num bs (num bs 0x14 4 + 16 * i + 12) 4 == 0)
  && (List.range (num bs 0x20 4)).all (fun i => num bs (num bs 0x1C 4 + 12 * i + 4) 4 / 2 ^ 25 == 0 && num bs (num bs 0x1C 4 + 12 * i + 8) 4 == 0)
  && p.ins.all (fun i => ks.contains i.k) && p.outs.all (fun o => ks.contains o.k) && decide (p.outs.map (·.n)).Nodup
  && rising (p.syms.map (·.id)) && p.syms.all (fun s => decide (s.area ≤ 3) && decide (s.addr < (if s.word then areaWords s.area else areaBits s.area)))

/-- The task table is right (Table 8-15): kinds, numbers, spans, priorities, entry addresses. -/
def tasksOk (bs : List W8) (p : LProg) : Bool :=
  let o := num bs 0x10 4
  (List.range (num bs 6 2)).all (fun i => decide (1 ≤ num bs (o + 32 * i) 1 ∧ num bs (o + 32 * i) 1 ≤ 2) && decide (num bs (o + 32 * i + 1) 1 ≤ 7))
  && decide (p.tasks.map (·.k)).Nodup
  && p.tasks.all (fun t => decide (t.prio ≤ 15) && decide (10 ≤ t.span ∧ t.span ≤ 1000000) && t.span % 10 == 0 && decide (t.entry < p.code.length))

/-- The instance table is right (Table 8-16). -/
def instsOk (p : LProg) : Bool :=
  p.insts.all (fun i => decide (1 ≤ i.kind ∧ i.kind ≤ 7) && (if i.kind ≤ 3 then decide (i.base ≤ 3) else i.base == 0)
      && (decide (i.kind ≤ 3) || decide (i.preset < 65536)))
  && decide (p.insts.map (·.id)).Nodup

/-- The instructions a task executes: the addresses its paths reach; none where its entry lies beyond the code (BAD_TASK later). -/
def reachOf (code : List W32) (entry : Nat) : Except Nat (Tab Nat) := 
  if entry < code.length then walkCode code (3 * code.length + 8) [(entry, 0)] [] else .ok []

/-- Every instance is executed by one task only, and by instructions of its own kind (Table 8-11, BAD_INST). -/
def instUseOk (p : LProg) (reach : List (List Nat)) : Bool :=
  let uses := reach.map (fun pcs => pcs.filterMap (fun pc => slotUse (nth p.code pc 0)))
  uses.all (fun us => us.all (fun u => match p.insts[u.1]? with | some i => kindFits i.kind u.2 | none => false))
  && (List.range p.insts.length).all (fun s => decide ((uses.filter (fun us => us.any (fun u => u.1 == s))).length ≤ 1))

/-- A logic body for processor n: a program, or the first failing code of Table 8-11 in the table's order. -/
def parseLogic (n : Nat) (bs : List W8) : Except Nat LProg :=
  if logicBodyOk bs = false then .error 4
  else
    let rows (off cnt size : Nat) : List Nat := (List.range cnt).map (fun i => off + size * i)
    match parseInits (bs.length + 1) ((bs.drop (num bs 0x34 4)).take (num bs 0x38 4)) with
    | none => .error 4
    | some inits =>
      let p : LProg :=
        { tasks := (rows (num bs 0x10 4) (num bs 6 2) 32).map (parseTask bs), code := words32 ((bs.drop (num bs 8 4)).take (num bs 0x0C 4)),
          insts := (rows (num bs 0x14 4) (num bs 0x18 4) 16).map (parseInst bs), syms := (rows (num bs 0x1C 4) (num bs 0x20 4) 12).map (parseSym bs),
          ins := (rows (num bs 0x24 4) (num bs 0x28 4) 4).map (parseIn bs), outs := (rows (num bs 0x2C 4) (num bs 0x30 4) 8).map (parseOut bs),
          inits := inits, id := num bs 0x3C 4 }
      if listsOk bs p = false then .error 4
      else if p.code.all (insnOk n p.tasks) = false then .error 5
      else
        let walks := p.tasks.map (fun t => reachOf p.code t.entry)
        let reach := walks.map (fun r => match r with | .ok t => tkeys t | .error _ => [])
        let opsOk := (p.tasks.zip reach).all (fun q =>
          let ins := (p.ins.filter (fun i => i.k == q.1.k)).map (·.n)
          let outs := (p.outs.filter (fun o => o.k == q.1.k)).map (·.n)
          q.2.all (fun pc => operandOk n p.code.length ins outs (nth p.code pc 0)))
        if walks.any (fun r => match r with | .error 5 => true | _ => false) then .error 5
        else if opsOk = false ∨ p.code.all (operandOk n p.code.length (p.ins.map (·.n)) (p.outs.map (·.n))) = false then .error 6
        else if walks.any (fun r => match r with | .error _ => true | _ => false) then .error 7
        else if tasksOk bs p = false then .error 8
        else if schedOk p = false then .error 9
        else if instsOk p = false ∨ instUseOk p reach = false then .error 10
        else .ok p

/-- The least common multiple of the cyclic periods of a program. -/
def progLcm (p : LProg) : Nat := ((p.tasks.filter (fun t => !t.event)).map (·.span)).foldl Nat.lcm 1

end Sys2Proof.Machine
end

