-- ==== Sys2Proof/Machine/LogicCore.lean ====
section
/-! DEFINITION. Logic processors (chapter 08): areas, forces, timers and counters, the effect of each instruction. -/

namespace Sys2Proof.Machine

/-- No program. -/
def noProg : LProg := ⟨[], [], [], [], [], [], [], 0⟩
/-- A processor after a cold start: EMPTY, memories 0. -/
def lp0 : Lp := ⟨.empty, .none, false, noProg, noProg, [], 0, [], [], [], [], [], [], [], 0, false, 0, none, 0, 0, []⟩
/-- A slot the program does not use. -/
def slot0 : Slot := ⟨0, false, false, false, 0, 0, 0⟩
/-- What a task keeps at entry into RUNNING (R212): OV, DZ and the count 0. -/
def keep0 : TKeep := ⟨false, false, 0, false, false, false, false, false⟩

/-- A processor, and its replacement. -/
def lpOf (d : Dev) (p : Nat) : Lp := tget lp0 d.lps p
def setLp (d : Dev) (p : Nat) (x : Lp) : Dev := { d with lps := tset lp0 d.lps p x }
/-- A task's kept part, and its replacement. -/
def keepOf (x : Lp) (k : Nat) : TKeep := tget keep0 x.keep k
def setKeep (x : Lp) (k : Nat) (t : TKeep) : Lp := { x with keep := tset keep0 x.keep k t }
/-- The instance of a task released and not past its deadline. -/
def instOf (x : Lp) (k : Nat) : Option TInst := x.insts.find? (fun t => t.k == k)
def setInst (x : Lp) (t : TInst) : Lp := { x with insts := x.insts.map (fun u => if u.k = t.k then t else u) }
/-- Add or replace an entry of an association list: the latest value written. -/
def aput {α : Type} (l : List (Nat × α)) (n : Nat) (v : α) : List (Nat × α) := (n, v) :: l.filter (fun e => e.1 != n)
/-- A slot as committed. -/
def slotOf (x : Lp) (i : Nat) : Slot := tget slot0 x.slots i
/-- The output entries of a task. -/
def outsOf (x : Lp) (k : Nat) : List LOut := x.prog.outs.filter (fun o => o.k == k)
def insOf (x : Lp) (k : Nat) : List LIn := x.prog.ins.filter (fun i => i.k == k)
/-- The task entry of number k. -/
def taskOf (x : Lp) (k : Nat) : Option LTask := x.prog.tasks.find? (fun t => t.k == k)

/-! ### Forces (R229) -/

/-- The symbol of an ID in a program. -/
def symOf (pr : LProg) (id : Nat) : Option LSym := pr.syms.find? (fun s => s.id == id)

/-- The bits of a word address that a force holds, and their values. -/
def forceBits (x : Lp) (area wa : Nat) : W16 × W16 :=
  x.forces.foldl (fun mv f =>
    match symOf x.prog f.1 with
    | some s =>
      if s.area ≠ area then mv
      else if s.word then (if s.addr = wa then (0xFFFF#16, BitVec.ofNat 16 f.2) else mv)
      else if s.addr / 16 = wa then
        let m : W16 := BitVec.ofNat 16 (2 ^ (s.addr % 16))
        (mv.1 ||| m, (mv.2 &&& ~~~m) ||| (if f.2 % 2 = 1 then m else 0))
      else mv
    | none => mv) (0, 0)

/-- A word as read through the forces. -/
def forced (x : Lp) (area wa : Nat) (v : W16) : W16 :=
  let mv := forceBits x area wa
  (v &&& ~~~mv.1) ||| (mv.2 &&& mv.1)

/-- A word as a write leaves it: forced bits keep what they hold. -/
def keepForced (x : Lp) (area wa : Nat) (old new : W16) : W16 :=
  let mv := forceBits x area wa
  (old &&& mv.1) ||| (new &&& ~~~mv.1)

/-- The two halves of an entry, and an entry from them. -/
def halfOf (v : W32) (hi : Bool) : W16 := if hi then BitVec.ofNat 16 (v.toNat / 65536) else BitVec.ofNat 16 v.toNat
def ofHalves (lo hi : W16) : W32 := w32 (lo.toNat + 65536 * hi.toNat)

/-- An export as it is committed: a forced one carries the force value (R229). -/
def forceExport (x : Lp) (n : Nat) (v : W32) : W32 :=
  ofHalves (forced x 2 (2 * n) (halfOf v false)) (forced x 2 (2 * n + 1) (halfOf v true))

/-! ### Timers, counters and edge detectors (R223 to R225) -/

/-- The unit of a BASE in BP (Table 8-16). -/
def unitBp (base : Nat) : Nat := if base = 0 then 10 else if base = 1 then 100 else if base = 2 then 1000 else 100000

/-- ET = min(PT, (now - start) / unit), rounded down (R223). -/
def etOf (s : Slot) (now : Nat) : Nat := min s.preset.toNat ((now - s.val.toNat) / unitBp s.base)

/-- ET as the T area shows it: 0 for TON with IN = 0 and TOF with IN = 1 (Table 8-8), and before a new slot's first
execution (R234). -/
def etSeen (s : Slot) (now : Nat) : Nat :=
  if s.init = true ∨ (s.kind = 1 ∧ s.inp = false) ∨ (s.kind = 2 ∧ s.inp = true) then 0 else etOf s now

/-- A timer at its execution: the last input of a new one is the present one, and its ET is 0 (R225, R234; log entry 13). -/
def timerExec (s : Slot) (lb : Bool) (now : Nat) : Slot × Bool :=
  let last := if s.init then lb else s.inp
  let s := if s.init then { s with init := false, val := (now : Int) } else s
  let rise := lb && !last
  let fall := !lb && last
  if s.kind = 1 then
    let s := if rise then { s with val := (now : Int) } else s
    let q := lb && decide (s.preset.toNat ≤ etOf s now)
    ({ s with inp := lb, q := q }, q)
  else if s.kind = 2 then
    let s := if fall then { s with val := (now : Int) } else s
    let q := lb || decide (etOf s now < s.preset.toNat)
    ({ s with inp := lb, q := q }, q)
  else
    let s := if rise && !s.q then { s with val := (now : Int), q := true } else s
    let q := s.q && decide (etOf s now < s.preset.toNat)
    ({ s with inp := lb, q := q }, q)

/-- A counter at its execution (R224). -/
def counterExec (s : Slot) (lb : Bool) : Slot × Bool :=
  let last := if s.init then lb else s.inp
  let rise := lb && !last
  let cv := if rise then (if s.kind = 4 then min (s.val + 1) 32767 else max (s.val - 1) (-32768)) else s.val
  ({ s with inp := lb, init := false, val := cv }, if s.kind = 4 then decide (s.preset ≤ cv) else decide (cv ≤ 0))

/-- An edge detector at its execution (R225). -/
def edgeExec (s : Slot) (lb : Bool) : Slot × Bool :=
  let r := if s.init then false else if s.kind = 6 then lb && !s.inp else s.inp && !lb
  ({ s with inp := lb, init := false }, r)

/-! ### Areas (R212, R215, R222) -/

/-- What an instruction works on: processor number, the rest of the module, the processor, the instance, the instruction's
address. -/
structure LCtx where
  p : Nat
  d : Dev
  x : Lp
  t : TInst
  pc : Nat

/-- A slot as the instance sees it: its own staged state, else the committed one (R215). -/
def slotIn (c : LCtx) (i : Nat) : Slot := (tfind c.t.sl i).getD (slotOf c.x i)
def putSlot (c : LCtx) (i : Nat) (s : Slot) : LCtx := { c with t := { c.t with sl := aput c.t.sl i s } }

/-- An entry in the task's signal image, its own output as latest written (R215). -/
def imageOf (c : LCtx) (n : Nat) : W32 := (tfind c.t.outs n).getD (tget 0 c.t.image n)

/-- The word at a word address, before forces. -/
def rawWord (c : LCtx) (area wa : Nat) : W16 :=
  match area with
  | 0 => tget 0 c.x.m wa
  | 1 => tget 0 c.x.w wa
  | 2 => halfOf (imageOf c (wa / 2)) (wa % 2 == 1)
  | 3 => if wa / 4096 = c.p then tget 0 c.x.h wa else tget 0 c.t.h wa
  | 4 =>
    let s := slotIn c (wa / 2)
    if wa % 2 = 1 then BitVec.ofInt 16 s.preset
    else if s.kind ≤ 3 then BitVec.ofNat 16 (etSeen s c.t.rel) else if s.kind ≤ 5 then BitVec.ofInt 16 s.val else 0
  | _ =>
    if wa < 4 then BitVec.ofNat 16 (c.t.rel / 65536 ^ wa)
    else if wa = 4 then BitVec.ofNat 16 c.p
    else if wa = 5 then BitVec.ofNat 16 c.t.k
    else if wa = 6 then BitVec.ofNat 16 (min c.x.offMs 0xFFFFFFFF)
    else if wa = 7 then BitVec.ofNat 16 (min c.x.offMs 0xFFFFFFFF / 65536)
    else BitVec.ofNat 16 (keepOf c.x c.t.k).count

/-- The word an instruction reads (R229). -/
def readWord (c : LCtx) (area wa : Nat) : W16 := forced c.x area wa (rawWord c area wa)

/-- The F flags (Table 8-5). -/
def flagOf (c : LCtx) (b : Nat) : Bool :=
  let k := keepOf c.x c.t.k
  match b with
  | 0 => c.t.first
  | 1 => true
  | 3 => k.ov
  | 4 => k.dz
  | 5 => c.t.changed
  | 6 => c.t.resumed
  | 7 => c.t.synced
  | _ => false

/-- The bit an instruction reads. -/
def readBit (c : LCtx) (area b : Nat) : Bool :=
  match area with
  | 4 => if b % 2 = 0 then (slotIn c (b / 2)).q else (slotIn c (b / 2)).inp
  | 5 => flagOf c b
  | _ => (readWord c area (b / 16)).getLsbD (b % 16)

/-- Store a word in M, W, S or H; forced bits keep what they hold. -/
def writeWord (c : LCtx) (area wa : Nat) (v : W16) : LCtx :=
  let v := keepForced c.x area wa (rawWord c area wa) v
  match area with
  | 0 => { c with x := { c.x with m := tset 0 c.x.m wa v } }
  | 1 => { c with x := { c.x with w := tset 0 c.x.w wa v } }
  | 2 =>
    let o := imageOf c (wa / 2)
    let o' := if wa % 2 = 1 then ofHalves (halfOf o false) v else ofHalves v (halfOf o true)
    { c with t := { c.t with outs := aput c.t.outs (wa / 2) o' } }
  | 3 => { c with x := { c.x with h := tset 0 c.x.h wa v }, t := { c.t with hw := aput c.t.hw wa v } }
  | _ => c

/-- Store a bit; in F only OV and DZ. -/
def writeBit (c : LCtx) (area b : Nat) (v : Bool) : LCtx :=
  match area with
  | 5 =>
    let k := keepOf c.x c.t.k
    { c with x := setKeep c.x c.t.k (if b = 3 then { k with ov := v } else { k with dz := v }) }
  | _ =>
    let o := rawWord c area (b / 16)
    let m : W16 := BitVec.ofNat 16 (2 ^ (b % 16))
    writeWord c area (b / 16) (if v then o ||| m else o &&& ~~~m)

/-- The address of an operand: base, plus X for class 3 (R220). -/
def operandAddr (c : LCtx) (w : W32) : Nat := addrOf w + (if classOf w = 3 then c.t.x.toNat else 0)

/-- The address lies inside its area, and may be read: in S, the task's inputs and outputs (log entry 14). -/
def inArea (c : LCtx) (w : W32) (word : Bool) : Bool :=
  let a := areaOf w
  let n := operandAddr c w
  decide (n < (if word then areaWords a else areaBits a))
    && (a != 2 || ((insOf c.x c.t.k).map (·.n) ++ (outsOf c.x c.t.k).map (·.n)).contains (if word then sigOfWord n else sigOfBit n))

/-- The same for a write: what Table 8-4 lets the program write. -/
def inWrite (c : LCtx) (w : W32) (word : Bool) : Bool :=
  inArea c w word && mayWrite c.p ((outsOf c.x c.t.k).map (·.n)) (areaOf w) (operandAddr c w) word

/-- An indirect access outside its area (R222). -/
def idxMiss (c : LCtx) : LCtx := { c with d := wrN (bump c.d (LP_IDX_CNT c.p)) (LP_IDX_LAST c.p) (c.pc % 2 ^ 17) }

/-- The value v of a bit instruction, and of a word instruction. -/
def bitV (c : LCtx) (w : W32) : Bool × LCtx :=
  if classOf w = 2 then (bit w 0, c)
  else if inArea c w false then (readBit c (areaOf w) (operandAddr c w), c) else (false, idxMiss c)
def wordV (c : LCtx) (w : W32) : W16 × LCtx :=
  if classOf w = 2 then (BitVec.ofNat 16 w.toNat, c)
  else if inArea c w true then (readWord c (areaOf w) (operandAddr c w), c) else (0, idxMiss c)

/-- op := a bit, op := a word. -/
def storeBit (c : LCtx) (w : W32) (v : Bool) : LCtx :=
  if inWrite c w false then writeBit c (areaOf w) (operandAddr c w) v else idxMiss c
def storeWord (c : LCtx) (w : W32) (v : W16) : LCtx :=
  if inWrite c w true then writeWord c (areaOf w) (operandAddr c w) v else idxMiss c

/-! ### The registers of an instance -/

def setLB (c : LCtx) (b : Bool) : LCtx := { c with t := { c.t with lb := b } }
def setACC (c : LCtx) (v : W16) : LCtx := { c with t := { c.t with acc := v } }
def setX (c : LCtx) (v : W16) : LCtx := { c with t := { c.t with x := v } }
/-- A jump within the bank. -/
def setPC (c : LCtx) (a : Nat) : LCtx := { c with t := { c.t with pc := a } }
/-- OV and DZ, sticky. -/
def raiseOV (c : LCtx) (b : Bool) : LCtx := if b then writeBit c 5 3 true else c
def raiseDZ (c : LCtx) : LCtx := writeBit c 5 4 true
/-- Push (LB, operation) (R221: the loader bounds the depth). -/
def pushLB (c : LCtx) (f : Nat) : LCtx := { c with t := { c.t with stack := (c.t.lb, f) :: c.t.stack } }
/-- The slot of a slot instruction, and the PT or address immediates. -/
def slotNo (w : W32) : Nat := w.toNat % 8192
def jumpTo (w : W32) : Nat := w.toNat % 131072

/-! ### The effect of each instruction (Table 8-7) -/

/-- Saturation to 16 bits. -/
def sat16 (i : Int) : Int := clampI (-32768) 32767 i
/-- A result that saturates, with OV (MUL), and one that wraps, with OV on signed overflow (ADD, SUB). -/
def accSat (c : LCtx) (i : Int) : LCtx := raiseOV (setACC c (BitVec.ofInt 16 (sat16 i))) (sat16 i != i)
def accWrap (c : LCtx) (i : Int) : LCtx := raiseOV (setACC c (BitVec.ofInt 16 i)) (sat16 i != i)

def insnNOP (c : LCtx) (_ : W32) : LCtx := c
def insnLD (c : LCtx) (w : W32) : LCtx := let v := bitV c w; setLB v.2 v.1
def insnLDN (c : LCtx) (w : W32) : LCtx := let v := bitV c w; setLB v.2 (!v.1)
def insnAND (c : LCtx) (w : W32) : LCtx := let v := bitV c w; setLB v.2 (c.t.lb && v.1)
def insnANDN (c : LCtx) (w : W32) : LCtx := let v := bitV c w; setLB v.2 (c.t.lb && !v.1)
def insnOR (c : LCtx) (w : W32) : LCtx := let v := bitV c w; setLB v.2 (c.t.lb || v.1)
def insnORN (c : LCtx) (w : W32) : LCtx := let v := bitV c w; setLB v.2 (c.t.lb || !v.1)
def insnXOR (c : LCtx) (w : W32) : LCtx := let v := bitV c w; setLB v.2 (c.t.lb != v.1)
def insnST (c : LCtx) (w : W32) : LCtx := storeBit c w c.t.lb
def insnSTN (c : LCtx) (w : W32) : LCtx := storeBit c w (!c.t.lb)
def insnSET (c : LCtx) (w : W32) : LCtx := if c.t.lb then storeBit c w true else c
def insnRST (c : LCtx) (w : W32) : LCtx := if c.t.lb then storeBit c w false else c
def insnANDP (c : LCtx) (_ : W32) : LCtx := pushLB c 0
def insnORP (c : LCtx) (_ : W32) : LCtx := pushLB c 1
def insnXORP (c : LCtx) (_ : W32) : LCtx := pushLB c 2
def insnPOP (c : LCtx) (_ : W32) : LCtx :=
  match c.t.stack with
  | [] => c
  | (s, f) :: r =>
    let c' := { c with t := { c.t with stack := r } }
    setLB c' (if f = 0 then s && c.t.lb else if f = 1 then s || c.t.lb else s != c.t.lb)
def insnNOT (c : LCtx) (_ : W32) : LCtx := setLB c (!c.t.lb)
def insnRED (c : LCtx) (w : W32) : LCtx := let r := edgeExec (slotIn c (slotNo w)) c.t.lb; setLB (putSlot c (slotNo w) r.1) r.2
def insnFED (c : LCtx) (w : W32) : LCtx := let r := edgeExec (slotIn c (slotNo w)) c.t.lb; setLB (putSlot c (slotNo w) r.1) r.2
def insnTON (c : LCtx) (w : W32) : LCtx := let r := timerExec (slotIn c (slotNo w)) c.t.lb c.t.rel; setLB (putSlot c (slotNo w) r.1) r.2
def insnTOF (c : LCtx) (w : W32) : LCtx := let r := timerExec (slotIn c (slotNo w)) c.t.lb c.t.rel; setLB (putSlot c (slotNo w) r.1) r.2
def insnTP (c : LCtx) (w : W32) : LCtx := let r := timerExec (slotIn c (slotNo w)) c.t.lb c.t.rel; setLB (putSlot c (slotNo w) r.1) r.2
def insnCTU (c : LCtx) (w : W32) : LCtx := let r := counterExec (slotIn c (slotNo w)) c.t.lb; setLB (putSlot c (slotNo w) r.1) r.2
def insnCTD (c : LCtx) (w : W32) : LCtx := let r := counterExec (slotIn c (slotNo w)) c.t.lb; setLB (putSlot c (slotNo w) r.1) r.2
def insnCRS (c : LCtx) (w : W32) : LCtx := if c.t.lb then putSlot c (slotNo w) { slotIn c (slotNo w) with val := 0 } else c
def insnCLD (c : LCtx) (w : W32) : LCtx :=
  if c.t.lb then putSlot c (slotNo w) { slotIn c (slotNo w) with val := (slotIn c (slotNo w)).preset } else c
def insnLPT (c : LCtx) (w : W32) : LCtx := putSlot c (slotNo w) { slotIn c (slotNo w) with preset := (c.t.acc.toNat : Int) }
def insnLPV (c : LCtx) (w : W32) : LCtx := putSlot c (slotNo w) { slotIn c (slotNo w) with preset := c.t.acc.toInt }
def insnLDW (c : LCtx) (w : W32) : LCtx := let v := wordV c w; setACC v.2 v.1
def insnSTW (c : LCtx) (w : W32) : LCtx := storeWord c w c.t.acc
def insnSTWC (c : LCtx) (w : W32) : LCtx := if c.t.lb then storeWord c w c.t.acc else c
def insnADD (c : LCtx) (w : W32) : LCtx := let v := wordV c w; accWrap v.2 (c.t.acc.toInt + v.1.toInt)
def insnSUB (c : LCtx) (w : W32) : LCtx := let v := wordV c w; accWrap v.2 (c.t.acc.toInt - v.1.toInt)
def insnMUL (c : LCtx) (w : W32) : LCtx := let v := wordV c w; accSat v.2 (c.t.acc.toInt * v.1.toInt)
def insnDIV (c : LCtx) (w : W32) : LCtx :=
  let v := wordV c w
  if v.1 = 0 then raiseDZ (setACC v.2 0) else accSat v.2 (Int.tdiv c.t.acc.toInt v.1.toInt)
def insnANDW (c : LCtx) (w : W32) : LCtx := let v := wordV c w; setACC v.2 (c.t.acc &&& v.1)
def insnORW (c : LCtx) (w : W32) : LCtx := let v := wordV c w; setACC v.2 (c.t.acc ||| v.1)
def insnXORW (c : LCtx) (w : W32) : LCtx := let v := wordV c w; setACC v.2 (c.t.acc ^^^ v.1)
def insnSHL (c : LCtx) (w : W32) : LCtx := setACC c (c.t.acc <<< (w.toNat % 16))
def insnSHR (c : LCtx) (w : W32) : LCtx := setACC c (c.t.acc.sshiftRight (w.toNat % 16))
def insnCEQ (c : LCtx) (w : W32) : LCtx := let v := wordV c w; setLB v.2 (c.t.acc == v.1)
def insnCGT (c : LCtx) (w : W32) : LCtx := let v := wordV c w; setLB v.2 (decide (v.1.toInt < c.t.acc.toInt))
def insnCLT (c : LCtx) (w : W32) : LCtx := let v := wordV c w; setLB v.2 (decide (c.t.acc.toInt < v.1.toInt))
def insnLDX (c : LCtx) (w : W32) : LCtx := let v := wordV c w; setX v.2 v.1
def insnJMP (c : LCtx) (w : W32) : LCtx := setPC c (jumpTo w)
def insnJC (c : LCtx) (w : W32) : LCtx := if c.t.lb then setPC c (jumpTo w) else c
def insnJNC (c : LCtx) (w : W32) : LCtx := if c.t.lb then c else setPC c (jumpTo w)
/-- TRIG (R216): the trigger takes effect at the next C2. -/
def insnTRIG (c : LCtx) (w : W32) : LCtx :=
  if c.t.lb then { c with d := { c.d with trigs := c.d.trigs ++ [⟨c.p, c.pc, w.toNat % 4, w.toNat / 4 % 8⟩] } } else c
/-- END: the instance is complete; LAST and PEAK of its task (Table 8-1). -/
def insnEND (c : LCtx) (_ : W32) : LCtx :=
  let a := LP_TK_PEAK c.p c.t.k
  let resp := min 0xFFFFFFFF ((bp c.d - c.t.rel) * 4000 + c.x.at_)
  let d := wrN (wrN c.d (LP_TK_LAST c.p c.t.k) (min 0xFFFFFFFF c.t.cyc)) a (max (rdN c.d a) resp)
  { c with d := d, t := { c.t with ended := true } }

/-- The effect of an opcode; a word that the loader refuses has none. -/
def insnOf (o : Nat) : LCtx → W32 → LCtx :=
  match o with
  | 0x01 => insnLD | 0x02 => insnLDN | 0x03 => insnAND | 0x04 => insnANDN | 0x05 => insnOR | 0x06 => insnORN | 0x07 => insnXOR
  | 0x08 => insnST | 0x09 => insnSTN | 0x0A => insnSET | 0x0B => insnRST | 0x0C => insnANDP | 0x0D => insnORP | 0x0E => insnXORP
  | 0x0F => insnPOP | 0x10 => insnNOT | 0x11 => insnRED | 0x12 => insnFED | 0x13 => insnTON | 0x14 => insnTOF | 0x15 => insnTP
  | 0x16 => insnCTU | 0x17 => insnCTD | 0x18 => insnCRS | 0x19 => insnCLD | 0x1A => insnLPT | 0x1B => insnLPV | 0x20 => insnLDW
  | 0x21 => insnSTW | 0x22 => insnSTWC | 0x23 => insnADD | 0x24 => insnSUB | 0x25 => insnMUL | 0x26 => insnDIV | 0x27 => insnANDW
  | 0x28 => insnORW | 0x29 => insnXORW | 0x2A => insnSHL | 0x2B => insnSHR | 0x2C => insnCEQ | 0x2D => insnCGT | 0x2E => insnCLT
  | 0x2F => insnLDX | 0x38 => insnJMP | 0x39 => insnJC | 0x3A => insnJNC | 0x3B => insnTRIG | 0x3C => insnEND
  | _ => insnNOP

/-! ### Execution (R217) -/

/-- The rank of a task among the released ones: priority, then cyclic before event, then the lower number (R217). -/
def rankOf (x : Lp) (k : Nat) : Nat := ((taskOf x k).getD default).prio * 16 + (15 - k)

/-- The released, unfinished instance of highest priority. -/
def nextInst (x : Lp) : Option TInst :=
  x.insts.foldl (fun b t =>
    if t.ended then b else match b with
      | none => some t
      | some u => if rankOf x u.k < rankOf x t.k then some t else b) none

/-- The cost of a change of task before the next instruction: 20 cycles for a pre-emption, 20 for a resumption (R217). -/
def switchCost (x : Lp) (t : TInst) : Nat :=
  if x.current = some t.k then 0
  else
    (match x.current with
      | some k => (match instOf x k with | some u => if u.ended then 0 else 20 | none => 0)
      | none => 0)
    + (if t.cyc = 0 then 0 else 20)

/-- The instruction that the processor executes next, if it runs one. -/
def nextInsn (d : Dev) (p : Nat) : Option (TInst × W32) :=
  let x := lpOf d p
  if x.st = .running then (nextInst x).map (fun t => (t, nth x.prog.code t.pc 0)) else none

/-- Execute the instruction word w of instance t with an effect f: address and cycles first, then the effect. -/
def runInsn (f : LCtx → W32 → LCtx) (d : Dev) (p : Nat) (t : TInst) (w : W32) : Dev :=
  let x := lpOf d p
  let cy := opCycles (opcodeOf w)
  let x1 := { x with at_ := x.at_ + switchCost x t + cy, current := some t.k }
  let c := f ⟨p, d, x1, { t with pc := t.pc + 1, cyc := t.cyc + cy }, t.pc⟩ w
  setLp c.d p (setInst c.x c.t)

/-- The next instruction of processor p, if its opcode is o. -/
def lpInsn (o : Nat) (f : LCtx → W32 → LCtx) (d : Dev) (p : Nat) : Dev :=
  match nextInsn d p with
  | some (t, w) => if opcodeOf w = o then runInsn f d p t w else d
  | none => d

/-- Execute up to a cycle of the BP; a processor without work waits. -/
def lpRunTo (p limit : Nat) : Nat → Dev → Dev
  | 0, d => d
  | n + 1, d =>
    let x := lpOf d p
    if limit ≤ x.at_ then d
    else match nextInsn d p with
      | some (t, w) => lpRunTo p limit n (runInsn (insnOf (opcodeOf w)) d p t w)
      | none => setLp d p { x with at_ := limit }

end Sys2Proof.Machine
end

