-- ==== Sys2Proof/Machine/Logic.lean ====
section
/-! DEFINITION. Logic processors (chapter 08): tasks, triggers, forces, loading, on-line change. -/

namespace Sys2Proof.Machine

/-- LP_STAT (08). -/
def lpStat (d : Dev) (p : Nat) : Nat :=
  let x := lpOf d p
  let st := match x.st with
    | .empty => 0 | .loading => 1 | .loaded => 2 | .running => 3 | .quarantined => 4 | .held => 5
  let sg := match x.stage with
    | .none => 0 | .verifying => 1 | .staged => 2 | .pending => 3
  st + 8 * sg + 32 * b2n x.bank + 64 * b2n (!x.forces.isEmpty)
    + 65536 * (x.insts.map (fun t => 2 ^ t.k)).foldl (· + ·) 0

/-- LP_CHG_AT while CHG_PEND: the planned change point (R210, R232). -/
def lpChgAt (d : Dev) (p off : Nat) : Option Nat :=
  let x := lpOf d p
  if x.stage = .pending then some (if off = 0x128 then x.chgAt else x.chgAt / 2 ^ 32) else none

/-- Every export takes its safe value at the next C2 (R219, R230). -/
def lpSafe (d : Dev) (p : Nat) (safe : Bool) : Dev := (lpOf d p).prog.outs.foldl (fun d o => put2 d o.n o.safe safe) d

/-- The forces at a C2 (R229): a staged export whose symbol is forced carries the force value, unless it takes its safe value with
SAFE. The force commands of that C2 have been carried out before. -/
def forceStaged (d : Dev) : Dev :=
  { d with stage2 := d.stage2.map (fun w =>
      if fld (attrOf d w.n) 23 16 = clsLp ∧ w.safe = false then { w with v := forceExport (lpOf d (fld (attrOf d w.n) 15 0)) w.n w.v } else w) }

/-- A refused processor command (R211). -/
def lpRefuse (d : Dev) (p code : Nat) : Dev := err d (.lp p) code (LP_CMD p)

/-- Quarantine (R219, R230). -/
def lpQuarantine (d : Dev) (p code addr : Nat) : Dev :=
  let d := err (lpSafe d p true) (.lp p) code addr
  setLp d p { lpOf d p with st := .quarantined, insts := [], current := none }

/-- LP_MEMORY_UE: an uncorrectable error at a window offset (R230, R467). -/
def lpMemoryUe (d : Dev) (p off : Nat) : Dev :=
  if (lpOf d p).st = .quarantined then d else tileQuar (lpQuarantine d p 0x0604 off) (.lp p) 0x0604 off

/-- The device enters Held (R230). -/
def lpHold (d : Dev) (p : Nat) : Dev :=
  if (lpOf d p).st = .running then
    let d := lpSafe d p false
    setLp d p { lpOf d p with st := .held }
  else d

/-! ### Releases and deadlines (R214 to R219) -/

/-- A task of a running processor is due for release in this BP: a cyclic one by the grid, an event one that is pending;
none that still has an instance before its deadline. -/
def lpDue (d : Dev) (p : Nat) (t : LTask) : Bool :=
  let x := lpOf d p
  x.st == .running && (instOf x t.k).isNone && (if t.event then (keepOf x t.k).pend else dueAt (bp d) t.span 0)

/-- The instance that a release makes: the signal image, the shared area as committed, the flags of the task. -/
def mkInst (d : Dev) (p : Nat) (t : LTask) : TInst :=
  let x := lpOf d p
  let k := keepOf x t.k
  let ns := (insOf x t.k).map (·.n) ++ (outsOf x t.k).map (·.n)
  { k := t.k, rel := bp d, dead := bp d + t.span - 1, image := ns.foldl (fun m n => tset 0 m n (sigVal d n)) [], outs := [], hw := [],
    sl := [], h := d.shared, lb := false, stack := [], acc := 0, x := 0, pc := t.entry, ended := false, cyc := 0, first := k.first,
    changed := k.changed, resumed := k.resumed, synced := k.synced }

/-- TASK_RELEASE (R215). -/
def taskRelease (d : Dev) (p k : Nat) : Dev :=
  match taskOf (lpOf d p) k with
  | some t =>
    if lpDue d p t then
      let x := lpOf d p
      let kp := keepOf x k
      let kp' := { kp with count := (kp.count + 1) % 65536, first := false, changed := false, resumed := false, synced := false, pend := false }
      setLp d p { setKeep x k kp' with insts := x.insts ++ [mkInst d p t] }
    else d
  | none => d

/-- An instance that ended commits its outputs (under SAFE_REQ their safe values, R46), its shared words and its slots (R215). -/
def commitInst (d : Dev) (p : Nat) (t : TInst) : Dev :=
  let x := lpOf d p
  let d := (outsOf x t.k).foldl (fun d o => put2 d o.n (if safeReq d (.lp p) then o.safe else (tfind t.outs o.n).getD (sigVal d o.n)) false) d
  let d := { d with shared := t.hw.foldl (fun m e => tset 0 m e.1 e.2) d.shared }
  setLp d p { x with slots := t.sl.foldl (fun m e => tset slot0 m e.1 e.2) x.slots, insts := x.insts.filter (fun u => u.k != t.k) }

/-- An overrun (R219). -/
def lpOverrun (d : Dev) (p : Nat) (t : TInst) : Dev :=
  let d := wrN (lpQuarantine d p 0x0603 0) (LP_OVR_INFO p) (t.k % 16)
  report d 0x0040 (pageOrigin (.lp p)) [w32 p, w32 t.k, rd d (LP_TK_LAST p t.k)]

/-- TASK_DEADLINE: C2 of the deadline BP (R215, R219). -/
def taskDeadline (d : Dev) (p k : Nat) : Dev :=
  let x := lpOf d p
  match instOf x k with
  | some t =>
    if x.st = .running ∧ t.dead ≤ bp d then
      if t.ended then commitInst d p t else lpOverrun d p t
    else d
  | none => d

/-- Task numbers of the registers. -/
def taskNos : List Nat := List.range 16

/-- Every release and every deadline of a processor in this BP. -/
def lpReleases (d : Dev) (p : Nat) : Dev := if (lpOf d p).st = .running then taskNos.foldl (fun d k => taskRelease d p k) d else d
def lpDeadlines (d : Dev) (p : Nat) : Dev := if (lpOf d p).st = .running then taskNos.foldl (fun d k => taskDeadline d p k) d else d

/-! ### Triggers (R216) -/

/-- The program defines event task e. -/
def eventDefined (x : Lp) (e : Nat) : Bool := x.prog.tasks.any (fun t => t.event && t.k == 8 + e)

/-- A trigger takes effect: pending, or merged. -/
def trigger (d : Dev) (p e : Nat) : Dev :=
  let x := lpOf d p
  let k := keepOf x (8 + e)
  if k.pend then bump d (LP_MERGE_CNT p) else setLp d p (setKeep x (8 + e) { k with pend := true })

/-- A trigger by a lane or by LP_CMD names an event task that the processor's program defines (R77, R216). -/
def triggerKnown (d : Dev) (p e : Nat) : Bool := eventDefined (lpOf d p) e

/-- A trigger by a TRIG instruction finds a running processor with that event task. -/
def triggerOk (d : Dev) (p e : Nat) : Bool := (lpOf d p).st == .running && eventDefined (lpOf d p) e

/-- A TRIG instruction takes effect at C2, or is discarded at its target; a lane's action (source 4) was checked before. -/
def trigTake (d : Dev) (t : LTrig) : Dev :=
  if 4 ≤ t.src then (if triggerKnown d t.dst t.task then trigger d t.dst t.task else d)
  else if triggerOk d t.dst t.task then trigger d t.dst t.task
  else wrN (bump d (LP_TRIG_LOST_CNT t.src)) (LP_TRIG_LOST_LAST t.src) (t.pc % 2 ^ 17 + 2 ^ 17 * t.dst + 2 ^ 19 * t.task)

/-- The TRIG instructions executed since the last C2. -/
def trigsTake (d : Dev) : Dev := d.trigs.foldl trigTake { d with trigs := [] }

/-! ### Forces (R229, Table 8-9) -/

/-- A forced export carries its force from the command on, unless the processor's exports are at safe values. -/
def forcesNow (d : Dev) (p : Nat) : Dev :=
  let x := lpOf d p
  if x.st = .loaded ∨ x.st = .running then
    x.prog.outs.foldl (fun d o => commitSig d ⟨o.n, forceExport x o.n (sigVal d o.n), sigSafe d o.n⟩) d
  else d

/-- FRC_STATE. -/
def frcState (x : Lp) : Bool := x.st == .empty || x.st == .loading || x.st == .quarantined

/-- A force command carried out: table, result, count and record. -/
def forceDone (d : Dev) (p cmd sym val : Nat) (fs : List (Nat × Nat)) : Dev :=
  let d := setLp d p { lpOf d p with forces := fs }
  let d := wrN (wrN (forcesNow d p) (LP_FRC_RES p) 0) (LP_FRC_COUNT p) fs.length
  report d 0x0041 (pageOrigin (.lp p)) [w32 p, w32 cmd, w32 sym, w32 val]

/-- SET. -/
def forceSet (d : Dev) (p : Nat) : Dev :=
  let x := lpOf d p
  let id := rdN d (LP_FRC_SYM p)
  let v := fld (rd d (LP_FRC_VAL p)) 15 0
  if frcState x then wrN d (LP_FRC_RES p) 4
  else match symOf x.prog id with
    | none => wrN d (LP_FRC_RES p) 2
    | some s =>
      let v := if s.word then v else v % 2
      if x.forces.any (fun f => f.1 == id) then forceDone d p 1 id v (x.forces.map (fun f => if f.1 = id then (id, v) else f))
      else if 1024 ≤ x.forces.length then wrN d (LP_FRC_RES p) 1
      else forceDone d p 1 id v (x.forces ++ [(id, v)])

/-- REMOVE. -/
def forceRemove (d : Dev) (p : Nat) : Dev :=
  let x := lpOf d p
  let id := rdN d (LP_FRC_SYM p)
  if frcState x then wrN d (LP_FRC_RES p) 4
  else if (symOf x.prog id).isNone then wrN d (LP_FRC_RES p) 2
  else match x.forces.find? (fun f => f.1 == id) with
    | none => wrN d (LP_FRC_RES p) 3
    | some f => forceDone d p 2 id f.2 (x.forces.filter (fun g => g.1 != id))

/-- CLEAR_ALL. -/
def forceClearAll (d : Dev) (p : Nat) : Dev :=
  if frcState (lpOf d p) then wrN d (LP_FRC_RES p) 4 else forceDone d p 3 0 0 []

/-- A write of LP_FRC_CMD. -/
def forceCommand (d : Dev) (p : Nat) (v : W32) : Dev :=
  match fld v 1 0 with
  | 0 => d
  | 1 => forceSet d p
  | 2 => forceRemove d p
  | _ => forceClearAll d p

/-! ### Loading (R230, R231, Table 8-11) -/

/-- A new slot (R225, R234). -/
def newSlot (i : LInst) : Slot :=
  ⟨i.kind, false, false, true, i.base, if i.kind ≤ 3 then (i.preset : Int) else if i.kind ≤ 5 then sgn 16 i.preset else 0, 0⟩

/-- INIT records written to the memories; in the shared area, the words of the own quarter. -/
def initWord (p : Nat) (d : Dev) (area wa : Nat) (v : W16) : Dev :=
  let x := lpOf d p
  match area with
  | 0 => setLp d p { x with m := tset 0 x.m wa v }
  | 1 => setLp d p { x with w := tset 0 x.w wa v }
  | _ => if wa / 4096 = p then { setLp d p { x with h := tset 0 x.h wa v } with shared := tset 0 d.shared wa v } else d

def initRec (p : Nat) (d : Dev) (r : LInit) : Dev :=
  (r.words.zipIdx).foldl (fun d e => initWord p d r.area (r.addr + e.2) e.1) d

/-- The slots of a program, each from a function of its place. -/
def buildSlots (pr : LProg) (f : LInst → Slot) : Tab Slot := pr.insts.zipIdx.foldl (fun m e => tset slot0 m e.2 (f e.1)) []

/-- LOAD of the container at an address and length of the SRAM window; a module that follows its partner waits for the image the
authority forwards (R230). -/
def lpLoadFrom (d : Dev) (p a len : Nat) : Dev :=
  let x := lpOf d p
  if x.st = .empty then setLp d p { x with st := .loading, copy := loadCopy d a len, copyLen := loadLen d a len }
  else lpRefuse d p 0x0601

/-- LOAD as LP_LOAD_ADDR and LP_LOAD_LEN give it. -/
def lpLoad (d : Dev) (p : Nat) : Dev := lpLoadFrom d p (rdN d (LP_LOAD_ADDR p)) (rdN d (LP_LOAD_LEN p))

/-- The verification of a logic container for a processor: a program, or the first failing code (R294, Table 8-11). -/
def lpCheck (d : Dev) (p : Nat) : Except Nat LProg :=
  let x := lpOf d p
  match containerCheck d x.copy 3 x.copyLen with
  | 0 => parseLogic p (bodyOf x.copy)
  | c => .error c

/-- A failed LOAD or STAGE. -/
def lpLoadFail (d : Dev) (p code : Nat) : Dev := err (wrN d (LP_LOAD_RES p) code) (.lp p) 0x0606 (LP_CMD p)

/-- A verified LOAD: claims, memories, INIT records, slots (Table 8-10, R463). -/
def lpLoadOk (d : Dev) (p : Nat) (pr : LProg) : Dev :=
  let d := pr.outs.foldl (fun d o => claim d o.n clsLp p o.wide o.safe) d
  let d := { d with shared := tclear (4096 * p) (4096 * p + 4096) d.shared }
  let x := lpOf d p
  let d := setLp d p { x with st := .loaded, prog := pr, copy := [], copyLen := 0, m := [], w := [], h := [], slots := buildSlots pr newSlot,
                              insts := [], current := none }
  let d := pr.inits.foldl (initRec p) d
  wrN (wrN d (LP_LOAD_RES p) 0) (LP_PROG_ID p) pr.id

/-- LP_VERIFY_DONE: the end of the verification of a LOAD. -/
def lpVerify (d : Dev) (p : Nat) : Dev :=
  let x := lpOf d p
  if x.st = .loading then
    let back := setLp d p { x with st := .empty, copy := [], copyLen := 0 }
    match lpCheck d p with
    | .ok pr => if pr.outs.any (fun o => sigTaken d o.n clsLp p) then lpLoadFail back p 0x0B else lpLoadOk d p pr
    | .error c => lpLoadFail back p c
  else d

/-- UNLOAD. -/
def lpUnload (d : Dev) (p : Nat) : Dev :=
  let x := lpOf d p
  if x.st = .loaded then
    let d := releaseAll d (ownedBy d clsLp p)
    let d := setLp d p { lp0 with bank := x.bank, m := x.m, w := x.w, h := x.h, offMs := x.offMs, at_ := x.at_, cmds := x.cmds }
    wrN (wrN (wrN d (LP_PROG_ID p) 0) (LP_STAGE_ID p) 0) (LP_FRC_COUNT p) 0
  else lpRefuse d p 0x0601

/-- STAGE (R231). -/
def lpStage (d : Dev) (p : Nat) : Dev :=
  let x := lpOf d p
  if (x.st = .loaded ∨ x.st = .running) ∧ x.stage = .none then
    let len := rdN d (LP_LOAD_LEN p)
    setLp d p { x with stage := .verifying, copy := loadCopy d (rdN d (LP_LOAD_ADDR p)) len, copyLen := loadLen d (rdN d (LP_LOAD_ADDR p)) len }
  else lpRefuse d p 0x0601

/-- The image that the authority forwards while a LOAD or STAGE is verified (R230). -/
def lpForwarded (d : Dev) (p : Nat) (bs : List W8) : Dev :=
  let x := lpOf d p
  if x.st = .loading ∨ x.stage = .verifying then setLp d p { x with copy := bs, copyLen := bs.length } else d

/-- An instance ID of the active program appears with another kind in the new one (R234). -/
def kindClash (old new : LProg) : Bool := new.insts.any (fun i => old.insts.any (fun j => j.id == i.id && j.kind != i.kind))

/-- LP_STAGE_DONE: the end of the verification of a STAGE (R231, R234). -/
def lpStageDone (d : Dev) (p : Nat) : Dev :=
  let x := lpOf d p
  if x.stage = .verifying then
    let back := setLp d p { x with stage := .none, copy := [], copyLen := 0 }
    match lpCheck d p with
    | .ok pr =>
      if kindClash x.prog pr then lpLoadFail back p 0x0A
      else if 1000000 < progLcm x.prog then lpLoadFail back p 0x0C
      else wrN (wrN (setLp d p { x with stage := .staged, next := pr, copy := [], copyLen := 0 }) (LP_LOAD_RES p) 0) (LP_STAGE_ID p) pr.id
    | .error c => lpLoadFail back p c
  else d

/-- UNSTAGE. -/
def lpUnstage (d : Dev) (p : Nat) : Dev :=
  let x := lpOf d p
  if x.stage = .staged then wrN (setLp d p { x with stage := .none, next := noProg }) (LP_STAGE_ID p) 0 else lpRefuse d p 0x0601

/-! ### On-line change (R231 to R234, Table 8-12) -/

/-- The forces that a change drops: symbol absent from the new table, or of another width there (R233). -/
def dropped (x : Lp) (f : Nat × Nat) : Bool :=
  match symOf x.next f.1, symOf x.prog f.1 with
  | some s, some o => s.word != o.word
  | some _, none => false
  | none, _ => true

/-- The end of a change: result, count, record with every force present at c (R233). -/
def changeEnd (d : Dev) (p res old new c : Nat) (fs : List (Nat × Nat × Bool)) : Dev :=
  let x := lpOf d p
  let r := res + 256 * (x.deferrals % 256)
  let d := bump (wrN d (LP_CHG_RES p) r) (LP_CHG_CNT p)
  report d 0x0042 (pageOrigin (.lp p))
    ([w32 p, w32 old, w32 new] ++ pay64 c ++ [w32 r, w32 fs.length] ++ fs.flatMap (fun f => [w32 f.1, w32 f.2.1, w32 (b2n f.2.2)]))

/-- The forces with their fate: kept, or dropped where the change drops forces. -/
def fates (x : Lp) (drop : Bool) : List (Nat × Nat × Bool) := x.forces.map (fun f => (f.1, f.2, drop && dropped x f))

/-- The dropped forces are removed (check 1 of R233). -/
def dropForces (d : Dev) (p : Nat) : Dev :=
  let x := lpOf d p
  let fs := x.forces.filter (fun f => !dropped x f)
  wrN (setLp d p { x with forces := fs }) (LP_FRC_COUNT p) fs.length

/-- A change that ends without the swap: the staged bank stays STAGED. -/
def changeFail (d : Dev) (p res c : Nat) (at_ : Bool) (fs : List (Nat × Nat × Bool)) : Dev :=
  let d := setLp d p { lpOf d p with stage := .staged }
  let d := if at_ then wr64 d (LP_CHG_AT p) c else d
  changeEnd d p res (lpOf d p).prog.id (lpOf d p).next.id c fs

/-- The first change point of a running processor from BP n on. -/
def chgPoint (x : Lp) (n : Nat) : Nat := let l := progLcm x.prog; (n + l - 1) / l * l

/-- CHANGE (R231, R232). -/
def lpChange (d : Dev) (p : Nat) : Dev :=
  let x := lpOf d p
  if x.stage = .staged ∧ (x.st = .loaded ∨ x.st = .running) then
    let d := setLp d p { x with stage := .pending, chgDrop := rdBit d (LP_CMD p) 8, deferrals := 0 }
    let y := lpOf d p
    let req := rd64 d (LP_CHG_BP p)
    if x.st = .loaded then setLp d p { y with chgAt := bp d + 1 }
    else if req = 0 then setLp d p { y with chgAt := chgPoint x (bp d + 2) }
    else if req % progLcm x.prog = 0 ∧ bp d + 2 ≤ req then setLp d p { y with chgAt := req }
    else changeFail d p 1 req false (fates y false)
  else lpRefuse d p 0x0601

/-- CANCEL (R231). -/
def lpCancel (d : Dev) (p : Nat) : Dev :=
  let x := lpOf d p
  if x.stage = .pending then changeFail d p 5 x.chgAt false (fates x false) else lpRefuse d p 0x0601

/-- The slot of the new program that an instance entry takes: matched state, or new (R234). -/
def matchSlot (x : Lp) (i : LInst) : Slot :=
  match x.prog.insts.zipIdx.find? (fun e => e.1.id == i.id && e.1.kind == i.kind) with
  | some (_, j) => { slotOf x j with base := i.base, preset := (newSlot i).preset }
  | none => newSlot i

/-- The exports of the new program: new ones are claimed, kept ones take their width, old ones not exported are released. -/
def swapExports (d : Dev) (p : Nat) (old new : LProg) : Dev :=
  let had := old.outs.map (·.n)
  let d := releaseAll d (had.filter (fun n => (new.outs.map (·.n)).contains n == false))
  new.outs.foldl (fun d o =>
    if had.contains o.n then
      { d with attr := tset 0 d.attr o.n (putBit (attrOf d o.n) 31 o.wide), sig := tset 0 d.sig o.n (sigForm o.wide (sigVal d o.n)) }
    else claim d o.n clsLp p o.wide o.safe) d

/-- The pending triggers of event tasks that the new program does not define. -/
def lostTrigs (x : Lp) : List Nat :=
  taskNos.filter (fun k => decide (8 ≤ k) && (keepOf x k).pend && !eventDefined { x with prog := x.next } (k - 8))

/-- What the tasks keep over a swap: CHANGED of the new program's tasks, and the pending triggers that are not lost. -/
def swapKeeps (x : Lp) : Lp :=
  taskNos.foldl (fun y k =>
    let kp := keepOf y k
    setKeep y k { kp with changed := x.next.tasks.any (fun t => t.k == k), pend := kp.pend && !(lostTrigs x).contains k }) x

/-- The processor with its banks swapped. -/
def swapLp (x : Lp) : Lp :=
  { swapKeeps x with stage := .none, bank := !x.bank, prog := x.next, next := noProg, slots := buildSlots x.next (matchSlot x),
                     forces := x.forces.filter (fun f => !dropped x f) }

/-- Banks swapped (R233): exports, INIT records flagged ON_CHANGE, forces, instances, triggers, CHANGED. -/
def lpSwap (d : Dev) (p c : Nat) : Dev :=
  let x := lpOf d p
  let fs := fates x true
  let d := (lostTrigs x).foldl (fun d _ => bump d (LP_MERGE_CNT p)) (swapExports d p x.prog x.next)
  let d := setLp d p (swapLp x)
  let d := (x.next.inits.filter (·.onChange)).foldl (initRec p) d
  let d := forcesNow d p
  let d := wrN (wrN (wrN d (LP_PROG_ID p) x.next.id) (LP_STAGE_ID p) 0) (LP_FRC_COUNT p) (lpOf d p).forces.length
  changeEnd (wr64 d (LP_CHG_AT p) c) p 0 x.prog.id x.next.id c fs

/-- CHANGE_POINT: t0 of c (R232, R233). -/
def changePoint (d : Dev) (p : Nat) : Dev :=
  let x := lpOf d p
  if x.stage = .pending ∧ (x.st = .loaded ∨ x.st = .running) ∧ x.chgAt ≤ bp d then
    if x.insts.isEmpty = false then
      if 16 ≤ x.deferrals then changeFail d p 4 x.chgAt true (fates x false)
      else
        let d := wrN d (LP_CHG_RES p) (256 * (x.deferrals + 1))
        setLp d p { x with chgAt := x.chgAt + progLcm x.prog, deferrals := x.deferrals + 1 }
    else if x.forces.any (dropped x) ∧ x.chgDrop = false then changeFail d p 2 x.chgAt true (fates x false)
    else if x.next.outs.any (fun o => sigTaken d o.n clsLp p) then changeFail (dropForces d p) p 3 x.chgAt true (fates x true)
    else lpSwap d p x.chgAt
  else d

/-! ### Commands -/

/-- TRIG through LP_CMD (R216): refused where a named event task is not defined. -/
def lpTrig (d : Dev) (p : Nat) : Dev :=
  let es := (List.range 8).filter (fun e => rdBit d (LP_EVT_TRIG p) e)
  if es.all (triggerKnown d p) then es.foldl (fun d e => trigger d p e) d else lpRefuse d p 0x0601

/-- LOAD and UNLOAD committed at a C2 wait for the next t0 (R230). -/
def lpQueue (d : Dev) (p : Nat) (c : LpCmd) : Dev := setLp d p { lpOf d p with cmds := (lpOf d p).cmds ++ [c] }

/-- The LOAD and UNLOAD commands of the previous C2, at t0, in order, each judged in the state it finds (R230). -/
def lpCmds (d : Dev) (p : Nat) : Dev :=
  let x := lpOf d p
  if x.cmds.isEmpty then d
  else x.cmds.foldl (fun d c => match c with
    | .load a n => lpLoadFrom d p a n
    | .unload => lpUnload d p) (setLp d p { x with cmds := [] })

/-- A write of LP_CMD. -/
def lpCommand (d : Dev) (p : Nat) (v : W32) : Dev :=
  match fld v 3 0 with
  | 0 => d
  | 1 => lpQueue d p (.load (rdN d (LP_LOAD_ADDR p)) (rdN d (LP_LOAD_LEN p)))
  | 2 => lpQueue d p .unload
  | 3 => lpStage d p
  | 4 => lpUnstage d p
  | 5 => lpChange d p
  | 6 => lpCancel d p
  | 7 => lpTrig d p
  | _ => lpRefuse d p 0x0602

/-- Entry into RUNNING (R212, Table 8-10): FIRST of each task, OV, DZ and counts 0, greatest response times 0. -/
def lpEnter (d : Dev) (p : Nat) : Dev :=
  let x := lpOf d p
  let y := taskNos.foldl (fun y k => setKeep y k { keepOf x k with first := true, ov := false, dz := false, count := 0 }) x
  let d := taskNos.foldl (fun d k => wrN d (LP_TK_PEAK p k) 0) d
  setLp d p { y with st := .running, insts := [], current := none, at_ := 0 }

/-- RUN = 0: LOADED, instances abandoned, exports safe, memories and instances kept (Table 8-10). -/
def lpLeave (d : Dev) (p : Nat) : Dev :=
  let d := lpSafe d p false
  setLp d p { lpOf d p with st := .loaded, insts := [], current := none }

/-! ### The variable window (R213, Table 8-6) -/

/-- One 16-bit word written through the window of processor p; a forced location keeps its value. -/
def varWord (d : Dev) (p off : Nat) (v : W16) : Dev :=
  let x := lpOf d p
  if off < 0x2000 then
    let wa := off / 2
    setLp d p { x with m := tset 0 x.m wa (keepForced x 0 wa (tget 0 x.m wa) v) }
  else if 0x10000 ≤ off ∧ off < 0x30000 then
    let wa := (off - 0x10000) / 2
    setLp d p { x with w := tset 0 x.w wa (keepForced x 1 wa (tget 0 x.w wa) v) }
  else if 0x300000 ≤ off ∧ off < 0x308000 then
    let wa := (off - 0x300000) / 2
    let v' := keepForced x 3 wa (tget 0 d.shared wa) v
    let d := { d with shared := tset 0 d.shared wa v' }
    let q := wa / 4096
    setLp d q { lpOf d q with h := tset 0 (lpOf d q).h wa v' }
  else d

/-- LP_VAR_WRITE: a 32-bit write at an offset of the window; other ranges drop it (R44). -/
def lpVarWrite (d : Dev) (p off : Nat) (v : W32) : Dev :=
  let o := off / 4 * 4
  varWord (varWord d p o (halfOf v false)) p (o + 2) (halfOf v true)

end Sys2Proof.Machine
end

