-- ==== Sys2Proof/Machine/Profile.lean ====
section
/-! DEFINITION. The motion profile generator (R177, R178, R183 to R187): changes of speed, moves and stops in whole BP. Limits
and states of a plan are in register units (2^-16 counts per second, per second squared, per second cubed); jerks of a plan are in
2^-64 counts/BP^3. Log entry 11. -/

namespace Sys2Proof.Machine

/-! ### Units (R177, R178) -/

/-- Register units in generator units, towards zero. -/
def vUnits (x : Int) : Int := (x * 2 ^ 48).tdiv 100000
def aUnits (x : Int) : Int := (x * 2 ^ 48).tdiv 10000000000
def jUnits (x : Int) : Int := (x * 2 ^ 48).tdiv 1000000000000000

/-! ### Least numbers -/

/-- The greatest number below lo + 2^k that does not satisfy a rising condition which fails at lo. -/
def lastFailing (p : Nat → Bool) : Nat → Nat → Nat
  | 0, lo => lo
  | k + 1, lo => if p (lo + 2 ^ k) then lastFailing p k lo else lastFailing p k (lo + 2 ^ k)

/-- The least number below 2^k that satisfies a rising condition (2^k where none does). -/
def leastNat (p : Nat → Bool) (k : Nat) : Nat := if p 0 then 0 else lastFailing p k 0 + 1

/-- A quotient rounded up, 0 for a numerator that is not positive. -/
def ceilDiv (num den : Int) : Nat := if num ≤ 0 ∨ den ≤ 0 then 0 else ((num + den - 1) / den).toNat

/-! ### A change of speed -/

/-- The lengths of the three segments of a change of speed, in ticks, and whether they are whole numbers of ticks. -/
structure Phases where
  t1 : Nat
  t2 : Nat
  t3 : Nat
  whole : Bool
deriving DecidableEq, Repr, Inhabited

def Phases.total (q : Phases) : Nat := q.t1 + q.t2 + q.t3

/-- The direction in which a change of speed from (v, a) to w accelerates: that of what is missing once a has come to 0. -/
def changeDir (v a w j : Int) : Int :=
  if 0 ≤ 2 * j * (w - v) - a * (if a < 0 then -a else a) then 1 else -1

/-- The fastest change of speed from (v, a) to (w, 0) under an acceleration and a jerk limit, with r ticks in a second, each
segment rounded up (R183, R185): a above the limit is driven down to it first. -/
def changePhases (r : Nat) (v a w lim j : Int) : Phases :=
  let s := changeDir v a w j
  let b := a * s
  let k := 2 * j * (s * (w - v)) + a * a
  let up (num den : Int) : Nat := ceilDiv (num * r) den
  let fits (num den : Int) : Bool := decide ((num * r) % den = 0)
  if lim < b then
    let n2 := 2 * j * (s * (w - v)) - b * b
    ⟨up (b - lim) j, up n2 (2 * j * lim), up lim j, fits (b - lim) j && fits n2 (2 * j * lim) && fits lim j⟩
  else if k ≤ 2 * lim * lim then
    let enough (n : Nat) (c : Int) : Bool := let h := n * j + c * r; decide (0 ≤ h) && decide (k * r * r ≤ 2 * h * h)
    let n1 := leastNat (fun n => enough n b) 96
    let n3 := leastNat (fun n => enough n 0) 96
    ⟨n1, 0, n3, decide (2 * (n3 * j) * (n3 * j) = k * r * r) && fits b j⟩
  else
    let n2 := k - 2 * lim * lim
    ⟨up (lim - b) j, up n2 (2 * j * lim), up lim j, fits (lim - b) j && fits n2 (2 * j * lim) && fits lim j⟩

/-- Weights of the first and of the middle acceleration in six times the way of a change of speed. -/
def wayA (q : Phases) : Int := 2 * q.t1 * q.t1 + 3 * q.t1 * q.t2 + 3 * q.t1 * q.t3
def wayP (q : Phases) : Int :=
  q.t1 * q.t1 + 3 * q.t1 * q.t2 + 3 * q.t2 * q.t2 + 3 * q.t1 * q.t3 + 6 * q.t2 * q.t3 + 2 * q.t3 * q.t3
/-- Twice the time for which the middle acceleration counts in the speed. -/
def timeP (q : Phases) : Int := q.t1 + 2 * q.t2 + q.t3

/-- The way of a change of speed from (v, a) to w with these segments, in 2^-16 counts, rounded up. -/
def changeWay (r : Nat) (v a w : Int) (q : Phases) : Int :=
  let rr : Int := r
  let ap := 2 * (w - v) * rr - a * q.t1
  let d := timeP q
  if d = 0 then 0
  else -(-((6 * rr * v * q.total + a * wayA q) * d + ap * wayP q) / (6 * rr * rr * d))

/-- The greatest speed in the direction of a move (all signs so that the way is positive) that leaves room to stop within the
way, found on time steps of 2^-32 BP; vmax where even that leaves room. Answers the speed and whether it is vmax. -/
def peakSpeed (v a way vmax am dm j : Int) : Int × Bool :=
  let r := 100000 * 2 ^ 32
  let room (w : Int) : Bool :=
    let lim := if w < v then dm else am
    let up := changeWay r v a w (changePhases r v a w lim j)
    let down := changeWay r w 0 0 (changePhases r w 0 0 dm j)
    decide (up + down ≤ way)
  if room vmax then (vmax, true)
  else (lastFailing (fun n => !room n) 96 0, false)

/-! ### Segments -/

/-- n BP that change the acceleration by tot in all: jerks that differ by one unit at most, so that the sum is exact. -/
def spread (n : Nat) (tot : Int) (no : Nat) : List Seg :=
  let q := tot.tdiv n
  let left := tot - q * n
  let m := left.natAbs
  [⟨m, q + left.sign, no⟩, ⟨n - m, q, no⟩]

/-- Drop the segments of no length. -/
def trimSegs (l : List Seg) : List Seg := l.filter (fun s => s.len != 0)

/-- A change of speed from acceleration a over the middle acceleration p to 0; first is the number of its first segment. -/
def changeSegs (a p : Int) (q : Phases) (first : Nat) : List Seg :=
  trimSegs (spread q.t1 (p - a) first ++ [⟨q.t2, 0, first + 1⟩] ++ spread q.t3 (-p) (first + 2))

/-- The middle acceleration that takes (v, a) to speed w in these segments (generator units). -/
def midForSpeed (v a w : Int) (q : Phases) : Int :=
  if timeP q = 0 then 0 else (2 * (w - v) - a * q.t1).tdiv (timeP q)

/-- A quotient to the nearest. -/
def nearestTo (x n : Int) : Int := (2 * x + n) / (2 * n)

/-- Generator units in register units, to the nearest (R178). -/
def velReg (v : Int) : Int := nearestTo (v * 100000) (2 ^ 48)
def accReg (a : Int) : Int := nearestTo (a * 10000000000) (2 ^ 48)

/-- The lengths of a plan are computed in units 2^32 times finer than the registers', so that a short way is not too coarse. -/
def fine : Int := 2 ^ 32

/-- The segments of a change of speed in whole BP: from the registers' view for the lengths and the generator's view (gv, ga) for the
jerks. While a rounding would raise the acceleration or the jerk above its limit, the middle one is lengthened. -/
def speedSegs (w lim j gv ga gw : Int) (first : Nat) : List Seg :=
  let q0 := changePhases 100000 (velReg gv * fine) (accReg ga * fine) (w * fine) (lim * fine) (j * fine)
  let ok (q : Phases) : Bool :=
    let p := midForSpeed gv ga gw q
    decide (p.natAbs ≤ max (aUnits lim).natAbs ga.natAbs) && decide ((p - ga).natAbs ≤ ((jUnits j).natAbs + 1) * q.t1)
      && decide (p.natAbs ≤ ((jUnits j).natAbs + 1) * q.t3)
  let q := (List.range 64).foldl (fun q _ => if ok q then q else { q with t2 := q.t2 + 1 }) q0
  changeSegs ga (midForSpeed gv ga gw q) q first

/-- The middle acceleration of the first change of speed of a move by way (generator units) with a cruise of tc and the
deceleration u: the one that ends it at rest on the target. -/
def midForMove (gv ga way : Int) (q : Phases) (tc : Nat) (u : Phases) : Int :=
  let m : Int := 2 * tc + u.total
  let d := 2 * wayP q + 3 * m * timeP q
  if d = 0 then 0 else (12 * way - 12 * gv * q.total - 2 * ga * wayA q - 6 * m * gv - 3 * m * ga * q.t1).tdiv d

/-- The speed reached after a change of speed. -/
def speedAfter (gv ga p : Int) (q : Phases) : Int := gv + (ga * q.t1 + p * timeP q) / 2

/-- The segments of a move with given lengths: acceleration, cruise, deceleration. -/
def moveSegs (gv ga way : Int) (q : Phases) (tc : Nat) (u : Phases) : List Seg :=
  let p := midForMove gv ga way q tc u
  let w := speedAfter gv ga p q
  changeSegs ga p q 1 ++ trimSegs [⟨tc, 0, 4⟩] ++ changeSegs 0 (midForSpeed w 0 0 u) u 5

/-- Whether the lengths of a move keep its limits (generator units). -/
def moveKeeps (gv ga way vmax am dm j : Int) (q : Phases) (tc : Nat) (u : Phases) : Bool :=
  let p := midForMove gv ga way q tc u
  let w := speedAfter gv ga p q
  let e := midForSpeed w 0 0 u
  decide (w.natAbs ≤ max (vUnits vmax).natAbs gv.natAbs) && decide (p.natAbs ≤ max (aUnits (if w < gv then dm else am)).natAbs ga.natAbs)
    && decide (e.natAbs ≤ (aUnits dm).natAbs) && decide ((p - ga).natAbs ≤ ((jUnits j).natAbs + 1) * q.t1)
    && decide (p.natAbs ≤ ((jUnits j).natAbs + 1) * q.t3) && decide (e.natAbs ≤ ((jUnits j).natAbs + 1) * u.t3)

/-- A move by way from (v, a), in the direction of the way, all in one unit of length: lengths of its segments, and whether every length
of the continuous profile is whole. -/
def moveLengths (v a way vmax am dm j : Int) : Phases × Nat × Phases × Bool :=
  let pk := peakSpeed v a way vmax am dm j
  let w := pk.1
  let lim := if w < v then dm else am
  let q := changePhases 100000 v a w lim j
  let u := changePhases 100000 w 0 0 dm j
  let rest := way - changeWay 100000 v a w q - changeWay 100000 w 0 0 u
  let tc := if pk.2 then ceilDiv (rest * 100000) w else 0
  (q, tc, u, pk.2 && q.whole && u.whole && decide ((rest * 100000) % w = 0))

/-- The lengths of a move by a way in generator units. -/
def genLengths (gv ga gway vmax am dm j : Int) : Phases × Nat × Phases × Bool :=
  moveLengths (velReg gv * fine) (accReg ga * fine) (nearestTo gway (2 ^ 48) * fine) (vmax * fine) (am * fine) (dm * fine) (j * fine)

/-- A move computed in whole BP: while a rounding would raise a limit, the cruise is lengthened, and a change of speed that has
no length is given one, k times at most (from rest 7 BP: R183). -/
def movePlan (k : Nat) (vmax am dm j gv ga gway : Int) : List Seg :=
  let l := genLengths gv ga gway vmax am dm j
  let ok (q : Phases) (tc : Nat) : Bool := moveKeeps gv ga gway vmax am dm j q tc l.2.2.1
  let z := (List.range k).foldl (fun (z : Phases × Nat) _ =>
      if ok z.1 z.2 then z
      else if z.1.t1 = 0 ∨ z.1.t3 = 0 then ({ z.1 with t1 := z.1.t1 + 1, t3 := z.1.t3 + 1 }, z.2)
      else (z.1, z.2 + 1)) (l.1, l.2.1)
  moveSegs gv ga gway z.1 z.2 l.2.2.1

/-! ### What a plan does -/

/-- The state (position, speed, acceleration) after a segment of constant jerk, as the generator steps it, each division rounded
down (R178): the sums of one BP after the other. -/
def segRun (s : Int × Int × Int) (g : Seg) : Int × Int × Int :=
  let n : Int := g.len
  let q := g.jerk
  let a := s.2.2
  let odd : Int := if q % 2 = 0 then (if a % 2 = 0 then 0 else n) else if a % 2 = 0 then n / 2 else (n + 1) / 2
  let sum := n * a + q * (n * (n - 1) / 2)
  (s.1 + n * s.2.1 + (a + q / 2) * (n * (n - 1) / 2) + q * (n * (n - 1) * (n - 2) / 6) + (sum - odd) / 2 + n * (q / 6),
    s.2.1 + sum + n * (q / 2), a + n * q)

/-- The state after a plan that starts at (v, a), relative to its start. -/
def planRun (v a : Int) (l : List Seg) : Int × Int × Int := l.foldl segRun (0, v, a)

/-- Where a plan that starts at (v, a) ends, relative to its start. -/
def planWay (v a : Int) (l : List Seg) : Int := (planRun v a l).1

/-- BP left of a plan. -/
def planLen (l : List Seg) : Nat := (l.map (·.len)).foldl (· + ·) 0

/-! ### An exact end

The jerks of a plan are whole numbers and the generator rounds down, so that the segments of the continuous profile end beside the
target by a small residue. It is taken out by jerks a few units apart in blocks of n BP at the end of the plan, from long blocks to
single BP, as R183 asks for an exact end. -/

/-- Add c to the jerk of n BP of a plan from its BP i on. -/
def addJerk : List Seg → Nat → Nat → Int → List Seg
  | [], _, _, _ => []
  | g :: t, i, n, c =>
    if n = 0 ∨ c = 0 then g :: t
    else if g.len ≤ i then g :: addJerk t (i - g.len) n c
    else
      let m := min n (g.len - i)
      trimSegs [⟨i, g.jerk, g.no⟩, ⟨m, g.jerk + c, g.no⟩, ⟨g.len - i - m, g.jerk, g.no⟩] ++ addJerk t 0 (n - m) c

/-- What is missing of an end at rest on the way, or at a speed w where no way is asked for. -/
def missing (v a : Int) (way : Option Int) (w : Int) (l : List Seg) : Int × Int :=
  let e := planRun v a l
  (match way with | some p => p - e.1 | none => 0, w - e.2.1)

/-- One level: three blocks of n BP at the end of the plan, which leave the final acceleration. -/
def closeLevel (v a : Int) (way : Option Int) (w : Int) (l : List Seg) (n : Nat) : List Seg :=
  let len := planLen l
  if len < 3 * n then l
  else
    let r := missing v a way w l
    let m : Int := n
    let e := nearestTo r.2 (m * m)
    let c1 := if way.isSome then nearestTo r.1 (m * m * m) - e else e / 2
    addJerk (addJerk (addJerk l (len - 3 * n) n c1) (len - 2 * n) n (e - 2 * c1)) (len - n) n (c1 - e)

/-- The changes of the jerks of four BP tried at the end, with a fifth that makes up for them. -/
def lastTries : List (List Int) :=
  let ds : List Int := [0, 1, -1, 2, -2, 3, -3]
  (ds.flatMap (fun x => ds.flatMap (fun y => ds.flatMap (fun z => ds.map (fun u => [x, y, z, u])))))

/-- A plan with an exact end: at rest on the way, or at a speed (R183). A plan shorter than 8 BP is given BP without jerk. -/
def closePlan (v a : Int) (way : Option Int) (w : Int) (l : List Seg) : List Seg :=
  let no := (l.getLast?.map (·.no)).getD 7
  let l := if planLen l < 8 then l ++ [⟨8 - planLen l, 0, no⟩] else l
  let l := (List.range 24).reverse.foldl (fun l k => closeLevel v a way w l (2 ^ k)) l
  let l := closeLevel v a way w (closeLevel v a way w l 2) 1
  let len := planLen l
  let put (ds : List Int) : List Seg :=
    ((ds ++ [-(ds.foldl (· + ·) 0)]).zipIdx).foldl (fun (l : List Seg) (e : Int × Nat) => addJerk l (len - 5 + e.2) 1 e.1) l
  ((lastTries.map put).find? (fun l => missing v a way w l == (0, 0))).getD l

/-- A plan keeps R183 and R185 on the way in the direction of its travel (all signs so that the way is positive): jerks within the
converted limit; at the ends of the segments, within which neither acceleration nor speed turns, |a| within the limit of its phase and |v|
within the limit; segments 1 to 7 in order; no longer than a number of BP. -/
def planKeeps (v a vmax am dm j : Int) (len : Nat) (l : List Seg) : Bool :=
  let ends := (List.range (l.length + 1)).map (fun n => planRun v a (l.take n))
  let turns := (ends.zip (ends.drop 1)).any (fun p => decide (p.1.2.2 * p.2.2.2 < 0))
  l.all (fun g => decide (g.jerk.natAbs ≤ (jUnits j).natAbs) && decide (1 ≤ g.no) && decide (g.no ≤ 7))
    && (l.zip (l.drop 1)).all (fun p => decide (p.1.no ≤ p.2.no)) && !turns && decide (planLen l ≤ len)
    && ends.all (fun s => decide (s.2.2 ≤ aUnits am) && decide (-s.2.2 ≤ aUnits dm) && decide (0 ≤ s.2.1) && decide (s.2.1 ≤ vUnits vmax))

/-! ### Plans of an axis -/

/-- A plan mirrored. -/
def mirror (l : List Seg) : List Seg := l.map (fun g => { g with jerk := -g.jerk })

/-- The move from rest by way (generator units): R183 fixes it. -/
def restPlan (way vmax am dm j : Int) : List Seg :=
  closePlan 0 0 (some way) 0 (if way < 0 then mirror (movePlan 7 vmax am dm j 0 0 (-way)) else movePlan 7 vmax am dm j 0 0 way)

/-- The stop from (gv, ga). -/
def stopSegs (dm j gv ga : Int) : List Seg := if gv = 0 ∧ ga = 0 then [] else closePlan gv ga none 0 (speedSegs 0 dm j gv ga 0 5)

/-- The change from (gv, ga) to a speed w in register units, under an acceleration limit. -/
def speedPlan (w lim j gv ga : Int) : List Seg := closePlan gv ga none (vUnits w) (speedSegs w lim j gv ga (vUnits w) 1)

/-- |a| is driven down at JMAX until it lies within the limit of its phase (R185): AMAX while |v| rises, DMAX while it falls. -/
def tamePlan (am dm j gv ga : Int) : List Seg :=
  let lim := aUnits (if 0 ≤ ga * gv then am else dm)
  let ju := jUnits j
  if lim < ga ∧ 0 < ju then [⟨ceilDiv (ga - lim) ju, -ju, 1⟩] else if ga < -lim ∧ 0 < ju then [⟨ceilDiv (-ga - lim) ju, ju, 1⟩] else []

/-- A speed beyond VMAX comes down to it under DMAX and JMAX (R185). -/
def slowPlan (vmax dm j gv ga : Int) : List Seg := if vUnits vmax < gv then speedPlan vmax dm j gv ga else []

/-- The move from motion by way, with room to stop, in the direction s of the travel (1 or -1; gv, ga and way as they stand): computed
where every length is whole; else the open profile where it keeps R183 and R185 and ends exactly, and a computed one where it does not. -/
def onPlan (s vmax am dm j gv ga way : Int) : List Seg :=
  let turn (l : List Seg) : List Seg := if s < 0 then mirror l else l
  let l := movePlan 48 vmax am dm j (s * gv) (s * ga) (s * way)
  let c := closePlan gv ga (some way) 0 (turn l)
  if (genLengths (s * gv) (s * ga) (s * way) vmax am dm j).2.2.2 then c
  else
    let o := Config.planMove [s * gv, s * ga, s * way, vmax, am, dm, j]
    if planKeeps (s * gv) (s * ga) vmax am dm j (planLen l) o && planRun gv ga (turn o) == (way, 0, 0) then turn o else c

/-- The move from motion: first what R185 asks of a state beyond the new limits. -/
def goOnPlan (s vmax am dm j gv ga way : Int) : List Seg :=
  let turn (l : List Seg) : List Seg := if s < 0 then mirror l else l
  let t := turn (tamePlan am dm j (s * gv) (s * ga))
  let e : Int × Int × Int := planRun gv ga t
  let u := if s < 0 then mirror (slowPlan vmax dm j (-e.2.1) (-e.2.2)) else slowPlan vmax dm j e.2.1 e.2.2
  let f : Int × Int × Int := u.foldl segRun e
  t ++ u ++ onPlan s vmax am dm j f.2.1 f.2.2 (way - f.1)

end Sys2Proof.Machine
end

