-- ==== Sys2Proof/Machine/Motion.lean ====
section
/-! DEFINITION. Axis cells (chapter 07): units, profiles, commands, states, gearing, stall detection, homing. -/

namespace Sys2Proof.Machine

def sw0 : Sw := ⟨false, 0, 0, 0⟩
/-- No register read yet. -/
def axRegs0 : AxRegs := ⟨0, 0, 0, 0, 0, 0, 0, 0, 0, 0, 0, 0, false, 0⟩
/-- An axis after a cold start. -/
def axis0 : Axis := { st := .disabled, p := 0, v := 0, a := 0, plan := [], jog := false, jogDir := 0, target := 0, fb := 0, fbSeen := false, fbOff := 0, m := 0, mSeen := false, hist := [], dev := 0, devTimer := 0, devOut := false, limP := sw0, limN := sw0, home := sw0, chat := 0, hphase := 0, hdir := 0, hrev := false, hnext := .none, idx := 0, idxAt := none, m0 := 0, f0 := 0, num := 0, den := 1, armed := none, done := false, ref := false, overshoot := false, reverse := false, interrupted := false, estop := false, hres := 0, back := none, lim := axRegs0, cmds := [] }

/-- An axis, and its replacement. -/
def axOf (d : Dev) (a : Nat) : Axis := tget axis0 d.axes a
def setAx (d : Dev) (a : Nat) (x : Axis) : Dev := { d with axes := tset axis0 d.axes a x }

/-- MT_CYC of every motion tile: the cycles of a BP are free up to the 2256 that R173 bounds them by (log 9); PEAK follows (Table 7-1). -/
def mtCycles (d : Dev) : Dev :=
  (List.range 8).foldl (fun d m =>
    let f := freeNum d
    let n := f.1 % 2257
    wrN f.2 (MT_CYC m) (n + 65536 * max n (fld (rd d (MT_CYC m)) 27 16))) d

/-- A motion tile is quarantined (tiles 0 to 63 are loop tiles, 64 + m motion tiles). -/
def motQuar (d : Dev) (m : Nat) : Bool := d.quar.contains (64 + m)

/-! ### Units (R177, R178) -/

/-- Nearest of a quotient by a positive number. -/
def nearest (x : Int) (n : Nat) : Int := (2 * x + n) / (2 * n : Nat)
/-- AX_POS_CMD, AX_VEL_CMD and AX_ACC_CMD of an axis (R178). -/
def posCmd (x : Axis) : Int := x.p / 2 ^ 48
def velCmd (x : Axis) : Int := nearest (x.v * 100000) (2 ^ 48)
def accCmd (x : Axis) : Int := nearest (x.a * 10000000000) (2 ^ 48)

/-- The limits of an axis in generator units, with a signed 64-bit register each. -/
def axReg (d : Dev) (a : Nat) : Int := s64 (rd64 d a)
/-- The registers as a command reads them when it commits (R176). -/
def axRegs (d : Dev) (a : Nat) : AxRegs :=
  { tgt := axReg d (AX_TGT a), vm := axReg d (AX_VMAX a), am := axReg d (AX_AMAX a), dm := axReg d (AX_DMAX a), jm := axReg d (AX_JMAX a)
    hv1 := (rdN d (AX_HVEL1 a) : Int) * 65536, hv2 := (rdN d (AX_HVEL2 a) : Int) * 65536, hofs := axReg d (AX_HOME_OFS a)
    gnum := sgn 32 (rdN d (AX_GEAR_NUM a)), gden := rdN d (AX_GEAR_DEN a), anum := sgn 32 (rdN d (AX_GEAR_ANUM a))
    aden := rdN d (AX_GEAR_ADEN a), adir := rdBit d (AX_GEAR_ADIR a) 0, mpos := axReg d (AX_GEAR_MPOS a) }
/-- FB_EN, FB_ENC, FB_ABS, REF_REQ, GATE_EN (AX_CFG). -/
def fbEn (d : Dev) (a : Nat) : Bool := rdBit d (AX_CFG a) 0
def fbEnc (d : Dev) (a : Nat) : Nat := fld (rd d (AX_CFG a)) 5 1
def fbAbs (d : Dev) (a : Nat) : Bool := rdBit d (AX_CFG a) 6
/-- AX_POS_ACT (R179). -/
def posAct (d : Dev) (a : Nat) : Int := let x := axOf d a; if fbEn d a then x.fb * 65536 + x.fbOff else posCmd x

/-- A signal bit named by a source register: entry, bit, inversion (AX_GATE_SRC and the switch sources). -/
def srcBit (d : Dev) (r : W32) : Bool := xor (sigBit d (fld r 14 0) (fld r 20 16)) (bit r 21)
/-- The gate is closed (R188). -/
def gateClosed (d : Dev) (a : Nat) : Bool := rdBit d (AX_CFG a) 8 && !srcBit d (rd d (AX_GATE_SRC a))
/-- RUN of the axis and of its tile. -/
def axRun (d : Dev) (a : Nat) : Bool := runBit d (.ax a) && runBit d (.mt (a / 8))

/-- AX_STAT (Table 7-2). -/
def axStNum : AxSt → Nat
  | .disabled => 0 | .idle => 1 | .moving => 2 | .stopping => 3 | .estopping => 4 | .homing => 5 | .geared => 6
  | .fault => 7 | .quarantined => 8 | .held => 9
def axStat (d : Dev) (a : Nat) : W32 :=
  let x := axOf d a
  w32 (axStNum x.st + 16 * b2n (x.done && x.st == .idle) + 32 * b2n x.ref + 64 * b2n x.overshoot + 128 * b2n x.reverse + 256 * b2n x.limP.on
    + 512 * b2n x.limN.on + 1024 * b2n x.home.on + 2048 * b2n (gateClosed d a) + 4096 * b2n x.armed.isSome
    + 8192 * b2n x.devOut + 16384 * b2n x.interrupted + 32768 * b2n x.estop + 65536 * x.hphase + 0x100000 * x.hres)

/-- AX_PROF: segment and BP left; a jog that cruises is in segment 4 and has no end (log entry 12). -/
def axProf (d : Dev) (a : Nat) : Nat :=
  let x := axOf d a
  match x.plan with
  | s :: t => s.no % 8 + 256 * (if x.jog then 0xFFFFFF else min 0xFFFFFF (((s :: t).map (·.len)).foldl (· + ·) 0))
  | [] => if x.jog then 4 + 256 * 0xFFFFFF else 0

/-! ### Profiles (R183 to R186) -/

/-- The plan of a stop under a deceleration and a jerk. -/
def planHalt (x : Axis) (dm j : Int) : List Seg := stopSegs dm j x.v x.a

/-- The way of that stop, in generator units and in p48.16: the turn point lies that far ahead (R186). -/
def haltWay (x : Axis) (dm j : Int) : Int := planWay x.v x.a (planHalt x dm j)
def haltDist (x : Axis) (dm j : Int) : Int := haltWay x dm j / 2 ^ 48

/-- The plan of a move to a target (R183 to R186): from rest; over the turn point and back; or on to the target. -/
def planTo (x : Axis) (tgt v am dm j : Int) (past : Bool) : List Seg :=
  let way := tgt * 2 ^ 48 - x.p
  if x.v = 0 ∧ x.a = 0 then restPlan way v am dm j
  else if past then planHalt x dm j ++ restPlan (way - haltWay x dm j) v am dm j
  else goOnPlan (if way < 0 then -1 else 1) v am dm j x.v x.a way

/-- The plan that reaches a speed and holds it (jog, homing): against the travel it stops first (R186); |v| rises under AMAX and
falls under DMAX. -/
def planSpeed (x : Axis) (v am dm j : Int) : List Seg :=
  if x.v * v < 0 then planHalt x dm j ++ speedPlan v am j 0 0
  else speedPlan v (if v.natAbs < (velCmd x).natAbs then dm else am) j x.v x.a

/-- The jerk of the next BP, and what is left of the plan after it. -/
def planNext : List Seg → Int × List Seg
  | [] => (0, [])
  | ⟨0, _, _⟩ :: t => (0, t)
  | ⟨n + 1, j, k⟩ :: t => (j, if n = 0 then t else ⟨n, j, k⟩ :: t)

/-- One BP of the generator (R178): divisions round towards minus infinity. -/
def genStep (x : Axis) (j : Int) : Axis := { x with p := x.p + x.v + x.a / 2 + j / 6, v := x.v + x.a + j / 2, a := x.a + j }

/-! ### Outcomes -/

/-- A refused axis command (R181). -/
def axRefuse (d : Dev) (a code : Nat) : Dev := bump (err d (.ax a) code (AX_CMD a)) (AX_REJ_CNT a)

/-- A lane's action refused by its target; loc is the value of SQ_ACT_REJ_LAST (R77). -/
def actRej (d : Dev) (l loc : Nat) : Dev := err (wrN (bump d (SQ_ACT_REJ_CNT l)) (SQ_ACT_REJ_LAST l) loc) (.sq l) 0x0105 loc

/-- An AXIS_EVENT record: axis, ERR_CODE, AX_STAT, AX_FLT_POS (64). -/
def axRecord (d : Dev) (a code : Nat) : Dev := report d 0x0031 (104 + a) ([w32 a, w32 code, axStat d a] ++ pay64 (rd64 d (AX_FLT_POS a)))

/-- Begin an emergency stop (R180). -/
def estopPlan (d : Dev) (a : Nat) (x : Axis) : Axis :=
  { x with plan := planHalt x (axReg d (AX_EDEC a)) (axReg d (AX_EJERK a)), jog := false, estop := true, armed := none }

/-- A cell fault of an axis: emergency stop, ERR_CODE, AX_FLT_POS, record (R180). -/
def axFault (d : Dev) (a code : Nat) : Dev :=
  let x := axOf d a
  let d := wr64 d (AX_FLT_POS a) (u64 (posCmd x))
  let d := setAx d a { estopPlan d a x with st := .fault, hphase := 0, hnext := .none }
  axRecord (err d (.ax a) code 0) a code

/-- The axis is in a state whose faults count: running or ESTOPPING (R180). -/
def axLive (s : AxSt) : Bool :=
  match s with
  | .idle | .moving | .stopping | .homing | .geared | .estopping => true
  | _ => false

/-- A cell fault where the axis runs or is in ESTOPPING. -/
def axFaultIf (d : Dev) (a code : Nat) : Dev := if axLive (axOf d a).st then axFault d a code else d

/-- A position (p48.16) lies beyond a soft limit. -/
def beyond (d : Dev) (a : Nat) (p : Int) : Bool := decide (axReg d (AX_SLIM_POS a) < p) || decide (p < axReg d (AX_SLIM_NEG a))

/-- Soft limits are checked: referenced and not homing (R181). -/
def softOn (x : Axis) : Bool := x.ref && decide (x.st ≠ .homing)

/-- The step generators that follow an axis. -/
def followers (d : Dev) (a : Nat) : List Nat :=
  (List.range 32).filter (fun s => rdBit d (STP_CFG s) 0 && fld (rd d (STP_CFG s)) 6 1 == a)

/-- AX_VMAX passes the rate of the following generators (R198). -/
def rateOk (d : Dev) (a : Nat) (v : Int) : Bool :=
  (followers d a).all (fun s =>
    let num : Int := fld (rd d (STP_RATIO s)) 15 0
    let den : Int := fld (rd d (STP_RATIO s)) 31 16
    let pw : Int := fld (rd d (STP_TIMING s)) 9 0
    decide (v * num * pw ≤ 100000000 * den * 65536) && decide (v * num ≤ 5000000 * den * 65536))

/-- A limit used by a command: 0 refuses with CFG_ZERO, negative with CFG_RANGE (R177); none: usable. -/
def limitBad : List Int → Option Nat
  | [] => none
  | x :: t => if x = 0 then some 7 else if x < 0 then some 5 else limitBad t

/-- The motion limits of a command. -/
def AxRegs.limits (r : AxRegs) : List Int := [r.vm, r.am, r.dm, r.jm]
def moveLimits (d : Dev) (a : Nat) : List Int := (axRegs d a).limits

/-- A target or direction points towards an active limit switch (R181). -/
def towardsLimit (x : Axis) (dir : Int) : Bool := (decide (0 < dir) && x.limP.on) || (decide (dir < 0) && x.limN.on)

/-- The refusal code of a move to a target (p48.16) with registers r, in the order of Table 7-5 and then R177; none: accepted. -/
def refusalOf (d : Dev) (a : Nat) (r : AxRegs) (tgt : Int) (absolute : Bool) : Option Nat :=
  let x := axOf d a
  if ¬ (x.st = .idle ∨ x.st = .moving ∨ x.st = .stopping) then some 0x0301
  else if softOn x ∧ beyond d a tgt then some 0x0302
  else if absolute ∧ rdBit d (AX_CFG a) 7 ∧ x.ref = false then some 0x0303
  else if towardsLimit x (tgt - posCmd x) then some 0x0304
  else if gateClosed d a then some 0x0305
  else if rateOk d a r.vm = false then some 0x0306
  else limitBad r.limits

/-- The same with the registers as they stand. -/
def moveRefusal (d : Dev) (a : Nat) (tgt : Int) (absolute : Bool) : Option Nat := refusalOf d a (axRegs d a) tgt absolute

/-- Plan to the target with the outcome of R186: normal, overshoot, reverse, or the soft-limit fault. -/
def axPlan (d : Dev) (a : Nat) : Dev :=
  let x := axOf d a
  let here := posCmd x
  let turn := here + haltDist x x.lim.dm x.lim.jm
  let fwd := decide (0 < x.v)
  let moving := decide (x.v ≠ 0)
  let behind := moving && (if fwd then decide (x.target < here) else decide (here < x.target))
  let past := moving && (if fwd then decide (x.target < turn) else decide (turn < x.target))
  if past ∧ softOn x ∧ beyond d a turn then axFault d a 0x0310
  else
    setAx d a { x with jog := false, overshoot := past && !behind, reverse := behind,
                       plan := planTo x x.target x.lim.vm x.lim.am x.lim.dm x.lim.jm past }

/-- Plan the jog of the axis (R186, R187): with soft limits it is to end at rest at the soft limit in its direction; without, and beyond
that limit already, it cruises on. A turn point beyond that limit, or, against the travel, beyond either, is the soft-limit fault. -/
def axJogPlan (d : Dev) (a : Nat) : Dev :=
  let x := axOf d a
  let dir := x.jogDir
  let turn := posCmd x + haltDist x x.lim.dm x.lim.jm
  let lim := if 0 < dir then axReg d (AX_SLIM_POS a) else axReg d (AX_SLIM_NEG a)
  let ahead := softOn x && decide (0 ≤ (lim - posCmd x) * dir)
  let rev := decide (x.v * dir < 0)
  if softOn x ∧ (lim * dir < turn * dir ∨ (rev = true ∧ beyond d a turn = true)) then axFault d a 0x0310
  else setAx d a { x with jog := !ahead, overshoot := false, reverse := rev, target := lim,
                          plan := if ahead then planTo x lim x.lim.vm x.lim.am x.lim.dm x.lim.jm rev
                                  else planSpeed x (dir * x.lim.vm) x.lim.am x.lim.dm x.lim.jm }

/-- The plan that the accepted moves and jogs of a compute window ask for, once (R184). -/
def axReplan (d : Dev) (a : Nat) : Dev :=
  if (axOf d a).st ≠ .moving then d else if (axOf d a).jogDir ≠ 0 then axJogPlan d a else axPlan d a

/-! ### Commands

A command answers the state, whether it was accepted, and whether a plan is due. -/

/-- A refused command, reported to its lane as well. -/
def axNo (d : Dev) (a : Nat) (c : AxCmd) (code : Nat) : Dev × Bool × Bool :=
  let d := axRefuse d a code
  (match c.lane with | some l => actRej d l.1 l.2 | none => d, false, false)

/-- An accepted move: at once where the axis stands in IDLE on the target (R182), planned otherwise. -/
def axMove (d : Dev) (a : Nat) (r : AxRegs) (tgt : Int) : Dev × Bool × Bool :=
  let x := axOf d a
  if x.st = .idle ∧ tgt = posCmd x then
    (bump (setAx d a { x with done := true, target := tgt, overshoot := false, reverse := false, interrupted := false, lim := r }) (AX_MOVE_CNT a), true, false)
  else
    (setAx d a { x with st := .moving, target := tgt, jogDir := 0, done := false, overshoot := false, reverse := false, interrupted := false,
                        estop := false, lim := r }, true, true)

/-- A move command: refused, or accepted. -/
def axMoveTo (d : Dev) (a : Nat) (c : AxCmd) (tgt : Int) (absolute : Bool) : Dev × Bool × Bool :=
  match refusalOf d a c.r tgt absolute with
  | some e => axNo d a c e
  | none => axMove d a c.r tgt

/-- The target of a relative move: from the present target, or from AX_POS_CMD when IDLE. -/
def relTarget (d : Dev) (a : Nat) (dist : Int) : Int := let x := axOf d a; (if x.st = .idle then posCmd x else x.target) + dist

/-- JOG_POS and JOG_NEG (dir 1 or -1): R181. -/
def axJogCmd (d : Dev) (a : Nat) (c : AxCmd) (dir : Int) : Dev × Bool × Bool :=
  let x := axOf d a
  if ¬ (x.st = .idle ∨ x.st = .moving ∨ x.st = .stopping) then axNo d a c 0x0301
  else if towardsLimit x dir then axNo d a c 0x0304
  else if gateClosed d a then axNo d a c 0x0305
  else if rateOk d a c.r.vm = false then axNo d a c 0x0306
  else match limitBad c.r.limits with
    | some e => axNo d a c e
    | none => (setAx d a { x with st := .moving, jogDir := dir, done := false, overshoot := false, reverse := false, interrupted := false,
                                  estop := false, lim := c.r }, true, true)

/-- UPDATE (R184): replan the present move or jog with the present limits and target; refused in the order of Table 7-5. -/
def axUpdateCmd (d : Dev) (a : Nat) (c : AxCmd) : Dev × Bool × Bool :=
  let x := axOf d a
  if x.st ≠ .moving then axNo d a c 0x0301
  else if x.jogDir = 0 ∧ softOn x ∧ beyond d a x.target then axNo d a c 0x0302
  else if towardsLimit x (if x.jogDir = 0 then x.target - posCmd x else x.jogDir) then axNo d a c 0x0304
  else if rateOk d a c.r.vm = false then axNo d a c 0x0306
  else match limitBad c.r.limits with
    | some e => axNo d a c e
    | none => (setAx d a { x with lim := c.r }, true, true)

/-- Begin a stop under DMAX and JMAX of the command in force (R176, R180). -/
def stopPlan (x : Axis) : Axis :=
  { x with plan := planHalt x x.lim.dm x.lim.jm, jog := false, armed := none, estop := false }

/-- STOP and GEAR_RELEASE lead to STOPPING from MOVING, GEARED and HOMING; so do the gate and RUN (R180). -/
def axToStopping (d : Dev) (a : Nat) : Dev :=
  let x := axOf d a
  setAx d a { stopPlan x with st := .stopping, done := false, hres := if x.st = .homing then 4 else x.hres, hphase := 0, hnext := .none }

/-- STOP (R180): a limit of the stop that is 0 or negative refuses it (R177). -/
def axStopCmd (d : Dev) (a : Nat) (c : AxCmd) : Dev × Bool × Bool :=
  let x := axOf d a
  if x.st = .moving ∨ x.st = .homing ∨ x.st = .geared then
    match limitBad [c.r.dm, c.r.jm] with
    | some e => axNo d a c e
    | none => (axToStopping (setAx d a { x with lim := c.r }) a, true, false)
  else axNo d a c 0x0301

/-- ESTOP (R180): from MOVING, STOPPING, HOMING and GEARED; its limits are AX_EDEC and AX_EJERK (R177). -/
def axEstopCmd (d : Dev) (a : Nat) (c : AxCmd) : Dev × Bool × Bool :=
  let x := axOf d a
  if x.st = .moving ∨ x.st = .stopping ∨ x.st = .homing ∨ x.st = .geared then
    match limitBad [axReg d (AX_EDEC a), axReg d (AX_EJERK a)] with
    | some e => axNo d a c e
    | none =>
      (setAx d a { estopPlan d a x with st := .estopping, hres := if x.st = .homing then 4 else x.hres, hphase := 0, hnext := .none }, true, false)
  else axNo d a c 0x0301

/-- GEAR_RELEASE (Table 7-3): in GEARED, as STOP. -/
def axReleaseCmd (d : Dev) (a : Nat) (c : AxCmd) : Dev × Bool × Bool := if (axOf d a).st = .geared then axStopCmd d a c else axNo d a c 0x0301

/-- The master entry of an axis, and its value extended by the signed difference from the previous BP (R179). -/
def masterEntry (d : Dev) (a : Nat) : Nat := fld (rd d (AX_GEAR_SRC a)) 14 0
/-- Extend a 64-bit count by the signed 32-bit difference to an entry (R179). -/
def extend (old : Int) (seen : Bool) (w : W32) : Int :=
  if seen then old + sgn 32 (w - w32i old).toNat else sgn 32 w.toNat

/-- GEAR_ENGAGE (R181, R192): M0 the extended master, F0 the commanded position. -/
def axEngageCmd (d : Dev) (a : Nat) (c : AxCmd) : Dev × Bool × Bool :=
  let x := axOf d a
  if x.st ≠ .idle then axNo d a c 0x0301
  else if rdBit d (AX_CFG a) 7 ∧ x.ref = false then axNo d a c 0x0303
  else if gateClosed d a then axNo d a c 0x0305
  else if c.r.gden = 0 then axNo d a c 7
  else
    (setAx d a { x with st := .geared, m0 := x.m * 65536, f0 := posCmd x, num := c.r.gnum, den := c.r.gden, armed := none, plan := [], lim := c.r },
      true, false)

/-- GEAR_ARM (R193). -/
def axArmCmd (d : Dev) (a : Nat) (c : AxCmd) : Dev × Bool × Bool :=
  let x := axOf d a
  if x.st ≠ .geared then axNo d a c 0x0301
  else if c.r.aden = 0 then axNo d a c 7
  else (setAx d a { x with armed := some ⟨c.r.anum, c.r.aden, c.r.adir, c.r.mpos⟩ }, true, false)

/-- Shift the commanded and the actual position together (SET_POS, R206). -/
def axShift (x : Axis) (by_ : Int) : Axis := { x with p := x.p + by_ * 2 ^ 48, fbOff := x.fbOff + by_, hist := x.hist.map (· + by_) }

/-- SET_POS (Table 7-3): IDLE or DISABLED only. -/
def axSetPosCmd (d : Dev) (a : Nat) (c : AxCmd) : Dev × Bool × Bool :=
  let x := axOf d a
  if x.st = .idle ∨ x.st = .disabled then (setAx d a { axShift x (c.r.tgt - posCmd x) with ref := true }, true, false) else axNo d a c 0x0301

/-! ### Homing (R205 to R208) -/

/-- METHOD. -/
def hMethod (d : Dev) (a : Nat) : Nat := fld (rd d (AX_HOME_CFG a)) 2 0

/-- The search direction of a method (Table 7-9). -/
def hSearchDir (m : Nat) : Int := if m = 0 ∨ m = 2 ∨ m = 5 ∨ m = 6 then 1 else -1

/-- Run in a direction at a homing velocity. -/
def hRun (x : Axis) (dir vel : Int) : Axis :=
  { x with hdir := dir, jog := true, plan := planSpeed x (dir * vel) x.lim.am x.lim.dm x.lim.jm }

/-- Come to rest under DMAX, and do a thing at standstill. -/
def hRest (x : Axis) (nx : HNext) : Axis :=
  { x with plan := planHalt x x.lim.dm x.lim.jm, jog := false, hnext := nx }

/-- The velocities a method uses (R205). -/
def hVels (r : AxRegs) (m : Nat) : List Int := if m = 7 then [] else if m = 6 then [r.hv2] else [r.hv1, r.hv2]

/-- The search velocity: HVEL2 in method 6. -/
def hSearchVel (r : AxRegs) (m : Nat) : Int := if m = 6 then r.hv2 else r.hv1

/-- The reference is found (R206): positions shift so that it becomes AX_HOME_OFS, then FINAL. -/
def homeFound (d : Dev) (a : Nat) (refPos : Int) : Dev :=
  let x := axShift (axOf d a) ((axOf d a).lim.hofs - refPos)
  setAx d a { hRest x .ok with hphase := 4 }

/-- Homing ends with HOME_FAIL (R207). -/
def homeFail (d : Dev) (a : Nat) : Dev :=
  let x := axOf d a
  let d := wr64 d (AX_FLT_POS a) (u64 (posCmd x))
  let d := err (setAx d a { hRest x .fail with hphase := 0 }) (.ax a) 0x0320 0
  axRecord d a 0x0320

/-- Homing ends with HOME_CHATTER (R208): an emergency stop. -/
def homeChatter (d : Dev) (a : Nat) : Dev :=
  let x := axOf d a
  let d := wr64 d (AX_FLT_POS a) (u64 (posCmd x))
  let d := err (setAx d a { estopPlan d a x with hphase := 0, hnext := .chatter }) (.ax a) 0x0321 0
  axRecord d a 0x0321

/-- The index count of the feedback encoder's block, and the extended index position (R203). -/
def idxCount (d : Dev) (a : Nat) : Nat := (sigVal d (fld (rd d (ENC_DST (fbEnc d a))) 14 0 + 2)).toNat
def idxPos (d : Dev) (a : Nat) : Int :=
  let x := axOf d a
  (extend x.fb true (sigVal d (fld (rd d (ENC_DST (fbEnc d a))) 14 0 + 1))) * 65536 + x.fbOff

/-- Start a homing phase from standstill: 1 SEARCH, 2 BACKOFF, 3 INDEX. INDEX counts from the edge that ended BACKOFF; an index passed
since then is the reference already (Table 7-9). -/
def homePhase (d : Dev) (a ph : Nat) : Dev :=
  let x := { axOf d a with hphase := ph, hnext := .none }
  let m := hMethod d a
  let back := -(if x.hdir = 0 then hSearchDir m else x.hdir)
  match ph with
  | 1 => setAx d a (hRun { x with idx := idxCount d a, idxAt := none } (hSearchDir m) (hSearchVel x.lim m))
  | 2 => setAx d a (hRun x back x.lim.hv2)
  | _ => match x.idxAt with
    | some p => homeFound (setAx d a x) a p
    | none => setAx d a (hRun x x.hdir x.lim.hv2)

/-- HOME (R181, R205). -/
def axHomeCmd (d : Dev) (a : Nat) (c : AxCmd) : Dev × Bool × Bool :=
  let x := axOf d a
  let m := hMethod d a
  if x.st ≠ .idle then axNo d a c 0x0301
  else if gateClosed d a then axNo d a c 0x0305
  else if rateOk d a c.r.vm = false then axNo d a c 0x0306
  else match limitBad ([c.r.am, c.r.dm, c.r.jm] ++ hVels c.r m) with
    | some e => axNo d a c e
    | none =>
      let x := { x with st := .homing, ref := false, hres := 0, hphase := 1, chat := 0, hrev := false, done := false,
                        hdir := hSearchDir m, hnext := .none, idxAt := none, estop := false, lim := c.r }
      let d := setAx d a x
      (if m = 7 then homeFound d a (posAct d a)
       else if m ≤ 3 ∧ x.home.on then homePhase d a 2
       else homePhase d a 1, true, false)

/-- The switch that ends SEARCH of a method: 0 home, 1 negative limit, 2 positive limit, 3 none (Table 7-9). -/
def hEndSwitch (m : Nat) : Nat := if m ≤ 3 then 0 else if m = 4 then 1 else if m = 5 then 2 else 3

/-- A debounced change of a switch while homing (R205 to R208): w 0 home, 1 negative limit, 2 positive limit; pos and idx are the position
and the index count at its edge. A run that has ended takes no further outcome; while the axis comes to rest between two phases, the
phase is still the one it leaves: a home switch then ends SEARCH, a limit in BACKOFF is HOME_FAIL. -/
def homeSwitch (d : Dev) (a w : Nat) (on : Bool) (pos : Int) (idx : Nat) : Dev :=
  let x0 := axOf d a
  let d := setAx d a { x0 with chat := x0.chat + 1 }
  let x := axOf d a
  let m := hMethod d a
  let along := decide ((w = 2 ∧ 0 < x.hdir) ∨ (w = 1 ∧ x.hdir < 0))
  if x.hnext = .fail ∨ x.hnext = .chatter then d
  else if fld (rd d (AX_SW_FILT a)) 19 16 < x.chat then homeChatter d a
  else if x.hphase = 4 ∨ x.hphase = 0 ∨ x.hnext = .ok then d
  else if x.hphase = 1 then
    if on ∧ w = hEndSwitch m then
      (if x.hnext = .none ∨ x.hnext = .reverse then setAx d a (hRest x (.phase 2)) else d)
    else if on ∧ w ≠ 0 then
      if m = 4 ∨ m = 5 ∨ x.hrev then homeFail d a
      else if along then (if x.hnext = .none then setAx d a (hRest { x with hrev := true } .reverse) else d)
      else homeFail d a
    else d
  else
    if on ∧ w ≠ 0 then homeFail d a
    else if x.hphase = 2 ∧ x.hnext = .none ∧ w = hEndSwitch m ∧ on = false then
      if m = 2 ∨ m = 3 then setAx d a (hRest { x with idx := idx, idxAt := none } (.phase 3)) else homeFound d a pos
    else d

/-- A switch of an axis replaced: 0 home, 1 negative limit, 2 positive limit. -/
def swPut (x : Axis) (w : Nat) (s : Sw) : Axis := if w = 0 then { x with home := s } else if w = 1 then { x with limN := s } else { x with limP := s }

/-- A debounced change of a switch (R204): homing, or the limit in the direction of travel (R189). -/
def switchChange (d : Dev) (a w : Nat) (on : Bool) (pos : Int) (idx : Nat) : Dev :=
  let x := axOf d a
  let s : Sw := ⟨on, 0, pos, idx⟩
  let x := swPut x w s
  let d := setAx d a x
  if x.st = .homing then homeSwitch d a w on pos idx
  else if on ∧ (x.st = .moving ∨ x.st = .stopping ∨ x.st = .geared) ∧ ((w = 2 ∧ 0 < x.v) ∨ (w = 1 ∧ x.v < 0)) then
    err (setAx d a { estopPlan d a x with st := .estopping }) (.ax a) 0x0322 0
  else d

/-- The switch w of an axis, and its source register. -/
def swOf (x : Axis) (w : Nat) : Sw := if w = 0 then x.home else if w = 1 then x.limN else x.limP
def swSrc (d : Dev) (a w : Nat) : W32 := rd d (if w = 0 then AX_HOME_SRC a else if w = 1 then AX_LIMN_SRC a else AX_LIMP_SRC a)

/-- One BP of the debounce of a switch (R204); one that is not enabled is never active. -/
def debounce (d : Dev) (a w : Nat) : Dev :=
  let src := swSrc d a w
  let x := axOf d a
  let s := swOf x w
  let raw := srcBit d src
  if bit src 22 = false then setAx d a (swPut x w { s with on := false, run := 0 })
  else if raw = s.on then setAx d a (swPut x w { s with run := 0 })
  else
    let s' : Sw := { s with run := s.run + 1, pos := if s.run = 0 then posAct d a else s.pos, idx := if s.run = 0 then idxCount d a else s.idx }
    if fld (rd d (AX_SW_FILT a)) 9 0 ≤ s'.run then switchChange d a w raw s'.pos s'.idx else setAx d a (swPut x w s')

/-! ### The compute window (R180) -/

/-- Standstill of the generator. -/
def atRest (x : Axis) : Bool := x.plan.isEmpty && !x.jog && x.v == 0 && x.a == 0

/-- AXIS_PROFILE_END: a profile that has run out ends the move, on its target (R180, R183). -/
def axProfileEnd (d : Dev) (a : Nat) : Dev :=
  let x := axOf d a
  if x.st = .moving ∧ x.jog = false ∧ x.plan = [] then bump (setAx d a { x with st := .idle, done := true }) (AX_MOVE_CNT a) else d

/-- The end of a homing run: HRES, IDLE, AX_MOVE_CNT (R180, R206 to R208). -/
def homeEnd (d : Dev) (a res : Nat) (ref : Bool) : Dev :=
  let x := axOf d a
  bump (setAx d a { x with st := .idle, hres := res, hphase := 0, hnext := .none, ref := ref || x.ref, done := true }) (AX_MOVE_CNT a)

/-- AXIS_STANDSTILL: what standstill leads to in STOPPING, ESTOPPING, HOMING and FAULT (R180, R205). -/
def axStandstill (d : Dev) (a : Nat) : Dev :=
  let x := axOf d a
  let rest := if runBit d (.ax a) then AxSt.idle else .disabled
  if atRest x = false then d else
  match x.st with
  | .stopping => bump (setAx d a { x with st := rest, done := true }) (AX_MOVE_CNT a)
  | .estopping => setAx d a { x with st := rest }
  | .fault => if runBit d (.ax a) then d else setAx d a { x with st := .disabled }
  | .homing =>
    match x.hnext with
    | .none => d
    | .phase n => homePhase d a n
    | .reverse => setAx d a (hRun { x with hnext := .none } (-x.hdir) (hSearchVel x.lim (hMethod d a)))
    | .ok => homeEnd d a 1 true
    | .fail => homeEnd d a 2 false
    | .chatter => homeEnd d a 3 false
  | _ => d

/-- Feedback and master of a BP (R179, R196). -/
def axInputs (d : Dev) (a : Nat) : Dev :=
  let x := axOf d a
  let e := fld (rd d (ENC_DST (fbEnc d a))) 14 0
  let x := if fbEn d a then { x with fb := extend x.fb x.fbSeen (sigVal d e), fbSeen := true } else x
  let d := setAx d a { x with m := extend x.m x.mSeen (sigVal d (masterEntry d a)), mSeen := true }
  let lost := fbEn d a && (sigSafe d e || (decide (x.st = .homing) && decide (2 ≤ hMethod d a ∧ hMethod d a ≤ 3 ∨ hMethod d a = 6) && sigSafe d (e + 1)))
  if lost then axFaultIf d a 0x0313 else d

/-- The rows of Table 7-6 that RUN and the gate cause (R180, R188). -/
def axByRun (d : Dev) (a : Nat) : Dev :=
  let x := axOf d a
  match x.st with
  | .disabled =>
    if axRun d a then
      if axReg d (AX_EDEC a) = 0 ∨ axReg d (AX_EJERK a) = 0 then
        err (wrBit d (axBase a + BLK_CTRL) 0 false) (.ax a) 7 (axBase a + BLK_CTRL)
      else
        setAx d a { x with st := .idle, p := if fbEn d a then posAct d a * 2 ^ 48 else x.p, v := 0, a := 0, plan := [], jog := false,
                           ref := x.ref || fbAbs d a }
    else d
  | .idle => if axRun d a then d else setAx d a { x with st := .disabled }
  | .moving | .geared => if axRun d a ∧ gateClosed d a = false then d else axToStopping d a
  | _ => d

/-- The gear position of a BP (R192): floor division of the exact product. -/
def gearPos (x : Axis) : Int := x.f0 + (x.m * 65536 - x.m0) * x.num / x.den

/-- One BP of the profile (R178). -/
def advance (x : Axis) : Axis :=
  let q := planNext x.plan
  { genStep x q.1 with plan := q.2 }

/-- GEARED: follow the master, take an armed ratio, watch AX_VMAX (R192 to R194). -/
def axGearStep (d : Dev) (a : Nat) : Dev :=
  let x := axOf d a
  let f := gearPos x
  let vel := f * 2 ^ 48 - x.p
  let m := x.m * 65536
  let x1 := { x with p := f * 2 ^ 48, a := vel - x.v, v := vel }
  let x2 := match x.armed with
    | some g => if (if g.down then m ≤ g.mpos else g.mpos ≤ m) then { x1 with f0 := f, m0 := m, num := g.num, den := g.den, armed := none } else x1
    | none => x1
  if softOn x ∧ beyond d a f then
    let d := axFault d a 0x0310
    setAx d a (advance (axOf d a))
  else if vUnits x.lim.vm < (if vel < 0 then -vel else vel) then axFault (setAx d a { x2 with a := 0 }) a 0x0312
  else setAx d a x2

/-- AXIS_INTERPOLATE: one BP of the profile; outside an emergency stop, a next position beyond a soft limit is the fault of R187, whose
emergency stop begins with this BP. -/
def axInterpolate (d : Dev) (a : Nat) : Dev :=
  let x := axOf d a
  let y := advance x
  if (x.st = .moving ∨ x.st = .stopping) ∧ softOn x = true ∧ beyond d a (posCmd y) = true then
    let d := axFault d a 0x0310
    setAx d a (advance (axOf d a))
  else setAx d a y

/-- The index in homing (R203, R205): in SEARCH of method 6 and in INDEX it is the reference; one that passes between the edge that ended
BACKOFF and the start of INDEX is kept. -/
def axIndex (d : Dev) (a : Nat) : Dev :=
  let x := axOf d a
  if x.st ≠ .homing ∨ idxCount d a = x.idx then d
  else if x.hnext = .none ∧ ((x.hphase = 1 ∧ hMethod d a = 6) ∨ x.hphase = 3) then homeFound d a (idxPos d a)
  else if x.hphase = 2 ∧ x.hnext = .phase 3 ∧ x.idxAt = none then setAx d a { x with idxAt := some (idxPos d a) }
  else d

/-- Deviation and stall (R195): formed with FB_EN and a window; the timer counts an unbroken run of BPs outside, the first one as 0. -/
def axDeviation (d : Dev) (a : Nat) : Dev :=
  let x := axOf d a
  let win := rdN d (AX_DEV_WIN a)
  if fbEn d a && win != 0 then
    let lag := fld (rd d (AX_DEV_CFG a)) 3 0
    let dv := posAct d a - nth x.hist (1 + lag) (posCmd x)
    let out := decide ((win * 256 : Int) < (if dv < 0 then -dv else dv))
    setAx d a { x with dev := clampI (-(2 ^ 31)) (2 ^ 31 - 1) (dv / 256), devOut := out,
                       devTimer := if out then (if x.devOut then x.devTimer + 1 else 0) else 0 }
  else setAx d a { x with devOut := false, devTimer := 0 }

/-- The command of a BP enters the history. -/
def axHist (d : Dev) (a : Nat) : Dev := let x := axOf d a; setAx d a { x with hist := (posCmd x :: x.hist).take 17 }

/-- AXIS_STALL: the deviation timer has reached DEV_TIME (R195). -/
def axStall (d : Dev) (a : Nat) : Dev :=
  let x := axOf d a
  if x.devOut ∧ fld (rd d (AX_DEV_CFG a)) 31 16 ≤ x.devTimer then axFaultIf d a 0x0311 else d

/-- The publish block of an axis (R190, R191), staged for C2. -/
def axPublish (d : Dev) (a : Nat) : Dev :=
  let r := rd d (AX_PUB a)
  let x := axOf d a
  if bit r 16 = false then d else
  let b := fld r 14 0
  let bad := decide (x.st = .fault ∨ x.st = .quarantined)
  let vn : Nat := rdN d (AX_VNORM a)
  let vel := if vn = 0 then 0 else satQ15 (nearest (velCmd x * 32768) (vn * 65536))
  let dv := satQ15 (((posAct d a - posCmd x) / 65536) * 2 ^ fld (rd d (AX_DEV_CFG a)) 7 4)
  let d := put2 d b (w32i (posCmd x / 65536)) bad
  let zero := bad || safeReq d (.ax a) || safeReq d (.mt (a / 8))
  let d := put2 d (b + 1) (if zero then 0 else ofQ15 vel) bad
  let d := put2 d (b + 2) (if zero then 0 else ofQ15 dv) bad
  put2 d (b + 3) (axStat d a) bad

/-- The step generator that drives an axis. -/
def axStp (d : Dev) (a : Nat) : Option Nat :=
  (List.range 32).find? (fun s => rdBit d (STP_CFG s) 0 && fld (rd d (STP_CFG s)) 6 1 == a)

/-- The position an axis adopts on resume (R209): the feedback, else STP_CNT × DEN / NUM, else as committed. -/
def backPos (d : Dev) (a : Nat) : Int :=
  if fbEn d a then posAct d a
  else match axStp d a with
    | some s =>
      let n := fld (rd d (STP_RATIO s)) 15 0
      if n = 0 then posCmd (axOf d a) else s64 (rd64 d (STP_CNT s)) * (65536 * fld (rd d (STP_RATIO s)) 31 16 : Nat) / (n : Nat)
    | none => posCmd (axOf d a)

/-- An axis at its first BP after a resume (R209). -/
def axResume (d : Dev) (a : Nat) : Dev :=
  let x := axOf d a
  match x.back with
  | none => d
  | some vin =>
    let cut := decide (x.v ≠ 0) || decide (x.a ≠ 0) || !x.plan.isEmpty || x.jog
    let y := { x with p := backPos d a * 2 ^ 48, v := 0, a := 0, plan := [], jog := false, back := none, armed := none, cmds := if vin then [] else x.cmds,
                      interrupted := x.interrupted || cut, ref := x.ref && (!vin || fbAbs d a) }
    match x.st with
    | .moving => if vin || x.jog || x.jogDir ≠ 0 then setAx d a { y with st := .idle } else axPlan (setAx d a y) a
    | .homing => setAx d a { y with st := .idle, hres := 4, hphase := 0, hnext := .none }
    | .stopping | .estopping | .geared => setAx d a { y with st := .idle }
    | .fault => setAx d a { y with st := if vin then .disabled else .fault }
    | _ => setAx d a y

/-! ### Commands of a window -/

/-- A command of Table 7-3. -/
def axAct (d : Dev) (a : Nat) (c : AxCmd) : Dev × Bool × Bool :=
  match c.code with
  | 0 => (d, false, false)
  | 1 => axMoveTo d a c c.r.tgt true
  | 2 => axMoveTo d a c (relTarget d a c.r.tgt) false
  | 3 => axUpdateCmd d a c
  | 4 => axJogCmd d a c 1
  | 5 => axJogCmd d a c (-1)
  | 6 => axStopCmd d a c
  | 7 => axEstopCmd d a c
  | 8 => axHomeCmd d a c
  | 9 => axEngageCmd d a c
  | 10 => axArmCmd d a c
  | 11 => axReleaseCmd d a c
  | 12 => axSetPosCmd d a c
  | _ => axNo d a c 5

/-- The commands that wait, in arrival order, and one plan for all of them (R184); whether any was accepted. -/
def axTake (d : Dev) (a : Nat) : Dev × Bool :=
  let x := axOf d a
  let k := x.cmds.foldl (fun (k : Dev × Bool × Bool) c =>
    let r := axAct k.1 a c
    (r.1, k.2.1 || r.2.1, k.2.2 || r.2.2)) (setAx d a { x with cmds := [] }, false, false)
  (if k.2.2 then axReplan k.1 a else k.1, k.2.1)

/-- A command is committed: it waits for the axis's next compute window with the registers it reads (R176, R180). -/
def axQueue (d : Dev) (a code : Nat) (lane : Option (Nat × Nat)) : Dev :=
  setAx d a { axOf d a with cmds := (axOf d a).cmds ++ [⟨code, axRegs d a, lane⟩] }

/-- A write of AX_CMD. -/
def axCommand (d : Dev) (a : Nat) (v : W32) : Dev := if fld v 3 0 = 0 then d else axQueue d a (fld v 3 0) none

/-- A lane's AXIS_MOVE: a write of AX_TGT followed by MOVE_ABS or MOVE_REL (R181). -/
def laneAxisMove (d : Dev) (a : Nat) (rel : Bool) (v l loc : Nat) : Dev := axQueue (wr64 d (AX_TGT a) v) a (if rel then 2 else 1) (some (l, loc))

/-- A command row: the axis takes the command with the registers as they stand. -/
def axRow (d : Dev) (a code : Nat) : Dev :=
  let k := axAct d a ⟨code, axRegs d a, none⟩
  if k.2.2 then axReplan k.1 a else k.1

/-- The rows AX_MOVE_ABS to AX_SET_POS (Table 7-3). -/
def axMoveAbs (d : Dev) (a : Nat) : Dev := axRow d a 1
def axMoveRel (d : Dev) (a : Nat) : Dev := axRow d a 2
def axUpdate (d : Dev) (a : Nat) : Dev := axRow d a 3
def axJog (d : Dev) (a : Nat) (neg : Bool) : Dev := axRow d a (if neg then 5 else 4)
def axStop (d : Dev) (a : Nat) : Dev := axRow d a 6
def axEstop (d : Dev) (a : Nat) : Dev := axRow d a 7
def axHome (d : Dev) (a : Nat) : Dev := axRow d a 8
def axGearEngage (d : Dev) (a : Nat) : Dev := axRow d a 9
def axGearArm (d : Dev) (a : Nat) : Dev := axRow d a 10
def axGearRelease (d : Dev) (a : Nat) : Dev := axRow d a 11
def axSetPos (d : Dev) (a : Nat) : Dev := axRow d a 12

/-- The work of one axis in the compute window (R180): inputs of C1, faults and switches; then the commands; then, where none of these
has moved the axis on, the rows of RUN and the gate; then one BP of motion, whose end counts where the state is still the one before. -/
def axTick (d : Dev) (a : Nat) : Dev :=
  let x0 := axOf d a
  if x0.st = .quarantined then d else
  let same (d : Dev) : Bool := x0.back.isNone && (axOf d a).st == x0.st
  let d := axStall (axDeviation (axResume (axInputs d a) a) a) a
  let d := axIndex ([0, 1, 2].foldl (fun d w => debounce d a w) d) a
  let k := axTake d a
  let d := if same d && !k.2 then axByRun k.1 a else k.1
  let d := if x0.st = .geared ∧ (axOf d a).st = .geared then axGearStep d a else axInterpolate d a
  let d := if same d then axStandstill (axProfileEnd d a) a else d
  axPublish (axHist d a) a

/-- The axes with anything to do: not DISABLED, with RUN set, or publishing. -/
def activeAxes (d : Dev) : List Nat :=
  (List.range 64).filter (fun a => (tfind d.axes a).isSome || (tfind d.regs (axBase a + BLK_CTRL)).isSome || (tfind d.regs (AX_PUB a)).isSome)

/-- Quarantine of an axis with its tile (R173, R180): publish entries safe as R191 gives. -/
def axQuarantine (d : Dev) (a : Nat) : Dev := axPublish (setAx d a { axOf d a with st := .quarantined, v := 0, a := 0, plan := [], jog := false }) a

/-- The device enters Held (R180): the emergency stop is computed, then nothing more. -/
def axHold (d : Dev) (a : Nat) : Dev :=
  let x := axOf d a
  if axLive x.st then setAx d a { estopPlan d a x with st := .held, hphase := 0, hnext := .none } else d

/-- MT_GRP_CMD (Table 7-1): START and STOP set or clear RUN, GO moves by a given way, each on the masked axes. -/
def mtGroupBy (go : Dev → Nat → Dev) (d : Dev) (m op : Nat) : Dev :=
  let mask := fld (rd d (MT_GRP_MASK m)) 7 0
  let as := ((List.range 8).filter (fun i => bit (w32 mask) i)).map (fun i => 8 * m + i)
  match op with
  | 1 => as.foldl (fun d a => wrBit d (axBase a + BLK_CTRL) 0 true) d
  | 2 => as.foldl (fun d a => wrBit d (axBase a + BLK_CTRL) 0 false) d
  | 3 => as.foldl go d
  | _ => d

/-- A group command row: the axes take GO at once; a write of MT_GRP_CMD: GO waits for their next compute window, as a MOVE_ABS. -/
def mtGroup (d : Dev) (m op : Nat) : Dev := mtGroupBy axMoveAbs d m op
def mtGroupWrite (d : Dev) (m op : Nat) : Dev := mtGroupBy (fun d a => axQueue d a 1 none) d m op

/-- HOME_CHATTER as an event of its own: more debounced changes than CHAT_N in this run (R208). -/
def axChatterEvent (d : Dev) (a : Nat) : Dev :=
  let x := axOf d a
  if x.st = .homing ∧ fld (rd d (AX_SW_FILT a)) 19 16 < x.chat ∧ x.hnext ≠ .chatter ∧ x.hnext ≠ .fail then homeChatter d a else d

/-- SWITCH_DEBOUNCED as an event: the debounced state of a switch in use becomes the other one (R204). -/
def axSwitchEvent (d : Dev) (a w : Nat) (on : Bool) : Dev :=
  if (swOf (axOf d a) w).on ≠ on ∧ bit (swSrc d a w) 22 then switchChange d a w on (posAct d a) (idxCount d a) else d

end Sys2Proof.Machine
end

