-- ==== Sys2Proof/Machine/MotionIo.lean ====
section
/-! DEFINITION. Step generators and encoder interfaces (chapter 07, R197 to R203). -/

namespace Sys2Proof.Machine

def stp0 : Stp := ⟨0, 0, 0, -2000, false, false, false⟩
def stpOf (d : Dev) (s : Nat) : Stp := tget stp0 d.stps s
def setStp (d : Dev) (s : Nat) (x : Stp) : Dev := { d with stps := tset stp0 d.stps s x }

/-- NUM, DEN, PW and DSU of a generator, its axis. -/
def stpNum (d : Dev) (s : Nat) : Nat := fld (rd d (STP_RATIO s)) 15 0
def stpDen (d : Dev) (s : Nat) : Nat := 65536 * fld (rd d (STP_RATIO s)) 31 16
def stpPw (d : Dev) (s : Nat) : Nat := fld (rd d (STP_TIMING s)) 9 0
def stpDsu (d : Dev) (s : Nat) : Nat := fld (rd d (STP_TIMING s)) 25 16
def stpAxis (d : Dev) (s : Nat) : Nat := fld (rd d (STP_CFG s)) 6 1

/-- The generator may emit: RUN and EN set, SAFE_REQ clear, its axis's tile not quarantined (R173, R199). -/
def stpActive (d : Dev) (s : Nat) : Bool :=
  runBit d (.stp s) && rdBit d (STP_CFG s) 0 && !outSafe d (.stp s) && !motQuar d (stpAxis d s / 8)

/-- The tick at which the line from s0 at t0 to s1 at t0 + 2000 ticks crosses a boundary b (R199): the nearest one. -/
def crossTick (s0 s1 b : Int) : Int :=
  let w := if s0 < s1 then s1 - s0 else s0 - s1
  let x := if s0 < b then b - s0 else s0 - b
  (2 * x * 2000 + w) / (2 * w)

/-- The nominal ticks of the steps of a BP: those carried first, then the boundaries crossed; at most 64 are formed. -/
def stepTicks (x : Stp) (den : Int) : List Int :=
  let f0 := x.s0 / den
  let f1 := x.s1 / den
  let n := min 64 (if f0 < f1 then f1 - f0 else f0 - f1).toNat
  let c := min 64 (if x.carried < 0 then -x.carried else x.carried).toNat
  List.replicate c 0 ++ (List.range n).map (fun (i : Nat) => crossTick x.s0 x.s1 (if f0 < f1 then (f0 + 1 + i) * den else (f0 - i) * den))

/-- The most steps of a BP: 10 us at R = min(5 MHz, 1 / (2 x PW)) (R198). -/
def stepCap (pw : Nat) : Nat := min 50 (2000 / (2 * pw))

/-- Delay steps to keep 2 x PW between edges; how many fit before the end of the BP, and the last edge (R199). -/
def fitSteps (gap : Int) : Int → List Int → Nat × Int
  | last, [] => (0, last)
  | last, t :: ts =>
    let u := max t (last + gap)
    if u < 2000 then let r := fitSteps gap u ts; (r.1 + 1, r.2) else (0, last)

/-- STEP_EMIT, first part: during a BP the generator emits the boundaries crossed between the latest two commands; DIR changes at t0 with the sign of their difference (R199). -/
def stpEmit (d : Dev) (s : Nat) : Dev :=
  let x := stpOf d s
  let den : Int := stpDen d s
  if stpActive d s = false ∨ x.seen = false then setStp d s { x with s0 := x.s1, carry := false }
  else
    let net := x.s1 / den - x.s0 / den + x.carried
    let up := if net = 0 then (if x.s0 = x.s1 then x.dir else decide (x.s0 < x.s1)) else decide (0 < net)
    if net = 0 then setStp d s { x with s0 := x.s1, carried := 0, carry := false, lastEdge := max (-4000) (x.lastEdge - 2000), dir := up }
    else
      let turn := up != x.dir
      let start : Int := if turn then max (x.lastEdge - 2000) ((stpDsu d s : Int) - 2 * stpPw d s) else x.lastEdge - 2000
      let r := fitSteps (2 * stpPw d s) start ((stepTicks x den).take (min net.natAbs (stepCap (stpPw d s))))
      let sent : Int := if up then r.1 else -(r.1 : Int)
      let left := net - sent
      let d := wr64 d (STP_CNT s) (u64 (s64 (rd64 d (STP_CNT s)) + sent))
      let d := setStp d s { x with s0 := x.s1, carried := left, carry := decide (left ≠ 0), lastEdge := r.2, dir := up }
      if left = 0 then d else axFaultIf (bump d (STP_CARRY_CNT s)) (stpAxis d s) 0x0314

/-- STEP_EMIT, second part: at C2 the generator takes the commanded position in full (R199). -/
def stpTake (d : Dev) (s : Nat) : Dev :=
  let x := stpOf d s
  let p := posCmd (axOf d (stpAxis d s)) * stpNum d s
  setStp d s { x with s1 := p, s0 := if x.seen then x.s0 else p, seen := true }

/-- The generators that are enabled or have carried steps. -/
def activeStps (d : Dev) : List Nat :=
  (List.range 32).filter (fun s => (tfind d.stps s).isSome || (tfind d.regs (STP_CFG s)).isSome)

/-! ### Encoders -/

def enc0 : Enc := ⟨false, false, false, false, 0, false⟩
def encOf (d : Dev) (e : Nat) : Enc := tget enc0 d.encs e
def setEnc (d : Dev) (e : Nat) (x : Enc) : Dev := { d with encs := tset enc0 d.encs e x }

/-- MODE and INV of an interface. -/
def encMode (d : Dev) (e : Nat) : Nat := fld (rd d (ENC_CFG e)) 1 0
def encInv (d : Dev) (e : Nat) : Bool := rdBit d (ENC_CFG e) 2

/-- RUN restarts an interface: VALID again (R201). -/
def encRestart (d : Dev) (e : Nat) : Dev :=
  let x := encOf d e
  if runBit d (.enc e) ∧ x.on = false ∧ encMode d e ≠ 0 then setEnc d e { x with on := true, valid := true, ssiErr := 0 }
  else if runBit d (.enc e) = false ∧ x.on then setEnc d e { x with on := false, valid := false } else d

/-- The edges an ABZ interface counted in the past BP, with the levels of A, B and Z (R200, R201). -/
def encCount (d : Dev) (e : Nat) (i : EncIn) : Dev :=
  if runBit d (.enc e) ∧ encMode d e = 1 then
    let n := s64 (rd64 d (ENC_POS e)) + (if encInv d e then -i.delta else i.delta)
    setEnc (wr64 d (ENC_POS e) (u64 n)) e { encOf d e with a := i.a, b := i.b, z := i.z }
  else d

/-- ENC_ENTRY_COMMIT: the three entries of an interface, staged for C1 (R203). -/
def encStage (d : Dev) (e : Nat) : Dev :=
  let r := rd d (ENC_DST e)
  let b := fld r 14 0
  if bit r 16 ∧ runBit d (.enc e) then
    let bad := !(encOf d e).valid
    put1 (put1 (put1 d b (rd d (ENC_POS e)) bad) (b + 1) (rd d (ENC_Z_POS e)) bad) (b + 2) (rd d (ENC_Z_CNT e)) bad
  else d

/-- The interfaces with anything to do. -/
def activeEncs (d : Dev) : List Nat :=
  (List.range 32).filter (fun e => (tfind d.regs (encBase e + BLK_CTRL)).isSome || (tfind d.encs e).isSome)

/-- ENC_QUAD_ERROR: A and B changed in one accepted sample (R201): counted, VALID clears until a restart. -/
def encQuadError (d : Dev) (e : Nat) : Dev :=
  if runBit d (.enc e) ∧ encMode d e = 1 then setEnc (bump d (ENC_QERR_CNT e)) e { encOf d e with valid := false } else d

/-- ENC_INDEX: an active index edge latches the count at the edge and its time stamp (R201). -/
def encIndex (d : Dev) (e : Nat) (pos ts : Nat) : Dev :=
  if runBit d (.enc e) ∧ encMode d e = 1 ∧ rdBit d (ENC_CFG e) 6 then
    setEnc (bump (wr64 (wr64 d (ENC_Z_POS e) pos) (ENC_Z_TS e) ts) (ENC_Z_CNT e)) e { encOf d e with z := !rdBit d (ENC_CFG e) 7 }
  else d

/-- Gray code to binary. -/
def grayNat : Nat → Nat → Nat
  | 0, g => g
  | n + 1, g => grayNat n (g ^^^ (g >>> 2 ^ n))

/-- SSI_FRAME: a frame of the interface, good or in error (R202). -/
def encSsi (d : Dev) (e raw : Nat) (good : Bool) : Dev :=
  let x := encOf d e
  let nb := fld (rd d (ENC_SSI e)) 5 0
  if runBit d (.enc e) = false ∨ encMode d e ≠ 2 then d
  else if good then
    let v := raw % 2 ^ nb
    let v := if rdBit d (ENC_SSI e) 6 then grayNat 6 v % 2 ^ nb else v
    setEnc (wr64 d (ENC_POS e) v) e { x with valid := true, ssiErr := 0 }
  else
    setEnc (bump d (ENC_SSI_ERR_CNT e)) e { x with ssiErr := x.ssiErr + 1, valid := x.valid && decide (x.ssiErr + 1 < 3) }

end Sys2Proof.Machine
end

