-- ==== Sys2Proof/Machine/PageCfg.lean ====
section
/-! DEFINITION. Writes to lane, motion tile, axis, encoder, step generator and logic processor pages (R66, R172, R176, R197,
R200, R211). -/

namespace Sys2Proof.Machine

/-! ### Motion -/

/-- Fields that an axis accepts only in DISABLED or IDLE (R176). -/
def axBusy (d : Dev) (a : Nat) : Option Nat := causeIf ((axOf d a).st != .disabled && (axOf d a).st != .idle) 6

/-- A configuration write of an axis page. -/
def axPut (d : Dev) (a r : Nat) (fs : List Fld) (v : W32) (before after : List (Option Nat)) : Dev := (cfgPut d (.ax a) r fs v before after).1

/-- AX_PUB: four entries, wide first and last, claimed and released (R190, R463). -/
def axPubWrite (d : Dev) (a : Nat) (v : W32) : Dev :=
  let r := rd d (AX_PUB a)
  let o := fld r 14 0
  let b := fld v 14 0
  let old := if bit r 16 then [o, o + 1, o + 2, o + 3] else []
  let new := if bit v 16 then [(b, true, (0 : W32)), (b + 1, false, 0), (b + 2, false, 0), (b + 3, true, 0)] else []
  routePut d (.ax a) (AX_PUB a) [maxF 14 0 32764, anyF 16 16] v [axBusy d a]
    [causeIf (bit v 16 && rdN d (AX_VNORM a) == 0) 7] clsAxis a old new

/-- A write of a switch source; a switch with EN = 0 is never active (R204). -/
def axSwWrite (d : Dev) (a w : Nat) (v : W32) : Dev :=
  let d := axPut d a (axBase a + 0x198 - 4 * w) [anyF 14 0, anyF 22 16] v [axBusy d a] []
  if bit (swSrc d a w) 22 then d else setAx d a (swPut (axOf d a) w { swOf (axOf d a) w with on := false, run := 0 })

/-- A write to an axis page (Table 7-2). -/
def axWrite (d : Dev) (a off : Nat) (v : W32) : Dev :=
  let r := axBase a + off
  match off with
  | 0x100 => axCommand (wr d r (onlyFlds [anyF 3 0] v)) a v
  | 0x108 => axPut d a r [anyF 8 0] v [axBusy d a] []
  | 0x10C => axPut d a r [anyF 14 0, anyF 20 16, anyF 21 21] v [axBusy d a] []
  | 0x138 | 0x13C | 0x140 | 0x144 | 0x148 | 0x14C | 0x150 | 0x154 => axPut d a r wordF v [axBusy d a] []
  | 0x180 => axPubWrite d a v
  | 0x184 => axPut d a r [⟨31, 0, 1, 0x7FFFFFFF⟩] v [axBusy d a] []
  | 0x188 => axPut d a r [anyF 7 0, anyF 31 16] v [] []
  | 0x190 => axSwWrite d a 2 v
  | 0x194 => axSwWrite d a 1 v
  | 0x198 => axSwWrite d a 0 v
  | 0x19C => axPut d a r [maxF 9 0 1000, ⟨19, 16, 1, 15⟩] v [axBusy d a] []
  | 0x1A0 => axPut d a r [anyF 2 0] v [axBusy d a] []
  | 0x1B8 => axPut d a r [anyF 14 0] v [axBusy d a] []
  | 0x1CC => axPut d a r [anyF 0 0] v [] []
  | _ => axPut d a r wordF v [] []

/-- A write to a motion tile page (Table 7-1). -/
def mtWrite (d : Dev) (m off : Nat) (v : W32) : Dev :=
  match off with
  | 0x114 => wr d (MT_GRP_MASK m) (onlyFlds [anyF 7 0] v)
  | 0x118 => mtGroupWrite (wr d (MT_GRP_CMD m) (onlyFlds [anyF 1 0] v)) m (fld v 1 0)
  | _ => d

/-- A write to a step generator page (Table 7-7): STP_TIMING out of range is CFG_RANGE. -/
def stpWrite (d : Dev) (s off : Nat) (v : W32) : Dev :=
  let a := stpBase s + off
  let p : Page := .stp s
  let en := causeIf (rdBit d (STP_CFG s) 0) 6
  let bad (hi lo : Nat) := causeIf (decide (fld v hi lo < 20) || decide (1000 < fld v hi lo)) 5
  match off with
  | 0x100 => (cfgPut d p a [anyF 8 0] v [causeIf (rdBit d (STP_CFG s) 0 && bit v 0) 6] []).1
  | 0x104 => (cfgPut d p a [anyF 9 0, anyF 25 16] v [en] [bad 9 0, bad 25 16]).1
  | 0x108 => (cfgPut d p a [⟨15, 0, 1, 65535⟩, ⟨31, 16, 1, 65535⟩] v [en] []).1
  | _ => d

/-- A write to an encoder page (Table 7-8). -/
def encWrite (d : Dev) (e off : Nat) (v : W32) : Dev :=
  let a := encBase e + off
  let p : Page := .enc e
  let run := causeIf (runBit d p) 6
  match off with
  | 0x100 => (cfgPut d p a [maxF 1 0 2, anyF 2 2, anyF 5 3, anyF 6 6, anyF 7 7] v [run] []).1
  | 0x104 =>
    let slow := decide (fld v 19 16 * 1000 + 1500 < (fld v 5 0 + 1) * fld v 15 8 * 10)
    (cfgPut d p a [⟨5, 0, 8, 40⟩, anyF 6 6, ⟨15, 8, 10, 255⟩, ⟨19, 16, 2, 8⟩, ⟨23, 20, 1, 15⟩] v [run] [causeIf slow 5]).1
  | 0x108 =>
    let r := rd d a
    let o := fld r 14 0
    let b := fld v 14 0
    let old := if bit r 16 then [o, o + 1, o + 2] else []
    let new := if bit v 16 then [(b, true, (0 : W32)), (b + 1, true, 0), (b + 2, true, 0)] else []
    routePut d p a [anyF 14 0, anyF 16 16] v [run] [] clsEnc e old new
  | _ => d

/-! ### Lanes and logic processors -/

/-- A write to a lane page (Table 3-1). -/
def laneRegWrite (d : Dev) (l off : Nat) (v : W32) : Dev :=
  let a := sqBase l + off
  match off with
  | 0x100 => laneQueue d l v
  | 0x118 => wr d a (onlyFlds [anyF 15 0] v)
  | 0x138 | 0x13C => wr d a v
  | _ =>
    if 0x200 ≤ off ∧ off < 0x400 then
      let k := (off - 0x200) / 16
      if off % 16 = 8 then laneArmWrite d l k v else if off % 16 < 8 then wr d a v else d
    else d

/-- A write to a logic processor page (Table 8-1, R211). -/
def lpRegWrite (d : Dev) (p off : Nat) (v : W32) : Dev :=
  let a := lpBase p + off
  match off with
  | 0x100 => lpCommand (wr d a (onlyFlds [anyF 3 0, anyF 8 8] v)) p v
  | 0x144 => forceCommand (wr d a (onlyFlds [anyF 1 0] v)) p v
  | 0x150 => wr d a (onlyFlds [anyF 7 0] v)
  | 0x108 | 0x10C | 0x120 | 0x124 | 0x13C | 0x140 => wr d a v
  | _ => d

end Sys2Proof.Machine
end

