-- ==== Sys2Proof/Machine/Wear.lean ====
section
/-! DEFINITION. The wear ledger (R446, R447): counts, thresholds, commands. -/

namespace Sys2Proof.Machine

/-- An entry nothing has set. -/
def wear0 : Wear := ⟨0, 0, 0, 0, false, false, 0, false⟩
def wearOf (d : Dev) (e : Nat) : Wear := tget wear0 d.wear e
def setWear (d : Dev) (e : Nat) (x : Wear) : Dev := { d with wear := tset wear0 d.wear e x }

/-- The threshold in units of the count: axes count travel in 65,536 counts. -/
def wearThr (e : Nat) (x : Wear) : Nat := if 128 ≤ e ∧ e < 192 then x.thr * 65536 else x.thr

/-- OVER of an entry, in the entry and in its HLTH_WL_OVER bit. -/
def setOver (d : Dev) (e : Nat) (b : Bool) : Dev := wrBit (setWear d e { wearOf d e with worn := b }) (HLTH_WL_OVER (e / 32)) (e % 32) b

/-- COUNT against THR after a change of either (R447). -/
def wearCheck (d : Dev) (e : Nat) : Dev :=
  let x := wearOf d e
  if x.thr ≠ 0 ∧ wearThr e x ≤ x.count then
    if x.worn then d
    else fieldFaultAt (bump (setOver d e true) HLTH_WL_CNT) 13 .hlth 0x1423 e 0
  else if x.worn then setOver d e false else d

/-- An entry counts n. -/
def wearAdd (d : Dev) (e n : Nat) : Dev :=
  if n = 0 then d else wearCheck (setWear d e { wearOf d e with count := (wearOf d e).count + n }) e

/-- Travel of an axis in units of 2^-16 counts, the fraction carried. -/
def wearTravel (d : Dev) (a u : Nat) : Dev :=
  let x := wearOf d (128 + a)
  let t := x.frac + u
  wearAdd (setWear d (128 + a) { x with frac := t % 65536 }) (128 + a) (t / 65536)

/-- The valve entries at C2: each 0-to-1 change of the named bit while EN is 1. -/
def wearValves (d : Dev) : Dev :=
  ((tkeys d.wear).filter (fun e => decide (192 ≤ e) && (wearOf d e).en)).foldl (fun d e =>
    let x := wearOf d e
    let b := sigBit d x.src x.bitNo
    let d := setWear d e { x with last := b }
    if b && !x.last then wearAdd d e 1 else d) d

/-- The 16 bytes of an entry (Table 18-10). -/
def wearBytes (x : Wear) : List W8 :=
  leBytes 8 x.count ++ leBytes 4 x.thr ++ leBytes 2 x.src ++ leBytes 1 (x.bitNo % 32 + 128 * b2n x.en) ++ leBytes 1 (b2n x.worn)

/-- The place of an entry in MRAM, and the entry's bytes put there. -/
def wearAt (e : Nat) : Nat := 0x18000 + 16 * e
def wearPut (d : Dev) (e : Nat) : Dev := { d with mram := mput d.mram (wearAt e) (wearBytes (wearOf d e)) }

/-- The entry that lies in MRAM; the fraction of a travel and the last state of a valve bit are not part of it. -/
def wearStored (d : Dev) (e : Nat) : Wear :=
  let n (o k : Nat) := mnum d.mram (wearAt e + o) k
  { wear0 with count := n 0 8, thr := n 8 4, src := n 12 2, bitNo := n 14 1 % 32, en := (n 14 1).testBit 7, worn := (n 15 1).testBit 0 }

/-- The entries that MRAM holds bytes of. -/
def wearHeld (d : Dev) : List Nat := (d.mram.filter (fun p => decide (0x18000 ≤ p.1) && decide (p.1 < 0x19C00))).map (fun p => (p.1 - 0x18000) / 16)

/-- An entry is what MRAM holds. -/
def wearBack (d : Dev) (e : Nat) : Dev := setOver (setWear d e (wearStored d e)) e (wearStored d e).worn

/-- The OVER bits are 0. -/
def overClear (d : Dev) : Dev := (List.range 14).foldl (fun d i => wrN d (HLTH_WL_OVER i) 0) d

/-- A start after which the counting hardware holds nothing: the entries are those of MRAM (R446: at most 1 s of counts is lost). -/
def wearLoad (d : Dev) : Dev := (wearHeld d).foldl wearBack (overClear { d with wear := [] })

/-- WL_NOP. -/
def wlNop (d : Dev) : Dev := d

/-- WL_SET (R447): HLTH_WL_THR, and for a valve entry HLTH_WL_SRC. -/
def wlSet (d : Dev) : Dev :=
  let e := fld (rd d HLTH_WL_SEL) 8 0
  if 448 ≤ e then err d .hlth 0x1421 HLTH_WL_CMD
  else
    let x := { wearOf d e with thr := rdN d HLTH_WL_THR }
    let s := rd d HLTH_WL_SRC
    let x := if 192 ≤ e then { x with src := fld s 14 0, bitNo := fld s 20 16, en := bit s 23, last := sigBit d (fld s 14 0) (fld s 20 16) } else x
    wearPut (wearCheck (setWear d e x) e) e

/-- WL_CLEAR_COUNT: COUNT 0, a record with the former count. -/
def wlClear (d : Dev) : Dev :=
  let e := fld (rd d HLTH_WL_SEL) 8 0
  if 448 ≤ e then err d .hlth 0x1421 HLTH_WL_CMD
  else
    let x := wearOf d e
    fieldFault (wearPut (wearCheck (setWear d e { x with count := 0, frac := 0 }) e) e) .hlth 0 e x.count

/-- A write of HLTH_WL_CMD. -/
def wlCommand (d : Dev) (v : W32) : Dev :=
  match fld v 1 0 with
  | 0 => wlNop d
  | 1 => wlSet d
  | 2 => wlClear d
  | _ => err d .hlth 0x1424 HLTH_WL_CMD

/-- WEAR_LEDGER_SAVE: the entries are written to MRAM. -/
def wearSave (d : Dev) : Dev := (tkeys d.wear).foldl wearPut d

end Sys2Proof.Machine
end

