-- ==== Sys2Proof/Machine/Analog.lean ====
section
/-! DEFINITION. Converter cores (R141 to R159): windows, results, entries, rotation, references, open-wire detection. -/

namespace Sys2Proof.Machine

/-! ### Cores -/

def slice0 (i : Nat) : Slice := if i < 8 then ⟨.active, i, 0, false, 0⟩ else ⟨.spare, 0, 0, false, 0⟩
def acCh0 : AcCh := ⟨[], false, false, 0, 0, false, 0, [], false, none⟩
/-- A core after a cold start: slices 0 to 7 active, slice 8 spare (log entry 16). -/
def core0 : Core := ⟨false, 0, 0, 0, 0, false, false, false, [], (List.range 9).map slice0, [], none, 0, [], 0, none⟩
def coreOf (d : Dev) (k : Nat) : Core := tget core0 d.cores k
def setCore (d : Dev) (k : Nat) (x : Core) : Dev := { d with cores := tset core0 d.cores k x }
def chOf (d : Dev) (k n : Nat) : AcCh := tget acCh0 (coreOf d k).chans n
def setCh (d : Dev) (k n : Nat) (c : AcCh) : Dev := setCore d k { coreOf d k with chans := tset acCh0 (coreOf d k).chans n c }

/-- A core after a reset: its retired slices stay retired; the spare takes the slot of one, two of them quarantine it (R155). -/
def bareCore (x : Core) : Core :=
  let r := (List.range 9).filter (fun i => (nth x.slices i (slice0 i)).role == .retired)
  let sl (i : Nat) : Slice :=
    if i ∈ r then ⟨.retired, 0, 0, false, 0⟩ else if i = 8 then (match r with | j :: _ => ⟨.active, j, 0, true, 0⟩ | [] => slice0 8) else slice0 i
  { core0 with slices := (List.range 9).map sl, quar := decide (2 ≤ r.length) }

/-- The core whose AC_CFG governs a pair, and whether core k is one half of a started pair (R152). -/
def evenOf (k : Nat) : Nat := k / 2 * 2
def paired (d : Dev) (k : Nat) : Bool :=
  rdBit d (AC_CFG (evenOf k)) 4 && runBit d (.ac (evenOf k)) && runBit d (.ac (evenOf k + 1))
/-- A pair with a quarantined half stops. -/
def pairDead (d : Dev) (k : Nat) : Bool := (coreOf d (evenOf k)).quar || (coreOf d (evenOf k + 1)).quar
def ichOf (d : Dev) (k : Nat) : Nat := fld (rd d (AC_CFG (evenOf k))) 11 8

/-- The reference of a core is settled: both halves of a pair use the even core's (R152, R156). -/
def settledOf (d : Dev) (k : Nat) : Bool := (coreOf d (if paired d k then evenOf k else k)).settled

/-- DEGRADED: a slice is retired. -/
def degraded (x : Core) : Bool := x.slices.any (fun s => s.role == .retired)
def calPer (d : Dev) (k : Nat) : Nat := fld (rd d (AC_CAL_PER k)) 13 0
/-- CAL_PAUSED (R153). -/
def calPaused (d : Dev) (k : Nat) : Bool := calPer d k == 0 || !settledOf d k || degraded (coreOf d k)

/-- Replace a slice. -/
def setSlice (x : Core) (i : Nat) (s : Slice) : Core := { x with slices := lset x.slices i s }
def sliceOf (x : Core) (i : Nat) : Slice := nth x.slices i (slice0 i)
/-- The first slice in a role; the active slice of a slot. -/
def sliceIn (x : Core) (f : Slice → Bool) : Option Nat := x.slices.findIdx? f

/-- A slice takes a slot (R153, R154). -/
def takeSlot (x : Core) (i slot : Nat) : Core := setSlice x i ⟨.active, slot, 0, true, 0⟩

/-- Exchanged slices that have delivered their windows enter CALIBRATING (R153). -/
def leave (x : Core) : Core :=
  { x with slices := (List.range 9).map (fun i =>
      let s := sliceOf x i
      if s.role = .leaving ∧ x.flight.all (fun c => c.slice != i) then ⟨.calibrating, 0, 0, false, 0⟩ else s) }

/-- The shadow becomes active (R146). -/
def takeShadow (d : Dev) (k : Nat) : Dev :=
  let d := (List.range 16).foldl (fun d w => wr d (AC_SEQA k w) (rd d (AC_SEQ k w))) d
  setCore d k { coreOf d k with len := fld (rd d (AC_SEQ_LEN k)) 6 0, pos := 0, pend := false }

/-- SEQ_COMMIT: at the next wrap; an idle core takes the shadow at once (R146). -/
def seqCommit (d : Dev) (k : Nat) : Dev :=
  let x := coreOf d k
  if x.on = false ∨ x.len = 0 ∨ paired d k then takeShadow d k else setCore d k { x with pend := true }

/-- RUN of a core changes (R145, R146). -/
def acRun (d : Dev) (k : Nat) : Dev :=
  let x := coreOf d k
  let run := runBit d (.ac k)
  if run && !x.on then
    let d := (List.range 16).foldl (fun d n => setCh d k n { chOf d k n with lastBp := bp d }) (setCore d k { x with on := true, slot := 0 })
    takeShadow d k
  else if !run && x.on then
    let d := (List.range 16).foldl (fun d n => setCh d k n { chOf d k n with use_ := [], any_ := false, kept := false }) d
    wrN (setCore d k (leave { coreOf d k with on := false, flight := [], xchg := none })) (AC_INVAL k) 0
  else d

/-! ### Quarantine and slices (R155, Table 6-8) -/

/-- Quarantine of a core. -/
def acQuarantine (d : Dev) (k code : Nat) : Dev :=
  if (coreOf d k).quar then d
  else
    let d := err (setCore d k { coreOf d k with quar := true, xchg := none, flight := [] }) (.ac k) code 0
    tileQuar d (.ac k) code 0

/-- A slice is retired: recorded, the core DEGRADED. -/
def retire (d : Dev) (k i detail : Nat) : Dev :=
  let d := setCore d k (setSlice (coreOf d k) i ⟨.retired, 0, 0, false, 0⟩)
  fieldFault (err d (.ac k) 0x0406 i) (.ac k) 0x0406 i detail

/-- An active slice failed its check twice: the spare takes its slot, or the core is lost; an exchanged one has given its slot up. -/
def sliceFails (d : Dev) (k i : Nat) : Dev :=
  let x := coreOf d k
  let d := wr d (AC_LOST_CNT k) (rd d (AC_LOST_CNT k) + 2)
  if degraded x then acQuarantine (setCore d k (setSlice x i ⟨.retired, 0, 0, false, 0⟩)) k 0x0403
  else
    let slot := (sliceOf x i).slot
    let d := retire d k i 1
    if (sliceOf x i).role = .leaving then d
    else match sliceIn x (fun s => s.role == .spare || s.role == .calibrating || s.role == .leaving) with
      | some s => setCore d k { takeSlot (coreOf d k) s slot with xchg := none }
      | none => d

/-- CAL_STORE_UE. -/
def calStoreUe (d : Dev) (k : Nat) : Dev := acQuarantine d k 0x0404

/-- CAL_ROTATION at a BP that is a multiple of PER: periods counted, the exchange becomes due (R153). -/
def calRotation (d : Dev) (k : Nat) : Dev :=
  let x := coreOf d k
  if x.on = false ∨ x.quar ∨ calPaused d k ∨ dueAt (bp d) (calPer d k) 0 = false ∨ x.xchg.isSome ∨ x.rotAt = some (bp d) then d
  else
    let sl := x.slices.map (fun s => if s.role = .active then { s with periods := min 65535 (s.periods + 1) } else s)
    let best := (List.range 9).foldl (fun b i =>
      let s := nth sl i default
      if s.role ≠ .active then b else match b with
        | some (j, q) => if q < s.periods then some (i, s.periods) else some (j, q)
        | none => some (i, s.periods)) none
    let y := { x with slices := sl, rotAt := some (bp d) }
    match best, sliceIn x (fun s => s.role == .spare) with
    | some (out, _), some sp => setCore d k { y with xchg := some (out, sp) }
    | _, _ => setCore d k y

/-- Within its bounds: offset 0.5 % and gain 1 % of full scale, trim 50 ps (R155). -/
def calGood (off gain skew : Int) : Bool :=
  decide (off.natAbs * 200 ≤ 2 ^ 23) && decide ((gain - 0x400000).natAbs * 100 ≤ 0x400000) && decide (skew.natAbs ≤ 500)

/-- SLICE_CAL_DONE: the calibrating slice's measurement; none is no result (R153, R155). -/
def sliceCalDone (d : Dev) (k : Nat) (res : Option (Int × Int × Int)) : Dev :=
  let x := coreOf d k
  match sliceIn x (fun s => s.role == .calibrating) with
  | none => d
  | some i =>
    if x.quar ∨ calPaused d k then d
    else match res with
      | some (off, gain, skew) =>
        if calGood off gain skew then
          let d := wrN (wrN (wrN d (AC_SL_OFF k i) (off % 0x1000000).toNat) (AC_SL_GAIN k i) (gain % 0x1000000).toNat) (AC_SL_SKEW k i) (skew % 65536).toNat
          bump (setCore d k (setSlice x i ⟨.spare, 0, 0, false, 0⟩)) (AC_CAL_CNT k)
        else retire d k i 0
      | none => retire d k i 0

/-! ### Reference (R156) -/

/-- REF_SETTLE and REF_LOST. -/
def refSettle (d : Dev) (k : Nat) : Dev := setCore d k { coreOf d k with settled := true }
def refLost (d : Dev) (k : Nat) : Dev := setCore d k { coreOf d k with settled := false }

/-! ### Windows and results (R144 to R147, R152) -/

/-- An entry of the active sequence. -/
def seqEntry (d : Dev) (k i : Nat) : Nat := fld (rd d (AC_SEQA k (i / 4))) (8 * (i % 4) + 7) (8 * (i % 4))

/-- The core converts. -/
def acConverts (d : Dev) (k : Nat) : Bool :=
  let x := coreOf d k
  x.on && !x.quar && (if paired d k then !pairDead d k else x.len != 0)

/-- The slot's exchange, if it is due at this window: the spare takes the slot, the outgoing slice delivers what it has sampled (R153). -/
def doExchange (x : Core) : Core :=
  match x.xchg with
  | some (out, sp) =>
    if (sliceOf x out).slot = x.slot ∧ (sliceOf x out).role = .active then
      leave (takeSlot (setSlice { x with xchg := none } out { sliceOf x out with role := .leaving }) sp x.slot)
    else x
  | none => x

/-- The position, tag and shadow after a window: a wrap after the last entry; a pair counts 16 results (R145, R146, R152). -/
def windowNext (d : Dev) (k : Nat) : Dev :=
  if paired d k then
    let e := evenOf k
    let x := coreOf d e
    let n := (x.pairN + 1) % 16
    setCore d e { x with pairN := n, tag := if n = 0 then (x.tag + 1) % 16 else x.tag }
  else
    let x := coreOf d k
    if x.len ≤ x.pos + 1 then
      let d := setCore d k { x with pos := 0, tag := (x.tag + 1) % 16 }
      if x.pend then takeShadow d k else d
    else setCore d k { x with pos := x.pos + 1 }

/-- ADC_WINDOW_START: the next slot's window starts at TB_NS w0. -/
def adcWindow (d : Dev) (k w0 : Nat) : Dev :=
  if acConverts d k then
    let x := doExchange (coreOf d k)
    let pr := paired d k
    let e := seqEntry d k x.pos
    let sl := (sliceIn x (fun s => s.role == .active && s.slot == x.slot)).getD 0
    let cv : Conv := { ch := if pr then ichOf d k else e % 16, cap := if pr then rdBit d (AC_CFG (evenOf k)) 5 else e / 128 % 2 == 1,
                       tag := if pr then (coreOf d (evenOf k)).tag else x.tag, slice := sl, w0 := w0, settled := settledOf d k }
    windowNext (setCore d k { x with flight := x.flight ++ [cv], slot := (x.slot + 1) % 8 }) k
  else d

/-- Open-wire: MODE of a channel, off where the current belongs to the partner (R158). -/
def owMode (d : Dev) (k n : Nat) : Nat :=
  let c := rd d (AC_CH_CFG k n)
  if bit c 7 && !(d.role == .solo || d.role == .authority) then 0 else fld c 4 3
/-- A sample beyond 0.95 x full scale in the direction of the current (R157). -/
def owBeyond (c : W32) (s : Int) : Bool := let v := if bit c 5 then s else -s; decide (19 * 2 ^ 23 < 20 * v)

/-- OPEN of a channel. -/
def setOpen (d : Dev) (k n : Nat) (b : Bool) : Dev := wrBit (setCh d k n { chOf d k n with open_ := b }) (AC_OPEN k) n b

/-- The open-wire counts with a result (R157). -/
def owResult (d : Dev) (k n : Nat) (s : Int) : Dev :=
  let c := rd d (AC_CH_CFG k n)
  let x := chOf d k n
  let b := owBeyond c s
  match owMode d k n with
  | 1 =>
    if b = x.open_ then setCh d k n { x with run := 0 }
    else if 7 ≤ x.run then setOpen (setCh d k n { x with run := 0 }) k n b
    else setCh d k n { x with run := x.run + 1 }
  | 2 => if bp d % 10000 < 100 then setCh d k n { x with hist := (b :: x.hist).take 8 } else d
  | _ => if x.open_ then setOpen d k n false else d

/-- A burst of 14 results is written, or dropped where the ring is full (R159). -/
def capPut (d : Dev) (k : Nat) (word : W32) (tb : Nat) : Dev :=
  let len := rdN d (AC_CAP_LEN k)
  if len = 0 then d
  else
    let x := coreOf d k
    let ws := x.burst ++ [word]
    let t := if x.burst.isEmpty then tb else x.burstTb
    if ws.length < 14 then setCore d k { x with burst := ws, burstTb := t }
    else
      let d := setCore d k { x with burst := [], burstTb := 0 }
      let w := rdN d (AC_CAP_WR k)
      if (w + 64) % len = rdN d (AC_CAP_RD k) then wr d (AC_CAP_DROP_CNT k) (rd d (AC_CAP_DROP_CNT k) + 14)
      else wrN { d with sram := mput d.sram (rdN d (AC_CAP_BASE k) + w) (leBytes 8 t ++ bytes32 ws) } (AC_CAP_WR k) ((w + 64) % len)

/-- The core whose channel a result belongs to. -/
def resCore (d : Dev) (k : Nat) : Nat := if paired d k then evenOf k else k

/-- A delivered result: word, usability, capture (R147, R148, R159). -/
def deliver (d : Dev) (k : Nat) (cv : Conv) (fresh ok ovr : Bool) (s : Int) : Dev :=
  let kc := resCore d k
  let n := cv.ch
  let c := rd d (AC_CH_CFG kc n)
  let withheld := owMode d kc n == 2 && decide (bp d % 10000 < 150)
  let d := owResult d kc n s
  let x := chOf d kc n
  let valid := cv.settled && settledOf d k && x.settling.isNone && ok && !withheld
  let cal := fresh && valid
  let word := w32 (0x80000000 * b2n valid + 0x40000000 * b2n cal + 0x20000000 * b2n ovr + 0x10000000 * b2n x.open_ + 0x1000000 * cv.tag
    + (s % 0x1000000).toNat)
  let use_ := valid && !(x.open_ && bit c 10) && !(ovr && bit c 11) && !(cal && bit c 9)
  let y := { x with any_ := true, kept := x.kept || !withheld, word := if withheld then x.word else word, use_ := if use_ then s :: x.use_ else x.use_ }
  let d := wrBit (wr (setCh d kc n y) (AC_CH_LAST kc n) word) (AC_OVR kc) n ovr
  if cv.cap then capPut d kc word (cv.w0 + 400) else d

/-- ADC_CONVERSION_DONE: the oldest conversion of core k delivers a corrected sample; ovr is the overload detector, ok the
conversion check (R147, R155). -/
def adcDone (d : Dev) (k : Nat) (sample : Int) (ovr ok : Bool) : Dev :=
  match (coreOf d k).flight with
  | [] => d
  | cv :: rest =>
    let x := coreOf d k
    let sl := sliceOf x cv.slice
    let fails := if ok then 0 else sl.fails + 1
    let d := setCore d k (leave (setSlice { x with flight := rest } cv.slice { sl with fresh := false, fails := fails }))
    let s := clampI (-0x800000) 0x7FFFFF sample
    let ov := ovr || decide (0x800000 ≤ sample) || decide (sample ≤ -0x800000)
    let d := deliver d k cv sl.fresh ok ov s
    if 2 ≤ fails ∧ (sl.role = .active ∨ sl.role = .leaving) then sliceFails d k cv.slice else d

/-! ### Entries (R148 to R151) -/

/-- The safe value of a channel's entry. -/
def acSafe (d : Dev) (k n : Nat) : W32 := sigForm (rdBit d (AC_CH_DST k n) 17) (rd d (AC_CH_SAFE k n))

/-- The value of an entry with FMT 0 from the usable samples (R149). -/
def acValue (mean : Bool) (us : List Int) : Int :=
  let c := us.length
  let m := if mean then (2 * us.sum + c) / (2 * c : Nat) else us.headD 0
  clampI (-32768) 32767 ((m + 128) / 256)

/-- The entry of a channel at t0 of this BP, and its AC_INVAL bit; the channel of a pair with a quarantined half counts as invalid
(R150, R152). -/
def acEntry (k : Nat) (d : Dev) (n : Nat) : Dev :=
  let x := chOf d k n
  let last := if x.any_ then bp d else x.lastBp
  let halved := paired d k && pairDead d k && n == ichOf d k
  let inval := (x.kept && x.use_.isEmpty) || decide (16 ≤ bp d - last) || halved
  let d := setCh d k n { x with use_ := [], any_ := false, kept := false, lastBp := last }
  let d := wrBit d (AC_INVAL k) n inval
  let dst := rd d (AC_CH_DST k n)
  let cfg := rd d (AC_CH_CFG k n)
  let e := fld dst 14 0
  if bit dst 16 = false then d
  else if (coreOf d k).quar then put1 d e (acSafe d k n) true
  else if safeReq d (.ac k) then put1 d e (acSafe d k n) false
  else if inval then (if bit cfg 12 then put1 d e (acSafe d k n) true else d)
  else if bit dst 17 then (if x.kept then put1 d e x.word false else d)
  else if x.use_.isEmpty then d else put1 d e (ofQ15 (acValue (bit cfg 8) x.use_)) false

/-- The entries of a stopped core (R151). -/
def acStopped (d : Dev) (k : Nat) : Dev :=
  (List.range 16).foldl (fun d n =>
    let dst := rd d (AC_CH_DST k n)
    if bit dst 16 then put1 d (fld dst 14 0) (acSafe d k n) (coreOf d k).quar else d) d

/-- The cores with a register that does not hold its reset value. -/
def listedCores (d : Dev) : List Nat :=
  (List.range 16).filter (fun k => (tfind d.cores k).isSome || d.regs.any (fun e => decide (acBase k ≤ e.1) && decide (e.1 < acBase k + 0x1000)))

/-- t0: the entries of every core. -/
def acEntries (d : Dev) : Dev :=
  (listedCores d).foldl (fun d k => if (coreOf d k).on then (List.range 16).foldl (acEntry k) d else acStopped d k) d

/-- The rotations due in this BP. -/
def acRotations (d : Dev) : Dev := (tkeys d.cores).foldl calRotation d

/-- ADC_CHANNEL_STARVED: no result for 16 BP; the channel counts as invalid (R150). -/
def adcStarved (d : Dev) (k n : Nat) : Dev :=
  let x := chOf d k n
  let dst := rd d (AC_CH_DST k n)
  if (coreOf d k).on ∧ x.any_ = false ∧ 16 ≤ bp d - x.lastBp then
    let d := wrBit d (AC_INVAL k) n true
    if bit dst 16 ∧ rdBit d (AC_CH_CFG k n) 12 then put1 d (fld dst 14 0) (acSafe d k n) true else d
  else d

/-- RANGE_SETTLE_END: 50 us after a change of RANGE. -/
def rangeSettled (d : Dev) (k n : Nat) : Dev :=
  match (chOf d k n).settling with
  | some b => if b + 5 ≤ bp d then setCh d k n { chOf d k n with settling := none } else d
  | none => d

/-- Every front end whose 50 us are over. -/
def acSettles (d : Dev) : Dev :=
  (tkeys d.cores).foldl (fun d k => ((tkeys (coreOf d k).chans).foldl (fun d n => rangeSettled d k n) d)) d

/-! ### Open-wire pulses (R157) -/

/-- The channels in PULSE. -/
def pulseChans (d : Dev) : List (Nat × Nat) :=
  (tkeys d.cores).flatMap (fun k => ((List.range 16).filter (fun n => owMode d k n == 2)).map (fun n => (k, n)))

/-- OW_PULSE_START: the current flows from BP 0 of the grid; the counts begin anew. -/
def owPulseStart (d : Dev) : Dev :=
  if bp d % 10000 = 0 then (pulseChans d).foldl (fun d e => setCh d e.1 e.2 { chOf d e.1 e.2 with hist := [], skip := false }) d else d
/-- OW_PULSE_DECIDE: at BP 100; a channel whose open-wire fields or role changed in this window waits for the next one (R157, R158). -/
def owPulseDecide (d : Dev) : Dev :=
  if bp d % 10000 = 100 then
    ((pulseChans d).filter (fun e => !(chOf d e.1 e.2).skip)).foldl (fun d e => let h := (chOf d e.1 e.2).hist; setOpen d e.1 e.2 (decide (h.length = 8) && h.all (· == true))) d
  else d
/-- OW_PULSE_END: at BP 150 results are taken again; the withholding is by the grid. -/
def owPulseEnd (d : Dev) : Dev :=
  if bp d % 10000 = 150 then (pulseChans d).foldl (fun d e => setCh d e.1 e.2 { chOf d e.1 e.2 with hist := [] }) d else d

/-- Open-wire detection of a channel begins anew: OPEN and the counts clear, and no decision falls in the present pulse window. -/
def owAnew (d : Dev) (k n : Nat) : Dev :=
  setOpen (setCh d k n { chOf d k n with run := 0, hist := [], skip := decide (bp d % 10000 < 100) }) k n false

/-- The current of the shared channels is turned on or off with the role (R158). -/
def owRole (d : Dev) : Dev :=
  (tkeys d.cores).foldl (fun d k => ((List.range 16).filter (fun n => rdBit d (AC_CH_CFG k n) 7)).foldl (fun d n => owAnew d k n) d) d

/-! ### Writes (R143, Table 6-5) -/

/-- AC_CFG. -/
def acCfgWrite (d : Dev) (k : Nat) (v : W32) : Dev :=
  let old := rd d (AC_CFG k)
  let pairOf (w : W32) := (bit w 4, bit w 5, fld w 11 8)
  let run := runBit d (.ac (evenOf k)) || runBit d (.ac (evenOf k + 1))
  let r := cfgPut d (.ac k) (AC_CFG k) [maxF 1 0 2, anyF 4 4, anyF 5 5, anyF 11 8] v
    [causeIf (run && decide (pairOf v ≠ pairOf old)) 6] [causeIf (k % 2 == 1 && decide (pairOf v ≠ (false, false, 0))) 0x0401]
  if r.2 && decide (fld v 1 0 ≠ fld old 1 0) then refLost r.1 k else r.1

/-- AC_CHn_CFG: a RANGE change settles for 50 us, an open-wire change clears OPEN and the counts. -/
def acChCfgWrite (d : Dev) (k n : Nat) (v : W32) : Dev :=
  let old := rd d (AC_CH_CFG k n)
  let r := cfgPut d (.ac k) (AC_CH_CFG k n) [anyF 1 0, maxF 4 3 2, anyF 5 5, anyF 6 6, anyF 7 7, anyF 8 8, anyF 9 9, anyF 10 10, anyF 11 11, anyF 12 12] v []
    [causeIf (fld v 4 3 != 0 && fld v 1 0 == 3) 0x0402]
  if r.2 then
    let d := r.1
    let d := if (coreOf d k).on ∧ fld v 1 0 ≠ fld old 1 0 then setCh d k n { chOf d k n with settling := some (bp d) } else d
    if fld v 6 3 ≠ fld old 6 3 then owAnew d k n else d
  else r.1

/-- AC_CHn_DST (R19, R463). -/
def acDstWrite (d : Dev) (k n : Nat) (v : W32) : Dev :=
  let a := AC_CH_DST k n
  let old := if rdBit d a 16 then [fld (rd d a) 14 0] else []
  let new := if bit v 16 then [(fld v 14 0, bit v 17, rd d (AC_CH_SAFE k n))] else []
  routePut d (.ac k) a [anyF 14 0, anyF 16 16, anyF 17 17] v [causeIf (runBit d (.ac k)) 6] [] clsAdc (16 * k + n) old new

/-- The capture ring's bounds (CAP_BOUNDS, Table 6-4): alignment, and an end within the window. The aligned length below 128 bytes, 64, is
CFG_RANGE. -/
def capBad (base len : Nat) : Bool := base % 64 != 0 || len % 64 != 0 || decide (sramSize < base + len)

/-- A write to a converter core page. -/
def acWrite (d : Dev) (k off : Nat) (v : W32) : Dev :=
  let a := acBase k + off
  let busy := causeIf (runBit d (.ac k)) 6
  let per := fld v 13 0
  match off with
  | 0x100 => acCfgWrite d k v
  | 0x104 => (cfgPut d (.ac k) a [maxF 13 0 10000] v [causeIf (decide (0 < per ∧ per < 100)) 5] []).1
  | 0x108 => (cfgPut d (.ac k) a [maxF 6 0 64] v [] []).1
  | 0x10C => if bit v 0 then seqCommit d k else d
  | 0x130 => (cfgPut d (.ac k) a wordF v [busy] [causeIf (capBad v.toNat (rdN d (AC_CAP_LEN k))) 0x0405]).1
  | 0x134 =>
    let r := cfgPut d (.ac k) a wordF v [busy, causeIf (decide (v.toNat = 64)) 5] [causeIf (capBad (rdN d (AC_CAP_BASE k)) v.toNat) 0x0405]
    if r.2 then wrN (wrN (setCore r.1 k { coreOf r.1 k with burst := [], burstTb := 0 }) (AC_CAP_WR k) 0) (AC_CAP_RD k) 0 else r.1
  | 0x13C => (cfgPut d (.ac k) a wordF v [] []).1
  | _ =>
    if 0x180 ≤ off ∧ off < 0x1C0 then acChCfgWrite d k ((off - 0x180) / 4) v
    else if 0x1C0 ≤ off ∧ off < 0x200 then acDstWrite d k ((off - 0x1C0) / 4) v
    else if 0x200 ≤ off ∧ off < 0x240 then wr d a v
    else if 0x280 ≤ off ∧ off < 0x2C0 then (cfgPut d (.ac k) a [anyF 3 0, anyF 7 7, anyF 11 8, anyF 15 15, anyF 19 16, anyF 23 23, anyF 27 24, anyF 31 31] v [] []).1
    else d

/-- AC_INVAL: as judged at t0 of a BP in which the core runs; while it is stopped, the channels without a result for 16 BP. -/
def acInval (d : Dev) (k : Nat) : Nat :=
  if (coreOf d k).on then rdN d (AC_INVAL k)
  else (List.range 16).foldl (fun m n => if 16 ≤ bp d - (chOf d k n).lastBp then m + 2 ^ n else m) 0

/-- AC_STAT. -/
def acStat (d : Dev) (k : Nat) : Nat :=
  let x := coreOf d k
  let spare := (sliceIn x (fun s => s.role == .spare || s.role == .calibrating)).getD 15
  let ret := ((List.range 9).map (fun i => if (sliceOf x i).role = .retired then 2 ^ i else 0)).foldl (· + ·) 0
  b2n (settledOf d k) + 2 * b2n x.pend + 4 * b2n (paired d k) + 8 * b2n (degraded x) + 16 * b2n (calPaused d k) + 256 * spare + 4096 * ret + 0x1000000 * x.tag

/-- AC_SLs_STAT. -/
def acSlStat (d : Dev) (k i : Nat) : Nat :=
  let s := sliceOf (coreOf d k) i
  (match s.role with | .active | .leaving => 0 | .calibrating => 1 | .spare => 2 | .retired => 3) + 16 * s.slot + 65536 * s.periods

end Sys2Proof.Machine
end

