-- ==== Sys2Proof/Machine/SafeImage.lean ====
section
/-! DEFINITION. The safety table image and the safe frame (R249, R255, Tables 9-7, 9-9, 9-10). -/

namespace Sys2Proof.Machine

/-- A condition reference: kind in [15:12], all bits its kind does not use 0 (R255). -/
def refKind (r : Nat) : Nat := r / 4096
def refOk (cons : List SfCons) (r : Nat) : Bool :=
  match refKind r with
  | 0 => r == 0
  | 1 => decide (r % 4096 < 16)
  | 2 => decide (r % 4096 < 64)
  | 3 => decide (r % 4096 < 1024) && (nth cons (r % 1024 / 32) default).conn != 0
  | _ => false

/-- A pair entry; DISC 0 is the default of 100 ms (log entry 18). -/
def parsePair (bs : List W8) (o : Nat) : SfPair := ⟨num bs o 1, if num bs (o + 2) 2 = 0 then 100 else num bs (o + 2) 2⟩
def pairOk (bs : List W8) (o : Nat) : Bool :=
  let p := parsePair bs o
  decide (p.mode ≤ 3) && zeros bs (o + 1) 1 && zeros bs (o + 4) 4 && (p.mode == 0 || (decide (5 ≤ p.disc) && decide (p.disc ≤ 2000)))

/-- An output entry. -/
def sfParseOut (bs : List W8) (o : Nat) : SfOut := ⟨num bs o 1 == 1, num bs (o + 1) 1 == 1, num bs (o + 2) 2⟩
def outOk (bs : List W8) (o : Nat) : Bool :=
  decide (num bs o 1 ≤ 1) && decide (num bs (o + 1) 1 ≤ 1) && zeros bs (o + 4) 4
    && (num bs (o + 1) 1 == 0 || (decide (100 ≤ num bs (o + 2) 2) && decide (num bs (o + 2) 2 ≤ 500)))

/-- A producer and a consumer entry. -/
def parseProd (bs : List W8) (o : Nat) : SfProd := ⟨num bs o 2, num bs (o + 2) 1, num bs (o + 4) 4⟩
def prodOk (bs : List W8) (o : Nat) : Bool :=
  let p := parseProd bs o
  zeros bs (o + 3) 1 && (p.conn == 0 || (decide (1 ≤ p.period) && decide (p.period ≤ 100)))
def parseCons (bs : List W8) (o : Nat) : SfCons :=
  ⟨num bs o 2, num bs (o + 2) 1, num bs (o + 4) 2, num bs (o + 6) 2, num bs (o + 8) 4⟩
def consOk (bs : List W8) (o : Nat) : Bool :=
  let c := parseCons bs o
  zeros bs (o + 3) 1 && zeros bs (o + 12) 4
    && (c.conn == 0 || (decide (1 ≤ c.period) && decide (2 ≤ c.wd) && decide (c.wd ≤ 1000) && decide (c.tol ≤ 3600)))

/-- An instance entry. -/
def parseSInst (bs : List W8) (o : Nat) : SfInst :=
  let pr := num bs (o + 14) 2
  let rq := num bs (o + 18) 2
  { typ := num bs o 1, auto := num bs (o + 1) 1 == 1, rpair := num bs (o + 2) 1
    conds := [num bs (o + 4) 2, num bs (o + 6) 2, num bs (o + 8) 2, num bs (o + 10) 2], aux := num bs (o + 22) 2
    outs := num bs (o + 12) 1, prod := if 32768 ≤ pr then some (pr % 1024 / 32, pr % 32) else none
    delay := num bs (o + 16) 2, req := if 32768 ≤ rq then some (rq % 32768, num bs (o + 20) 1) else none
    param := num bs (o + 24) 4 }

/-- The rules of Table 9-9 for a type. -/
def typeOk (i : SfInst) : Bool :=
  let man := !i.auto
  let short := decide (i.delay ≤ 30000)
  match i.typ with
  | 1 => man && short
  | 2 => short
  | 3 | 4 => man && i.delay == 0
  | 5 => i.delay == 0 && decide (i.param ≤ 60000)
  | 6 => short && decide (1 ≤ i.param) && decide (i.param ≤ 600000)
  | _ => false

/-- An instance entry keeps R255: references, reserved bits, the reset pair of a MANUAL restart, its type's rules. -/
def sinstOk (pairs : List SfPair) (prods : List SfProd) (cons : List SfCons) (bs : List W8) (o : Nat) : Bool :=
  let i := parseSInst bs o
  let pr := num bs (o + 14) 2
  let manual := i.typ == 5 || i.auto || (decide (i.rpair < 16) && (nth pairs i.rpair default).mode == 3)
  let prodFine := match i.prod with
    | some (c, _) => decide (pr % 32768 < 1024) && (nth prods c default).conn != 0
    | none => pr == 0
  decide (num bs (o + 1) 1 ≤ 1) && zeros bs (o + 3) 1 && zeros bs (o + 13) 1 && zeros bs (o + 21) 1 && zeros bs (o + 28) 4
    && (decide (i.rpair < 16) || i.rpair == 255) && manual && prodFine && decide (num bs (o + 20) 1 ≤ 31)
    && (i.conds ++ [i.aux]).all (refOk cons) && typeOk i

/-- A body bit is named once by at most one instance. -/
def prodOnce : List SfInst → Bool
  | [] => true
  | i :: t => (i.prod.isNone || t.all (fun j => j.prod != i.prod)) && prodOnce t

/-- The safety table of a body, where it keeps R255 and Table 9-9. -/
def parseTable (bs : List W8) (kid : Nat) : Option SfTable :=
  let n := num bs 6 2
  let po := num bs 0x18 4
  let so := num bs 0x1C 4
  let io := num bs 0x20 4
  let ro := num bs 0x24 4
  let co := num bs 0x28 4
  let at_ (o k c : Nat) := (List.range c).map (fun i => o + k * i)
  let pairs := (at_ po 8 16).map (parsePair bs)
  let prods := (at_ ro 8 32).map (parseProd bs)
  let cons := (at_ co 16 32).map (parseCons bs)
  let insts := (at_ io 32 n).map (parseSInst bs)
  let head := num bs 0 4 == 0x42544653 && num bs 4 2 == 1 && decide (n ≤ 64) && zeros bs 0x2C 20 && decide (num bs 0x16 2 + 7 < 32768)
  let lay := [(po, 128), (so, 64), (io, 32 * n), (ro, 256), (co, 512)].all (fun s => s.1 % 8 == 0 && decide (64 ≤ s.1) && decide (s.1 + s.2 ≤ bs.length))
  let rows := (at_ po 8 16).all (pairOk bs) && (at_ so 8 8).all (outOk bs) && (at_ ro 8 32).all (prodOk bs) && (at_ co 16 32).all (consOk bs)
    && (at_ io 32 n).all (sinstOk pairs prods cons bs) && prodOnce insts
  if head && lay && rows then
    some { body := bs, crc := crc32c bs, kid := kid, id := num bs 0x10 4, etype := num bs 0x14 2, stat := num bs 0x16 2,
           pairs := pairs, outs := (at_ so 8 8).map (sfParseOut bs), insts := insts, prods := prods, cons := cons }
  else none

/-! ### Safe frames -/

/-- A CRC over bytes, reflected, with a polynomial and an initial value; final XOR all ones (log entry 18). -/
def crcBitP (poly c : Nat) : Nat := if c % 2 = 1 then (c / 2) ^^^ poly else c / 2
def crcByteP (poly c : Nat) (b : W8) : Nat := (List.range 8).foldl (fun c _ => crcBitP poly c) (c ^^^ b.toNat)
def crcP (poly init : Nat) (bs : List W8) : Nat := bs.foldl (crcByteP poly) init ^^^ 0xFFFFFFFF

/-- CRC_A and CRC_B of bytes 0 to 15 under a key. -/
def crcA (key : Nat) (bs : List W8) : Nat := crcP 0x82F63B78 key bs
def crcB (key : Nat) (bs : List W8) : Nat := crcP 0xEDB88320 (0xFFFFFFFF - key) bs

/-- Bytes 0 to 15 of a frame whose data is a and whose inverted data is formed from b. -/
def frameHead (conn seq a b : Nat) : List W8 := leBytes 2 conn ++ [0, 0] ++ leBytes 4 seq ++ leBytes 4 a ++ leBytes 4 (0xFFFFFFFF - b)

/-- The safe frame of a connection (Table 9-10): DATA and CRC_A from channel A's data a, DATA_INV and CRC_B from channel B's data b,
each CRC over the bytes as its channel has them (log entry 58). -/
def safeFrame (conn key seq a b : Nat) : List W8 :=
  frameHead conn seq a b ++ leBytes 4 (crcA key (frameHead conn seq a a)) ++ leBytes 4 (crcB key (frameHead conn seq b b))

/-- A received frame is sound for a consumer: identifier, both CRCs, DATA_INV. -/
def frameSound (c : SfCons) (f : List W8) : Bool :=
  f.length == 24 && c.conn != 0 && num f 0 2 == c.conn && num f 16 4 == crcA c.key (f.take 16) && num f 20 4 == crcB c.key (f.take 16)
    && num f 12 4 == 0xFFFFFFFF - num f 8 4

end Sys2Proof.Machine
end

