-- ==== Sys2Proof/Machine/SafeChan.lean ====
section
/-! DEFINITION. The safety channels at work: inputs, connections, instances, outputs, lockout, configuration (R237 to R257). -/

namespace Sys2Proof.Machine

def setSf (d : Dev) (x : Safety) : Dev := { d with sf := x }
/-- SF_CYC: the safety cycles counted, one a millisecond. -/
def sfCyc (d : Dev) : Nat := rd64 d (SF_CYC 0)
/-- Do a thing on both channel pages. -/
def sfBoth (d : Dev) (f : Dev → Nat → Dev) : Dev := f (f d 0) 1
/-- A table entry of the active table. -/
def sfPairOf (d : Dev) (i : Nat) : SfPair := match d.sf.table with
  | some t => nth t.pairs i default
  | none => default
def sfConsOf (d : Dev) (c : Nat) : SfCons := match d.sf.table with
  | some t => nth t.cons c default
  | none => default

/-- A SAFETY_FAULT record (Table 15-6). -/
def sfFault (d : Dev) (kind : Nat) (ix : W32) : Dev := report d 0x0050 296 ([w32 kind, ix] ++ pay64 (sfCyc d))

/-! ### Lockout (R247) -/

/-- Both channels enter LOCKOUT until a cold reset: cause, record, every switch off. -/
def sfLockout (d : Dev) (cause ch : Nat) : Dev :=
  if d.sf.mode = .lockout then d
  else report (wr (setSf d { d.sf with mode := .lockout, cause := cause }) SIO_SO_CMD 0) 0x0053 (297 + ch) [w32 cause, w32 ch]

/-- CHANNEL_SELF_TEST_FAIL. -/
def sfSelfTestFail (d : Dev) (ch : Nat) : Dev := sfLockout d 3 ch

/-- SAFETY_CLOCK_DEVIATION (R237): the channel keeps its cycle on its own oscillator; a fault that does not cover is LOCKOUT. -/
def sfClock (d : Dev) (ch : Nat) (covered : Bool) : Dev :=
  if covered = false then sfLockout d 4 ch
  else if ch = 0 then setSf d { d.sf with a := { d.sf.a with alone := true } }
  else setSf d { d.sf with b := { d.sf.b with alone := true } }

/-! ### Input pairs (R241, R242) -/

def pairS (d : Dev) (i : Nat) : SfPs := nth d.sf.pairs i default
def setPair (d : Dev) (i : Nat) (p : SfPs) : Dev := setSf d { d.sf with pairs := lset d.sf.pairs i p }

/-- The filtered contacts show ON, or agree on OFF (Table 9-4). -/
def showsOn (mode : Nat) (a b : Bool) : Bool := match mode with
  | 1 | 3 => a && b
  | 2 => a && !b
  | _ => false
def showsOff (mode : Nat) (a b : Bool) : Bool := match mode with
  | 1 | 3 => !a && !b
  | 2 => !a && b
  | _ => true
/-- The contacts of a pair as a channel's comparators see them (0 A, shown in SIO_IN; 1 B). -/
def contactA (d : Dev) (f i : Nat) : Bool := if f = 0 then rdBit d SIO_IN_A i else bit (w32 d.sf.inA) i
def contactB (d : Dev) (f i : Nat) : Bool := if f = 0 then rdBit d SIO_IN_B i else bit (w32 d.sf.inB) i

/-- Both channels see the ON pattern, or both see the OFF pattern (R241). -/
def pairOn (d : Dev) (i : Nat) : Bool :=
  showsOn (sfPairOf d i).mode (contactA d 0 i) (contactB d 0 i) && showsOn (sfPairOf d i).mode (contactA d 1 i) (contactB d 1 i)
def pairOff (d : Dev) (i : Nat) : Bool :=
  showsOff (sfPairOf d i).mode (contactA d 0 i) (contactB d 0 i) && showsOff (sfPairOf d i).mode (contactA d 1 i) (contactB d 1 i)

/-- A contact's filtered level in the channels that see it (bit 0 A, bit 1 B). -/
def setContact (d : Dev) (i : Nat) (isB : Bool) (seen : Nat) (level : Bool) : Dev :=
  let d := if bit (w32 seen) 0 then wrBit d (if isB then SIO_IN_B else SIO_IN_A) i level else d
  let put (m : Nat) : Nat := fld (putBit (w32 m) i level) 15 0
  if bit (w32 seen) 1 then setSf d (if isB then { d.sf with inB := put d.sf.inB } else { d.sf with inA := put d.sf.inA }) else d

/-- The channels' own time in 10 µs: the cycles counted and the sample of the present cycle. It goes on under CLK_ALONE and through
a warm reset (R237). -/
def sfTime (d : Dev) (smp : Nat) : Nat := 100 * sfCyc d + smp

/-- SAFETY_CONTACT_CHANGE (R238, R241, R242): a contact's change has passed the filter of the channels named, at a sample of the
present cycle; the ON periods of the pair are measured between the filtered edges. -/
def contactChange (d : Dev) (i : Nat) (isB : Bool) (seen : Nat) (level : Bool) (smp : Nat) : Dev :=
  let d := setContact d i isB seen level
  let p := pairS d i
  let now := pairOn d i
  if now && !p.now then setPair d i { p with now := true, onAt := sfTime d smp }
  else if !now && p.now then setPair d i { p with now := false, len := sfTime d smp - p.onAt, fresh := true }
  else d

/-- A pair takes its discrepancy fault (R241). -/
def discSet (d : Dev) (i : Nat) : Dev :=
  if rdBit d SIO_DISC i then d else sfFault (bump (wrBit d SIO_DISC i true) SIO_FLT_CNT) 1 (w32 i)

/-- DISCREPANCY_FAULT as an event: the pair disagrees and its timer passes DISC at the coming cycle. -/
def discrepancyFault (d : Dev) (i : Nat) : Dev :=
  let m := sfPairOf d i
  match (pairS d i).disc with
  | some t => if m.mode ≠ 0 ∧ pairOn d i = false ∧ pairOff d i = false ∧ m.disc < t + 1 then discSet d i else d
  | none => d

/-- RESET_JAM (R242): an ON period of a reset pair reaches 5 s by the coming sample smp; a pair that holds a discrepancy reads OFF. -/
def resetJam (d : Dev) (i smp : Nat) : Dev :=
  if (sfPairOf d i).mode = 3 ∧ (pairS d i).now ∧ rdBit d SIO_DISC i = false ∧ (pairS d i).onAt + 500000 ≤ sfTime d smp
      ∧ rdBit d SIO_JAM i = false then
    sfFault (bump (wrBit d SIO_JAM i true) SIO_FLT_CNT) 2 (w32 i)
  else d

/-- RESET_EDGE: latched ON before, OFF now, after an ON period of 100 ms to 5 s, no jam, no discrepancy (R242). -/
def resetEdge (d : Dev) (i : Nat) : Bool :=
  let p := pairS d i
  (sfPairOf d i).mode == 3 && p.on && !pairOn d i && p.fresh && decide (10000 ≤ p.len) && decide (p.len < 500000)
    && !rdBit d SIO_JAM i && !rdBit d SIO_DISC i

/-- The discrepancy timer of a pair at c0. -/
def discTimer (d : Dev) (i : Nat) : Option Nat :=
  if (sfPairOf d i).mode == 0 || pairOn d i || pairOff d i then none else some (match (pairS d i).disc with
    | some t => t + 1
    | none => 0)

/-- Latch one pair at c0: the state, and whether it gives a reset edge. -/
def latchPair (d : Dev) (i : Nat) : Dev × Bool :=
  let m := sfPairOf d i
  let d := if rdBit d SIO_DISC i && pairOff d i then wrBit d SIO_DISC i false else d
  let timer := discTimer d i
  let d := setPair d i { pairS d i with disc := timer }
  let d := match timer with
    | some t => if m.disc < t then discSet d i else d
    | none => d
  let d := resetJam d i 0
  let edge := resetEdge d i
  let on := pairOn d i && !rdBit d SIO_DISC i
  let d := if on then d else setPair (wrBit d SIO_JAM i false) i { pairS d i with fresh := false }
  (wrBit (setPair d i { pairS d i with on := on }) SIO_PAIR i on, edge)

/-- A pair of a module that takes the partner's image serves diagnostics only: its own state, and its timer (R252). -/
def watchPair (d : Dev) (i : Nat) : Dev :=
  let on := pairOn d i && !rdBit d SIO_DISC i
  wrBit (setPair d i { pairS d i with disc := discTimer d i, on := on, fresh := (pairS d i).fresh && on }) SIO_PAIR i on

/-- Latch all pairs: the device after it, and the edges (bit i: pair i). -/
def latchPairs (d : Dev) : Dev × Nat :=
  (List.range 16).foldl (fun r i => let q := if followsPair r.1 then (watchPair r.1 i, false) else latchPair r.1 i; (q.1, r.2 + if q.2 then 2 ^ i else 0)) (d, 0)

/-! ### Consumer connections (R249, R251) -/

def connOf (d : Dev) (c : Nat) : SfConn := nth d.sf.conns c default
def setConn (d : Dev) (c : Nat) (x : SfConn) : Dev := setSf d { d.sf with conns := lset d.sf.conns c x }

/-- A SEQ is greater than the last one of its network, modulo 2^32 over a window of 2^31. -/
def seqNewer (last : Option Nat) (s : Nat) : Bool := match last with
  | none => true
  | some l => let x := (s + 2 ^ 32 - l) % 2 ^ 32; decide (0 < x) && decide (x < 2 ^ 31)

/-- A frame accepted from a network: ages, data of the highest SEQ, comparison with the other network's copy. -/
def connAccept (x : SfConn) (net s v : Nat) (bs : List W8) : SfConn :=
  let x := if net = 0 then { x with seqA := some s, ageA := 0 } else { x with seqB := some s, ageB := 0 }
  let x := if seqNewer x.hi s then { x with hi := some s, data := w32 v } else x
  let twin := x.waiting.find? (fun e => e.1 != net && e.2.1 == s)
  let rest := x.waiting.filter (fun e => e.1 == net || (e.2.1 != s && seqNewer (some s) e.2.1))
  match twin with
  | none => { x with waiting := rest ++ [(net, s, bs)] }
  | some e =>
    if e.2.2 = bs then { x with waiting := rest, equal := if s = (x.eqSeq + 1) % 2 ^ 32 then x.equal + 1 else 1, eqSeq := s }
    else { x with waiting := rest, differ := true, equal := 0 }

/-- SAFE_FRAME_RECEIVE: accepted for the consumers it is sound for, discarded otherwise (R249). -/
def safeFrameReceive (d : Dev) (net : Nat) (f : List W8) : Dev :=
  (List.range 32).foldl (fun d c =>
    let x := connOf d c
    if frameSound (sfConsOf d c) f && x.st != .unused && seqNewer (if net = 0 then x.seqA else x.seqB) (num f 4 4) then
      setConn d c (connAccept x net (num f 4 4) (num f 8 4) f)
    else d) d

/-- A CONN_TRIP record: connection, event, SF_CYC. -/
def connRecord (d : Dev) (c event : Nat) : Dev := report d 0x0052 297 ([w32 c, w32 event] ++ pay64 (sfCyc d))
/-- A connection trips: cause 1 COPY_DIFF, 2 WDOG, 3 DEG_TOL. -/
def connTrip (d : Dev) (c cause : Nat) : Dev :=
  connRecord (sfBoth (setConn d c { connOf d c with st := .tripped, differ := false, equal := 0, tol := 0 }) (fun d f => bump d (SF_CTRIP_CNT f))) c cause

/-- No accepted frame for WD; a network missing for 3 periods. An age counts the whole cycles since the frame came. -/
def wdogDue (s : SfCons) (x : SfConn) : Bool := decide (s.wd ≤ min x.ageA x.ageB)
def netMissing (s : SfCons) (x : SfConn) : Bool := decide (3 * s.period ≤ max x.ageA x.ageB)

/-- CONN_WATCHDOG, NETWORK_MISSING and DEGRADED_TIMEOUT as events of the coming c0 (R251). -/
def connWatchdog (d : Dev) (c : Nat) : Dev :=
  let x := connOf d c
  if (x.st = .ok ∨ x.st = .degraded) ∧ wdogDue (sfConsOf d c) x then connTrip d c 2 else d
def networkMissing (d : Dev) (c : Nat) : Dev :=
  let x := connOf d c
  if x.st = .ok ∧ netMissing (sfConsOf d c) x then
    (if (sfConsOf d c).tol = 0 then connTrip d c 3 else connRecord (setConn d c { x with st := .degraded, tol := 0 }) c 4)
  else d
def degradedTimeout (d : Dev) (c : Nat) : Dev :=
  let x := connOf d c
  if x.st = .degraded ∧ 1000 * (sfConsOf d c).tol < x.tol + 1 then connTrip d c 3 else d

/-- One row of Table 9-11 at c0, in the table's order. -/
def connRow (d : Dev) (c : Nat) : Dev :=
  let x := connOf d c
  let s := sfConsOf d c
  if x.differ then connTrip d c 1
  else match x.st with
    | .ok => if wdogDue s x then connWatchdog d c else networkMissing d c
    | .degraded =>
      if wdogDue s x then connWatchdog d c
      else if 1000 * s.tol < x.tol + 1 then degradedTimeout d c
      else if netMissing s x then setConn d c { x with tol := x.tol + 1 }
      else setConn d c { x with st := .ok, tol := 0 }
    | _ => if 3 ≤ x.equal then connRecord (setConn d c { x with st := .ok, tol := 0 }) c 5 else d

/-- The frames of a connection are a cycle older. -/
def connAge (d : Dev) (c : Nat) : Dev := let y := connOf d c; setConn d c { y with ageA := y.ageA + 1, ageB := y.ageB + 1 }

/-- One connection at c0; a module that takes the partner's image only receives (R252). -/
def connStep (d : Dev) (c : Nat) : Dev :=
  if (connOf d c).st = .unused then d
  else if followsPair d then connAge (setConn d c { connOf d c with differ := false, equal := 0 }) c
  else connAge (connRow d c) c

/-- SF_CONN: the states of 16 connections. -/
def cstNum : SfCst → Nat
  | .unused => 0 | .ok => 1 | .degraded => 2 | .tripped => 3

/-! ### Instances (R244, R245) -/

/-- A reference reads ON. -/
def refOn (img : SfImg) (qs : List SfIs) (r : Nat) : Bool := match refKind r with
  | 1 => bit (w32 img.pairs) (r % 16)
  | 2 => (nth qs (r % 64) default).q
  | 3 => bit (nth img.data (r % 1024 / 32) 0) (r % 32)
  | _ => false

/-- The pairs an instance uses. -/
def usedPairs (i : SfInst) : List Nat :=
  ((i.conds ++ [i.aux]).filter (fun r => refKind r == 1)).map (· % 16) ++ (if i.rpair < 16 then [i.rpair] else [])

/-- The first condition that reads OFF, as a cause of a trip: a connection, or a condition index. -/
def offCause (img : SfImg) (qs : List SfIs) (i : SfInst) : Nat × Nat :=
  match (i.conds.zipIdx).find? (fun e => refKind e.1 != 0 && !refOn img qs e.1) with
  | some (r, k) => if refKind r = 3 then (1, r % 1024 / 32) else (0, k)
  | none => (4, 0)

/-- What one evaluation of an instance gives: its new state, whether it counts as a trip, and the cause of a record. -/
structure SfRes where
  s : SfIs
  trip : Bool
  cause : Option (Nat × Nat)

/-- OFF_DELAY_END, MUTING_TIMEOUT and LOCK_AUX_DELAY_END on an instance's state. -/
def offDelayEnd (i : SfInst) (s : SfIs) : Bool := s.st == .delay && decide (i.delay ≤ s.timer + 1)
def muteEnd (i : SfInst) (s : SfIs) : SfIs := if i.typ = 6 ∧ i.param ≤ s.mute then { s with muted := true } else s
def auxOkFor (i : SfInst) (s : SfIs) : Bool := match s.aux with
  | some n => decide (i.param ≤ n)
  | none => false

/-- The muting and AUX timers of a cycle, and whether the conditions count as ON for muting. -/
def auxStep (i : SfInst) (s : SfIs) (auxOn : Bool) : SfIs × Bool :=
  let s := { s with aux := if auxOn then some (match s.aux with
    | some n => n + 1
    | none => 0) else none }
  if i.typ ≠ 6 then (s, false)
  else if auxOn = false then ({ s with mute := 0, muted := false }, false)
  else
    let s := muteEnd i s
    if s.muted then (s, false) else ({ s with mute := s.mute + 1 }, true)

/-- A fault cause of an instance: a used pair in discrepancy or jam, or a used output locked out. -/
def instFault (img : SfImg) (lock : Nat) (i : SfInst) : Bool :=
  (usedPairs i).any (fun p => bit (w32 img.disc) p || bit (w32 img.jam) p) || (i.outs &&& lock) != 0

/-- SAFETY_EVALUATE of one instance: at most one transition of Table 9-8. -/
def instStep (img : SfImg) (held req : Bool) (lock : Nat) (qs : List SfIs) (i : SfInst) (s0 : SfIs) : SfRes :=
  let fault := instFault img lock i
  let (s, muting) := auxStep i s0 (refKind i.aux != 0 && refOn img qs i.aux)
  let on := i.conds.all (fun r => refKind r == 0 || refOn img qs r)
  let c := !held && (muting || on)
  let edge := decide (i.rpair < 16) && bit (w32 img.edges) i.rpair
  let lockQ := c && req && auxOkFor i s
  let cause := if held then (4, 0) else offCause img qs i
  let live := s.st == .run || s.st == .delay
  let s := { s with moved := false }
  let fin (st : SfSt) (trip : Bool) (why : Option (Nat × Nat)) (timer : Nat) : SfRes :=
    let q := (if i.typ = 5 then st == .run && lockQ else st == .run || st == .delay) && req && !held
    ⟨{ s with st := st, q := q, timer := timer }, trip, why⟩
  if s0.moved then fin s.st false none 0
  else if s.st = .fault then (if fault then fin .fault false none 0 else fin .stop false none 0)
  else if fault && (live || s.st == .stop) then fin .fault live (some (2, 0)) 0
  else if i.typ = 5 then
    (if lockQ then fin .run false none 0 else if live then fin .stop true (some (if c then (5, 0) else cause)) 0 else fin .stop false none 0)
  else match s.st with
    | .stop => if c then (if i.auto then fin .run false none 0 else fin .ready false none 0) else fin .stop false none 0
    | .ready => if !c then fin .stop false none 0 else if edge then fin .run false none 0 else fin .ready false none 0
    | .run => if c then fin .run false none 0 else if 0 < i.delay then fin .delay false none 0 else fin .stop true (some cause) 0
    | .delay => if offDelayEnd i s then fin .stop true (some (3, 0)) 0 else fin .delay false none (s.timer + 1)
    | .fault => fin .fault false none 0

/-- The request bit of an instance allows it. -/
def reqAllows (d : Dev) (i : SfInst) : Bool := match i.req with
  | some (n, b) => sigBit d n b
  | none => true

/-- The device is in Held (R248). -/
def sfHeld (d : Dev) : Bool := d.power.phase == .held

/-- A SAFETY_TRIP record of channel A: instance, cause, SF_CYC, condition states. -/
def tripRecord (d : Dev) (k : Nat) (i : SfInst) (img : SfImg) (qs : List SfIs) (why : Nat × Nat) : Dev :=
  let cs := ((i.conds.zipIdx).map (fun e => if refOn img qs e.1 then 2 ^ e.2 else 0)).foldl (· + ·) 0
  report d 0x0051 297 ([w32 k, Config.tripCause why.1 why.2] ++ pay64 (sfCyc d) ++ [w32 cs])

/-- Channel f (0 A, 1 B), and its replacement. -/
def chanOf (d : Dev) (f : Nat) : SfChan := if f = 0 then d.sf.a else d.sf.b
def setChan (d : Dev) (f : Nat) (c : SfChan) : Dev := setSf d (if f = 0 then { d.sf with a := c } else { d.sf with b := c })

/-- Instance k of a channel; its state is replaced before the next one is evaluated. -/
def evalInst (d : Dev) (f : Nat) (t : SfTable) (k : Nat) : Dev :=
  let ch := chanOf d f
  let i := nth t.insts k default
  let r := instStep ch.img (sfHeld d) (reqAllows d i) (fld (rd d SIO_SO_LOCK) 7 0) ch.insts i (nth ch.insts k default)
  let d := setChan d f { ch with insts := lset ch.insts k r.s }
  let d := if r.trip then bump d (SF_TRIP_CNT f) else d
  match r.cause with
  | some why => if f = 0 then tripRecord d k i ch.img ch.insts why else d
  | none => d

/-- All instances of a channel, ascending. -/
def evalChan (d : Dev) (f : Nat) (t : SfTable) : Dev := (List.range t.insts.length).foldl (fun d k => evalInst d f t k) d

/-! ### Outputs (R243) -/

/-- The outputs a channel commands on. -/
def soCmd (d : Dev) (f : Nat) (t : SfTable) : Nat :=
  let ch := chanOf d f
  let on (o : Nat) := (nth t.outs o default).en && !rdBit d SIO_SO_LOCK o
    && (t.insts.zip ch.insts).any (fun e => bit (w32 e.1.outs) o)
    && (t.insts.zip ch.insts).all (fun e => !bit (w32 e.1.outs) o || e.2.q)
  ((List.range 8).map (fun o => if on o then 2 ^ o else 0)).foldl (· + ·) 0

/-- The data a producer connection carries (R250). -/
def prodData (d : Dev) (f : Nat) (t : SfTable) (c : Nat) : Nat :=
  if d.sf.mode = .lockout then 0
  else (((t.insts.zip (chanOf d f).insts).map (fun e => match e.1.prod with
    | some (c', b) => if c' = c ∧ e.2.q then 2 ^ b else 0
    | none => 0)).foldl (· + ·) 0)

/-- OUTPUT_LOCKOUT: both switches are held off until a cold start finds them healthy. -/
def soLockout (d : Dev) (o : Nat) : Dev :=
  if rdBit d SIO_SO_LOCK o then d
  else sfFault (bump (wrBit (wrBit (wrBit d SIO_SO_LOCK o true) SIO_SO_CMD o false) SIO_SO_CMD (8 + o) false) SIO_FLT_CNT) 3 (w32 o)

/-- OUTPUT_LOCKOUT as an event: switch sw (0 A, 1 B) of output o still conducts 1.0 ms after it was commanded off. -/
def outputLockout (d : Dev) (o sw : Nat) : Dev :=
  if rdBit d SIO_SO_CMD (8 * sw + o) then d else soLockout (wrBit d SIO_SO_RB (8 * sw + o) true) o

/-- DARK_TEST: switch A with SF_CYC mod 10,000 = 0, switch B 5 s later; a switch not seen to open locks the output out. -/
def darkTest (d : Dev) (o sw : Nat) (opened : Bool) : Dev :=
  let dark := match d.sf.table with
    | some t => (nth t.outs o default).dark
    | none => false
  if dark && rdBit d SIO_SO_RB o && rdBit d SIO_SO_RB (8 + o) && sfCyc d % 10000 == 5000 * sw && !opened then soLockout d o else d

/-- Apply the switch commands of a cycle; opens and shorts are the switches that read open or conducting whatever they are told. -/
def soApply (d : Dev) (ca cb opens shorts : Nat) : Dev :=
  let old := fld (rd d SIO_SO_CMD) 15 0
  let cmd := ca + 256 * cb
  let rb := ((cmd &&& (0xFFFF ^^^ opens)) ||| shorts) % 65536
  let d := wrN (wrN d SIO_SO_CMD cmd) SIO_SO_RB rb
  (List.range 16).foldl (fun d j =>
    let has (x k : Nat) := bit (w32 x) k
    let stuck := !has old j && !has cmd j && has rb j
    let dead := has cmd j && !has rb j && has rb ((j + 8) % 16)
    let run := if dead then tget 0 d.sf.openRun j + 1 else 0
    let d := setSf d { d.sf with openRun := tset 0 d.sf.openRun j run }
    if stuck || decide (2 ≤ run) then soLockout d (j % 8) else d) d

/-! ### The cycle (R238) -/

/-- The image a channel latches of its own inputs. -/
def ownImg (d : Dev) (edges : Nat) : SfImg :=
  { pairs := fld (rd d SIO_PAIR) 15 0, edges := edges, jam := fld (rd d SIO_JAM) 15 0, disc := fld (rd d SIO_DISC) 15 0
    data := d.sf.conns.map (fun x => if x.st = .tripped then 0 else x.data), conns := d.sf.conns.map (·.st) }

/-- Every input OFF: a forwarded copy is missing (R252). -/
def offImg (d : Dev) : SfImg := { pairs := 0, edges := 0, jam := 0, disc := 0, data := [], conns := d.sf.conns.map (·.st) }

/-- SAFE_IMG_RECEIVE: the authority's image for a channel; one that fails its checks is missing. -/
def safeImgReceive (d : Dev) (f : Nat) (img : SfImg) (good : Bool) : Dev :=
  if d.role = .standby ∧ good then setChan d f { chanOf d f with fwd := some img } else d

/-- PAIR_DIFF of the standby's own pairs (R252). -/
def pairDiff (d : Dev) (i : Nat) (img : SfImg) : Dev :=
  let n := if (pairS d i).on = bit (w32 img.pairs) i then 0 else (pairS d i).diff + 1
  let d := setPair d i { pairS d i with diff := n }
  let over_ := decide ((sfPairOf d i).disc < n)
  let was := rdBit d SIO_PAIR_DIFF i
  let d := wrBit d SIO_PAIR_DIFF i over_
  if over_ && !was then sfFault d 4 (w32 i) else d

/-- The faults and connections of the partner's image are the module's own safety state: what is new is counted (R252). -/
def followPair (img : SfImg) (d : Dev) (i : Nat) : Dev :=
  let new (a m : Nat) := bit (w32 m) i && !rdBit d a i
  let n := b2n (new SIO_DISC img.disc) + b2n (new SIO_JAM img.jam)
  let d := wrBit (wrBit d SIO_DISC i (bit (w32 img.disc) i)) SIO_JAM i (bit (w32 img.jam) i)
  let d := if 1 ≤ n then bump d SIO_FLT_CNT else d
  pairDiff (if 2 ≤ n then bump d SIO_FLT_CNT else d) i img
def followConn (img : SfImg) (d : Dev) (c : Nat) : Dev :=
  let st := nth img.conns c .unused
  let d := if st = .tripped ∧ (connOf d c).st ≠ .tripped then sfBoth d (fun d f => bump d (SF_CTRIP_CNT f)) else d
  setConn d c { connOf d c with st := st }
def followImg (d : Dev) (img : SfImg) : Dev :=
  (List.range 32).foldl (followConn img) ((List.range 16).foldl (followPair img) d)

/-- The images of the cycle: the own inputs, which an authority also sends to its partner, one from each channel; or on a module
that follows the partner the forwarded ones. -/
def latchImgs (d : Dev) (edges : Nat) : Dev :=
  if followsPair d then
    let ia := d.sf.a.fwd.getD (offImg d)
    let ib := d.sf.b.fwd.getD (offImg d)
    let d := match d.sf.a.fwd with
      | some img => followImg d img
      | none => d
    setSf d { d.sf with a := { d.sf.a with img := ia, fwd := none }, b := { d.sf.b with img := ib, fwd := none }, fwd := true, imgs := [] }
  else
    let img := ownImg d edges
    setSf d { d.sf with a := { d.sf.a with img := img, fwd := none }, b := { d.sf.b with img := img, fwd := none }, fwd := false
                        imgs := if d.role = .authority then [img, img] else [] }

/-- CROSS_COMPARE (R247): a difference in two cycles in a row is LOCKOUT. -/
def crossCompare (d : Dev) (t : SfTable) : Dev :=
  let same := decide (d.sf.a.insts = d.sf.b.insts) && soCmd d 0 t == soCmd d 1 t && decide (d.sf.a.img.conns = d.sf.b.img.conns)
    && (List.range 32).all (fun c => prodData d 0 t c == prodData d 1 t c)
  if same then setSf d { d.sf with xrun := 0 }
  else
    let d := sfBoth (setSf d { d.sf with xrun := d.sf.xrun + 1 }) (fun d f => bump d (SF_XCMP_CNT f))
    if 2 ≤ d.sf.xrun then sfLockout d 1 0 else d

/-- SAFE_FRAME_SEND of a producer connection; a SYNCING module sends none, and keeps its safety outputs off (R271). -/
def sendProd (d : Dev) (t : SfTable) (c : Nat) : Dev :=
  let p := nth t.prods c default
  if p.conn = 0 ∨ p.period = 0 ∨ sfCyc d % p.period ≠ 0 then d
  else
    let s := (tget 0 d.sf.seqs c + 1) % 2 ^ 32
    setSf d { d.sf with seqs := tset 0 d.sf.seqs c s, sent := if d.role = .syncing then d.sf.sent else d.sf.sent ++ [safeFrame p.conn p.key s (prodData d 0 t c) (prodData d 1 t c)] }

/-- The part of a cycle that a table needs: evaluate, compare, switch, send. -/
def cycleTable (d : Dev) (t : SfTable) (opens shorts : Nat) : Dev :=
  let d := if d.sf.mode = .lockout then d else crossCompare (evalChan (evalChan d 0 t) 1 t) t
  let off := d.sf.mode == .lockout || d.role == .syncing
  let d := soApply d (if off then 0 else soCmd d 0 t) (if off then 0 else soCmd d 1 t) opens shorts
  (List.range 32).foldl (fun d c => sendProd d t c) d

/-- SF_CYC counts on both pages. -/
def cycleCount (d : Dev) : Dev := sfBoth d (fun d f => wr64 d (SF_CYC f) (rd64 d (SF_CYC f) + 1))

/-- The part of a cycle before the evaluation: the count, the input pairs, the connections, the images. -/
def cycleLatch (d : Dev) : Dev :=
  let d := cycleCount d
  let r := latchPairs (setSf d { d.sf with sent := [] })
  latchImgs ((List.range 32).foldl connStep r.1) r.2

/-- The rest of a cycle: without a table every output is off. -/
def cycleAct (d : Dev) (opens shorts : Nat) : Dev :=
  match d.sf.table with
  | some t => cycleTable d t opens shorts
  | none => soApply d 0 0 opens shorts

/-- OFF_DELAY_END, MUTING_TIMEOUT, LOCK_AUX_DELAY_END as events of the coming cycle, on both channels. -/
def onInst (d : Dev) (k : Nat) (f : Dev → Nat → SfInst → SfIs → Dev) : Dev := match d.sf.table with
  | some t =>
    if d.sf.mode ≠ .lockout ∧ k < t.insts.length then sfBoth d (fun d c => f d c (nth t.insts k default) (nth (chanOf d c).insts k default)) else d
  | none => d
def putInst (d : Dev) (c k : Nat) (s : SfIs) : Dev := setChan d c { chanOf d c with insts := lset (chanOf d c).insts k s }
/-- OFF_DELAY_END: the transition of the coming cycle, taken ahead; a fault cause goes before the timer (Table 9-8). -/
def offDelayEvent (d : Dev) (k : Nat) : Dev :=
  onInst d k (fun d c i s =>
    if offDelayEnd i s && !s.moved then
      let ch := chanOf d c
      let fault := instFault ch.img (fld (rd d SIO_SO_LOCK) 7 0) i
      let d := bump (putInst d c k { s with st := if fault then .fault else .stop, q := false, timer := 0, moved := true }) (SF_TRIP_CNT c)
      if c = 0 then tripRecord d k i ch.img ch.insts (if fault then (2, 0) else (3, 0)) else d
    else d)
def muteEvent (d : Dev) (k : Nat) : Dev := onInst d k (fun d c i s => putInst d c k (muteEnd i s))
def lockAuxEvent (d : Dev) (k : Nat) : Dev :=
  onInst d k (fun d c i s => match s.aux with
    | some n => if i.typ = 5 ∧ i.param ≤ n + 1 then putInst d c k { s with aux := some i.param } else d
    | none => d)

/-! ### Status (R256) -/

def sfModeNum : SfMode → Nat
  | .unconfigured => 0 | .pending => 1 | .active => 2 | .lockout => 3
def sfStNum : SfSt → Nat
  | .stop => 0 | .ready => 1 | .run => 2 | .delay => 3 | .fault => 4

/-- SF_STAT of a channel. -/
def sfStat (d : Dev) (f : Nat) : Nat :=
  sfModeNum d.sf.mode + 4 * b2n d.sf.unlocked + 8 * b2n (d.sf.conns.any (fun x => x.st == .degraded)) + 16 * b2n d.sf.fwd
    + 32 * b2n (chanOf d f).alone + 64 * b2n (sfHeld d) + 65536 * d.sf.cause

/-- SF_INST word w and SF_CONN word w of a channel. -/
def sfInstWord (d : Dev) (f w : Nat) : Nat :=
  ((List.range 8).map (fun k => let s := nth (chanOf d f).insts (8 * w + k) default; (sfStNum s.st + 8 * b2n s.q) * 16 ^ k)).foldl (· + ·) 0
def sfConnWord (d : Dev) (w : Nat) : Nat :=
  ((List.range 16).map (fun k => cstNum (connOf d (16 * w + k)).st * 4 ^ k)).foldl (· + ·) 0

/-- The Q of instances 32 w to 32 w + 31. -/
def qWord (d : Dev) (f w : Nat) : Nat :=
  ((List.range 32).map (fun k => if (nth (chanOf d f).insts (32 * w + k) default).q then 2 ^ k else 0)).foldl (· + ·) 0

/-- SAFETY_STATUS_COMMIT: each channel commits its block at C2 of BP n + 70. -/
def statusCommit (d : Dev) : Dev := match d.sf.table with
  | none => d
  | some t =>
    if bp d % 100 = 70 then
      sfBoth d (fun d f =>
        let b := t.stat + 4 * f
        let so := fld (rd d SIO_SO_CMD) 7 0 &&& fld (rd d SIO_SO_CMD) 15 8
        let ws := [qWord d f 0, qWord d f 1, so + 256 * (chanOf d f).img.pairs, sfStat d f]
        (ws.zipIdx).foldl (fun d e => commitSig d ⟨b + e.2, w32 e.1, false⟩) d)
    else d

/-! ### Configuration (R253, R254) -/

/-- SF_RES on both pages. -/
def sfRes (d : Dev) (c : Nat) : Dev := sfBoth d (fun d f => wrN d (SF_RES f) c)

/-- A SAFETY_CONFIG record: command, result, old and new CRC and TABLE_ID, KEY_ID. -/
def sfConfig (d : Dev) (cmd : W32) (res : Nat) (old new : Option SfTable) (kid : Nat) : Dev :=
  let g (f : SfTable → Nat) (o : Option SfTable) := match o with
    | some t => f t
    | none => 0
  report d 0x0054 297 ([cmd, w32 res, w32 (g (·.crc) old), w32 (g (·.crc) new), w32 (g (·.id) old), w32 (g (·.id) new)] ++ pay64 kid)
/-- The key that signed a table. -/
def kidOf (t : Option SfTable) : Nat := match t with
  | some t => t.kid
  | none => 0

/-- A configuration command, accepted or not, starts the 15 min of R253 anew. -/
def sfTouch (d : Dev) : Dev := setSf d { d.sf with cfgAt := sfCyc d }

/-- LOAD, CONFIRM, DISCARD and SET_PW: refused with SF_LOCKED or SF_CMD_STATE, else carried out; recorded in every case (R254). The
record of a command refused with SF_CMD_STATE, which no code of Table 9-6 names, carries what SF_RES holds. -/
def sfGuard (d : Dev) (cmd : Nat) (modeOk : Bool) (f : Dev → Dev) : Dev :=
  let d := sfTouch d
  if d.sf.unlocked = false then sfConfig (sfRes (err d .sfa 0x0901 (SF_CMD 0)) 1) (w32 cmd) 1 d.sf.table none (kidOf d.sf.table)
  else if modeOk = false then sfConfig (err d .sfa 0x0902 (SF_CMD 0)) (w32 cmd) (rdN d (SF_RES 0)) d.sf.table none (kidOf d.sf.table)
  else f d

/-- NOP. -/
def sfNop (d : Dev) : Dev := sfRes (sfTouch d) 0

/-- The password in SF_PW0…7, and its hash. -/
def sfPw (d : Dev) : List W8 := bytes32 ((List.range 8).map (fun i => rd d (SF_PW 0 i)))
def sfPwHash (d : Dev) (pw : List W8) : List W8 := Config.sha256 (d.sf.salt ++ pw)
def sfHash (d : Dev) : List W8 := d.sf.hash.getD (sfPwHash d (List.replicate 32 0))

/-- The wait after failures: 60 s after the fifth, doubled by each further one, up to 1 h (R253). -/
def pwWait (d : Dev) : Nat := if d.sf.fails < 5 then 0 else min 3600000 (60000 * 2 ^ (d.sf.fails - 5))

/-- UNLOCK. -/
def sfUnlock (d : Dev) : Dev :=
  let d := sfTouch d
  if sfCyc d < d.sf.failAt + pwWait d then sfRes d 3
  else if sfPwHash d (sfPw d) = sfHash d then
    sfRes (setSf d { d.sf with unlocked := true, fails := 0 }) 0
  else
    let d := sfBoth (setSf d { d.sf with fails := d.sf.fails + 1, failAt := sfCyc d }) (fun d f => bump d (SF_PWF_CNT f))
    let r := freeWord d
    sfRes (sfFault r.2 5 r.1) 2

/-- LOCK. -/
def sfLock (d : Dev) : Dev := sfRes (setSf d { d.sf with unlocked := false, cfgAt := sfCyc d }) 0

/-- The result of LOAD's checks, and the table (Table 9-6). -/
def sfLoadCheck (d : Dev) (serial : Nat) : Nat × Option SfTable :=
  let len := rdN d (SF_LOAD_LEN 0)
  let bs := sramCopy d (rdN d (SF_LOAD_ADDR 0)) len
  if d.sf.hash.isNone then (4, none)
  else if len = 0 then (5, none)
  else match containerCheck d bs 4 (sramLen d (rdN d (SF_LOAD_ADDR 0)) len) with
    | 1 => (5, none)
    | 2 => (6, none)
    | 3 => (7, none)
    | _ =>
      if num (bodyOf bs) 8 8 ≠ serial then (8, none)
      else match parseTable (bodyOf bs) (num bs 0x10 8) with
        | some t => (0, some t)
        | none => (9, none)

/-- A checked table becomes the pending one. -/
def sfPend (d : Dev) (t : SfTable) : Dev :=
  sfBoth (setSf d { d.sf with mode := .pending, pend := some t, pendAt := sfCyc d }) (fun d f => wrN d (SF_PEND_CRC f) t.crc)

/-- LOAD: on success MODE reads PENDING and the active table stays in force. -/
def sfLoad (d : Dev) (serial : Nat) : Dev :=
  sfGuard d 3 (d.sf.mode == .unconfigured || d.sf.mode == .active) (fun d =>
    let r := sfLoadCheck d serial
    let kid := num (sramCopy d (rdN d (SF_LOAD_ADDR 0)) (rdN d (SF_LOAD_LEN 0))) 0x10 8
    let d := match r.2 with
      | some t => sfPend d t
      | none => d
    sfConfig (sfRes d r.1) 3 r.1 d.sf.table r.2 kid)

/-- A pending table is dropped: MODE is ACTIVE or UNCONFIGURED again. -/
def sfDrop (d : Dev) : Dev := setSf d { d.sf with mode := if d.sf.table.isSome then .active else .unconfigured, pend := none, confirmed := false }

/-- Every instance in STOP, consumers OK with fresh watchdogs (R254). -/
def sfFresh (d : Dev) (t : SfTable) : Dev :=
  let is := t.insts.map (fun _ => (default : SfIs))
  let cs := t.cons.map (fun c => { (default : SfConn) with st := if c.conn = 0 then .unused else .ok })
  setSf d { d.sf with conns := cs, a := { d.sf.a with insts := is }, b := { d.sf.b with insts := is } }

/-- The status entries of a table (R256): four for each channel, W32. -/
def sfEntries (t : SfTable) : List (Nat × Nat) := (List.range 8).map (fun i => (t.stat + i, i / 4))

/-- A confirmed table takes effect: claims, seal, fresh instances and consumers. -/
def sfActivate (d : Dev) (t : SfTable) : Dev :=
  let d := releaseAll d (ownedBy d clsSafety 0 ++ ownedBy d clsSafety 1)
  let d := (sfEntries t).foldl (fun d e => claim d e.1 clsSafety e.2 true 0) d
  let d := sfFresh (setSf d { d.sf with mode := .active, table := some t, pend := none, sealed_ := Config.moduleSign (Config.sha256 t.body) }) t
  sfBoth d (fun d f => wrN (wrN d (SF_CFG_CRC f) t.crc) (SF_CFG_ID f) t.id)

/-- A status entry of the new table is another writer's. -/
def sfTaken (d : Dev) (t : SfTable) : Bool :=
  (sfEntries t).any (fun e => decide (32768 ≤ e.1) || ((sigOwner d e.1).1 != 0 && (sigOwner d e.1).1 != clsSafety))

/-- A confirmed table takes effect at c0, and is kept in MRAM with its entry (R254, R296). -/
def sfTake (d : Dev) : Dev :=
  match d.sf.pend with
  | some t =>
    if d.sf.confirmed then
      dirPut (setSf (sfActivate d t) { (sfActivate d t).sf with confirmed := false }) .sfa 0 4 (t.body.length + 0x80) (Config.sha256 t.body)
    else d
  | none => d

/-- CONFIRM: the result; the table takes effect at the next c0. -/
def sfConfirm (d : Dev) : Dev :=
  sfGuard d 4 (d.sf.mode == .pending && !d.sf.confirmed) (fun d =>
    match d.sf.pend with
    | none => d
    | some t =>
      let busy := rd d SIO_SO_CMD != 0 || d.sf.a.insts.any (fun s => s.st == .run || s.st == .delay)
      let c := if rdN d (SF_CONFIRM 0) ≠ t.crc then 0x0B else if busy then 0x0A else if sfTaken d t then 0x0E else 0
      sfConfig (sfRes (setSf d { d.sf with confirmed := decide (c = 0) }) c) 4 c d.sf.table (some t) t.kid)

/-- DISCARD. -/
def sfDiscard (d : Dev) : Dev :=
  sfGuard d 5 (d.sf.mode == .pending && !d.sf.confirmed) (fun d => sfConfig (sfRes (sfDrop d) 0) 5 0 d.sf.table d.sf.pend (kidOf d.sf.pend))

/-- The password given becomes the password. -/
def sfPwSet (d : Dev) : Dev := setSf d { d.sf with hash := some (sfPwHash d (sfPw d)) }

/-- SET_PW. -/
def sfSetPw (d : Dev) : Dev :=
  sfGuard d 6 true (fun d => sfConfig (sfRes (sfPwSet d) 0) 6 0 d.sf.table none (kidOf d.sf.table))

/-- CONFIRM_TIMEOUT: 10 min after LOAD the pending table is discarded. -/
def confirmTimeout (d : Dev) : Dev :=
  if d.sf.mode = .pending ∧ d.sf.confirmed = false ∧ d.sf.pendAt + 600000 ≤ sfCyc d then
    let r := freeWord d
    sfConfig (sfRes (sfDrop r.2) 0x0C) r.1 0x0C d.sf.table d.sf.pend (kidOf d.sf.pend)
  else d

/-- UNLOCK_TIMEOUT: 15 min without a configuration command. -/
def unlockTimeout (d : Dev) : Dev := if d.sf.cfgAt + 900000 ≤ sfCyc d then setSf d { d.sf with unlocked := false } else d

/-- CONFIRM on a module that follows its partner: the table that the authority has sent with it takes effect (R254). -/
def sfFollow (d : Dev) : Dev := if d.sf.pend.isSome then sfRes (setSf d { d.sf with confirmed := true }) 0 else d

/-- A command of SF_CMD (Table 9-5); on a module that follows its partner LOAD, DISCARD and SET_PW are dropped (R254). -/
def sfCommand (d : Dev) (serial code : Nat) : Dev :=
  let own := !followsPair d
  match code with
  | 0 => sfNop d
  | 1 => sfUnlock d
  | 2 => sfLock d
  | 3 => if own then sfLoad d serial else d
  | 4 => if own then sfConfirm d else sfFollow d
  | 5 => if own then sfDiscard d else d
  | 6 => if own then sfSetPw d else d
  | _ => err (sfTouch d) .sfa 0x0902 (SF_CMD 0)

/-- A command on which the channels reach different results is refused (R253); the four that are recorded are recorded. -/
def sfDisagree (d : Dev) (code : Nat) : Dev :=
  let d := sfRes (sfTouch d) 0x0D
  if 3 ≤ code ∧ code ≤ 6 then sfConfig d (w32 code) 0x0D d.sf.table d.sf.pend (kidOf d.sf.pend) else d

/-- The commands since the latest c0 take effect, in order, then a confirmed table (R253, R254). -/
def sfCmds (d : Dev) (serial : Nat) (differ : Bool) : Dev :=
  let cs := d.sf.cmds
  sfTake (cs.foldl (fun d c => if differ then sfDisagree d c else sfCommand d serial c) (setSf d { d.sf with cmds := [] }))

/-- SAFETY_CYCLE at c0: a BP with BP_CNT mod 100 = 0, or the channels' own oscillators (R237, R238). differ: the channels reach
different results on the commands of this c0. -/
def safetyCycle (d : Dev) (serial opens shorts : Nat) (differ : Bool) : Dev :=
  if bp d % 100 = 0 ∨ d.sf.a.alone ∨ d.sf.b.alone then cycleAct (cycleLatch (sfCmds d serial differ)) opens shorts else d

/-- A module that catches up with its partner computes its cycles with the BPs it replays (R283). -/
def sfReplays (d : Dev) : Bool := d.role == .syncing && d.tw.baseOk
def safetyRow (d e : Dev) : Dev := if sfReplays d then d else e
/-- What a module judges on its own inputs: not while it takes the partner's image (R252). -/
def ownSide (d e : Dev) : Dev := if followsPair d then d else e

/-- A write to SFA, the one channel page that takes any: a command waits for the next c0 (R253). -/
def sfWrite (d : Dev) (off : Nat) (v : W32) : Dev :=
  let a := sfBase 0 + off
  if off = 0x104 then setSf (wr d a (w32 (fld v 3 0))) { d.sf with cmds := d.sf.cmds ++ [fld v 3 0] }
  else if off = 0x108 ∨ off = 0x10C ∨ off = 0x11C ∨ (0x120 ≤ off ∧ off < 0x140) then wr d a v else d

end Sys2Proof.Machine
end

