-- ==== Sys2Proof/Machine/PlialeImage.lean ====
section
/-! DEFINITION. The Pliale schedule image and the frames (R319 to R323). -/

namespace Sys2Proof.Machine

/-- T(L): how long a frame with L payload bytes lasts, in ns (R319). -/
def frameNs (l : Nat) : Nat := 320 + 80 * (10 + l)

/-- A frame body: header, payload, CRC (R320). -/
def plFrame (addr typ flags seq : Nat) (pay : List W8) : List W8 :=
  let h := leBytes 1 (addr % 32 + 32 * typ) ++ leBytes 1 flags ++ leBytes 2 seq ++ leBytes 2 pay.length ++ pay
  h ++ leBytes 4 (crc32c h)

/-- The fields of a received body. -/
def frAddr (f : List W8) : Nat := num f 0 1 % 32
def frType (f : List W8) : Nat := num f 0 1 / 32
def frFlags (f : List W8) : Nat := num f 1 1
def frSeq (f : List W8) : Nat := num f 2 2
def frLen (f : List W8) : Nat := num f 4 2 % 512
def frPay (f : List W8) : List W8 := (f.drop 6).take (frLen f)

/-- A frame is valid: code groups and delimiters good, LEN matches, CRC correct (R320). -/
def frValid (good : Bool) (f : List W8) : Bool :=
  good && decide (10 ≤ f.length) && decide (num f 4 2 ≤ 256) && f.length == 10 + frLen f && num f (f.length - 4) 4 == crc32c (f.take (f.length - 4))

/-- The entries of n bytes: one per 4 bytes, or per 2 bytes. -/
def entCount (q16 : Bool) (n : Nat) : Nat := if q16 then (n + 1) / 2 else (n + 3) / 4

/-- The input and output entries of a slot. -/
def inEnts (e : PlEnt) : List Nat := (List.range (entCount e.inQ e.inLen)).map (e.inSig + ·)
def outEnts (e : PlEnt) : List Nat := (List.range (entCount e.outQ e.outLen)).map (e.outSig + ·)

/-- A slot entry of the body, and its own checks. -/
def parseEnt (bs : List W8) (o : Nat) : PlEnt :=
  let m := num bs (o + 1) 1
  { addr := num bs o 1, inQ := m % 2 == 1, outQ := m / 2 % 2 == 1, outLen := num bs (o + 2) 2, inLen := num bs (o + 4) 2
    invCyc := num bs (o + 6) 2, pollOfs := num bs (o + 8) 4, replyOfs := num bs (o + 12) 4, outSig := num bs (o + 16) 2
    inSig := num bs (o + 18) 2, safe := w32 (num bs (o + 20) 4) }
def entOk (bs : List W8) (o : Nat) : Bool :=
  decide (num bs o 1 ≤ 31) && decide (num bs (o + 1) 1 ≤ 3) && decide (num bs (o + 2) 2 ≤ 256) && decide (num bs (o + 4) 2 ≤ 256)
    && zeros bs (o + 24) 8

/-- The intervals of a schedule, in order (R323). -/
def plIntervals (s : PlSched) : List (Nat × Nat) :=
  [(0, frameNs 32)]
    ++ s.ents.flatMap (fun e => [(e.pollOfs, e.pollOfs + frameNs e.outLen), (e.replyOfs, e.replyOfs + frameNs e.inLen)])
    ++ [(s.acycOfs, s.acycOfs + s.acycLen)]

/-- Each interval ends at least g before the next begins. -/
def guarded (g : Nat) : List (Nat × Nat) → Bool
  | a :: b :: t => decide (a.2 + g ≤ b.1) && guarded g (b :: t)
  | _ => true

/-- The instant rules of R323 for a cycle of c ns. -/
def plTiming (s : PlSched) : Bool :=
  let c := s.cyc * 10000
  let native := decide (frameNs 32 ≤ s.latch) && s.ents.all (fun e => decide (s.latch + 2000 ≤ e.replyOfs))
    && s.ents.all (fun e => decide (e.pollOfs + frameNs e.outLen + 1000 ≤ s.apply)) && decide (s.apply < c)
  guarded s.guardNs (plIntervals s) && decide (s.acycOfs + s.acycLen + s.guardNs ≤ c)
    && s.ents.all (fun e => decide (e.pollOfs + frameNs e.outLen + 2000 ≤ e.replyOfs)) && (s.l3 || native)

/-- No number stands twice. -/
def distinct : List Nat → Bool
  | [] => true
  | a :: t => !t.contains a && distinct t

/-- The schedule of a body, or the load result of the first rule broken (Table 12-6; order: log entry 19). -/
def parseSched (bs : List W8) : Except Nat PlSched :=
  let n := num bs 6 2
  let so := num bs 0x24 4
  let offs := (List.range n).map (fun k => so + 32 * k)
  let s : PlSched :=
    { cyc := num bs 8 2, l3 := num bs 0x0A 1 == 1, latch := num bs 0x0C 4, apply := num bs 0x10 4, acycOfs := num bs 0x14 4
      acycLen := num bs 0x18 4, guardNs := num bs 0x1C 2, id := num bs 0x20 4, ents := offs.map (parseEnt bs) }
  let head := num bs 0 4 == 0x43534C50 && num bs 4 2 == 1 && decide (n ≤ 32) && decide (5 ≤ s.cyc ∧ s.cyc ≤ 1000)
    && decide (num bs 0x0A 1 ≤ 1) && zeros bs 0x0B 1 && zeros bs 0x1E 2 && zeros bs 0x28 24 && decide (8000 ≤ s.acycLen)
    && decide (100 ≤ s.guardNs ∧ s.guardNs ≤ 2000) && so % 8 == 0 && decide (64 ≤ so) && decide (so + 32 * n ≤ bs.length)
    && (!s.l3 || (s.latch == 0 && s.apply == 0))
  if !(head && offs.all (entOk bs)) then .error 4
  else if !distinct (s.ents.map (·.addr)) then .error 5
  else if !plTiming s then .error 6
  else if !(distinct (s.ents.flatMap inEnts) && (s.ents.flatMap (fun e => inEnts e ++ outEnts e)).all (fun x => decide (x < 32768))) then .error 5
  else .ok s

end Sys2Proof.Machine
end

