-- ==== Sys2Proof/Machine/Pliale.lean ====
section
/-! DEFINITION. Pliale segments at work (chapter 12). -/

namespace Sys2Proof.Machine

def sl0 : SlS := { st := .off, lost := false, invalid := false, edgeRun := 0, range := false, witness := 0, missRun := 0, lostRun := 0, got := false, heard := false, spoilt := false, mute := false, invRun := 0, data := [], fwd := none, due := false, asked := 0, answers := 0, sum := 0, measured := false }
def pl0 : Pl := { st := .empty, sched := none, copy := [], copyLen := 0, cyc := 0, start := none, heardAt := 0, cycles := 0, dup := false, coll := 0, closing := 0, slots := [], wait := false, asked := false, resync := [], violators := [], outs := [], taken := [], kept := false, sent := [], wr := 0, wp := 0 }
def plOf (d : Dev) (s : Nat) : Pl := tget pl0 d.pls s
def setPl (d : Dev) (s : Nat) (x : Pl) : Dev := { d with pls := tset pl0 d.pls s x }
/-- The slot entries of the loaded schedule. -/
def plEnts (x : Pl) : List PlEnt := match x.sched with
  | some c => c.ents
  | none => []
def plGuard (x : Pl) : Nat := match x.sched with
  | some c => c.guardNs
  | none => 0
def plEnt (x : Pl) (k : Nat) : PlEnt := nth (plEnts x) k default
def slOf (d : Dev) (s k : Nat) : SlS := nth (plOf d s).slots k sl0
def setSl (d : Dev) (s k : Nat) (y : SlS) : Dev := setPl d s { plOf d s with slots := lset (plOf d s).slots k y }
/-- A slot that enters INIT: its delay is to be measured anew; its counts and its latest witness stay. -/
def slInit (y : SlS) : SlS :=
  { y with st := .init, mute := false, got := false, heard := false, spoilt := false, due := false, fwd := none, lostRun := 0, invRun := 0
           asked := 0, answers := 0, sum := 0, measured := false }
/-- The schedule is in L3 mode. -/
def plL3 (x : Pl) : Bool := match x.sched with
  | some c => c.l3
  | none => false
/-- The segment sends a cycle: RUNNING, or the last one before silence. -/
def plLive (x : Pl) : Bool := x.st == .running || x.closing == 1
/-- Authoritative: SOLO or AUTHORITY (R259). -/
def authoritative (d : Dev) : Bool := d.role == .solo || d.role == .authority

/-- BOUND (R226): a running processor's cyclic task names the segment. -/
def plBound (d : Dev) (s : Nat) : Bool :=
  (List.range 4).any (fun p => (lpOf d p).st == .running && (lpOf d p).prog.tasks.any (fun t => !t.event && bit (w32 t.pliale) s))

/-! ### Entries (R324 to R326) -/

/-- The value of input entry i from payload bytes. -/
def inWord (e : PlEnt) (bs : List W8) (i : Nat) : W32 :=
  if e.inQ then w32 (num bs (2 * i) 2) else w32 (num bs (4 * i) 4)

/-- Stage a slot's entries for C1: from bytes, or its safe value. -/
def plInputs (d : Dev) (e : PlEnt) (bs : List W8) : Dev :=
  (List.range (entCount e.inQ e.inLen)).foldl (fun d i => put1 d (e.inSig + i) (inWord e bs i) false) d
def plSafeEnt (d : Dev) (e : PlEnt) (safe : Bool) : Dev := (inEnts e).foldl (fun d n => put1 d n e.safe safe) d
/-- Every input entry of a segment takes its safe value (STOPPED, LISTEN: SAFE clear; QUARANTINED: SAFE set). -/
def plSafe (d : Dev) (s : Nat) (safe : Bool) : Dev := (plEnts (plOf d s)).foldl (fun d e => plSafeEnt d e safe) d

/-- Output payload bytes of a slot from the committed table (R325). -/
def plOutBytes (d : Dev) (e : PlEnt) : List W8 :=
  ((outEnts e).flatMap (fun n => if e.outQ then leBytes 2 (sigVal d n).toNat else leBytes 4 (sigVal d n).toNat)).take e.outLen

/-- C2: outputs are captured as committed at it, for a cycle that starts with the next BP, in every BP in L3 mode (R25, R228, R326). -/
def plCapture (d : Dev) (s : Nat) : Dev :=
  let x := plOf d s
  match x.sched with
  | some c => if c.l3 || (0 < x.cyc && (bp d + 1) % x.cyc == 0) then setPl d s { x with taken := c.ents.map (plOutBytes d) } else d
  | none => d

/-- What a slot commits for a cycle: its own bytes, or on a standby the forwarded ones (R266, R267). -/
def slBytes (d : Dev) (y : SlS) : Option (List W8) :=
  if d.role = .standby then (match y.fwd with
    | some b => some b
    | none => if y.got then some y.data else none)
  else if y.got then some y.data else none

/-- PL_INPUT_COMMIT of one slot (R326); under SAFE_REQ its safe value (R46). -/
def plCommitSlot (d : Dev) (s k : Nat) : Dev :=
  let y := slOf d s k
  let e := plEnt (plOf d s) k
  let d := if d.role = .standby ∧ y.got ∧ y.fwd.isNone then bump d TW_FWD_MISS_CNT else d
  match slBytes d y with
  | some b =>
    let d := setSl d s k { y with invRun := 0, fwd := none }
    if safeReq d (.pl s) then plSafeEnt d e false else plInputs d e b
  | none =>
    let d := setSl d s k { y with invRun := y.invRun + 1, fwd := none }
    if e.invCyc < y.invRun + 1 then plSafeEnt d e true else if safeReq d (.pl s) then plSafeEnt d e false else d

/-- t0: commits of the inputs of the cycle that has ended (native), or of replies since the last C1 (L3), in RUNNING only (R326). -/
def plCommit (d : Dev) (s : Nat) : Dev :=
  let x := plOf d s
  match x.sched with
  | none => d
  | some c =>
    if x.st ≠ .running then d else
    let ks := List.range c.ents.length
    let end_ := match x.start with
      | some m => m + x.cyc == bp d
      | none => false
    if c.l3 then
      let d := ks.foldl (fun d k => let y := slOf d s k; if y.due then plCommitSlot (setSl d s k { y with due := false }) s k else d) d
      if end_ then
        let d := ks.foldl (fun d k => if (slOf d s k).got then d else plCommitSlot d s k) d
        setPl d s { plOf d s with start := none }
      else d
    else if end_ then ks.foldl (fun d k => plCommitSlot d s k) (setPl d s { x with start := none })
    else d

/-! ### States (Table 12-9) -/

/-- A refused command. -/
def plRefuse (d : Dev) (s code reg : Nat) : Dev := err d (.pl s) code reg

/-- A request that waits is aborted when the segment stops before sending it (R335). -/
def acycEnd (d : Dev) (s st res : Nat) : Dev :=
  setPl (bump (wrN d (PL_ACYC_STAT s) (st + 256 * res)) (PL_ACYC_CNT s)) s { plOf d s with wait := false, asked := false }
def acycAbort (d : Dev) (s : Nat) : Dev := if (plOf d s).wait then acycEnd d s 3 4 else d

/-- To STOPPED: entries hold SAFE with the attribute clear; from RUNNING by a stop, one last cycle. -/
def plToStopped (d : Dev) (s closing : Nat) : Dev :=
  let d := plSafe (acycAbort d s) s false
  setPl d s { plOf d s with st := .stopped, closing := closing, start := none }

/-- To LISTEN: the silence timer starts. -/
def plToListen (d : Dev) (s coll : Nat) : Dev :=
  setPl d s { plOf d s with st := .listen, heardAt := bp d, coll := coll, cycles := 0, closing := 0, start := none, kept := false }

/-- START. -/
def plStart (d : Dev) (s : Nat) : Dev :=
  if (plOf d s).st = .stopped ∧ runBit d (.pl s) then
    let d := plToListen d s 0
    let x := plOf d s
    setPl d s { x with dup := false, slots := x.slots.map slInit }
  else plRefuse d s 0x0C01 (PL_CMD s)

/-- STOP, or RUN = 0. -/
def plHalt (d : Dev) (s : Nat) : Dev :=
  match (plOf d s).st with
  | .running => plToStopped d s 2
  | .listen | .halted => plToStopped d s 0
  | _ => d
def plStop (d : Dev) (s : Nat) : Dev :=
  match (plOf d s).st with
  | .running | .listen | .halted => plHalt d s
  | _ => plRefuse d s 0x0C01 (PL_CMD s)

/-- LOAD: the container is read once, verification begins. -/
def plLoad (d : Dev) (s : Nat) : Dev :=
  if (plOf d s).st = .empty then
    let len := rdN d (PL_LOAD_LEN s)
    setPl d s { pl0 with st := .loading, copy := sramCopy d (rdN d (PL_LOAD_ADDR s)) len, copyLen := sramLen d (rdN d (PL_LOAD_ADDR s)) len }
  else plRefuse d s 0x0C01 (PL_CMD s)

def plLoadFail (d : Dev) (s code : Nat) : Dev := err (wrN (setPl d s pl0) (PL_LOAD_RES s) code) (.pl s) 0x0C05 (PL_CMD s)

/-- The claims of a schedule: WCLASS 0x07, WINST 32 s + k, W32 unless IN_Q16 (R324). -/
def plClaims (s : Nat) (c : PlSched) : List (Nat × Nat × Bool × W32) :=
  (c.ents.zipIdx).flatMap (fun e => (inEnts e.1).map (fun n => (n, 32 * s + e.2, !e.1.inQ, e.1.safe)))

/-- A verified schedule: its claims, STOPPED. -/
def plLoadOk (d : Dev) (s : Nat) (c : PlSched) : Dev :=
  let d := (plClaims s c).foldl (fun d e => claim d e.1 clsPl e.2.1 e.2.2.1 e.2.2.2) d
  let d := setPl d s { pl0 with st := .stopped, sched := some c, cyc := c.cyc, slots := c.ents.map (fun _ => { sl0 with st := .init }) }
  wrN (wrN (wrN d (PL_LOAD_RES s) 0) (PL_SCHED_ID s) c.id) (PL_CYCLE s) c.cyc

/-- PL_VERIFY_DONE: STOPPED with its claims, or EMPTY with a failure code. -/
def plVerify (d : Dev) (s : Nat) : Dev :=
  let x := plOf d s
  if x.st ≠ .loading then d
  else match containerCheck d x.copy 5 x.copyLen with
    | 0 => match parseSched (bodyOf x.copy) with
      | .error c => plLoadFail d s c
      | .ok c =>
        if (plClaims s c).any (fun e => sigTaken d e.1 clsPl e.2.1) then plLoadFail d s 7 else plLoadOk d s c
    | c => plLoadFail d s c

/-- UNLOAD: claims released. -/
def plUnload (d : Dev) (s : Nat) : Dev :=
  let x := plOf d s
  if x.st = .stopped then
    let ns := match x.sched with
      | some c => (plClaims s c).map (·.1)
      | none => []
    let d := if x.asked then acycEnd d s 3 4 else d
    setPl (releaseAll d ns) s pl0
  else plRefuse d s 0x0C01 (PL_CMD s)

/-- NOP. -/
def plNop (d : Dev) : Dev := d

/-- PL_CMD (Table 12-11). -/
def plCommand (d : Dev) (s : Nat) (v : W32) : Dev := match fld v 3 0 with
  | 0 => plNop d
  | 1 => plLoad d s
  | 2 => plUnload d s
  | 3 => plStart d s
  | 4 => plStop d s
  | _ => plRefuse d s 0x0C02 (PL_CMD s)

/-- RESTART of a HALTED segment. -/
def plRestart (d : Dev) (s : Nat) : Dev :=
  if (plOf d s).st = .halted then plToListen d s 0 else plRefuse d s 0x0C01 (PL_LCMD s)

/-- The request buffer: LEN, RMAX, and how long the exchange takes (R335). -/
def areqLen (d : Dev) (s : Nat) : Nat := fld (rd d (PL_AREQ_HDR s)) 16 8
def areqMax (d : Dev) (s : Nat) : Nat := fld (rd d (PL_AREQ_DATA s 0)) 31 16
def areqNs (d : Dev) (s : Nat) : Nat :=
  let g := plGuard (plOf d s)
  frameNs (areqLen d s) + 2100 + g / 2 + frameNs (areqMax d s) + g

/-- ACYC: refused at once with ZERO or NOT_FIT, else waiting for a window. -/
def plAcyc (d : Dev) (s : Nat) : Dev :=
  let x := plOf d s
  let room := match x.sched with
    | some c => c.acycLen
    | none => 0
  if (x.st ≠ .listen ∧ x.st ≠ .running) ∨ x.wait ∨ x.asked then plRefuse d s 0x0C01 (PL_LCMD s)
  else if areqLen d s < 4 ∨ areqMax d s < 4 then acycEnd d s 3 5
  else if room < areqNs d s then acycEnd d s 3 3
  else setPl (wrN d (PL_ACYC_STAT s) 1) s { x with wait := true }

/-- RESYNC of one slot: it is sent COMMAND RESYNC in the next window. -/
def plResync (d : Dev) (s k : Nat) : Dev :=
  let x := plOf d s
  if x.st = .running ∧ k < x.slots.length then setPl d s { x with resync := x.resync ++ [k] } else plRefuse d s 0x0C01 (PL_LCMD s)

/-- PL_LCMD. -/
def plLocal (d : Dev) (s : Nat) (v : W32) : Dev := match fld v 3 0 with
  | 0 => plNop d
  | 1 => plRestart d s
  | 2 => plAcyc d s
  | 3 => plResync d s (fld v 12 8)
  | _ => plRefuse d s 0x0C02 (PL_LCMD s)

/-- FOREIGN_SYNC: another master's valid SYNC. -/
def foreignSync (d : Dev) (s : Nat) : Dev :=
  let x := plOf d s
  if x.st = .listen ∨ x.st = .running then
    let d := bump (plToStopped d s 0) (PL_DUP_CNT s)
    let d := setPl d s { plOf d s with dup := true }
    busEvent d (.pl s) (304 + 2 * s) (Config.busEventCode 1) (rdN d (PL_DUP_CNT s))
  else d

/-- PL_COLLISION: a readback mismatch; of the SYNC being sent, or of another frame of a slot (R333). -/
def plCollision (d : Dev) (s : Nat) (sync : Bool) (k : Nat) : Dev :=
  let x := plOf d s
  if plLive x = false then d
  else
    let d := bump d (PL_COLL_CNT s)
    if sync ∧ x.st = .running ∧ x.cycles ≤ 8 then
      if x.coll < 2 then plSafe (plToListen (acycAbort d s) s (x.coll + 1)) s false
      else
        let d := plSafe (acycAbort d s) s false
        busEvent (setPl d s { plOf d s with st := .halted, coll := 3, start := none }) (.pl s) (304 + 2 * s) (Config.busEventCode 0) (rdN d (PL_COLL_CNT s))
    else if sync then d
    else setSl d s k { slOf d s k with got := false, due := false, spoilt := true }

/-- LINE_ACTIVITY restarts the silence timer of LISTEN. -/
def lineActivity (d : Dev) (s : Nat) : Dev := if (plOf d s).st = .listen then setPl d s { plOf d s with heardAt := bp d } else d

/-- LISTEN_SILENCE_EXPIRED: 2 ms + MADDR x 20 us without activity; every slot enters INIT but after a resume (R332). -/
def listenExpired (d : Dev) (s : Nat) : Dev :=
  let x := plOf d s
  if x.st = .listen ∧ x.heardAt + 200 + 2 * fld (rd d (PL_CFG s)) 4 0 ≤ bp d then
    setPl d s { x with st := .running, cycles := 0, kept := false, slots := if x.kept then x.slots else x.slots.map slInit }
  else d

/-- PL_SCHED_UE: QUARANTINED. -/
def schedUe (d : Dev) (s : Nat) : Dev :=
  let x := plOf d s
  if x.st = .empty ∨ x.st = .quarantined then d
  else
    let d := plSafe (acycAbort d s) s true
    let d := setPl d s { plOf d s with st := .quarantined, closing := 0, start := none }
    tileQuar (err d (.pl s) 0x0C04 0) (.pl s) 0x0C04 0

/-- t0: RUN = 0 stops a segment; an expired silence starts one (R333); the outputs captured at the last C2 are those of the POLLs to come. -/
def plTick (d : Dev) (s : Nat) : Dev :=
  let d := listenExpired (if runBit d (.pl s) then d else plHalt d s) s
  let x := plOf d s
  if plL3 x || (0 < x.cyc && bp d % x.cyc == 0) then setPl d s { x with outs := x.taken } else d

/-! ### The cycle (R321, R322) -/

/-- CYCLE of the present cycle. -/
def cycleNo (d : Dev) (x : Pl) : Nat := (if x.cyc = 0 then 0 else bp d / x.cyc) % 2 ^ 32

/-- The SYNC payload (Table 12-3). -/
def syncPay (d : Dev) (s : Nat) : List W8 :=
  let x := plOf d s
  match x.sched with
  | none => []
  | some c =>
    leBytes 4 (cycleNo d x) ++ leBytes 8 d.tt ++ leBytes 4 (x.cyc * 10000) ++ leBytes 4 (if c.l3 then 0xFFFFFFFF else c.latch)
      ++ leBytes 4 (if c.l3 then 0xFFFFFFFF else c.apply) ++ leBytes 4 (c.acycOfs + c.acycLen) ++ leBytes 2 c.guardNs
      ++ leBytes 2 (b2n c.l3 + 2 * b2n (authoritative d) + 4 * b2n (rdBit d (PL_CFG s) 6) + 8 * b2n (x.closing == 1))

/-- PLIALE_CYCLE_START at a boundary: the SYNC; a new PL_CYCLE takes effect; the flags of the cycle clear. -/
def cycleStart (d : Dev) (s : Nat) : Dev :=
  let x := plOf d s
  if (x.st = .running ∨ x.closing = 2) ∧ 0 < x.cyc ∧ bp d % x.cyc = 0 then
    let x := { x with cyc := fld (rd d (PL_CYCLE s)) 9 0, start := some (bp d), cycles := x.cycles + 1, violators := []
                      closing := if x.closing = 2 then 1 else 0
                      slots := x.slots.map (fun y => { y with got := false, heard := false, spoilt := false }) }
    let d := wrN (setPl d s x) (PL_CYC_NUM s) (cycleNo d x)
    setPl d s { plOf d s with sent := [(0, plFrame (fld (rd d (PL_CFG s)) 4 0) 0 0 (cycleNo d x) (syncPay d s))] }
  else if x.closing = 1 ∧ 0 < x.cyc ∧ bp d % x.cyc = 0 then setPl d s { x with closing := 0, start := none }
  else d

/-- Send a frame at an instant. -/
def plSend (d : Dev) (s at_ : Nat) (f : List W8) : Dev := setPl d s { plOf d s with sent := (plOf d s).sent ++ [(at_, f)] }

/-- A module that takes its partner's state sends no networked output (R271); in Held the segment runs on (R333). -/
def outsMute (d : Dev) : Bool := d.role == .syncing && d.power.phase == .on

/-- POLL_SEND: slot k's POLL at POLL_OFS, with the outputs of the cycle, in L3 mode those of the last C2 before it (R228, R326); NOREPLY
while SILENT. -/
def pollSend (d : Dev) (s k : Nat) : Dev :=
  let x := plOf d s
  let e := plEnt x k
  if plLive x ∧ k < x.slots.length ∧ outsMute d = false then
    let pay := nth (if plL3 x && decide (8000 ≤ e.pollOfs % 10000) then x.taken else x.outs) k []
    plSend d s e.pollOfs (plFrame e.addr 1 (b2n (nth x.slots k sl0).mute) (rdN d (PL_CYC_NUM s)) pay)
  else d

/-! ### Receptions (R330, R331, Table 12-7) -/

/-- The instant falls in the window of a slot. -/
def inWin (x : Pl) (e : PlEnt) (j : Nat) : Bool := decide (e.replyOfs ≤ j + plGuard x / 2) && decide (j ≤ e.replyOfs + plGuard x / 2)

/-- The slot of a window, and of an address. -/
def winSlot (x : Pl) (j : Nat) : Option Nat := (List.range (plEnts x).length).find? (fun k => inWin x (plEnt x k) j)
def addrSlot (x : Pl) (a : Nat) : Option Nat := (List.range (plEnts x).length).find? (fun k => (plEnt x k).addr == a)

/-- Count one in half of a slot register, modulo 2^16. -/
def bumpLo (d : Dev) (a : Nat) : Dev := wrFld d a 15 0 (fld (rd d a) 15 0 + 1)
def bumpHi (d : Dev) (a : Nat) : Dev := wrFld d a 31 16 (fld (rd d a) 31 16 + 1)

/-- The arrival error of slot k, saturating. -/
def setErr (d : Dev) (s k : Nat) (e : Int) : Dev := wrFld d (PL_SL_TIME s k) 31 16 ((clampI (-32768) 32767 e) % 65536).toNat

/-- An accepted reply: data, witness, run 0; it counts for a witness check (R337), and an authority forwards it (R266). In a slot whose own
frame was spoilt it leaves the slot invalid (R333). -/
def accept (d : Dev) (s k : Nat) (f : List W8) : Dev :=
  let y := slOf d s k
  let w := frFlags f
  let x := plOf d s
  let other := if rdBit d (PL_CFG s) 6 then 1 else 2
  let d := setPl d s { x with wr := x.wr + 1, wp := x.wp + b2n (w % 4 == other) }
  let d := setSl d s k { y with got := !y.spoilt, data := frPay f, witness := w, edgeRun := 0, due := plL3 x && !y.spoilt }
  let d := if d.role = .authority ∧ y.spoilt = false then twSend d (.pliale (bp d) s k (frPay f)) else d
  if w / 4 % 2 = 1 then bump d (PL_WIT_DIFF_CNT s) else d

/-- A slot-edge violation; the window that its J falls in has had a reception. -/
def edgeViolation (d : Dev) (s k j len : Nat) : Dev :=
  let y := slOf d s k
  let run := min 3 (y.edgeRun + 1)
  let d := bump (bumpLo d (PL_SL_EDGE s k)) (PL_EDGE_CNT s)
  let d := setSl d s k { y with edgeRun := run }
  let d := match winSlot (plOf d s) j with
    | some i => setSl d s i { slOf d s i with heard := true }
    | none => d
  let x := plOf d s
  setPl d s { x with violators := x.violators ++ [(k, j, j + frameNs len)]
                     resync := if run = 3 ∧ y.edgeRun = 2 ∧ y.st = .active then x.resync ++ [k] else x.resync }

/-- A frame error of the slot whose window it falls in, or a neighbour's corruption; in no window it is only counted. -/
def badReception (d : Dev) (s j : Nat) (valid : Bool) : Dev :=
  let x := plOf d s
  match winSlot x j with
  | none => if valid then d else bump d (PL_CRC_CNT s)
  | some k =>
    let e := plEnt x k
    let g := plGuard x / 2
    let hit := x.violators.any (fun v => v.1 != k && decide (v.2.1 ≤ e.replyOfs + g + frameNs e.inLen) && decide (e.replyOfs ≤ v.2.2 + g))
    let d := setSl d s k { slOf d s k with heard := true }
    if hit && !valid then bumpHi d (PL_SL_MISC s k) else bump (bumpHi d (PL_SL_EDGE s k)) (PL_CRC_CNT s)

/-- REPLY_RECEIVE: a reception in the poll phase at instant j; good: its code groups and delimiters decode. -/
def replyReceive (d : Dev) (s j : Nat) (good : Bool) (f : List W8) : Dev :=
  let x := plOf d s
  if plLive x = false then d
  else
    let valid := frValid good f
    let d := if good ∧ 6 ≤ f.length ∧ frType f = 2 then
      (match addrSlot x (frAddr f) with
       | some k => setErr d s k ((j : Int) - (plEnt x k).replyOfs)
       | none => d) else d
    match (if valid && frType f == 2 then addrSlot x (frAddr f) else none) with
    | none => badReception d s j valid
    | some k =>
      let e := plEnt x k
      if inWin x e j = false then edgeViolation d s k j (frLen f)
      else if frSeq f = rdN d (PL_CYC_NUM s) % 65536 ∧ frLen f = e.inLen then
        (let d := setSl d s k { slOf d s k with heard := true }
         if (slOf d s k).mute then d else accept d s k f)
      else badReception d s j valid

/-- PLIALE_FRAME_RECEIVE: the authority's copy of an accepted reply (R266). -/
def plForward (d : Dev) (s k : Nat) (bs : List W8) : Dev :=
  if (d.role = .standby ∨ d.role = .syncing) ∧ k < (plOf d s).slots.length then
    let y := slOf d s k
    setSl d s k { y with fwd := some bs, due := y.due || plL3 (plOf d s) }
  else d

/-! ### The acyclic window (R327, R332, R335) -/

/-- How many exchanges fit for each slot that measures, ascending, and what is left. -/
def measPlan (slots : List SlS) : Nat → List Nat → List (Nat × Nat)
  | _, [] => []
  | room, k :: t =>
    let need := 4 - (nth slots k sl0).answers
    let n := min need (room / 4600)
    (k, n) :: measPlan slots (room - 4600 * n) t

/-- The slots that measure their delay. -/
def measSlots (x : Pl) : List Nat :=
  (List.range x.slots.length).filter (fun k => let y := nth x.slots k sl0; (y.st == .init || y.st == .silent) && !y.measured)

/-- ACYCLIC_WINDOW_START: the waiting request if it fits, RESYNC commands, then MEASURE exchanges. -/
def acycStart (d : Dev) (s : Nat) : Dev :=
  let x := plOf d s
  match x.sched with
  | none => d
  | some c =>
    if plLive x = false then d
    else
      let seq := rdN d (PL_CYC_NUM s)
      let ask := x.wait && decide (areqNs d s ≤ c.acycLen)
      let pay := (bytes32 ((List.range 64).map (fun i => rd d (PL_AREQ_DATA s i)))).take (areqLen d s)
      let t1 := if ask then areqNs d s else 0
      let d := if ask then plSend (setPl d s { x with wait := false, asked := true }) s c.acycOfs
        (plFrame (fld (rd d (PL_AREQ_HDR s)) 4 0) 3 0 seq pay) else d
      let rs := (x.resync.zipIdx).filter (fun e => decide (t1 + (e.2 + 1) * frameNs 4 ≤ c.acycLen))
      let d := rs.foldl (fun d e => plSend d s (c.acycOfs + t1 + e.2 * frameNs 4) (plFrame (plEnt x e.1).addr 7 0 seq [1, 0, 0, 0])) d
      let t2 := t1 + rs.length * frameNs 4
      let d := setPl d s { plOf d s with resync := x.resync.drop rs.length }
      let plan := measPlan x.slots (c.acycLen - t2) (measSlots x)
      plan.foldl (fun d e =>
        let d := setSl d s e.1 { slOf d s e.1 with asked := e.2 }
        (List.range e.2).foldl (fun d i => plSend d s (c.acycOfs + t2 + 4600 * i) (plFrame (plEnt x e.1).addr 5 0 seq [])) d) d

/-- MEAS_RSP_RECEIVE: t_rx - t_tx of an exchange; four give the delay, and SET_DELAY is sent (R327). -/
def measRsp (d : Dev) (s k dt : Nat) : Dev :=
  let y := slOf d s k
  if y.asked = 0 ∨ plLive (plOf d s) = false then d
  else
    let y := { y with asked := y.asked - 1, answers := y.answers + 1, sum := y.sum + ((dt : Int) - 2000) }
    if y.answers < 4 then setSl d s k y
    else
      let delay := (y.sum + 4) / 8
      if 500 < delay then setSl d s k { y with range := true, answers := 0, sum := 0 }
      else
        let d := wrFld (setSl d s k { y with range := false, measured := true }) (PL_SL_TIME s k) 15 0 delay.toNat
        let at_ := match (plOf d s).sched with
          | some c => c.acycOfs
          | none => 0
        plSend d s at_ (plFrame (plEnt (plOf d s) k).addr 7 0 (rdN d (PL_CYC_NUM s)) ([2] ++ leBytes 2 delay.toNat ++ [0]))

/-- ACYC_RSP_RECEIVE: a reception ofs ns after the end of the request. -/
def acycRsp (d : Dev) (s ofs : Nat) (good : Bool) (f : List W8) : Dev :=
  let x := plOf d s
  let g := plGuard x / 2
  if x.asked = false ∨ ofs + g < 900 ∨ 2100 + g < ofs then d
  else if frValid good f && frType f == 4 && decide (frLen f ≤ areqMax d s) then
    let d := wrN d (PL_ARSP_HDR s) (frAddr f + 256 * frLen f)
    let ws := words32 (frPay f ++ [0, 0, 0])
    let d := (ws.zipIdx).foldl (fun d e => wr d (PL_ARSP_DATA s e.2) e.1) d
    acycEnd d s 2 0
  else acycEnd d s 3 2

/-- ACYC_RESPONSE_TIMEOUT. -/
def acycTimeout (d : Dev) (s : Nat) : Dev := if (plOf d s).asked then acycEnd d s 3 1 else d

/-- One evaluation of Table 12-8. -/
def slotStep (d : Dev) (s k : Nat) : Dev :=
  let lostN := fld (rd d (PL_CFG s)) 15 8
  let y := slOf d s k
  let ok := y.got
  let d := if y.heard || ok then d else bumpLo d (PL_SL_MISC s k)
  let y := { y with invalid := !ok, missRun := if ok then 0 else min 65535 (y.missRun + 1), lostRun := if ok then 0 else y.lostRun + 1, asked := 0 }
  let fresh := { y with answers := 0, sum := 0, measured := false }
  match y.st with
  | .init => setSl d s k (if y.measured then { fresh with st := .seeking, lostRun := 0, range := false } else y)
  | .silent => setSl d s k (if y.measured then { fresh with st := .seeking, lostRun := 0, edgeRun := 0, mute := false } else y)
  | .seeking | .active =>
    if y.st = .seeking ∧ ok then setSl d s k { y with st := .active, lost := false }
    else if lostN ≤ y.lostRun ∧ 0 < lostN then
      let d := setSl d s k { fresh with st := .init, lost := true }
      setPl d s { plOf d s with resync := (plOf d s).resync ++ [k] }
    else if y.st = .active ∧ y.edgeRun = 3 then
      let d := setSl d s k { fresh with st := .silent, mute := true }
      busEvent d (.pl s) (304 + 2 * s) (Config.busEventCode 2) (fld (rd d (PL_SL_EDGE s k)) 15 0)
    else setSl d s k y
  | .off => d

/-- ACYC_WINDOW_END: each slot's state machine. -/
def acycWindowEnd (d : Dev) (s : Nat) : Dev :=
  if plLive (plOf d s) then (List.range (plOf d s).slots.length).foldl (fun d k => slotStep d s k) d else d

/-! ### Views and writes -/

def plStNum : PlSt → Nat
  | .empty => 0 | .loading => 1 | .stopped => 2 | .listen => 3 | .running => 4 | .halted => 5 | .quarantined => 6
/-- PL_STAT. -/
def plStat (d : Dev) (s : Nat) : Nat :=
  let x := plOf d s
  let l3 := plL3 x
  plStNum x.st + 8 * b2n l3 + 16 * b2n (plBound d s) + 32 * b2n x.dup + 64 * x.coll
/-- PL_SLk_STAT. -/
def plSlStat (d : Dev) (s k : Nat) : Nat :=
  let y := slOf d s k
  (match y.st with | .off => 0 | .init => 1 | .seeking => 2 | .active => 3 | .silent => 4) + 8 * b2n y.lost + 16 * b2n y.invalid
    + 32 * y.edgeRun + 128 * b2n y.range + 256 * y.witness + 65536 * y.missRun
/-- A mask over the slots. -/
def plMask (d : Dev) (s : Nat) (f : SlS → Bool) : Nat :=
  ((plOf d s).slots.zipIdx.map (fun e => if f e.1 then 2 ^ e.2 else 0)).foldl (· + ·) 0

/-- PL_CYCLE (R324). -/
def plCycleWrite (d : Dev) (s : Nat) (v : W32) : Dev :=
  let x := plOf d s
  let n := fld v 9 0
  let bad := match x.sched with
    | some c => decide (n * 10000 < c.acycOfs + c.acycLen + c.guardNs) || (!c.l3 && decide (n * 10000 ≤ c.apply))
    | none => false
  let r := cfgPut d (.pl s) (PL_CYCLE s) [⟨9, 0, 5, 1000⟩] v [causeIf (plBound d s) 0x0C03] [causeIf bad 5]
  if r.2 && !plLive x then setPl r.1 s { x with cyc := n } else r.1

/-- A write to a segment page. -/
def plWrite (d : Dev) (s off : Nat) (v : W32) : Dev :=
  let a := plBase s + off
  let x := plOf d s
  match off with
  | 0x100 => (cfgPut d (.pl s) a [anyF 4 0, anyF 5 5, anyF 6 6, ⟨15, 8, 1, 255⟩] v [causeIf (x.st != .empty && x.st != .stopped) 6] []).1
  | 0x104 => plCommand (wr d a (onlyFlds [anyF 3 0] v)) s v
  | 0x108 => plLocal (wr d a (onlyFlds [anyF 3 0, anyF 12 8] v)) s v
  | 0x110 => plCycleWrite d s v
  | 0x114 | 0x118 => wr d a v
  | 0x1400 => wr d a (onlyFlds [anyF 4 0, anyF 16 8] v)
  | _ => if 0x1500 ≤ off ∧ off < 0x1600 then wr d a v else d

/-- PL_BIND (R226): every segment a processor's cyclic tasks bind runs native, with the task's period and equal offsets,
bound to no other task. -/
def plBindOk (d : Dev) (p : Nat) : Bool :=
  let ts := (lpOf d p).prog.tasks.filter (fun t => !t.event && t.pliale != 0)
  let segs (m : Nat) := (List.range 16).filter (fun s => bit (w32 m) s)
  let offs (s : Nat) : Nat × Nat := match (plOf d s).sched with
    | some c => (c.latch, c.apply)
    | none => (0, 0)
  let native (s : Nat) : Bool := match (plOf d s).sched with
    | some c => !c.l3
    | none => false
  ts.all (fun t => (segs t.pliale).all (fun s =>
    native s && decide ((plOf d s).cyc = t.span) && !plBound d s && (ts.filter (fun u => bit (w32 u.pliale) s)).length == 1
      && (segs t.pliale).all (fun r => offs r == offs s)))

end Sys2Proof.Machine
end

