-- ==== Sys2Proof/Machine/Can.lean ====
section
/-! DEFINITION. The message bus channels (chapter 13). -/

namespace Sys2Proof.Machine

/-- A channel after a reset. -/
def cx0 : Cx := ⟨.stopped, 0, 0, 0, none, false, []⟩
def cxOf (d : Dev) (x : Nat) : Cx := tget cx0 d.cxs x
def setCx (d : Dev) (x : Nat) (c : Cx) : Dev := { d with cxs := tset cx0 d.cxs x c }

/-- CX_CFG fields. -/
def cxProto (d : Dev) (x : Nat) : Nat := fld (rd d (CX_CFG x)) 1 0
def cxListen (d : Dev) (x : Nat) : Bool := rdBit d (CX_CFG x) 2
def cxErrSig (d : Dev) (x : Nat) : Bool := rdBit d (CX_CFG x) 4
def cxCatchAll (d : Dev) (x : Nat) : Bool := rdBit d (CX_CFG x) 5
def cxSelfRx (d : Dev) (x : Nat) : Bool := rdBit d (CX_CFG x) 6

/-- LEN and entry address of a transmit queue; stride of R346. -/
def tqLen (d : Dev) (x q : Nat) : Nat := fld (rd d (CX_TQ_CFG x q)) 8 0
def strideOf (cfg : W32) : Nat := if bit cfg 16 then 2080 else 96
def tqStride (d : Dev) (x q : Nat) : Nat := strideOf (rd d (CX_TQ_CFG x q))
def tqHead (d : Dev) (x q : Nat) : Nat := rdN d (CX_TQ_BASE x q) + rdN d (CX_TQ_DONE x q) % tqLen d x q * tqStride d x q

/-- Requests outstanding between DONE and POST. -/
def tqOut (d : Dev) (x q : Nat) : Nat :=
  let n := (rd d (CX_TQ_POST x q) - rd d (CX_TQ_DONE x q)).toNat
  if n ≤ tqLen d x q then n else 0

/-- The duration of a bit in ns, from BRP, SEG1 and SEG2. -/
def bitNs (brp s1 s2 : Nat) : Nat := (if brp = 0 then 32 else brp) * (1 + s1 + s2) * 5
def nomNs (d : Dev) (x : Nat) : Nat := let w := rd d (CX_NBT x); bitNs (fld w 4 0) (fld w 15 8) (fld w 22 16)
def datNs (d : Dev) (x : Nat) : Nat := let w := rd d (CX_DBT x); bitNs (fld w 4 0) (fld w 12 8) (fld w 19 16)

/-! ### Completion (R346, R347) -/

/-- The head request of a queue completes: STATUS and STAMP, then DONE. -/
def cxFinish (d : Dev) (x q code stamp : Nat) : Dev :=
  let a := tqHead d x q
  let d := sramPut (sramPut d (a + 10) (leBytes 1 code ++ leBytes 1 (min 255 (cxOf d x).tec))) (a + 24) (leBytes 8 stamp)
  bump (wrN d (CX_TQ_LAST x q) code) (CX_TQ_DONE x q)

/-- The head requests of a queue complete with a code. -/
def cxFinishN (x q code : Nat) : Nat → Dev → Dev
  | 0, d => d
  | n + 1, d => cxFinishN x q code n (cxFinish d x q code 0)

/-- The code that a head request completes with while the channel cannot send; none while it can, or while a frame of its
own still runs. -/
def cxDead (d : Dev) (x : Nat) : Option Nat :=
  let c := cxOf d x
  if c.busy.isSome then none
  else match c.st with
    | .stopped | .integrating => some 0x0D
    | .busOff | .recovering => some 8
    | .monitor => if cxListen d x then some 0x0D else some 9
    | .active | .passive => none

/-- Every head request completes while the channel cannot send. -/
def cxDrain (d : Dev) (x : Nat) : Dev :=
  match cxDead d x with
  | some code => (List.range 4).foldl (fun d q => cxFinishN x q code (tqOut d x q) d) d
  | none => d

/-! ### States (R344, Table 13-5) -/

/-- Write the error counters and let the state follow them, ERROR_ACTIVE, ERROR_PASSIVE and BUS_OFF in turn. -/
def cxCount (d : Dev) (x tec rec_ : Nat) : Dev :=
  let c := cxOf d x
  let st1 := if c.st = .active ∧ (127 < tec ∨ 127 < rec_) then CxSt.passive else c.st
  if st1 = .passive ∧ 255 < tec then
    let d := bump (setCx d x { c with st := .busOff, tec := 256, rec_ := rec_ }) (CX_BUSOFF_CNT x)
    busEvent d (.cx x) (pageOrigin (.cx x) + 3) (Config.busEventCode 3) (rdN d (CX_BUSOFF_CNT x))
  else setCx d x { c with st := if st1 = .passive ∧ tec ≤ 127 ∧ rec_ ≤ 127 then .active else st1, tec := tec, rec_ := rec_ }

/-- The state after the end of a frame in progress: STOP asked for, or the module a standby. -/
def cxFrameEnd (d : Dev) (x : Nat) : Dev :=
  let c := cxOf d x
  let d := if c.stopping then setCx d x { c with st := .stopped, stopping := false }
    else if (c.st = .active ∨ c.st = .passive) ∧ authoritative d = false then setCx d x { c with st := .monitor } else d
  cxDrain d x

/-- The module's role has changed (R353). -/
def cxRole (d : Dev) (x : Nat) : Dev :=
  let c := cxOf d x
  if (c.st = .active ∨ c.st = .passive) ∧ authoritative d = false ∧ c.busy = none then cxDrain (setCx d x { c with st := .monitor }) x
  else if c.st = .monitor ∧ authoritative d = true ∧ cxListen d x = false then cxDrain (setCx d x { c with st := .integrating }) x
  else d
def cxRoles (d : Dev) : Dev := (List.range 8).foldl cxRole d

/-- CX_INTEGRATED: eleven recessive bits. -/
def cxIntegrated (d : Dev) (x : Nat) : Dev :=
  let c := cxOf d x
  if c.st ≠ .integrating then d
  else if cxListen d x ∨ authoritative d = false then cxDrain (setCx d x { c with st := .monitor }) x
  else cxDrain (cxCount (setCx d x { c with st := .active }) x c.tec c.rec_) x

/-- CX_RECOVERED: 128 sequences of 11 recessive bits. -/
def cxRecovered (d : Dev) (x : Nat) : Dev :=
  let c := cxOf d x
  if c.st = .recovering then cxDrain (setCx d x { c with st := .integrating, tec := 0, rec_ := 0, rcv := 128 }) x else d

/-! ### Commands (Table 13-4) -/

/-- A ring in use that is misaligned or extends beyond the window. -/
def ringBad (base n stride : Nat) : Bool := base % 64 != 0 || decide (sramSize < base + n * stride)

/-- The check of START that fails first. -/
def cxStartCause (d : Dev) (x : Nat) : Option Nat :=
  let p := cxProto d x
  let dat := datNs d x
  if p = 0 then some 7
  else if nomNs d x < 1000 ∨ 100000 < nomNs d x ∨ (p = 2 ∧ dat < 125) ∨ (p = 3 ∧ dat < (if cxErrSig d x then 200 else 100)) then some 5
  else if (List.range 4).any (fun q =>
      (decide (0 < tqLen d x q) && ringBad (rdN d (CX_TQ_BASE x q)) (tqLen d x q) (tqStride d x q))
      || (rdBit d (CX_RQ_CFG x q) 0 && ringBad (rdN d (CX_RQ_BASE x q)) 64 (strideOf (rd d (CX_RQ_CFG x q))))) then some 0x0D03
  else none

def cxRefuse (d : Dev) (x code : Nat) : Dev := err d (.cx x) code (CX_CMD x)
def cxNop (d : Dev) : Dev := d
def cxStart (d : Dev) (x : Nat) : Dev :=
  if (cxOf d x).st ≠ .stopped then cxRefuse d x 0x0D01
  else match cxStartCause d x with
    | some c => cxRefuse d x c
    | none => cxDrain (setCx d x { cxOf d x with st := .integrating, tec := 0, rec_ := 0 }) x
def cxStop (d : Dev) (x : Nat) : Dev :=
  let c := cxOf d x
  if c.st = .stopped then cxRefuse d x 0x0D01
  else if c.busy.isSome then setCx d x { c with stopping := true }
  else cxDrain (setCx d x { c with st := .stopped }) x
def cxRecover (d : Dev) (x : Nat) : Dev :=
  if (cxOf d x).st = .busOff then setCx d x { cxOf d x with st := .recovering, rcv := 0 } else cxRefuse d x 0x0D01

/-- FLUSH: every outstanding request but one that is on the bus, behind which the others complete. -/
def cxFlush (d : Dev) (x q : Nat) : Dev :=
  let c := cxOf d x
  match c.busy with
  | some (b, _) => if b = q then setCx d x { c with flush := tset 0 c.flush q (tqOut d x q - 1) } else cxFinishN x q 0x0A (tqOut d x q) d
  | none => cxFinishN x q 0x0A (tqOut d x q) d

/-- A write of CX_CMD. -/
def cxCommand (d : Dev) (x : Nat) (v : W32) : Dev :=
  match fld v 3 0 with
  | 0 => cxNop d
  | 1 => cxStart d x
  | 2 => cxStop d x
  | 3 => cxRecover d x
  | 4 => cxFlush d x (fld v 9 8)
  | _ => cxRefuse d x 0x0D02

/-! ### Transmission -/

/-- CX_TX_POST: refused more than LEN ahead of DONE. -/
def cxPost (d : Dev) (x q : Nat) (v : W32) : Dev :=
  if tqLen d x q < (v - rd d (CX_TQ_DONE x q)).toNat then err d (.cx x) 5 (CX_TQ_POST x q) else cxDrain (wr d (CX_TQ_POST x q) v) x

/-- Data lengths of a format (Table 13-6). -/
def canLenOk (fmt n : Nat) : Bool :=
  if fmt = 1 then decide (n ≤ 8)
  else if fmt = 2 then decide (n ≤ 8) || [12, 16, 20, 24, 32, 48, 64].contains n
  else fmt == 3 && decide (1 ≤ n) && decide (n ≤ 2048)

/-- The frame of a transmit entry. -/
def txFrame (d : Dev) (a stamp : Nat) : CanFrame :=
  let w := sramNum d a 4
  let flags := sramNum d (a + 7) 1
  { id := w % 2 ^ 29, ide := w.testBit 29, rtr := w.testBit 30, fmt := sramNum d (a + 6) 1, brs := flags.testBit 0, esi := false,
    sec := flags.testBit 2, sdt := sramNum d (a + 8) 1, vcid := sramNum d (a + 9) 1, af := sramNum d (a + 12) 4,
    data := mbytes d.sram (a + 32) (sramNum d (a + 4) 2), stamp := stamp }

/-- BAD_DESC of R346, or an entry that the SRAM does not serve (R420). -/
def txBad (d : Dev) (x q : Nat) : Bool :=
  let a := tqHead d x q
  let n := sramNum d (a + 4) 2
  let fmt := sramNum d (a + 6) 1
  !sramOk d a (tqStride d x q) || !canLenOk fmt n || decide (cxProto d x < fmt) || decide (tqStride d x q < 32 + n)

/-- LATEST of the head request has passed. -/
def txExpired (d : Dev) (x q : Nat) : Bool :=
  let t := sramNum d (tqHead d x q + 16) 8
  t != 0 && decide (t < tbNs d)

/-- The handover BP: no channel starts a frame (R353). -/
def inHandover (d : Dev) : Bool := d.tw.handover == some (bp d)

/-- Take the head request of the lowest-numbered queue that has one; a bad or late one completes and the next is taken. -/
def cxTake (x : Nat) : Nat → Dev → Dev
  | 0, d => d
  | f + 1, d => match (List.range 4).find? (fun q => decide (0 < tqOut d x q)) with
    | none => d
    | some q =>
      if txBad d x q then cxTake x f (cxFinish d x q 0x0B 0)
      else if txExpired d x q then cxTake x f (cxFinish d x q 0x0C 0)
      else setCx d x { cxOf d x with busy := some (q, tbNs d) }

/-- CX_TX_START: the bus is idle and the channel may transmit. -/
def cxTxStart (d : Dev) (x : Nat) : Dev :=
  let c := cxOf d x
  if (c.st = .active ∨ c.st = .passive) ∧ c.busy = none ∧ authoritative d = true ∧ inHandover d = false then cxTake x 1025 d else d

/-! ### Reception (R350, R351) -/

/-- A filter matches a frame. -/
def fltMatch (d : Dev) (x f : Nat) (fr : CanFrame) : Bool :=
  let ctl := rd d (CX_FLT_CTL x f)
  let fmt := fld ctl 5 4
  bit ctl 0 && ((fr.id ^^^ rdN d (CX_FLT_ID x f)) &&& rdN d (CX_FLT_MASK x f)) == 0 && (!bit ctl 3 || fr.ide)
    && (fmt == 0 || fmt == fr.fmt)

/-- The bytes of a receive entry. -/
def rxBytes (fr : CanFrame) (flt : Nat) (own : Bool) : List W8 :=
  leBytes 4 (fr.id % 2 ^ 29 + b2n fr.ide * 2 ^ 29 + b2n fr.rtr * 2 ^ 30) ++ leBytes 2 fr.data.length ++ leBytes 1 fr.fmt
    ++ leBytes 1 (b2n fr.brs + 2 * b2n fr.esi + 4 * b2n fr.sec + 128) ++ leBytes 1 fr.sdt ++ leBytes 1 fr.vcid
    ++ leBytes 1 flt ++ leBytes 1 (b2n own) ++ leBytes 4 fr.af ++ leBytes 8 0 ++ leBytes 8 fr.stamp ++ fr.data

/-- Store a frame in a receive queue, or count why not. -/
def rxQueue (d : Dev) (x r flt : Nat) (fr : CanFrame) (own : Bool) : Dev :=
  let cfg := rd d (CX_RQ_CFG x r)
  if bit cfg 0 = false ∨ strideOf cfg < 32 + fr.data.length then bump d (CX_NOMATCH_CNT x)
  else if rd d (CX_RQ_CNT x r) - rd d (CX_RQ_ACK x r) = 64 then bump d (CX_RQ_OVF_CNT x r)
  else bump (sramPut d (rdN d (CX_RQ_BASE x r) + rdN d (CX_RQ_CNT x r) % 64 * strideOf cfg) (rxBytes fr flt own)) (CX_RQ_CNT x r)

/-- Filter and store a correct frame. -/
def rxStore (d : Dev) (x : Nat) (fr : CanFrame) (own : Bool) : Dev :=
  match (List.range 64).find? (fun f => fltMatch d x f fr) with
  | some f => rxQueue d x (fld (rd d (CX_FLT_CTL x f)) 2 1) f fr own
  | none => if cxCatchAll d x then rxQueue d x 3 255 fr own else bump d (CX_NOMATCH_CNT x)

/-- REC after a frame received without error: ISO 11898-1 leaves the value after 128 open between 119 and 127 (free). -/
def recOk_ (d : Dev) (r : Nat) : Nat × Dev :=
  if 127 < r then ((freeNum d).1 % 9 + 119, (freeNum d).2) else (r - 1, d)

/-- CX_RX_FRAME: a correct frame, in any state but STOPPED, of a format the channel accepts. -/
def cxRxFrame (d : Dev) (x : Nat) (fr : CanFrame) : Dev :=
  let c := cxOf d x
  if c.st = .stopped ∨ cxProto d x < fr.fmt then d
  else
    let d := rxStore d x fr false
    if c.st = .active ∨ c.st = .passive then
      let r := recOk_ d c.rec_
      cxCount r.2 x c.tec r.1
    else d

/-- CX_BUS_ERROR: a frame received with an error; REC rises by 1, or by 8 where ISO 11898-1 says so. -/
def cxBusError (d : Dev) (x : Nat) (eight : Bool) : Dev :=
  let c := cxOf d x
  if c.st = .stopped then d
  else
    let d := bump d (CX_ERRFR_CNT x)
    if c.st = .active ∨ c.st = .passive then cxCount d x c.tec (min 128 (c.rec_ + if eight then 8 else 1)) else d

/-- TEC after a transmission: 8 more for an error, but for an acknowledge error in ERROR_PASSIVE; 1 less for a success. -/
def tecAfter (c : Cx) (code : Nat) : Nat :=
  if code = 0 then c.tec - 1 else if code = 1 ∨ (code = 6 ∧ c.st = .passive) then c.tec else c.tec + 8

/-- CX_TX_COMPLETE: the frame on the bus ends with a code of 0 to 7. -/
def cxTxComplete (d : Dev) (x code : Nat) : Dev :=
  let c := cxOf d x
  match c.busy with
  | none => d
  | some (q, at_) =>
    if 7 < code then d
    else
      let fr := txFrame d (tqHead d x q) at_
      let d := if 2 ≤ code then bump d (CX_ERRFR_CNT x) else d
      let d := if code = 2 then bump d (CX_IDCLASH_CNT x) else d
      let n := tget 0 c.flush q
      let d := cxCount (setCx d x { c with busy := none, flush := tset 0 c.flush q 0 }) x (tecAfter c code) c.rec_
      let d := cxFinishN x q 0x0A n (cxFinish d x q code at_)
      let d := if code = 0 ∧ cxSelfRx d x then rxStore d x fr true else d
      cxFrameEnd d x

/-- Clear OWN in the released entries. -/
def rqRelease (d : Dev) (x r : Nat) : Nat → W32 → Dev
  | 0, _ => d
  | n + 1, k =>
    let a := rdN d (CX_RQ_BASE x r) + k.toNat % 64 * strideOf (rd d (CX_RQ_CFG x r)) + 7
    rqRelease (sramPut d a (leBytes 1 (sramNum d a 1 % 128))) x r n (k + 1)

/-- CX_RQ_ACK: refused outside the range from the present ACK to CNT. -/
def cxRqAck (d : Dev) (x r : Nat) (v : W32) : Dev :=
  let ack := rd d (CX_RQ_ACK x r)
  if (rd d (CX_RQ_CNT x r) - ack).toNat < (v - ack).toNat then err d (.cx x) 5 (CX_RQ_ACK x r)
  else wr (rqRelease d x r (v - ack).toNat ack) (CX_RQ_ACK x r) v

/-! ### Configuration writes (R342) -/

/-- A write that a channel accepts in STOPPED alone. -/
def cxPut (d : Dev) (x a : Nat) (ok : Bool) (v mask : W32) : Dev :=
  if (cxOf d x).st ≠ .stopped then err d (.cx x) 6 a else if ok then wr d a (v &&& mask) else err d (.cx x) 5 a

/-- A write of a channel register that has no row of its own. -/
def cxWrite (d : Dev) (x off : Nat) (v : W32) : Dev :=
  let a := cxBase x + off
  if off = 0x100 then cxPut d x a true v 0x7F
  else if off = 0x104 then
    cxPut d x a (decide (2 ≤ fld v 15 8) && decide (1 ≤ fld v 22 16) && decide (1 ≤ fld v 30 24) && decide (fld v 30 24 ≤ fld v 22 16)) v 0x7F7FFF1F
  else if off = 0x108 then
    cxPut d x a (decide (1 ≤ fld v 12 8) && decide (1 ≤ fld v 19 16) && decide (1 ≤ fld v 23 20) && decide (fld v 23 20 ≤ fld v 19 16)) v 0xFFFF1F1F
  else if off = 0x10C then cxCommand d x v
  else if 0x140 ≤ off ∧ off < 0x1C0 then
    let q := (off - 0x140) / 32
    match (off - 0x140) % 32 with
    | 0 => cxPut d x a true v 0xFFFFFFFF
    | 4 => cxPut d x a (decide (fld v 8 0 ≤ 256)) v 0x101FF
    | 8 => cxPost d x q v
    | 16 => wr d a v
    | _ => d
  else if 0x1C0 ≤ off ∧ off < 0x240 then
    let r := (off - 0x1C0) / 32
    match (off - 0x1C0) % 32 with
    | 0 => cxPut d x a true v 0xFFFFFFFF
    | 4 => cxPut d x a true v 0x10001
    | 12 => cxRqAck d x r v
    | 20 => wr d a v
    | _ => d
  else if 0x400 ≤ off ∧ off < 0x800 then
    match off % 16 with
    | 0 => cxPut d x a true v 0x1FFFFFFF
    | 4 => cxPut d x a true v 0x1FFFFFFF
    | 8 => cxPut d x a true v 0x3F
    | _ => d
  else d

/-! ### Views -/

def cxStNum : CxSt → Nat
  | .stopped => 0 | .integrating => 1 | .active => 2 | .passive => 3 | .busOff => 4 | .recovering => 5 | .monitor => 6

/-- CX_STAT and CX_ERRC. -/
def cxStat (d : Dev) (x : Nat) : Nat := cxStNum (cxOf d x).st
def cxErrc (d : Dev) (x : Nat) : Nat := (cxOf d x).tec + (cxOf d x).rec_ * 2 ^ 16

end Sys2Proof.Machine
end

