-- ==== Sys2Proof/Machine/Time.lean ====
section
/-! DEFINITION. The time base, PTP and the root clock's trim (R30, R354 to R367). -/

namespace Sys2Proof.Machine

def dom0 : Dom := ⟨0, false, false, 0, 0⟩
def tb0 : Tb := ⟨0, 0, none, none, false, none, false, []⟩
def setTb (d : Dev) (x : Tb) : Dev := { d with tb := x }
def domOf (d : Dev) (k : Nat) : Dom := tget dom0 d.tb.doms k
def setDom (d : Dev) (k : Nat) (x : Dom) : Dev := setTb d { d.tb with doms := tset dom0 d.tb.doms k x }

/-- TB_CFG and TB_STAT fields. -/
def ptpEn (d : Dev) : Bool := rdBit d TB_CFG 0
def tbSelAct (d : Dev) : Nat := fld (rd d TB_STAT) 1 1
def slewMax (d : Dev) : Nat := fld (rd d TB_CFG) 22 16
/-- The module follows the authority's time base (R366). -/
def pairFollow (d : Dev) : Bool := d.role == .standby || d.role == .syncing

/-- 1 ns in units of 2^-24 ns. -/
def oneNs : Int := 16777216
/-- The nominal increment, 5.0 ns. -/
def incNominal : Int := 0x05000000
/-- The phase part at SLEW_MAX: 8388 LSB at 100 ppm (R356). -/
def phaseMax (d : Dev) : Int := incNominal * slewMax d / 1000000

/-- The module writes TB_INC from its parts, within the limits of R355. -/
def tbInc (d : Dev) : Dev := wrN d TB_INC (clampI 0x04FFAE15 0x050051EB (incNominal + d.tb.fpart + d.tb.phase)).toNat

/-- Set the phase part. -/
def setPhase (d : Dev) (p : Int) : Dev := tbInc (setTb d { d.tb with phase := clampI (-phaseMax d) (phaseMax d) p })

/-- TB_NS with its fraction, in units of 2^-24 ns. -/
def tbUnits (d : Dev) : Nat := tbNs d * 2 ^ 24 + fld (rd d TB_FRAC) 23 0
def setUnits (d : Dev) (u : Nat) : Dev := wrN (wr64 d TB_NS (u / 2 ^ 24 % 2 ^ 64)) TB_FRAC (u % 2 ^ 24)

/-- The slew in progress: of a domain switch, else of the pair correction. -/
def slewLeft (d : Dev) : Option Int := d.tb.slew.orElse (fun _ => d.tb.pairSlew)

/-- The slew ends: its phase part goes (R363). -/
def slewEnd (d : Dev) : Dev := setPhase (setTb d { d.tb with slew := none, pairSlew := none }) 0

/-- A slew of r units starts; less than 1 ns needs none. -/
def slewStart (d : Dev) (r mag : Int) (pair : Bool) : Dev :=
  if -oneNs < r ∧ r < oneNs then slewEnd d
  else setPhase (setTb d (if pair then { d.tb with slew := none, pairSlew := some r } else { d.tb with slew := some r, pairSlew := none }))
    (if r < 0 then -mag else mag)

/-- Ticks after which less than 1 ns remains of r at p a tick. -/
def slewTicks (r p : Int) : Nat := if r.natAbs < oneNs.natAbs then 0 else (r.natAbs - oneNs.natAbs) / p.natAbs + 1

/-- n ticks of CLK_TB (R354), with the end of a slew at the tick at which less than 1 ns remains (R363). -/
def tbTicks (d : Dev) (n : Nat) : Dev :=
  match slewLeft d with
  | none => setUnits d (tbUnits d + n * rdN d TB_INC)
  | some r =>
    if d.tb.phase = 0 then setUnits d (tbUnits d + n * rdN d TB_INC)
    else if slewTicks r d.tb.phase ≤ n then
      let k := slewTicks r d.tb.phase
      let d := slewEnd (setUnits d (tbUnits d + k * rdN d TB_INC))
      setUnits d (tbUnits d + (n - k) * rdN d TB_INC)
    else
      let left := r - n * d.tb.phase
      let d := setUnits d (tbUnits d + n * rdN d TB_INC)
      setTb d (if d.tb.slew.isSome then { d.tb with slew := some left } else { d.tb with pairSlew := some left })

/-- SLEW_DONE. -/
def slewDone (d : Dev) : Dev :=
  match d.tb.slew with
  | some r => if -oneNs < r ∧ r < oneNs then slewEnd d else d
  | none => d

/-! ### Steps (R364) -/

/-- The gates of every port hold their states until the next cycle start. -/
def holdGates (d : Dev) : Dev := { d with eths := d.eths.map (fun p => (p.1, { p.2 with hold := true })) }

/-- A step of TB_NS: TRACE, TB_STEP_CNT, and a TIME_STEP record beyond 1 ms. Cause: 1 SET, 2 acquisition, 3 resume, 4 pair. -/
def tbStep (d : Dev) (new cause : Nat) : Dev :=
  let old := tbNs d
  let d := holdGates (bump (wrBit (wr64 d TB_NS (new % 2 ^ 64)) TB_STAT 2 true) TB_STEP_CNT)
  if 1000000 < (new : Int) - old ∨ 1000000 < (old : Int) - new then
    report d 0x0010 385 (pay64 old ++ pay64 (new % 2 ^ 64) ++ [w32 cause]) else d

/-- TB_CMD SET at its t0: TB_NS steps to TB_SET, and the servo slews what remains of a switch (R363, R364). -/
def tbLoad (d : Dev) : Dev :=
  let m := tbStep d (rd64 d TB_SET) 1
  let e := slewEnd (setTb m { m.tb with set := false })
  match d.tb.slew with
  | some r => slewStart e (r - ((rd64 d TB_SET : Int) - tbNs d) * oneNs) (phaseMax e) false
  | none => e

/-- The standby's step at its t0 (R366), of u units. -/
def tbPairStep (d : Dev) (u : Int) : Dev :=
  let d := slewEnd (setTb d { d.tb with pairStep := none })
  wrN (tbStep d (u64 (((tbUnits d : Int) + u) / oneNs)) 4) TB_FRAC (u64 ((tbUnits d : Int) + u) % 2 ^ 24)

/-- What waits for t0: TB_CMD SET, then the standby's step (R364, R366). -/
def tbAtT0 (d : Dev) : Dev :=
  let d := if d.tb.set then tbLoad d else d
  match d.tb.pairStep with
  | some u => tbPairStep d u
  | none => d

/-- TB_CMD: NOP, SET; 2 and 3 are refused. -/
def tbNop (d : Dev) : Dev := d
def tbSet (d : Dev) : Dev := setTb d { d.tb with set := true }
def tbCommand (d : Dev) (v : W32) : Dev :=
  match fld v 1 0 with
  | 0 => tbNop d
  | 1 => tbSet d
  | _ => err d .tb 5 TB_CMD

/-- TB_INC_WRITE (R355). -/
def tbIncWrite (d : Dev) (v : W32) : Dev :=
  if ptpEn d ∨ pairFollow d = true then err d .tb 6 TB_INC
  else if v.toNat < 0x04FFAE15 ∨ 0x050051EB < v.toNat then err d .tb 5 TB_INC
  else wr (setTb d { d.tb with fpart := (v.toNat : Int) - incNominal, phase := 0 }) TB_INC v

/-! ### Domains (R361 to R363) -/

/-- TB_DOMk_CFG and STAT fields. -/
def domEn (d : Dev) (k : Nat) : Bool := rdBit d (TB_DOM_CFG k) 12
def domPort (d : Dev) (k : Nat) : Nat := fld (rd d (TB_DOM_CFG k)) 9 8
def domLocked (d : Dev) (k : Nat) : Bool := rdBit d (TB_DOM_STAT k) 4
def domHold (d : Dev) (k : Nat) : Bool := rdBit d (TB_DOM_STAT k) 5
def domOfs (d : Dev) (k : Nat) : Int := s64 (rd64 d (TB_DOM_OFS k))

/-- A TIME_DOMAIN record. -/
def domRecord (d : Dev) (old new cause : Nat) : Dev :=
  report d 0x0011 (if cause = 1 then 384 else 385) ([w32 old, w32 new] ++ pay64 (rd64 d (TB_DOM_OFS new)) ++ [w32 cause])

/-- Domain k is the one selected: SEL_ACT, and TB_UTC_OFS as its announce gave it (R365). -/
def tbSelect (d : Dev) (k : Nat) : Dev := wr (wrFld d TB_STAT 1 1 k) TB_UTC_OFS (domOf d k).utc

/-- The steering domain changes: counted, recorded, and slewed, never stepped; towards a domain in HOLDOVER there is no phase part (R362). -/
def tbSwitch (d : Dev) (k : Nat) : Dev :=
  let old := tbSelAct d
  let d := domRecord (bump (tbSelect d k) TB_SWITCH_CNT) old k 2
  if pairFollow d then d else if domHold d k then slewEnd d else slewStart d (domOfs d k * oneNs) (phaseMax d) false

/-- DOMAIN_AUTO_SWITCH (R362). -/
def domAutoSwitch (d : Dev) : Dev :=
  let k := tbSelAct d
  if ptpEn d = true ∧ rdBit d TB_CFG 2 = true ∧ domHold d k = true ∧ (domOf d k).holdAt + 1000 ≤ optMs d
      ∧ domEn d (1 - k) = true ∧ domLocked d (1 - k) = true
  then tbSwitch d (1 - k) else d

/-- A domain enters HOLDOVER: no longer LOCKED; the selected one's frequency stays and its phase part is 0. -/
def domHoldover (d : Dev) (k : Nat) (x : Dom) : Dev :=
  if ptpEn d = false ∨ domEn d k = false then d
  else if domHold d k then setDom d k x
  else
    let d := setDom d k { x with run := 0, holdAt := optMs d }
    let d := wrBit (wrBit d (TB_DOM_STAT k) 4 false) (TB_DOM_STAT k) 5 true
    if k = tbSelAct d then domRecord (if pairFollow d then d else slewEnd d) k k 1 else d
def announceTimeout (d : Dev) (k : Nat) : Dev := domHoldover d k { domOf d k with hoAnn := true }
def syncTimeout (d : Dev) (k : Nat) : Dev := domHoldover d k { domOf d k with hoSync := true }

/-- CLK_TRIM is clamped to ±25 ppm; TRIM_LIM shows that (R30). -/
def clkTrim (d : Dev) (v : Int) : Dev :=
  let c := clampI (-2500000) 2500000 v
  wrBit (wr d CLK_TRIM (w32i c)) CLK_STAT 4 (decide (c ≠ v))

/-- CLK_TRIM_WRITE. -/
def clkTrimWrite (d : Dev) (v : W32) : Dev := clkTrim d (sgn 32 v.toNat)

/-- The trim that the root is steered to: none with DISC_EN = 0; a standby's root follows the authority's, whatever its DISC_EN says. -/
def trimTarget (d : Dev) : Int := if pairFollow d && twPaired d then sgn 32 d.tw.trim.toNat else if rdBit d CLK_CTRL 0 then sgn 32 (rdN d CLK_TRIM) else 0
def trimAct (d : Dev) : Int := sgn 32 (rdN d CLK_TRIM_ACT)

/-- CLK_STAT: oscillator, lock and clamp as held; the rest is computed (R30, R32). -/
def clkStat (d : Dev) : Nat :=
  fld (rd d CLK_STAT) 0 0 + 2 * b2n d.power.lockLost.isNone + 4 * b2n (rdBit d CLK_CTRL 0) + 8 * b2n (trimAct d != trimTarget d) + 16 * b2n (rdBit d CLK_STAT 4)
    + 32 * b2n (pairFollow d) + 64 * b2n (rd d CLK_LOSS_CNT != rd d CLK_LOSS_ACK)

/-- The ramp of one BP: 1 ppm/s is 1 unit of 0.01 ppb a BP. -/
def trimRamp (d : Dev) : Dev :=
  let t := trimTarget d
  let a := trimAct d
  if a = t then d else wr d CLK_TRIM_ACT (w32i (if a < t then a + 1 else a - 1))

/-- TRIM_SLEW_DONE: the ramp arrives, within its last unit of the target; from further off it has not ended (R30, log entry 6). -/
def trimSlewDone (d : Dev) : Dev := if (trimAct d - trimTarget d).natAbs ≤ 1 then trimRamp d else d

/-- LOCKED after 16 intervals in a row within 100 ns, until an offset beyond 1 µs (R361). -/
def syncLock (locked : Bool) (run : Nat) (ofs : Int) : Bool :=
  if ofs.natAbs ≤ 100 ∧ 16 ≤ run then true else if 1000 < ofs.natAbs then false else locked

/-- The offset that decides whether a domain is LOCKED: that of its own servo (R361). While a domain steers without a slew it is the
offset from TB_NS; else TB_NS stands off by what other causes have left, and Table 14-3 shows a domain LOCKED at 3400 ns (log entry 61). -/
def lockError (d : Dev) (k : Nat) (m : PtpMsg) : Int :=
  if k = tbSelAct d ∧ d.tb.slew = none ∧ pairFollow d = false then m.offset else m.own

/-- The servo of the steering domain after a Sync: acquisition step, or the slew's new target, or firmware's parts. -/
def servo (d : Dev) (k : Nat) (m : PtpMsg) (fresh : Bool) : Dev :=
  let big := decide (1000000 < m.offset.natAbs)
  if fresh ∧ rdBit d TB_CFG 4 = true ∧ (rdBit d TB_STAT 2 = false ∨ (d.tb.vinResume = true ∧ big = true)) then
    let d := tbStep (setTb d { d.tb with vinResume := false }) (u64 ((tbNs d : Int) + m.offset)) 2
    wr64 (slewEnd d) (TB_DOM_OFS k) 0
  else
    let d := if fresh then setTb d { d.tb with vinResume := false } else d
    let d := if rdBit d TB_CFG 3 then tbInc (setTb d { d.tb with fpart := m.fpart }) else clkTrim (setTb d { d.tb with fpart := 0 }) m.freq
    if d.tb.slew.isSome then slewStart d (m.offset * oneNs) (phaseMax d) false else setPhase d m.phase

/-- PTP_MESSAGE_RECEIVE: firmware's results for a domain. -/
def ptpMessage (d : Dev) (k : Nat) (m : PtpMsg) : Dev :=
  if ptpEn d = false ∨ domEn d k = false ∨ 1 < k then d
  else if m.sync then
    let x := domOf d k
    let e := lockError d k m
    let run := if e.natAbs ≤ 100 then x.run + 1 else 0
    let was := domLocked d k
    let now := syncLock was run e
    let d := setDom d k { x with run := run, hoSync := false }
    let d := wrN (wrN (wr64 d (TB_DOM_OFS k) (u64 m.offset)) (TB_DOM_DELAY k) m.delay) (TB_DOM_FREQ k) (w32i m.freq).toNat
    let d := wrBit (wrBit d (TB_DOM_STAT k) 4 now) (TB_DOM_STAT k) 5 x.hoAnn
    if k = tbSelAct d ∧ pairFollow d = false ∧ domHold d k = false then servo d k m (now && !was) else d
  else
    let x := domOf d k
    let d := setDom d k { x with hoAnn := false, utc := m.utc &&& 0x1FFFF }
    let d := wr64 (wrN d (TB_DOM_STAT k) (m.pstate % 16 + 16 * b2n (domLocked d k) + 32 * b2n x.hoSync + m.steps % 256 * 256)) (TB_DOM_GMID k) m.gmid
    if k = tbSelAct d then wr d TB_UTC_OFS (m.utc &&& 0x1FFFF) else d

/-- TIME_FRAME_RECEIVE (R30, R366): the authority's TB_NS and TB_FRAC at t0 of the present BP, and the trim of its root. The phase part of the correction is
free up to SLEW_MAX. -/
def timeFrame (d : Dev) (n ns frac : Nat) (trim : W32) : Dev :=
  if pairFollow d = false ∨ n ≠ bp d then d
  else
    let d := setTw d { d.tw with trim := trim }
    let u : Int := ((ns * 2 ^ 24 + frac % 2 ^ 24 : Nat) : Int) - (d.tt * 2 ^ 24 + d.ttFrac : Nat)
    let d := wr d TB_PAIR_OFS (w32i (clampI (-2147483648) 2147483647 (Int.tdiv u oneNs)))
    if 1000 * oneNs < u ∨ u < -(1000 * oneNs) then setTb d { d.tb with pairStep := some u }
    else
      let f := freeNum d
      slewStart f.2 u (1 + f.1 % (phaseMax d).toNat) true

/-- The module has become authoritative: it steers from the time base it holds (R366). -/
def tbTakeOver (d : Dev) : Dev :=
  if d.tb.pairSlew.isSome ∨ d.tb.pairStep.isSome then slewEnd (setTb d { d.tb with pairStep := none }) else d

/-! ### TB_CFG and TB_DOMk_CFG (R367) -/

/-- The vectors of the ports' event frames (R358). -/
def ptpVecs (e : Nat) : Nat := 248 + 2 * e + 256 * (249 + 2 * e)
def ptpVectors (d : Dev) : Dev := (List.range 4).foldl (fun d e => wrFld d (ethBase e + EVT_VEC) 15 0 (ptpVecs e)) d

/-- The end of a start: TB_CFG is kept, so PTP runs where it says so, from the selected domain on (R358, R367). -/
def ptpStart (d : Dev) : Dev :=
  let d := wrFld d TB_STAT 1 0 (b2n (ptpEn d) + 2 * fld (rd d TB_CFG) 1 1)
  if ptpEn d then ptpVectors d else d

/-- A write of TB_CFG (TB_SEL_WRITE is one). -/
def tbCfgWrite (d : Dev) (v : W32) : Dev :=
  let old := rd d TB_CFG
  let v := v &&& 0x7F001F
  let on := ptpEn d && bit v 0
  if on ∧ (v &&& 0x7F0018) ≠ (old &&& 0x7F0018) then err d .tb 6 TB_CFG
  else if fld v 22 16 = 0 then err d .tb 7 TB_CFG
  else if 100 < fld v 22 16 then err d .tb 5 TB_CFG
  else if bit v 0 = true ∧ bit v 3 = false ∧ rdBit d CLK_CTRL 0 = false then err d .tb 0x0E01 TB_CFG
  else
    let was := ptpEn d
    let d := wrBit (wr d TB_CFG v) TB_STAT 0 (bit v 0)
    let d := if pairFollow d then setPhase d d.tb.phase else d
    if was = false ∧ bit v 0 = true then ptpVectors (tbSelect d (fld v 1 1))
    else if was = true ∧ bit v 0 = false then slewEnd (tbSelect d (fld v 1 1))
    else if bit v 0 = true ∧ fld v 1 1 ≠ tbSelAct d then tbSwitch d (fld v 1 1)
    else if bit v 0 then d else tbSelect d (fld v 1 1)

/-- A write of TB_DOMk_CFG. -/
def domCfgWrite (d : Dev) (k : Nat) (v : W32) : Dev :=
  let v := v &&& 0x73FFF
  let o := rd d (TB_DOM_CFG (1 - k))
  if ptpEn d then err d .tb 6 (TB_DOM_CFG k)
  else if 127 < fld v 7 0 ∨ (bit v 13 = true ∧ fld v 9 8 < 2) then err d .tb 5 (TB_DOM_CFG k)
  else if bit v 12 = true ∧ (rdBit d (ETH_CFG (fld v 9 8)) 8 = false ∨ (bit o 12 = true ∧ fld o 9 0 = fld v 9 0)) then
    err d .tb 0x0E02 (TB_DOM_CFG k)
  else wr d (TB_DOM_CFG k) v

/-- A write of the time-base page. -/
def tbWrite (d : Dev) (off : Nat) (v : W32) : Dev :=
  match off with
  | 0x108 => tbIncWrite d v
  | 0x110 => tbCfgWrite d v
  | 0x118 => wr d TB_SET v
  | 0x11C => wr d (TB_SET + 4) v
  | 0x120 => tbCommand d v
  | 0x140 => domCfgWrite d 0 v
  | 0x180 => domCfgWrite d 1 v
  | 0x134 | 0x13C | 0x164 | 0x1A4 => wr d (tbBase + off) v
  | _ => d

/-! ### PTP event frames (R357, R359) -/

/-- The domain of a port that an event frame belongs to. -/
def evDomain (d : Dev) (e dn : Nat) : Option Nat :=
  (List.range 2).find? (fun k => domEn d k && domPort d k == e && fld (rd d (TB_DOM_CFG k)) 7 0 == dn)

/-- PTP_EVENT_FRAME: counted; the frame that makes the count differ from its acknowledge latches its information; a later
one gets no stamp, and firmware discards its exchange. -/
def ptpEvent (d : Dev) (e : Nat) (tx : Bool) (seq typ dn : Nat) : Dev :=
  let cnt := if tx then ETH_PTP_TX_CNT e else ETH_PTP_RX_CNT e
  let ack := if tx then ETH_PTP_TX_ACK e else ETH_PTP_RX_ACK e
  let info := if tx then ETH_PTP_TX_INFO e else ETH_PTP_RX_INFO e
  if ptpEn d = false ∨ 3 < e then d
  else if rd d cnt = rd d ack then wrN (bump d cnt) info (seq % 2 ^ 16 + typ % 16 * 2 ^ 16 + dn % 256 * 2 ^ 24)
  else match evDomain d e dn with
    | some k => bump (bump d cnt) (TB_DOM_LOST_CNT k)
    | none => bump d cnt

/-! ### Views -/

/-- TB_SLEW_LEFT. -/
def tbSlewLeft (d : Dev) : Int := clampI (-2147483648) 2147483647 (Int.tdiv (d.tb.slew.getD 0) oneNs)

end Sys2Proof.Machine
end

