-- ==== Sys2Proof/Machine/Ether.lean ====
section
/-! DEFINITION. The Ethernet ports: rings, gates, publications and sequence recovery (R368 to R377). -/

namespace Sys2Proof.Machine

def eth0 : Eth := ⟨none, 0, none, 0, false, [], [], []⟩
def ethOf (d : Dev) (e : Nat) : Eth := tget eth0 d.eths e
def setEth (d : Dev) (e : Nat) (x : Eth) : Dev := { d with eths := tset eth0 d.eths e x }

/-- ETH_CFG.EN and GCL_EN; LINK. -/
def ethEn (d : Dev) (e : Nat) : Bool := rdBit d (ETH_CFG e) 8
def gclEn (d : Dev) (e : Nat) : Bool := rdBit d (ETH_CFG e) 9
def ethLink (d : Dev) (e : Nat) : Bool := rdBit d (ETH_STAT e) 0

/-- The gate states in force, bit t for TC t: all open with GCL_EN = 0, or before a list is operational. -/
def gates (d : Dev) (e : Nat) : Nat :=
  if gclEn d e then match (ethOf d e).oper with
    | some g => (nth g.ents (ethOf d e).entry (255, 0)).1
    | none => 255
  else 255

/-! ### Software rings (R370) -/

def etqLen (d : Dev) (e q : Nat) : Nat := fld (rd d (ETH_TQ_CFG e q)) 8 0
def etqHead (d : Dev) (e q : Nat) : Nat := rdN d (ETH_TQ_BASE e q) + rdN d (ETH_TQ_DONE e q) % etqLen d e q * 2048
def etqOut (d : Dev) (e q : Nat) : Nat :=
  let n := (rd d (ETH_TQ_POST e q) - rd d (ETH_TQ_DONE e q)).toNat
  if n ≤ etqLen d e q then n else 0

/-- The head entry completes: STATUS, then DONE. -/
def etqFinish (d : Dev) (e q status : Nat) : Dev :=
  bump (sramPut d (etqHead d e q + 4) (leBytes 2 status)) (ETH_TQ_DONE e q)

/-- The status with which the head entry completes at once: ZERO_LEN, BAD_DESC, LINK_DOWN. -/
def etqDead (d : Dev) (e q : Nat) : Option Nat :=
  let a := etqHead d e q
  let n := sramNum d a 2
  if !sramOk d a 2048 then some 2
  else if n = 0 then some 5
  else if 2028 < n then some 2
  else if ethEn d e && ethLink d e then none else some 1

/-- The device after the entry at the head has completed at once; none: there is none that does. -/
def etqStep (d : Dev) (e q : Nat) : Option Dev := if etqOut d e q = 0 then none else (etqDead d e q).map (etqFinish d e q)

/-- Complete the entries at the head that complete at once. -/
def etqDrain (e q : Nat) : Nat → Dev → Dev
  | 0, d => d
  | f + 1, d =>
    match etqStep d e q with
    | some x => etqDrain e q f x
    | none => d

/-- Drain every transmit ring of a port. -/
def ethDrain (d : Dev) (e : Nat) : Dev := (List.range 4).foldl (fun d q => etqDrain e q 256 d) d

/-- ETH_TX_POST: refused more than LEN ahead of DONE. -/
def ethPost (d : Dev) (e q : Nat) (v : W32) : Dev :=
  if etqLen d e q < (v - rd d (ETH_TQ_DONE e q)).toNat then err d (.eth e) 5 (ETH_TQ_POST e q)
  else etqDrain e q 256 (wr d (ETH_TQ_POST e q) v)

/-- The frame of the head entry goes out, padded to 60 bytes (R370). -/
def etqSent (d : Dev) (e q : Nat) : Dev :=
  let bs := mbytes d.sram (etqHead d e q + 16) (sramNum d (etqHead d e q) 2)
  let x := ethOf d e
  setEth d e { x with sent := x.sent ++ [bs ++ List.replicate (60 - bs.length) 0] }

/-- ETH_TX_COMPLETE: the head frame of a ring has been sent through its open gate (OK), or is longer than the longest open
window of its class (GATE_OVERRUN, with gates in force alone). -/
def ethTxComplete (d : Dev) (e q : Nat) (overrun : Bool) : Dev :=
  if etqOut d e q = 0 ∨ (etqDead d e q).isSome then d
  else
    let tc := sramNum d (etqHead d e q + 2) 1 % 8
    if overrun then (if gclEn d e && (ethOf d e).oper.isSome then etqDrain e q 256 (etqFinish d e q 4) else d)
    else if (gates d e).testBit tc then etqDrain e q 256 (etqFinish (etqSent d e q) e q 0) else d

/-- ETH_RQ_ACK: releases entries; refused outside the range from the present ACK to CNT. -/
def erqRelease (d : Dev) (e r : Nat) : Nat → W32 → Dev
  | 0, _ => d
  | n + 1, k =>
    let a := rdN d (ETH_RQ_BASE e r) + k.toNat % 64 * 2048 + 3
    erqRelease (sramPut d a (leBytes 1 (sramNum d a 1 % 128))) e r n (k + 1)
def ethRqAck (d : Dev) (e r : Nat) (v : W32) : Dev :=
  let ack := rd d (ETH_RQ_ACK e r)
  if (rd d (ETH_RQ_CNT e r) - ack).toNat < (v - ack).toNat then err d (.eth e) 5 (ETH_RQ_ACK e r)
  else wr (erqRelease d e r (v - ack).toNat ack) (ETH_RQ_ACK e r) v

/-- A received frame enters a ring. -/
def erqPut (d : Dev) (e r : Nat) (bs : List W8) : Dev :=
  if rdBit d (ETH_RQ_CFG e r) 0 = false then d
  else if 2032 < bs.length then bump d (ETH_ERR_CNT e)
  else if rd d (ETH_RQ_CNT e r) - rd d (ETH_RQ_ACK e r) = 64 then bump d (ETH_RQ_OVF_CNT e r)
  else
    let head := leBytes 2 bs.length ++ [0, 128] ++ leBytes 12 0
    bump (sramPut d (rdN d (ETH_RQ_BASE e r) + rdN d (ETH_RQ_CNT e r) % 64 * 2048) (head ++ bs)) (ETH_RQ_CNT e r)

/-! ### Sequence recovery (R375) -/

/-- Streams without frames for the reset time are released. -/
def cbStale (d : Dev) (e : Nat) (s : CbStream) : Bool := decide (s.last + rdN d (ETH_CB_RESET e) ≤ optMs d)

/-- CB_STREAM_RESET of a stream. -/
def cbReset (d : Dev) (e i : Nat) : Dev :=
  let x := ethOf d e
  match x.streams[i]? with
  | some s => if cbStale d e s then setEth d e { x with streams := x.streams.eraseIdx i } else d
  | none => d

/-- The vector recovery algorithm with a history of 32: the stream after a frame, and 0 pass, 1 duplicate, 2 rogue. -/
def cbVector (s : CbStream) (seq : Nat) : CbStream × Nat :=
  let delta := sgn 16 (seq + 65536 - s.seq)
  if 32 ≤ delta ∨ delta ≤ -32 then (s, 2)
  else if delta ≤ 0 then
    let i := (-delta).toNat
    if s.hist.testBit i then (s, 1) else ({ s with hist := s.hist ||| 2 ^ i }, 0)
  else ({ s with seq := seq, hist := (s.hist * 2 ^ delta.toNat + 1) % 2 ^ 32 }, 0)

/-- Recovery of a frame with an R-TAG: the state, and whether the frame passes. -/
def cbRecover (d : Dev) (e src dst vid seq : Nat) : Dev × Bool :=
  let x := ethOf d e
  let live := x.streams.filter (fun s => !cbStale d e s)
  let mine := fun (s : CbStream) => s.src == src && s.dst == dst && s.vid == vid
  match live.find? mine with
  | some s =>
    let r := cbVector s seq
    let d := setEth d e { x with streams := live.map (fun t => if mine t then { r.1 with last := optMs d } else t) }
    if r.2 = 0 then (d, true) else (if r.2 = 2 then bump d (ETH_CB_ROGUE_CNT e) else d, false)
  | none =>
    if 64 ≤ live.length then (bump (setEth d e { x with streams := live }) (ETH_CB_FULL_CNT e), true)
    else (setEth d e { x with streams := live ++ [⟨src, dst, vid, seq, 1, optMs d⟩] }, true)

/-! ### Reception -/

/-- A big-endian number of n bytes at an offset. -/
def beNum (bs : List W8) (off n : Nat) : Nat := leNat ((bs.drop off).take n).reverse

/-- A frame belongs to a configured domain: PTP over Ethernet, or over UDP and IPv4 where the domain says so (Table 14-1). -/
def ptpFrame (d : Dev) (e : Nat) (etype : Nat) (body : List W8) : Bool :=
  let ihl := beNum body 0 1 % 16 * 4
  let port := beNum body (ihl + 2) 2
  (List.range 2).any (fun k =>
    domEn d k && domPort d k == e && ptpEn d &&
      (if rdBit d (TB_DOM_CFG k) 13 then
        etype == 0x0800 && beNum body 9 1 == 17 && (port == 319 || port == 320) && beNum body (ihl + 12) 1 == fld (rd d (TB_DOM_CFG k)) 7 0
      else etype == 0x88F7 && beNum body 4 1 == fld (rd d (TB_DOM_CFG k)) 7 0))

/-- A frame that carries safe data (R370). -/
def safeFrameOf (d : Dev) (e etype : Nat) : Bool :=
  decide (e < 2) && match d.sf.table with
    | some t => t.etype == etype
    | none => false

/-- ETH_RX_FRAME: the octets of a frame without its FCS; bad: it failed the FCS or its length. -/
def ethRx (d : Dev) (e : Nat) (bs : List W8) (bad : Bool) : Dev :=
  if ethEn d e = false ∨ ethLink d e = false then d
  else if bad ∨ bs.length < 60 ∨ 2044 < bs.length then bump d (ETH_ERR_CNT e)
  else
    let tagged := beNum bs 12 2 == 0x8100
    let tci := if tagged then beNum bs 14 2 else 0
    let o := if tagged then 16 else 12
    let rtag := beNum bs o 2 == 0xF1C1
    let r := if rtag then cbRecover d e (beNum bs 6 6) (beNum bs 0 6) (tci % 4096) (beNum bs (o + 4) 2) else (d, true)
    let plain := if rtag then bs.take o ++ bs.drop (o + 6) else bs
    let etype := beNum plain o 2
    if etype = 0x8808 then bump r.1 (ETH_ERR_CNT e)
    else if r.2 = false ∨ ptpFrame r.1 e etype (plain.drop (o + 2)) = true ∨ safeFrameOf r.1 e etype = true then r.1
    else
      let ring := if tagged then fld (rd r.1 (ETH_RXMAP e)) (2 * (tci / 8192) + 1) (2 * (tci / 8192)) else 0
      erqPut r.1 e ring plain

/-! ### Gates (R372) -/

/-- The administrative list. -/
def adminGcl (d : Dev) (e : Nat) : Gcl :=
  ⟨rd64 d (ETH_GCL_BASE e), rdN d (ETH_GCL_CYCLE e),
    (List.range (rdN d (ETH_GCL_LEN e))).map (fun i => let w := rd d (ETH_GCL e i); (fld w 7 0, fld w 31 8))⟩

/-- ETH_GCL_COMMIT. -/
def gclCommit (d : Dev) (e : Nat) : Dev :=
  let a := ETH_GCL_COMMIT e
  if rdN d (ETH_GCL_LEN e) = 0 ∨ rdN d (ETH_GCL_CYCLE e) = 0 then err d (.eth e) 7 a
  else wrBit (setEth d e { ethOf d e with pend := some (adminGcl d e), pendAt := tbNs d }) (ETH_STAT e) 3 true

/-- GCL_CYCLE_START: a committed list becomes operational at the first cycle start at or after both its base and 2 µs after
the commit; the gates take the states of entry 0. -/
def gclCycle (d : Dev) (e : Nat) : Dev :=
  let x := ethOf d e
  match x.pend with
  | some g =>
    if g.base ≤ tbNs d ∧ x.pendAt + 2000 ≤ tbNs d then
      wrBit (setEth d e { x with pend := none, oper := some g, entry := 0, hold := false }) (ETH_STAT e) 3 false
    else if x.oper.isSome then setEth d e { x with entry := 0, hold := false } else d
  | none => if x.oper.isSome then setEth d e { x with entry := 0, hold := false } else d

/-- GCL_ENTRY_CHANGE: the next entry's states; the last entry extends to the cycle end; held after a step of TB_NS. -/
def gclEntry (d : Dev) (e : Nat) : Dev :=
  let x := ethOf d e
  match x.oper with
  | some g => if x.hold = false ∧ x.entry + 1 < g.ents.length then setEth d e { x with entry := x.entry + 1 } else d
  | none => d

/-- ETH_LINK_CHANGE: speed 0 down, 1 100 Mb/s, 2 1 Gb/s, 3 2.5 Gb/s; a speed that is not advertised cannot come up. -/
def ethLinkChange (d : Dev) (e speed : Nat) : Dev :=
  if speed = 0 then ethDrain (wrFld d (ETH_STAT e) 2 0 0) e
  else if ethEn d e = true ∧ speed ≤ 3 ∧ rdBit d (ETH_CFG e) (speed - 1) = true then wrFld d (ETH_STAT e) 2 0 (1 + 2 * speed)
  else d

/-! ### Publications (R373, R374) -/

def pubEn (d : Dev) (e p : Nat) : Bool := rdBit d (ETH_PUB_CFG e p) 0
def pubCount (d : Dev) (e p : Nat) : Nat := fld (rd d (ETH_PUB_SIG e p)) 24 16

/-- A big-endian number as n octets. -/
def beBytes (n v : Nat) : List W8 := (leBytes n v).reverse

/-- The octets of a publication frame. -/
def pubFrame (d : Dev) (e p : Nat) : List W8 :=
  let cfg := rd d (ETH_PUB_CFG e p)
  let n := pubCount d e p
  let ns := (List.range n).map (fun i => fld (rd d (ETH_PUB_SIG e p)) 14 0 + i)
  let bits := ((List.range n).zip ns).foldl (fun acc q => acc + b2n (sigSafe d q.2) * 2 ^ q.1) 0
  beBytes 6 (rd64 d (ETH_PUB_DST e p)) ++ beBytes 6 (rd64 d (ETH_PMAC e)) ++ beBytes 2 0x8100
    ++ beBytes 2 (fld cfg 14 12 * 8192 + fld cfg 27 16) ++ beBytes 2 0xF1C1 ++ beBytes 2 0 ++ beBytes 2 (fld (rd d (ETH_PUB_SEQ e p)) 15 0)
    ++ beBytes 2 0x88B6 ++ leBytes 1 p ++ [0] ++ leBytes 2 n ++ leBytes 8 (bp d) ++ leBytes 4 0
    ++ ns.flatMap (fun s => leBytes 4 (sigVal d s).toNat) ++ leBytes ((n + 31) / 32 * 4) bits

/-- A frame of a publication joins a port's queue; one that has not left by then is dropped and counted. -/
def pubQueue (d : Dev) (e src p : Nat) (f : List W8) : Dev :=
  let x := ethOf d e
  let mine := fun (q : Nat × Nat × List W8) => q.1 == src && q.2.1 == p
  let d := if x.pubq.any mine then bump d (ETH_PUB_SKIP_CNT e) else d
  setEth d e { x with pubq := x.pubq.filter (fun q => !mine q) ++ [(src, p, f)] }

/-- A due publication: its frame is queued (but by a SYNCING module, R376), and PUB_SEQ advances. -/
def pubSend (d : Dev) (e p : Nat) : Dev :=
  let r := rd d (ETH_PUB_RATE e p)
  if pubEn d e p = false ∨ dueAt (bp d) (fld r 12 0) (fld r 28 16) = false then d
  else
    let f := pubFrame d e p
    let d := if d.role = .syncing then d
      else
        let d := pubQueue d e e p f
        if rdBit d (ETH_PUB_CFG e p) 1 = true ∧ e < 2 then pubQueue d (1 - e) e p f else d
    wrFld d (ETH_PUB_SEQ e p) 15 0 (fld (rd d (ETH_PUB_SEQ e p)) 15 0 + 1)

/-- The PCP of a queued publication frame. -/
def pubTc (f : List W8) : Nat := beNum f 14 2 / 8192

/-- The stretches of a cycle of a list, in order: each entry's gate states and length; the last extends to the cycle end, and one that runs
past it is cut there (R372). -/
def gclSpans (cycle : Nat) : List (Nat × Nat) → Nat → List (Nat × Nat)
  | [], _ => []
  | [g], at_ => [(g.1, cycle - at_)]
  | g :: t, at_ => (g.1, min g.2 (cycle - at_)) :: gclSpans cycle t (at_ + g.2)

/-- The longest time in a row that stretches leave the gate of a class open; run: how long it has been open before them. -/
def openRunMax (tc : Nat) : List (Nat × Nat) → Nat → Nat
  | [], run => run
  | g :: t, run => if g.1.testBit tc then openRunMax tc t (run + g.2) else max run (openRunMax tc t 0)

/-- How long a frame of n bytes without its FCS occupies a port, in ns, with FCS, preamble and delimiter (log entry 61). -/
def wireNs (d : Dev) (e n : Nat) : Nat :=
  let bits := 8 * (n + 12)
  match fld (rd d (ETH_STAT e)) 2 1 with
  | 1 => bits * 10
  | 2 => bits
  | 3 => bits * 2 / 5
  | _ => 0

/-- A frame is longer than the longest open window of its class: it can never start (R372). -/
def gateNever (d : Dev) (e tc n : Nat) : Bool :=
  gclEn d e && match (ethOf d e).oper with
    | some g =>
      let ss := gclSpans g.cycle g.ents 0
      !(ss.all (fun s => s.1.testBit tc)) && decide (openRunMax tc (ss ++ ss) 0 < wireNs d e n)
    | none => false

/-- The frames whose gate is open leave a port with a link; one that no window can take is dropped at once and counted (R372). -/
def pubLeave (d : Dev) (e : Nat) : Dev :=
  let x := ethOf d e
  let never := fun (q : Nat × Nat × List W8) => gateNever d e (pubTc q.2.2) q.2.2.length
  let goes := fun (q : Nat × Nat × List W8) => ethEn d e && ethLink d e && (gates d e).testBit (pubTc q.2.2) && !never q
  if x.pubq = [] ∧ x.sent = [] then d
  else
    let n := (x.pubq.filter never).length
    let d := setEth d e { x with pubq := x.pubq.filter (fun q => !goes q && !never q), sent := (x.pubq.filter goes).map (·.2.2) }
    if n = 0 then d else wr d (ETH_PUB_SKIP_CNT e) (rd d (ETH_PUB_SKIP_CNT e) + w32 n)

/-- The publications of a BP, after C2. -/
def publish (d : Dev) : Dev :=
  let d := (List.range 3).foldl (fun d e => (List.range 16).foldl (fun d p => pubSend d e p) d) d
  (List.range 4).foldl pubLeave d

/-! ### Writes -/

/-- Rings in use are misaligned or extend beyond the window. -/
def ethRingsBad (d : Dev) (e : Nat) : Bool :=
  (List.range 4).any (fun q =>
    (decide (0 < etqLen d e q) && ringBad (rdN d (ETH_TQ_BASE e q)) (etqLen d e q) 2048)
      || (rdBit d (ETH_RQ_CFG e q) 0 && ringBad (rdN d (ETH_RQ_BASE e q)) 64 2048))

/-- A write of ETH_CFG: with EN = 1 only one that clears EN. -/
def ethCfgWrite (d : Dev) (e : Nat) (v : W32) : Dev :=
  let a := ETH_CFG e
  let v := v &&& 0x307
  if ethEn d e = true ∧ bit v 8 = true then err d (.eth e) 6 a
  else if fld v 2 0 = 0 then err d (.eth e) 7 a
  else if bit v 8 = true ∧ ethRingsBad d e = true then err d (.eth e) 0x0E12 a
  else
    let d := wr d a v
    if bit v 8 then d else ethDrain (wrFld d (ETH_STAT e) 2 0 0) e

/-- A write that a port accepts while EN = 0. -/
def ethPut (d : Dev) (e a : Nat) (cause : Option Nat) (v mask : W32) : Dev :=
  if ethEn d e then err d (.eth e) 6 a
  else match cause with
    | some c => err d (.eth e) c a
    | none => wr d a (v &&& mask)

/-- A write of a publication register: while the publication's EN = 0, or one that clears EN (R373). -/
def pubWrite (d : Dev) (e p off : Nat) (v : W32) : Dev :=
  let a := ethBase e + 0x400 + 32 * p + off
  let busy := pubEn d e p && (off != 0 || bit v 0)
  let cause : Option Nat :=
    if busy then some 6
    else if off = 0 then (if bit v 0 = true ∧ e = 3 then some 0x0E13 else if bit v 0 = true ∧ pubCount d e p = 0 then some 7 else none)
    else if off = 4 then
      (if fld v 12 0 = 0 then some 7 else if 4096 < fld v 12 0 ∨ fld v 12 0 ≤ fld v 28 16 then some 5 else none)
    else if off = 8 then
      (if fld v 24 16 = 0 then some 7 else if 256 < fld v 24 16 ∨ 32768 < fld v 14 0 + fld v 24 16 then some 5 else none)
    else none
  match cause with
  | some c => err d (.eth e) c a
  | none =>
    if off = 0 then wr d a (v &&& 0x0FFF7003) else if off = 4 then wr d a (v &&& 0x1FFF1FFF)
    else if off = 8 then wr d a (v &&& 0x01FF7FFF) else if off = 16 then wr d a v
    else if off = 20 then wr d a (v &&& 0xFFFF) else d

/-- A write of a transmit or receive ring register. -/
def ethRingWrite (d : Dev) (e off : Nat) (v : W32) : Dev :=
  let a := ethBase e + off
  if off < 0x1C0 then
    match (off - 0x140) % 32 with
    | 0 => ethPut d e a none v 0xFFFFFFFF
    | 4 => ethPut d e a (if 256 < fld v 8 0 then some 5 else none) v 0x1FF
    | 8 => ethPost d e ((off - 0x140) / 32) v
    | 16 => wr d a v
    | _ => d
  else
    match (off - 0x1C0) % 32 with
    | 0 => ethPut d e a none v 0xFFFFFFFF
    | 4 => ethPut d e a none v 1
    | 12 => ethRqAck d e ((off - 0x1C0) / 32) v
    | 20 => wr d a v
    | _ => d

/-- A write of a port register that has no row of its own. -/
def ethWrite (d : Dev) (e off : Nat) (v : W32) : Dev :=
  let a := ethBase e + off
  if off = 0x100 then ethCfgWrite d e v
  else if off = 0x108 then ethPut d e a none v 0xFFFFFFFF
  else if off = 0x10C then ethPut d e a none v 0xFFFF
  else if off = 0x110 then wr d a v
  else if off = 0x114 then wr d a (v &&& 0xFFFF)
  else if off = 0x118 then (if 2 ≤ e ∧ fld v 11 0 ≠ 0 then err d (.eth e) 0x0E13 a else wr d a (v &&& 0xFFF))
  else if off = 0x11C then wr d a (v &&& 0xFFFF)
  else if off = 0x120 then
    (if fld v 13 0 = 0 then err d (.eth e) 7 a else if 10000 < fld v 13 0 then err d (.eth e) 5 a else wr d a (v &&& 0x3FFF))
  else if off = 0x12C ∨ off = 0x138 ∨ off = 0x244 ∨ off = 0x24C ∨ off = 0x254 ∨ off = 0x25C then wr d a v
  else if 0x140 ≤ off ∧ off < 0x240 then ethRingWrite d e off v
  else if off = 0x300 ∨ off = 0x304 then wr d a v
  else if off = 0x308 then
    (if v = 0 then err d (.eth e) 7 a else if v.toNat < 1000 ∨ 10000000 < v.toNat then err d (.eth e) 5 a else wr d a v)
  else if off = 0x30C then (if 256 < fld v 8 0 then err d (.eth e) 5 a else wr d a (v &&& 0x1FF))
  else if off = 0x310 then (if bit v 0 then gclCommit d e else d)
  else if 0x400 ≤ off ∧ off < 0x600 then pubWrite d e ((off - 0x400) / 32) ((off - 0x400) % 32) v
  else if 0x800 ≤ off ∧ off < 0xC00 then wr d a v
  else d

end Sys2Proof.Machine
end

