-- ==== Sys2Proof/Machine/FieldIo.lean ====
section
/-! DEFINITION. Analog outputs (R160 to R163) and digital inputs and outputs (R165 to R170, R453). -/

namespace Sys2Proof.Machine

/-! ### Analog outputs: channel c is channel c mod 4 of page c / 4 -/

def ao0 : AoCh := ⟨.off, 0, false, false, false, false, false, 0, 0, 0, 0⟩
def aoOf (d : Dev) (c : Nat) : AoCh := tget ao0 d.aos c
def setAo (d : Dev) (c : Nat) (x : AoCh) : Dev := { d with aos := tset ao0 d.aos c x }
def aoPage (c : Nat) : Page := .ao (c / 4)

/-- MODE, EN, SAFE_ACT, SAFE_HIZ. -/
def aoMode (d : Dev) (c : Nat) : Nat := fld (rd d (AO_CFG (c / 4) (c % 4))) 1 0
def aoEn (d : Dev) (c : Nat) : Bool := rdBit d (AO_CFG (c / 4) (c % 4)) 4
def aoHiz (d : Dev) (c : Nat) : Bool := rdBit d (AO_CFG (c / 4) (c % 4)) 6
def aoSrc (d : Dev) (c : Nat) : Nat := fld (rd d (AO_SRC (c / 4) (c % 4))) 14 0

/-- The driver is on (Table 6-12). -/
def aoOn (d : Dev) (c : Nat) : Bool :=
  match (aoOf d c).st with
  | .running => true
  | .fault => false
  | _ => aoMode d c != 0 && !aoHiz d c

/-- A value as the driver applies it: CURR drives no negative current (R161). -/
def aoDrive (d : Dev) (c : Nat) (q : Int) : Int := if aoMode d c = 2 ∧ q < 0 then 0 else q

/-- AO_ACT: the value applied. -/
def aoAct (d : Dev) (c : Nat) : Int :=
  if aoOn d c then (if (aoOf d c).st = .running then (aoOf d c).act else aoDrive d c (q15 (rd d (AO_SAFE (c / 4) (c % 4))))) else 0

/-- CLAMP: the value that drives is negative in CURR mode (R161). -/
def aoClamp (d : Dev) (c : Nat) : Bool :=
  aoOn d c && (if (aoOf d c).st = .running then (aoOf d c).clamp else aoMode d c == 2 && decide (q15 (rd d (AO_SAFE (c / 4) (c % 4))) < 0))

/-- A fault of a channel (Table 6-12). -/
def aoFault (d : Dev) (c cause : Nat) : Dev :=
  let x := aoOf d c
  if x.st = .running ∨ x.st = .safe then
    let d := bump (setAo d c { x with st := .fault, fcause := cause }) (AO_FLT_CNT (c / 4) (c % 4))
    fieldFault (err d (aoPage c) 0x0411 c) (aoPage c) 0x0411 c 0
  else d

/-- AO_OTEMP, AO_ILIM_FAULT, AO_READBACK_FAULT as events. -/
def aoOtemp (d : Dev) (c : Nat) : Dev := aoFault (setAo d c { aoOf d c with otemp := true }) c 2
def aoIlimFault (d : Dev) (c : Nat) : Dev := aoFault (setAo d c { aoOf d c with ilim := true }) c 1
def aoReadbackFault (d : Dev) (c : Nat) : Dev := aoFault (setAo d c { aoOf d c with rbDev := true }) c 3

/-- The readback of this BP and the driver's levels (R161, R162). -/
def aoRead (env : BpEnv) (d : Dev) (c : Nat) : Dev :=
  let x := aoOf d c
  let i := (tfind env.ao c).getD ⟨aoAct d c, false, false, false⟩
  let cfg := rd d (AO_RB_CFG (c / 4) (c % 4))
  let tol := fld cfg 15 0
  let live := x.st == .running || x.st == .safe
  let dev := live && tol != 0 && decide (10 ≤ x.since) && decide (tol < (i.rb - aoAct d c).natAbs)
  let d := wr d (AO_RB (c / 4) (c % 4)) (w32 (i.rb % 65536).toNat)
  setAo d c { x with openLoad := i.openLoad, ilim := i.ilim, otemp := i.otemp, rbDev := dev, rbRun := if dev then x.rbRun + 1 else 0,
                     ilimRun := if i.ilim then x.ilimRun + 1 else 0, since := if live then x.since + 1 else 0 }

/-- One evaluation of Table 6-12 at C2, and the update of a channel that is running and due (R162). -/
def aoStep (d : Dev) (c : Nat) : Dev :=
  let x := aoOf d c
  let p := aoPage c
  let run := runBit d p
  let cfg := rd d (AO_CFG (c / 4) (c % 4))
  let cause := outSafe d p || (bit cfg 5 && sigSafe d (aoSrc d c))
  let live := x.st == .running || x.st == .safe
  if x.st = .off then (if aoEn d c && aoMode d c != 0 && run then 
      setAo d c { x with st := .running, since := 0, rbRun := 0, ilimRun := 0, act := aoAct d c, clamp := aoClamp d c } else d)
  else if live && x.otemp then aoFault d c 2
  else if live && decide (100 ≤ x.ilimRun) then aoFault d c 1
  else if live && x.rbDev && decide (fld (rd d (AO_RB_CFG (c / 4) (c % 4))) 31 16 ≤ x.rbRun) then aoFault d c 3
  else if live && !(aoEn d c && run) then setAo d c { x with st := .off }
  else if x.st = .fault then (if aoEn d c then d else setAo d c { x with st := .off })
  else if x.st = .running then
    if cause then setAo d c { x with st := .safe }
    else
      let r := rd d (AO_RATE (c / 4) (c % 4))
      if dueAt (bp d) (fld r 12 0) (fld r 28 16) then
        let q := sigQ d (aoSrc d c)
        setAo d c { x with act := aoDrive d c q, clamp := decide (aoDrive d c q ≠ q) }
      else d
  else if x.st = .safe then (if cause then d else setAo d c { x with st := .running, since := 0, act := aoAct d c, clamp := aoClamp d c })
  else d

/-- The channels with anything to do: enabled, or not OFF. -/
def activeAos (d : Dev) : List Nat :=
  (List.range 64).filter (fun c => (tfind d.aos c).isSome || (tfind d.regs (AO_CFG (c / 4) (c % 4))).isSome)

/-- The device enters Held (R163). -/
def aoHold (d : Dev) (c : Nat) : Dev := let x := aoOf d c; if x.st = .fault then d else setAo d c { x with st := .held }

/-- AO_STAT. -/
def aoStat (d : Dev) (c : Nat) : Nat :=
  let x := aoOf d c
  (match x.st with | .off => 0 | .running => 1 | .safe => 2 | .fault => 3 | .held => 4)
    + 8 * b2n (aoClamp d c) + 16 * b2n x.openLoad + 32 * b2n x.ilim + 64 * b2n x.otemp + 128 * b2n x.rbDev + 256 * x.fcause

/-- A write to an analog-output page (R160). -/
def aoWrite (d : Dev) (j off : Nat) (v : W32) : Dev :=
  let a := aoBase j + off
  let q := (off - 0x100) / 0x40
  let p : Page := .ao j
  let busy := causeIf (aoEn d (4 * j + q)) 6
  if off < 0x100 ∨ 0x200 ≤ off then d
  else match (off - 0x100) % 0x40 with
    | 0x00 =>
      let only := causeIf (aoEn d (4 * j + q) && bit v 4) 6
      (cfgPut d p a [maxF 1 0 2, anyF 4 4, anyF 5 5, anyF 6 6] v [only] []).1
    | 0x04 => (cfgPut d p a [anyF 14 0] v [busy] []).1
    | 0x08 => (cfgPut d p a [⟨12, 0, 1, 4096⟩, ⟨28, 16, 0, fld v 12 0 - 1⟩] v [busy] []).1
    | 0x0C => (cfgPut d p a [anyF 15 0] v [] []).1
    | 0x10 => (cfgPut d p a [anyF 15 0, anyF 31 16] v [] [causeIf (fld v 15 0 != 0 && fld v 31 16 == 0) 7]).1
    | _ => d

/-! ### Digital pins: pin n is pin n mod 8 of page n / 8 -/

def dio0 : DioPin := ⟨.off, false, false, false, false, false, false, 0, 0, 0, [], false⟩
def dioOf (d : Dev) (n : Nat) : DioPin := tget dio0 d.dios n
def setDio (d : Dev) (n : Nat) (x : DioPin) : Dev := { d with dios := tset dio0 d.dios n x }
def dioPage (n : Nat) : Page := .dio (n / 8)
def dioCfg (d : Dev) (n : Nat) : W32 := rd d (DIO_CFG (n / 8) (n % 8))
def dioMode (d : Dev) (n : Nat) : Nat := fld (dioCfg d n) 1 0

/-- A pin with its switch commanded off: no under-current (R168). -/
def swOff (x : DioPin) : DioPin := { x with level := false, under := false, underRun := 0 }

/-- The output switch is commanded; the wear ledger counts an off-to-on transition (R171, R446). -/
def dioSwitch (d : Dev) (n : Nat) (b : Bool) : Dev :=
  let x := dioOf d n
  let d := setDio d n (if b then { x with level := true } else swOff x)
  if b && !x.level then wearAdd d n 1 else d

/-- A fault of a pin (Table 6-15). -/
def dioFault (d : Dev) (n cause : Nat) : Dev :=
  let x := dioOf d n
  if x.st = .running ∨ x.st = .safe then
    let d := setDio d n { swOff x with st := .fault, fcause := cause, queue := [] }
    fieldFault (err (bump d (DIO_FLT_CNT (n / 8) (n % 8))) (dioPage n) 0x0421 n) (dioPage n) 0x0421 n 0
  else d

/-- DIO_OTEMP, DIO_ILIM_FAULT and DIO_UNDERCURRENT as events. -/
def dioOtemp (d : Dev) (n : Nat) : Dev := dioFault (setDio d n { dioOf d n with otemp := true }) n 2
def dioIlimFault (d : Dev) (n : Nat) : Dev := dioFault (setDio d n { dioOf d n with ilim := true }) n 1
def dioUndercurrent (d : Dev) (n : Nat) : Dev := 
  if (dioOf d n).level = true ∧ fld (rd d (DIO_IMIN (n / 8) (n % 8))) 9 0 ≠ 0 then setDio d n { dioOf d n with under := true } else d

/-- DIO_INPUT_EDGE: a pin's level has held for its filter time; ts is TB_NS of the first sample at it (R167). -/
def dioEdge (d : Dev) (n : Nat) (lvl : Bool) (ts : Nat) : Dev :=
  let x := dioOf d n
  let d := setDio d n { x with raw := lvl }
  let acc := xor lvl (bit (dioCfg d n) 2)
  if x.st = .input ∧ acc ≠ x.acc then
    let d := setDio d n { dioOf d n with acc := acc }
    bump (wr64 d (if acc then DIO_TS_RISE (n / 8) (n % 8) else DIO_TS_FALL (n / 8) (n % 8)) ts) (DIO_EDGE_CNT (n / 8) (n % 8))
  else d

/-- A late switching (R169): counted, named; executed at the first CLK_TB tick after C2, or discarded. It switches a RUNNING pin only:
in every other state the switch is where Table 6-15 puts it. -/
def dioLate (d : Dev) (n t : Nat) (lvl : Bool) : Dev :=
  let disc := bit (dioCfg d n) 5
  let now := d.tt + 8000
  let exec := (d.tt * 2 ^ 24 + d.ttFrac + 1601 * rdN d TB_INC) / 2 ^ 24
  let g := n / 8
  let d := wrN (wrN (bump d (DIO_LATE_CNT g)) (DIO_LATE_PIN g) (n % 8 + 256 * b2n disc)) (DIO_LATE_NS g)
    (min 0xFFFFFFFF ((if disc then now else exec) - t))
  if disc = true ∨ (dioOf d n).st ≠ .running then d else dioSwitch d n lvl

/-- DIO_SCH_PUSH (R169). -/
def dioPush (d : Dev) (n : Nat) (lvl : Bool) : Dev :=
  let x := dioOf d n
  let t := rd64 d (DIO_SCH_TIME (n / 8) (n % 8))
  let last := match x.queue.getLast? with
    | some e => decide (t ≤ e.1)
    | none => false
  if dioMode d n ≠ 3 ∨ 4 ≤ x.queue.length ∨ last = true then err d (dioPage n) 5 (DIO_SCH_CTRL (n / 8) (n % 8))
  else if t ≤ d.tt + 8000 + 2000 then dioLate d n t lvl
  else setDio d n { x with queue := x.queue ++ [(t, lvl)] }

/-- DIO_SCH_FLUSH. -/
def dioFlush (d : Dev) (n : Nat) : Dev := setDio d n { dioOf d n with queue := [] }

/-- A write of DIO_SCH_CTRL: flush before push. -/
def dioSchWrite (d : Dev) (n : Nat) (v : W32) : Dev :=
  let d := if bit v 2 then dioFlush d n else d
  if bit v 0 then dioPush d n (bit v 1) else d

/-- DIO_SCHED_SWITCH: the head of the queue, once TB_NS has reached it. -/
def dioSched (d : Dev) (n : Nat) : Dev :=
  let x := dioOf d n
  match x.queue with
  | (t, lvl) :: r => if t ≤ tbNs d ∧ x.st = .running then dioSwitch (setDio d n { x with queue := r }) n lvl else d
  | [] => d

/-- All the switchings whose instant has come; at most 4 are queued. -/
def dioScheds (d : Dev) : Dev :=
  (tkeys d.dios).foldl (fun d n => if (dioOf d n).queue.isEmpty then d else dioSched (dioSched (dioSched (dioSched d n) n) n) n) d

/-- After a resume, restored switchings whose instant has passed are judged late at the first C2 (R169). -/
def dioJudge (d : Dev) (n : Nat) : Dev :=
  let x := dioOf d n
  if x.judge then
    let late := x.queue.filter (fun e => decide (e.1 ≤ d.tt + 8000))
    let d := setDio d n { x with judge := false, queue := x.queue.filter (fun e => !decide (e.1 ≤ d.tt + 8000)) }
    late.foldl (fun d e => dioLate d n e.1 e.2) d
  else d

/-- What the switch shows in this BP: current, readback level, ILIM, OTEMP, under-current (R168, R453). -/
def dioRead (env : BpEnv) (d : Dev) (n : Nat) : Dev :=
  let x := dioOf d n
  let i := (tfind env.dio n).getD ⟨fld (rd d (DIO_IMIN (n / 8) (n % 8))) 9 0, x.level && !d.power.vfldLow, false, false⟩
  let imin := fld (rd d (DIO_IMIN (n / 8) (n % 8))) 9 0
  let low := x.level && decide (i.cur < imin)
  let run := if low then x.underRun + 1 else 0
  let d := wrN d (DIO_IOUT (n / 8) (n % 8)) (i.cur % 65536)
  let d := wrBit d (DIO_LVL (n / 8)) (8 + n % 8) i.level
  setDio d n { x with ilim := i.ilim, otemp := i.otemp, ilimRun := if i.ilim then x.ilimRun + 1 else 0, underRun := run,
                      under := low && (x.under || decide (10 ≤ run)) }

/-- The level an OUT pin takes from its source. -/
def dioSrcBit (d : Dev) (n : Nat) : Bool :=
  let s := rd d (DIO_SRC (n / 8) (n % 8))
  xor (sigBit d (fld s 14 0) (fld s 20 16)) (bit (dioCfg d n) 2)

/-- An OUT pin follows its source at C2 (R168). -/
def dioFollow (d : Dev) (n : Nat) : Dev := if dioMode d n = 2 then dioSwitch d n (dioSrcBit d n) else d

/-- One evaluation of Table 6-15 at C2, and the update of a running OUT pin. -/
def dioStep (d : Dev) (n : Nat) : Dev :=
  let x := dioOf d n
  let m := dioMode d n
  let run := runBit d (dioPage n)
  let s := rd d (DIO_SRC (n / 8) (n % 8))
  let cause := outSafe d (dioPage n) || (m == 2 && bit (dioCfg d n) 4 && sigSafe d (fld s 14 0))
  let live := x.st == .running || x.st == .safe
  if x.st = .off then
    if m = 1 ∧ run then dioSwitch (setDio d n { x with st := .input, acc := xor x.raw (bit (dioCfg d n) 2) }) n false
    else if 2 ≤ m ∧ run then dioFollow (setDio d n { swOff x with st := .running, ilimRun := 0 }) n
    else d
  else if x.st = .input then (if m = 0 ∨ run = false then setDio d n { x with st := .off } else d)
  else if live && x.otemp then dioFault d n 2
  else if live && decide (100 ≤ x.ilimRun) then dioFault d n 1
  else if live && (m == 0 || !run) then setDio d n { swOff x with st := .off, queue := [] }
  else if x.st = .running then
    if cause then dioSwitch (setDio d n { x with st := .safe, queue := [] }) n (bit (dioCfg d n) 3) else dioFollow d n
  else if x.st = .safe then
    if cause then d
    else if m = 2 then dioFollow (setDio d n { x with st := .running }) n
    else setDio d n { swOff x with st := .running }
  else if x.st = .fault then (if m = 0 then setDio d n { x with st := .off } else d)
  else d

/-- The device enters Held (R170). -/
def dioHold (d : Dev) (n : Nat) : Dev :=
  let x := dioOf d n
  if x.st = .running ∨ x.st = .safe then dioSwitch (setDio d n { x with st := .held, queue := [] }) n (bit (dioCfg d n) 3) else d

/-- The pins with anything to do. -/
def activeDios (d : Dev) : List Nat :=
  (List.range 128).filter (fun n => (tfind d.dios n).isSome || (tfind d.regs (DIO_CFG (n / 8) (n % 8))).isSome)

/-- The sum of a bit for each pin of a page. -/
def pinBits (f : Nat → Bool) (at_ : Nat) : Nat := ((List.range 8).map (fun q => if f q then 2 ^ (at_ + q) else 0)).foldl (· + ·) 0

/-- The page entry of this BP, staged for C1 (R167). -/
def dioEntry (d : Dev) (g : Nat) : Dev :=
  let dst := rd d (DIO_IN_DST g)
  let low := d.power.vfldLow
  let pin (q : Nat) := dioOf d (8 * g + q)
  let ins := pinBits (fun q => (pin q).st == .input && (pin q).acc && !low) 0
  let outs := pinBits (fun q => decide (2 ≤ dioMode d (8 * g + q)) && (pin q).level) 8
  let flt := pinBits (fun q => (pin q).st == .fault) 16
  if bit dst 16 = false then d
  else if runBit d (.dio g) then put1 d (fld dst 14 0) (w32 (ins + outs + flt)) low
  else put1 d (fld dst 14 0) 0 false

/-- t0: the entries of every page that has one. -/
def dioEntries (d : Dev) : Dev := ((List.range 16).filter (fun g => (tfind d.regs (DIO_IN_DST g)).isSome)).foldl dioEntry d

/-- DIO_STAT. -/
def dioStat (d : Dev) (n : Nat) : Nat :=
  let x := dioOf d n
  (match x.st with | .off => 0 | .input => 1 | .running => 2 | .safe => 3 | .fault => 4 | .held => 5)
    + 8 * b2n x.level + 16 * b2n x.ilim + 32 * b2n x.otemp + 64 * b2n x.under + 128 * x.fcause + 2048 * x.queue.length

/-- DIO_LVL: accepted input levels, and the levels read back at the outputs. -/
def dioLvl (d : Dev) (g : Nat) : Nat :=
  pinBits (fun q => (dioOf d (8 * g + q)).st == .input && (dioOf d (8 * g + q)).acc && !d.power.vfldLow) 0 + fld (rd d (DIO_LVL g)) 15 8 * 256

/-- A write to a digital I/O page (R166). -/
def dioWrite (d : Dev) (g off : Nat) (v : W32) : Dev :=
  let a := dioBase g + off
  let p : Page := .dio g
  let n := 8 * g + (off - 0x200) / 0x40
  if off = 0x100 then
    let old := if rdBit d a 16 then [fld (rd d a) 14 0] else []
    let new := if bit v 16 then [(fld v 14 0, true, (0 : W32))] else []
    routePut d p a [anyF 14 0, anyF 16 16] v [causeIf (runBit d p) 6] [] clsDin (8 * g) old new
  else if off < 0x200 ∨ 0x400 ≤ off then d
  else match (off - 0x200) % 0x40 with
    | 0x00 =>
      (cfgPut d p a [anyF 1 0, anyF 2 2, anyF 3 3, anyF 4 4, anyF 5 5, maxF 25 16 1000] v [causeIf ((dioOf d n).st != .off && fld v 1 0 != 0) 6] []).1
    | 0x04 => (cfgPut d p a [anyF 14 0, anyF 20 16] v [causeIf (dioMode d n == 2) 6] []).1
    | 0x08 => (cfgPut d p a [maxF 9 0 600] v [] []).1
    | 0x14 => dioSchWrite d n v
    | 0x18 | 0x1C => (cfgPut d p a wordF v [] []).1
    | _ => d

end Sys2Proof.Machine
end

