-- ==== Sys2Proof/Machine/Identity.lean ====
section
/-! DEFINITION. Identity commands, attestation, the key store and the ring registers (R62, R378, R430 to R433, R461). -/

namespace Sys2Proof.Machine

/-- ID_RING_WRITE: RING_POS and TOOL_TAG; both Daybook headers take them from the register, and a RING_SET record. -/
def idRing (d : Dev) (v : W32) : Dev :=
  let new := w32 (fld v 31 16 * 0x10000 + fld v 5 0)
  let old := rd d ID_RING
  report (wr d ID_RING new) 0x0012 0 [old, new]

/-- BODY_SHA256 and IMG_VER of a firmware bank. -/
def fwSha (d : Dev) (b : Nat) : List W8 := match tget none d.power.fw b with
  | some f => f.1
  | none => Config.factoryFw b
def fwVer (d : Dev) (b : Nat) : Nat := match tget none d.power.fw b with
  | some f => f.2
  | none => Config.factoryVer b

/-- A command of the identity page has concluded with a result (Table 18-3). -/
def idDone (d : Dev) (res : Nat) : Dev := bump (wrN d ID_RES res) ID_CMD_CNT

/-- Another command is refused while one runs (R433). -/
def idFree (d : Dev) (f : Dev → Dev) : Dev := if d.idBusy = .idle then f d else err d .id 0x1401 ID_CMD

/-- The 120 bytes that an attestation signs (R432). -/
def attMsg (d : Dev) (serial : Nat) : List W8 :=
  bytes32 ((List.range 8).map (fun i => rd d (ID_NONCE i))) ++ leBytes 8 serial ++ fwSha d d.power.bank ++ Config.dirDigest d.dir
    ++ leBytes 4 (rdN d (SF_CFG_CRC 0)) ++ leBytes 8 (rd64 d ID_ATT_BP) ++ leBytes 4 (pcc d % 2 ^ 24)

/-- ID_NOP. -/
def idNop (d : Dev) : Dev := idFree d (fun d => idDone d 0)

/-- ATTEST: latches BP_CNT and starts signing; accepted in Ready, Run and Held. -/
def idAttest (d : Dev) (serial : Nat) : Dev :=
  idFree d (fun d =>
    if d.power.phase = .on ∨ d.power.phase = .held then
      let d := wr64 d ID_ATT_BP (bp d)
      { d with idBusy := .attest (Config.sha256 (attMsg d serial)) }
    else err d .id 0x1401 ID_CMD)

/-- A word of 4 bytes as ID_ATT_SIG shows it: each half of the signature is big-endian from the first byte of its first word. -/
def sigWord (s : List W8) (i : Nat) : W32 := w32 (leNat ((s.drop (4 * i)).take 4))

/-- ATTEST_DONE: the signature appears. -/
def attestDone (d : Dev) : Dev :=
  match d.idBusy with
  | .attest dg =>
    let s := Config.moduleSign dg
    idDone ((List.range 16).foldl (fun d i => wr d (ID_ATT_SIG i) (sigWord s i)) { d with idBusy := .idle }) 0
  | .idle => d

/-- The certificate to install (ID_CERT_ADDR, ID_CERT_IN_LEN), read from the SRAM window; none where it cannot be parsed. -/
def certIn (d : Dev) : Option CertInfo :=
  let len := fld (rd d ID_CERT_IN_LEN) 10 0
  let at_ := rdN d ID_CERT_ADDR
  if 1 ≤ len ∧ len ≤ 1024 ∧ sramOk d at_ len = true then Config.parseCert (mbytes d.sram at_ len) else none

/-- The key commands run only in Ready and Run with UNLOCKED set (R431). -/
def keyLocked (d : Dev) : Bool := d.power.phase != .on || !d.sf.unlocked

/-- A slot takes a key. -/
def slotPut (d : Dev) (k kid types : Nat) (admin : Bool) : Dev :=
  wrN (wr64 d (ID_SLOT_KID k) kid) (ID_SLOT_USE k) (types % 65536 + 0x10000 + 0x20000 * b2n admin)

/-- The slot is in use. -/
def slotUsed (d : Dev) (k : Nat) : Bool := rdBit d (ID_SLOT_USE k) 16

/-- The SAFETY_CONFIG record of an accepted key change (R431). -/
def keyRecord (d : Dev) (op kid : Nat) : Dev := report d 0x0054 0 ([w32 (0x10 + op), rd d ID_RES, 0, 0, 0, 0] ++ pay64 kid)

/-- OWNER_SET: slot 1 takes the key of a certificate that chains to the vendor authority. -/
def ownerSet (d : Dev) : Dev :=
  idFree d (fun d =>
    if keyLocked d then idDone d 6
    else if slotUsed d 1 then idDone d 3
    else match certIn d with
      | none => idDone d 1
      | some c => match c.vendorChain, c.types with
        | true, some t => keyRecord (idDone (slotPut d 1 c.keyId t true) 0) 2 c.keyId
        | _, _ => idDone d 2)

/-- KEY_ADD: a slot from 2 to 15 takes the key of a certificate that the owner key has signed. -/
def keyAdd (d : Dev) (k : Nat) : Dev :=
  idFree d (fun d =>
    if keyLocked d then idDone d 6
    else if k % 16 < 2 then idDone d 5
    else if slotUsed d (k % 16) then idDone d 3
    else match certIn d with
      | none => idDone d 1
      | some c => match decide (slotUsed d 1 = true ∧ c.signer = rd64 d (ID_SLOT_KID 1)), c.types with
        | true, some t => keyRecord (idDone (slotPut d (k % 16) c.keyId t false) 0) 3 c.keyId
        | _, _ => idDone d 2)

/-- KEY_DEL empties a slot from 2 to 15. -/
def keyDel (d : Dev) (k : Nat) : Dev :=
  idFree d (fun d =>
    if keyLocked d then idDone d 6
    else if k % 16 < 2 then idDone d 5
    else if slotUsed d (k % 16) then
      let kid := rd64 d (ID_SLOT_KID (k % 16))
      keyRecord (idDone (wrN (wr64 d (ID_SLOT_KID (k % 16)) 0) (ID_SLOT_USE (k % 16)) 0) 0) 4 kid
    else idDone d 4)

/-- A write of ID_CMD. -/
def idCommand (d : Dev) (serial : Nat) (v : W32) : Dev :=
  match fld v 3 0 with
  | 0 => idNop d
  | 1 => idAttest d serial
  | 2 => ownerSet d
  | 3 => keyAdd d (fld v 11 8)
  | 4 => keyDel d (fld v 11 8)
  | _ => err d .id 0x1402 ID_CMD

end Sys2Proof.Machine
end

