-- ==== Sys2Proof/Machine/Lane.lean ====
section
/-! DEFINITION. The tick of a recipe lane (R67 to R92): slots, conditions, entries, actions, ramps, resume policies. -/

namespace Sys2Proof.Machine

/-! ### Actions (R76, R77) -/

/-- The value of SQ_ACT_REJ_LAST for an action of the current step, and for a slot, where [15:0] holds the current step index too
(DESIGN CHOICE, log entry 52). -/
def stepLoc (d : Dev) (l j : Nat) : Nat := laneIx d l + 0x10000 * (j % 256)
def slotLoc (d : Dev) (l k : Nat) : Nat := laneIx d l + 0x10000 * k + 0x1000000

/-- SIG_WRITE. -/
def actSigWrite (d : Dev) (l : Nat) (a : Act) : Dev := laneWrite d l a.a0 (w32 a.a1)
/-- AXIS_MOVE: the axis judges it in its next compute window (R180, R181). -/
def actAxisMove (d : Dev) (l : Nat) (a : Act) (loc : Nat) : Dev :=
  laneAxisMove d (a.a0 % 64) (a.a0 / 256 % 2 == 1) a.a2 l loc
/-- LOGIC_EVENT: the trigger takes effect at the next C2 (R216). -/
def actLogicEvent (d : Dev) (l : Nat) (a : Act) (loc : Nat) : Dev :=
  let p := a.a0 % 4
  let e := a.a0 / 4 % 8
  if triggerKnown d p e then { d with trigs := d.trigs ++ [⟨4 + l, 0, p, e⟩] } else actRej d l loc
/-- ARM_SCHED: T = TT(n) + DELAY, from the C2 of this BP on (R87); a slot whose payload is NONE refuses. -/
def actArmSched (d : Dev) (l : Nat) (a : Act) (loc : Nat) : Dev :=
  let k := a.a0 % 32
  if (nth (laneOf d l).img.sched k default).kind = 0 then actRej d l loc
  else setLane d l { laneOf d l with staged := (laneOf d l).staged.filter (·.1 != k) ++ [(k, (d.tt + a.a1) % 2 ^ 64)] }
/-- DISARM_SCHED. -/
def actDisarmSched (d : Dev) (l : Nat) (a : Act) : Dev := disarmSlot d l (a.a0 % 32)
/-- CRITICAL (R85). -/
def actCritical (d : Dev) (l : Nat) : Dev := setLane d l { laneOf d l with crit := true }

/-- An action entry (Table 3-11). -/
def laneAct (d : Dev) (l : Nat) (a : Act) (loc : Nat) : Dev :=
  match a.kind with
  | 1 => actSigWrite d l a
  | 2 => actAxisMove d l a loc
  | 3 => actLogicEvent d l a loc
  | 4 => actArmSched d l a loc
  | 5 => actDisarmSched d l a
  | 6 => actCritical d l
  | _ => d

/-- The actions of a step in entry order. -/
def stepActs (d : Dev) (l : Nat) (s : LStep) : Dev := s.acts.zipIdx.foldl (fun d e => laneAct d l e.1 (stepLoc d l e.2)) d

/-- Action j of the current step of a running lane, if it is of a kind: the rows ACT_*. An arm takes effect with it. -/
def laneActRow (kind : Nat) (d : Dev) (l j : Nat) : Dev :=
  match (laneStep d l).acts[j]? with
  | some a =>
    if (laneOf d l).st = .running ∧ held d = false ∧ a.kind = kind then
      let e := laneAct d l a (stepLoc d l j)
      if kind = 4 then commitArms e l else e
    else d
  | none => d

/-! ### Conditions (R75, R79) -/

/-- The condition of a step; mk are the markers as committed at the previous C2. -/
def condTrue (d : Dev) (mk : List Nat) (s : LStep) : Bool :=
  let v := sigVal d s.condSrc
  let m : W32 := v &&& w32 s.condMask
  let c := w32 s.condVal
  match s.condOp with
  | 1 => m == c
  | 2 => m != c
  | 3 => decide (c.toInt ≤ v.toInt)
  | 4 => decide (v.toInt ≤ c.toInt)
  | 5 => decide (c.toInt < v.toInt)
  | 6 => decide (v.toInt < c.toInt)
  | 7 => m != 0
  | 8 => m == 0
  | 9 => decide (s.condVal % 65536 ≤ nth mk s.condSrc 0)
  | 10 => nth mk s.condSrc 0 == s.condVal % 65536
  | _ => false

/-- The markers of the 16 lanes now. -/
def markersNow (d : Dev) : List Nat := (List.range 16).map (laneMarker d)

/-! ### Ramps (R82) -/

/-- Division rounded to nearest, ties away from zero. -/
def divAway (x : Int) (n : Nat) : Int :=
  if 0 ≤ x then (2 * x + n) / (2 * n : Nat) else -((2 * -x + n) / (2 * n : Nat))

/-- The end value of a ramp, in the format of its signal. -/
def rampEnd (d : Dev) (s : LStep) : Int := if sigWide d s.rampSig then (w32 s.param).toInt else sgn 16 s.param
/-- The value of a ramp signal as a number. -/
def rampNow (d : Dev) (n : Nat) : Int := if sigWide d n then (sigVal d n).toInt else sigQ d n

/-- v(k) is written at elapsed count k - 1. -/
def rampWrite (d : Dev) (l : Nat) (s : LStep) (k : Nat) : Dev :=
  let v0 := (laneOf d l).v0
  laneWrite d l s.rampSig (w32i (v0 + divAway ((rampEnd d s - v0) * (k : Int)) s.dur))

/-! ### Transitions (R83, R84) -/

/-- Passing from step i to the step after it: the open blocks that end on i, innermost first; the step to enter, and the
stack. -/
def passOn (img : LImg) (i : Nat) : List (Nat × Nat) → Nat × List (Nat × Nat)
  | [] => (i + 1, [])
  | (r, c) :: t =>
    if (nth img.steps r default).targetIx = i then
      if 1 < c then (r + 1, (r, c - 1) :: t) else passOn img i t
    else (i + 1, (r, c) :: t)

/-- The next step, and the stack set for it. -/
def laneNext (d : Dev) (l i : Nat) : Dev × Nat :=
  let x := laneOf d l
  let r := passOn x.img i x.stack
  (setLane d l { x with stack := r.2 }, r.1)

/-- A branch to a step: blocks that do not hold it are closed. -/
def laneJump (d : Dev) (l dst : Nat) : Dev × Nat :=
  let x := laneOf d l
  (setLane d l { x with stack := keepBlocks x.img x.stack dst }, dst)

/-- Make an entry (R78): registers, marker, critical mark, ramp start value, actions. -/
def laneMake (d : Dev) (l i : Nat) (chained : Bool) : Dev :=
  let x := laneOf d l
  let s := nth x.img.steps i default
  let d := setLane d l { x with entry := none, limit := false, chained := chained, mid := false, crit := false, v0 := if s.kind = 3 then rampNow d s.rampSig else x.v0 }
  let d := wrN (wrN (wrN d (SQ_STEP l) (s.name * 65536 + i)) (SQ_STEP_ID l) s.stepId) (SQ_ELAPSED l) 0
  let d := wr64 d (SQ_ENTRY_TT l) d.tt
  stepActs (if s.mark = 0 then d else wrN d (SQ_MARKER l) s.mark) l s

/-- What a step just entered does at its entry tick: the step that follows at once, or none. The write of a ramp comes after the
step's actions, and END leaves no open block (DESIGN CHOICE, log entry 52); a critical mark stays with the step (R85). -/
def entryGoes (d : Dev) (mk : List Nat) (l i : Nat) : Dev × Option Nat :=
  let s := nth (laneOf d l).img.steps i default
  match s.kind with
  | 4 =>
    if s.param = 0 then let r := laneNext d l s.targetIx; (r.1, some r.2)
    else (setLane d l { laneOf d l with stack := (i, s.param) :: (laneOf d l).stack }, some (i + 1))
  | 5 =>
    if s.condOp = 0 ∨ condTrue d mk s = true then let r := laneJump d l s.targetIx; (r.1, some r.2)
    else let r := laneNext d l i; (r.1, some r.2)
  | 6 => (setLane d l { laneOf d l with st := .done, stack := [] }, none)
  | 3 => if condTrue d mk s then (let r := laneNext d l i; (r.1, some r.2)) else (rampWrite d l s 1, none)
  | _ => if condTrue d mk s then (let r := laneNext d l i; (r.1, some r.2)) else (d, none)

/-- At most n entries; one more waits for the next tick, which marks it CHAINED (R80). -/
def laneEnter (mk : List Nat) (l : Nat) : Nat → Dev → Nat → Bool → Dev
  | 0, d, i, _ => setLane d l { laneOf d l with entry := some i, limit := true }
  | n + 1, d, i, ch =>
    let r := entryGoes (laneMake d l i ch) mk l i
    match r.2 with
    | some j => laneEnter mk l n r.1 j false
    | none => r.1

/-- A step that reaches its duration: the next step, or the timeout of a WAIT (Table 3-9). The step to enter, if any. -/
def durationGoes (d : Dev) (l : Nat) : Dev × Option Nat :=
  let s := laneStep d l
  if s.kind = 2 then
    if s.target = 0 then (laneFault d l 0x0102, none)
    else let r := laneJump d l s.targetIx; (r.1, some r.2)
  else let r := laneNext d l (laneIx d l); (r.1, some r.2)

/-- It is entered at this tick. -/
def durationEnd (d : Dev) (mk : List Nat) (l : Nat) : Dev :=
  let r := durationGoes d l
  match r.2 with
  | some j => laneEnter mk l 8 r.1 j false
  | none => r.1

/-- The current step at a later tick (R74, R78). -/
def laneAdvance (d : Dev) (mk : List Nat) (l : Nat) : Dev :=
  let s := laneStep d l
  let e := rdN d (SQ_ELAPSED l) + 1
  if condTrue d mk s then let r := laneNext d l (laneIx d l); laneEnter mk l 8 r.1 r.2 false
  else if s.dur ≠ 0 ∧ s.dur ≤ e then durationEnd d mk l
  else
    let d := wrN d (SQ_ELAPSED l) e
    if s.kind = 3 then rampWrite d l s (e + 1) else d

/-! ### Scheduled slots (R87 to R89, R92) -/

/-- A slot fires at this tick, TT(n) = tm. -/
def slotDue (d : Dev) (l k tm : Nat) : Bool :=
  (laneOf d l).late.contains k || (slotArmed d l k && decide (slotT d l k ≤ tm))

/-- The lane's slots fire in its state. -/
def slotsLive (x : Lane) : Bool := x.st == .running || x.st == .paused || x.st == .done

/-- SCHED_SLOT_FIRE: the payload is executed, once per arm. -/
def slotFire (d : Dev) (l k tm : Nat) : Dev :=
  if slotsLive (laneOf d l) && slotDue d l k tm then
    let x := laneOf d l
    let d := setLane (wrN d (SQ_SCH_STAT l k) 2) l { laneUnarm x k with staged := x.staged }
    laneAct d l (nth x.img.sched k default) (slotLoc d l k)
  else d

/-- The slots of a lane, 0 to 31 (R78). -/
def slotsFire (d : Dev) (l tm : Nat) : Dev := if slotsLive (laneOf d l) then (List.range 32).foldl (fun d k => slotFire d l k tm) d else d

/-- After a resume an armed slot whose time has come is late at this tick (R92). -/
def judgeSlots (d : Dev) (l : Nat) : Dev :=
  let d := (List.range 32).foldl (fun d k =>
    if slotArmed d l k && decide (slotT d l k ≤ d.tt) then lateShow (lateAction d l k) l else d) d
  setLane d l { laneOf d l with judge := false }

/-! ### Resume policies (R90 to R92) -/

/-- The step a resumed lane enters, if any, after SQ_RESUME_CNT, SQ_RESUME_INFO, SQ_OFF_TICKS and the record. -/
def applyResume (d : Dev) (l off : Nat) : Dev × Option Nat :=
  let s := laneStep d l
  let over_ := decide (s.maxOff ≠ 0) && decide (s.maxOff < off)
  let esc := over_ && s.recovery != 0
  let pol := if esc then 2 else s.resume
  let info := pol + 4 * b2n over_ + 8 * b2n esc + 16 * laneIx d l
  let offT := min off 0xFFFFFFFF
  let d := wrN (wrN (bump d (SQ_RESUME_CNT l)) (SQ_RESUME_INFO l) info) (SQ_OFF_TICKS l) offT
  let d := report d 0x0030 (pageOrigin (.sq l)) [w32 l, w32 info, w32 offT]
  let d := setLane d l { laneOf d l with resume := none }
  if pol = 0 then (d, none)
  else if pol = 1 then (d, some (laneIx d l))
  else let r := laneJump d l s.recoveryIx; (r.1, some r.2)

/-! ### The tick -/

/-- The work of elapsed 0 of a step that a paused lane has entered (R90). -/
def laneBegins (d : Dev) (mk : List Nat) (l : Nat) : Dev :=
  let r := entryGoes (setLane d l { laneOf d l with mid := false }) mk l (laneIx d l)
  match r.2 with
  | some j => laneEnter mk l 7 r.1 j false
  | none => r.1

/-- What a lane does in RUNNING or PAUSED at its tick, the slots done. -/
def laneWork (d : Dev) (mk : List Nat) (l : Nat) : Dev :=
  let x := laneOf d l
  match x.st with
  | .running =>
    match x.entry with
    | some i => laneEnter mk l 8 d i x.limit
    | none => if x.mid then laneBegins d mk l else laneAdvance d mk l
  | _ => d

/-- The first tick after a resume (R90): the policy, then the slots, then the step. -/
def resumeTick (d : Dev) (mk : List Nat) (l off : Nat) : Dev :=
  let r := applyResume d l off
  let d := slotsFire (judgeSlots r.1 l) l r.1.tt
  match r.2, (laneOf d l).st with
  | some i, .running => laneEnter mk l 8 d i false
  | some i, _ => let e := laneMake d l i false; setLane e l { laneOf e l with mid := true }
  | none, _ => laneWork d mk l

/-- A tick of a lane (R66, R67, R78): the commands it acts on, RUN, then slots and steps; mk are the markers as committed at the
previous C2. -/
def laneTick (mk : List Nat) (d : Dev) (l : Nat) : Dev :=
  let d := laneObeys (lateShow d l) l
  let x := laneOf d l
  let live := x.st == .running || x.st == .paused
  let d := if live && !runBit d (.sq l) then laneToLoaded d l else d
  let x := laneOf d l
  let d := match x.resume with
    | some off => if live then resumeTick d mk l off else d
    | none => laneWork (slotsFire (if x.judge then judgeSlots d l else d) l d.tt) mk l
  let st := (laneOf d l).st
  if safeReq d (.sq l) && st != .empty && st != .loading && st != .fault then laneSafe d l false else d

/-- The lanes that have anything to do, and their ticks (R14: ascending number); none in Held (R68). -/
def laneTicks (d : Dev) : Dev :=
  if held d then d else let mk := markersNow d; (tkeys d.lanes).foldl (laneTick mk) d

/-- A lane whose current step may end by its duration at the next tick. -/
def stepEnds (d : Dev) (l : Nat) : Bool :=
  let s := laneStep d l
  (laneOf d l).st == .running && !held d && (laneOf d l).entry.isNone && !(laneOf d l).mid && s.dur != 0
    && decide (s.dur ≤ rdN d (SQ_ELAPSED l) + 1)

/-- The step to enter is entered at the next tick, which is its tick of elapsed 0 (R74). -/
def endsNow (d : Dev) (l : Nat) : Dev :=
  let r := durationGoes d l
  match r.2 with
  | some j => setLane r.1 l { laneOf r.1 l with entry := some j }
  | none => r.1

/-- STEP_DURATION_END: the current step's duration ends at the coming tick. -/
def stepDurationEnd (d : Dev) (l : Nat) : Dev :=
  let s := laneStep d l
  if stepEnds d l = true ∧ (s.kind = 1 ∨ s.kind = 3) then endsNow d l else d

/-- WAIT_TIMEOUT: a WAIT step reaches its duration with its condition false. -/
def waitTimeout (d : Dev) (l : Nat) : Dev :=
  let s := laneStep d l
  if stepEnds d l = true ∧ s.kind = 2 ∧ condTrue d (markersNow d) s = false then endsNow d l else d

/-- SCHED_SLOT_FIRE at the next tick time. -/
def schedSlotFire (d : Dev) (l k : Nat) : Dev := if held d then d else slotFire d l k (nextTT d)

/-- LANE_OVERRUN of a lane that runs (R81, Table 3-5). -/
def laneOverrun (d : Dev) (l : Nat) : Dev := if (laneOf d l).st = .running ∧ held d = false then laneFault d l 0x0103 else d

/-- The device enters Held (R68); the entries of a lane in FAULT keep the SAFE attribute (R22). -/
def laneHold (d : Dev) (l : Nat) : Dev := laneSafe d l ((laneOf d l).st == .fault)

/-- SQ_STAT. -/
def laneStat (d : Dev) (l : Nat) : Nat :=
  let x := laneOf d l
  let s := laneStep d l
  let st := match x.st with
    | .empty => 0 | .loading => 1 | .loaded => 2 | .running => 3 | .paused => 4 | .done => 5 | .fault => 6
  let waiting := (x.st == .running || x.st == .paused) && decide (1 ≤ s.kind ∧ s.kind ≤ 3) && s.condOp != 0
  st + 8 * b2n x.crit + 16 * b2n waiting + 32 * b2n x.chained

/-- SQ_REP0 to SQ_REP3: depth 0 is the outermost open block. -/
def laneRep (d : Dev) (l n : Nat) : Nat := (nth (laneOf d l).stack.reverse n (0, 0)).2

end Sys2Proof.Machine
end

