-- ==== Sys2Proof/Machine/Loop.lean ====
section
/-! DEFINITION. Loop cells (chapters 04 and 05): the sample, supervision, compensation and learning. -/

namespace Sys2Proof.Machine

/-- A cell after a cold start. -/
def cell0 : Cell := ⟨.stopped, 0, false, false, false, false, false, 0, false, false, 0, false, [], [], 0, 0, 0, false⟩
def cellOf (d : Dev) (g : Nat) : Cell := tget cell0 d.cells g
def setCell (d : Dev) (g : Nat) (x : Cell) : Dev := { d with cells := tset cell0 d.cells g x }

/-- Quarantine of loop tile t. -/
def ltQuar (d : Dev) (t : Nat) : Bool := d.quar.contains t

/-- SAFE_REQ of a cell or of its tile (R95). -/
def cellSafeReq (d : Dev) (g : Nat) : Bool := safeReq d (.lc g) || safeReq d (.lt (g / 32))
/-- RUN of a cell and of its tile. -/
def cellRun (d : Dev) (g : Nat) : Bool := runBit d (.lc g) && runBit d (.lt (g / 32))

/-- DIV, PHASE of a cell; due (R33). -/
def cellDiv (d : Dev) (g : Nat) : Nat := fld (rd d (LC_RATE g)) 12 0
def cellDue (d : Dev) (g : Nat) : Bool := dueAt (bp d) (cellDiv d g) (fld (rd d (LC_RATE g)) 28 16)

/-- Signal numbers and 16-bit values of a cell's registers. -/
def src15 (d : Dev) (a : Nat) : Nat := fld (rd d a) 14 0
def q16 (d : Dev) (a : Nat) : Int := q15 (rd d a)
def n16 (d : Dev) (a : Nat) : Nat := fld (rd d a) 15 0
def lcSafe (d : Dev) (g : Nat) : Int := q16 d (LC_SAFE g)

/-- The output entries, and the first three entries of the publish block. -/
def lcOuts (d : Dev) (g : Nat) : List Nat :=
  (if rdBit d (LC_OUT_DST g) 16 then [src15 d (LC_OUT_DST g)] else []) ++ (if rdBit d (LC_PUB g) 16 then [src15 d (LC_PUB g) + 3] else [])
def lcPubs (d : Dev) (g : Nat) : List Nat := if rdBit d (LC_PUB g) 16 then (List.range 3).map (src15 d (LC_PUB g) + ·) else []

/-- The output entries take LC_SAFE at the next C2 (R100). -/
def lcOutSafe (d : Dev) (g : Nat) (safe : Bool) : Dev := (lcOuts d g).foldl (fun d n => put2 d n (ofQ15 (lcSafe d g)) safe) d

/-- The entries of a faulted or quarantined cell (R100). -/
def lcFaultEntries (d : Dev) (g : Nat) : Dev := (lcPubs d g).foldl (fun d n => put2 d n 0 true) (lcOutSafe d g true)

/-- A cell fault: entries, state, ERR_CODE (R126, Table 4-7). -/
def cellFault (d : Dev) (g code addr : Nat) : Dev :=
  err (setCell (lcFaultEntries d g) g { cellOf d g with st := .fault }) (.lc g) code addr

/-! ### Coefficients and delay states (R98, R104) -/

/-- Where coefficient register r (0 to 5) of section s of a set is kept: the window shows one set. -/
def coefAt (g set s r : Nat) : Nat := 0x100000000 + g * 0x400 + set * 0x100 + s * 0x20 + 4 * r

/-- Delay states of a section: X1, X2, Y1, Y2, RES. -/
def secState (d : Dev) (g s : Nat) : List Int :=
  let a := rd d (LC_STATE g (3 * s))
  let b := rd d (LC_STATE g (3 * s + 1))
  [sgn 16 (fld a 15 0), sgn 16 (fld a 31 16), sgn 16 (fld b 15 0), sgn 16 (fld b 31 16), q15 (rd d (LC_STATE g (3 * s + 2)))]

/-- Two 16-bit halves. -/
def pair16 (lo hi : Int) : W32 := w32 ((lo % 65536).toNat + 65536 * (hi % 65536).toNat)

/-- One section (R104, R107): output, saturation, new states X1 X2 Y1 Y2 RES. DESIGN CHOICE (log 53): the residue of a section
whose INTEG is 0 stays as it was, as the rule's steps leave it, where Table 4-5 lets it read 0. -/
def section_ (cs : List Int) (cfg : W32) (st : List Int) (x0 : Int) (hi lo : Bool) : Int × Bool × List Int :=
  let c (i : Nat) := nth cs i 0
  let s (i : Nat) := nth st i 0
  let integ := bit cfg 8
  let inv := bit cfg 9
  let acc := 4 * (c 0 * x0 + c 1 * s 0 + c 2 * s 1 - c 3 * s 2 - c 4 * s 3) * (2 ^ fld cfg 2 0 : Nat) + (if integ then s 4 else 0)
  let yr := (acc + 0x8000) / 65536
  let sat := decide (32767 < yr ∨ yr < -32768)
  let y := satQ15 yr
  let up := if inv then decide (y < s 2) else decide (s 2 < y)
  let dn := if inv then decide (s 2 < y) else decide (y < s 2)
  let hold := integ && ((hi && up) || (lo && dn))
  let y' := if hold then s 2 else y
  let res := if hold ∨ integ = false then s 4 else if sat then 0 else acc - y * 65536
  (y', sat, [x0, s 0, y', s 2, res])

/-- Section s of cell g in a set, on input x: output and saturation, delay states stored. -/
def runSection (g set : Nat) (hi lo : Bool) (a : Dev × Int × Bool) (s : Nat) : Dev × Int × Bool :=
  let d := a.1
  let cs := (List.range 5).map (fun r => q15 (rd d (coefAt g set s r)))
  let r := section_ cs (rd d (coefAt g set s 5)) (secState d g s) a.2.1 hi lo
  let n (i : Nat) := nth r.2.2 i 0
  let d := wr (wr (wr d (LC_STATE g (3 * s)) (pair16 (n 0) (n 1))) (LC_STATE g (3 * s + 1)) (pair16 (n 2) (n 3)))
    (LC_STATE g (3 * s + 2)) (pair16 (n 4) 0)
  (d, r.1, a.2.2 || r.2.1)

/-! ### Coefficient set (R116, R117) -/

/-- TH1 to TH3. -/
def thr (d : Dev) (g k : Nat) : Int := q16 d (LC_TH g k)
def nsets (d : Dev) (g : Nat) : Nat := fld (rd d (LC_SCHED g)) 17 16
def schedVal (d : Dev) (g : Nat) : Int := sigQ d (src15 d (LC_SCHED g))

/-- How many thresholds in use, moved by h, the value has reached. -/
def reached (d : Dev) (g : Nat) (s h : Int) : Nat := ((List.range (nsets d g)).filter (fun k => decide (thr d g k + h ≤ s))).length

/-- The set at a sample. -/
def nextSet (d : Dev) (g i : Nat) : Nat :=
  let s := schedVal d g
  let h : Int := n16 d (LC_HYST g)
  let up := reached d g s h
  let dn := reached d g s (-h)
  if i < up then up else if dn < i then dn else i

/-! ### Set-point (R111) -/

def spMode (d : Dev) (g : Nat) : Nat := fld (rd d (LC_SP_SRC g)) 18 17
def nestM (d : Dev) (g : Nat) : Nat := fld (rd d (LC_NEST g)) 10 0

/-- The cell that owns the set-point entry, if a loop cell does. -/
def outerOf (d : Dev) (g : Nat) : Option Nat :=
  let o := sigOwner d (src15 d (LC_SP_SRC g))
  if o.1 = clsCell then some o.2 else none

/-- SP of this sample, with the segment stored; a commit of the entry that starts one is taken up. -/
def setPoint (d : Dev) (g : Nat) : Dev × Int :=
  let n := sigQ d (src15 d (LC_SP_SRC g))
  if spMode d g = 2 then
    let m := nestM d g
    let x := cellOf d g
    let d := if x.fresh then
        wrN (wr (setCell d g { x with fresh := false }) (LC_NEST_ST g) (pair16 (q16 d (LC_SP_ACT g)) n)) (LC_NEST_J g) 0
      else d
    let st := rd d (LC_NEST_ST g)
    let p := sgn 16 (fld st 15 0)
    let q := sgn 16 (fld st 31 16)
    let j := min (rdN d (LC_NEST_J g) + 1) m
    (wrN d (LC_NEST_J g) j, p + (2 * (q - p) * j + m) / (2 * m : Nat))
  else (d, n)

/-! ### Compensation tables (R128 to R133) -/

/-- Entry e (0 to 767) of a slot of a tile: live, and commissioned. -/
def liveAt (t slot e : Nat) : Nat := (t * 8 + slot) * 1536 + e
def commAt (t slot e : Nat) : Nat := liveAt t slot (768 + e)
def ctabV (d : Dev) (k : Nat) : Int := (tget 0 d.ctab k).toInt
def setCtab (d : Dev) (k : Nat) (v : Int) : Dev := { d with ctab := tset 0 d.ctab k (BitVec.ofInt 16 v) }
def slotNoOf (d : Dev) (g : Nat) : Nat := fld (rd d (LC_COMP_CFG g)) 18 16
def bound (d : Dev) (g : Nat) : Bool := rdBit d (LC_COMP_CFG g) 20

/-- Position, and velocity, in their entries' widths. -/
def compPos (d : Dev) (g : Nat) : Int := (sigVal d (src15 d (LC_COMP_CFG g))).toInt
def compVel (d : Dev) (g : Nat) : Int := (sigVal d (src15 d (LC_FF_CFG g))).toInt
def vdb (d : Dev) (g : Nat) : Int := fld (rd d (LC_FR_CFG g)) 31 16

/-- Friction: entries i and j of a half, and the weight w (R131). -/
def fricIx (d : Dev) (g : Nat) : Nat × Nat × Int :=
  let sh := fld (rd d (LC_FR_CFG g)) 4 0
  let x := compPos d g - (rd d (LC_FR_ORG g)).toInt
  let k := x / (2 ^ sh : Nat)
  if x < 0 then (0, 1, 0)
  else if 255 ≤ k then (255, 255, 0)
  else (k.toNat, k.toNat + 1, if 8 ≤ sh then (x / (2 ^ (sh - 8) : Nat)) % 256 else (x * (2 ^ (8 - sh) : Nat)) % 256)

/-- Cogging: entries and weight (R133). -/
def cogIx (d : Dev) (g : Nat) : Nat × Nat × Int :=
  let pitch := rdN d (LC_COG_PITCH g)
  let x := (compPos d g - (rd d (LC_COG_ORG g)).toInt) % (pitch : Int)
  let u := (x * 65536 / pitch).toNat
  (u / 256, (u / 256 + 1) % 256, (u % 256 : Nat))

/-- A table's value: linear, rounded half up. -/
def tabValue (d : Dev) (g base : Nat) (ix : Nat × Nat × Int) : Int :=
  let a := ctabV d (liveAt (g / 32) (slotNoOf d g) (base + ix.1))
  let b := ctabV d (liveAt (g / 32) (slotNoOf d g) (base + ix.2.1))
  a + ((b - a) * ix.2.2 + 128) / 256

/-- The friction half of this sample (R132). -/
def fricHalf (d : Dev) (g : Nat) : Bool :=
  let v := compVel d g
  if vdb d g < v then false else if v < -vdb d g then true else (cellOf d g).neg

def fricBase (neg : Bool) : Nat := if neg then 256 else 0

/-! ### Drift (R138) -/

/-- DRIFT of the cell (Table 5-3). -/
def driftOn (d : Dev) (g : Nat) : Bool :=
  rdN d (LC_DRIFT_WARN g) != 0 && decide (rdN d (LC_DRIFT_WARN g) ≤ n16 d (LC_DRIFT_MAX g))

/-- A LEARN_DRIFT record where DRIFT has become set. -/
def driftRecord (was : Bool) (d : Dev) (g : Nat) : Dev :=
  if !was && driftOn d g then
    let e := fld (rd d (LC_DRIFT_MAX g)) 25 16
    let k := slotNoOf d g
    report d 0x0022 (pageOrigin (.lc g)) [w32 g, w32 e, w32i (ctabV d (liveAt (g / 32) k e)), w32i (ctabV d (commAt (g / 32) k e))]
  else d

/-- LC_DRIFT_MAX takes a drift and its entry. -/
def setDrift (d : Dev) (g dr e : Nat) : Dev := driftRecord (driftOn d g) (wrN d (LC_DRIFT_MAX g) (dr % 65536 + 65536 * e)) g

/-- |live - commissioned| of an entry. -/
def driftOf (d : Dev) (g e : Nat) : Nat :=
  (ctabV d (liveAt (g / 32) (slotNoOf d g) e) - ctabV d (commAt (g / 32) (slotNoOf d g) e)).natAbs

/-- One entry of the scan of a bound slot; at its end LC_DRIFT_MAX takes the greatest (R138). -/
def driftScan (d : Dev) (g : Nat) : Dev :=
  let x := cellOf d g
  let dr := driftOf d g x.scanPos
  let mx := if x.scanMax < dr then dr else x.scanMax
  let ix := if x.scanMax < dr then x.scanPos else x.scanIx
  if x.scanPos = 767 then setDrift (setCell d g { x with scanPos := 0, scanMax := 0, scanIx := 0 }) g mx ix
  else setCell d g { x with scanPos := x.scanPos + 1, scanMax := mx, scanIx := ix }

/-- DRIFT_SCAN_END: the last entry of a scan. -/
def driftScanEnd (d : Dev) (g : Nat) : Dev := if bound d g ∧ (cellOf d g).scanPos = 767 then driftScan d g else d

/-! ### Learning (R134 to R137) -/

/-- LC_LRN_STAT: budget used, rows, LEARNING. -/
def budUsed (d : Dev) (g : Nat) : Nat := fld (rd d (LC_LRN_STAT g)) 15 0
def setLrn (d : Dev) (g used rows : Nat) (on : Bool) : Dev := wrN d (LC_LRN_STAT g) (used + 65536 * rows + 0x1000000 * b2n on)

/-- BUD_USED returns to 0 (R136). -/
def budgetZero (d : Dev) (g : Nat) : Dev := wrFld d (LC_LRN_STAT g) 15 0 0
/-- LEARN_BUDGET_RESET: the start of a BP whose BP_CNT mod 100,000 is 0, before its updates: the BP that follows (R136). -/
def budgetReset (d : Dev) (g : Nat) : Dev := if (bp d + 1) % 100000 = 0 then budgetZero d g else d
/-- ROWS returns to 0 at an epoch boundary (R136). -/
def rowsReset (d : Dev) (g : Nat) : Dev := setCell (wrFld d (LC_LRN_STAT g) 20 16 0) g { cellOf d g with rows := [] }

/-- The new value of an entry and whether the drift bound changed it (R135). -/
def learnTo (d : Dev) (g e : Nat) (delta : Int) : Int × Bool :=
  let k := slotNoOf d g
  let t := ctabV d (liveAt (g / 32) k e)
  let c := ctabV d (commAt (g / 32) k e)
  let lim : Int := n16 d (LC_DRIFT_LIM g)
  let b := clampI (c - lim) (c + lim) (t + delta)
  (clampI (-32768) 32767 b, b != t + delta)

/-- Store a learned entry; its drift shows at once where it exceeds LC_DRIFT_MAX (R138). -/
def learnStore (d : Dev) (g e : Nat) (v : Int) : Dev :=
  let d := setCtab d (liveAt (g / 32) (slotNoOf d g) e) v
  if n16 d (LC_DRIFT_MAX g) < driftOf d g e then setDrift d g (driftOf d g e) e else d

/-- An update of the learned table from a residual (R135, R136). -/
def learn (d : Dev) (g : Nat) (y e : Int) : Dev :=
  let cfg := rd d (LC_LRN_CFG g)
  let fr := fld cfg 1 0 == 1
  let ix := if fr then fricIx d g else cogIx d g
  let base := if fr then fricBase (cellOf d g).neg else 512
  let r := (if bit cfg 2 then e else y) * (if bit cfg 3 then -1 else 1)
  let s := 8 + fld cfg 8 4
  let step : Int := fld cfg 23 16
  let dl (w : Int) : Int := clampI (-step) step ((r * w + (2 ^ (s - 1) : Nat)) / (2 ^ s : Nat))
  let a := base + ix.1
  let b := base + ix.2.1
  let na := learnTo d g a (dl (256 - ix.2.2))
  let nb := learnTo d g b (dl ix.2.2)
  let two := decide (a ≠ b)
  let d := if na.2 || (two && nb.2) then bump d (LC_LRN_LIM_CNT g) else d
  let slot := slotNoOf d g
  let ca := (na.1 - ctabV d (liveAt (g / 32) slot a)).natAbs
  let cb := if two then (nb.1 - ctabV d (liveAt (g / 32) slot b)).natAbs else 0
  let x := cellOf d g
  let rows := x.rows.insert (a / 32)
  let rows' := (if cb = 0 then (if ca = 0 then x.rows else rows) else (if ca = 0 then x.rows else rows).insert (b / 32))
  let used := budUsed d g
  if 4 < rows'.length ∨ rdN d (LC_LRN_BUDGET g) < used + ca + cb then
    setLrn (bump d (LC_LRN_SKIP_CNT g)) g used x.rows.length false
  else
    let d := learnStore d g a na.1
    let d := if two then learnStore d g b nb.1 else d
    let d := setCell d g { cellOf d g with rows := rows' }
    setLrn (bump d (LC_LRN_UPD g)) g (used + ca + cb) rows'.length true

/-- Everything R134 asks before an update. -/
def mayLearn (d : Dev) (g : Nat) (clamped : Bool) : Bool :=
  let v := compVel d g
  fld (rd d (LC_LRN_CFG g)) 1 0 != 0 && bound d g && (cellOf d g).st == .running && !cellFrozen d g && !cellSafeReq d g
  && !clamped && !(cellOf d g).out && (decide (vdb d g < v) || decide (v < -vdb d g))
  && !(sigSafe d (src15 d (LC_PV_SRC g)) || sigSafe d (src15 d (LC_SP_SRC g)) || sigSafe d (src15 d (LC_COMP_CFG g)) || sigSafe d (src15 d (LC_FF_CFG g)))

/-! ### Supervision (R122 to R127) -/

def supMode (d : Dev) (g : Nat) : Nat := fld (rd d (LC_SUP_CFG g)) 1 0

/-- The model's step (R124), started from the process value at the first sample (R125): m and the residual r. -/
def modelStep (d : Dev) (g : Nat) (pv : Int) : Dev × Int :=
  let x := cellOf d g
  let m0 := if x.mNew then pv * 65536 else x.m
  let gain := rd d (LC_MDL_GAIN g)
  let off := rd d (LC_MDL_OFF g)
  let t := 4 * q15 gain * nth x.dl (fld off 21 16) 0 * (2 ^ fld gain 18 16 : Nat) + q15 off * 65536
  let t := clampI (-2147483648) 2147483647 t
  let m := m0 + ((t - m0) * (n16 d (LC_MDL_ALPHA g) : Int) + 0x8000) / 65536
  (setCell (wr d (LC_MDL_Y g) (w32i m)) g { x with m := m, mNew := false }, satQ15 (pv - (m + 0x8000) / 65536))

/-- A supervision trip (R126). -/
def supTrip (d : Dev) (g : Nat) (x pv sp w : Int) : Dev :=
  let tm := (cellOf d g).timer
  let code := if supMode d g = 1 then 0x0210 else 0x0211
  let d := wr d (LC_SUP_TRIP g) (pair16 x tm)
  let d := cellFault d g code (rdN d (LC_SAMPLES g))
  report d 0x0021 (pageOrigin (.lc g)) [w32 g, w32 (supMode d g), w32i x, w32 tm, w32i pv, w32i sp, w32i w]

/-- The supervisor of a sample (R122, R123): timer and OUT, and whether it trips. -/
def supervise (d : Dev) (g : Nat) (x : Int) : Dev × Bool :=
  let c := cellOf d g
  let out := decide ((n16 d (LC_SUP_LIM g) : Int) < (x.natAbs : Int)) && !(supMode d g == 1 && cellSafeReq d g)
  let tm := if out && c.out then min (c.timer + cellDiv d g) 65535 else 0
  (setCell (wr d (LC_SUP_X g) (pair16 x 0)) g { c with timer := tm, out := out }, out && decide (n16 d (LC_SUP_TIME g) ≤ tm))

/-! ### The sample (R103 to R109) -/

/-- The velocity term of FF (R105). -/
def velTerm (d : Dev) (g : Nat) : Int :=
  let c := rd d (LC_FF_CFG g)
  if bit c 16 then satQ15 ((4 * q16 d (LC_KVFF g) * sigQ d (fld c 14 0) * (2 ^ fld c 22 20 : Nat) + 0x8000) / 65536) else 0

/-- Clamp states that inner cells with AWL pass, as committed (R107). -/
def innerClamp (d : Dev) (g : Nat) (pick : Cell → Bool) : Bool :=
  rdBit d (LC_OUT_DST g) 16 && d.cells.any (fun e =>
    pick e.2 && rdBit d (LC_NEST e.1) 16 && src15 d (LC_SP_SRC e.1) == src15 d (LC_OUT_DST g))

/-- The output stage (R106): w, CLAMP_HI, CLAMP_LO, SLEW_LIM. -/
def outStage (d : Dev) (g : Nat) (u : Int) : Int × Bool × Bool × Bool :=
  let w1 := min (max u (q16 d (LC_OUT_MIN g))) (q16 d (LC_OUT_MAX g))
  let sl : Int := n16 d (LC_OUT_SLEW g)
  let p := q16 d (LC_OUT_PREV g)
  let w2 := if sl = 0 then w1 else min (max w1 (p - sl)) (p + sl)
  let w := if cellSafeReq d g then lcSafe d g else w2
  (w, decide (w < u), decide (u < w), w2 != w1)

/-- The feed-forward values of a sample: friction and cogging, shown in LC_COMP_ACT; the half is kept. -/
def compStep (d : Dev) (g : Nat) : Dev × Int :=
  let c := rd d (LC_FF_CFG g)
  let neg := fricHalf d g
  let d := setCell d g { cellOf d g with neg := neg }
  let fr := if bit c 17 then tabValue d g (fricBase neg) (fricIx d g) else 0
  let cg := if bit c 18 then tabValue d g 512 (cogIx d g) else 0
  (wr d (LC_COMP_ACT g) (pair16 fr cg), fr + cg)

/-- After the sections: limit, publish, supervise, learn. DESIGN CHOICE (log 53): a section whose tentative output saturates
counts in LC_SAT_CNT although it is held and outputs Y1. -/
def finishSample (d : Dev) (g : Nat) (pv sp e y ff : Int) (sat : Bool) : Dev :=
  let o := outStage d g (y + ff)
  let w := o.1
  let d := if sat then bump d (LC_SAT_CNT g) else d
  let d := wr d (LC_OUT_PREV g) (pair16 w 0)
  let d := setCell d g { cellOf d g with hi := o.2.1, lo := o.2.2.1, slew := o.2.2.2 }
  let pub := src15 d (LC_PUB g)
  let d := if rdBit d (LC_PUB g) 16 then
      put2 (put2 (put2 (put2 d pub (ofQ15 pv) false) (pub + 1) (ofQ15 sp) false) (pub + 2) (ofQ15 e) false) (pub + 3) (ofQ15 w) false else d
  let d := if rdBit d (LC_OUT_DST g) 16 then put2 d (src15 d (LC_OUT_DST g)) (ofQ15 w) false else d
  let mode := supMode d g
  let s := if mode = 0 then (d, false, (0 : Int))
    else if mode = 1 then (let r := supervise d g e; (r.1, r.2, e))
    else (let k := modelStep d g pv; let r := supervise k.1 g k.2; (r.1, r.2, k.2))
  let d := setCell s.1 g { cellOf s.1 g with dl := (w :: (cellOf s.1 g).dl).take 64 }
  if s.2.1 then supTrip (wrFld d (LC_LRN_STAT g) 24 24 0) g s.2.2 pv sp w
  else if mayLearn d g (o.2.1 || o.2.2.1 || o.2.2.2) then learn d g y e
  else wrFld d (LC_LRN_STAT g) 24 24 0

/-- The entry shows SAFE and its SAFE_ACT is set (R109). -/
def srcSafe (d : Dev) (a : Nat) : Bool := rdBit d a 16 && sigSafe d (src15 d a)

/-- One sample of a cell (R103). -/
def cellSample (d : Dev) (g : Nat) : Dev :=
  if srcSafe d (LC_PV_SRC g) ∨ srcSafe d (LC_SP_SRC g) then
    fieldFault (cellFault (wrFld d (LC_LRN_STAT g) 24 24 0) g 0x0203 0) (.lc g) 0x0203 0 0
  else
    let d := wr64 d (LC_SAMPLES g) ((rd64 d (LC_SAMPLES g) + 1) % 2 ^ 64)
    let pv := sigQ d (src15 d (LC_PV_SRC g))
    let r := setPoint d g
    let sp := r.2
    let x := cellOf r.1 g
    let set := nextSet r.1 g x.aset
    let d := if set = x.aset then r.1 else bump (setCell r.1 g { x with aset := set }) (LC_SW_CNT g)
    let e := satQ15 (sp - pv)
    let d := wr d (LC_SP_ACT g) (pair16 sp 0)
    let c := compStep d g
    let ff := satQ15 (velTerm d g + c.2)
    let d := wr c.1 (LC_FF_ACT g) (pair16 ff 0)
    let hi := x.hi || innerClamp d g (·.hiC)
    let lo := x.lo || innerClamp d g (·.loC)
    let k := (List.range (fld (rd d (LC_SEC g)) 3 0)).foldl (runSection g set hi lo) (d, e, false)
    finishSample k.1 g pv sp e k.2.1 ff k.2.2

/-- The running cells that are due in this BP, in ascending number (R14). -/
def dueCells (d : Dev) : List Nat := (tkeys d.cells).filter (fun g => (cellOf d g).st == .running && cellDue d g)

/-- LT_CYC of every loop tile: 67 cycles a due cell and 6 (R110, Table 4-8). -/
def tileCycles (d : Dev) (due : List Nat) : Dev :=
  (List.range 64).foldl (fun d t =>
    let n := 67 * (due.filter (fun g => g / 32 == t)).length + 6
    wrN d (LT_CYC t) (n + 65536 * max n (fld (rd d (LT_CYC t)) 27 16))) d

/-- The compute window of the loop tiles: in Held no cell computes (R102). -/
def loopTick (d : Dev) : Dev :=
  let due := if held d then [] else dueCells d
  tileCycles (due.foldl cellSample d) due

/-- C2 of this BP commits an entry on behalf of the loop cell that owns it (R26, R111). -/
def spCommits (d : Dev) (g : Nat) : Bool :=
  spMode d g == 2 && (outerOf d g).isSome && d.stage2.any (fun w => w.n == src15 d (LC_SP_SRC g))

/-- What a cell holds of this C2, taken before its values are committed: the clamp flags that outer cells see from the next BP on
(R107), and whether the set-point entry is committed (R111). -/
def loopCommit (d : Dev) : Dev :=
  (tkeys d.cells).foldl (fun d g =>
    let x := cellOf d g
    setCell d g { x with hiC := x.hi, loC := x.lo, fresh := x.fresh || spCommits d g }) d

/-- The cells whose register at an offset is listed: it does not hold its reset value. -/
def cellsListing (d : Dev) (off : Nat) : List Nat :=
  (tkeys d.regs).filterMap (fun a => match locate a with
    | some (.lc g, o) => if o = off then some g else none
    | _ => none)

/-- The cells that a slot is bound to: budget second and drift scan go on in every BP. -/
def boundCells (d : Dev) : List Nat := (cellsListing d 0x1A8).filter (bound d)

/-! ### States (R96, R100 to R102, R121) -/

/-- The first failing start check. -/
def startFails (d : Dev) (g : Nat) : Option Nat :=
  let m := nestM d g
  let div := cellDiv d g
  let md := spMode d g
  let lrn := rd d (LC_LRN_CFG g)
  let ffc := rd d (LC_FF_CFG g)
  let tbl := fld lrn 1 0
  let badOuter := match outerOf d g with
    | some o => cellDiv d o != div * m
    | none => true
  let badInner := rdBit d (LC_OUT_DST g) 16 && d.cells.any (fun e =>
    e.2.st == .running && spMode d e.1 != 0 && src15 d (LC_SP_SRC e.1) == src15 d (LC_OUT_DST g) && cellDiv d e.1 * nestM d e.1 != div)
  firstOf [
    causeIf (md != 0 && m == 0) 7,
    causeIf (md != 0 && badOuter) 0x0201,
    causeIf badInner 0x0201,
    causeIf (decide (2 ≤ nsets d g) && decide (thr d g 1 ≤ thr d g 0) || nsets d g == 3 && decide (thr d g 2 ≤ thr d g 1)) 0x0204,
    causeIf (supMode d g != 0 && rdN d (LC_SUP_LIM g) == 0) 7,
    causeIf (supMode d g == 2 && rdN d (LC_MDL_ALPHA g) == 0) 7,
    causeIf ((bit ffc 17 || bit ffc 18 || tbl != 0) && !bound d g) 0x0221,
    causeIf (bit ffc 18 && rdN d (LC_COG_PITCH g) == 0) 7,
    causeIf (tbl == 1 && !bit ffc 17 || tbl == 2 && !bit ffc 18) 5,
    causeIf (tbl != 0 && (fld lrn 23 16 == 0 || rdN d (LC_LRN_BUDGET g) == 0 || rdN d (LC_DRIFT_LIM g) == 0)) 7]

/-- Entry into RUNNING (Table 4-7, R117, R125, R132). -/
def cellStart (d : Dev) (g : Nat) : Dev :=
  let d := if rdBit d (LC_SEC g) 8 then d else (List.range 24).foldl (fun d i => wr d (LC_STATE g i) 0) d
  let sp := sigQ d (src15 d (LC_SP_SRC g))
  let d := wr (wr d (LC_OUT_PREV g) (pair16 (lcSafe d g) 0)) (LC_SP_ACT g) (pair16 sp 0)
  let d := wrN (wr d (LC_NEST_ST g) (pair16 sp sp)) (LC_NEST_J g) (nestM d g)
  let d := wrN (wr64 d (LC_SAMPLES g) 0) (LC_LRN_UPD g) 0
  let x := cellOf d g
  setCell d g { x with
    st := .running, aset := reached d g (schedVal d g) 0, hi := false, lo := false, hiC := false, loC := false, fresh := false,
    timer := 0, out := false, neg := decide (compVel d g < 0), mNew := true, dl := List.replicate 64 (lcSafe d g) }

/-- RUNNING to STOPPED, and FAULT to STOPPED. -/
def cellStop (d : Dev) (g : Nat) : Dev :=
  let x := cellOf d g
  let d := lcOutSafe d g false
  let d := if x.st = .fault then (lcPubs d g).foldl (fun d n => put2 d n (sigVal d n) false) d else d
  setCell d g { x with st := .stopped }

/-- One evaluation of Table 4-7 in a configuration window; a RUNNING cell does not move in Held (R102). -/
def cellEval (d : Dev) (g : Nat) : Dev :=
  match (cellOf d g).st with
  | .stopped =>
    if cellRun d g then
      match startFails d g with
      | some c => err (wrBit d (lcBase g + BLK_CTRL) 0 false) (.lc g) c (lcBase g + BLK_CTRL)
      | none => cellStart d g
    else d
  | .running => if held d || cellRun d g then d else cellStop d g
  | .fault => if runBit d (.lc g) then d else cellStop d g
  | .quarantined => d

/-- The cells whose transitions a configuration window evaluates: those listed, and those whose RUN is set. -/
def evalCells (d : Dev) : List Nat :=
  let runs := cellsListing d BLK_CTRL
  (runs ++ (tkeys d.cells).filter (fun g => !runs.contains g))

/-- DESIGN CHOICE (log 53): the cells are evaluated one after another, those with RUN written first in ascending number, so that a
cell's start checks see the starts before it in the same window. -/
def cellsEval (d : Dev) : Dev := (evalCells d).foldl cellEval d

/-- Quarantine of a loop tile (R96), its mark: code and address, record. -/
def ltQuarMark (d : Dev) (t code addr : Nat) : Dev :=
  tileQuar (err { d with quar := d.quar ++ [t] } (.lt t) code addr) (.lt t) code addr

/-- Quarantine of a loop tile, its cells: state and entries. -/
def ltQuarCells (d : Dev) (t : Nat) : Dev :=
  ((List.range 32).map (32 * t + ·)).foldl (fun d g => setCell (lcFaultEntries d g) g { cellOf d g with st := .quarantined }) d

/-- Quarantine of a loop tile that is not in quarantine (R96). -/
def ltQuarantine (d : Dev) (t code addr : Nat) : Dev := if ltQuar d t then d else ltQuarCells (ltQuarMark d t code addr) t

/-- The device enters Held (R102). -/
def cellHold (d : Dev) (g : Nat) : Dev := if (cellOf d g).st = .running then lcOutSafe d g false else d

/-- LC_STAT. -/
def lcStat (d : Dev) (g : Nat) : Nat :=
  let x := cellOf d g
  let st := match x.st with
    | .stopped => 0 | .running => if held d then 4 else 1 | .fault => 2 | .quarantined => 3
  let seg := spMode d g == 2 && decide (rdN d (LC_NEST_J g) < nestM d g)
  x.aset + 4 * b2n x.hi + 8 * b2n x.lo + 16 * b2n x.slew + 32 * b2n (cellFrozen d g) + 64 * b2n seg + 256 * st

end Sys2Proof.Machine
end

