-- ==== Sys2Proof/Machine/LoopCfg.lean ====
section
/-! DEFINITION. Writes to loop tile and loop cell pages and to the table slots (R95 to R100, R120, R129, R130, R139). -/

namespace Sys2Proof.Machine

/-- A RUNNING or HELD cell refuses the write (Table 4-6, CFG_RUNNING). -/
def lcBusy (d : Dev) (g : Nat) : Option Nat := causeIf ((cellOf d g).st == .running) 6
/-- A frozen RUNNING or HELD cell refuses it (R114). -/
def lcFrozen (d : Dev) (g : Nat) : Option Nat := causeIf ((cellOf d g).st == .running && cellFrozen d g) 0x0202

/-- A plain configuration write of a cell: refused while running, or while frozen, or by its values. -/
def lcPut (d : Dev) (g a : Nat) (fs : List Fld) (v : W32) (before after : List (Option Nat)) : Dev := (cfgPut d (.lc g) a fs v before after).1

/-- LC_SAFE is what the output entries of a stopped, safe or faulted cell hold (R100). -/
def lcSafeWrite (d : Dev) (g : Nat) (v : W32) : Dev :=
  let d := lcPut d g (LC_SAFE g) [anyF 15 0] v [] []
  match (cellOf d g).st with
  | .running => if cellSafeReq d g || held d then lcOutSafe d g false else d
  | .stopped => lcOutSafe d g false
  | _ => lcOutSafe d g true

/-- In FAULT and QUARANTINED the entries of a cell carry SAFE, those it claims now as well (R100). -/
def lcClaimed (d e : Dev) (g : Nat) (ns : List (Nat × Bool × W32)) : Dev :=
  if (cellOf d g).st ∉ [.fault, .quarantined] ∨ errSeq e (.lc g) ≠ errSeq d (.lc g) then e
  else ns.foldl (fun e n => commitSig e ⟨n.1, n.2.2, true⟩) e

/-- LOOP_ROUTE_WRITE: LC_OUT_DST (R100, R463). DESIGN CHOICE (log 53): an entry that LC_PUB of the same cell names too is accepted,
its owner being the same, and a rewrite of either register releases it for both. -/
def lcOutDstWrite (d : Dev) (g : Nat) (v : W32) : Dev :=
  let a := LC_OUT_DST g
  let old := if rdBit d a 16 then [src15 d a] else []
  let new := if bit v 16 then [(fld v 14 0, false, ofQ15 (lcSafe d g))] else []
  lcClaimed d (routePut d (.lc g) a [anyF 14 0, anyF 16 16] v [lcBusy d g] [] clsCell g old new) g new

/-- LOOP_ROUTE_WRITE: LC_PUB. -/
def lcPubWrite (d : Dev) (g : Nat) (v : W32) : Dev :=
  let a := LC_PUB g
  let four (b : Nat) := [b, b + 1, b + 2, b + 3]
  let old := if rdBit d a 16 then four (src15 d a) else []
  let b := fld v 14 0
  let new := if bit v 16 then [(b, false, (0 : W32)), (b + 1, false, 0), (b + 2, false, 0), (b + 3, false, ofQ15 (lcSafe d g))] else []
  lcClaimed d (routePut d (.lc g) a [maxF 14 0 32764, anyF 16 16] v [lcBusy d g] [] clsCell g old new) g new

/-- COEF_WRITE: coefficient register r of section s of a set (R98, Table 4-6, R112). -/
def coefWrite (d : Dev) (g set s r : Nat) (v : W32) : Dev :=
  let a := lcBase g + 0x200 + 0x20 * s + 4 * r
  let run := (cellOf d g).st == .running
  let shut := causeIf (run && (r == 5 || set != 0 || nsets d g != 0)) 6
  let fs := if r = 5 then [anyF 2 0, anyF 8 8, anyF 9 9] else [anyF 15 0]
  if 5 < r then d
  else match firstOf [shut, lcFrozen d g] with
    | some c => err d (.lc g) c a
    | none => wr d (coefAt g set s r) (onlyFlds fs v)

/-- COMP_BIND_WRITE: LC_COMP_CFG (R129). -/
def compBindWrite (d : Dev) (g : Nat) (v : W32) : Dev :=
  let slot := fld v 18 16
  let other := (boundCells d).any (fun h => h != g && h / 32 == g / 32 && slotNoOf d h == slot)
  lcPut d g (LC_COMP_CFG g) [anyF 14 0, anyF 18 16, anyF 20 20] v [lcBusy d g] [causeIf (bit v 20 && other) 0x0220]

/-- What LC_COMP_CMD asks of the cell first (R139, R47). -/
def compGuard (d : Dev) (g : Nat) : Option Nat :=
  firstOf [causeIf ((cellOf d g).st != .stopped) 6, causeIf (!bound d g) 0x0221]

/-- A command of LC_COMP_CMD where it may act, else its refusal. -/
def compDo (d : Dev) (g : Nat) (f : Dev → Dev) : Dev := match compGuard d g with
  | some c => err d (.lc g) c (LC_COMP_CMD g)
  | none => f d

/-- RESET_LIVE (R139). -/
def resetLive (d : Dev) (g : Nat) : Dev := compDo d g (fun d =>
  let k := slotNoOf d g
  let former := n16 d (LC_DRIFT_MAX g)
  let d := (List.range 768).foldl (fun d e => setCtab d (liveAt (g / 32) k e) (ctabV d (commAt (g / 32) k e))) d
  report (wrN d (LC_DRIFT_MAX g) 0) 0x0023 (pageOrigin (.lc g)) [w32 g, w32 k, w32 former])

/-- ADOPT (R139). -/
def adopt (d : Dev) (g : Nat) : Dev := compDo d g (fun d =>
  let k := slotNoOf d g
  let former := n16 d (LC_DRIFT_MAX g)
  let d := (List.range 768).foldl (fun d e => setCtab d (commAt (g / 32) k e) (ctabV d (liveAt (g / 32) k e))) d
  report (wrN d (LC_DRIFT_MAX g) 0) 0x0024 (pageOrigin (.lc g)) [w32 g, w32 k, w32 former])

/-- A write of LC_COMP_CMD: state and binding come before the value of OP (R47). -/
def compCommand (d : Dev) (g : Nat) (v : W32) : Dev :=
  match fld v 1 0 with
  | 0 => compDo d g id
  | 1 => resetLive d g
  | 2 => adopt d g
  | _ => compDo d g (fun d => err d (.lc g) 5 (LC_COMP_CMD g))

/-- A running cell keeps what learning needs (R121). -/
def lrnZero (d : Dev) (g : Nat) (cfg : W32) (bud lim : Nat) : Option Nat :=
  causeIf ((cellOf d g).st == .running && fld cfg 1 0 != 0 && (fld cfg 23 16 == 0 || bud == 0 || lim == 0)) 7

/-- A write to a cell page, applied in a configuration window (R99); set is the coefficient set the write was taken with. -/
def lcWrite (d : Dev) (g off : Nat) (v : W32) (set : Nat) : Dev :=
  let a := lcBase g + off
  let busy := lcBusy d g
  let fz := lcFrozen d g
  let div := fld v 12 0
  match off with
  | 0x100 => lcPut d g a [⟨12, 0, 1, 4096⟩, ⟨28, 16, 0, div - 1⟩] v [busy] []
  | 0x104 => lcPut d g a [anyF 14 0, anyF 16 16] v [busy] []
  | 0x108 => lcPut d g a [anyF 14 0, anyF 16 16, maxF 18 17 2] v [busy] []
  | 0x10C => lcPut d g a [maxF 10 0 1024, anyF 16 16] v [busy] []
  | 0x110 => lcPut d g a [anyF 14 0, anyF 16 16, anyF 17 17, anyF 18 18, anyF 22 20] v [busy] []
  | 0x114 => lcPut d g a [anyF 15 0] v [fz] []
  | 0x118 => lcOutDstWrite d g v
  | 0x11C => lcPubWrite d g v
  | 0x120 => lcPut d g a [anyF 15 0] v [] [causeIf (decide (q15 v < q16 d (LC_OUT_MIN g))) 0x0205]
  | 0x124 => lcPut d g a [anyF 15 0] v [] [causeIf (decide (q16 d (LC_OUT_MAX g) < q15 v)) 0x0205]
  | 0x128 => lcPut d g a [maxF 15 0 0x7FFF] v [] []
  | 0x12C => lcSafeWrite d g v
  | 0x130 => lcPut d g a [anyF 14 0, anyF 17 16] v [busy] []
  | 0x134 | 0x138 | 0x13C => lcPut d g a [anyF 15 0] v [fz] []
  | 0x140 => lcPut d g a [maxF 15 0 0x3FFF] v [fz] []
  | 0x144 => lcPut d g a [maxF 3 0 8, anyF 8 8] v [busy] []
  | 0x148 => lcPut d g a [anyF 1 0] v [] []
  | 0x180 => lcPut d g a [maxF 1 0 2] v [busy] []
  | 0x184 => lcPut d g a [maxF 15 0 0x7FFF] v [] [causeIf ((cellOf d g).st == .running && supMode d g != 0 && fld v 15 0 == 0) 7]
  | 0x188 => lcPut d g a [anyF 15 0] v [] []
  | 0x18C => lcPut d g a [anyF 15 0, anyF 18 16] v [busy] []
  | 0x190 => lcPut d g a [anyF 15 0] v [busy] []
  | 0x194 => lcPut d g a [anyF 15 0, anyF 21 16] v [busy] []
  | 0x1A8 => compBindWrite d g v
  | 0x1AC => lcPut d g a [maxF 4 0 24, maxF 31 16 0x7FFF] v [busy] []
  | 0x1B0 | 0x1B4 => lcPut d g a wordF v [busy] []
  | 0x1B8 => lcPut d g a [maxF 31 0 0x7FFFFFFF] v [busy] []
  | 0x1C0 =>
    lcPut d g a [maxF 1 0 2, anyF 2 2, anyF 3 3, maxF 8 4 23, anyF 23 16] v
      [fz] [lrnZero d g v (rdN d (LC_LRN_BUDGET g)) (rdN d (LC_DRIFT_LIM g))]
  | 0x1C4 => lcPut d g a [anyF 15 0] v [fz] [lrnZero d g (rd d (LC_LRN_CFG g)) (fld v 15 0) (rdN d (LC_DRIFT_LIM g))]
  | 0x1C8 => driftRecord (driftOn d g) (lcPut d g a [maxF 15 0 0x7FFF] v [] []) g
  | 0x1CC => lcPut d g a [maxF 15 0 0x7FFF] v [fz] [lrnZero d g (rd d (LC_LRN_CFG g)) (rdN d (LC_LRN_BUDGET g)) (fld v 15 0)]
  | 0x1EC => compCommand d g v
  | _ =>
    if 0x200 ≤ off ∧ off < 0x300 then coefWrite d g set ((off - 0x200) / 0x20) ((off % 0x20) / 4) v
    else d

/-- A group command: RUN of every masked cell, in one configuration window (Table 4-1). -/
def ltGroup (d : Dev) (t : Nat) (run : Bool) : Dev :=
  ((List.range 32).filter (fun c => rdBit d (LT_GRP_MASK t) c)).foldl (fun d c => wrBit d (lcBase (32 * t + c) + BLK_CTRL) 0 run) d

/-- LT_GRP_START and LT_GRP_STOP. -/
def ltGrpStart (d : Dev) (t : Nat) : Dev := ltGroup d t true
def ltGrpStop (d : Dev) (t : Nat) : Dev := ltGroup d t false

/-- COMP_SLOT_WRITE: a word of a table slot (R128, R130); off is the offset in the tile's range. -/
def compSlotWrite (d : Dev) (t off : Nat) (v : W32) : Dev :=
  let o := off - 0x9000
  let k := o / 0xC00
  let e := (o % 0xC00) / 4 * 2
  if off < 0x9000 ∨ 8 ≤ k then d
  else if (boundCells d).any (fun g => g / 32 == t && slotNoOf d g == k && (cellOf d g).st != .stopped) then
    err d (.lt t) 6 (ltBase t + off / 4 * 4)
  else setCtab (setCtab d (liveAt t k e) (sgn 16 (fld v 15 0))) (liveAt t k (e + 1)) (sgn 16 (fld v 31 16))

/-- A write to a tile page. -/
def ltWrite (d : Dev) (t off : Nat) (v : W32) : Dev :=
  match off with
  | 0x11C => wr d (LT_GRP_MASK t) v
  | 0x120 =>
    match fld v 1 0 with
    | 0 => d
    | 1 => ltGrpStart d t
    | 2 => ltGrpStop d t
    | _ => err d (.lt t) 5 (LT_GRP_CMD t)
  | _ => d

end Sys2Proof.Machine
end

