-- ==== Sys2Proof/Machine/Held.lean ====
section
/-! DEFINITION. Changes of the pair role (R259, R260), the entry into Held (R16, R281, R435), and the region faults that
lead there (R13). -/

namespace Sys2Proof.Machine

/-! ### Roles -/

def roleNum : Role → Nat
  | .solo => 0 | .authority => 1 | .standby => 2 | .syncing => 3

def autoReturn (d : Dev) : Bool := rdBit d TW_CFG 1
def pref (d : Dev) : Bool := rdBit d ID_STRAP 4

/-- A role change: one occurrence in TW_ROLE_CNT, a pair record by a module that is or was authoritative, the message bus
channels and the time base follow. -/
def setRole (d : Dev) (r : Role) (cause : Nat) : Dev :=
  if d.role = r then d
  else
    let old := d.role
    let was := authoritative d
    let d := bump { d with role := r } TW_ROLE_CNT
    let d := if was || authoritative d then
        report d 0x0060 8 ([w32 (roleNum old), w32 (roleNum r), Config.roleCause cause] ++ pay64 (rd64 d TW_PEER_SERIAL))
      else d
    let d := cxRoles d
    let d := if (old == .solo || old == .authority) == (r == .solo || r == .authority) then d else owRole d
    if authoritative d && !was then tbTakeOver d else d

/-! ### Held -/

/-- Every block takes its configured safe values (R16, R68, R102, R163, R170, R180, R230). -/
def holdBlocks (d : Dev) : Dev :=
  let d := (tkeys d.lanes).foldl laneHold d
  let d := (activeAxes d).foldl axHold d
  let d := (tkeys d.cells).foldl cellHold d
  let d := (List.range 64).foldl aoHold d
  let d := (activeDios d).foldl dioHold d
  (tkeys d.lps).foldl lpHold d

/-- The Guyline is released at once, the channels' copies of the authority follow where they agree, and the role shows SYNCING (R260, R281). -/
def heldPair (d : Dev) : Dev :=
  let d := setTw d { d.tw with
    hold := false, seizing := false, won := false, handover := none, asked := false
    authA := d.tw.authA && !d.tw.authB, authB := d.tw.authB && !d.tw.authA }
  if pairEn d then setRole d .syncing 0 else d

/-- The device enters Held: from Boot at the end of Boot, from Ready and Run at once (R435). A further trigger in Held changes nothing
but that each fault writes its own record (R15; its type DEDUCED, log entry 55). -/
def enterHeld (d : Dev) (blk : W32) (code addr : Nat) : Dev :=
  if d.power.phase = .boot then
    { d with power := { d.power with heldPending := d.power.heldPending ++ [⟨blk, w32 code, w32 addr⟩] } }
  else if d.power.phase = .on then
    let d := { d with power := { d.power with phase := .held } }
    heldPair (report (holdBlocks d) 0x0005 2 [blk, w32 code, w32 addr])
  else if d.power.phase = .held then report d 0x0005 2 [blk, w32 code, w32 addr]
  else d

/-- REGION_FAULT: an uncorrectable fault of a region sends the device to Held; the block, code and address that the fault
unit names are the command's. -/
def regionFault (d : Dev) (p : Page) (code addr : Nat) : Dev :=
  if d.power.phase = .on ∨ d.power.phase = .boot ∨ d.power.phase = .held then enterHeld (err d p code addr) (blkId p) code addr else d

end Sys2Proof.Machine
end

