-- ==== Sys2Proof/Machine/Health.lean ====
section
/-! DEFINITION. Temperatures, derating, hold-up energy, ageing and the field supply (R306, R442 to R445, R453). -/

namespace Sys2Proof.Machine

/-- A control block is in a running state (R434): the module is in Run. -/
def controlRuns (d : Dev) : Bool :=
  d.lanes.any (fun p => p.2.st == .running || p.2.st == .paused) || d.cells.any (fun p => p.2.st == .running)
    || d.axes.any (fun p => p.2.st != .disabled) || d.lps.any (fun p => p.2.st == .running)
    || d.pls.any (fun p => p.2.st == .listen || p.2.st == .running)
    || (List.range 16).any (fun k => runBit d (.ac k)) || (List.range 32).any (fun s => runBit d (.stp s))

/-- PWR_STAT.STATE. -/
def pwrState (d : Dev) : Nat := match d.power.phase with
  | .off | .keepAlive => 0
  | .boot => 1
  | .on => if controlRuns d then 3 else 2
  | .held => 4
  | .service => 5

/-- PWR_STAT. -/
def pwrStat (d : Dev) : Nat :=
  pwrState d + 16 * b2n d.power.holdupOk + 32 * b2n d.power.kaVka + 64 * b2n d.power.kaLow + 128 * b2n d.power.kaLost
    + 256 * b2n d.power.vinLow + 512 * b2n d.power.installing

/-- VIN powers the module. -/
def powered (d : Dev) : Bool := d.power.phase != .off && d.power.phase != .keepAlive

/-- A number as a register field of n bits shows it, two's complement. -/
def fieldI (n : Nat) (x : Int) : Nat := (x % 2 ^ n).toNat

/-- The case temperature's excursions (R442), each with one record. The grade's lower limit is 0 °C for SC, -20 °C for XT. -/
def caseCheck (d : Dev) (t : Int) : Dev :=
  let low : Int := if fld (rd d ID_STRAP) 15 8 = 2 then -200 else 0
  let was := rdBit d HLTH_THERM 2 || rdBit d HLTH_THERM 3
  let hi := decide (850 < t)
  let lo := decide (t < low)
  let d := wrBit (wrBit d HLTH_THERM 2 hi) HLTH_THERM 3 lo
  if (hi || lo) && !was then fieldFaultAt d 12 .hlth (Config.faultCode 5) 0 0 else d

/-- The application-core clock of a level (Table 18-8). -/
def levelMHz : Nat → Nat
  | 0 => 1200 | 1 => 800 | 2 => 600 | _ => 300

/-- The level the Host region's junction calls for, at most one from the present one (R443). -/
def nextLevel (l : Nat) (t : Int) : Nat :=
  if l < 3 ∧ 1000 + 50 * (l : Int) ≤ t then l + 1 else if 0 < l ∧ t < 950 + 50 * ((l : Int) - 1) then l - 1 else l

/-- Derating: at most one level per 100 ms. -/
def derate (d : Dev) (t : Int) : Dev :=
  let l := fld (rd d HLTH_THERM) 1 0
  let n := nextLevel l t
  if n ≠ l ∧ d.health.levelAt + 100 ≤ optMs d then
    let d := wrFld (bump d HLTH_DERATE_CNT) HLTH_THERM 1 0 n
    wrN { d with health := { d.health with levelAt := optMs d } } TL_CORE_CLK (levelMHz n)
  else d

/-- Three samples in a row at 120 °C or more are a Held trigger (R444). -/
def critical (d : Dev) (r : Nat) (t : Int) : Dev :=
  let n := if 1200 ≤ t then min 3 (nth d.health.hot r 0 + 1) else 0
  let d := { d with health := { d.health with hot := lset d.health.hot r n } }
  if n = 3 ∧ (d.power.phase = .on ∨ d.power.phase = .boot) then enterHeld (err d .hlth 0x1422 r) (blkId .hlth) 0x1422 r else d

/-- HEALTH_SAMPLE: every 10 ms the sensors are sampled. -/
def healthSample (d : Dev) (s : HSample) : Dev :=
  if powered d then
    let tj (r : Nat) : Int := nth s.tj r 0
    let d := wrN d HLTH_TCASE (fieldI 16 s.tcase)
    let d := (List.range 4).foldl (fun d r => wrN d (HLTH_TJ r) (fieldI 16 (tj r))) d
    let d := wrN (wrN (wrN d PWR_VIN (s.vin % 65536 + s.vfld % 65536 * 65536)) PWR_VKA (s.store % 65536 + s.vka % 65536 * 65536)) PWR_PIN (s.pin % 65536)
    let d := { d with power := { d.power with kaVka := decide (2000 ≤ s.vka), kaLow := decide (s.store < 2200) } }
    let d := wrBit (caseCheck d s.tcase) HLTH_THERM 4 ((List.range 4).any (fun r => decide (1150 ≤ tj r)))
    let d := derate d (tj 3)
    (List.range 4).foldl (fun d r => critical d r (tj r)) d
  else d

/-! ### Hold-up energy (R306, R442) -/

/-- HOLDUP_OK_SET. -/
def holdupSet (d : Dev) : Dev := if powered d then { d with power := { d.power with holdupOk := true } } else d

/-- HOLDUP_LOW: HOLDUP_OK clears; while control runs a record is written, and the module runs on. -/
def holdupLow (d : Dev) : Dev :=
  if d.power.holdupOk then
    let d := { d with power := { d.power with holdupOk := false } }
    if pwrState d = 3 then report d 0x0006 2 [w32 (fld (rd d PWR_HOLDUP) 15 0)] else d
  else d

/-- HOLDUP_MEASURE: ESR in 0.1 mΩ, capacitance in mF, usable energy in mJ; HOLDUP_OK is set from 150 mJ on. -/
def holdupMeasure (d : Dev) (esr cap energy : Nat) : Dev :=
  if powered d then
    let d := wrN (wrN d HLTH_ESR (esr % 65536 + cap % 65536 * 65536)) PWR_HOLDUP (energy % 65536)
    if 150 ≤ energy then holdupSet d else holdupLow d
  else d

/-! ### Ageing (R445) -/

/-- Thermal-cycle damage in 0.01 % (Table 18-7). -/
def tcDamage (cyc : List Nat) : Nat := min 65535 ((nth cyc 0 0 + 10 * nth cyc 1 0 + 100 * nth cyc 2 0 + 1000 * nth cyc 3 0) / 1000)

/-- The least-squares slope of hourly values, newest first, as numerator and denominator. -/
def slopeOf (vs : List Nat) : Int × Nat :=
  let n := vs.length
  let ps := vs.reverse.zipIdx
  let sx := (ps.map (·.2)).foldl (· + ·) 0
  let sy := (ps.map (·.1)).foldl (· + ·) 0
  let sxy := (ps.map (fun p => p.1 * p.2)).foldl (· + ·) 0
  let sxx := (ps.map (fun p => p.2 * p.2)).foldl (· + ·) 0
  (((n * sxy : Nat) : Int) - ((sx * sy : Nat) : Int), n * sxx - sx * sx)

/-- left / (num / den) in whole hours, rounded to nearest; no limit in sight where the slope is 0 or less. -/
def hoursLeft (left : Nat) (num : Int) (den : Nat) : Nat :=
  if num ≤ 0 ∨ den = 0 then 0xFFFFFFFF else min 0xFFFFFFFF ((2 * left * den + num.toNat) / (2 * num.toNat))

/-- An indicator's remaining time and the bounds of its band: from the slope, its upper bound and its lower bound. -/
def prediction (vs : List Nat) (limit : Nat) : Nat × Nat × Nat :=
  let left := limit - vs.headD 0
  let s := slopeOf vs
  let b := Config.slopeBand vs
  let bd := b.2 + 1
  let up : Int := s.1 * bd + b.1 * s.2
  let dn : Int := s.1 * bd - b.1 * s.2
  (hoursLeft left s.1 s.2, hoursLeft left up (s.2 * bd), hoursLeft left dn (s.2 * bd))

/-- The limits of the six indicators (Table 18-9). -/
def eolLimits (d : Dev) : List Nat := [5000, 10000, 10000, 1000, 2 * d.health.esr0, 500]

/-- The present values of the six indicators. -/
def eolValues (d : Dev) : List Nat :=
  let worst (f : Nat → Nat) := (List.range 4).foldl (fun m r => max m (fld (rd d (f r)) 15 0)) 0
  [worst HLTH_AGE, worst HLTH_EM, fld (rd d HLTH_TCDMG) 15 0, rdN d HLTH_MRAM_ER, fld (rd d HLTH_ESR) 15 0, fld (rd d HLTH_INSERT) 15 0]

/-- The history of indicator k in the latest 1000 h. -/
def eolSeries (d : Dev) (k : Nat) : List Nat := (d.health.hist.take 1000).map (fun v => nth v k 0)

/-- The indicator with the smallest remaining time, with its prediction. -/
def eolPick : List (Nat × (Nat × Nat × Nat)) → Nat × (Nat × Nat × Nat)
  | [] => (0, 0xFFFFFFFF, 0xFFFFFFFF, 0xFFFFFFFF)
  | [x] => x
  | x :: t => let y := eolPick t; if y.2.1 < x.2.1 then y else x

/-- EOL_UPDATE: once per hour of OPT_MS. -/
def eolUpdate (d : Dev) (s : EolSample) : Dev :=
  if powered d = false ∨ optMs d / 3600000 = d.health.hour then d
  else
    let d := (List.range 4).foldl (fun d r =>
      wrN (wrN (wrN d (HLTH_AGE r) (nth s.age r 0 % 65536)) (HLTH_EM r) (nth s.em r 0 % 65536)) (HLTH_CYC r) (nth s.cyc r 0)) d
    let d := wrN (wrN d HLTH_TCDMG (tcDamage s.cyc)) HLTH_MRAM_ER s.mram
    let vals := eolValues d
    let d := { d with health := { d.health with hist := (vals :: d.health.hist).take 1000, hour := optMs d / 3600000 } }
    let p := eolPick ((List.range 6).map (fun k => (k + 1, prediction (eolSeries d k) (nth (eolLimits d) k 0))))
    let was := rdBit d HLTH_EOL_INFO 5
    let hit := (vals.zip (eolLimits d)).any (fun v => decide (v.2 ≤ v.1))
    let d := wrN (wrN (wrN d HLTH_EOL p.2.1) HLTH_EOL_LO p.2.2.1) HLTH_EOL_HI p.2.2.2
    let d := wrN d HLTH_EOL_INFO (p.1 + 16 * b2n (decide (168 * 3600000 ≤ optMs d)) + 32 * b2n (was || hit))
    if hit && !was then fieldFaultAt d 13 .hlth (Config.faultCode 6) 0 0 else d

/-- EOL_WARN. -/
def eolWarn (d : Dev) : Bool :=
  rdBit d HLTH_EOL_INFO 4 && rd d HLTH_EOL_WARN != 0 && decide (rdN d HLTH_EOL_LO < rdN d HLTH_EOL_WARN)

/-- A write of the health page. -/
def hlthWrite (d : Dev) (off : Nat) (v : W32) : Dev :=
  match off with
  | 0x170 => wrN d HLTH_EOL_WARN (fld v 19 0)
  | 0x18C => wlCommand d v
  | 0x11C | 0x184 | 0x194 => wr d (hlthBase + off) v
  | 0x180 => if 448 ≤ fld v 8 0 then err d .hlth 0x1421 HLTH_WL_SEL else wrN d HLTH_WL_SEL (fld v 8 0)
  | 0x188 => wr d HLTH_WL_SRC (v &&& 0x9F7FFF)
  | _ => d

/-! ### VFLD (R453) -/

/-- VFLD_LOW: below 17.0 V for 1 ms; outputs undriven, inputs OFF; the voltage is shown and recorded. -/
def vfldLowEvent (d : Dev) (mv : Nat) : Dev :=
  if powered d = true ∧ mv < 17000 ∧ d.power.vfldLow = false then
    let d := wrFld { d with power := { d.power with vfldLow := true } } PWR_VIN 31 16 mv
    fieldFault d .pwr (Config.faultCode 7) 0 mv
  else d

/-- VFLD_RESTORED: 19.2 V or more for 1 ms; outputs follow their commands again. -/
def vfldRestored (d : Dev) (mv : Nat) : Dev :=
  if 19200 ≤ mv ∧ d.power.vfldLow = true then wrFld { d with power := { d.power with vfldLow := false } } PWR_VIN 31 16 mv else d

/-- VIN_LOW: below 19.2 V for 1 ms without a power failure, or back. -/
def vinLowEvent (d : Dev) (low : Bool) : Dev := if powered d then { d with power := { d.power with vinLow := low } } else d

end Sys2Proof.Machine
end

