-- ==== Sys2Proof/Machine/Journal.lean ====
section
/-! DEFINITION. The Strongbox journal, the final commit and the output hold (R298 to R309, R317). -/

namespace Sys2Proof.Machine

/-! ### What the journal holds (R298, R303) -/

/-- An offset lies in a register row. -/
def inRow (r : RegRow) (off : Nat) : Bool :=
  let st := if r.step = 0 then 4 * r.words else r.step
  decide (r.off ≤ off) && decide ((off - r.off) / st < r.count) && decide ((off - r.off) % st < 4 * r.words)

/-- The register row that an offset of a page lies in. -/
def rowOfReg (p : Page) (off : Nat) : Option RegRow := (headerRows ++ pageRows p).find? (fun r => inRow r off)

/-- The reset class of a register (R10). The coefficient store, which has keys above BAR0, is journalled (R118). -/
def keepOfReg (a : Nat) : Keep :=
  if 0x100000000 ≤ a then .journal
  else match locate a with
    | some (p, off) => match rowOfReg p off with
      | some r => r.keep
      | none => .plain
    | none => .plain

/-- A journalled register outside the digest (R269). -/
def localReg (a : Nat) : Bool :=
  match locate a with
  | some (p, off) => off == EVT_EN || off == EVT_VEC || off == KEYLOCK
      || (localRows p).any (fun r => inRow ⟨r.1, r.2.1, r.2.2, 1, .ro, .journal, 0⟩ off)
  | none => false

/-- The journalled state of the module as it stands. -/
def snapOf (d : Dev) : Snap :=
  { regs := d.regs.filter (fun p => keepOfReg p.1 == .journal)
    sig := d.sig, attr := d.attr, lanes := d.lanes, axes := d.axes, stps := d.stps, encs := d.encs, quar := d.quar
    lps := d.lps, shared := d.shared, trigs := d.trigs, cells := d.cells, ctab := d.ctab, cores := d.cores, aos := d.aos
    dios := d.dios, sf := d.sf, pls := d.pls }

/-- What of a pin lies inside the digest: its queue (R171). -/
def dioShared (x : DioPin) : DioPin := { dio0 with queue := x.queue, judge := x.judge }

/-- What of a core lies inside the digest: the sequence position, not the slices, the rotation or results (R164). -/
def coreShared (x : Core) : Core :=
  { x with slices := [], chans := [], flight := [], burst := [], burstTb := 0, xchg := none, settled := false, pairN := 0 }

/-- What of a segment lies inside the digest: state, schedule and cycle; not slots, witness or diagnostics (R339). -/
def plShared (x : Pl) : Pl := { pl0 with st := x.st, sched := x.sched, cyc := x.cyc, start := x.start }

/-- What of the safety channels two modules of a pair share (R252): not the configuration session, the contacts, the frames received
or sent, nor a table that the standby has not taken. -/
def sfShared (x : Safety) : Safety :=
  { x with mode := if x.mode = .pending then (if x.table.isSome then .active else .unconfigured) else x.mode
           pend := none, confirmed := false, pendAt := 0, cfgAt := 0, cmds := [], unlocked := false, salt := [], hash := none
           sent := [], imgs := [], fwd := false, openRun := [], inA := 0, inB := 0, pairs := []
           conns := x.conns.map (fun c => { (default : SfConn) with st := c.st })
           a := { x.a with fwd := none, alone := false }, b := { x.b with fwd := none, alone := false } }

/-- The digest of R303: over the state with the LOCAL rows left out. -/
def digestOf (s : Snap) : Nat :=
  Config.digest { s with
    regs := s.regs.filter (fun p => !localReg p.1)
    encs := []
    cores := s.cores.map (fun p => (p.1, coreShared p.2))
    aos := s.aos.map (fun p => (p.1, { p.2 with openLoad := false, ilim := false, otemp := false, rbDev := false, ilimRun := 0, rbRun := 0 }))
    dios := s.dios.map (fun p => (p.1, dioShared p.2))
    sf := sfShared s.sf
    pls := s.pls.map (fun p => (p.1, plShared p.2)) } % 2 ^ 64

/-! ### Snapshots and commits (R298 to R302) -/

def setJn (d : Dev) (j : Journal) : Dev := { d with jn := j }

/-- The commit that the state s of the present boundary will make; its number is set when its drain begins, its rows when it is written. -/
def snapshot (d : Dev) (s : Snap) (final baseline : Bool) : Commit :=
  { number := 0, boundary := bp d, ka := rd64 d PWR_KA_RTC, tb := tbNs d, digest := digestOf s
    fw := Config.fwLayout (fwSha d d.power.bank), rows := 0, final := final, baseline := baseline, snap := s }

/-- The state that a boundary captures: as C2 of its BP left it (R34). -/
def boundarySnap (d : Dev) : Snap := d.jn.shadow.getD (snapOf d)

/-- The bytes of a commit record (Table 11-7); the CRC of a chunk's rows is a free value, since the spec lays no row out. -/
def commitBytes (f : Nat) (c : Commit) : List W8 :=
  let n := (c.rows + 63) / 64
  let chunk (i : Nat) := leBytes 4 (Config.freeW32 (f + i)).toNat ++ leBytes 2 (min 64 (c.rows - 64 * i)) ++ [0, 0]
  let body := leBytes 4 0x52434253 ++ leBytes 4 (0x44 + 8 * n) ++ leBytes 8 c.number ++ leBytes 8 c.boundary ++ leBytes 8 c.ka
    ++ leBytes 8 c.tb ++ leBytes 8 c.digest ++ leBytes 4 c.fw ++ leBytes 4 c.rows ++ leBytes 4 n
    ++ leBytes 2 (b2n c.final + 2 * b2n c.baseline) ++ [0, 0] ++ (List.range n).flatMap chunk
  body ++ leBytes 4 (crc32c body)

/-- A drain begins, with the commit number that its rows carry: one higher than the latest commit's (R300, R313), for a baseline one
higher than any number in a commit slot or a row tag (R301). -/
def drainStart (d : Dev) (c : Commit) : Dev :=
  let n := (if c.baseline then d.jn.tagTop else d.jn.top) + 1
  setJn d { d.jn with due := false, shadow := none, draining := some { c with number := n }, tagTop := max d.jn.tagTop n }

/-- A commit is complete: its record stands in slot N mod 4, the Strongbox page shows it. Rows and drain time are free. -/
def commitDone (d : Dev) (c : Commit) : Dev :=
  let n := c.number
  let rows := if c.baseline then 98304 else (Config.freeNat d.free) % 98305
  let us := (Config.freeNat (d.free + 1)) % 65536
  let c := { c with rows := rows }
  let bs := commitBytes (d.free + 2) c
  let old := d.jn.commits
  let d := setJn d { d.jn with commits := c :: (if c.baseline then [] else old.take 1), draining := none, starts := 0, top := n }
  let d := { d with free := d.free + 1538, mram := mput d.mram (0x01000000 + n % 4 * 0x10000) bs }
  let d := wr64 (wr64 (wr64 d SB_NUMBER n) SB_BOUNDARY c.boundary) SB_DIGEST c.digest
  wrN (wrN d SB_ROWS rows) SB_DRAIN_US (us + max us (fld (rd d SB_DRAIN_US) 31 16) * 65536)

/-- MAGIC 0 into the four commit slots. -/
def slotsClear (d : Dev) : Dev :=
  { d with mram := (List.range 4).foldl (fun m i => mput m (0x01000000 + i * 0x10000) [0, 0, 0, 0]) d.mram, jn := { d.jn with commits := [] } }

/-- The baseline begins (R301): the commit slots are emptied, then every row of the state that stands is written. -/
def baselineStart (d : Dev) : Dev := drainStart (slotsClear d) (snapshot d (snapOf d) false true)

/-- The epoch length that SB_EPOCH holds, in BP. -/
def epochReg (d : Dev) : Nat := rdN d SB_EPOCH

/-- After C2: whether this BP is an epoch boundary; a changed length takes effect there, at the next boundary of the old one (R33).
The rows dirtied by learning count anew (R136). What C2 has left is kept for the snapshot of this boundary, and for the final one
(R34, R305). -/
def epochMark (d : Dev) : Dev :=
  let due := bp d % d.jn.epoch == 0
  let d := if due then (tkeys d.cells).foldl rowsReset d else d
  let shadow := if due = true ∨ d.power.fail = .declared then some (snapOf d) else none
  setJn d { d.jn with due := due, shadow := shadow, epoch := if due then epochReg d else d.jn.epoch }

/-- The Strongbox takes snapshots: control state is there, not Held, no power failure past its boundary (R304, R305). -/
def journalRuns (d : Dev) : Bool :=
  d.power.phase == .on && d.power.fail != .draining && d.power.fail != .done && !(d.role == .syncing && !d.tw.baseOk)

/-- JOURNAL_EPOCH: at a boundary the blocks copy their state; while a drain runs the boundary is skipped (R302). -/
def journalEpoch (d : Dev) : Dev :=
  if journalRuns d = true ∧ d.jn.due = true then
    let c := snapshot d (boundarySnap d) false false
    match d.jn.draining with
    | some _ => bump (setJn d { d.jn with due := false, shadow := none }) SB_SKIP_CNT
    | none => drainStart d c
  else d

/-- The drain in progress ends with its commit record. -/
def drainEnd (d : Dev) : Dev :=
  match d.jn.draining with
  | some c => commitDone d c
  | none => d

/-- The baseline of a cold start is complete before Ready (R301). -/
def baseline (d : Dev) : Dev := drainEnd (baselineStart d)

/-! ### Strongbox page -/

/-- SB_STAT. -/
def sbStat (d : Dev) : Nat :=
  b2n d.jn.draining.isSome + 2 * b2n d.jn.cold + 4 * b2n d.power.holdupOk + 8 * b2n (d.power.phase == .held)

/-- SB_NOP, FORCE_COLD and CANCEL_COLD. -/
def sbNop (d : Dev) : Dev := d
def forceCold (d : Dev) : Dev := setJn d { d.jn with cold := true }
def cancelCold (d : Dev) : Dev := setJn d { d.jn with cold := false }

/-- A write of SB_CMD. -/
def sbCommand (d : Dev) (v : W32) : Dev :=
  match fld v 1 0 with
  | 0 => sbNop d
  | 1 => forceCold d
  | 2 => cancelCold d
  | _ => err d .sb 5 SB_CMD

/-- A write of the Strongbox page. -/
def sbWrite (d : Dev) (off : Nat) (v : W32) : Dev :=
  match off with
  | 0x100 => if fld v 9 0 < 25 ∨ 1000 < fld v 9 0 then err d .sb 5 SB_EPOCH else wrN d SB_EPOCH (fld v 9 0)
  | 0x104 => if 86400 < fld v 16 0 then err d .sb 5 SB_RESUME_MAX else wrN d SB_RESUME_MAX (fld v 16 0)
  | 0x108 => sbCommand d v
  | 0x134 | 0x13C => wr d (sbBase + off) v
  | _ => d

/-! ### Output hold (R308, R309) -/

/-- What an analog output drives; none: driver off. -/
def aoDriven (d : Dev) (c : Nat) : Option Int := if aoOn d c then some (aoAct d c) else none

/-- The safe value of an analog output under its configuration; none: driver off. -/
def aoSafeVal (d : Dev) (c : Nat) : Option Int :=
  if aoMode d c = 0 ∨ aoHiz d c = true then none else some (aoDrive d c (q15 (rd d (AO_SAFE (c / 4) (c % 4)))))

/-- The outputs of Held, of loss of lock and of an expired hold: every one at its safe value. -/
def safeOuts (d : Dev) (o : OutHold) : OutHold :=
  { o with ao := (activeAos d).map (fun c => (c, aoSafeVal d c)), dio := (activeDios d).map (fun n => (n, bit (dioCfg d n) 3)) }

/-- The outputs as of the last C2. -/
def heldOuts (d : Dev) (o : OutHold) : OutHold :=
  { o with ao := (activeAos d).map (fun c => (c, aoDriven d c)), dio := (activeDios d).map (fun n => (n, (dioOf d n).level))
           dir := (activeStps d).map (fun s => (s, (stpOf d s).dir)) }

/-- HOLD_TIME. -/
def holdTime (d : Dev) : Nat := fld (rd d OH_CFG) 13 0

/-- HOLD_TIME is over: the safe values that the hold logic keeps apply, counted and recorded. -/
def holdExpire (d : Dev) : Dev :=
  let d := { d with oh := { d.oh with holding := false, expired := true, ao := d.oh.aoSafe, dio := d.oh.dioSafe } }
  report (bump d OH_EXP_CNT) 0x0007 299 [w32 (holdTime d), w32 d.oh.src]

/-- A hold starts with the outputs as of the last C2; HOLD_TIME 0 ends it at once. -/
def holdStart (d : Dev) (src : Nat) : Dev :=
  let s := safeOuts d d.oh
  let o := { heldOuts d d.oh with holding := true, expired := false, src := src, aoSafe := s.ao, dioSafe := s.dio }
  let d := { d with oh := o }
  if holdTime d = 0 then holdExpire d else d

/-- OUTPUT_HOLD_EXPIRED. -/
def outputHoldExpired (d : Dev) : Dev := if d.oh.holding then holdExpire d else d

/-- The first C2 of the resumed module ends the hold. -/
def holdEnd (d : Dev) : Dev := { d with oh := { d.oh with holding := false, ao := [], dio := [], dir := [], aoSafe := [], dioSafe := [] } }

/-- OH_STAT. -/
def ohStat (d : Dev) : Nat := b2n d.oh.holding + 2 * b2n d.oh.expired

/-- A write of the output hold page. -/
def ohWrite (d : Dev) (off : Nat) (v : W32) : Dev :=
  match off with
  | 0x100 => if 10000 < fld v 13 0 then err d .oh 5 OH_CFG else wrN d OH_CFG (fld v 13 0)
  | 0x10C => wr d OH_EXP_ACK v
  | _ => d

/-! ### Power failure (R305) -/

def setPow (d : Dev) (p : Power) : Dev := { d with power := p }

/-- POWER_FAILURE: in Ready and Run the final boundary is the next C2; elsewhere nothing is committed (R304, R435). -/
def powerFailure (d : Dev) : Dev :=
  if powered d = false ∨ d.power.fail ≠ .no then d
  else
    let d := wrBit d HLTH_INSERT 16 false
    if d.power.phase = .on then setPow d { d.power with fail := .declared }
    else setPow d { d.power with fail := .done, heldPending := [] }

/-- After C2 of the final boundary: snapshot, then no further BP, and the outputs are held (R305). A drain in progress ends first. -/
def finalBoundary (d : Dev) : Dev :=
  let d := drainEnd d
  let d := if d.role = .syncing ∧ d.tw.baseOk = false then d else drainStart d (snapshot d (boundarySnap d) true false)
  holdStart (setPow d { d.power with fail := .draining }) 0

/-- FINAL_COMMIT_DONE: the record with FINAL is complete; the keep-alive copies and the wear ledger go to MRAM with it. -/
def finalCommitDone (d : Dev) : Dev :=
  if d.power.fail = .draining then
    let d := wearSave (drainEnd d)
    setPow d { d.power with fail := .done, kaPcc := pcc d, kaOpt := optMs d, kaIns := fld (rd d HLTH_INSERT) 15 0 }
  else d

end Sys2Proof.Machine
end

