-- ==== Sys2Proof/Machine/Power.lean ====
section
/-! DEFINITION. Firmware install, the keep-alive domain and hot plug (R295, R438 to R441). -/

namespace Sys2Proof.Machine

/-- PWR_NOP. -/
def pwrNop (d : Dev) : Dev := d

/-- A command of the power page acts in every powered state but Boot, where the page responds too (R434, R436). -/
def pwrInstall (d : Dev) : Dev :=
  if powered d = false then d
  else if d.power.installing then err d .pwr 0x1412 PWR_CMD
  else setPow d { d.power with installing := true }

/-- The inactive firmware bank, and where a bank lies in MRAM (Table 17-6). -/
def otherBank (d : Dev) : Nat := 1 - d.power.bank
def bankAt (b : Nat) : Nat := 0x400000 + b * 0x400000

/-- The checks of R294 on a firmware container: the vendor key is the only one for TYPE 0x0001. -/
def fwCheck (vendorKid : Nat) (bs : List W8) (len : Nat) : Nat :=
  if bs.length ≠ len ∨ headerOk bs 1 len = false ∨ 0x400000 < len then 1
  else if Config.sha256 (bodyOf bs) ≠ (bs.drop 0x20).take 32 then 2
  else if num bs 0x10 8 ≠ vendorKid ∨ sigOk bs = false then 3 else 0

/-- INSTALL_DONE: the container that the bus-master reads have fetched; readOk: every read completed without error. -/
def installDone (d : Dev) (vendorKid : Nat) (bs : List W8) (readOk : Bool) : Dev :=
  if d.power.installing then
    let len := rdN d PWR_INST_LEN
    let fits := decide (rd64 d PWR_INST_ADDR + len ≤ 2 ^ 64)
    let c := if readOk && fits then fwCheck vendorKid bs len else 1
    let b := otherBank d
    let d := if c = 0 then
        let p := { d.power with newBank := true, badBanks := d.power.badBanks.filter (· != b)
                                fw := tset none d.power.fw b (some ((bs.drop 0x20).take 32, num bs 0x0C 4)) }
        dirPut { d with power := p, mram := mput d.mram (bankAt b) bs } .pwr b 1 len ((bs.drop 0x20).take 32)
      else d
    bump (wrN (setPow d { d.power with installing := false }) PWR_INST_RES c) PWR_INST_CNT
  else d

/-- A reset or a power failure interrupts an install: the inactive bank is invalid, and PWR_INST_RES reads INTERRUPTED after
the start. -/
def installCut (d : Dev) : Dev :=
  let d := wrN d PWR_INST_RES (4 * b2n d.power.installing)
  if d.power.installing then
    let b := otherBank d
    setPow d { d.power with installing := false, newBank := false, badBanks := if b ∈ d.power.badBanks then d.power.badBanks else b :: d.power.badBanks }
  else d

/-- The bank an install has written becomes active at the next reset (R295). -/
def bankSwap (d : Dev) : Dev := if d.power.newBank then setPow d { d.power with bank := otherBank d, newBank := false } else d

/-! ### Keep-alive (R439) -/

/-- KA_STORE_LOST: the store is below 1.8 V without VKA while VIN is off; KA_RTC is lost. -/
def kaStoreLost (d : Dev) : Dev := if d.power.phase = .keepAlive then setPow d { d.power with phase := .off } else d

/-- KEEPALIVE_PERSIST: PCC, OPT_MS and the insertion count are copied to MRAM. -/
def keepalivePersist (d : Dev) : Dev :=
  if powered d then setPow d { d.power with kaPcc := pcc d, kaOpt := optMs d, kaIns := fld (rd d HLTH_INSERT) 15 0 } else d

/-! ### Hot plug (R440, R441) -/

/-- INSERTION: stage 2 mates; the keep-alive domain sees PRES_N and counts. -/
def insertion (d : Dev) : Dev :=
  if d.power.pres then d
  else wrFld (setPow d { d.power with pres := true }) HLTH_INSERT 15 0 (fld (rd d HLTH_INSERT) 15 0 + 1)

/-- REMOVAL: VIN breaks first, and the power failure is declared; then PRES_N, and REMOVED is set. -/
def removal (d : Dev) : Dev :=
  if d.power.pres then
    let d := powerFailure d
    wrBit (setPow d { d.power with pres := false }) HLTH_INSERT 16 true
  else d

/-- A write of the power page but for PWR_CMD. -/
def pwrWrite (d : Dev) (off : Nat) (v : W32) : Dev :=
  match off with
  | 0x108 => if v.toNat % 8 ≠ 0 then err d .pwr 5 PWR_INST_ADDR else wr d PWR_INST_ADDR v
  | 0x10C | 0x110 | 0x11C => wr d (pwrBase + off) v
  | _ => d

end Sys2Proof.Machine
end

