-- ==== Sys2Proof/Machine/Tally.lean ====
section
/-! DEFINITION. The thread dispatcher and the application cores (R406 to R416). -/

namespace Sys2Proof.Machine

/-- A descriptor, a core and Tally at reset (R408). -/
def thr0 : Thr := ⟨.free, 0, 0, none, false, 0, 0, 0, 0⟩
def tcore0 : TCore := ⟨false, false, false, none, 0, 0, 0, 0, 0, 0, 0⟩
def tally0 : Tally := ⟨[], [], [], [], [], false⟩

def thrOf (d : Dev) (t : Nat) : Thr := tget thr0 d.tl.thrs t
def setThr (d : Dev) (t : Nat) (x : Thr) : Dev := { d with tl := { d.tl with thrs := tset thr0 d.tl.thrs t x } }
def tcOf (d : Dev) (c : Nat) : TCore := tget tcore0 d.tl.cores c
def setTc (d : Dev) (c : Nat) (x : TCore) : Dev := { d with tl := { d.tl with cores := tset tcore0 d.tl.cores c x } }

/-- PATIENCE in ns, and WDT in ms (TL_CFG). -/
def patience (d : Dev) : Nat := 1000 * fld (rd d TL_CFG) 6 0
def coreWdt (d : Dev) : Nat := fld (rd d TL_CFG) 25 16

/-! ### Grants (R411) -/

/-- A thread is its LAST core's, or any core's where it has none that lives. -/
def ownThread (d : Dev) (c : Nat) (x : Thr) : Bool :=
  match x.last with
  | none => true
  | some l => l == c || (tcOf d l).halted

/-- The patience of a READY thread has expired. -/
def impatient (d : Dev) (x : Thr) : Bool := decide (x.ts + patience d ≤ tbNs d)

/-- The thread may be granted to a core now: AFF, and its own or to be stolen. -/
def grantable (d : Dev) (c : Nat) (x : Thr) : Bool := x.aff.testBit c && (ownThread d c x || impatient d x)

/-- Insert by READY_TS, oldest first; equal ones in ascending thread number. -/
def insTs (p : Nat × Thr) : List (Nat × Thr) → List (Nat × Thr)
  | [] => [p]
  | q :: t => if p.2.ts < q.2.ts then p :: q :: t else q :: insTs p t

/-- The READY threads of a priority with AFF bit c, oldest first. -/
def readyAt (d : Dev) (c p : Nat) : List (Nat × Thr) :=
  (d.tl.thrs.filter (fun q => q.2.st == .ready && q.2.prio == p && q.2.aff.testBit c)).foldl (fun l q => insTs q l) []

/-- The grant of one priority: the oldest thread of the core's own, else the oldest whose patience has expired. -/
def grantAt (d : Dev) (c p : Nat) : Option Nat :=
  let l := readyAt d c p
  match l.find? (fun q => ownThread d c q.2) with
  | some q => some q.1
  | none => (l.find? (fun q => impatient d q.2)).map (·.1)

/-- The grant from a priority downwards. -/
def grantFrom (d : Dev) (c : Nat) : Nat → Option Nat
  | 0 => none
  | p + 1 => match grantAt d c p with
    | some t => some t
    | none => grantFrom d c p

/-- The thread that core c would be granted now. -/
def grantOf (d : Dev) (c : Nat) : Option Nat := if d.tl.fault then none else grantFrom d c 64

/-! ### Signals (R412) -/

/-- The PRIO of the thread a core runs; 64 where it runs none. -/
def runPrio (d : Dev) (c : Nat) : Nat := match (tcOf d c).cur with
  | some t => (thrOf d t).prio
  | none => 64

/-- The core that the preempt signal for a thread goes to: lowest PRIO, then the LAST core, then the lowest number. -/
def preemptCore (d : Dev) (x : Thr) : Option Nat :=
  (List.range 8).foldl (fun best c =>
    if (tcOf d c).halted || !grantable d c x || decide (x.prio ≤ runPrio d c) then best
    else match best with
      | none => some c
      | some b => if runPrio d c < runPrio d b ∨ (runPrio d c = runPrio d b ∧ x.last = some c) then some c else some b) none

/-- The signals for a thread that has become READY or whose patience expires. -/
def signalFor (d : Dev) (t : Nat) : Dev :=
  let idle := (List.range 8).filter (fun c => (tcOf d c).idle && grantOf d c == some t)
  if idle ≠ [] then idle.foldl (fun d c => setTc d c { tcOf d c with idleSig := (tcOf d c).idleSig + 1 }) d
  else match preemptCore d (thrOf d t) with
    | some c => setTc d c { tcOf d c with preSig := (tcOf d c).preSig + 1 }
    | none => d

/-- A thread enters READY. -/
def makeReady (d : Dev) (t : Nat) : Dev := signalFor (setThr d t { thrOf d t with st := .ready, ts := tbNs d }) t

/-- PATIENCE_EXPIRED. -/
def patienceExpired (d : Dev) (t : Nat) : Dev :=
  if (thrOf d t).st = .ready ∧ impatient d (thrOf d t) = true then signalFor d t else d

/-! ### Operations (R410) -/

/-- A core starts an operation: it is idle no longer, its FAULTED clears, its watchdog starts anew. -/
def opBegin (d : Dev) (c arg : Nat) : Dev :=
  setTc d c { tcOf d c with idle := false, faulted := false, arg := arg, opAt := optMs d }

/-- The result of an operation. -/
def opRes (d : Dev) (c r : Nat) : Dev := setTc d c { tcOf d c with res := r }

/-- A core that can carry out an operation. -/
def opCore (d : Dev) (c : Nat) : Bool := decide (c < 8) && !(tcOf d c).halted

/-- DISPATCH on a core without a current thread. -/
def dispatchCore (d : Dev) (c : Nat) : Dev :=
  match grantOf d c with
  | some t =>
    let x := thrOf d t
    let d := setThr d t { x with st := .running, last := some c, runs := (x.runs + 1) % 2 ^ 32 }
    setTc d c { tcOf d c with cur := some t, res := 0, tid := t, ctx := x.ctx }
  | none => setTc d c { tcOf d c with res := 1, idle := true }

/-- An operation on the current thread, then as DISPATCH. -/
def leaveOp (d : Dev) (c : Nat) (f : Dev → Nat → Dev) : Dev :=
  if opCore d c = false then d
  else
    let d := opBegin d c 0
    match (tcOf d c).cur with
    | some t => if d.tl.fault then opRes d c 1 else dispatchCore (f (setTc d c { tcOf d c with cur := none }) t) c
    | none => opRes d c 3

def tlYield (d : Dev) (c : Nat) : Dev := leaveOp d c makeReady
def tlBlock (d : Dev) (c : Nat) : Dev :=
  leaveOp d c (fun d t =>
    let x := thrOf d t
    if 0 < x.wakes then makeReady (setThr d t { x with wakes := x.wakes - 1 }) t else setThr d t { x with st := .blocked })
def tlExit (d : Dev) (c : Nat) : Dev := leaveOp d c (fun d t => setThr d t { thrOf d t with st := .free })
def tlDispatch (d : Dev) (c : Nat) : Dev :=
  if opCore d c = false then d
  else
    let d := opBegin d c 0
    if (tcOf d c).cur.isSome then opRes d c 3 else dispatchCore d c

/-- WAKE of a thread, by an operation or by a token. -/
def wakeThread (d : Dev) (t : Nat) : Dev :=
  let x := thrOf d t
  match x.st with
  | .blocked => makeReady d t
  | .free => bump d TL_STRAY_CNT
  | .ready | .running | .suspended => setThr d t { x with wakes := min 255 (x.wakes + 1) }

/-- Apply the token at the head of the wake queue. -/
def applyToken (d : Dev) : Dev :=
  match d.tl.queue with
  | [] => d
  | (_, t) :: rest => wakeThread { d with tl := { d.tl with queue := rest } } t

/-- Apply every token queued before an operation (R415). -/
def applyTokens : Nat → Dev → Dev
  | 0, d => d
  | n + 1, d => applyTokens n (applyToken d)

/-- An operation that names a thread. -/
def threadOp (d : Dev) (c t : Nat) (f : Dev → Dev × Nat) : Dev :=
  if opCore d c = false then d
  else
    let d := opBegin d c t
    if d.tl.fault then opRes d c 3 else if 4095 < t then opRes d c 2 else opRes (f d).1 c (f d).2

/-- WAKE: its token stands behind those queued before it; a full queue stalls the core, counted once (R413, R414). -/
def tlWake (d : Dev) (c t : Nat) : Dev :=
  threadOp d c t (fun d =>
    let d := if 1024 ≤ d.tl.queue.length then bump d TL_BP_CNT else d
    (wakeThread (applyTokens d.tl.queue.length d) t, 0))
def tlCreate (d : Dev) (c t : Nat) : Dev :=
  threadOp d c t (fun d =>
    if (thrOf d t).st ≠ .free then (d, 3) else if (thrOf d t).aff = 0 then (d, 4) else (makeReady d t, 0))
def tlSuspend (d : Dev) (c t : Nat) : Dev :=
  threadOp d c t (fun d =>
    let x := thrOf d t
    if x.st = .blocked ∨ x.st = .ready then (setThr d t { x with st := .suspended }, 0) else (d, 3))
def tlResume (d : Dev) (c t : Nat) : Dev :=
  threadOp d c t (fun d =>
    let x := thrOf d t
    if x.st = .suspended then (makeReady (setThr d t { x with faulted := false }) t, 0) else (d, 3))
def tlDestroy (d : Dev) (c t : Nat) : Dev :=
  threadOp d c t (fun d =>
    let x := thrOf d t
    if x.st = .running then (d, 3) else (setThr d t { x with st := .free, wakes := 0 }, 0))

/-- DESCRIPTOR_WRITE through the window (R409): PRIO and AFF, or a word of CTX; every other field is read-only. -/
def descWrite (d : Dev) (t off : Nat) (v : W32) : Dev :=
  let x := thrOf d t
  if 4095 < t then d
  else if off = 0 then setThr d t { x with prio := fld v 21 16, aff := fld v 31 24 }
  else if off = 8 then setThr d t { x with ctx := x.ctx / 2 ^ 32 * 2 ^ 32 + v.toNat }
  else if off = 12 then setThr d t { x with ctx := x.ctx % 2 ^ 32 + v.toNat * 2 ^ 32 }
  else d

/-! ### Cores (R407, R408, R416) -/

/-- The thread a core runs enters SUSPENDED; the core stands at its reset vector, or halted. -/
def coreStop (d : Dev) (c : Nat) (fault halt : Bool) : Dev :=
  let d := match (tcOf d c).cur with
    | some t => setThr d t { thrOf d t with st := .suspended, faulted := (thrOf d t).faulted || fault }
    | none => d
  let x := tcOf d c
  setTc d c { tcore0 with halted := halt, faulted := fault, opAt := optMs d, idleSig := x.idleSig, preSig := x.preSig }

/-- A core fault (R407): the core alone is reset and restarted, and recorded. -/
def coreFault (d : Dev) (c : Nat) : Dev :=
  if opCore d c = false then d else fieldFaultAt (coreStop d c true false) 395 .tl (Config.faultCode 0) c 0

/-- CORE_WATCHDOG: no Tally operation of a running core has completed for WDT ms. -/
def coreWatchdog (d : Dev) (c : Nat) : Dev :=
  if opCore d c = true ∧ 0 < coreWdt d ∧ (tcOf d c).opAt + coreWdt d ≤ optMs d then coreFault (bump d TL_WDT_CNT) c else d

/-- A core command for a core that is not in the state it needs is refused with TL_CORE_STATE. -/
def coreCmd (d : Dev) (c : Nat) (ok : Bool) (f : Dev → Dev) : Dev :=
  if ok then f d else err d .tl 0x1101 TL_CORE_CMD
def coreNop (d : Dev) : Dev := d
def coreReset (d : Dev) (c : Nat) : Dev := coreCmd d c (!(tcOf d c).halted) (fun d => coreStop d c false false)
def coreHalt (d : Dev) (c : Nat) : Dev := coreCmd d c (!(tcOf d c).halted) (fun d => coreStop d c false true)
def coreStart (d : Dev) (c : Nat) : Dev := coreCmd d c (tcOf d c).halted (fun d => setTc d c { tcOf d c with halted := false, opAt := optMs d })

/-- A write of TL_CORE_CMD. -/
def coreCommand (d : Dev) (v : W32) : Dev :=
  let c := fld v 2 0
  match fld v 5 4 with
  | 1 => coreReset d c
  | 2 => coreHalt d c
  | 3 => coreStart d c
  | _ => coreNop d

/-- TALLY_UE: FAULT, a FIELD_FAULT record; the supervisor resets Tally and the cores within the next BP (tallyRecover). -/
def tallyUe (d : Dev) : Dev :=
  if d.tl.fault then d
  else fieldFaultAt { d with tl := { d.tl with fault := true, owed := d.tl.owed ++ d.tl.queue.filterMap (·.1), queue := [] } } 395 .tl (Config.faultCode 1) 0 0

/-- The registers, bindings and descriptors of Tally return to their reset values; the cores restart (R408, R416). -/
def tallyReset (d : Dev) : Dev :=
  { d with tl := tally0, regs := tclear (tlBase + 0x100) TL_CORE_CLK (tclear TL_BP_CNT (tlBase + 0x30000) d.regs) }

/-- The supervisor's handling of a Tally error (R416). -/
def tallyRecover (d : Dev) : Dev :=
  if d.tl.fault then { tallyReset d with tl := { tally0 with seen := d.tl.seen } } else d

/-- The watchdog windows of all cores begin now: WDT has been written (log entry 17). -/
def wdtStart (d : Dev) : Dev := (List.range 8).foldl (fun d c => setTc d c { tcOf d c with opAt := optMs d }) d

/-- A write of a Tally register or a binding word. -/
def tlWrite (d : Dev) (off : Nat) (v : W32) : Dev :=
  if off = 0x100 then
    if 100 < fld v 6 0 ∨ 1000 < fld v 25 16 then err d .tl 5 TL_CFG
    else wrN (if fld v 25 16 = coreWdt d then d else wdtStart d) TL_CFG (fld v 6 0 + fld v 25 16 * 2 ^ 16)
  else if off = 0x10C then coreCommand d v
  else if 0x1000 ≤ off ∧ off < 0x1800 ∧ off % 4 = 0 then wrN d (tlBase + off) (fld v 11 0 + fld v 15 15 * 2 ^ 15)
  else if 0x10000 ≤ off ∧ off < 0x30000 then descWrite d ((off - 0x10000) / 32) ((off - 0x10000) % 32) v
  else d

/-! ### Wake tokens (R413, R414) -/

/-- A source that becomes pending posts a token if it is bound; one that has a token queued merges; a full queue or FAULT owes it. -/
def postToken (d : Dev) (s : Nat) : Dev :=
  let w := rd d (tlBase + 0x1000 + 4 * s)
  if bit w 15 = false ∨ s ∈ d.tl.owed ∨ d.tl.queue.any (fun q => q.1 == some s) then d
  else if d.tl.fault ∨ 1024 ≤ d.tl.queue.length then { bump d TL_BP_CNT with tl := { d.tl with owed := d.tl.owed ++ [s] } }
  else { d with tl := { d.tl with queue := d.tl.queue ++ [(some s, fld w 11 0)] } }

/-- Owed tokens enter the queue in ascending source number as space returns. -/
def postOwed (d : Dev) (s : Nat) : Dev :=
  if s ∈ d.tl.owed ∧ d.tl.queue.length < 1024 ∧ d.tl.fault = false then
    { d with tl := { d.tl with owed := d.tl.owed.filter (· != s),
                               queue := d.tl.queue ++ [(some s, fld (rd d (tlBase + 0x1000 + 4 * s)) 11 0)] } }
  else d

/-- WAKE_TOKEN, for the sources that are pending now: new ones post, the head is applied, owed ones follow. -/
def wakeToken (d : Dev) (pending : List Nat) : Dev :=
  let d := (pending.filter (fun s => !d.tl.seen.contains s)).foldl postToken d
  let d := { d with tl := { d.tl with seen := pending } }
  let d := (List.range 512).foldl postOwed d
  if d.tl.fault then d else (List.range 512).foldl postOwed (applyToken d)

/-! ### Views -/

/-- TL_STAT and TL_CORE_STAT. -/
def tlStat (d : Dev) : Nat := d.tl.queue.length + d.tl.owed.length * 2 ^ 16
def tlCoreStat (d : Dev) : Nat :=
  ((List.range 8).map (fun c => let x := tcOf d c
    b2n x.idle * 2 ^ c + b2n x.halted * 2 ^ (8 + c) + b2n x.faulted * 2 ^ (16 + c))).foldl (· + ·) 0

end Sys2Proof.Machine
end

