-- ==== Sys2Proof/Machine/Tinker.lean ====
section
/-! DEFINITION. The background memory test (R421 to R426). -/

namespace Sys2Proof.Machine

def tink0 : Tink := ⟨0, [], none, false, 0⟩
def setTk (d : Dev) (x : Tink) : Dev := { d with tk := x }

/-- Rows of a pass, and with the spares. -/
def passRows : Nat := 196608
def passEnd : Nat := passRows + 256

/-- What stands at a place of the pass, if it is tested: rows of banks that are ON, then unused spares that are not retired. -/
def tkAt (d : Dev) (pos : Nat) : Option (Nat × Nat × Bool) :=
  if pos < passRows then (if bankOn d (pos % 32) then some (pos % 32, pos / 32, false) else none)
  else
    let b := (pos - passRows) / 8
    let k := (pos - passRows) % 8
    if bankOn d b && !spareUsed d b k && !spareRetired d b k then some (b, k, true) else none

/-- The next place of the pass that is tested, from a place on. -/
def tkSeek (d : Dev) : Nat → Nat → Option (Nat × (Nat × Nat × Bool))
  | 0, _ => none
  | f + 1, pos => match tkAt d pos with
    | some x => some (pos, x)
    | none => tkSeek d f (pos + 1)

/-- A complete pass: counted, its duration kept, the next one starts (R421). -/
def tkPassEnd (d : Dev) : Dev :=
  let d := wrN (bump d TK_PASS_CNT) TK_PASS_MS (optMs d - d.tk.passAt)
  setTk d { d.tk with pos := 0, passAt := optMs d }

/-- The next row of the pass goes under test. -/
def tkPassRow (d : Dev) : Dev :=
  match tkSeek d (passEnd - d.tk.pos) d.tk.pos with
  | some (pos, x) => setTk d { d.tk with pos := pos + 1, testing := some x }
  | none => d

/-- TINKER_ROW_TEST: the out-of-turn queue first, then the pass. A queued row of a bank that is not ON is skipped (R424). -/
def tkTest (d : Dev) : Dev :=
  if rdBit d (tkBase + BLK_CTRL) 0 = false ∨ d.tk.fault ∨ d.tk.testing.isSome then d
  else match d.tk.queue with
    | (b, row) :: rest =>
      let d := setTk d { d.tk with queue := rest }
      if bankOn d b then setTk d { d.tk with testing := some (b, row, false) } else tkPassRow d
    | [] => tkPassRow d

/-- The lowest spare of a bank that is neither used nor retired. -/
def freeSpare (d : Dev) (b : Nat) : Option Nat := (List.range 8).find? (fun k => !spareUsed d b k && !spareRetired d b k)

/-- ROW_REPAIR (R423). A spare in use that fails is retired with its row's old entry (log entry 20). -/
def rowRepair (d : Dev) (b row : Nat) : Dev :=
  let old := (List.range 8).filter (fun k => spareUsed d b k && !spareRetired d b k && fld (rd d (MB_MAP b k)) 12 0 == row)
  let d := bump d TK_FAIL_CNT
  match freeSpare d b with
  | some k =>
    let d := old.foldl (fun d k => wrBit d (MB_MAP b k) 16 true) d
    let d := wrN d (MB_MAP b k) (row + 2 ^ 15)
    fieldFault (bump d (MB_REPAIR_CNT b)) (.mb b) (Config.faultCode 2) row 0
  | none => fieldFault (bump (wrBit d (MB_STAT b) 8 true) TK_NOSPARE_CNT) (.mb b) (Config.faultCode 3) row 0

/-- TINKER_ROW_DONE: restore and release; a failed row is repaired, a failed spare retired; the pass ends after its last test. -/
def tkDone (d : Dev) (failed : Bool) : Dev :=
  match d.tk.testing with
  | none => d
  | some (b, n, spare) =>
    let d := if !failed then d
      else if spare then bump (wrBit d (MB_MAP b n) 16 true) TK_FAIL_CNT
      else rowRepair d b n
    let d := setTk d { d.tk with testing := none }
    match tkSeek d (passEnd - d.tk.pos) d.tk.pos with
    | some _ => d
    | none => tkPassEnd d

/-- TEST_ROW: refused for a bank that is not ON or a row out of range. -/
def tkTestRow (d : Dev) (b row : Nat) : Dev :=
  if bankOn d b = false ∨ 6143 < row then err d .tk 0x1211 TK_CMD else queueRow d b row

/-- RESTART_PASS: the pass starts anew; a row under test completes. -/
def tkRestart (d : Dev) : Dev := setTk d { d.tk with pos := 0, passAt := optMs d }

def tkNop (d : Dev) : Dev := d

/-- A write of TK_CMD. -/
def tkCommand (d : Dev) (v : W32) : Dev :=
  match fld v 1 0 with
  | 0 => tkNop d
  | 1 => tkTestRow d (fld v 8 4) (fld v 31 16)
  | 2 => tkRestart d
  | _ => err d .tk 0x1212 TK_CMD

/-- The 64-bit words of a bank row, as words of the window (R417). -/
def rowWord (d : Dev) (b row k : Nat) : Nat :=
  b / ilvW d * (segBytes d / 8) + (row * 32 + k) * ilvW d + b % ilvW d

/-- TINKER_BUFFER_UE (R426): the affected words of the row (mask) are restored as uncorrectable; Tinker enters FAULT. -/
def tkBufferUe (d : Dev) (mask : Nat) : Dev :=
  match d.tk.testing with
  | none => d
  | some (b, n, spare) =>
    let bad := if spare then [] else ((List.range 32).filter (fun k => mask.testBit k)).map (rowWord d b n)
    let d := { d with poison := bad.filter (fun w => !d.poison.contains w) ++ d.poison }
    fieldFaultAt (setTk d { d.tk with testing := none, fault := true }) 397 .tk (Config.faultCode 4) 0 0

/-- A write of TK_PACE or TK_CMD. -/
def tkWrite (d : Dev) (off : Nat) (v : W32) : Dev :=
  if off = 0x100 then
    if fld v 13 0 < 20 ∨ 10000 < fld v 13 0 then err d .tk 5 TK_PACE else wrN d TK_PACE (fld v 13 0)
  else if off = 0x108 then tkCommand d v
  else d

/-- Tinker after a reset: the row under test has been restored (R425). -/
def tkReset (d : Dev) : Dev := setTk d { tink0 with passAt := optMs d }

/-- TK_STAT. -/
def tkStat (d : Dev) : Nat :=
  let st := if d.tk.fault then 2 else if rdBit d (tkBase + BLK_CTRL) 0 ∨ d.tk.testing.isSome then 1 else 0
  let here := match d.tk.testing with
    | some (b, n, _) => b * 2 ^ 8 + n * 2 ^ 13
    | none => 0
  st + 4 * b2n (decide (passRows ≤ d.tk.pos)) + here

end Sys2Proof.Machine
end

