-- ==== Sys2Proof/Machine/Start.lean ====
section
/-! DEFINITION. Resets, the start decision, cold start and resume (R290 to R297, R307, R310 to R316), and loss of lock (R31). -/

namespace Sys2Proof.Machine

/-! ### What a reset leaves (Table 11-2) -/

/-- A register of the safety channels or SIO. -/
def safetyReg (a : Nat) : Bool := match locate a with
  | some (.sio, _) | some (.sfa, _) | some (.sfb, _) => true
  | _ => false

/-- STP_CNT. -/
def stpCntReg (a : Nat) : Bool := match locate a with
  | some (.stp _, off) => off == 0x110 || off == 0x114
  | _ => false

/-- ENC_POS. -/
def encPosReg (a : Nat) : Bool := match locate a with
  | some (.enc _, off) => off == 0x110 || off == 0x114
  | _ => false

/-- The ring's positions and the freeze registers (R404). -/
def ringReg (a : Nat) : Bool := match locate a with
  | some (.tr, off) => decide (0x110 ≤ off ∧ off < 0x120) || decide (0x12C ≤ off ∧ off < 0x148)
  | _ => false

/-- The MSI-X table. -/
def msixReg (a : Nat) : Bool := decide (msixBase ≤ a ∧ a < pbaBase)

/-- EVT_EN and EVT_VEC of a page (R465). -/
def routeReg (a : Nat) : Bool := match locate a with
  | some (_, off) => off == EVT_EN || off == EVT_VEC
  | none => false

/-- DEV_PCIE_STAT: the link is kept through a warm reset (Table 11-2). -/
def linkReg (a : Nat) : Bool := a == DEV_PCIE_STAT

/-- Kept in MRAM or by the keep-alive domain, written at the factory, TRACE of the time base (R10, R365), or the result of an
install that the reset has cut (R438), and the output lockouts, which survive every reset (R243). -/
def lastingReg (a : Nat) : Bool :=
  keepOfReg a == .kept || keepOfReg a == .factory || a == TB_STAT || a == PWR_INST_RES || a == SIO_SO_LOCK

/-- The registers that a cold reset and a power loss keep: beside the lasting ones EVT_EN and EVT_VEC (R465). -/
def coldKept (a : Nat) : Bool := lastingReg a || routeReg a

/-- The registers that a warm reset keeps. -/
def warmKept (a : Nat) : Bool :=
  lastingReg a || safetyReg a || stpCntReg a || encPosReg a || ringReg a || msixReg a || routeReg a || linkReg a

/-- TRACE alone of TB_STAT. -/
def traceOnly (d : Dev) : Dev := wrN d TB_STAT (fld (rd d TB_STAT) 2 2 * 4)

/-- The twin controller after a reset. -/
def tw0 : Twin :=
  { tr0 := false, tr1 := false, up0 := false, up1 := false, retry0 := false, retry1 := false, strapErr := false
    joining := false, baseOk := false, halt := false, withdrawn := false, orphan := false, matches_ := 0
    heldP := false, releaseP := false, failure := false, holder := none, idle := true, hold := false
    seizing := false, won := false, lostSz := false, wireA := true, wireB := true, authA := false, authB := false, phase := 0
    fails := 0, chunkFails := [], baseAt := 0, frames := [], standbyAt := 0, holdDone := false, asked := false, askNow := false, handover := none
    seq := 0, queue := [], own := [], peer := [], witness := none, counted := 0, countedW := 0, chunks := []
    ctr0 := none, ctr1 := none, trim := 0, serve := false, sent := [] }

/-- The parts that every reset of the module resets: blocks of the Loop, Logic and Host regions, writes in flight, the pair. -/
def blank (d0 : Dev) (keep : Nat → Bool) : Dev :=
  let d := d0
  let d := { d with
    regs := d.regs.filter (fun p => keep p.1)
    sig := [], attr := [], stage1 := [], stage2 := [], hostq := [], crossing := [], cfgq := []
    evr := { d.evr with vec := [] }
    db := { d.db with writerUp := false }
    health := { d.health with hot := [0, 0, 0, 0], levelAt := 0 }
    idBusy := .idle, tt := 0, ttFrac := 0
    lanes := [], axes := [], quar := [], lps := [], shared := [], trigs := [], cells := [], ctab := []
    cores := d.cores.foldl (fun m p => tset core0 m p.1 (bareCore p.2)) []
    aos := [], dios := [], pls := [], cxs := [], tb := tb0, eths := [], tl := tally0
    role := if pairEn d then .syncing else .solo
    tw := { tw0 with joining := pairEn d }
    jn := { d.jn with draining := none, due := false, shadow := none } }
  let d := banksReset d0 (tkReset (traceOnly d))
  setPow d { d.power with phase := .boot, heldPending := [], vinLow := false, lockLost := none, firstC2 := false, fail := .no }

/-- The strength of a kind of start (R292). -/
def strength : StartKind → Nat
  | .warm => 0 | .vin => 1 | .cold => 2

/-- The kind and RESET_SRC of the start that a reset begins, stronger than a start it abandons. -/
def startOf (d : Dev) (k : StartKind) (src : Nat) : StartKind × Nat :=
  if d.power.phase = .boot ∧ strength k < strength d.power.kind then (d.power.kind, d.power.src) else (k, src)

/-- The module is in a state that a reset ends. -/
def resettable (d : Dev) : Bool := powered d

/-- A warm reset starts no hold of its own: after loss of lock the outputs stand at their safe values (R31), the hold of a start or of
the final boundary runs on through it, or has expired (R307, R308). -/
def outputsGone (d : Dev) (src : Nat) : Bool :=
  src == 3 || d.power.lockLost.isSome || d.oh.holding || d.power.phase == .boot
    || (d.power.phase == .on && (d.power.fail == .draining || d.power.fail == .done))

/-- The trace's lanes and transfers end; the ring stays (R404). -/
def trCut (d : Dev) : Dev := { d with tr := { d.tr with opens := [], gap := [], streaming := false, xferBusy := false, xferOver := false } }

/-- The outputs of a module that a warm reset stops: held, but where they are gone. -/
def warmHold (d : Dev) (src : Nat) : Dev := if outputsGone d src then d else holdStart d src

/-- What a warm reset leaves of the blocks that run on: the safety session ends, the steppers count from the next BP on; the start. -/
def warmEnd (d : Dev) (k : StartKind × Nat) : Dev :=
  let d := setSf d { d.sf with unlocked := false }
  let d := { d with stps := d.stps.map (fun p => (p.1, { p.2 with seen := false, carried := 0 })) }
  setPow d { d.power with kind := k.1, src := k.2 }

/-- A warm reset: outputs held (but after loss of lock, R31), the wear ledger and the trace ring closed first. -/
def warmReset (d : Dev) (src : Nat) : Dev :=
  if resettable d = false then d
  else warmEnd (blank (trCut (warmHold (bankSwap (installCut (trWarm (wearSave d)))) src)) warmKept) (startOf d .warm src)

/-- A trace engine with an empty ring. -/
def tr0 : Trace := ⟨.stopped, [], [], [], false, false, false, false, 0, 0⟩

/-- An input image with nothing on, and the safety channels with no table. -/
def img0 : SfImg := ⟨0, 0, 0, 0, [], []⟩
def chan0 : SfChan := ⟨[], img0, none, false⟩
def sf0 : Safety :=
  { mode := .unconfigured, table := none, pend := none, sealed_ := [], a := chan0, b := chan0
    pairs := List.replicate 16 default, conns := List.replicate 32 default, seqs := [], sent := [], openRun := [], xrun := 0
    cause := 0, unlocked := false, salt := [], hash := none, fails := 0, failAt := 0, cfgAt := 0, pendAt := 0, fwd := false, inA := 0, inB := 0, cmds := [], confirmed := false, imgs := [] }

/-- What of the safety channels is kept in MRAM: the active table, its seal and the password store (R253, R254). -/
def sfStored (s : Safety) : Safety := { sf0 with table := s.table, sealed_ := s.sealed_, salt := s.salt, hash := s.hash }

/-- The parts a cold reset and a power loss reach beside those of a warm reset. -/
def wipe (d : Dev) : Dev :=
  let d := wearLoad (banksReset { d with regs := [] } d)
  { d with stps := [], encs := [], sram := [], poison := [], ring := [], tr := tr0, sf := sfStored d.sf
           evr := { d.evr with msixEnable := false, funcMask := false, busMaster := false, linkUp := false, d3hot := false, leftL0 := false, cfg := pciReset } }

/-- The outputs are unpowered, or safe at once (Table 11-2). -/
def oh0 : OutHold := ⟨false, false, 0, [], [], [], [], []⟩

/-- A cold reset: everything but MRAM and the keep-alive domain, outputs safe at once. -/
def coldReset (d : Dev) (src : Nat) : Dev :=
  if resettable d = false then d
  else
    let d := bankSwap (installCut d)
    let o := { safeOuts d oh0 with src := src }
    let d := wipe (blank d coldKept)
    setPow { d with oh := o } { d.power with kind := .cold, src := src }

/-! ### The reset rows (Table 11-1) -/

/-- PWR_WARM and PWR_COLD act with KEY 0xC01D only (R438). -/
def pwrWarm (d : Dev) (key : Nat) : Dev := if key = 0xC01D then warmReset d 1 else err d .pwr 0x1411 PWR_CMD
def pwrCold (d : Dev) (key : Nat) : Dev := if key = 0xC01D then coldReset d 4 else err d .pwr 0x1411 PWR_CMD

/-- A write of PWR_CMD. -/
def pwrCommand (d : Dev) (v : W32) : Dev :=
  match fld v 3 0 with
  | 0 => pwrNop d
  | 1 => pwrWarm d (fld v 31 16)
  | 2 => pwrCold d (fld v 31 16)
  | 3 => pwrInstall d
  | _ => err d .pwr 0x1413 PWR_CMD

/-- SUPERVISOR_WATCHDOG and SERVICE_PORT_RESET. -/
def supWatchdog (d : Dev) : Dev := warmReset d 2
def servicePort (d : Dev) : Dev := coldReset d 6

/-- PLL_LOCK_LOSS: every output goes to its safe value from the hold logic's own oscillator; counted. -/
def pllLoss (d : Dev) : Dev :=
  if resettable d = true ∧ d.power.lockLost = none then
    let shown := w32 (clkStat (setPow d { d.power with lockLost := some default }))
    let b := mkBody d 0x0004 (sevOf 0x0004) 1 [shown] none
    let d := reportTrigger (setPow d { d.power with lockLost := some b }) 0x0004 1 b.pay
    bump { d with oh := { safeOuts d d.oh with holding := false } } CLK_LOSS_CNT
  else d

/-- PLL_RELOCK and PLL_RELOCK_TIMEOUT: the CLOCK_LOSS report, which keeps the instant of the loss, is held until the writer runs; then a warm reset. -/
def pllEnd (d : Dev) (us : Nat) (relocked : Bool) : Dev :=
  match d.power.lockLost with
  | some b =>
    let d := setDb d { d.db with writerUp := false }
    warmReset (submit d { b with pay := b.pay ++ [w32 us, w32 (b2n relocked)] }) 3
  | none => d

/-- BROWNOUT: VIN is back before the hold-up energy is spent (R307). -/
def brownout (d : Dev) : Dev := if d.power.fail = .done ∧ d.power.pres = true then warmReset d 5 else d

/-- HOLDUP_SPENT: the module enters Keep-alive; what MRAM and the keep-alive domain do not hold is lost. -/
def holdupSpent (d : Dev) : Dev :=
  if powered d = true ∧ d.power.fail ≠ .no then
    let k := startOf d .vin 0
    let d := nvFlush (bankSwap (installCut d)) nvLo nvHi
    let d := wipe (blank d lastingReg)
    setPow { d with oh := oh0 } { d.power with phase := .keepAlive, holdupOk := false, vfldLow := false, kaVka := false, kind := k.1, src := k.2 }
  else d

/-- VIN_RISE: VIN in its operating range with PRES_N asserted (R434, R297); ka: KA_RTC units since VIN was lost. The kind of the start is
that of the loss, or of a cold start that the loss has cut short (R292). -/
def vinRise (d : Dev) (ka : Nat) : Dev :=
  if powered d = false ∧ d.power.pres = true then
    let lost := decide (d.power.phase = .off)
    let d := if lost then
        wrFld (wrN (wr64 (wr64 d PWR_KA_RTC 0) PWR_OPT_MS d.power.kaOpt) PWR_PCC d.power.kaPcc) HLTH_INSERT 15 0 d.power.kaIns
      else wr64 d PWR_KA_RTC ((rd64 d PWR_KA_RTC + ka) % 2 ^ 64)
    let d := wrN d PWR_PCC ((pcc d + 1) % 2 ^ 24)
    setPow d { d.power with phase := .boot, kaLost := lost, fail := .no }
  else d

/-! ### The image directory (R296, R315) -/

/-- The entry of a block's image. -/
def dirOf (d : Dev) (p : Page) (bank : Nat) : Option DirEnt := d.dir.find? (fun e => e.base == pageBase p && e.bank == bank)

/-- An image is not reloaded: no entry, or its bytes no longer match. -/
def imageBad (d : Dev) (bad : List (Nat × Nat)) (p : Page) (bank : Nat) : Bool :=
  (dirOf d p bank).isNone || bad.contains (pageBase p, bank)

/-- The IMAGE_BAD record of a block. -/
def imageRecord (d : Dev) (p : Page) (bank typ : Nat) : Dev :=
  let sha := match dirOf d p bank with
    | some e => e.sha
    | none => []
  report d 0x0003 (pageOrigin p) ([blkId p, w32 typ] ++ pay64 (leNat (sha.take 8)))

/-! ### Cold start (R297) -/

/-- The directory after a cold start: the safety table and the firmware banks only (R296). -/
def dirCold (d : Dev) : Dev := { d with dir := d.dir.filter (fun e => e.typ == 4 || e.typ == 1) }

/-- The safety channels at a start: a lockout stays where the output test of the start does not find both switches healthy (R243; bad,
bit o: output o); the seal is verified (R254), and a table whose seal fails locks both channels out. -/
def sfColdStart (d : Dev) (bad : Nat) : Dev :=
  let d := wrN d SIO_SO_LOCK (fld (rd d SIO_SO_LOCK) 7 0 &&& bad)
  match d.sf.table with
  | none => d
  | some t =>
    if Config.moduleSign (Config.sha256 t.body) = d.sf.sealed_ then sfActivate d t
    else sfLockout (imageRecord d .sfa 0 4) 2 0

/-- The claims of safety channels that have run on through a warm reset. -/
def sfClaims (d : Dev) : Dev :=
  match d.sf.table with
  | some t => (sfEntries t).foldl (fun d e => claim d e.1 clsSafety e.2 true 0) d
  | none => d

/-- SB_START_INFO. -/
def startInfo (kind cause : Nat) (fallback : Bool) (src : Nat) : Nat := kind + cause * 256 + b2n fallback * 4096 + src * 8192

/-- The start is shown and recorded (R310, R317). -/
def startRecord (d : Dev) (info commit off : Nat) : Dev :=
  let d := wr64 (wr64 (wrN (wrN d SB_START_CNT 1) SB_START_INFO info) SB_OFF off) SB_RESUMED commit
  report d 0x0001 11 ([w32 info] ++ pay64 commit ++ pay64 off)

/-- Ready or Run is reached; FORCE_COLD lapses; PTP runs where it is enabled. -/
def reach (d : Dev) : Dev :=
  let d := ptpStart d
  setJn (setPow d { d.power with phase := .on, firstC2 := false }) { d.jn with cold := false, epoch := epochReg d }

/-- REQ of MB_ILV takes effect (R417). -/
def ilvStart (d : Dev) : Dev :=
  let w := rd d (MB_ILV 0)
  if fld w 5 4 = fld w 1 0 then d else { wrFld d (MB_ILV 0) 5 4 (fld w 1 0) with sram := [], poison := [] }

/-- The registers that a cold start leaves: routing of the pages but the safety channels', STP_CNT and TRACE come with the reset. -/
def coldRegs (d : Dev) : Dev := { d with regs := d.regs.filter (fun p => !(routeReg p.1 && !safetyReg p.1) && !stpCntReg p.1 && p.1 != TB_STAT), stps := [] }

/-- The safety channels at a cold start: run on through a warm reset, or started. -/
def coldSafety (d : Dev) (warm : Bool) (so : Nat) : Dev := if warm then sfClaims d else sfColdStart d so

/-- A cold start: (J) fields at their reset values, the directory emptied, the baseline commit. -/
def coldStart (d : Dev) (cause : Nat) (fallback : Bool) (so : Nat) : Dev :=
  startRecord (baseline (reach (coldSafety (ilvStart (dirCold (coldRegs d))) (d.power.kind == .warm) so))) (startInfo 1 cause fallback d.power.src) 0 0

/-! ### Resume (R314, R315) -/

/-- A journalled register that a warm reset does not put back: safety (R257) and STP_CNT have run on. -/
def ranOn (vin : Bool) (a : Nat) : Bool := !vin && (safetyReg a || stpCntReg a)

/-- The registers as committed at B. -/
def backRegs (d : Dev) (s : Snap) (vin : Bool) : Dev :=
  let d := { d with regs := d.regs.filter (fun p => keepOfReg p.1 != .journal || ranOn vin p.1) }
  (s.regs.filter (fun p => !ranOn vin p.1)).foldl (fun d p => wr d p.1 p.2) d

/-- A lane after a resume (R90, R92): a lane in LOADING comes back EMPTY; a lane that ran applies its policy at its first tick. -/
def backLane (ticks : Nat) (x : Lane) : Lane :=
  match x.st with
  | .loading => lane0
  | .running | .paused => { x with resume := some ticks, late := [], lateT := none, judge := true }
  | _ => { x with late := [], lateT := none, judge := true }

/-- RESUMED shows in the first instance of each task after the resume: the one in flight, else the next (Table 8-5). -/
def resumedKeep (x : Lp) : Tab TKeep :=
  x.prog.tasks.foldl (fun m t => tset keep0 m t.k { tget keep0 m t.k with resumed := (instOf x t.k).isNone }) x.keep

/-- A logic processor after a resume (R236): RESUMED shows, verification is lost, a quarantine has ended (log entry 12); execution
goes on from the boundary at C2 with a whole base period before it. -/
def backLp (ms : Nat) (x : Lp) : Lp :=
  match x.st with
  | .loading => { lp0 with offMs := ms }
  | st => { x with
      st := if st = .quarantined then .loaded else st
      stage := if x.stage = .verifying then .none else x.stage
      copy := [], copyLen := 0, current := none, offMs := ms, at_ := 0, cmds := []
      insts := x.insts.map (fun t => { t with resumed := true })
      keep := resumedKeep x }

/-- A segment after a resume (R339): LISTEN, its slots SEEKING with their delays. -/
def backPl (n : Nat) (x : Pl) : Pl :=
  match x.st with
  | .loading => pl0
  | .listen | .running =>
    { x with st := .listen, start := none, heardAt := n, cycles := 0, closing := 0, wait := false, asked := false, violators := [], sent := [], kept := true
             slots := x.slots.map (fun y => { slInit y with st := .seeking, mute := false }) }
  | .quarantined => { x with st := .stopped, wait := false, asked := false }
  | _ => { x with wait := false, asked := false }

/-- A converter core after a resume: channel states and sequence position as committed, slices and rotation its own (R164),
no wire open, as AC_OPEN reads,
conversions anew from slot 0. -/
def backCore (own x : Core) : Core :=
  { own with on := x.on, len := x.len, pos := x.pos, tag := x.tag, pend := x.pend, pairN := x.pairN
             chans := x.chans.map (fun e => (e.1, { e.2 with open_ := false, run := 0, hist := [], skip := false })) }

/-- A quarantined tile resumes with its RUN and those of its cells cleared, its cells STOPPED, their output entries at LC_SAFE and
their other entries as they are, all with SAFE clear (R96, R100); motion tiles alike. -/
def backTile (d : Dev) (t : Nat) : Dev :=
  if t < 64 then
    (List.range 32).foldl (fun d i =>
      let g := 32 * t + i
      let d := setCell (wrBit d (lcBase g + BLK_CTRL) 0 false) g { cellOf d g with st := .stopped }
      let d := (lcOuts d g).foldl (fun d n => commitSig d ⟨n, ofQ15 (lcSafe d g), false⟩) d
      (lcPubs d g).foldl (fun d n => commitSig d ⟨n, sigVal d n, false⟩) d) (wrBit d (ltBase t + BLK_CTRL) 0 false)
  else
    (List.range 8).foldl (fun d i =>
      let a := 8 * (t - 64) + i
      if (axOf d a).st = .quarantined then setAx (wrBit d (axBase a + BLK_CTRL) 0 false) a { axOf d a with st := .disabled } else d)
      (wrBit d (mtBase (t - 64) + BLK_CTRL) 0 false)

/-- The load result of a block whose verification the reset has cut. -/
def cutLoads (d : Dev) (s : Snap) : Dev :=
  let d := s.lanes.foldl (fun d p => if p.2.st = .loading then wrN d (SQ_LOAD_RES p.1) 0x0B else d) d
  let d := s.lps.foldl (fun d p => if p.2.st = .loading ∨ p.2.stage = .verifying then wrN d (LP_LOAD_RES p.1) 0x0D else d) d
  s.pls.foldl (fun d p => if p.2.st = .loading then wrN d (PL_LOAD_RES p.1) 0x08 else d) d

/-- The entries of a block that is not reloaded hold their safe values with SAFE set. -/
def safeEntries (d : Dev) (es : List (Nat × W32)) : Dev := es.foldl (fun d e => commitSig d ⟨e.1, e.2, true⟩) d

/-- The images of lanes, processors and segments are compared with the directory (R315). -/
def backImages (d : Dev) (bad : List (Nat × Nat)) : Dev :=
  let d := (tkeys d.lanes).foldl (fun d l =>
    let x := laneOf d l
    if x.st ≠ .empty ∧ imageBad d bad (.sq l) 0 then
      imageRecord (setLane (safeEntries d (x.img.targets.map (fun t => (t.n, t.safe)))) l lane0) (.sq l) 0 2 else d) d
  let d := (tkeys d.lps).foldl (fun d p =>
    let x := lpOf d p
    if x.st ≠ .empty ∧ imageBad d bad (.lp p) (b2n x.bank) then
      imageRecord (setLp (safeEntries d (x.prog.outs.map (fun o => (o.n, o.safe)))) p { lp0 with offMs := x.offMs }) (.lp p) (b2n x.bank) 3 else d) d
  (tkeys d.pls).foldl (fun d s =>
    if (plOf d s).st ≠ .empty ∧ imageBad d bad (.pl s) 0 then
      imageRecord (setPl d s { plOf d s with st := .stopped }) (.pl s) 0 5 else d) d

/-- The safety channels after VIN returns (R257): as committed, instances in STOP, consumers with a fresh watchdog. -/
def backSafety (d : Dev) (s : Safety) (bad : List (Nat × Nat)) : Dev :=
  let stop (c : SfChan) : SfChan := { c with insts := c.insts.map (fun _ => default), fwd := none, alone := false }
  let cs := s.conns.map (fun x => { x with ageA := 0, ageB := 0 })
  let d := setSf d { s with a := stop s.a, b := stop s.b, conns := cs, unlocked := false, sent := [], openRun := [], salt := d.sf.salt, hash := d.sf.hash }
  match s.table with
  | some t =>
    if imageBad d bad .sfa 0 = true ∨ Config.moduleSign (Config.sha256 t.body) ≠ s.sealed_ then sfLockout (imageRecord d .sfa 0 4) 2 0 else d
  | none => d

/-- The entries of segments that have resumed in LISTEN or STOPPED hold their safe values from the first C1 on (R326). -/
def backEntries (d : Dev) : Dev :=
  (tkeys d.pls).foldl (fun d s => if (plOf d s).st = .listen ∨ (plOf d s).st = .stopped then plSafe d s false else d) d

/-- A journalled state is put back (Table 11-10): vin, whether VIN was off; off, KA_RTC units since the commit. -/
def restore (d : Dev) (c : Commit) (vin : Bool) (off : Nat) (bad : List (Nat × Nat)) : Dev :=
  let s := c.snap
  let ns := off * 1000000000 / 65536
  let encs := d.encs
  let lock := rd d SIO_SO_LOCK
  let d := backRegs d s vin
  let d := wr d SIO_SO_LOCK (rd d SIO_SO_LOCK ||| lock)
  let d := { d with
    sig := s.sig, attr := s.attr, quar := [], shared := s.shared, trigs := s.trigs, ctab := s.ctab, cells := s.cells
    lanes := s.lanes.map (fun p => (p.1, backLane (ns / 10000) p.2))
    axes := s.axes.map (fun p => (p.1, { p.2 with back := some vin }))
    stps := s.stps.map (fun p => (p.1, { p.2 with seen := false, carried := 0 }))
    encs := if vin then [] else encs
    lps := (List.range 4).foldl (fun m p => tset lp0 m p (backLp (ns / 1000000) (tget lp0 s.lps p))) []
    cores := (tkeys s.cores ++ tkeys d.cores).foldl (fun m k => tset core0 m k (backCore (tget core0 d.cores k) (tget core0 s.cores k))) []
    aos := s.aos
    dios := s.dios.map (fun p => (p.1, { p.2 with judge := true }))
    pls := s.pls.map (fun p => (p.1, backPl (c.boundary + 1) p.2)) }
  let d := wr64 (cutLoads d s) BP_CNT c.boundary
  let d := s.quar.foldl backTile d
  let d := if vin then backSafety d s.sf bad else d
  let d := backEntries (backImages d bad)
  let trace := rdBit d TB_STAT 2
  let d := wrBit (tbStep d (c.tb + ns) 3) TB_STAT 2 trace
  setTb d { d.tb with vinResume := vin }

/-- Starts in a row from this commit without a new one: those counted for the newest (Table 11-9, row 5). -/
def startsFrom (d : Dev) (c : Commit) : Nat :=
  match d.jn.commits with
  | x :: _ => if x.number = c.number then d.jn.starts else 0
  | [] => 0

/-- A resume from a commit. -/
def resume (d : Dev) (c : Commit) (fallback : Bool) (bad : List (Nat × Nat)) : Dev :=
  let vin := d.power.kind == .vin
  let src := d.power.src
  let off := rd64 d PWR_KA_RTC - c.ka
  let d := restore d c vin off bad
  let d := wrN (wr64 (wr64 (wr64 d SB_NUMBER c.number) SB_BOUNDARY c.boundary) SB_DIGEST c.digest) SB_ROWS c.rows
  let d := reach d
  let d := setJn d { d.jn with commits := d.jn.commits.dropWhile (fun x => x.number != c.number), starts := startsFrom d c + 1, top := c.number }
  startRecord d (startInfo (if vin then 3 else 2) 0 fallback src) c.number off

/-! ### The start decision (R310, R311, R313) -/

/-- The commit that R313 chooses, and whether a slot failed or the newest was passed over. -/
def choose (d : Dev) (e : BootEnv) : Option Commit × Bool :=
  match d.jn.commits with
  | [] => (none, e.slotBad)
  | [c] => if e.newestBad then (none, true) else (some c, e.slotBad)
  | c :: p :: _ => if e.newestBad then (if e.prevBad then none else some p, true) else (some c, e.slotBad)

/-- Rows 3 to 8 of Table 11-9. -/
def startOwn (d : Dev) (e : BootEnv) : Dev :=
  let r := choose d e
  let vin := d.power.kind == .vin
  match r.1 with
  | none => coldStart d (if d.jn.commits.isEmpty ∧ e.slotBad = false then 2 else 3) r.2 e.soBad
  | some c =>
    let max_ := rdN d SB_RESUME_MAX
    if e.sealBad then coldStart d 3 r.2 e.soBad
    else if c.fw ≠ Config.fwLayout (fwSha d d.power.bank) then coldStart d 6 r.2 e.soBad
    else if 2 ≤ startsFrom d c then coldStart d 7 r.2 e.soBad
    else if vin ∧ d.power.kaLost then coldStart d 4 r.2 e.soBad
    else if vin ∧ (max_ = 0 ∨ max_ * 65536 < rd64 d PWR_KA_RTC - c.ka) then coldStart d 5 r.2 e.soBad
    else resume d c r.2 e.images

/-- A sync (row 2): control state comes from the partner; nothing is controlled until its base is installed. -/
def startSync (d : Dev) : Dev :=
  let src := d.power.src
  let vin := d.power.kind
  let d := { d with regs := d.regs.filter (fun p => !(routeReg p.1 && !safetyReg p.1) && !stpCntReg p.1) }
  let d := if vin = .warm then sfClaims d else sfColdStart d 0xFF
  startRecord (reach d) (startInfo 4 0 false src) 0 0

/-! ### The Guyline's wires (R275) -/

/-- The module's unit code (R273). -/
def glCode (d : Dev) : Nat := (if pref d then 0 else 0x8000) + 0x5A50 + fld (rd d ID_STRAP) 3 0

/-- GL_STAT; 0, as after reset, while PAIR_EN = 0 and the module has nothing to do with the wires (R259). -/
def glStat (d : Dev) : Nat :=
  let t := d.tw
  if pairEn d = false then 0 else
  let other := !t.hold && t.holder.isSome
  b2n t.hold + 2 * b2n other + 4 * b2n t.idle + 8 * b2n t.wireA + 16 * b2n t.wireB + 32 * b2n (t.wireA && t.wireB)
    + 64 * b2n t.seizing + 128 * b2n t.authA + 256 * b2n t.authB
    + 65536 * (if t.hold then glCode d else t.holder.getD 0xFFFF)

/-- Health of a wire (0 GL_A, 1 GL_B). -/
def wireOk (d : Dev) (w : Nat) : Bool := if w = 0 then d.tw.wireA else d.tw.wireB
def setWire (d : Dev) (w : Nat) (b : Bool) : Dev := setTw d (if w = 0 then { d.tw with wireA := b } else { d.tw with wireB := b })

/-- GUYLINE_WIRE_FAIL: counted and recorded. -/
def wireFail (d : Dev) (w : Nat) : Dev :=
  if pairEn d = true ∧ wireOk d w = true then
    let d := bump (setWire d w false) GL_WIRE_CNT
    report d 0x0063 9 [w32 (w % 2), 1, w32 (glStat d)]
  else d

/-- GUYLINE_WIRE_HEALTHY. -/
def wireHealthy (d : Dev) (w : Nat) : Dev :=
  if pairEn d = true ∧ wireOk d w = false then
    let d := setWire d w true
    report d 0x0063 9 [w32 (w % 2), 2, w32 (glStat d)]
  else d

/-- The test of idle wires: each that fails is counted. -/
def wireTest (d : Dev) (a b : Bool) : Dev :=
  let d := setTw d { d.tw with wireA := true, wireB := true }
  let d := if a then d else wireFail d 0
  if b then d else wireFail d 1

/-! ### Boot -/

/-- The active bank is checked; the other one is tried, and a fallback recorded (R295). None: both fail. -/
def fwSelect (d : Dev) (e : BootEnv) : Option Dev :=
  let bad (b : Nat) := e.fwBad.contains b || d.power.badBanks.contains b
  let b := d.power.bank
  if bad b = false then some d
  else if bad (1 - b) = false then
    some (report (setPow d { d.power with bank := 1 - b }) 0x0002 0x200 [w32 b, w32 (1 - b), w32 (fwVer d (1 - b))])
  else none

/-- Table 11-9 from the top. A module with PAIR_EN = 1 that neither holds the Guyline nor decodes a holder goes on listening. -/
def decide_ (d : Dev) (e : BootEnv) : Dev :=
  if d.power.kind = .cold ∨ d.jn.cold = true then
    let d := coldStart d 1 e.slotBad e.soBad
    if pairEn d = true ∧ d.tw.hold = true then setRole d .solo 1 else d
  else if pairEn d then
    if d.tw.hold then
      let r := startOwn d e
      if r.power.phase = .on then setRole (setTw r { r.tw with joining := false }) .solo 1 else r
    else if d.tw.holder.isSome then startSync d
    else d
  else startOwn d e

/-- The Held triggers of Boot take effect at its end, each with its record (R15, R435). -/
def pendingHeld (d : Dev) : Dev :=
  if d.power.phase = .on then
    d.power.heldPending.foldl (fun d h => enterHeld d h.blk h.code.toNat h.addr.toNat) (setPow d { d.power with heldPending := [] })
  else d

/-- The clocks of the keep-alive domain over a start. -/
def bootClock (d : Dev) (e : BootEnv) : Dev :=
  wr64 (wr64 d PWR_KA_RTC ((rd64 d PWR_KA_RTC + e.ka) % 2 ^ 64)) PWR_OPT_MS ((optMs d + e.ms) % 2 ^ 40)

/-- The Daybook writer runs again, where it does not yet (R384, R389). -/
def bootWriter (v : Vault) (d : Dev) : Vault × Dev := if d.db.writerUp then (v, d) else (let r := scanAreas v d; writerStart r.1 r.2)

/-- A module that joins a pair tests its idle wires. -/
def bootWires (d : Dev) (e : BootEnv) : Dev := if pairEn d = true ∧ d.tw.joining = true ∧ d.tw.hold = false then wireTest d e.wireA e.wireB else d

/-- BOOT_COMPLETE: the firmware is checked, the Daybook writer runs (R384, R389), and the start is decided. No start, cold or not, is
complete before HOLDUP_OK (R306). -/
def bootComplete (v : Vault) (d : Dev) (e : BootEnv) : Vault × Dev :=
  if d.power.phase ≠ .boot then (v, d)
  else
    match fwSelect (bootClock d e) e with
    | none => (v, setPow (bootClock d e) { (bootClock d e).power with phase := .service })
    | some d =>
      if d.power.holdupOk = false then (v, d)
      else ((bootWriter v d).1, pendingHeld (decide_ (bootWires (bootWriter v d).2 e) e))

end Sys2Proof.Machine
end

