-- ==== Sys2Proof/Machine/Twin.lean ====
section
/-! DEFINITION. Twin operation: lanes, roles, the Guyline, the Lantern, forwarding, digests, sync and handover (chapter 10). -/

namespace Sys2Proof.Machine

/-! ### Partner and lanes (R262, R264, R277) -/

/-- An authenticated partner that is there and not in Held (R259, R281). -/
def partnerThere (d : Dev) : Bool := twPaired d && !d.tw.heldP && !d.tw.failure

/-- INTEG_OK: both wires are healthy. -/
def integOk (d : Dev) : Bool := d.tw.wireA && d.tw.wireB

/-- Change lane n's flags: trained, trusted, retry due. -/
def setTwLane (d : Dev) (n : Nat) (tr up retry : Bool) : Dev :=
  setTw d (if n = 0 then { d.tw with tr0 := tr, up0 := up, retry0 := retry } else { d.tw with tr1 := tr, up1 := up, retry1 := retry })
def laneTr (d : Dev) (n : Nat) : Bool := if n = 0 then d.tw.tr0 else d.tw.tr1
def laneUp (d : Dev) (n : Nat) : Bool := if n = 0 then d.tw.up0 else d.tw.up1
def laneRetry (d : Dev) (n : Nat) : Bool := if n = 0 then d.tw.retry0 else d.tw.retry1

/-- A PAIR_LINK record, of source 7. -/
def pairLink (d : Dev) (event lane detail : Nat) : Dev := report d 0x0062 7 [w32 event, w32 lane, w32 detail]

/-- The twin lanes are used: PAIR_EN is 1 and the module runs. -/
def twRuns (d : Dev) : Bool := pairEn d && powered d

/-- LANE_TRAINED. -/
def laneTrained (d : Dev) (n : Nat) : Dev := if twRuns d = true ∧ laneTr d n = false then setTwLane d n true false false else d

/-- A sync is wanted, and asked for: it starts at the next t0 (R260, R282). -/
def wantSync (d : Dev) : Dev := twSend (setTw d { d.tw with phase := 1, baseOk := false, chunks := [], chunkFails := [], frames := [] }) (.ctrl 0)

/-- A lane trusted anew has new keys, whose counters start again. -/
def freshCtr (d : Dev) (n : Nat) : Dev := setTw d (if n = 0 then { d.tw with ctr0 := none } else { d.tw with ctr1 := none })

/-- LANE_AUTH_DONE: trusted; failed, counted and recorded; or the PREF straps are equal, so that no partner is authenticated (R261). -/
def laneAuthDone (d : Dev) (n : Nat) (ok same : Bool) : Dev :=
  if twRuns d = false ∨ laneTr d n = false ∨ laneUp d n = true then d
  else if same ∨ d.tw.strapErr then setTw (setTwLane d n true false false) { (setTwLane d n true false false).tw with strapErr := true }
  else if ok then
    let d := pairLink (freshCtr (setTwLane d n true true false) n) 2 n 0
    if (d.role = .standby ∧ d.tw.orphan = true) ∨ (d.role = .syncing ∧ d.tw.withdrawn = true) then wantSync d else d
  else pairLink (bump (setTwLane d n true false true) TW_AUTH_FAIL_CNT) 3 n 0

/-- AUTH_RETRY: 1 s after a failed exchange it is tried again. -/
def authRetry (d : Dev) (n : Nat) : Dev := if laneRetry d n then setTwLane d n (laneTr d n) false false else d

/-- TWIN_LANE_DOWN. -/
def twinLaneDown (d : Dev) (n : Nat) : Dev :=
  if twRuns d = true ∧ (laneTr d n = true ∨ laneUp d n = true) then pairLink (setTwLane d n false false false) 1 n 0 else d

/-- A received lane frame (R262): on a lane that is not trusted it is no frame; a wrong tag or length, or a counter that is not greater
than the lane's latest, discards and counts it. -/
def laneFrame (d : Dev) (h : TwHead) (f : Dev → Dev) : Dev :=
  if twRuns d = false ∨ laneUp d h.lane = false then d
  else
    let last := if h.lane = 0 then d.tw.ctr0 else d.tw.ctr1
    let newer := match last with
      | some c => decide (c < h.ctr)
      | none => true
    if h.good && newer then f (setTw d (if h.lane = 0 then { d.tw with ctr0 := some h.ctr } else { d.tw with ctr1 := some h.ctr }))
    else bump d TW_LANE_ERR_CNT

/-- BEAT_RECEIVE: a beat of the partner on a trusted lane ends the count of missed ones. -/
def beatReceive (d : Dev) (b : TwBeat) : Dev :=
  if twRuns d = true ∧ twPaired d = true then
    setTw d { d.tw with heldP := b.held, releaseP := b.release, failure := false
                        handover := match b.handover with | some h => some h | none => d.tw.handover }
  else d

/-- The witness counts of every segment start anew. -/
def witnessClear (d : Dev) : Dev := { d with pls := d.pls.map (fun p => (p.1, { p.2 with wr := 0, wp := 0 })) }

/-- A witness check begins (R279). -/
def witnessStart (d : Dev) : Dev := setTw (witnessClear d) { (witnessClear d).tw with witness := some (bp d) }

/-- LANTERN_FAILURE: the fourth beat instant in a row missed on both lanes. -/
def lanternFailure (d : Dev) : Dev :=
  if twRuns d = true ∧ d.tw.failure = false then
    let d := setTw d { d.tw with failure := true }
    if d.role = .standby ∧ d.tw.holder.isSome = true ∧ d.tw.witness = none then witnessStart d else d
  else d

/-- WITNESS_CHECK_END (Table 10-5): ORPHAN where replies came and none shows the partner's copy; WITHDRAWN otherwise. -/
def witnessEnd (d : Dev) : Dev :=
  match d.tw.witness with
  | none => d
  | some _ =>
    let replies : Nat := (d.pls.map (fun p => p.2.wr)).foldl (· + ·) 0
    let partner : Nat := (d.pls.map (fun p => p.2.wp)).foldl (· + ·) 0
    let d := setTw d { d.tw with witness := none }
    if 0 < replies ∧ partner = 0 then pairLink (setTw d { d.tw with orphan := true }) 7 0 0
    else pairLink (setTw d { d.tw with withdrawn := true }) 6 0 0

/-! ### The Guyline (R273 to R276) -/

/-- A module seizes on its own when every healthy wire has been recessive for 3 µs, it does not hold, and both wires are healthy
(R276, R278). -/
def maySeize (d : Dev) : Bool :=
  pairEn d && d.tw.idle && d.tw.holder.isNone && !d.tw.hold && !d.tw.seizing && integOk d
    && (d.power.phase == .on || (d.power.phase == .boot && d.tw.joining))

/-- SEIZE. -/
def seize (d : Dev) : Dev := if maySeize d then setTw d { d.tw with seizing := true, lostSz := false } else d

/-- SEIZURE_WON: the code is complete and the train starts. -/
def seizureWon (d : Dev) : Dev :=
  if d.tw.seizing then
    bump (setTw d { d.tw with seizing := false, hold := true, won := true, lostSz := false, idle := false, holder := none, authA := true, authB := true }) GL_SEIZE_CNT
  else d

/-- SEIZURE_LOST. -/
def seizureLost (d : Dev) : Dev :=
  if d.tw.seizing then bump (setTw d { d.tw with seizing := false, lostSz := true }) GL_LOSS_CNT else d

/-- HOLDER_DECODED: two valid frames in a row with the same code. -/
def holderDecoded (d : Dev) (code : Nat) : Dev :=
  if pairEn d = true ∧ d.tw.hold = false then
    setTw d { d.tw with holder := some (code % 65536), idle := false, orphan := d.tw.orphan && d.role == .standby }
  else d

/-- HOLDER_LOST: every healthy wire recessive for 3 µs. A module that held has released, whatever the cause (R274); a standby whose
INTEG_OK is 0 becomes ORPHAN, as with a silent partner (R276). -/
def holderLost (d : Dev) : Dev :=
  if pairEn d = true ∧ (d.tw.holder.isSome = true ∨ d.tw.hold = true) then
    let d := setTw d { d.tw with holder := none, idle := true, hold := false, won := false }
    if d.role = .standby ∧ integOk d = false then pairLink (setTw d { d.tw with orphan := true }) 7 0 0 else d
  else d

/-- AUTH_DISAGREE: the copies of the safety channels differ for more than 2 µs (R280). -/
def authDisagree (d : Dev) (a b : Bool) : Dev :=
  if pairEn d = true ∧ a ≠ b ∧ (d.power.phase = .on ∨ d.power.phase = .boot) then
    let d := bump (setTw d { d.tw with hold := false, authA := a, authB := b }) GL_DISAGREE_CNT
    let d := report d 0x0064 9 [w32 (b2n a), w32 (b2n b), w32 (roleNum d.role)]
    enterHeld d (blkId .gl) (Config.faultCode 8) 0
  else d

/-- GL_NOP, GL_FORCE_SEIZE and GL_RETEST. -/
def glNop (d : Dev) : Dev := d
def glForce (d : Dev) (key : Nat) : Dev :=
  if key = 0x5EE5 ∧ (d.role = .standby ∨ d.role = .syncing) ∧ d.power.phase ≠ .held ∧ d.tw.holder = none ∧ pairEn d = true then
    setTw d { d.tw with seizing := true, lostSz := false }
  else err d .gl 0x0A11 GL_CMD
def glRetest (d : Dev) (a b : Bool) : Dev := if pairEn d then wireTest d a b else d

/-! ### Digests (R270) -/

/-- The entry of an epoch in a list of digests. -/
def digestAt (l : List (Nat × Nat)) (e : Nat) : Option Nat := (l.find? (fun p => p.1 == e)).map (·.2)

/-- A sync has failed (R285): event 4, from BASE anew; three in a row set SYNC_HALT. -/
def syncFail (d : Dev) (phase : Nat) : Dev :=
  let n := d.tw.fails + 1
  let d := pairLink (bump d TW_SYNC_FAIL_CNT) 4 0 phase
  setTw d { d.tw with fails := n, halt := d.tw.halt || decide (3 ≤ n), phase := 2, baseOk := false, chunks := [], chunkFails := [], frames := [] }

/-- A comparison has failed: MATCH, the count, the record of an authoritative module, the standby's resync. -/
def mismatch (d : Dev) (e own peer : Nat) : Dev :=
  let d := bump (setTw d { d.tw with matches_ := 0, asked := false }) TW_DIG_MIS_CNT
  let d := if authoritative d then report d 0x0061 7 (pay64 e ++ pay64 own ++ pay64 peer) else d
  if d.role = .standby then wantSync d
  else if d.role = .syncing ∧ d.tw.phase = 4 then syncFail d 4 else d

/-- Both digests of an epoch are there. -/
def compareDigest (d : Dev) (e own peer : Nat) : Dev :=
  let d := setTw d { d.tw with own := d.tw.own.filter (fun p => p.1 != e), peer := d.tw.peer.filter (fun p => p.1 != e) }
  let d := wr64 (wr64 (wr64 d TW_EPOCH e) TW_DIG_OWN own) TW_DIG_PEER peer
  if own ≠ peer then mismatch d e own peer
  else
    let d := setTw d { d.tw with matches_ := min 255 (d.tw.matches_ + 1) }
    if d.role = .syncing ∧ d.tw.phase = 4 then setTw d { d.tw with phase := 5 } else d

/-- DIGEST_RECEIVE. -/
def digestReceive (d : Dev) (e dig : Nat) : Dev :=
  if twRuns d = false ∨ twPaired d = false then d
  else
    let d := setTw d { d.tw with peer := (e, dig % 2 ^ 64) :: d.tw.peer.filter (fun p => p.1 != e) }
    match digestAt d.tw.own e with
    | some own => compareDigest d e own (dig % 2 ^ 64)
    | none => d

/-- The seconds of hold-off left (TW_HOLD_LEFT). -/
def holdLeft (d : Dev) : Nat :=
  if d.role = .standby ∧ d.tw.holdDone = false then rdN d TW_HOLDOFF - (bp d - d.tw.standbyAt) / 100000 else 0

/-- The conditions of R286 but for the hold-off. -/
def mayReturn (d : Dev) : Bool :=
  d.role == .standby && pref d && decide (16 ≤ d.tw.matches_) && autoReturn d && d.tw.up0 && d.tw.up1 && integOk d

/-- RETURN_PEND. -/
def returnPend (d : Dev) : Bool := mayReturn d && !d.tw.holdDone

/-- The CTRL frame after an epoch commit asks for authority where R286 says so. -/
def askReturn (d : Dev) : Dev :=
  if mayReturn d && (d.tw.holdDone || d.tw.askNow) then twSend (setTw d { d.tw with asked := true, askNow := false }) (.ctrl 1) else d

/-- HOLDOFF_EXPIRED. -/
def holdoffExpired (d : Dev) : Dev :=
  if d.role = .standby ∧ rdN d TW_HOLDOFF * 100000 ≤ bp d - d.tw.standbyAt then setTw d { d.tw with holdDone := true } else d

/-- A digest of our own: it is sent, compared, and an epoch before it whose digest is missing counts as a mismatch. -/
def ownDigest (d : Dev) (e dig : Nat) : Dev :=
  if twRuns d = false ∨ twPaired d = false then d
  else
    let lost := (d.tw.own.filter (fun p => decide (p.1 < e))).map (·.1) ++ (d.tw.peer.filter (fun p => decide (p.1 < e))).map (·.1)
    let d := lost.foldl (fun d x =>
      let o := (digestAt d.tw.own x).getD 0
      let p := (digestAt d.tw.peer x).getD 0
      mismatch (setTw d { d.tw with own := d.tw.own.filter (fun q => q.1 != x), peer := d.tw.peer.filter (fun q => q.1 != x) }) x o p) d
    let d := twSend (setTw d { d.tw with own := (e, dig) :: d.tw.own }) (.digest e dig)
    match digestAt d.tw.peer e with
    | some p => compareDigest d e dig p
    | none => d

/-- JOURNAL_COMMIT: the drain ends, the record is written, and the digest goes to the partner (R270, R300). -/
def journalCommit (d : Dev) : Dev :=
  match d.jn.draining with
  | none => d
  | some c =>
    if c.final then d
    else askReturn (ownDigest (commitDone d c) c.boundary c.digest)

/-! ### Forwarding (R265 to R268) -/

/-- The state that a frame bears on is there: STANDBY, or SYNCING from its base on. -/
def follows (d : Dev) : Bool := twRuns d && twPaired d && (d.role == .standby || d.role == .syncing)

/-- The BP of a frame. -/
def frameBp : TwFrame → Nat
  | .input n _ _ | .writes n _ _ | .pliale n _ _ _ | .image n _ _ => n

/-- The module's own BP_CNT stands in the pair's grid: not before a SYNCING module has its base. -/
def onGrid (d : Dev) : Bool := d.role != .syncing || d.tw.baseOk

/-- A frame is kept for its BP; a SYNCING module whose buffer reaches over 10,000 BP fails its sync (R283, R285). -/
def keepFrame (d : Dev) (n : Nat) (f : TwFrame) : Dev :=
  if follows d = false ∨ (onGrid d = true ∧ n ≤ bp d) then d
  else if d.tw.frames.contains f then d
  else if d.role = .syncing ∧ d.tw.frames.any (fun g => decide (frameBp g + 10000 ≤ n)) = true then syncFail d d.tw.phase
  else setTw d { d.tw with frames := d.tw.frames ++ [f] }

/-- INPUT_FRAME_RECEIVE and WRITES_FRAME_RECEIVE. -/
def inputFrame (d : Dev) (n tt : Nat) (vals : List (W32 × Bool)) : Dev := keepFrame d n (.input n tt vals)
def writesFrame (d : Dev) (n first : Nat) (ws : List (Nat × W32)) : Dev := keepFrame d n (.writes n first ws)

/-- PLIALE_FRAME_RECEIVE: at once on a standby, for its BP on a SYNCING module. -/
def plialeFrame (d : Dev) (n s k : Nat) (bs : List W8) : Dev :=
  if d.role = .standby then plForward d s k bs else keepFrame d n (.pliale n s k bs)

/-- SAFE_IMG_RECEIVE: at once on a standby, for its BP on a SYNCING module. -/
def imgFrame (d : Dev) (n f : Nat) (img : SfImg) (good : Bool) : Dev :=
  if d.role = .syncing then (if good then keepFrame d n (.image n f img) else d) else safeImgReceive d f img good

/-- FORWARD_MISS: a standby misses a frame at its deadline, and counts it (R267): 0 the INPUT and 2 the WRITES frame of a BP, each
once, 1 a PLIALE frame. -/
def forwardMiss (d : Dev) (n kind : Nat) : Dev :=
  if d.role ≠ .standby ∨ (kind = 0 ∧ d.tw.counted = n) ∨ (kind = 2 ∧ d.tw.countedW = n) then d
  else
    let d := bump d TW_FWD_MISS_CNT
    setTw d { d.tw with counted := if kind = 0 then n else d.tw.counted, countedW := if kind = 2 then n else d.tw.countedW }

/-- The INPUT frame of a BP. -/
def inputOf (d : Dev) (n : Nat) : Option (Nat × List (W32 × Bool)) :=
  d.tw.frames.findSome? (fun f => match f with
    | .input m tt vs => if m = n then some (tt, vs) else none
    | _ => none)

/-- The frame that FORWARD_MISS reports, as the row names none: the INPUT frame of that BP while it has neither come nor been counted,
else a PLIALE frame (DESIGN CHOICE, log 44). BASE_PERIOD finds a missing WRITES frame at its C2. -/
def missKind (d : Dev) (n : Nat) : Nat := if (inputOf d n).isNone ∧ d.tw.counted ≠ n then 0 else 1

/-- The WRITES frame of a BP. -/
def writesOf (d : Dev) (n : Nat) : Option (Nat × List (Nat × W32)) :=
  d.tw.frames.findSome? (fun f => match f with
    | .writes m k ws => if m = n then some (k, ws) else none
    | _ => none)

/-- The entries that an INPUT frame lists: those of writer classes 4 to 6, ascending. -/
def inputEntries (d : Dev) : List Nat := (d.attr.filter (fun p => decide (4 ≤ fld p.2 23 16) && decide (fld p.2 23 16 ≤ 6))).map (·.1)

/-- The forwarded inputs take the place of the module's own staged ones (R265); a frame of another length is not valid. -/
def useInputs (d : Dev) (n : Nat) : Dev :=
  let es := inputEntries d
  match inputOf d n with
  | some (tt, vs) =>
    if vs.length = es.length then
      let own := d.stage1.filter (fun w => !es.contains w.n)
      { d with tt := tt, stage1 := own ++ (es.zip vs).map (fun p => ⟨p.1, p.2.1, p.2.2⟩) }
    else forwardMiss d n 0
  | none => forwardMiss d n 0

/-- The INPUT frame of an authority: the values and SAFE bits staged for C1, or committed, of the entries in ascending order (R265). -/
def sendInputs (d : Dev) : Dev :=
  if d.role ≠ .authority then d
  else
    let now (n : Nat) : W32 × Bool := match d.stage1.reverse.find? (fun w => w.n == n) with
      | some w => (w.v, w.safe)
      | none => (sigVal d n, sigSafe d n)
    twSend d (.input (bp d) d.tt ((inputEntries d).map now))

/-- What the frames of a BP give a SYNCING module before it replays that BP. -/
def replayFrames (d : Dev) (n : Nat) : Dev :=
  d.tw.frames.foldl (fun d f => match f with
    | .pliale m s k bs => if m = n then plForward d s k bs else d
    | .image m c img => if m = n then setChan d c { chanOf d c with fwd := some img } else d
    | _ => d) d

/-- The frames of BPs that have been computed are dropped. -/
def dropFrames (d : Dev) : Dev := if d.tw.frames.isEmpty || !onGrid d then d else setTw d { d.tw with frames := d.tw.frames.filter (fun f => decide (bp d < frameBp f)) }

/-! ### Sync (R282 to R285) -/

/-- An image that the authority has read for a LOAD or STAGE, forwarded to the module that follows it (R70, R230), or the safety
table that comes with its CONFIRM (R254; log entry 57). -/
def loadImage (d : Dev) (p : Page) (bs : List W8) : Dev :=
  match p with
  | .sq l => laneForwarded d l bs
  | .lp q => lpForwarded d q bs
  | .sfa => match parseTable (bodyOf bs) (num bs 0x10 8) with
    | some t => setSf d { d.sf with pend := some t }
    | none => d
  | _ => d

/-- IMAGE_FRAME_RECEIVE: during the sync an image that differs is verified with its key and stored in the directory; later it is the
image of a load. -/
def imageFrame (d : Dev) (p : Page) (bank typ : Nat) (bs : List W8) : Dev :=
  if twRuns d = false ∨ twPaired d = false then d
  else if followsPair d then loadImage d p bs
  else if d.role = .syncing ∧ (d.tw.phase = 1 ∨ d.tw.phase = 2) ∧ containerCheck d bs typ bs.length = 0 then
    dirPut d p bank typ bs.length ((bs.drop 0x20).take 32)
  else d

/-- BASE_FRAME_RECEIVE: a chunk passes its CRC, or is sent again; three failures of a chunk fail the sync. -/
def baseFrame (d : Dev) (chunk : Nat) (ok : Bool) : Dev :=
  if follows d = false ∨ d.role ≠ .syncing ∨ d.tw.halt = true ∨ ¬(d.tw.phase = 1 ∨ d.tw.phase = 2) then d
  else if ok then setTw d { d.tw with phase := 2, chunks := if chunk ∈ d.tw.chunks then d.tw.chunks else chunk :: d.tw.chunks }
  else if 2 ≤ d.tw.chunkFails.count chunk then syncFail d 2
  else setTw d { d.tw with phase := 2, chunkFails := chunk :: d.tw.chunkFails }

/-- The partner's safety state: the password store, the contacts and what the module has sent stay its own, its pairs' instants on
the partner's cycle count (R252, R257). -/
def installSafety (d : Dev) (s : Snap) : Safety :=
  let cyc := mk64 (tget 0 s.regs (SF_CYC 0)) (tget 0 s.regs (SF_CYC 0 + 4))
  { s.sf with
    unlocked := false, sent := [], openRun := [], cmds := [], imgs := [], salt := d.sf.salt, hash := d.sf.hash, inA := d.sf.inA, inB := d.sf.inB
    pairs := d.sf.pairs.map (fun p => { p with onAt := p.onAt + 100 * cyc - 100 * sfCyc d }) }

/-- The partner's registers; what is each module's own stays. -/
def installRegs (d : Dev) (s : Snap) : Dev :=
  (s.regs.filter (fun p => !localReg p.1)).foldl (fun d p => wr d p.1 p.2) { d with regs := d.regs.filter (fun p => keepOfReg p.1 != .journal || localReg p.1) }

/-- The partner's blocks, with the safety state f; slices, channels under way, pins and slots stay the module's own. -/
def installBlocks (d : Dev) (s : Snap) (f : Safety) : Dev :=
  { d with
    sig := s.sig, attr := s.attr, stage1 := [], stage2 := [], quar := s.quar, shared := s.shared, trigs := s.trigs
    ctab := s.ctab, cells := s.cells, lanes := s.lanes, axes := s.axes, aos := s.aos
    stps := s.stps.map (fun p => (p.1, { p.2 with seen := false, carried := 0 }))
    lps := s.lps.map (fun p => (p.1, { p.2 with
      insts := p.2.insts.map (fun t => { t with synced := true })
      keep := p.2.prog.tasks.foldl (fun m t => tset keep0 m t.k { tget keep0 m t.k with synced := (instOf p.2 t.k).isNone }) p.2.keep }))
    cores := s.cores.map (fun p =>
      let o := tget core0 d.cores p.1
      (p.1, { p.2 with slices := o.slices, chans := o.chans, flight := [], burst := o.burst, burstTb := o.burstTb, xchg := o.xchg }))
    dios := s.dios.map (fun p => (p.1, { tget dio0 d.dios p.1 with queue := p.2.queue, judge := p.2.judge }))
    pls := s.pls.map (fun p =>
      let o := tget pl0 d.pls p.1
      (p.1, { p.2 with slots := if o.slots.length = p.2.slots.length then o.slots else p.2.slots.map (fun _ => { sl0 with st := .init }), wr := 0, wp := 0 }))
    sf := f }

/-- The partner's state of boundary e is installed as it stands (R93, R236, R257, R283); an output that either module has locked out
stays so. -/
def install (d : Dev) (e : Nat) (s : Snap) : Dev :=
  let po := mk64 (tget 0 s.regs TW_PO_SEQ) (tget 0 s.regs (TW_PO_SEQ + 4))
  let x := wr64 (wr64 (installBlocks (installRegs d s) s (installSafety d s)) BP_CNT e) TW_PO_SEQ po
  let x := wr x SIO_SO_LOCK (rd x SIO_SO_LOCK ||| rd d SIO_SO_LOCK)
  setTw x { d.tw with seq := po }

/-- JOURNAL_EPOCH: the shadow copy is taken; an authoritative module that has been asked for a sync sends it in full (R283, R298). -/
def epochServed (d : Dev) : Dev :=
  if d.tw.serve = true ∧ authoritative d = true ∧ journalRuns d = true ∧ d.jn.due = true then
    twSend (setTw (journalEpoch d) { (journalEpoch d).tw with serve := false }) (.base (bp d) (boundarySnap d))
  else journalEpoch d

/-- The BEAT of a BP with BP_CNT mod 5 = 0 (R33, R277); a module that waits for its base beats on its own clock. -/
def beatOf (d : Dev) : TwBeat :=
  { number := bp d / 5 % 2 ^ 32, role := roleNum d.role, held := d.power.phase == .held, release := d.role == .authority && d.tw.asked
    pref := pref d, code := glCode d, epoch := rd64 d SB_BOUNDARY, handover := d.tw.handover }
def sendBeat (d : Dev) : Dev := if (if onGrid d then bp d else d.power.beat) % 5 = 0 then twSend d (.beat (beatOf d)) else d

/-- The TIME frame of an authority (R263, R366); it tells the trim of its root as well (R30; log entry 59). -/
def sendTime (d : Dev) : Dev := if d.role = .authority then twSend d (.time (bp d) d.tt d.ttFrac (rd d CLK_TRIM_ACT)) else d

/-- BASE_INSTALLED: the state of boundary E; its baseline commit drains during CATCHUP (R301). -/
def baseInstalled (d : Dev) (e : Nat) (s : Snap) : Dev :=
  if follows d = false ∨ d.role ≠ .syncing ∨ d.tw.halt = true ∨ d.tw.phase ≠ 2 ∨ d.power.phase ≠ .on then d
  else
    let d := install d e s
    let d := setTw d { d.tw with phase := 3, baseOk := true, baseAt := e, joining := false }
    let d := baselineStart d
    setJn d { d.jn with epoch := epochReg d }

/-- No frame of a later BP waits: the module has caught up. -/
def caughtUp (d : Dev) : Bool := d.tw.frames.all (fun f => decide (frameBp f ≤ bp d))

/-- CATCHUP_JOINED: all regions run in lockstep; CONFIRM follows. -/
def catchupJoined (d : Dev) : Dev :=
  if d.role = .syncing ∧ d.tw.phase = 3 ∧ caughtUp d = true then setTw d { d.tw with phase := 4 } else d

/-- CATCHUP_TIMEOUT: 100 ms after the base was installed. -/
def catchupTimeout (d : Dev) : Dev := if d.role = .syncing ∧ d.tw.phase = 3 then syncFail d 3 else d

/-! ### Return and handover (R286, R287) -/

/-- The first BP at least 10 BP on whose number is a multiple of 5. -/
def handoverBp (n : Nat) : Nat := (n + 10 + 4) / 5 * 5

/-- CTRL_FRAME_RECEIVE: 0 a sync request, which the authority serves from its next boundary; 1 the preferred unit asks for
authority, and the authority names h; 2 authority is offered, and a qualified standby asks. -/
def ctrlFrame (d : Dev) (kind : Nat) : Dev :=
  if twRuns d = false ∨ twPaired d = false then d
  else if kind = 0 ∧ authoritative d = true then setTw d { d.tw with serve := true }
  else if kind = 1 ∧ d.role = .authority ∧ d.tw.handover = none ∧ integOk d = true then setTw d { d.tw with handover := some (handoverBp (bp d)) }
  else if kind = 2 ∧ d.role = .standby then askReturn (setTw d { d.tw with askNow := true })
  else d

/-- HANDOVER_START at t0 of BP h, n being that BP: the old authority stops its train and shows STANDBY; the preferred unit seizes. -/
def handoverAt (d : Dev) (n : Nat) : Dev :=
  if d.tw.handover ≠ some n then d
  else if d.role = .authority then
    let d := setTw d { d.tw with hold := false, idle := true, authA := false, authB := false, standbyAt := n, holdDone := false, asked := false }
    setRole d .standby 5
  else if d.role = .standby ∧ pref d = true ∧ d.tw.hold = false then setTw d { d.tw with seizing := true, holder := none, idle := true }
  else d

/-- HANDOVER_TIMEOUT: by t0 + 8.0 µs of BP h no train of the preferred unit is decoded; the return is abandoned. -/
def handoverTimeout (d : Dev) : Dev :=
  match d.tw.handover with
  | none => d
  | some h =>
    if bp d ≠ h ∨ d.role ≠ .standby ∨ d.tw.hold = true ∨ d.tw.holder.isSome = true then d
    else
      let d := pairLink (setTw d { d.tw with handover := none, asked := false }) 5 0 0
      if pref d then setTw d { d.tw with seizing := false, standbyAt := bp d, holdDone := false } else setTw d { d.tw with seizing := true }

/-! ### Roles at t0 (Table 10-2) -/

/-- STANDBY is entered; the hold-off counts from here. -/
def toStandby (d : Dev) (cause : Nat) : Dev :=
  setRole (setTw d { d.tw with authA := false, authB := false, standbyAt := bp d, holdDone := false, asked := false, askNow := false, orphan := false, withdrawn := false, lostSz := false }) .standby cause

/-- SYNCING is entered. -/
def toSyncing (d : Dev) (cause : Nat) (withdrawn : Bool) : Dev :=
  setRole (setTw d { d.tw with authA := false, authB := false, withdrawn := withdrawn, orphan := false, baseOk := false, matches_ := 0, asked := false, lostSz := false }) .syncing cause

/-- SOLO after a seizure that has been won: forwarded frames are ignored from here on. -/
def toSolo (d : Dev) : Dev :=
  let d := setTw d { d.tw with won := false, frames := [], phase := 0, joining := false, withdrawn := false, orphan := false, witness := none, lostSz := false }
  setRole d .solo 1

/-- Nothing special was found at the start. -/
def bootEnv0 : BootEnv := ⟨[], false, false, false, false, [], true, true, 0, 0, 0⟩

/-- A SYNCING module without a base that has won: it starts from its own journal (Table 10-2). -/
def ownJournal (d : Dev) : Dev :=
  let r := startOwn (setPow d { d.power with kind := if d.power.kind = .cold then .warm else d.power.kind }) bootEnv0
  toSolo r

/-- The own train is released, or was never sent since PAIR_EN has been set, and another module holds (Table 10-2). -/
def trainLost (d : Dev) : Bool := !d.tw.hold && (d.tw.lostSz || d.tw.holder.isSome)

/-- The step of the role state machine at t0 of BP n: the rows of Table 10-2 in their order (R11); a handover's own row gives the
preferred unit AUTHORITY as Table 10-7 says. -/
def roleStep (d : Dev) (n : Nat) : Dev :=
  if pairEn d = false ∨ d.power.phase ≠ .on then d
  else
    let d := handoverAt d n
    match d.role with
    | .syncing =>
      if d.tw.joining ∧ d.tw.won ∧ d.tw.hold then ownJournal d
      else if d.tw.joining ∧ d.tw.holder.isSome ∧ twPaired d then wantSync (setTw d { d.tw with joining := false })
      else if d.tw.phase = 5 then
        toStandby (setTw (bump d TW_SYNC_CNT) { (bump d TW_SYNC_CNT).tw with phase := 0, fails := 0, frames := d.tw.frames }) 2
      else if d.tw.won ∧ d.tw.hold then
        if d.tw.baseOk ∨ d.tw.withdrawn then toSolo d else ownJournal d
      else d
    | .standby =>
      if d.tw.won ∧ d.tw.hold then
        if d.tw.handover = some (n - 1) ∧ partnerThere d then
          setRole (setTw d { d.tw with won := false, handover := none, frames := [] }) .authority 5
        else toSolo (setTw d { d.tw with handover := none })
      else if d.tw.phase ≠ 0 then toSyncing d 3 false
      else if d.tw.withdrawn then toSyncing d 4 true
      else if d.tw.handover = some (n - 1) then setTw d { d.tw with handover := none }
      else d
    | .authority =>
      if partnerThere d = false then setRole (setTw d { d.tw with won := false, handover := none }) .solo 6
      else if trainLost d then (if twPaired d then toStandby d 1 else toSyncing d 1 true)
      else setTw d { d.tw with won := false }
    | .solo =>
      if trainLost d then (if twPaired d then toStandby d 1 else toSyncing d 1 true)
      else if d.tw.hold ∧ partnerThere d then setRole (setTw d { d.tw with won := false }) .authority 7
      else setTw d { d.tw with won := false }

/-! ### Twin and Guyline pages (R288, R289) -/

/-- A command whose code has no meaning in this role. -/
def twRefuse (d : Dev) : Dev := err d .tw 0x0A01 TW_CMD

/-- TW_NOP, TW_RELEASE, TW_RESYNC, TW_CLEAR_HALT, TW_RETURN_NOW. -/
def twNop (d : Dev) : Dev := d
def twRelease (d : Dev) : Dev := if d.role = .authority then twSend (setTw d { d.tw with asked := true }) (.ctrl 2) else twRefuse d
def twResync (d : Dev) : Dev :=
  if d.role = .standby ∨ (d.role = .syncing ∧ d.power.phase = .on) then wantSync (setTw d { d.tw with halt := false, fails := 0 }) else twRefuse d
def twClearHalt (d : Dev) : Dev := if d.role = .syncing then setTw d { d.tw with halt := false, fails := 0 } else twRefuse d
def twReturnNow (d : Dev) : Dev := if d.role = .standby ∧ pref d = true then askReturn (setTw d { d.tw with askNow := true }) else twRefuse d

/-- A write of TW_CMD. -/
def twCommand (d : Dev) (v : W32) : Dev :=
  match fld v 3 0 with
  | 0 => twNop d
  | 1 => twRelease d
  | 2 => twResync d
  | 3 => twClearHalt d
  | 4 => twReturnNow d
  | _ => err d .tw 5 TW_CMD

/-- Pairing is switched on or off: a module with PAIR_EN = 0 is SOLO at all times (R259). Switched on, a module that runs seizes an
idle line, and leaves SOLO at the next t0 where another module holds (log entry 59). -/
def twPairing (d : Dev) (was : Bool) : Dev :=
  if was && !pairEn d then
    let d := setTw d { tw0 with seq := d.tw.seq }
    if d.power.phase = .on then setRole d .solo 8 else { d with role := .solo }
  else d

/-- A write of the twin page. -/
def twWrite (d : Dev) (off : Nat) (v : W32) : Dev :=
  let may := d.role == .solo || d.role == .syncing
  let a := twBase + off
  match off with
  | 0x100 => if may then twPairing (wrN d TW_CFG (fld v 1 0)) (pairEn d) else err d .tw 6 a
  | 0x104 => twCommand d v
  | 0x108 =>
    if may = false then err d .tw 6 a else if fld v 16 0 = 0 then err d .tw 7 a
    else if 86400 < fld v 16 0 then err d .tw 5 a else wrN d TW_HOLDOFF (fld v 16 0)
  | 0x110 | 0x114 => if may then wr d a v else err d .tw 6 a
  | 0x144 | 0x14C | 0x154 | 0x15C | 0x164 | 0x16C | 0x174 => wr d a v
  | _ => d

/-- A write of the Guyline page; a and b are the outcomes of the test that RETEST makes. -/
def glWrite (d : Dev) (off : Nat) (v : W32) (a b : Bool) : Dev :=
  match off with
  | 0x108 => match fld v 3 0 with
    | 0 => glNop d
    | 1 => glForce d (fld v 31 16)
    | 2 => glRetest d a b
    | _ => err d .gl 5 GL_CMD
  | 0x110 | 0x118 | 0x120 | 0x128 => wr d (glBase + off) v
  | _ => d

/-- ALIGNED: the measured offset of the time bases is 100 ns at most (R263). -/
def alignedNow (d : Dev) : Bool := let o := sgn 32 (rdN d TB_PAIR_OFS); twPaired d && decide (-100 ≤ o) && decide (o ≤ 100)

/-- TW_STAT and TW_SYNC_PROG. -/
def twStat (d : Dev) : Nat :=
  roleNum d.role + 4 * b2n (twPaired d) + 8 * b2n d.tw.up0 + 16 * b2n d.tw.up1 + 32 * b2n (pref d) + 64 * b2n d.tw.strapErr
    + 128 * b2n d.tw.joining + 256 * b2n d.tw.baseOk + 512 * b2n d.tw.halt + 1024 * b2n d.tw.withdrawn + 2048 * b2n d.tw.orphan
    + 4096 * b2n (returnPend d) + 8192 * b2n (alignedNow d) + 65536 * d.tw.matches_
def twSyncProg (d : Dev) : Nat :=
  let lag := (d.tw.frames.map frameBp).foldl max (bp d) - bp d
  (if d.role = .syncing then min 4 d.tw.phase else 0) + 65536 * min 65535 lag

end Sys2Proof.Machine
end

