-- ==== Sys2Proof/Machine/Flags.lean ====
section
/-! DEFINITION. The status bits and event conditions of every page: levels, computed from the state (R46, R50). -/

namespace Sys2Proof.Machine

/-! ### BLK_STAT (Table 2-5) -/

/-- A loop cell runs: STATE = RUNNING, which Held shows as HELD (R102). -/
def cellRunning (d : Dev) (g : Nat) : Bool := (cellOf d g).st == .running && !held d
def cellBad (d : Dev) (g : Nat) : Bool := (cellOf d g).st == .fault || (cellOf d g).st == .quarantined
def axisBad (d : Dev) (a : Nat) : Bool := (axOf d a).st == .fault || (axOf d a).st == .quarantined

/-- RUNNING. A page whose block has no states of its own shows its RUN bit (log entry 12). -/
def blkRunning (d : Dev) (p : Page) : Bool := match p with
  | .lt t => runBit d p && !ltQuar d t && !held d
  | .lc g => cellRunning d g
  | .mt m => runBit d p && !motQuar d m && !held d
  | .ax a => axLive (axOf d a).st
  | .sq l => (laneOf d l).st == .running && !held d
  | .ac k => (coreOf d k).on && !(coreOf d k).quar
  | .ao j => (List.range 4).any (fun q => (aoOf d (4 * j + q)).st == .running)
  | .dio g => (List.range 8).any (fun q => (dioOf d (8 * g + q)).st == .running || (dioOf d (8 * g + q)).st == .input)
  | .stp s => stpActive d s
  | .lp p => (lpOf d p).st == .running
  | .pl s => (plOf d s).st == .running
  | .cx x => (cxOf d x).st != .stopped
  | p => runBit d p

/-- FAULT: a cell fault or a tile quarantine is in force. -/
def blkFault (d : Dev) (p : Page) : Bool := match p with
  | .lt t => ltQuar d t
  | .lc g => cellBad d g
  | .mt m => motQuar d m
  | .ax a => axisBad d a
  | .sq l => (laneOf d l).st == .fault
  | .ac k => (coreOf d k).quar
  | .ao j => (List.range 4).any (fun q => (aoOf d (4 * j + q)).st == .fault)
  | .dio g => (List.range 8).any (fun q => (dioOf d (8 * g + q)).st == .fault)
  | .lp p => (lpOf d p).st == .quarantined
  | .pl s => (plOf d s).st == .quarantined
  | .tl => d.tl.fault
  | _ => false

/-- The page has outputs that can hold values: entries it has claimed, drivers that are switched on. -/
def hasOutputs (d : Dev) (p : Page) : Bool := match p with
  | .lc g => !(lcOuts d g ++ lcPubs d g).isEmpty
  | .lt t => (List.range 32).any (fun c => !(lcOuts d (32 * t + c) ++ lcPubs d (32 * t + c)).isEmpty)
  | .ax a => !(ownedBy d clsAxis a).isEmpty || d.regs.any (fun r => r.1 == axBase a + BLK_CTRL)
  | .mt m => (List.range 8).any (fun i => !(ownedBy d clsAxis (8 * m + i)).isEmpty)
  | .sq l => !(laneOf d l).img.targets.isEmpty
  | .ac k => (List.range 16).any (fun n => rdBit d (AC_CH_DST k n) 16)
  | .ao j => (List.range 4).any (fun q => (aoOf d (4 * j + q)).st != .off)
  | .dio g => (List.range 8).any (fun q => (dioOf d (8 * g + q)).st != .off && (dioOf d (8 * g + q)).st != .input)
  | .enc e => rdBit d (ENC_DST e) 16
  | .stp s => rdBit d (STP_CFG s) 0
  | .lp p => !(lpOf d p).prog.outs.isEmpty
  | .pl s => (plOf d s).sched.isSome
  | .sio => d.sf.table.isSome
  | .oh => true
  | _ => false

/-- The outputs of a cell, of an axis hold safe values, or it has none. -/
def cellIsSafe (d : Dev) (g : Nat) : Bool := !hasOutputs d (.lc g) || !cellRunning d g || cellSafeReq d g
def axisIsSafe (d : Dev) (a : Nat) : Bool :=
  (ownedBy d clsAxis a).isEmpty || !axLive (axOf d a).st || safeReq d (.ax a) || safeReq d (.mt (a / 8))

/-- SAFE: the outputs hold safe values, for any reason; on a tile page those of every cell or axis. -/
def blkSafe (d : Dev) (p : Page) : Bool := hasOutputs d p && (match p with
  | .sio => rdN d SIO_SO_CMD == 0
  | .oh => d.oh.holding && d.oh.expired
  | .lt t => (List.range 32).all (fun c => cellIsSafe d (32 * t + c))
  | .mt m => (List.range 8).all (fun i => axisIsSafe d (8 * m + i))
  | .lc g => !blkRunning d p || cellSafeReq d g
  | .ax a => !blkRunning d p || safeReq d p || safeReq d (.mt (a / 8))
  | .sq l => (!((laneOf d l).st == .running || (laneOf d l).st == .paused) || held d) || safeReq d p
  | p => !blkRunning d p || safeReq d p)

/-- The lock of a page (R49): the register holds the engaging value while it is engaged. -/
def locked (d : Dev) (p : Page) : Bool := rdN d (pageBase p + KEYLOCK) == 0xA5C3

/-- BLK_STAT. -/
def blkStat (d : Dev) (p : Page) : Nat :=
  b2n (blkRunning d p) + 2 * b2n (blkSafe d p) + 4 * b2n (blkFault d p) + 8 * b2n (locked d p)

/-! ### Computed status registers -/

/-- A mask over n places. -/
def maskOf (n : Nat) (f : Nat → Bool) : Nat := ((List.range n).map (fun i => if f i then 2 ^ i else 0)).foldl (· + ·) 0

/-- LT_CELL_RUN, LT_CELL_FAULT, LT_CELL_FROZEN (Table 4-1), MT_AX_RUN and MT_AX_FAULT (Table 7-1). -/
def ltRunMask (d : Dev) (t : Nat) : Nat := maskOf 32 (fun c => cellRunning d (32 * t + c))
def ltFaultMask (d : Dev) (t : Nat) : Nat := maskOf 32 (fun c => cellBad d (32 * t + c))
def ltFrozenMask (d : Dev) (t : Nat) : Nat := maskOf 32 (fun c => cellFrozen d (32 * t + c))
def mtRunMask (d : Dev) (m : Nat) : Nat := maskOf 8 (fun i => (axOf d (8 * m + i)).st != .disabled)
def mtFaultMask (d : Dev) (m : Nat) : Nat := maskOf 8 (fun i => axisBad d (8 * m + i))

/-- LC_SUP_STAT. -/
def supStat (d : Dev) (g : Nat) : Nat :=
  let x := cellOf d g
  min 65535 x.timer + 0x10000 * b2n x.out + 0x20000 * b2n x.neg

/-- STP_STAT: OFF, ACTIVE or SAFE (R197, R199), DIR level, CARRY. -/
def stpStat (d : Dev) (s : Nat) : Nat :=
  let x := stpOf d s
  (if stpActive d s then 1 else if runBit d (.stp s) then 2 else 0) + 4 * b2n (xor x.dir (rdBit d (STP_CFG s) 7)) + 8 * b2n x.carry

/-- ENC_STAT. -/
def encStat (d : Dev) (e : Nat) : Nat :=
  let x := encOf d e
  b2n x.valid + 2 * b2n x.a + 4 * b2n x.b + 8 * b2n x.z

/-- TR_STAT (Table 16-2). -/
def trStat (d : Dev) : Nat :=
  (match d.tr.state with | .stopped => 0 | .running => 1 | .freezing => 2 | .frozen => 3) + 4 * b2n (d.tr.streaming && rdBit d TR_CFG 0)
    + 8 * b2n ((d.tr.streaming && rdBit d TR_CFG 0 || d.tr.xferBusy) && !d.evr.linkUp) + 16 * b2n d.tr.xferBusy + 32 * b2n d.tr.protect

/-- DB_STAT (Table 15-9). -/
def dbStat (v : Vault) (d : Dev) : Nat :=
  b2n (d.db.staging.length != 0) + 2 * b2n v.fndFull + 4 * b2n (decide (256 ≤ d.db.staging.length)) + 8 * b2n (d.db.supp.length != 0)
    + 16 * b2n (clearing d) + 0x10000 * d.db.staging.length

/-- VEC_CONFLICT: while PTP runs, an EVT_VEC field beside those held for the ports names a vector of 248 to 255 (R358). -/
def vecConflict (d : Dev) : Bool :=
  ptpEn d && d.regs.any (fun e => match locate e.1 with
    | some (p, off) => off == EVT_VEC && (match pageSource p with
      | some (_, n) => (List.range n).any (fun k =>
          decide (248 ≤ fld e.2 (8 * k + 7) (8 * k)) && !(match p with | .eth _ => decide (k < 2) | _ => false))
      | none => false)
    | none => false)

/-- TB_STAT (Table 14-2). -/
def tbStat (d : Dev) : Nat :=
  fld (rd d TB_STAT) 2 0 + 8 * b2n (domLocked d (tbSelAct d)) + 16 * b2n (domHold d (tbSelAct d)) + 32 * b2n d.tb.slew.isSome
    + 64 * b2n (pairFollow d) + 128 * b2n (vecConflict d)

/-- DEV_PCIE_STAT (Table 2-11): rate and width as the link last trained, also while it is down (DESIGN CHOICE, log entry 51), LINK_UP,
D3HOT. -/
def pcieStat (d : Dev) : Nat := fld (rd d DEV_PCIE_STAT) 6 0 + 128 * b2n d.evr.linkUp + 256 * b2n d.evr.d3hot

/-! ### EVT_RAW (R50, R65, R119, R142, R175, R210, R240, R288, R289, R343, R392, R433, R437, R442) -/

/-- A counter and its acknowledge differ. -/
def unseen (d : Dev) (cnt ack : Nat) : Bool := rd d cnt != rd d ack
/-- Bits given by place and level. -/
def levels (l : List (Nat × Bool)) : Nat := (l.map (fun e => if e.2 then 2 ^ e.1 else 0)).foldl (· + ·) 0
/-- The same level for the places of a run. -/
def levelRun (lo n : Nat) (f : Nat → Bool) : List (Nat × Bool) := (List.range n).map (fun i => (lo + i, f i))

/-- A result register holds a failure code. -/
def failed (d : Dev) (a : Nat) : Bool := rd d a != 0

/-- The conditions of the device pages. -/
def rawDevice (v : Vault) (d : Dev) : Page → List (Nat × Bool)
  | .id => [(0, unseen d ID_CMD_CNT ID_CMD_ACK)]
  | .clk => [(0, unseen d CLK_LOSS_CNT CLK_LOSS_ACK), (1, rdBit d CLK_STAT 4)]
  | .pwr => [(0, held d), (1, pwrState d == 3 && !d.power.holdupOk), (2, d.power.kaLow), (3, d.power.vinLow),
             (16, unseen d PWR_INST_CNT PWR_INST_ACK), (17, d.power.kaLost)]
  | .sig => [(0, unseen d DEV_SIG_REJ_CNT DEV_SIG_REJ_ACK)]
  | .pcie => [(0, unseen d DEV_LINK_DOWN_CNT DEV_LINK_DOWN_ACK), (1, unseen d DEV_UNMAPPED_CNT DEV_UNMAPPED_ACK),
              (2, unseen d DEV_BAD_ACC_CNT DEV_BAD_ACC_ACK), (3, unseen d DEV_XTO_CNT DEV_XTO_ACK), (4, unseen d DEV_FLR_CNT DEV_FLR_ACK)]
  | .tw => [(0, pairEn d && !twPaired d), (1, pairEn d && !(d.tw.up0 && d.tw.up1)), (2, unseen d TW_DIG_MIS_CNT TW_DIG_MIS_ACK),
            (3, unseen d TW_FWD_MISS_CNT TW_FWD_MISS_ACK), (4, unseen d TW_AUTH_FAIL_CNT TW_AUTH_FAIL_ACK),
            (5, unseen d TW_LANE_ERR_CNT TW_LANE_ERR_ACK), (6, d.tw.halt), (7, d.tw.withdrawn), (8, d.tw.orphan), (9, d.tw.strapErr),
            (16, unseen d TW_ROLE_CNT TW_ROLE_ACK), (17, unseen d TW_SYNC_CNT TW_SYNC_ACK), (18, returnPend d),
            (19, twPaired d && !alignedNow d), (20, unseen d TW_SYNC_FAIL_CNT TW_SYNC_FAIL_ACK)]
  | .gl => [(0, !integOk d && pairEn d), (1, unseen d GL_WIRE_CNT GL_WIRE_ACK), (2, unseen d GL_SEIZE_CNT GL_SEIZE_ACK),
            (3, unseen d GL_LOSS_CNT GL_LOSS_ACK), (4, unseen d GL_DISAGREE_CNT GL_DISAGREE_ACK)]
  | .sb => [(0, unseen d SB_SKIP_CNT SB_SKIP_ACK), (1, d.jn.cold), (2, controlRuns d && !d.power.holdupOk), (3, rdBit d SB_START_INFO 12),
            (16, unseen d SB_START_CNT SB_START_ACK)]
  | .hlth => [(0, fld (rd d HLTH_THERM) 1 0 != 0), (1, rdBit d HLTH_THERM 2 || rdBit d HLTH_THERM 3), (2, rdBit d HLTH_THERM 4),
              (16, unseen d HLTH_WL_CNT HLTH_WL_ACK), (17, eolWarn d), (18, rdBit d HLTH_EOL_INFO 5)]
  | .db => [(0, unseen d DB_CRIT_CNT DB_CRIT_ACK), (1, unseen d DB_SUP_CNT DB_SUP_ACK), (2, unseen d DB_REJ_CNT DB_REJ_ACK),
            (3, unseen d DB_BAD_CNT DB_BAD_ACK), (4, decide (256 ≤ d.db.staging.length)), (5, v.fndFull),
            (16, unseen d DB_REC_CNT DB_REC_ACK), (17, clearing d)]
  | .oh => [(0, unseen d OH_EXP_CNT OH_EXP_ACK)]
  | .tl => [(0, unseen d TL_BP_CNT TL_BP_ACK), (1, unseen d TL_STRAY_CNT TL_STRAY_ACK), (2, decide (1024 ≤ d.tl.queue.length)),
            (16, unseen d TL_WDT_CNT TL_WDT_ACK), (17, (List.range 8).any (fun c => (tcOf d c).faulted))]
  | .tk => [(0, unseen d TK_FAIL_CNT TK_FAIL_ACK), (1, unseen d TK_NOSPARE_CNT TK_NOSPARE_ACK), (16, unseen d TK_PASS_CNT TK_PASS_ACK),
            (17, d.tk.fault)]
  | .mb b => [(0, unseen d (MB_CE_CNT b) (MB_CE_ACK b)), (1, unseen d (MB_UE_CNT b) (MB_UE_ACK b)),
              (2, unseen d (MB_OFF_ACC_CNT b) (MB_OFF_ACC_ACK b)), (3, unseen d (MB_REPAIR_CNT b) (MB_REPAIR_ACK b)), (4, rdBit d (MB_STAT b) 8)]
  | .tb => [(0, domHold d (tbSelAct d)), (1, d.tb.slew.isSome), (2, vecConflict d), (8, unseen d TB_SWITCH_CNT TB_SWITCH_ACK),
            (9, unseen d TB_STEP_CNT TB_STEP_ACK), (16, unseen d (TB_DOM_LOST_CNT 0) (TB_DOM_LOST_ACK 0)), (17, domEn d 0 && !domLocked d 0),
            (24, unseen d (TB_DOM_LOST_CNT 1) (TB_DOM_LOST_ACK 1)), (25, domEn d 1 && !domLocked d 1)]
  | _ => []

/-- The conditions of the communication pages. -/
def rawComm (d : Dev) : Page → List (Nat × Bool)
  | .pl s => [(0, unseen d (PL_DUP_CNT s) (PL_DUP_ACK s)), (1, unseen d (PL_COLL_CNT s) (PL_COLL_ACK s)), (2, (plOf d s).st == .halted),
              (3, unseen d (PL_EDGE_CNT s) (PL_EDGE_ACK s)), (4, unseen d (PL_CRC_CNT s) (PL_CRC_ACK s)),
              (5, plMask d s (fun y => y.st == .silent) != 0), (6, plMask d s (fun y => y.lost) != 0), (7, plMask d s (fun y => y.invalid) != 0),
              (8, failed d (PL_LOAD_RES s)), (16, unseen d (PL_ACYC_CNT s) (PL_ACYC_ACK s)), (17, unseen d (PL_WIT_DIFF_CNT s) (PL_WIT_DIFF_ACK s))]
  | .cx x => levelRun 0 4 (fun q => unseen d (CX_TQ_DONE x q) (CX_TQ_DACK x q)) ++ levelRun 8 4 (fun r => unseen d (CX_RQ_CNT x r) (CX_RQ_ACK x r))
      ++ levelRun 12 4 (fun r => unseen d (CX_RQ_OVF_CNT x r) (CX_RQ_OVF_ACK x r))
      ++ [(16, (cxOf d x).st == .passive), (17, (cxOf d x).st == .busOff || (cxOf d x).st == .recovering),
          (18, unseen d (CX_ERRFR_CNT x) (CX_ERRFR_ACK x)), (19, unseen d (CX_IDCLASH_CNT x) (CX_IDCLASH_ACK x)),
          (20, unseen d (CX_NOMATCH_CNT x) (CX_NOMATCH_ACK x)), (24, unseen d (CX_BUSOFF_CNT x) (CX_BUSOFF_ACK x)), (25, (cxOf d x).st == .monitor)]
  | .eth e => [(0, unseen d (ETH_PTP_RX_CNT e) (ETH_PTP_RX_ACK e)), (8, unseen d (ETH_PTP_TX_CNT e) (ETH_PTP_TX_ACK e)),
               (24, ethEn d e && !ethLink d e),
               (25, unseen d (ETH_CB_ROGUE_CNT e) (ETH_CB_ROGUE_ACK e) || unseen d (ETH_CB_FULL_CNT e) (ETH_CB_FULL_ACK e)),
               (26, unseen d (ETH_PUB_SKIP_CNT e) (ETH_PUB_SKIP_ACK e)), (27, unseen d (ETH_ERR_CNT e) (ETH_ERR_ACK e))]
      ++ levelRun 16 4 (fun r => unseen d (ETH_RQ_CNT e r) (ETH_RQ_ACK e r)) ++ levelRun 20 4 (fun q => unseen d (ETH_TQ_DONE e q) (ETH_TQ_DACK e q))
  | _ => []

/-- The conditions of the control pages but for the summary of a loop tile. -/
def rawControl (d : Dev) : Page → List (Nat × Bool)
  | .lt t => [(1, unseen d (LT_ECC_CNT t) (LT_ECC_ACK t))]
  | .lc g => [(0, unseen d (LC_SW_CNT g) (LC_SW_ACK g)), (1, unseen d (LC_SAT_CNT g) (LC_SAT_ACK g)), (2, (cellOf d g).hi || (cellOf d g).lo),
              (3, cellFrozen d g), (8, (cellOf d g).out && cellRunning d g), (9, driftOn d g),
              (10, unseen d (LC_LRN_LIM_CNT g) (LC_LRN_LIM_ACK g)), (11, unseen d (LC_LRN_SKIP_CNT g) (LC_LRN_SKIP_ACK g))]
  | .mt m => [(0, mtFaultMask d m != 0), (1, unseen d (MT_ECC_CNT m) (MT_ECC_ACK m))]
  | .ax a => [(0, bit (axStat d a) 4), (1, (axOf d a).hres != 0 && (axOf d a).st == .idle), (2, unseen d (AX_REJ_CNT a) (AX_REJ_ACK a)),
              (3, (axOf d a).limP.on || (axOf d a).limN.on), (4, (axOf d a).devOut), (5, (axOf d a).overshoot),
              (6, rdBit d (AX_CFG a) 7 && !(axOf d a).ref), (7, unseen d (AX_MOVE_CNT a) (AX_MOVE_ACK a))]
  | .sq l => [(0, (laneOf d l).st == .done), (1, (laneOf d l).st == .paused), (2, (laneOf d l).st == .loaded), (3, failed d (SQ_LOAD_RES l)),
              (4, unseen d (SQ_LATE_CNT l) (SQ_LATE_ACK l)), (5, unseen d (SQ_ACT_REJ_CNT l) (SQ_ACT_REJ_ACK l)),
              (6, unseen d (SQ_CMD_REJ_CNT l) (SQ_CMD_REJ_ACK l)), (7, rd d (SQ_MARK_EVT l) != 0 && rd d (SQ_MARKER l) == rd d (SQ_MARK_EVT l)),
              (8, (laneOf d l).crit), (9, unseen d (SQ_RESUME_CNT l) (SQ_RESUME_ACK l))]
  | .ac k => [(0, runBit d (.ac k) && !settledOf d k), (1, degraded (coreOf d k)), (2, rd d (AC_OPEN k) != 0), (3, rd d (AC_OVR k) != 0),
              (4, acInval d k != 0), (5, unseen d (AC_CAL_CNT k) (AC_CAL_ACK k)), (6, unseen d (AC_LOST_CNT k) (AC_LOST_ACK k)),
              (7, unseen d (AC_CAP_DROP_CNT k) (AC_CAP_DROP_ACK k))]
  | .ao j => levelRun 0 4 (fun q => (aoOf d (4 * j + q)).st == .fault) ++ levelRun 4 4 (fun q => (aoOf d (4 * j + q)).openLoad)
      ++ levelRun 8 4 (fun q => (aoOf d (4 * j + q)).ilim) ++ [(12, (List.range 4).any (fun q => unseen d (AO_FLT_CNT j q) (AO_FLT_ACK j q)))]
  | .dio g => levelRun 0 8 (fun q => (dioOf d (8 * g + q)).st == .fault) ++ levelRun 8 8 (fun q => unseen d (DIO_EDGE_CNT g q) (DIO_EDGE_ACK g q))
      ++ [(16, unseen d (DIO_LATE_CNT g) (DIO_LATE_ACK g)), (17, (List.range 8).any (fun q => (dioOf d (8 * g + q)).under)),
          (18, (List.range 8).any (fun q => (dioOf d (8 * g + q)).ilim)), (19, (List.range 8).any (fun q => unseen d (DIO_FLT_CNT g q) (DIO_FLT_ACK g q)))]
  | .enc e => [(0, unseen d (ENC_Z_CNT e) (ENC_Z_ACK e)), (1, unseen d (ENC_QERR_CNT e) (ENC_QERR_ACK e)),
               (2, unseen d (ENC_SSI_ERR_CNT e) (ENC_SSI_ERR_ACK e)), (3, runBit d (.enc e) && !(encOf d e).valid)]
  | .stp s => [(0, unseen d (STP_CARRY_CNT s) (STP_CARRY_ACK s))]
  | .sio => [(0, rd d SIO_DISC != 0), (1, rd d SIO_JAM != 0), (2, rd d SIO_SO_LOCK != 0), (3, rd d SIO_PAIR_DIFF != 0), (4, unseen d SIO_FLT_CNT SIO_FLT_ACK)]
  | .lp p => [(0, (lpOf d p).stage == .staged), (1, (lpOf d p).stage == .pending), (2, unseen d (LP_CHG_CNT p) (LP_CHG_ACK p)), (3, failed d (LP_LOAD_RES p)),
              (4, (lpOf d p).forces.length != 0), (5, unseen d (LP_MERGE_CNT p) (LP_MERGE_ACK p)), (6, unseen d (LP_IDX_CNT p) (LP_IDX_ACK p)),
              (7, unseen d (LP_ECC_CNT p) (LP_ECC_ACK p)), (8, unseen d (LP_TRIG_LOST_CNT p) (LP_TRIG_LOST_ACK p))]
  | _ => []

/-- The conditions of a safety channel's page (f: 0 channel A, 1 channel B). -/
def rawSafety (d : Dev) (f : Nat) : List (Nat × Bool) :=
  [(0, d.sf.mode == .lockout), (1, d.sf.conns.any (fun x => x.st == .degraded)), (2, unseen d (SF_TRIP_CNT f) (SF_TRIP_ACK f)),
   (3, unseen d (SF_CTRIP_CNT f) (SF_CTRIP_ACK f)), (4, unseen d (SF_XCMP_CNT f) (SF_XCMP_ACK f)), (5, unseen d (SF_PWF_CNT f) (SF_PWF_ACK f)),
   (6, d.sf.mode == .pending)]

/-- The common conditions. -/
def rawCommon (d : Dev) (p : Page) : List (Nat × Bool) :=
  let s := rd d (pageBase p + POST_STAT)
  [(30, blkFault d p), (31, fld s 15 8 != fld s 23 16)]

/-- EVT_RAW without a loop tile's summary of its cells. -/
def rawOwn (v : Vault) (d : Dev) (p : Page) : Nat :=
  levels ((match p with
    | .sfa => rawSafety d 0
    | .sfb => rawSafety d 1
    | p => rawDevice v d p ++ rawComm d p ++ rawControl d p) ++ rawCommon d p)

/-- EVT_EN of a page. -/
def evtEn (d : Dev) (p : Page) : Nat := rdN d (pageBase p + EVT_EN)
/-- EVT_PEND of a cell page, and LT_CELL_PEND. -/
def cellPend (v : Vault) (d : Dev) (g : Nat) : Bool := evtEn d (.lc g) != 0 && (rawOwn v d (.lc g) &&& evtEn d (.lc g)) != 0
def ltPendMask (v : Vault) (d : Dev) (t : Nat) : Nat := maskOf 32 (fun c => cellPend v d (32 * t + c))

/-- EVT_RAW: CELL_SUM of a tile included (R57, R95). -/
def evtRaw (v : Vault) (d : Dev) (p : Page) : Nat := match p with
  | .lt t => rawOwn v d p + b2n (ltPendMask v d t != 0)
  | p => rawOwn v d p

/-- EVT_PEND: EVT_RAW AND EVT_EN. -/
def evtPend (v : Vault) (d : Dev) (p : Page) : Nat := if evtEn d p = 0 then 0 else evtRaw v d p &&& evtEn d p

end Sys2Proof.Machine
end

