-- ==== Sys2Proof/Machine/Router.lean ====
section
/-! DEFINITION. The event router: pending sources, vectors and their state machine (R56 to R60, R465). -/

namespace Sys2Proof.Machine

/-- Bits of EVT_PEND that belong to a slot (R48). -/
def slotPend (slots k pend : Nat) : Nat :=
  if slots = 1 then pend else if slots = 2 then pend / 2 ^ (16 * k) % 2 ^ 16 else pend / 2 ^ (8 * k) % 2 ^ 8

/-- A source is pending (R56). -/
def srcPending (v : Vault) (d : Dev) (s : Nat) : Bool :=
  if 448 ≤ s then decide (s < 512) && rd d (DEV_SWE_CNT (s - 448)) != rd d (DEV_SWE_ACK (s - 448))
  else match sourcePage s with
    | some (p, k) => slotPend (((pageSource p).getD (0, 1)).2) k (evtPend v d p) != 0
    | none => false

/-- The vector of a source: its slot's field of EVT_VEC, or a doorbell's field of DEV_SWE_VEC. -/
def srcVector (d : Dev) (s : Nat) : Nat :=
  if 448 ≤ s then fld (rd d (DEV_SWE_VEC ((s - 448) / 4))) (8 * (s % 4) + 7) (8 * (s % 4))
  else match sourcePage s with
    | some (p, k) => fld (rd d (pageBase p + EVT_VEC)) (8 * k + 7) (8 * k)
    | none => 0

/-- The sources of the pages that have any event enabled, and the doorbells. -/
def liveSources (d : Dev) : List Nat :=
  (d.regs.filterMap (fun e => match locate e.1 with
    | some (p, off) => if off = EVT_EN then (pageSource p).map (fun q => (List.range q.2).map (fun k => q.1 + k)) else none
    | none => none)).flatten ++ (List.range 64).map (448 + ·)

/-- The pending sources. -/
def pendingSources (v : Vault) (d : Dev) : List Nat := (liveSources d).filter (srcPending v d)

/-- The vectors that are asserted (R58). -/
def assertedVecs (v : Vault) (d : Dev) : List Nat := ((pendingSources v d).map (srcVector d)).eraseDups

/-- A word of the MSI-X table. -/
def msixWord (vec w : Nat) : Nat := msixBase + 16 * vec + 4 * w

/-- A vector counts as masked. -/
def vecMasked (d : Dev) (vec : Nat) : Bool :=
  rdBit d (msixWord vec 3) 0 || d.evr.funcMask || !d.evr.msixEnable || !d.evr.busMaster || !d.evr.linkUp

def setEvr (d : Dev) (e : Evr) : Dev := { d with evr := e }
/-- The state of a vector. -/
def vecOf (d : Dev) (vec : Nat) : VecState := tget .armed d.evr.vec vec
def setVec (d : Dev) (vec : Nat) (s : VecState) : Dev := setEvr d { d.evr with vec := tset .armed d.evr.vec vec s }

/-- Latch the stamp (R59). -/
def latchStamp (d : Dev) (vec : Nat) : Dev := wr64 d (DEV_VEC_STAMP vec) (tbNs d)
/-- Send the message of a vector: the address and data of its table entry. -/
def sendMsi (d : Dev) (vec : Nat) : Dev :=
  setEvr d { d.evr with sent := ⟨vec, mk64 (rd d (msixWord vec 0)) (rd d (msixWord vec 1)), rd d (msixWord vec 2)⟩ :: d.evr.sent }

/-- One evaluation of a vector (Table 2-8): whether it is asserted, and whether DONE was written for it at this tick. -/
def evalVec (asserted done : Bool) (d : Dev) (vec : Nat) : Dev :=
  let masked := vecMasked d vec
  let fresh (d : Dev) : Dev :=
    if masked then setVec (latchStamp d vec) vec .pending else setVec (sendMsi (latchStamp d vec) vec) vec .sent
  match vecOf d vec with
  | .armed => if asserted then fresh d else d
  | .pending => if !asserted then setVec d vec .armed else if masked then d else setVec (sendMsi d vec) vec .sent
  | .sent =>
    if d.evr.leftL0 then setVec d vec .armed
    else if done then (if asserted then fresh d else setVec d vec .armed) else d

/-- VECTOR_EVALUATION: every vector, at one CLK_TB tick. done: the vector for which DONE was written at it. -/
def vecEvalAt (v : Vault) (d : Dev) (done : Option Nat) : Dev :=
  let on := assertedVecs v d
  let vs := (on ++ tkeys d.evr.vec).eraseDups
  let d := vs.foldl (fun d k => evalVec (on.contains k) (done == some k) d k) d
  setEvr d { d.evr with leftL0 := false }
def vecEval (v : Vault) (d : Dev) : Dev := vecEvalAt v d none

/-- PBA bits and the words of DEV_SRC_PEND, DEV_VEC_ASSERT and DEV_VEC_SENT. -/
def srcPendWord (v : Vault) (d : Dev) (w : Nat) : Nat := let l := pendingSources v d; maskOf 32 (fun i => l.contains (32 * w + i))
def vecAssertWord (v : Vault) (d : Dev) (w : Nat) : Nat := let l := assertedVecs v d; maskOf 32 (fun i => l.contains (32 * w + i))
def vecWord (d : Dev) (s : VecState) (w : Nat) : Nat := maskOf 32 (fun i => vecOf d (32 * w + i) == s)

/-- VEC_DONE: the vector's SENT state ends, evaluated with the write. -/
def vecDone (v : Vault) (d : Dev) (val : W32) : Dev := vecEvalAt v d (some (fld val 7 0))

/-- SWE_RAISE: doorbell k is counted (R60). -/
def sweRaise (d : Dev) (val : W32) : Dev := bump d (DEV_SWE_CNT (fld val 5 0))

/-- The MSI-X state an endpoint reset clears (R39, R465): table, vector states, capability; stamps stay. -/
def msixReset (d : Dev) : Dev :=
  setEvr { d with regs := tclear msixBase pbaBase d.regs }
    { d.evr with vec := [], msixEnable := false, funcMask := false, busMaster := false, d3hot := false, cfg := pciReset }

/-- FLR, counted; PERST#, hot reset and link-down reset. -/
def endpointReset (d : Dev) : Dev := msixReset (trEndpointReset d)
def flr (d : Dev) : Dev := bump (endpointReset d) DEV_FLR_CNT

/-- LINK_DOWN: the link leaves L0 (R40): vectors count as masked, trace DMA pauses, counted; the vectors are evaluated. -/
def linkDown (v : Vault) (d : Dev) : Dev :=
  if d.evr.linkUp then vecEval v (bump (setEvr d { d.evr with linkUp := false, leftL0 := true }) DEV_LINK_DOWN_CNT) else d
/-- LINK_UP with the rate and the width the link trained to. -/
def linkUp (v : Vault) (d : Dev) (rate width : Nat) : Dev :=
  if d.evr.linkUp then d else vecEval v (setEvr (wrN d DEV_PCIE_STAT (rate + 8 * width)) { d.evr with linkUp := true })
/-- MSIX_MASK_WRITE: kind 0 the mask bit of a vector (its table control word), 1 the function mask, 2 MSI-X Enable, 3 Bus
Master Enable. -/
def msixSet (v : Vault) (d : Dev) (kind vec : Nat) (on : Bool) : Dev :=
  vecEval v (match kind with
    | 0 => wrN d (msixWord vec 3) (b2n on)
    | 1 => setEvr d { d.evr with funcMask := on }
    | 2 => setEvr d { d.evr with msixEnable := on }
    | _ => setEvr d { d.evr with busMaster := on })

/-- D3HOT_TRANSITION (R38). -/
def d3hot (d : Dev) (on : Bool) : Dev := setEvr d { d.evr with d3hot := on }

end Sys2Proof.Machine
end

