-- ==== Sys2Proof/Machine/Views.lean ====
section
/-! DEFINITION. What a read of BAR0 shows: registers as held, levels as computed, waiting writes, windows (R42, R44, R45, R51). -/

namespace Sys2Proof.Machine

/-! ### Which pages respond (R45, R295, R434) -/

/-- The requester reaches BAR0: application cores (1 and above) always, the host (0) while the link is up and not in D3hot. -/
def reaches (d : Dev) (who : Nat) : Bool := decide (who ≠ 0) || (d.evr.linkUp && !d.evr.d3hot)

/-- A page responds: until Ready only identity, clock, power, event router and endpoint; in Service identity, power, endpoint. -/
def responds (d : Dev) (p : Page) : Bool := match d.power.phase with
  | .off | .keepAlive => false
  | .boot => match p with
    | .id | .clk | .pwr | .evr | .pcie => true
    | _ => false
  | .service => match p with
    | .id | .pwr | .pcie => true
    | _ => false
  | .on | .held => true

/-- The rest of BAR0 responds. -/
def windowsOn (d : Dev) : Bool := d.power.phase == .on || d.power.phase == .held
/-- The MSI-X structures respond. -/
def msixOn (d : Dev) : Bool := windowsOn d || d.power.phase == .boot

/-! ### Addresses -/

/-- The page and offset of a BAR0 address, the table-slot windows of a loop tile included (R128). -/
def pageAt (a : Nat) : Option (Page × Nat) :=
  match locate a with
  | some q => some q
  | none =>
    if 0x100000 ≤ a ∧ a < 0x500000 ∧ 0x9000 ≤ a % 0x10000 ∧ a % 0x10000 < 0xF000 then
      some (.lt ((a - 0x100000) / 0x10000), a % 0x10000)
    else none

/-- The access code of a register (R8): a row of the tables; index words, table slots, bindings and descriptors beside them;
none for a reserved or unused offset. -/
def accessOf (p : Page) (off : Nat) : Option Acc :=
  match p with
  | .lt _ => if 0x9000 ≤ off then some .wp else (rowOfReg p off).map (·.acc)
  | .tr => if 0x1000 ≤ off then some .wp else (rowOfReg p off).map (·.acc)
  | .tl => if 0x1000 ≤ off ∧ off < 0x1800 then some .rw
           else if 0x10000 ≤ off then (if off % 32 = 0 ∨ off % 32 = 8 ∨ off % 32 = 12 then some .rw else some .ro)
           else (rowOfReg p off).map (·.acc)
  | _ => (rowOfReg p off).map (·.acc)

/-- A coefficient window word (R98). -/
def coefWord (p : Page) (off : Nat) : Bool := match p with
  | .lc _ => decide (0x200 ≤ off ∧ off < 0x300)
  | _ => false

/-- The newest write to an address that has not been applied (R51); a lane's command waits for its tick (R66). -/
def waitingWrite (d : Dev) (a : Nat) : Option W32 :=
  match (d.cfgq ++ d.tw.queue ++ d.crossing).reverse.find? (fun w => w.addr % 2 ^ 28 == a) with
  | some w => some w.val
  | none => match locate a with
    | some (.sq l, 0x100) => (laneOf d l).cmds.getLast?.map (·.1)
    | _ => none

/-! ### Computed words -/

/-- A word of a 64-bit view. -/
def word64 (n hi : Nat) : Nat := n / 2 ^ (32 * hi) % 2 ^ 32
/-- A signed 64-bit view. -/
def sword64 (i : Int) (hi : Nat) : Nat := word64 (u64 i) hi

/-- The words of an axis page that are computed. -/
def viewAx (d : Dev) (a off : Nat) : Option Nat :=
  if off = 0x104 then some (axStat d a).toNat
  else if off = 0x158 ∨ off = 0x15C then some (sword64 (posCmd (axOf d a)) (off / 4 % 2))
  else if off = 0x160 ∨ off = 0x164 then some (sword64 (velCmd (axOf d a)) (off / 4 % 2))
  else if off = 0x168 ∨ off = 0x16C then some (sword64 (accCmd (axOf d a)) (off / 4 % 2))
  else if off = 0x170 ∨ off = 0x174 then some (sword64 (posAct d a) (off / 4 % 2))
  else if off = 0x178 then some ((axOf d a).dev % 2 ^ 32).toNat
  else if off = 0x17C then some (axProf d a) else none

/-- A descriptor's words (Table 17-2). -/
def viewThr (d : Dev) (t w : Nat) : Nat :=
  let x := thrOf d t
  let st := match x.st with | .free => 0 | .blocked => 1 | .ready => 2 | .running => 3 | .suspended => 4
  match w with
  | 0 => t + st * 2 ^ 12 + x.prio * 2 ^ 16 + x.aff * 2 ^ 24
  | 1 => x.last.getD 15 + 16 * b2n x.faulted + 256 * x.wakes
  | 2 => word64 x.ctx 0 | 3 => word64 x.ctx 1
  | 4 => word64 x.ts 0 | 5 => word64 x.ts 1
  | 6 => x.runs
  | _ => 0

/-- The block-specific words that are computed from the state and not held as registers. -/
def viewWord (v : Vault) (d : Dev) (p : Page) (off : Nat) : Option Nat := match p with
  | .id => if off = 0x100 ∨ off = 0x104 then some (word64 v.serial (off / 4 % 2))
           else if off = 0x218 then some v.cert.length
           else if 0x400 ≤ off ∧ off < 0x800 then some (leNat ((v.cert.drop (off - 0x400)).take 4)) else none
  | .clk => if off = 0x100 then some (clkStat d) else none
  | .pwr => if off = 0x100 then some (pwrStat d) else none
  | .evr => if 0x120 ≤ off ∧ off < 0x140 then some (vecAssertWord v d ((off - 0x120) / 4))
            else if 0x140 ≤ off ∧ off < 0x160 then some (vecWord d .sent ((off - 0x140) / 4))
            else if 0x180 ≤ off ∧ off < 0x1C0 then some (srcPendWord v d ((off - 0x180) / 4)) else none
  | .pcie => if off = 0x100 then some (pcieStat d) else none
  | .tw => if off = 0x10C then some (twStat d) else if off = 0x138 then some (holdLeft d)
           else if off = 0x13C then some (twSyncProg d) else none
  | .gl => if off = 0x100 then some (glStat d) else if off = 0x104 then some (glCode d) else none
  | .sb => if off = 0x10C then some (sbStat d) else none
  | .lt t => if off = 0x100 then some (ltPendMask v d t) else if off = 0x104 then some (ltRunMask d t)
             else if off = 0x108 then some (ltFaultMask d t) else if off = 0x10C then some (ltFrozenMask d t)
             else if 0x9000 ≤ off then
               let k := (off - 0x9000) / 0xC00
               let e := (off - 0x9000) % 0xC00 / 4 * 2
               some ((tget 0 d.ctab (liveAt t k e)).toNat + 65536 * (tget 0 d.ctab (liveAt t k (e + 1))).toNat)
             else none
  | .lc g => if off = 0x150 then some (lcStat d g) else if off = 0x198 then some (supStat d g)
             else if coefWord p off then some (rd d (coefAt g (fld (rd d (LC_CSEL g)) 1 0) ((off - 0x200) / 0x20) ((off - 0x200) % 0x20 / 4))).toNat
             else none
  | .mt m => if off = 0x100 then some (mtRunMask d m) else if off = 0x104 then some (mtFaultMask d m) else none
  | .ax a => viewAx d a off
  | .sq l => if off = 0x104 then some (laneStat d l)
             else if 0x120 ≤ off ∧ off < 0x130 then some (laneRep d l ((off - 0x120) / 4))
             else if off = 0x130 then some (laneOf d l).stack.length else none
  | .ac k => if off = 0x110 then some (acStat d k) else if off = 0x11C then some (acInval d k)
             else if 0x300 ≤ off ∧ off < 0x390 ∧ off % 16 = 12 then some (acSlStat d k ((off - 0x300) / 16)) else none
  | .ao j => if 0x100 ≤ off ∧ off < 0x200 ∧ off % 0x40 = 0x14 then some (aoStat d (4 * j + (off - 0x100) / 0x40))
             else if 0x100 ≤ off ∧ off < 0x200 ∧ off % 0x40 = 0x18 then some (aoAct d (4 * j + (off - 0x100) / 0x40) % 65536).toNat else none
  | .dio g => if off = 0x104 then some (dioLvl d g)
              else if 0x200 ≤ off ∧ off < 0x400 ∧ off % 0x40 = 0x0C then some (dioStat d (8 * g + (off - 0x200) / 0x40)) else none
  | .stp s => if off = 0x118 then some (stpStat d s) else none
  | .enc e => if off = 0x128 then some (encStat d e) else none
  | .oh => if off = 0x104 then some (ohStat d) else none
  | .lp p => if off = 0x104 then some (lpStat d p) else if off = 0x128 ∨ off = 0x12C then lpChgAt d p off else none
  | .sfa => if off = 0x100 then some (sfStat d 0) else if 0x150 ≤ off ∧ off < 0x170 then some (sfInstWord d 0 ((off - 0x150) / 4))
            else if 0x170 ≤ off ∧ off < 0x178 then some (sfConnWord d ((off - 0x170) / 4)) else none
  | .sfb => if off = 0x100 then some (sfStat d 1) else if 0x150 ≤ off ∧ off < 0x170 then some (sfInstWord d 1 ((off - 0x150) / 4))
            else if 0x170 ≤ off ∧ off < 0x178 then some (sfConnWord d ((off - 0x170) / 4)) else none
  | .db => if off = 0x100 then some (dbStat v d) else if off = 0x114 then some v.fndHead else none
  | .pl s => if off = 0x10C then some (plStat d s) else if off = 0x128 then some (plMask d s (fun y => y.st == .active))
             else if off = 0x12C then some (plMask d s (·.invalid)) else if off = 0x130 then some (plMask d s (fun y => y.st == .silent))
             else if off = 0x134 then some (plMask d s (·.lost))
             else if 0x1000 ≤ off ∧ off < 0x1200 ∧ off % 16 = 0 then some (plSlStat d s ((off - 0x1000) / 16)) else none
  | .cx x => if off = 0x110 then some (cxStat d x) else if off = 0x114 then some (cxErrc d x) else if off = 0x118 then some (cxOf d x).rcv else none
  | .tb => if off = 0x114 then some (tbStat d) else if off = 0x124 then some (tbSlewLeft d % 2 ^ 32).toNat else none
  | .tr => if off = 0x108 then some (trStat d) else none
  | .tl => if off = 0x104 then some (tlStat d) else if off = 0x108 then some (tlCoreStat d)
           else if 0x10000 ≤ off then some (viewThr d ((off - 0x10000) / 32) ((off - 0x10000) % 32 / 4)) else none
  | .tk => if off = 0x104 then some (tkStat d) else none
  | .mb b => if off = 0x104 then some (mbStat d b) else none
  | .eth _ | .hlth | .sig | .sio => none

/-- A word of a page with no write waiting: as computed, else as held. -/
def heldWord (v : Vault) (d : Dev) (p : Page) (off a : Nat) : W32 :=
  match viewWord v d p off with
  | some n => w32 n
  | none => rd d a

/-- A word of a page as a read shows it. -/
def readPage (v : Vault) (d : Dev) (p : Page) (off : Nat) : W32 :=
  let a := if 0x9000 ≤ off then off + (match p with | .lt t => ltBase t | p => pageBase p) else pageBase p + off
  if off = BLK_STAT then w32 (blkStat d p)
  else if off = EVT_RAW then w32 (evtRaw v d p)
  else if off = EVT_PEND then w32 (evtPend v d p)
  else if off = POST_STAT then putBit (rd d a) 0 (d.crossing.any (fun w => (pageAt (w.addr % 2 ^ 28)).map (·.1) == some p))
  else match accessOf p off with
    | some .wo => 0
    | some .wp =>
      if coefWord p off then w32 ((viewWord v d p off).getD 0)
      else match waitingWrite d a with
        | some w => (w &&& wpBits p off) ||| (heldWord v d p off a &&& ~~~(wpBits p off))
        | none => heldWord v d p off a
    | _ => heldWord v d p off a

/-! ### Windows -/

/-- An area header of the Daybook (Table 15-2). -/
def dbHeader (v : Vault) (d : Dev) (founding : Bool) : List W8 :=
  let magic := if founding then [0x44, 0x42, 0x46, 0x41] else [0x44, 0x42, 0x52, 0x41]
  let tail := if founding then 0x40 else rdN d DB_RUN_TAIL
  magic.map (BitVec.ofNat 8) ++ leBytes 2 1 ++ leBytes 2 0 ++ leBytes 8 v.serial ++ leBytes 4 (if founding then 0 else rdN d DB_GEN)
    ++ leBytes 4 (rdN d ID_RING) ++ leBytes 4 tail ++ leBytes 4 (if founding then b2n v.fndFull else 0) ++ List.replicate 32 0

/-- The byte at an offset of a record area: of the record that holds it, else 0. -/
def areaByte (rs : List DbRec) (off : Nat) : W8 :=
  match rs.find? (fun r => decide (r.off ≤ off ∧ off < r.off + r.bytes.length)) with
  | some r => nth r.bytes (off - r.off) 0
  | none => 0

/-- A suppression state as it lies in MRAM (R387). -/
def suppBytes (s : DbSupp) : List W8 :=
  leBytes 2 s.count ++ leBytes 5 s.first ++ leBytes 5 s.last ++ leBytes 1 s.sev ++ leBytes 1 (b2n s.rate + 2 * b2n s.full) ++ [0, 0]

/-- A byte of the MRAM read window (R427, Table 17-6, Table 15-1). -/
def mramByte (v : Vault) (d : Dev) (o : Nat) : W8 :=
  if o < 0x10000 then 0
  else if 0x2450000 ≤ o ∧ o < 0x2460000 then nth (suppBytes (tget noSupp d.db.supp ((o - 0x2450000) / 16))) (o % 16) 0
  else if o < 0x18000 ∨ (0x1C000 ≤ o ∧ o < 0x40000) ∨ (0x2400000 ≤ o ∧ o < 0x2480000) ∨ (0x2800000 ≤ o ∧ o < 0x3C00000) then Config.mramOpen o d.free
  else if 0x2000000 ≤ o ∧ o < 0x2100000 then
    (if o < 0x2000040 then nth (dbHeader v d true) (o - 0x2000000) 0 else areaByte v.founding (o - 0x2000000))
  else if 0x2100000 ≤ o ∧ o < 0x2100040 then nth (dbHeader v d false) (o - 0x2100000) 0
  else match tfind d.nv o with
    | some b => BitVec.ofNat 8 b
    | none => mrd d.mram o

/-- A 16-bit word of a variable window (Table 8-6; window columns of Tables 8-16 and 8-17). -/
def varRead (d : Dev) (p off : Nat) : W16 :=
  let x := lpOf d p
  let half (n : Nat) : W16 := BitVec.ofNat 16 (n / 2 ^ (16 * (off / 2 % 2)))
  if off < 0x2000 then tget 0 x.m (off / 2)
  else if 0x10000 ≤ off ∧ off < 0x30000 then tget 0 x.w ((off - 0x10000) / 2)
  else if 0x40000 ≤ off ∧ off < 0x60000 then
    let s := slotOf x ((off - 0x40000) / 16)
    match off % 16 / 4 with
    | 0 => half (s.kind + 256 * b2n s.inp + 512 * b2n s.q + 1024 * b2n s.init + 2048 * s.base)
    | 1 => half (s.preset % (if s.kind = 4 ∨ s.kind = 5 then 2 ^ 16 else 2 ^ 32)).toNat
    | 2 => half (s.val % (if s.kind = 4 ∨ s.kind = 5 then 2 ^ 16 else 2 ^ 32)).toNat
    | _ => if s.kind = 4 ∨ s.kind = 5 then 0 else half (u64 s.val / 2 ^ 32)
  else if 0x60000 ≤ off ∧ off < 0x68000 then half ((nth x.prog.insts ((off - 0x60000) / 4) default).id)
  else if 0x80000 ≤ off ∧ off < 0x82000 then
    let f := nth x.forces ((off - 0x80000) / 8) (0, 0)
    if off % 8 < 4 then half f.1 else half f.2
  else if 0x100000 ≤ off ∧ off < 0x1C0000 then
    let s := nth x.prog.syms ((off - 0x100000) / 12) ⟨0, 0, 0, false⟩
    match (off - 0x100000) % 12 / 4 with
    | 0 => half s.id
    | 1 => half (s.area * 2 ^ 20 + s.addr + 2 ^ 24 * b2n s.word)
    | _ => 0
  else if 0x300000 ≤ off ∧ off < 0x308000 then tget 0 d.shared ((off - 0x300000) / 2)
  else 0

/-- A word of the SRAM window: of a bank that is not ON, or poisoned, it reads all ones (R419, R420). -/
def sramWord (d : Dev) (o : Nat) : W32 := if sramOk d o 4 then w32 (sramNum d o 4) else 0xFFFFFFFF

/-- What a read of the aligned word at a BAR0 address shows; an unassigned address reads 0 (R44). -/
def readWord32 (v : Vault) (d : Dev) (a : Nat) : W32 :=
  match pageAt a with
  | some (p, off) => if responds d p then readPage v d p off else 0
  | none =>
    if msixBase ≤ a ∧ a < pbaBase then (if msixOn d then rd d a else 0)
    else if pbaBase ≤ a ∧ a < pbaBase + 32 then (if msixOn d then w32 (vecWord d .pending ((a - pbaBase) / 4)) else 0)
    else if !windowsOn d then 0
    else if attrBase ≤ a ∧ a < attrBase + 0x20000 then attrOf d ((a - attrBase) / 4)
    else if sigWin ≤ a ∧ a < sigWin + 0x20000 then sigVal d ((a - sigWin) / 4)
    else if varWin ≤ a ∧ a < varWin + 0x1000000 then
      ofHalves (varRead d ((a - varWin) / 0x400000) ((a - varWin) % 0x400000)) (varRead d ((a - varWin) / 0x400000) ((a - varWin) % 0x400000 + 2))
    else if mramWin ≤ a ∧ a < mramWin + 0x4000000 then w32 (leNat ((List.range 4).map (fun i => mramByte v d (a - mramWin + i))))
    else if sramWin ≤ a ∧ a < sramWin + 0x4000000 then (if a - sramWin < sramSize then sramWord d (a - sramWin) else 0)
    else 0

/-- An access that a read makes: of a register page it must be a naturally aligned word, or an aligned pair of words; partial byte
enables are served from the containing word (R44). size: bytes from the address on. -/
def pageReadOk (a size : Nat) : Bool := decide (a % 4 + size ≤ 4) || (a % 8 == 0 && size == 8)

/-- A byte of the LPDDR5 trace ring (BAR2, Table 2-2). -/
def ringByte (d : Dev) (o : Nat) : W8 := mrd d.ring o

/-- What a read by the host of size bytes from an address answers, byte by byte; from 2^28 on the address is BAR2's. Register pages
return nothing to an unaligned access (dropped, R44, log entry 56); nothing is answered while BAR access is off (R38). -/
def hostRead (v : Vault) (d : Dev) (who a size : Nat) : List W8 :=
  if reaches d who = false ∨ powered d = false then []
  else if 2 ^ 28 ≤ a then (List.range size).map (fun i => ringByte d (a - 2 ^ 28 + i))
  else if (pageAt (a / 4 * 4)).isSome ∧ pageReadOk a size = false then []
  else (List.range size).map (fun i => BitVec.ofNat 8 ((readWord32 v d ((a + i) / 4 * 4)).toNat / 2 ^ (8 * ((a + i) % 4))))

end Sys2Proof.Machine
end

