-- ==== Sys2Proof/Machine/Requests.lean ====
section
/-! DEFINITION. What an applied write does on every page: block control, lock, and the pages whose registers have no
functions of their own (R46, R49, R393, R392, R433, R466). -/

namespace Sys2Proof.Machine

/-! ### Block control (R46) -/

/-- Outputs of a running loop cell go to LC_SAFE when SAFE_REQ comes (R102). -/
def cellSafeNow (d : Dev) (g : Nat) : Dev := if (cellOf d g).st = .running then lcOutSafe d g false else d

/-- What a rise of SAFE_REQ does at once; the other blocks look at the bit when they next drive their outputs. -/
def safeRise (d : Dev) (p : Page) : Dev := match p with
  | .lc g => cellSafeNow d g
  | .lt t => ((List.range 32).map (32 * t + ·)).foldl cellSafeNow d
  | .lp n => if (lpOf d n).st = .running then lpSafe d n false else d
  | _ => d

/-- What a change of RUN does at once; the other blocks evaluate the bit at the instant their chapters name. -/
def runChange (d : Dev) (p : Page) (rise : Bool) : Dev := match p with
  | .ac k => acRun d k
  | .enc e => encRestart d e
  | .lt t => if rise then wrFld d (LT_CYC t) 27 16 0 else d
  | .mt m => if rise then wrFld d (MT_CYC m) 27 16 0 else d
  | _ => d

/-- A write of BLK_CTRL. -/
def blkCtrl (d : Dev) (p : Page) (v : W32) : Dev :=
  let run := runBit d p
  let req := safeReq d p
  let d := wrN d (pageBase p + BLK_CTRL) (fld v 1 0)
  let d := if bit v 0 != run then runChange d p (bit v 0) else d
  if bit v 1 && !req then safeRise d p else d

/-- A write of KEYLOCK (R49): only the two key values change the lock. -/
def keylock (d : Dev) (p : Page) (v : W32) : Dev :=
  if v = 0xA5C3 then wrN d (pageBase p + KEYLOCK) 0xA5C3 else if v = 0x5A3C then wrN d (pageBase p + KEYLOCK) 0 else d

/-! ### Daybook page (R390, R392) -/

/-- DB_CLEAR: the token's checks in the order of Table 15-10; a token that passes them stages the clear. -/
def dbClear (d : Dev) (serial : Nat) (args : List W32) : Dev :=
  let len := (nth args 1 0).toNat
  let addr := (nth args 0 0).toNat
  let bs := sramCopy d addr len
  let body := bodyOf bs
  if clearing d then err d .db 0x0F01 DB_CMD
  else if len = 0 then wrN d DB_RES 1
  else match containerCheck d bs 6 (sramLen d addr len) with
    | 1 => wrN d DB_RES 1
    | 2 => wrN d DB_RES 2
    | 3 => wrN d DB_RES 3
    | _ =>
      if body.length ≠ 64 ∨ num body 0 4 ≠ 0x54434244 ∨ num body 4 2 ≠ 1 ∨ zeros body 6 2 = false ∨ zeros body 0x20 32 = false then wrN d DB_RES 4
      else if num body 8 8 ≠ serial then wrN d DB_RES 5
      else if num body 0x10 4 ≠ (rdN d DB_GEN + 1) % 2 ^ 32 then wrN d DB_RES 6
      else if 256 ≤ d.db.staging.length then wrN d DB_RES 0x0A
      else
        let e := DbEntry.clear (num body 0x10 4) (num bs 0x10 8) (w32 (num body 0x14 4)) (num body 0x18 8)
        setDb (wrN d DB_RES 0) { d.db with staging := d.db.staging ++ [e] }

/-- A write of DB_CMD by a requester. -/
def dbCommand (d : Dev) (serial who : Nat) (v : W32) : Dev := match fld v 3 0 with
  | 0 => dbNop d
  | 1 => dbClear d serial d.db.args
  | 2 => dbAppPut d who d.db.args
  | _ => err d .db 0x0F02 DB_CMD

/-- A write to the Daybook page. -/
def dbWrite (d : Dev) (serial who off : Nat) (v : W32) : Dev :=
  let a := dbBase + off
  if off = 0x140 then dbCommand d serial who v
  else if off = 0x148 ∨ off = 0x14C then wr d a v
  else if off = 0x150 then wr d a (v &&& 0xF7FFF)
  else if off = 0x154 then wr d a (v &&& 0x7FF)
  else if 0x180 ≤ off ∧ off < 0x1C0 then
    if 1000 < fld v 9 0 then err d .db 5 a
    else if fld v 9 0 ≠ 0 ∧ fld v 23 16 = 0 then err d .db 7 a
    else wr d a (v &&& 0xFF03FF)
  else if 0x400 ≤ off ∧ off < 0x7E8 then wr d a v
  else if 0x800 ≤ off ∧ off < 0x1000 then wr d a v
  else d

/-! ### Trace page (R393) -/

/-- A configuration write of the trace page, accepted only in STOPPED. -/
def trPut (d : Dev) (a : Nat) (cause : Option Nat) (v : W32) : Dev :=
  if d.tr.state ≠ .stopped then err d .tr 6 a
  else match cause with
    | some c => err d .tr c a
    | none => wr d a v

/-- A write to the trace page. -/
def trWrite (d : Dev) (off : Nat) (v : W32) : Dev :=
  let a := trBase + off
  if off = 0x100 then trPut d a none (v &&& 3)
  else if off = 0x104 then trCommand d v
  else if off = 0x120 then trRelease d v.toNat
  else if off = 0x124 then
    (if 2000 < fld v 10 0 ∨ 2000 < fld v 26 16 ∨ 2000 < fld v 10 0 + fld v 26 16 then err d .tr 5 a else wr d a (v &&& 0x07FF07FF))
  else if off = 0x128 then wr d a (v &&& 0xFF)
  else if off = 0x16C then { wr d a v with tr := { d.tr with dmaRel := d.tr.dmaRel + v.toNat } }
  else if (0x160 ≤ off ∧ off < 0x178) ∨ (0x180 ≤ off ∧ off < 0x194) then wr d a v
  else if 0x400 ≤ off ∧ off < 0x600 then
    if off % 8 = 0 then
      trPut d a (if fld v 12 0 = 0 then some 7 else if 4096 < fld v 12 0 ∨ fld v 12 0 ≤ fld v 28 16 then some 5 else none) (v &&& 0x1FFF1FFF)
    else
      trPut d a (if bit v 0 = true ∧ fld v 7 1 = 0 then some 7 else if 64 < fld v 7 1 ∨ 1024 < fld v 31 21 then some 5 else none) (v &&& 0xFFFFFFFF)
  else if 0x1000 ≤ off ∧ off < 0x5000 then trPut d a none (v &&& 0x7FFF7FFF)
  else d

/-! ### Identity, clock and router pages -/

/-- A write to the identity page (R62, R433). -/
def idWrite (d : Dev) (serial off : Nat) (v : W32) : Dev :=
  if off = 0x110 then idRing d v
  else if off = 0x200 then idCommand d serial v
  else if off = 0x210 then wr d ID_CERT_ADDR v
  else if off = 0x214 then wr d ID_CERT_IN_LEN (v &&& 0x7FF)
  else if 0x240 ≤ off ∧ off < 0x260 then wr d (idBase + off) v
  else d

/-- A write to the clock page (R30, R32). -/
def clkWrite (d : Dev) (off : Nat) (v : W32) : Dev :=
  if off = 0x104 then wr d CLK_CTRL (v &&& 1) else if off = 0x108 then clkTrimWrite d v else d

/-- A write to the event router page (Table 2-9). -/
def evrWrite (vt : Vault) (d : Dev) (off : Nat) (v : W32) : Dev :=
  if off = 0x100 then vecDone vt d v
  else if off = 0x104 then sweRaise d v
  else if 0x400 ≤ off ∧ off < 0x440 then wr d (evrBase + off) v
  else d

/-! ### A block-specific write, applied -/

/-- The registers that take only 8-byte-aligned values (R466). -/
def loadAddrReg : Page → Nat → Bool
  | .sq _, off => off == 0x138
  | .lp _, off => off == 0x108
  | .sfa, off => off == 0x108
  | .pl _, off => off == 0x114
  | .db, off => off == 0x148
  | .id, off => off == 0x210
  | .pwr, off => off == 0x108
  | _, _ => false

/-- The command registers: what is written stays readable where the command was not refused. -/
def commandReg : Page → Nat → Bool
  | .lt _, off => off == 0x120
  | .lc _, off => off == 0x1EC
  | .ac _, off => off == 0x10C
  | .mt _, off => off == 0x118
  | .ax _, off => off == 0x100
  | .lp _, off => off == 0x100 || off == 0x144
  | .sfa, off => off == 0x104
  | .tw, off => off == 0x104
  | .gl, off => off == 0x108
  | .sb, off => off == 0x108
  | .pl _, off => off == 0x104 || off == 0x108
  | .cx _, off => off == 0x10C
  | .tb, off => off == 0x120
  | .eth _, off => off == 0x310
  | .db, off => off == 0x140
  | .tr, off => off == 0x104
  | .tl, off => off == 0x10C
  | .tk, off => off == 0x108
  | .id, off => off == 0x200
  | .pwr, off => off == 0x104
  | .hlth, off => off == 0x18C
  | _, _ => false

/-- The write functions of the blocks. set: the coefficient set taken with a coefficient write (R98). GL RETEST draws the
outcomes of its wire test as free values (log entry 9). -/
def blockWrite (vt : Vault) (d : Dev) (who : Nat) (p : Page) (off set : Nat) (v : W32) : Dev := match p with
  | .id => idWrite d vt.serial off v
  | .clk => clkWrite d off v
  | .pwr => if off = 0x104 then pwrCommand d v else pwrWrite d off v
  | .evr => evrWrite vt d off v
  | .tw => twWrite d off v
  | .gl =>
    let a := freeYes d
    let b := freeYes a.2
    glWrite (if off = 0x108 ∧ fld v 3 0 = 2 then b.2 else d) off v a.1 b.1
  | .sb => sbWrite d off v
  | .hlth => hlthWrite d off v
  | .lt t => if 0x9000 ≤ off then compSlotWrite d t off v else ltWrite d t off v
  | .lc g => lcWrite d g off v set
  | .mt m => mtWrite d m off v
  | .ax a => axWrite d a off v
  | .sq l => laneRegWrite d l off v
  | .ac k => acWrite d k off v
  | .ao j => aoWrite d j off v
  | .dio g => dioWrite d g off v
  | .enc e => encWrite d e off v
  | .stp s => stpWrite d s off v
  | .oh => ohWrite d off v
  | .lp n => lpRegWrite d n off v
  | .sfa => sfWrite d off v
  | .db => dbWrite d vt.serial who off v
  | .pl s => plWrite d s off v
  | .cx x => cxWrite d x off v
  | .tb => tbWrite d off v
  | .eth e => ethWrite d e off v
  | .tr => trWrite d off v
  | .tl => tlWrite d off v
  | .tk => tkWrite d off v
  | .mb b => mbWrite d b off v
  | .sig | .pcie | .sio | .sfb => d

/-- A write to a page takes effect: header fields, misaligned load addresses, commands, every other register. -/
def applyPage (vt : Vault) (d : Dev) (who : Nat) (p : Page) (off set : Nat) (v : W32) : Dev :=
  let a := pageBase p + off
  if off = BLK_CTRL then blkCtrl d p v
  else if off = KEYLOCK then keylock d p v
  else if loadAddrReg p off = true ∧ v.toNat % 8 ≠ 0 then err d p 5 a
  else if commandReg p off then withCommand d p a v (fun d => blockWrite vt d who p off set v)
  else blockWrite vt d who p off set v

end Sys2Proof.Machine
end

