-- ==== Sys2Proof/Machine/Host.lean ====
section
/-! DEFINITION. The host interface: how a write to BAR0 or BAR2 is admitted, crosses and is applied (R8, R21, R27, R42,
R44, R49, R51, R52, R55, R98, R99, R213, R268, R427), and how a command that has a row of its own is admitted. -/

namespace Sys2Proof.Machine

/-! ### Pair ordering (R55, R268) -/

/-- The WP fields that the chapters mark pair-ordered; KEYLOCK of every page is each module's own (R269). -/
def pairOrdered (p : Page) (off : Nat) : Bool := decide (off ≠ KEYLOCK) && accessOf p off == some .wp && (match p with
  | .lc _ | .lt _ | .mt _ | .ax _ | .ac _ | .ao _ | .dio _ | .stp _ | .sq _ | .lp _ | .sfa => true
  | .pl _ => off == 8 || off == 0x104 || off == 0x110 || off == 0x114 || off == 0x118
  | .sb => off == 0x100
  | .tb => off == 0x120
  | .eth _ => off == 0x110 || off == 0x114 || off == 0x118 || (decide (0x400 ≤ off) && decide (off < 0x600))
  | _ => false)

/-- Between the last batch of a handover, that of BP h - 1, and its end no write is accepted (R287). -/
def handingOver (d : Dev) : Bool := match d.tw.handover with
  | some h => decide (h ≤ bp d + 1)
  | none => false

/-- The module accepts pair-ordered writes. -/
def accepts (d : Dev) : Bool := authoritative d && !handingOver d

/-- A write enters the pair-ordering queue and takes the next sequence number. -/
def poPush (d : Dev) (w : Posted) : Dev := setTw d { d.tw with queue := d.tw.queue ++ [w], seq := d.tw.seq + 1 }

/-- The configuration window applies the writes of these pages (R99, R143, R160, R166, R176; STP and ENC DEDUCED, log entry 23). -/
def windowPage : Page → Bool
  | .lc _ | .lt _ | .mt _ | .ax _ | .ac _ | .ao _ | .dio _ | .stp _ | .enc _ => true
  | _ => false

/-- C2 applies the writes of these pages (R66, R211, R253). -/
def commitPage : Page → Bool
  | .sq _ | .lp _ | .sfa => true
  | _ => false

/-! ### Byte lanes (R44) -/

/-- The bytes of a write at their addresses. -/
def writeLanes (a be v : Nat) : List (Nat × W8) :=
  (List.range 8).filterMap (fun i => if be / 2 ^ i % 2 = 1 then some (a + i, BitVec.ofNat 8 (v / 2 ^ (8 * i))) else none)

/-- The byte enables and the value of the part of a write that lies in the word at w. -/
def lanePart (ls : List (Nat × W8)) (w : Nat) : Nat × W32 :=
  (ls.filter (fun l => l.1 / 4 * 4 == w)).foldl (fun p l => (p.1 + 2 ^ (l.1 - w), p.2 + w32 (l.2.toNat * 2 ^ (8 * (l.1 - w))))) (0, 0)

/-- A word with some of its bytes replaced. -/
def mergeBytes (old new : W32) (be : Nat) : W32 :=
  w32 (leNat ((List.range 4).map (fun i => BitVec.ofNat 8 ((if be / 2 ^ i % 2 = 1 then new else old).toNat / 2 ^ (8 * i)))))

/-! ### Windows -/

/-- The newest value of an entry that waits, or its present one: a partial write keeps the other bytes of it. -/
def sigPending (d : Dev) (n : Nat) : W32 :=
  match (d.tw.queue.reverse.find? (fun w => w.addr == sigWin + 4 * n)).map (·.val), (d.hostq.reverse.find? (fun w => w.1 == n)).map (·.2) with
  | some v, _ => v
  | none, some v => v
  | none, none => sigVal d n

/-- SIG_WINDOW_WRITE: a host or application-core write of SIG[n] (R21, R27, R268). -/
def sigWrite (d : Dev) (n : Nat) (v : W32) (who : Nat) : Dev :=
  let a := sigWin + 4 * n
  if windowsOn d = false then (if powered d then bump d DEV_UNMAPPED_CNT else d)
  else if pairEn d = false then { d with hostq := d.hostq ++ [(n, v)] }
  else if accepts d = false then postErr d .sig 4 a
  else if 1024 ≤ d.tw.queue.length then postErr d .sig 3 a
  else poPush d ⟨a, v, who⟩

/-- The ranges of a variable window that take writes (Table 8-6). -/
def varRange (off : Nat) : Bool :=
  decide (off < 0x2000) || (decide (0x10000 ≤ off) && decide (off < 0x30000)) || (decide (0x300000 ≤ off) && decide (off < 0x308000))

/-- A write of a word of a variable window, with its byte enables (R213, R268). -/
def varWrite (d : Dev) (a be : Nat) (v : W32) (who : Nat) : Dev :=
  let p := (a - varWin) / 0x400000
  let w : Posted := ⟨a + 2 ^ 28 * be, v, who⟩
  if varRange ((a - varWin) % 0x400000) = false then bump d DEV_UNMAPPED_CNT
  else if pairEn d = false then { d with cfgq := d.cfgq ++ [w] }
  else if accepts d = false then postErr d (.lp p) 4 a
  else if 1024 ≤ d.tw.queue.length then postErr d (.lp p) 3 a
  else poPush d w

/-- A write of a word of a variable window takes effect, halfword by halfword; bytes that are not enabled stay. -/
def varApply (d : Dev) (a be : Nat) (v : W32) : Dev :=
  let p := (a - varWin) / 0x400000
  let o := (a - varWin) % 0x400000
  let now := ofHalves (varRead d p o) (varRead d p (o + 2))
  let new := mergeBytes now v be
  let d := if be % 4 ≠ 0 then varWord d p o (halfOf new false) else d
  if be / 4 % 4 ≠ 0 then varWord d p (o + 2) (halfOf new true) else d

/-- A write of a word in one of the windows, in parts of whole bytes. -/
def windowWord (v : Vault) (d : Dev) (a be : Nat) (val : W32) (who : Nat) : Dev :=
  let bytes := writeLanes a be val.toNat
  if msixBase ≤ a ∧ a < pbaBase then
    (if msixOn d = false then bump d DEV_UNMAPPED_CNT
     else
       let w := mergeBytes (rd d a) val be
       let d := wr d a (if a % 16 = 12 then w &&& 1 else if a % 16 = 0 then w &&& 0xFFFFFFFC else w)
       if a % 16 = 12 then vecEval v d else d)
  else if pbaBase ≤ a ∧ a < pbaBase + 32 then bump d (if msixOn d then DEV_BAD_ACC_CNT else DEV_UNMAPPED_CNT)
  else if windowsOn d = false then bump d DEV_UNMAPPED_CNT
  else if attrBase ≤ a ∧ a < attrBase + 0x20000 then d
  else if sigWin ≤ a ∧ a < sigWin + 0x20000 then
    let n := (a - sigWin) / 4
    sigWrite d n (mergeBytes (sigPending d n) val be) who
  else if varWin ≤ a ∧ a < varWin + 0x1000000 then varWrite d a be val who
  else if mramWin ≤ a ∧ a < mramWin + 0x4000000 then bytes.foldl (fun d b => nvWrite d (b.1 - mramWin) [b.2]) d
  else if sramWin ≤ a ∧ a < sramWin + sramSize then
    let o := a - sramWin
    if bankOn d (bankOf d o) then bytes.foldl (fun d b => sramPut d (b.1 - sramWin) [b.2]) d else offBankAccess d o
  else bump d DEV_UNMAPPED_CNT

/-- A write outside the register pages: any size and alignment, carried out word by word; the MRAM window judges the access
as a whole. -/
def windowWrite (v : Vault) (d : Dev) (who a be : Nat) (val : W64) : Dev :=
  let ls := writeLanes a be val.toNat
  if mramWin ≤ a ∧ a < mramWin + 0x4000000 ∧ windowsOn d = true ∧ ls.any (fun b => decide (b.1 - mramWin < nvLo) || decide (nvHi ≤ b.1 - mramWin)) then
    bump d DEV_BAD_ACC_CNT
  else
    [0, 4, 8].foldl (fun d i =>
      let w := a / 4 * 4 + i
      let part := lanePart ls w
      if part.1 ≠ 0 then windowWord v d w part.1 part.2 who else d) d

/-! ### Register pages -/

/-- A posted write to the page is crossing. -/
def busy (d : Dev) (p : Page) : Bool := d.crossing.any (fun w => (pageAt (w.addr % 2 ^ 28)).map (·.1) == some p)

/-- A register that acknowledges a counter. -/
def isAck (p : Page) (off : Nat) : Bool :=
  (ackRows p).any (fun r => off == r.1 || (r.2.1 != 0 && decide (r.1 ≤ off) && decide (off < r.1 + r.2.1 * r.2.2) && (off - r.1) % r.2.1 == 0))

/-- The fields that a lock does not cover (R49). -/
def lockExempt (p : Page) (off : Nat) : Bool := off == KEYLOCK || off == EVT_EN || off == EVT_VEC || off == POST_STAT || isAck p off

/-- The vectors that the module holds in VEC0 and VEC1 of a port's page while PTP_EN = 1 would change (R358). -/
def vecHeld (d : Dev) (p : Page) (v : W32) : Bool :=
  match p with
  | .eth e => ptpEn d && fld v 15 0 != ptpVecs e
  | _ => false

/-- The vectors of the slots a page has; on a cell page EVT_VEC is reserved. A write that would change a vector held for a port's event
frames is refused as a whole (R47, R358). -/
def vecWrite (d : Dev) (p : Page) (v : W32) : Dev :=
  let a := pageBase p + EVT_VEC
  if vecHeld d p v then err d p 0x0E11 a
  else match pageSource p with
  | some (_, 1) => wr d a (v &&& 0xFF)
  | some (_, 2) => wr d a (v &&& 0xFFFF)
  | some _ => wr d a v
  | none => d

/-- A receive-ring acknowledge releases entries (R351, R370); every other one is plain. -/
def ackWrite (vt : Vault) (d : Dev) (who : Nat) (p : Page) (off : Nat) (v : W32) : Dev :=
  let ring := decide (0x1CC ≤ off) && decide (off < 0x240) && (off - 0x1CC) % 32 == 0
  match p with
  | .cx _ | .eth _ => if ring then blockWrite vt d who p off 0 v else wr d (pageBase p + off) v
  | _ => wr d (pageBase p + off) v

/-- The coefficient set that a coefficient write takes with it (R98), carried above the address. -/
def withSet (d : Dev) (p : Page) (off a : Nat) : Nat :=
  a + 2 ^ 28 * (match p with
    | .lc g => if coefWord p off then fld (rd d (LC_CSEL g)) 1 0 else 0
    | _ => 0)

/-- A posted write sets out: the coefficient set is taken with it (R98), and what DB_CMD copies (R391, R392). -/
def postWrite (d : Dev) (who : Nat) (p : Page) (off a : Nat) (v : W32) : Dev :=
  let w := withSet d p off a
  let d := if a = DB_CMD then setDb d { d.db with args := dbArgs d } else d
  { d with crossing := d.crossing ++ [⟨w, v, who⟩] }

/-- A write to a register of a page that responds, whole and aligned; `crossed`, whether a write of the page was crossing when the
access arrived. Every WP field is posted, whatever the requester's clock domain (DESIGN CHOICE, log entry 50). -/
def pageWriteAt (vt : Vault) (crossed : Bool) (d : Dev) (who : Nat) (p : Page) (off a : Nat) (v : W32) : Dev :=
  if crossed then postErr d p 1 a
  else if locked d p && !lockExempt p off then postErr d p 2 a
  else if off = EVT_EN then wr d a v
  else if off = EVT_VEC then vecWrite d p v
  else if off = POST_STAT then wrFld d a 23 16 (fld v 23 16)
  else if isAck p off then ackWrite vt d who p off v
  else match accessOf p off with
    | some .rw | some .wo => applyPage vt d who p off 0 v
    | some .wp =>
      if pairOrdered p off && pairEn d && !accepts d then postErr d p 4 a else postWrite d who p off a v
    | _ => d

/-- A 32-bit write to a register page. -/
def pageWrite (vt : Vault) (d : Dev) (who : Nat) (p : Page) (off a : Nat) (v : W32) : Dev := pageWriteAt vt (busy d p) d who p off a v

/-- The low word of an 8-byte register. -/
def wideReg (p : Page) (off : Nat) : Bool := off % 8 == 0 && (match rowOfReg p off with
  | some r => r.words == 2
  | none => false)

/-- A 64-bit write to an 8-byte register: two 32-bit writes, the low word first; they arrive as one access, so that the low word's
crossing does not turn the high word away (DEDUCED, log entry 56). -/
def pageWrite64 (vt : Vault) (d : Dev) (who : Nat) (p : Page) (off a : Nat) (v : W64) : Dev :=
  let c := busy d p
  pageWriteAt vt c (pageWriteAt vt c d who p off a (v.setWidth 32)) who p (off + 4) (a + 4) ((v >>> 32).setWidth 32)

/-- A write to BAR0, or from 2^28 on to BAR2 (Table 2-2): byte enables be of eight bytes from the address, of which be below 16 makes
an access of at most 32 bits; the host is who 0. Register pages take an aligned word, or an aligned 8-byte register whole (R44). -/
def hostWrite (vt : Vault) (d : Dev) (who a be : Nat) (v : W64) : Dev :=
  if reaches d who = false ∨ powered d = false then d
  else if 2 ^ 28 ≤ a then bump d DEV_BAD_ACC_CNT
  else match pageAt (a / 4 * 4) with
    | some (p, off) =>
      if responds d p = false then bump d DEV_UNMAPPED_CNT
      else if a % 8 = 0 ∧ be = 255 ∧ wideReg p off = true then pageWrite64 vt d who p off a v
      else if a % 4 ≠ 0 ∨ be ≠ 15 then bump d DEV_BAD_ACC_CNT
      else pageWrite vt d who p off a (v.setWidth 32)
    | none => windowWrite vt d who a be v

/-! ### The end of a crossing (R51, R52, R55) -/

/-- A write takes effect. -/
def applyPosted (vt : Vault) (d : Dev) (w : Posted) : Dev :=
  let a := w.addr % 2 ^ 28
  let x := w.addr / 2 ^ 28
  match pageAt a with
  | some (p, off) => applyPage vt d w.who p off x w.val
  | none =>
    if sigWin ≤ a ∧ a < sigWin + 0x20000 then { d with hostq := d.hostq ++ [((a - sigWin) / 4, w.val)] }
    else if varWin ≤ a ∧ a < varWin + 0x1000000 then varApply d a x w.val
    else d

/-- The writes of a page that are crossing: one, or the two words of one access. -/
def crossingsOf (d : Dev) (p : Page) : List Posted := d.crossing.filter (fun w => (pageAt (w.addr % 2 ^ 28)).map (·.1) == some p)
/-- No write of the page is crossing any longer. -/
def crossingEnd (d : Dev) (p : Page) : Dev := { d with crossing := d.crossing.filter (fun w => (pageAt (w.addr % 2 ^ 28)).map (·.1) != some p) }

/-- A write that has crossed: into the pair-ordering queue, to wait for the configuration window or C2, or to take effect at once. A
write that finds the queue full stays posted. -/
def crossed (vt : Vault) (p : Page) (d : Dev) (w : Posted) : Dev :=
  let off := w.addr % 2 ^ 28 - pageBase p
  if pairOrdered p off && pairEn d then
    (if accepts d = false then postErr d p 4 (w.addr % 2 ^ 28)
     else if 1024 ≤ d.tw.queue.length then { d with crossing := d.crossing ++ [w] }
     else poPush d w)
  else if (windowPage p || commitPage p) && off != KEYLOCK then { d with cfgq := d.cfgq ++ [w] }
  else applyPosted vt d w

/-- WRITE_CROSSING_DONE. -/
def crossingDone (vt : Vault) (d : Dev) (p : Page) : Dev := (crossingsOf d p).foldl (crossed vt p) (crossingEnd d p)

/-- XDOM_TIMEOUT: a read that is not answered returns all ones and is counted; a posted write that has not crossed is dropped and
counted (R52). -/
def xdomTimeout (d : Dev) (p : Page) (write : Bool) : Dev :=
  if responds d p = false then d
  else if write = false then bump (setEvr d { d.evr with cpl := 0xFFFFFFFF :: d.evr.cpl }) DEV_XTO_CNT
  else (crossingsOf d p).foldl (fun d w => postErr d p 3 (w.addr % 2 ^ 28)) (crossingEnd d p)

/-! ### Commands that have rows of their own -/

/-- An earlier write that waits for the same instant, which a later one does not overtake (R99); a command of a lane that waits for
its tick (R66). -/
def inLine (d : Dev) (p : Page) (off : Nat) : Bool := off != KEYLOCK && accessOf p off == some .wp && (d.cfgq.any (fun w =>
  match pageAt (w.addr % 2 ^ 28) with
  | some (q, _) => (windowPage p && windowPage q) || (commitPage p && commitPage q)
  | none => commitPage p) || (match p with
  | .sq l => off == 0x100 && !(laneOf d l).cmds.isEmpty
  | _ => false))

/-- A write that has a row of its own is admitted as any write is: mapped, not busy, not locked, and on the authority where it is
pair-ordered. A pair-ordered one enters the pair's queue (stays posted while it is full); one that finds an earlier write waiting
joins it; else the row stands for the whole write, its crossing included, and its effect f happens at once (DESIGN CHOICE, log
entry 49). -/
def admitted (d : Dev) (p : Page) (off : Nat) (v : W32) (f : Dev → Dev) : Dev :=
  let a := pageBase p + off
  let w : Posted := ⟨withSet d p off a, v, 0⟩
  if responds d p = false then (if powered d then bump d DEV_UNMAPPED_CNT else d)
  else if busy d p then postErr d p 1 a
  else if locked d p && !lockExempt p off then postErr d p 2 a
  else if pairOrdered p off && pairEn d then
    (if accepts d = false then postErr d p 4 a
     else if 1024 ≤ d.tw.queue.length then { d with crossing := d.crossing ++ [w] }
     else poPush d w)
  else if inLine d p off then { d with cfgq := d.cfgq ++ [w] }
  else f d

/-- A command row: the command register is written with val and the command carried out. -/
def hostCmd (d : Dev) (p : Page) (off : Nat) (val : W32) (f : Dev → Dev) : Dev :=
  admitted d p off val (fun d => withCommand d p (pageBase p + off) val f)

/-- LP_VAR_WRITE: a write of a word of a variable window, admitted, and its effect at C2 (R213): with the writes that wait for it, where
there are any, and in a pair in its order. -/
def varRow (d : Dev) (p off : Nat) (v : W32) : Dev :=
  if windowsOn d = false ∨ varRange off = false then (if powered d then bump d DEV_UNMAPPED_CNT else d)
  else if pairEn d = true ∨ d.cfgq.any (fun w => match pageAt (w.addr % 2 ^ 28) with | some (q, _) => commitPage q | none => true) = true then
    varWrite d (varWin + p * 0x400000 + off) 15 v 0
  else lpVarWrite d p off v

/-- NV_WRITE: bytes at an offset of the MRAM window. -/
def nvRow (d : Dev) (off : Nat) (bs : List W8) : Dev :=
  if windowsOn d then nvWrite d off bs else if powered d then bump d DEV_UNMAPPED_CNT else d

/-- SUPERVISION_TRIP: the cell takes the sample at which its supervisor trips, if the next one is such (R126); in Held no cell
computes (R127). -/
def supTripEvent (d : Dev) (g : Nat) : Dev :=
  if held d = false ∧ (cellOf d g).st = .running ∧ supMode d g ≠ 0 then
    let e := cellSample d g
    let c := fld (rd e (lcBase g + ERR_CODE)) 15 0
    if (cellOf e g).st = .fault ∧ (c = 0x0210 ∨ c = 0x0211) then e else d
  else d

/-! ### Rows of chapter 2 -/

/-- KEYLOCK_ENGAGE and KEYLOCK_RELEASE. -/
def keylockRow (d : Dev) (p : Page) (v : W32) : Dev := admitted d p KEYLOCK v (fun d => keylock d p v)

/-- BLK_CTRL as it reads: the newest write that waits, else the register (R51). -/
def ctrlNow (d : Dev) (p : Page) : W32 := (waitingWrite d (pageBase p + BLK_CTRL)).getD (rd d (pageBase p + BLK_CTRL))

/-- BLK_CTRL_RUN and BLK_CTRL_SAFE_REQ: one bit of BLK_CTRL is set or cleared, the other stays. -/
def ctrlRow (d : Dev) (p : Page) (i : Nat) (b : Bool) : Dev :=
  admitted d p BLK_CTRL (putBit (ctrlNow d p) i b) (fun d => blkCtrl d p (putBit (rd d (pageBase p + BLK_CTRL)) i b))

/-- ACK_WRITE: the _ACK register at an address, or POST_ERR_ACK. -/
def ackRow (vt : Vault) (d : Dev) (a : Nat) (v : W32) : Dev :=
  match pageAt a with
  | some (p, off) =>
    if isAck p off then admitted d p off v (fun d => ackWrite vt d 0 p off v)
    else if off = POST_STAT then admitted d p off v (fun d => wrFld d a 23 16 (fld v 23 16))
    else d
  | none => d

/-- EVT_EN_WRITE. -/
def evtEnRow (d : Dev) (p : Page) (v : W32) : Dev := admitted d p EVT_EN v (fun d => wr d (pageBase p + EVT_EN) v)

/-! ### Memory errors of tiles (R95, R96, R173, R230) -/

/-- Quarantine of a motion tile (R173). -/
def mtQuarantine (d : Dev) (m code addr : Nat) : Dev :=
  if motQuar d m then d
  else
    let d := { d with quar := d.quar ++ [64 + m] }
    let d := ((List.range 8).map (8 * m + ·)).foldl axQuarantine d
    tileQuar (err d (.mt m) code addr) (.mt m) code addr

/-- SCRATCHPAD_CE: a corrected error of a tile or a logic processor is counted. -/
def scratchCe (d : Dev) (p : Page) : Dev := match p with
  | .lt t => bump d (LT_ECC_CNT t)
  | .mt m => bump d (MT_ECC_CNT m)
  | .lp n => bump d (LP_ECC_CNT n)
  | _ => d

/-- SCRATCHPAD_UE: an uncorrectable error at an offset. -/
def scratchUe (d : Dev) (p : Page) (off : Nat) : Dev := match p with
  | .lt t => ltQuarantine d t 0x0282 off
  | .mt m => mtQuarantine d m 0x0382 off
  | .lp n => lpMemoryUe d n off
  | _ => d

/-- A tile that has not finished by the end of its compute window (R14): loop tiles 0 to 63, motion tiles 64 to 71. -/
def tileOverrun (d : Dev) (t : Nat) : Dev := if t < 64 then ltQuarantine d t 0x0281 0 else mtQuarantine d (t - 64) 0x0381 0

/-! ### Loads whose image is kept (R296) -/

/-- Where a load has succeeded its image is entered in the directory. -/
def keepImage (p : Page) (bank typ : Nat) (copy : List W8) (len : Nat) (ok : Bool) (d : Dev) : Dev :=
  if ok then dirPut d p bank typ len ((copy.drop 0x20).take 32) else d

/-- LANE_VERIFY_DONE. -/
def laneVerified (d : Dev) (l : Nat) : Dev :=
  let x := laneOf d l
  let e := laneVerify d l
  keepImage (.sq l) 0 2 x.copy x.copyLen (x.st == .loading && (laneOf e l).st == .loaded) e

/-- LP_VERIFY_DONE. -/
def lpVerified (d : Dev) (p : Nat) : Dev :=
  let x := lpOf d p
  let e := lpVerify d p
  keepImage (.lp p) (b2n x.bank) 3 x.copy x.copyLen (x.st == .loading && (lpOf e p).st == .loaded) e

/-- LP_STAGE_DONE. -/
def lpStaged (d : Dev) (p : Nat) : Dev :=
  let x := lpOf d p
  let e := lpStageDone d p
  keepImage (.lp p) (b2n (!x.bank)) 3 x.copy x.copyLen (x.stage == .verifying && (lpOf e p).stage == .staged) e

/-- PL_VERIFY_DONE. -/
def plVerified (d : Dev) (s : Nat) : Dev :=
  let x := plOf d s
  let e := plVerify d s
  keepImage (.pl s) 0 5 x.copy x.copyLen (x.st == .loading && (plOf e s).st == .stopped) e

end Sys2Proof.Machine
end

