-- ==== Sys2Proof/Machine/BasePeriod.lean ====
section
/-! DEFINITION. BASE_PERIOD: one base period from t0 on (R25 to R27, R33, R34, R265 to R268, R283, Table 1-7). The state
between two commands is the end of a base period; the command runs the next one. -/

namespace Sys2Proof.Machine

/-! ### t0 -/

/-- RUN of a logic processor at t0 (R226, Table 8-10). -/
def lpRunEval (d : Dev) (p : Nat) : Dev :=
  let x := lpOf d p
  if x.st = .loaded ∧ runBit d (.lp p) = true ∧ held d = false then
    if plBindOk d p then lpEnter d p
    else err (wrBit d (lpBase p + BLK_CTRL) 0 false) (.lp p) 0x0605 (lpBase p + BLK_CTRL)
  else if x.st = .running ∧ runBit d (.lp p) = false then lpLeave d p
  else d

/-- Logic programs start, stop and change, and Pliale cycles begin. -/
def t0Blocks (d : Dev) : Dev :=
  let d := (tkeys d.lps).foldl lpCmds ((tkeys d.lps).foldl lpRunEval d)
  let d := (tkeys d.lps).foldl changePoint d
  (tkeys d.pls).foldl (fun d s => plTick (plCommit d s) s) d

/-- The field-region inputs are staged for C1. -/
def t0Inputs (env : BpEnv) (d : Dev) : Dev :=
  let d := owPulseEnd (owPulseDecide (owPulseStart (acRotations d)))
  let d := env.enc.foldl (fun d e => encCount d e.1 e.2) d
  (activeEncs d).foldl encStage (dioEntries (acEntries d))

/-- The t0 of BP bp d: starts, stops and changes of logic programs, Pliale cycles and commits, and the field-region inputs
staged for C1; the learning budgets begin anew with the second, and the step generators emit. -/
def t0Work (env : BpEnv) (d : Dev) : Dev :=
  let d := t0Inputs env (t0Blocks d)
  (activeStps d).foldl stpEmit (if bp d % 100000 = 0 then (cellsListing d 0x1D4).foldl budgetZero d else d)

/-! ### Compute window -/

/-- A range of cycles of every logic processor. -/
def lpsRun (limit : Nat) (d : Dev) : Dev := (tkeys d.lps).foldl (fun d p => lpRunTo p limit 4000 d) d

/-- Logic processors run and release their tasks. -/
def logicWork (d : Dev) : Dev :=
  let d := (tkeys d.lps).foldl lpReleases (lpsRun 1600 d)
  lpsRun 3200 d

/-- The axes' compute windows; travel counts in the wear ledger. -/
def axesWork (d : Dev) : Dev :=
  (activeAxes d).foldl (fun d a =>
    let p := posCmd (axOf d a)
    let e := axTick d a
    wearTravel e a (posCmd (axOf e a) - p).natAbs) d

/-- The loop and motion tiles. The quarantine record of a loop tile that overruns comes before the trip records of its cells (R127). -/
def tilesWork (tiles : List Nat) (d : Dev) : Dev :=
  let late := (tiles.filter (fun t => decide (t < 64) && !ltQuar d t)).eraseDups
  let d := late.foldl (fun d t => ltQuarMark d t 0x0281 0) d
  let d := late.foldl ltQuarCells (mtCycles (loopTick d))
  (tiles.filter (fun t => decide (64 ≤ t))).foldl tileOverrun d

/-- t0 + 2 us to t0 + 8 us. A lane's critical step is seen by the cells from the next BP on (R26). -/
def computeWork (env : BpEnv) (d : Dev) : Dev := env.lanes.foldl laneOverrun (laneTicks (tilesWork env.tiles (axesWork (logicWork d))))

/-! ### C2 -/

/-- The writes that wait for this C2: logic processors, lanes, safety configuration, variable windows (R66, R211, R213, R253). -/
def atC2 (w : Posted) : Bool :=
  match pageAt (w.addr % 2 ^ 28) with
  | some (p, _) => commitPage p
  | none => true

/-- A pair-ordered write at its C2: those of the configuration window follow there (R99, R268). -/
def orderedWrite (vt : Vault) (d : Dev) (w : Posted) : Dev :=
  match pageAt (w.addr % 2 ^ 28) with
  | some (p, _) => if windowPage p then { d with cfgq := d.cfgq ++ [w] } else applyPosted vt d w
  | none => applyPosted vt d w

/-- The batch of this BP: up to 128 writes in sequence order; TW_PO_SEQ shows the last (R268). -/
def batch (vt : Vault) (d : Dev) : Dev :=
  let ws := d.tw.queue.take 128
  if ws.isEmpty then d
  else
    let d := setTw d { d.tw with queue := d.tw.queue.drop 128 }
    let d := twSend d (.writes (bp d) (d.tw.seq - d.tw.queue.length - ws.length + 1) (ws.map (fun w => (w.addr, w.val))))
    let d := ws.foldl (orderedWrite vt) d
    wr64 d TW_PO_SEQ ((d.tw.seq - d.tw.queue.length) % 2 ^ 64)

/-- The batch that the authority has sent for this BP; missing, it is counted and nothing is applied (R267). -/
def partnerBatch (vt : Vault) (d : Dev) : Dev :=
  match writesOf d (bp d) with
  | none => forwardMiss d (bp d) 2
  | some (k, ws) =>
    let d := ws.foldl (fun d w => orderedWrite vt d ⟨w.1, w.2, 0⟩) d
    if ws.isEmpty then d else setTw (wr64 d TW_PO_SEQ ((k + ws.length - 1) % 2 ^ 64)) { d.tw with seq := k + ws.length - 1 }

/-- The pair's part of C2. -/
def pairWrites (vt : Vault) (d : Dev) : Dev :=
  if pairEn d = false ∨ d.power.phase ≠ .on then d
  else if authoritative d then batch vt d
  else if d.role = .standby ∨ d.tw.baseOk = true then partnerBatch vt d
  else d

/-- What acts before the commit: outputs are read back, triggers and deadlines are taken, and the writes that wait for this C2. -/
def c2Writes (vt : Vault) (env : BpEnv) (d : Dev) : Dev :=
  let d := (activeDios d).foldl (dioRead env) ((activeAos d).foldl (aoRead env) d)
  let d := pairWrites vt ((tkeys d.lps).foldl lpDeadlines (trigsTake d))
  let now := d.cfgq.filter atC2
  now.foldl (applyPosted vt) { d with cfgq := d.cfgq.filter (fun w => !atC2 w) }

/-- The commit: the lanes' arms, the cells' own, then the staged results and the host's writes; the first one after a start ends the
output hold (R308). -/
def c2Commit (d : Dev) : Dev :=
  let d := commit2 (forceStaged (loopCommit ((tkeys d.lanes).foldl commitArms d)))
  if d.power.firstC2 then d else holdEnd (setPow d { d.power with firstC2 := true })

/-- What reads at C2. -/
def c2Outputs (d : Dev) : Dev :=
  let d := (tkeys d.dios).foldl dioJudge d
  let d := dioScheds ((activeDios d).foldl dioStep ((activeAos d).foldl aoStep d))
  let d := (tkeys d.pls).foldl plCapture d
  traceSample (publish (wearValves ((activeStps d).foldl stpTake d)))

/-- C2 and what reads at it. -/
def c2Work (vt : Vault) (env : BpEnv) (d : Dev) : Dev := c2Outputs (c2Commit (c2Writes vt env d))

/-! ### Configuration window and end -/

/-- t0 + 8 us to t0 + 10 us. -/
def windowWork (vt : Vault) (d : Dev) : Dev :=
  let d := lpsRun 4000 d
  let d := (tkeys d.lps).foldl (fun d p => setLp d p { lpOf d p with at_ := (lpOf d p).at_ - 4000 }) d
  let ws := d.cfgq
  let d := ws.foldl (applyPosted vt) { d with cfgq := [] }
  acSettles ((boundCells d).foldl driftScan (cellsEval d))

/-- The parts of a base period between t0 and its end, apart from the time base. own: the module computes from its own inputs,
so that time runs on between them; else it replays a BP from forwarded ones. -/
def computeBp (vt : Vault) (env : BpEnv) (own : Bool) (d : Dev) : Dev :=
  let d := t0Work env d
  let d := if d.role = .standby ∨ own = false then useInputs d (bp d) else sendInputs d
  let d := computeWork env (commit1 d)
  let d := epochMark (c2Work vt env (if own then tbTicks d 1600 else d))
  windowWork vt (if own then tbTicks d 400 else d)

/-- The next BP begins. -/
def nextBp (d : Dev) : Dev := wr64 d BP_CNT ((bp d + 1) % 2 ^ 64)

/-- TT(n) is taken at t0 (R86). -/
def takeTT (d : Dev) : Dev := { d with tt := tbNs d, ttFrac := rdN d TB_FRAC }

/-- One BP computed from its frames: the safety cycle at c0, the base period, the safety status at its C2 (R283). -/
def replayBp (vt : Vault) (d : Dev) : Dev :=
  let d := replayFrames d (bp d)
  statusCommit (computeBp vt ⟨[], [], [], [], []⟩ false (safetyCycle d vt.serial 0 0 false))

/-- A SYNCING module computes every BP whose INPUT frame it holds, one after the other (R283, R284). -/
def catchUp (vt : Vault) : Nat → Dev → Dev
  | 0, d => d
  | k + 1, d =>
    if (inputOf d (bp d + 1)).isSome then
      catchUp vt k (dropFrames (replayBp vt (nextBp d)))
    else d

/-- A SYNCING module with its base that has won finishes its replay from the frames it holds (Table 10-2). -/
def replayRest (vt : Vault) (d : Dev) : Dev :=
  if pairEn d = true ∧ d.power.phase = .on ∧ d.role = .syncing ∧ d.tw.baseOk = true ∧ d.tw.won = true ∧ d.tw.hold = true ∧ d.tw.phase ≠ 5 then
    catchUp vt 40000 d
  else d

/-- BASE_INSTALLED: the state of boundary E as C2 of its BP left it, and what follows that C2 in the BP (R283, R284). -/
def baseJoined (vt : Vault) (d : Dev) (e : Nat) (s : Snap) : Dev :=
  let r := baseInstalled d e s
  if d.tw.baseOk = false ∧ r.tw.baseOk = true then windowWork vt { r with cfgq := [] } else r

/-- What the module's own clock does in every BP, whatever its role: trim, OPT_MS, KA_RTC (R30, R439), Tally's recovery. -/
def clockWork (d : Dev) : Dev :=
  let b := d.power.beat
  let d := tallyRecover (trimRamp (setPow d { d.power with beat := b + 1 }))
  let d := if (b + 1) % 100 = 0 then wr64 d PWR_OPT_MS ((optMs d + 1) % 2 ^ 64) else d
  wr64 d PWR_KA_RTC ((rd64 d PWR_KA_RTC + 65536 * (b + 1) / 100000 - 65536 * b / 100000) % 2 ^ 64)

/-- Base periods run. -/
def bpRuns (d : Dev) : Bool := clocked d

/-- A SYNCING module that holds no state of its own to compute from, and one that replays. -/
def bpWaits (d : Dev) : Bool := d.power.phase == .on && d.role == .syncing && !d.tw.baseOk && !d.tw.withdrawn
def bpReplays (d : Dev) : Bool := d.power.phase == .on && d.role == .syncing && d.tw.baseOk

/-- The start: what the module's own clock does, the steps that wait for t0, and TT. -/
def bpStart (d : Dev) : Dev := takeTT (tbAtT0 (clockWork (setTw d { d.tw with sent := [] })))

/-- The base period itself. -/
def bpBody (vt : Vault) (env : BpEnv) (d : Dev) : Dev :=
  if bpWaits d then tbTicks d 2000
  else if bpReplays d then catchUp vt 40000 (tbTicks d 2000)
  else computeBp vt env true (nextBp d)

/-- The end: frames of the past go, the beat and the time frame are sent, and a power failure takes its final boundary. -/
def bpEnd (d : Dev) : Dev :=
  let d := sendTime (sendBeat (holdoffExpired (dropFrames d)))
  if d.power.fail = .declared then finalBoundary d else d

/-- BASE_PERIOD. -/
def basePeriod (vt : Vault) (env : BpEnv) (d : Dev) : Dev :=
  if bpRuns d = false then d
  else
    let d := replayRest vt (bpStart d)
    bpEnd (bpBody vt env (roleStep d (bp d + 1)))

end Sys2Proof.Machine
end

