-- ==== Sys2Proof/Machine/Operands.lean ====
section
/-! DEFINITION. How a command's meaning is lifted to the machine: its operands are checked, and its effect is one on everything
but the queue of waiting commands. -/

namespace Sys2Proof.Machine

/-- An effect on everything but the vault and the queue. A command whose operands nothing spells faults (log entry 22). -/
def onDev (ok : Bool) (f : Vault → Dev → Dev) (s : State) : Host.Outcome State Fault Refusal :=
  if ok then .next { s with dev := f s.vault s.dev } else .fault .illFormed

/-- An effect that reaches the vault too: commits of the Daybook. -/
def onVault (ok : Bool) (f : Vault → Dev → Vault × Dev) (s : State) : Host.Outcome State Fault Refusal :=
  if ok then .next { s with vault := (f s.vault s.dev).1, dev := (f s.vault s.dev).2 } else .fault .illFormed

end Sys2Proof.Machine
end

