-- ==== Sys2Proof/Machine/FieldRegion.lean ====
section
/-! DEFINITION. The meanings of the commands of one family: analog acquisition and output, digital pins. -/

namespace Sys2Proof.Machine

/-- ADC_WINDOW_START (R145). A conversion slot starts a window on the next entry of the active sequence. -/
def execAdcWindowStart (k : Nat) (w0 : Nat) (s : State) : Host.Outcome State Fault Refusal :=
  onDev (decide (k < 16)) (fun _ d => adcWindow d k w0) s

/-- ADC_CONVERSION_DONE (R147). A slice delivers a corrected result word. -/
def execAdcConversionDone (k : Nat) (sample : Int) (ovr : Bool) (ok : Bool) (s : State) : Host.Outcome State Fault Refusal :=
  onDev (decide (k < 16)) (fun _ d => adcDone d k sample ovr ok) s

/-- ADC_CHANNEL_STARVED (R150). A channel without a result for 16 BP becomes invalid. -/
def execAdcChannelStarved (k : Nat) (n : Nat) (s : State) : Host.Outcome State Fault Refusal :=
  onDev (decide (k < 16) && decide (n < 16)) (fun _ d => adcStarved d k n) s

/-- SEQ_COMMIT (R146). AC_SEQ_COMMIT schedules the shadow sequence for the next wrap. -/
def execSeqCommit (k : Nat) (s : State) : Host.Outcome State Fault Refusal :=
  onDev (decide (k < 16)) (fun _ d => hostCmd d (.ac k) 0x10C 1 (fun d => seqCommit d k)) s

/-- RANGE_SETTLE_END (R143). The 50 µs invalid period after a range change ends. -/
def execRangeSettleEnd (k : Nat) (n : Nat) (s : State) : Host.Outcome State Fault Refusal :=
  onDev (decide (k < 16) && decide (n < 16)) (fun _ d => rangeSettled d k n) s

/-- CAL_ROTATION (R153). At a calibration boundary the spare takes the slot of the oldest active slice. -/
def execCalRotation (k : Nat) (s : State) : Host.Outcome State Fault Refusal :=
  onDev (decide (k < 16)) (fun _ d => calRotation d k) s

/-- SLICE_CAL_DONE (R153). A calibrating slice finishes its calibration and becomes SPARE. -/
def execSliceCalDone (k : Nat) (res : Option (Int × Int × Int)) (s : State) : Host.Outcome State Fault Refusal :=
  onDev (decide (k < 16)) (fun _ d => sliceCalDone d k res) s

/-- CAL_STORE_UE (R155). An uncorrectable error in the calibration store quarantines the core. -/
def execCalStoreUe (k : Nat) (s : State) : Host.Outcome State Fault Refusal :=
  onDev (decide (k < 16)) (fun _ d => calStoreUe d k) s

/-- REF_SETTLE (R156). The selected reference meets its settle condition and REF_SETTLED sets. -/
def execRefSettle (k : Nat) (s : State) : Host.Outcome State Fault Refusal :=
  onDev (decide (k < 16)) (fun _ d => refSettle d k) s

/-- REF_LOST (R156). The reference leaves its window and REF_SETTLED clears. -/
def execRefLost (k : Nat) (s : State) : Host.Outcome State Fault Refusal :=
  onDev (decide (k < 16)) (fun _ d => refLost d k) s

/-- OW_PULSE_START (R157). The shared open-wire pulse window begins at BP_CNT mod 10,000 = 0. -/
def execOwPulseStart (s : State) : Host.Outcome State Fault Refusal :=
  onDev (true) (fun _ d => owPulseStart d) s

/-- OW_PULSE_DECIDE (R157). At BP 100 of the window OPEN is decided for PULSE channels. -/
def execOwPulseDecide (s : State) : Host.Outcome State Fault Refusal :=
  onDev (true) (fun _ d => owPulseDecide d) s

/-- OW_PULSE_END (R157). Result withholding ends at BP 150 of the pulse grid. -/
def execOwPulseEnd (s : State) : Host.Outcome State Fault Refusal :=
  onDev (true) (fun _ d => owPulseEnd d) s

/-- AO_OTEMP (R163). An analog output overheats and enters FAULT. -/
def execAoOtemp (c : Nat) (s : State) : Host.Outcome State Fault Refusal :=
  onDev (decide (c < 64)) (fun _ d => aoOtemp d c) s

/-- AO_ILIM_FAULT (R163). An analog output current-limits for 100 consecutive BP and enters FAULT. -/
def execAoIlimFault (c : Nat) (s : State) : Host.Outcome State Fault Refusal :=
  onDev (decide (c < 64)) (fun _ d => aoIlimFault d c) s

/-- AO_READBACK_FAULT (R163). Readback deviates beyond TOL for TIME consecutive BP and the channel faults. -/
def execAoReadbackFault (c : Nat) (s : State) : Host.Outcome State Fault Refusal :=
  onDev (decide (c < 64)) (fun _ d => aoReadbackFault d c) s

/-- DIO_INPUT_EDGE (R167). An input level change holds for the filter time and is accepted and time-stamped. -/
def execDioInputEdge (n : Nat) (lvl : Bool) (ts : Nat) (s : State) : Host.Outcome State Fault Refusal :=
  onDev (decide (n < 128)) (fun _ d => dioEdge d n lvl ts) s

/-- DIO_SCH_PUSH (R169). DIO_SCH_CTRL PUSH queues a scheduled switching, judged late or refused. -/
def execDioSchPush (n : Nat) (lvl : Bool) (s : State) : Host.Outcome State Fault Refusal :=
  onDev (decide (n < 128)) (fun _ d => admitted d (.dio (n / 8)) (0x214 + 0x40 * (n % 8)) (w32 (1 + 2 * b2n lvl)) (fun d => dioPush d n lvl)) s

/-- DIO_SCH_FLUSH (R169). DIO_SCH_CTRL FLUSH empties the pin's switching queue. -/
def execDioSchFlush (n : Nat) (s : State) : Host.Outcome State Fault Refusal :=
  onDev (decide (n < 128)) (fun _ d => admitted d (.dio (n / 8)) (0x214 + 0x40 * (n % 8)) 4 (fun d => dioFlush d n)) s

/-- DIO_SCHED_SWITCH (R169). A queued switching executes when TB_NS reaches its instant. -/
def execDioSchedSwitch (n : Nat) (s : State) : Host.Outcome State Fault Refusal :=
  onDev (decide (n < 128)) (fun _ d => dioSched d n) s

/-- DIO_UNDERCURRENT (R168). An on output carries less than DIO_IMIN for 10 consecutive BP and UNDERCUR sets. -/
def execDioUndercurrent (n : Nat) (s : State) : Host.Outcome State Fault Refusal :=
  onDev (decide (n < 128)) (fun _ d => dioUndercurrent d n) s

/-- DIO_OTEMP (R170). An output switch enters thermal shutdown and the pin faults. -/
def execDioOtemp (n : Nat) (s : State) : Host.Outcome State Fault Refusal :=
  onDev (decide (n < 128)) (fun _ d => dioOtemp d n) s

/-- DIO_ILIM_FAULT (R170). An output current-limits for 100 consecutive BP and the pin faults. -/
def execDioIlimFault (n : Nat) (s : State) : Host.Outcome State Fault Refusal :=
  onDev (decide (n < 128)) (fun _ d => dioIlimFault d n) s

end Sys2Proof.Machine
end

