-- ==== Sys2Proof/Machine/HostLink.lean ====
section
/-! DEFINITION. The meanings of the commands of one family: host link, register pages, event router, clock and base period. -/

namespace Sys2Proof.Machine

/-- BASE_PERIOD (R25). Start of a base period at t0, driving the commits, compute window and configuration window of that BP. -/
def execBasePeriod (env : BpEnv) (s : State) : Host.Outcome State Fault Refusal :=
  onDev (true) (fun v d => basePeriod v env d) s

/-- SCRATCHPAD_UE (R96). An uncorrectable scratchpad error quarantines the tile with SCRATCH_UE. -/
def execScratchpadUe (p : Page) (off : Nat) (s : State) : Host.Outcome State Fault Refusal :=
  onDev (pageOk p) (fun _ d => scratchUe d p off) s

/-- SIG_WINDOW_WRITE (R21). Host or application-core write through the signal-table window. -/
def execSigWindowWrite (n : Nat) (val : W32) (s : State) : Host.Outcome State Fault Refusal :=
  onDev (decide (n < 32768)) (fun _ d => sigWrite d n val 0) s

/-- PLL_LOCK_LOSS (R31). Root PLL loses lock for more than 1 µs; outputs go safe and relock is attempted. -/
def execPllLockLoss (s : State) : Host.Outcome State Fault Refusal :=
  onDev (true) (fun _ d => pllLoss d) s

/-- PLL_RELOCK (R31). The root PLL relocks, and a warm reset follows. -/
def execPllRelock (us : Nat) (s : State) : Host.Outcome State Fault Refusal :=
  onDev (true) (fun _ d => pllEnd d us true) s

/-- PLL_RELOCK_TIMEOUT (R31). The 10 ms relock attempt expires, and a warm reset follows. -/
def execPllRelockTimeout (us : Nat) (s : State) : Host.Outcome State Fault Refusal :=
  onDev (true) (fun _ d => pllEnd d us false) s

/-- REGION_FAULT (R13). An uncorrectable region fault (crossbar parity, region clock loss, store ECC) occurs. -/
def execRegionFault (p : Page) (code : Nat) (addr : Nat) (s : State) : Host.Outcome State Fault Refusal :=
  onDev (pageOk p && decide (code < 65536) && decide (addr < 2 ^ 28)) (fun _ d => regionFault d p code addr) s

/-- CLK_TRIM_WRITE (R30). A trim request is clamped and ramped into the root PLL at no more than 1 ppm/s. -/
def execClkTrimWrite (val : W32) (s : State) : Host.Outcome State Fault Refusal :=
  onDev (true) (fun _ d => admitted d .clk 0x108 val (fun d => clkTrimWrite d val)) s

/-- FLR (R39). Function-level reset of the endpoint, MSI-X state and trace DMA, counted in DEV_FLR_CNT. -/
def execFlr (s : State) : Host.Outcome State Fault Refusal :=
  onDev (true) (fun _ d => flr d) s

/-- ENDPOINT_RESET (R39). PERST#, hot reset or link-down reset reaching only the endpoint, MSI-X state and trace DMA. -/
def execEndpointReset (s : State) : Host.Outcome State Fault Refusal :=
  onDev (true) (fun _ d => endpointReset d) s

/-- LINK_DOWN (R40). The host link leaves L0; vectors count as masked and trace DMA pauses. -/
def execLinkDown (s : State) : Host.Outcome State Fault Refusal :=
  onDev (true) (fun v d => linkDown v d) s

/-- LINK_UP (R40). The host link returns to L0 and vectors are no longer masked for the link. -/
def execLinkUp (rate : Nat) (width : Nat) (s : State) : Host.Outcome State Fault Refusal :=
  onDev (decide (1 ≤ rate) && decide (rate ≤ 5) && (width == 1 || width == 2 || width == 4)) (fun v d => linkUp v d rate width) s

/-- REGISTER_WRITE (R51). Write to a register that has no row of its own, checked for lock, BUSY, alignment and mapping. -/
def execRegisterWrite (who : Nat) (addr : Nat) (be : Nat) (val : W64) (s : State) : Host.Outcome State Fault Refusal :=
  onDev (decide (who < 9) && decide (addr < 2 ^ 28 + 2 ^ 32) && decide (be < 256)) (fun v d => hostWrite v d who addr be val) s

/-- WRITE_CROSSING_DONE (R51). A posted write finishes crossing into its block's domain and BUSY clears. -/
def execWriteCrossingDone (p : Page) (s : State) : Host.Outcome State Fault Refusal :=
  onDev (pageOk p) (fun v d => crossingDone v d p) s

/-- XDOM_TIMEOUT (R52). A cross-domain access is not answered within 2 µs; the read returns all ones or the posted write is dropped. -/
def execXdomTimeout (p : Page) (write : Bool) (s : State) : Host.Outcome State Fault Refusal :=
  onDev (pageOk p) (fun _ d => xdomTimeout d p write) s

/-- KEYLOCK_ENGAGE (R49). Writing 0x0000_A5C3 to KEYLOCK engages the page write lock. -/
def execKeylockEngage (p : Page) (s : State) : Host.Outcome State Fault Refusal :=
  onDev (pageOk p) (fun _ d => keylockRow d p 0xA5C3) s

/-- KEYLOCK_RELEASE (R49). Writing 0x0000_5A3C to KEYLOCK releases the page write lock. -/
def execKeylockRelease (p : Page) (s : State) : Host.Outcome State Fault Refusal :=
  onDev (pageOk p) (fun _ d => keylockRow d p 0x5A3C) s

/-- ACK_WRITE (R50). Writing a seen count into an _ACK field clears the condition that its counter drives. -/
def execAckWrite (addr : Nat) (val : W32) (s : State) : Host.Outcome State Fault Refusal :=
  onDev (decide (addr < 2 ^ 28)) (fun v d => ackRow v d addr val) s

/-- EVT_EN_WRITE (R56). Setting an event enable can make its source pending at once. -/
def execEvtEnWrite (p : Page) (val : W32) (s : State) : Host.Outcome State Fault Refusal :=
  onDev (pageOk p) (fun _ d => evtEnRow d p val) s

/-- VECTOR_EVALUATION (R58). Each vector's state machine is evaluated against assertion and masking. -/
def execVectorEvaluation (s : State) : Host.Outcome State Fault Refusal :=
  onDev (true) (fun v d => vecEval v d) s

/-- MSIX_MASK_WRITE (R58). The host changes an MSI-X vector or function mask, enable or bus master enable. -/
def execMsixMaskWrite (kind : Nat) (vec : Nat) (on : Bool) (s : State) : Host.Outcome State Fault Refusal :=
  onDev (decide (kind < 4) && decide (vec < 256)) (fun v d => msixSet v d kind vec on) s

/-- VEC_DONE (R58). Writing a vector into DEV_VEC_DONE ends its SENT state and may send a fresh message. -/
def execVecDone (val : W32) (s : State) : Host.Outcome State Fault Refusal :=
  onDev (true) (fun v d => admitted d .evr 0x100 val (fun d => vecDone v d val)) s

/-- SWE_RAISE (R60). Writing k to DEV_SWE_RAISE increments doorbell k's count. -/
def execSweRaise (val : W32) (s : State) : Host.Outcome State Fault Refusal :=
  onDev (true) (fun _ d => admitted d .evr 0x104 val (fun d => sweRaise d val)) s

/-- ID_RING_WRITE (R378). A write of ID_RING updates both Daybook headers and writes a RING_SET record. -/
def execIdRingWrite (val : W32) (s : State) : Host.Outcome State Fault Refusal :=
  onDev (true) (fun _ d => admitted d .id 0x110 val (fun d => idRing d val)) s

/-- BLK_CTRL_RUN (R46). Setting or clearing a block's RUN bit starts or stops the block. -/
def execBlkCtrlRun (p : Page) (on : Bool) (s : State) : Host.Outcome State Fault Refusal :=
  onDev (pageOk p) (fun _ d => ctrlRow d p 0 on) s

/-- BLK_CTRL_SAFE_REQ (R46). Setting or clearing SAFE_REQ sends a block's outputs to their safe values or releases them. -/
def execBlkCtrlSafeReq (p : Page) (on : Bool) (s : State) : Host.Outcome State Fault Refusal :=
  onDev (pageOk p) (fun _ d => ctrlRow d p 1 on) s

/-- D3HOT_TRANSITION (R38). The host moves the function between D0 and D3hot, disabling or enabling BAR access while control runs on. -/
def execD3hotTransition (on : Bool) (s : State) : Host.Outcome State Fault Refusal :=
  onDev (true) (fun _ d => d3hot d on) s

end Sys2Proof.Machine
end

