-- ==== Sys2Proof/Machine/LogicCode.lean ====
section
/-! DEFINITION. The meanings of the commands of one family: the instructions of a logic program. -/

namespace Sys2Proof.Machine

/-- NOP (R220). Logic instruction NOP. -/
def execLgNop (p : Nat) (s : State) : Host.Outcome State Fault Refusal :=
  onDev (decide (p < 4)) (fun _ d => lpInsn 0x00 insnNOP d p) s

/-- LD (R220). Logic instruction LD loads the logic bit. -/
def execLgLd (p : Nat) (s : State) : Host.Outcome State Fault Refusal :=
  onDev (decide (p < 4)) (fun _ d => lpInsn 0x01 insnLD d p) s

/-- LDN (R220). Logic instruction LDN loads the inverted operand. -/
def execLgLdn (p : Nat) (s : State) : Host.Outcome State Fault Refusal :=
  onDev (decide (p < 4)) (fun _ d => lpInsn 0x02 insnLDN d p) s

/-- AND (R220). Logic instruction AND. -/
def execLgAnd (p : Nat) (s : State) : Host.Outcome State Fault Refusal :=
  onDev (decide (p < 4)) (fun _ d => lpInsn 0x03 insnAND d p) s

/-- ANDN (R220). Logic instruction ANDN. -/
def execLgAndn (p : Nat) (s : State) : Host.Outcome State Fault Refusal :=
  onDev (decide (p < 4)) (fun _ d => lpInsn 0x04 insnANDN d p) s

/-- OR (R220). Logic instruction OR. -/
def execLgOr (p : Nat) (s : State) : Host.Outcome State Fault Refusal :=
  onDev (decide (p < 4)) (fun _ d => lpInsn 0x05 insnOR d p) s

/-- ORN (R220). Logic instruction ORN. -/
def execLgOrn (p : Nat) (s : State) : Host.Outcome State Fault Refusal :=
  onDev (decide (p < 4)) (fun _ d => lpInsn 0x06 insnORN d p) s

/-- XOR (R220). Logic instruction XOR. -/
def execLgXor (p : Nat) (s : State) : Host.Outcome State Fault Refusal :=
  onDev (decide (p < 4)) (fun _ d => lpInsn 0x07 insnXOR d p) s

/-- ST (R220). Logic instruction ST stores the logic bit. -/
def execLgSt (p : Nat) (s : State) : Host.Outcome State Fault Refusal :=
  onDev (decide (p < 4)) (fun _ d => lpInsn 0x08 insnST d p) s

/-- STN (R220). Logic instruction STN stores the inverted logic bit. -/
def execLgStn (p : Nat) (s : State) : Host.Outcome State Fault Refusal :=
  onDev (decide (p < 4)) (fun _ d => lpInsn 0x09 insnSTN d p) s

/-- SET (R220). Logic instruction SET sets the operand when LB is 1. -/
def execLgSet (p : Nat) (s : State) : Host.Outcome State Fault Refusal :=
  onDev (decide (p < 4)) (fun _ d => lpInsn 0x0A insnSET d p) s

/-- RST (R220). Logic instruction RST clears the operand when LB is 1. -/
def execLgRst (p : Nat) (s : State) : Host.Outcome State Fault Refusal :=
  onDev (decide (p < 4)) (fun _ d => lpInsn 0x0B insnRST d p) s

/-- ANDP (R221). Logic instruction ANDP pushes LB with AND. -/
def execLgAndp (p : Nat) (s : State) : Host.Outcome State Fault Refusal :=
  onDev (decide (p < 4)) (fun _ d => lpInsn 0x0C insnANDP d p) s

/-- ORP (R221). Logic instruction ORP pushes LB with OR. -/
def execLgOrp (p : Nat) (s : State) : Host.Outcome State Fault Refusal :=
  onDev (decide (p < 4)) (fun _ d => lpInsn 0x0D insnORP d p) s

/-- XORP (R221). Logic instruction XORP pushes LB with XOR. -/
def execLgXorp (p : Nat) (s : State) : Host.Outcome State Fault Refusal :=
  onDev (decide (p < 4)) (fun _ d => lpInsn 0x0E insnXORP d p) s

/-- POP (R221). Logic instruction POP joins the saved bit with LB. -/
def execLgPop (p : Nat) (s : State) : Host.Outcome State Fault Refusal :=
  onDev (decide (p < 4)) (fun _ d => lpInsn 0x0F insnPOP d p) s

/-- NOT (R220). Logic instruction NOT inverts LB. -/
def execLgNot (p : Nat) (s : State) : Host.Outcome State Fault Refusal :=
  onDev (decide (p < 4)) (fun _ d => lpInsn 0x10 insnNOT d p) s

/-- RED (R225). Logic instruction RED detects a rising edge. -/
def execLgRed (p : Nat) (s : State) : Host.Outcome State Fault Refusal :=
  onDev (decide (p < 4)) (fun _ d => lpInsn 0x11 insnRED d p) s

/-- FED (R225). Logic instruction FED detects a falling edge. -/
def execLgFed (p : Nat) (s : State) : Host.Outcome State Fault Refusal :=
  onDev (decide (p < 4)) (fun _ d => lpInsn 0x12 insnFED d p) s

/-- TON (R223). Logic instruction TON runs an on-delay timer. -/
def execLgTon (p : Nat) (s : State) : Host.Outcome State Fault Refusal :=
  onDev (decide (p < 4)) (fun _ d => lpInsn 0x13 insnTON d p) s

/-- TOF (R223). Logic instruction TOF runs an off-delay timer. -/
def execLgTof (p : Nat) (s : State) : Host.Outcome State Fault Refusal :=
  onDev (decide (p < 4)) (fun _ d => lpInsn 0x14 insnTOF d p) s

/-- TP (R223). Logic instruction TP runs a pulse timer. -/
def execLgTp (p : Nat) (s : State) : Host.Outcome State Fault Refusal :=
  onDev (decide (p < 4)) (fun _ d => lpInsn 0x15 insnTP d p) s

/-- CTU (R224). Logic instruction CTU counts up. -/
def execLgCtu (p : Nat) (s : State) : Host.Outcome State Fault Refusal :=
  onDev (decide (p < 4)) (fun _ d => lpInsn 0x16 insnCTU d p) s

/-- CTD (R224). Logic instruction CTD counts down. -/
def execLgCtd (p : Nat) (s : State) : Host.Outcome State Fault Refusal :=
  onDev (decide (p < 4)) (fun _ d => lpInsn 0x17 insnCTD d p) s

/-- CRS (R220). Logic instruction CRS resets a counter. -/
def execLgCrs (p : Nat) (s : State) : Host.Outcome State Fault Refusal :=
  onDev (decide (p < 4)) (fun _ d => lpInsn 0x18 insnCRS d p) s

/-- CLD (R220). Logic instruction CLD loads a counter with PV. -/
def execLgCld (p : Nat) (s : State) : Host.Outcome State Fault Refusal :=
  onDev (decide (p < 4)) (fun _ d => lpInsn 0x19 insnCLD d p) s

/-- LPT (R220). Logic instruction LPT loads a timer preset from ACC. -/
def execLgLpt (p : Nat) (s : State) : Host.Outcome State Fault Refusal :=
  onDev (decide (p < 4)) (fun _ d => lpInsn 0x1A insnLPT d p) s

/-- LPV (R220). Logic instruction LPV loads a counter preset from ACC. -/
def execLgLpv (p : Nat) (s : State) : Host.Outcome State Fault Refusal :=
  onDev (decide (p < 4)) (fun _ d => lpInsn 0x1B insnLPV d p) s

/-- LDW (R220). Logic instruction LDW loads ACC. -/
def execLgLdw (p : Nat) (s : State) : Host.Outcome State Fault Refusal :=
  onDev (decide (p < 4)) (fun _ d => lpInsn 0x20 insnLDW d p) s

/-- STW (R220). Logic instruction STW stores ACC. -/
def execLgStw (p : Nat) (s : State) : Host.Outcome State Fault Refusal :=
  onDev (decide (p < 4)) (fun _ d => lpInsn 0x21 insnSTW d p) s

/-- STWC (R220). Logic instruction STWC stores ACC when LB is 1. -/
def execLgStwc (p : Nat) (s : State) : Host.Outcome State Fault Refusal :=
  onDev (decide (p < 4)) (fun _ d => lpInsn 0x22 insnSTWC d p) s

/-- ADD (R220). Logic instruction ADD. -/
def execLgAdd (p : Nat) (s : State) : Host.Outcome State Fault Refusal :=
  onDev (decide (p < 4)) (fun _ d => lpInsn 0x23 insnADD d p) s

/-- SUB (R220). Logic instruction SUB. -/
def execLgSub (p : Nat) (s : State) : Host.Outcome State Fault Refusal :=
  onDev (decide (p < 4)) (fun _ d => lpInsn 0x24 insnSUB d p) s

/-- MUL (R220). Logic instruction MUL with saturation. -/
def execLgMul (p : Nat) (s : State) : Host.Outcome State Fault Refusal :=
  onDev (decide (p < 4)) (fun _ d => lpInsn 0x25 insnMUL d p) s

/-- DIV (R220). Logic instruction DIV with division-by-zero handling. -/
def execLgDiv (p : Nat) (s : State) : Host.Outcome State Fault Refusal :=
  onDev (decide (p < 4)) (fun _ d => lpInsn 0x26 insnDIV d p) s

/-- ANDW (R220). Logic instruction ANDW. -/
def execLgAndw (p : Nat) (s : State) : Host.Outcome State Fault Refusal :=
  onDev (decide (p < 4)) (fun _ d => lpInsn 0x27 insnANDW d p) s

/-- ORW (R220). Logic instruction ORW. -/
def execLgOrw (p : Nat) (s : State) : Host.Outcome State Fault Refusal :=
  onDev (decide (p < 4)) (fun _ d => lpInsn 0x28 insnORW d p) s

/-- XORW (R220). Logic instruction XORW. -/
def execLgXorw (p : Nat) (s : State) : Host.Outcome State Fault Refusal :=
  onDev (decide (p < 4)) (fun _ d => lpInsn 0x29 insnXORW d p) s

/-- SHL (R220). Logic instruction SHL. -/
def execLgShl (p : Nat) (s : State) : Host.Outcome State Fault Refusal :=
  onDev (decide (p < 4)) (fun _ d => lpInsn 0x2A insnSHL d p) s

/-- SHR (R220). Logic instruction SHR, arithmetic. -/
def execLgShr (p : Nat) (s : State) : Host.Outcome State Fault Refusal :=
  onDev (decide (p < 4)) (fun _ d => lpInsn 0x2B insnSHR d p) s

/-- CEQ (R220). Logic instruction CEQ compares for equality. -/
def execLgCeq (p : Nat) (s : State) : Host.Outcome State Fault Refusal :=
  onDev (decide (p < 4)) (fun _ d => lpInsn 0x2C insnCEQ d p) s

/-- CGT (R220). Logic instruction CGT compares signed greater. -/
def execLgCgt (p : Nat) (s : State) : Host.Outcome State Fault Refusal :=
  onDev (decide (p < 4)) (fun _ d => lpInsn 0x2D insnCGT d p) s

/-- CLT (R220). Logic instruction CLT compares signed less. -/
def execLgClt (p : Nat) (s : State) : Host.Outcome State Fault Refusal :=
  onDev (decide (p < 4)) (fun _ d => lpInsn 0x2E insnCLT d p) s

/-- LDX (R220). Logic instruction LDX loads the index register. -/
def execLgLdx (p : Nat) (s : State) : Host.Outcome State Fault Refusal :=
  onDev (decide (p < 4)) (fun _ d => lpInsn 0x2F insnLDX d p) s

/-- JMP (R220). Logic instruction JMP jumps within the bank. -/
def execLgJmp (p : Nat) (s : State) : Host.Outcome State Fault Refusal :=
  onDev (decide (p < 4)) (fun _ d => lpInsn 0x38 insnJMP d p) s

/-- JC (R220). Logic instruction JC jumps if LB is 1. -/
def execLgJc (p : Nat) (s : State) : Host.Outcome State Fault Refusal :=
  onDev (decide (p < 4)) (fun _ d => lpInsn 0x39 insnJC d p) s

/-- JNC (R220). Logic instruction JNC jumps if LB is 0. -/
def execLgJnc (p : Nat) (s : State) : Host.Outcome State Fault Refusal :=
  onDev (decide (p < 4)) (fun _ d => lpInsn 0x3A insnJNC d p) s

/-- TRIG (R216). Logic instruction TRIG triggers an event task when LB is 1. -/
def execLgTrig (p : Nat) (s : State) : Host.Outcome State Fault Refusal :=
  onDev (decide (p < 4)) (fun _ d => lpInsn 0x3B insnTRIG d p) s

/-- END (R220). Logic instruction END ends the instance. -/
def execLgEnd (p : Nat) (s : State) : Host.Outcome State Fault Refusal :=
  onDev (decide (p < 4)) (fun _ d => lpInsn 0x3C insnEND d p) s

end Sys2Proof.Machine
end

