-- ==== Sys2Proof/Machine/LogicTasks.lean ====
section
/-! DEFINITION. The meanings of the commands of one family: logic processors, their loads, forces and tasks. -/

namespace Sys2Proof.Machine

/-- LP_NOP (R211). Logic processor NOP command. -/
def execLpNop (p : Nat) (s : State) : Host.Outcome State Fault Refusal :=
  onDev (decide (p < 4)) (fun _ d => hostCmd d (.lp p) 0x100 0 (fun d => d)) s

/-- LP_LOAD (R230). LOAD command verifies a logic image into the active bank. -/
def execLpLoad (p : Nat) (s : State) : Host.Outcome State Fault Refusal :=
  onDev (decide (p < 4)) (fun _ d => hostCmd d (.lp p) 0x100 1 (fun d => lpLoad d p)) s

/-- LP_VERIFY_DONE (R230). Logic image verification ends with LOADED or a failure. -/
def execLpVerifyDone (p : Nat) (s : State) : Host.Outcome State Fault Refusal :=
  onDev (decide (p < 4)) (fun _ d => lpVerified d p) s

/-- LP_UNLOAD (R230). UNLOAD command releases claims and empties the force table. -/
def execLpUnload (p : Nat) (s : State) : Host.Outcome State Fault Refusal :=
  onDev (decide (p < 4)) (fun _ d => hostCmd d (.lp p) 0x100 2 (fun d => lpUnload d p)) s

/-- LP_STAGE (R231). STAGE command verifies an image into the inactive bank. -/
def execLpStage (p : Nat) (s : State) : Host.Outcome State Fault Refusal :=
  onDev (decide (p < 4)) (fun _ d => hostCmd d (.lp p) 0x100 3 (fun d => lpStage d p)) s

/-- LP_STAGE_DONE (R231). Staging verification ends with STAGED or a failure. -/
def execLpStageDone (p : Nat) (s : State) : Host.Outcome State Fault Refusal :=
  onDev (decide (p < 4)) (fun _ d => lpStaged d p) s

/-- LP_UNSTAGE (R231). UNSTAGE command discards a staged bank. -/
def execLpUnstage (p : Nat) (s : State) : Host.Outcome State Fault Refusal :=
  onDev (decide (p < 4)) (fun _ d => hostCmd d (.lp p) 0x100 4 (fun d => lpUnstage d p)) s

/-- LP_CHANGE (R232). CHANGE command plans an on-line change point. -/
def execLpChange (p : Nat) (drop : Bool) (s : State) : Host.Outcome State Fault Refusal :=
  onDev (decide (p < 4)) (fun _ d => hostCmd d (.lp p) 0x100 (w32 (5 + 256 * b2n drop)) (fun d => lpChange d p)) s

/-- LP_CANCEL (R231). CANCEL command returns a pending change to STAGED. -/
def execLpCancel (p : Nat) (s : State) : Host.Outcome State Fault Refusal :=
  onDev (decide (p < 4)) (fun _ d => hostCmd d (.lp p) 0x100 6 (fun d => lpCancel d p)) s

/-- LP_TRIG (R216). TRIG command triggers event tasks named in LP_EVT_TRIG. -/
def execLpTrig (p : Nat) (s : State) : Host.Outcome State Fault Refusal :=
  onDev (decide (p < 4)) (fun _ d => hostCmd d (.lp p) 0x100 7 (fun d => lpTrig d p)) s

/-- CHANGE_POINT (R233). At the change point the forces and claims are checked and banks swap. -/
def execChangePoint (p : Nat) (s : State) : Host.Outcome State Fault Refusal :=
  onDev (decide (p < 4)) (fun _ d => changePoint d p) s

/-- FORCE_SET (R229). Force command SET holds a symbol at a value. -/
def execForceSet (p : Nat) (s : State) : Host.Outcome State Fault Refusal :=
  onDev (decide (p < 4)) (fun _ d => hostCmd d (.lp p) 0x144 1 (fun d => forceSet d p)) s

/-- FORCE_REMOVE (R229). Force command REMOVE removes a force. -/
def execForceRemove (p : Nat) (s : State) : Host.Outcome State Fault Refusal :=
  onDev (decide (p < 4)) (fun _ d => hostCmd d (.lp p) 0x144 2 (fun d => forceRemove d p)) s

/-- FORCE_CLEAR_ALL (R229). Force command CLEAR_ALL empties the force table. -/
def execForceClearAll (p : Nat) (s : State) : Host.Outcome State Fault Refusal :=
  onDev (decide (p < 4)) (fun _ d => hostCmd d (.lp p) 0x144 3 (fun d => forceClearAll d p)) s

/-- TASK_RELEASE (R215). A cyclic or pending event task is released and its input image copied. -/
def execTaskRelease (p : Nat) (k : Nat) (s : State) : Host.Outcome State Fault Refusal :=
  onDev (decide (p < 4) && decide (k < 16)) (fun _ d => taskRelease d p k) s

/-- TASK_DEADLINE (R215). At the deadline C2 the instance's outputs commit together. -/
def execTaskDeadline (p : Nat) (k : Nat) (s : State) : Host.Outcome State Fault Refusal :=
  onDev (decide (p < 4) && decide (k < 16)) (fun _ d => taskDeadline d p k) s

/-- LP_VAR_WRITE (R213). A pair-ordered write through the variable window takes effect between instructions at C2. -/
def execLpVarWrite (p : Nat) (off : Nat) (val : W32) (s : State) : Host.Outcome State Fault Refusal :=
  onDev (decide (p < 4) && decide (off < 0x400000) && decide (off % 4 = 0)) (fun _ d => varRow d p off val) s

/-- LP_MEMORY_UE (R230). An uncorrectable error in program, data or instance memory quarantines the processor. -/
def execLpMemoryUe (p : Nat) (off : Nat) (s : State) : Host.Outcome State Fault Refusal :=
  onDev (decide (p < 4)) (fun _ d => lpMemoryUe d p off) s

end Sys2Proof.Machine
end

