-- ==== Sys2Proof/Machine/LoopEngine.lean ====
section
/-! DEFINITION. The meanings of the commands of one family: loop engine and loop supervision. -/

namespace Sys2Proof.Machine

/-- LT_GRP_START (R95). Loop tile group command START sets RUN of every masked cell. -/
def execLtGrpStart (t : Nat) (s : State) : Host.Outcome State Fault Refusal :=
  onDev (decide (t < 64)) (fun _ d => hostCmd d (.lt t) 0x120 1 (fun d => ltGrpStart d t)) s

/-- LT_GRP_STOP (R95). Loop tile group command STOP clears RUN of every masked cell. -/
def execLtGrpStop (t : Nat) (s : State) : Host.Outcome State Fault Refusal :=
  onDev (decide (t < 64)) (fun _ d => hostCmd d (.lt t) 0x120 2 (fun d => ltGrpStop d t)) s

/-- COEF_WRITE (R98). A coefficient window write goes to the set named by LC_CSEL, subject to running and frozen rules. -/
def execCoefWrite (g : Nat) (sec : Nat) (r : Nat) (val : W32) (s : State) : Host.Outcome State Fault Refusal :=
  onDev (decide (g < 2048) && decide (sec < 8) && decide (r < 8)) (fun _ d => admitted d (.lc g) (0x200 + 0x20 * sec + 4 * r) val (fun d => coefWrite d g (fld (rd d (LC_CSEL g)) 1 0) sec r val)) s

/-- LOOP_ROUTE_WRITE (R100). A write of LC_OUT_DST or LC_PUB claims or releases output entries. -/
def execLoopRouteWrite (g : Nat) (pub : Bool) (val : W32) (s : State) : Host.Outcome State Fault Refusal :=
  onDev (decide (g < 2048)) (fun _ d => admitted d (.lc g) (if pub then LC_PUB g - lcBase g else LC_OUT_DST g - lcBase g) val (fun d => if pub then lcPubWrite d g val else lcOutDstWrite d g val)) s

/-- SUPERVISION_TRIP (R126). The supervisor timer reaches LC_SUP_TIME and the cell faults with FE_TRIP or PLAUS_TRIP. -/
def execSupervisionTrip (g : Nat) (s : State) : Host.Outcome State Fault Refusal :=
  onDev (decide (g < 2048)) (fun _ d => supTripEvent d g) s

/-- LEARN_BUDGET_RESET (R136). BUD_USED returns to 0 at each BP whose BP_CNT mod 100,000 is 0. -/
def execLearnBudgetReset (g : Nat) (s : State) : Host.Outcome State Fault Refusal :=
  onDev (decide (g < 2048)) (fun _ d => budgetReset d g) s

/-- DRIFT_SCAN_END (R138). A 768-entry drift scan ends and LC_DRIFT_MAX is updated, with a record when DRIFT sets. -/
def execDriftScanEnd (g : Nat) (s : State) : Host.Outcome State Fault Refusal :=
  onDev (decide (g < 2048)) (fun _ d => driftScanEnd d g) s

/-- RESET_LIVE (R139). LC_COMP_CMD RESET_LIVE copies commissioned tables to live tables. -/
def execResetLive (g : Nat) (s : State) : Host.Outcome State Fault Refusal :=
  onDev (decide (g < 2048)) (fun _ d => hostCmd d (.lc g) 0x1EC 1 (fun d => resetLive d g)) s

/-- ADOPT (R139). LC_COMP_CMD ADOPT copies live tables to commissioned tables. -/
def execAdopt (g : Nat) (s : State) : Host.Outcome State Fault Refusal :=
  onDev (decide (g < 2048)) (fun _ d => hostCmd d (.lc g) 0x1EC 2 (fun d => adopt d g)) s

/-- COMP_BIND_WRITE (R129). A write of LC_COMP_CFG binds or releases a table slot, refused if bound elsewhere. -/
def execCompBindWrite (g : Nat) (val : W32) (s : State) : Host.Outcome State Fault Refusal :=
  onDev (decide (g < 2048)) (fun _ d => admitted d (.lc g) 0x1A8 val (fun d => compBindWrite d g val)) s

/-- COMP_SLOT_WRITE (R130). A write to a table-slot word, refused while its bound cell is not stopped. -/
def execCompSlotWrite (t : Nat) (off : Nat) (val : W32) (s : State) : Host.Outcome State Fault Refusal :=
  onDev (decide (t < 64) && decide (0x9000 ≤ off) && decide (off < 0xF000) && decide (off % 4 = 0)) (fun _ d => admitted d (.lt t) off val (fun d => compSlotWrite d t off val)) s

/-- SCRATCHPAD_CE (R95). A corrected ECC error in a loop or motion tile scratchpad or in logic processor memory is counted in LT_ECC_CNT, MT_ECC_CNT or LP_ECC_CNT. -/
def execScratchpadCe (p : Page) (s : State) : Host.Outcome State Fault Refusal :=
  onDev (pageOk p) (fun _ d => scratchCe d p) s

end Sys2Proof.Machine
end

