-- ==== Sys2Proof/Machine/MessageBus.lean ====
section
/-! DEFINITION. The meanings of the commands of one family: message bus channels. -/

namespace Sys2Proof.Machine

/-- CX_NOP (R344). CAN channel command NOP. -/
def execCxNop (x : Nat) (s : State) : Host.Outcome State Fault Refusal :=
  onDev (decide (x < 8)) (fun _ d => hostCmd d (.cx x) 0x10C 0 cxNop) s

/-- CX_START (R344). Channel command START checks configuration and enters INTEGRATING. -/
def execCxStart (x : Nat) (s : State) : Host.Outcome State Fault Refusal :=
  onDev (decide (x < 8)) (fun _ d => hostCmd d (.cx x) 0x10C 1 (fun d => cxStart d x)) s

/-- CX_STOP (R344). Channel command STOP returns the channel to STOPPED. -/
def execCxStop (x : Nat) (s : State) : Host.Outcome State Fault Refusal :=
  onDev (decide (x < 8)) (fun _ d => hostCmd d (.cx x) 0x10C 2 (fun d => cxStop d x)) s

/-- CX_RECOVER (R344). Channel command RECOVER starts bus-off recovery. -/
def execCxRecover (x : Nat) (s : State) : Host.Outcome State Fault Refusal :=
  onDev (decide (x < 8)) (fun _ d => hostCmd d (.cx x) 0x10C 3 (fun d => cxRecover d x)) s

/-- CX_FLUSH (R347). Channel command FLUSH completes outstanding requests of a queue with FLUSHED. -/
def execCxFlush (x : Nat) (q : Nat) (s : State) : Host.Outcome State Fault Refusal :=
  onDev (decide (x < 8) && decide (q < 4)) (fun _ d => hostCmd d (.cx x) 0x10C (w32 (4 + 256 * q)) (fun d => cxFlush d x q)) s

/-- CX_TX_POST (R346). Writing CX_TQq_POST posts transmit requests. -/
def execCxTxPost (x : Nat) (q : Nat) (val : W32) (s : State) : Host.Outcome State Fault Refusal :=
  onDev (decide (x < 8) && decide (q < 4)) (fun _ d => admitted d (.cx x) (0x148 + 32 * q) val (fun d => cxPost d x q val)) s

/-- CX_TX_START (R347). With the bus idle the channel starts the head request of the highest-priority queue. -/
def execCxTxStart (x : Nat) (s : State) : Host.Outcome State Fault Refusal :=
  onDev (decide (x < 8)) (fun _ d => onBus (fun d => cxTxStart d x) d) s

/-- CX_TX_COMPLETE (R347). A transmit request completes with one code, STATUS and STAMP written. -/
def execCxTxComplete (x : Nat) (code : Nat) (s : State) : Host.Outcome State Fault Refusal :=
  onDev (decide (x < 8) && decide (code < 8)) (fun _ d => onBus (fun d => cxTxComplete d x code) d) s

/-- CX_RX_FRAME (R350). A correct frame is received, filtered and stored. -/
def execCxRxFrame (x : Nat) (fr : CanFrame) (s : State) : Host.Outcome State Fault Refusal :=
  onDev (decide (x < 8)) (fun _ d => onBus (fun d => cxRxFrame d x fr) d) s

/-- CX_BUS_ERROR (R350). A frame is received with an error, raising REC. -/
def execCxBusError (x : Nat) (eight : Bool) (s : State) : Host.Outcome State Fault Refusal :=
  onDev (decide (x < 8)) (fun _ d => onBus (fun d => cxBusError d x eight) d) s

/-- CX_RQ_ACK (R351). Writing CX_RQr_ACK releases receive entries. -/
def execCxRqAck (x : Nat) (r : Nat) (val : W32) (s : State) : Host.Outcome State Fault Refusal :=
  onDev (decide (x < 8) && decide (r < 4)) (fun _ d => admitted d (.cx x) (0x1CC + 32 * r) val (fun d => cxRqAck d x r val)) s

/-- CX_INTEGRATED (R344). Eleven recessive bits end INTEGRATING. -/
def execCxIntegrated (x : Nat) (s : State) : Host.Outcome State Fault Refusal :=
  onDev (decide (x < 8)) (fun _ d => onBus (fun d => cxIntegrated d x) d) s

/-- CX_RECOVERED (R344). 128 sequences of 11 recessive bits end RECOVERING. -/
def execCxRecovered (x : Nat) (s : State) : Host.Outcome State Fault Refusal :=
  onDev (decide (x < 8)) (fun _ d => onBus (fun d => cxRecovered d x) d) s

end Sys2Proof.Machine
end

