-- ==== Sys2Proof/Machine/MotionControl.lean ====
section
/-! DEFINITION. The meanings of the commands of one family: axes, motion tiles, encoders. -/

namespace Sys2Proof.Machine

/-- AX_NOP (R180). Axis NOP command. -/
def execAxNop (a : Nat) (s : State) : Host.Outcome State Fault Refusal :=
  onDev (decide (a < 64)) (fun _ d => hostCmd d (.ax a) 0x100 0 (fun d => d)) s

/-- AX_MOVE_ABS (R183). Axis command MOVE_ABS plans a move to AX_TGT. -/
def execAxMoveAbs (a : Nat) (s : State) : Host.Outcome State Fault Refusal :=
  onDev (decide (a < 64)) (fun _ d => hostCmd d (.ax a) 0x100 1 (fun d => axMoveAbs d a)) s

/-- AX_MOVE_REL (R183). Axis command MOVE_REL plans a move by AX_TGT. -/
def execAxMoveRel (a : Nat) (s : State) : Host.Outcome State Fault Refusal :=
  onDev (decide (a < 64)) (fun _ d => hostCmd d (.ax a) 0x100 2 (fun d => axMoveRel d a)) s

/-- AX_UPDATE (R184). Axis command UPDATE replans the present move with present limits and target. -/
def execAxUpdate (a : Nat) (s : State) : Host.Outcome State Fault Refusal :=
  onDev (decide (a < 64)) (fun _ d => hostCmd d (.ax a) 0x100 3 (fun d => axUpdate d a)) s

/-- AX_JOG_POS (R187). Axis command JOG_POS moves positive at AX_VMAX until stopped. -/
def execAxJogPos (a : Nat) (s : State) : Host.Outcome State Fault Refusal :=
  onDev (decide (a < 64)) (fun _ d => hostCmd d (.ax a) 0x100 4 (fun d => axJog d a false)) s

/-- AX_JOG_NEG (R187). Axis command JOG_NEG moves negative at AX_VMAX until stopped. -/
def execAxJogNeg (a : Nat) (s : State) : Host.Outcome State Fault Refusal :=
  onDev (decide (a < 64)) (fun _ d => hostCmd d (.ax a) 0x100 5 (fun d => axJog d a true)) s

/-- AX_STOP (R180). Axis command STOP stops at AX_DMAX and AX_JMAX. -/
def execAxStop (a : Nat) (s : State) : Host.Outcome State Fault Refusal :=
  onDev (decide (a < 64)) (fun _ d => hostCmd d (.ax a) 0x100 6 (fun d => axStop d a)) s

/-- AX_ESTOP (R180). Axis command ESTOP stops at emergency limits. -/
def execAxEstop (a : Nat) (s : State) : Host.Outcome State Fault Refusal :=
  onDev (decide (a < 64)) (fun _ d => hostCmd d (.ax a) 0x100 7 (fun d => axEstop d a)) s

/-- AX_HOME (R205). Axis command HOME runs the homing method. -/
def execAxHome (a : Nat) (s : State) : Host.Outcome State Fault Refusal :=
  onDev (decide (a < 64)) (fun _ d => hostCmd d (.ax a) 0x100 8 (fun d => axHome d a)) s

/-- AX_GEAR_ENGAGE (R192). Axis command GEAR_ENGAGE latches references and follows the master. -/
def execAxGearEngage (a : Nat) (s : State) : Host.Outcome State Fault Refusal :=
  onDev (decide (a < 64)) (fun _ d => hostCmd d (.ax a) 0x100 9 (fun d => axGearEngage d a)) s

/-- AX_GEAR_ARM (R193). Axis command GEAR_ARM arms a ratio change at a master position. -/
def execAxGearArm (a : Nat) (s : State) : Host.Outcome State Fault Refusal :=
  onDev (decide (a < 64)) (fun _ d => hostCmd d (.ax a) 0x100 10 (fun d => axGearArm d a)) s

/-- AX_GEAR_RELEASE (R180). Axis command GEAR_RELEASE leaves gearing and stops. -/
def execAxGearRelease (a : Nat) (s : State) : Host.Outcome State Fault Refusal :=
  onDev (decide (a < 64)) (fun _ d => hostCmd d (.ax a) 0x100 11 (fun d => axGearRelease d a)) s

/-- AX_SET_POS (R174). Axis command SET_POS shifts positions so AX_POS_CMD equals AX_TGT and sets REFERENCED. -/
def execAxSetPos (a : Nat) (s : State) : Host.Outcome State Fault Refusal :=
  onDev (decide (a < 64)) (fun _ d => hostCmd d (.ax a) 0x100 12 (fun d => axSetPos d a)) s

/-- MT_GRP_START (R172). Motion tile group command START sets RUN of masked axes. -/
def execMtGrpStart (m : Nat) (s : State) : Host.Outcome State Fault Refusal :=
  onDev (decide (m < 8)) (fun _ d => hostCmd d (.mt m) 0x118 1 (fun d => mtGroup d m 1)) s

/-- MT_GRP_STOP (R172). Motion tile group command STOP clears RUN of masked axes. -/
def execMtGrpStop (m : Nat) (s : State) : Host.Outcome State Fault Refusal :=
  onDev (decide (m < 8)) (fun _ d => hostCmd d (.mt m) 0x118 2 (fun d => mtGroup d m 2)) s

/-- MT_GRP_GO (R172). Motion tile group command GO issues MOVE_ABS to every masked axis in one window. -/
def execMtGrpGo (m : Nat) (s : State) : Host.Outcome State Fault Refusal :=
  onDev (decide (m < 8)) (fun _ d => hostCmd d (.mt m) 0x118 3 (fun d => mtGroup d m 3)) s

/-- AXIS_PROFILE_END (R180). A move profile ends at its target; the axis enters IDLE with DONE. -/
def execAxisProfileEnd (a : Nat) (s : State) : Host.Outcome State Fault Refusal :=
  onDev (decide (a < 64)) (fun _ d => axProfileEnd d a) s

/-- AXIS_STANDSTILL (R180). A stopping or emergency-stopping axis reaches standstill. -/
def execAxisStandstill (a : Nat) (s : State) : Host.Outcome State Fault Refusal :=
  onDev (decide (a < 64)) (fun _ d => axStandstill d a) s

/-- SWITCH_DEBOUNCED (R204). A limit or home switch changes its debounced state. -/
def execSwitchDebounced (a : Nat) (w : Nat) (on : Bool) (s : State) : Host.Outcome State Fault Refusal :=
  onDev (decide (a < 64) && decide (w < 3)) (fun _ d => axSwitchEvent d a w on) s

/-- HOME_CHATTER (R208). The switch-change count exceeds CHAT_N and homing ends with an emergency stop. -/
def execHomeChatter (a : Nat) (s : State) : Host.Outcome State Fault Refusal :=
  onDev (decide (a < 64)) (fun _ d => axChatterEvent d a) s

/-- AXIS_STALL (R195). The deviation timer reaches DEV_TIME and the axis faults with STALL. -/
def execAxisStall (a : Nat) (s : State) : Host.Outcome State Fault Refusal :=
  onDev (decide (a < 64)) (fun _ d => axStall d a) s

/-- ENC_QUAD_ERROR (R201). A and B change in the same accepted sample; VALID clears. -/
def execEncQuadError (e : Nat) (s : State) : Host.Outcome State Fault Refusal :=
  onDev (decide (e < 32)) (fun _ d => encQuadError d e) s

/-- ENC_INDEX (R201). An active index edge latches position and time. -/
def execEncIndex (e : Nat) (pos : Nat) (ts : Nat) (s : State) : Host.Outcome State Fault Refusal :=
  onDev (decide (e < 32)) (fun _ d => encIndex d e pos ts) s

/-- SSI_FRAME (R202). An SSI frame completes and gives a position, or a frame error. -/
def execSsiFrame (e : Nat) (raw : Nat) (good : Bool) (s : State) : Host.Outcome State Fault Refusal :=
  onDev (decide (e < 32)) (fun _ d => encSsi d e raw good) s

end Sys2Proof.Machine
end

