-- ==== Sys2Proof/Machine/PlialeBus.lean ====
section
/-! DEFINITION. The meanings of the commands of one family: Pliale segments. -/

namespace Sys2Proof.Machine

/-- PL_NOP (R338). Pliale segment command NOP. -/
def execPlNop (seg : Nat) (s : State) : Host.Outcome State Fault Refusal :=
  onDev (decide (seg < 16)) (fun _ d => hostCmd d (.pl seg) 0x104 0 plNop) s

/-- PL_LOAD (R324). Segment command LOAD verifies a schedule. -/
def execPlLoad (seg : Nat) (s : State) : Host.Outcome State Fault Refusal :=
  onDev (decide (seg < 16)) (fun _ d => hostCmd d (.pl seg) 0x104 1 (fun d => plLoad d seg)) s

/-- PL_VERIFY_DONE (R333). Schedule verification ends with STOPPED and claims, or EMPTY with a failure. -/
def execPlVerifyDone (seg : Nat) (s : State) : Host.Outcome State Fault Refusal :=
  onDev (decide (seg < 16)) (fun _ d => plVerified d seg) s

/-- PL_UNLOAD (R333). Segment command UNLOAD releases claims. -/
def execPlUnload (seg : Nat) (s : State) : Host.Outcome State Fault Refusal :=
  onDev (decide (seg < 16)) (fun _ d => hostCmd d (.pl seg) 0x104 2 (fun d => plUnload d seg)) s

/-- PL_START (R333). Segment command START enters LISTEN with the silence timer. -/
def execPlStart (seg : Nat) (s : State) : Host.Outcome State Fault Refusal :=
  onDev (decide (seg < 16)) (fun _ d => hostCmd d (.pl seg) 0x104 3 (fun d => plStart d seg)) s

/-- PL_STOP (R333). Segment command STOP sends one last cycle with STOPPING, then silence. -/
def execPlStop (seg : Nat) (s : State) : Host.Outcome State Fault Refusal :=
  onDev (decide (seg < 16)) (fun _ d => hostCmd d (.pl seg) 0x104 4 (fun d => plStop d seg)) s

/-- PL_LCMD_NOP (R338). Segment local command NOP. -/
def execPlLcmdNop (seg : Nat) (s : State) : Host.Outcome State Fault Refusal :=
  onDev (decide (seg < 16)) (fun _ d => hostCmd d (.pl seg) 0x108 0 plNop) s

/-- PL_RESTART (R333). Local command RESTART returns a HALTED segment to LISTEN. -/
def execPlRestart (seg : Nat) (s : State) : Host.Outcome State Fault Refusal :=
  onDev (decide (seg < 16)) (fun _ d => hostCmd d (.pl seg) 0x108 1 (fun d => plRestart d seg)) s

/-- PL_ACYC (R335). Local command ACYC issues the buffered acyclic request. -/
def execPlAcyc (seg : Nat) (s : State) : Host.Outcome State Fault Refusal :=
  onDev (decide (seg < 16)) (fun _ d => hostCmd d (.pl seg) 0x108 2 (fun d => plAcyc d seg)) s

/-- PL_RESYNC (R338). Local command RESYNC resynchronises one slot. -/
def execPlResync (seg : Nat) (k : Nat) (s : State) : Host.Outcome State Fault Refusal :=
  onDev (decide (seg < 16) && decide (k < 32)) (fun _ d => hostCmd d (.pl seg) 0x108 (w32 (3 + 256 * k)) (fun d => plResync d seg k)) s

/-- PLIALE_CYCLE_START (R321). At a cycle boundary the master sends SYNC. -/
def execPlialeCycleStart (seg : Nat) (s : State) : Host.Outcome State Fault Refusal :=
  onDev (decide (seg < 16)) (fun _ d => onBus (fun d => cycleStart d seg) d) s

/-- POLL_SEND (R322). The master sends a slot's POLL at its scheduled instant. -/
def execPollSend (seg : Nat) (k : Nat) (s : State) : Host.Outcome State Fault Refusal :=
  onDev (decide (seg < 16) && decide (k < 32)) (fun _ d => onBus (fun d => pollSend d seg k) d) s

/-- REPLY_RECEIVE (R330). A reception in the poll phase is accepted or classified. -/
def execReplyReceive (seg : Nat) (j : Nat) (good : Bool) (bs : List W8) (s : State) : Host.Outcome State Fault Refusal :=
  onDev (decide (seg < 16)) (fun _ d => onBus (fun d => replyReceive d seg j good bs) d) s

/-- ACYC_WINDOW_END (R332). At the end of the acyclic window each slot's state machine is evaluated. -/
def execAcycWindowEnd (seg : Nat) (s : State) : Host.Outcome State Fault Refusal :=
  onDev (decide (seg < 16)) (fun _ d => onBus (fun d => acycWindowEnd d seg) d) s

/-- ACYCLIC_WINDOW_START (R335). At the scheduled start of a cycle's acyclic window the master sends the pending acyclic request, MEASURE exchanges and RESYNC or SET_DELAY commands. -/
def execAcyclicWindowStart (seg : Nat) (s : State) : Host.Outcome State Fault Refusal :=
  onDev (decide (seg < 16)) (fun _ d => onBus (fun d => acycStart d seg) d) s

/-- MEAS_RSP_RECEIVE (R327). A MEAS_RSP is stamped and a delay exchange completes. -/
def execMeasRspReceive (seg : Nat) (k : Nat) (dt : Nat) (s : State) : Host.Outcome State Fault Refusal :=
  onDev (decide (seg < 16) && decide (k < 32)) (fun _ d => onBus (fun d => measRsp d seg k dt) d) s

/-- ACYC_RSP_RECEIVE (R335). An acyclic response is received and the request concludes. -/
def execAcycRspReceive (seg : Nat) (ofs : Nat) (good : Bool) (bs : List W8) (s : State) : Host.Outcome State Fault Refusal :=
  onDev (decide (seg < 16)) (fun _ d => onBus (fun d => acycRsp d seg ofs good bs) d) s

/-- ACYC_RESPONSE_TIMEOUT (R335). No acyclic response arrives in time; the request ends NO_RESPONSE. -/
def execAcycResponseTimeout (seg : Nat) (s : State) : Host.Outcome State Fault Refusal :=
  onDev (decide (seg < 16)) (fun _ d => onBus (fun d => acycTimeout d seg) d) s

/-- FOREIGN_SYNC (R333). A valid SYNC from another master stops the segment with DUP_MASTER. -/
def execForeignSync (seg : Nat) (s : State) : Host.Outcome State Fault Refusal :=
  onDev (decide (seg < 16)) (fun _ d => onBus (fun d => foreignSync d seg) d) s

/-- PL_COLLISION (R333). SYNC readback mismatches the driven level. -/
def execPlCollision (seg : Nat) (sync : Bool) (k : Nat) (s : State) : Host.Outcome State Fault Refusal :=
  onDev (decide (seg < 16) && decide (k < 32)) (fun _ d => onBus (fun d => plCollision d seg sync k) d) s

/-- LINE_ACTIVITY (R333). Activity on the line restarts a LISTEN silence timer. -/
def execLineActivity (seg : Nat) (s : State) : Host.Outcome State Fault Refusal :=
  onDev (decide (seg < 16)) (fun _ d => onBus (fun d => lineActivity d seg) d) s

/-- LISTEN_SILENCE_EXPIRED (R333). The silence timer expires and the segment starts RUNNING. -/
def execListenSilenceExpired (seg : Nat) (s : State) : Host.Outcome State Fault Refusal :=
  onDev (decide (seg < 16)) (fun _ d => onBus (fun d => listenExpired d seg) d) s

/-- PL_SCHED_UE (R333). An uncorrectable schedule-store error quarantines the segment. -/
def execPlSchedUe (seg : Nat) (s : State) : Host.Outcome State Fault Refusal :=
  onDev (decide (seg < 16)) (fun _ d => schedUe d seg) s

end Sys2Proof.Machine
end

