-- ==== Sys2Proof/Machine/Recorder.lean ====
section
/-! DEFINITION. The meanings of the commands of one family: Daybook and trace. -/

namespace Sys2Proof.Machine

/-- DAYBOOK_REPORT (R384). A report is raised and enters staging, subject to buckets and a full queue. -/
def execDaybookReport (typ : Nat) (src : Nat) (pay : List W32) (s : State) : Host.Outcome State Fault Refusal :=
  onDev (decide (typ < 65536) && decide (src < 4096)) (fun _ d => report d typ src pay) s

/-- RECORD_COMMIT (R380). The writer commits the head staged record to the running area. -/
def execRecordCommit (s : State) : Host.Outcome State Fault Refusal :=
  onVault (true) (fun v d => recordCommit v d) s

/-- TOKEN_GAIN (R386). A source's bucket gains a token at its OPT_MS interval. -/
def execTokenGain (src : Nat) (s : State) : Host.Outcome State Fault Refusal :=
  onDev (decide (src < 4096)) (fun _ d => tokenGain d src) s

/-- DB_NOP (R392). Daybook command NOP. -/
def execDbNop (s : State) : Host.Outcome State Fault Refusal :=
  onDev (true) (fun _ d => hostCmd d .db 0x140 0 dbNop) s

/-- DB_CLEAR (R390). Daybook command CLEAR checks a token and stages a clear. -/
def execDbClear (s : State) : Host.Outcome State Fault Refusal :=
  onDev (true) (fun v d => hostCmd d .db 0x140 1 (fun d => dbClear d v.serial (dbArgs d))) s

/-- CLEAR_EXECUTE (R390). The writer carries out a staged clear between commits. -/
def execClearExecute (s : State) : Host.Outcome State Fault Refusal :=
  onVault (true) (fun v d => clearExecute v d) s

/-- DB_APP_PUT (R391). Daybook command APP_PUT copies an application record into staging. -/
def execDbAppPut (who : Nat) (s : State) : Host.Outcome State Fault Refusal :=
  onDev (decide (who < 9)) (fun _ d => hostCmd d .db 0x140 2 (fun d => dbAppPut d who (dbArgs d))) s

/-- TR_NOP (R401). Trace command NOP. -/
def execTrNop (s : State) : Host.Outcome State Fault Refusal :=
  onDev (true) (fun _ d => hostCmd d .tr 0x104 0 trNop) s

/-- TR_START (R401). Trace command START checks load and starts sampling. -/
def execTrStart (s : State) : Host.Outcome State Fault Refusal :=
  onDev (true) (fun _ d => hostCmd d .tr 0x104 1 trStart) s

/-- TR_STOP (R403). Trace command STOP closes open packets. -/
def execTrStop (s : State) : Host.Outcome State Fault Refusal :=
  onDev (true) (fun _ d => hostCmd d .tr 0x104 2 trStop) s

/-- TR_TRIGGER (R402). Trace command TRIGGER raises a trigger of class HOST. -/
def execTrTrigger (s : State) : Host.Outcome State Fault Refusal :=
  onDev (true) (fun _ d => hostCmd d .tr 0x104 3 (fun d => trTrigger d 0 388)) s

/-- TR_UNFREEZE (R403). Trace command UNFREEZE releases the frozen ring. -/
def execTrUnfreeze (s : State) : Host.Outcome State Fault Refusal :=
  onDev (true) (fun _ d => hostCmd d .tr 0x104 4 trUnfreeze) s

/-- TR_XFER (R400). Trace command XFER starts a copy from the ring to host memory. -/
def execTrXfer (s : State) : Host.Outcome State Fault Refusal :=
  onDev (true) (fun _ d => hostCmd d .tr 0x104 5 trXfer) s

/-- XFER_DONE (R400). A ring transfer concludes with its result. -/
def execXferDone (s : State) : Host.Outcome State Fault Refusal :=
  onDev (true) (fun _ d => trXferDone d) s

/-- TR_RESET_RING (R401). Trace command RESET_RING zeroes both positions. -/
def execTrResetRing (s : State) : Host.Outcome State Fault Refusal :=
  onDev (true) (fun _ d => hostCmd d .tr 0x104 6 trResetRing) s

/-- FREEZE_END (R403). At BP n_T + 100 × POST the freeze completes and trace enters FROZEN. -/
def execFreezeEnd (s : State) : Host.Outcome State Fault Refusal :=
  onDev (true) (fun _ d => trFreezeEnd d) s

/-- TR_RELEASE (R398). Writing TR_RD_REL advances the read position. -/
def execTrRelease (val : W32) (s : State) : Host.Outcome State Fault Refusal :=
  onDev (true) (fun _ d => admitted d .tr 0x120 val (fun d => trRelease d val.toNat)) s

/-- TR_DMA_COPY (R399). The stream DMA copies ring bytes to host memory and writes back its position. -/
def execTrDmaCopy (n : Nat) (s : State) : Host.Outcome State Fault Refusal :=
  onDev (true) (fun _ d => trDmaCopy d n) s

end Sys2Proof.Machine
end

