-- ==== Sys2Proof/Machine/SafetyChannels.lean ====
section
/-! DEFINITION. The meanings of the commands of one family: safety channels. -/

namespace Sys2Proof.Machine

/-- SAFETY_CYCLE (R238). A safety cycle starts at c0: latch, evaluate, compare, apply switch commands and send producers. -/
def execSafetyCycle (so : SoSeen) (differ : Bool) (s : State) : Host.Outcome State Fault Refusal :=
  onDev (true) (fun v d => safetyRow d (safetyCycle d v.serial so.opens so.shorts differ)) s

/-- SAFETY_STATUS_COMMIT (R256). Each channel commits its status block at C2 of BP n + 70. -/
def execSafetyStatusCommit (s : State) : Host.Outcome State Fault Refusal :=
  onDev (true) (fun _ d => safetyRow d (statusCommit d)) s

/-- SAFETY_CONTACT_CHANGE (R238). A safety contact change passes the 100 µs filter. -/
def execSafetyContactChange (i : Nat) (second : Bool) (c : SioSeen) (s : State) : Host.Outcome State Fault Refusal :=
  onDev (decide (i < 16) && decide (c.channels < 4) && decide (c.sample < 100)) (fun _ d => contactChange d i second c.channels c.lvl c.sample) s

/-- DISCREPANCY_FAULT (R241). A pair's discrepancy timer passes DISC and the pair faults. -/
def execDiscrepancyFault (i : Nat) (s : State) : Host.Outcome State Fault Refusal :=
  onDev (decide (i < 16)) (fun _ d => ownSide d (discrepancyFault d i)) s

/-- RESET_JAM (R242). A reset pair's ON period reaches 5 s and the pair jams. -/
def execResetJam (i : Nat) (s : State) : Host.Outcome State Fault Refusal :=
  onDev (decide (i < 16)) (fun _ d => ownSide d (resetJam d i 100)) s

/-- OUTPUT_LOCKOUT (R243). A switch still conducts 1.0 ms after being commanded off and the output locks out. -/
def execOutputLockout (o : Nat) (sw : Nat) (s : State) : Host.Outcome State Fault Refusal :=
  onDev (decide (o < 8) && decide (sw < 2)) (fun _ d => outputLockout d o sw) s

/-- DARK_TEST (R243). A switch of a conducting output is opened briefly and its readback checked. -/
def execDarkTest (o : Nat) (sw : Nat) (opened : Bool) (s : State) : Host.Outcome State Fault Refusal :=
  onDev (decide (o < 8) && decide (sw < 2)) (fun _ d => darkTest d o sw opened) s

/-- OFF_DELAY_END (R244). An instance's delay timer reaches OFF_DELAY and the instance stops. -/
def execOffDelayEnd (k : Nat) (s : State) : Host.Outcome State Fault Refusal :=
  onDev (decide (k < 64)) (fun _ d => safetyRow d (offDelayEvent d k)) s

/-- MUTING_TIMEOUT (R245). AREA muting lasts PARAM ms and ends. -/
def execMutingTimeout (k : Nat) (s : State) : Host.Outcome State Fault Refusal :=
  onDev (decide (k < 64)) (fun _ d => safetyRow d (muteEvent d k)) s

/-- LOCK_AUX_DELAY_END (R245). A LOCK instance's AUX condition has read ON for PARAM ms, allowing unlock. -/
def execLockAuxDelayEnd (k : Nat) (s : State) : Host.Outcome State Fault Refusal :=
  onDev (decide (k < 64)) (fun _ d => safetyRow d (lockAuxEvent d k)) s

/-- CHANNEL_SELF_TEST_FAIL (R247). A safety channel's internal self-test fails and both channels lock out. -/
def execChannelSelfTestFail (ch : Nat) (s : State) : Host.Outcome State Fault Refusal :=
  onDev (decide (ch < 2)) (fun _ d => sfSelfTestFail d ch) s

/-- SAFETY_CLOCK_DEVIATION (R237). The channel time bases differ by more than 5 % or the BP grid stops; CLK_ALONE sets. -/
def execSafetyClockDeviation (ch : Nat) (covered : Bool) (s : State) : Host.Outcome State Fault Refusal :=
  onDev (decide (ch < 2)) (fun _ d => sfClock d ch covered) s

/-- SAFE_FRAME_RECEIVE (R249). A safe frame is received and accepted or discarded for a consumer connection. -/
def execSafeFrameReceive (net : Nat) (bs : List W8) (s : State) : Host.Outcome State Fault Refusal :=
  onDev (decide (net < 2)) (fun _ d => safeFrameReceive d net bs) s

/-- CONN_WATCHDOG (R251). No accepted frame arrives for WD and the connection trips. -/
def execConnWatchdog (c : Nat) (s : State) : Host.Outcome State Fault Refusal :=
  onDev (decide (c < 32)) (fun _ d => ownSide d (connWatchdog d c)) s

/-- NETWORK_MISSING (R251). One network delivers nothing for 3 periods; the connection degrades or trips. -/
def execNetworkMissing (c : Nat) (s : State) : Host.Outcome State Fault Refusal :=
  onDev (decide (c < 32)) (fun _ d => ownSide d (networkMissing d c)) s

/-- DEGRADED_TIMEOUT (R251). The degraded tolerance timer passes TOL and the connection trips. -/
def execDegradedTimeout (c : Nat) (s : State) : Host.Outcome State Fault Refusal :=
  onDev (decide (c < 32)) (fun _ d => ownSide d (degradedTimeout d c)) s

/-- SAFE_IMG_RECEIVE (R252). The standby's channel receives the authority's forwarded input image. -/
def execSafeImgReceive (n : TwRx Nat) (f : Nat) (img : SfImg) (good : Bool) (s : State) : Host.Outcome State Fault Refusal :=
  onDev (decide (f < 2) && decide (n.head.lane < 2)) (fun _ d => laneFrame d n.head (fun d => imgFrame d n.body f img good)) s

/-- SF_NOP (R253). Safety command NOP. -/
def execSfNop (s : State) : Host.Outcome State Fault Refusal :=
  onDev (true) (fun _ d => hostCmd d .sfa 0x104 0 (fun d => sfNop d)) s

/-- SF_UNLOCK (R253). Safety command UNLOCK checks the password hash. -/
def execSfUnlock (s : State) : Host.Outcome State Fault Refusal :=
  onDev (true) (fun _ d => hostCmd d .sfa 0x104 1 (fun d => sfUnlock d)) s

/-- SF_LOCK (R253). Safety command LOCK clears UNLOCKED. -/
def execSfLock (s : State) : Host.Outcome State Fault Refusal :=
  onDev (true) (fun _ d => hostCmd d .sfa 0x104 2 (fun d => sfLock d)) s

/-- SF_LOAD (R254). Safety command LOAD verifies and parses a safety table into PENDING. -/
def execSfLoad (s : State) : Host.Outcome State Fault Refusal :=
  onDev (true) (fun v d => hostCmd d .sfa 0x104 3 (fun d => sfLoad d v.serial)) s

/-- SF_CONFIRM (R254). Safety command CONFIRM activates the pending table and seals it. -/
def execSfConfirm (s : State) : Host.Outcome State Fault Refusal :=
  onDev (true) (fun _ d => hostCmd d .sfa 0x104 4 (fun d => sfConfirm d)) s

/-- SF_DISCARD (R254). Safety command DISCARD drops the pending table. -/
def execSfDiscard (s : State) : Host.Outcome State Fault Refusal :=
  onDev (true) (fun _ d => hostCmd d .sfa 0x104 5 (fun d => sfDiscard d)) s

/-- SF_SET_PW (R253). Safety command SET_PW sets a new password. -/
def execSfSetPw (s : State) : Host.Outcome State Fault Refusal :=
  onDev (true) (fun _ d => hostCmd d .sfa 0x104 6 (fun d => sfSetPw d)) s

/-- CONFIRM_TIMEOUT (R254). A pending table not confirmed within 10 min is discarded. -/
def execConfirmTimeout (s : State) : Host.Outcome State Fault Refusal :=
  onDev (true) (fun _ d => confirmTimeout d) s

/-- UNLOCK_TIMEOUT (R253). UNLOCKED clears after 15 min without a configuration command. -/
def execUnlockTimeout (s : State) : Host.Outcome State Fault Refusal :=
  onDev (true) (fun _ d => unlockTimeout d) s

end Sys2Proof.Machine
end

