-- ==== Sys2Proof/Machine/Sequencer.lean ====
section
/-! DEFINITION. The meanings of the commands of one family: recipe sequencer lanes. -/

namespace Sys2Proof.Machine

/-- LANE_NOP (R66). Lane NOP command, with no effect. -/
def execLaneNop (l : Nat) (s : State) : Host.Outcome State Fault Refusal :=
  onDev (decide (l < 16)) (fun _ d => hostCmd d (.sq l) 0x100 0 (fun d => d)) s

/-- LANE_LOAD (R67). LOAD command starts verification of the Ledger image at SQ_LOAD_ADDR. -/
def execLaneLoad (l : Nat) (s : State) : Host.Outcome State Fault Refusal :=
  onDev (decide (l < 16)) (fun _ d => hostCmd d (.sq l) 0x100 1 (fun d => laneLoad d l)) s

/-- LANE_VERIFY_DONE (R70). Image verification ends; the lane enters LOADED and claims its targets, or returns EMPTY with a failure code. -/
def execLaneVerifyDone (l : Nat) (s : State) : Host.Outcome State Fault Refusal :=
  onDev (decide (l < 16)) (fun _ d => laneVerified d l) s

/-- LANE_UNLOAD (R67). UNLOAD command releases every claim and empties the lane. -/
def execLaneUnload (l : Nat) (s : State) : Host.Outcome State Fault Refusal :=
  onDev (decide (l < 16)) (fun _ d => hostCmd d (.sq l) 0x100 2 (fun d => laneUnload d l)) s

/-- LANE_START (R66). START command enters the start step, checked for a valid NAME. -/
def execLaneStart (l : Nat) (name : Nat) (s : State) : Host.Outcome State Fault Refusal :=
  onDev (decide (l < 16) && decide (name < 65536)) (fun _ d => hostCmd d (.sq l) 0x100 (w32 (3 + 65536 * name)) (fun d => laneStart d l name)) s

/-- LANE_PAUSE (R69). PAUSE command freezes the elapsed count, ramp and timeout. -/
def execLanePause (l : Nat) (s : State) : Host.Outcome State Fault Refusal :=
  onDev (decide (l < 16)) (fun _ d => hostCmd d (.sq l) 0x100 4 (fun d => lanePause d l)) s

/-- LANE_CONTINUE (R67). CONTINUE command carries on from the frozen position. -/
def execLaneContinue (l : Nat) (s : State) : Host.Outcome State Fault Refusal :=
  onDev (decide (l < 16)) (fun _ d => hostCmd d (.sq l) 0x100 5 (fun d => laneContinue d l)) s

/-- LANE_STOP (R67). STOP command sends targets safe, disarms slots and returns the lane to LOADED. -/
def execLaneStop (l : Nat) (s : State) : Host.Outcome State Fault Refusal :=
  onDev (decide (l < 16)) (fun _ d => hostCmd d (.sq l) 0x100 6 (fun d => laneStop d l)) s

/-- LANE_ABORT (R67). ABORT command enters the abort step, or acts as STOP when there is none. -/
def execLaneAbort (l : Nat) (s : State) : Host.Outcome State Fault Refusal :=
  onDev (decide (l < 16)) (fun _ d => hostCmd d (.sq l) 0x100 7 (fun d => laneAbort d l)) s

/-- STEP_DURATION_END (R74). A TIMED or RAMP step reaches its duration and the next step is entered. -/
def execStepDurationEnd (l : Nat) (s : State) : Host.Outcome State Fault Refusal :=
  onDev (decide (l < 16)) (fun _ d => stepDurationEnd d l) s

/-- WAIT_TIMEOUT (R74). A WAIT step times out and goes to TARGET, or faults with TARGET 0. -/
def execWaitTimeout (l : Nat) (s : State) : Host.Outcome State Fault Refusal :=
  onDev (decide (l < 16)) (fun _ d => waitTimeout d l) s

/-- SCHED_ARM (R87). A host write arms scheduled slot k with SQ_SCHk_TIME. -/
def execSchedArm (l : Nat) (k : Nat) (pol : Bool) (s : State) : Host.Outcome State Fault Refusal :=
  onDev (decide (l < 16) && decide (k < 32)) (fun _ d => admitted d (.sq l) (0x208 + 16 * k) (w32 (1 + 2 * b2n pol)) (fun d => laneArmWrite d l k (w32 (1 + 2 * b2n pol)))) s

/-- SCHED_DISARM (R89). A host write disarms scheduled slot k. -/
def execSchedDisarm (l : Nat) (k : Nat) (pol : Bool) (s : State) : Host.Outcome State Fault Refusal :=
  onDev (decide (l < 16) && decide (k < 32)) (fun _ d => admitted d (.sq l) (0x208 + 16 * k) (w32 (2 * b2n pol)) (fun d => laneArmWrite d l k (w32 (2 * b2n pol)))) s

/-- SCHED_SLOT_FIRE (R87). A scheduled slot fires at the first tick whose tick time reaches its due time. -/
def execSchedSlotFire (l : Nat) (k : Nat) (s : State) : Host.Outcome State Fault Refusal :=
  onDev (decide (l < 16) && decide (k < 32)) (fun _ d => schedSlotFire d l k) s

/-- ACT_SIG_WRITE (R76). Lane action SIG_WRITE stages a value to a signal entry. -/
def execActSigWrite (l : Nat) (j : Nat) (s : State) : Host.Outcome State Fault Refusal :=
  onDev (decide (l < 16)) (fun _ d => laneActRow 1 d l j) s

/-- ACT_AXIS_MOVE (R181). Lane action AXIS_MOVE writes a target and issues an absolute or relative move. -/
def execActAxisMove (l : Nat) (j : Nat) (s : State) : Host.Outcome State Fault Refusal :=
  onDev (decide (l < 16)) (fun _ d => laneActRow 2 d l j) s

/-- ACT_LOGIC_EVENT (R216). Lane action LOGIC_EVENT triggers an event task of a logic processor. -/
def execActLogicEvent (l : Nat) (j : Nat) (s : State) : Host.Outcome State Fault Refusal :=
  onDev (decide (l < 16)) (fun _ d => laneActRow 3 d l j) s

/-- ACT_ARM_SCHED (R87). Lane action ARM_SCHED arms a slot at tick time plus DELAY. -/
def execActArmSched (l : Nat) (j : Nat) (s : State) : Host.Outcome State Fault Refusal :=
  onDev (decide (l < 16)) (fun _ d => laneActRow 4 d l j) s

/-- ACT_DISARM_SCHED (R89). Lane action DISARM_SCHED disarms a slot. -/
def execActDisarmSched (l : Nat) (j : Nat) (s : State) : Host.Outcome State Fault Refusal :=
  onDev (decide (l < 16)) (fun _ d => laneActRow 5 d l j) s

/-- ACT_CRITICAL (R85). Lane action CRITICAL marks the step critical and freezes its critical cell set. -/
def execActCritical (l : Nat) (j : Nat) (s : State) : Host.Outcome State Fault Refusal :=
  onDev (decide (l < 16)) (fun _ d => laneActRow 6 d l j) s

end Sys2Proof.Machine
end

