-- ==== Sys2Proof/Machine/StartResume.lean ====
section
/-! DEFINITION. The meanings of the commands of one family: resets, start, power failure, journal. -/

namespace Sys2Proof.Machine

/-- WARM_RESET (R291). A warm reset resets non-safety blocks and starts an output hold. -/
def execWarmReset (src : Nat) (s : State) : Host.Outcome State Fault Refusal :=
  onDev ([1, 2, 3, 5].contains src) (fun _ d => warmReset d src) s

/-- COLD_RESET (R291). A cold reset resets the whole module, safety channels included. -/
def execColdReset (src : Nat) (s : State) : Host.Outcome State Fault Refusal :=
  onDev ([4, 6].contains src) (fun _ d => coldReset d src) s

/-- SUPERVISOR_WATCHDOG (R290). Supervisor firmware fails to service its watchdog for 50 ms and a warm reset follows. -/
def execSupervisorWatchdog (s : State) : Host.Outcome State Fault Refusal :=
  onDev (true) (fun _ d => supWatchdog d) s

/-- SERVICE_PORT_RESET (R290). A system reset through the IEEE 1149.1 port causes a cold reset. -/
def execServicePortReset (s : State) : Host.Outcome State Fault Refusal :=
  onDev (true) (fun _ d => servicePort d) s

/-- VIN_RISE (R297). VIN enters its operating range with PRES_N asserted and boot begins. -/
def execVinRise (ka : Nat) (s : State) : Host.Outcome State Fault Refusal :=
  onDev (true) (fun _ d => vinRise d ka) s

/-- BOOT_COMPLETE (R310). Firmware is checked and the supervisor decides how to start. -/
def execBootComplete (env : BootEnv) (s : State) : Host.Outcome State Fault Refusal :=
  onVault (true) (fun v d => bootComplete v d env) s

/-- POWER_FAILURE (R305). VIN below 18.0 V for 5 µs is declared a power failure and the final boundary is taken. -/
def execPowerFailure (s : State) : Host.Outcome State Fault Refusal :=
  onDev (true) (fun _ d => powerFailure d) s

/-- FINAL_COMMIT_DONE (R305). The final commit with FINAL set is complete. -/
def execFinalCommitDone (s : State) : Host.Outcome State Fault Refusal :=
  onDev (true) (fun _ d => finalCommitDone d) s

/-- BROWNOUT (R307). VIN returns for 100 µs before hold-up is spent and a warm reset follows. -/
def execBrownout (s : State) : Host.Outcome State Fault Refusal :=
  onDev (true) (fun _ d => brownout d) s

/-- HOLDUP_SPENT (R307). Hold-up energy runs out and the module enters Keep-alive. -/
def execHoldupSpent (s : State) : Host.Outcome State Fault Refusal :=
  onDev (true) (fun _ d => holdupSpent d) s

/-- HOLDUP_OK_SET (R306). The hold-up store reaches 2 ms at 75 W and control may start. -/
def execHoldupOkSet (s : State) : Host.Outcome State Fault Refusal :=
  onDev (true) (fun _ d => holdupSet d) s

/-- HOLDUP_LOW (R306). HOLDUP_OK clears while control runs. -/
def execHoldupLow (s : State) : Host.Outcome State Fault Refusal :=
  onDev (true) (fun _ d => holdupLow d) s

/-- OUTPUT_HOLD_EXPIRED (R308). HOLD_TIME expires and held outputs take their safe values. -/
def execOutputHoldExpired (s : State) : Host.Outcome State Fault Refusal :=
  onDev (true) (fun _ d => outputHoldExpired d) s

/-- JOURNAL_EPOCH (R298). At an epoch boundary blocks copy dirty rows to their shadows. -/
def execJournalEpoch (s : State) : Host.Outcome State Fault Refusal :=
  onDev (true) (fun _ d => epochServed d) s

/-- JOURNAL_COMMIT (R300). A drain ends and its commit record is written last. -/
def execJournalCommit (s : State) : Host.Outcome State Fault Refusal :=
  onDev (true) (fun _ d => journalCommit d) s

/-- SB_NOP (R317). Strongbox command NOP. -/
def execSbNop (s : State) : Host.Outcome State Fault Refusal :=
  onDev (true) (fun _ d => hostCmd d .sb 0x108 0 sbNop) s

/-- FORCE_COLD (R317). Strongbox command FORCE_COLD makes the next start cold. -/
def execForceCold (s : State) : Host.Outcome State Fault Refusal :=
  onDev (true) (fun _ d => hostCmd d .sb 0x108 1 forceCold) s

/-- CANCEL_COLD (R317). Strongbox command CANCEL_COLD cancels FORCE_COLD. -/
def execCancelCold (s : State) : Host.Outcome State Fault Refusal :=
  onDev (true) (fun _ d => hostCmd d .sb 0x108 2 cancelCold) s

end Sys2Proof.Machine
end

