-- ==== Sys2Proof/Machine/Supervisor.lean ====
section
/-! DEFINITION. The meanings of the commands of one family: identity, power, health, wear. -/

namespace Sys2Proof.Machine

/-- ID_NOP (R433). Identity command NOP. -/
def execIdNop (s : State) : Host.Outcome State Fault Refusal :=
  onDev (true) (fun _ d => hostCmd d .id 0x200 0 idNop) s

/-- ATTEST (R432). Identity command ATTEST latches BP_CNT and starts signing. -/
def execAttest (s : State) : Host.Outcome State Fault Refusal :=
  onDev (true) (fun v d => hostCmd d .id 0x200 1 (fun d => idAttest d v.serial)) s

/-- ATTEST_DONE (R432). The attestation signature appears in ID_ATT_SIG. -/
def execAttestDone (s : State) : Host.Outcome State Fault Refusal :=
  onDev (true) (fun _ d => attestDone d) s

/-- OWNER_SET (R431). Identity command OWNER_SET installs the owner key. -/
def execOwnerSet (s : State) : Host.Outcome State Fault Refusal :=
  onDev (true) (fun _ d => hostCmd d .id 0x200 2 ownerSet) s

/-- KEY_ADD (R431). Identity command KEY_ADD installs a key in slot 2 to 15. -/
def execKeyAdd (k : Nat) (s : State) : Host.Outcome State Fault Refusal :=
  onDev (decide (k < 16)) (fun _ d => hostCmd d .id 0x200 (w32 (3 + 256 * k)) (fun d => keyAdd d k)) s

/-- KEY_DEL (R431). Identity command KEY_DEL empties a key slot. -/
def execKeyDel (k : Nat) (s : State) : Host.Outcome State Fault Refusal :=
  onDev (decide (k < 16)) (fun _ d => hostCmd d .id 0x200 (w32 (4 + 256 * k)) (fun d => keyDel d k)) s

/-- PWR_NOP (R437). Power command NOP. -/
def execPwrNop (s : State) : Host.Outcome State Fault Refusal :=
  onDev (true) (fun _ d => hostCmd d .pwr 0x104 0 pwrNop) s

/-- PWR_WARM (R438). Power command WARM requests a warm reset with key 0xC01D. -/
def execPwrWarm (key : Nat) (s : State) : Host.Outcome State Fault Refusal :=
  onDev (decide (key < 65536)) (fun _ d => hostCmd d .pwr 0x104 (w32 (1 + 65536 * key)) (fun d => pwrWarm d key)) s

/-- PWR_COLD (R438). Power command COLD requests a cold reset with key 0xC01D. -/
def execPwrCold (key : Nat) (s : State) : Host.Outcome State Fault Refusal :=
  onDev (decide (key < 65536)) (fun _ d => hostCmd d .pwr 0x104 (w32 (2 + 65536 * key)) (fun d => pwrCold d key)) s

/-- PWR_INSTALL (R438). Power command INSTALL fetches a firmware container from host memory. -/
def execPwrInstall (s : State) : Host.Outcome State Fault Refusal :=
  onDev (true) (fun _ d => hostCmd d .pwr 0x104 3 pwrInstall) s

/-- INSTALL_DONE (R438). A firmware install concludes with its result. -/
def execInstallDone (bs : List W8) (readOk : Bool) (s : State) : Host.Outcome State Fault Refusal :=
  onDev (true) (fun v d => installDone d v.vendorKid bs readOk) s

/-- KA_STORE_LOST (R439). The keep-alive store falls below 1.8 V without VKA and KA_RTC is lost. -/
def execKaStoreLost (s : State) : Host.Outcome State Fault Refusal :=
  onDev (true) (fun _ d => kaStoreLost d) s

/-- KEEPALIVE_PERSIST (R439). PCC, OPT_MS and the insertion count are copied to MRAM once per second. -/
def execKeepalivePersist (s : State) : Host.Outcome State Fault Refusal :=
  onDev (true) (fun _ d => keepalivePersist d) s

/-- INSERTION (R440). Stage 2 contacts mate, pre-charge begins and the insertion count increments. -/
def execInsertion (s : State) : Host.Outcome State Fault Refusal :=
  onDev (true) (fun _ d => insertion d) s

/-- REMOVAL (R441). Contacts break on removal; REMOVED is set and VIN is lost. -/
def execRemoval (s : State) : Host.Outcome State Fault Refusal :=
  onDev (true) (fun _ d => removal d) s

/-- HEALTH_SAMPLE (R442). Temperature sensors are sampled every 10 ms. -/
def execHealthSample (smp : HSample) (s : State) : Host.Outcome State Fault Refusal :=
  onDev (true) (fun _ d => healthSample d smp) s

/-- HOLDUP_MEASURE (R442). The supervisor measures hold-up capacitance, ESR and energy. -/
def execHoldupMeasure (esr : Nat) (cap : Nat) (energy : Nat) (s : State) : Host.Outcome State Fault Refusal :=
  onDev (true) (fun _ d => holdupMeasure d esr cap energy) s

/-- EOL_UPDATE (R445). Each hour the end-of-life indicators and prediction are updated. -/
def execEolUpdate (smp : EolSample) (s : State) : Host.Outcome State Fault Refusal :=
  onDev (true) (fun _ d => eolUpdate d smp) s

/-- WEAR_LEDGER_SAVE (R446). Wear ledger counts are written to MRAM once per second. -/
def execWearLedgerSave (s : State) : Host.Outcome State Fault Refusal :=
  onDev (true) (fun _ d => wearSave d) s

/-- WL_NOP (R447). Wear ledger command NOP. -/
def execWlNop (s : State) : Host.Outcome State Fault Refusal :=
  onDev (true) (fun _ d => hostCmd d .hlth 0x18C 0 wlNop) s

/-- WL_SET (R447). Wear ledger command SET writes a threshold and source. -/
def execWlSet (s : State) : Host.Outcome State Fault Refusal :=
  onDev (true) (fun _ d => hostCmd d .hlth 0x18C 1 wlSet) s

/-- WL_CLEAR_COUNT (R447). Wear ledger command CLEAR_COUNT zeroes a count and writes a record. -/
def execWlClearCount (s : State) : Host.Outcome State Fault Refusal :=
  onDev (true) (fun _ d => hostCmd d .hlth 0x18C 2 wlClear) s

/-- VFLD_LOW (R453). VFLD stays below 17.0 V for 1 ms; field outputs go undriven and inputs read OFF. -/
def execVfldLow (mv : Nat) (s : State) : Host.Outcome State Fault Refusal :=
  onDev (true) (fun _ d => vfldLowEvent d mv) s

/-- VFLD_RESTORED (R453). VFLD stands at 19.2 V or more for 1 ms and outputs follow their commands again. -/
def execVfldRestored (mv : Nat) (s : State) : Host.Outcome State Fault Refusal :=
  onDev (true) (fun _ d => vfldRestored d mv) s

/-- VIN_LOW (R437). VIN stays below 19.2 V for 1 ms without a power failure, or later recovers, and VIN_LOW in PWR_STAT and its event bit follow. -/
def execVinLow (low : Bool) (s : State) : Host.Outcome State Fault Refusal :=
  onDev (true) (fun _ d => vinLowEvent d low) s

end Sys2Proof.Machine
end

