-- ==== Sys2Proof/Machine/ThreadsMemory.lean ====
section
/-! DEFINITION. The meanings of the commands of one family: Tally, cores, memory banks, Tinker, user NV area. -/

namespace Sys2Proof.Machine

/-- YIELD (R410). Tally operation YIELD readies the current thread and dispatches. -/
def execYield (c : Nat) (s : State) : Host.Outcome State Fault Refusal :=
  onDev (decide (c < 8)) (fun _ d => tlYield d c) s

/-- BLOCK (R410). Tally operation BLOCK blocks the current thread and dispatches. -/
def execBlock (c : Nat) (s : State) : Host.Outcome State Fault Refusal :=
  onDev (decide (c < 8)) (fun _ d => tlBlock d c) s

/-- EXIT (R410). Tally operation EXIT frees the current thread and dispatches. -/
def execExit (c : Nat) (s : State) : Host.Outcome State Fault Refusal :=
  onDev (decide (c < 8)) (fun _ d => tlExit d c) s

/-- DISPATCH (R411). Tally operation DISPATCH grants a thread to the core or idles it. -/
def execDispatch (c : Nat) (s : State) : Host.Outcome State Fault Refusal :=
  onDev (decide (c < 8)) (fun _ d => tlDispatch d c) s

/-- WAKE (R410). Tally operation WAKE readies a blocked thread or counts a wake. -/
def execWake (c : Nat) (t : Nat) (s : State) : Host.Outcome State Fault Refusal :=
  onDev (decide (c < 8)) (fun _ d => tlWake d c t) s

/-- CREATE (R410). Tally operation CREATE readies a free thread. -/
def execCreate (c : Nat) (t : Nat) (s : State) : Host.Outcome State Fault Refusal :=
  onDev (decide (c < 8)) (fun _ d => tlCreate d c t) s

/-- SUSPEND (R410). Tally operation SUSPEND suspends a blocked or ready thread. -/
def execSuspend (c : Nat) (t : Nat) (s : State) : Host.Outcome State Fault Refusal :=
  onDev (decide (c < 8)) (fun _ d => tlSuspend d c t) s

/-- RESUME (R410). Tally operation RESUME readies a suspended thread. -/
def execResume (c : Nat) (t : Nat) (s : State) : Host.Outcome State Fault Refusal :=
  onDev (decide (c < 8)) (fun _ d => tlResume d c t) s

/-- DESTROY (R410). Tally operation DESTROY frees a thread that is not running. -/
def execDestroy (c : Nat) (t : Nat) (s : State) : Host.Outcome State Fault Refusal :=
  onDev (decide (c < 8)) (fun _ d => tlDestroy d c t) s

/-- WAKE_TOKEN (R413). A queued wake token from an event source is applied as WAKE. -/
def execWakeToken (s : State) : Host.Outcome State Fault Refusal :=
  onDev (true) (fun v d => wakeToken d (pendingSources v d)) s

/-- PATIENCE_EXPIRED (R411). A ready thread's patience expires and other cores may steal it. -/
def execPatienceExpired (t : Nat) (s : State) : Host.Outcome State Fault Refusal :=
  onDev (decide (t < 4096)) (fun _ d => patienceExpired d t) s

/-- DESCRIPTOR_WRITE (R409). A write through the descriptor window updates PRIO, AFF or CTX. -/
def execDescriptorWrite (t : Nat) (w : Nat) (val : W32) (s : State) : Host.Outcome State Fault Refusal :=
  onDev (decide (t < 4096) && decide (w < 8)) (fun _ d => admitted d .tl (0x10000 + 32 * t + 4 * w) val (fun d => descWrite d t (4 * w) val)) s

/-- CORE_WATCHDOG (R407). An application core misses its watchdog and is reset alone. -/
def execCoreWatchdog (c : Nat) (s : State) : Host.Outcome State Fault Refusal :=
  onDev (decide (c < 8)) (fun _ d => coreWatchdog d c) s

/-- CORE_FAULT (R407). An application core takes a cache UE or machine check and is reset alone. -/
def execCoreFault (c : Nat) (s : State) : Host.Outcome State Fault Refusal :=
  onDev (decide (c < 8)) (fun _ d => coreFault d c) s

/-- CORE_NOP (R408). Core command NOP. -/
def execCoreNop (c : Nat) (s : State) : Host.Outcome State Fault Refusal :=
  onDev (decide (c < 8)) (fun _ d => hostCmd d .tl 0x10C (w32 c) coreNop) s

/-- CORE_RESET (R408). Core command RESET resets an application core. -/
def execCoreReset (c : Nat) (s : State) : Host.Outcome State Fault Refusal :=
  onDev (decide (c < 8)) (fun _ d => hostCmd d .tl 0x10C (w32 (c + 16)) (fun d => coreReset d c)) s

/-- CORE_HALT (R408). Core command HALT halts an application core. -/
def execCoreHalt (c : Nat) (s : State) : Host.Outcome State Fault Refusal :=
  onDev (decide (c < 8)) (fun _ d => hostCmd d .tl 0x10C (w32 (c + 32)) (fun d => coreHalt d c)) s

/-- CORE_START (R408). Core command START starts a halted application core. -/
def execCoreStart (c : Nat) (s : State) : Host.Outcome State Fault Refusal :=
  onDev (decide (c < 8)) (fun _ d => hostCmd d .tl 0x10C (w32 (c + 48)) (fun d => coreStart d c)) s

/-- TALLY_UE (R416). An uncorrectable descriptor-store error puts Tally in FAULT. -/
def execTallyUe (s : State) : Host.Outcome State Fault Refusal :=
  onDev (true) (fun _ d => tallyUe d) s

/-- MB_POWER_REQUEST (R419). A write of MB_PWR changes the power state of a bank segment. -/
def execMbPowerRequest (b : Nat) (val : W32) (s : State) : Host.Outcome State Fault Refusal :=
  onDev (decide (b < 32)) (fun _ d => admitted d (.mb b) 0x100 val (fun d => mbPower d b val)) s

/-- MB_POWER_DONE (R419). A bank segment finishes its power transition. -/
def execMbPowerDone (b : Nat) (s : State) : Host.Outcome State Fault Refusal :=
  onDev (decide (b < 32)) (fun _ d => mbPowerDone d b) s

/-- SRAM_CE (R420). A single-bit SRAM error is corrected, written back and the row queued for test. -/
def execSramCe (addr : Nat) (s : State) : Host.Outcome State Fault Refusal :=
  onDev (decide (addr < 50331648)) (fun _ d => sramCe d addr) s

/-- SRAM_UE (R420). A double-bit SRAM error is reported to its requester. -/
def execSramUe (addr : Nat) (s : State) : Host.Outcome State Fault Refusal :=
  onDev (decide (addr < 50331648)) (fun _ d => sramUe d addr) s

/-- OFF_BANK_ACCESS (R419). An access to an SRAM bank that is not ON is not served: a read returns all ones or faults the core, a write is dropped, and MB_OFF_ACC_CNT counts it. -/
def execOffBankAccess (addr : Nat) (s : State) : Host.Outcome State Fault Refusal :=
  onDev (decide (addr < 50331648)) (fun _ d => offBankAccess d addr) s

/-- TINKER_ROW_TEST (R424). Tinker starts testing the next row at its pace. -/
def execTinkerRowTest (s : State) : Host.Outcome State Fault Refusal :=
  onDev (true) (fun _ d => tkTest d) s

/-- TINKER_ROW_DONE (R422). A row test ends with restore and release. -/
def execTinkerRowDone (failed : Bool) (s : State) : Host.Outcome State Fault Refusal :=
  onDev (true) (fun _ d => tkDone d failed) s

/-- TK_NOP (R421). Tinker command NOP. -/
def execTkNop (s : State) : Host.Outcome State Fault Refusal :=
  onDev (true) (fun _ d => hostCmd d .tk 0x108 0 tkNop) s

/-- TEST_ROW (R424). Tinker command TEST_ROW queues an out-of-turn row test. -/
def execTestRow (b : Nat) (row : Nat) (s : State) : Host.Outcome State Fault Refusal :=
  onDev (decide (b < 32) && decide (row < 65536)) (fun _ d => hostCmd d .tk 0x108 (w32 (1 + 16 * b + 65536 * row)) (fun d => tkTestRow d b row)) s

/-- RESTART_PASS (R421). Tinker command RESTART_PASS restarts the test pass. -/
def execRestartPass (s : State) : Host.Outcome State Fault Refusal :=
  onDev (true) (fun _ d => hostCmd d .tk 0x108 2 tkRestart) s

/-- TINKER_BUFFER_UE (R426). An uncorrectable test-buffer error ends the test and puts Tinker in FAULT. -/
def execTinkerBufferUe (mask : Nat) (s : State) : Host.Outcome State Fault Refusal :=
  onDev (true) (fun _ d => tkBufferUe d mask) s

/-- NV_WRITE (R428). A write through the MRAM window to the user NV area is accepted. -/
def execNvWrite (off : Nat) (bs : List W8) (s : State) : Host.Outcome State Fault Refusal :=
  onDev (decide (off < 67108864)) (fun _ d => nvRow d off bs) s

/-- NV_LINE_WRITE (R428). The NV writer writes a merged 64-byte line to MRAM. -/
def execNvLineWrite (line : Nat) (s : State) : Host.Outcome State Fault Refusal :=
  onDev (decide (line < 1048576)) (fun _ d => nvLineWrite d line) s

end Sys2Proof.Machine
end

