-- ==== Sys2Proof/Machine/TimeEthernet.lean ====
section
/-! DEFINITION. The meanings of the commands of one family: time base and Ethernet ports. -/

namespace Sys2Proof.Machine

/-- TB_NOP (R367). Time-base command NOP. -/
def execTbNop (s : State) : Host.Outcome State Fault Refusal :=
  onDev (true) (fun _ d => hostCmd d .tb 0x120 0 tbNop) s

/-- TB_SET (R364). Time-base command SET loads TB_SET at the next t0. -/
def execTbSet (s : State) : Host.Outcome State Fault Refusal :=
  onDev (true) (fun _ d => hostCmd d .tb 0x120 1 tbSet) s

/-- TB_INC_WRITE (R355). The host writes TB_INC within its range. -/
def execTbIncWrite (val : W32) (s : State) : Host.Outcome State Fault Refusal :=
  onDev (true) (fun _ d => admitted d .tb 0x108 val (fun d => tbIncWrite d val)) s

/-- TB_SEL_WRITE (R363). A write of SEL switches the steering domain by a slew. -/
def execTbSelWrite (val : W32) (s : State) : Host.Outcome State Fault Refusal :=
  onDev (true) (fun _ d => admitted d .tb 0x110 val (fun d => tbCfgWrite d val)) s

/-- PTP_EVENT_FRAME (R357). A PTP event frame raises its port source and latches sequence information. -/
def execPtpEventFrame (e : Nat) (tx : Bool) (seq : Nat) (typ : Nat) (dn : Nat) (s : State) : Host.Outcome State Fault Refusal :=
  onDev (decide (e < 4) && decide (seq < 65536) && decide (typ < 16) && decide (dn < 256)) (fun _ d => onBus (fun d => ptpEvent d e tx seq typ dn) d) s

/-- PTP_MESSAGE_RECEIVE (R360). Supervisor firmware processes a PTP message and updates its domain servo. -/
def execPtpMessageReceive (k : Nat) (m : PtpMsg) (s : State) : Host.Outcome State Fault Refusal :=
  onDev (decide (k < 2)) (fun _ d => onBus (fun d => ptpMessage d k m) d) s

/-- ANNOUNCE_TIMEOUT (R361). An announce receipt timeout puts a domain in HOLDOVER. -/
def execAnnounceTimeout (k : Nat) (s : State) : Host.Outcome State Fault Refusal :=
  onDev (decide (k < 2)) (fun _ d => onBus (fun d => announceTimeout d k) d) s

/-- SYNC_TIMEOUT (R361). Four Sync intervals without a Sync put a domain in HOLDOVER. -/
def execSyncTimeout (k : Nat) (s : State) : Host.Outcome State Fault Refusal :=
  onDev (decide (k < 2)) (fun _ d => onBus (fun d => syncTimeout d k) d) s

/-- DOMAIN_AUTO_SWITCH (R362). After 1 s of HOLDOVER the other LOCKED domain is selected. -/
def execDomainAutoSwitch (s : State) : Host.Outcome State Fault Refusal :=
  onDev (true) (fun _ d => onBus domAutoSwitch d) s

/-- SLEW_DONE (R363). The remaining slew falls below 1 ns and SLEWING clears. -/
def execSlewDone (s : State) : Host.Outcome State Fault Refusal :=
  onDev (true) (fun _ d => slewDone d) s

/-- TRIM_SLEW_DONE (R30). CLK_TRIM_ACT reaches the requested CLK_TRIM after its 1 ppm/s ramp and TRIM_SLEW clears. -/
def execTrimSlewDone (s : State) : Host.Outcome State Fault Refusal :=
  onDev (true) (fun _ d => trimSlewDone d) s

/-- ETH_TX_POST (R370). Writing ETH_TQq_POST posts transmit frames. -/
def execEthTxPost (e : Nat) (q : Nat) (val : W32) (s : State) : Host.Outcome State Fault Refusal :=
  onDev (decide (e < 4) && decide (q < 4)) (fun _ d => admitted d (.eth e) (0x148 + 32 * q) val (fun d => ethPost d e q val)) s

/-- ETH_TX_COMPLETE (R370). A transmit frame completes with its STATUS. -/
def execEthTxComplete (e : Nat) (q : Nat) (overrun : Bool) (s : State) : Host.Outcome State Fault Refusal :=
  onDev (decide (e < 4) && decide (q < 4)) (fun _ d => onBus (fun d => ethTxComplete d e q overrun) d) s

/-- ETH_RX_FRAME (R370). A frame is received and delivered to a ring or taken by the module. -/
def execEthRxFrame (e : Nat) (bs : List W8) (bad : Bool) (s : State) : Host.Outcome State Fault Refusal :=
  onDev (decide (e < 4)) (fun _ d => onBus (fun d => ethRx d e bs bad) d) s

/-- ETH_RQ_ACK (R370). Writing ETH_RQr_ACK releases receive entries. -/
def execEthRqAck (e : Nat) (r : Nat) (val : W32) (s : State) : Host.Outcome State Fault Refusal :=
  onDev (decide (e < 4) && decide (r < 4)) (fun _ d => admitted d (.eth e) (0x1CC + 32 * r) val (fun d => ethRqAck d e r val)) s

/-- ETH_GCL_COMMIT (R372). ETH_GCL_COMMIT schedules the administrative gate list. -/
def execEthGclCommit (e : Nat) (s : State) : Host.Outcome State Fault Refusal :=
  onDev (decide (e < 4)) (fun _ d => hostCmd d (.eth e) 0x310 1 (fun d => gclCommit d e)) s

/-- GCL_CYCLE_START (R372). A Qbv cycle starts and a committed list may become operational. -/
def execGclCycleStart (e : Nat) (s : State) : Host.Outcome State Fault Refusal :=
  onDev (decide (e < 4)) (fun _ d => onBus (fun d => gclCycle d e) d) s

/-- GCL_ENTRY_CHANGE (R372). A gate control entry's interval ends and the next gate states apply. -/
def execGclEntryChange (e : Nat) (s : State) : Host.Outcome State Fault Refusal :=
  onDev (decide (e < 4)) (fun _ d => onBus (fun d => gclEntry d e) d) s

/-- ETH_LINK_CHANGE (R369). A port's link comes up or goes down. -/
def execEthLinkChange (e : Nat) (speed : Nat) (s : State) : Host.Outcome State Fault Refusal :=
  onDev (decide (e < 4) && decide (speed < 4)) (fun _ d => ethLinkChange d e speed) s

/-- CB_STREAM_RESET (R375). A stream without frames for the reset time is released. -/
def execCbStreamReset (e : Nat) (i : Nat) (s : State) : Host.Outcome State Fault Refusal :=
  onDev (decide (e < 4) && decide (i < 64)) (fun _ d => cbReset d e i) s

end Sys2Proof.Machine
end

