-- ==== Sys2Proof/Machine/TwinPair.lean ====
section
/-! DEFINITION. The meanings of the commands of one family: twin operation and Guyline. -/

namespace Sys2Proof.Machine

/-- BEAT_RECEIVE (R277). A Lantern BEAT frame arrives from the partner. -/
def execBeatReceive (b : TwRx TwBeat) (s : State) : Host.Outcome State Fault Refusal :=
  onDev (decide (b.head.lane < 2)) (fun _ d => laneFrame d b.head (fun d => beatReceive d b.body)) s

/-- LANTERN_FAILURE (R277). Four consecutive beat instants are missed on both lanes. -/
def execLanternFailure (s : State) : Host.Outcome State Fault Refusal :=
  onDev (true) (fun _ d => lanternFailure d) s

/-- INPUT_FRAME_RECEIVE (R265). The standby receives forwarded inputs and stages them for C1. -/
def execInputFrameReceive (n : TwRx Nat) (tt : Nat) (vals : List (W32 × Bool)) (s : State) : Host.Outcome State Fault Refusal :=
  onDev (decide (n.head.lane < 2)) (fun _ d => laneFrame d n.head (fun d => inputFrame d n.body tt vals)) s

/-- PLIALE_FRAME_RECEIVE (R266). The standby receives a forwarded Pliale reply. -/
def execPlialeFrameReceive (n : TwRx Nat) (seg : Nat) (k : Nat) (bs : List W8) (s : State) : Host.Outcome State Fault Refusal :=
  onDev (decide (seg < 16) && decide (k < 32) && decide (n.head.lane < 2)) (fun _ d => laneFrame d n.head (fun d => plialeFrame d n.body seg k bs)) s

/-- WRITES_FRAME_RECEIVE (R268). The standby receives a batch of pair-ordered writes to apply at C2. -/
def execWritesFrameReceive (n : TwRx Nat) (first : Nat) (ws : List (Nat × W32)) (s : State) : Host.Outcome State Fault Refusal :=
  onDev (decide (n.head.lane < 2)) (fun _ d => laneFrame d n.head (fun d => writesFrame d n.body first ws)) s

/-- FORWARD_MISS (R267). A forwarded frame is missing by its deadline; the standby uses its own values. -/
def execForwardMiss (s : State) : Host.Outcome State Fault Refusal :=
  onDev (true) (fun _ d => forwardMiss d (bp d + 1) (missKind d (bp d + 1))) s

/-- DIGEST_RECEIVE (R270). A partner's epoch digest arrives and is compared. -/
def execDigestReceive (epoch : TwRx Nat) (digest : Nat) (s : State) : Host.Outcome State Fault Refusal :=
  onDev (decide (epoch.head.lane < 2)) (fun _ d => laneFrame d epoch.head (fun d => digestReceive d epoch.body digest)) s

/-- CTRL_FRAME_RECEIVE (R286). A CTRL frame for sync, return or release arrives. -/
def execCtrlFrameReceive (kind : TwRx Nat) (s : State) : Host.Outcome State Fault Refusal :=
  onDev (decide (kind.body < 3) && decide (kind.head.lane < 2)) (fun _ d => laneFrame d kind.head (fun d => ctrlFrame d kind.body)) s

/-- IMAGE_FRAME_RECEIVE (R282). An IMAGE frame of the sync arrives. -/
def execImageFrameReceive (p : TwRx Page) (bank : Nat) (typ : Nat) (bs : List W8) (s : State) : Host.Outcome State Fault Refusal :=
  onDev (pageOk p.body && decide (bank < 2) && decide (typ < 8) && decide (p.head.lane < 2))
    (fun _ d => laneFrame d p.head (fun d => imageFrame d p.body bank typ bs)) s

/-- BASE_FRAME_RECEIVE (R283). A BASE chunk of the sync arrives and is CRC-checked. -/
def execBaseFrameReceive (chunk : TwRx Nat) (ok : Bool) (s : State) : Host.Outcome State Fault Refusal :=
  onDev (decide (chunk.head.lane < 2)) (fun _ d => laneFrame d chunk.head (fun d => baseFrame d chunk.body ok)) s

/-- BASE_INSTALLED (R283). Every base chunk has passed and the base is installed. -/
def execBaseInstalled (epoch : Nat) (base : Snap) (s : State) : Host.Outcome State Fault Refusal :=
  onDev (true) (fun v d => baseJoined v d epoch base) s

/-- CATCHUP_JOINED (R284). All regions catch up and the module runs in lockstep. -/
def execCatchupJoined (s : State) : Host.Outcome State Fault Refusal :=
  onDev (true) (fun _ d => catchupJoined d) s

/-- CATCHUP_TIMEOUT (R285). Catch-up does not join within 100 ms and the sync fails. -/
def execCatchupTimeout (s : State) : Host.Outcome State Fault Refusal :=
  onDev (true) (fun _ d => catchupTimeout d) s

/-- TIME_FRAME_RECEIVE (R366). A TIME frame lets the standby measure and correct its offset. -/
def execTimeFrameReceive (n : TwRx (Nat × W32)) (ns : Nat) (frac : Nat) (s : State) : Host.Outcome State Fault Refusal :=
  onDev (decide (n.head.lane < 2)) (fun _ d => laneFrame d n.head (fun d => timeFrame d n.body.1 ns frac n.body.2)) s

/-- LANE_TRAINED (R262). A twin lane completes training. -/
def execLaneTrained (n : Nat) (s : State) : Host.Outcome State Fault Refusal :=
  onDev (decide (n < 2)) (fun _ d => laneTrained d n) s

/-- LANE_AUTH_DONE (R262). A lane's authentication exchange ends, trusted or failed. -/
def execLaneAuthDone (n : Nat) (ok : Bool) (same : Bool) (s : State) : Host.Outcome State Fault Refusal :=
  onDev (decide (n < 2)) (fun _ d => laneAuthDone d n ok same) s

/-- AUTH_RETRY (R262). One second after a failed exchange the authentication is retried. -/
def execAuthRetry (n : Nat) (s : State) : Host.Outcome State Fault Refusal :=
  onDev (decide (n < 2)) (fun _ d => authRetry d n) s

/-- TWIN_LANE_DOWN (R264). A lane loses training or delivers no valid frame for 100 µs. -/
def execTwinLaneDown (n : Nat) (s : State) : Host.Outcome State Fault Refusal :=
  onDev (decide (n < 2)) (fun _ d => twinLaneDown d n) s

/-- SEIZE (R273). A module starts a Guyline seizure after the line has been idle for 3 µs. -/
def execSeize (s : State) : Host.Outcome State Fault Refusal :=
  onDev (true) (fun _ d => seize d) s

/-- SEIZURE_WON (R273). A module completes its code and starts its holding train. -/
def execSeizureWon (s : State) : Host.Outcome State Fault Refusal :=
  onDev (true) (fun _ d => seizureWon d) s

/-- SEIZURE_LOST (R273). A module reads dominant while sending recessive and stops. -/
def execSeizureLost (s : State) : Host.Outcome State Fault Refusal :=
  onDev (true) (fun _ d => seizureLost d) s

/-- HOLDER_DECODED (R274). Two consecutive valid train frames decode a holder. -/
def execHolderDecoded (code : Nat) (s : State) : Host.Outcome State Fault Refusal :=
  onDev (decide (code < 65536)) (fun _ d => holderDecoded d code) s

/-- HOLDER_LOST (R274). Every healthy wire stays recessive for 3 µs. -/
def execHolderLost (s : State) : Host.Outcome State Fault Refusal :=
  onDev (true) (fun _ d => holderLost d) s

/-- GUYLINE_WIRE_FAIL (R275). A Guyline wire fails its health rules. -/
def execGuylineWireFail (w : Nat) (s : State) : Host.Outcome State Fault Refusal :=
  onDev (decide (w < 2)) (fun _ d => wireFail d w) s

/-- GUYLINE_WIRE_HEALTHY (R275). A failed wire carries 1000 agreeing valid frames and is healthy again. -/
def execGuylineWireHealthy (w : Nat) (s : State) : Host.Outcome State Fault Refusal :=
  onDev (decide (w < 2)) (fun _ d => wireHealthy d w) s

/-- WITNESS_CHECK_END (R279). The witness check ends and the standby withdraws or becomes ORPHAN. -/
def execWitnessCheckEnd (s : State) : Host.Outcome State Fault Refusal :=
  onDev (true) (fun _ d => witnessEnd d) s

/-- AUTH_DISAGREE (R280). AUTH_A and AUTH_B differ for more than 2 µs; the train stops and the device enters Held. -/
def execAuthDisagree (a : Bool) (b : Bool) (s : State) : Host.Outcome State Fault Refusal :=
  onDev (true) (fun _ d => authDisagree d a b) s

/-- TW_NOP (R288). Twin command NOP. -/
def execTwNop (s : State) : Host.Outcome State Fault Refusal :=
  onDev (true) (fun _ d => hostCmd d .tw 0x104 0 twNop) s

/-- TW_RELEASE (R286). Twin command RELEASE offers authority to a qualified standby. -/
def execTwRelease (s : State) : Host.Outcome State Fault Refusal :=
  onDev (true) (fun _ d => hostCmd d .tw 0x104 1 twRelease) s

/-- TW_RESYNC (R285). Twin command RESYNC starts a sync. -/
def execTwResync (s : State) : Host.Outcome State Fault Refusal :=
  onDev (true) (fun _ d => hostCmd d .tw 0x104 2 twResync) s

/-- TW_CLEAR_HALT (R285). Twin command CLEAR_HALT clears SYNC_HALT. -/
def execTwClearHalt (s : State) : Host.Outcome State Fault Refusal :=
  onDev (true) (fun _ d => hostCmd d .tw 0x104 3 twClearHalt) s

/-- TW_RETURN_NOW (R286). Twin command RETURN_NOW asks for authority without the hold-off. -/
def execTwReturnNow (s : State) : Host.Outcome State Fault Refusal :=
  onDev (true) (fun _ d => hostCmd d .tw 0x104 4 twReturnNow) s

/-- HOLDOFF_EXPIRED (R286). The preferred unit's hold-off expires. -/
def execHoldoffExpired (s : State) : Host.Outcome State Fault Refusal :=
  onDev (true) (fun _ d => holdoffExpired d) s

/-- HANDOVER_START (R287). At BP h the old authority stops its train and the preferred unit seizes. -/
def execHandoverStart (s : State) : Host.Outcome State Fault Refusal :=
  onDev (true) (fun _ d => handoverAt d (bp d + 1)) s

/-- HANDOVER_TIMEOUT (R287). The preferred unit's train is not decoded by t0 + 8.0 µs; the old authority seizes again. -/
def execHandoverTimeout (s : State) : Host.Outcome State Fault Refusal :=
  onDev (true) (fun _ d => handoverTimeout d) s

/-- GL_NOP (R289). Guyline command NOP. -/
def execGlNop (s : State) : Host.Outcome State Fault Refusal :=
  onDev (true) (fun _ d => hostCmd d .gl 0x108 0 glNop) s

/-- GL_FORCE_SEIZE (R276). Guyline command FORCE_SEIZE forces a seizure with key 0x5EE5. -/
def execGlForceSeize (key : Nat) (s : State) : Host.Outcome State Fault Refusal :=
  onDev (decide (key < 65536)) (fun _ d => hostCmd d .gl 0x108 (w32 (1 + 65536 * key)) (fun d => glForce d key)) s

/-- GL_RETEST (R289). Guyline command RETEST clears wire health and repeats the wire test. -/
def execGlRetest (a : Bool) (b : Bool) (s : State) : Host.Outcome State Fault Refusal :=
  onDev (true) (fun _ d => hostCmd d .gl 0x108 2 (fun d => glRetest d a b)) s

end Sys2Proof.Machine
end

