-- ==== Sys2Proof/Machine/Dispatch.lean ====
section
/-! DEFINITION. One arm a command. -/

namespace Sys2Proof.Machine

def exec (i : Instr) (s : State) : Host.Outcome State Fault Refusal :=
  match i with
  | .basePeriod env => Sys2Proof.Machine.execBasePeriod env s
  | .scratchpadUe p off => Sys2Proof.Machine.execScratchpadUe p off s
  | .sigWindowWrite n val => Sys2Proof.Machine.execSigWindowWrite n val s
  | .pllLockLoss => Sys2Proof.Machine.execPllLockLoss s
  | .pllRelock us => Sys2Proof.Machine.execPllRelock us s
  | .pllRelockTimeout us => Sys2Proof.Machine.execPllRelockTimeout us s
  | .regionFault p code addr => Sys2Proof.Machine.execRegionFault p code addr s
  | .clkTrimWrite val => Sys2Proof.Machine.execClkTrimWrite val s
  | .flr => Sys2Proof.Machine.execFlr s
  | .endpointReset => Sys2Proof.Machine.execEndpointReset s
  | .linkDown => Sys2Proof.Machine.execLinkDown s
  | .linkUp rate width => Sys2Proof.Machine.execLinkUp rate width s
  | .registerWrite who addr be val => Sys2Proof.Machine.execRegisterWrite who addr be val s
  | .writeCrossingDone p => Sys2Proof.Machine.execWriteCrossingDone p s
  | .xdomTimeout p write => Sys2Proof.Machine.execXdomTimeout p write s
  | .keylockEngage p => Sys2Proof.Machine.execKeylockEngage p s
  | .keylockRelease p => Sys2Proof.Machine.execKeylockRelease p s
  | .ackWrite addr val => Sys2Proof.Machine.execAckWrite addr val s
  | .evtEnWrite p val => Sys2Proof.Machine.execEvtEnWrite p val s
  | .vectorEvaluation => Sys2Proof.Machine.execVectorEvaluation s
  | .msixMaskWrite kind vec on => Sys2Proof.Machine.execMsixMaskWrite kind vec on s
  | .vecDone val => Sys2Proof.Machine.execVecDone val s
  | .sweRaise val => Sys2Proof.Machine.execSweRaise val s
  | .idRingWrite val => Sys2Proof.Machine.execIdRingWrite val s
  | .blkCtrlRun p on => Sys2Proof.Machine.execBlkCtrlRun p on s
  | .blkCtrlSafeReq p on => Sys2Proof.Machine.execBlkCtrlSafeReq p on s
  | .laneNop l => Sys2Proof.Machine.execLaneNop l s
  | .laneLoad l => Sys2Proof.Machine.execLaneLoad l s
  | .laneVerifyDone l => Sys2Proof.Machine.execLaneVerifyDone l s
  | .laneUnload l => Sys2Proof.Machine.execLaneUnload l s
  | .laneStart l name => Sys2Proof.Machine.execLaneStart l name s
  | .lanePause l => Sys2Proof.Machine.execLanePause l s
  | .laneContinue l => Sys2Proof.Machine.execLaneContinue l s
  | .laneStop l => Sys2Proof.Machine.execLaneStop l s
  | .laneAbort l => Sys2Proof.Machine.execLaneAbort l s
  | .stepDurationEnd l => Sys2Proof.Machine.execStepDurationEnd l s
  | .waitTimeout l => Sys2Proof.Machine.execWaitTimeout l s
  | .schedArm l k pol => Sys2Proof.Machine.execSchedArm l k pol s
  | .schedDisarm l k pol => Sys2Proof.Machine.execSchedDisarm l k pol s
  | .schedSlotFire l k => Sys2Proof.Machine.execSchedSlotFire l k s
  | .actSigWrite l j => Sys2Proof.Machine.execActSigWrite l j s
  | .actAxisMove l j => Sys2Proof.Machine.execActAxisMove l j s
  | .actLogicEvent l j => Sys2Proof.Machine.execActLogicEvent l j s
  | .actArmSched l j => Sys2Proof.Machine.execActArmSched l j s
  | .actDisarmSched l j => Sys2Proof.Machine.execActDisarmSched l j s
  | .actCritical l j => Sys2Proof.Machine.execActCritical l j s
  | .ltGrpStart t => Sys2Proof.Machine.execLtGrpStart t s
  | .ltGrpStop t => Sys2Proof.Machine.execLtGrpStop t s
  | .coefWrite g sec r val => Sys2Proof.Machine.execCoefWrite g sec r val s
  | .loopRouteWrite g pub val => Sys2Proof.Machine.execLoopRouteWrite g pub val s
  | .supervisionTrip g => Sys2Proof.Machine.execSupervisionTrip g s
  | .learnBudgetReset g => Sys2Proof.Machine.execLearnBudgetReset g s
  | .driftScanEnd g => Sys2Proof.Machine.execDriftScanEnd g s
  | .resetLive g => Sys2Proof.Machine.execResetLive g s
  | .adopt g => Sys2Proof.Machine.execAdopt g s
  | .compBindWrite g val => Sys2Proof.Machine.execCompBindWrite g val s
  | .compSlotWrite t off val => Sys2Proof.Machine.execCompSlotWrite t off val s
  | .adcWindowStart k w0 => Sys2Proof.Machine.execAdcWindowStart k w0 s
  | .adcConversionDone k sample ovr ok => Sys2Proof.Machine.execAdcConversionDone k sample ovr ok s
  | .adcChannelStarved k n => Sys2Proof.Machine.execAdcChannelStarved k n s
  | .seqCommit k => Sys2Proof.Machine.execSeqCommit k s
  | .rangeSettleEnd k n => Sys2Proof.Machine.execRangeSettleEnd k n s
  | .calRotation k => Sys2Proof.Machine.execCalRotation k s
  | .sliceCalDone k res => Sys2Proof.Machine.execSliceCalDone k res s
  | .calStoreUe k => Sys2Proof.Machine.execCalStoreUe k s
  | .refSettle k => Sys2Proof.Machine.execRefSettle k s
  | .refLost k => Sys2Proof.Machine.execRefLost k s
  | .owPulseStart => Sys2Proof.Machine.execOwPulseStart s
  | .owPulseDecide => Sys2Proof.Machine.execOwPulseDecide s
  | .owPulseEnd => Sys2Proof.Machine.execOwPulseEnd s
  | .aoOtemp c => Sys2Proof.Machine.execAoOtemp c s
  | .aoIlimFault c => Sys2Proof.Machine.execAoIlimFault c s
  | .aoReadbackFault c => Sys2Proof.Machine.execAoReadbackFault c s
  | .dioInputEdge n lvl ts => Sys2Proof.Machine.execDioInputEdge n lvl ts s
  | .dioSchPush n lvl => Sys2Proof.Machine.execDioSchPush n lvl s
  | .dioSchFlush n => Sys2Proof.Machine.execDioSchFlush n s
  | .dioSchedSwitch n => Sys2Proof.Machine.execDioSchedSwitch n s
  | .dioUndercurrent n => Sys2Proof.Machine.execDioUndercurrent n s
  | .dioOtemp n => Sys2Proof.Machine.execDioOtemp n s
  | .dioIlimFault n => Sys2Proof.Machine.execDioIlimFault n s
  | .axNop a => Sys2Proof.Machine.execAxNop a s
  | .axMoveAbs a => Sys2Proof.Machine.execAxMoveAbs a s
  | .axMoveRel a => Sys2Proof.Machine.execAxMoveRel a s
  | .axUpdate a => Sys2Proof.Machine.execAxUpdate a s
  | .axJogPos a => Sys2Proof.Machine.execAxJogPos a s
  | .axJogNeg a => Sys2Proof.Machine.execAxJogNeg a s
  | .axStop a => Sys2Proof.Machine.execAxStop a s
  | .axEstop a => Sys2Proof.Machine.execAxEstop a s
  | .axHome a => Sys2Proof.Machine.execAxHome a s
  | .axGearEngage a => Sys2Proof.Machine.execAxGearEngage a s
  | .axGearArm a => Sys2Proof.Machine.execAxGearArm a s
  | .axGearRelease a => Sys2Proof.Machine.execAxGearRelease a s
  | .axSetPos a => Sys2Proof.Machine.execAxSetPos a s
  | .mtGrpStart m => Sys2Proof.Machine.execMtGrpStart m s
  | .mtGrpStop m => Sys2Proof.Machine.execMtGrpStop m s
  | .mtGrpGo m => Sys2Proof.Machine.execMtGrpGo m s
  | .axisProfileEnd a => Sys2Proof.Machine.execAxisProfileEnd a s
  | .axisStandstill a => Sys2Proof.Machine.execAxisStandstill a s
  | .switchDebounced a w on => Sys2Proof.Machine.execSwitchDebounced a w on s
  | .homeChatter a => Sys2Proof.Machine.execHomeChatter a s
  | .axisStall a => Sys2Proof.Machine.execAxisStall a s
  | .encQuadError e => Sys2Proof.Machine.execEncQuadError e s
  | .encIndex e pos ts => Sys2Proof.Machine.execEncIndex e pos ts s
  | .ssiFrame e raw good => Sys2Proof.Machine.execSsiFrame e raw good s
  | .lpNop p => Sys2Proof.Machine.execLpNop p s
  | .lpLoad p => Sys2Proof.Machine.execLpLoad p s
  | .lpVerifyDone p => Sys2Proof.Machine.execLpVerifyDone p s
  | .lpUnload p => Sys2Proof.Machine.execLpUnload p s
  | .lpStage p => Sys2Proof.Machine.execLpStage p s
  | .lpStageDone p => Sys2Proof.Machine.execLpStageDone p s
  | .lpUnstage p => Sys2Proof.Machine.execLpUnstage p s
  | .lpChange p drop => Sys2Proof.Machine.execLpChange p drop s
  | .lpCancel p => Sys2Proof.Machine.execLpCancel p s
  | .lpTrig p => Sys2Proof.Machine.execLpTrig p s
  | .changePoint p => Sys2Proof.Machine.execChangePoint p s
  | .forceSet p => Sys2Proof.Machine.execForceSet p s
  | .forceRemove p => Sys2Proof.Machine.execForceRemove p s
  | .forceClearAll p => Sys2Proof.Machine.execForceClearAll p s
  | .taskRelease p k => Sys2Proof.Machine.execTaskRelease p k s
  | .taskDeadline p k => Sys2Proof.Machine.execTaskDeadline p k s
  | .lpVarWrite p off val => Sys2Proof.Machine.execLpVarWrite p off val s
  | .lpMemoryUe p off => Sys2Proof.Machine.execLpMemoryUe p off s
  | .lgNop p => Sys2Proof.Machine.execLgNop p s
  | .lgLd p => Sys2Proof.Machine.execLgLd p s
  | .lgLdn p => Sys2Proof.Machine.execLgLdn p s
  | .lgAnd p => Sys2Proof.Machine.execLgAnd p s
  | .lgAndn p => Sys2Proof.Machine.execLgAndn p s
  | .lgOr p => Sys2Proof.Machine.execLgOr p s
  | .lgOrn p => Sys2Proof.Machine.execLgOrn p s
  | .lgXor p => Sys2Proof.Machine.execLgXor p s
  | .lgSt p => Sys2Proof.Machine.execLgSt p s
  | .lgStn p => Sys2Proof.Machine.execLgStn p s
  | .lgSet p => Sys2Proof.Machine.execLgSet p s
  | .lgRst p => Sys2Proof.Machine.execLgRst p s
  | .lgAndp p => Sys2Proof.Machine.execLgAndp p s
  | .lgOrp p => Sys2Proof.Machine.execLgOrp p s
  | .lgXorp p => Sys2Proof.Machine.execLgXorp p s
  | .lgPop p => Sys2Proof.Machine.execLgPop p s
  | .lgNot p => Sys2Proof.Machine.execLgNot p s
  | .lgRed p => Sys2Proof.Machine.execLgRed p s
  | .lgFed p => Sys2Proof.Machine.execLgFed p s
  | .lgTon p => Sys2Proof.Machine.execLgTon p s
  | .lgTof p => Sys2Proof.Machine.execLgTof p s
  | .lgTp p => Sys2Proof.Machine.execLgTp p s
  | .lgCtu p => Sys2Proof.Machine.execLgCtu p s
  | .lgCtd p => Sys2Proof.Machine.execLgCtd p s
  | .lgCrs p => Sys2Proof.Machine.execLgCrs p s
  | .lgCld p => Sys2Proof.Machine.execLgCld p s
  | .lgLpt p => Sys2Proof.Machine.execLgLpt p s
  | .lgLpv p => Sys2Proof.Machine.execLgLpv p s
  | .lgLdw p => Sys2Proof.Machine.execLgLdw p s
  | .lgStw p => Sys2Proof.Machine.execLgStw p s
  | .lgStwc p => Sys2Proof.Machine.execLgStwc p s
  | .lgAdd p => Sys2Proof.Machine.execLgAdd p s
  | .lgSub p => Sys2Proof.Machine.execLgSub p s
  | .lgMul p => Sys2Proof.Machine.execLgMul p s
  | .lgDiv p => Sys2Proof.Machine.execLgDiv p s
  | .lgAndw p => Sys2Proof.Machine.execLgAndw p s
  | .lgOrw p => Sys2Proof.Machine.execLgOrw p s
  | .lgXorw p => Sys2Proof.Machine.execLgXorw p s
  | .lgShl p => Sys2Proof.Machine.execLgShl p s
  | .lgShr p => Sys2Proof.Machine.execLgShr p s
  | .lgCeq p => Sys2Proof.Machine.execLgCeq p s
  | .lgCgt p => Sys2Proof.Machine.execLgCgt p s
  | .lgClt p => Sys2Proof.Machine.execLgClt p s
  | .lgLdx p => Sys2Proof.Machine.execLgLdx p s
  | .lgJmp p => Sys2Proof.Machine.execLgJmp p s
  | .lgJc p => Sys2Proof.Machine.execLgJc p s
  | .lgJnc p => Sys2Proof.Machine.execLgJnc p s
  | .lgTrig p => Sys2Proof.Machine.execLgTrig p s
  | .lgEnd p => Sys2Proof.Machine.execLgEnd p s
  | .safetyCycle so differ => Sys2Proof.Machine.execSafetyCycle so differ s
  | .safetyStatusCommit => Sys2Proof.Machine.execSafetyStatusCommit s
  | .safetyContactChange ix second c => Sys2Proof.Machine.execSafetyContactChange ix second c s
  | .discrepancyFault ix => Sys2Proof.Machine.execDiscrepancyFault ix s
  | .resetJam ix => Sys2Proof.Machine.execResetJam ix s
  | .outputLockout o sw => Sys2Proof.Machine.execOutputLockout o sw s
  | .darkTest o sw opened => Sys2Proof.Machine.execDarkTest o sw opened s
  | .offDelayEnd k => Sys2Proof.Machine.execOffDelayEnd k s
  | .mutingTimeout k => Sys2Proof.Machine.execMutingTimeout k s
  | .lockAuxDelayEnd k => Sys2Proof.Machine.execLockAuxDelayEnd k s
  | .channelSelfTestFail ch => Sys2Proof.Machine.execChannelSelfTestFail ch s
  | .safetyClockDeviation ch covered => Sys2Proof.Machine.execSafetyClockDeviation ch covered s
  | .safeFrameReceive net bs => Sys2Proof.Machine.execSafeFrameReceive net bs s
  | .connWatchdog c => Sys2Proof.Machine.execConnWatchdog c s
  | .networkMissing c => Sys2Proof.Machine.execNetworkMissing c s
  | .degradedTimeout c => Sys2Proof.Machine.execDegradedTimeout c s
  | .safeImgReceive n f img good => Sys2Proof.Machine.execSafeImgReceive n f img good s
  | .sfNop => Sys2Proof.Machine.execSfNop s
  | .sfUnlock => Sys2Proof.Machine.execSfUnlock s
  | .sfLock => Sys2Proof.Machine.execSfLock s
  | .sfLoad => Sys2Proof.Machine.execSfLoad s
  | .sfConfirm => Sys2Proof.Machine.execSfConfirm s
  | .sfDiscard => Sys2Proof.Machine.execSfDiscard s
  | .sfSetPw => Sys2Proof.Machine.execSfSetPw s
  | .confirmTimeout => Sys2Proof.Machine.execConfirmTimeout s
  | .unlockTimeout => Sys2Proof.Machine.execUnlockTimeout s
  | .beatReceive b => Sys2Proof.Machine.execBeatReceive b s
  | .lanternFailure => Sys2Proof.Machine.execLanternFailure s
  | .inputFrameReceive n tt vals => Sys2Proof.Machine.execInputFrameReceive n tt vals s
  | .plialeFrameReceive n seg k bs => Sys2Proof.Machine.execPlialeFrameReceive n seg k bs s
  | .writesFrameReceive n first ws => Sys2Proof.Machine.execWritesFrameReceive n first ws s
  | .forwardMiss => Sys2Proof.Machine.execForwardMiss s
  | .digestReceive epoch digest => Sys2Proof.Machine.execDigestReceive epoch digest s
  | .ctrlFrameReceive kind => Sys2Proof.Machine.execCtrlFrameReceive kind s
  | .imageFrameReceive p bank typ bs => Sys2Proof.Machine.execImageFrameReceive p bank typ bs s
  | .baseFrameReceive chunk ok => Sys2Proof.Machine.execBaseFrameReceive chunk ok s
  | .baseInstalled epoch base => Sys2Proof.Machine.execBaseInstalled epoch base s
  | .catchupJoined => Sys2Proof.Machine.execCatchupJoined s
  | .catchupTimeout => Sys2Proof.Machine.execCatchupTimeout s
  | .timeFrameReceive n ns frac => Sys2Proof.Machine.execTimeFrameReceive n ns frac s
  | .laneTrained n => Sys2Proof.Machine.execLaneTrained n s
  | .laneAuthDone n ok same => Sys2Proof.Machine.execLaneAuthDone n ok same s
  | .authRetry n => Sys2Proof.Machine.execAuthRetry n s
  | .twinLaneDown n => Sys2Proof.Machine.execTwinLaneDown n s
  | .seize => Sys2Proof.Machine.execSeize s
  | .seizureWon => Sys2Proof.Machine.execSeizureWon s
  | .seizureLost => Sys2Proof.Machine.execSeizureLost s
  | .holderDecoded code => Sys2Proof.Machine.execHolderDecoded code s
  | .holderLost => Sys2Proof.Machine.execHolderLost s
  | .guylineWireFail w => Sys2Proof.Machine.execGuylineWireFail w s
  | .guylineWireHealthy w => Sys2Proof.Machine.execGuylineWireHealthy w s
  | .witnessCheckEnd => Sys2Proof.Machine.execWitnessCheckEnd s
  | .authDisagree a b => Sys2Proof.Machine.execAuthDisagree a b s
  | .twNop => Sys2Proof.Machine.execTwNop s
  | .twRelease => Sys2Proof.Machine.execTwRelease s
  | .twResync => Sys2Proof.Machine.execTwResync s
  | .twClearHalt => Sys2Proof.Machine.execTwClearHalt s
  | .twReturnNow => Sys2Proof.Machine.execTwReturnNow s
  | .holdoffExpired => Sys2Proof.Machine.execHoldoffExpired s
  | .handoverStart => Sys2Proof.Machine.execHandoverStart s
  | .handoverTimeout => Sys2Proof.Machine.execHandoverTimeout s
  | .glNop => Sys2Proof.Machine.execGlNop s
  | .glForceSeize key => Sys2Proof.Machine.execGlForceSeize key s
  | .glRetest a b => Sys2Proof.Machine.execGlRetest a b s
  | .warmReset src => Sys2Proof.Machine.execWarmReset src s
  | .coldReset src => Sys2Proof.Machine.execColdReset src s
  | .supervisorWatchdog => Sys2Proof.Machine.execSupervisorWatchdog s
  | .servicePortReset => Sys2Proof.Machine.execServicePortReset s
  | .vinRise ka => Sys2Proof.Machine.execVinRise ka s
  | .bootComplete env => Sys2Proof.Machine.execBootComplete env s
  | .powerFailure => Sys2Proof.Machine.execPowerFailure s
  | .finalCommitDone => Sys2Proof.Machine.execFinalCommitDone s
  | .brownout => Sys2Proof.Machine.execBrownout s
  | .holdupSpent => Sys2Proof.Machine.execHoldupSpent s
  | .holdupOkSet => Sys2Proof.Machine.execHoldupOkSet s
  | .holdupLow => Sys2Proof.Machine.execHoldupLow s
  | .outputHoldExpired => Sys2Proof.Machine.execOutputHoldExpired s
  | .journalEpoch => Sys2Proof.Machine.execJournalEpoch s
  | .journalCommit => Sys2Proof.Machine.execJournalCommit s
  | .sbNop => Sys2Proof.Machine.execSbNop s
  | .forceCold => Sys2Proof.Machine.execForceCold s
  | .cancelCold => Sys2Proof.Machine.execCancelCold s
  | .plNop seg => Sys2Proof.Machine.execPlNop seg s
  | .plLoad seg => Sys2Proof.Machine.execPlLoad seg s
  | .plVerifyDone seg => Sys2Proof.Machine.execPlVerifyDone seg s
  | .plUnload seg => Sys2Proof.Machine.execPlUnload seg s
  | .plStart seg => Sys2Proof.Machine.execPlStart seg s
  | .plStop seg => Sys2Proof.Machine.execPlStop seg s
  | .plLcmdNop seg => Sys2Proof.Machine.execPlLcmdNop seg s
  | .plRestart seg => Sys2Proof.Machine.execPlRestart seg s
  | .plAcyc seg => Sys2Proof.Machine.execPlAcyc seg s
  | .plResync seg k => Sys2Proof.Machine.execPlResync seg k s
  | .plialeCycleStart seg => Sys2Proof.Machine.execPlialeCycleStart seg s
  | .pollSend seg k => Sys2Proof.Machine.execPollSend seg k s
  | .replyReceive seg j good bs => Sys2Proof.Machine.execReplyReceive seg j good bs s
  | .acycWindowEnd seg => Sys2Proof.Machine.execAcycWindowEnd seg s
  | .measRspReceive seg k dt => Sys2Proof.Machine.execMeasRspReceive seg k dt s
  | .acycRspReceive seg ofs good bs => Sys2Proof.Machine.execAcycRspReceive seg ofs good bs s
  | .acycResponseTimeout seg => Sys2Proof.Machine.execAcycResponseTimeout seg s
  | .foreignSync seg => Sys2Proof.Machine.execForeignSync seg s
  | .plCollision seg sync k => Sys2Proof.Machine.execPlCollision seg sync k s
  | .lineActivity seg => Sys2Proof.Machine.execLineActivity seg s
  | .listenSilenceExpired seg => Sys2Proof.Machine.execListenSilenceExpired seg s
  | .plSchedUe seg => Sys2Proof.Machine.execPlSchedUe seg s
  | .cxNop x => Sys2Proof.Machine.execCxNop x s
  | .cxStart x => Sys2Proof.Machine.execCxStart x s
  | .cxStop x => Sys2Proof.Machine.execCxStop x s
  | .cxRecover x => Sys2Proof.Machine.execCxRecover x s
  | .cxFlush x q => Sys2Proof.Machine.execCxFlush x q s
  | .cxTxPost x q val => Sys2Proof.Machine.execCxTxPost x q val s
  | .cxTxStart x => Sys2Proof.Machine.execCxTxStart x s
  | .cxTxComplete x code => Sys2Proof.Machine.execCxTxComplete x code s
  | .cxRxFrame x fr => Sys2Proof.Machine.execCxRxFrame x fr s
  | .cxBusError x eight => Sys2Proof.Machine.execCxBusError x eight s
  | .cxRqAck x r val => Sys2Proof.Machine.execCxRqAck x r val s
  | .cxIntegrated x => Sys2Proof.Machine.execCxIntegrated x s
  | .cxRecovered x => Sys2Proof.Machine.execCxRecovered x s
  | .tbNop => Sys2Proof.Machine.execTbNop s
  | .tbSet => Sys2Proof.Machine.execTbSet s
  | .tbIncWrite val => Sys2Proof.Machine.execTbIncWrite val s
  | .tbSelWrite val => Sys2Proof.Machine.execTbSelWrite val s
  | .ptpEventFrame e tx seq typ dn => Sys2Proof.Machine.execPtpEventFrame e tx seq typ dn s
  | .ptpMessageReceive k m => Sys2Proof.Machine.execPtpMessageReceive k m s
  | .announceTimeout k => Sys2Proof.Machine.execAnnounceTimeout k s
  | .syncTimeout k => Sys2Proof.Machine.execSyncTimeout k s
  | .domainAutoSwitch => Sys2Proof.Machine.execDomainAutoSwitch s
  | .slewDone => Sys2Proof.Machine.execSlewDone s
  | .ethTxPost e q val => Sys2Proof.Machine.execEthTxPost e q val s
  | .ethTxComplete e q overrun => Sys2Proof.Machine.execEthTxComplete e q overrun s
  | .ethRxFrame e bs bad => Sys2Proof.Machine.execEthRxFrame e bs bad s
  | .ethRqAck e r val => Sys2Proof.Machine.execEthRqAck e r val s
  | .ethGclCommit e => Sys2Proof.Machine.execEthGclCommit e s
  | .gclCycleStart e => Sys2Proof.Machine.execGclCycleStart e s
  | .gclEntryChange e => Sys2Proof.Machine.execGclEntryChange e s
  | .ethLinkChange e speed => Sys2Proof.Machine.execEthLinkChange e speed s
  | .cbStreamReset e ix => Sys2Proof.Machine.execCbStreamReset e ix s
  | .daybookReport typ src pay => Sys2Proof.Machine.execDaybookReport typ src pay s
  | .recordCommit => Sys2Proof.Machine.execRecordCommit s
  | .tokenGain src => Sys2Proof.Machine.execTokenGain src s
  | .dbNop => Sys2Proof.Machine.execDbNop s
  | .dbClear => Sys2Proof.Machine.execDbClear s
  | .clearExecute => Sys2Proof.Machine.execClearExecute s
  | .dbAppPut who => Sys2Proof.Machine.execDbAppPut who s
  | .trNop => Sys2Proof.Machine.execTrNop s
  | .trStart => Sys2Proof.Machine.execTrStart s
  | .trStop => Sys2Proof.Machine.execTrStop s
  | .trTrigger => Sys2Proof.Machine.execTrTrigger s
  | .trUnfreeze => Sys2Proof.Machine.execTrUnfreeze s
  | .trXfer => Sys2Proof.Machine.execTrXfer s
  | .xferDone => Sys2Proof.Machine.execXferDone s
  | .trResetRing => Sys2Proof.Machine.execTrResetRing s
  | .freezeEnd => Sys2Proof.Machine.execFreezeEnd s
  | .trRelease val => Sys2Proof.Machine.execTrRelease val s
  | .trDmaCopy n => Sys2Proof.Machine.execTrDmaCopy n s
  | .yield c => Sys2Proof.Machine.execYield c s
  | .block c => Sys2Proof.Machine.execBlock c s
  | .exit c => Sys2Proof.Machine.execExit c s
  | .dispatch c => Sys2Proof.Machine.execDispatch c s
  | .wake c t => Sys2Proof.Machine.execWake c t s
  | .create c t => Sys2Proof.Machine.execCreate c t s
  | .suspend c t => Sys2Proof.Machine.execSuspend c t s
  | .resume c t => Sys2Proof.Machine.execResume c t s
  | .destroy c t => Sys2Proof.Machine.execDestroy c t s
  | .wakeToken => Sys2Proof.Machine.execWakeToken s
  | .patienceExpired t => Sys2Proof.Machine.execPatienceExpired t s
  | .descriptorWrite t w val => Sys2Proof.Machine.execDescriptorWrite t w val s
  | .coreWatchdog c => Sys2Proof.Machine.execCoreWatchdog c s
  | .coreFault c => Sys2Proof.Machine.execCoreFault c s
  | .coreNop c => Sys2Proof.Machine.execCoreNop c s
  | .coreReset c => Sys2Proof.Machine.execCoreReset c s
  | .coreHalt c => Sys2Proof.Machine.execCoreHalt c s
  | .coreStart c => Sys2Proof.Machine.execCoreStart c s
  | .tallyUe => Sys2Proof.Machine.execTallyUe s
  | .mbPowerRequest b val => Sys2Proof.Machine.execMbPowerRequest b val s
  | .mbPowerDone b => Sys2Proof.Machine.execMbPowerDone b s
  | .sramCe addr => Sys2Proof.Machine.execSramCe addr s
  | .sramUe addr => Sys2Proof.Machine.execSramUe addr s
  | .tinkerRowTest => Sys2Proof.Machine.execTinkerRowTest s
  | .tinkerRowDone failed => Sys2Proof.Machine.execTinkerRowDone failed s
  | .tkNop => Sys2Proof.Machine.execTkNop s
  | .testRow b row => Sys2Proof.Machine.execTestRow b row s
  | .restartPass => Sys2Proof.Machine.execRestartPass s
  | .tinkerBufferUe mask => Sys2Proof.Machine.execTinkerBufferUe mask s
  | .nvWrite off bs => Sys2Proof.Machine.execNvWrite off bs s
  | .nvLineWrite line => Sys2Proof.Machine.execNvLineWrite line s
  | .idNop => Sys2Proof.Machine.execIdNop s
  | .attest => Sys2Proof.Machine.execAttest s
  | .attestDone => Sys2Proof.Machine.execAttestDone s
  | .ownerSet => Sys2Proof.Machine.execOwnerSet s
  | .keyAdd k => Sys2Proof.Machine.execKeyAdd k s
  | .keyDel k => Sys2Proof.Machine.execKeyDel k s
  | .pwrNop => Sys2Proof.Machine.execPwrNop s
  | .pwrWarm key => Sys2Proof.Machine.execPwrWarm key s
  | .pwrCold key => Sys2Proof.Machine.execPwrCold key s
  | .pwrInstall => Sys2Proof.Machine.execPwrInstall s
  | .installDone bs readOk => Sys2Proof.Machine.execInstallDone bs readOk s
  | .kaStoreLost => Sys2Proof.Machine.execKaStoreLost s
  | .keepalivePersist => Sys2Proof.Machine.execKeepalivePersist s
  | .insertion => Sys2Proof.Machine.execInsertion s
  | .removal => Sys2Proof.Machine.execRemoval s
  | .healthSample smp => Sys2Proof.Machine.execHealthSample smp s
  | .holdupMeasure esr cap energy => Sys2Proof.Machine.execHoldupMeasure esr cap energy s
  | .eolUpdate smp => Sys2Proof.Machine.execEolUpdate smp s
  | .wearLedgerSave => Sys2Proof.Machine.execWearLedgerSave s
  | .wlNop => Sys2Proof.Machine.execWlNop s
  | .wlSet => Sys2Proof.Machine.execWlSet s
  | .wlClearCount => Sys2Proof.Machine.execWlClearCount s
  | .vfldLow mv => Sys2Proof.Machine.execVfldLow mv s
  | .vfldRestored mv => Sys2Proof.Machine.execVfldRestored mv s
  | .acyclicWindowStart seg => Sys2Proof.Machine.execAcyclicWindowStart seg s
  | .trimSlewDone => Sys2Proof.Machine.execTrimSlewDone s
  | .vinLow low => Sys2Proof.Machine.execVinLow low s
  | .offBankAccess addr => Sys2Proof.Machine.execOffBankAccess addr s
  | .d3hotTransition on => Sys2Proof.Machine.execD3hotTransition on s
  | .scratchpadCe p => Sys2Proof.Machine.execScratchpadCe p s

end Sys2Proof.Machine
end

