-- ==== Sys2Proof/WellFormed.lean ====
section
/-! DEFINITION. The operands that the hardware can spell: every number lies in the range of what it names, every page exists.
A command outside these ranges faults. -/

namespace Sys2Proof

open Sys2Proof.Machine

/-- A command whose operands the hardware can spell. -/
def Instr.wf : Instr → Bool
  | .basePeriod _ => true
  | .scratchpadUe p _ => pageOk p
  | .sigWindowWrite n _ => decide (n < 32768)
  | .pllLockLoss => true
  | .pllRelock _ => true
  | .pllRelockTimeout _ => true
  | .regionFault p code addr => pageOk p && decide (code < 65536) && decide (addr < 2 ^ 28)
  | .clkTrimWrite _ => true
  | .flr => true
  | .endpointReset => true
  | .linkDown => true
  | .linkUp rate width => decide (1 ≤ rate) && decide (rate ≤ 5) && (width == 1 || width == 2 || width == 4)
  | .registerWrite who addr be _ => decide (who < 9) && decide (addr < 2 ^ 28 + 2 ^ 32) && decide (be < 256)
  | .writeCrossingDone p => pageOk p
  | .xdomTimeout p _ => pageOk p
  | .keylockEngage p => pageOk p
  | .keylockRelease p => pageOk p
  | .ackWrite addr _ => decide (addr < 2 ^ 28)
  | .evtEnWrite p _ => pageOk p
  | .vectorEvaluation => true
  | .msixMaskWrite kind vec _ => decide (kind < 4) && decide (vec < 256)
  | .vecDone _ => true
  | .sweRaise _ => true
  | .idRingWrite _ => true
  | .blkCtrlRun p _ => pageOk p
  | .blkCtrlSafeReq p _ => pageOk p
  | .laneNop l => decide (l < 16)
  | .laneLoad l => decide (l < 16)
  | .laneVerifyDone l => decide (l < 16)
  | .laneUnload l => decide (l < 16)
  | .laneStart l name => decide (l < 16) && decide (name < 65536)
  | .lanePause l => decide (l < 16)
  | .laneContinue l => decide (l < 16)
  | .laneStop l => decide (l < 16)
  | .laneAbort l => decide (l < 16)
  | .stepDurationEnd l => decide (l < 16)
  | .waitTimeout l => decide (l < 16)
  | .schedArm l k _ => decide (l < 16) && decide (k < 32)
  | .schedDisarm l k _ => decide (l < 16) && decide (k < 32)
  | .schedSlotFire l k => decide (l < 16) && decide (k < 32)
  | .actSigWrite l _ => decide (l < 16)
  | .actAxisMove l _ => decide (l < 16)
  | .actLogicEvent l _ => decide (l < 16)
  | .actArmSched l _ => decide (l < 16)
  | .actDisarmSched l _ => decide (l < 16)
  | .actCritical l _ => decide (l < 16)
  | .ltGrpStart t => decide (t < 64)
  | .ltGrpStop t => decide (t < 64)
  | .coefWrite g sec r _ => decide (g < 2048) && decide (sec < 8) && decide (r < 8)
  | .loopRouteWrite g _ _ => decide (g < 2048)
  | .supervisionTrip g => decide (g < 2048)
  | .learnBudgetReset g => decide (g < 2048)
  | .driftScanEnd g => decide (g < 2048)
  | .resetLive g => decide (g < 2048)
  | .adopt g => decide (g < 2048)
  | .compBindWrite g _ => decide (g < 2048)
  | .compSlotWrite t off _ => decide (t < 64) && decide (0x9000 ≤ off) && decide (off < 0xF000) && decide (off % 4 = 0)
  | .adcWindowStart k _ => decide (k < 16)
  | .adcConversionDone k _ _ _ => decide (k < 16)
  | .adcChannelStarved k n => decide (k < 16) && decide (n < 16)
  | .seqCommit k => decide (k < 16)
  | .rangeSettleEnd k n => decide (k < 16) && decide (n < 16)
  | .calRotation k => decide (k < 16)
  | .sliceCalDone k _ => decide (k < 16)
  | .calStoreUe k => decide (k < 16)
  | .refSettle k => decide (k < 16)
  | .refLost k => decide (k < 16)
  | .owPulseStart => true
  | .owPulseDecide => true
  | .owPulseEnd => true
  | .aoOtemp c => decide (c < 64)
  | .aoIlimFault c => decide (c < 64)
  | .aoReadbackFault c => decide (c < 64)
  | .dioInputEdge n _ _ => decide (n < 128)
  | .dioSchPush n _ => decide (n < 128)
  | .dioSchFlush n => decide (n < 128)
  | .dioSchedSwitch n => decide (n < 128)
  | .dioUndercurrent n => decide (n < 128)
  | .dioOtemp n => decide (n < 128)
  | .dioIlimFault n => decide (n < 128)
  | .axNop a => decide (a < 64)
  | .axMoveAbs a => decide (a < 64)
  | .axMoveRel a => decide (a < 64)
  | .axUpdate a => decide (a < 64)
  | .axJogPos a => decide (a < 64)
  | .axJogNeg a => decide (a < 64)
  | .axStop a => decide (a < 64)
  | .axEstop a => decide (a < 64)
  | .axHome a => decide (a < 64)
  | .axGearEngage a => decide (a < 64)
  | .axGearArm a => decide (a < 64)
  | .axGearRelease a => decide (a < 64)
  | .axSetPos a => decide (a < 64)
  | .mtGrpStart m => decide (m < 8)
  | .mtGrpStop m => decide (m < 8)
  | .mtGrpGo m => decide (m < 8)
  | .axisProfileEnd a => decide (a < 64)
  | .axisStandstill a => decide (a < 64)
  | .switchDebounced a w _ => decide (a < 64) && decide (w < 3)
  | .homeChatter a => decide (a < 64)
  | .axisStall a => decide (a < 64)
  | .encQuadError e => decide (e < 32)
  | .encIndex e _ _ => decide (e < 32)
  | .ssiFrame e _ _ => decide (e < 32)
  | .lpNop p => decide (p < 4)
  | .lpLoad p => decide (p < 4)
  | .lpVerifyDone p => decide (p < 4)
  | .lpUnload p => decide (p < 4)
  | .lpStage p => decide (p < 4)
  | .lpStageDone p => decide (p < 4)
  | .lpUnstage p => decide (p < 4)
  | .lpChange p _ => decide (p < 4)
  | .lpCancel p => decide (p < 4)
  | .lpTrig p => decide (p < 4)
  | .changePoint p => decide (p < 4)
  | .forceSet p => decide (p < 4)
  | .forceRemove p => decide (p < 4)
  | .forceClearAll p => decide (p < 4)
  | .taskRelease p k => decide (p < 4) && decide (k < 16)
  | .taskDeadline p k => decide (p < 4) && decide (k < 16)
  | .lpVarWrite p off _ => decide (p < 4) && decide (off < 0x400000) && decide (off % 4 = 0)
  | .lpMemoryUe p _ => decide (p < 4)
  | .lgNop p => decide (p < 4)
  | .lgLd p => decide (p < 4)
  | .lgLdn p => decide (p < 4)
  | .lgAnd p => decide (p < 4)
  | .lgAndn p => decide (p < 4)
  | .lgOr p => decide (p < 4)
  | .lgOrn p => decide (p < 4)
  | .lgXor p => decide (p < 4)
  | .lgSt p => decide (p < 4)
  | .lgStn p => decide (p < 4)
  | .lgSet p => decide (p < 4)
  | .lgRst p => decide (p < 4)
  | .lgAndp p => decide (p < 4)
  | .lgOrp p => decide (p < 4)
  | .lgXorp p => decide (p < 4)
  | .lgPop p => decide (p < 4)
  | .lgNot p => decide (p < 4)
  | .lgRed p => decide (p < 4)
  | .lgFed p => decide (p < 4)
  | .lgTon p => decide (p < 4)
  | .lgTof p => decide (p < 4)
  | .lgTp p => decide (p < 4)
  | .lgCtu p => decide (p < 4)
  | .lgCtd p => decide (p < 4)
  | .lgCrs p => decide (p < 4)
  | .lgCld p => decide (p < 4)
  | .lgLpt p => decide (p < 4)
  | .lgLpv p => decide (p < 4)
  | .lgLdw p => decide (p < 4)
  | .lgStw p => decide (p < 4)
  | .lgStwc p => decide (p < 4)
  | .lgAdd p => decide (p < 4)
  | .lgSub p => decide (p < 4)
  | .lgMul p => decide (p < 4)
  | .lgDiv p => decide (p < 4)
  | .lgAndw p => decide (p < 4)
  | .lgOrw p => decide (p < 4)
  | .lgXorw p => decide (p < 4)
  | .lgShl p => decide (p < 4)
  | .lgShr p => decide (p < 4)
  | .lgCeq p => decide (p < 4)
  | .lgCgt p => decide (p < 4)
  | .lgClt p => decide (p < 4)
  | .lgLdx p => decide (p < 4)
  | .lgJmp p => decide (p < 4)
  | .lgJc p => decide (p < 4)
  | .lgJnc p => decide (p < 4)
  | .lgTrig p => decide (p < 4)
  | .lgEnd p => decide (p < 4)
  | .safetyCycle _ _ => true
  | .safetyStatusCommit => true
  | .safetyContactChange i _ c => decide (i < 16) && decide (c.channels < 4) && decide (c.sample < 100)
  | .discrepancyFault i => decide (i < 16)
  | .resetJam i => decide (i < 16)
  | .outputLockout o sw => decide (o < 8) && decide (sw < 2)
  | .darkTest o sw _ => decide (o < 8) && decide (sw < 2)
  | .offDelayEnd k => decide (k < 64)
  | .mutingTimeout k => decide (k < 64)
  | .lockAuxDelayEnd k => decide (k < 64)
  | .channelSelfTestFail ch => decide (ch < 2)
  | .safetyClockDeviation ch _ => decide (ch < 2)
  | .safeFrameReceive net _ => decide (net < 2)
  | .connWatchdog c => decide (c < 32)
  | .networkMissing c => decide (c < 32)
  | .degradedTimeout c => decide (c < 32)
  | .safeImgReceive n f _ _ => decide (f < 2) && decide (n.head.lane < 2)
  | .sfNop => true
  | .sfUnlock => true
  | .sfLock => true
  | .sfLoad => true
  | .sfConfirm => true
  | .sfDiscard => true
  | .sfSetPw => true
  | .confirmTimeout => true
  | .unlockTimeout => true
  | .beatReceive b => decide (b.head.lane < 2)
  | .lanternFailure => true
  | .inputFrameReceive n _ _ => decide (n.head.lane < 2)
  | .plialeFrameReceive n seg k _ => decide (seg < 16) && decide (k < 32) && decide (n.head.lane < 2)
  | .writesFrameReceive n _ _ => decide (n.head.lane < 2)
  | .forwardMiss => true
  | .digestReceive epoch _ => decide (epoch.head.lane < 2)
  | .ctrlFrameReceive kind => decide (kind.body < 3) && decide (kind.head.lane < 2)
  | .imageFrameReceive p bank typ _ => pageOk p.body && decide (bank < 2) && decide (typ < 8) && decide (p.head.lane < 2)
  | .baseFrameReceive chunk _ => decide (chunk.head.lane < 2)
  | .baseInstalled _ _ => true
  | .catchupJoined => true
  | .catchupTimeout => true
  | .timeFrameReceive n _ _ => decide (n.head.lane < 2)
  | .laneTrained n => decide (n < 2)
  | .laneAuthDone n _ _ => decide (n < 2)
  | .authRetry n => decide (n < 2)
  | .twinLaneDown n => decide (n < 2)
  | .seize => true
  | .seizureWon => true
  | .seizureLost => true
  | .holderDecoded code => decide (code < 65536)
  | .holderLost => true
  | .guylineWireFail w => decide (w < 2)
  | .guylineWireHealthy w => decide (w < 2)
  | .witnessCheckEnd => true
  | .authDisagree _ _ => true
  | .twNop => true
  | .twRelease => true
  | .twResync => true
  | .twClearHalt => true
  | .twReturnNow => true
  | .holdoffExpired => true
  | .handoverStart => true
  | .handoverTimeout => true
  | .glNop => true
  | .glForceSeize key => decide (key < 65536)
  | .glRetest _ _ => true
  | .warmReset src => [1, 2, 3, 5].contains src
  | .coldReset src => [4, 6].contains src
  | .supervisorWatchdog => true
  | .servicePortReset => true
  | .vinRise _ => true
  | .bootComplete _ => true
  | .powerFailure => true
  | .finalCommitDone => true
  | .brownout => true
  | .holdupSpent => true
  | .holdupOkSet => true
  | .holdupLow => true
  | .outputHoldExpired => true
  | .journalEpoch => true
  | .journalCommit => true
  | .sbNop => true
  | .forceCold => true
  | .cancelCold => true
  | .plNop seg => decide (seg < 16)
  | .plLoad seg => decide (seg < 16)
  | .plVerifyDone seg => decide (seg < 16)
  | .plUnload seg => decide (seg < 16)
  | .plStart seg => decide (seg < 16)
  | .plStop seg => decide (seg < 16)
  | .plLcmdNop seg => decide (seg < 16)
  | .plRestart seg => decide (seg < 16)
  | .plAcyc seg => decide (seg < 16)
  | .plResync seg k => decide (seg < 16) && decide (k < 32)
  | .plialeCycleStart seg => decide (seg < 16)
  | .pollSend seg k => decide (seg < 16) && decide (k < 32)
  | .replyReceive seg _ _ _ => decide (seg < 16)
  | .acycWindowEnd seg => decide (seg < 16)
  | .measRspReceive seg k _ => decide (seg < 16) && decide (k < 32)
  | .acycRspReceive seg _ _ _ => decide (seg < 16)
  | .acycResponseTimeout seg => decide (seg < 16)
  | .foreignSync seg => decide (seg < 16)
  | .plCollision seg _ k => decide (seg < 16) && decide (k < 32)
  | .lineActivity seg => decide (seg < 16)
  | .listenSilenceExpired seg => decide (seg < 16)
  | .plSchedUe seg => decide (seg < 16)
  | .cxNop x => decide (x < 8)
  | .cxStart x => decide (x < 8)
  | .cxStop x => decide (x < 8)
  | .cxRecover x => decide (x < 8)
  | .cxFlush x q => decide (x < 8) && decide (q < 4)
  | .cxTxPost x q _ => decide (x < 8) && decide (q < 4)
  | .cxTxStart x => decide (x < 8)
  | .cxTxComplete x code => decide (x < 8) && decide (code < 8)
  | .cxRxFrame x _ => decide (x < 8)
  | .cxBusError x _ => decide (x < 8)
  | .cxRqAck x r _ => decide (x < 8) && decide (r < 4)
  | .cxIntegrated x => decide (x < 8)
  | .cxRecovered x => decide (x < 8)
  | .tbNop => true
  | .tbSet => true
  | .tbIncWrite _ => true
  | .tbSelWrite _ => true
  | .ptpEventFrame e _ seq typ dn => decide (e < 4) && decide (seq < 65536) && decide (typ < 16) && decide (dn < 256)
  | .ptpMessageReceive k _ => decide (k < 2)
  | .announceTimeout k => decide (k < 2)
  | .syncTimeout k => decide (k < 2)
  | .domainAutoSwitch => true
  | .slewDone => true
  | .ethTxPost e q _ => decide (e < 4) && decide (q < 4)
  | .ethTxComplete e q _ => decide (e < 4) && decide (q < 4)
  | .ethRxFrame e _ _ => decide (e < 4)
  | .ethRqAck e r _ => decide (e < 4) && decide (r < 4)
  | .ethGclCommit e => decide (e < 4)
  | .gclCycleStart e => decide (e < 4)
  | .gclEntryChange e => decide (e < 4)
  | .ethLinkChange e speed => decide (e < 4) && decide (speed < 4)
  | .cbStreamReset e i => decide (e < 4) && decide (i < 64)
  | .daybookReport typ src _ => decide (typ < 65536) && decide (src < 4096)
  | .recordCommit => true
  | .tokenGain src => decide (src < 4096)
  | .dbNop => true
  | .dbClear => true
  | .clearExecute => true
  | .dbAppPut who => decide (who < 9)
  | .trNop => true
  | .trStart => true
  | .trStop => true
  | .trTrigger => true
  | .trUnfreeze => true
  | .trXfer => true
  | .xferDone => true
  | .trResetRing => true
  | .freezeEnd => true
  | .trRelease _ => true
  | .trDmaCopy _ => true
  | .yield c => decide (c < 8)
  | .block c => decide (c < 8)
  | .exit c => decide (c < 8)
  | .dispatch c => decide (c < 8)
  | .wake c _ => decide (c < 8)
  | .create c _ => decide (c < 8)
  | .suspend c _ => decide (c < 8)
  | .resume c _ => decide (c < 8)
  | .destroy c _ => decide (c < 8)
  | .wakeToken => true
  | .patienceExpired t => decide (t < 4096)
  | .descriptorWrite t w _ => decide (t < 4096) && decide (w < 8)
  | .coreWatchdog c => decide (c < 8)
  | .coreFault c => decide (c < 8)
  | .coreNop c => decide (c < 8)
  | .coreReset c => decide (c < 8)
  | .coreHalt c => decide (c < 8)
  | .coreStart c => decide (c < 8)
  | .tallyUe => true
  | .mbPowerRequest b _ => decide (b < 32)
  | .mbPowerDone b => decide (b < 32)
  | .sramCe addr => decide (addr < 50331648)
  | .sramUe addr => decide (addr < 50331648)
  | .tinkerRowTest => true
  | .tinkerRowDone _ => true
  | .tkNop => true
  | .testRow b row => decide (b < 32) && decide (row < 65536)
  | .restartPass => true
  | .tinkerBufferUe _ => true
  | .nvWrite off _ => decide (off < 67108864)
  | .nvLineWrite line => decide (line < 1048576)
  | .idNop => true
  | .attest => true
  | .attestDone => true
  | .ownerSet => true
  | .keyAdd k => decide (k < 16)
  | .keyDel k => decide (k < 16)
  | .pwrNop => true
  | .pwrWarm key => decide (key < 65536)
  | .pwrCold key => decide (key < 65536)
  | .pwrInstall => true
  | .installDone _ _ => true
  | .kaStoreLost => true
  | .keepalivePersist => true
  | .insertion => true
  | .removal => true
  | .healthSample _ => true
  | .holdupMeasure _ _ _ => true
  | .eolUpdate _ => true
  | .wearLedgerSave => true
  | .wlNop => true
  | .wlSet => true
  | .wlClearCount => true
  | .vfldLow _ => true
  | .vfldRestored _ => true
  | .acyclicWindowStart seg => decide (seg < 16)
  | .trimSlewDone => true
  | .vinLow _ => true
  | .offBankAccess addr => decide (addr < 50331648)
  | .d3hotTransition _ => true
  | .scratchpadCe p => pageOk p

end Sys2Proof
end

