-- ==== Sys2Proof/Safety.lean ====
section
/-! DEFINITION. The terms in which claims about the machine are made: a command that completes, what admits a command of a page,
the device as such a command finds it, and the founding area's own invariant. -/

namespace Sys2Proof.Machine

/-- A command completes from a state: exec answers a next state that keeps the vault and the queue, and its device has the
property. -/
def Completes (c : Instr) (s : State) (post : Dev → Prop) : Prop :=
  ∃ d, exec c s = .next { s with dev := d } ∧ post d

/-- A command of a page is admitted and takes effect at once (R48, R49, R51, R55, R99): the page answers, no write of it is under way,
no lock stands over the register, the write takes no place in a pair's queue, and no earlier one waits before it. -/
def admits (d : Dev) (p : Page) (off : Nat) : Bool :=
  responds d p && !busy d p && (!locked d p || lockExempt p off) && !(pairOrdered p off && pairEn d) && !inLine d p off

/-- The device as an admitted command finds it: its command register written, reserved bits as 0 (R8). -/
def issued (d : Dev) (p : Page) (off : Nat) (v : W32) : Dev := wr d (pageBase p + off) (v &&& wpBits p off)

/-- The page, the offset of the register and the value that a command writes, for a command that is a write of one register of a page:
such a command is admitted, put into a queue or turned away as any write is (R48, R49, R51, R55, R99, R284). -/
def hostPage : Instr → Option (Page × Nat × W32)
  | .clkTrimWrite val => some (.clk, 0x108, val)
  | .vecDone val => some (.evr, 0x100, val)
  | .sweRaise val => some (.evr, 0x104, val)
  | .idRingWrite val => some (.id, 0x110, val)
  | .laneNop l => some (.sq l, 0x100, 0)
  | .laneLoad l => some (.sq l, 0x100, 1)
  | .laneUnload l => some (.sq l, 0x100, 2)
  | .laneStart l name => some (.sq l, 0x100, w32 (3 + 65536 * name))
  | .lanePause l => some (.sq l, 0x100, 4)
  | .laneContinue l => some (.sq l, 0x100, 5)
  | .laneStop l => some (.sq l, 0x100, 6)
  | .laneAbort l => some (.sq l, 0x100, 7)
  | .schedArm l k pol => some (.sq l, 0x208 + 16 * k, w32 (1 + 2 * b2n pol))
  | .schedDisarm l k pol => some (.sq l, 0x208 + 16 * k, w32 (2 * b2n pol))
  | .ltGrpStart t => some (.lt t, 0x120, 1)
  | .ltGrpStop t => some (.lt t, 0x120, 2)
  | .coefWrite g sec r val => some (.lc g, 0x200 + 0x20 * sec + 4 * r, val)
  | .loopRouteWrite g pub val => some (.lc g, if pub then LC_PUB g - lcBase g else LC_OUT_DST g - lcBase g, val)
  | .resetLive g => some (.lc g, 0x1EC, 1)
  | .adopt g => some (.lc g, 0x1EC, 2)
  | .compBindWrite g val => some (.lc g, 0x1A8, val)
  | .compSlotWrite t off val => some (.lt t, off, val)
  | .seqCommit k => some (.ac k, 0x10C, 1)
  | .dioSchPush n lvl => some (.dio (n / 8), 0x214 + 0x40 * (n % 8), w32 (1 + 2 * b2n lvl))
  | .dioSchFlush n => some (.dio (n / 8), 0x214 + 0x40 * (n % 8), 4)
  | .axNop a => some (.ax a, 0x100, 0)
  | .axMoveAbs a => some (.ax a, 0x100, 1)
  | .axMoveRel a => some (.ax a, 0x100, 2)
  | .axUpdate a => some (.ax a, 0x100, 3)
  | .axJogPos a => some (.ax a, 0x100, 4)
  | .axJogNeg a => some (.ax a, 0x100, 5)
  | .axStop a => some (.ax a, 0x100, 6)
  | .axEstop a => some (.ax a, 0x100, 7)
  | .axHome a => some (.ax a, 0x100, 8)
  | .axGearEngage a => some (.ax a, 0x100, 9)
  | .axGearArm a => some (.ax a, 0x100, 10)
  | .axGearRelease a => some (.ax a, 0x100, 11)
  | .axSetPos a => some (.ax a, 0x100, 12)
  | .mtGrpStart m => some (.mt m, 0x118, 1)
  | .mtGrpStop m => some (.mt m, 0x118, 2)
  | .mtGrpGo m => some (.mt m, 0x118, 3)
  | .lpNop p => some (.lp p, 0x100, 0)
  | .lpLoad p => some (.lp p, 0x100, 1)
  | .lpUnload p => some (.lp p, 0x100, 2)
  | .lpStage p => some (.lp p, 0x100, 3)
  | .lpUnstage p => some (.lp p, 0x100, 4)
  | .lpChange p drop => some (.lp p, 0x100, w32 (5 + 256 * b2n drop))
  | .lpCancel p => some (.lp p, 0x100, 6)
  | .lpTrig p => some (.lp p, 0x100, 7)
  | .forceSet p => some (.lp p, 0x144, 1)
  | .forceRemove p => some (.lp p, 0x144, 2)
  | .forceClearAll p => some (.lp p, 0x144, 3)
  | .sfNop => some (.sfa, 0x104, 0)
  | .sfUnlock => some (.sfa, 0x104, 1)
  | .sfLock => some (.sfa, 0x104, 2)
  | .sfLoad => some (.sfa, 0x104, 3)
  | .sfConfirm => some (.sfa, 0x104, 4)
  | .sfDiscard => some (.sfa, 0x104, 5)
  | .sfSetPw => some (.sfa, 0x104, 6)
  | .twNop => some (.tw, 0x104, 0)
  | .twRelease => some (.tw, 0x104, 1)
  | .twResync => some (.tw, 0x104, 2)
  | .twClearHalt => some (.tw, 0x104, 3)
  | .twReturnNow => some (.tw, 0x104, 4)
  | .glNop => some (.gl, 0x108, 0)
  | .glForceSeize key => some (.gl, 0x108, w32 (1 + 65536 * key))
  | .glRetest _ _ => some (.gl, 0x108, 2)
  | .sbNop => some (.sb, 0x108, 0)
  | .forceCold => some (.sb, 0x108, 1)
  | .cancelCold => some (.sb, 0x108, 2)
  | .plNop seg => some (.pl seg, 0x104, 0)
  | .plLoad seg => some (.pl seg, 0x104, 1)
  | .plUnload seg => some (.pl seg, 0x104, 2)
  | .plStart seg => some (.pl seg, 0x104, 3)
  | .plStop seg => some (.pl seg, 0x104, 4)
  | .plLcmdNop seg => some (.pl seg, 0x108, 0)
  | .plRestart seg => some (.pl seg, 0x108, 1)
  | .plAcyc seg => some (.pl seg, 0x108, 2)
  | .plResync seg k => some (.pl seg, 0x108, w32 (3 + 256 * k))
  | .cxNop x => some (.cx x, 0x10C, 0)
  | .cxStart x => some (.cx x, 0x10C, 1)
  | .cxStop x => some (.cx x, 0x10C, 2)
  | .cxRecover x => some (.cx x, 0x10C, 3)
  | .cxFlush x q => some (.cx x, 0x10C, w32 (4 + 256 * q))
  | .cxTxPost x q val => some (.cx x, 0x148 + 32 * q, val)
  | .cxRqAck x r val => some (.cx x, 0x1CC + 32 * r, val)
  | .tbNop => some (.tb, 0x120, 0)
  | .tbSet => some (.tb, 0x120, 1)
  | .tbIncWrite val => some (.tb, 0x108, val)
  | .tbSelWrite val => some (.tb, 0x110, val)
  | .ethTxPost e q val => some (.eth e, 0x148 + 32 * q, val)
  | .ethRqAck e r val => some (.eth e, 0x1CC + 32 * r, val)
  | .ethGclCommit e => some (.eth e, 0x310, 1)
  | .dbNop => some (.db, 0x140, 0)
  | .dbClear => some (.db, 0x140, 1)
  | .dbAppPut _ => some (.db, 0x140, 2)
  | .trNop => some (.tr, 0x104, 0)
  | .trStart => some (.tr, 0x104, 1)
  | .trStop => some (.tr, 0x104, 2)
  | .trTrigger => some (.tr, 0x104, 3)
  | .trUnfreeze => some (.tr, 0x104, 4)
  | .trXfer => some (.tr, 0x104, 5)
  | .trResetRing => some (.tr, 0x104, 6)
  | .trRelease val => some (.tr, 0x120, val)
  | .descriptorWrite t w val => some (.tl, 0x10000 + 32 * t + 4 * w, val)
  | .coreNop c => some (.tl, 0x10C, w32 c)
  | .coreReset c => some (.tl, 0x10C, w32 (c + 16))
  | .coreHalt c => some (.tl, 0x10C, w32 (c + 32))
  | .coreStart c => some (.tl, 0x10C, w32 (c + 48))
  | .mbPowerRequest b val => some (.mb b, 0x100, val)
  | .tkNop => some (.tk, 0x108, 0)
  | .testRow b row => some (.tk, 0x108, w32 (1 + 16 * b + 65536 * row))
  | .restartPass => some (.tk, 0x108, 2)
  | .idNop => some (.id, 0x200, 0)
  | .attest => some (.id, 0x200, 1)
  | .ownerSet => some (.id, 0x200, 2)
  | .keyAdd k => some (.id, 0x200, w32 (3 + 256 * k))
  | .keyDel k => some (.id, 0x200, w32 (4 + 256 * k))
  | .pwrNop => some (.pwr, 0x104, 0)
  | .pwrWarm key => some (.pwr, 0x104, w32 (1 + 65536 * key))
  | .pwrCold key => some (.pwr, 0x104, w32 (2 + 65536 * key))
  | .pwrInstall => some (.pwr, 0x104, 3)
  | .wlNop => some (.hlth, 0x18C, 0)
  | .wlSet => some (.hlth, 0x18C, 1)
  | .wlClearCount => some (.hlth, 0x18C, 2)
  | _ => none

/-- The registers that a report may change: the Daybook's suppression counter, and the trace's freeze registers and trigger
counter (R385 to R387, R402, R403). -/
def reportReg (a : Nat) : Bool := a == DB_SUP_CNT || (decide (TR_FRZ_INFO ≤ a) && decide (a < TR_TRIG_ACK))

/-- Nothing has changed from d to e but that reports may have been taken: the recorder's staging and suppression states, the
trace's freeze, and their registers. -/
def Recorded (d e : Dev) : Prop :=
  e = { d with regs := e.regs, db := e.db, tr := e.tr } ∧ ∀ a, reportReg a = false → rd e a = rd d a

/-- A twin frame arrives (R262): pairing is on, the lane is trusted, tag and length hold, and its counter is greater than the lane's
latest. -/
def Arrives (d : Dev) (h : TwHead) : Prop :=
  twRuns d = true ∧ laneUp d h.lane = true ∧ h.good = true ∧ ∀ c, (if h.lane = 0 then d.tw.ctr0 else d.tw.ctr1) = some c → c < h.ctr

/-- A twin frame on a trusted lane is discarded (R262): its tag or length fails, or its counter is not greater. -/
def Discarded (d : Dev) (h : TwHead) : Prop :=
  twRuns d = true ∧ laneUp d h.lane = true ∧ (h.good = false ∨ ∃ c, (if h.lane = 0 then d.tw.ctr0 else d.tw.ctr1) = some c ∧ h.ctr ≤ c)

/-- The device with the counter of a frame that has arrived noted. -/
def noted (d : Dev) (h : TwHead) : Dev := setTw d (if h.lane = 0 then { d.tw with ctr0 := some h.ctr } else { d.tw with ctr1 := some h.ctr })

/-- Records that lie end to end from one offset to another. -/
def chained : Nat → List DbRec → Nat → Bool
  | o, [], h => o == h
  | o, r :: t, h => r.off == o && chained (o + r.bytes.length) t h

/-- The last four bytes of a record hold the CRC of the rest (Table 15-3). -/
def sealedRec (r : DbRec) : Bool :=
  leNat (r.bytes.drop (r.bytes.length - 4)) == crc32c (r.bytes.take (r.bytes.length - 4))

/-- The founding area (R379): its records lie end to end from 0x40 to the founding head, each with its CRC, and the head leaves
room for the end of the area. -/
def Vault.sound (v : Vault) : Prop :=
  chained 0x40 v.founding v.fndHead = true ∧ v.founding.all sealedRec = true ∧ v.fndHead + 4 ≤ fndEnd

/-- The context in which processor p executes the instruction word w of its instance t: address and cycles are counted first
(R217). -/
def logicCtx (d : Dev) (p : Nat) (t : TInst) (w : W32) : LCtx :=
  ⟨p, d, { lpOf d p with at_ := (lpOf d p).at_ + switchCost (lpOf d p) t + opCycles (opcodeOf w), current := some t.k },
    { t with pc := t.pc + 1, cyc := t.cyc + opCycles (opcodeOf w) }, t.pc⟩

/-- An instruction word w of instance t of processor p has been executed, and left t' in its place: the processor's memories,
slots and flags and everything outside the processor that a program can read stand as before. -/
def LogicStep (d e : Dev) (p : Nat) (w : W32) (t t' : TInst) : Prop :=
  lpOf e p = { (logicCtx d p t w).x with insts := (lpOf d p).insts.map (fun u => if u.k = t.k then t' else u) }
    ∧ (∀ q, q ≠ p → lpOf e q = lpOf d q) ∧ e.sig = d.sig ∧ e.stage2 = d.stage2 ∧ e.shared = d.shared ∧ e.trigs = d.trigs

/-- No block of the Loop, Logic and Host regions holds anything: lanes, axes, cells, processors, segments, CAN channels, Ethernet ports
and the signal table are as after a reset (Table 11-2). -/
def Blanked (d : Dev) : Prop :=
  d.lanes = [] ∧ d.axes = [] ∧ d.cells = [] ∧ d.lps = [] ∧ d.pls = [] ∧ d.cxs = [] ∧ d.eths = [] ∧ d.sig = [] ∧ d.attr = []

/-- What a warm reset from source src makes of d (R291, R292, R308): a boot of the stronger kind, blank blocks, safety channels,
encoders and the journal's commits kept, the registers that a warm reset keeps; a hold of the outputs, where none of its exceptions stands. -/
def WarmlyReset (src : Nat) (d e : Dev) : Prop :=
  e.power.phase = .boot ∧ e.power.fail = .no ∧ (e.power.kind, e.power.src) = startOf d .warm src ∧ Blanked e
    ∧ e.sf = { d.sf with unlocked := false } ∧ e.encs = d.encs ∧ e.jn = { d.jn with draining := none, due := false, shadow := none }
    ∧ e.role = (if pairEn d then .syncing else .solo)
    ∧ (∀ a, a < dbBase → a ≠ PWR_INST_RES → a ≠ OH_EXP_CNT → rd e a = if warmKept a then rd d a else resetOf a)
    ∧ ((src ≠ 3 ∧ d.power.lockLost = none ∧ d.oh.holding = false ∧ d.power.phase ≠ .boot ∧ ¬(d.power.phase = .on ∧ (d.power.fail = .draining ∨ d.power.fail = .done))
        ∧ holdTime d ≠ 0) → e.oh.holding = true ∧ e.oh.expired = false ∧ e.oh.src = src)

/-- What a cold reset from source src makes of d (R291): a cold boot, blank blocks, step counters, encoders, SRAM and trace ring
cleared, no hold; of the safety channels what MRAM holds, the journal's commits, and the registers that a cold reset keeps. -/
def ColdlyReset (src : Nat) (d e : Dev) : Prop :=
  e.power.phase = .boot ∧ e.power.fail = .no ∧ e.power.kind = .cold ∧ e.power.src = src ∧ Blanked e
    ∧ e.stps = [] ∧ e.encs = [] ∧ e.sram = [] ∧ e.ring = [] ∧ e.oh.holding = false
    ∧ e.sf = sfStored d.sf ∧ e.jn = { d.jn with draining := none, due := false, shadow := none } ∧ e.role = (if pairEn d then .syncing else .solo)
    ∧ ∀ a, a < dbBase → (a < hlthBase ∨ hlthBase + 0x1000 ≤ a) → a ≠ PWR_INST_RES → a ≠ OH_EXP_CNT → rd e a = if coldKept a then rd d a else resetOf a

/-- What the end of the hold-up energy makes of d (R291, R292, R307): Keep-alive, blank blocks, outputs unpowered; of the safety channels
what MRAM holds, the journal's commits, and the registers that MRAM and the keep-alive domain hold. -/
def PowerLost (d e : Dev) : Prop :=
  e.power.phase = .keepAlive ∧ (e.power.kind, e.power.src) = startOf d .vin 0 ∧ e.power.holdupOk = false ∧ Blanked e
    ∧ e.stps = [] ∧ e.encs = [] ∧ e.sram = [] ∧ e.ring = [] ∧ e.oh = oh0
    ∧ e.sf = sfStored d.sf ∧ e.jn = { d.jn with draining := none, due := false, shadow := none } ∧ e.role = (if pairEn d then .syncing else .solo)
    ∧ ∀ a, a < dbBase → (a < hlthBase ∨ hlthBase + 0x1000 ≤ a) → a ≠ PWR_INST_RES → rd e a = if lastingReg a then rd d a else resetOf a

/-- A command of page p has been refused: its code stands in ERR_CODE with the address of the register in ERR_ADDR, and nothing else has
changed (R47, R51). -/
def Refused (p : Page) (code addr : Nat) (d e : Dev) : Prop :=
  (∃ r, e = { d with regs := r }) ∧ rdN e (pageBase p + ERR_CODE) % 65536 = code ∧ rd e (pageBase p + ERR_ADDR) = w32 addr
    ∧ ∀ a, a ≠ pageBase p + ERR_CODE → a ≠ pageBase p + ERR_ADDR → rd e a = rd d a

/-- A register of no lane, cell, axis, field channel or Ethernet port: a page of the device, a tile's own registers, or a page from
the safety I/O page on. -/
def quietReg (a : Nat) : Bool :=
  decide (a < 0x80000) || (decide (0x100000 ≤ a) && decide (a < 0x580000) && decide (a % 0x10000 < 0x1000))
    || (decide (0x680000 ≤ a) && !(decide (0x870000 ≤ a) && decide (a < 0x880000)))

/-- No block is at work: the device is SOLO and unpaired, its base periods run, no register of a lane, cell, axis, field channel or
Ethernet port has been written, and nothing of a block, a bus, the time base's corrections or the trace is under way. -/
def quiet (d : Dev) : Bool :=
  clocked d && d.power.fail == .no && d.role == .solo && !pairEn d
    && (tkeys d.regs).all quietReg
    && d.lanes.isEmpty && d.axes.isEmpty && d.stps.isEmpty && d.encs.isEmpty && d.lps.isEmpty && d.trigs.isEmpty && d.cells.isEmpty
    && d.cores.isEmpty && d.aos.isEmpty && d.dios.isEmpty && d.pls.isEmpty && d.eths.isEmpty && d.wear.isEmpty && d.cfgq.isEmpty
    && !d.tl.fault && d.tw.frames.isEmpty && !d.tb.set && d.tb.pairStep.isNone && d.tb.slew.isNone && d.tb.pairSlew.isNone
    && d.tr.state == .stopped

/-- The writes that put every input entry of a segment's slots to its safe value (R326, R333). -/
def segSafe (x : Pl) (safe : Bool) : List SigW := (plEnts x).flatMap (fun e => (inEnts e).map (fun n => ⟨n, e.safe, safe⟩))

/-- Nothing has changed from d to e but segment seg's own state, the registers as, and the writes ws staged for C1. -/
def OnlySeg (seg : Nat) (as : List Nat) (ws : List SigW) (d e : Dev) : Prop :=
  e = { d with pls := e.pls, regs := e.regs, stage1 := d.stage1 ++ ws } ∧ (∀ r, r ≠ seg → plOf e r = plOf d r) ∧ ∀ a, a ∉ as → rd e a = rd d a

/-- An address of SRAM that lies in a transmit or receive ring of message bus channel x. -/
def inRings (d : Dev) (x a : Nat) : Prop :=
  (∃ q, q < 4 ∧ rdN d (CX_TQ_BASE x q) ≤ a ∧ a < rdN d (CX_TQ_BASE x q) + tqLen d x q * tqStride d x q)
    ∨ ∃ r, r < 4 ∧ rdN d (CX_RQ_BASE x r) ≤ a ∧ a < rdN d (CX_RQ_BASE x r) + 64 * strideOf (rd d (CX_RQ_CFG x r))

/-- Nothing has changed from d to e but the state of message bus channel x, the registers as, its rings in SRAM, and reports taken. -/
def OnlyCx (x : Nat) (as : List Nat) (d e : Dev) : Prop :=
  e = { d with regs := e.regs, cxs := e.cxs, sram := e.sram, poison := e.poison, db := e.db, tr := e.tr, free := e.free }
    ∧ (∀ y, y ≠ x → cxOf e y = cxOf d y) ∧ (∀ a, a ∉ as → reportReg a = false → rd e a = rd d a) ∧ ∀ a, ¬inRings d x a → mrd e.sram a = mrd d.sram a

/-- The registers that the completions of channel x move: DONE and LAST of its queues. -/
def cxDones (x : Nat) : List Nat := (List.range 4).flatMap (fun q => [CX_TQ_DONE x q, CX_TQ_LAST x q])
/-- The registers that a reception of channel x moves. -/
def cxRxCounts (x : Nat) : List Nat := CX_NOMATCH_CNT x :: (List.range 4).flatMap (fun r => [CX_RQ_CNT x r, CX_RQ_OVF_CNT x r])

/-- From d to e, n q of the requests of each queue q of channel x have completed with a code (R346, R347). -/
def Completed (x code : Nat) (n : Nat → Nat) (d e : Dev) : Prop :=
  OnlyCx x (cxDones x) d e ∧ cxOf e x = cxOf d x
    ∧ ∀ q, q < 4 → rd e (CX_TQ_DONE x q) = rd d (CX_TQ_DONE x q) + w32 (n q) ∧ rd e (CX_TQ_LAST x q) = if n q = 0 then rd d (CX_TQ_LAST x q) else w32 code

/-- Channel x as m has it, with every outstanding request completed where it cannot send (R344, R347). -/
def Drained (x : Nat) (m e : Dev) : Prop :=
  match cxDead m x with
  | some code => Completed x code (tqOut m x) m e
  | none => e = m

/-- Nothing has changed from d to e but the time base, the gates that a step of TB_NS holds, the registers as, and reports taken. -/
def OnlyTime (as : List Nat) (d e : Dev) : Prop :=
  e = { d with regs := e.regs, tb := e.tb, eths := e.eths, db := e.db, tr := e.tr } ∧ ∀ a, a ∉ as → reportReg a = false → rd e a = rd d a

/-- TB_INC holds the sum of the nominal increment, the frequency part and the phase part, within its limits (R355, R356). -/
def TbFormed (e : Dev) : Prop := rdN e TB_INC = (clampI 0x04FFAE15 0x050051EB (incNominal + e.tb.fpart + e.tb.phase)).toNat

/-- From d to e the time base has begun to slew to domain k (R363): what is left is its offset, at SLEW_MAX towards it; towards a domain in
HOLDOVER, or with nothing left, there is no phase part. -/
def SlewsTo (k : Nat) (d e : Dev) : Prop :=
  if domHold d k = true ∨ domOfs d k = 0 then e.tb = { d.tb with slew := none, pairSlew := none, phase := 0 }
  else e.tb = { d.tb with slew := some (domOfs d k * oneNs), pairSlew := none, phase := if domOfs d k < 0 then -phaseMax d else phaseMax d }

/-- An address of SRAM that lies in a transmit or receive ring of Ethernet port n. -/
def inEthRings (d : Dev) (n a : Nat) : Prop :=
  (∃ q, q < 4 ∧ rdN d (ETH_TQ_BASE n q) ≤ a ∧ a < rdN d (ETH_TQ_BASE n q) + etqLen d n q * 2048)
    ∨ ∃ r, r < 4 ∧ rdN d (ETH_RQ_BASE n r) ≤ a ∧ a < rdN d (ETH_RQ_BASE n r) + 64 * 2048

/-- Nothing has changed from d to e but the state of Ethernet port n, the registers as, and its rings in SRAM. -/
def OnlyEth (n : Nat) (as : List Nat) (d e : Dev) : Prop :=
  e = { d with regs := e.regs, eths := e.eths, sram := e.sram, poison := e.poison }
    ∧ (∀ m, m ≠ n → ethOf e m = ethOf d m) ∧ (∀ a, a ∉ as → rd e a = rd d a) ∧ ∀ a, ¬inEthRings d n a → mrd e.sram a = mrd d.sram a

/-- From m to e, the entries at the head of transmit ring q of port n that complete at once have completed (R370): none is left there, but
where more than a ring's worth were outstanding. -/
def EthDrained (n q : Nat) (m e : Dev) : Prop :=
  OnlyEth n [ETH_TQ_DONE n q] m e ∧ ethOf e n = ethOf m n
    ∧ ∃ k, rd e (ETH_TQ_DONE n q) = rd m (ETH_TQ_DONE n q) + w32 k ∧ (etqOut e n q = 0 ∨ etqDead e n q = none ∨ k = 256)

/-- From m to e, the head entry of transmit ring q of port n has completed with a status, and what completes at once behind it (R370). -/
def EthCompleted (n q status : Nat) (m e : Dev) : Prop :=
  ∃ h, OnlyEth n [ETH_TQ_DONE n q] m h ∧ ethOf h n = ethOf m n ∧ rd h (ETH_TQ_DONE n q) = rd m (ETH_TQ_DONE n q) + 1
    ∧ sramNum h (etqHead m n q + 4) 2 = status ∧ EthDrained n q h e

/-- A frame of octets bs has come to receive ring r of port n (R370): dropped where the ring is off, counted where it is too long or the ring
is full, else the next entry holds its length, the owner bit and the octets. -/
def EthDelivered (n r : Nat) (bs : List W8) (m e : Dev) : Prop :=
  if rdBit m (ETH_RQ_CFG n r) 0 = false then e = m
  else if 2032 < bs.length then e = bump m (ETH_ERR_CNT n)
  else if rd m (ETH_RQ_CNT n r) - rd m (ETH_RQ_ACK n r) = 64 then e = bump m (ETH_RQ_OVF_CNT n r)
  else OnlyEth n [ETH_RQ_CNT n r] m e ∧ ethOf e n = ethOf m n ∧ rd e (ETH_RQ_CNT n r) = rd m (ETH_RQ_CNT n r) + 1
    ∧ (sramOk m (rdN m (ETH_RQ_BASE n r) + rdN m (ETH_RQ_CNT n r) % 64 * 2048) (16 + bs.length) = true →
      ∀ i, i < 16 + bs.length → mrd e.sram (rdN m (ETH_RQ_BASE n r) + rdN m (ETH_RQ_CNT n r) % 64 * 2048 + i)
        = (leBytes 2 bs.length ++ [0, 128] ++ leBytes 12 0 ++ bs).getD i 0)

/-- Nothing has changed from d to e but the recorder and the registers as. -/
def OnlyDb (as : List Nat) (d e : Dev) : Prop := e = { d with regs := e.regs, db := e.db } ∧ ∀ a, a ∉ as → rd e a = rd d a

/-- A report of a type, severity, source and payload as it stands at its report instant (R382, R365). -/
def bodyNow (d : Dev) (typ sev src : Nat) (pay : List W32) : DbBody :=
  { typ := typ, sev := sev, src := src, opt := optMs d % 2 ^ 40, pcc := pcc d % 2 ^ 24, wall := if rdBit d TB_STAT 2 then some (tbNs d) else none, pay := pay, part := none }

/-- The bucket of a source after a report of a severity has passed it (R386). -/
def tokenTaken (d : Dev) (src sev : Nat) : Tab Nat := if bypasses d src sev then d.db.spent else tset 0 d.db.spent src (tget 0 d.db.spent src + 1)

/-- The registers that the closing of the open packets moves. -/
def packetRegs (d : Dev) : List Nat := [TR_WR_POS, TR_WR_POS + 4, TR_RD_POS, TR_RD_POS + 4, TR_OVWR_CNT, TR_DROP_CNT] ++ (tkeys d.tr.opens).map TR_LST_SEQ

/-- Nothing has changed from d to e but the trace, its ring and the registers as. -/
def OnlyTrace (as : List Nat) (d e : Dev) : Prop := e = { d with regs := e.regs, tr := e.tr, ring := e.ring } ∧ ∀ a, a ∉ as → rd e a = rd d a

/-- A freeze has ended from d to e (R403): open packets closed, TR_FRZ_END at the write position, FROZEN. -/
def Frozen (d e : Dev) : Prop := e.tr.state = .frozen ∧ e.tr.opens = [] ∧ rd64 e TR_FRZ_END = rd64 e TR_WR_POS ∧ e.tr.protect = d.tr.protect

/-- Nothing has changed from d to e but thread descriptors and core registers of Tally. -/
def OnlyThreads (d e : Dev) : Prop := e = { d with tl := { d.tl with thrs := e.tl.thrs, cores := e.tl.cores } }

/-- Thread t has entered READY from d to e (R410, R412): it waits from now; each idle core that it would be granted to has an idle signal
more; with no such core one preempt signal more at most is sent; no other thread has changed. -/
def Readied (t : Nat) (d e : Dev) : Prop :=
  ∃ m, m = setThr d t { thrOf d t with st := .ready, ts := tbNs d } ∧ OnlyThreads m e ∧ e.tl.thrs = m.tl.thrs
    ∧ ∀ k, k < 8 → if (List.range 8).any (fun i => (tcOf m i).idle && grantOf m i == some t)
      then tcOf e k = { tcOf m k with idleSig := (tcOf m k).idleSig + b2n ((tcOf m k).idle && grantOf m k == some t) }
      else tcOf e k = { tcOf m k with preSig := (tcOf m k).preSig + b2n (preemptCore m (thrOf m t) == some k) }

/-- Core c, which runs no thread, has asked for one (R411): the grant runs on it, or it is idle with the result NONE. -/
def Dispatched (c : Nat) (d e : Dev) : Prop :=
  OnlyThreads d e ∧ (∀ k, k ≠ c → tcOf e k = tcOf d k)
    ∧ match grantOf d c with
      | some t => thrOf e t = { thrOf d t with st := .running, last := some c, runs := ((thrOf d t).runs + 1) % 2 ^ 32 } ∧ (∀ u, u ≠ t → thrOf e u = thrOf d u)
          ∧ tcOf e c = { tcOf d c with cur := some t, res := 0, tid := t, ctx := (thrOf d t).ctx }
      | none => e.tl.thrs = d.tl.thrs ∧ tcOf e c = { tcOf d c with res := 1, idle := true }

/-- Core c has left the thread it ran, by an operation without an argument: it is not idle, not FAULTED, and runs none. -/
def leftCore (d : Dev) (c : Nat) : Dev := setTc d c { tcOf d c with idle := false, faulted := false, arg := 0, opAt := optMs d, cur := none }

/-- WAKE has been applied to thread t (R410, R413): a BLOCKED one is READY, a FREE one is counted as stray, any other keeps the wake, up
to 255. -/
def Woken (t : Nat) (d e : Dev) : Prop :=
  ((thrOf d t).st = .blocked → Readied t d e) ∧ ((thrOf d t).st = .free → e = bump d TL_STRAY_CNT)
    ∧ ((thrOf d t).st ≠ .blocked → (thrOf d t).st ≠ .free →
        OnlyThreads d e ∧ e.tl.cores = d.tl.cores ∧ thrOf e t = { thrOf d t with wakes := min 255 ((thrOf d t).wakes + 1) } ∧ ∀ u, u ≠ t → thrOf e u = thrOf d u)

/-- An operation of core c has ended with a result, and has changed nothing else from d to e. -/
def Answered (c res : Nat) (d e : Dev) : Prop :=
  OnlyThreads d e ∧ e.tl.thrs = d.tl.thrs ∧ tcOf e c = { tcOf d c with res := res } ∧ ∀ k, k ≠ c → tcOf e k = tcOf d k

/-- Core c has been stopped (R407, R408): the thread it ran is SUSPENDED, FAULTED where a fault stopped it; the core is as after a reset,
halted or about to run. -/
def CoreStopped (c : Nat) (fault halt : Bool) (d e : Dev) : Prop :=
  OnlyThreads d e ∧ (∀ k, k ≠ c → tcOf e k = tcOf d k)
    ∧ tcOf e c = { tcore0 with halted := halt, faulted := fault, opAt := optMs d, idleSig := (tcOf d c).idleSig, preSig := (tcOf d c).preSig }
    ∧ match (tcOf d c).cur with
      | some t => thrOf e t = { thrOf d t with st := .suspended, faulted := (thrOf d t).faulted || fault } ∧ ∀ u, u ≠ t → thrOf e u = thrOf d u
      | none => e.tl.thrs = d.tl.thrs

/-- Nothing has changed from d to e but the registers as. -/
def OnlyRegs (as : List Nat) (d e : Dev) : Prop := (∃ r, e = { d with regs := r }) ∧ ∀ a, a ∉ as → rd e a = rd d a

end Sys2Proof.Machine
end

