-- ==== Sys2Proof/Certificates/Slice0/Obligations.lean ====
section
/-! DEFINITION. The statements about the machine, one definition each. A clause's hypotheses speak of the state and the operands
alone; the witness of each stands in Sys2Proof/Tests/Slice0.lean. -/

open Sys2Proof Sys2Proof.Machine

/-- A step carries out the command at the front of the queue (03 Recipe sequencer, chapter index, log entry 4). For every command
c and every state s, the step of s with c put at the front of its queue is exec of c at s: the queue is first in, first out, and
exec sees its rest. The queue is the model's own. -/
def Obligations.StepTakesTheFrontCommand : Prop :=
  ∀ (c : Instr) (s : State), step { s with pending := c :: s.pending } = exec c s

/-- A step on an empty queue changes nothing (log entry 4, 01 Architecture, Grid and time). With no command waiting the step
answers the state itself. This is the model's choice (log entry 4): time advances by the command BASE_PERIOD. -/
def Obligations.AnEmptyQueueIdles : Prop :=
  ∀ s : State, s.pending = [] → step s = .next s

/-- No command touches the queue of waiting commands (log entry 4). For every state with a command in front: a step that answers
a next state leaves exactly the rest of the queue. -/
def Obligations.EveryStepLeavesTheQueuesRest : Prop :=
  ∀ (s t : State) (c : Instr) (rest : List Instr), s.pending = c :: rest → step s = .next t → t.pending = rest

/-- Every command answers a next state exactly where its operands exist, and faults else (log entry 22, 00 Scope). For every
command and every state: with operands that the hardware can spell exec answers a next state; with others it answers the fault
illFormed. No command is ever refused. The fault is the model's choice (log entry 22). -/
def Obligations.CommandsCompleteExactlyWhereTheirOperandsExist : Prop :=
  ∀ (c : Instr) (s : State), (c.wf = true → ∃ t, exec c s = .next t) ∧ (c.wf = false → exec c s = .fault .illFormed)

/-- Only the Daybook's writer reaches the founding area, and no command reaches the factory identity (R379, R384, R430, 15
Daybook). For every command but RECORD_COMMIT, CLEAR_EXECUTE and BOOT_COMPLETE: a next state has the vault of the state before
it. -/
def Obligations.CommandsLeaveTheVaultButForTheWriter : Prop :=
  ∀ (c : Instr) (s t : State), c ≠ .recordCommit → c ≠ .clearExecute → (∀ env, c ≠ .bootComplete env) → exec c s = .next t → t.vault = s.vault

/-- Every step keeps the founding area sound (R379, R381, 15 Daybook). Sound: the founding records lie end to end from 0x40 to
the founding head, each ends in the CRC-32C of its other bytes, and the head leaves room for the end of the area. For every state
whose founding area is sound, a step that answers a next state leaves it sound. -/
def Obligations.EveryStepKeepsTheFoundingAreaSound : Prop :=
  ∀ s t : State, s.vault.sound → step s = .next t → t.vault.sound

/-- No step changes or removes a founding record; FULL stays; the factory identity stands (R379, R430, 15 Daybook). For every
state, a step that answers a next state only adds records at the end of the founding area; once FULL it adds none and stays FULL;
serial number, certificate and the vendor key's KEY_ID stand. -/
def Obligations.NoStepTakesARecordFromTheFoundingArea : Prop :=
  ∀ s t : State, step s = .next t → (∃ l, t.vault.founding = s.vault.founding ++ l) ∧ (s.vault.fndFull = true → t.vault.fndFull = true
    ∧ t.vault.founding = s.vault.founding)
        ∧ t.vault.serial = s.vault.serial ∧ t.vault.cert = s.vault.cert ∧ t.vault.vendorKid = s.vault.vendorKid

/-- The state after a cold start: sound founding area, canonical memories, Reset columns (R10, 11 Start-up, Table 11-5, 15
Daybook, Table 15-7, log entries 1 to 3). After reset: the founding area is sound and empty, the queue empty, the memories hold
their canonical form, BP_CNT is 0, SB_EPOCH 100, both running offsets 0x40, every signal entry 0, the role Solo and the power
phase on. The two offsets, the role and the phase are the model's choice of a first start (log entries 1 and 2). -/
def Obligations.ResetLeavesTheTableValues : Prop :=
  State.reset.vault.sound ∧ State.reset.pending = [] ∧ Memory.wf State.reset.dev.sram ∧ Memory.wf State.reset.dev.mram ∧ Memory.wf State.reset.dev.ring
        ∧ bp State.reset.dev = 0 ∧ rdN State.reset.dev SB_EPOCH = 100 ∧ rdN State.reset.dev DB_RUN_TAIL = 0x40 ∧ rdN State.reset.dev DB_RUN_HEAD = 0x40
    ∧ (∀ n < 32768, sigVal State.reset.dev n = 0)
        ∧ State.reset.dev.role = .solo ∧ State.reset.dev.power.phase = .on

/-- A page turns a command away, or puts it into a queue: not there, write busy, locked, on the standby, in a pair's order, behind
an earlier write (R48, R49, R51, R55, R99, R268, 02 Host link and registers). For every command that writes a register of a page: on
a page that does not answer, DEV_UNMAPPED_CNT counts and nothing else changes; while a write of the page crosses, under a lock that
covers the register, and on a module that does not accept pair-ordered writes, the write is dropped with WR_BUSY, WR_LOCKED and
NOT_AUTHORITY in the page's error registers and POST_STAT; a pair-ordered write of a pair's authority takes the next place in the
pair's queue; one that finds an earlier write of its instant waiting joins that line. Nothing of the command's own effect happens at
once. That a row which is admitted outside a queue stands for its whole crossing is the model's choice (log entry 49). -/
def Obligations.PagesTurnCommandsAway : Prop :=
  ∀ s : State,
    -- absent
    (∀ (c : Instr) (p : Page) (off : Nat) (v : W32), (hostPage c = some (p, off, v)
        ∧ c.wf = true) → responds s.dev p = false → exec c s = .next { s with dev := if powered s.dev then bump s.dev DEV_UNMAPPED_CNT else s.dev }) ∧
    -- busy
    (∀ (c : Instr) (p : Page) (off : Nat) (v : W32), (hostPage c = some (p, off, v) ∧ c.wf = true) → (responds s.dev p = true
        ∧ busy s.dev p = true) → exec c s = .next { s with dev := postErr s.dev p 1 (pageBase p + off) }) ∧
    -- locked
    (∀ (c : Instr) (p : Page) (off : Nat) (v : W32), (hostPage c = some (p, off, v) ∧ c.wf = true) → (responds s.dev p = true ∧ busy s.dev p = false
        ∧ locked s.dev p = true ∧ lockExempt p off = false) → exec c s = .next { s with dev := postErr s.dev p 2 (pageBase p + off) }) ∧
    -- elsewhere
    (∀ (c : Instr) (p : Page) (off : Nat) (v : W32), (hostPage c = some (p, off, v) ∧ c.wf = true) → (responds s.dev p = true ∧ busy s.dev p = false
        ∧ (locked s.dev p = false ∨ lockExempt p off = true)) → (pairOrdered p off = true ∧ pairEn s.dev = true
        ∧ accepts s.dev = false) → exec c s = .next { s with dev := postErr s.dev p 4 (pageBase p + off) }) ∧
    -- inOrder
    (∀ (c : Instr) (p : Page) (off : Nat) (v : W32), (hostPage c = some (p, off, v) ∧ c.wf = true) → (responds s.dev p = true ∧ busy s.dev p = false
        ∧ (locked s.dev p = false ∨ lockExempt p off = true)) → (pairOrdered p off = true ∧ pairEn s.dev = true ∧ accepts s.dev = true
        ∧ s.dev.tw.queue.length < 1024) → exec c s = .next { s with dev := { s.dev with
      tw := { s.dev.tw with queue := s.dev.tw.queue ++ [⟨withSet s.dev p off (pageBase p + off), v, 0⟩], seq := s.dev.tw.seq + 1 } } }) ∧
    -- inLine
    (∀ (c : Instr) (p : Page) (off : Nat) (v : W32), (hostPage c = some (p, off, v) ∧ c.wf = true) → (responds s.dev p = true ∧ busy s.dev p = false
        ∧ (locked s.dev p = false ∨ lockExempt p off = true)) → ((pairOrdered p off = false ∨ pairEn s.dev = false)
        ∧ inLine s.dev p off = true) → exec c s = .next { s with dev := { s.dev with
      cfgq := s.dev.cfgq ++ [⟨withSet s.dev p off (pageBase p + off), v, 0⟩] } })

/-- What an admitted write of the host does: it waits for its C2, it sets out, it crosses, it is lost (R21, R27, R44, R51, R52,
R268). From every state in which the write is admitted: SIG_WINDOW_WRITE joins the writes that wait for C2, or the pair's order; a
register write to a WP field sets out, one to a plain field takes effect at once; the end of its crossing hands it to the
configuration window or carries it out; a lost read returns all ones and is counted, a lost write is counted with its code. -/
def Obligations.HostWritesTakeEffect : Prop :=
  ∀ s : State,
    -- sigAlone
    (∀ (n : Nat) (v : W32), n < 32768 → windowsOn s.dev = true → pairEn s.dev = false → exec (.sigWindowWrite n v) s = .next { s with dev := { s.dev with hostq := s.dev.hostq ++ [(n, v)] } }) ∧
    -- sigPaired
    (∀ (n : Nat) (v : W32), n < 32768 → windowsOn s.dev = true → pairEn s.dev = true → accepts s.dev = true → s.dev.tw.queue.length < 1024 → exec (.sigWindowWrite n v) s = .next { s with dev := { s.dev with
      tw := { s.dev.tw with queue := s.dev.tw.queue ++ [⟨sigWin + 4 * n, v, 0⟩], seq := s.dev.tw.seq + 1 } } }) ∧
    -- regPosted
    (∀ (p : Page) (a : Nat) (v : W64), pageAt a = some (p, a - pageBase p) → (a < 2 ^ 28 ∧ a % 4 = 0
        ∧ a ≠ DB_CMD) → reaches s.dev 0 = true → powered s.dev = true → (responds s.dev p = true ∧ busy s.dev p = false
        ∧ (locked s.dev p = false ∨ lockExempt p (a - pageBase p) = true)
        ∧ (pairOrdered p (a - pageBase p) = true → pairEn s.dev = true → accepts s.dev = true)) → (accessOf p (a - pageBase p) = some .wp
        ∧ (a - pageBase p ≠ EVT_VEC ∧ a - pageBase p ≠ EVT_EN ∧ a - pageBase p ≠ POST_STAT ∧ isAck p (a - pageBase p) = false)
        ∧ coefWord p (a - pageBase p) = false) → exec (.registerWrite 0 a 15 v) s = .next { s with dev := { s.dev with crossing := s.dev.crossing ++ [⟨a, v.setWidth 32, 0⟩] } }) ∧
    -- regPlain
    (∀ (p : Page) (v : W64), pageOk p = true → reaches s.dev 0 = true → powered s.dev = true → (responds s.dev p = true ∧ busy s.dev p = false
        ∧ (locked s.dev p = false ∨ lockExempt p EVT_EN = true)) → exec (.registerWrite 0 (pageBase p + EVT_EN) 15 v) s = .next { s with dev := wr s.dev (pageBase p + EVT_EN) (v.setWidth 32) }) ∧
    -- regUnaligned
    (∀ (p : Page) (a be : Nat) (v : W64), pageAt (a / 4 * 4) = some (p, a / 4 * 4 - pageBase p) → (a < 2 ^ 28 ∧ be < 16
        ∧ (a % 4 ≠ 0 ∨ be ≠ 15)) → reaches s.dev 0 = true → powered s.dev = true → responds s.dev p = true → exec (.registerWrite 0 a be v) s = .next { s with dev := bump s.dev DEV_BAD_ACC_CNT }) ∧
    -- crossingDone
    (∀ (p : Page) (w : Posted), pageOk p = true → crossingsOf s.dev p = [w] → windowPage p = true → (pageBase p ≤ w.addr % 2 ^ 28
        ∧ w.addr % 2 ^ 28 ≠ pageBase p + KEYLOCK) → pairEn s.dev = false → exec (.writeCrossingDone p) s = .next { s with dev := { crossingEnd s.dev p with cfgq := s.dev.cfgq ++ [w] } }) ∧
    -- crossingKey
    (∀ (p : Page), pageOk p = true → crossingsOf s.dev p = [⟨pageBase p + KEYLOCK, 0xA5C3, 0⟩] → exec (.writeCrossingDone p) s = .next { s with dev := wr (crossingEnd s.dev p) (pageBase p + KEYLOCK) 0xA5C3 }) ∧
    -- xdomRead
    (∀ (p : Page), pageOk p = true → responds s.dev p = true → exec (.xdomTimeout p false) s = .next { s with dev := { wr s.dev DEV_XTO_CNT (rd s.dev DEV_XTO_CNT + 1) with
      evr := { s.dev.evr with cpl := 0xFFFFFFFF :: s.dev.evr.cpl } } }) ∧
    -- xdomWrite
    (∀ (p : Page) (w : Posted), pageOk p = true → responds s.dev p = true → crossingsOf s.dev p = [w] → exec (.xdomTimeout p true) s = .next { s with dev := postErr (crossingEnd s.dev p) p 3 (w.addr % 2 ^ 28) })

/-- The header's commands write their registers (R45, R46, R48, R49, R50). From every state in which the write is admitted: KEYLOCK
takes its two key values whatever lock stands, EVT_EN and an acknowledge register their word, BLK_CTRL its RUN bit with SAFE_REQ kept
or its SAFE_REQ bit with RUN kept; no other register and no other state changes. RUN of a converter core, an encoder or a tile, and
SAFE_REQ of a loop or a logic processor act on their blocks too, and are stated there. -/
def Obligations.HeaderWritesTakeEffect : Prop :=
  ∀ s : State,
    -- keylocks
    (∀ (p : Page), pageOk p = true → responds s.dev p = true → busy s.dev p = false → exec (.keylockEngage p) s = .next { s with dev := wr s.dev (pageBase p + KEYLOCK) 0xA5C3 }
      ∧ exec (.keylockRelease p) s = .next { s with dev := wr s.dev (pageBase p + KEYLOCK) 0 }) ∧
    -- evtEn
    (∀ (p : Page) (v : W32), pageOk p = true → admits s.dev p EVT_EN = true → exec (.evtEnWrite p v) s = .next { s with dev := wr s.dev (pageBase p + EVT_EN) v }) ∧
    -- ack
    (∀ (a : Nat) (p : Page) (off : Nat) (v : W32), (a < 2 ^ 28
        ∧ pageAt a = some (p, off)) → isAck p off = true → admits s.dev p off = true → ((∀ x, p ≠ .cx x)
        ∧ ∀ e, p ≠ .eth e) → exec (.ackWrite a v) s = .next { s with dev := wr s.dev (pageBase p + off) v }) ∧
    -- run
    (∀ (p : Page) (on : Bool), pageOk p = true → admits s.dev p BLK_CTRL = true → ((∀ k, p ≠ .ac k) ∧ (∀ e, p ≠ .enc e) ∧ (∀ t, p ≠ .lt t)
        ∧ ∀ m, p ≠ .mt m) → exec (.blkCtrlRun p on) s = .next { s with dev := wr s.dev (pageBase p + BLK_CTRL) (w32 (fld (putBit (rd s.dev (pageBase p + BLK_CTRL)) 0 on) 1 0)) }) ∧
    -- safeReq
    (∀ (p : Page) (on : Bool), pageOk p = true → admits s.dev p BLK_CTRL = true → ((∀ g, p ≠ .lc g) ∧ (∀ t, p ≠ .lt t)
        ∧ ∀ n, p ≠ .lp n) → exec (.blkCtrlSafeReq p on) s = .next { s with dev := wr s.dev (pageBase p + BLK_CTRL) (w32 (fld (putBit (rd s.dev (pageBase p + BLK_CTRL)) 1 on) 1 0)) })

/-- The router sends, holds back and ends vectors, and DONE, masks and doorbells do what their rows say (R56, R57, R58, R59, R60,
R465). With no vector under way: an asserted vector that is not masked is sent and stamped, a masked one is pending and stamped;
DEV_VEC_DONE of a sent vector that nothing asserts arms it again; the function mask, MSI-X enable and bus master bits take their
values; a vector's mask bit lies in its table entry. -/
def Obligations.RouterSendsVectors : Prop :=
  ∀ s : State,
    -- asserted
    (∀ (k : Nat), s.dev.evr.vec = [] → assertedVecs s.vault s.dev = [k] → vecMasked s.dev k = false → exec .vectorEvaluation s = .next { s with dev := { wr64 s.dev (DEV_VEC_STAMP k) (tbNs s.dev) with evr := { s.dev.evr with
      vec := [(k, .sent)], leftL0 := false
      sent := ⟨k, mk64 (rd s.dev (msixWord k 0)) (rd s.dev (msixWord k 1)), rd s.dev (msixWord k 2)⟩ :: s.dev.evr.sent } } }) ∧
    -- assertedMasked
    (∀ (k : Nat), s.dev.evr.vec = [] → assertedVecs s.vault s.dev = [k] → vecMasked s.dev k = true → exec .vectorEvaluation s = .next { s with dev := { wr64 s.dev (DEV_VEC_STAMP k) (tbNs s.dev) with evr := { s.dev.evr with
      vec := [(k, .pending)], leftL0 := false } } }) ∧
    -- done
    (∀ (k : Nat), (s.dev.evr.vec = [(k, .sent)] ∧ s.dev.evr.leftL0 = false
        ∧ k < 256) → admits s.dev .evr 0x100 = true → assertedVecs s.vault s.dev = [] → exec (.vecDone (w32 k)) s = .next { s with dev := { s.dev with evr := { s.dev.evr with vec := [] } } }) ∧
    -- masks
    (∀ (vec : Nat) (on : Bool), vec < 256 → Completes (.msixMaskWrite 1 vec on) s (fun d => d.evr.funcMask = on ∧ d.evr.msixEnable = s.dev.evr.msixEnable
        ∧ d.evr.busMaster = s.dev.evr.busMaster)
      ∧ Completes (.msixMaskWrite 2 vec on) s (fun d => d.evr.msixEnable = on ∧ d.evr.funcMask = s.dev.evr.funcMask
        ∧ d.evr.busMaster = s.dev.evr.busMaster)
      ∧ Completes (.msixMaskWrite 3 vec on) s (fun d => d.evr.busMaster = on ∧ d.evr.funcMask = s.dev.evr.funcMask
        ∧ d.evr.msixEnable = s.dev.evr.msixEnable)) ∧
    -- maskBit
    (∀ (vec : Nat) (on : Bool), vec < 256 → s.dev.evr.vec = [] → Completes (.msixMaskWrite 0 vec on) s (fun d => rd d (msixWord vec 3) = w32 (b2n on)
        ∧ d.evr.msixEnable = s.dev.evr.msixEnable))

/-- Doorbells count, pend while unacknowledged, and are always routed (R60). An admitted write of DEV_SWE_RAISE counts the
doorbell it names and changes nothing else. For every state and every doorbell k: source 448 + k is pending exactly while its
count differs from its acknowledge register, its vector is its byte of DEV_SWE_VEC, and it is among the pending sources without
any enable. -/
def Obligations.DoorbellsCountAndPend : Prop :=
  ∀ s : State,
    -- doorbell
    (∀ (val : W32), admits s.dev .evr 0x104 = true → exec (.sweRaise val) s = .next { s with dev := wr s.dev (DEV_SWE_CNT (val.toNat % 64)) (rd s.dev (DEV_SWE_CNT (val.toNat % 64)) + 1) }) ∧
    -- pending
    (∀ (k : Nat), k < 64 → (srcPending s.vault s.dev (448 + k) = true ↔ rd s.dev (DEV_SWE_CNT k) ≠ rd s.dev (DEV_SWE_ACK k))
        ∧ srcVector s.dev (448 + k) = (rdN s.dev (DEV_SWE_VEC (k / 4)) / 2 ^ (8 * (k % 4))) % 256
      ∧ (448 + k ∈ pendingSources s.vault s.dev ↔ rd s.dev (DEV_SWE_CNT k) ≠ rd s.dev (DEV_SWE_ACK k)))

/-- Resets, link and power state of the endpoint (R38, R39, R40, R465). FLR and an endpoint reset clear the MSI-X table, vector
states, capability bits and configuration registers, and only FLR counts in DEV_FLR_CNT; link-down clears linkUp and counts; link-up sets it and shows
rate and width; D3hot takes its value. -/
def Obligations.EndpointFollowsItsLink : Prop :=
  ∀ s : State,
    -- resets
    (Completes .flr s (fun d => d.evr = { s.dev.evr with vec := [], msixEnable := false, funcMask := false, busMaster := false, d3hot := false, cfg := pciReset }
      ∧ rd d DEV_FLR_CNT = rd s.dev DEV_FLR_CNT + 1 ∧ ∀ a, msixBase ≤ a → a < pbaBase → rd d a = resetOf a)
      ∧ Completes .endpointReset s (fun d => d.evr = { s.dev.evr with vec := [], msixEnable := false, funcMask := false, busMaster := false, d3hot := false, cfg := pciReset }
      ∧ rd d DEV_FLR_CNT = rd s.dev DEV_FLR_CNT ∧ ∀ a, msixBase ≤ a → a < pbaBase → rd d a = resetOf a)) ∧
    -- down
    (s.dev.evr.linkUp = true → (∀ k ∈ tkeys s.dev.evr.vec, k < 256) → Completes .linkDown s (fun d => d.evr.linkUp = false
        ∧ d.evr.msixEnable = s.dev.evr.msixEnable ∧ rd d DEV_LINK_DOWN_CNT = rd s.dev DEV_LINK_DOWN_CNT + 1)) ∧
    -- up
    (∀ (rate : Nat) (width : Nat), (1 ≤ rate ∧ rate ≤ 5
        ∧ (width = 1 ∨ width = 2 ∨ width = 4)) → s.dev.evr.linkUp = false → (∀ k ∈ tkeys s.dev.evr.vec, k < 256) → Completes (.linkUp rate width) s (fun d => d.evr.linkUp = true
        ∧ d.evr.msixEnable = s.dev.evr.msixEnable ∧ rd d DEV_PCIE_STAT = w32 (rate + 8 * width))) ∧
    -- d3
    (∀ (on : Bool), exec (.d3hotTransition on) s = .next { s with dev := { s.dev with evr := { s.dev.evr with d3hot := on } } })

/-- The trim, the loss of lock, region and memory faults, and the ring position (R13, R16, R30, R31, R95, R96, R230, R430).
CLK_TRIM takes the written value clamped to ±2500000 with its flag; a lost lock counts, drops every output hold and waits; relock
and its timeout start a warm reset with source 3; a region fault during Boot waits for its end; ID_RING keeps its fields;
corrected errors count; an uncorrectable scratchpad error quarantines a loop tile or a processor with its code. -/
def Obligations.ClockAndFaults : Prop :=
  ∀ s : State,
    -- trim
    (∀ (val : W32), admits s.dev .clk 0x108 = true → Completes (.clkTrimWrite val) s (fun d => d = { s.dev with regs := d.regs }
        ∧ rd d CLK_TRIM = w32i (clampI (-2500000) 2500000 (sgn 32 val.toNat))
      ∧ rdBit d CLK_STAT 4 = decide (clampI (-2500000) 2500000 (sgn 32 val.toNat) ≠ sgn 32 val.toNat)
      ∧ ∀ a, a ≠ CLK_TRIM → a ≠ CLK_STAT → rd d a = rd s.dev a)) ∧
    -- lockLoss
    (resettable s.dev = true → s.dev.power.lockLost = none → Completes .pllLockLoss s (fun d => rd d CLK_LOSS_CNT = rd s.dev CLK_LOSS_CNT + 1
        ∧ d.power.lockLost.isSome = true ∧ d.oh.holding = false
      ∧ d.power.phase = s.dev.power.phase ∧ d.lanes = s.dev.lanes ∧ d.sig = s.dev.sig)) ∧
    -- relock
    (∀ (us : Nat) (b : DbBody), resettable s.dev = true → s.dev.power.phase = .on → s.dev.power.lockLost = some b → Completes (.pllRelock us) s (fun d => d.power.phase = .boot
        ∧ d.power.kind = .warm ∧ d.power.src = 3 ∧ d.power.lockLost = none ∧ d.lanes = [] ∧ d.sig = [])
      ∧ Completes (.pllRelockTimeout us) s (fun d => d.power.phase = .boot ∧ d.power.kind = .warm ∧ d.power.src = 3 ∧ d.power.lockLost = none
        ∧ d.lanes = [] ∧ d.sig = [])) ∧
    -- regionBoot
    (∀ (p : Page) (code : Nat) (addr : Nat), (pageOk p = true ∧ code < 65536
        ∧ addr < 2 ^ 28) → s.dev.power.phase = .boot → Completes (.regionFault p code addr) s (fun d => d = { err s.dev p code addr with power := { s.dev.power with heldPending := s.dev.power.heldPending ++ [⟨blkId p, w32 code, w32 addr⟩] } })) ∧
    -- ring
    (∀ (val : W32), admits s.dev .id 0x110 = true → Completes (.idRingWrite val) s (fun d => rd d ID_RING = w32 (fld val 31 16 * 0x10000 + fld val 5 0)
      ∧ Recorded (wr s.dev ID_RING (w32 (fld val 31 16 * 0x10000 + fld val 5 0))) d)) ∧
    -- corrected
    (∀ (t : Nat) (m : Nat) (n : Nat), (t < 64 ∧ m < 8
        ∧ n < 4) → exec (.scratchpadCe (.lt t)) s = .next { s with dev := wr s.dev (LT_ECC_CNT t) (rd s.dev (LT_ECC_CNT t) + 1) }
      ∧ exec (.scratchpadCe (.mt m)) s = .next { s with dev := wr s.dev (MT_ECC_CNT m) (rd s.dev (MT_ECC_CNT m) + 1) }
      ∧ exec (.scratchpadCe (.lp n)) s = .next { s with dev := wr s.dev (LP_ECC_CNT n) (rd s.dev (LP_ECC_CNT n) + 1) }) ∧
    -- uncorrectedTile
    (∀ (t : Nat) (off : Nat), t < 64 → ltQuar s.dev t = false → Completes (.scratchpadUe (.lt t) off) s (fun d => d.quar = s.dev.quar ++ [t]
        ∧ rdN d (ltBase t + ERR_CODE) % 65536 = 0x0282 ∧ rd d (ltBase t + ERR_ADDR) = w32 off ∧ d.lanes = s.dev.lanes)) ∧
    -- uncorrectedProcessor
    (∀ (n : Nat) (off : Nat), n < 4 → (lpOf s.dev n).st ≠ .quarantined → Completes (.scratchpadUe (.lp n) off) s (fun d => (lpOf d n).st = .quarantined
        ∧ (lpOf d n).insts = [] ∧ rdN d (lpBase n + ERR_CODE) % 65536 = 0x0604 ∧ rd d (lpBase n + ERR_ADDR) = w32 off ∧ d.lanes = s.dev.lanes))

/-- The lane commands of an admitted requester: states, entries, markers, targets' safe values (R66, R67, R69, R70, R294). Each
lane command, admitted and in a state that Table 3-5 allows: LOAD begins verification, UNLOAD releases the targets and empties
the lane, START enters the named step with markers and slots cleared, PAUSE and CONTINUE, STOP and an abort without a recovery
step drive the targets to their safe values and leave the lane loaded, an abort with one enters it. -/
def Obligations.LaneCommandsMoveTheLane : Prop :=
  ∀ s : State,
    -- nop
    (∀ (l : Nat), l < 16 → admits s.dev (.sq l) 0x100 = true → exec (.laneNop l) s = .next { s with dev := issued s.dev (.sq l) 0x100 0 }) ∧
    -- load
    (∀ (l : Nat), l < 16 → admits s.dev (.sq l) 0x100 = true → (laneOf s.dev l).st = .empty → exec (.laneLoad l) s = .next { s with dev := setLane (issued s.dev (.sq l) 0x100 1) l { emptied (laneOf s.dev l) with
      st := .loading
      copy := loadCopy s.dev (rdN s.dev (SQ_LOAD_ADDR l)) (rdN s.dev (SQ_LOAD_LEN l))
      copyLen := loadLen s.dev (rdN s.dev (SQ_LOAD_ADDR l)) (rdN s.dev (SQ_LOAD_LEN l)) } }) ∧
    -- unload
    (∀ (l : Nat), l < 16 → admits s.dev (.sq l) 0x100 = true → ((laneOf s.dev l).st = .loaded ∨ (laneOf s.dev l).st = .done
        ∨ (laneOf s.dev l).st = .fault) → Completes (.laneUnload l) s (fun d => laneOf d l = emptied (laneOf s.dev l) ∧ rd d (SQ_MARKER l) = 0
        ∧ (∀ n ∈ ownedBy s.dev clsLane l, attrOf d n = 0)
      ∧ (∀ n, n ∉ ownedBy s.dev clsLane l → attrOf d n = attrOf s.dev n ∧ sigVal d n = sigVal s.dev n) ∧ ∀ k < 32, slotArmed d l k = false)) ∧
    -- start
    (∀ (l : Nat) (name : Nat) (i : Nat), (l < 16 ∧ name < 65536) → admits s.dev (.sq l) 0x100 = true → ((laneOf s.dev l).st = .loaded
        ∨ (laneOf s.dev l).st = .done) → runBit s.dev (.sq l) = true → startIx (laneOf s.dev l).img name = some i → Completes (.laneStart l name) s (fun d => (laneOf d l).st = .running
        ∧ (laneOf d l).entry = some i ∧ (laneOf d l).stack = [] ∧ (laneOf d l).crit = false
      ∧ (laneOf d l).img = (laneOf s.dev l).img ∧ rd d (SQ_MARKER l) = 0 ∧ (∀ k < 32, slotArmed d l k = false) ∧ d.sig = s.dev.sig)) ∧
    -- pause
    (∀ (l : Nat), l < 16 → admits s.dev (.sq l) 0x100 = true → (laneOf s.dev l).st = .running → exec (.lanePause l) s = .next { s with dev := setLane (issued s.dev (.sq l) 0x100 4) l { laneOf s.dev l with st := .paused } }) ∧
    -- continue
    (∀ (l : Nat), l < 16 → admits s.dev (.sq l) 0x100 = true → (laneOf s.dev l).st = .paused → exec (.laneContinue l) s = .next { s with dev := setLane (issued s.dev (.sq l) 0x100 5) l { laneOf s.dev l with st := .running } }) ∧
    -- stop
    (∀ (l : Nat), l < 16 → admits s.dev (.sq l) 0x100 = true → ((laneOf s.dev l).st = .running ∨ (laneOf s.dev l).st = .paused
        ∨ (laneOf s.dev l).st = .done ∨ (laneOf s.dev l).st = .fault) → Completes (.laneStop l) s (fun d => (laneOf d l).st = .loaded
        ∧ (laneOf d l).img = (laneOf s.dev l).img ∧ rd d (SQ_MARKER l) = 0
      ∧ (∀ k < 32, slotArmed d l k = false) ∧ d.stage2 = s.dev.stage2 ++ (laneOf s.dev l).img.targets.map (fun t => ⟨t.n, t.safe, false⟩))) ∧
    -- abortToLoaded
    (∀ (l : Nat), l < 16 → admits s.dev (.sq l) 0x100 = true → ((laneOf s.dev l).st = .running
        ∨ (laneOf s.dev l).st = .paused) → (laneOf s.dev l).img.abort = 0 → Completes (.laneAbort l) s (fun d => (laneOf d l).st = .loaded
        ∧ rd d (SQ_MARKER l) = 0
      ∧ d.stage2 = s.dev.stage2 ++ (laneOf s.dev l).img.targets.map (fun t => ⟨t.n, t.safe, false⟩))) ∧
    -- abortToStep
    (∀ (l : Nat), l < 16 → admits s.dev (.sq l) 0x100 = true → ((laneOf s.dev l).st = .running
        ∨ (laneOf s.dev l).st = .paused) → (laneOf s.dev l).img.abort ≠ 0 → Completes (.laneAbort l) s (fun d => (laneOf d l).st = .running
      ∧ (laneOf d l).entry = some ((nameIx (laneOf s.dev l).img.steps (laneOf s.dev l).img.abort).getD 0) ∧ d.stage2 = s.dev.stage2
        ∧ d.sig = s.dev.sig))

/-- LANE_VERIFY_DONE: every outcome of a load's verification (R20, R67, R70, R294, R463). At the end of a verification: every
outcome of the container check and of the image's own rules, with the refusal's code, or the lane loaded with its targets claimed
at their safe values. -/
def Obligations.LaneVerificationEndsTheLoad : Prop :=
  ∀ s : State,
    -- verify
    (∀ (l : Nat), l < 16 → (laneOf s.dev l).st = .loading → Completes (.laneVerifyDone l) s (fun d => match containerCheck s.dev (laneOf s.dev l).copy 2 (laneOf s.dev l).copyLen, parseLane (bodyOf (laneOf s.dev l).copy) with
      | 0, .ok img => (if img.targets.any (fun t => sigTaken s.dev t.n clsLane l) then (fun c d => laneOf d l = emptied (laneOf s.dev l) ∧ rd d (SQ_LOAD_RES l) = w32 c
        ∧ rdN d (sqBase l + ERR_CODE) % 65536 = 0x0104 ∧ d.attr = s.dev.attr) 10 d
        else laneOf d l = { emptied (laneOf s.dev l) with st := .loaded, img := img } ∧ rd d (SQ_LOAD_RES l) = 0 ∧ rd d (SQ_RECIPE_ID l) = w32 img.recipe)
      | 0, .error c => (fun c d => laneOf d l = emptied (laneOf s.dev l) ∧ rd d (SQ_LOAD_RES l) = w32 c ∧ rdN d (sqBase l + ERR_CODE) % 65536 = 0x0104
        ∧ d.attr = s.dev.attr) c d
      | c, _ => (fun c d => laneOf d l = emptied (laneOf s.dev l) ∧ rd d (SQ_LOAD_RES l) = w32 c ∧ rdN d (sqBase l + ERR_CODE) % 65536 = 0x0104
        ∧ d.attr = s.dev.attr) c d))

/-- Ends of durations and scheduled slots of a running lane (R74, R78, R87, R88, R89). The end of a step's duration makes the next
step the one that the lane enters at the coming tick, a WAIT timeout its target, or the fault where it has none; a slot is armed with
the due time of that instant, judged late where that is at or before TT(n) + 10,000 ns, counted and named, executed at the next tick or
discarded as its polarity says; a disarm takes the arm away; a slot that is due fires once and executes its payload. -/
def Obligations.LaneStepsAndSlotsActAtTheirTick : Prop :=
  ∀ s : State,
    -- durationEnd
    (∀ (l : Nat), l < 16 → ((laneOf s.dev l).st = .running ∧ held s.dev = false ∧ (laneOf s.dev l).entry = none ∧ (laneOf s.dev l).mid = false
        ∧ (laneOf s.dev l).stack = []) → (((laneStep s.dev l).kind = 1 ∨ (laneStep s.dev l).kind = 3) ∧ (laneStep s.dev l).dur ≠ 0
        ∧ (laneStep s.dev l).dur ≤ rdN s.dev (SQ_ELAPSED l) + 1) → Completes (.stepDurationEnd l) s (fun d => laneOf d l = { laneOf s.dev l with entry := some (laneIx s.dev l + 1) }
        ∧ (∀ m, m ≠ l → laneOf d m = laneOf s.dev m) ∧ d = { s.dev with lanes := d.lanes })) ∧
    -- timeout
    (∀ (l : Nat), l < 16 → ((laneOf s.dev l).st = .running ∧ held s.dev = false ∧ (laneOf s.dev l).entry = none ∧ (laneOf s.dev l).mid = false
        ∧ (laneOf s.dev l).stack = []) → ((laneStep s.dev l).kind = 2 ∧ (laneStep s.dev l).dur ≠ 0 ∧ (laneStep s.dev l).dur ≤ rdN s.dev (SQ_ELAPSED l) + 1
        ∧ condTrue s.dev (markersNow s.dev) (laneStep s.dev l) = false) → (laneStep s.dev l).target ≠ 0 → Completes (.waitTimeout l) s (fun d => laneOf d l = { laneOf s.dev l with entry := some (laneStep s.dev l).targetIx }
        ∧ (∀ m, m ≠ l → laneOf d m = laneOf s.dev m) ∧ d = { s.dev with lanes := d.lanes })) ∧
    -- timeoutFault
    (∀ (l : Nat), l < 16 → ((laneOf s.dev l).st = .running ∧ held s.dev = false ∧ (laneOf s.dev l).entry = none
        ∧ (laneOf s.dev l).mid = false) → ((laneStep s.dev l).kind = 2 ∧ (laneStep s.dev l).dur ≠ 0
        ∧ (laneStep s.dev l).dur ≤ rdN s.dev (SQ_ELAPSED l) + 1
        ∧ condTrue s.dev (markersNow s.dev) (laneStep s.dev l) = false) → (laneStep s.dev l).target = 0 → Completes (.waitTimeout l) s (fun d => (laneOf d l).st = .fault
        ∧ rdN d (sqBase l + ERR_CODE) % 65536 = 0x0102 ∧ rd d (sqBase l + ERR_ADDR) = w32 (laneIx s.dev l)
      ∧ d.stage2 = s.dev.stage2 ++ (laneOf s.dev l).img.targets.map (fun t => ⟨t.n, t.safe, true⟩) ∧ d.sig = s.dev.sig)) ∧
    -- arm
    (∀ (l : Nat) (k : Nat) (pol : Bool), (l < 16 ∧ k < 32) → admits s.dev (.sq l) (0x208 + 16 * k) = true → ((laneOf s.dev l).st = .running
        ∨ (laneOf s.dev l).st = .paused
        ∨ (laneOf s.dev l).st = .done) → (nth (laneOf s.dev l).img.sched k default).kind ≠ 0 → s.dev.tt + 10000 < rd64 s.dev (SQ_SCH_TIME l k) → Completes (.schedArm l k pol) s (fun d => slotArmed d l k = true
        ∧ rd d (SQ_SCH_STAT l k) = 1 ∧ latePol d l k = pol ∧ slotT d l k = rd64 s.dev (SQ_SCH_TIME l k) ∧ (laneOf d l).late.contains k = false
        ∧ (laneOf d l).st = (laneOf s.dev l).st ∧ rd d (SQ_LATE_CNT l) = rd s.dev (SQ_LATE_CNT l) ∧ d.sig = s.dev.sig)) ∧
    -- armLate
    (∀ (l : Nat) (k : Nat) (pol : Bool), (l < 16 ∧ k < 32) → admits s.dev (.sq l) (0x208 + 16 * k) = true → ((laneOf s.dev l).st = .running
        ∨ (laneOf s.dev l).st = .paused
        ∨ (laneOf s.dev l).st = .done) → (nth (laneOf s.dev l).img.sched k default).kind ≠ 0 → rd64 s.dev (SQ_SCH_TIME l k) ≤ s.dev.tt + 10000 → Completes (.schedArm l k pol) s (fun d => rd d (SQ_LATE_CNT l) = rd s.dev (SQ_LATE_CNT l) + 1
        ∧ rd d (SQ_LATE_SLOT l) = w32 (k + 256 * b2n pol)
      ∧ rd d (SQ_SCH_STAT l k) = (if pol then 4 else 1) ∧ (laneOf d l).lateT = some (rd64 s.dev (SQ_SCH_TIME l k))
      ∧ ((laneOf d l).late.contains k = !pol) ∧ d.sig = s.dev.sig)) ∧
    -- disarm
    (∀ (l : Nat) (k : Nat) (pol : Bool), (l < 16
        ∧ k < 32) → admits s.dev (.sq l) (0x208 + 16 * k) = true → Completes (.schedDisarm l k pol) s (fun d => slotArmed d l k = false ∧ latePol d l k = pol
        ∧ (laneOf d l).late.contains k = false
      ∧ (laneOf d l).st = (laneOf s.dev l).st ∧ d.sig = s.dev.sig)) ∧
    -- fire
    (∀ (l : Nat) (k : Nat) (n : Nat) (v : Nat) (t : LTarget), (l < 16 ∧ k < 32) → ((laneOf s.dev l).st = .running ∨ (laneOf s.dev l).st = .paused
        ∨ (laneOf s.dev l).st = .done) → (held s.dev = false ∧ slotDue s.dev l k (nextTT s.dev) = true) → nth (laneOf s.dev l).img.sched k default = ⟨1, 0, n, v, 0⟩ → laneTarget s.dev l n = some t → safeReq s.dev (.sq l) = false → Completes (.schedSlotFire l k) s (fun d => rd d (SQ_SCH_STAT l k) = 2
        ∧ d.stage2 = s.dev.stage2 ++ [⟨n, w32 v, false⟩] ∧ (laneOf d l).late.contains k = false ∧ (laneOf d l).st = (laneOf s.dev l).st
        ∧ d.sig = s.dev.sig))

/-- The actions of a running lane's current step (R76, R77, R85, R87, R89, R181, R216). Each kind of action entry, of a lane that runs
and a device that is not in Held: SIG_WRITE stages the value, or the target's safe value under SAFE_REQ; AXIS_MOVE writes the axis's
target and gives the axis the move; LOGIC_EVENT triggers a defined event task; ARM_SCHED arms its slot for the tick time plus the delay;
DISARM_SCHED takes an arm away; CRITICAL marks the step. Each changes nothing else of the lane. -/
def Obligations.LaneActionsTakeEffect : Prop :=
  ∀ s : State,
    -- actWrite
    (∀ (l : Nat) (j : Nat) (a : Act) (t : LTarget), l < 16 → ((laneOf s.dev l).st = .running ∧ held s.dev = false) → ((laneStep s.dev l).acts[j]? = some a
        ∧ a.kind = 1) → laneTarget s.dev l a.a0 = some t → exec (.actSigWrite l j) s = .next { s with dev := { s.dev with
      stage2 := s.dev.stage2 ++ [⟨a.a0, if safeReq s.dev (.sq l) then t.safe else w32 a.a1, false⟩] } }) ∧
    -- actMove
    (∀ (l : Nat) (j : Nat) (a : Act), l < 16 → ((laneOf s.dev l).st = .running ∧ held s.dev = false) → ((laneStep s.dev l).acts[j]? = some a
        ∧ a.kind = 2) → Completes (.actAxisMove l j) s (fun d => rd64 d (AX_TGT (a.a0 % 64)) = a.a2 % 2 ^ 64
        ∧ (axOf d (a.a0 % 64)).cmds.map (·.code) = (axOf s.dev (a.a0 % 64)).cmds.map (·.code) ++ [if a.a0 / 256 % 2 = 1 then 2 else 1]
        ∧ (∀ b, b ≠ a.a0 % 64 → axOf d b = axOf s.dev b) ∧ d.lanes = s.dev.lanes ∧ d.sig = s.dev.sig ∧ d.stage2 = s.dev.stage2)) ∧
    -- actEvent
    (∀ (l : Nat) (j : Nat) (a : Act), l < 16 → ((laneOf s.dev l).st = .running ∧ held s.dev = false) → ((laneStep s.dev l).acts[j]? = some a
        ∧ a.kind = 3) → triggerKnown s.dev (a.a0 % 4) (a.a0 / 4 % 8) = true → exec (.actLogicEvent l j) s = .next { s with dev := { s.dev with trigs := s.dev.trigs ++ [⟨4 + l, 0, a.a0 % 4, a.a0 / 4 % 8⟩] } }) ∧
    -- actArm
    (∀ (l : Nat) (j : Nat) (a : Act), l < 16 → ((laneOf s.dev l).st = .running ∧ held s.dev = false
        ∧ (laneOf s.dev l).staged = []) → ((laneStep s.dev l).acts[j]? = some a
        ∧ a.kind = 4) → (nth (laneOf s.dev l).img.sched (a.a0 % 32) default).kind ≠ 0 → (10000 < a.a1
        ∧ s.dev.tt + a.a1 < 2 ^ 64) → Completes (.actArmSched l j) s (fun d => rd64 d (SQ_SCH_TIME l (a.a0 % 32)) = s.dev.tt + a.a1
        ∧ slotT d l (a.a0 % 32) = s.dev.tt + a.a1 ∧ rd d (SQ_SCH_STAT l (a.a0 % 32)) = 1 ∧ (laneOf d l).late.contains (a.a0 % 32) = false
        ∧ (laneOf d l).staged = [] ∧ (laneOf d l).st = .running ∧ rd d (SQ_LATE_CNT l) = rd s.dev (SQ_LATE_CNT l) ∧ d.sig = s.dev.sig)) ∧
    -- actDisarm
    (∀ (l : Nat) (j : Nat) (a : Act), l < 16 → ((laneOf s.dev l).st = .running ∧ held s.dev = false) → ((laneStep s.dev l).acts[j]? = some a
        ∧ a.kind = 5) → Completes (.actDisarmSched l j) s (fun d => slotArmed d l (a.a0 % 32) = false ∧ (laneOf d l).late.contains (a.a0 % 32) = false
        ∧ (laneOf d l).st = .running ∧ (∀ m, m ≠ l → laneOf d m = laneOf s.dev m) ∧ d.sig = s.dev.sig)) ∧
    -- actCritical
    (∀ (l : Nat) (j : Nat) (a : Act), l < 16 → ((laneOf s.dev l).st = .running ∧ held s.dev = false) → ((laneStep s.dev l).acts[j]? = some a
        ∧ a.kind = 6) → exec (.actCritical l j) s = .next { s with dev := setLane s.dev l { laneOf s.dev l with crit := true } })

/-- Groups, coefficients, routes and table slots of loop tiles and cells (R20, R95, R98, R99, R100, R128, R129, R130, R463).
Group start and stop write RUN of the masked cells; coefficient writes reach the selected set; LC_OUT_DST and LC_PUB claim their
entries with the safe value shown, and with SAFE set where the cell is in FAULT or QUARANTINED; a compensation binding and a slot's words are written; everything named beside them stands. -/
def Obligations.LoopCommandsConfigureCells : Prop :=
  ∀ s : State,
    -- groups
    (∀ (t : Nat), t < 64 → admits s.dev (.lt t) 0x120 = true → Completes (.ltGrpStart t) s (fun d => ∀ c < 32, runBit d (.lc (32 * t + c)) = (rdBit s.dev (LT_GRP_MASK t) c || runBit s.dev (.lc (32 * t + c))))
      ∧ Completes (.ltGrpStop t) s (fun d => ∀ c < 32, runBit d (.lc (32 * t + c)) = (!rdBit s.dev (LT_GRP_MASK t) c && runBit s.dev (.lc (32 * t + c))))) ∧
    -- coef
    (∀ (g : Nat) (sec : Nat) (r : Nat) (v : W32), (g < 2048 ∧ sec < 8
        ∧ r < 5) → admits s.dev (.lc g) (0x200 + 0x20 * sec + 4 * r) = true → (cellOf s.dev g).st ≠ .running → exec (.coefWrite g sec r v) s = .next { s with dev := wr s.dev (coefAt g (fld (rd s.dev (LC_CSEL g)) 1 0) sec r) (w32 (fld v 15 0)) }) ∧
    -- route
    (∀ (g : Nat) (n : Nat), (g < 2048
        ∧ n < 32768) → admits s.dev (.lc g) (LC_OUT_DST g - lcBase g) = true → (cellOf s.dev g).st ≠ .running → rdBit s.dev (LC_OUT_DST g) 16 = false → sigTaken s.dev n clsCell g = false → Completes (.loopRouteWrite g false (w32 (65536 + n))) s (fun d => rd d (LC_OUT_DST g) = w32 (65536 + n)
        ∧ attrOf d n = (if (cellOf s.dev g).st ∈ [.fault, .quarantined] then putBit (attrWord clsCell g false) 30 true else attrWord clsCell g false)
      ∧ sigVal d n = sigForm false (ofQ15 (lcSafe s.dev g)) ∧ (∀ m, m ≠ n → attrOf d m = attrOf s.dev m ∧ sigVal d m = sigVal s.dev m)
        ∧ d.stage2 = s.dev.stage2)) ∧
    -- publish
    (∀ (g : Nat) (n : Nat), (g < 2048
        ∧ n ≤ 32764) → admits s.dev (.lc g) (LC_PUB g - lcBase g) = true → (cellOf s.dev g).st ≠ .running → rdBit s.dev (LC_PUB g) 16 = false → (∀ i < 4, sigTaken s.dev (n + i) clsCell g = false) → Completes (.loopRouteWrite g true (w32 (65536 + n))) s (fun d => rd d (LC_PUB g) = w32 (65536 + n)
        ∧ (∀ i < 4, attrOf d (n + i) = (if (cellOf s.dev g).st ∈ [.fault, .quarantined] then putBit (attrWord clsCell g false) 30 true
        else attrWord clsCell g false))
      ∧ sigVal d (n + 3) = sigForm false (ofQ15 (lcSafe s.dev g)) ∧ ∀ m, m < n ∨ n + 4 ≤ m → attrOf d m = attrOf s.dev m)) ∧
    -- bind
    (∀ (g : Nat) (v : W32), g < 2048 → admits s.dev (.lc g) 0x1A8 = true → (cellOf s.dev g).st ≠ .running → bit v 20 = false → exec (.compBindWrite g v) s = .next { s with dev := wr s.dev (LC_COMP_CFG g) (w32 (fld v 14 0 + fld v 18 16 * 65536)) }) ∧
    -- slot
    (∀ (t : Nat) (k : Nat) (e : Nat) (v : W32), (t < 64 ∧ k < 8
        ∧ e < 768) → admits s.dev (.lt t) (0x9000 + 0xC00 * k + 4 * e) = true → (∀ c < 32, (cellOf s.dev (32 * t + c)).st = .stopped) → Completes (.compSlotWrite t (0x9000 + 0xC00 * k + 4 * e) v) s (fun d => ctabV d (liveAt t k (2 * e)) = sgn 16 (fld v 15 0)
        ∧ ctabV d (liveAt t k (2 * e + 1)) = sgn 16 (fld v 31 16)
      ∧ (∀ n, n ≠ liveAt t k (2 * e) → n ≠ liveAt t k (2 * e + 1) → ctabV d n = ctabV s.dev n)
        ∧ d = { s.dev with ctab := d.ctab }))

/-- Tables are taken back or adopted, the budget returns, a scan ends, a supervisor trips (R126, R136, R138, R139). RESET_LIVE
and ADOPT copy a slot's 768 words one way and the other; the learning budget clears each second; the end of a drift scan latches
its maximum; a supervision trip is the cell's fault at that sample. -/
def Obligations.LoopTablesAndSupervision : Prop :=
  ∀ s : State,
    -- live
    (∀ (g : Nat), g < 2048 → admits s.dev (.lc g) 0x1EC = true → (cellOf s.dev g).st = .stopped → bound s.dev g = true → Completes (.resetLive g) s (fun d => (∀ e < 768, ctabV d (liveAt (g / 32) (slotNoOf s.dev g) e) = ctabV s.dev (commAt (g / 32) (slotNoOf s.dev g) e))
      ∧ (∀ n, (∀ e < 768, n ≠ liveAt (g / 32) (slotNoOf s.dev g) e) → ctabV d n = ctabV s.dev n) ∧ rd d (LC_DRIFT_MAX g) = 0)) ∧
    -- adopt
    (∀ (g : Nat), g < 2048 → admits s.dev (.lc g) 0x1EC = true → (cellOf s.dev g).st = .stopped → bound s.dev g = true → Completes (.adopt g) s (fun d => (∀ e < 768, ctabV d (commAt (g / 32) (slotNoOf s.dev g) e) = ctabV s.dev (liveAt (g / 32) (slotNoOf s.dev g) e))
      ∧ (∀ n, (∀ e < 768, n ≠ commAt (g / 32) (slotNoOf s.dev g) e) → ctabV d n = ctabV s.dev n) ∧ rd d (LC_DRIFT_MAX g) = 0)) ∧
    -- budget
    (∀ (g : Nat), g < 2048 → (bp s.dev + 1) % 100000 = 0 → exec (.learnBudgetReset g) s = .next { s with dev := wr s.dev (LC_LRN_STAT g) (putFld (rd s.dev (LC_LRN_STAT g)) 15 0 0) }) ∧
    -- scan
    (∀ (g : Nat), g < 2048 → bound s.dev g = true → (cellOf s.dev g).scanPos = 767 → Completes (.driftScanEnd g) s (fun d => cellOf d g = { cellOf s.dev g with scanPos := 0, scanMax := 0, scanIx := 0 }
      ∧ rd d (LC_DRIFT_MAX g) = w32 (if (cellOf s.dev g).scanMax < driftOf s.dev g 767 then (driftOf s.dev g 767) % 65536 + 65536 * 767 else (cellOf s.dev g).scanMax % 65536 + 65536 * (cellOf s.dev g).scanIx))) ∧
    -- trip
    (∀ (g : Nat), g < 2048 → (held s.dev = false ∧ (cellOf s.dev g).st = .running
        ∧ supMode s.dev g ≠ 0) → (cellOf (cellSample s.dev g) g).st = .fault → (fld (rd (cellSample s.dev g) (lcBase g + ERR_CODE)) 15 0 = 0x0210
        ∨ fld (rd (cellSample s.dev g) (lcBase g + ERR_CODE)) 15 0 = 0x0211) → exec (.supervisionTrip g) s = .next { s with dev := cellSample s.dev g })

/-- Converter cores: windows, wraps, results, starvation, sequences, settling, reference, rotation and calibration (R144, R145,
R146, R147, R150, R153, R155, R156, 06 Analog). A window start takes the next entry of the active sequence, or wraps with the tag
and a committed sequence; a finished conversion shows its result word; a channel without a result for 16 BP is invalid and shows
its safe value; a committed sequence is taken at once by an idle core and waits on a running one; settling, reference and
rotation change only their own flags and slices; a calibration stores its corrections or retires its slice; an uncorrectable
calibration store quarantines the core. -/
def Obligations.ConverterCoresTakeTheirWindows : Prop :=
  ∀ s : State,
    -- window
    (∀ (k : Nat) (w0 : Nat), k < 16 → (acConverts s.dev k = true
        ∧ paired s.dev k = false) → (coreOf s.dev k).pos + 1 < (coreOf s.dev k).len → (coreOf s.dev k).xchg = none → Completes (.adcWindowStart k w0) s (fun d => coreOf d k =
      { coreOf s.dev k with
      flight := (coreOf s.dev k).flight ++ [⟨seqEntry s.dev k (coreOf s.dev k).pos % 16, seqEntry s.dev k (coreOf s.dev k).pos / 128 % 2 == 1, (coreOf s.dev k).tag, (sliceIn (coreOf s.dev k) (fun t => t.role == .active && t.slot == (coreOf s.dev k).slot)).getD 0, w0, (coreOf s.dev k).settled⟩]
      slot := ((coreOf s.dev k).slot + 1) % 8
      pos := (coreOf s.dev k).pos + 1 } ∧ (∀ j, j ≠ k → coreOf d j = coreOf s.dev j) ∧ d = { s.dev with cores := d.cores })) ∧
    -- wrap
    (∀ (k : Nat) (w0 : Nat), k < 16 → (acConverts s.dev k = true
        ∧ paired s.dev k = false) → (coreOf s.dev k).len ≤ (coreOf s.dev k).pos + 1 → Completes (.adcWindowStart k w0) s (fun d => (coreOf d k).pos = 0
        ∧ (coreOf d k).tag = ((coreOf s.dev k).tag + 1) % 16 ∧ (coreOf d k).pend = false
      ∧ (coreOf d k).flight.length = (coreOf s.dev k).flight.length + 1
      ∧ (coreOf d k).len = if (coreOf s.dev k).pend then fld (rd s.dev (AC_SEQ_LEN k)) 6 0 else (coreOf s.dev k).len)) ∧
    -- done
    (∀ (k : Nat) (cv : Conv) (rest : List Conv) (sample : Int) (ovr : Bool), (k < 16
        ∧ cv.ch < 16) → (coreOf s.dev k).flight = cv :: rest → owMode s.dev (resCore s.dev k) cv.ch ≠ 2 → Completes (.adcConversionDone k sample ovr true) s (fun d => rd d (AC_CH_LAST (resCore s.dev k) cv.ch) = w32 (0x80000000 * b2n (cv.settled && settledOf s.dev k && (chOf s.dev (resCore s.dev k) cv.ch).settling.isNone)
      + 0x40000000 * b2n ((sliceOf (coreOf s.dev k) cv.slice).fresh && (cv.settled && settledOf s.dev k && (chOf s.dev (resCore s.dev k) cv.ch).settling.isNone)) + 0x20000000 * b2n (ovr || decide (0x800000 ≤ sample) || decide (sample ≤ -0x800000))
      + 0x10000000 * b2n (chOf d (resCore s.dev k) cv.ch).open_ + 0x1000000 * cv.tag + (clampI (-0x800000) 0x7FFFFF sample % 0x1000000).toNat)
      ∧ (coreOf d k).flight = rest ∧ d.stage1 = s.dev.stage1 ∧ d.sig = s.dev.sig)) ∧
    -- starved
    (∀ (k : Nat) (n : Nat), (k < 16 ∧ n < 16) → ((coreOf s.dev k).on = true ∧ (chOf s.dev k n).any_ = false
        ∧ 16 ≤ bp s.dev - (chOf s.dev k n).lastBp) → Completes (.adcChannelStarved k n) s (fun d => (∀ i < 16, bit (rd d (AC_INVAL k)) i = (decide (i = n) || bit (rd s.dev (AC_INVAL k)) i))
      ∧ d.stage1 = s.dev.stage1 ++ (if bit (rd s.dev (AC_CH_DST k n)) 16 && bit (rd s.dev (AC_CH_CFG k n)) 12
      then [⟨fld (rd s.dev (AC_CH_DST k n)) 14 0, acSafe s.dev k n, true⟩] else []) ∧ d.cores = s.dev.cores ∧ d.sig = s.dev.sig)) ∧
    -- commitIdle
    (∀ (k : Nat), k < 16 → admits s.dev (.ac k) 0x10C = true → (coreOf s.dev k).on = false → Completes (.seqCommit k) s (fun d => (∀ w < 16, rd d (AC_SEQA k w) = rd s.dev (AC_SEQ k w))
        ∧ coreOf d k =
      { coreOf s.dev k with
      len := fld (rd s.dev (AC_SEQ_LEN k)) 6 0
      pos := 0
      pend := false })) ∧
    -- commitRun
    (∀ (k : Nat), k < 16 → admits s.dev (.ac k) 0x10C = true → ((coreOf s.dev k).on = true ∧ (coreOf s.dev k).len ≠ 0
        ∧ paired s.dev k = false) → exec (.seqCommit k) s = .next { s with dev := setCore (issued s.dev (.ac k) 0x10C 1) k { coreOf s.dev k with pend := true } }) ∧
    -- settled
    (∀ (k : Nat) (n : Nat) (b : Nat), (k < 16 ∧ n < 16) → ((chOf s.dev k n).settling = some b
        ∧ b + 5 ≤ bp s.dev) → Completes (.rangeSettleEnd k n) s (fun d => chOf d k n = { chOf s.dev k n with settling := none } ∧ (∀ j m, (j ≠ k
        ∨ m ≠ n) → chOf d j m = chOf s.dev j m)
      ∧ d = { s.dev with cores := d.cores })) ∧
    -- ref
    (∀ (k : Nat), k < 16 → exec (.refSettle k) s = .next { s with dev := setCore s.dev k { coreOf s.dev k with settled := true } }
      ∧ exec (.refLost k) s = .next { s with dev := setCore s.dev k { coreOf s.dev k with settled := false } }) ∧
    -- rotation
    (∀ (k : Nat) (sp : Nat), k < 16 → ((coreOf s.dev k).on = true ∧ (coreOf s.dev k).quar = false ∧ (coreOf s.dev k).xchg = none
        ∧ calPaused s.dev k = false ∧ (coreOf s.dev k).rotAt ≠ some (bp s.dev)) → (0 < calPer s.dev k
        ∧ bp s.dev % calPer s.dev k = 0) → sliceIn (coreOf s.dev k) (fun t => t.role == .spare) = some sp → (nth (coreOf s.dev k).slices 0 default).role = .active → Completes (.calRotation k) s (fun d => ∃ out, (coreOf d k).xchg = some (out, sp)
        ∧ (nth (coreOf d k).slices out default).role = .active
      ∧ (∀ i < 9, (nth (coreOf d k).slices i default).role = .active → (nth (coreOf d k).slices i default).periods ≤ (nth (coreOf d k).slices out default).periods)
      ∧ (coreOf d k).slices = (coreOf s.dev k).slices.map (fun t => if t.role = .active then { t with periods := min 65535 (t.periods + 1) } else t)
      ∧ d = { s.dev with cores := d.cores })) ∧
    -- calGood
    (∀ (k : Nat) (i : Nat) (off : Int) (gain : Int) (skew : Int), (k < 16
        ∧ i < 9) → sliceIn (coreOf s.dev k) (fun t => t.role == .calibrating) = some i → ((coreOf s.dev k).quar = false
        ∧ calPaused s.dev k = false) → calGood off gain skew = true → Completes (.sliceCalDone k (some (off, gain, skew))) s (fun d => coreOf d k = setSlice (coreOf s.dev k) i ⟨.spare, 0, 0, false, 0⟩
      ∧ rd d (AC_CAL_CNT k) = rd s.dev (AC_CAL_CNT k) + 1 ∧ rd d (AC_SL_OFF k i) = w32 (off % 0x1000000).toNat
        ∧ rd d (AC_SL_GAIN k i) = w32 (gain % 0x1000000).toNat
      ∧ rd d (AC_SL_SKEW k i) = w32 (skew % 65536).toNat ∧ d.db = s.dev.db)) ∧
    -- calNone
    (∀ (k : Nat) (i : Nat), (k < 16 ∧ i < 9) → sliceIn (coreOf s.dev k) (fun t => t.role == .calibrating) = some i → ((coreOf s.dev k).quar = false
        ∧ calPaused s.dev k = false) → Completes (.sliceCalDone k none) s (fun d => coreOf d k = setSlice (coreOf s.dev k) i ⟨.retired, 0, 0, false, 0⟩
      ∧ rdN d (acBase k + ERR_CODE) % 65536 = 0x0406 ∧ rd d (acBase k + ERR_ADDR) = w32 i
      ∧ Recorded (err (setCore s.dev k (setSlice (coreOf s.dev k) i ⟨.retired, 0, 0, false, 0⟩)) (.ac k) 0x0406 i) d)) ∧
    -- storeUe
    (∀ (k : Nat), k < 16 → (coreOf s.dev k).quar = false → Completes (.calStoreUe k) s (fun d => coreOf d k =
      { coreOf s.dev k with
      quar := true
      xchg := none
      flight := [] } ∧ rdN d (acBase k + ERR_CODE) % 65536 = 0x0404 ∧ (∀ j, j ≠ k → coreOf d j = coreOf s.dev j) ∧ d.sig = s.dev.sig
        ∧ d.aos = s.dev.aos))

/-- The open-wire pulse clears, judges and ends for exactly the pulsed channels (R157, R158, 06 Analog). At BP 0, 100 and 150 of
every 10000: the pulse starts with empty histories, a channel is open exactly when eight samples were taken and all showed it,
and the end empties the histories; other channels stand, and so does a channel whose open-wire fields changed in this window. -/
def Obligations.OpenWirePulsesTestTheirChannels : Prop :=
  ∀ s : State,
    -- start
    (∀ (k : Nat) (n : Nat), bp s.dev % 10000 = 0 → (k, n) ∈ pulseChans s.dev → Completes .owPulseStart s (fun d => chOf d k n = { chOf s.dev k n with hist := [], skip := false }
        ∧ (∀ j m, (j, m) ∉ pulseChans s.dev → chOf d j m = chOf s.dev j m)
      ∧ d = { s.dev with cores := d.cores })) ∧
    -- end
    (∀ (k : Nat) (n : Nat), bp s.dev % 10000 = 150 → (k, n) ∈ pulseChans s.dev → Completes .owPulseEnd s (fun d => chOf d k n = { chOf s.dev k n with hist := [] }
        ∧ (∀ j m, (j, m) ∉ pulseChans s.dev → chOf d j m = chOf s.dev j m)
      ∧ d = { s.dev with cores := d.cores })) ∧
    -- decide
    (∀ (k : Nat) (n : Nat), bp s.dev % 10000 = 100 → (k, n) ∈ pulseChans s.dev → (chOf s.dev k n).skip = false → Completes .owPulseDecide s (fun d => (chOf d k n).open_ = (decide ((chOf s.dev k n).hist.length = 8) && (chOf s.dev k n).hist.all (· == true))
      ∧ (chOf d k n).hist = (chOf s.dev k n).hist ∧ (∀ j m, (j, m) ∉ pulseChans s.dev ∨ (chOf s.dev j m).skip = true → chOf d j m = chOf s.dev j m)
        ∧ d.sig = s.dev.sig ∧ d.stage1 = s.dev.stage1))

/-- Analog outputs and pins: over-temperature, current limit, read-back and undercurrent (R161, R162, R163, R168, R170, 06
Analog). A channel or pin in a live state takes its fault with the cause, its safe condition and the page's error code;
undercurrent sets its flag only. -/
def Obligations.OutputChannelsFault : Prop :=
  ∀ s : State,
    -- otemp
    (∀ (c : Nat), c < 64 → (((aoOf s.dev c).st = .running ∨ (aoOf s.dev c).st = .safe)) → Completes (.aoOtemp c) s (fun d => aoOf d c =
      { aoOf s.dev c with
      otemp := true
      st := .fault
      fcause := 2 } ∧ rd d (AO_FLT_CNT (c / 4) (c % 4)) = rd s.dev (AO_FLT_CNT (c / 4) (c % 4)) + 1
        ∧ rdN d (pageBase (.ao (c / 4)) + ERR_CODE) % 65536 = 0x0411 ∧ rd d (pageBase (.ao (c / 4)) + ERR_ADDR) = w32 c
        ∧ (∀ j, j ≠ c → aoOf d j = aoOf s.dev j) ∧ d.sig = s.dev.sig ∧ d.dios = s.dev.dios)
      ∧ Completes (.aoIlimFault c) s (fun d => aoOf d c =
      { aoOf s.dev c with
      ilim := true
      st := .fault
      fcause := 1 } ∧ rd d (AO_FLT_CNT (c / 4) (c % 4)) = rd s.dev (AO_FLT_CNT (c / 4) (c % 4)) + 1
        ∧ rdN d (pageBase (.ao (c / 4)) + ERR_CODE) % 65536 = 0x0411 ∧ rd d (pageBase (.ao (c / 4)) + ERR_ADDR) = w32 c
        ∧ (∀ j, j ≠ c → aoOf d j = aoOf s.dev j) ∧ d.sig = s.dev.sig ∧ d.dios = s.dev.dios)
      ∧ Completes (.aoReadbackFault c) s (fun d => aoOf d c =
      { aoOf s.dev c with
      rbDev := true
      st := .fault
      fcause := 3 } ∧ rd d (AO_FLT_CNT (c / 4) (c % 4)) = rd s.dev (AO_FLT_CNT (c / 4) (c % 4)) + 1
        ∧ rdN d (pageBase (.ao (c / 4)) + ERR_CODE) % 65536 = 0x0411 ∧ rd d (pageBase (.ao (c / 4)) + ERR_ADDR) = w32 c
        ∧ (∀ j, j ≠ c → aoOf d j = aoOf s.dev j) ∧ d.sig = s.dev.sig ∧ d.dios = s.dev.dios)) ∧
    -- pin
    (∀ (n : Nat), n < 128 → ((dioOf s.dev n).st = .running ∨ (dioOf s.dev n).st = .safe) → Completes (.dioOtemp n) s (fun d => dioOf d n =
      { dioOf s.dev n with
      otemp := true
      st := .fault
      fcause := 2
      queue := []
      level := false
      under := false
      underRun := 0 } ∧ rd d (DIO_FLT_CNT (n / 8) (n % 8)) = rd s.dev (DIO_FLT_CNT (n / 8) (n % 8)) + 1
        ∧ rdN d (pageBase (.dio (n / 8)) + ERR_CODE) % 65536 = 0x0421 ∧ rd d (pageBase (.dio (n / 8)) + ERR_ADDR) = w32 n
        ∧ (∀ j, j ≠ n → dioOf d j = dioOf s.dev j) ∧ d.sig = s.dev.sig ∧ d.aos = s.dev.aos)
      ∧ Completes (.dioIlimFault n) s (fun d => dioOf d n =
      { dioOf s.dev n with
      ilim := true
      st := .fault
      fcause := 1
      queue := []
      level := false
      under := false
      underRun := 0 } ∧ rd d (DIO_FLT_CNT (n / 8) (n % 8)) = rd s.dev (DIO_FLT_CNT (n / 8) (n % 8)) + 1
        ∧ rdN d (pageBase (.dio (n / 8)) + ERR_CODE) % 65536 = 0x0421 ∧ rd d (pageBase (.dio (n / 8)) + ERR_ADDR) = w32 n
        ∧ (∀ j, j ≠ n → dioOf d j = dioOf s.dev j) ∧ d.sig = s.dev.sig ∧ d.aos = s.dev.aos)) ∧
    -- under
    (∀ (n : Nat), n < 128 → ((dioOf s.dev n).level = true ∧ fld (rd s.dev (DIO_IMIN (n / 8) (n % 8))) 9 0 ≠ 0) → exec (.dioUndercurrent n) s = .next { s with dev := setDio s.dev n { dioOf s.dev n with under := true } })

/-- Digital pins: accepted edges and scheduled switchings (R167, R169, 06 Analog). An accepted edge latches its instant in the
rising or the falling stamp and counts; a push in time joins the queue, a flush empties it; a switching that is due drives the
pin and leaves the queue. -/
def Obligations.DigitalPinsTimeTheirEdges : Prop :=
  ∀ s : State,
    -- edge
    (∀ (n : Nat) (lvl : Bool) (ts : Nat), n < 128 → (dioOf s.dev n).st = .input → (dioOf s.dev n).acc = !(xor lvl (bit (dioCfg s.dev n) 2)) → Completes (.dioInputEdge n lvl ts) s (fun d => dioOf d n =
      { dioOf s.dev n with
      raw := lvl
      acc := (xor lvl (bit (dioCfg s.dev n) 2)) }
        ∧ rd64 d (if (xor lvl (bit (dioCfg s.dev n) 2)) then DIO_TS_RISE (n / 8) (n % 8) else DIO_TS_FALL (n / 8) (n % 8)) = mk64 (lo64 ts) (hi64 ts)
      ∧ rd64 d (if (xor lvl (bit (dioCfg s.dev n) 2)) then DIO_TS_FALL (n / 8) (n % 8) else DIO_TS_RISE (n / 8) (n % 8)) = rd64 s.dev (if (xor lvl (bit (dioCfg s.dev n) 2)) then DIO_TS_FALL (n / 8) (n % 8) else DIO_TS_RISE (n / 8) (n % 8))
      ∧ rd d (DIO_EDGE_CNT (n / 8) (n % 8)) = rd s.dev (DIO_EDGE_CNT (n / 8) (n % 8)) + 1 ∧ (∀ j, j ≠ n → dioOf d j = dioOf s.dev j)
        ∧ d.stage1 = s.dev.stage1)) ∧
    -- push
    (∀ (n : Nat) (lvl : Bool), n < 128 → admits s.dev (.dio (n / 8)) (0x214 + 0x40 * (n % 8)) = true → (dioMode s.dev n = 3
        ∧ (dioOf s.dev n).queue.length < 4) → (∀ e ∈ (dioOf s.dev n).queue.getLast?, e.1 < rd64 s.dev (DIO_SCH_TIME (n / 8) (n % 8))) → s.dev.tt + 10000 < rd64 s.dev (DIO_SCH_TIME (n / 8) (n % 8)) → exec (.dioSchPush n lvl) s = .next { s with dev := setDio s.dev n { dioOf s.dev n with queue := (dioOf s.dev n).queue ++ [(rd64 s.dev (DIO_SCH_TIME (n / 8) (n % 8)), lvl)] } }) ∧
    -- flush
    (∀ (n : Nat), n < 128 → admits s.dev (.dio (n / 8)) (0x214 + 0x40 * (n % 8)) = true → exec (.dioSchFlush n) s = .next { s with dev := setDio s.dev n { dioOf s.dev n with queue := [] } }) ∧
    -- switch
    (∀ (n : Nat) (t : Nat) (lvl : Bool) (rest : List (Nat × Bool)), n < 128 → ((dioOf s.dev n).queue = (t, lvl) :: rest ∧ t ≤ tbNs s.dev
        ∧ (dioOf s.dev n).st = .running) → (lvl = false
        ∨ (dioOf s.dev n).level = true) → exec (.dioSchedSwitch n) s = .next { s with dev := setDio (setDio s.dev n { dioOf s.dev n with queue := rest }) n (if lvl then { dioOf s.dev n with
      queue := rest
      level := true } else { dioOf s.dev n with
      queue := rest
      level := false
      under := false
      underRun := 0 }) }) ∧
    -- switchOn
    (∀ (n : Nat) (t : Nat) (rest : List (Nat × Bool)), n < 128 → ((dioOf s.dev n).queue = (t, true) :: rest ∧ t ≤ tbNs s.dev
        ∧ (dioOf s.dev n).st = .running ∧ (dioOf s.dev n).level = false) → Completes (.dioSchedSwitch n) s (fun d => dioOf d n =
      { dioOf s.dev n with
      queue := rest
      level := true } ∧ (wearOf d n).count = (wearOf s.dev n).count + 1 ∧ (∀ j, j ≠ n → dioOf d j = dioOf s.dev j) ∧ d.sig = s.dev.sig))

/-- Axes: absolute and relative moves, replans, updates and jogs (R180, R182, R183, R184, R186, 07 Motion). An accepted move from
rest plans its profile to the target and enters MOVING; a move to the commanded position completes at once; a replan in motion
keeps position and speed and takes the overshoot flag where the turn point lies beyond; UPDATE replans to the target it has; a
jog plans to the velocity. Profiles other than these are log entry 11's. -/
def Obligations.AxesTakeMoveCommands : Prop :=
  ∀ s : State,
    -- move
    (∀ (a : Nat), a < 64 → admits s.dev (.ax a) 0x100 = true → moveRefusal s.dev a (axReg s.dev (AX_TGT a)) true = none → ((axOf s.dev a).v = 0
        ∧ ¬((axOf s.dev a).st = .idle
        ∧ axReg s.dev (AX_TGT a) = posCmd (axOf s.dev a))) → exec (.axMoveAbs a) s = .next { s with dev := setAx (issued s.dev (.ax a) 0x100 1) a { axOf s.dev a with
      st := .moving
      target := axReg s.dev (AX_TGT a)
      jog := false
      jogDir := 0
      done := false
      interrupted := false
      estop := false
      overshoot := false
      reverse := false
      lim := axRegs s.dev a
      plan := planTo (axOf s.dev a) (axReg s.dev (AX_TGT a)) (axReg s.dev (AX_VMAX a)) (axReg s.dev (AX_AMAX a)) (axReg s.dev (AX_DMAX a)) (axReg s.dev (AX_JMAX a)) false } }) ∧
    -- moveRel
    (∀ (a : Nat), a < 64 → admits s.dev (.ax a) 0x100 = true → moveRefusal s.dev a (relTarget s.dev a (axReg s.dev (AX_TGT a))) false = none → ((axOf s.dev a).v = 0
        ∧ ¬((axOf s.dev a).st = .idle
        ∧ relTarget s.dev a (axReg s.dev (AX_TGT a)) = posCmd (axOf s.dev a))) → exec (.axMoveRel a) s = .next { s with dev := setAx (issued s.dev (.ax a) 0x100 2) a { axOf s.dev a with
      st := .moving
      target := (if (axOf s.dev a).st = .idle then posCmd (axOf s.dev a) else (axOf s.dev a).target) + axReg s.dev (AX_TGT a)
      jog := false
      jogDir := 0
      done := false
      interrupted := false
      estop := false
      overshoot := false
      reverse := false
      lim := axRegs s.dev a
      plan := planTo (axOf s.dev a) (relTarget s.dev a (axReg s.dev (AX_TGT a))) (axReg s.dev (AX_VMAX a)) (axReg s.dev (AX_AMAX a)) (axReg s.dev (AX_DMAX a)) (axReg s.dev (AX_JMAX a)) false } }) ∧
    -- moveDone
    (∀ (a : Nat), a < 64 → admits s.dev (.ax a) 0x100 = true → moveRefusal s.dev a (posCmd (axOf s.dev a)) true = none → ((axOf s.dev a).st = .idle
        ∧ axReg s.dev (AX_TGT a) = posCmd (axOf s.dev a)) → exec (.axMoveAbs a) s = .next { s with dev := bump (setAx (issued s.dev (.ax a) 0x100 1) a { axOf s.dev a with done := true, target := posCmd (axOf s.dev a), overshoot := false, reverse := false, interrupted := false, lim := axRegs s.dev a }) (AX_MOVE_CNT a) }) ∧
    -- moveUp
    (∀ (a : Nat), a < 64 → admits s.dev (.ax a) 0x100 = true → moveRefusal s.dev a (axReg s.dev (AX_TGT a)) true = none → ((axOf s.dev a).st ≠ .idle
        ∧ 0 < (axOf s.dev a).v ∧ posCmd (axOf s.dev a) ≤ axReg s.dev (AX_TGT a) ∧ (softOn (axOf s.dev a) = false
        ∨ posCmd (axOf s.dev a) + haltDist (axOf s.dev a) (axReg s.dev (AX_DMAX a)) (axReg s.dev (AX_JMAX a)) ≤ axReg s.dev (AX_TGT a))) → Completes (.axMoveAbs a) s (fun d => (axOf d a).st = .moving
        ∧ (axOf d a).target = axReg s.dev (AX_TGT a)
        ∧ (axOf d a).overshoot = decide (axReg s.dev (AX_TGT a) < posCmd (axOf s.dev a) + haltDist (axOf s.dev a) (axReg s.dev (AX_DMAX a)) (axReg s.dev (AX_JMAX a)))
        ∧ (axOf d a).reverse = false
      ∧ (axOf d a).p = (axOf s.dev a).p ∧ (axOf d a).v = (axOf s.dev a).v ∧ (∀ b, b ≠ a → axOf d b = axOf s.dev b) ∧ d.sig = s.dev.sig)) ∧
    -- update
    (∀ (a : Nat), a < 64 → admits s.dev (.ax a) 0x100 = true → (∀ x ∈ moveLimits s.dev a, 0 < x) → ((axOf s.dev a).st = .moving ∧ (axOf s.dev a).jogDir = 0
        ∧ 0 < (axOf s.dev a).v) → (softOn (axOf s.dev a) = false
        ∨ beyond s.dev a (axOf s.dev a).target = false) → (posCmd (axOf s.dev a) ≤ (axOf s.dev a).target
        ∧ posCmd (axOf s.dev a) + haltDist (axOf s.dev a) (axReg s.dev (AX_DMAX a)) (axReg s.dev (AX_JMAX a)) ≤ (axOf s.dev a).target) → (towardsLimit (axOf s.dev a) ((axOf s.dev a).target - posCmd (axOf s.dev a)) = false
        ∧ rateOk s.dev a (axReg s.dev (AX_VMAX a)) = true) → Completes (.axUpdate a) s (fun d => (axOf d a).st = .moving
        ∧ (axOf d a).target = (axOf s.dev a).target ∧ (axOf d a).overshoot = false ∧ (axOf d a).reverse = false
      ∧ (axOf d a).plan = planTo (axOf s.dev a) (axOf s.dev a).target (axReg s.dev (AX_VMAX a)) (axReg s.dev (AX_AMAX a)) (axReg s.dev (AX_DMAX a)) (axReg s.dev (AX_JMAX a)) false
      ∧ (axOf d a).p = (axOf s.dev a).p ∧ (axOf d a).v = (axOf s.dev a).v ∧ (∀ b, b ≠ a → axOf d b = axOf s.dev b) ∧ d.sig = s.dev.sig)) ∧
    -- jog
    (∀ (a : Nat), a < 64 → admits s.dev (.ax a) 0x100 = true → (∀ x ∈ moveLimits s.dev a, 0 < x) → ((axOf s.dev a).st = .idle ∧ (axOf s.dev a).v = 0
        ∧ softOn (axOf s.dev a) = false) → ((axOf s.dev a).limP.on = false ∧ (axOf s.dev a).limN.on = false ∧ gateClosed s.dev a = false
        ∧ rateOk s.dev a (axReg s.dev (AX_VMAX a)) = true) → exec (.axJogPos a) s = .next { s with dev := setAx (issued s.dev (.ax a) 0x100 4) a { axOf s.dev a with
      st := .moving
      jogDir := 1
      jog := true
      done := false
      overshoot := false
      reverse := false
      interrupted := false
      estop := false
      lim := axRegs s.dev a
      target := axReg s.dev (AX_SLIM_POS a)
      plan := planSpeed (axOf s.dev a) (1 * axReg s.dev (AX_VMAX a)) (axReg s.dev (AX_AMAX a)) (axReg s.dev (AX_DMAX a)) (axReg s.dev (AX_JMAX a)) } }
      ∧ exec (.axJogNeg a) s = .next { s with dev := setAx (issued s.dev (.ax a) 0x100 5) a { axOf s.dev a with
      st := .moving
      jogDir := -1
      jog := true
      done := false
      overshoot := false
      reverse := false
      interrupted := false
      estop := false
      lim := axRegs s.dev a
      target := axReg s.dev (AX_SLIM_NEG a)
      plan := planSpeed (axOf s.dev a) ((-1) * axReg s.dev (AX_VMAX a)) (axReg s.dev (AX_AMAX a)) (axReg s.dev (AX_DMAX a)) (axReg s.dev (AX_JMAX a)) } })

/-- Axes: stop, gear release, emergency stop, homing, gearing and SET_POS (R180, R181, R188, R192, R193, R205, R206, 07 Motion).
In the states that Table 7-6 allows and with limits above 0: STOP and GEAR_RELEASE plan to rest, ESTOP halts under its own
limits, HOME starts its search or takes the present position, GEAR_ENGAGE latches master and position, GEAR_ARM arms, SET_POS
shifts the position. -/
def Obligations.AxesStopHomeAndFollow : Prop :=
  ∀ s : State,
    -- stop
    (∀ (a : Nat), a < 64 → admits s.dev (.ax a) 0x100 = true → (0 < axReg s.dev (AX_DMAX a) ∧ 0 < axReg s.dev (AX_JMAX a)) → ((axOf s.dev a).st = .moving
        ∨ (axOf s.dev a).st = .homing
        ∨ (axOf s.dev a).st = .geared) → exec (.axStop a) s = .next { s with dev := setAx (issued s.dev (.ax a) 0x100 6) a { axOf s.dev a with
      st := .stopping
      lim := axRegs s.dev a
      plan := planHalt (axOf s.dev a) (axReg s.dev (AX_DMAX a)) (axReg s.dev (AX_JMAX a))
      jog := false
      armed := none
      estop := false
      done := false
      hres := if (axOf s.dev a).st = .homing then 4 else (axOf s.dev a).hres
      hphase := 0
      hnext := .none } }) ∧
    -- release
    (∀ (a : Nat), a < 64 → admits s.dev (.ax a) 0x100 = true → (0 < axReg s.dev (AX_DMAX a)
        ∧ 0 < axReg s.dev (AX_JMAX a)) → (axOf s.dev a).st = .geared → exec (.axGearRelease a) s = .next { s with dev := setAx (issued s.dev (.ax a) 0x100 11) a { axOf s.dev a with
      st := .stopping
      lim := axRegs s.dev a
      plan := planHalt (axOf s.dev a) (axReg s.dev (AX_DMAX a)) (axReg s.dev (AX_JMAX a))
      jog := false
      armed := none
      estop := false
      done := false
      hphase := 0
      hnext := .none } }) ∧
    -- estop
    (∀ (a : Nat), a < 64 → admits s.dev (.ax a) 0x100 = true → (0 < axReg s.dev (AX_EDEC a)
        ∧ 0 < axReg s.dev (AX_EJERK a)) → ((axOf s.dev a).st = .moving ∨ (axOf s.dev a).st = .stopping ∨ (axOf s.dev a).st = .homing
        ∨ (axOf s.dev a).st = .geared) → exec (.axEstop a) s = .next { s with dev := setAx (issued s.dev (.ax a) 0x100 7) a { axOf s.dev a with
      st := .estopping
      plan := planHalt (axOf s.dev a) (axReg s.dev (AX_EDEC a)) (axReg s.dev (AX_EJERK a))
      jog := false
      armed := none
      estop := true
      hres := if (axOf s.dev a).st = .homing then 4 else (axOf s.dev a).hres
      hphase := 0
      hnext := .none } }) ∧
    -- home
    (∀ (a : Nat), a < 64 → admits s.dev (.ax a) 0x100 = true → ((axOf s.dev a).st = .idle ∧ gateClosed s.dev a = false
        ∧ rateOk s.dev a (axReg s.dev (AX_VMAX a)) = true) → (∀ x ∈ [axReg s.dev (AX_AMAX a), axReg s.dev (AX_DMAX a), axReg s.dev (AX_JMAX a)] ++ hVels (axRegs s.dev a) (hMethod s.dev a), 0 < x) → (hMethod s.dev a < 7
        ∧ (3 < hMethod s.dev a ∨ (axOf s.dev a).home.on = false)) → Completes (.axHome a) s (fun d => (axOf d a).st = .homing ∧ (axOf d a).hphase = 1
        ∧ (axOf d a).ref = false ∧ (axOf d a).hres = 0 ∧ (axOf d a).hdir = hSearchDir (hMethod s.dev a)
      ∧ (axOf d a).plan = planSpeed (axOf s.dev a) (hSearchDir (hMethod s.dev a) * hSearchVel (axRegs s.dev a) (hMethod s.dev a)) (axReg s.dev (AX_AMAX a)) (axReg s.dev (AX_DMAX a)) (axReg s.dev (AX_JMAX a))
      ∧ (axOf d a).p = (axOf s.dev a).p ∧ (∀ b, b ≠ a → axOf d b = axOf s.dev b) ∧ d.sig = s.dev.sig)) ∧
    -- homeHere
    (∀ (a : Nat), a < 64 → admits s.dev (.ax a) 0x100 = true → ((axOf s.dev a).st = .idle ∧ gateClosed s.dev a = false
        ∧ rateOk s.dev a (axReg s.dev (AX_VMAX a)) = true) → (0 < axReg s.dev (AX_AMAX a) ∧ 0 < axReg s.dev (AX_DMAX a)
        ∧ 0 < axReg s.dev (AX_JMAX a)) → hMethod s.dev a = 7 → Completes (.axHome a) s (fun d => (axOf d a).st = .homing ∧ (axOf d a).hphase = 4
        ∧ (axOf d a).hnext = .ok ∧ (axOf d a).p = (axOf s.dev a).p + (axReg s.dev (AX_HOME_OFS a) - posAct s.dev a) * 2 ^ 48
      ∧ (axOf d a).fbOff = (axOf s.dev a).fbOff + (axReg s.dev (AX_HOME_OFS a) - posAct s.dev a) ∧ (∀ b, b ≠ a → axOf d b = axOf s.dev b)
        ∧ d.sig = s.dev.sig)) ∧
    -- engage
    (∀ (a : Nat), a < 64 → admits s.dev (.ax a) 0x100 = true → ((axOf s.dev a).st = .idle ∧ gateClosed s.dev a = false ∧ (rdBit s.dev (AX_CFG a) 7 = false
        ∨ (axOf s.dev a).ref = true)) → rdN s.dev (AX_GEAR_DEN a) ≠ 0 → exec (.axGearEngage a) s = .next { s with dev := setAx (issued s.dev (.ax a) 0x100 9) a { axOf s.dev a with
      st := .geared
      m0 := (axOf s.dev a).m * 65536
      f0 := posCmd (axOf s.dev a)
      num := sgn 32 (rdN s.dev (AX_GEAR_NUM a))
      den := rdN s.dev (AX_GEAR_DEN a)
      armed := none
      plan := []
      lim := axRegs s.dev a } }) ∧
    -- arm
    (∀ (a : Nat), a < 64 → admits s.dev (.ax a) 0x100 = true → ((axOf s.dev a).st = .geared
        ∧ rdN s.dev (AX_GEAR_ADEN a) ≠ 0) → exec (.axGearArm a) s = .next { s with dev := setAx (issued s.dev (.ax a) 0x100 10) a { axOf s.dev a with armed := some ⟨sgn 32 (rdN s.dev (AX_GEAR_ANUM a)), rdN s.dev (AX_GEAR_ADEN a), rdBit s.dev (AX_GEAR_ADIR a) 0, axReg s.dev (AX_GEAR_MPOS a)⟩ } }) ∧
    -- setPos
    (∀ (a : Nat), a < 64 → admits s.dev (.ax a) 0x100 = true → ((axOf s.dev a).st = .idle
        ∨ (axOf s.dev a).st = .disabled) → exec (.axSetPos a) s = .next { s with dev := setAx (issued s.dev (.ax a) 0x100 12) a { axOf s.dev a with
      p := (axOf s.dev a).p + (axReg s.dev (AX_TGT a) - posCmd (axOf s.dev a)) * 2 ^ 48
      fbOff := (axOf s.dev a).fbOff + (axReg s.dev (AX_TGT a) - posCmd (axOf s.dev a))
      hist := (axOf s.dev a).hist.map (· + (axReg s.dev (AX_TGT a) - posCmd (axOf s.dev a)))
      ref := true } })

/-- Motion tile groups command the masked axes (R172, R180, R95, 07 Motion). GRP_START and GRP_STOP write RUN of the masked axes
and keep every axis; GRP_GO starts the move of every masked axis that accepts it and leaves every other axis. -/
def Obligations.MotionTilesCommandTheirAxes : Prop :=
  ∀ s : State,
    -- run
    (∀ (m : Nat), m < 8 → admits s.dev (.mt m) 0x118 = true → Completes (.mtGrpStart m) s (fun d => (∀ i < 8, runBit d (.ax (8 * m + i)) = (rdBit s.dev (MT_GRP_MASK m) i || runBit s.dev (.ax (8 * m + i))))
        ∧ d.axes = s.dev.axes)
      ∧ Completes (.mtGrpStop m) s (fun d => (∀ i < 8, runBit d (.ax (8 * m + i)) = (!rdBit s.dev (MT_GRP_MASK m) i && runBit s.dev (.ax (8 * m + i))))
        ∧ d.axes = s.dev.axes)) ∧
    -- go
    (∀ (m : Nat), m < 8 → admits s.dev (.mt m) 0x118 = true → (∀ i < 8, (axOf s.dev (8 * m + i)).v = 0) → (∀ i < 8, rdBit s.dev (MT_GRP_MASK m) i = true → moveRefusal s.dev (8 * m + i) (axReg s.dev (AX_TGT (8 * m + i))) true = none) → (∀ i < 8, rdBit s.dev (MT_GRP_MASK m) i = true → axReg s.dev (AX_TGT (8 * m + i)) ≠ posCmd (axOf s.dev (8 * m + i))) → Completes (.mtGrpGo m) s (fun d => (∀ i < 8, axOf d (8 * m + i) = if rdBit s.dev (MT_GRP_MASK m) i then { axOf s.dev (8 * m + i) with st := .moving, target := axReg s.dev (AX_TGT (8 * m + i)), jog := false, jogDir := 0, done := false, interrupted := false, estop := false, overshoot := false, reverse := false, lim := axRegs s.dev (8 * m + i), plan := planTo (axOf s.dev (8 * m + i)) (axReg s.dev (AX_TGT (8 * m + i))) (axReg s.dev (AX_VMAX (8 * m + i))) (axReg s.dev (AX_AMAX (8 * m + i))) (axReg s.dev (AX_DMAX (8 * m + i))) (axReg s.dev (AX_JMAX (8 * m + i))) false } else axOf s.dev (8 * m + i))
      ∧ (∀ b, b < 8 * m ∨ 8 * m + 8 ≤ b → axOf d b = axOf s.dev b) ∧ d.sig = s.dev.sig))

/-- Axes: profile ends, standstills, switches, stalls and chatter (R180, R189, R195, R204, R205, R206, R208, 07 Motion). The end
of a profile ends its move and counts; a standstill ends STOPPING, ESTOPPING and homing as Table 7-6 says; a debounced
switch is taken with its position, and a limit in the direction of travel halts the axis; a standing deviation is STALL; too many
switch changes end homing. -/
def Obligations.AxesEndTheirMoves : Prop :=
  ∀ s : State,
    -- profileEnd
    (∀ (a : Nat), a < 64 → ((axOf s.dev a).st = .moving ∧ (axOf s.dev a).jog = false
        ∧ (axOf s.dev a).plan = []) → exec (.axisProfileEnd a) s = .next { s with dev := bump (setAx s.dev a { axOf s.dev a with st := .idle, done := true }) (AX_MOVE_CNT a) }) ∧
    -- standstill
    (∀ (a : Nat), a < 64 → atRest (axOf s.dev a) = true → (axOf s.dev a).st = .stopping → exec (.axisStandstill a) s = .next { s with dev := bump (setAx s.dev a { axOf s.dev a with st := (if runBit s.dev (.ax a) then AxSt.idle else .disabled), done := true }) (AX_MOVE_CNT a) }) ∧
    -- standEstop
    (∀ (a : Nat), a < 64 → atRest (axOf s.dev a) = true → (axOf s.dev a).st = .estopping → exec (.axisStandstill a) s = .next { s with dev := setAx s.dev a { axOf s.dev a with st := if runBit s.dev (.ax a) then AxSt.idle else .disabled } }) ∧
    -- standHome
    (∀ (a : Nat), a < 64 → atRest (axOf s.dev a) = true → ((axOf s.dev a).st = .homing
        ∧ (axOf s.dev a).hnext = .ok) → exec (.axisStandstill a) s = .next { s with dev := bump (setAx s.dev a { axOf s.dev a with st := .idle, hres := 1, hphase := 0, hnext := .none, ref := true, done := true }) (AX_MOVE_CNT a) }) ∧
    -- switchHome
    (∀ (a : Nat) (on : Bool), a < 64 → ((axOf s.dev a).st ≠ .homing ∧ (axOf s.dev a).home.on ≠ on
        ∧ bit (rd s.dev (AX_HOME_SRC a)) 22 = true) → exec (.switchDebounced a 0 on) s = .next { s with dev := setAx s.dev a { axOf s.dev a with home := ⟨on, 0, posAct s.dev a, idxCount s.dev a⟩ } }) ∧
    -- switchLimit
    (∀ (a : Nat), a < 64 → ((axOf s.dev a).st = .moving ∧ (axOf s.dev a).limP.on = false ∧ bit (rd s.dev (AX_LIMP_SRC a)) 22 = true
        ∧ 0 < (axOf s.dev a).v) → exec (.switchDebounced a 2 true) s = .next { s with dev := err (setAx (setAx s.dev a { axOf s.dev a with limP := ⟨true, 0, posAct s.dev a, idxCount s.dev a⟩ }) a { axOf s.dev a with limP := ⟨true, 0, posAct s.dev a, idxCount s.dev a⟩, st := .estopping, plan := planHalt (axOf s.dev a) (axReg s.dev (AX_EDEC a)) (axReg s.dev (AX_EJERK a)), jog := false, estop := true, armed := none }) (.ax a) 0x0322 0 }) ∧
    -- stall
    (∀ (a : Nat), a < 64 → ((axOf s.dev a).devOut = true ∧ fld (rd s.dev (AX_DEV_CFG a)) 31 16 ≤ (axOf s.dev a).devTimer
        ∧ axLive (axOf s.dev a).st = true) → Completes (.axisStall a) s (fun d => axOf d a = { axOf s.dev a with st := .fault, hphase := 0, hnext := .none, plan := planHalt (axOf s.dev a) (axReg s.dev (AX_EDEC a)) (axReg s.dev (AX_EJERK a)), jog := false, estop := true, armed := none }
      ∧ rdN d (axBase a + ERR_CODE) % 65536 = 0x0311
        ∧ rd64 d (AX_FLT_POS a) = mk64 (lo64 (u64 (posCmd (axOf s.dev a)))) (hi64 (u64 (posCmd (axOf s.dev a)))) ∧ (∀ b, b ≠ a → axOf d b = axOf s.dev b)
        ∧ d.sig = s.dev.sig)) ∧
    -- chatter
    (∀ (a : Nat), a < 64 → ((axOf s.dev a).st = .homing ∧ fld (rd s.dev (AX_SW_FILT a)) 19 16 < (axOf s.dev a).chat
        ∧ (axOf s.dev a).hnext ≠ .chatter ∧ (axOf s.dev a).hnext ≠ .fail) → Completes (.homeChatter a) s (fun d => axOf d a = { axOf s.dev a with hphase := 0, hnext := .chatter, plan := planHalt (axOf s.dev a) (axReg s.dev (AX_EDEC a)) (axReg s.dev (AX_EJERK a)), jog := false, estop := true, armed := none }
      ∧ rdN d (axBase a + ERR_CODE) % 65536 = 0x0321
        ∧ rd64 d (AX_FLT_POS a) = mk64 (lo64 (u64 (posCmd (axOf s.dev a)))) (hi64 (u64 (posCmd (axOf s.dev a)))) ∧ (∀ b, b ≠ a → axOf d b = axOf s.dev b)
        ∧ d.sig = s.dev.sig))

/-- Encoder interfaces: quadrature errors, index marks and SSI frames (R201, R202, R203, 07 Motion). A quadrature error counts
and clears VALID; an index mark latches position and stamp and counts; an accepted SSI frame is the position, in Gray code
converted; a bad one counts and three in a row clear VALID. -/
def Obligations.EncodersCount : Prop :=
  ∀ s : State,
    -- quad
    (∀ (e : Nat), e < 32 → (runBit s.dev (.enc e) = true
        ∧ encMode s.dev e = 1) → exec (.encQuadError e) s = .next { s with dev := setEnc (bump s.dev (ENC_QERR_CNT e)) e { encOf s.dev e with valid := false } }) ∧
    -- index
    (∀ (e : Nat) (pos : Nat) (ts : Nat), e < 32 → (runBit s.dev (.enc e) = true ∧ encMode s.dev e = 1
        ∧ rdBit s.dev (ENC_CFG e) 6 = true) → Completes (.encIndex e pos ts) s (fun d => rd64 d (ENC_Z_POS e) = mk64 (lo64 pos) (hi64 pos)
        ∧ rd64 d (ENC_Z_TS e) = mk64 (lo64 ts) (hi64 ts)
      ∧ rd d (ENC_Z_CNT e) = rd s.dev (ENC_Z_CNT e) + 1 ∧ rd64 d (ENC_POS e) = rd64 s.dev (ENC_POS e) ∧ encOf d e = { encOf s.dev e with z := !rdBit s.dev (ENC_CFG e) 7 } ∧ (∀ j, j ≠ e → encOf d j = encOf s.dev j) ∧ d.stage1 = s.dev.stage1)) ∧
    -- ssi
    (∀ (e : Nat) (raw : Nat), e < 32 → (runBit s.dev (.enc e) = true ∧ encMode s.dev e = 2
        ∧ rdBit s.dev (ENC_SSI e) 6 = false) → exec (.ssiFrame e raw true) s = .next { s with dev := setEnc (wr64 s.dev (ENC_POS e) (raw % 2 ^ fld (rd s.dev (ENC_SSI e)) 5 0)) e { encOf s.dev e with valid := true, ssiErr := 0 } }
      ∧ exec (.ssiFrame e raw false) s = .next { s with dev := setEnc (bump s.dev (ENC_SSI_ERR_CNT e)) e { encOf s.dev e with ssiErr := (encOf s.dev e).ssiErr + 1, valid := (encOf s.dev e).valid && decide ((encOf s.dev e).ssiErr + 1 < 3) } }) ∧
    -- ssiGray
    (∀ (e : Nat) (raw : Nat), e < 32 → (runBit s.dev (.enc e) = true ∧ encMode s.dev e = 2
        ∧ rdBit s.dev (ENC_SSI e) 6 = true) → exec (.ssiFrame e raw true) s = .next { s with dev := setEnc (wr64 s.dev (ENC_POS e) (grayNat 6 (raw % 2 ^ fld (rd s.dev (ENC_SSI e)) 5 0) % 2 ^ fld (rd s.dev (ENC_SSI e)) 5 0)) e { encOf s.dev e with valid := true, ssiErr := 0 } })

/-- NOP commands do nothing but be written (02 Host link and registers, Tables 3-4, 7-3, 8-9, 10-6, 11-4, 12-14, 13-4, 14-9,
16-5, 17-2, 18-3). For each of the fifteen NOP commands of command registers: admitted, it leaves its code in the command
register and its place in the pair's order, and nothing else. -/
def Obligations.NoOperationCommandsAreOnlyIssued : Prop :=
  ∀ s : State,
    -- nop
    (∀ (l : Nat) (a : Nat) (p : Nat) (g : Nat) (x : Nat) (c : Nat) (e : Instr × Page × Nat × W32), (l < 16 ∧ a < 64 ∧ p < 4 ∧ g < 16 ∧ x < 8
        ∧ c < 8) → e ∈ [(.laneNop l, .sq l, 0x100, 0), (.axNop a, .ax a, 0x100, 0), (.lpNop p, .lp p, 0x100, 0), (.twNop, .tw, 0x104, 0), (.glNop, .gl, 0x108, 0), (.sbNop, .sb, 0x108, 0), (.plNop g, .pl g, 0x104, 0), (.plLcmdNop g, .pl g, 0x108, 0), (.cxNop x, .cx x, 0x10C, 0), (.tbNop, .tb, 0x120, 0), (.trNop, .tr, 0x104, 0), (.coreNop c, .tl, 0x10C, w32 c), (.tkNop, .tk, 0x108, 0), (.pwrNop, .pwr, 0x104, 0), (.wlNop, .hlth, 0x18C, 0)] → admits s.dev e.2.1 e.2.2.1 = true → exec e.1 s = .next { s with dev := issued s.dev e.2.1 e.2.2.1 e.2.2.2 })

/-- Logic instructions on LB, ACC and X, branches and jumps (R217, R220, R221, 08 Logic processors, Tables 8-8 and 8-9). For the
instruction word at the program counter of the instance that is to run: each of the listed opcodes has its value in LB, ACC, X,
the branch stack or the program counter, costs its cycles, and leaves every slot, memory, flag and other processor. -/
def Obligations.BitInstructionsWorkOnLB : Prop :=
  ∀ s : State,
    -- bits
    (∀ (p : Nat) (t : TInst) (w : W32) (e : Instr × Nat × Bool), p < 4 → nextInsn s.dev p = some (t, w) → e ∈ [(.lgNop p, 0x00, t.lb), (.lgLd p, 0x01, (bitV (logicCtx s.dev p t w) w).1), (.lgLdn p, 0x02, !(bitV (logicCtx s.dev p t w) w).1), (.lgAnd p, 0x03, t.lb && (bitV (logicCtx s.dev p t w) w).1), (.lgAndn p, 0x04, t.lb && !(bitV (logicCtx s.dev p t w) w).1), (.lgOr p, 0x05, t.lb || (bitV (logicCtx s.dev p t w) w).1), (.lgOrn p, 0x06, t.lb || !(bitV (logicCtx s.dev p t w) w).1), (.lgXor p, 0x07, t.lb != (bitV (logicCtx s.dev p t w) w).1), (.lgNot p, 0x10, !t.lb), (.lgCeq p, 0x2C, t.acc == (wordV (logicCtx s.dev p t w) w).1), (.lgCgt p, 0x2D, decide (((wordV (logicCtx s.dev p t w) w).1).toInt < t.acc.toInt)), (.lgClt p, 0x2E, decide (t.acc.toInt < ((wordV (logicCtx s.dev p t w) w).1).toInt))] → opcodeOf w = e.2.1 → Completes e.1 s (fun d => LogicStep s.dev d p w t { t with lb := e.2.2, pc := t.pc + 1, cyc := t.cyc + opCycles (opcodeOf w) })) ∧
    -- branch
    (∀ (p : Nat) (t : TInst) (w : W32) (f : Nat) (b : Bool) (r : List (Bool × Nat)), p < 4 → nextInsn s.dev p = some (t, w) → (opcodeOf w = 0x0F
        ∧ t.stack = (b, f) :: r) → Completes (.lgPop p) s (fun d => LogicStep s.dev d p w t { t with lb := (if f = 0 then b && t.lb else if f = 1 then b || t.lb else b != t.lb), stack := r, pc := t.pc + 1, cyc := t.cyc + 1 })) ∧
    -- push
    (∀ (p : Nat) (t : TInst) (w : W32) (e : Instr × Nat × Nat), p < 4 → nextInsn s.dev p = some (t, w) → e ∈ [(.lgAndp p, 0x0C, 0), (.lgOrp p, 0x0D, 1), (.lgXorp p, 0x0E, 2)] → opcodeOf w = e.2.1 → Completes e.1 s (fun d => LogicStep s.dev d p w t { t with stack := (t.lb, e.2.2) :: t.stack, pc := t.pc + 1, cyc := t.cyc + opCycles (opcodeOf w) })) ∧
    -- words
    (∀ (p : Nat) (t : TInst) (w : W32) (e : Instr × Nat × W16), p < 4 → nextInsn s.dev p = some (t, w) → e ∈ [(.lgLdw p, 0x20, (wordV (logicCtx s.dev p t w) w).1), (.lgAndw p, 0x27, t.acc &&& (wordV (logicCtx s.dev p t w) w).1), (.lgOrw p, 0x28, t.acc ||| (wordV (logicCtx s.dev p t w) w).1), (.lgXorw p, 0x29, t.acc ^^^ (wordV (logicCtx s.dev p t w) w).1), (.lgShl p, 0x2A, t.acc <<< (w.toNat % 16)), (.lgShr p, 0x2B, t.acc.sshiftRight (w.toNat % 16))] → opcodeOf w = e.2.1 → Completes e.1 s (fun d => LogicStep s.dev d p w t { t with acc := e.2.2, pc := t.pc + 1, cyc := t.cyc + opCycles (opcodeOf w) })) ∧
    -- ldx
    (∀ (p : Nat) (t : TInst) (w : W32), p < 4 → nextInsn s.dev p = some (t, w) → opcodeOf w = 0x2F → Completes (.lgLdx p) s (fun d => LogicStep s.dev d p w t { t with x := (wordV (logicCtx s.dev p t w) w).1, pc := t.pc + 1, cyc := t.cyc + 1 })) ∧
    -- jumps
    (∀ (p : Nat) (t : TInst) (w : W32) (e : Instr × Nat × Bool), p < 4 → nextInsn s.dev p = some (t, w) → e ∈ [(.lgJmp p, 0x38, true), (.lgJc p, 0x39, t.lb), (.lgJnc p, 0x3A, !t.lb)] → opcodeOf w = e.2.1 → Completes e.1 s (fun d => LogicStep s.dev d p w t { t with pc := if e.2.2 then w.toNat % 131072 else t.pc + 1, cyc := t.cyc + opCycles (opcodeOf w) }))

/-- ADD, SUB, MUL and DIV: wrap or saturate, the task's overflow and division flags (R220, 08 Logic processors, Table 8-8). ADD
and SUB wrap, MUL and DIV saturate; the task's OV is set where the exact result does not fit; a division by 0 leaves 0 and sets
DZ; nothing else of the processor's memories changes. -/
def Obligations.ArithmeticSetsACCAndItsFlags : Prop :=
  ∀ s : State,
    -- arith
    (∀ (p : Nat) (t : TInst) (w : W32) (e : Instr × Nat × Int × W16), p < 4 → nextInsn s.dev p = some (t, w) → e ∈ [(.lgAdd p, 0x23, t.acc.toInt + (wordV (logicCtx s.dev p t w) w).1.toInt, BitVec.ofInt 16 (t.acc.toInt + (wordV (logicCtx s.dev p t w) w).1.toInt)), (.lgSub p, 0x24, t.acc.toInt - (wordV (logicCtx s.dev p t w) w).1.toInt, BitVec.ofInt 16 (t.acc.toInt - (wordV (logicCtx s.dev p t w) w).1.toInt)), (.lgMul p, 0x25, t.acc.toInt * (wordV (logicCtx s.dev p t w) w).1.toInt, BitVec.ofInt 16 (sat16 (t.acc.toInt * (wordV (logicCtx s.dev p t w) w).1.toInt))), (.lgDiv p, 0x26, Int.tdiv (t.acc.toInt) ((wordV (logicCtx s.dev p t w) w).1.toInt), BitVec.ofInt 16 (sat16 (Int.tdiv (t.acc.toInt) ((wordV (logicCtx s.dev p t w) w).1.toInt))))] → (opcodeOf w = e.2.1
        ∧ ((wordV (logicCtx s.dev p t w) w).1.toInt ≠ 0
        ∨ e.2.1 ≠ 0x26)) → Completes e.1 s (fun d => lpOf d p = { (logicCtx s.dev p t w).x with insts := (lpOf s.dev p).insts.map (fun u => if u.k = t.k then { t with acc := e.2.2.2, pc := t.pc + 1, cyc := t.cyc + opCycles (opcodeOf w) } else u), keep := (lpOf d p).keep }
      ∧ (∀ k, keepOf (lpOf d p) k = if k = t.k then { keepOf (lpOf s.dev p) k with ov := (keepOf (lpOf s.dev p) k).ov || (sat16 e.2.2.1 != e.2.2.1) } else keepOf (lpOf s.dev p) k)
      ∧ (∀ q, q ≠ p → lpOf d q = lpOf s.dev q) ∧ d.sig = s.dev.sig ∧ d.stage2 = s.dev.stage2)) ∧
    -- divZero
    (∀ (p : Nat) (t : TInst) (w : W32), p < 4 → nextInsn s.dev p = some (t, w) → (opcodeOf w = 0x26
        ∧ (wordV (logicCtx s.dev p t w) w).1 = 0) → Completes (.lgDiv p) s (fun d => lpOf d p = { (logicCtx s.dev p t w).x with insts := (lpOf s.dev p).insts.map (fun u => if u.k = t.k then { t with acc := 0, pc := t.pc + 1, cyc := t.cyc + 8 } else u), keep := (lpOf d p).keep }
      ∧ (∀ k, keepOf (lpOf d p) k = if k = t.k then { keepOf (lpOf s.dev p) k with dz := true } else keepOf (lpOf s.dev p) k) ∧ d.sig = s.dev.sig))

/-- Stores write exactly the addressed bit or word (R212, R215, R220, R222, 08 Logic processors). A store within its area, with
no force standing: the addressed bit or word holds the value and every other bit and word reads as before; conditional stores do
nothing while LB is 0. -/
def Obligations.StoresReachTheirArea : Prop :=
  ∀ s : State,
    -- bit
    (∀ (p : Nat) (t : TInst) (w : W32) (e : Instr × Nat × Bool), p < 4 → nextInsn s.dev p = some (t, w) → e ∈ [(.lgSt p, 0x08, t.lb), (.lgStn p, 0x09, !t.lb), (.lgSet p, 0x0A, true), (.lgRst p, 0x0B, false)] → (opcodeOf w = e.2.1
        ∧ (t.lb = true ∨ e.2.1 ≤ 9)) → (inWrite (logicCtx s.dev p t w) w false = true ∧ areaOf w < 4
        ∧ (lpOf s.dev p).forces = []) → ∃ c : LCtx, exec e.1 s = .next { s with dev := setLp s.dev p (setInst c.x c.t) }
        ∧ readBit c (areaOf w) (operandAddr (logicCtx s.dev p t w) w) = e.2.2 ∧ (∀ a n, (a ≠ areaOf w
        ∨ n ≠ operandAddr (logicCtx s.dev p t w) w) → readBit c a n = readBit (logicCtx s.dev p t w) a n)
      ∧ c.t = { (logicCtx s.dev p t w).t with outs := c.t.outs, hw := c.t.hw } ∧ c.x.slots = (lpOf s.dev p).slots ∧ c.x.keep = (lpOf s.dev p).keep) ∧
    -- word
    (∀ (p : Nat) (t : TInst) (w : W32) (e : Instr × Nat), p < 4 → nextInsn s.dev p = some (t, w) → e ∈ [(.lgStw p, 0x21), (.lgStwc p, 0x22)] → (opcodeOf w = e.2
        ∧ (t.lb = true ∨ e.2 = 0x21)) → (inWrite (logicCtx s.dev p t w) w true = true ∧ areaOf w < 4
        ∧ (lpOf s.dev p).forces = []) → ∃ c : LCtx, exec e.1 s = .next { s with dev := setLp s.dev p (setInst c.x c.t) }
        ∧ readWord c (areaOf w) (operandAddr (logicCtx s.dev p t w) w) = t.acc ∧ (∀ a n, (a ≠ areaOf w
        ∨ n ≠ operandAddr (logicCtx s.dev p t w) w) → readWord c a n = readWord (logicCtx s.dev p t w) a n)
      ∧ c.t = { (logicCtx s.dev p t w).t with outs := c.t.outs, hw := c.t.hw } ∧ c.x.slots = (lpOf s.dev p).slots ∧ c.x.keep = (lpOf s.dev p).keep) ∧
    -- notWhenLBisClear
    (∀ (p : Nat) (t : TInst) (w : W32) (e : Instr × Nat), p < 4 → nextInsn s.dev p = some (t, w) → e ∈ [(.lgSet p, 0x0A), (.lgRst p, 0x0B), (.lgStwc p, 0x22), (.lgCrs p, 0x18), (.lgCld p, 0x19), (.lgTrig p, 0x3B)] → (opcodeOf w = e.2
        ∧ t.lb = false) → Completes e.1 s (fun d => LogicStep s.dev d p w t { t with pc := t.pc + 1, cyc := t.cyc + opCycles (opcodeOf w) }))

/-- Timers, edge detectors, slot instructions, TRIG and END (R216, R220, R223, R225, 08 Logic processors). TON, TOF and TP from a
slot past its first execution: output, start and elapsed comparison in logical time; RED and FED with the first execution taking
the input; CRS, CLD, LPT, LPV write their slot; TRIG adds its trigger; END ends the instance with its cycle registers. -/
def Obligations.TimersAndEdgesKeepTheirSlots : Prop :=
  ∀ s : State,
    -- timers
    (∀ (p : Nat) (t : TInst) (w : W32), p < 4 → nextInsn s.dev p = some (t, w) → (opcodeOf w = 0x13
        ∧ (slotIn (logicCtx s.dev p t w) (w.toNat % 8192)).kind = 1
        ∧ (slotIn (logicCtx s.dev p t w) (w.toNat % 8192)).init = false) → Completes (.lgTon p) s (fun d => LogicStep s.dev d p w t { t with lb := (t.lb && decide ((slotIn (logicCtx s.dev p t w) (w.toNat % 8192)).preset.toNat ≤ min (slotIn (logicCtx s.dev p t w) (w.toNat % 8192)).preset.toNat ((t.rel - ((if t.lb && !(slotIn (logicCtx s.dev p t w) (w.toNat % 8192)).inp then (t.rel : Int) else (slotIn (logicCtx s.dev p t w) (w.toNat % 8192)).val)).toNat) / unitBp (slotIn (logicCtx s.dev p t w) (w.toNat % 8192)).base))), sl := aput t.sl (w.toNat % 8192) { slotIn (logicCtx s.dev p t w) (w.toNat % 8192) with inp := t.lb, q := (t.lb && decide ((slotIn (logicCtx s.dev p t w) (w.toNat % 8192)).preset.toNat ≤ min (slotIn (logicCtx s.dev p t w) (w.toNat % 8192)).preset.toNat ((t.rel - ((if t.lb && !(slotIn (logicCtx s.dev p t w) (w.toNat % 8192)).inp then (t.rel : Int) else (slotIn (logicCtx s.dev p t w) (w.toNat % 8192)).val)).toNat) / unitBp (slotIn (logicCtx s.dev p t w) (w.toNat % 8192)).base))), val := (if t.lb && !(slotIn (logicCtx s.dev p t w) (w.toNat % 8192)).inp then (t.rel : Int) else (slotIn (logicCtx s.dev p t w) (w.toNat % 8192)).val) }, pc := t.pc + 1, cyc := t.cyc + 3 })) ∧
    -- tof
    (∀ (p : Nat) (t : TInst) (w : W32), p < 4 → nextInsn s.dev p = some (t, w) → (opcodeOf w = 0x14
        ∧ (slotIn (logicCtx s.dev p t w) (w.toNat % 8192)).kind = 2
        ∧ (slotIn (logicCtx s.dev p t w) (w.toNat % 8192)).init = false) → Completes (.lgTof p) s (fun d => LogicStep s.dev d p w t { t with lb := (t.lb || decide (min (slotIn (logicCtx s.dev p t w) (w.toNat % 8192)).preset.toNat ((t.rel - ((if !t.lb && (slotIn (logicCtx s.dev p t w) (w.toNat % 8192)).inp then (t.rel : Int) else (slotIn (logicCtx s.dev p t w) (w.toNat % 8192)).val)).toNat) / unitBp (slotIn (logicCtx s.dev p t w) (w.toNat % 8192)).base) < (slotIn (logicCtx s.dev p t w) (w.toNat % 8192)).preset.toNat)), sl := aput t.sl (w.toNat % 8192) { slotIn (logicCtx s.dev p t w) (w.toNat % 8192) with inp := t.lb, q := (t.lb || decide (min (slotIn (logicCtx s.dev p t w) (w.toNat % 8192)).preset.toNat ((t.rel - ((if !t.lb && (slotIn (logicCtx s.dev p t w) (w.toNat % 8192)).inp then (t.rel : Int) else (slotIn (logicCtx s.dev p t w) (w.toNat % 8192)).val)).toNat) / unitBp (slotIn (logicCtx s.dev p t w) (w.toNat % 8192)).base) < (slotIn (logicCtx s.dev p t w) (w.toNat % 8192)).preset.toNat)), val := (if !t.lb && (slotIn (logicCtx s.dev p t w) (w.toNat % 8192)).inp then (t.rel : Int) else (slotIn (logicCtx s.dev p t w) (w.toNat % 8192)).val) }, pc := t.pc + 1, cyc := t.cyc + 3 })) ∧
    -- tp
    (∀ (p : Nat) (t : TInst) (w : W32), p < 4 → nextInsn s.dev p = some (t, w) → (opcodeOf w = 0x15
        ∧ (slotIn (logicCtx s.dev p t w) (w.toNat % 8192)).kind = 3
        ∧ (slotIn (logicCtx s.dev p t w) (w.toNat % 8192)).init = false) → Completes (.lgTp p) s (fun d => LogicStep s.dev d p w t { t with lb := (((t.lb && !(slotIn (logicCtx s.dev p t w) (w.toNat % 8192)).inp && !(slotIn (logicCtx s.dev p t w) (w.toNat % 8192)).q) || (slotIn (logicCtx s.dev p t w) (w.toNat % 8192)).q) && decide (min (slotIn (logicCtx s.dev p t w) (w.toNat % 8192)).preset.toNat ((t.rel - ((if (t.lb && !(slotIn (logicCtx s.dev p t w) (w.toNat % 8192)).inp && !(slotIn (logicCtx s.dev p t w) (w.toNat % 8192)).q) then (t.rel : Int) else (slotIn (logicCtx s.dev p t w) (w.toNat % 8192)).val)).toNat) / unitBp (slotIn (logicCtx s.dev p t w) (w.toNat % 8192)).base) < (slotIn (logicCtx s.dev p t w) (w.toNat % 8192)).preset.toNat)), sl := aput t.sl (w.toNat % 8192) { slotIn (logicCtx s.dev p t w) (w.toNat % 8192) with inp := t.lb, q := (((t.lb && !(slotIn (logicCtx s.dev p t w) (w.toNat % 8192)).inp && !(slotIn (logicCtx s.dev p t w) (w.toNat % 8192)).q) || (slotIn (logicCtx s.dev p t w) (w.toNat % 8192)).q) && decide (min (slotIn (logicCtx s.dev p t w) (w.toNat % 8192)).preset.toNat ((t.rel - ((if (t.lb && !(slotIn (logicCtx s.dev p t w) (w.toNat % 8192)).inp && !(slotIn (logicCtx s.dev p t w) (w.toNat % 8192)).q) then (t.rel : Int) else (slotIn (logicCtx s.dev p t w) (w.toNat % 8192)).val)).toNat) / unitBp (slotIn (logicCtx s.dev p t w) (w.toNat % 8192)).base) < (slotIn (logicCtx s.dev p t w) (w.toNat % 8192)).preset.toNat)), val := (if (t.lb && !(slotIn (logicCtx s.dev p t w) (w.toNat % 8192)).inp && !(slotIn (logicCtx s.dev p t w) (w.toNat % 8192)).q) then (t.rel : Int) else (slotIn (logicCtx s.dev p t w) (w.toNat % 8192)).val) }, pc := t.pc + 1, cyc := t.cyc + 3 })) ∧
    -- edges
    (∀ (p : Nat) (t : TInst) (w : W32) (e : Instr × Nat × Nat × Bool), p < 4 → nextInsn s.dev p = some (t, w) → e ∈ [(.lgRed p, 0x11, 6, t.lb && !(slotIn (logicCtx s.dev p t w) (w.toNat % 8192)).inp), (.lgFed p, 0x12, 7, (slotIn (logicCtx s.dev p t w) (w.toNat % 8192)).inp && !t.lb)] → (opcodeOf w = e.2.1
        ∧ (slotIn (logicCtx s.dev p t w) (w.toNat % 8192)).kind = e.2.2.1) → Completes e.1 s (fun d => LogicStep s.dev d p w t { t with lb := !(slotIn (logicCtx s.dev p t w) (w.toNat % 8192)).init && e.2.2.2, sl := aput t.sl (w.toNat % 8192) { slotIn (logicCtx s.dev p t w) (w.toNat % 8192) with inp := t.lb, init := false }, pc := t.pc + 1, cyc := t.cyc + 3 })) ∧
    -- puts
    (∀ (p : Nat) (t : TInst) (w : W32) (e : Instr × Nat × Slot), p < 4 → nextInsn s.dev p = some (t, w) → e ∈ [(.lgCrs p, 0x18, { slotIn (logicCtx s.dev p t w) (w.toNat % 8192) with val := 0 }), (.lgCld p, 0x19, { slotIn (logicCtx s.dev p t w) (w.toNat % 8192) with val := (slotIn (logicCtx s.dev p t w) (w.toNat % 8192)).preset }), (.lgLpt p, 0x1A, { slotIn (logicCtx s.dev p t w) (w.toNat % 8192) with preset := (t.acc.toNat : Int) }), (.lgLpv p, 0x1B, { slotIn (logicCtx s.dev p t w) (w.toNat % 8192) with preset := t.acc.toInt })] → (opcodeOf w = e.2.1
        ∧ (t.lb = true
        ∨ 0x1A ≤ e.2.1)) → Completes e.1 s (fun d => LogicStep s.dev d p w t { t with sl := aput t.sl (w.toNat % 8192) e.2.2, pc := t.pc + 1, cyc := t.cyc + 2 })) ∧
    -- trig
    (∀ (p : Nat) (t : TInst) (w : W32), p < 4 → nextInsn s.dev p = some (t, w) → (opcodeOf w = 0x3B
        ∧ t.lb = true) → Completes (.lgTrig p) s (fun d => d.trigs = s.dev.trigs ++ [⟨p, t.pc, w.toNat % 4, w.toNat / 4 % 8⟩]
        ∧ lpOf d p = { (logicCtx s.dev p t w).x with insts := (lpOf s.dev p).insts.map (fun u => if u.k = t.k then { t with pc := t.pc + 1, cyc := t.cyc + 2 } else u) }
      ∧ (∀ q, q ≠ p → lpOf d q = lpOf s.dev q) ∧ d.sig = s.dev.sig ∧ d.stage2 = s.dev.stage2)) ∧
    -- end
    (∀ (p : Nat) (t : TInst) (w : W32), p < 4 → nextInsn s.dev p = some (t, w) → opcodeOf w = 0x3C → Completes (.lgEnd p) s (fun d => LogicStep s.dev d p w t { t with ended := true, pc := t.pc + 1, cyc := t.cyc + 1 }
        ∧ rd d (LP_TK_LAST p t.k) = w32 (min 0xFFFFFFFF (t.cyc + 1))
      ∧ rd d (LP_TK_PEAK p t.k) = w32 (max (rdN s.dev (LP_TK_PEAK p t.k)) (min 0xFFFFFFFF ((bp s.dev - t.rel) * 4000 + ((lpOf s.dev p).at_ + switchCost (lpOf s.dev p) t + 1))))))

/-- Counters count rising edges within 16 bits and compare (R224). For CTU and CTD at a slot of their kind whose value is a
16-bit number: the value counts by one on a rising edge and saturates, LB compares it, the slot keeps the input, and the value
stays a 16-bit number; nothing else changes. -/
def Obligations.CountersCountRisingEdges : Prop :=
  ∀ s : State,
    -- counters
    (∀ (p : Nat) (t : TInst) (w : W32) (e : Instr × Nat × Nat × Int × Bool), p < 4 → nextInsn s.dev p = some (t, w) → e ∈ [(.lgCtu p, 0x16, 4, (if (t.lb && !(if (slotIn (logicCtx s.dev p t w) (w.toNat % 8192)).init then t.lb else (slotIn (logicCtx s.dev p t w) (w.toNat % 8192)).inp)) then min ((slotIn (logicCtx s.dev p t w) (w.toNat % 8192)).val + 1) 32767 else (slotIn (logicCtx s.dev p t w) (w.toNat % 8192)).val), decide ((slotIn (logicCtx s.dev p t w) (w.toNat % 8192)).preset ≤ (if (t.lb && !(if (slotIn (logicCtx s.dev p t w) (w.toNat % 8192)).init then t.lb else (slotIn (logicCtx s.dev p t w) (w.toNat % 8192)).inp)) then min ((slotIn (logicCtx s.dev p t w) (w.toNat % 8192)).val + 1) 32767 else (slotIn (logicCtx s.dev p t w) (w.toNat % 8192)).val))), (.lgCtd p, 0x17, 5, (if (t.lb && !(if (slotIn (logicCtx s.dev p t w) (w.toNat % 8192)).init then t.lb else (slotIn (logicCtx s.dev p t w) (w.toNat % 8192)).inp)) then max ((slotIn (logicCtx s.dev p t w) (w.toNat % 8192)).val - 1) (-32768) else (slotIn (logicCtx s.dev p t w) (w.toNat % 8192)).val), decide ((if (t.lb && !(if (slotIn (logicCtx s.dev p t w) (w.toNat % 8192)).init then t.lb else (slotIn (logicCtx s.dev p t w) (w.toNat % 8192)).inp)) then max ((slotIn (logicCtx s.dev p t w) (w.toNat % 8192)).val - 1) (-32768) else (slotIn (logicCtx s.dev p t w) (w.toNat % 8192)).val) ≤ 0))] → (opcodeOf w = e.2.1
        ∧ (slotIn (logicCtx s.dev p t w) (w.toNat % 8192)).kind = e.2.2.1) → (-32768 ≤ (slotIn (logicCtx s.dev p t w) (w.toNat % 8192)).val
        ∧ (slotIn (logicCtx s.dev p t w) (w.toNat % 8192)).val ≤ 32767) → Completes e.1 s (fun d => LogicStep s.dev d p w t { t with lb := e.2.2.2.2, sl := aput t.sl (w.toNat % 8192) { slotIn (logicCtx s.dev p t w) (w.toNat % 8192) with inp := t.lb, init := false, val := e.2.2.2.1 }, pc := t.pc + 1, cyc := t.cyc + 3 })
        ∧ -32768 ≤ e.2.2.2.1 ∧ e.2.2.2.1 ≤ 32767)

/-- Programs: load, stage, verification, unload, change and change point (R211, R230, R231, R232, R233, R234, 08 Logic
processors). LOAD and STAGE begin verification and its end has every outcome with its code; UNLOAD and UNSTAGE drop programs and
claims; CHANGE sets its point or is refused with CHG_BP; CANCEL, triggers; at the change point a running instance defers it, a
force or a claim refuses it, else the new program runs with the matching slots' states. -/
def Obligations.ProcessorsLoadAndChangeTheirPrograms : Prop :=
  ∀ s : State,
    -- load
    (∀ (p : Nat), p < 4 → admits s.dev (.lp p) 0x100 = true → (lpOf s.dev p).st = .empty → exec (.lpLoad p) s = .next { s with dev := setLp (issued s.dev (.lp p) 0x100 1) p { lpOf s.dev p with
      st := .loading
      copy := loadCopy (issued s.dev (.lp p) 0x100 1) (rdN s.dev (LP_LOAD_ADDR p)) (rdN s.dev (LP_LOAD_LEN p))
      copyLen := loadLen (issued s.dev (.lp p) 0x100 1) (rdN s.dev (LP_LOAD_ADDR p)) (rdN s.dev (LP_LOAD_LEN p)) } }) ∧
    -- stage
    (∀ (p : Nat), p < 4 → admits s.dev (.lp p) 0x100 = true → (((lpOf s.dev p).st = .loaded ∨ (lpOf s.dev p).st = .running)
        ∧ (lpOf s.dev p).stage = .none) → exec (.lpStage p) s = .next { s with dev := setLp (issued s.dev (.lp p) 0x100 3) p { lpOf s.dev p with
      stage := .verifying
      copy := loadCopy (issued s.dev (.lp p) 0x100 3) (rdN s.dev (LP_LOAD_ADDR p)) (rdN s.dev (LP_LOAD_LEN p))
      copyLen := loadLen (issued s.dev (.lp p) 0x100 3) (rdN s.dev (LP_LOAD_ADDR p)) (rdN s.dev (LP_LOAD_LEN p)) } }) ∧
    -- loadVerified
    (∀ (p : Nat), p < 4 → (lpOf s.dev p).st = .loading → Completes (.lpVerifyDone p) s (fun d => match lpCheck s.dev p with
      | .ok pr => (if pr.outs.any (fun o => sigTaken s.dev o.n clsLp p) then (fun c d => lpOf d p = { lpOf s.dev p with st := .empty, copy := [], copyLen := 0 }
        ∧ rd d (LP_LOAD_RES p) = w32 c ∧ rdN d (lpBase p + ERR_CODE) % 65536 = 0x0606 ∧ d.attr = s.dev.attr) 0x0B d
        else (lpOf d p).st = .loaded ∧ (lpOf d p).prog = pr ∧ (lpOf d p).slots = buildSlots pr newSlot ∧ (lpOf d p).insts = []
        ∧ rd d (LP_LOAD_RES p) = 0 ∧ rd d (LP_PROG_ID p) = w32 pr.id)
      | .error c => (fun c d => lpOf d p = { lpOf s.dev p with st := .empty, copy := [], copyLen := 0 } ∧ rd d (LP_LOAD_RES p) = w32 c
        ∧ rdN d (lpBase p + ERR_CODE) % 65536 = 0x0606 ∧ d.attr = s.dev.attr) c d)) ∧
    -- stageVerified
    (∀ (p : Nat), p < 4 → (lpOf s.dev p).stage = .verifying → Completes (.lpStageDone p) s (fun d => match lpCheck s.dev p with
      | .ok pr => (if kindClash (lpOf s.dev p).prog pr then (fun c d => lpOf d p = { lpOf s.dev p with stage := .none, copy := [], copyLen := 0 }
        ∧ rd d (LP_LOAD_RES p) = w32 c ∧ rdN d (lpBase p + ERR_CODE) % 65536 = 0x0606
        ∧ d.sig = s.dev.sig) 0x0A d else if 1000000 < progLcm (lpOf s.dev p).prog then (fun c d => lpOf d p = { lpOf s.dev p with stage := .none, copy := [], copyLen := 0 }
        ∧ rd d (LP_LOAD_RES p) = w32 c ∧ rdN d (lpBase p + ERR_CODE) % 65536 = 0x0606 ∧ d.sig = s.dev.sig) 0x0C d
        else lpOf d p = { lpOf s.dev p with stage := .staged, next := pr, copy := [], copyLen := 0 } ∧ rd d (LP_LOAD_RES p) = 0
        ∧ rd d (LP_STAGE_ID p) = w32 pr.id ∧ d.sig = s.dev.sig)
      | .error c => (fun c d => lpOf d p = { lpOf s.dev p with stage := .none, copy := [], copyLen := 0 } ∧ rd d (LP_LOAD_RES p) = w32 c
        ∧ rdN d (lpBase p + ERR_CODE) % 65536 = 0x0606 ∧ d.sig = s.dev.sig) c d)) ∧
    -- unload
    (∀ (p : Nat), p < 4 → admits s.dev (.lp p) 0x100 = true → (lpOf s.dev p).st = .loaded → Completes (.lpUnload p) s (fun d => lpOf d p = { lp0 with bank := (lpOf s.dev p).bank, m := (lpOf s.dev p).m, w := (lpOf s.dev p).w, h := (lpOf s.dev p).h, offMs := (lpOf s.dev p).offMs, at_ := (lpOf s.dev p).at_, cmds := (lpOf s.dev p).cmds }
        ∧ rd d (LP_PROG_ID p) = 0 ∧ rd d (LP_FRC_COUNT p) = 0
      ∧ (∀ n ∈ ownedBy s.dev clsLp p, attrOf d n = 0) ∧ ∀ n, n ∉ ownedBy s.dev clsLp p → attrOf d n = attrOf s.dev n ∧ sigVal d n = sigVal s.dev n)) ∧
    -- unstage
    (∀ (p : Nat), p < 4 → admits s.dev (.lp p) 0x100 = true → (lpOf s.dev p).stage = .staged → exec (.lpUnstage p) s = .next { s with dev := wrN (setLp (issued s.dev (.lp p) 0x100 4) p { lpOf s.dev p with stage := .none, next := noProg }) (LP_STAGE_ID p) 0 }) ∧
    -- change
    (∀ (p : Nat) (drop : Bool), p < 4 → admits s.dev (.lp p) 0x100 = true → ((lpOf s.dev p).stage = .staged ∧ ((lpOf s.dev p).st = .loaded
        ∨ (lpOf s.dev p).st = .running)) → Completes (.lpChange p drop) s (fun d => if (lpOf s.dev p).st = .running ∧ rd64 s.dev (LP_CHG_BP p) ≠ 0
        ∧ ¬(rd64 s.dev (LP_CHG_BP p) % progLcm (lpOf s.dev p).prog = 0 ∧ bp s.dev + 2 ≤ rd64 s.dev (LP_CHG_BP p))
      then lpOf d p = { lpOf s.dev p with chgDrop := drop, deferrals := 0 } ∧ rd d (LP_CHG_RES p) = 1
        ∧ rd d (LP_CHG_CNT p) = rd s.dev (LP_CHG_CNT p) + 1
      else lpOf d p = { lpOf s.dev p with stage := .pending, chgDrop := drop, deferrals := 0, chgAt := (if (lpOf s.dev p).st = .loaded then bp s.dev + 1 else if rd64 s.dev (LP_CHG_BP p) = 0 then (bp s.dev + 2 + progLcm (lpOf s.dev p).prog - 1) / progLcm (lpOf s.dev p).prog * progLcm (lpOf s.dev p).prog else rd64 s.dev (LP_CHG_BP p)) }
        ∧ rd d (LP_CHG_CNT p) = rd s.dev (LP_CHG_CNT p))) ∧
    -- cancel
    (∀ (p : Nat), p < 4 → admits s.dev (.lp p) 0x100 = true → (lpOf s.dev p).stage = .pending → Completes (.lpCancel p) s (fun d => lpOf d p = { lpOf s.dev p with stage := .staged }
        ∧ rd d (LP_CHG_RES p) = w32 (5 + 256 * ((lpOf s.dev p).deferrals % 256)) ∧ rd d (LP_CHG_CNT p) = rd s.dev (LP_CHG_CNT p) + 1
      ∧ (∀ q, q ≠ p → lpOf d q = lpOf s.dev q) ∧ d.sig = s.dev.sig ∧ d.stage2 = s.dev.stage2)) ∧
    -- trigger
    (∀ (p : Nat), p < 4 → admits s.dev (.lp p) 0x100 = true → ((List.range 8).filter (fun e => rdBit s.dev (LP_EVT_TRIG p) e)).all (triggerKnown s.dev p) = true → Completes (.lpTrig p) s (fun d => (∀ e < 8, (keepOf (lpOf d p) (8 + e)).pend = (rdBit s.dev (LP_EVT_TRIG p) e || (keepOf (lpOf s.dev p) (8 + e)).pend))
      ∧ lpOf d p = { lpOf s.dev p with keep := (lpOf d p).keep })) ∧
    -- changeDeferred
    (∀ (p : Nat), p < 4 → ((lpOf s.dev p).stage = .pending ∧ ((lpOf s.dev p).st = .loaded ∨ (lpOf s.dev p).st = .running)
        ∧ (lpOf s.dev p).chgAt ≤ bp s.dev) → (lpOf s.dev p).insts ≠ [] → Completes (.changePoint p) s (fun d => if 16 ≤ (lpOf s.dev p).deferrals then lpOf d p = { lpOf s.dev p with stage := .staged }
        ∧ rd d (LP_CHG_RES p) = w32 (4 + 256 * ((lpOf s.dev p).deferrals % 256))
      else lpOf d p = { lpOf s.dev p with chgAt := (lpOf s.dev p).chgAt + progLcm (lpOf s.dev p).prog, deferrals := (lpOf s.dev p).deferrals + 1 }
        ∧ rd d (LP_CHG_RES p) = w32 (256 * ((lpOf s.dev p).deferrals + 1)))) ∧
    -- changeRefused
    (∀ (p : Nat), p < 4 → ((lpOf s.dev p).stage = .pending ∧ ((lpOf s.dev p).st = .loaded ∨ (lpOf s.dev p).st = .running)
        ∧ (lpOf s.dev p).chgAt ≤ bp s.dev) → ((lpOf s.dev p).insts = [] ∧ (((lpOf s.dev p).forces.any (dropped (lpOf s.dev p)) = true
        ∧ (lpOf s.dev p).chgDrop = false)
        ∨ (lpOf s.dev p).next.outs.any (fun o => sigTaken s.dev o.n clsLp p) = true)) → Completes (.changePoint p) s (fun d => lpOf d p = { lpOf s.dev p with stage := .staged, forces := if ((lpOf s.dev p).forces.any (dropped (lpOf s.dev p)) = true ∧ (lpOf s.dev p).chgDrop = false) then (lpOf s.dev p).forces else (lpOf s.dev p).forces.filter (fun f => !dropped (lpOf s.dev p) f) }
        ∧ rd d (LP_CHG_RES p) = w32 ((if ((lpOf s.dev p).forces.any (dropped (lpOf s.dev p)) = true
        ∧ (lpOf s.dev p).chgDrop = false) then 2 else 3) + 256 * ((lpOf s.dev p).deferrals % 256)) ∧ d.sig = s.dev.sig)) ∧
    -- changed
    (∀ (p : Nat), p < 4 → ((lpOf s.dev p).stage = .pending ∧ ((lpOf s.dev p).st = .loaded ∨ (lpOf s.dev p).st = .running)
        ∧ (lpOf s.dev p).chgAt ≤ bp s.dev) → ((lpOf s.dev p).insts = [] ∧ ((lpOf s.dev p).forces.any (dropped (lpOf s.dev p)) = false
        ∨ (lpOf s.dev p).chgDrop = true)) → (lpOf s.dev p).next.outs.any (fun o => sigTaken s.dev o.n clsLp p) = false → Completes (.changePoint p) s (fun d => (lpOf d p).prog = (lpOf s.dev p).next
        ∧ (lpOf d p).bank = !(lpOf s.dev p).bank ∧ (lpOf d p).stage = .none ∧ (lpOf d p).st = (lpOf s.dev p).st
      ∧ (lpOf d p).forces = (lpOf s.dev p).forces.filter (fun f => !dropped (lpOf s.dev p) f)
        ∧ (lpOf d p).slots = buildSlots (lpOf s.dev p).next (matchSlot (lpOf s.dev p))
      ∧ rd d (LP_PROG_ID p) = w32 (lpOf s.dev p).next.id ∧ rd d (LP_STAGE_ID p) = 0 ∧ rd d (LP_CHG_CNT p) = rd s.dev (LP_CHG_CNT p) + 1
        ∧ rd d (LP_CHG_RES p) = w32 (256 * ((lpOf s.dev p).deferrals % 256))))

/-- Forces: set, remove and clear, or no program (R211, R229, 08 Logic processors). SET adds or replaces the force of a symbol,
up to 1024; REMOVE and CLEAR_ALL take them; LP_FRC_COUNT counts them; without a program the commands answer result 4 and change
no processor. -/
def Obligations.ForcesHoldSymbols : Prop :=
  ∀ s : State,
    -- set
    (∀ (p : Nat) (y : LSym), p < 4 → admits s.dev (.lp p) 0x144 = true → frcState (lpOf s.dev p) = false → symOf (lpOf s.dev p).prog (rdN s.dev (LP_FRC_SYM p)) = some y → Completes (.forceSet p) s (fun d => if (lpOf s.dev p).forces.any (fun f => f.1 == rdN s.dev (LP_FRC_SYM p)) = false
        ∧ 1024 ≤ (lpOf s.dev p).forces.length then lpOf d p = lpOf s.dev p ∧ rd d (LP_FRC_RES p) = 1
      else lpOf d p = { lpOf s.dev p with forces := if (lpOf s.dev p).forces.any (fun f => f.1 == rdN s.dev (LP_FRC_SYM p)) then (lpOf s.dev p).forces.map (fun f => if f.1 = rdN s.dev (LP_FRC_SYM p) then (rdN s.dev (LP_FRC_SYM p), (if y.word then fld (rd s.dev (LP_FRC_VAL p)) 15 0 else fld (rd s.dev (LP_FRC_VAL p)) 15 0 % 2)) else f) else (lpOf s.dev p).forces ++ [(rdN s.dev (LP_FRC_SYM p), (if y.word then fld (rd s.dev (LP_FRC_VAL p)) 15 0 else fld (rd s.dev (LP_FRC_VAL p)) 15 0 % 2))] }
        ∧ rd d (LP_FRC_RES p) = 0
        ∧ rd d (LP_FRC_COUNT p) = w32 (lpOf d p).forces.length)) ∧
    -- remove
    (∀ (p : Nat) (f : Nat × Nat), p < 4 → admits s.dev (.lp p) 0x144 = true → (frcState (lpOf s.dev p) = false
        ∧ (symOf (lpOf s.dev p).prog (rdN s.dev (LP_FRC_SYM p))).isSome = true) → (lpOf s.dev p).forces.find? (fun f => f.1 == rdN s.dev (LP_FRC_SYM p)) = some f → Completes (.forceRemove p) s (fun d => lpOf d p = { lpOf s.dev p with forces := (lpOf s.dev p).forces.filter (fun g => g.1 != rdN s.dev (LP_FRC_SYM p)) }
        ∧ rd d (LP_FRC_RES p) = 0 ∧ rd d (LP_FRC_COUNT p) = w32 (lpOf d p).forces.length
      ∧ ∀ q, q ≠ p → lpOf d q = lpOf s.dev q)) ∧
    -- clearAll
    (∀ (p : Nat), p < 4 → admits s.dev (.lp p) 0x144 = true → frcState (lpOf s.dev p) = false → Completes (.forceClearAll p) s (fun d => lpOf d p = { lpOf s.dev p with forces := [] }
        ∧ rd d (LP_FRC_RES p) = 0 ∧ rd d (LP_FRC_COUNT p) = 0 ∧ ∀ q, q ≠ p → lpOf d q = lpOf s.dev q)) ∧
    -- noProgram
    (∀ (p : Nat) (c : Instr), p < 4 → admits s.dev (.lp p) 0x144 = true → frcState (lpOf s.dev p) = true → c ∈ [.forceSet p, .forceRemove p, .forceClearAll p] → Completes c s (fun d => rd d (LP_FRC_RES p) = 4
        ∧ ∀ q, lpOf d q = lpOf s.dev q))

/-- Tasks: release, commit at the deadline, overrun, memory errors and variable writes (R213, R215, R216, R217, R219, 08 Logic
processors). A release starts an instance with its copied inputs at its entry; at the deadline a finished instance stages its
outputs and commits its slots, an unfinished one quarantines the processor with OVERRUN and safe outputs, as an uncorrectable
memory error does; a write of the variable window reaches its two words of M, W or H, joins the line of the writes that wait or of
the pair, or is dropped outside the window's areas. -/
def Obligations.TasksReleaseAndCommit : Prop :=
  ∀ s : State,
    -- release
    (∀ (p : Nat) (k : Nat) (t : LTask), (p < 4 ∧ k < 16) → (taskOf (lpOf s.dev p) k = some t ∧ t.k = k) → ((lpOf s.dev p).st = .running
        ∧ instOf (lpOf s.dev p) k = none) → (if t.event then (keepOf (lpOf s.dev p) k).pend else dueAt (bp s.dev) t.span 0) = true → Completes (.taskRelease p k) s (fun d => ∃ u : TInst, lpOf d p = { lpOf s.dev p with insts := (lpOf s.dev p).insts ++ [u], keep := (lpOf d p).keep }
        ∧ u.k = k ∧ u.rel = bp s.dev ∧ u.dead = bp s.dev + t.span - 1 ∧ u.pc = t.entry
      ∧ u.acc = 0 ∧ u.x = 0 ∧ u.lb = false ∧ u.stack = [] ∧ u.ended = false ∧ u.h = s.dev.shared
        ∧ (∀ i ∈ insOf (lpOf s.dev p) k, tget 0 u.image i.n = sigVal s.dev i.n) ∧ u.first = (keepOf (lpOf s.dev p) k).first
      ∧ keepOf (lpOf d p) k = { keepOf (lpOf s.dev p) k with count := ((keepOf (lpOf s.dev p) k).count + 1) % 65536, first := false, changed := false, resumed := false, synced := false, pend := false }
      ∧ (∀ q, q ≠ p → lpOf d q = lpOf s.dev q) ∧ d.sig = s.dev.sig ∧ d.stage2 = s.dev.stage2)) ∧
    -- deadline
    (∀ (p : Nat) (k : Nat) (u : TInst), (p < 4 ∧ k < 16) → (instOf (lpOf s.dev p) k = some u ∧ u.k = k) → ((lpOf s.dev p).st = .running ∧ u.dead ≤ bp s.dev
        ∧ u.ended = true) → Completes (.taskDeadline p k) s (fun d => d.stage2 = s.dev.stage2 ++ (outsOf (lpOf s.dev p) k).map (fun o => ⟨o.n, (if safeReq s.dev (.lp p) then o.safe else (tfind u.outs o.n).getD (sigVal s.dev o.n)), false⟩)
      ∧ d.shared = u.hw.foldl (fun m e => tset 0 m e.1 e.2) s.dev.shared
        ∧ lpOf d p = { lpOf s.dev p with slots := u.sl.foldl (fun m e => tset slot0 m e.1 e.2) (lpOf s.dev p).slots, insts := (lpOf s.dev p).insts.filter (fun v => v.k != k) }
      ∧ (∀ q, q ≠ p → lpOf d q = lpOf s.dev q) ∧ d.sig = s.dev.sig)) ∧
    -- overrun
    (∀ (p : Nat) (k : Nat) (u : TInst), (p < 4 ∧ k < 16) → (instOf (lpOf s.dev p) k = some u ∧ u.k = k) → ((lpOf s.dev p).st = .running ∧ u.dead ≤ bp s.dev
        ∧ u.ended = false) → Completes (.taskDeadline p k) s (fun d => lpOf d p = { lpOf s.dev p with st := .quarantined, insts := [], current := none }
        ∧ rd d (LP_OVR_INFO p) = w32 k ∧ rdN d (lpBase p + ERR_CODE) % 65536 = 0x0603
      ∧ d.stage2 = s.dev.stage2 ++ (lpOf s.dev p).prog.outs.map (fun o => ⟨o.n, o.safe, true⟩) ∧ d.sig = s.dev.sig
        ∧ ∀ q, q ≠ p → lpOf d q = lpOf s.dev q)) ∧
    -- memoryUe
    (∀ (p : Nat) (off : Nat), p < 4 → (lpOf s.dev p).st ≠ .quarantined → Completes (.lpMemoryUe p off) s (fun d => lpOf d p = { lpOf s.dev p with st := .quarantined, insts := [], current := none }
        ∧ rdN d (lpBase p + ERR_CODE) % 65536 = 0x0604 ∧ rd d (lpBase p + ERR_ADDR) = w32 off
      ∧ d.stage2 = s.dev.stage2 ++ (lpOf s.dev p).prog.outs.map (fun o => ⟨o.n, o.safe, true⟩) ∧ d.sig = s.dev.sig
        ∧ ∀ q, q ≠ p → lpOf d q = lpOf s.dev q)) ∧
    -- varWrite
    (∀ (p : Nat) (off : Nat) (val : W32), (p < 4 ∧ off < 0x400000 ∧ off % 4 = 0) → (windowsOn s.dev = true ∧ pairEn s.dev = false
        ∧ s.dev.cfgq = []) → (lpOf s.dev p).forces = [] → (off < 0x2000 → exec (.lpVarWrite p off val) s = .next { s with dev := setLp (setLp s.dev p { lpOf s.dev p with m := tset 0 (lpOf s.dev p).m (off / 2) (halfOf val false) }) p { lpOf s.dev p with m := tset 0 (tset 0 (lpOf s.dev p).m (off / 2) (halfOf val false)) (off / 2 + 1) (halfOf val true) } })
      ∧ ((0x10000 ≤ off ∧ off < 0x30000) → exec (.lpVarWrite p off val) s = .next { s with dev := setLp (setLp s.dev p { lpOf s.dev p with w := tset 0 (lpOf s.dev p).w ((off - 0x10000) / 2) (halfOf val false) }) p { lpOf s.dev p with w := tset 0 (tset 0 (lpOf s.dev p).w ((off - 0x10000) / 2) (halfOf val false)) ((off - 0x10000) / 2 + 1) (halfOf val true) } })
      ∧ ((0x300000 ≤ off ∧ off < 0x308000) → Completes (.lpVarWrite p off val) s (fun d => d.shared = tset 0 (tset 0 s.dev.shared ((off - 0x300000) / 2) (halfOf val false)) ((off - 0x300000) / 2 + 1) (halfOf val true)
        ∧ (lpOf d ((off - 0x300000) / 2 / 4096)).h = tset 0 (tset 0 (lpOf s.dev ((off - 0x300000) / 2 / 4096)).h ((off - 0x300000) / 2) (halfOf val false)) ((off - 0x300000) / 2 + 1) (halfOf val true) ∧ d.regs = s.dev.regs ∧ d.sig = s.dev.sig))) ∧
    -- varWaits
    (∀ (p : Nat) (off : Nat) (val : W32), (p < 4 ∧ off < 0x2000 ∧ off % 4 = 0) → windowsOn s.dev = true → (pairEn s.dev = true → accepts s.dev = true
        ∧ s.dev.tw.queue.length < 1024 → exec (.lpVarWrite p off val) s = .next { s with dev := { s.dev with
      tw := { s.dev.tw with queue := s.dev.tw.queue ++ [⟨varWin + p * 0x400000 + off + 2 ^ 28 * 15, val, 0⟩], seq := s.dev.tw.seq + 1 } } })
      ∧ (∀ q o w, pairEn s.dev = false → (w ∈ s.dev.cfgq ∧ pageAt (w.addr % 2 ^ 28) = some (q, o)
        ∧ commitPage q = true) → exec (.lpVarWrite p off val) s = .next { s with dev := { s.dev with cfgq := s.dev.cfgq ++ [⟨varWin + p * 0x400000 + off + 2 ^ 28 * 15, val, 0⟩] } })) ∧
    -- varOutside
    (∀ (p : Nat) (off : Nat) (val : W32), (p < 4 ∧ off < 0x400000 ∧ off % 4 = 0) → (windowsOn s.dev = true
        ∧ varRange off = false) → powered s.dev = true → exec (.lpVarWrite p off val) s = .next { s with dev := bump s.dev DEV_UNMAPPED_CNT })

/-- Safety channels: cycle, status, contacts, faults, outputs, delays and lockout (R237, R238, R241, R242, R243, R244, R245,
R246, R247, R256, 09 Safety). A cycle counts on both channels and keeps table, password and signals; a confirmed table takes effect
at its start; without a table, syncing or locked out every switch is off; a module that replays computes its cycles with the BPs it
replays; the status words are committed to exactly their eight entries; a contact reaches the channels that see it and times the
ON period of its pair; discrepancy, jam, switch read-back and dark tests lock exactly what they name; the end of a delay stops its
instance, or faults it where a fault cause stands; a failed self-test or an uncovered clock locks out. -/
def Obligations.SafetyCyclesLatchCompareAndSwitch : Prop :=
  ∀ s : State,
    -- cycle
    (∀ (opens shorts : Nat) (differ : Bool), (bp s.dev % 100 = 0 ∨ s.dev.sf.a.alone = true ∨ s.dev.sf.b.alone = true) → sfReplays s.dev = false →
      s.dev.sf.cmds = [] → s.dev.sf.confirmed = false → Completes (.safetyCycle ⟨opens, shorts⟩ differ) s (fun d =>
        (∀ f < 2, rd64 d (SF_CYC f) = (rd64 s.dev (SF_CYC f) + 1) % 2 ^ 64) ∧ d.sf.table = s.dev.sf.table ∧ d.sf.pend = s.dev.sf.pend
        ∧ d.sf.unlocked = s.dev.sf.unlocked ∧ d.sf.hash = s.dev.sf.hash ∧ d.sig = s.dev.sig ∧ d.role = s.dev.role)) ∧
    -- cycleTakes
    (∀ (opens shorts : Nat) (differ : Bool) (t : SfTable), (bp s.dev % 100 = 0 ∨ s.dev.sf.a.alone = true ∨ s.dev.sf.b.alone = true) →
      sfReplays s.dev = false → s.dev.sf.cmds = [] → s.dev.sf.confirmed = true → s.dev.sf.pend = some t → Completes (.safetyCycle ⟨opens, shorts⟩ differ) s (fun d =>
        (∀ f < 2, rd64 d (SF_CYC f) = (rd64 s.dev (SF_CYC f) + 1) % 2 ^ 64) ∧ d.sf.table = some t ∧ d.sf.pend = none ∧ d.sf.confirmed = false
        ∧ d.sf.unlocked = s.dev.sf.unlocked ∧ d.sf.hash = s.dev.sf.hash ∧ d.role = s.dev.role)) ∧
    -- cycleOff
    (∀ (opens shorts : Nat) (differ : Bool), (bp s.dev % 100 = 0 ∨ s.dev.sf.a.alone = true ∨ s.dev.sf.b.alone = true) → sfReplays s.dev = false →
      s.dev.sf.cmds = [] → s.dev.sf.confirmed = false → (s.dev.sf.mode = .lockout ∨ s.dev.role = .syncing ∨ s.dev.sf.table = none) →
      Completes (.safetyCycle ⟨opens, shorts⟩ differ) s (fun d => rd d SIO_SO_CMD = 0 ∧ (s.dev.sf.mode = .lockout → d.sf.mode = .lockout))) ∧
    -- cycleReplayed
    (∀ (opens shorts : Nat) (differ : Bool), sfReplays s.dev = true → exec (.safetyCycle ⟨opens, shorts⟩ differ) s = .next s) ∧
    -- status
    (∀ (t : SfTable), s.dev.sf.table = some t → bp s.dev % 100 = 70 → sfReplays s.dev = false → Completes .safetyStatusCommit s (fun d =>
      (∀ f < 2, ∀ j < 4, sigVal d (t.stat + 4 * f + j) = sigForm (sigWide s.dev (t.stat + 4 * f + j)) (w32 ([qWord s.dev f 0, qWord s.dev f 1,
        (fld (rd s.dev SIO_SO_CMD) 7 0 &&& fld (rd s.dev SIO_SO_CMD) 15 8) + 256 * (chanOf s.dev f).img.pairs, sfStat s.dev f].getD j 0)))
      ∧ ∀ n, (n < t.stat ∨ t.stat + 8 ≤ n) → sigVal d n = sigVal s.dev n)) ∧
    -- contact
    (∀ (i : Nat) (second : Bool) (seen : Nat) (lvl : Bool) (smp : Nat), (i < 16 ∧ seen < 4 ∧ smp < 100) →
      Completes (.safetyContactChange i second ⟨seen, lvl, smp⟩) s (fun d =>
        (∀ j < 16, rdBit d (if second then SIO_IN_B else SIO_IN_A) j = (if j = i ∧ bit (w32 seen) 0 = true then lvl else rdBit s.dev (if second then SIO_IN_B else SIO_IN_A) j))
        ∧ (∀ j < 16, bit (w32 (if second then d.sf.inB else d.sf.inA)) j
            = (if j = i ∧ bit (w32 seen) 1 = true then lvl else bit (w32 (if second then s.dev.sf.inB else s.dev.sf.inA)) j))
        ∧ (∀ a, a ≠ (if second then SIO_IN_B else SIO_IN_A) → rd d a = rd s.dev a)
        ∧ d.sf.pairs = (if pairOn d i && !(pairS s.dev i).now then lset s.dev.sf.pairs i { pairS s.dev i with now := true, onAt := sfTime s.dev smp }
          else if !pairOn d i && (pairS s.dev i).now then
            lset s.dev.sf.pairs i { pairS s.dev i with now := false, len := sfTime s.dev smp - (pairS s.dev i).onAt, fresh := true }
          else s.dev.sf.pairs)
        ∧ d.sf.mode = s.dev.sf.mode ∧ d.sf.table = s.dev.sf.table ∧ d.sf.conns = s.dev.sf.conns ∧ d.sig = s.dev.sig)) ∧
    -- discrepancy
    (∀ (i : Nat) (t : Nat), i < 16 → followsPair s.dev = false → (pairS s.dev i).disc = some t → ((sfPairOf s.dev i).mode ≠ 0 ∧ pairOn s.dev i = false
        ∧ pairOff s.dev i = false ∧ (sfPairOf s.dev i).disc < t + 1) → Completes (.discrepancyFault i) s (fun d => rdBit d SIO_DISC i = true
        ∧ rd d SIO_FLT_CNT = rd s.dev SIO_FLT_CNT + (if rdBit s.dev SIO_DISC i then 0 else 1) ∧ (∀ j, j ≠ i → rdBit d SIO_DISC j = rdBit s.dev SIO_DISC j)
        ∧ d.sf = s.dev.sf ∧ d.sig = s.dev.sig)) ∧
    -- jam
    (∀ (i : Nat), i < 16 → followsPair s.dev = false → ((sfPairOf s.dev i).mode = 3 ∧ (pairS s.dev i).now = true ∧ rdBit s.dev SIO_DISC i = false
        ∧ (pairS s.dev i).onAt + 500000 ≤ sfTime s.dev 100 ∧ rdBit s.dev SIO_JAM i = false) → Completes (.resetJam i) s (fun d => rdBit d SIO_JAM i = true
        ∧ rd d SIO_FLT_CNT = rd s.dev SIO_FLT_CNT + 1 ∧ (∀ j, j ≠ i → rdBit d SIO_JAM j = rdBit s.dev SIO_JAM j) ∧ d.sf = s.dev.sf ∧ d.sig = s.dev.sig)) ∧
    -- outputs
    (∀ (o : Nat) (sw : Nat), (o < 8 ∧ sw < 2) → (rdBit s.dev SIO_SO_CMD (8 * sw + o) = false
        ∧ rdBit s.dev SIO_SO_LOCK o = false) → Completes (.outputLockout o sw) s (fun d => rdBit d SIO_SO_LOCK o = true ∧ rdBit d SIO_SO_CMD o = false
        ∧ rdBit d SIO_SO_CMD (8 + o) = false ∧ rdBit d SIO_SO_RB (8 * sw + o) = true ∧ rd d SIO_FLT_CNT = rd s.dev SIO_FLT_CNT + 1
        ∧ (∀ j < 32, j ≠ o → j ≠ 8 + o → rdBit d SIO_SO_CMD j = rdBit s.dev SIO_SO_CMD j) ∧ d.sf = s.dev.sf ∧ d.sig = s.dev.sig)) ∧
    -- dark
    (∀ (o : Nat) (sw : Nat) (t : SfTable), (o < 8 ∧ sw < 2) → (s.dev.sf.table = some t ∧ (nth t.outs o default).dark = true
        ∧ rdBit s.dev SIO_SO_RB o = true ∧ rdBit s.dev SIO_SO_RB (8 + o) = true
        ∧ sfCyc s.dev % 10000 = 5000 * sw) → rdBit s.dev SIO_SO_LOCK o = false → Completes (.darkTest o sw false) s (fun d => rdBit d SIO_SO_LOCK o = true
        ∧ rdBit d SIO_SO_CMD o = false ∧ rdBit d SIO_SO_CMD (8 + o) = false ∧ rd d SIO_FLT_CNT = rd s.dev SIO_FLT_CNT + 1 ∧ d.sf = s.dev.sf)) ∧
    -- darkOpened
    (∀ (o : Nat) (sw : Nat), (o < 8 ∧ sw < 2) → exec (.darkTest o sw true) s = .next s) ∧
    -- delayEnd
    (∀ (k : Nat) (t : SfTable), (k < 64 ∧ s.dev.sf.table = some t ∧ k < t.insts.length) → (s.dev.sf.mode ≠ .lockout ∧ sfReplays s.dev = false) →
      (∀ f < 2, k < (chanOf s.dev f).insts.length ∧ (nth (chanOf s.dev f).insts k default).st = .delay ∧ (nth (chanOf s.dev f).insts k default).moved = false
        ∧ (nth t.insts k default).delay ≤ (nth (chanOf s.dev f).insts k default).timer + 1) → Completes (.offDelayEnd k) s (fun d =>
        (∀ f < 2, nth (chanOf d f).insts k default = { nth (chanOf s.dev f).insts k default with
            st := if instFault (chanOf s.dev f).img (fld (rd s.dev SIO_SO_LOCK) 7 0) (nth t.insts k default) then .fault else .stop
            q := false, timer := 0, moved := true }
          ∧ rd d (SF_TRIP_CNT f) = rd s.dev (SF_TRIP_CNT f) + 1
          ∧ ∀ j, j ≠ k → nth (chanOf d f).insts j default = nth (chanOf s.dev f).insts j default) ∧ d.sig = s.dev.sig)) ∧
    -- muting
    (∀ (k : Nat) (t : SfTable), (k < 64 ∧ s.dev.sf.table = some t ∧ k < t.insts.length) → (s.dev.sf.mode ≠ .lockout ∧ sfReplays s.dev = false) →
      (∀ f < 2, k < (chanOf s.dev f).insts.length) → Completes (.mutingTimeout k) s (fun d =>
        (∀ f < 2, nth (chanOf d f).insts k default = (if (nth t.insts k default).typ = 6
            ∧ (nth t.insts k default).param ≤ (nth (chanOf s.dev f).insts k default).mute then { nth (chanOf s.dev f).insts k default with muted := true }
            else nth (chanOf s.dev f).insts k default)
          ∧ ∀ j, j ≠ k → nth (chanOf d f).insts j default = nth (chanOf s.dev f).insts j default) ∧ d.regs = s.dev.regs ∧ d.sig = s.dev.sig)) ∧
    -- lockAux
    (∀ (k : Nat) (t : SfTable), (k < 64 ∧ s.dev.sf.table = some t ∧ k < t.insts.length) → (s.dev.sf.mode ≠ .lockout ∧ sfReplays s.dev = false) →
      ((nth t.insts k default).typ = 5 ∧ ∀ f < 2, k < (chanOf s.dev f).insts.length ∧ ∃ n, (nth (chanOf s.dev f).insts k default).aux = some n
        ∧ (nth t.insts k default).param ≤ n + 1) → Completes (.lockAuxDelayEnd k) s (fun d =>
        (∀ f < 2, nth (chanOf d f).insts k default = { nth (chanOf s.dev f).insts k default with aux := some (nth t.insts k default).param }
          ∧ ∀ j, j ≠ k → nth (chanOf d f).insts j default = nth (chanOf s.dev f).insts j default) ∧ d.regs = s.dev.regs ∧ d.sig = s.dev.sig)) ∧
    -- selfTest
    (∀ (ch : Nat), (ch < 2 ∧ s.dev.sf.mode ≠ .lockout) → Completes (.channelSelfTestFail ch) s (fun d =>
        d.sf = { s.dev.sf with mode := .lockout, cause := 3 } ∧ rd d SIO_SO_CMD = 0 ∧ d.sig = s.dev.sig)) ∧
    -- clock
    (∀ (ch : Nat) (covered : Bool), (ch < 2 ∧ s.dev.sf.mode ≠ .lockout) → Completes (.safetyClockDeviation ch covered) s (fun d =>
      if covered then chanOf d ch = { chanOf s.dev ch with alone := true }
        ∧ chanOf d (1 - ch) = chanOf s.dev (1 - ch) ∧ d.regs = s.dev.regs ∧ d.sf.mode = s.dev.sf.mode
      else d.sf = { s.dev.sf with mode := .lockout, cause := 4 } ∧ rd d SIO_SO_CMD = 0))

/-- Safe connections: accepted frames, watchdog, missing network, tolerance, images (R249, R251, R252, R262, 09 Safety). A received
frame is accepted by exactly the connections it satisfies; the watchdog, a missing network without tolerance and a spent
tolerance trip exactly their connection; on a module that takes its partner's image these faults are the image's, and the module's
own do nothing; a good image of the partner is kept for the next cycle, a bad one leaves the safety state; a lane frame that fails
its checks is dropped and counted. -/
def Obligations.SafeConnectionsFollowTheirFrames : Prop :=
  ∀ s : State,
    -- frame
    (∀ (net : Nat) (bs : List W8), (net < 2 ∧ s.dev.sf.conns.length = 32) → Completes (.safeFrameReceive net bs) s (fun d =>
      (∀ c < 32, connOf d c = (if frameSound (sfConsOf s.dev c) bs && (connOf s.dev c).st != .unused
          && seqNewer (if net = 0 then (connOf s.dev c).seqA else (connOf s.dev c).seqB) (num bs 4 4)
        then connAccept (connOf s.dev c) net (num bs 4 4) (num bs 8 4) bs else connOf s.dev c)) ∧ d.regs = s.dev.regs ∧ d.sig = s.dev.sig)) ∧
    -- watchdog
    (∀ (c : Nat), (c < 32 ∧ c < s.dev.sf.conns.length) → followsPair s.dev = false → (((connOf s.dev c).st = .ok ∨ (connOf s.dev c).st = .degraded)
        ∧ (sfConsOf s.dev c).wd ≤ min (connOf s.dev c).ageA (connOf s.dev c).ageB) → Completes (.connWatchdog c) s (fun (d : Dev) =>
        connOf d c = { connOf s.dev c with st := .tripped, differ := false, equal := 0, tol := 0 }
        ∧ (∀ f < 2, rd d (SF_CTRIP_CNT f) = rd s.dev (SF_CTRIP_CNT f) + 1) ∧ (∀ k, k ≠ c → connOf d k = connOf s.dev k) ∧ d.sig = s.dev.sig)) ∧
    -- missing
    (∀ (c : Nat), (c < 32 ∧ c < s.dev.sf.conns.length) → followsPair s.dev = false → ((connOf s.dev c).st = .ok
        ∧ 3 * (sfConsOf s.dev c).period ≤ max (connOf s.dev c).ageA (connOf s.dev c).ageB) → Completes (.networkMissing c) s (fun d =>
        connOf d c = (if (sfConsOf s.dev c).tol = 0 then { connOf s.dev c with st := .tripped, differ := false, equal := 0, tol := 0 }
          else { connOf s.dev c with st := .degraded, tol := 0 })
        ∧ (∀ f < 2, rd d (SF_CTRIP_CNT f) = (if (sfConsOf s.dev c).tol = 0 then rd s.dev (SF_CTRIP_CNT f) + 1 else rd s.dev (SF_CTRIP_CNT f)))
        ∧ (∀ k, k ≠ c → connOf d k = connOf s.dev k) ∧ d.sig = s.dev.sig)) ∧
    -- tolerance
    (∀ (c : Nat), (c < 32 ∧ c < s.dev.sf.conns.length) → followsPair s.dev = false → ((connOf s.dev c).st = .degraded
        ∧ 1000 * (sfConsOf s.dev c).tol < (connOf s.dev c).tol + 1) → Completes (.degradedTimeout c) s (fun (d : Dev) =>
        connOf d c = { connOf s.dev c with st := .tripped, differ := false, equal := 0, tol := 0 }
        ∧ (∀ f < 2, rd d (SF_CTRIP_CNT f) = rd s.dev (SF_CTRIP_CNT f) + 1) ∧ (∀ k, k ≠ c → connOf d k = connOf s.dev k) ∧ d.sig = s.dev.sig)) ∧
    -- partners
    (∀ (i c : Nat) (e : Instr), (i < 16 ∧ c < 32) → followsPair s.dev = true →
      e ∈ [.discrepancyFault i, .resetJam i, .connWatchdog c, .networkMissing c, .degradedTimeout c] → exec e s = .next s) ∧
    -- image
    (∀ (h : TwHead) (n : Nat) (f : Nat) (img : SfImg) (good : Bool), (f < 2 ∧ h.lane < 2) → Arrives s.dev h → s.dev.role = .standby →
      Completes (.safeImgReceive ⟨h, n⟩ f img good) s (fun d => chanOf d f = (if good then { chanOf s.dev f with fwd := some img } else chanOf s.dev f)
        ∧ chanOf d (1 - f) = chanOf s.dev (1 - f) ∧ d.regs = s.dev.regs ∧ d.sig = s.dev.sig
        ∧ (if h.lane = 0 then d.tw.ctr0 else d.tw.ctr1) = some h.ctr)) ∧
    -- spoiltImage
    (∀ (h : TwHead) (n : Nat) (f : Nat) (img : SfImg) (good : Bool), (f < 2 ∧ h.lane < 2) → Discarded s.dev h →
      Completes (.safeImgReceive ⟨h, n⟩ f img good) s (fun d => d.sf = s.dev.sf ∧ d.tw = s.dev.tw ∧ rd d TW_LANE_ERR_CNT = rd s.dev TW_LANE_ERR_CNT + 1
        ∧ d.sig = s.dev.sig))

/-- Safety configuration: password, load, confirm, discard and their time-outs (R253, R254, R255, R256, 09 Safety). Each
configuration command, admitted: its result in SF_RES, and exactly its effect on the session, the password state, the pending and
the active table; refused with SF_LOCKED while locked and with SF_CMD_STATE in a mode that does not take it; every command starts
the 15 minutes anew; UNLOCK waits after failures; CONFIRM notes the table that the next cycle puts in force; CONFIRM_TIMEOUT and
UNLOCK_TIMEOUT drop the pending table and the session. That a command row acts when it is given is the model's choice (log entry
49). -/
def Obligations.SafetyTablesArePutInForce : Prop :=
  ∀ s : State,
    -- nop
    (admits s.dev .sfa 0x104 = true → Completes .sfNop s (fun d => rd d (SF_RES 0) = 0 ∧ rd d (SF_RES 1) = 0
        ∧ d.sf = { s.dev.sf with cfgAt := sfCyc s.dev } ∧ d.sig = s.dev.sig)) ∧
    -- unlock
    (admits s.dev .sfa 0x104 = true → s.dev.sf.failAt + pwWait s.dev ≤ sfCyc s.dev → Completes .sfUnlock s (fun d => if (sfPwHash s.dev (sfPw s.dev) = sfHash s.dev) then
        d.sf = { s.dev.sf with unlocked := true, fails := 0, cfgAt := sfCyc s.dev } ∧ rd d (SF_RES 0) = 0
      else d.sf = { s.dev.sf with fails := s.dev.sf.fails + 1, failAt := sfCyc s.dev, cfgAt := sfCyc s.dev } ∧ rd d (SF_RES 0) = 2
        ∧ (∀ f < 2, rd d (SF_PWF_CNT f) = rd s.dev (SF_PWF_CNT f) + 1))) ∧
    -- unlockWaits
    (admits s.dev .sfa 0x104 = true → sfCyc s.dev < s.dev.sf.failAt + pwWait s.dev → Completes .sfUnlock s (fun d =>
        d.sf = { s.dev.sf with cfgAt := sfCyc s.dev } ∧ rd d (SF_RES 0) = 3)) ∧
    -- lock
    (admits s.dev .sfa 0x104 = true → Completes .sfLock s (fun d => d.sf = { s.dev.sf with unlocked := false, cfgAt := sfCyc s.dev }
        ∧ rd d (SF_RES 0) = 0 ∧ d.sig = s.dev.sig)) ∧
    -- load
    (admits s.dev .sfa 0x104 = true → (s.dev.sf.unlocked = true ∧ (s.dev.sf.mode = .unconfigured
        ∨ s.dev.sf.mode = .active)) → Completes .sfLoad s (fun d => rd d (SF_RES 0) = w32 (sfLoadCheck (setSf (issued s.dev .sfa 0x104 3) { s.dev.sf with cfgAt := sfCyc s.dev }) s.vault.serial).1
        ∧ d.sig = s.dev.sig ∧ match (sfLoadCheck (setSf (issued s.dev .sfa 0x104 3) { s.dev.sf with cfgAt := sfCyc s.dev }) s.vault.serial).2 with
      | some t => d.sf = { s.dev.sf with cfgAt := sfCyc s.dev, mode := .pending, pend := some t, pendAt := sfCyc s.dev }
        ∧ ∀ f < 2, rd d (SF_PEND_CRC f) = w32 t.crc
      | none => d.sf = { s.dev.sf with cfgAt := sfCyc s.dev })) ∧
    -- confirm
    (∀ (t : SfTable) (r : Nat), admits s.dev .sfa 0x104 = true → (s.dev.sf.unlocked = true ∧ s.dev.sf.mode = .pending ∧ s.dev.sf.confirmed = false
        ∧ s.dev.sf.pend = some t) → r = (if rdN s.dev (SF_CONFIRM 0) ≠ t.crc then 0x0B
        else if (rd s.dev SIO_SO_CMD != 0 || s.dev.sf.a.insts.any (fun s => s.st == .run || s.st == .delay)) = true then 0x0A
        else if sfTaken s.dev t = true then 0x0E else 0) → Completes .sfConfirm s (fun d => rd d (SF_RES 0) = w32 r
        ∧ d.sf = { s.dev.sf with cfgAt := sfCyc s.dev, confirmed := decide (r = 0) } ∧ d.sig = s.dev.sig)) ∧
    -- discard
    (admits s.dev .sfa 0x104 = true → (s.dev.sf.unlocked = true ∧ s.dev.sf.mode = .pending ∧ s.dev.sf.confirmed = false) → Completes .sfDiscard s (fun d =>
        rd d (SF_RES 0) = 0 ∧ d.sf = { s.dev.sf with cfgAt := sfCyc s.dev, mode := if s.dev.sf.table.isSome then .active else .unconfigured, pend := none, confirmed := false }
        ∧ d.sig = s.dev.sig)) ∧
    -- setPassword
    (admits s.dev .sfa 0x104 = true → s.dev.sf.unlocked = true → Completes .sfSetPw s (fun d => rd d (SF_RES 0) = 0
        ∧ d.sf = { s.dev.sf with cfgAt := sfCyc s.dev, hash := some (sfPwHash s.dev (sfPw s.dev)) } ∧ d.sig = s.dev.sig)) ∧
    -- refused
    (∀ (c : Instr), admits s.dev .sfa 0x104 = true → s.dev.sf.unlocked = false → c ∈ [.sfLoad, .sfConfirm, .sfDiscard, .sfSetPw] → Completes c s (fun d =>
        rdN d (sfBase 0 + ERR_CODE) % 65536 = 0x0901
        ∧ rd d (SF_RES 0) = 1 ∧ d.sf = { s.dev.sf with cfgAt := sfCyc s.dev } ∧ d.sig = s.dev.sig)) ∧
    -- refusedInMode
    (∀ (c : Instr), admits s.dev .sfa 0x104 = true → s.dev.sf.unlocked = true →
      (c ∈ [.sfConfirm, .sfDiscard] ∧ (s.dev.sf.mode ≠ .pending ∨ s.dev.sf.confirmed = true)) ∨ (c = .sfLoad ∧ s.dev.sf.mode ≠ .unconfigured ∧ s.dev.sf.mode ≠ .active) →
      Completes c s (fun d => rdN d (sfBase 0 + ERR_CODE) % 65536 = 0x0902 ∧ rd d (SF_RES 0) = rd s.dev (SF_RES 0)
        ∧ d.sf = { s.dev.sf with cfgAt := sfCyc s.dev } ∧ d.sig = s.dev.sig)) ∧
    -- confirmTimeout
    ((s.dev.sf.mode = .pending ∧ s.dev.sf.confirmed = false ∧ s.dev.sf.pendAt + 600000 ≤ sfCyc s.dev) → Completes .confirmTimeout s (fun d => rd d (SF_RES 0) = 0x0C
        ∧ d.sf = { s.dev.sf with mode := if s.dev.sf.table.isSome then .active else .unconfigured, pend := none } ∧ d.sig = s.dev.sig)) ∧
    -- unlockTimeout
    (s.dev.sf.cfgAt + 900000 ≤ sfCyc s.dev → exec .unlockTimeout s = .next { s with dev := setSf s.dev { s.dev.sf with unlocked := false } })

/-- Twin frames: inputs, writes, replies, digests, control, images, base, time and beat (R262, R265, R266, R268, R270, R277,
R282, R283, R286, R366, 10 Twin operation). A frame that arrives on a trusted lane notes its counter and has exactly its
effect: INPUT and WRITES frames and, on a SYNCING module, replies wait once for their BP; a standby takes a reply at once;
digests of an epoch wait for each other and are compared; CTRL asks for a sync, for authority, or offers it; images of the
sync go to the directory, images of a load to their loader; base chunks are collected, three failures of a chunk fail the
sync; the installed base puts the module into CATCHUP; a TIME frame measures the offset; a beat tells the partner's flags. A
frame that fails its checks is counted and dropped. That a TIME frame tells the authority's trim is the model's choice (log
entry 59). -/
def Obligations.TwinFramesTakeEffect : Prop :=
  ∀ s : State,
    -- kept
    (∀ (h : TwHead) (n tt first seg k : Nat) (vals : List (W32 × Bool)) (ws : List (Nat × W32)) (bs : List W8) (c : Instr) (f : TwFrame), (h.lane < 2 ∧ seg < 16 ∧ k < 32) → Arrives s.dev h →
      (follows s.dev = true ∧ (onGrid s.dev = true → bp s.dev < n) ∧ s.dev.tw.frames.contains f = false) →
      (s.dev.role = .syncing → ∀ g ∈ s.dev.tw.frames, n < frameBp g + 10000) →
      ((c, f) ∈ [(.inputFrameReceive ⟨h, n⟩ tt vals, .input n tt vals), (.writesFrameReceive ⟨h, n⟩ first ws, .writes n first ws)] ∨ (s.dev.role = .syncing ∧ (c, f) = (.plialeFrameReceive ⟨h, n⟩ seg k bs, .pliale n seg k bs))) →
      exec c s = .next { s with dev := setTw (noted s.dev h) { (noted s.dev h).tw with frames := s.dev.tw.frames ++ [f] } }) ∧
    -- reply
    (∀ (h : TwHead) (n seg k : Nat) (bs : List W8), (h.lane < 2 ∧ seg < 16 ∧ k < 32) → Arrives s.dev h → (s.dev.role = .standby ∧ k < (plOf s.dev seg).slots.length) →
      Completes (.plialeFrameReceive ⟨h, n⟩ seg k bs) s (fun d => slOf d seg k = { slOf s.dev seg k with fwd := some bs, due := (slOf s.dev seg k).due || plL3 (plOf s.dev seg) }
        ∧ (∀ j, j ≠ k → slOf d seg j = slOf s.dev seg j) ∧ (∀ g, g ≠ seg → plOf d g = plOf s.dev g) ∧ d.regs = s.dev.regs ∧ d.sig = s.dev.sig)) ∧
    -- digestWaits
    (∀ (h : TwHead) (e g : Nat), h.lane < 2 → Arrives s.dev h → digestAt s.dev.tw.own e = none →
      exec (.digestReceive ⟨h, e⟩ g) s = .next { s with dev := setTw (noted s.dev h) { (noted s.dev h).tw with peer := (e, g % 2 ^ 64) :: s.dev.tw.peer.filter (fun p => p.1 != e) } }) ∧
    -- digestEqual
    (∀ (h : TwHead) (e g : Nat), h.lane < 2 → Arrives s.dev h → digestAt s.dev.tw.own e = some (g % 2 ^ 64) →
      Completes (.digestReceive ⟨h, e⟩ g) s (fun d => rd64 d TW_EPOCH = e % 2 ^ 64 ∧ rd64 d TW_DIG_OWN = g % 2 ^ 64 ∧ rd64 d TW_DIG_PEER = g % 2 ^ 64
        ∧ d.tw.matches_ = min 255 (s.dev.tw.matches_ + 1) ∧ rd d TW_DIG_MIS_CNT = rd s.dev TW_DIG_MIS_CNT
        ∧ d.tw.phase = (if s.dev.role = .syncing ∧ s.dev.tw.phase = 4 then 5 else s.dev.tw.phase) ∧ d.role = s.dev.role ∧ d.sig = s.dev.sig)) ∧
    -- digestDiffers
    (∀ (h : TwHead) (e g o : Nat), h.lane < 2 → Arrives s.dev h → (digestAt s.dev.tw.own e = some o ∧ o ≠ g % 2 ^ 64) →
      Completes (.digestReceive ⟨h, e⟩ g) s (fun d => d.tw.matches_ = 0 ∧ d.tw.asked = false ∧ rd d TW_DIG_MIS_CNT = rd s.dev TW_DIG_MIS_CNT + 1
        ∧ (s.dev.role = .standby → d.tw.phase = 1 ∧ d.tw.baseOk = false ∧ .ctrl 0 ∈ d.tw.sent) ∧ (s.dev.role = .syncing ∧ s.dev.tw.phase = 4 → d.tw.phase = 2 ∧ d.tw.fails = s.dev.tw.fails + 1)
        ∧ d.role = s.dev.role ∧ d.sig = s.dev.sig)) ∧
    -- syncRequest
    (∀ (h : TwHead), h.lane < 2 → Arrives s.dev h → authoritative s.dev = true →
      exec (.ctrlFrameReceive ⟨h, 0⟩) s = .next { s with dev := setTw (noted s.dev h) { (noted s.dev h).tw with serve := true } }) ∧
    -- returnAsked
    (∀ (h : TwHead), h.lane < 2 → Arrives s.dev h → (s.dev.role = .authority ∧ s.dev.tw.handover = none ∧ integOk s.dev = true) →
      exec (.ctrlFrameReceive ⟨h, 1⟩) s = .next { s with dev := setTw (noted s.dev h) { (noted s.dev h).tw with handover := some ((bp s.dev + 14) / 5 * 5) } }) ∧
    -- offered
    (∀ (h : TwHead), h.lane < 2 → Arrives s.dev h → s.dev.role = .standby →
      Completes (.ctrlFrameReceive ⟨h, 2⟩) s (fun d => d.tw.asked = (s.dev.tw.asked || mayReturn s.dev)
        ∧ d.tw.askNow = !mayReturn s.dev ∧ (mayReturn s.dev = true → d.tw.sent = s.dev.tw.sent ++ [.ctrl 1]) ∧ d.regs = s.dev.regs ∧ d.role = s.dev.role)) ∧
    -- loadImage
    (∀ (h : TwHead) (l : Nat) (bank typ : Nat) (bs : List W8), (h.lane < 2 ∧ l < 16 ∧ bank < 2 ∧ typ < 8) → Arrives s.dev h → (followsPair s.dev = true ∧ (laneOf s.dev l).st = .loading) →
      Completes (.imageFrameReceive ⟨h, .sq l⟩ bank typ bs) s (fun d => laneOf d l = { laneOf s.dev l with copy := bs, copyLen := bs.length }
        ∧ (∀ k, k ≠ l → laneOf d k = laneOf s.dev k) ∧ d.dir = s.dev.dir ∧ d.regs = s.dev.regs ∧ d.sig = s.dev.sig)) ∧
    -- syncImage
    (∀ (h : TwHead) (p : Page) (bank typ : Nat) (bs : List W8), (h.lane < 2 ∧ pageOk p = true ∧ bank < 2 ∧ typ < 8) → Arrives s.dev h →
      (s.dev.role = .syncing ∧ s.dev.tw.baseOk = false ∧ (s.dev.tw.phase = 1 ∨ s.dev.tw.phase = 2)) →
      exec (.imageFrameReceive ⟨h, p⟩ bank typ bs) s = .next { s with dev := if containerCheck s.dev bs typ bs.length = 0 then { noted s.dev h with
          dir := ⟨pageBase p, bank, typ, bs.length, (bs.drop 0x20).take 32⟩ :: s.dev.dir.filter (fun e => !(e.base == pageBase p && e.bank == bank)) } else noted s.dev h }) ∧
    -- baseChunk
    (∀ (h : TwHead) (k : Nat) (ok : Bool), h.lane < 2 → Arrives s.dev h → (s.dev.role = .syncing ∧ s.dev.tw.halt = false ∧ (s.dev.tw.phase = 1 ∨ s.dev.tw.phase = 2)) →
      Completes (.baseFrameReceive ⟨h, k⟩ ok) s (fun d =>
        (if ok then d.tw.chunks = (if k ∈ s.dev.tw.chunks then s.dev.tw.chunks else k :: s.dev.tw.chunks) ∧ d.tw.chunkFails = s.dev.tw.chunkFails ∧ d.tw.fails = s.dev.tw.fails
          else if 2 ≤ s.dev.tw.chunkFails.count k then d.tw.chunks = [] ∧ d.tw.chunkFails = [] ∧ d.tw.fails = s.dev.tw.fails + 1
            ∧ d.tw.halt = decide (3 ≤ s.dev.tw.fails + 1) ∧ rd d TW_SYNC_FAIL_CNT = rd s.dev TW_SYNC_FAIL_CNT + 1
          else d.tw.chunks = s.dev.tw.chunks ∧ d.tw.chunkFails = k :: s.dev.tw.chunkFails ∧ d.tw.fails = s.dev.tw.fails)
        ∧ d.tw.phase = 2 ∧ d.role = s.dev.role ∧ d.sig = s.dev.sig)) ∧
    -- base
    (∀ (e : Nat) (b : Snap), (follows s.dev = true ∧ s.dev.role = .syncing ∧ s.dev.tw.halt = false ∧ s.dev.tw.phase = 2 ∧ s.dev.tw.baseOk = false ∧ s.dev.power.phase = .on) →
      exec (.baseInstalled e b) s = .next { s with dev := windowWork s.vault { baseInstalled s.dev e b with cfgq := [] } }
        ∧ (baseInstalled s.dev e b).tw = { s.dev.tw with phase := 3, baseOk := true, baseAt := e, joining := false, seq := mk64 (tget 0 b.regs TW_PO_SEQ) (tget 0 b.regs (TW_PO_SEQ + 4)) }
        ∧ (baseInstalled s.dev e b).sig = b.sig ∧ (baseInstalled s.dev e b).cells = b.cells ∧ (baseInstalled s.dev e b).lanes = b.lanes
        ∧ bp (baseInstalled s.dev e b) = e % 2 ^ 64 ∧ (baseInstalled s.dev e b).sf.hash = s.dev.sf.hash ∧ (baseInstalled s.dev e b).dir = s.dev.dir) ∧
    -- time
    (∀ (h : TwHead) (n ns fr : Nat) (trim : W32) (u : Int), (h.lane < 2 ∧ n = bp s.dev) → Arrives s.dev h → pairFollow s.dev = true →
      u = ((ns * 2 ^ 24 + fr % 2 ^ 24 : Nat) : Int) - (s.dev.tt * 2 ^ 24 + s.dev.ttFrac : Nat) →
      Completes (.timeFrameReceive ⟨h, n, trim⟩ ns fr) s (fun d => rd d TB_PAIR_OFS = w32i (clampI (-2147483648) 2147483647 (Int.tdiv u oneNs)) ∧ d.tw.trim = trim
        ∧ (1000 * oneNs < u ∨ u < -(1000 * oneNs) → d.tb = { s.dev.tb with pairStep := some u })
        ∧ (oneNs ≤ u ∧ u ≤ 1000 * oneNs ∨ -(1000 * oneNs) ≤ u ∧ u ≤ -oneNs → d.tb.pairSlew = some u ∧ d.tb.pairStep = s.dev.tb.pairStep)
        ∧ (-oneNs < u ∧ u < oneNs → d.tb.pairSlew = none ∧ d.tb.phase = 0)
        ∧ (∀ a, a ≠ TB_PAIR_OFS → a ≠ TB_INC → rd d a = rd s.dev a) ∧ d.sig = s.dev.sig)) ∧
    -- beat
    (∀ (h : TwHead) (b : TwBeat), h.lane < 2 → Arrives s.dev h →
      exec (.beatReceive ⟨h, b⟩) s = .next { s with dev := setTw (noted s.dev h) { (noted s.dev h).tw with heldP := b.held, releaseP := b.release, failure := false, handover := if b.handover.isSome then b.handover else s.dev.tw.handover } }) ∧
    -- spoilt
    (∀ (h : TwHead) (n tt first seg k bank typ : Nat) (vals : List (W32 × Bool)) (ws : List (Nat × W32)) (bs : List W8) (ok : Bool) (trim : W32) (b : TwBeat) (p : Page) (c : Instr), (h.lane < 2 ∧ seg < 16 ∧ k < 3 ∧ pageOk p = true ∧ bank < 2 ∧ typ < 8) → Discarded s.dev h →
      c ∈ [.inputFrameReceive ⟨h, n⟩ tt vals, .writesFrameReceive ⟨h, n⟩ first ws, .plialeFrameReceive ⟨h, n⟩ seg k bs, .digestReceive ⟨h, n⟩ tt, .ctrlFrameReceive ⟨h, k⟩, .imageFrameReceive ⟨h, p⟩ bank typ bs, .baseFrameReceive ⟨h, n⟩ ok, .timeFrameReceive ⟨h, n, trim⟩ tt first, .beatReceive ⟨h, b⟩] →
      exec c s = .next { s with dev := bump s.dev TW_LANE_ERR_CNT })

/-- Twin lanes, Lantern, wires and catch-up (R261, R262, R264, R267, R274, R275, R277, R279, R280, R284, R285, 10 Twin
operation). A lane trains; its exchange makes it trusted with fresh counters, shows equal straps, or fails, is counted and
tried again; a lane lost is neither trained nor trusted. A Lantern failure starts a standby's witness check with fresh
counts. Two decoded frames name the holder; a wire fails and is healthy again, each recorded; channels that disagree release
the train and send the device to Held, from Boot at its end. A missed forwarded frame is counted, as the next BP's INPUT frame
while that has not come (which frame: the model's choice, log 44), and nothing else changes. CATCHUP ends in CONFIRM or fails the
sync. -/
def Obligations.TwinLanesAreTrustedAndLost : Prop :=
  ∀ s : State,
    -- trained
    (∀ (n : Nat), n < 2 → (twRuns s.dev = true ∧ laneTr s.dev n = false) →
      Completes (.laneTrained n) s (fun d => laneTr d n = true ∧ laneUp d n = false ∧ laneRetry d n = false ∧ d = setTw s.dev d.tw
        ∧ laneTr d (1 - n) = laneTr s.dev (1 - n) ∧ laneUp d (1 - n) = laneUp s.dev (1 - n))) ∧
    -- trusted
    (∀ (n : Nat), n < 2 → (twRuns s.dev = true ∧ laneTr s.dev n = true ∧ laneUp s.dev n = false ∧ s.dev.tw.strapErr = false) →
      Completes (.laneAuthDone n true false) s (fun d => laneTr d n = true ∧ laneUp d n = true ∧ laneRetry d n = false ∧ (if n = 0 then d.tw.ctr0 else d.tw.ctr1) = none
        ∧ laneUp d (1 - n) = laneUp s.dev (1 - n) ∧ d.tw.phase = (if (s.dev.role = .standby ∧ s.dev.tw.orphan = true) ∨ (s.dev.role = .syncing ∧ s.dev.tw.withdrawn = true) then 1 else s.dev.tw.phase)
        ∧ rd d TW_AUTH_FAIL_CNT = rd s.dev TW_AUTH_FAIL_CNT ∧ d.role = s.dev.role ∧ d.sig = s.dev.sig)) ∧
    -- strap
    (∀ (n : Nat) (ok : Bool), n < 2 → (twRuns s.dev = true ∧ laneTr s.dev n = true ∧ laneUp s.dev n = false) →
      Completes (.laneAuthDone n ok true) s (fun d => laneUp d n = false ∧ laneRetry d n = false ∧ d.tw.strapErr = true ∧ d = setTw s.dev d.tw)) ∧
    -- authFailed
    (∀ (n : Nat), n < 2 → (twRuns s.dev = true ∧ laneTr s.dev n = true ∧ laneUp s.dev n = false ∧ s.dev.tw.strapErr = false) →
      Completes (.laneAuthDone n false false) s (fun d => laneTr d n = true ∧ laneUp d n = false ∧ laneRetry d n = true ∧ rd d TW_AUTH_FAIL_CNT = rd s.dev TW_AUTH_FAIL_CNT + 1
        ∧ laneUp d (1 - n) = laneUp s.dev (1 - n) ∧ d.role = s.dev.role ∧ d.sig = s.dev.sig)) ∧
    -- retried
    (∀ (n : Nat), (n < 2 ∧ laneRetry s.dev n = true) →
      Completes (.authRetry n) s (fun d => laneTr d n = laneTr s.dev n ∧ laneUp d n = false ∧ laneRetry d n = false ∧ laneUp d (1 - n) = laneUp s.dev (1 - n) ∧ d = setTw s.dev d.tw)) ∧
    -- down
    (∀ (n : Nat), n < 2 → (twRuns s.dev = true ∧ (laneTr s.dev n = true ∨ laneUp s.dev n = true)) →
      Completes (.twinLaneDown n) s (fun d => laneTr d n = false ∧ laneUp d n = false ∧ laneRetry d n = false ∧ laneTr d (1 - n) = laneTr s.dev (1 - n)
        ∧ laneUp d (1 - n) = laneUp s.dev (1 - n) ∧ d.role = s.dev.role ∧ d.sig = s.dev.sig ∧ ∀ a, a < dbBase → rd d a = rd s.dev a)) ∧
    -- lantern
    ((twRuns s.dev = true ∧ s.dev.tw.failure = false) →
      Completes .lanternFailure s (fun d => d.tw.failure = true ∧ d.regs = s.dev.regs ∧ d.role = s.dev.role ∧ d.sig = s.dev.sig
        ∧ (if s.dev.role = .standby ∧ s.dev.tw.holder.isSome = true ∧ s.dev.tw.witness = none then d.tw.witness = some (bp s.dev) ∧ ∀ e ∈ d.pls, e.2.wr = 0 ∧ e.2.wp = 0
          else d.tw.witness = s.dev.tw.witness ∧ d.pls = s.dev.pls))) ∧
    -- holder
    (∀ (code : Nat), code < 65536 → (pairEn s.dev = true ∧ s.dev.tw.hold = false) →
      exec (.holderDecoded code) s = .next { s with dev := setTw s.dev { s.dev.tw with holder := some code, idle := false, orphan := s.dev.tw.orphan && s.dev.role == .standby } }) ∧
    -- wireFails
    (∀ (w : Nat), w < 2 → (pairEn s.dev = true ∧ wireOk s.dev w = true) →
      Completes (.guylineWireFail w) s (fun d => wireOk d w = false ∧ wireOk d (1 - w) = wireOk s.dev (1 - w) ∧ rd d GL_WIRE_CNT = rd s.dev GL_WIRE_CNT + 1
        ∧ d.role = s.dev.role ∧ d.sig = s.dev.sig ∧ ∀ a, a ≠ GL_WIRE_CNT → a < dbBase → rd d a = rd s.dev a)) ∧
    -- wireHealthy
    (∀ (w : Nat), w < 2 → (pairEn s.dev = true ∧ wireOk s.dev w = false) →
      Completes (.guylineWireHealthy w) s (fun d => wireOk d w = true ∧ wireOk d (1 - w) = wireOk s.dev (1 - w) ∧ d.role = s.dev.role ∧ d.sig = s.dev.sig
        ∧ ∀ a, a < dbBase → rd d a = rd s.dev a)) ∧
    -- disagree
    (∀ (a b : Bool), (pairEn s.dev = true ∧ a ≠ b ∧ s.dev.power.phase = .on) →
      Completes (.authDisagree a b) s (fun d => d.power = { s.dev.power with phase := .held } ∧ d.tw.hold = false ∧ d.tw.authA = a ∧ d.tw.authB = b
        ∧ rd d GL_DISAGREE_CNT = rd s.dev GL_DISAGREE_CNT + 1 ∧ d.role = .syncing)) ∧
    -- disagreeBoot
    (∀ (a b : Bool), (pairEn s.dev = true ∧ a ≠ b ∧ s.dev.power.phase = .boot) →
      Completes (.authDisagree a b) s (fun d => d.power.phase = .boot ∧ d.power.heldPending.length = s.dev.power.heldPending.length + 1 ∧ d.tw.hold = false ∧ d.tw.authA = a ∧ d.tw.authB = b
        ∧ rd d GL_DISAGREE_CNT = rd s.dev GL_DISAGREE_CNT + 1 ∧ d.role = s.dev.role)) ∧
    -- missInput
    (s.dev.role = .standby → (inputOf s.dev (bp s.dev + 1) = none ∧ s.dev.tw.counted ≠ bp s.dev + 1) →
      Completes .forwardMiss s (fun d => rd d TW_FWD_MISS_CNT = rd s.dev TW_FWD_MISS_CNT + 1 ∧ d.tw = { s.dev.tw with counted := bp s.dev + 1 }
        ∧ (∀ a, a ≠ TW_FWD_MISS_CNT → rd d a = rd s.dev a) ∧ d.sig = s.dev.sig)) ∧
    -- missReply
    (s.dev.role = .standby → ((inputOf s.dev (bp s.dev + 1)).isSome ∨ s.dev.tw.counted = bp s.dev + 1) →
      Completes .forwardMiss s (fun d => rd d TW_FWD_MISS_CNT = rd s.dev TW_FWD_MISS_CNT + 1 ∧ d.tw = s.dev.tw
        ∧ (∀ a, a ≠ TW_FWD_MISS_CNT → rd d a = rd s.dev a) ∧ d.sig = s.dev.sig)) ∧
    -- joined
    ((s.dev.role = .syncing ∧ s.dev.tw.phase = 3 ∧ ∀ f ∈ s.dev.tw.frames, frameBp f ≤ bp s.dev) →
      exec .catchupJoined s = .next { s with dev := setTw s.dev { s.dev.tw with phase := 4 } }) ∧
    -- late
    ((s.dev.role = .syncing ∧ s.dev.tw.phase = 3) →
      Completes .catchupTimeout s (fun d => d.tw = { s.dev.tw with fails := s.dev.tw.fails + 1, halt := s.dev.tw.halt || decide (3 ≤ s.dev.tw.fails + 1), phase := 2, baseOk := false, chunks := [], chunkFails := [], frames := [] }
        ∧ rd d TW_SYNC_FAIL_CNT = rd s.dev TW_SYNC_FAIL_CNT + 1 ∧ d.role = s.dev.role ∧ d.sig = s.dev.sig))

/-- Guyline and twin commands: seizure, holder, test, witness, hand-over (R273, R274, R276, R278, R279, R285, R286, R287,
R288, R289, 10 Twin operation). A module that may seize does; a seizure won starts its train and counts, one lost counts; a
line lost leaves no holder, and a standby with a failed wire an orphan. FORCE_SEIZE needs its key, a role and a free line,
and is refused with GL_FORCE_STATE; RETEST leaves the health it finds. A witness check ends ORPHAN or WITHDRAWN. RELEASE,
RESYNC, CLEAR_HALT and RETURN_NOW act in their roles and are refused with TW_CMD_STATE in others; the hold-off ends; at the
handover BP the authority becomes STANDBY and the preferred unit seizes; a handover that fails is abandoned. -/
def Obligations.GuylineSeizesReleasesAndHandsOver : Prop :=
  ∀ s : State,
    -- seize
    (maySeize s.dev = true → exec .seize s = .next { s with dev := setTw s.dev { s.dev.tw with seizing := true, lostSz := false } }) ∧
    -- mayNotSeize
    (maySeize s.dev = false → exec .seize s = .next s) ∧
    -- won
    (s.dev.tw.seizing = true →
      Completes .seizureWon s (fun d => d.tw = { s.dev.tw with seizing := false, hold := true, won := true, lostSz := false, idle := false, holder := none, authA := true, authB := true }
        ∧ rd d GL_SEIZE_CNT = rd s.dev GL_SEIZE_CNT + 1 ∧ (∀ a, a ≠ GL_SEIZE_CNT → rd d a = rd s.dev a) ∧ d.role = s.dev.role ∧ d.sig = s.dev.sig)) ∧
    -- lost
    (s.dev.tw.seizing = true →
      Completes .seizureLost s (fun d => d.tw = { s.dev.tw with seizing := false, lostSz := true } ∧ rd d GL_LOSS_CNT = rd s.dev GL_LOSS_CNT + 1
        ∧ (∀ a, a ≠ GL_LOSS_CNT → rd d a = rd s.dev a) ∧ d.role = s.dev.role ∧ d.sig = s.dev.sig)) ∧
    -- holderLost
    ((pairEn s.dev = true ∧ (s.dev.tw.holder.isSome = true ∨ s.dev.tw.hold = true)) →
      Completes .holderLost s (fun d => d.tw = { s.dev.tw with holder := none, idle := true, hold := false, won := false, orphan := s.dev.tw.orphan || (s.dev.role == .standby && !integOk s.dev) }
        ∧ d.role = s.dev.role ∧ d.sig = s.dev.sig ∧ ∀ a, a < dbBase → rd d a = rd s.dev a)) ∧
    -- force
    (∀ (key : Nat), (key = 0x5EE5 ∧ admits s.dev .gl 0x108 = true) →
      ((s.dev.role = .standby ∨ s.dev.role = .syncing) ∧ s.dev.power.phase ≠ .held ∧ s.dev.tw.holder = none ∧ pairEn s.dev = true) →
      Completes (.glForceSeize key) s (fun d => d.tw = { s.dev.tw with seizing := true, lostSz := false } ∧ d.role = s.dev.role ∧ d.sig = s.dev.sig)) ∧
    -- forceRefused
    (∀ (key : Nat), (key < 65536 ∧ admits s.dev .gl 0x108 = true) →
      ¬(key = 0x5EE5 ∧ (s.dev.role = .standby ∨ s.dev.role = .syncing) ∧ s.dev.power.phase ≠ .held ∧ s.dev.tw.holder = none ∧ pairEn s.dev = true) →
      Completes (.glForceSeize key) s (fun d => rdN d (glBase + ERR_CODE) % 65536 = 0x0A11 ∧ rd d (glBase + ERR_ADDR) = w32 GL_CMD ∧ d.tw = s.dev.tw ∧ d.role = s.dev.role)) ∧
    -- retest
    (∀ (a b : Bool), (admits s.dev .gl 0x108 = true ∧ pairEn s.dev = true) →
      Completes (.glRetest a b) s (fun d => d.tw.wireA = a ∧ d.tw.wireB = b ∧ d.role = s.dev.role ∧ d.sig = s.dev.sig)) ∧
    -- witnessEnds
    (∀ (b r p : Nat), (s.dev.tw.witness = some b ∧ r = (s.dev.pls.map (fun e => e.2.wr)).foldl (· + ·) 0 ∧ p = (s.dev.pls.map (fun e => e.2.wp)).foldl (· + ·) 0) →
      Completes .witnessCheckEnd s (fun d => d.tw = { s.dev.tw with witness := none, orphan := s.dev.tw.orphan || decide (0 < r ∧ p = 0), withdrawn := s.dev.tw.withdrawn || !decide (0 < r ∧ p = 0) }
        ∧ d.role = s.dev.role ∧ d.sig = s.dev.sig ∧ ∀ a, a < dbBase → rd d a = rd s.dev a)) ∧
    -- release
    ((admits s.dev .tw 0x104 = true ∧ s.dev.role = .authority) →
      Completes .twRelease s (fun d => d.tw = { s.dev.tw with asked := true, sent := if pairEn s.dev && twPaired s.dev then s.dev.tw.sent ++ [.ctrl 2] else s.dev.tw.sent } ∧ d.role = .authority ∧ d.sig = s.dev.sig)) ∧
    -- resync
    ((admits s.dev .tw 0x104 = true ∧ (s.dev.role = .standby ∨ (s.dev.role = .syncing ∧ s.dev.power.phase = .on))) →
      Completes .twResync s (fun d => d.tw = { s.dev.tw with halt := false, fails := 0, phase := 1, baseOk := false, chunks := [], chunkFails := [], frames := [], sent := if pairEn s.dev && twPaired s.dev then s.dev.tw.sent ++ [.ctrl 0] else s.dev.tw.sent }
        ∧ d.role = s.dev.role ∧ d.sig = s.dev.sig)) ∧
    -- clearHalt
    ((admits s.dev .tw 0x104 = true ∧ s.dev.role = .syncing) →
      Completes .twClearHalt s (fun d => d.tw = { s.dev.tw with halt := false, fails := 0 } ∧ d.role = .syncing ∧ d.sig = s.dev.sig)) ∧
    -- returnNow
    ((admits s.dev .tw 0x104 = true ∧ s.dev.role = .standby ∧ pref s.dev = true) →
      Completes .twReturnNow s (fun d => d.tw.asked = (s.dev.tw.asked || mayReturn s.dev) ∧ d.tw.askNow = !mayReturn s.dev ∧ d.role = .standby ∧ d.sig = s.dev.sig)) ∧
    -- wrongRole
    (∀ (c : Instr), admits s.dev .tw 0x104 = true →
      ((c = .twRelease ∧ s.dev.role ≠ .authority) ∨ (c = .twResync ∧ ¬(s.dev.role = .standby ∨ (s.dev.role = .syncing ∧ s.dev.power.phase = .on))) ∨ (c = .twClearHalt ∧ s.dev.role ≠ .syncing) ∨ (c = .twReturnNow ∧ ¬(s.dev.role = .standby ∧ pref s.dev = true))) →
      Completes c s (fun d => rdN d (twBase + ERR_CODE) % 65536 = 0x0A01 ∧ rd d (twBase + ERR_ADDR) = w32 TW_CMD ∧ d.tw = s.dev.tw ∧ d.role = s.dev.role)) ∧
    -- holdOff
    ((s.dev.role = .standby ∧ rdN s.dev TW_HOLDOFF * 100000 ≤ bp s.dev - s.dev.tw.standbyAt) →
      exec .holdoffExpired s = .next { s with dev := setTw s.dev { s.dev.tw with holdDone := true } }) ∧
    -- handover
    ((s.dev.tw.handover = some (bp s.dev + 1) ∧ s.dev.role = .authority) →
      Completes .handoverStart s (fun d => d.role = .standby ∧ d.tw = { s.dev.tw with hold := false, idle := true, authA := false, authB := false, standbyAt := bp s.dev + 1, holdDone := false, asked := false }
        ∧ rd d TW_ROLE_CNT = rd s.dev TW_ROLE_CNT + 1 ∧ d.sig = s.dev.sig)) ∧
    -- handoverPreferred
    ((s.dev.tw.handover = some (bp s.dev + 1) ∧ s.dev.role = .standby ∧ pref s.dev = true ∧ s.dev.tw.hold = false) →
      exec .handoverStart s = .next { s with dev := setTw s.dev { s.dev.tw with seizing := true, holder := none, idle := true } }) ∧
    -- abandoned
    ((s.dev.tw.handover = some (bp s.dev) ∧ s.dev.role = .standby ∧ s.dev.tw.hold = false ∧ s.dev.tw.holder = none) →
      Completes .handoverTimeout s (fun d => d.tw = (if pref s.dev then { s.dev.tw with handover := none, asked := false, seizing := false, standbyAt := bp s.dev, holdDone := false } else { s.dev.tw with handover := none, asked := false, seizing := true })
        ∧ d.role = .standby ∧ d.sig = s.dev.sig ∧ ∀ a, a < dbBase → rd d a = rd s.dev a))

/-- BASE_PERIOD: the number of the base period, TT, and the commits at C1 and C2 (R25, R27, R32, R86, R308, R463, 01 Machine
structure). With no block at work, BASE_PERIOD takes TT from TB_NS at t0 and adds one to BP_CNT; the staged field inputs
become visible at C1 and the staged results and the host's writes at C2, in that order, and nothing stays staged. Without its
clock, nothing happens. -/
def Obligations.BasePeriodMovesOnAndCommits : Prop :=
  ∀ s : State,
    -- runs
    (∀ (env : BpEnv), (quiet s.dev = true ∧ env.enc = [] ∧ env.tiles = [] ∧ env.lanes = []) →
      Completes (.basePeriod env) s (fun d => bp d = (bp s.dev + 1) % 2 ^ 64 ∧ d.tt = tbNs s.dev ∧ d.ttFrac = rdN s.dev TB_FRAC
        ∧ d.sig = (commit2 (commit1 s.dev)).sig ∧ d.attr = (commit2 (commit1 s.dev)).attr
        ∧ rd d DEV_SIG_REJ_CNT = rd (commit2 (commit1 s.dev)) DEV_SIG_REJ_CNT ∧ rd d DEV_SIG_REJ_LAST = rd (commit2 (commit1 s.dev)) DEV_SIG_REJ_LAST
        ∧ d.stage1 = [] ∧ d.stage2 = [] ∧ d.hostq = [] ∧ d.oh.holding = (s.dev.oh.holding && s.dev.power.firstC2) ∧ d.role = .solo)) ∧
    -- stands
    (∀ (env : BpEnv), clocked s.dev = false → exec (.basePeriod env) s = .next s)

/-- Resets: warm, cold, brown-out and the return of VIN (R290, R291, R292, R297, R307, R308, R438, 11 Start-up and resume).
Each source of a warm reset makes a boot with blank blocks, with the safety channels, encoders and the commits kept, and
holds the outputs; each source of a cold reset a cold boot that keeps what MRAM and the keep-alive domain hold; a reset
command needs its key and is refused with 0x1411 otherwise. VIN's return counts a power cycle and begins a boot. -/
def Obligations.ResetsBlankTheModule : Prop :=
  ∀ s : State,
    -- warm
    (∀ (c : Instr) (src : Nat), ((c, src) ∈ [(.warmReset 1, 1), (.warmReset 2, 2), (.warmReset 3, 3), (.warmReset 5, 5), (.supervisorWatchdog, 2)] ∧ resettable s.dev = true) →
      Completes c s (WarmlyReset src s.dev)) ∧
    -- brownout
    ((s.dev.power.fail = .done ∧ s.dev.power.pres = true ∧ resettable s.dev = true) → Completes .brownout s (WarmlyReset 5 s.dev)) ∧
    -- noBrownout
    (¬(s.dev.power.fail = .done ∧ s.dev.power.pres = true) → exec .brownout s = .next s) ∧
    -- warmCommand
    ((admits s.dev .pwr 0x104 = true ∧ resettable s.dev = true) → Completes (.pwrWarm 0xC01D) s (WarmlyReset 1 s.dev)) ∧
    -- cold
    (∀ (c : Instr) (src : Nat), ((c, src) ∈ [(.coldReset 4, 4), (.coldReset 6, 6), (.servicePortReset, 6)] ∧ resettable s.dev = true) → Completes c s (ColdlyReset src s.dev)) ∧
    -- coldCommand
    ((admits s.dev .pwr 0x104 = true ∧ resettable s.dev = true) → Completes (.pwrCold 0xC01D) s (ColdlyReset 4 s.dev)) ∧
    -- wrongKey
    (∀ (c : Instr) (key : Nat), (key < 65536 ∧ key ≠ 0xC01D ∧ (c = .pwrWarm key ∨ c = .pwrCold key) ∧ admits s.dev .pwr 0x104 = true) →
      Completes c s (Refused .pwr 0x1411 PWR_CMD s.dev)) ∧
    -- unpowered
    (∀ (c : Instr), (c ∈ [.warmReset 1, .warmReset 2, .warmReset 3, .warmReset 5, .supervisorWatchdog, .coldReset 4, .coldReset 6, .servicePortReset] ∧ resettable s.dev = false) →
      exec c s = .next s) ∧
    -- vinReturns
    (∀ (ka : Nat), (powered s.dev = false ∧ s.dev.power.pres = true) →
      Completes (.vinRise ka) s (fun d => d.power = { s.dev.power with phase := .boot, kaLost := decide (s.dev.power.phase = .off), fail := .no }
        ∧ rd64 d PWR_KA_RTC = (if s.dev.power.phase = .off then 0 else (rd64 s.dev PWR_KA_RTC + ka) % 2 ^ 64)
        ∧ pcc d = ((if s.dev.power.phase = .off then s.dev.power.kaPcc else pcc s.dev) + 1) % 2 ^ 24
        ∧ d.role = s.dev.role ∧ d.sig = s.dev.sig ∧ d.jn = s.dev.jn)) ∧
    -- noReturn
    (∀ (ka : Nat), ¬(powered s.dev = false ∧ s.dev.power.pres = true) → exec (.vinRise ka) s = .next s)

/-- Power failure, the final commit, hold-up energy and the supplies (R291, R304, R305, R306, R307, R308, R437, R439, R442,
R453, Table 18-4). A power failure is declared in Ready and Run for the final boundary, elsewhere without a commit; the final
commit copies the keep-alive counts to MRAM and closes the journal; the end of the hold-up energy leaves Keep-alive.
HOLDUP_OK follows the measurement, with a record where it clears in Run; a hold that expires gives every output its safe
value, counted. VIN_LOW and the field supply show in their registers, the field supply's fall with a record. -/
def Obligations.PowerFailsAndHoldUpCarries : Prop :=
  ∀ s : State,
    -- declared
    ((powered s.dev = true ∧ s.dev.power.fail = .no ∧ s.dev.power.phase = .on) →
      exec .powerFailure s = .next { s with dev := setPow (wrBit s.dev HLTH_INSERT 16 false) { s.dev.power with fail := .declared } }) ∧
    -- noCommit
    ((powered s.dev = true ∧ s.dev.power.fail = .no ∧ s.dev.power.phase ≠ .on) →
      exec .powerFailure s = .next { s with dev := setPow (wrBit s.dev HLTH_INSERT 16 false) { s.dev.power with fail := .done, heldPending := [] } }) ∧
    -- declaredOnce
    ((powered s.dev = false ∨ s.dev.power.fail ≠ .no) → exec .powerFailure s = .next s) ∧
    -- finalCommit
    (s.dev.power.fail = .draining →
      Completes .finalCommitDone s (fun d => d.power = { s.dev.power with fail := .done, kaPcc := pcc s.dev, kaOpt := optMs s.dev, kaIns := fld (rd s.dev HLTH_INSERT) 15 0 }
        ∧ d.jn.draining = none ∧ d.role = s.dev.role ∧ d.sig = s.dev.sig
        ∧ ∀ c, s.dev.jn.draining = some c → d.jn.top = c.number ∧ (∃ n, d.jn.commits.head? = some { c with rows := n })
          ∧ rd64 d SB_NUMBER = c.number % 2 ^ 64 ∧ rd64 d SB_BOUNDARY = c.boundary % 2 ^ 64 ∧ rd64 d SB_DIGEST = c.digest % 2 ^ 64)) ∧
    -- noFinalCommit
    (s.dev.power.fail ≠ .draining → exec .finalCommitDone s = .next s) ∧
    -- spent
    ((powered s.dev = true ∧ s.dev.power.fail ≠ .no) → Completes .holdupSpent s (PowerLost s.dev)) ∧
    -- notSpent
    (¬(powered s.dev = true ∧ s.dev.power.fail ≠ .no) → exec .holdupSpent s = .next s) ∧
    -- okSet
    (powered s.dev = true → exec .holdupOkSet s = .next { s with dev := { s.dev with power := { s.dev.power with holdupOk := true } } }) ∧
    -- low
    (∀ (mj : Nat), (s.dev.power.holdupOk = true ∧ mj = fld (rd s.dev PWR_HOLDUP) 15 0) →
      Completes .holdupLow s (fun d => d.power = { s.dev.power with holdupOk := false } ∧ (pwrState s.dev ≠ 3 → d = { s.dev with power := { s.dev.power with holdupOk := false } })
        ∧ (pwrState s.dev = 3 → d = report { s.dev with power := { s.dev.power with holdupOk := false } } 0x0006 2 [w32 mj])
        ∧ Recorded { s.dev with power := { s.dev.power with holdupOk := false } } d)) ∧
    -- alreadyLow
    (s.dev.power.holdupOk = false → exec .holdupLow s = .next s) ∧
    -- measure
    (∀ (esr cap energy : Nat), powered s.dev = true →
      Completes (.holdupMeasure esr cap energy) s (fun d => rd d HLTH_ESR = w32 (esr % 65536 + cap % 65536 * 65536) ∧ rd d PWR_HOLDUP = w32 (energy % 65536)
        ∧ d.power = { s.dev.power with holdupOk := decide (150 ≤ energy) } ∧ d.role = s.dev.role ∧ d.sig = s.dev.sig
        ∧ ∀ a, a < dbBase → a ≠ HLTH_ESR → a ≠ PWR_HOLDUP → rd d a = rd s.dev a)) ∧
    -- holdExpires
    (s.dev.oh.holding = true →
      Completes .outputHoldExpired s (fun d => d.oh = { s.dev.oh with holding := false, expired := true, ao := s.dev.oh.aoSafe, dio := s.dev.oh.dioSafe }
        ∧ rd d OH_EXP_CNT = rd s.dev OH_EXP_CNT + 1 ∧ d.role = s.dev.role ∧ d.sig = s.dev.sig ∧ d.power = s.dev.power
        ∧ ∀ a, a < dbBase → a ≠ OH_EXP_CNT → rd d a = rd s.dev a)) ∧
    -- noHold
    (s.dev.oh.holding = false → exec .outputHoldExpired s = .next s) ∧
    -- vinLow
    (∀ (low : Bool), powered s.dev = true → exec (.vinLow low) s = .next { s with dev := { s.dev with power := { s.dev.power with vinLow := low } } }) ∧
    -- fieldLow
    (∀ (mv : Nat), (powered s.dev = true ∧ mv < 17000 ∧ s.dev.power.vfldLow = false) →
      Completes (.vfldLow mv) s (fun d => d.power = { s.dev.power with vfldLow := true } ∧ fld (rd d PWR_VIN) 31 16 = mv ∧ fld (rd d PWR_VIN) 15 0 = fld (rd s.dev PWR_VIN) 15 0
        ∧ Recorded (wrFld { s.dev with power := { s.dev.power with vfldLow := true } } PWR_VIN 31 16 mv) d
        ∧ d.dios = s.dev.dios ∧ d.role = s.dev.role ∧ d.sig = s.dev.sig)) ∧
    -- fieldBack
    (∀ (mv : Nat), (19200 ≤ mv ∧ s.dev.power.vfldLow = true) →
      exec (.vfldRestored mv) s = .next { s with dev := wrFld { s.dev with power := { s.dev.power with vfldLow := false } } PWR_VIN 31 16 mv }) ∧
    -- fieldStays
    (∀ (mv : Nat), ((¬(powered s.dev = true ∧ mv < 17000 ∧ s.dev.power.vfldLow = false)) ∧ ¬(19200 ≤ mv ∧ s.dev.power.vfldLow = true)) →
      exec (.vfldLow mv) s = .next s ∧ exec (.vfldRestored mv) s = .next s) ∧
    -- unpowered
    (∀ (c : Instr) (esr cap energy : Nat) (low : Bool), (powered s.dev = false ∧ c ∈ [.holdupOkSet, .holdupMeasure esr cap energy, .vinLow low, .powerFailure, .holdupSpent]) → exec c s = .next s)

/-- The journal's epochs and commits, firmware installs, the keep-alive store and hot plug (R295, R298, R300, R302, R305,
R317, R438, R439, R440, R441, 11 Start-up and resume). A due epoch takes its snapshot with the next commit number, or is
skipped and counted while a drain runs; a drain's end makes the newest commit and shows it. FORCE_COLD and CANCEL_COLD set
and clear the request. An install ends with its result, and a good container lies in the other bank for the next start. The
keep-alive counts are copied while the module is powered, the store's loss is noted, an insertion is counted and a removal
latched. The layout of rows and commits is the model's choice (log entry 21). -/
def Obligations.JournalCommitsAndFirmwareInstalls : Prop :=
  ∀ s : State,
    -- epoch
    (∀ (n : Nat), (journalRuns s.dev = true ∧ s.dev.jn.due = true ∧ s.dev.jn.draining = none ∧ n = s.dev.jn.top + 1) →
      Completes .journalEpoch s (fun d => d.jn = { s.dev.jn with due := false, shadow := none, draining := some { snapshot s.dev (boundarySnap s.dev) false false with number := n }, tagTop := max s.dev.jn.tagTop n }
        ∧ d.regs = s.dev.regs ∧ d.sig = s.dev.sig ∧ d.role = s.dev.role ∧ d.mram = s.dev.mram)) ∧
    -- epochSkipped
    ((journalRuns s.dev = true ∧ s.dev.jn.due = true ∧ s.dev.jn.draining ≠ none) →
      Completes .journalEpoch s (fun d => d.jn = { s.dev.jn with due := false, shadow := none } ∧ rd d SB_SKIP_CNT = rd s.dev SB_SKIP_CNT + 1
        ∧ (∀ a, a ≠ SB_SKIP_CNT → rd d a = rd s.dev a) ∧ d.sig = s.dev.sig ∧ d.role = s.dev.role)) ∧
    -- noEpoch
    (¬(journalRuns s.dev = true ∧ s.dev.jn.due = true) → exec .journalEpoch s = .next s) ∧
    -- commit
    (∀ (c : Commit), (s.dev.jn.draining = some c ∧ c.final = false) →
      Completes .journalCommit s (fun d => d.jn.draining = none ∧ d.jn.top = c.number ∧ d.jn.starts = 0 ∧ (∃ n, d.jn.commits = { c with rows := n } :: (if c.baseline then [] else s.dev.jn.commits.take 1))
        ∧ rd64 d SB_NUMBER = c.number % 2 ^ 64 ∧ rd64 d SB_BOUNDARY = c.boundary % 2 ^ 64 ∧ rd64 d SB_DIGEST = c.digest % 2 ^ 64 ∧ d.sig = s.dev.sig ∧ d.role = s.dev.role)) ∧
    -- noCommit
    ((∀ c, s.dev.jn.draining = some c → c.final = true) → exec .journalCommit s = .next s) ∧
    -- forceCold
    (admits s.dev .sb 0x108 = true → exec .forceCold s = .next { s with dev := setJn (issued s.dev .sb 0x108 1) { s.dev.jn with cold := true } }) ∧
    -- cancelCold
    (admits s.dev .sb 0x108 = true → exec .cancelCold s = .next { s with dev := setJn (issued s.dev .sb 0x108 2) { s.dev.jn with cold := false } }) ∧
    -- install
    ((admits s.dev .pwr 0x104 = true ∧ powered s.dev = true ∧ s.dev.power.installing = false) →
      exec .pwrInstall s = .next { s with dev := setPow (issued s.dev .pwr 0x104 3) { s.dev.power with installing := true } }) ∧
    -- installBusy
    ((admits s.dev .pwr 0x104 = true ∧ powered s.dev = true ∧ s.dev.power.installing = true) → Completes .pwrInstall s (Refused .pwr 0x1412 PWR_CMD s.dev)) ∧
    -- installEnds
    (∀ (bs : List W8) (ok : Bool) (n b c : Nat), (s.dev.power.installing = true ∧ n = rdN s.dev PWR_INST_LEN ∧ b = 1 - s.dev.power.bank) →
      c = (if ok && decide (rd64 s.dev PWR_INST_ADDR + n ≤ 2 ^ 64) then fwCheck s.vault.vendorKid bs n else 1) →
      Completes (.installDone bs ok) s (fun d => rd d PWR_INST_RES = w32 c ∧ rd d PWR_INST_CNT = rd s.dev PWR_INST_CNT + 1 ∧ d.sig = s.dev.sig ∧ d.role = s.dev.role
        ∧ (c = 0 → d.power = { s.dev.power with installing := false, newBank := true, badBanks := s.dev.power.badBanks.filter (· != b), fw := tset none s.dev.power.fw b (some ((bs.drop 0x20).take 32, num bs 0x0C 4)) }
          ∧ d.mram = mput s.dev.mram (bankAt b) bs)
        ∧ (c ≠ 0 → d.power = { s.dev.power with installing := false } ∧ d.mram = s.dev.mram ∧ d.dir = s.dev.dir)
        ∧ ∀ a, a ≠ PWR_INST_RES → a ≠ PWR_INST_CNT → rd d a = rd s.dev a)) ∧
    -- noInstall
    (∀ (bs : List W8) (ok : Bool), s.dev.power.installing = false → exec (.installDone bs ok) s = .next s) ∧
    -- persist
    (powered s.dev = true →
      exec .keepalivePersist s = .next { s with dev := setPow s.dev { s.dev.power with kaPcc := pcc s.dev, kaOpt := optMs s.dev, kaIns := fld (rd s.dev HLTH_INSERT) 15 0 } }) ∧
    -- storeLost
    (s.dev.power.phase = .keepAlive → exec .kaStoreLost s = .next { s with dev := setPow s.dev { s.dev.power with phase := .off } }) ∧
    -- storeStands
    (s.dev.power.phase ≠ .keepAlive → exec .kaStoreLost s = .next s) ∧
    -- inserted
    (s.dev.power.pres = false →
      Completes .insertion s (fun d => d.power = { s.dev.power with pres := true } ∧ fld (rd d HLTH_INSERT) 15 0 = (fld (rd s.dev HLTH_INSERT) 15 0 + 1) % 65536
        ∧ (∀ a, a ≠ HLTH_INSERT → rd d a = rd s.dev a) ∧ d.sig = s.dev.sig ∧ d.role = s.dev.role)) ∧
    -- removed
    ((s.dev.power.pres = true ∧ powered s.dev = true ∧ s.dev.power.fail = .no) →
      Completes .removal s (fun d => d.power.pres = false ∧ d.power.fail = (if s.dev.power.phase = .on then .declared else .done) ∧ rdBit d HLTH_INSERT 16 = true
        ∧ fld (rd d HLTH_INSERT) 15 0 = fld (rd s.dev HLTH_INSERT) 15 0 ∧ (∀ a, a ≠ HLTH_INSERT → rd d a = rd s.dev a) ∧ d.sig = s.dev.sig ∧ d.role = s.dev.role))

/-- Health samples, end-of-life indicators, the wear ledger and the trim's ramp (R30, R442, R443, R444, R445, R446, R447,
R467, 18 Identity, power states and wear). A sample shows temperatures and supplies; three samples at the critical
temperature hold the device. An hourly update shows the indicators and the nearest prediction. The ledger's entries go to
MRAM; SET gives an entry its threshold and source, CLEAR_COUNT zeroes its count, and OVER follows count and threshold; a
selection beyond the ledger is refused with 0x1421. The trim arrives within its last unit. The codes and bounds of the free
predictions are the model's (log entries 9 and 12). -/
def Obligations.HealthAndWearAreKept : Prop :=
  ∀ s : State,
    -- sample
    (∀ (smp : HSample), (powered s.dev = true ∧ ∀ r, r < 4 → nth smp.tj r 0 < 1200) →
      Completes (.healthSample smp) s (fun d => rd d HLTH_TCASE = w32 (fieldI 16 smp.tcase) ∧ (∀ r, r < 4 → rd d (HLTH_TJ r) = w32 (fieldI 16 (nth smp.tj r 0)))
        ∧ rd d PWR_VIN = w32 (smp.vin % 65536 + smp.vfld % 65536 * 65536) ∧ rd d PWR_VKA = w32 (smp.store % 65536 + smp.vka % 65536 * 65536) ∧ rd d PWR_PIN = w32 (smp.pin % 65536)
        ∧ d.power = { s.dev.power with kaVka := decide (2000 ≤ smp.vka), kaLow := decide (smp.store < 2200) }
        ∧ rdBit d HLTH_THERM 2 = decide (850 < smp.tcase) ∧ rdBit d HLTH_THERM 4 = (List.range 4).any (fun r => decide (1150 ≤ nth smp.tj r 0)) ∧ d.role = s.dev.role ∧ d.sig = s.dev.sig)) ∧
    -- critical
    (∀ (smp : HSample) (r : Nat), (powered s.dev = true ∧ s.dev.power.phase = .on ∧ r < 4 ∧ 2 ≤ nth s.dev.health.hot r 0 ∧ 1200 ≤ nth smp.tj r 0) →
      Completes (.healthSample smp) s (fun d => d.power.phase = .held)) ∧
    -- hour
    (∀ (smp : EolSample), (powered s.dev = true ∧ optMs s.dev / 3600000 ≠ s.dev.health.hour) →
      Completes (.eolUpdate smp) s (fun d => (∀ r, r < 4 → rd d (HLTH_AGE r) = w32 (nth smp.age r 0 % 65536) ∧ rd d (HLTH_EM r) = w32 (nth smp.em r 0 % 65536) ∧ rd d (HLTH_CYC r) = w32 (nth smp.cyc r 0))
        ∧ rd d HLTH_TCDMG = w32 (tcDamage smp.cyc) ∧ rd d HLTH_MRAM_ER = w32 smp.mram
        ∧ d.health = { s.dev.health with hist := (eolValues d :: s.dev.health.hist).take 1000, hour := optMs s.dev / 3600000 }
        ∧ (∀ p, p = eolPick ((List.range 6).map (fun k => (k + 1, prediction (eolSeries d k) (nth (eolLimits d) k 0)))) → rd d HLTH_EOL = w32 p.2.1 ∧ rd d HLTH_EOL_LO = w32 p.2.2.1 ∧ rd d HLTH_EOL_HI = w32 p.2.2.2)
        ∧ d.power = s.dev.power ∧ d.role = s.dev.role ∧ d.sig = s.dev.sig)) ∧
    -- sameHour
    (∀ (smp : EolSample), ¬(powered s.dev = true ∧ optMs s.dev / 3600000 ≠ s.dev.health.hour) → exec (.eolUpdate smp) s = .next s) ∧
    -- ledgerSaved
    (Completes .wearLedgerSave s (fun d => d = { s.dev with mram := d.mram } ∧ (∀ e, e ∈ tkeys s.dev.wear → mbytes d.mram (wearAt e) 16 = wearBytes (wearOf s.dev e))
        ∧ ∀ a, (∀ e, e ∈ tkeys s.dev.wear → a < wearAt e ∨ wearAt e + 16 ≤ a) → mrd d.mram a = mrd s.dev.mram a)) ∧
    -- set
    (∀ (e : Nat) (x : Wear), (admits s.dev .hlth 0x18C = true ∧ e = fld (rd s.dev HLTH_WL_SEL) 8 0 ∧ e < 448) →
      x = (if 192 ≤ e then { wearOf s.dev e with thr := rdN s.dev HLTH_WL_THR, src := fld (rd s.dev HLTH_WL_SRC) 14 0, bitNo := fld (rd s.dev HLTH_WL_SRC) 20 16, en := bit (rd s.dev HLTH_WL_SRC) 23, last := sigBit s.dev (fld (rd s.dev HLTH_WL_SRC) 14 0) (fld (rd s.dev HLTH_WL_SRC) 20 16) } else { wearOf s.dev e with thr := rdN s.dev HLTH_WL_THR }) →
      Completes .wlSet s (fun d => wearOf d e = { x with worn := decide (x.thr ≠ 0 ∧ wearThr e x ≤ x.count) } ∧ mbytes d.mram (wearAt e) 16 = wearBytes (wearOf d e)
        ∧ (∀ f, f ≠ e → wearOf d f = wearOf s.dev f) ∧ d.power = s.dev.power ∧ d.role = s.dev.role ∧ d.sig = s.dev.sig)) ∧
    -- clearCount
    (∀ (e : Nat), (admits s.dev .hlth 0x18C = true ∧ e = fld (rd s.dev HLTH_WL_SEL) 8 0 ∧ e < 448) →
      Completes .wlClearCount s (fun d => wearOf d e = { wearOf s.dev e with count := 0, frac := 0, worn := false } ∧ mbytes d.mram (wearAt e) 16 = wearBytes (wearOf d e)
        ∧ (∀ f, f ≠ e → wearOf d f = wearOf s.dev f) ∧ d.power = s.dev.power ∧ d.role = s.dev.role ∧ d.sig = s.dev.sig)) ∧
    -- noEntry
    (∀ (c : Instr), (admits s.dev .hlth 0x18C = true ∧ 448 ≤ fld (rd s.dev HLTH_WL_SEL) 8 0 ∧ (c = .wlSet ∨ c = .wlClearCount)) →
      Completes c s (Refused .hlth 0x1421 HLTH_WL_CMD s.dev)) ∧
    -- trimArrives
    (∀ (t : Int), (t = trimTarget s.dev ∧ (trimAct s.dev - t).natAbs ≤ 1) →
      exec .trimSlewDone s = .next { s with dev := if trimAct s.dev = t then s.dev else wr s.dev CLK_TRIM_ACT (w32i t) }) ∧
    -- trimOnTheWay
    (1 < (trimAct s.dev - trimTarget s.dev).natAbs → exec .trimSlewDone s = .next s) ∧
    -- unpoweredSample
    (∀ (smp : HSample), powered s.dev = false → exec (.healthSample smp) s = .next s)

/-- Identity commands: attestation and the key slots (R430, R431, R432, R433, Table 18-3, 18 Identity, power states and
wear). An identity command concludes with its result and its count, and is refused with 0x1401 while another runs. ATTEST
latches BP_CNT and the bytes to sign; the signature appears when it is done. A key command ends with 6 while it is locked, 5
for a fixed slot, 3 for a used slot, 4 for an empty one, 1 or 2 for its certificate; else the slot is written or emptied.
Hash, signature and certificate parsing are the model's free functions (log entry 10). -/
def Obligations.IdentityCommandsConclude : Prop :=
  ∀ s : State,
    -- nop
    ((admits s.dev .id 0x200 = true ∧ s.dev.idBusy = .idle) → exec .idNop s = .next { s with dev := idDone (issued s.dev .id 0x200 0) 0 }) ∧
    -- busy
    (∀ (c : Instr) (k : Nat), (k < 16 ∧ c ∈ [.idNop, .attest, .ownerSet, .keyAdd k, .keyDel k] ∧ admits s.dev .id 0x200 = true ∧ s.dev.idBusy ≠ .idle) →
      Completes c s (Refused .id 0x1401 ID_CMD s.dev)) ∧
    -- attest
    ((admits s.dev .id 0x200 = true ∧ s.dev.idBusy = .idle ∧ (s.dev.power.phase = .on ∨ s.dev.power.phase = .held)) →
      Completes .attest s (fun d => d.idBusy = .attest (Config.sha256 (attMsg d s.vault.serial)) ∧ rd64 d ID_ATT_BP = bp s.dev ∧ d.power = s.dev.power ∧ d.role = s.dev.role ∧ d.sig = s.dev.sig
        ∧ ∀ a, a ≠ ID_ATT_BP → a ≠ ID_ATT_BP + 4 → a ≠ ID_CMD → rd d a = rd s.dev a)) ∧
    -- noAttest
    ((admits s.dev .id 0x200 = true ∧ s.dev.idBusy = .idle ∧ ¬(s.dev.power.phase = .on ∨ s.dev.power.phase = .held)) →
      Completes .attest s (Refused .id 0x1401 ID_CMD s.dev)) ∧
    -- signed
    (∀ (g : List W8), s.dev.idBusy = .attest g →
      Completes .attestDone s (fun d => d.idBusy = .idle ∧ (∀ i, i < 16 → rd d (ID_ATT_SIG i) = sigWord (Config.moduleSign g) i) ∧ rd d ID_RES = 0 ∧ rd d ID_CMD_CNT = rd s.dev ID_CMD_CNT + 1
        ∧ d.power = s.dev.power ∧ d.role = s.dev.role ∧ d.sig = s.dev.sig)) ∧
    -- nothingToSign
    (s.dev.idBusy = .idle → exec .attestDone s = .next s) ∧
    -- locked
    (∀ (c : Instr) (k : Nat) (v : W32), (k < 16 ∧ (c, v) ∈ [(.ownerSet, 2), (.keyAdd k, w32 (3 + 256 * k)), (.keyDel k, w32 (4 + 256 * k))] ∧ admits s.dev .id 0x200 = true) →
      (s.dev.idBusy = .idle ∧ keyLocked s.dev = true) → exec c s = .next { s with dev := idDone (issued s.dev .id 0x200 v) 6 }) ∧
    -- fixedSlot
    (∀ (c : Instr) (k : Nat) (v : W32), (k < 2 ∧ (c, v) ∈ [(.keyAdd k, w32 (3 + 256 * k)), (.keyDel k, w32 (4 + 256 * k))] ∧ admits s.dev .id 0x200 = true) →
      (s.dev.idBusy = .idle ∧ keyLocked s.dev = false) → exec c s = .next { s with dev := idDone (issued s.dev .id 0x200 v) 5 }) ∧
    -- usedSlot
    (∀ (c : Instr) (k : Nat) (v : W32), ((k = 1 ∧ c = .ownerSet ∧ v = 2) ∨ (2 ≤ k ∧ k < 16 ∧ c = .keyAdd k ∧ v = w32 (3 + 256 * k))) →
      (admits s.dev .id 0x200 = true ∧ s.dev.idBusy = .idle ∧ keyLocked s.dev = false ∧ slotUsed s.dev k = true) →
      exec c s = .next { s with dev := idDone (issued s.dev .id 0x200 v) 3 }) ∧
    -- emptySlot
    (∀ (k : Nat), (2 ≤ k ∧ k < 16 ∧ admits s.dev .id 0x200 = true ∧ s.dev.idBusy = .idle ∧ keyLocked s.dev = false ∧ slotUsed s.dev k = false) →
      exec (.keyDel k) s = .next { s with dev := idDone (issued s.dev .id 0x200 (w32 (4 + 256 * k))) 4 }) ∧
    -- keySet
    (∀ (c : Instr) (k : Nat) (r : Option CertInfo) (chain : CertInfo → Bool), ((k = 1 ∧ c = .ownerSet ∧ chain = CertInfo.vendorChain) ∨ (2 ≤ k ∧ k < 16 ∧ c = .keyAdd k ∧ chain = fun x => decide (slotUsed s.dev 1 = true ∧ x.signer = rd64 s.dev (ID_SLOT_KID 1)))) →
      (admits s.dev .id 0x200 = true ∧ s.dev.idBusy = .idle ∧ keyLocked s.dev = false ∧ slotUsed s.dev k = false) → certIn s.dev = r →
      Completes c s (fun d => rd d ID_CMD_CNT = rd s.dev ID_CMD_CNT + 1 ∧ (∀ j, j < 16 → j ≠ k → rd64 d (ID_SLOT_KID j) = rd64 s.dev (ID_SLOT_KID j) ∧ rd d (ID_SLOT_USE j) = rd s.dev (ID_SLOT_USE j))
        ∧ (r = none → rd d ID_RES = 1) ∧ (∀ x, r = some x → (chain x && x.types.isSome) = false → rd d ID_RES = 2 ∧ slotUsed d k = false)
        ∧ (∀ x t, r = some x → chain x = true → x.types = some t → rd d ID_RES = 0 ∧ rd64 d (ID_SLOT_KID k) = x.keyId % 2 ^ 64 ∧ rd d (ID_SLOT_USE k) = w32 (t % 65536 + 0x10000 + 0x20000 * b2n (k == 1)))
        ∧ d.power = s.dev.power ∧ d.role = s.dev.role ∧ d.sig = s.dev.sig)) ∧
    -- keyDeleted
    (∀ (k : Nat), (2 ≤ k ∧ k < 16 ∧ admits s.dev .id 0x200 = true ∧ s.dev.idBusy = .idle ∧ keyLocked s.dev = false ∧ slotUsed s.dev k = true) →
      Completes (.keyDel k) s (fun d => rd d ID_RES = 0 ∧ rd d ID_CMD_CNT = rd s.dev ID_CMD_CNT + 1 ∧ rd64 d (ID_SLOT_KID k) = 0 ∧ rd d (ID_SLOT_USE k) = 0
        ∧ (∀ j, j < 16 → j ≠ k → rd64 d (ID_SLOT_KID j) = rd64 s.dev (ID_SLOT_KID j) ∧ rd d (ID_SLOT_USE j) = rd s.dev (ID_SLOT_USE j)) ∧ d.power = s.dev.power ∧ d.role = s.dev.role ∧ d.sig = s.dev.sig))

/-- Pliale segment commands: loading, starting, stopping, the acyclic request, resynchronisation (R324, R333, R335, R338,
Table 12-6, Table 12-9, Table 12-11, 12 Pliale). LOAD reads the container once; the end of its verification gives STOPPED
with the schedule's claims, or EMPTY with the load result; UNLOAD releases the claims. START begins the silence timer with
every slot in INIT, STOP ends in STOPPED with safe inputs, RESTART leaves HALTED, ACYC queues the request or ends it at once,
RESYNC queues a slot. A command out of its state is refused with 0x0C01. The image is judged by the order of log entry 19. -/
def Obligations.SegmentCommandsMoveTheSegment : Prop :=
  ∀ s : State,
    -- load
    (∀ (seg : Nat), (seg < 16 ∧ admits s.dev (.pl seg) 0x104 = true ∧ (plOf s.dev seg).st = .empty) →
      Completes (.plLoad seg) s (fun d => plOf d seg = { pl0 with st := .loading, copy := sramCopy s.dev (rdN s.dev (PL_LOAD_ADDR seg)) (rdN s.dev (PL_LOAD_LEN seg)), copyLen := sramLen s.dev (rdN s.dev (PL_LOAD_ADDR seg)) (rdN s.dev (PL_LOAD_LEN seg)) }
        ∧ OnlySeg seg [PL_CMD seg] [] s.dev d)) ∧
    -- verified
    (∀ (seg : Nat) (x : Pl), (seg < 16 ∧ x = plOf s.dev seg ∧ x.st = .loading) →
      Completes (.plVerifyDone seg) s (fun d => match containerCheck s.dev x.copy 5 x.copyLen, parseSched (bodyOf x.copy) with
      | 0, .ok c => if (plClaims seg c).any (fun e => sigTaken s.dev e.1 clsPl e.2.1) then
            (fun r e => plOf e seg = pl0 ∧ rd e (PL_LOAD_RES seg) = w32 r ∧ rdN e (plBase seg + ERR_CODE) % 65536 = 0x0C05 ∧ OnlySeg seg [PL_LOAD_RES seg, plBase seg + ERR_CODE, plBase seg + ERR_ADDR] [] s.dev e) 7 d
          else plOf d seg = { pl0 with st := .stopped, sched := some c, cyc := c.cyc, slots := c.ents.map (fun _ => { sl0 with st := .init }) }
            ∧ rd d (PL_LOAD_RES seg) = 0 ∧ rd d (PL_SCHED_ID seg) = w32 c.id ∧ rd d (PL_CYCLE seg) = w32 c.cyc
            ∧ (∀ n, (n ∉ (plClaims seg c).map (·.1) ∧ attrOf d n = attrOf s.dev n ∧ sigVal d n = sigVal s.dev n)
                ∨ ∃ e, e ∈ plClaims seg c ∧ e.1 = n ∧ attrOf d n = attrWord clsPl e.2.1 e.2.2.1 ∧ sigVal d n = sigForm e.2.2.1 e.2.2.2)
            ∧ d.dir = (dirPut s.dev (.pl seg) 0 5 x.copyLen ((x.copy.drop 0x20).take 32)).dir ∧ d.power = s.dev.power ∧ d.role = s.dev.role
      | 0, .error r => (fun r e => plOf e seg = pl0 ∧ rd e (PL_LOAD_RES seg) = w32 r ∧ rdN e (plBase seg + ERR_CODE) % 65536 = 0x0C05 ∧ OnlySeg seg [PL_LOAD_RES seg, plBase seg + ERR_CODE, plBase seg + ERR_ADDR] [] s.dev e) r d
      | r, _ => (fun r e => plOf e seg = pl0 ∧ rd e (PL_LOAD_RES seg) = w32 r ∧ rdN e (plBase seg + ERR_CODE) % 65536 = 0x0C05 ∧ OnlySeg seg [PL_LOAD_RES seg, plBase seg + ERR_CODE, plBase seg + ERR_ADDR] [] s.dev e) r d)) ∧
    -- notLoading
    (∀ (seg : Nat), (seg < 16 ∧ (plOf s.dev seg).st ≠ .loading) → exec (.plVerifyDone seg) s = .next s) ∧
    -- unload
    (∀ (seg : Nat) (c : PlSched) (x : Pl), (seg < 16 ∧ admits s.dev (.pl seg) 0x104 = true ∧ x = plOf s.dev seg ∧ x.st = .stopped ∧ x.sched = some c) →
      Completes (.plUnload seg) s (fun d => plOf d seg = pl0 ∧ (∀ r, r ≠ seg → plOf d r = plOf s.dev r)
        ∧ (∀ n, attrOf d n = if n ∈ (plClaims seg c).map (·.1) then 0 else attrOf s.dev n) ∧ (∀ n, n ∉ (plClaims seg c).map (·.1) → sigVal d n = sigVal s.dev n)
        ∧ (x.asked = true → rd d (PL_ACYC_STAT seg) = w32 (3 + 256 * 4) ∧ rd d (PL_ACYC_CNT seg) = rd s.dev (PL_ACYC_CNT seg) + 1)
        ∧ (∀ a, a ≠ PL_CMD seg → (x.asked = true → a ≠ PL_ACYC_STAT seg ∧ a ≠ PL_ACYC_CNT seg) → rd d a = rd s.dev a) ∧ d.power = s.dev.power ∧ d.role = s.dev.role)) ∧
    -- start
    (∀ (seg : Nat) (x : Pl), (seg < 16 ∧ admits s.dev (.pl seg) 0x104 = true ∧ x = plOf s.dev seg ∧ x.st = .stopped ∧ runBit s.dev (.pl seg) = true) →
      Completes (.plStart seg) s (fun d => plOf d seg = { x with st := .listen, heardAt := bp s.dev, coll := 0, cycles := 0, closing := 0, start := none, kept := false, dup := false, slots := x.slots.map slInit } ∧ OnlySeg seg [PL_CMD seg] [] s.dev d)) ∧
    -- stop
    (∀ (seg : Nat) (x : Pl), (seg < 16 ∧ admits s.dev (.pl seg) 0x104 = true ∧ x = plOf s.dev seg ∧ (x.st = .running ∨ x.st = .listen ∨ x.st = .halted)) →
      Completes (.plStop seg) s (fun d => plOf d seg = { x with st := .stopped, closing := if x.st = .running then 2 else 0, start := none, wait := false, asked := x.asked && !x.wait }
        ∧ OnlySeg seg (PL_CMD seg :: if x.wait then [PL_ACYC_STAT seg, PL_ACYC_CNT seg] else []) (segSafe x false) s.dev d
        ∧ (x.wait = true → rd d (PL_ACYC_STAT seg) = w32 (3 + 256 * 4) ∧ rd d (PL_ACYC_CNT seg) = rd s.dev (PL_ACYC_CNT seg) + 1))) ∧
    -- restart
    (∀ (seg : Nat) (x : Pl), (seg < 16 ∧ admits s.dev (.pl seg) 0x108 = true ∧ x = plOf s.dev seg ∧ x.st = .halted) →
      Completes (.plRestart seg) s (fun d => plOf d seg = { x with st := .listen, heardAt := bp s.dev, coll := 0, cycles := 0, closing := 0, start := none, kept := false }
        ∧ OnlySeg seg [PL_LCMD seg] [] s.dev d)) ∧
    -- acyc
    (∀ (seg : Nat) (x : Pl) (c : PlSched), (seg < 16 ∧ admits s.dev (.pl seg) 0x108 = true ∧ x = plOf s.dev seg ∧ (x.st = .listen ∨ x.st = .running) ∧ x.wait = false ∧ x.asked = false ∧ x.sched = some c) →
      (4 ≤ areqLen s.dev seg ∧ 4 ≤ areqMax s.dev seg ∧ areqNs s.dev seg ≤ c.acycLen) →
      Completes (.plAcyc seg) s (fun d => plOf d seg = { x with wait := true } ∧ rd d (PL_ACYC_STAT seg) = 1 ∧ OnlySeg seg [PL_LCMD seg, PL_ACYC_STAT seg] [] s.dev d)) ∧
    -- acycEnds
    (∀ (seg : Nat) (x : Pl) (c : PlSched), (seg < 16 ∧ admits s.dev (.pl seg) 0x108 = true ∧ x = plOf s.dev seg ∧ (x.st = .listen ∨ x.st = .running) ∧ x.wait = false ∧ x.asked = false ∧ x.sched = some c) →
      (areqLen s.dev seg < 4 ∨ areqMax s.dev seg < 4 ∨ c.acycLen < areqNs s.dev seg) →
      Completes (.plAcyc seg) s (fun d => plOf d seg = x ∧ rd d (PL_ACYC_STAT seg) = w32 (3 + 256 * (if areqLen s.dev seg < 4 ∨ areqMax s.dev seg < 4 then 5 else 3))
        ∧ rd d (PL_ACYC_CNT seg) = rd s.dev (PL_ACYC_CNT seg) + 1 ∧ OnlySeg seg [PL_LCMD seg, PL_ACYC_STAT seg, PL_ACYC_CNT seg] [] s.dev d)) ∧
    -- resync
    (∀ (seg k : Nat) (x : Pl), (seg < 16 ∧ k < 32 ∧ admits s.dev (.pl seg) 0x108 = true ∧ x = plOf s.dev seg ∧ x.st = .running ∧ k < x.slots.length) →
      Completes (.plResync seg k) s (fun d => plOf d seg = { x with resync := x.resync ++ [k] } ∧ OnlySeg seg [PL_LCMD seg] [] s.dev d)) ∧
    -- refused
    (∀ (seg k off : Nat) (c : Instr) (x : Pl), (seg < 16 ∧ k < 32 ∧ admits s.dev (.pl seg) off = true ∧ x = plOf s.dev seg) →
      ((off = 0x104 ∧ ((c = .plLoad seg ∧ x.st ≠ .empty) ∨ (c = .plUnload seg ∧ x.st ≠ .stopped) ∨ (c = .plStart seg ∧ ¬(x.st = .stopped ∧ runBit s.dev (.pl seg) = true)) ∨ (c = .plStop seg ∧ x.st ≠ .running ∧ x.st ≠ .listen ∧ x.st ≠ .halted))) ∨ (off = 0x108 ∧ ((c = .plRestart seg ∧ x.st ≠ .halted) ∨ (c = .plAcyc seg ∧ ((x.st ≠ .listen ∧ x.st ≠ .running) ∨ x.wait = true ∨ x.asked = true)) ∨ (c = .plResync seg k ∧ ¬(x.st = .running ∧ k < x.slots.length))))) →
      Completes c s (Refused (.pl seg) 0x0C01 (plBase seg + off) s.dev))

/-- Pliale cycles: SYNC and POLL, replies, the acyclic window, delay measurement, collisions, silence (R321, R322, R327,
R330, R332, R333, R335, R337, Table 12-3, Table 12-7, Table 12-8, 12 Pliale). A cycle starts with its SYNC at its boundary
and each POLL goes out at its instant; a valid reply of the right cycle in its window is accepted, one outside its window is
a slot-edge violation, a corrupt one is counted. The acyclic window sends the request, RESYNC and MEASURE frames; at its end
each slot moves through its states. Four answers give a delay. A foreign SYNC stops the segment, collisions put it back into
LISTEN and the third halts it, silence starts it, a store error quarantines it. Without its clock a segment is still. What a
spoilt slot and MEAS_RSP's times stand for is the model's (log entry 19). -/
def Obligations.SegmentsRunTheirCycles : Prop :=
  ∀ s : State,
    -- still
    (∀ (seg k j dt : Nat) (good sync : Bool) (bs : List W8) (c : Instr), (seg < 16 ∧ k < 32 ∧ clocked s.dev = false) →
      c ∈ [.plialeCycleStart seg, .pollSend seg k, .replyReceive seg j good bs, .acycWindowEnd seg, .acyclicWindowStart seg, .measRspReceive seg k dt, .acycRspReceive seg j good bs, .acycResponseTimeout seg, .foreignSync seg, .plCollision seg sync k, .lineActivity seg, .listenSilenceExpired seg] →
      exec c s = .next s) ∧
    -- cycle
    (∀ (seg : Nat) (x y : Pl), (seg < 16 ∧ clocked s.dev = true ∧ x = plOf s.dev seg ∧ (x.st = .running ∨ x.closing = 2) ∧ 0 < x.cyc ∧ bp s.dev % x.cyc = 0) →
      y = { x with cyc := fld (rd s.dev (PL_CYCLE seg)) 9 0, start := some (bp s.dev), cycles := x.cycles + 1, violators := [], closing := if x.closing = 2 then 1 else 0, slots := x.slots.map (fun z => { z with got := false, heard := false, spoilt := false }) } →
      Completes (.plialeCycleStart seg) s (fun d => rd d (PL_CYC_NUM seg) = w32 (cycleNo s.dev y) ∧ OnlySeg seg [PL_CYC_NUM seg] [] s.dev d
        ∧ plOf d seg = { y with sent := [(0, plFrame (fld (rd s.dev (PL_CFG seg)) 4 0) 0 0 (cycleNo s.dev y) (syncPay d seg))] })) ∧
    -- lastCycleEnds
    (∀ (seg : Nat) (x : Pl), (seg < 16 ∧ clocked s.dev = true ∧ x = plOf s.dev seg ∧ x.st ≠ .running ∧ x.closing = 1 ∧ 0 < x.cyc ∧ bp s.dev % x.cyc = 0) →
      exec (.plialeCycleStart seg) s = .next { s with dev := setPl s.dev seg { x with closing := 0, start := none } }) ∧
    -- noCycle
    (∀ (seg : Nat) (x : Pl), (seg < 16 ∧ x = plOf s.dev seg ∧ ((x.st ≠ .running ∧ x.closing ≠ 1 ∧ x.closing ≠ 2) ∨ x.cyc = 0 ∨ bp s.dev % x.cyc ≠ 0)) →
      exec (.plialeCycleStart seg) s = .next s) ∧
    -- poll
    (∀ (seg k : Nat) (x : Pl), (seg < 16 ∧ k < 32 ∧ clocked s.dev = true ∧ x = plOf s.dev seg ∧ plLive x = true ∧ k < x.slots.length ∧ outsMute s.dev = false) →
      Completes (.pollSend seg k) s (fun d => OnlySeg seg [] [] s.dev d ∧ plOf d seg = { x with sent := x.sent ++ [((plEnt x k).pollOfs, plFrame (plEnt x k).addr 1 (b2n (slOf s.dev seg k).mute)
          (rdN s.dev (PL_CYC_NUM seg)) (nth (if plL3 x && decide (8000 ≤ (plEnt x k).pollOfs % 10000) then x.taken else x.outs) k []))] })) ∧
    -- noPoll
    (∀ (seg k : Nat) (x : Pl), (seg < 16 ∧ k < 32 ∧ x = plOf s.dev seg ∧ ¬(plLive x = true ∧ k < x.slots.length ∧ outsMute s.dev = false)) → exec (.pollSend seg k) s = .next s) ∧
    -- accepted
    (∀ (seg k j : Nat) (bs : List W8) (x : Pl) (y : SlS), (seg < 16 ∧ clocked s.dev = true ∧ x = plOf s.dev seg ∧ plLive x = true ∧ k < x.slots.length ∧ y = slOf s.dev seg k ∧ y.mute = false) →
      (frValid true bs = true ∧ frType bs = 2 ∧ addrSlot x (frAddr bs) = some k ∧ inWin x (plEnt x k) j = true ∧ frSeq bs = rdN s.dev (PL_CYC_NUM seg) % 65536 ∧ frLen bs = (plEnt x k).inLen) →
      Completes (.replyReceive seg j true bs) s (fun d => slOf d seg k = { y with heard := true, got := !y.spoilt, data := frPay bs, witness := frFlags bs, edgeRun := 0, due := plL3 x && !y.spoilt }
        ∧ (∀ i, i ≠ k → slOf d seg i = slOf s.dev seg i) ∧ (plOf d seg).wr = x.wr + 1 ∧ (∀ r, r ≠ seg → plOf d r = plOf s.dev r)
        ∧ fld (rd d (PL_SL_TIME seg k)) 31 16 = ((clampI (-32768) 32767 ((j : Int) - (plEnt x k).replyOfs)) % 65536).toNat
        ∧ rd d (PL_WIT_DIFF_CNT seg) = rd s.dev (PL_WIT_DIFF_CNT seg) + (if frFlags bs / 4 % 2 = 1 then 1 else 0) ∧ d.sig = s.dev.sig ∧ d.stage1 = s.dev.stage1)) ∧
    -- edge
    (∀ (seg k j : Nat) (bs : List W8) (x : Pl) (y : SlS), (seg < 16 ∧ clocked s.dev = true ∧ x = plOf s.dev seg ∧ plLive x = true ∧ k < x.slots.length ∧ k < 32 ∧ y = slOf s.dev seg k) →
      (frValid true bs = true ∧ frType bs = 2 ∧ addrSlot x (frAddr bs) = some k ∧ inWin x (plEnt x k) j = false) →
      Completes (.replyReceive seg j true bs) s (fun d => (slOf d seg k).edgeRun = min 3 (y.edgeRun + 1) ∧ (slOf d seg k).st = y.st ∧ (slOf d seg k).got = y.got ∧ rd d (PL_EDGE_CNT seg) = rd s.dev (PL_EDGE_CNT seg) + 1
        ∧ fld (rd d (PL_SL_EDGE seg k)) 15 0 = (fld (rd s.dev (PL_SL_EDGE seg k)) 15 0 + 1) % 65536 ∧ (plOf d seg).violators = x.violators ++ [(k, j, j + frameNs (frLen bs))]
        ∧ (plOf d seg).resync = (if y.edgeRun = 2 ∧ y.st = .active then x.resync ++ [k] else x.resync) ∧ OnlySeg seg [PL_SL_TIME seg k, PL_SL_EDGE seg k, PL_EDGE_CNT seg] [] s.dev d)) ∧
    -- corrupt
    (∀ (seg j : Nat) (bs : List W8) (x : Pl), (seg < 16 ∧ clocked s.dev = true ∧ x = plOf s.dev seg ∧ plLive x = true ∧ winSlot x j = none) →
      Completes (.replyReceive seg j false bs) s (fun d => rd d (PL_CRC_CNT seg) = rd s.dev (PL_CRC_CNT seg) + 1 ∧ plOf d seg = x ∧ OnlySeg seg [PL_CRC_CNT seg] [] s.dev d)) ∧
    -- unheard
    (∀ (seg j : Nat) (good : Bool) (bs : List W8) (x : Pl), (seg < 16 ∧ x = plOf s.dev seg ∧ plLive x = false) → exec (.replyReceive seg j good bs) s = .next s) ∧
    -- window
    (∀ (seg : Nat) (x : Pl) (c : PlSched) (t1 t2 : Nat) (rs : List (Nat × Nat)) (ask : Bool), (seg < 16 ∧ clocked s.dev = true ∧ x = plOf s.dev seg ∧ plLive x = true ∧ x.sched = some c) →
      (ask = (x.wait && decide (areqNs s.dev seg ≤ c.acycLen)) ∧ t1 = (if ask then areqNs s.dev seg else 0)) →
      (rs = x.resync.zipIdx.filter (fun e => decide (t1 + (e.2 + 1) * frameNs 4 ≤ c.acycLen)) ∧ t2 = t1 + rs.length * frameNs 4) →
      Completes (.acyclicWindowStart seg) s (fun d => OnlySeg seg [] [] s.dev d ∧ (plOf d seg).wait = (x.wait && !ask) ∧ (plOf d seg).asked = (x.asked || ask) ∧ (plOf d seg).resync = x.resync.drop rs.length
        ∧ (plOf d seg).sent = x.sent ++ (if ask then [(c.acycOfs, plFrame (fld (rd s.dev (PL_AREQ_HDR seg)) 4 0) 3 0 (rdN s.dev (PL_CYC_NUM seg))
            ((bytes32 ((List.range 64).map (fun i => rd s.dev (PL_AREQ_DATA seg i)))).take (areqLen s.dev seg)))] else [])
          ++ rs.map (fun e => (c.acycOfs + t1 + e.2 * frameNs 4, plFrame (plEnt x e.1).addr 7 0 (rdN s.dev (PL_CYC_NUM seg)) [1, 0, 0, 0]))
          ++ (measPlan x.slots (c.acycLen - t2) (measSlots x)).flatMap (fun e => (List.range e.2).map (fun i => (c.acycOfs + t2 + 4600 * i, plFrame (plEnt x e.1).addr 5 0 (rdN s.dev (PL_CYC_NUM seg)) []))))) ∧
    -- noWindow
    (∀ (seg : Nat) (x : Pl), (seg < 16 ∧ x = plOf s.dev seg ∧ (plLive x = false ∨ x.sched = none)) → exec (.acyclicWindowStart seg) s = .next s) ∧
    -- slots
    (∀ (seg k : Nat) (x : Pl) (y : SlS) (lim : Nat), (seg < 16 ∧ clocked s.dev = true ∧ x = plOf s.dev seg ∧ plLive x = true ∧ k < x.slots.length ∧ k < 32 ∧ y = slOf s.dev seg k ∧ lim = fld (rd s.dev (PL_CFG seg)) 15 8) →
      Completes (.acycWindowEnd seg) s (fun d => (slOf d seg k).st = (if y.st = .off then .off else if y.st = .init ∨ y.st = .silent then (if y.measured then .seeking else y.st) else if y.st = .seeking ∧ y.got = true then .active
            else if (if y.got then 0 else y.lostRun + 1) ≥ lim ∧ 0 < lim then .init else if y.st = .active ∧ y.edgeRun = 3 then .silent else y.st)
        ∧ (y.st ≠ .off → (slOf d seg k).invalid = !y.got ∧ (slOf d seg k).missRun = (if y.got then 0 else min 65535 (y.missRun + 1)))
        ∧ rd d (PL_SL_MISC seg k) = (if y.heard || y.got then rd s.dev (PL_SL_MISC seg k) else putFld (rd s.dev (PL_SL_MISC seg k)) 15 0 (fld (rd s.dev (PL_SL_MISC seg k)) 15 0 + 1))
        ∧ (plOf d seg).st = x.st ∧ (plOf d seg).slots.length = x.slots.length ∧ (∀ r, r ≠ seg → plOf d r = plOf s.dev r) ∧ d.sig = s.dev.sig ∧ d.stage1 = s.dev.stage1)) ∧
    -- measured
    (∀ (seg k dt : Nat) (x : Pl) (y : SlS) (t : Int), (seg < 16 ∧ k < 32 ∧ clocked s.dev = true ∧ x = plOf s.dev seg ∧ plLive x = true ∧ k < x.slots.length ∧ y = slOf s.dev seg k ∧ y.asked ≠ 0 ∧ t = y.sum + ((dt : Int) - 2000)) →
      Completes (.measRspReceive seg k dt) s (fun d => OnlySeg seg [PL_SL_TIME seg k] [] s.dev d ∧ (∀ i, i ≠ k → slOf d seg i = slOf s.dev seg i)
        ∧ if y.answers + 1 < 4 then slOf d seg k = { y with asked := y.asked - 1, answers := y.answers + 1, sum := t } ∧ rd d (PL_SL_TIME seg k) = rd s.dev (PL_SL_TIME seg k)
          else if 500 < (t + 4) / 8 then slOf d seg k = { y with asked := y.asked - 1, range := true, answers := 0, sum := 0 } ∧ rd d (PL_SL_TIME seg k) = rd s.dev (PL_SL_TIME seg k)
          else slOf d seg k = { y with asked := y.asked - 1, answers := y.answers + 1, sum := t, range := false, measured := true } ∧ fld (rd d (PL_SL_TIME seg k)) 15 0 = ((t + 4) / 8).toNat % 65536
            ∧ (plOf d seg).sent = x.sent ++ [(x.sched.elim 0 (·.acycOfs), plFrame (plEnt x k).addr 7 0 (rdN s.dev (PL_CYC_NUM seg)) ([2] ++ leBytes 2 ((t + 4) / 8).toNat ++ [0]))])) ∧
    -- notAsked
    (∀ (seg k dt : Nat), (seg < 16 ∧ k < 32 ∧ ((slOf s.dev seg k).asked = 0 ∨ plLive (plOf s.dev seg) = false)) → exec (.measRspReceive seg k dt) s = .next s) ∧
    -- answered
    (∀ (seg j : Nat) (good : Bool) (bs : List W8) (x : Pl), (seg < 16 ∧ clocked s.dev = true ∧ x = plOf s.dev seg ∧ x.asked = true ∧ 900 ≤ j + plGuard x / 2 ∧ j ≤ 2100 + plGuard x / 2) →
      Completes (.acycRspReceive seg j good bs) s (fun d => plOf d seg = { x with wait := false, asked := false } ∧ rd d (PL_ACYC_CNT seg) = rd s.dev (PL_ACYC_CNT seg) + 1 ∧ d = { s.dev with pls := d.pls, regs := d.regs }
        ∧ (∀ r, r ≠ seg → plOf d r = plOf s.dev r) ∧ if (frValid good bs && frType bs == 4 && decide (frLen bs ≤ areqMax s.dev seg)) = true then rd d (PL_ACYC_STAT seg) = 2 ∧ rd d (PL_ARSP_HDR seg) = w32 (frAddr bs + 256 * frLen bs)
            ∧ ∀ i, i < (words32 (frPay bs ++ [0, 0, 0])).length → rd d (PL_ARSP_DATA seg i) = nth (words32 (frPay bs ++ [0, 0, 0])) i 0
          else rd d (PL_ACYC_STAT seg) = w32 (3 + 256 * 2) ∧ OnlySeg seg [PL_ACYC_STAT seg, PL_ACYC_CNT seg] [] s.dev d)) ∧
    -- notAwaited
    (∀ (seg j : Nat) (good : Bool) (bs : List W8) (x : Pl), (seg < 16 ∧ x = plOf s.dev seg ∧ (x.asked = false ∨ j + plGuard x / 2 < 900 ∨ 2100 + plGuard x / 2 < j)) →
      exec (.acycRspReceive seg j good bs) s = .next s) ∧
    -- timeout
    (∀ (seg : Nat) (x : Pl), (seg < 16 ∧ clocked s.dev = true ∧ x = plOf s.dev seg ∧ x.asked = true) →
      Completes (.acycResponseTimeout seg) s (fun d => plOf d seg = { x with wait := false, asked := false } ∧ rd d (PL_ACYC_STAT seg) = w32 (3 + 256 * 1) ∧ rd d (PL_ACYC_CNT seg) = rd s.dev (PL_ACYC_CNT seg) + 1
        ∧ OnlySeg seg [PL_ACYC_STAT seg, PL_ACYC_CNT seg] [] s.dev d)) ∧
    -- foreign
    (∀ (seg : Nat) (x : Pl), (seg < 16 ∧ clocked s.dev = true ∧ x = plOf s.dev seg ∧ (x.st = .listen ∨ x.st = .running)) →
      Completes (.foreignSync seg) s (fun d => plOf d seg = { x with st := .stopped, closing := 0, start := none, dup := true, wait := false, asked := x.asked && !x.wait } ∧ rd d (PL_DUP_CNT seg) = rd s.dev (PL_DUP_CNT seg) + 1
        ∧ d.stage1 = s.dev.stage1 ++ segSafe x false ∧ (∀ r, r ≠ seg → plOf d r = plOf s.dev r) ∧ d.sig = s.dev.sig ∧ d.power = s.dev.power ∧ d.role = s.dev.role)) ∧
    -- syncCollides
    (∀ (seg k : Nat) (x : Pl), (seg < 16 ∧ k < 32 ∧ clocked s.dev = true ∧ x = plOf s.dev seg ∧ x.st = .running ∧ x.cycles ≤ 8) →
      Completes (.plCollision seg true k) s (fun d => rd d (PL_COLL_CNT seg) = rd s.dev (PL_COLL_CNT seg) + 1 ∧ d.stage1 = s.dev.stage1 ++ segSafe x false ∧ (∀ r, r ≠ seg → plOf d r = plOf s.dev r)
        ∧ plOf d seg = (if x.coll < 2 then { x with st := .listen, heardAt := bp s.dev, coll := x.coll + 1, cycles := 0, closing := 0, start := none, kept := false, wait := false, asked := x.asked && !x.wait }
          else { x with st := .halted, coll := 3, start := none, wait := false, asked := x.asked && !x.wait }) ∧ d.sig = s.dev.sig ∧ d.power = s.dev.power ∧ d.role = s.dev.role)) ∧
    -- slotCollides
    (∀ (seg k : Nat) (x : Pl), (seg < 16 ∧ k < 32 ∧ clocked s.dev = true ∧ x = plOf s.dev seg ∧ plLive x = true ∧ k < x.slots.length) →
      Completes (.plCollision seg false k) s (fun d => rd d (PL_COLL_CNT seg) = rd s.dev (PL_COLL_CNT seg) + 1 ∧ OnlySeg seg [PL_COLL_CNT seg] [] s.dev d
        ∧ slOf d seg k = { slOf s.dev seg k with got := false, due := false, spoilt := true } ∧ ∀ i, i ≠ k → slOf d seg i = slOf s.dev seg i)) ∧
    -- activity
    (∀ (seg : Nat) (x : Pl), (seg < 16 ∧ clocked s.dev = true ∧ x = plOf s.dev seg) →
      exec (.lineActivity seg) s = .next { s with dev := if x.st = .listen then setPl s.dev seg { x with heardAt := bp s.dev } else s.dev }) ∧
    -- silence
    (∀ (seg : Nat) (x : Pl), (seg < 16 ∧ clocked s.dev = true ∧ x = plOf s.dev seg ∧ x.st = .listen ∧ x.heardAt + 200 + 2 * fld (rd s.dev (PL_CFG seg)) 4 0 ≤ bp s.dev) →
      exec (.listenSilenceExpired seg) s = .next { s with dev := setPl s.dev seg { x with st := .running, cycles := 0, kept := false, slots := if x.kept then x.slots else x.slots.map slInit } }) ∧
    -- notSilent
    (∀ (seg : Nat) (x : Pl), (seg < 16 ∧ x = plOf s.dev seg ∧ (x.st ≠ .listen ∨ bp s.dev < x.heardAt + 200 + 2 * fld (rd s.dev (PL_CFG seg)) 4 0)) →
      exec (.listenSilenceExpired seg) s = .next s) ∧
    -- storeError
    (∀ (seg : Nat) (x : Pl), (seg < 16 ∧ x = plOf s.dev seg) → Completes (.plSchedUe seg) s (fun d => if x.st = .empty ∨ x.st = .quarantined then d = s.dev else
        plOf d seg = { x with st := .quarantined, closing := 0, start := none, wait := false, asked := x.asked && !x.wait } ∧ rdN d (plBase seg + ERR_CODE) % 65536 = 0x0C04
        ∧ d.stage1 = s.dev.stage1 ++ segSafe x true ∧ (∀ r, r ≠ seg → plOf d r = plOf s.dev r) ∧ d.sig = s.dev.sig ∧ d.power = s.dev.power ∧ d.role = s.dev.role))

/-- Message bus channels: commands, transmission, reception and the error states (R344, R346, R347, R350, R351, R353, R420,
Table 13-4, Table 13-5, Table 13-6, 13 Message buses). START checks the configuration and enters INTEGRATING, STOP stops,
RECOVER leaves BUS_OFF, FLUSH completes a queue. A channel that cannot send completes every outstanding request. A post and a
release move within their rings. The head request of the first queue that has one is sent; a bad one completes with 0x0B. The
end of a frame counts, moves TEC and the state; a reception is filtered into its ring or counted, and moves REC, freely
between 119 and 127 above 127 (log entry 9); bus errors raise REC. What each leaves alone is stated with it. -/
def Obligations.ChannelsSendReceiveAndCompleteRequests : Prop :=
  ∀ s : State,
    -- still
    (∀ (x code : Nat) (fr : CanFrame) (eight : Bool) (c : Instr), (x < 8 ∧ code < 8 ∧ clocked s.dev = false ∧ c ∈ [.cxTxStart x, .cxTxComplete x code, .cxRxFrame x fr, .cxBusError x eight, .cxIntegrated x, .cxRecovered x]) →
      exec c s = .next s) ∧
    -- start
    (∀ (x : Nat), (x < 8 ∧ admits s.dev (.cx x) 0x10C = true ∧ (cxOf s.dev x).st = .stopped ∧ cxStartCause s.dev x = none) →
      Completes (.cxStart x) s (Drained x (setCx (issued s.dev (.cx x) 0x10C 1) x { cxOf s.dev x with st := .integrating, tec := 0, rec_ := 0 }))) ∧
    -- startRefused
    (∀ (x code : Nat), (x < 8 ∧ admits s.dev (.cx x) 0x10C = true ∧ ((code = 0x0D01 ∧ (cxOf s.dev x).st ≠ .stopped) ∨ ((cxOf s.dev x).st = .stopped ∧ cxStartCause s.dev x = some code))) →
      Completes (.cxStart x) s (Refused (.cx x) code (CX_CMD x) s.dev)) ∧
    -- stop
    (∀ (x : Nat) (c : Cx), (x < 8 ∧ admits s.dev (.cx x) 0x10C = true ∧ c = cxOf s.dev x ∧ c.st ≠ .stopped) →
      Completes (.cxStop x) s (fun d => if c.busy.isSome then d = setCx (issued s.dev (.cx x) 0x10C 2) x { c with stopping := true }
        else Drained x (setCx (issued s.dev (.cx x) 0x10C 2) x { c with st := .stopped }) d)) ∧
    -- recover
    (∀ (x : Nat) (c : Cx), (x < 8 ∧ admits s.dev (.cx x) 0x10C = true ∧ c = cxOf s.dev x ∧ c.st = .busOff) →
      exec (.cxRecover x) s = .next { s with dev := setCx (issued s.dev (.cx x) 0x10C 3) x { c with st := .recovering, rcv := 0 } }) ∧
    -- notNow
    (∀ (x : Nat) (c : Instr), (x < 8 ∧ admits s.dev (.cx x) 0x10C = true ∧ ((c = .cxStop x ∧ (cxOf s.dev x).st = .stopped) ∨ (c = .cxRecover x ∧ (cxOf s.dev x).st ≠ .busOff))) →
      Completes c s (Refused (.cx x) 0x0D01 (CX_CMD x) s.dev)) ∧
    -- flush
    (∀ (x q : Nat) (c : Cx), (x < 8 ∧ q < 4 ∧ admits s.dev (.cx x) 0x10C = true ∧ c = cxOf s.dev x) →
      Completes (.cxFlush x q) s (fun d => if c.busy.map (·.1) = some q then d = setCx (issued s.dev (.cx x) 0x10C (w32 (4 + 256 * q))) x { c with flush := tset 0 c.flush q (tqOut s.dev x q - 1) }
        else Completed x 0x0A (fun r => if r = q then tqOut s.dev x q else 0) (issued s.dev (.cx x) 0x10C (w32 (4 + 256 * q))) d)) ∧
    -- post
    (∀ (x q : Nat) (v : W32), (x < 8 ∧ q < 4 ∧ admits s.dev (.cx x) (0x148 + 32 * q) = true) →
      Completes (.cxTxPost x q v) s (fun d => if tqLen s.dev x q < (v - rd s.dev (CX_TQ_DONE x q)).toNat then d = err s.dev (.cx x) 5 (CX_TQ_POST x q) else Drained x (wr s.dev (CX_TQ_POST x q) v) d)) ∧
    -- sends
    (∀ (x q : Nat) (c : Cx), (x < 8 ∧ q < 4 ∧ clocked s.dev = true ∧ c = cxOf s.dev x ∧ (c.st = .active ∨ c.st = .passive) ∧ c.busy = none ∧ authoritative s.dev = true ∧ inHandover s.dev = false) →
      (0 < tqOut s.dev x q ∧ (∀ r, r < q → tqOut s.dev x r = 0) ∧ txBad s.dev x q = false ∧ txExpired s.dev x q = false) →
      exec (.cxTxStart x) s = .next { s with dev := setCx s.dev x { c with busy := some (q, tbNs s.dev) } }) ∧
    -- sendsBad
    (∀ (x q : Nat) (c : Cx), (x < 8 ∧ q < 4 ∧ clocked s.dev = true ∧ c = cxOf s.dev x ∧ (c.st = .active ∨ c.st = .passive) ∧ c.busy = none ∧ authoritative s.dev = true ∧ inHandover s.dev = false) →
      (tqOut s.dev x q = 1 ∧ (∀ r, r < 4 → r ≠ q → tqOut s.dev x r = 0) ∧ (txBad s.dev x q = true ∨ txExpired s.dev x q = true)) →
      Completes (.cxTxStart x) s (Completed x (if txBad s.dev x q then 0x0B else 0x0C) (fun r => if r = q then 1 else 0) s.dev)) ∧
    -- sendsNone
    (∀ (x : Nat) (c : Cx), (x < 8 ∧ c = cxOf s.dev x ∧ (¬(c.st = .active ∨ c.st = .passive) ∨ c.busy ≠ none ∨ authoritative s.dev = false ∨ inHandover s.dev = true ∨ ∀ q, q < 4 → tqOut s.dev x q = 0)) →
      exec (.cxTxStart x) s = .next s) ∧
    -- sent
    (∀ (x q code at_ t n : Nat) (c : Cx) (st : CxSt), (x < 8 ∧ q < 4 ∧ code < 8 ∧ clocked s.dev = true ∧ c = cxOf s.dev x ∧ (c.st = .active ∨ c.st = .passive) ∧ c.busy = some (q, at_) ∧ t = tecAfter c code ∧ n = tget 0 c.flush q ∧ 1 + n ≤ tqOut s.dev x q) →
      st = (if c.stopping then .stopped else if 255 < t then .busOff else if authoritative s.dev = false then .monitor else if 127 < t ∨ 127 < c.rec_ then .passive else .active) →
      Completes (.cxTxComplete x code) s (fun d => cxOf d x = { c with st := st, tec := if 255 < t then 256 else t, busy := none, stopping := false, flush := tset 0 c.flush q 0 }
        ∧ (∀ r, r < 4 → rd d (CX_TQ_DONE x r) = rd s.dev (CX_TQ_DONE x r) + w32 (if st = .active ∨ st = .passive then (if r = q then 1 + n else 0) else tqOut s.dev x r))
        ∧ ((st = .active ∨ st = .passive) → n = 0 → rd d (CX_TQ_LAST x q) = w32 code)
        ∧ rd d (CX_ERRFR_CNT x) = rd s.dev (CX_ERRFR_CNT x) + (if 2 ≤ code then 1 else 0) ∧ rd d (CX_IDCLASH_CNT x) = rd s.dev (CX_IDCLASH_CNT x) + (if code = 2 then 1 else 0)
        ∧ rd d (CX_BUSOFF_CNT x) = rd s.dev (CX_BUSOFF_CNT x) + (if 255 < t then 1 else 0) ∧ OnlyCx x (cxDones x ++ cxRxCounts x ++ [CX_ERRFR_CNT x, CX_IDCLASH_CNT x, CX_BUSOFF_CNT x]) s.dev d)) ∧
    -- nothingSent
    (∀ (x code : Nat), (x < 8 ∧ code < 8 ∧ (cxOf s.dev x).busy = none) → exec (.cxTxComplete x code) s = .next s) ∧
    -- received
    (∀ (x f r : Nat) (fr : CanFrame) (c : Cx) (stride : Nat), (x < 8 ∧ clocked s.dev = true ∧ c = cxOf s.dev x ∧ c.st ≠ .stopped ∧ fr.fmt ≤ cxProto s.dev x ∧ c.tec ≤ 255) →
      ((f < 64 ∧ fltMatch s.dev x f fr = true ∧ (∀ g, g < f → fltMatch s.dev x g fr = false) ∧ r = fld (rd s.dev (CX_FLT_CTL x f)) 2 1) ∨ ((∀ g, g < 64 → fltMatch s.dev x g fr = false) ∧ cxCatchAll s.dev x = true ∧ f = 255 ∧ r = 3)) →
      (bit (rd s.dev (CX_RQ_CFG x r)) 0 = true ∧ stride = strideOf (rd s.dev (CX_RQ_CFG x r)) ∧ 32 + fr.data.length ≤ stride ∧ rd s.dev (CX_RQ_CNT x r) - rd s.dev (CX_RQ_ACK x r) ≠ 64) →
      Completes (.cxRxFrame x fr) s (fun d => rd d (CX_RQ_CNT x r) = rd s.dev (CX_RQ_CNT x r) + 1 ∧ d.sram = (sramPut s.dev (rdN s.dev (CX_RQ_BASE x r) + rdN s.dev (CX_RQ_CNT x r) % 64 * stride) (rxBytes fr f false)).sram
        ∧ OnlyCx x [CX_RQ_CNT x r] s.dev d ∧ (cxOf d x).tec = c.tec ∧ (¬(c.st = .active ∨ c.st = .passive) → cxOf d x = c)
        ∧ ((c.st = .active ∨ c.st = .passive) → (if 127 < c.rec_ then 119 ≤ (cxOf d x).rec_ ∧ (cxOf d x).rec_ ≤ 127 else (cxOf d x).rec_ = c.rec_ - 1) ∧ (cxOf d x).st = if 127 < c.tec then .passive else .active))) ∧
    -- notStored
    (∀ (x : Nat) (fr : CanFrame) (c : Cx), (x < 8 ∧ clocked s.dev = true ∧ c = cxOf s.dev x ∧ c.st ≠ .stopped ∧ c.st ≠ .active ∧ c.st ≠ .passive ∧ fr.fmt ≤ cxProto s.dev x) →
      ((∀ g, g < 64 → fltMatch s.dev x g fr = false) ∧ cxCatchAll s.dev x = false) →
      exec (.cxRxFrame x fr) s = .next { s with dev := bump s.dev (CX_NOMATCH_CNT x) }) ∧
    -- notReceived
    (∀ (x : Nat) (fr : CanFrame) (eight : Bool) (c : Instr), (x < 8 ∧ ((c = .cxRxFrame x fr ∧ ((cxOf s.dev x).st = .stopped ∨ cxProto s.dev x < fr.fmt)) ∨ (c = .cxBusError x eight ∧ (cxOf s.dev x).st = .stopped))) →
      exec c s = .next s) ∧
    -- busError
    (∀ (x t : Nat) (eight : Bool) (c : Cx), (x < 8 ∧ clocked s.dev = true ∧ c = cxOf s.dev x ∧ c.st ≠ .stopped ∧ c.tec ≤ 255 ∧ t = min 128 (c.rec_ + if eight then 8 else 1)) →
      Completes (.cxBusError x eight) s (fun d => rd d (CX_ERRFR_CNT x) = rd s.dev (CX_ERRFR_CNT x) + 1 ∧ OnlyCx x [CX_ERRFR_CNT x] s.dev d
        ∧ cxOf d x = if c.st = .active ∨ c.st = .passive then { c with rec_ := t, st := if 127 < c.tec ∨ 127 < t then .passive else .active } else c)) ∧
    -- released
    (∀ (x r n : Nat) (v : W32), (x < 8 ∧ r < 4 ∧ admits s.dev (.cx x) (0x1CC + 32 * r) = true ∧ n = (v - rd s.dev (CX_RQ_ACK x r)).toNat) →
      Completes (.cxRqAck x r v) s (fun d => if (rd s.dev (CX_RQ_CNT x r) - rd s.dev (CX_RQ_ACK x r)).toNat < n then d = err s.dev (.cx x) 5 (CX_RQ_ACK x r)
        else rd d (CX_RQ_ACK x r) = v ∧ OnlyCx x [CX_RQ_ACK x r] s.dev d ∧ cxOf d x = cxOf s.dev x)) ∧
    -- integrated
    (∀ (x : Nat) (c : Cx), (x < 8 ∧ clocked s.dev = true ∧ c = cxOf s.dev x ∧ c.st = .integrating ∧ c.tec ≤ 255) →
      Completes (.cxIntegrated x) s (Drained x (setCx s.dev x { c with st := if cxListen s.dev x = true ∨ authoritative s.dev = false then .monitor else if 127 < c.tec ∨ 127 < c.rec_ then .passive else .active }))) ∧
    -- recovered
    (∀ (x : Nat) (c : Cx), (x < 8 ∧ clocked s.dev = true ∧ c = cxOf s.dev x ∧ c.st = .recovering) →
      Completes (.cxRecovered x) s (Drained x (setCx s.dev x { c with st := .integrating, tec := 0, rec_ := 0, rcv := 128 }))) ∧
    -- otherState
    (∀ (x : Nat) (c : Instr), (x < 8 ∧ ((c = .cxIntegrated x ∧ (cxOf s.dev x).st ≠ .integrating) ∨ (c = .cxRecovered x ∧ (cxOf s.dev x).st ≠ .recovering))) → exec c s = .next s)

/-- Time base: SET, TB_INC and TB_CFG, PTP event frames and messages, holdover, switches of the steering domain and slews
(R355, R356, R357, R358, R360, R361, R362, R363, R364, R367, Table 14-2, 14 Time and Ethernet). SET waits for t0, where TB_NS
steps. TB_INC is written by the host only with PTP_EN = 0, on a module that follows no partner. TB_CFG selects the domain: a
switch is counted and slewed, never stepped. An event frame is counted and latched while its counter stood acknowledged. A
Sync moves its domain's lock and offset; of the domain that steers it acquires by a step or steers TB_INC or CLK_TRIM. A
timeout puts a domain into HOLDOVER; after 1 s of it the other one, LOCKED, is selected. A slew ends when less than 1 ns is
left. LOCKED is judged as log entry 61 says. What each leaves alone is stated with it. -/
def Obligations.TheTimeBaseIsSetSteeredAndSlewed : Prop :=
  ∀ s : State,
    -- set
    ((admits s.dev .tb 0x120 = true) → exec .tbSet s = .next { s with dev := setTb (issued s.dev .tb 0x120 1) { s.dev.tb with set := true } }) ∧
    -- setTakes
    (∀ (d : Dev), (d.tb.set = true ∧ d.tb.slew = none ∧ d.tb.pairStep = none) →
      tbNs (tbAtT0 d) = rd64 d TB_SET ∧ rd (tbAtT0 d) TB_FRAC = rd d TB_FRAC ∧ rdBit (tbAtT0 d) TB_STAT 2 = true ∧ rd (tbAtT0 d) TB_STEP_CNT = rd d TB_STEP_CNT + 1
        ∧ (tbAtT0 d).tb = { d.tb with set := false, pairSlew := none, phase := 0 } ∧ TbFormed (tbAtT0 d) ∧ OnlyTime [TB_NS, TB_NS + 4, TB_STAT, TB_STEP_CNT, TB_INC] d (tbAtT0 d)) ∧
    -- incWrite
    (∀ (v : W32), (admits s.dev .tb 0x108 = true ∧ ptpEn s.dev = false ∧ pairFollow s.dev = false ∧ 0x04FFAE15 ≤ v.toNat ∧ v.toNat ≤ 0x050051EB) →
      exec (.tbIncWrite v) s = .next { s with dev := wr (setTb s.dev { s.dev.tb with fpart := (v.toNat : Int) - incNominal, phase := 0 }) TB_INC v }) ∧
    -- incRefused
    (∀ (v : W32) (code : Nat), (admits s.dev .tb 0x108 = true ∧ (((ptpEn s.dev = true ∨ pairFollow s.dev = true) ∧ code = 6) ∨ (ptpEn s.dev = false ∧ pairFollow s.dev = false ∧ (v.toNat < 0x04FFAE15 ∨ 0x050051EB < v.toNat) ∧ code = 5))) →
      Completes (.tbIncWrite v) s (Refused .tb code TB_INC s.dev)) ∧
    -- selRefused
    (∀ (v : W32) (same : Bool) (code : Nat), (admits s.dev .tb 0x110 = true ∧ same = (!(ptpEn s.dev && bit v 0) || (v &&& 0x7F0018) == (rd s.dev TB_CFG &&& 0x7F0018))) →
      ((same = false ∧ code = 6) ∨ (same = true ∧ fld v 22 16 = 0 ∧ code = 7) ∨ (same = true ∧ 100 < fld v 22 16 ∧ code = 5) ∨ (same = true ∧ 1 ≤ fld v 22 16 ∧ fld v 22 16 ≤ 100 ∧ bit v 0 = true ∧ bit v 3 = false ∧ rdBit s.dev CLK_CTRL 0 = false ∧ code = 0x0E01)) →
      Completes (.tbSelWrite v) s (Refused .tb code TB_CFG s.dev)) ∧
    -- selSwitches
    (∀ (v : W32) (k : Nat), (admits s.dev .tb 0x110 = true ∧ ptpEn s.dev = true ∧ bit v 0 = true ∧ (v &&& 0x7F0018) = (rd s.dev TB_CFG &&& 0x7F0018) ∧ 1 ≤ fld v 22 16 ∧ fld v 22 16 ≤ 100) →
      ((bit v 3 = true ∨ rdBit s.dev CLK_CTRL 0 = true) ∧ k = fld v 1 1 ∧ k ≠ tbSelAct s.dev ∧ pairFollow s.dev = false) →
      Completes (.tbSelWrite v) s (fun e => rd e TB_CFG = v &&& 0x7F001F ∧ tbSelAct e = k ∧ rd e TB_SWITCH_CNT = rd s.dev TB_SWITCH_CNT + 1 ∧ rd e TB_UTC_OFS = (domOf s.dev k).utc
        ∧ SlewsTo k s.dev e ∧ TbFormed e ∧ OnlyTime [TB_CFG, TB_STAT, TB_UTC_OFS, TB_SWITCH_CNT, TB_INC] s.dev e)) ∧
    -- selStays
    (∀ (v : W32), (admits s.dev .tb 0x110 = true ∧ (!(ptpEn s.dev && bit v 0) || (v &&& 0x7F0018) == (rd s.dev TB_CFG &&& 0x7F0018)) = true ∧ 1 ≤ fld v 22 16 ∧ fld v 22 16 ≤ 100) →
      ((bit v 0 = false ∨ bit v 3 = true ∨ rdBit s.dev CLK_CTRL 0 = true) ∧ (ptpEn s.dev = false ∨ bit v 0 = false ∨ fld v 1 1 = tbSelAct s.dev) ∧ pairFollow s.dev = false) →
      Completes (.tbSelWrite v) s (fun e => rd e TB_CFG = v &&& 0x7F001F ∧ tbSelAct e = fld v 1 1 ∧ rdBit e TB_STAT 0 = bit v 0
        ∧ (rd e TB_UTC_OFS = if ptpEn s.dev = true ∧ bit v 0 = true then rd s.dev TB_UTC_OFS else (domOf s.dev (fld v 1 1)).utc)
        ∧ (if ptpEn s.dev = true ∧ bit v 0 = false then e.tb = { s.dev.tb with slew := none, pairSlew := none, phase := 0 } ∧ TbFormed e else e.tb = s.dev.tb ∧ rd e TB_INC = rd s.dev TB_INC)
        ∧ (ptpEn s.dev = false ∧ bit v 0 = true → ∀ n, n < 4 → fld (rd e (ethBase n + EVT_VEC)) 7 0 = 248 + 2 * n ∧ fld (rd e (ethBase n + EVT_VEC)) 15 8 = 249 + 2 * n)
        ∧ OnlyTime ([TB_CFG, TB_STAT, TB_UTC_OFS, TB_INC] ++ (if ptpEn s.dev = false ∧ bit v 0 = true then (List.range 4).map (fun n => ethBase n + EVT_VEC) else [])) s.dev e)) ∧
    -- event
    (∀ (n : Nat) (tx : Bool) (seq typ dn cnt ack info : Nat), (clocked s.dev = true ∧ n < 4 ∧ seq < 65536 ∧ typ < 16 ∧ dn < 256 ∧ ptpEn s.dev = true) →
      ((tx = true ∧ cnt = ETH_PTP_TX_CNT n ∧ ack = ETH_PTP_TX_ACK n ∧ info = ETH_PTP_TX_INFO n) ∨ (tx = false ∧ cnt = ETH_PTP_RX_CNT n ∧ ack = ETH_PTP_RX_ACK n ∧ info = ETH_PTP_RX_INFO n)) →
      Completes (.ptpEventFrame n tx seq typ dn) s (fun e => rd e cnt = rd s.dev cnt + 1 ∧ (rd s.dev cnt = rd s.dev ack → rd e info = w32 (seq + typ * 2 ^ 16 + dn * 2 ^ 24))
        ∧ (∀ k, k < 2 → rd e (TB_DOM_LOST_CNT k) = if rd s.dev cnt ≠ rd s.dev ack ∧ evDomain s.dev n dn = some k then rd s.dev (TB_DOM_LOST_CNT k) + 1 else rd s.dev (TB_DOM_LOST_CNT k))
        ∧ (∃ r, e = { s.dev with regs := r }) ∧ ∀ a, a ≠ cnt → (rd s.dev cnt = rd s.dev ack → a ≠ info) → a ≠ TB_DOM_LOST_CNT 0 → a ≠ TB_DOM_LOST_CNT 1 → rd e a = rd s.dev a)) ∧
    -- off
    (∀ (n : Nat) (tx : Bool) (seq typ dn k : Nat) (m : PtpMsg) (c : Instr), (n < 4 ∧ seq < 65536 ∧ typ < 16 ∧ dn < 256 ∧ k < 2 ∧ (clocked s.dev = false ∨ ptpEn s.dev = false ∨ domEn s.dev k = false)) →
      (c ∈ [.ptpMessageReceive k m, .announceTimeout k, .syncTimeout k] ∨ (c = .ptpEventFrame n tx seq typ dn ∧ (clocked s.dev = false ∨ ptpEn s.dev = false))) →
      exec c s = .next s) ∧
    -- announce
    (∀ (k : Nat) (m : PtpMsg), (clocked s.dev = true ∧ k < 2 ∧ ptpEn s.dev = true ∧ domEn s.dev k = true ∧ m.sync = false) →
      Completes (.ptpMessageReceive k m) s (fun e => rd e (TB_DOM_STAT k) = w32 (m.pstate % 16 + 16 * b2n (domLocked s.dev k) + 32 * b2n (domOf s.dev k).hoSync + m.steps % 256 * 256)
        ∧ rd64 e (TB_DOM_GMID k) = m.gmid % 2 ^ 64 ∧ (rd e TB_UTC_OFS = if k = tbSelAct s.dev then m.utc &&& 0x1FFFF else rd s.dev TB_UTC_OFS)
        ∧ e.tb = { s.dev.tb with doms := tset dom0 s.dev.tb.doms k { domOf s.dev k with hoAnn := false, utc := m.utc &&& 0x1FFFF } }
        ∧ OnlyTime [TB_DOM_STAT k, TB_DOM_GMID k, TB_DOM_GMID k + 4, TB_UTC_OFS] s.dev e)) ∧
    -- sync
    (∀ (k : Nat) (m : PtpMsg) (run : Nat) (now : Bool), (clocked s.dev = true ∧ k < 2 ∧ ptpEn s.dev = true ∧ domEn s.dev k = true ∧ m.sync = true ∧ (k ≠ tbSelAct s.dev ∨ pairFollow s.dev = true ∨ (domOf s.dev k).hoAnn = true)) →
      (run = (if (lockError s.dev k m).natAbs ≤ 100 then (domOf s.dev k).run + 1 else 0) ∧ now = (if (lockError s.dev k m).natAbs ≤ 100 ∧ 16 ≤ run then true else if 1000 < (lockError s.dev k m).natAbs then false else domLocked s.dev k)) →
      Completes (.ptpMessageReceive k m) s (fun e => rd64 e (TB_DOM_OFS k) = u64 m.offset ∧ rd e (TB_DOM_DELAY k) = w32 m.delay ∧ rd e (TB_DOM_FREQ k) = w32i m.freq
        ∧ domLocked e k = now ∧ domHold e k = (domOf s.dev k).hoAnn ∧ e.tb = { s.dev.tb with doms := tset dom0 s.dev.tb.doms k { domOf s.dev k with run := run, hoSync := false } }
        ∧ OnlyTime [TB_DOM_OFS k, TB_DOM_OFS k + 4, TB_DOM_DELAY k, TB_DOM_FREQ k, TB_DOM_STAT k] s.dev e)) ∧
    -- syncSteers
    (∀ (k : Nat) (m : PtpMsg) (run : Nat) (now acq : Bool), (clocked s.dev = true ∧ k < 2 ∧ ptpEn s.dev = true ∧ domEn s.dev k = true ∧ m.sync = true ∧ k = tbSelAct s.dev ∧ pairFollow s.dev = false ∧ (domOf s.dev k).hoAnn = false) →
      (run = (if (lockError s.dev k m).natAbs ≤ 100 then (domOf s.dev k).run + 1 else 0) ∧ now = (if (lockError s.dev k m).natAbs ≤ 100 ∧ 16 ≤ run then true else if 1000 < (lockError s.dev k m).natAbs then false else domLocked s.dev k)) →
      (acq = (now && !domLocked s.dev k && rdBit s.dev TB_CFG 4 && (!rdBit s.dev TB_STAT 2 || (s.dev.tb.vinResume && decide (1000000 < m.offset.natAbs))))) →
      Completes (.ptpMessageReceive k m) s (fun e => rd e (TB_DOM_DELAY k) = w32 m.delay ∧ rd e (TB_DOM_FREQ k) = w32i m.freq ∧ domLocked e k = now ∧ domHold e k = false
        ∧ (if acq = true then tbNs e = u64 ((tbNs s.dev : Int) + m.offset) ∧ rd64 e (TB_DOM_OFS k) = 0 ∧ rd e TB_STEP_CNT = rd s.dev TB_STEP_CNT + 1 ∧ rdBit e TB_STAT 2 = true ∧ e.tb.slew = none ∧ e.tb.phase = 0
          else rd64 e (TB_DOM_OFS k) = u64 m.offset ∧ tbNs e = tbNs s.dev ∧ rd e TB_STEP_CNT = rd s.dev TB_STEP_CNT
            ∧ (if rdBit s.dev TB_CFG 3 = true then e.tb.fpart = m.fpart ∧ rd e CLK_TRIM = rd s.dev CLK_TRIM else e.tb.fpart = 0 ∧ rd e CLK_TRIM = w32i (clampI (-2500000) 2500000 m.freq))
            ∧ (if s.dev.tb.slew = none then e.tb.slew = none ∧ e.tb.phase = clampI (-phaseMax s.dev) (phaseMax s.dev) m.phase
              else if m.offset = 0 then e.tb.slew = none ∧ e.tb.phase = 0 else e.tb.slew = some (m.offset * oneNs) ∧ e.tb.phase = if m.offset < 0 then -phaseMax s.dev else phaseMax s.dev))
        ∧ TbFormed e ∧ OnlyTime [TB_NS, TB_NS + 4, TB_INC, TB_STAT, TB_STEP_CNT, CLK_TRIM, CLK_STAT, TB_DOM_OFS k, TB_DOM_OFS k + 4, TB_DOM_DELAY k, TB_DOM_FREQ k, TB_DOM_STAT k] s.dev e)) ∧
    -- timeout
    (∀ (k : Nat) (c : Instr) (x : Dom), (clocked s.dev = true ∧ k < 2 ∧ ptpEn s.dev = true ∧ domEn s.dev k = true ∧ ((c = .announceTimeout k ∧ x = { domOf s.dev k with hoAnn := true }) ∨ (c = .syncTimeout k ∧ x = { domOf s.dev k with hoSync := true }))) →
      Completes c s (fun e => if domHold s.dev k = true then e = setDom s.dev k x
        else domLocked e k = false ∧ domHold e k = true ∧ domOf e k = { x with run := 0, holdAt := optMs s.dev } ∧ (∀ j, j ≠ k → domOf e j = domOf s.dev j)
          ∧ (if k = tbSelAct s.dev ∧ pairFollow s.dev = false then e.tb = { s.dev.tb with doms := e.tb.doms, slew := none, pairSlew := none, phase := 0 } ∧ TbFormed e else e.tb = { s.dev.tb with doms := e.tb.doms } ∧ rd e TB_INC = rd s.dev TB_INC)
          ∧ OnlyTime [TB_DOM_STAT k, TB_INC] s.dev e)) ∧
    -- auto
    (∀ (k : Nat) (due : Bool), (clocked s.dev = true ∧ k = tbSelAct s.dev ∧ due = (ptpEn s.dev && rdBit s.dev TB_CFG 2 && domHold s.dev k && decide ((domOf s.dev k).holdAt + 1000 ≤ optMs s.dev) && domEn s.dev (1 - k) && domLocked s.dev (1 - k))) →
      (pairFollow s.dev = false) →
      Completes .domainAutoSwitch s (fun e => if due = true then tbSelAct e = 1 - k ∧ rd e TB_SWITCH_CNT = rd s.dev TB_SWITCH_CNT + 1 ∧ rd e TB_UTC_OFS = (domOf s.dev (1 - k)).utc ∧ rd e TB_CFG = rd s.dev TB_CFG
          ∧ SlewsTo (1 - k) s.dev e ∧ TbFormed e ∧ OnlyTime [TB_STAT, TB_UTC_OFS, TB_SWITCH_CNT, TB_INC] s.dev e
        else e = s.dev)) ∧
    -- slewDone
    (∀ (r : Int), (s.dev.tb.slew = some r) →
      Completes .slewDone s (fun e => if -oneNs < r ∧ r < oneNs then e.tb = { s.dev.tb with slew := none, pairSlew := none, phase := 0 } ∧ TbFormed e ∧ OnlyTime [TB_INC] s.dev e else e = s.dev)) ∧
    -- slewNone
    ((s.dev.tb.slew = none) → exec .slewDone s = .next s)

/-- Ethernet ports: posts, transmissions, receptions, releases, gate lists, links and sequence recovery (R369, R370, R372,
R375, Table 14-4, Table 14-5, 14 Time and Ethernet). A post and a release move within their rings. The head frame of a ring
is sent through its open gate, and completes; one longer than every window completes with GATE_OVERRUN; what completes at
once behind it does. A received frame is counted, taken by the module, eliminated as a duplicate, or delivered to the ring of
its PCP, with its R-TAG removed. A gate list is committed, becomes operational at a cycle start 2 µs later at least, and
steps from entry to entry. A link goes up or down; a silent stream is released. What each leaves alone is stated with it. -/
def Obligations.EthernetPortsSendReceiveAndGate : Prop :=
  ∀ s : State,
    -- still
    (∀ (n q speed i : Nat) (b : Bool) (bs : List W8) (c : Instr), (n < 4 ∧ q < 4 ∧ clocked s.dev = false ∧ c ∈ [.ethTxComplete n q b, .ethRxFrame n bs b, .gclCycleStart n, .gclEntryChange n]) → exec c s = .next s) ∧
    -- post
    (∀ (n q : Nat) (v : W32), (n < 4 ∧ q < 4 ∧ admits s.dev (.eth n) (0x148 + 32 * q) = true) →
      Completes (.ethTxPost n q v) s (fun e => if etqLen s.dev n q < (v - rd s.dev (ETH_TQ_DONE n q)).toNat then e = err s.dev (.eth n) 5 (ETH_TQ_POST n q) else EthDrained n q (wr s.dev (ETH_TQ_POST n q) v) e)) ∧
    -- sent
    (∀ (n q : Nat) (bs : List W8) (x : Eth), (n < 4 ∧ q < 4 ∧ clocked s.dev = true ∧ 0 < etqOut s.dev n q ∧ etqDead s.dev n q = none ∧ (gates s.dev n).testBit (sramNum s.dev (etqHead s.dev n q + 2) 1 % 8) = true) →
      (bs = mbytes s.dev.sram (etqHead s.dev n q + 16) (sramNum s.dev (etqHead s.dev n q) 2) ∧ x = { ethOf s.dev n with sent := (ethOf s.dev n).sent ++ [bs ++ List.replicate (60 - bs.length) 0] }) →
      Completes (.ethTxComplete n q false) s (EthCompleted n q 0 (setEth s.dev n x))) ∧
    -- overrun
    (∀ (n q : Nat), (n < 4 ∧ q < 4 ∧ clocked s.dev = true ∧ 0 < etqOut s.dev n q ∧ etqDead s.dev n q = none ∧ gclEn s.dev n = true ∧ (ethOf s.dev n).oper.isSome = true) →
      Completes (.ethTxComplete n q true) s (EthCompleted n q 4 s.dev)) ∧
    -- unsent
    (∀ (n q : Nat) (b : Bool), (n < 4 ∧ q < 4 ∧ (etqOut s.dev n q = 0 ∨ (etqDead s.dev n q).isSome = true ∨ (b = true ∧ (gclEn s.dev n = false ∨ (ethOf s.dev n).oper = none)) ∨ (b = false ∧ (gates s.dev n).testBit (sramNum s.dev (etqHead s.dev n q + 2) 1 % 8) = false))) →
      exec (.ethTxComplete n q b) s = .next s) ∧
    -- deaf
    (∀ (n : Nat) (bs : List W8) (b : Bool), (n < 4 ∧ (ethEn s.dev n = false ∨ ethLink s.dev n = false)) → exec (.ethRxFrame n bs b) s = .next s) ∧
    -- bad
    (∀ (n : Nat) (bs : List W8) (b : Bool), (n < 4 ∧ clocked s.dev = true ∧ ethEn s.dev n = true ∧ ethLink s.dev n = true ∧ (b = true ∨ bs.length < 60 ∨ 2044 < bs.length)) →
      exec (.ethRxFrame n bs b) s = .next { s with dev := bump s.dev (ETH_ERR_CNT n) }) ∧
    -- received
    (∀ (n : Nat) (bs plain : List W8) (o tci r : Nat) (m : Dev), (n < 4 ∧ clocked s.dev = true ∧ ethEn s.dev n = true ∧ ethLink s.dev n = true ∧ 60 ≤ bs.length ∧ bs.length ≤ 2044) →
      ((o, tci, r) = (if beNum bs 12 2 = 0x8100 then (16, beNum bs 14 2, fld (rd s.dev (ETH_RXMAP n)) (2 * (beNum bs 14 2 / 8192) + 1) (2 * (beNum bs 14 2 / 8192))) else (12, 0, 0))) →
      ((beNum bs o 2 ≠ 0xF1C1 ∧ plain = bs ∧ m = s.dev) ∨ (beNum bs o 2 = 0xF1C1 ∧ plain = bs.take o ++ bs.drop (o + 6) ∧ cbRecover s.dev n (beNum bs 6 6) (beNum bs 0 6) (tci % 4096) (beNum bs (o + 4) 2) = (m, true))) →
      Completes (.ethRxFrame n bs false) s (fun e => if beNum plain o 2 = 0x8808 then e = bump m (ETH_ERR_CNT n)
        else if ptpFrame s.dev n (beNum plain o 2) (plain.drop (o + 2)) = true ∨ safeFrameOf s.dev n (beNum plain o 2) = true then e = m else EthDelivered n r plain m e)) ∧
    -- eliminated
    (∀ (n : Nat) (bs : List W8) (o tci : Nat) (m : Dev), (n < 4 ∧ clocked s.dev = true ∧ ethEn s.dev n = true ∧ ethLink s.dev n = true ∧ 60 ≤ bs.length ∧ bs.length ≤ 2044 ∧ (o, tci) = (if beNum bs 12 2 = 0x8100 then (16, beNum bs 14 2) else (12, 0))) →
      (beNum bs o 2 = 0xF1C1 ∧ beNum (bs.take o ++ bs.drop (o + 6)) o 2 ≠ 0x8808 ∧ cbRecover s.dev n (beNum bs 6 6) (beNum bs 0 6) (tci % 4096) (beNum bs (o + 4) 2) = (m, false)) →
      exec (.ethRxFrame n bs false) s = .next { s with dev := m }) ∧
    -- recovery
    (∀ (n src dst vid seq : Nat) (live : List CbStream), (live = (ethOf s.dev n).streams.filter (fun t => decide (optMs s.dev < t.last + rdN s.dev (ETH_CB_RESET n)))) →
      (∀ t, live.find? (fun t => t.src == src && t.dst == dst && t.vid == vid) = some t →
        (sgn 16 (seq + 65536 - t.seq) ≥ 32 ∨ sgn 16 (seq + 65536 - t.seq) ≤ -32 → (cbRecover s.dev n src dst vid seq).2 = false ∧ rd (cbRecover s.dev n src dst vid seq).1 (ETH_CB_ROGUE_CNT n) = rd s.dev (ETH_CB_ROGUE_CNT n) + 1)
        ∧ (∀ i : Nat, i < 32 → sgn 16 (seq + 65536 - t.seq) = -(i : Int) → (cbRecover s.dev n src dst vid seq).2 = !t.hist.testBit i ∧ rd (cbRecover s.dev n src dst vid seq).1 (ETH_CB_ROGUE_CNT n) = rd s.dev (ETH_CB_ROGUE_CNT n))
        ∧ (0 < sgn 16 (seq + 65536 - t.seq) ∧ sgn 16 (seq + 65536 - t.seq) < 32 → (cbRecover s.dev n src dst vid seq).2 = true))
      ∧ (live.find? (fun t => t.src == src && t.dst == dst && t.vid == vid) = none → (cbRecover s.dev n src dst vid seq).2 = true
        ∧ (if 64 ≤ live.length then (ethOf (cbRecover s.dev n src dst vid seq).1 n).streams = live ∧ rd (cbRecover s.dev n src dst vid seq).1 (ETH_CB_FULL_CNT n) = rd s.dev (ETH_CB_FULL_CNT n) + 1
          else cbRecover s.dev n src dst vid seq = (setEth s.dev n { ethOf s.dev n with streams := live ++ [⟨src, dst, vid, seq, 1, optMs s.dev⟩] }, true)))
      ∧ OnlyEth n [ETH_CB_ROGUE_CNT n, ETH_CB_FULL_CNT n] s.dev (cbRecover s.dev n src dst vid seq).1) ∧
    -- released
    (∀ (n r : Nat) (v : W32) (k : Nat), (n < 4 ∧ r < 4 ∧ admits s.dev (.eth n) (0x1CC + 32 * r) = true ∧ k = (v - rd s.dev (ETH_RQ_ACK n r)).toNat) →
      Completes (.ethRqAck n r v) s (fun e => if (rd s.dev (ETH_RQ_CNT n r) - rd s.dev (ETH_RQ_ACK n r)).toNat < k then e = err s.dev (.eth n) 5 (ETH_RQ_ACK n r)
        else rd e (ETH_RQ_ACK n r) = v ∧ OnlyEth n [ETH_RQ_ACK n r] s.dev e ∧ ethOf e n = ethOf s.dev n)) ∧
    -- commit
    (∀ (n : Nat) (g : Gcl), (n < 4 ∧ admits s.dev (.eth n) 0x310 = true ∧ rdN s.dev (ETH_GCL_LEN n) ≠ 0 ∧ rdN s.dev (ETH_GCL_CYCLE n) ≠ 0) →
      (g = ⟨rd64 s.dev (ETH_GCL_BASE n), rdN s.dev (ETH_GCL_CYCLE n), (List.range (rdN s.dev (ETH_GCL_LEN n))).map (fun i => (fld (rd s.dev (ETH_GCL n i)) 7 0, fld (rd s.dev (ETH_GCL n i)) 31 8))⟩) →
      Completes (.ethGclCommit n) s (fun e => ethOf e n = { ethOf s.dev n with pend := some g, pendAt := tbNs s.dev } ∧ rd e (ETH_STAT n) = putBit (rd s.dev (ETH_STAT n)) 3 true ∧ OnlyEth n [ETH_GCL_COMMIT n, ETH_STAT n] s.dev e)) ∧
    -- commitRefused
    (∀ (n : Nat), (n < 4 ∧ admits s.dev (.eth n) 0x310 = true ∧ (rdN s.dev (ETH_GCL_LEN n) = 0 ∨ rdN s.dev (ETH_GCL_CYCLE n) = 0)) →
      Completes (.ethGclCommit n) s (Refused (.eth n) 7 (ETH_GCL_COMMIT n) s.dev)) ∧
    -- cycle
    (∀ (n : Nat) (x : Eth), (n < 4 ∧ clocked s.dev = true ∧ x = ethOf s.dev n) → Completes (.gclCycleStart n) s (fun e => match x.pend with
        | some g => if g.base ≤ tbNs s.dev ∧ x.pendAt + 2000 ≤ tbNs s.dev then e = wrBit (setEth s.dev n { x with pend := none, oper := some g, entry := 0, hold := false }) (ETH_STAT n) 3 false
          else if x.oper.isSome then e = setEth s.dev n { x with entry := 0, hold := false } else e = s.dev
        | none => if x.oper.isSome then e = setEth s.dev n { x with entry := 0, hold := false } else e = s.dev)) ∧
    -- entry
    (∀ (n : Nat) (x : Eth) (g : Gcl), (n < 4 ∧ clocked s.dev = true ∧ x = ethOf s.dev n ∧ x.oper = some g) →
      exec (.gclEntryChange n) s = .next { s with dev := if x.hold = false ∧ x.entry + 1 < g.ents.length then setEth s.dev n { x with entry := x.entry + 1 } else s.dev }) ∧
    -- noList
    (∀ (n : Nat), (n < 4 ∧ (ethOf s.dev n).oper = none) → exec (.gclEntryChange n) s = .next s) ∧
    -- linkUp
    (∀ (n speed : Nat), (n < 4 ∧ 1 ≤ speed ∧ speed ≤ 3) →
      exec (.ethLinkChange n speed) s = .next { s with dev := if ethEn s.dev n = true ∧ rdBit s.dev (ETH_CFG n) (speed - 1) = true then wrFld s.dev (ETH_STAT n) 2 0 (1 + 2 * speed) else s.dev }) ∧
    -- linkDown
    (∀ (n : Nat), (n < 4) →
      Completes (.ethLinkChange n 0) s (fun e => ∃ d0 d1 d2, EthDrained n 0 (wrFld s.dev (ETH_STAT n) 2 0 0) d0 ∧ EthDrained n 1 d0 d1 ∧ EthDrained n 2 d1 d2 ∧ EthDrained n 3 d2 e)) ∧
    -- silent
    (∀ (n i : Nat) (t : CbStream), (n < 4 ∧ i < 64 ∧ (ethOf s.dev n).streams[i]? = some t) →
      exec (.cbStreamReset n i) s = .next { s with dev := if t.last + rdN s.dev (ETH_CB_RESET n) ≤ optMs s.dev then setEth s.dev n { ethOf s.dev n with streams := (ethOf s.dev n).streams.eraseIdx i } else s.dev }) ∧
    -- noStream
    (∀ (n i : Nat), (n < 4 ∧ i < 64 ∧ (ethOf s.dev n).streams[i]? = none) → exec (.cbStreamReset n i) s = .next s)

/-- Daybook and trace: reports, commits, tokens, clears, application records, trace commands, freezes, releases, transfers
(R380, R384, R385, R386, R387, R390, R391, R398, R399, R400, R401, R403). A report takes a token and is staged, or is
suppressed; the writer commits the head of staging to the running and founding areas; a bucket gains tokens; CLEAR is checked
and staged, and carried out; APP_PUT is checked. START checks the load and runs; STOP, TRIGGER, UNFREEZE, XFER and RESET_RING
act or are refused by the trace's state; a release ends at a packet's end; a copy moves both positions; a transfer and a
freeze conclude. The source of TRIGGER is 388 (log entry 62). What each leaves alone is stated with it. -/
def Obligations.RecordsAreStagedAndTheTraceRuns : Prop :=
  ∀ s : State,
    -- report
    (∀ (typ src : Nat) (pay : List W32) (b : DbBody), (typ < 65536 ∧ src < 4096 ∧ pay.length ≤ 250 ∧ s.dev.db.supp = [] ∧ b = bodyNow s.dev typ (sevOf typ) src pay) →
      Completes (.daybookReport typ src pay) s (fun e => Recorded s.dev e
        ∧ (rd e TR_TRIG_CNT = if (match trClass typ pay with | some c => rdBit s.dev TR_TRIG_EN c | none => false) = true then rd s.dev TR_TRIG_CNT + 1 else rd s.dev TR_TRIG_CNT)
        ∧ (s.dev.db.writerUp = true ∧ (bypasses s.dev src (sevOf typ) = true ∨ 0 < tokens s.dev src) ∧ s.dev.db.staging.length < 256 → e.db = { s.dev.db with staging := s.dev.db.staging ++ [.record b], spent := tokenTaken s.dev src (sevOf typ) })
        ∧ (s.dev.db.writerUp = true ∧ bypasses s.dev src (sevOf typ) = false ∧ tokens s.dev src = 0 → e.db = { s.dev.db with supp := tset noSupp [] src ⟨1, b.opt, b.opt, b.sev, true, false⟩ } ∧ rd e DB_SUP_CNT = rd s.dev DB_SUP_CNT + 1)
        ∧ (s.dev.db.writerUp = false ∧ s.dev.db.intake.length < 32 → e.db = { s.dev.db with intake := s.dev.db.intake ++ [b] })
        ∧ (s.dev.db.writerUp = false ∧ 32 ≤ s.dev.db.intake.length → e.db = { s.dev.db with supp := tset noSupp [] src ⟨1, b.opt, b.opt, b.sev, false, true⟩ } ∧ rd e DB_SUP_CNT = rd s.dev DB_SUP_CNT + 1))) ∧
    -- commit
    (∀ (b : DbBody) (t : List DbEntry) (seq p : Nat) (bs : List W8) (kept : List DbRec), (s.dev.db.staging = .record b :: t ∧ s.dev.db.writerUp = true ∧ s.dev.db.supp = [] ∧ seq = (rdN s.dev DB_SEQ + 1) % 2 ^ 32 ∧ bs = recBytes b seq s.dev.db.firstSeq) →
      (p = (if runEnd < rdN s.dev DB_RUN_HEAD + bs.length + 4 then 0x40 else rdN s.dev DB_RUN_HEAD) ∧ kept = discardTail p (bs.length + 4) s.dev.db.running) →
      ∃ e, exec .recordCommit s = .next { s with vault := fndAppend s.vault seq bs, dev := e } ∧ e.db = { s.dev.db with staging := t, running := kept ++ [⟨p, seq, bs⟩], firstSeq := if b.part = none then seq else s.dev.db.firstSeq }
        ∧ rdN e DB_SEQ = seq ∧ rd e DB_RUN_HEAD = w32 (p + bs.length) ∧ rd e DB_RUN_TAIL = w32 (match kept with | r :: _ => r.off | [] => p) ∧ rd e DB_REC_CNT = rd s.dev DB_REC_CNT + 1
        ∧ rd e DB_CRIT_CNT = (if b.sev = 15 then rd s.dev DB_CRIT_CNT + 1 else rd s.dev DB_CRIT_CNT) ∧ (∀ i, i < bs.length → mrd e.mram (runBase + p + i) = bs.getD i 0)
        ∧ e = { s.dev with regs := e.regs, db := e.db, mram := e.mram } ∧ ∀ a, a ∉ [DB_SEQ, DB_RUN_HEAD, DB_RUN_TAIL, DB_REC_CNT, DB_CRIT_CNT] → rd e a = rd s.dev a) ∧
    -- clear
    (∀ (g k q seq : Nat) (r : W32) (t : List DbEntry) (bs : List W8) (pay : List W32), (s.dev.db.staging = .clear g k r q :: t ∧ s.dev.db.writerUp = true ∧ seq = (rdN s.dev DB_SEQ + 1) % 2 ^ 32 ∧ bs.length + 0x44 ≤ runEnd) →
      (pay = [rd s.dev DB_GEN, w32 g, w32 s.dev.db.running.length, w32 ((s.dev.db.running.map (·.seq)).headD 0), w32 ((s.dev.db.running.map (·.seq)).getLastD 0)] ++ pay64 k ++ [r] ++ pay64 q ∧ bs = recBytes (bodyNow s.dev 0x0F01 6 0x202 pay) seq s.dev.db.firstSeq) →
      ∃ e, exec .clearExecute s = .next { s with vault := fndAppend s.vault seq bs, dev := e } ∧ e.db = { s.dev.db with staging := t, running := [⟨0x40, seq, bs⟩], firstSeq := seq }
        ∧ rd e DB_GEN = w32 g ∧ rdN e DB_SEQ = seq ∧ rd e DB_RUN_TAIL = 0x40 ∧ rd e DB_RUN_HEAD = w32 (0x40 + bs.length)
        ∧ e = { s.dev with regs := e.regs, db := e.db, mram := e.mram } ∧ ∀ a, a ∉ [DB_GEN, DB_SEQ, DB_RUN_HEAD, DB_RUN_TAIL, DB_REC_CNT] → rd e a = rd s.dev a) ∧
    -- nothingToWrite
    (∀ (c : Instr), ((s.dev.db.writerUp = false ∧ c ∈ [.recordCommit, .clearExecute]) ∨ (s.dev.db.staging = [] ∧ c ∈ [.recordCommit, .clearExecute])) → exec c s = .next s) ∧
    -- token
    (∀ (src : Nat) (d : Dev), (src < 4096 ∧ rateOf s.dev src ≠ 0 ∧ optMs s.dev % (1000 / rateOf s.dev src) = 0 ∧ tget 0 s.dev.db.gained src ≠ optMs s.dev + 1) →
      (d = setDb s.dev { s.dev.db with spent := tset 0 s.dev.db.spent src (tget 0 s.dev.db.spent src - 1), gained := tset 0 s.dev.db.gained src (optMs s.dev + 1) }) →
      Completes (.tokenGain src) s (fun e => if s.dev.db.writerUp = true ∧ (tget noSupp s.dev.db.supp src).count ≠ 0 ∧ s.dev.db.staging.length < 192 ∧ (src = 0x202 ∨ 0 < tokens d src) then
          e.db = { d.db with supp := tset noSupp d.db.supp src noSupp, spent := if src = 0x202 then d.db.spent else tset 0 d.db.spent src (tget 0 d.db.spent src + 1), staging := s.dev.db.staging ++ [.record (bodyNow s.dev 0x0F00 (tget noSupp s.dev.db.supp src).sev src (summaryPay (tget noSupp s.dev.db.supp src)))] }
            ∧ OnlyDb [] s.dev e
        else e = d)) ∧
    -- noToken
    (∀ (src : Nat), (src < 4096 ∧ (rateOf s.dev src = 0 ∨ optMs s.dev % (1000 / rateOf s.dev src) ≠ 0 ∨ tget 0 s.dev.db.gained src = optMs s.dev + 1)) →
      exec (.tokenGain src) s = .next s) ∧
    -- clearing
    (∀ (who : Nat) (c : Instr), (who < 9 ∧ admits s.dev .db 0x140 = true ∧ clearing s.dev = true ∧ c ∈ [.dbNop, .dbClear, .dbAppPut who]) →
      Completes c s (Refused .db 0x0F01 DB_CMD s.dev)) ∧
    -- dbNop
    ((admits s.dev .db 0x140 = true ∧ clearing s.dev = false) → exec .dbNop s = .next { s with dev := wrN (issued s.dev .db 0x140 0) DB_RES 0 }) ∧
    -- clearCheck
    (∀ (len addr res : Nat) (bs body : List W8), (admits s.dev .db 0x140 = true ∧ clearing s.dev = false ∧ len = rdN s.dev DB_CLR_LEN ∧ addr = rdN s.dev DB_CLR_ADDR ∧ bs = sramCopy s.dev addr len ∧ body = bodyOf bs) →
      (res = (if len = 0 then 1 else if containerCheck s.dev bs 6 (sramLen s.dev addr len) = 1 then 1 else if containerCheck s.dev bs 6 (sramLen s.dev addr len) = 2 then 2 else if containerCheck s.dev bs 6 (sramLen s.dev addr len) = 3 then 3
    else if body.length ≠ 64 ∨ num body 0 4 ≠ 0x54434244 ∨ num body 4 2 ≠ 1 ∨ zeros body 6 2 = false ∨ zeros body 0x20 32 = false then 4 else if num body 8 8 ≠ s.vault.serial then 5
    else if num body 0x10 4 ≠ (rdN s.dev DB_GEN + 1) % 2 ^ 32 then 6 else if 256 ≤ s.dev.db.staging.length then 0x0A else 0)) →
      Completes .dbClear s (fun e => rd e DB_RES = w32 res ∧ OnlyDb [DB_CMD, DB_RES] s.dev e
        ∧ e.db = if res = 0 then { s.dev.db with staging := s.dev.db.staging ++ [.clear (num body 0x10 4) (num bs 0x10 8) (w32 (num body 0x14 4)) (num body 0x18 8)] } else s.dev.db)) ∧
    -- appPut
    (∀ (who len typ sev : Nat) (pay : List W32) (b : DbBody), (who < 9 ∧ admits s.dev .db 0x140 = true ∧ clearing s.dev = false ∧ s.dev.db.supp = [] ∧ len = fld (rd s.dev DB_APP_LEN) 10 0 ∧ typ = fld (rd s.dev DB_APP_HDR) 14 0 ∧ sev = fld (rd s.dev DB_APP_HDR) 19 16) →
      (pay = ((List.range 250).map (fun i => rd s.dev (DB_APP_DATA i))).take ((len - 24) / 4) ∧ b = bodyNow s.dev typ sev (0x300 + who) pay) →
      Completes (.dbAppPut who) s (fun e => if len < 24 ∨ 1024 < len ∨ len % 4 ≠ 0 then e = bump (wrN (issued s.dev .db 0x140 2) DB_RES 7) DB_REJ_CNT
        else if typ < 0x7000 ∨ sev = 15 then e = bump (wrN (issued s.dev .db 0x140 2) DB_RES 8) DB_REJ_CNT
        else rd e DB_RES = (if taken s.dev b then 0 else 9) ∧ OnlyDb [DB_CMD, DB_RES, DB_SUP_CNT] s.dev e
          ∧ (taken s.dev b = true ∧ s.dev.db.writerUp = true ∧ s.dev.db.staging.length < 256 → e.db = { s.dev.db with staging := s.dev.db.staging ++ [.record b], spent := tokenTaken s.dev (0x300 + who) sev }))) ∧
    -- start
    ((admits s.dev .tr 0x104 = true ∧ s.dev.tr.state = .stopped ∧ trEntries s.dev ≤ 8192 ∧ (trBytesPerS s.dev).1 ≤ 2000000000 * (trBytesPerS s.dev).2) →
      ((∀ l ∈ trLists s.dev, packetLen (trPack s.dev l) (trCount s.dev l) ≤ 65536 ∧ trFirst s.dev l + trCount s.dev l ≤ 8192) ∧ (rdBit s.dev TR_CFG 0 = false ∨ trDmaOk s.dev = true)) →
      Completes .trStart s (fun e => e.tr.state = .running ∧ e.tr.opens = [] ∧ (∀ l ∈ trLists s.dev, tget false e.tr.gap l = true) ∧ e.tr.streaming = rdBit s.dev TR_CFG 0 ∧ e.tr.dmaRel = 0 ∧ rd64 e TR_DMA_POS = 0
        ∧ e.tr.pkts = s.dev.tr.pkts ∧ e.tr.protect = s.dev.tr.protect ∧ OnlyTrace [TR_CMD, TR_DMA_POS, TR_DMA_POS + 4] s.dev e)) ∧
    -- startRefused
    (∀ (code : Nat), (admits s.dev .tr 0x104 = true) →
      ((code = 0x1003 ∧ s.dev.tr.state ≠ .stopped) ∨ (code = 0x1001 ∧ s.dev.tr.state = .stopped ∧ (8192 < trEntries s.dev ∨ 2000000000 * (trBytesPerS s.dev).2 < (trBytesPerS s.dev).1))
    ∨ (s.dev.tr.state = .stopped ∧ trEntries s.dev ≤ 8192 ∧ (trBytesPerS s.dev).1 ≤ 2000000000 * (trBytesPerS s.dev).2 ∧ ((code = 0x1002 ∧ ∃ l ∈ trLists s.dev, 65536 < packetLen (trPack s.dev l) (trCount s.dev l) ∨ 8192 < trFirst s.dev l + trCount s.dev l)
      ∨ (code = 0x1005 ∧ (∀ l ∈ trLists s.dev, packetLen (trPack s.dev l) (trCount s.dev l) ≤ 65536 ∧ trFirst s.dev l + trCount s.dev l ≤ 8192) ∧ rdBit s.dev TR_CFG 0 = true ∧ trDmaOk s.dev = false)))) →
      Completes .trStart s (Refused .tr code TR_CMD s.dev)) ∧
    -- stop
    ((admits s.dev .tr 0x104 = true ∧ s.dev.tr.state = .running) →
      Completes .trStop s (fun e => e.tr.state = .stopped ∧ e.tr.opens = [] ∧ OnlyTrace (TR_CMD :: packetRegs s.dev) s.dev e)) ∧
    -- stopFreeze
    ((admits s.dev .tr 0x104 = true ∧ s.dev.tr.state = .freezing) →
      Completes .trStop s (fun e => Frozen s.dev e ∧ OnlyTrace ([TR_CMD, TR_FRZ_END, TR_FRZ_END + 4] ++ packetRegs s.dev) s.dev e)) ∧
    -- notNow
    (∀ (c : Instr), (admits s.dev .tr 0x104 = true ∧ ((c = .trStop ∧ (s.dev.tr.state = .stopped ∨ s.dev.tr.state = .frozen)) ∨ (c = .trUnfreeze ∧ s.dev.tr.state ≠ .frozen) ∨ (c = .trResetRing ∧ s.dev.tr.state ≠ .stopped) ∨ (c = .trXfer ∧ (rdBit s.dev TR_CFG 0 = true ∨ s.dev.tr.xferBusy = true)))) →
      Completes c s (Refused .tr 0x1003 TR_CMD s.dev)) ∧
    -- trigger
    (∀ (d : Dev) (pre post : Nat), (admits s.dev .tr 0x104 = true ∧ d = issued s.dev .tr 0x104 3 ∧ pre = fld (rd s.dev TR_FRZ_CFG) 10 0 ∧ post = fld (rd s.dev TR_FRZ_CFG) 26 16) →
      Completes .trTrigger s (fun e => if rdBit s.dev TR_TRIG_EN 0 = false then e = d else rd e TR_TRIG_CNT = rd s.dev TR_TRIG_CNT + 1
        ∧ OnlyTrace [TR_CMD, TR_TRIG_CNT, TR_FRZ_BP, TR_FRZ_BP + 4, TR_FRZ_INFO, TR_FRZ_START, TR_FRZ_START + 4] s.dev e
        ∧ (if s.dev.tr.state = .running ∧ pre ≠ 0 then e.tr = { s.dev.tr with state := .freezing, protect := true, post := post } ∧ rd64 e TR_FRZ_BP = bp s.dev ∧ rd e TR_FRZ_INFO = w32 (1 + 388 * 0x10000)
            ∧ rd64 e TR_FRZ_START = (match s.dev.tr.pkts.find? (fun p => p.list != 255 && decide (bp s.dev ≤ p.lastBp + 100 * pre)) with | some p => p.pos % 2 ^ 64 | none => rd64 s.dev TR_WR_POS)
          else e.tr = s.dev.tr ∧ rd64 e TR_FRZ_BP = rd64 s.dev TR_FRZ_BP))) ∧
    -- unfreeze
    ((admits s.dev .tr 0x104 = true ∧ s.dev.tr.state = .frozen) →
      exec .trUnfreeze s = .next { s with dev := { issued s.dev .tr 0x104 4 with tr := { s.dev.tr with state := .stopped, protect := false } } }) ∧
    -- resetRing
    ((admits s.dev .tr 0x104 = true ∧ s.dev.tr.state = .stopped) →
      exec .trResetRing s = .next { s with dev := { wr64 (wr64 (issued s.dev .tr 0x104 6) TR_WR_POS 0) TR_RD_POS 0 with tr := { s.dev.tr with protect := false, pkts := [] } } }) ∧
    -- xfer
    (∀ (src len res : Nat), (admits s.dev .tr 0x104 = true ∧ rdBit s.dev TR_CFG 0 = false ∧ s.dev.tr.xferBusy = false ∧ src = rd64 s.dev TR_XFER_SRC ∧ len = rdN s.dev TR_XFER_LEN) →
      (res = (if len = 0 then 1 else if src < (if s.dev.tr.protect then rd64 s.dev TR_FRZ_START else rd64 s.dev TR_RD_POS) ∨ rd64 s.dev TR_WR_POS < src + len ∨ len % 8 ≠ 0 then 2 else 0)) →
      Completes .trXfer s (fun e => if res = 0 then e = { issued s.dev .tr 0x104 5 with tr := { s.dev.tr with xferBusy := true, xferOver := false } }
        else rd e TR_XFER_RES = w32 res ∧ rd e TR_XFER_CNT = rd s.dev TR_XFER_CNT + 1 ∧ e.tr = { s.dev.tr with xferBusy := false, xferOver := false } ∧ OnlyTrace [TR_CMD, TR_XFER_RES, TR_XFER_CNT] s.dev e)) ∧
    -- xferDone
    ((s.dev.tr.xferBusy = true ∧ s.dev.evr.linkUp = true) →
      Completes .xferDone s (fun e => rd e TR_XFER_RES = (if s.dev.tr.xferOver then 3 else 0) ∧ rd e TR_XFER_CNT = rd s.dev TR_XFER_CNT + 1 ∧ e.tr = { s.dev.tr with xferBusy := false, xferOver := false } ∧ OnlyTrace [TR_XFER_RES, TR_XFER_CNT] s.dev e)) ∧
    -- xferNone
    ((s.dev.tr.xferBusy = false ∨ s.dev.evr.linkUp = false) → exec .xferDone s = .next s) ∧
    -- freezeEnd
    ((s.dev.tr.state = .freezing ∧ rd64 s.dev TR_FRZ_BP + 100 * s.dev.tr.post ≤ bp s.dev) →
      Completes .freezeEnd s (fun e => Frozen s.dev e ∧ OnlyTrace ([TR_FRZ_END, TR_FRZ_END + 4] ++ packetRegs s.dev) s.dev e)) ∧
    -- freezeRuns
    ((s.dev.tr.state ≠ .freezing ∨ bp s.dev < rd64 s.dev TR_FRZ_BP + 100 * s.dev.tr.post) → exec .freezeEnd s = .next s) ∧
    -- release
    (∀ (v : W32) (stop : Nat), (admits s.dev .tr 0x120 = true ∧ stop = (match s.dev.tr.pkts.find? (fun p => decide (p.pos < rd64 s.dev TR_RD_POS + v.toNat) && decide (rd64 s.dev TR_RD_POS + v.toNat ≤ p.pos + p.len)) with | some p => p.pos + p.len | none => rd64 s.dev TR_RD_POS + v.toNat)) →
      Completes (.trRelease v) s (fun e => if rdBit s.dev TR_CFG 0 = true then Refused .tr 6 TR_RD_REL s.dev e else if rd64 s.dev TR_WR_POS < rd64 s.dev TR_RD_POS + v.toNat then Refused .tr 5 TR_RD_REL s.dev e
        else if v = 0 then e = s.dev else e = wr64 s.dev TR_RD_POS stop)) ∧
    -- copy
    (∀ (n k : Nat), (s.dev.tr.streaming = true ∧ rdBit s.dev TR_CFG 0 = true ∧ s.dev.evr.linkUp = true ∧ k = min n (min 65536 (min (rd64 s.dev TR_WR_POS - rd64 s.dev TR_RD_POS) (rdN s.dev TR_DMA_SIZE - (rd64 s.dev TR_DMA_POS - s.dev.tr.dmaRel))))) →
      exec (.trDmaCopy n) s = .next { s with dev := wr64 (wr64 s.dev TR_RD_POS (rd64 s.dev TR_RD_POS + k)) TR_DMA_POS (rd64 s.dev TR_DMA_POS + k) }) ∧
    -- noCopy
    (∀ (n : Nat), (s.dev.tr.streaming = false ∨ rdBit s.dev TR_CFG 0 = false ∨ s.dev.evr.linkUp = false) → exec (.trDmaCopy n) s = .next s)

/-- Thread operations: yield, block, exit, dispatch, wake, create, suspend, resume, destroy, tokens, patience, the descriptor
window (R408, R409, R410, R411, R412, R413, R414, R415, R416). An operation of a core that is not halted takes its effect:
YIELD, BLOCK and EXIT leave the current thread READY, BLOCKED or FREE and ask for another; DISPATCH grants one or idles the
core; WAKE readies a BLOCKED thread behind the tokens that wait; CREATE, SUSPEND, RESUME and DESTROY move a thread from the
states Table 17-3 names and are refused with STATE, AFF_ZERO or BAD_TID else. A token acts as WAKE; an expired patience sends
the signals; the window writes PRIO, AFF and CTX alone. What each leaves alone is stated with it. -/
def Obligations.TallyRunsWakesAndStopsThreads : Prop :=
  ∀ s : State,
    -- yield
    (∀ (c t : Nat), (c < 8 ∧ (tcOf s.dev c).halted = false ∧ (tcOf s.dev c).cur = some t ∧ s.dev.tl.fault = false) →
      Completes (.yield c) s (fun e => ∃ m, Readied t (leftCore s.dev c) m ∧ Dispatched c m e)) ∧
    -- block
    (∀ (c t : Nat), (c < 8 ∧ (tcOf s.dev c).halted = false ∧ (tcOf s.dev c).cur = some t ∧ s.dev.tl.fault = false) →
      Completes (.block c) s (fun e => (0 < (thrOf s.dev t).wakes → ∃ m, Readied t (setThr (leftCore s.dev c) t { thrOf s.dev t with wakes := (thrOf s.dev t).wakes - 1 }) m ∧ Dispatched c m e)
        ∧ ((thrOf s.dev t).wakes = 0 → Dispatched c (setThr (leftCore s.dev c) t { thrOf s.dev t with st := .blocked }) e))) ∧
    -- exit
    (∀ (c t : Nat), (c < 8 ∧ (tcOf s.dev c).halted = false ∧ (tcOf s.dev c).cur = some t ∧ s.dev.tl.fault = false) →
      Completes (.exit c) s (Dispatched c (setThr (leftCore s.dev c) t { thrOf s.dev t with st := .free }))) ∧
    -- dispatch
    (∀ (c : Nat), (c < 8 ∧ (tcOf s.dev c).halted = false ∧ (tcOf s.dev c).cur = none) → Completes (.dispatch c) s (Dispatched c (leftCore s.dev c))) ∧
    -- refusedState
    (∀ (c : Nat) (i : Instr), (c < 8 ∧ (tcOf s.dev c).halted = false ∧ (((tcOf s.dev c).cur = none ∧ i ∈ [.yield c, .block c, .exit c]) ∨ ((tcOf s.dev c).cur.isSome = true ∧ i = .dispatch c))) →
      Completes i s (Answered c 3 (opBegin s.dev c 0))) ∧
    -- inFault
    (∀ (c t : Nat) (i : Instr), (c < 8 ∧ (tcOf s.dev c).halted = false ∧ s.dev.tl.fault = true) →
      (((tcOf s.dev c).cur.isSome = true → i ∈ [.yield c, .block c, .exit c] → Completes i s (Answered c 1 (opBegin s.dev c 0)))
        ∧ (i ∈ [.wake c t, .create c t, .suspend c t, .resume c t, .destroy c t] → Completes i s (Answered c 3 (opBegin s.dev c t))))) ∧
    -- badThread
    (∀ (c t : Nat) (i : Instr), (c < 8 ∧ (tcOf s.dev c).halted = false ∧ s.dev.tl.fault = false ∧ 4095 < t ∧ i ∈ [.wake c t, .create c t, .suspend c t, .resume c t, .destroy c t]) →
      Completes i s (Answered c 2 (opBegin s.dev c t))) ∧
    -- haltedCore
    (∀ (c t : Nat) (i : Instr), (c < 8 ∧ (tcOf s.dev c).halted = true ∧ i ∈ [.yield c, .block c, .exit c, .dispatch c, .wake c t, .create c t, .suspend c t, .resume c t, .destroy c t]) →
      exec i s = .next s) ∧
    -- wake
    (∀ (c t : Nat) (d : Dev), (c < 8 ∧ (tcOf s.dev c).halted = false ∧ s.dev.tl.fault = false ∧ t < 4096 ∧ d = (if 1024 ≤ s.dev.tl.queue.length then bump (opBegin s.dev c t) TL_BP_CNT else opBegin s.dev c t)) →
      Completes (.wake c t) s (fun e => ∃ m, Woken t (applyTokens s.dev.tl.queue.length d) m ∧ Answered c 0 m e)) ∧
    -- create
    (∀ (c t : Nat), (c < 8 ∧ (tcOf s.dev c).halted = false ∧ s.dev.tl.fault = false ∧ t < 4096) →
      Completes (.create c t) s (fun e => ((thrOf s.dev t).st ≠ .free → Answered c 3 (opBegin s.dev c t) e)
        ∧ ((thrOf s.dev t).st = .free → (thrOf s.dev t).aff = 0 → Answered c 4 (opBegin s.dev c t) e)
        ∧ ((thrOf s.dev t).st = .free → (thrOf s.dev t).aff ≠ 0 → ∃ m, Readied t (opBegin s.dev c t) m ∧ Answered c 0 m e))) ∧
    -- suspend
    (∀ (c t : Nat), (c < 8 ∧ (tcOf s.dev c).halted = false ∧ s.dev.tl.fault = false ∧ t < 4096) →
      Completes (.suspend c t) s (fun e => if (thrOf s.dev t).st = .blocked ∨ (thrOf s.dev t).st = .ready
          then Answered c 0 (setThr (opBegin s.dev c t) t { thrOf s.dev t with st := .suspended }) e else Answered c 3 (opBegin s.dev c t) e)) ∧
    -- resume
    (∀ (c t : Nat), (c < 8 ∧ (tcOf s.dev c).halted = false ∧ s.dev.tl.fault = false ∧ t < 4096) →
      Completes (.resume c t) s (fun e => if (thrOf s.dev t).st = .suspended
          then ∃ m, Readied t (setThr (opBegin s.dev c t) t { thrOf s.dev t with faulted := false }) m ∧ Answered c 0 m e else Answered c 3 (opBegin s.dev c t) e)) ∧
    -- destroy
    (∀ (c t : Nat), (c < 8 ∧ (tcOf s.dev c).halted = false ∧ s.dev.tl.fault = false ∧ t < 4096) →
      Completes (.destroy c t) s (fun e => if (thrOf s.dev t).st = .running
          then Answered c 3 (opBegin s.dev c t) e else Answered c 0 (setThr (opBegin s.dev c t) t { thrOf s.dev t with st := .free, wakes := 0 }) e)) ∧
    -- token
    (∀ (o : Option Nat) (t : Nat) (rest : List (Option Nat × Nat)) (ps : List Nat), (ps = pendingSources s.vault s.dev ∧ (∀ p, p ∈ ps → p ∈ s.dev.tl.seen) ∧ s.dev.tl.owed = [] ∧ s.dev.tl.queue = (o, t) :: rest ∧ s.dev.tl.fault = false) →
      Completes .wakeToken s (Woken t { s.dev with tl := { s.dev.tl with queue := rest, seen := ps } })) ∧
    -- tokenPosted
    (∀ (src : Nat) (w : W32), ((pendingSources s.vault s.dev).filter (fun p => !s.dev.tl.seen.contains p) = [src] ∧ w = rd s.dev (tlBase + 0x1000 + 4 * src) ∧ bit w 15 = true) →
      (s.dev.tl.owed = [] ∧ s.dev.tl.queue = [] ∧ s.dev.tl.fault = false) →
      Completes .wakeToken s (Woken (fld w 11 0) { s.dev with tl := { s.dev.tl with seen := pendingSources s.vault s.dev } })) ∧
    -- noToken
    ((s.dev.tl.owed = [] ∧ s.dev.tl.queue = [] ∧ ∀ p, p ∈ pendingSources s.vault s.dev → p ∈ s.dev.tl.seen ∨ bit (rd s.dev (tlBase + 0x1000 + 4 * p)) 15 = false) →
      Completes .wakeToken s (fun e => e = { s.dev with tl := { s.dev.tl with seen := pendingSources s.vault s.dev } })) ∧
    -- patience
    (∀ (t : Nat), (t < 4096 ∧ (thrOf s.dev t).st = .ready ∧ (thrOf s.dev t).ts + 1000 * fld (rd s.dev TL_CFG) 6 0 ≤ tbNs s.dev) →
      Completes (.patienceExpired t) s (fun e => OnlyThreads s.dev e ∧ e.tl.thrs = s.dev.tl.thrs
        ∧ ∀ k, k < 8 → if (List.range 8).any (fun i => (tcOf s.dev i).idle && grantOf s.dev i == some t)
          then tcOf e k = { tcOf s.dev k with idleSig := (tcOf s.dev k).idleSig + b2n ((tcOf s.dev k).idle && grantOf s.dev k == some t) }
          else tcOf e k = { tcOf s.dev k with preSig := (tcOf s.dev k).preSig + b2n (preemptCore s.dev (thrOf s.dev t) == some k) })) ∧
    -- patient
    (∀ (t : Nat), (t < 4096 ∧ ((thrOf s.dev t).st ≠ .ready ∨ tbNs s.dev < (thrOf s.dev t).ts + 1000 * fld (rd s.dev TL_CFG) 6 0)) →
      exec (.patienceExpired t) s = .next s) ∧
    -- window
    (∀ (t w : Nat) (val : W32), (t < 4096 ∧ w < 8 ∧ admits s.dev .tl (0x10000 + 32 * t + 4 * w) = true) →
      Completes (.descriptorWrite t w val) s (fun e => OnlyThreads s.dev e ∧ e.tl.cores = s.dev.tl.cores ∧ (∀ u, u ≠ t → thrOf e u = thrOf s.dev u)
        ∧ thrOf e t = if w = 0 then { thrOf s.dev t with prio := val.toNat / 2 ^ 16 % 64, aff := val.toNat / 2 ^ 24 }
          else if w = 2 then { thrOf s.dev t with ctx := (thrOf s.dev t).ctx / 2 ^ 32 * 2 ^ 32 + val.toNat }
          else if w = 3 then { thrOf s.dev t with ctx := (thrOf s.dev t).ctx % 2 ^ 32 + val.toNat * 2 ^ 32 } else thrOf s.dev t))

/-- Application cores: faults, the watchdog, core commands, and an error of the descriptor store (R407, R408, R416, 17 Thread
dispatch, memory banks and background test). A core fault or an expired watchdog stops the core alone, SUSPENDs its thread
with FAULTED set, and is recorded. RESET and HALT stop a running core, START starts a halted one; a core that is not in the
state a command needs is refused with 0x1101. A store error puts Tally in FAULT with its tokens owed, and is recorded. The
numbers of the core codes are the model's (log entry 17). -/
def Obligations.CoresAreStoppedStartedAndWatched : Prop :=
  ∀ s : State,
    -- fault
    (∀ (c : Nat), (c < 8 ∧ (tcOf s.dev c).halted = false) → Completes (.coreFault c) s (fun e => ∃ m, CoreStopped c true false s.dev m ∧ Recorded m e)) ∧
    -- faultHalted
    (∀ (c : Nat), (c < 8 ∧ (tcOf s.dev c).halted = true) → exec (.coreFault c) s = .next s ∧ exec (.coreWatchdog c) s = .next s) ∧
    -- watchdog
    (∀ (c : Nat), (c < 8 ∧ (tcOf s.dev c).halted = false ∧ fld (rd s.dev TL_CFG) 25 16 ≠ 0 ∧ (tcOf s.dev c).opAt + fld (rd s.dev TL_CFG) 25 16 ≤ optMs s.dev) →
      Completes (.coreWatchdog c) s (fun e => ∃ m, CoreStopped c true false (bump s.dev TL_WDT_CNT) m ∧ Recorded m e)) ∧
    -- inTime
    (∀ (c : Nat), (c < 8 ∧ (fld (rd s.dev TL_CFG) 25 16 = 0 ∨ optMs s.dev < (tcOf s.dev c).opAt + fld (rd s.dev TL_CFG) 25 16)) → exec (.coreWatchdog c) s = .next s) ∧
    -- stop
    (∀ (c : Nat) (i : Instr) (halt : Bool) (d : Dev), (c < 8 ∧ admits s.dev .tl 0x10C = true ∧ (tcOf s.dev c).halted = false) →
      ((i = .coreReset c ∧ halt = false ∧ d = issued s.dev .tl 0x10C (w32 (c + 16))) ∨ (i = .coreHalt c ∧ halt = true ∧ d = issued s.dev .tl 0x10C (w32 (c + 32)))) →
      Completes i s (CoreStopped c false halt d)) ∧
    -- start
    (∀ (c : Nat), (c < 8 ∧ admits s.dev .tl 0x10C = true ∧ (tcOf s.dev c).halted = true) →
      Completes (.coreStart c) s (fun e => OnlyThreads (issued s.dev .tl 0x10C (w32 (c + 48))) e ∧ e.tl.thrs = s.dev.tl.thrs
        ∧ tcOf e c = { tcOf s.dev c with halted := false, opAt := optMs s.dev } ∧ ∀ k, k ≠ c → tcOf e k = tcOf s.dev k)) ∧
    -- wrongState
    (∀ (c : Nat) (i : Instr), (c < 8 ∧ admits s.dev .tl 0x10C = true ∧ (((tcOf s.dev c).halted = true ∧ i ∈ [.coreReset c, .coreHalt c]) ∨ ((tcOf s.dev c).halted = false ∧ i = .coreStart c))) →
      Completes i s (Refused .tl 0x1101 TL_CORE_CMD s.dev)) ∧
    -- storeError
    ((s.dev.tl.fault = false) →
      Completes .tallyUe s (fun e => ∃ m, m = { s.dev with tl := { s.dev.tl with fault := true, owed := s.dev.tl.owed ++ s.dev.tl.queue.filterMap (·.1), queue := [] } } ∧ Recorded m e)) ∧
    -- storeErrorAgain
    ((s.dev.tl.fault = true) → exec .tallyUe s = .next s)

/-- Bank power, memory errors, the background test and the user NV area (R417, R418, R419, R420, R421, R422, R423, R424,
R425, R426, R428). MB_PWR moves every bank of a segment; a transition ends with its contents kept, lost or zero. A corrected
error is counted and its row queued, an uncorrectable one counted and its word spoilt; an access to a bank that is not ON is
counted. Tinker takes the queued row first, then the pass; a failed row takes a spare, a failed spare is retired, a pass ends
after its last test; TEST_ROW and RESTART_PASS act, and are refused as Table 17-5 says. The NV area takes writes, and a line
is written to MRAM at most once in 100 µs. The code 0x1211 is the spec's. -/
def Obligations.MemoryBanksTestAndNvAreaAct : Prop :=
  ∀ s : State,
    -- power
    (∀ (b : Nat) (val : W32) (as : List Nat), (b < 32 ∧ admits s.dev (.mb b) 0x100 = true ∧ fld val 1 0 ≠ 3 ∧ as = (segBanks s.dev b).map MB_PWR) →
      Completes (.mbPowerRequest b val) s (fun e => ∃ m, OnlyRegs as s.dev m ∧ (∀ k, k ∈ segBanks s.dev b → rd m (MB_PWR k) = w32 (fld val 1 0))
        ∧ ((fld val 1 0 ≠ 0 ∨ (bankSt s.dev b ≠ 1 ∧ bankSt s.dev b ≠ 2)) → e = m)
        ∧ (fld val 1 0 = 0 → bankSt s.dev b = 1 ∨ bankSt s.dev b = 2 → OnlyRegs ((segBanks s.dev b).map MB_STAT) m e ∧ ∀ k, k ∈ segBanks s.dev b → bankSt e k = bankSt s.dev b + 2))) ∧
    -- powerRange
    (∀ (b : Nat) (val : W32), (b < 32 ∧ admits s.dev (.mb b) 0x100 = true ∧ fld val 1 0 = 3) → Completes (.mbPowerRequest b val) s (Refused (.mb b) 5 (MB_PWR b) s.dev)) ∧
    -- powerDone
    (∀ (b lo req : Nat), (b < 32 ∧ segTested s.dev b = false ∧ req = fld (rd s.dev (MB_PWR b)) 1 0 ∧ bankSt s.dev b ≠ req ∧ req < 3 ∧ lo = b / ilvW s.dev * segBytes s.dev) →
      Completes (.mbPowerDone b) s (fun e => e = { s.dev with regs := e.regs, sram := e.sram, poison := e.poison } ∧ (∀ k, k ∈ segBanks s.dev b → bankSt e k = req)
        ∧ (∀ a, a ∉ (segBanks s.dev b).map MB_STAT → rd e a = rd s.dev a)
        ∧ (req = 2 ∨ bankSt s.dev b = 4 → (∀ a, mrd e.sram a = if lo ≤ a ∧ a < lo + segBytes s.dev then 0 else mrd s.dev.sram a) ∧ ∀ w, w ∈ e.poison ↔ w ∈ s.dev.poison ∧ (8 * w < lo ∨ lo + segBytes s.dev ≤ 8 * w))
        ∧ (req ≠ 2 → bankSt s.dev b ≠ 4 → e.sram = s.dev.sram ∧ e.poison = s.dev.poison))) ∧
    -- powerStays
    (∀ (b : Nat), (b < 32 ∧ (segTested s.dev b = true ∨ bankSt s.dev b = fld (rd s.dev (MB_PWR b)) 1 0)) → exec (.mbPowerDone b) s = .next s) ∧
    -- corrected
    (∀ (a b : Nat), (a < sramSize ∧ b = bankOf s.dev a ∧ bankOn s.dev b = true) →
      Completes (.sramCe a) s (fun e => e = { s.dev with regs := e.regs, tk := e.tk } ∧ rd e (MB_CE_CNT b) = rd s.dev (MB_CE_CNT b) + 1 ∧ rd e (MB_CE_ADDR b) = w32 (a / 8 * 8)
        ∧ (∀ r, r ∉ [MB_CE_CNT b, MB_CE_ADDR b] → rd e r = rd s.dev r)
        ∧ e.tk = if (b, rowOf s.dev a) ∈ s.dev.tk.queue ∨ 16 ≤ s.dev.tk.queue.length then s.dev.tk else { s.dev.tk with queue := s.dev.tk.queue ++ [(b, rowOf s.dev a)] })) ∧
    -- uncorrectable
    (∀ (a b : Nat), (a < sramSize ∧ b = bankOf s.dev a ∧ bankOn s.dev b = true) →
      Completes (.sramUe a) s (fun e => e = { s.dev with regs := e.regs, poison := e.poison } ∧ rd e (MB_UE_CNT b) = rd s.dev (MB_UE_CNT b) + 1 ∧ rd e (MB_UE_ADDR b) = w32 (a / 8 * 8)
        ∧ (∀ r, r ∉ [MB_UE_CNT b, MB_UE_ADDR b] → rd e r = rd s.dev r) ∧ ∀ w, w ∈ e.poison ↔ w = a / 8 ∨ w ∈ s.dev.poison)) ∧
    -- offBank
    (∀ (a b : Nat), (a < sramSize ∧ b = bankOf s.dev a ∧ bankOn s.dev b = false) →
      Completes (.offBankAccess a) s (fun e => OnlyRegs [MB_OFF_ACC_CNT b] s.dev e ∧ rd e (MB_OFF_ACC_CNT b) = rd s.dev (MB_OFF_ACC_CNT b) + 1) ∧ exec (.sramCe a) s = .next s ∧ exec (.sramUe a) s = .next s) ∧
    -- onBank
    (∀ (a : Nat), (a < sramSize ∧ bankOn s.dev (bankOf s.dev a) = true) → exec (.offBankAccess a) s = .next s) ∧
    -- testQueued
    (∀ (b row : Nat) (rest : List (Nat × Nat)), (rdBit s.dev (tkBase + BLK_CTRL) 0 = true ∧ s.dev.tk.fault = false ∧ s.dev.tk.testing = none ∧ s.dev.tk.queue = (b, row) :: rest ∧ bankOn s.dev b = true) →
      Completes .tinkerRowTest s (fun e => e = { s.dev with tk := { s.dev.tk with queue := rest, testing := some (b, row, false) } })) ∧
    -- testPass
    (∀ (x : Nat × Nat × Bool) (q rest : List (Nat × Nat)), (rdBit s.dev (tkBase + BLK_CTRL) 0 = true ∧ s.dev.tk.fault = false ∧ s.dev.tk.testing = none ∧ s.dev.tk.pos < passEnd ∧ tkAt s.dev s.dev.tk.pos = some x) →
      ((q = [] ∧ rest = []) ∨ ∃ b row, q = (b, row) :: rest ∧ bankOn s.dev b = false) → (s.dev.tk.queue = q) →
      Completes .tinkerRowTest s (fun e => e = { s.dev with tk := { s.dev.tk with queue := rest, pos := s.dev.tk.pos + 1, testing := some x } })) ∧
    -- testWaits
    ((rdBit s.dev (tkBase + BLK_CTRL) 0 = false ∨ s.dev.tk.fault = true ∨ s.dev.tk.testing.isSome = true) → exec .tinkerRowTest s = .next s) ∧
    -- rowDone
    (∀ (b n : Nat) (spare : Bool), (s.dev.tk.testing = some (b, n, spare) ∧ ∃ x, tkSeek s.dev (passEnd - s.dev.tk.pos) s.dev.tk.pos = some x) →
      Completes (.tinkerRowDone false) s (fun e => e = { s.dev with tk := { s.dev.tk with testing := none } })) ∧
    -- passDone
    (∀ (b n : Nat) (spare : Bool), (s.dev.tk.testing = some (b, n, spare) ∧ s.dev.tk.pos = passEnd) →
      Completes (.tinkerRowDone false) s (fun e => e = { s.dev with regs := e.regs, tk := { s.dev.tk with testing := none, pos := 0, passAt := optMs s.dev } } ∧ rd e TK_PASS_CNT = rd s.dev TK_PASS_CNT + 1
        ∧ rd e TK_PASS_MS = w32 (optMs s.dev - s.dev.tk.passAt) ∧ ∀ a, a ∉ [TK_PASS_CNT, TK_PASS_MS] → rd e a = rd s.dev a)) ∧
    -- spareFailed
    (∀ (b k pos : Nat) (x : Nat × Nat × Bool) (m : Dev), (b < 32 ∧ k < 8 ∧ s.dev.tk.testing = some (b, k, true) ∧ m = wrBit s.dev (MB_MAP b k) 16 true ∧ tkSeek m (passEnd - s.dev.tk.pos) s.dev.tk.pos = some (pos, x)) →
      Completes (.tinkerRowDone true) s (fun e => e = { s.dev with regs := e.regs, tk := { s.dev.tk with testing := none } } ∧ spareRetired e b k = true ∧ rd e TK_FAIL_CNT = rd s.dev TK_FAIL_CNT + 1
        ∧ ∀ a, a ∉ [MB_MAP b k, TK_FAIL_CNT] → rd e a = rd s.dev a)) ∧
    -- rowFailed
    (∀ (b row k : Nat), (b < 32 ∧ row < 6144 ∧ s.dev.tk.testing = some (b, row, false) ∧ s.dev.tk.pos < passEnd ∧ (tkAt s.dev s.dev.tk.pos).isSome = true ∧ s.dev.tk.pos < passRows) →
      (freeSpare s.dev b = some k ∧ (∀ j, j < 8 → spareUsed s.dev b j = true → spareRetired s.dev b j = false → fld (rd s.dev (MB_MAP b j)) 12 0 ≠ row)) →
      Completes (.tinkerRowDone true) s (fun e => ∃ m, Recorded m e ∧ m = { s.dev with regs := m.regs, tk := m.tk } ∧ e.tk = { s.dev.tk with testing := none } ∧ rd e (MB_MAP b k) = w32 (row + 2 ^ 15)
        ∧ rd e TK_FAIL_CNT = rd s.dev TK_FAIL_CNT + 1 ∧ rd e (MB_REPAIR_CNT b) = rd s.dev (MB_REPAIR_CNT b) + 1)) ∧
    -- noSpare
    (∀ (b row : Nat), (b < 32 ∧ row < 6144 ∧ s.dev.tk.testing = some (b, row, false) ∧ s.dev.tk.pos < passRows ∧ (tkAt s.dev s.dev.tk.pos).isSome = true ∧ freeSpare s.dev b = none) →
      Completes (.tinkerRowDone true) s (fun e => ∃ m, Recorded m e ∧ m = { s.dev with regs := m.regs, tk := m.tk } ∧ e.tk = { s.dev.tk with testing := none } ∧ rdBit e (MB_STAT b) 8 = true
        ∧ rd e TK_FAIL_CNT = rd s.dev TK_FAIL_CNT + 1 ∧ rd e TK_NOSPARE_CNT = rd s.dev TK_NOSPARE_CNT + 1 ∧ ∀ k, k < 8 → rd e (MB_MAP b k) = rd s.dev (MB_MAP b k))) ∧
    -- noTest
    (∀ (failed : Bool) (mask : Nat), (s.dev.tk.testing = none) → exec (.tinkerRowDone failed) s = .next s ∧ exec (.tinkerBufferUe mask) s = .next s) ∧
    -- testRow
    (∀ (b row : Nat) (d : Dev), (b < 32 ∧ row < 6144 ∧ admits s.dev .tk 0x108 = true ∧ bankOn s.dev b = true ∧ d = issued s.dev .tk 0x108 (w32 (1 + 16 * b + 65536 * row))) →
      Completes (.testRow b row) s (fun e => e = if (b, row) ∈ s.dev.tk.queue ∨ 16 ≤ s.dev.tk.queue.length then d else { d with tk := { s.dev.tk with queue := s.dev.tk.queue ++ [(b, row)] } })) ∧
    -- testRowRefused
    (∀ (b row : Nat), (b < 32 ∧ row < 65536 ∧ admits s.dev .tk 0x108 = true ∧ (bankOn s.dev b = false ∨ 6143 < row)) →
      Completes (.testRow b row) s (Refused .tk 0x1211 TK_CMD s.dev)) ∧
    -- restart
    ((admits s.dev .tk 0x108 = true) →
      Completes .restartPass s (fun e => e = { issued s.dev .tk 0x108 2 with tk := { s.dev.tk with pos := 0, passAt := optMs s.dev } })) ∧
    -- bufferError
    (∀ (b n mask : Nat) (spare : Bool), (s.dev.tk.testing = some (b, n, spare)) →
      Completes (.tinkerBufferUe mask) s (fun e => ∃ m, Recorded m e ∧ m = { s.dev with tk := { s.dev.tk with testing := none, fault := true }, poison := m.poison }
        ∧ ∀ w, w ∈ m.poison ↔ w ∈ s.dev.poison ∨ (spare = false ∧ ∃ k, k < 32 ∧ mask.testBit k = true ∧ w = rowWord s.dev b n k))) ∧
    -- nv
    (∀ (off : Nat) (bs : List W8), (windowsOn s.dev = true ∧ 0x03C00000 ≤ off ∧ off + bs.length ≤ 0x04000000 ∧ off < 67108864) →
      Completes (.nvWrite off bs) s (fun e => e = { s.dev with nv := e.nv } ∧ ∀ a, tget 256 e.nv a = if off ≤ a ∧ a < off + bs.length then (bs.getD (a - off) 0).toNat else tget 256 s.dev.nv a)) ∧
    -- nvElsewhere
    (∀ (off : Nat) (bs : List W8), (windowsOn s.dev = true ∧ (off < 0x03C00000 ∨ 0x04000000 < off + bs.length) ∧ off < 67108864) →
      Completes (.nvWrite off bs) s (fun e => OnlyRegs [DEV_BAD_ACC_CNT] s.dev e ∧ rd e DEV_BAD_ACC_CNT = rd s.dev DEV_BAD_ACC_CNT + 1)) ∧
    -- line
    (∀ (line : Nat), (line < 1048576 ∧ (∃ p, p ∈ s.dev.nv ∧ p.1 / 64 = line) ∧ (tget 0 s.dev.nvAt line = 0 ∨ tget 0 s.dev.nvAt line + 10 ≤ bp s.dev + 1)) →
      Completes (.nvLineWrite line) s (fun e => e = { s.dev with mram := e.mram, nv := tclear (64 * line) (64 * line + 64) s.dev.nv, nvAt := tset 0 s.dev.nvAt line (bp s.dev + 1) }
        ∧ (∀ a, a / 64 ≠ line → mrd e.mram a = mrd s.dev.mram a ∧ tget 256 e.nv a = tget 256 s.dev.nv a) ∧ (∀ a, a / 64 = line → tget 256 e.nv a = 256)
        ∧ (twf (fun _ => 256) s.dev.nv = true → ∀ a, a / 64 = line → tget 256 s.dev.nv a < 256 → mrd e.mram a = BitVec.ofNat 8 (tget 256 s.dev.nv a)))) ∧
    -- lineWaits
    (∀ (line : Nat), (line < 1048576 ∧ ((∀ p, p ∈ s.dev.nv → p.1 / 64 ≠ line) ∨ (tget 0 s.dev.nvAt line ≠ 0 ∧ bp s.dev + 1 < tget 0 s.dev.nvAt line + 10))) →
      exec (.nvLineWrite line) s = .next s)
end

