-- ==== Sys2Proof/Laws/Bits.lean ====
section
/-! SUPPORT. Bit fields and lists: what a field, a bit or a place of a list reads as after one is replaced. -/

namespace Sys2Proof.Machine

theorem fld_eq (w : W32) (hi lo : Nat) : fld w hi lo = w.toNat / 2 ^ lo % 2 ^ (hi - lo + 1) := by
  rw [fld, Nat.shiftRight_eq_div_pow]

theorem bit_eq (w : W32) (i : Nat) : bit w i = w.toNat.testBit i := by
  rw [bit, Nat.testBit_eq_decide_div_mod_eq, Nat.shiftRight_eq_div_pow]; rfl

/-- A word with a field replaced, as a number: high part, field, low part. -/
theorem toNat_putFld (w : W32) (hi lo v : Nat) (h : hi < 32) (hl : lo ≤ hi) :
    (putFld w hi lo v).toNat
      = w.toNat % 2 ^ lo + 2 ^ lo * (v % 2 ^ (hi - lo + 1)) + 2 ^ (hi + 1) * (w.toNat / 2 ^ (hi + 1)) := by
  have hw := w.isLt
  have e1 : (2 : Nat) ^ (hi + 1) = 2 ^ lo * 2 ^ (hi - lo + 1) := by rw [← Nat.pow_add]; congr 1; omega
  have e2 : (2 : Nat) ^ 32 = 2 ^ (hi + 1) * 2 ^ (31 - hi) := by rw [← Nat.pow_add]; congr 1; omega
  have hf : fld w hi lo = w.toNat / 2 ^ lo % 2 ^ (hi - lo + 1) := fld_eq w hi lo
  have a1 : w.toNat = 2 ^ lo * (w.toNat / 2 ^ lo) + w.toNat % 2 ^ lo := (Nat.div_add_mod _ _).symm
  have a2 : w.toNat / 2 ^ lo = 2 ^ (hi - lo + 1) * (w.toNat / 2 ^ lo / 2 ^ (hi - lo + 1)) + w.toNat / 2 ^ lo % 2 ^ (hi - lo + 1) :=
    (Nat.div_add_mod _ _).symm
  have a3 : w.toNat / 2 ^ lo / 2 ^ (hi - lo + 1) = w.toNat / 2 ^ (hi + 1) := by rw [Nat.div_div_eq_div_mul, ← e1]
  rw [a3] at a2
  have hlow : w.toNat % 2 ^ lo < 2 ^ lo := Nat.mod_lt _ (Nat.two_pow_pos _)
  have hv : v % 2 ^ (hi - lo + 1) < 2 ^ (hi - lo + 1) := Nat.mod_lt _ (Nat.two_pow_pos _)
  have hh : w.toNat / 2 ^ (hi + 1) < 2 ^ (31 - hi) := by
    apply Nat.div_lt_of_lt_mul; rw [← e2]; exact hw
  have key : w.toNat - fld w hi lo * 2 ^ lo = w.toNat % 2 ^ lo + 2 ^ (hi + 1) * (w.toNat / 2 ^ (hi + 1)) := by
    rw [hf]
    generalize w.toNat / 2 ^ lo % 2 ^ (hi - lo + 1) = f at *
    generalize w.toNat % 2 ^ lo = l at *
    generalize w.toNat / 2 ^ (hi + 1) = q at *
    rw [a2, show 2 ^ lo * (2 ^ (hi - lo + 1) * q + f) = 2 ^ lo * 2 ^ (hi - lo + 1) * q + f * 2 ^ lo by ring] at a1
    rw [e1]; omega
  rw [putFld, BitVec.toNat_ofNat, key, Nat.mod_eq_of_lt]
  · ring
  · generalize w.toNat % 2 ^ lo = l at *
    generalize w.toNat / 2 ^ (hi + 1) = q at *
    generalize v % 2 ^ (hi - lo + 1) = x at *
    have b1 : 2 ^ (hi + 1) * q + 2 ^ (hi + 1) ≤ 2 ^ 32 := by
      rw [e2]; calc 2 ^ (hi + 1) * q + 2 ^ (hi + 1) = 2 ^ (hi + 1) * (q + 1) := by ring
        _ ≤ _ := Nat.mul_le_mul_left _ hh
    have b2 : x * 2 ^ lo + 2 ^ lo ≤ 2 ^ (hi + 1) := by
      rw [e1]; calc x * 2 ^ lo + 2 ^ lo = 2 ^ lo * (x + 1) := by ring
        _ ≤ _ := Nat.mul_le_mul_left _ hv
    omega

/-- The bits of a word whose field was replaced. -/
theorem bit_putFld (w : W32) (hi lo v i : Nat) (h : hi < 32) (hl : lo ≤ hi) :
    bit (putFld w hi lo v) i = if lo ≤ i ∧ i ≤ hi then v.testBit (i - lo) else bit w i := by
  rw [bit_eq, bit_eq, toNat_putFld w hi lo v h hl]
  have e1 : (2 : Nat) ^ (hi + 1) = 2 ^ lo * 2 ^ (hi - lo + 1) := by rw [← Nat.pow_add]; congr 1; omega
  have hlow : w.toNat % 2 ^ lo < 2 ^ lo := Nat.mod_lt _ (Nat.two_pow_pos _)
  have hv : v % 2 ^ (hi - lo + 1) < 2 ^ (hi - lo + 1) := Nat.mod_lt _ (Nat.two_pow_pos _)
  have hin : w.toNat % 2 ^ lo + 2 ^ lo * (v % 2 ^ (hi - lo + 1)) < 2 ^ (hi + 1) := by
    rw [e1]; calc _ < 2 ^ lo + 2 ^ lo * (v % 2 ^ (hi - lo + 1)) := by omega
      _ = 2 ^ lo * (v % 2 ^ (hi - lo + 1) + 1) := by ring
      _ ≤ _ := Nat.mul_le_mul_left _ hv
  rw [Nat.add_comm _ (2 ^ (hi + 1) * _), Nat.testBit_two_pow_mul_add _ hin]
  split
  · rename_i hi'
    rw [Nat.add_comm (w.toNat % 2 ^ lo), Nat.testBit_two_pow_mul_add _ hlow]
    by_cases hlo : i < lo
    · rw [if_pos hlo, if_neg (by omega), Nat.testBit_mod_two_pow]; simp [hlo]
    · rw [if_neg hlo, if_pos (by omega), Nat.testBit_mod_two_pow]; simp; omega
  · rw [if_neg (by omega), Nat.testBit_div_two_pow]; congr 1; omega

theorem bit_putBit (w : W32) (i j : Nat) (b : Bool) (h : i < 32) : bit (putBit w i b) j = if j = i then b else bit w j := by
  rw [putBit, bit_putFld w i i _ j h (Nat.le_refl _)]
  by_cases hj : j = i
  · subst hj; cases b <;> simp
  · rw [if_neg (by omega), if_neg hj]

/-- A field reads as what was put there. -/
theorem fld_putFld_same (w : W32) (hi lo v : Nat) (h : hi < 32) (hl : lo ≤ hi) : fld (putFld w hi lo v) hi lo = v % 2 ^ (hi - lo + 1) := by
  apply Nat.eq_of_testBit_eq; intro i
  have := bit_putFld w hi lo v (i + lo) h hl
  rw [bit_eq] at this
  rw [fld_eq, Nat.testBit_mod_two_pow, Nat.testBit_mod_two_pow, Nat.testBit_div_two_pow, this]
  by_cases hi' : i < hi - lo + 1
  · rw [if_pos (by omega)]; simp
  · simp [hi']

/-- Two words with the same bits in a field have the same field. -/
theorem fld_congr (w x : W32) (hi lo : Nat) (h : ∀ i, lo ≤ i → i ≤ hi → bit w i = bit x i) (hl : lo ≤ hi) : fld w hi lo = fld x hi lo := by
  apply Nat.eq_of_testBit_eq; intro i
  rw [fld_eq, fld_eq, Nat.testBit_mod_two_pow, Nat.testBit_mod_two_pow, Nat.testBit_div_two_pow, Nat.testBit_div_two_pow]
  by_cases hi' : i < hi - lo + 1
  · have := h (i + lo) (by omega) (by omega); rw [bit_eq, bit_eq] at this; rw [this]
  · simp [hi']

/-- A field that lies apart from the one replaced reads as before. -/
theorem fld_putFld_ne (w : W32) (hi lo v hi' lo' : Nat) (h : hi < 32) (hl : lo ≤ hi) (hl' : lo' ≤ hi') (hd : hi' < lo ∨ hi < lo') :
    fld (putFld w hi lo v) hi' lo' = fld w hi' lo' := by
  apply fld_congr _ _ _ _ _ hl'
  intro i h1 h2; rw [bit_putFld w hi lo v i h hl, if_neg (by omega)]

/-- The field of a number that fits in it. -/
theorem fld_w32 (n hi lo : Nat) (h : hi < 32) (hl : lo ≤ hi) : fld (w32 n) hi lo = n / 2 ^ lo % 2 ^ (hi - lo + 1) := by
  rw [fld_eq, w32, BitVec.toNat_ofNat]
  apply Nat.eq_of_testBit_eq; intro i
  rw [Nat.testBit_mod_two_pow, Nat.testBit_mod_two_pow, Nat.testBit_div_two_pow, Nat.testBit_div_two_pow, Nat.testBit_mod_two_pow]
  by_cases hi' : i < hi - lo + 1
  · have : i + lo < 32 := by omega
    simp [this]
  · simp [hi']

/-! ### Lists -/

theorem nth_lset {α : Type} (l : List α) : ∀ (n m : Nat) (v e : α), nth (lset l n v) m e = if m = n ∧ n < l.length then v else nth l m e := by
  induction l with
  | nil => intro n m v e; simp [lset]
  | cons h t ih =>
    intro n m v e
    cases n with
    | zero => cases m <;> simp [lset, nth]
    | succ n =>
      cases m with
      | zero => simp [lset, nth]
      | succ m =>
        have := ih n m v e
        simp only [lset, nth, List.getElem?_cons_succ, List.length_cons] at *
        rw [this]; simp [Nat.succ_lt_succ_iff]
theorem length_lset {α : Type} (l : List α) : ∀ (n : Nat) (v : α), (lset l n v).length = l.length := by
  induction l with
  | nil => intro n v; rfl
  | cons h t ih => intro n v; cases n <;> simp [lset, ih]

end Sys2Proof.Machine
end

