-- ==== Sys2Proof/Laws/State.lean ====
section
/-! SUPPORT. What an update of the device leaves alone: one lemma for each field and each named update, true by definition. -/

namespace Sys2Proof.Machine

/-! ### wr -/

@[simp] theorem wr_sig (d : Dev) (r : Nat) (v : W32) : (wr d r v).sig = d.sig := by unfold wr; rfl
@[simp] theorem wr_attr (d : Dev) (r : Nat) (v : W32) : (wr d r v).attr = d.attr := by unfold wr; rfl
@[simp] theorem wr_stage1 (d : Dev) (r : Nat) (v : W32) : (wr d r v).stage1 = d.stage1 := by unfold wr; rfl
@[simp] theorem wr_stage2 (d : Dev) (r : Nat) (v : W32) : (wr d r v).stage2 = d.stage2 := by unfold wr; rfl
@[simp] theorem wr_hostq (d : Dev) (r : Nat) (v : W32) : (wr d r v).hostq = d.hostq := by unfold wr; rfl
@[simp] theorem wr_crossing (d : Dev) (r : Nat) (v : W32) : (wr d r v).crossing = d.crossing := by unfold wr; rfl
@[simp] theorem wr_cfgq (d : Dev) (r : Nat) (v : W32) : (wr d r v).cfgq = d.cfgq := by unfold wr; rfl
@[simp] theorem wr_evr (d : Dev) (r : Nat) (v : W32) : (wr d r v).evr = d.evr := by unfold wr; rfl
@[simp] theorem wr_db (d : Dev) (r : Nat) (v : W32) : (wr d r v).db = d.db := by unfold wr; rfl
@[simp] theorem wr_tr (d : Dev) (r : Nat) (v : W32) : (wr d r v).tr = d.tr := by unfold wr; rfl
@[simp] theorem wr_power (d : Dev) (r : Nat) (v : W32) : (wr d r v).power = d.power := by unfold wr; rfl
@[simp] theorem wr_health (d : Dev) (r : Nat) (v : W32) : (wr d r v).health = d.health := by unfold wr; rfl
@[simp] theorem wr_wear (d : Dev) (r : Nat) (v : W32) : (wr d r v).wear = d.wear := by unfold wr; rfl
@[simp] theorem wr_idBusy (d : Dev) (r : Nat) (v : W32) : (wr d r v).idBusy = d.idBusy := by unfold wr; rfl
@[simp] theorem wr_tt (d : Dev) (r : Nat) (v : W32) : (wr d r v).tt = d.tt := by unfold wr; rfl
@[simp] theorem wr_ttFrac (d : Dev) (r : Nat) (v : W32) : (wr d r v).ttFrac = d.ttFrac := by unfold wr; rfl
@[simp] theorem wr_lanes (d : Dev) (r : Nat) (v : W32) : (wr d r v).lanes = d.lanes := by unfold wr; rfl
@[simp] theorem wr_axes (d : Dev) (r : Nat) (v : W32) : (wr d r v).axes = d.axes := by unfold wr; rfl
@[simp] theorem wr_stps (d : Dev) (r : Nat) (v : W32) : (wr d r v).stps = d.stps := by unfold wr; rfl
@[simp] theorem wr_encs (d : Dev) (r : Nat) (v : W32) : (wr d r v).encs = d.encs := by unfold wr; rfl
@[simp] theorem wr_quar (d : Dev) (r : Nat) (v : W32) : (wr d r v).quar = d.quar := by unfold wr; rfl
@[simp] theorem wr_lps (d : Dev) (r : Nat) (v : W32) : (wr d r v).lps = d.lps := by unfold wr; rfl
@[simp] theorem wr_shared (d : Dev) (r : Nat) (v : W32) : (wr d r v).shared = d.shared := by unfold wr; rfl
@[simp] theorem wr_trigs (d : Dev) (r : Nat) (v : W32) : (wr d r v).trigs = d.trigs := by unfold wr; rfl
@[simp] theorem wr_cells (d : Dev) (r : Nat) (v : W32) : (wr d r v).cells = d.cells := by unfold wr; rfl
@[simp] theorem wr_ctab (d : Dev) (r : Nat) (v : W32) : (wr d r v).ctab = d.ctab := by unfold wr; rfl
@[simp] theorem wr_cores (d : Dev) (r : Nat) (v : W32) : (wr d r v).cores = d.cores := by unfold wr; rfl
@[simp] theorem wr_aos (d : Dev) (r : Nat) (v : W32) : (wr d r v).aos = d.aos := by unfold wr; rfl
@[simp] theorem wr_dios (d : Dev) (r : Nat) (v : W32) : (wr d r v).dios = d.dios := by unfold wr; rfl
@[simp] theorem wr_role (d : Dev) (r : Nat) (v : W32) : (wr d r v).role = d.role := by unfold wr; rfl
@[simp] theorem wr_sf (d : Dev) (r : Nat) (v : W32) : (wr d r v).sf = d.sf := by unfold wr; rfl
@[simp] theorem wr_pls (d : Dev) (r : Nat) (v : W32) : (wr d r v).pls = d.pls := by unfold wr; rfl
@[simp] theorem wr_tw (d : Dev) (r : Nat) (v : W32) : (wr d r v).tw = d.tw := by unfold wr; rfl
@[simp] theorem wr_cxs (d : Dev) (r : Nat) (v : W32) : (wr d r v).cxs = d.cxs := by unfold wr; rfl
@[simp] theorem wr_tb (d : Dev) (r : Nat) (v : W32) : (wr d r v).tb = d.tb := by unfold wr; rfl
@[simp] theorem wr_eths (d : Dev) (r : Nat) (v : W32) : (wr d r v).eths = d.eths := by unfold wr; rfl
@[simp] theorem wr_tl (d : Dev) (r : Nat) (v : W32) : (wr d r v).tl = d.tl := by unfold wr; rfl
@[simp] theorem wr_tk (d : Dev) (r : Nat) (v : W32) : (wr d r v).tk = d.tk := by unfold wr; rfl
@[simp] theorem wr_sram (d : Dev) (r : Nat) (v : W32) : (wr d r v).sram = d.sram := by unfold wr; rfl
@[simp] theorem wr_poison (d : Dev) (r : Nat) (v : W32) : (wr d r v).poison = d.poison := by unfold wr; rfl
@[simp] theorem wr_mram (d : Dev) (r : Nat) (v : W32) : (wr d r v).mram = d.mram := by unfold wr; rfl
@[simp] theorem wr_nv (d : Dev) (r : Nat) (v : W32) : (wr d r v).nv = d.nv := by unfold wr; rfl
@[simp] theorem wr_nvAt (d : Dev) (r : Nat) (v : W32) : (wr d r v).nvAt = d.nvAt := by unfold wr; rfl
@[simp] theorem wr_ring (d : Dev) (r : Nat) (v : W32) : (wr d r v).ring = d.ring := by unfold wr; rfl
@[simp] theorem wr_dir (d : Dev) (r : Nat) (v : W32) : (wr d r v).dir = d.dir := by unfold wr; rfl
@[simp] theorem wr_jn (d : Dev) (r : Nat) (v : W32) : (wr d r v).jn = d.jn := by unfold wr; rfl
@[simp] theorem wr_oh (d : Dev) (r : Nat) (v : W32) : (wr d r v).oh = d.oh := by unfold wr; rfl
@[simp] theorem wr_free (d : Dev) (r : Nat) (v : W32) : (wr d r v).free = d.free := by unfold wr; rfl

/-! ### wrN -/

@[simp] theorem wrN_sig (d : Dev) (r v : Nat) : (wrN d r v).sig = d.sig := wr_sig _ _ _
@[simp] theorem wrN_attr (d : Dev) (r v : Nat) : (wrN d r v).attr = d.attr := wr_attr _ _ _
@[simp] theorem wrN_stage1 (d : Dev) (r v : Nat) : (wrN d r v).stage1 = d.stage1 := wr_stage1 _ _ _
@[simp] theorem wrN_stage2 (d : Dev) (r v : Nat) : (wrN d r v).stage2 = d.stage2 := wr_stage2 _ _ _
@[simp] theorem wrN_hostq (d : Dev) (r v : Nat) : (wrN d r v).hostq = d.hostq := wr_hostq _ _ _
@[simp] theorem wrN_crossing (d : Dev) (r v : Nat) : (wrN d r v).crossing = d.crossing := wr_crossing _ _ _
@[simp] theorem wrN_cfgq (d : Dev) (r v : Nat) : (wrN d r v).cfgq = d.cfgq := wr_cfgq _ _ _
@[simp] theorem wrN_evr (d : Dev) (r v : Nat) : (wrN d r v).evr = d.evr := wr_evr _ _ _
@[simp] theorem wrN_db (d : Dev) (r v : Nat) : (wrN d r v).db = d.db := wr_db _ _ _
@[simp] theorem wrN_tr (d : Dev) (r v : Nat) : (wrN d r v).tr = d.tr := wr_tr _ _ _
@[simp] theorem wrN_power (d : Dev) (r v : Nat) : (wrN d r v).power = d.power := wr_power _ _ _
@[simp] theorem wrN_health (d : Dev) (r v : Nat) : (wrN d r v).health = d.health := wr_health _ _ _
@[simp] theorem wrN_wear (d : Dev) (r v : Nat) : (wrN d r v).wear = d.wear := wr_wear _ _ _
@[simp] theorem wrN_idBusy (d : Dev) (r v : Nat) : (wrN d r v).idBusy = d.idBusy := wr_idBusy _ _ _
@[simp] theorem wrN_tt (d : Dev) (r v : Nat) : (wrN d r v).tt = d.tt := wr_tt _ _ _
@[simp] theorem wrN_ttFrac (d : Dev) (r v : Nat) : (wrN d r v).ttFrac = d.ttFrac := wr_ttFrac _ _ _
@[simp] theorem wrN_lanes (d : Dev) (r v : Nat) : (wrN d r v).lanes = d.lanes := wr_lanes _ _ _
@[simp] theorem wrN_axes (d : Dev) (r v : Nat) : (wrN d r v).axes = d.axes := wr_axes _ _ _
@[simp] theorem wrN_stps (d : Dev) (r v : Nat) : (wrN d r v).stps = d.stps := wr_stps _ _ _
@[simp] theorem wrN_encs (d : Dev) (r v : Nat) : (wrN d r v).encs = d.encs := wr_encs _ _ _
@[simp] theorem wrN_quar (d : Dev) (r v : Nat) : (wrN d r v).quar = d.quar := wr_quar _ _ _
@[simp] theorem wrN_lps (d : Dev) (r v : Nat) : (wrN d r v).lps = d.lps := wr_lps _ _ _
@[simp] theorem wrN_shared (d : Dev) (r v : Nat) : (wrN d r v).shared = d.shared := wr_shared _ _ _
@[simp] theorem wrN_trigs (d : Dev) (r v : Nat) : (wrN d r v).trigs = d.trigs := wr_trigs _ _ _
@[simp] theorem wrN_cells (d : Dev) (r v : Nat) : (wrN d r v).cells = d.cells := wr_cells _ _ _
@[simp] theorem wrN_ctab (d : Dev) (r v : Nat) : (wrN d r v).ctab = d.ctab := wr_ctab _ _ _
@[simp] theorem wrN_cores (d : Dev) (r v : Nat) : (wrN d r v).cores = d.cores := wr_cores _ _ _
@[simp] theorem wrN_aos (d : Dev) (r v : Nat) : (wrN d r v).aos = d.aos := wr_aos _ _ _
@[simp] theorem wrN_dios (d : Dev) (r v : Nat) : (wrN d r v).dios = d.dios := wr_dios _ _ _
@[simp] theorem wrN_role (d : Dev) (r v : Nat) : (wrN d r v).role = d.role := wr_role _ _ _
@[simp] theorem wrN_sf (d : Dev) (r v : Nat) : (wrN d r v).sf = d.sf := wr_sf _ _ _
@[simp] theorem wrN_pls (d : Dev) (r v : Nat) : (wrN d r v).pls = d.pls := wr_pls _ _ _
@[simp] theorem wrN_tw (d : Dev) (r v : Nat) : (wrN d r v).tw = d.tw := wr_tw _ _ _
@[simp] theorem wrN_cxs (d : Dev) (r v : Nat) : (wrN d r v).cxs = d.cxs := wr_cxs _ _ _
@[simp] theorem wrN_tb (d : Dev) (r v : Nat) : (wrN d r v).tb = d.tb := wr_tb _ _ _
@[simp] theorem wrN_eths (d : Dev) (r v : Nat) : (wrN d r v).eths = d.eths := wr_eths _ _ _
@[simp] theorem wrN_tl (d : Dev) (r v : Nat) : (wrN d r v).tl = d.tl := wr_tl _ _ _
@[simp] theorem wrN_tk (d : Dev) (r v : Nat) : (wrN d r v).tk = d.tk := wr_tk _ _ _
@[simp] theorem wrN_sram (d : Dev) (r v : Nat) : (wrN d r v).sram = d.sram := wr_sram _ _ _
@[simp] theorem wrN_poison (d : Dev) (r v : Nat) : (wrN d r v).poison = d.poison := wr_poison _ _ _
@[simp] theorem wrN_mram (d : Dev) (r v : Nat) : (wrN d r v).mram = d.mram := wr_mram _ _ _
@[simp] theorem wrN_nv (d : Dev) (r v : Nat) : (wrN d r v).nv = d.nv := wr_nv _ _ _
@[simp] theorem wrN_nvAt (d : Dev) (r v : Nat) : (wrN d r v).nvAt = d.nvAt := wr_nvAt _ _ _
@[simp] theorem wrN_ring (d : Dev) (r v : Nat) : (wrN d r v).ring = d.ring := wr_ring _ _ _
@[simp] theorem wrN_dir (d : Dev) (r v : Nat) : (wrN d r v).dir = d.dir := wr_dir _ _ _
@[simp] theorem wrN_jn (d : Dev) (r v : Nat) : (wrN d r v).jn = d.jn := wr_jn _ _ _
@[simp] theorem wrN_oh (d : Dev) (r v : Nat) : (wrN d r v).oh = d.oh := wr_oh _ _ _
@[simp] theorem wrN_free (d : Dev) (r v : Nat) : (wrN d r v).free = d.free := wr_free _ _ _

/-! ### wr64 -/

@[simp] theorem wr64_sig (d : Dev) (r v : Nat) : (wr64 d r v).sig = d.sig := (wr_sig _ _ _).trans (wr_sig _ _ _)
@[simp] theorem wr64_attr (d : Dev) (r v : Nat) : (wr64 d r v).attr = d.attr := (wr_attr _ _ _).trans (wr_attr _ _ _)
@[simp] theorem wr64_stage1 (d : Dev) (r v : Nat) : (wr64 d r v).stage1 = d.stage1 := (wr_stage1 _ _ _).trans (wr_stage1 _ _ _)
@[simp] theorem wr64_stage2 (d : Dev) (r v : Nat) : (wr64 d r v).stage2 = d.stage2 := (wr_stage2 _ _ _).trans (wr_stage2 _ _ _)
@[simp] theorem wr64_hostq (d : Dev) (r v : Nat) : (wr64 d r v).hostq = d.hostq := (wr_hostq _ _ _).trans (wr_hostq _ _ _)
@[simp] theorem wr64_crossing (d : Dev) (r v : Nat) : (wr64 d r v).crossing = d.crossing := (wr_crossing _ _ _).trans (wr_crossing _ _ _)
@[simp] theorem wr64_cfgq (d : Dev) (r v : Nat) : (wr64 d r v).cfgq = d.cfgq := (wr_cfgq _ _ _).trans (wr_cfgq _ _ _)
@[simp] theorem wr64_evr (d : Dev) (r v : Nat) : (wr64 d r v).evr = d.evr := (wr_evr _ _ _).trans (wr_evr _ _ _)
@[simp] theorem wr64_db (d : Dev) (r v : Nat) : (wr64 d r v).db = d.db := (wr_db _ _ _).trans (wr_db _ _ _)
@[simp] theorem wr64_tr (d : Dev) (r v : Nat) : (wr64 d r v).tr = d.tr := (wr_tr _ _ _).trans (wr_tr _ _ _)
@[simp] theorem wr64_power (d : Dev) (r v : Nat) : (wr64 d r v).power = d.power := (wr_power _ _ _).trans (wr_power _ _ _)
@[simp] theorem wr64_health (d : Dev) (r v : Nat) : (wr64 d r v).health = d.health := (wr_health _ _ _).trans (wr_health _ _ _)
@[simp] theorem wr64_wear (d : Dev) (r v : Nat) : (wr64 d r v).wear = d.wear := (wr_wear _ _ _).trans (wr_wear _ _ _)
@[simp] theorem wr64_idBusy (d : Dev) (r v : Nat) : (wr64 d r v).idBusy = d.idBusy := (wr_idBusy _ _ _).trans (wr_idBusy _ _ _)
@[simp] theorem wr64_tt (d : Dev) (r v : Nat) : (wr64 d r v).tt = d.tt := (wr_tt _ _ _).trans (wr_tt _ _ _)
@[simp] theorem wr64_ttFrac (d : Dev) (r v : Nat) : (wr64 d r v).ttFrac = d.ttFrac := (wr_ttFrac _ _ _).trans (wr_ttFrac _ _ _)
@[simp] theorem wr64_lanes (d : Dev) (r v : Nat) : (wr64 d r v).lanes = d.lanes := (wr_lanes _ _ _).trans (wr_lanes _ _ _)
@[simp] theorem wr64_axes (d : Dev) (r v : Nat) : (wr64 d r v).axes = d.axes := (wr_axes _ _ _).trans (wr_axes _ _ _)
@[simp] theorem wr64_stps (d : Dev) (r v : Nat) : (wr64 d r v).stps = d.stps := (wr_stps _ _ _).trans (wr_stps _ _ _)
@[simp] theorem wr64_encs (d : Dev) (r v : Nat) : (wr64 d r v).encs = d.encs := (wr_encs _ _ _).trans (wr_encs _ _ _)
@[simp] theorem wr64_quar (d : Dev) (r v : Nat) : (wr64 d r v).quar = d.quar := (wr_quar _ _ _).trans (wr_quar _ _ _)
@[simp] theorem wr64_lps (d : Dev) (r v : Nat) : (wr64 d r v).lps = d.lps := (wr_lps _ _ _).trans (wr_lps _ _ _)
@[simp] theorem wr64_shared (d : Dev) (r v : Nat) : (wr64 d r v).shared = d.shared := (wr_shared _ _ _).trans (wr_shared _ _ _)
@[simp] theorem wr64_trigs (d : Dev) (r v : Nat) : (wr64 d r v).trigs = d.trigs := (wr_trigs _ _ _).trans (wr_trigs _ _ _)
@[simp] theorem wr64_cells (d : Dev) (r v : Nat) : (wr64 d r v).cells = d.cells := (wr_cells _ _ _).trans (wr_cells _ _ _)
@[simp] theorem wr64_ctab (d : Dev) (r v : Nat) : (wr64 d r v).ctab = d.ctab := (wr_ctab _ _ _).trans (wr_ctab _ _ _)
@[simp] theorem wr64_cores (d : Dev) (r v : Nat) : (wr64 d r v).cores = d.cores := (wr_cores _ _ _).trans (wr_cores _ _ _)
@[simp] theorem wr64_aos (d : Dev) (r v : Nat) : (wr64 d r v).aos = d.aos := (wr_aos _ _ _).trans (wr_aos _ _ _)
@[simp] theorem wr64_dios (d : Dev) (r v : Nat) : (wr64 d r v).dios = d.dios := (wr_dios _ _ _).trans (wr_dios _ _ _)
@[simp] theorem wr64_role (d : Dev) (r v : Nat) : (wr64 d r v).role = d.role := (wr_role _ _ _).trans (wr_role _ _ _)
@[simp] theorem wr64_sf (d : Dev) (r v : Nat) : (wr64 d r v).sf = d.sf := (wr_sf _ _ _).trans (wr_sf _ _ _)
@[simp] theorem wr64_pls (d : Dev) (r v : Nat) : (wr64 d r v).pls = d.pls := (wr_pls _ _ _).trans (wr_pls _ _ _)
@[simp] theorem wr64_tw (d : Dev) (r v : Nat) : (wr64 d r v).tw = d.tw := (wr_tw _ _ _).trans (wr_tw _ _ _)
@[simp] theorem wr64_cxs (d : Dev) (r v : Nat) : (wr64 d r v).cxs = d.cxs := (wr_cxs _ _ _).trans (wr_cxs _ _ _)
@[simp] theorem wr64_tb (d : Dev) (r v : Nat) : (wr64 d r v).tb = d.tb := (wr_tb _ _ _).trans (wr_tb _ _ _)
@[simp] theorem wr64_eths (d : Dev) (r v : Nat) : (wr64 d r v).eths = d.eths := (wr_eths _ _ _).trans (wr_eths _ _ _)
@[simp] theorem wr64_tl (d : Dev) (r v : Nat) : (wr64 d r v).tl = d.tl := (wr_tl _ _ _).trans (wr_tl _ _ _)
@[simp] theorem wr64_tk (d : Dev) (r v : Nat) : (wr64 d r v).tk = d.tk := (wr_tk _ _ _).trans (wr_tk _ _ _)
@[simp] theorem wr64_sram (d : Dev) (r v : Nat) : (wr64 d r v).sram = d.sram := (wr_sram _ _ _).trans (wr_sram _ _ _)
@[simp] theorem wr64_poison (d : Dev) (r v : Nat) : (wr64 d r v).poison = d.poison := (wr_poison _ _ _).trans (wr_poison _ _ _)
@[simp] theorem wr64_mram (d : Dev) (r v : Nat) : (wr64 d r v).mram = d.mram := (wr_mram _ _ _).trans (wr_mram _ _ _)
@[simp] theorem wr64_nv (d : Dev) (r v : Nat) : (wr64 d r v).nv = d.nv := (wr_nv _ _ _).trans (wr_nv _ _ _)
@[simp] theorem wr64_nvAt (d : Dev) (r v : Nat) : (wr64 d r v).nvAt = d.nvAt := (wr_nvAt _ _ _).trans (wr_nvAt _ _ _)
@[simp] theorem wr64_ring (d : Dev) (r v : Nat) : (wr64 d r v).ring = d.ring := (wr_ring _ _ _).trans (wr_ring _ _ _)
@[simp] theorem wr64_dir (d : Dev) (r v : Nat) : (wr64 d r v).dir = d.dir := (wr_dir _ _ _).trans (wr_dir _ _ _)
@[simp] theorem wr64_jn (d : Dev) (r v : Nat) : (wr64 d r v).jn = d.jn := (wr_jn _ _ _).trans (wr_jn _ _ _)
@[simp] theorem wr64_oh (d : Dev) (r v : Nat) : (wr64 d r v).oh = d.oh := (wr_oh _ _ _).trans (wr_oh _ _ _)
@[simp] theorem wr64_free (d : Dev) (r v : Nat) : (wr64 d r v).free = d.free := (wr_free _ _ _).trans (wr_free _ _ _)

/-! ### wrFld -/

@[simp] theorem wrFld_sig (d : Dev) (r hi lo v : Nat) : (wrFld d r hi lo v).sig = d.sig := wr_sig _ _ _
@[simp] theorem wrFld_attr (d : Dev) (r hi lo v : Nat) : (wrFld d r hi lo v).attr = d.attr := wr_attr _ _ _
@[simp] theorem wrFld_stage1 (d : Dev) (r hi lo v : Nat) : (wrFld d r hi lo v).stage1 = d.stage1 := wr_stage1 _ _ _
@[simp] theorem wrFld_stage2 (d : Dev) (r hi lo v : Nat) : (wrFld d r hi lo v).stage2 = d.stage2 := wr_stage2 _ _ _
@[simp] theorem wrFld_hostq (d : Dev) (r hi lo v : Nat) : (wrFld d r hi lo v).hostq = d.hostq := wr_hostq _ _ _
@[simp] theorem wrFld_crossing (d : Dev) (r hi lo v : Nat) : (wrFld d r hi lo v).crossing = d.crossing := wr_crossing _ _ _
@[simp] theorem wrFld_cfgq (d : Dev) (r hi lo v : Nat) : (wrFld d r hi lo v).cfgq = d.cfgq := wr_cfgq _ _ _
@[simp] theorem wrFld_evr (d : Dev) (r hi lo v : Nat) : (wrFld d r hi lo v).evr = d.evr := wr_evr _ _ _
@[simp] theorem wrFld_db (d : Dev) (r hi lo v : Nat) : (wrFld d r hi lo v).db = d.db := wr_db _ _ _
@[simp] theorem wrFld_tr (d : Dev) (r hi lo v : Nat) : (wrFld d r hi lo v).tr = d.tr := wr_tr _ _ _
@[simp] theorem wrFld_power (d : Dev) (r hi lo v : Nat) : (wrFld d r hi lo v).power = d.power := wr_power _ _ _
@[simp] theorem wrFld_health (d : Dev) (r hi lo v : Nat) : (wrFld d r hi lo v).health = d.health := wr_health _ _ _
@[simp] theorem wrFld_wear (d : Dev) (r hi lo v : Nat) : (wrFld d r hi lo v).wear = d.wear := wr_wear _ _ _
@[simp] theorem wrFld_idBusy (d : Dev) (r hi lo v : Nat) : (wrFld d r hi lo v).idBusy = d.idBusy := wr_idBusy _ _ _
@[simp] theorem wrFld_tt (d : Dev) (r hi lo v : Nat) : (wrFld d r hi lo v).tt = d.tt := wr_tt _ _ _
@[simp] theorem wrFld_ttFrac (d : Dev) (r hi lo v : Nat) : (wrFld d r hi lo v).ttFrac = d.ttFrac := wr_ttFrac _ _ _
@[simp] theorem wrFld_lanes (d : Dev) (r hi lo v : Nat) : (wrFld d r hi lo v).lanes = d.lanes := wr_lanes _ _ _
@[simp] theorem wrFld_axes (d : Dev) (r hi lo v : Nat) : (wrFld d r hi lo v).axes = d.axes := wr_axes _ _ _
@[simp] theorem wrFld_stps (d : Dev) (r hi lo v : Nat) : (wrFld d r hi lo v).stps = d.stps := wr_stps _ _ _
@[simp] theorem wrFld_encs (d : Dev) (r hi lo v : Nat) : (wrFld d r hi lo v).encs = d.encs := wr_encs _ _ _
@[simp] theorem wrFld_quar (d : Dev) (r hi lo v : Nat) : (wrFld d r hi lo v).quar = d.quar := wr_quar _ _ _
@[simp] theorem wrFld_lps (d : Dev) (r hi lo v : Nat) : (wrFld d r hi lo v).lps = d.lps := wr_lps _ _ _
@[simp] theorem wrFld_shared (d : Dev) (r hi lo v : Nat) : (wrFld d r hi lo v).shared = d.shared := wr_shared _ _ _
@[simp] theorem wrFld_trigs (d : Dev) (r hi lo v : Nat) : (wrFld d r hi lo v).trigs = d.trigs := wr_trigs _ _ _
@[simp] theorem wrFld_cells (d : Dev) (r hi lo v : Nat) : (wrFld d r hi lo v).cells = d.cells := wr_cells _ _ _
@[simp] theorem wrFld_ctab (d : Dev) (r hi lo v : Nat) : (wrFld d r hi lo v).ctab = d.ctab := wr_ctab _ _ _
@[simp] theorem wrFld_cores (d : Dev) (r hi lo v : Nat) : (wrFld d r hi lo v).cores = d.cores := wr_cores _ _ _
@[simp] theorem wrFld_aos (d : Dev) (r hi lo v : Nat) : (wrFld d r hi lo v).aos = d.aos := wr_aos _ _ _
@[simp] theorem wrFld_dios (d : Dev) (r hi lo v : Nat) : (wrFld d r hi lo v).dios = d.dios := wr_dios _ _ _
@[simp] theorem wrFld_role (d : Dev) (r hi lo v : Nat) : (wrFld d r hi lo v).role = d.role := wr_role _ _ _
@[simp] theorem wrFld_sf (d : Dev) (r hi lo v : Nat) : (wrFld d r hi lo v).sf = d.sf := wr_sf _ _ _
@[simp] theorem wrFld_pls (d : Dev) (r hi lo v : Nat) : (wrFld d r hi lo v).pls = d.pls := wr_pls _ _ _
@[simp] theorem wrFld_tw (d : Dev) (r hi lo v : Nat) : (wrFld d r hi lo v).tw = d.tw := wr_tw _ _ _
@[simp] theorem wrFld_cxs (d : Dev) (r hi lo v : Nat) : (wrFld d r hi lo v).cxs = d.cxs := wr_cxs _ _ _
@[simp] theorem wrFld_tb (d : Dev) (r hi lo v : Nat) : (wrFld d r hi lo v).tb = d.tb := wr_tb _ _ _
@[simp] theorem wrFld_eths (d : Dev) (r hi lo v : Nat) : (wrFld d r hi lo v).eths = d.eths := wr_eths _ _ _
@[simp] theorem wrFld_tl (d : Dev) (r hi lo v : Nat) : (wrFld d r hi lo v).tl = d.tl := wr_tl _ _ _
@[simp] theorem wrFld_tk (d : Dev) (r hi lo v : Nat) : (wrFld d r hi lo v).tk = d.tk := wr_tk _ _ _
@[simp] theorem wrFld_sram (d : Dev) (r hi lo v : Nat) : (wrFld d r hi lo v).sram = d.sram := wr_sram _ _ _
@[simp] theorem wrFld_poison (d : Dev) (r hi lo v : Nat) : (wrFld d r hi lo v).poison = d.poison := wr_poison _ _ _
@[simp] theorem wrFld_mram (d : Dev) (r hi lo v : Nat) : (wrFld d r hi lo v).mram = d.mram := wr_mram _ _ _
@[simp] theorem wrFld_nv (d : Dev) (r hi lo v : Nat) : (wrFld d r hi lo v).nv = d.nv := wr_nv _ _ _
@[simp] theorem wrFld_nvAt (d : Dev) (r hi lo v : Nat) : (wrFld d r hi lo v).nvAt = d.nvAt := wr_nvAt _ _ _
@[simp] theorem wrFld_ring (d : Dev) (r hi lo v : Nat) : (wrFld d r hi lo v).ring = d.ring := wr_ring _ _ _
@[simp] theorem wrFld_dir (d : Dev) (r hi lo v : Nat) : (wrFld d r hi lo v).dir = d.dir := wr_dir _ _ _
@[simp] theorem wrFld_jn (d : Dev) (r hi lo v : Nat) : (wrFld d r hi lo v).jn = d.jn := wr_jn _ _ _
@[simp] theorem wrFld_oh (d : Dev) (r hi lo v : Nat) : (wrFld d r hi lo v).oh = d.oh := wr_oh _ _ _
@[simp] theorem wrFld_free (d : Dev) (r hi lo v : Nat) : (wrFld d r hi lo v).free = d.free := wr_free _ _ _

/-! ### wrBit -/

@[simp] theorem wrBit_sig (d : Dev) (r i : Nat) (b : Bool) : (wrBit d r i b).sig = d.sig := wr_sig _ _ _
@[simp] theorem wrBit_attr (d : Dev) (r i : Nat) (b : Bool) : (wrBit d r i b).attr = d.attr := wr_attr _ _ _
@[simp] theorem wrBit_stage1 (d : Dev) (r i : Nat) (b : Bool) : (wrBit d r i b).stage1 = d.stage1 := wr_stage1 _ _ _
@[simp] theorem wrBit_stage2 (d : Dev) (r i : Nat) (b : Bool) : (wrBit d r i b).stage2 = d.stage2 := wr_stage2 _ _ _
@[simp] theorem wrBit_hostq (d : Dev) (r i : Nat) (b : Bool) : (wrBit d r i b).hostq = d.hostq := wr_hostq _ _ _
@[simp] theorem wrBit_crossing (d : Dev) (r i : Nat) (b : Bool) : (wrBit d r i b).crossing = d.crossing := wr_crossing _ _ _
@[simp] theorem wrBit_cfgq (d : Dev) (r i : Nat) (b : Bool) : (wrBit d r i b).cfgq = d.cfgq := wr_cfgq _ _ _
@[simp] theorem wrBit_evr (d : Dev) (r i : Nat) (b : Bool) : (wrBit d r i b).evr = d.evr := wr_evr _ _ _
@[simp] theorem wrBit_db (d : Dev) (r i : Nat) (b : Bool) : (wrBit d r i b).db = d.db := wr_db _ _ _
@[simp] theorem wrBit_tr (d : Dev) (r i : Nat) (b : Bool) : (wrBit d r i b).tr = d.tr := wr_tr _ _ _
@[simp] theorem wrBit_power (d : Dev) (r i : Nat) (b : Bool) : (wrBit d r i b).power = d.power := wr_power _ _ _
@[simp] theorem wrBit_health (d : Dev) (r i : Nat) (b : Bool) : (wrBit d r i b).health = d.health := wr_health _ _ _
@[simp] theorem wrBit_wear (d : Dev) (r i : Nat) (b : Bool) : (wrBit d r i b).wear = d.wear := wr_wear _ _ _
@[simp] theorem wrBit_idBusy (d : Dev) (r i : Nat) (b : Bool) : (wrBit d r i b).idBusy = d.idBusy := wr_idBusy _ _ _
@[simp] theorem wrBit_tt (d : Dev) (r i : Nat) (b : Bool) : (wrBit d r i b).tt = d.tt := wr_tt _ _ _
@[simp] theorem wrBit_ttFrac (d : Dev) (r i : Nat) (b : Bool) : (wrBit d r i b).ttFrac = d.ttFrac := wr_ttFrac _ _ _
@[simp] theorem wrBit_lanes (d : Dev) (r i : Nat) (b : Bool) : (wrBit d r i b).lanes = d.lanes := wr_lanes _ _ _
@[simp] theorem wrBit_axes (d : Dev) (r i : Nat) (b : Bool) : (wrBit d r i b).axes = d.axes := wr_axes _ _ _
@[simp] theorem wrBit_stps (d : Dev) (r i : Nat) (b : Bool) : (wrBit d r i b).stps = d.stps := wr_stps _ _ _
@[simp] theorem wrBit_encs (d : Dev) (r i : Nat) (b : Bool) : (wrBit d r i b).encs = d.encs := wr_encs _ _ _
@[simp] theorem wrBit_quar (d : Dev) (r i : Nat) (b : Bool) : (wrBit d r i b).quar = d.quar := wr_quar _ _ _
@[simp] theorem wrBit_lps (d : Dev) (r i : Nat) (b : Bool) : (wrBit d r i b).lps = d.lps := wr_lps _ _ _
@[simp] theorem wrBit_shared (d : Dev) (r i : Nat) (b : Bool) : (wrBit d r i b).shared = d.shared := wr_shared _ _ _
@[simp] theorem wrBit_trigs (d : Dev) (r i : Nat) (b : Bool) : (wrBit d r i b).trigs = d.trigs := wr_trigs _ _ _
@[simp] theorem wrBit_cells (d : Dev) (r i : Nat) (b : Bool) : (wrBit d r i b).cells = d.cells := wr_cells _ _ _
@[simp] theorem wrBit_ctab (d : Dev) (r i : Nat) (b : Bool) : (wrBit d r i b).ctab = d.ctab := wr_ctab _ _ _
@[simp] theorem wrBit_cores (d : Dev) (r i : Nat) (b : Bool) : (wrBit d r i b).cores = d.cores := wr_cores _ _ _
@[simp] theorem wrBit_aos (d : Dev) (r i : Nat) (b : Bool) : (wrBit d r i b).aos = d.aos := wr_aos _ _ _
@[simp] theorem wrBit_dios (d : Dev) (r i : Nat) (b : Bool) : (wrBit d r i b).dios = d.dios := wr_dios _ _ _
@[simp] theorem wrBit_role (d : Dev) (r i : Nat) (b : Bool) : (wrBit d r i b).role = d.role := wr_role _ _ _
@[simp] theorem wrBit_sf (d : Dev) (r i : Nat) (b : Bool) : (wrBit d r i b).sf = d.sf := wr_sf _ _ _
@[simp] theorem wrBit_pls (d : Dev) (r i : Nat) (b : Bool) : (wrBit d r i b).pls = d.pls := wr_pls _ _ _
@[simp] theorem wrBit_tw (d : Dev) (r i : Nat) (b : Bool) : (wrBit d r i b).tw = d.tw := wr_tw _ _ _
@[simp] theorem wrBit_cxs (d : Dev) (r i : Nat) (b : Bool) : (wrBit d r i b).cxs = d.cxs := wr_cxs _ _ _
@[simp] theorem wrBit_tb (d : Dev) (r i : Nat) (b : Bool) : (wrBit d r i b).tb = d.tb := wr_tb _ _ _
@[simp] theorem wrBit_eths (d : Dev) (r i : Nat) (b : Bool) : (wrBit d r i b).eths = d.eths := wr_eths _ _ _
@[simp] theorem wrBit_tl (d : Dev) (r i : Nat) (b : Bool) : (wrBit d r i b).tl = d.tl := wr_tl _ _ _
@[simp] theorem wrBit_tk (d : Dev) (r i : Nat) (b : Bool) : (wrBit d r i b).tk = d.tk := wr_tk _ _ _
@[simp] theorem wrBit_sram (d : Dev) (r i : Nat) (b : Bool) : (wrBit d r i b).sram = d.sram := wr_sram _ _ _
@[simp] theorem wrBit_poison (d : Dev) (r i : Nat) (b : Bool) : (wrBit d r i b).poison = d.poison := wr_poison _ _ _
@[simp] theorem wrBit_mram (d : Dev) (r i : Nat) (b : Bool) : (wrBit d r i b).mram = d.mram := wr_mram _ _ _
@[simp] theorem wrBit_nv (d : Dev) (r i : Nat) (b : Bool) : (wrBit d r i b).nv = d.nv := wr_nv _ _ _
@[simp] theorem wrBit_nvAt (d : Dev) (r i : Nat) (b : Bool) : (wrBit d r i b).nvAt = d.nvAt := wr_nvAt _ _ _
@[simp] theorem wrBit_ring (d : Dev) (r i : Nat) (b : Bool) : (wrBit d r i b).ring = d.ring := wr_ring _ _ _
@[simp] theorem wrBit_dir (d : Dev) (r i : Nat) (b : Bool) : (wrBit d r i b).dir = d.dir := wr_dir _ _ _
@[simp] theorem wrBit_jn (d : Dev) (r i : Nat) (b : Bool) : (wrBit d r i b).jn = d.jn := wr_jn _ _ _
@[simp] theorem wrBit_oh (d : Dev) (r i : Nat) (b : Bool) : (wrBit d r i b).oh = d.oh := wr_oh _ _ _
@[simp] theorem wrBit_free (d : Dev) (r i : Nat) (b : Bool) : (wrBit d r i b).free = d.free := wr_free _ _ _

/-! ### bump -/

@[simp] theorem bump_sig (d : Dev) (r : Nat) : (bump d r).sig = d.sig := wr_sig _ _ _
@[simp] theorem bump_attr (d : Dev) (r : Nat) : (bump d r).attr = d.attr := wr_attr _ _ _
@[simp] theorem bump_stage1 (d : Dev) (r : Nat) : (bump d r).stage1 = d.stage1 := wr_stage1 _ _ _
@[simp] theorem bump_stage2 (d : Dev) (r : Nat) : (bump d r).stage2 = d.stage2 := wr_stage2 _ _ _
@[simp] theorem bump_hostq (d : Dev) (r : Nat) : (bump d r).hostq = d.hostq := wr_hostq _ _ _
@[simp] theorem bump_crossing (d : Dev) (r : Nat) : (bump d r).crossing = d.crossing := wr_crossing _ _ _
@[simp] theorem bump_cfgq (d : Dev) (r : Nat) : (bump d r).cfgq = d.cfgq := wr_cfgq _ _ _
@[simp] theorem bump_evr (d : Dev) (r : Nat) : (bump d r).evr = d.evr := wr_evr _ _ _
@[simp] theorem bump_db (d : Dev) (r : Nat) : (bump d r).db = d.db := wr_db _ _ _
@[simp] theorem bump_tr (d : Dev) (r : Nat) : (bump d r).tr = d.tr := wr_tr _ _ _
@[simp] theorem bump_power (d : Dev) (r : Nat) : (bump d r).power = d.power := wr_power _ _ _
@[simp] theorem bump_health (d : Dev) (r : Nat) : (bump d r).health = d.health := wr_health _ _ _
@[simp] theorem bump_wear (d : Dev) (r : Nat) : (bump d r).wear = d.wear := wr_wear _ _ _
@[simp] theorem bump_idBusy (d : Dev) (r : Nat) : (bump d r).idBusy = d.idBusy := wr_idBusy _ _ _
@[simp] theorem bump_tt (d : Dev) (r : Nat) : (bump d r).tt = d.tt := wr_tt _ _ _
@[simp] theorem bump_ttFrac (d : Dev) (r : Nat) : (bump d r).ttFrac = d.ttFrac := wr_ttFrac _ _ _
@[simp] theorem bump_lanes (d : Dev) (r : Nat) : (bump d r).lanes = d.lanes := wr_lanes _ _ _
@[simp] theorem bump_axes (d : Dev) (r : Nat) : (bump d r).axes = d.axes := wr_axes _ _ _
@[simp] theorem bump_stps (d : Dev) (r : Nat) : (bump d r).stps = d.stps := wr_stps _ _ _
@[simp] theorem bump_encs (d : Dev) (r : Nat) : (bump d r).encs = d.encs := wr_encs _ _ _
@[simp] theorem bump_quar (d : Dev) (r : Nat) : (bump d r).quar = d.quar := wr_quar _ _ _
@[simp] theorem bump_lps (d : Dev) (r : Nat) : (bump d r).lps = d.lps := wr_lps _ _ _
@[simp] theorem bump_shared (d : Dev) (r : Nat) : (bump d r).shared = d.shared := wr_shared _ _ _
@[simp] theorem bump_trigs (d : Dev) (r : Nat) : (bump d r).trigs = d.trigs := wr_trigs _ _ _
@[simp] theorem bump_cells (d : Dev) (r : Nat) : (bump d r).cells = d.cells := wr_cells _ _ _
@[simp] theorem bump_ctab (d : Dev) (r : Nat) : (bump d r).ctab = d.ctab := wr_ctab _ _ _
@[simp] theorem bump_cores (d : Dev) (r : Nat) : (bump d r).cores = d.cores := wr_cores _ _ _
@[simp] theorem bump_aos (d : Dev) (r : Nat) : (bump d r).aos = d.aos := wr_aos _ _ _
@[simp] theorem bump_dios (d : Dev) (r : Nat) : (bump d r).dios = d.dios := wr_dios _ _ _
@[simp] theorem bump_role (d : Dev) (r : Nat) : (bump d r).role = d.role := wr_role _ _ _
@[simp] theorem bump_sf (d : Dev) (r : Nat) : (bump d r).sf = d.sf := wr_sf _ _ _
@[simp] theorem bump_pls (d : Dev) (r : Nat) : (bump d r).pls = d.pls := wr_pls _ _ _
@[simp] theorem bump_tw (d : Dev) (r : Nat) : (bump d r).tw = d.tw := wr_tw _ _ _
@[simp] theorem bump_cxs (d : Dev) (r : Nat) : (bump d r).cxs = d.cxs := wr_cxs _ _ _
@[simp] theorem bump_tb (d : Dev) (r : Nat) : (bump d r).tb = d.tb := wr_tb _ _ _
@[simp] theorem bump_eths (d : Dev) (r : Nat) : (bump d r).eths = d.eths := wr_eths _ _ _
@[simp] theorem bump_tl (d : Dev) (r : Nat) : (bump d r).tl = d.tl := wr_tl _ _ _
@[simp] theorem bump_tk (d : Dev) (r : Nat) : (bump d r).tk = d.tk := wr_tk _ _ _
@[simp] theorem bump_sram (d : Dev) (r : Nat) : (bump d r).sram = d.sram := wr_sram _ _ _
@[simp] theorem bump_poison (d : Dev) (r : Nat) : (bump d r).poison = d.poison := wr_poison _ _ _
@[simp] theorem bump_mram (d : Dev) (r : Nat) : (bump d r).mram = d.mram := wr_mram _ _ _
@[simp] theorem bump_nv (d : Dev) (r : Nat) : (bump d r).nv = d.nv := wr_nv _ _ _
@[simp] theorem bump_nvAt (d : Dev) (r : Nat) : (bump d r).nvAt = d.nvAt := wr_nvAt _ _ _
@[simp] theorem bump_ring (d : Dev) (r : Nat) : (bump d r).ring = d.ring := wr_ring _ _ _
@[simp] theorem bump_dir (d : Dev) (r : Nat) : (bump d r).dir = d.dir := wr_dir _ _ _
@[simp] theorem bump_jn (d : Dev) (r : Nat) : (bump d r).jn = d.jn := wr_jn _ _ _
@[simp] theorem bump_oh (d : Dev) (r : Nat) : (bump d r).oh = d.oh := wr_oh _ _ _
@[simp] theorem bump_free (d : Dev) (r : Nat) : (bump d r).free = d.free := wr_free _ _ _

/-! ### err -/

@[simp] theorem err_sig (d : Dev) (p : Page) (c r : Nat) : (err d p c r).sig = d.sig := (wrN_sig _ _ _).trans (wrN_sig _ _ _)
@[simp] theorem err_attr (d : Dev) (p : Page) (c r : Nat) : (err d p c r).attr = d.attr := (wrN_attr _ _ _).trans (wrN_attr _ _ _)
@[simp] theorem err_stage1 (d : Dev) (p : Page) (c r : Nat) : (err d p c r).stage1 = d.stage1 := (wrN_stage1 _ _ _).trans (wrN_stage1 _ _ _)
@[simp] theorem err_stage2 (d : Dev) (p : Page) (c r : Nat) : (err d p c r).stage2 = d.stage2 := (wrN_stage2 _ _ _).trans (wrN_stage2 _ _ _)
@[simp] theorem err_hostq (d : Dev) (p : Page) (c r : Nat) : (err d p c r).hostq = d.hostq := (wrN_hostq _ _ _).trans (wrN_hostq _ _ _)
@[simp] theorem err_crossing (d : Dev) (p : Page) (c r : Nat) : (err d p c r).crossing = d.crossing := (wrN_crossing _ _ _).trans (wrN_crossing _ _ _)
@[simp] theorem err_cfgq (d : Dev) (p : Page) (c r : Nat) : (err d p c r).cfgq = d.cfgq := (wrN_cfgq _ _ _).trans (wrN_cfgq _ _ _)
@[simp] theorem err_evr (d : Dev) (p : Page) (c r : Nat) : (err d p c r).evr = d.evr := (wrN_evr _ _ _).trans (wrN_evr _ _ _)
@[simp] theorem err_db (d : Dev) (p : Page) (c r : Nat) : (err d p c r).db = d.db := (wrN_db _ _ _).trans (wrN_db _ _ _)
@[simp] theorem err_tr (d : Dev) (p : Page) (c r : Nat) : (err d p c r).tr = d.tr := (wrN_tr _ _ _).trans (wrN_tr _ _ _)
@[simp] theorem err_power (d : Dev) (p : Page) (c r : Nat) : (err d p c r).power = d.power := (wrN_power _ _ _).trans (wrN_power _ _ _)
@[simp] theorem err_health (d : Dev) (p : Page) (c r : Nat) : (err d p c r).health = d.health := (wrN_health _ _ _).trans (wrN_health _ _ _)
@[simp] theorem err_wear (d : Dev) (p : Page) (c r : Nat) : (err d p c r).wear = d.wear := (wrN_wear _ _ _).trans (wrN_wear _ _ _)
@[simp] theorem err_idBusy (d : Dev) (p : Page) (c r : Nat) : (err d p c r).idBusy = d.idBusy := (wrN_idBusy _ _ _).trans (wrN_idBusy _ _ _)
@[simp] theorem err_tt (d : Dev) (p : Page) (c r : Nat) : (err d p c r).tt = d.tt := (wrN_tt _ _ _).trans (wrN_tt _ _ _)
@[simp] theorem err_ttFrac (d : Dev) (p : Page) (c r : Nat) : (err d p c r).ttFrac = d.ttFrac := (wrN_ttFrac _ _ _).trans (wrN_ttFrac _ _ _)
@[simp] theorem err_lanes (d : Dev) (p : Page) (c r : Nat) : (err d p c r).lanes = d.lanes := (wrN_lanes _ _ _).trans (wrN_lanes _ _ _)
@[simp] theorem err_axes (d : Dev) (p : Page) (c r : Nat) : (err d p c r).axes = d.axes := (wrN_axes _ _ _).trans (wrN_axes _ _ _)
@[simp] theorem err_stps (d : Dev) (p : Page) (c r : Nat) : (err d p c r).stps = d.stps := (wrN_stps _ _ _).trans (wrN_stps _ _ _)
@[simp] theorem err_encs (d : Dev) (p : Page) (c r : Nat) : (err d p c r).encs = d.encs := (wrN_encs _ _ _).trans (wrN_encs _ _ _)
@[simp] theorem err_quar (d : Dev) (p : Page) (c r : Nat) : (err d p c r).quar = d.quar := (wrN_quar _ _ _).trans (wrN_quar _ _ _)
@[simp] theorem err_lps (d : Dev) (p : Page) (c r : Nat) : (err d p c r).lps = d.lps := (wrN_lps _ _ _).trans (wrN_lps _ _ _)
@[simp] theorem err_shared (d : Dev) (p : Page) (c r : Nat) : (err d p c r).shared = d.shared := (wrN_shared _ _ _).trans (wrN_shared _ _ _)
@[simp] theorem err_trigs (d : Dev) (p : Page) (c r : Nat) : (err d p c r).trigs = d.trigs := (wrN_trigs _ _ _).trans (wrN_trigs _ _ _)
@[simp] theorem err_cells (d : Dev) (p : Page) (c r : Nat) : (err d p c r).cells = d.cells := (wrN_cells _ _ _).trans (wrN_cells _ _ _)
@[simp] theorem err_ctab (d : Dev) (p : Page) (c r : Nat) : (err d p c r).ctab = d.ctab := (wrN_ctab _ _ _).trans (wrN_ctab _ _ _)
@[simp] theorem err_cores (d : Dev) (p : Page) (c r : Nat) : (err d p c r).cores = d.cores := (wrN_cores _ _ _).trans (wrN_cores _ _ _)
@[simp] theorem err_aos (d : Dev) (p : Page) (c r : Nat) : (err d p c r).aos = d.aos := (wrN_aos _ _ _).trans (wrN_aos _ _ _)
@[simp] theorem err_dios (d : Dev) (p : Page) (c r : Nat) : (err d p c r).dios = d.dios := (wrN_dios _ _ _).trans (wrN_dios _ _ _)
@[simp] theorem err_role (d : Dev) (p : Page) (c r : Nat) : (err d p c r).role = d.role := (wrN_role _ _ _).trans (wrN_role _ _ _)
@[simp] theorem err_sf (d : Dev) (p : Page) (c r : Nat) : (err d p c r).sf = d.sf := (wrN_sf _ _ _).trans (wrN_sf _ _ _)
@[simp] theorem err_pls (d : Dev) (p : Page) (c r : Nat) : (err d p c r).pls = d.pls := (wrN_pls _ _ _).trans (wrN_pls _ _ _)
@[simp] theorem err_tw (d : Dev) (p : Page) (c r : Nat) : (err d p c r).tw = d.tw := (wrN_tw _ _ _).trans (wrN_tw _ _ _)
@[simp] theorem err_cxs (d : Dev) (p : Page) (c r : Nat) : (err d p c r).cxs = d.cxs := (wrN_cxs _ _ _).trans (wrN_cxs _ _ _)
@[simp] theorem err_tb (d : Dev) (p : Page) (c r : Nat) : (err d p c r).tb = d.tb := (wrN_tb _ _ _).trans (wrN_tb _ _ _)
@[simp] theorem err_eths (d : Dev) (p : Page) (c r : Nat) : (err d p c r).eths = d.eths := (wrN_eths _ _ _).trans (wrN_eths _ _ _)
@[simp] theorem err_tl (d : Dev) (p : Page) (c r : Nat) : (err d p c r).tl = d.tl := (wrN_tl _ _ _).trans (wrN_tl _ _ _)
@[simp] theorem err_tk (d : Dev) (p : Page) (c r : Nat) : (err d p c r).tk = d.tk := (wrN_tk _ _ _).trans (wrN_tk _ _ _)
@[simp] theorem err_sram (d : Dev) (p : Page) (c r : Nat) : (err d p c r).sram = d.sram := (wrN_sram _ _ _).trans (wrN_sram _ _ _)
@[simp] theorem err_poison (d : Dev) (p : Page) (c r : Nat) : (err d p c r).poison = d.poison := (wrN_poison _ _ _).trans (wrN_poison _ _ _)
@[simp] theorem err_mram (d : Dev) (p : Page) (c r : Nat) : (err d p c r).mram = d.mram := (wrN_mram _ _ _).trans (wrN_mram _ _ _)
@[simp] theorem err_nv (d : Dev) (p : Page) (c r : Nat) : (err d p c r).nv = d.nv := (wrN_nv _ _ _).trans (wrN_nv _ _ _)
@[simp] theorem err_nvAt (d : Dev) (p : Page) (c r : Nat) : (err d p c r).nvAt = d.nvAt := (wrN_nvAt _ _ _).trans (wrN_nvAt _ _ _)
@[simp] theorem err_ring (d : Dev) (p : Page) (c r : Nat) : (err d p c r).ring = d.ring := (wrN_ring _ _ _).trans (wrN_ring _ _ _)
@[simp] theorem err_dir (d : Dev) (p : Page) (c r : Nat) : (err d p c r).dir = d.dir := (wrN_dir _ _ _).trans (wrN_dir _ _ _)
@[simp] theorem err_jn (d : Dev) (p : Page) (c r : Nat) : (err d p c r).jn = d.jn := (wrN_jn _ _ _).trans (wrN_jn _ _ _)
@[simp] theorem err_oh (d : Dev) (p : Page) (c r : Nat) : (err d p c r).oh = d.oh := (wrN_oh _ _ _).trans (wrN_oh _ _ _)
@[simp] theorem err_free (d : Dev) (p : Page) (c r : Nat) : (err d p c r).free = d.free := (wrN_free _ _ _).trans (wrN_free _ _ _)

/-! ### postErr -/

@[simp] theorem postErr_sig (d : Dev) (p : Page) (c r : Nat) : (postErr d p c r).sig = d.sig := (err_sig _ _ _ _).trans (wrFld_sig _ _ _ _ _)
@[simp] theorem postErr_attr (d : Dev) (p : Page) (c r : Nat) : (postErr d p c r).attr = d.attr := (err_attr _ _ _ _).trans (wrFld_attr _ _ _ _ _)
@[simp] theorem postErr_stage1 (d : Dev) (p : Page) (c r : Nat) : (postErr d p c r).stage1 = d.stage1 := (err_stage1 _ _ _ _).trans (wrFld_stage1 _ _ _ _ _)
@[simp] theorem postErr_stage2 (d : Dev) (p : Page) (c r : Nat) : (postErr d p c r).stage2 = d.stage2 := (err_stage2 _ _ _ _).trans (wrFld_stage2 _ _ _ _ _)
@[simp] theorem postErr_hostq (d : Dev) (p : Page) (c r : Nat) : (postErr d p c r).hostq = d.hostq := (err_hostq _ _ _ _).trans (wrFld_hostq _ _ _ _ _)
@[simp] theorem postErr_crossing (d : Dev) (p : Page) (c r : Nat) : (postErr d p c r).crossing = d.crossing := (err_crossing _ _ _ _).trans (wrFld_crossing _ _ _ _ _)
@[simp] theorem postErr_cfgq (d : Dev) (p : Page) (c r : Nat) : (postErr d p c r).cfgq = d.cfgq := (err_cfgq _ _ _ _).trans (wrFld_cfgq _ _ _ _ _)
@[simp] theorem postErr_evr (d : Dev) (p : Page) (c r : Nat) : (postErr d p c r).evr = d.evr := (err_evr _ _ _ _).trans (wrFld_evr _ _ _ _ _)
@[simp] theorem postErr_db (d : Dev) (p : Page) (c r : Nat) : (postErr d p c r).db = d.db := (err_db _ _ _ _).trans (wrFld_db _ _ _ _ _)
@[simp] theorem postErr_tr (d : Dev) (p : Page) (c r : Nat) : (postErr d p c r).tr = d.tr := (err_tr _ _ _ _).trans (wrFld_tr _ _ _ _ _)
@[simp] theorem postErr_power (d : Dev) (p : Page) (c r : Nat) : (postErr d p c r).power = d.power := (err_power _ _ _ _).trans (wrFld_power _ _ _ _ _)
@[simp] theorem postErr_health (d : Dev) (p : Page) (c r : Nat) : (postErr d p c r).health = d.health := (err_health _ _ _ _).trans (wrFld_health _ _ _ _ _)
@[simp] theorem postErr_wear (d : Dev) (p : Page) (c r : Nat) : (postErr d p c r).wear = d.wear := (err_wear _ _ _ _).trans (wrFld_wear _ _ _ _ _)
@[simp] theorem postErr_idBusy (d : Dev) (p : Page) (c r : Nat) : (postErr d p c r).idBusy = d.idBusy := (err_idBusy _ _ _ _).trans (wrFld_idBusy _ _ _ _ _)
@[simp] theorem postErr_tt (d : Dev) (p : Page) (c r : Nat) : (postErr d p c r).tt = d.tt := (err_tt _ _ _ _).trans (wrFld_tt _ _ _ _ _)
@[simp] theorem postErr_ttFrac (d : Dev) (p : Page) (c r : Nat) : (postErr d p c r).ttFrac = d.ttFrac := (err_ttFrac _ _ _ _).trans (wrFld_ttFrac _ _ _ _ _)
@[simp] theorem postErr_lanes (d : Dev) (p : Page) (c r : Nat) : (postErr d p c r).lanes = d.lanes := (err_lanes _ _ _ _).trans (wrFld_lanes _ _ _ _ _)
@[simp] theorem postErr_axes (d : Dev) (p : Page) (c r : Nat) : (postErr d p c r).axes = d.axes := (err_axes _ _ _ _).trans (wrFld_axes _ _ _ _ _)
@[simp] theorem postErr_stps (d : Dev) (p : Page) (c r : Nat) : (postErr d p c r).stps = d.stps := (err_stps _ _ _ _).trans (wrFld_stps _ _ _ _ _)
@[simp] theorem postErr_encs (d : Dev) (p : Page) (c r : Nat) : (postErr d p c r).encs = d.encs := (err_encs _ _ _ _).trans (wrFld_encs _ _ _ _ _)
@[simp] theorem postErr_quar (d : Dev) (p : Page) (c r : Nat) : (postErr d p c r).quar = d.quar := (err_quar _ _ _ _).trans (wrFld_quar _ _ _ _ _)
@[simp] theorem postErr_lps (d : Dev) (p : Page) (c r : Nat) : (postErr d p c r).lps = d.lps := (err_lps _ _ _ _).trans (wrFld_lps _ _ _ _ _)
@[simp] theorem postErr_shared (d : Dev) (p : Page) (c r : Nat) : (postErr d p c r).shared = d.shared := (err_shared _ _ _ _).trans (wrFld_shared _ _ _ _ _)
@[simp] theorem postErr_trigs (d : Dev) (p : Page) (c r : Nat) : (postErr d p c r).trigs = d.trigs := (err_trigs _ _ _ _).trans (wrFld_trigs _ _ _ _ _)
@[simp] theorem postErr_cells (d : Dev) (p : Page) (c r : Nat) : (postErr d p c r).cells = d.cells := (err_cells _ _ _ _).trans (wrFld_cells _ _ _ _ _)
@[simp] theorem postErr_ctab (d : Dev) (p : Page) (c r : Nat) : (postErr d p c r).ctab = d.ctab := (err_ctab _ _ _ _).trans (wrFld_ctab _ _ _ _ _)
@[simp] theorem postErr_cores (d : Dev) (p : Page) (c r : Nat) : (postErr d p c r).cores = d.cores := (err_cores _ _ _ _).trans (wrFld_cores _ _ _ _ _)
@[simp] theorem postErr_aos (d : Dev) (p : Page) (c r : Nat) : (postErr d p c r).aos = d.aos := (err_aos _ _ _ _).trans (wrFld_aos _ _ _ _ _)
@[simp] theorem postErr_dios (d : Dev) (p : Page) (c r : Nat) : (postErr d p c r).dios = d.dios := (err_dios _ _ _ _).trans (wrFld_dios _ _ _ _ _)
@[simp] theorem postErr_role (d : Dev) (p : Page) (c r : Nat) : (postErr d p c r).role = d.role := (err_role _ _ _ _).trans (wrFld_role _ _ _ _ _)
@[simp] theorem postErr_sf (d : Dev) (p : Page) (c r : Nat) : (postErr d p c r).sf = d.sf := (err_sf _ _ _ _).trans (wrFld_sf _ _ _ _ _)
@[simp] theorem postErr_pls (d : Dev) (p : Page) (c r : Nat) : (postErr d p c r).pls = d.pls := (err_pls _ _ _ _).trans (wrFld_pls _ _ _ _ _)
@[simp] theorem postErr_tw (d : Dev) (p : Page) (c r : Nat) : (postErr d p c r).tw = d.tw := (err_tw _ _ _ _).trans (wrFld_tw _ _ _ _ _)
@[simp] theorem postErr_cxs (d : Dev) (p : Page) (c r : Nat) : (postErr d p c r).cxs = d.cxs := (err_cxs _ _ _ _).trans (wrFld_cxs _ _ _ _ _)
@[simp] theorem postErr_tb (d : Dev) (p : Page) (c r : Nat) : (postErr d p c r).tb = d.tb := (err_tb _ _ _ _).trans (wrFld_tb _ _ _ _ _)
@[simp] theorem postErr_eths (d : Dev) (p : Page) (c r : Nat) : (postErr d p c r).eths = d.eths := (err_eths _ _ _ _).trans (wrFld_eths _ _ _ _ _)
@[simp] theorem postErr_tl (d : Dev) (p : Page) (c r : Nat) : (postErr d p c r).tl = d.tl := (err_tl _ _ _ _).trans (wrFld_tl _ _ _ _ _)
@[simp] theorem postErr_tk (d : Dev) (p : Page) (c r : Nat) : (postErr d p c r).tk = d.tk := (err_tk _ _ _ _).trans (wrFld_tk _ _ _ _ _)
@[simp] theorem postErr_sram (d : Dev) (p : Page) (c r : Nat) : (postErr d p c r).sram = d.sram := (err_sram _ _ _ _).trans (wrFld_sram _ _ _ _ _)
@[simp] theorem postErr_poison (d : Dev) (p : Page) (c r : Nat) : (postErr d p c r).poison = d.poison := (err_poison _ _ _ _).trans (wrFld_poison _ _ _ _ _)
@[simp] theorem postErr_mram (d : Dev) (p : Page) (c r : Nat) : (postErr d p c r).mram = d.mram := (err_mram _ _ _ _).trans (wrFld_mram _ _ _ _ _)
@[simp] theorem postErr_nv (d : Dev) (p : Page) (c r : Nat) : (postErr d p c r).nv = d.nv := (err_nv _ _ _ _).trans (wrFld_nv _ _ _ _ _)
@[simp] theorem postErr_nvAt (d : Dev) (p : Page) (c r : Nat) : (postErr d p c r).nvAt = d.nvAt := (err_nvAt _ _ _ _).trans (wrFld_nvAt _ _ _ _ _)
@[simp] theorem postErr_ring (d : Dev) (p : Page) (c r : Nat) : (postErr d p c r).ring = d.ring := (err_ring _ _ _ _).trans (wrFld_ring _ _ _ _ _)
@[simp] theorem postErr_dir (d : Dev) (p : Page) (c r : Nat) : (postErr d p c r).dir = d.dir := (err_dir _ _ _ _).trans (wrFld_dir _ _ _ _ _)
@[simp] theorem postErr_jn (d : Dev) (p : Page) (c r : Nat) : (postErr d p c r).jn = d.jn := (err_jn _ _ _ _).trans (wrFld_jn _ _ _ _ _)
@[simp] theorem postErr_oh (d : Dev) (p : Page) (c r : Nat) : (postErr d p c r).oh = d.oh := (err_oh _ _ _ _).trans (wrFld_oh _ _ _ _ _)
@[simp] theorem postErr_free (d : Dev) (p : Page) (c r : Nat) : (postErr d p c r).free = d.free := (err_free _ _ _ _).trans (wrFld_free _ _ _ _ _)

/-! ### put1 -/

@[simp] theorem put1_regs (d : Dev) (n : Nat) (v : W32) (b : Bool) : (put1 d n v b).regs = d.regs := by unfold put1; rfl
@[simp] theorem put1_sig (d : Dev) (n : Nat) (v : W32) (b : Bool) : (put1 d n v b).sig = d.sig := by unfold put1; rfl
@[simp] theorem put1_attr (d : Dev) (n : Nat) (v : W32) (b : Bool) : (put1 d n v b).attr = d.attr := by unfold put1; rfl
@[simp] theorem put1_stage2 (d : Dev) (n : Nat) (v : W32) (b : Bool) : (put1 d n v b).stage2 = d.stage2 := by unfold put1; rfl
@[simp] theorem put1_hostq (d : Dev) (n : Nat) (v : W32) (b : Bool) : (put1 d n v b).hostq = d.hostq := by unfold put1; rfl
@[simp] theorem put1_crossing (d : Dev) (n : Nat) (v : W32) (b : Bool) : (put1 d n v b).crossing = d.crossing := by unfold put1; rfl
@[simp] theorem put1_cfgq (d : Dev) (n : Nat) (v : W32) (b : Bool) : (put1 d n v b).cfgq = d.cfgq := by unfold put1; rfl
@[simp] theorem put1_evr (d : Dev) (n : Nat) (v : W32) (b : Bool) : (put1 d n v b).evr = d.evr := by unfold put1; rfl
@[simp] theorem put1_db (d : Dev) (n : Nat) (v : W32) (b : Bool) : (put1 d n v b).db = d.db := by unfold put1; rfl
@[simp] theorem put1_tr (d : Dev) (n : Nat) (v : W32) (b : Bool) : (put1 d n v b).tr = d.tr := by unfold put1; rfl
@[simp] theorem put1_power (d : Dev) (n : Nat) (v : W32) (b : Bool) : (put1 d n v b).power = d.power := by unfold put1; rfl
@[simp] theorem put1_health (d : Dev) (n : Nat) (v : W32) (b : Bool) : (put1 d n v b).health = d.health := by unfold put1; rfl
@[simp] theorem put1_wear (d : Dev) (n : Nat) (v : W32) (b : Bool) : (put1 d n v b).wear = d.wear := by unfold put1; rfl
@[simp] theorem put1_idBusy (d : Dev) (n : Nat) (v : W32) (b : Bool) : (put1 d n v b).idBusy = d.idBusy := by unfold put1; rfl
@[simp] theorem put1_tt (d : Dev) (n : Nat) (v : W32) (b : Bool) : (put1 d n v b).tt = d.tt := by unfold put1; rfl
@[simp] theorem put1_ttFrac (d : Dev) (n : Nat) (v : W32) (b : Bool) : (put1 d n v b).ttFrac = d.ttFrac := by unfold put1; rfl
@[simp] theorem put1_lanes (d : Dev) (n : Nat) (v : W32) (b : Bool) : (put1 d n v b).lanes = d.lanes := by unfold put1; rfl
@[simp] theorem put1_axes (d : Dev) (n : Nat) (v : W32) (b : Bool) : (put1 d n v b).axes = d.axes := by unfold put1; rfl
@[simp] theorem put1_stps (d : Dev) (n : Nat) (v : W32) (b : Bool) : (put1 d n v b).stps = d.stps := by unfold put1; rfl
@[simp] theorem put1_encs (d : Dev) (n : Nat) (v : W32) (b : Bool) : (put1 d n v b).encs = d.encs := by unfold put1; rfl
@[simp] theorem put1_quar (d : Dev) (n : Nat) (v : W32) (b : Bool) : (put1 d n v b).quar = d.quar := by unfold put1; rfl
@[simp] theorem put1_lps (d : Dev) (n : Nat) (v : W32) (b : Bool) : (put1 d n v b).lps = d.lps := by unfold put1; rfl
@[simp] theorem put1_shared (d : Dev) (n : Nat) (v : W32) (b : Bool) : (put1 d n v b).shared = d.shared := by unfold put1; rfl
@[simp] theorem put1_trigs (d : Dev) (n : Nat) (v : W32) (b : Bool) : (put1 d n v b).trigs = d.trigs := by unfold put1; rfl
@[simp] theorem put1_cells (d : Dev) (n : Nat) (v : W32) (b : Bool) : (put1 d n v b).cells = d.cells := by unfold put1; rfl
@[simp] theorem put1_ctab (d : Dev) (n : Nat) (v : W32) (b : Bool) : (put1 d n v b).ctab = d.ctab := by unfold put1; rfl
@[simp] theorem put1_cores (d : Dev) (n : Nat) (v : W32) (b : Bool) : (put1 d n v b).cores = d.cores := by unfold put1; rfl
@[simp] theorem put1_aos (d : Dev) (n : Nat) (v : W32) (b : Bool) : (put1 d n v b).aos = d.aos := by unfold put1; rfl
@[simp] theorem put1_dios (d : Dev) (n : Nat) (v : W32) (b : Bool) : (put1 d n v b).dios = d.dios := by unfold put1; rfl
@[simp] theorem put1_role (d : Dev) (n : Nat) (v : W32) (b : Bool) : (put1 d n v b).role = d.role := by unfold put1; rfl
@[simp] theorem put1_sf (d : Dev) (n : Nat) (v : W32) (b : Bool) : (put1 d n v b).sf = d.sf := by unfold put1; rfl
@[simp] theorem put1_pls (d : Dev) (n : Nat) (v : W32) (b : Bool) : (put1 d n v b).pls = d.pls := by unfold put1; rfl
@[simp] theorem put1_tw (d : Dev) (n : Nat) (v : W32) (b : Bool) : (put1 d n v b).tw = d.tw := by unfold put1; rfl
@[simp] theorem put1_cxs (d : Dev) (n : Nat) (v : W32) (b : Bool) : (put1 d n v b).cxs = d.cxs := by unfold put1; rfl
@[simp] theorem put1_tb (d : Dev) (n : Nat) (v : W32) (b : Bool) : (put1 d n v b).tb = d.tb := by unfold put1; rfl
@[simp] theorem put1_eths (d : Dev) (n : Nat) (v : W32) (b : Bool) : (put1 d n v b).eths = d.eths := by unfold put1; rfl
@[simp] theorem put1_tl (d : Dev) (n : Nat) (v : W32) (b : Bool) : (put1 d n v b).tl = d.tl := by unfold put1; rfl
@[simp] theorem put1_tk (d : Dev) (n : Nat) (v : W32) (b : Bool) : (put1 d n v b).tk = d.tk := by unfold put1; rfl
@[simp] theorem put1_sram (d : Dev) (n : Nat) (v : W32) (b : Bool) : (put1 d n v b).sram = d.sram := by unfold put1; rfl
@[simp] theorem put1_poison (d : Dev) (n : Nat) (v : W32) (b : Bool) : (put1 d n v b).poison = d.poison := by unfold put1; rfl
@[simp] theorem put1_mram (d : Dev) (n : Nat) (v : W32) (b : Bool) : (put1 d n v b).mram = d.mram := by unfold put1; rfl
@[simp] theorem put1_nv (d : Dev) (n : Nat) (v : W32) (b : Bool) : (put1 d n v b).nv = d.nv := by unfold put1; rfl
@[simp] theorem put1_nvAt (d : Dev) (n : Nat) (v : W32) (b : Bool) : (put1 d n v b).nvAt = d.nvAt := by unfold put1; rfl
@[simp] theorem put1_ring (d : Dev) (n : Nat) (v : W32) (b : Bool) : (put1 d n v b).ring = d.ring := by unfold put1; rfl
@[simp] theorem put1_dir (d : Dev) (n : Nat) (v : W32) (b : Bool) : (put1 d n v b).dir = d.dir := by unfold put1; rfl
@[simp] theorem put1_jn (d : Dev) (n : Nat) (v : W32) (b : Bool) : (put1 d n v b).jn = d.jn := by unfold put1; rfl
@[simp] theorem put1_oh (d : Dev) (n : Nat) (v : W32) (b : Bool) : (put1 d n v b).oh = d.oh := by unfold put1; rfl
@[simp] theorem put1_free (d : Dev) (n : Nat) (v : W32) (b : Bool) : (put1 d n v b).free = d.free := by unfold put1; rfl

/-! ### put2 -/

@[simp] theorem put2_regs (d : Dev) (n : Nat) (v : W32) (b : Bool) : (put2 d n v b).regs = d.regs := by unfold put2; rfl
@[simp] theorem put2_sig (d : Dev) (n : Nat) (v : W32) (b : Bool) : (put2 d n v b).sig = d.sig := by unfold put2; rfl
@[simp] theorem put2_attr (d : Dev) (n : Nat) (v : W32) (b : Bool) : (put2 d n v b).attr = d.attr := by unfold put2; rfl
@[simp] theorem put2_stage1 (d : Dev) (n : Nat) (v : W32) (b : Bool) : (put2 d n v b).stage1 = d.stage1 := by unfold put2; rfl
@[simp] theorem put2_hostq (d : Dev) (n : Nat) (v : W32) (b : Bool) : (put2 d n v b).hostq = d.hostq := by unfold put2; rfl
@[simp] theorem put2_crossing (d : Dev) (n : Nat) (v : W32) (b : Bool) : (put2 d n v b).crossing = d.crossing := by unfold put2; rfl
@[simp] theorem put2_cfgq (d : Dev) (n : Nat) (v : W32) (b : Bool) : (put2 d n v b).cfgq = d.cfgq := by unfold put2; rfl
@[simp] theorem put2_evr (d : Dev) (n : Nat) (v : W32) (b : Bool) : (put2 d n v b).evr = d.evr := by unfold put2; rfl
@[simp] theorem put2_db (d : Dev) (n : Nat) (v : W32) (b : Bool) : (put2 d n v b).db = d.db := by unfold put2; rfl
@[simp] theorem put2_tr (d : Dev) (n : Nat) (v : W32) (b : Bool) : (put2 d n v b).tr = d.tr := by unfold put2; rfl
@[simp] theorem put2_power (d : Dev) (n : Nat) (v : W32) (b : Bool) : (put2 d n v b).power = d.power := by unfold put2; rfl
@[simp] theorem put2_health (d : Dev) (n : Nat) (v : W32) (b : Bool) : (put2 d n v b).health = d.health := by unfold put2; rfl
@[simp] theorem put2_wear (d : Dev) (n : Nat) (v : W32) (b : Bool) : (put2 d n v b).wear = d.wear := by unfold put2; rfl
@[simp] theorem put2_idBusy (d : Dev) (n : Nat) (v : W32) (b : Bool) : (put2 d n v b).idBusy = d.idBusy := by unfold put2; rfl
@[simp] theorem put2_tt (d : Dev) (n : Nat) (v : W32) (b : Bool) : (put2 d n v b).tt = d.tt := by unfold put2; rfl
@[simp] theorem put2_ttFrac (d : Dev) (n : Nat) (v : W32) (b : Bool) : (put2 d n v b).ttFrac = d.ttFrac := by unfold put2; rfl
@[simp] theorem put2_lanes (d : Dev) (n : Nat) (v : W32) (b : Bool) : (put2 d n v b).lanes = d.lanes := by unfold put2; rfl
@[simp] theorem put2_axes (d : Dev) (n : Nat) (v : W32) (b : Bool) : (put2 d n v b).axes = d.axes := by unfold put2; rfl
@[simp] theorem put2_stps (d : Dev) (n : Nat) (v : W32) (b : Bool) : (put2 d n v b).stps = d.stps := by unfold put2; rfl
@[simp] theorem put2_encs (d : Dev) (n : Nat) (v : W32) (b : Bool) : (put2 d n v b).encs = d.encs := by unfold put2; rfl
@[simp] theorem put2_quar (d : Dev) (n : Nat) (v : W32) (b : Bool) : (put2 d n v b).quar = d.quar := by unfold put2; rfl
@[simp] theorem put2_lps (d : Dev) (n : Nat) (v : W32) (b : Bool) : (put2 d n v b).lps = d.lps := by unfold put2; rfl
@[simp] theorem put2_shared (d : Dev) (n : Nat) (v : W32) (b : Bool) : (put2 d n v b).shared = d.shared := by unfold put2; rfl
@[simp] theorem put2_trigs (d : Dev) (n : Nat) (v : W32) (b : Bool) : (put2 d n v b).trigs = d.trigs := by unfold put2; rfl
@[simp] theorem put2_cells (d : Dev) (n : Nat) (v : W32) (b : Bool) : (put2 d n v b).cells = d.cells := by unfold put2; rfl
@[simp] theorem put2_ctab (d : Dev) (n : Nat) (v : W32) (b : Bool) : (put2 d n v b).ctab = d.ctab := by unfold put2; rfl
@[simp] theorem put2_cores (d : Dev) (n : Nat) (v : W32) (b : Bool) : (put2 d n v b).cores = d.cores := by unfold put2; rfl
@[simp] theorem put2_aos (d : Dev) (n : Nat) (v : W32) (b : Bool) : (put2 d n v b).aos = d.aos := by unfold put2; rfl
@[simp] theorem put2_dios (d : Dev) (n : Nat) (v : W32) (b : Bool) : (put2 d n v b).dios = d.dios := by unfold put2; rfl
@[simp] theorem put2_role (d : Dev) (n : Nat) (v : W32) (b : Bool) : (put2 d n v b).role = d.role := by unfold put2; rfl
@[simp] theorem put2_sf (d : Dev) (n : Nat) (v : W32) (b : Bool) : (put2 d n v b).sf = d.sf := by unfold put2; rfl
@[simp] theorem put2_pls (d : Dev) (n : Nat) (v : W32) (b : Bool) : (put2 d n v b).pls = d.pls := by unfold put2; rfl
@[simp] theorem put2_tw (d : Dev) (n : Nat) (v : W32) (b : Bool) : (put2 d n v b).tw = d.tw := by unfold put2; rfl
@[simp] theorem put2_cxs (d : Dev) (n : Nat) (v : W32) (b : Bool) : (put2 d n v b).cxs = d.cxs := by unfold put2; rfl
@[simp] theorem put2_tb (d : Dev) (n : Nat) (v : W32) (b : Bool) : (put2 d n v b).tb = d.tb := by unfold put2; rfl
@[simp] theorem put2_eths (d : Dev) (n : Nat) (v : W32) (b : Bool) : (put2 d n v b).eths = d.eths := by unfold put2; rfl
@[simp] theorem put2_tl (d : Dev) (n : Nat) (v : W32) (b : Bool) : (put2 d n v b).tl = d.tl := by unfold put2; rfl
@[simp] theorem put2_tk (d : Dev) (n : Nat) (v : W32) (b : Bool) : (put2 d n v b).tk = d.tk := by unfold put2; rfl
@[simp] theorem put2_sram (d : Dev) (n : Nat) (v : W32) (b : Bool) : (put2 d n v b).sram = d.sram := by unfold put2; rfl
@[simp] theorem put2_poison (d : Dev) (n : Nat) (v : W32) (b : Bool) : (put2 d n v b).poison = d.poison := by unfold put2; rfl
@[simp] theorem put2_mram (d : Dev) (n : Nat) (v : W32) (b : Bool) : (put2 d n v b).mram = d.mram := by unfold put2; rfl
@[simp] theorem put2_nv (d : Dev) (n : Nat) (v : W32) (b : Bool) : (put2 d n v b).nv = d.nv := by unfold put2; rfl
@[simp] theorem put2_nvAt (d : Dev) (n : Nat) (v : W32) (b : Bool) : (put2 d n v b).nvAt = d.nvAt := by unfold put2; rfl
@[simp] theorem put2_ring (d : Dev) (n : Nat) (v : W32) (b : Bool) : (put2 d n v b).ring = d.ring := by unfold put2; rfl
@[simp] theorem put2_dir (d : Dev) (n : Nat) (v : W32) (b : Bool) : (put2 d n v b).dir = d.dir := by unfold put2; rfl
@[simp] theorem put2_jn (d : Dev) (n : Nat) (v : W32) (b : Bool) : (put2 d n v b).jn = d.jn := by unfold put2; rfl
@[simp] theorem put2_oh (d : Dev) (n : Nat) (v : W32) (b : Bool) : (put2 d n v b).oh = d.oh := by unfold put2; rfl
@[simp] theorem put2_free (d : Dev) (n : Nat) (v : W32) (b : Bool) : (put2 d n v b).free = d.free := by unfold put2; rfl

/-! ### setLane -/

@[simp] theorem setLane_regs (d : Dev) (k : Nat) (x : Lane) : (setLane d k x).regs = d.regs := by unfold setLane; rfl
@[simp] theorem setLane_sig (d : Dev) (k : Nat) (x : Lane) : (setLane d k x).sig = d.sig := by unfold setLane; rfl
@[simp] theorem setLane_attr (d : Dev) (k : Nat) (x : Lane) : (setLane d k x).attr = d.attr := by unfold setLane; rfl
@[simp] theorem setLane_stage1 (d : Dev) (k : Nat) (x : Lane) : (setLane d k x).stage1 = d.stage1 := by unfold setLane; rfl
@[simp] theorem setLane_stage2 (d : Dev) (k : Nat) (x : Lane) : (setLane d k x).stage2 = d.stage2 := by unfold setLane; rfl
@[simp] theorem setLane_hostq (d : Dev) (k : Nat) (x : Lane) : (setLane d k x).hostq = d.hostq := by unfold setLane; rfl
@[simp] theorem setLane_crossing (d : Dev) (k : Nat) (x : Lane) : (setLane d k x).crossing = d.crossing := by unfold setLane; rfl
@[simp] theorem setLane_cfgq (d : Dev) (k : Nat) (x : Lane) : (setLane d k x).cfgq = d.cfgq := by unfold setLane; rfl
@[simp] theorem setLane_evr (d : Dev) (k : Nat) (x : Lane) : (setLane d k x).evr = d.evr := by unfold setLane; rfl
@[simp] theorem setLane_db (d : Dev) (k : Nat) (x : Lane) : (setLane d k x).db = d.db := by unfold setLane; rfl
@[simp] theorem setLane_tr (d : Dev) (k : Nat) (x : Lane) : (setLane d k x).tr = d.tr := by unfold setLane; rfl
@[simp] theorem setLane_power (d : Dev) (k : Nat) (x : Lane) : (setLane d k x).power = d.power := by unfold setLane; rfl
@[simp] theorem setLane_health (d : Dev) (k : Nat) (x : Lane) : (setLane d k x).health = d.health := by unfold setLane; rfl
@[simp] theorem setLane_wear (d : Dev) (k : Nat) (x : Lane) : (setLane d k x).wear = d.wear := by unfold setLane; rfl
@[simp] theorem setLane_idBusy (d : Dev) (k : Nat) (x : Lane) : (setLane d k x).idBusy = d.idBusy := by unfold setLane; rfl
@[simp] theorem setLane_tt (d : Dev) (k : Nat) (x : Lane) : (setLane d k x).tt = d.tt := by unfold setLane; rfl
@[simp] theorem setLane_ttFrac (d : Dev) (k : Nat) (x : Lane) : (setLane d k x).ttFrac = d.ttFrac := by unfold setLane; rfl
@[simp] theorem setLane_axes (d : Dev) (k : Nat) (x : Lane) : (setLane d k x).axes = d.axes := by unfold setLane; rfl
@[simp] theorem setLane_stps (d : Dev) (k : Nat) (x : Lane) : (setLane d k x).stps = d.stps := by unfold setLane; rfl
@[simp] theorem setLane_encs (d : Dev) (k : Nat) (x : Lane) : (setLane d k x).encs = d.encs := by unfold setLane; rfl
@[simp] theorem setLane_quar (d : Dev) (k : Nat) (x : Lane) : (setLane d k x).quar = d.quar := by unfold setLane; rfl
@[simp] theorem setLane_lps (d : Dev) (k : Nat) (x : Lane) : (setLane d k x).lps = d.lps := by unfold setLane; rfl
@[simp] theorem setLane_shared (d : Dev) (k : Nat) (x : Lane) : (setLane d k x).shared = d.shared := by unfold setLane; rfl
@[simp] theorem setLane_trigs (d : Dev) (k : Nat) (x : Lane) : (setLane d k x).trigs = d.trigs := by unfold setLane; rfl
@[simp] theorem setLane_cells (d : Dev) (k : Nat) (x : Lane) : (setLane d k x).cells = d.cells := by unfold setLane; rfl
@[simp] theorem setLane_ctab (d : Dev) (k : Nat) (x : Lane) : (setLane d k x).ctab = d.ctab := by unfold setLane; rfl
@[simp] theorem setLane_cores (d : Dev) (k : Nat) (x : Lane) : (setLane d k x).cores = d.cores := by unfold setLane; rfl
@[simp] theorem setLane_aos (d : Dev) (k : Nat) (x : Lane) : (setLane d k x).aos = d.aos := by unfold setLane; rfl
@[simp] theorem setLane_dios (d : Dev) (k : Nat) (x : Lane) : (setLane d k x).dios = d.dios := by unfold setLane; rfl
@[simp] theorem setLane_role (d : Dev) (k : Nat) (x : Lane) : (setLane d k x).role = d.role := by unfold setLane; rfl
@[simp] theorem setLane_sf (d : Dev) (k : Nat) (x : Lane) : (setLane d k x).sf = d.sf := by unfold setLane; rfl
@[simp] theorem setLane_pls (d : Dev) (k : Nat) (x : Lane) : (setLane d k x).pls = d.pls := by unfold setLane; rfl
@[simp] theorem setLane_tw (d : Dev) (k : Nat) (x : Lane) : (setLane d k x).tw = d.tw := by unfold setLane; rfl
@[simp] theorem setLane_cxs (d : Dev) (k : Nat) (x : Lane) : (setLane d k x).cxs = d.cxs := by unfold setLane; rfl
@[simp] theorem setLane_tb (d : Dev) (k : Nat) (x : Lane) : (setLane d k x).tb = d.tb := by unfold setLane; rfl
@[simp] theorem setLane_eths (d : Dev) (k : Nat) (x : Lane) : (setLane d k x).eths = d.eths := by unfold setLane; rfl
@[simp] theorem setLane_tl (d : Dev) (k : Nat) (x : Lane) : (setLane d k x).tl = d.tl := by unfold setLane; rfl
@[simp] theorem setLane_tk (d : Dev) (k : Nat) (x : Lane) : (setLane d k x).tk = d.tk := by unfold setLane; rfl
@[simp] theorem setLane_sram (d : Dev) (k : Nat) (x : Lane) : (setLane d k x).sram = d.sram := by unfold setLane; rfl
@[simp] theorem setLane_poison (d : Dev) (k : Nat) (x : Lane) : (setLane d k x).poison = d.poison := by unfold setLane; rfl
@[simp] theorem setLane_mram (d : Dev) (k : Nat) (x : Lane) : (setLane d k x).mram = d.mram := by unfold setLane; rfl
@[simp] theorem setLane_nv (d : Dev) (k : Nat) (x : Lane) : (setLane d k x).nv = d.nv := by unfold setLane; rfl
@[simp] theorem setLane_nvAt (d : Dev) (k : Nat) (x : Lane) : (setLane d k x).nvAt = d.nvAt := by unfold setLane; rfl
@[simp] theorem setLane_ring (d : Dev) (k : Nat) (x : Lane) : (setLane d k x).ring = d.ring := by unfold setLane; rfl
@[simp] theorem setLane_dir (d : Dev) (k : Nat) (x : Lane) : (setLane d k x).dir = d.dir := by unfold setLane; rfl
@[simp] theorem setLane_jn (d : Dev) (k : Nat) (x : Lane) : (setLane d k x).jn = d.jn := by unfold setLane; rfl
@[simp] theorem setLane_oh (d : Dev) (k : Nat) (x : Lane) : (setLane d k x).oh = d.oh := by unfold setLane; rfl
@[simp] theorem setLane_free (d : Dev) (k : Nat) (x : Lane) : (setLane d k x).free = d.free := by unfold setLane; rfl

/-! ### setAx -/

@[simp] theorem setAx_regs (d : Dev) (k : Nat) (x : Axis) : (setAx d k x).regs = d.regs := by unfold setAx; rfl
@[simp] theorem setAx_sig (d : Dev) (k : Nat) (x : Axis) : (setAx d k x).sig = d.sig := by unfold setAx; rfl
@[simp] theorem setAx_attr (d : Dev) (k : Nat) (x : Axis) : (setAx d k x).attr = d.attr := by unfold setAx; rfl
@[simp] theorem setAx_stage1 (d : Dev) (k : Nat) (x : Axis) : (setAx d k x).stage1 = d.stage1 := by unfold setAx; rfl
@[simp] theorem setAx_stage2 (d : Dev) (k : Nat) (x : Axis) : (setAx d k x).stage2 = d.stage2 := by unfold setAx; rfl
@[simp] theorem setAx_hostq (d : Dev) (k : Nat) (x : Axis) : (setAx d k x).hostq = d.hostq := by unfold setAx; rfl
@[simp] theorem setAx_crossing (d : Dev) (k : Nat) (x : Axis) : (setAx d k x).crossing = d.crossing := by unfold setAx; rfl
@[simp] theorem setAx_cfgq (d : Dev) (k : Nat) (x : Axis) : (setAx d k x).cfgq = d.cfgq := by unfold setAx; rfl
@[simp] theorem setAx_evr (d : Dev) (k : Nat) (x : Axis) : (setAx d k x).evr = d.evr := by unfold setAx; rfl
@[simp] theorem setAx_db (d : Dev) (k : Nat) (x : Axis) : (setAx d k x).db = d.db := by unfold setAx; rfl
@[simp] theorem setAx_tr (d : Dev) (k : Nat) (x : Axis) : (setAx d k x).tr = d.tr := by unfold setAx; rfl
@[simp] theorem setAx_power (d : Dev) (k : Nat) (x : Axis) : (setAx d k x).power = d.power := by unfold setAx; rfl
@[simp] theorem setAx_health (d : Dev) (k : Nat) (x : Axis) : (setAx d k x).health = d.health := by unfold setAx; rfl
@[simp] theorem setAx_wear (d : Dev) (k : Nat) (x : Axis) : (setAx d k x).wear = d.wear := by unfold setAx; rfl
@[simp] theorem setAx_idBusy (d : Dev) (k : Nat) (x : Axis) : (setAx d k x).idBusy = d.idBusy := by unfold setAx; rfl
@[simp] theorem setAx_tt (d : Dev) (k : Nat) (x : Axis) : (setAx d k x).tt = d.tt := by unfold setAx; rfl
@[simp] theorem setAx_ttFrac (d : Dev) (k : Nat) (x : Axis) : (setAx d k x).ttFrac = d.ttFrac := by unfold setAx; rfl
@[simp] theorem setAx_lanes (d : Dev) (k : Nat) (x : Axis) : (setAx d k x).lanes = d.lanes := by unfold setAx; rfl
@[simp] theorem setAx_stps (d : Dev) (k : Nat) (x : Axis) : (setAx d k x).stps = d.stps := by unfold setAx; rfl
@[simp] theorem setAx_encs (d : Dev) (k : Nat) (x : Axis) : (setAx d k x).encs = d.encs := by unfold setAx; rfl
@[simp] theorem setAx_quar (d : Dev) (k : Nat) (x : Axis) : (setAx d k x).quar = d.quar := by unfold setAx; rfl
@[simp] theorem setAx_lps (d : Dev) (k : Nat) (x : Axis) : (setAx d k x).lps = d.lps := by unfold setAx; rfl
@[simp] theorem setAx_shared (d : Dev) (k : Nat) (x : Axis) : (setAx d k x).shared = d.shared := by unfold setAx; rfl
@[simp] theorem setAx_trigs (d : Dev) (k : Nat) (x : Axis) : (setAx d k x).trigs = d.trigs := by unfold setAx; rfl
@[simp] theorem setAx_cells (d : Dev) (k : Nat) (x : Axis) : (setAx d k x).cells = d.cells := by unfold setAx; rfl
@[simp] theorem setAx_ctab (d : Dev) (k : Nat) (x : Axis) : (setAx d k x).ctab = d.ctab := by unfold setAx; rfl
@[simp] theorem setAx_cores (d : Dev) (k : Nat) (x : Axis) : (setAx d k x).cores = d.cores := by unfold setAx; rfl
@[simp] theorem setAx_aos (d : Dev) (k : Nat) (x : Axis) : (setAx d k x).aos = d.aos := by unfold setAx; rfl
@[simp] theorem setAx_dios (d : Dev) (k : Nat) (x : Axis) : (setAx d k x).dios = d.dios := by unfold setAx; rfl
@[simp] theorem setAx_role (d : Dev) (k : Nat) (x : Axis) : (setAx d k x).role = d.role := by unfold setAx; rfl
@[simp] theorem setAx_sf (d : Dev) (k : Nat) (x : Axis) : (setAx d k x).sf = d.sf := by unfold setAx; rfl
@[simp] theorem setAx_pls (d : Dev) (k : Nat) (x : Axis) : (setAx d k x).pls = d.pls := by unfold setAx; rfl
@[simp] theorem setAx_tw (d : Dev) (k : Nat) (x : Axis) : (setAx d k x).tw = d.tw := by unfold setAx; rfl
@[simp] theorem setAx_cxs (d : Dev) (k : Nat) (x : Axis) : (setAx d k x).cxs = d.cxs := by unfold setAx; rfl
@[simp] theorem setAx_tb (d : Dev) (k : Nat) (x : Axis) : (setAx d k x).tb = d.tb := by unfold setAx; rfl
@[simp] theorem setAx_eths (d : Dev) (k : Nat) (x : Axis) : (setAx d k x).eths = d.eths := by unfold setAx; rfl
@[simp] theorem setAx_tl (d : Dev) (k : Nat) (x : Axis) : (setAx d k x).tl = d.tl := by unfold setAx; rfl
@[simp] theorem setAx_tk (d : Dev) (k : Nat) (x : Axis) : (setAx d k x).tk = d.tk := by unfold setAx; rfl
@[simp] theorem setAx_sram (d : Dev) (k : Nat) (x : Axis) : (setAx d k x).sram = d.sram := by unfold setAx; rfl
@[simp] theorem setAx_poison (d : Dev) (k : Nat) (x : Axis) : (setAx d k x).poison = d.poison := by unfold setAx; rfl
@[simp] theorem setAx_mram (d : Dev) (k : Nat) (x : Axis) : (setAx d k x).mram = d.mram := by unfold setAx; rfl
@[simp] theorem setAx_nv (d : Dev) (k : Nat) (x : Axis) : (setAx d k x).nv = d.nv := by unfold setAx; rfl
@[simp] theorem setAx_nvAt (d : Dev) (k : Nat) (x : Axis) : (setAx d k x).nvAt = d.nvAt := by unfold setAx; rfl
@[simp] theorem setAx_ring (d : Dev) (k : Nat) (x : Axis) : (setAx d k x).ring = d.ring := by unfold setAx; rfl
@[simp] theorem setAx_dir (d : Dev) (k : Nat) (x : Axis) : (setAx d k x).dir = d.dir := by unfold setAx; rfl
@[simp] theorem setAx_jn (d : Dev) (k : Nat) (x : Axis) : (setAx d k x).jn = d.jn := by unfold setAx; rfl
@[simp] theorem setAx_oh (d : Dev) (k : Nat) (x : Axis) : (setAx d k x).oh = d.oh := by unfold setAx; rfl
@[simp] theorem setAx_free (d : Dev) (k : Nat) (x : Axis) : (setAx d k x).free = d.free := by unfold setAx; rfl

/-! ### setStp -/

@[simp] theorem setStp_regs (d : Dev) (k : Nat) (x : Stp) : (setStp d k x).regs = d.regs := by unfold setStp; rfl
@[simp] theorem setStp_sig (d : Dev) (k : Nat) (x : Stp) : (setStp d k x).sig = d.sig := by unfold setStp; rfl
@[simp] theorem setStp_attr (d : Dev) (k : Nat) (x : Stp) : (setStp d k x).attr = d.attr := by unfold setStp; rfl
@[simp] theorem setStp_stage1 (d : Dev) (k : Nat) (x : Stp) : (setStp d k x).stage1 = d.stage1 := by unfold setStp; rfl
@[simp] theorem setStp_stage2 (d : Dev) (k : Nat) (x : Stp) : (setStp d k x).stage2 = d.stage2 := by unfold setStp; rfl
@[simp] theorem setStp_hostq (d : Dev) (k : Nat) (x : Stp) : (setStp d k x).hostq = d.hostq := by unfold setStp; rfl
@[simp] theorem setStp_crossing (d : Dev) (k : Nat) (x : Stp) : (setStp d k x).crossing = d.crossing := by unfold setStp; rfl
@[simp] theorem setStp_cfgq (d : Dev) (k : Nat) (x : Stp) : (setStp d k x).cfgq = d.cfgq := by unfold setStp; rfl
@[simp] theorem setStp_evr (d : Dev) (k : Nat) (x : Stp) : (setStp d k x).evr = d.evr := by unfold setStp; rfl
@[simp] theorem setStp_db (d : Dev) (k : Nat) (x : Stp) : (setStp d k x).db = d.db := by unfold setStp; rfl
@[simp] theorem setStp_tr (d : Dev) (k : Nat) (x : Stp) : (setStp d k x).tr = d.tr := by unfold setStp; rfl
@[simp] theorem setStp_power (d : Dev) (k : Nat) (x : Stp) : (setStp d k x).power = d.power := by unfold setStp; rfl
@[simp] theorem setStp_health (d : Dev) (k : Nat) (x : Stp) : (setStp d k x).health = d.health := by unfold setStp; rfl
@[simp] theorem setStp_wear (d : Dev) (k : Nat) (x : Stp) : (setStp d k x).wear = d.wear := by unfold setStp; rfl
@[simp] theorem setStp_idBusy (d : Dev) (k : Nat) (x : Stp) : (setStp d k x).idBusy = d.idBusy := by unfold setStp; rfl
@[simp] theorem setStp_tt (d : Dev) (k : Nat) (x : Stp) : (setStp d k x).tt = d.tt := by unfold setStp; rfl
@[simp] theorem setStp_ttFrac (d : Dev) (k : Nat) (x : Stp) : (setStp d k x).ttFrac = d.ttFrac := by unfold setStp; rfl
@[simp] theorem setStp_lanes (d : Dev) (k : Nat) (x : Stp) : (setStp d k x).lanes = d.lanes := by unfold setStp; rfl
@[simp] theorem setStp_axes (d : Dev) (k : Nat) (x : Stp) : (setStp d k x).axes = d.axes := by unfold setStp; rfl
@[simp] theorem setStp_encs (d : Dev) (k : Nat) (x : Stp) : (setStp d k x).encs = d.encs := by unfold setStp; rfl
@[simp] theorem setStp_quar (d : Dev) (k : Nat) (x : Stp) : (setStp d k x).quar = d.quar := by unfold setStp; rfl
@[simp] theorem setStp_lps (d : Dev) (k : Nat) (x : Stp) : (setStp d k x).lps = d.lps := by unfold setStp; rfl
@[simp] theorem setStp_shared (d : Dev) (k : Nat) (x : Stp) : (setStp d k x).shared = d.shared := by unfold setStp; rfl
@[simp] theorem setStp_trigs (d : Dev) (k : Nat) (x : Stp) : (setStp d k x).trigs = d.trigs := by unfold setStp; rfl
@[simp] theorem setStp_cells (d : Dev) (k : Nat) (x : Stp) : (setStp d k x).cells = d.cells := by unfold setStp; rfl
@[simp] theorem setStp_ctab (d : Dev) (k : Nat) (x : Stp) : (setStp d k x).ctab = d.ctab := by unfold setStp; rfl
@[simp] theorem setStp_cores (d : Dev) (k : Nat) (x : Stp) : (setStp d k x).cores = d.cores := by unfold setStp; rfl
@[simp] theorem setStp_aos (d : Dev) (k : Nat) (x : Stp) : (setStp d k x).aos = d.aos := by unfold setStp; rfl
@[simp] theorem setStp_dios (d : Dev) (k : Nat) (x : Stp) : (setStp d k x).dios = d.dios := by unfold setStp; rfl
@[simp] theorem setStp_role (d : Dev) (k : Nat) (x : Stp) : (setStp d k x).role = d.role := by unfold setStp; rfl
@[simp] theorem setStp_sf (d : Dev) (k : Nat) (x : Stp) : (setStp d k x).sf = d.sf := by unfold setStp; rfl
@[simp] theorem setStp_pls (d : Dev) (k : Nat) (x : Stp) : (setStp d k x).pls = d.pls := by unfold setStp; rfl
@[simp] theorem setStp_tw (d : Dev) (k : Nat) (x : Stp) : (setStp d k x).tw = d.tw := by unfold setStp; rfl
@[simp] theorem setStp_cxs (d : Dev) (k : Nat) (x : Stp) : (setStp d k x).cxs = d.cxs := by unfold setStp; rfl
@[simp] theorem setStp_tb (d : Dev) (k : Nat) (x : Stp) : (setStp d k x).tb = d.tb := by unfold setStp; rfl
@[simp] theorem setStp_eths (d : Dev) (k : Nat) (x : Stp) : (setStp d k x).eths = d.eths := by unfold setStp; rfl
@[simp] theorem setStp_tl (d : Dev) (k : Nat) (x : Stp) : (setStp d k x).tl = d.tl := by unfold setStp; rfl
@[simp] theorem setStp_tk (d : Dev) (k : Nat) (x : Stp) : (setStp d k x).tk = d.tk := by unfold setStp; rfl
@[simp] theorem setStp_sram (d : Dev) (k : Nat) (x : Stp) : (setStp d k x).sram = d.sram := by unfold setStp; rfl
@[simp] theorem setStp_poison (d : Dev) (k : Nat) (x : Stp) : (setStp d k x).poison = d.poison := by unfold setStp; rfl
@[simp] theorem setStp_mram (d : Dev) (k : Nat) (x : Stp) : (setStp d k x).mram = d.mram := by unfold setStp; rfl
@[simp] theorem setStp_nv (d : Dev) (k : Nat) (x : Stp) : (setStp d k x).nv = d.nv := by unfold setStp; rfl
@[simp] theorem setStp_nvAt (d : Dev) (k : Nat) (x : Stp) : (setStp d k x).nvAt = d.nvAt := by unfold setStp; rfl
@[simp] theorem setStp_ring (d : Dev) (k : Nat) (x : Stp) : (setStp d k x).ring = d.ring := by unfold setStp; rfl
@[simp] theorem setStp_dir (d : Dev) (k : Nat) (x : Stp) : (setStp d k x).dir = d.dir := by unfold setStp; rfl
@[simp] theorem setStp_jn (d : Dev) (k : Nat) (x : Stp) : (setStp d k x).jn = d.jn := by unfold setStp; rfl
@[simp] theorem setStp_oh (d : Dev) (k : Nat) (x : Stp) : (setStp d k x).oh = d.oh := by unfold setStp; rfl
@[simp] theorem setStp_free (d : Dev) (k : Nat) (x : Stp) : (setStp d k x).free = d.free := by unfold setStp; rfl

/-! ### setEnc -/

@[simp] theorem setEnc_regs (d : Dev) (k : Nat) (x : Enc) : (setEnc d k x).regs = d.regs := by unfold setEnc; rfl
@[simp] theorem setEnc_sig (d : Dev) (k : Nat) (x : Enc) : (setEnc d k x).sig = d.sig := by unfold setEnc; rfl
@[simp] theorem setEnc_attr (d : Dev) (k : Nat) (x : Enc) : (setEnc d k x).attr = d.attr := by unfold setEnc; rfl
@[simp] theorem setEnc_stage1 (d : Dev) (k : Nat) (x : Enc) : (setEnc d k x).stage1 = d.stage1 := by unfold setEnc; rfl
@[simp] theorem setEnc_stage2 (d : Dev) (k : Nat) (x : Enc) : (setEnc d k x).stage2 = d.stage2 := by unfold setEnc; rfl
@[simp] theorem setEnc_hostq (d : Dev) (k : Nat) (x : Enc) : (setEnc d k x).hostq = d.hostq := by unfold setEnc; rfl
@[simp] theorem setEnc_crossing (d : Dev) (k : Nat) (x : Enc) : (setEnc d k x).crossing = d.crossing := by unfold setEnc; rfl
@[simp] theorem setEnc_cfgq (d : Dev) (k : Nat) (x : Enc) : (setEnc d k x).cfgq = d.cfgq := by unfold setEnc; rfl
@[simp] theorem setEnc_evr (d : Dev) (k : Nat) (x : Enc) : (setEnc d k x).evr = d.evr := by unfold setEnc; rfl
@[simp] theorem setEnc_db (d : Dev) (k : Nat) (x : Enc) : (setEnc d k x).db = d.db := by unfold setEnc; rfl
@[simp] theorem setEnc_tr (d : Dev) (k : Nat) (x : Enc) : (setEnc d k x).tr = d.tr := by unfold setEnc; rfl
@[simp] theorem setEnc_power (d : Dev) (k : Nat) (x : Enc) : (setEnc d k x).power = d.power := by unfold setEnc; rfl
@[simp] theorem setEnc_health (d : Dev) (k : Nat) (x : Enc) : (setEnc d k x).health = d.health := by unfold setEnc; rfl
@[simp] theorem setEnc_wear (d : Dev) (k : Nat) (x : Enc) : (setEnc d k x).wear = d.wear := by unfold setEnc; rfl
@[simp] theorem setEnc_idBusy (d : Dev) (k : Nat) (x : Enc) : (setEnc d k x).idBusy = d.idBusy := by unfold setEnc; rfl
@[simp] theorem setEnc_tt (d : Dev) (k : Nat) (x : Enc) : (setEnc d k x).tt = d.tt := by unfold setEnc; rfl
@[simp] theorem setEnc_ttFrac (d : Dev) (k : Nat) (x : Enc) : (setEnc d k x).ttFrac = d.ttFrac := by unfold setEnc; rfl
@[simp] theorem setEnc_lanes (d : Dev) (k : Nat) (x : Enc) : (setEnc d k x).lanes = d.lanes := by unfold setEnc; rfl
@[simp] theorem setEnc_axes (d : Dev) (k : Nat) (x : Enc) : (setEnc d k x).axes = d.axes := by unfold setEnc; rfl
@[simp] theorem setEnc_stps (d : Dev) (k : Nat) (x : Enc) : (setEnc d k x).stps = d.stps := by unfold setEnc; rfl
@[simp] theorem setEnc_quar (d : Dev) (k : Nat) (x : Enc) : (setEnc d k x).quar = d.quar := by unfold setEnc; rfl
@[simp] theorem setEnc_lps (d : Dev) (k : Nat) (x : Enc) : (setEnc d k x).lps = d.lps := by unfold setEnc; rfl
@[simp] theorem setEnc_shared (d : Dev) (k : Nat) (x : Enc) : (setEnc d k x).shared = d.shared := by unfold setEnc; rfl
@[simp] theorem setEnc_trigs (d : Dev) (k : Nat) (x : Enc) : (setEnc d k x).trigs = d.trigs := by unfold setEnc; rfl
@[simp] theorem setEnc_cells (d : Dev) (k : Nat) (x : Enc) : (setEnc d k x).cells = d.cells := by unfold setEnc; rfl
@[simp] theorem setEnc_ctab (d : Dev) (k : Nat) (x : Enc) : (setEnc d k x).ctab = d.ctab := by unfold setEnc; rfl
@[simp] theorem setEnc_cores (d : Dev) (k : Nat) (x : Enc) : (setEnc d k x).cores = d.cores := by unfold setEnc; rfl
@[simp] theorem setEnc_aos (d : Dev) (k : Nat) (x : Enc) : (setEnc d k x).aos = d.aos := by unfold setEnc; rfl
@[simp] theorem setEnc_dios (d : Dev) (k : Nat) (x : Enc) : (setEnc d k x).dios = d.dios := by unfold setEnc; rfl
@[simp] theorem setEnc_role (d : Dev) (k : Nat) (x : Enc) : (setEnc d k x).role = d.role := by unfold setEnc; rfl
@[simp] theorem setEnc_sf (d : Dev) (k : Nat) (x : Enc) : (setEnc d k x).sf = d.sf := by unfold setEnc; rfl
@[simp] theorem setEnc_pls (d : Dev) (k : Nat) (x : Enc) : (setEnc d k x).pls = d.pls := by unfold setEnc; rfl
@[simp] theorem setEnc_tw (d : Dev) (k : Nat) (x : Enc) : (setEnc d k x).tw = d.tw := by unfold setEnc; rfl
@[simp] theorem setEnc_cxs (d : Dev) (k : Nat) (x : Enc) : (setEnc d k x).cxs = d.cxs := by unfold setEnc; rfl
@[simp] theorem setEnc_tb (d : Dev) (k : Nat) (x : Enc) : (setEnc d k x).tb = d.tb := by unfold setEnc; rfl
@[simp] theorem setEnc_eths (d : Dev) (k : Nat) (x : Enc) : (setEnc d k x).eths = d.eths := by unfold setEnc; rfl
@[simp] theorem setEnc_tl (d : Dev) (k : Nat) (x : Enc) : (setEnc d k x).tl = d.tl := by unfold setEnc; rfl
@[simp] theorem setEnc_tk (d : Dev) (k : Nat) (x : Enc) : (setEnc d k x).tk = d.tk := by unfold setEnc; rfl
@[simp] theorem setEnc_sram (d : Dev) (k : Nat) (x : Enc) : (setEnc d k x).sram = d.sram := by unfold setEnc; rfl
@[simp] theorem setEnc_poison (d : Dev) (k : Nat) (x : Enc) : (setEnc d k x).poison = d.poison := by unfold setEnc; rfl
@[simp] theorem setEnc_mram (d : Dev) (k : Nat) (x : Enc) : (setEnc d k x).mram = d.mram := by unfold setEnc; rfl
@[simp] theorem setEnc_nv (d : Dev) (k : Nat) (x : Enc) : (setEnc d k x).nv = d.nv := by unfold setEnc; rfl
@[simp] theorem setEnc_nvAt (d : Dev) (k : Nat) (x : Enc) : (setEnc d k x).nvAt = d.nvAt := by unfold setEnc; rfl
@[simp] theorem setEnc_ring (d : Dev) (k : Nat) (x : Enc) : (setEnc d k x).ring = d.ring := by unfold setEnc; rfl
@[simp] theorem setEnc_dir (d : Dev) (k : Nat) (x : Enc) : (setEnc d k x).dir = d.dir := by unfold setEnc; rfl
@[simp] theorem setEnc_jn (d : Dev) (k : Nat) (x : Enc) : (setEnc d k x).jn = d.jn := by unfold setEnc; rfl
@[simp] theorem setEnc_oh (d : Dev) (k : Nat) (x : Enc) : (setEnc d k x).oh = d.oh := by unfold setEnc; rfl
@[simp] theorem setEnc_free (d : Dev) (k : Nat) (x : Enc) : (setEnc d k x).free = d.free := by unfold setEnc; rfl

/-! ### setLp -/

@[simp] theorem setLp_regs (d : Dev) (k : Nat) (x : Lp) : (setLp d k x).regs = d.regs := by unfold setLp; rfl
@[simp] theorem setLp_sig (d : Dev) (k : Nat) (x : Lp) : (setLp d k x).sig = d.sig := by unfold setLp; rfl
@[simp] theorem setLp_attr (d : Dev) (k : Nat) (x : Lp) : (setLp d k x).attr = d.attr := by unfold setLp; rfl
@[simp] theorem setLp_stage1 (d : Dev) (k : Nat) (x : Lp) : (setLp d k x).stage1 = d.stage1 := by unfold setLp; rfl
@[simp] theorem setLp_stage2 (d : Dev) (k : Nat) (x : Lp) : (setLp d k x).stage2 = d.stage2 := by unfold setLp; rfl
@[simp] theorem setLp_hostq (d : Dev) (k : Nat) (x : Lp) : (setLp d k x).hostq = d.hostq := by unfold setLp; rfl
@[simp] theorem setLp_crossing (d : Dev) (k : Nat) (x : Lp) : (setLp d k x).crossing = d.crossing := by unfold setLp; rfl
@[simp] theorem setLp_cfgq (d : Dev) (k : Nat) (x : Lp) : (setLp d k x).cfgq = d.cfgq := by unfold setLp; rfl
@[simp] theorem setLp_evr (d : Dev) (k : Nat) (x : Lp) : (setLp d k x).evr = d.evr := by unfold setLp; rfl
@[simp] theorem setLp_db (d : Dev) (k : Nat) (x : Lp) : (setLp d k x).db = d.db := by unfold setLp; rfl
@[simp] theorem setLp_tr (d : Dev) (k : Nat) (x : Lp) : (setLp d k x).tr = d.tr := by unfold setLp; rfl
@[simp] theorem setLp_power (d : Dev) (k : Nat) (x : Lp) : (setLp d k x).power = d.power := by unfold setLp; rfl
@[simp] theorem setLp_health (d : Dev) (k : Nat) (x : Lp) : (setLp d k x).health = d.health := by unfold setLp; rfl
@[simp] theorem setLp_wear (d : Dev) (k : Nat) (x : Lp) : (setLp d k x).wear = d.wear := by unfold setLp; rfl
@[simp] theorem setLp_idBusy (d : Dev) (k : Nat) (x : Lp) : (setLp d k x).idBusy = d.idBusy := by unfold setLp; rfl
@[simp] theorem setLp_tt (d : Dev) (k : Nat) (x : Lp) : (setLp d k x).tt = d.tt := by unfold setLp; rfl
@[simp] theorem setLp_ttFrac (d : Dev) (k : Nat) (x : Lp) : (setLp d k x).ttFrac = d.ttFrac := by unfold setLp; rfl
@[simp] theorem setLp_lanes (d : Dev) (k : Nat) (x : Lp) : (setLp d k x).lanes = d.lanes := by unfold setLp; rfl
@[simp] theorem setLp_axes (d : Dev) (k : Nat) (x : Lp) : (setLp d k x).axes = d.axes := by unfold setLp; rfl
@[simp] theorem setLp_stps (d : Dev) (k : Nat) (x : Lp) : (setLp d k x).stps = d.stps := by unfold setLp; rfl
@[simp] theorem setLp_encs (d : Dev) (k : Nat) (x : Lp) : (setLp d k x).encs = d.encs := by unfold setLp; rfl
@[simp] theorem setLp_quar (d : Dev) (k : Nat) (x : Lp) : (setLp d k x).quar = d.quar := by unfold setLp; rfl
@[simp] theorem setLp_shared (d : Dev) (k : Nat) (x : Lp) : (setLp d k x).shared = d.shared := by unfold setLp; rfl
@[simp] theorem setLp_trigs (d : Dev) (k : Nat) (x : Lp) : (setLp d k x).trigs = d.trigs := by unfold setLp; rfl
@[simp] theorem setLp_cells (d : Dev) (k : Nat) (x : Lp) : (setLp d k x).cells = d.cells := by unfold setLp; rfl
@[simp] theorem setLp_ctab (d : Dev) (k : Nat) (x : Lp) : (setLp d k x).ctab = d.ctab := by unfold setLp; rfl
@[simp] theorem setLp_cores (d : Dev) (k : Nat) (x : Lp) : (setLp d k x).cores = d.cores := by unfold setLp; rfl
@[simp] theorem setLp_aos (d : Dev) (k : Nat) (x : Lp) : (setLp d k x).aos = d.aos := by unfold setLp; rfl
@[simp] theorem setLp_dios (d : Dev) (k : Nat) (x : Lp) : (setLp d k x).dios = d.dios := by unfold setLp; rfl
@[simp] theorem setLp_role (d : Dev) (k : Nat) (x : Lp) : (setLp d k x).role = d.role := by unfold setLp; rfl
@[simp] theorem setLp_sf (d : Dev) (k : Nat) (x : Lp) : (setLp d k x).sf = d.sf := by unfold setLp; rfl
@[simp] theorem setLp_pls (d : Dev) (k : Nat) (x : Lp) : (setLp d k x).pls = d.pls := by unfold setLp; rfl
@[simp] theorem setLp_tw (d : Dev) (k : Nat) (x : Lp) : (setLp d k x).tw = d.tw := by unfold setLp; rfl
@[simp] theorem setLp_cxs (d : Dev) (k : Nat) (x : Lp) : (setLp d k x).cxs = d.cxs := by unfold setLp; rfl
@[simp] theorem setLp_tb (d : Dev) (k : Nat) (x : Lp) : (setLp d k x).tb = d.tb := by unfold setLp; rfl
@[simp] theorem setLp_eths (d : Dev) (k : Nat) (x : Lp) : (setLp d k x).eths = d.eths := by unfold setLp; rfl
@[simp] theorem setLp_tl (d : Dev) (k : Nat) (x : Lp) : (setLp d k x).tl = d.tl := by unfold setLp; rfl
@[simp] theorem setLp_tk (d : Dev) (k : Nat) (x : Lp) : (setLp d k x).tk = d.tk := by unfold setLp; rfl
@[simp] theorem setLp_sram (d : Dev) (k : Nat) (x : Lp) : (setLp d k x).sram = d.sram := by unfold setLp; rfl
@[simp] theorem setLp_poison (d : Dev) (k : Nat) (x : Lp) : (setLp d k x).poison = d.poison := by unfold setLp; rfl
@[simp] theorem setLp_mram (d : Dev) (k : Nat) (x : Lp) : (setLp d k x).mram = d.mram := by unfold setLp; rfl
@[simp] theorem setLp_nv (d : Dev) (k : Nat) (x : Lp) : (setLp d k x).nv = d.nv := by unfold setLp; rfl
@[simp] theorem setLp_nvAt (d : Dev) (k : Nat) (x : Lp) : (setLp d k x).nvAt = d.nvAt := by unfold setLp; rfl
@[simp] theorem setLp_ring (d : Dev) (k : Nat) (x : Lp) : (setLp d k x).ring = d.ring := by unfold setLp; rfl
@[simp] theorem setLp_dir (d : Dev) (k : Nat) (x : Lp) : (setLp d k x).dir = d.dir := by unfold setLp; rfl
@[simp] theorem setLp_jn (d : Dev) (k : Nat) (x : Lp) : (setLp d k x).jn = d.jn := by unfold setLp; rfl
@[simp] theorem setLp_oh (d : Dev) (k : Nat) (x : Lp) : (setLp d k x).oh = d.oh := by unfold setLp; rfl
@[simp] theorem setLp_free (d : Dev) (k : Nat) (x : Lp) : (setLp d k x).free = d.free := by unfold setLp; rfl

/-! ### setCell -/

@[simp] theorem setCell_regs (d : Dev) (k : Nat) (x : Cell) : (setCell d k x).regs = d.regs := by unfold setCell; rfl
@[simp] theorem setCell_sig (d : Dev) (k : Nat) (x : Cell) : (setCell d k x).sig = d.sig := by unfold setCell; rfl
@[simp] theorem setCell_attr (d : Dev) (k : Nat) (x : Cell) : (setCell d k x).attr = d.attr := by unfold setCell; rfl
@[simp] theorem setCell_stage1 (d : Dev) (k : Nat) (x : Cell) : (setCell d k x).stage1 = d.stage1 := by unfold setCell; rfl
@[simp] theorem setCell_stage2 (d : Dev) (k : Nat) (x : Cell) : (setCell d k x).stage2 = d.stage2 := by unfold setCell; rfl
@[simp] theorem setCell_hostq (d : Dev) (k : Nat) (x : Cell) : (setCell d k x).hostq = d.hostq := by unfold setCell; rfl
@[simp] theorem setCell_crossing (d : Dev) (k : Nat) (x : Cell) : (setCell d k x).crossing = d.crossing := by unfold setCell; rfl
@[simp] theorem setCell_cfgq (d : Dev) (k : Nat) (x : Cell) : (setCell d k x).cfgq = d.cfgq := by unfold setCell; rfl
@[simp] theorem setCell_evr (d : Dev) (k : Nat) (x : Cell) : (setCell d k x).evr = d.evr := by unfold setCell; rfl
@[simp] theorem setCell_db (d : Dev) (k : Nat) (x : Cell) : (setCell d k x).db = d.db := by unfold setCell; rfl
@[simp] theorem setCell_tr (d : Dev) (k : Nat) (x : Cell) : (setCell d k x).tr = d.tr := by unfold setCell; rfl
@[simp] theorem setCell_power (d : Dev) (k : Nat) (x : Cell) : (setCell d k x).power = d.power := by unfold setCell; rfl
@[simp] theorem setCell_health (d : Dev) (k : Nat) (x : Cell) : (setCell d k x).health = d.health := by unfold setCell; rfl
@[simp] theorem setCell_wear (d : Dev) (k : Nat) (x : Cell) : (setCell d k x).wear = d.wear := by unfold setCell; rfl
@[simp] theorem setCell_idBusy (d : Dev) (k : Nat) (x : Cell) : (setCell d k x).idBusy = d.idBusy := by unfold setCell; rfl
@[simp] theorem setCell_tt (d : Dev) (k : Nat) (x : Cell) : (setCell d k x).tt = d.tt := by unfold setCell; rfl
@[simp] theorem setCell_ttFrac (d : Dev) (k : Nat) (x : Cell) : (setCell d k x).ttFrac = d.ttFrac := by unfold setCell; rfl
@[simp] theorem setCell_lanes (d : Dev) (k : Nat) (x : Cell) : (setCell d k x).lanes = d.lanes := by unfold setCell; rfl
@[simp] theorem setCell_axes (d : Dev) (k : Nat) (x : Cell) : (setCell d k x).axes = d.axes := by unfold setCell; rfl
@[simp] theorem setCell_stps (d : Dev) (k : Nat) (x : Cell) : (setCell d k x).stps = d.stps := by unfold setCell; rfl
@[simp] theorem setCell_encs (d : Dev) (k : Nat) (x : Cell) : (setCell d k x).encs = d.encs := by unfold setCell; rfl
@[simp] theorem setCell_quar (d : Dev) (k : Nat) (x : Cell) : (setCell d k x).quar = d.quar := by unfold setCell; rfl
@[simp] theorem setCell_lps (d : Dev) (k : Nat) (x : Cell) : (setCell d k x).lps = d.lps := by unfold setCell; rfl
@[simp] theorem setCell_shared (d : Dev) (k : Nat) (x : Cell) : (setCell d k x).shared = d.shared := by unfold setCell; rfl
@[simp] theorem setCell_trigs (d : Dev) (k : Nat) (x : Cell) : (setCell d k x).trigs = d.trigs := by unfold setCell; rfl
@[simp] theorem setCell_ctab (d : Dev) (k : Nat) (x : Cell) : (setCell d k x).ctab = d.ctab := by unfold setCell; rfl
@[simp] theorem setCell_cores (d : Dev) (k : Nat) (x : Cell) : (setCell d k x).cores = d.cores := by unfold setCell; rfl
@[simp] theorem setCell_aos (d : Dev) (k : Nat) (x : Cell) : (setCell d k x).aos = d.aos := by unfold setCell; rfl
@[simp] theorem setCell_dios (d : Dev) (k : Nat) (x : Cell) : (setCell d k x).dios = d.dios := by unfold setCell; rfl
@[simp] theorem setCell_role (d : Dev) (k : Nat) (x : Cell) : (setCell d k x).role = d.role := by unfold setCell; rfl
@[simp] theorem setCell_sf (d : Dev) (k : Nat) (x : Cell) : (setCell d k x).sf = d.sf := by unfold setCell; rfl
@[simp] theorem setCell_pls (d : Dev) (k : Nat) (x : Cell) : (setCell d k x).pls = d.pls := by unfold setCell; rfl
@[simp] theorem setCell_tw (d : Dev) (k : Nat) (x : Cell) : (setCell d k x).tw = d.tw := by unfold setCell; rfl
@[simp] theorem setCell_cxs (d : Dev) (k : Nat) (x : Cell) : (setCell d k x).cxs = d.cxs := by unfold setCell; rfl
@[simp] theorem setCell_tb (d : Dev) (k : Nat) (x : Cell) : (setCell d k x).tb = d.tb := by unfold setCell; rfl
@[simp] theorem setCell_eths (d : Dev) (k : Nat) (x : Cell) : (setCell d k x).eths = d.eths := by unfold setCell; rfl
@[simp] theorem setCell_tl (d : Dev) (k : Nat) (x : Cell) : (setCell d k x).tl = d.tl := by unfold setCell; rfl
@[simp] theorem setCell_tk (d : Dev) (k : Nat) (x : Cell) : (setCell d k x).tk = d.tk := by unfold setCell; rfl
@[simp] theorem setCell_sram (d : Dev) (k : Nat) (x : Cell) : (setCell d k x).sram = d.sram := by unfold setCell; rfl
@[simp] theorem setCell_poison (d : Dev) (k : Nat) (x : Cell) : (setCell d k x).poison = d.poison := by unfold setCell; rfl
@[simp] theorem setCell_mram (d : Dev) (k : Nat) (x : Cell) : (setCell d k x).mram = d.mram := by unfold setCell; rfl
@[simp] theorem setCell_nv (d : Dev) (k : Nat) (x : Cell) : (setCell d k x).nv = d.nv := by unfold setCell; rfl
@[simp] theorem setCell_nvAt (d : Dev) (k : Nat) (x : Cell) : (setCell d k x).nvAt = d.nvAt := by unfold setCell; rfl
@[simp] theorem setCell_ring (d : Dev) (k : Nat) (x : Cell) : (setCell d k x).ring = d.ring := by unfold setCell; rfl
@[simp] theorem setCell_dir (d : Dev) (k : Nat) (x : Cell) : (setCell d k x).dir = d.dir := by unfold setCell; rfl
@[simp] theorem setCell_jn (d : Dev) (k : Nat) (x : Cell) : (setCell d k x).jn = d.jn := by unfold setCell; rfl
@[simp] theorem setCell_oh (d : Dev) (k : Nat) (x : Cell) : (setCell d k x).oh = d.oh := by unfold setCell; rfl
@[simp] theorem setCell_free (d : Dev) (k : Nat) (x : Cell) : (setCell d k x).free = d.free := by unfold setCell; rfl

/-! ### setCore -/

@[simp] theorem setCore_regs (d : Dev) (k : Nat) (x : Core) : (setCore d k x).regs = d.regs := by unfold setCore; rfl
@[simp] theorem setCore_sig (d : Dev) (k : Nat) (x : Core) : (setCore d k x).sig = d.sig := by unfold setCore; rfl
@[simp] theorem setCore_attr (d : Dev) (k : Nat) (x : Core) : (setCore d k x).attr = d.attr := by unfold setCore; rfl
@[simp] theorem setCore_stage1 (d : Dev) (k : Nat) (x : Core) : (setCore d k x).stage1 = d.stage1 := by unfold setCore; rfl
@[simp] theorem setCore_stage2 (d : Dev) (k : Nat) (x : Core) : (setCore d k x).stage2 = d.stage2 := by unfold setCore; rfl
@[simp] theorem setCore_hostq (d : Dev) (k : Nat) (x : Core) : (setCore d k x).hostq = d.hostq := by unfold setCore; rfl
@[simp] theorem setCore_crossing (d : Dev) (k : Nat) (x : Core) : (setCore d k x).crossing = d.crossing := by unfold setCore; rfl
@[simp] theorem setCore_cfgq (d : Dev) (k : Nat) (x : Core) : (setCore d k x).cfgq = d.cfgq := by unfold setCore; rfl
@[simp] theorem setCore_evr (d : Dev) (k : Nat) (x : Core) : (setCore d k x).evr = d.evr := by unfold setCore; rfl
@[simp] theorem setCore_db (d : Dev) (k : Nat) (x : Core) : (setCore d k x).db = d.db := by unfold setCore; rfl
@[simp] theorem setCore_tr (d : Dev) (k : Nat) (x : Core) : (setCore d k x).tr = d.tr := by unfold setCore; rfl
@[simp] theorem setCore_power (d : Dev) (k : Nat) (x : Core) : (setCore d k x).power = d.power := by unfold setCore; rfl
@[simp] theorem setCore_health (d : Dev) (k : Nat) (x : Core) : (setCore d k x).health = d.health := by unfold setCore; rfl
@[simp] theorem setCore_wear (d : Dev) (k : Nat) (x : Core) : (setCore d k x).wear = d.wear := by unfold setCore; rfl
@[simp] theorem setCore_idBusy (d : Dev) (k : Nat) (x : Core) : (setCore d k x).idBusy = d.idBusy := by unfold setCore; rfl
@[simp] theorem setCore_tt (d : Dev) (k : Nat) (x : Core) : (setCore d k x).tt = d.tt := by unfold setCore; rfl
@[simp] theorem setCore_ttFrac (d : Dev) (k : Nat) (x : Core) : (setCore d k x).ttFrac = d.ttFrac := by unfold setCore; rfl
@[simp] theorem setCore_lanes (d : Dev) (k : Nat) (x : Core) : (setCore d k x).lanes = d.lanes := by unfold setCore; rfl
@[simp] theorem setCore_axes (d : Dev) (k : Nat) (x : Core) : (setCore d k x).axes = d.axes := by unfold setCore; rfl
@[simp] theorem setCore_stps (d : Dev) (k : Nat) (x : Core) : (setCore d k x).stps = d.stps := by unfold setCore; rfl
@[simp] theorem setCore_encs (d : Dev) (k : Nat) (x : Core) : (setCore d k x).encs = d.encs := by unfold setCore; rfl
@[simp] theorem setCore_quar (d : Dev) (k : Nat) (x : Core) : (setCore d k x).quar = d.quar := by unfold setCore; rfl
@[simp] theorem setCore_lps (d : Dev) (k : Nat) (x : Core) : (setCore d k x).lps = d.lps := by unfold setCore; rfl
@[simp] theorem setCore_shared (d : Dev) (k : Nat) (x : Core) : (setCore d k x).shared = d.shared := by unfold setCore; rfl
@[simp] theorem setCore_trigs (d : Dev) (k : Nat) (x : Core) : (setCore d k x).trigs = d.trigs := by unfold setCore; rfl
@[simp] theorem setCore_cells (d : Dev) (k : Nat) (x : Core) : (setCore d k x).cells = d.cells := by unfold setCore; rfl
@[simp] theorem setCore_ctab (d : Dev) (k : Nat) (x : Core) : (setCore d k x).ctab = d.ctab := by unfold setCore; rfl
@[simp] theorem setCore_aos (d : Dev) (k : Nat) (x : Core) : (setCore d k x).aos = d.aos := by unfold setCore; rfl
@[simp] theorem setCore_dios (d : Dev) (k : Nat) (x : Core) : (setCore d k x).dios = d.dios := by unfold setCore; rfl
@[simp] theorem setCore_role (d : Dev) (k : Nat) (x : Core) : (setCore d k x).role = d.role := by unfold setCore; rfl
@[simp] theorem setCore_sf (d : Dev) (k : Nat) (x : Core) : (setCore d k x).sf = d.sf := by unfold setCore; rfl
@[simp] theorem setCore_pls (d : Dev) (k : Nat) (x : Core) : (setCore d k x).pls = d.pls := by unfold setCore; rfl
@[simp] theorem setCore_tw (d : Dev) (k : Nat) (x : Core) : (setCore d k x).tw = d.tw := by unfold setCore; rfl
@[simp] theorem setCore_cxs (d : Dev) (k : Nat) (x : Core) : (setCore d k x).cxs = d.cxs := by unfold setCore; rfl
@[simp] theorem setCore_tb (d : Dev) (k : Nat) (x : Core) : (setCore d k x).tb = d.tb := by unfold setCore; rfl
@[simp] theorem setCore_eths (d : Dev) (k : Nat) (x : Core) : (setCore d k x).eths = d.eths := by unfold setCore; rfl
@[simp] theorem setCore_tl (d : Dev) (k : Nat) (x : Core) : (setCore d k x).tl = d.tl := by unfold setCore; rfl
@[simp] theorem setCore_tk (d : Dev) (k : Nat) (x : Core) : (setCore d k x).tk = d.tk := by unfold setCore; rfl
@[simp] theorem setCore_sram (d : Dev) (k : Nat) (x : Core) : (setCore d k x).sram = d.sram := by unfold setCore; rfl
@[simp] theorem setCore_poison (d : Dev) (k : Nat) (x : Core) : (setCore d k x).poison = d.poison := by unfold setCore; rfl
@[simp] theorem setCore_mram (d : Dev) (k : Nat) (x : Core) : (setCore d k x).mram = d.mram := by unfold setCore; rfl
@[simp] theorem setCore_nv (d : Dev) (k : Nat) (x : Core) : (setCore d k x).nv = d.nv := by unfold setCore; rfl
@[simp] theorem setCore_nvAt (d : Dev) (k : Nat) (x : Core) : (setCore d k x).nvAt = d.nvAt := by unfold setCore; rfl
@[simp] theorem setCore_ring (d : Dev) (k : Nat) (x : Core) : (setCore d k x).ring = d.ring := by unfold setCore; rfl
@[simp] theorem setCore_dir (d : Dev) (k : Nat) (x : Core) : (setCore d k x).dir = d.dir := by unfold setCore; rfl
@[simp] theorem setCore_jn (d : Dev) (k : Nat) (x : Core) : (setCore d k x).jn = d.jn := by unfold setCore; rfl
@[simp] theorem setCore_oh (d : Dev) (k : Nat) (x : Core) : (setCore d k x).oh = d.oh := by unfold setCore; rfl
@[simp] theorem setCore_free (d : Dev) (k : Nat) (x : Core) : (setCore d k x).free = d.free := by unfold setCore; rfl

/-! ### setAo -/

@[simp] theorem setAo_regs (d : Dev) (k : Nat) (x : AoCh) : (setAo d k x).regs = d.regs := by unfold setAo; rfl
@[simp] theorem setAo_sig (d : Dev) (k : Nat) (x : AoCh) : (setAo d k x).sig = d.sig := by unfold setAo; rfl
@[simp] theorem setAo_attr (d : Dev) (k : Nat) (x : AoCh) : (setAo d k x).attr = d.attr := by unfold setAo; rfl
@[simp] theorem setAo_stage1 (d : Dev) (k : Nat) (x : AoCh) : (setAo d k x).stage1 = d.stage1 := by unfold setAo; rfl
@[simp] theorem setAo_stage2 (d : Dev) (k : Nat) (x : AoCh) : (setAo d k x).stage2 = d.stage2 := by unfold setAo; rfl
@[simp] theorem setAo_hostq (d : Dev) (k : Nat) (x : AoCh) : (setAo d k x).hostq = d.hostq := by unfold setAo; rfl
@[simp] theorem setAo_crossing (d : Dev) (k : Nat) (x : AoCh) : (setAo d k x).crossing = d.crossing := by unfold setAo; rfl
@[simp] theorem setAo_cfgq (d : Dev) (k : Nat) (x : AoCh) : (setAo d k x).cfgq = d.cfgq := by unfold setAo; rfl
@[simp] theorem setAo_evr (d : Dev) (k : Nat) (x : AoCh) : (setAo d k x).evr = d.evr := by unfold setAo; rfl
@[simp] theorem setAo_db (d : Dev) (k : Nat) (x : AoCh) : (setAo d k x).db = d.db := by unfold setAo; rfl
@[simp] theorem setAo_tr (d : Dev) (k : Nat) (x : AoCh) : (setAo d k x).tr = d.tr := by unfold setAo; rfl
@[simp] theorem setAo_power (d : Dev) (k : Nat) (x : AoCh) : (setAo d k x).power = d.power := by unfold setAo; rfl
@[simp] theorem setAo_health (d : Dev) (k : Nat) (x : AoCh) : (setAo d k x).health = d.health := by unfold setAo; rfl
@[simp] theorem setAo_wear (d : Dev) (k : Nat) (x : AoCh) : (setAo d k x).wear = d.wear := by unfold setAo; rfl
@[simp] theorem setAo_idBusy (d : Dev) (k : Nat) (x : AoCh) : (setAo d k x).idBusy = d.idBusy := by unfold setAo; rfl
@[simp] theorem setAo_tt (d : Dev) (k : Nat) (x : AoCh) : (setAo d k x).tt = d.tt := by unfold setAo; rfl
@[simp] theorem setAo_ttFrac (d : Dev) (k : Nat) (x : AoCh) : (setAo d k x).ttFrac = d.ttFrac := by unfold setAo; rfl
@[simp] theorem setAo_lanes (d : Dev) (k : Nat) (x : AoCh) : (setAo d k x).lanes = d.lanes := by unfold setAo; rfl
@[simp] theorem setAo_axes (d : Dev) (k : Nat) (x : AoCh) : (setAo d k x).axes = d.axes := by unfold setAo; rfl
@[simp] theorem setAo_stps (d : Dev) (k : Nat) (x : AoCh) : (setAo d k x).stps = d.stps := by unfold setAo; rfl
@[simp] theorem setAo_encs (d : Dev) (k : Nat) (x : AoCh) : (setAo d k x).encs = d.encs := by unfold setAo; rfl
@[simp] theorem setAo_quar (d : Dev) (k : Nat) (x : AoCh) : (setAo d k x).quar = d.quar := by unfold setAo; rfl
@[simp] theorem setAo_lps (d : Dev) (k : Nat) (x : AoCh) : (setAo d k x).lps = d.lps := by unfold setAo; rfl
@[simp] theorem setAo_shared (d : Dev) (k : Nat) (x : AoCh) : (setAo d k x).shared = d.shared := by unfold setAo; rfl
@[simp] theorem setAo_trigs (d : Dev) (k : Nat) (x : AoCh) : (setAo d k x).trigs = d.trigs := by unfold setAo; rfl
@[simp] theorem setAo_cells (d : Dev) (k : Nat) (x : AoCh) : (setAo d k x).cells = d.cells := by unfold setAo; rfl
@[simp] theorem setAo_ctab (d : Dev) (k : Nat) (x : AoCh) : (setAo d k x).ctab = d.ctab := by unfold setAo; rfl
@[simp] theorem setAo_cores (d : Dev) (k : Nat) (x : AoCh) : (setAo d k x).cores = d.cores := by unfold setAo; rfl
@[simp] theorem setAo_dios (d : Dev) (k : Nat) (x : AoCh) : (setAo d k x).dios = d.dios := by unfold setAo; rfl
@[simp] theorem setAo_role (d : Dev) (k : Nat) (x : AoCh) : (setAo d k x).role = d.role := by unfold setAo; rfl
@[simp] theorem setAo_sf (d : Dev) (k : Nat) (x : AoCh) : (setAo d k x).sf = d.sf := by unfold setAo; rfl
@[simp] theorem setAo_pls (d : Dev) (k : Nat) (x : AoCh) : (setAo d k x).pls = d.pls := by unfold setAo; rfl
@[simp] theorem setAo_tw (d : Dev) (k : Nat) (x : AoCh) : (setAo d k x).tw = d.tw := by unfold setAo; rfl
@[simp] theorem setAo_cxs (d : Dev) (k : Nat) (x : AoCh) : (setAo d k x).cxs = d.cxs := by unfold setAo; rfl
@[simp] theorem setAo_tb (d : Dev) (k : Nat) (x : AoCh) : (setAo d k x).tb = d.tb := by unfold setAo; rfl
@[simp] theorem setAo_eths (d : Dev) (k : Nat) (x : AoCh) : (setAo d k x).eths = d.eths := by unfold setAo; rfl
@[simp] theorem setAo_tl (d : Dev) (k : Nat) (x : AoCh) : (setAo d k x).tl = d.tl := by unfold setAo; rfl
@[simp] theorem setAo_tk (d : Dev) (k : Nat) (x : AoCh) : (setAo d k x).tk = d.tk := by unfold setAo; rfl
@[simp] theorem setAo_sram (d : Dev) (k : Nat) (x : AoCh) : (setAo d k x).sram = d.sram := by unfold setAo; rfl
@[simp] theorem setAo_poison (d : Dev) (k : Nat) (x : AoCh) : (setAo d k x).poison = d.poison := by unfold setAo; rfl
@[simp] theorem setAo_mram (d : Dev) (k : Nat) (x : AoCh) : (setAo d k x).mram = d.mram := by unfold setAo; rfl
@[simp] theorem setAo_nv (d : Dev) (k : Nat) (x : AoCh) : (setAo d k x).nv = d.nv := by unfold setAo; rfl
@[simp] theorem setAo_nvAt (d : Dev) (k : Nat) (x : AoCh) : (setAo d k x).nvAt = d.nvAt := by unfold setAo; rfl
@[simp] theorem setAo_ring (d : Dev) (k : Nat) (x : AoCh) : (setAo d k x).ring = d.ring := by unfold setAo; rfl
@[simp] theorem setAo_dir (d : Dev) (k : Nat) (x : AoCh) : (setAo d k x).dir = d.dir := by unfold setAo; rfl
@[simp] theorem setAo_jn (d : Dev) (k : Nat) (x : AoCh) : (setAo d k x).jn = d.jn := by unfold setAo; rfl
@[simp] theorem setAo_oh (d : Dev) (k : Nat) (x : AoCh) : (setAo d k x).oh = d.oh := by unfold setAo; rfl
@[simp] theorem setAo_free (d : Dev) (k : Nat) (x : AoCh) : (setAo d k x).free = d.free := by unfold setAo; rfl

/-! ### setDio -/

@[simp] theorem setDio_regs (d : Dev) (k : Nat) (x : DioPin) : (setDio d k x).regs = d.regs := by unfold setDio; rfl
@[simp] theorem setDio_sig (d : Dev) (k : Nat) (x : DioPin) : (setDio d k x).sig = d.sig := by unfold setDio; rfl
@[simp] theorem setDio_attr (d : Dev) (k : Nat) (x : DioPin) : (setDio d k x).attr = d.attr := by unfold setDio; rfl
@[simp] theorem setDio_stage1 (d : Dev) (k : Nat) (x : DioPin) : (setDio d k x).stage1 = d.stage1 := by unfold setDio; rfl
@[simp] theorem setDio_stage2 (d : Dev) (k : Nat) (x : DioPin) : (setDio d k x).stage2 = d.stage2 := by unfold setDio; rfl
@[simp] theorem setDio_hostq (d : Dev) (k : Nat) (x : DioPin) : (setDio d k x).hostq = d.hostq := by unfold setDio; rfl
@[simp] theorem setDio_crossing (d : Dev) (k : Nat) (x : DioPin) : (setDio d k x).crossing = d.crossing := by unfold setDio; rfl
@[simp] theorem setDio_cfgq (d : Dev) (k : Nat) (x : DioPin) : (setDio d k x).cfgq = d.cfgq := by unfold setDio; rfl
@[simp] theorem setDio_evr (d : Dev) (k : Nat) (x : DioPin) : (setDio d k x).evr = d.evr := by unfold setDio; rfl
@[simp] theorem setDio_db (d : Dev) (k : Nat) (x : DioPin) : (setDio d k x).db = d.db := by unfold setDio; rfl
@[simp] theorem setDio_tr (d : Dev) (k : Nat) (x : DioPin) : (setDio d k x).tr = d.tr := by unfold setDio; rfl
@[simp] theorem setDio_power (d : Dev) (k : Nat) (x : DioPin) : (setDio d k x).power = d.power := by unfold setDio; rfl
@[simp] theorem setDio_health (d : Dev) (k : Nat) (x : DioPin) : (setDio d k x).health = d.health := by unfold setDio; rfl
@[simp] theorem setDio_wear (d : Dev) (k : Nat) (x : DioPin) : (setDio d k x).wear = d.wear := by unfold setDio; rfl
@[simp] theorem setDio_idBusy (d : Dev) (k : Nat) (x : DioPin) : (setDio d k x).idBusy = d.idBusy := by unfold setDio; rfl
@[simp] theorem setDio_tt (d : Dev) (k : Nat) (x : DioPin) : (setDio d k x).tt = d.tt := by unfold setDio; rfl
@[simp] theorem setDio_ttFrac (d : Dev) (k : Nat) (x : DioPin) : (setDio d k x).ttFrac = d.ttFrac := by unfold setDio; rfl
@[simp] theorem setDio_lanes (d : Dev) (k : Nat) (x : DioPin) : (setDio d k x).lanes = d.lanes := by unfold setDio; rfl
@[simp] theorem setDio_axes (d : Dev) (k : Nat) (x : DioPin) : (setDio d k x).axes = d.axes := by unfold setDio; rfl
@[simp] theorem setDio_stps (d : Dev) (k : Nat) (x : DioPin) : (setDio d k x).stps = d.stps := by unfold setDio; rfl
@[simp] theorem setDio_encs (d : Dev) (k : Nat) (x : DioPin) : (setDio d k x).encs = d.encs := by unfold setDio; rfl
@[simp] theorem setDio_quar (d : Dev) (k : Nat) (x : DioPin) : (setDio d k x).quar = d.quar := by unfold setDio; rfl
@[simp] theorem setDio_lps (d : Dev) (k : Nat) (x : DioPin) : (setDio d k x).lps = d.lps := by unfold setDio; rfl
@[simp] theorem setDio_shared (d : Dev) (k : Nat) (x : DioPin) : (setDio d k x).shared = d.shared := by unfold setDio; rfl
@[simp] theorem setDio_trigs (d : Dev) (k : Nat) (x : DioPin) : (setDio d k x).trigs = d.trigs := by unfold setDio; rfl
@[simp] theorem setDio_cells (d : Dev) (k : Nat) (x : DioPin) : (setDio d k x).cells = d.cells := by unfold setDio; rfl
@[simp] theorem setDio_ctab (d : Dev) (k : Nat) (x : DioPin) : (setDio d k x).ctab = d.ctab := by unfold setDio; rfl
@[simp] theorem setDio_cores (d : Dev) (k : Nat) (x : DioPin) : (setDio d k x).cores = d.cores := by unfold setDio; rfl
@[simp] theorem setDio_aos (d : Dev) (k : Nat) (x : DioPin) : (setDio d k x).aos = d.aos := by unfold setDio; rfl
@[simp] theorem setDio_role (d : Dev) (k : Nat) (x : DioPin) : (setDio d k x).role = d.role := by unfold setDio; rfl
@[simp] theorem setDio_sf (d : Dev) (k : Nat) (x : DioPin) : (setDio d k x).sf = d.sf := by unfold setDio; rfl
@[simp] theorem setDio_pls (d : Dev) (k : Nat) (x : DioPin) : (setDio d k x).pls = d.pls := by unfold setDio; rfl
@[simp] theorem setDio_tw (d : Dev) (k : Nat) (x : DioPin) : (setDio d k x).tw = d.tw := by unfold setDio; rfl
@[simp] theorem setDio_cxs (d : Dev) (k : Nat) (x : DioPin) : (setDio d k x).cxs = d.cxs := by unfold setDio; rfl
@[simp] theorem setDio_tb (d : Dev) (k : Nat) (x : DioPin) : (setDio d k x).tb = d.tb := by unfold setDio; rfl
@[simp] theorem setDio_eths (d : Dev) (k : Nat) (x : DioPin) : (setDio d k x).eths = d.eths := by unfold setDio; rfl
@[simp] theorem setDio_tl (d : Dev) (k : Nat) (x : DioPin) : (setDio d k x).tl = d.tl := by unfold setDio; rfl
@[simp] theorem setDio_tk (d : Dev) (k : Nat) (x : DioPin) : (setDio d k x).tk = d.tk := by unfold setDio; rfl
@[simp] theorem setDio_sram (d : Dev) (k : Nat) (x : DioPin) : (setDio d k x).sram = d.sram := by unfold setDio; rfl
@[simp] theorem setDio_poison (d : Dev) (k : Nat) (x : DioPin) : (setDio d k x).poison = d.poison := by unfold setDio; rfl
@[simp] theorem setDio_mram (d : Dev) (k : Nat) (x : DioPin) : (setDio d k x).mram = d.mram := by unfold setDio; rfl
@[simp] theorem setDio_nv (d : Dev) (k : Nat) (x : DioPin) : (setDio d k x).nv = d.nv := by unfold setDio; rfl
@[simp] theorem setDio_nvAt (d : Dev) (k : Nat) (x : DioPin) : (setDio d k x).nvAt = d.nvAt := by unfold setDio; rfl
@[simp] theorem setDio_ring (d : Dev) (k : Nat) (x : DioPin) : (setDio d k x).ring = d.ring := by unfold setDio; rfl
@[simp] theorem setDio_dir (d : Dev) (k : Nat) (x : DioPin) : (setDio d k x).dir = d.dir := by unfold setDio; rfl
@[simp] theorem setDio_jn (d : Dev) (k : Nat) (x : DioPin) : (setDio d k x).jn = d.jn := by unfold setDio; rfl
@[simp] theorem setDio_oh (d : Dev) (k : Nat) (x : DioPin) : (setDio d k x).oh = d.oh := by unfold setDio; rfl
@[simp] theorem setDio_free (d : Dev) (k : Nat) (x : DioPin) : (setDio d k x).free = d.free := by unfold setDio; rfl

/-! ### setPl -/

@[simp] theorem setPl_regs (d : Dev) (k : Nat) (x : Pl) : (setPl d k x).regs = d.regs := by unfold setPl; rfl
@[simp] theorem setPl_sig (d : Dev) (k : Nat) (x : Pl) : (setPl d k x).sig = d.sig := by unfold setPl; rfl
@[simp] theorem setPl_attr (d : Dev) (k : Nat) (x : Pl) : (setPl d k x).attr = d.attr := by unfold setPl; rfl
@[simp] theorem setPl_stage1 (d : Dev) (k : Nat) (x : Pl) : (setPl d k x).stage1 = d.stage1 := by unfold setPl; rfl
@[simp] theorem setPl_stage2 (d : Dev) (k : Nat) (x : Pl) : (setPl d k x).stage2 = d.stage2 := by unfold setPl; rfl
@[simp] theorem setPl_hostq (d : Dev) (k : Nat) (x : Pl) : (setPl d k x).hostq = d.hostq := by unfold setPl; rfl
@[simp] theorem setPl_crossing (d : Dev) (k : Nat) (x : Pl) : (setPl d k x).crossing = d.crossing := by unfold setPl; rfl
@[simp] theorem setPl_cfgq (d : Dev) (k : Nat) (x : Pl) : (setPl d k x).cfgq = d.cfgq := by unfold setPl; rfl
@[simp] theorem setPl_evr (d : Dev) (k : Nat) (x : Pl) : (setPl d k x).evr = d.evr := by unfold setPl; rfl
@[simp] theorem setPl_db (d : Dev) (k : Nat) (x : Pl) : (setPl d k x).db = d.db := by unfold setPl; rfl
@[simp] theorem setPl_tr (d : Dev) (k : Nat) (x : Pl) : (setPl d k x).tr = d.tr := by unfold setPl; rfl
@[simp] theorem setPl_power (d : Dev) (k : Nat) (x : Pl) : (setPl d k x).power = d.power := by unfold setPl; rfl
@[simp] theorem setPl_health (d : Dev) (k : Nat) (x : Pl) : (setPl d k x).health = d.health := by unfold setPl; rfl
@[simp] theorem setPl_wear (d : Dev) (k : Nat) (x : Pl) : (setPl d k x).wear = d.wear := by unfold setPl; rfl
@[simp] theorem setPl_idBusy (d : Dev) (k : Nat) (x : Pl) : (setPl d k x).idBusy = d.idBusy := by unfold setPl; rfl
@[simp] theorem setPl_tt (d : Dev) (k : Nat) (x : Pl) : (setPl d k x).tt = d.tt := by unfold setPl; rfl
@[simp] theorem setPl_ttFrac (d : Dev) (k : Nat) (x : Pl) : (setPl d k x).ttFrac = d.ttFrac := by unfold setPl; rfl
@[simp] theorem setPl_lanes (d : Dev) (k : Nat) (x : Pl) : (setPl d k x).lanes = d.lanes := by unfold setPl; rfl
@[simp] theorem setPl_axes (d : Dev) (k : Nat) (x : Pl) : (setPl d k x).axes = d.axes := by unfold setPl; rfl
@[simp] theorem setPl_stps (d : Dev) (k : Nat) (x : Pl) : (setPl d k x).stps = d.stps := by unfold setPl; rfl
@[simp] theorem setPl_encs (d : Dev) (k : Nat) (x : Pl) : (setPl d k x).encs = d.encs := by unfold setPl; rfl
@[simp] theorem setPl_quar (d : Dev) (k : Nat) (x : Pl) : (setPl d k x).quar = d.quar := by unfold setPl; rfl
@[simp] theorem setPl_lps (d : Dev) (k : Nat) (x : Pl) : (setPl d k x).lps = d.lps := by unfold setPl; rfl
@[simp] theorem setPl_shared (d : Dev) (k : Nat) (x : Pl) : (setPl d k x).shared = d.shared := by unfold setPl; rfl
@[simp] theorem setPl_trigs (d : Dev) (k : Nat) (x : Pl) : (setPl d k x).trigs = d.trigs := by unfold setPl; rfl
@[simp] theorem setPl_cells (d : Dev) (k : Nat) (x : Pl) : (setPl d k x).cells = d.cells := by unfold setPl; rfl
@[simp] theorem setPl_ctab (d : Dev) (k : Nat) (x : Pl) : (setPl d k x).ctab = d.ctab := by unfold setPl; rfl
@[simp] theorem setPl_cores (d : Dev) (k : Nat) (x : Pl) : (setPl d k x).cores = d.cores := by unfold setPl; rfl
@[simp] theorem setPl_aos (d : Dev) (k : Nat) (x : Pl) : (setPl d k x).aos = d.aos := by unfold setPl; rfl
@[simp] theorem setPl_dios (d : Dev) (k : Nat) (x : Pl) : (setPl d k x).dios = d.dios := by unfold setPl; rfl
@[simp] theorem setPl_role (d : Dev) (k : Nat) (x : Pl) : (setPl d k x).role = d.role := by unfold setPl; rfl
@[simp] theorem setPl_sf (d : Dev) (k : Nat) (x : Pl) : (setPl d k x).sf = d.sf := by unfold setPl; rfl
@[simp] theorem setPl_tw (d : Dev) (k : Nat) (x : Pl) : (setPl d k x).tw = d.tw := by unfold setPl; rfl
@[simp] theorem setPl_cxs (d : Dev) (k : Nat) (x : Pl) : (setPl d k x).cxs = d.cxs := by unfold setPl; rfl
@[simp] theorem setPl_tb (d : Dev) (k : Nat) (x : Pl) : (setPl d k x).tb = d.tb := by unfold setPl; rfl
@[simp] theorem setPl_eths (d : Dev) (k : Nat) (x : Pl) : (setPl d k x).eths = d.eths := by unfold setPl; rfl
@[simp] theorem setPl_tl (d : Dev) (k : Nat) (x : Pl) : (setPl d k x).tl = d.tl := by unfold setPl; rfl
@[simp] theorem setPl_tk (d : Dev) (k : Nat) (x : Pl) : (setPl d k x).tk = d.tk := by unfold setPl; rfl
@[simp] theorem setPl_sram (d : Dev) (k : Nat) (x : Pl) : (setPl d k x).sram = d.sram := by unfold setPl; rfl
@[simp] theorem setPl_poison (d : Dev) (k : Nat) (x : Pl) : (setPl d k x).poison = d.poison := by unfold setPl; rfl
@[simp] theorem setPl_mram (d : Dev) (k : Nat) (x : Pl) : (setPl d k x).mram = d.mram := by unfold setPl; rfl
@[simp] theorem setPl_nv (d : Dev) (k : Nat) (x : Pl) : (setPl d k x).nv = d.nv := by unfold setPl; rfl
@[simp] theorem setPl_nvAt (d : Dev) (k : Nat) (x : Pl) : (setPl d k x).nvAt = d.nvAt := by unfold setPl; rfl
@[simp] theorem setPl_ring (d : Dev) (k : Nat) (x : Pl) : (setPl d k x).ring = d.ring := by unfold setPl; rfl
@[simp] theorem setPl_dir (d : Dev) (k : Nat) (x : Pl) : (setPl d k x).dir = d.dir := by unfold setPl; rfl
@[simp] theorem setPl_jn (d : Dev) (k : Nat) (x : Pl) : (setPl d k x).jn = d.jn := by unfold setPl; rfl
@[simp] theorem setPl_oh (d : Dev) (k : Nat) (x : Pl) : (setPl d k x).oh = d.oh := by unfold setPl; rfl
@[simp] theorem setPl_free (d : Dev) (k : Nat) (x : Pl) : (setPl d k x).free = d.free := by unfold setPl; rfl

/-! ### setCx -/

@[simp] theorem setCx_regs (d : Dev) (k : Nat) (x : Cx) : (setCx d k x).regs = d.regs := by unfold setCx; rfl
@[simp] theorem setCx_sig (d : Dev) (k : Nat) (x : Cx) : (setCx d k x).sig = d.sig := by unfold setCx; rfl
@[simp] theorem setCx_attr (d : Dev) (k : Nat) (x : Cx) : (setCx d k x).attr = d.attr := by unfold setCx; rfl
@[simp] theorem setCx_stage1 (d : Dev) (k : Nat) (x : Cx) : (setCx d k x).stage1 = d.stage1 := by unfold setCx; rfl
@[simp] theorem setCx_stage2 (d : Dev) (k : Nat) (x : Cx) : (setCx d k x).stage2 = d.stage2 := by unfold setCx; rfl
@[simp] theorem setCx_hostq (d : Dev) (k : Nat) (x : Cx) : (setCx d k x).hostq = d.hostq := by unfold setCx; rfl
@[simp] theorem setCx_crossing (d : Dev) (k : Nat) (x : Cx) : (setCx d k x).crossing = d.crossing := by unfold setCx; rfl
@[simp] theorem setCx_cfgq (d : Dev) (k : Nat) (x : Cx) : (setCx d k x).cfgq = d.cfgq := by unfold setCx; rfl
@[simp] theorem setCx_evr (d : Dev) (k : Nat) (x : Cx) : (setCx d k x).evr = d.evr := by unfold setCx; rfl
@[simp] theorem setCx_db (d : Dev) (k : Nat) (x : Cx) : (setCx d k x).db = d.db := by unfold setCx; rfl
@[simp] theorem setCx_tr (d : Dev) (k : Nat) (x : Cx) : (setCx d k x).tr = d.tr := by unfold setCx; rfl
@[simp] theorem setCx_power (d : Dev) (k : Nat) (x : Cx) : (setCx d k x).power = d.power := by unfold setCx; rfl
@[simp] theorem setCx_health (d : Dev) (k : Nat) (x : Cx) : (setCx d k x).health = d.health := by unfold setCx; rfl
@[simp] theorem setCx_wear (d : Dev) (k : Nat) (x : Cx) : (setCx d k x).wear = d.wear := by unfold setCx; rfl
@[simp] theorem setCx_idBusy (d : Dev) (k : Nat) (x : Cx) : (setCx d k x).idBusy = d.idBusy := by unfold setCx; rfl
@[simp] theorem setCx_tt (d : Dev) (k : Nat) (x : Cx) : (setCx d k x).tt = d.tt := by unfold setCx; rfl
@[simp] theorem setCx_ttFrac (d : Dev) (k : Nat) (x : Cx) : (setCx d k x).ttFrac = d.ttFrac := by unfold setCx; rfl
@[simp] theorem setCx_lanes (d : Dev) (k : Nat) (x : Cx) : (setCx d k x).lanes = d.lanes := by unfold setCx; rfl
@[simp] theorem setCx_axes (d : Dev) (k : Nat) (x : Cx) : (setCx d k x).axes = d.axes := by unfold setCx; rfl
@[simp] theorem setCx_stps (d : Dev) (k : Nat) (x : Cx) : (setCx d k x).stps = d.stps := by unfold setCx; rfl
@[simp] theorem setCx_encs (d : Dev) (k : Nat) (x : Cx) : (setCx d k x).encs = d.encs := by unfold setCx; rfl
@[simp] theorem setCx_quar (d : Dev) (k : Nat) (x : Cx) : (setCx d k x).quar = d.quar := by unfold setCx; rfl
@[simp] theorem setCx_lps (d : Dev) (k : Nat) (x : Cx) : (setCx d k x).lps = d.lps := by unfold setCx; rfl
@[simp] theorem setCx_shared (d : Dev) (k : Nat) (x : Cx) : (setCx d k x).shared = d.shared := by unfold setCx; rfl
@[simp] theorem setCx_trigs (d : Dev) (k : Nat) (x : Cx) : (setCx d k x).trigs = d.trigs := by unfold setCx; rfl
@[simp] theorem setCx_cells (d : Dev) (k : Nat) (x : Cx) : (setCx d k x).cells = d.cells := by unfold setCx; rfl
@[simp] theorem setCx_ctab (d : Dev) (k : Nat) (x : Cx) : (setCx d k x).ctab = d.ctab := by unfold setCx; rfl
@[simp] theorem setCx_cores (d : Dev) (k : Nat) (x : Cx) : (setCx d k x).cores = d.cores := by unfold setCx; rfl
@[simp] theorem setCx_aos (d : Dev) (k : Nat) (x : Cx) : (setCx d k x).aos = d.aos := by unfold setCx; rfl
@[simp] theorem setCx_dios (d : Dev) (k : Nat) (x : Cx) : (setCx d k x).dios = d.dios := by unfold setCx; rfl
@[simp] theorem setCx_role (d : Dev) (k : Nat) (x : Cx) : (setCx d k x).role = d.role := by unfold setCx; rfl
@[simp] theorem setCx_sf (d : Dev) (k : Nat) (x : Cx) : (setCx d k x).sf = d.sf := by unfold setCx; rfl
@[simp] theorem setCx_pls (d : Dev) (k : Nat) (x : Cx) : (setCx d k x).pls = d.pls := by unfold setCx; rfl
@[simp] theorem setCx_tw (d : Dev) (k : Nat) (x : Cx) : (setCx d k x).tw = d.tw := by unfold setCx; rfl
@[simp] theorem setCx_tb (d : Dev) (k : Nat) (x : Cx) : (setCx d k x).tb = d.tb := by unfold setCx; rfl
@[simp] theorem setCx_eths (d : Dev) (k : Nat) (x : Cx) : (setCx d k x).eths = d.eths := by unfold setCx; rfl
@[simp] theorem setCx_tl (d : Dev) (k : Nat) (x : Cx) : (setCx d k x).tl = d.tl := by unfold setCx; rfl
@[simp] theorem setCx_tk (d : Dev) (k : Nat) (x : Cx) : (setCx d k x).tk = d.tk := by unfold setCx; rfl
@[simp] theorem setCx_sram (d : Dev) (k : Nat) (x : Cx) : (setCx d k x).sram = d.sram := by unfold setCx; rfl
@[simp] theorem setCx_poison (d : Dev) (k : Nat) (x : Cx) : (setCx d k x).poison = d.poison := by unfold setCx; rfl
@[simp] theorem setCx_mram (d : Dev) (k : Nat) (x : Cx) : (setCx d k x).mram = d.mram := by unfold setCx; rfl
@[simp] theorem setCx_nv (d : Dev) (k : Nat) (x : Cx) : (setCx d k x).nv = d.nv := by unfold setCx; rfl
@[simp] theorem setCx_nvAt (d : Dev) (k : Nat) (x : Cx) : (setCx d k x).nvAt = d.nvAt := by unfold setCx; rfl
@[simp] theorem setCx_ring (d : Dev) (k : Nat) (x : Cx) : (setCx d k x).ring = d.ring := by unfold setCx; rfl
@[simp] theorem setCx_dir (d : Dev) (k : Nat) (x : Cx) : (setCx d k x).dir = d.dir := by unfold setCx; rfl
@[simp] theorem setCx_jn (d : Dev) (k : Nat) (x : Cx) : (setCx d k x).jn = d.jn := by unfold setCx; rfl
@[simp] theorem setCx_oh (d : Dev) (k : Nat) (x : Cx) : (setCx d k x).oh = d.oh := by unfold setCx; rfl
@[simp] theorem setCx_free (d : Dev) (k : Nat) (x : Cx) : (setCx d k x).free = d.free := by unfold setCx; rfl

/-! ### setEth -/

@[simp] theorem setEth_regs (d : Dev) (k : Nat) (x : Eth) : (setEth d k x).regs = d.regs := by unfold setEth; rfl
@[simp] theorem setEth_sig (d : Dev) (k : Nat) (x : Eth) : (setEth d k x).sig = d.sig := by unfold setEth; rfl
@[simp] theorem setEth_attr (d : Dev) (k : Nat) (x : Eth) : (setEth d k x).attr = d.attr := by unfold setEth; rfl
@[simp] theorem setEth_stage1 (d : Dev) (k : Nat) (x : Eth) : (setEth d k x).stage1 = d.stage1 := by unfold setEth; rfl
@[simp] theorem setEth_stage2 (d : Dev) (k : Nat) (x : Eth) : (setEth d k x).stage2 = d.stage2 := by unfold setEth; rfl
@[simp] theorem setEth_hostq (d : Dev) (k : Nat) (x : Eth) : (setEth d k x).hostq = d.hostq := by unfold setEth; rfl
@[simp] theorem setEth_crossing (d : Dev) (k : Nat) (x : Eth) : (setEth d k x).crossing = d.crossing := by unfold setEth; rfl
@[simp] theorem setEth_cfgq (d : Dev) (k : Nat) (x : Eth) : (setEth d k x).cfgq = d.cfgq := by unfold setEth; rfl
@[simp] theorem setEth_evr (d : Dev) (k : Nat) (x : Eth) : (setEth d k x).evr = d.evr := by unfold setEth; rfl
@[simp] theorem setEth_db (d : Dev) (k : Nat) (x : Eth) : (setEth d k x).db = d.db := by unfold setEth; rfl
@[simp] theorem setEth_tr (d : Dev) (k : Nat) (x : Eth) : (setEth d k x).tr = d.tr := by unfold setEth; rfl
@[simp] theorem setEth_power (d : Dev) (k : Nat) (x : Eth) : (setEth d k x).power = d.power := by unfold setEth; rfl
@[simp] theorem setEth_health (d : Dev) (k : Nat) (x : Eth) : (setEth d k x).health = d.health := by unfold setEth; rfl
@[simp] theorem setEth_wear (d : Dev) (k : Nat) (x : Eth) : (setEth d k x).wear = d.wear := by unfold setEth; rfl
@[simp] theorem setEth_idBusy (d : Dev) (k : Nat) (x : Eth) : (setEth d k x).idBusy = d.idBusy := by unfold setEth; rfl
@[simp] theorem setEth_tt (d : Dev) (k : Nat) (x : Eth) : (setEth d k x).tt = d.tt := by unfold setEth; rfl
@[simp] theorem setEth_ttFrac (d : Dev) (k : Nat) (x : Eth) : (setEth d k x).ttFrac = d.ttFrac := by unfold setEth; rfl
@[simp] theorem setEth_lanes (d : Dev) (k : Nat) (x : Eth) : (setEth d k x).lanes = d.lanes := by unfold setEth; rfl
@[simp] theorem setEth_axes (d : Dev) (k : Nat) (x : Eth) : (setEth d k x).axes = d.axes := by unfold setEth; rfl
@[simp] theorem setEth_stps (d : Dev) (k : Nat) (x : Eth) : (setEth d k x).stps = d.stps := by unfold setEth; rfl
@[simp] theorem setEth_encs (d : Dev) (k : Nat) (x : Eth) : (setEth d k x).encs = d.encs := by unfold setEth; rfl
@[simp] theorem setEth_quar (d : Dev) (k : Nat) (x : Eth) : (setEth d k x).quar = d.quar := by unfold setEth; rfl
@[simp] theorem setEth_lps (d : Dev) (k : Nat) (x : Eth) : (setEth d k x).lps = d.lps := by unfold setEth; rfl
@[simp] theorem setEth_shared (d : Dev) (k : Nat) (x : Eth) : (setEth d k x).shared = d.shared := by unfold setEth; rfl
@[simp] theorem setEth_trigs (d : Dev) (k : Nat) (x : Eth) : (setEth d k x).trigs = d.trigs := by unfold setEth; rfl
@[simp] theorem setEth_cells (d : Dev) (k : Nat) (x : Eth) : (setEth d k x).cells = d.cells := by unfold setEth; rfl
@[simp] theorem setEth_ctab (d : Dev) (k : Nat) (x : Eth) : (setEth d k x).ctab = d.ctab := by unfold setEth; rfl
@[simp] theorem setEth_cores (d : Dev) (k : Nat) (x : Eth) : (setEth d k x).cores = d.cores := by unfold setEth; rfl
@[simp] theorem setEth_aos (d : Dev) (k : Nat) (x : Eth) : (setEth d k x).aos = d.aos := by unfold setEth; rfl
@[simp] theorem setEth_dios (d : Dev) (k : Nat) (x : Eth) : (setEth d k x).dios = d.dios := by unfold setEth; rfl
@[simp] theorem setEth_role (d : Dev) (k : Nat) (x : Eth) : (setEth d k x).role = d.role := by unfold setEth; rfl
@[simp] theorem setEth_sf (d : Dev) (k : Nat) (x : Eth) : (setEth d k x).sf = d.sf := by unfold setEth; rfl
@[simp] theorem setEth_pls (d : Dev) (k : Nat) (x : Eth) : (setEth d k x).pls = d.pls := by unfold setEth; rfl
@[simp] theorem setEth_tw (d : Dev) (k : Nat) (x : Eth) : (setEth d k x).tw = d.tw := by unfold setEth; rfl
@[simp] theorem setEth_cxs (d : Dev) (k : Nat) (x : Eth) : (setEth d k x).cxs = d.cxs := by unfold setEth; rfl
@[simp] theorem setEth_tb (d : Dev) (k : Nat) (x : Eth) : (setEth d k x).tb = d.tb := by unfold setEth; rfl
@[simp] theorem setEth_tl (d : Dev) (k : Nat) (x : Eth) : (setEth d k x).tl = d.tl := by unfold setEth; rfl
@[simp] theorem setEth_tk (d : Dev) (k : Nat) (x : Eth) : (setEth d k x).tk = d.tk := by unfold setEth; rfl
@[simp] theorem setEth_sram (d : Dev) (k : Nat) (x : Eth) : (setEth d k x).sram = d.sram := by unfold setEth; rfl
@[simp] theorem setEth_poison (d : Dev) (k : Nat) (x : Eth) : (setEth d k x).poison = d.poison := by unfold setEth; rfl
@[simp] theorem setEth_mram (d : Dev) (k : Nat) (x : Eth) : (setEth d k x).mram = d.mram := by unfold setEth; rfl
@[simp] theorem setEth_nv (d : Dev) (k : Nat) (x : Eth) : (setEth d k x).nv = d.nv := by unfold setEth; rfl
@[simp] theorem setEth_nvAt (d : Dev) (k : Nat) (x : Eth) : (setEth d k x).nvAt = d.nvAt := by unfold setEth; rfl
@[simp] theorem setEth_ring (d : Dev) (k : Nat) (x : Eth) : (setEth d k x).ring = d.ring := by unfold setEth; rfl
@[simp] theorem setEth_dir (d : Dev) (k : Nat) (x : Eth) : (setEth d k x).dir = d.dir := by unfold setEth; rfl
@[simp] theorem setEth_jn (d : Dev) (k : Nat) (x : Eth) : (setEth d k x).jn = d.jn := by unfold setEth; rfl
@[simp] theorem setEth_oh (d : Dev) (k : Nat) (x : Eth) : (setEth d k x).oh = d.oh := by unfold setEth; rfl
@[simp] theorem setEth_free (d : Dev) (k : Nat) (x : Eth) : (setEth d k x).free = d.free := by unfold setEth; rfl

/-! ### setThr -/

@[simp] theorem setThr_regs (d : Dev) (k : Nat) (x : Thr) : (setThr d k x).regs = d.regs := by unfold setThr; rfl
@[simp] theorem setThr_sig (d : Dev) (k : Nat) (x : Thr) : (setThr d k x).sig = d.sig := by unfold setThr; rfl
@[simp] theorem setThr_attr (d : Dev) (k : Nat) (x : Thr) : (setThr d k x).attr = d.attr := by unfold setThr; rfl
@[simp] theorem setThr_stage1 (d : Dev) (k : Nat) (x : Thr) : (setThr d k x).stage1 = d.stage1 := by unfold setThr; rfl
@[simp] theorem setThr_stage2 (d : Dev) (k : Nat) (x : Thr) : (setThr d k x).stage2 = d.stage2 := by unfold setThr; rfl
@[simp] theorem setThr_hostq (d : Dev) (k : Nat) (x : Thr) : (setThr d k x).hostq = d.hostq := by unfold setThr; rfl
@[simp] theorem setThr_crossing (d : Dev) (k : Nat) (x : Thr) : (setThr d k x).crossing = d.crossing := by unfold setThr; rfl
@[simp] theorem setThr_cfgq (d : Dev) (k : Nat) (x : Thr) : (setThr d k x).cfgq = d.cfgq := by unfold setThr; rfl
@[simp] theorem setThr_evr (d : Dev) (k : Nat) (x : Thr) : (setThr d k x).evr = d.evr := by unfold setThr; rfl
@[simp] theorem setThr_db (d : Dev) (k : Nat) (x : Thr) : (setThr d k x).db = d.db := by unfold setThr; rfl
@[simp] theorem setThr_tr (d : Dev) (k : Nat) (x : Thr) : (setThr d k x).tr = d.tr := by unfold setThr; rfl
@[simp] theorem setThr_power (d : Dev) (k : Nat) (x : Thr) : (setThr d k x).power = d.power := by unfold setThr; rfl
@[simp] theorem setThr_health (d : Dev) (k : Nat) (x : Thr) : (setThr d k x).health = d.health := by unfold setThr; rfl
@[simp] theorem setThr_wear (d : Dev) (k : Nat) (x : Thr) : (setThr d k x).wear = d.wear := by unfold setThr; rfl
@[simp] theorem setThr_idBusy (d : Dev) (k : Nat) (x : Thr) : (setThr d k x).idBusy = d.idBusy := by unfold setThr; rfl
@[simp] theorem setThr_tt (d : Dev) (k : Nat) (x : Thr) : (setThr d k x).tt = d.tt := by unfold setThr; rfl
@[simp] theorem setThr_ttFrac (d : Dev) (k : Nat) (x : Thr) : (setThr d k x).ttFrac = d.ttFrac := by unfold setThr; rfl
@[simp] theorem setThr_lanes (d : Dev) (k : Nat) (x : Thr) : (setThr d k x).lanes = d.lanes := by unfold setThr; rfl
@[simp] theorem setThr_axes (d : Dev) (k : Nat) (x : Thr) : (setThr d k x).axes = d.axes := by unfold setThr; rfl
@[simp] theorem setThr_stps (d : Dev) (k : Nat) (x : Thr) : (setThr d k x).stps = d.stps := by unfold setThr; rfl
@[simp] theorem setThr_encs (d : Dev) (k : Nat) (x : Thr) : (setThr d k x).encs = d.encs := by unfold setThr; rfl
@[simp] theorem setThr_quar (d : Dev) (k : Nat) (x : Thr) : (setThr d k x).quar = d.quar := by unfold setThr; rfl
@[simp] theorem setThr_lps (d : Dev) (k : Nat) (x : Thr) : (setThr d k x).lps = d.lps := by unfold setThr; rfl
@[simp] theorem setThr_shared (d : Dev) (k : Nat) (x : Thr) : (setThr d k x).shared = d.shared := by unfold setThr; rfl
@[simp] theorem setThr_trigs (d : Dev) (k : Nat) (x : Thr) : (setThr d k x).trigs = d.trigs := by unfold setThr; rfl
@[simp] theorem setThr_cells (d : Dev) (k : Nat) (x : Thr) : (setThr d k x).cells = d.cells := by unfold setThr; rfl
@[simp] theorem setThr_ctab (d : Dev) (k : Nat) (x : Thr) : (setThr d k x).ctab = d.ctab := by unfold setThr; rfl
@[simp] theorem setThr_cores (d : Dev) (k : Nat) (x : Thr) : (setThr d k x).cores = d.cores := by unfold setThr; rfl
@[simp] theorem setThr_aos (d : Dev) (k : Nat) (x : Thr) : (setThr d k x).aos = d.aos := by unfold setThr; rfl
@[simp] theorem setThr_dios (d : Dev) (k : Nat) (x : Thr) : (setThr d k x).dios = d.dios := by unfold setThr; rfl
@[simp] theorem setThr_role (d : Dev) (k : Nat) (x : Thr) : (setThr d k x).role = d.role := by unfold setThr; rfl
@[simp] theorem setThr_sf (d : Dev) (k : Nat) (x : Thr) : (setThr d k x).sf = d.sf := by unfold setThr; rfl
@[simp] theorem setThr_pls (d : Dev) (k : Nat) (x : Thr) : (setThr d k x).pls = d.pls := by unfold setThr; rfl
@[simp] theorem setThr_tw (d : Dev) (k : Nat) (x : Thr) : (setThr d k x).tw = d.tw := by unfold setThr; rfl
@[simp] theorem setThr_cxs (d : Dev) (k : Nat) (x : Thr) : (setThr d k x).cxs = d.cxs := by unfold setThr; rfl
@[simp] theorem setThr_tb (d : Dev) (k : Nat) (x : Thr) : (setThr d k x).tb = d.tb := by unfold setThr; rfl
@[simp] theorem setThr_eths (d : Dev) (k : Nat) (x : Thr) : (setThr d k x).eths = d.eths := by unfold setThr; rfl
@[simp] theorem setThr_tk (d : Dev) (k : Nat) (x : Thr) : (setThr d k x).tk = d.tk := by unfold setThr; rfl
@[simp] theorem setThr_sram (d : Dev) (k : Nat) (x : Thr) : (setThr d k x).sram = d.sram := by unfold setThr; rfl
@[simp] theorem setThr_poison (d : Dev) (k : Nat) (x : Thr) : (setThr d k x).poison = d.poison := by unfold setThr; rfl
@[simp] theorem setThr_mram (d : Dev) (k : Nat) (x : Thr) : (setThr d k x).mram = d.mram := by unfold setThr; rfl
@[simp] theorem setThr_nv (d : Dev) (k : Nat) (x : Thr) : (setThr d k x).nv = d.nv := by unfold setThr; rfl
@[simp] theorem setThr_nvAt (d : Dev) (k : Nat) (x : Thr) : (setThr d k x).nvAt = d.nvAt := by unfold setThr; rfl
@[simp] theorem setThr_ring (d : Dev) (k : Nat) (x : Thr) : (setThr d k x).ring = d.ring := by unfold setThr; rfl
@[simp] theorem setThr_dir (d : Dev) (k : Nat) (x : Thr) : (setThr d k x).dir = d.dir := by unfold setThr; rfl
@[simp] theorem setThr_jn (d : Dev) (k : Nat) (x : Thr) : (setThr d k x).jn = d.jn := by unfold setThr; rfl
@[simp] theorem setThr_oh (d : Dev) (k : Nat) (x : Thr) : (setThr d k x).oh = d.oh := by unfold setThr; rfl
@[simp] theorem setThr_free (d : Dev) (k : Nat) (x : Thr) : (setThr d k x).free = d.free := by unfold setThr; rfl

/-! ### setTc -/

@[simp] theorem setTc_regs (d : Dev) (k : Nat) (x : TCore) : (setTc d k x).regs = d.regs := by unfold setTc; rfl
@[simp] theorem setTc_sig (d : Dev) (k : Nat) (x : TCore) : (setTc d k x).sig = d.sig := by unfold setTc; rfl
@[simp] theorem setTc_attr (d : Dev) (k : Nat) (x : TCore) : (setTc d k x).attr = d.attr := by unfold setTc; rfl
@[simp] theorem setTc_stage1 (d : Dev) (k : Nat) (x : TCore) : (setTc d k x).stage1 = d.stage1 := by unfold setTc; rfl
@[simp] theorem setTc_stage2 (d : Dev) (k : Nat) (x : TCore) : (setTc d k x).stage2 = d.stage2 := by unfold setTc; rfl
@[simp] theorem setTc_hostq (d : Dev) (k : Nat) (x : TCore) : (setTc d k x).hostq = d.hostq := by unfold setTc; rfl
@[simp] theorem setTc_crossing (d : Dev) (k : Nat) (x : TCore) : (setTc d k x).crossing = d.crossing := by unfold setTc; rfl
@[simp] theorem setTc_cfgq (d : Dev) (k : Nat) (x : TCore) : (setTc d k x).cfgq = d.cfgq := by unfold setTc; rfl
@[simp] theorem setTc_evr (d : Dev) (k : Nat) (x : TCore) : (setTc d k x).evr = d.evr := by unfold setTc; rfl
@[simp] theorem setTc_db (d : Dev) (k : Nat) (x : TCore) : (setTc d k x).db = d.db := by unfold setTc; rfl
@[simp] theorem setTc_tr (d : Dev) (k : Nat) (x : TCore) : (setTc d k x).tr = d.tr := by unfold setTc; rfl
@[simp] theorem setTc_power (d : Dev) (k : Nat) (x : TCore) : (setTc d k x).power = d.power := by unfold setTc; rfl
@[simp] theorem setTc_health (d : Dev) (k : Nat) (x : TCore) : (setTc d k x).health = d.health := by unfold setTc; rfl
@[simp] theorem setTc_wear (d : Dev) (k : Nat) (x : TCore) : (setTc d k x).wear = d.wear := by unfold setTc; rfl
@[simp] theorem setTc_idBusy (d : Dev) (k : Nat) (x : TCore) : (setTc d k x).idBusy = d.idBusy := by unfold setTc; rfl
@[simp] theorem setTc_tt (d : Dev) (k : Nat) (x : TCore) : (setTc d k x).tt = d.tt := by unfold setTc; rfl
@[simp] theorem setTc_ttFrac (d : Dev) (k : Nat) (x : TCore) : (setTc d k x).ttFrac = d.ttFrac := by unfold setTc; rfl
@[simp] theorem setTc_lanes (d : Dev) (k : Nat) (x : TCore) : (setTc d k x).lanes = d.lanes := by unfold setTc; rfl
@[simp] theorem setTc_axes (d : Dev) (k : Nat) (x : TCore) : (setTc d k x).axes = d.axes := by unfold setTc; rfl
@[simp] theorem setTc_stps (d : Dev) (k : Nat) (x : TCore) : (setTc d k x).stps = d.stps := by unfold setTc; rfl
@[simp] theorem setTc_encs (d : Dev) (k : Nat) (x : TCore) : (setTc d k x).encs = d.encs := by unfold setTc; rfl
@[simp] theorem setTc_quar (d : Dev) (k : Nat) (x : TCore) : (setTc d k x).quar = d.quar := by unfold setTc; rfl
@[simp] theorem setTc_lps (d : Dev) (k : Nat) (x : TCore) : (setTc d k x).lps = d.lps := by unfold setTc; rfl
@[simp] theorem setTc_shared (d : Dev) (k : Nat) (x : TCore) : (setTc d k x).shared = d.shared := by unfold setTc; rfl
@[simp] theorem setTc_trigs (d : Dev) (k : Nat) (x : TCore) : (setTc d k x).trigs = d.trigs := by unfold setTc; rfl
@[simp] theorem setTc_cells (d : Dev) (k : Nat) (x : TCore) : (setTc d k x).cells = d.cells := by unfold setTc; rfl
@[simp] theorem setTc_ctab (d : Dev) (k : Nat) (x : TCore) : (setTc d k x).ctab = d.ctab := by unfold setTc; rfl
@[simp] theorem setTc_cores (d : Dev) (k : Nat) (x : TCore) : (setTc d k x).cores = d.cores := by unfold setTc; rfl
@[simp] theorem setTc_aos (d : Dev) (k : Nat) (x : TCore) : (setTc d k x).aos = d.aos := by unfold setTc; rfl
@[simp] theorem setTc_dios (d : Dev) (k : Nat) (x : TCore) : (setTc d k x).dios = d.dios := by unfold setTc; rfl
@[simp] theorem setTc_role (d : Dev) (k : Nat) (x : TCore) : (setTc d k x).role = d.role := by unfold setTc; rfl
@[simp] theorem setTc_sf (d : Dev) (k : Nat) (x : TCore) : (setTc d k x).sf = d.sf := by unfold setTc; rfl
@[simp] theorem setTc_pls (d : Dev) (k : Nat) (x : TCore) : (setTc d k x).pls = d.pls := by unfold setTc; rfl
@[simp] theorem setTc_tw (d : Dev) (k : Nat) (x : TCore) : (setTc d k x).tw = d.tw := by unfold setTc; rfl
@[simp] theorem setTc_cxs (d : Dev) (k : Nat) (x : TCore) : (setTc d k x).cxs = d.cxs := by unfold setTc; rfl
@[simp] theorem setTc_tb (d : Dev) (k : Nat) (x : TCore) : (setTc d k x).tb = d.tb := by unfold setTc; rfl
@[simp] theorem setTc_eths (d : Dev) (k : Nat) (x : TCore) : (setTc d k x).eths = d.eths := by unfold setTc; rfl
@[simp] theorem setTc_tk (d : Dev) (k : Nat) (x : TCore) : (setTc d k x).tk = d.tk := by unfold setTc; rfl
@[simp] theorem setTc_sram (d : Dev) (k : Nat) (x : TCore) : (setTc d k x).sram = d.sram := by unfold setTc; rfl
@[simp] theorem setTc_poison (d : Dev) (k : Nat) (x : TCore) : (setTc d k x).poison = d.poison := by unfold setTc; rfl
@[simp] theorem setTc_mram (d : Dev) (k : Nat) (x : TCore) : (setTc d k x).mram = d.mram := by unfold setTc; rfl
@[simp] theorem setTc_nv (d : Dev) (k : Nat) (x : TCore) : (setTc d k x).nv = d.nv := by unfold setTc; rfl
@[simp] theorem setTc_nvAt (d : Dev) (k : Nat) (x : TCore) : (setTc d k x).nvAt = d.nvAt := by unfold setTc; rfl
@[simp] theorem setTc_ring (d : Dev) (k : Nat) (x : TCore) : (setTc d k x).ring = d.ring := by unfold setTc; rfl
@[simp] theorem setTc_dir (d : Dev) (k : Nat) (x : TCore) : (setTc d k x).dir = d.dir := by unfold setTc; rfl
@[simp] theorem setTc_jn (d : Dev) (k : Nat) (x : TCore) : (setTc d k x).jn = d.jn := by unfold setTc; rfl
@[simp] theorem setTc_oh (d : Dev) (k : Nat) (x : TCore) : (setTc d k x).oh = d.oh := by unfold setTc; rfl
@[simp] theorem setTc_free (d : Dev) (k : Nat) (x : TCore) : (setTc d k x).free = d.free := by unfold setTc; rfl

/-! ### setWear -/

@[simp] theorem setWear_regs (d : Dev) (k : Nat) (x : Wear) : (setWear d k x).regs = d.regs := by unfold setWear; rfl
@[simp] theorem setWear_sig (d : Dev) (k : Nat) (x : Wear) : (setWear d k x).sig = d.sig := by unfold setWear; rfl
@[simp] theorem setWear_attr (d : Dev) (k : Nat) (x : Wear) : (setWear d k x).attr = d.attr := by unfold setWear; rfl
@[simp] theorem setWear_stage1 (d : Dev) (k : Nat) (x : Wear) : (setWear d k x).stage1 = d.stage1 := by unfold setWear; rfl
@[simp] theorem setWear_stage2 (d : Dev) (k : Nat) (x : Wear) : (setWear d k x).stage2 = d.stage2 := by unfold setWear; rfl
@[simp] theorem setWear_hostq (d : Dev) (k : Nat) (x : Wear) : (setWear d k x).hostq = d.hostq := by unfold setWear; rfl
@[simp] theorem setWear_crossing (d : Dev) (k : Nat) (x : Wear) : (setWear d k x).crossing = d.crossing := by unfold setWear; rfl
@[simp] theorem setWear_cfgq (d : Dev) (k : Nat) (x : Wear) : (setWear d k x).cfgq = d.cfgq := by unfold setWear; rfl
@[simp] theorem setWear_evr (d : Dev) (k : Nat) (x : Wear) : (setWear d k x).evr = d.evr := by unfold setWear; rfl
@[simp] theorem setWear_db (d : Dev) (k : Nat) (x : Wear) : (setWear d k x).db = d.db := by unfold setWear; rfl
@[simp] theorem setWear_tr (d : Dev) (k : Nat) (x : Wear) : (setWear d k x).tr = d.tr := by unfold setWear; rfl
@[simp] theorem setWear_power (d : Dev) (k : Nat) (x : Wear) : (setWear d k x).power = d.power := by unfold setWear; rfl
@[simp] theorem setWear_health (d : Dev) (k : Nat) (x : Wear) : (setWear d k x).health = d.health := by unfold setWear; rfl
@[simp] theorem setWear_idBusy (d : Dev) (k : Nat) (x : Wear) : (setWear d k x).idBusy = d.idBusy := by unfold setWear; rfl
@[simp] theorem setWear_tt (d : Dev) (k : Nat) (x : Wear) : (setWear d k x).tt = d.tt := by unfold setWear; rfl
@[simp] theorem setWear_ttFrac (d : Dev) (k : Nat) (x : Wear) : (setWear d k x).ttFrac = d.ttFrac := by unfold setWear; rfl
@[simp] theorem setWear_lanes (d : Dev) (k : Nat) (x : Wear) : (setWear d k x).lanes = d.lanes := by unfold setWear; rfl
@[simp] theorem setWear_axes (d : Dev) (k : Nat) (x : Wear) : (setWear d k x).axes = d.axes := by unfold setWear; rfl
@[simp] theorem setWear_stps (d : Dev) (k : Nat) (x : Wear) : (setWear d k x).stps = d.stps := by unfold setWear; rfl
@[simp] theorem setWear_encs (d : Dev) (k : Nat) (x : Wear) : (setWear d k x).encs = d.encs := by unfold setWear; rfl
@[simp] theorem setWear_quar (d : Dev) (k : Nat) (x : Wear) : (setWear d k x).quar = d.quar := by unfold setWear; rfl
@[simp] theorem setWear_lps (d : Dev) (k : Nat) (x : Wear) : (setWear d k x).lps = d.lps := by unfold setWear; rfl
@[simp] theorem setWear_shared (d : Dev) (k : Nat) (x : Wear) : (setWear d k x).shared = d.shared := by unfold setWear; rfl
@[simp] theorem setWear_trigs (d : Dev) (k : Nat) (x : Wear) : (setWear d k x).trigs = d.trigs := by unfold setWear; rfl
@[simp] theorem setWear_cells (d : Dev) (k : Nat) (x : Wear) : (setWear d k x).cells = d.cells := by unfold setWear; rfl
@[simp] theorem setWear_ctab (d : Dev) (k : Nat) (x : Wear) : (setWear d k x).ctab = d.ctab := by unfold setWear; rfl
@[simp] theorem setWear_cores (d : Dev) (k : Nat) (x : Wear) : (setWear d k x).cores = d.cores := by unfold setWear; rfl
@[simp] theorem setWear_aos (d : Dev) (k : Nat) (x : Wear) : (setWear d k x).aos = d.aos := by unfold setWear; rfl
@[simp] theorem setWear_dios (d : Dev) (k : Nat) (x : Wear) : (setWear d k x).dios = d.dios := by unfold setWear; rfl
@[simp] theorem setWear_role (d : Dev) (k : Nat) (x : Wear) : (setWear d k x).role = d.role := by unfold setWear; rfl
@[simp] theorem setWear_sf (d : Dev) (k : Nat) (x : Wear) : (setWear d k x).sf = d.sf := by unfold setWear; rfl
@[simp] theorem setWear_pls (d : Dev) (k : Nat) (x : Wear) : (setWear d k x).pls = d.pls := by unfold setWear; rfl
@[simp] theorem setWear_tw (d : Dev) (k : Nat) (x : Wear) : (setWear d k x).tw = d.tw := by unfold setWear; rfl
@[simp] theorem setWear_cxs (d : Dev) (k : Nat) (x : Wear) : (setWear d k x).cxs = d.cxs := by unfold setWear; rfl
@[simp] theorem setWear_tb (d : Dev) (k : Nat) (x : Wear) : (setWear d k x).tb = d.tb := by unfold setWear; rfl
@[simp] theorem setWear_eths (d : Dev) (k : Nat) (x : Wear) : (setWear d k x).eths = d.eths := by unfold setWear; rfl
@[simp] theorem setWear_tl (d : Dev) (k : Nat) (x : Wear) : (setWear d k x).tl = d.tl := by unfold setWear; rfl
@[simp] theorem setWear_tk (d : Dev) (k : Nat) (x : Wear) : (setWear d k x).tk = d.tk := by unfold setWear; rfl
@[simp] theorem setWear_sram (d : Dev) (k : Nat) (x : Wear) : (setWear d k x).sram = d.sram := by unfold setWear; rfl
@[simp] theorem setWear_poison (d : Dev) (k : Nat) (x : Wear) : (setWear d k x).poison = d.poison := by unfold setWear; rfl
@[simp] theorem setWear_mram (d : Dev) (k : Nat) (x : Wear) : (setWear d k x).mram = d.mram := by unfold setWear; rfl
@[simp] theorem setWear_nv (d : Dev) (k : Nat) (x : Wear) : (setWear d k x).nv = d.nv := by unfold setWear; rfl
@[simp] theorem setWear_nvAt (d : Dev) (k : Nat) (x : Wear) : (setWear d k x).nvAt = d.nvAt := by unfold setWear; rfl
@[simp] theorem setWear_ring (d : Dev) (k : Nat) (x : Wear) : (setWear d k x).ring = d.ring := by unfold setWear; rfl
@[simp] theorem setWear_dir (d : Dev) (k : Nat) (x : Wear) : (setWear d k x).dir = d.dir := by unfold setWear; rfl
@[simp] theorem setWear_jn (d : Dev) (k : Nat) (x : Wear) : (setWear d k x).jn = d.jn := by unfold setWear; rfl
@[simp] theorem setWear_oh (d : Dev) (k : Nat) (x : Wear) : (setWear d k x).oh = d.oh := by unfold setWear; rfl
@[simp] theorem setWear_free (d : Dev) (k : Nat) (x : Wear) : (setWear d k x).free = d.free := by unfold setWear; rfl

/-! ### setTb -/

@[simp] theorem setTb_regs (d : Dev) (x : Tb) : (setTb d x).regs = d.regs := by unfold setTb; rfl
@[simp] theorem setTb_sig (d : Dev) (x : Tb) : (setTb d x).sig = d.sig := by unfold setTb; rfl
@[simp] theorem setTb_attr (d : Dev) (x : Tb) : (setTb d x).attr = d.attr := by unfold setTb; rfl
@[simp] theorem setTb_stage1 (d : Dev) (x : Tb) : (setTb d x).stage1 = d.stage1 := by unfold setTb; rfl
@[simp] theorem setTb_stage2 (d : Dev) (x : Tb) : (setTb d x).stage2 = d.stage2 := by unfold setTb; rfl
@[simp] theorem setTb_hostq (d : Dev) (x : Tb) : (setTb d x).hostq = d.hostq := by unfold setTb; rfl
@[simp] theorem setTb_crossing (d : Dev) (x : Tb) : (setTb d x).crossing = d.crossing := by unfold setTb; rfl
@[simp] theorem setTb_cfgq (d : Dev) (x : Tb) : (setTb d x).cfgq = d.cfgq := by unfold setTb; rfl
@[simp] theorem setTb_evr (d : Dev) (x : Tb) : (setTb d x).evr = d.evr := by unfold setTb; rfl
@[simp] theorem setTb_db (d : Dev) (x : Tb) : (setTb d x).db = d.db := by unfold setTb; rfl
@[simp] theorem setTb_tr (d : Dev) (x : Tb) : (setTb d x).tr = d.tr := by unfold setTb; rfl
@[simp] theorem setTb_power (d : Dev) (x : Tb) : (setTb d x).power = d.power := by unfold setTb; rfl
@[simp] theorem setTb_health (d : Dev) (x : Tb) : (setTb d x).health = d.health := by unfold setTb; rfl
@[simp] theorem setTb_wear (d : Dev) (x : Tb) : (setTb d x).wear = d.wear := by unfold setTb; rfl
@[simp] theorem setTb_idBusy (d : Dev) (x : Tb) : (setTb d x).idBusy = d.idBusy := by unfold setTb; rfl
@[simp] theorem setTb_tt (d : Dev) (x : Tb) : (setTb d x).tt = d.tt := by unfold setTb; rfl
@[simp] theorem setTb_ttFrac (d : Dev) (x : Tb) : (setTb d x).ttFrac = d.ttFrac := by unfold setTb; rfl
@[simp] theorem setTb_lanes (d : Dev) (x : Tb) : (setTb d x).lanes = d.lanes := by unfold setTb; rfl
@[simp] theorem setTb_axes (d : Dev) (x : Tb) : (setTb d x).axes = d.axes := by unfold setTb; rfl
@[simp] theorem setTb_stps (d : Dev) (x : Tb) : (setTb d x).stps = d.stps := by unfold setTb; rfl
@[simp] theorem setTb_encs (d : Dev) (x : Tb) : (setTb d x).encs = d.encs := by unfold setTb; rfl
@[simp] theorem setTb_quar (d : Dev) (x : Tb) : (setTb d x).quar = d.quar := by unfold setTb; rfl
@[simp] theorem setTb_lps (d : Dev) (x : Tb) : (setTb d x).lps = d.lps := by unfold setTb; rfl
@[simp] theorem setTb_shared (d : Dev) (x : Tb) : (setTb d x).shared = d.shared := by unfold setTb; rfl
@[simp] theorem setTb_trigs (d : Dev) (x : Tb) : (setTb d x).trigs = d.trigs := by unfold setTb; rfl
@[simp] theorem setTb_cells (d : Dev) (x : Tb) : (setTb d x).cells = d.cells := by unfold setTb; rfl
@[simp] theorem setTb_ctab (d : Dev) (x : Tb) : (setTb d x).ctab = d.ctab := by unfold setTb; rfl
@[simp] theorem setTb_cores (d : Dev) (x : Tb) : (setTb d x).cores = d.cores := by unfold setTb; rfl
@[simp] theorem setTb_aos (d : Dev) (x : Tb) : (setTb d x).aos = d.aos := by unfold setTb; rfl
@[simp] theorem setTb_dios (d : Dev) (x : Tb) : (setTb d x).dios = d.dios := by unfold setTb; rfl
@[simp] theorem setTb_role (d : Dev) (x : Tb) : (setTb d x).role = d.role := by unfold setTb; rfl
@[simp] theorem setTb_sf (d : Dev) (x : Tb) : (setTb d x).sf = d.sf := by unfold setTb; rfl
@[simp] theorem setTb_pls (d : Dev) (x : Tb) : (setTb d x).pls = d.pls := by unfold setTb; rfl
@[simp] theorem setTb_tw (d : Dev) (x : Tb) : (setTb d x).tw = d.tw := by unfold setTb; rfl
@[simp] theorem setTb_cxs (d : Dev) (x : Tb) : (setTb d x).cxs = d.cxs := by unfold setTb; rfl
@[simp] theorem setTb_eths (d : Dev) (x : Tb) : (setTb d x).eths = d.eths := by unfold setTb; rfl
@[simp] theorem setTb_tl (d : Dev) (x : Tb) : (setTb d x).tl = d.tl := by unfold setTb; rfl
@[simp] theorem setTb_tk (d : Dev) (x : Tb) : (setTb d x).tk = d.tk := by unfold setTb; rfl
@[simp] theorem setTb_sram (d : Dev) (x : Tb) : (setTb d x).sram = d.sram := by unfold setTb; rfl
@[simp] theorem setTb_poison (d : Dev) (x : Tb) : (setTb d x).poison = d.poison := by unfold setTb; rfl
@[simp] theorem setTb_mram (d : Dev) (x : Tb) : (setTb d x).mram = d.mram := by unfold setTb; rfl
@[simp] theorem setTb_nv (d : Dev) (x : Tb) : (setTb d x).nv = d.nv := by unfold setTb; rfl
@[simp] theorem setTb_nvAt (d : Dev) (x : Tb) : (setTb d x).nvAt = d.nvAt := by unfold setTb; rfl
@[simp] theorem setTb_ring (d : Dev) (x : Tb) : (setTb d x).ring = d.ring := by unfold setTb; rfl
@[simp] theorem setTb_dir (d : Dev) (x : Tb) : (setTb d x).dir = d.dir := by unfold setTb; rfl
@[simp] theorem setTb_jn (d : Dev) (x : Tb) : (setTb d x).jn = d.jn := by unfold setTb; rfl
@[simp] theorem setTb_oh (d : Dev) (x : Tb) : (setTb d x).oh = d.oh := by unfold setTb; rfl
@[simp] theorem setTb_free (d : Dev) (x : Tb) : (setTb d x).free = d.free := by unfold setTb; rfl

/-! ### setSf -/

@[simp] theorem setSf_regs (d : Dev) (x : Safety) : (setSf d x).regs = d.regs := by unfold setSf; rfl
@[simp] theorem setSf_sig (d : Dev) (x : Safety) : (setSf d x).sig = d.sig := by unfold setSf; rfl
@[simp] theorem setSf_attr (d : Dev) (x : Safety) : (setSf d x).attr = d.attr := by unfold setSf; rfl
@[simp] theorem setSf_stage1 (d : Dev) (x : Safety) : (setSf d x).stage1 = d.stage1 := by unfold setSf; rfl
@[simp] theorem setSf_stage2 (d : Dev) (x : Safety) : (setSf d x).stage2 = d.stage2 := by unfold setSf; rfl
@[simp] theorem setSf_hostq (d : Dev) (x : Safety) : (setSf d x).hostq = d.hostq := by unfold setSf; rfl
@[simp] theorem setSf_crossing (d : Dev) (x : Safety) : (setSf d x).crossing = d.crossing := by unfold setSf; rfl
@[simp] theorem setSf_cfgq (d : Dev) (x : Safety) : (setSf d x).cfgq = d.cfgq := by unfold setSf; rfl
@[simp] theorem setSf_evr (d : Dev) (x : Safety) : (setSf d x).evr = d.evr := by unfold setSf; rfl
@[simp] theorem setSf_db (d : Dev) (x : Safety) : (setSf d x).db = d.db := by unfold setSf; rfl
@[simp] theorem setSf_tr (d : Dev) (x : Safety) : (setSf d x).tr = d.tr := by unfold setSf; rfl
@[simp] theorem setSf_power (d : Dev) (x : Safety) : (setSf d x).power = d.power := by unfold setSf; rfl
@[simp] theorem setSf_health (d : Dev) (x : Safety) : (setSf d x).health = d.health := by unfold setSf; rfl
@[simp] theorem setSf_wear (d : Dev) (x : Safety) : (setSf d x).wear = d.wear := by unfold setSf; rfl
@[simp] theorem setSf_idBusy (d : Dev) (x : Safety) : (setSf d x).idBusy = d.idBusy := by unfold setSf; rfl
@[simp] theorem setSf_tt (d : Dev) (x : Safety) : (setSf d x).tt = d.tt := by unfold setSf; rfl
@[simp] theorem setSf_ttFrac (d : Dev) (x : Safety) : (setSf d x).ttFrac = d.ttFrac := by unfold setSf; rfl
@[simp] theorem setSf_lanes (d : Dev) (x : Safety) : (setSf d x).lanes = d.lanes := by unfold setSf; rfl
@[simp] theorem setSf_axes (d : Dev) (x : Safety) : (setSf d x).axes = d.axes := by unfold setSf; rfl
@[simp] theorem setSf_stps (d : Dev) (x : Safety) : (setSf d x).stps = d.stps := by unfold setSf; rfl
@[simp] theorem setSf_encs (d : Dev) (x : Safety) : (setSf d x).encs = d.encs := by unfold setSf; rfl
@[simp] theorem setSf_quar (d : Dev) (x : Safety) : (setSf d x).quar = d.quar := by unfold setSf; rfl
@[simp] theorem setSf_lps (d : Dev) (x : Safety) : (setSf d x).lps = d.lps := by unfold setSf; rfl
@[simp] theorem setSf_shared (d : Dev) (x : Safety) : (setSf d x).shared = d.shared := by unfold setSf; rfl
@[simp] theorem setSf_trigs (d : Dev) (x : Safety) : (setSf d x).trigs = d.trigs := by unfold setSf; rfl
@[simp] theorem setSf_cells (d : Dev) (x : Safety) : (setSf d x).cells = d.cells := by unfold setSf; rfl
@[simp] theorem setSf_ctab (d : Dev) (x : Safety) : (setSf d x).ctab = d.ctab := by unfold setSf; rfl
@[simp] theorem setSf_cores (d : Dev) (x : Safety) : (setSf d x).cores = d.cores := by unfold setSf; rfl
@[simp] theorem setSf_aos (d : Dev) (x : Safety) : (setSf d x).aos = d.aos := by unfold setSf; rfl
@[simp] theorem setSf_dios (d : Dev) (x : Safety) : (setSf d x).dios = d.dios := by unfold setSf; rfl
@[simp] theorem setSf_role (d : Dev) (x : Safety) : (setSf d x).role = d.role := by unfold setSf; rfl
@[simp] theorem setSf_pls (d : Dev) (x : Safety) : (setSf d x).pls = d.pls := by unfold setSf; rfl
@[simp] theorem setSf_tw (d : Dev) (x : Safety) : (setSf d x).tw = d.tw := by unfold setSf; rfl
@[simp] theorem setSf_cxs (d : Dev) (x : Safety) : (setSf d x).cxs = d.cxs := by unfold setSf; rfl
@[simp] theorem setSf_tb (d : Dev) (x : Safety) : (setSf d x).tb = d.tb := by unfold setSf; rfl
@[simp] theorem setSf_eths (d : Dev) (x : Safety) : (setSf d x).eths = d.eths := by unfold setSf; rfl
@[simp] theorem setSf_tl (d : Dev) (x : Safety) : (setSf d x).tl = d.tl := by unfold setSf; rfl
@[simp] theorem setSf_tk (d : Dev) (x : Safety) : (setSf d x).tk = d.tk := by unfold setSf; rfl
@[simp] theorem setSf_sram (d : Dev) (x : Safety) : (setSf d x).sram = d.sram := by unfold setSf; rfl
@[simp] theorem setSf_poison (d : Dev) (x : Safety) : (setSf d x).poison = d.poison := by unfold setSf; rfl
@[simp] theorem setSf_mram (d : Dev) (x : Safety) : (setSf d x).mram = d.mram := by unfold setSf; rfl
@[simp] theorem setSf_nv (d : Dev) (x : Safety) : (setSf d x).nv = d.nv := by unfold setSf; rfl
@[simp] theorem setSf_nvAt (d : Dev) (x : Safety) : (setSf d x).nvAt = d.nvAt := by unfold setSf; rfl
@[simp] theorem setSf_ring (d : Dev) (x : Safety) : (setSf d x).ring = d.ring := by unfold setSf; rfl
@[simp] theorem setSf_dir (d : Dev) (x : Safety) : (setSf d x).dir = d.dir := by unfold setSf; rfl
@[simp] theorem setSf_jn (d : Dev) (x : Safety) : (setSf d x).jn = d.jn := by unfold setSf; rfl
@[simp] theorem setSf_oh (d : Dev) (x : Safety) : (setSf d x).oh = d.oh := by unfold setSf; rfl
@[simp] theorem setSf_free (d : Dev) (x : Safety) : (setSf d x).free = d.free := by unfold setSf; rfl

/-! ### setTw -/

@[simp] theorem setTw_regs (d : Dev) (x : Twin) : (setTw d x).regs = d.regs := by unfold setTw; rfl
@[simp] theorem setTw_sig (d : Dev) (x : Twin) : (setTw d x).sig = d.sig := by unfold setTw; rfl
@[simp] theorem setTw_attr (d : Dev) (x : Twin) : (setTw d x).attr = d.attr := by unfold setTw; rfl
@[simp] theorem setTw_stage1 (d : Dev) (x : Twin) : (setTw d x).stage1 = d.stage1 := by unfold setTw; rfl
@[simp] theorem setTw_stage2 (d : Dev) (x : Twin) : (setTw d x).stage2 = d.stage2 := by unfold setTw; rfl
@[simp] theorem setTw_hostq (d : Dev) (x : Twin) : (setTw d x).hostq = d.hostq := by unfold setTw; rfl
@[simp] theorem setTw_crossing (d : Dev) (x : Twin) : (setTw d x).crossing = d.crossing := by unfold setTw; rfl
@[simp] theorem setTw_cfgq (d : Dev) (x : Twin) : (setTw d x).cfgq = d.cfgq := by unfold setTw; rfl
@[simp] theorem setTw_evr (d : Dev) (x : Twin) : (setTw d x).evr = d.evr := by unfold setTw; rfl
@[simp] theorem setTw_db (d : Dev) (x : Twin) : (setTw d x).db = d.db := by unfold setTw; rfl
@[simp] theorem setTw_tr (d : Dev) (x : Twin) : (setTw d x).tr = d.tr := by unfold setTw; rfl
@[simp] theorem setTw_power (d : Dev) (x : Twin) : (setTw d x).power = d.power := by unfold setTw; rfl
@[simp] theorem setTw_health (d : Dev) (x : Twin) : (setTw d x).health = d.health := by unfold setTw; rfl
@[simp] theorem setTw_wear (d : Dev) (x : Twin) : (setTw d x).wear = d.wear := by unfold setTw; rfl
@[simp] theorem setTw_idBusy (d : Dev) (x : Twin) : (setTw d x).idBusy = d.idBusy := by unfold setTw; rfl
@[simp] theorem setTw_tt (d : Dev) (x : Twin) : (setTw d x).tt = d.tt := by unfold setTw; rfl
@[simp] theorem setTw_ttFrac (d : Dev) (x : Twin) : (setTw d x).ttFrac = d.ttFrac := by unfold setTw; rfl
@[simp] theorem setTw_lanes (d : Dev) (x : Twin) : (setTw d x).lanes = d.lanes := by unfold setTw; rfl
@[simp] theorem setTw_axes (d : Dev) (x : Twin) : (setTw d x).axes = d.axes := by unfold setTw; rfl
@[simp] theorem setTw_stps (d : Dev) (x : Twin) : (setTw d x).stps = d.stps := by unfold setTw; rfl
@[simp] theorem setTw_encs (d : Dev) (x : Twin) : (setTw d x).encs = d.encs := by unfold setTw; rfl
@[simp] theorem setTw_quar (d : Dev) (x : Twin) : (setTw d x).quar = d.quar := by unfold setTw; rfl
@[simp] theorem setTw_lps (d : Dev) (x : Twin) : (setTw d x).lps = d.lps := by unfold setTw; rfl
@[simp] theorem setTw_shared (d : Dev) (x : Twin) : (setTw d x).shared = d.shared := by unfold setTw; rfl
@[simp] theorem setTw_trigs (d : Dev) (x : Twin) : (setTw d x).trigs = d.trigs := by unfold setTw; rfl
@[simp] theorem setTw_cells (d : Dev) (x : Twin) : (setTw d x).cells = d.cells := by unfold setTw; rfl
@[simp] theorem setTw_ctab (d : Dev) (x : Twin) : (setTw d x).ctab = d.ctab := by unfold setTw; rfl
@[simp] theorem setTw_cores (d : Dev) (x : Twin) : (setTw d x).cores = d.cores := by unfold setTw; rfl
@[simp] theorem setTw_aos (d : Dev) (x : Twin) : (setTw d x).aos = d.aos := by unfold setTw; rfl
@[simp] theorem setTw_dios (d : Dev) (x : Twin) : (setTw d x).dios = d.dios := by unfold setTw; rfl
@[simp] theorem setTw_role (d : Dev) (x : Twin) : (setTw d x).role = d.role := by unfold setTw; rfl
@[simp] theorem setTw_sf (d : Dev) (x : Twin) : (setTw d x).sf = d.sf := by unfold setTw; rfl
@[simp] theorem setTw_pls (d : Dev) (x : Twin) : (setTw d x).pls = d.pls := by unfold setTw; rfl
@[simp] theorem setTw_cxs (d : Dev) (x : Twin) : (setTw d x).cxs = d.cxs := by unfold setTw; rfl
@[simp] theorem setTw_tb (d : Dev) (x : Twin) : (setTw d x).tb = d.tb := by unfold setTw; rfl
@[simp] theorem setTw_eths (d : Dev) (x : Twin) : (setTw d x).eths = d.eths := by unfold setTw; rfl
@[simp] theorem setTw_tl (d : Dev) (x : Twin) : (setTw d x).tl = d.tl := by unfold setTw; rfl
@[simp] theorem setTw_tk (d : Dev) (x : Twin) : (setTw d x).tk = d.tk := by unfold setTw; rfl
@[simp] theorem setTw_sram (d : Dev) (x : Twin) : (setTw d x).sram = d.sram := by unfold setTw; rfl
@[simp] theorem setTw_poison (d : Dev) (x : Twin) : (setTw d x).poison = d.poison := by unfold setTw; rfl
@[simp] theorem setTw_mram (d : Dev) (x : Twin) : (setTw d x).mram = d.mram := by unfold setTw; rfl
@[simp] theorem setTw_nv (d : Dev) (x : Twin) : (setTw d x).nv = d.nv := by unfold setTw; rfl
@[simp] theorem setTw_nvAt (d : Dev) (x : Twin) : (setTw d x).nvAt = d.nvAt := by unfold setTw; rfl
@[simp] theorem setTw_ring (d : Dev) (x : Twin) : (setTw d x).ring = d.ring := by unfold setTw; rfl
@[simp] theorem setTw_dir (d : Dev) (x : Twin) : (setTw d x).dir = d.dir := by unfold setTw; rfl
@[simp] theorem setTw_jn (d : Dev) (x : Twin) : (setTw d x).jn = d.jn := by unfold setTw; rfl
@[simp] theorem setTw_oh (d : Dev) (x : Twin) : (setTw d x).oh = d.oh := by unfold setTw; rfl
@[simp] theorem setTw_free (d : Dev) (x : Twin) : (setTw d x).free = d.free := by unfold setTw; rfl

/-! ### setEvr -/

@[simp] theorem setEvr_regs (d : Dev) (x : Evr) : (setEvr d x).regs = d.regs := by unfold setEvr; rfl
@[simp] theorem setEvr_sig (d : Dev) (x : Evr) : (setEvr d x).sig = d.sig := by unfold setEvr; rfl
@[simp] theorem setEvr_attr (d : Dev) (x : Evr) : (setEvr d x).attr = d.attr := by unfold setEvr; rfl
@[simp] theorem setEvr_stage1 (d : Dev) (x : Evr) : (setEvr d x).stage1 = d.stage1 := by unfold setEvr; rfl
@[simp] theorem setEvr_stage2 (d : Dev) (x : Evr) : (setEvr d x).stage2 = d.stage2 := by unfold setEvr; rfl
@[simp] theorem setEvr_hostq (d : Dev) (x : Evr) : (setEvr d x).hostq = d.hostq := by unfold setEvr; rfl
@[simp] theorem setEvr_crossing (d : Dev) (x : Evr) : (setEvr d x).crossing = d.crossing := by unfold setEvr; rfl
@[simp] theorem setEvr_cfgq (d : Dev) (x : Evr) : (setEvr d x).cfgq = d.cfgq := by unfold setEvr; rfl
@[simp] theorem setEvr_db (d : Dev) (x : Evr) : (setEvr d x).db = d.db := by unfold setEvr; rfl
@[simp] theorem setEvr_tr (d : Dev) (x : Evr) : (setEvr d x).tr = d.tr := by unfold setEvr; rfl
@[simp] theorem setEvr_power (d : Dev) (x : Evr) : (setEvr d x).power = d.power := by unfold setEvr; rfl
@[simp] theorem setEvr_health (d : Dev) (x : Evr) : (setEvr d x).health = d.health := by unfold setEvr; rfl
@[simp] theorem setEvr_wear (d : Dev) (x : Evr) : (setEvr d x).wear = d.wear := by unfold setEvr; rfl
@[simp] theorem setEvr_idBusy (d : Dev) (x : Evr) : (setEvr d x).idBusy = d.idBusy := by unfold setEvr; rfl
@[simp] theorem setEvr_tt (d : Dev) (x : Evr) : (setEvr d x).tt = d.tt := by unfold setEvr; rfl
@[simp] theorem setEvr_ttFrac (d : Dev) (x : Evr) : (setEvr d x).ttFrac = d.ttFrac := by unfold setEvr; rfl
@[simp] theorem setEvr_lanes (d : Dev) (x : Evr) : (setEvr d x).lanes = d.lanes := by unfold setEvr; rfl
@[simp] theorem setEvr_axes (d : Dev) (x : Evr) : (setEvr d x).axes = d.axes := by unfold setEvr; rfl
@[simp] theorem setEvr_stps (d : Dev) (x : Evr) : (setEvr d x).stps = d.stps := by unfold setEvr; rfl
@[simp] theorem setEvr_encs (d : Dev) (x : Evr) : (setEvr d x).encs = d.encs := by unfold setEvr; rfl
@[simp] theorem setEvr_quar (d : Dev) (x : Evr) : (setEvr d x).quar = d.quar := by unfold setEvr; rfl
@[simp] theorem setEvr_lps (d : Dev) (x : Evr) : (setEvr d x).lps = d.lps := by unfold setEvr; rfl
@[simp] theorem setEvr_shared (d : Dev) (x : Evr) : (setEvr d x).shared = d.shared := by unfold setEvr; rfl
@[simp] theorem setEvr_trigs (d : Dev) (x : Evr) : (setEvr d x).trigs = d.trigs := by unfold setEvr; rfl
@[simp] theorem setEvr_cells (d : Dev) (x : Evr) : (setEvr d x).cells = d.cells := by unfold setEvr; rfl
@[simp] theorem setEvr_ctab (d : Dev) (x : Evr) : (setEvr d x).ctab = d.ctab := by unfold setEvr; rfl
@[simp] theorem setEvr_cores (d : Dev) (x : Evr) : (setEvr d x).cores = d.cores := by unfold setEvr; rfl
@[simp] theorem setEvr_aos (d : Dev) (x : Evr) : (setEvr d x).aos = d.aos := by unfold setEvr; rfl
@[simp] theorem setEvr_dios (d : Dev) (x : Evr) : (setEvr d x).dios = d.dios := by unfold setEvr; rfl
@[simp] theorem setEvr_role (d : Dev) (x : Evr) : (setEvr d x).role = d.role := by unfold setEvr; rfl
@[simp] theorem setEvr_sf (d : Dev) (x : Evr) : (setEvr d x).sf = d.sf := by unfold setEvr; rfl
@[simp] theorem setEvr_pls (d : Dev) (x : Evr) : (setEvr d x).pls = d.pls := by unfold setEvr; rfl
@[simp] theorem setEvr_tw (d : Dev) (x : Evr) : (setEvr d x).tw = d.tw := by unfold setEvr; rfl
@[simp] theorem setEvr_cxs (d : Dev) (x : Evr) : (setEvr d x).cxs = d.cxs := by unfold setEvr; rfl
@[simp] theorem setEvr_tb (d : Dev) (x : Evr) : (setEvr d x).tb = d.tb := by unfold setEvr; rfl
@[simp] theorem setEvr_eths (d : Dev) (x : Evr) : (setEvr d x).eths = d.eths := by unfold setEvr; rfl
@[simp] theorem setEvr_tl (d : Dev) (x : Evr) : (setEvr d x).tl = d.tl := by unfold setEvr; rfl
@[simp] theorem setEvr_tk (d : Dev) (x : Evr) : (setEvr d x).tk = d.tk := by unfold setEvr; rfl
@[simp] theorem setEvr_sram (d : Dev) (x : Evr) : (setEvr d x).sram = d.sram := by unfold setEvr; rfl
@[simp] theorem setEvr_poison (d : Dev) (x : Evr) : (setEvr d x).poison = d.poison := by unfold setEvr; rfl
@[simp] theorem setEvr_mram (d : Dev) (x : Evr) : (setEvr d x).mram = d.mram := by unfold setEvr; rfl
@[simp] theorem setEvr_nv (d : Dev) (x : Evr) : (setEvr d x).nv = d.nv := by unfold setEvr; rfl
@[simp] theorem setEvr_nvAt (d : Dev) (x : Evr) : (setEvr d x).nvAt = d.nvAt := by unfold setEvr; rfl
@[simp] theorem setEvr_ring (d : Dev) (x : Evr) : (setEvr d x).ring = d.ring := by unfold setEvr; rfl
@[simp] theorem setEvr_dir (d : Dev) (x : Evr) : (setEvr d x).dir = d.dir := by unfold setEvr; rfl
@[simp] theorem setEvr_jn (d : Dev) (x : Evr) : (setEvr d x).jn = d.jn := by unfold setEvr; rfl
@[simp] theorem setEvr_oh (d : Dev) (x : Evr) : (setEvr d x).oh = d.oh := by unfold setEvr; rfl
@[simp] theorem setEvr_free (d : Dev) (x : Evr) : (setEvr d x).free = d.free := by unfold setEvr; rfl

/-! ### setDb -/

@[simp] theorem setDb_regs (d : Dev) (x : Daybook) : (setDb d x).regs = d.regs := by unfold setDb; rfl
@[simp] theorem setDb_sig (d : Dev) (x : Daybook) : (setDb d x).sig = d.sig := by unfold setDb; rfl
@[simp] theorem setDb_attr (d : Dev) (x : Daybook) : (setDb d x).attr = d.attr := by unfold setDb; rfl
@[simp] theorem setDb_stage1 (d : Dev) (x : Daybook) : (setDb d x).stage1 = d.stage1 := by unfold setDb; rfl
@[simp] theorem setDb_stage2 (d : Dev) (x : Daybook) : (setDb d x).stage2 = d.stage2 := by unfold setDb; rfl
@[simp] theorem setDb_hostq (d : Dev) (x : Daybook) : (setDb d x).hostq = d.hostq := by unfold setDb; rfl
@[simp] theorem setDb_crossing (d : Dev) (x : Daybook) : (setDb d x).crossing = d.crossing := by unfold setDb; rfl
@[simp] theorem setDb_cfgq (d : Dev) (x : Daybook) : (setDb d x).cfgq = d.cfgq := by unfold setDb; rfl
@[simp] theorem setDb_evr (d : Dev) (x : Daybook) : (setDb d x).evr = d.evr := by unfold setDb; rfl
@[simp] theorem setDb_tr (d : Dev) (x : Daybook) : (setDb d x).tr = d.tr := by unfold setDb; rfl
@[simp] theorem setDb_power (d : Dev) (x : Daybook) : (setDb d x).power = d.power := by unfold setDb; rfl
@[simp] theorem setDb_health (d : Dev) (x : Daybook) : (setDb d x).health = d.health := by unfold setDb; rfl
@[simp] theorem setDb_wear (d : Dev) (x : Daybook) : (setDb d x).wear = d.wear := by unfold setDb; rfl
@[simp] theorem setDb_idBusy (d : Dev) (x : Daybook) : (setDb d x).idBusy = d.idBusy := by unfold setDb; rfl
@[simp] theorem setDb_tt (d : Dev) (x : Daybook) : (setDb d x).tt = d.tt := by unfold setDb; rfl
@[simp] theorem setDb_ttFrac (d : Dev) (x : Daybook) : (setDb d x).ttFrac = d.ttFrac := by unfold setDb; rfl
@[simp] theorem setDb_lanes (d : Dev) (x : Daybook) : (setDb d x).lanes = d.lanes := by unfold setDb; rfl
@[simp] theorem setDb_axes (d : Dev) (x : Daybook) : (setDb d x).axes = d.axes := by unfold setDb; rfl
@[simp] theorem setDb_stps (d : Dev) (x : Daybook) : (setDb d x).stps = d.stps := by unfold setDb; rfl
@[simp] theorem setDb_encs (d : Dev) (x : Daybook) : (setDb d x).encs = d.encs := by unfold setDb; rfl
@[simp] theorem setDb_quar (d : Dev) (x : Daybook) : (setDb d x).quar = d.quar := by unfold setDb; rfl
@[simp] theorem setDb_lps (d : Dev) (x : Daybook) : (setDb d x).lps = d.lps := by unfold setDb; rfl
@[simp] theorem setDb_shared (d : Dev) (x : Daybook) : (setDb d x).shared = d.shared := by unfold setDb; rfl
@[simp] theorem setDb_trigs (d : Dev) (x : Daybook) : (setDb d x).trigs = d.trigs := by unfold setDb; rfl
@[simp] theorem setDb_cells (d : Dev) (x : Daybook) : (setDb d x).cells = d.cells := by unfold setDb; rfl
@[simp] theorem setDb_ctab (d : Dev) (x : Daybook) : (setDb d x).ctab = d.ctab := by unfold setDb; rfl
@[simp] theorem setDb_cores (d : Dev) (x : Daybook) : (setDb d x).cores = d.cores := by unfold setDb; rfl
@[simp] theorem setDb_aos (d : Dev) (x : Daybook) : (setDb d x).aos = d.aos := by unfold setDb; rfl
@[simp] theorem setDb_dios (d : Dev) (x : Daybook) : (setDb d x).dios = d.dios := by unfold setDb; rfl
@[simp] theorem setDb_role (d : Dev) (x : Daybook) : (setDb d x).role = d.role := by unfold setDb; rfl
@[simp] theorem setDb_sf (d : Dev) (x : Daybook) : (setDb d x).sf = d.sf := by unfold setDb; rfl
@[simp] theorem setDb_pls (d : Dev) (x : Daybook) : (setDb d x).pls = d.pls := by unfold setDb; rfl
@[simp] theorem setDb_tw (d : Dev) (x : Daybook) : (setDb d x).tw = d.tw := by unfold setDb; rfl
@[simp] theorem setDb_cxs (d : Dev) (x : Daybook) : (setDb d x).cxs = d.cxs := by unfold setDb; rfl
@[simp] theorem setDb_tb (d : Dev) (x : Daybook) : (setDb d x).tb = d.tb := by unfold setDb; rfl
@[simp] theorem setDb_eths (d : Dev) (x : Daybook) : (setDb d x).eths = d.eths := by unfold setDb; rfl
@[simp] theorem setDb_tl (d : Dev) (x : Daybook) : (setDb d x).tl = d.tl := by unfold setDb; rfl
@[simp] theorem setDb_tk (d : Dev) (x : Daybook) : (setDb d x).tk = d.tk := by unfold setDb; rfl
@[simp] theorem setDb_sram (d : Dev) (x : Daybook) : (setDb d x).sram = d.sram := by unfold setDb; rfl
@[simp] theorem setDb_poison (d : Dev) (x : Daybook) : (setDb d x).poison = d.poison := by unfold setDb; rfl
@[simp] theorem setDb_mram (d : Dev) (x : Daybook) : (setDb d x).mram = d.mram := by unfold setDb; rfl
@[simp] theorem setDb_nv (d : Dev) (x : Daybook) : (setDb d x).nv = d.nv := by unfold setDb; rfl
@[simp] theorem setDb_nvAt (d : Dev) (x : Daybook) : (setDb d x).nvAt = d.nvAt := by unfold setDb; rfl
@[simp] theorem setDb_ring (d : Dev) (x : Daybook) : (setDb d x).ring = d.ring := by unfold setDb; rfl
@[simp] theorem setDb_dir (d : Dev) (x : Daybook) : (setDb d x).dir = d.dir := by unfold setDb; rfl
@[simp] theorem setDb_jn (d : Dev) (x : Daybook) : (setDb d x).jn = d.jn := by unfold setDb; rfl
@[simp] theorem setDb_oh (d : Dev) (x : Daybook) : (setDb d x).oh = d.oh := by unfold setDb; rfl
@[simp] theorem setDb_free (d : Dev) (x : Daybook) : (setDb d x).free = d.free := by unfold setDb; rfl

/-! ### setJn -/

@[simp] theorem setJn_regs (d : Dev) (x : Journal) : (setJn d x).regs = d.regs := by unfold setJn; rfl
@[simp] theorem setJn_sig (d : Dev) (x : Journal) : (setJn d x).sig = d.sig := by unfold setJn; rfl
@[simp] theorem setJn_attr (d : Dev) (x : Journal) : (setJn d x).attr = d.attr := by unfold setJn; rfl
@[simp] theorem setJn_stage1 (d : Dev) (x : Journal) : (setJn d x).stage1 = d.stage1 := by unfold setJn; rfl
@[simp] theorem setJn_stage2 (d : Dev) (x : Journal) : (setJn d x).stage2 = d.stage2 := by unfold setJn; rfl
@[simp] theorem setJn_hostq (d : Dev) (x : Journal) : (setJn d x).hostq = d.hostq := by unfold setJn; rfl
@[simp] theorem setJn_crossing (d : Dev) (x : Journal) : (setJn d x).crossing = d.crossing := by unfold setJn; rfl
@[simp] theorem setJn_cfgq (d : Dev) (x : Journal) : (setJn d x).cfgq = d.cfgq := by unfold setJn; rfl
@[simp] theorem setJn_evr (d : Dev) (x : Journal) : (setJn d x).evr = d.evr := by unfold setJn; rfl
@[simp] theorem setJn_db (d : Dev) (x : Journal) : (setJn d x).db = d.db := by unfold setJn; rfl
@[simp] theorem setJn_tr (d : Dev) (x : Journal) : (setJn d x).tr = d.tr := by unfold setJn; rfl
@[simp] theorem setJn_power (d : Dev) (x : Journal) : (setJn d x).power = d.power := by unfold setJn; rfl
@[simp] theorem setJn_health (d : Dev) (x : Journal) : (setJn d x).health = d.health := by unfold setJn; rfl
@[simp] theorem setJn_wear (d : Dev) (x : Journal) : (setJn d x).wear = d.wear := by unfold setJn; rfl
@[simp] theorem setJn_idBusy (d : Dev) (x : Journal) : (setJn d x).idBusy = d.idBusy := by unfold setJn; rfl
@[simp] theorem setJn_tt (d : Dev) (x : Journal) : (setJn d x).tt = d.tt := by unfold setJn; rfl
@[simp] theorem setJn_ttFrac (d : Dev) (x : Journal) : (setJn d x).ttFrac = d.ttFrac := by unfold setJn; rfl
@[simp] theorem setJn_lanes (d : Dev) (x : Journal) : (setJn d x).lanes = d.lanes := by unfold setJn; rfl
@[simp] theorem setJn_axes (d : Dev) (x : Journal) : (setJn d x).axes = d.axes := by unfold setJn; rfl
@[simp] theorem setJn_stps (d : Dev) (x : Journal) : (setJn d x).stps = d.stps := by unfold setJn; rfl
@[simp] theorem setJn_encs (d : Dev) (x : Journal) : (setJn d x).encs = d.encs := by unfold setJn; rfl
@[simp] theorem setJn_quar (d : Dev) (x : Journal) : (setJn d x).quar = d.quar := by unfold setJn; rfl
@[simp] theorem setJn_lps (d : Dev) (x : Journal) : (setJn d x).lps = d.lps := by unfold setJn; rfl
@[simp] theorem setJn_shared (d : Dev) (x : Journal) : (setJn d x).shared = d.shared := by unfold setJn; rfl
@[simp] theorem setJn_trigs (d : Dev) (x : Journal) : (setJn d x).trigs = d.trigs := by unfold setJn; rfl
@[simp] theorem setJn_cells (d : Dev) (x : Journal) : (setJn d x).cells = d.cells := by unfold setJn; rfl
@[simp] theorem setJn_ctab (d : Dev) (x : Journal) : (setJn d x).ctab = d.ctab := by unfold setJn; rfl
@[simp] theorem setJn_cores (d : Dev) (x : Journal) : (setJn d x).cores = d.cores := by unfold setJn; rfl
@[simp] theorem setJn_aos (d : Dev) (x : Journal) : (setJn d x).aos = d.aos := by unfold setJn; rfl
@[simp] theorem setJn_dios (d : Dev) (x : Journal) : (setJn d x).dios = d.dios := by unfold setJn; rfl
@[simp] theorem setJn_role (d : Dev) (x : Journal) : (setJn d x).role = d.role := by unfold setJn; rfl
@[simp] theorem setJn_sf (d : Dev) (x : Journal) : (setJn d x).sf = d.sf := by unfold setJn; rfl
@[simp] theorem setJn_pls (d : Dev) (x : Journal) : (setJn d x).pls = d.pls := by unfold setJn; rfl
@[simp] theorem setJn_tw (d : Dev) (x : Journal) : (setJn d x).tw = d.tw := by unfold setJn; rfl
@[simp] theorem setJn_cxs (d : Dev) (x : Journal) : (setJn d x).cxs = d.cxs := by unfold setJn; rfl
@[simp] theorem setJn_tb (d : Dev) (x : Journal) : (setJn d x).tb = d.tb := by unfold setJn; rfl
@[simp] theorem setJn_eths (d : Dev) (x : Journal) : (setJn d x).eths = d.eths := by unfold setJn; rfl
@[simp] theorem setJn_tl (d : Dev) (x : Journal) : (setJn d x).tl = d.tl := by unfold setJn; rfl
@[simp] theorem setJn_tk (d : Dev) (x : Journal) : (setJn d x).tk = d.tk := by unfold setJn; rfl
@[simp] theorem setJn_sram (d : Dev) (x : Journal) : (setJn d x).sram = d.sram := by unfold setJn; rfl
@[simp] theorem setJn_poison (d : Dev) (x : Journal) : (setJn d x).poison = d.poison := by unfold setJn; rfl
@[simp] theorem setJn_mram (d : Dev) (x : Journal) : (setJn d x).mram = d.mram := by unfold setJn; rfl
@[simp] theorem setJn_nv (d : Dev) (x : Journal) : (setJn d x).nv = d.nv := by unfold setJn; rfl
@[simp] theorem setJn_nvAt (d : Dev) (x : Journal) : (setJn d x).nvAt = d.nvAt := by unfold setJn; rfl
@[simp] theorem setJn_ring (d : Dev) (x : Journal) : (setJn d x).ring = d.ring := by unfold setJn; rfl
@[simp] theorem setJn_dir (d : Dev) (x : Journal) : (setJn d x).dir = d.dir := by unfold setJn; rfl
@[simp] theorem setJn_oh (d : Dev) (x : Journal) : (setJn d x).oh = d.oh := by unfold setJn; rfl
@[simp] theorem setJn_free (d : Dev) (x : Journal) : (setJn d x).free = d.free := by unfold setJn; rfl

/-! ### setPow -/

@[simp] theorem setPow_regs (d : Dev) (x : Power) : (setPow d x).regs = d.regs := by unfold setPow; rfl
@[simp] theorem setPow_sig (d : Dev) (x : Power) : (setPow d x).sig = d.sig := by unfold setPow; rfl
@[simp] theorem setPow_attr (d : Dev) (x : Power) : (setPow d x).attr = d.attr := by unfold setPow; rfl
@[simp] theorem setPow_stage1 (d : Dev) (x : Power) : (setPow d x).stage1 = d.stage1 := by unfold setPow; rfl
@[simp] theorem setPow_stage2 (d : Dev) (x : Power) : (setPow d x).stage2 = d.stage2 := by unfold setPow; rfl
@[simp] theorem setPow_hostq (d : Dev) (x : Power) : (setPow d x).hostq = d.hostq := by unfold setPow; rfl
@[simp] theorem setPow_crossing (d : Dev) (x : Power) : (setPow d x).crossing = d.crossing := by unfold setPow; rfl
@[simp] theorem setPow_cfgq (d : Dev) (x : Power) : (setPow d x).cfgq = d.cfgq := by unfold setPow; rfl
@[simp] theorem setPow_evr (d : Dev) (x : Power) : (setPow d x).evr = d.evr := by unfold setPow; rfl
@[simp] theorem setPow_db (d : Dev) (x : Power) : (setPow d x).db = d.db := by unfold setPow; rfl
@[simp] theorem setPow_tr (d : Dev) (x : Power) : (setPow d x).tr = d.tr := by unfold setPow; rfl
@[simp] theorem setPow_health (d : Dev) (x : Power) : (setPow d x).health = d.health := by unfold setPow; rfl
@[simp] theorem setPow_wear (d : Dev) (x : Power) : (setPow d x).wear = d.wear := by unfold setPow; rfl
@[simp] theorem setPow_idBusy (d : Dev) (x : Power) : (setPow d x).idBusy = d.idBusy := by unfold setPow; rfl
@[simp] theorem setPow_tt (d : Dev) (x : Power) : (setPow d x).tt = d.tt := by unfold setPow; rfl
@[simp] theorem setPow_ttFrac (d : Dev) (x : Power) : (setPow d x).ttFrac = d.ttFrac := by unfold setPow; rfl
@[simp] theorem setPow_lanes (d : Dev) (x : Power) : (setPow d x).lanes = d.lanes := by unfold setPow; rfl
@[simp] theorem setPow_axes (d : Dev) (x : Power) : (setPow d x).axes = d.axes := by unfold setPow; rfl
@[simp] theorem setPow_stps (d : Dev) (x : Power) : (setPow d x).stps = d.stps := by unfold setPow; rfl
@[simp] theorem setPow_encs (d : Dev) (x : Power) : (setPow d x).encs = d.encs := by unfold setPow; rfl
@[simp] theorem setPow_quar (d : Dev) (x : Power) : (setPow d x).quar = d.quar := by unfold setPow; rfl
@[simp] theorem setPow_lps (d : Dev) (x : Power) : (setPow d x).lps = d.lps := by unfold setPow; rfl
@[simp] theorem setPow_shared (d : Dev) (x : Power) : (setPow d x).shared = d.shared := by unfold setPow; rfl
@[simp] theorem setPow_trigs (d : Dev) (x : Power) : (setPow d x).trigs = d.trigs := by unfold setPow; rfl
@[simp] theorem setPow_cells (d : Dev) (x : Power) : (setPow d x).cells = d.cells := by unfold setPow; rfl
@[simp] theorem setPow_ctab (d : Dev) (x : Power) : (setPow d x).ctab = d.ctab := by unfold setPow; rfl
@[simp] theorem setPow_cores (d : Dev) (x : Power) : (setPow d x).cores = d.cores := by unfold setPow; rfl
@[simp] theorem setPow_aos (d : Dev) (x : Power) : (setPow d x).aos = d.aos := by unfold setPow; rfl
@[simp] theorem setPow_dios (d : Dev) (x : Power) : (setPow d x).dios = d.dios := by unfold setPow; rfl
@[simp] theorem setPow_role (d : Dev) (x : Power) : (setPow d x).role = d.role := by unfold setPow; rfl
@[simp] theorem setPow_sf (d : Dev) (x : Power) : (setPow d x).sf = d.sf := by unfold setPow; rfl
@[simp] theorem setPow_pls (d : Dev) (x : Power) : (setPow d x).pls = d.pls := by unfold setPow; rfl
@[simp] theorem setPow_tw (d : Dev) (x : Power) : (setPow d x).tw = d.tw := by unfold setPow; rfl
@[simp] theorem setPow_cxs (d : Dev) (x : Power) : (setPow d x).cxs = d.cxs := by unfold setPow; rfl
@[simp] theorem setPow_tb (d : Dev) (x : Power) : (setPow d x).tb = d.tb := by unfold setPow; rfl
@[simp] theorem setPow_eths (d : Dev) (x : Power) : (setPow d x).eths = d.eths := by unfold setPow; rfl
@[simp] theorem setPow_tl (d : Dev) (x : Power) : (setPow d x).tl = d.tl := by unfold setPow; rfl
@[simp] theorem setPow_tk (d : Dev) (x : Power) : (setPow d x).tk = d.tk := by unfold setPow; rfl
@[simp] theorem setPow_sram (d : Dev) (x : Power) : (setPow d x).sram = d.sram := by unfold setPow; rfl
@[simp] theorem setPow_poison (d : Dev) (x : Power) : (setPow d x).poison = d.poison := by unfold setPow; rfl
@[simp] theorem setPow_mram (d : Dev) (x : Power) : (setPow d x).mram = d.mram := by unfold setPow; rfl
@[simp] theorem setPow_nv (d : Dev) (x : Power) : (setPow d x).nv = d.nv := by unfold setPow; rfl
@[simp] theorem setPow_nvAt (d : Dev) (x : Power) : (setPow d x).nvAt = d.nvAt := by unfold setPow; rfl
@[simp] theorem setPow_ring (d : Dev) (x : Power) : (setPow d x).ring = d.ring := by unfold setPow; rfl
@[simp] theorem setPow_dir (d : Dev) (x : Power) : (setPow d x).dir = d.dir := by unfold setPow; rfl
@[simp] theorem setPow_jn (d : Dev) (x : Power) : (setPow d x).jn = d.jn := by unfold setPow; rfl
@[simp] theorem setPow_oh (d : Dev) (x : Power) : (setPow d x).oh = d.oh := by unfold setPow; rfl
@[simp] theorem setPow_free (d : Dev) (x : Power) : (setPow d x).free = d.free := by unfold setPow; rfl

/-! ### setTk -/

@[simp] theorem setTk_regs (d : Dev) (x : Tink) : (setTk d x).regs = d.regs := by unfold setTk; rfl
@[simp] theorem setTk_sig (d : Dev) (x : Tink) : (setTk d x).sig = d.sig := by unfold setTk; rfl
@[simp] theorem setTk_attr (d : Dev) (x : Tink) : (setTk d x).attr = d.attr := by unfold setTk; rfl
@[simp] theorem setTk_stage1 (d : Dev) (x : Tink) : (setTk d x).stage1 = d.stage1 := by unfold setTk; rfl
@[simp] theorem setTk_stage2 (d : Dev) (x : Tink) : (setTk d x).stage2 = d.stage2 := by unfold setTk; rfl
@[simp] theorem setTk_hostq (d : Dev) (x : Tink) : (setTk d x).hostq = d.hostq := by unfold setTk; rfl
@[simp] theorem setTk_crossing (d : Dev) (x : Tink) : (setTk d x).crossing = d.crossing := by unfold setTk; rfl
@[simp] theorem setTk_cfgq (d : Dev) (x : Tink) : (setTk d x).cfgq = d.cfgq := by unfold setTk; rfl
@[simp] theorem setTk_evr (d : Dev) (x : Tink) : (setTk d x).evr = d.evr := by unfold setTk; rfl
@[simp] theorem setTk_db (d : Dev) (x : Tink) : (setTk d x).db = d.db := by unfold setTk; rfl
@[simp] theorem setTk_tr (d : Dev) (x : Tink) : (setTk d x).tr = d.tr := by unfold setTk; rfl
@[simp] theorem setTk_power (d : Dev) (x : Tink) : (setTk d x).power = d.power := by unfold setTk; rfl
@[simp] theorem setTk_health (d : Dev) (x : Tink) : (setTk d x).health = d.health := by unfold setTk; rfl
@[simp] theorem setTk_wear (d : Dev) (x : Tink) : (setTk d x).wear = d.wear := by unfold setTk; rfl
@[simp] theorem setTk_idBusy (d : Dev) (x : Tink) : (setTk d x).idBusy = d.idBusy := by unfold setTk; rfl
@[simp] theorem setTk_tt (d : Dev) (x : Tink) : (setTk d x).tt = d.tt := by unfold setTk; rfl
@[simp] theorem setTk_ttFrac (d : Dev) (x : Tink) : (setTk d x).ttFrac = d.ttFrac := by unfold setTk; rfl
@[simp] theorem setTk_lanes (d : Dev) (x : Tink) : (setTk d x).lanes = d.lanes := by unfold setTk; rfl
@[simp] theorem setTk_axes (d : Dev) (x : Tink) : (setTk d x).axes = d.axes := by unfold setTk; rfl
@[simp] theorem setTk_stps (d : Dev) (x : Tink) : (setTk d x).stps = d.stps := by unfold setTk; rfl
@[simp] theorem setTk_encs (d : Dev) (x : Tink) : (setTk d x).encs = d.encs := by unfold setTk; rfl
@[simp] theorem setTk_quar (d : Dev) (x : Tink) : (setTk d x).quar = d.quar := by unfold setTk; rfl
@[simp] theorem setTk_lps (d : Dev) (x : Tink) : (setTk d x).lps = d.lps := by unfold setTk; rfl
@[simp] theorem setTk_shared (d : Dev) (x : Tink) : (setTk d x).shared = d.shared := by unfold setTk; rfl
@[simp] theorem setTk_trigs (d : Dev) (x : Tink) : (setTk d x).trigs = d.trigs := by unfold setTk; rfl
@[simp] theorem setTk_cells (d : Dev) (x : Tink) : (setTk d x).cells = d.cells := by unfold setTk; rfl
@[simp] theorem setTk_ctab (d : Dev) (x : Tink) : (setTk d x).ctab = d.ctab := by unfold setTk; rfl
@[simp] theorem setTk_cores (d : Dev) (x : Tink) : (setTk d x).cores = d.cores := by unfold setTk; rfl
@[simp] theorem setTk_aos (d : Dev) (x : Tink) : (setTk d x).aos = d.aos := by unfold setTk; rfl
@[simp] theorem setTk_dios (d : Dev) (x : Tink) : (setTk d x).dios = d.dios := by unfold setTk; rfl
@[simp] theorem setTk_role (d : Dev) (x : Tink) : (setTk d x).role = d.role := by unfold setTk; rfl
@[simp] theorem setTk_sf (d : Dev) (x : Tink) : (setTk d x).sf = d.sf := by unfold setTk; rfl
@[simp] theorem setTk_pls (d : Dev) (x : Tink) : (setTk d x).pls = d.pls := by unfold setTk; rfl
@[simp] theorem setTk_tw (d : Dev) (x : Tink) : (setTk d x).tw = d.tw := by unfold setTk; rfl
@[simp] theorem setTk_cxs (d : Dev) (x : Tink) : (setTk d x).cxs = d.cxs := by unfold setTk; rfl
@[simp] theorem setTk_tb (d : Dev) (x : Tink) : (setTk d x).tb = d.tb := by unfold setTk; rfl
@[simp] theorem setTk_eths (d : Dev) (x : Tink) : (setTk d x).eths = d.eths := by unfold setTk; rfl
@[simp] theorem setTk_tl (d : Dev) (x : Tink) : (setTk d x).tl = d.tl := by unfold setTk; rfl
@[simp] theorem setTk_sram (d : Dev) (x : Tink) : (setTk d x).sram = d.sram := by unfold setTk; rfl
@[simp] theorem setTk_poison (d : Dev) (x : Tink) : (setTk d x).poison = d.poison := by unfold setTk; rfl
@[simp] theorem setTk_mram (d : Dev) (x : Tink) : (setTk d x).mram = d.mram := by unfold setTk; rfl
@[simp] theorem setTk_nv (d : Dev) (x : Tink) : (setTk d x).nv = d.nv := by unfold setTk; rfl
@[simp] theorem setTk_nvAt (d : Dev) (x : Tink) : (setTk d x).nvAt = d.nvAt := by unfold setTk; rfl
@[simp] theorem setTk_ring (d : Dev) (x : Tink) : (setTk d x).ring = d.ring := by unfold setTk; rfl
@[simp] theorem setTk_dir (d : Dev) (x : Tink) : (setTk d x).dir = d.dir := by unfold setTk; rfl
@[simp] theorem setTk_jn (d : Dev) (x : Tink) : (setTk d x).jn = d.jn := by unfold setTk; rfl
@[simp] theorem setTk_oh (d : Dev) (x : Tink) : (setTk d x).oh = d.oh := by unfold setTk; rfl
@[simp] theorem setTk_free (d : Dev) (x : Tink) : (setTk d x).free = d.free := by unfold setTk; rfl

end Sys2Proof.Machine
end

