-- ==== Sys2Proof/Laws/Tab.lean ====
section
/-! SUPPORT. The laws of the sparse table: what a key reads as after a write, and that a write keeps the canonical form. -/

namespace Sys2Proof.Machine

variable {α : Type}

theorem tfind_tput (t : Tab α) (n m : Nat) (v : α) : tfind (tput t n v) m = if m = n then some v else tfind t m := by
  induction t with
  | nil => simp [tput, tfind]
  | cons e t ih =>
    obtain ⟨k, w⟩ := e
    unfold tput
    split
    · next h => subst h; by_cases hm : m = n <;> simp [tfind, hm]
    · split
      · by_cases hm : m = n <;> simp [tfind, hm]
      · next h _ =>
        by_cases hk : m = k
        · subst hk; simp [tfind, Ne.symm h]
        · simp [tfind, hk, ih]

theorem tfind_filter_ne (t : Tab α) (n m : Nat) : tfind (t.filter (fun p => p.1 != n)) m = if m = n then none else tfind t m := by
  induction t with
  | nil => simp [tfind]
  | cons e t ih =>
    obtain ⟨k, w⟩ := e
    by_cases hk : k = n
    · subst hk
      simp only [List.filter_cons, bne_self_eq_false, Bool.false_eq_true, if_false, ih]
      by_cases hm : m = k <;> simp [tfind, hm]
    · have : (k != n) = true := by simpa using hk
      simp only [List.filter_cons, this, if_true, tfind, ih]
      by_cases hm : m = k
      · subst hm; simp [hk]
      · simp [hm]

/-- A key reads as what was last written to it, any other key as before. -/
theorem tget_tset [DecidableEq α] (dflt e : α) (t : Tab α) (n m : Nat) (v : α) :
    tget e (tset dflt t n v) m = if m = n then (if v = dflt then e else v) else tget e t m := by
  unfold tget tset
  split
  · rw [tfind_filter_ne]; split <;> simp
  · rw [tfind_tput]; split <;> simp

@[simp] theorem tget_tset_same [DecidableEq α] (dflt : α) (t : Tab α) (n : Nat) (v : α) : tget dflt (tset dflt t n v) n = v := by
  rw [tget_tset]; split <;> simp_all

theorem tget_tset_ne [DecidableEq α] (dflt e : α) (t : Tab α) {n m : Nat} (v : α) (h : m ≠ n) :
    tget e (tset dflt t n v) m = tget e t m := by rw [tget_tset, if_neg h]

/-! ### The canonical form -/

theorem tput_tput (t : Tab α) (n : Nat) (v w : α) : tput (tput t n v) n w = tput t n w := by
  induction t with
  | nil => simp [tput]
  | cons e t ih =>
    obtain ⟨k, u⟩ := e
    by_cases h : n = k
    · subst h; simp [tput]
    · by_cases h' : n < k
      · simp [tput, h, h']
      · simp [tput, h, h', ih]
theorem filter_tput (t : Tab α) (n : Nat) (v : α) : (tput t n v).filter (fun p => p.1 != n) = t.filter (fun p => p.1 != n) := by
  induction t with
  | nil => simp [tput]
  | cons e t ih =>
    obtain ⟨k, u⟩ := e
    by_cases h : n = k
    · subst h; simp [tput]
    · by_cases h' : n < k
      · simp [tput, h, h']
      · simp only [tput, if_neg h, if_neg h', List.filter_cons, ih]
/-- A write over one that left the default is the later one's. -/
theorem tset_tset [DecidableEq α] (dflt : α) (t : Tab α) (n : Nat) (v w : α) (h : v ≠ dflt) : tset dflt (tset dflt t n v) n w = tset dflt t n w := by
  unfold tset
  rw [if_neg h, filter_tput, tput_tput]
theorem twfFrom_mono [DecidableEq α] (dflt : Nat → α) {lo hi : Nat} (t : Tab α) (h : lo ≤ hi) (w : twfFrom dflt hi t = true) :
    twfFrom dflt lo t = true := by
  cases t with
  | nil => rfl
  | cons e t => obtain ⟨k, v⟩ := e; simp [twfFrom] at w ⊢; exact ⟨⟨by omega, w.1.2⟩, w.2⟩

theorem twfFrom_tput [DecidableEq α] (dflt : Nat → α) (t : Tab α) (n : Nat) (v : α) (hv : v ≠ dflt n) :
    ∀ lo, lo ≤ n → twfFrom dflt lo t = true → twfFrom dflt lo (tput t n v) = true := by
  induction t with
  | nil => intro lo h _; simp [tput, twfFrom, hv, h]
  | cons e t ih =>
    obtain ⟨k, w⟩ := e
    intro lo h wf
    simp only [twfFrom, Bool.and_eq_true, decide_eq_true_eq] at wf
    unfold tput
    split
    · next hk => subst hk; simp [twfFrom, hv, h, wf.2]
    · split
      · next hk hl =>
        simp only [twfFrom, Bool.and_eq_true, decide_eq_true_eq]
        exact ⟨⟨h, hv⟩, ⟨by omega, wf.1.2⟩, wf.2⟩
      · simp only [twfFrom, Bool.and_eq_true, decide_eq_true_eq]
        exact ⟨wf.1, ih (k + 1) (by omega) wf.2⟩

theorem twfFrom_filter [DecidableEq α] (dflt : Nat → α) (f : Nat × α → Bool) (t : Tab α) :
    ∀ lo, twfFrom dflt lo t = true → twfFrom dflt lo (t.filter f) = true := by
  induction t with
  | nil => intro lo _; rfl
  | cons e t ih =>
    obtain ⟨k, w⟩ := e
    intro lo wf
    simp only [twfFrom, Bool.and_eq_true, decide_eq_true_eq] at wf
    rw [List.filter_cons]
    split
    · simp only [twfFrom, Bool.and_eq_true, decide_eq_true_eq]; exact ⟨wf.1, ih _ wf.2⟩
    · exact ih lo (twfFrom_mono dflt t (by omega) wf.2)

/-- A write keeps the canonical form. -/
theorem twf_tset [DecidableEq α] (dflt : Nat → α) (t : Tab α) (n : Nat) (v : α) (h : twf dflt t = true) :
    twf dflt (tset (dflt n) t n v) = true := by
  unfold tset
  split
  · exact twfFrom_filter dflt _ t 0 h
  · next hv => exact twfFrom_tput dflt t n v hv 0 (Nat.zero_le _) h

theorem tfind_filter (f : Nat → Bool) (t : Tab α) (m : Nat) :
    tfind (t.filter (fun p => f p.1)) m = if f m then tfind t m else none := by
  induction t with
  | nil => simp [tfind]
  | cons e t ih =>
    obtain ⟨k, w⟩ := e
    by_cases hk : f k = true
    · simp only [List.filter_cons, hk, if_true, tfind, ih]
      by_cases hm : m = k
      · subst hm; simp [hk]
      · simp [hm]
    · simp only [List.filter_cons, hk, Bool.false_eq_true, if_false, ih, tfind]
      by_cases hm : m = k
      · subst hm; simp [hk]
      · simp [hm]

/-- A cleared range reads as its default, the rest as before. -/
theorem tget_tclear (dflt : α) (t : Tab α) (lo hi m : Nat) :
    tget dflt (tclear lo hi t) m = if lo ≤ m ∧ m < hi then dflt else tget dflt t m := by
  unfold tget tclear
  rw [tfind_filter (fun k => decide (k < lo) || decide (hi ≤ k))]
  by_cases h : lo ≤ m ∧ m < hi
  · rw [if_neg (by simp; omega), if_pos h]; rfl
  · rw [if_pos (by simp; omega), if_neg h]

/-- Clearing a range keeps the canonical form. -/
theorem twf_tclear [DecidableEq α] (dflt : Nat → α) (t : Tab α) (lo hi : Nat) (h : twf dflt t = true) :
    twf dflt (tclear lo hi t) = true := twfFrom_filter dflt _ t 0 h

/-- In a canonical table, equal readings are equal data. -/
theorem twfFrom_none [DecidableEq α] (dflt : Nat → α) (t : Tab α) : ∀ lo n, twfFrom dflt lo t = true → n < lo → tfind t n = none := by
  induction t with
  | nil => intros; rfl
  | cons e t ih =>
    obtain ⟨k, w⟩ := e
    intro lo n wf hn
    simp only [twfFrom, Bool.and_eq_true, decide_eq_true_eq] at wf
    have : n ≠ k := by omega
    simp only [tfind, this, if_false]
    exact ih _ n wf.2 (by omega)

end Sys2Proof.Machine
end

