-- ==== Sys2Proof/Laws/Ops.lean ====
section
/-! SUPPORT. What the shared operations can do, once: register reads after writes, errors, memories, and the admission of a
command. -/

namespace Sys2Proof.Machine

/-! ### Registers -/

@[simp] theorem rd_wr_same (d : Dev) (a : Nat) (v : W32) : rd (wr d a v) a = v := by simp [rd, wr]

theorem rd_wr (d : Dev) (a b : Nat) (v : W32) : rd (wr d a v) b = if b = a then v else rd d b := by
  by_cases h : b = a
  · subst h; simp
  · simp [rd, wr, h, tget_tset_ne]

theorem rd_wr_ne (d : Dev) {a b : Nat} (v : W32) (h : b ≠ a) : rd (wr d a v) b = rd d b := by rw [rd_wr, if_neg h]
theorem rd_wrN_ne (d : Dev) {a b : Nat} (v : Nat) (h : b ≠ a) : rd (wrN d a v) b = rd d b := rd_wr_ne d _ h
theorem rd_wrFld_ne (d : Dev) {a b : Nat} (hi lo v : Nat) (h : b ≠ a) : rd (wrFld d a hi lo v) b = rd d b := rd_wr_ne d _ h
theorem rd_wrBit_ne (d : Dev) {a b : Nat} (i : Nat) (v : Bool) (h : b ≠ a) : rd (wrBit d a i v) b = rd d b := rd_wr_ne d _ h
theorem rd_bump_ne (d : Dev) {a b : Nat} (h : b ≠ a) : rd (bump d a) b = rd d b := rd_wr_ne d _ h
@[simp] theorem rd_bump_same (d : Dev) (a : Nat) : rd (bump d a) a = rd d a + 1 := by simp [bump]
@[simp] theorem rd_wrN_same (d : Dev) (a v : Nat) : rd (wrN d a v) a = w32 v := by simp [wrN]

theorem rd_wr64_ne (d : Dev) {a b : Nat} (v : Nat) (h : b ≠ a) (h' : b ≠ a + 4) : rd (wr64 d a v) b = rd d b := by
  simp [wr64, rd_wr_ne, h, h']

theorem rd64_wr_ne (d : Dev) {a b : Nat} (v : W32) (h : b ≠ a) (h' : b + 4 ≠ a) : rd64 (wr d a v) b = rd64 d b := by
  simp [rd64, rd_wr_ne, h, h']

theorem rd64_wr64_same (d : Dev) (a v : Nat) : rd64 (wr64 d a v) a = mk64 (lo64 v) (hi64 v) := by
  simp [rd64, wr64, rd_wr]

/-- A register reads from the register table alone. -/
theorem rd_congr {d e : Dev} (h : d.regs = e.regs) (a : Nat) : rd d a = rd e a := by simp [rd, h]

/-! ### Errors -/

theorem rd_err_ne (d : Dev) (p : Page) (c r : Nat) {a : Nat} (h : a ≠ pageBase p + ERR_CODE) (h' : a ≠ pageBase p + ERR_ADDR) :
    rd (err d p c r) a = rd d a := by simp [err, rd_wrN_ne, h, h']

/-- The code that an error leaves: its low half, and the sequence number above. -/
theorem err_code (d : Dev) (p : Page) (c r : Nat) : rdN (err d p c r) (pageBase p + ERR_CODE) % 65536 = c % 65536 := by
  unfold err
  simp only
  unfold rdN
  rw [rd_wrN_ne _ _ (by unfold ERR_CODE ERR_ADDR; omega), rd_wrN_same, w32, BitVec.toNat_ofNat]
  omega

theorem err_addr (d : Dev) (p : Page) (c r : Nat) : rd (err d p c r) (pageBase p + ERR_ADDR) = w32 r := by
  unfold err; simp

/-- The pages that exist. -/
theorem pageOk_lt : ∀ t < 64, pageOk (.lt t) = true := by decide +kernel
theorem pageOk_mt : ∀ m < 8, pageOk (.mt m) = true := by decide +kernel
theorem pageOk_lp : ∀ p < 4, pageOk (.lp p) = true := by decide +kernel

/-- What every step of a fold keeps, the fold keeps. -/
theorem foldl_keep {β γ : Type} (P : Dev → γ) (f : Dev → β → Dev) (l : List β) (h : ∀ x ∈ l, ∀ d, P (f d x) = P d) :
    ∀ d, P (l.foldl f d) = P d := by
  induction l with
  | nil => intro d; rfl
  | cons x t ih =>
    intro d
    rw [List.foldl_cons, ih (fun y hy => h y (List.mem_cons_of_mem _ hy)), h x (List.mem_cons_self ..)]

/-! ### Memories (log entry 3) -/

theorem mrd_mwr (m : Tab W8) (a b : Nat) (v : W8) : mrd (mwr m a v) b = if b = a then v else mrd m b := by
  unfold mrd mwr
  by_cases h : b = a
  · subst h; simp
  · simp [h, tget_tset_ne]

/-- A write of a byte keeps the canonical form. -/
theorem mwr_wf (m : Tab W8) (a : Nat) (v : W8) (h : Memory.wf m) : Memory.wf (mwr m a v) := twf_tset (fun _ => (0 : W8)) m a v h

/-- A write of bytes keeps the canonical form. -/
theorem mput_wf (bs : List W8) : ∀ (m : Tab W8) (a : Nat), Memory.wf m → Memory.wf (mput m a bs) := by
  induction bs with
  | nil => intro m a h; exact h
  | cons b t ih => intro m a h; exact ih _ _ (mwr_wf m a b h)

/-- Outside the bytes written a memory reads as before. -/
theorem mrd_mput_out (bs : List W8) : ∀ (m : Tab W8) (a b : Nat), b < a ∨ a + bs.length ≤ b → mrd (mput m a bs) b = mrd m b := by
  induction bs with
  | nil => intros; rfl
  | cons x t ih =>
    intro m a b h
    simp only [List.length_cons] at h
    have := ih (mwr m a x) (a + 1) b (by omega)
    rw [mput, this, mrd_mwr, if_neg (by omega)]

/-- The bytes written read back. -/
theorem mrd_mput_in (bs : List W8) : ∀ (m : Tab W8) (a i : Nat), i < bs.length → mrd (mput m a bs) (a + i) = bs.getD i 0 := by
  induction bs with
  | nil => intro m a i h; simp at h
  | cons x t ih =>
    intro m a i h
    cases i with
    | zero => rw [mput, mrd_mput_out t _ _ _ (by omega), mrd_mwr]; simp
    | succ i =>
      simp only [List.length_cons] at h
      have := ih (mwr m a x) (a + 1) i (by omega)
      rw [mput, show a + (i + 1) = a + 1 + i by omega, this]; simp

/-- The memories after reset hold their canonical form. -/
theorem reset_memory_wf : Memory.wf State.reset.dev.sram ∧ Memory.wf State.reset.dev.mram ∧ Memory.wf State.reset.dev.ring :=
  ⟨rfl, rfl, rfl⟩

/-! ### Admission of a command (R48, R49, R51, R55) -/

/-- One register write: its page, its offset and its value. -/
theorem hostPage_inj {p q : Page} {o r : Nat} {v w : W32} (h : some (p, o, v) = some (q, r, w)) : p = q ∧ o = r ∧ v = w := by
  simpa using h

/-- An admitted command has its effect on the device at once. -/
theorem admitted_admits (d : Dev) (p : Page) (off : Nat) (v : W32) (f : Dev → Dev) (h : admits d p off = true) :
    admitted d p off v f = f d := by
  simp only [admits, Bool.and_eq_true, Bool.not_eq_true', Bool.or_eq_true] at h
  obtain ⟨⟨⟨⟨h1, h2⟩, h3⟩, h4⟩, h5⟩ := h
  unfold admitted
  simp only
  rw [if_neg (by simp [h1]), if_neg (by simp [h2])]
  rw [if_neg (by rcases h3 with h3 | h3 <;> simp [h3]), if_neg (by simp [h4]), if_neg (by simp [h5])]

theorem errSeq_lt (d : Dev) (p : Page) : errSeq d p < 256 := by
  unfold errSeq fld; exact Nat.mod_lt _ (by norm_num)

/-- A command that makes no error keeps what it wrote. -/
theorem withCommand_ok (d : Dev) (p : Page) (off : Nat) (v : W32) (f : Dev → Dev)
    (h : rd (f (issued d p off v)) (pageBase p + ERR_CODE) = rd d (pageBase p + ERR_CODE)) :
    withCommand d p (pageBase p + off) v f = f (issued d p off v) := by
  unfold withCommand
  have hi : wr d (pageBase p + off) (v &&& wpBits p (pageBase p + off - pageBase p)) = issued d p off v := by
    rw [Nat.add_sub_cancel_left]; rfl
  simp only [hi]
  have he : errSeq (f (issued d p off v)) p = errSeq d p := by simp only [errSeq, h]
  have := errSeq_lt d p
  simp only [he]
  rw [if_neg]
  intro hc
  have := hc.1
  omega

/-- An admitted command that makes no error has its effect on the device as issued. -/
theorem hostCmd_admits (d : Dev) (p : Page) (off : Nat) (v : W32) (f : Dev → Dev) (h : admits d p off = true) (ho : off ≠ ERR_CODE)
    (hf : rd (f (issued d p off v)) (pageBase p + ERR_CODE) = rd (issued d p off v) (pageBase p + ERR_CODE)) :
    hostCmd d p off v f = f (issued d p off v) := by
  unfold hostCmd
  rw [admitted_admits d p off _ _ h]
  refine withCommand_ok _ _ _ _ _ ?_
  rw [hf]
  simp [issued, rd_wr_ne, Ne.symm ho]

/-- A command whose meaning is an effect on the device completes where its operands exist. -/
theorem completes_onDev {c : Instr} {s : State} {post : Dev → Prop} {ok : Bool} {f : Vault → Dev → Dev}
    (he : exec c s = onDev ok f s) (h : ok = true) (hp : post (f s.vault s.dev)) : Completes c s post :=
  ⟨_, by simp [he, onDev, h], hp⟩

/-- The same for a command whose answer a statement writes out. -/
theorem exec_onDev {c : Instr} {s : State} {d : Dev} {ok : Bool} {f : Vault → Dev → Dev}
    (he : exec c s = onDev ok f s) (h : ok = true) (hd : f s.vault s.dev = d) : exec c s = .next { s with dev := d } := by
  simp [he, onDev, h, hd]

/-- An admitted command row completes with its effect on the device as issued. -/
theorem completes_host {c : Instr} {s : State} {post : Dev → Prop} {ok : Bool} {p : Page} {off : Nat} {v : W32} {f : Vault → Dev → Dev}
    (he : exec c s = onDev ok (fun t d => hostCmd d p off v (f t)) s) (hok : ok = true) (h : admits s.dev p off = true) (ho : off ≠ ERR_CODE)
    (hf : rd (f s.vault (issued s.dev p off v)) (pageBase p + ERR_CODE) = rd (issued s.dev p off v) (pageBase p + ERR_CODE))
    (hp : post (f s.vault (issued s.dev p off v))) : Completes c s post :=
  completes_onDev he hok (by rw [hostCmd_admits _ _ _ _ _ h ho hf]; exact hp)

/-- An admitted command row answers its effect on the device as issued. -/
theorem exec_host {c : Instr} {s : State} {d : Dev} {ok : Bool} {p : Page} {off : Nat} {v : W32} {f : Vault → Dev → Dev}
    (he : exec c s = onDev ok (fun t d => hostCmd d p off v (f t)) s) (hok : ok = true) (h : admits s.dev p off = true) (ho : off ≠ ERR_CODE)
    (hf : rd (f s.vault (issued s.dev p off v)) (pageBase p + ERR_CODE) = rd (issued s.dev p off v) (pageBase p + ERR_CODE))
    (hd : f s.vault (issued s.dev p off v) = d) : exec c s = .next { s with dev := d } :=
  exec_onDev he hok (by rw [hostCmd_admits _ _ _ _ _ h ho hf]; exact hd)

/-- An admitted write row answers its effect on the device. -/
theorem exec_admitted {c : Instr} {s : State} {d : Dev} {ok : Bool} {p : Page} {off : Nat} {v : W32} {f : Vault → Dev → Dev}
    (he : exec c s = onDev ok (fun t d => admitted d p off v (f t)) s) (hok : ok = true) (h : admits s.dev p off = true)
    (hd : f s.vault s.dev = d) : exec c s = .next { s with dev := d } :=
  exec_onDev he hok (by rw [admitted_admits _ _ _ _ _ h]; exact hd)

/-- An admitted write row completes with its effect on the device. -/
theorem completes_admitted {c : Instr} {s : State} {post : Dev → Prop} {ok : Bool} {p : Page} {off : Nat} {v : W32} {f : Vault → Dev → Dev}
    (he : exec c s = onDev ok (fun t d => admitted d p off v (f t)) s) (hok : ok = true) (h : admits s.dev p off = true)
    (hp : post (f s.vault s.dev)) : Completes c s post :=
  completes_onDev he hok (by rw [admitted_admits _ _ _ _ _ h]; exact hp)

/-- A bus event while the buses run, and while they do not. -/
theorem exec_bus {c : Instr} {s : State} {f : Dev → Dev} {ok : Bool} {e : Dev} (he : exec c s = onDev ok (fun _ d => onBus f d) s) (hok : ok = true)
    (hc : clocked s.dev = true) (hf : f s.dev = e) : exec c s = .next { s with dev := e } := exec_onDev he hok (by unfold onBus; rw [if_pos hc, hf])
theorem exec_bus_same {c : Instr} {s : State} {f : Dev → Dev} {ok : Bool} (he : exec c s = onDev ok (fun _ d => onBus f d) s) (hok : ok = true)
    (hf : clocked s.dev = true → f s.dev = s.dev) : exec c s = .next s := exec_onDev (d := s.dev) he hok (by
      unfold onBus
      by_cases hc : clocked s.dev = true
      · rw [if_pos hc, hf hc]
      · rw [if_neg hc])
theorem completes_bus {c : Instr} {s : State} {f : Dev → Dev} {ok : Bool} {post : Dev → Prop} (he : exec c s = onDev ok (fun _ d => onBus f d) s) (hok : ok = true)
    (hc : clocked s.dev = true) (hf : post (f s.dev)) : Completes c s post := completes_onDev he hok (by unfold onBus; rw [if_pos hc]; exact hf)

end Sys2Proof.Machine
end

