-- ==== Sys2Proof/Laws/Report.lean ====
section
/-! SUPPORT. What a report can change (R381 to R387, R402, R403): staging and suppression states, the trace's freeze, and their
registers. -/

namespace Sys2Proof.Machine

theorem Recorded.refl (d : Dev) : Recorded d d := ⟨rfl, fun _ _ => rfl⟩

theorem Recorded.trans {d e f : Dev} (h : Recorded d e) (h' : Recorded e f) : Recorded d f := by
  refine ⟨?_, fun a ha => (h'.2 a ha).trans (h.2 a ha)⟩
  rw [h'.1, h.1]

theorem recorded_setDb (d : Dev) (b : Daybook) : Recorded d (setDb d b) := ⟨by unfold setDb; rfl, fun a _ => rd_congr (by simp) a⟩

theorem recorded_tr (d : Dev) (t : Trace) : Recorded d { d with tr := t } := ⟨rfl, fun a _ => rd_congr rfl a⟩

theorem recorded_wr (d : Dev) (a : Nat) (v : W32) (h : reportReg a = true) : Recorded d (wr d a v) := by
  refine ⟨by unfold wr; rfl, fun b hb => ?_⟩
  have : b ≠ a := by rintro rfl; simp [h] at hb
  exact rd_wr_ne d v this

theorem recorded_wr64 (d : Dev) (a v : Nat) (h : reportReg a = true) (h' : reportReg (a + 4) = true) : Recorded d (wr64 d a v) :=
  (recorded_wr d a _ h).trans (recorded_wr _ _ _ h')

/-- A fold of changes that reports may make is one. -/
theorem recorded_foldl {β : Type} (f : Dev → β → Dev) (h : ∀ d x, Recorded d (f d x)) (l : List β) : ∀ d, Recorded d (l.foldl f d) := by
  induction l with
  | nil => intro d; exact Recorded.refl d
  | cons x t ih => intro d; exact (h d x).trans (ih _)

theorem recorded_suppress (d : Dev) (src opt sev : Nat) (full : Bool) : Recorded d (suppress d src opt sev full) := by
  unfold suppress bump
  exact (recorded_setDb _ _).trans (recorded_wr _ _ _ (by decide))

theorem recorded_enqueue (d : Dev) (b : DbBody) : Recorded d (enqueue d b) := by
  unfold enqueue
  split
  · exact recorded_setDb _ _
  · split
    · exact (recorded_setDb _ _).trans (recorded_suppress _ _ _ _ _)
    · exact recorded_suppress _ _ _ _ _

theorem recorded_takeToken (d : Dev) (src : Nat) : Recorded d (takeToken d src) := recorded_setDb _ _

theorem recorded_stageReport (d : Dev) (b : DbBody) : Recorded d (stageReport d b) := by
  unfold stageReport
  split
  · exact recorded_enqueue _ _
  · split
    · exact (recorded_takeToken _ _).trans (recorded_enqueue _ _)
    · exact recorded_suppress _ _ _ _ _

theorem recorded_submit (d : Dev) (b : DbBody) : Recorded d (submit d b) := by
  unfold submit
  split
  · exact recorded_stageReport _ _
  · split
    · exact recorded_setDb _ _
    · exact recorded_suppress _ _ _ _ _

theorem recorded_stageSummary (d : Dev) (src : Nat) : Recorded d (stageSummary d src) := by
  unfold stageSummary
  simp only
  split
  · refine Recorded.trans ?_ (recorded_enqueue _ _)
    refine Recorded.trans ?_ (recorded_setDb _ _)
    split
    · exact Recorded.refl d
    · exact recorded_takeToken _ _
  · exact Recorded.refl d

theorem recorded_stageSummaries (d : Dev) : Recorded d (stageSummaries d) := by
  unfold stageSummaries
  split
  · exact recorded_foldl _ recorded_stageSummary _ d
  · exact Recorded.refl d

theorem recorded_trBeginFreeze (d : Dev) (c s p q : Nat) : Recorded d (trBeginFreeze d c s p q) := by
  unfold trBeginFreeze wrN
  simp only
  refine Recorded.trans ?_ (recorded_tr _ _)
  refine Recorded.trans ?_ (recorded_wr64 _ TR_FRZ_START _ (by decide) (by decide))
  exact (recorded_wr64 d TR_FRZ_BP _ (by decide) (by decide)).trans (recorded_wr _ TR_FRZ_INFO _ (by decide))

theorem recorded_trTrigger (d : Dev) (c s : Nat) : Recorded d (trTrigger d c s) := by
  unfold trTrigger bump
  split
  · simp only
    refine (recorded_wr d TR_TRIG_CNT (rd d TR_TRIG_CNT + 1) (by decide)).trans ?_
    split
    · exact recorded_trBeginFreeze _ _ _ _ _
    · exact Recorded.refl _
  · exact Recorded.refl d

theorem recorded_reportTrigger (d : Dev) (typ src : Nat) (pay : List W32) : Recorded d (reportTrigger d typ src pay) := by
  unfold reportTrigger
  split
  · exact recorded_trTrigger _ _ _
  · exact Recorded.refl d

theorem recorded_reportSev (d : Dev) (typ sev src : Nat) (pay : List W32) : Recorded d (reportSev d typ sev src pay) := by
  unfold reportSev
  simp only
  refine Recorded.trans ?_ (recorded_foldl _ (fun _ _ => recorded_submit _ _) _ _)
  exact ((recorded_stageSummaries d).trans (recorded_reportTrigger _ _ _ _)).trans (recorded_submit _ _)

/-- A report changes what reports may change, and nothing else. -/
theorem recorded_report (d : Dev) (typ src : Nat) (pay : List W32) : Recorded d (report d typ src pay) := recorded_reportSev _ _ _ _ _

theorem recorded_fieldFault (d : Dev) (p : Page) (c a x : Nat) : Recorded d (fieldFault d p c a x) := recorded_report _ _ _ _
theorem recorded_fieldFaultAt (d : Dev) (s : Nat) (p : Page) (c a x : Nat) : Recorded d (fieldFaultAt d s p c a x) := recorded_report _ _ _ _
theorem recorded_tileQuar (d : Dev) (p : Page) (c a : Nat) : Recorded d (tileQuar d p c a) := recorded_report _ _ _ _
theorem recorded_busEvent (d : Dev) (p : Page) (s e c : Nat) : Recorded d (busEvent d p s e c) := recorded_report _ _ _ _

/-- What a report keeps, field by field. -/
theorem Recorded.keeps {d e : Dev} (h : Recorded d e) :
    e.sig = d.sig ∧ e.attr = d.attr ∧ e.lanes = d.lanes ∧ e.axes = d.axes ∧ e.lps = d.lps ∧ e.cells = d.cells ∧ e.cores = d.cores
      ∧ e.aos = d.aos ∧ e.dios = d.dios ∧ e.sf = d.sf ∧ e.pls = d.pls ∧ e.tw = d.tw ∧ e.cxs = d.cxs ∧ e.tb = d.tb ∧ e.eths = d.eths
      ∧ e.tl = d.tl ∧ e.tk = d.tk ∧ e.sram = d.sram ∧ e.mram = d.mram ∧ e.power = d.power ∧ e.jn = d.jn ∧ e.role = d.role
      ∧ e.evr = d.evr ∧ e.quar = d.quar ∧ e.stps = d.stps ∧ e.encs = d.encs ∧ e.health = d.health ∧ e.wear = d.wear ∧ e.oh = d.oh := by
  rw [h.1]; exact ⟨rfl, rfl, rfl, rfl, rfl, rfl, rfl, rfl, rfl, rfl, rfl, rfl, rfl, rfl, rfl, rfl, rfl, rfl, rfl, rfl, rfl, rfl, rfl, rfl, rfl,
    rfl, rfl, rfl, rfl⟩

end Sys2Proof.Machine
end

