-- ==== Sys2Proof/Laws/Issued.lean ====
section
/-! SUPPORT. The device as a command finds it and the records of blocks: what reads after a write of a register, a
change of a record. -/

namespace Sys2Proof.Machine

/-! ### issued -/

@[simp] theorem issued_sig (d : Dev) (p : Page) (r : Nat) (v : W32) : (issued d p r v).sig = d.sig := by unfold issued; simp
@[simp] theorem issued_attr (d : Dev) (p : Page) (r : Nat) (v : W32) : (issued d p r v).attr = d.attr := by unfold issued; simp
@[simp] theorem issued_stage1 (d : Dev) (p : Page) (r : Nat) (v : W32) : (issued d p r v).stage1 = d.stage1 := by unfold issued; simp
@[simp] theorem issued_stage2 (d : Dev) (p : Page) (r : Nat) (v : W32) : (issued d p r v).stage2 = d.stage2 := by unfold issued; simp
@[simp] theorem issued_hostq (d : Dev) (p : Page) (r : Nat) (v : W32) : (issued d p r v).hostq = d.hostq := by unfold issued; simp
@[simp] theorem issued_crossing (d : Dev) (p : Page) (r : Nat) (v : W32) : (issued d p r v).crossing = d.crossing := by unfold issued; simp
@[simp] theorem issued_cfgq (d : Dev) (p : Page) (r : Nat) (v : W32) : (issued d p r v).cfgq = d.cfgq := by unfold issued; simp
@[simp] theorem issued_evr (d : Dev) (p : Page) (r : Nat) (v : W32) : (issued d p r v).evr = d.evr := by unfold issued; simp
@[simp] theorem issued_db (d : Dev) (p : Page) (r : Nat) (v : W32) : (issued d p r v).db = d.db := by unfold issued; simp
@[simp] theorem issued_tr (d : Dev) (p : Page) (r : Nat) (v : W32) : (issued d p r v).tr = d.tr := by unfold issued; simp
@[simp] theorem issued_power (d : Dev) (p : Page) (r : Nat) (v : W32) : (issued d p r v).power = d.power := by unfold issued; simp
@[simp] theorem issued_health (d : Dev) (p : Page) (r : Nat) (v : W32) : (issued d p r v).health = d.health := by unfold issued; simp
@[simp] theorem issued_wear (d : Dev) (p : Page) (r : Nat) (v : W32) : (issued d p r v).wear = d.wear := by unfold issued; simp
@[simp] theorem issued_idBusy (d : Dev) (p : Page) (r : Nat) (v : W32) : (issued d p r v).idBusy = d.idBusy := by unfold issued; simp
@[simp] theorem issued_tt (d : Dev) (p : Page) (r : Nat) (v : W32) : (issued d p r v).tt = d.tt := by unfold issued; simp
@[simp] theorem issued_ttFrac (d : Dev) (p : Page) (r : Nat) (v : W32) : (issued d p r v).ttFrac = d.ttFrac := by unfold issued; simp
@[simp] theorem issued_lanes (d : Dev) (p : Page) (r : Nat) (v : W32) : (issued d p r v).lanes = d.lanes := by unfold issued; simp
@[simp] theorem issued_axes (d : Dev) (p : Page) (r : Nat) (v : W32) : (issued d p r v).axes = d.axes := by unfold issued; simp
@[simp] theorem issued_stps (d : Dev) (p : Page) (r : Nat) (v : W32) : (issued d p r v).stps = d.stps := by unfold issued; simp
@[simp] theorem issued_encs (d : Dev) (p : Page) (r : Nat) (v : W32) : (issued d p r v).encs = d.encs := by unfold issued; simp
@[simp] theorem issued_quar (d : Dev) (p : Page) (r : Nat) (v : W32) : (issued d p r v).quar = d.quar := by unfold issued; simp
@[simp] theorem issued_lps (d : Dev) (p : Page) (r : Nat) (v : W32) : (issued d p r v).lps = d.lps := by unfold issued; simp
@[simp] theorem issued_shared (d : Dev) (p : Page) (r : Nat) (v : W32) : (issued d p r v).shared = d.shared := by unfold issued; simp
@[simp] theorem issued_trigs (d : Dev) (p : Page) (r : Nat) (v : W32) : (issued d p r v).trigs = d.trigs := by unfold issued; simp
@[simp] theorem issued_cells (d : Dev) (p : Page) (r : Nat) (v : W32) : (issued d p r v).cells = d.cells := by unfold issued; simp
@[simp] theorem issued_ctab (d : Dev) (p : Page) (r : Nat) (v : W32) : (issued d p r v).ctab = d.ctab := by unfold issued; simp
@[simp] theorem issued_cores (d : Dev) (p : Page) (r : Nat) (v : W32) : (issued d p r v).cores = d.cores := by unfold issued; simp
@[simp] theorem issued_aos (d : Dev) (p : Page) (r : Nat) (v : W32) : (issued d p r v).aos = d.aos := by unfold issued; simp
@[simp] theorem issued_dios (d : Dev) (p : Page) (r : Nat) (v : W32) : (issued d p r v).dios = d.dios := by unfold issued; simp
@[simp] theorem issued_role (d : Dev) (p : Page) (r : Nat) (v : W32) : (issued d p r v).role = d.role := by unfold issued; simp
@[simp] theorem issued_sf (d : Dev) (p : Page) (r : Nat) (v : W32) : (issued d p r v).sf = d.sf := by unfold issued; simp
@[simp] theorem issued_pls (d : Dev) (p : Page) (r : Nat) (v : W32) : (issued d p r v).pls = d.pls := by unfold issued; simp
@[simp] theorem issued_cxs (d : Dev) (p : Page) (r : Nat) (v : W32) : (issued d p r v).cxs = d.cxs := by unfold issued; simp
@[simp] theorem issued_tb (d : Dev) (p : Page) (r : Nat) (v : W32) : (issued d p r v).tb = d.tb := by unfold issued; simp
@[simp] theorem issued_eths (d : Dev) (p : Page) (r : Nat) (v : W32) : (issued d p r v).eths = d.eths := by unfold issued; simp
@[simp] theorem issued_tl (d : Dev) (p : Page) (r : Nat) (v : W32) : (issued d p r v).tl = d.tl := by unfold issued; simp
@[simp] theorem issued_tk (d : Dev) (p : Page) (r : Nat) (v : W32) : (issued d p r v).tk = d.tk := by unfold issued; simp
@[simp] theorem issued_sram (d : Dev) (p : Page) (r : Nat) (v : W32) : (issued d p r v).sram = d.sram := by unfold issued; simp
@[simp] theorem issued_poison (d : Dev) (p : Page) (r : Nat) (v : W32) : (issued d p r v).poison = d.poison := by unfold issued; simp
@[simp] theorem issued_mram (d : Dev) (p : Page) (r : Nat) (v : W32) : (issued d p r v).mram = d.mram := by unfold issued; simp
@[simp] theorem issued_nv (d : Dev) (p : Page) (r : Nat) (v : W32) : (issued d p r v).nv = d.nv := by unfold issued; simp
@[simp] theorem issued_nvAt (d : Dev) (p : Page) (r : Nat) (v : W32) : (issued d p r v).nvAt = d.nvAt := by unfold issued; simp
@[simp] theorem issued_ring (d : Dev) (p : Page) (r : Nat) (v : W32) : (issued d p r v).ring = d.ring := by unfold issued; simp
@[simp] theorem issued_dir (d : Dev) (p : Page) (r : Nat) (v : W32) : (issued d p r v).dir = d.dir := by unfold issued; simp
@[simp] theorem issued_jn (d : Dev) (p : Page) (r : Nat) (v : W32) : (issued d p r v).jn = d.jn := by unfold issued; simp
@[simp] theorem issued_oh (d : Dev) (p : Page) (r : Nat) (v : W32) : (issued d p r v).oh = d.oh := by unfold issued; simp
@[simp] theorem issued_free (d : Dev) (p : Page) (r : Nat) (v : W32) : (issued d p r v).free = d.free := by unfold issued; simp

@[simp] theorem issued_tw (d : Dev) (p : Page) (r : Nat) (v : W32) : (issued d p r v).tw = d.tw := by unfold issued; simp

@[simp] theorem rd_issued_same (d : Dev) (p : Page) (r : Nat) (v : W32) : rd (issued d p r v) (pageBase p + r) = v &&& wpBits p r := by
  simp [issued]

theorem rd_issued_ne (d : Dev) (p : Page) (r a : Nat) (v : W32) (h : a ≠ pageBase p + r) : rd (issued d p r v) a = rd d a := by
  unfold issued; rw [rd_wr_ne _ _ h]

/-! ### Records of blocks -/

@[simp] theorem rd_setLane (d : Dev) (k : Nat) (x : Lane) (r : Nat) : rd (setLane d k x) r = rd d r := rd_congr (by simp) r
@[simp] theorem rd_setAx (d : Dev) (k : Nat) (x : Axis) (r : Nat) : rd (setAx d k x) r = rd d r := rd_congr (by simp) r
@[simp] theorem rd_setStp (d : Dev) (k : Nat) (x : Stp) (r : Nat) : rd (setStp d k x) r = rd d r := rd_congr (by simp) r
@[simp] theorem rd_setEnc (d : Dev) (k : Nat) (x : Enc) (r : Nat) : rd (setEnc d k x) r = rd d r := rd_congr (by simp) r
@[simp] theorem rd_setLp (d : Dev) (k : Nat) (x : Lp) (r : Nat) : rd (setLp d k x) r = rd d r := rd_congr (by simp) r
@[simp] theorem rd_setCell (d : Dev) (k : Nat) (x : Cell) (r : Nat) : rd (setCell d k x) r = rd d r := rd_congr (by simp) r
@[simp] theorem rd_setCore (d : Dev) (k : Nat) (x : Core) (r : Nat) : rd (setCore d k x) r = rd d r := rd_congr (by simp) r
@[simp] theorem rd_setAo (d : Dev) (k : Nat) (x : AoCh) (r : Nat) : rd (setAo d k x) r = rd d r := rd_congr (by simp) r
@[simp] theorem rd_setDio (d : Dev) (k : Nat) (x : DioPin) (r : Nat) : rd (setDio d k x) r = rd d r := rd_congr (by simp) r
@[simp] theorem rd_setPl (d : Dev) (k : Nat) (x : Pl) (r : Nat) : rd (setPl d k x) r = rd d r := rd_congr (by simp) r
@[simp] theorem rd_setCx (d : Dev) (k : Nat) (x : Cx) (r : Nat) : rd (setCx d k x) r = rd d r := rd_congr (by simp) r
@[simp] theorem rd_setEth (d : Dev) (k : Nat) (x : Eth) (r : Nat) : rd (setEth d k x) r = rd d r := rd_congr (by simp) r
@[simp] theorem rd_setWear (d : Dev) (k : Nat) (x : Wear) (r : Nat) : rd (setWear d k x) r = rd d r := rd_congr (by simp) r
@[simp] theorem rd_setThr (d : Dev) (k : Nat) (x : Thr) (r : Nat) : rd (setThr d k x) r = rd d r := rd_congr (by simp) r
@[simp] theorem rd_setTc (d : Dev) (k : Nat) (x : TCore) (r : Nat) : rd (setTc d k x) r = rd d r := rd_congr (by simp) r
@[simp] theorem rd_setTb (d : Dev) (x : Tb) (r : Nat) : rd (setTb d x) r = rd d r := rd_congr (by simp) r
@[simp] theorem rd_setSf (d : Dev) (x : Safety) (r : Nat) : rd (setSf d x) r = rd d r := rd_congr (by simp) r
@[simp] theorem rd_setTw (d : Dev) (x : Twin) (r : Nat) : rd (setTw d x) r = rd d r := rd_congr (by simp) r
@[simp] theorem rd_setEvr (d : Dev) (x : Evr) (r : Nat) : rd (setEvr d x) r = rd d r := rd_congr (by simp) r
@[simp] theorem rd_setDb (d : Dev) (x : Daybook) (r : Nat) : rd (setDb d x) r = rd d r := rd_congr (by simp) r
@[simp] theorem rd_setJn (d : Dev) (x : Journal) (r : Nat) : rd (setJn d x) r = rd d r := rd_congr (by simp) r
@[simp] theorem rd_setPow (d : Dev) (x : Power) (r : Nat) : rd (setPow d x) r = rd d r := rd_congr (by simp) r
@[simp] theorem rd_setTk (d : Dev) (x : Tink) (r : Nat) : rd (setTk d x) r = rd d r := rd_congr (by simp) r
@[simp] theorem rd_put1 (d : Dev) (n : Nat) (v : W32) (b : Bool) (r : Nat) : rd (put1 d n v b) r = rd d r := rd_congr (by simp) r
@[simp] theorem rd_put2 (d : Dev) (n : Nat) (v : W32) (b : Bool) (r : Nat) : rd (put2 d n v b) r = rd d r := rd_congr (by simp) r

@[simp] theorem laneOf_wr (d : Dev) (r : Nat) (v : W32) (n : Nat) : laneOf (wr d r v) n = laneOf d n := by simp [laneOf]
@[simp] theorem laneOf_wrN (d : Dev) (r v : Nat) (n : Nat) : laneOf (wrN d r v) n = laneOf d n := by simp [laneOf]
@[simp] theorem laneOf_wr64 (d : Dev) (r v : Nat) (n : Nat) : laneOf (wr64 d r v) n = laneOf d n := by simp [laneOf]
@[simp] theorem laneOf_wrFld (d : Dev) (r hi lo v : Nat) (n : Nat) : laneOf (wrFld d r hi lo v) n = laneOf d n := by simp [laneOf]
@[simp] theorem laneOf_wrBit (d : Dev) (r i : Nat) (b : Bool) (n : Nat) : laneOf (wrBit d r i b) n = laneOf d n := by simp [laneOf]
@[simp] theorem laneOf_bump (d : Dev) (r : Nat) (n : Nat) : laneOf (bump d r) n = laneOf d n := by simp [laneOf]
@[simp] theorem laneOf_err (d : Dev) (p : Page) (c r : Nat) (n : Nat) : laneOf (err d p c r) n = laneOf d n := by simp [laneOf]
@[simp] theorem laneOf_issued (d : Dev) (p : Page) (r : Nat) (v : W32) (n : Nat) : laneOf (issued d p r v) n = laneOf d n := by simp [laneOf]
theorem laneOf_setLane (d : Dev) (k n : Nat) (x : Lane) : laneOf (setLane d k x) n = if n = k then x else laneOf d n := by
  by_cases h : n = k
  · subst h; simp [laneOf, setLane]
  · simp [laneOf, setLane, h, tget_tset_ne]
@[simp] theorem laneOf_setLane_same (d : Dev) (k : Nat) (x : Lane) : laneOf (setLane d k x) k = x := by simp [laneOf_setLane]
theorem laneOf_setLane_ne (d : Dev) {k n : Nat} (x : Lane) (h : n ≠ k) : laneOf (setLane d k x) n = laneOf d n := by simp [laneOf_setLane, h]

@[simp] theorem axOf_wr (d : Dev) (r : Nat) (v : W32) (n : Nat) : axOf (wr d r v) n = axOf d n := by simp [axOf]
@[simp] theorem axOf_wrN (d : Dev) (r v : Nat) (n : Nat) : axOf (wrN d r v) n = axOf d n := by simp [axOf]
@[simp] theorem axOf_wr64 (d : Dev) (r v : Nat) (n : Nat) : axOf (wr64 d r v) n = axOf d n := by simp [axOf]
@[simp] theorem axOf_wrFld (d : Dev) (r hi lo v : Nat) (n : Nat) : axOf (wrFld d r hi lo v) n = axOf d n := by simp [axOf]
@[simp] theorem axOf_wrBit (d : Dev) (r i : Nat) (b : Bool) (n : Nat) : axOf (wrBit d r i b) n = axOf d n := by simp [axOf]
@[simp] theorem axOf_bump (d : Dev) (r : Nat) (n : Nat) : axOf (bump d r) n = axOf d n := by simp [axOf]
@[simp] theorem axOf_err (d : Dev) (p : Page) (c r : Nat) (n : Nat) : axOf (err d p c r) n = axOf d n := by simp [axOf]
@[simp] theorem axOf_issued (d : Dev) (p : Page) (r : Nat) (v : W32) (n : Nat) : axOf (issued d p r v) n = axOf d n := by simp [axOf]
theorem axOf_setAx (d : Dev) (k n : Nat) (x : Axis) : axOf (setAx d k x) n = if n = k then x else axOf d n := by
  by_cases h : n = k
  · subst h; simp [axOf, setAx]
  · simp [axOf, setAx, h, tget_tset_ne]
@[simp] theorem axOf_setAx_same (d : Dev) (k : Nat) (x : Axis) : axOf (setAx d k x) k = x := by simp [axOf_setAx]
theorem axOf_setAx_ne (d : Dev) {k n : Nat} (x : Axis) (h : n ≠ k) : axOf (setAx d k x) n = axOf d n := by simp [axOf_setAx, h]

@[simp] theorem stpOf_wr (d : Dev) (r : Nat) (v : W32) (n : Nat) : stpOf (wr d r v) n = stpOf d n := by simp [stpOf]
@[simp] theorem stpOf_wrN (d : Dev) (r v : Nat) (n : Nat) : stpOf (wrN d r v) n = stpOf d n := by simp [stpOf]
@[simp] theorem stpOf_wr64 (d : Dev) (r v : Nat) (n : Nat) : stpOf (wr64 d r v) n = stpOf d n := by simp [stpOf]
@[simp] theorem stpOf_wrFld (d : Dev) (r hi lo v : Nat) (n : Nat) : stpOf (wrFld d r hi lo v) n = stpOf d n := by simp [stpOf]
@[simp] theorem stpOf_wrBit (d : Dev) (r i : Nat) (b : Bool) (n : Nat) : stpOf (wrBit d r i b) n = stpOf d n := by simp [stpOf]
@[simp] theorem stpOf_bump (d : Dev) (r : Nat) (n : Nat) : stpOf (bump d r) n = stpOf d n := by simp [stpOf]
@[simp] theorem stpOf_err (d : Dev) (p : Page) (c r : Nat) (n : Nat) : stpOf (err d p c r) n = stpOf d n := by simp [stpOf]
@[simp] theorem stpOf_issued (d : Dev) (p : Page) (r : Nat) (v : W32) (n : Nat) : stpOf (issued d p r v) n = stpOf d n := by simp [stpOf]
theorem stpOf_setStp (d : Dev) (k n : Nat) (x : Stp) : stpOf (setStp d k x) n = if n = k then x else stpOf d n := by
  by_cases h : n = k
  · subst h; simp [stpOf, setStp]
  · simp [stpOf, setStp, h, tget_tset_ne]
@[simp] theorem stpOf_setStp_same (d : Dev) (k : Nat) (x : Stp) : stpOf (setStp d k x) k = x := by simp [stpOf_setStp]
theorem stpOf_setStp_ne (d : Dev) {k n : Nat} (x : Stp) (h : n ≠ k) : stpOf (setStp d k x) n = stpOf d n := by simp [stpOf_setStp, h]

@[simp] theorem encOf_wr (d : Dev) (r : Nat) (v : W32) (n : Nat) : encOf (wr d r v) n = encOf d n := by simp [encOf]
@[simp] theorem encOf_wrN (d : Dev) (r v : Nat) (n : Nat) : encOf (wrN d r v) n = encOf d n := by simp [encOf]
@[simp] theorem encOf_wr64 (d : Dev) (r v : Nat) (n : Nat) : encOf (wr64 d r v) n = encOf d n := by simp [encOf]
@[simp] theorem encOf_wrFld (d : Dev) (r hi lo v : Nat) (n : Nat) : encOf (wrFld d r hi lo v) n = encOf d n := by simp [encOf]
@[simp] theorem encOf_wrBit (d : Dev) (r i : Nat) (b : Bool) (n : Nat) : encOf (wrBit d r i b) n = encOf d n := by simp [encOf]
@[simp] theorem encOf_bump (d : Dev) (r : Nat) (n : Nat) : encOf (bump d r) n = encOf d n := by simp [encOf]
@[simp] theorem encOf_err (d : Dev) (p : Page) (c r : Nat) (n : Nat) : encOf (err d p c r) n = encOf d n := by simp [encOf]
@[simp] theorem encOf_issued (d : Dev) (p : Page) (r : Nat) (v : W32) (n : Nat) : encOf (issued d p r v) n = encOf d n := by simp [encOf]
theorem encOf_setEnc (d : Dev) (k n : Nat) (x : Enc) : encOf (setEnc d k x) n = if n = k then x else encOf d n := by
  by_cases h : n = k
  · subst h; simp [encOf, setEnc]
  · simp [encOf, setEnc, h, tget_tset_ne]
@[simp] theorem encOf_setEnc_same (d : Dev) (k : Nat) (x : Enc) : encOf (setEnc d k x) k = x := by simp [encOf_setEnc]
theorem encOf_setEnc_ne (d : Dev) {k n : Nat} (x : Enc) (h : n ≠ k) : encOf (setEnc d k x) n = encOf d n := by simp [encOf_setEnc, h]

@[simp] theorem lpOf_wr (d : Dev) (r : Nat) (v : W32) (n : Nat) : lpOf (wr d r v) n = lpOf d n := by simp [lpOf]
@[simp] theorem lpOf_wrN (d : Dev) (r v : Nat) (n : Nat) : lpOf (wrN d r v) n = lpOf d n := by simp [lpOf]
@[simp] theorem lpOf_wr64 (d : Dev) (r v : Nat) (n : Nat) : lpOf (wr64 d r v) n = lpOf d n := by simp [lpOf]
@[simp] theorem lpOf_wrFld (d : Dev) (r hi lo v : Nat) (n : Nat) : lpOf (wrFld d r hi lo v) n = lpOf d n := by simp [lpOf]
@[simp] theorem lpOf_wrBit (d : Dev) (r i : Nat) (b : Bool) (n : Nat) : lpOf (wrBit d r i b) n = lpOf d n := by simp [lpOf]
@[simp] theorem lpOf_bump (d : Dev) (r : Nat) (n : Nat) : lpOf (bump d r) n = lpOf d n := by simp [lpOf]
@[simp] theorem lpOf_err (d : Dev) (p : Page) (c r : Nat) (n : Nat) : lpOf (err d p c r) n = lpOf d n := by simp [lpOf]
@[simp] theorem lpOf_issued (d : Dev) (p : Page) (r : Nat) (v : W32) (n : Nat) : lpOf (issued d p r v) n = lpOf d n := by simp [lpOf]
theorem lpOf_setLp (d : Dev) (k n : Nat) (x : Lp) : lpOf (setLp d k x) n = if n = k then x else lpOf d n := by
  by_cases h : n = k
  · subst h; simp [lpOf, setLp]
  · simp [lpOf, setLp, h, tget_tset_ne]
@[simp] theorem lpOf_setLp_same (d : Dev) (k : Nat) (x : Lp) : lpOf (setLp d k x) k = x := by simp [lpOf_setLp]
theorem lpOf_setLp_ne (d : Dev) {k n : Nat} (x : Lp) (h : n ≠ k) : lpOf (setLp d k x) n = lpOf d n := by simp [lpOf_setLp, h]

@[simp] theorem cellOf_wr (d : Dev) (r : Nat) (v : W32) (n : Nat) : cellOf (wr d r v) n = cellOf d n := by simp [cellOf]
@[simp] theorem cellOf_wrN (d : Dev) (r v : Nat) (n : Nat) : cellOf (wrN d r v) n = cellOf d n := by simp [cellOf]
@[simp] theorem cellOf_wr64 (d : Dev) (r v : Nat) (n : Nat) : cellOf (wr64 d r v) n = cellOf d n := by simp [cellOf]
@[simp] theorem cellOf_wrFld (d : Dev) (r hi lo v : Nat) (n : Nat) : cellOf (wrFld d r hi lo v) n = cellOf d n := by simp [cellOf]
@[simp] theorem cellOf_wrBit (d : Dev) (r i : Nat) (b : Bool) (n : Nat) : cellOf (wrBit d r i b) n = cellOf d n := by simp [cellOf]
@[simp] theorem cellOf_bump (d : Dev) (r : Nat) (n : Nat) : cellOf (bump d r) n = cellOf d n := by simp [cellOf]
@[simp] theorem cellOf_err (d : Dev) (p : Page) (c r : Nat) (n : Nat) : cellOf (err d p c r) n = cellOf d n := by simp [cellOf]
@[simp] theorem cellOf_issued (d : Dev) (p : Page) (r : Nat) (v : W32) (n : Nat) : cellOf (issued d p r v) n = cellOf d n := by simp [cellOf]
theorem cellOf_setCell (d : Dev) (k n : Nat) (x : Cell) : cellOf (setCell d k x) n = if n = k then x else cellOf d n := by
  by_cases h : n = k
  · subst h; simp [cellOf, setCell]
  · simp [cellOf, setCell, h, tget_tset_ne]
@[simp] theorem cellOf_setCell_same (d : Dev) (k : Nat) (x : Cell) : cellOf (setCell d k x) k = x := by simp [cellOf_setCell]
theorem cellOf_setCell_ne (d : Dev) {k n : Nat} (x : Cell) (h : n ≠ k) : cellOf (setCell d k x) n = cellOf d n := by simp [cellOf_setCell, h]

@[simp] theorem coreOf_wr (d : Dev) (r : Nat) (v : W32) (n : Nat) : coreOf (wr d r v) n = coreOf d n := by simp [coreOf]
@[simp] theorem coreOf_wrN (d : Dev) (r v : Nat) (n : Nat) : coreOf (wrN d r v) n = coreOf d n := by simp [coreOf]
@[simp] theorem coreOf_wr64 (d : Dev) (r v : Nat) (n : Nat) : coreOf (wr64 d r v) n = coreOf d n := by simp [coreOf]
@[simp] theorem coreOf_wrFld (d : Dev) (r hi lo v : Nat) (n : Nat) : coreOf (wrFld d r hi lo v) n = coreOf d n := by simp [coreOf]
@[simp] theorem coreOf_wrBit (d : Dev) (r i : Nat) (b : Bool) (n : Nat) : coreOf (wrBit d r i b) n = coreOf d n := by simp [coreOf]
@[simp] theorem coreOf_bump (d : Dev) (r : Nat) (n : Nat) : coreOf (bump d r) n = coreOf d n := by simp [coreOf]
@[simp] theorem coreOf_err (d : Dev) (p : Page) (c r : Nat) (n : Nat) : coreOf (err d p c r) n = coreOf d n := by simp [coreOf]
@[simp] theorem coreOf_issued (d : Dev) (p : Page) (r : Nat) (v : W32) (n : Nat) : coreOf (issued d p r v) n = coreOf d n := by simp [coreOf]
theorem coreOf_setCore (d : Dev) (k n : Nat) (x : Core) : coreOf (setCore d k x) n = if n = k then x else coreOf d n := by
  by_cases h : n = k
  · subst h; simp [coreOf, setCore]
  · simp [coreOf, setCore, h, tget_tset_ne]
@[simp] theorem coreOf_setCore_same (d : Dev) (k : Nat) (x : Core) : coreOf (setCore d k x) k = x := by simp [coreOf_setCore]
theorem coreOf_setCore_ne (d : Dev) {k n : Nat} (x : Core) (h : n ≠ k) : coreOf (setCore d k x) n = coreOf d n := by simp [coreOf_setCore, h]

@[simp] theorem aoOf_wr (d : Dev) (r : Nat) (v : W32) (n : Nat) : aoOf (wr d r v) n = aoOf d n := by simp [aoOf]
@[simp] theorem aoOf_wrN (d : Dev) (r v : Nat) (n : Nat) : aoOf (wrN d r v) n = aoOf d n := by simp [aoOf]
@[simp] theorem aoOf_wr64 (d : Dev) (r v : Nat) (n : Nat) : aoOf (wr64 d r v) n = aoOf d n := by simp [aoOf]
@[simp] theorem aoOf_wrFld (d : Dev) (r hi lo v : Nat) (n : Nat) : aoOf (wrFld d r hi lo v) n = aoOf d n := by simp [aoOf]
@[simp] theorem aoOf_wrBit (d : Dev) (r i : Nat) (b : Bool) (n : Nat) : aoOf (wrBit d r i b) n = aoOf d n := by simp [aoOf]
@[simp] theorem aoOf_bump (d : Dev) (r : Nat) (n : Nat) : aoOf (bump d r) n = aoOf d n := by simp [aoOf]
@[simp] theorem aoOf_err (d : Dev) (p : Page) (c r : Nat) (n : Nat) : aoOf (err d p c r) n = aoOf d n := by simp [aoOf]
@[simp] theorem aoOf_issued (d : Dev) (p : Page) (r : Nat) (v : W32) (n : Nat) : aoOf (issued d p r v) n = aoOf d n := by simp [aoOf]
theorem aoOf_setAo (d : Dev) (k n : Nat) (x : AoCh) : aoOf (setAo d k x) n = if n = k then x else aoOf d n := by
  by_cases h : n = k
  · subst h; simp [aoOf, setAo]
  · simp [aoOf, setAo, h, tget_tset_ne]
@[simp] theorem aoOf_setAo_same (d : Dev) (k : Nat) (x : AoCh) : aoOf (setAo d k x) k = x := by simp [aoOf_setAo]
theorem aoOf_setAo_ne (d : Dev) {k n : Nat} (x : AoCh) (h : n ≠ k) : aoOf (setAo d k x) n = aoOf d n := by simp [aoOf_setAo, h]

@[simp] theorem dioOf_wr (d : Dev) (r : Nat) (v : W32) (n : Nat) : dioOf (wr d r v) n = dioOf d n := by simp [dioOf]
@[simp] theorem dioOf_wrN (d : Dev) (r v : Nat) (n : Nat) : dioOf (wrN d r v) n = dioOf d n := by simp [dioOf]
@[simp] theorem dioOf_wr64 (d : Dev) (r v : Nat) (n : Nat) : dioOf (wr64 d r v) n = dioOf d n := by simp [dioOf]
@[simp] theorem dioOf_wrFld (d : Dev) (r hi lo v : Nat) (n : Nat) : dioOf (wrFld d r hi lo v) n = dioOf d n := by simp [dioOf]
@[simp] theorem dioOf_wrBit (d : Dev) (r i : Nat) (b : Bool) (n : Nat) : dioOf (wrBit d r i b) n = dioOf d n := by simp [dioOf]
@[simp] theorem dioOf_bump (d : Dev) (r : Nat) (n : Nat) : dioOf (bump d r) n = dioOf d n := by simp [dioOf]
@[simp] theorem dioOf_err (d : Dev) (p : Page) (c r : Nat) (n : Nat) : dioOf (err d p c r) n = dioOf d n := by simp [dioOf]
@[simp] theorem dioOf_issued (d : Dev) (p : Page) (r : Nat) (v : W32) (n : Nat) : dioOf (issued d p r v) n = dioOf d n := by simp [dioOf]
theorem dioOf_setDio (d : Dev) (k n : Nat) (x : DioPin) : dioOf (setDio d k x) n = if n = k then x else dioOf d n := by
  by_cases h : n = k
  · subst h; simp [dioOf, setDio]
  · simp [dioOf, setDio, h, tget_tset_ne]
@[simp] theorem dioOf_setDio_same (d : Dev) (k : Nat) (x : DioPin) : dioOf (setDio d k x) k = x := by simp [dioOf_setDio]
theorem dioOf_setDio_ne (d : Dev) {k n : Nat} (x : DioPin) (h : n ≠ k) : dioOf (setDio d k x) n = dioOf d n := by simp [dioOf_setDio, h]

@[simp] theorem plOf_wr (d : Dev) (r : Nat) (v : W32) (n : Nat) : plOf (wr d r v) n = plOf d n := by simp [plOf]
@[simp] theorem plOf_wrN (d : Dev) (r v : Nat) (n : Nat) : plOf (wrN d r v) n = plOf d n := by simp [plOf]
@[simp] theorem plOf_wr64 (d : Dev) (r v : Nat) (n : Nat) : plOf (wr64 d r v) n = plOf d n := by simp [plOf]
@[simp] theorem plOf_wrFld (d : Dev) (r hi lo v : Nat) (n : Nat) : plOf (wrFld d r hi lo v) n = plOf d n := by simp [plOf]
@[simp] theorem plOf_wrBit (d : Dev) (r i : Nat) (b : Bool) (n : Nat) : plOf (wrBit d r i b) n = plOf d n := by simp [plOf]
@[simp] theorem plOf_bump (d : Dev) (r : Nat) (n : Nat) : plOf (bump d r) n = plOf d n := by simp [plOf]
@[simp] theorem plOf_err (d : Dev) (p : Page) (c r : Nat) (n : Nat) : plOf (err d p c r) n = plOf d n := by simp [plOf]
@[simp] theorem plOf_issued (d : Dev) (p : Page) (r : Nat) (v : W32) (n : Nat) : plOf (issued d p r v) n = plOf d n := by simp [plOf]
theorem plOf_setPl (d : Dev) (k n : Nat) (x : Pl) : plOf (setPl d k x) n = if n = k then x else plOf d n := by
  by_cases h : n = k
  · subst h; simp [plOf, setPl]
  · simp [plOf, setPl, h, tget_tset_ne]
@[simp] theorem plOf_setPl_same (d : Dev) (k : Nat) (x : Pl) : plOf (setPl d k x) k = x := by simp [plOf_setPl]
theorem plOf_setPl_ne (d : Dev) {k n : Nat} (x : Pl) (h : n ≠ k) : plOf (setPl d k x) n = plOf d n := by simp [plOf_setPl, h]

@[simp] theorem cxOf_wr (d : Dev) (r : Nat) (v : W32) (n : Nat) : cxOf (wr d r v) n = cxOf d n := by simp [cxOf]
@[simp] theorem cxOf_wrN (d : Dev) (r v : Nat) (n : Nat) : cxOf (wrN d r v) n = cxOf d n := by simp [cxOf]
@[simp] theorem cxOf_wr64 (d : Dev) (r v : Nat) (n : Nat) : cxOf (wr64 d r v) n = cxOf d n := by simp [cxOf]
@[simp] theorem cxOf_wrFld (d : Dev) (r hi lo v : Nat) (n : Nat) : cxOf (wrFld d r hi lo v) n = cxOf d n := by simp [cxOf]
@[simp] theorem cxOf_wrBit (d : Dev) (r i : Nat) (b : Bool) (n : Nat) : cxOf (wrBit d r i b) n = cxOf d n := by simp [cxOf]
@[simp] theorem cxOf_bump (d : Dev) (r : Nat) (n : Nat) : cxOf (bump d r) n = cxOf d n := by simp [cxOf]
@[simp] theorem cxOf_err (d : Dev) (p : Page) (c r : Nat) (n : Nat) : cxOf (err d p c r) n = cxOf d n := by simp [cxOf]
@[simp] theorem cxOf_issued (d : Dev) (p : Page) (r : Nat) (v : W32) (n : Nat) : cxOf (issued d p r v) n = cxOf d n := by simp [cxOf]
theorem cxOf_setCx (d : Dev) (k n : Nat) (x : Cx) : cxOf (setCx d k x) n = if n = k then x else cxOf d n := by
  by_cases h : n = k
  · subst h; simp [cxOf, setCx]
  · simp [cxOf, setCx, h, tget_tset_ne]
@[simp] theorem cxOf_setCx_same (d : Dev) (k : Nat) (x : Cx) : cxOf (setCx d k x) k = x := by simp [cxOf_setCx]
theorem cxOf_setCx_ne (d : Dev) {k n : Nat} (x : Cx) (h : n ≠ k) : cxOf (setCx d k x) n = cxOf d n := by simp [cxOf_setCx, h]

@[simp] theorem ethOf_wr (d : Dev) (r : Nat) (v : W32) (n : Nat) : ethOf (wr d r v) n = ethOf d n := by simp [ethOf]
@[simp] theorem ethOf_wrN (d : Dev) (r v : Nat) (n : Nat) : ethOf (wrN d r v) n = ethOf d n := by simp [ethOf]
@[simp] theorem ethOf_wr64 (d : Dev) (r v : Nat) (n : Nat) : ethOf (wr64 d r v) n = ethOf d n := by simp [ethOf]
@[simp] theorem ethOf_wrFld (d : Dev) (r hi lo v : Nat) (n : Nat) : ethOf (wrFld d r hi lo v) n = ethOf d n := by simp [ethOf]
@[simp] theorem ethOf_wrBit (d : Dev) (r i : Nat) (b : Bool) (n : Nat) : ethOf (wrBit d r i b) n = ethOf d n := by simp [ethOf]
@[simp] theorem ethOf_bump (d : Dev) (r : Nat) (n : Nat) : ethOf (bump d r) n = ethOf d n := by simp [ethOf]
@[simp] theorem ethOf_err (d : Dev) (p : Page) (c r : Nat) (n : Nat) : ethOf (err d p c r) n = ethOf d n := by simp [ethOf]
@[simp] theorem ethOf_issued (d : Dev) (p : Page) (r : Nat) (v : W32) (n : Nat) : ethOf (issued d p r v) n = ethOf d n := by simp [ethOf]
theorem ethOf_setEth (d : Dev) (k n : Nat) (x : Eth) : ethOf (setEth d k x) n = if n = k then x else ethOf d n := by
  by_cases h : n = k
  · subst h; simp [ethOf, setEth]
  · simp [ethOf, setEth, h, tget_tset_ne]
@[simp] theorem ethOf_setEth_same (d : Dev) (k : Nat) (x : Eth) : ethOf (setEth d k x) k = x := by simp [ethOf_setEth]
theorem ethOf_setEth_ne (d : Dev) {k n : Nat} (x : Eth) (h : n ≠ k) : ethOf (setEth d k x) n = ethOf d n := by simp [ethOf_setEth, h]

@[simp] theorem wearOf_wr (d : Dev) (r : Nat) (v : W32) (n : Nat) : wearOf (wr d r v) n = wearOf d n := by simp [wearOf]
@[simp] theorem wearOf_wrN (d : Dev) (r v : Nat) (n : Nat) : wearOf (wrN d r v) n = wearOf d n := by simp [wearOf]
@[simp] theorem wearOf_wr64 (d : Dev) (r v : Nat) (n : Nat) : wearOf (wr64 d r v) n = wearOf d n := by simp [wearOf]
@[simp] theorem wearOf_wrFld (d : Dev) (r hi lo v : Nat) (n : Nat) : wearOf (wrFld d r hi lo v) n = wearOf d n := by simp [wearOf]
@[simp] theorem wearOf_wrBit (d : Dev) (r i : Nat) (b : Bool) (n : Nat) : wearOf (wrBit d r i b) n = wearOf d n := by simp [wearOf]
@[simp] theorem wearOf_bump (d : Dev) (r : Nat) (n : Nat) : wearOf (bump d r) n = wearOf d n := by simp [wearOf]
@[simp] theorem wearOf_err (d : Dev) (p : Page) (c r : Nat) (n : Nat) : wearOf (err d p c r) n = wearOf d n := by simp [wearOf]
@[simp] theorem wearOf_issued (d : Dev) (p : Page) (r : Nat) (v : W32) (n : Nat) : wearOf (issued d p r v) n = wearOf d n := by simp [wearOf]
theorem wearOf_setWear (d : Dev) (k n : Nat) (x : Wear) : wearOf (setWear d k x) n = if n = k then x else wearOf d n := by
  by_cases h : n = k
  · subst h; simp [wearOf, setWear]
  · simp [wearOf, setWear, h, tget_tset_ne]
@[simp] theorem wearOf_setWear_same (d : Dev) (k : Nat) (x : Wear) : wearOf (setWear d k x) k = x := by simp [wearOf_setWear]
theorem wearOf_setWear_ne (d : Dev) {k n : Nat} (x : Wear) (h : n ≠ k) : wearOf (setWear d k x) n = wearOf d n := by simp [wearOf_setWear, h]

@[simp] theorem thrOf_wr (d : Dev) (r : Nat) (v : W32) (n : Nat) : thrOf (wr d r v) n = thrOf d n := by simp [thrOf]
@[simp] theorem thrOf_wrN (d : Dev) (r v : Nat) (n : Nat) : thrOf (wrN d r v) n = thrOf d n := by simp [thrOf]
@[simp] theorem thrOf_wr64 (d : Dev) (r v : Nat) (n : Nat) : thrOf (wr64 d r v) n = thrOf d n := by simp [thrOf]
@[simp] theorem thrOf_wrFld (d : Dev) (r hi lo v : Nat) (n : Nat) : thrOf (wrFld d r hi lo v) n = thrOf d n := by simp [thrOf]
@[simp] theorem thrOf_wrBit (d : Dev) (r i : Nat) (b : Bool) (n : Nat) : thrOf (wrBit d r i b) n = thrOf d n := by simp [thrOf]
@[simp] theorem thrOf_bump (d : Dev) (r : Nat) (n : Nat) : thrOf (bump d r) n = thrOf d n := by simp [thrOf]
@[simp] theorem thrOf_err (d : Dev) (p : Page) (c r : Nat) (n : Nat) : thrOf (err d p c r) n = thrOf d n := by simp [thrOf]
@[simp] theorem thrOf_issued (d : Dev) (p : Page) (r : Nat) (v : W32) (n : Nat) : thrOf (issued d p r v) n = thrOf d n := by simp [thrOf]

@[simp] theorem tcOf_wr (d : Dev) (r : Nat) (v : W32) (n : Nat) : tcOf (wr d r v) n = tcOf d n := by simp [tcOf]
@[simp] theorem tcOf_wrN (d : Dev) (r v : Nat) (n : Nat) : tcOf (wrN d r v) n = tcOf d n := by simp [tcOf]
@[simp] theorem tcOf_wr64 (d : Dev) (r v : Nat) (n : Nat) : tcOf (wr64 d r v) n = tcOf d n := by simp [tcOf]
@[simp] theorem tcOf_wrFld (d : Dev) (r hi lo v : Nat) (n : Nat) : tcOf (wrFld d r hi lo v) n = tcOf d n := by simp [tcOf]
@[simp] theorem tcOf_wrBit (d : Dev) (r i : Nat) (b : Bool) (n : Nat) : tcOf (wrBit d r i b) n = tcOf d n := by simp [tcOf]
@[simp] theorem tcOf_bump (d : Dev) (r : Nat) (n : Nat) : tcOf (bump d r) n = tcOf d n := by simp [tcOf]
@[simp] theorem tcOf_err (d : Dev) (p : Page) (c r : Nat) (n : Nat) : tcOf (err d p c r) n = tcOf d n := by simp [tcOf]
@[simp] theorem tcOf_issued (d : Dev) (p : Page) (r : Nat) (v : W32) (n : Nat) : tcOf (issued d p r v) n = tcOf d n := by simp [tcOf]

/-! ### What reports keep -/

theorem recorded_sig {d e : Dev} (h : Recorded d e) : e.sig = d.sig := by rw [h.1]
theorem recorded_attr {d e : Dev} (h : Recorded d e) : e.attr = d.attr := by rw [h.1]
theorem recorded_stage1 {d e : Dev} (h : Recorded d e) : e.stage1 = d.stage1 := by rw [h.1]
theorem recorded_stage2 {d e : Dev} (h : Recorded d e) : e.stage2 = d.stage2 := by rw [h.1]
theorem recorded_hostq {d e : Dev} (h : Recorded d e) : e.hostq = d.hostq := by rw [h.1]
theorem recorded_crossing {d e : Dev} (h : Recorded d e) : e.crossing = d.crossing := by rw [h.1]
theorem recorded_cfgq {d e : Dev} (h : Recorded d e) : e.cfgq = d.cfgq := by rw [h.1]
theorem recorded_evr {d e : Dev} (h : Recorded d e) : e.evr = d.evr := by rw [h.1]
theorem recorded_power {d e : Dev} (h : Recorded d e) : e.power = d.power := by rw [h.1]
theorem recorded_health {d e : Dev} (h : Recorded d e) : e.health = d.health := by rw [h.1]
theorem recorded_wear {d e : Dev} (h : Recorded d e) : e.wear = d.wear := by rw [h.1]
theorem recorded_idBusy {d e : Dev} (h : Recorded d e) : e.idBusy = d.idBusy := by rw [h.1]
theorem recorded_tt {d e : Dev} (h : Recorded d e) : e.tt = d.tt := by rw [h.1]
theorem recorded_ttFrac {d e : Dev} (h : Recorded d e) : e.ttFrac = d.ttFrac := by rw [h.1]
theorem recorded_lanes {d e : Dev} (h : Recorded d e) : e.lanes = d.lanes := by rw [h.1]
theorem recorded_axes {d e : Dev} (h : Recorded d e) : e.axes = d.axes := by rw [h.1]
theorem recorded_stps {d e : Dev} (h : Recorded d e) : e.stps = d.stps := by rw [h.1]
theorem recorded_encs {d e : Dev} (h : Recorded d e) : e.encs = d.encs := by rw [h.1]
theorem recorded_quar {d e : Dev} (h : Recorded d e) : e.quar = d.quar := by rw [h.1]
theorem recorded_lps {d e : Dev} (h : Recorded d e) : e.lps = d.lps := by rw [h.1]
theorem recorded_shared {d e : Dev} (h : Recorded d e) : e.shared = d.shared := by rw [h.1]
theorem recorded_trigs {d e : Dev} (h : Recorded d e) : e.trigs = d.trigs := by rw [h.1]
theorem recorded_cells {d e : Dev} (h : Recorded d e) : e.cells = d.cells := by rw [h.1]
theorem recorded_ctab {d e : Dev} (h : Recorded d e) : e.ctab = d.ctab := by rw [h.1]
theorem recorded_cores {d e : Dev} (h : Recorded d e) : e.cores = d.cores := by rw [h.1]
theorem recorded_aos {d e : Dev} (h : Recorded d e) : e.aos = d.aos := by rw [h.1]
theorem recorded_dios {d e : Dev} (h : Recorded d e) : e.dios = d.dios := by rw [h.1]
theorem recorded_role {d e : Dev} (h : Recorded d e) : e.role = d.role := by rw [h.1]
theorem recorded_sf {d e : Dev} (h : Recorded d e) : e.sf = d.sf := by rw [h.1]
theorem recorded_pls {d e : Dev} (h : Recorded d e) : e.pls = d.pls := by rw [h.1]
theorem recorded_tw {d e : Dev} (h : Recorded d e) : e.tw = d.tw := by rw [h.1]
theorem recorded_cxs {d e : Dev} (h : Recorded d e) : e.cxs = d.cxs := by rw [h.1]
theorem recorded_tb {d e : Dev} (h : Recorded d e) : e.tb = d.tb := by rw [h.1]
theorem recorded_eths {d e : Dev} (h : Recorded d e) : e.eths = d.eths := by rw [h.1]
theorem recorded_tl {d e : Dev} (h : Recorded d e) : e.tl = d.tl := by rw [h.1]
theorem recorded_tk {d e : Dev} (h : Recorded d e) : e.tk = d.tk := by rw [h.1]
theorem recorded_sram {d e : Dev} (h : Recorded d e) : e.sram = d.sram := by rw [h.1]
theorem recorded_poison {d e : Dev} (h : Recorded d e) : e.poison = d.poison := by rw [h.1]
theorem recorded_mram {d e : Dev} (h : Recorded d e) : e.mram = d.mram := by rw [h.1]
theorem recorded_nv {d e : Dev} (h : Recorded d e) : e.nv = d.nv := by rw [h.1]
theorem recorded_nvAt {d e : Dev} (h : Recorded d e) : e.nvAt = d.nvAt := by rw [h.1]
theorem recorded_ring {d e : Dev} (h : Recorded d e) : e.ring = d.ring := by rw [h.1]
theorem recorded_dir {d e : Dev} (h : Recorded d e) : e.dir = d.dir := by rw [h.1]
theorem recorded_jn {d e : Dev} (h : Recorded d e) : e.jn = d.jn := by rw [h.1]
theorem recorded_oh {d e : Dev} (h : Recorded d e) : e.oh = d.oh := by rw [h.1]
theorem recorded_free {d e : Dev} (h : Recorded d e) : e.free = d.free := by rw [h.1]
theorem recorded_laneOf {d e : Dev} (h : Recorded d e) (n : Nat) : laneOf e n = laneOf d n := by simp [laneOf, recorded_lanes h]
theorem recorded_axOf {d e : Dev} (h : Recorded d e) (n : Nat) : axOf e n = axOf d n := by simp [axOf, recorded_axes h]
theorem recorded_stpOf {d e : Dev} (h : Recorded d e) (n : Nat) : stpOf e n = stpOf d n := by simp [stpOf, recorded_stps h]
theorem recorded_encOf {d e : Dev} (h : Recorded d e) (n : Nat) : encOf e n = encOf d n := by simp [encOf, recorded_encs h]
theorem recorded_lpOf {d e : Dev} (h : Recorded d e) (n : Nat) : lpOf e n = lpOf d n := by simp [lpOf, recorded_lps h]
theorem recorded_cellOf {d e : Dev} (h : Recorded d e) (n : Nat) : cellOf e n = cellOf d n := by simp [cellOf, recorded_cells h]
theorem recorded_coreOf {d e : Dev} (h : Recorded d e) (n : Nat) : coreOf e n = coreOf d n := by simp [coreOf, recorded_cores h]
theorem recorded_aoOf {d e : Dev} (h : Recorded d e) (n : Nat) : aoOf e n = aoOf d n := by simp [aoOf, recorded_aos h]
theorem recorded_dioOf {d e : Dev} (h : Recorded d e) (n : Nat) : dioOf e n = dioOf d n := by simp [dioOf, recorded_dios h]
theorem recorded_plOf {d e : Dev} (h : Recorded d e) (n : Nat) : plOf e n = plOf d n := by simp [plOf, recorded_pls h]
theorem recorded_cxOf {d e : Dev} (h : Recorded d e) (n : Nat) : cxOf e n = cxOf d n := by simp [cxOf, recorded_cxs h]
theorem recorded_ethOf {d e : Dev} (h : Recorded d e) (n : Nat) : ethOf e n = ethOf d n := by simp [ethOf, recorded_eths h]
theorem recorded_wearOf {d e : Dev} (h : Recorded d e) (n : Nat) : wearOf e n = wearOf d n := by simp [wearOf, recorded_wear h]
theorem recorded_thrOf {d e : Dev} (h : Recorded d e) (n : Nat) : thrOf e n = thrOf d n := by simp [thrOf, recorded_tl h]
theorem recorded_tcOf {d e : Dev} (h : Recorded d e) (n : Nat) : tcOf e n = tcOf d n := by simp [tcOf, recorded_tl h]

/-- A register below the Daybook page is none that a report changes. -/
theorem reportReg_lo (a : Nat) (h : a < dbBase) : reportReg a = false := by
  unfold reportReg
  unfold dbBase at h
  have h3 : a < TR_FRZ_INFO := by unfold TR_FRZ_INFO trBase; omega
  have h4 : a ≠ DB_SUP_CNT := by unfold DB_SUP_CNT dbBase; omega
  simp [h4, Nat.not_le.mpr h3]
/-- Nor one between that page and the trace page. -/
theorem reportReg_mid (a : Nat) (h : dbBase + 0x1000 ≤ a) (h2 : a < trBase) : reportReg a = false := by
  unfold reportReg
  unfold dbBase at h; unfold trBase at h2
  have h3 : a < TR_FRZ_INFO := by unfold TR_FRZ_INFO trBase; omega
  have h4 : a ≠ DB_SUP_CNT := by unfold DB_SUP_CNT dbBase; omega
  simp [h4, Nat.not_le.mpr h3]
/-- A report leaves the registers of other pages as they are. -/
theorem recorded_rd {d e : Dev} (h : Recorded d e) {a : Nat} (ha : a < dbBase ∨ (dbBase + 0x1000 ≤ a ∧ a < trBase)) : rd e a = rd d a :=
  h.2 a (ha.elim (reportReg_lo a) (fun x => reportReg_mid a x.1 x.2))

/-! ### Commands that are refused -/

/-- A register write changes registers only. -/
theorem regs_wr (d : Dev) (a : Nat) (v : W32) : ∃ r, wr d a v = { d with regs := r } := ⟨_, rfl⟩
theorem regs_regs {d e f : Dev} (h : ∃ r, e = { d with regs := r }) (g : ∃ r, f = { e with regs := r }) : ∃ r, f = { d with regs := r } := by
  obtain ⟨r, rfl⟩ := h
  obtain ⟨q, rfl⟩ := g
  exact ⟨q, rfl⟩
/-- What an error changes: ERR_CODE and ERR_ADDR of its page. -/
theorem err_only (d : Dev) (p : Page) (c a : Nat) : (∃ r, err d p c a = { d with regs := r }) ∧ ∀ b, b ≠ pageBase p + ERR_CODE → b ≠ pageBase p + ERR_ADDR → rd (err d p c a) b = rd d b := by
  unfold err wrN
  refine ⟨regs_regs (regs_wr _ _ _) (regs_wr _ _ _), fun b h1 h2 => ?_⟩
  rw [rd_wr_ne _ _ h2, rd_wr_ne _ _ h1]
theorem err_seq (d : Dev) (p : Page) (c a : Nat) (h : c < 2 ^ 24) : fld (rd (err d p c a) (pageBase p + ERR_CODE)) 31 24 = (fld (rd d (pageBase p + ERR_CODE)) 31 24 + 1) % 256 := by
  unfold err
  simp only
  rw [rd_wrN_ne _ _ (by unfold ERR_CODE ERR_ADDR; omega), rd_wrN_same]
  generalize fld (rd d (pageBase p + ERR_CODE)) 31 24 = n
  unfold fld
  rw [show (w32 ((n + 1) % 256 * 0x1000000 + c)).toNat = ((n + 1) % 256 * 0x1000000 + c) % 2 ^ 32 from by unfold w32; simp]
  omega
/-- An admitted command that ends in an error is refused, and leaves everything as it was (R47, R51). -/
theorem hostCmd_refused (d : Dev) (p : Page) (off : Nat) (v : W32) (f : Dev → Dev) (c r : Nat) (ha : admits d p off = true) (hc : c < 65536) (ho : off ≠ ERR_CODE)
    (ho' : off ≠ ERR_ADDR) (hf : f (issued d p off v) = err (issued d p off v) p c r) : Refused p c r d (hostCmd d p off v f) := by
  have hh : hostCmd d p off v f = withCommand d p (pageBase p + off) v f := by unfold hostCmd; rw [admitted_admits _ _ _ _ _ ha]
  rw [hh]
  have hi : f (wr d (pageBase p + off) (v &&& wpBits p (pageBase p + off - pageBase p))) = err (issued d p off v) p c r := by
    rw [Nat.add_sub_cancel_left]; exact hf
  obtain ⟨x, hx⟩ : ∃ x, x = err (issued d p off v) p c r := ⟨_, rfl⟩
  have e0 := err_code (issued d p off v) p c r
  have e1 : rdN x (pageBase p + ERR_CODE) % 65536 = c := by rw [hx, e0, Nat.mod_eq_of_lt hc]
  have e2 : rd x (pageBase p + ERR_ADDR) = w32 r := by rw [hx]; exact err_addr _ _ _ _
  obtain ⟨⟨q, e3⟩, e4⟩ := err_only (issued d p off v) p c r
  have e5 : ∃ q, x = { d with regs := q } := by rw [hx]; exact regs_regs (regs_wr _ _ _) ⟨q, e3⟩
  have e6 : ∀ b, b ≠ pageBase p + ERR_CODE → b ≠ pageBase p + ERR_ADDR → b ≠ pageBase p + off → rd x b = rd d b := fun b h1 h2 h3 => by
    rw [hx, e4 b h1 h2, rd_issued_ne _ _ _ _ _ h3]
  have e7 : rd x (pageBase p + off) = v &&& wpBits p off := by rw [hx, e4 _ (by omega) (by omega), rd_issued_same]
  have e8 : errSeq x p = (errSeq d p + 1) % 256 := by
    rw [hx]; unfold errSeq; rw [err_seq _ _ _ _ (by omega), rd_issued_ne _ _ _ _ _ (by omega)]
  unfold withCommand
  rw [hi, Nat.add_sub_cancel_left]
  simp only
  rw [← hx, if_pos ⟨e8, e7⟩]
  refine ⟨regs_regs e5 (regs_wr _ _ _), ?_, ?_, fun a h1 h2 => ?_⟩
  · unfold rdN at e1 ⊢; rw [rd_wr_ne _ _ (by omega)]; exact e1
  · rw [rd_wr_ne _ _ (by omega)]; exact e2
  · by_cases h3 : a = pageBase p + off
    · subst h3; rw [rd_wr_same]
    · rw [rd_wr_ne _ _ h3, e6 a h1 h2 h3]

/-- What an issued command finds unchanged, and that pairing is as before. -/
theorem issued_keeps (d : Dev) (p : Page) (off : Nat) (v : W32) : (issued d p off v).tw = d.tw ∧ (issued d p off v).role = d.role ∧ (issued d p off v).sig = d.sig ∧ (issued d p off v).power = d.power
    ∧ ∀ a, a ≠ pageBase p + off → rd (issued d p off v) a = rd d a := by
  unfold issued; exact ⟨by simp, by simp, by simp, by simp, fun a ha => rd_wr_ne _ _ ha⟩
theorem pairEn_issued (d : Dev) (v : W32) (p : Page) (off : Nat) (h : TW_CFG ≠ pageBase p + off) : pairEn (issued d p off v) = pairEn d := by
  unfold pairEn rdBit; rw [(issued_keeps d p off v).2.2.2.2 _ h]

/-- A command whose register a reset has put back is not taken for a refused one. -/
theorem hostCmd_gone (d : Dev) (p : Page) (off : Nat) (v : W32) (f : Dev → Dev) (h : admits d p off = true) (hf : rd (f (issued d p off v)) (pageBase p + off) ≠ v &&& wpBits p off) :
    hostCmd d p off v f = f (issued d p off v) := by
  unfold hostCmd
  rw [admitted_admits d p off _ _ h]
  unfold withCommand
  rw [Nat.add_sub_cancel_left]
  exact if_neg (fun hc => hf hc.2)

end Sys2Proof.Machine
end

