-- ==== Sys2Proof/Laws/Bus.lean ====
section
/-! SUPPORT. What the operations of one Pliale segment leave alone: its own state, named registers and staged inputs change, nothing
else. -/

namespace Sys2Proof.Machine

theorem OnlySeg.refl (seg : Nat) (d : Dev) : OnlySeg seg [] [] d d :=
  ⟨by rw [List.append_nil], fun _ _ => rfl, fun _ _ => rfl⟩
theorem OnlySeg.trans {seg : Nat} {as bs : List Nat} {ws vs : List SigW} {d e f : Dev} (h : OnlySeg seg as ws d e) (g : OnlySeg seg bs vs e f) :
    OnlySeg seg (as ++ bs) (ws ++ vs) d f := by
  obtain ⟨h1, h2, h3⟩ := h
  obtain ⟨g1, g2, g3⟩ := g
  refine ⟨?_, fun r hr => (g2 r hr).trans (h2 r hr), fun a ha => ?_⟩
  · rw [h1] at g1; rw [g1, List.append_assoc]
  · rw [List.mem_append, not_or] at ha; exact (g3 a ha.2).trans (h3 a ha.1)
theorem OnlySeg.mono {seg : Nat} {as bs : List Nat} {ws : List SigW} {d e : Dev} (h : OnlySeg seg as ws d e) (hb : ∀ a, a ∈ as → a ∈ bs) : OnlySeg seg bs ws d e :=
  ⟨h.1, h.2.1, fun a ha => h.2.2 a (fun hm => ha (hb a hm))⟩
theorem OnlySeg.sig {seg : Nat} {as : List Nat} {ws : List SigW} {d e : Dev} (h : OnlySeg seg as ws d e) : e.sig = d.sig := by rw [h.1]
theorem OnlySeg.attr {seg : Nat} {as : List Nat} {ws : List SigW} {d e : Dev} (h : OnlySeg seg as ws d e) : e.attr = d.attr := by rw [h.1]
theorem OnlySeg.power {seg : Nat} {as : List Nat} {ws : List SigW} {d e : Dev} (h : OnlySeg seg as ws d e) : e.power = d.power := by rw [h.1]
theorem OnlySeg.role {seg : Nat} {as : List Nat} {ws : List SigW} {d e : Dev} (h : OnlySeg seg as ws d e) : e.role = d.role := by rw [h.1]
theorem OnlySeg.tt {seg : Nat} {as : List Nat} {ws : List SigW} {d e : Dev} (h : OnlySeg seg as ws d e) : e.tt = d.tt := by rw [h.1]
theorem OnlySeg.tw {seg : Nat} {as : List Nat} {ws : List SigW} {d e : Dev} (h : OnlySeg seg as ws d e) : e.tw = d.tw := by rw [h.1]
theorem OnlySeg.stage1 {seg : Nat} {as : List Nat} {ws : List SigW} {d e : Dev} (h : OnlySeg seg as ws d e) : e.stage1 = d.stage1 ++ ws := by rw [h.1]
theorem onlySeg_wr (seg : Nat) (d : Dev) (a : Nat) (v : W32) : OnlySeg seg [a] [] d (wr d a v) :=
  ⟨by rw [List.append_nil]; rfl, fun _ _ => plOf_wr _ _ _ _, fun b hb => rd_wr_ne _ _ (by simpa using hb)⟩
theorem onlySeg_wrN (seg : Nat) (d : Dev) (a v : Nat) : OnlySeg seg [a] [] d (wrN d a v) := onlySeg_wr _ _ _ _
theorem onlySeg_bump (seg : Nat) (d : Dev) (a : Nat) : OnlySeg seg [a] [] d (bump d a) := onlySeg_wr _ _ _ _
theorem onlySeg_wrFld (seg : Nat) (d : Dev) (a hi lo v : Nat) : OnlySeg seg [a] [] d (wrFld d a hi lo v) := onlySeg_wr _ _ _ _
theorem onlySeg_issued (seg : Nat) (d : Dev) (p : Page) (off : Nat) (v : W32) : OnlySeg seg [pageBase p + off] [] d (issued d p off v) := onlySeg_wr _ _ _ _
theorem onlySeg_setPl (seg : Nat) (d : Dev) (x : Pl) : OnlySeg seg [] [] d (setPl d seg x) :=
  ⟨by rw [List.append_nil]; rfl, fun _ hr => plOf_setPl_ne _ _ hr, fun _ _ => rd_setPl _ _ _ _⟩
theorem onlySeg_err (seg : Nat) (d : Dev) (p : Page) (c r : Nat) : OnlySeg seg [pageBase p + ERR_CODE, pageBase p + ERR_ADDR] [] d (err d p c r) :=
  (onlySeg_wrN seg d _ _).trans (onlySeg_wrN seg _ _ _)

/-- The safe inputs of a segment are staged, nothing else changes. -/
theorem plSafe_eq (d : Dev) (seg : Nat) (b : Bool) : plSafe d seg b = { d with stage1 := d.stage1 ++ segSafe (plOf d seg) b } := by
  have h2 : ∀ (v : W32) (l : List Nat) (d : Dev), l.foldl (fun d n => put1 d n v b) d = { d with stage1 := d.stage1 ++ l.map (fun n => ⟨n, v, b⟩) } := by
    intro v l
    induction l with
    | nil => intro d; simp
    | cons n t ih => intro d; rw [List.foldl_cons, ih]; simp [put1]
  have h1 : ∀ (l : List PlEnt) (d : Dev), l.foldl (fun d e => plSafeEnt d e b) d = { d with stage1 := d.stage1 ++ l.flatMap (fun e => (inEnts e).map (fun n => ⟨n, e.safe, b⟩)) } := by
    intro l
    induction l with
    | nil => intro d; simp
    | cons e t ih => intro d; rw [List.foldl_cons, ih]; unfold plSafeEnt; rw [h2]; simp
  exact h1 _ _
theorem onlySeg_plSafe (seg : Nat) (d : Dev) (b : Bool) : OnlySeg seg [] (segSafe (plOf d seg) b) d (plSafe d seg b) := by
  rw [plSafe_eq]
  exact ⟨rfl, fun _ _ => rfl, fun _ _ => rd_congr rfl _⟩
theorem plOf_plSafe (d : Dev) (seg : Nat) (b : Bool) (r : Nat) : plOf (plSafe d seg b) r = plOf d r := by rw [plSafe_eq]; rfl
theorem rd_plSafe (d : Dev) (seg : Nat) (b : Bool) (a : Nat) : rd (plSafe d seg b) a = rd d a := by rw [plSafe_eq]; exact rd_congr rfl a

/-! ### The end of a request, a stop -/

theorem acycEnd_only (d : Dev) (seg st res : Nat) : OnlySeg seg [PL_ACYC_STAT seg, PL_ACYC_CNT seg] [] d (acycEnd d seg st res) ∧ plOf (acycEnd d seg st res) seg = { plOf d seg with wait := false, asked := false }
    ∧ rd (acycEnd d seg st res) (PL_ACYC_STAT seg) = w32 (st + 256 * res) ∧ rd (acycEnd d seg st res) (PL_ACYC_CNT seg) = rd d (PL_ACYC_CNT seg) + 1 := by
  unfold acycEnd
  refine ⟨((onlySeg_wrN seg d _ _).trans (onlySeg_bump seg _ _)).trans (onlySeg_setPl seg _ _), plOf_setPl_same _ _ _, ?_, ?_⟩
  · rw [rd_setPl, rd_bump_ne _ (by unfold PL_ACYC_STAT PL_ACYC_CNT; omega), rd_wrN_same]
  · rw [rd_setPl, rd_bump_same, rd_wrN_ne _ _ (by unfold PL_ACYC_STAT PL_ACYC_CNT; omega)]
theorem acycAbort_only (d : Dev) (seg : Nat) : OnlySeg seg (if (plOf d seg).wait then [PL_ACYC_STAT seg, PL_ACYC_CNT seg] else []) [] d (acycAbort d seg)
    ∧ plOf (acycAbort d seg) seg = { plOf d seg with wait := false, asked := (plOf d seg).asked && !(plOf d seg).wait }
    ∧ ((plOf d seg).wait = true → rd (acycAbort d seg) (PL_ACYC_STAT seg) = w32 (3 + 256 * 4) ∧ rd (acycAbort d seg) (PL_ACYC_CNT seg) = rd d (PL_ACYC_CNT seg) + 1) := by
  unfold acycAbort
  obtain ⟨h1, h2, h3, h4⟩ := acycEnd_only d seg 3 4
  cases hw : (plOf d seg).wait with
  | true =>
    rw [if_pos rfl, if_pos rfl]
    refine ⟨h1, ?_, fun _ => ⟨h3, h4⟩⟩
    rw [h2]; simp
  | false =>
    rw [if_neg (by decide), if_neg (by decide)]
    refine ⟨OnlySeg.refl _ _, ?_, fun h => absurd h (by decide)⟩
    generalize plOf d seg = x at *
    cases x; simp only at hw; subst hw; simp
theorem plToStopped_only (d : Dev) (seg c : Nat) : OnlySeg seg (if (plOf d seg).wait then [PL_ACYC_STAT seg, PL_ACYC_CNT seg] else []) (segSafe (plOf d seg) false) d (plToStopped d seg c)
    ∧ plOf (plToStopped d seg c) seg = { plOf d seg with st := .stopped, closing := c, start := none, wait := false, asked := (plOf d seg).asked && !(plOf d seg).wait }
    ∧ ((plOf d seg).wait = true → rd (plToStopped d seg c) (PL_ACYC_STAT seg) = w32 (3 + 256 * 4) ∧ rd (plToStopped d seg c) (PL_ACYC_CNT seg) = rd d (PL_ACYC_CNT seg) + 1) := by
  obtain ⟨h1, h2, h3⟩ := acycAbort_only d seg
  unfold plToStopped
  obtain ⟨y, hy⟩ : ∃ y, y = acycAbort d seg := ⟨_, rfl⟩
  rw [← hy] at h1 h2 h3 ⊢
  have hw : segSafe (plOf y seg) false = segSafe (plOf d seg) false := by rw [h2]; rfl
  refine ⟨?_, ?_, fun h => ?_⟩
  · have := (h1.trans (onlySeg_plSafe seg y false)).trans (onlySeg_setPl seg _ { plOf (plSafe y seg false) seg with st := .stopped, closing := c, start := none })
    rw [hw] at this
    simpa using this
  · rw [plOf_setPl_same, plOf_plSafe, h2]
  · rw [rd_setPl, rd_setPl, rd_plSafe, rd_plSafe]; exact h3 h

/-! ### Slots -/

theorem plOf_setSl (d : Dev) (s k : Nat) (y : SlS) : plOf (setSl d s k y) s = { plOf d s with slots := lset (plOf d s).slots k y } := by
  unfold setSl; rw [plOf_setPl_same]
theorem slOf_setSl_same (d : Dev) (s k : Nat) (y : SlS) (h : k < (plOf d s).slots.length) : slOf (setSl d s k y) s k = y := by
  unfold slOf; rw [plOf_setSl]; dsimp only; rw [nth_lset, if_pos ⟨rfl, h⟩]
theorem slOf_setSl_ne (d : Dev) (s k i : Nat) (y : SlS) (h : i ≠ k) : slOf (setSl d s k y) s i = slOf d s i := by
  unfold slOf; rw [plOf_setSl]; dsimp only; rw [nth_lset, if_neg (fun q => h q.1)]
theorem onlySeg_setSl (seg : Nat) (d : Dev) (k : Nat) (y : SlS) : OnlySeg seg [] [] d (setSl d seg k y) := onlySeg_setPl seg d _
@[simp] theorem rd_setSl (d : Dev) (s k : Nat) (y : SlS) (a : Nat) : rd (setSl d s k y) a = rd d a := rd_setPl _ _ _ _
theorem slOf_of_plOf {d e : Dev} {s : Nat} (h : plOf e s = plOf d s) (k : Nat) : slOf e s k = slOf d s k := by unfold slOf; rw [h]
theorem slOf_wr (d : Dev) (a : Nat) (v : W32) (s k : Nat) : slOf (wr d a v) s k = slOf d s k := slOf_of_plOf (plOf_wr _ _ _ _) k

end Sys2Proof.Machine
end

