-- ==== Sys2Proof/Laws/Channel.lean ====
section
/-! SUPPORT. What the operations of one message bus channel leave alone, and what its completions do. -/

namespace Sys2Proof.Machine

/-- No register of a list lays out a ring of channel x. -/
def noConf (x : Nat) (as : List Nat) : Prop := ∀ q, q < 4 → CX_TQ_BASE x q ∉ as ∧ CX_TQ_CFG x q ∉ as ∧ CX_RQ_BASE x q ∉ as ∧ CX_RQ_CFG x q ∉ as

theorem cxReg_noReport (x : Nat) (hx : x < 8) (a : Nat) (h : cxBase x ≤ a) (h' : a < cxBase x + 0x4000) : reportReg a = false := by
  unfold cxBase at h h'
  exact reportReg_mid a (by unfold dbBase; omega) (by unfold trBase; omega)
theorem inRings_congr {x : Nat} {d e : Dev} (h : ∀ q, q < 4 → rd e (CX_TQ_BASE x q) = rd d (CX_TQ_BASE x q) ∧ rd e (CX_TQ_CFG x q) = rd d (CX_TQ_CFG x q) ∧ rd e (CX_RQ_BASE x q) = rd d (CX_RQ_BASE x q) ∧ rd e (CX_RQ_CFG x q) = rd d (CX_RQ_CFG x q)) (a : Nat) :
    inRings e x a ↔ inRings d x a := by
  unfold inRings tqLen tqStride rdN
  constructor
  · rintro (⟨q, hq, h1⟩ | ⟨q, hq, h1⟩)
    · rw [(h q hq).1, (h q hq).2.1] at h1; exact Or.inl ⟨q, hq, h1⟩
    · rw [(h q hq).2.2.1, (h q hq).2.2.2] at h1; exact Or.inr ⟨q, hq, h1⟩
  · rintro (⟨q, hq, h1⟩ | ⟨q, hq, h1⟩)
    · rw [← (h q hq).1, ← (h q hq).2.1] at h1; exact Or.inl ⟨q, hq, h1⟩
    · rw [← (h q hq).2.2.1, ← (h q hq).2.2.2] at h1; exact Or.inr ⟨q, hq, h1⟩
theorem OnlyCx.conf {x : Nat} {as : List Nat} {d e : Dev} (h : OnlyCx x as d e) (hx : x < 8) (hn : noConf x as) :
    ∀ q, q < 4 → rd e (CX_TQ_BASE x q) = rd d (CX_TQ_BASE x q) ∧ rd e (CX_TQ_CFG x q) = rd d (CX_TQ_CFG x q) ∧ rd e (CX_RQ_BASE x q) = rd d (CX_RQ_BASE x q) ∧ rd e (CX_RQ_CFG x q) = rd d (CX_RQ_CFG x q) := by
  intro q hq
  obtain ⟨n1, n2, n3, n4⟩ := hn q hq
  refine ⟨h.2.2.1 _ n1 ?_, h.2.2.1 _ n2 ?_, h.2.2.1 _ n3 ?_, h.2.2.1 _ n4 ?_⟩ <;>
    refine cxReg_noReport x hx _ ?_ ?_ <;> simp only [CX_TQ_BASE, CX_TQ_CFG, CX_RQ_BASE, CX_RQ_CFG] <;> omega
theorem OnlyCx.refl (x : Nat) (as : List Nat) (d : Dev) : OnlyCx x as d d := ⟨rfl, fun _ _ => rfl, fun _ _ _ => rfl, fun _ _ => rfl⟩
theorem OnlyCx.mono {x : Nat} {as bs : List Nat} {d e : Dev} (h : OnlyCx x as d e) (hb : ∀ a, a ∈ as → a ∈ bs) : OnlyCx x bs d e :=
  ⟨h.1, h.2.1, fun a ha => h.2.2.1 a (fun hm => ha (hb a hm)), h.2.2.2⟩
theorem OnlyCx.trans {x : Nat} {as bs : List Nat} {d e f : Dev} (hx : x < 8) (hn : noConf x as) (h : OnlyCx x as d e) (g : OnlyCx x bs e f) : OnlyCx x (as ++ bs) d f := by
  have hc := inRings_congr (h.conf hx hn)
  obtain ⟨h1, h2, h3, h4⟩ := h
  obtain ⟨g1, g2, g3, g4⟩ := g
  refine ⟨?_, fun y hy => (g2 y hy).trans (h2 y hy), fun a ha hr => ?_, fun a ha => (g4 a (by rw [hc]; exact ha)).trans (h4 a ha)⟩
  · rw [h1] at g1; rw [g1]
  · rw [List.mem_append, not_or] at ha; exact (g3 a ha.2 hr).trans (h3 a ha.1 hr)
theorem onlyCx_wr (x : Nat) (d : Dev) (a : Nat) (v : W32) : OnlyCx x [a] d (wr d a v) :=
  ⟨rfl, fun _ _ => cxOf_wr _ _ _ _, fun b hb _ => rd_wr_ne _ _ (by simpa using hb), fun _ _ => rfl⟩
theorem onlyCx_wrN (x : Nat) (d : Dev) (a v : Nat) : OnlyCx x [a] d (wrN d a v) := onlyCx_wr _ _ _ _
theorem onlyCx_bump (x : Nat) (d : Dev) (a : Nat) : OnlyCx x [a] d (bump d a) := onlyCx_wr _ _ _ _
theorem onlyCx_setCx (x : Nat) (as : List Nat) (d : Dev) (c : Cx) : OnlyCx x as d (setCx d x c) :=
  ⟨rfl, fun _ hy => cxOf_setCx_ne _ _ hy, fun _ _ _ => rd_setCx _ _ _ _, fun _ _ => rfl⟩
theorem onlyCx_free (x : Nat) (as : List Nat) (d : Dev) (n : Nat) : OnlyCx x as d { d with free := n } :=
  ⟨rfl, fun _ _ => rfl, fun a _ _ => rd_congr rfl a, fun _ _ => rfl⟩
theorem onlyCx_recorded {x : Nat} (as : List Nat) {d e : Dev} (h : Recorded d e) : OnlyCx x as d e := by
  refine ⟨?_, fun y _ => recorded_cxOf h y, fun a _ hr => h.2 a hr, fun a _ => by rw [recorded_sram h]⟩
  have h2 := recorded_cxs h
  have h3 := recorded_sram h
  have h4 := recorded_poison h
  have h5 := recorded_free h
  rw [h.1] at h2 h3 h4 h5 ⊢
/-- Bytes put into a ring. -/
theorem onlyCx_sramPut (x : Nat) (as : List Nat) (d : Dev) (a : Nat) (bs : List W8) (h : ∀ b, a ≤ b → b < a + bs.length → inRings d x b) : OnlyCx x as d (sramPut d a bs) := by
  unfold sramPut
  split
  · refine ⟨rfl, fun _ _ => rfl, fun b _ _ => rd_congr rfl b, fun b hb => ?_⟩
    refine mrd_mput_out _ _ _ _ ?_
    by_cases h1 : b < a
    · exact Or.inl h1
    · right; by_contra h2; exact hb (h b (by omega) (by omega))
  · exact OnlyCx.refl _ _ _
theorem rd_sramPut (d : Dev) (a : Nat) (bs : List W8) (r : Nat) : rd (sramPut d a bs) r = rd d r := by unfold sramPut; split <;> [exact rd_congr rfl r; rfl]
theorem cxOf_sramPut (d : Dev) (a : Nat) (bs : List W8) (x : Nat) : cxOf (sramPut d a bs) x = cxOf d x := by unfold sramPut; split <;> rfl

theorem strideOf_ge (w : W32) : 96 ≤ strideOf w := by unfold strideOf; split <;> omega
theorem tqOut_len (d : Dev) (x q : Nat) : tqOut d x q ≤ tqLen d x q := by unfold tqOut; simp only; split <;> omega
theorem tqOut_congr {d e : Dev} {x q : Nat} (h1 : rd e (CX_TQ_POST x q) = rd d (CX_TQ_POST x q)) (h2 : rd e (CX_TQ_DONE x q) = rd d (CX_TQ_DONE x q)) (h3 : rd e (CX_TQ_CFG x q) = rd d (CX_TQ_CFG x q)) :
    tqOut e x q = tqOut d x q := by unfold tqOut tqLen; rw [h1, h2, h3]
theorem tqLen_lt (d : Dev) (x q : Nat) : tqLen d x q < 512 := by unfold tqLen; rw [fld_eq]; exact Nat.mod_lt _ (by decide)

theorem leBytes_length (n v : Nat) : (leBytes n v).length = n := by
  induction n generalizing v with
  | zero => rfl
  | succ n ih => simp [leBytes, ih]

/-- One completion: DONE and LAST of the queue, and bytes of its head. -/
theorem cxFinish_facts (d : Dev) (x q code st : Nat) (hx : x < 8) (hq : q < 4) (hl : 0 < tqLen d x q) :
    OnlyCx x [CX_TQ_LAST x q, CX_TQ_DONE x q] d (cxFinish d x q code st) ∧ cxOf (cxFinish d x q code st) x = cxOf d x
      ∧ rd (cxFinish d x q code st) (CX_TQ_DONE x q) = rd d (CX_TQ_DONE x q) + 1 ∧ rd (cxFinish d x q code st) (CX_TQ_LAST x q) = w32 code := by
  have hring : ∀ b, tqHead d x q ≤ b → b < tqHead d x q + 96 → inRings d x b := by
    intro b h1 h2
    unfold tqHead at h1 h2
    refine Or.inl ⟨q, hq, by omega, ?_⟩
    have h3 : rdN d (CX_TQ_DONE x q) % tqLen d x q + 1 ≤ tqLen d x q := Nat.mod_lt _ hl
    have h4 : (rdN d (CX_TQ_DONE x q) % tqLen d x q + 1) * tqStride d x q ≤ tqLen d x q * tqStride d x q := Nat.mul_le_mul_right _ h3
    have h5 : 96 ≤ tqStride d x q := strideOf_ge _
    rw [Nat.add_mul] at h4
    omega
  unfold cxFinish
  dsimp only
  obtain ⟨u, hu⟩ : ∃ u, u = sramPut d (tqHead d x q + 10) (leBytes 1 code ++ leBytes 1 (min 255 (cxOf d x).tec)) := ⟨_, rfl⟩
  have u1 : OnlyCx x [] d u := by rw [hu]; exact onlyCx_sramPut _ _ _ _ _ (fun b h1 h2 => hring b (by omega) (by rw [List.length_append, leBytes_length, leBytes_length] at h2; omega))
  have u2 : cxOf u x = cxOf d x := by rw [hu]; exact cxOf_sramPut _ _ _ _
  rw [← hu]; clear hu
  have nc : noConf x [] := fun q _ => by simp
  have hr := inRings_congr (u1.conf hx nc)
  obtain ⟨v, hv⟩ : ∃ v, v = sramPut u (tqHead d x q + 24) (leBytes 8 st) := ⟨_, rfl⟩
  have v1 : OnlyCx x [] u v := by rw [hv]; exact onlyCx_sramPut _ _ _ _ _ (fun b h1 h2 => by rw [hr]; exact hring b (by omega) (by rw [leBytes_length] at h2; omega))
  have v2 : cxOf v x = cxOf u x := by rw [hv]; exact cxOf_sramPut _ _ _ _
  rw [← hv]; clear hv
  have vr : rd v (CX_TQ_DONE x q) = rd d (CX_TQ_DONE x q) := by
    have hh : reportReg (CX_TQ_DONE x q) = false := cxReg_noReport x hx _ (by unfold CX_TQ_DONE; omega) (by unfold CX_TQ_DONE; omega)
    rw [v1.2.2.1 _ (by simp) hh, u1.2.2.1 _ (by simp) hh]
  refine ⟨((u1.trans hx nc v1).trans hx (by simpa using nc) ((onlyCx_wrN x v _ _).trans hx ?_ (onlyCx_bump x _ _))), by rw [cxOf_bump, cxOf_wrN, v2, u2], ?_, ?_⟩
  · intro p _; unfold CX_TQ_BASE CX_TQ_CFG CX_RQ_BASE CX_RQ_CFG CX_TQ_LAST; simp; omega
  · rw [rd_bump_same, rd_wrN_ne _ _ (by unfold CX_TQ_DONE CX_TQ_LAST; omega), vr]
  · rw [rd_bump_ne _ (by unfold CX_TQ_DONE CX_TQ_LAST; omega), rd_wrN_same]

theorem noConf_done (x q : Nat) : noConf x [CX_TQ_LAST x q, CX_TQ_DONE x q] := by
  intro p _; unfold CX_TQ_BASE CX_TQ_CFG CX_RQ_BASE CX_RQ_CFG CX_TQ_LAST CX_TQ_DONE; simp; omega

theorem w32_succ (n : Nat) : w32 (n + 1) = 1 + w32 n := by
  unfold w32; apply BitVec.eq_of_toNat_eq; simp [BitVec.toNat_add, BitVec.toNat_ofNat]; omega
theorem w32_zero_add (v : W32) : v + w32 0 = v := by unfold w32; simp

theorem cxFinishN_facts (x q code : Nat) (hx : x < 8) (hq : q < 4) : ∀ n d, (n = 0 ∨ 0 < tqLen d x q) →
    OnlyCx x [CX_TQ_LAST x q, CX_TQ_DONE x q] d (cxFinishN x q code n d) ∧ cxOf (cxFinishN x q code n d) x = cxOf d x
      ∧ rd (cxFinishN x q code n d) (CX_TQ_DONE x q) = rd d (CX_TQ_DONE x q) + w32 n ∧ rd (cxFinishN x q code n d) (CX_TQ_LAST x q) = if n = 0 then rd d (CX_TQ_LAST x q) else w32 code
  | 0, d, _ => ⟨OnlyCx.refl _ _ _, rfl, (w32_zero_add _).symm, rfl⟩
  | n + 1, d, h => by
    obtain ⟨f1, f2, f3, f4⟩ := cxFinish_facts d x q code 0 hx hq (h.resolve_left (by omega))
    have hl : tqLen (cxFinish d x q code 0) x q = tqLen d x q := by unfold tqLen; rw [(f1.conf hx (noConf_done x q) q hq).2.1]
    obtain ⟨g1, g2, g3, g4⟩ := cxFinishN_facts x q code hx hq n (cxFinish d x q code 0) (Or.inr (by rw [hl]; exact h.resolve_left (by omega)))
    show OnlyCx x _ d (cxFinishN x q code n (cxFinish d x q code 0)) ∧ cxOf (cxFinishN x q code n (cxFinish d x q code 0)) x = _ ∧ rd (cxFinishN x q code n (cxFinish d x q code 0)) _ = _ ∧ rd (cxFinishN x q code n (cxFinish d x q code 0)) _ = _
    refine ⟨(f1.trans hx (noConf_done x q) g1).mono (by simp), g2.trans f2, by rw [g3, f3, w32_succ, BitVec.add_assoc], ?_⟩
    rw [g4, f4, if_neg (show ¬(n + 1 = 0) by omega)]; split <;> rfl

/-- What stands of another queue after the completions of one. -/
theorem cxFinishN_other (x q code n : Nat) (d : Dev) (hx : x < 8) (hq : q < 4) (h : n = 0 ∨ 0 < tqLen d x q) (a : Nat) (ha : cxBase x ≤ a ∧ a < cxBase x + 0x4000) (h1 : a ≠ CX_TQ_LAST x q) (h2 : a ≠ CX_TQ_DONE x q) :
    rd (cxFinishN x q code n d) a = rd d a :=
  (cxFinishN_facts x q code hx hq n d h).1.2.2.1 a (by simp [h1, h2]) (cxReg_noReport x hx a ha.1 ha.2)

theorem mem_cxDones {x a : Nat} : a ∈ cxDones x ↔ ∃ q, q < 4 ∧ (a = CX_TQ_DONE x q ∨ a = CX_TQ_LAST x q) := by
  unfold cxDones; simp
theorem noConf_dones (x : Nat) : noConf x (cxDones x) := by
  intro p _
  simp only [mem_cxDones]
  unfold CX_TQ_BASE CX_TQ_CFG CX_RQ_BASE CX_RQ_CFG CX_TQ_LAST CX_TQ_DONE
  refine ⟨?_, ?_, ?_, ?_⟩ <;> (rintro ⟨q, h, h'⟩; omega)

/-- Every outstanding request of a list of queues completes. -/
theorem drain_fold (x code : Nat) (hx : x < 8) : ∀ (l : List Nat), l.Nodup → (∀ q ∈ l, q < 4) → ∀ d,
    Completed x code (fun q => if q ∈ l then tqOut d x q else 0) d (l.foldl (fun d q => cxFinishN x q code (tqOut d x q) d) d) := by
  intro l
  induction l with
  | nil => intro _ _ d; exact ⟨OnlyCx.refl _ _ _, rfl, fun q _ => ⟨by simp [w32_zero_add], by simp⟩⟩
  | cons q t ih =>
    intro hn hl d
    obtain ⟨hqt, ht⟩ := List.nodup_cons.mp hn
    have hq : q < 4 := hl q (by simp)
    have h0 : tqOut d x q = 0 ∨ 0 < tqLen d x q := by have := tqOut_len d x q; omega
    obtain ⟨f1, f2, f3, f4⟩ := cxFinishN_facts x q code hx hq (tqOut d x q) d h0
    have fo := cxFinishN_other x q code (tqOut d x q) d hx hq h0
    have ft : ∀ p, p < 4 → p ≠ q → tqOut (cxFinishN x q code (tqOut d x q) d) x p = tqOut d x p ∧ rd (cxFinishN x q code (tqOut d x q) d) (CX_TQ_DONE x p) = rd d (CX_TQ_DONE x p) ∧ rd (cxFinishN x q code (tqOut d x q) d) (CX_TQ_LAST x p) = rd d (CX_TQ_LAST x p) := by
      intro p hp hpq
      have fd := fo (CX_TQ_DONE x p) (by unfold CX_TQ_DONE; omega) (by unfold CX_TQ_DONE CX_TQ_LAST; omega) (by unfold CX_TQ_DONE; omega)
      refine ⟨tqOut_congr ?_ fd ?_, fd, fo _ ?_ ?_ ?_⟩
      · exact fo _ (by unfold CX_TQ_POST; omega) (by unfold CX_TQ_POST CX_TQ_LAST; omega) (by unfold CX_TQ_POST CX_TQ_DONE; omega)
      · exact fo _ (by unfold CX_TQ_CFG; omega) (by unfold CX_TQ_CFG CX_TQ_LAST; omega) (by unfold CX_TQ_CFG CX_TQ_DONE; omega)
      · unfold CX_TQ_LAST; omega
      · unfold CX_TQ_LAST; omega
      · unfold CX_TQ_LAST CX_TQ_DONE; omega
    obtain ⟨g1, g2, g3⟩ := ih ht (fun p hp => hl p (by simp [hp])) (cxFinishN x q code (tqOut d x q) d)
    rw [List.foldl_cons]
    refine ⟨(f1.trans hx (noConf_done x q) g1).mono (fun a ha => ?_), g2.trans f2, fun p hp => ?_⟩
    · rw [List.mem_append] at ha
      rcases ha with ha | ha
      · rw [mem_cxDones]; simp at ha; exact ⟨q, hq, ha.symm⟩
      · exact ha
    · obtain ⟨k1, k2⟩ := g3 p hp
      beta_reduce at k1 k2 ⊢
      by_cases hpq : p = q
      · subst hpq
        rw [if_neg hqt] at k1 k2
        refine ⟨by rw [k1, f3, if_pos (by simp), w32_zero_add], ?_⟩
        rw [k2, f4, if_pos (by simp)]; simp
      · obtain ⟨m1, m2, m3⟩ := ft p hp hpq
        rw [m1, m2] at k1; rw [m1, m3] at k2
        simp only [List.mem_cons, hpq, false_or]
        exact ⟨k1, k2⟩

theorem cxDrain_drained (d : Dev) (x : Nat) (hx : x < 8) : Drained x d (cxDrain d x) := by
  unfold Drained cxDrain
  cases cxDead d x with
  | none => rfl
  | some code =>
    dsimp only
    obtain ⟨h1, h2, h3⟩ := drain_fold x code hx (List.range 4) List.nodup_range (fun q hq => List.mem_range.mp hq) d
    refine ⟨h1, h2, fun q hq => ?_⟩
    have := h3 q hq
    simp only [List.mem_range, hq, if_true] at this
    exact this

/-! ### The error counters -/

theorem cxCount_facts (d : Dev) (x tec rec_ : Nat) (hx : x < 8) (c : Cx) (hc : cxOf d x = c) (ha : c.st = .active ∨ c.st = .passive) :
    cxOf (cxCount d x tec rec_) x = { c with st := if 255 < tec then .busOff else if 127 < tec ∨ 127 < rec_ then .passive else .active, tec := if 255 < tec then 256 else tec, rec_ := rec_ }
      ∧ OnlyCx x [CX_BUSOFF_CNT x] d (cxCount d x tec rec_) ∧ rd (cxCount d x tec rec_) (CX_BUSOFF_CNT x) = rd d (CX_BUSOFF_CNT x) + (if 255 < tec then 1 else 0) := by
  unfold cxCount
  rw [hc]; dsimp only
  obtain ⟨st1, hst⟩ : ∃ st1, st1 = if c.st = .active ∧ (127 < tec ∨ 127 < rec_) then CxSt.passive else c.st := ⟨_, rfl⟩
  rw [← hst]
  by_cases hb : 255 < tec
  · have hp : st1 = .passive := by
      rw [hst]; rcases ha with h | h
      · rw [if_pos ⟨h, Or.inl (by omega)⟩]
      · split <;> [rfl; exact h]
    rw [if_pos ⟨hp, hb⟩, if_pos hb, if_pos hb, if_pos hb]
    obtain ⟨u, hu⟩ : ∃ u, u = bump (setCx d x { c with st := .busOff, tec := 256, rec_ := rec_ }) (CX_BUSOFF_CNT x) := ⟨_, rfl⟩
    have u1 : cxOf u x = { c with st := .busOff, tec := 256, rec_ := rec_ } := by rw [hu, cxOf_bump, cxOf_setCx_same]
    have u2 : OnlyCx x [CX_BUSOFF_CNT x] d u := by
      rw [hu]; exact ((onlyCx_setCx x [] d _).trans hx (fun _ _ => by simp) (onlyCx_bump x _ _))
    have u3 : rd u (CX_BUSOFF_CNT x) = rd d (CX_BUSOFF_CNT x) + 1 := by rw [hu, rd_bump_same, rd_setCx]
    rw [← hu]
    have hr : Recorded u (busEvent u (.cx x) (pageOrigin (.cx x) + 3) (Config.busEventCode 3) (rdN u (CX_BUSOFF_CNT x))) := recorded_report _ _ _ _
    generalize busEvent u (.cx x) (pageOrigin (.cx x) + 3) (Config.busEventCode 3) (rdN u (CX_BUSOFF_CNT x)) = w at *
    refine ⟨by rw [recorded_cxOf hr, u1], (u2.trans hx ?_ (onlyCx_recorded [] hr)).mono (by simp), ?_⟩
    · intro p _; unfold CX_TQ_BASE CX_TQ_CFG CX_RQ_BASE CX_RQ_CFG CX_BUSOFF_CNT; simp; omega
    · rw [hr.2 _ (cxReg_noReport x hx _ (by unfold CX_BUSOFF_CNT; omega) (by unfold CX_BUSOFF_CNT; omega)), u3]
  · rw [if_neg (fun h => hb h.2), if_neg hb, if_neg hb, if_neg hb]
    refine ⟨?_, onlyCx_setCx _ _ _ _, by rw [rd_setCx]; simp⟩
    rw [cxOf_setCx_same]
    congr 1
    rw [hst]
    by_cases h7 : 127 < tec ∨ 127 < rec_
    · rw [if_pos h7, if_neg (by omega)]
      rcases ha with h | h <;> simp [h, h7]
    · rw [if_neg h7]
      rcases ha with h | h
      · simp [h, h7]
      · simp [h]; omega

end Sys2Proof.Machine
end

