-- ==== Sys2Proof/Laws/Code.lean ====
section
/-! SUPPORT. Instructions of logic programs: contexts, slots and stores. -/

namespace Sys2Proof.Machine

/-! ### Instructions of logic programs -/

/-- Instance t of processor p is next, with instruction word w: it is executed in its context. -/
theorem lpInsn_runs {d : Dev} {p o : Nat} {t : TInst} {w : W32} (f : LCtx → W32 → LCtx) (h : nextInsn d p = some (t, w)) (ho : opcodeOf w = o) :
    lpInsn o f d p = setLp (f (logicCtx d p t w) w).d p (setInst (f (logicCtx d p t w) w).x (f (logicCtx d p t w) w).t) := by
  unfold lpInsn
  rw [h]
  simp only [ho, if_true]
  unfold runInsn logicCtx
  simp only [ho]

/-- A context keeps the processor and, outside of registers, the module. -/
def Sees (c c' : LCtx) : Prop := c'.p = c.p ∧ c'.x = c.x ∧ c'.t = c.t ∧ c'.pc = c.pc ∧ c'.d = { c.d with regs := c'.d.regs }
theorem sees_refl (c : LCtx) : Sees c c := ⟨rfl, rfl, rfl, rfl, rfl⟩
theorem sees_idxMiss (c : LCtx) : Sees c (idxMiss c) := ⟨rfl, rfl, rfl, rfl, rfl⟩
theorem sees_bitV (c : LCtx) (w : W32) : Sees c (bitV c w).2 := by
  unfold bitV; split
  · exact sees_refl c
  · split
    · exact sees_refl c
    · exact sees_idxMiss c
theorem sees_wordV (c : LCtx) (w : W32) : Sees c (wordV c w).2 := by
  unfold wordV; split
  · exact sees_refl c
  · split
    · exact sees_refl c
    · exact sees_idxMiss c

/-- An effect that leaves the processor but for the instance: the step it makes. -/
theorem logicStep_of {d : Dev} {p : Nat} {t t' : TInst} {w : W32} {c' : LCtx} (h1 : c'.x = (logicCtx d p t w).x) (h2 : c'.t = t') (hk : t'.k = t.k)
    (h3 : c'.d = { d with regs := c'.d.regs }) : LogicStep d (setLp c'.d p (setInst c'.x c'.t)) p w t t' := by
  refine ⟨?_, ?_, ?_, ?_, ?_, ?_⟩
  · rw [lpOf_setLp_same, h1, h2]; unfold setInst; rw [hk]; rfl
  · intro q hq; rw [lpOf_setLp_ne _ _ hq, h3]; simp [lpOf]
  · rw [setLp_sig, h3]
  · rw [setLp_stage2, h3]
  · rw [setLp_shared, h3]
  · rw [setLp_trigs, h3]

/-- An instruction that sets LB, or ACC, or X from an operand. -/
theorem logicStep_setLB {d : Dev} {p : Nat} {t : TInst} {w : W32} {c' : LCtx} (b : Bool) (h : Sees (logicCtx d p t w) c') :
    LogicStep d (setLp (setLB c' b).d p (setInst (setLB c' b).x (setLB c' b).t)) p w t
      { t with lb := b, pc := t.pc + 1, cyc := t.cyc + opCycles (opcodeOf w) } :=
  logicStep_of (c' := setLB c' b) h.2.1 (by simp [setLB, h.2.2.1, logicCtx]) rfl h.2.2.2.2
theorem logicStep_setACC {d : Dev} {p : Nat} {t : TInst} {w : W32} {c' : LCtx} (b : W16) (h : Sees (logicCtx d p t w) c') :
    LogicStep d (setLp (setACC c' b).d p (setInst (setACC c' b).x (setACC c' b).t)) p w t
      { t with acc := b, pc := t.pc + 1, cyc := t.cyc + opCycles (opcodeOf w) } :=
  logicStep_of (c' := setACC c' b) h.2.1 (by simp [setACC, h.2.2.1, logicCtx]) rfl h.2.2.2.2

theorem keepOf_setKeep (x : Lp) (k n : Nat) (t : TKeep) : keepOf (setKeep x k t) n = if n = k then t else keepOf x n := by
  unfold keepOf setKeep
  by_cases h : n = k
  · subst h; simp
  · simp [h, tget_tset_ne]

/-- An arithmetic result: ACC, and OV where the exact result does not fit. -/
theorem raiseOV_facts (c : LCtx) (b : Bool) :
    (raiseOV c b).d = c.d ∧ (raiseOV c b).t = c.t ∧ (raiseOV c b).x = { c.x with keep := (raiseOV c b).x.keep }
      ∧ ∀ k, keepOf (raiseOV c b).x k = if k = c.t.k then { keepOf c.x k with ov := (keepOf c.x k).ov || b } else keepOf c.x k := by
  cases b
  · refine ⟨rfl, rfl, rfl, fun k => ?_⟩
    simp [raiseOV]
  · refine ⟨rfl, rfl, rfl, fun k => ?_⟩
    rw [raiseOV, if_pos rfl]
    show keepOf (setKeep c.x c.t.k _) k = _
    rw [keepOf_setKeep]
    split
    · next h => subst h; simp
    · rfl
theorem raiseDZ_facts (c : LCtx) :
    (raiseDZ c).d = c.d ∧ (raiseDZ c).t = c.t ∧ (raiseDZ c).x = { c.x with keep := (raiseDZ c).x.keep }
      ∧ ∀ k, keepOf (raiseDZ c).x k = if k = c.t.k then { keepOf c.x k with dz := true } else keepOf c.x k := by
  refine ⟨rfl, rfl, rfl, fun k => ?_⟩
  show keepOf (setKeep c.x c.t.k _) k = _
  rw [keepOf_setKeep]
  split
  · next h => subst h; simp
  · rfl

/-! ### Stores -/

theorem tfind_aput {α : Type} (l : List (Nat × α)) (n m : Nat) (v : α) : tfind (aput l n v) m = if m = n then some v else tfind l m := by
  unfold aput
  by_cases h : m = n
  · subst h; simp [tfind]
  · simp only [tfind, h, if_false]
    exact (tfind_filter_ne l n m).trans (by rw [if_neg h])

theorem halfOf_ofHalves (lo hi : W16) : halfOf (ofHalves lo hi) false = lo ∧ halfOf (ofHalves lo hi) true = hi := by
  have h1 := lo.isLt
  have h2 := hi.isLt
  unfold halfOf ofHalves w32
  constructor
  · rw [if_neg (by simp)]
    apply BitVec.eq_of_toNat_eq
    simp only [BitVec.toNat_ofNat]; omega
  · rw [if_pos rfl]
    apply BitVec.eq_of_toNat_eq
    simp only [BitVec.toNat_ofNat]; omega

theorem forceBits_none (x : Lp) (h : x.forces = []) (a n : Nat) : forceBits x a n = (0, 0) := by simp [forceBits, h]
theorem keepForced_none (x : Lp) (h : x.forces = []) (a n : Nat) (o v : W16) : keepForced x a n o v = v := by
  unfold keepForced; rw [forceBits_none x h]; simp; exact BitVec.and_allOnes
theorem forced_none (x : Lp) (h : x.forces = []) (a n : Nat) (v : W16) : forced x a n v = v := by
  unfold forced; rw [forceBits_none x h]; simp; exact BitVec.and_allOnes

/-- A word stored without forces reads back, and every other word as before. -/
theorem rawWord_writeWord (c : LCtx) (a n a' n' : Nat) (v : W16) (ha : a < 4) (h3 : a = 3 → n / 4096 = c.p) (hf : c.x.forces = []) :
    rawWord (writeWord c a n v) a' n' = if a' = a ∧ n' = n then v else rawWord c a' n' := by
  have hS : ∀ (c : LCtx) i, slotIn c i = (tfind c.t.sl i).getD (slotOf c.x i) := fun _ _ => rfl
  unfold writeWord
  simp only [keepForced_none c.x hf]
  match a, ha with
  | 0, _ =>
    simp only
    match a' with
    | 0 => simp only [rawWord, true_and]; rw [tget_tset]; split <;> [(split <;> simp_all); rfl]
    | 1 => simp [rawWord]
    | 2 => simp [rawWord, imageOf]
    | 3 => simp [rawWord]
    | 4 => rw [if_neg (by omega)]; rfl
    | _ + 5 => rw [if_neg (by omega)]; rfl
  | 1, _ =>
    simp only
    match a' with
    | 0 => simp [rawWord]
    | 1 => simp only [rawWord, true_and]; rw [tget_tset]; split <;> [(split <;> simp_all); rfl]
    | 2 => simp [rawWord, imageOf]
    | 3 => simp [rawWord]
    | 4 => rw [if_neg (by omega)]; rfl
    | _ + 5 => rw [if_neg (by omega)]; rfl
  | 2, _ =>
    simp only
    match a' with
    | 0 => simp [rawWord]
    | 1 => simp [rawWord]
    | 2 =>
      simp only [rawWord, true_and, imageOf, tfind_aput]
      by_cases h : n' / 2 = n / 2
      · rw [if_pos h]
        simp only [Option.getD_some]
        by_cases h1 : n % 2 = 1
        · rw [if_pos h1]
          by_cases h2 : n' % 2 = 1
          · rw [if_pos (by omega)]; simp [h2, halfOf_ofHalves]
          · rw [if_neg (by omega), h]
            simp only [show (n' % 2 == 1) = false by simpa using h2]
            exact (halfOf_ofHalves _ _).1
        · rw [if_neg h1]
          by_cases h2 : n' % 2 = 1
          · rw [if_neg (by omega), h]
            simp only [show (n' % 2 == 1) = true by simpa using h2]
            exact (halfOf_ofHalves _ _).2
          · rw [if_pos (by omega)]
            simp only [show (n' % 2 == 1) = false by simpa using h2]
            exact (halfOf_ofHalves _ _).1
      · rw [if_neg h, if_neg (by rintro rfl; exact h rfl)]
    | 3 => simp [rawWord]
    | 4 => rw [if_neg (show ¬(4 = 2 ∧ n' = n) by omega)]; rfl
    | m + 5 => rw [if_neg (show ¬(m + 5 = 2 ∧ n' = n) by omega)]; rfl
  | 3, _ =>
    have hp := h3 rfl
    simp only
    match a' with
    | 0 => simp [rawWord]
    | 1 => simp [rawWord]
    | 2 => simp [rawWord, imageOf]
    | 3 =>
      simp only [rawWord, true_and]
      by_cases h : n' = n
      · subst h; rw [if_pos hp, if_pos rfl, tget_tset]; simp only [if_true]; split <;> simp_all
      · rw [if_neg h]
        by_cases hq : n' / 4096 = c.p
        · rw [if_pos hq, if_pos hq, tget_tset_ne _ _ _ _ h]
        · rw [if_neg hq, if_neg hq]
    | 4 => rw [if_neg (by omega)]; rfl
    | _ + 5 => rw [if_neg (by omega)]; rfl

/-- What a store leaves alone. -/
theorem writeWord_keep (c : LCtx) (a n : Nat) (v : W16) :
    (writeWord c a n v).d = c.d ∧ (writeWord c a n v).x.forces = c.x.forces ∧ (writeWord c a n v).x.prog = c.x.prog ∧ (writeWord c a n v).x.slots = c.x.slots
      ∧ (writeWord c a n v).x.insts = c.x.insts ∧ (writeWord c a n v).x.keep = c.x.keep ∧ (writeWord c a n v).p = c.p
      ∧ (writeWord c a n v).t = { c.t with outs := (writeWord c a n v).t.outs, hw := (writeWord c a n v).t.hw } := by
  unfold writeWord
  simp only
  split <;> refine ⟨rfl, rfl, rfl, rfl, rfl, rfl, rfl, rfl⟩

theorem putBit16 (o : W16) (i j : Nat) (v : Bool) (hi : i < 16) :
    (if v then o ||| BitVec.ofNat 16 (2 ^ i) else o &&& ~~~BitVec.ofNat 16 (2 ^ i)).getLsbD j = if j = i then v else o.getLsbD j := by
  rw [show BitVec.ofNat 16 (2 ^ i) = BitVec.twoPow 16 i by apply BitVec.eq_of_toNat_eq; simp [BitVec.toNat_twoPow]]
  cases v
  · simp only [Bool.false_eq_true, if_false, BitVec.getLsbD_and, BitVec.getLsbD_not, BitVec.getLsbD_twoPow, hi, decide_true, Bool.true_and]
    by_cases h : j = i
    · subst h; simp
    · rw [if_neg h]
      by_cases hj : j < 16
      · simp [hj, Ne.symm h]
      · simp [hj]; exact BitVec.getLsbD_of_ge _ _ (by omega)
  · simp only [if_true, BitVec.getLsbD_or, BitVec.getLsbD_twoPow, hi, decide_true, Bool.true_and]
    by_cases h : j = i
    · subst h; simp
    · simp [h, Ne.symm h]

/-- A bit stored without forces reads back, and every other bit as before. -/
theorem readBit_writeBit (c : LCtx) (a n a' n' : Nat) (v : Bool) (ha : a < 4) (h3 : a = 3 → n / 65536 = c.p) (hf : c.x.forces = []) :
    readBit (writeBit c a n v) a' n' = if a' = a ∧ n' = n then v else readBit c a' n' := by
  have hw : writeBit c a n v = writeWord c a (n / 16) (if v then rawWord c a (n / 16) ||| BitVec.ofNat 16 (2 ^ (n % 16)) else rawWord c a (n / 16) &&& ~~~BitVec.ofNat 16 (2 ^ (n % 16))) := by
    unfold writeBit
    match a, ha with
    | 0, _ => rfl
    | 1, _ => rfl
    | 2, _ => rfl
    | 3, _ => rfl
  rw [hw]
  obtain ⟨k1, k2, k3, k4, k5, k6, k7, k8⟩ := writeWord_keep c a (n / 16) (if v then rawWord c a (n / 16) ||| BitVec.ofNat 16 (2 ^ (n % 16)) else rawWord c a (n / 16) &&& ~~~BitVec.ofNat 16 (2 ^ (n % 16)))
  have hraw := rawWord_writeWord c a (n / 16) a' (n' / 16) (if v then rawWord c a (n / 16) ||| BitVec.ofNat 16 (2 ^ (n % 16)) else rawWord c a (n / 16) &&& ~~~BitVec.ofNat 16 (2 ^ (n % 16))) ha
    (fun h => by have := h3 h; omega) hf
  generalize writeWord c a (n / 16) (if v then rawWord c a (n / 16) ||| BitVec.ofNat 16 (2 ^ (n % 16)) else rawWord c a (n / 16) &&& ~~~BitVec.ofNat 16 (2 ^ (n % 16))) = e at *
  have hrd : (forced e.x a' (n' / 16) (rawWord e a' (n' / 16))).getLsbD (n' % 16) = if a' = a ∧ n' = n then v else (forced c.x a' (n' / 16) (rawWord c a' (n' / 16))).getLsbD (n' % 16) := by
    rw [forced_none _ (k2.trans hf), forced_none _ hf, hraw]
    by_cases h : a' = a ∧ n' / 16 = n / 16
    · rw [if_pos h, putBit16 _ _ _ _ (Nat.mod_lt _ (by decide)), h.1, h.2]
      by_cases hb : n' % 16 = n % 16
      · rw [if_pos hb, if_pos ⟨rfl, by omega⟩]
      · rw [if_neg hb, if_neg (by rintro ⟨-, rfl⟩; exact hb rfl)]
    · rw [if_neg h, if_neg (by rintro ⟨p, rfl⟩; exact h ⟨p, rfl⟩)]
  match a' with
  | 0 => exact hrd
  | 1 => exact hrd
  | 2 => exact hrd
  | 3 => exact hrd
  | 4 =>
    rw [if_neg (by omega)]
    show (if n' % 2 = 0 then (slotIn e (n' / 2)).q else (slotIn e (n' / 2)).inp) = (if n' % 2 = 0 then (slotIn c (n' / 2)).q else (slotIn c (n' / 2)).inp)
    rw [show slotIn e (n' / 2) = slotIn c (n' / 2) by unfold slotIn slotOf; rw [k8, k4]]
  | 5 =>
    rw [if_neg (by omega)]
    show flagOf e n' = flagOf c n'
    unfold flagOf keepOf; rw [k8, k6]
  | m + 6 => exact hrd

theorem readWord_writeWord (c : LCtx) (a n a' n' : Nat) (v : W16) (ha : a < 4) (h3 : a = 3 → n / 4096 = c.p) (hf : c.x.forces = []) :
    readWord (writeWord c a n v) a' n' = if a' = a ∧ n' = n then v else readWord c a' n' := by
  unfold readWord
  rw [forced_none _ ((writeWord_keep c a n v).2.1.trans hf), forced_none _ hf, rawWord_writeWord c a n a' n' v ha h3 hf]

/-- A store runs: the module but for the processor stands as before. -/
theorem store_runs {d : Dev} {p : Nat} {t : TInst} {w : W32} {f : LCtx → W32 → LCtx} {c : LCtx} {o : Nat} (h : nextInsn d p = some (t, w)) (ho : opcodeOf w = o)
    (hf : f (logicCtx d p t w) w = c) (hd : c.d = d) : lpInsn o f d p = setLp d p (setInst c.x c.t) := by
  rw [lpInsn_runs f h ho, hf, hd]

/-- An instruction of a slot: the slot staged and LB from its result. -/
theorem logicSlotStep {d : Dev} {p : Nat} {t : TInst} {w : W32} {o cy : Nat} {r r' : Slot × Bool} {c : LCtx} (ho : opcodeOf w = o) (hc : opCycles o = cy)
    (hf : c = setLB (putSlot (logicCtx d p t w) (w.toNat % 8192) r.1) r.2) (hr : r = r') :
    c.t = { t with lb := r'.2, sl := aput t.sl (w.toNat % 8192) r'.1, pc := t.pc + 1, cyc := t.cyc + cy } := by
  subst hr; rw [hf, ← hc, ← ho]; rfl

theorem timerExec_ton (u : Slot) (lb : Bool) (n : Nat) (hk : u.kind = 1) (hi : u.init = false) :
    timerExec u lb n = ({ u with inp := lb, q := (lb && decide (u.preset.toNat ≤ min u.preset.toNat ((n - (if lb && !u.inp then (n : Int) else u.val).toNat) / unitBp u.base))), val := if lb && !u.inp then (n : Int) else u.val },
      lb && decide (u.preset.toNat ≤ min u.preset.toNat ((n - (if lb && !u.inp then (n : Int) else u.val).toNat) / unitBp u.base))) := by
  cases hl : lb <;> cases hu : u.inp <;> simp [timerExec, hk, hi, hl, hu, etOf]
theorem timerExec_tof (u : Slot) (lb : Bool) (n : Nat) (hk : u.kind = 2) (hi : u.init = false) :
    timerExec u lb n = ({ u with inp := lb, q := (lb || decide (min u.preset.toNat ((n - (if !lb && u.inp then (n : Int) else u.val).toNat) / unitBp u.base) < u.preset.toNat)), val := if !lb && u.inp then (n : Int) else u.val },
      lb || decide (min u.preset.toNat ((n - (if !lb && u.inp then (n : Int) else u.val).toNat) / unitBp u.base) < u.preset.toNat)) := by
  cases hl : lb <;> cases hu : u.inp <;> simp [timerExec, hk, hi, hl, hu, etOf]
theorem timerExec_tp (u : Slot) (lb : Bool) (n : Nat) (hk : u.kind = 3) (hi : u.init = false) :
    timerExec u lb n = ({ u with inp := lb, q := ((lb && !u.inp && !u.q || u.q) && decide (min u.preset.toNat ((n - (if lb && !u.inp && !u.q then (n : Int) else u.val).toNat) / unitBp u.base) < u.preset.toNat)), val := if lb && !u.inp && !u.q then (n : Int) else u.val },
      (lb && !u.inp && !u.q || u.q) && decide (min u.preset.toNat ((n - (if lb && !u.inp && !u.q then (n : Int) else u.val).toNat) / unitBp u.base) < u.preset.toNat)) := by
  cases hl : lb <;> cases hu : u.inp <;> cases hq : u.q <;> simp [timerExec, hk, hi, hl, hu, hq, etOf]
theorem counterExec_up (u : Slot) (lb : Bool) (hk : u.kind = 4) :
    counterExec u lb = ({ u with inp := lb, init := false, val := if lb && !(if u.init then lb else u.inp) then min (u.val + 1) 32767 else u.val },
      decide (u.preset ≤ if lb && !(if u.init then lb else u.inp) then min (u.val + 1) 32767 else u.val)) := by
  simp [counterExec, hk]
theorem counterExec_down (u : Slot) (lb : Bool) (hk : u.kind = 5) :
    counterExec u lb = ({ u with inp := lb, init := false, val := if lb && !(if u.init then lb else u.inp) then max (u.val - 1) (-32768) else u.val },
      decide ((if lb && !(if u.init then lb else u.inp) then max (u.val - 1) (-32768) else u.val) ≤ 0)) := by
  simp [counterExec, hk]
theorem edgeExec_facts (u : Slot) (lb : Bool) (r : Bool) (hk : (u.kind = 6 ∧ r = (lb && !u.inp)) ∨ (u.kind = 7 ∧ r = (u.inp && !lb))) :
    edgeExec u lb = ({ u with inp := lb, init := false }, !u.init && r) := by
  rcases hk with ⟨hk, rfl⟩ | ⟨hk, rfl⟩ <;> cases hi : u.init <;> simp [edgeExec, hk, hi]

end Sys2Proof.Machine
end

