-- ==== Sys2Proof/Laws/Lanes.lean ====
section
/-! SUPPORT. Recipe lanes: what halting, disarming and entering do; releases of entries and kept images. -/

namespace Sys2Proof.Machine

/-! ### Recipe lanes -/

theorem disarmSlot_keep {γ : Type} (P : Dev → γ) (hw : ∀ d a v, P (wr d a v) = P d) (hs : ∀ d l x, P (setLane d l x) = P d) (d : Dev) (l k : Nat) :
    P (disarmSlot d l k) = P d := by
  unfold disarmSlot wrBit
  simp only
  rw [hs]
  split
  · exact hw _ _ _
  · rfl
theorem disarmAll_keep {γ : Type} (P : Dev → γ) (hw : ∀ d a v, P (wr d a v) = P d) (hs : ∀ d l x, P (setLane d l x) = P d) (d : Dev) (l : Nat) :
    P (disarmAll d l) = P d := foldl_keep P _ _ (fun k _ d => disarmSlot_keep P hw hs d l k) d
theorem laneHalt_keep {γ : Type} (P : Dev → γ) (hw : ∀ d a v, P (wr d a v) = P d) (hs : ∀ d l x, P (setLane d l x) = P d) (d : Dev) (l : Nat) (st : LaneSt) :
    P (laneHalt d l st) = P d := by
  unfold laneHalt; rw [hs, disarmAll_keep P hw hs]

/-- A disarm changes the status words of the slots alone. -/
theorem rd_disarmAll (d : Dev) (l a : Nat) (h : ∀ k < 32, a ≠ SQ_SCH_STAT l k) : rd (disarmAll d l) a = rd d a := by
  refine foldl_keep (fun d => rd d a) _ _ ?_ d
  intro k hk d
  have := h k (List.mem_range.mp hk)
  unfold disarmSlot
  simp only [rd_setLane]
  split
  · exact rd_wrBit_ne _ _ _ this
  · rfl

theorem laneOf_disarmSlot (d : Dev) (l k : Nat) : laneOf (disarmSlot d l k) l = laneUnarm (laneOf d l) k := by
  unfold disarmSlot
  simp only [laneOf_setLane_same]
  split <;> simp

/-- A disarm keeps a lane but for its slots' arms. -/
theorem lane_disarmAll (d : Dev) (l : Nat) : ∃ t u w, laneOf (disarmAll d l) l = { laneOf d l with late := t, due := u, staged := w } := by
  unfold disarmAll
  have : ∀ (ks : List Nat) d, ∃ t u w, laneOf (ks.foldl (fun d k => disarmSlot d l k) d) l = { laneOf d l with late := t, due := u, staged := w } := by
    intro ks
    induction ks with
    | nil => intro d; exact ⟨_, _, _, rfl⟩
    | cons k t ih =>
      intro d
      obtain ⟨t, u, w, ht⟩ := ih (disarmSlot d l k)
      exact ⟨t, u, w, by rw [List.foldl_cons, ht, laneOf_disarmSlot]; rfl⟩
  exact this _ d

theorem slotArmed_disarmSlot (d : Dev) (l j k : Nat) (hk : k < 32) (hj : j < 32) : slotArmed (disarmSlot d l j) l k = (slotArmed d l k && decide (k ≠ j)) := by
  unfold disarmSlot slotArmed rdBit
  simp only [rd_setLane]
  by_cases h : k = j
  · subst h
    split
    · simp [wrBit, bit_putBit _ _ _ _ (by decide : 0 < 32)]
    · simp_all
  · split
    · rw [rd_wrBit_ne _ _ _ (by unfold SQ_SCH_STAT; omega)]; simp [h]
    · simp [h]

/-- After a disarm no slot is armed. -/
theorem slotArmed_disarmAll (d : Dev) (l k : Nat) (hk : k < 32) : slotArmed (disarmAll d l) l k = false := by
  unfold disarmAll
  have : ∀ (ks : List Nat) d, (∀ j ∈ ks, j < 32) → slotArmed (ks.foldl (fun d k => disarmSlot d l k) d) l k = (slotArmed d l k && decide (k ∉ ks)) := by
    intro ks
    induction ks with
    | nil => intro d _; simp
    | cons j t ih =>
      intro d h
      rw [List.foldl_cons, ih _ (fun x hx => h x (by simp [hx])), slotArmed_disarmSlot _ _ _ _ hk (h j (by simp))]
      by_cases h1 : k = j <;> by_cases h2 : k ∈ t <;> simp [h1, h2]
  rw [this _ d (fun j hj => List.mem_range.mp hj)]
  simp [hk]

theorem laneSafe_keep {γ : Type} (P : Dev → γ) (hp : ∀ d n v b, P (put2 d n v b) = P d) (d : Dev) (l : Nat) (b : Bool) : P (laneSafe d l b) = P d :=
  foldl_keep P _ _ (fun _ _ _ => hp _ _ _ _) d
theorem laneSafe_stage2 (d : Dev) (l : Nat) (b : Bool) :
    (laneSafe d l b).stage2 = d.stage2 ++ (laneOf d l).img.targets.map (fun t => ⟨t.n, t.safe, b⟩) := by
  unfold laneSafe
  generalize (laneOf d l).img.targets = ts
  induction ts generalizing d with
  | nil => simp
  | cons t ts ih => rw [List.foldl_cons, ih]; simp [put2]
theorem laneHalt_lane (d : Dev) (l : Nat) (st : LaneSt) : ∃ t u w, laneOf (laneHalt d l st) l =
    { laneOf d l with
      st := st, entry := none, limit := false, chained := false, mid := false, stack := [], crit := false, resume := none
      late := t, due := u, staged := w } := by
  obtain ⟨t, u, w, ht⟩ := lane_disarmAll d l
  exact ⟨t, u, w, by unfold laneHalt; rw [laneOf_setLane_same, ht]⟩
theorem rd_laneHalt (d : Dev) (l a : Nat) (st : LaneSt) (h : ∀ k < 32, a ≠ SQ_SCH_STAT l k) : rd (laneHalt d l st) a = rd d a := by
  unfold laneHalt; rw [rd_setLane, rd_disarmAll _ _ _ h]
theorem slotArmed_laneHalt (d : Dev) (l k : Nat) (st : LaneSt) (hk : k < 32) : slotArmed (laneHalt d l st) l k = false := by
  have := slotArmed_disarmAll d l k hk
  unfold laneHalt slotArmed rdBit at *; rw [rd_setLane]; exact this
theorem laneOf_laneSafe (d : Dev) (l : Nat) (b : Bool) (n : Nat) : laneOf (laneSafe d l b) n = laneOf d n :=
  laneSafe_keep (fun d => laneOf d n) (fun _ _ _ _ => rfl) d l b
theorem rd_laneSafe (d : Dev) (l : Nat) (b : Bool) (a : Nat) : rd (laneSafe d l b) a = rd d a :=
  laneSafe_keep (fun d => rd d a) (fun _ _ _ _ => by simp) d l b

/-- STOP and its like: LOADED, marker 0, slots disarmed, the targets' safe values staged. -/
theorem laneToLoaded_facts (d : Dev) (l : Nat) :
    (laneOf (laneToLoaded d l) l).st = .loaded ∧ (laneOf (laneToLoaded d l) l).img = (laneOf d l).img ∧ rd (laneToLoaded d l) (SQ_MARKER l) = 0
      ∧ (∀ k < 32, slotArmed (laneToLoaded d l) l k = false)
      ∧ (laneToLoaded d l).stage2 = d.stage2 ++ (laneOf d l).img.targets.map (fun t => ⟨t.n, t.safe, false⟩)
      ∧ rd (laneToLoaded d l) (pageBase (.sq l) + ERR_CODE) = rd d (pageBase (.sq l) + ERR_CODE) := by
  unfold laneToLoaded
  obtain ⟨t, u, w, ht⟩ := laneHalt_lane (laneSafe d l false) l .loaded
  refine ⟨?_, ?_, ?_, ?_, ?_, ?_⟩
  · simp [ht]
  · simp [ht, laneOf_laneSafe]
  · simp [w32]
  · intro k hk
    have := slotArmed_laneHalt (laneSafe d l false) l k .loaded hk
    unfold slotArmed rdBit at *
    rw [rd_wrN_ne _ _ (by unfold SQ_SCH_STAT SQ_MARKER; omega)]; exact this
  · rw [wrN_stage2, laneHalt_keep (·.stage2) (by simp) (by simp), laneSafe_stage2]
  · rw [rd_wrN_ne _ _ (by unfold pageBase SQ_MARKER ERR_CODE; simp only; omega), rd_laneHalt _ _ _ _ (by intro k _; unfold pageBase SQ_SCH_STAT ERR_CODE; simp only; omega), rd_laneSafe]

/-! ### Releases of entries -/

theorem rd_releaseAll (ns : List Nat) (d : Dev) (a : Nat) : rd (releaseAll d ns) a = rd d a :=
  foldl_keep (fun d => rd d a) release ns (fun _ _ _ => rd_congr rfl a) d

theorem attrOf_releaseAll (ns : List Nat) : ∀ (d : Dev) (n : Nat), attrOf (releaseAll d ns) n = if n ∈ ns then 0 else attrOf d n := by
  induction ns with
  | nil => intro d n; rfl
  | cons m t ih =>
    intro d n
    unfold releaseAll at *
    rw [List.foldl_cons, ih]
    have : attrOf (release d m) n = if n = m then 0 else attrOf d n := by
      simp only [attrOf, release, tget_tset]; split <;> simp
    rw [this]
    by_cases h1 : n ∈ t <;> by_cases h2 : n = m <;> simp [h1, h2]

theorem sigVal_releaseAll (ns : List Nat) : ∀ (d : Dev) (n : Nat), n ∉ ns → sigVal (releaseAll d ns) n = sigVal d n := by
  induction ns with
  | nil => intro d n _; rfl
  | cons m t ih =>
    intro d n h
    unfold releaseAll at *
    simp only [List.mem_cons, not_or] at h
    rw [List.foldl_cons, ih _ _ h.2]
    simp [sigVal, release, tget_tset_ne _ _ _ _ h.1]

theorem rd_disarmSlot (d : Dev) (l k a : Nat) (h : a ≠ SQ_SCH_STAT l k) : rd (disarmSlot d l k) a = rd d a := by
  unfold disarmSlot
  simp only [rd_setLane]
  split
  · exact rd_wrBit_ne _ _ _ h
  · rfl
theorem late_disarmSlot (d : Dev) (l k : Nat) : (laneOf (disarmSlot d l k) l).late.contains k = false := by
  rw [laneOf_disarmSlot]; simp [laneUnarm]
theorem st_disarmSlot (d : Dev) (l k : Nat) : (laneOf (disarmSlot d l k) l).st = (laneOf d l).st := by rw [laneOf_disarmSlot]; rfl

/-- An entry into a TIMED step without condition, actions and marker stays there. -/
theorem enter_still (d0 : Dev) (mk : List Nat) (l i : Nat) (d : Dev) (ch : Bool) (n : Nat) (hl : laneOf d l = laneOf d0 l)
    (hst : (laneOf d0 l).st = .running)
    (ht : (nth (laneOf d0 l).img.steps i default).kind = 1 ∧ (nth (laneOf d0 l).img.steps i default).condOp = 0
      ∧ (nth (laneOf d0 l).img.steps i default).acts = [] ∧ (nth (laneOf d0 l).img.steps i default).mark = 0) :
    rd (laneEnter mk l (n + 1) d i ch) (SQ_STEP l) = w32 ((nth (laneOf d0 l).img.steps i default).name * 65536 + i)
      ∧ rd (laneEnter mk l (n + 1) d i ch) (SQ_STEP_ID l) = w32 (nth (laneOf d0 l).img.steps i default).stepId
      ∧ rd (laneEnter mk l (n + 1) d i ch) (SQ_ELAPSED l) = 0 ∧ (laneOf (laneEnter mk l (n + 1) d i ch) l).st = .running
      ∧ (laneOf (laneEnter mk l (n + 1) d i ch) l).crit = false ∧ rd (laneEnter mk l (n + 1) d i ch) (SQ_MARKER l) = rd d (SQ_MARKER l)
      ∧ (laneEnter mk l (n + 1) d i ch).sig = d.sig ∧ (laneEnter mk l (n + 1) d i ch).stage2 = d.stage2 := by
  obtain ⟨h1, h2, h3, h4⟩ := ht
  have hm : laneMake d l i ch = wr64 (wrN (wrN (wrN (setLane d l { laneOf d0 l with entry := none, limit := false, chained := ch, mid := false, crit := false })
      (SQ_STEP l) ((nth (laneOf d0 l).img.steps i default).name * 65536 + i)) (SQ_STEP_ID l) (nth (laneOf d0 l).img.steps i default).stepId) (SQ_ELAPSED l) 0)
      (SQ_ENTRY_TT l) d.tt := by
    unfold laneMake stepActs
    simp only [hl, h1, h3, h4, List.zipIdx_nil, List.foldl_nil, if_true]
    simp
  have hg : entryGoes (laneMake d l i ch) mk l i = (laneMake d l i ch, none) := by
    have hlm : (laneOf (laneMake d l i ch) l).img = (laneOf d0 l).img := by rw [hm]; simp
    unfold entryGoes
    simp only [hlm, h1]
    have : condTrue (laneMake d l i ch) mk (nth (laneOf d0 l).img.steps i default) = false := by unfold condTrue; simp [h2]
    simp [this]
  have he : laneEnter mk l (n + 1) d i ch = laneMake d l i ch := by unfold laneEnter; simp [hg]
  rw [he, hm]
  refine ⟨?_, ?_, ?_, ?_, ?_, ?_, ?_, ?_⟩
  · rw [rd_wr64_ne, rd_wrN_ne, rd_wrN_ne, rd_wrN_same] <;> ((try unfold SQ_STEP at *); (try unfold SQ_ENTRY_TT at *); (try unfold SQ_ELAPSED at *); (try unfold SQ_STEP_ID at *); first | (unfold SQ_STEP; omega) | (unfold SQ_ENTRY_TT; omega) | (unfold SQ_ELAPSED; omega) | (unfold SQ_STEP_ID; omega) | omega)
  · rw [rd_wr64_ne, rd_wrN_ne, rd_wrN_same] <;> ((try unfold SQ_STEP at *); (try unfold SQ_ENTRY_TT at *); (try unfold SQ_ELAPSED at *); (try unfold SQ_STEP_ID at *); first | (unfold SQ_STEP; omega) | (unfold SQ_ENTRY_TT; omega) | (unfold SQ_ELAPSED; omega) | (unfold SQ_STEP_ID; omega) | omega)
  · rw [rd_wr64_ne, rd_wrN_same]
    · rfl
    all_goals ((try unfold SQ_STEP at *); (try unfold SQ_ENTRY_TT at *); (try unfold SQ_ELAPSED at *); (try unfold SQ_STEP_ID at *); first | (unfold SQ_STEP; omega) | (unfold SQ_ENTRY_TT; omega) | (unfold SQ_ELAPSED; omega) | (unfold SQ_STEP_ID; omega) | omega)
  · simp [hst]
  · simp
  · rw [rd_wr64_ne, rd_wrN_ne, rd_wrN_ne, rd_wrN_ne, rd_setLane] <;> ((try unfold SQ_MARKER at *); (try unfold SQ_STEP at *); (try unfold SQ_ENTRY_TT at *); (try unfold SQ_ELAPSED at *); (try unfold SQ_STEP_ID at *); first | (unfold SQ_MARKER; omega) | (unfold SQ_STEP; omega) | (unfold SQ_ENTRY_TT; omega) | (unfold SQ_ELAPSED; omega) | (unfold SQ_STEP_ID; omega) | omega)
  · simp
  · simp

theorem mk64_lo_hi (v : Nat) (h : v < 2 ^ 64) : mk64 (lo64 v) (hi64 v) = v := by
  unfold mk64 lo64 hi64 w32; simp only [BitVec.toNat_ofNat]; omega

theorem rd64_armed (d : Dev) (l k : Nat) (x : Lane) :
    rd64 (setLane (wrN d (SQ_SCH_STAT l k) 1) l x) (SQ_SCH_TIME l k) = rd64 d (SQ_SCH_TIME l k) := by
  unfold rd64
  rw [rd_setLane, rd_setLane, rd_wrN_ne _ _ (by unfold SQ_SCH_TIME SQ_SCH_STAT; omega), rd_wrN_ne _ _ (by unfold SQ_SCH_TIME SQ_SCH_STAT; omega)]

/-- The lane with slot k armed for a due time. -/
def armed (x : Lane) (k t : Nat) : Lane := { laneUnarm x k with due := tset 0 (laneUnarm x k).due k t }

/-- A slot armed in time waits for its time. -/
theorem armSlot_ontime (d : Dev) (l k : Nat) (h : d.tt + 10000 < rd64 d (SQ_SCH_TIME l k)) :
    armSlot d l k = setLane (wrN d (SQ_SCH_STAT l k) 1) l (armed (laneOf d l) k (rd64 d (SQ_SCH_TIME l k))) := by
  unfold armSlot
  simp only [setLane_tt, wrN_tt]
  rw [if_neg (by omega)]; rfl
/-- A slot armed too late is judged at once. -/
theorem armSlot_late (d : Dev) (l k : Nat) (h : rd64 d (SQ_SCH_TIME l k) ≤ d.tt + 10000) :
    armSlot d l k = lateAction (setLane (wrN d (SQ_SCH_STAT l k) 1) l (armed (laneOf d l) k (rd64 d (SQ_SCH_TIME l k)))) l k := by
  unfold armSlot
  simp only [setLane_tt, wrN_tt]
  rw [if_pos (by omega)]; rfl

/-- What a late action does: it counts, names the slot, keeps the due time for the next tick and drops the slot or leaves it to that
tick. -/
theorem lateAction_facts (d : Dev) (l k : Nat) (hk : k < 32) :
    rd (lateAction d l k) (SQ_LATE_CNT l) = rd d (SQ_LATE_CNT l) + 1 ∧ rd (lateAction d l k) (SQ_LATE_SLOT l) = w32 (k + 256 * b2n (latePol d l k))
      ∧ rd (lateAction d l k) (SQ_SCH_STAT l k) = w32 (if latePol d l k then 4 else 1)
      ∧ laneOf (lateAction d l k) l = { laneOf d l with
          lateT := some (slotT d l k)
          late := if latePol d l k then (laneOf d l).late.filter (· != k) else (laneOf d l).late.filter (· != k) ++ [k] }
      ∧ (lateAction d l k).sig = d.sig := by
  unfold lateAction
  refine ⟨?_, ?_, ?_, ?_, ?_⟩
  · rw [rd_setLane, rd_wrN_ne, rd_wrN_ne, rd_bump_same] <;> (unfold SQ_LATE_CNT; first | (unfold SQ_SCH_STAT; omega) | (unfold SQ_LATE_SLOT; omega))
  · rw [rd_setLane, rd_wrN_ne, rd_wrN_same]; unfold SQ_SCH_STAT SQ_LATE_SLOT; omega
  · rw [rd_setLane, rd_wrN_same]
  · rw [laneOf_setLane_same]; rfl
  · simp

/-! ### Kept images -/
theorem rd_dirPut (d : Dev) (p : Page) (b t n : Nat) (h : List W8) (a : Nat) : rd (dirPut d p b t n h) a = rd d a := rd_congr (by unfold dirPut; rfl) a
theorem rd_keepImage (p : Page) (b t : Nat) (c : List W8) (n : Nat) (ok : Bool) (d : Dev) (a : Nat) : rd (keepImage p b t c n ok d) a = rd d a := by
  unfold keepImage; split
  · exact rd_dirPut _ _ _ _ _ _ _
  · rfl
theorem lanes_keepImage (p : Page) (b t : Nat) (c : List W8) (n : Nat) (ok : Bool) (d : Dev) : (keepImage p b t c n ok d).lanes = d.lanes := by
  unfold keepImage; split
  · unfold dirPut; rfl
  · rfl
theorem lps_keepImage (p : Page) (b t : Nat) (c : List W8) (n : Nat) (ok : Bool) (d : Dev) : (keepImage p b t c n ok d).lps = d.lps := by
  unfold keepImage; split
  · unfold dirPut; rfl
  · rfl
theorem pls_keepImage (p : Page) (b t : Nat) (c : List W8) (n : Nat) (ok : Bool) (d : Dev) : (keepImage p b t c n ok d).pls = d.pls := by
  unfold keepImage; split
  · unfold dirPut; rfl
  · rfl

end Sys2Proof.Machine
end

