-- ==== Sys2Proof/Laws/Loops.lean ====
section
/-! SUPPORT. Loop tiles and cells: group commands, compensation tables, claims and configuration fields. -/

namespace Sys2Proof.Machine

/-! ### Loop tiles and cells -/

theorem lcBase_inj (t c c' : Nat) (h : c < 32) (h' : c' < 32) (x : Nat) : lcBase (32 * t + c) + x = lcBase (32 * t + c') + x ↔ c = c' := by
  unfold lcBase
  rw [show (32 * t + c) / 32 = t by omega, show (32 * t + c') / 32 = t by omega]; omega

/-- A group command writes RUN of the masked cells. -/
theorem ltGroup_run (d : Dev) (t : Nat) (on : Bool) (c : Nat) (hc : c < 32) :
    runBit (ltGroup d t on) (.lc (32 * t + c)) = (if rdBit d (LT_GRP_MASK t) c then on else runBit d (.lc (32 * t + c))) := by
  unfold ltGroup
  have hl : ∀ x ∈ (List.range 32).filter (fun c => rdBit d (LT_GRP_MASK t) c), x < 32 := fun x hx => List.mem_range.mp (List.mem_filter.mp hx).1
  have hm : (c ∈ (List.range 32).filter (fun c => rdBit d (LT_GRP_MASK t) c)) ↔ rdBit d (LT_GRP_MASK t) c = true := by simp [hc]
  generalize (List.range 32).filter (fun c => rdBit d (LT_GRP_MASK t) c) = l at hl hm
  have key : ∀ (l : List Nat) (e : Dev), (∀ x ∈ l, x < 32) →
      runBit (l.foldl (fun d c => wrBit d (lcBase (32 * t + c) + BLK_CTRL) 0 on) e) (.lc (32 * t + c)) = (if c ∈ l then on else runBit e (.lc (32 * t + c))) := by
    intro l
    induction l with
    | nil => intro e _; simp
    | cons x l ih =>
      intro e hx
      rw [List.foldl_cons, ih _ (fun y hy => hx y (by simp [hy]))]
      have hx0 := hx x (by simp)
      have : runBit (wrBit e (lcBase (32 * t + x) + BLK_CTRL) 0 on) (.lc (32 * t + c)) = if c = x then on else runBit e (.lc (32 * t + c)) := by
        unfold runBit rdBit wrBit
        have hp : pageBase (.lc (32 * t + c)) = lcBase (32 * t + c) := rfl
        rw [hp, rd_wr]
        by_cases h : c = x
        · subst h; simp [bit_putBit _ _ _ _ (by decide : 0 < 32)]
        · rw [if_neg (by rw [lcBase_inj t c x hc hx0]; exact h), if_neg h]
      rw [this]
      by_cases h1 : c ∈ l <;> by_cases h2 : c = x <;> simp [h1, h2]
  rw [key l d hl]
  by_cases h : rdBit d (LT_GRP_MASK t) c = true
  · rw [if_pos h, if_pos (hm.mpr h)]
  · rw [if_neg h, if_neg (by rw [hm]; exact h)]

theorem rd_ltGroup (d : Dev) (t : Nat) (on : Bool) (a : Nat) (h : a < ltBase t + 0x1000) : rd (ltGroup d t on) a = rd d a := by
  unfold ltGroup
  refine foldl_keep (fun d => rd d a) _ _ ?_ d
  intro c hc d
  have : c < 32 := List.mem_range.mp (List.mem_filter.mp hc).1
  exact rd_wrBit_ne _ _ _ (by unfold lcBase BLK_CTRL; rw [show (32 * t + c) / 32 = t by omega]; omega)

/-! ### Compensation tables -/

theorem ctabV_setCtab (d : Dev) (k n : Nat) (v : Int) (h : -32768 ≤ v ∧ v ≤ 32767) : ctabV (setCtab d k v) n = if n = k then v else ctabV d n := by
  unfold ctabV setCtab
  simp only [tget_tset]
  split
  · have : (BitVec.ofInt 16 v).toInt = v := by
      rw [BitVec.toInt_ofInt]; exact Int.bmod_eq_of_le (by simp; omega) (by simp; omega)
    split
    · rename_i h0; rw [h0] at this; exact this
    · exact this
  · rfl
theorem ctabV_range (d : Dev) (n : Nat) : -32768 ≤ ctabV d n ∧ ctabV d n ≤ 32767 := by
  unfold ctabV
  generalize tget 0 d.ctab n = x
  have h1 := BitVec.le_toInt x
  have h2 := BitVec.toInt_lt (x := x)
  simp only [Nat.add_one_sub_one] at h1 h2
  norm_num at h1 h2; omega
theorem sgn16_range (n : Nat) : -32768 ≤ sgn 16 n ∧ sgn 16 n ≤ 32767 := by
  unfold sgn; simp only; split <;> omega

/-- A table copied into another that it does not meet. -/
theorem copy_ctab (n : Nat) (src dst : Nat → Nat) (hd : ∀ e < n, ∀ e' < n, dst e = dst e' → e = e') (hs : ∀ e < n, ∀ e' < n, src e ≠ dst e')
    (d : Dev) : (∀ e < n, ctabV ((List.range n).foldl (fun d e => setCtab d (dst e) (ctabV d (src e))) d) (dst e) = ctabV d (src e))
      ∧ ∀ k, (∀ e < n, k ≠ dst e) → ctabV ((List.range n).foldl (fun d e => setCtab d (dst e) (ctabV d (src e))) d) k = ctabV d k := by
  induction n with
  | zero => simp
  | succ n ih =>
    obtain ⟨i1, i2⟩ := ih (fun e he e' he' => hd e (by omega) e' (by omega)) (fun e he e' he' => hs e (by omega) e' (by omega))
    rw [List.range_succ, List.foldl_append, List.foldl_cons, List.foldl_nil]
    generalize (List.range n).foldl (fun d e => setCtab d (dst e) (ctabV d (src e))) d = x at *
    have hx : ctabV x (src n) = ctabV d (src n) := i2 _ (fun e he => hs n (by omega) e (by omega))
    constructor
    · intro e he
      rw [ctabV_setCtab _ _ _ _ (ctabV_range _ _)]
      by_cases h : dst e = dst n
      · have := hd e he n (by omega) h; subst this; rw [if_pos rfl, hx]
      · rw [if_neg h]
        have : e ≠ n := fun hh => h (by rw [hh])
        exact i1 e (by omega)
    · intro k hk
      rw [ctabV_setCtab _ _ _ _ (ctabV_range _ _), if_neg (hk n (by omega))]
      exact i2 k (fun e he => hk e (by omega))

theorem rd_copy (l : List Nat) (f : Nat → Nat) (g : Dev → Nat → Int) (d : Dev) (a : Nat) : rd (l.foldl (fun d e => setCtab d (f e) (g d e)) d) a = rd d a :=
  foldl_keep (fun d => rd d a) (fun d e => setCtab d (f e) (g d e)) l (fun _ _ _ => rd_congr rfl a) d

theorem cells_copy (l : List Nat) (f : Nat → Nat) (g : Dev → Nat → Int) (d : Dev) : l.foldl (fun d e => setCtab d (f e) (g d e)) d = { d with ctab := (l.foldl (fun d e => setCtab d (f e) (g d e)) d).ctab } := by
  induction l generalizing d with
  | nil => rfl
  | cons x l ih => rw [List.foldl_cons, ih]; rfl

/-- A claim reads back. -/
theorem attrOf_claim (d : Dev) (n m c i : Nat) (w : Bool) (v : W32) : attrOf (claim d n c i w v) m = if m = n then attrWord c i w else attrOf d m := by
  simp only [attrOf, claim, tget_tset]; split
  · split <;> simp_all
  · rfl
theorem sigVal_claim (d : Dev) (n m c i : Nat) (w : Bool) (v : W32) : sigVal (claim d n c i w v) m = if m = n then sigForm w v else sigVal d m := by
  simp only [sigVal, claim, tget_tset]; split
  · split <;> simp_all
  · rfl
theorem rd_claim (d : Dev) (n c i : Nat) (w : Bool) (v : W32) (a : Nat) : rd (claim d n c i w v) a = rd d a := rd_congr rfl a

/-! ### Configuration writes -/

theorem fldCode_any (hi lo : Nat) (v : W32) : fldCode (anyF hi lo) v = none := by
  have : fld v hi lo < 2 ^ (hi - lo + 1) := by rw [fld_eq]; exact Nat.mod_lt _ (Nat.two_pow_pos _)
  unfold fldCode anyF
  simp only
  rw [if_neg (by omega), if_neg (by omega)]
theorem fldCode_max (hi lo m : Nat) (v : W32) (h : fld v hi lo ≤ m) : fldCode (maxF hi lo m) v = none := by
  unfold fldCode maxF
  simp only
  rw [if_neg (by omega), if_neg (by omega)]
/-- A routing register takes a sound value, and the entries change hands. -/
theorem routePut_ok {d e : Dev} {p : Page} {a cls inst : Nat} {fs : List Fld} {v : W32} {c : Option Nat} {old : List Nat} {new : List (Nat × Bool × W32)}
    (hc : c = none) (hf : badField fs v = none) (hr : reroute d cls inst old new = some e) :
    routePut d p a fs v [c] [] cls inst old new = wr e a (onlyFlds fs v) := by
  subst hc
  simp only [routePut, List.cons_append, List.nil_append, List.append_nil, hf, hr, firstOf]
/-- What the two fields of a routing register leave of a word with EN set. -/
theorem onlyFlds_route (n hi m : Nat) (h : fld (w32 (65536 + n)) hi 0 = n) (h' : fld (w32 (65536 + n)) 16 16 = 1) :
    onlyFlds [⟨hi, 0, 0, m⟩, anyF 16 16] (w32 (65536 + n)) = w32 (65536 + n) := by
  have e : ∀ w : W32, fld w hi 0 = n → fld w 16 16 = 1 → onlyFlds [⟨hi, 0, 0, m⟩, anyF 16 16] w = w32 (0 + n * 2 ^ 0 + 1 * 2 ^ 16) := by
    intro w h1 h2
    have : onlyFlds [⟨hi, 0, 0, m⟩, anyF 16 16] w = w32 (0 + fld w hi 0 * 2 ^ 0 + fld w 16 16 * 2 ^ 16) := rfl
    rw [this, h1, h2]
  refine (e _ h h').trans ?_
  have : ∀ a b : Nat, a = b → w32 a = w32 b := fun a b h => by rw [h]
  exact this _ _ (by omega)
theorem bit16_w32 (n : Nat) (h : n < 32768) : bit (w32 (65536 + n)) 16 = true ∧ fld (w32 (65536 + n)) 14 0 = n ∧ fld (w32 (65536 + n)) 16 16 = 1 := by
  refine ⟨?_, ?_, ?_⟩
  · rw [bit_eq, w32, BitVec.toNat_ofNat, Nat.mod_eq_of_lt (by omega), Nat.testBit_eq_decide_div_mod_eq]; simp; omega
  · rw [fld_w32 _ _ _ (by decide) (by decide)]; simp; omega
  · rw [fld_w32 _ _ _ (by decide) (by decide)]; simp; omega

end Sys2Proof.Machine
end

