-- ==== Sys2Proof/Laws/Field.lean ====
section
/-! SUPPORT. Converter cores, analog outputs and digital pins: what their shared operations do. -/

namespace Sys2Proof.Machine

/-! ### Converter cores -/

theorem chOf_setCh (d : Dev) (k n j m : Nat) (c : AcCh) : chOf (setCh d k n c) j m = if j = k ∧ m = n then c else chOf d j m := by
  unfold chOf setCh
  rw [coreOf_setCore]
  by_cases hj : j = k
  · subst hj
    by_cases hm : m = n
    · subst hm; simp
    · simp [hm, tget_tset_ne]
  · simp [hj]

@[simp] theorem rd_setCh (d : Dev) (k n r : Nat) (c : AcCh) : rd (setCh d k n c) r = rd d r := by unfold setCh; simp

/-- A change of a channel keeps the rest of its core. -/
theorem coreOf_setCh (d : Dev) (k n j : Nat) (c : AcCh) : coreOf (setCh d k n c) j = { coreOf d j with chans := (coreOf (setCh d k n c) j).chans } := by
  unfold setCh
  rw [coreOf_setCore]
  split
  · next h => subst h; rfl
  · rfl

/-- A shadow taken: the active sequence is the shadow's, its length AC_SEQ_LEN. -/
theorem rd_takeShadow (d : Dev) (k w : Nat) (hw : w < 16) : rd (takeShadow d k) (AC_SEQA k w) = rd d (AC_SEQ k w) := by
  unfold takeShadow
  simp only [rd_setCore]
  have key : ∀ l : List Nat, (∀ i ∈ l, i < 16) → ∀ e : Dev, (∀ i, i < 16 → rd e (AC_SEQ k i) = rd d (AC_SEQ k i)) →
      (w ∈ l ∨ rd e (AC_SEQA k w) = rd d (AC_SEQ k w)) →
      rd (l.foldl (fun d i => wr d (AC_SEQA k i) (rd d (AC_SEQ k i))) e) (AC_SEQA k w) = rd d (AC_SEQ k w) := by
    intro l
    induction l with
    | nil => intro _ e _ h; simpa using h
    | cons i t ih =>
      intro hl e he h
      rw [List.foldl_cons]
      have hi := hl i (List.mem_cons_self ..)
      refine ih (fun j hj => hl j (List.mem_cons_of_mem _ hj)) _ ?_ ?_
      · intro j hj
        rw [rd_wr_ne _ _ (by unfold AC_SEQ AC_SEQA; omega)]
        exact he j hj
      · by_cases hwi : w = i
        · right; subst hwi; rw [rd_wr_same, he w hw]
        · rcases h with h | h
          · left; simpa [hwi] using h
          · right; rw [rd_wr_ne _ _ (by unfold AC_SEQA; omega)]; exact h
  exact key _ (by intro i hi; simpa using hi) d (fun _ _ => rfl) (Or.inl (by simpa using hw))

theorem coreOf_takeShadow (d : Dev) (k : Nat) :
    coreOf (takeShadow d k) k = { coreOf d k with len := fld (rd d (AC_SEQ_LEN k)) 6 0, pos := 0, pend := false } := by
  have h := fun (P : Dev → Core) (hp : ∀ d a v, P (wr d a v) = P d) => foldl_keep P (fun d w => wr d (AC_SEQA k w) (rd d (AC_SEQ k w))) (List.range 16)
    (fun _ _ _ => hp _ _ _) d
  have h1 := h (fun d => coreOf d k) (fun _ _ _ => coreOf_wr _ _ _ _)
  have h2 : rd ((List.range 16).foldl (fun d w => wr d (AC_SEQA k w) (rd d (AC_SEQ k w))) d) (AC_SEQ_LEN k) = rd d (AC_SEQ_LEN k) :=
    foldl_keep (fun d => rd d (AC_SEQ_LEN k)) _ _ (fun w _ d => rd_wr_ne _ _ (by unfold AC_SEQ_LEN AC_SEQA; omega)) d
  unfold takeShadow
  simp only [coreOf_setCore_same]
  rw [h2, h1]

/-- What a choice of the largest, taken from a list, finds. -/
theorem best_spec (sl : List Slice) (l : List Nat) : ∀ b : Option (Nat × Nat),
    (∀ p, b = some p → (nth sl p.1 default).role = .active ∧ (nth sl p.1 default).periods = p.2) →
    let r := l.foldl (fun b i =>
      let s := nth sl i default
      if s.role ≠ .active then b else match b with
        | some (j, q) => if q < s.periods then some (i, s.periods) else some (j, q)
        | none => some (i, s.periods)) b
    (∀ p, r = some p → (nth sl p.1 default).role = .active ∧ (nth sl p.1 default).periods = p.2)
      ∧ (∀ q, b = some q → ∃ p, r = some p ∧ q.2 ≤ p.2)
      ∧ (∀ i ∈ l, (nth sl i default).role = .active → ∃ p, r = some p ∧ (nth sl i default).periods ≤ p.2) := by
  induction l with
  | nil => intro b hb; exact ⟨hb, fun q hq => ⟨q, hq, Nat.le_refl _⟩, by simp⟩
  | cons i t ih =>
    intro b hb
    simp only [List.foldl_cons]
    have step : ∀ b', (∀ p, b' = some p → (nth sl p.1 default).role = .active ∧ (nth sl p.1 default).periods = p.2) →
        (∀ q, b = some q → ∃ p, b' = some p ∧ q.2 ≤ p.2) →
        ((nth sl i default).role = .active → ∃ p, b' = some p ∧ (nth sl i default).periods ≤ p.2) →
        (let r := t.foldl (fun b i =>
          let s := nth sl i default
          if s.role ≠ .active then b else match b with
            | some (j, q) => if q < s.periods then some (i, s.periods) else some (j, q)
            | none => some (i, s.periods)) b'
        (∀ p, r = some p → (nth sl p.1 default).role = .active ∧ (nth sl p.1 default).periods = p.2)
          ∧ (∀ q, b = some q → ∃ p, r = some p ∧ q.2 ≤ p.2)
          ∧ (∀ j ∈ i :: t, (nth sl j default).role = .active → ∃ p, r = some p ∧ (nth sl j default).periods ≤ p.2)) := by
      intro b' h1 h2 h3
      obtain ⟨r1, r2, r3⟩ := ih b' h1
      refine ⟨r1, ?_, ?_⟩
      · intro q hq; obtain ⟨p, hp, hle⟩ := h2 q hq; obtain ⟨p', hp', hle'⟩ := r2 p hp; exact ⟨p', hp', Nat.le_trans hle hle'⟩
      · intro j hj hr
        rcases List.mem_cons.mp hj with rfl | hj
        · obtain ⟨p, hp, hle⟩ := h3 hr; obtain ⟨p', hp', hle'⟩ := r2 p hp; exact ⟨p', hp', Nat.le_trans hle hle'⟩
        · exact r3 j hj hr
    refine step _ ?_ ?_ ?_
    · intro p hp
      (try simp only at hp)
      split at hp
      · exact hb p hp
      · next ha =>
        split at hp
        · next j q =>
          split at hp
          · cases hp; exact ⟨by simpa using ha, rfl⟩
          · exact hb p hp
        · cases hp; exact ⟨by simpa using ha, rfl⟩
    · intro q hq
      (try simp only)
      split
      · exact ⟨q, hq, Nat.le_refl _⟩
      · subst hq
        simp only
        split
        · next h => exact ⟨_, rfl, Nat.le_of_lt h⟩
        · exact ⟨_, rfl, Nat.le_refl _⟩
    · intro hr
      simp only [hr, ne_eq, not_true_eq_false, if_false]
      split
      · next j q =>
        split
        · exact ⟨_, rfl, Nat.le_refl _⟩
        · next h => exact ⟨_, rfl, Nat.not_lt.mp h⟩
      · exact ⟨_, rfl, Nat.le_refl _⟩

@[simp] theorem chOf_wr (d : Dev) (r : Nat) (v : W32) (j m : Nat) : chOf (wr d r v) j m = chOf d j m := by simp [chOf]
@[simp] theorem chOf_wrBit (d : Dev) (r i : Nat) (b : Bool) (j m : Nat) : chOf (wrBit d r i b) j m = chOf d j m := by simp [chOf]

/-- A result's open-wire count changes its channel and AC_OPEN, nothing else. -/
theorem owResult_keep {γ : Type} (P : Dev → γ) (d : Dev) (k n : Nat) (v : Int) (h1 : ∀ d c, P (setCh d k n c) = P d)
    (h2 : ∀ d b, P (wrBit d (AC_OPEN k) n b) = P d) : P (owResult d k n v) = P d := by
  unfold owResult setOpen
  simp only
  split
  · split
    · exact h1 _ _
    · split <;> simp only [h1, h2]
  · split
    · exact h1 _ _
    · rfl
  · split
    · simp only [h1, h2]
    · rfl
theorem owResult_settling (d : Dev) (k n : Nat) (v : Int) : (chOf (owResult d k n v) k n).settling = (chOf d k n).settling := by
  unfold owResult setOpen
  simp only
  split
  · split
    · simp [chOf_setCh]
    · split <;> simp [chOf_setCh]
  · split
    · simp [chOf_setCh]
    · rfl
  · split
    · simp [chOf_setCh]
    · rfl

/-- A captured result changes the ring in memory, its write offset or its drop counter, and the burst. -/
theorem capPut_rd (d : Dev) (k : Nat) (w : W32) (t a : Nat) (h : a ≠ AC_CAP_WR k) (h' : a ≠ AC_CAP_DROP_CNT k) : rd (capPut d k w t) a = rd d a := by
  unfold capPut
  simp only
  split
  · rfl
  · split
    · simp
    · split
      · rw [rd_wr_ne _ _ h', rd_setCore]
      · rw [rd_wrN_ne _ _ h]; unfold rd; simp
theorem capPut_keep {γ : Type} (P : Dev → γ) (d : Dev) (k : Nat) (w : W32) (t : Nat)
    (h1 : ∀ b u, P (setCore d k { coreOf d k with burst := b, burstTb := u }) = P d) (h2 : ∀ d a v, P (wr d a v) = P d)
    (h3 : ∀ d m, P { d with sram := m } = P d) : P (capPut d k w t) = P d := by
  unfold capPut wrN
  simp only
  split
  · rfl
  · split
    · exact h1 _ _
    · split
      · rw [h2]; exact h1 _ _
      · rw [h2, h3]; exact h1 _ _
theorem capPut_flight (d : Dev) (k : Nat) (w : W32) (t j : Nat) : (coreOf (capPut d k w t) j).flight = (coreOf d j).flight :=
  capPut_keep (fun d => (coreOf d j).flight) d k w t (fun b u => by rw [coreOf_setCore]; split <;> simp_all) (fun _ _ _ => by simp) (fun _ _ => rfl)
theorem capPut_chOf (d : Dev) (k : Nat) (w : W32) (t j m : Nat) : chOf (capPut d k w t) j m = chOf d j m :=
  capPut_keep (fun d => chOf d j m) d k w t (fun b u => by unfold chOf; rw [coreOf_setCore]; split <;> simp_all) (fun _ _ _ => by simp) (fun _ _ => rfl)
theorem capPut_stage1 (d : Dev) (k : Nat) (w : W32) (t : Nat) : (capPut d k w t).stage1 = d.stage1 :=
  capPut_keep (·.stage1) d k w t (fun b u => by simp) (fun _ _ _ => by simp) (fun _ _ => rfl)
theorem capPut_sig (d : Dev) (k : Nat) (w : W32) (t : Nat) : (capPut d k w t).sig = d.sig :=
  capPut_keep (·.sig) d k w t (fun b u => by simp) (fun _ _ _ => by simp) (fun _ _ => rfl)

/-- The last part of a delivery: channel, AC_CH_LAST, AC_OVR and the capture. -/
theorem result_tail (d : Dev) (k n : Nat) (y : AcCh) (w : W32) (ov c : Bool) (tb : Nat) :
    rd (if c = true then capPut (wrBit (wr (setCh d k n y) (AC_CH_LAST k n) w) (AC_OVR k) n ov) k w tb
        else wrBit (wr (setCh d k n y) (AC_CH_LAST k n) w) (AC_OVR k) n ov) (AC_CH_LAST k n) = w
      ∧ (∀ j, (coreOf (if c = true then capPut (wrBit (wr (setCh d k n y) (AC_CH_LAST k n) w) (AC_OVR k) n ov) k w tb
        else wrBit (wr (setCh d k n y) (AC_CH_LAST k n) w) (AC_OVR k) n ov) j).flight = (coreOf d j).flight)
      ∧ (if c = true then capPut (wrBit (wr (setCh d k n y) (AC_CH_LAST k n) w) (AC_OVR k) n ov) k w tb
        else wrBit (wr (setCh d k n y) (AC_CH_LAST k n) w) (AC_OVR k) n ov).stage1 = d.stage1
      ∧ (if c = true then capPut (wrBit (wr (setCh d k n y) (AC_CH_LAST k n) w) (AC_OVR k) n ov) k w tb
        else wrBit (wr (setCh d k n y) (AC_CH_LAST k n) w) (AC_OVR k) n ov).sig = d.sig
      ∧ (chOf (if c = true then capPut (wrBit (wr (setCh d k n y) (AC_CH_LAST k n) w) (AC_OVR k) n ov) k w tb
        else wrBit (wr (setCh d k n y) (AC_CH_LAST k n) w) (AC_OVR k) n ov) k n).open_ = y.open_ := by
  have hl : rd (wrBit (wr (setCh d k n y) (AC_CH_LAST k n) w) (AC_OVR k) n ov) (AC_CH_LAST k n) = w := by
    rw [rd_wrBit_ne _ _ _ (by ((try unfold AC_OVR at *); first | (unfold AC_CH_LAST; omega) | omega)), rd_wr_same]
  have hc : ∀ j, (coreOf (wrBit (wr (setCh d k n y) (AC_CH_LAST k n) w) (AC_OVR k) n ov) j).flight = (coreOf d j).flight := by
    intro j; rw [coreOf_wrBit, coreOf_wr, coreOf_setCh]
  split
  · rw [capPut_rd _ _ _ _ _ (by ((try unfold AC_CAP_WR at *); first | (unfold AC_CH_LAST; omega) | omega)) (by ((try unfold AC_CAP_DROP_CNT at *); first | (unfold AC_CH_LAST; omega) | omega)), capPut_stage1, capPut_sig, capPut_chOf]
    exact ⟨hl, fun j => by rw [capPut_flight, hc], by simp [setCh], by simp [setCh], by simp [chOf_setCh]⟩
  · exact ⟨hl, hc, by simp [setCh], by simp [setCh], by simp [chOf_setCh]⟩

/-! ### Open-wire pulses -/

/-- The same change to every listed channel, where repeating it does nothing. -/
theorem mapChans (f : AcCh → AcCh) (hf : ∀ c, f (f c) = f c) (l : List (Nat × Nat)) : ∀ (d : Dev) (j m : Nat),
    ((j, m) ∈ l → chOf (l.foldl (fun d e => setCh d e.1 e.2 (f (chOf d e.1 e.2))) d) j m = f (chOf d j m))
      ∧ ((j, m) ∉ l → chOf (l.foldl (fun d e => setCh d e.1 e.2 (f (chOf d e.1 e.2))) d) j m = chOf d j m) := by
  induction l with
  | nil => intro d j m; simp
  | cons e t ih =>
    intro d j m
    rw [List.foldl_cons]
    obtain ⟨i1, i2⟩ := ih (setCh d e.1 e.2 (f (chOf d e.1 e.2))) j m
    constructor
    · intro h
      by_cases ht : (j, m) ∈ t
      · rw [i1 ht, chOf_setCh]; split
        · next he => rw [he.1, he.2, hf]
        · rfl
      · have he : j = e.1 ∧ m = e.2 := by
          rcases List.mem_cons.mp h with h | h
          · simp [← h]
          · exact absurd h ht
        rw [i2 ht, chOf_setCh, if_pos he, he.1, he.2]
    · intro h
      have h1 := List.mem_cons.not.mp h
      rw [i2 (fun hh => h1 (Or.inr hh)), chOf_setCh, if_neg]
      rintro ⟨rfl, rfl⟩; exact h1 (Or.inl rfl)

theorem pulse_only (f : Dev → Nat × Nat → Dev) (l : List (Nat × Nat)) (h : ∀ d e, f d e = { d with cores := (f d e).cores }) :
    ∀ d, l.foldl f d = { d with cores := (l.foldl f d).cores } := by
  induction l with
  | nil => intro d; rfl
  | cons e t ih => intro d; rw [List.foldl_cons, ih, h d e]

theorem decideOpen (l : List (Nat × Nat)) : ∀ (d : Dev) (j m : Nat),
    let r := l.foldl (fun d e => let h := (chOf d e.1 e.2).hist; setOpen d e.1 e.2 (decide (h.length = 8) && h.all (· == true))) d
    ((j, m) ∈ l → (chOf r j m).open_ = (decide ((chOf d j m).hist.length = 8) && (chOf d j m).hist.all (· == true)))
      ∧ (chOf r j m).hist = (chOf d j m).hist ∧ ((j, m) ∉ l → chOf r j m = chOf d j m) := by
  induction l with
  | nil => intro d j m; simp
  | cons e t ih =>
    intro d j m
    simp only [List.foldl_cons]
    obtain ⟨i1, i2, i3⟩ := ih (setOpen d e.1 e.2 (decide ((chOf d e.1 e.2).hist.length = 8) && (chOf d e.1 e.2).hist.all (· == true))) j m
    have hh : (chOf (setOpen d e.1 e.2 (decide ((chOf d e.1 e.2).hist.length = 8) && (chOf d e.1 e.2).hist.all (· == true))) j m).hist = (chOf d j m).hist := by
      unfold setOpen; rw [chOf_wrBit, chOf_setCh]; split
      · next he => rw [he.1, he.2]
      · rfl
    simp only [hh] at i1 i2
    refine ⟨?_, i2, ?_⟩
    · intro h
      by_cases ht : (j, m) ∈ t
      · exact i1 ht
      · have he : j = e.1 ∧ m = e.2 := by
          rcases List.mem_cons.mp h with h | h
          · simp [← h]
          · exact absurd h ht
        rw [i3 ht, setOpen, chOf_wrBit, chOf_setCh, if_pos he, he.1, he.2]
    · intro h
      have h1 := List.mem_cons.not.mp h
      rw [i3 (fun hh => h1 (Or.inr hh)), setOpen, chOf_wrBit, chOf_setCh, if_neg]
      rintro ⟨rfl, rfl⟩; exact h1 (Or.inl rfl)

/-! ### Faults of outputs -/

theorem aoFault_facts (d : Dev) (c cause : Nat) (hc : c < 64) (h : (aoOf d c).st = .running ∨ (aoOf d c).st = .safe) :
    aoOf (aoFault d c cause) c = { aoOf d c with st := .fault, fcause := cause }
      ∧ rd (aoFault d c cause) (AO_FLT_CNT (c / 4) (c % 4)) = rd d (AO_FLT_CNT (c / 4) (c % 4)) + 1
      ∧ rdN (aoFault d c cause) (pageBase (.ao (c / 4)) + ERR_CODE) % 65536 = 0x0411
      ∧ rd (aoFault d c cause) (pageBase (.ao (c / 4)) + ERR_ADDR) = w32 c ∧ (∀ j, j ≠ c → aoOf (aoFault d c cause) j = aoOf d j)
      ∧ (aoFault d c cause).sig = d.sig ∧ (aoFault d c cause).dios = d.dios := by
  unfold aoFault
  rw [if_pos h]
  simp only [aoPage]
  generalize hx : err _ _ _ _ = e
  have hr := recorded_fieldFault e (.ao (c / 4)) 0x0411 c 0
  have hlo : ∀ a, a < 0x100000 → rd (fieldFault e (.ao (c / 4)) 0x0411 c 0) a = rd e a := fun a ha => recorded_rd hr (Or.inl (by unfold dbBase; omega))
  refine ⟨?_, ?_, ?_, ?_, ?_, ?_, ?_⟩
  · rw [recorded_aoOf hr, ← hx]; simp
  · rw [recorded_rd hr (Or.inl (by unfold AO_FLT_CNT aoBase dbBase; omega)), ← hx,
      rd_err_ne _ _ _ _ (by unfold AO_FLT_CNT pageBase ERR_CODE; simp only; omega) (by unfold AO_FLT_CNT pageBase ERR_ADDR; simp only; omega), rd_bump_same, rd_setAo]
  · rw [rdN, recorded_rd hr (Or.inl (by unfold pageBase aoBase ERR_CODE dbBase; simp only; omega)), ← hx]; exact err_code _ _ _ _
  · rw [recorded_rd hr (Or.inl (by unfold pageBase aoBase ERR_ADDR dbBase; simp only; omega)), ← hx]; exact err_addr _ _ _ _
  · intro j hj; rw [recorded_aoOf hr, ← hx, aoOf_err, aoOf_bump, aoOf_setAo_ne _ _ hj]
  · rw [recorded_sig hr, ← hx]; simp
  · rw [recorded_dios hr, ← hx]; simp

theorem dioFault_facts (d : Dev) (n cause : Nat) (hn : n < 128) (h : (dioOf d n).st = .running ∨ (dioOf d n).st = .safe) :
    dioOf (dioFault d n cause) n = { swOff (dioOf d n) with st := .fault, fcause := cause, queue := [] }
      ∧ rd (dioFault d n cause) (DIO_FLT_CNT (n / 8) (n % 8)) = rd d (DIO_FLT_CNT (n / 8) (n % 8)) + 1
      ∧ rdN (dioFault d n cause) (pageBase (.dio (n / 8)) + ERR_CODE) % 65536 = 0x0421
      ∧ rd (dioFault d n cause) (pageBase (.dio (n / 8)) + ERR_ADDR) = w32 n ∧ (∀ j, j ≠ n → dioOf (dioFault d n cause) j = dioOf d j)
      ∧ (dioFault d n cause).sig = d.sig ∧ (dioFault d n cause).aos = d.aos := by
  unfold dioFault
  simp only
  rw [if_pos h]
  simp only [dioPage]
  generalize hx : err _ _ _ _ = e
  have hr := recorded_fieldFault e (.dio (n / 8)) 0x0421 n 0
  refine ⟨?_, ?_, ?_, ?_, ?_, ?_, ?_⟩
  · rw [recorded_dioOf hr, ← hx]; simp
  · rw [recorded_rd hr (Or.inl (by unfold DIO_FLT_CNT dioBase dbBase; omega)), ← hx,
      rd_err_ne _ _ _ _ (by unfold DIO_FLT_CNT pageBase ERR_CODE; simp only; omega) (by unfold DIO_FLT_CNT pageBase ERR_ADDR; simp only; omega), rd_bump_same, rd_setDio]
  · rw [rdN, recorded_rd hr (Or.inl (by unfold pageBase dioBase ERR_CODE dbBase; simp only; omega)), ← hx]; exact err_code _ _ _ _
  · rw [recorded_rd hr (Or.inl (by unfold pageBase dioBase ERR_ADDR dbBase; simp only; omega)), ← hx]; exact err_addr _ _ _ _
  · intro j hj; rw [recorded_dioOf hr, ← hx, dioOf_err, dioOf_bump, dioOf_setDio_ne _ _ hj]
  · rw [recorded_sig hr, ← hx]; simp
  · rw [recorded_aos hr, ← hx]; simp

/-! ### The wear ledger -/

theorem wearCheck_facts (d : Dev) (e : Nat) :
    (wearOf (wearCheck d e) e).count = (wearOf d e).count ∧ (wearCheck d e).dios = d.dios ∧ (wearCheck d e).sig = d.sig := by
  unfold wearCheck setOver
  simp only
  split
  · split
    · exact ⟨rfl, rfl, rfl⟩
    · have hr := recorded_fieldFaultAt (bump (wrBit (setWear d e { wearOf d e with worn := true }) (HLTH_WL_OVER (e / 32)) (e % 32) true) HLTH_WL_CNT) 13 .hlth 0x1423 e 0
      refine ⟨?_, ?_, ?_⟩
      · rw [recorded_wearOf hr]; simp
      · rw [recorded_dios hr]; simp
      · rw [recorded_sig hr]; simp
  · split
    · simp
    · exact ⟨rfl, rfl, rfl⟩
theorem wearAdd_facts (d : Dev) (e n : Nat) :
    (wearOf (wearAdd d e n) e).count = (wearOf d e).count + n ∧ (wearAdd d e n).dios = d.dios ∧ (wearAdd d e n).sig = d.sig := by
  unfold wearAdd
  split
  · next h => subst h; simp
  · obtain ⟨h1, h2, h3⟩ := wearCheck_facts (setWear d e { wearOf d e with count := (wearOf d e).count + n }) e
    refine ⟨?_, ?_, ?_⟩
    · rw [h1]; simp
    · rw [h2]; simp
    · rw [h3]; simp

end Sys2Proof.Machine
end

