-- ==== Sys2Proof/Laws/Founding.lean ====
section
/-! SUPPORT. The founding area (R379, R380, R384): what the writer can do to it. -/

namespace Sys2Proof.Machine

/-- What a commit can do to the vault: records are added at the end, the factory identity stands, FULL stays, and a sound area
stays sound. -/
def Grows (v w : Vault) : Prop :=
  (∃ l, w.founding = v.founding ++ l) ∧ w.serial = v.serial ∧ w.cert = v.cert ∧ w.vendorKid = v.vendorKid
    ∧ (v.fndFull = true → w.fndFull = true ∧ w.founding = v.founding) ∧ (v.sound → w.sound)

theorem Grows.refl (v : Vault) : Grows v v := ⟨⟨[], (List.append_nil _).symm⟩, rfl, rfl, rfl, fun h => ⟨h, rfl⟩, id⟩

theorem Grows.trans {u v w : Vault} (h : Grows u v) (g : Grows v w) : Grows u w := by
  obtain ⟨⟨l, hl⟩, h1, h2, h3, h4, h5⟩ := h
  obtain ⟨⟨m, hm⟩, g1, g2, g3, g4, g5⟩ := g
  exact ⟨⟨l ++ m, by rw [hm, hl, List.append_assoc]⟩, g1.trans h1, g2.trans h2, g3.trans h3,
    fun f => ⟨(g4 (h4 f).1).1, (g4 (h4 f).1).2.trans (h4 f).2⟩, fun s => g5 (h5 s)⟩

theorem length_leBytes (n : Nat) : ∀ v, (leBytes n v).length = n := by
  induction n with
  | zero => intro v; rfl
  | succ n ih => intro v; simp [leBytes, ih]

/-- The bytes of a number read back as the number. -/
theorem leNat_leBytes (n : Nat) : ∀ v, leNat (leBytes n v) = v % 256 ^ n := by
  induction n with
  | zero => intro v; simp [leBytes, leNat, Nat.mod_one]
  | succ n ih =>
    intro v
    simp only [leBytes, leNat, ih, BitVec.toNat_ofNat]
    have h : v % 256 ^ (n + 1) = v % 256 + 256 * (v / 256 % 256 ^ n) := by rw [pow_succ', Nat.mod_mul]
    rw [h]

theorem crcBit_lt (c : Nat) (h : c < 2 ^ 32) : crcBit c < 2 ^ 32 := by
  unfold crcBit
  split
  · exact Nat.xor_lt_two_pow (by omega) (by decide)
  · omega

theorem crcByte_lt (c : Nat) (b : W8) (h : c < 2 ^ 32) : crcByte c b < 2 ^ 32 := by
  unfold crcByte
  simp only
  have hx : c ^^^ b.toNat < 2 ^ 32 := Nat.xor_lt_two_pow h (by have := b.isLt; omega)
  exact crcBit_lt _ (crcBit_lt _ (crcBit_lt _ (crcBit_lt _ (crcBit_lt _ (crcBit_lt _ (crcBit_lt _ (crcBit_lt _ hx)))))))

/-- A CRC is a 32-bit number. -/
theorem crc32c_lt (bs : List W8) : crc32c bs < 2 ^ 32 := by
  unfold crc32c
  refine Nat.xor_lt_two_pow ?_ (by decide)
  have : ∀ (l : List W8) (c : Nat), c < 2 ^ 32 → l.foldl crcByte c < 2 ^ 32 := by
    intro l
    induction l with
    | nil => intro c h; exact h
    | cons x t ih => intro c h; exact ih _ (crcByte_lt c x h)
  exact this bs _ (by decide)

/-- A record's bytes are sealed by its CRC. -/
theorem recBytes_sealed (b : DbBody) (o q f : Nat) : sealedRec ⟨o, q, recBytes b q f⟩ = true := by
  unfold sealedRec recBytes
  simp only
  generalize (leBytes 2 _ ++ _ ++ _ ++ _ ++ _ ++ _ ++ _ ++ _ ++ _ : List W8) = body
  have hl : (body ++ leBytes 4 (crc32c body)).length - 4 = body.length := by rw [List.length_append, length_leBytes]; omega
  rw [hl, List.drop_left, List.take_left, leNat_leBytes]
  rw [Nat.mod_eq_of_lt (by have := crc32c_lt body; norm_num; omega)]
  simp

theorem chained_append (l : List DbRec) : ∀ (o h : Nat) (r : DbRec), chained o l h = true → r.off = h → chained o (l ++ [r]) (h + r.bytes.length) = true := by
  induction l with
  | nil => intro o h r hc hr; simp only [chained, beq_iff_eq] at hc; subst hc; simp [chained, hr]
  | cons x t ih =>
    intro o h r hc hr
    simp only [chained, Bool.and_eq_true, List.cons_append] at hc ⊢
    exact ⟨hc.1, ih _ _ _ hc.2 hr⟩

/-- A record is added at the founding head, or the first that does not fit sets FULL. -/
theorem grows_fndAppend (v : Vault) (b : DbBody) (q f : Nat) : Grows v (fndAppend v q (recBytes b q f)) := by
  unfold fndAppend
  split
  · exact Grows.refl v
  · next hf =>
    split
    · next hl =>
      refine ⟨⟨_, rfl⟩, rfl, rfl, rfl, fun h => absurd h hf, fun ⟨h1, h2, h3⟩ => ⟨chained_append _ _ _ _ h1 rfl, ?_, hl⟩⟩
      simp only [List.all_append, h2, Bool.true_and, List.all_cons, List.all_nil, Bool.and_true]
      exact recBytes_sealed _ _ _ _
    · exact ⟨⟨[], (List.append_nil _).symm⟩, rfl, rfl, rfl, fun _ => ⟨rfl, rfl⟩, id⟩

theorem grows_commitHead (v : Vault) (d : Dev) : Grows v (commitHead v d).1 := by
  unfold commitHead
  split
  · exact Grows.refl v
  · exact grows_fndAppend _ _ _ _
  · exact grows_fndAppend _ _ _ _

theorem grows_drain (n : Nat) : ∀ (v : Vault) (d : Dev), Grows v (drain n v d).1 := by
  induction n with
  | zero => intro v d; exact Grows.refl v
  | succ n ih => intro v d; exact (grows_commitHead v d).trans (ih _ _)

theorem grows_scanAreas (v : Vault) (d : Dev) : Grows v (scanAreas v d).1 := by
  unfold scanAreas
  simp only
  split
  · exact Grows.refl v
  · exact ⟨⟨[], (List.append_nil _).symm⟩, rfl, rfl, rfl, fun _ => ⟨rfl, rfl⟩, id⟩

theorem grows_recordCommit (v : Vault) (d : Dev) : Grows v (recordCommit v d).1 := by
  unfold recordCommit
  split
  · split
    · exact grows_commitHead v d
    · exact Grows.refl v
  · exact Grows.refl v

theorem grows_clearExecute (v : Vault) (d : Dev) : Grows v (clearExecute v d).1 := by
  unfold clearExecute
  split
  · split
    · exact grows_commitHead v d
    · exact Grows.refl v
  · exact Grows.refl v

theorem grows_writerStart (v : Vault) (d : Dev) : Grows v (writerStart v d).1 := by
  unfold writerStart
  simp only
  generalize wrN _ _ _ = e
  exact grows_drain _ v e

theorem grows_scan (v : Vault) (d : Dev) : Grows v (writerStart (scanAreas v d).1 (scanAreas v d).2).1 :=
  (grows_scanAreas v d).trans (grows_writerStart _ _)

theorem grows_bootComplete (v : Vault) (d : Dev) (e : BootEnv) : Grows v (bootComplete v d e).1 := by
  unfold bootComplete
  split
  · exact Grows.refl v
  · simp only
    generalize fwSelect _ e = o
    cases o with
    | none => exact Grows.refl v
    | some x =>
      simp only
      split
      · exact Grows.refl v
      · unfold bootWriter
        split
        · exact Grows.refl v
        · exact grows_scan v x

end Sys2Proof.Machine
end

