-- ==== Sys2Proof/Laws/Motion.lean ====
section
/-! SUPPORT. Axes, motion tiles, step outputs and encoders: what their shared operations do. -/

namespace Sys2Proof.Machine

theorem rd64_wr64_ne (d : Dev) {a b : Nat} (v : Nat) (h : b + 8 ≤ a ∨ a + 8 ≤ b) : rd64 (wr64 d a v) b = rd64 d b := by
  unfold rd64; rw [rd_wr64_ne _ _ (by omega) (by omega), rd_wr64_ne _ _ (by omega) (by omega)]
/-! ### A command of an axis page finds the other registers as they were -/

theorem ax_issued_rd (d : Dev) (a r : Nat) (v : W32) (h : axBase a + 0x104 ≤ r) : rd (issued d (.ax a) 0x100 v) r = rd d r :=
  rd_issued_ne _ _ _ _ _ (by unfold pageBase; simp only; omega)
@[simp] theorem ax_issued_AX_CFG (d : Dev) (a : Nat) (v : W32) : rd (issued d (.ax a) 0x100 v) (AX_CFG a) = rd d (AX_CFG a) := ax_issued_rd _ _ _ _ (by unfold AX_CFG; omega)
@[simp] theorem ax_issued_AX_GATE_SRC (d : Dev) (a : Nat) (v : W32) : rd (issued d (.ax a) 0x100 v) (AX_GATE_SRC a) = rd d (AX_GATE_SRC a) := ax_issued_rd _ _ _ _ (by unfold AX_GATE_SRC; omega)
@[simp] theorem ax_issued_AX_SW_FILT (d : Dev) (a : Nat) (v : W32) : rd (issued d (.ax a) 0x100 v) (AX_SW_FILT a) = rd d (AX_SW_FILT a) := ax_issued_rd _ _ _ _ (by unfold AX_SW_FILT; omega)
@[simp] theorem ax_issued_AX_HOME_CFG (d : Dev) (a : Nat) (v : W32) : rd (issued d (.ax a) 0x100 v) (AX_HOME_CFG a) = rd d (AX_HOME_CFG a) := ax_issued_rd _ _ _ _ (by unfold AX_HOME_CFG; omega)
@[simp] theorem ax_issued_AX_HVEL1 (d : Dev) (a : Nat) (v : W32) : rd (issued d (.ax a) 0x100 v) (AX_HVEL1 a) = rd d (AX_HVEL1 a) := ax_issued_rd _ _ _ _ (by unfold AX_HVEL1; omega)
@[simp] theorem ax_issued_AX_HVEL2 (d : Dev) (a : Nat) (v : W32) : rd (issued d (.ax a) 0x100 v) (AX_HVEL2 a) = rd d (AX_HVEL2 a) := ax_issued_rd _ _ _ _ (by unfold AX_HVEL2; omega)
@[simp] theorem ax_issued_AX_GEAR_SRC (d : Dev) (a : Nat) (v : W32) : rd (issued d (.ax a) 0x100 v) (AX_GEAR_SRC a) = rd d (AX_GEAR_SRC a) := ax_issued_rd _ _ _ _ (by unfold AX_GEAR_SRC; omega)
@[simp] theorem ax_issued_AX_GEAR_NUM (d : Dev) (a : Nat) (v : W32) : rd (issued d (.ax a) 0x100 v) (AX_GEAR_NUM a) = rd d (AX_GEAR_NUM a) := ax_issued_rd _ _ _ _ (by unfold AX_GEAR_NUM; omega)
@[simp] theorem ax_issued_AX_GEAR_DEN (d : Dev) (a : Nat) (v : W32) : rd (issued d (.ax a) 0x100 v) (AX_GEAR_DEN a) = rd d (AX_GEAR_DEN a) := ax_issued_rd _ _ _ _ (by unfold AX_GEAR_DEN; omega)
@[simp] theorem ax_issued_AX_GEAR_ANUM (d : Dev) (a : Nat) (v : W32) : rd (issued d (.ax a) 0x100 v) (AX_GEAR_ANUM a) = rd d (AX_GEAR_ANUM a) := ax_issued_rd _ _ _ _ (by unfold AX_GEAR_ANUM; omega)
@[simp] theorem ax_issued_AX_GEAR_ADEN (d : Dev) (a : Nat) (v : W32) : rd (issued d (.ax a) 0x100 v) (AX_GEAR_ADEN a) = rd d (AX_GEAR_ADEN a) := ax_issued_rd _ _ _ _ (by unfold AX_GEAR_ADEN; omega)
@[simp] theorem ax_issued_AX_GEAR_ADIR (d : Dev) (a : Nat) (v : W32) : rd (issued d (.ax a) 0x100 v) (AX_GEAR_ADIR a) = rd d (AX_GEAR_ADIR a) := ax_issued_rd _ _ _ _ (by unfold AX_GEAR_ADIR; omega)
@[simp] theorem ax_issued_AX_LIMP_SRC (d : Dev) (a : Nat) (v : W32) : rd (issued d (.ax a) 0x100 v) (AX_LIMP_SRC a) = rd d (AX_LIMP_SRC a) := ax_issued_rd _ _ _ _ (by unfold AX_LIMP_SRC; omega)
@[simp] theorem ax_issued_AX_LIMN_SRC (d : Dev) (a : Nat) (v : W32) : rd (issued d (.ax a) 0x100 v) (AX_LIMN_SRC a) = rd d (AX_LIMN_SRC a) := ax_issued_rd _ _ _ _ (by unfold AX_LIMN_SRC; omega)
@[simp] theorem ax_issued_AX_HOME_SRC (d : Dev) (a : Nat) (v : W32) : rd (issued d (.ax a) 0x100 v) (AX_HOME_SRC a) = rd d (AX_HOME_SRC a) := ax_issued_rd _ _ _ _ (by unfold AX_HOME_SRC; omega)
@[simp] theorem ax_issued_AX_MOVE_CNT (d : Dev) (a : Nat) (v : W32) : rd (issued d (.ax a) 0x100 v) (AX_MOVE_CNT a) = rd d (AX_MOVE_CNT a) := ax_issued_rd _ _ _ _ (by unfold AX_MOVE_CNT; omega)
@[simp] theorem ax_issued_AX_REJ_CNT (d : Dev) (a : Nat) (v : W32) : rd (issued d (.ax a) 0x100 v) (AX_REJ_CNT a) = rd d (AX_REJ_CNT a) := ax_issued_rd _ _ _ _ (by unfold AX_REJ_CNT; omega)
@[simp] theorem ax_issued_AX_TGT (d : Dev) (a : Nat) (v : W32) : rd (issued d (.ax a) 0x100 v) (AX_TGT a) = rd d (AX_TGT a) := ax_issued_rd _ _ _ _ (by unfold AX_TGT; omega)
@[simp] theorem ax_issued_AX_VMAX (d : Dev) (a : Nat) (v : W32) : rd (issued d (.ax a) 0x100 v) (AX_VMAX a) = rd d (AX_VMAX a) := ax_issued_rd _ _ _ _ (by unfold AX_VMAX; omega)
@[simp] theorem ax_issued_AX_AMAX (d : Dev) (a : Nat) (v : W32) : rd (issued d (.ax a) 0x100 v) (AX_AMAX a) = rd d (AX_AMAX a) := ax_issued_rd _ _ _ _ (by unfold AX_AMAX; omega)
@[simp] theorem ax_issued_AX_DMAX (d : Dev) (a : Nat) (v : W32) : rd (issued d (.ax a) 0x100 v) (AX_DMAX a) = rd d (AX_DMAX a) := ax_issued_rd _ _ _ _ (by unfold AX_DMAX; omega)
@[simp] theorem ax_issued_AX_JMAX (d : Dev) (a : Nat) (v : W32) : rd (issued d (.ax a) 0x100 v) (AX_JMAX a) = rd d (AX_JMAX a) := ax_issued_rd _ _ _ _ (by unfold AX_JMAX; omega)
@[simp] theorem ax_issued_AX_EDEC (d : Dev) (a : Nat) (v : W32) : rd (issued d (.ax a) 0x100 v) (AX_EDEC a) = rd d (AX_EDEC a) := ax_issued_rd _ _ _ _ (by unfold AX_EDEC; omega)
@[simp] theorem ax_issued_AX_EJERK (d : Dev) (a : Nat) (v : W32) : rd (issued d (.ax a) 0x100 v) (AX_EJERK a) = rd d (AX_EJERK a) := ax_issued_rd _ _ _ _ (by unfold AX_EJERK; omega)
@[simp] theorem ax_issued_AX_SLIM_POS (d : Dev) (a : Nat) (v : W32) : rd (issued d (.ax a) 0x100 v) (AX_SLIM_POS a) = rd d (AX_SLIM_POS a) := ax_issued_rd _ _ _ _ (by unfold AX_SLIM_POS; omega)
@[simp] theorem ax_issued_AX_SLIM_NEG (d : Dev) (a : Nat) (v : W32) : rd (issued d (.ax a) 0x100 v) (AX_SLIM_NEG a) = rd d (AX_SLIM_NEG a) := ax_issued_rd _ _ _ _ (by unfold AX_SLIM_NEG; omega)
@[simp] theorem ax_issued_AX_HOME_OFS (d : Dev) (a : Nat) (v : W32) : rd (issued d (.ax a) 0x100 v) (AX_HOME_OFS a) = rd d (AX_HOME_OFS a) := ax_issued_rd _ _ _ _ (by unfold AX_HOME_OFS; omega)
@[simp] theorem ax_issued_AX_GEAR_MPOS (d : Dev) (a : Nat) (v : W32) : rd (issued d (.ax a) 0x100 v) (AX_GEAR_MPOS a) = rd d (AX_GEAR_MPOS a) := ax_issued_rd _ _ _ _ (by unfold AX_GEAR_MPOS; omega)
@[simp] theorem ax_issued_AX_FLT_POS (d : Dev) (a : Nat) (v : W32) : rd (issued d (.ax a) 0x100 v) (AX_FLT_POS a) = rd d (AX_FLT_POS a) := ax_issued_rd _ _ _ _ (by unfold AX_FLT_POS; omega)
@[simp] theorem ax_issued_AX_TGT_reg (d : Dev) (a : Nat) (v : W32) : axReg (issued d (.ax a) 0x100 v) (AX_TGT a) = axReg d (AX_TGT a) := by
  unfold axReg rd64; rw [ax_issued_AX_TGT, ax_issued_rd _ _ _ _ (by unfold AX_TGT; omega)]
@[simp] theorem ax_issued_AX_VMAX_reg (d : Dev) (a : Nat) (v : W32) : axReg (issued d (.ax a) 0x100 v) (AX_VMAX a) = axReg d (AX_VMAX a) := by
  unfold axReg rd64; rw [ax_issued_AX_VMAX, ax_issued_rd _ _ _ _ (by unfold AX_VMAX; omega)]
@[simp] theorem ax_issued_AX_AMAX_reg (d : Dev) (a : Nat) (v : W32) : axReg (issued d (.ax a) 0x100 v) (AX_AMAX a) = axReg d (AX_AMAX a) := by
  unfold axReg rd64; rw [ax_issued_AX_AMAX, ax_issued_rd _ _ _ _ (by unfold AX_AMAX; omega)]
@[simp] theorem ax_issued_AX_DMAX_reg (d : Dev) (a : Nat) (v : W32) : axReg (issued d (.ax a) 0x100 v) (AX_DMAX a) = axReg d (AX_DMAX a) := by
  unfold axReg rd64; rw [ax_issued_AX_DMAX, ax_issued_rd _ _ _ _ (by unfold AX_DMAX; omega)]
@[simp] theorem ax_issued_AX_JMAX_reg (d : Dev) (a : Nat) (v : W32) : axReg (issued d (.ax a) 0x100 v) (AX_JMAX a) = axReg d (AX_JMAX a) := by
  unfold axReg rd64; rw [ax_issued_AX_JMAX, ax_issued_rd _ _ _ _ (by unfold AX_JMAX; omega)]
@[simp] theorem ax_issued_AX_EDEC_reg (d : Dev) (a : Nat) (v : W32) : axReg (issued d (.ax a) 0x100 v) (AX_EDEC a) = axReg d (AX_EDEC a) := by
  unfold axReg rd64; rw [ax_issued_AX_EDEC, ax_issued_rd _ _ _ _ (by unfold AX_EDEC; omega)]
@[simp] theorem ax_issued_AX_EJERK_reg (d : Dev) (a : Nat) (v : W32) : axReg (issued d (.ax a) 0x100 v) (AX_EJERK a) = axReg d (AX_EJERK a) := by
  unfold axReg rd64; rw [ax_issued_AX_EJERK, ax_issued_rd _ _ _ _ (by unfold AX_EJERK; omega)]
@[simp] theorem ax_issued_AX_SLIM_POS_reg (d : Dev) (a : Nat) (v : W32) : axReg (issued d (.ax a) 0x100 v) (AX_SLIM_POS a) = axReg d (AX_SLIM_POS a) := by
  unfold axReg rd64; rw [ax_issued_AX_SLIM_POS, ax_issued_rd _ _ _ _ (by unfold AX_SLIM_POS; omega)]
@[simp] theorem ax_issued_AX_SLIM_NEG_reg (d : Dev) (a : Nat) (v : W32) : axReg (issued d (.ax a) 0x100 v) (AX_SLIM_NEG a) = axReg d (AX_SLIM_NEG a) := by
  unfold axReg rd64; rw [ax_issued_AX_SLIM_NEG, ax_issued_rd _ _ _ _ (by unfold AX_SLIM_NEG; omega)]
@[simp] theorem ax_issued_AX_HOME_OFS_reg (d : Dev) (a : Nat) (v : W32) : axReg (issued d (.ax a) 0x100 v) (AX_HOME_OFS a) = axReg d (AX_HOME_OFS a) := by
  unfold axReg rd64; rw [ax_issued_AX_HOME_OFS, ax_issued_rd _ _ _ _ (by unfold AX_HOME_OFS; omega)]
@[simp] theorem ax_issued_AX_GEAR_MPOS_reg (d : Dev) (a : Nat) (v : W32) : axReg (issued d (.ax a) 0x100 v) (AX_GEAR_MPOS a) = axReg d (AX_GEAR_MPOS a) := by
  unfold axReg rd64; rw [ax_issued_AX_GEAR_MPOS, ax_issued_rd _ _ _ _ (by unfold AX_GEAR_MPOS; omega)]
@[simp] theorem ax_issued_AX_FLT_POS_reg (d : Dev) (a : Nat) (v : W32) : axReg (issued d (.ax a) 0x100 v) (AX_FLT_POS a) = axReg d (AX_FLT_POS a) := by
  unfold axReg rd64; rw [ax_issued_AX_FLT_POS, ax_issued_rd _ _ _ _ (by unfold AX_FLT_POS; omega)]

theorem stp_issued_rd (d : Dev) (a r : Nat) (v : W32) (ha : a < 64) (h : stpBase 0 ≤ r) : rd (issued d (.ax a) 0x100 v) r = rd d r :=
  ax_issued_rd _ _ _ _ (by unfold axBase mtBase; unfold stpBase at h; omega)
theorem rateOk_issued (d : Dev) (a : Nat) (w : W32) (v : Int) (ha : a < 64) : rateOk (issued d (.ax a) 0x100 w) a v = rateOk d a v := by
  unfold rateOk followers rdBit
  have h1 : ∀ s, rd (issued d (.ax a) 0x100 w) (STP_CFG s) = rd d (STP_CFG s) := fun s => stp_issued_rd d a _ w ha (by unfold STP_CFG stpBase; omega)
  have h2 : ∀ s, rd (issued d (.ax a) 0x100 w) (STP_RATIO s) = rd d (STP_RATIO s) := fun s => stp_issued_rd d a _ w ha (by unfold STP_RATIO stpBase; omega)
  have h3 : ∀ s, rd (issued d (.ax a) 0x100 w) (STP_TIMING s) = rd d (STP_TIMING s) := fun s => stp_issued_rd d a _ w ha (by unfold STP_TIMING stpBase; omega)
  simp only [h1, h2, h3]
@[simp] theorem gateClosed_issued (d : Dev) (a : Nat) (w : W32) : gateClosed (issued d (.ax a) 0x100 w) a = gateClosed d a := by
  simp [gateClosed, rdBit, srcBit, sigBit, sigVal]
@[simp] theorem beyond_issued (d : Dev) (a : Nat) (w : W32) (p : Int) : beyond (issued d (.ax a) 0x100 w) a p = beyond d a p := by simp [beyond]
/-- The registers a command reads depend on the registers from AX_CFG on. -/
theorem axRegs_congr (d e : Dev) (a : Nat) (hr : ∀ r, axBase a + 0x104 ≤ r → rd e r = rd d r) : axRegs e a = axRegs d a := by
  have r2 : ∀ x, axBase a + 0x104 ≤ x → axReg e x = axReg d x := fun x hx => by unfold axReg rd64; rw [hr x hx, hr (x + 4) (by omega)]
  have r1 : ∀ x, axBase a + 0x104 ≤ x → rdN e x = rdN d x := fun x hx => by unfold rdN; rw [hr x hx]
  unfold axRegs rdBit
  rw [r2 (AX_TGT a) (by unfold AX_TGT; omega), r2 (AX_VMAX a) (by unfold AX_VMAX; omega), r2 (AX_AMAX a) (by unfold AX_AMAX; omega),
    r2 (AX_DMAX a) (by unfold AX_DMAX; omega), r2 (AX_JMAX a) (by unfold AX_JMAX; omega), r1 (AX_HVEL1 a) (by unfold AX_HVEL1; omega),
    r1 (AX_HVEL2 a) (by unfold AX_HVEL2; omega), r2 (AX_HOME_OFS a) (by unfold AX_HOME_OFS; omega), r1 (AX_GEAR_NUM a) (by unfold AX_GEAR_NUM; omega),
    r1 (AX_GEAR_DEN a) (by unfold AX_GEAR_DEN; omega), r1 (AX_GEAR_ANUM a) (by unfold AX_GEAR_ANUM; omega),
    r1 (AX_GEAR_ADEN a) (by unfold AX_GEAR_ADEN; omega), hr (AX_GEAR_ADIR a) (by unfold AX_GEAR_ADIR; omega), r2 (AX_GEAR_MPOS a) (by unfold AX_GEAR_MPOS; omega)]
@[simp] theorem axRegs_issued (d : Dev) (a : Nat) (w : W32) : axRegs (issued d (.ax a) 0x100 w) a = axRegs d a := axRegs_congr _ _ _ (fun _ h => ax_issued_rd _ _ _ _ h)
@[simp] theorem axRegs_setAx (d : Dev) (a b : Nat) (x : Axis) : axRegs (setAx d b x) a = axRegs d a := axRegs_congr _ _ _ (fun _ _ => rd_setAx _ _ _ _)

/-- A refusal depends on the axis, the signal table, the registers read by the command, and those from AX_CFG on. -/
theorem refusalOf_congr (d e : Dev) (a : Nat) (g : AxRegs) (t : Int) (b : Bool) (ha : a < 64) (h1 : axOf e a = axOf d a) (h2 : e.sig = d.sig)
    (hr : ∀ r, axBase a + 0x104 ≤ r → rd e r = rd d r) : refusalOf e a g t b = refusalOf d a g t b := by
  have hs : ∀ r, stpBase 0 ≤ r → rd e r = rd d r := fun r h => hr r (by unfold axBase mtBase; unfold stpBase at h; omega)
  have q1 : ∀ n, rd e (STP_CFG n) = rd d (STP_CFG n) := fun n => hs _ (by unfold STP_CFG stpBase; omega)
  have q2 : ∀ n, rd e (STP_RATIO n) = rd d (STP_RATIO n) := fun n => hs _ (by unfold STP_RATIO stpBase; omega)
  have q3 : ∀ n, rd e (STP_TIMING n) = rd d (STP_TIMING n) := fun n => hs _ (by unfold STP_TIMING stpBase; omega)
  have r1 : ∀ v, rateOk e a v = rateOk d a v := fun v => by unfold rateOk followers rdBit; simp only [q1, q2, q3]
  have r2 : ∀ x, axBase a + 0x104 ≤ x → axReg e x = axReg d x := fun x hx => by unfold axReg rd64; rw [hr x hx, hr (x + 4) (by omega)]
  have r4 : beyond e a t = beyond d a t := by
    unfold beyond
    rw [r2 _ (by unfold AX_SLIM_POS; omega), r2 _ (by unfold AX_SLIM_NEG; omega)]
  have r5 : rd e (AX_CFG a) = rd d (AX_CFG a) := hr _ (by unfold AX_CFG; omega)
  have r6 : gateClosed e a = gateClosed d a := by
    unfold gateClosed srcBit rdBit sigBit sigVal
    rw [r5, hr _ (by unfold AX_GATE_SRC; omega), h2]
  unfold refusalOf
  simp only [h1, r4, r6, r1, show rdBit e (AX_CFG a) 7 = rdBit d (AX_CFG a) 7 by rw [rdBit, r5, rdBit]]
theorem moveRefusal_congr (d e : Dev) (a : Nat) (t : Int) (b : Bool) (ha : a < 64) (h1 : axOf e a = axOf d a) (h2 : e.sig = d.sig)
    (hr : ∀ r, axBase a + 0x104 ≤ r → rd e r = rd d r) : moveRefusal e a t b = moveRefusal d a t b := by
  unfold moveRefusal; rw [axRegs_congr _ _ _ hr]; exact refusalOf_congr _ _ _ _ _ _ ha h1 h2 hr
theorem moveRefusal_issued (d : Dev) (a : Nat) (w : W32) (t : Int) (b : Bool) (ha : a < 64) :
    moveRefusal (issued d (.ax a) 0x100 w) a t b = moveRefusal d a t b :=
  moveRefusal_congr _ _ _ _ _ ha (by simp) (by simp) (fun _ h => ax_issued_rd _ _ _ _ h)
theorem relTarget_issued (d : Dev) (a : Nat) (w : W32) (t : Int) : relTarget (issued d (.ax a) 0x100 w) a t = relTarget d a t := by simp [relTarget]

/-- The code register of an axis page is none of the axis registers. -/
theorem ax_err_setAx (d : Dev) (a b : Nat) (x : Axis) : rd (setAx d b x) (pageBase (.ax a) + ERR_CODE) = rd d (pageBase (.ax a) + ERR_CODE) := by simp
theorem ax_err_bump (d : Dev) (a : Nat) (x : Axis) : rd (bump (setAx d a x) (AX_MOVE_CNT a)) (pageBase (.ax a) + ERR_CODE) = rd d (pageBase (.ax a) + ERR_CODE) := by
  rw [rd_bump_ne _ (by unfold pageBase ERR_CODE AX_MOVE_CNT; simp only; omega), rd_setAx]

/-- A command that only changes the axis, with no error. -/
theorem exec_axis {c : Instr} {s : State} {a : Nat} {v : W32} {f : Dev → Dev} {x : Axis} (ha : a < 64)
    (he : exec c s = onDev (decide (a < 64)) (fun _ d => hostCmd d (.ax a) 0x100 v f) s) (had : admits s.dev (.ax a) 0x100 = true)
    (hf : f (issued s.dev (.ax a) 0x100 v) = setAx (issued s.dev (.ax a) 0x100 v) a x) :
    exec c s = .next { s with dev := setAx (issued s.dev (.ax a) 0x100 v) a x } :=
  exec_host (f := fun _ => f) he (by simp [ha]) had (by decide) (by show rd (f _) _ = _; rw [hf]; simp) hf

theorem limitBad_pos (l : List Int) (h : ∀ x ∈ l, 0 < x) : limitBad l = none := by
  induction l with
  | nil => rfl
  | cons x t ih =>
    have hx := h x (List.mem_cons_self ..)
    unfold limitBad
    rw [if_neg (by omega), if_neg (by omega)]
    exact ih (fun y hy => h y (List.mem_cons_of_mem _ hy))

theorem axReg_setAx (d : Dev) (b : Nat) (x : Axis) (r : Nat) : axReg (setAx d b x) r = axReg d r := by unfold axReg rd64; rw [rd_setAx, rd_setAx]
/-- A later replacement of an axis is the one that stands, where the earlier one left DISABLED. -/
theorem setAx_setAx (d : Dev) (a : Nat) (x y : Axis) (h : x.st ≠ .disabled) : setAx (setAx d a x) a y = setAx d a y := by
  unfold setAx; simp only; rw [tset_tset _ _ _ _ _ (fun e => h (by rw [e]; rfl))]

/-- A plan of an axis that stands. -/
theorem axPlan_rest (d : Dev) (a : Nat) (h : (axOf d a).v = 0) :
    axPlan d a = setAx d a { axOf d a with
      jog := false
      overshoot := false
      reverse := false
      plan := planTo (axOf d a) (axOf d a).target (axOf d a).lim.vm (axOf d a).lim.am (axOf d a).lim.dm (axOf d a).lim.jm false } := by
  unfold axPlan
  simp [h]
/-- A plan on the way up whose target lies at or beyond the turn point, or short of it. -/
theorem axPlan_up (d : Dev) (a : Nat) (h : 0 < (axOf d a).v) (h1 : posCmd (axOf d a) ≤ (axOf d a).target)
    (h2 : softOn (axOf d a) = false ∨ posCmd (axOf d a) + haltDist (axOf d a) (axOf d a).lim.dm (axOf d a).lim.jm ≤ (axOf d a).target) :
    axPlan d a = setAx d a { axOf d a with
      jog := false
      overshoot := decide ((axOf d a).target < posCmd (axOf d a) + haltDist (axOf d a) (axOf d a).lim.dm (axOf d a).lim.jm)
      reverse := false
      plan := planTo (axOf d a) (axOf d a).target (axOf d a).lim.vm (axOf d a).lim.am (axOf d a).lim.dm (axOf d a).lim.jm
        (decide ((axOf d a).target < posCmd (axOf d a) + haltDist (axOf d a) (axOf d a).lim.dm (axOf d a).lim.jm)) } := by
  have hv : decide ((axOf d a).v ≠ 0) = true := by simp; omega
  have hb : decide ((axOf d a).target < posCmd (axOf d a)) = false := by simp; omega
  unfold axPlan
  simp only [hv, h, decide_true, if_true, Bool.true_and, hb, Bool.not_false, Bool.and_true]
  rw [if_neg]
  rintro ⟨p1, p2, -⟩
  simp only [decide_eq_true_eq] at p1
  rcases h2 with h2 | h2
  · rw [h2] at p2; cases p2
  · omega

/-- What is left of a command and of the plan it may ask for. -/
def axThen (k : Dev × Bool × Bool) (a : Nat) : Dev := if k.2.2 then axReplan k.1 a else k.1

/-- What each command row of an axis is: its command with the registers as they stand, and the plan it asks for. -/
theorem axRow1 (d : Dev) (a : Nat) : axMoveAbs d a = axThen (axMoveTo d a ⟨1, axRegs d a, none⟩ (axRegs d a).tgt true) a := rfl
theorem axRow2 (d : Dev) (a : Nat) : axMoveRel d a = axThen (axMoveTo d a ⟨2, axRegs d a, none⟩ (relTarget d a (axRegs d a).tgt) false) a := rfl
theorem axRow3 (d : Dev) (a : Nat) : axUpdate d a = axThen (axUpdateCmd d a ⟨3, axRegs d a, none⟩) a := rfl
theorem axRow4 (d : Dev) (a : Nat) : axJog d a false = axThen (axJogCmd d a ⟨4, axRegs d a, none⟩ 1) a := by
  unfold axJog; simp only [Bool.false_eq_true, if_false, if_true]; rfl
theorem axRow5 (d : Dev) (a : Nat) : axJog d a true = axThen (axJogCmd d a ⟨5, axRegs d a, none⟩ (-1)) a := by
  unfold axJog; simp only [Bool.false_eq_true, if_false, if_true]; rfl
theorem axRow6 (d : Dev) (a : Nat) : axStop d a = axThen (axStopCmd d a ⟨6, axRegs d a, none⟩) a := rfl
theorem axRow7 (d : Dev) (a : Nat) : axEstop d a = axThen (axEstopCmd d a ⟨7, axRegs d a, none⟩) a := rfl
theorem axRow8 (d : Dev) (a : Nat) : axHome d a = axThen (axHomeCmd d a ⟨8, axRegs d a, none⟩) a := rfl
theorem axRow9 (d : Dev) (a : Nat) : axGearEngage d a = axThen (axEngageCmd d a ⟨9, axRegs d a, none⟩) a := rfl
theorem axRow10 (d : Dev) (a : Nat) : axGearArm d a = axThen (axArmCmd d a ⟨10, axRegs d a, none⟩) a := rfl
theorem axRow11 (d : Dev) (a : Nat) : axGearRelease d a = axThen (axReleaseCmd d a ⟨11, axRegs d a, none⟩) a := rfl
theorem axRow12 (d : Dev) (a : Nat) : axSetPos d a = axThen (axSetPosCmd d a ⟨12, axRegs d a, none⟩) a := rfl
/-- An accepted move off the target, and one on it. -/
theorem axMove_off (d : Dev) (a : Nat) (r : AxRegs) (t : Int) (h : ¬((axOf d a).st = .idle ∧ t = posCmd (axOf d a))) :
    axMove d a r t = (setAx d a { axOf d a with st := .moving, target := t, jogDir := 0, done := false, overshoot := false, reverse := false, interrupted := false, estop := false, lim := r }, true, true) := by
  unfold axMove; simp only; rw [if_neg h]
theorem axMove_on (d : Dev) (a : Nat) (r : AxRegs) (t : Int) (h : (axOf d a).st = .idle ∧ t = posCmd (axOf d a)) :
    axMove d a r t = (bump (setAx d a { axOf d a with done := true, target := t, overshoot := false, reverse := false, interrupted := false, lim := r }) (AX_MOVE_CNT a), true, false) := by
  unfold axMove; simp only; rw [if_pos h]
theorem axThen_no (d : Dev) (a : Nat) : axThen (d, true, false) a = d := rfl
theorem axThen_plan (d : Dev) (a : Nat) : axThen (d, true, true) a = axReplan d a := rfl
/-- The plan of an axis that moves to a target, and of one that jogs. -/
theorem axReplan_move (d : Dev) (a : Nat) (x : Axis) (h : x.st = .moving) (h1 : x.jogDir = 0) : axReplan (setAx d a x) a = axPlan (setAx d a x) a := by
  unfold axReplan; simp [h, h1]
theorem axReplan_jog (d : Dev) (a : Nat) (x : Axis) (h : x.st = .moving) (h1 : x.jogDir ≠ 0) : axReplan (setAx d a x) a = axJogPlan (setAx d a x) a := by
  unfold axReplan; simp [h, h1]

/-! ### Motion tiles -/

theorem bit_fld (w : W32) (n i : Nat) (hi : i ≤ n) (hn : n < 32) : bit (w32 (fld w n 0)) i = bit w i := by
  have hw := w.isLt
  rw [bit_eq, bit_eq, fld_eq, w32, BitVec.toNat_ofNat, Nat.testBit_mod_two_pow]
  simp only [pow_zero, Nat.div_one, Nat.sub_zero, Nat.testBit_mod_two_pow]
  have h1 : i < 32 := by omega
  have h2 : i < n + 1 := by omega
  simp [h1, h2]

theorem runFold (on : Bool) (b : Nat) (l : List Nat) : ∀ d : Dev,
    runBit (l.foldl (fun d a => wrBit d (axBase a + BLK_CTRL) 0 on) d) (.ax b) = (if b ∈ l then on else runBit d (.ax b)) := by
  induction l with
  | nil => intro d; simp
  | cons x l ih =>
    intro d
    rw [List.foldl_cons, ih]
    have : runBit (wrBit d (axBase x + BLK_CTRL) 0 on) (.ax b) = if b = x then on else runBit d (.ax b) := by
      unfold runBit rdBit wrBit
      rw [show pageBase (.ax b) = axBase b from rfl, rd_wr]
      by_cases h : b = x
      · subst h; simp [bit_putBit _ _ _ _ (by decide : 0 < 32)]
      · rw [if_neg (by unfold axBase mtBase; omega), if_neg h]
    rw [this]
    by_cases h1 : b ∈ l <;> by_cases h2 : b = x <;> simp [h1, h2]

theorem mtMask_mem (d : Dev) (m i : Nat) (hi : i < 8) :
    (8 * m + i ∈ ((List.range 8).filter (fun i => bit (w32 (fld (rd d (MT_GRP_MASK m)) 7 0)) i)).map (fun i => 8 * m + i)) ↔ rdBit d (MT_GRP_MASK m) i = true := by
  rw [rdBit, List.mem_map]
  constructor
  · rintro ⟨x, hx, hxi⟩
    have : x = i := by omega
    subst this
    have := (List.mem_filter.mp hx).2
    rwa [bit_fld _ _ _ (by omega) (by decide)] at this
  · intro h
    exact ⟨i, List.mem_filter.mpr ⟨List.mem_range.mpr hi, by rw [bit_fld _ _ _ (by omega) (by decide)]; exact h⟩, rfl⟩

/-- A group command writes RUN of the masked axes of the tile. -/
theorem mtGroup_facts (d : Dev) (m i : Nat) (hi : i < 8) :
    (runBit (mtGroup d m 1) (.ax (8 * m + i)) = (if rdBit d (MT_GRP_MASK m) i then true else runBit d (.ax (8 * m + i)))
      ∧ (mtGroup d m 1).axes = d.axes ∧ rd (mtGroup d m 1) (pageBase (.mt m) + ERR_CODE) = rd d (pageBase (.mt m) + ERR_CODE))
    ∧ (runBit (mtGroup d m 2) (.ax (8 * m + i)) = (if rdBit d (MT_GRP_MASK m) i then false else runBit d (.ax (8 * m + i)))
      ∧ (mtGroup d m 2).axes = d.axes ∧ rd (mtGroup d m 2) (pageBase (.mt m) + ERR_CODE) = rd d (pageBase (.mt m) + ERR_CODE)) := by
  have key : ∀ on, runBit ((((List.range 8).filter (fun i => bit (w32 (fld (rd d (MT_GRP_MASK m)) 7 0)) i)).map (fun i => 8 * m + i)).foldl (fun d a => wrBit d (axBase a + BLK_CTRL) 0 on) d) (.ax (8 * m + i))
      = (if rdBit d (MT_GRP_MASK m) i then on else runBit d (.ax (8 * m + i))) := by
    intro on; rw [runFold]; exact if_congr (mtMask_mem d m i hi) rfl rfl
  have ke : ∀ on (l : List Nat), (l.foldl (fun d a => wrBit d (axBase a + BLK_CTRL) 0 on) d).axes = d.axes := fun on l =>
    foldl_keep (·.axes) (fun d a => wrBit d (axBase a + BLK_CTRL) 0 on) l (fun _ _ _ => by simp) d
  have kr : ∀ on (l : List Nat), rd (l.foldl (fun d a => wrBit d (axBase a + BLK_CTRL) 0 on) d) (pageBase (.mt m) + ERR_CODE) = rd d (pageBase (.mt m) + ERR_CODE) := fun on l =>
    foldl_keep (fun d => rd d (pageBase (.mt m) + ERR_CODE)) (fun d a => wrBit d (axBase a + BLK_CTRL) 0 on) l
      (fun x _ d => rd_wrBit_ne _ _ _ (by unfold pageBase axBase mtBase ERR_CODE BLK_CTRL; simp only; omega)) d
  exact ⟨⟨key true, ke true _, kr true _⟩, ⟨key false, ke false _, kr false _⟩⟩

/-- The axis as a move from standstill plans it. -/
def movedAxis (d : Dev) (a : Nat) (t : Int) : Axis :=
  { axOf d a with
    st := .moving
    target := t
    jog := false
    jogDir := 0
    done := false
    interrupted := false
    estop := false
    overshoot := false
    reverse := false
    lim := axRegs d a
    plan := planTo (axOf d a) t (axReg d (AX_VMAX a)) (axReg d (AX_AMAX a)) (axReg d (AX_DMAX a)) (axReg d (AX_JMAX a)) false }
theorem movedAxis_congr (d e : Dev) (a : Nat) (t : Int) (h1 : axOf e a = axOf d a) (hr : ∀ r, axBase a + 0x104 ≤ r → rd e r = rd d r) : movedAxis e a t = movedAxis d a t := by
  have r2 : ∀ x, axBase a + 0x104 ≤ x → axReg e x = axReg d x := fun x hx => by unfold axReg rd64; rw [hr x hx, hr (x + 4) (by omega)]
  unfold movedAxis
  rw [h1, axRegs_congr _ _ _ hr, r2 (AX_VMAX a) (by unfold AX_VMAX; omega), r2 (AX_AMAX a) (by unfold AX_AMAX; omega), r2 (AX_DMAX a) (by unfold AX_DMAX; omega), r2 (AX_JMAX a) (by unfold AX_JMAX; omega)]

/-- A move from standstill. -/
theorem axMoveTo_rest (d : Dev) (a n : Nat) (t : Int) (b : Bool) (hm : moveRefusal d a t b = none) (hv : (axOf d a).v = 0)
    (hn : ¬((axOf d a).st = .idle ∧ t = posCmd (axOf d a))) : axThen (axMoveTo d a ⟨n, axRegs d a, none⟩ t b) a = setAx d a (movedAxis d a t) := by
  unfold axMoveTo
  simp only [show refusalOf d a (axRegs d a) t b = none from hm]
  unfold axMove axThen
  simp only
  rw [if_neg hn]
  simp only [if_true]
  unfold axReplan
  simp only [axOf_setAx_same, ne_eq, not_true, if_false]
  rw [axPlan_rest _ _ (by simp only [axOf_setAx_same]; exact hv), setAx_setAx _ _ _ _ (by simp)]
  simp only [axOf_setAx_same]
  rfl
theorem axMoveAbs_rest (d : Dev) (a : Nat) (hm : moveRefusal d a (axReg d (AX_TGT a)) true = none) (hv : (axOf d a).v = 0)
    (hn : ¬((axOf d a).st = .idle ∧ axReg d (AX_TGT a) = posCmd (axOf d a))) : axMoveAbs d a = setAx d a (movedAxis d a (axReg d (AX_TGT a))) :=
  axMoveTo_rest d a 1 _ true hm hv hn

/-- MOVE_ABS of several axes at rest. -/
theorem goFold (l : List Nat) : ∀ d : Dev, l.Nodup → (∀ a ∈ l, a < 64 ∧ moveRefusal d a (axReg d (AX_TGT a)) true = none ∧ (axOf d a).v = 0
      ∧ ¬((axOf d a).st = .idle ∧ axReg d (AX_TGT a) = posCmd (axOf d a))) →
    (∀ b, axOf (l.foldl axMoveAbs d) b = if b ∈ l then movedAxis d b (axReg d (AX_TGT b)) else axOf d b) ∧ (∀ r, rd (l.foldl axMoveAbs d) r = rd d r)
      ∧ (l.foldl axMoveAbs d).sig = d.sig := by
  induction l with
  | nil => intro d _ _; simp
  | cons x l ih =>
    intro d hn hc
    obtain ⟨hx, hl⟩ := List.nodup_cons.mp hn
    obtain ⟨c0, c1, c2, c3⟩ := hc x (List.mem_cons_self ..)
    rw [List.foldl_cons, axMoveAbs_rest d x c1 c2 c3]
    have hrd : ∀ r, rd (setAx d x (movedAxis d x (axReg d (AX_TGT x)))) r = rd d r := fun r => rd_setAx _ _ _ _
    have hne : ∀ a ∈ l, a ≠ x := fun a ha h => hx (h ▸ ha)
    obtain ⟨i1, i2, i3⟩ := ih (setAx d x (movedAxis d x (axReg d (AX_TGT x)))) hl (by
      intro a ha
      obtain ⟨e0, e1, e2, e3⟩ := hc a (List.mem_cons_of_mem _ ha)
      have hax : axOf (setAx d x (movedAxis d x (axReg d (AX_TGT x)))) a = axOf d a := axOf_setAx_ne _ _ (hne a ha)
      have ht : axReg (setAx d x (movedAxis d x (axReg d (AX_TGT x)))) (AX_TGT a) = axReg d (AX_TGT a) := axReg_setAx _ _ _ _
      rw [ht, hax]
      exact ⟨e0, (moveRefusal_congr d _ a _ _ e0 hax (by simp) (fun r _ => hrd r)).trans e1, e2, e3⟩)
    refine ⟨?_, fun r => (i2 r).trans (hrd r), i3.trans (by simp)⟩
    intro b
    rw [i1 b]
    by_cases hb : b ∈ l
    · rw [if_pos hb, if_pos (List.mem_cons_of_mem _ hb)]
      have ht : axReg (setAx d x (movedAxis d x (axReg d (AX_TGT x)))) (AX_TGT b) = axReg d (AX_TGT b) := axReg_setAx _ _ _ _
      rw [ht]; exact movedAxis_congr d _ b _ (axOf_setAx_ne _ _ (hne b hb)) (fun r _ => hrd r)
    · rw [if_neg hb]
      by_cases hbx : b = x
      · subst hbx; simp
      · rw [axOf_setAx_ne _ _ hbx, if_neg (by simp [hb, hbx])]

/-- What an emergency stop with a cause leaves: the axis, the code, the position at the fault. -/
theorem axStop_facts (d : Dev) (a code : Nat) (x : Axis) (ha : a < 64) (hc : code < 65536) :
    axOf (axRecord (err (setAx (wr64 d (AX_FLT_POS a) (u64 (posCmd (axOf d a)))) a x) (.ax a) code 0) a code) a = x
      ∧ rdN (axRecord (err (setAx (wr64 d (AX_FLT_POS a) (u64 (posCmd (axOf d a)))) a x) (.ax a) code 0) a code) (axBase a + ERR_CODE) % 65536 = code
      ∧ rd64 (axRecord (err (setAx (wr64 d (AX_FLT_POS a) (u64 (posCmd (axOf d a)))) a x) (.ax a) code 0) a code) (AX_FLT_POS a)
        = mk64 (lo64 (u64 (posCmd (axOf d a)))) (hi64 (u64 (posCmd (axOf d a))))
      ∧ (∀ b, b ≠ a → axOf (axRecord (err (setAx (wr64 d (AX_FLT_POS a) (u64 (posCmd (axOf d a)))) a x) (.ax a) code 0) a code) b = axOf d b)
      ∧ (axRecord (err (setAx (wr64 d (AX_FLT_POS a) (u64 (posCmd (axOf d a)))) a x) (.ax a) code 0) a code).sig = d.sig := by
  generalize hx : err (setAx (wr64 d (AX_FLT_POS a) (u64 (posCmd (axOf d a)))) a x) (.ax a) code 0 = e
  have hr : Recorded e (axRecord e a code) := recorded_report _ _ _ _
  have hlo : ∀ r, r < axBase a + 0x1000 → rd (axRecord e a code) r = rd e r := fun r hh => recorded_rd hr (Or.inl (by unfold axBase mtBase at hh; unfold dbBase; omega))
  have he : ∀ r, AX_FLT_POS a ≤ r → rd e r = rd (wr64 d (AX_FLT_POS a) (u64 (posCmd (axOf d a)))) r := fun r hh => by
    rw [← hx, rd_err_ne _ _ _ _ (by unfold AX_FLT_POS at hh; unfold pageBase ERR_CODE; simp only; omega) (by unfold AX_FLT_POS at hh; unfold pageBase ERR_ADDR; simp only; omega), rd_setAx]
  refine ⟨?_, ?_, ?_, ?_, ?_⟩
  · rw [recorded_axOf hr, ← hx]; simp
  · rw [rdN, hlo _ (by unfold ERR_CODE; omega), ← hx]
    exact (err_code _ (.ax a) _ _).trans (Nat.mod_eq_of_lt hc)
  · rw [← rd64_wr64_same d (AX_FLT_POS a) (u64 (posCmd (axOf d a)))]
    unfold rd64
    rw [hlo _ (by unfold AX_FLT_POS; omega), hlo _ (by unfold AX_FLT_POS; omega), he _ (Nat.le_refl _), he _ (by omega)]
  · intro b hb; rw [recorded_axOf hr, ← hx, axOf_err, axOf_setAx_ne _ _ hb, axOf_wr64]
  · rw [recorded_sig hr, ← hx]; simp

/-- A cell fault of an axis (R180). -/
theorem axFault_facts (d : Dev) (a code : Nat) (ha : a < 64) (hc : code < 65536) :
    axOf (axFault d a code) a = { axOf d a with st := .fault, hphase := 0, hnext := .none, plan := planHalt (axOf d a) (axReg d (AX_EDEC a)) (axReg d (AX_EJERK a)), jog := false, estop := true, armed := none }
      ∧ rdN (axFault d a code) (axBase a + ERR_CODE) % 65536 = code
      ∧ rd64 (axFault d a code) (AX_FLT_POS a) = mk64 (lo64 (u64 (posCmd (axOf d a)))) (hi64 (u64 (posCmd (axOf d a))))
      ∧ (∀ b, b ≠ a → axOf (axFault d a code) b = axOf d b) ∧ (axFault d a code).sig = d.sig := by
  have hrg : ∀ r, r + 4 < AX_FLT_POS a → axReg (wr64 d (AX_FLT_POS a) (u64 (posCmd (axOf d a)))) r = axReg d r := fun r hh => by
    unfold axReg rd64; rw [rd_wr64_ne _ _ (by omega) (by omega), rd_wr64_ne _ _ (by omega) (by omega)]
  obtain ⟨h1, h2, h3, h4, h5⟩ := axStop_facts d a code { estopPlan (wr64 d (AX_FLT_POS a) (u64 (posCmd (axOf d a)))) a (axOf d a) with st := .fault, hphase := 0, hnext := .none } ha hc
  unfold axFault
  refine ⟨h1.trans ?_, h2, h3, h4, h5⟩
  unfold estopPlan
  rw [hrg _ (by unfold AX_EDEC AX_FLT_POS; omega), hrg _ (by unfold AX_EJERK AX_FLT_POS; omega)]

/-! ### The commands of an axis -/

theorem axRegs_tgt (d : Dev) (a : Nat) : (axRegs d a).tgt = axReg d (AX_TGT a) := rfl
theorem axRegs_vm (d : Dev) (a : Nat) : (axRegs d a).vm = axReg d (AX_VMAX a) := rfl
theorem axRegs_am (d : Dev) (a : Nat) : (axRegs d a).am = axReg d (AX_AMAX a) := rfl
theorem axRegs_dm (d : Dev) (a : Nat) : (axRegs d a).dm = axReg d (AX_DMAX a) := rfl
theorem axRegs_jm (d : Dev) (a : Nat) : (axRegs d a).jm = axReg d (AX_JMAX a) := rfl
theorem axRegs_hofs (d : Dev) (a : Nat) : (axRegs d a).hofs = axReg d (AX_HOME_OFS a) := rfl
theorem axRegs_gden (d : Dev) (a : Nat) : (axRegs d a).gden = rdN d (AX_GEAR_DEN a) := rfl
theorem axRegs_aden (d : Dev) (a : Nat) : (axRegs d a).aden = rdN d (AX_GEAR_ADEN a) := rfl
/-- Plans depend on the generator's three values alone. -/
theorem planHalt_gen (x : Axis) {y : Axis} (dm j : Int) (h1 : y.v = x.v) (h2 : y.a = x.a) : planHalt y dm j = planHalt x dm j := by unfold planHalt; rw [h1, h2]
theorem haltWay_gen (x : Axis) {y : Axis} (dm j : Int) (h1 : y.v = x.v) (h2 : y.a = x.a) : haltWay y dm j = haltWay x dm j := by
  unfold haltWay; rw [planHalt_gen x dm j h1 h2, h1, h2]
theorem haltDist_gen (x : Axis) {y : Axis} (dm j : Int) (h1 : y.v = x.v) (h2 : y.a = x.a) : haltDist y dm j = haltDist x dm j := by
  unfold haltDist; rw [haltWay_gen x dm j h1 h2]
theorem planTo_gen (x : Axis) {y : Axis} (t v am dm j : Int) (b : Bool) (h0 : y.p = x.p) (h1 : y.v = x.v) (h2 : y.a = x.a) : planTo y t v am dm j b = planTo x t v am dm j b := by
  unfold planTo; rw [h0, h1, h2, planHalt_gen x dm j h1 h2, haltWay_gen x dm j h1 h2]
theorem planSpeed_gen (x : Axis) {y : Axis} (v am dm j : Int) (h1 : y.v = x.v) (h2 : y.a = x.a) : planSpeed y v am dm j = planSpeed x v am dm j := by
  unfold planSpeed velCmd; rw [h1, h2, planHalt_gen x dm j h1 h2]
theorem posCmd_gen (x : Axis) {y : Axis} (h0 : y.p = x.p) : posCmd y = posCmd x := by unfold posCmd; rw [h0]
theorem softOn_moving {x y : Axis} (h : softOn x = false) (hs : x.st ≠ .homing) (hr : y.ref = x.ref) : softOn y = false := by
  unfold softOn at *; rw [hr]; simp [hs] at h; simp [h]
/-- An accepted move does not come from homing. -/
theorem refusal_st {d : Dev} {a : Nat} {t : Int} {b : Bool} (h : moveRefusal d a t b = none) : (axOf d a).st ≠ .homing := by
  intro e; unfold moveRefusal refusalOf at h; simp [e] at h
/-- MOVE_ABS on the target. -/
theorem axMoveAbs_there (d : Dev) (a : Nat) (hm : moveRefusal d a (axReg d (AX_TGT a)) true = none)
    (hn : (axOf d a).st = .idle ∧ axReg d (AX_TGT a) = posCmd (axOf d a)) :
    axMoveAbs d a = bump (setAx d a { axOf d a with done := true, target := posCmd (axOf d a), overshoot := false, reverse := false, interrupted := false, lim := axRegs d a }) (AX_MOVE_CNT a) := by
  rw [axRow1]; unfold axMoveTo
  simp only [show refusalOf d a (axRegs d a) (axRegs d a).tgt true = none from hm]
  rw [show (axRegs d a).tgt = posCmd (axOf d a) from hn.2, axMove_on _ _ _ _ ⟨hn.1, rfl⟩, axThen_no]
/-- MOVE_ABS on the way up, to a target ahead. -/
theorem axMoveAbs_up (d : Dev) (a : Nat) (hm : moveRefusal d a (axReg d (AX_TGT a)) true = none) (hn : (axOf d a).st ≠ .idle) (hv : 0 < (axOf d a).v)
    (h1 : posCmd (axOf d a) ≤ axReg d (AX_TGT a)) (h2 : softOn (axOf d a) = false ∨ posCmd (axOf d a) + haltDist (axOf d a) (axReg d (AX_DMAX a)) (axReg d (AX_JMAX a)) ≤ axReg d (AX_TGT a)) :
    ∃ y, axMoveAbs d a = setAx d a y ∧ y.st = .moving ∧ y.target = axReg d (AX_TGT a)
      ∧ y.overshoot = decide (axReg d (AX_TGT a) < posCmd (axOf d a) + haltDist (axOf d a) (axReg d (AX_DMAX a)) (axReg d (AX_JMAX a)))
      ∧ y.reverse = false ∧ y.p = (axOf d a).p ∧ y.v = (axOf d a).v := by
  have hst := refusal_st hm
  rw [axRow1]; unfold axMoveTo
  simp only [show refusalOf d a (axRegs d a) (axRegs d a).tgt true = none from hm]
  rw [axMove_off _ _ _ _ (fun h => hn h.1), axThen_plan, axReplan_move _ _ _ rfl rfl]
  rw [axPlan_up _ _ (by simp only [axOf_setAx_same]; exact hv) (by simp only [axOf_setAx_same]; exact h1)
    (by simp only [axOf_setAx_same]; rcases h2 with h | h
        · exact .inl (softOn_moving h hst rfl)
        · exact .inr h), setAx_setAx _ _ _ _ (by simp)]
  simp only [axOf_setAx_same]
  exact ⟨_, rfl, rfl, rfl, rfl, rfl, rfl, rfl⟩
theorem axPlan_ahead (d : Dev) (a : Nat) (x : Axis) (h : 0 < x.v) (h1 : posCmd x ≤ x.target) (h2 : posCmd x + haltDist x x.lim.dm x.lim.jm ≤ x.target) (hst : x.st ≠ .disabled) :
    axPlan (setAx d a x) a = setAx d a { x with jog := false, overshoot := false, reverse := false, plan := planTo x x.target x.lim.vm x.lim.am x.lim.dm x.lim.jm false } := by
  have hno : decide (x.target < posCmd x + haltDist x x.lim.dm x.lim.jm) = false := by simp only [decide_eq_false_iff_not]; omega
  have := axPlan_up (setAx d a x) a
  rw [axOf_setAx_same] at this
  rw [this h h1 (.inr h2), setAx_setAx _ _ _ _ hst, hno]
theorem axUpdateCmd_ok (d : Dev) (a : Nat) (c : AxCmd) (hst : (axOf d a).st = .moving) (hj : (axOf d a).jogDir = 0) (hs : softOn (axOf d a) = false ∨ beyond d a (axOf d a).target = false)
    (ht : towardsLimit (axOf d a) ((axOf d a).target - posCmd (axOf d a)) = false) (hr : rateOk d a c.r.vm = true) (hl : limitBad c.r.limits = none) :
    axUpdateCmd d a c = (setAx d a { axOf d a with lim := c.r }, true, true) := by
  unfold axUpdateCmd
  generalize axOf d a = x at *
  have h1 : ¬(x.jogDir = 0 ∧ softOn x = true ∧ beyond d a x.target = true) := by rintro ⟨-, h1, h2⟩; rcases hs with h | h <;> simp_all
  simp only [hst, ne_eq, not_true, if_false, h1, hj, if_true, ht, Bool.false_eq_true, hr, hl, reduceCtorEq]
  simp only [hj, hs, ht, true_and, if_true, Bool.false_eq_true, if_false] at *
  first | rfl | (rw [if_neg h1])
/-- UPDATE of a move on the way up, to a target ahead of the turn point. -/
theorem axUpdate_up (d : Dev) (a : Nat) (hl : ∀ x ∈ moveLimits d a, 0 < x) (hst : (axOf d a).st = .moving) (hj : (axOf d a).jogDir = 0) (hv : 0 < (axOf d a).v)
    (hs : softOn (axOf d a) = false ∨ beyond d a (axOf d a).target = false) (h1 : posCmd (axOf d a) ≤ (axOf d a).target)
    (h2 : posCmd (axOf d a) + haltDist (axOf d a) (axReg d (AX_DMAX a)) (axReg d (AX_JMAX a)) ≤ (axOf d a).target)
    (ht : towardsLimit (axOf d a) ((axOf d a).target - posCmd (axOf d a)) = false) (hr : rateOk d a (axReg d (AX_VMAX a)) = true) :
    axUpdate d a = setAx d a { axOf d a with
        lim := axRegs d a, jog := false, overshoot := false, reverse := false
        plan := planTo (axOf d a) (axOf d a).target (axReg d (AX_VMAX a)) (axReg d (AX_AMAX a)) (axReg d (AX_DMAX a)) (axReg d (AX_JMAX a)) false } := by
  rw [axRow3, axUpdateCmd_ok d a ⟨3, axRegs d a, none⟩ hst hj hs ht hr (limitBad_pos _ hl), axThen_plan, axReplan_move _ _ _ (by exact hst) (by exact hj),
    axPlan_ahead _ _ _ (by exact hv) (by rw [posCmd_gen (axOf d a) (by rfl)]; exact h1)
      (by rw [posCmd_gen (axOf d a) (by rfl), haltDist_gen (axOf d a) _ _ (by rfl) (by rfl)]; exact h2) (by simp [hst]),
    planTo_gen (axOf d a) _ _ _ _ _ _ (by rfl) (by rfl) (by rfl)]
  rfl
theorem axJogCmd_ok (d : Dev) (a : Nat) (c : AxCmd) (dir : Int) (hst : (axOf d a).st = .idle) (ht : towardsLimit (axOf d a) dir = false) (hg : gateClosed d a = false)
    (hr : rateOk d a c.r.vm = true) (hl : limitBad c.r.limits = none) :
    axJogCmd d a c dir = (setAx d a { axOf d a with st := .moving, jogDir := dir, done := false, overshoot := false, reverse := false, interrupted := false, estop := false, lim := c.r }, true, true) := by
  unfold axJogCmd
  generalize axOf d a = x at *
  simp only [hst, ht, hg, hr, hl, true_or, not_true, if_false, Bool.false_eq_true, reduceCtorEq]
theorem axJogPlan_free (d : Dev) (a : Nat) (x : Axis) (h : softOn x = false) (hv : x.v = 0) (hst : x.st ≠ .disabled) :
    axJogPlan (setAx d a x) a = setAx d a { x with jog := true, overshoot := false, reverse := false, target := if 0 < x.jogDir then axReg d (AX_SLIM_POS a) else axReg d (AX_SLIM_NEG a)
                                                   plan := planSpeed x (x.jogDir * x.lim.vm) x.lim.am x.lim.dm x.lim.jm } := by
  unfold axJogPlan
  rw [axOf_setAx_same]
  simp only [axReg_setAx]
  rw [if_neg (by rw [h]; simp), setAx_setAx _ _ _ _ hst, h]
  have : decide (x.v * x.jogDir < 0) = false := by rw [hv]; simp
  rw [this]
  rfl
/-- A jog from standstill without soft limits. -/
theorem axJogCmd_rest (d : Dev) (a n : Nat) (dir : Int) (hd : dir = 1 ∨ dir = -1) (hl : ∀ x ∈ moveLimits d a, 0 < x) (hst : (axOf d a).st = .idle) (hv : (axOf d a).v = 0)
    (hs : softOn (axOf d a) = false) (h1 : (axOf d a).limP.on = false) (h2 : (axOf d a).limN.on = false) (hg : gateClosed d a = false)
    (hr : rateOk d a (axReg d (AX_VMAX a)) = true) :
    axThen (axJogCmd d a ⟨n, axRegs d a, none⟩ dir) a = setAx d a { axOf d a with
        st := .moving, jogDir := dir, jog := true, done := false, overshoot := false, reverse := false, interrupted := false, estop := false
        lim := axRegs d a
        target := if 0 < dir then axReg d (AX_SLIM_POS a) else axReg d (AX_SLIM_NEG a)
        plan := planSpeed (axOf d a) (dir * axReg d (AX_VMAX a)) (axReg d (AX_AMAX a)) (axReg d (AX_DMAX a)) (axReg d (AX_JMAX a)) } := by
  have hdn : dir ≠ 0 := by rcases hd with h | h <;> omega
  rw [axJogCmd_ok d a ⟨n, axRegs d a, none⟩ _ hst (by unfold towardsLimit; simp [h1, h2]) hg hr (limitBad_pos _ hl), axThen_plan, axReplan_jog _ _ _ rfl hdn,
    axJogPlan_free _ _ _ (softOn_moving hs (by rw [hst]; decide) (by rfl)) (by exact hv) (by simp), planSpeed_gen (axOf d a) _ _ _ _ (by rfl) (by rfl)]
  rfl
theorem axToStopping_setAx (d : Dev) (a : Nat) (x : Axis) (h : x.st ≠ .disabled) :
    axToStopping (setAx d a x) a = setAx d a { x with st := .stopping, plan := planHalt x x.lim.dm x.lim.jm, jog := false, armed := none, estop := false, done := false, hres := if x.st = .homing then 4 else x.hres, hphase := 0, hnext := .none } := by
  unfold axToStopping stopPlan
  rw [axOf_setAx_same]
  exact setAx_setAx _ _ _ _ h
theorem axStopCmd_ok (d : Dev) (a : Nat) (c : AxCmd) (hst : (axOf d a).st = .moving ∨ (axOf d a).st = .homing ∨ (axOf d a).st = .geared)
    (hl : limitBad [c.r.dm, c.r.jm] = none) : axStopCmd d a c = (axToStopping (setAx d a { axOf d a with lim := c.r }) a, true, false) := by
  unfold axStopCmd
  generalize axOf d a = x at *
  simp only [hst, hl, if_true]
theorem stopLimits (r : AxRegs) (h1 : 0 < r.dm) (h2 : 0 < r.jm) : limitBad [r.dm, r.jm] = none := by unfold limitBad; rw [if_neg (by omega), if_neg (by omega)]; unfold limitBad; rw [if_neg (by omega), if_neg (by omega)]; rfl
/-- STOP with usable limits. -/
theorem axStop_ok (d : Dev) (a n : Nat) (h1 : 0 < axReg d (AX_DMAX a)) (h2 : 0 < axReg d (AX_JMAX a)) (hst : (axOf d a).st = .moving ∨ (axOf d a).st = .homing ∨ (axOf d a).st = .geared) :
    axStopCmd d a ⟨n, axRegs d a, none⟩ = (setAx d a { axOf d a with
      st := .stopping
      lim := axRegs d a
      plan := planHalt (axOf d a) (axReg d (AX_DMAX a)) (axReg d (AX_JMAX a))
      jog := false
      armed := none
      estop := false
      done := false
      hres := if (axOf d a).st = .homing then 4 else (axOf d a).hres
      hphase := 0
      hnext := .none }, true, false) := by
  rw [axStopCmd_ok _ _ _ hst (stopLimits (axRegs d a) h1 h2), axToStopping_setAx _ _ _ (by rcases hst with h | h | h <;> simp [h]),
    planHalt_gen (axOf d a) _ _ (by rfl) (by rfl)]
  rfl
theorem axEstop_ok (d : Dev) (a : Nat) (h1 : 0 < axReg d (AX_EDEC a)) (h2 : 0 < axReg d (AX_EJERK a)) (hst : (axOf d a).st = .moving ∨ (axOf d a).st = .stopping ∨ (axOf d a).st = .homing ∨ (axOf d a).st = .geared) :
    axEstop d a = setAx d a { axOf d a with
      st := .estopping
      plan := planHalt (axOf d a) (axReg d (AX_EDEC a)) (axReg d (AX_EJERK a))
      jog := false
      armed := none
      estop := true
      hres := if (axOf d a).st = .homing then 4 else (axOf d a).hres
      hphase := 0
      hnext := .none } := by
  have hl : limitBad [axReg d (AX_EDEC a), axReg d (AX_EJERK a)] = none := limitBad_pos _ (by intro x hx; simp only [List.mem_cons, List.not_mem_nil, or_false] at hx; rcases hx with h | h <;> rw [h] <;> assumption)
  rw [axRow7]; unfold axEstopCmd
  generalize axOf d a = x at *
  simp only [hst, hl, if_true]
  rfl
theorem axHomeCmd_ok (d : Dev) (a : Nat) (c : AxCmd) (hst : (axOf d a).st = .idle) (hg : gateClosed d a = false) (hr : rateOk d a c.r.vm = true)
    (hl : limitBad ([c.r.am, c.r.dm, c.r.jm] ++ hVels c.r (hMethod d a)) = none) :
    axHomeCmd d a c =
      (if hMethod d a = 7 then homeFound (setAx d a { axOf d a with st := .homing, ref := false, hres := 0, hphase := 1, chat := 0, hrev := false, done := false, hdir := hSearchDir (hMethod d a), hnext := .none, idxAt := none, estop := false, lim := c.r }) a (posAct (setAx d a { axOf d a with st := .homing, ref := false, hres := 0, hphase := 1, chat := 0, hrev := false, done := false, hdir := hSearchDir (hMethod d a), hnext := .none, idxAt := none, estop := false, lim := c.r }) a)
       else if hMethod d a ≤ 3 ∧ (axOf d a).home.on = true then homePhase (setAx d a { axOf d a with st := .homing, ref := false, hres := 0, hphase := 1, chat := 0, hrev := false, done := false, hdir := hSearchDir (hMethod d a), hnext := .none, idxAt := none, estop := false, lim := c.r }) a 2
       else homePhase (setAx d a { axOf d a with st := .homing, ref := false, hres := 0, hphase := 1, chat := 0, hrev := false, done := false, hdir := hSearchDir (hMethod d a), hnext := .none, idxAt := none, estop := false, lim := c.r }) a 1, true, false) := by
  unfold axHomeCmd
  generalize axOf d a = x at *
  simp only [hst, hg, hr, hl, ne_eq, not_true, if_false, Bool.false_eq_true, reduceCtorEq]
theorem homePhase_search (d : Dev) (a : Nat) (x : Axis) (h : x.st ≠ .disabled) :
    ∃ y, homePhase (setAx d a x) a 1 = setAx d a y ∧ y.st = x.st ∧ y.hphase = 1 ∧ y.ref = x.ref ∧ y.hres = x.hres ∧ y.hdir = hSearchDir (hMethod d a)
      ∧ y.plan = planSpeed x (hSearchDir (hMethod d a) * hSearchVel x.lim (hMethod d a)) x.lim.am x.lim.dm x.lim.jm ∧ y.p = x.p := by
  have e1 : hMethod (setAx d a x) a = hMethod d a := by unfold hMethod; rw [rd_setAx]
  unfold homePhase
  rw [axOf_setAx_same, e1]
  simp only
  rw [setAx_setAx _ _ _ _ h]
  refine ⟨_, rfl, rfl, rfl, rfl, rfl, rfl, ?_, rfl⟩
  unfold hRun
  exact planSpeed_gen x _ _ _ _ rfl rfl
theorem homeFound_setAx (d : Dev) (a : Nat) (x : Axis) (r : Int) (h : x.st ≠ .disabled) :
    ∃ y, homeFound (setAx d a x) a r = setAx d a y ∧ y.st = x.st ∧ y.hphase = 4 ∧ y.hnext = .ok ∧ y.p = x.p + (x.lim.hofs - r) * 2 ^ 48 ∧ y.fbOff = x.fbOff + (x.lim.hofs - r) := by
  unfold homeFound
  rw [axOf_setAx_same, setAx_setAx _ _ _ _ h]
  exact ⟨_, rfl, rfl, rfl, rfl, rfl, rfl⟩
/-- HOME that searches. -/
theorem axHome_search (d : Dev) (a : Nat) (hst : (axOf d a).st = .idle) (hg : gateClosed d a = false) (hr : rateOk d a (axReg d (AX_VMAX a)) = true)
    (hl : ∀ x ∈ [axReg d (AX_AMAX a), axReg d (AX_DMAX a), axReg d (AX_JMAX a)] ++ hVels (axRegs d a) (hMethod d a), 0 < x)
    (hm : hMethod d a < 7) (hh : 3 < hMethod d a ∨ (axOf d a).home.on = false) :
    ∃ y, axHome d a = setAx d a y ∧ y.st = .homing ∧ y.hphase = 1 ∧ y.ref = false ∧ y.hres = 0 ∧ y.hdir = hSearchDir (hMethod d a)
      ∧ y.plan = planSpeed (axOf d a) (hSearchDir (hMethod d a) * hSearchVel (axRegs d a) (hMethod d a)) (axReg d (AX_AMAX a)) (axReg d (AX_DMAX a)) (axReg d (AX_JMAX a))
      ∧ y.p = (axOf d a).p := by
  rw [axRow8, axHomeCmd_ok d a ⟨8, axRegs d a, none⟩ hst hg hr (limitBad_pos _ hl), if_neg (by omega), if_neg (by rintro ⟨h1, h2⟩; rcases hh with h | h <;> first | omega | (rw [h] at h2; cases h2)), axThen_no]
  obtain ⟨y, e0, e1, e2, e3, e4, e5, e6, e7⟩ := homePhase_search d a { axOf d a with st := .homing, ref := false, hres := 0, hphase := 1, chat := 0, hrev := false, done := false, hdir := hSearchDir (hMethod d a), hnext := .none, idxAt := none, estop := false, lim := axRegs d a } (by simp)
  exact ⟨y, e0, e1, e2, e3, e4, e5, e6.trans (planSpeed_gen (axOf d a) _ _ _ _ rfl rfl), e7⟩
/-- HOME of method 7 takes the present position. -/
theorem axHome_here (d : Dev) (a : Nat) (hst : (axOf d a).st = .idle) (hg : gateClosed d a = false) (hr : rateOk d a (axReg d (AX_VMAX a)) = true)
    (h1 : 0 < axReg d (AX_AMAX a)) (h2 : 0 < axReg d (AX_DMAX a)) (h3 : 0 < axReg d (AX_JMAX a)) (hm : hMethod d a = 7) :
    ∃ y, axHome d a = setAx d a y ∧ y.st = .homing ∧ y.hphase = 4 ∧ y.hnext = .ok ∧ y.p = (axOf d a).p + (axReg d (AX_HOME_OFS a) - posAct d a) * 2 ^ 48
      ∧ y.fbOff = (axOf d a).fbOff + (axReg d (AX_HOME_OFS a) - posAct d a) := by
  have hp : ∀ y : Axis, y.fb = (axOf d a).fb → y.fbOff = (axOf d a).fbOff → y.p = (axOf d a).p → posAct (setAx d a y) a = posAct d a := fun y h1 h2 h3 => by
    unfold posAct fbEn rdBit; rw [axOf_setAx_same, rd_setAx]; simp only [h1, h2, posCmd_gen _ h3]
  have hl : limitBad ([(axRegs d a).am, (axRegs d a).dm, (axRegs d a).jm] ++ hVels (axRegs d a) (hMethod d a)) = none := limitBad_pos _ (by
    rw [hm]; intro x hx; simp only [hVels, if_true, List.append_nil, List.mem_cons, List.not_mem_nil, or_false] at hx
    rcases hx with h | h | h <;> rw [h] <;> assumption)
  rw [axRow8, axHomeCmd_ok d a ⟨8, axRegs d a, none⟩ hst hg hr hl, if_pos hm, axThen_no, hp _ (by rfl) (by rfl) (by rfl)]
  obtain ⟨y, e0, e1, e2, e3, e4, e5⟩ := homeFound_setAx d a { axOf d a with st := .homing, ref := false, hres := 0, hphase := 1, chat := 0, hrev := false, done := false, hdir := hSearchDir (hMethod d a), hnext := .none, idxAt := none, estop := false, lim := axRegs d a } (posAct d a) (by simp)
  exact ⟨y, e0, e1, e2, e3, e4, e5⟩
theorem axEngage_ok (d : Dev) (a : Nat) (hst : (axOf d a).st = .idle) (hg : gateClosed d a = false) (hr : rdBit d (AX_CFG a) 7 = false ∨ (axOf d a).ref = true)
    (hd : rdN d (AX_GEAR_DEN a) ≠ 0) : axGearEngage d a = setAx d a { axOf d a with
      st := .geared, m0 := (axOf d a).m * 65536, f0 := posCmd (axOf d a), num := sgn 32 (rdN d (AX_GEAR_NUM a)), den := rdN d (AX_GEAR_DEN a), armed := none, plan := [], lim := axRegs d a } := by
  have h : axEngageCmd d a ⟨9, axRegs d a, none⟩ = (setAx d a { axOf d a with
      st := .geared, m0 := (axOf d a).m * 65536, f0 := posCmd (axOf d a), num := (axRegs d a).gnum, den := (axRegs d a).gden, armed := none, plan := [], lim := axRegs d a }, true, false) := by
    unfold axEngageCmd
    have hd' : ¬(axRegs d a).gden = 0 := hd
    have hr' : ¬(rdBit d (AX_CFG a) 7 = true ∧ (axOf d a).ref = false) := by rcases hr with h | h <;> simp [h]
    clear hr hd
    generalize axOf d a = x at *
    generalize axRegs d a = r at *
    simp only [hst, hg, ne_eq, not_true, if_false, Bool.false_eq_true, hd', hr']
  rw [axRow9, h, axThen_no]
  rfl
theorem axArm_ok (d : Dev) (a : Nat) (hst : (axOf d a).st = .geared) (hd : rdN d (AX_GEAR_ADEN a) ≠ 0) :
    axGearArm d a = setAx d a { axOf d a with armed := some ⟨sgn 32 (rdN d (AX_GEAR_ANUM a)), rdN d (AX_GEAR_ADEN a), rdBit d (AX_GEAR_ADIR a) 0, axReg d (AX_GEAR_MPOS a)⟩ } := by
  have hd' : ¬(axRegs d a).aden = 0 := hd
  have h : axArmCmd d a ⟨10, axRegs d a, none⟩ = (setAx d a { axOf d a with armed := some ⟨(axRegs d a).anum, (axRegs d a).aden, (axRegs d a).adir, (axRegs d a).mpos⟩ }, true, false) := by
    unfold axArmCmd
    generalize axOf d a = x at *
    generalize axRegs d a = r at *
    simp only [hst, ne_eq, not_true, if_false, hd']
  rw [axRow10, h, axThen_no]
  rfl
theorem axSetPos_ok (d : Dev) (a : Nat) (hst : (axOf d a).st = .idle ∨ (axOf d a).st = .disabled) :
    axSetPos d a = setAx d a { axOf d a with
      p := (axOf d a).p + (axReg d (AX_TGT a) - posCmd (axOf d a)) * 2 ^ 48
      fbOff := (axOf d a).fbOff + (axReg d (AX_TGT a) - posCmd (axOf d a))
      hist := (axOf d a).hist.map (· + (axReg d (AX_TGT a) - posCmd (axOf d a)))
      ref := true } := by
  have h : axSetPosCmd d a ⟨12, axRegs d a, none⟩ = (setAx d a { axShift (axOf d a) ((axRegs d a).tgt - posCmd (axOf d a)) with ref := true }, true, false) := by
    unfold axSetPosCmd
    generalize axOf d a = x at *
    generalize axRegs d a = r at *
    simp only [hst, if_true]
  rw [axRow12, h, axThen_no]
  rfl

end Sys2Proof.Machine
end

