-- ==== Sys2Proof/Laws/Tasks.lean ====
section
/-! SUPPORT. Logic processors: forces, changes of program, triggers, quarantine. -/

namespace Sys2Proof.Machine

/-! ### Logic processors -/

theorem rd_lp_issued (d : Dev) (p r off : Nat) (v : W32) (h : off ≠ r) (ho : off < 0x1000) (hp : p < 4) :
    rd (issued d (.lp p) r v) (lpBase p + off) = rd d (lpBase p + off) :=
  rd_issued_ne _ _ _ _ _ (by show lpBase p + off ≠ lpBase p + r; omega)
theorem recorded_lp {d e : Dev} (h : Recorded d e) (p a : Nat) (hp : p < 4) (ha : a < lpBase p + 0x1000) : rd e a = rd d a :=
  recorded_rd h (Or.inl (by unfold lpBase at ha; unfold dbBase; omega))
theorem rd64_lp_issued (d : Dev) (p r off : Nat) (v : W32) (h : off ≠ r) (h' : off + 4 ≠ r) (ho : off + 4 < 0x1000) (hp : p < 4) :
    rd64 (issued d (.lp p) r v) (lpBase p + off) = rd64 d (lpBase p + off) := by
  unfold rd64
  rw [rd_lp_issued _ _ _ _ _ h (by omega) hp, Nat.add_assoc, rd_lp_issued _ _ _ _ _ h' ho hp]
theorem bp_lp_issued (d : Dev) (p r : Nat) (v : W32) : bp (issued d (.lp p) r v) = bp d := by
  have h : ∀ a, a < 0x100000 → a ≠ pageBase (.lp p) + r := by intro a ha; show a ≠ lpBase p + r; unfold lpBase; omega
  unfold bp rd64
  rw [rd_issued_ne _ _ _ _ _ (h _ (by decide)), rd_issued_ne _ _ _ _ _ (h _ (by decide))]

theorem initWord_keep {γ : Type} (P : Lp → γ) (h : ∀ x m w h', P { x with m := m, w := w, h := h' } = P x) (p q : Nat) (d : Dev) (a wa : Nat) (v : W16) :
    P (lpOf (initWord p d a wa v) q) = P (lpOf d q) := by
  have key : ∀ (y : Lp), P y = P (lpOf d p) → P (lpOf (setLp d p y) q) = P (lpOf d q) := by
    intro y hy
    by_cases hq : q = p
    · subst hq; rw [lpOf_setLp_same, hy]
    · rw [lpOf_setLp_ne _ _ hq]
  unfold initWord
  match a with
  | 0 => exact key _ (h _ _ _ _)
  | 1 => exact key _ (h _ _ _ _)
  | n + 2 =>
    simp only
    split
    · exact key _ (h _ _ _ _)
    · rfl
theorem initRecs_keep {γ : Type} (P : Lp → γ) (h : ∀ x m w h', P { x with m := m, w := w, h := h' } = P x) (p q : Nat) (l : List LInit) (d : Dev) :
    P (lpOf (l.foldl (initRec p) d) q) = P (lpOf d q) :=
  foldl_keep (fun d => P (lpOf d q)) (initRec p) l (fun r _ d => by
    unfold initRec
    exact foldl_keep (fun d => P (lpOf d q)) _ _ (fun e _ d => initWord_keep P h p q d r.area (r.addr + e.2) e.1) d) d
theorem rd_initRecs (p : Nat) (l : List LInit) (d : Dev) (a : Nat) : rd (l.foldl (initRec p) d) a = rd d a :=
  foldl_keep (fun d => rd d a) (initRec p) l (fun r _ d => by
    unfold initRec
    exact foldl_keep (fun d => rd d a) _ _ (fun e _ d => by unfold initWord; simp only; split <;> (try split) <;> exact rd_congr rfl a) d) d

theorem lps_claims {α : Type} (f : α → Nat × Nat × Nat × Bool × W32) (l : List α) (d : Dev) :
    (l.foldl (fun d o => claim d (f o).1 (f o).2.1 (f o).2.2.1 (f o).2.2.2.1 (f o).2.2.2.2) d).lps = d.lps :=
  foldl_keep (fun d => d.lps) (fun d o => claim d (f o).1 (f o).2.1 (f o).2.2.1 (f o).2.2.2.1 (f o).2.2.2.2) l (fun _ _ _ => rfl) d
theorem lps_releaseAll (ns : List Nat) (d : Dev) : (releaseAll d ns).lps = d.lps := foldl_keep (·.lps) release ns (fun _ _ _ => rfl) d

theorem lpSafe_keep {γ : Type} (P : Dev → γ) (hp : ∀ d n v b, P (put2 d n v b) = P d) (d : Dev) (p : Nat) (b : Bool) : P (lpSafe d p b) = P d :=
  foldl_keep P _ _ (fun _ _ _ => hp _ _ _ _) d
theorem puts_stage2 {α : Type} (n : α → Nat) (v : α → W32) (b : Bool) (l : List α) : ∀ d : Dev,
    (l.foldl (fun d o => put2 d (n o) (v o) b) d).stage2 = d.stage2 ++ l.map (fun o => ⟨n o, v o, b⟩) := by
  induction l with
  | nil => intro d; simp
  | cons o l ih => intro d; rw [List.foldl_cons, ih]; simp [put2]
/-- Every export's safe value is staged. -/
theorem lpSafe_stage2 (d : Dev) (p : Nat) (b : Bool) : (lpSafe d p b).stage2 = d.stage2 ++
    (lpOf d p).prog.outs.map (fun o => ⟨o.n, o.safe, b⟩) := by
  unfold lpSafe; exact puts_stage2 _ _ _ _ d
/-- Quarantine: the state, the safe values and the error. -/
theorem lpQuarantine_facts (d : Dev) (p code addr : Nat) (hc : code < 65536) :
    lpOf (lpQuarantine d p code addr) p = { lpOf d p with st := .quarantined, insts := [], current := none }
      ∧ (lpQuarantine d p code addr).stage2 = d.stage2 ++ (lpOf d p).prog.outs.map (fun o => ⟨o.n, o.safe, true⟩)
      ∧ rdN (lpQuarantine d p code addr) (lpBase p + ERR_CODE) % 65536 = code
      ∧ rd (lpQuarantine d p code addr) (lpBase p + ERR_ADDR) = w32 addr ∧ (lpQuarantine d p code addr).sig = d.sig
      ∧ ∀ q, q ≠ p → lpOf (lpQuarantine d p code addr) q = lpOf d q := by
  unfold lpQuarantine
  have hl : ∀ q, lpOf (lpSafe d p true) q = lpOf d q := fun q => lpSafe_keep (fun d => lpOf d q) (fun _ _ _ _ => rfl) d p true
  refine ⟨by simp [hl], ?_, ?_, ?_, ?_, ?_⟩
  · rw [setLp_stage2, err_stage2, lpSafe_stage2]
  · have := err_code (lpSafe d p true) (.lp p) code addr
    rw [Nat.mod_eq_of_lt hc] at this
    unfold rdN at *; rw [rd_setLp]; exact this
  · rw [rd_setLp]; exact err_addr _ (.lp p) _ _
  · rw [setLp_sig, err_sig, lpSafe_keep (·.sig) (fun _ _ _ _ => rfl)]
  · intro q hq; rw [lpOf_setLp_ne _ _ hq, lpOf_err, hl]

/-- A change that ends without the swap. -/
theorem changeFail_facts (d : Dev) (p res c : Nat) (b : Bool) (fs : List (Nat × Nat × Bool)) (hp : p < 4) :
    lpOf (changeFail d p res c b fs) p = { lpOf d p with stage := .staged } ∧ (∀ q, q ≠ p → lpOf (changeFail d p res c b fs) q = lpOf d q)
      ∧ rd (changeFail d p res c b fs) (LP_CHG_RES p) = w32 (res + 256 * ((lpOf d p).deferrals % 256))
      ∧ rd (changeFail d p res c b fs) (LP_CHG_CNT p) = rd d (LP_CHG_CNT p) + 1
      ∧ rd (changeFail d p res c b fs) (pageBase (.lp p) + ERR_CODE) = rd d (pageBase (.lp p) + ERR_CODE)
      ∧ (changeFail d p res c b fs).sig = d.sig ∧ (changeFail d p res c b fs).stage2 = d.stage2 := by
  unfold changeFail changeEnd
  simp only
  generalize he : (if b then wr64 (setLp d p { lpOf d p with stage := .staged }) (LP_CHG_AT p) c else setLp d p { lpOf d p with stage := .staged }) = e
  have h1 : ∀ q, lpOf e q = lpOf (setLp d p { lpOf d p with stage := .staged }) q := by intro q; rw [← he]; split <;> simp
  have h2 : ∀ a, a ≠ LP_CHG_AT p → a ≠ LP_CHG_AT p + 4 → rd e a = rd d a := by
    intro a ha hb; rw [← he]; split
    · rw [rd_wr64_ne _ _ ha hb, rd_setLp]
    · rw [rd_setLp]
  have h3 : e.sig = d.sig ∧ e.stage2 = d.stage2 := by rw [← he]; split <;> simp
  have hd : (lpOf e p).deferrals = (lpOf d p).deferrals := by rw [h1]; simp
  have hr := recorded_report (bump (wrN e (LP_CHG_RES p) (res + 256 * ((lpOf e p).deferrals % 256))) (LP_CHG_CNT p)) 0x0042 (pageOrigin (.lp p))
    ([w32 p, w32 (lpOf e p).prog.id, w32 (lpOf e p).next.id] ++ pay64 c ++ [w32 (res + 256 * ((lpOf e p).deferrals % 256)), w32 fs.length] ++ fs.flatMap (fun f => [w32 f.1, w32 f.2.1, w32 (b2n f.2.2)]))
  refine ⟨?_, ?_, ?_, ?_, ?_, ?_, ?_⟩
  · rw [recorded_lpOf hr, lpOf_bump, lpOf_wrN, h1]; simp
  · intro q hq; rw [recorded_lpOf hr, lpOf_bump, lpOf_wrN, h1, lpOf_setLp_ne _ _ hq]
  · rw [recorded_lp hr p (LP_CHG_RES p) hp (by unfold LP_CHG_RES; omega), rd_bump_ne _ (by unfold LP_CHG_RES LP_CHG_CNT; omega), rd_wrN_same, hd]
  · rw [recorded_lp hr p (LP_CHG_CNT p) hp (by unfold LP_CHG_CNT; omega), rd_bump_same, rd_wrN_ne _ _ (by unfold LP_CHG_RES LP_CHG_CNT; omega), h2 _ (by unfold LP_CHG_AT LP_CHG_CNT; omega) (by unfold LP_CHG_AT LP_CHG_CNT; omega)]
  · rw [recorded_lp hr p _ hp (by unfold pageBase ERR_CODE; simp only; omega), rd_bump_ne _ (by unfold pageBase ERR_CODE LP_CHG_CNT; simp only; omega), rd_wrN_ne _ _ (by unfold pageBase ERR_CODE LP_CHG_RES; simp only; omega), h2 _ (by unfold pageBase ERR_CODE LP_CHG_AT; simp only; omega) (by unfold pageBase ERR_CODE LP_CHG_AT; simp only; omega)]
  · rw [recorded_sig hr]; simp [h3]
  · rw [recorded_stage2 hr]; simp [h3]

theorem st_setKeeps (f : Lp → Nat → TKeep) {γ : Type} (P : Lp → γ) (h : ∀ x k t, P (setKeep x k t) = P x) (l : List Nat) : ∀ x, P (l.foldl (fun y k => setKeep y k (f y k)) x) = P x := by
  induction l with
  | nil => intro x; rfl
  | cons k l ih => intro x; rw [List.foldl_cons, ih, h]
/-- Exports carry their forces in the signal table: registers and processors stand as before. -/
theorem forcesNow_keep {γ : Type} (P : Dev → γ) (h : ∀ d w, P (commitSig d w) = P d) (d : Dev) (p : Nat) : P (forcesNow d p) = P d := by
  unfold forcesNow; simp only
  split
  · exact foldl_keep P _ _ (fun _ _ _ => h _ _) d
  · rfl
theorem swapExports_keep {γ : Type} (P : Dev → γ) (h : ∀ d a b c e, P { d with sig := a, attr := b, stage1 := c, stage2 := e } = P d) (d : Dev) (p : Nat) (o n : LProg) :
    P (swapExports d p o n) = P d := by
  unfold swapExports
  simp only
  refine (foldl_keep P _ _ ?_ _).trans ?_
  · intro x _ d; split
    · exact h d _ _ d.stage1 d.stage2
    · exact h d _ _ d.stage1 d.stage2
  · exact foldl_keep P release _ (fun _ _ d => h d _ _ _ _) d
/-- The end of a swap: what the rest of it sets. -/
theorem swapEnd_facts (e0 : Dev) (p c old new : Nat) (y : Lp) (l : List LInit) (fs : List (Nat × Nat × Bool)) (hp : p < 4) (r : Dev)
    (hr : r = changeEnd (wr64 (wrN (wrN (wrN (forcesNow (l.foldl (initRec p) (setLp e0 p y)) p) (LP_PROG_ID p) new) (LP_STAGE_ID p) 0) (LP_FRC_COUNT p)
      (lpOf (forcesNow (l.foldl (initRec p) (setLp e0 p y)) p) p).forces.length) (LP_CHG_AT p) c) p 0 old new c fs) :
    (∀ {γ : Type} (P : Lp → γ), (∀ x m w h', P { x with m := m, w := w, h := h' } = P x) → P (lpOf r p) = P y)
      ∧ rd r (LP_PROG_ID p) = w32 new ∧ rd r (LP_STAGE_ID p) = 0 ∧ rd r (LP_CHG_CNT p) = rd e0 (LP_CHG_CNT p) + 1 ∧ rd r (LP_CHG_RES p) = w32 (256 * (y.deferrals % 256)) := by
  generalize he : forcesNow (l.foldl (initRec p) (setLp e0 p y)) p = e at hr
  have hk : ∀ {γ : Type} (P : Lp → γ), (∀ x m w h', P { x with m := m, w := w, h := h' } = P x) → P (lpOf e p) = P y := by
    intro γ P h
    rw [← he, forcesNow_keep (fun d => P (lpOf d p)) (fun _ _ => rfl), initRecs_keep P h, lpOf_setLp_same]
  have hrd : ∀ a, rd e a = rd e0 a := by
    intro a
    rw [← he, forcesNow_keep (fun d => rd d a) (fun _ _ => rd_congr rfl a), rd_initRecs, rd_setLp]
  generalize (lpOf e p).forces.length = fl at hr
  generalize hg : wr64 (wrN (wrN (wrN e (LP_PROG_ID p) new) (LP_STAGE_ID p) 0) (LP_FRC_COUNT p) fl) (LP_CHG_AT p) c = g at hr
  have hgl : lpOf g p = lpOf e p := by rw [← hg]; simp
  unfold changeEnd at hr
  simp only at hr
  have hrec := recorded_report (bump (wrN g (LP_CHG_RES p) (0 + 256 * ((lpOf g p).deferrals % 256))) (LP_CHG_CNT p)) 0x0042 (pageOrigin (.lp p))
    ([w32 p, w32 old, w32 new] ++ pay64 c ++ [w32 (0 + 256 * ((lpOf g p).deferrals % 256)), w32 fs.length] ++ fs.flatMap (fun f => [w32 f.1, w32 f.2.1, w32 (b2n f.2.2)]))
  rw [← hr] at hrec
  have hL : lpOf r p = lpOf e p := by rw [recorded_lpOf hrec, lpOf_bump, lpOf_wrN, hgl]
  refine ⟨fun P h => by rw [hL, hk P h], ?_, ?_, ?_, ?_⟩
  · rw [recorded_lp hrec p _ hp (by unfold LP_PROG_ID; omega), rd_bump_ne _ (by unfold LP_PROG_ID LP_CHG_CNT; omega), rd_wrN_ne _ _ (by unfold LP_PROG_ID LP_CHG_RES; omega), ← hg,
      rd_wr64_ne _ _ (by unfold LP_PROG_ID LP_CHG_AT; omega) (by unfold LP_PROG_ID LP_CHG_AT; omega), rd_wrN_ne _ _ (by unfold LP_PROG_ID LP_FRC_COUNT; omega), rd_wrN_ne _ _ (by unfold LP_PROG_ID LP_STAGE_ID; omega), rd_wrN_same]
  · rw [recorded_lp hrec p _ hp (by unfold LP_STAGE_ID; omega), rd_bump_ne _ (by unfold LP_STAGE_ID LP_CHG_CNT; omega), rd_wrN_ne _ _ (by unfold LP_STAGE_ID LP_CHG_RES; omega), ← hg,
      rd_wr64_ne _ _ (by unfold LP_STAGE_ID LP_CHG_AT; omega) (by unfold LP_STAGE_ID LP_CHG_AT; omega), rd_wrN_ne _ _ (by unfold LP_STAGE_ID LP_FRC_COUNT; omega), rd_wrN_same]; rfl
  · rw [recorded_lp hrec p _ hp (by unfold LP_CHG_CNT; omega), rd_bump_same, rd_wrN_ne _ _ (by unfold LP_CHG_CNT LP_CHG_RES; omega), ← hg,
      rd_wr64_ne _ _ (by unfold LP_CHG_CNT LP_CHG_AT; omega) (by unfold LP_CHG_CNT LP_CHG_AT; omega), rd_wrN_ne _ _ (by unfold LP_CHG_CNT LP_FRC_COUNT; omega), rd_wrN_ne _ _ (by unfold LP_CHG_CNT LP_STAGE_ID; omega), rd_wrN_ne _ _ (by unfold LP_CHG_CNT LP_PROG_ID; omega), hrd]
  · rw [recorded_lp hrec p _ hp (by unfold LP_CHG_RES; omega), rd_bump_ne _ (by unfold LP_CHG_RES LP_CHG_CNT; omega), rd_wrN_same, hgl, hk (·.deferrals) (fun _ _ _ _ => rfl), Nat.zero_add]
theorem lpSwap_shape (d : Dev) (p c : Nat) : ∃ (e0 : Dev) (y : Lp) (l : List LInit) (fs : List (Nat × Nat × Bool)),
    lpSwap d p c = changeEnd (wr64 (wrN (wrN (wrN (forcesNow (l.foldl (initRec p) (setLp e0 p y)) p) (LP_PROG_ID p) (lpOf d p).next.id) (LP_STAGE_ID p) 0) (LP_FRC_COUNT p)
      (lpOf (forcesNow (l.foldl (initRec p) (setLp e0 p y)) p) p).forces.length) (LP_CHG_AT p) c) p 0 (lpOf d p).prog.id (lpOf d p).next.id c fs
    ∧ (y.prog = (lpOf d p).next ∧ y.bank = !(lpOf d p).bank ∧ y.stage = .none ∧ y.next = noProg ∧ y.forces = (lpOf d p).forces.filter (fun f => !dropped (lpOf d p) f)
      ∧ y.slots = buildSlots (lpOf d p).next (matchSlot (lpOf d p)))
    ∧ (y.st = (lpOf d p).st ∧ y.deferrals = (lpOf d p).deferrals) ∧ ∀ a, a ≠ LP_MERGE_CNT p → rd e0 a = rd d a := by
  have hk : ∀ {γ : Type} (P : Lp → γ), (∀ x k t, P (setKeep x k t) = P x) → P (swapKeeps (lpOf d p)) = P (lpOf d p) := by
    intro γ P h
    unfold swapKeeps
    generalize taskNos = ns
    exact st_setKeeps _ P h ns _
  refine ⟨_, swapLp (lpOf d p), _, _, rfl, ⟨rfl, rfl, rfl, rfl, rfl, rfl⟩, ⟨?_, ?_⟩, ?_⟩
  · unfold swapLp; simp only; exact hk (fun x => x.st) (fun _ _ _ => rfl)
  · unfold swapLp; simp only; exact hk (fun x => x.deferrals) (fun _ _ _ => rfl)
  intro a ha
  exact (foldl_keep (fun d => rd d a) _ _ (fun _ _ _ => rd_bump_ne _ ha) _).trans (swapExports_keep (fun d => rd d a) (fun _ _ _ _ _ => rd_congr rfl a) _ _ _ _)
/-- The swap of banks at a change point. -/
theorem lpSwap_facts (d : Dev) (p c : Nat) (hp : p < 4) :
    (lpOf (lpSwap d p c) p).prog = (lpOf d p).next ∧ (lpOf (lpSwap d p c) p).bank = !(lpOf d p).bank ∧ (lpOf (lpSwap d p c) p).stage = .none
      ∧ (lpOf (lpSwap d p c) p).next = noProg ∧ (lpOf (lpSwap d p c) p).st = (lpOf d p).st
      ∧ (lpOf (lpSwap d p c) p).forces = (lpOf d p).forces.filter (fun f => !dropped (lpOf d p) f)
      ∧ (lpOf (lpSwap d p c) p).slots = buildSlots (lpOf d p).next (matchSlot (lpOf d p))
      ∧ rd (lpSwap d p c) (LP_PROG_ID p) = w32 (lpOf d p).next.id ∧ rd (lpSwap d p c) (LP_STAGE_ID p) = 0
      ∧ rd (lpSwap d p c) (LP_CHG_CNT p) = rd d (LP_CHG_CNT p) + 1
      ∧ rd (lpSwap d p c) (LP_CHG_RES p) = w32 (256 * ((lpOf d p).deferrals % 256)) := by
  obtain ⟨e0, y, l, fs, hr, ⟨y1, y2, y3, y4, y5, y6⟩, ⟨y7, y8⟩, h0⟩ := lpSwap_shape d p c
  obtain ⟨hk, f1, f2, f3, f4⟩ := swapEnd_facts e0 p c _ _ y l fs hp _ hr
  exact ⟨(hk (·.prog) (fun _ _ _ _ => rfl)).trans y1, (hk (·.bank) (fun _ _ _ _ => rfl)).trans y2, (hk (·.stage) (fun _ _ _ _ => rfl)).trans y3, (hk (·.next) (fun _ _ _ _ => rfl)).trans y4,
    (hk (·.st) (fun _ _ _ _ => rfl)).trans y7, (hk (·.forces) (fun _ _ _ _ => rfl)).trans y5, (hk (·.slots) (fun _ _ _ _ => rfl)).trans y6, f1, f2,
    f3.trans (by rw [h0 _ (by unfold LP_CHG_CNT LP_MERGE_CNT; omega)]), f4.trans (by rw [y8])⟩

/-- A force command carried out: the table, the result, the count. -/
theorem forceDone_facts (d : Dev) (p cmd sym val : Nat) (fs : List (Nat × Nat)) (hp : p < 4) :
    lpOf (forceDone d p cmd sym val fs) p = { lpOf d p with forces := fs } ∧ (∀ q, q ≠ p → lpOf (forceDone d p cmd sym val fs) q = lpOf d q)
      ∧ rd (forceDone d p cmd sym val fs) (LP_FRC_RES p) = 0 ∧ rd (forceDone d p cmd sym val fs) (LP_FRC_COUNT p) = w32 fs.length
      ∧ rd (forceDone d p cmd sym val fs) (pageBase (.lp p) + ERR_CODE) = rd d (pageBase (.lp p) + ERR_CODE) := by
  unfold forceDone
  simp only
  have hr := recorded_report (wrN (wrN (forcesNow (setLp d p { lpOf d p with forces := fs }) p) (LP_FRC_RES p) 0) (LP_FRC_COUNT p) fs.length) 0x0041 (pageOrigin (.lp p)) [w32 p, w32 cmd, w32 sym, w32 val]
  refine ⟨?_, ?_, ?_, ?_, ?_⟩
  · rw [recorded_lpOf hr, lpOf_wrN, lpOf_wrN, forcesNow_keep (fun d => lpOf d p) (fun _ _ => rfl)]; simp
  · intro q hq; rw [recorded_lpOf hr, lpOf_wrN, lpOf_wrN, forcesNow_keep (fun d => lpOf d q) (fun _ _ => rfl), lpOf_setLp_ne _ _ hq]
  · rw [recorded_lp hr p (LP_FRC_RES p) hp (by unfold LP_FRC_RES; omega), rd_wrN_ne _ _ (by unfold LP_FRC_COUNT LP_FRC_RES; omega), rd_wrN_same]; rfl
  · rw [recorded_lp hr p (LP_FRC_COUNT p) hp (by unfold LP_FRC_COUNT; omega), rd_wrN_same]
  · rw [recorded_lp hr p _ hp (by unfold pageBase ERR_CODE; simp only; omega), rd_wrN_ne _ _ (by unfold pageBase ERR_CODE LP_FRC_COUNT; simp only; omega), rd_wrN_ne _ _ (by unfold pageBase ERR_CODE LP_FRC_RES; simp only; omega), forcesNow_keep (fun d => rd d _) (fun _ _ => rd_congr rfl _), rd_setLp]

/-- Triggers of event tasks: each becomes pending. -/
theorem triggers_pend (p : Nat) (l : List Nat) : ∀ d : Dev, (∀ e, (keepOf (lpOf (l.foldl (fun d e => trigger d p e) d) p) (8 + e)).pend = (decide (e ∈ l) || (keepOf (lpOf d p) (8 + e)).pend))
    ∧ (lpOf (l.foldl (fun d e => trigger d p e) d) p) = { lpOf d p with keep := (lpOf (l.foldl (fun d e => trigger d p e) d) p).keep }
    ∧ ∀ a, a ≠ LP_MERGE_CNT p → rd (l.foldl (fun d e => trigger d p e) d) a = rd d a := by
  have one : ∀ (d : Dev) (e : Nat), (∀ n, (keepOf (lpOf (trigger d p e) p) (8 + n)).pend = (decide (n = e) || (keepOf (lpOf d p) (8 + n)).pend))
      ∧ lpOf (trigger d p e) p = { lpOf d p with keep := (lpOf (trigger d p e) p).keep } ∧ ∀ a, a ≠ LP_MERGE_CNT p → rd (trigger d p e) a = rd d a := by
    intro d e
    unfold trigger
    simp only
    split
    · next h =>
      refine ⟨fun n => ?_, by simp, fun a ha => rd_bump_ne _ ha⟩
      rw [lpOf_bump]
      by_cases hn : n = e
      · subst hn; simp [h]
      · simp [hn]
    · next h =>
      refine ⟨fun n => ?_, by simp [setKeep], fun a ha => rd_setLp _ _ _ _⟩
      rw [lpOf_setLp_same, keepOf_setKeep]
      by_cases hn : n = e
      · subst hn; simp
      · rw [if_neg (by omega)]; simp [hn]
  induction l with
  | nil => intro d; simp
  | cons e l ih =>
    intro d
    obtain ⟨a1, a2, a3⟩ := one d e
    obtain ⟨b1, b2, b3⟩ := ih (trigger d p e)
    rw [List.foldl_cons]
    refine ⟨fun n => ?_, ?_, fun a ha => by rw [b3 a ha, a3 a ha]⟩
    · rw [b1, a1]
      by_cases h1 : n ∈ l <;> by_cases h2 : n = e <;> simp [h1, h2]
    · rw [b2, a2]

/-- A signal image taken at release. -/
theorem image_take (f : Nat → W32) (l : List Nat) (n : Nat) (h : n ∈ l) : tget 0 (l.foldl (fun m n => tset 0 m n (f n)) []) n = f n := by
  have : ∀ (l : List Nat) (m : Tab W32), tget 0 (l.foldl (fun m n => tset 0 m n (f n)) m) n = if n ∈ l then f n else tget 0 m n := by
    intro l
    induction l with
    | nil => intro m; rfl
    | cons x l ih =>
      intro m
      rw [List.foldl_cons, ih]
      by_cases h1 : n ∈ l
      · simp [h1]
      · by_cases h2 : n = x
        · subst h2; simp [h1]
        · rw [tget_tset_ne _ _ _ _ h2]; simp [h1, h2]
  rw [this, if_pos h]

/-! ### Loading and memory errors -/

theorem lpIss (d : Dev) (p r off : Nat) (v : W32) (h : off ≠ r) (ho : off < 0x1000) (hp : p < 4) (x : Nat) (hx : x = lpBase p + off) : rd (issued d (.lp p) r v) x = rd d x := by
  subst hx; exact rd_lp_issued _ _ _ _ _ h ho hp
theorem keepImage_lp (p : Page) (b t : Nat) (c : List W8) (n : Nat) (ok : Bool) (d : Dev) (q : Nat) : lpOf (keepImage p b t c n ok d) q = lpOf d q := by
  unfold keepImage; split <;> rfl
theorem keepImage_rd (p : Page) (b t : Nat) (c : List W8) (n : Nat) (ok : Bool) (d : Dev) (q : Nat) : rd (keepImage p b t c n ok d) q = rd d q := by
  unfold keepImage; split
  · exact rd_congr rfl _
  · rfl
theorem keepImage_attr (p : Page) (b t : Nat) (c : List W8) (n : Nat) (ok : Bool) (d : Dev) : (keepImage p b t c n ok d).attr = d.attr ∧ (keepImage p b t c n ok d).sig = d.sig := by
  unfold keepImage; split <;> exact ⟨rfl, rfl⟩
theorem loadFail_facts (d : Dev) (p : Nat) : (∀ c, lpOf (lpLoadFail d p c) p = lpOf d p) ∧ (∀ c, rd (lpLoadFail d p c) (LP_LOAD_RES p) = w32 c)
    ∧ (∀ c, (rd (lpLoadFail d p c) (lpBase p + ERR_CODE)).toNat % 65536 = 0x0606) ∧ ∀ c, (lpLoadFail d p c).attr = d.attr ∧ (lpLoadFail d p c).sig = d.sig := by
  unfold lpLoadFail
  refine ⟨fun c => by rw [lpOf_err, lpOf_wrN], fun c => ?_, fun c => err_code _ (.lp p) _ _, fun c => ⟨by simp, by simp⟩⟩
  rw [rd_err_ne _ _ _ _ (by unfold LP_LOAD_RES pageBase ERR_CODE; simp only; omega) (by unfold LP_LOAD_RES pageBase ERR_ADDR; simp only; omega), rd_wrN_same]
theorem loadOk_facts (d : Dev) (p : Nat) (pr : LProg) : (∀ {γ : Type} (P : Lp → γ), (∀ x m w h', P { x with m := m, w := w, h := h' } = P x) → P (lpOf (lpLoadOk d p pr) p) = P { lpOf d p with st := .loaded, prog := pr, copy := [], copyLen := 0, m := [], w := [], h := [], slots := buildSlots pr newSlot, insts := [], current := none })
    ∧ rd (lpLoadOk d p pr) (LP_LOAD_RES p) = 0 ∧ rd (lpLoadOk d p pr) (LP_PROG_ID p) = w32 pr.id := by
  unfold lpLoadOk
  simp only
  generalize hd : pr.outs.foldl (fun d o => claim d o.n clsLp p o.wide o.safe) d = e
  have hl : lpOf { e with shared := tclear (4096 * p) (4096 * p + 4096) e.shared } p = lpOf d p := by
    rw [← hd]; unfold lpOf; exact congrArg (fun t => tget lp0 t p) (lps_claims (fun o => (o.n, clsLp, p, o.wide, o.safe)) pr.outs d)
  refine ⟨fun P h => ?_, ?_, ?_⟩
  · rw [lpOf_wrN, lpOf_wrN, initRecs_keep P h, lpOf_setLp_same, hl]
  · rw [rd_wrN_ne _ _ (by unfold LP_LOAD_RES LP_PROG_ID; omega), rd_wrN_same]; rfl
  · rw [rd_wrN_same]
theorem tileQuar_recorded (d : Dev) (p : Page) (c a : Nat) : Recorded d (tileQuar d p c a) := recorded_report _ _ _ _
theorem memUe_facts (d : Dev) (p off : Nat) (hp : p < 4) (h : (lpOf d p).st ≠ .quarantined) : lpOf (lpMemoryUe d p off) p = { lpOf d p with st := .quarantined, insts := [], current := none }
        ∧ rdN (lpMemoryUe d p off) (lpBase p + ERR_CODE) % 65536 = 0x0604 ∧ rd (lpMemoryUe d p off) (lpBase p + ERR_ADDR) = w32 off
      ∧ (lpMemoryUe d p off).stage2 = d.stage2 ++ (lpOf d p).prog.outs.map (fun o => ⟨o.n, o.safe, true⟩) ∧ (lpMemoryUe d p off).sig = d.sig
        ∧ ∀ q, q ≠ p → lpOf (lpMemoryUe d p off) q = lpOf d q := by
  have hX : lpMemoryUe d p off = tileQuar (lpQuarantine d p 0x0604 off) (.lp p) 0x0604 off := if_neg h
  have hc1 : lpBase p + ERR_CODE < lpBase p + 0x1000 := by unfold ERR_CODE; omega
  have hc2 : lpBase p + ERR_ADDR < lpBase p + 0x1000 := by unfold ERR_ADDR; omega
  obtain ⟨q1, q2, q3, q4, q5, q6⟩ := lpQuarantine_facts d p 0x0604 off (by decide)
  have hr := tileQuar_recorded (lpQuarantine d p 0x0604 off) (.lp p) 0x0604 off
  rw [← hX] at hr
  generalize lpQuarantine d p 0x0604 off = g at *
  refine ⟨?_, ?_, ?_, ?_, ?_, ?_⟩
  · rw [recorded_lpOf hr, q1]
  · unfold rdN at q3 ⊢; rw [recorded_lp hr p _ hp hc1]; exact q3
  · rw [recorded_lp hr p _ hp hc2]; exact q4
  · rw [recorded_stage2 hr, q2]
  · rw [recorded_sig hr, q5]
  · intro q hq; rw [recorded_lpOf hr]; exact q6 q hq

end Sys2Proof.Machine
end

