-- ==== Sys2Proof/Laws/Safe.lean ====
section
/-! SUPPORT. Safety channels: what keeps the cycle, the connections and the configuration commands. -/

namespace Sys2Proof.Machine

/-! ### Safety channels -/

theorem rd_sfa_issued (d : Dev) (off : Nat) (v : W32) (h : off ≠ 0x104) (ho : off < 0x2000) : rd (issued d .sfa 0x104 v) (sfBase 0 + off) = rd d (sfBase 0 + off) :=
  rd_issued_ne _ _ _ _ _ (by rw [show pageBase .sfa = sfBase 0 from rfl]; omega)
theorem sfCyc_issued (d : Dev) (v : W32) : sfCyc (issued d .sfa 0x104 v) = sfCyc d := by
  unfold sfCyc rd64
  rw [show SF_CYC 0 = sfBase 0 + 0x148 from rfl, rd_sfa_issued _ _ _ (by decide) (by decide), Nat.add_assoc, rd_sfa_issued _ _ _ (by decide) (by decide)]
theorem sfPw_issued (d : Dev) (v : W32) : sfPw (issued d .sfa 0x104 v) = sfPw d := by
  unfold sfPw
  congr 1
  apply List.map_congr_left
  intro i hi
  have := List.mem_range.mp hi
  rw [show SF_PW 0 i = sfBase 0 + (0x120 + 4 * i) by unfold SF_PW; omega]
  exact rd_sfa_issued _ _ _ (by omega) (by omega)

/-- The result register is both channels'. -/
theorem rd_sfRes (d : Dev) (c a : Nat) : rd (sfRes d c) a = if a = SF_RES 0 ∨ a = SF_RES 1 then w32 c else rd d a := by
  unfold sfRes sfBoth wrN
  rw [rd_wr, rd_wr]
  by_cases h1 : a = SF_RES 1 <;> by_cases h2 : a = SF_RES 0 <;> simp [h1, h2]
theorem sfRes_dev (d : Dev) (c : Nat) : sfRes d c = { d with regs := (sfRes d c).regs } := rfl
theorem sfBase_val : ∀ f < 2, sfBase f = 7372800 + 1540096 * f := by decide
theorem recorded_sfPage {d e : Dev} (h : Recorded d e) (f a : Nat) (hf : f < 2) (ha : sfBase f ≤ a ∧ a < sfBase f + 0x1000) : rd e a = rd d a := by
  refine h.2 a ?_
  rw [sfBase_val f hf] at ha
  unfold reportReg DB_SUP_CNT TR_FRZ_INFO TR_TRIG_ACK dbBase trBase
  simp
  omega
theorem ite_prop {α : Type} (P : α → Prop) {c : Prop} [Decidable c] {a b : α} (ha : P a) (hb : P b) : P (if c then a else b) := by split <;> assumption
theorem recorded_sfConfig (d : Dev) (c : W32) (r : Nat) (o n : Option SfTable) (k : Nat) : Recorded d (sfConfig d c r o n k) := recorded_report _ _ _ _
theorem recorded_sfFault (d : Dev) (k : Nat) (i : W32) : Recorded d (sfFault d k i) := recorded_report _ _ _ _

/-- Both channels enter LOCKOUT. -/
theorem sfLockout_facts (d : Dev) (c ch : Nat) (h : d.sf.mode ≠ .lockout) :
    (sfLockout d c ch).sf = { d.sf with mode := .lockout, cause := c } ∧ rd (sfLockout d c ch) SIO_SO_CMD = 0
      ∧ (∀ a, a ≠ SIO_SO_CMD → reportReg a = false → rd (sfLockout d c ch) a = rd d a) ∧ (sfLockout d c ch).sig = d.sig := by
  unfold sfLockout
  rw [if_neg h]
  have hr := recorded_report (wr (setSf d { d.sf with mode := .lockout, cause := c }) SIO_SO_CMD 0) 0x0053 (297 + ch) [w32 c, w32 ch]
  refine ⟨by rw [recorded_sf hr]; rfl, by rw [recorded_rd hr (Or.inl (by decide)), rd_wr_same], fun a h1 h2 => ?_, by rw [recorded_sig hr]; simp⟩
  rw [hr.2 a h2, rd_wr_ne _ _ h1, rd_setSf]

/-- What the parts of a cycle leave alone: time, tables, passwords, the signal table, the role; a lockout lasts. -/
def SafeKept (d e : Dev) : Prop :=
  (∀ f < 2, rd e (SF_CYC f) = rd d (SF_CYC f) ∧ rd e (SF_CYC f + 4) = rd d (SF_CYC f + 4)) ∧ e.sf.table = d.sf.table ∧ e.sf.unlocked = d.sf.unlocked
    ∧ (e.sf.hash = d.sf.hash ∧ e.sf.pend = d.sf.pend ∧ e.sf.confirmed = d.sf.confirmed ∧ e.sf.cmds = d.sf.cmds) ∧ e.sig = d.sig ∧ e.role = d.role ∧ (d.sf.mode = .lockout → e.sf.mode = .lockout)
theorem SafeKept.refl (d : Dev) : SafeKept d d := ⟨fun _ _ => ⟨rfl, rfl⟩, rfl, rfl, ⟨rfl, rfl, rfl, rfl⟩, rfl, rfl, id⟩
theorem SafeKept.trans {d e f : Dev} (h : SafeKept d e) (g : SafeKept e f) : SafeKept d f :=
  ⟨fun k hk => ⟨(g.1 k hk).1.trans (h.1 k hk).1, (g.1 k hk).2.trans (h.1 k hk).2⟩, g.2.1.trans h.2.1, g.2.2.1.trans h.2.2.1, ⟨g.2.2.2.1.1.trans h.2.2.2.1.1, g.2.2.2.1.2.1.trans h.2.2.2.1.2.1, g.2.2.2.1.2.2.1.trans h.2.2.2.1.2.2.1, g.2.2.2.1.2.2.2.trans h.2.2.2.1.2.2.2⟩,
    g.2.2.2.2.1.trans h.2.2.2.2.1, g.2.2.2.2.2.1.trans h.2.2.2.2.2.1, fun m => g.2.2.2.2.2.2 (h.2.2.2.2.2.2 m)⟩
theorem safeKept_wr (d : Dev) (a : Nat) (v : W32) (h : ∀ f < 2, a ≠ SF_CYC f ∧ a ≠ SF_CYC f + 4) : SafeKept d (wr d a v) :=
  ⟨fun f hf => ⟨rd_wr_ne _ _ (h f hf).1.symm, rd_wr_ne _ _ (h f hf).2.symm⟩, rfl, rfl, ⟨rfl, rfl, rfl, rfl⟩, rfl, rfl, id⟩
theorem safeKept_sf (d : Dev) (x : Safety) (h : x.table = d.sf.table ∧ x.unlocked = d.sf.unlocked ∧ (x.hash = d.sf.hash ∧ x.pend = d.sf.pend ∧ x.confirmed = d.sf.confirmed ∧ x.cmds = d.sf.cmds) ∧ x.mode = d.sf.mode) : SafeKept d (setSf d x) :=
  ⟨fun _ _ => ⟨rfl, rfl⟩, h.1, h.2.1, h.2.2.1, rfl, rfl, fun m => h.2.2.2.trans m⟩
theorem safeKept_recorded {d e : Dev} (h : Recorded d e) : SafeKept d e :=
  ⟨fun f hf => ⟨recorded_sfPage h f _ hf (by unfold SF_CYC; omega), recorded_sfPage h f _ hf (by unfold SF_CYC; omega)⟩,
    by rw [recorded_sf h], by rw [recorded_sf h], by rw [recorded_sf h]; exact ⟨rfl, rfl, rfl, rfl⟩, recorded_sig h, recorded_role h, fun m => by rw [recorded_sf h]; exact m⟩
theorem safeKept_foldl {β : Type} (f : Dev → β → Dev) (h : ∀ d x, SafeKept d (f d x)) (l : List β) : ∀ d, SafeKept d (l.foldl f d) := by
  induction l with
  | nil => exact SafeKept.refl
  | cons x l ih => intro d; exact (h d x).trans (ih _)
theorem cyc_sio (a : Nat) (h : sioBase ≤ a) (h' : a < sioBase + 0x1000) : ∀ f < 2, a ≠ SF_CYC f ∧ a ≠ SF_CYC f + 4 := by
  intro f hf; unfold SF_CYC sioBase at *; rw [sfBase_val f hf]; omega
theorem cyc_sf (g off : Nat) (hg : g < 2) (h : off ≠ 0x148 ∧ off ≠ 0x14C) (ho : off < 0x1000) : ∀ f < 2, sfBase g + off ≠ SF_CYC f ∧ sfBase g + off ≠ SF_CYC f + 4 := by
  intro f hf; unfold SF_CYC; rw [sfBase_val f hf, sfBase_val g hg]; omega
theorem safeKept_lockout (d : Dev) (c ch : Nat) : SafeKept d (sfLockout d c ch) := by
  unfold sfLockout
  split
  · exact SafeKept.refl d
  · refine SafeKept.trans ?_ (safeKept_recorded (recorded_report _ _ _ _))
    exact SafeKept.trans (e := setSf d { d.sf with mode := .lockout, cause := c }) ⟨fun _ _ => ⟨rfl, rfl⟩, rfl, rfl, ⟨rfl, rfl, rfl, rfl⟩, rfl, rfl, fun _ => rfl⟩ (safeKept_wr _ _ _ (cyc_sio _ (by decide) (by decide)))
theorem safeKept_sfFault (d : Dev) (k : Nat) (i : W32) : SafeKept d (sfFault d k i) := safeKept_recorded (recorded_sfFault _ _ _)
theorem safeKept_sio (d : Dev) (a : Nat) (v : W32) (h : sioBase ≤ a) (h' : a < sioBase + 0x1000) : SafeKept d (wr d a v) := safeKept_wr _ _ _ (cyc_sio a h h')
theorem safeKept_setPair (d : Dev) (i : Nat) (x : SfPs) : SafeKept d (setPair d i x) := safeKept_sf _ _ ⟨rfl, rfl, ⟨rfl, rfl, rfl, rfl⟩, rfl⟩
theorem safeKept_setConn (d : Dev) (i : Nat) (x : SfConn) : SafeKept d (setConn d i x) := safeKept_sf _ _ ⟨rfl, rfl, ⟨rfl, rfl, rfl, rfl⟩, rfl⟩
theorem safeKept_setChan (d : Dev) (i : Nat) (x : SfChan) : SafeKept d (setChan d i x) := by
  unfold setChan; refine safeKept_sf _ _ ?_; split <;> exact ⟨rfl, rfl, ⟨rfl, rfl, rfl, rfl⟩, rfl⟩
theorem safeKept_discSet (d : Dev) (i : Nat) : SafeKept d (discSet d i) := by
  unfold discSet
  split
  · exact SafeKept.refl d
  · exact (safeKept_sio _ SIO_DISC _ (by decide) (by decide)).trans ((safeKept_sio _ SIO_FLT_CNT _ (by decide) (by decide)).trans (safeKept_sfFault _ _ _))
theorem safeKept_resetJam (d : Dev) (i smp : Nat) : SafeKept d (resetJam d i smp) := by
  unfold resetJam
  split
  · exact (safeKept_sio _ SIO_JAM _ (by decide) (by decide)).trans ((safeKept_sio _ SIO_FLT_CNT _ (by decide) (by decide)).trans (safeKept_sfFault _ _ _))
  · exact SafeKept.refl d
theorem safeKept_latchPair (d : Dev) (i : Nat) : SafeKept d (latchPair d i).1 := by
  unfold latchPair
  lift_lets
  extract_lets m d1 timer s1 d2 d3 d4 edge on s2 d5 s3
  have h1 : SafeKept d d1 := ite_prop (SafeKept d) (safeKept_sio _ SIO_DISC _ (by decide) (by decide)) (SafeKept.refl d)
  have h2 : SafeKept d d2 := h1.trans (safeKept_setPair _ _ _)
  have h3 : SafeKept d d3 := by
    show SafeKept d (match timer with | some t => if m.disc < t then discSet d2 i else d2 | none => d2)
    cases timer with
    | none => exact h2
    | some t => exact ite_prop (SafeKept d) (h2.trans (safeKept_discSet _ _)) h2
  have h4 : SafeKept d d4 := h3.trans (safeKept_resetJam _ _ _)
  have h5 : SafeKept d d5 := ite_prop (SafeKept d) h4 (h4.trans ((safeKept_sio _ SIO_JAM _ (by decide) (by decide)).trans (safeKept_setPair _ _ _)))
  exact h5.trans ((safeKept_setPair _ _ _).trans (safeKept_sio _ SIO_PAIR _ (by decide) (by decide)))
theorem safeKept_watchPair (d : Dev) (i : Nat) : SafeKept d (watchPair d i) :=
  (safeKept_setPair _ _ _).trans (safeKept_sio _ SIO_PAIR _ (by decide) (by decide))
theorem safeKept_latchPairs (d : Dev) : SafeKept d (latchPairs d).1 := by
  unfold latchPairs
  generalize hg : (fun (r : Dev × Nat) (i : Nat) => _) = g
  have hs : ∀ r i, SafeKept r.1 (g r i).1 := by
    intro r i
    rw [← hg]
    show SafeKept r.1 (if followsPair r.1 then (watchPair r.1 i, false) else latchPair r.1 i).1
    split
    · exact safeKept_watchPair _ _
    · exact safeKept_latchPair _ _
  have : ∀ (l : List Nat) (r : Dev × Nat), SafeKept r.1 (l.foldl g r).1 := by
    intro l
    induction l with
    | nil => intro r; exact SafeKept.refl _
    | cons x l ih => intro r; exact (hs r x).trans (ih _)
  exact this _ (d, 0)
theorem safeKept_bumpSf (d : Dev) (off : Nat) (h : off ≠ 0x148 ∧ off ≠ 0x14C) (ho : off < 0x1000) : SafeKept d (sfBoth d (fun d f => bump d (sfBase f + off))) :=
  (safeKept_wr _ _ _ (cyc_sf 0 off (by decide) h ho)).trans (safeKept_wr _ _ _ (cyc_sf 1 off (by decide) h ho))
theorem safeKept_connRecord (d : Dev) (c e : Nat) : SafeKept d (connRecord d c e) := safeKept_recorded (recorded_report _ _ _ _)
theorem safeKept_connTrip (d : Dev) (c e : Nat) : SafeKept d (connTrip d c e) :=
  (safeKept_setConn _ _ _).trans ((safeKept_bumpSf _ 0x188 (by decide) (by decide)).trans (safeKept_connRecord _ _ _))
theorem safeKept_connWatchdog (d : Dev) (c : Nat) : SafeKept d (connWatchdog d c) := by
  unfold connWatchdog; simp only; split
  · exact safeKept_connTrip _ _ _
  · exact SafeKept.refl d
theorem safeKept_networkMissing (d : Dev) (c : Nat) : SafeKept d (networkMissing d c) := by
  unfold networkMissing; simp only; split
  · split
    · exact safeKept_connTrip _ _ _
    · exact (safeKept_setConn _ _ _).trans (safeKept_connRecord _ _ _)
  · exact SafeKept.refl d
theorem safeKept_degradedTimeout (d : Dev) (c : Nat) : SafeKept d (degradedTimeout d c) := by
  unfold degradedTimeout; simp only; split
  · exact safeKept_connTrip _ _ _
  · exact SafeKept.refl d
theorem safeKept_connRow (d : Dev) (c : Nat) : SafeKept d (connRow d c) := by
  unfold connRow
  simp only
  split
  · exact safeKept_connTrip _ _ _
  · split
    · exact ite_prop (SafeKept d) (safeKept_connWatchdog _ _) (safeKept_networkMissing _ _)
    · exact ite_prop (SafeKept d) (safeKept_connWatchdog _ _) (ite_prop (SafeKept d) (safeKept_degradedTimeout _ _)
        (ite_prop (SafeKept d) (safeKept_setConn _ _ _) (safeKept_setConn _ _ _)))
    · exact ite_prop (SafeKept d) ((safeKept_setConn _ _ _).trans (safeKept_connRecord _ _ _)) (SafeKept.refl d)
theorem safeKept_connAge (d : Dev) (c : Nat) : SafeKept d (connAge d c) := safeKept_setConn _ _ _
theorem safeKept_connStep (d : Dev) (c : Nat) : SafeKept d (connStep d c) :=
  ite_prop (SafeKept d) (SafeKept.refl d) (ite_prop (SafeKept d) ((safeKept_setConn _ _ _).trans (safeKept_connAge _ _)) ((safeKept_connRow _ _).trans (safeKept_connAge _ _)))
theorem safeKept_pairDiff (d : Dev) (i : Nat) (img : SfImg) : SafeKept d (pairDiff d i img) := by
  unfold pairDiff
  extract_lets n s1 d1 o w d2
  have h2 : SafeKept d d2 := (safeKept_setPair _ _ _).trans (safeKept_sio _ SIO_PAIR_DIFF _ (by decide) (by decide))
  exact ite_prop (SafeKept d) (h2.trans (safeKept_sfFault _ _ _)) h2
theorem safeKept_followPair (img : SfImg) (d : Dev) (i : Nat) : SafeKept d (followPair img d i) := by
  unfold followPair
  extract_lets new n d1 d2
  have h1 : SafeKept d d1 := (safeKept_sio _ SIO_DISC _ (by decide) (by decide)).trans (safeKept_sio _ SIO_JAM _ (by decide) (by decide))
  have h2 : SafeKept d d2 := ite_prop (SafeKept d) (h1.trans (safeKept_sio _ SIO_FLT_CNT _ (by decide) (by decide))) h1
  exact SafeKept.trans (ite_prop (SafeKept d) (h2.trans (safeKept_sio _ SIO_FLT_CNT _ (by decide) (by decide))) h2) (safeKept_pairDiff _ _ _)
theorem safeKept_followConn (img : SfImg) (d : Dev) (c : Nat) : SafeKept d (followConn img d c) := by
  unfold followConn
  extract_lets st d1
  exact SafeKept.trans (ite_prop (SafeKept d) (safeKept_bumpSf _ 0x188 (by decide) (by decide)) (SafeKept.refl d)) (safeKept_setConn _ _ _)
theorem safeKept_followImg (d : Dev) (img : SfImg) : SafeKept d (followImg d img) :=
  (safeKept_foldl _ (safeKept_followPair img) _ _).trans (safeKept_foldl _ (safeKept_followConn img) _ _)
theorem safeKept_latchImgs (d : Dev) (e : Nat) : SafeKept d (latchImgs d e) := by
  unfold latchImgs
  refine ite_prop (SafeKept d) ?_ (safeKept_sf _ _ ⟨rfl, rfl, ⟨rfl, rfl, rfl, rfl⟩, rfl⟩)
  extract_lets ia ib d1
  have h1 : SafeKept d d1 := by
    dsimp only [d1]
    split
    · exact safeKept_followImg _ _
    · exact SafeKept.refl d
  exact h1.trans (safeKept_sf _ _ ⟨rfl, rfl, ⟨rfl, rfl, rfl, rfl⟩, rfl⟩)
theorem safeKept_evalInst (d : Dev) (f : Nat) (t : SfTable) (k : Nat) (hf : f < 2) : SafeKept d (evalInst d f t k) := by
  unfold evalInst
  extract_lets ch i r d1 d2
  have h1 : SafeKept d d1 := safeKept_setChan _ _ _
  have h2 : SafeKept d d2 := ite_prop (SafeKept d) (h1.trans (safeKept_wr _ _ _ (cyc_sf f 0x180 hf (by decide) (by decide)))) h1
  split
  · exact ite_prop (SafeKept d) (h2.trans (safeKept_recorded (recorded_report _ _ _ _))) h2
  · exact h2
theorem safeKept_evalChan (d : Dev) (f : Nat) (t : SfTable) (hf : f < 2) : SafeKept d (evalChan d f t) :=
  safeKept_foldl _ (fun d k => safeKept_evalInst d f t k hf) _ _
theorem safeKept_crossCompare (d : Dev) (t : SfTable) : SafeKept d (crossCompare d t) := by
  unfold crossCompare
  simp only
  split
  · exact safeKept_sf _ _ ⟨rfl, rfl, ⟨rfl, rfl, rfl, rfl⟩, rfl⟩
  · have h1 : SafeKept d (setSf d { d.sf with xrun := d.sf.xrun + 1 }) := safeKept_sf _ _ ⟨rfl, rfl, ⟨rfl, rfl, rfl, rfl⟩, rfl⟩
    have h2 : SafeKept d (sfBoth (setSf d { d.sf with xrun := d.sf.xrun + 1 }) (fun d f => bump d (SF_XCMP_CNT f))) := h1.trans (safeKept_bumpSf _ 0x178 (by decide) (by decide))
    split
    · exact h2.trans (safeKept_lockout _ _ _)
    · exact h2
theorem safeKept_soLockout (d : Dev) (o : Nat) : SafeKept d (soLockout d o) := by
  unfold soLockout
  split
  · exact SafeKept.refl d
  · refine SafeKept.trans ?_ (safeKept_sfFault _ _ _)
    refine SafeKept.trans ?_ (safeKept_sio _ SIO_FLT_CNT _ (by decide) (by decide))
    refine SafeKept.trans ?_ (safeKept_sio _ SIO_SO_CMD _ (by decide) (by decide))
    refine SafeKept.trans ?_ (safeKept_sio _ SIO_SO_CMD _ (by decide) (by decide))
    exact safeKept_sio _ SIO_SO_LOCK _ (by decide) (by decide)
theorem safeKept_soApply (d : Dev) (a b o s : Nat) : SafeKept d (soApply d a b o s) := by
  unfold soApply
  simp only
  refine SafeKept.trans ?_ (safeKept_foldl _ ?_ _ _)
  · exact (safeKept_sio _ SIO_SO_CMD _ (by decide) (by decide)).trans (safeKept_sio _ SIO_SO_RB _ (by decide) (by decide))
  · intro d j
    have h : ∀ n, SafeKept d (setSf d { d.sf with openRun := n }) := fun n => safeKept_sf _ _ ⟨rfl, rfl, ⟨rfl, rfl, rfl, rfl⟩, rfl⟩
    exact ite_prop (SafeKept d) ((h _).trans (safeKept_soLockout _ _)) (h _)
theorem safeKept_sendProd (d : Dev) (t : SfTable) (c : Nat) : SafeKept d (sendProd d t c) := by
  unfold sendProd
  simp only
  split
  · exact SafeKept.refl d
  · exact safeKept_sf _ _ ⟨rfl, rfl, ⟨rfl, rfl, rfl, rfl⟩, rfl⟩
theorem putBit_zero (i : Nat) : putBit 0 i false = 0 := by
  unfold putBit putFld; simp
/-- An output locked out: its switches are commanded off. -/
theorem soLockout_facts (d : Dev) (o : Nat) (ho : o < 8) (h : rdBit d SIO_SO_LOCK o = false) :
    rdBit (soLockout d o) SIO_SO_LOCK o = true ∧ rdBit (soLockout d o) SIO_SO_CMD o = false ∧ rdBit (soLockout d o) SIO_SO_CMD (8 + o) = false
      ∧ rd (soLockout d o) SIO_FLT_CNT = rd d SIO_FLT_CNT + 1 ∧ (∀ j < 32, j ≠ o → j ≠ 8 + o → rdBit (soLockout d o) SIO_SO_CMD j = rdBit d SIO_SO_CMD j)
      ∧ (soLockout d o).sf = d.sf ∧ (soLockout d o).sig = d.sig := by
  unfold soLockout
  rw [if_neg (by rw [h]; simp)]
  have hr := recorded_sfFault (bump (wrBit (wrBit (wrBit d SIO_SO_LOCK o true) SIO_SO_CMD o false) SIO_SO_CMD (8 + o) false) SIO_FLT_CNT) 3 (w32 o)
  have hc : ∀ j, rdBit (sfFault (bump (wrBit (wrBit (wrBit d SIO_SO_LOCK o true) SIO_SO_CMD o false) SIO_SO_CMD (8 + o) false) SIO_FLT_CNT) 3 (w32 o)) SIO_SO_CMD j
      = if j = 8 + o then false else if j = o then false else rdBit d SIO_SO_CMD j := by
    intro j
    unfold rdBit
    rw [recorded_rd hr (Or.inl (by decide)), rd_bump_ne _ (by decide)]
    unfold wrBit
    rw [rd_wr_same, bit_putBit _ _ _ _ (by omega), rd_wr_same, bit_putBit _ _ _ _ (by omega), rd_wr_ne _ _ (by decide)]
  refine ⟨?_, by rw [hc]; simp, by rw [hc]; simp, ?_, fun j _ h1 h2 => by rw [hc, if_neg h2, if_neg h1], by rw [recorded_sf hr]; simp, by rw [recorded_sig hr]; simp⟩
  · unfold rdBit
    rw [recorded_rd hr (Or.inl (by decide)), rd_bump_ne _ (by decide), rd_wrBit_ne _ _ _ (by decide), rd_wrBit_ne _ _ _ (by decide)]
    unfold wrBit
    rw [rd_wr_same, bit_putBit _ _ _ _ (by omega)]; simp
  · rw [recorded_rd hr (Or.inl (by decide)), rd_bump_same, rd_wrBit_ne _ _ _ (by decide), rd_wrBit_ne _ _ _ (by decide), rd_wrBit_ne _ _ _ (by decide)]
theorem soApply_off (d : Dev) (o s : Nat) : rd (soApply d 0 0 o s) SIO_SO_CMD = 0 := by
  unfold soApply
  simp only
  have hz : ∀ (d : Dev) (j : Nat), rd d SIO_SO_CMD = 0 → rd (soLockout d j) SIO_SO_CMD = 0 := by
    intro d j h
    unfold soLockout
    split
    · exact h
    · have hr := recorded_sfFault (bump (wrBit (wrBit (wrBit d SIO_SO_LOCK j true) SIO_SO_CMD j false) SIO_SO_CMD (8 + j) false) SIO_FLT_CNT) 3 (w32 j)
      rw [recorded_rd hr (Or.inl (by decide)), rd_bump_ne _ (by decide)]
      unfold wrBit
      rw [rd_wr_same, rd_wr_same, rd_wr_ne _ _ (by decide), h, putBit_zero, putBit_zero]
  generalize hg : (fun (d : Dev) (j : Nat) => _) = g
  have hs : ∀ d j, rd d SIO_SO_CMD = 0 → rd (g d j) SIO_SO_CMD = 0 := by
    intro d j h
    rw [← hg]
    have h1 : ∀ x, rd (setSf d x) SIO_SO_CMD = 0 := fun x => by rw [rd_setSf]; exact h
    exact ite_prop (fun e => rd e SIO_SO_CMD = 0) (hz _ _ (h1 _)) (h1 _)
  have : ∀ (l : List Nat) d, rd d SIO_SO_CMD = 0 → rd (l.foldl g d) SIO_SO_CMD = 0 := by
    intro l
    induction l with
    | nil => intro d h; exact h
    | cons x l ih => intro d h; exact ih _ (hs d x h)
  refine this _ _ ?_
  rw [rd_wrN_ne _ _ (by decide), rd_wrN_same]; rfl
/-- An instance of a channel is replaced. -/
theorem putInst_facts (d : Dev) (c k : Nat) (x : SfIs) (hc : c < 2) (hk : k < (chanOf d c).insts.length) :
    nth (chanOf (putInst d c k x) c).insts k default = x ∧ (∀ j, j ≠ k → nth (chanOf (putInst d c k x) c).insts j default = nth (chanOf d c).insts j default)
      ∧ (∀ c', c' < 2 → c' ≠ c → chanOf (putInst d c k x) c' = chanOf d c') ∧ (putInst d c k x).sf.table = d.sf.table ∧ (putInst d c k x).regs = d.regs ∧ (putInst d c k x).sig = d.sig
      ∧ (chanOf (putInst d c k x) c).insts.length = (chanOf d c).insts.length := by
  have h : chanOf (putInst d c k x) c = { chanOf d c with insts := lset (chanOf d c).insts k x } := by
    unfold putInst setChan setSf
    by_cases hz : c = 0
    · subst hz; rfl
    · simp [chanOf, hz]
  refine ⟨?_, ?_, ?_, ?_, rfl, rfl, ?_⟩
  · rw [h]; simp [nth_lset, hk]
  · intro j hj; rw [h]; simp [nth_lset, hj]
  · intro c' hc' hne
    unfold putInst setChan setSf chanOf
    by_cases hz : c = 0
    · subst hz; simp [show c' ≠ 0 from hne]
    · have : c' = 0 := by omega
      subst this; simp [hz]
  · unfold putInst setChan setSf; by_cases hz : c = 0 <;> simp [hz]
  · rw [h]; simp [length_lset]
theorem sigVal_commitSig (d : Dev) (w : SigW) (m : Nat) : sigVal (commitSig d w) m = if m = w.n then sigForm (sigWide d w.n) w.v else sigVal d m := by
  unfold sigVal commitSig
  simp only
  by_cases h : m = w.n
  · subst h; rw [tget_tset_same, if_pos rfl]
  · rw [tget_tset_ne _ _ _ _ h, if_neg h]
theorem sigWide_commitSig (d : Dev) (w : SigW) (m : Nat) : sigWide (commitSig d w) m = sigWide d m := by
  unfold sigWide attrOf commitSig
  simp only
  by_cases h : m = w.n
  · subst h; rw [tget_tset_same, bit_putBit _ _ _ _ (by decide), if_neg (by decide)]; rfl
  · rw [tget_tset_ne _ _ _ _ h]
/-- Words committed to entries in a row. -/
theorem commit_words (d : Dev) (b : Nat) (ws : List Nat) :
    (∀ j < ws.length, sigVal ((ws.zipIdx).foldl (fun d e => commitSig d ⟨b + e.2, w32 e.1, false⟩) d) (b + j) = sigForm (sigWide d (b + j)) (w32 (ws.getD j 0)))
    ∧ (∀ n, (n < b ∨ b + ws.length ≤ n) → sigVal ((ws.zipIdx).foldl (fun d e => commitSig d ⟨b + e.2, w32 e.1, false⟩) d) n = sigVal d n)
    ∧ (∀ n, sigWide ((ws.zipIdx).foldl (fun d e => commitSig d ⟨b + e.2, w32 e.1, false⟩) d) n = sigWide d n)
    ∧ (∃ x y, (ws.zipIdx).foldl (fun d e => commitSig d ⟨b + e.2, w32 e.1, false⟩) d = { d with sig := x, attr := y }) := by
  have gen : ∀ (ws : List Nat) (k : Nat) (d : Dev),
      (∀ j < ws.length, sigVal ((ws.zipIdx k).foldl (fun d e => commitSig d ⟨b + e.2, w32 e.1, false⟩) d) (b + (k + j)) = sigForm (sigWide d (b + (k + j))) (w32 (ws.getD j 0)))
      ∧ (∀ n, (n < b + k ∨ b + k + ws.length ≤ n) → sigVal ((ws.zipIdx k).foldl (fun d e => commitSig d ⟨b + e.2, w32 e.1, false⟩) d) n = sigVal d n)
      ∧ (∀ n, sigWide ((ws.zipIdx k).foldl (fun d e => commitSig d ⟨b + e.2, w32 e.1, false⟩) d) n = sigWide d n)
      ∧ (∃ x y, (ws.zipIdx k).foldl (fun d e => commitSig d ⟨b + e.2, w32 e.1, false⟩) d = { d with sig := x, attr := y }) := by
    intro ws
    induction ws with
    | nil => intro k d; exact ⟨fun j h => absurd h (by simp), fun n _ => rfl, fun n => rfl, d.sig, d.attr, rfl⟩
    | cons w ws ih =>
      intro k d
      obtain ⟨i1, i2, i3, x, y, i4⟩ := ih (k + 1) (commitSig d ⟨b + k, w32 w, false⟩)
      rw [List.zipIdx_cons, List.foldl_cons]
      simp only [List.length_cons]
      refine ⟨fun j hj => ?_, fun n hn => ?_, fun n => ?_, x, y, ?_⟩
      · cases j with
        | zero => simp only [Nat.add_zero]; rw [i2 _ (by omega), sigVal_commitSig, if_pos rfl]; rfl
        | succ j => rw [show k + (j + 1) = k + 1 + j by omega, i1 j (by omega), sigWide_commitSig]; rfl
      · rw [i2 _ (by omega), sigVal_commitSig, if_neg (by show n ≠ b + k; omega)]
      · rw [i3, sigWide_commitSig]
      · rw [i4]; rfl
  have := gen ws 0 d
  simpa using this
theorem connTrip_facts (d : Dev) (c k : Nat) (hl : c < d.sf.conns.length) :
    connOf (connTrip d c k) c = { connOf d c with st := .tripped, differ := false, equal := 0, tol := 0 }
      ∧ (∀ f < 2, rd (connTrip d c k) (SF_CTRIP_CNT f) = rd d (SF_CTRIP_CNT f) + 1) ∧ (∀ n, n ≠ c → connOf (connTrip d c k) n = connOf d n)
      ∧ (connTrip d c k).sig = d.sig := by
  have hr : Recorded (sfBoth (setConn d c { connOf d c with st := .tripped, differ := false, equal := 0, tol := 0 }) (fun d f => bump d (SF_CTRIP_CNT f))) (connTrip d c k) := recorded_report _ _ _ _
  refine ⟨?_, fun f hf => ?_, fun n hn => ?_, ?_⟩
  · unfold connOf at *; rw [recorded_sf hr]; exact (nth_lset _ _ _ _ _).trans (if_pos ⟨rfl, hl⟩)
  · rw [recorded_sfPage hr f _ hf (by unfold SF_CTRIP_CNT; omega)]
    unfold sfBoth bump
    match f, hf with
    | 0, _ => rw [rd_wr_ne _ _ (by decide), rd_wr_same]; rfl
    | 1, _ => rw [rd_wr_same, rd_wr_ne _ _ (by decide)]; rfl
  · unfold connOf at *; rw [recorded_sf hr]; exact (nth_lset _ _ _ _ _).trans (if_neg (fun h => hn h.1))
  · rw [recorded_sig hr]; rfl
theorem sfActivate_facts (d : Dev) (t : SfTable) :
    (sfActivate d t).sf.mode = .active ∧ (sfActivate d t).sf.table = some t ∧ (sfActivate d t).sf.pend = none
      ∧ (∀ f < 2, (chanOf (sfActivate d t) f).insts = t.insts.map (fun _ => default))
      ∧ (∀ f < 2, rd (sfActivate d t) (SF_CFG_CRC f) = w32 t.crc ∧ rd (sfActivate d t) (SF_CFG_ID f) = w32 t.id)
      ∧ ∀ a, a ∉ [SF_CFG_CRC 0, SF_CFG_CRC 1, SF_CFG_ID 0, SF_CFG_ID 1] → rd (sfActivate d t) a = rd d a := by
  obtain ⟨e, he, hrd⟩ : ∃ e : Dev, sfActivate d t = sfBoth (sfFresh (setSf e { e.sf with mode := .active, table := some t, pend := none, sealed_ := Config.moduleSign (Config.sha256 t.body) }) t)
      (fun d f => wrN (wrN d (SF_CFG_CRC f) t.crc) (SF_CFG_ID f) t.id) ∧ ∀ a, rd e a = rd d a := by
    unfold sfActivate
    generalize sfEntries t = es
    exact ⟨_, rfl, fun a => (foldl_keep (fun d => rd d a) (fun d e => claim d e.1 clsSafety e.2 true 0) es (fun _ _ _ => rd_congr rfl a) _).trans (rd_releaseAll _ _ _)⟩
  rw [he]
  unfold sfBoth sfFresh wrN
  refine ⟨rfl, rfl, rfl, fun f hf => ?_, fun f hf => ?_, fun a ha => ?_⟩
  · match f, hf with
    | 0, _ => rfl
    | 1, _ => rfl
  · match f, hf with
    | 0, _ => exact ⟨by rw [rd_wr_ne _ _ (by decide), rd_wr_ne _ _ (by decide), rd_wr_ne _ _ (by decide), rd_wr_same], by rw [rd_wr_ne _ _ (by decide), rd_wr_ne _ _ (by decide), rd_wr_same]⟩
    | 1, _ => exact ⟨by rw [rd_wr_ne _ _ (by decide), rd_wr_same], by rw [rd_wr_same]⟩
  · simp only [List.mem_cons, List.not_mem_nil, or_false, not_or] at ha
    rw [rd_wr_ne _ _ ha.2.2.2, rd_wr_ne _ _ ha.2.1, rd_wr_ne _ _ ha.2.2.1, rd_wr_ne _ _ ha.1, rd_setSf, rd_setSf, hrd]
theorem safeKept_cycleLatch (d : Dev) : SafeKept (cycleCount d) (cycleLatch d) := by
  unfold cycleLatch
  refine SafeKept.trans ?_ (safeKept_latchImgs _ _)
  refine SafeKept.trans ?_ (safeKept_foldl _ safeKept_connStep _ _)
  refine SafeKept.trans ?_ (safeKept_latchPairs _)
  exact safeKept_sf _ _ ⟨rfl, rfl, ⟨rfl, rfl, rfl, rfl⟩, rfl⟩
theorem safeKept_cycleTable (d : Dev) (t : SfTable) (o s : Nat) : SafeKept d (cycleTable d t o s) := by
  unfold cycleTable
  simp only
  refine SafeKept.trans ?_ (safeKept_foldl _ (fun d c => safeKept_sendProd d t c) _ _)
  refine SafeKept.trans ?_ (safeKept_soApply _ _ _ _ _)
  split
  · exact SafeKept.refl d
  · exact (safeKept_evalChan _ 0 t (by decide)).trans ((safeKept_evalChan _ 1 t (by decide)).trans (safeKept_crossCompare _ t))
theorem cycleCount_facts (d : Dev) : (cycleCount d).sf = d.sf ∧ (cycleCount d).sig = d.sig ∧ (cycleCount d).role = d.role
    ∧ ∀ f < 2, rd64 (cycleCount d) (SF_CYC f) = (rd64 d (SF_CYC f) + 1) % 2 ^ 64 := by
  unfold cycleCount sfBoth
  refine ⟨by rw [wr64_sf, wr64_sf], by rw [wr64_sig, wr64_sig], by rw [wr64_role, wr64_role], fun f hf => ?_⟩
  have hmk : ∀ v : Nat, mk64 (lo64 v) (hi64 v) = v % 2 ^ 64 := by intro v; unfold mk64 lo64 hi64 w32; simp only [BitVec.toNat_ofNat]; omega
  match f, hf with
  | 0, _ => rw [rd64_wr64_ne _ _ (by unfold SF_CYC; rw [sfBase_val 0 (by decide), sfBase_val 1 (by decide)]; omega), rd64_wr64_same, hmk]
  | 1, _ => rw [rd64_wr64_same, hmk, rd64_wr64_ne _ _ (by unfold SF_CYC; rw [sfBase_val 0 (by decide), sfBase_val 1 (by decide)]; omega)]
theorem safeKept_cycleAct (d : Dev) (o s : Nat) : SafeKept d (cycleAct d o s) := by
  unfold cycleAct
  split
  · exact safeKept_cycleTable _ _ _ _
  · exact safeKept_soApply _ _ _ _ _
/-- What putting a table in force leaves alone. -/
theorem sfActivate_kept (d : Dev) (t : SfTable) : (sfActivate d t).role = d.role ∧ (sfActivate d t).sf.unlocked = d.sf.unlocked ∧ (sfActivate d t).sf.hash = d.sf.hash := by
  unfold sfActivate
  generalize sfEntries t = es
  have hc : ∀ (es : List (Nat × Nat)) (e : Dev), (es.foldl (fun d e => claim d e.1 clsSafety e.2 true 0) e).role = e.role ∧ (es.foldl (fun d e => claim d e.1 clsSafety e.2 true 0) e).sf = e.sf := by
    intro es
    induction es with
    | nil => intro e; exact ⟨rfl, rfl⟩
    | cons x l ih => intro e; exact ih _
  have hr : (releaseAll d (ownedBy d clsSafety 0 ++ ownedBy d clsSafety 1)).role = d.role ∧ (releaseAll d (ownedBy d clsSafety 0 ++ ownedBy d clsSafety 1)).sf = d.sf := by
    unfold releaseAll
    generalize ownedBy d clsSafety 0 ++ ownedBy d clsSafety 1 = l
    have : ∀ (l : List Nat) (e : Dev), (l.foldl release e).role = e.role ∧ (l.foldl release e).sf = e.sf := by
      intro l
      induction l with
      | nil => intro e; exact ⟨rfl, rfl⟩
      | cons x l ih => intro e; exact ih _
    exact this l d
  obtain ⟨h1, h2⟩ := hc es (releaseAll d (ownedBy d clsSafety 0 ++ ownedBy d clsSafety 1))
  rw [hr.1] at h1; rw [hr.2] at h2
  simp only
  generalize es.foldl (fun d e => claim d e.1 clsSafety e.2 true 0) (releaseAll d (ownedBy d clsSafety 0 ++ ownedBy d clsSafety 1)) = e at *
  refine ⟨h1, ?_, ?_⟩
  · show e.sf.unlocked = _; rw [h2]
  · show e.sf.hash = _; rw [h2]
/-- Without a command that waits and without a confirmed table the start of a cycle changes nothing. -/
theorem sfCmds_none (d : Dev) (n : Nat) (x : Bool) (h : d.sf.cmds = []) (hc : d.sf.confirmed = false ∨ d.sf.pend = none) : sfCmds d n x = d := by
  have hs : setSf d { d.sf with cmds := [] } = d := by
    obtain ⟨sf⟩ := d; unfold setSf; simp only at h ⊢; rw [← h]
  unfold sfCmds
  rw [h, hs]
  simp only [List.foldl_nil]
  unfold sfTake
  split
  · next t ht => rw [if_neg]; rcases hc with hc | hc; (rw [hc]; simp); (rw [hc] at ht; cases ht)
  · rfl
/-- A confirmed table takes effect at the start of the cycle. -/
theorem sfCmds_take (d : Dev) (n : Nat) (x : Bool) (t : SfTable) (h : d.sf.cmds = []) (hc : d.sf.confirmed = true) (hp : d.sf.pend = some t) :
    ∃ e : Dev, sfCmds d n x = e ∧ e.sf.table = some t ∧ e.sf.pend = none ∧ e.sf.confirmed = false ∧ e.sf.mode = .active
      ∧ (∀ f < 2, (chanOf e f).insts = t.insts.map (fun _ => default) ∧ rd e (SF_CFG_CRC f) = w32 t.crc ∧ rd e (SF_CFG_ID f) = w32 t.id)
      ∧ (∀ f < 2, rd64 e (SF_CYC f) = rd64 d (SF_CYC f)) ∧ e.role = d.role ∧ e.sf.unlocked = d.sf.unlocked ∧ e.sf.hash = d.sf.hash := by
  refine ⟨_, rfl, ?_⟩
  unfold sfCmds
  rw [h]
  simp only [List.foldl_nil]
  have hk : ∀ d : Dev, d.sf.confirmed = true → d.sf.pend = some t →
      sfTake d = dirPut (setSf (sfActivate d t) { (sfActivate d t).sf with confirmed := false }) .sfa 0 4 (t.body.length + 0x80) (Config.sha256 t.body) := by
    intro d hc hp
    unfold sfTake
    rw [hp]
    exact if_pos hc
  obtain ⟨a1, a2, a3, a4, a5, a6⟩ := sfActivate_facts (setSf d { d.sf with cmds := [] }) t
  rw [hk (setSf d { d.sf with cmds := [] }) hc hp]
  obtain ⟨b1, b2, b3⟩ := sfActivate_kept (setSf d { d.sf with cmds := [] }) t
  generalize sfActivate (setSf d { d.sf with cmds := [] }) t = e at *
  have hr : ∀ a, rd (dirPut (setSf e { e.sf with confirmed := false }) .sfa 0 4 (t.body.length + 0x80) (Config.sha256 t.body)) a = rd e a := fun a => by rw [rd_dirPut, rd_setSf]
  refine ⟨a2, a3, rfl, a1, fun f hf => ⟨a4 f hf, (hr _).trans (a5 f hf).1, (hr _).trans (a5 f hf).2⟩, fun f hf => ?_, b1, b2, b3⟩
  unfold rd64
  rw [hr, hr, a6, a6, rd_setSf, rd_setSf]
  · unfold SF_CYC SF_CFG_CRC SF_CFG_ID; rw [sfBase_val f hf, sfBase_val 0 (by decide), sfBase_val 1 (by decide)]
    simp only [List.mem_cons, List.not_mem_nil, or_false]; omega
  · unfold SF_CYC SF_CFG_CRC SF_CFG_ID; rw [sfBase_val f hf, sfBase_val 0 (by decide), sfBase_val 1 (by decide)]
    simp only [List.mem_cons, List.not_mem_nil, or_false]; omega
theorem safetyCycle_eq (d : Dev) (n o s : Nat) (x : Bool) (h : bp d % 100 = 0 ∨ d.sf.a.alone = true ∨ d.sf.b.alone = true) :
    safetyCycle d n o s x = cycleAct (cycleLatch (sfCmds d n x)) o s := if_pos h
/-- A cycle from its latch on. -/
theorem cycleAct_kept (e : Dev) (o s : Nat) : (∀ f < 2, rd64 (cycleAct (cycleLatch e) o s) (SF_CYC f) = (rd64 e (SF_CYC f) + 1) % 2 ^ 64) ∧ SafeKept (cycleCount e) (cycleAct (cycleLatch e) o s) := by
  obtain ⟨c1, c2, c3, c4⟩ := cycleCount_facts e
  have k := (safeKept_cycleLatch e).trans (safeKept_cycleAct (cycleLatch e) o s)
  refine ⟨fun f hf => ?_, k⟩
  rw [← c4 f hf]; unfold rd64; rw [(k.1 f hf).1, (k.1 f hf).2]
/-- A cycle counts, and keeps what SafeKept says of the state after the waiting commands. -/
theorem safetyCycle_kept (d : Dev) (n o s : Nat) (x : Bool) (h : bp d % 100 = 0 ∨ d.sf.a.alone = true ∨ d.sf.b.alone = true) :
    (∀ f < 2, rd64 (safetyCycle d n o s x) (SF_CYC f) = (rd64 (sfCmds d n x) (SF_CYC f) + 1) % 2 ^ 64) ∧ (safetyCycle d n o s x).sf.table = (sfCmds d n x).sf.table
      ∧ (safetyCycle d n o s x).sf.unlocked = (sfCmds d n x).sf.unlocked
      ∧ ((safetyCycle d n o s x).sf.hash = (sfCmds d n x).sf.hash ∧ (safetyCycle d n o s x).sf.pend = (sfCmds d n x).sf.pend ∧ (safetyCycle d n o s x).sf.confirmed = (sfCmds d n x).sf.confirmed
        ∧ (safetyCycle d n o s x).sf.cmds = (sfCmds d n x).sf.cmds)
      ∧ (safetyCycle d n o s x).sig = (sfCmds d n x).sig ∧ (safetyCycle d n o s x).role = (sfCmds d n x).role
      ∧ ((sfCmds d n x).sf.mode = .lockout → (safetyCycle d n o s x).sf.mode = .lockout) := by
  rw [safetyCycle_eq d n o s x h]
  generalize sfCmds d n x = e
  obtain ⟨c1, c2, c3, -⟩ := cycleCount_facts e
  obtain ⟨c4, -, k2, k3, k4, k5, k6, k7⟩ := cycleAct_kept e o s
  generalize cycleAct (cycleLatch e) o s = r at *
  rw [c1] at k2 k3 k4 k7
  exact ⟨c4, k2, k3, k4, k5.trans c2, k6.trans c3, k7⟩
theorem rd_sendProds (t : SfTable) (l : List Nat) (x : Dev) : rd (l.foldl (fun d c => sendProd d t c) x) SIO_SO_CMD = rd x SIO_SO_CMD :=
  foldl_keep (fun d => rd d SIO_SO_CMD) _ l (fun c _ d => by unfold sendProd; simp only; split <;> simp) x
theorem cycleTable_off (e : Dev) (t : SfTable) (o s : Nat) (h : e.sf.mode = .lockout ∨ e.role = .syncing) : rd (cycleTable e t o s) SIO_SO_CMD = 0 := by
  unfold cycleTable
  simp only
  rw [rd_sendProds]
  generalize hy : (if e.sf.mode = SfMode.lockout then e else crossCompare (evalChan (evalChan e 0 t) 1 t) t) = y
  have hx : SafeKept e y := by
    rw [← hy]
    exact ite_prop (SafeKept e) (SafeKept.refl e) ((safeKept_evalChan _ 0 t (by decide)).trans ((safeKept_evalChan _ 1 t (by decide)).trans (safeKept_crossCompare _ t)))
  clear hy
  have hc : (y.sf.mode == SfMode.lockout || y.role == Role.syncing) = true := by
    rcases h with h | h
    · rw [hx.2.2.2.2.2.2 h]; rfl
    · rw [hx.2.2.2.2.2.1, h]; simp
  rw [hc]
  simp only [if_true]
  exact soApply_off _ _ _
/-- In LOCKOUT, on a SYNCING module and without a table every output is commanded off. -/
theorem cycleAct_off (e : Dev) (o s : Nat) (h : e.sf.mode = .lockout ∨ e.role = .syncing ∨ e.sf.table = none) : rd (cycleAct e o s) SIO_SO_CMD = 0 := by
  unfold cycleAct
  split
  · next t ht =>
    refine cycleTable_off e t o s ?_
    rcases h with h | h | h
    · exact Or.inl h
    · exact Or.inr h
    · rw [h] at ht; cases ht
  · exact soApply_off _ _ _
theorem safetyCycle_off (d : Dev) (n o s : Nat) (x : Bool) (h : bp d % 100 = 0 ∨ d.sf.a.alone = true ∨ d.sf.b.alone = true)
    (ho : (sfCmds d n x).sf.mode = .lockout ∨ (sfCmds d n x).role = .syncing ∨ (sfCmds d n x).sf.table = none) : rd (safetyCycle d n o s x) SIO_SO_CMD = 0 := by
  rw [safetyCycle_eq d n o s x h]
  generalize sfCmds d n x = e at *
  obtain ⟨c1, c2, c3, -⟩ := cycleCount_facts e
  obtain ⟨-, k2, -, -, -, k6, k7⟩ := safeKept_cycleLatch e
  rw [c1] at k2 k7
  rw [c3] at k6
  refine cycleAct_off _ o s ?_
  rcases ho with ho | ho | ho
  · exact Or.inl (k7 ho)
  · exact Or.inr (Or.inl (k6.trans ho))
  · exact Or.inr (Or.inr (k2.trans ho))
theorem setSf_setSf (d : Dev) (x y : Safety) : setSf (setSf d x) y = setSf d y := rfl
theorem setSf_sf (d : Dev) (x : Safety) : (setSf d x).sf = x := rfl
theorem sfRes_sf (d : Dev) (c : Nat) : (sfRes d c).sf = d.sf := by unfold sfRes sfBoth wrN; simp
theorem sfRes_sig (d : Dev) (c : Nat) : (sfRes d c).sig = d.sig := by unfold sfRes sfBoth wrN; simp
theorem sfDrop_sf (d : Dev) : (sfDrop d).sf = { d.sf with mode := if d.sf.table.isSome then .active else .unconfigured, pend := none, confirmed := false } := rfl
theorem sfDrop_sig (d : Dev) : (sfDrop d).sig = d.sig := by unfold sfDrop; simp
theorem rd_sfDrop (d : Dev) (a : Nat) : rd (sfDrop d) a = rd d a := by unfold sfDrop; simp
/-- A command whose guard holds is carried out, with its time noted. -/
theorem sfGuard_ok (d : Dev) (c : Nat) (m : Bool) (f : Dev → Dev) (hu : d.sf.unlocked = true) (hm : m = true) : sfGuard d c m f = f (setSf d { d.sf with cfgAt := sfCyc d }) := by
  unfold sfGuard sfTouch
  have h1 : ¬(setSf d { d.sf with cfgAt := sfCyc d }).sf.unlocked = false := by rw [setSf_sf]; simp only; rw [hu]; simp
  generalize setSf d { d.sf with cfgAt := sfCyc d } = e at *
  rw [if_neg h1, if_neg (by rw [hm]; simp)]
theorem sfCyc_setSf (d : Dev) (x : Safety) : sfCyc (setSf d x) = sfCyc d := by unfold sfCyc rd64; simp
/-- The result of a command that ends in its record. -/
theorem sfEnded_facts (d : Dev) (r : Nat) (cmd : W32) (q : Nat) (o n : Option SfTable) (k : Nat) :
    rd (sfConfig (sfRes d r) cmd q o n k) (SF_RES 0) = w32 r ∧ (sfConfig (sfRes d r) cmd q o n k).sf = d.sf ∧ (sfConfig (sfRes d r) cmd q o n k).sig = d.sig
      ∧ (∀ f < 2, ∀ off < 0x1000, off ≠ 0x110 → rd (sfConfig (sfRes d r) cmd q o n k) (sfBase f + off) = rd d (sfBase f + off))
      ∧ rd (sfConfig (sfRes d r) cmd q o n k) (pageBase .sfa + ERR_CODE) = rd d (pageBase .sfa + ERR_CODE) := by
  have hr := recorded_sfConfig (sfRes d r) cmd q o n k
  refine ⟨by rw [recorded_rd hr (Or.inl (by decide)), rd_sfRes, if_pos (Or.inl rfl)], by rw [recorded_sf hr, sfRes_sf], by rw [recorded_sig hr, sfRes_sig], fun f hf off ho hne => ?_,
    by rw [recorded_rd hr (Or.inl (by decide)), rd_sfRes, if_neg (by decide)]⟩
  rw [recorded_sfPage hr f (sfBase f + off) hf (by omega), rd_sfRes, if_neg]
  unfold SF_RES; rw [sfBase_val f hf, sfBase_val 0 (by decide), sfBase_val 1 (by decide)]; omega
theorem sfPwSet_sf (d : Dev) : (sfPwSet d).sf = { d.sf with hash := some (sfPwHash d (sfPw d)) } := rfl
theorem sfPwSet_sig (d : Dev) : (sfPwSet d).sig = d.sig := by unfold sfPwSet; simp
theorem rd_sfPwSet (d : Dev) (a : Nat) : rd (sfPwSet d) a = rd d a := by unfold sfPwSet; simp
theorem sfPend_facts (d : Dev) (t : SfTable) : (sfPend d t).sf = { d.sf with mode := .pending, pend := some t, pendAt := sfCyc d } ∧ (sfPend d t).sig = d.sig
    ∧ (∀ f < 2, rd (sfPend d t) (SF_PEND_CRC f) = w32 t.crc) ∧ ∀ a, a ≠ SF_PEND_CRC 0 → a ≠ SF_PEND_CRC 1 → rd (sfPend d t) a = rd d a := by
  unfold sfPend sfBoth wrN
  refine ⟨by rw [wr_sf, wr_sf, setSf_sf], by rw [wr_sig, wr_sig, setSf_sig], fun f hf => ?_, fun a h0 h1 => by rw [rd_wr_ne _ _ h1, rd_wr_ne _ _ h0, rd_setSf]⟩
  match f, hf with
  | 0, _ => rw [rd_wr_ne _ _ (by decide)]; exact rd_wr_same _ _ _
  | 1, _ => exact rd_wr_same _ _ _

end Sys2Proof.Machine
end

