-- ==== Sys2Proof/Laws/Twin.lean ====
section
/-! SUPPORT. The pair: frames kept, digests, failed syncs, roles, message bus completions, wire tests. -/

namespace Sys2Proof.Machine

theorem setTw_tw (d : Dev) (t : Twin) : (setTw d t).tw = t := rfl

/-- A frame to the partner is all that sending changes. -/
theorem twSend_dev (d : Dev) (f : TwOut) : twSend d f = { d with tw := (twSend d f).tw } := by unfold twSend; split <;> rfl
theorem twSend_tw (d : Dev) (f : TwOut) : (twSend d f).tw = { d.tw with sent := if pairEn d && twPaired d then d.tw.sent ++ [f] else d.tw.sent } := by
  unfold twSend; split <;> rfl
@[simp] theorem twSend_sig (d : Dev) (f : TwOut) : (twSend d f).sig = d.sig := by rw [twSend_dev]
@[simp] theorem twSend_regs (d : Dev) (f : TwOut) : (twSend d f).regs = d.regs := by rw [twSend_dev]
@[simp] theorem twSend_role (d : Dev) (f : TwOut) : (twSend d f).role = d.role := by rw [twSend_dev]
@[simp] theorem twSend_power (d : Dev) (f : TwOut) : (twSend d f).power = d.power := by rw [twSend_dev]
@[simp] theorem twSend_sf (d : Dev) (f : TwOut) : (twSend d f).sf = d.sf := by rw [twSend_dev]
@[simp] theorem rd_twSend (d : Dev) (f : TwOut) (a : Nat) : rd (twSend d f) a = rd d a := rd_congr (twSend_regs d f) a

@[simp] theorem noted_sig (d : Dev) (h : TwHead) : (noted d h).sig = d.sig := rfl
@[simp] theorem noted_regs (d : Dev) (h : TwHead) : (noted d h).regs = d.regs := rfl
@[simp] theorem noted_role (d : Dev) (h : TwHead) : (noted d h).role = d.role := rfl
@[simp] theorem noted_sf (d : Dev) (h : TwHead) : (noted d h).sf = d.sf := rfl
@[simp] theorem rd_noted (d : Dev) (h : TwHead) (a : Nat) : rd (noted d h) a = rd d a := rd_congr rfl a
/-- A frame that arrives has its effect, on the device with its counter noted. -/
theorem laneFrame_arrives (d : Dev) (h : TwHead) (f : Dev → Dev) (ha : Arrives d h) : laneFrame d h f = f (noted d h) := by
  obtain ⟨h1, h2, h3, h4⟩ := ha
  unfold laneFrame
  rw [if_neg (by rw [h1, h2]; simp)]
  generalize (if h.lane = 0 then d.tw.ctr0 else d.tw.ctr1) = l at h4 ⊢
  cases l with
  | none => simp only; rw [h3]; rfl
  | some c => simp only; rw [h3, decide_eq_true (h4 c rfl)]; rfl
/-- A frame that is discarded is counted. -/
theorem laneFrame_discarded (d : Dev) (h : TwHead) (f : Dev → Dev) (ha : Discarded d h) : laneFrame d h f = bump d TW_LANE_ERR_CNT := by
  obtain ⟨h1, h2, h3⟩ := ha
  unfold laneFrame
  rw [if_neg (by rw [h1, h2]; simp)]
  rcases h3 with h3 | ⟨c, h3, h4⟩
  · rw [h3]; rfl
  · rw [h3]; simp only; rw [decide_eq_false (by omega : ¬c < h.ctr), Bool.and_false]; rfl

/-- A frame that a following module does not have yet is kept. -/
theorem keepFrame_kept (d : Dev) (n : Nat) (f : TwFrame) (h1 : follows d = true) (h2 : onGrid d = true → bp d < n) (h3 : d.tw.frames.contains f = false)
    (h4 : d.role = .syncing → ∀ g ∈ d.tw.frames, n < frameBp g + 10000) : keepFrame d n f = setTw d { d.tw with frames := d.tw.frames ++ [f] } := by
  unfold keepFrame
  rw [if_neg (by rw [h1]; simp only [Bool.true_eq_false, false_or]; exact fun h => absurd (h2 h.1) (by omega)), if_neg (by rw [h3]; simp), if_neg]
  rintro ⟨hr, ha⟩
  rw [List.any_eq_true] at ha
  obtain ⟨g, hg, hn⟩ := ha
  have := h4 hr g hg
  simp only [decide_eq_true_eq] at hn
  omega

/-- A wanted sync: its phase, and the request to the partner. -/
theorem wantSync_facts (d : Dev) : (wantSync d).tw = { d.tw with phase := 1, baseOk := false, chunks := [], chunkFails := [], frames := []
                                                                 sent := if pairEn d && twPaired d then d.tw.sent ++ [.ctrl 0] else d.tw.sent }
    ∧ (wantSync d).role = d.role ∧ (wantSync d).sig = d.sig ∧ (wantSync d).regs = d.regs := by
  unfold wantSync
  refine ⟨?_, by simp, by simp, by simp⟩
  rw [twSend_tw]
  rfl

theorem wr_regs_congr {d e : Dev} (h : d.regs = e.regs) (a : Nat) (v : W32) : (wr d a v).regs = (wr e a v).regs := by unfold wr; simp only; rw [h]
theorem wr64_regs_congr {d e : Dev} (h : d.regs = e.regs) (a v : Nat) : (wr64 d a v).regs = (wr64 e a v).regs :=
  wr_regs_congr (wr_regs_congr h _ _) _ _

theorem digestAt_filter (l : List (Nat × Nat)) (e : Nat) : digestAt (l.filter (fun p => p.1 != e)) e = none := by
  unfold digestAt
  rw [List.find?_eq_none.mpr (by intro p hp; simp at hp ⊢; exact hp.2)]
  rfl

/-- Equal digests: counted as a match, and the entries are used up. -/
theorem compareDigest_same (d : Dev) (e x : Nat) (h : d.role ≠ .syncing) :
    (compareDigest d e x x).tw.matches_ = min 255 (d.tw.matches_ + 1) ∧ digestAt (compareDigest d e x x).tw.own e = none
      ∧ digestAt (compareDigest d e x x).tw.peer e = none ∧ (compareDigest d e x x).role = d.role ∧ (compareDigest d e x x).sig = d.sig
      ∧ (compareDigest d e x x).regs = (wr64 (wr64 (wr64 d TW_EPOCH e) TW_DIG_OWN x) TW_DIG_PEER x).regs := by
  unfold compareDigest
  obtain ⟨d1, h1⟩ : ∃ d1, d1 = setTw d { d.tw with own := d.tw.own.filter (fun p => p.1 != e), peer := d.tw.peer.filter (fun p => p.1 != e) } := ⟨_, rfl⟩
  simp only
  rw [← h1]
  obtain ⟨d2, h2⟩ : ∃ d2, d2 = wr64 (wr64 (wr64 d1 TW_EPOCH e) TW_DIG_OWN x) TW_DIG_PEER x := ⟨_, rfl⟩
  rw [← h2, if_neg (by simp)]
  have hr : d2.role = d.role := by rw [h2, h1]; simp
  have hs : d2.sig = d.sig := by rw [h2, h1]; simp
  have ht : d2.tw = { d.tw with own := d.tw.own.filter (fun p => p.1 != e), peer := d.tw.peer.filter (fun p => p.1 != e) } := by rw [h2, wr64_tw, wr64_tw, wr64_tw, h1, setTw_tw]
  have hg : d2.regs = (wr64 (wr64 (wr64 d TW_EPOCH e) TW_DIG_OWN x) TW_DIG_PEER x).regs := by
    rw [h2]; exact wr64_regs_congr (wr64_regs_congr (wr64_regs_congr (by rw [h1]; simp) _ _) _ _) _ _
  rw [if_neg (fun hh => h (hr ▸ hh.1))]
  refine ⟨?_, ?_, ?_, hr, hs, hg⟩
  · show min 255 (d2.tw.matches_ + 1) = _
    rw [ht]
  · show digestAt d2.tw.own e = none
    rw [ht]; exact digestAt_filter _ _
  · show digestAt d2.tw.peer e = none
    rw [ht]; exact digestAt_filter _ _

/-- Different digests on a standby: counted, and a sync is wanted. -/
theorem compareDigest_differ (d : Dev) (e x y : Nat) (hx : x ≠ y) (h : d.role = .standby) :
    (compareDigest d e x y).tw.matches_ = 0 ∧ (compareDigest d e x y).tw.asked = false ∧ (compareDigest d e x y).tw.phase = 1
      ∧ (compareDigest d e x y).tw.baseOk = false ∧ (compareDigest d e x y).tw.frames = [] ∧ (compareDigest d e x y).role = d.role
      ∧ (compareDigest d e x y).sig = d.sig ∧ rd (compareDigest d e x y) TW_DIG_MIS_CNT = rd d TW_DIG_MIS_CNT + 1 := by
  obtain ⟨d1, h1⟩ : ∃ d1, d1 = setTw d { d.tw with own := d.tw.own.filter (fun p => p.1 != e), peer := d.tw.peer.filter (fun p => p.1 != e) } := ⟨_, rfl⟩
  obtain ⟨d2, h2⟩ : ∃ d2, d2 = wr64 (wr64 (wr64 d1 TW_EPOCH e) TW_DIG_OWN x) TW_DIG_PEER y := ⟨_, rfl⟩
  have hr : d2.role = d.role := by rw [h2, h1]; simp
  have hs : d2.sig = d.sig := by rw [h2, h1]; simp
  have hc : rd d2 TW_DIG_MIS_CNT = rd d TW_DIG_MIS_CNT := by
    rw [h2, rd_wr64_ne _ _ (by decide) (by decide), rd_wr64_ne _ _ (by decide) (by decide), rd_wr64_ne _ _ (by decide) (by decide), h1]; simp
  obtain ⟨d3, h3⟩ : ∃ d3, d3 = bump (setTw d2 { d2.tw with matches_ := 0, asked := false }) TW_DIG_MIS_CNT := ⟨_, rfl⟩
  have h3r : d3.role = .standby := by rw [h3, bump_role, setTw_role]; exact hr.trans h
  have hm : compareDigest d e x y = wantSync d3 := by
    unfold compareDigest
    simp only
    rw [← h1, ← h2, if_pos hx]
    unfold mismatch
    simp only
    rw [← h3]
    have ha : authoritative d3 = false := by
      unfold authoritative; rw [h3r]; rfl
    rw [if_neg (show ¬authoritative d3 = true by rw [ha]; simp), if_pos h3r]
  rw [hm]
  have t3 : d3.tw = { d2.tw with matches_ := 0, asked := false } := by rw [h3, bump_tw]; rfl
  obtain ⟨w1, w2, w3, w4⟩ := wantSync_facts d3
  refine ⟨?_, ?_, ?_, ?_, ?_, ?_, ?_, ?_⟩
  · rw [w1]; show d3.tw.matches_ = 0; rw [t3]
  · rw [w1]; show d3.tw.asked = false; rw [t3]
  · rw [w1]
  · rw [w1]
  · rw [w1]
  · exact w2.trans (h3r.trans h.symm)
  · rw [w3, h3, bump_sig, setTw_sig, hs]
  · rw [rd_congr w4, h3, rd_bump_same, rd_setTw, hc]

/-- A failed sync is counted, and starts from its base anew. -/
theorem syncFail_facts (d : Dev) (p : Nat) :
    (syncFail d p).tw = { d.tw with fails := d.tw.fails + 1, halt := d.tw.halt || decide (3 ≤ d.tw.fails + 1), phase := 2, baseOk := false, chunks := [], chunkFails := [], frames := [] }
      ∧ rd (syncFail d p) TW_SYNC_FAIL_CNT = rd d TW_SYNC_FAIL_CNT + 1 ∧ (syncFail d p).role = d.role ∧ (syncFail d p).sig = d.sig := by
  obtain ⟨x, hx⟩ : ∃ x, x = pairLink (bump d TW_SYNC_FAIL_CNT) 4 0 p := ⟨_, rfl⟩
  have hr : Recorded (bump d TW_SYNC_FAIL_CNT) x := by rw [hx]; exact recorded_report _ _ _ _
  have he : syncFail d p = setTw x { x.tw with fails := d.tw.fails + 1, halt := x.tw.halt || decide (3 ≤ d.tw.fails + 1), phase := 2, baseOk := false, chunks := [], chunkFails := [], frames := [] } := by
    rw [hx]; rfl
  have ht : x.tw = d.tw := (recorded_tw hr).trans (bump_tw _ _)
  rw [he]
  refine ⟨?_, ?_, (recorded_role hr).trans (by simp), (recorded_sig hr).trans (by simp)⟩
  · rw [setTw_tw, ht]
  · rw [rd_setTw, recorded_rd hr (Or.inl (by decide)), rd_bump_same]

/-- What the partner's registers leave. -/
theorem installRegs_kept (d : Dev) (s : Snap) : installRegs d s = { d with regs := (installRegs d s).regs } := by
  unfold installRegs
  generalize d.regs.filter (fun p => keepOfReg p.1 != .journal || localReg p.1) = r
  have h : ∀ (l : List (Nat × W32)) (x : Dev), l.foldl (fun d p => wr d p.1 p.2) x = { x with regs := (l.foldl (fun d p => wr d p.1 p.2) x).regs } := by
    intro l
    induction l with
    | nil => intro x; rfl
    | cons p t ih => intro x; rw [List.foldl_cons, ih]; rfl
  rw [h]

/-- What an installed base replaces, and what stays. -/
theorem install_facts (d : Dev) (e : Nat) (b : Snap) :
    (install d e b).sig = b.sig ∧ (install d e b).attr = b.attr ∧ (install d e b).lanes = b.lanes ∧ (install d e b).axes = b.axes
      ∧ (install d e b).cells = b.cells ∧ (install d e b).aos = b.aos ∧ (install d e b).quar = b.quar ∧ (install d e b).role = d.role
      ∧ (install d e b).tw = { d.tw with seq := mk64 (tget 0 b.regs TW_PO_SEQ) (tget 0 b.regs (TW_PO_SEQ + 4)) } ∧ bp (install d e b) = e % 2 ^ 64
      ∧ (install d e b).sf = installSafety d b ∧ (install d e b).dir = d.dir ∧ (install d e b).power = d.power := by
  unfold install
  rw [installRegs_kept]
  generalize (installRegs d b).regs = r
  generalize installSafety d b = f
  generalize mk64 (tget 0 b.regs TW_PO_SEQ) (tget 0 b.regs (TW_PO_SEQ + 4)) = po
  obtain ⟨x, hx⟩ : ∃ x, x = installBlocks { d with regs := r } b f := ⟨_, rfl⟩
  have x1 : x.sig = b.sig ∧ x.attr = b.attr ∧ x.lanes = b.lanes ∧ x.axes = b.axes ∧ x.cells = b.cells ∧ x.aos = b.aos ∧ x.quar = b.quar ∧ x.role = d.role ∧ x.sf = f
      ∧ x.dir = d.dir ∧ x.power = d.power := by
    rw [hx]; exact ⟨rfl, rfl, rfl, rfl, rfl, rfl, rfl, rfl, rfl, rfl, rfl⟩
  rw [← hx]
  clear hx
  have hmk : ∀ v : Nat, mk64 (lo64 v) (hi64 v) = v % 2 ^ 64 := by intro v; unfold mk64 lo64 hi64 w32; simp only [BitVec.toNat_ofNat]; omega
  obtain ⟨y, hy⟩ : ∃ y, y = wr64 (wr64 x BP_CNT e) TW_PO_SEQ po := ⟨_, rfl⟩
  have y2 : rd64 y BP_CNT = e % 2 ^ 64 := by rw [hy, rd64_wr64_ne _ _ (by decide), rd64_wr64_same, hmk]
  have y1 : y.sig = x.sig ∧ y.attr = x.attr ∧ y.lanes = x.lanes ∧ y.axes = x.axes ∧ y.cells = x.cells ∧ y.aos = x.aos ∧ y.quar = x.quar ∧ y.role = x.role ∧ y.sf = x.sf
      ∧ y.dir = x.dir ∧ y.power = x.power := by
    rw [hy]; simp
  dsimp only
  rw [← hy]
  clear hy
  obtain ⟨a1, a2, a3, a4, a5, a6, a7, a8, a9, a10, a11⟩ := x1
  obtain ⟨b1, b2, b3, b4, b5, b6, b7, b8, b9, b10, b11⟩ := y1
  refine ⟨b1.trans a1, b2.trans a2, b3.trans a3, b4.trans a4, b5.trans a5, b6.trans a6, b7.trans a7, b8.trans a8, rfl, ?_, b9.trans a9, b10.trans a10, b11.trans a11⟩
  unfold bp
  rw [← y2]
  unfold rd64
  rw [rd_setTw, rd_setTw, rd_wr_ne _ _ (by decide), rd_wr_ne _ _ (by decide)]

/-- A phase part is set: TB_INC follows, and nothing else. -/
theorem setPhase_pair (d : Dev) (q : Int) : (setPhase d q).tb = { d.tb with phase := clampI (-phaseMax d) (phaseMax d) q }
    ∧ (∀ a, a ≠ TB_INC → rd (setPhase d q) a = rd d a) ∧ (setPhase d q).sig = d.sig ∧ (setPhase d q).tw = d.tw := by
  unfold setPhase
  obtain ⟨y, hy⟩ : ∃ y, y = setTb d { d.tb with phase := clampI (-phaseMax d) (phaseMax d) q } := ⟨_, rfl⟩
  rw [← hy]
  have h3 : (tbInc y).tb = y.tb := by unfold tbInc wrN wr; rfl
  refine ⟨by rw [h3, hy]; rfl, fun a ha => ?_, ?_, ?_⟩
  · unfold tbInc; rw [rd_wrN_ne _ _ ha, hy]; exact rd_congr rfl a
  · unfold tbInc wrN; rw [wr_sig, hy]; rfl
  · unfold tbInc wrN; rw [wr_tw, hy]; rfl
theorem phaseMax_floor (d : Dev) : 0 ≤ phaseMax d := by unfold phaseMax incNominal; omega
/-- The end of a slew. -/
theorem slewEnd_pair (d : Dev) : (slewEnd d).tb = { d.tb with slew := none, pairSlew := none, phase := 0 }
    ∧ (∀ a, a ≠ TB_INC → rd (slewEnd d) a = rd d a) ∧ (slewEnd d).sig = d.sig ∧ (slewEnd d).tw = d.tw := by
  unfold slewEnd
  have hp := phaseMax_floor (setTb d { d.tb with slew := none, pairSlew := none })
  obtain ⟨h1, h2, h3, h4⟩ := setPhase_pair (setTb d { d.tb with slew := none, pairSlew := none }) 0
  refine ⟨?_, fun a ha => (h2 a ha).trans (rd_congr rfl a), h3.trans rfl, h4.trans rfl⟩
  rw [h1]
  have : clampI (-phaseMax (setTb d { d.tb with slew := none, pairSlew := none })) (phaseMax (setTb d { d.tb with slew := none, pairSlew := none })) 0 = 0 := by unfold clampI; omega
  rw [this]
  rfl
/-- A slew of the pair's correction. -/
theorem slewStart_pair (d : Dev) (u m : Int) (h : oneNs ≤ u ∨ u ≤ -oneNs) :
    (slewStart d u m true).tb.pairSlew = some u ∧ (slewStart d u m true).tb.slew = none ∧ (slewStart d u m true).tb.pairStep = d.tb.pairStep
      ∧ (∀ a, a ≠ TB_INC → rd (slewStart d u m true) a = rd d a) ∧ (slewStart d u m true).sig = d.sig ∧ (slewStart d u m true).tw = d.tw := by
  unfold slewStart
  rw [if_neg (by omega), if_pos rfl]
  obtain ⟨x, hx⟩ : ∃ x, x = setTb d { d.tb with slew := none, pairSlew := some u } := ⟨_, rfl⟩
  rw [← hx]
  have h1 : x.tb = { d.tb with slew := none, pairSlew := some u } := by rw [hx]; rfl
  generalize (if u < 0 then -m else m) = q
  obtain ⟨a1, a2, a3, a4⟩ := setPhase_pair x q
  rw [a1, h1]
  exact ⟨rfl, rfl, rfl, fun a ha => (a2 a ha).trans (by rw [hx]; exact rd_congr rfl a), a3.trans (by rw [hx]; rfl), a4.trans (by rw [hx]; rfl)⟩

theorem bump_setTwLane (d : Dev) (n a : Nat) (x y z : Bool) : bump (setTwLane d n x y z) a = setTwLane (bump d a) n x y z := by
  unfold setTwLane
  rw [bump_tw]
  unfold bump
  rw [rd_setTw]
  unfold setTw wr; rfl

/-- What follows a role: the message bus channels keep everything of the pair. -/
theorem recorded_setTw {d e : Dev} {t : Twin} (h : Recorded (setTw d t) e) (u : Twin) : Recorded (setTw d u) (setTw e u) := by
  obtain ⟨h1, h2⟩ := h
  refine ⟨?_, fun a ha => ?_⟩
  · rw [h1]; rfl
  · rw [rd_setTw, rd_setTw, h2 a ha, rd_setTw]
/-- What a channel's completions leave: everything but its page, and the memory they write. -/
def CxKept (x : Nat) (d e : Dev) : Prop :=
  e = { d with regs := e.regs, sram := e.sram, poison := e.poison } ∧ ∀ a, (a < cxBase x ∨ cxBase x + 0x1000 ≤ a) → rd e a = rd d a

theorem CxKept.refl (x : Nat) (d : Dev) : CxKept x d d := ⟨rfl, fun _ _ => rfl⟩
theorem CxKept.trans {x : Nat} {d e f : Dev} (h : CxKept x d e) (h' : CxKept x e f) : CxKept x d f := by
  refine ⟨?_, fun a ha => (h'.2 a ha).trans (h.2 a ha)⟩
  rw [h'.1, h.1]
theorem CxKept.sram (x : Nat) (d : Dev) (a : Nat) (bs : List W8) : CxKept x d (sramPut d a bs) := by
  unfold sramPut
  split
  · exact ⟨rfl, fun b _ => rd_congr rfl b⟩
  · exact CxKept.refl x d
theorem CxKept.wr (x : Nat) (d : Dev) (a : Nat) (v : W32) (h : cxBase x ≤ a ∧ a < cxBase x + 0x1000) : CxKept x d (wr d a v) :=
  ⟨by unfold Machine.wr; rfl, fun b hb => rd_wr_ne d v (by omega)⟩

theorem cxFinish_kept (d : Dev) (x q code st : Nat) (hq : q < 4) : CxKept x d (cxFinish d x q code st) := by
  unfold cxFinish bump wrN
  simp only
  refine ((CxKept.sram x d _ _).trans (CxKept.sram x _ _ _)).trans ((CxKept.wr x _ _ _ ?_).trans (CxKept.wr x _ _ _ ?_))
  · unfold CX_TQ_LAST; omega
  · unfold CX_TQ_DONE; omega

theorem cxFinishN_kept (x q code : Nat) (hq : q < 4) : ∀ n d, CxKept x d (cxFinishN x q code n d)
  | 0, d => CxKept.refl x d
  | n + 1, d => (cxFinish_kept d x q code 0 hq).trans (cxFinishN_kept x q code hq n _)

theorem cxDrain_kept (d : Dev) (x : Nat) : CxKept x d (cxDrain d x) := by
  unfold cxDrain
  split
  · next code _ =>
    have h : ∀ (l : List Nat), (∀ q ∈ l, q < 4) → ∀ e, CxKept x e (l.foldl (fun d q => cxFinishN x q code (tqOut d x q) d) e) := by
      intro l
      induction l with
      | nil => intro _ e; exact CxKept.refl x e
      | cons q t ih =>
        intro hl e
        exact (cxFinishN_kept x q code (hl q (by simp)) _ e).trans (ih (fun y hy => hl y (by simp [hy])) _)
    exact h _ (by decide) d
  · exact CxKept.refl x d

/-- What follows a change of the role: channels, converter cores and the time base, and no more of the pair, the power or the table. -/
def RoleKept (d e : Dev) : Prop :=
  e.role = d.role ∧ e.tw = d.tw ∧ e.sig = d.sig ∧ e.power = d.power ∧ ∀ a, a < 0x00600000 → a ≠ TB_INC → rd e a = rd d a
theorem RoleKept.refl (d : Dev) : RoleKept d d := ⟨rfl, rfl, rfl, rfl, fun _ _ _ => rfl⟩
theorem RoleKept.trans {d e f : Dev} (h : RoleKept d e) (g : RoleKept e f) : RoleKept d f :=
  ⟨g.1.trans h.1, g.2.1.trans h.2.1, g.2.2.1.trans h.2.2.1, g.2.2.2.1.trans h.2.2.2.1, fun a ha hb => (g.2.2.2.2 a ha hb).trans (h.2.2.2.2 a ha hb)⟩
theorem roleKept_foldl {β : Type} (f : Dev → β → Dev) (h : ∀ d x, RoleKept d (f d x)) (l : List β) : ∀ d, RoleKept d (l.foldl f d) := by
  induction l with
  | nil => exact RoleKept.refl
  | cons x l ih => intro d; exact (h d x).trans (ih _)
theorem cxRole_kept (e : Dev) (x : Nat) : RoleKept e (cxRole e x) := by
  have hx : 0x00600000 ≤ cxBase x := by unfold cxBase; omega
  have key : ∀ c, RoleKept e (cxDrain (setCx e x c) x) := by
    intro c
    obtain ⟨h1, h2⟩ := cxDrain_kept (setCx e x c) x
    refine ⟨by rw [h1]; rfl, by rw [h1]; rfl, by rw [h1]; rfl, by rw [h1]; rfl, fun a ha _ => ?_⟩
    rw [h2 _ (Or.inl (by omega))]; exact rd_congr rfl _
  unfold cxRole
  extract_lets c
  exact ite_prop (RoleKept e) (key _) (ite_prop (RoleKept e) (key _) (RoleKept.refl e))
theorem cxRoles_kept (d : Dev) : RoleKept d (cxRoles d) := roleKept_foldl _ cxRole_kept _ _
theorem owAnew_kept (d : Dev) (k n : Nat) : RoleKept d (owAnew d k n) := by
  unfold owAnew setOpen
  have h : ∀ (d : Dev) (c : AcCh), RoleKept d (setCh d k n c) := fun d c => ⟨rfl, rfl, rfl, rfl, fun a _ _ => rd_congr rfl a⟩
  refine (h _ _).trans ((h _ _).trans ⟨by simp, by simp, by simp, by simp, fun a ha _ => rd_wrBit_ne _ _ _ ?_⟩)
  unfold AC_OPEN acBase; omega
theorem owRole_kept (d : Dev) : RoleKept d (owRole d) :=
  roleKept_foldl _ (fun d k => roleKept_foldl _ (fun d n => owAnew_kept d k n) _ d) _ d
theorem setTb_kept (d : Dev) (t : Tb) : RoleKept d (setTb d t) := ⟨rfl, rfl, rfl, rfl, fun a _ _ => rd_congr rfl a⟩
theorem tbInc_kept (d : Dev) : RoleKept d (tbInc d) := by
  unfold tbInc wrN
  exact ⟨by simp, by simp, by simp, by simp, fun a _ hb => rd_wr_ne _ _ hb⟩
theorem setPhase_kept (d : Dev) (q : Int) : RoleKept d (setPhase d q) := (setTb_kept d _).trans (tbInc_kept _)
theorem slewEnd_kept (d : Dev) : RoleKept d (slewEnd d) := (setTb_kept d _).trans (setPhase_kept _ _)
theorem tbTakeOver_kept (d : Dev) : RoleKept d (tbTakeOver d) :=
  ite_prop (RoleKept d) ((setTb_kept _ _).trans (slewEnd_kept _)) (RoleKept.refl d)

/-- A role is taken: it is counted, and the rest of the pair stands. -/
theorem setRole_facts (d : Dev) (r : Role) (c : Nat) (h : d.role ≠ r) :
    (setRole d r c).role = r ∧ (setRole d r c).tw = d.tw ∧ rd (setRole d r c) TW_ROLE_CNT = rd d TW_ROLE_CNT + 1 ∧ (setRole d r c).sig = d.sig
      ∧ (setRole d r c).power = d.power ∧ ∀ a, a < 0x00600000 → a ≠ TB_INC → a ≠ TW_ROLE_CNT → rd (setRole d r c) a = rd d a := by
  unfold setRole
  rw [if_neg h]
  extract_lets old was d1 d2 d3 d4
  have k1 : d1.role = r ∧ d1.tw = d.tw ∧ d1.sig = d.sig ∧ d1.power = d.power := by
    refine ⟨?_, ?_, ?_, ?_⟩ <;> simp [d1]
  have k2 : Recorded d1 d2 := by
    dsimp only [d2]; split
    · exact recorded_report _ _ _ _
    · exact Recorded.refl _
  have k3 : RoleKept d2 (if authoritative d4 && !was then tbTakeOver d4 else d4) := by
    have h3 : RoleKept d2 d3 := cxRoles_kept d2
    have h4 : RoleKept d2 d4 := by
      dsimp only [d4]; split
      · exact h3
      · exact h3.trans (owRole_kept _)
    exact ite_prop (RoleKept d2) (h4.trans (tbTakeOver_kept _)) h4
  obtain ⟨r1, r2, r3, r4, r5⟩ := k3
  have hb : 0x00600000 ≤ dbBase := by decide
  have hd : ∀ a, a < 0x00600000 → a ≠ TB_INC → rd (if authoritative d4 && !was then tbTakeOver d4 else d4) a = rd d1 a := fun a ha hn => by
    rw [r5 a ha hn, recorded_rd k2 (Or.inl (by omega))]
  refine ⟨?_, ?_, ?_, ?_, ?_, fun a ha hn hc => ?_⟩
  · rw [r1, recorded_role k2]; exact k1.1
  · rw [r2, recorded_tw k2]; exact k1.2.1
  · rw [hd _ (by decide) (by decide)]; exact rd_bump_same _ _
  · rw [r3, recorded_sig k2]; exact k1.2.2.1
  · rw [r4, recorded_power k2]; exact k1.2.2.2
  · rw [hd a ha hn]; exact rd_bump_ne _ hc

/-- A command, refused or not: its effect, and what its command register holds after it. -/
theorem withCommand_any (d : Dev) (p : Page) (a : Nat) (v : W32) (f : Dev → Dev) : withCommand d p a v f = f (wr d a (v &&& wpBits p (a - pageBase p)))
    ∨ withCommand d p a v f = wr (f (wr d a (v &&& wpBits p (a - pageBase p)))) a (rd d a) := by
  unfold withCommand
  simp only
  split
  · exact Or.inr rfl
  · exact Or.inl rfl
/-- A command that its page refuses: the error registers, and nothing of its effect. -/
theorem hostCmd_errs (d : Dev) (p : Page) (off : Nat) (v : W32) (f : Dev → Dev) (c r : Nat) (ha : admits d p off = true) (ho : off ≠ ERR_CODE)
    (ho' : off ≠ ERR_ADDR) (hf : f (issued d p off v) = err (issued d p off v) p c r) :
    rdN (hostCmd d p off v f) (pageBase p + ERR_CODE) % 65536 = c % 65536 ∧ rd (hostCmd d p off v f) (pageBase p + ERR_ADDR) = w32 r
      ∧ (hostCmd d p off v f).tw = d.tw ∧ (hostCmd d p off v f).role = d.role := by
  have hh : hostCmd d p off v f = withCommand d p (pageBase p + off) v f := by unfold hostCmd; rw [admitted_admits _ _ _ _ _ ha]
  rw [hh]
  have hi : f (wr d (pageBase p + off) (v &&& wpBits p (pageBase p + off - pageBase p))) = err (issued d p off v) p c r := by
    rw [Nat.add_sub_cancel_left]; exact hf
  obtain ⟨x, hx⟩ : ∃ x, x = err (issued d p off v) p c r := ⟨_, rfl⟩
  have e1 : rdN x (pageBase p + ERR_CODE) % 65536 = c % 65536 := by rw [hx]; exact err_code _ _ _ _
  have e2 : rd x (pageBase p + ERR_ADDR) = w32 r := by rw [hx]; exact err_addr _ _ _ _
  have e3 : x.tw = d.tw := by rw [hx]; unfold err wrN; rw [wr_tw, wr_tw]; simp
  have e4 : x.role = d.role := by rw [hx]; unfold err wrN; rw [wr_role, wr_role]; simp
  rcases withCommand_any d p (pageBase p + off) v f with h | h <;> rw [h, hi, ← hx]
  · exact ⟨e1, e2, e3, e4⟩
  · refine ⟨?_, ?_, ?_, ?_⟩
    · unfold rdN at e1 ⊢; rw [rd_wr_ne _ _ (by omega)]; exact e1
    · rw [rd_wr_ne _ _ (by omega)]; exact e2
    · rw [wr_tw]; exact e3
    · rw [wr_role]; exact e4

theorem wireFail_facts (d : Dev) (w : Nat) (h : pairEn d = true) (hw : wireOk d w = true) :
    (wireFail d w).tw = (setWire d w false).tw ∧ (wireFail d w).role = d.role ∧ (wireFail d w).sig = d.sig
      ∧ ∀ a, a ≠ GL_WIRE_CNT → a < dbBase → rd (wireFail d w) a = rd d a := by
  unfold wireFail
  rw [if_pos ⟨h, hw⟩]
  obtain ⟨y, hy⟩ : ∃ y, y = bump (setWire d w false) GL_WIRE_CNT := ⟨_, rfl⟩
  simp only
  rw [← hy]
  have hr := recorded_report y 0x0063 9 [w32 (w % 2), 1, w32 (glStat y)]
  refine ⟨(recorded_tw hr).trans ?_, (recorded_role hr).trans ?_, (recorded_sig hr).trans ?_, fun a ha hb => ?_⟩
  · rw [hy, bump_tw]
  · rw [hy]; simp [setWire]
  · rw [hy]; simp [setWire]
  · rw [recorded_rd hr (Or.inl hb), hy, rd_bump_ne _ ha]; unfold setWire; rw [rd_setTw]

/-- The test of idle wires leaves the health it found. -/
theorem wireTest_facts (d : Dev) (a b : Bool) (h : pairEn d = true) :
    (wireTest d a b).tw.wireA = a ∧ (wireTest d a b).tw.wireB = b ∧ (wireTest d a b).role = d.role ∧ (wireTest d a b).sig = d.sig
      ∧ ∀ r, r ≠ GL_WIRE_CNT → r < dbBase → rd (wireTest d a b) r = rd d r := by
  unfold wireTest
  obtain ⟨x, hx⟩ : ∃ x, x = setTw d { d.tw with wireA := true, wireB := true } := ⟨_, rfl⟩
  simp only
  rw [← hx]
  have x1 : x.tw.wireA = true ∧ x.tw.wireB = true ∧ x.role = d.role ∧ x.sig = d.sig := by rw [hx]; exact ⟨rfl, rfl, rfl, rfl⟩
  have x2 : ∀ r, rd x r = rd d r := by intro r; rw [hx, rd_setTw]
  obtain ⟨y, hy⟩ : ∃ y, y = (if a = true then x else wireFail x 0) := ⟨_, rfl⟩
  rw [← hy]
  have hpx : pairEn x = true := by unfold pairEn rdBit; rw [x2]; exact h
  have y1 : y.tw.wireA = a ∧ y.tw.wireB = true ∧ y.role = d.role ∧ y.sig = d.sig ∧ ∀ r, r ≠ GL_WIRE_CNT → r < dbBase → rd y r = rd d r := by
    rw [hy]
    cases a
    · obtain ⟨f1, f2, f3, f4⟩ := wireFail_facts x 0 hpx x1.1
      rw [if_neg (by simp)]
      refine ⟨by rw [f1]; rfl, by rw [f1]; exact x1.2.1, f2.trans x1.2.2.1, f3.trans x1.2.2.2, fun r h1 h2 => (f4 r h1 h2).trans (x2 r)⟩
    · rw [if_pos rfl]; exact ⟨x1.1, x1.2.1, x1.2.2.1, x1.2.2.2, fun r _ _ => x2 r⟩
  obtain ⟨y1, y2, y3, y4, y5⟩ := y1
  have hpy : pairEn y = true := by unfold pairEn rdBit; rw [y5 _ (by decide) (by decide)]; exact h
  cases b
  · obtain ⟨f1, f2, f3, f4⟩ := wireFail_facts y 1 hpy y2
    rw [if_neg (by simp)]
    exact ⟨by rw [f1]; exact y1, by rw [f1]; rfl, f2.trans y3, f3.trans y4, fun r h1 h2 => (f4 r h1 h2).trans (y5 r h1 h2)⟩
  · rw [if_pos rfl]; exact ⟨y1, y2, y3, y4, y5⟩

/-- RETURN_NOW and an offer: authority is asked for where everything but the hold-off is there. -/
theorem askReturn_now (x : Dev) : askReturn (setTw x { x.tw with askNow := true }) =
    if mayReturn x then twSend (setTw x { x.tw with asked := true, askNow := false }) (.ctrl 1) else setTw x { x.tw with askNow := true } := by
  have h1 : mayReturn (setTw x { x.tw with askNow := true }) = mayReturn x := rfl
  unfold askReturn
  rw [h1, setTw_tw]
  simp only [Bool.or_true, Bool.and_true]
  cases mayReturn x <;> rfl

/-- What the start of a drain changes: the journal's own. -/
theorem drainStart_eq (d : Dev) (c : Commit) : ∃ n, drainStart d c = setJn d { d.jn with due := false, shadow := none, draining := some { c with number := n }, tagTop := max d.jn.tagTop n }
    ∧ n = (if c.baseline then d.jn.tagTop else d.jn.top) + 1 := ⟨_, rfl, rfl⟩
/-- A baseline drains: MRAM's commit slots and the journal change, and nothing else. -/
theorem baselineStart_facts (d : Dev) : ∃ m j, baselineStart d = { d with mram := m, jn := j } ∧ j.cold = d.jn.cold ∧ j.commits = []
    ∧ ∃ c, j.draining = some c ∧ c.baseline = true ∧ c.number = d.jn.tagTop + 1 ∧ c.boundary = bp d := by
  unfold baselineStart slotsClear
  generalize (List.range 4).foldl _ d.mram = m
  have hb : (snapshot d (snapOf d) false true).baseline = true ∧ (snapshot d (snapOf d) false true).boundary = bp d := ⟨rfl, rfl⟩
  generalize snapshot d (snapOf d) false true = c at hb ⊢
  obtain ⟨n, h, hn⟩ := drainStart_eq { d with mram := m, jn := { d.jn with commits := [] } } c
  rw [h]
  rw [hb.1] at hn
  exact ⟨m, _, rfl, rfl, rfl, _, rfl, hb.1, hn, hb.2⟩

/-- An installed base leads to the catch-up. -/
theorem baseInstalled_eq (d : Dev) (e : Nat) (b : Snap) (a1 : follows d = true) (a2 : d.role = .syncing) (a3 : d.tw.halt = false) (a4 : d.tw.phase = 2)
    (a5 : d.power.phase = .on) {x : Dev} (hx : baselineStart (setTw (install d e b) { (install d e b).tw with phase := 3, baseOk := true, baseAt := e, joining := false }) = x) :
    baseInstalled d e b = setJn x { x.jn with epoch := epochReg x } := by
  unfold baseInstalled
  rw [if_neg (by rw [a1, a2, a3, a4, a5]; decide)]
  simp only
  rw [hx]

theorem bp_setTw (d : Dev) (t : Twin) : bp (setTw d t) = bp d := by unfold bp rd64; rw [rd_setTw, rd_setTw]
theorem witnessStart_facts (d : Dev) : (witnessStart d).tw = { d.tw with witness := some (bp d) } ∧ (witnessStart d).regs = d.regs
    ∧ (witnessStart d).role = d.role ∧ (witnessStart d).sig = d.sig := ⟨rfl, rfl, rfl, rfl⟩

end Sys2Proof.Machine
end

