-- ==== Sys2Proof/Laws/Held.lean ====
section
/-! SUPPORT. The entry into Held and the comparison of digests: what they leave of the device. -/

namespace Sys2Proof.Machine

/-! ### Held -/

/-- The entry of the blocks into Held changes no register below the health page, no role, nothing of the pair and no signal. -/
def HoldKept (d e : Dev) : Prop := e.role = d.role ∧ e.tw = d.tw ∧ e.sig = d.sig ∧ e.power = d.power ∧ ∀ a, a < hlthBase → rd e a = rd d a
theorem HoldKept.refl (d : Dev) : HoldKept d d := ⟨rfl, rfl, rfl, rfl, fun _ _ => rfl⟩
theorem HoldKept.trans {d e f : Dev} (h : HoldKept d e) (g : HoldKept e f) : HoldKept d f :=
  ⟨g.1.trans h.1, g.2.1.trans h.2.1, g.2.2.1.trans h.2.2.1, g.2.2.2.1.trans h.2.2.2.1, fun a ha => (g.2.2.2.2 a ha).trans (h.2.2.2.2 a ha)⟩
theorem holdKept_foldl {β : Type} (f : Dev → β → Dev) (h : ∀ d x, HoldKept d (f d x)) (l : List β) : ∀ d, HoldKept d (l.foldl f d) := by
  induction l with
  | nil => exact HoldKept.refl
  | cons x l ih => intro d; exact (h d x).trans (ih _)
theorem holdKept_put2 (d : Dev) (n : Nat) (v : W32) (b : Bool) : HoldKept d (put2 d n v b) := ⟨rfl, rfl, rfl, rfl, fun _ _ => rfl⟩
theorem holdKept_setLp (d : Dev) (p : Nat) (x : Lp) : HoldKept d (setLp d p x) := ⟨rfl, rfl, rfl, rfl, fun _ _ => rfl⟩
theorem holdKept_setAx (d : Dev) (p : Nat) (x : Axis) : HoldKept d (setAx d p x) := ⟨by simp, by simp, by simp, by simp, fun a _ => by simp⟩
theorem holdKept_setAo (d : Dev) (p : Nat) (x : AoCh) : HoldKept d (setAo d p x) := ⟨rfl, rfl, rfl, rfl, fun _ _ => rfl⟩
theorem holdKept_setDio (d : Dev) (p : Nat) (x : DioPin) : HoldKept d (setDio d p x) := ⟨rfl, rfl, rfl, rfl, fun _ _ => rfl⟩
theorem holdKept_setWear (d : Dev) (p : Nat) (x : Wear) : HoldKept d (setWear d p x) := ⟨rfl, rfl, rfl, rfl, fun _ _ => rfl⟩
theorem holdKept_recorded {d e : Dev} (h : Recorded d e) : HoldKept d e :=
  ⟨recorded_role h, recorded_tw h, recorded_sig h, recorded_power h, fun a ha => recorded_rd h (Or.inl (lt_trans ha (by decide)))⟩
theorem holdKept_wr (d : Dev) (r : Nat) (v : W32) (h : hlthBase ≤ r) : HoldKept d (wr d r v) :=
  ⟨by simp, by simp, by simp, by simp, fun a ha => rd_wr_ne _ _ (by omega)⟩
theorem holdKept_wear (d : Dev) (e n : Nat) : HoldKept d (wearAdd d e n) := by
  have ho : hlthBase ≤ HLTH_WL_OVER (e / 32) := by unfold HLTH_WL_OVER; omega
  unfold wearAdd
  refine ite_prop (HoldKept d) (HoldKept.refl d) ?_
  obtain ⟨z, hz⟩ : ∃ z, z = setWear d e { wearOf d e with count := (wearOf d e).count + n } := ⟨_, rfl⟩
  rw [← hz]
  have h0 : HoldKept d z := by rw [hz]; exact holdKept_setWear _ _ _
  refine h0.trans ?_
  unfold wearCheck setOver
  extract_lets x y
  refine ite_prop (HoldKept _) (ite_prop (HoldKept _) (HoldKept.refl _) ?_) (ite_prop (HoldKept _) ((holdKept_setWear _ _ _).trans (holdKept_wr _ _ _ ho)) (HoldKept.refl _))
  exact (((holdKept_setWear _ _ _).trans (holdKept_wr _ _ _ ho)).trans (holdKept_wr _ HLTH_WL_CNT _ (by decide))).trans (holdKept_recorded (recorded_fieldFaultAt _ _ _ _ _ _))
theorem holdBlocks_kept (d : Dev) : HoldKept d (holdBlocks d) := by
  unfold holdBlocks
  extract_lets d1 d2 d3 d4 d5
  have k1 : HoldKept d d1 := holdKept_foldl _ (fun d l => holdKept_foldl _ (fun d n => holdKept_put2 _ _ _ _) _ _) _ _
  have k2 : HoldKept d1 d2 := holdKept_foldl _ (fun d a => ite_prop (HoldKept d) (holdKept_setAx _ _ _) (HoldKept.refl d)) _ _
  have k3 : HoldKept d2 d3 := holdKept_foldl _ (fun d g => ite_prop (HoldKept d) (holdKept_foldl _ (fun d n => holdKept_put2 _ _ _ _) _ _) (HoldKept.refl d)) _ _
  have k4 : HoldKept d3 d4 := holdKept_foldl _ (fun d g => ite_prop (HoldKept d) (HoldKept.refl d) (holdKept_setAo _ _ _)) _ _
  have k5 : HoldKept d4 d5 := holdKept_foldl _ (fun d g => ite_prop (HoldKept d) ((holdKept_setDio _ _ _).trans (by
    unfold dioSwitch
    extract_lets x y
    exact ite_prop (HoldKept _) ((holdKept_setDio _ _ _).trans (holdKept_wear _ _ _)) (holdKept_setDio _ _ _))) (HoldKept.refl d)) _ _
  exact ((((k1.trans k2).trans k3).trans k4).trans k5).trans (holdKept_foldl _ (fun d g => ite_prop (HoldKept d)
    ((holdKept_foldl _ (fun d n => holdKept_put2 _ _ _ _) _ _).trans (holdKept_setLp _ _ _)) (HoldKept.refl d)) _ _)
/-- A device that runs enters Held. -/
theorem enterHeld_on (d : Dev) (b : W32) (c a : Nat) (hp : d.power.phase = .on) (hn : pairEn d = true) :
    (enterHeld d b c a).power = { d.power with phase := .held } ∧ (enterHeld d b c a).tw.hold = false
      ∧ (enterHeld d b c a).tw.authA = (d.tw.authA && !d.tw.authB) ∧ (enterHeld d b c a).tw.authB = (d.tw.authB && !d.tw.authA)
      ∧ (enterHeld d b c a).role = .syncing ∧ ∀ r, r < hlthBase → r ≠ TB_INC → r ≠ TW_ROLE_CNT → rd (enterHeld d b c a) r = rd d r := by
  unfold enterHeld
  rw [if_neg (by rw [hp]; decide), if_pos hp]
  obtain ⟨x, hx⟩ : ∃ x, x = { d with power := { d.power with phase := .held } } := ⟨_, rfl⟩
  have x1 : x.power = { d.power with phase := .held } := by rw [hx]
  have x2 : x.tw = d.tw := by rw [hx]
  have x3 : ∀ r, rd x r = rd d r := by rw [hx]; exact fun r => rd_congr rfl r
  dsimp only
  rw [← hx]
  clear hx
  obtain ⟨h1, h2, h3, h4, h5⟩ := (holdBlocks_kept x).trans (holdKept_recorded (recorded_report (holdBlocks x) 0x0005 2 [b, w32 c, w32 a]))
  generalize report (holdBlocks x) 0x0005 2 [b, w32 c, w32 a] = y at *
  unfold heldPair
  obtain ⟨z, hz⟩ : ∃ z, z = setTw y { y.tw with hold := false, seizing := false, won := false, handover := none, asked := false, authA := y.tw.authA && !y.tw.authB, authB := y.tw.authB && !y.tw.authA } := ⟨_, rfl⟩
  dsimp only
  rw [← hz]
  have z1 : z.power = y.power := by rw [hz]; rfl
  have z2 : z.tw = { y.tw with hold := false, seizing := false, won := false, handover := none, asked := false, authA := y.tw.authA && !y.tw.authB, authB := y.tw.authB && !y.tw.authA } := by rw [hz]; rfl
  have z3 : ∀ r, rd z r = rd y r := by intro r; rw [hz, rd_setTw]
  clear hz
  have hpz : pairEn z = true := by unfold pairEn rdBit; rw [z3, h5 _ (by decide), x3]; exact hn
  rw [if_pos hpz]
  have fin : ∀ w : Dev, w.tw = z.tw → w.power = z.power → w.role = .syncing → (∀ r, r < hlthBase → r ≠ TB_INC → r ≠ TW_ROLE_CNT → rd w r = rd z r) →
      w.power = { d.power with phase := .held } ∧ w.tw.hold = false
      ∧ w.tw.authA = (d.tw.authA && !d.tw.authB) ∧ w.tw.authB = (d.tw.authB && !d.tw.authA)
      ∧ w.role = .syncing ∧ ∀ r, r < hlthBase → r ≠ TB_INC → r ≠ TW_ROLE_CNT → rd w r = rd d r := by
    intro w g1 g2 g3 g4
    rw [g1, g2, z1, z2, h4, h2, x1, x2]
    exact ⟨rfl, rfl, rfl, rfl, g3, fun r q1 q2 q3 => by rw [g4 r q1 q2 q3, z3, h5 r q1, x3]⟩
  by_cases hr : z.role = .syncing
  · have e : setRole z .syncing 0 = z := by unfold setRole; rw [if_pos hr]
    rw [e]
    exact fin z rfl rfl hr (fun _ _ _ _ => rfl)
  · obtain ⟨g1, g2, g3, g4, g5, g6⟩ := setRole_facts z .syncing 0 hr
    exact fin _ g2 g5 g1 (fun r q1 q2 q3 => g6 r (lt_trans q1 (by decide)) q2 q3)
theorem recorded_laneUp {d e : Dev} (h : Recorded d e) (n : Nat) : laneUp e n = laneUp d n ∧ laneTr e n = laneTr d n ∧ laneRetry e n = laneRetry d n := by
  unfold laneUp laneTr laneRetry; rw [recorded_tw h]; exact ⟨rfl, rfl, rfl⟩
theorem recorded_pairLink (d : Dev) (e l x : Nat) : Recorded d (pairLink d e l x) := recorded_report _ _ _ _

/-! ### Digests -/

/-- A digest's comparison reaches registers of the twin page and the recorder only. -/
def DigestKept (d e : Dev) : Prop := e.jn = d.jn ∧ e.sig = d.sig ∧ e.role = d.role ∧ ∀ a, sbBase ≤ a → a < sbBase + 0x1000 → rd e a = rd d a
theorem DigestKept.refl (d : Dev) : DigestKept d d := ⟨rfl, rfl, rfl, fun _ _ _ => rfl⟩
theorem DigestKept.trans {d e f : Dev} (h : DigestKept d e) (g : DigestKept e f) : DigestKept d f :=
  ⟨g.1.trans h.1, g.2.1.trans h.2.1, g.2.2.1.trans h.2.2.1, fun a h1 h2 => (g.2.2.2 a h1 h2).trans (h.2.2.2 a h1 h2)⟩
theorem digestKept_setTw (d : Dev) (t : Twin) : DigestKept d (setTw d t) := ⟨rfl, rfl, rfl, fun a _ _ => rd_setTw d t a⟩
theorem digestKept_recorded {d e : Dev} (h : Recorded d e) : DigestKept d e :=
  ⟨recorded_jn h, recorded_sig h, recorded_role h, fun a _ h2 => recorded_rd h (Or.inl (Nat.lt_of_lt_of_le h2 (by decide)))⟩
theorem digestKept_wr (d : Dev) (a : Nat) (v : W32) (h : a < sbBase ∨ sbBase + 0x1000 ≤ a) : DigestKept d (wr d a v) :=
  ⟨by simp, by simp, by simp, fun b h1 h2 => rd_wr_ne _ _ (by omega)⟩
theorem digestKept_twSend (d : Dev) (f : TwOut) : DigestKept d (twSend d f) := by
  generalize hx : twSend d f = x; have h := twSend_dev d f; rw [hx] at h; rw [h]; exact ⟨rfl, rfl, rfl, fun a _ _ => rd_congr rfl a⟩
theorem digestKept_wantSync (d : Dev) : DigestKept d (wantSync d) := by
  unfold wantSync; exact (digestKept_setTw _ _).trans (digestKept_twSend _ _)
theorem digestKept_mismatch (d : Dev) (e o p : Nat) : DigestKept d (mismatch d e o p) := by
  unfold mismatch
  extract_lets t x y
  have hx : DigestKept d x := (digestKept_setTw d _).trans (digestKept_wr _ TW_DIG_MIS_CNT _ (by decide))
  have hy : DigestKept d y := hx.trans (ite_prop (DigestKept x) (digestKept_recorded (recorded_report _ _ _ _)) (DigestKept.refl x))
  refine hy.trans (ite_prop (DigestKept y) (digestKept_wantSync y) (ite_prop (DigestKept y) ?_ (DigestKept.refl y)))
  unfold syncFail
  exact ((digestKept_wr y TW_SYNC_FAIL_CNT _ (by decide)).trans (digestKept_recorded (recorded_report _ _ _ _))).trans (digestKept_setTw _ _)
theorem digestKept_compare (d : Dev) (e o p : Nat) : DigestKept d (compareDigest d e o p) := by
  unfold compareDigest
  extract_lets t x y u z
  have hx : DigestKept d x := digestKept_setTw d _
  have w : ∀ (e : Dev) (a v : Nat), (a + 4 < sbBase ∨ sbBase + 0x1000 ≤ a) → DigestKept e (wr64 e a v) := fun e a v h => (digestKept_wr e a _ (by omega)).trans (digestKept_wr _ _ _ (by omega))
  have hy : DigestKept d y := hx.trans (((w _ TW_EPOCH _ (by decide)).trans (w _ TW_DIG_OWN _ (by decide))).trans (w _ TW_DIG_PEER _ (by decide)))
  refine hy.trans (ite_prop (DigestKept y) (digestKept_mismatch _ _ _ _) ?_)
  exact (digestKept_setTw y _).trans (ite_prop (DigestKept z) (digestKept_setTw _ _) (DigestKept.refl _))
theorem digestKept_foldl {β : Type} (f : Dev → β → Dev) (h : ∀ d x, DigestKept d (f d x)) (l : List β) : ∀ d, DigestKept d (l.foldl f d) := by
  induction l with
  | nil => exact DigestKept.refl
  | cons x l ih => intro d; exact (h d x).trans (ih _)
theorem digestKept_own (d : Dev) (e g : Nat) : DigestKept d (ownDigest d e g) := by
  unfold ownDigest
  refine ite_prop (DigestKept d) (DigestKept.refl d) ?_
  extract_lets lost x t y
  have hx : DigestKept d x := digestKept_foldl _ (fun d n => (digestKept_setTw d _).trans (digestKept_mismatch _ _ _ _)) _ d
  have hy : DigestKept d y := (hx.trans (digestKept_setTw _ _)).trans (digestKept_twSend _ _)
  split
  · exact hy.trans (digestKept_compare _ _ _ _)
  · exact hy
theorem digestKept_askReturn (d : Dev) : DigestKept d (askReturn d) := by
  unfold askReturn
  exact ite_prop (DigestKept d) ((digestKept_setTw d _).trans (digestKept_twSend _ _)) (DigestKept.refl d)

end Sys2Proof.Machine
end

