-- ==== Sys2Proof/Laws/Pages.lean ====
section
/-! SUPPORT. The address map: an address in the first KiB of a page names that page and its offset (Tables 2-3 and 2-4). -/

namespace Sys2Proof.Machine

theorem inRange_off {a base step n size off : Nat} {mk : Nat → Page} {p : Page} (hs : size % 0x400 = 0) (hst : step % 0x400 = 0) (h0 : 0 < step) (hz : size ≤ step)
    (ho : off < 0x400) (h : inRange a base step n size mk = some (p, 0)) : inRange (a + off) base step n size mk = some (p, off) := by
  unfold inRange at *
  split at h
  · rename_i hc
    obtain ⟨h1, h2, h3⟩ := hc
    simp only [Option.some.injEq, Prod.mk.injEq] at h
    obtain ⟨h4, h5⟩ := h
    obtain ⟨k, hk⟩ : ∃ k, a - base = step * k := ⟨(a - base) / step, by have := Nat.div_add_mod (a - base) step; omega⟩
    have hsz : 0x400 ≤ size := by omega
    have e : a + off - base = step * k + off := by omega
    have hd : (step * k + off) / step = k := by
      rw [Nat.mul_add_div h0, Nat.div_eq_of_lt (by omega)]; rfl
    have hm : (step * k + off) % step = off := by rw [Nat.mul_add_mod, Nat.mod_eq_of_lt (by omega)]
    have hk2 : k < n := by
      by_contra hc
      have : step * n ≤ step * k := Nat.mul_le_mul_left _ (by omega)
      omega
    have : step * (k + 1) ≤ step * n := Nat.mul_le_mul_left _ (by omega)
    rw [Nat.mul_add, Nat.mul_one] at this
    rw [e, hd, hm, if_pos ⟨by omega, by omega, by omega⟩]
    rw [hk, Nat.mul_div_cancel_left _ h0] at h4
    rw [h4]
  · exact nomatch h
theorem inRange_aligned {a base step n size : Nat} {mk : Nat → Page} {p : Page} (hb : base % 0x400 = 0) (hst : step % 0x400 = 0)
    (h : inRange a base step n size mk = some (p, 0)) : a % 0x400 = 0 := by
  unfold inRange at h
  split at h
  · simp only [Option.some.injEq, Prod.mk.injEq] at h
    have := Nat.div_add_mod (a - base) step
    have h2 : step * ((a - base) / step) % 0x400 = 0 := by rw [Nat.mul_mod, hst]; simp
    omega
  · contradiction
theorem locate_aligned {a : Nat} {p : Page} (h : locate a = some (p, 0)) : a % 0x400 = 0 := by
  unfold locate at h
  by_cases c : a < 0x80000
  · rw [if_pos c] at h
    unfold devPage at h
    dsimp only at h
    split at h <;> first | contradiction | (simp only [Option.some.injEq, Prod.mk.injEq] at h; omega)
  rw [if_neg c] at h
  by_cases c : a < 0x100000
  · rw [if_pos c] at h
    contradiction
  rw [if_neg c] at h
  by_cases c : a < 0x500000
  · rw [if_pos c] at h
    dsimp only at h
    split at h
    · simp only [Option.some.injEq, Prod.mk.injEq] at h; omega
    · split at h
      · simp only [Option.some.injEq, Prod.mk.injEq] at h; omega
      · contradiction
  rw [if_neg c] at h
  by_cases c : a < 0x580000
  · rw [if_pos c] at h
    dsimp only at h
    split at h
    · simp only [Option.some.injEq, Prod.mk.injEq] at h; omega
    · split at h
      · simp only [Option.some.injEq, Prod.mk.injEq] at h; omega
      · contradiction
  rw [if_neg c] at h
  by_cases c : a < 0x5c0000
  · rw [if_pos c] at h
    exact inRange_aligned (by decide) (by decide) h
  rw [if_neg c] at h
  by_cases c : a < 0x610000
  · rw [if_pos c] at h
    exact inRange_aligned (by decide) (by decide) h
  rw [if_neg c] at h
  by_cases c : a < 0x620000
  · rw [if_pos c] at h
    exact inRange_aligned (by decide) (by decide) h
  rw [if_neg c] at h
  by_cases c : a < 0x640000
  · rw [if_pos c] at h
    exact inRange_aligned (by decide) (by decide) h
  rw [if_neg c] at h
  by_cases c : a < 0x660000
  · rw [if_pos c] at h
    exact inRange_aligned (by decide) (by decide) h
  rw [if_neg c] at h
  by_cases c : a < 0x680000
  · rw [if_pos c] at h
    exact inRange_aligned (by decide) (by decide) h
  rw [if_neg c] at h
  by_cases c : a < 0x690000
  · rw [if_pos c] at h
    exact inRange_aligned (by decide) (by decide) h
  rw [if_neg c] at h
  by_cases c : a < 0x6a0000
  · rw [if_pos c] at h
    exact inRange_aligned (by decide) (by decide) h
  rw [if_neg c] at h
  by_cases c : a < 0x708000
  · rw [if_pos c] at h
    exact inRange_aligned (by decide) (by decide) h
  rw [if_neg c] at h
  by_cases c : a < 0x709000
  · rw [if_pos c] at h
    simp only [Option.some.injEq, Prod.mk.injEq] at h; omega
  rw [if_neg c] at h
  by_cases c : a < 0x70a000
  · rw [if_pos c] at h
    simp only [Option.some.injEq, Prod.mk.injEq] at h; omega
  rw [if_neg c] at h
  by_cases c : a < 0x800000
  · rw [if_pos c] at h
    contradiction
  rw [if_neg c] at h
  by_cases c : a < 0x840000
  · rw [if_pos c] at h
    exact inRange_aligned (by decide) (by decide) h
  rw [if_neg c] at h
  by_cases c : a < 0x860000
  · rw [if_pos c] at h
    exact inRange_aligned (by decide) (by decide) h
  rw [if_neg c] at h
  by_cases c : a < 0x870000
  · rw [if_pos c] at h
    exact inRange_aligned (by decide) (by decide) h
  rw [if_neg c] at h
  by_cases c : a < 0x880000
  · rw [if_pos c] at h
    exact inRange_aligned (by decide) (by decide) h
  rw [if_neg c] at h
  by_cases c : a < 0x890000
  · rw [if_pos c] at h
    exact inRange_aligned (by decide) (by decide) h
  rw [if_neg c] at h
  by_cases c : a < 0x8a0000
  · rw [if_pos c] at h
    exact inRange_aligned (by decide) (by decide) h
  rw [if_neg c] at h
  by_cases c : a < 0x8d0000
  · rw [if_pos c] at h
    exact inRange_aligned (by decide) (by decide) h
  rw [if_neg c] at h
  by_cases c : a < 0x8e0000
  · rw [if_pos c] at h
    exact inRange_aligned (by decide) (by decide) h
  rw [if_neg c] at h
  by_cases c : a < 0x900000
  · rw [if_pos c] at h
    exact inRange_aligned (by decide) (by decide) h
  rw [if_neg c] at h
  contradiction
theorem devPage_off {a off : Nat} {p : Page} (ho : off < 0x400) (h : devPage a = some (p, 0)) : devPage (a + off) = some (p, off) := by
  have ha : a % 0x1000 = 0 := by
    unfold devPage at h
    dsimp only at h
    split at h <;> first | contradiction | (simp only [Option.some.injEq, Prod.mk.injEq] at h; omega)
  unfold devPage at *
  dsimp only at *
  rw [show (a + off) / 0x1000 = a / 0x1000 by omega, show (a + off) % 0x1000 = off by omega]
  split at h <;> first | contradiction | (simp only [Option.some.injEq, Prod.mk.injEq] at h; simp [h.1])
theorem locate_off {a off : Nat} {p : Page} (ho : off < 0x400) (h : locate a = some (p, 0)) : locate (a + off) = some (p, off) := by
  have ha := locate_aligned h
  unfold locate at h ⊢
  by_cases c : a < 0x80000
  · rw [if_pos c] at h
    rw [if_pos (by omega)]
    exact devPage_off ho h
  rw [if_neg c] at h
  rw [if_neg (by omega)]
  by_cases c : a < 0x100000
  · rw [if_pos c] at h
    contradiction
  rw [if_neg c] at h
  rw [if_neg (by omega)]
  by_cases c : a < 0x500000
  · rw [if_pos c] at h
    rw [if_pos (by omega)]
    dsimp only at h ⊢
    split at h
    · simp only [Option.some.injEq, Prod.mk.injEq] at h
      rw [if_pos (by omega), ← h.1]; simp only [Option.some.injEq, Prod.mk.injEq, Page.lt.injEq]; omega
    · split at h
      · simp only [Option.some.injEq, Prod.mk.injEq] at h
        rw [if_neg (by omega), if_pos (by omega), ← h.1]; simp only [Option.some.injEq, Prod.mk.injEq, Page.lc.injEq]; omega
      · contradiction
  rw [if_neg c] at h
  rw [if_neg (by omega)]
  by_cases c : a < 0x580000
  · rw [if_pos c] at h
    rw [if_pos (by omega)]
    dsimp only at h ⊢
    split at h
    · simp only [Option.some.injEq, Prod.mk.injEq] at h
      rw [if_pos (by omega), ← h.1]; simp only [Option.some.injEq, Prod.mk.injEq, Page.mt.injEq]; omega
    · split at h
      · simp only [Option.some.injEq, Prod.mk.injEq] at h
        rw [if_neg (by omega), if_pos (by omega), ← h.1]; simp only [Option.some.injEq, Prod.mk.injEq, Page.ax.injEq]; omega
      · contradiction
  rw [if_neg c] at h
  rw [if_neg (by omega)]
  by_cases c : a < 0x5c0000
  · rw [if_pos c] at h
    rw [if_pos (by omega)]
    exact inRange_off (by decide) (by decide) (by decide) (by decide) ho h
  rw [if_neg c] at h
  rw [if_neg (by omega)]
  by_cases c : a < 0x610000
  · rw [if_pos c] at h
    rw [if_pos (by omega)]
    exact inRange_off (by decide) (by decide) (by decide) (by decide) ho h
  rw [if_neg c] at h
  rw [if_neg (by omega)]
  by_cases c : a < 0x620000
  · rw [if_pos c] at h
    rw [if_pos (by omega)]
    exact inRange_off (by decide) (by decide) (by decide) (by decide) ho h
  rw [if_neg c] at h
  rw [if_neg (by omega)]
  by_cases c : a < 0x640000
  · rw [if_pos c] at h
    rw [if_pos (by omega)]
    exact inRange_off (by decide) (by decide) (by decide) (by decide) ho h
  rw [if_neg c] at h
  rw [if_neg (by omega)]
  by_cases c : a < 0x660000
  · rw [if_pos c] at h
    rw [if_pos (by omega)]
    exact inRange_off (by decide) (by decide) (by decide) (by decide) ho h
  rw [if_neg c] at h
  rw [if_neg (by omega)]
  by_cases c : a < 0x680000
  · rw [if_pos c] at h
    rw [if_pos (by omega)]
    exact inRange_off (by decide) (by decide) (by decide) (by decide) ho h
  rw [if_neg c] at h
  rw [if_neg (by omega)]
  by_cases c : a < 0x690000
  · rw [if_pos c] at h
    rw [if_pos (by omega)]
    exact inRange_off (by decide) (by decide) (by decide) (by decide) ho h
  rw [if_neg c] at h
  rw [if_neg (by omega)]
  by_cases c : a < 0x6a0000
  · rw [if_pos c] at h
    rw [if_pos (by omega)]
    exact inRange_off (by decide) (by decide) (by decide) (by decide) ho h
  rw [if_neg c] at h
  rw [if_neg (by omega)]
  by_cases c : a < 0x708000
  · rw [if_pos c] at h
    rw [if_pos (by omega)]
    exact inRange_off (by decide) (by decide) (by decide) (by decide) ho h
  rw [if_neg c] at h
  rw [if_neg (by omega)]
  by_cases c : a < 0x709000
  · rw [if_pos c] at h
    rw [if_pos (by omega)]
    simp only [Option.some.injEq, Prod.mk.injEq] at h
    rw [← h.1]; congr 2; omega
  rw [if_neg c] at h
  rw [if_neg (by omega)]
  by_cases c : a < 0x70a000
  · rw [if_pos c] at h
    rw [if_pos (by omega)]
    simp only [Option.some.injEq, Prod.mk.injEq] at h
    rw [← h.1]; congr 2; omega
  rw [if_neg c] at h
  rw [if_neg (by omega)]
  by_cases c : a < 0x800000
  · rw [if_pos c] at h
    contradiction
  rw [if_neg c] at h
  rw [if_neg (by omega)]
  by_cases c : a < 0x840000
  · rw [if_pos c] at h
    rw [if_pos (by omega)]
    exact inRange_off (by decide) (by decide) (by decide) (by decide) ho h
  rw [if_neg c] at h
  rw [if_neg (by omega)]
  by_cases c : a < 0x860000
  · rw [if_pos c] at h
    rw [if_pos (by omega)]
    exact inRange_off (by decide) (by decide) (by decide) (by decide) ho h
  rw [if_neg c] at h
  rw [if_neg (by omega)]
  by_cases c : a < 0x870000
  · rw [if_pos c] at h
    rw [if_pos (by omega)]
    exact inRange_off (by decide) (by decide) (by decide) (by decide) ho h
  rw [if_neg c] at h
  rw [if_neg (by omega)]
  by_cases c : a < 0x880000
  · rw [if_pos c] at h
    rw [if_pos (by omega)]
    exact inRange_off (by decide) (by decide) (by decide) (by decide) ho h
  rw [if_neg c] at h
  rw [if_neg (by omega)]
  by_cases c : a < 0x890000
  · rw [if_pos c] at h
    rw [if_pos (by omega)]
    exact inRange_off (by decide) (by decide) (by decide) (by decide) ho h
  rw [if_neg c] at h
  rw [if_neg (by omega)]
  by_cases c : a < 0x8a0000
  · rw [if_pos c] at h
    rw [if_pos (by omega)]
    exact inRange_off (by decide) (by decide) (by decide) (by decide) ho h
  rw [if_neg c] at h
  rw [if_neg (by omega)]
  by_cases c : a < 0x8d0000
  · rw [if_pos c] at h
    rw [if_pos (by omega)]
    exact inRange_off (by decide) (by decide) (by decide) (by decide) ho h
  rw [if_neg c] at h
  rw [if_neg (by omega)]
  by_cases c : a < 0x8e0000
  · rw [if_pos c] at h
    rw [if_pos (by omega)]
    exact inRange_off (by decide) (by decide) (by decide) (by decide) ho h
  rw [if_neg c] at h
  rw [if_neg (by omega)]
  by_cases c : a < 0x900000
  · rw [if_pos c] at h
    rw [if_pos (by omega)]
    exact inRange_off (by decide) (by decide) (by decide) (by decide) ho h
  rw [if_neg c] at h
  rw [if_neg (by omega)]
  contradiction
theorem locate_lt {a : Nat} {q : Page × Nat} (h : locate a = some q) : a < 0x900000 := by
  by_contra hc
  unfold locate at h
  iterate 25 rw [if_neg (by omega)] at h
  contradiction
/-- A page lies at a multiple of 1 KiB below 0x900000. -/
theorem pageBase_ok {p : Page} (h : pageOk p = true) : pageBase p < 0x900000 ∧ pageBase p % 0x400 = 0 := by
  have : locate (pageBase p) = some (p, 0) := by simpa [pageOk] using h
  exact ⟨locate_lt this, locate_aligned this⟩
/-- The address of a register of a page's first KiB names that page. -/
theorem pageAt_off {p : Page} {off : Nat} (ho : off < 0x400) (h : pageOk p = true) : pageAt (pageBase p + off) = some (p, off) := by
  unfold pageAt
  rw [locate_off ho (by simpa [pageOk] using h)]
end Sys2Proof.Machine
end

