-- ==== Sys2Proof/Laws/Host.lean ====
section
/-! SUPPORT. The host link, the event router and the clock: what their shared operations do. -/

namespace Sys2Proof.Machine

/-- A change of RUN with nothing that acts at once is the register's alone. -/
theorem blkCtrl_run (d : Dev) (p : Page) (on : Bool) (h : ∀ e, runChange e p on = e) :
    blkCtrl d p (putBit (rd d (pageBase p + BLK_CTRL)) 0 on) = wr d (pageBase p + BLK_CTRL) (w32 (fld (putBit (rd d (pageBase p + BLK_CTRL)) 0 on) 1 0)) := by
  unfold blkCtrl
  simp only [safeReq, rdBit, wrN]
  rw [bit_putBit _ _ _ _ (by decide), bit_putBit _ _ _ _ (by decide)]
  simp [h]

/-- A change of SAFE_REQ with nothing that acts at once is the register's alone. -/
theorem blkCtrl_safe (d : Dev) (p : Page) (on : Bool) (h : ∀ e, safeRise e p = e) :
    blkCtrl d p (putBit (rd d (pageBase p + BLK_CTRL)) 1 on) = wr d (pageBase p + BLK_CTRL) (w32 (fld (putBit (rd d (pageBase p + BLK_CTRL)) 1 on) 1 0)) := by
  unfold blkCtrl
  simp only [runBit, safeReq, rdBit, wrN]
  rw [bit_putBit _ _ _ _ (by decide), bit_putBit _ _ _ _ (by decide)]
  simp [h]

/-! ### The event router -/

theorem vecEval_foldl_evr {β : Type} (P : Evr → β) (h : ∀ e vs, P { e with vec := vs } = P e) (h' : ∀ e m, P { e with sent := m } = P e)
    (on : List Nat) (done : Option Nat) (l : List Nat) :
    ∀ d, P (l.foldl (fun d k => evalVec (on.contains k) (done == some k) d k) d).evr = P d.evr := by
  have one : ∀ b c d k, P (evalVec b c d k).evr = P d.evr := by
    intro b c d k
    have hv : ∀ d x, P (setVec d k x).evr = P d.evr := fun d x => h _ _
    have hs : ∀ d, P (sendMsi d k).evr = P d.evr := fun d => h' _ _
    have hl : ∀ d, P (latchStamp d k).evr = P d.evr := fun d => by simp [latchStamp]
    unfold evalVec
    simp only
    split <;> (repeat' split) <;> simp only [hv, hs, hl]
  induction l with
  | nil => intro d; rfl
  | cons k t ih => intro d; rw [List.foldl_cons, ih, one]

/-- An evaluation keeps the capability bits of MSI-X, the link and the power state of the endpoint. -/
theorem vecEval_caps (v : Vault) (d : Dev) (o : Option Nat) :
    (vecEvalAt v d o).evr.msixEnable = d.evr.msixEnable ∧ (vecEvalAt v d o).evr.funcMask = d.evr.funcMask
      ∧ (vecEvalAt v d o).evr.busMaster = d.evr.busMaster ∧ (vecEvalAt v d o).evr.linkUp = d.evr.linkUp
      ∧ (vecEvalAt v d o).evr.d3hot = d.evr.d3hot ∧ (vecEvalAt v d o).evr.leftL0 = false := by
  refine ⟨?_, ?_, ?_, ?_, ?_, rfl⟩
  · exact vecEval_foldl_evr (·.msixEnable) (fun _ _ => rfl) (fun _ _ => rfl) _ _ _ d
  · exact vecEval_foldl_evr (·.funcMask) (fun _ _ => rfl) (fun _ _ => rfl) _ _ _ d
  · exact vecEval_foldl_evr (·.busMaster) (fun _ _ => rfl) (fun _ _ => rfl) _ _ _ d
  · exact vecEval_foldl_evr (·.linkUp) (fun _ _ => rfl) (fun _ _ => rfl) _ _ _ d
  · exact vecEval_foldl_evr (·.d3hot) (fun _ _ => rfl) (fun _ _ => rfl) _ _ _ d

theorem srcVector_lt (d : Dev) (s : Nat) : srcVector d s < 256 := by
  unfold srcVector
  split
  · rw [fld_eq]; refine lt_of_lt_of_le (Nat.mod_lt _ (Nat.two_pow_pos _)) ?_
    rw [show 8 * (s % 4) + 7 - 8 * (s % 4) + 1 = 8 by omega]; decide
  · split
    · rw [fld_eq]; refine lt_of_lt_of_le (Nat.mod_lt _ (Nat.two_pow_pos _)) ?_
      rename_i k _
      rw [show 8 * k + 7 - 8 * k + 1 = 8 by omega]; decide
    · decide

theorem assertedVecs_lt (v : Vault) (d : Dev) (k : Nat) (h : k ∈ assertedVecs v d) : k < 256 := by
  unfold assertedVecs at h
  rw [List.mem_eraseDups, List.mem_map] at h
  obtain ⟨s, _, rfl⟩ := h
  exact srcVector_lt d s

theorem evalVec_rd (b c : Bool) (d : Dev) (k a : Nat) (h : a ≠ DEV_VEC_STAMP k) (h' : a ≠ DEV_VEC_STAMP k + 4) :
    rd (evalVec b c d k) a = rd d a := by
  have hv : ∀ d x, rd (setVec d k x) a = rd d a := fun d x => rd_congr rfl a
  have hs : ∀ d, rd (sendMsi d k) a = rd d a := fun d => rd_congr rfl a
  have hl : ∀ d, rd (latchStamp d k) a = rd d a := fun d => rd_wr64_ne d _ h h'
  unfold evalVec
  simp only
  split <;> (repeat' split) <;> simp only [hv, hs, hl]

/-- An evaluation writes stamps alone. -/
theorem vecEval_rd (v : Vault) (d : Dev) (o : Option Nat) (a : Nat) (hk : ∀ k ∈ tkeys d.evr.vec, k < 256)
    (h : a < DEV_VEC_STAMP 0 ∨ DEV_VEC_STAMP 256 ≤ a) : rd (vecEvalAt v d o) a = rd d a := by
  unfold vecEvalAt
  simp only
  rw [show ∀ e x, rd (setEvr e x) a = rd e a from fun e x => rd_congr rfl a]
  have : ∀ k ∈ (assertedVecs v d ++ tkeys d.evr.vec).eraseDups, k < 256 := by
    intro k hk'
    rw [List.mem_eraseDups, List.mem_append] at hk'
    exact hk'.elim (assertedVecs_lt v d k) (hk k)
  refine foldl_keep (fun d => rd d a) _ _ ?_ d
  intro k hk' d
  have := this k hk'
  apply evalVec_rd <;> (unfold DEV_VEC_STAMP at *; omega)


theorem msixReset_rd (d : Dev) (a : Nat) (h : a < msixBase ∨ pbaBase ≤ a) : rd (msixReset d) a = rd d a := by
  unfold msixReset setEvr rd
  simp only
  rw [tget_tclear, if_neg (by omega)]
theorem msixReset_cleared (d : Dev) (a : Nat) (h : msixBase ≤ a) (h' : a < pbaBase) : rd (msixReset d) a = resetOf a := by
  unfold msixReset setEvr rd
  simp only
  rw [tget_tclear, if_pos ⟨h, h'⟩]
theorem endpoint_evr (d : Dev) : (trEndpointReset d).evr = d.evr := by
  unfold trEndpointReset trXferEnd; simp only; split <;> simp
theorem rd_trDma (d : Dev) (a : Nat) (h : a < trBase) :
    rd (wr64 (wr64 (wr64 (wrN (wrN d TR_DMA_SIZE 0) TR_DMA_REL 0) TR_DMA_BASE 0) TR_DMA_WBACK 0) TR_DMA_POS 0) a = rd d a := by
  rw [rd_wr64_ne, rd_wr64_ne, rd_wr64_ne, rd_wrN_ne, rd_wrN_ne] <;>
    (first | (unfold TR_DMA_SIZE; omega) | (unfold TR_DMA_REL; omega) | (unfold TR_DMA_BASE; omega) | (unfold TR_DMA_WBACK; omega) | (unfold TR_DMA_POS; omega) | omega)
theorem rd_trXferEnd (d : Dev) (k a : Nat) (h : a < trBase) : rd (trXferEnd d k) a = rd d a := by
  have : rd (trXferEnd d k) a = rd (bump (wrN d TR_XFER_RES k) TR_XFER_CNT) a := rd_congr rfl a
  rw [this, rd_bump_ne, rd_wrN_ne] <;> (first | (unfold TR_XFER_RES; omega) | (unfold TR_XFER_CNT; omega) | omega)
theorem endpoint_rd (d : Dev) (a : Nat) (h : a < trBase) : rd (trEndpointReset d) a = rd d a := by
  have : rd (trEndpointReset d) a = rd (wr64 (wr64 (wr64 (wrN (wrN (if d.tr.xferBusy then trXferEnd d 4 else d) TR_DMA_SIZE 0) TR_DMA_REL 0)
      TR_DMA_BASE 0) TR_DMA_WBACK 0) TR_DMA_POS 0) a := rd_congr rfl a
  rw [this, rd_trDma _ _ h]
  split
  · exact rd_trXferEnd d 4 a h
  · rfl

/-! ### Resets and Held -/

theorem banksReset_keep {γ : Type} (P : Dev → γ) (hw : ∀ d a v, P (wr d a v) = P d) (old d : Dev) : P (banksReset old d) = P d := by
  unfold banksReset
  refine foldl_keep P _ _ ?_ d
  intro b _ d
  unfold wrN
  rw [hw, hw]

/-- What every reset leaves. -/
theorem blank_facts (d : Dev) (k : Nat → Bool) :
    (blank d k).power.phase = .boot ∧ (blank d k).power.fail = .no ∧ (blank d k).power.lockLost = none ∧ (blank d k).lanes = [] ∧ (blank d k).axes = []
      ∧ (blank d k).cells = [] ∧ (blank d k).lps = [] ∧ (blank d k).sig = [] ∧ (blank d k).attr = [] ∧ (blank d k).hostq = []
      ∧ (blank d k).crossing = [] ∧ (blank d k).aos = [] ∧ (blank d k).dios = [] ∧ (blank d k).pls = [] ∧ (blank d k).mram = d.mram := by
  have hb : ∀ {γ : Type} (P : Dev → γ) (h1 : ∀ d a v, P (wr d a v) = P d) (h3 : ∀ d t, P (setTk d t) = P d)
      (e : Dev), P (banksReset d (tkReset (traceOnly e))) = P e := by
    intro γ P h1 h3 e
    rw [banksReset_keep P h1, tkReset, h3, traceOnly, wrN, h1]
  unfold blank
  refine ⟨rfl, rfl, rfl, ?_, ?_, ?_, ?_, ?_, ?_, ?_, ?_, ?_, ?_, ?_, ?_⟩
  · exact (setPow_lanes _ _).trans (hb (·.lanes) (fun _ _ _ => by simp) (fun _ _ => by simp) _)
  · exact (setPow_axes _ _).trans (hb (·.axes) (fun _ _ _ => by simp) (fun _ _ => by simp) _)
  · exact (setPow_cells _ _).trans (hb (·.cells) (fun _ _ _ => by simp) (fun _ _ => by simp) _)
  · exact (setPow_lps _ _).trans (hb (·.lps) (fun _ _ _ => by simp) (fun _ _ => by simp) _)
  · exact (setPow_sig _ _).trans (hb (·.sig) (fun _ _ _ => by simp) (fun _ _ => by simp) _)
  · exact (setPow_attr _ _).trans (hb (·.attr) (fun _ _ _ => by simp) (fun _ _ => by simp) _)
  · exact (setPow_hostq _ _).trans (hb (·.hostq) (fun _ _ _ => by simp) (fun _ _ => by simp) _)
  · exact (setPow_crossing _ _).trans (hb (·.crossing) (fun _ _ _ => by simp) (fun _ _ => by simp) _)
  · exact (setPow_aos _ _).trans (hb (·.aos) (fun _ _ _ => by simp) (fun _ _ => by simp) _)
  · exact (setPow_dios _ _).trans (hb (·.dios) (fun _ _ _ => by simp) (fun _ _ => by simp) _)
  · exact (setPow_pls _ _).trans (hb (·.pls) (fun _ _ _ => by simp) (fun _ _ => by simp) _)
  · exact (setPow_mram _ _).trans (hb (·.mram) (fun _ _ _ => by simp) (fun _ _ => by simp) _)

/-- What a warm reset leaves. -/
theorem warmReset_facts (d : Dev) (src : Nat) (h : resettable d = true) :
    (warmReset d src).power.phase = .boot ∧ (warmReset d src).power.fail = .no ∧ (warmReset d src).power.lockLost = none
      ∧ (warmReset d src).lanes = [] ∧ (warmReset d src).axes = [] ∧ (warmReset d src).cells = [] ∧ (warmReset d src).lps = []
      ∧ (warmReset d src).sig = [] ∧ (warmReset d src).hostq = [] ∧ (warmReset d src).crossing = []
      ∧ (warmReset d src).power.kind = (startOf d .warm src).1 ∧ (warmReset d src).power.src = (startOf d .warm src).2 := by
  rw [show warmReset d src = warmEnd (blank (trCut (warmHold (bankSwap (installCut (trWarm (wearSave d)))) src)) warmKept) (startOf d .warm src) from if_neg (by simp [h])]
  generalize trCut (warmHold (bankSwap (installCut (trWarm (wearSave d)))) src) = y
  obtain ⟨b1, b2, b3, b4, b5, b6, b7, b8, b9, b10, b11, -⟩ := blank_facts y warmKept
  generalize blank y warmKept = z at *
  exact ⟨b1, b2, b3, b4, b5, b6, b7, b8, b10, b11, rfl, rfl⟩

end Sys2Proof.Machine
end

