-- ==== Sys2Proof/Laws/Start.lean ====
section
/-! SUPPORT. Resets, commits and starts: what the writer, a reset's blank, a commit and a cold start leave. -/

namespace Sys2Proof.Machine

/-! ### What the writer and the trace may change -/

/-- Nothing has changed from d to e but the recorder, the trace, the ring and MRAM, and registers of their two pages. -/
def Stored (d e : Dev) : Prop :=
  e = { d with regs := e.regs, db := e.db, tr := e.tr, ring := e.ring, mram := e.mram }
    ∧ ∀ a, (a < dbBase ∨ (dbBase + 0x1000 ≤ a ∧ a < trBase)) → rd e a = rd d a

theorem Stored.refl (d : Dev) : Stored d d := ⟨rfl, fun _ _ => rfl⟩
theorem Stored.trans {d e f : Dev} (h : Stored d e) (h' : Stored e f) : Stored d f := by
  refine ⟨?_, fun a ha => (h'.2 a ha).trans (h.2 a ha)⟩
  rw [h'.1, h.1]
theorem stored_recorded {d e : Dev} (h : Recorded d e) : Stored d e := by
  refine ⟨?_, fun a ha => recorded_rd h ha⟩
  rw [h.1]
theorem stored_wr (d : Dev) (a : Nat) (v : W32) (h : (dbBase ≤ a ∧ a < dbBase + 0x1000) ∨ trBase ≤ a) : Stored d (wr d a v) := by
  refine ⟨by unfold wr; rfl, fun b hb => rd_wr_ne d v ?_⟩
  have : dbBase + 0x1000 ≤ trBase := by decide
  omega
theorem stored_wr64 (d : Dev) (a v : Nat) (h : (dbBase ≤ a ∧ a + 4 < dbBase + 0x1000) ∨ trBase ≤ a) : Stored d (wr64 d a v) :=
  (stored_wr d a _ (by omega)).trans (stored_wr _ _ _ (by omega))
theorem stored_bump (d : Dev) (a : Nat) (h : (dbBase ≤ a ∧ a < dbBase + 0x1000) ∨ trBase ≤ a) : Stored d (bump d a) := stored_wr d a _ h
theorem stored_setDb (d : Dev) (b : Daybook) : Stored d (setDb d b) := stored_recorded (recorded_setDb d b)
theorem stored_tr (d : Dev) (t : Trace) : Stored d { d with tr := t } := ⟨rfl, fun a _ => rd_congr rfl a⟩
theorem stored_ring (d : Dev) (r : Tab W8) : Stored d { d with ring := r } := ⟨rfl, fun a _ => rd_congr rfl a⟩
theorem stored_foldl {β : Type} (f : Dev → β → Dev) (h : ∀ d x, Stored d (f d x)) (l : List β) : ∀ d, Stored d (l.foldl f d) := by
  induction l with
  | nil => intro d; exact Stored.refl d
  | cons x t ih => intro d; exact (h d x).trans (ih _)
theorem stored_report (d : Dev) (typ src : Nat) (pay : List W32) : Stored d (report d typ src pay) := stored_recorded (recorded_report _ _ _ _)

theorem stored_mram (d : Dev) (m : Tab W8) : Stored d { d with mram := m } := ⟨rfl, fun a _ => rd_congr rfl a⟩
theorem stored_runAppend (d : Dev) (b : DbBody) (q : Nat) (bs : List W8) : Stored d (runAppend d b q bs) := by
  unfold runAppend
  extract_lets p0 p kept tail d1 x2 d2 d3 d4
  have h1 : Stored d d1 := by
    dsimp only [d1]; unfold runBytes; exact stored_mram _ _
  have h2 : Stored d d2 := h1.trans (stored_setDb _ _)
  have h3 : Stored d d3 := ((h2.trans (stored_wr _ _ _ (Or.inl (by decide)))).trans (stored_wr _ _ _ (Or.inl (by decide)))).trans (stored_wr _ _ _ (Or.inl (by decide)))
  have h4 : Stored d d4 := h3.trans (stored_bump _ _ (Or.inl (by decide)))
  exact ite_prop (Stored d) (h4.trans (stored_bump _ _ (Or.inl (by decide)))) h4

theorem stored_clearHead (d : Dev) (g t h : Nat) : Stored d (wrN (wrN (wrN d DB_GEN g) DB_RUN_TAIL t) DB_RUN_HEAD h) :=
  ((stored_wr d DB_GEN _ (Or.inl (by decide))).trans (stored_wr _ DB_RUN_TAIL _ (Or.inl (by decide)))).trans (stored_wr _ DB_RUN_HEAD _ (Or.inl (by decide)))
theorem stored_clearArea (v : Vault) (d : Dev) (g k : Nat) (r : W32) (q : Nat) : Stored d (clearArea v d g k r q).2 := by
  unfold clearArea commitBody
  simp only
  generalize mput d.mram _ _ = m
  exact (((stored_mram d m).trans (stored_setDb _ _)).trans (stored_clearHead _ _ _ _)).trans (stored_runAppend _ _ _ _)
theorem stored_commitHead (v : Vault) (d : Dev) : Stored d (commitHead v d).2 := by
  unfold commitHead
  split
  · exact Stored.refl d
  · exact (stored_setDb d _).trans (stored_runAppend _ _ _ _)
  · exact (stored_setDb d _).trans (stored_clearArea _ _ _ _ _ _)

theorem stored_drain : ∀ (n : Nat) (v : Vault) (d : Dev), Stored d (drain n v d).2
  | 0, _, d => Stored.refl d
  | n + 1, v, d => (stored_commitHead v d).trans (stored_drain n _ _)

theorem stored_writerStart (v : Vault) (d : Dev) : Stored d (writerStart v d).2 := by
  unfold writerStart
  simp only
  exact ((((stored_setDb d _).trans (stored_wr _ _ _ (Or.inl (by decide)))).trans (stored_drain _ _ _)).trans (stored_setDb _ _)).trans
    (stored_foldl _ (fun d b => stored_recorded (recorded_stageReport d b)) _ _)

theorem stored_scanAreas (v : Vault) (d : Dev) : Stored d (scanAreas v d).2 := by
  unfold scanAreas
  simp only
  have h1 : ∀ l : List DbRec, Stored d (match l with
      | [] => d
      | bad :: _ => report (wrN (bump (setDb d { d.db with running := d.db.running.takeWhile recOk }) DB_BAD_CNT) DB_RUN_HEAD bad.off) 0x0F02 0x202
          [1, w32 bad.off, w32 (((d.db.running.takeWhile recOk).getLastD default).seq)]) := by
    intro l
    cases l with
    | nil => exact Stored.refl d
    | cons b t => exact (((stored_setDb d _).trans (stored_bump _ _ (Or.inl (by decide)))).trans (stored_wr _ _ _ (Or.inl (by decide)))).trans (stored_report _ _ _ _)
  split
  · exact h1 _
  · exact (h1 _).trans ((stored_bump _ _ (Or.inl (by decide))).trans (stored_report _ _ _ _))

theorem stored_trMakeRoom : ∀ (l : List TrPkt) (d : Dev) (n : Nat), Stored d (trMakeRoom d n l)
  | [], d, _ => Stored.refl d
  | p :: t, d, n => by
    unfold trMakeRoom
    split
    · exact Stored.refl d
    · split
      · exact stored_trMakeRoom t d n
      · exact ((stored_wr64 d _ _ (Or.inr (by decide))).trans (stored_bump _ _ (Or.inr (by decide)))).trans (stored_trMakeRoom t _ n)

theorem stored_trAppend (d : Dev) (bs : List W8) (n l b : Nat) : Stored d (trAppend d bs n l b) := by
  unfold trAppend ringPut
  simp only
  exact ((stored_ring d _).trans (stored_wr64 _ _ _ (Or.inr (by decide)))).trans (stored_tr _ _)

theorem stored_trWritePacket (d : Dev) (bs : List W8) (n l b : Nat) : Stored d (trWritePacket d bs n l b) := by
  unfold trWritePacket
  simp only
  generalize (if ringSize - rd64 d TR_WR_POS % ringSize < n then ringSize - rd64 d TR_WR_POS % ringSize else 0) = pad
  generalize hr : (if (d.tr.protect || rdBit d TR_CFG 1) = true then d else trMakeRoom d (pad + n) d.tr.pkts) = room
  have h : Stored d room := by
    rw [← hr]; split
    · exact Stored.refl d
    · exact stored_trMakeRoom _ _ _
  have h2 : ∀ x, Stored room x → Stored d (trAppend x bs n l b) := fun x hx => (h.trans hx).trans (stored_trAppend _ _ _ _ _)
  by_cases hc : rd64 room TR_WR_POS + pad + n - trR room ≤ ringSize
  · rw [if_pos hc]
    refine Stored.trans (h2 _ ?_) (stored_tr _ _)
    by_cases hp : pad = 0
    · rw [if_pos hp]; exact Stored.refl _
    · rw [if_neg hp]; exact stored_trAppend _ _ _ _ _
  · rw [if_neg hc]
    exact h.trans ((stored_bump _ _ (Or.inr (by decide))).trans (stored_tr _ _))

theorem trLstSeq_ge (l : Nat) : trBase ≤ TR_LST_SEQ l := by unfold TR_LST_SEQ; omega

theorem stored_trClose (d : Dev) (l : Nat) : Stored d (trClose d l) := by
  unfold trClose
  split
  · exact Stored.refl d
  · simp only
    exact ((stored_bump d _ (Or.inr (trLstSeq_ge l))).trans (stored_tr _ _)).trans (stored_trWritePacket _ _ _ _ _)

theorem stored_trEndFreeze (d : Dev) : Stored d (trEndFreeze d) := by
  unfold trEndFreeze trCloseAll
  simp only
  exact ((stored_foldl _ stored_trClose _ d).trans (stored_wr64 _ _ _ (Or.inr (by decide)))).trans (stored_tr _ _)

theorem stored_trWarm (d : Dev) : Stored d (trWarm d) := by
  unfold trWarm
  split
  · exact (stored_recorded (recorded_trBeginFreeze _ _ _ _ _)).trans (stored_trEndFreeze _)
  · exact stored_trEndFreeze d
  · exact Stored.refl d

/-! ### Resets -/

theorem tget_filter {α : Type} (f : Nat → Bool) (x : α) (t : Tab α) (n : Nat) : tget x (t.filter (fun p => f p.1)) n = if f n then tget x t n else x := by
  unfold tget
  rw [tfind_filter]
  split <;> rfl

/-- Nothing has changed but registers, and none of those named. -/
def RegsBut (keep : Nat → Prop) (d e : Dev) : Prop := (∃ r, e = { d with regs := r }) ∧ ∀ a, keep a → rd e a = rd d a
theorem RegsBut.refl (k : Nat → Prop) (d : Dev) : RegsBut k d d := ⟨⟨d.regs, rfl⟩, fun _ _ => rfl⟩
theorem RegsBut.trans {k : Nat → Prop} {d e f : Dev} (h : RegsBut k d e) (g : RegsBut k e f) : RegsBut k d f := by
  obtain ⟨⟨r, h1⟩, h2⟩ := h
  obtain ⟨⟨q, g1⟩, g2⟩ := g
  exact ⟨⟨q, by rw [g1, h1]⟩, fun a ha => (g2 a ha).trans (h2 a ha)⟩
theorem regsBut_wr {k : Nat → Prop} (d : Dev) {a : Nat} (v : W32) (h : ∀ b, k b → b ≠ a) : RegsBut k d (wr d a v) :=
  ⟨⟨(wr d a v).regs, by unfold wr; rfl⟩, fun b hb => rd_wr_ne _ _ (h b hb)⟩
theorem regsBut_foldl {β : Type} {k : Nat → Prop} (f : Dev → β → Dev) (h : ∀ d x, RegsBut k d (f d x)) (l : List β) : ∀ d, RegsBut k d (l.foldl f d) := by
  induction l with
  | nil => exact RegsBut.refl k
  | cons x l ih => intro d; exact (h d x).trans (ih _)
/-- A reset's part in the banks reaches their pages only. -/
theorem banksReset_kept (old d : Dev) : RegsBut (fun a => a < mbBase 0) d (banksReset old d) :=
  regsBut_foldl _ (fun d b => (regsBut_wr d _ (fun a ha => by unfold MB_PWR mbBase at *; omega)).trans (regsBut_wr _ _ (fun a ha => by unfold MB_STAT mbBase at *; omega))) _ _

theorem setPow_eq (d : Dev) (p : Power) : setPow d p = { d with power := p } := rfl
theorem rd64_setPow (d : Dev) (p : Power) (a : Nat) : rd64 (setPow d p) a = rd64 d a := by unfold rd64; rw [rd_setPow, rd_setPow]

/-- What a reset's blank leaves. -/
theorem reset_blank_facts (d : Dev) (keep : Nat → Bool) :
    ((blank d keep).lanes = [] ∧ (blank d keep).axes = [] ∧ (blank d keep).cells = [] ∧ (blank d keep).lps = [] ∧ (blank d keep).pls = []
      ∧ (blank d keep).cxs = [] ∧ (blank d keep).eths = [] ∧ (blank d keep).sig = [] ∧ (blank d keep).attr = [])
    ∧ ((blank d keep).sf = d.sf ∧ (blank d keep).encs = d.encs ∧ (blank d keep).oh = d.oh ∧ (blank d keep).mram = d.mram)
    ∧ (blank d keep).jn = { d.jn with draining := none, due := false, shadow := none }
    ∧ (blank d keep).role = (if pairEn d then .syncing else .solo)
    ∧ (blank d keep).power = { d.power with phase := .boot, heldPending := [], vinLow := false, lockLost := none, firstC2 := false, fail := .no }
    ∧ ∀ a, a < dbBase → rd (blank d keep) a = if keep a then rd d a else resetOf a := by
  obtain ⟨y, hb, y1, y2, y3, y4, y5, y6⟩ : ∃ y : Dev, blank d keep = setPow (banksReset d (tkReset (traceOnly y))) { (banksReset d (tkReset (traceOnly y))).power with phase := .boot, heldPending := [], vinLow := false, lockLost := none, firstC2 := false, fail := .no }
      ∧ (y.lanes = [] ∧ y.axes = [] ∧ y.cells = [] ∧ y.lps = [] ∧ y.pls = [] ∧ y.cxs = [] ∧ y.eths = [] ∧ y.sig = [] ∧ y.attr = [])
      ∧ (y.sf = d.sf ∧ y.encs = d.encs ∧ y.oh = d.oh ∧ y.mram = d.mram)
      ∧ y.jn = { d.jn with draining := none, due := false, shadow := none } ∧ y.role = (if pairEn d then .syncing else .solo) ∧ y.power = d.power
      ∧ y.regs = d.regs.filter (fun p => keep p.1) :=
    ⟨_, rfl, ⟨rfl, rfl, rfl, rfl, rfl, rfl, rfl, rfl, rfl⟩, ⟨rfl, rfl, rfl, rfl⟩, rfl, rfl, rfl, rfl⟩
  obtain ⟨z, hz⟩ : ∃ z, z = tkReset (traceOnly y) := ⟨_, rfl⟩
  have z1 : ∃ r k, z = { y with regs := r, tk := k } := by
    rw [hz]; unfold tkReset traceOnly setTk wrN wr; exact ⟨_, _, rfl⟩
  have z2 : ∀ a, a < dbBase → rd z a = if keep a then rd d a else resetOf a := by
    intro a ha
    have h1 : rd z a = rd (traceOnly y) a := by rw [hz]; exact rd_congr rfl a
    have hlt : dbBase < TB_STAT := by decide
    have h2 : rd (traceOnly y) a = rd y a := rd_wrN_ne _ _ (by omega)
    rw [h1, h2]
    unfold rd; rw [y6, tget_filter]
  rw [← hz] at hb
  obtain ⟨⟨r', b1⟩, b2⟩ := banksReset_kept d z
  generalize banksReset d z = w at *
  obtain ⟨r, k, z1⟩ := z1
  have w1 : ∃ r k, w = { y with regs := r, tk := k } := ⟨_, _, by rw [b1, z1]⟩
  obtain ⟨r, k, w1⟩ := w1
  rw [hb]
  refine ⟨?_, ?_, ?_, ?_, ?_, fun a ha => ?_⟩
  · rw [w1]; exact y1
  · rw [w1]; exact y2
  · rw [w1]; exact y3
  · rw [w1]; exact y4
  · rw [setPow_eq, w1]; show { y.power with phase := Phase.boot, heldPending := [], vinLow := false, lockLost := none, firstC2 := false, fail := Failing.no } = _; rw [y5]
  · have hlt : dbBase < mbBase 0 := by decide
    exact (rd_congr rfl a).trans ((b2 a (by omega)).trans (z2 a ha))

/-- What comes before a reset's blank keeps the safety channels, the counters of the encoders, the journal and every register but a few. -/
def Closed (d e : Dev) : Prop :=
  e.sf = d.sf ∧ e.encs = d.encs ∧ e.jn = d.jn ∧ ∀ a, a < dbBase → a ≠ PWR_INST_RES → a ≠ OH_EXP_CNT → rd e a = rd d a
theorem Closed.refl (d : Dev) : Closed d d := ⟨rfl, rfl, rfl, fun _ _ _ _ => rfl⟩
theorem Closed.trans {d e f : Dev} (h : Closed d e) (h' : Closed e f) : Closed d f :=
  ⟨h'.1.trans h.1, h'.2.1.trans h.2.1, h'.2.2.1.trans h.2.2.1, fun a h1 h2 h3 => (h'.2.2.2 a h1 h2 h3).trans (h.2.2.2 a h1 h2 h3)⟩
theorem closed_stored {d e : Dev} (h : Stored d e) : Closed d e :=
  ⟨by rw [h.1], by rw [h.1], by rw [h.1], fun a ha _ _ => h.2 a (Or.inl ha)⟩

theorem installCut_facts (d : Dev) : Closed d (installCut d) ∧ (installCut d).power.phase = d.power.phase ∧ (installCut d).oh = d.oh ∧ (installCut d).mram = d.mram := by
  unfold installCut
  obtain ⟨x, hx⟩ : ∃ x, x = wrN d PWR_INST_RES (4 * b2n d.power.installing) := ⟨_, rfl⟩
  simp only
  rw [← hx]
  have h1 : x = { d with regs := x.regs } := by rw [hx]; unfold wrN wr; rfl
  have h2 : ∀ a, a ≠ PWR_INST_RES → rd x a = rd d a := by intro a ha; rw [hx, rd_wrN_ne _ _ ha]
  have hc : Closed d x := ⟨by rw [h1], by rw [h1], by rw [h1], fun a _ h _ => h2 a h⟩
  by_cases hi : x.power.installing = true
  · rw [if_pos hi]
    refine ⟨⟨hc.1, hc.2.1, hc.2.2.1, fun a _ h _ => (rd_setPow _ _ _).trans (h2 a h)⟩, ?_, ?_, ?_⟩
    · show x.power.phase = _; rw [h1]
    · show x.oh = _; rw [h1]
    · show x.mram = _; rw [h1]
  · rw [if_neg hi]
    exact ⟨hc, by rw [h1], by rw [h1], by rw [h1]⟩

theorem bankSwap_facts (d : Dev) : Closed d (bankSwap d) ∧ (bankSwap d).power.phase = d.power.phase ∧ (bankSwap d).oh = d.oh ∧ (bankSwap d).mram = d.mram := by
  unfold bankSwap
  split
  · exact ⟨⟨rfl, rfl, rfl, fun a _ _ _ => rd_setPow _ _ _⟩, rfl, rfl, rfl⟩
  · exact ⟨Closed.refl d, rfl, rfl, rfl⟩

theorem bankSwap_cut (d : Dev) : (bankSwap (installCut d)).power.lockLost = d.power.lockLost ∧ (bankSwap (installCut d)).power.fail = d.power.fail := by
  have h : (installCut d).power.lockLost = d.power.lockLost ∧ (installCut d).power.fail = d.power.fail := by
    unfold installCut
    simp only
    split
    · exact ⟨rfl, rfl⟩
    · unfold wrN; rw [wr_power]; exact ⟨rfl, rfl⟩
  unfold bankSwap
  split
  · exact h
  · exact h
theorem holdStart_facts (d : Dev) (src : Nat) : Closed d (holdStart d src) ∧ (holdStart d src).power = d.power
    ∧ (holdTime d ≠ 0 → (holdStart d src).oh.holding = true ∧ (holdStart d src).oh.expired = false ∧ (holdStart d src).oh.src = src) := by
  unfold holdStart
  simp only
  obtain ⟨x, hx⟩ : ∃ x, x = { d with oh := { heldOuts d d.oh with holding := true, expired := false, src := src, aoSafe := (safeOuts d d.oh).ao, dioSafe := (safeOuts d d.oh).dio } } := ⟨_, rfl⟩
  rw [← hx]
  have hr : ∀ a, rd x a = rd d a := by intro a; rw [hx]; exact rd_congr rfl a
  have hc : Closed d x := ⟨by rw [hx], by rw [hx], by rw [hx], fun a _ _ _ => hr a⟩
  have ht : holdTime x = holdTime d := by unfold holdTime; rw [hr]
  rw [ht]
  by_cases h0 : holdTime d = 0
  · rw [if_pos h0]
    unfold holdExpire
    simp only
    obtain ⟨y, hy⟩ : ∃ y, y = bump { x with oh := { x.oh with holding := false, expired := true, ao := x.oh.aoSafe, dio := x.oh.dioSafe } } OH_EXP_CNT := ⟨_, rfl⟩
    rw [← hy]
    have hcy : Closed x y := ⟨by rw [hy, bump_sf], by rw [hy, bump_encs], by rw [hy, bump_jn], fun a _ _ h => by rw [hy, rd_bump_ne _ h]; exact rd_congr rfl a⟩
    have hs := stored_report y 0x0007 299 [w32 (holdTime y), w32 y.oh.src]
    have hpy : y.power = d.power := by rw [hy, bump_power, hx]
    rw [show holdTime _ = holdTime y from by rw [hy]; unfold holdTime bump; rw [rd_wr_ne _ _ (by decide)]]
    rw [show OutHold.src _ = y.oh.src from by rw [hy, bump_oh]]
    exact ⟨hc.trans (hcy.trans (closed_stored hs)), by rw [hs.1]; exact hpy, fun h => absurd h0 h⟩
  · rw [if_neg h0]
    exact ⟨hc, by rw [hx], fun _ => by rw [hx]; exact ⟨rfl, rfl, rfl⟩⟩

theorem wearSave_eq (d : Dev) : wearSave d = { d with mram := (wearSave d).mram } := by
  have key : ∀ (l : List Nat) (e : Dev), ∃ m, l.foldl wearPut e = { e with mram := m } := by
    intro l
    induction l with
    | nil => intro e; exact ⟨e.mram, rfl⟩
    | cons x t ih => intro e; obtain ⟨m, h⟩ := ih (wearPut e x); exact ⟨m, h.trans rfl⟩
  obtain ⟨m, h⟩ := key (tkeys d.wear) d
  unfold wearSave
  rw [h]
theorem wearSave_facts (d : Dev) : Closed d (wearSave d) ∧ (wearSave d).power = d.power ∧ (wearSave d).oh = d.oh := by
  rw [wearSave_eq d]
  exact ⟨⟨rfl, rfl, rfl, fun a _ _ _ => rd_congr rfl a⟩, rfl, rfl⟩

/-- What the cut of the trace leaves alone. -/
theorem trCut_facts (d : Dev) : (trCut d).sf = d.sf ∧ (trCut d).encs = d.encs ∧ (trCut d).jn = d.jn ∧ (trCut d).oh = d.oh ∧ (trCut d).regs = d.regs := ⟨rfl, rfl, rfl, rfl, rfl⟩
/-- What the end of a warm reset changes. -/
theorem warmEnd_facts (d : Dev) (k : StartKind × Nat) : (warmEnd d k).power = { d.power with kind := k.1, src := k.2 } ∧ (warmEnd d k).sf = { d.sf with unlocked := false }
    ∧ (warmEnd d k).encs = d.encs ∧ (warmEnd d k).jn = d.jn ∧ (warmEnd d k).role = d.role ∧ (warmEnd d k).regs = d.regs ∧ (warmEnd d k).oh = d.oh
    ∧ ((warmEnd d k).lanes = d.lanes ∧ (warmEnd d k).axes = d.axes ∧ (warmEnd d k).cells = d.cells ∧ (warmEnd d k).lps = d.lps ∧ (warmEnd d k).pls = d.pls
      ∧ (warmEnd d k).cxs = d.cxs ∧ (warmEnd d k).eths = d.eths ∧ (warmEnd d k).sig = d.sig ∧ (warmEnd d k).attr = d.attr) :=
  ⟨rfl, rfl, rfl, rfl, rfl, rfl, rfl, rfl, rfl, rfl, rfl, rfl, rfl, rfl, rfl, rfl⟩
theorem warmReset_eq (d : Dev) (src : Nat) (h : resettable d = true) :
    warmReset d src = warmEnd (blank (trCut (warmHold (bankSwap (installCut (trWarm (wearSave d)))) src)) warmKept) (startOf d .warm src) :=
  if_neg (by rw [h]; simp)

/-- A warm reset: what it resets, what it keeps, and the start it begins. -/
theorem warmReset_all (d : Dev) (src : Nat) (h : resettable d = true) :
    ((warmReset d src).power.phase = .boot ∧ (warmReset d src).power.fail = .no ∧ (warmReset d src).power.heldPending = []
      ∧ (warmReset d src).power.kind = (startOf d .warm src).1 ∧ (warmReset d src).power.src = (startOf d .warm src).2)
    ∧ ((warmReset d src).lanes = [] ∧ (warmReset d src).axes = [] ∧ (warmReset d src).cells = [] ∧ (warmReset d src).lps = [] ∧ (warmReset d src).pls = []
      ∧ (warmReset d src).cxs = [] ∧ (warmReset d src).eths = [] ∧ (warmReset d src).sig = [] ∧ (warmReset d src).attr = [])
    ∧ (warmReset d src).sf = { d.sf with unlocked := false } ∧ (warmReset d src).encs = d.encs
    ∧ (warmReset d src).jn = { d.jn with draining := none, due := false, shadow := none } ∧ (warmReset d src).role = (if pairEn d then .syncing else .solo)
    ∧ (∀ a, a < dbBase → a ≠ PWR_INST_RES → a ≠ OH_EXP_CNT → rd (warmReset d src) a = if warmKept a then rd d a else resetOf a)
    ∧ ((src ≠ 3 ∧ d.power.lockLost = none ∧ d.oh.holding = false ∧ d.power.phase ≠ .boot ∧ ¬(d.power.phase = .on ∧ (d.power.fail = .draining ∨ d.power.fail = .done))
          ∧ holdTime d ≠ 0) → (warmReset d src).oh.holding = true ∧ (warmReset d src).oh.expired = false ∧ (warmReset d src).oh.src = src) := by
  rw [warmReset_eq d src h]
  have e1 := wearSave_facts d
  have s1 : Stored (wearSave d) (trWarm (wearSave d)) := stored_trWarm _
  generalize trWarm (wearSave d) = p1 at s1 ⊢
  have c1 : Closed d p1 := e1.1.trans (closed_stored s1)
  have q1 : p1.power = d.power ∧ p1.oh = d.oh := by
    obtain ⟨s1, -⟩ := s1
    rw [s1]; exact ⟨e1.2.1, e1.2.2⟩
  clear s1 e1
  obtain ⟨i1, i2, i3, -⟩ := installCut_facts p1
  obtain ⟨b1, b2, b3, -⟩ := bankSwap_facts (installCut p1)
  have l2 := bankSwap_cut p1
  generalize bankSwap (installCut p1) = p2 at b1 b2 b3 l2 ⊢
  have c2 : Closed d p2 := c1.trans (i1.trans b1)
  have q2 : p2.power.phase = d.power.phase ∧ p2.oh = d.oh := ⟨b2.trans (i2.trans (by rw [q1.1])), b3.trans (i3.trans q1.2)⟩
  rw [q1.1] at l2
  obtain ⟨g1, g2, g3⟩ := holdStart_facts p2 src
  have c3 : Closed d (warmHold p2 src) := ite_prop (Closed d) c2 (c2.trans g1)
  have h3 : ¬outputsGone p2 src = true → (warmHold p2 src).oh = (holdStart p2 src).oh := fun hn => by unfold warmHold; rw [if_neg hn]
  generalize warmHold p2 src = p3 at c3 h3 ⊢
  obtain ⟨k1, k2, k3, k4, k5⟩ := trCut_facts p3
  generalize trCut p3 = p4 at k1 k2 k3 k4 k5 ⊢
  have c4 : Closed d p4 := c3.trans ⟨k1, k2, k3, fun a _ _ _ => rd_congr k5 a⟩
  obtain ⟨f1, f2, f3, f4, f5, f6⟩ := reset_blank_facts p4 warmKept
  generalize blank p4 warmKept = y at f1 f2 f3 f4 f5 f6 ⊢
  have hpe : pairEn p4 = pairEn d := by unfold pairEn rdBit; rw [c4.2.2.2 _ (by decide) (by decide) (by decide)]
  obtain ⟨m1, m2, m3, m4, m5, m6, m7, m8⟩ := warmEnd_facts y (startOf d .warm src)
  generalize warmEnd y (startOf d .warm src) = z at m1 m2 m3 m4 m5 m6 m7 m8 ⊢
  refine ⟨?_, ?_, ?_, ?_, ?_, ?_, fun a h1 h2 h3 => ?_, fun hh => ?_⟩
  · rw [m1, f5]; exact ⟨rfl, rfl, rfl, rfl, rfl⟩
  · obtain ⟨l1, l2, l3, l4, l5, l6, l7, l8, l9⟩ := m8
    obtain ⟨t1, t2, t3, t4, t5, t6, t7, t8, t9⟩ := f1
    exact ⟨l1.trans t1, l2.trans t2, l3.trans t3, l4.trans t4, l5.trans t5, l6.trans t6, l7.trans t7, l8.trans t8, l9.trans t9⟩
  · rw [m2, f2.1, c4.1]
  · exact m3.trans (f2.2.1.trans c4.2.1)
  · rw [m4, f3, c4.2.2.1]
  · rw [m5, f4, hpe]
  · rw [rd_congr m6, f6 a h1, c4.2.2.2 a h1 h2 h3]
  · obtain ⟨n1, n2, n3, n4, n5, n6⟩ := hh
    have ht : holdTime p2 = holdTime d := by unfold holdTime; rw [c2.2.2.2 _ (by decide) (by decide) (by decide)]
    have hg := g3 (by rw [ht]; exact n6)
    have ho : ¬outputsGone p2 src = true := by
      unfold outputsGone
      rw [l2.1, l2.2, q2.1, q2.2, n2, n3]
      simp only [Option.isSome_none, Bool.or_false, Bool.or_eq_true, beq_iff_eq, Bool.and_eq_true]
      rintro ((h | h) | ⟨h, h'⟩)
      · exact n1 h
      · exact n4 h
      · exact n5 ⟨h, h'⟩
    rw [m7, f2.2.2.1, k4, h3 ho]
    exact hg

/-- The pages below and above the health page. -/
def offHlth (a : Nat) : Prop := a < hlthBase ∨ hlthBase + 0x1000 ≤ a
theorem offHlth_over (i a : Nat) (hi : i < 14) (h : offHlth a) : a ≠ HLTH_WL_OVER i := by unfold HLTH_WL_OVER; unfold offHlth at h; omega
theorem overClear_kept (d : Dev) : RegsBut offHlth d (overClear d) := by
  have : ∀ (l : List Nat), (∀ i ∈ l, i < 14) → ∀ e, RegsBut offHlth e (l.foldl (fun d i => wrN d (HLTH_WL_OVER i) 0) e) := by
    intro l
    induction l with
    | nil => intro _ e; exact RegsBut.refl _ e
    | cons x t ih => intro hl e; exact (regsBut_wr e _ (fun a ha => offHlth_over x a (hl x (by simp)) ha)).trans (ih (fun y hy => hl y (by simp [hy])) _)
  exact this _ (fun i hi => List.mem_range.mp hi) _
theorem wearHeld_lt (d : Dev) : ∀ e ∈ wearHeld d, e < 448 := by
  intro e he
  unfold wearHeld at he
  obtain ⟨p, hp, rfl⟩ := List.mem_map.mp he
  have := (List.mem_filter.mp hp).2
  simp only [Bool.and_eq_true, decide_eq_true_eq] at this
  omega
theorem wearBack_facts (d : Dev) (e : Nat) (he : e < 448) : (∃ r w, wearBack d e = { d with regs := r, wear := w }) ∧ ∀ a, offHlth a → rd (wearBack d e) a = rd d a := by
  unfold wearBack
  generalize wearStored d e = x
  unfold setOver
  refine ⟨⟨_, _, rfl⟩, fun a ha => ?_⟩
  rw [rd_wrBit_ne _ _ _ (offHlth_over (e / 32) a (by omega) ha)]; exact rd_congr rfl a
/-- The ledger as MRAM holds it: the entries and their OVER bits. -/
theorem wearLoad_facts (d : Dev) : (∃ r w, wearLoad d = { d with regs := r, wear := w }) ∧ ∀ a, offHlth a → rd (wearLoad d) a = rd d a := by
  have hb := wearHeld_lt d
  unfold wearLoad
  generalize wearHeld d = es at hb ⊢
  obtain ⟨⟨r1, h5⟩, h6⟩ := overClear_kept { d with wear := [] }
  generalize overClear { d with wear := [] } = x at h5 h6 ⊢
  have h2 : ∀ (l : List Nat), (∀ i ∈ l, i < 448) → ∀ e : Dev, (∃ r w, l.foldl wearBack e = { e with regs := r, wear := w }) ∧ ∀ a, offHlth a → rd (l.foldl wearBack e) a = rd e a := by
    intro l
    induction l with
    | nil => intro _ e; exact ⟨⟨e.regs, e.wear, rfl⟩, fun _ _ => rfl⟩
    | cons i t ih =>
      intro hl e
      rw [List.foldl_cons]
      obtain ⟨⟨r, w, h1⟩, h2⟩ := wearBack_facts e i (hl i (by simp))
      generalize wearBack e i = y at h1 h2 ⊢
      obtain ⟨⟨r', w', h3⟩, h4⟩ := ih (fun y hy => hl y (by simp [hy])) y
      exact ⟨⟨r', w', by rw [h3, h1]⟩, fun a ha => (h4 a ha).trans (h2 a ha)⟩
  obtain ⟨⟨r, w, h3⟩, h4⟩ := h2 es hb x
  refine ⟨⟨r, w, ?_⟩, fun a ha => (h4 a ha).trans ((h6 a ha).trans (rd_congr rfl a))⟩
  rw [h3, h5]

/-- What a cold reset and a loss of power reach beside the blank. -/
theorem wipe_facts (d : Dev) : ((wipe d).lanes = d.lanes ∧ (wipe d).axes = d.axes ∧ (wipe d).cells = d.cells ∧ (wipe d).lps = d.lps ∧ (wipe d).pls = d.pls ∧ (wipe d).cxs = d.cxs
      ∧ (wipe d).eths = d.eths ∧ (wipe d).sig = d.sig ∧ (wipe d).attr = d.attr)
    ∧ ((wipe d).stps = [] ∧ (wipe d).encs = [] ∧ (wipe d).sram = [] ∧ (wipe d).ring = []) ∧ (wipe d).sf = sfStored d.sf ∧ (wipe d).jn = d.jn ∧ (wipe d).role = d.role
    ∧ (wipe d).power = d.power ∧ ∀ a, a < mbBase 0 → offHlth a → rd (wipe d) a = rd d a := by
  obtain ⟨⟨r1, h1⟩, h2⟩ := banksReset_kept { d with regs := [] } d
  unfold wipe
  generalize banksReset { d with regs := [] } d = x at *
  obtain ⟨⟨r, w, h3⟩, h4⟩ := wearLoad_facts x
  generalize wearLoad x = y at *
  have h5 : y = { d with regs := r, wear := w } := by rw [h3, h1]
  clear h1 h3
  subst h5
  exact ⟨⟨rfl, rfl, rfl, rfl, rfl, rfl, rfl, rfl, rfl⟩, ⟨rfl, rfl, rfl, rfl⟩, rfl, rfl, rfl, rfl, fun a ha hb => (rd_congr rfl a).trans ((h4 a hb).trans (h2 a ha))⟩

/-- A cold reset: everything but MRAM and the keep-alive domain. -/
theorem coldReset_all (d : Dev) (src : Nat) (h : resettable d = true) :
    ((coldReset d src).power.phase = .boot ∧ (coldReset d src).power.fail = .no ∧ (coldReset d src).power.kind = .cold ∧ (coldReset d src).power.src = src)
    ∧ ((coldReset d src).lanes = [] ∧ (coldReset d src).axes = [] ∧ (coldReset d src).cells = [] ∧ (coldReset d src).lps = [] ∧ (coldReset d src).pls = []
      ∧ (coldReset d src).cxs = [] ∧ (coldReset d src).eths = [] ∧ (coldReset d src).sig = [] ∧ (coldReset d src).attr = [])
    ∧ ((coldReset d src).stps = [] ∧ (coldReset d src).encs = [] ∧ (coldReset d src).sram = [] ∧ (coldReset d src).ring = [])
    ∧ (coldReset d src).sf = sfStored d.sf ∧ (coldReset d src).jn = { d.jn with draining := none, due := false, shadow := none }
    ∧ (coldReset d src).role = (if pairEn d then .syncing else .solo) ∧ (coldReset d src).oh.holding = false ∧ (coldReset d src).oh.src = src
    ∧ ∀ a, a < dbBase → offHlth a → a ≠ PWR_INST_RES → a ≠ OH_EXP_CNT → rd (coldReset d src) a = if coldKept a then rd d a else resetOf a := by
  unfold coldReset
  rw [if_neg (by rw [h]; simp)]
  simp only
  obtain ⟨i1, -, -, -⟩ := installCut_facts d
  obtain ⟨b1, -, -, -⟩ := bankSwap_facts (installCut d)
  generalize bankSwap (installCut d) = p at *
  have c : Closed d p := i1.trans b1
  obtain ⟨f1, f2, f3, f4, f5, f6⟩ := reset_blank_facts p coldKept
  have hpe : pairEn p = pairEn d := by unfold pairEn rdBit; rw [c.2.2.2 _ (by decide) (by decide) (by decide)]
  generalize blank p coldKept = y at *
  have ho : ({ safeOuts p oh0 with src := src } : OutHold).holding = false := rfl
  generalize hoh : ({ safeOuts p oh0 with src := src } : OutHold) = o at *
  have hos : o.src = src := by rw [← hoh]
  obtain ⟨w1, w2, w3, w4, w5, w6, w7⟩ := wipe_facts y
  generalize wipe y = w at *
  refine ⟨?_, ?_, w2, ?_, ?_, ?_, ho, hos, fun a h1 h0 h2 h3 => ?_⟩
  · show w.power.phase = _ ∧ w.power.fail = _ ∧ _ ∧ _
    rw [w6, f5]; exact ⟨rfl, rfl, rfl, rfl⟩
  · obtain ⟨l1, l2, l3, l4, l5, l6, l7, l8, l9⟩ := w1
    exact ⟨l1.trans f1.1, l2.trans f1.2.1, l3.trans f1.2.2.1, l4.trans f1.2.2.2.1, l5.trans f1.2.2.2.2.1, l6.trans f1.2.2.2.2.2.1, l7.trans f1.2.2.2.2.2.2.1,
      l8.trans f1.2.2.2.2.2.2.2.1, l9.trans f1.2.2.2.2.2.2.2.2⟩
  · show w.sf = _; rw [w3, f2.1, c.1]
  · show w.jn = _; rw [w4, f3, c.2.2.1]
  · show w.role = _; rw [w5, f4, hpe]
  · have hlt : dbBase < mbBase 0 := by decide
    refine (rd_congr (e := w) rfl a).trans ?_
    rw [w7 a (by omega) h0, f6 a h1, c.2.2.2 a h1 h2 h3]

/-! ### Commits -/

theorem w32_toNat_mod (n : Nat) : (w32 n).toNat = n % 2 ^ 32 := by unfold w32; simp
theorem w32_toNat (n : Nat) (h : n < 2 ^ 32) : (w32 n).toNat = n := by rw [w32_toNat_mod]; exact Nat.mod_eq_of_lt h
theorem rd64_wr64 (d : Dev) (a v : Nat) : rd64 (wr64 d a v) a = v % 2 ^ 64 := by
  rw [rd64_wr64_same]; unfold mk64 lo64 hi64; rw [w32_toNat_mod, w32_toNat_mod]; omega
theorem rd64_wrN_ne (d : Dev) {a b : Nat} (v : Nat) (h : b ≠ a) (h2 : b + 4 ≠ a) : rd64 (wrN d a v) b = rd64 d b := by
  unfold rd64; rw [rd_wrN_ne _ _ h, rd_wrN_ne _ _ h2]

/-- A commit's record: its number, and what the Strongbox page shows. -/
theorem commitDone_facts (d : Dev) (c : Commit) :
    (commitDone d c).jn.draining = none ∧ (commitDone d c).jn.top = c.number ∧ (commitDone d c).jn.starts = 0
      ∧ (∃ n, (commitDone d c).jn.commits.head? = some { c with rows := n })
      ∧ rd64 (commitDone d c) SB_NUMBER = c.number % 2 ^ 64 ∧ rd64 (commitDone d c) SB_BOUNDARY = c.boundary % 2 ^ 64
      ∧ rd64 (commitDone d c) SB_DIGEST = c.digest % 2 ^ 64 ∧ (commitDone d c).sig = d.sig
      ∧ (∃ n, (commitDone d c).jn.commits = { c with rows := n } :: (if c.baseline then [] else d.jn.commits.take 1))
      ∧ (commitDone d c).role = d.role ∧ (∀ a, (a < SB_NUMBER ∨ SB_SKIP_CNT ≤ a) → rd (commitDone d c) a = rd d a)
      ∧ (commitDone d c).power = d.power ∧ (commitDone d c).jn.cold = d.jn.cold ∧ (commitDone d c).tw = d.tw := by
  obtain ⟨x, n, u, hx, x1, x2, x3, x4, x5, x6, x7, x8⟩ : ∃ (x : Dev) (n u : Nat), commitDone d c = wrN (wrN (wr64 (wr64 (wr64 x SB_NUMBER c.number) SB_BOUNDARY c.boundary) SB_DIGEST c.digest) SB_ROWS n) SB_DRAIN_US u
      ∧ x.regs = d.regs ∧ x.sig = d.sig ∧ x.role = d.role ∧ x.power = d.power ∧ x.tw = d.tw
      ∧ x.jn.commits = { c with rows := n } :: (if c.baseline then [] else d.jn.commits.take 1)
      ∧ (x.jn.draining = none ∧ x.jn.starts = 0 ∧ x.jn.top = c.number) ∧ x.jn.cold = d.jn.cold :=
    ⟨_, _, _, rfl, rfl, rfl, rfl, rfl, rfl, rfl, ⟨rfl, rfl, rfl⟩, rfl⟩
  rw [hx]
  have hj : (wrN (wrN (wr64 (wr64 (wr64 x SB_NUMBER c.number) SB_BOUNDARY c.boundary) SB_DIGEST c.digest) SB_ROWS n) SB_DRAIN_US u).jn = x.jn := by unfold wrN; rw [wr_jn, wr_jn, wr64_jn, wr64_jn, wr64_jn]
  have n1 : ∀ (e : Dev) (v w a : Nat), a ≠ SB_ROWS → a ≠ SB_DRAIN_US → rd (wrN (wrN e SB_ROWS v) SB_DRAIN_US w) a = rd e a := fun e v w a h1 h2 => by rw [rd_wrN_ne _ _ h2, rd_wrN_ne _ _ h1]
  rw [hj]
  refine ⟨x7.1, x7.2.2, x7.2.1, ⟨n, by rw [x6]; rfl⟩, ?_, ?_, ?_, ?_, ⟨n, x6⟩, ?_, fun a ha => ?_, ?_, x8, ?_⟩
  · rw [rd64_wrN_ne _ _ (by decide) (by decide), rd64_wrN_ne _ _ (by decide) (by decide), rd64_wr64_ne _ _ (by decide), rd64_wr64_ne _ _ (by decide)]
    exact rd64_wr64 _ _ _
  · rw [rd64_wrN_ne _ _ (by decide) (by decide), rd64_wrN_ne _ _ (by decide) (by decide), rd64_wr64_ne _ _ (by decide)]
    exact rd64_wr64 _ _ _
  · rw [rd64_wrN_ne _ _ (by decide) (by decide), rd64_wrN_ne _ _ (by decide) (by decide)]
    exact rd64_wr64 _ _ _
  · unfold wrN; rw [wr_sig, wr_sig, wr64_sig, wr64_sig, wr64_sig, x2]
  · unfold wrN; rw [wr_role, wr_role, wr64_role, wr64_role, wr64_role, x3]
  · have e0 : a ≠ SB_NUMBER ∧ a ≠ SB_NUMBER + 4 ∧ a ≠ SB_BOUNDARY ∧ a ≠ SB_BOUNDARY + 4 ∧ a ≠ SB_DIGEST ∧ a ≠ SB_DIGEST + 4 ∧ a ≠ SB_ROWS ∧ a ≠ SB_DRAIN_US := by
      unfold SB_NUMBER SB_SKIP_CNT SB_BOUNDARY SB_DIGEST SB_ROWS SB_DRAIN_US sbBase at *; omega
    obtain ⟨e1, e2, e3, e4, e5, e6, e7, e8⟩ := e0
    rw [n1 _ _ _ _ e7 e8, rd_wr64_ne _ _ e5 e6, rd_wr64_ne _ _ e3 e4, rd_wr64_ne _ _ e1 e2, rd_congr x1]
  · unfold wrN; rw [wr_power, wr_power, wr64_power, wr64_power, wr64_power, x4]
  · unfold wrN; rw [wr_tw, wr_tw, wr64_tw, wr64_tw, wr64_tw, x5]

theorem lcLrnStat_ge (g : Nat) : hlthBase + 0x1000 ≤ LC_LRN_STAT g := by unfold LC_LRN_STAT lcBase ltBase hlthBase; omega

theorem rowsResets_rd (l : List Nat) (d : Dev) (a : Nat) (h : a < hlthBase + 0x1000) : rd (l.foldl rowsReset d) a = rd d a := by
  refine foldl_keep (fun d => rd d a) rowsReset l (fun g _ e => ?_) d
  have := lcLrnStat_ge g
  unfold rowsReset
  simp only [rd_setCell]
  exact rd_wrFld_ne _ _ _ _ (by omega)

theorem rowsResets_kept (l : List Nat) (d : Dev) : (l.foldl rowsReset d).jn = d.jn ∧ (l.foldl rowsReset d).sig = d.sig ∧ (l.foldl rowsReset d).lanes = d.lanes
    ∧ (l.foldl rowsReset d).power = d.power ∧ bp (l.foldl rowsReset d) = bp d := by
  refine ⟨foldl_keep (fun d => d.jn) _ _ (fun _ _ _ => by unfold rowsReset wrFld; simp) d, foldl_keep (fun d => d.sig) _ _ (fun _ _ _ => by unfold rowsReset wrFld; simp) d,
    foldl_keep (fun d => d.lanes) _ _ (fun _ _ _ => by unfold rowsReset wrFld; simp) d, foldl_keep (fun d => d.power) _ _ (fun _ _ _ => by unfold rowsReset wrFld; simp) d, ?_⟩
  unfold bp rd64; rw [rowsResets_rd _ _ _ (by decide), rowsResets_rd _ _ _ (by decide)]

/-! ### A cold start -/

theorem sfActivate_power (d : Dev) (t : SfTable) : (sfActivate d t).power = d.power ∧ (sfActivate d t).role = d.role := by
  obtain ⟨y, hy⟩ : ∃ y, y = (sfEntries t).foldl (fun d e => claim d e.1 clsSafety e.2 true 0) (releaseAll d (ownedBy d clsSafety 0 ++ ownedBy d clsSafety 1)) := ⟨_, rfl⟩
  have h1 : y.power = d.power := by
    rw [hy, foldl_keep (fun d => d.power) (fun d (e : Nat × Nat) => claim d e.1 clsSafety e.2 true 0) _ (fun _ _ _ => rfl)]; unfold releaseAll; rw [foldl_keep (fun d => d.power) release _ (fun _ _ _ => rfl)]
  have h2 : y.role = d.role := by
    rw [hy, foldl_keep (fun d => d.role) (fun d (e : Nat × Nat) => claim d e.1 clsSafety e.2 true 0) _ (fun _ _ _ => rfl)]; unfold releaseAll; rw [foldl_keep (fun d => d.role) release _ (fun _ _ _ => rfl)]
  have h3 : ∃ z, sfActivate d t = sfBoth z (fun d f => wrN (wrN d (SF_CFG_CRC f) t.crc) (SF_CFG_ID f) t.id) ∧ z.power = y.power ∧ z.role = y.role := by
    refine ⟨sfFresh (setSf y { y.sf with mode := .active, table := some t, pend := none, sealed_ := Config.moduleSign (Config.sha256 t.body) }) t, by rw [hy]; rfl, rfl, rfl⟩
  obtain ⟨z, h3, h4, h5⟩ := h3
  rw [h3]
  have hb : ∀ g : Dev → Nat → Dev, sfBoth z g = g (g z 0) 1 := fun _ => rfl
  rw [hb]
  unfold wrN
  exact ⟨by rw [wr_power, wr_power, wr_power, wr_power, h4, h1], by rw [wr_role, wr_role, wr_role, wr_role, h5, h2]⟩

theorem sfLockout_power (d : Dev) (c f : Nat) : (sfLockout d c f).power = d.power ∧ (sfLockout d c f).role = d.role ∧ ∀ a, a ≠ SIO_SO_CMD → a < dbBase → rd (sfLockout d c f) a = rd d a := by
  unfold sfLockout
  split
  · exact ⟨rfl, rfl, fun _ _ _ => rfl⟩
  · have hr := recorded_report (wr (setSf d { d.sf with mode := .lockout, cause := c }) SIO_SO_CMD 0) 0x0053 (297 + f) [w32 c, w32 f]
    refine ⟨(recorded_power hr).trans (by rw [wr_power]; rfl), (recorded_role hr).trans (by rw [wr_role]; rfl), fun a h h' => ?_⟩
    rw [recorded_rd hr (Or.inl h'), rd_wr_ne _ _ h]; exact rd_congr rfl a

/-- The safety channels at a cold start change neither power nor role, nor a page below theirs. -/
theorem sfColdStart_facts (d : Dev) (bad : Nat) : (sfColdStart d bad).power = d.power ∧ (sfColdStart d bad).role = d.role ∧ ∀ a, a < hlthBase → rd (sfColdStart d bad) a = rd d a := by
  have low : ∀ a, a < hlthBase → a ∉ [SF_CFG_CRC 0, SF_CFG_CRC 1, SF_CFG_ID 0, SF_CFG_ID 1] := by
    intro a ha hm
    have : ∀ x ∈ [SF_CFG_CRC 0, SF_CFG_CRC 1, SF_CFG_ID 0, SF_CFG_ID 1], hlthBase ≤ x := by decide
    have := this a hm; omega
  have hs : hlthBase < SIO_SO_CMD := by decide
  have hdb : hlthBase < dbBase := by decide
  have ho : hlthBase < SIO_SO_LOCK := by decide
  unfold sfColdStart
  generalize fld (rd d SIO_SO_LOCK) 7 0 &&& bad = k
  have e1 : (wrN d SIO_SO_LOCK k).power = d.power ∧ (wrN d SIO_SO_LOCK k).role = d.role ∧ ∀ a, a < hlthBase → rd (wrN d SIO_SO_LOCK k) a = rd d a :=
    ⟨by unfold wrN; rw [wr_power], by unfold wrN; rw [wr_role], fun a ha => rd_wrN_ne _ _ (by omega)⟩
  generalize wrN d SIO_SO_LOCK k = x at e1 ⊢
  obtain ⟨e1, e2, e3⟩ := e1
  simp only
  split
  · exact ⟨e1, e2, e3⟩
  · next t _ =>
    split
    · obtain ⟨-, -, -, -, -, h⟩ := sfActivate_facts x t
      exact ⟨(sfActivate_power x t).1.trans e1, (sfActivate_power x t).2.trans e2, fun a ha => (h a (low a ha)).trans (e3 a ha)⟩
    · have hr : Recorded x (imageRecord x .sfa 0 4) := by unfold imageRecord; exact recorded_report _ _ _ _
      obtain ⟨l1, l2, l3⟩ := sfLockout_power (imageRecord x .sfa 0 4) 2 0
      refine ⟨(l1.trans (recorded_power hr)).trans e1, (l2.trans (recorded_role hr)).trans e2, fun a ha => ?_⟩
      rw [l3 a (by omega) (by omega), recorded_rd hr (Or.inl (by omega))]; exact e3 a ha

theorem startRecord_facts (d : Dev) (info c o : Nat) : (startRecord d info c o).power = d.power ∧ (startRecord d info c o).jn = d.jn ∧ (startRecord d info c o).role = d.role
    ∧ (startRecord d info c o).tw = d.tw ∧ rd (startRecord d info c o) SB_START_CNT = 1 ∧ rd (startRecord d info c o) SB_START_INFO = w32 info
    ∧ rd64 (startRecord d info c o) SB_OFF = o % 2 ^ 64 ∧ rd64 (startRecord d info c o) SB_RESUMED = c % 2 ^ 64 ∧ ∀ a, a < SB_START_CNT → rd (startRecord d info c o) a = rd d a := by
  unfold startRecord
  simp only
  obtain ⟨x, hx⟩ : ∃ x, x = wr64 (wr64 (wrN (wrN d SB_START_CNT 1) SB_START_INFO info) SB_OFF o) SB_RESUMED c := ⟨_, rfl⟩
  rw [← hx]
  have hr := recorded_report x 0x0001 11 ([w32 info] ++ pay64 c ++ pay64 o)
  refine ⟨(recorded_power hr).trans ?_, (recorded_jn hr).trans ?_, (recorded_role hr).trans ?_, (recorded_tw hr).trans ?_, ?_, ?_, ?_, ?_, fun a ha => ?_⟩
  · rw [hx]; unfold wrN; rw [wr64_power, wr64_power, wr_power, wr_power]
  · rw [hx]; unfold wrN; rw [wr64_jn, wr64_jn, wr_jn, wr_jn]
  · rw [hx]; unfold wrN; rw [wr64_role, wr64_role, wr_role, wr_role]
  · rw [hx]; unfold wrN; rw [wr64_tw, wr64_tw, wr_tw, wr_tw]
  · rw [recorded_rd hr (Or.inl (by decide)), hx, rd_wr64_ne _ _ (by decide) (by decide), rd_wr64_ne _ _ (by decide) (by decide), rd_wrN_ne _ _ (by decide), rd_wrN_same]; rfl
  · rw [recorded_rd hr (Or.inl (by decide)), hx, rd_wr64_ne _ _ (by decide) (by decide), rd_wr64_ne _ _ (by decide) (by decide), rd_wrN_same]
  · have h0 : rd64 (report x 0x0001 11 ([w32 info] ++ pay64 c ++ pay64 o)) SB_OFF = rd64 x SB_OFF := by unfold rd64; rw [recorded_rd hr (Or.inl (by decide)), recorded_rd hr (Or.inl (by decide))]
    rw [h0, hx, rd64_wr64_ne _ _ (by decide)]
    exact rd64_wr64 _ _ _
  · have h0 : rd64 (report x 0x0001 11 ([w32 info] ++ pay64 c ++ pay64 o)) SB_RESUMED = rd64 x SB_RESUMED := by unfold rd64; rw [recorded_rd hr (Or.inl (by decide)), recorded_rd hr (Or.inl (by decide))]
    rw [h0, hx]
    exact rd64_wr64 _ _ _
  · have hdb : SB_START_CNT < dbBase := by decide
    have e0 : a ≠ SB_START_CNT ∧ a ≠ SB_START_INFO ∧ a ≠ SB_OFF ∧ a ≠ SB_OFF + 4 ∧ a ≠ SB_RESUMED ∧ a ≠ SB_RESUMED + 4 := by
      unfold SB_START_CNT SB_START_INFO SB_OFF SB_RESUMED sbBase at *; omega
    rw [recorded_rd hr (Or.inl (by omega)), hx, rd_wr64_ne _ _ e0.2.2.2.2.1 e0.2.2.2.2.2, rd_wr64_ne _ _ e0.2.2.1 e0.2.2.2.1, rd_wrN_ne _ _ e0.2.1, rd_wrN_ne _ _ e0.1]

/-- A whole baseline: the journal and the Strongbox page. -/
theorem baseline_facts (d : Dev) : (baseline d).power = d.power ∧ (baseline d).role = d.role ∧ (baseline d).tw = d.tw ∧ (baseline d).jn.cold = d.jn.cold ∧ (baseline d).jn.draining = none
    ∧ ∀ a, (a < SB_NUMBER ∨ SB_SKIP_CNT ≤ a) → rd (baseline d) a = rd d a := by
  obtain ⟨m, j, h, h1, -, c, h2, -⟩ := baselineStart_facts d
  have hd : baseline d = commitDone { d with mram := m, jn := j } c := by
    unfold baseline drainEnd
    rw [h]
    simp only
    rw [h2]
  rw [hd]
  obtain ⟨q1, -, -, -, -, -, -, -, -, q10, q11, q12, q13, q14⟩ := commitDone_facts { d with mram := m, jn := j } c
  exact ⟨q12, q10, q14, q13.trans h1, q1, fun a ha => (q11 a ha).trans (rd_congr rfl a)⟩

theorem ptpStart_kept (d : Dev) : RegsBut (fun a => a < TB_STAT) d (ptpStart d) := by
  have ht : TB_STAT < ethBase 0 := by decide
  have h1 : ∀ (d : Dev) (h l v : Nat), RegsBut (fun a => a < TB_STAT) d (wrFld d TB_STAT h l v) := fun d h l v => regsBut_wr d _ (fun a ha => by omega)
  unfold ptpStart
  extract_lets e
  have he : RegsBut (fun a => a < TB_STAT) d e := h1 _ _ _ _
  refine ite_prop (RegsBut (fun a => a < TB_STAT) d) (he.trans ?_) he
  exact regsBut_foldl _ (fun d k => regsBut_wr d _ (fun a ha => by unfold ethBase at *; unfold EVT_VEC; omega)) _ _

/-- Ready or Run. -/
theorem reach_facts (d : Dev) : (reach d).power = { d.power with phase := .on, firstC2 := false } ∧ (reach d).role = d.role ∧ (reach d).tw = d.tw ∧ (reach d).jn.cold = false
    ∧ ∀ a, a < TB_STAT → rd (reach d) a = rd d a := by
  obtain ⟨⟨r, h1⟩, h2⟩ := ptpStart_kept d
  unfold reach
  generalize ptpStart d = x at h1 h2 ⊢
  subst h1
  exact ⟨rfl, rfl, rfl, rfl, fun a ha => (rd_congr rfl a).trans (h2 a ha)⟩

theorem coldRegs_facts (d : Dev) : (coldRegs d).power = d.power ∧ (coldRegs d).role = d.role ∧ (coldRegs d).tw = d.tw ∧ rd (coldRegs d) TW_CFG = rd d TW_CFG := by
  refine ⟨rfl, rfl, rfl, ?_⟩
  unfold coldRegs rd
  show tget _ (d.regs.filter (fun p => !(routeReg p.1 && !safetyReg p.1) && !stpCntReg p.1 && p.1 != TB_STAT)) TW_CFG = _
  rw [tget_filter (fun n => !(routeReg n && !safetyReg n) && !stpCntReg n && n != TB_STAT), if_pos (by decide)]
theorem ilvStart_facts (d : Dev) : (ilvStart (dirCold d)).power = d.power ∧ (ilvStart (dirCold d)).role = d.role ∧ (ilvStart (dirCold d)).tw = d.tw
    ∧ rd (ilvStart (dirCold d)) TW_CFG = rd d TW_CFG := by
  unfold ilvStart
  simp only
  split
  · exact ⟨rfl, rfl, rfl, rd_congr rfl _⟩
  · exact ⟨rfl, rfl, rfl, (rd_congr rfl _).trans ((rd_wrFld_ne _ _ _ _ (by decide)).trans (rd_congr rfl _))⟩

/-- A cold start with its cause. -/
theorem coldStart_facts (d : Dev) (cause : Nat) (fb : Bool) (so : Nat) (hk : d.power.kind = .cold) :
    (coldStart d cause fb so).power = { d.power with phase := .on, firstC2 := false } ∧ (coldStart d cause fb so).jn.cold = false ∧ (coldStart d cause fb so).jn.draining = none
      ∧ (coldStart d cause fb so).role = d.role ∧ rd (coldStart d cause fb so) SB_START_CNT = 1 ∧ rd (coldStart d cause fb so) SB_START_INFO = w32 (startInfo 1 cause fb d.power.src)
      ∧ rd64 (coldStart d cause fb so) SB_OFF = 0 ∧ rd64 (coldStart d cause fb so) SB_RESUMED = 0 ∧ pairEn (coldStart d cause fb so) = pairEn d := by
  have hw : (d.power.kind == StartKind.warm) = false := by rw [hk]; rfl
  unfold coldStart
  rw [hw]
  obtain ⟨x1, x2, -, x4⟩ := coldRegs_facts d
  generalize coldRegs d = x at x1 x2 x4 ⊢
  obtain ⟨y1, y2, -, y4⟩ := ilvStart_facts x
  generalize ilvStart (dirCold x) = y at y1 y2 y4 ⊢
  obtain ⟨z1, z2, z3⟩ := sfColdStart_facts y so
  rw [show coldSafety y false so = sfColdStart y so from rfl]
  generalize sfColdStart y so = z at z1 z2 z3 ⊢
  obtain ⟨r1, r2, -, r4, r5⟩ := reach_facts z
  generalize reach z = r at r1 r2 r4 r5 ⊢
  obtain ⟨b1, b2, -, b4, b5, b6⟩ := baseline_facts r
  generalize baseline r = b at b1 b2 b4 b5 b6 ⊢
  obtain ⟨s1, s2, s3, -, s5, s6, s7, s8, s9⟩ := startRecord_facts b (startInfo 1 cause fb d.power.src) 0 0
  refine ⟨?_, ?_, ?_, ?_, s5, s6, by rw [s7]; norm_num, by rw [s8]; norm_num, ?_⟩
  · rw [s1, b1, r1, z1, y1, x1]
  · rw [s2, b4, r4]
  · rw [s2, b5]
  · rw [s3, b2, r2, z2, y2, x2]
  · unfold pairEn rdBit
    rw [s9 _ (by decide), b6 _ (Or.inl (by decide)), r5 _ (by decide), z3 _ (by decide), y4, x4]

theorem bootClock_facts (d : Dev) (e : BootEnv) : (bootClock d e).power = d.power ∧ (bootClock d e).role = d.role ∧ (bootClock d e).tw = d.tw ∧ rd (bootClock d e) TW_CFG = rd d TW_CFG := by
  unfold bootClock
  generalize (rd64 d PWR_KA_RTC + e.ka) % 2 ^ 64 = x
  generalize (optMs d + e.ms) % 2 ^ 40 = y
  exact ⟨by rw [wr64_power, wr64_power], by rw [wr64_role, wr64_role], by rw [wr64_tw, wr64_tw],
    by rw [rd_wr64_ne _ _ (by decide) (by decide), rd_wr64_ne _ _ (by decide) (by decide)]⟩
theorem bootWriter_stored (v : Vault) (d : Dev) : Stored d (bootWriter v d).2 := by
  unfold bootWriter
  split
  · exact Stored.refl d
  · exact (stored_scanAreas v d).trans (stored_writerStart _ _)

/-- The boot after a cold reset: a module without a partner starts cold. -/
theorem bootCold (v : Vault) (d : Dev) (e : BootEnv) (h1 : d.power.phase = .boot) (h2 : d.power.kind = .cold) (h3 : pairEn d = false) (h4 : d.power.heldPending = [])
    (h7 : d.power.holdupOk = true) (h5 : e.fwBad.contains d.power.bank = false) (h6 : d.power.badBanks.contains d.power.bank = false) :
    ∃ x : Dev, (bootComplete v d e).2 = x ∧ x.power.phase = .on ∧ x.jn.cold = false ∧ x.role = d.role ∧ x.jn.draining = none ∧ rd64 x SB_OFF = 0 ∧ rd64 x SB_RESUMED = 0
      ∧ rd x SB_START_INFO = w32 (startInfo 1 1 e.slotBad d.power.src) ∧ rd x SB_START_CNT = 1 := by
  unfold bootComplete
  rw [if_neg (by rw [h1]; simp)]
  obtain ⟨w1, w2, -, w3⟩ := bootClock_facts d e
  generalize bootClock d e = w at w1 w2 w3 ⊢
  have hf : fwSelect w e = some w := by
    unfold fwSelect
    simp only
    rw [w1, h5, h6]; simp
  rw [hf]
  simp only
  rw [if_neg (by rw [w1, h7]; simp)]
  have hst := bootWriter_stored v w
  generalize (bootWriter v w).2 = r at hst ⊢
  have r1 : r.power = d.power := by rw [hst.1]; exact w1
  have r2 : r.role = d.role := by rw [hst.1]; exact w2
  have r3 : pairEn r = false := by unfold pairEn rdBit; rw [hst.2 _ (Or.inl (by decide)), w3]; exact h3
  have hw : bootWires r e = r := by unfold bootWires; rw [if_neg (by rw [r3]; simp)]
  rw [hw]
  obtain ⟨c1, c2, c3, c4, c5, c6, c7, c8, c9⟩ := coldStart_facts r 1 e.slotBad e.soBad (by rw [r1, h2])
  have hd : decide_ r e = coldStart r 1 e.slotBad e.soBad := by
    unfold decide_
    rw [if_pos (Or.inl (by rw [r1, h2]))]
    simp only
    rw [if_neg (by rw [c9, r3]; simp)]
  rw [hd]
  generalize coldStart r 1 e.slotBad e.soBad = x at *
  have hp : (pendingHeld x).power.phase = .on ∧ pendingHeld x = setPow x { x.power with heldPending := [] } := by
    unfold pendingHeld
    rw [if_pos (by rw [c1]), show x.power.heldPending = [] by rw [c1]; exact (congrArg Power.heldPending r1).trans h4]
    exact ⟨by show x.power.phase = _; rw [c1], rfl⟩
  rw [hp.2]
  refine ⟨_, rfl, ?_, c2, c4.trans r2, c3, ?_, ?_, ?_, ?_⟩
  · show x.power.phase = _; rw [c1]
  · rw [rd64_setPow]; exact c7
  · rw [rd64_setPow]; exact c8
  · rw [rd_setPow, c6, r1]
  · rw [rd_setPow, c5]

/-! ### The resets as statements name them -/

theorem warmlyReset (d : Dev) (src : Nat) (h : resettable d = true) : WarmlyReset src d (warmReset d src) := by
  obtain ⟨⟨a1, a2, a3, a4, a5⟩, b, c1, c2, c3, c4, c5, c6⟩ := warmReset_all d src h
  exact ⟨a1, a2, by rw [a4, a5], b, c1, c2, c3, c4, c5, c6⟩
theorem coldlyReset (d : Dev) (src : Nat) (h : resettable d = true) : ColdlyReset src d (coldReset d src) := by
  obtain ⟨⟨a1, a2, a3, a4⟩, b, ⟨k1, k2, k3, k4⟩, c1, c2, c3, c4, c5, c6⟩ := coldReset_all d src h
  exact ⟨a1, a2, a3, a4, b, k1, k2, k3, k4, c4, c1, c2, c3, c6⟩
/-- A reset finds the device of an issued command as it finds the device before it. -/
theorem warmlyReset_issued (d e : Dev) (v : W32) (src : Nat) (h : WarmlyReset src (issued d .pwr 0x104 v) e) : WarmlyReset src d e := by
  obtain ⟨a1, a2, a3, b, c1, c2, c3, c4, c5, c6⟩ := h
  have hs : startOf (issued d .pwr 0x104 v) .warm src = startOf d .warm src := by unfold startOf; rw [issued_power]
  have hh : holdTime (issued d .pwr 0x104 v) = holdTime d := by unfold holdTime; rw [rd_issued_ne _ _ _ _ _ (by decide)]
  rw [issued_power, issued_oh, hh] at c6
  rw [hs] at a3
  rw [issued_sf] at c1
  rw [issued_encs] at c2
  rw [issued_jn] at c3
  rw [pairEn_issued _ _ _ _ (by decide)] at c4
  refine ⟨a1, a2, a3, b, c1, c2, c3, c4, fun a h1 h2 h3 => ?_, c6⟩
  rw [c5 a h1 h2 h3]
  by_cases ha : a = pageBase .pwr + 0x104
  · have hk : warmKept a = false := by rw [ha]; decide +kernel
    rw [hk]; rfl
  · rw [rd_issued_ne _ _ _ _ _ ha]
theorem coldlyReset_issued (d e : Dev) (v : W32) (src : Nat) (h : ColdlyReset src (issued d .pwr 0x104 v) e) : ColdlyReset src d e := by
  obtain ⟨a1, a2, a3, a4, b, k1, k2, k3, k4, c1, c2, c3, c4, c5⟩ := h
  rw [issued_sf] at c2
  rw [issued_jn] at c3
  rw [pairEn_issued _ _ _ _ (by decide)] at c4
  refine ⟨a1, a2, a3, a4, b, k1, k2, k3, k4, c1, c2, c3, c4, fun a h0 h1 h2 h3 => ?_⟩
  rw [c5 a h0 h1 h2 h3]
  by_cases ha : a = pageBase .pwr + 0x104
  · have hk : coldKept a = false := by rw [ha]; decide +kernel
    rw [hk]; rfl
  · rw [rd_issued_ne _ _ _ _ _ ha]
theorem nvFlush_eq (d : Dev) (lo hi : Nat) : ∃ m n, nvFlush d lo hi = { d with mram := m, nv := n } := ⟨_, _, rfl⟩
theorem powerLost (d : Dev) (h : powered d = true ∧ d.power.fail ≠ .no) : PowerLost d (holdupSpent d) := by
  unfold holdupSpent
  rw [if_pos h]
  simp only
  obtain ⟨i1, -, -, -⟩ := installCut_facts d
  obtain ⟨b1, -, -, -⟩ := bankSwap_facts (installCut d)
  generalize bankSwap (installCut d) = p at *
  have c : Closed d p := i1.trans b1
  obtain ⟨m, n, hn⟩ := nvFlush_eq p nvLo nvHi
  have c2 : Closed d (nvFlush p nvLo nvHi) := by rw [hn]; exact ⟨c.1, c.2.1, c.2.2.1, fun a h1 h2 h3 => (rd_congr rfl a).trans (c.2.2.2 a h1 h2 h3)⟩
  clear hn
  generalize nvFlush p nvLo nvHi = q at *
  obtain ⟨f1, f2, f3, f4, f5, f6⟩ := reset_blank_facts q lastingReg
  have hpe : pairEn q = pairEn d := by unfold pairEn rdBit; rw [c2.2.2.2 _ (by decide) (by decide) (by decide)]
  have hl : ∀ a, lastingReg a = true → a = OH_EXP_CNT → False := by intro a h1 h2; subst h2; revert h1; decide +kernel
  generalize blank q lastingReg = y at *
  obtain ⟨w1, w2, w3, w4, w5, w6, w7⟩ := wipe_facts y
  generalize wipe y = w at *
  obtain ⟨l1, l2, l3, l4, l5, l6, l7, l8, l9⟩ := w1
  refine ⟨rfl, rfl, rfl, ⟨l1.trans f1.1, l2.trans f1.2.1, l3.trans f1.2.2.1, l4.trans f1.2.2.2.1, l5.trans f1.2.2.2.2.1, l6.trans f1.2.2.2.2.2.1, l7.trans f1.2.2.2.2.2.2.1,
      l8.trans f1.2.2.2.2.2.2.2.1, l9.trans f1.2.2.2.2.2.2.2.2⟩, w2.1, w2.2.1, w2.2.2.1, w2.2.2.2, rfl, ?_, ?_, ?_, fun a h1 h0 h2 => ?_⟩
  · show w.sf = _; rw [w3, f2.1, c2.1]
  · show w.jn = _; rw [w4, f3, c2.2.2.1]
  · show w.role = _; rw [w5, f4, hpe]
  · have hlt : dbBase < mbBase 0 := by decide
    refine (rd_congr (e := w) rfl a).trans ?_
    rw [w7 a (by omega) h0, f6 a h1]
    by_cases h3 : a = OH_EXP_CNT
    · have : lastingReg a = false := by rw [h3]; decide +kernel
      rw [this]; rfl
    · rw [c2.2.2.2 a h1 h2 h3]
theorem holdExpire_facts (d : Dev) : (holdExpire d).oh = { d.oh with holding := false, expired := true, ao := d.oh.aoSafe, dio := d.oh.dioSafe }
    ∧ rd (holdExpire d) OH_EXP_CNT = rd d OH_EXP_CNT + 1 ∧ (holdExpire d).role = d.role ∧ (holdExpire d).sig = d.sig ∧ (holdExpire d).power = d.power
    ∧ ∀ a, a < dbBase → a ≠ OH_EXP_CNT → rd (holdExpire d) a = rd d a := by
  unfold holdExpire
  simp only
  obtain ⟨x, hx⟩ : ∃ x, x = ({ d with oh := { d.oh with holding := false, expired := true, ao := d.oh.aoSafe, dio := d.oh.dioSafe } } : Dev) := ⟨_, rfl⟩
  have x1 : x.oh = { d.oh with holding := false, expired := true, ao := d.oh.aoSafe, dio := d.oh.dioSafe } ∧ x.role = d.role ∧ x.sig = d.sig ∧ x.power = d.power := by rw [hx]; exact ⟨rfl, rfl, rfl, rfl⟩
  have x2 : ∀ a, rd x a = rd d a := by rw [hx]; exact fun a => rd_congr rfl a
  rw [← hx]
  have hr := recorded_report (bump x OH_EXP_CNT) 0x0007 299 [w32 (holdTime x), w32 d.oh.src]
  refine ⟨(recorded_oh hr).trans (by rw [bump_oh, x1.1]), ?_, (recorded_role hr).trans (by rw [bump_role, x1.2.1]), (recorded_sig hr).trans (by rw [bump_sig, x1.2.2.1]), (recorded_power hr).trans (by rw [bump_power, x1.2.2.2]), fun a h1 h2 => ?_⟩
  · rw [recorded_rd hr (Or.inl (by decide)), rd_bump_same, x2]
  · rw [recorded_rd hr (Or.inl h1), rd_bump_ne _ h2, x2]

end Sys2Proof.Machine
end

