-- ==== Sys2Proof/Laws/Memory.lean ====
section
/-! SUPPORT. What the operations over the memory banks, the background test and the user NV area do (R419 to R428). -/

namespace Sys2Proof.Machine

theorem OnlyRegs.refl (as : List Nat) (d : Dev) : OnlyRegs as d d := ⟨⟨d.regs, rfl⟩, fun _ _ => rfl⟩
theorem OnlyRegs.trans {as bs : List Nat} {d e f : Dev} (h : OnlyRegs as d e) (g : OnlyRegs bs e f) (hs : ∀ a, a ∈ bs → a ∈ as) : OnlyRegs as d f := by
  obtain ⟨⟨r, hr⟩, h2⟩ := h
  obtain ⟨⟨q, hq⟩, g2⟩ := g
  exact ⟨⟨q, by rw [hq, hr]⟩, fun a ha => by rw [g2 a (fun hb => ha (hs a hb)), h2 a ha]⟩
theorem OnlyRegs.mono {as bs : List Nat} {d e : Dev} (h : OnlyRegs as d e) (hs : ∀ a, a ∈ as → a ∈ bs) : OnlyRegs bs d e :=
  ⟨h.1, fun a ha => h.2 a (fun hb => ha (hs a hb))⟩
theorem onlyRegs_wr (d : Dev) {a : Nat} {as : List Nat} (v : W32) (h : a ∈ as) : OnlyRegs as d (wr d a v) :=
  ⟨⟨(wr d a v).regs, by unfold wr; rfl⟩, fun b hb => rd_wr_ne d _ (fun e => hb (e ▸ h))⟩
theorem onlyRegs_bump (d : Dev) {a : Nat} {as : List Nat} (h : a ∈ as) : OnlyRegs as d (bump d a) := onlyRegs_wr d _ h

theorem MB_STAT_inj {a b : Nat} (h : MB_STAT a = MB_STAT b) : a = b := by unfold MB_STAT mbBase at h; omega
theorem MB_PWR_inj {a b : Nat} (h : MB_PWR a = MB_PWR b) : a = b := by unfold MB_PWR mbBase at h; omega
theorem MB_PWR_ne_STAT (a b : Nat) : MB_PWR a ≠ MB_STAT b := by unfold MB_PWR MB_STAT mbBase; omega

/-- STATE of several banks, all that the write does. -/
theorem segState_banks (st : Nat) (l : List Nat) : ∀ d : Dev, OnlyRegs (l.map MB_STAT) d (l.foldl (fun d k => wrFld d (MB_STAT k) 2 0 st) d)
    ∧ ∀ k, k ∈ l → bankSt (l.foldl (fun d k => wrFld d (MB_STAT k) 2 0 st) d) k = st % 8 := by
  induction l with
  | nil => intro d; exact ⟨OnlyRegs.refl _ _, fun k hk => nomatch hk⟩
  | cons b l ih =>
    intro d
    obtain ⟨h1, h2⟩ := ih (wrFld d (MB_STAT b) 2 0 st)
    refine ⟨(onlyRegs_wr d _ (List.mem_cons_self ..)).trans h1 (fun a ha => List.mem_cons_of_mem _ ha), fun k hk => ?_⟩
    by_cases hl : k ∈ l
    · exact h2 k hl
    · rcases List.mem_cons.mp hk with rfl | hk
      · rw [List.foldl_cons]
        unfold bankSt
        rw [h1.2 _ (fun hm => by obtain ⟨j, hj, he⟩ := List.mem_map.mp hm; exact hl (MB_STAT_inj he ▸ hj))]
        unfold wrFld
        rw [rd_wr_same]; exact fld_putFld_same _ _ _ _ (by decide) (by decide)
      · exact absurd hk hl

/-- MB_PWR of several banks, all that the write does. -/
theorem segPower_banks (v : Nat) (l : List Nat) : ∀ d : Dev, OnlyRegs (l.map MB_PWR) d (l.foldl (fun d k => wrN d (MB_PWR k) v) d)
    ∧ ∀ k, k ∈ l → rd (l.foldl (fun d k => wrN d (MB_PWR k) v) d) (MB_PWR k) = w32 v := by
  induction l with
  | nil => intro d; exact ⟨OnlyRegs.refl _ _, fun k hk => nomatch hk⟩
  | cons b l ih =>
    intro d
    obtain ⟨h1, h2⟩ := ih (wrN d (MB_PWR b) v)
    refine ⟨(onlyRegs_wr d _ (List.mem_cons_self ..)).trans h1 (fun a ha => List.mem_cons_of_mem _ ha), fun k hk => ?_⟩
    by_cases hl : k ∈ l
    · exact h2 k hl
    · rcases List.mem_cons.mp hk with rfl | hk
      · rw [List.foldl_cons, h1.2 _ (fun hm => by obtain ⟨j, hj, he⟩ := List.mem_map.mp hm; exact hl (MB_PWR_inj he ▸ hj)), rd_wrN_same]
      · exact absurd hk hl

/-- The interleave of a device whose MB_ILV reads the same is the same, and with it every map of an offset. -/
theorem ilvW_congr {d e : Dev} (h : rd e (MB_ILV 0) = rd d (MB_ILV 0)) : ilvW e = ilvW d := by unfold ilvW; rw [h]
theorem segBanks_congr {d e : Dev} (h : rd e (MB_ILV 0) = rd d (MB_ILV 0)) (b : Nat) : segBanks e b = segBanks d b := by unfold segBanks; rw [ilvW_congr h]
theorem MB_ILV_ne_STAT (b : Nat) : MB_ILV 0 ≠ MB_STAT b := by unfold MB_ILV MB_STAT mbBase; omega
theorem MB_ILV_ne_PWR (b : Nat) : MB_ILV 0 ≠ MB_PWR b := by unfold MB_ILV MB_PWR mbBase; omega

/-- STATE of a segment, all that its write does. -/
theorem segState_spec (d : Dev) (b st : Nat) : OnlyRegs ((segBanks d b).map MB_STAT) d (segState d b st) ∧ ∀ k, k ∈ segBanks d b → bankSt (segState d b st) k = st % 8 :=
  segState_banks st _ d

/-- The contents of a segment are lost, and nothing else. -/
theorem segClear_spec (d : Dev) (b lo : Nat) (h : lo = b / ilvW d * segBytes d) : segClear d b = { d with sram := (segClear d b).sram, poison := (segClear d b).poison }
    ∧ (∀ a, mrd (segClear d b).sram a = if lo ≤ a ∧ a < lo + segBytes d then 0 else mrd d.sram a)
    ∧ ∀ w, w ∈ (segClear d b).poison ↔ w ∈ d.poison ∧ (8 * w < lo ∨ lo + segBytes d ≤ 8 * w) := by
  subst h
  refine ⟨rfl, fun a => ?_, fun w => ?_⟩
  · show tget 0 (tclear _ _ d.sram) a = _
    rw [tget_tclear]; rfl
  · show w ∈ List.filter _ _ ↔ _
    rw [List.mem_filter]; simp

/-- A test of the pass depends on the bank's state and the spare's map entry alone. -/
theorem tkAt_congr {d e : Dev} (h : ∀ b, bankOn e b = bankOn d b) (h' : ∀ b k, spareUsed e b k = spareUsed d b k ∧ spareRetired e b k = spareRetired d b k) (pos : Nat) : tkAt e pos = tkAt d pos := by
  unfold tkAt; simp only [h, h']
theorem tkSeek_congr {d e : Dev} (h : ∀ p, tkAt e p = tkAt d p) : ∀ f pos, tkSeek e f pos = tkSeek d f pos
  | 0, _ => rfl
  | f + 1, pos => by unfold tkSeek; rw [h pos, tkSeek_congr h f (pos + 1)]
/-- The place at which the pass stands is tested: the search finds it. -/
theorem tkSeek_here {d : Dev} {f pos : Nat} {x : Nat × Nat × Bool} (hf : 0 < f) (h : tkAt d pos = some x) : tkSeek d f pos = some (pos, x) := by
  cases f with
  | zero => exact absurd hf (by decide)
  | succ f => unfold tkSeek; rw [h]

/-- Bytes merged into the user NV area, one after another. -/
theorem tget_merge (bs : List W8) : ∀ (m : Tab Nat) (a n k : Nat), tget 256 ((bs.zipIdx k).foldl (fun m p => tset 256 m (a + p.2) p.1.toNat) m) n
    = if a + k ≤ n ∧ n < a + k + bs.length then (bs.getD (n - (a + k)) 0).toNat else tget 256 m n := by
  induction bs with
  | nil => intro m a n k; rw [if_neg (by simp)]; rfl
  | cons b bs ih =>
    intro m a n k
    rw [List.zipIdx_cons, List.foldl_cons, ih]
    by_cases h1 : a + (k + 1) ≤ n ∧ n < a + (k + 1) + bs.length
    · rw [if_pos h1, if_pos (by simp; omega)]
      rw [show n - (a + k) = (n - (a + (k + 1))) + 1 by omega, List.getD_cons_succ]
    · rw [if_neg h1, tget_tset]
      by_cases h2 : n = a + k
      · rw [if_pos h2, if_neg (by have := b.isLt; omega), if_pos (by simp; omega), h2, Nat.sub_self, List.getD_cons_zero]
      · rw [if_neg h2, if_neg (by simp; simp at h1; omega)]

end Sys2Proof.Machine
end

