-- ==== Sys2Proof/Laws/PerInstr.lean ====
section
/-! SUPPORT. Statements made for every command as syntax, one lemma a command. -/

namespace Sys2Proof.Laws.Spelled

open Sys2Proof.Machine

/-- A command of a page, with operands the hardware can spell, names an aligned register beyond the page's common header (R44). -/
def Statement (i : Instr) : Prop :=
  i.wf = true → ∀ p off v, hostPage i = some (p, off, v) → off % 4 = 0 ∧ 0x100 ≤ off

theorem basePeriod : ∀ env, Statement (.basePeriod env) := fun _ _ _ _ _ h => nomatch h
theorem scratchpadUe : ∀ p off, Statement (.scratchpadUe p off) := fun _ _ _ _ _ _ h => nomatch h
theorem sigWindowWrite : ∀ n val, Statement (.sigWindowWrite n val) := fun _ _ _ _ _ _ h => nomatch h
theorem pllLockLoss : Statement .pllLockLoss := fun _ _ _ _ h => nomatch h
theorem pllRelock : ∀ us, Statement (.pllRelock us) := fun _ _ _ _ _ h => nomatch h
theorem pllRelockTimeout : ∀ us, Statement (.pllRelockTimeout us) := fun _ _ _ _ _ h => nomatch h
theorem regionFault : ∀ p code addr, Statement (.regionFault p code addr) := fun _ _ _ _ _ _ _ h => nomatch h
theorem clkTrimWrite : ∀ val, Statement (.clkTrimWrite val) := by
  intro val h p0 o0 _ hp
  obtain ⟨rfl, rfl, -⟩ := hostPage_inj hp; decide
theorem flr : Statement .flr := fun _ _ _ _ h => nomatch h
theorem endpointReset : Statement .endpointReset := fun _ _ _ _ h => nomatch h
theorem linkDown : Statement .linkDown := fun _ _ _ _ h => nomatch h
theorem linkUp : ∀ rate width, Statement (.linkUp rate width) := fun _ _ _ _ _ _ h => nomatch h
theorem registerWrite : ∀ who addr be val, Statement (.registerWrite who addr be val) := fun _ _ _ _ _ _ _ _ h => nomatch h
theorem writeCrossingDone : ∀ p, Statement (.writeCrossingDone p) := fun _ _ _ _ _ h => nomatch h
theorem xdomTimeout : ∀ p write, Statement (.xdomTimeout p write) := fun _ _ _ _ _ _ h => nomatch h
theorem keylockEngage : ∀ p, Statement (.keylockEngage p) := fun _ _ _ _ _ h => nomatch h
theorem keylockRelease : ∀ p, Statement (.keylockRelease p) := fun _ _ _ _ _ h => nomatch h
theorem ackWrite : ∀ addr val, Statement (.ackWrite addr val) := fun _ _ _ _ _ _ h => nomatch h
theorem evtEnWrite : ∀ p val, Statement (.evtEnWrite p val) := fun _ _ _ _ _ _ h => nomatch h
theorem vectorEvaluation : Statement .vectorEvaluation := fun _ _ _ _ h => nomatch h
theorem msixMaskWrite : ∀ kind vec on, Statement (.msixMaskWrite kind vec on) := fun _ _ _ _ _ _ _ h => nomatch h
theorem vecDone : ∀ val, Statement (.vecDone val) := by
  intro val h p0 o0 _ hp
  obtain ⟨rfl, rfl, -⟩ := hostPage_inj hp; decide
theorem sweRaise : ∀ val, Statement (.sweRaise val) := by
  intro val h p0 o0 _ hp
  obtain ⟨rfl, rfl, -⟩ := hostPage_inj hp; decide
theorem idRingWrite : ∀ val, Statement (.idRingWrite val) := by
  intro val h p0 o0 _ hp
  obtain ⟨rfl, rfl, -⟩ := hostPage_inj hp; decide
theorem blkCtrlRun : ∀ p on, Statement (.blkCtrlRun p on) := fun _ _ _ _ _ _ h => nomatch h
theorem blkCtrlSafeReq : ∀ p on, Statement (.blkCtrlSafeReq p on) := fun _ _ _ _ _ _ h => nomatch h
theorem laneNop : ∀ l, Statement (.laneNop l) := by
  intro l h p0 o0 _ hp
  obtain ⟨rfl, rfl, -⟩ := hostPage_inj hp; decide
theorem laneLoad : ∀ l, Statement (.laneLoad l) := by
  intro l h p0 o0 _ hp
  obtain ⟨rfl, rfl, -⟩ := hostPage_inj hp; decide
theorem laneVerifyDone : ∀ l, Statement (.laneVerifyDone l) := fun _ _ _ _ _ h => nomatch h
theorem laneUnload : ∀ l, Statement (.laneUnload l) := by
  intro l h p0 o0 _ hp
  obtain ⟨rfl, rfl, -⟩ := hostPage_inj hp; decide
theorem laneStart : ∀ l name, Statement (.laneStart l name) := by
  intro l name h p0 o0 _ hp
  obtain ⟨rfl, rfl, -⟩ := hostPage_inj hp; decide
theorem lanePause : ∀ l, Statement (.lanePause l) := by
  intro l h p0 o0 _ hp
  obtain ⟨rfl, rfl, -⟩ := hostPage_inj hp; decide
theorem laneContinue : ∀ l, Statement (.laneContinue l) := by
  intro l h p0 o0 _ hp
  obtain ⟨rfl, rfl, -⟩ := hostPage_inj hp; decide
theorem laneStop : ∀ l, Statement (.laneStop l) := by
  intro l h p0 o0 _ hp
  obtain ⟨rfl, rfl, -⟩ := hostPage_inj hp; decide
theorem laneAbort : ∀ l, Statement (.laneAbort l) := by
  intro l h p0 o0 _ hp
  obtain ⟨rfl, rfl, -⟩ := hostPage_inj hp; decide
theorem stepDurationEnd : ∀ l, Statement (.stepDurationEnd l) := fun _ _ _ _ _ h => nomatch h
theorem waitTimeout : ∀ l, Statement (.waitTimeout l) := fun _ _ _ _ _ h => nomatch h
theorem schedArm : ∀ l k pol, Statement (.schedArm l k pol) := by
  intro l k pol h p0 o0 _ hp
  obtain ⟨rfl, rfl, -⟩ := hostPage_inj hp
  simp only [Instr.wf, Bool.and_eq_true, decide_eq_true_eq] at h; omega
theorem schedDisarm : ∀ l k pol, Statement (.schedDisarm l k pol) := by
  intro l k pol h p0 o0 _ hp
  obtain ⟨rfl, rfl, -⟩ := hostPage_inj hp
  simp only [Instr.wf, Bool.and_eq_true, decide_eq_true_eq] at h; omega
theorem schedSlotFire : ∀ l k, Statement (.schedSlotFire l k) := fun _ _ _ _ _ _ h => nomatch h
theorem actSigWrite : ∀ l j, Statement (.actSigWrite l j) := fun _ _ _ _ _ _ h => nomatch h
theorem actAxisMove : ∀ l j, Statement (.actAxisMove l j) := fun _ _ _ _ _ _ h => nomatch h
theorem actLogicEvent : ∀ l j, Statement (.actLogicEvent l j) := fun _ _ _ _ _ _ h => nomatch h
theorem actArmSched : ∀ l j, Statement (.actArmSched l j) := fun _ _ _ _ _ _ h => nomatch h
theorem actDisarmSched : ∀ l j, Statement (.actDisarmSched l j) := fun _ _ _ _ _ _ h => nomatch h
theorem actCritical : ∀ l j, Statement (.actCritical l j) := fun _ _ _ _ _ _ h => nomatch h
theorem ltGrpStart : ∀ t, Statement (.ltGrpStart t) := by
  intro t h p0 o0 _ hp
  obtain ⟨rfl, rfl, -⟩ := hostPage_inj hp; decide
theorem ltGrpStop : ∀ t, Statement (.ltGrpStop t) := by
  intro t h p0 o0 _ hp
  obtain ⟨rfl, rfl, -⟩ := hostPage_inj hp; decide
theorem coefWrite : ∀ g sec r val, Statement (.coefWrite g sec r val) := by
  intro g sec r val h p0 o0 _ hp
  obtain ⟨rfl, rfl, -⟩ := hostPage_inj hp
  simp only [Instr.wf, Bool.and_eq_true, decide_eq_true_eq] at h; omega
theorem loopRouteWrite : ∀ g pub val, Statement (.loopRouteWrite g pub val) := by
  intro g pub val h p0 o0 _ hp
  obtain ⟨rfl, rfl, -⟩ := hostPage_inj hp; unfold LC_PUB LC_OUT_DST; split <;> omega
theorem supervisionTrip : ∀ g, Statement (.supervisionTrip g) := fun _ _ _ _ _ h => nomatch h
theorem learnBudgetReset : ∀ g, Statement (.learnBudgetReset g) := fun _ _ _ _ _ h => nomatch h
theorem driftScanEnd : ∀ g, Statement (.driftScanEnd g) := fun _ _ _ _ _ h => nomatch h
theorem resetLive : ∀ g, Statement (.resetLive g) := by
  intro g h p0 o0 _ hp
  obtain ⟨rfl, rfl, -⟩ := hostPage_inj hp; decide
theorem adopt : ∀ g, Statement (.adopt g) := by
  intro g h p0 o0 _ hp
  obtain ⟨rfl, rfl, -⟩ := hostPage_inj hp; decide
theorem compBindWrite : ∀ g val, Statement (.compBindWrite g val) := by
  intro g val h p0 o0 _ hp
  obtain ⟨rfl, rfl, -⟩ := hostPage_inj hp; decide
theorem compSlotWrite : ∀ t off val, Statement (.compSlotWrite t off val) := by
  intro t off val h p0 o0 _ hp
  obtain ⟨rfl, rfl, -⟩ := hostPage_inj hp
  simp only [Instr.wf, Bool.and_eq_true, decide_eq_true_eq] at h; omega
theorem adcWindowStart : ∀ k w0, Statement (.adcWindowStart k w0) := fun _ _ _ _ _ _ h => nomatch h
theorem adcConversionDone : ∀ k sample ovr ok, Statement (.adcConversionDone k sample ovr ok) := fun _ _ _ _ _ _ _ _ h => nomatch h
theorem adcChannelStarved : ∀ k n, Statement (.adcChannelStarved k n) := fun _ _ _ _ _ _ h => nomatch h
theorem seqCommit : ∀ k, Statement (.seqCommit k) := by
  intro k h p0 o0 _ hp
  obtain ⟨rfl, rfl, -⟩ := hostPage_inj hp; decide
theorem rangeSettleEnd : ∀ k n, Statement (.rangeSettleEnd k n) := fun _ _ _ _ _ _ h => nomatch h
theorem calRotation : ∀ k, Statement (.calRotation k) := fun _ _ _ _ _ h => nomatch h
theorem sliceCalDone : ∀ k res, Statement (.sliceCalDone k res) := fun _ _ _ _ _ _ h => nomatch h
theorem calStoreUe : ∀ k, Statement (.calStoreUe k) := fun _ _ _ _ _ h => nomatch h
theorem refSettle : ∀ k, Statement (.refSettle k) := fun _ _ _ _ _ h => nomatch h
theorem refLost : ∀ k, Statement (.refLost k) := fun _ _ _ _ _ h => nomatch h
theorem owPulseStart : Statement .owPulseStart := fun _ _ _ _ h => nomatch h
theorem owPulseDecide : Statement .owPulseDecide := fun _ _ _ _ h => nomatch h
theorem owPulseEnd : Statement .owPulseEnd := fun _ _ _ _ h => nomatch h
theorem aoOtemp : ∀ c, Statement (.aoOtemp c) := fun _ _ _ _ _ h => nomatch h
theorem aoIlimFault : ∀ c, Statement (.aoIlimFault c) := fun _ _ _ _ _ h => nomatch h
theorem aoReadbackFault : ∀ c, Statement (.aoReadbackFault c) := fun _ _ _ _ _ h => nomatch h
theorem dioInputEdge : ∀ n lvl ts, Statement (.dioInputEdge n lvl ts) := fun _ _ _ _ _ _ _ h => nomatch h
theorem dioSchPush : ∀ n lvl, Statement (.dioSchPush n lvl) := by
  intro n lvl h p0 o0 _ hp
  obtain ⟨rfl, rfl, -⟩ := hostPage_inj hp
  simp only [Instr.wf, Bool.and_eq_true, decide_eq_true_eq] at h; omega
theorem dioSchFlush : ∀ n, Statement (.dioSchFlush n) := by
  intro n h p0 o0 _ hp
  obtain ⟨rfl, rfl, -⟩ := hostPage_inj hp
  simp only [Instr.wf, Bool.and_eq_true, decide_eq_true_eq] at h; omega
theorem dioSchedSwitch : ∀ n, Statement (.dioSchedSwitch n) := fun _ _ _ _ _ h => nomatch h
theorem dioUndercurrent : ∀ n, Statement (.dioUndercurrent n) := fun _ _ _ _ _ h => nomatch h
theorem dioOtemp : ∀ n, Statement (.dioOtemp n) := fun _ _ _ _ _ h => nomatch h
theorem dioIlimFault : ∀ n, Statement (.dioIlimFault n) := fun _ _ _ _ _ h => nomatch h
theorem axNop : ∀ a, Statement (.axNop a) := by
  intro a h p0 o0 _ hp
  obtain ⟨rfl, rfl, -⟩ := hostPage_inj hp; decide
theorem axMoveAbs : ∀ a, Statement (.axMoveAbs a) := by
  intro a h p0 o0 _ hp
  obtain ⟨rfl, rfl, -⟩ := hostPage_inj hp; decide
theorem axMoveRel : ∀ a, Statement (.axMoveRel a) := by
  intro a h p0 o0 _ hp
  obtain ⟨rfl, rfl, -⟩ := hostPage_inj hp; decide
theorem axUpdate : ∀ a, Statement (.axUpdate a) := by
  intro a h p0 o0 _ hp
  obtain ⟨rfl, rfl, -⟩ := hostPage_inj hp; decide
theorem axJogPos : ∀ a, Statement (.axJogPos a) := by
  intro a h p0 o0 _ hp
  obtain ⟨rfl, rfl, -⟩ := hostPage_inj hp; decide
theorem axJogNeg : ∀ a, Statement (.axJogNeg a) := by
  intro a h p0 o0 _ hp
  obtain ⟨rfl, rfl, -⟩ := hostPage_inj hp; decide
theorem axStop : ∀ a, Statement (.axStop a) := by
  intro a h p0 o0 _ hp
  obtain ⟨rfl, rfl, -⟩ := hostPage_inj hp; decide
theorem axEstop : ∀ a, Statement (.axEstop a) := by
  intro a h p0 o0 _ hp
  obtain ⟨rfl, rfl, -⟩ := hostPage_inj hp; decide
theorem axHome : ∀ a, Statement (.axHome a) := by
  intro a h p0 o0 _ hp
  obtain ⟨rfl, rfl, -⟩ := hostPage_inj hp; decide
theorem axGearEngage : ∀ a, Statement (.axGearEngage a) := by
  intro a h p0 o0 _ hp
  obtain ⟨rfl, rfl, -⟩ := hostPage_inj hp; decide
theorem axGearArm : ∀ a, Statement (.axGearArm a) := by
  intro a h p0 o0 _ hp
  obtain ⟨rfl, rfl, -⟩ := hostPage_inj hp; decide
theorem axGearRelease : ∀ a, Statement (.axGearRelease a) := by
  intro a h p0 o0 _ hp
  obtain ⟨rfl, rfl, -⟩ := hostPage_inj hp; decide
theorem axSetPos : ∀ a, Statement (.axSetPos a) := by
  intro a h p0 o0 _ hp
  obtain ⟨rfl, rfl, -⟩ := hostPage_inj hp; decide
theorem mtGrpStart : ∀ m, Statement (.mtGrpStart m) := by
  intro m h p0 o0 _ hp
  obtain ⟨rfl, rfl, -⟩ := hostPage_inj hp; decide
theorem mtGrpStop : ∀ m, Statement (.mtGrpStop m) := by
  intro m h p0 o0 _ hp
  obtain ⟨rfl, rfl, -⟩ := hostPage_inj hp; decide
theorem mtGrpGo : ∀ m, Statement (.mtGrpGo m) := by
  intro m h p0 o0 _ hp
  obtain ⟨rfl, rfl, -⟩ := hostPage_inj hp; decide
theorem axisProfileEnd : ∀ a, Statement (.axisProfileEnd a) := fun _ _ _ _ _ h => nomatch h
theorem axisStandstill : ∀ a, Statement (.axisStandstill a) := fun _ _ _ _ _ h => nomatch h
theorem switchDebounced : ∀ a w on, Statement (.switchDebounced a w on) := fun _ _ _ _ _ _ _ h => nomatch h
theorem homeChatter : ∀ a, Statement (.homeChatter a) := fun _ _ _ _ _ h => nomatch h
theorem axisStall : ∀ a, Statement (.axisStall a) := fun _ _ _ _ _ h => nomatch h
theorem encQuadError : ∀ e, Statement (.encQuadError e) := fun _ _ _ _ _ h => nomatch h
theorem encIndex : ∀ e pos ts, Statement (.encIndex e pos ts) := fun _ _ _ _ _ _ _ h => nomatch h
theorem ssiFrame : ∀ e raw good, Statement (.ssiFrame e raw good) := fun _ _ _ _ _ _ _ h => nomatch h
theorem lpNop : ∀ p, Statement (.lpNop p) := by
  intro p h p0 o0 _ hp
  obtain ⟨rfl, rfl, -⟩ := hostPage_inj hp; decide
theorem lpLoad : ∀ p, Statement (.lpLoad p) := by
  intro p h p0 o0 _ hp
  obtain ⟨rfl, rfl, -⟩ := hostPage_inj hp; decide
theorem lpVerifyDone : ∀ p, Statement (.lpVerifyDone p) := fun _ _ _ _ _ h => nomatch h
theorem lpUnload : ∀ p, Statement (.lpUnload p) := by
  intro p h p0 o0 _ hp
  obtain ⟨rfl, rfl, -⟩ := hostPage_inj hp; decide
theorem lpStage : ∀ p, Statement (.lpStage p) := by
  intro p h p0 o0 _ hp
  obtain ⟨rfl, rfl, -⟩ := hostPage_inj hp; decide
theorem lpStageDone : ∀ p, Statement (.lpStageDone p) := fun _ _ _ _ _ h => nomatch h
theorem lpUnstage : ∀ p, Statement (.lpUnstage p) := by
  intro p h p0 o0 _ hp
  obtain ⟨rfl, rfl, -⟩ := hostPage_inj hp; decide
theorem lpChange : ∀ p drop, Statement (.lpChange p drop) := by
  intro p drop h p0 o0 _ hp
  obtain ⟨rfl, rfl, -⟩ := hostPage_inj hp; decide
theorem lpCancel : ∀ p, Statement (.lpCancel p) := by
  intro p h p0 o0 _ hp
  obtain ⟨rfl, rfl, -⟩ := hostPage_inj hp; decide
theorem lpTrig : ∀ p, Statement (.lpTrig p) := by
  intro p h p0 o0 _ hp
  obtain ⟨rfl, rfl, -⟩ := hostPage_inj hp; decide
theorem changePoint : ∀ p, Statement (.changePoint p) := fun _ _ _ _ _ h => nomatch h
theorem forceSet : ∀ p, Statement (.forceSet p) := by
  intro p h p0 o0 _ hp
  obtain ⟨rfl, rfl, -⟩ := hostPage_inj hp; decide
theorem forceRemove : ∀ p, Statement (.forceRemove p) := by
  intro p h p0 o0 _ hp
  obtain ⟨rfl, rfl, -⟩ := hostPage_inj hp; decide
theorem forceClearAll : ∀ p, Statement (.forceClearAll p) := by
  intro p h p0 o0 _ hp
  obtain ⟨rfl, rfl, -⟩ := hostPage_inj hp; decide
theorem taskRelease : ∀ p k, Statement (.taskRelease p k) := fun _ _ _ _ _ _ h => nomatch h
theorem taskDeadline : ∀ p k, Statement (.taskDeadline p k) := fun _ _ _ _ _ _ h => nomatch h
theorem lpVarWrite : ∀ p off val, Statement (.lpVarWrite p off val) := fun _ _ _ _ _ _ _ h => nomatch h
theorem lpMemoryUe : ∀ p off, Statement (.lpMemoryUe p off) := fun _ _ _ _ _ _ h => nomatch h
theorem lgNop : ∀ p, Statement (.lgNop p) := fun _ _ _ _ _ h => nomatch h
theorem lgLd : ∀ p, Statement (.lgLd p) := fun _ _ _ _ _ h => nomatch h
theorem lgLdn : ∀ p, Statement (.lgLdn p) := fun _ _ _ _ _ h => nomatch h
theorem lgAnd : ∀ p, Statement (.lgAnd p) := fun _ _ _ _ _ h => nomatch h
theorem lgAndn : ∀ p, Statement (.lgAndn p) := fun _ _ _ _ _ h => nomatch h
theorem lgOr : ∀ p, Statement (.lgOr p) := fun _ _ _ _ _ h => nomatch h
theorem lgOrn : ∀ p, Statement (.lgOrn p) := fun _ _ _ _ _ h => nomatch h
theorem lgXor : ∀ p, Statement (.lgXor p) := fun _ _ _ _ _ h => nomatch h
theorem lgSt : ∀ p, Statement (.lgSt p) := fun _ _ _ _ _ h => nomatch h
theorem lgStn : ∀ p, Statement (.lgStn p) := fun _ _ _ _ _ h => nomatch h
theorem lgSet : ∀ p, Statement (.lgSet p) := fun _ _ _ _ _ h => nomatch h
theorem lgRst : ∀ p, Statement (.lgRst p) := fun _ _ _ _ _ h => nomatch h
theorem lgAndp : ∀ p, Statement (.lgAndp p) := fun _ _ _ _ _ h => nomatch h
theorem lgOrp : ∀ p, Statement (.lgOrp p) := fun _ _ _ _ _ h => nomatch h
theorem lgXorp : ∀ p, Statement (.lgXorp p) := fun _ _ _ _ _ h => nomatch h
theorem lgPop : ∀ p, Statement (.lgPop p) := fun _ _ _ _ _ h => nomatch h
theorem lgNot : ∀ p, Statement (.lgNot p) := fun _ _ _ _ _ h => nomatch h
theorem lgRed : ∀ p, Statement (.lgRed p) := fun _ _ _ _ _ h => nomatch h
theorem lgFed : ∀ p, Statement (.lgFed p) := fun _ _ _ _ _ h => nomatch h
theorem lgTon : ∀ p, Statement (.lgTon p) := fun _ _ _ _ _ h => nomatch h
theorem lgTof : ∀ p, Statement (.lgTof p) := fun _ _ _ _ _ h => nomatch h
theorem lgTp : ∀ p, Statement (.lgTp p) := fun _ _ _ _ _ h => nomatch h
theorem lgCtu : ∀ p, Statement (.lgCtu p) := fun _ _ _ _ _ h => nomatch h
theorem lgCtd : ∀ p, Statement (.lgCtd p) := fun _ _ _ _ _ h => nomatch h
theorem lgCrs : ∀ p, Statement (.lgCrs p) := fun _ _ _ _ _ h => nomatch h
theorem lgCld : ∀ p, Statement (.lgCld p) := fun _ _ _ _ _ h => nomatch h
theorem lgLpt : ∀ p, Statement (.lgLpt p) := fun _ _ _ _ _ h => nomatch h
theorem lgLpv : ∀ p, Statement (.lgLpv p) := fun _ _ _ _ _ h => nomatch h
theorem lgLdw : ∀ p, Statement (.lgLdw p) := fun _ _ _ _ _ h => nomatch h
theorem lgStw : ∀ p, Statement (.lgStw p) := fun _ _ _ _ _ h => nomatch h
theorem lgStwc : ∀ p, Statement (.lgStwc p) := fun _ _ _ _ _ h => nomatch h
theorem lgAdd : ∀ p, Statement (.lgAdd p) := fun _ _ _ _ _ h => nomatch h
theorem lgSub : ∀ p, Statement (.lgSub p) := fun _ _ _ _ _ h => nomatch h
theorem lgMul : ∀ p, Statement (.lgMul p) := fun _ _ _ _ _ h => nomatch h
theorem lgDiv : ∀ p, Statement (.lgDiv p) := fun _ _ _ _ _ h => nomatch h
theorem lgAndw : ∀ p, Statement (.lgAndw p) := fun _ _ _ _ _ h => nomatch h
theorem lgOrw : ∀ p, Statement (.lgOrw p) := fun _ _ _ _ _ h => nomatch h
theorem lgXorw : ∀ p, Statement (.lgXorw p) := fun _ _ _ _ _ h => nomatch h
theorem lgShl : ∀ p, Statement (.lgShl p) := fun _ _ _ _ _ h => nomatch h
theorem lgShr : ∀ p, Statement (.lgShr p) := fun _ _ _ _ _ h => nomatch h
theorem lgCeq : ∀ p, Statement (.lgCeq p) := fun _ _ _ _ _ h => nomatch h
theorem lgCgt : ∀ p, Statement (.lgCgt p) := fun _ _ _ _ _ h => nomatch h
theorem lgClt : ∀ p, Statement (.lgClt p) := fun _ _ _ _ _ h => nomatch h
theorem lgLdx : ∀ p, Statement (.lgLdx p) := fun _ _ _ _ _ h => nomatch h
theorem lgJmp : ∀ p, Statement (.lgJmp p) := fun _ _ _ _ _ h => nomatch h
theorem lgJc : ∀ p, Statement (.lgJc p) := fun _ _ _ _ _ h => nomatch h
theorem lgJnc : ∀ p, Statement (.lgJnc p) := fun _ _ _ _ _ h => nomatch h
theorem lgTrig : ∀ p, Statement (.lgTrig p) := fun _ _ _ _ _ h => nomatch h
theorem lgEnd : ∀ p, Statement (.lgEnd p) := fun _ _ _ _ _ h => nomatch h
theorem safetyCycle : ∀ so differ, Statement (.safetyCycle so differ) := fun _ _ _ _ _ _ h => nomatch h
theorem safetyStatusCommit : Statement .safetyStatusCommit := fun _ _ _ _ h => nomatch h
theorem safetyContactChange : ∀ i second c, Statement (.safetyContactChange i second c) := fun _ _ _ _ _ _ _ h => nomatch h
theorem discrepancyFault : ∀ i, Statement (.discrepancyFault i) := fun _ _ _ _ _ h => nomatch h
theorem resetJam : ∀ i, Statement (.resetJam i) := fun _ _ _ _ _ h => nomatch h
theorem outputLockout : ∀ o sw, Statement (.outputLockout o sw) := fun _ _ _ _ _ _ h => nomatch h
theorem darkTest : ∀ o sw opened, Statement (.darkTest o sw opened) := fun _ _ _ _ _ _ _ h => nomatch h
theorem offDelayEnd : ∀ k, Statement (.offDelayEnd k) := fun _ _ _ _ _ h => nomatch h
theorem mutingTimeout : ∀ k, Statement (.mutingTimeout k) := fun _ _ _ _ _ h => nomatch h
theorem lockAuxDelayEnd : ∀ k, Statement (.lockAuxDelayEnd k) := fun _ _ _ _ _ h => nomatch h
theorem channelSelfTestFail : ∀ ch, Statement (.channelSelfTestFail ch) := fun _ _ _ _ _ h => nomatch h
theorem safetyClockDeviation : ∀ ch covered, Statement (.safetyClockDeviation ch covered) := fun _ _ _ _ _ _ h => nomatch h
theorem safeFrameReceive : ∀ net bs, Statement (.safeFrameReceive net bs) := fun _ _ _ _ _ _ h => nomatch h
theorem connWatchdog : ∀ c, Statement (.connWatchdog c) := fun _ _ _ _ _ h => nomatch h
theorem networkMissing : ∀ c, Statement (.networkMissing c) := fun _ _ _ _ _ h => nomatch h
theorem degradedTimeout : ∀ c, Statement (.degradedTimeout c) := fun _ _ _ _ _ h => nomatch h
theorem safeImgReceive : ∀ n f img good, Statement (.safeImgReceive n f img good) := fun _ _ _ _ _ _ _ _ h => nomatch h
theorem sfNop : Statement .sfNop := by
  intro h p0 o0 _ hp
  obtain ⟨rfl, rfl, -⟩ := hostPage_inj hp; decide
theorem sfUnlock : Statement .sfUnlock := by
  intro h p0 o0 _ hp
  obtain ⟨rfl, rfl, -⟩ := hostPage_inj hp; decide
theorem sfLock : Statement .sfLock := by
  intro h p0 o0 _ hp
  obtain ⟨rfl, rfl, -⟩ := hostPage_inj hp; decide
theorem sfLoad : Statement .sfLoad := by
  intro h p0 o0 _ hp
  obtain ⟨rfl, rfl, -⟩ := hostPage_inj hp; decide
theorem sfConfirm : Statement .sfConfirm := by
  intro h p0 o0 _ hp
  obtain ⟨rfl, rfl, -⟩ := hostPage_inj hp; decide
theorem sfDiscard : Statement .sfDiscard := by
  intro h p0 o0 _ hp
  obtain ⟨rfl, rfl, -⟩ := hostPage_inj hp; decide
theorem sfSetPw : Statement .sfSetPw := by
  intro h p0 o0 _ hp
  obtain ⟨rfl, rfl, -⟩ := hostPage_inj hp; decide
theorem confirmTimeout : Statement .confirmTimeout := fun _ _ _ _ h => nomatch h
theorem unlockTimeout : Statement .unlockTimeout := fun _ _ _ _ h => nomatch h
theorem beatReceive : ∀ b, Statement (.beatReceive b) := fun _ _ _ _ _ h => nomatch h
theorem lanternFailure : Statement .lanternFailure := fun _ _ _ _ h => nomatch h
theorem inputFrameReceive : ∀ n tt vals, Statement (.inputFrameReceive n tt vals) := fun _ _ _ _ _ _ _ h => nomatch h
theorem plialeFrameReceive : ∀ n seg k bs, Statement (.plialeFrameReceive n seg k bs) := fun _ _ _ _ _ _ _ _ h => nomatch h
theorem writesFrameReceive : ∀ n first ws, Statement (.writesFrameReceive n first ws) := fun _ _ _ _ _ _ _ h => nomatch h
theorem forwardMiss : Statement .forwardMiss := fun _ _ _ _ h => nomatch h
theorem digestReceive : ∀ epoch digest, Statement (.digestReceive epoch digest) := fun _ _ _ _ _ _ h => nomatch h
theorem ctrlFrameReceive : ∀ kind, Statement (.ctrlFrameReceive kind) := fun _ _ _ _ _ h => nomatch h
theorem imageFrameReceive : ∀ p bank typ bs, Statement (.imageFrameReceive p bank typ bs) := fun _ _ _ _ _ _ _ _ h => nomatch h
theorem baseFrameReceive : ∀ chunk ok, Statement (.baseFrameReceive chunk ok) := fun _ _ _ _ _ _ h => nomatch h
theorem baseInstalled : ∀ epoch base, Statement (.baseInstalled epoch base) := fun _ _ _ _ _ _ h => nomatch h
theorem catchupJoined : Statement .catchupJoined := fun _ _ _ _ h => nomatch h
theorem catchupTimeout : Statement .catchupTimeout := fun _ _ _ _ h => nomatch h
theorem timeFrameReceive : ∀ n ns frac, Statement (.timeFrameReceive n ns frac) := fun _ _ _ _ _ _ _ h => nomatch h
theorem laneTrained : ∀ n, Statement (.laneTrained n) := fun _ _ _ _ _ h => nomatch h
theorem laneAuthDone : ∀ n ok same, Statement (.laneAuthDone n ok same) := fun _ _ _ _ _ _ _ h => nomatch h
theorem authRetry : ∀ n, Statement (.authRetry n) := fun _ _ _ _ _ h => nomatch h
theorem twinLaneDown : ∀ n, Statement (.twinLaneDown n) := fun _ _ _ _ _ h => nomatch h
theorem seize : Statement .seize := fun _ _ _ _ h => nomatch h
theorem seizureWon : Statement .seizureWon := fun _ _ _ _ h => nomatch h
theorem seizureLost : Statement .seizureLost := fun _ _ _ _ h => nomatch h
theorem holderDecoded : ∀ code, Statement (.holderDecoded code) := fun _ _ _ _ _ h => nomatch h
theorem holderLost : Statement .holderLost := fun _ _ _ _ h => nomatch h
theorem guylineWireFail : ∀ w, Statement (.guylineWireFail w) := fun _ _ _ _ _ h => nomatch h
theorem guylineWireHealthy : ∀ w, Statement (.guylineWireHealthy w) := fun _ _ _ _ _ h => nomatch h
theorem witnessCheckEnd : Statement .witnessCheckEnd := fun _ _ _ _ h => nomatch h
theorem authDisagree : ∀ a b, Statement (.authDisagree a b) := fun _ _ _ _ _ _ h => nomatch h
theorem twNop : Statement .twNop := by
  intro h p0 o0 _ hp
  obtain ⟨rfl, rfl, -⟩ := hostPage_inj hp; decide
theorem twRelease : Statement .twRelease := by
  intro h p0 o0 _ hp
  obtain ⟨rfl, rfl, -⟩ := hostPage_inj hp; decide
theorem twResync : Statement .twResync := by
  intro h p0 o0 _ hp
  obtain ⟨rfl, rfl, -⟩ := hostPage_inj hp; decide
theorem twClearHalt : Statement .twClearHalt := by
  intro h p0 o0 _ hp
  obtain ⟨rfl, rfl, -⟩ := hostPage_inj hp; decide
theorem twReturnNow : Statement .twReturnNow := by
  intro h p0 o0 _ hp
  obtain ⟨rfl, rfl, -⟩ := hostPage_inj hp; decide
theorem holdoffExpired : Statement .holdoffExpired := fun _ _ _ _ h => nomatch h
theorem handoverStart : Statement .handoverStart := fun _ _ _ _ h => nomatch h
theorem handoverTimeout : Statement .handoverTimeout := fun _ _ _ _ h => nomatch h
theorem glNop : Statement .glNop := by
  intro h p0 o0 _ hp
  obtain ⟨rfl, rfl, -⟩ := hostPage_inj hp; decide
theorem glForceSeize : ∀ key, Statement (.glForceSeize key) := by
  intro key h p0 o0 _ hp
  obtain ⟨rfl, rfl, -⟩ := hostPage_inj hp; decide
theorem glRetest : ∀ a b, Statement (.glRetest a b) := by
  intro a b h p0 o0 _ hp
  obtain ⟨rfl, rfl, -⟩ := hostPage_inj hp; decide
theorem warmReset : ∀ src, Statement (.warmReset src) := fun _ _ _ _ _ h => nomatch h
theorem coldReset : ∀ src, Statement (.coldReset src) := fun _ _ _ _ _ h => nomatch h
theorem supervisorWatchdog : Statement .supervisorWatchdog := fun _ _ _ _ h => nomatch h
theorem servicePortReset : Statement .servicePortReset := fun _ _ _ _ h => nomatch h
theorem vinRise : ∀ ka, Statement (.vinRise ka) := fun _ _ _ _ _ h => nomatch h
theorem bootComplete : ∀ env, Statement (.bootComplete env) := fun _ _ _ _ _ h => nomatch h
theorem powerFailure : Statement .powerFailure := fun _ _ _ _ h => nomatch h
theorem finalCommitDone : Statement .finalCommitDone := fun _ _ _ _ h => nomatch h
theorem brownout : Statement .brownout := fun _ _ _ _ h => nomatch h
theorem holdupSpent : Statement .holdupSpent := fun _ _ _ _ h => nomatch h
theorem holdupOkSet : Statement .holdupOkSet := fun _ _ _ _ h => nomatch h
theorem holdupLow : Statement .holdupLow := fun _ _ _ _ h => nomatch h
theorem outputHoldExpired : Statement .outputHoldExpired := fun _ _ _ _ h => nomatch h
theorem journalEpoch : Statement .journalEpoch := fun _ _ _ _ h => nomatch h
theorem journalCommit : Statement .journalCommit := fun _ _ _ _ h => nomatch h
theorem sbNop : Statement .sbNop := by
  intro h p0 o0 _ hp
  obtain ⟨rfl, rfl, -⟩ := hostPage_inj hp; decide
theorem forceCold : Statement .forceCold := by
  intro h p0 o0 _ hp
  obtain ⟨rfl, rfl, -⟩ := hostPage_inj hp; decide
theorem cancelCold : Statement .cancelCold := by
  intro h p0 o0 _ hp
  obtain ⟨rfl, rfl, -⟩ := hostPage_inj hp; decide
theorem plNop : ∀ seg, Statement (.plNop seg) := by
  intro seg h p0 o0 _ hp
  obtain ⟨rfl, rfl, -⟩ := hostPage_inj hp; decide
theorem plLoad : ∀ seg, Statement (.plLoad seg) := by
  intro seg h p0 o0 _ hp
  obtain ⟨rfl, rfl, -⟩ := hostPage_inj hp; decide
theorem plVerifyDone : ∀ seg, Statement (.plVerifyDone seg) := fun _ _ _ _ _ h => nomatch h
theorem plUnload : ∀ seg, Statement (.plUnload seg) := by
  intro seg h p0 o0 _ hp
  obtain ⟨rfl, rfl, -⟩ := hostPage_inj hp; decide
theorem plStart : ∀ seg, Statement (.plStart seg) := by
  intro seg h p0 o0 _ hp
  obtain ⟨rfl, rfl, -⟩ := hostPage_inj hp; decide
theorem plStop : ∀ seg, Statement (.plStop seg) := by
  intro seg h p0 o0 _ hp
  obtain ⟨rfl, rfl, -⟩ := hostPage_inj hp; decide
theorem plLcmdNop : ∀ seg, Statement (.plLcmdNop seg) := by
  intro seg h p0 o0 _ hp
  obtain ⟨rfl, rfl, -⟩ := hostPage_inj hp; decide
theorem plRestart : ∀ seg, Statement (.plRestart seg) := by
  intro seg h p0 o0 _ hp
  obtain ⟨rfl, rfl, -⟩ := hostPage_inj hp; decide
theorem plAcyc : ∀ seg, Statement (.plAcyc seg) := by
  intro seg h p0 o0 _ hp
  obtain ⟨rfl, rfl, -⟩ := hostPage_inj hp; decide
theorem plResync : ∀ seg k, Statement (.plResync seg k) := by
  intro seg k h p0 o0 _ hp
  obtain ⟨rfl, rfl, -⟩ := hostPage_inj hp; decide
theorem plialeCycleStart : ∀ seg, Statement (.plialeCycleStart seg) := fun _ _ _ _ _ h => nomatch h
theorem pollSend : ∀ seg k, Statement (.pollSend seg k) := fun _ _ _ _ _ _ h => nomatch h
theorem replyReceive : ∀ seg j good bs, Statement (.replyReceive seg j good bs) := fun _ _ _ _ _ _ _ _ h => nomatch h
theorem acycWindowEnd : ∀ seg, Statement (.acycWindowEnd seg) := fun _ _ _ _ _ h => nomatch h
theorem measRspReceive : ∀ seg k dt, Statement (.measRspReceive seg k dt) := fun _ _ _ _ _ _ _ h => nomatch h
theorem acycRspReceive : ∀ seg ofs good bs, Statement (.acycRspReceive seg ofs good bs) := fun _ _ _ _ _ _ _ _ h => nomatch h
theorem acycResponseTimeout : ∀ seg, Statement (.acycResponseTimeout seg) := fun _ _ _ _ _ h => nomatch h
theorem foreignSync : ∀ seg, Statement (.foreignSync seg) := fun _ _ _ _ _ h => nomatch h
theorem plCollision : ∀ seg sync k, Statement (.plCollision seg sync k) := fun _ _ _ _ _ _ _ h => nomatch h
theorem lineActivity : ∀ seg, Statement (.lineActivity seg) := fun _ _ _ _ _ h => nomatch h
theorem listenSilenceExpired : ∀ seg, Statement (.listenSilenceExpired seg) := fun _ _ _ _ _ h => nomatch h
theorem plSchedUe : ∀ seg, Statement (.plSchedUe seg) := fun _ _ _ _ _ h => nomatch h
theorem cxNop : ∀ x, Statement (.cxNop x) := by
  intro x h p0 o0 _ hp
  obtain ⟨rfl, rfl, -⟩ := hostPage_inj hp; decide
theorem cxStart : ∀ x, Statement (.cxStart x) := by
  intro x h p0 o0 _ hp
  obtain ⟨rfl, rfl, -⟩ := hostPage_inj hp; decide
theorem cxStop : ∀ x, Statement (.cxStop x) := by
  intro x h p0 o0 _ hp
  obtain ⟨rfl, rfl, -⟩ := hostPage_inj hp; decide
theorem cxRecover : ∀ x, Statement (.cxRecover x) := by
  intro x h p0 o0 _ hp
  obtain ⟨rfl, rfl, -⟩ := hostPage_inj hp; decide
theorem cxFlush : ∀ x q, Statement (.cxFlush x q) := by
  intro x q h p0 o0 _ hp
  obtain ⟨rfl, rfl, -⟩ := hostPage_inj hp; decide
theorem cxTxPost : ∀ x q val, Statement (.cxTxPost x q val) := by
  intro x q val h p0 o0 _ hp
  obtain ⟨rfl, rfl, -⟩ := hostPage_inj hp
  simp only [Instr.wf, Bool.and_eq_true, decide_eq_true_eq] at h; omega
theorem cxTxStart : ∀ x, Statement (.cxTxStart x) := fun _ _ _ _ _ h => nomatch h
theorem cxTxComplete : ∀ x code, Statement (.cxTxComplete x code) := fun _ _ _ _ _ _ h => nomatch h
theorem cxRxFrame : ∀ x fr, Statement (.cxRxFrame x fr) := fun _ _ _ _ _ _ h => nomatch h
theorem cxBusError : ∀ x eight, Statement (.cxBusError x eight) := fun _ _ _ _ _ _ h => nomatch h
theorem cxRqAck : ∀ x r val, Statement (.cxRqAck x r val) := by
  intro x r val h p0 o0 _ hp
  obtain ⟨rfl, rfl, -⟩ := hostPage_inj hp
  simp only [Instr.wf, Bool.and_eq_true, decide_eq_true_eq] at h; omega
theorem cxIntegrated : ∀ x, Statement (.cxIntegrated x) := fun _ _ _ _ _ h => nomatch h
theorem cxRecovered : ∀ x, Statement (.cxRecovered x) := fun _ _ _ _ _ h => nomatch h
theorem tbNop : Statement .tbNop := by
  intro h p0 o0 _ hp
  obtain ⟨rfl, rfl, -⟩ := hostPage_inj hp; decide
theorem tbSet : Statement .tbSet := by
  intro h p0 o0 _ hp
  obtain ⟨rfl, rfl, -⟩ := hostPage_inj hp; decide
theorem tbIncWrite : ∀ val, Statement (.tbIncWrite val) := by
  intro val h p0 o0 _ hp
  obtain ⟨rfl, rfl, -⟩ := hostPage_inj hp; decide
theorem tbSelWrite : ∀ val, Statement (.tbSelWrite val) := by
  intro val h p0 o0 _ hp
  obtain ⟨rfl, rfl, -⟩ := hostPage_inj hp; decide
theorem ptpEventFrame : ∀ e tx seq typ dn, Statement (.ptpEventFrame e tx seq typ dn) := fun _ _ _ _ _ _ _ _ _ h => nomatch h
theorem ptpMessageReceive : ∀ k m, Statement (.ptpMessageReceive k m) := fun _ _ _ _ _ _ h => nomatch h
theorem announceTimeout : ∀ k, Statement (.announceTimeout k) := fun _ _ _ _ _ h => nomatch h
theorem syncTimeout : ∀ k, Statement (.syncTimeout k) := fun _ _ _ _ _ h => nomatch h
theorem domainAutoSwitch : Statement .domainAutoSwitch := fun _ _ _ _ h => nomatch h
theorem slewDone : Statement .slewDone := fun _ _ _ _ h => nomatch h
theorem ethTxPost : ∀ e q val, Statement (.ethTxPost e q val) := by
  intro e q val h p0 o0 _ hp
  obtain ⟨rfl, rfl, -⟩ := hostPage_inj hp
  simp only [Instr.wf, Bool.and_eq_true, decide_eq_true_eq] at h; omega
theorem ethTxComplete : ∀ e q overrun, Statement (.ethTxComplete e q overrun) := fun _ _ _ _ _ _ _ h => nomatch h
theorem ethRxFrame : ∀ e bs bad, Statement (.ethRxFrame e bs bad) := fun _ _ _ _ _ _ _ h => nomatch h
theorem ethRqAck : ∀ e r val, Statement (.ethRqAck e r val) := by
  intro e r val h p0 o0 _ hp
  obtain ⟨rfl, rfl, -⟩ := hostPage_inj hp
  simp only [Instr.wf, Bool.and_eq_true, decide_eq_true_eq] at h; omega
theorem ethGclCommit : ∀ e, Statement (.ethGclCommit e) := by
  intro e h p0 o0 _ hp
  obtain ⟨rfl, rfl, -⟩ := hostPage_inj hp; decide
theorem gclCycleStart : ∀ e, Statement (.gclCycleStart e) := fun _ _ _ _ _ h => nomatch h
theorem gclEntryChange : ∀ e, Statement (.gclEntryChange e) := fun _ _ _ _ _ h => nomatch h
theorem ethLinkChange : ∀ e speed, Statement (.ethLinkChange e speed) := fun _ _ _ _ _ _ h => nomatch h
theorem cbStreamReset : ∀ e i, Statement (.cbStreamReset e i) := fun _ _ _ _ _ _ h => nomatch h
theorem daybookReport : ∀ typ src pay, Statement (.daybookReport typ src pay) := fun _ _ _ _ _ _ _ h => nomatch h
theorem recordCommit : Statement .recordCommit := fun _ _ _ _ h => nomatch h
theorem tokenGain : ∀ src, Statement (.tokenGain src) := fun _ _ _ _ _ h => nomatch h
theorem dbNop : Statement .dbNop := by
  intro h p0 o0 _ hp
  obtain ⟨rfl, rfl, -⟩ := hostPage_inj hp; decide
theorem dbClear : Statement .dbClear := by
  intro h p0 o0 _ hp
  obtain ⟨rfl, rfl, -⟩ := hostPage_inj hp; decide
theorem clearExecute : Statement .clearExecute := fun _ _ _ _ h => nomatch h
theorem dbAppPut : ∀ who, Statement (.dbAppPut who) := by
  intro who h p0 o0 _ hp
  obtain ⟨rfl, rfl, -⟩ := hostPage_inj hp; decide
theorem trNop : Statement .trNop := by
  intro h p0 o0 _ hp
  obtain ⟨rfl, rfl, -⟩ := hostPage_inj hp; decide
theorem trStart : Statement .trStart := by
  intro h p0 o0 _ hp
  obtain ⟨rfl, rfl, -⟩ := hostPage_inj hp; decide
theorem trStop : Statement .trStop := by
  intro h p0 o0 _ hp
  obtain ⟨rfl, rfl, -⟩ := hostPage_inj hp; decide
theorem trTrigger : Statement .trTrigger := by
  intro h p0 o0 _ hp
  obtain ⟨rfl, rfl, -⟩ := hostPage_inj hp; decide
theorem trUnfreeze : Statement .trUnfreeze := by
  intro h p0 o0 _ hp
  obtain ⟨rfl, rfl, -⟩ := hostPage_inj hp; decide
theorem trXfer : Statement .trXfer := by
  intro h p0 o0 _ hp
  obtain ⟨rfl, rfl, -⟩ := hostPage_inj hp; decide
theorem xferDone : Statement .xferDone := fun _ _ _ _ h => nomatch h
theorem trResetRing : Statement .trResetRing := by
  intro h p0 o0 _ hp
  obtain ⟨rfl, rfl, -⟩ := hostPage_inj hp; decide
theorem freezeEnd : Statement .freezeEnd := fun _ _ _ _ h => nomatch h
theorem trRelease : ∀ val, Statement (.trRelease val) := by
  intro val h p0 o0 _ hp
  obtain ⟨rfl, rfl, -⟩ := hostPage_inj hp; decide
theorem trDmaCopy : ∀ n, Statement (.trDmaCopy n) := fun _ _ _ _ _ h => nomatch h
theorem yield : ∀ c, Statement (.yield c) := fun _ _ _ _ _ h => nomatch h
theorem block : ∀ c, Statement (.block c) := fun _ _ _ _ _ h => nomatch h
theorem exit : ∀ c, Statement (.exit c) := fun _ _ _ _ _ h => nomatch h
theorem dispatch : ∀ c, Statement (.dispatch c) := fun _ _ _ _ _ h => nomatch h
theorem wake : ∀ c t, Statement (.wake c t) := fun _ _ _ _ _ _ h => nomatch h
theorem create : ∀ c t, Statement (.create c t) := fun _ _ _ _ _ _ h => nomatch h
theorem suspend : ∀ c t, Statement (.suspend c t) := fun _ _ _ _ _ _ h => nomatch h
theorem resume : ∀ c t, Statement (.resume c t) := fun _ _ _ _ _ _ h => nomatch h
theorem destroy : ∀ c t, Statement (.destroy c t) := fun _ _ _ _ _ _ h => nomatch h
theorem wakeToken : Statement .wakeToken := fun _ _ _ _ h => nomatch h
theorem patienceExpired : ∀ t, Statement (.patienceExpired t) := fun _ _ _ _ _ h => nomatch h
theorem descriptorWrite : ∀ t w val, Statement (.descriptorWrite t w val) := by
  intro t w val h p0 o0 _ hp
  obtain ⟨rfl, rfl, -⟩ := hostPage_inj hp
  simp only [Instr.wf, Bool.and_eq_true, decide_eq_true_eq] at h; omega
theorem coreWatchdog : ∀ c, Statement (.coreWatchdog c) := fun _ _ _ _ _ h => nomatch h
theorem coreFault : ∀ c, Statement (.coreFault c) := fun _ _ _ _ _ h => nomatch h
theorem coreNop : ∀ c, Statement (.coreNop c) := by
  intro c h p0 o0 _ hp
  obtain ⟨rfl, rfl, -⟩ := hostPage_inj hp; decide
theorem coreReset : ∀ c, Statement (.coreReset c) := by
  intro c h p0 o0 _ hp
  obtain ⟨rfl, rfl, -⟩ := hostPage_inj hp; decide
theorem coreHalt : ∀ c, Statement (.coreHalt c) := by
  intro c h p0 o0 _ hp
  obtain ⟨rfl, rfl, -⟩ := hostPage_inj hp; decide
theorem coreStart : ∀ c, Statement (.coreStart c) := by
  intro c h p0 o0 _ hp
  obtain ⟨rfl, rfl, -⟩ := hostPage_inj hp; decide
theorem tallyUe : Statement .tallyUe := fun _ _ _ _ h => nomatch h
theorem mbPowerRequest : ∀ b val, Statement (.mbPowerRequest b val) := by
  intro b val h p0 o0 _ hp
  obtain ⟨rfl, rfl, -⟩ := hostPage_inj hp; decide
theorem mbPowerDone : ∀ b, Statement (.mbPowerDone b) := fun _ _ _ _ _ h => nomatch h
theorem sramCe : ∀ addr, Statement (.sramCe addr) := fun _ _ _ _ _ h => nomatch h
theorem sramUe : ∀ addr, Statement (.sramUe addr) := fun _ _ _ _ _ h => nomatch h
theorem tinkerRowTest : Statement .tinkerRowTest := fun _ _ _ _ h => nomatch h
theorem tinkerRowDone : ∀ failed, Statement (.tinkerRowDone failed) := fun _ _ _ _ _ h => nomatch h
theorem tkNop : Statement .tkNop := by
  intro h p0 o0 _ hp
  obtain ⟨rfl, rfl, -⟩ := hostPage_inj hp; decide
theorem testRow : ∀ b row, Statement (.testRow b row) := by
  intro b row h p0 o0 _ hp
  obtain ⟨rfl, rfl, -⟩ := hostPage_inj hp; decide
theorem restartPass : Statement .restartPass := by
  intro h p0 o0 _ hp
  obtain ⟨rfl, rfl, -⟩ := hostPage_inj hp; decide
theorem tinkerBufferUe : ∀ mask, Statement (.tinkerBufferUe mask) := fun _ _ _ _ _ h => nomatch h
theorem nvWrite : ∀ off bs, Statement (.nvWrite off bs) := fun _ _ _ _ _ _ h => nomatch h
theorem nvLineWrite : ∀ line, Statement (.nvLineWrite line) := fun _ _ _ _ _ h => nomatch h
theorem idNop : Statement .idNop := by
  intro h p0 o0 _ hp
  obtain ⟨rfl, rfl, -⟩ := hostPage_inj hp; decide
theorem attest : Statement .attest := by
  intro h p0 o0 _ hp
  obtain ⟨rfl, rfl, -⟩ := hostPage_inj hp; decide
theorem attestDone : Statement .attestDone := fun _ _ _ _ h => nomatch h
theorem ownerSet : Statement .ownerSet := by
  intro h p0 o0 _ hp
  obtain ⟨rfl, rfl, -⟩ := hostPage_inj hp; decide
theorem keyAdd : ∀ k, Statement (.keyAdd k) := by
  intro k h p0 o0 _ hp
  obtain ⟨rfl, rfl, -⟩ := hostPage_inj hp; decide
theorem keyDel : ∀ k, Statement (.keyDel k) := by
  intro k h p0 o0 _ hp
  obtain ⟨rfl, rfl, -⟩ := hostPage_inj hp; decide
theorem pwrNop : Statement .pwrNop := by
  intro h p0 o0 _ hp
  obtain ⟨rfl, rfl, -⟩ := hostPage_inj hp; decide
theorem pwrWarm : ∀ key, Statement (.pwrWarm key) := by
  intro key h p0 o0 _ hp
  obtain ⟨rfl, rfl, -⟩ := hostPage_inj hp; decide
theorem pwrCold : ∀ key, Statement (.pwrCold key) := by
  intro key h p0 o0 _ hp
  obtain ⟨rfl, rfl, -⟩ := hostPage_inj hp; decide
theorem pwrInstall : Statement .pwrInstall := by
  intro h p0 o0 _ hp
  obtain ⟨rfl, rfl, -⟩ := hostPage_inj hp; decide
theorem installDone : ∀ bs readOk, Statement (.installDone bs readOk) := fun _ _ _ _ _ _ h => nomatch h
theorem kaStoreLost : Statement .kaStoreLost := fun _ _ _ _ h => nomatch h
theorem keepalivePersist : Statement .keepalivePersist := fun _ _ _ _ h => nomatch h
theorem insertion : Statement .insertion := fun _ _ _ _ h => nomatch h
theorem removal : Statement .removal := fun _ _ _ _ h => nomatch h
theorem healthSample : ∀ smp, Statement (.healthSample smp) := fun _ _ _ _ _ h => nomatch h
theorem holdupMeasure : ∀ esr cap energy, Statement (.holdupMeasure esr cap energy) := fun _ _ _ _ _ _ _ h => nomatch h
theorem eolUpdate : ∀ smp, Statement (.eolUpdate smp) := fun _ _ _ _ _ h => nomatch h
theorem wearLedgerSave : Statement .wearLedgerSave := fun _ _ _ _ h => nomatch h
theorem wlNop : Statement .wlNop := by
  intro h p0 o0 _ hp
  obtain ⟨rfl, rfl, -⟩ := hostPage_inj hp; decide
theorem wlSet : Statement .wlSet := by
  intro h p0 o0 _ hp
  obtain ⟨rfl, rfl, -⟩ := hostPage_inj hp; decide
theorem wlClearCount : Statement .wlClearCount := by
  intro h p0 o0 _ hp
  obtain ⟨rfl, rfl, -⟩ := hostPage_inj hp; decide
theorem vfldLow : ∀ mv, Statement (.vfldLow mv) := fun _ _ _ _ _ h => nomatch h
theorem vfldRestored : ∀ mv, Statement (.vfldRestored mv) := fun _ _ _ _ _ h => nomatch h
theorem acyclicWindowStart : ∀ seg, Statement (.acyclicWindowStart seg) := fun _ _ _ _ _ h => nomatch h
theorem trimSlewDone : Statement .trimSlewDone := fun _ _ _ _ h => nomatch h
theorem vinLow : ∀ low, Statement (.vinLow low) := fun _ _ _ _ _ h => nomatch h
theorem offBankAccess : ∀ addr, Statement (.offBankAccess addr) := fun _ _ _ _ _ h => nomatch h
theorem d3hotTransition : ∀ on, Statement (.d3hotTransition on) := fun _ _ _ _ _ h => nomatch h
theorem scratchpadCe : ∀ p, Statement (.scratchpadCe p) := fun _ _ _ _ _ h => nomatch h

end Sys2Proof.Laws.Spelled
end

