-- ==== Sys2Proof/Laws/Ports.lean ====
section
/-! SUPPORT. What the operations of one Ethernet port leave alone, and what its completions and deliveries do (R370). -/

namespace Sys2Proof.Machine

/-- No register of a list lays out a ring of port n. -/
def noEthConf (n : Nat) (as : List Nat) : Prop := ∀ q, q < 4 → ETH_TQ_BASE n q ∉ as ∧ ETH_TQ_CFG n q ∉ as ∧ ETH_RQ_BASE n q ∉ as

theorem inEthRings_congr {n : Nat} {d e : Dev} (h : ∀ q, q < 4 → rd e (ETH_TQ_BASE n q) = rd d (ETH_TQ_BASE n q) ∧ rd e (ETH_TQ_CFG n q) = rd d (ETH_TQ_CFG n q) ∧ rd e (ETH_RQ_BASE n q) = rd d (ETH_RQ_BASE n q)) (a : Nat) :
    inEthRings e n a ↔ inEthRings d n a := by
  unfold inEthRings etqLen rdN
  constructor
  · rintro (⟨q, hq, h1⟩ | ⟨q, hq, h1⟩)
    · rw [(h q hq).1, (h q hq).2.1] at h1; exact Or.inl ⟨q, hq, h1⟩
    · rw [(h q hq).2.2] at h1; exact Or.inr ⟨q, hq, h1⟩
  · rintro (⟨q, hq, h1⟩ | ⟨q, hq, h1⟩)
    · rw [← (h q hq).1, ← (h q hq).2.1] at h1; exact Or.inl ⟨q, hq, h1⟩
    · rw [← (h q hq).2.2] at h1; exact Or.inr ⟨q, hq, h1⟩
theorem OnlyEth.conf {n : Nat} {as : List Nat} {d e : Dev} (h : OnlyEth n as d e) (hn : noEthConf n as) :
    ∀ q, q < 4 → rd e (ETH_TQ_BASE n q) = rd d (ETH_TQ_BASE n q) ∧ rd e (ETH_TQ_CFG n q) = rd d (ETH_TQ_CFG n q) ∧ rd e (ETH_RQ_BASE n q) = rd d (ETH_RQ_BASE n q) := by
  intro q hq
  obtain ⟨n1, n2, n3⟩ := hn q hq
  exact ⟨h.2.2.1 _ n1, h.2.2.1 _ n2, h.2.2.1 _ n3⟩
theorem OnlyEth.refl (n : Nat) (as : List Nat) (d : Dev) : OnlyEth n as d d := ⟨rfl, fun _ _ => rfl, fun _ _ => rfl, fun _ _ => rfl⟩
theorem OnlyEth.mono {n : Nat} {as bs : List Nat} {d e : Dev} (h : OnlyEth n as d e) (hb : ∀ a, a ∈ as → a ∈ bs) : OnlyEth n bs d e :=
  ⟨h.1, h.2.1, fun a ha => h.2.2.1 a (fun hm => ha (hb a hm)), h.2.2.2⟩
theorem OnlyEth.trans {n : Nat} {as bs : List Nat} {d e f : Dev} (hn : noEthConf n as) (h : OnlyEth n as d e) (g : OnlyEth n bs e f) : OnlyEth n (as ++ bs) d f := by
  have hc := inEthRings_congr (h.conf hn)
  obtain ⟨h1, h2, h3, h4⟩ := h
  obtain ⟨g1, g2, g3, g4⟩ := g
  refine ⟨?_, fun y hy => (g2 y hy).trans (h2 y hy), fun a ha => ?_, fun a ha => (g4 a (by rw [hc]; exact ha)).trans (h4 a ha)⟩
  · rw [h1] at g1; rw [g1]
  · rw [List.mem_append, not_or] at ha; exact (g3 a ha.2).trans (h3 a ha.1)
theorem noEthConf_nil (n : Nat) : noEthConf n [] := fun q _ => by simp
theorem noEthConf_done (n q : Nat) : noEthConf n [ETH_TQ_DONE n q] := by
  intro p _; unfold ETH_TQ_BASE ETH_TQ_CFG ETH_RQ_BASE ETH_TQ_DONE; simp; omega
theorem onlyEth_wr (n : Nat) (d : Dev) (a : Nat) (v : W32) : OnlyEth n [a] d (wr d a v) :=
  ⟨rfl, fun _ _ => ethOf_wr _ _ _ _, fun b hb => rd_wr_ne _ _ (by simpa using hb), fun _ _ => rfl⟩
theorem onlyEth_bump (n : Nat) (d : Dev) (a : Nat) : OnlyEth n [a] d (bump d a) := onlyEth_wr _ _ _ _
theorem onlyEth_setEth (n : Nat) (as : List Nat) (d : Dev) (x : Eth) : OnlyEth n as d (setEth d n x) :=
  ⟨rfl, fun _ hy => ethOf_setEth_ne _ _ hy, fun _ _ => rd_setEth _ _ _ _, fun _ _ => rfl⟩
/-- Bytes put into a ring. -/
theorem onlyEth_sramPut (n : Nat) (as : List Nat) (d : Dev) (a : Nat) (bs : List W8) (h : ∀ b, a ≤ b → b < a + bs.length → inEthRings d n b) : OnlyEth n as d (sramPut d a bs) := by
  unfold sramPut
  split
  · refine ⟨rfl, fun _ _ => rfl, fun b _ => rd_congr rfl b, fun b hb => ?_⟩
    refine mrd_mput_out _ _ _ _ ?_
    by_cases h1 : b < a
    · exact Or.inl h1
    · right; by_contra h2; exact hb (h b (by omega) (by omega))
  · exact OnlyEth.refl _ _ _
theorem ethOf_sramPut (d : Dev) (a : Nat) (bs : List W8) (n : Nat) : ethOf (sramPut d a bs) n = ethOf d n := by unfold sramPut; split <;> rfl
/-- A number put reads back where the range is served. -/
theorem sramNum_put (d : Dev) (a n v : Nat) (h : a + n ≤ sramSize ∧ rangeOn d a n = true) : sramNum (sramPut d a (leBytes n v)) a n = v % 256 ^ n := by
  unfold sramNum mnum mbytes sramPut
  rw [if_pos (by rw [leBytes_length]; exact h)]
  have : (List.range n).map (fun i => mrd (mput d.sram a (leBytes n v)) (a + i)) = leBytes n v := by
    apply List.ext_getElem
    · simp [leBytes_length]
    · intro i h1 h2
      rw [List.getElem_map, List.getElem_range, mrd_mput_in _ _ _ _ h2, List.getD_eq_getElem _ _ h2]
  dsimp only
  rw [this, leNat_leBytes]
theorem rangeOn_sub (d : Dev) {a n b k : Nat} (h : rangeOn d a n = true) (h1 : a ≤ b) (h2 : b + k ≤ a + n) (hk : 0 < k) : rangeOn d b k = true := by
  unfold rangeOn at *
  simp only [List.all_eq_true, List.mem_range] at *
  intro i hi
  have m1 : segOf d a ≤ segOf d b := Nat.div_le_div_right h1
  have m2 : segOf d (b + k - 1) ≤ segOf d (a + n - 1) := Nat.div_le_div_right (by omega)
  have m3 : segOf d b ≤ segOf d (b + k - 1) := Nat.div_le_div_right (by omega)
  have := h (segOf d b - segOf d a + i) (by omega)
  rw [show segOf d a + (segOf d b - segOf d a + i) = segOf d b + i by omega] at this
  exact this
theorem etqLen_lt (d : Dev) (n q : Nat) : etqLen d n q < 512 := by unfold etqLen; rw [fld_eq]; exact Nat.mod_lt _ (by decide)
theorem etqOut_len (d : Dev) (n q : Nat) : etqOut d n q ≤ etqLen d n q := by unfold etqOut; simp only; split <;> omega

/-- One completion: DONE, and the status of the head entry. -/
theorem etqFinish_facts (d : Dev) (n q st : Nat) (hq : q < 4) (hl : 0 < etqLen d n q) :
    OnlyEth n [ETH_TQ_DONE n q] d (etqFinish d n q st) ∧ ethOf (etqFinish d n q st) n = ethOf d n ∧ rd (etqFinish d n q st) (ETH_TQ_DONE n q) = rd d (ETH_TQ_DONE n q) + 1 := by
  have hring : ∀ b, etqHead d n q + 4 ≤ b → b < etqHead d n q + 4 + (leBytes 2 st).length → inEthRings d n b := by
    intro b h1 h2
    rw [leBytes_length] at h2
    unfold etqHead at h1 h2
    refine Or.inl ⟨q, hq, by omega, ?_⟩
    have h3 : rdN d (ETH_TQ_DONE n q) % etqLen d n q + 1 ≤ etqLen d n q := Nat.mod_lt _ hl
    have h4 : (rdN d (ETH_TQ_DONE n q) % etqLen d n q + 1) * 2048 ≤ etqLen d n q * 2048 := Nat.mul_le_mul_right _ h3
    rw [Nat.add_mul] at h4
    omega
  unfold etqFinish
  refine ⟨(onlyEth_sramPut n [] d _ _ hring).trans (noEthConf_nil n) (onlyEth_bump n _ _), by rw [ethOf_bump, ethOf_sramPut], by rw [rd_bump_same, rd_sramPut]⟩
theorem etqDrain_zero {n q f : Nat} {d : Dev} (h : etqOut d n q = 0) : etqDrain n q (f + 1) d = d := by rw [etqDrain, etqStep, if_pos h]
theorem etqDrain_none {n q f : Nat} {d : Dev} (h : ¬etqOut d n q = 0) (h2 : etqDead d n q = none) : etqDrain n q (f + 1) d = d := by rw [etqDrain, etqStep, if_neg h, h2]; rfl
theorem etqDrain_some {n q f st : Nat} {d : Dev} (h : ¬etqOut d n q = 0) (h2 : etqDead d n q = some st) : etqDrain n q (f + 1) d = etqDrain n q f (etqFinish d n q st) := by
  rw [etqDrain, etqStep, if_neg h, h2]; rfl
/-- What completes at once at the head of a ring. -/
theorem etqDrain_facts (n q : Nat) (hq : q < 4) : ∀ f d, OnlyEth n [ETH_TQ_DONE n q] d (etqDrain n q f d) ∧ ethOf (etqDrain n q f d) n = ethOf d n
    ∧ ∃ k, k ≤ f ∧ rd (etqDrain n q f d) (ETH_TQ_DONE n q) = rd d (ETH_TQ_DONE n q) + w32 k ∧ (etqOut (etqDrain n q f d) n q = 0 ∨ etqDead (etqDrain n q f d) n q = none ∨ k = f)
  | 0, d => ⟨OnlyEth.refl _ _ _, rfl, 0, Nat.le_refl _, (w32_zero_add _).symm, Or.inr (Or.inr rfl)⟩
  | f + 1, d => by
    by_cases h1 : etqOut d n q = 0
    · rw [etqDrain_zero h1]; exact ⟨OnlyEth.refl _ _ _, rfl, 0, Nat.zero_le _, (w32_zero_add _).symm, Or.inl h1⟩
    · rcases h2 : etqDead d n q with _ | st
      · rw [etqDrain_none h1 h2]; exact ⟨OnlyEth.refl _ _ _, rfl, 0, Nat.zero_le _, (w32_zero_add _).symm, Or.inr (Or.inl h2)⟩
      · rw [etqDrain_some h1 h2]
        obtain ⟨f1, f2, f3⟩ := etqFinish_facts d n q st hq (by have := etqOut_len d n q; omega)
        obtain ⟨e, he⟩ : ∃ e, e = etqFinish d n q st := ⟨_, rfl⟩
        rw [← he] at f1 f2 f3 ⊢
        clear he
        obtain ⟨g1, g2, k, g3, g4, g5⟩ := etqDrain_facts n q hq f e
        exact ⟨(f1.trans (noEthConf_done n q) g1).mono (by simp), g2.trans f2, k + 1, by omega, by rw [g4, f3, w32_succ, BitVec.add_assoc], g5.imp_right (Or.imp_right (fun h => by rw [h]))⟩
theorem etqDrain_drained (n q : Nat) (hq : q < 4) (d : Dev) : EthDrained n q d (etqDrain n q 256 d) := by
  obtain ⟨f, hf⟩ : ∃ f, f = 256 := ⟨_, rfl⟩
  rw [← hf]
  obtain ⟨g1, g2, k, _, g4, g5⟩ := etqDrain_facts n q hq f d
  exact ⟨g1, g2, k, g4, g5.imp_right (Or.imp_right (fun h => h.trans hf))⟩

end Sys2Proof.Machine
end

