-- ==== Sys2Proof/Laws/Shape.lean ====
section
/-! SUPPORT. The shape of every meaning: an effect on the device, or for three commands one that reaches the vault too; and what
a command of a page does where it is turned away. One line a command. -/

namespace Sys2Proof.Machine

/-- Every meaning but three is an effect on the device under its operands' check. -/
theorem exec_shape (c : Instr) (s : State) : (∃ f, exec c s = onDev c.wf f s) ∨ (c = .recordCommit ∧ exec c s = onVault true recordCommit s)
    ∨ (c = .clearExecute ∧ exec c s = onVault true clearExecute s) ∨ ∃ env, c = .bootComplete env ∧ exec c s = onVault true (fun v d => bootComplete v d env) s := by
  cases c with
  | basePeriod env => exact .inl ⟨_, by unfold exec execBasePeriod Instr.wf; rfl⟩
  | scratchpadUe p off => exact .inl ⟨_, by unfold exec execScratchpadUe Instr.wf; rfl⟩
  | sigWindowWrite n val => exact .inl ⟨_, by unfold exec execSigWindowWrite Instr.wf; rfl⟩
  | pllLockLoss => exact .inl ⟨_, by unfold exec execPllLockLoss Instr.wf; rfl⟩
  | pllRelock us => exact .inl ⟨_, by unfold exec execPllRelock Instr.wf; rfl⟩
  | pllRelockTimeout us => exact .inl ⟨_, by unfold exec execPllRelockTimeout Instr.wf; rfl⟩
  | regionFault p code addr => exact .inl ⟨_, by unfold exec execRegionFault Instr.wf; rfl⟩
  | clkTrimWrite val => exact .inl ⟨_, by unfold exec execClkTrimWrite Instr.wf; rfl⟩
  | flr => exact .inl ⟨_, by unfold exec execFlr Instr.wf; rfl⟩
  | endpointReset => exact .inl ⟨_, by unfold exec execEndpointReset Instr.wf; rfl⟩
  | linkDown => exact .inl ⟨_, by unfold exec execLinkDown Instr.wf; rfl⟩
  | linkUp rate width => exact .inl ⟨_, by unfold exec execLinkUp Instr.wf; rfl⟩
  | registerWrite who addr be val => exact .inl ⟨_, by unfold exec execRegisterWrite Instr.wf; rfl⟩
  | writeCrossingDone p => exact .inl ⟨_, by unfold exec execWriteCrossingDone Instr.wf; rfl⟩
  | xdomTimeout p write => exact .inl ⟨_, by unfold exec execXdomTimeout Instr.wf; rfl⟩
  | keylockEngage p => exact .inl ⟨_, by unfold exec execKeylockEngage Instr.wf; rfl⟩
  | keylockRelease p => exact .inl ⟨_, by unfold exec execKeylockRelease Instr.wf; rfl⟩
  | ackWrite addr val => exact .inl ⟨_, by unfold exec execAckWrite Instr.wf; rfl⟩
  | evtEnWrite p val => exact .inl ⟨_, by unfold exec execEvtEnWrite Instr.wf; rfl⟩
  | vectorEvaluation => exact .inl ⟨_, by unfold exec execVectorEvaluation Instr.wf; rfl⟩
  | msixMaskWrite kind vec on => exact .inl ⟨_, by unfold exec execMsixMaskWrite Instr.wf; rfl⟩
  | vecDone val => exact .inl ⟨_, by unfold exec execVecDone Instr.wf; rfl⟩
  | sweRaise val => exact .inl ⟨_, by unfold exec execSweRaise Instr.wf; rfl⟩
  | idRingWrite val => exact .inl ⟨_, by unfold exec execIdRingWrite Instr.wf; rfl⟩
  | blkCtrlRun p on => exact .inl ⟨_, by unfold exec execBlkCtrlRun Instr.wf; rfl⟩
  | blkCtrlSafeReq p on => exact .inl ⟨_, by unfold exec execBlkCtrlSafeReq Instr.wf; rfl⟩
  | laneNop l => exact .inl ⟨_, by unfold exec execLaneNop Instr.wf; rfl⟩
  | laneLoad l => exact .inl ⟨_, by unfold exec execLaneLoad Instr.wf; rfl⟩
  | laneVerifyDone l => exact .inl ⟨_, by unfold exec execLaneVerifyDone Instr.wf; rfl⟩
  | laneUnload l => exact .inl ⟨_, by unfold exec execLaneUnload Instr.wf; rfl⟩
  | laneStart l name => exact .inl ⟨_, by unfold exec execLaneStart Instr.wf; rfl⟩
  | lanePause l => exact .inl ⟨_, by unfold exec execLanePause Instr.wf; rfl⟩
  | laneContinue l => exact .inl ⟨_, by unfold exec execLaneContinue Instr.wf; rfl⟩
  | laneStop l => exact .inl ⟨_, by unfold exec execLaneStop Instr.wf; rfl⟩
  | laneAbort l => exact .inl ⟨_, by unfold exec execLaneAbort Instr.wf; rfl⟩
  | stepDurationEnd l => exact .inl ⟨_, by unfold exec execStepDurationEnd Instr.wf; rfl⟩
  | waitTimeout l => exact .inl ⟨_, by unfold exec execWaitTimeout Instr.wf; rfl⟩
  | schedArm l k pol => exact .inl ⟨_, by unfold exec execSchedArm Instr.wf; rfl⟩
  | schedDisarm l k pol => exact .inl ⟨_, by unfold exec execSchedDisarm Instr.wf; rfl⟩
  | schedSlotFire l k => exact .inl ⟨_, by unfold exec execSchedSlotFire Instr.wf; rfl⟩
  | actSigWrite l j => exact .inl ⟨_, by unfold exec execActSigWrite Instr.wf; rfl⟩
  | actAxisMove l j => exact .inl ⟨_, by unfold exec execActAxisMove Instr.wf; rfl⟩
  | actLogicEvent l j => exact .inl ⟨_, by unfold exec execActLogicEvent Instr.wf; rfl⟩
  | actArmSched l j => exact .inl ⟨_, by unfold exec execActArmSched Instr.wf; rfl⟩
  | actDisarmSched l j => exact .inl ⟨_, by unfold exec execActDisarmSched Instr.wf; rfl⟩
  | actCritical l j => exact .inl ⟨_, by unfold exec execActCritical Instr.wf; rfl⟩
  | ltGrpStart t => exact .inl ⟨_, by unfold exec execLtGrpStart Instr.wf; rfl⟩
  | ltGrpStop t => exact .inl ⟨_, by unfold exec execLtGrpStop Instr.wf; rfl⟩
  | coefWrite g sec r val => exact .inl ⟨_, by unfold exec execCoefWrite Instr.wf; rfl⟩
  | loopRouteWrite g pub val => exact .inl ⟨_, by unfold exec execLoopRouteWrite Instr.wf; rfl⟩
  | supervisionTrip g => exact .inl ⟨_, by unfold exec execSupervisionTrip Instr.wf; rfl⟩
  | learnBudgetReset g => exact .inl ⟨_, by unfold exec execLearnBudgetReset Instr.wf; rfl⟩
  | driftScanEnd g => exact .inl ⟨_, by unfold exec execDriftScanEnd Instr.wf; rfl⟩
  | resetLive g => exact .inl ⟨_, by unfold exec execResetLive Instr.wf; rfl⟩
  | adopt g => exact .inl ⟨_, by unfold exec execAdopt Instr.wf; rfl⟩
  | compBindWrite g val => exact .inl ⟨_, by unfold exec execCompBindWrite Instr.wf; rfl⟩
  | compSlotWrite t off val => exact .inl ⟨_, by unfold exec execCompSlotWrite Instr.wf; rfl⟩
  | adcWindowStart k w0 => exact .inl ⟨_, by unfold exec execAdcWindowStart Instr.wf; rfl⟩
  | adcConversionDone k sample ovr ok => exact .inl ⟨_, by unfold exec execAdcConversionDone Instr.wf; rfl⟩
  | adcChannelStarved k n => exact .inl ⟨_, by unfold exec execAdcChannelStarved Instr.wf; rfl⟩
  | seqCommit k => exact .inl ⟨_, by unfold exec execSeqCommit Instr.wf; rfl⟩
  | rangeSettleEnd k n => exact .inl ⟨_, by unfold exec execRangeSettleEnd Instr.wf; rfl⟩
  | calRotation k => exact .inl ⟨_, by unfold exec execCalRotation Instr.wf; rfl⟩
  | sliceCalDone k res => exact .inl ⟨_, by unfold exec execSliceCalDone Instr.wf; rfl⟩
  | calStoreUe k => exact .inl ⟨_, by unfold exec execCalStoreUe Instr.wf; rfl⟩
  | refSettle k => exact .inl ⟨_, by unfold exec execRefSettle Instr.wf; rfl⟩
  | refLost k => exact .inl ⟨_, by unfold exec execRefLost Instr.wf; rfl⟩
  | owPulseStart => exact .inl ⟨_, by unfold exec execOwPulseStart Instr.wf; rfl⟩
  | owPulseDecide => exact .inl ⟨_, by unfold exec execOwPulseDecide Instr.wf; rfl⟩
  | owPulseEnd => exact .inl ⟨_, by unfold exec execOwPulseEnd Instr.wf; rfl⟩
  | aoOtemp c => exact .inl ⟨_, by unfold exec execAoOtemp Instr.wf; rfl⟩
  | aoIlimFault c => exact .inl ⟨_, by unfold exec execAoIlimFault Instr.wf; rfl⟩
  | aoReadbackFault c => exact .inl ⟨_, by unfold exec execAoReadbackFault Instr.wf; rfl⟩
  | dioInputEdge n lvl ts => exact .inl ⟨_, by unfold exec execDioInputEdge Instr.wf; rfl⟩
  | dioSchPush n lvl => exact .inl ⟨_, by unfold exec execDioSchPush Instr.wf; rfl⟩
  | dioSchFlush n => exact .inl ⟨_, by unfold exec execDioSchFlush Instr.wf; rfl⟩
  | dioSchedSwitch n => exact .inl ⟨_, by unfold exec execDioSchedSwitch Instr.wf; rfl⟩
  | dioUndercurrent n => exact .inl ⟨_, by unfold exec execDioUndercurrent Instr.wf; rfl⟩
  | dioOtemp n => exact .inl ⟨_, by unfold exec execDioOtemp Instr.wf; rfl⟩
  | dioIlimFault n => exact .inl ⟨_, by unfold exec execDioIlimFault Instr.wf; rfl⟩
  | axNop a => exact .inl ⟨_, by unfold exec execAxNop Instr.wf; rfl⟩
  | axMoveAbs a => exact .inl ⟨_, by unfold exec execAxMoveAbs Instr.wf; rfl⟩
  | axMoveRel a => exact .inl ⟨_, by unfold exec execAxMoveRel Instr.wf; rfl⟩
  | axUpdate a => exact .inl ⟨_, by unfold exec execAxUpdate Instr.wf; rfl⟩
  | axJogPos a => exact .inl ⟨_, by unfold exec execAxJogPos Instr.wf; rfl⟩
  | axJogNeg a => exact .inl ⟨_, by unfold exec execAxJogNeg Instr.wf; rfl⟩
  | axStop a => exact .inl ⟨_, by unfold exec execAxStop Instr.wf; rfl⟩
  | axEstop a => exact .inl ⟨_, by unfold exec execAxEstop Instr.wf; rfl⟩
  | axHome a => exact .inl ⟨_, by unfold exec execAxHome Instr.wf; rfl⟩
  | axGearEngage a => exact .inl ⟨_, by unfold exec execAxGearEngage Instr.wf; rfl⟩
  | axGearArm a => exact .inl ⟨_, by unfold exec execAxGearArm Instr.wf; rfl⟩
  | axGearRelease a => exact .inl ⟨_, by unfold exec execAxGearRelease Instr.wf; rfl⟩
  | axSetPos a => exact .inl ⟨_, by unfold exec execAxSetPos Instr.wf; rfl⟩
  | mtGrpStart m => exact .inl ⟨_, by unfold exec execMtGrpStart Instr.wf; rfl⟩
  | mtGrpStop m => exact .inl ⟨_, by unfold exec execMtGrpStop Instr.wf; rfl⟩
  | mtGrpGo m => exact .inl ⟨_, by unfold exec execMtGrpGo Instr.wf; rfl⟩
  | axisProfileEnd a => exact .inl ⟨_, by unfold exec execAxisProfileEnd Instr.wf; rfl⟩
  | axisStandstill a => exact .inl ⟨_, by unfold exec execAxisStandstill Instr.wf; rfl⟩
  | switchDebounced a w on => exact .inl ⟨_, by unfold exec execSwitchDebounced Instr.wf; rfl⟩
  | homeChatter a => exact .inl ⟨_, by unfold exec execHomeChatter Instr.wf; rfl⟩
  | axisStall a => exact .inl ⟨_, by unfold exec execAxisStall Instr.wf; rfl⟩
  | encQuadError e => exact .inl ⟨_, by unfold exec execEncQuadError Instr.wf; rfl⟩
  | encIndex e pos ts => exact .inl ⟨_, by unfold exec execEncIndex Instr.wf; rfl⟩
  | ssiFrame e raw good => exact .inl ⟨_, by unfold exec execSsiFrame Instr.wf; rfl⟩
  | lpNop p => exact .inl ⟨_, by unfold exec execLpNop Instr.wf; rfl⟩
  | lpLoad p => exact .inl ⟨_, by unfold exec execLpLoad Instr.wf; rfl⟩
  | lpVerifyDone p => exact .inl ⟨_, by unfold exec execLpVerifyDone Instr.wf; rfl⟩
  | lpUnload p => exact .inl ⟨_, by unfold exec execLpUnload Instr.wf; rfl⟩
  | lpStage p => exact .inl ⟨_, by unfold exec execLpStage Instr.wf; rfl⟩
  | lpStageDone p => exact .inl ⟨_, by unfold exec execLpStageDone Instr.wf; rfl⟩
  | lpUnstage p => exact .inl ⟨_, by unfold exec execLpUnstage Instr.wf; rfl⟩
  | lpChange p drop => exact .inl ⟨_, by unfold exec execLpChange Instr.wf; rfl⟩
  | lpCancel p => exact .inl ⟨_, by unfold exec execLpCancel Instr.wf; rfl⟩
  | lpTrig p => exact .inl ⟨_, by unfold exec execLpTrig Instr.wf; rfl⟩
  | changePoint p => exact .inl ⟨_, by unfold exec execChangePoint Instr.wf; rfl⟩
  | forceSet p => exact .inl ⟨_, by unfold exec execForceSet Instr.wf; rfl⟩
  | forceRemove p => exact .inl ⟨_, by unfold exec execForceRemove Instr.wf; rfl⟩
  | forceClearAll p => exact .inl ⟨_, by unfold exec execForceClearAll Instr.wf; rfl⟩
  | taskRelease p k => exact .inl ⟨_, by unfold exec execTaskRelease Instr.wf; rfl⟩
  | taskDeadline p k => exact .inl ⟨_, by unfold exec execTaskDeadline Instr.wf; rfl⟩
  | lpVarWrite p off val => exact .inl ⟨_, by unfold exec execLpVarWrite Instr.wf; rfl⟩
  | lpMemoryUe p off => exact .inl ⟨_, by unfold exec execLpMemoryUe Instr.wf; rfl⟩
  | lgNop p => exact .inl ⟨_, by unfold exec execLgNop Instr.wf; rfl⟩
  | lgLd p => exact .inl ⟨_, by unfold exec execLgLd Instr.wf; rfl⟩
  | lgLdn p => exact .inl ⟨_, by unfold exec execLgLdn Instr.wf; rfl⟩
  | lgAnd p => exact .inl ⟨_, by unfold exec execLgAnd Instr.wf; rfl⟩
  | lgAndn p => exact .inl ⟨_, by unfold exec execLgAndn Instr.wf; rfl⟩
  | lgOr p => exact .inl ⟨_, by unfold exec execLgOr Instr.wf; rfl⟩
  | lgOrn p => exact .inl ⟨_, by unfold exec execLgOrn Instr.wf; rfl⟩
  | lgXor p => exact .inl ⟨_, by unfold exec execLgXor Instr.wf; rfl⟩
  | lgSt p => exact .inl ⟨_, by unfold exec execLgSt Instr.wf; rfl⟩
  | lgStn p => exact .inl ⟨_, by unfold exec execLgStn Instr.wf; rfl⟩
  | lgSet p => exact .inl ⟨_, by unfold exec execLgSet Instr.wf; rfl⟩
  | lgRst p => exact .inl ⟨_, by unfold exec execLgRst Instr.wf; rfl⟩
  | lgAndp p => exact .inl ⟨_, by unfold exec execLgAndp Instr.wf; rfl⟩
  | lgOrp p => exact .inl ⟨_, by unfold exec execLgOrp Instr.wf; rfl⟩
  | lgXorp p => exact .inl ⟨_, by unfold exec execLgXorp Instr.wf; rfl⟩
  | lgPop p => exact .inl ⟨_, by unfold exec execLgPop Instr.wf; rfl⟩
  | lgNot p => exact .inl ⟨_, by unfold exec execLgNot Instr.wf; rfl⟩
  | lgRed p => exact .inl ⟨_, by unfold exec execLgRed Instr.wf; rfl⟩
  | lgFed p => exact .inl ⟨_, by unfold exec execLgFed Instr.wf; rfl⟩
  | lgTon p => exact .inl ⟨_, by unfold exec execLgTon Instr.wf; rfl⟩
  | lgTof p => exact .inl ⟨_, by unfold exec execLgTof Instr.wf; rfl⟩
  | lgTp p => exact .inl ⟨_, by unfold exec execLgTp Instr.wf; rfl⟩
  | lgCtu p => exact .inl ⟨_, by unfold exec execLgCtu Instr.wf; rfl⟩
  | lgCtd p => exact .inl ⟨_, by unfold exec execLgCtd Instr.wf; rfl⟩
  | lgCrs p => exact .inl ⟨_, by unfold exec execLgCrs Instr.wf; rfl⟩
  | lgCld p => exact .inl ⟨_, by unfold exec execLgCld Instr.wf; rfl⟩
  | lgLpt p => exact .inl ⟨_, by unfold exec execLgLpt Instr.wf; rfl⟩
  | lgLpv p => exact .inl ⟨_, by unfold exec execLgLpv Instr.wf; rfl⟩
  | lgLdw p => exact .inl ⟨_, by unfold exec execLgLdw Instr.wf; rfl⟩
  | lgStw p => exact .inl ⟨_, by unfold exec execLgStw Instr.wf; rfl⟩
  | lgStwc p => exact .inl ⟨_, by unfold exec execLgStwc Instr.wf; rfl⟩
  | lgAdd p => exact .inl ⟨_, by unfold exec execLgAdd Instr.wf; rfl⟩
  | lgSub p => exact .inl ⟨_, by unfold exec execLgSub Instr.wf; rfl⟩
  | lgMul p => exact .inl ⟨_, by unfold exec execLgMul Instr.wf; rfl⟩
  | lgDiv p => exact .inl ⟨_, by unfold exec execLgDiv Instr.wf; rfl⟩
  | lgAndw p => exact .inl ⟨_, by unfold exec execLgAndw Instr.wf; rfl⟩
  | lgOrw p => exact .inl ⟨_, by unfold exec execLgOrw Instr.wf; rfl⟩
  | lgXorw p => exact .inl ⟨_, by unfold exec execLgXorw Instr.wf; rfl⟩
  | lgShl p => exact .inl ⟨_, by unfold exec execLgShl Instr.wf; rfl⟩
  | lgShr p => exact .inl ⟨_, by unfold exec execLgShr Instr.wf; rfl⟩
  | lgCeq p => exact .inl ⟨_, by unfold exec execLgCeq Instr.wf; rfl⟩
  | lgCgt p => exact .inl ⟨_, by unfold exec execLgCgt Instr.wf; rfl⟩
  | lgClt p => exact .inl ⟨_, by unfold exec execLgClt Instr.wf; rfl⟩
  | lgLdx p => exact .inl ⟨_, by unfold exec execLgLdx Instr.wf; rfl⟩
  | lgJmp p => exact .inl ⟨_, by unfold exec execLgJmp Instr.wf; rfl⟩
  | lgJc p => exact .inl ⟨_, by unfold exec execLgJc Instr.wf; rfl⟩
  | lgJnc p => exact .inl ⟨_, by unfold exec execLgJnc Instr.wf; rfl⟩
  | lgTrig p => exact .inl ⟨_, by unfold exec execLgTrig Instr.wf; rfl⟩
  | lgEnd p => exact .inl ⟨_, by unfold exec execLgEnd Instr.wf; rfl⟩
  | safetyCycle opens shorts => exact .inl ⟨_, by unfold exec execSafetyCycle Instr.wf; rfl⟩
  | safetyStatusCommit => exact .inl ⟨_, by unfold exec execSafetyStatusCommit Instr.wf; rfl⟩
  | safetyContactChange i second lvl => exact .inl ⟨_, by unfold exec execSafetyContactChange Instr.wf; rfl⟩
  | discrepancyFault i => exact .inl ⟨_, by unfold exec execDiscrepancyFault Instr.wf; rfl⟩
  | resetJam i => exact .inl ⟨_, by unfold exec execResetJam Instr.wf; rfl⟩
  | outputLockout o sw => exact .inl ⟨_, by unfold exec execOutputLockout Instr.wf; rfl⟩
  | darkTest o sw opened => exact .inl ⟨_, by unfold exec execDarkTest Instr.wf; rfl⟩
  | offDelayEnd k => exact .inl ⟨_, by unfold exec execOffDelayEnd Instr.wf; rfl⟩
  | mutingTimeout k => exact .inl ⟨_, by unfold exec execMutingTimeout Instr.wf; rfl⟩
  | lockAuxDelayEnd k => exact .inl ⟨_, by unfold exec execLockAuxDelayEnd Instr.wf; rfl⟩
  | channelSelfTestFail ch => exact .inl ⟨_, by unfold exec execChannelSelfTestFail Instr.wf; rfl⟩
  | safetyClockDeviation ch covered => exact .inl ⟨_, by unfold exec execSafetyClockDeviation Instr.wf; rfl⟩
  | safeFrameReceive net bs => exact .inl ⟨_, by unfold exec execSafeFrameReceive Instr.wf; rfl⟩
  | connWatchdog c => exact .inl ⟨_, by unfold exec execConnWatchdog Instr.wf; rfl⟩
  | networkMissing c => exact .inl ⟨_, by unfold exec execNetworkMissing Instr.wf; rfl⟩
  | degradedTimeout c => exact .inl ⟨_, by unfold exec execDegradedTimeout Instr.wf; rfl⟩
  | safeImgReceive n f img good => exact .inl ⟨_, by unfold exec execSafeImgReceive Instr.wf; rfl⟩
  | sfNop => exact .inl ⟨_, by unfold exec execSfNop Instr.wf; rfl⟩
  | sfUnlock => exact .inl ⟨_, by unfold exec execSfUnlock Instr.wf; rfl⟩
  | sfLock => exact .inl ⟨_, by unfold exec execSfLock Instr.wf; rfl⟩
  | sfLoad => exact .inl ⟨_, by unfold exec execSfLoad Instr.wf; rfl⟩
  | sfConfirm => exact .inl ⟨_, by unfold exec execSfConfirm Instr.wf; rfl⟩
  | sfDiscard => exact .inl ⟨_, by unfold exec execSfDiscard Instr.wf; rfl⟩
  | sfSetPw => exact .inl ⟨_, by unfold exec execSfSetPw Instr.wf; rfl⟩
  | confirmTimeout => exact .inl ⟨_, by unfold exec execConfirmTimeout Instr.wf; rfl⟩
  | unlockTimeout => exact .inl ⟨_, by unfold exec execUnlockTimeout Instr.wf; rfl⟩
  | beatReceive b => exact .inl ⟨_, by unfold exec execBeatReceive Instr.wf; rfl⟩
  | lanternFailure => exact .inl ⟨_, by unfold exec execLanternFailure Instr.wf; rfl⟩
  | inputFrameReceive n tt vals => exact .inl ⟨_, by unfold exec execInputFrameReceive Instr.wf; rfl⟩
  | plialeFrameReceive n seg k bs => exact .inl ⟨_, by unfold exec execPlialeFrameReceive Instr.wf; rfl⟩
  | writesFrameReceive n first ws => exact .inl ⟨_, by unfold exec execWritesFrameReceive Instr.wf; rfl⟩
  | forwardMiss => exact .inl ⟨_, by unfold exec execForwardMiss Instr.wf; rfl⟩
  | digestReceive epoch digest => exact .inl ⟨_, by unfold exec execDigestReceive Instr.wf; rfl⟩
  | ctrlFrameReceive kind => exact .inl ⟨_, by unfold exec execCtrlFrameReceive Instr.wf; rfl⟩
  | imageFrameReceive p bank typ bs => exact .inl ⟨_, by unfold exec execImageFrameReceive Instr.wf; rfl⟩
  | baseFrameReceive chunk ok => exact .inl ⟨_, by unfold exec execBaseFrameReceive Instr.wf; rfl⟩
  | baseInstalled epoch base => exact .inl ⟨_, by unfold exec execBaseInstalled Instr.wf; rfl⟩
  | catchupJoined => exact .inl ⟨_, by unfold exec execCatchupJoined Instr.wf; rfl⟩
  | catchupTimeout => exact .inl ⟨_, by unfold exec execCatchupTimeout Instr.wf; rfl⟩
  | timeFrameReceive n ns frac => exact .inl ⟨_, by unfold exec execTimeFrameReceive Instr.wf; rfl⟩
  | laneTrained n => exact .inl ⟨_, by unfold exec execLaneTrained Instr.wf; rfl⟩
  | laneAuthDone n ok same => exact .inl ⟨_, by unfold exec execLaneAuthDone Instr.wf; rfl⟩
  | authRetry n => exact .inl ⟨_, by unfold exec execAuthRetry Instr.wf; rfl⟩
  | twinLaneDown n => exact .inl ⟨_, by unfold exec execTwinLaneDown Instr.wf; rfl⟩
  | seize => exact .inl ⟨_, by unfold exec execSeize Instr.wf; rfl⟩
  | seizureWon => exact .inl ⟨_, by unfold exec execSeizureWon Instr.wf; rfl⟩
  | seizureLost => exact .inl ⟨_, by unfold exec execSeizureLost Instr.wf; rfl⟩
  | holderDecoded code => exact .inl ⟨_, by unfold exec execHolderDecoded Instr.wf; rfl⟩
  | holderLost => exact .inl ⟨_, by unfold exec execHolderLost Instr.wf; rfl⟩
  | guylineWireFail w => exact .inl ⟨_, by unfold exec execGuylineWireFail Instr.wf; rfl⟩
  | guylineWireHealthy w => exact .inl ⟨_, by unfold exec execGuylineWireHealthy Instr.wf; rfl⟩
  | witnessCheckEnd => exact .inl ⟨_, by unfold exec execWitnessCheckEnd Instr.wf; rfl⟩
  | authDisagree a b => exact .inl ⟨_, by unfold exec execAuthDisagree Instr.wf; rfl⟩
  | twNop => exact .inl ⟨_, by unfold exec execTwNop Instr.wf; rfl⟩
  | twRelease => exact .inl ⟨_, by unfold exec execTwRelease Instr.wf; rfl⟩
  | twResync => exact .inl ⟨_, by unfold exec execTwResync Instr.wf; rfl⟩
  | twClearHalt => exact .inl ⟨_, by unfold exec execTwClearHalt Instr.wf; rfl⟩
  | twReturnNow => exact .inl ⟨_, by unfold exec execTwReturnNow Instr.wf; rfl⟩
  | holdoffExpired => exact .inl ⟨_, by unfold exec execHoldoffExpired Instr.wf; rfl⟩
  | handoverStart => exact .inl ⟨_, by unfold exec execHandoverStart Instr.wf; rfl⟩
  | handoverTimeout => exact .inl ⟨_, by unfold exec execHandoverTimeout Instr.wf; rfl⟩
  | glNop => exact .inl ⟨_, by unfold exec execGlNop Instr.wf; rfl⟩
  | glForceSeize key => exact .inl ⟨_, by unfold exec execGlForceSeize Instr.wf; rfl⟩
  | glRetest a b => exact .inl ⟨_, by unfold exec execGlRetest Instr.wf; rfl⟩
  | warmReset src => exact .inl ⟨_, by unfold exec execWarmReset Instr.wf; rfl⟩
  | coldReset src => exact .inl ⟨_, by unfold exec execColdReset Instr.wf; rfl⟩
  | supervisorWatchdog => exact .inl ⟨_, by unfold exec execSupervisorWatchdog Instr.wf; rfl⟩
  | servicePortReset => exact .inl ⟨_, by unfold exec execServicePortReset Instr.wf; rfl⟩
  | vinRise ka => exact .inl ⟨_, by unfold exec execVinRise Instr.wf; rfl⟩
  | bootComplete env => exact .inr (.inr (.inr ⟨env, rfl, by unfold exec execBootComplete; rfl⟩))
  | powerFailure => exact .inl ⟨_, by unfold exec execPowerFailure Instr.wf; rfl⟩
  | finalCommitDone => exact .inl ⟨_, by unfold exec execFinalCommitDone Instr.wf; rfl⟩
  | brownout => exact .inl ⟨_, by unfold exec execBrownout Instr.wf; rfl⟩
  | holdupSpent => exact .inl ⟨_, by unfold exec execHoldupSpent Instr.wf; rfl⟩
  | holdupOkSet => exact .inl ⟨_, by unfold exec execHoldupOkSet Instr.wf; rfl⟩
  | holdupLow => exact .inl ⟨_, by unfold exec execHoldupLow Instr.wf; rfl⟩
  | outputHoldExpired => exact .inl ⟨_, by unfold exec execOutputHoldExpired Instr.wf; rfl⟩
  | journalEpoch => exact .inl ⟨_, by unfold exec execJournalEpoch Instr.wf; rfl⟩
  | journalCommit => exact .inl ⟨_, by unfold exec execJournalCommit Instr.wf; rfl⟩
  | sbNop => exact .inl ⟨_, by unfold exec execSbNop Instr.wf; rfl⟩
  | forceCold => exact .inl ⟨_, by unfold exec execForceCold Instr.wf; rfl⟩
  | cancelCold => exact .inl ⟨_, by unfold exec execCancelCold Instr.wf; rfl⟩
  | plNop seg => exact .inl ⟨_, by unfold exec execPlNop Instr.wf; rfl⟩
  | plLoad seg => exact .inl ⟨_, by unfold exec execPlLoad Instr.wf; rfl⟩
  | plVerifyDone seg => exact .inl ⟨_, by unfold exec execPlVerifyDone Instr.wf; rfl⟩
  | plUnload seg => exact .inl ⟨_, by unfold exec execPlUnload Instr.wf; rfl⟩
  | plStart seg => exact .inl ⟨_, by unfold exec execPlStart Instr.wf; rfl⟩
  | plStop seg => exact .inl ⟨_, by unfold exec execPlStop Instr.wf; rfl⟩
  | plLcmdNop seg => exact .inl ⟨_, by unfold exec execPlLcmdNop Instr.wf; rfl⟩
  | plRestart seg => exact .inl ⟨_, by unfold exec execPlRestart Instr.wf; rfl⟩
  | plAcyc seg => exact .inl ⟨_, by unfold exec execPlAcyc Instr.wf; rfl⟩
  | plResync seg k => exact .inl ⟨_, by unfold exec execPlResync Instr.wf; rfl⟩
  | plialeCycleStart seg => exact .inl ⟨_, by unfold exec execPlialeCycleStart Instr.wf; rfl⟩
  | pollSend seg k => exact .inl ⟨_, by unfold exec execPollSend Instr.wf; rfl⟩
  | replyReceive seg j good bs => exact .inl ⟨_, by unfold exec execReplyReceive Instr.wf; rfl⟩
  | acycWindowEnd seg => exact .inl ⟨_, by unfold exec execAcycWindowEnd Instr.wf; rfl⟩
  | measRspReceive seg k dt => exact .inl ⟨_, by unfold exec execMeasRspReceive Instr.wf; rfl⟩
  | acycRspReceive seg ofs good bs => exact .inl ⟨_, by unfold exec execAcycRspReceive Instr.wf; rfl⟩
  | acycResponseTimeout seg => exact .inl ⟨_, by unfold exec execAcycResponseTimeout Instr.wf; rfl⟩
  | foreignSync seg => exact .inl ⟨_, by unfold exec execForeignSync Instr.wf; rfl⟩
  | plCollision seg sync k => exact .inl ⟨_, by unfold exec execPlCollision Instr.wf; rfl⟩
  | lineActivity seg => exact .inl ⟨_, by unfold exec execLineActivity Instr.wf; rfl⟩
  | listenSilenceExpired seg => exact .inl ⟨_, by unfold exec execListenSilenceExpired Instr.wf; rfl⟩
  | plSchedUe seg => exact .inl ⟨_, by unfold exec execPlSchedUe Instr.wf; rfl⟩
  | cxNop x => exact .inl ⟨_, by unfold exec execCxNop Instr.wf; rfl⟩
  | cxStart x => exact .inl ⟨_, by unfold exec execCxStart Instr.wf; rfl⟩
  | cxStop x => exact .inl ⟨_, by unfold exec execCxStop Instr.wf; rfl⟩
  | cxRecover x => exact .inl ⟨_, by unfold exec execCxRecover Instr.wf; rfl⟩
  | cxFlush x q => exact .inl ⟨_, by unfold exec execCxFlush Instr.wf; rfl⟩
  | cxTxPost x q val => exact .inl ⟨_, by unfold exec execCxTxPost Instr.wf; rfl⟩
  | cxTxStart x => exact .inl ⟨_, by unfold exec execCxTxStart Instr.wf; rfl⟩
  | cxTxComplete x code => exact .inl ⟨_, by unfold exec execCxTxComplete Instr.wf; rfl⟩
  | cxRxFrame x fr => exact .inl ⟨_, by unfold exec execCxRxFrame Instr.wf; rfl⟩
  | cxBusError x eight => exact .inl ⟨_, by unfold exec execCxBusError Instr.wf; rfl⟩
  | cxRqAck x r val => exact .inl ⟨_, by unfold exec execCxRqAck Instr.wf; rfl⟩
  | cxIntegrated x => exact .inl ⟨_, by unfold exec execCxIntegrated Instr.wf; rfl⟩
  | cxRecovered x => exact .inl ⟨_, by unfold exec execCxRecovered Instr.wf; rfl⟩
  | tbNop => exact .inl ⟨_, by unfold exec execTbNop Instr.wf; rfl⟩
  | tbSet => exact .inl ⟨_, by unfold exec execTbSet Instr.wf; rfl⟩
  | tbIncWrite val => exact .inl ⟨_, by unfold exec execTbIncWrite Instr.wf; rfl⟩
  | tbSelWrite val => exact .inl ⟨_, by unfold exec execTbSelWrite Instr.wf; rfl⟩
  | ptpEventFrame e tx seq typ dn => exact .inl ⟨_, by unfold exec execPtpEventFrame Instr.wf; rfl⟩
  | ptpMessageReceive k m => exact .inl ⟨_, by unfold exec execPtpMessageReceive Instr.wf; rfl⟩
  | announceTimeout k => exact .inl ⟨_, by unfold exec execAnnounceTimeout Instr.wf; rfl⟩
  | syncTimeout k => exact .inl ⟨_, by unfold exec execSyncTimeout Instr.wf; rfl⟩
  | domainAutoSwitch => exact .inl ⟨_, by unfold exec execDomainAutoSwitch Instr.wf; rfl⟩
  | slewDone => exact .inl ⟨_, by unfold exec execSlewDone Instr.wf; rfl⟩
  | ethTxPost e q val => exact .inl ⟨_, by unfold exec execEthTxPost Instr.wf; rfl⟩
  | ethTxComplete e q overrun => exact .inl ⟨_, by unfold exec execEthTxComplete Instr.wf; rfl⟩
  | ethRxFrame e bs bad => exact .inl ⟨_, by unfold exec execEthRxFrame Instr.wf; rfl⟩
  | ethRqAck e r val => exact .inl ⟨_, by unfold exec execEthRqAck Instr.wf; rfl⟩
  | ethGclCommit e => exact .inl ⟨_, by unfold exec execEthGclCommit Instr.wf; rfl⟩
  | gclCycleStart e => exact .inl ⟨_, by unfold exec execGclCycleStart Instr.wf; rfl⟩
  | gclEntryChange e => exact .inl ⟨_, by unfold exec execGclEntryChange Instr.wf; rfl⟩
  | ethLinkChange e speed => exact .inl ⟨_, by unfold exec execEthLinkChange Instr.wf; rfl⟩
  | cbStreamReset e i => exact .inl ⟨_, by unfold exec execCbStreamReset Instr.wf; rfl⟩
  | daybookReport typ src pay => exact .inl ⟨_, by unfold exec execDaybookReport Instr.wf; rfl⟩
  | recordCommit => exact .inr (.inl ⟨rfl, by unfold exec execRecordCommit; rfl⟩)
  | tokenGain src => exact .inl ⟨_, by unfold exec execTokenGain Instr.wf; rfl⟩
  | dbNop => exact .inl ⟨_, by unfold exec execDbNop Instr.wf; rfl⟩
  | dbClear => exact .inl ⟨_, by unfold exec execDbClear Instr.wf; rfl⟩
  | clearExecute => exact .inr (.inr (.inl ⟨rfl, by unfold exec execClearExecute; rfl⟩))
  | dbAppPut who => exact .inl ⟨_, by unfold exec execDbAppPut Instr.wf; rfl⟩
  | trNop => exact .inl ⟨_, by unfold exec execTrNop Instr.wf; rfl⟩
  | trStart => exact .inl ⟨_, by unfold exec execTrStart Instr.wf; rfl⟩
  | trStop => exact .inl ⟨_, by unfold exec execTrStop Instr.wf; rfl⟩
  | trTrigger => exact .inl ⟨_, by unfold exec execTrTrigger Instr.wf; rfl⟩
  | trUnfreeze => exact .inl ⟨_, by unfold exec execTrUnfreeze Instr.wf; rfl⟩
  | trXfer => exact .inl ⟨_, by unfold exec execTrXfer Instr.wf; rfl⟩
  | xferDone => exact .inl ⟨_, by unfold exec execXferDone Instr.wf; rfl⟩
  | trResetRing => exact .inl ⟨_, by unfold exec execTrResetRing Instr.wf; rfl⟩
  | freezeEnd => exact .inl ⟨_, by unfold exec execFreezeEnd Instr.wf; rfl⟩
  | trRelease val => exact .inl ⟨_, by unfold exec execTrRelease Instr.wf; rfl⟩
  | trDmaCopy n => exact .inl ⟨_, by unfold exec execTrDmaCopy Instr.wf; rfl⟩
  | yield c => exact .inl ⟨_, by unfold exec execYield Instr.wf; rfl⟩
  | block c => exact .inl ⟨_, by unfold exec execBlock Instr.wf; rfl⟩
  | exit c => exact .inl ⟨_, by unfold exec execExit Instr.wf; rfl⟩
  | dispatch c => exact .inl ⟨_, by unfold exec execDispatch Instr.wf; rfl⟩
  | wake c t => exact .inl ⟨_, by unfold exec execWake Instr.wf; rfl⟩
  | create c t => exact .inl ⟨_, by unfold exec execCreate Instr.wf; rfl⟩
  | suspend c t => exact .inl ⟨_, by unfold exec execSuspend Instr.wf; rfl⟩
  | resume c t => exact .inl ⟨_, by unfold exec execResume Instr.wf; rfl⟩
  | destroy c t => exact .inl ⟨_, by unfold exec execDestroy Instr.wf; rfl⟩
  | wakeToken => exact .inl ⟨_, by unfold exec execWakeToken Instr.wf; rfl⟩
  | patienceExpired t => exact .inl ⟨_, by unfold exec execPatienceExpired Instr.wf; rfl⟩
  | descriptorWrite t w val => exact .inl ⟨_, by unfold exec execDescriptorWrite Instr.wf; rfl⟩
  | coreWatchdog c => exact .inl ⟨_, by unfold exec execCoreWatchdog Instr.wf; rfl⟩
  | coreFault c => exact .inl ⟨_, by unfold exec execCoreFault Instr.wf; rfl⟩
  | coreNop c => exact .inl ⟨_, by unfold exec execCoreNop Instr.wf; rfl⟩
  | coreReset c => exact .inl ⟨_, by unfold exec execCoreReset Instr.wf; rfl⟩
  | coreHalt c => exact .inl ⟨_, by unfold exec execCoreHalt Instr.wf; rfl⟩
  | coreStart c => exact .inl ⟨_, by unfold exec execCoreStart Instr.wf; rfl⟩
  | tallyUe => exact .inl ⟨_, by unfold exec execTallyUe Instr.wf; rfl⟩
  | mbPowerRequest b val => exact .inl ⟨_, by unfold exec execMbPowerRequest Instr.wf; rfl⟩
  | mbPowerDone b => exact .inl ⟨_, by unfold exec execMbPowerDone Instr.wf; rfl⟩
  | sramCe addr => exact .inl ⟨_, by unfold exec execSramCe Instr.wf; rfl⟩
  | sramUe addr => exact .inl ⟨_, by unfold exec execSramUe Instr.wf; rfl⟩
  | tinkerRowTest => exact .inl ⟨_, by unfold exec execTinkerRowTest Instr.wf; rfl⟩
  | tinkerRowDone failed => exact .inl ⟨_, by unfold exec execTinkerRowDone Instr.wf; rfl⟩
  | tkNop => exact .inl ⟨_, by unfold exec execTkNop Instr.wf; rfl⟩
  | testRow b row => exact .inl ⟨_, by unfold exec execTestRow Instr.wf; rfl⟩
  | restartPass => exact .inl ⟨_, by unfold exec execRestartPass Instr.wf; rfl⟩
  | tinkerBufferUe mask => exact .inl ⟨_, by unfold exec execTinkerBufferUe Instr.wf; rfl⟩
  | nvWrite off bs => exact .inl ⟨_, by unfold exec execNvWrite Instr.wf; rfl⟩
  | nvLineWrite line => exact .inl ⟨_, by unfold exec execNvLineWrite Instr.wf; rfl⟩
  | idNop => exact .inl ⟨_, by unfold exec execIdNop Instr.wf; rfl⟩
  | attest => exact .inl ⟨_, by unfold exec execAttest Instr.wf; rfl⟩
  | attestDone => exact .inl ⟨_, by unfold exec execAttestDone Instr.wf; rfl⟩
  | ownerSet => exact .inl ⟨_, by unfold exec execOwnerSet Instr.wf; rfl⟩
  | keyAdd k => exact .inl ⟨_, by unfold exec execKeyAdd Instr.wf; rfl⟩
  | keyDel k => exact .inl ⟨_, by unfold exec execKeyDel Instr.wf; rfl⟩
  | pwrNop => exact .inl ⟨_, by unfold exec execPwrNop Instr.wf; rfl⟩
  | pwrWarm key => exact .inl ⟨_, by unfold exec execPwrWarm Instr.wf; rfl⟩
  | pwrCold key => exact .inl ⟨_, by unfold exec execPwrCold Instr.wf; rfl⟩
  | pwrInstall => exact .inl ⟨_, by unfold exec execPwrInstall Instr.wf; rfl⟩
  | installDone bs readOk => exact .inl ⟨_, by unfold exec execInstallDone Instr.wf; rfl⟩
  | kaStoreLost => exact .inl ⟨_, by unfold exec execKaStoreLost Instr.wf; rfl⟩
  | keepalivePersist => exact .inl ⟨_, by unfold exec execKeepalivePersist Instr.wf; rfl⟩
  | insertion => exact .inl ⟨_, by unfold exec execInsertion Instr.wf; rfl⟩
  | removal => exact .inl ⟨_, by unfold exec execRemoval Instr.wf; rfl⟩
  | healthSample smp => exact .inl ⟨_, by unfold exec execHealthSample Instr.wf; rfl⟩
  | holdupMeasure esr cap energy => exact .inl ⟨_, by unfold exec execHoldupMeasure Instr.wf; rfl⟩
  | eolUpdate smp => exact .inl ⟨_, by unfold exec execEolUpdate Instr.wf; rfl⟩
  | wearLedgerSave => exact .inl ⟨_, by unfold exec execWearLedgerSave Instr.wf; rfl⟩
  | wlNop => exact .inl ⟨_, by unfold exec execWlNop Instr.wf; rfl⟩
  | wlSet => exact .inl ⟨_, by unfold exec execWlSet Instr.wf; rfl⟩
  | wlClearCount => exact .inl ⟨_, by unfold exec execWlClearCount Instr.wf; rfl⟩
  | vfldLow mv => exact .inl ⟨_, by unfold exec execVfldLow Instr.wf; rfl⟩
  | vfldRestored mv => exact .inl ⟨_, by unfold exec execVfldRestored Instr.wf; rfl⟩
  | acyclicWindowStart seg => exact .inl ⟨_, by unfold exec execAcyclicWindowStart Instr.wf; rfl⟩
  | trimSlewDone => exact .inl ⟨_, by unfold exec execTrimSlewDone Instr.wf; rfl⟩
  | vinLow low => exact .inl ⟨_, by unfold exec execVinLow Instr.wf; rfl⟩
  | offBankAccess addr => exact .inl ⟨_, by unfold exec execOffBankAccess Instr.wf; rfl⟩
  | d3hotTransition on => exact .inl ⟨_, by unfold exec execD3hotTransition Instr.wf; rfl⟩
  | scratchpadCe p => exact .inl ⟨_, by unfold exec execScratchpadCe Instr.wf; rfl⟩

/-- A command of a page is admitted or turned away by that page. -/
theorem exec_hostPage (c : Instr) (s : State) (p : Page) (off : Nat) (val : W32) (h : hostPage c = some (p, off, val)) (hw : c.wf = true) :
    ∃ f : Vault → Dev → Dev, exec c s = onDev true (fun v d => admitted d p off val (f v)) s := by
  rw [← hw]
  cases c with
  | basePeriod _ => exact nomatch h
  | scratchpadUe _ _ => exact nomatch h
  | sigWindowWrite _ _ => exact nomatch h
  | pllLockLoss => exact nomatch h
  | pllRelock _ => exact nomatch h
  | pllRelockTimeout _ => exact nomatch h
  | regionFault _ _ _ => exact nomatch h
  | clkTrimWrite val => obtain ⟨rfl, rfl, rfl⟩ := hostPage_inj h; exact ⟨_, by unfold exec execClkTrimWrite Instr.wf; rfl⟩
  | flr => exact nomatch h
  | endpointReset => exact nomatch h
  | linkDown => exact nomatch h
  | linkUp _ _ => exact nomatch h
  | registerWrite _ _ _ _ => exact nomatch h
  | writeCrossingDone _ => exact nomatch h
  | xdomTimeout _ _ => exact nomatch h
  | keylockEngage _ => exact nomatch h
  | keylockRelease _ => exact nomatch h
  | ackWrite _ _ => exact nomatch h
  | evtEnWrite _ _ => exact nomatch h
  | vectorEvaluation => exact nomatch h
  | msixMaskWrite _ _ _ => exact nomatch h
  | vecDone val => obtain ⟨rfl, rfl, rfl⟩ := hostPage_inj h; exact ⟨_, by unfold exec execVecDone Instr.wf; rfl⟩
  | sweRaise val => obtain ⟨rfl, rfl, rfl⟩ := hostPage_inj h; exact ⟨_, by unfold exec execSweRaise Instr.wf; rfl⟩
  | idRingWrite val => obtain ⟨rfl, rfl, rfl⟩ := hostPage_inj h; exact ⟨_, by unfold exec execIdRingWrite Instr.wf; rfl⟩
  | blkCtrlRun _ _ => exact nomatch h
  | blkCtrlSafeReq _ _ => exact nomatch h
  | laneNop l => obtain ⟨rfl, rfl, rfl⟩ := hostPage_inj h; exact ⟨_, by unfold exec execLaneNop Instr.wf; rfl⟩
  | laneLoad l => obtain ⟨rfl, rfl, rfl⟩ := hostPage_inj h; exact ⟨_, by unfold exec execLaneLoad Instr.wf; rfl⟩
  | laneVerifyDone _ => exact nomatch h
  | laneUnload l => obtain ⟨rfl, rfl, rfl⟩ := hostPage_inj h; exact ⟨_, by unfold exec execLaneUnload Instr.wf; rfl⟩
  | laneStart l name => obtain ⟨rfl, rfl, rfl⟩ := hostPage_inj h; exact ⟨_, by unfold exec execLaneStart Instr.wf; rfl⟩
  | lanePause l => obtain ⟨rfl, rfl, rfl⟩ := hostPage_inj h; exact ⟨_, by unfold exec execLanePause Instr.wf; rfl⟩
  | laneContinue l => obtain ⟨rfl, rfl, rfl⟩ := hostPage_inj h; exact ⟨_, by unfold exec execLaneContinue Instr.wf; rfl⟩
  | laneStop l => obtain ⟨rfl, rfl, rfl⟩ := hostPage_inj h; exact ⟨_, by unfold exec execLaneStop Instr.wf; rfl⟩
  | laneAbort l => obtain ⟨rfl, rfl, rfl⟩ := hostPage_inj h; exact ⟨_, by unfold exec execLaneAbort Instr.wf; rfl⟩
  | stepDurationEnd _ => exact nomatch h
  | waitTimeout _ => exact nomatch h
  | schedArm l k pol => obtain ⟨rfl, rfl, rfl⟩ := hostPage_inj h; exact ⟨_, by unfold exec execSchedArm Instr.wf; rfl⟩
  | schedDisarm l k pol => obtain ⟨rfl, rfl, rfl⟩ := hostPage_inj h; exact ⟨_, by unfold exec execSchedDisarm Instr.wf; rfl⟩
  | schedSlotFire _ _ => exact nomatch h
  | actSigWrite _ _ => exact nomatch h
  | actAxisMove _ _ => exact nomatch h
  | actLogicEvent _ _ => exact nomatch h
  | actArmSched _ _ => exact nomatch h
  | actDisarmSched _ _ => exact nomatch h
  | actCritical _ _ => exact nomatch h
  | ltGrpStart t => obtain ⟨rfl, rfl, rfl⟩ := hostPage_inj h; exact ⟨_, by unfold exec execLtGrpStart Instr.wf; rfl⟩
  | ltGrpStop t => obtain ⟨rfl, rfl, rfl⟩ := hostPage_inj h; exact ⟨_, by unfold exec execLtGrpStop Instr.wf; rfl⟩
  | coefWrite g sec r val => obtain ⟨rfl, rfl, rfl⟩ := hostPage_inj h; exact ⟨_, by unfold exec execCoefWrite Instr.wf; rfl⟩
  | loopRouteWrite g pub val => obtain ⟨rfl, rfl, rfl⟩ := hostPage_inj h; exact ⟨_, by unfold exec execLoopRouteWrite Instr.wf; rfl⟩
  | supervisionTrip _ => exact nomatch h
  | learnBudgetReset _ => exact nomatch h
  | driftScanEnd _ => exact nomatch h
  | resetLive g => obtain ⟨rfl, rfl, rfl⟩ := hostPage_inj h; exact ⟨_, by unfold exec execResetLive Instr.wf; rfl⟩
  | adopt g => obtain ⟨rfl, rfl, rfl⟩ := hostPage_inj h; exact ⟨_, by unfold exec execAdopt Instr.wf; rfl⟩
  | compBindWrite g val => obtain ⟨rfl, rfl, rfl⟩ := hostPage_inj h; exact ⟨_, by unfold exec execCompBindWrite Instr.wf; rfl⟩
  | compSlotWrite t off val => obtain ⟨rfl, rfl, rfl⟩ := hostPage_inj h; exact ⟨_, by unfold exec execCompSlotWrite Instr.wf; rfl⟩
  | adcWindowStart _ _ => exact nomatch h
  | adcConversionDone _ _ _ _ => exact nomatch h
  | adcChannelStarved _ _ => exact nomatch h
  | seqCommit k => obtain ⟨rfl, rfl, rfl⟩ := hostPage_inj h; exact ⟨_, by unfold exec execSeqCommit Instr.wf; rfl⟩
  | rangeSettleEnd _ _ => exact nomatch h
  | calRotation _ => exact nomatch h
  | sliceCalDone _ _ => exact nomatch h
  | calStoreUe _ => exact nomatch h
  | refSettle _ => exact nomatch h
  | refLost _ => exact nomatch h
  | owPulseStart => exact nomatch h
  | owPulseDecide => exact nomatch h
  | owPulseEnd => exact nomatch h
  | aoOtemp _ => exact nomatch h
  | aoIlimFault _ => exact nomatch h
  | aoReadbackFault _ => exact nomatch h
  | dioInputEdge _ _ _ => exact nomatch h
  | dioSchPush n lvl => obtain ⟨rfl, rfl, rfl⟩ := hostPage_inj h; exact ⟨_, by unfold exec execDioSchPush Instr.wf; rfl⟩
  | dioSchFlush n => obtain ⟨rfl, rfl, rfl⟩ := hostPage_inj h; exact ⟨_, by unfold exec execDioSchFlush Instr.wf; rfl⟩
  | dioSchedSwitch _ => exact nomatch h
  | dioUndercurrent _ => exact nomatch h
  | dioOtemp _ => exact nomatch h
  | dioIlimFault _ => exact nomatch h
  | axNop a => obtain ⟨rfl, rfl, rfl⟩ := hostPage_inj h; exact ⟨_, by unfold exec execAxNop Instr.wf; rfl⟩
  | axMoveAbs a => obtain ⟨rfl, rfl, rfl⟩ := hostPage_inj h; exact ⟨_, by unfold exec execAxMoveAbs Instr.wf; rfl⟩
  | axMoveRel a => obtain ⟨rfl, rfl, rfl⟩ := hostPage_inj h; exact ⟨_, by unfold exec execAxMoveRel Instr.wf; rfl⟩
  | axUpdate a => obtain ⟨rfl, rfl, rfl⟩ := hostPage_inj h; exact ⟨_, by unfold exec execAxUpdate Instr.wf; rfl⟩
  | axJogPos a => obtain ⟨rfl, rfl, rfl⟩ := hostPage_inj h; exact ⟨_, by unfold exec execAxJogPos Instr.wf; rfl⟩
  | axJogNeg a => obtain ⟨rfl, rfl, rfl⟩ := hostPage_inj h; exact ⟨_, by unfold exec execAxJogNeg Instr.wf; rfl⟩
  | axStop a => obtain ⟨rfl, rfl, rfl⟩ := hostPage_inj h; exact ⟨_, by unfold exec execAxStop Instr.wf; rfl⟩
  | axEstop a => obtain ⟨rfl, rfl, rfl⟩ := hostPage_inj h; exact ⟨_, by unfold exec execAxEstop Instr.wf; rfl⟩
  | axHome a => obtain ⟨rfl, rfl, rfl⟩ := hostPage_inj h; exact ⟨_, by unfold exec execAxHome Instr.wf; rfl⟩
  | axGearEngage a => obtain ⟨rfl, rfl, rfl⟩ := hostPage_inj h; exact ⟨_, by unfold exec execAxGearEngage Instr.wf; rfl⟩
  | axGearArm a => obtain ⟨rfl, rfl, rfl⟩ := hostPage_inj h; exact ⟨_, by unfold exec execAxGearArm Instr.wf; rfl⟩
  | axGearRelease a => obtain ⟨rfl, rfl, rfl⟩ := hostPage_inj h; exact ⟨_, by unfold exec execAxGearRelease Instr.wf; rfl⟩
  | axSetPos a => obtain ⟨rfl, rfl, rfl⟩ := hostPage_inj h; exact ⟨_, by unfold exec execAxSetPos Instr.wf; rfl⟩
  | mtGrpStart m => obtain ⟨rfl, rfl, rfl⟩ := hostPage_inj h; exact ⟨_, by unfold exec execMtGrpStart Instr.wf; rfl⟩
  | mtGrpStop m => obtain ⟨rfl, rfl, rfl⟩ := hostPage_inj h; exact ⟨_, by unfold exec execMtGrpStop Instr.wf; rfl⟩
  | mtGrpGo m => obtain ⟨rfl, rfl, rfl⟩ := hostPage_inj h; exact ⟨_, by unfold exec execMtGrpGo Instr.wf; rfl⟩
  | axisProfileEnd _ => exact nomatch h
  | axisStandstill _ => exact nomatch h
  | switchDebounced _ _ _ => exact nomatch h
  | homeChatter _ => exact nomatch h
  | axisStall _ => exact nomatch h
  | encQuadError _ => exact nomatch h
  | encIndex _ _ _ => exact nomatch h
  | ssiFrame _ _ _ => exact nomatch h
  | lpNop p => obtain ⟨rfl, rfl, rfl⟩ := hostPage_inj h; exact ⟨_, by unfold exec execLpNop Instr.wf; rfl⟩
  | lpLoad p => obtain ⟨rfl, rfl, rfl⟩ := hostPage_inj h; exact ⟨_, by unfold exec execLpLoad Instr.wf; rfl⟩
  | lpVerifyDone _ => exact nomatch h
  | lpUnload p => obtain ⟨rfl, rfl, rfl⟩ := hostPage_inj h; exact ⟨_, by unfold exec execLpUnload Instr.wf; rfl⟩
  | lpStage p => obtain ⟨rfl, rfl, rfl⟩ := hostPage_inj h; exact ⟨_, by unfold exec execLpStage Instr.wf; rfl⟩
  | lpStageDone _ => exact nomatch h
  | lpUnstage p => obtain ⟨rfl, rfl, rfl⟩ := hostPage_inj h; exact ⟨_, by unfold exec execLpUnstage Instr.wf; rfl⟩
  | lpChange p drop => obtain ⟨rfl, rfl, rfl⟩ := hostPage_inj h; exact ⟨_, by unfold exec execLpChange Instr.wf; rfl⟩
  | lpCancel p => obtain ⟨rfl, rfl, rfl⟩ := hostPage_inj h; exact ⟨_, by unfold exec execLpCancel Instr.wf; rfl⟩
  | lpTrig p => obtain ⟨rfl, rfl, rfl⟩ := hostPage_inj h; exact ⟨_, by unfold exec execLpTrig Instr.wf; rfl⟩
  | changePoint _ => exact nomatch h
  | forceSet p => obtain ⟨rfl, rfl, rfl⟩ := hostPage_inj h; exact ⟨_, by unfold exec execForceSet Instr.wf; rfl⟩
  | forceRemove p => obtain ⟨rfl, rfl, rfl⟩ := hostPage_inj h; exact ⟨_, by unfold exec execForceRemove Instr.wf; rfl⟩
  | forceClearAll p => obtain ⟨rfl, rfl, rfl⟩ := hostPage_inj h; exact ⟨_, by unfold exec execForceClearAll Instr.wf; rfl⟩
  | taskRelease _ _ => exact nomatch h
  | taskDeadline _ _ => exact nomatch h
  | lpVarWrite _ _ _ => exact nomatch h
  | lpMemoryUe _ _ => exact nomatch h
  | lgNop _ => exact nomatch h
  | lgLd _ => exact nomatch h
  | lgLdn _ => exact nomatch h
  | lgAnd _ => exact nomatch h
  | lgAndn _ => exact nomatch h
  | lgOr _ => exact nomatch h
  | lgOrn _ => exact nomatch h
  | lgXor _ => exact nomatch h
  | lgSt _ => exact nomatch h
  | lgStn _ => exact nomatch h
  | lgSet _ => exact nomatch h
  | lgRst _ => exact nomatch h
  | lgAndp _ => exact nomatch h
  | lgOrp _ => exact nomatch h
  | lgXorp _ => exact nomatch h
  | lgPop _ => exact nomatch h
  | lgNot _ => exact nomatch h
  | lgRed _ => exact nomatch h
  | lgFed _ => exact nomatch h
  | lgTon _ => exact nomatch h
  | lgTof _ => exact nomatch h
  | lgTp _ => exact nomatch h
  | lgCtu _ => exact nomatch h
  | lgCtd _ => exact nomatch h
  | lgCrs _ => exact nomatch h
  | lgCld _ => exact nomatch h
  | lgLpt _ => exact nomatch h
  | lgLpv _ => exact nomatch h
  | lgLdw _ => exact nomatch h
  | lgStw _ => exact nomatch h
  | lgStwc _ => exact nomatch h
  | lgAdd _ => exact nomatch h
  | lgSub _ => exact nomatch h
  | lgMul _ => exact nomatch h
  | lgDiv _ => exact nomatch h
  | lgAndw _ => exact nomatch h
  | lgOrw _ => exact nomatch h
  | lgXorw _ => exact nomatch h
  | lgShl _ => exact nomatch h
  | lgShr _ => exact nomatch h
  | lgCeq _ => exact nomatch h
  | lgCgt _ => exact nomatch h
  | lgClt _ => exact nomatch h
  | lgLdx _ => exact nomatch h
  | lgJmp _ => exact nomatch h
  | lgJc _ => exact nomatch h
  | lgJnc _ => exact nomatch h
  | lgTrig _ => exact nomatch h
  | lgEnd _ => exact nomatch h
  | safetyCycle _ _ => exact nomatch h
  | safetyStatusCommit => exact nomatch h
  | safetyContactChange _ _ _ => exact nomatch h
  | discrepancyFault _ => exact nomatch h
  | resetJam _ => exact nomatch h
  | outputLockout _ _ => exact nomatch h
  | darkTest _ _ _ => exact nomatch h
  | offDelayEnd _ => exact nomatch h
  | mutingTimeout _ => exact nomatch h
  | lockAuxDelayEnd _ => exact nomatch h
  | channelSelfTestFail _ => exact nomatch h
  | safetyClockDeviation _ _ => exact nomatch h
  | safeFrameReceive _ _ => exact nomatch h
  | connWatchdog _ => exact nomatch h
  | networkMissing _ => exact nomatch h
  | degradedTimeout _ => exact nomatch h
  | safeImgReceive _ _ _ _ => exact nomatch h
  | sfNop => obtain ⟨rfl, rfl, rfl⟩ := hostPage_inj h; exact ⟨_, by unfold exec execSfNop Instr.wf; rfl⟩
  | sfUnlock => obtain ⟨rfl, rfl, rfl⟩ := hostPage_inj h; exact ⟨_, by unfold exec execSfUnlock Instr.wf; rfl⟩
  | sfLock => obtain ⟨rfl, rfl, rfl⟩ := hostPage_inj h; exact ⟨_, by unfold exec execSfLock Instr.wf; rfl⟩
  | sfLoad => obtain ⟨rfl, rfl, rfl⟩ := hostPage_inj h; exact ⟨_, by unfold exec execSfLoad Instr.wf; rfl⟩
  | sfConfirm => obtain ⟨rfl, rfl, rfl⟩ := hostPage_inj h; exact ⟨_, by unfold exec execSfConfirm Instr.wf; rfl⟩
  | sfDiscard => obtain ⟨rfl, rfl, rfl⟩ := hostPage_inj h; exact ⟨_, by unfold exec execSfDiscard Instr.wf; rfl⟩
  | sfSetPw => obtain ⟨rfl, rfl, rfl⟩ := hostPage_inj h; exact ⟨_, by unfold exec execSfSetPw Instr.wf; rfl⟩
  | confirmTimeout => exact nomatch h
  | unlockTimeout => exact nomatch h
  | beatReceive _ => exact nomatch h
  | lanternFailure => exact nomatch h
  | inputFrameReceive _ _ _ => exact nomatch h
  | plialeFrameReceive _ _ _ _ => exact nomatch h
  | writesFrameReceive _ _ _ => exact nomatch h
  | forwardMiss => exact nomatch h
  | digestReceive _ _ => exact nomatch h
  | ctrlFrameReceive _ => exact nomatch h
  | imageFrameReceive _ _ _ _ => exact nomatch h
  | baseFrameReceive _ _ => exact nomatch h
  | baseInstalled _ _ => exact nomatch h
  | catchupJoined => exact nomatch h
  | catchupTimeout => exact nomatch h
  | timeFrameReceive _ _ _ => exact nomatch h
  | laneTrained _ => exact nomatch h
  | laneAuthDone _ _ _ => exact nomatch h
  | authRetry _ => exact nomatch h
  | twinLaneDown _ => exact nomatch h
  | seize => exact nomatch h
  | seizureWon => exact nomatch h
  | seizureLost => exact nomatch h
  | holderDecoded _ => exact nomatch h
  | holderLost => exact nomatch h
  | guylineWireFail _ => exact nomatch h
  | guylineWireHealthy _ => exact nomatch h
  | witnessCheckEnd => exact nomatch h
  | authDisagree _ _ => exact nomatch h
  | twNop => obtain ⟨rfl, rfl, rfl⟩ := hostPage_inj h; exact ⟨_, by unfold exec execTwNop Instr.wf; rfl⟩
  | twRelease => obtain ⟨rfl, rfl, rfl⟩ := hostPage_inj h; exact ⟨_, by unfold exec execTwRelease Instr.wf; rfl⟩
  | twResync => obtain ⟨rfl, rfl, rfl⟩ := hostPage_inj h; exact ⟨_, by unfold exec execTwResync Instr.wf; rfl⟩
  | twClearHalt => obtain ⟨rfl, rfl, rfl⟩ := hostPage_inj h; exact ⟨_, by unfold exec execTwClearHalt Instr.wf; rfl⟩
  | twReturnNow => obtain ⟨rfl, rfl, rfl⟩ := hostPage_inj h; exact ⟨_, by unfold exec execTwReturnNow Instr.wf; rfl⟩
  | holdoffExpired => exact nomatch h
  | handoverStart => exact nomatch h
  | handoverTimeout => exact nomatch h
  | glNop => obtain ⟨rfl, rfl, rfl⟩ := hostPage_inj h; exact ⟨_, by unfold exec execGlNop Instr.wf; rfl⟩
  | glForceSeize key => obtain ⟨rfl, rfl, rfl⟩ := hostPage_inj h; exact ⟨_, by unfold exec execGlForceSeize Instr.wf; rfl⟩
  | glRetest a b => obtain ⟨rfl, rfl, rfl⟩ := hostPage_inj h; exact ⟨_, by unfold exec execGlRetest Instr.wf; rfl⟩
  | warmReset _ => exact nomatch h
  | coldReset _ => exact nomatch h
  | supervisorWatchdog => exact nomatch h
  | servicePortReset => exact nomatch h
  | vinRise _ => exact nomatch h
  | bootComplete _ => exact nomatch h
  | powerFailure => exact nomatch h
  | finalCommitDone => exact nomatch h
  | brownout => exact nomatch h
  | holdupSpent => exact nomatch h
  | holdupOkSet => exact nomatch h
  | holdupLow => exact nomatch h
  | outputHoldExpired => exact nomatch h
  | journalEpoch => exact nomatch h
  | journalCommit => exact nomatch h
  | sbNop => obtain ⟨rfl, rfl, rfl⟩ := hostPage_inj h; exact ⟨_, by unfold exec execSbNop Instr.wf; rfl⟩
  | forceCold => obtain ⟨rfl, rfl, rfl⟩ := hostPage_inj h; exact ⟨_, by unfold exec execForceCold Instr.wf; rfl⟩
  | cancelCold => obtain ⟨rfl, rfl, rfl⟩ := hostPage_inj h; exact ⟨_, by unfold exec execCancelCold Instr.wf; rfl⟩
  | plNop seg => obtain ⟨rfl, rfl, rfl⟩ := hostPage_inj h; exact ⟨_, by unfold exec execPlNop Instr.wf; rfl⟩
  | plLoad seg => obtain ⟨rfl, rfl, rfl⟩ := hostPage_inj h; exact ⟨_, by unfold exec execPlLoad Instr.wf; rfl⟩
  | plVerifyDone _ => exact nomatch h
  | plUnload seg => obtain ⟨rfl, rfl, rfl⟩ := hostPage_inj h; exact ⟨_, by unfold exec execPlUnload Instr.wf; rfl⟩
  | plStart seg => obtain ⟨rfl, rfl, rfl⟩ := hostPage_inj h; exact ⟨_, by unfold exec execPlStart Instr.wf; rfl⟩
  | plStop seg => obtain ⟨rfl, rfl, rfl⟩ := hostPage_inj h; exact ⟨_, by unfold exec execPlStop Instr.wf; rfl⟩
  | plLcmdNop seg => obtain ⟨rfl, rfl, rfl⟩ := hostPage_inj h; exact ⟨_, by unfold exec execPlLcmdNop Instr.wf; rfl⟩
  | plRestart seg => obtain ⟨rfl, rfl, rfl⟩ := hostPage_inj h; exact ⟨_, by unfold exec execPlRestart Instr.wf; rfl⟩
  | plAcyc seg => obtain ⟨rfl, rfl, rfl⟩ := hostPage_inj h; exact ⟨_, by unfold exec execPlAcyc Instr.wf; rfl⟩
  | plResync seg k => obtain ⟨rfl, rfl, rfl⟩ := hostPage_inj h; exact ⟨_, by unfold exec execPlResync Instr.wf; rfl⟩
  | plialeCycleStart _ => exact nomatch h
  | pollSend _ _ => exact nomatch h
  | replyReceive _ _ _ _ => exact nomatch h
  | acycWindowEnd _ => exact nomatch h
  | measRspReceive _ _ _ => exact nomatch h
  | acycRspReceive _ _ _ _ => exact nomatch h
  | acycResponseTimeout _ => exact nomatch h
  | foreignSync _ => exact nomatch h
  | plCollision _ _ _ => exact nomatch h
  | lineActivity _ => exact nomatch h
  | listenSilenceExpired _ => exact nomatch h
  | plSchedUe _ => exact nomatch h
  | cxNop x => obtain ⟨rfl, rfl, rfl⟩ := hostPage_inj h; exact ⟨_, by unfold exec execCxNop Instr.wf; rfl⟩
  | cxStart x => obtain ⟨rfl, rfl, rfl⟩ := hostPage_inj h; exact ⟨_, by unfold exec execCxStart Instr.wf; rfl⟩
  | cxStop x => obtain ⟨rfl, rfl, rfl⟩ := hostPage_inj h; exact ⟨_, by unfold exec execCxStop Instr.wf; rfl⟩
  | cxRecover x => obtain ⟨rfl, rfl, rfl⟩ := hostPage_inj h; exact ⟨_, by unfold exec execCxRecover Instr.wf; rfl⟩
  | cxFlush x q => obtain ⟨rfl, rfl, rfl⟩ := hostPage_inj h; exact ⟨_, by unfold exec execCxFlush Instr.wf; rfl⟩
  | cxTxPost x q val => obtain ⟨rfl, rfl, rfl⟩ := hostPage_inj h; exact ⟨_, by unfold exec execCxTxPost Instr.wf; rfl⟩
  | cxTxStart _ => exact nomatch h
  | cxTxComplete _ _ => exact nomatch h
  | cxRxFrame _ _ => exact nomatch h
  | cxBusError _ _ => exact nomatch h
  | cxRqAck x r val => obtain ⟨rfl, rfl, rfl⟩ := hostPage_inj h; exact ⟨_, by unfold exec execCxRqAck Instr.wf; rfl⟩
  | cxIntegrated _ => exact nomatch h
  | cxRecovered _ => exact nomatch h
  | tbNop => obtain ⟨rfl, rfl, rfl⟩ := hostPage_inj h; exact ⟨_, by unfold exec execTbNop Instr.wf; rfl⟩
  | tbSet => obtain ⟨rfl, rfl, rfl⟩ := hostPage_inj h; exact ⟨_, by unfold exec execTbSet Instr.wf; rfl⟩
  | tbIncWrite val => obtain ⟨rfl, rfl, rfl⟩ := hostPage_inj h; exact ⟨_, by unfold exec execTbIncWrite Instr.wf; rfl⟩
  | tbSelWrite val => obtain ⟨rfl, rfl, rfl⟩ := hostPage_inj h; exact ⟨_, by unfold exec execTbSelWrite Instr.wf; rfl⟩
  | ptpEventFrame _ _ _ _ _ => exact nomatch h
  | ptpMessageReceive _ _ => exact nomatch h
  | announceTimeout _ => exact nomatch h
  | syncTimeout _ => exact nomatch h
  | domainAutoSwitch => exact nomatch h
  | slewDone => exact nomatch h
  | ethTxPost e q val => obtain ⟨rfl, rfl, rfl⟩ := hostPage_inj h; exact ⟨_, by unfold exec execEthTxPost Instr.wf; rfl⟩
  | ethTxComplete _ _ _ => exact nomatch h
  | ethRxFrame _ _ _ => exact nomatch h
  | ethRqAck e r val => obtain ⟨rfl, rfl, rfl⟩ := hostPage_inj h; exact ⟨_, by unfold exec execEthRqAck Instr.wf; rfl⟩
  | ethGclCommit e => obtain ⟨rfl, rfl, rfl⟩ := hostPage_inj h; exact ⟨_, by unfold exec execEthGclCommit Instr.wf; rfl⟩
  | gclCycleStart _ => exact nomatch h
  | gclEntryChange _ => exact nomatch h
  | ethLinkChange _ _ => exact nomatch h
  | cbStreamReset _ _ => exact nomatch h
  | daybookReport _ _ _ => exact nomatch h
  | recordCommit => exact nomatch h
  | tokenGain _ => exact nomatch h
  | dbNop => obtain ⟨rfl, rfl, rfl⟩ := hostPage_inj h; exact ⟨_, by unfold exec execDbNop Instr.wf; rfl⟩
  | dbClear => obtain ⟨rfl, rfl, rfl⟩ := hostPage_inj h; exact ⟨_, by unfold exec execDbClear Instr.wf; rfl⟩
  | clearExecute => exact nomatch h
  | dbAppPut who => obtain ⟨rfl, rfl, rfl⟩ := hostPage_inj h; exact ⟨_, by unfold exec execDbAppPut Instr.wf; rfl⟩
  | trNop => obtain ⟨rfl, rfl, rfl⟩ := hostPage_inj h; exact ⟨_, by unfold exec execTrNop Instr.wf; rfl⟩
  | trStart => obtain ⟨rfl, rfl, rfl⟩ := hostPage_inj h; exact ⟨_, by unfold exec execTrStart Instr.wf; rfl⟩
  | trStop => obtain ⟨rfl, rfl, rfl⟩ := hostPage_inj h; exact ⟨_, by unfold exec execTrStop Instr.wf; rfl⟩
  | trTrigger => obtain ⟨rfl, rfl, rfl⟩ := hostPage_inj h; exact ⟨_, by unfold exec execTrTrigger Instr.wf; rfl⟩
  | trUnfreeze => obtain ⟨rfl, rfl, rfl⟩ := hostPage_inj h; exact ⟨_, by unfold exec execTrUnfreeze Instr.wf; rfl⟩
  | trXfer => obtain ⟨rfl, rfl, rfl⟩ := hostPage_inj h; exact ⟨_, by unfold exec execTrXfer Instr.wf; rfl⟩
  | xferDone => exact nomatch h
  | trResetRing => obtain ⟨rfl, rfl, rfl⟩ := hostPage_inj h; exact ⟨_, by unfold exec execTrResetRing Instr.wf; rfl⟩
  | freezeEnd => exact nomatch h
  | trRelease val => obtain ⟨rfl, rfl, rfl⟩ := hostPage_inj h; exact ⟨_, by unfold exec execTrRelease Instr.wf; rfl⟩
  | trDmaCopy _ => exact nomatch h
  | yield _ => exact nomatch h
  | block _ => exact nomatch h
  | exit _ => exact nomatch h
  | dispatch _ => exact nomatch h
  | wake _ _ => exact nomatch h
  | create _ _ => exact nomatch h
  | suspend _ _ => exact nomatch h
  | resume _ _ => exact nomatch h
  | destroy _ _ => exact nomatch h
  | wakeToken => exact nomatch h
  | patienceExpired _ => exact nomatch h
  | descriptorWrite t w val => obtain ⟨rfl, rfl, rfl⟩ := hostPage_inj h; exact ⟨_, by unfold exec execDescriptorWrite Instr.wf; rfl⟩
  | coreWatchdog _ => exact nomatch h
  | coreFault _ => exact nomatch h
  | coreNop c => obtain ⟨rfl, rfl, rfl⟩ := hostPage_inj h; exact ⟨_, by unfold exec execCoreNop Instr.wf; rfl⟩
  | coreReset c => obtain ⟨rfl, rfl, rfl⟩ := hostPage_inj h; exact ⟨_, by unfold exec execCoreReset Instr.wf; rfl⟩
  | coreHalt c => obtain ⟨rfl, rfl, rfl⟩ := hostPage_inj h; exact ⟨_, by unfold exec execCoreHalt Instr.wf; rfl⟩
  | coreStart c => obtain ⟨rfl, rfl, rfl⟩ := hostPage_inj h; exact ⟨_, by unfold exec execCoreStart Instr.wf; rfl⟩
  | tallyUe => exact nomatch h
  | mbPowerRequest b val => obtain ⟨rfl, rfl, rfl⟩ := hostPage_inj h; exact ⟨_, by unfold exec execMbPowerRequest Instr.wf; rfl⟩
  | mbPowerDone _ => exact nomatch h
  | sramCe _ => exact nomatch h
  | sramUe _ => exact nomatch h
  | tinkerRowTest => exact nomatch h
  | tinkerRowDone _ => exact nomatch h
  | tkNop => obtain ⟨rfl, rfl, rfl⟩ := hostPage_inj h; exact ⟨_, by unfold exec execTkNop Instr.wf; rfl⟩
  | testRow b row => obtain ⟨rfl, rfl, rfl⟩ := hostPage_inj h; exact ⟨_, by unfold exec execTestRow Instr.wf; rfl⟩
  | restartPass => obtain ⟨rfl, rfl, rfl⟩ := hostPage_inj h; exact ⟨_, by unfold exec execRestartPass Instr.wf; rfl⟩
  | tinkerBufferUe _ => exact nomatch h
  | nvWrite _ _ => exact nomatch h
  | nvLineWrite _ => exact nomatch h
  | idNop => obtain ⟨rfl, rfl, rfl⟩ := hostPage_inj h; exact ⟨_, by unfold exec execIdNop Instr.wf; rfl⟩
  | attest => obtain ⟨rfl, rfl, rfl⟩ := hostPage_inj h; exact ⟨_, by unfold exec execAttest Instr.wf; rfl⟩
  | attestDone => exact nomatch h
  | ownerSet => obtain ⟨rfl, rfl, rfl⟩ := hostPage_inj h; exact ⟨_, by unfold exec execOwnerSet Instr.wf; rfl⟩
  | keyAdd k => obtain ⟨rfl, rfl, rfl⟩ := hostPage_inj h; exact ⟨_, by unfold exec execKeyAdd Instr.wf; rfl⟩
  | keyDel k => obtain ⟨rfl, rfl, rfl⟩ := hostPage_inj h; exact ⟨_, by unfold exec execKeyDel Instr.wf; rfl⟩
  | pwrNop => obtain ⟨rfl, rfl, rfl⟩ := hostPage_inj h; exact ⟨_, by unfold exec execPwrNop Instr.wf; rfl⟩
  | pwrWarm key => obtain ⟨rfl, rfl, rfl⟩ := hostPage_inj h; exact ⟨_, by unfold exec execPwrWarm Instr.wf; rfl⟩
  | pwrCold key => obtain ⟨rfl, rfl, rfl⟩ := hostPage_inj h; exact ⟨_, by unfold exec execPwrCold Instr.wf; rfl⟩
  | pwrInstall => obtain ⟨rfl, rfl, rfl⟩ := hostPage_inj h; exact ⟨_, by unfold exec execPwrInstall Instr.wf; rfl⟩
  | installDone _ _ => exact nomatch h
  | kaStoreLost => exact nomatch h
  | keepalivePersist => exact nomatch h
  | insertion => exact nomatch h
  | removal => exact nomatch h
  | healthSample _ => exact nomatch h
  | holdupMeasure _ _ _ => exact nomatch h
  | eolUpdate _ => exact nomatch h
  | wearLedgerSave => exact nomatch h
  | wlNop => obtain ⟨rfl, rfl, rfl⟩ := hostPage_inj h; exact ⟨_, by unfold exec execWlNop Instr.wf; rfl⟩
  | wlSet => obtain ⟨rfl, rfl, rfl⟩ := hostPage_inj h; exact ⟨_, by unfold exec execWlSet Instr.wf; rfl⟩
  | wlClearCount => obtain ⟨rfl, rfl, rfl⟩ := hostPage_inj h; exact ⟨_, by unfold exec execWlClearCount Instr.wf; rfl⟩
  | vfldLow _ => exact nomatch h
  | vfldRestored _ => exact nomatch h
  | acyclicWindowStart _ => exact nomatch h
  | trimSlewDone => exact nomatch h
  | vinLow _ => exact nomatch h
  | offBankAccess _ => exact nomatch h
  | d3hotTransition _ => exact nomatch h
  | scratchpadCe _ => exact nomatch h

end Sys2Proof.Machine
end

