-- ==== Sys2Proof/Laws/Threads.lean ====
section
/-! SUPPORT. What the operations of the thread dispatcher do, one lemma for each (R410 to R416). -/

namespace Sys2Proof.Machine

/-! Reading a descriptor and a core after a write of one. -/
@[simp] theorem thrOf_setThr_same (d : Dev) (t : Nat) (x : Thr) : thrOf (setThr d t x) t = x := tget_tset_same _ _ _ _
theorem thrOf_setThr_ne (d : Dev) {t u : Nat} (x : Thr) (h : u ≠ t) : thrOf (setThr d t x) u = thrOf d u := tget_tset_ne _ _ _ _ h
@[simp] theorem tcOf_setTc_same (d : Dev) (c : Nat) (x : TCore) : tcOf (setTc d c x) c = x := tget_tset_same _ _ _ _
theorem tcOf_setTc_ne (d : Dev) {c k : Nat} (x : TCore) (h : k ≠ c) : tcOf (setTc d c x) k = tcOf d k := tget_tset_ne _ _ _ _ h
@[simp] theorem tcOf_setThr (d : Dev) (t k : Nat) (x : Thr) : tcOf (setThr d t x) k = tcOf d k := rfl
@[simp] theorem thrOf_setTc (d : Dev) (c t : Nat) (x : TCore) : thrOf (setTc d c x) t = thrOf d t := rfl
@[simp] theorem thrs_setTc (d : Dev) (c : Nat) (x : TCore) : (setTc d c x).tl.thrs = d.tl.thrs := rfl
@[simp] theorem cores_setThr (d : Dev) (t : Nat) (x : Thr) : (setThr d t x).tl.cores = d.tl.cores := rfl
@[simp] theorem fault_setTc (d : Dev) (c : Nat) (x : TCore) : (setTc d c x).tl.fault = d.tl.fault := rfl

theorem OnlyThreads.refl (d : Dev) : OnlyThreads d d := rfl
theorem OnlyThreads.trans {d e f : Dev} (h : OnlyThreads d e) (g : OnlyThreads e f) : OnlyThreads d f := by
  unfold OnlyThreads at *; rw [g, h]
theorem onlyThreads_setThr (d : Dev) (t : Nat) (x : Thr) : OnlyThreads d (setThr d t x) := rfl
theorem onlyThreads_setTc (d : Dev) (c : Nat) (x : TCore) : OnlyThreads d (setTc d c x) := rfl
theorem thrOf_thrs {d e : Dev} (h : e.tl.thrs = d.tl.thrs) (t : Nat) : thrOf e t = thrOf d t := by unfold thrOf; rw [h]
theorem tcOf_cores {d e : Dev} (h : e.tl.cores = d.tl.cores) (k : Nat) : tcOf e k = tcOf d k := by unfold tcOf; rw [h]

/-- The idle signals of several cores. -/
theorem idleSigs (l : List Nat) : ∀ d : Dev, l.Nodup → ∀ e, e = l.foldl (fun d c => setTc d c { tcOf d c with idleSig := (tcOf d c).idleSig + 1 }) d →
    OnlyThreads d e ∧ e.tl.thrs = d.tl.thrs ∧ ∀ k, tcOf e k = { tcOf d k with idleSig := (tcOf d k).idleSig + b2n (decide (k ∈ l)) } := by
  induction l with
  | nil => intro d _ e he; subst he; exact ⟨rfl, rfl, fun k => rfl⟩
  | cons c l ih =>
    intro d hn e he
    obtain ⟨hc, hn⟩ := List.nodup_cons.mp hn
    obtain ⟨h1, h2, h3⟩ := ih _ hn e he
    refine ⟨(onlyThreads_setTc _ _ _).trans h1, h2, fun k => ?_⟩
    rw [h3 k]
    by_cases hk : k = c
    · subst hk; rw [tcOf_setTc_same]; simp [hc, b2n]
    · rw [tcOf_setTc_ne _ _ hk]; simp [hk]

/-- The signals of a thread that waits, all they can do (R412). -/
theorem signalFor_spec (d : Dev) (t : Nat) : OnlyThreads d (signalFor d t) ∧ (signalFor d t).tl.thrs = d.tl.thrs
    ∧ ∀ k, k < 8 → if (List.range 8).any (fun i => (tcOf d i).idle && grantOf d i == some t)
      then tcOf (signalFor d t) k = { tcOf d k with idleSig := (tcOf d k).idleSig + b2n ((tcOf d k).idle && grantOf d k == some t) }
      else tcOf (signalFor d t) k = { tcOf d k with preSig := (tcOf d k).preSig + b2n (preemptCore d (thrOf d t) == some k) } := by
  unfold signalFor
  dsimp only
  split
  · next h =>
    have ha : (List.range 8).any (fun i => (tcOf d i).idle && grantOf d i == some t) = true := by
      obtain ⟨i, hi⟩ := List.exists_mem_of_ne_nil _ h
      obtain ⟨h1, h2⟩ := List.mem_filter.mp hi
      exact List.any_eq_true.mpr ⟨i, h1, h2⟩
    obtain ⟨h1, h2, h3⟩ := idleSigs _ d (List.Nodup.filter _ List.nodup_range) _ rfl
    refine ⟨h1, h2, fun k hk => ?_⟩
    have hm : decide (k ∈ (List.range 8).filter (fun c => (tcOf d c).idle && grantOf d c == some t)) = ((tcOf d k).idle && grantOf d k == some t) := by
      rw [Bool.eq_iff_iff, decide_eq_true_iff, List.mem_filter]; simp [hk]
    rw [if_pos ha, h3 k, hm]
  · next h =>
    have ha : ¬(List.range 8).any (fun i => (tcOf d i).idle && grantOf d i == some t) = true := by
      intro hc
      obtain ⟨i, h1, h2⟩ := List.any_eq_true.mp hc
      exact h (List.ne_nil_of_mem (List.mem_filter.mpr ⟨h1, h2⟩))
    split
    · next c hc =>
      refine ⟨onlyThreads_setTc _ _ _, rfl, fun k _ => ?_⟩
      rw [if_neg ha, hc]
      by_cases hk : k = c
      · subst hk; rw [tcOf_setTc_same]; simp [b2n]
      · rw [tcOf_setTc_ne _ _ hk]; simp [b2n, Ne.symm hk]
    · next hc =>
      refine ⟨rfl, rfl, fun k _ => ?_⟩
      rw [if_neg ha, hc]
      simp [b2n]

theorem makeReady_readied (d : Dev) (t : Nat) : Readied t d (makeReady d t) := by
  obtain ⟨h1, h2, h3⟩ := signalFor_spec (setThr d t { thrOf d t with st := .ready, ts := tbNs d }) t
  exact ⟨_, rfl, h1, h2, h3⟩

theorem dispatchCore_dispatched (d : Dev) (c : Nat) : Dispatched c d (dispatchCore d c) := by
  unfold Dispatched dispatchCore
  cases h : grantOf d c with
  | some t =>
    dsimp only
    exact ⟨rfl, fun k hk => by rw [tcOf_setTc_ne _ _ hk, tcOf_setThr], by rw [thrOf_setTc, thrOf_setThr_same], fun u hu => by rw [thrOf_setTc, thrOf_setThr_ne _ _ hu],
      by rw [tcOf_setTc_same, tcOf_setThr]⟩
  | none => exact ⟨rfl, fun k hk => tcOf_setTc_ne _ _ hk, rfl, tcOf_setTc_same _ _ _⟩

theorem opRes_answered (d : Dev) (c r : Nat) : Answered c r d (opRes d c r) :=
  ⟨rfl, rfl, tcOf_setTc_same _ _ _, fun _ hk => tcOf_setTc_ne _ _ hk⟩

theorem wakeThread_woken (d : Dev) (t : Nat) : Woken t d (wakeThread d t) := by
  unfold Woken wakeThread
  dsimp only
  cases h : (thrOf d t).st <;> refine ⟨fun h1 => ?_, fun h1 => ?_, fun h1 h2 => ?_⟩ <;>
    first
    | exact makeReady_readied d t
    | rfl
    | exact absurd h1 (by decide)
    | exact absurd rfl h1
    | exact absurd rfl h2
    | exact ⟨rfl, rfl, by rw [thrOf_setThr_same], fun u hu => thrOf_setThr_ne _ _ hu⟩

theorem coreStop_stopped (d : Dev) (c : Nat) (fault halt : Bool) : CoreStopped c fault halt d (coreStop d c fault halt) := by
  unfold CoreStopped coreStop
  dsimp only
  cases h : (tcOf d c).cur with
  | some t =>
    dsimp only
    exact ⟨rfl, fun k hk => by rw [tcOf_setTc_ne _ _ hk, tcOf_setThr], by rw [tcOf_setTc_same, tcOf_setThr]; rfl, by rw [thrOf_setTc, thrOf_setThr_same],
      fun u hu => by rw [thrOf_setTc, thrOf_setThr_ne _ _ hu]⟩
  | none => exact ⟨rfl, fun k hk => tcOf_setTc_ne _ _ hk, by rw [tcOf_setTc_same], rfl⟩

/-- An operation on the current thread: left as f says, then as DISPATCH. -/
theorem leaveOp_runs (d : Dev) (c t : Nat) (f : Dev → Nat → Dev) (hc : c < 8) (hh : (tcOf d c).halted = false) (ht : (tcOf d c).cur = some t) (hf : d.tl.fault = false) :
    leaveOp d c f = dispatchCore (f (leftCore d c) t) c := by
  have ho : opCore d c = true := by unfold opCore; simp [hc, hh]
  have hcur : (tcOf (opBegin d c 0) c).cur = some t := by unfold opBegin; rw [tcOf_setTc_same]; exact ht
  have hl : setTc (opBegin d c 0) c { tcOf (opBegin d c 0) c with cur := none } = leftCore d c := by
    unfold opBegin leftCore
    rw [tcOf_setTc_same]
    unfold setTc
    dsimp only
    rw [tset_tset _ _ _ _ _ (fun h => by have := congrArg TCore.cur h; rw [show _ = (tcOf d c).cur from rfl, ht] at this; exact absurd this (by simp [tcore0]))]
  unfold leaveOp
  rw [if_neg (by rw [ho]; decide)]
  dsimp only
  rw [hcur, hl]
  dsimp only
  rw [if_neg (by show ¬(d.tl.fault = true); rw [hf]; decide)]

/-- An operation that names a thread, carried out. -/
theorem threadOp_runs (d : Dev) (c t : Nat) (f : Dev → Dev × Nat) (hc : c < 8) (hh : (tcOf d c).halted = false) (hf : d.tl.fault = false) (ht : t < 4096) :
    threadOp d c t f = opRes (f (opBegin d c t)).1 c (f (opBegin d c t)).2 := by
  have ho : opCore d c = true := by unfold opCore; simp [hc, hh]
  unfold threadOp
  rw [if_neg (by rw [ho]; decide)]
  dsimp only
  rw [if_neg (by show ¬(d.tl.fault = true); rw [hf]; decide), if_neg (by omega)]

end Sys2Proof.Machine
end

