-- ==== Sys2Proof/Laws/Time.lean ====
section
/-! SUPPORT. What the operations of the time base leave alone, and what a step, a slew and a change of TB_INC's parts do (R355, R356,
R363, R364). -/

namespace Sys2Proof.Machine

theorem OnlyTime.refl (as : List Nat) (d : Dev) : OnlyTime as d d := ⟨rfl, fun _ _ _ => rfl⟩
theorem OnlyTime.mono {as bs : List Nat} {d e : Dev} (h : OnlyTime as d e) (hb : ∀ a, a ∈ as → a ∈ bs) : OnlyTime bs d e :=
  ⟨h.1, fun a ha => h.2 a (fun hm => ha (hb a hm))⟩
theorem OnlyTime.trans {as bs : List Nat} {d e f : Dev} (h : OnlyTime as d e) (g : OnlyTime bs e f) : OnlyTime (as ++ bs) d f := by
  obtain ⟨h1, h2⟩ := h
  obtain ⟨g1, g2⟩ := g
  refine ⟨?_, fun a ha hr => ?_⟩
  · rw [h1] at g1; rw [g1]
  · rw [List.mem_append, not_or] at ha; exact (g2 a ha.2 hr).trans (h2 a ha.1 hr)
theorem OnlyTime.role {as : List Nat} {d e : Dev} (h : OnlyTime as d e) : e.role = d.role := by rw [h.1]
theorem OnlyTime.follow {as : List Nat} {d e : Dev} (h : OnlyTime as d e) : pairFollow e = pairFollow d := by unfold pairFollow; rw [h.role]
theorem onlyTime_wr (d : Dev) (a : Nat) (v : W32) : OnlyTime [a] d (wr d a v) := ⟨rfl, fun b hb _ => rd_wr_ne _ _ (by simpa using hb)⟩
theorem onlyTime_wr64 (d : Dev) (a v : Nat) : OnlyTime [a, a + 4] d (wr64 d a v) := (onlyTime_wr d a _).trans (onlyTime_wr _ _ _)
theorem onlyTime_setTb (d : Dev) (x : Tb) : OnlyTime [] d (setTb d x) := ⟨rfl, fun _ _ _ => rd_setTb _ _ _⟩
theorem onlyTime_holdGates (d : Dev) : OnlyTime [] d (holdGates d) := ⟨rfl, fun a _ _ => rd_congr rfl a⟩
theorem onlyTime_recorded {d e : Dev} (h : Recorded d e) : OnlyTime [] d e := by
  refine ⟨?_, fun a _ hr => h.2 a hr⟩
  have h1 := h.keeps.2.2.2.2.2.2.2.2.2.2.2.2.2.1
  have h2 := h.keeps.2.2.2.2.2.2.2.2.2.2.2.2.2.2.1
  rw [h.1] at h1 h2 ⊢
@[simp] theorem tb_wr (d : Dev) (a : Nat) (v : W32) : (wr d a v).tb = d.tb := rfl
@[simp] theorem tb_wr64 (d : Dev) (a v : Nat) : (wr64 d a v).tb = d.tb := rfl
@[simp] theorem tb_setTb (d : Dev) (x : Tb) : (setTb d x).tb = x := rfl
@[simp] theorem tb_holdGates (d : Dev) : (holdGates d).tb = d.tb := rfl

theorem clampI_bounds (lo hi x : Int) (h : lo ≤ hi) : lo ≤ clampI lo hi x ∧ clampI lo hi x ≤ hi := by unfold clampI; split <;> [skip; split] <;> omega
theorem clampI_in (lo hi x : Int) (h : lo ≤ x) (h' : x ≤ hi) : clampI lo hi x = x := by unfold clampI; rw [if_neg (by omega), if_neg (by omega)]
theorem phaseMax_nonneg (d : Dev) : 0 ≤ phaseMax d := Int.ediv_nonneg (Int.mul_nonneg (by decide) (Int.natCast_nonneg _)) (by decide)
theorem phaseMax_congr {d e : Dev} (h : rd e TB_CFG = rd d TB_CFG) : phaseMax e = phaseMax d := by unfold phaseMax slewMax; rw [h]

theorem rd64_eq {d e : Dev} {a : Nat} (h : rd e a = rd d a) (h' : rd e (a + 4) = rd d (a + 4)) : rd64 e a = rd64 d a := by unfold rd64; rw [h, h']

/-- TB_INC formed anew from its parts. -/
theorem tbInc_facts (d : Dev) : OnlyTime [TB_INC] d (tbInc d) ∧ (tbInc d).tb = d.tb ∧ TbFormed (tbInc d) := by
  refine ⟨onlyTime_wr _ _ _, rfl, ?_⟩
  unfold TbFormed tbInc wrN
  rw [rdN, rd_wr_same, tb_wr]
  have := clampI_bounds 0x04FFAE15 0x050051EB (incNominal + d.tb.fpart + d.tb.phase) (by decide)
  rw [w32, BitVec.toNat_ofNat, Nat.mod_eq_of_lt (by omega)]
/-- The phase part set. -/
theorem setPhase_facts (d : Dev) (p : Int) : OnlyTime [TB_INC] d (setPhase d p) ∧ (setPhase d p).tb = { d.tb with phase := clampI (-phaseMax d) (phaseMax d) p } ∧ TbFormed (setPhase d p) := by
  obtain ⟨h1, h2, h3⟩ := tbInc_facts (setTb d { d.tb with phase := clampI (-phaseMax d) (phaseMax d) p })
  exact ⟨(onlyTime_setTb d _).trans h1, h2, h3⟩
/-- A slew ended. -/
theorem slewEnd_facts (d : Dev) : OnlyTime [TB_INC] d (slewEnd d) ∧ (slewEnd d).tb = { d.tb with slew := none, pairSlew := none, phase := 0 } ∧ TbFormed (slewEnd d) := by
  unfold slewEnd
  obtain ⟨h1, h2, h3⟩ := setPhase_facts (setTb d { d.tb with slew := none, pairSlew := none }) 0
  have := phaseMax_nonneg (setTb d { d.tb with slew := none, pairSlew := none })
  rw [clampI_in _ _ _ (by omega) this] at h2
  exact ⟨(onlyTime_setTb d _).trans h1, h2, h3⟩
/-- A slew of whole nanoseconds begun. -/
theorem slewStart_facts (d : Dev) (n : Int) : OnlyTime [TB_INC] d (slewStart d (n * oneNs) (phaseMax d) false) ∧ TbFormed (slewStart d (n * oneNs) (phaseMax d) false)
    ∧ (slewStart d (n * oneNs) (phaseMax d) false).tb = if n = 0 then { d.tb with slew := none, pairSlew := none, phase := 0 }
      else { d.tb with slew := some (n * oneNs), pairSlew := none, phase := if n < 0 then -phaseMax d else phaseMax d } := by
  have ho : oneNs = 16777216 := rfl
  unfold slewStart
  by_cases hn : n = 0
  · rw [if_pos (by rw [hn, ho]; decide), if_pos hn]
    obtain ⟨h1, h2, h3⟩ := slewEnd_facts d
    exact ⟨h1, h3, h2⟩
  · rw [if_neg (by rw [ho]; omega), if_neg hn]
    obtain ⟨h1, h2, h3⟩ := setPhase_facts (setTb d { d.tb with slew := some (n * oneNs), pairSlew := none }) (if n * oneNs < 0 then -phaseMax d else phaseMax d)
    have hp : phaseMax (setTb d { d.tb with slew := some (n * oneNs), pairSlew := none }) = phaseMax d := phaseMax_congr (rd_setTb _ _ _)
    have := phaseMax_nonneg d
    rw [hp, clampI_in _ _ _ (by split <;> omega) (by split <;> omega)] at h2
    rw [if_neg (show ¬((false : Bool) = true) by decide)]
    refine ⟨(onlyTime_setTb d _).trans h1, h3, ?_⟩
    rw [h2]
    have : (n * oneNs < 0) = (n < 0) := by rw [ho]; simp only [eq_iff_iff]; omega
    simp only [this, tb_setTb]
/-- The device's operands of a step: TB_NS, TRACE and the count. -/
theorem tbStep_facts (d : Dev) (new cause : Nat) : OnlyTime [TB_NS, TB_NS + 4, TB_STAT, TB_STEP_CNT] d (tbStep d new cause) ∧ (tbStep d new cause).tb = d.tb
    ∧ tbNs (tbStep d new cause) = new % 2 ^ 64 ∧ rd (tbStep d new cause) TB_STEP_CNT = rd d TB_STEP_CNT + 1 ∧ rd (tbStep d new cause) TB_STAT = putBit (rd d TB_STAT) 2 true := by
  obtain ⟨e, he⟩ : ∃ e, e = holdGates (bump (wrBit (wr64 d TB_NS (new % 2 ^ 64)) TB_STAT 2 true) TB_STEP_CNT) := ⟨_, rfl⟩
  have h1 : OnlyTime [TB_NS, TB_NS + 4, TB_STAT, TB_STEP_CNT] d e := by
    rw [he]; exact (((onlyTime_wr64 d _ _).trans (onlyTime_wr _ _ _)).trans (onlyTime_wr _ _ _)).trans (onlyTime_holdGates _)
  have h2 : e.tb = d.tb := by rw [he]; rfl
  have h3 : ∀ a, rd e a = rd (bump (wrBit (wr64 d TB_NS (new % 2 ^ 64)) TB_STAT 2 true) TB_STEP_CNT) a := fun a => by rw [he]; exact rd_congr rfl a
  have h4 : rd e TB_STEP_CNT = rd d TB_STEP_CNT + 1 := by rw [h3, rd_bump_same, rd_wrBit_ne _ _ _ (by decide), rd_wr64_ne _ _ (by decide) (by decide)]
  have h5 : rd e TB_STAT = putBit (rd d TB_STAT) 2 true := by
    rw [h3, rd_bump_ne _ (by decide), wrBit, rd_wr_same, rd_wr64_ne _ _ (by decide) (by decide)]
  have h6 : tbNs e = new % 2 ^ 64 := by
    unfold tbNs rd64
    rw [h3, h3, rd_bump_ne _ (by decide), rd_bump_ne _ (by decide), rd_wrBit_ne _ _ _ (by decide), rd_wrBit_ne _ _ _ (by decide), wr64, rd_wr_ne _ _ (by decide), rd_wr_same, rd_wr_same]
    unfold mk64 lo64 hi64
    simp only [w32, BitVec.toNat_ofNat]
    omega
  have h7 : tbStep d new cause = if 1000000 < (new : Int) - tbNs d ∨ 1000000 < (tbNs d : Int) - new then
    report e 0x0010 385 (pay64 (tbNs d) ++ pay64 (new % 2 ^ 64) ++ [w32 cause]) else e := by unfold tbStep; rw [he]
  rw [h7]
  clear he h7 h3
  split
  · have hr := recorded_report e 0x0010 385 (pay64 (tbNs d) ++ pay64 (new % 2 ^ 64) ++ [w32 cause])
    refine ⟨h1.trans (onlyTime_recorded hr), (recorded_tb hr).trans h2, ?_, (hr.2 _ (by decide)).trans h4, (hr.2 _ (by decide)).trans h5⟩
    exact (rd64_eq (hr.2 TB_NS (by decide)) (hr.2 (TB_NS + 4) (by decide))).trans h6
  · exact ⟨h1, h2, h6, h4, h5⟩
theorem recorded_domRecord (d : Dev) (o n c : Nat) : Recorded d (domRecord d o n c) := recorded_report _ _ _ _

end Sys2Proof.Machine
end

