-- ==== Sys2Proof/Tests/Slice0.lean ====
section
/-! SUPPORT. Tests: operands that the operand check refuses, steps on small states with results from the spec's own tables and
examples, and for every clause of a statement a state and operands that meet its hypotheses. -/

namespace Sys2Proof.Tests

open Sys2Proof Sys2Proof.Machine

set_option linter.unusedVariables false
set_option Elab.async false

/-- The device after reset, and a state with a device. -/
def r0 : Dev := State.reset.dev
def wit (d : Dev) : State := { State.reset with dev := d }
/-- An axis in IDLE with limits, and a device with axis 0 so. -/
def wAxis : Axis := { axis0 with st := .idle }
def wLimits (d : Dev) : Dev := wr64 (wr64 (wr64 (wr64 d (AX_VMAX 0) 6553600) (AX_AMAX 0) 65536000) (AX_DMAX 0) 65536000) (AX_JMAX 0) 655360000
def wAx (x : Axis) : Dev := setAx (wLimits r0) 0 x
/-- Processor 0 running a program of one instruction word. -/
def wTask : LTask := ⟨false, 0, 1, 10, 0, 100, 0⟩
def wInst : TInst := { k := 0, rel := 0, dead := 9, image := [], outs := [], hw := [], sl := [], h := [], lb := true, stack := [], acc := 5, x := 0, pc := 0, ended := false, cyc := 0, first := false, changed := false, resumed := false, synced := false }
def wLp (t : TInst) (w : W32) : State := wit (setLp r0 0 { lp0 with st := .running, prog := { noProg with tasks := [wTask], code := [w] }, insts := [t] })

/-- One field of the device after a command that completes. -/
def after {α : Type} (c : Instr) (d : Dev) (f : Dev → α) : Option α := match exec c (wit d) with
  | .next s => some (f s.dev)
  | _ => none

/-- CRC-32C of the nine digits, the check value of the parameters of R320. -/
theorem test_crc32c : crc32c [0x31, 0x32, 0x33, 0x34, 0x35, 0x36, 0x37, 0x38, 0x39] = 0xE3069283 := by decide +kernel
/-- The bit-field helper of Table 0-4's notation. -/
theorem test_fld : fld 0xDEADBEEF 15 8 = 0xBE := by decide +kernel
/-- R30: the trim is clamped. -/
theorem test_trim_clamps : after (.clkTrimWrite 0x7FFFFFFF) r0 (fun d => rdN d CLK_TRIM) = some 2500000 := by decide +kernel
/-- R60: a doorbell counts. -/
theorem test_doorbell : after (.sweRaise 5) r0 (fun d => (rdN d (DEV_SWE_CNT 5), rdN d (DEV_SWE_CNT 4))) = some (1, 0) := by decide +kernel
/-- Table 3-5: LOAD in EMPTY begins verification. -/
theorem test_lane_load : after (.laneLoad 3) r0 (fun d => (laneOf d 3).st) = some .loading := by decide +kernel
/-- R253: a configuration command while locked. -/
theorem test_sf_locked : after .sfDiscard r0 (fun d => (rdN d (SF_RES 0), rdN d (sfBase 0 + ERR_CODE) % 65536)) = some (1, 0x0901) := by decide +kernel
/-- R224: the counter saturates. -/
theorem test_ctu_saturates : counterExec ⟨4, false, false, false, 0, 5, 32767⟩ true = (⟨4, true, false, false, 0, 5, 32767⟩, true) := by decide
/-- R225: no edge at the first execution. -/
theorem test_red_first : edgeExec ⟨6, false, false, true, 0, 0, 0⟩ true = (⟨6, true, false, false, 0, 0, 0⟩, false) := by decide
/-- R49: a page lock holds off a command of the page. -/
theorem test_lock : after (.laneLoad 3) (wrN r0 (pageBase (.sq 3) + KEYLOCK) 0xA5C3) (fun d => ((laneOf d 3).st, rdN d (sqBase 3 + ERR_CODE) % 65536)) = some (.empty, 2) := by decide +kernel
/-- R21: a write of the signal window waits for its C2. -/
theorem test_sig_write : after (.sigWindowWrite 7 9) r0 (fun d => (sigVal d 7, d.hostq)) = some (0, [(7, 9)]) := by decide +kernel
/-- The table gives no row any bits. -/
theorem test_decode : decodeTableWord 32 0 = none := rfl
/-- A command is taken from the front of the queue. -/
theorem test_step : (match step { State.reset with pending := [.sweRaise 5, .sweRaise 6] } with
    | .next s => s.pending
    | _ => []) = [.sweRaise 6] := by decide +kernel

/-- EveryStepLeavesTheQueuesRest, EveryStepKeepsTheFoundingAreaSound, NoStepTakesARecordFromTheFoundingArea. -/
theorem test_witness_EveryStep : ∃ t, ({ State.reset with pending := [.sweRaise 5] } : State).pending = .sweRaise 5 :: [] ∧ State.reset.vault.sound
    ∧ step { State.reset with pending := [.sweRaise 5] } = .next t := ⟨_, rfl, ⟨by decide, by decide, by decide⟩, rfl⟩
/-- AnEmptyQueueIdles. -/
theorem test_witness_AnEmptyQueueIdles : State.reset.pending = [] := rfl
/-- CommandsCompleteExactlyWhereTheirOperandsExist: both ways. -/
theorem test_witness_CommandsComplete : (Instr.laneStop 15).wf = true ∧ (Instr.laneStop 16).wf = false := by decide
/-- CommandsLeaveTheVaultButForTheWriter. -/
theorem test_witness_CommandsLeaveTheVault : ∃ t, Instr.laneStop 15 ≠ .recordCommit ∧ Instr.laneStop 15 ≠ .clearExecute ∧ (∀ env, Instr.laneStop 15 ≠ .bootComplete env)
    ∧ exec (.laneStop 15) State.reset = .next t := ⟨_, by simp, by simp, by simp, rfl⟩

/-- Operands that the operand check refuses, one command an entry (log entry 22). -/
theorem test_wf_refuses_1 : ([.scratchpadUe (.sq 16) 0, .sigWindowWrite (32768) 0, .regionFault (.sq 16) 0 0, .regionFault (.sq 0) (65536) 0, .regionFault (.sq 0) 0 (2 ^ 28), .linkUp 0 1,
    .linkUp 6 1, .linkUp 1 0, .linkUp 1 5, .linkUp 1 3, .registerWrite (9) 0 0 0, .registerWrite 0 (2 ^ 28 + 2 ^ 32) 0 0, .registerWrite 0 0 (256) 0,
    .writeCrossingDone (.sq 16), .xdomTimeout (.sq 16) false, .keylockEngage (.sq 16), .keylockRelease (.sq 16), .ackWrite (2 ^ 28) 0, .evtEnWrite (.sq 16) 0,
    .msixMaskWrite (4) 0 false, .msixMaskWrite 0 (256) false, .blkCtrlRun (.sq 16) false, .blkCtrlSafeReq (.sq 16) false, .laneNop (16), .laneLoad (16),
    .laneVerifyDone (16), .laneUnload (16), .laneStart (16) 0, .laneStart 0 (65536), .lanePause (16), .laneContinue (16),
    .laneStop (16), .laneAbort (16), .stepDurationEnd (16), .waitTimeout (16), .schedArm (16) 0 false, .schedArm 0 (32) false,
    .schedDisarm (16) 0 false, .schedDisarm 0 (32) false, .schedSlotFire (16) 0, .schedSlotFire 0 (32), .actSigWrite (16) 0, .actAxisMove (16) 0] : List Instr).all (fun c => !c.wf) = true := by decide +kernel
/-- Operands that the operand check refuses, one command an entry (log entry 22). -/
theorem test_wf_refuses_2 : ([.actSigWrite (16) 0, .actAxisMove (16) 0, .actLogicEvent (16) 0, .actArmSched (16) 0, .actDisarmSched (16) 0, .actCritical (16) 0,
    .ltGrpStart (64), .ltGrpStop (64), .coefWrite (2048) 0 0 0, .coefWrite 0 (8) 0 0, .coefWrite 0 0 (8) 0, .loopRouteWrite (2048) false 0,
    .supervisionTrip (2048), .learnBudgetReset (2048), .driftScanEnd (2048), .resetLive (2048), .adopt (2048), .compBindWrite (2048) 0,
    .compSlotWrite (64) 0x9000 0, .compSlotWrite 0 36863 0, .compSlotWrite 0 (0xF000) 0, .compSlotWrite 0 0x9001 0, .adcWindowStart (16) 0, .adcConversionDone (16) 0 false false,
    .adcChannelStarved (16) 0, .adcChannelStarved 0 (16), .seqCommit (16), .rangeSettleEnd (16) 0, .rangeSettleEnd 0 (16), .calRotation (16),
    .sliceCalDone (16) default, .calStoreUe (16), .refSettle (16), .refLost (16), .aoOtemp (64), .aoIlimFault (64),
    .aoReadbackFault (64), .dioInputEdge (128) false 0, .dioSchPush (128) false, .dioSchFlush (128), .dioSchedSwitch (128), .dioUndercurrent (128)] : List Instr).all (fun c => !c.wf) = true := by decide +kernel
/-- Operands that the operand check refuses, one command an entry (log entry 22). -/
theorem test_wf_refuses_3 : ([.dioSchedSwitch (128), .dioUndercurrent (128), .dioOtemp (128), .dioIlimFault (128), .axNop (64), .axMoveAbs (64),
    .axMoveRel (64), .axUpdate (64), .axJogPos (64), .axJogNeg (64), .axStop (64), .axEstop (64),
    .axHome (64), .axGearEngage (64), .axGearArm (64), .axGearRelease (64), .axSetPos (64), .mtGrpStart (8),
    .mtGrpStop (8), .mtGrpGo (8), .axisProfileEnd (64), .axisStandstill (64), .switchDebounced (64) 0 false, .switchDebounced 0 (3) false,
    .homeChatter (64), .axisStall (64), .encQuadError (32), .encIndex (32) 0 0, .ssiFrame (32) 0 false, .lpNop (4),
    .lpLoad (4), .lpVerifyDone (4), .lpUnload (4), .lpStage (4), .lpStageDone (4), .lpUnstage (4),
    .lpChange (4) false, .lpCancel (4), .lpTrig (4), .changePoint (4), .forceSet (4), .forceRemove (4)] : List Instr).all (fun c => !c.wf) = true := by decide +kernel
/-- Operands that the operand check refuses, one command an entry (log entry 22). -/
theorem test_wf_refuses_4 : ([.forceSet (4), .forceRemove (4), .forceClearAll (4), .taskRelease (4) 0, .taskRelease 0 (16), .taskDeadline (4) 0,
    .taskDeadline 0 (16), .lpVarWrite (4) 0 0, .lpVarWrite 0 (0x400000) 0, .lpVarWrite 0 1 0, .lpMemoryUe (4) 0, .lgNop (4),
    .lgLd (4), .lgLdn (4), .lgAnd (4), .lgAndn (4), .lgOr (4), .lgOrn (4),
    .lgXor (4), .lgSt (4), .lgStn (4), .lgSet (4), .lgRst (4), .lgAndp (4),
    .lgOrp (4), .lgXorp (4), .lgPop (4), .lgNot (4), .lgRed (4), .lgFed (4),
    .lgTon (4), .lgTof (4), .lgTp (4), .lgCtu (4), .lgCtd (4), .lgCrs (4),
    .lgCld (4), .lgLpt (4), .lgLpv (4), .lgLdw (4), .lgStw (4), .lgStwc (4)] : List Instr).all (fun c => !c.wf) = true := by decide +kernel
/-- Operands that the operand check refuses, one command an entry (log entry 22). -/
theorem test_wf_refuses_5 : ([.lgStw (4), .lgStwc (4), .lgAdd (4), .lgSub (4), .lgMul (4), .lgDiv (4),
    .lgAndw (4), .lgOrw (4), .lgXorw (4), .lgShl (4), .lgShr (4), .lgCeq (4),
    .lgCgt (4), .lgClt (4), .lgLdx (4), .lgJmp (4), .lgJc (4), .lgJnc (4),
    .lgTrig (4), .lgEnd (4), .safetyContactChange (16) false ⟨0, false, 0⟩, .safetyContactChange 0 false ⟨4, false, 0⟩, .safetyContactChange 0 false ⟨0, false, 100⟩, .discrepancyFault (16), .resetJam (16), .outputLockout (8) 0,
    .outputLockout 0 (2), .darkTest (8) 0 false, .darkTest 0 (2) false, .offDelayEnd (64), .mutingTimeout (64), .lockAuxDelayEnd (64),
    .channelSelfTestFail (2), .safetyClockDeviation (2) false, .safeFrameReceive (2) default, .connWatchdog (32), .networkMissing (32), .degradedTimeout (32),
    .safeImgReceive ⟨⟨0, 0, true⟩, 0⟩ (2) default false, .safeImgReceive ⟨⟨2, 0, true⟩, 0⟩ 0 default false, .plialeFrameReceive ⟨⟨0, 0, true⟩, 0⟩ (16) 0 default, .plialeFrameReceive ⟨⟨0, 0, true⟩, 0⟩ 0 (32) default, .plialeFrameReceive ⟨⟨2, 0, true⟩, 0⟩ 0 0 default, .beatReceive ⟨⟨2, 0, true⟩, default⟩, .digestReceive ⟨⟨2, 0, true⟩, 0⟩ 0, .ctrlFrameReceive ⟨⟨0, 0, true⟩, 3⟩, .ctrlFrameReceive ⟨⟨2, 0, true⟩, 0⟩, .timeFrameReceive ⟨⟨2, 0, true⟩, 0, 0⟩ 0 0, .imageFrameReceive ⟨⟨0, 0, true⟩, .sq 16⟩ 0 0 default, .imageFrameReceive ⟨⟨0, 0, true⟩, .sq 0⟩ (2) 0 default] : List Instr).all (fun c => !c.wf) = true := by decide +kernel
/-- Operands that the operand check refuses, one command an entry (log entry 22). -/
theorem test_wf_refuses_6 : ([.imageFrameReceive ⟨⟨0, 0, true⟩, .sq 16⟩ 0 0 default, .imageFrameReceive ⟨⟨0, 0, true⟩, .sq 0⟩ (2) 0 default, .imageFrameReceive ⟨⟨0, 0, true⟩, .sq 0⟩ 0 (8) default, .imageFrameReceive ⟨⟨2, 0, true⟩, .sq 0⟩ 0 0 default, .laneTrained (2), .laneAuthDone (2) false false, .authRetry (2),
    .twinLaneDown (2), .holderDecoded (65536), .guylineWireFail (2), .guylineWireHealthy (2), .glForceSeize (65536), .warmReset 7,
    .coldReset 7, .plNop (16), .plLoad (16), .plVerifyDone (16), .plUnload (16), .plStart (16),
    .plStop (16), .plLcmdNop (16), .plRestart (16), .plAcyc (16), .plResync (16) 0, .plResync 0 (32),
    .plialeCycleStart (16), .pollSend (16) 0, .pollSend 0 (32), .replyReceive (16) 0 false default, .acycWindowEnd (16),
    .measRspReceive (16) 0 0, .measRspReceive 0 (32) 0, .acycRspReceive (16) 0 false default, .acycResponseTimeout (16), .foreignSync (16), .plCollision (16) false 0,
    .plCollision 0 false (32), .lineActivity (16), .listenSilenceExpired (16), .plSchedUe (16), .cxNop (8), .cxStart (8)] : List Instr).all (fun c => !c.wf) = true := by decide +kernel
/-- Operands that the operand check refuses, one command an entry (log entry 22). -/
theorem test_wf_refuses_7 : ([.cxNop (8), .cxStart (8), .cxStop (8), .cxRecover (8), .cxFlush (8) 0, .cxFlush 0 (4),
    .cxTxPost (8) 0 0, .cxTxPost 0 (4) 0, .cxTxStart (8), .cxTxComplete (8) 0, .cxTxComplete 0 (8), .cxRxFrame (8) default,
    .cxBusError (8) false, .cxRqAck (8) 0 0, .cxRqAck 0 (4) 0, .cxIntegrated (8), .cxRecovered (8), .ptpEventFrame (4) false 0 0 0,
    .ptpEventFrame 0 false (65536) 0 0, .ptpEventFrame 0 false 0 (16) 0, .ptpEventFrame 0 false 0 0 (256), .ptpMessageReceive (2) default, .announceTimeout (2), .syncTimeout (2),
    .ethTxPost (4) 0 0, .ethTxPost 0 (4) 0, .ethTxComplete (4) 0 false, .ethTxComplete 0 (4) false, .ethRxFrame (4) default false, .ethRqAck (4) 0 0,
    .ethRqAck 0 (4) 0, .ethGclCommit (4), .gclCycleStart (4), .gclEntryChange (4), .ethLinkChange (4) 0, .ethLinkChange 0 (4),
    .cbStreamReset (4) 0, .cbStreamReset 0 (64), .daybookReport (65536) 0 default, .daybookReport 0 (4096) default, .tokenGain (4096), .dbAppPut (9)] : List Instr).all (fun c => !c.wf) = true := by decide +kernel
/-- Operands that the operand check refuses, one command an entry (log entry 22). -/
theorem test_wf_refuses_8 : ([.tokenGain (4096), .dbAppPut (9), .yield (8), .block (8), .exit (8), .dispatch (8),
    .wake (8) 0, .create (8) 0, .suspend (8) 0, .resume (8) 0, .destroy (8) 0, .patienceExpired (4096),
    .descriptorWrite (4096) 0 0, .descriptorWrite 0 (8) 0, .coreWatchdog (8), .coreFault (8), .coreNop (8), .coreReset (8),
    .coreHalt (8), .coreStart (8), .mbPowerRequest (32) 0, .mbPowerDone (32), .sramCe (50331648), .sramUe (50331648),
    .testRow (32) 0, .testRow 0 (65536), .nvWrite (67108864) default, .nvLineWrite (1048576), .keyAdd (16), .keyDel (16),
    .pwrWarm (65536), .pwrCold (65536), .acyclicWindowStart (16), .offBankAccess (50331648), .scratchpadCe (.sq 16)] : List Instr).all (fun c => !c.wf) = true := by decide +kernel

/-- PagesTurnCommandsAway, absent. -/
theorem test_witness_PagesTurnCommandsAway_absent : let s : State := wit (setPow r0 { r0.power with phase := .service }); let c : Instr := .laneStop 15; let p : Page := .sq 15; let off : Nat := 0x100; let v : W32 := 6; ((hostPage c = some (p, off, v) ∧ c.wf = true)) ∧ (responds s.dev p = false) := by
  decide +kernel

/-- PagesTurnCommandsAway, busy. -/
theorem test_witness_PagesTurnCommandsAway_busy : let s : State := wit { r0 with crossing := [⟨pageBase (.sq 15) + 0x100, 0, 0⟩] }; let c : Instr := .laneStop 15; let p : Page := .sq 15; let off : Nat := 0x100; let v : W32 := 6; ((hostPage c = some (p, off, v) ∧ c.wf = true)) ∧ ((responds s.dev p = true ∧ busy s.dev p = true)) := by
  decide +kernel

/-- PagesTurnCommandsAway, locked. -/
theorem test_witness_PagesTurnCommandsAway_locked : let s : State := wit (wrN r0 (pageBase (.sq 15) + KEYLOCK) 0xA5C3); let c : Instr := .laneStop 15; let p : Page := .sq 15; let off : Nat := 0x100; let v : W32 := 6; ((hostPage c = some (p, off, v) ∧ c.wf = true)) ∧ ((responds s.dev p = true ∧ busy s.dev p = false ∧ locked s.dev p = true ∧ lockExempt p off = false)) := by
  decide +kernel

/-- PagesTurnCommandsAway, elsewhere. -/
theorem test_witness_PagesTurnCommandsAway_elsewhere : let s : State := wit { wrN r0 TW_CFG 1 with role := .standby }; let c : Instr := .laneStop 15; let p : Page := .sq 15; let off : Nat := 0x100; let v : W32 := 6; ((hostPage c = some (p, off, v) ∧ c.wf = true)) ∧ ((responds s.dev p = true ∧ busy s.dev p = false ∧ (locked s.dev p = false ∨ lockExempt p off = true))) ∧ ((pairOrdered p off = true ∧ pairEn s.dev = true ∧ accepts s.dev = false)) := by
  decide +kernel

/-- HostWritesTakeEffect, sigAlone. -/
theorem test_witness_HostWritesTakeEffect_sigAlone : let s : State := State.reset; let n : Nat := 7; let v : W32 := 5; (n < 32768)
    ∧ (windowsOn s.dev = true) ∧ (pairEn s.dev = false) := by
  decide +kernel

/-- HostWritesTakeEffect, sigPaired. -/
theorem test_witness_HostWritesTakeEffect_sigPaired : let s : State := { State.reset with dev := wrBit { State.reset.dev with role := .authority, tw := { State.reset.dev.tw with hold := true } } TW_CFG 0 true };
    let n : Nat := 7; let v : W32 := 5; (n < 32768) ∧ (windowsOn s.dev = true) ∧ (pairEn s.dev = true) ∧ (accepts s.dev = true)
    ∧ (s.dev.tw.queue.length < 1024) := by
  decide +kernel

/-- HostWritesTakeEffect, regPosted. -/
theorem test_witness_HostWritesTakeEffect_regPosted : let s : State := { State.reset with dev := { State.reset.dev with evr := { State.reset.dev.evr with linkUp := true } } };
    let p : Page := .sq 1; let a : Nat := 0x584138; let v : W32 := 8; (pageAt a = some (p, a - pageBase p)) ∧ ((a < 2 ^ 28 ∧ a % 4 = 0 ∧ a ≠ DB_CMD)) ∧ (reaches s.dev 0 = true) ∧ (powered s.dev = true) ∧ ((responds s.dev p = true ∧ busy s.dev p = false ∧ (locked s.dev p = false ∨ lockExempt p (a - pageBase p) = true) ∧ (pairOrdered p (a - pageBase p) = true → pairEn s.dev = true → accepts s.dev = true))) ∧ ((accessOf p (a - pageBase p) = some .wp ∧ (a - pageBase p ≠ EVT_VEC ∧ a - pageBase p ≠ EVT_EN ∧ a - pageBase p ≠ POST_STAT ∧ isAck p (a - pageBase p) = false) ∧ coefWord p (a - pageBase p) = false)) := by
  decide +kernel

/-- HostWritesTakeEffect, crossingDone. -/
theorem test_witness_HostWritesTakeEffect_crossingDone : let s : State := { State.reset with dev := { State.reset.dev with crossing := [⟨LC_RATE 3, 9, 0⟩] } };
    let p : Page := .lc 3; let w : Posted := ⟨LC_RATE 3, 9, 0⟩; (pageOk p = true) ∧ (crossingsOf s.dev p = [w]) ∧ (windowPage p = true) ∧ ((pageBase p ≤ w.addr % 2 ^ 28 ∧ w.addr % 2 ^ 28 ≠ pageBase p + KEYLOCK)) ∧ (pairEn s.dev = false) := by
  decide +kernel

/-- HostWritesTakeEffect, xdomRead. -/
theorem test_witness_HostWritesTakeEffect_xdomRead : let s : State := State.reset; let p : Page := .lp 0; (pageOk p = true)
    ∧ (responds s.dev p = true) := by
  decide +kernel

/-- HostWritesTakeEffect, xdomWrite. -/
theorem test_witness_HostWritesTakeEffect_xdomWrite : let s : State := { State.reset with dev := { State.reset.dev with crossing := [⟨LC_RATE 3, 9, 0⟩] } };
    let p : Page := .lc 3; let w : Posted := ⟨LC_RATE 3, 9, 0⟩; (pageOk p = true) ∧ (responds s.dev p = true) ∧ (crossingsOf s.dev p = [w]) := by
  decide +kernel

/-- HostWritesTakeEffect, keylocks. -/
theorem test_witness_HeaderWritesTakeEffect_keylocks : let s : State := State.reset; let p : Page := .sfa; (pageOk p = true) ∧ (responds s.dev p = true)
    ∧ (busy s.dev p = false) := by
  decide +kernel

/-- HostWritesTakeEffect, evtEn. -/
theorem test_witness_HeaderWritesTakeEffect_evtEn : let s : State := State.reset; let p : Page := .cx 2; let v : W32 := 3; (pageOk p = true)
    ∧ (admits s.dev p EVT_EN = true) := by
  decide +kernel

/-- HostWritesTakeEffect, ack. -/
theorem test_witness_HeaderWritesTakeEffect_ack : let s : State := State.reset; let a : Nat := DB_REC_ACK; let p : Page := .db; let off : Nat := 0x11C;
    let v : W32 := 3; (a < 2 ^ 28 ∧ pageAt a = some (p, off)) ∧ (isAck p off = true) ∧ (admits s.dev p off = true) ∧ ((∀ x, p ≠ .cx x)
    ∧ ∀ e, p ≠ .eth e) := by
  refine ⟨by decide +kernel, by decide +kernel, by decide +kernel, by simp⟩

/-- HostWritesTakeEffect, run. -/
theorem test_witness_HeaderWritesTakeEffect_run : let s : State := State.reset; let p : Page := .sq 4; let on : Bool := true; (pageOk p = true)
    ∧ (admits s.dev p BLK_CTRL = true) ∧ ((∀ k, p ≠ .ac k) ∧ (∀ e, p ≠ .enc e) ∧ (∀ t, p ≠ .lt t) ∧ ∀ m, p ≠ .mt m) := by
  refine ⟨by decide +kernel, by decide +kernel, by simp⟩

/-- HostWritesTakeEffect, safeReq. -/
theorem test_witness_HeaderWritesTakeEffect_safeReq : let s : State := State.reset; let p : Page := .sq 4; let on : Bool := true; (pageOk p = true)
    ∧ (admits s.dev p BLK_CTRL = true) ∧ ((∀ g, p ≠ .lc g) ∧ (∀ t, p ≠ .lt t) ∧ ∀ n, p ≠ .lp n) := by
  refine ⟨by decide +kernel, by decide +kernel, by simp⟩

/-- RouterSendsVectors, asserted. -/
theorem test_witness_RouterSendsVectors_asserted : let s : State := { State.reset with dev := wr (wr { State.reset.dev with evr := { State.reset.dev.evr with msixEnable := true, busMaster := true, linkUp := true } } (msixWord 0 3) 0) (DEV_SWE_CNT 5) 1 };
    let k : Nat := 0; (s.dev.evr.vec = []) ∧ (assertedVecs s.vault s.dev = [k]) ∧ (vecMasked s.dev k = false) := by
  decide +kernel

/-- RouterSendsVectors, assertedMasked. -/
theorem test_witness_RouterSendsVectors_assertedMasked : let s : State := { State.reset with dev := wr State.reset.dev (DEV_SWE_CNT 5) 1 };
    let k : Nat := 0; (s.dev.evr.vec = []) ∧ (assertedVecs s.vault s.dev = [k]) ∧ (vecMasked s.dev k = true) := by
  decide +kernel

/-- RouterSendsVectors, done. -/
theorem test_witness_RouterSendsVectors_done : let s : State := { State.reset with dev := { State.reset.dev with evr := { State.reset.dev.evr with vec := [(3, .sent)] } } };
    let k : Nat := 3; (s.dev.evr.vec = [(k, .sent)] ∧ s.dev.evr.leftL0 = false ∧ k < 256) ∧ (admits s.dev .evr 0x100 = true)
    ∧ (assertedVecs s.vault s.dev = []) := by
  decide +kernel

/-- RouterSendsVectors, masks. -/
theorem test_witness_RouterSendsVectors_masks : let s : State := State.reset; let vec : Nat := 9; let on : Bool := true; (vec < 256) := by
  decide +kernel

/-- RouterSendsVectors, maskBit. -/
theorem test_witness_RouterSendsVectors_maskBit : let s : State := State.reset; let vec : Nat := 9; let on : Bool := true; (vec < 256)
    ∧ (s.dev.evr.vec = []) := by
  decide +kernel

/-- DoorbellsCountAndPend, doorbell. -/
theorem test_witness_DoorbellsCountAndPend_doorbell : let s : State := State.reset; let val : W32 := 127; (admits s.dev .evr 0x104 = true) := by
  decide +kernel

/-- DoorbellsCountAndPend, pending. -/
theorem test_witness_DoorbellsCountAndPend_pending : let s : State := State.reset; let k : Nat := 63; (k < 64) := by
  decide +kernel

/-- EndpointFollowsItsLink, down. -/
theorem test_witness_EndpointFollowsItsLink_down : let s : State := { State.reset with dev := { State.reset.dev with evr := { State.reset.dev.evr with linkUp := true } } };
    (s.dev.evr.linkUp = true) ∧ (∀ k ∈ tkeys s.dev.evr.vec, k < 256) := by
  decide +kernel

/-- EndpointFollowsItsLink, up. -/
theorem test_witness_EndpointFollowsItsLink_up : let s : State := State.reset; let rate : Nat := 5; let width : Nat := 4; ((1 ≤ rate ∧ rate ≤ 5 ∧ (width = 1 ∨ width = 2 ∨ width = 4))) ∧ (s.dev.evr.linkUp = false) ∧ ((∀ k ∈ tkeys s.dev.evr.vec, k < 256)) := by
  decide +kernel

/-- ClockAndFaults, trim. -/
theorem test_witness_ClockAndFaults_trim : let s : State := State.reset; let val : W32 := 2500001; (admits s.dev .clk 0x108 = true) := by
  decide +kernel

/-- ClockAndFaults, lockLoss. -/
theorem test_witness_ClockAndFaults_lockLoss : let s : State := State.reset; (resettable s.dev = true) ∧ (s.dev.power.lockLost = none) := by
  decide +kernel

/-- ClockAndFaults, relock. -/
theorem test_witness_ClockAndFaults_relock : let s : State := { State.reset with dev := pllLoss State.reset.dev }; let us : Nat := 12;
    let b : DbBody := ((pllLoss State.reset.dev).power.lockLost).getD default; (resettable s.dev = true) ∧ (s.dev.power.phase = .on)
    ∧ (s.dev.power.lockLost = some b) := by
  decide +kernel

/-- ClockAndFaults, regionBoot. -/
theorem test_witness_ClockAndFaults_regionBoot : let s : State := { State.reset with dev := warmReset State.reset.dev 1 }; let p : Page := .lp 2;
    let code : Nat := 0x601; let addr : Nat := 4; (pageOk p = true ∧ code < 65536 ∧ addr < 2 ^ 28) ∧ (s.dev.power.phase = .boot) := by
  decide +kernel

/-- ClockAndFaults, ring. -/
theorem test_witness_ClockAndFaults_ring : let s : State := State.reset; let val : W32 := 0x10007; (admits s.dev .id 0x110 = true) := by
  decide +kernel

/-- ClockAndFaults, corrected. -/
theorem test_witness_ClockAndFaults_corrected : let s : State := State.reset; let t : Nat := 63; let m : Nat := 7; let n : Nat := 3; (t < 64 ∧ m < 8
    ∧ n < 4) := by
  decide +kernel

/-- ClockAndFaults, uncorrectedTile. -/
theorem test_witness_ClockAndFaults_uncorrectedTile : let s : State := State.reset; let t : Nat := 63; let off : Nat := 0x40; (t < 64)
    ∧ (ltQuar s.dev t = false) := by
  decide +kernel

/-- ClockAndFaults, uncorrectedProcessor. -/
theorem test_witness_ClockAndFaults_uncorrectedProcessor : let s : State := State.reset; let n : Nat := 3; let off : Nat := 0x40; (n < 4)
    ∧ ((lpOf s.dev n).st ≠ .quarantined) := by
  decide +kernel

/-- LaneCommandsMoveTheLane, nop. -/
theorem test_witness_LaneCommandsMoveTheLane_nop : let s : State := State.reset; let l : Nat := 15; (l < 16)
    ∧ (admits s.dev (.sq l) 0x100 = true) := by
  decide +kernel

/-- LaneCommandsMoveTheLane, load. -/
theorem test_witness_LaneCommandsMoveTheLane_load : let s : State := State.reset; let l : Nat := 15; (l < 16) ∧ (admits s.dev (.sq l) 0x100 = true)
    ∧ ((laneOf s.dev l).st = .empty) := by
  decide +kernel

/-- LaneCommandsMoveTheLane, unload. -/
theorem test_witness_LaneCommandsMoveTheLane_unload : let s : State := { State.reset with dev := setLane State.reset.dev 15 { lane0 with st := .loaded } };
    let l : Nat := 15; (l < 16) ∧ (admits s.dev (.sq l) 0x100 = true) ∧ ((laneOf s.dev l).st = .loaded ∨ (laneOf s.dev l).st = .done
    ∨ (laneOf s.dev l).st = .fault) := by
  decide +kernel

/-- LaneCommandsMoveTheLane, start. -/
theorem test_witness_LaneCommandsMoveTheLane_start : let s : State := { State.reset with dev := wr (setLane State.reset.dev 15 { lane0 with st := .loaded }) (sqBase 15 + BLK_CTRL) 1 };
    let l : Nat := 15; let name : Nat := 0; let i : Nat := 0; (l < 16 ∧ name < 65536) ∧ (admits s.dev (.sq l) 0x100 = true)
    ∧ ((laneOf s.dev l).st = .loaded ∨ (laneOf s.dev l).st = .done) ∧ (runBit s.dev (.sq l) = true) ∧ (startIx (laneOf s.dev l).img name = some i) := by
  decide +kernel

/-- LaneCommandsMoveTheLane, pause. -/
theorem test_witness_LaneCommandsMoveTheLane_pause : let s : State := { State.reset with dev := setLane State.reset.dev 15 { lane0 with st := .running } };
    let l : Nat := 15; (l < 16) ∧ (admits s.dev (.sq l) 0x100 = true) ∧ ((laneOf s.dev l).st = .running) := by
  decide +kernel

/-- LaneCommandsMoveTheLane, continue. -/
theorem test_witness_LaneCommandsMoveTheLane_continue : let s : State := { State.reset with dev := setLane State.reset.dev 15 { lane0 with st := .paused } };
    let l : Nat := 15; (l < 16) ∧ (admits s.dev (.sq l) 0x100 = true) ∧ ((laneOf s.dev l).st = .paused) := by
  decide +kernel

/-- LaneCommandsMoveTheLane, stop. -/
theorem test_witness_LaneCommandsMoveTheLane_stop : let s : State := { State.reset with dev := setLane State.reset.dev 15 { lane0 with st := .done } };
    let l : Nat := 15; (l < 16) ∧ (admits s.dev (.sq l) 0x100 = true) ∧ ((laneOf s.dev l).st = .running ∨ (laneOf s.dev l).st = .paused
    ∨ (laneOf s.dev l).st = .done ∨ (laneOf s.dev l).st = .fault) := by
  decide +kernel

/-- LaneCommandsMoveTheLane, abortToLoaded. -/
theorem test_witness_LaneCommandsMoveTheLane_abortToLoaded : let s : State := { State.reset with dev := setLane State.reset.dev 15 { lane0 with st := .paused } };
    let l : Nat := 15; (l < 16) ∧ (admits s.dev (.sq l) 0x100 = true) ∧ ((laneOf s.dev l).st = .running ∨ (laneOf s.dev l).st = .paused)
    ∧ ((laneOf s.dev l).img.abort = 0) := by
  decide +kernel

/-- LaneCommandsMoveTheLane, abortToStep. -/
theorem test_witness_LaneCommandsMoveTheLane_abortToStep : let s : State := { State.reset with dev := setLane State.reset.dev 15 { lane0 with st := .paused, img := { noLImg with abort := 3 } } };
    let l : Nat := 15; (l < 16) ∧ (admits s.dev (.sq l) 0x100 = true) ∧ ((laneOf s.dev l).st = .running ∨ (laneOf s.dev l).st = .paused)
    ∧ ((laneOf s.dev l).img.abort ≠ 0) := by
  decide +kernel

/-- LaneVerificationEndsTheLoad, verify. -/
theorem test_witness_LaneVerificationEndsTheLoad_verify : let s : State := { State.reset with dev := setLane State.reset.dev 15 { lane0 with st := .loading } };
    let l : Nat := 15; (l < 16) ∧ ((laneOf s.dev l).st = .loading) := by
  decide +kernel

/-- LaneStepsAndSlotsActAtTheirTick, durationEnd. -/
theorem test_witness_LaneStepsAndSlotsActAtTheirTick_durationEnd : let s : State := { State.reset with dev := setLane State.reset.dev 15 { lane0 with st := .running, img := { noLImg with steps := [{ (default : LStep) with kind := 1, dur := 1 }, { (default : LStep) with kind := 1, dur := 9 }] } } };
    let l : Nat := 15; (l < 16) ∧ (((laneOf s.dev l).st = .running ∧ held s.dev = false ∧ (laneOf s.dev l).entry = none ∧ (laneOf s.dev l).mid = false ∧ (laneOf s.dev l).stack = [])) ∧ ((((laneStep s.dev l).kind = 1 ∨ (laneStep s.dev l).kind = 3) ∧ (laneStep s.dev l).dur ≠ 0 ∧ (laneStep s.dev l).dur ≤ rdN s.dev (SQ_ELAPSED l) + 1)) := by
  decide +kernel

/-- LaneStepsAndSlotsActAtTheirTick, timeout. -/
theorem test_witness_LaneStepsAndSlotsActAtTheirTick_timeout : let s : State := { State.reset with dev := setLane State.reset.dev 15 { lane0 with st := .running, img := { noLImg with steps := [{ (default : LStep) with kind := 2, dur := 1, target := 5, targetIx := 1 }, { (default : LStep) with kind := 1, dur := 9, name := 5 }] } } };
    let l : Nat := 15; (l < 16) ∧ (((laneOf s.dev l).st = .running ∧ held s.dev = false ∧ (laneOf s.dev l).entry = none ∧ (laneOf s.dev l).mid = false ∧ (laneOf s.dev l).stack = [])) ∧ (((laneStep s.dev l).kind = 2 ∧ (laneStep s.dev l).dur ≠ 0 ∧ (laneStep s.dev l).dur ≤ rdN s.dev (SQ_ELAPSED l) + 1 ∧ condTrue s.dev (markersNow s.dev) (laneStep s.dev l) = false)) ∧ ((laneStep s.dev l).target ≠ 0) := by
  decide +kernel

/-- LaneStepsAndSlotsActAtTheirTick, timeoutFault. -/
theorem test_witness_LaneStepsAndSlotsActAtTheirTick_timeoutFault : let s : State := { State.reset with dev := setLane State.reset.dev 15 { lane0 with st := .running, img := { noLImg with steps := [{ (default : LStep) with kind := 2, dur := 1 }] } } };
    let l : Nat := 15; (l < 16) ∧ (((laneOf s.dev l).st = .running ∧ held s.dev = false ∧ (laneOf s.dev l).entry = none ∧ (laneOf s.dev l).mid = false)) ∧ (((laneStep s.dev l).kind = 2 ∧ (laneStep s.dev l).dur ≠ 0 ∧ (laneStep s.dev l).dur ≤ rdN s.dev (SQ_ELAPSED l) + 1 ∧ condTrue s.dev (markersNow s.dev) (laneStep s.dev l) = false)) ∧ ((laneStep s.dev l).target = 0) := by
  decide +kernel

/-- LaneStepsAndSlotsActAtTheirTick, arm. -/
theorem test_witness_LaneStepsAndSlotsActAtTheirTick_arm : let s : State := { State.reset with dev := wr (setLane State.reset.dev 15 { lane0 with st := .running, img := { noLImg with sched := [⟨6, 0, 0, 0, 0⟩] } }) (SQ_SCH_TIME 15 0) 10001 };
    let l : Nat := 15; let k : Nat := 0; let pol : Bool := true; (l < 16 ∧ k < 32) ∧ (admits s.dev (.sq l) (0x208 + 16 * k) = true)
    ∧ ((laneOf s.dev l).st = .running ∨ (laneOf s.dev l).st = .paused ∨ (laneOf s.dev l).st = .done)
    ∧ ((nth (laneOf s.dev l).img.sched k default).kind ≠ 0) ∧ (s.dev.tt + 10000 < rd64 s.dev (SQ_SCH_TIME l k)) := by
  decide +kernel

/-- LaneStepsAndSlotsActAtTheirTick, armLate. -/
theorem test_witness_LaneStepsAndSlotsActAtTheirTick_armLate : let s : State := { State.reset with dev := setLane State.reset.dev 15 { lane0 with st := .running, img := { noLImg with sched := [⟨6, 0, 0, 0, 0⟩] } } };
    let l : Nat := 15; let k : Nat := 0; let pol : Bool := true; (l < 16 ∧ k < 32) ∧ (admits s.dev (.sq l) (0x208 + 16 * k) = true)
    ∧ ((laneOf s.dev l).st = .running ∨ (laneOf s.dev l).st = .paused ∨ (laneOf s.dev l).st = .done)
    ∧ ((nth (laneOf s.dev l).img.sched k default).kind ≠ 0) ∧ (rd64 s.dev (SQ_SCH_TIME l k) ≤ s.dev.tt + 10000) := by
  decide +kernel

/-- LaneStepsAndSlotsActAtTheirTick, disarm. -/
theorem test_witness_LaneStepsAndSlotsActAtTheirTick_disarm : let s : State := State.reset; let l : Nat := 15; let k : Nat := 31;
    let pol : Bool := true; (l < 16 ∧ k < 32) ∧ (admits s.dev (.sq l) (0x208 + 16 * k) = true) := by
  decide +kernel

/-- LaneStepsAndSlotsActAtTheirTick, fire. -/
theorem test_witness_LaneStepsAndSlotsActAtTheirTick_fire : let s : State := { State.reset with dev := wr (setLane State.reset.dev 15 { lane0 with st := .running, img := { noLImg with sched := [⟨1, 0, 7, 9, 0⟩], targets := [⟨7, false, 3⟩] } }) (SQ_SCH_STAT 15 0) 1 };
    let l : Nat := 15; let k : Nat := 0; let n : Nat := 7; let v : Nat := 9; let t : LTarget := ⟨7, false, 3⟩; ((l < 16 ∧ k < 32)) ∧ (((laneOf s.dev l).st = .running ∨ (laneOf s.dev l).st = .paused ∨ (laneOf s.dev l).st = .done)) ∧ ((held s.dev = false ∧ slotDue s.dev l k (nextTT s.dev) = true)) ∧ (nth (laneOf s.dev l).img.sched k default = ⟨1, 0, n, v, 0⟩) ∧ (laneTarget s.dev l n = some t) ∧ (safeReq s.dev (.sq l) = false) := by
  decide +kernel

/-- LaneStepsAndSlotsActAtTheirTick, actWrite. -/
theorem test_witness_LaneActionsTakeEffect_actWrite : let s : State := { State.reset with dev := setLane State.reset.dev 15 { lane0 with st := .running, img := { noLImg with steps := [{ (default : LStep) with acts := [⟨1, 0, 7, 9, 0⟩] }], targets := [⟨7, false, 3⟩] } } };
    let l : Nat := 15; let j : Nat := 0; let a : Act := ⟨1, 0, 7, 9, 0⟩; let t : LTarget := ⟨7, false, 3⟩; (l < 16) ∧ (((laneOf s.dev l).st = .running ∧ held s.dev = false)) ∧ (((laneStep s.dev l).acts[j]? = some a ∧ a.kind = 1)) ∧ (laneTarget s.dev l a.a0 = some t) := by
  decide +kernel

/-- LaneStepsAndSlotsActAtTheirTick, actMove. -/
theorem test_witness_LaneActionsTakeEffect_actMove : let s : State := wit (setLane (wAx wAxis) 15 { lane0 with st := .running, img := { noLImg with steps := [{ (default : LStep) with acts := [⟨2, 0, 0, 0, 655360⟩] }] } });
    let l : Nat := 15; let j : Nat := 0; let a : Act := ⟨2, 0, 0, 0, 655360⟩; (l < 16) ∧ (((laneOf s.dev l).st = .running ∧ held s.dev = false)) ∧ (((laneStep s.dev l).acts[j]? = some a ∧ a.kind = 2)) := by
  decide +kernel

/-- LaneStepsAndSlotsActAtTheirTick, actEvent. -/
theorem test_witness_LaneActionsTakeEffect_actEvent : let s : State := wit (setLp (setLane r0 15 { lane0 with st := .running, img := { noLImg with steps := [{ (default : LStep) with acts := [⟨3, 0, 2, 0, 0⟩] }] } }) 2 { lp0 with st := .running, prog := { lp0.prog with tasks := [⟨true, 8, 0, 1, 0, 1, 0⟩] } });
    let l : Nat := 15; let j : Nat := 0; let a : Act := ⟨3, 0, 2, 0, 0⟩; (l < 16) ∧ (((laneOf s.dev l).st = .running ∧ held s.dev = false)) ∧ (((laneStep s.dev l).acts[j]? = some a ∧ a.kind = 3)) ∧ (triggerKnown s.dev (a.a0 % 4) (a.a0 / 4 % 8) = true) := by
  decide +kernel

/-- LaneStepsAndSlotsActAtTheirTick, actArm. -/
theorem test_witness_LaneActionsTakeEffect_actArm : let s : State := { State.reset with dev := setLane State.reset.dev 15 { lane0 with st := .running, img := { noLImg with steps := [{ (default : LStep) with acts := [⟨4, 0, 0, 20000, 0⟩] }], sched := [⟨6, 0, 0, 0, 0⟩] } } };
    let l : Nat := 15; let j : Nat := 0; let a : Act := ⟨4, 0, 0, 20000, 0⟩; (l < 16) ∧ (((laneOf s.dev l).st = .running ∧ held s.dev = false ∧ (laneOf s.dev l).staged = [])) ∧ (((laneStep s.dev l).acts[j]? = some a ∧ a.kind = 4)) ∧ ((nth (laneOf s.dev l).img.sched (a.a0 % 32) default).kind ≠ 0) ∧ ((10000 < a.a1 ∧ s.dev.tt + a.a1 < 2 ^ 64)) := by
  decide +kernel

/-- LaneStepsAndSlotsActAtTheirTick, actDisarm. -/
theorem test_witness_LaneActionsTakeEffect_actDisarm : let s : State := { State.reset with dev := setLane State.reset.dev 15 { lane0 with st := .running, img := { noLImg with steps := [{ (default : LStep) with acts := [⟨5, 0, 7, 20000, 0⟩] }] } } };
    let l : Nat := 15; let j : Nat := 0; let a : Act := ⟨5, 0, 7, 20000, 0⟩; (l < 16) ∧ (((laneOf s.dev l).st = .running ∧ held s.dev = false)) ∧ (((laneStep s.dev l).acts[j]? = some a ∧ a.kind = 5)) := by
  decide +kernel

/-- LaneStepsAndSlotsActAtTheirTick, actCritical. -/
theorem test_witness_LaneActionsTakeEffect_actCritical : let s : State := { State.reset with dev := setLane State.reset.dev 15 { lane0 with st := .running, img := { noLImg with steps := [{ (default : LStep) with acts := [⟨6, 0, 0, 20000, 0⟩] }] } } };
    let l : Nat := 15; let j : Nat := 0; let a : Act := ⟨6, 0, 0, 20000, 0⟩; (l < 16) ∧ (((laneOf s.dev l).st = .running ∧ held s.dev = false)) ∧ (((laneStep s.dev l).acts[j]? = some a ∧ a.kind = 6)) := by
  decide +kernel

/-- LoopCommandsConfigureCells, groups. -/
theorem test_witness_LoopCommandsConfigureCells_groups : let s : State := State.reset; let t : Nat := 63; (t < 64)
    ∧ (admits s.dev (.lt t) 0x120 = true) := by
  decide +kernel

/-- LoopCommandsConfigureCells, coef. -/
theorem test_witness_LoopCommandsConfigureCells_coef : let s : State := State.reset; let g : Nat := 2047; let sec : Nat := 7; let r : Nat := 4;
    let v : W32 := 0x12345; (g < 2048 ∧ sec < 8 ∧ r < 5) ∧ (admits s.dev (.lc g) (0x200 + 0x20 * sec + 4 * r) = true)
    ∧ ((cellOf s.dev g).st ≠ .running) := by
  decide +kernel

/-- LoopCommandsConfigureCells, route. -/
theorem test_witness_LoopCommandsConfigureCells_route : let s : State := State.reset; let g : Nat := 2047; let n : Nat := 32767; (g < 2048 ∧ n < 32768)
    ∧ (admits s.dev (.lc g) (LC_OUT_DST g - lcBase g) = true) ∧ ((cellOf s.dev g).st ≠ .running) ∧ (rdBit s.dev (LC_OUT_DST g) 16 = false)
    ∧ (sigTaken s.dev n clsCell g = false) := by
  decide +kernel

/-- LoopCommandsConfigureCells, publish. -/
theorem test_witness_LoopCommandsConfigureCells_publish : let s : State := State.reset; let g : Nat := 2047; let n : Nat := 32764; (g < 2048
    ∧ n ≤ 32764) ∧ (admits s.dev (.lc g) (LC_PUB g - lcBase g) = true) ∧ ((cellOf s.dev g).st ≠ .running) ∧ (rdBit s.dev (LC_PUB g) 16 = false)
    ∧ (∀ i < 4, sigTaken s.dev (n + i) clsCell g = false) := by
  decide +kernel

/-- LoopCommandsConfigureCells, bind. -/
theorem test_witness_LoopCommandsConfigureCells_bind : let s : State := State.reset; let g : Nat := 2047; let v : W32 := 0x37FFF; (g < 2048)
    ∧ (admits s.dev (.lc g) 0x1A8 = true) ∧ ((cellOf s.dev g).st ≠ .running) ∧ (bit v 20 = false) := by
  decide +kernel

/-- LoopCommandsConfigureCells, slot. -/
theorem test_witness_LoopCommandsConfigureCells_slot : let s : State := State.reset; let t : Nat := 63; let k : Nat := 7; let e : Nat := 767;
    let v : W32 := 0x80007FFF; (t < 64 ∧ k < 8 ∧ e < 768) ∧ (admits s.dev (.lt t) (0x9000 + 0xC00 * k + 4 * e) = true)
    ∧ (∀ c < 32, (cellOf s.dev (32 * t + c)).st = .stopped) := by
  decide +kernel

/-- LoopTablesAndSupervision, live. -/
theorem test_witness_LoopTablesAndSupervision_live : let s : State := wit (wr r0 (LC_COMP_CFG 2047) 0x170000); let g : Nat := 2047; (g < 2048)
    ∧ (admits s.dev (.lc g) 0x1EC = true) ∧ ((cellOf s.dev g).st = .stopped) ∧ (bound s.dev g = true) := by
  decide +kernel

/-- LoopTablesAndSupervision, adopt. -/
theorem test_witness_LoopTablesAndSupervision_adopt : let s : State := wit (wr r0 (LC_COMP_CFG 2047) 0x170000); let g : Nat := 2047; (g < 2048)
    ∧ (admits s.dev (.lc g) 0x1EC = true) ∧ ((cellOf s.dev g).st = .stopped) ∧ (bound s.dev g = true) := by
  decide +kernel

/-- LoopTablesAndSupervision, budget. -/
theorem test_witness_LoopTablesAndSupervision_budget : let s : State := wit (wr (wrN r0 BP_CNT 99999) (LC_LRN_STAT 7) 5); let g : Nat := 7; (g < 2048) ∧ ((bp s.dev + 1) % 100000 = 0) := by
  decide +kernel

/-- LoopTablesAndSupervision, scan. -/
theorem test_witness_LoopTablesAndSupervision_scan : let s : State := wit (wr (setCell r0 2047 { cell0 with scanPos := 767 }) (LC_COMP_CFG 2047) 0x170000);
    let g : Nat := 2047; (g < 2048) ∧ (bound s.dev g = true) ∧ ((cellOf s.dev g).scanPos = 767) := by
  decide +kernel

/-- LoopTablesAndSupervision, trip. -/
theorem test_witness_LoopTablesAndSupervision_trip : let s : State := wit (wr (wr (wr { setCell r0 3 { cell0 with st := .running } with sig := [(1, 100)] } (LC_SUP_CFG 3) 1) (LC_SUP_LIM 3) 1) (LC_PV_SRC 3) 1);
    let g : Nat := 3; (g < 2048) ∧ ((held s.dev = false ∧ (cellOf s.dev g).st = .running ∧ supMode s.dev g ≠ 0)) ∧ ((cellOf (cellSample s.dev g) g).st = .fault) ∧ ((fld (rd (cellSample s.dev g) (lcBase g + ERR_CODE)) 15 0 = 0x0210 ∨ fld (rd (cellSample s.dev g) (lcBase g + ERR_CODE)) 15 0 = 0x0211)) := by
  decide +kernel

/-- ConverterCoresTakeTheirWindows, window. -/
theorem test_witness_ConverterCoresTakeTheirWindows_window : let s : State := wit (setCore (wr r0 (acBase 15 + 0x10) 1) 15 { core0 with on := true, len := 64, pos := 62 });
    let k : Nat := 15; let w0 : Nat := 7; (k < 16) ∧ (acConverts s.dev k = true ∧ paired s.dev k = false)
    ∧ ((coreOf s.dev k).pos + 1 < (coreOf s.dev k).len) ∧ ((coreOf s.dev k).xchg = none) := by
  decide +kernel

/-- ConverterCoresTakeTheirWindows, wrap. -/
theorem test_witness_ConverterCoresTakeTheirWindows_wrap : let s : State := wit (setCore r0 0 { core0 with on := true, len := 1, tag := 15, pend := true });
    let k : Nat := 0; let w0 : Nat := 7; (k < 16) ∧ (acConverts s.dev k = true ∧ paired s.dev k = false)
    ∧ ((coreOf s.dev k).len ≤ (coreOf s.dev k).pos + 1) := by
  decide +kernel

/-- ConverterCoresTakeTheirWindows, done. -/
theorem test_witness_ConverterCoresTakeTheirWindows_done : let s : State := wit (setCore r0 15 { core0 with on := true, len := 1, flight := [⟨15, true, 3, 7, 99, false⟩] });
    let k : Nat := 15; let cv : Conv := ⟨15, true, 3, 7, 99, false⟩; let rest : List Conv := []; let sample : Int := 0x800000; let ovr : Bool := false;
    (k < 16 ∧ cv.ch < 16) ∧ ((coreOf s.dev k).flight = cv :: rest) ∧ (owMode s.dev (resCore s.dev k) cv.ch ≠ 2) := by
  decide +kernel

/-- ConverterCoresTakeTheirWindows, starved. -/
theorem test_witness_ConverterCoresTakeTheirWindows_starved : let s : State := wit (wr64 (setCore r0 0 { core0 with on := true }) BP_CNT 16);
    let k : Nat := 0; let n : Nat := 15; (k < 16 ∧ n < 16) ∧ ((coreOf s.dev k).on = true ∧ (chOf s.dev k n).any_ = false
    ∧ 16 ≤ bp s.dev - (chOf s.dev k n).lastBp) := by
  decide +kernel

/-- ConverterCoresTakeTheirWindows, commitIdle. -/
theorem test_witness_ConverterCoresTakeTheirWindows_commitIdle : let s : State := State.reset; let k : Nat := 15; (k < 16)
    ∧ (admits s.dev (.ac k) 0x10C = true) ∧ ((coreOf s.dev k).on = false) := by
  decide +kernel

/-- ConverterCoresTakeTheirWindows, commitRun. -/
theorem test_witness_ConverterCoresTakeTheirWindows_commitRun : let s : State := wit (setCore r0 15 { core0 with on := true, len := 1 });
    let k : Nat := 15; (k < 16) ∧ (admits s.dev (.ac k) 0x10C = true) ∧ ((coreOf s.dev k).on = true ∧ (coreOf s.dev k).len ≠ 0
    ∧ paired s.dev k = false) := by
  decide +kernel

/-- ConverterCoresTakeTheirWindows, settled. -/
theorem test_witness_ConverterCoresTakeTheirWindows_settled : let s : State := wit (wr64 (setCh r0 15 15 { acCh0 with settling := some 0 }) BP_CNT 5);
    let k : Nat := 15; let n : Nat := 15; let b : Nat := 0; (k < 16 ∧ n < 16) ∧ ((chOf s.dev k n).settling = some b ∧ b + 5 ≤ bp s.dev) := by
  decide +kernel

/-- ConverterCoresTakeTheirWindows, ref. -/
theorem test_witness_ConverterCoresTakeTheirWindows_ref : let s : State := State.reset; let k : Nat := 15; (k < 16) := by
  decide +kernel

/-- ConverterCoresTakeTheirWindows, rotation. -/
theorem test_witness_ConverterCoresTakeTheirWindows_rotation : let s : State := wit (setCore (wr r0 (AC_CAL_PER 15) 100) 15 { core0 with on := true, settled := true });
    let k : Nat := 15; let sp : Nat := 8; (k < 16) ∧ (((coreOf s.dev k).on = true ∧ (coreOf s.dev k).quar = false ∧ (coreOf s.dev k).xchg = none ∧ calPaused s.dev k = false ∧ (coreOf s.dev k).rotAt ≠ some (bp s.dev))) ∧ ((0 < calPer s.dev k ∧ bp s.dev % calPer s.dev k = 0)) ∧ (sliceIn (coreOf s.dev k) (fun t => t.role == .spare) = some sp) ∧ ((nth (coreOf s.dev k).slices 0 default).role = .active) := by
  decide +kernel

/-- ConverterCoresTakeTheirWindows, calGood. -/
theorem test_witness_ConverterCoresTakeTheirWindows_calGood : let s : State := wit (setCore (wr r0 (AC_CAL_PER 0) 100) 0 { (setSlice core0 8 ⟨.calibrating, 0, 0, false, 0⟩) with settled := true });
    let k : Nat := 0; let i : Nat := 8; let off : Int := -41943; let gain : Int := 0x400000; let skew : Int := 500; (k < 16 ∧ i < 9)
    ∧ (sliceIn (coreOf s.dev k) (fun t => t.role == .calibrating) = some i) ∧ ((coreOf s.dev k).quar = false ∧ calPaused s.dev k = false)
    ∧ (calGood off gain skew = true) := by
  decide +kernel

/-- ConverterCoresTakeTheirWindows, calNone. -/
theorem test_witness_ConverterCoresTakeTheirWindows_calNone : let s : State := wit (setCore (wr r0 (AC_CAL_PER 0) 100) 0 { (setSlice core0 8 ⟨.calibrating, 0, 0, false, 0⟩) with settled := true });
    let k : Nat := 0; let i : Nat := 8; (k < 16 ∧ i < 9) ∧ (sliceIn (coreOf s.dev k) (fun t => t.role == .calibrating) = some i)
    ∧ ((coreOf s.dev k).quar = false ∧ calPaused s.dev k = false) := by
  decide +kernel

/-- ConverterCoresTakeTheirWindows, storeUe. -/
theorem test_witness_ConverterCoresTakeTheirWindows_storeUe : let s : State := State.reset; let k : Nat := 15; (k < 16)
    ∧ ((coreOf s.dev k).quar = false) := by
  decide +kernel

/-- OpenWirePulsesTestTheirChannels, start. -/
theorem test_witness_OpenWirePulsesTestTheirChannels_start : let s : State := wit (setCh (wr r0 (AC_CH_CFG 3 5) 16) 3 5 { acCh0 with hist := [true] });
    let k : Nat := 3; let n : Nat := 5; (bp s.dev % 10000 = 0) ∧ ((k, n) ∈ pulseChans s.dev) := by
  decide +kernel

/-- OpenWirePulsesTestTheirChannels, end. -/
theorem test_witness_OpenWirePulsesTestTheirChannels_end : let s : State := wit (wr64 (setCh (wr r0 (AC_CH_CFG 3 5) 16) 3 5 { acCh0 with hist := [true] }) BP_CNT 10150);
    let k : Nat := 3; let n : Nat := 5; (bp s.dev % 10000 = 150) ∧ ((k, n) ∈ pulseChans s.dev) := by
  decide +kernel

/-- OpenWirePulsesTestTheirChannels, decide. -/
theorem test_witness_OpenWirePulsesTestTheirChannels_decide : let s : State := wit (wr64 (setCh (wr r0 (AC_CH_CFG 3 5) 16) 3 5 { acCh0 with hist := [true, true, true, true, true, true, true, true] }) BP_CNT 100);
    let k : Nat := 3; let n : Nat := 5; (bp s.dev % 10000 = 100) ∧ ((k, n) ∈ pulseChans s.dev) ∧ ((chOf s.dev k n).skip = false) := by
  decide +kernel

/-- OutputChannelsFault, otemp. -/
theorem test_witness_OutputChannelsFault_otemp : let s : State := wit (setAo r0 63 { ao0 with st := .safe }); let c : Nat := 63; (c < 64)
    ∧ (((aoOf s.dev c).st = .running ∨ (aoOf s.dev c).st = .safe)) := by
  decide +kernel

/-- OutputChannelsFault, pin. -/
theorem test_witness_OutputChannelsFault_pin : let s : State := wit (setDio r0 127 { dio0 with st := .running, queue := [(1, true)] });
    let n : Nat := 127; (n < 128) ∧ ((dioOf s.dev n).st = .running ∨ (dioOf s.dev n).st = .safe) := by
  decide +kernel

/-- OutputChannelsFault, under. -/
theorem test_witness_OutputChannelsFault_under : let s : State := wit (wrN (setDio r0 127 { dio0 with st := .running, level := true }) (DIO_IMIN 15 7) 1); let n : Nat := 127; (n < 128) ∧ (((dioOf s.dev n).level = true ∧ fld (rd s.dev (DIO_IMIN (n / 8) (n % 8))) 9 0 ≠ 0)) := by
  decide +kernel

/-- DigitalPinsTimeTheirEdges, edge. -/
theorem test_witness_DigitalPinsTimeTheirEdges_edge : let s : State := wit (setDio r0 127 { dio0 with st := .input, acc := true }); let n : Nat := 127;
    let lvl : Bool := false; let ts : Nat := 0x123456789A; (n < 128) ∧ ((dioOf s.dev n).st = .input)
    ∧ ((dioOf s.dev n).acc = !(xor lvl (bit (dioCfg s.dev n) 2))) := by
  decide +kernel

/-- DigitalPinsTimeTheirEdges, push. -/
theorem test_witness_DigitalPinsTimeTheirEdges_push : let s : State := wit (wr64 (wr (setDio r0 127 { dio0 with st := .running, queue := [(20000, false), (20001, true), (20002, false)] }) (DIO_CFG 15 7) 3) (DIO_SCH_TIME 15 7) 20003);
    let n : Nat := 127; let lvl : Bool := true; (n < 128) ∧ (admits s.dev (.dio (n / 8)) (0x214 + 0x40 * (n % 8)) = true) ∧ (dioMode s.dev n = 3
    ∧ (dioOf s.dev n).queue.length < 4) ∧ (∀ e ∈ (dioOf s.dev n).queue.getLast?, e.1 < rd64 s.dev (DIO_SCH_TIME (n / 8) (n % 8)))
    ∧ (s.dev.tt + 10000 < rd64 s.dev (DIO_SCH_TIME (n / 8) (n % 8))) := by
  decide +kernel

/-- DigitalPinsTimeTheirEdges, flush. -/
theorem test_witness_DigitalPinsTimeTheirEdges_flush : let s : State := State.reset; let n : Nat := 127; (n < 128)
    ∧ (admits s.dev (.dio (n / 8)) (0x214 + 0x40 * (n % 8)) = true) := by
  decide +kernel

/-- DigitalPinsTimeTheirEdges, switch. -/
theorem test_witness_DigitalPinsTimeTheirEdges_switch : let s : State := wit (setDio r0 127 { dio0 with st := .running, level := true, queue := [(0, true)] });
    let n : Nat := 127; let t : Nat := 0; let lvl : Bool := true; let rest : List (Nat × Bool) := []; (n < 128) ∧ ((dioOf s.dev n).queue = (t, lvl) :: rest
    ∧ t ≤ tbNs s.dev ∧ (dioOf s.dev n).st = .running) ∧ (lvl = false ∨ (dioOf s.dev n).level = true) := by
  decide +kernel

/-- DigitalPinsTimeTheirEdges, switchOn. -/
theorem test_witness_DigitalPinsTimeTheirEdges_switchOn : let s : State := wit (setDio r0 127 { dio0 with st := .running, queue := [(0, true)] });
    let n : Nat := 127; let t : Nat := 0; let rest : List (Nat × Bool) := []; (n < 128) ∧ ((dioOf s.dev n).queue = (t, true) :: rest ∧ t ≤ tbNs s.dev
    ∧ (dioOf s.dev n).st = .running ∧ (dioOf s.dev n).level = false) := by
  decide +kernel

/-- AxesTakeMoveCommands, move. -/
theorem test_witness_AxesTakeMoveCommands_move : let s : State := wit (wr64 (wAx wAxis) (AX_TGT 0) 65536); let a : Nat := 0; (a < 64)
    ∧ (admits s.dev (.ax a) 0x100 = true) ∧ (moveRefusal s.dev a (axReg s.dev (AX_TGT a)) true = none) ∧ ((axOf s.dev a).v = 0
    ∧ ¬((axOf s.dev a).st = .idle ∧ axReg s.dev (AX_TGT a) = posCmd (axOf s.dev a))) := by
  decide +kernel

/-- AxesTakeMoveCommands, moveRel. -/
theorem test_witness_AxesTakeMoveCommands_moveRel : let s : State := wit (wr64 (wAx { wAxis with p := 2 ^ 64 }) (AX_TGT 0) 65536); let a : Nat := 0;
    (a < 64) ∧ (admits s.dev (.ax a) 0x100 = true) ∧ (moveRefusal s.dev a (relTarget s.dev a (axReg s.dev (AX_TGT a))) false = none)
    ∧ ((axOf s.dev a).v = 0 ∧ ¬((axOf s.dev a).st = .idle ∧ relTarget s.dev a (axReg s.dev (AX_TGT a)) = posCmd (axOf s.dev a))) := by
  decide +kernel

/-- AxesTakeMoveCommands, moveDone. -/
theorem test_witness_AxesTakeMoveCommands_moveDone : let s : State := wit (wAx wAxis); let a : Nat := 0; (a < 64) ∧ (admits s.dev (.ax a) 0x100 = true)
    ∧ (moveRefusal s.dev a (posCmd (axOf s.dev a)) true = none) ∧ ((axOf s.dev a).st = .idle ∧ axReg s.dev (AX_TGT a) = posCmd (axOf s.dev a)) := by
  decide +kernel

/-- AxesTakeMoveCommands, moveUp. -/
theorem test_witness_AxesTakeMoveCommands_moveUp : let s : State := wit (wr64 (wAx { wAxis with st := .moving, v := 2 ^ 60, target := 5 }) (AX_TGT 0) 6553600);
    let a : Nat := 0; (a < 64) ∧ (admits s.dev (.ax a) 0x100 = true) ∧ (moveRefusal s.dev a (axReg s.dev (AX_TGT a)) true = none)
    ∧ ((axOf s.dev a).st ≠ .idle ∧ 0 < (axOf s.dev a).v ∧ posCmd (axOf s.dev a) ≤ axReg s.dev (AX_TGT a) ∧ (softOn (axOf s.dev a) = false
    ∨ posCmd (axOf s.dev a) + haltDist (axOf s.dev a) (axReg s.dev (AX_DMAX a)) (axReg s.dev (AX_JMAX a)) ≤ axReg s.dev (AX_TGT a))) := by
  decide +kernel

/-- AxesTakeMoveCommands, update. -/
theorem test_witness_AxesTakeMoveCommands_update : let s : State := wit (wAx { wAxis with st := .moving, v := 2 ^ 40, target := 65536000 });
    let a : Nat := 0; (a < 64) ∧ (admits s.dev (.ax a) 0x100 = true) ∧ ((∀ x ∈ moveLimits s.dev a, 0 < x)) ∧ (((axOf s.dev a).st = .moving ∧ (axOf s.dev a).jogDir = 0 ∧ 0 < (axOf s.dev a).v)) ∧ ((softOn (axOf s.dev a) = false ∨ beyond s.dev a (axOf s.dev a).target = false)) ∧ ((posCmd (axOf s.dev a) ≤ (axOf s.dev a).target ∧ posCmd (axOf s.dev a) + haltDist (axOf s.dev a) (axReg s.dev (AX_DMAX a)) (axReg s.dev (AX_JMAX a)) ≤ (axOf s.dev a).target)) ∧ ((towardsLimit (axOf s.dev a) ((axOf s.dev a).target - posCmd (axOf s.dev a)) = false ∧ rateOk s.dev a (axReg s.dev (AX_VMAX a)) = true)) := by
  decide +kernel

/-- AxesTakeMoveCommands, jog. -/
theorem test_witness_AxesTakeMoveCommands_jog : let s : State := wit (wAx wAxis); let a : Nat := 0; (a < 64) ∧ (admits s.dev (.ax a) 0x100 = true)
    ∧ (∀ x ∈ moveLimits s.dev a, 0 < x) ∧ ((axOf s.dev a).st = .idle ∧ (axOf s.dev a).v = 0 ∧ softOn (axOf s.dev a) = false)
    ∧ ((axOf s.dev a).limP.on = false ∧ (axOf s.dev a).limN.on = false ∧ gateClosed s.dev a = false
    ∧ rateOk s.dev a (axReg s.dev (AX_VMAX a)) = true) := by
  decide +kernel

/-- AxesStopHomeAndFollow, stop. -/
theorem test_witness_AxesStopHomeAndFollow_stop : let s : State := wit (wAx { wAxis with st := .homing }); let a : Nat := 0; (a < 64)
    ∧ (admits s.dev (.ax a) 0x100 = true) ∧ (0 < axReg s.dev (AX_DMAX a) ∧ 0 < axReg s.dev (AX_JMAX a)) ∧ ((axOf s.dev a).st = .moving
    ∨ (axOf s.dev a).st = .homing ∨ (axOf s.dev a).st = .geared) := by
  decide +kernel

/-- AxesStopHomeAndFollow, release. -/
theorem test_witness_AxesStopHomeAndFollow_release : let s : State := wit (wAx { wAxis with st := .geared }); let a : Nat := 0; (a < 64)
    ∧ (admits s.dev (.ax a) 0x100 = true) ∧ (0 < axReg s.dev (AX_DMAX a) ∧ 0 < axReg s.dev (AX_JMAX a)) ∧ ((axOf s.dev a).st = .geared) := by
  decide +kernel

/-- AxesStopHomeAndFollow, estop. -/
theorem test_witness_AxesStopHomeAndFollow_estop : let s : State := wit (wr64 (wr64 (wAx { wAxis with st := .stopping }) (AX_EDEC 0) 65536) (AX_EJERK 0) 65536); let a : Nat := 0; (a < 64) ∧ (admits s.dev (.ax a) 0x100 = true) ∧ ((0 < axReg s.dev (AX_EDEC a) ∧ 0 < axReg s.dev (AX_EJERK a))) ∧ (((axOf s.dev a).st = .moving ∨ (axOf s.dev a).st = .stopping ∨ (axOf s.dev a).st = .homing ∨ (axOf s.dev a).st = .geared)) := by
  decide +kernel

/-- AxesStopHomeAndFollow, home. -/
theorem test_witness_AxesStopHomeAndFollow_home : let s : State := wit (wr (wr (wr (wAx wAxis) (AX_HVEL1 0) 100) (AX_HVEL2 0) 10) (AX_HOME_CFG 0) 5);
    let a : Nat := 0; (a < 64) ∧ (admits s.dev (.ax a) 0x100 = true) ∧ (((axOf s.dev a).st = .idle ∧ gateClosed s.dev a = false ∧ rateOk s.dev a (axReg s.dev (AX_VMAX a)) = true)) ∧ ((∀ x ∈ [axReg s.dev (AX_AMAX a), axReg s.dev (AX_DMAX a), axReg s.dev (AX_JMAX a)] ++ hVels (axRegs s.dev a) (hMethod s.dev a), 0 < x)) ∧ ((hMethod s.dev a < 7 ∧ (3 < hMethod s.dev a ∨ (axOf s.dev a).home.on = false))) := by
  decide +kernel

/-- AxesStopHomeAndFollow, homeHere. -/
theorem test_witness_AxesStopHomeAndFollow_homeHere : let s : State := wit (wr (wAx wAxis) (AX_HOME_CFG 0) 7); let a : Nat := 0; (a < 64)
    ∧ (admits s.dev (.ax a) 0x100 = true) ∧ ((axOf s.dev a).st = .idle ∧ gateClosed s.dev a = false ∧ rateOk s.dev a (axReg s.dev (AX_VMAX a)) = true)
    ∧ (0 < axReg s.dev (AX_AMAX a) ∧ 0 < axReg s.dev (AX_DMAX a) ∧ 0 < axReg s.dev (AX_JMAX a)) ∧ (hMethod s.dev a = 7) := by
  decide +kernel

/-- AxesStopHomeAndFollow, engage. -/
theorem test_witness_AxesStopHomeAndFollow_engage : let s : State := wit (wr (wAx wAxis) (AX_GEAR_DEN 0) 3); let a : Nat := 0; (a < 64)
    ∧ (admits s.dev (.ax a) 0x100 = true) ∧ ((axOf s.dev a).st = .idle ∧ gateClosed s.dev a = false ∧ (rdBit s.dev (AX_CFG a) 7 = false
    ∨ (axOf s.dev a).ref = true)) ∧ (rdN s.dev (AX_GEAR_DEN a) ≠ 0) := by
  decide +kernel

/-- AxesStopHomeAndFollow, arm. -/
theorem test_witness_AxesStopHomeAndFollow_arm : let s : State := wit (wr (wAx { wAxis with st := .geared }) (AX_GEAR_ADEN 0) 3); let a : Nat := 0;
    (a < 64) ∧ (admits s.dev (.ax a) 0x100 = true) ∧ ((axOf s.dev a).st = .geared ∧ rdN s.dev (AX_GEAR_ADEN a) ≠ 0) := by
  decide +kernel

/-- AxesStopHomeAndFollow, setPos. -/
theorem test_witness_AxesStopHomeAndFollow_setPos : let s : State := wit (wr64 (wAx wAxis) (AX_TGT 0) 77); let a : Nat := 0; (a < 64)
    ∧ (admits s.dev (.ax a) 0x100 = true) ∧ ((axOf s.dev a).st = .idle ∨ (axOf s.dev a).st = .disabled) := by
  decide +kernel

/-- MotionTilesCommandTheirAxes, run. -/
theorem test_witness_MotionTilesCommandTheirAxes_run : let s : State := State.reset; let m : Nat := 7; (m < 8)
    ∧ (admits s.dev (.mt m) 0x118 = true) := by
  decide +kernel

/-- MotionTilesCommandTheirAxes, go. -/
theorem test_witness_MotionTilesCommandTheirAxes_go : let s : State := wit (wr (wr64 (wAx wAxis) (AX_TGT 0) 65536) (MT_GRP_MASK 0) 1);
    let m : Nat := 0; (m < 8) ∧ (admits s.dev (.mt m) 0x118 = true) ∧ (∀ i < 8, (axOf s.dev (8 * m + i)).v = 0)
    ∧ (∀ i < 8, rdBit s.dev (MT_GRP_MASK m) i = true → moveRefusal s.dev (8 * m + i) (axReg s.dev (AX_TGT (8 * m + i))) true = none)
    ∧ (∀ i < 8, rdBit s.dev (MT_GRP_MASK m) i = true → axReg s.dev (AX_TGT (8 * m + i)) ≠ posCmd (axOf s.dev (8 * m + i))) := by
  decide +kernel

/-- AxesEndTheirMoves, profileEnd. -/
theorem test_witness_AxesEndTheirMoves_profileEnd : let s : State := wit (setAx r0 63 { wAxis with st := .moving, target := 9, v := 5 });
    let a : Nat := 63; (a < 64) ∧ ((axOf s.dev a).st = .moving ∧ (axOf s.dev a).jog = false ∧ (axOf s.dev a).plan = []) := by
  decide +kernel

/-- AxesEndTheirMoves, standstill. -/
theorem test_witness_AxesEndTheirMoves_standstill : let s : State := wit (setAx r0 63 { wAxis with st := .stopping }); let a : Nat := 63; (a < 64)
    ∧ (atRest (axOf s.dev a) = true) ∧ ((axOf s.dev a).st = .stopping) := by
  decide +kernel

/-- AxesEndTheirMoves, standEstop. -/
theorem test_witness_AxesEndTheirMoves_standEstop : let s : State := wit (setAx r0 63 { wAxis with st := .estopping }); let a : Nat := 63; (a < 64)
    ∧ (atRest (axOf s.dev a) = true) ∧ ((axOf s.dev a).st = .estopping) := by
  decide +kernel

/-- AxesEndTheirMoves, standHome. -/
theorem test_witness_AxesEndTheirMoves_standHome : let s : State := wit (setAx r0 63 { wAxis with st := .homing, hphase := 4, hnext := .ok });
    let a : Nat := 63; (a < 64) ∧ (atRest (axOf s.dev a) = true) ∧ ((axOf s.dev a).st = .homing ∧ (axOf s.dev a).hnext = .ok) := by
  decide +kernel

/-- AxesEndTheirMoves, switchHome. -/
theorem test_witness_AxesEndTheirMoves_switchHome : let s : State := wit (wr (setAx r0 63 wAxis) (AX_HOME_SRC 63) 0x400000); let a : Nat := 63;
    let on : Bool := true; (a < 64) ∧ ((axOf s.dev a).st ≠ .homing ∧ (axOf s.dev a).home.on ≠ on ∧ bit (rd s.dev (AX_HOME_SRC a)) 22 = true) := by
  decide +kernel

/-- AxesEndTheirMoves, switchLimit. -/
theorem test_witness_AxesEndTheirMoves_switchLimit : let s : State := wit (wr (setAx r0 63 { wAxis with st := .moving, v := 7 }) (AX_LIMP_SRC 63) 0x400000);
    let a : Nat := 63; (a < 64) ∧ ((axOf s.dev a).st = .moving ∧ (axOf s.dev a).limP.on = false ∧ bit (rd s.dev (AX_LIMP_SRC a)) 22 = true
    ∧ 0 < (axOf s.dev a).v) := by
  decide +kernel

/-- AxesEndTheirMoves, stall. -/
theorem test_witness_AxesEndTheirMoves_stall : let s : State := wit (setAx r0 63 { wAxis with st := .geared, devOut := true, p := -2 ^ 48 });
    let a : Nat := 63; (a < 64) ∧ ((axOf s.dev a).devOut = true ∧ fld (rd s.dev (AX_DEV_CFG a)) 31 16 ≤ (axOf s.dev a).devTimer
    ∧ axLive (axOf s.dev a).st = true) := by
  decide +kernel

/-- AxesEndTheirMoves, chatter. -/
theorem test_witness_AxesEndTheirMoves_chatter : let s : State := wit (setAx r0 63 { wAxis with st := .homing, chat := 9 }); let a : Nat := 63; (a < 64) ∧ (((axOf s.dev a).st = .homing ∧ fld (rd s.dev (AX_SW_FILT a)) 19 16 < (axOf s.dev a).chat ∧ (axOf s.dev a).hnext ≠ .chatter ∧ (axOf s.dev a).hnext ≠ .fail)) := by
  decide +kernel

/-- EncodersCount, quad. -/
theorem test_witness_EncodersCount_quad : let s : State := wit (wr (wr (setEnc r0 31 { enc0 with on := true, valid := true }) (ENC_CFG 31) 1) (encBase 31 + BLK_CTRL) 1);
    let e : Nat := 31; (e < 32) ∧ (runBit s.dev (.enc e) = true ∧ encMode s.dev e = 1) := by
  decide +kernel

/-- EncodersCount, index. -/
theorem test_witness_EncodersCount_index : let s : State := wit (wr (wr (setEnc r0 31 { enc0 with on := true, valid := true }) (ENC_CFG 31) 0x41) (encBase 31 + BLK_CTRL) 1);
    let e : Nat := 31; let pos : Nat := 0x123456789; let ts : Nat := 4; (e < 32) ∧ (runBit s.dev (.enc e) = true ∧ encMode s.dev e = 1
    ∧ rdBit s.dev (ENC_CFG e) 6 = true) := by
  decide +kernel

/-- EncodersCount, ssi. -/
theorem test_witness_EncodersCount_ssi : let s : State := wit (wr (wr (wr (setEnc r0 31 { enc0 with on := true, valid := true }) (ENC_CFG 31) 2) (encBase 31 + BLK_CTRL) 1) (ENC_SSI 31) 25);
    let e : Nat := 31; let raw : Nat := 99; (e < 32) ∧ (runBit s.dev (.enc e) = true ∧ encMode s.dev e = 2 ∧ rdBit s.dev (ENC_SSI e) 6 = false) := by
  decide +kernel

/-- EncodersCount, ssiGray. -/
theorem test_witness_EncodersCount_ssiGray : let s : State := wit (wr (wr (wr (setEnc r0 31 { enc0 with on := true, valid := true }) (ENC_CFG 31) 2) (encBase 31 + BLK_CTRL) 1) (ENC_SSI 31) 0x59);
    let e : Nat := 31; let raw : Nat := 99; (e < 32) ∧ (runBit s.dev (.enc e) = true ∧ encMode s.dev e = 2 ∧ rdBit s.dev (ENC_SSI e) 6 = true) := by
  decide +kernel

/-- NoOperationCommandsAreOnlyIssued, nop. -/
theorem test_witness_NoOperationCommandsAreOnlyIssued_nop : let s : State := State.reset; let l : Nat := 15; let a : Nat := 63; let p : Nat := 3;
    let g : Nat := 15; let x : Nat := 7; let c : Nat := 7; let e : Instr × Page × Nat × W32 := (.wlNop, .hlth, 0x18C, 0); (l < 16 ∧ a < 64 ∧ p < 4 ∧ g < 16
    ∧ x < 8 ∧ c < 8)
    ∧ (e ∈ [(.laneNop l, .sq l, 0x100, 0), (.axNop a, .ax a, 0x100, 0), (.lpNop p, .lp p, 0x100, 0), (.twNop, .tw, 0x104, 0), (.glNop, .gl, 0x108, 0), (.sbNop, .sb, 0x108, 0), (.plNop g, .pl g, 0x104, 0), (.plLcmdNop g, .pl g, 0x108, 0), (.cxNop x, .cx x, 0x10C, 0), (.tbNop, .tb, 0x120, 0), (.trNop, .tr, 0x104, 0), (.coreNop c, .tl, 0x10C, w32 c), (.tkNop, .tk, 0x108, 0), (.pwrNop, .pwr, 0x104, 0), (.wlNop, .hlth, 0x18C, 0)])
    ∧ (admits s.dev e.2.1 e.2.2.1 = true) := by
  decide +kernel

/-- BitInstructionsWorkOnLB, bits. -/
theorem test_witness_BitInstructionsWorkOnLB_bits : let s : State := wLp wInst 0x06000001; let p : Nat := 0; let t : TInst := wInst;
    let w : W32 := 0x06000001; let e : Instr × Nat × Bool := (.lgLd 0, 1, true); (p < 4) ∧ (nextInsn s.dev p = some (t, w))
    ∧ (e ∈ [(.lgNop p, 0x00, t.lb), (.lgLd p, 0x01, (bitV (logicCtx s.dev p t w) w).1), (.lgLdn p, 0x02, !(bitV (logicCtx s.dev p t w) w).1), (.lgAnd p, 0x03, t.lb && (bitV (logicCtx s.dev p t w) w).1), (.lgAndn p, 0x04, t.lb && !(bitV (logicCtx s.dev p t w) w).1), (.lgOr p, 0x05, t.lb || (bitV (logicCtx s.dev p t w) w).1), (.lgOrn p, 0x06, t.lb || !(bitV (logicCtx s.dev p t w) w).1), (.lgXor p, 0x07, t.lb != (bitV (logicCtx s.dev p t w) w).1), (.lgNot p, 0x10, !t.lb), (.lgCeq p, 0x2C, t.acc == (wordV (logicCtx s.dev p t w) w).1), (.lgCgt p, 0x2D, decide (((wordV (logicCtx s.dev p t w) w).1).toInt < t.acc.toInt)), (.lgClt p, 0x2E, decide (t.acc.toInt < ((wordV (logicCtx s.dev p t w) w).1).toInt))])
    ∧ (opcodeOf w = e.2.1) := by
  decide +kernel

/-- BitInstructionsWorkOnLB, branch. -/
theorem test_witness_BitInstructionsWorkOnLB_branch : let s : State := wLp { wInst with stack := [(true, 2)] } 0x3E000000; let p : Nat := 0;
    let t : TInst := { wInst with stack := [(true, 2)] }; let w : W32 := 0x3E000000; let f : Nat := 2; let b : Bool := true;
    let r : List (Bool × Nat) := []; (p < 4) ∧ (nextInsn s.dev p = some (t, w)) ∧ (opcodeOf w = 0x0F ∧ t.stack = (b, f) :: r) := by
  decide +kernel

/-- BitInstructionsWorkOnLB, push. -/
theorem test_witness_BitInstructionsWorkOnLB_push : let s : State := wLp wInst 0x3A000000; let p : Nat := 0; let t : TInst := wInst;
    let w : W32 := 0x3A000000; let e : Instr × Nat × Nat := (.lgXorp 0, 0x0E, 2); (p < 4) ∧ (nextInsn s.dev p = some (t, w))
    ∧ (e ∈ [(.lgAndp p, 0x0C, 0), (.lgOrp p, 0x0D, 1), (.lgXorp p, 0x0E, 2)]) ∧ (opcodeOf w = e.2.1) := by
  decide +kernel

/-- BitInstructionsWorkOnLB, words. -/
theorem test_witness_BitInstructionsWorkOnLB_words : let s : State := wLp wInst 0x82001234; let p : Nat := 0; let t : TInst := wInst;
    let w : W32 := 0x82001234; let e : Instr × Nat × W16 := (.lgLdw 0, 0x20, 0x1234); (p < 4) ∧ (nextInsn s.dev p = some (t, w))
    ∧ (e ∈ [(.lgLdw p, 0x20, (wordV (logicCtx s.dev p t w) w).1), (.lgAndw p, 0x27, t.acc &&& (wordV (logicCtx s.dev p t w) w).1), (.lgOrw p, 0x28, t.acc ||| (wordV (logicCtx s.dev p t w) w).1), (.lgXorw p, 0x29, t.acc ^^^ (wordV (logicCtx s.dev p t w) w).1), (.lgShl p, 0x2A, t.acc <<< (w.toNat % 16)), (.lgShr p, 0x2B, t.acc.sshiftRight (w.toNat % 16))])
    ∧ (opcodeOf w = e.2.1) := by
  decide +kernel

/-- BitInstructionsWorkOnLB, ldx. -/
theorem test_witness_BitInstructionsWorkOnLB_ldx : let s : State := wLp wInst 0xBE001234; let p : Nat := 0; let t : TInst := wInst;
    let w : W32 := 0xBE001234; (p < 4) ∧ (nextInsn s.dev p = some (t, w)) ∧ (opcodeOf w = 0x2F) := by
  decide +kernel

/-- BitInstructionsWorkOnLB, jumps. -/
theorem test_witness_BitInstructionsWorkOnLB_jumps : let s : State := wLp wInst 0xE6000000; let p : Nat := 0; let t : TInst := wInst;
    let w : W32 := 0xE6000000; let e : Instr × Nat × Bool := (.lgJc 0, 0x39, true); (p < 4) ∧ (nextInsn s.dev p = some (t, w))
    ∧ (e ∈ [(.lgJmp p, 0x38, true), (.lgJc p, 0x39, t.lb), (.lgJnc p, 0x3A, !t.lb)]) ∧ (opcodeOf w = e.2.1) := by
  decide +kernel

/-- ArithmeticSetsACCAndItsFlags, arith. -/
theorem test_witness_ArithmeticSetsACCAndItsFlags_arith : let s : State := wLp { wInst with acc := 0x7FFF } 0x8E000001; let p : Nat := 0;
    let t : TInst := { wInst with acc := 0x7FFF }; let w : W32 := 0x8E000001; let e : Instr × Nat × Int × W16 := (.lgAdd 0, 0x23, 0x8000, 0x8000); (p < 4)
    ∧ (nextInsn s.dev p = some (t, w))
    ∧ (e ∈ [(.lgAdd p, 0x23, t.acc.toInt + (wordV (logicCtx s.dev p t w) w).1.toInt, BitVec.ofInt 16 (t.acc.toInt + (wordV (logicCtx s.dev p t w) w).1.toInt)), (.lgSub p, 0x24, t.acc.toInt - (wordV (logicCtx s.dev p t w) w).1.toInt, BitVec.ofInt 16 (t.acc.toInt - (wordV (logicCtx s.dev p t w) w).1.toInt)), (.lgMul p, 0x25, t.acc.toInt * (wordV (logicCtx s.dev p t w) w).1.toInt, BitVec.ofInt 16 (sat16 (t.acc.toInt * (wordV (logicCtx s.dev p t w) w).1.toInt))), (.lgDiv p, 0x26, Int.tdiv (t.acc.toInt) ((wordV (logicCtx s.dev p t w) w).1.toInt), BitVec.ofInt 16 (sat16 (Int.tdiv (t.acc.toInt) ((wordV (logicCtx s.dev p t w) w).1.toInt))))])
    ∧ (opcodeOf w = e.2.1 ∧ ((wordV (logicCtx s.dev p t w) w).1.toInt ≠ 0 ∨ e.2.1 ≠ 0x26)) := by
  decide +kernel

/-- ArithmeticSetsACCAndItsFlags, divZero. -/
theorem test_witness_ArithmeticSetsACCAndItsFlags_divZero : let s : State := wLp wInst 0x9A000000; let p : Nat := 0; let t : TInst := wInst;
    let w : W32 := 0x9A000000; (p < 4) ∧ (nextInsn s.dev p = some (t, w)) ∧ (opcodeOf w = 0x26 ∧ (wordV (logicCtx s.dev p t w) w).1 = 0) := by
  decide +kernel

/-- StoresReachTheirArea, bit. -/
theorem test_witness_StoresReachTheirArea_bit : let s : State := wLp wInst 0x2000FFFF; let p : Nat := 0; let t : TInst := wInst;
    let w : W32 := 0x2000FFFF; let e : Instr × Nat × Bool := (.lgSt 0, 8, true); (p < 4) ∧ (nextInsn s.dev p = some (t, w))
    ∧ (e ∈ [(.lgSt p, 0x08, t.lb), (.lgStn p, 0x09, !t.lb), (.lgSet p, 0x0A, true), (.lgRst p, 0x0B, false)]) ∧ (opcodeOf w = e.2.1 ∧ (t.lb = true
    ∨ e.2.1 ≤ 9)) ∧ (inWrite (logicCtx s.dev p t w) w false = true ∧ areaOf w < 4 ∧ (lpOf s.dev p).forces = []) := by
  decide +kernel

/-- StoresReachTheirArea, word. -/
theorem test_witness_StoresReachTheirArea_word : let s : State := wLp wInst 0x8510FFFF; let p : Nat := 0; let t : TInst := wInst;
    let w : W32 := 0x8510FFFF; let e : Instr × Nat := (.lgStw 0, 0x21); (p < 4) ∧ (nextInsn s.dev p = some (t, w))
    ∧ (e ∈ [(.lgStw p, 0x21), (.lgStwc p, 0x22)]) ∧ (opcodeOf w = e.2 ∧ (t.lb = true ∨ e.2 = 0x21)) ∧ (inWrite (logicCtx s.dev p t w) w true = true
    ∧ areaOf w < 4 ∧ (lpOf s.dev p).forces = []) := by
  decide +kernel

/-- StoresReachTheirArea, notWhenLBisClear. -/
theorem test_witness_StoresReachTheirArea_notWhenLBisClear : let s : State := wLp { wInst with lb := false } 0x2800FFFF; let p : Nat := 0;
    let t : TInst := { wInst with lb := false }; let w : W32 := 0x2800FFFF; let e : Instr × Nat := (.lgSet 0, 0x0A); (p < 4)
    ∧ (nextInsn s.dev p = some (t, w))
    ∧ (e ∈ [(.lgSet p, 0x0A), (.lgRst p, 0x0B), (.lgStwc p, 0x22), (.lgCrs p, 0x18), (.lgCld p, 0x19), (.lgTrig p, 0x3B)]) ∧ (opcodeOf w = e.2
    ∧ t.lb = false) := by
  decide +kernel

/-- TimersAndEdgesKeepTheirSlots, timers. -/
theorem test_witness_TimersAndEdgesKeepTheirSlots_timers : let s : State := wLp { wInst with sl := [(8191, ⟨1, false, false, false, 0, 5, 0⟩)] } 0x4E001FFF;
    let p : Nat := 0; let t : TInst := { wInst with sl := [(8191, ⟨1, false, false, false, 0, 5, 0⟩)] }; let w : W32 := 0x4E001FFF; (p < 4)
    ∧ (nextInsn s.dev p = some (t, w)) ∧ (opcodeOf w = 0x13 ∧ (slotIn (logicCtx s.dev p t w) (w.toNat % 8192)).kind = 1
    ∧ (slotIn (logicCtx s.dev p t w) (w.toNat % 8192)).init = false) := by
  decide +kernel

/-- TimersAndEdgesKeepTheirSlots, tof. -/
theorem test_witness_TimersAndEdgesKeepTheirSlots_tof : let s : State := wLp { wInst with sl := [(8191, ⟨2, false, false, false, 0, 5, 0⟩)] } 0x52001FFF;
    let p : Nat := 0; let t : TInst := { wInst with sl := [(8191, ⟨2, false, false, false, 0, 5, 0⟩)] }; let w : W32 := 0x52001FFF; (p < 4)
    ∧ (nextInsn s.dev p = some (t, w)) ∧ (opcodeOf w = 0x14 ∧ (slotIn (logicCtx s.dev p t w) (w.toNat % 8192)).kind = 2
    ∧ (slotIn (logicCtx s.dev p t w) (w.toNat % 8192)).init = false) := by
  decide +kernel

/-- TimersAndEdgesKeepTheirSlots, tp. -/
theorem test_witness_TimersAndEdgesKeepTheirSlots_tp : let s : State := wLp { wInst with sl := [(8191, ⟨3, false, false, false, 0, 5, 0⟩)] } 0x56001FFF;
    let p : Nat := 0; let t : TInst := { wInst with sl := [(8191, ⟨3, false, false, false, 0, 5, 0⟩)] }; let w : W32 := 0x56001FFF; (p < 4)
    ∧ (nextInsn s.dev p = some (t, w)) ∧ (opcodeOf w = 0x15 ∧ (slotIn (logicCtx s.dev p t w) (w.toNat % 8192)).kind = 3
    ∧ (slotIn (logicCtx s.dev p t w) (w.toNat % 8192)).init = false) := by
  decide +kernel

/-- TimersAndEdgesKeepTheirSlots, edges. -/
theorem test_witness_TimersAndEdgesKeepTheirSlots_edges : let s : State := wLp { wInst with sl := [(8191, ⟨6, false, false, false, 0, 0, 0⟩)] } 0x46001FFF;
    let p : Nat := 0; let t : TInst := { wInst with sl := [(8191, ⟨6, false, false, false, 0, 0, 0⟩)] }; let w : W32 := 0x46001FFF;
    let e : Instr × Nat × Nat × Bool := (.lgRed 0, 0x11, 6, true); (p < 4) ∧ (nextInsn s.dev p = some (t, w))
    ∧ (e ∈ [(.lgRed p, 0x11, 6, t.lb && !(slotIn (logicCtx s.dev p t w) (w.toNat % 8192)).inp), (.lgFed p, 0x12, 7, (slotIn (logicCtx s.dev p t w) (w.toNat % 8192)).inp && !t.lb)])
    ∧ (opcodeOf w = e.2.1 ∧ (slotIn (logicCtx s.dev p t w) (w.toNat % 8192)).kind = e.2.2.1) := by
  decide +kernel

/-- TimersAndEdgesKeepTheirSlots, puts. -/
theorem test_witness_TimersAndEdgesKeepTheirSlots_puts : let s : State := wLp wInst 0x6E001FFF; let p : Nat := 0; let t : TInst := wInst;
    let w : W32 := 0x6E001FFF; let e : Instr × Nat × Slot := (.lgLpv 0, 0x1B, { slot0 with preset := 5 }); (p < 4) ∧ (nextInsn s.dev p = some (t, w))
    ∧ (e ∈ [(.lgCrs p, 0x18, { slotIn (logicCtx s.dev p t w) (w.toNat % 8192) with val := 0 }), (.lgCld p, 0x19, { slotIn (logicCtx s.dev p t w) (w.toNat % 8192) with val := (slotIn (logicCtx s.dev p t w) (w.toNat % 8192)).preset }), (.lgLpt p, 0x1A, { slotIn (logicCtx s.dev p t w) (w.toNat % 8192) with preset := (t.acc.toNat : Int) }), (.lgLpv p, 0x1B, { slotIn (logicCtx s.dev p t w) (w.toNat % 8192) with preset := t.acc.toInt })])
    ∧ (opcodeOf w = e.2.1 ∧ (t.lb = true ∨ 0x1A ≤ e.2.1)) := by
  decide +kernel

/-- TimersAndEdgesKeepTheirSlots, trig. -/
theorem test_witness_TimersAndEdgesKeepTheirSlots_trig : let s : State := wLp wInst 0xEE00001F; let p : Nat := 0; let t : TInst := wInst;
    let w : W32 := 0xEE00001F; (p < 4) ∧ (nextInsn s.dev p = some (t, w)) ∧ (opcodeOf w = 0x3B ∧ t.lb = true) := by
  decide +kernel

/-- TimersAndEdgesKeepTheirSlots, end. -/
theorem test_witness_TimersAndEdgesKeepTheirSlots_end : let s : State := wLp wInst 0xF2000000; let p : Nat := 0; let t : TInst := wInst;
    let w : W32 := 0xF2000000; (p < 4) ∧ (nextInsn s.dev p = some (t, w)) ∧ (opcodeOf w = 0x3C) := by
  decide +kernel

/-- CountersCountRisingEdges, counters. -/
theorem test_witness_CountersCountRisingEdges_counters : let s : State := wLp { wInst with sl := [(8191, ⟨4, false, false, false, 0, 5, 32767⟩)] } 0x5A001FFF;
    let p : Nat := 0; let t : TInst := { wInst with sl := [(8191, ⟨4, false, false, false, 0, 5, 32767⟩)] }; let w : W32 := 0x5A001FFF;
    let e : Instr × Nat × Nat × Int × Bool := (.lgCtu 0, 0x16, 4, 32767, true); (p < 4) ∧ (nextInsn s.dev p = some (t, w))
    ∧ (e ∈ [(.lgCtu p, 0x16, 4, (if (t.lb && !(if (slotIn (logicCtx s.dev p t w) (w.toNat % 8192)).init then t.lb else (slotIn (logicCtx s.dev p t w) (w.toNat % 8192)).inp)) then min ((slotIn (logicCtx s.dev p t w) (w.toNat % 8192)).val + 1) 32767 else (slotIn (logicCtx s.dev p t w) (w.toNat % 8192)).val), decide ((slotIn (logicCtx s.dev p t w) (w.toNat % 8192)).preset ≤ (if (t.lb && !(if (slotIn (logicCtx s.dev p t w) (w.toNat % 8192)).init then t.lb else (slotIn (logicCtx s.dev p t w) (w.toNat % 8192)).inp)) then min ((slotIn (logicCtx s.dev p t w) (w.toNat % 8192)).val + 1) 32767 else (slotIn (logicCtx s.dev p t w) (w.toNat % 8192)).val))), (.lgCtd p, 0x17, 5, (if (t.lb && !(if (slotIn (logicCtx s.dev p t w) (w.toNat % 8192)).init then t.lb else (slotIn (logicCtx s.dev p t w) (w.toNat % 8192)).inp)) then max ((slotIn (logicCtx s.dev p t w) (w.toNat % 8192)).val - 1) (-32768) else (slotIn (logicCtx s.dev p t w) (w.toNat % 8192)).val), decide ((if (t.lb && !(if (slotIn (logicCtx s.dev p t w) (w.toNat % 8192)).init then t.lb else (slotIn (logicCtx s.dev p t w) (w.toNat % 8192)).inp)) then max ((slotIn (logicCtx s.dev p t w) (w.toNat % 8192)).val - 1) (-32768) else (slotIn (logicCtx s.dev p t w) (w.toNat % 8192)).val) ≤ 0))])
    ∧ (opcodeOf w = e.2.1 ∧ (slotIn (logicCtx s.dev p t w) (w.toNat % 8192)).kind = e.2.2.1)
    ∧ (-32768 ≤ (slotIn (logicCtx s.dev p t w) (w.toNat % 8192)).val ∧ (slotIn (logicCtx s.dev p t w) (w.toNat % 8192)).val ≤ 32767) := by
  decide +kernel

/-- ProcessorsLoadAndChangeTheirPrograms, load. -/
theorem test_witness_ProcessorsLoadAndChangeTheirPrograms_load : let s : State := State.reset; let p : Nat := 3; (p < 4)
    ∧ (admits s.dev (.lp p) 0x100 = true) ∧ ((lpOf s.dev p).st = .empty) := by
  decide +kernel

/-- ProcessorsLoadAndChangeTheirPrograms, stage. -/
theorem test_witness_ProcessorsLoadAndChangeTheirPrograms_stage : let s : State := wit (setLp r0 3 { lp0 with st := .running }); let p : Nat := 3;
    (p < 4) ∧ (admits s.dev (.lp p) 0x100 = true) ∧ (((lpOf s.dev p).st = .loaded ∨ (lpOf s.dev p).st = .running) ∧ (lpOf s.dev p).stage = .none) := by
  decide +kernel

/-- ProcessorsLoadAndChangeTheirPrograms, loadVerified. -/
theorem test_witness_ProcessorsLoadAndChangeTheirPrograms_loadVerified : let s : State := wit (setLp r0 3 { lp0 with st := .loading });
    let p : Nat := 3; (p < 4) ∧ ((lpOf s.dev p).st = .loading) := by
  decide +kernel

/-- ProcessorsLoadAndChangeTheirPrograms, stageVerified. -/
theorem test_witness_ProcessorsLoadAndChangeTheirPrograms_stageVerified : let s : State := wit (setLp r0 3 { lp0 with stage := .verifying });
    let p : Nat := 3; (p < 4) ∧ ((lpOf s.dev p).stage = .verifying) := by
  decide +kernel

/-- ProcessorsLoadAndChangeTheirPrograms, unload. -/
theorem test_witness_ProcessorsLoadAndChangeTheirPrograms_unload : let s : State := wit (setLp r0 3 { lp0 with st := .loaded }); let p : Nat := 3;
    (p < 4) ∧ (admits s.dev (.lp p) 0x100 = true) ∧ ((lpOf s.dev p).st = .loaded) := by
  decide +kernel

/-- ProcessorsLoadAndChangeTheirPrograms, unstage. -/
theorem test_witness_ProcessorsLoadAndChangeTheirPrograms_unstage : let s : State := wit (setLp r0 3 { lp0 with stage := .staged }); let p : Nat := 3;
    (p < 4) ∧ (admits s.dev (.lp p) 0x100 = true) ∧ ((lpOf s.dev p).stage = .staged) := by
  decide +kernel

/-- ProcessorsLoadAndChangeTheirPrograms, change. -/
theorem test_witness_ProcessorsLoadAndChangeTheirPrograms_change : let s : State := wit (setLp r0 3 { lp0 with stage := .staged, st := .running });
    let p : Nat := 3; let drop : Bool := true; (p < 4) ∧ (admits s.dev (.lp p) 0x100 = true) ∧ ((lpOf s.dev p).stage = .staged
    ∧ ((lpOf s.dev p).st = .loaded ∨ (lpOf s.dev p).st = .running)) := by
  decide +kernel

/-- ProcessorsLoadAndChangeTheirPrograms, cancel. -/
theorem test_witness_ProcessorsLoadAndChangeTheirPrograms_cancel : let s : State := wit (setLp r0 3 { lp0 with stage := .pending }); let p : Nat := 3;
    (p < 4) ∧ (admits s.dev (.lp p) 0x100 = true) ∧ ((lpOf s.dev p).stage = .pending) := by
  decide +kernel

/-- ProcessorsLoadAndChangeTheirPrograms, trigger. -/
theorem test_witness_ProcessorsLoadAndChangeTheirPrograms_trigger : let s : State := wit (wr (setLp r0 3 { lp0 with st := .running, prog := { noProg with tasks := [{ wTask with event := true, k := 15 }] } }) (LP_EVT_TRIG 3) 0x80);
    let p : Nat := 3; (p < 4) ∧ (admits s.dev (.lp p) 0x100 = true) ∧ (((List.range 8).filter (fun e => rdBit s.dev (LP_EVT_TRIG p) e)).all (triggerKnown s.dev p) = true) := by
  decide +kernel

/-- ProcessorsLoadAndChangeTheirPrograms, changeDeferred. -/
theorem test_witness_ProcessorsLoadAndChangeTheirPrograms_changeDeferred : let s : State := wit (setLp r0 3 { lp0 with stage := .pending, st := .running, insts := [wInst] });
    let p : Nat := 3; (p < 4) ∧ ((lpOf s.dev p).stage = .pending ∧ ((lpOf s.dev p).st = .loaded ∨ (lpOf s.dev p).st = .running)
    ∧ (lpOf s.dev p).chgAt ≤ bp s.dev) ∧ ((lpOf s.dev p).insts ≠ []) := by
  decide +kernel

/-- ProcessorsLoadAndChangeTheirPrograms, changeRefused. -/
theorem test_witness_ProcessorsLoadAndChangeTheirPrograms_changeRefused : let s : State := wit (setLp r0 3 { lp0 with stage := .pending, st := .running, forces := [(7, 1)] });
    let p : Nat := 3; (p < 4) ∧ ((lpOf s.dev p).stage = .pending ∧ ((lpOf s.dev p).st = .loaded ∨ (lpOf s.dev p).st = .running)
    ∧ (lpOf s.dev p).chgAt ≤ bp s.dev) ∧ ((lpOf s.dev p).insts = [] ∧ (((lpOf s.dev p).forces.any (dropped (lpOf s.dev p)) = true
    ∧ (lpOf s.dev p).chgDrop = false) ∨ (lpOf s.dev p).next.outs.any (fun o => sigTaken s.dev o.n clsLp p) = true)) := by
  decide +kernel

/-- ProcessorsLoadAndChangeTheirPrograms, changed. -/
theorem test_witness_ProcessorsLoadAndChangeTheirPrograms_changed : let s : State := wit (setLp r0 3 { lp0 with stage := .pending, st := .running, forces := [(7, 1)], chgDrop := true });
    let p : Nat := 3; (p < 4) ∧ ((lpOf s.dev p).stage = .pending ∧ ((lpOf s.dev p).st = .loaded ∨ (lpOf s.dev p).st = .running)
    ∧ (lpOf s.dev p).chgAt ≤ bp s.dev) ∧ ((lpOf s.dev p).insts = [] ∧ ((lpOf s.dev p).forces.any (dropped (lpOf s.dev p)) = false
    ∨ (lpOf s.dev p).chgDrop = true)) ∧ ((lpOf s.dev p).next.outs.any (fun o => sigTaken s.dev o.n clsLp p) = false) := by
  decide +kernel

/-- ForcesHoldSymbols, set. -/
theorem test_witness_ForcesHoldSymbols_set : let s : State := wit (setLp r0 3 { lp0 with st := .running, prog := { noProg with syms := [⟨0, 0, 0, false⟩] } });
    let p : Nat := 3; let y : LSym := ⟨0, 0, 0, false⟩; (p < 4) ∧ (admits s.dev (.lp p) 0x144 = true) ∧ (frcState (lpOf s.dev p) = false)
    ∧ (symOf (lpOf s.dev p).prog (rdN s.dev (LP_FRC_SYM p)) = some y) := by
  decide +kernel

/-- ForcesHoldSymbols, remove. -/
theorem test_witness_ForcesHoldSymbols_remove : let s : State := wit (setLp r0 3 { lp0 with st := .running, forces := [(0, 1), (5, 1)], prog := { noProg with syms := [⟨0, 0, 0, false⟩] } });
    let p : Nat := 3; let f : Nat × Nat := (0, 1); (p < 4) ∧ (admits s.dev (.lp p) 0x144 = true) ∧ (frcState (lpOf s.dev p) = false
    ∧ (symOf (lpOf s.dev p).prog (rdN s.dev (LP_FRC_SYM p))).isSome = true)
    ∧ ((lpOf s.dev p).forces.find? (fun f => f.1 == rdN s.dev (LP_FRC_SYM p)) = some f) := by
  decide +kernel

/-- ForcesHoldSymbols, clearAll. -/
theorem test_witness_ForcesHoldSymbols_clearAll : let s : State := wit (setLp r0 3 { lp0 with st := .running, forces := [(0, 1), (5, 1)] });
    let p : Nat := 3; (p < 4) ∧ (admits s.dev (.lp p) 0x144 = true) ∧ (frcState (lpOf s.dev p) = false) := by
  decide +kernel

/-- ForcesHoldSymbols, noProgram. -/
theorem test_witness_ForcesHoldSymbols_noProgram : let s : State := State.reset; let p : Nat := 3; let c : Instr := .forceSet 3; (p < 4)
    ∧ (admits s.dev (.lp p) 0x144 = true) ∧ (frcState (lpOf s.dev p) = true) ∧ (c ∈ [.forceSet p, .forceRemove p, .forceClearAll p]) := by
  decide +kernel

/-- TasksReleaseAndCommit, release. -/
theorem test_witness_TasksReleaseAndCommit_release : let s : State := wit (setLp r0 3 { lp0 with st := .running, prog := { noProg with tasks := [wTask] } });
    let p : Nat := 3; let k : Nat := 0; let t : LTask := wTask; (p < 4 ∧ k < 16) ∧ (taskOf (lpOf s.dev p) k = some t ∧ t.k = k)
    ∧ ((lpOf s.dev p).st = .running ∧ instOf (lpOf s.dev p) k = none)
    ∧ ((if t.event then (keepOf (lpOf s.dev p) k).pend else dueAt (bp s.dev) t.span 0) = true) := by
  decide +kernel

/-- TasksReleaseAndCommit, deadline. -/
theorem test_witness_TasksReleaseAndCommit_deadline : let s : State := wit (setLp r0 3 { lp0 with st := .running, insts := [{ wInst with ended := true, dead := 0 }] });
    let p : Nat := 3; let k : Nat := 0; let u : TInst := { wInst with ended := true, dead := 0 }; (p < 4 ∧ k < 16) ∧ (instOf (lpOf s.dev p) k = some u
    ∧ u.k = k) ∧ ((lpOf s.dev p).st = .running ∧ u.dead ≤ bp s.dev ∧ u.ended = true) := by
  decide +kernel

/-- TasksReleaseAndCommit, overrun. -/
theorem test_witness_TasksReleaseAndCommit_overrun : let s : State := wit (setLp r0 3 { lp0 with st := .running, insts := [{ wInst with dead := 0 }] });
    let p : Nat := 3; let k : Nat := 0; let u : TInst := { wInst with dead := 0 }; (p < 4 ∧ k < 16) ∧ (instOf (lpOf s.dev p) k = some u ∧ u.k = k)
    ∧ ((lpOf s.dev p).st = .running ∧ u.dead ≤ bp s.dev ∧ u.ended = false) := by
  decide +kernel

/-- TasksReleaseAndCommit, memoryUe. -/
theorem test_witness_TasksReleaseAndCommit_memoryUe : let s : State := State.reset; let p : Nat := 3; let off : Nat := 0x3FFFFF; (p < 4)
    ∧ ((lpOf s.dev p).st ≠ .quarantined) := by
  decide +kernel

/-- TasksReleaseAndCommit, varWrite. -/
theorem test_witness_TasksReleaseAndCommit_varWrite : let s : State := State.reset; let p : Nat := 3; let off : Nat := 0x1FFC; let val : W32 := 5; ((p < 4 ∧ off < 0x400000 ∧ off % 4 = 0)) ∧ ((windowsOn s.dev = true ∧ pairEn s.dev = false ∧ s.dev.cfgq = [])) ∧ ((lpOf s.dev p).forces = []) := by
  decide +kernel

/-- SafetyCyclesLatchCompareAndSwitch, cycle. -/
theorem test_witness_SafetyCyclesLatchCompareAndSwitch_cycle : let s : State := State.reset; let opens : Nat := 0; let shorts : Nat := 0; ((bp s.dev % 100 = 0 ∨ s.dev.sf.a.alone = true ∨ s.dev.sf.b.alone = true)) ∧ (sfReplays s.dev = false) ∧ (s.dev.sf.cmds = []) ∧ (s.dev.sf.confirmed = false) := by
  decide +kernel

/-- SafetyCyclesLatchCompareAndSwitch, cycleOff. -/
theorem test_witness_SafetyCyclesLatchCompareAndSwitch_cycleOff : let s : State := State.reset; let opens : Nat := 0; let shorts : Nat := 0xFFFF; ((bp s.dev % 100 = 0 ∨ s.dev.sf.a.alone = true ∨ s.dev.sf.b.alone = true)) ∧ (sfReplays s.dev = false) ∧ (s.dev.sf.cmds = []) ∧ (s.dev.sf.confirmed = false) ∧ ((s.dev.sf.mode = .lockout ∨ s.dev.role = .syncing ∨ s.dev.sf.table = none)) := by
  decide +kernel

/-- SafetyCyclesLatchCompareAndSwitch, status. -/
theorem test_witness_SafetyCyclesLatchCompareAndSwitch_status : let s : State := wit (wr64 (setSf r0 { r0.sf with table := some default }) BP_CNT 70);
    let t : SfTable := default; (s.dev.sf.table = some t) ∧ (bp s.dev % 100 = 70) ∧ (sfReplays s.dev = false) := by
  decide +kernel

/-- SafetyCyclesLatchCompareAndSwitch, contact. -/
theorem test_witness_SafetyCyclesLatchCompareAndSwitch_contact : let s : State := State.reset; let i : Nat := 15; let second : Bool := true; let seen : Nat := 3; let lvl : Bool := true; let smp : Nat := 99; ((i < 16 ∧ seen < 4 ∧ smp < 100)) := by
  decide +kernel

/-- SafetyCyclesLatchCompareAndSwitch, discrepancy. -/
theorem test_witness_SafetyCyclesLatchCompareAndSwitch_discrepancy : let s : State := wit (wrBit (setSf r0 { r0.sf with pairs := lset r0.sf.pairs 0 { (default : SfPs) with disc := some 9 }, table := some { (default : SfTable) with pairs := [{ (default : SfPair) with mode := 1 }] } }) SIO_IN_A 0 true);
    let i : Nat := 0; let t : Nat := 9; (i < 16) ∧ (followsPair s.dev = false) ∧ ((pairS s.dev i).disc = some t) ∧ (((sfPairOf s.dev i).mode ≠ 0 ∧ pairOn s.dev i = false ∧ pairOff s.dev i = false ∧ (sfPairOf s.dev i).disc < t + 1)) := by
  decide +kernel

/-- SafetyCyclesLatchCompareAndSwitch, jam. -/
theorem test_witness_SafetyCyclesLatchCompareAndSwitch_jam : let s : State := wit (wr64 (setSf r0 { r0.sf with pairs := lset r0.sf.pairs 0 { (default : SfPs) with now := true }, table := some { (default : SfTable) with pairs := [{ (default : SfPair) with mode := 3 }] } }) (SF_CYC 0) 5000); let i : Nat := 0; (i < 16) ∧ (followsPair s.dev = false) ∧ (((sfPairOf s.dev i).mode = 3 ∧ (pairS s.dev i).now = true ∧ rdBit s.dev SIO_DISC i = false ∧ (pairS s.dev i).onAt + 500000 ≤ sfTime s.dev 100 ∧ rdBit s.dev SIO_JAM i = false)) := by
  decide +kernel

/-- SafetyCyclesLatchCompareAndSwitch, outputs. -/
theorem test_witness_SafetyCyclesLatchCompareAndSwitch_outputs : let s : State := State.reset; let o : Nat := 7; let sw : Nat := 1; (o < 8 ∧ sw < 2)
    ∧ (rdBit s.dev SIO_SO_CMD (8 * sw + o) = false ∧ rdBit s.dev SIO_SO_LOCK o = false) := by
  decide +kernel

/-- SafetyCyclesLatchCompareAndSwitch, dark. -/
theorem test_witness_SafetyCyclesLatchCompareAndSwitch_dark : let s : State := wit (wrN (setSf r0 { r0.sf with table := some { (default : SfTable) with outs := [{ (default : SfOut) with dark := true }] } }) SIO_SO_RB 0x101);
    let o : Nat := 0; let sw : Nat := 0; let t : SfTable := { (default : SfTable) with outs := [{ (default : SfOut) with dark := true }] }; (o < 8
    ∧ sw < 2) ∧ (s.dev.sf.table = some t ∧ (nth t.outs o default).dark = true ∧ rdBit s.dev SIO_SO_RB o = true ∧ rdBit s.dev SIO_SO_RB (8 + o) = true
    ∧ sfCyc s.dev % 10000 = 5000 * sw) ∧ (rdBit s.dev SIO_SO_LOCK o = false) := by
  decide +kernel

/-- SafetyCyclesLatchCompareAndSwitch, darkOpened. -/
theorem test_witness_SafetyCyclesLatchCompareAndSwitch_darkOpened : let s : State := State.reset; let o : Nat := 0; let sw : Nat := 0; (o < 8
    ∧ sw < 2) := by
  decide +kernel

/-- SafetyCyclesLatchCompareAndSwitch, delayEnd. -/
theorem test_witness_SafetyCyclesLatchCompareAndSwitch_delayEnd : let s : State := wit (setSf r0 { r0.sf with a := { r0.sf.a with insts := [{ (default : SfIs) with st := .delay }] }, b := { r0.sf.b with insts := [{ (default : SfIs) with st := .delay }] }, table := some { (default : SfTable) with insts := [default] } });
    let k : Nat := 0; let t : SfTable := { (default : SfTable) with insts := [default] }; ((k < 64 ∧ s.dev.sf.table = some t ∧ k < t.insts.length)) ∧ ((s.dev.sf.mode ≠ .lockout ∧ sfReplays s.dev = false)) ∧ ((∀ f < 2, k < (chanOf s.dev f).insts.length ∧ (nth (chanOf s.dev f).insts k default).st = .delay ∧ (nth (chanOf s.dev f).insts k default).moved = false ∧ (nth t.insts k default).delay ≤ (nth (chanOf s.dev f).insts k default).timer + 1)) := by
  decide +kernel

/-- SafetyCyclesLatchCompareAndSwitch, muting. -/
theorem test_witness_SafetyCyclesLatchCompareAndSwitch_muting : let s : State := wit (setSf r0 { r0.sf with a := { r0.sf.a with insts := [default] }, b := { r0.sf.b with insts := [default] }, table := some { (default : SfTable) with insts := [{ (default : SfInst) with typ := 6 }] } });
    let k : Nat := 0; let t : SfTable := { (default : SfTable) with insts := [{ (default : SfInst) with typ := 6 }] }; ((k < 64 ∧ s.dev.sf.table = some t ∧ k < t.insts.length)) ∧ ((s.dev.sf.mode ≠ .lockout ∧ sfReplays s.dev = false)) ∧ ((∀ f < 2, k < (chanOf s.dev f).insts.length)) := by
  decide +kernel

/-- SafetyCyclesLatchCompareAndSwitch, lockAux. -/
theorem test_witness_SafetyCyclesLatchCompareAndSwitch_lockAux : let s : State := wit (setSf r0 { r0.sf with mode := .active, a := { r0.sf.a with insts := [{ (default : SfIs) with aux := some 0 }] }, b := { r0.sf.b with insts := [{ (default : SfIs) with aux := some 0 }] }, table := some { (default : SfTable) with insts := [{ (default : SfInst) with typ := 5 }] } });
    let k : Nat := 0; let t : SfTable := { (default : SfTable) with insts := [{ (default : SfInst) with typ := 5 }] }; ((k < 64 ∧ s.dev.sf.table = some t ∧ k < t.insts.length)) ∧ ((s.dev.sf.mode ≠ .lockout ∧ sfReplays s.dev = false)) ∧ (((nth t.insts k default).typ = 5 ∧ ∀ f < 2, k < (chanOf s.dev f).insts.length ∧ ∃ n, (nth (chanOf s.dev f).insts k default).aux = some n ∧ (nth t.insts k default).param ≤ n + 1)) := by
  refine ⟨by decide +kernel, by decide +kernel, by decide +kernel, fun f hf => ?_⟩
  match f, hf with
  | 0, _ => exact ⟨by decide +kernel, 0, rfl, by decide +kernel⟩
  | 1, _ => exact ⟨by decide +kernel, 0, rfl, by decide +kernel⟩

/-- SafetyCyclesLatchCompareAndSwitch, selfTest. -/
theorem test_witness_SafetyCyclesLatchCompareAndSwitch_selfTest : let s : State := State.reset; let ch : Nat := 1; (ch < 2
    ∧ s.dev.sf.mode ≠ .lockout) := by
  decide +kernel

/-- SafetyCyclesLatchCompareAndSwitch, clock. -/
theorem test_witness_SafetyCyclesLatchCompareAndSwitch_clock : let s : State := State.reset; let ch : Nat := 1; let covered : Bool := true; (ch < 2
    ∧ s.dev.sf.mode ≠ .lockout) := by
  decide +kernel

/-- SafeConnectionsFollowTheirFrames, frame. -/
theorem test_witness_SafeConnectionsFollowTheirFrames_frame : let s : State := State.reset; let net : Nat := 1; let bs : List W8 := []; (net < 2
    ∧ s.dev.sf.conns.length = 32) := by
  decide +kernel

/-- SafeConnectionsFollowTheirFrames, watchdog. -/
theorem test_witness_SafeConnectionsFollowTheirFrames_watchdog : let s : State := wit (setConn r0 31 { (default : SfConn) with st := .ok, ageA := 100, ageB := 99 });
    let c : Nat := 31; ((c < 32 ∧ c < s.dev.sf.conns.length)) ∧ (followsPair s.dev = false) ∧ ((((connOf s.dev c).st = .ok ∨ (connOf s.dev c).st = .degraded) ∧ (sfConsOf s.dev c).wd ≤ min (connOf s.dev c).ageA (connOf s.dev c).ageB)) := by
  decide +kernel

/-- SafeConnectionsFollowTheirFrames, missing. -/
theorem test_witness_SafeConnectionsFollowTheirFrames_missing : let s : State := wit (setConn r0 31 { (default : SfConn) with st := .ok, ageA := 100, ageB := 99 });
    let c : Nat := 31; ((c < 32 ∧ c < s.dev.sf.conns.length)) ∧ (followsPair s.dev = false) ∧ (((connOf s.dev c).st = .ok ∧ 3 * (sfConsOf s.dev c).period ≤ max (connOf s.dev c).ageA (connOf s.dev c).ageB)) := by
  decide +kernel

/-- SafeConnectionsFollowTheirFrames, tolerance. -/
theorem test_witness_SafeConnectionsFollowTheirFrames_tolerance : let s : State := wit (setConn r0 31 { (default : SfConn) with st := .degraded });
    let c : Nat := 31; ((c < 32 ∧ c < s.dev.sf.conns.length)) ∧ (followsPair s.dev = false) ∧ (((connOf s.dev c).st = .degraded ∧ 1000 * (sfConsOf s.dev c).tol < (connOf s.dev c).tol + 1)) := by
  decide +kernel

/-- SafeConnectionsFollowTheirFrames, image. -/
theorem test_witness_SafeConnectionsFollowTheirFrames_image : let s : State := wit (setTw (wrN { r0 with role := .standby } TW_CFG 1) { r0.tw with up1 := true }); let h : TwHead := ⟨1, 4, true⟩; let n : Nat := 0; let f : Nat := 1; let img : SfImg := default; let good : Bool := true; ((f < 2 ∧ h.lane < 2)) ∧ (Arrives s.dev h) ∧ (s.dev.role = .standby) := by
  exact ⟨by decide, ⟨by decide +kernel, rfl, rfl, fun c hc => nomatch hc⟩, rfl⟩

/-- SafetyTablesArePutInForce, nop. -/
theorem test_witness_SafetyTablesArePutInForce_nop : let s : State := State.reset; (admits s.dev .sfa 0x104 = true) := by
  decide +kernel

/-- SafetyTablesArePutInForce, unlock. -/
theorem test_witness_SafetyTablesArePutInForce_unlock : let s : State := State.reset; (admits s.dev .sfa 0x104 = true)
    ∧ (s.dev.sf.failAt + pwWait s.dev ≤ sfCyc s.dev) := by
  decide +kernel

/-- SafetyTablesArePutInForce, unlockWaits. -/
theorem test_witness_SafetyTablesArePutInForce_unlockWaits : let s : State := wit (setSf r0 { r0.sf with fails := 5 });
    (admits s.dev .sfa 0x104 = true) ∧ (sfCyc s.dev < s.dev.sf.failAt + pwWait s.dev) := by
  decide +kernel

/-- SafetyTablesArePutInForce, lock. -/
theorem test_witness_SafetyTablesArePutInForce_lock : let s : State := State.reset; (admits s.dev .sfa 0x104 = true) := by
  decide +kernel

/-- SafetyTablesArePutInForce, load. -/
theorem test_witness_SafetyTablesArePutInForce_load : let s : State := wit (setSf r0 { r0.sf with unlocked := true }); (admits s.dev .sfa 0x104 = true)
    ∧ (s.dev.sf.unlocked = true ∧ (s.dev.sf.mode = .unconfigured ∨ s.dev.sf.mode = .active)) := by
  decide +kernel

/-- SafetyTablesArePutInForce, confirm. -/
theorem test_witness_SafetyTablesArePutInForce_confirm : let s : State := wit (setSf r0 { r0.sf with unlocked := true, mode := .pending, pend := some default }); let t : SfTable := default; let r : Nat := 0; (admits s.dev .sfa 0x104 = true) ∧ ((s.dev.sf.unlocked = true ∧ s.dev.sf.mode = .pending ∧ s.dev.sf.confirmed = false ∧ s.dev.sf.pend = some t)) ∧ (r = (if rdN s.dev (SF_CONFIRM 0) ≠ t.crc then 0x0B else if (rd s.dev SIO_SO_CMD != 0 || s.dev.sf.a.insts.any (fun s => s.st == .run || s.st == .delay)) = true then 0x0A else if sfTaken s.dev t = true then 0x0E else 0)) := by
  decide +kernel

/-- SafetyTablesArePutInForce, discard. -/
theorem test_witness_SafetyTablesArePutInForce_discard : let s : State := wit (setSf r0 { r0.sf with unlocked := true, mode := .pending }); (admits s.dev .sfa 0x104 = true) ∧ ((s.dev.sf.unlocked = true ∧ s.dev.sf.mode = .pending ∧ s.dev.sf.confirmed = false)) := by
  decide +kernel

/-- SafetyTablesArePutInForce, setPassword. -/
theorem test_witness_SafetyTablesArePutInForce_setPassword : let s : State := wit (setSf r0 { r0.sf with unlocked := true });
    (admits s.dev .sfa 0x104 = true) ∧ (s.dev.sf.unlocked = true) := by
  decide +kernel

/-- SafetyTablesArePutInForce, refused. -/
theorem test_witness_SafetyTablesArePutInForce_refused : let s : State := State.reset; let c : Instr := .sfLoad; (admits s.dev .sfa 0x104 = true)
    ∧ (s.dev.sf.unlocked = false) ∧ (c ∈ [.sfLoad, .sfConfirm, .sfDiscard, .sfSetPw]) := by
  decide +kernel

/-- SafetyTablesArePutInForce, confirmTimeout. -/
theorem test_witness_SafetyTablesArePutInForce_confirmTimeout : let s : State := wit (wr64 (setSf r0 { r0.sf with mode := .pending }) (SF_CYC 0) 600000); ((s.dev.sf.mode = .pending ∧ s.dev.sf.confirmed = false ∧ s.dev.sf.pendAt + 600000 ≤ sfCyc s.dev)) := by
  decide +kernel

/-- SafetyTablesArePutInForce, unlockTimeout. -/
theorem test_witness_SafetyTablesArePutInForce_unlockTimeout : let s : State := wit (wr64 (setSf r0 { r0.sf with unlocked := true }) (SF_CYC 0) 900000);
    (s.dev.sf.cfgAt + 900000 ≤ sfCyc s.dev) := by
  decide +kernel

/-- BasePeriodMovesOnAndCommits, runs. -/
theorem test_witness_BasePeriodMovesOnAndCommits_runs : let s : State := wit { r0 with power := { r0.power with phase := .on }, hostq := [(3, 5)], stage1 := [⟨4, 7, false⟩] }; let env : BpEnv := ⟨[], [], [], [], []⟩; ((quiet s.dev = true ∧ env.enc = [] ∧ env.tiles = [] ∧ env.lanes = [])) := by
  decide +kernel

/-- BasePeriodMovesOnAndCommits, stands. -/
theorem test_witness_BasePeriodMovesOnAndCommits_stands : let s : State := wit { r0 with power := { r0.power with phase := .boot } }; let env : BpEnv := ⟨[], [], [], [], []⟩; (clocked s.dev = false) := by
  decide +kernel

/-- TwinFramesTakeEffect, kept. -/
theorem test_witness_TwinFramesTakeEffect_kept : let s : State := wit (setTw (wrN { r0 with role := .syncing } TW_CFG 1) { r0.tw with up1 := true }); let h : TwHead := ⟨1, 4, true⟩; let n : Nat := 9; let tt : Nat := 0; let first : Nat := 3; let seg : Nat := 15; let k : Nat := 31; let vals : List (W32 × Bool) := [(1, true)]; let ws : List (Nat × W32) := []; let bs : List W8 := [7]; let c : Instr := .plialeFrameReceive ⟨h, n⟩ seg k bs; let f : TwFrame := .pliale n seg k bs; ((h.lane < 2 ∧ seg < 16 ∧ k < 32)) ∧ (Arrives s.dev h) ∧ ((follows s.dev = true ∧ (onGrid s.dev = true → bp s.dev < n) ∧ s.dev.tw.frames.contains f = false)) ∧ ((s.dev.role = .syncing → ∀ g ∈ s.dev.tw.frames, n < frameBp g + 10000)) ∧ (((c, f) ∈ [(.inputFrameReceive ⟨h, n⟩ tt vals, .input n tt vals), (.writesFrameReceive ⟨h, n⟩ first ws, .writes n first ws)] ∨ (s.dev.role = .syncing ∧ (c, f) = (.plialeFrameReceive ⟨h, n⟩ seg k bs, .pliale n seg k bs)))) := by
  refine ⟨by decide +kernel, ⟨by decide +kernel, by decide +kernel, rfl, fun c h => by cases h⟩, by decide +kernel, ?_, Or.inr ⟨rfl, rfl⟩⟩; intro _ g hg; exact nomatch (show g ∈ ([] : List TwFrame) from hg)

/-- TwinFramesTakeEffect, kept. -/
theorem test_witness_TwinFramesTakeEffect_kept2 : let s : State := wit (setTw (wrN { r0 with role := .standby } TW_CFG 1) { r0.tw with up0 := true, ctr0 := some 3 }); let h : TwHead := ⟨0, 4, true⟩; let n : Nat := 1; let tt : Nat := 0; let first : Nat := 3; let seg : Nat := 0; let k : Nat := 0; let vals : List (W32 × Bool) := [(1, true)]; let ws : List (Nat × W32) := []; let bs : List W8 := [7]; let c : Instr := .writesFrameReceive ⟨h, n⟩ first ws; let f : TwFrame := .writes n first ws; ((h.lane < 2 ∧ seg < 16 ∧ k < 32)) ∧ (Arrives s.dev h) ∧ ((follows s.dev = true ∧ (onGrid s.dev = true → bp s.dev < n) ∧ s.dev.tw.frames.contains f = false)) ∧ ((s.dev.role = .syncing → ∀ g ∈ s.dev.tw.frames, n < frameBp g + 10000)) ∧ (((c, f) ∈ [(.inputFrameReceive ⟨h, n⟩ tt vals, .input n tt vals), (.writesFrameReceive ⟨h, n⟩ first ws, .writes n first ws)] ∨ (s.dev.role = .syncing ∧ (c, f) = (.plialeFrameReceive ⟨h, n⟩ seg k bs, .pliale n seg k bs)))) := by
  refine ⟨by decide +kernel, ⟨by decide +kernel, by decide +kernel, rfl, fun c h => by cases h; decide⟩, by decide +kernel, ?_, Or.inl (by simp)⟩; intro _ g hg; exact nomatch (show g ∈ ([] : List TwFrame) from hg)

/-- TwinFramesTakeEffect, reply. -/
theorem test_witness_TwinFramesTakeEffect_reply : let s : State := wit (setPl (setTw (wrN { r0 with role := .standby } TW_CFG 1) { r0.tw with up1 := true }) 15 { pl0 with slots := List.replicate 32 sl0 }); let h : TwHead := ⟨1, 0, true⟩; let n : Nat := 9; let seg : Nat := 15; let k : Nat := 31; let bs : List W8 := [7]; ((h.lane < 2 ∧ seg < 16 ∧ k < 32)) ∧ (Arrives s.dev h) ∧ ((s.dev.role = .standby ∧ k < (plOf s.dev seg).slots.length)) := by
  refine ⟨by decide +kernel, ⟨by decide +kernel, by decide +kernel, rfl, fun c h => by cases h⟩, by decide +kernel⟩

/-- TwinFramesTakeEffect, digestWaits. -/
theorem test_witness_TwinFramesTakeEffect_digestWaits : let s : State := wit (setTw (wrN { r0 with role := .standby } TW_CFG 1) { r0.tw with up0 := true, own := [(4, 9)] }); let h : TwHead := ⟨0, 4, true⟩; let e : Nat := 5; let g : Nat := 9; (h.lane < 2) ∧ (Arrives s.dev h) ∧ (digestAt s.dev.tw.own e = none) := by
  refine ⟨by decide +kernel, ⟨by decide +kernel, by decide +kernel, rfl, fun c h => by cases h⟩, by decide +kernel⟩

/-- TwinFramesTakeEffect, digestEqual. -/
theorem test_witness_TwinFramesTakeEffect_digestEqual : let s : State := wit (setTw (wrN { r0 with role := .standby } TW_CFG 1) { r0.tw with up0 := true, own := [(4, 9)], matches_ := 255 }); let h : TwHead := ⟨0, 4, true⟩; let e : Nat := 4; let g : Nat := 9; (h.lane < 2) ∧ (Arrives s.dev h) ∧ (digestAt s.dev.tw.own e = some (g % 2 ^ 64)) := by
  refine ⟨by decide +kernel, ⟨by decide +kernel, by decide +kernel, rfl, fun c h => by cases h⟩, by decide +kernel⟩

/-- TwinFramesTakeEffect, digestDiffers. -/
theorem test_witness_TwinFramesTakeEffect_digestDiffers : let s : State := wit (setTw (wrN { r0 with role := .standby } TW_CFG 1) { r0.tw with up0 := true, own := [(4, 9)] }); let h : TwHead := ⟨0, 4, true⟩; let e : Nat := 4; let g : Nat := 8; let o : Nat := 9; (h.lane < 2) ∧ (Arrives s.dev h) ∧ ((digestAt s.dev.tw.own e = some o ∧ o ≠ g % 2 ^ 64)) := by
  refine ⟨by decide +kernel, ⟨by decide +kernel, by decide +kernel, rfl, fun c h => by cases h⟩, by decide +kernel⟩

/-- TwinFramesTakeEffect, syncRequest. -/
theorem test_witness_TwinFramesTakeEffect_syncRequest : let s : State := wit (setTw (wrN r0 TW_CFG 1) { r0.tw with up0 := true }); let h : TwHead := ⟨0, 4, true⟩; (h.lane < 2) ∧ (Arrives s.dev h) ∧ (authoritative s.dev = true) := by
  refine ⟨by decide +kernel, ⟨by decide +kernel, by decide +kernel, rfl, fun c h => by cases h⟩, by decide +kernel⟩

/-- TwinFramesTakeEffect, returnAsked. -/
theorem test_witness_TwinFramesTakeEffect_returnAsked : let s : State := wit (setTw (wrN { r0 with role := .authority } TW_CFG 1) { r0.tw with up1 := true, wireA := true, wireB := true }); let h : TwHead := ⟨1, 4, true⟩; (h.lane < 2) ∧ (Arrives s.dev h) ∧ ((s.dev.role = .authority ∧ s.dev.tw.handover = none ∧ integOk s.dev = true)) := by
  refine ⟨by decide +kernel, ⟨by decide +kernel, by decide +kernel, rfl, fun c h => by cases h⟩, by decide +kernel⟩

/-- TwinFramesTakeEffect, offered. -/
theorem test_witness_TwinFramesTakeEffect_offered : let s : State := wit (setTw (wrN { r0 with role := .standby } TW_CFG 1) { r0.tw with up0 := true }); let h : TwHead := ⟨0, 4, true⟩; (h.lane < 2) ∧ (Arrives s.dev h) ∧ (s.dev.role = .standby) := by
  refine ⟨by decide +kernel, ⟨by decide +kernel, by decide +kernel, rfl, fun c h => by cases h⟩, by decide +kernel⟩

/-- TwinFramesTakeEffect, loadImage. -/
theorem test_witness_TwinFramesTakeEffect_loadImage : let s : State := wit (setLane (setTw (wrN { r0 with role := .standby } TW_CFG 1) { r0.tw with up0 := true }) 15 { lane0 with st := .loading }); let h : TwHead := ⟨0, 4, true⟩; let l : Nat := 15; let bank : Nat := 1; let typ : Nat := 7; let bs : List W8 := []; ((h.lane < 2 ∧ l < 16 ∧ bank < 2 ∧ typ < 8)) ∧ (Arrives s.dev h) ∧ ((followsPair s.dev = true ∧ (laneOf s.dev l).st = .loading)) := by
  refine ⟨by decide +kernel, ⟨by decide +kernel, by decide +kernel, rfl, fun c h => by cases h⟩, by decide +kernel⟩

/-- TwinFramesTakeEffect, syncImage. -/
theorem test_witness_TwinFramesTakeEffect_syncImage : let s : State := wit (setTw (wrN { r0 with role := .syncing } TW_CFG 1) { r0.tw with up0 := true, phase := 2 }); let h : TwHead := ⟨0, 4, true⟩; let p : Page := .lp 3; let bank : Nat := 1; let typ : Nat := 7; let bs : List W8 := []; ((h.lane < 2 ∧ pageOk p = true ∧ bank < 2 ∧ typ < 8)) ∧ (Arrives s.dev h) ∧ ((s.dev.role = .syncing ∧ s.dev.tw.baseOk = false ∧ (s.dev.tw.phase = 1 ∨ s.dev.tw.phase = 2))) := by
  refine ⟨by decide +kernel, ⟨by decide +kernel, by decide +kernel, rfl, fun c h => by cases h⟩, by decide +kernel⟩

/-- TwinFramesTakeEffect, baseChunk. -/
theorem test_witness_TwinFramesTakeEffect_baseChunk : let s : State := wit (setTw (wrN { r0 with role := .syncing } TW_CFG 1) { r0.tw with up0 := true, phase := 1, fails := 2, chunkFails := [4, 4] }); let h : TwHead := ⟨0, 4, true⟩; let k : Nat := 4; let ok : Bool := false; (h.lane < 2) ∧ (Arrives s.dev h) ∧ ((s.dev.role = .syncing ∧ s.dev.tw.halt = false ∧ (s.dev.tw.phase = 1 ∨ s.dev.tw.phase = 2))) := by
  refine ⟨by decide +kernel, ⟨by decide +kernel, by decide +kernel, rfl, fun c h => by cases h⟩, by decide +kernel⟩

/-- TwinFramesTakeEffect, base. -/
theorem test_witness_TwinFramesTakeEffect_base : let s : State := wit (setTw (wrN { { r0 with role := .syncing } with power := { r0.power with phase := .on } } TW_CFG 1) { r0.tw with up0 := true, phase := 2 }); let e : Nat := 10000; let b : Snap := default; ((follows s.dev = true ∧ s.dev.role = .syncing ∧ s.dev.tw.halt = false ∧ s.dev.tw.phase = 2 ∧ s.dev.tw.baseOk = false ∧ s.dev.power.phase = .on)) := by
  decide +kernel

/-- TwinFramesTakeEffect, time. -/
theorem test_witness_TwinFramesTakeEffect_time : let s : State := wit (setTw (wrN { r0 with role := .standby } TW_CFG 1) { r0.tw with up0 := true }); let h : TwHead := ⟨0, 4, true⟩; let n : Nat := 0; let ns : Nat := 1001; let fr : Nat := 1; let trim : W32 := 7; let u : Int := 1001 * 16777216 + 1; ((h.lane < 2 ∧ n = bp s.dev)) ∧ (Arrives s.dev h) ∧ (pairFollow s.dev = true) ∧ (u = ((ns * 2 ^ 24 + fr % 2 ^ 24 : Nat) : Int) - (s.dev.tt * 2 ^ 24 + s.dev.ttFrac : Nat)) := by
  refine ⟨by decide +kernel, ⟨by decide +kernel, by decide +kernel, rfl, fun c h => by cases h⟩, by decide +kernel, by decide +kernel⟩

/-- TwinFramesTakeEffect, beat. -/
theorem test_witness_TwinFramesTakeEffect_beat : let s : State := wit (setTw (wrN { r0 with role := .standby } TW_CFG 1) { r0.tw with up0 := true, failure := true }); let h : TwHead := ⟨0, 4, true⟩; let b : TwBeat := default; (h.lane < 2) ∧ (Arrives s.dev h) := by
  refine ⟨by decide +kernel, ⟨by decide +kernel, by decide +kernel, rfl, fun c h => by cases h⟩⟩

/-- TwinFramesTakeEffect, spoilt. -/
theorem test_witness_TwinFramesTakeEffect_spoilt : let s : State := wit (setTw (wrN { r0 with role := .standby } TW_CFG 1) { r0.tw with up1 := true, ctr1 := some 4 }); let h : TwHead := ⟨1, 4, true⟩; let n : Nat := 1; let tt : Nat := 0; let first : Nat := 3; let seg : Nat := 0; let k : Nat := 2; let bank : Nat := 1; let typ : Nat := 7; let vals : List (W32 × Bool) := []; let ws : List (Nat × W32) := []; let bs : List W8 := []; let ok : Bool := true; let trim : W32 := 0; let b : TwBeat := default; let p : Page := .tk; let c : Instr := .beatReceive ⟨h, b⟩; ((h.lane < 2 ∧ seg < 16 ∧ k < 3 ∧ pageOk p = true ∧ bank < 2 ∧ typ < 8)) ∧ (Discarded s.dev h) ∧ (c ∈ [.inputFrameReceive ⟨h, n⟩ tt vals, .writesFrameReceive ⟨h, n⟩ first ws, .plialeFrameReceive ⟨h, n⟩ seg k bs, .digestReceive ⟨h, n⟩ tt, .ctrlFrameReceive ⟨h, k⟩, .imageFrameReceive ⟨h, p⟩ bank typ bs, .baseFrameReceive ⟨h, n⟩ ok, .timeFrameReceive ⟨h, n, trim⟩ tt first, .beatReceive ⟨h, b⟩]) := by
  refine ⟨by decide +kernel, ⟨by decide +kernel, by decide +kernel, Or.inr ⟨4, rfl, by decide⟩⟩, by simp⟩

/-- TwinLanesAreTrustedAndLost, trained. -/
theorem test_witness_TwinLanesAreTrustedAndLost_trained : let s : State := wit (wrN r0 TW_CFG 1); let n : Nat := 1; (n < 2) ∧ ((twRuns s.dev = true ∧ laneTr s.dev n = false)) := by
  decide +kernel

/-- TwinLanesAreTrustedAndLost, trusted. -/
theorem test_witness_TwinLanesAreTrustedAndLost_trusted : let s : State := wit (setTw (wrN r0 TW_CFG 1) { r0.tw with tr1 := true, ctr1 := some 7 }); let n : Nat := 1; (n < 2) ∧ ((twRuns s.dev = true ∧ laneTr s.dev n = true ∧ laneUp s.dev n = false ∧ s.dev.tw.strapErr = false)) := by
  decide +kernel

/-- TwinLanesAreTrustedAndLost, strap. -/
theorem test_witness_TwinLanesAreTrustedAndLost_strap : let s : State := wit (setTw (wrN r0 TW_CFG 1) { r0.tw with tr0 := true }); let n : Nat := 0; let ok : Bool := true; (n < 2) ∧ ((twRuns s.dev = true ∧ laneTr s.dev n = true ∧ laneUp s.dev n = false)) := by
  decide +kernel

/-- TwinLanesAreTrustedAndLost, authFailed. -/
theorem test_witness_TwinLanesAreTrustedAndLost_authFailed : let s : State := wit (setTw (wrN r0 TW_CFG 1) { r0.tw with tr0 := true }); let n : Nat := 0; (n < 2) ∧ ((twRuns s.dev = true ∧ laneTr s.dev n = true ∧ laneUp s.dev n = false ∧ s.dev.tw.strapErr = false)) := by
  decide +kernel

/-- TwinLanesAreTrustedAndLost, retried. -/
theorem test_witness_TwinLanesAreTrustedAndLost_retried : let s : State := wit (setTw (wrN r0 TW_CFG 1) { r0.tw with retry1 := true }); let n : Nat := 1; ((n < 2 ∧ laneRetry s.dev n = true)) := by
  decide +kernel

/-- TwinLanesAreTrustedAndLost, down. -/
theorem test_witness_TwinLanesAreTrustedAndLost_down : let s : State := wit (setTw (wrN r0 TW_CFG 1) { r0.tw with up1 := true }); let n : Nat := 1; (n < 2) ∧ ((twRuns s.dev = true ∧ (laneTr s.dev n = true ∨ laneUp s.dev n = true))) := by
  decide +kernel

/-- TwinLanesAreTrustedAndLost, lantern. -/
theorem test_witness_TwinLanesAreTrustedAndLost_lantern : let s : State := wit (setTw (wrN { r0 with role := .standby } TW_CFG 1) { r0.tw with holder := some 0x5A50 }); ((twRuns s.dev = true ∧ s.dev.tw.failure = false)) := by
  decide +kernel

/-- TwinLanesAreTrustedAndLost, holder. -/
theorem test_witness_TwinLanesAreTrustedAndLost_holder : let s : State := wit (wrN r0 TW_CFG 1); let code : Nat := 65535; (code < 65536) ∧ ((pairEn s.dev = true ∧ s.dev.tw.hold = false)) := by
  decide +kernel

/-- TwinLanesAreTrustedAndLost, wireFails. -/
theorem test_witness_TwinLanesAreTrustedAndLost_wireFails : let s : State := wit (setTw (wrN r0 TW_CFG 1) { r0.tw with wireB := true }); let w : Nat := 1; (w < 2) ∧ ((pairEn s.dev = true ∧ wireOk s.dev w = true)) := by
  decide +kernel

/-- TwinLanesAreTrustedAndLost, wireHealthy. -/
theorem test_witness_TwinLanesAreTrustedAndLost_wireHealthy : let s : State := wit (setTw (wrN r0 TW_CFG 1) { r0.tw with wireB := false }); let w : Nat := 1; (w < 2) ∧ ((pairEn s.dev = true ∧ wireOk s.dev w = false)) := by
  decide +kernel

/-- TwinLanesAreTrustedAndLost, disagree. -/
theorem test_witness_TwinLanesAreTrustedAndLost_disagree : let s : State := wit (wrN { r0 with power := { r0.power with phase := .on } } TW_CFG 1); let a : Bool := true; let b : Bool := false; ((pairEn s.dev = true ∧ a ≠ b ∧ s.dev.power.phase = .on)) := by
  decide +kernel

/-- TwinLanesAreTrustedAndLost, disagreeBoot. -/
theorem test_witness_TwinLanesAreTrustedAndLost_disagreeBoot : let s : State := wit (wrN { r0 with power := { r0.power with phase := .boot } } TW_CFG 1); let a : Bool := true; let b : Bool := false; ((pairEn s.dev = true ∧ a ≠ b ∧ s.dev.power.phase = .boot)) := by
  decide +kernel

/-- TwinLanesAreTrustedAndLost, missInput. -/
theorem test_witness_TwinLanesAreTrustedAndLost_missInput : let s : State := wit { r0 with role := .standby }; (s.dev.role = .standby) ∧ ((inputOf s.dev (bp s.dev + 1) = none ∧ s.dev.tw.counted ≠ bp s.dev + 1)) := by
  decide +kernel

/-- TwinLanesAreTrustedAndLost, missReply. -/
theorem test_witness_TwinLanesAreTrustedAndLost_missReply : let s : State := wit (setTw { r0 with role := .standby } { r0.tw with frames := [.input 1 0 []] }); (s.dev.role = .standby) ∧ (((inputOf s.dev (bp s.dev + 1)).isSome ∨ s.dev.tw.counted = bp s.dev + 1)) := by
  decide +kernel

/-- TwinLanesAreTrustedAndLost, joined. -/
theorem test_witness_TwinLanesAreTrustedAndLost_joined : let s : State := wit (setTw { r0 with role := .syncing } { r0.tw with phase := 3 }); ((s.dev.role = .syncing ∧ s.dev.tw.phase = 3 ∧ ∀ f ∈ s.dev.tw.frames, frameBp f ≤ bp s.dev)) := by
  refine ⟨rfl, rfl, fun f hf => by cases hf⟩

/-- TwinLanesAreTrustedAndLost, late. -/
theorem test_witness_TwinLanesAreTrustedAndLost_late : let s : State := wit (setTw { r0 with role := .syncing } { r0.tw with phase := 3, fails := 2 }); ((s.dev.role = .syncing ∧ s.dev.tw.phase = 3)) := by
  decide +kernel

/-- GuylineSeizesReleasesAndHandsOver, seize. -/
theorem test_witness_GuylineSeizesReleasesAndHandsOver_seize : let s : State := wit (setTw (wrN { r0 with power := { r0.power with phase := .on } } TW_CFG 1) { r0.tw with idle := true, wireA := true, wireB := true }); (maySeize s.dev = true) := by
  decide +kernel

/-- GuylineSeizesReleasesAndHandsOver, mayNotSeize. -/
theorem test_witness_GuylineSeizesReleasesAndHandsOver_mayNotSeize : let s : State := State.reset; (maySeize s.dev = false) := by
  decide +kernel

/-- GuylineSeizesReleasesAndHandsOver, won. -/
theorem test_witness_GuylineSeizesReleasesAndHandsOver_won : let s : State := wit (setTw r0 { r0.tw with seizing := true }); (s.dev.tw.seizing = true) := by
  decide +kernel

/-- GuylineSeizesReleasesAndHandsOver, lost. -/
theorem test_witness_GuylineSeizesReleasesAndHandsOver_lost : let s : State := wit (setTw r0 { r0.tw with seizing := true }); (s.dev.tw.seizing = true) := by
  decide +kernel

/-- GuylineSeizesReleasesAndHandsOver, holderLost. -/
theorem test_witness_GuylineSeizesReleasesAndHandsOver_holderLost : let s : State := wit (setTw (wrN { r0 with role := .standby } TW_CFG 1) { r0.tw with holder := some 1 }); ((pairEn s.dev = true ∧ (s.dev.tw.holder.isSome = true ∨ s.dev.tw.hold = true))) := by
  decide +kernel

/-- GuylineSeizesReleasesAndHandsOver, force. -/
theorem test_witness_GuylineSeizesReleasesAndHandsOver_force : let s : State := wit (wrN { r0 with role := .syncing, power := { r0.power with phase := .on } } TW_CFG 1); let key : Nat := 0x5EE5; ((key = 0x5EE5 ∧ admits s.dev .gl 0x108 = true)) ∧ (((s.dev.role = .standby ∨ s.dev.role = .syncing) ∧ s.dev.power.phase ≠ .held ∧ s.dev.tw.holder = none ∧ pairEn s.dev = true)) := by
  decide +kernel

/-- GuylineSeizesReleasesAndHandsOver, forceRefused. -/
theorem test_witness_GuylineSeizesReleasesAndHandsOver_forceRefused : let s : State := State.reset; let key : Nat := 0x5EE5; ((key < 65536 ∧ admits s.dev .gl 0x108 = true)) ∧ (¬(key = 0x5EE5 ∧ (s.dev.role = .standby ∨ s.dev.role = .syncing) ∧ s.dev.power.phase ≠ .held ∧ s.dev.tw.holder = none ∧ pairEn s.dev = true)) := by
  decide +kernel

/-- GuylineSeizesReleasesAndHandsOver, retest. -/
theorem test_witness_GuylineSeizesReleasesAndHandsOver_retest : let s : State := wit (wrN r0 TW_CFG 1); let a : Bool := true; let b : Bool := false; ((admits s.dev .gl 0x108 = true ∧ pairEn s.dev = true)) := by
  decide +kernel

/-- GuylineSeizesReleasesAndHandsOver, witnessEnds. -/
theorem test_witness_GuylineSeizesReleasesAndHandsOver_witnessEnds : let s : State := wit (setTw r0 { r0.tw with witness := some 4 }); let b : Nat := 4; let r : Nat := 0; let p : Nat := 0; ((s.dev.tw.witness = some b ∧ r = (s.dev.pls.map (fun e => e.2.wr)).foldl (· + ·) 0 ∧ p = (s.dev.pls.map (fun e => e.2.wp)).foldl (· + ·) 0)) := by
  decide +kernel

/-- GuylineSeizesReleasesAndHandsOver, release. -/
theorem test_witness_GuylineSeizesReleasesAndHandsOver_release : let s : State := wit { r0 with role := .authority }; ((admits s.dev .tw 0x104 = true ∧ s.dev.role = .authority)) := by
  decide +kernel

/-- GuylineSeizesReleasesAndHandsOver, resync. -/
theorem test_witness_GuylineSeizesReleasesAndHandsOver_resync : let s : State := wit { r0 with role := .standby }; ((admits s.dev .tw 0x104 = true ∧ (s.dev.role = .standby ∨ (s.dev.role = .syncing ∧ s.dev.power.phase = .on)))) := by
  decide +kernel

/-- GuylineSeizesReleasesAndHandsOver, clearHalt. -/
theorem test_witness_GuylineSeizesReleasesAndHandsOver_clearHalt : let s : State := wit { r0 with role := .syncing }; ((admits s.dev .tw 0x104 = true ∧ s.dev.role = .syncing)) := by
  decide +kernel

/-- GuylineSeizesReleasesAndHandsOver, returnNow. -/
theorem test_witness_GuylineSeizesReleasesAndHandsOver_returnNow : let s : State := wit (wrN { r0 with role := .standby } ID_STRAP 16); ((admits s.dev .tw 0x104 = true ∧ s.dev.role = .standby ∧ pref s.dev = true)) := by
  decide +kernel

/-- GuylineSeizesReleasesAndHandsOver, wrongRole. -/
theorem test_witness_GuylineSeizesReleasesAndHandsOver_wrongRole : let s : State := State.reset; let c : Instr := .twReturnNow; (admits s.dev .tw 0x104 = true) ∧ (((c = .twRelease ∧ s.dev.role ≠ .authority) ∨ (c = .twResync ∧ ¬(s.dev.role = .standby ∨ (s.dev.role = .syncing ∧ s.dev.power.phase = .on))) ∨ (c = .twClearHalt ∧ s.dev.role ≠ .syncing) ∨ (c = .twReturnNow ∧ ¬(s.dev.role = .standby ∧ pref s.dev = true)))) := by
  decide +kernel

/-- GuylineSeizesReleasesAndHandsOver, holdOff. -/
theorem test_witness_GuylineSeizesReleasesAndHandsOver_holdOff : let s : State := wit (wrN { r0 with role := .standby } TW_HOLDOFF 0); ((s.dev.role = .standby ∧ rdN s.dev TW_HOLDOFF * 100000 ≤ bp s.dev - s.dev.tw.standbyAt)) := by
  decide +kernel

/-- GuylineSeizesReleasesAndHandsOver, handover. -/
theorem test_witness_GuylineSeizesReleasesAndHandsOver_handover : let s : State := wit (setTw { r0 with role := .authority } { r0.tw with handover := some 1 }); ((s.dev.tw.handover = some (bp s.dev + 1) ∧ s.dev.role = .authority)) := by
  decide +kernel

/-- GuylineSeizesReleasesAndHandsOver, handoverPreferred. -/
theorem test_witness_GuylineSeizesReleasesAndHandsOver_handoverPreferred : let s : State := wit (setTw (wrN { r0 with role := .standby } ID_STRAP 16) { r0.tw with handover := some 1 }); ((s.dev.tw.handover = some (bp s.dev + 1) ∧ s.dev.role = .standby ∧ pref s.dev = true ∧ s.dev.tw.hold = false)) := by
  decide +kernel

/-- GuylineSeizesReleasesAndHandsOver, abandoned. -/
theorem test_witness_GuylineSeizesReleasesAndHandsOver_abandoned : let s : State := wit (setTw { r0 with role := .standby } { r0.tw with handover := some 0 }); ((s.dev.tw.handover = some (bp s.dev) ∧ s.dev.role = .standby ∧ s.dev.tw.hold = false ∧ s.dev.tw.holder = none)) := by
  decide +kernel

/-- ResetsBlankTheModule, warm. -/
theorem test_witness_ResetsBlankTheModule_warm : let s : State := wit { r0 with power := { r0.power with phase := .on } }; let c : Instr := .supervisorWatchdog; let src : Nat := 2; (((c, src) ∈ [(.warmReset 1, 1), (.warmReset 2, 2), (.warmReset 3, 3), (.warmReset 5, 5), (.supervisorWatchdog, 2)] ∧ resettable s.dev = true)) := by
  decide +kernel

/-- ResetsBlankTheModule, brownout. -/
theorem test_witness_ResetsBlankTheModule_brownout : let s : State := wit { r0 with power := { r0.power with phase := .on, fail := .done, pres := true } }; ((s.dev.power.fail = .done ∧ s.dev.power.pres = true ∧ resettable s.dev = true)) := by
  decide +kernel

/-- ResetsBlankTheModule, noBrownout. -/
theorem test_witness_ResetsBlankTheModule_noBrownout : let s : State := State.reset; (¬(s.dev.power.fail = .done ∧ s.dev.power.pres = true)) := by
  decide +kernel

/-- ResetsBlankTheModule, warmCommand. -/
theorem test_witness_ResetsBlankTheModule_warmCommand : let s : State := wit { r0 with power := { r0.power with phase := .on } }; ((admits s.dev .pwr 0x104 = true ∧ resettable s.dev = true)) := by
  decide +kernel

/-- ResetsBlankTheModule, cold. -/
theorem test_witness_ResetsBlankTheModule_cold : let s : State := wit { r0 with power := { r0.power with phase := .held } }; let c : Instr := .coldReset 4; let src : Nat := 4; (((c, src) ∈ [(.coldReset 4, 4), (.coldReset 6, 6), (.servicePortReset, 6)] ∧ resettable s.dev = true)) := by
  decide +kernel

/-- ResetsBlankTheModule, coldCommand. -/
theorem test_witness_ResetsBlankTheModule_coldCommand : let s : State := wit { r0 with power := { r0.power with phase := .on } }; ((admits s.dev .pwr 0x104 = true ∧ resettable s.dev = true)) := by
  decide +kernel

/-- ResetsBlankTheModule, wrongKey. -/
theorem test_witness_ResetsBlankTheModule_wrongKey : let s : State := wit { r0 with power := { r0.power with phase := .on } }; let c : Instr := .pwrCold 65535; let key : Nat := 65535; ((key < 65536 ∧ key ≠ 0xC01D ∧ (c = .pwrWarm key ∨ c = .pwrCold key) ∧ admits s.dev .pwr 0x104 = true)) := by
  decide +kernel

/-- ResetsBlankTheModule, unpowered. -/
theorem test_witness_ResetsBlankTheModule_unpowered : let s : State := wit { r0 with power := { r0.power with phase := .off } }; let c : Instr := .coldReset 6; ((c ∈ [.warmReset 1, .warmReset 2, .warmReset 3, .warmReset 5, .supervisorWatchdog, .coldReset 4, .coldReset 6, .servicePortReset] ∧ resettable s.dev = false)) := by
  decide +kernel

/-- ResetsBlankTheModule, vinReturns. -/
theorem test_witness_ResetsBlankTheModule_vinReturns : let s : State := wit { r0 with power := { r0.power with phase := .keepAlive, pres := true } }; let ka : Nat := 7; ((powered s.dev = false ∧ s.dev.power.pres = true)) := by
  decide +kernel

/-- ResetsBlankTheModule, noReturn. -/
theorem test_witness_ResetsBlankTheModule_noReturn : let s : State := wit { r0 with power := { r0.power with phase := .on } }; let ka : Nat := 7; (¬(powered s.dev = false ∧ s.dev.power.pres = true)) := by
  decide +kernel

/-- PowerFailsAndHoldUpCarries, declared. -/
theorem test_witness_PowerFailsAndHoldUpCarries_declared : let s : State := State.reset; ((powered s.dev = true ∧ s.dev.power.fail = .no ∧ s.dev.power.phase = .on)) := by
  decide +kernel

/-- PowerFailsAndHoldUpCarries, noCommit. -/
theorem test_witness_PowerFailsAndHoldUpCarries_noCommit : let s : State := wit { r0 with power := { r0.power with phase := .held } }; ((powered s.dev = true ∧ s.dev.power.fail = .no ∧ s.dev.power.phase ≠ .on)) := by
  decide +kernel

/-- PowerFailsAndHoldUpCarries, declaredOnce. -/
theorem test_witness_PowerFailsAndHoldUpCarries_declaredOnce : let s : State := wit { r0 with power := { r0.power with fail := .declared } }; ((powered s.dev = false ∨ s.dev.power.fail ≠ .no)) := by
  decide +kernel

/-- PowerFailsAndHoldUpCarries, finalCommit. -/
theorem test_witness_PowerFailsAndHoldUpCarries_finalCommit : let s : State := wit { r0 with power := { r0.power with fail := .draining } }; (s.dev.power.fail = .draining) := by
  decide +kernel

/-- PowerFailsAndHoldUpCarries, noFinalCommit. -/
theorem test_witness_PowerFailsAndHoldUpCarries_noFinalCommit : let s : State := State.reset; (s.dev.power.fail ≠ .draining) := by
  decide +kernel

/-- PowerFailsAndHoldUpCarries, spent. -/
theorem test_witness_PowerFailsAndHoldUpCarries_spent : let s : State := wit { r0 with power := { r0.power with fail := .done } }; ((powered s.dev = true ∧ s.dev.power.fail ≠ .no)) := by
  decide +kernel

/-- PowerFailsAndHoldUpCarries, notSpent. -/
theorem test_witness_PowerFailsAndHoldUpCarries_notSpent : let s : State := State.reset; (¬(powered s.dev = true ∧ s.dev.power.fail ≠ .no)) := by
  decide +kernel

/-- PowerFailsAndHoldUpCarries, okSet. -/
theorem test_witness_PowerFailsAndHoldUpCarries_okSet : let s : State := State.reset; (powered s.dev = true) := by
  decide +kernel

/-- PowerFailsAndHoldUpCarries, low. -/
theorem test_witness_PowerFailsAndHoldUpCarries_low : let s : State := State.reset; let mj : Nat := 0; ((s.dev.power.holdupOk = true ∧ mj = fld (rd s.dev PWR_HOLDUP) 15 0)) := by
  decide +kernel

/-- PowerFailsAndHoldUpCarries, alreadyLow. -/
theorem test_witness_PowerFailsAndHoldUpCarries_alreadyLow : let s : State := wit { r0 with power := { r0.power with holdupOk := false } }; (s.dev.power.holdupOk = false) := by
  decide +kernel

/-- PowerFailsAndHoldUpCarries, measure. -/
theorem test_witness_PowerFailsAndHoldUpCarries_measure : let s : State := State.reset; let esr : Nat := 400; let cap : Nat := 47; let energy : Nat := 150; (powered s.dev = true) := by
  decide +kernel

/-- PowerFailsAndHoldUpCarries, holdExpires. -/
theorem test_witness_PowerFailsAndHoldUpCarries_holdExpires : let s : State := wit { r0 with oh := { r0.oh with holding := true, aoSafe := [(3, some 0)] } }; (s.dev.oh.holding = true) := by
  decide +kernel

/-- PowerFailsAndHoldUpCarries, noHold. -/
theorem test_witness_PowerFailsAndHoldUpCarries_noHold : let s : State := State.reset; (s.dev.oh.holding = false) := by
  decide +kernel

/-- PowerFailsAndHoldUpCarries, vinLow. -/
theorem test_witness_PowerFailsAndHoldUpCarries_vinLow : let s : State := State.reset; let low : Bool := true; (powered s.dev = true) := by
  decide +kernel

/-- PowerFailsAndHoldUpCarries, fieldLow. -/
theorem test_witness_PowerFailsAndHoldUpCarries_fieldLow : let s : State := State.reset; let mv : Nat := 16000; ((powered s.dev = true ∧ mv < 17000 ∧ s.dev.power.vfldLow = false)) := by
  decide +kernel

/-- PowerFailsAndHoldUpCarries, fieldBack. -/
theorem test_witness_PowerFailsAndHoldUpCarries_fieldBack : let s : State := wit { r0 with power := { r0.power with vfldLow := true } }; let mv : Nat := 19200; ((19200 ≤ mv ∧ s.dev.power.vfldLow = true)) := by
  decide +kernel

/-- PowerFailsAndHoldUpCarries, fieldStays. -/
theorem test_witness_PowerFailsAndHoldUpCarries_fieldStays : let s : State := State.reset; let mv : Nat := 17000; (((¬(powered s.dev = true ∧ mv < 17000 ∧ s.dev.power.vfldLow = false)) ∧ ¬(19200 ≤ mv ∧ s.dev.power.vfldLow = true))) := by
  decide +kernel

/-- PowerFailsAndHoldUpCarries, unpowered. -/
theorem test_witness_PowerFailsAndHoldUpCarries_unpowered : let s : State := wit { r0 with power := { r0.power with phase := .off } }; let c : Instr := .holdupOkSet; let esr : Nat := 0; let cap : Nat := 0; let energy : Nat := 0; let low : Bool := true; ((powered s.dev = false ∧ c ∈ [.holdupOkSet, .holdupMeasure esr cap energy, .vinLow low, .powerFailure, .holdupSpent])) := by
  decide +kernel

/-- JournalCommitsAndFirmwareInstalls, epoch. -/
theorem test_witness_JournalCommitsAndFirmwareInstalls_epoch : let s : State := wit { r0 with jn := { r0.jn with due := true } }; let n : Nat := 1; ((journalRuns s.dev = true ∧ s.dev.jn.due = true ∧ s.dev.jn.draining = none ∧ n = s.dev.jn.top + 1)) := by
  decide +kernel

/-- JournalCommitsAndFirmwareInstalls, epochSkipped. -/
theorem test_witness_JournalCommitsAndFirmwareInstalls_epochSkipped : let s : State := wit { r0 with jn := { r0.jn with due := true, draining := some default } }; ((journalRuns s.dev = true ∧ s.dev.jn.due = true ∧ s.dev.jn.draining ≠ none)) := by
  decide +kernel

/-- JournalCommitsAndFirmwareInstalls, noEpoch. -/
theorem test_witness_JournalCommitsAndFirmwareInstalls_noEpoch : let s : State := State.reset; (¬(journalRuns s.dev = true ∧ s.dev.jn.due = true)) := by
  decide +kernel

/-- JournalCommitsAndFirmwareInstalls, commit. -/
theorem test_witness_JournalCommitsAndFirmwareInstalls_commit : let s : State := wit { r0 with jn := { r0.jn with draining := some default } }; let c : Commit := default; ((s.dev.jn.draining = some c ∧ c.final = false)) := by
  decide +kernel

/-- JournalCommitsAndFirmwareInstalls, noCommit. -/
theorem test_witness_JournalCommitsAndFirmwareInstalls_noCommit : let s : State := State.reset; ((∀ c, s.dev.jn.draining = some c → c.final = true)) := by
  intro s c h; exact nomatch (show (none : Option Commit) = some c from h)

/-- JournalCommitsAndFirmwareInstalls, forceCold. -/
theorem test_witness_JournalCommitsAndFirmwareInstalls_forceCold : let s : State := State.reset; (admits s.dev .sb 0x108 = true) := by
  decide +kernel

/-- JournalCommitsAndFirmwareInstalls, cancelCold. -/
theorem test_witness_JournalCommitsAndFirmwareInstalls_cancelCold : let s : State := State.reset; (admits s.dev .sb 0x108 = true) := by
  decide +kernel

/-- JournalCommitsAndFirmwareInstalls, install. -/
theorem test_witness_JournalCommitsAndFirmwareInstalls_install : let s : State := State.reset; ((admits s.dev .pwr 0x104 = true ∧ powered s.dev = true ∧ s.dev.power.installing = false)) := by
  decide +kernel

/-- JournalCommitsAndFirmwareInstalls, installBusy. -/
theorem test_witness_JournalCommitsAndFirmwareInstalls_installBusy : let s : State := wit { r0 with power := { r0.power with installing := true } }; ((admits s.dev .pwr 0x104 = true ∧ powered s.dev = true ∧ s.dev.power.installing = true)) := by
  decide +kernel

/-- JournalCommitsAndFirmwareInstalls, installEnds. -/
theorem test_witness_JournalCommitsAndFirmwareInstalls_installEnds : let s : State := wit { r0 with power := { r0.power with installing := true } }; let bs : List W8 := [7]; let ok : Bool := true; let n : Nat := 0; let b : Nat := 1; let c : Nat := 1; ((s.dev.power.installing = true ∧ n = rdN s.dev PWR_INST_LEN ∧ b = 1 - s.dev.power.bank)) ∧ (c = (if ok && decide (rd64 s.dev PWR_INST_ADDR + n ≤ 2 ^ 64) then fwCheck s.vault.vendorKid bs n else 1)) := by
  decide +kernel

/-- JournalCommitsAndFirmwareInstalls, noInstall. -/
theorem test_witness_JournalCommitsAndFirmwareInstalls_noInstall : let s : State := State.reset; let bs : List W8 := []; let ok : Bool := true; (s.dev.power.installing = false) := by
  decide +kernel

/-- JournalCommitsAndFirmwareInstalls, persist. -/
theorem test_witness_JournalCommitsAndFirmwareInstalls_persist : let s : State := State.reset; (powered s.dev = true) := by
  decide +kernel

/-- JournalCommitsAndFirmwareInstalls, storeLost. -/
theorem test_witness_JournalCommitsAndFirmwareInstalls_storeLost : let s : State := wit { r0 with power := { r0.power with phase := .keepAlive } }; (s.dev.power.phase = .keepAlive) := by
  decide +kernel

/-- JournalCommitsAndFirmwareInstalls, storeStands. -/
theorem test_witness_JournalCommitsAndFirmwareInstalls_storeStands : let s : State := State.reset; (s.dev.power.phase ≠ .keepAlive) := by
  decide +kernel

/-- JournalCommitsAndFirmwareInstalls, inserted. -/
theorem test_witness_JournalCommitsAndFirmwareInstalls_inserted : let s : State := wit { r0 with power := { r0.power with pres := false } }; (s.dev.power.pres = false) := by
  decide +kernel

/-- JournalCommitsAndFirmwareInstalls, removed. -/
theorem test_witness_JournalCommitsAndFirmwareInstalls_removed : let s : State := wit { r0 with power := { r0.power with pres := true } }; ((s.dev.power.pres = true ∧ powered s.dev = true ∧ s.dev.power.fail = .no)) := by
  decide +kernel

/-- HealthAndWearAreKept, sample. -/
theorem test_witness_HealthAndWearAreKept_sample : let s : State := State.reset; let smp : HSample := ⟨851, [1199, 1150, 0, 1000], 24000, 24000, 3000, 0, 4000⟩; ((powered s.dev = true ∧ ∀ r, r < 4 → nth smp.tj r 0 < 1200)) := by
  decide +kernel

/-- HealthAndWearAreKept, critical. -/
theorem test_witness_HealthAndWearAreKept_critical : let s : State := wit { r0 with health := { r0.health with hot := [0, 0, 2, 0] } }; let smp : HSample := ⟨0, [0, 0, 1200, 0], 0, 0, 0, 0, 0⟩; let r : Nat := 2; ((powered s.dev = true ∧ s.dev.power.phase = .on ∧ r < 4 ∧ 2 ≤ nth s.dev.health.hot r 0 ∧ 1200 ≤ nth smp.tj r 0)) := by
  decide +kernel

/-- HealthAndWearAreKept, hour. -/
theorem test_witness_HealthAndWearAreKept_hour : let s : State := wit (wr64 r0 PWR_OPT_MS 3600000); let smp : EolSample := ⟨[1, 2, 3, 4], [], [10], 7⟩; ((powered s.dev = true ∧ optMs s.dev / 3600000 ≠ s.dev.health.hour)) := by
  decide +kernel

/-- HealthAndWearAreKept, sameHour. -/
theorem test_witness_HealthAndWearAreKept_sameHour : let s : State := State.reset; let smp : EolSample := default; (¬(powered s.dev = true ∧ optMs s.dev / 3600000 ≠ s.dev.health.hour)) := by
  decide +kernel

/-- HealthAndWearAreKept, set. -/
theorem test_witness_HealthAndWearAreKept_set : let s : State := wit (wrN (wrN r0 HLTH_WL_SEL 447) HLTH_WL_THR 9); let e : Nat := 447; let x : Wear := { wear0 with thr := 9 }; ((admits s.dev .hlth 0x18C = true ∧ e = fld (rd s.dev HLTH_WL_SEL) 8 0 ∧ e < 448)) ∧ (x = (if 192 ≤ e then { wearOf s.dev e with thr := rdN s.dev HLTH_WL_THR, src := fld (rd s.dev HLTH_WL_SRC) 14 0, bitNo := fld (rd s.dev HLTH_WL_SRC) 20 16, en := bit (rd s.dev HLTH_WL_SRC) 23, last := sigBit s.dev (fld (rd s.dev HLTH_WL_SRC) 14 0) (fld (rd s.dev HLTH_WL_SRC) 20 16) } else { wearOf s.dev e with thr := rdN s.dev HLTH_WL_THR })) := by
  decide +kernel

/-- HealthAndWearAreKept, clearCount. -/
theorem test_witness_HealthAndWearAreKept_clearCount : let s : State := wit (setWear r0 0 { wear0 with count := 5, thr := 5, worn := true }); let e : Nat := 0; ((admits s.dev .hlth 0x18C = true ∧ e = fld (rd s.dev HLTH_WL_SEL) 8 0 ∧ e < 448)) := by
  decide +kernel

/-- HealthAndWearAreKept, noEntry. -/
theorem test_witness_HealthAndWearAreKept_noEntry : let s : State := wit (wrN r0 HLTH_WL_SEL 448); let c : Instr := .wlClearCount; ((admits s.dev .hlth 0x18C = true ∧ 448 ≤ fld (rd s.dev HLTH_WL_SEL) 8 0 ∧ (c = .wlSet ∨ c = .wlClearCount))) := by
  decide +kernel

/-- HealthAndWearAreKept, trimArrives. -/
theorem test_witness_HealthAndWearAreKept_trimArrives : let s : State := wit (wrN (wrN r0 CLK_CTRL 1) CLK_TRIM 1); let t : Int := 1; ((t = trimTarget s.dev ∧ (trimAct s.dev - t).natAbs ≤ 1)) := by
  decide +kernel

/-- HealthAndWearAreKept, trimOnTheWay. -/
theorem test_witness_HealthAndWearAreKept_trimOnTheWay : let s : State := wit (wrN (wrN r0 CLK_CTRL 1) CLK_TRIM 2); (1 < (trimAct s.dev - trimTarget s.dev).natAbs) := by
  decide +kernel

/-- HealthAndWearAreKept, unpoweredSample. -/
theorem test_witness_HealthAndWearAreKept_unpoweredSample : let s : State := wit { r0 with power := { r0.power with phase := .keepAlive } }; let smp : HSample := default; (powered s.dev = false) := by
  decide +kernel

/-- SegmentCommandsMoveTheSegment, load. -/
theorem test_witness_SegmentCommandsMoveTheSegment_load : let s : State := State.reset; let seg : Nat := 15; ((seg < 16 ∧ admits s.dev (.pl seg) 0x104 = true ∧ (plOf s.dev seg).st = .empty)) := by
  decide +kernel

/-- SegmentCommandsMoveTheSegment, verified. -/
theorem test_witness_SegmentCommandsMoveTheSegment_verified : let s : State := wit (setPl r0 15 { pl0 with st := .loading }); let seg : Nat := 15; let x : Pl := plOf s.dev seg; ((seg < 16 ∧ x = plOf s.dev seg ∧ x.st = .loading)) := by
  decide +kernel

/-- SegmentCommandsMoveTheSegment, notLoading. -/
theorem test_witness_SegmentCommandsMoveTheSegment_notLoading : let s : State := State.reset; let seg : Nat := 0; ((seg < 16 ∧ (plOf s.dev seg).st ≠ .loading)) := by
  decide +kernel

/-- SegmentCommandsMoveTheSegment, unload. -/
theorem test_witness_SegmentCommandsMoveTheSegment_unload : let s : State := wit (setPl r0 15 { pl0 with st := .stopped, sched := some default, asked := true }); let seg : Nat := 15; let c : PlSched := default; let x : Pl := plOf s.dev seg; ((seg < 16 ∧ admits s.dev (.pl seg) 0x104 = true ∧ x = plOf s.dev seg ∧ x.st = .stopped ∧ x.sched = some c)) := by
  decide +kernel

/-- SegmentCommandsMoveTheSegment, start. -/
theorem test_witness_SegmentCommandsMoveTheSegment_start : let s : State := wit (wr (setPl r0 15 { pl0 with st := .stopped }) (plBase 15 + BLK_CTRL) 1); let seg : Nat := 15; let x : Pl := plOf s.dev seg; ((seg < 16 ∧ admits s.dev (.pl seg) 0x104 = true ∧ x = plOf s.dev seg ∧ x.st = .stopped ∧ runBit s.dev (.pl seg) = true)) := by
  decide +kernel

/-- SegmentCommandsMoveTheSegment, stop. -/
theorem test_witness_SegmentCommandsMoveTheSegment_stop : let s : State := wit (setPl r0 15 { pl0 with st := .running, wait := true }); let seg : Nat := 15; let x : Pl := plOf s.dev seg; ((seg < 16 ∧ admits s.dev (.pl seg) 0x104 = true ∧ x = plOf s.dev seg ∧ (x.st = .running ∨ x.st = .listen ∨ x.st = .halted))) := by
  decide +kernel

/-- SegmentCommandsMoveTheSegment, restart. -/
theorem test_witness_SegmentCommandsMoveTheSegment_restart : let s : State := wit (setPl r0 15 { pl0 with st := .halted, coll := 3 }); let seg : Nat := 15; let x : Pl := plOf s.dev seg; ((seg < 16 ∧ admits s.dev (.pl seg) 0x108 = true ∧ x = plOf s.dev seg ∧ x.st = .halted)) := by
  decide +kernel

/-- SegmentCommandsMoveTheSegment, acyc. -/
theorem test_witness_SegmentCommandsMoveTheSegment_acyc : let s : State := wit (wrN (wrN (setPl r0 15 { pl0 with st := .running, sched := some { (default : PlSched) with acycLen := 8000 } }) (PL_AREQ_HDR 15) 0x400) (PL_AREQ_DATA 15 0) 0x40000); let seg : Nat := 15; let x : Pl := plOf s.dev seg; let c : PlSched := { (default : PlSched) with acycLen := 8000 }; ((seg < 16 ∧ admits s.dev (.pl seg) 0x108 = true ∧ x = plOf s.dev seg ∧ (x.st = .listen ∨ x.st = .running) ∧ x.wait = false ∧ x.asked = false ∧ x.sched = some c)) ∧ ((4 ≤ areqLen s.dev seg ∧ 4 ≤ areqMax s.dev seg ∧ areqNs s.dev seg ≤ c.acycLen)) := by
  decide +kernel

/-- SegmentCommandsMoveTheSegment, acycEnds. -/
theorem test_witness_SegmentCommandsMoveTheSegment_acycEnds : let s : State := wit (setPl r0 15 { pl0 with st := .running, sched := some default }); let seg : Nat := 15; let x : Pl := plOf s.dev seg; let c : PlSched := default; ((seg < 16 ∧ admits s.dev (.pl seg) 0x108 = true ∧ x = plOf s.dev seg ∧ (x.st = .listen ∨ x.st = .running) ∧ x.wait = false ∧ x.asked = false ∧ x.sched = some c)) ∧ ((areqLen s.dev seg < 4 ∨ areqMax s.dev seg < 4 ∨ c.acycLen < areqNs s.dev seg)) := by
  decide +kernel

/-- SegmentCommandsMoveTheSegment, resync. -/
theorem test_witness_SegmentCommandsMoveTheSegment_resync : let s : State := wit (setPl r0 15 { pl0 with st := .running, slots := [sl0, sl0] }); let seg : Nat := 15; let k : Nat := 1; let x : Pl := plOf s.dev seg; ((seg < 16 ∧ k < 32 ∧ admits s.dev (.pl seg) 0x108 = true ∧ x = plOf s.dev seg ∧ x.st = .running ∧ k < x.slots.length)) := by
  decide +kernel

/-- SegmentCommandsMoveTheSegment, refused. -/
theorem test_witness_SegmentCommandsMoveTheSegment_refused : let s : State := State.reset; let seg : Nat := 15; let k : Nat := 31; let off : Nat := 0x108; let c : Instr := .plResync 15 31; let x : Pl := plOf s.dev seg; ((seg < 16 ∧ k < 32 ∧ admits s.dev (.pl seg) off = true ∧ x = plOf s.dev seg)) ∧ (((off = 0x104 ∧ ((c = .plLoad seg ∧ x.st ≠ .empty) ∨ (c = .plUnload seg ∧ x.st ≠ .stopped) ∨ (c = .plStart seg ∧ ¬(x.st = .stopped ∧ runBit s.dev (.pl seg) = true)) ∨ (c = .plStop seg ∧ x.st ≠ .running ∧ x.st ≠ .listen ∧ x.st ≠ .halted))) ∨ (off = 0x108 ∧ ((c = .plRestart seg ∧ x.st ≠ .halted) ∨ (c = .plAcyc seg ∧ ((x.st ≠ .listen ∧ x.st ≠ .running) ∨ x.wait = true ∨ x.asked = true)) ∨ (c = .plResync seg k ∧ ¬(x.st = .running ∧ k < x.slots.length)))))) := by
  decide +kernel

/-- SegmentsRunTheirCycles, still. -/
theorem test_witness_SegmentsRunTheirCycles_still : let s : State := wit { r0 with power := { r0.power with phase := .service } }; let seg : Nat := 15; let k : Nat := 31; let j : Nat := 0; let dt : Nat := 0; let good : Bool := true; let sync : Bool := true; let bs : List W8 := []; let c : Instr := .lineActivity 15; ((seg < 16 ∧ k < 32 ∧ clocked s.dev = false)) ∧ (c ∈ [.plialeCycleStart seg, .pollSend seg k, .replyReceive seg j good bs, .acycWindowEnd seg, .acyclicWindowStart seg, .measRspReceive seg k dt, .acycRspReceive seg j good bs, .acycResponseTimeout seg, .foreignSync seg, .plCollision seg sync k, .lineActivity seg, .listenSilenceExpired seg]) := by
  decide +kernel

/-- SegmentsRunTheirCycles, cycle. -/
theorem test_witness_SegmentsRunTheirCycles_cycle : let s : State := wit (setPl r0 15 { pl0 with st := .running, cyc := 100 }); let seg : Nat := 15; let x : Pl := plOf s.dev seg; let y : Pl := { x with cyc := fld (rd s.dev (PL_CYCLE seg)) 9 0, start := some (bp s.dev), cycles := x.cycles + 1, violators := [], closing := if x.closing = 2 then 1 else 0, slots := x.slots.map (fun z => { z with got := false, heard := false, spoilt := false }) }; ((seg < 16 ∧ clocked s.dev = true ∧ x = plOf s.dev seg ∧ (x.st = .running ∨ x.closing = 2) ∧ 0 < x.cyc ∧ bp s.dev % x.cyc = 0)) ∧ (y = { x with cyc := fld (rd s.dev (PL_CYCLE seg)) 9 0, start := some (bp s.dev), cycles := x.cycles + 1, violators := [], closing := if x.closing = 2 then 1 else 0, slots := x.slots.map (fun z => { z with got := false, heard := false, spoilt := false }) }) := by
  decide +kernel

/-- SegmentsRunTheirCycles, lastCycleEnds. -/
theorem test_witness_SegmentsRunTheirCycles_lastCycleEnds : let s : State := wit (setPl r0 15 { pl0 with closing := 1, cyc := 100 }); let seg : Nat := 15; let x : Pl := plOf s.dev seg; ((seg < 16 ∧ clocked s.dev = true ∧ x = plOf s.dev seg ∧ x.st ≠ .running ∧ x.closing = 1 ∧ 0 < x.cyc ∧ bp s.dev % x.cyc = 0)) := by
  decide +kernel

/-- SegmentsRunTheirCycles, noCycle. -/
theorem test_witness_SegmentsRunTheirCycles_noCycle : let s : State := State.reset; let seg : Nat := 15; let x : Pl := plOf s.dev seg; ((seg < 16 ∧ x = plOf s.dev seg ∧ ((x.st ≠ .running ∧ x.closing ≠ 1 ∧ x.closing ≠ 2) ∨ x.cyc = 0 ∨ bp s.dev % x.cyc ≠ 0))) := by
  decide +kernel

/-- SegmentsRunTheirCycles, poll. -/
theorem test_witness_SegmentsRunTheirCycles_poll : let s : State := wit (setPl r0 15 { pl0 with st := .running, slots := [sl0] }); let seg : Nat := 15; let k : Nat := 0; let x : Pl := plOf s.dev seg; ((seg < 16 ∧ k < 32 ∧ clocked s.dev = true ∧ x = plOf s.dev seg ∧ plLive x = true ∧ k < x.slots.length ∧ outsMute s.dev = false)) := by
  decide +kernel

/-- SegmentsRunTheirCycles, noPoll. -/
theorem test_witness_SegmentsRunTheirCycles_noPoll : let s : State := State.reset; let seg : Nat := 15; let k : Nat := 31; let x : Pl := plOf s.dev seg; ((seg < 16 ∧ k < 32 ∧ x = plOf s.dev seg ∧ ¬(plLive x = true ∧ k < x.slots.length ∧ outsMute s.dev = false))) := by
  decide +kernel

/-- SegmentsRunTheirCycles, accepted. -/
theorem test_witness_SegmentsRunTheirCycles_accepted : let bs : List W8 := plFrame 0 2 4 0 []; let s : State := wit (setPl r0 15 { pl0 with st := .running, sched := some { (default : PlSched) with ents := [{ (default : PlEnt) with replyOfs := 9 }] }, slots := [sl0] }); let seg : Nat := 15; let k : Nat := 0; let j : Nat := 9; let x : Pl := plOf s.dev seg; let y : SlS := slOf s.dev seg k; ((seg < 16 ∧ clocked s.dev = true ∧ x = plOf s.dev seg ∧ plLive x = true ∧ k < x.slots.length ∧ y = slOf s.dev seg k ∧ y.mute = false)) ∧ ((frValid true bs = true ∧ frType bs = 2 ∧ addrSlot x (frAddr bs) = some k ∧ inWin x (plEnt x k) j = true ∧ frSeq bs = rdN s.dev (PL_CYC_NUM seg) % 65536 ∧ frLen bs = (plEnt x k).inLen)) := by
  decide +kernel

/-- SegmentsRunTheirCycles, edge. -/
theorem test_witness_SegmentsRunTheirCycles_edge : let bs : List W8 := plFrame 0 2 4 0 []; let s : State := wit (setPl r0 15 { pl0 with st := .running, sched := some { (default : PlSched) with ents := [{ (default : PlEnt) with replyOfs := 9 }] }, slots := [{ sl0 with st := .active, edgeRun := 2 }] }); let seg : Nat := 15; let k : Nat := 0; let j : Nat := 10; let x : Pl := plOf s.dev seg; let y : SlS := slOf s.dev seg k; ((seg < 16 ∧ clocked s.dev = true ∧ x = plOf s.dev seg ∧ plLive x = true ∧ k < x.slots.length ∧ k < 32 ∧ y = slOf s.dev seg k)) ∧ ((frValid true bs = true ∧ frType bs = 2 ∧ addrSlot x (frAddr bs) = some k ∧ inWin x (plEnt x k) j = false)) := by
  decide +kernel

/-- SegmentsRunTheirCycles, corrupt. -/
theorem test_witness_SegmentsRunTheirCycles_corrupt : let bs : List W8 := []; let s : State := wit (setPl r0 15 { pl0 with st := .running }); let seg : Nat := 15; let j : Nat := 10; let x : Pl := plOf s.dev seg; ((seg < 16 ∧ clocked s.dev = true ∧ x = plOf s.dev seg ∧ plLive x = true ∧ winSlot x j = none)) := by
  decide +kernel

/-- SegmentsRunTheirCycles, unheard. -/
theorem test_witness_SegmentsRunTheirCycles_unheard : let bs : List W8 := []; let s : State := State.reset; let seg : Nat := 15; let j : Nat := 10; let good : Bool := true; let x : Pl := plOf s.dev seg; ((seg < 16 ∧ x = plOf s.dev seg ∧ plLive x = false)) := by
  decide +kernel

/-- SegmentsRunTheirCycles, window. -/
theorem test_witness_SegmentsRunTheirCycles_window : let s : State := wit (setPl r0 15 { pl0 with st := .running, sched := some { (default : PlSched) with acycLen := 9000 }, slots := [{ sl0 with st := .init }], resync := [0] }); let seg : Nat := 15; let x : Pl := plOf s.dev seg; let c : PlSched := { (default : PlSched) with acycLen := 9000 }; let ask : Bool := x.wait && decide (areqNs s.dev seg ≤ c.acycLen); let t1 : Nat := if ask then areqNs s.dev seg else 0; let rs : List (Nat × Nat) := x.resync.zipIdx.filter (fun e => decide (t1 + (e.2 + 1) * frameNs 4 ≤ c.acycLen)); let t2 : Nat := t1 + rs.length * frameNs 4; ((seg < 16 ∧ clocked s.dev = true ∧ x = plOf s.dev seg ∧ plLive x = true ∧ x.sched = some c)) ∧ ((ask = (x.wait && decide (areqNs s.dev seg ≤ c.acycLen)) ∧ t1 = (if ask then areqNs s.dev seg else 0))) ∧ ((rs = x.resync.zipIdx.filter (fun e => decide (t1 + (e.2 + 1) * frameNs 4 ≤ c.acycLen)) ∧ t2 = t1 + rs.length * frameNs 4)) := by
  decide +kernel

/-- SegmentsRunTheirCycles, noWindow. -/
theorem test_witness_SegmentsRunTheirCycles_noWindow : let s : State := State.reset; let seg : Nat := 15; let x : Pl := plOf s.dev seg; ((seg < 16 ∧ x = plOf s.dev seg ∧ (plLive x = false ∨ x.sched = none))) := by
  decide +kernel

/-- SegmentsRunTheirCycles, slots. -/
theorem test_witness_SegmentsRunTheirCycles_slots : let s : State := wit (setPl r0 15 { pl0 with st := .running, slots := [sl0, { sl0 with st := .active, edgeRun := 3 }] }); let seg : Nat := 15; let k : Nat := 1; let x : Pl := plOf s.dev seg; let y : SlS := slOf s.dev seg k; let lim : Nat := fld (rd s.dev (PL_CFG seg)) 15 8; ((seg < 16 ∧ clocked s.dev = true ∧ x = plOf s.dev seg ∧ plLive x = true ∧ k < x.slots.length ∧ k < 32 ∧ y = slOf s.dev seg k ∧ lim = fld (rd s.dev (PL_CFG seg)) 15 8)) := by
  decide +kernel

/-- SegmentsRunTheirCycles, measured. -/
theorem test_witness_SegmentsRunTheirCycles_measured : let s : State := wit (setPl r0 15 { pl0 with st := .running, slots := [sl0, { sl0 with asked := 1, answers := 3 }] }); let seg : Nat := 15; let k : Nat := 1; let dt : Nat := 2004; let x : Pl := plOf s.dev seg; let y : SlS := slOf s.dev seg k; let t : Int := y.sum + ((dt : Int) - 2000); ((seg < 16 ∧ k < 32 ∧ clocked s.dev = true ∧ x = plOf s.dev seg ∧ plLive x = true ∧ k < x.slots.length ∧ y = slOf s.dev seg k ∧ y.asked ≠ 0 ∧ t = y.sum + ((dt : Int) - 2000))) := by
  decide +kernel

/-- SegmentsRunTheirCycles, notAsked. -/
theorem test_witness_SegmentsRunTheirCycles_notAsked : let s : State := State.reset; let seg : Nat := 15; let k : Nat := 31; let dt : Nat := 0; ((seg < 16 ∧ k < 32 ∧ ((slOf s.dev seg k).asked = 0 ∨ plLive (plOf s.dev seg) = false))) := by
  decide +kernel

/-- SegmentsRunTheirCycles, answered. -/
theorem test_witness_SegmentsRunTheirCycles_answered : let s : State := wit (setPl r0 15 { pl0 with asked := true }); let seg : Nat := 15; let j : Nat := 2100; let good : Bool := true; let bs : List W8 := plFrame 3 4 0 0 [1, 2, 3, 4]; let x : Pl := plOf s.dev seg; ((seg < 16 ∧ clocked s.dev = true ∧ x = plOf s.dev seg ∧ x.asked = true ∧ 900 ≤ j + plGuard x / 2 ∧ j ≤ 2100 + plGuard x / 2)) := by
  decide +kernel

/-- SegmentsRunTheirCycles, notAwaited. -/
theorem test_witness_SegmentsRunTheirCycles_notAwaited : let s : State := State.reset; let seg : Nat := 15; let j : Nat := 0; let good : Bool := true; let bs : List W8 := []; let x : Pl := plOf s.dev seg; ((seg < 16 ∧ x = plOf s.dev seg ∧ (x.asked = false ∨ j + plGuard x / 2 < 900 ∨ 2100 + plGuard x / 2 < j))) := by
  decide +kernel

/-- SegmentsRunTheirCycles, timeout. -/
theorem test_witness_SegmentsRunTheirCycles_timeout : let s : State := wit (setPl r0 15 { pl0 with asked := true }); let seg : Nat := 15; let x : Pl := plOf s.dev seg; ((seg < 16 ∧ clocked s.dev = true ∧ x = plOf s.dev seg ∧ x.asked = true)) := by
  decide +kernel

/-- SegmentsRunTheirCycles, foreign. -/
theorem test_witness_SegmentsRunTheirCycles_foreign : let s : State := wit (setPl r0 15 { pl0 with st := .running }); let seg : Nat := 15; let x : Pl := plOf s.dev seg; ((seg < 16 ∧ clocked s.dev = true ∧ x = plOf s.dev seg ∧ (x.st = .listen ∨ x.st = .running))) := by
  decide +kernel

/-- SegmentsRunTheirCycles, syncCollides. -/
theorem test_witness_SegmentsRunTheirCycles_syncCollides : let s : State := wit (setPl r0 15 { pl0 with st := .running, cycles := 8, coll := 1 }); let seg : Nat := 15; let k : Nat := 0; let x : Pl := plOf s.dev seg; ((seg < 16 ∧ k < 32 ∧ clocked s.dev = true ∧ x = plOf s.dev seg ∧ x.st = .running ∧ x.cycles ≤ 8)) := by
  decide +kernel

/-- SegmentsRunTheirCycles, slotCollides. -/
theorem test_witness_SegmentsRunTheirCycles_slotCollides : let s : State := wit (setPl r0 15 { pl0 with st := .running, slots := [sl0] }); let seg : Nat := 15; let k : Nat := 0; let x : Pl := plOf s.dev seg; ((seg < 16 ∧ k < 32 ∧ clocked s.dev = true ∧ x = plOf s.dev seg ∧ plLive x = true ∧ k < x.slots.length)) := by
  decide +kernel

/-- SegmentsRunTheirCycles, activity. -/
theorem test_witness_SegmentsRunTheirCycles_activity : let s : State := wit (setPl r0 15 { pl0 with st := .listen }); let seg : Nat := 15; let x : Pl := plOf s.dev seg; ((seg < 16 ∧ clocked s.dev = true ∧ x = plOf s.dev seg)) := by
  decide +kernel

/-- SegmentsRunTheirCycles, silence. -/
theorem test_witness_SegmentsRunTheirCycles_silence : let s : State := wit (wr64 (setPl r0 15 { pl0 with st := .listen }) BP_CNT 200); let seg : Nat := 15; let x : Pl := plOf s.dev seg; ((seg < 16 ∧ clocked s.dev = true ∧ x = plOf s.dev seg ∧ x.st = .listen ∧ x.heardAt + 200 + 2 * fld (rd s.dev (PL_CFG seg)) 4 0 ≤ bp s.dev)) := by
  decide +kernel

/-- SegmentsRunTheirCycles, notSilent. -/
theorem test_witness_SegmentsRunTheirCycles_notSilent : let s : State := State.reset; let seg : Nat := 15; let x : Pl := plOf s.dev seg; ((seg < 16 ∧ x = plOf s.dev seg ∧ (x.st ≠ .listen ∨ bp s.dev < x.heardAt + 200 + 2 * fld (rd s.dev (PL_CFG seg)) 4 0))) := by
  decide +kernel

/-- SegmentsRunTheirCycles, storeError. -/
theorem test_witness_SegmentsRunTheirCycles_storeError : let s : State := wit (setPl r0 15 { pl0 with st := .running }); let seg : Nat := 15; let x : Pl := plOf s.dev seg; ((seg < 16 ∧ x = plOf s.dev seg)) := by
  decide +kernel

/-- ChannelsSendReceiveAndCompleteRequests, still. -/
theorem test_witness_ChannelsSendReceiveAndCompleteRequests_still : let s : State := wit { r0 with power := { r0.power with phase := .service } }; let x : Nat := 7; let code : Nat := 7; let fr : CanFrame := default; let eight : Bool := true; let c : Instr := .cxRecovered 7; ((x < 8 ∧ code < 8 ∧ clocked s.dev = false ∧ c ∈ [.cxTxStart x, .cxTxComplete x code, .cxRxFrame x fr, .cxBusError x eight, .cxIntegrated x, .cxRecovered x])) := by
  decide +kernel

/-- ChannelsSendReceiveAndCompleteRequests, start. -/
theorem test_witness_ChannelsSendReceiveAndCompleteRequests_start : let s : State := wit (wrN (wrN r0 (CX_CFG 7) 1) (CX_NBT 7) 0x00274000); let x : Nat := 7; ((x < 8 ∧ admits s.dev (.cx x) 0x10C = true ∧ (cxOf s.dev x).st = .stopped ∧ cxStartCause s.dev x = none)) := by
  decide +kernel

/-- ChannelsSendReceiveAndCompleteRequests, startRefused. -/
theorem test_witness_ChannelsSendReceiveAndCompleteRequests_startRefused : let s : State := State.reset; let x : Nat := 7; let code : Nat := 7; ((x < 8 ∧ admits s.dev (.cx x) 0x10C = true ∧ ((code = 0x0D01 ∧ (cxOf s.dev x).st ≠ .stopped) ∨ ((cxOf s.dev x).st = .stopped ∧ cxStartCause s.dev x = some code)))) := by
  decide +kernel

/-- ChannelsSendReceiveAndCompleteRequests, stop. -/
theorem test_witness_ChannelsSendReceiveAndCompleteRequests_stop : let s : State := wit (setCx r0 7 { cx0 with st := .active }); let x : Nat := 7; let c : Cx := cxOf s.dev x; ((x < 8 ∧ admits s.dev (.cx x) 0x10C = true ∧ c = cxOf s.dev x ∧ c.st ≠ .stopped)) := by
  decide +kernel

/-- ChannelsSendReceiveAndCompleteRequests, recover. -/
theorem test_witness_ChannelsSendReceiveAndCompleteRequests_recover : let s : State := wit (setCx r0 7 { cx0 with st := .busOff }); let x : Nat := 7; let c : Cx := cxOf s.dev x; ((x < 8 ∧ admits s.dev (.cx x) 0x10C = true ∧ c = cxOf s.dev x ∧ c.st = .busOff)) := by
  decide +kernel

/-- ChannelsSendReceiveAndCompleteRequests, notNow. -/
theorem test_witness_ChannelsSendReceiveAndCompleteRequests_notNow : let s : State := State.reset; let x : Nat := 7; let c : Instr := .cxRecover 7; ((x < 8 ∧ admits s.dev (.cx x) 0x10C = true ∧ ((c = .cxStop x ∧ (cxOf s.dev x).st = .stopped) ∨ (c = .cxRecover x ∧ (cxOf s.dev x).st ≠ .busOff)))) := by
  decide +kernel

/-- ChannelsSendReceiveAndCompleteRequests, flush. -/
theorem test_witness_ChannelsSendReceiveAndCompleteRequests_flush : let s : State := wit (setCx r0 7 { cx0 with st := .active }); let x : Nat := 7; let q : Nat := 3; let c : Cx := cxOf s.dev x; ((x < 8 ∧ q < 4 ∧ admits s.dev (.cx x) 0x10C = true ∧ c = cxOf s.dev x)) := by
  decide +kernel

/-- ChannelsSendReceiveAndCompleteRequests, post. -/
theorem test_witness_ChannelsSendReceiveAndCompleteRequests_post : let s : State := State.reset; let x : Nat := 7; let q : Nat := 3; let v : W32 := 1; ((x < 8 ∧ q < 4 ∧ admits s.dev (.cx x) (0x148 + 32 * q) = true)) := by
  decide +kernel

/-- ChannelsSendReceiveAndCompleteRequests, sends. -/
theorem test_witness_ChannelsSendReceiveAndCompleteRequests_sends : let s : State := wit (wrN (wrN (wrN { (setCx r0 7 { cx0 with st := .active }) with sram := [(5, 0), (6, 1)] } (CX_TQ_CFG 7 3) 1) (CX_TQ_POST 7 3) 1) (CX_CFG 7) 1); let x : Nat := 7; let q : Nat := 3; let c : Cx := cxOf s.dev x; ((x < 8 ∧ q < 4 ∧ clocked s.dev = true ∧ c = cxOf s.dev x ∧ (c.st = .active ∨ c.st = .passive) ∧ c.busy = none ∧ authoritative s.dev = true ∧ inHandover s.dev = false)) ∧ ((0 < tqOut s.dev x q ∧ (∀ r, r < q → tqOut s.dev x r = 0) ∧ txBad s.dev x q = false ∧ txExpired s.dev x q = false)) := by
  decide +kernel

/-- ChannelsSendReceiveAndCompleteRequests, sendsBad. -/
theorem test_witness_ChannelsSendReceiveAndCompleteRequests_sendsBad : let s : State := wit (wrN (wrN (setCx r0 7 { cx0 with st := .active }) (CX_TQ_CFG 7 3) 1) (CX_TQ_POST 7 3) 1); let x : Nat := 7; let q : Nat := 3; let c : Cx := cxOf s.dev x; ((x < 8 ∧ q < 4 ∧ clocked s.dev = true ∧ c = cxOf s.dev x ∧ (c.st = .active ∨ c.st = .passive) ∧ c.busy = none ∧ authoritative s.dev = true ∧ inHandover s.dev = false)) ∧ ((tqOut s.dev x q = 1 ∧ (∀ r, r < 4 → r ≠ q → tqOut s.dev x r = 0) ∧ (txBad s.dev x q = true ∨ txExpired s.dev x q = true))) := by
  decide +kernel

/-- ChannelsSendReceiveAndCompleteRequests, sendsNone. -/
theorem test_witness_ChannelsSendReceiveAndCompleteRequests_sendsNone : let s : State := State.reset; let x : Nat := 7; let c : Cx := cxOf s.dev x; ((x < 8 ∧ c = cxOf s.dev x ∧ (¬(c.st = .active ∨ c.st = .passive) ∨ c.busy ≠ none ∨ authoritative s.dev = false ∨ inHandover s.dev = true ∨ ∀ q, q < 4 → tqOut s.dev x q = 0))) := by
  decide +kernel

/-- ChannelsSendReceiveAndCompleteRequests, sent. -/
theorem test_witness_ChannelsSendReceiveAndCompleteRequests_sent : let s : State := wit (wrN (wrN (setCx r0 7 { cx0 with st := .active, busy := some (3, 0) }) (CX_TQ_CFG 7 3) 1) (CX_TQ_POST 7 3) 1); let x : Nat := 7; let q : Nat := 3; let code : Nat := 0; let at_ : Nat := 0; let c : Cx := cxOf s.dev x; let t : Nat := tecAfter c code; let n : Nat := tget 0 c.flush q; let st : CxSt := .active; ((x < 8 ∧ q < 4 ∧ code < 8 ∧ clocked s.dev = true ∧ c = cxOf s.dev x ∧ (c.st = .active ∨ c.st = .passive) ∧ c.busy = some (q, at_) ∧ t = tecAfter c code ∧ n = tget 0 c.flush q ∧ 1 + n ≤ tqOut s.dev x q)) ∧ (st = (if c.stopping then .stopped else if 255 < t then .busOff else if authoritative s.dev = false then .monitor else if 127 < t ∨ 127 < c.rec_ then .passive else .active)) := by
  decide +kernel

/-- ChannelsSendReceiveAndCompleteRequests, nothingSent. -/
theorem test_witness_ChannelsSendReceiveAndCompleteRequests_nothingSent : let s : State := State.reset; let x : Nat := 7; let code : Nat := 7; ((x < 8 ∧ code < 8 ∧ (cxOf s.dev x).busy = none)) := by
  decide +kernel

/-- ChannelsSendReceiveAndCompleteRequests, received. -/
theorem test_witness_ChannelsSendReceiveAndCompleteRequests_received : let s : State := wit (wrN (wrN (wrN (setCx r0 7 { cx0 with st := .active }) (CX_CFG 7) 1) (CX_FLT_CTL 7 63) 5) (CX_RQ_CFG 7 2) 1); let x : Nat := 7; let f : Nat := 63; let r : Nat := 2; let fr : CanFrame := { (default : CanFrame) with fmt := 1 }; let c : Cx := cxOf s.dev x; let stride : Nat := 96; ((x < 8 ∧ clocked s.dev = true ∧ c = cxOf s.dev x ∧ c.st ≠ .stopped ∧ fr.fmt ≤ cxProto s.dev x ∧ c.tec ≤ 255)) ∧ (((f < 64 ∧ fltMatch s.dev x f fr = true ∧ (∀ g, g < f → fltMatch s.dev x g fr = false) ∧ r = fld (rd s.dev (CX_FLT_CTL x f)) 2 1) ∨ ((∀ g, g < 64 → fltMatch s.dev x g fr = false) ∧ cxCatchAll s.dev x = true ∧ f = 255 ∧ r = 3))) ∧ ((bit (rd s.dev (CX_RQ_CFG x r)) 0 = true ∧ stride = strideOf (rd s.dev (CX_RQ_CFG x r)) ∧ 32 + fr.data.length ≤ stride ∧ rd s.dev (CX_RQ_CNT x r) - rd s.dev (CX_RQ_ACK x r) ≠ 64)) := by
  exact ⟨by decide +kernel, Or.inl (by decide +kernel), by decide +kernel⟩

/-- ChannelsSendReceiveAndCompleteRequests, notStored. -/
theorem test_witness_ChannelsSendReceiveAndCompleteRequests_notStored : let s : State := wit (wrN (setCx r0 7 { cx0 with st := .monitor }) (CX_CFG 7) 1); let x : Nat := 7; let fr : CanFrame := { (default : CanFrame) with fmt := 1 }; let c : Cx := cxOf s.dev x; ((x < 8 ∧ clocked s.dev = true ∧ c = cxOf s.dev x ∧ c.st ≠ .stopped ∧ c.st ≠ .active ∧ c.st ≠ .passive ∧ fr.fmt ≤ cxProto s.dev x)) ∧ (((∀ g, g < 64 → fltMatch s.dev x g fr = false) ∧ cxCatchAll s.dev x = false)) := by
  decide +kernel

/-- ChannelsSendReceiveAndCompleteRequests, notReceived. -/
theorem test_witness_ChannelsSendReceiveAndCompleteRequests_notReceived : let s : State := State.reset; let x : Nat := 7; let fr : CanFrame := default; let eight : Bool := true; let c : Instr := .cxBusError 7 true; ((x < 8 ∧ ((c = .cxRxFrame x fr ∧ ((cxOf s.dev x).st = .stopped ∨ cxProto s.dev x < fr.fmt)) ∨ (c = .cxBusError x eight ∧ (cxOf s.dev x).st = .stopped)))) := by
  decide +kernel

/-- ChannelsSendReceiveAndCompleteRequests, busError. -/
theorem test_witness_ChannelsSendReceiveAndCompleteRequests_busError : let s : State := wit (setCx r0 7 { cx0 with st := .active, rec_ := 120 }); let x : Nat := 7; let eight : Bool := true; let c : Cx := cxOf s.dev x; let t : Nat := 128; ((x < 8 ∧ clocked s.dev = true ∧ c = cxOf s.dev x ∧ c.st ≠ .stopped ∧ c.tec ≤ 255 ∧ t = min 128 (c.rec_ + if eight then 8 else 1))) := by
  decide +kernel

/-- ChannelsSendReceiveAndCompleteRequests, released. -/
theorem test_witness_ChannelsSendReceiveAndCompleteRequests_released : let s : State := State.reset; let x : Nat := 7; let r : Nat := 3; let n : Nat := 0; let v : W32 := 0; ((x < 8 ∧ r < 4 ∧ admits s.dev (.cx x) (0x1CC + 32 * r) = true ∧ n = (v - rd s.dev (CX_RQ_ACK x r)).toNat)) := by
  decide +kernel

/-- ChannelsSendReceiveAndCompleteRequests, integrated. -/
theorem test_witness_ChannelsSendReceiveAndCompleteRequests_integrated : let s : State := wit (setCx r0 7 { cx0 with st := .integrating }); let x : Nat := 7; let c : Cx := cxOf s.dev x; ((x < 8 ∧ clocked s.dev = true ∧ c = cxOf s.dev x ∧ c.st = .integrating ∧ c.tec ≤ 255)) := by
  decide +kernel

/-- ChannelsSendReceiveAndCompleteRequests, recovered. -/
theorem test_witness_ChannelsSendReceiveAndCompleteRequests_recovered : let s : State := wit (setCx r0 7 { cx0 with st := .recovering }); let x : Nat := 7; let c : Cx := cxOf s.dev x; ((x < 8 ∧ clocked s.dev = true ∧ c = cxOf s.dev x ∧ c.st = .recovering)) := by
  decide +kernel

/-- ChannelsSendReceiveAndCompleteRequests, otherState. -/
theorem test_witness_ChannelsSendReceiveAndCompleteRequests_otherState : let s : State := State.reset; let x : Nat := 7; let c : Instr := .cxRecovered 7; ((x < 8 ∧ ((c = .cxIntegrated x ∧ (cxOf s.dev x).st ≠ .integrating) ∨ (c = .cxRecovered x ∧ (cxOf s.dev x).st ≠ .recovering)))) := by
  decide +kernel

/-- TheTimeBaseIsSetSteeredAndSlewed, set. -/
theorem test_witness_TheTimeBaseIsSetSteeredAndSlewed_set : let s : State := State.reset; ((admits s.dev .tb 0x120 = true)) := by
  decide +kernel

/-- TheTimeBaseIsSetSteeredAndSlewed, setTakes. -/
theorem test_witness_TheTimeBaseIsSetSteeredAndSlewed_setTakes : let s : State := State.reset; let d : Dev := setTb s.dev { s.dev.tb with set := true }; ((d.tb.set = true ∧ d.tb.slew = none ∧ d.tb.pairStep = none)) := by
  decide +kernel

/-- TheTimeBaseIsSetSteeredAndSlewed, incWrite. -/
theorem test_witness_TheTimeBaseIsSetSteeredAndSlewed_incWrite : let s : State := State.reset; let v : W32 := 0x050051EB; ((admits s.dev .tb 0x108 = true ∧ ptpEn s.dev = false ∧ pairFollow s.dev = false ∧ 0x04FFAE15 ≤ v.toNat ∧ v.toNat ≤ 0x050051EB)) := by
  decide +kernel

/-- TheTimeBaseIsSetSteeredAndSlewed, incRefused. -/
theorem test_witness_TheTimeBaseIsSetSteeredAndSlewed_incRefused : let s : State := State.reset; let v : W32 := 0x050051EC; let code : Nat := 5; ((admits s.dev .tb 0x108 = true ∧ (((ptpEn s.dev = true ∨ pairFollow s.dev = true) ∧ code = 6) ∨ (ptpEn s.dev = false ∧ pairFollow s.dev = false ∧ (v.toNat < 0x04FFAE15 ∨ 0x050051EB < v.toNat) ∧ code = 5)))) := by
  decide +kernel

/-- TheTimeBaseIsSetSteeredAndSlewed, incRefused. -/
theorem test_witness_TheTimeBaseIsSetSteeredAndSlewed_incRefused2 : let s : State := wit (wrN r0 TB_CFG 0x640001); let v : W32 := 0x05000000; let code : Nat := 6; ((admits s.dev .tb 0x108 = true ∧ (((ptpEn s.dev = true ∨ pairFollow s.dev = true) ∧ code = 6) ∨ (ptpEn s.dev = false ∧ pairFollow s.dev = false ∧ (v.toNat < 0x04FFAE15 ∨ 0x050051EB < v.toNat) ∧ code = 5)))) := by
  decide +kernel

/-- TheTimeBaseIsSetSteeredAndSlewed, selRefused. -/
theorem test_witness_TheTimeBaseIsSetSteeredAndSlewed_selRefused : let s : State := wit (wrN r0 TB_CFG 0x640001); let v : W32 := 0x630001; let same : Bool := false; let code : Nat := 6; ((admits s.dev .tb 0x110 = true ∧ same = (!(ptpEn s.dev && bit v 0) || (v &&& 0x7F0018) == (rd s.dev TB_CFG &&& 0x7F0018)))) ∧ (((same = false ∧ code = 6) ∨ (same = true ∧ fld v 22 16 = 0 ∧ code = 7) ∨ (same = true ∧ 100 < fld v 22 16 ∧ code = 5) ∨ (same = true ∧ 1 ≤ fld v 22 16 ∧ fld v 22 16 ≤ 100 ∧ bit v 0 = true ∧ bit v 3 = false ∧ rdBit s.dev CLK_CTRL 0 = false ∧ code = 0x0E01))) := by
  decide +kernel

/-- TheTimeBaseIsSetSteeredAndSlewed, selRefused. -/
theorem test_witness_TheTimeBaseIsSetSteeredAndSlewed_selRefused2 : let s : State := State.reset; let v : W32 := 1; let same : Bool := true; let code : Nat := 7; ((admits s.dev .tb 0x110 = true ∧ same = (!(ptpEn s.dev && bit v 0) || (v &&& 0x7F0018) == (rd s.dev TB_CFG &&& 0x7F0018)))) ∧ (((same = false ∧ code = 6) ∨ (same = true ∧ fld v 22 16 = 0 ∧ code = 7) ∨ (same = true ∧ 100 < fld v 22 16 ∧ code = 5) ∨ (same = true ∧ 1 ≤ fld v 22 16 ∧ fld v 22 16 ≤ 100 ∧ bit v 0 = true ∧ bit v 3 = false ∧ rdBit s.dev CLK_CTRL 0 = false ∧ code = 0x0E01))) := by
  decide +kernel

/-- TheTimeBaseIsSetSteeredAndSlewed, selRefused. -/
theorem test_witness_TheTimeBaseIsSetSteeredAndSlewed_selRefused3 : let s : State := State.reset; let v : W32 := 0x650001; let same : Bool := true; let code : Nat := 5; ((admits s.dev .tb 0x110 = true ∧ same = (!(ptpEn s.dev && bit v 0) || (v &&& 0x7F0018) == (rd s.dev TB_CFG &&& 0x7F0018)))) ∧ (((same = false ∧ code = 6) ∨ (same = true ∧ fld v 22 16 = 0 ∧ code = 7) ∨ (same = true ∧ 100 < fld v 22 16 ∧ code = 5) ∨ (same = true ∧ 1 ≤ fld v 22 16 ∧ fld v 22 16 ≤ 100 ∧ bit v 0 = true ∧ bit v 3 = false ∧ rdBit s.dev CLK_CTRL 0 = false ∧ code = 0x0E01))) := by
  decide +kernel

/-- TheTimeBaseIsSetSteeredAndSlewed, selRefused. -/
theorem test_witness_TheTimeBaseIsSetSteeredAndSlewed_selRefused4 : let s : State := wit (wrN r0 CLK_CTRL 0); let v : W32 := 0x640001; let same : Bool := true; let code : Nat := 0x0E01; ((admits s.dev .tb 0x110 = true ∧ same = (!(ptpEn s.dev && bit v 0) || (v &&& 0x7F0018) == (rd s.dev TB_CFG &&& 0x7F0018)))) ∧ (((same = false ∧ code = 6) ∨ (same = true ∧ fld v 22 16 = 0 ∧ code = 7) ∨ (same = true ∧ 100 < fld v 22 16 ∧ code = 5) ∨ (same = true ∧ 1 ≤ fld v 22 16 ∧ fld v 22 16 ≤ 100 ∧ bit v 0 = true ∧ bit v 3 = false ∧ rdBit s.dev CLK_CTRL 0 = false ∧ code = 0x0E01))) := by
  decide +kernel

/-- TheTimeBaseIsSetSteeredAndSlewed, selSwitches. -/
theorem test_witness_TheTimeBaseIsSetSteeredAndSlewed_selSwitches : let s : State := wit (wrN (wrN r0 TB_CFG 0x640001) CLK_CTRL 1); let v : W32 := 0x640003; let k : Nat := 1; ((admits s.dev .tb 0x110 = true ∧ ptpEn s.dev = true ∧ bit v 0 = true ∧ (v &&& 0x7F0018) = (rd s.dev TB_CFG &&& 0x7F0018) ∧ 1 ≤ fld v 22 16 ∧ fld v 22 16 ≤ 100)) ∧ (((bit v 3 = true ∨ rdBit s.dev CLK_CTRL 0 = true) ∧ k = fld v 1 1 ∧ k ≠ tbSelAct s.dev ∧ pairFollow s.dev = false)) := by
  decide +kernel

/-- TheTimeBaseIsSetSteeredAndSlewed, selStays. -/
theorem test_witness_TheTimeBaseIsSetSteeredAndSlewed_selStays : let s : State := wit (wrN r0 CLK_CTRL 1); let v : W32 := 0x640003; ((admits s.dev .tb 0x110 = true ∧ (!(ptpEn s.dev && bit v 0) || (v &&& 0x7F0018) == (rd s.dev TB_CFG &&& 0x7F0018)) = true ∧ 1 ≤ fld v 22 16 ∧ fld v 22 16 ≤ 100)) ∧ (((bit v 0 = false ∨ bit v 3 = true ∨ rdBit s.dev CLK_CTRL 0 = true) ∧ (ptpEn s.dev = false ∨ bit v 0 = false ∨ fld v 1 1 = tbSelAct s.dev) ∧ pairFollow s.dev = false)) := by
  decide +kernel

/-- TheTimeBaseIsSetSteeredAndSlewed, selStays. -/
theorem test_witness_TheTimeBaseIsSetSteeredAndSlewed_selStays2 : let s : State := wit (wrN r0 TB_CFG 0x640001); let v : W32 := 0x640002; ((admits s.dev .tb 0x110 = true ∧ (!(ptpEn s.dev && bit v 0) || (v &&& 0x7F0018) == (rd s.dev TB_CFG &&& 0x7F0018)) = true ∧ 1 ≤ fld v 22 16 ∧ fld v 22 16 ≤ 100)) ∧ (((bit v 0 = false ∨ bit v 3 = true ∨ rdBit s.dev CLK_CTRL 0 = true) ∧ (ptpEn s.dev = false ∨ bit v 0 = false ∨ fld v 1 1 = tbSelAct s.dev) ∧ pairFollow s.dev = false)) := by
  decide +kernel

/-- TheTimeBaseIsSetSteeredAndSlewed, event. -/
theorem test_witness_TheTimeBaseIsSetSteeredAndSlewed_event : let s : State := wit (wrN r0 TB_CFG 0x640001); let n : Nat := 3; let tx : Bool := true; let seq : Nat := 65535; let typ : Nat := 15; let dn : Nat := 255; let cnt : Nat := ETH_PTP_TX_CNT 3; let ack : Nat := ETH_PTP_TX_ACK 3; let info : Nat := ETH_PTP_TX_INFO 3; ((clocked s.dev = true ∧ n < 4 ∧ seq < 65536 ∧ typ < 16 ∧ dn < 256 ∧ ptpEn s.dev = true)) ∧ (((tx = true ∧ cnt = ETH_PTP_TX_CNT n ∧ ack = ETH_PTP_TX_ACK n ∧ info = ETH_PTP_TX_INFO n) ∨ (tx = false ∧ cnt = ETH_PTP_RX_CNT n ∧ ack = ETH_PTP_RX_ACK n ∧ info = ETH_PTP_RX_INFO n))) := by
  decide +kernel

/-- TheTimeBaseIsSetSteeredAndSlewed, off. -/
theorem test_witness_TheTimeBaseIsSetSteeredAndSlewed_off : let s : State := State.reset; let n : Nat := 3; let tx : Bool := false; let seq : Nat := 65535; let typ : Nat := 15; let dn : Nat := 255; let k : Nat := 1; let m : PtpMsg := default; let c : Instr := .ptpEventFrame n tx seq typ dn; ((n < 4 ∧ seq < 65536 ∧ typ < 16 ∧ dn < 256 ∧ k < 2 ∧ (clocked s.dev = false ∨ ptpEn s.dev = false ∨ domEn s.dev k = false))) ∧ ((c ∈ [.ptpMessageReceive k m, .announceTimeout k, .syncTimeout k] ∨ (c = .ptpEventFrame n tx seq typ dn ∧ (clocked s.dev = false ∨ ptpEn s.dev = false)))) := by
  decide +kernel

/-- TheTimeBaseIsSetSteeredAndSlewed, announce. -/
theorem test_witness_TheTimeBaseIsSetSteeredAndSlewed_announce : let s : State := wit (wrN (wrN r0 TB_CFG 0x640001) (TB_DOM_CFG 1) 0x1000); let k : Nat := 1; let m : PtpMsg := default; ((clocked s.dev = true ∧ k < 2 ∧ ptpEn s.dev = true ∧ domEn s.dev k = true ∧ m.sync = false)) := by
  decide +kernel

/-- TheTimeBaseIsSetSteeredAndSlewed, sync. -/
theorem test_witness_TheTimeBaseIsSetSteeredAndSlewed_sync : let s : State := wit (wrN (wrN r0 TB_CFG 0x640001) (TB_DOM_CFG 1) 0x1000); let k : Nat := 1; let m : PtpMsg := { (default : PtpMsg) with sync := true, offset := -5 }; let run : Nat := 1; let now : Bool := false; ((clocked s.dev = true ∧ k < 2 ∧ ptpEn s.dev = true ∧ domEn s.dev k = true ∧ m.sync = true ∧ (k ≠ tbSelAct s.dev ∨ pairFollow s.dev = true ∨ (domOf s.dev k).hoAnn = true))) ∧ ((run = (if (lockError s.dev k m).natAbs ≤ 100 then (domOf s.dev k).run + 1 else 0) ∧ now = (if (lockError s.dev k m).natAbs ≤ 100 ∧ 16 ≤ run then true else if 1000 < (lockError s.dev k m).natAbs then false else domLocked s.dev k))) := by
  decide +kernel

/-- TheTimeBaseIsSetSteeredAndSlewed, syncSteers. -/
theorem test_witness_TheTimeBaseIsSetSteeredAndSlewed_syncSteers : let s : State := wit (wrN (wrN r0 TB_CFG 0x640011) (TB_DOM_CFG 0) 0x1000); let k : Nat := 0; let m : PtpMsg := { (default : PtpMsg) with sync := true, offset := -5 }; let run : Nat := 1; let now : Bool := false; let acq : Bool := false; ((clocked s.dev = true ∧ k < 2 ∧ ptpEn s.dev = true ∧ domEn s.dev k = true ∧ m.sync = true ∧ k = tbSelAct s.dev ∧ pairFollow s.dev = false ∧ (domOf s.dev k).hoAnn = false)) ∧ ((run = (if (lockError s.dev k m).natAbs ≤ 100 then (domOf s.dev k).run + 1 else 0) ∧ now = (if (lockError s.dev k m).natAbs ≤ 100 ∧ 16 ≤ run then true else if 1000 < (lockError s.dev k m).natAbs then false else domLocked s.dev k))) ∧ ((acq = (now && !domLocked s.dev k && rdBit s.dev TB_CFG 4 && (!rdBit s.dev TB_STAT 2 || (s.dev.tb.vinResume && decide (1000000 < m.offset.natAbs)))))) := by
  decide +kernel

/-- TheTimeBaseIsSetSteeredAndSlewed, syncSteers. -/
theorem test_witness_TheTimeBaseIsSetSteeredAndSlewed_syncSteers2 : let s : State := wit (setDom (wrN (wrN r0 TB_CFG 0x640011) (TB_DOM_CFG 0) 0x1000) 0 { dom0 with run := 15 }); let k : Nat := 0; let m : PtpMsg := { (default : PtpMsg) with sync := true, offset := -5 }; let run : Nat := 16; let now : Bool := true; let acq : Bool := true; ((clocked s.dev = true ∧ k < 2 ∧ ptpEn s.dev = true ∧ domEn s.dev k = true ∧ m.sync = true ∧ k = tbSelAct s.dev ∧ pairFollow s.dev = false ∧ (domOf s.dev k).hoAnn = false)) ∧ ((run = (if (lockError s.dev k m).natAbs ≤ 100 then (domOf s.dev k).run + 1 else 0) ∧ now = (if (lockError s.dev k m).natAbs ≤ 100 ∧ 16 ≤ run then true else if 1000 < (lockError s.dev k m).natAbs then false else domLocked s.dev k))) ∧ ((acq = (now && !domLocked s.dev k && rdBit s.dev TB_CFG 4 && (!rdBit s.dev TB_STAT 2 || (s.dev.tb.vinResume && decide (1000000 < m.offset.natAbs)))))) := by
  decide +kernel

/-- TheTimeBaseIsSetSteeredAndSlewed, timeout. -/
theorem test_witness_TheTimeBaseIsSetSteeredAndSlewed_timeout : let s : State := wit (wrN (wrN r0 TB_CFG 0x640001) (TB_DOM_CFG 0) 0x1000); let k : Nat := 0; let c : Instr := .syncTimeout 0; let x : Dom := { domOf s.dev k with hoSync := true }; ((clocked s.dev = true ∧ k < 2 ∧ ptpEn s.dev = true ∧ domEn s.dev k = true ∧ ((c = .announceTimeout k ∧ x = { domOf s.dev k with hoAnn := true }) ∨ (c = .syncTimeout k ∧ x = { domOf s.dev k with hoSync := true })))) := by
  decide +kernel

/-- TheTimeBaseIsSetSteeredAndSlewed, auto. -/
theorem test_witness_TheTimeBaseIsSetSteeredAndSlewed_auto : let s : State := wit (wrN (wrN (wrN (wrN (wr64 r0 PWR_OPT_MS 1000) TB_CFG 0x640005) (TB_DOM_STAT 0) 0x20) (TB_DOM_CFG 1) 0x1000) (TB_DOM_STAT 1) 0x10); let k : Nat := 0; let due : Bool := true; ((clocked s.dev = true ∧ k = tbSelAct s.dev ∧ due = (ptpEn s.dev && rdBit s.dev TB_CFG 2 && domHold s.dev k && decide ((domOf s.dev k).holdAt + 1000 ≤ optMs s.dev) && domEn s.dev (1 - k) && domLocked s.dev (1 - k)))) ∧ ((pairFollow s.dev = false)) := by
  decide +kernel

/-- TheTimeBaseIsSetSteeredAndSlewed, slewDone. -/
theorem test_witness_TheTimeBaseIsSetSteeredAndSlewed_slewDone : let s : State := wit (setTb r0 { tb0 with slew := some 16777215, phase := 8388 }); let r : Int := 16777215; ((s.dev.tb.slew = some r)) := by
  decide +kernel

/-- TheTimeBaseIsSetSteeredAndSlewed, slewNone. -/
theorem test_witness_TheTimeBaseIsSetSteeredAndSlewed_slewNone : let s : State := State.reset; ((s.dev.tb.slew = none)) := by
  decide +kernel

/-- EthernetPortsSendReceiveAndGate, still. -/
theorem test_witness_EthernetPortsSendReceiveAndGate_still : let s : State := wit { r0 with power := { r0.power with phase := .service } }; let n : Nat := 3; let q : Nat := 3; let speed : Nat := 0; let i : Nat := 0; let b : Bool := true; let bs : List W8 := []; let c : Instr := .gclEntryChange 3; ((n < 4 ∧ q < 4 ∧ clocked s.dev = false ∧ c ∈ [.ethTxComplete n q b, .ethRxFrame n bs b, .gclCycleStart n, .gclEntryChange n])) := by
  decide +kernel

/-- EthernetPortsSendReceiveAndGate, post. -/
theorem test_witness_EthernetPortsSendReceiveAndGate_post : let s : State := State.reset; let n : Nat := 3; let q : Nat := 3; let v : W32 := 1; ((n < 4 ∧ q < 4 ∧ admits s.dev (.eth n) (0x148 + 32 * q) = true)) := by
  decide +kernel

/-- EthernetPortsSendReceiveAndGate, sent. -/
theorem test_witness_EthernetPortsSendReceiveAndGate_sent : let s : State := wit (wrN (wrN (wrN (wrN { r0 with sram := [(0, 1)] } (ETH_TQ_CFG 3 3) 1) (ETH_TQ_POST 3 3) 1) (ETH_CFG 3) 0x107) (ETH_STAT 3) 1); let n : Nat := 3; let q : Nat := 3; let bs : List W8 := [0]; let x : Eth := { eth0 with sent := [List.replicate 60 0] }; ((n < 4 ∧ q < 4 ∧ clocked s.dev = true ∧ 0 < etqOut s.dev n q ∧ etqDead s.dev n q = none ∧ (gates s.dev n).testBit (sramNum s.dev (etqHead s.dev n q + 2) 1 % 8) = true)) ∧ ((bs = mbytes s.dev.sram (etqHead s.dev n q + 16) (sramNum s.dev (etqHead s.dev n q) 2) ∧ x = { ethOf s.dev n with sent := (ethOf s.dev n).sent ++ [bs ++ List.replicate (60 - bs.length) 0] })) := by
  decide +kernel

/-- EthernetPortsSendReceiveAndGate, overrun. -/
theorem test_witness_EthernetPortsSendReceiveAndGate_overrun : let s : State := wit (setEth (wrN (wrN (wrN (wrN { r0 with sram := [(0, 1)] } (ETH_TQ_CFG 3 3) 1) (ETH_TQ_POST 3 3) 1) (ETH_CFG 3) 0x307) (ETH_STAT 3) 1) 3 { eth0 with oper := some ⟨0, 1000, []⟩ }); let n : Nat := 3; let q : Nat := 3; ((n < 4 ∧ q < 4 ∧ clocked s.dev = true ∧ 0 < etqOut s.dev n q ∧ etqDead s.dev n q = none ∧ gclEn s.dev n = true ∧ (ethOf s.dev n).oper.isSome = true)) := by
  decide +kernel

/-- EthernetPortsSendReceiveAndGate, unsent. -/
theorem test_witness_EthernetPortsSendReceiveAndGate_unsent : let s : State := State.reset; let n : Nat := 3; let q : Nat := 3; let b : Bool := true; ((n < 4 ∧ q < 4 ∧ (etqOut s.dev n q = 0 ∨ (etqDead s.dev n q).isSome = true ∨ (b = true ∧ (gclEn s.dev n = false ∨ (ethOf s.dev n).oper = none)) ∨ (b = false ∧ (gates s.dev n).testBit (sramNum s.dev (etqHead s.dev n q + 2) 1 % 8) = false)))) := by
  decide +kernel

/-- EthernetPortsSendReceiveAndGate, deaf. -/
theorem test_witness_EthernetPortsSendReceiveAndGate_deaf : let s : State := State.reset; let n : Nat := 3; let bs : List W8 := []; let b : Bool := true; ((n < 4 ∧ (ethEn s.dev n = false ∨ ethLink s.dev n = false))) := by
  decide +kernel

/-- EthernetPortsSendReceiveAndGate, bad. -/
theorem test_witness_EthernetPortsSendReceiveAndGate_bad : let s : State := wit (wrN (wrN r0 (ETH_CFG 3) 0x107) (ETH_STAT 3) 1); let n : Nat := 3; let bs : List W8 := []; let b : Bool := false; ((n < 4 ∧ clocked s.dev = true ∧ ethEn s.dev n = true ∧ ethLink s.dev n = true ∧ (b = true ∨ bs.length < 60 ∨ 2044 < bs.length))) := by
  decide +kernel

/-- EthernetPortsSendReceiveAndGate, received. -/
theorem test_witness_EthernetPortsSendReceiveAndGate_received : let s : State := wit (wrN (wrN r0 (ETH_CFG 3) 0x107) (ETH_STAT 3) 1); let n : Nat := 3; let bs : List W8 := List.replicate 60 0; let plain : List W8 := bs; let o : Nat := 12; let tci : Nat := 0; let r : Nat := 0; let m : Dev := s.dev; ((n < 4 ∧ clocked s.dev = true ∧ ethEn s.dev n = true ∧ ethLink s.dev n = true ∧ 60 ≤ bs.length ∧ bs.length ≤ 2044)) ∧ (((o, tci, r) = (if beNum bs 12 2 = 0x8100 then (16, beNum bs 14 2, fld (rd s.dev (ETH_RXMAP n)) (2 * (beNum bs 14 2 / 8192) + 1) (2 * (beNum bs 14 2 / 8192))) else (12, 0, 0)))) ∧ (((beNum bs o 2 ≠ 0xF1C1 ∧ plain = bs ∧ m = s.dev) ∨ (beNum bs o 2 = 0xF1C1 ∧ plain = bs.take o ++ bs.drop (o + 6) ∧ cbRecover s.dev n (beNum bs 6 6) (beNum bs 0 6) (tci % 4096) (beNum bs (o + 4) 2) = (m, true)))) := by
  decide +kernel

/-- EthernetPortsSendReceiveAndGate, received. -/
theorem test_witness_EthernetPortsSendReceiveAndGate_received2 : let s : State := wit (wrN (wrN r0 (ETH_CFG 3) 0x107) (ETH_STAT 3) 1); let n : Nat := 3; let bs : List W8 := List.replicate 12 0 ++ [0x81, 0, 0, 0, 0xF1, 0xC1] ++ List.replicate 42 0; let plain : List W8 := List.replicate 12 0 ++ [0x81, 0, 0, 0] ++ List.replicate 38 0; let o : Nat := 16; let tci : Nat := 0; let r : Nat := 0; let m : Dev := setEth s.dev 3 { eth0 with streams := [⟨0, 0, 0, 0, 1, 0⟩] }; ((n < 4 ∧ clocked s.dev = true ∧ ethEn s.dev n = true ∧ ethLink s.dev n = true ∧ 60 ≤ bs.length ∧ bs.length ≤ 2044)) ∧ (((o, tci, r) = (if beNum bs 12 2 = 0x8100 then (16, beNum bs 14 2, fld (rd s.dev (ETH_RXMAP n)) (2 * (beNum bs 14 2 / 8192) + 1) (2 * (beNum bs 14 2 / 8192))) else (12, 0, 0)))) ∧ (((beNum bs o 2 ≠ 0xF1C1 ∧ plain = bs ∧ m = s.dev) ∨ (beNum bs o 2 = 0xF1C1 ∧ plain = bs.take o ++ bs.drop (o + 6) ∧ cbRecover s.dev n (beNum bs 6 6) (beNum bs 0 6) (tci % 4096) (beNum bs (o + 4) 2) = (m, true)))) := by
  decide +kernel

/-- EthernetPortsSendReceiveAndGate, eliminated. -/
theorem test_witness_EthernetPortsSendReceiveAndGate_eliminated : let s : State := wit (setEth (wrN (wrN r0 (ETH_CFG 3) 0x107) (ETH_STAT 3) 1) 3 { eth0 with streams := [⟨0, 0, 0, 0, 1, 0⟩] }); let n : Nat := 3; let bs : List W8 := List.replicate 12 0 ++ [0xF1, 0xC1] ++ List.replicate 46 0; let o : Nat := 12; let tci : Nat := 0; let m : Dev := setEth s.dev 3 { eth0 with streams := [⟨0, 0, 0, 0, 1, 0⟩] }; ((n < 4 ∧ clocked s.dev = true ∧ ethEn s.dev n = true ∧ ethLink s.dev n = true ∧ 60 ≤ bs.length ∧ bs.length ≤ 2044 ∧ (o, tci) = (if beNum bs 12 2 = 0x8100 then (16, beNum bs 14 2) else (12, 0)))) ∧ ((beNum bs o 2 = 0xF1C1 ∧ beNum (bs.take o ++ bs.drop (o + 6)) o 2 ≠ 0x8808 ∧ cbRecover s.dev n (beNum bs 6 6) (beNum bs 0 6) (tci % 4096) (beNum bs (o + 4) 2) = (m, false))) := by
  decide +kernel

/-- EthernetPortsSendReceiveAndGate, recovery. -/
theorem test_witness_EthernetPortsSendReceiveAndGate_recovery : let s : State := State.reset; let n : Nat := 3; let src : Nat := 0; let dst : Nat := 0; let vid : Nat := 0; let seq : Nat := 65535; let live : List CbStream := []; ((live = (ethOf s.dev n).streams.filter (fun t => decide (optMs s.dev < t.last + rdN s.dev (ETH_CB_RESET n))))) := by
  decide +kernel

/-- EthernetPortsSendReceiveAndGate, released. -/
theorem test_witness_EthernetPortsSendReceiveAndGate_released : let s : State := wit (wrN r0 (ETH_RQ_CNT 3 3) 1); let n : Nat := 3; let r : Nat := 3; let v : W32 := 1; let k : Nat := 1; ((n < 4 ∧ r < 4 ∧ admits s.dev (.eth n) (0x1CC + 32 * r) = true ∧ k = (v - rd s.dev (ETH_RQ_ACK n r)).toNat)) := by
  decide +kernel

/-- EthernetPortsSendReceiveAndGate, commit. -/
theorem test_witness_EthernetPortsSendReceiveAndGate_commit : let s : State := wit (wrN (wrN r0 (ETH_GCL_LEN 3) 1) (ETH_GCL_CYCLE 3) 1000); let n : Nat := 3; let g : Gcl := ⟨0, 1000, [(0, 0)]⟩; ((n < 4 ∧ admits s.dev (.eth n) 0x310 = true ∧ rdN s.dev (ETH_GCL_LEN n) ≠ 0 ∧ rdN s.dev (ETH_GCL_CYCLE n) ≠ 0)) ∧ ((g = ⟨rd64 s.dev (ETH_GCL_BASE n), rdN s.dev (ETH_GCL_CYCLE n), (List.range (rdN s.dev (ETH_GCL_LEN n))).map (fun i => (fld (rd s.dev (ETH_GCL n i)) 7 0, fld (rd s.dev (ETH_GCL n i)) 31 8))⟩)) := by
  decide +kernel

/-- EthernetPortsSendReceiveAndGate, commitRefused. -/
theorem test_witness_EthernetPortsSendReceiveAndGate_commitRefused : let s : State := State.reset; let n : Nat := 3; ((n < 4 ∧ admits s.dev (.eth n) 0x310 = true ∧ (rdN s.dev (ETH_GCL_LEN n) = 0 ∨ rdN s.dev (ETH_GCL_CYCLE n) = 0))) := by
  decide +kernel

/-- EthernetPortsSendReceiveAndGate, cycle. -/
theorem test_witness_EthernetPortsSendReceiveAndGate_cycle : let s : State := wit (setEth (wr64 r0 TB_NS 2000) 3 { eth0 with pend := some ⟨2000, 1000, []⟩ }); let n : Nat := 3; let x : Eth := ethOf s.dev 3; ((n < 4 ∧ clocked s.dev = true ∧ x = ethOf s.dev n)) := by
  decide +kernel

/-- EthernetPortsSendReceiveAndGate, entry. -/
theorem test_witness_EthernetPortsSendReceiveAndGate_entry : let s : State := wit (setEth r0 3 { eth0 with oper := some ⟨0, 1000, [(1, 500), (2, 500)]⟩ }); let n : Nat := 3; let x : Eth := ethOf s.dev 3; let g : Gcl := ⟨0, 1000, [(1, 500), (2, 500)]⟩; ((n < 4 ∧ clocked s.dev = true ∧ x = ethOf s.dev n ∧ x.oper = some g)) := by
  decide +kernel

/-- EthernetPortsSendReceiveAndGate, noList. -/
theorem test_witness_EthernetPortsSendReceiveAndGate_noList : let s : State := State.reset; let n : Nat := 3; ((n < 4 ∧ (ethOf s.dev n).oper = none)) := by
  decide +kernel

/-- EthernetPortsSendReceiveAndGate, linkUp. -/
theorem test_witness_EthernetPortsSendReceiveAndGate_linkUp : let s : State := wit (wrN r0 (ETH_CFG 3) 0x104); let n : Nat := 3; let speed : Nat := 3; ((n < 4 ∧ 1 ≤ speed ∧ speed ≤ 3)) := by
  decide +kernel

/-- EthernetPortsSendReceiveAndGate, linkDown. -/
theorem test_witness_EthernetPortsSendReceiveAndGate_linkDown : let s : State := State.reset; let n : Nat := 3; ((n < 4)) := by
  decide +kernel

/-- EthernetPortsSendReceiveAndGate, silent. -/
theorem test_witness_EthernetPortsSendReceiveAndGate_silent : let s : State := wit (setEth (wr64 r0 PWR_OPT_MS 0xFFFFFFFF) 3 { eth0 with streams := [⟨0, 0, 0, 0, 1, 0⟩] }); let n : Nat := 3; let i : Nat := 0; let t : CbStream := ⟨0, 0, 0, 0, 1, 0⟩; ((n < 4 ∧ i < 64 ∧ (ethOf s.dev n).streams[i]? = some t)) := by
  decide +kernel

/-- EthernetPortsSendReceiveAndGate, noStream. -/
theorem test_witness_EthernetPortsSendReceiveAndGate_noStream : let s : State := State.reset; let n : Nat := 3; let i : Nat := 63; ((n < 4 ∧ i < 64 ∧ (ethOf s.dev n).streams[i]? = none)) := by
  decide +kernel

/-- RecordsAreStagedAndTheTraceRuns, report. -/
theorem test_witness_RecordsAreStagedAndTheTraceRuns_report : let s : State := State.reset; let typ : Nat := 0x0070; let src : Nat := 4095; let pay : List W32 := []; let b : DbBody := bodyNow s.dev 0x0070 12 4095 []; ((typ < 65536 ∧ src < 4096 ∧ pay.length ≤ 250 ∧ s.dev.db.supp = [] ∧ b = bodyNow s.dev typ (sevOf typ) src pay)) := by
  decide +kernel

/-- RecordsAreStagedAndTheTraceRuns, commit. -/
theorem test_witness_RecordsAreStagedAndTheTraceRuns_commit : let s : State := wit { r0 with db := { r0.db with staging := [.record (bodyNow r0 1 2 3 [])], writerUp := true } }; let b : DbBody := bodyNow r0 1 2 3 []; let t : List DbEntry := []; let seq : Nat := 1; let p : Nat := 0x40; let bs : List W8 := recBytes b 1 r0.db.firstSeq; let kept : List DbRec := []; ((s.dev.db.staging = .record b :: t ∧ s.dev.db.writerUp = true ∧ s.dev.db.supp = [] ∧ seq = (rdN s.dev DB_SEQ + 1) % 2 ^ 32 ∧ bs = recBytes b seq s.dev.db.firstSeq)) ∧ ((p = (if runEnd < rdN s.dev DB_RUN_HEAD + bs.length + 4 then 0x40 else rdN s.dev DB_RUN_HEAD) ∧ kept = discardTail p (bs.length + 4) s.dev.db.running)) := by
  decide +kernel

/-- RecordsAreStagedAndTheTraceRuns, clear. -/
theorem test_witness_RecordsAreStagedAndTheTraceRuns_clear : let s : State := wit { r0 with db := { r0.db with staging := [.clear 1 0 0 0], writerUp := true } }; let g : Nat := 1; let k : Nat := 0; let q : Nat := 0; let seq : Nat := 1; let r : W32 := 0; let t : List DbEntry := []; let pay : List W32 := [0, 1, 0, 0, 0, 0, 0, 0, 0, 0]; let bs : List W8 := recBytes (bodyNow r0 0x0F01 6 0x202 pay) 1 r0.db.firstSeq; ((s.dev.db.staging = .clear g k r q :: t ∧ s.dev.db.writerUp = true ∧ seq = (rdN s.dev DB_SEQ + 1) % 2 ^ 32 ∧ bs.length + 0x44 ≤ runEnd)) ∧ ((pay = [rd s.dev DB_GEN, w32 g, w32 s.dev.db.running.length, w32 ((s.dev.db.running.map (·.seq)).headD 0), w32 ((s.dev.db.running.map (·.seq)).getLastD 0)] ++ pay64 k ++ [r] ++ pay64 q ∧ bs = recBytes (bodyNow s.dev 0x0F01 6 0x202 pay) seq s.dev.db.firstSeq)) := by
  decide +kernel

/-- RecordsAreStagedAndTheTraceRuns, nothingToWrite. -/
theorem test_witness_RecordsAreStagedAndTheTraceRuns_nothingToWrite : let s : State := State.reset; let c : Instr := .recordCommit; (((s.dev.db.writerUp = false ∧ c ∈ [.recordCommit, .clearExecute]) ∨ (s.dev.db.staging = [] ∧ c ∈ [.recordCommit, .clearExecute]))) := by
  decide +kernel

/-- RecordsAreStagedAndTheTraceRuns, token. -/
theorem test_witness_RecordsAreStagedAndTheTraceRuns_token : let s : State := wit (wr (wrN r0 (DB_PROF 0) 0x10001) (DB_MAP 511) 0); let src : Nat := 4095; let d : Dev := setDb s.dev { s.dev.db with gained := [(4095, 1)] }; ((src < 4096 ∧ rateOf s.dev src ≠ 0 ∧ optMs s.dev % (1000 / rateOf s.dev src) = 0 ∧ tget 0 s.dev.db.gained src ≠ optMs s.dev + 1)) ∧ ((d = setDb s.dev { s.dev.db with spent := tset 0 s.dev.db.spent src (tget 0 s.dev.db.spent src - 1), gained := tset 0 s.dev.db.gained src (optMs s.dev + 1) })) := by
  decide +kernel

/-- RecordsAreStagedAndTheTraceRuns, noToken. -/
theorem test_witness_RecordsAreStagedAndTheTraceRuns_noToken : let s : State := wit { r0 with db := { r0.db with gained := [(0, 1)] } }; let src : Nat := 0; ((src < 4096 ∧ (rateOf s.dev src = 0 ∨ optMs s.dev % (1000 / rateOf s.dev src) ≠ 0 ∨ tget 0 s.dev.db.gained src = optMs s.dev + 1))) := by
  decide +kernel

/-- RecordsAreStagedAndTheTraceRuns, clearing. -/
theorem test_witness_RecordsAreStagedAndTheTraceRuns_clearing : let s : State := wit { r0 with db := { r0.db with staging := [.clear 1 0 0 0] } }; let who : Nat := 8; let c : Instr := .dbAppPut 8; ((who < 9 ∧ admits s.dev .db 0x140 = true ∧ clearing s.dev = true ∧ c ∈ [.dbNop, .dbClear, .dbAppPut who])) := by
  decide +kernel

/-- RecordsAreStagedAndTheTraceRuns, dbNop. -/
theorem test_witness_RecordsAreStagedAndTheTraceRuns_dbNop : let s : State := State.reset; ((admits s.dev .db 0x140 = true ∧ clearing s.dev = false)) := by
  decide +kernel

/-- RecordsAreStagedAndTheTraceRuns, clearCheck. -/
theorem test_witness_RecordsAreStagedAndTheTraceRuns_clearCheck : let s : State := State.reset; let len : Nat := 0; let addr : Nat := 0; let res : Nat := 1; let bs : List W8 := sramCopy r0 0 0; let body : List W8 := bodyOf bs; ((admits s.dev .db 0x140 = true ∧ clearing s.dev = false ∧ len = rdN s.dev DB_CLR_LEN ∧ addr = rdN s.dev DB_CLR_ADDR ∧ bs = sramCopy s.dev addr len ∧ body = bodyOf bs)) ∧ ((res = (if len = 0 then 1 else if containerCheck s.dev bs 6 (sramLen s.dev addr len) = 1 then 1 else if containerCheck s.dev bs 6 (sramLen s.dev addr len) = 2 then 2 else if containerCheck s.dev bs 6 (sramLen s.dev addr len) = 3 then 3
    else if body.length ≠ 64 ∨ num body 0 4 ≠ 0x54434244 ∨ num body 4 2 ≠ 1 ∨ zeros body 6 2 = false ∨ zeros body 0x20 32 = false then 4 else if num body 8 8 ≠ s.vault.serial then 5
    else if num body 0x10 4 ≠ (rdN s.dev DB_GEN + 1) % 2 ^ 32 then 6 else if 256 ≤ s.dev.db.staging.length then 0x0A else 0))) := by
  decide +kernel

/-- RecordsAreStagedAndTheTraceRuns, appPut. -/
theorem test_witness_RecordsAreStagedAndTheTraceRuns_appPut : let s : State := wit (wrN (wrN r0 DB_APP_LEN 1024) DB_APP_HDR 0x7000); let who : Nat := 8; let len : Nat := 1024; let typ : Nat := 0x7000; let sev : Nat := 0; let pay : List W32 := List.replicate 250 0; let b : DbBody := bodyNow s.dev 0x7000 0 0x308 pay; ((who < 9 ∧ admits s.dev .db 0x140 = true ∧ clearing s.dev = false ∧ s.dev.db.supp = [] ∧ len = fld (rd s.dev DB_APP_LEN) 10 0 ∧ typ = fld (rd s.dev DB_APP_HDR) 14 0 ∧ sev = fld (rd s.dev DB_APP_HDR) 19 16)) ∧ ((pay = ((List.range 250).map (fun i => rd s.dev (DB_APP_DATA i))).take ((len - 24) / 4) ∧ b = bodyNow s.dev typ sev (0x300 + who) pay)) := by
  decide +kernel

/-- RecordsAreStagedAndTheTraceRuns, start. -/
theorem test_witness_RecordsAreStagedAndTheTraceRuns_start : let s : State := State.reset; ((admits s.dev .tr 0x104 = true ∧ s.dev.tr.state = .stopped ∧ trEntries s.dev ≤ 8192 ∧ (trBytesPerS s.dev).1 ≤ 2000000000 * (trBytesPerS s.dev).2)) ∧ (((∀ l ∈ trLists s.dev, packetLen (trPack s.dev l) (trCount s.dev l) ≤ 65536 ∧ trFirst s.dev l + trCount s.dev l ≤ 8192) ∧ (rdBit s.dev TR_CFG 0 = false ∨ trDmaOk s.dev = true))) := by
  decide +kernel

/-- RecordsAreStagedAndTheTraceRuns, startRefused. -/
theorem test_witness_RecordsAreStagedAndTheTraceRuns_startRefused : let s : State := wit { r0 with tr := { r0.tr with state := .frozen } }; let code : Nat := 0x1003; ((admits s.dev .tr 0x104 = true)) ∧ (((code = 0x1003 ∧ s.dev.tr.state ≠ .stopped) ∨ (code = 0x1001 ∧ s.dev.tr.state = .stopped ∧ (8192 < trEntries s.dev ∨ 2000000000 * (trBytesPerS s.dev).2 < (trBytesPerS s.dev).1))
    ∨ (s.dev.tr.state = .stopped ∧ trEntries s.dev ≤ 8192 ∧ (trBytesPerS s.dev).1 ≤ 2000000000 * (trBytesPerS s.dev).2 ∧ ((code = 0x1002 ∧ ∃ l ∈ trLists s.dev, 65536 < packetLen (trPack s.dev l) (trCount s.dev l) ∨ 8192 < trFirst s.dev l + trCount s.dev l)
      ∨ (code = 0x1005 ∧ (∀ l ∈ trLists s.dev, packetLen (trPack s.dev l) (trCount s.dev l) ≤ 65536 ∧ trFirst s.dev l + trCount s.dev l ≤ 8192) ∧ rdBit s.dev TR_CFG 0 = true ∧ trDmaOk s.dev = false))))) := by
  decide +kernel

/-- RecordsAreStagedAndTheTraceRuns, startRefused. -/
theorem test_witness_RecordsAreStagedAndTheTraceRuns_startRefused2 : let s : State := wit (wrN r0 TR_CFG 1); let code : Nat := 0x1005; ((admits s.dev .tr 0x104 = true)) ∧ (((code = 0x1003 ∧ s.dev.tr.state ≠ .stopped) ∨ (code = 0x1001 ∧ s.dev.tr.state = .stopped ∧ (8192 < trEntries s.dev ∨ 2000000000 * (trBytesPerS s.dev).2 < (trBytesPerS s.dev).1))
    ∨ (s.dev.tr.state = .stopped ∧ trEntries s.dev ≤ 8192 ∧ (trBytesPerS s.dev).1 ≤ 2000000000 * (trBytesPerS s.dev).2 ∧ ((code = 0x1002 ∧ ∃ l ∈ trLists s.dev, 65536 < packetLen (trPack s.dev l) (trCount s.dev l) ∨ 8192 < trFirst s.dev l + trCount s.dev l)
      ∨ (code = 0x1005 ∧ (∀ l ∈ trLists s.dev, packetLen (trPack s.dev l) (trCount s.dev l) ≤ 65536 ∧ trFirst s.dev l + trCount s.dev l ≤ 8192) ∧ rdBit s.dev TR_CFG 0 = true ∧ trDmaOk s.dev = false))))) := by
  decide +kernel

/-- RecordsAreStagedAndTheTraceRuns, stop. -/
theorem test_witness_RecordsAreStagedAndTheTraceRuns_stop : let s : State := wit { r0 with tr := { r0.tr with state := .running } }; ((admits s.dev .tr 0x104 = true ∧ s.dev.tr.state = .running)) := by
  decide +kernel

/-- RecordsAreStagedAndTheTraceRuns, stopFreeze. -/
theorem test_witness_RecordsAreStagedAndTheTraceRuns_stopFreeze : let s : State := wit { r0 with tr := { r0.tr with state := .freezing } }; ((admits s.dev .tr 0x104 = true ∧ s.dev.tr.state = .freezing)) := by
  decide +kernel

/-- RecordsAreStagedAndTheTraceRuns, notNow. -/
theorem test_witness_RecordsAreStagedAndTheTraceRuns_notNow : let s : State := State.reset; let c : Instr := .trStop; ((admits s.dev .tr 0x104 = true ∧ ((c = .trStop ∧ (s.dev.tr.state = .stopped ∨ s.dev.tr.state = .frozen)) ∨ (c = .trUnfreeze ∧ s.dev.tr.state ≠ .frozen) ∨ (c = .trResetRing ∧ s.dev.tr.state ≠ .stopped) ∨ (c = .trXfer ∧ (rdBit s.dev TR_CFG 0 = true ∨ s.dev.tr.xferBusy = true))))) := by
  decide +kernel

/-- RecordsAreStagedAndTheTraceRuns, trigger. -/
theorem test_witness_RecordsAreStagedAndTheTraceRuns_trigger : let s : State := wit (wrN (wrN { r0 with tr := { r0.tr with state := .running } } TR_TRIG_EN 1) TR_FRZ_CFG 1); let d : Dev := issued s.dev .tr 0x104 3; let pre : Nat := 1; let post : Nat := 0; ((admits s.dev .tr 0x104 = true ∧ d = issued s.dev .tr 0x104 3 ∧ pre = fld (rd s.dev TR_FRZ_CFG) 10 0 ∧ post = fld (rd s.dev TR_FRZ_CFG) 26 16)) := by
  decide +kernel

/-- RecordsAreStagedAndTheTraceRuns, unfreeze. -/
theorem test_witness_RecordsAreStagedAndTheTraceRuns_unfreeze : let s : State := wit { r0 with tr := { r0.tr with state := .frozen } }; ((admits s.dev .tr 0x104 = true ∧ s.dev.tr.state = .frozen)) := by
  decide +kernel

/-- RecordsAreStagedAndTheTraceRuns, resetRing. -/
theorem test_witness_RecordsAreStagedAndTheTraceRuns_resetRing : let s : State := State.reset; ((admits s.dev .tr 0x104 = true ∧ s.dev.tr.state = .stopped)) := by
  decide +kernel

/-- RecordsAreStagedAndTheTraceRuns, xfer. -/
theorem test_witness_RecordsAreStagedAndTheTraceRuns_xfer : let s : State := wit (wr64 (wrN r0 TR_XFER_LEN 8) TR_WR_POS 8); let src : Nat := 0; let len : Nat := 8; let res : Nat := 0; ((admits s.dev .tr 0x104 = true ∧ rdBit s.dev TR_CFG 0 = false ∧ s.dev.tr.xferBusy = false ∧ src = rd64 s.dev TR_XFER_SRC ∧ len = rdN s.dev TR_XFER_LEN)) ∧ ((res = (if len = 0 then 1 else if src < (if s.dev.tr.protect then rd64 s.dev TR_FRZ_START else rd64 s.dev TR_RD_POS) ∨ rd64 s.dev TR_WR_POS < src + len ∨ len % 8 ≠ 0 then 2 else 0))) := by
  decide +kernel

/-- RecordsAreStagedAndTheTraceRuns, xferDone. -/
theorem test_witness_RecordsAreStagedAndTheTraceRuns_xferDone : let s : State := wit { r0 with tr := { r0.tr with xferBusy := true }, evr := { r0.evr with linkUp := true } }; ((s.dev.tr.xferBusy = true ∧ s.dev.evr.linkUp = true)) := by
  decide +kernel

/-- RecordsAreStagedAndTheTraceRuns, xferNone. -/
theorem test_witness_RecordsAreStagedAndTheTraceRuns_xferNone : let s : State := State.reset; ((s.dev.tr.xferBusy = false ∨ s.dev.evr.linkUp = false)) := by
  decide +kernel

/-- RecordsAreStagedAndTheTraceRuns, freezeEnd. -/
theorem test_witness_RecordsAreStagedAndTheTraceRuns_freezeEnd : let s : State := wit { r0 with tr := { r0.tr with state := .freezing } }; ((s.dev.tr.state = .freezing ∧ rd64 s.dev TR_FRZ_BP + 100 * s.dev.tr.post ≤ bp s.dev)) := by
  decide +kernel

/-- RecordsAreStagedAndTheTraceRuns, freezeRuns. -/
theorem test_witness_RecordsAreStagedAndTheTraceRuns_freezeRuns : let s : State := State.reset; ((s.dev.tr.state ≠ .freezing ∨ bp s.dev < rd64 s.dev TR_FRZ_BP + 100 * s.dev.tr.post)) := by
  decide +kernel

/-- RecordsAreStagedAndTheTraceRuns, release. -/
theorem test_witness_RecordsAreStagedAndTheTraceRuns_release : let s : State := wit (wr64 r0 TR_WR_POS 8); let v : W32 := 8; let stop : Nat := 8; ((admits s.dev .tr 0x120 = true ∧ stop = (match s.dev.tr.pkts.find? (fun p => decide (p.pos < rd64 s.dev TR_RD_POS + v.toNat) && decide (rd64 s.dev TR_RD_POS + v.toNat ≤ p.pos + p.len)) with | some p => p.pos + p.len | none => rd64 s.dev TR_RD_POS + v.toNat))) := by
  decide +kernel

/-- RecordsAreStagedAndTheTraceRuns, copy. -/
theorem test_witness_RecordsAreStagedAndTheTraceRuns_copy : let s : State := wit (wr64 (wrN (wrN { r0 with tr := { r0.tr with streaming := true }, evr := { r0.evr with linkUp := true } } TR_CFG 1) TR_DMA_SIZE 65536) TR_WR_POS 8); let n : Nat := 8; let k : Nat := 8; ((s.dev.tr.streaming = true ∧ rdBit s.dev TR_CFG 0 = true ∧ s.dev.evr.linkUp = true ∧ k = min n (min 65536 (min (rd64 s.dev TR_WR_POS - rd64 s.dev TR_RD_POS) (rdN s.dev TR_DMA_SIZE - (rd64 s.dev TR_DMA_POS - s.dev.tr.dmaRel)))))) := by
  decide +kernel

/-- RecordsAreStagedAndTheTraceRuns, noCopy. -/
theorem test_witness_RecordsAreStagedAndTheTraceRuns_noCopy : let s : State := State.reset; let n : Nat := 0; ((s.dev.tr.streaming = false ∨ rdBit s.dev TR_CFG 0 = false ∨ s.dev.evr.linkUp = false)) := by
  decide +kernel

/-- TallyRunsWakesAndStopsThreads, yield. -/
theorem test_witness_TallyRunsWakesAndStopsThreads_yield : let s : State := wit (setTc r0 7 { tcore0 with cur := some 4095 }); let c : Nat := 7; let t : Nat := 4095; ((c < 8 ∧ (tcOf s.dev c).halted = false ∧ (tcOf s.dev c).cur = some t ∧ s.dev.tl.fault = false)) := by
  decide +kernel

/-- TallyRunsWakesAndStopsThreads, block. -/
theorem test_witness_TallyRunsWakesAndStopsThreads_block : let s : State := wit (setTc r0 0 { tcore0 with cur := some 0 }); let c : Nat := 0; let t : Nat := 0; ((c < 8 ∧ (tcOf s.dev c).halted = false ∧ (tcOf s.dev c).cur = some t ∧ s.dev.tl.fault = false)) := by
  decide +kernel

/-- TallyRunsWakesAndStopsThreads, exit. -/
theorem test_witness_TallyRunsWakesAndStopsThreads_exit : let s : State := wit (setTc r0 0 { tcore0 with cur := some 5 }); let c : Nat := 0; let t : Nat := 5; ((c < 8 ∧ (tcOf s.dev c).halted = false ∧ (tcOf s.dev c).cur = some t ∧ s.dev.tl.fault = false)) := by
  decide +kernel

/-- TallyRunsWakesAndStopsThreads, dispatch. -/
theorem test_witness_TallyRunsWakesAndStopsThreads_dispatch : let s : State := State.reset; let c : Nat := 7; ((c < 8 ∧ (tcOf s.dev c).halted = false ∧ (tcOf s.dev c).cur = none)) := by
  decide +kernel

/-- TallyRunsWakesAndStopsThreads, refusedState. -/
theorem test_witness_TallyRunsWakesAndStopsThreads_refusedState : let s : State := State.reset; let c : Nat := 0; let i : Instr := .block 0; ((c < 8 ∧ (tcOf s.dev c).halted = false ∧ (((tcOf s.dev c).cur = none ∧ i ∈ [.yield c, .block c, .exit c]) ∨ ((tcOf s.dev c).cur.isSome = true ∧ i = .dispatch c)))) := by
  decide +kernel

/-- TallyRunsWakesAndStopsThreads, inFault. -/
theorem test_witness_TallyRunsWakesAndStopsThreads_inFault : let s : State := wit { r0 with tl := { r0.tl with fault := true } }; let c : Nat := 0; let t : Nat := 4095; ((c < 8 ∧ (tcOf s.dev c).halted = false ∧ s.dev.tl.fault = true)) := by
  decide +kernel

/-- TallyRunsWakesAndStopsThreads, badThread. -/
theorem test_witness_TallyRunsWakesAndStopsThreads_badThread : let s : State := State.reset; let c : Nat := 7; let t : Nat := 4096; let i : Instr := .wake 7 4096; ((c < 8 ∧ (tcOf s.dev c).halted = false ∧ s.dev.tl.fault = false ∧ 4095 < t ∧ i ∈ [.wake c t, .create c t, .suspend c t, .resume c t, .destroy c t])) := by
  decide +kernel

/-- TallyRunsWakesAndStopsThreads, haltedCore. -/
theorem test_witness_TallyRunsWakesAndStopsThreads_haltedCore : let s : State := wit (setTc r0 1 { tcore0 with halted := true }); let c : Nat := 1; let t : Nat := 0; let i : Instr := .destroy 1 0; ((c < 8 ∧ (tcOf s.dev c).halted = true ∧ i ∈ [.yield c, .block c, .exit c, .dispatch c, .wake c t, .create c t, .suspend c t, .resume c t, .destroy c t])) := by
  decide +kernel

/-- TallyRunsWakesAndStopsThreads, wake. -/
theorem test_witness_TallyRunsWakesAndStopsThreads_wake : let s : State := State.reset; let c : Nat := 7; let t : Nat := 4095; let d : Dev := opBegin s.dev 7 4095; ((c < 8 ∧ (tcOf s.dev c).halted = false ∧ s.dev.tl.fault = false ∧ t < 4096 ∧ d = (if 1024 ≤ s.dev.tl.queue.length then bump (opBegin s.dev c t) TL_BP_CNT else opBegin s.dev c t))) := by
  decide +kernel

/-- TallyRunsWakesAndStopsThreads, create. -/
theorem test_witness_TallyRunsWakesAndStopsThreads_create : let s : State := wit (setThr r0 4095 { thr0 with aff := 1 }); let c : Nat := 7; let t : Nat := 4095; ((c < 8 ∧ (tcOf s.dev c).halted = false ∧ s.dev.tl.fault = false ∧ t < 4096)) := by
  decide +kernel

/-- TallyRunsWakesAndStopsThreads, suspend. -/
theorem test_witness_TallyRunsWakesAndStopsThreads_suspend : let s : State := wit (setThr r0 0 { thr0 with st := .blocked }); let c : Nat := 0; let t : Nat := 0; ((c < 8 ∧ (tcOf s.dev c).halted = false ∧ s.dev.tl.fault = false ∧ t < 4096)) := by
  decide +kernel

/-- TallyRunsWakesAndStopsThreads, resume. -/
theorem test_witness_TallyRunsWakesAndStopsThreads_resume : let s : State := wit (setThr r0 1 { thr0 with st := .suspended }); let c : Nat := 0; let t : Nat := 1; ((c < 8 ∧ (tcOf s.dev c).halted = false ∧ s.dev.tl.fault = false ∧ t < 4096)) := by
  decide +kernel

/-- TallyRunsWakesAndStopsThreads, destroy. -/
theorem test_witness_TallyRunsWakesAndStopsThreads_destroy : let s : State := State.reset; let c : Nat := 0; let t : Nat := 0; ((c < 8 ∧ (tcOf s.dev c).halted = false ∧ s.dev.tl.fault = false ∧ t < 4096)) := by
  decide +kernel

/-- TallyRunsWakesAndStopsThreads, token. -/
theorem test_witness_TallyRunsWakesAndStopsThreads_token : let s : State := wit { r0 with tl := { r0.tl with queue := [(none, 3)], seen := pendingSources State.reset.vault r0 } }; let o : Option Nat := none; let t : Nat := 3; let rest : List (Option Nat × Nat) := []; let ps : List Nat := pendingSources s.vault s.dev; ((ps = pendingSources s.vault s.dev ∧ (∀ p, p ∈ ps → p ∈ s.dev.tl.seen) ∧ s.dev.tl.owed = [] ∧ s.dev.tl.queue = (o, t) :: rest ∧ s.dev.tl.fault = false)) := by
  exact ⟨rfl, by decide +kernel, rfl, rfl, rfl⟩

/-- TallyRunsWakesAndStopsThreads, tokenPosted. -/
theorem test_witness_TallyRunsWakesAndStopsThreads_tokenPosted : let s : State := wit (wrN (wrN r0 (DEV_SWE_CNT 0) 1) (tlBase + 0x1000 + 4 * 448) 0x8003); let src : Nat := 448; let w : W32 := 0x8003; (((pendingSources s.vault s.dev).filter (fun p => !s.dev.tl.seen.contains p) = [src] ∧ w = rd s.dev (tlBase + 0x1000 + 4 * src) ∧ bit w 15 = true)) ∧ ((s.dev.tl.owed = [] ∧ s.dev.tl.queue = [] ∧ s.dev.tl.fault = false)) := by
  exact ⟨⟨by decide +kernel, by decide +kernel, by decide +kernel⟩, rfl, rfl, rfl⟩

/-- TallyRunsWakesAndStopsThreads, noToken. -/
theorem test_witness_TallyRunsWakesAndStopsThreads_noToken : let s : State := wit { r0 with tl := { r0.tl with seen := pendingSources State.reset.vault r0 } }; ((s.dev.tl.owed = [] ∧ s.dev.tl.queue = [] ∧ ∀ p, p ∈ pendingSources s.vault s.dev → p ∈ s.dev.tl.seen ∨ bit (rd s.dev (tlBase + 0x1000 + 4 * p)) 15 = false)) := by
  exact ⟨rfl, rfl, by decide +kernel⟩

/-- TallyRunsWakesAndStopsThreads, patience. -/
theorem test_witness_TallyRunsWakesAndStopsThreads_patience : let s : State := wit (setThr (wrN r0 TL_CFG 0) 4095 { thr0 with st := .ready }); let t : Nat := 4095; ((t < 4096 ∧ (thrOf s.dev t).st = .ready ∧ (thrOf s.dev t).ts + 1000 * fld (rd s.dev TL_CFG) 6 0 ≤ tbNs s.dev)) := by
  decide +kernel

/-- TallyRunsWakesAndStopsThreads, patient. -/
theorem test_witness_TallyRunsWakesAndStopsThreads_patient : let s : State := State.reset; let t : Nat := 0; ((t < 4096 ∧ ((thrOf s.dev t).st ≠ .ready ∨ tbNs s.dev < (thrOf s.dev t).ts + 1000 * fld (rd s.dev TL_CFG) 6 0))) := by
  decide +kernel

/-- TallyRunsWakesAndStopsThreads, window. -/
theorem test_witness_TallyRunsWakesAndStopsThreads_window : let s : State := State.reset; let t : Nat := 4095; let w : Nat := 7; let val : W32 := 1; ((t < 4096 ∧ w < 8 ∧ admits s.dev .tl (0x10000 + 32 * t + 4 * w) = true)) := by
  decide +kernel

/-- CoresAreStoppedStartedAndWatched, fault. -/
theorem test_witness_CoresAreStoppedStartedAndWatched_fault : let s : State := wit (setTc r0 7 { tcore0 with cur := some 4095 }); let c : Nat := 7; ((c < 8 ∧ (tcOf s.dev c).halted = false)) := by
  decide +kernel

/-- CoresAreStoppedStartedAndWatched, faultHalted. -/
theorem test_witness_CoresAreStoppedStartedAndWatched_faultHalted : let s : State := wit (setTc r0 0 { tcore0 with halted := true }); let c : Nat := 0; ((c < 8 ∧ (tcOf s.dev c).halted = true)) := by
  decide +kernel

/-- CoresAreStoppedStartedAndWatched, watchdog. -/
theorem test_witness_CoresAreStoppedStartedAndWatched_watchdog : let s : State := wit (wr64 (wrN r0 TL_CFG 0x10000) PWR_OPT_MS 1); let c : Nat := 7; ((c < 8 ∧ (tcOf s.dev c).halted = false ∧ fld (rd s.dev TL_CFG) 25 16 ≠ 0 ∧ (tcOf s.dev c).opAt + fld (rd s.dev TL_CFG) 25 16 ≤ optMs s.dev)) := by
  decide +kernel

/-- CoresAreStoppedStartedAndWatched, inTime. -/
theorem test_witness_CoresAreStoppedStartedAndWatched_inTime : let s : State := wit (wrN r0 TL_CFG 0x10000); let c : Nat := 0; ((c < 8 ∧ (fld (rd s.dev TL_CFG) 25 16 = 0 ∨ optMs s.dev < (tcOf s.dev c).opAt + fld (rd s.dev TL_CFG) 25 16))) := by
  decide +kernel

/-- CoresAreStoppedStartedAndWatched, stop. -/
theorem test_witness_CoresAreStoppedStartedAndWatched_stop : let s : State := State.reset; let c : Nat := 7; let i : Instr := .coreHalt 7; let halt : Bool := true; let d : Dev := issued s.dev .tl 0x10C (w32 39); ((c < 8 ∧ admits s.dev .tl 0x10C = true ∧ (tcOf s.dev c).halted = false)) ∧ (((i = .coreReset c ∧ halt = false ∧ d = issued s.dev .tl 0x10C (w32 (c + 16))) ∨ (i = .coreHalt c ∧ halt = true ∧ d = issued s.dev .tl 0x10C (w32 (c + 32))))) := by
  decide +kernel

/-- CoresAreStoppedStartedAndWatched, start. -/
theorem test_witness_CoresAreStoppedStartedAndWatched_start : let s : State := wit (setTc r0 7 { tcore0 with halted := true }); let c : Nat := 7; ((c < 8 ∧ admits s.dev .tl 0x10C = true ∧ (tcOf s.dev c).halted = true)) := by
  decide +kernel

/-- CoresAreStoppedStartedAndWatched, wrongState. -/
theorem test_witness_CoresAreStoppedStartedAndWatched_wrongState : let s : State := State.reset; let c : Nat := 0; let i : Instr := .coreStart 0; ((c < 8 ∧ admits s.dev .tl 0x10C = true ∧ (((tcOf s.dev c).halted = true ∧ i ∈ [.coreReset c, .coreHalt c]) ∨ ((tcOf s.dev c).halted = false ∧ i = .coreStart c)))) := by
  decide +kernel

/-- CoresAreStoppedStartedAndWatched, storeError. -/
theorem test_witness_CoresAreStoppedStartedAndWatched_storeError : let s : State := State.reset; ((s.dev.tl.fault = false)) := by
  decide +kernel

/-- CoresAreStoppedStartedAndWatched, storeErrorAgain. -/
theorem test_witness_CoresAreStoppedStartedAndWatched_storeErrorAgain : let s : State := wit { r0 with tl := { r0.tl with fault := true } }; ((s.dev.tl.fault = true)) := by
  decide +kernel

/-- MemoryBanksTestAndNvAreaAct, power. -/
theorem test_witness_MemoryBanksTestAndNvAreaAct_power : let s : State := State.reset; let b : Nat := 31; let val : W32 := 2; let as : List Nat := (segBanks s.dev b).map MB_PWR; ((b < 32 ∧ admits s.dev (.mb b) 0x100 = true ∧ fld val 1 0 ≠ 3 ∧ as = (segBanks s.dev b).map MB_PWR)) := by
  exact ⟨by decide +kernel, by decide +kernel, by decide +kernel, rfl⟩

/-- MemoryBanksTestAndNvAreaAct, powerRange. -/
theorem test_witness_MemoryBanksTestAndNvAreaAct_powerRange : let s : State := State.reset; let b : Nat := 0; let val : W32 := 3; ((b < 32 ∧ admits s.dev (.mb b) 0x100 = true ∧ fld val 1 0 = 3)) := by
  decide +kernel

/-- MemoryBanksTestAndNvAreaAct, powerDone. -/
theorem test_witness_MemoryBanksTestAndNvAreaAct_powerDone : let s : State := wit (wrN r0 (MB_PWR 31) 2); let b : Nat := 31; let lo : Nat := 0; let req : Nat := 2; ((b < 32 ∧ segTested s.dev b = false ∧ req = fld (rd s.dev (MB_PWR b)) 1 0 ∧ bankSt s.dev b ≠ req ∧ req < 3 ∧ lo = b / ilvW s.dev * segBytes s.dev)) := by
  decide +kernel

/-- MemoryBanksTestAndNvAreaAct, powerStays. -/
theorem test_witness_MemoryBanksTestAndNvAreaAct_powerStays : let s : State := State.reset; let b : Nat := 31; ((b < 32 ∧ (segTested s.dev b = true ∨ bankSt s.dev b = fld (rd s.dev (MB_PWR b)) 1 0))) := by
  decide +kernel

/-- MemoryBanksTestAndNvAreaAct, corrected. -/
theorem test_witness_MemoryBanksTestAndNvAreaAct_corrected : let s : State := State.reset; let a : Nat := 50331647; let b : Nat := 31; ((a < sramSize ∧ b = bankOf s.dev a ∧ bankOn s.dev b = true)) := by
  decide +kernel

/-- MemoryBanksTestAndNvAreaAct, uncorrectable. -/
theorem test_witness_MemoryBanksTestAndNvAreaAct_uncorrectable : let s : State := State.reset; let a : Nat := 8; let b : Nat := 1; ((a < sramSize ∧ b = bankOf s.dev a ∧ bankOn s.dev b = true)) := by
  decide +kernel

/-- MemoryBanksTestAndNvAreaAct, offBank. -/
theorem test_witness_MemoryBanksTestAndNvAreaAct_offBank : let s : State := wit (wrN r0 (MB_STAT 1) 2); let a : Nat := 8; let b : Nat := 1; ((a < sramSize ∧ b = bankOf s.dev a ∧ bankOn s.dev b = false)) := by
  decide +kernel

/-- MemoryBanksTestAndNvAreaAct, onBank. -/
theorem test_witness_MemoryBanksTestAndNvAreaAct_onBank : let s : State := State.reset; let a : Nat := 0; ((a < sramSize ∧ bankOn s.dev (bankOf s.dev a) = true)) := by
  decide +kernel

/-- MemoryBanksTestAndNvAreaAct, testQueued. -/
theorem test_witness_MemoryBanksTestAndNvAreaAct_testQueued : let s : State := wit { wrN r0 (tkBase + BLK_CTRL) 1 with tk := { r0.tk with queue := [(31, 6143)] } }; let b : Nat := 31; let row : Nat := 6143; let rest : List (Nat × Nat) := []; ((rdBit s.dev (tkBase + BLK_CTRL) 0 = true ∧ s.dev.tk.fault = false ∧ s.dev.tk.testing = none ∧ s.dev.tk.queue = (b, row) :: rest ∧ bankOn s.dev b = true)) := by
  decide +kernel

/-- MemoryBanksTestAndNvAreaAct, testPass. -/
theorem test_witness_MemoryBanksTestAndNvAreaAct_testPass : let s : State := wit { wrN r0 (tkBase + BLK_CTRL) 1 with tk := { r0.tk with pos := 196863 } }; let x : Nat × Nat × Bool := (31, 7, true); let q : List (Nat × Nat) := []; let rest : List (Nat × Nat) := []; ((rdBit s.dev (tkBase + BLK_CTRL) 0 = true ∧ s.dev.tk.fault = false ∧ s.dev.tk.testing = none ∧ s.dev.tk.pos < passEnd ∧ tkAt s.dev s.dev.tk.pos = some x)) ∧ (((q = [] ∧ rest = []) ∨ ∃ b row, q = (b, row) :: rest ∧ bankOn s.dev b = false)) ∧ ((s.dev.tk.queue = q)) := by
  exact ⟨⟨by decide +kernel, rfl, rfl, by decide +kernel, by decide +kernel⟩, .inl ⟨rfl, rfl⟩, rfl⟩

/-- MemoryBanksTestAndNvAreaAct, testWaits. -/
theorem test_witness_MemoryBanksTestAndNvAreaAct_testWaits : let s : State := wit (wrN r0 (tkBase + BLK_CTRL) 0); ((rdBit s.dev (tkBase + BLK_CTRL) 0 = false ∨ s.dev.tk.fault = true ∨ s.dev.tk.testing.isSome = true)) := by
  decide +kernel

/-- MemoryBanksTestAndNvAreaAct, rowDone. -/
theorem test_witness_MemoryBanksTestAndNvAreaAct_rowDone : let s : State := wit { r0 with tk := { r0.tk with testing := some (0, 0, false), pos := 1 } }; let b : Nat := 0; let n : Nat := 0; let spare : Bool := false; ((s.dev.tk.testing = some (b, n, spare) ∧ ∃ x, tkSeek s.dev (passEnd - s.dev.tk.pos) s.dev.tk.pos = some x)) := by
  exact ⟨rfl, ⟨(1, (1, 0, false)), by decide +kernel⟩⟩

/-- MemoryBanksTestAndNvAreaAct, passDone. -/
theorem test_witness_MemoryBanksTestAndNvAreaAct_passDone : let s : State := wit { r0 with tk := { r0.tk with testing := some (31, 7, true), pos := 196864 } }; let b : Nat := 31; let n : Nat := 7; let spare : Bool := true; ((s.dev.tk.testing = some (b, n, spare) ∧ s.dev.tk.pos = passEnd)) := by
  decide +kernel

/-- MemoryBanksTestAndNvAreaAct, spareFailed. -/
theorem test_witness_MemoryBanksTestAndNvAreaAct_spareFailed : let s : State := wit { r0 with tk := { r0.tk with testing := some (31, 6, true), pos := 196863 } }; let b : Nat := 31; let k : Nat := 6; let pos : Nat := 196863; let x : Nat × Nat × Bool := (31, 7, true); let m : Dev := wrBit s.dev (MB_MAP 31 6) 16 true; ((b < 32 ∧ k < 8 ∧ s.dev.tk.testing = some (b, k, true) ∧ m = wrBit s.dev (MB_MAP b k) 16 true ∧ tkSeek m (passEnd - s.dev.tk.pos) s.dev.tk.pos = some (pos, x))) := by
  exact ⟨by decide, by decide, rfl, rfl, by decide +kernel⟩

/-- MemoryBanksTestAndNvAreaAct, rowFailed. -/
theorem test_witness_MemoryBanksTestAndNvAreaAct_rowFailed : let s : State := wit { r0 with tk := { r0.tk with testing := some (31, 6143, false), pos := 0 } }; let b : Nat := 31; let row : Nat := 6143; let k : Nat := 0; ((b < 32 ∧ row < 6144 ∧ s.dev.tk.testing = some (b, row, false) ∧ s.dev.tk.pos < passEnd ∧ (tkAt s.dev s.dev.tk.pos).isSome = true ∧ s.dev.tk.pos < passRows)) ∧ ((freeSpare s.dev b = some k ∧ (∀ j, j < 8 → spareUsed s.dev b j = true → spareRetired s.dev b j = false → fld (rd s.dev (MB_MAP b j)) 12 0 ≠ row))) := by
  exact ⟨⟨by decide, by decide, rfl, by decide +kernel, by decide +kernel, by decide +kernel⟩, by decide +kernel, by decide +kernel⟩

/-- MemoryBanksTestAndNvAreaAct, noSpare. -/
theorem test_witness_MemoryBanksTestAndNvAreaAct_noSpare : let s : State := wit { (List.range 8).foldl (fun d k => wrBit d (MB_MAP 0 k) 16 true) r0 with tk := { r0.tk with testing := some (0, 0, false), pos := 0 } }; let b : Nat := 0; let row : Nat := 0; ((b < 32 ∧ row < 6144 ∧ s.dev.tk.testing = some (b, row, false) ∧ s.dev.tk.pos < passRows ∧ (tkAt s.dev s.dev.tk.pos).isSome = true ∧ freeSpare s.dev b = none)) := by
  decide +kernel

/-- MemoryBanksTestAndNvAreaAct, noTest. -/
theorem test_witness_MemoryBanksTestAndNvAreaAct_noTest : let s : State := State.reset; ((s.dev.tk.testing = none)) := by
  decide +kernel

/-- MemoryBanksTestAndNvAreaAct, testRow. -/
theorem test_witness_MemoryBanksTestAndNvAreaAct_testRow : let s : State := State.reset; let b : Nat := 31; let row : Nat := 6143; let d : Dev := issued s.dev .tk 0x108 (w32 (1 + 16 * b + 65536 * row)); ((b < 32 ∧ row < 6144 ∧ admits s.dev .tk 0x108 = true ∧ bankOn s.dev b = true ∧ d = issued s.dev .tk 0x108 (w32 (1 + 16 * b + 65536 * row)))) := by
  exact ⟨by decide, by decide, by decide +kernel, by decide +kernel, rfl⟩

/-- MemoryBanksTestAndNvAreaAct, testRowRefused. -/
theorem test_witness_MemoryBanksTestAndNvAreaAct_testRowRefused : let s : State := State.reset; let b : Nat := 0; let row : Nat := 6144; ((b < 32 ∧ row < 65536 ∧ admits s.dev .tk 0x108 = true ∧ (bankOn s.dev b = false ∨ 6143 < row))) := by
  decide +kernel

/-- MemoryBanksTestAndNvAreaAct, restart. -/
theorem test_witness_MemoryBanksTestAndNvAreaAct_restart : let s : State := State.reset; ((admits s.dev .tk 0x108 = true)) := by
  decide +kernel

/-- MemoryBanksTestAndNvAreaAct, bufferError. -/
theorem test_witness_MemoryBanksTestAndNvAreaAct_bufferError : let s : State := wit { r0 with tk := { r0.tk with testing := some (31, 6143, false) } }; let b : Nat := 31; let n : Nat := 6143; let mask : Nat := 1; let spare : Bool := false; ((s.dev.tk.testing = some (b, n, spare))) := by
  decide +kernel

/-- MemoryBanksTestAndNvAreaAct, nv. -/
theorem test_witness_MemoryBanksTestAndNvAreaAct_nv : let s : State := State.reset; let off : Nat := 0x03FFFFFF; let bs : List W8 := [5]; ((windowsOn s.dev = true ∧ 0x03C00000 ≤ off ∧ off + bs.length ≤ 0x04000000 ∧ off < 67108864)) := by
  decide +kernel

/-- MemoryBanksTestAndNvAreaAct, nvElsewhere. -/
theorem test_witness_MemoryBanksTestAndNvAreaAct_nvElsewhere : let s : State := State.reset; let off : Nat := 0x03BFFFFF; let bs : List W8 := [5]; ((windowsOn s.dev = true ∧ (off < 0x03C00000 ∨ 0x04000000 < off + bs.length) ∧ off < 67108864)) := by
  decide +kernel

/-- MemoryBanksTestAndNvAreaAct, line. -/
theorem test_witness_MemoryBanksTestAndNvAreaAct_line : let s : State := wit { r0 with nv := [(0x03FFFFFF, 5)] }; let line : Nat := 1048575; ((line < 1048576 ∧ (∃ p, p ∈ s.dev.nv ∧ p.1 / 64 = line) ∧ (tget 0 s.dev.nvAt line = 0 ∨ tget 0 s.dev.nvAt line + 10 ≤ bp s.dev + 1))) := by
  exact ⟨by decide, ⟨(0x03FFFFFF, 5), by decide +kernel, by decide⟩, .inl rfl⟩

/-- MemoryBanksTestAndNvAreaAct, lineWaits. -/
theorem test_witness_MemoryBanksTestAndNvAreaAct_lineWaits : let s : State := State.reset; let line : Nat := 0; ((line < 1048576 ∧ ((∀ p, p ∈ s.dev.nv → p.1 / 64 ≠ line) ∨ (tget 0 s.dev.nvAt line ≠ 0 ∧ bp s.dev + 1 < tget 0 s.dev.nvAt line + 10)))) := by
  decide +kernel

/-- IdentityCommandsConclude, nop. -/
theorem test_witness_IdentityCommandsConclude_nop : let s : State := State.reset; ((admits s.dev .id 0x200 = true ∧ s.dev.idBusy = .idle)) := by
  decide +kernel

/-- IdentityCommandsConclude, busy. -/
theorem test_witness_IdentityCommandsConclude_busy : let s : State := wit { r0 with idBusy := .attest [] }; let c : Instr := .keyDel 15; let k : Nat := 15; ((k < 16 ∧ c ∈ [.idNop, .attest, .ownerSet, .keyAdd k, .keyDel k] ∧ admits s.dev .id 0x200 = true ∧ s.dev.idBusy ≠ .idle)) := by
  decide +kernel

/-- IdentityCommandsConclude, attest. -/
theorem test_witness_IdentityCommandsConclude_attest : let s : State := wit { r0 with power := { r0.power with phase := .held } }; ((admits s.dev .id 0x200 = true ∧ s.dev.idBusy = .idle ∧ (s.dev.power.phase = .on ∨ s.dev.power.phase = .held))) := by
  decide +kernel

/-- IdentityCommandsConclude, noAttest. -/
theorem test_witness_IdentityCommandsConclude_noAttest : let s : State := wit { r0 with power := { r0.power with phase := .service } }; ((admits s.dev .id 0x200 = true ∧ s.dev.idBusy = .idle ∧ ¬(s.dev.power.phase = .on ∨ s.dev.power.phase = .held))) := by
  decide +kernel

/-- IdentityCommandsConclude, signed. -/
theorem test_witness_IdentityCommandsConclude_signed : let s : State := wit { r0 with idBusy := .attest [1] }; let g : List W8 := [1]; (s.dev.idBusy = .attest g) := by
  decide +kernel

/-- IdentityCommandsConclude, nothingToSign. -/
theorem test_witness_IdentityCommandsConclude_nothingToSign : let s : State := State.reset; (s.dev.idBusy = .idle) := by
  decide +kernel

/-- IdentityCommandsConclude, locked. -/
theorem test_witness_IdentityCommandsConclude_locked : let s : State := State.reset; let c : Instr := .keyAdd 0; let k : Nat := 0; let v : W32 := 3; ((k < 16 ∧ (c, v) ∈ [(.ownerSet, 2), (.keyAdd k, w32 (3 + 256 * k)), (.keyDel k, w32 (4 + 256 * k))] ∧ admits s.dev .id 0x200 = true)) ∧ ((s.dev.idBusy = .idle ∧ keyLocked s.dev = true)) := by
  decide +kernel

/-- IdentityCommandsConclude, fixedSlot. -/
theorem test_witness_IdentityCommandsConclude_fixedSlot : let s : State := wit { r0 with sf := { r0.sf with unlocked := true } }; let c : Instr := .keyDel 1; let k : Nat := 1; let v : W32 := w32 260; ((k < 2 ∧ (c, v) ∈ [(.keyAdd k, w32 (3 + 256 * k)), (.keyDel k, w32 (4 + 256 * k))] ∧ admits s.dev .id 0x200 = true)) ∧ ((s.dev.idBusy = .idle ∧ keyLocked s.dev = false)) := by
  decide +kernel

/-- IdentityCommandsConclude, usedSlot. -/
theorem test_witness_IdentityCommandsConclude_usedSlot : let s : State := wit (wrN { r0 with sf := { r0.sf with unlocked := true } } (ID_SLOT_USE 15) 0x10000); let c : Instr := .keyAdd 15; let k : Nat := 15; let v : W32 := w32 3843; (((k = 1 ∧ c = .ownerSet ∧ v = 2) ∨ (2 ≤ k ∧ k < 16 ∧ c = .keyAdd k ∧ v = w32 (3 + 256 * k)))) ∧ ((admits s.dev .id 0x200 = true ∧ s.dev.idBusy = .idle ∧ keyLocked s.dev = false ∧ slotUsed s.dev k = true)) := by
  decide +kernel

/-- IdentityCommandsConclude, emptySlot. -/
theorem test_witness_IdentityCommandsConclude_emptySlot : let s : State := wit { r0 with sf := { r0.sf with unlocked := true } }; let k : Nat := 2; ((2 ≤ k ∧ k < 16 ∧ admits s.dev .id 0x200 = true ∧ s.dev.idBusy = .idle ∧ keyLocked s.dev = false ∧ slotUsed s.dev k = false)) := by
  decide +kernel

/-- IdentityCommandsConclude, keySet. -/
theorem test_witness_IdentityCommandsConclude_keySet : let s : State := wit { r0 with sf := { r0.sf with unlocked := true } }; let c : Instr := .keyAdd 15; let k : Nat := 15; let r : Option CertInfo := none; let chain : CertInfo → Bool := fun x => decide (slotUsed s.dev 1 = true ∧ x.signer = rd64 s.dev (ID_SLOT_KID 1)); (((k = 1 ∧ c = .ownerSet ∧ chain = CertInfo.vendorChain) ∨ (2 ≤ k ∧ k < 16 ∧ c = .keyAdd k ∧ chain = fun x => decide (slotUsed s.dev 1 = true ∧ x.signer = rd64 s.dev (ID_SLOT_KID 1))))) ∧ ((admits s.dev .id 0x200 = true ∧ s.dev.idBusy = .idle ∧ keyLocked s.dev = false ∧ slotUsed s.dev k = false)) ∧ (certIn s.dev = r) := by
  exact ⟨Or.inr ⟨by decide, by decide, rfl, rfl⟩, by decide +kernel, by decide +kernel⟩

/-- IdentityCommandsConclude, keyDeleted. -/
theorem test_witness_IdentityCommandsConclude_keyDeleted : let s : State := wit (wrN { r0 with sf := { r0.sf with unlocked := true } } (ID_SLOT_USE 2) 0x10000); let k : Nat := 2; ((2 ≤ k ∧ k < 16 ∧ admits s.dev .id 0x200 = true ∧ s.dev.idBusy = .idle ∧ keyLocked s.dev = false ∧ slotUsed s.dev k = true)) := by
  decide +kernel

/-- PagesTurnCommandsAway, inOrder. -/
theorem test_witness_PagesTurnCommandsAway_inOrder : let s : State := wit { wrBit r0 TW_CFG 0 true with role := .authority, tw := { r0.tw with hold := true } }; let c : Instr := .laneStop 15; let p : Page := .sq 15; let off : Nat := 0x100; let v : W32 := 6; ((hostPage c = some (p, off, v) ∧ c.wf = true)) ∧ ((responds s.dev p = true ∧ busy s.dev p = false ∧ (locked s.dev p = false ∨ lockExempt p off = true))) ∧ ((pairOrdered p off = true ∧ pairEn s.dev = true ∧ accepts s.dev = true ∧ s.dev.tw.queue.length < 1024)) := by
  decide +kernel

/-- PagesTurnCommandsAway, inLine. -/
theorem test_witness_PagesTurnCommandsAway_inLine : let s : State := wit { r0 with cfgq := [⟨pageBase (.lc 2047) + 0x200, 0, 0⟩] }; let c : Instr := .coefWrite 2047 0 0 5; let p : Page := .lc 2047; let off : Nat := 0x200; let v : W32 := 5; ((hostPage c = some (p, off, v) ∧ c.wf = true)) ∧ ((responds s.dev p = true ∧ busy s.dev p = false ∧ (locked s.dev p = false ∨ lockExempt p off = true))) ∧ (((pairOrdered p off = false ∨ pairEn s.dev = false) ∧ inLine s.dev p off = true)) := by
  decide +kernel

/-- HostWritesTakeEffect, regPlain. -/
theorem test_witness_HostWritesTakeEffect_regPlain : let s : State := wit { r0 with evr := { r0.evr with linkUp := true } }; let p : Page := .sq 15; let v : W64 := 5; (pageOk p = true) ∧ (reaches s.dev 0 = true) ∧ (powered s.dev = true) ∧ ((responds s.dev p = true ∧ busy s.dev p = false ∧ (locked s.dev p = false ∨ lockExempt p EVT_EN = true))) := by
  decide +kernel

/-- HostWritesTakeEffect, regUnaligned. -/
theorem test_witness_HostWritesTakeEffect_regUnaligned : let s : State := wit { r0 with evr := { r0.evr with linkUp := true } }; let p : Page := .sq 15; let a : Nat := pageBase (.sq 15) + 0x101; let be : Nat := 15; let v : W64 := 5; (pageAt (a / 4 * 4) = some (p, a / 4 * 4 - pageBase p)) ∧ ((a < 2 ^ 28 ∧ be < 16 ∧ (a % 4 ≠ 0 ∨ be ≠ 15))) ∧ (reaches s.dev 0 = true) ∧ (powered s.dev = true) ∧ (responds s.dev p = true) := by
  decide +kernel

/-- HostWritesTakeEffect, crossingKey. -/
theorem test_witness_HostWritesTakeEffect_crossingKey : let s : State := wit { r0 with crossing := [⟨pageBase (.sq 15) + KEYLOCK, 0xA5C3, 0⟩] }; let p : Page := .sq 15; (pageOk p = true) ∧ (crossingsOf s.dev p = [⟨pageBase p + KEYLOCK, 0xA5C3, 0⟩]) := by
  decide +kernel

/-- TasksReleaseAndCommit, varWaits. -/
theorem test_witness_TasksReleaseAndCommit_varWaits : let s : State := State.reset; let p : Nat := 3; let off : Nat := 0x1FFC; let val : W32 := 5; ((p < 4 ∧ off < 0x2000 ∧ off % 4 = 0)) ∧ (windowsOn s.dev = true) := by
  decide +kernel

/-- TasksReleaseAndCommit, varOutside. -/
theorem test_witness_TasksReleaseAndCommit_varOutside : let s : State := State.reset; let p : Nat := 3; let off : Nat := 0x3FFFFC; let val : W32 := 5; ((p < 4 ∧ off < 0x400000 ∧ off % 4 = 0)) ∧ ((windowsOn s.dev = true ∧ varRange off = false)) ∧ (powered s.dev = true) := by
  decide +kernel

/-- SafetyCyclesLatchCompareAndSwitch, cycleTakes. -/
theorem test_witness_SafetyCyclesLatchCompareAndSwitch_cycleTakes : let s : State := wit (setSf r0 { r0.sf with mode := .pending, confirmed := true, pend := some default }); let opens : Nat := 0; let shorts : Nat := 0; let differ : Bool := false; let t : SfTable := default; ((bp s.dev % 100 = 0 ∨ s.dev.sf.a.alone = true ∨ s.dev.sf.b.alone = true)) ∧ (sfReplays s.dev = false) ∧ (s.dev.sf.cmds = []) ∧ (s.dev.sf.confirmed = true) ∧ (s.dev.sf.pend = some t) := by
  decide +kernel

/-- SafetyCyclesLatchCompareAndSwitch, cycleReplayed. -/
theorem test_witness_SafetyCyclesLatchCompareAndSwitch_cycleReplayed : let s : State := wit (setTw { r0 with role := .syncing } { r0.tw with baseOk := true }); let opens : Nat := 0; let shorts : Nat := 0; let differ : Bool := true; (sfReplays s.dev = true) := by
  decide +kernel

/-- SafeConnectionsFollowTheirFrames, partners. -/
theorem test_witness_SafeConnectionsFollowTheirFrames_partners : let s : State := wit { wrBit r0 TW_CFG 0 true with role := .standby }; let i : Nat := 15; let c : Nat := 31; let e : Instr := .resetJam 15; ((i < 16 ∧ c < 32)) ∧ (followsPair s.dev = true) ∧ (e ∈ [.discrepancyFault i, .resetJam i, .connWatchdog c, .networkMissing c, .degradedTimeout c]) := by
  decide +kernel

/-- SafeConnectionsFollowTheirFrames, spoiltImage. -/
theorem test_witness_SafeConnectionsFollowTheirFrames_spoiltImage : let s : State := wit (setTw (wrN { r0 with role := .standby } TW_CFG 1) { r0.tw with up1 := true }); let h : TwHead := ⟨1, 4, false⟩; let n : Nat := 0; let f : Nat := 1; let img : SfImg := default; let good : Bool := true; ((f < 2 ∧ h.lane < 2)) ∧ (Discarded s.dev h) := by
  exact ⟨by decide, by decide +kernel, rfl, .inl rfl⟩

/-- SafetyTablesArePutInForce, refusedInMode. -/
theorem test_witness_SafetyTablesArePutInForce_refusedInMode : let s : State := wit (setSf r0 { r0.sf with unlocked := true }); let c : Instr := .sfDiscard; (admits s.dev .sfa 0x104 = true) ∧ (s.dev.sf.unlocked = true) ∧ ((c ∈ [.sfConfirm, .sfDiscard] ∧ (s.dev.sf.mode ≠ .pending ∨ s.dev.sf.confirmed = true)) ∨ (c = .sfLoad ∧ s.dev.sf.mode ≠ .unconfigured ∧ s.dev.sf.mode ≠ .active)) := by
  decide +kernel

end Sys2Proof.Tests
end

section
/-! PROOFS. The state after a cold start, as R10 and log entries 1 to 3 give it: every register reads its Reset column, every
signal entry 0, the memories nothing written, the founding area sound with no record. -/

namespace Sys2Proof.Machine

/-! ### Registers and signals after reset -/

/-- No register is listed after reset, so each reads its Reset column (R10). -/
@[simp] theorem rd_reset (a : Nat) : rd State.reset.dev a = resetOf a := rfl

@[simp] theorem rdN_reset (a : Nat) : rdN State.reset.dev a = (resetOf a).toNat := rfl

@[simp] theorem rd64_reset (a : Nat) : rd64 State.reset.dev a = mk64 (resetOf a) (resetOf (a + 4)) := rfl

/-- No entry of the signal table is listed after reset, whatever its number. -/
@[simp] theorem sigVal_reset (n : Nat) : sigVal State.reset.dev n = 0 := rfl

/-- Behind BLK_ID, a register of a page's first KiB takes its reset value from the rows of that page. -/
theorem resetOf_page {p : Page} {off : Nat} (hp : pageOk p = true) (ho : off < 0x400) (h0 : off ≠ 0) :
    resetOf (pageBase p + off) = resetIn (pageResets p) off := by
  have hloc : locate (pageBase p + off) = some (p, off) := locate_off ho (by simpa [pageOk] using hp)
  unfold resetOf
  rw [hloc]
  cases off with
  | zero => exact absurd rfl h0
  | succ _ => rfl

/-- BP_CNT counts from 0 (R32). -/
theorem bp_reset : bp State.reset.dev = 0 := by
  have hlo : resetOf BP_CNT = 0 := resetOf_page (p := .clk) (off := 0x118) (by decide) (by decide) (by decide)
  have hhi : resetOf (BP_CNT + 4) = 0 := resetOf_page (p := .clk) (off := 0x11C) (by decide) (by decide) (by decide)
  rw [bp, rd64_reset, hlo, hhi]
  rfl

/-- SB_EPOCH stands at 100 base periods (Table 11-5). -/
theorem resetOf_SB_EPOCH : resetOf SB_EPOCH = 100 :=
  resetOf_page (p := .sb) (off := 0x100) (by decide) (by decide) (by decide)

/-- The running area begins at 0x40 (Table 15-7, log entry 1). -/
theorem resetOf_DB_RUN_TAIL : resetOf DB_RUN_TAIL = 0x40 :=
  resetOf_page (p := .db) (off := 0x10C) (by decide) (by decide) (by decide)

/-- The running area is empty: its head stands at its tail (Table 15-7, log entry 1). -/
theorem resetOf_DB_RUN_HEAD : resetOf DB_RUN_HEAD = 0x40 :=
  resetOf_page (p := .db) (off := 0x110) (by decide) (by decide) (by decide)

/-! ### The founding area after reset -/

/-- An area with no record is sound as soon as its head stands at 0x40: nothing is left to chain or to check. -/
theorem Vault.sound_of_no_records {v : Vault} (hr : v.founding = []) (hh : v.fndHead = 0x40) : v.sound := by
  unfold Vault.sound
  rw [hr, hh]
  exact ⟨rfl, rfl, by decide⟩

/-- Settles O8: the registers from their Reset columns, the rest as the reset state lists it. -/
theorem resetLeavesTheTableValues : Obligations.ResetLeavesTheTableValues := by
  unfold Obligations.ResetLeavesTheTableValues
  obtain ⟨hsram, hmram, hring⟩ := reset_memory_wf
  have hepoch : rdN State.reset.dev SB_EPOCH = 100 := by rw [rdN_reset, resetOf_SB_EPOCH]; rfl
  have htail : rdN State.reset.dev DB_RUN_TAIL = 0x40 := by rw [rdN_reset, resetOf_DB_RUN_TAIL]; rfl
  have hhead : rdN State.reset.dev DB_RUN_HEAD = 0x40 := by rw [rdN_reset, resetOf_DB_RUN_HEAD]; rfl
  exact ⟨Vault.sound_of_no_records rfl rfl, rfl, hsram, hmram, hring, bp_reset, hepoch, htail, hhead,
    fun n _ => sigVal_reset n, rfl, rfl⟩

end Sys2Proof.Machine
end


section
/-! PROOFS. A write of the host from its arrival to its effect: admission (R44, R49, R51), the posting of WP fields (log entry 50), the end
of a crossing, and its loss (R52). -/

namespace Sys2Proof.Machine

/-! ### The host's writes and their crossings -/

/-- An aligned write of a whole word to a page that responds is a write of its register (R44). -/
theorem hostWrite_aligned {vt : Vault} {d : Dev} {p : Page} {a off : Nat} {v : W64} (ha : a < 2 ^ 28) (h4 : a % 4 = 0)
    (hp : pageAt a = some (p, off)) (hr : reaches d 0 = true) (hw : powered d = true) (hrs : responds d p = true) :
    hostWrite vt d 0 a 15 v = pageWrite vt d 0 p off a (v.setWidth 32) := by
  have hword : a / 4 * 4 = a := Nat.div_mul_cancel (Nat.dvd_of_mod_eq_zero h4)
  simp only [hostWrite, hr, hw, hword, hp, hrs, h4, Nat.not_le.mpr ha]
  simp

/-- An unaligned write of at most 32 bits, or one of part of a word, is counted and dropped (R44). -/
theorem hostWrite_unaligned {vt : Vault} {d : Dev} {p : Page} {a be off : Nat} {v : W64} (ha : a < 2 ^ 28) (hbe : be < 16)
    (hpart : a % 4 ≠ 0 ∨ be ≠ 15) (hp : pageAt (a / 4 * 4) = some (p, off)) (hr : reaches d 0 = true) (hw : powered d = true)
    (hrs : responds d p = true) : hostWrite vt d 0 a be v = bump d DEV_BAD_ACC_CNT := by
  have hwide : be ≠ 255 := by omega
  simp only [hostWrite, hr, hw, hp, hrs, hwide, Nat.not_le.mpr ha, if_pos hpart]
  simp

/-- A page that is neither busy nor locked over it takes a write of EVT_EN at once (R51). -/
theorem pageWrite_evtEn {vt : Vault} {d : Dev} {p : Page} {a : Nat} {v : W32} (hb : busy d p = false)
    (hl : locked d p = false ∨ lockExempt p EVT_EN = true) : pageWrite vt d 0 p EVT_EN a v = wr d a v := by
  have hlock : (locked d p && !lockExempt p EVT_EN) = false := by rcases hl with h | h <;> simp [h]
  unfold pageWrite pageWriteAt
  rw [hb, hlock]
  simp only [Bool.false_eq_true, if_false, if_true]

/-- A page that is neither busy nor locked over it posts the write of a WP field, where the pair's order lets it (R51, R268). -/
theorem pageWrite_wp {vt : Vault} {d : Dev} {p : Page} {off a : Nat} {v : W32} (hb : busy d p = false)
    (hl : locked d p = false ∨ lockExempt p off = true) (hacc : accessOf p off = some .wp)
    (hplain : off ≠ EVT_VEC ∧ off ≠ EVT_EN ∧ off ≠ POST_STAT ∧ isAck p off = false)
    (hpair : pairOrdered p off = true → pairEn d = true → accepts d = true) : pageWrite vt d 0 p off a v = postWrite d 0 p off a v := by
  obtain ⟨hvec, hen, hpost, hack⟩ := hplain
  have hlock : (locked d p && !lockExempt p off) = false := by rcases hl with h | h <;> simp [h]
  have hturn : (pairOrdered p off && pairEn d && !accepts d) = false := by
    cases ho : pairOrdered p off with
    | false => rfl
    | true => cases hp : pairEn d with
      | false => rfl
      | true => rw [hpair ho hp]; rfl
  unfold pageWrite pageWriteAt
  rw [hb, hlock]
  simp only [if_neg hvec, if_neg hen, if_neg hpost, hack, hacc, hturn, Bool.false_eq_true, if_false]

/-- A posted write of a register that is neither a coefficient nor DB_CMD only sets out. -/
theorem postWrite_plain {d : Dev} {p : Page} {off a : Nat} {v : W32} (hc : coefWord p off = false) (hdb : a ≠ DB_CMD) :
    postWrite d 0 p off a v = { d with crossing := d.crossing ++ [⟨a, v, 0⟩] } := by
  have hset : withSet d p off a = a := by
    unfold withSet
    split
    · rw [if_neg (by simp [hc]), Nat.mul_zero, Nat.add_zero]
    · rfl
  unfold postWrite
  rw [hset]
  simp only [if_neg hdb]

/-- The single write that was crossing has crossed. -/
theorem crossingDone_single {vt : Vault} {d : Dev} {p : Page} {w : Posted} (h : crossingsOf d p = [w]) :
    crossingDone vt d p = crossed vt p (crossingEnd d p) w := by
  unfold crossingDone; rw [h]; rfl

/-- A write of no pair's order that the configuration window or C2 applies waits for it (R51). -/
theorem crossed_waits {vt : Vault} {d : Dev} {p : Page} {w : Posted} (hp : pairEn d = false) (hw : windowPage p = true)
    (hk : w.addr % 2 ^ 28 - pageBase p ≠ KEYLOCK) : crossed vt p d w = { d with cfgq := d.cfgq ++ [w] } := by
  have hk' : (w.addr % 2 ^ 28 - pageBase p != KEYLOCK) = true := by simpa using hk
  unfold crossed
  simp only [hp, hw, hk', Bool.and_false, Bool.true_or, Bool.and_true, Bool.false_eq_true, if_false, if_true]

/-- The lock value of KEYLOCK takes effect as soon as it has crossed, on every page (R49). -/
theorem crossed_lock {vt : Vault} {d : Dev} {p : Page} (hp : pageOk p = true) :
    crossed vt p d ⟨pageBase p + KEYLOCK, 0xA5C3, 0⟩ = wr d (pageBase p + KEYLOCK) 0xA5C3 := by
  have hb : pageBase p < 0x900000 := (pageBase_ok hp).1
  have haddr : (pageBase p + KEYLOCK) % 2 ^ 28 = pageBase p + KEYLOCK := Nat.mod_eq_of_lt (by unfold KEYLOCK; omega)
  have hat : pageAt (pageBase p + KEYLOCK) = some (p, KEYLOCK) := pageAt_off (by decide) hp
  have happly : applyPosted vt d ⟨pageBase p + KEYLOCK, 0xA5C3, 0⟩ = keylock d p 0xA5C3 := by
    unfold applyPosted
    simp only [haddr, hat]
    rfl
  unfold crossed
  simp only [haddr, Nat.add_sub_cancel_left, happly]
  simp [pairOrdered, keylock, wrN, w32]

/-- Settles O10: each clause by the one branch of the host's write, of its crossing or of its loss that the hypotheses leave. -/
theorem hostWritesTakeEffect : Obligations.HostWritesTakeEffect := by
  unfold Obligations.HostWritesTakeEffect
  intro s
  refine ⟨?sigAlone, ?sigPaired, ?regPosted, ?regPlain, ?regUnaligned, ?crossingDone, ?crossingKey, ?xdomRead, ?xdomWrite⟩
  case sigAlone =>
    intro n v hn hw hp
    exact exec_onDev (f := fun _ d => sigWrite d n v 0) rfl (by simpa using hn) (by simp [sigWrite, hw, hp])
  case sigPaired =>
    intro n v hn hw hp ha hq
    exact exec_onDev (f := fun _ d => sigWrite d n v 0) rfl (by simpa using hn) (by simp [sigWrite, hw, hp, ha, Nat.not_le.mpr hq, poPush, setTw])
  case regPosted =>
    rintro p a v hat ⟨ha, h4, hdb⟩ hr hw ⟨hrs, hb, hl, hpair⟩ ⟨hacc, hplain, hcoef⟩
    refine exec_onDev (f := fun vt d => hostWrite vt d 0 a 15 v) rfl (by simp; omega) ?_
    rw [hostWrite_aligned ha h4 hat hr hw hrs, pageWrite_wp hb hl hacc hplain hpair]
    exact postWrite_plain hcoef hdb
  case regPlain =>
    rintro p v hp hr hw ⟨hrs, hb, hl⟩
    obtain ⟨hlt, hal⟩ := pageBase_ok hp
    have ha : pageBase p + EVT_EN < 2 ^ 28 := by unfold EVT_EN; omega
    have h4 : (pageBase p + EVT_EN) % 4 = 0 := by unfold EVT_EN; omega
    refine exec_onDev (f := fun vt d => hostWrite vt d 0 (pageBase p + EVT_EN) 15 v) rfl (by simp; omega) ?_
    rw [hostWrite_aligned ha h4 (pageAt_off (by decide) hp) hr hw hrs, pageWrite_evtEn hb hl]
  case regUnaligned =>
    rintro p a be v hat ⟨ha, hbe, hpart⟩ hr hw hrs
    refine exec_onDev (f := fun vt d => hostWrite vt d 0 a be v) rfl (by simp; omega) ?_
    exact hostWrite_unaligned ha hbe hpart hat hr hw hrs
  case crossingDone =>
    rintro p w hp hc hwin ⟨hlo, hkey⟩ hpair
    refine exec_onDev (f := fun vt d => Machine.crossingDone vt d p) rfl hp ?_
    rw [crossingDone_single hc, crossed_waits (d := crossingEnd s.dev p) hpair hwin (by omega)]
    rfl
  case crossingKey =>
    intro p hp hc
    exact exec_onDev (f := fun vt d => Machine.crossingDone vt d p) rfl hp (by rw [crossingDone_single hc, crossed_lock hp])
  case xdomRead =>
    intro p hp hrs
    exact exec_onDev (f := fun _ d => xdomTimeout d p false) rfl hp (by simp only [xdomTimeout, hrs]; rfl)
  case xdomWrite =>
    intro p w hp hrs hc
    exact exec_onDev (f := fun _ d => xdomTimeout d p true) rfl hp (by simp [xdomTimeout, hrs, hc])

end Sys2Proof.Machine
end


section
/-! PROOFS. The clock's trim and its loss of lock (R30, R31), region faults during Boot (R13, R16) and memory errors of tiles and
processors (R95, R96, R230). -/

namespace Sys2Proof.Machine

/-! ### The clock (R30, R31) -/

/-- CLK_TRIM takes the clamped value, CLK_STAT shows whether it was clamped, and nothing else moves (R30). -/
theorem clkTrimWrite_spec (d : Dev) (v : W32) :
    clkTrimWrite d v = { d with regs := (clkTrimWrite d v).regs }
      ∧ rd (clkTrimWrite d v) CLK_TRIM = w32i (clampI (-2500000) 2500000 (sgn 32 v.toNat))
      ∧ rdBit (clkTrimWrite d v) CLK_STAT 4 = decide (clampI (-2500000) 2500000 (sgn 32 v.toNat) ≠ sgn 32 v.toNat)
      ∧ ∀ a, a ≠ CLK_TRIM → a ≠ CLK_STAT → rd (clkTrimWrite d v) a = rd d a := by
  unfold clkTrimWrite clkTrim
  refine ⟨rfl, ?_, ?_, fun a ht hs => ?_⟩
  · rw [rd_wrBit_ne _ _ _ (by decide), rd_wr_same]
  · unfold rdBit wrBit
    rw [rd_wr_same, bit_putBit _ _ _ _ (by decide), if_pos rfl]
  · rw [rd_wrBit_ne _ _ _ hs, rd_wr_ne _ _ ht]

/-- A lost lock is counted, its report is kept for the end of the loss, and the outputs are held no longer (R31). -/
theorem pllLoss_spec {d : Dev} (hr : resettable d = true) (hl : d.power.lockLost = none) :
    rd (pllLoss d) CLK_LOSS_CNT = rd d CLK_LOSS_CNT + 1 ∧ (pllLoss d).power.lockLost.isSome = true ∧ (pllLoss d).oh.holding = false
      ∧ (pllLoss d).power.phase = d.power.phase ∧ (pllLoss d).lanes = d.lanes ∧ (pllLoss d).sig = d.sig := by
  obtain ⟨b, y, hrec, hloss⟩ : ∃ b y, Recorded (setPow d { d.power with lockLost := some b }) y
      ∧ pllLoss d = bump { y with oh := { safeOuts y y.oh with holding := false } } CLK_LOSS_CNT := by
    unfold pllLoss
    rw [if_pos ⟨hr, hl⟩]
    exact ⟨_, _, recorded_reportTrigger _ _ _ _, rfl⟩
  rw [hloss]
  obtain ⟨z, hz⟩ : ∃ z, z = { y with oh := { safeOuts y y.oh with holding := false } } := ⟨_, rfl⟩
  have hregs : z.regs = y.regs := by rw [hz]
  have hpow : z.power = { d.power with lockLost := some b } := by rw [hz]; exact recorded_power hrec
  have hoh : z.oh.holding = false := by rw [hz]
  have ylanes : y.lanes = d.lanes := by rw [recorded_lanes hrec, setPow_lanes]
  have ysig : y.sig = d.sig := by rw [recorded_sig hrec, setPow_sig]
  have hlanes : z.lanes = d.lanes := by rw [hz]; exact ylanes
  have hsig : z.sig = d.sig := by rw [hz]; exact ysig
  have hcnt : rd z CLK_LOSS_CNT = rd d CLK_LOSS_CNT := by
    rw [rd_congr hregs, recorded_rd hrec (.inl (by decide)), rd_setPow]
  rw [← hz, bump]
  refine ⟨by rw [rd_wr_same, hcnt], ?_, ?_, ?_, ?_, ?_⟩
  · rw [wr_power, hpow]; rfl
  · rw [wr_oh, hoh]
  · rw [wr_power, hpow]
  · rw [wr_lanes, hlanes]
  · rw [wr_sig, hsig]

/-- The end of a loss, relocked or not, is a warm reset with source 3 (R31). -/
theorem pllEnd_spec {d : Dev} {b : DbBody} (us : Nat) (re : Bool) (hr : resettable d = true) (hon : d.power.phase = .on)
    (hl : d.power.lockLost = some b) :
    (pllEnd d us re).power.phase = .boot ∧ (pllEnd d us re).power.kind = .warm ∧ (pllEnd d us re).power.src = 3
      ∧ (pllEnd d us re).power.lockLost = none ∧ (pllEnd d us re).lanes = [] ∧ (pllEnd d us re).sig = [] := by
  obtain ⟨x, hx, hend⟩ : ∃ x, Recorded (setDb d { d.db with writerUp := false }) x ∧ pllEnd d us re = warmReset x 3 := by
    refine ⟨_, recorded_submit _ { b with pay := b.pay ++ [w32 us, w32 (b2n re)] }, ?_⟩
    unfold pllEnd
    rw [hl]
  have hpow : x.power = d.power := (recorded_power hx).trans (setDb_power _ _)
  have hres : resettable x = true := by unfold resettable powered at *; rw [hpow]; exact hr
  have hstart : startOf x .warm 3 = (.warm, 3) := by
    unfold startOf
    exact if_neg (by rw [hpow, hon]; simp)
  obtain ⟨hphase, -, hlock, hlanes, -, -, -, hsig, -, -, hkind, hsrc⟩ := warmReset_facts x 3 hres
  rw [hend]
  exact ⟨hphase, by rw [hkind, hstart], by rw [hsrc, hstart], hlock, hlanes, hsig⟩

/-! ### Faults -/

/-- A region fault during Boot waits for the end of Boot (R16, R435). -/
theorem regionFault_boot {d : Dev} (p : Page) (code addr : Nat) (h : d.power.phase = .boot) :
    regionFault d p code addr
      = { err d p code addr with power := { d.power with heldPending := d.power.heldPending ++ [⟨blkId p, w32 code, w32 addr⟩] } } := by
  unfold regionFault enterHeld
  rw [if_pos (.inr (.inl h)), if_pos (by rw [err_power]; exact h), err_power]

/-- The cells of a quarantined tile change their own state and stage their entries, nothing else (R96, R100). -/
theorem ltQuarCells_keep {γ : Type} (P : Dev → γ) (hput : ∀ d n v b, P (put2 d n v b) = P d) (hcell : ∀ d g x, P (setCell d g x) = P d)
    (d : Dev) (t : Nat) : P (ltQuarCells d t) = P d := by
  refine foldl_keep P _ _ (fun g _ d => ?_) d
  rw [hcell]
  unfold lcFaultEntries lcOutSafe
  rw [foldl_keep P _ _ (fun _ _ _ => hput _ _ _ _), foldl_keep P _ _ (fun _ _ _ => hput _ _ _ _)]

/-- A loop tile enters quarantine with its code and the offset (R96). -/
theorem ltQuarantine_spec {d : Dev} {t code : Nat} (addr : Nat) (ht : t < 64) (hc : code < 65536) (hq : ltQuar d t = false) :
    (ltQuarantine d t code addr).quar = d.quar ++ [t] ∧ rdN (ltQuarantine d t code addr) (ltBase t + ERR_CODE) % 65536 = code
      ∧ rd (ltQuarantine d t code addr) (ltBase t + ERR_ADDR) = w32 addr ∧ (ltQuarantine d t code addr).lanes = d.lanes := by
  have heq : ltQuarantine d t code addr = ltQuarCells (ltQuarMark d t code addr) t := if_neg (by simp [hq])
  have hrec : Recorded (err { d with quar := d.quar ++ [t] } (.lt t) code addr) (ltQuarMark d t code addr) := recorded_tileQuar _ _ _ _
  have hreg : ∀ a, a < dbBase → rd (ltQuarantine d t code addr) a = rd (err { d with quar := d.quar ++ [t] } (.lt t) code addr) a := fun a ha => by
    rw [heq, ltQuarCells_keep (fun d => rd d a) (fun _ _ _ _ => rd_congr rfl a) (fun _ _ _ => rd_setCell _ _ _ _), recorded_rd hrec (.inl ha)]
  have hcode : ltBase t + ERR_CODE < dbBase := by unfold ltBase ERR_CODE dbBase; omega
  have haddr : ltBase t + ERR_ADDR < dbBase := by unfold ltBase ERR_ADDR dbBase; omega
  refine ⟨?_, ?_, ?_, ?_⟩
  · rw [heq, ltQuarCells_keep (·.quar) (fun _ _ _ _ => rfl) (fun _ _ _ => rfl), recorded_quar hrec, err_quar]
  · unfold rdN
    rw [hreg _ hcode]
    exact (err_code _ (.lt t) _ _).trans (Nat.mod_eq_of_lt hc)
  · rw [hreg _ haddr]
    exact err_addr _ (.lt t) _ _
  · rw [heq, ltQuarCells_keep (·.lanes) (fun _ _ _ _ => rfl) (fun _ _ _ => rfl), recorded_lanes hrec, err_lanes]

/-- A memory error of a processor leaves the lanes (R230). -/
theorem lpMemoryUe_lanes (d : Dev) (p off : Nat) : (lpMemoryUe d p off).lanes = d.lanes := by
  unfold lpMemoryUe
  refine ite_prop (fun e : Dev => e.lanes = d.lanes) rfl ?_
  rw [recorded_lanes (recorded_tileQuar _ _ _ _), lpQuarantine, setLp_lanes, err_lanes, lpSafe_keep (·.lanes) (fun _ _ _ _ => rfl)]

/-- Settles O15: each clause by what its one operation leaves, over any report taken with it. -/
theorem clockAndFaults : Obligations.ClockAndFaults := by
  unfold Obligations.ClockAndFaults
  intro s
  refine ⟨?trim, ?lockLoss, ?relock, ?regionBoot, ?ring, ?corrected, ?uncorrectedTile, ?uncorrectedProcessor⟩
  case trim =>
    intro val ha
    exact completes_admitted (f := fun _ d => clkTrimWrite d val) rfl rfl ha (clkTrimWrite_spec s.dev val)
  case lockLoss =>
    intro hr hl
    exact completes_onDev (f := fun _ d => pllLoss d) rfl rfl (pllLoss_spec hr hl)
  case relock =>
    intro us b hr hon hl
    exact ⟨completes_onDev (f := fun _ d => pllEnd d us true) rfl rfl (pllEnd_spec us true hr hon hl),
      completes_onDev (f := fun _ d => pllEnd d us false) rfl rfl (pllEnd_spec us false hr hon hl)⟩
  case regionBoot =>
    rintro p code addr ⟨hp, hc, ha⟩ hboot
    exact completes_onDev (f := fun _ d => regionFault d p code addr) rfl (by simp only [hp, hc, ha, decide_true, Bool.and_self]) (regionFault_boot p code addr hboot)
  case ring =>
    intro val ha
    have hrec : Recorded (wr s.dev ID_RING (w32 (fld val 31 16 * 0x10000 + fld val 5 0))) (idRing s.dev val) := recorded_report _ _ _ _
    refine completes_admitted (f := fun _ d => idRing d val) rfl rfl ha ⟨?_, hrec⟩
    rw [recorded_rd hrec (.inl (by decide)), rd_wr_same]
  case corrected =>
    rintro t m n ⟨ht, hm, hn⟩
    exact ⟨exec_onDev (f := fun _ d => scratchCe d (.lt t)) rfl (pageOk_lt t ht) rfl,
      exec_onDev (f := fun _ d => scratchCe d (.mt m)) rfl (pageOk_mt m hm) rfl,
      exec_onDev (f := fun _ d => scratchCe d (.lp n)) rfl (pageOk_lp n hn) rfl⟩
  case uncorrectedTile =>
    intro t off ht hq
    exact completes_onDev (f := fun _ d => scratchUe d (.lt t) off) rfl (pageOk_lt t ht) (ltQuarantine_spec off ht (by decide) hq)
  case uncorrectedProcessor =>
    intro n off hn hq
    obtain ⟨hlp, hcode, haddr, -, -, -⟩ := memUe_facts s.dev n off hn hq
    exact completes_onDev (f := fun _ d => scratchUe d (.lp n) off) rfl (pageOk_lp n hn)
      ⟨by unfold scratchUe; rw [hlp], by unfold scratchUe; rw [hlp], hcode, haddr, lpMemoryUe_lanes s.dev n off⟩

end Sys2Proof.Machine
end


section
/-! PROOFS. How the verification of a lane's image ends (R67, R70, R294). -/

namespace Sys2Proof.Machine

/-! ### The end of a lane's verification (R67, R70) -/

/-- What every outcome leaves of the lane and the registers is what the verification leaves; the directory alone may take an entry. -/
theorem laneVerified_keep {γ : Type} (P : Dev → γ) (hdir : ∀ d p b t n h, P (dirPut d p b t n h) = P d) (d : Dev) (l : Nat) :
    P (laneVerified d l) = P (laneVerify d l) :=
  ite_prop (fun e : Dev => P e = P (laneVerify d l)) (hdir _ _ _ _ _ _) rfl

/-- From d to e the load of lane l has ended with a failure code: EMPTY, the code shown, no claim moved (R20, R67). -/
def LoadRefused (l c : Nat) (d e : Dev) : Prop :=
  laneOf e l = emptied (laneOf d l) ∧ rd e (SQ_LOAD_RES l) = w32 c ∧ rdN e (sqBase l + ERR_CODE) % 65536 = 0x0104 ∧ e.attr = d.attr

/-- From d to e lane l has been loaded with an image (R67). -/
def LoadTaken (l : Nat) (img : LImg) (d e : Dev) : Prop :=
  laneOf e l = { emptied (laneOf d l) with st := .loaded, img := img } ∧ rd e (SQ_LOAD_RES l) = 0 ∧ rd e (SQ_RECIPE_ID l) = w32 img.recipe

theorem laneLoadFail_refused (d : Dev) (l c : Nat) : LoadRefused l c d (laneLoadFail d l c) := by
  unfold laneLoadFail
  refine ⟨?_, ?_, err_code _ (.sq l) _ _, ?_⟩
  · rw [laneOf_err, laneOf_wrN, laneOf_setLane_same]
  · have hbase : pageBase (.sq l) = sqBase l := rfl
    rw [rd_err_ne _ _ _ _ (by rw [hbase]; unfold SQ_LOAD_RES ERR_CODE; omega) (by rw [hbase]; unfold SQ_LOAD_RES ERR_ADDR; omega), rd_wrN_same]
  · rw [err_attr, wrN_attr, setLane_attr]

theorem laneLoadOk_taken (d : Dev) (l : Nat) (img : LImg) : LoadTaken l img d (laneLoadOk d l img) := by
  unfold laneLoadOk
  extract_lets x y
  have hclaims : laneOf x l = laneOf (disarmAll d l) l := 
    foldl_keep (fun d => laneOf d l) (fun d (t : LTarget) => claim d t.n clsLane l t.wide t.safe) _ (fun _ _ _ => rfl) _
  have hslots : laneOf y l = laneOf x l := foldl_keep (fun d => laneOf d l) _ _ (fun _ _ _ => laneOf_wrN _ _ _ _) _
  have hempty : emptied (laneOf y l) = emptied (laneOf d l) := by
    obtain ⟨t, u, w, hlane⟩ := lane_disarmAll d l
    rw [hslots, hclaims, hlane]
    rfl
  refine ⟨?_, ?_, rd_wrN_same _ _ _⟩
  · rw [laneOf_wrN, laneOf_wrN, laneOf_setLane_same, ← hempty]
  · rw [rd_wrN_ne _ _ (by unfold SQ_LOAD_RES SQ_RECIPE_ID; omega), rd_wrN_same]; rfl

/-! The outcomes in the order of the checks: the container, the image's own rules, the owners of its targets. -/

section
variable {d : Dev} {l : Nat} (hst : (laneOf d l).st = .loading)
include hst

theorem laneVerify_container {c : Nat} (hc : containerCheck d (laneOf d l).copy 2 (laneOf d l).copyLen = c + 1) : laneVerify d l = laneLoadFail d l (c + 1) := by
  unfold laneVerify
  simp only [if_pos hst, hc]

theorem laneVerify_image {c : Nat} (hc : containerCheck d (laneOf d l).copy 2 (laneOf d l).copyLen = 0)
    (hp : parseLane (bodyOf (laneOf d l).copy) = .error c) : laneVerify d l = laneLoadFail d l c := by
  unfold laneVerify
  simp only [if_pos hst, hc, hp]

theorem laneVerify_parsed {img : LImg} (hc : containerCheck d (laneOf d l).copy 2 (laneOf d l).copyLen = 0)
    (hp : parseLane (bodyOf (laneOf d l).copy) = .ok img) :
    laneVerify d l = if img.targets.any (fun t => sigTaken d t.n clsLane l) then laneLoadFail d l 10 else laneLoadOk d l img := by
  unfold laneVerify
  simp only [if_pos hst, hc, hp]

end

theorem laneVerified_refused {d : Dev} {l c : Nat} (h : laneVerify d l = laneLoadFail d l c) : LoadRefused l c d (laneVerified d l) := by
  obtain ⟨hlane, hres, hcode, hattr⟩ := laneLoadFail_refused d l c
  rw [← h] at hlane hres hcode hattr
  refine ⟨?_, ?_, ?_, ?_⟩
  · rw [laneVerified_keep (fun e => laneOf e l) (fun _ _ _ _ _ _ => rfl), hlane]
  · rw [laneVerified_keep (fun e => rd e (SQ_LOAD_RES l)) (fun _ _ _ _ _ _ => rd_dirPut _ _ _ _ _ _ _), hres]
  · rw [laneVerified_keep (fun e => rdN e (sqBase l + ERR_CODE) % 65536) (fun _ _ _ _ _ _ => by unfold rdN; rw [rd_dirPut]), hcode]
  · rw [laneVerified_keep (·.attr) (fun _ _ _ _ _ _ => rfl), hattr]

theorem laneVerified_taken {d : Dev} {l : Nat} {img : LImg} (h : laneVerify d l = laneLoadOk d l img) : LoadTaken l img d (laneVerified d l) := by
  obtain ⟨hlane, hres, hid⟩ := laneLoadOk_taken d l img
  rw [← h] at hlane hres hid
  refine ⟨?_, ?_, ?_⟩
  · rw [laneVerified_keep (fun e => laneOf e l) (fun _ _ _ _ _ _ => rfl), hlane]
  · rw [laneVerified_keep (fun e => rd e (SQ_LOAD_RES l)) (fun _ _ _ _ _ _ => rd_dirPut _ _ _ _ _ _ _), hres]
  · rw [laneVerified_keep (fun e => rd e (SQ_RECIPE_ID l)) (fun _ _ _ _ _ _ => rd_dirPut _ _ _ _ _ _ _), hid]

/-- Settles O17: by the first check that fails, in the order container, image, owners, or by none. -/
theorem laneVerificationEndsTheLoad : Obligations.LaneVerificationEndsTheLoad := by
  unfold Obligations.LaneVerificationEndsTheLoad
  intro s l hl hst
  refine completes_onDev (f := fun _ d => laneVerified d l) rfl (by simpa using hl) ?_
  cases hc : containerCheck s.dev (laneOf s.dev l).copy 2 (laneOf s.dev l).copyLen with
  | succ c => exact laneVerified_refused (laneVerify_container hst hc)
  | zero =>
    cases hp : parseLane (bodyOf (laneOf s.dev l).copy) with
    | error c => exact laneVerified_refused (laneVerify_image hst hc hp)
    | ok img =>
      have hparsed := laneVerify_parsed hst hc hp
      by_cases htaken : img.targets.any (fun t => sigTaken s.dev t.n clsLane l) = true
      · rw [if_pos htaken] at hparsed
        simp only [if_pos htaken]
        exact laneVerified_refused hparsed
      · rw [if_neg htaken] at hparsed
        simp only [if_neg htaken]
        exact laneVerified_taken hparsed

end Sys2Proof.Machine
end


section
/-! PROOFS. What writes of loop tiles and cells configure: RUN bits by groups, coefficients, claims of entries, bindings and table slots
(chapters 04 and 05). -/

namespace Sys2Proof.Machine

/-! ### Group commands (R95) -/

/-- A group command finds the mask and the cells' RUN bits as they were before its own register was written. -/
theorem ltGroup_issued (d : Dev) (t : Nat) (on : Bool) (v : W32) {c : Nat} (hc : c < 32) :
    runBit (ltGroup (issued d (.lt t) 0x120 v) t on) (.lc (32 * t + c)) = if rdBit d (LT_GRP_MASK t) c then on else runBit d (.lc (32 * t + c)) := by
  have hmask : rd (issued d (.lt t) 0x120 v) (LT_GRP_MASK t) = rd d (LT_GRP_MASK t) :=
    rd_issued_ne _ _ _ _ _ (by show LT_GRP_MASK t ≠ ltBase t + 0x120; unfold LT_GRP_MASK; omega)
  have hrun : rd (issued d (.lt t) 0x120 v) (lcBase (32 * t + c) + BLK_CTRL) = rd d (lcBase (32 * t + c) + BLK_CTRL) :=
    rd_issued_ne _ _ _ _ _ (by
      show lcBase (32 * t + c) + BLK_CTRL ≠ ltBase t + 0x120
      have htile : (32 * t + c) / 32 = t := by omega
      unfold lcBase BLK_CTRL; rw [htile]; omega)
  have hrun' : runBit (issued d (.lt t) 0x120 v) (.lc (32 * t + c)) = runBit d (.lc (32 * t + c)) := congrArg (fun w => bit w 0) hrun
  rw [ltGroup_run _ _ _ _ hc, hrun']
  unfold rdBit
  rw [hmask]

/-- A group command makes no error. -/
theorem ltGroup_noError (d : Dev) (t : Nat) (on : Bool) : rd (ltGroup d t on) (pageBase (.lt t) + ERR_CODE) = rd d (pageBase (.lt t) + ERR_CODE) :=
  rd_ltGroup _ _ _ _ (by show ltBase t + ERR_CODE < ltBase t + 0x1000; unfold ERR_CODE; omega)

/-! ### Configuration of a cell that does not run (R98, R129) -/

/-- A cell that does not run turns no write away for running or for being frozen (Table 4-6). -/
theorem lcBusy_idle {d : Dev} {g : Nat} (h : (cellOf d g).st ≠ .running) : lcBusy d g = none := by simp [lcBusy, causeIf, h]
theorem lcFrozen_idle {d : Dev} {g : Nat} (h : (cellOf d g).st ≠ .running) : lcFrozen d g = none := by simp [lcFrozen, causeIf, h]

/-- A coefficient of a cell that does not run goes to the selected set (R98). -/
theorem coefWrite_idle {d : Dev} {g set sec r : Nat} {v : W32} (hr : r < 5) (h : (cellOf d g).st ≠ .running) :
    coefWrite d g set sec r v = wr d (coefAt g set sec r) (w32 (fld v 15 0)) := by
  have hrun : ((cellOf d g).st == .running) = false := by simpa using h
  have hword : onlyFlds [anyF 15 0] v = w32 (fld v 15 0) := by simp [onlyFlds, anyF]
  unfold coefWrite
  simp only [hrun, lcFrozen_idle h, Bool.false_and, causeIf, Bool.false_eq_true, if_false, firstOf]
  rw [if_neg (by omega), if_neg (by omega), hword]

/-- A binding without BOUND is written as it is (R129). -/
theorem compBindWrite_unbound {d : Dev} {g : Nat} {v : W32} (h : (cellOf d g).st ≠ .running) (hb : bit v 20 = false) :
    compBindWrite d g v = wr d (LC_COMP_CFG g) (w32 (fld v 14 0 + fld v 18 16 * 65536)) := by
  have hfields : badField [anyF 14 0, anyF 18 16, anyF 20 20] v = none := by simp [badField, fldCode_any]
  have hbit : fld v 20 20 = 0 := by
    have h20 := bit_eq v 20
    rw [hb, Nat.testBit_eq_decide_div_mod_eq] at h20
    rw [fld_eq]
    simp at h20
    omega
  have hword : onlyFlds [anyF 14 0, anyF 18 16, anyF 20 20] v = w32 (fld v 14 0 + fld v 18 16 * 65536) := by
    simp [onlyFlds, anyF, hbit]
  unfold compBindWrite lcPut cfgPut
  simp only [lcBusy_idle h, hfields, hb, Bool.false_and, causeIf, Bool.false_eq_true, if_false, List.cons_append, List.nil_append, firstOf, hword]

/-! ### Claims of a cell (R20, R100, R463) -/

/-- A fold over entries with numbers of their own changes each of them by its own step, and no other entry. -/
theorem entries_foldl (f : Dev → Nat × Bool × W32 → Dev) (A S : W32 → Nat × Bool × W32 → W32)
    (hown : ∀ d x, attrOf (f d x) x.1 = A (attrOf d x.1) x ∧ sigVal (f d x) x.1 = S (attrOf d x.1) x)
    (hoth : ∀ d x m, m ≠ x.1 → attrOf (f d x) m = attrOf d m ∧ sigVal (f d x) m = sigVal d m) (l : List (Nat × Bool × W32)) :
    (l.map (·.1)).Nodup → ∀ d, (∀ x ∈ l, attrOf (l.foldl f d) x.1 = A (attrOf d x.1) x ∧ sigVal (l.foldl f d) x.1 = S (attrOf d x.1) x)
      ∧ ∀ m, m ∉ l.map (·.1) → attrOf (l.foldl f d) m = attrOf d m ∧ sigVal (l.foldl f d) m = sigVal d m := by
  induction l with
  | nil => exact fun _ d => ⟨fun _ h => (nomatch h), fun _ _ => ⟨rfl, rfl⟩⟩
  | cons y t ih =>
    intro hnd d
    rw [List.map_cons, List.nodup_cons] at hnd
    obtain ⟨hy, ht⟩ := hnd
    obtain ⟨hin, hout⟩ := ih ht (f d y)
    refine ⟨fun x hx => ?_, fun m hm => ?_⟩
    · rcases List.mem_cons.mp hx with rfl | hx
      · obtain ⟨ha, hs⟩ := hout x.1 hy
        obtain ⟨oa, os⟩ := hown d x
        exact ⟨ha.trans oa, hs.trans os⟩
      · have hne : x.1 ≠ y.1 := fun h => hy (h ▸ List.mem_map_of_mem hx)
        obtain ⟨ha, hs⟩ := hin x hx
        obtain ⟨oa, -⟩ := hoth d y x.1 hne
        exact ⟨by rw [List.foldl_cons, ha, oa], by rw [List.foldl_cons, hs, oa]⟩
    · rw [List.map_cons, List.mem_cons, not_or] at hm
      obtain ⟨hmy, hmt⟩ := hm
      obtain ⟨ha, hs⟩ := hout m hmt
      obtain ⟨oa, os⟩ := hoth d y m hmy
      exact ⟨ha.trans oa, hs.trans os⟩

/-- A committed write shows its value and its SAFE flag, on its own entry alone (R22, R25). -/
theorem commitSig_entry (d : Dev) (n : Nat) (v : W32) (b : Bool) :
    (attrOf (commitSig d ⟨n, v, b⟩) n = putBit (attrOf d n) 30 b ∧ sigVal (commitSig d ⟨n, v, b⟩) n = sigForm (bit (attrOf d n) 31) v)
      ∧ ∀ m, m ≠ n → attrOf (commitSig d ⟨n, v, b⟩) m = attrOf d m ∧ sigVal (commitSig d ⟨n, v, b⟩) m = sigVal d m :=
  ⟨⟨tget_tset_same _ _ _ _, tget_tset_same _ _ _ _⟩, fun _ hm => ⟨tget_tset_ne _ _ _ _ hm, tget_tset_ne _ _ _ _ hm⟩⟩

/-- The claims of one writer. -/
def claimAll (d : Dev) (cls inst : Nat) (new : List (Nat × Bool × W32)) : Dev := new.foldl (fun d e => claim d e.1 cls inst e.2.1 e.2.2) d

theorem claimAll_entries (d : Dev) (cls inst : Nat) {new : List (Nat × Bool × W32)} (hnd : (new.map (·.1)).Nodup) :
    (∀ x ∈ new, attrOf (claimAll d cls inst new) x.1 = attrWord cls inst x.2.1 ∧ sigVal (claimAll d cls inst new) x.1 = sigForm x.2.1 x.2.2)
      ∧ ∀ m, m ∉ new.map (·.1) → attrOf (claimAll d cls inst new) m = attrOf d m ∧ sigVal (claimAll d cls inst new) m = sigVal d m :=
  entries_foldl _ (fun _ x => attrWord cls inst x.2.1) (fun _ x => sigForm x.2.1 x.2.2)
    (fun d x => ⟨by rw [attrOf_claim, if_pos rfl], by rw [sigVal_claim, if_pos rfl]⟩)
    (fun d x m hm => ⟨by rw [attrOf_claim, if_neg hm], by rw [sigVal_claim, if_neg hm]⟩) new hnd d

theorem rd_claimAll (d : Dev) (cls inst : Nat) (new : List (Nat × Bool × W32)) (a : Nat) : rd (claimAll d cls inst new) a = rd d a :=
  foldl_keep (fun d => rd d a) (fun d (e : Nat × Bool × W32) => claim d e.1 cls inst e.2.1 e.2.2) new (fun _ _ _ => rd_claim _ _ _ _ _ _ _) d

theorem claimAll_stage2 (d : Dev) (cls inst : Nat) (new : List (Nat × Bool × W32)) : (claimAll d cls inst new).stage2 = d.stage2 :=
  foldl_keep (·.stage2) (fun d (e : Nat × Bool × W32) => claim d e.1 cls inst e.2.1 e.2.2) new (fun _ _ _ => rfl) d

/-- Free entries are claimed together, where none is given up (R20). -/
theorem reroute_free {d : Dev} {cls inst : Nat} {new : List (Nat × Bool × W32)} (h : ∀ e ∈ new, sigTaken d e.1 cls inst = false) :
    reroute d cls inst [] new = some (claimAll d cls inst new) :=
  if_neg (by rw [Bool.not_eq_true, List.any_eq_false]; exact fun x hx => by simp [h x hx])

/-- What a cell claims without W32 is a Q1.15 entry. -/
theorem attrWord_cell_narrow {g : Nat} (hg : g < 2048) : bit (attrWord clsCell g false) 31 = false := by
  rw [bit_eq, attrWord, w32, BitVec.toNat_ofNat, Nat.testBit_eq_decide_div_mod_eq]
  simp [clsCell, b2n]
  omega

/-- The claim word of an entry that cell g has just claimed: with SAFE where the cell is in FAULT or QUARANTINED (R100). -/
def cellAttr (d : Dev) (g : Nat) : W32 :=
  if (cellOf d g).st ∈ [.fault, .quarantined] then putBit (attrWord clsCell g false) 30 true else attrWord clsCell g false

/-- What a routing register's write leaves, where all its entries were free: the register, each entry the cell's at its safe value, nothing
else of the signal table and nothing staged (R100, R463). -/
def Routed (g a : Nat) (v : W32) (new : List (Nat × Bool × W32)) (d e : Dev) : Prop :=
  rd e a = v ∧ (∀ x ∈ new, attrOf e x.1 = cellAttr d g ∧ sigVal e x.1 = sigForm false x.2.2)
    ∧ (∀ m, m ∉ new.map (·.1) → attrOf e m = attrOf d m ∧ sigVal e m = sigVal d m) ∧ e.stage2 = d.stage2

theorem lcClaimed_routed {d : Dev} {g a : Nat} {v : W32} {new : List (Nat × Bool × W32)} (hg : g < 2048) (ha : a ≠ pageBase (.lc g) + ERR_CODE)
    (hnd : (new.map (·.1)).Nodup) (hnarrow : ∀ x ∈ new, x.2.1 = false) :
    Routed g a v new d (lcClaimed d (wr (claimAll d clsCell g new) a v) g new) := by
  obtain ⟨hin, hout⟩ := claimAll_entries d clsCell g hnd
  have hattr : ∀ m, attrOf (wr (claimAll d clsCell g new) a v) m = attrOf (claimAll d clsCell g new) m := fun m => by simp [attrOf]
  have hsig : ∀ m, sigVal (wr (claimAll d clsCell g new) a v) m = sigVal (claimAll d clsCell g new) m := fun m => by simp [sigVal]
  have hseq : errSeq (wr (claimAll d clsCell g new) a v) (.lc g) = errSeq d (.lc g) := by
    unfold errSeq; rw [rd_wr_ne _ _ (Ne.symm ha), rd_claimAll]
  have hstage : (wr (claimAll d clsCell g new) a v).stage2 = d.stage2 := by rw [wr_stage2, claimAll_stage2]
  unfold lcClaimed
  by_cases hst : (cellOf d g).st ∈ [.fault, .quarantined]
  · have hcell : cellAttr d g = putBit (attrWord clsCell g false) 30 true := if_pos hst
    rw [if_neg (by rw [hseq]; exact fun h => h.elim (· hst) (· rfl))]
    obtain ⟨cin, cout⟩ := entries_foldl (fun e n => commitSig e ⟨n.1, n.2.2, true⟩) (fun w _ => putBit w 30 true) (fun w x => sigForm (bit w 31) x.2.2)
      (fun d x => (commitSig_entry d x.1 x.2.2 true).1) (fun d x m hm => (commitSig_entry d x.1 x.2.2 true).2 m hm) new hnd
      (wr (claimAll d clsCell g new) a v)
    refine ⟨?_, fun x hx => ?_, fun m hm => ?_, ?_⟩
    · rw [foldl_keep (fun d => rd d a) (fun e (n : Nat × Bool × W32) => commitSig e ⟨n.1, n.2.2, true⟩) new (fun _ _ _ => rd_congr rfl a), rd_wr_same]
    · obtain ⟨ca, cs⟩ := cin x hx
      obtain ⟨oa, -⟩ := hin x hx
      rw [hnarrow x hx] at oa
      rw [ca, cs, hattr, oa, hcell, attrWord_cell_narrow hg]
      exact ⟨rfl, rfl⟩
    · obtain ⟨ca, cs⟩ := cout m hm
      obtain ⟨oa, os⟩ := hout m hm
      exact ⟨by rw [ca, hattr, oa], by rw [cs, hsig, os]⟩
    · rw [foldl_keep (·.stage2) (fun e (n : Nat × Bool × W32) => commitSig e ⟨n.1, n.2.2, true⟩) new (fun _ _ _ => rfl), hstage]
  · have hcell : cellAttr d g = attrWord clsCell g false := if_neg hst
    rw [if_pos (.inl hst)]
    refine ⟨rd_wr_same _ _ _, fun x hx => ?_, fun m hm => ?_, hstage⟩
    · obtain ⟨oa, os⟩ := hin x hx
      rw [hnarrow x hx] at oa os
      rw [hattr, hsig, oa, os, hcell]
      exact ⟨rfl, rfl⟩
    · rw [hattr, hsig]
      exact hout m hm

/-- The entries of a publish block at n: three results, and the output. -/
def pubEntries (n : Nat) (safe : W32) : List (Nat × Bool × W32) := [(n, false, 0), (n + 1, false, 0), (n + 2, false, 0), (n + 3, false, safe)]

theorem pubEntries_numbers (n : Nat) (safe : W32) : (pubEntries n safe).map (·.1) = [n, n + 1, n + 2, n + 3] := rfl

/-- LC_OUT_DST, first set, claims its free entry (R100). -/
theorem lcOutDstWrite_claims {d : Dev} {g n : Nat} (hg : g < 2048) (hn : n < 32768) (hrun : (cellOf d g).st ≠ .running)
    (hold : rdBit d (LC_OUT_DST g) 16 = false) (hfree : sigTaken d n clsCell g = false) :
    Routed g (LC_OUT_DST g) (w32 (65536 + n)) [(n, false, ofQ15 (lcSafe d g))] d (lcOutDstWrite d g (w32 (65536 + n))) := by
  obtain ⟨hbit, hfld, hen⟩ := bit16_w32 n hn
  have hword : onlyFlds [anyF 14 0, anyF 16 16] (w32 (65536 + n)) = w32 (65536 + n) := onlyFlds_route n 14 _ hfld hen
  have hbad : badField [anyF 14 0, anyF 16 16] (w32 (65536 + n)) = none := by simp [badField, fldCode_any]
  have heq : lcOutDstWrite d g (w32 (65536 + n))
      = lcClaimed d (wr (claimAll d clsCell g [(n, false, ofQ15 (lcSafe d g))]) (LC_OUT_DST g) (w32 (65536 + n))) g [(n, false, ofQ15 (lcSafe d g))] := by
    unfold lcOutDstWrite
    simp only [hold, hbit, hfld, Bool.false_eq_true, if_false, if_true]
    rw [routePut_ok (lcBusy_idle hrun) hbad (reroute_free (by simpa using hfree)), hword]
  rw [heq]
  exact lcClaimed_routed hg (by show lcBase g + 0x118 ≠ lcBase g + ERR_CODE; unfold ERR_CODE; omega) (by simp) (by simp)

/-- LC_PUB, first set, claims its four free entries (R100). -/
theorem lcPubWrite_claims {d : Dev} {g n : Nat} (hg : g < 2048) (hn : n ≤ 32764) (hrun : (cellOf d g).st ≠ .running)
    (hold : rdBit d (LC_PUB g) 16 = false) (hfree : ∀ i < 4, sigTaken d (n + i) clsCell g = false) :
    Routed g (LC_PUB g) (w32 (65536 + n)) (pubEntries n (ofQ15 (lcSafe d g))) d (lcPubWrite d g (w32 (65536 + n))) := by
  obtain ⟨hbit, hfld, hen⟩ := bit16_w32 n (by omega)
  have hword : onlyFlds [maxF 14 0 32764, anyF 16 16] (w32 (65536 + n)) = w32 (65536 + n) := onlyFlds_route n 14 _ hfld hen
  have hbad : badField [maxF 14 0 32764, anyF 16 16] (w32 (65536 + n)) = none := by
    simp [badField, fldCode_any, fldCode_max _ _ _ _ (hfld.trans_le hn)]
  have hall : ∀ e ∈ pubEntries n (ofQ15 (lcSafe d g)), sigTaken d e.1 clsCell g = false := by
    simp only [pubEntries, List.forall_mem_cons]
    exact ⟨hfree 0 (by decide), hfree 1 (by decide), hfree 2 (by decide), hfree 3 (by decide), fun _ h => (nomatch h)⟩
  have heq : lcPubWrite d g (w32 (65536 + n))
      = lcClaimed d (wr (claimAll d clsCell g (pubEntries n (ofQ15 (lcSafe d g)))) (LC_PUB g) (w32 (65536 + n))) g (pubEntries n (ofQ15 (lcSafe d g))) := by
    unfold lcPubWrite
    simp only [hold, hbit, hfld, Bool.false_eq_true, if_false, if_true]
    exact congrArg (fun e => lcClaimed d e g (pubEntries n (ofQ15 (lcSafe d g))))
      ((routePut_ok (lcBusy_idle hrun) hbad (reroute_free hall)).trans (by rw [hword]))
  rw [heq]
  exact lcClaimed_routed hg (by show lcBase g + 0x11C ≠ lcBase g + ERR_CODE; unfold ERR_CODE; omega)
    (by rw [pubEntries_numbers]; simp) (by simp [pubEntries])

/-! ### Table slots (R128, R130) -/

/-- A word of a slot whose tile has all its cells stopped holds two entries of the live table. -/
theorem compSlotWrite_stopped {d : Dev} {t k e : Nat} {v : W32} (hk : k < 8) (he : e < 768) (hst : ∀ c < 32, (cellOf d (32 * t + c)).st = .stopped) :
    compSlotWrite d t (0x9000 + 0xC00 * k + 4 * e) v
      = setCtab (setCtab d (liveAt t k (2 * e)) (sgn 16 (fld v 15 0))) (liveAt t k (2 * e + 1)) (sgn 16 (fld v 31 16)) := by
  have hslot : (0x9000 + 0xC00 * k + 4 * e - 0x9000) / 0xC00 = k := by omega
  have hword : (0x9000 + 0xC00 * k + 4 * e - 0x9000) % 0xC00 / 4 * 2 = 2 * e := by omega
  have hfree : (boundCells d).any (fun g => g / 32 == t && slotNoOf d g == k && (cellOf d g).st != .stopped) = false := by
    rw [List.any_eq_false]
    intro g _ h
    simp only [Bool.and_eq_true, beq_iff_eq, bne_iff_ne] at h
    obtain ⟨⟨ht, -⟩, hrun⟩ := h
    have hg : 32 * t + g % 32 = g := by omega
    exact hrun (hg ▸ hst (g % 32) (Nat.mod_lt _ (by decide)))
  unfold compSlotWrite
  simp only [hslot, hword, hfree, Bool.false_eq_true, if_false]
  exact if_neg (by omega)

/-- Settles O20: each write through the register it selects, each claim through the entries it names. -/
theorem loopCommandsConfigureCells : Obligations.LoopCommandsConfigureCells := by
  unfold Obligations.LoopCommandsConfigureCells
  intro s
  refine ⟨?groups, ?coef, ?route, ?publish, ?bind, ?slot⟩
  case groups =>
    intro t ht ha
    refine ⟨completes_host (f := fun _ d => ltGrpStart d t) rfl (by simpa using ht) ha (by decide) (ltGroup_noError _ _ _) (fun c hc => ?_),
      completes_host (f := fun _ d => ltGrpStop d t) rfl (by simpa using ht) ha (by decide) (ltGroup_noError _ _ _) (fun c hc => ?_)⟩
    · rw [ltGrpStart, ltGroup_issued _ _ _ _ hc]
      cases rdBit s.dev (LT_GRP_MASK t) c <;> simp
    · rw [ltGrpStop, ltGroup_issued _ _ _ _ hc]
      cases rdBit s.dev (LT_GRP_MASK t) c <;> simp
  case coef =>
    rintro g sec r v ⟨hg, hsec, hr⟩ ha hrun
    exact exec_admitted (f := fun _ d => coefWrite d g (fld (rd d (LC_CSEL g)) 1 0) sec r v) rfl (by simp; omega) ha (coefWrite_idle hr hrun)
  case route =>
    rintro g n ⟨hg, hn⟩ ha hrun hold hfree
    obtain ⟨hreg, hin, hout, hstage⟩ := lcOutDstWrite_claims hg hn hrun hold hfree
    obtain ⟨hattr, hsig⟩ := hin _ (List.mem_singleton.mpr rfl)
    exact completes_admitted (f := fun _ d => lcOutDstWrite d g (w32 (65536 + n))) rfl (by simpa using hg) ha
      ⟨hreg, hattr, hsig, fun m hm => hout m (by simpa using hm), hstage⟩
  case publish =>
    rintro g n ⟨hg, hn⟩ ha hrun hold hfree
    obtain ⟨hreg, hin, hout, -⟩ := lcPubWrite_claims hg hn hrun hold hfree
    simp only [pubEntries, List.forall_mem_cons] at hin
    obtain ⟨⟨h0, -⟩, ⟨h1, -⟩, ⟨h2, -⟩, ⟨h3, hsig⟩, -⟩ := hin
    refine completes_admitted (f := fun _ d => lcPubWrite d g (w32 (65536 + n))) rfl (by simpa using hg) ha ⟨hreg, fun i hi => ?_, hsig, fun m hm => ?_⟩
    · interval_cases i
      · exact h0
      · exact h1
      · exact h2
      · exact h3
    · exact (hout m (by rw [pubEntries_numbers]; simp; omega)).1
  case bind =>
    intro g v hg ha hrun hb
    exact exec_admitted (f := fun _ d => compBindWrite d g v) rfl (by simpa using hg) ha (compBindWrite_unbound hrun hb)
  case slot =>
    rintro t k e v ⟨ht, hk, he⟩ ha hst
    refine completes_admitted (f := fun _ d => compSlotWrite d t (0x9000 + 0xC00 * k + 4 * e) v) rfl (by simp; omega) ha ?_
    have hne : liveAt t k (2 * e) ≠ liveAt t k (2 * e + 1) := by unfold liveAt; omega
    rw [compSlotWrite_stopped hk he hst]
    refine ⟨?_, ?_, fun n hlo hhi => ?_, rfl⟩
    · rw [ctabV_setCtab _ _ _ _ (sgn16_range _), if_neg hne, ctabV_setCtab _ _ _ _ (sgn16_range _), if_pos rfl]
    · rw [ctabV_setCtab _ _ _ _ (sgn16_range _), if_pos rfl]
    · rw [ctabV_setCtab _ _ _ _ (sgn16_range _), if_neg hhi, ctabV_setCtab _ _ _ _ (sgn16_range _), if_neg hlo]

end Sys2Proof.Machine
end


section
/-! PROOFS. What a health sample shows, judges and counts (R442 to R444). -/

namespace Sys2Proof.Machine

/-! ### Health samples (R442 to R444) -/

/-- The regions of the module. -/
theorem range_four : List.range 4 = [0, 1, 2, 3] := rfl

/-- Change the health record. -/
def setHealth (d : Dev) (x : Health) : Dev := { d with health := x }

@[simp] theorem rd_setHealth (d : Dev) (x : Health) (a : Nat) : rd (setHealth d x) a = rd d a := rd_congr (by unfold setHealth; rfl) a
@[simp] theorem setHealth_setHealth (d : Dev) (x y : Health) : setHealth (setHealth d x) y = setHealth d y := rfl
@[simp] theorem setHealth_health (d : Dev) (x : Health) : (setHealth d x).health = x := rfl
@[simp] theorem setHealth_power (d : Dev) (x : Health) : (setHealth d x).power = d.power := rfl
@[simp] theorem setHealth_role (d : Dev) (x : Health) : (setHealth d x).role = d.role := rfl
@[simp] theorem setHealth_sig (d : Dev) (x : Health) : (setHealth d x).sig = d.sig := rfl

/-- The device with the registers of a sample's temperatures and supplies written. -/
def sampleRegs (d : Dev) (s : HSample) : Dev :=
  let d := wrN d HLTH_TCASE (fieldI 16 s.tcase)
  let d := (List.range 4).foldl (fun d r => wrN d (HLTH_TJ r) (fieldI 16 (nth s.tj r 0))) d
  wrN (wrN (wrN d PWR_VIN (s.vin % 65536 + s.vfld % 65536 * 65536)) PWR_VKA (s.store % 65536 + s.vka % 65536 * 65536)) PWR_PIN (s.pin % 65536)

/-- The device with a sample's temperatures and supplies shown. -/
def sampleShown (d : Dev) (s : HSample) : Dev :=
  { sampleRegs d s with power := { (sampleRegs d s).power with kaVka := decide (2000 ≤ s.vka), kaLow := decide (s.store < 2200) } }

/-- The device with a sample shown, its thermal flags judged and its clock derated. -/
def sampleJudged (d : Dev) (s : HSample) : Dev :=
  derate (wrBit (caseCheck (sampleShown d s) s.tcase) HLTH_THERM 4 ((List.range 4).any (fun r => decide (1150 ≤ nth s.tj r 0)))) (nth s.tj 3 0)

/-- A sample of a powered device is shown and judged, and each region's temperature held against the critical one. -/
theorem healthSample_powered {d : Dev} (s : HSample) (h : powered d = true) :
    healthSample d s = (List.range 4).foldl (fun d r => critical d r (nth s.tj r 0)) (sampleJudged d s) := by
  unfold healthSample; rw [if_pos h]; rfl

theorem sampleRegs_keeps (d : Dev) (s : HSample) :
    (sampleRegs d s).power = d.power ∧ (sampleRegs d s).role = d.role ∧ (sampleRegs d s).sig = d.sig ∧ (sampleRegs d s).health = d.health := by
  simp [sampleRegs, range_four]

theorem sampleShown_keeps (d : Dev) (s : HSample) :
    (sampleShown d s).power = { d.power with kaVka := decide (2000 ≤ s.vka), kaLow := decide (s.store < 2200) }
      ∧ (sampleShown d s).role = d.role ∧ (sampleShown d s).sig = d.sig ∧ (sampleShown d s).health = d.health := by
  obtain ⟨hp, hr, hs, hh⟩ := sampleRegs_keeps d s
  exact ⟨by unfold sampleShown; rw [hp], hr, hs, hh⟩

theorem rd_sampleShown (d : Dev) (s : HSample) (a : Nat) : rd (sampleShown d s) a = rd (sampleRegs d s) a := rd_congr (by unfold sampleShown; rfl) a

theorem sampleShown_temps (d : Dev) (s : HSample) :
    rd (sampleShown d s) HLTH_TCASE = w32 (fieldI 16 s.tcase)
      ∧ ∀ r, r < 4 → rd (sampleShown d s) (HLTH_TJ r) = w32 (fieldI 16 (nth s.tj r 0)) := by
  simp only [rd_sampleShown, sampleRegs, range_four, List.foldl_cons, List.foldl_nil]
  refine ⟨?_, fun r hr => ?_⟩
  · simp (disch := decide) only [rd_wrN_ne, rd_wrN_same]
  · interval_cases r <;> simp (disch := decide) only [rd_wrN_ne, rd_wrN_same]

theorem sampleShown_supplies (d : Dev) (s : HSample) :
    rd (sampleShown d s) PWR_VIN = w32 (s.vin % 65536 + s.vfld % 65536 * 65536)
      ∧ rd (sampleShown d s) PWR_VKA = w32 (s.store % 65536 + s.vka % 65536 * 65536)
      ∧ rd (sampleShown d s) PWR_PIN = w32 (s.pin % 65536) := by
  simp only [rd_sampleShown, sampleRegs]
  refine ⟨?_, ?_, ?_⟩ <;> simp (disch := decide) only [rd_wrN_ne, rd_wrN_same]

/-- The pages of the device lie below the Daybook page, which reports move. -/
theorem hlth_lt_db {a : Nat} (h : a < hlthBase + 0x1000) : a < dbBase := by unfold hlthBase at h; unfold dbBase; omega

/-- From d to e the thermal flags, the derating and its clock have moved at most, and reports have been taken. -/
def ThermalOnly (d e : Dev) : Prop :=
  e.power = d.power ∧ e.role = d.role ∧ e.sig = d.sig ∧ e.health.hot = d.health.hot
    ∧ ∀ a, a < dbBase → a ≠ HLTH_THERM → a ≠ HLTH_DERATE_CNT → rd e a = rd d a

theorem ThermalOnly.refl (d : Dev) : ThermalOnly d d := ⟨rfl, rfl, rfl, rfl, fun _ _ _ _ => rfl⟩

theorem ThermalOnly.trans {d e f : Dev} (h : ThermalOnly d e) (g : ThermalOnly e f) : ThermalOnly d f := by
  obtain ⟨h1, h2, h3, h4, h5⟩ := h
  obtain ⟨g1, g2, g3, g4, g5⟩ := g
  exact ⟨g1.trans h1, g2.trans h2, g3.trans h3, g4.trans h4, fun a ha ht hc => (g5 a ha ht hc).trans (h5 a ha ht hc)⟩

theorem thermalOnly_wr (d : Dev) {r : Nat} (v : W32) (h : r = HLTH_THERM ∨ r = HLTH_DERATE_CNT ∨ dbBase ≤ r) : ThermalOnly d (wr d r v) :=
  ⟨by simp, by simp, by simp, by simp, fun a ha ht hc => rd_wr_ne _ _ (by omega)⟩

theorem thermalOnly_recorded {d e : Dev} (h : Recorded d e) : ThermalOnly d e :=
  ⟨recorded_power h, recorded_role h, recorded_sig h, by rw [recorded_health h], fun _ ha _ _ => recorded_rd h (.inl ha)⟩

/-- What a check of the case temperature leaves is its two flags, and a report at most. -/
theorem caseCheck_recorded (d : Dev) (t : Int) :
    ∃ b, Recorded (wrBit (wrBit d HLTH_THERM 2 (decide (850 < t))) HLTH_THERM 3 b) (caseCheck d t) := by
  refine ⟨decide (t < if fld (rd d ID_STRAP) 15 8 = 2 then -200 else 0), ?_⟩
  unfold caseCheck
  exact ite_prop (Recorded _) (recorded_fieldFaultAt _ _ _ _ _ _) (Recorded.refl _)

theorem thermalOnly_caseCheck (d : Dev) (t : Int) : ThermalOnly d (caseCheck d t) := by
  obtain ⟨b, hr⟩ := caseCheck_recorded d t
  exact ((thermalOnly_wr d _ (.inl rfl)).trans (thermalOnly_wr _ _ (.inl rfl))).trans (thermalOnly_recorded hr)

/-- HOT_CASE follows the case temperature (R442). -/
theorem caseCheck_hot (d : Dev) (t : Int) : rdBit (caseCheck d t) HLTH_THERM 2 = decide (850 < t) := by
  obtain ⟨b, hr⟩ := caseCheck_recorded d t
  unfold rdBit
  rw [recorded_rd hr (.inl (hlth_lt_db (by unfold HLTH_THERM; omega)))]
  simp [wrBit, bit_putBit]

/-- A derating moves its count, the level in the thermal flags, the instant of the level and the clock (R443). -/
theorem derate_cases (d : Dev) (t : Int) : derate d t = d ∨ ∃ n v x, x.hot = d.health.hot
    ∧ derate d t = wrN (setHealth (wrFld (bump d HLTH_DERATE_CNT) HLTH_THERM 1 0 n) x) TL_CORE_CLK v := by
  unfold derate
  extract_lets l n
  split
  · exact .inr ⟨n, levelMHz n, { d.health with levelAt := optMs (wrFld (bump d HLTH_DERATE_CNT) HLTH_THERM 1 0 n) }, rfl, rfl⟩
  · exact .inl rfl

theorem thermalOnly_derate (d : Dev) (t : Int) : ThermalOnly d (derate d t) := by
  rcases derate_cases d t with h | ⟨n, v, x, hx, h⟩
  · rw [h]; exact ThermalOnly.refl d
  · rw [h]
    have hregs : ThermalOnly d (wrFld (bump d HLTH_DERATE_CNT) HLTH_THERM 1 0 n) :=
      (thermalOnly_wr d _ (.inr (.inl rfl))).trans (thermalOnly_wr _ _ (.inl rfl))
    obtain ⟨hp, hr, hs, -, ha⟩ := hregs
    have hx : ThermalOnly d (setHealth (wrFld (bump d HLTH_DERATE_CNT) HLTH_THERM 1 0 n) x) :=
      ⟨hp, hr, hs, hx, fun a h1 h2 h3 => (rd_setHealth _ _ _).trans (ha a h1 h2 h3)⟩
    exact hx.trans (thermalOnly_wr _ _ (.inr (.inr (by unfold TL_CORE_CLK tlBase dbBase; omega))))

/-- The derating level lies below bit 2 of the thermal flags (R443). -/
theorem derate_flags (d : Dev) (t : Int) {i : Nat} (hi : 2 ≤ i) : rdBit (derate d t) HLTH_THERM i = rdBit d HLTH_THERM i := by
  rcases derate_cases d t with h | ⟨n, v, x, -, h⟩
  · rw [h]
  · rw [h]
    unfold rdBit
    rw [rd_wrN_ne _ _ (by decide), rd_setHealth, wrFld, rd_wr_same,
      bit_putFld _ _ _ _ _ (by decide) (by decide), if_neg (by omega), rd_bump_ne _ (by decide)]

theorem thermalOnly_sampleJudged (d : Dev) (s : HSample) : ThermalOnly (sampleShown d s) (sampleJudged d s) :=
  ((thermalOnly_caseCheck _ _).trans (thermalOnly_wr _ _ (.inl rfl))).trans (thermalOnly_derate _ _)

/-- The two flags that a sample judges from its own temperatures (R442, R444). -/
theorem sampleJudged_flags (d : Dev) (s : HSample) :
    rdBit (sampleJudged d s) HLTH_THERM 2 = decide (850 < s.tcase)
      ∧ rdBit (sampleJudged d s) HLTH_THERM 4 = (List.range 4).any (fun r => decide (1150 ≤ nth s.tj r 0)) := by
  refine ⟨?_, ?_⟩
  · refine (derate_flags _ _ (by decide)).trans (Eq.trans ?_ (caseCheck_hot (sampleShown d s) s.tcase))
    simp [rdBit, wrBit, bit_putBit]
  · refine (derate_flags _ _ (by decide)).trans ?_
    simp [rdBit, wrBit, bit_putBit]

/-! ### The critical temperature (R444) -/

/-- A region below the critical temperature changes nothing but its count of samples. -/
theorem critical_cool (d : Dev) (r : Nat) {t : Int} (h : t < 1200) : ∃ x, critical d r t = setHealth d x := by
  refine ⟨{ d.health with hot := lset d.health.hot r 0 }, ?_⟩
  unfold critical
  simp only [if_neg (Int.not_le.mpr h)]
  exact if_neg (by omega)

theorem critical_cool_foldl (f : Nat → Int) (l : List Nat) (h : ∀ r ∈ l, f r < 1200) :
    ∀ d, ∃ x, l.foldl (fun d r => critical d r (f r)) d = setHealth d x := by
  induction l with
  | nil => exact fun d => ⟨d.health, rfl⟩
  | cons r t ih =>
    intro d
    obtain ⟨x, hx⟩ := critical_cool d r (h r (List.mem_cons_self ..))
    obtain ⟨y, hy⟩ := ih (fun q hq => h q (List.mem_cons_of_mem _ hq)) (critical d r (f r))
    exact ⟨y, by rw [List.foldl_cons, hy, hx, setHealth_setHealth]⟩

/-- A device that runs is in Held after a trigger, paired or not (R16, R435). -/
theorem enterHeld_phase (d : Dev) (b : W32) (c a : Nat) (h : d.power.phase = .on) : (enterHeld d b c a).power.phase = .held := by
  have hpair : ∀ e : Dev, (heldPair e).power = e.power := by
    intro e
    unfold heldPair
    extract_lets w x
    refine ite_prop (fun y : Dev => y.power = e.power) ?_ (by simp [x])
    by_cases hr : x.role = .syncing
    · unfold setRole; rw [if_pos hr]; simp [x]
    · obtain ⟨-, -, -, -, hp, -⟩ := setRole_facts x .syncing 0 hr
      rw [hp]; simp [x]
  unfold enterHeld
  rw [if_neg (by rw [h]; decide), if_pos h]
  extract_lets w x
  obtain ⟨-, -, -, hp, -⟩ := holdBlocks_kept x
  rw [hpair, recorded_power (recorded_report _ _ _ _), hp]

/-- In Held a sample's temperature is counted only. -/
theorem critical_held {d : Dev} (r : Nat) (t : Int) (h : d.power.phase = .held) : (critical d r t).power.phase = .held := by
  unfold critical
  extract_lets n w e
  have he : e.power.phase = .held := h
  rw [if_neg (by rw [he]; simp)]
  exact he

/-- The device is in Held, or it runs and region r has been critical for two samples at least. -/
def heldOrHot (r : Nat) (d : Dev) : Prop := d.power.phase = .held ∨ (d.power.phase = .on ∧ 2 ≤ nth d.health.hot r 0)

/-- The third critical sample of a region in a row is a Held trigger. -/
theorem critical_third {d : Dev} {r : Nat} {t : Int} (h : heldOrHot r d) (ht : 1200 ≤ t) : (critical d r t).power.phase = .held := by
  rcases h with h | ⟨hon, hhot⟩
  · exact critical_held r t h
  · have hn : min 3 (nth d.health.hot r 0 + 1) = 3 := by omega
    unfold critical
    simp only [if_pos ht, hn]
    rw [if_pos ⟨trivial, .inl hon⟩]
    exact enterHeld_phase _ _ _ _ (by simpa using hon)

/-- Another region's sample leaves region r's count. -/
theorem critical_other {d : Dev} {r x : Nat} (t : Int) (h : heldOrHot r d) (hx : r ≠ x) : heldOrHot r (critical d x t) := by
  rcases h with h | ⟨hon, hhot⟩
  · exact .inl (critical_held x t h)
  · unfold critical
    extract_lets n w e
    have heon : e.power.phase = .on := hon
    refine ite_prop (heldOrHot r) (.inl (enterHeld_phase _ _ _ _ (by simpa using heon))) (.inr ⟨heon, ?_⟩)
    have hne : nth e.health.hot r 0 = nth d.health.hot r 0 := by simp [e, nth_lset, hx]
    rw [hne]; exact hhot

theorem critical_foldl_held (f : Nat → Int) (l : List Nat) : ∀ d : Dev, d.power.phase = .held →
    (l.foldl (fun d r => critical d r (f r)) d).power.phase = .held := by
  induction l with
  | nil => exact fun d h => h
  | cons x t ih => exact fun d h => ih _ (critical_held x (f x) h)

theorem critical_foldl_third (f : Nat → Int) {r : Nat} (hr : 1200 ≤ f r) (l : List Nat) : ∀ d, r ∈ l → heldOrHot r d →
    (l.foldl (fun d r => critical d r (f r)) d).power.phase = .held := by
  induction l with
  | nil => exact fun d h => nomatch h
  | cons x t ih =>
    intro d hmem h
    rw [List.foldl_cons]
    by_cases hx : r = x
    · subst hx; exact critical_foldl_held f t _ (critical_third h hr)
    · exact ih _ (List.mem_of_ne_of_mem hx hmem) (critical_other _ h hx)

end Sys2Proof.Machine
end

section
/-! PROOFS. The wear ledger: its place in MRAM, OVER of an entry, and its commands (R446, R447). -/

namespace Sys2Proof.Machine

/-! ### The wear ledger (R446, R447) -/

/-- Bytes that are written read back. -/
theorem mbytes_mput (m : Tab W8) (a : Nat) (bs : List W8) : mbytes (mput m a bs) a bs.length = bs := by
  refine List.ext_getElem (by simp [mbytes]) (fun i _ hi => ?_)
  simp [mbytes, mrd_mput_in bs m a i hi, hi]

/-- Bytes of an area read the same in two memories that agree on the area. -/
theorem mbytes_congr {m k : Tab W8} {a n : Nat} (h : ∀ i, i < n → mrd m (a + i) = mrd k (a + i)) : mbytes m a n = mbytes k a n :=
  List.map_congr_left (fun i hi => h i (List.mem_range.mp hi))

theorem wearBytes_length (x : Wear) : (wearBytes x).length = 16 := by simp [wearBytes, length_leBytes]

theorem wearPut_bytes (d : Dev) (e : Nat) : mbytes (wearPut d e).mram (wearAt e) 16 = wearBytes (wearOf d e) := by
  have h := mbytes_mput d.mram (wearAt e) (wearBytes (wearOf d e))
  rw [wearBytes_length] at h
  exact h

theorem wearPut_out (d : Dev) (e a : Nat) (h : a < wearAt e ∨ wearAt e + 16 ≤ a) : mrd (wearPut d e).mram a = mrd d.mram a :=
  mrd_mput_out _ _ _ _ (by rw [wearBytes_length]; exact h)

/-- Two entries of the ledger do not overlap in MRAM (Table 18-10). -/
theorem wearAt_apart {e f i : Nat} (h : e ≠ f) (hi : i < 16) : wearAt e + i < wearAt f ∨ wearAt f + 16 ≤ wearAt e + i := by
  unfold wearAt; omega

/-- Saved entries stand in MRAM as the ledger has them, and nothing beside them has moved. -/
theorem wearPut_foldl (l : List Nat) : ∀ d : Dev,
    (∀ e ∈ l, mbytes (l.foldl wearPut d).mram (wearAt e) 16 = wearBytes (wearOf d e))
      ∧ ∀ a, (∀ e ∈ l, a < wearAt e ∨ wearAt e + 16 ≤ a) → mrd (l.foldl wearPut d).mram a = mrd d.mram a := by
  induction l with
  | nil => exact fun d => ⟨fun _ h => (nomatch h), fun _ _ => rfl⟩
  | cons x t ih =>
    intro d
    obtain ⟨hin, hout⟩ := ih (wearPut d x)
    refine ⟨fun e he => ?_, fun a ha => ?_⟩
    · by_cases ht : e ∈ t
      · exact hin e ht
      · have hx : e = x := (List.mem_cons.mp he).resolve_right ht
        subst hx
        have hkeep : mbytes (t.foldl wearPut (wearPut d e)).mram (wearAt e) 16 = mbytes (wearPut d e).mram (wearAt e) 16 :=
          mbytes_congr (fun i hi => hout _ (fun f hf => wearAt_apart (by rintro rfl; exact ht hf) hi))
        exact hkeep.trans (wearPut_bytes d e)
    · rw [List.foldl_cons, hout a (fun e he => ha e (List.mem_cons_of_mem _ he)), wearPut_out _ _ _ (ha x (List.mem_cons_self ..))]

/-- OVER of an entry that its count and its threshold give (R447). -/
def overDue (e : Nat) (x : Wear) : Bool := decide (x.thr ≠ 0 ∧ wearThr e x ≤ x.count)

/-- Whether OVER moves or not, an entry's change reaches its record and registers from its OVER bits on. -/
theorem setOver_spec (d : Dev) (e : Nat) (b : Bool) :
    (∃ r w, setOver d e b = { d with regs := r, wear := w }) ∧ wearOf (setOver d e b) e = { wearOf d e with worn := b }
      ∧ (∀ f, f ≠ e → wearOf (setOver d e b) f = wearOf d f) ∧ ∀ a, a < HLTH_WL_CNT → rd (setOver d e b) a = rd d a := by
  unfold setOver
  refine ⟨⟨_, _, rfl⟩, by simp, fun f hf => by simp [wearOf_setWear_ne _ _ hf], fun a ha => ?_⟩
  rw [rd_wrBit_ne _ _ _ (by unfold HLTH_WL_CNT at ha; unfold HLTH_WL_OVER; omega), rd_setWear]

/-- From d to m OVER of entry e has been judged; no other entry and no register below the count of OVER changes has moved (R447). -/
def OverJudged (e : Nat) (d m : Dev) : Prop :=
  (∃ r w, m = { d with regs := r, wear := w }) ∧ wearOf m e = { wearOf d e with worn := overDue e (wearOf d e) }
    ∧ (∀ f, f ≠ e → wearOf m f = wearOf d f) ∧ ∀ a, a < HLTH_WL_CNT → rd m a = rd d a

/-- An entry whose OVER stands as it is due is judged already. -/
theorem overJudged_same {e : Nat} {d : Dev} (h : (wearOf d e).worn = overDue e (wearOf d e)) : OverJudged e d d :=
  ⟨⟨_, _, rfl⟩, by rw [← h], fun _ _ => rfl, fun _ _ => rfl⟩

theorem overJudged_setOver {e : Nat} {d : Dev} {b : Bool} (h : overDue e (wearOf d e) = b) : OverJudged e d (setOver d e b) := by
  obtain ⟨heq, hsel, hoth, hreg⟩ := setOver_spec d e b
  exact ⟨heq, by rw [hsel, h], hoth, hreg⟩

theorem OverJudged.counted {e : Nat} {d m : Dev} (h : OverJudged e d m) : OverJudged e d (bump m HLTH_WL_CNT) := by
  obtain ⟨⟨r, w, heq⟩, hsel, hoth, hreg⟩ := h
  refine ⟨⟨_, w, by rw [heq]; rfl⟩, by rw [wearOf_bump, hsel], fun f hf => by rw [wearOf_bump, hoth f hf], fun a ha => ?_⟩
  rw [rd_bump_ne _ (Nat.ne_of_lt ha), hreg a ha]

/-- After a change of COUNT or THR, OVER of the entry is judged; where it sets, the change is counted and reported (R447). -/
theorem wearCheck_judged (d : Dev) (e : Nat) : ∃ m, OverJudged e d m ∧ Recorded m (wearCheck d e) := by
  unfold wearCheck
  by_cases hdue : (wearOf d e).thr ≠ 0 ∧ wearThr e (wearOf d e) ≤ (wearOf d e).count
  · have hover : overDue e (wearOf d e) = true := decide_eq_true hdue
    simp only [if_pos hdue]
    split
    · next hworn => exact ⟨d, overJudged_same (hworn.trans hover.symm), Recorded.refl d⟩
    · exact ⟨_, (overJudged_setOver hover).counted, recorded_fieldFaultAt _ _ _ _ _ _⟩
  · have hover : overDue e (wearOf d e) = false := decide_eq_false hdue
    simp only [if_neg hdue]
    split
    · exact ⟨_, overJudged_setOver hover, Recorded.refl _⟩
    · next hworn => exact ⟨d, overJudged_same ((Bool.not_eq_true _ ▸ hworn).trans hover.symm), Recorded.refl d⟩

/-- The device with an entry set, its OVER judged and its bytes in MRAM. -/
def wearStore (d : Dev) (e : Nat) (x : Wear) : Dev := wearPut (wearCheck (setWear d e x) e) e

/-- What the setting of an entry changes, and what it keeps: from d to f entry e alone is x, with OVER judged, here and in MRAM. -/
def EntryStored (e : Nat) (x : Wear) (d f : Dev) : Prop :=
  wearOf f e = { x with worn := overDue e x } ∧ mbytes f.mram (wearAt e) 16 = wearBytes (wearOf f e)
    ∧ (∀ k, k ≠ e → wearOf f k = wearOf d k) ∧ f.power = d.power ∧ f.role = d.role ∧ f.sig = d.sig
    ∧ ∀ a, a < HLTH_WL_CNT → rd f a = rd d a

theorem wearStore_spec (d : Dev) (e : Nat) (x : Wear) : EntryStored e x d (wearStore d e x) := by
  obtain ⟨m, ⟨⟨r, w, heq⟩, hsel, hoth, hreg⟩, hrec⟩ := wearCheck_judged (setWear d e x) e
  rw [wearOf_setWear_same] at hsel
  have hwear : ∀ k, wearOf (wearStore d e x) k = wearOf m k := fun k => recorded_wearOf hrec k
  refine ⟨(hwear e).trans hsel, wearPut_bytes _ e, fun k hk => ?_, ?_, ?_, ?_, fun a ha => ?_⟩
  · rw [hwear, hoth k hk, wearOf_setWear_ne _ _ hk]
  · exact (recorded_power hrec).trans (by rw [heq]; rfl)
  · exact (recorded_role hrec).trans (by rw [heq]; rfl)
  · exact (recorded_sig hrec).trans (by rw [heq]; rfl)
  · have hlt : a < dbBase := hlth_lt_db (lt_trans ha (by decide))
    have hput : rd (wearStore d e x) a = rd (wearCheck (setWear d e x) e) a := rd_congr (by unfold wearStore wearPut; rfl) a
    rw [hput, recorded_rd hrec (.inl hlt), hreg a ha, rd_setWear]

/-- A report keeps what an entry's setting has done. -/
theorem EntryStored.recorded {e : Nat} {x : Wear} {d f g : Dev} (h : EntryStored e x d f) (hr : Recorded f g) : EntryStored e x d g := by
  obtain ⟨hsel, hmem, hoth, hpow, hrole, hsig, hreg⟩ := h
  refine ⟨(recorded_wearOf hr e).trans hsel, ?_, fun k hk => (recorded_wearOf hr k).trans (hoth k hk), (recorded_power hr).trans hpow,
    (recorded_role hr).trans hrole, (recorded_sig hr).trans hsig, fun a ha => ?_⟩
  · rw [recorded_mram hr, recorded_wearOf hr]; exact hmem
  · exact (recorded_rd hr (.inl (hlth_lt_db (lt_trans ha (by decide))))).trans (hreg a ha)

/-- The entry that SET gives e: its threshold, and for a valve entry its source as it stands now (R447). -/
def wlEntry (d : Dev) (e : Nat) : Wear :=
  if 192 ≤ e then { wearOf d e with thr := rdN d HLTH_WL_THR, src := fld (rd d HLTH_WL_SRC) 14 0, bitNo := fld (rd d HLTH_WL_SRC) 20 16,
                                    en := bit (rd d HLTH_WL_SRC) 23, last := sigBit d (fld (rd d HLTH_WL_SRC) 14 0) (fld (rd d HLTH_WL_SRC) 20 16) }
  else { wearOf d e with thr := rdN d HLTH_WL_THR }

theorem wlSet_eq {d : Dev} {e : Nat} (he : e = fld (rd d HLTH_WL_SEL) 8 0) (hlt : e < 448) : wlSet d = wearStore d e (wlEntry d e) := by
  subst he
  unfold wlSet
  exact if_neg (Nat.not_le.mpr hlt)

theorem wlClear_eq {d : Dev} {e : Nat} (he : e = fld (rd d HLTH_WL_SEL) 8 0) (hlt : e < 448) :
    wlClear d = fieldFault (wearStore d e { wearOf d e with count := 0, frac := 0 }) .hlth 0 e (wearOf d e).count := by
  subst he
  unfold wlClear
  exact if_neg (Nat.not_le.mpr hlt)

/-- A selection beyond the ledger is an error of both commands (R447). -/
theorem wlSet_noEntry {d : Dev} (h : 448 ≤ fld (rd d HLTH_WL_SEL) 8 0) : wlSet d = err d .hlth 0x1421 HLTH_WL_CMD := by
  unfold wlSet; exact if_pos h
theorem wlClear_noEntry {d : Dev} (h : 448 ≤ fld (rd d HLTH_WL_SEL) 8 0) : wlClear d = err d .hlth 0x1421 HLTH_WL_CMD := by
  unfold wlClear; exact if_pos h

/-- An empty count is over no threshold. -/
theorem overDue_zero (e : Nat) (x : Wear) (h : x.count = 0) : overDue e x = false := by
  have hdue : ¬(x.thr ≠ 0 ∧ wearThr e x ≤ x.count) := by
    rintro ⟨hthr, hle⟩
    rw [h] at hle
    unfold wearThr at hle
    split at hle <;> omega
  exact decide_eq_false hdue

/-- A ledger command writes its own register alone before it acts. -/
theorem rd_wlIssued (d : Dev) (v : W32) {a : Nat} (h : a ≠ HLTH_WL_CMD) : rd (issued d .hlth 0x18C v) a = rd d a :=
  rd_issued_ne _ _ _ _ _ h

theorem wlEntry_issued (d : Dev) (v : W32) (e : Nat) : wlEntry (issued d .hlth 0x18C v) e = wlEntry d e := by
  have hthr : rdN (issued d .hlth 0x18C v) HLTH_WL_THR = rdN d HLTH_WL_THR := by unfold rdN; rw [rd_wlIssued _ _ (by decide)]
  have hsig : ∀ n b, sigBit (issued d .hlth 0x18C v) n b = sigBit d n b := fun n b => by unfold sigBit sigVal; rw [issued_sig]
  unfold wlEntry
  rw [wearOf_issued, rd_wlIssued _ _ (by decide), hthr, hsig]

/-- A ledger command that stores an entry completes with what it stores. -/
theorem completes_wl {c : Instr} {s : State} {v : W32} {f : Dev → Dev} {post : Dev → Prop} {e : Nat} {x : Wear}
    (hexec : exec c s = onDev true (fun _ d => hostCmd d .hlth 0x18C v f) s) (ha : admits s.dev .hlth 0x18C = true)
    (hf : EntryStored e x (issued s.dev .hlth 0x18C v) (f (issued s.dev .hlth 0x18C v)))
    (hp : ∀ d, wearOf d e = { x with worn := overDue e x } → mbytes d.mram (wearAt e) 16 = wearBytes (wearOf d e) →
      (∀ k, k ≠ e → wearOf d k = wearOf s.dev k) → d.power = s.dev.power → d.role = s.dev.role → d.sig = s.dev.sig → post d) :
    Completes c s post := by
  obtain ⟨hsel, hmem, hoth, hpow, hrole, hsig, hreg⟩ := hf
  refine completes_host (f := fun _ d => f d) hexec rfl ha (by decide) (hreg _ (by decide)) (hp _ hsel hmem ?_ ?_ ?_ ?_)
  · exact fun k hk => (hoth k hk).trans (wearOf_issued _ _ _ _ _)
  · exact hpow.trans (issued_power _ _ _ _)
  · exact hrole.trans (issued_role _ _ _ _)
  · exact hsig.trans (issued_sig _ _ _ _)

/-- A ledger command that selects no entry is refused (R447). -/
theorem completes_wlRefused {c : Instr} {s : State} {v : W32} {f : Dev → Dev}
    (hexec : exec c s = onDev true (fun _ d => hostCmd d .hlth 0x18C v f) s) (ha : admits s.dev .hlth 0x18C = true)
    (hf : ∀ d, 448 ≤ fld (rd d HLTH_WL_SEL) 8 0 → f d = err d .hlth 0x1421 HLTH_WL_CMD) (hno : 448 ≤ fld (rd s.dev HLTH_WL_SEL) 8 0) :
    Completes c s (Refused .hlth 0x1421 HLTH_WL_CMD s.dev) :=
  completes_onDev (f := fun _ d => hostCmd d .hlth 0x18C v f) hexec rfl
    (hostCmd_refused _ _ _ _ _ _ _ ha (by decide) (by decide) (by decide) (hf _ (by rw [rd_wlIssued _ _ (by decide)]; exact hno)))

end Sys2Proof.Machine
end

section
/-! PROOFS. The hourly update of the end-of-life indicators (R445), the end of the trim's ramp (R30), and the statement on health and
wear. -/

namespace Sys2Proof.Machine

/-! ### The hourly update (R445) -/

/-- The device with the indicators of an hourly update shown. -/
def eolShown (d : Dev) (s : EolSample) : Dev :=
  let d := (List.range 4).foldl (fun d r =>
    wrN (wrN (wrN d (HLTH_AGE r) (nth s.age r 0 % 65536)) (HLTH_EM r) (nth s.em r 0 % 65536)) (HLTH_CYC r) (nth s.cyc r 0)) d
  wrN (wrN d HLTH_TCDMG (tcDamage s.cyc)) HLTH_MRAM_ER s.mram

/-- The health record with the indicators entered into their history. -/
def eolEntered (d : Dev) : Health := { d.health with hist := (eolValues d :: d.health.hist).take 1000, hour := optMs d / 3600000 }

/-- The nearest of the predictions that a device's history gives. -/
def eolNearest (d : Dev) : Nat × (Nat × Nat × Nat) :=
  eolPick ((List.range 6).map (fun k => (k + 1, prediction (eolSeries d k) (nth (eolLimits d) k 0))))

/-- The registers of a prediction, with its flags. -/
def eolPredicted (d : Dev) (p : Nat × (Nat × Nat × Nat)) (info : Nat) : Dev :=
  wrN (wrN (wrN (wrN d HLTH_EOL p.2.1) HLTH_EOL_LO p.2.2.1) HLTH_EOL_HI p.2.2.2) HLTH_EOL_INFO info

/-- The device with the indicators of an hourly update shown and entered. -/
def eolMid (d : Dev) (s : EolSample) : Dev := setHealth (eolShown d s) (eolEntered (eolShown d s))

/-- An indicator has reached its limit. -/
def eolHit (d : Dev) (s : EolSample) : Bool := ((eolValues (eolShown d s)).zip (eolLimits (eolMid d s))).any (fun v => decide (v.2 ≤ v.1))

/-- The word of HLTH_EOL_INFO after an hourly update. -/
def eolInfo (d : Dev) (s : EolSample) : Nat :=
  let m := eolMid d s
  let p := eolNearest m
  let shown := wrN (wrN (wrN m HLTH_EOL p.2.1) HLTH_EOL_LO p.2.2.1) HLTH_EOL_HI p.2.2.2
  p.1 + 16 * b2n (decide (168 * 3600000 ≤ optMs shown)) + 32 * b2n (rdBit m HLTH_EOL_INFO 5 || eolHit d s)

/-- An hourly update shows the indicators, enters them and shows the nearest prediction; it may report. -/
theorem eolUpdate_recorded {d : Dev} (s : EolSample) (h : powered d = true ∧ optMs d / 3600000 ≠ d.health.hour) :
    Recorded (eolPredicted (eolMid d s) (eolNearest (eolMid d s)) (eolInfo d s)) (eolUpdate d s) := by
  obtain ⟨hp, hh⟩ := h
  have heq : eolUpdate d s = if eolHit d s && !rdBit (eolMid d s) HLTH_EOL_INFO 5
      then fieldFaultAt (eolPredicted (eolMid d s) (eolNearest (eolMid d s)) (eolInfo d s)) 13 .hlth (Config.faultCode 6) 0 0
      else eolPredicted (eolMid d s) (eolNearest (eolMid d s)) (eolInfo d s) := by
    unfold eolUpdate
    rw [if_neg (by simp [hp, hh])]
    rfl
  rw [heq]
  exact ite_prop (Recorded _) (recorded_fieldFaultAt _ _ _ _ _ _) (Recorded.refl _)

theorem eolShown_keeps (d : Dev) (s : EolSample) : (eolShown d s).power = d.power ∧ (eolShown d s).role = d.role ∧ (eolShown d s).sig = d.sig
    ∧ (eolShown d s).health = d.health ∧ optMs (eolShown d s) = optMs d := by
  simp only [eolShown, range_four, List.foldl_cons, List.foldl_nil, optMs, rd64]
  refine ⟨by simp, by simp, by simp, by simp, ?_⟩
  simp (disch := decide) only [rd_wrN_ne]

theorem eolShown_regions (d : Dev) (s : EolSample) (r : Nat) (hr : r < 4) :
    rd (eolShown d s) (HLTH_AGE r) = w32 (nth s.age r 0 % 65536) ∧ rd (eolShown d s) (HLTH_EM r) = w32 (nth s.em r 0 % 65536)
      ∧ rd (eolShown d s) (HLTH_CYC r) = w32 (nth s.cyc r 0) := by
  simp only [eolShown, range_four, List.foldl_cons, List.foldl_nil]
  interval_cases r <;> simp (disch := decide) only [rd_wrN_ne, rd_wrN_same, and_self]

theorem eolShown_module (d : Dev) (s : EolSample) :
    rd (eolShown d s) HLTH_TCDMG = w32 (tcDamage s.cyc) ∧ rd (eolShown d s) HLTH_MRAM_ER = w32 s.mram := by
  simp (disch := decide) only [eolShown, rd_wrN_ne, rd_wrN_same, and_self]

/-- The indicators are read from the registers below the prediction's. -/
theorem eolValues_congr {d e : Dev} (h : ∀ a, a < HLTH_EOL → rd e a = rd d a) : eolValues e = eolValues d := by
  simp (disch := decide) only [eolValues, rdN, range_four, List.foldl_cons, List.foldl_nil, h]

/-- The nearest prediction is made from the health record alone. -/
theorem eolNearest_congr {d e : Dev} (h : e.health = d.health) : eolNearest e = eolNearest d := by
  unfold eolNearest eolSeries eolLimits; rw [h]

/-- A prediction leaves the registers below its own. -/
theorem rd_eolPredicted_below (d : Dev) (p : Nat × (Nat × Nat × Nat)) (info : Nat) {a : Nat} (h : a < HLTH_EOL) :
    rd (eolPredicted d p info) a = rd d a := by
  have hlo : a < HLTH_EOL_LO := lt_trans h (by decide)
  have hhi : a < HLTH_EOL_HI := lt_trans h (by decide)
  have hinfo : a < HLTH_EOL_INFO := lt_trans h (by decide)
  unfold eolPredicted
  rw [rd_wrN_ne _ _ (Nat.ne_of_lt hinfo), rd_wrN_ne _ _ (Nat.ne_of_lt hhi), rd_wrN_ne _ _ (Nat.ne_of_lt hlo), rd_wrN_ne _ _ (Nat.ne_of_lt h)]

theorem rd_eolPredicted (d : Dev) (p : Nat × (Nat × Nat × Nat)) (info : Nat) :
    rd (eolPredicted d p info) HLTH_EOL = w32 p.2.1 ∧ rd (eolPredicted d p info) HLTH_EOL_LO = w32 p.2.2.1
      ∧ rd (eolPredicted d p info) HLTH_EOL_HI = w32 p.2.2.2 := by
  simp (disch := decide) only [eolPredicted, rd_wrN_ne, rd_wrN_same, and_self]

theorem eolPredicted_keeps (d : Dev) (p : Nat × (Nat × Nat × Nat)) (info : Nat) :
    (eolPredicted d p info).power = d.power ∧ (eolPredicted d p info).role = d.role ∧ (eolPredicted d p info).sig = d.sig
      ∧ (eolPredicted d p info).health = d.health := by
  simp [eolPredicted]

/-- What an hourly update leaves: registers below the prediction's as shown, the record entered, the nearest prediction shown. -/
theorem eolUpdate_spec {d : Dev} (s : EolSample) (h : powered d = true ∧ optMs d / 3600000 ≠ d.health.hour) :
    (∀ a, a < HLTH_EOL → rd (eolUpdate d s) a = rd (eolShown d s) a)
      ∧ (eolUpdate d s).health = { d.health with hist := (eolValues (eolUpdate d s) :: d.health.hist).take 1000, hour := optMs d / 3600000 }
      ∧ (rd (eolUpdate d s) HLTH_EOL = w32 (eolNearest (eolUpdate d s)).2.1 ∧ rd (eolUpdate d s) HLTH_EOL_LO = w32 (eolNearest (eolUpdate d s)).2.2.1
        ∧ rd (eolUpdate d s) HLTH_EOL_HI = w32 (eolNearest (eolUpdate d s)).2.2.2)
      ∧ (eolUpdate d s).power = d.power ∧ (eolUpdate d s).role = d.role ∧ (eolUpdate d s).sig = d.sig := by
  have hrec := eolUpdate_recorded s h
  generalize eolInfo d s = info at hrec
  obtain ⟨m, hm⟩ : ∃ m, m = eolMid d s := ⟨_, rfl⟩
  rw [← hm] at hrec
  unfold eolMid at hm
  obtain ⟨kp, kr, ks, kh, ko⟩ := eolShown_keeps d s
  obtain ⟨pp, pr, ps, ph⟩ := eolPredicted_keeps m (eolNearest m) info
  obtain ⟨e1, e2, e3⟩ := rd_eolPredicted m (eolNearest m) info
  generalize eolUpdate d s = u at *
  have hreg : ∀ a, a < HLTH_EOL → rd u a = rd (eolShown d s) a := fun a ha => by
    rw [recorded_rd hrec (.inl (lt_trans ha (by decide))), rd_eolPredicted_below _ _ _ ha, hm, rd_setHealth]
  have hhealth : u.health = m.health := (recorded_health hrec).trans ph
  refine ⟨hreg, ?_, ?_, ?_, ?_, ?_⟩
  · rw [hhealth, hm, setHealth_health, eolValues_congr hreg]
    unfold eolEntered
    rw [kh, ko]
  · rw [eolNearest_congr hhealth, recorded_rd hrec (.inl (by decide)), recorded_rd hrec (.inl (by decide)), recorded_rd hrec (.inl (by decide))]
    exact ⟨e1, e2, e3⟩
  · rw [recorded_power hrec, pp, hm, setHealth_power, kp]
  · rw [recorded_role hrec, pr, hm, setHealth_role, kr]
  · rw [recorded_sig hrec, ps, hm, setHealth_sig, ks]

/-- Outside its hour, and without power, an hourly update changes nothing (log entry 6). -/
theorem eolUpdate_idle {d : Dev} (s : EolSample) (h : ¬(powered d = true ∧ optMs d / 3600000 ≠ d.health.hour)) : eolUpdate d s = d := by
  unfold eolUpdate
  exact if_pos (by
    by_contra hc
    rw [not_or] at hc
    obtain ⟨hp, hh⟩ := hc
    exact h ⟨by simpa using hp, hh⟩)

/-! ### The trim's ramp (R30) -/

/-- Within its last unit the ramp arrives. -/
theorem trimSlewDone_arrives {d : Dev} (h : (trimAct d - trimTarget d).natAbs ≤ 1) :
    trimSlewDone d = if trimAct d = trimTarget d then d else wr d CLK_TRIM_ACT (w32i (trimTarget d)) := by
  unfold trimSlewDone trimRamp
  rw [if_pos h]
  by_cases he : trimAct d = trimTarget d
  · simp only [if_pos he]
  · have hlast : (if trimAct d < trimTarget d then trimAct d + 1 else trimAct d - 1) = trimTarget d := by split <;> omega
    simp only [if_neg he, hlast]

/-! ### Health and wear -/

/-- A sample below the critical temperature is shown and judged, and its counts of critical samples return to 0. -/
theorem healthSample_cool {d : Dev} {smp : HSample} (hp : powered d = true) (hcool : ∀ r, r < 4 → nth smp.tj r 0 < 1200) :
    ∃ x, healthSample d smp = setHealth (sampleJudged d smp) x := by
  rw [healthSample_powered smp hp]
  exact critical_cool_foldl (fun r => nth smp.tj r 0) (List.range 4) (fun r hr => hcool r (List.mem_range.mp hr)) _

/-- The third critical sample in a row of one region holds the device (R444). -/
theorem healthSample_third {d : Dev} {smp : HSample} {r : Nat} (hp : powered d = true) (hon : d.power.phase = .on) (hr : r < 4)
    (hhot : 2 ≤ nth d.health.hot r 0) (ht : 1200 ≤ nth smp.tj r 0) : (healthSample d smp).power.phase = .held := by
  obtain ⟨hpow, -, -, hot, -⟩ := thermalOnly_sampleJudged d smp
  obtain ⟨spow, -, -, shealth⟩ := sampleShown_keeps d smp
  rw [healthSample_powered smp hp]
  refine critical_foldl_third (fun r => nth smp.tj r 0) ht (List.range 4) _ (List.mem_range.mpr hr) (.inr ⟨?_, ?_⟩)
  · rw [hpow, spow]; exact hon
  · rw [hot, shealth]; exact hhot

/-- Settles O50: a sample is shown and judged before its counts of critical samples; an update enters the indicators that it then reads;
the ledger's commands store one entry; the ramp arrives within its last unit. -/
theorem healthAndWearAreKept : Obligations.HealthAndWearAreKept := by
  unfold Obligations.HealthAndWearAreKept
  intro s
  refine ⟨?sample, ?critical, ?hour, ?sameHour, ?ledgerSaved, ?set, ?clearCount, ?noEntry, ?trimArrives, ?trimOnTheWay, ?unpoweredSample⟩
  case sample =>
    rintro smp ⟨hp, hcool⟩
    refine completes_onDev (f := fun _ d => healthSample d smp) rfl rfl ?_
    obtain ⟨x, hx⟩ := healthSample_cool hp hcool
    obtain ⟨hpow, hrole, hsig, -, hreg⟩ := thermalOnly_sampleJudged s.dev smp
    obtain ⟨spow, srole, ssig, -⟩ := sampleShown_keeps s.dev smp
    obtain ⟨hcase, hregions⟩ := sampleShown_temps s.dev smp
    obtain ⟨hvin, hvka, hpin⟩ := sampleShown_supplies s.dev smp
    obtain ⟨hhot, hwarm⟩ := sampleJudged_flags s.dev smp
    have hshown : ∀ a, a < HLTH_THERM → rd (healthSample s.dev smp) a = rd (sampleShown s.dev smp) a := fun a ha => by
      rw [hx, rd_setHealth]
      exact hreg a (lt_trans ha (by decide)) (Nat.ne_of_lt ha) (Nat.ne_of_lt (lt_trans ha (by decide)))
    have hflag : ∀ i, rdBit (healthSample s.dev smp) HLTH_THERM i = rdBit (sampleJudged s.dev smp) HLTH_THERM i := fun i => by
      unfold rdBit; rw [hx, rd_setHealth]
    refine ⟨?_, fun r hr => ?_, ?_, ?_, ?_, ?_, (hflag 2).trans hhot, (hflag 4).trans hwarm, ?_, ?_⟩
    · rw [hshown _ (by decide), hcase]
    · rw [hshown _ (by unfold HLTH_TJ HLTH_THERM; omega), hregions r hr]
    · rw [hshown _ (by decide), hvin]
    · rw [hshown _ (by decide), hvka]
    · rw [hshown _ (by decide), hpin]
    · rw [hx, setHealth_power, hpow, spow]
    · rw [hx, setHealth_role, hrole, srole]
    · rw [hx, setHealth_sig, hsig, ssig]
  case critical =>
    rintro smp r ⟨hp, hon, hr, hhot, ht⟩
    exact completes_onDev (f := fun _ d => healthSample d smp) rfl rfl (healthSample_third hp hon hr hhot ht)
  case hour =>
    intro smp h
    refine completes_onDev (f := fun _ d => eolUpdate d smp) rfl rfl ?_
    obtain ⟨hreg, hhealth, hpred, hpow, hrole, hsig⟩ := eolUpdate_spec smp h
    obtain ⟨htc, hmram⟩ := eolShown_module s.dev smp
    refine ⟨fun r hr => ?_, ?_, ?_, hhealth, ?_, hpow, hrole, hsig⟩
    · obtain ⟨hage, hem, hcyc⟩ := eolShown_regions s.dev smp r hr
      rw [hreg _ (by unfold HLTH_AGE HLTH_EOL; omega), hreg _ (by unfold HLTH_EM HLTH_EOL; omega), hreg _ (by unfold HLTH_CYC HLTH_EOL; omega)]
      exact ⟨hage, hem, hcyc⟩
    · rw [hreg _ (by decide), htc]
    · rw [hreg _ (by decide), hmram]
    · rintro p rfl
      exact hpred
  case sameHour =>
    intro smp h
    exact exec_onDev (f := fun _ d => eolUpdate d smp) rfl rfl (eolUpdate_idle smp h)
  case ledgerSaved =>
    obtain ⟨hin, hout⟩ := wearPut_foldl (tkeys s.dev.wear) s.dev
    exact completes_onDev (f := fun _ d => wearSave d) rfl rfl ⟨wearSave_eq s.dev, hin, hout⟩
  case set =>
    rintro e x ⟨ha, he, hlt⟩ rfl
    have hstore : EntryStored e (wlEntry s.dev e) (issued s.dev .hlth 0x18C 1) (wlSet (issued s.dev .hlth 0x18C 1)) := by
      rw [wlSet_eq (e := e) (by rw [rd_wlIssued _ _ (by decide)]; exact he) hlt, wlEntry_issued]
      exact wearStore_spec _ _ _
    exact completes_wl rfl ha hstore (fun d hsel hmem hoth hpow hrole hsig => ⟨hsel, hmem, hoth, hpow, hrole, hsig⟩)
  case clearCount =>
    rintro e ⟨ha, he, hlt⟩
    have hstore : EntryStored e { wearOf s.dev e with count := 0, frac := 0 } (issued s.dev .hlth 0x18C 2) (wlClear (issued s.dev .hlth 0x18C 2)) := by
      rw [wlClear_eq (e := e) (by rw [rd_wlIssued _ _ (by decide)]; exact he) hlt, wearOf_issued]
      exact (wearStore_spec _ _ _).recorded (recorded_fieldFault _ _ _ _ _)
    refine completes_wl rfl ha hstore (fun d hsel hmem hoth hpow hrole hsig => ⟨?_, hmem, hoth, hpow, hrole, hsig⟩)
    rw [hsel, overDue_zero _ _ rfl]
  case noEntry =>
    rintro c ⟨ha, hbeyond, rfl | rfl⟩
    · exact completes_wlRefused rfl ha (fun _ => wlSet_noEntry) hbeyond
    · exact completes_wlRefused rfl ha (fun _ => wlClear_noEntry) hbeyond
  case trimArrives =>
    rintro t ⟨rfl, h⟩
    exact exec_onDev (f := fun _ d => trimSlewDone d) rfl rfl (trimSlewDone_arrives h)
  case trimOnTheWay =>
    intro h
    exact exec_onDev (d := s.dev) (f := fun _ d => trimSlewDone d) rfl rfl (by unfold trimSlewDone; exact if_neg (Nat.not_le.mpr h))
  case unpoweredSample =>
    intro smp h
    exact exec_onDev (d := s.dev) (f := fun _ d => healthSample d smp) rfl rfl (by unfold healthSample; exact if_neg (by simp [h]))

end Sys2Proof.Machine
end


section
/-! PROOFS. The commands of a recipe lane, admitted and in a state that Table 3-5 allows (R66, R67, R69, R70, R294). -/

namespace Sys2Proof.Machine

/-! ### What a lane finds when its command has been issued (R66) -/

/-- A lane command writes SQ_CMD alone before the lane acts. -/
theorem rd_sqIssued (d : Dev) (l : Nat) (v : W32) {a : Nat} (h : a ≠ SQ_CMD l) : rd (issued d (.sq l) 0x100 v) a = rd d a :=
  rd_issued_ne _ _ _ _ _ h

theorem runBit_sqIssued (d : Dev) (l : Nat) (v : W32) : runBit (issued d (.sq l) 0x100 v) (.sq l) = runBit d (.sq l) := by
  have hreg : rd (issued d (.sq l) 0x100 v) (pageBase (.sq l) + BLK_CTRL) = rd d (pageBase (.sq l) + BLK_CTRL) :=
    rd_issued_ne _ _ _ _ _ (by unfold BLK_CTRL; omega)
  exact congrArg (fun w => bit w 0) hreg

/-- The registers of the memory banks lie beyond the lanes' pages: the SRAM window is served as before (R419). -/
theorem rangeOn_sqIssued {l : Nat} (hl : l < 16) (d : Dev) (v : W32) (a n : Nat) : rangeOn (issued d (.sq l) 0x100 v) a n = rangeOn d a n := by
  have hilv : ilvW (issued d (.sq l) 0x100 v) = ilvW d := by
    unfold ilvW
    rw [rd_sqIssued _ _ _ (by unfold MB_ILV SQ_CMD mbBase sqBase; omega)]
  have hbank : bankOn (issued d (.sq l) 0x100 v) = bankOn d := funext fun b => by
    unfold bankOn bankSt
    rw [rd_sqIssued _ _ _ (by unfold MB_STAT SQ_CMD mbBase sqBase; omega)]
  unfold rangeOn segOf segBytes
  rw [hilv, hbank]

theorem followsPair_sqIssued (d : Dev) (l : Nat) (v : W32) : followsPair (issued d (.sq l) 0x100 v) = followsPair d := by
  have haddr : TW_CFG ≠ pageBase (.sq l) + 0x100 := by unfold TW_CFG pageBase twBase sqBase; simp only; omega
  unfold followsPair
  rw [pairEn_issued _ _ _ _ haddr, issued_role, issued_tw]

/-- The container that LOAD reads is the one that stands in the window as the command comes (R70, R294). -/
theorem loadCopy_sqIssued {l : Nat} (hl : l < 16) (d : Dev) (v : W32) (a n : Nat) : loadCopy (issued d (.sq l) 0x100 v) a n = loadCopy d a n := by
  unfold loadCopy sramCopy
  rw [followsPair_sqIssued, rangeOn_sqIssued hl, issued_sram]

theorem loadLen_sqIssued (d : Dev) (l : Nat) (v : W32) (a n : Nat) : loadLen (issued d (.sq l) 0x100 v) a n = loadLen d a n := by
  unfold loadLen sramLen rangeBad
  rw [followsPair_sqIssued, issued_poison]

/-! ### What the commands do (R67, R69) -/

/-- ERR_CODE of a lane's page stands apart from the registers of its slots. -/
theorem errCode_ne_schStat (l k : Nat) : pageBase (.sq l) + ERR_CODE ≠ SQ_SCH_STAT l k := by
  unfold pageBase ERR_CODE SQ_SCH_STAT; simp only; omega

theorem errCode_ne_marker (l : Nat) : pageBase (.sq l) + ERR_CODE ≠ SQ_MARKER l := by
  unfold pageBase ERR_CODE SQ_MARKER; simp only; omega

/-- A slot is armed as its own status word says. -/
theorem slotArmed_congr {d e : Dev} {l k : Nat} (h : rd e (SQ_SCH_STAT l k) = rd d (SQ_SCH_STAT l k)) : slotArmed e l k = slotArmed d l k :=
  congrArg (fun w => bit w 0) h

theorem schStat_ne_marker (l k : Nat) : SQ_SCH_STAT l k ≠ SQ_MARKER l := by unfold SQ_SCH_STAT SQ_MARKER; omega

theorem laneLoad_empty {d : Dev} {l : Nat} (h : (laneOf d l).st = .empty) :
    laneLoad d l = setLane d l { emptied (laneOf d l) with
      st := .loading
      copy := loadCopy d (rdN d (SQ_LOAD_ADDR l)) (rdN d (SQ_LOAD_LEN l))
      copyLen := loadLen d (rdN d (SQ_LOAD_ADDR l)) (rdN d (SQ_LOAD_LEN l)) } := if_pos h

theorem lanePause_running {d : Dev} {l : Nat} (h : (laneOf d l).st = .running) : lanePause d l = setLane d l { laneOf d l with st := .paused } := if_pos h

theorem laneContinue_paused {d : Dev} {l : Nat} (h : (laneOf d l).st = .paused) : laneContinue d l = setLane d l { laneOf d l with st := .running } := if_pos h

/-- A lane emptied of its image has released its entries and left every other alone; nothing of it is armed. -/
theorem laneUnload_spec {d : Dev} {l : Nat} (h : (laneOf d l).st = .loaded ∨ (laneOf d l).st = .done ∨ (laneOf d l).st = .fault) :
    laneOf (laneUnload d l) l = emptied (laneOf d l) ∧ rd (laneUnload d l) (SQ_MARKER l) = 0
      ∧ (∀ n ∈ ownedBy d clsLane l, attrOf (laneUnload d l) n = 0)
      ∧ (∀ n, n ∉ ownedBy d clsLane l → attrOf (laneUnload d l) n = attrOf d n ∧ sigVal (laneUnload d l) n = sigVal d n)
      ∧ (∀ k < 32, slotArmed (laneUnload d l) l k = false)
      ∧ rd (laneUnload d l) (pageBase (.sq l) + ERR_CODE) = rd d (pageBase (.sq l) + ERR_CODE) := by
  have hunload : laneUnload d l = laneEmpty (disarmAll d l) l := by
    unfold laneUnload
    obtain h | h | h := h <;> rw [h]
  have hattr : (disarmAll d l).attr = d.attr := disarmAll_keep (·.attr) wr_attr setLane_attr d l
  have hsig : (disarmAll d l).sig = d.sig := disarmAll_keep (·.sig) wr_sig setLane_sig d l
  have howned : ownedBy (disarmAll d l) clsLane l = ownedBy d clsLane l := by unfold ownedBy; rw [hattr]
  have hreg : ∀ a, a ≠ SQ_MARKER l → rd (laneUnload d l) a = rd (disarmAll d l) a := fun a ha => by
    rw [hunload, laneEmpty, rd_setLane, rd_wrN_ne _ _ ha, rd_releaseAll]
  have hattrs : ∀ n, attrOf (laneUnload d l) n = if n ∈ ownedBy d clsLane l then 0 else attrOf d n := fun n => by
    have hrel := attrOf_releaseAll (ownedBy d clsLane l) (disarmAll d l) n
    unfold attrOf at hrel ⊢
    rw [hunload, laneEmpty, setLane_attr, wrN_attr, howned, hrel, hattr]
  refine ⟨?_, ?_, fun n hn => ?_, fun n hn => ⟨?_, ?_⟩, fun k hk => ?_, ?_⟩
  · obtain ⟨t, u, w, hlane⟩ := lane_disarmAll d l
    rw [hunload, laneEmpty, laneOf_setLane_same, hlane]
    rfl
  · rw [hunload, laneEmpty, rd_setLane, rd_wrN_same]
    rfl
  · rw [hattrs, if_pos hn]
  · rw [hattrs, if_neg hn]
  · have hrel := sigVal_releaseAll (ownedBy d clsLane l) (disarmAll d l) n hn
    unfold sigVal at hrel ⊢
    rw [hunload, laneEmpty, setLane_sig, wrN_sig, howned, hrel, hsig]
  · rw [slotArmed_congr (hreg _ (schStat_ne_marker l k)), slotArmed_disarmAll _ _ _ hk]
  · rw [hreg _ (errCode_ne_marker l), rd_disarmAll _ _ _ (fun k _ => errCode_ne_schStat l k)]

/-- START enters the named step at the next tick, with marker, blocks, critical mark and arms cleared; the image and the signals
stand. -/
theorem laneStart_spec {d : Dev} {l name i : Nat} (hst : (laneOf d l).st = .loaded ∨ (laneOf d l).st = .done) (hrun : runBit d (.sq l) = true)
    (hix : startIx (laneOf d l).img name = some i) :
    ((laneOf (laneStart d l name) l).st = .running ∧ (laneOf (laneStart d l name) l).entry = some i
      ∧ (laneOf (laneStart d l name) l).stack = [] ∧ (laneOf (laneStart d l name) l).crit = false
      ∧ (laneOf (laneStart d l name) l).img = (laneOf d l).img ∧ rd (laneStart d l name) (SQ_MARKER l) = 0
      ∧ (∀ k < 32, slotArmed (laneStart d l name) l k = false) ∧ (laneStart d l name).sig = d.sig)
      ∧ rd (laneStart d l name) (pageBase (.sq l) + ERR_CODE) = rd d (pageBase (.sq l) + ERR_CODE) := by
  obtain ⟨e, he⟩ : ∃ e, e = wrN (laneHalt d l .running) (SQ_MARKER l) 0 := ⟨_, rfl⟩
  have hstart : laneStart d l name = setLane e l { laneOf e l with entry := some i } := by
    unfold laneStart laneStartAt
    simp only [if_pos (And.intro hst hrun), hix, he]
  obtain ⟨t, u, w, hlane⟩ := laneHalt_lane d l .running
  have helane : laneOf e l = laneOf (laneHalt d l .running) l := by rw [he, laneOf_wrN]
  have hreg : ∀ a, a ≠ SQ_MARKER l → rd (laneStart d l name) a = rd (laneHalt d l .running) a := fun a ha => by
    rw [hstart, rd_setLane, he, rd_wrN_ne _ _ ha]
  have hslot : laneOf (laneStart d l name) l = { laneOf e l with entry := some i } := by rw [hstart, laneOf_setLane_same]
  rw [hslot, helane, hlane]
  refine ⟨⟨rfl, rfl, rfl, rfl, rfl, ?_, fun k hk => ?_, ?_⟩, ?_⟩
  · rw [hstart, rd_setLane, he, rd_wrN_same]
    rfl
  · rw [slotArmed_congr (hreg _ (schStat_ne_marker l k)), slotArmed_laneHalt _ _ _ _ hk]
  · rw [hstart, setLane_sig, he, wrN_sig, laneHalt_keep (·.sig) wr_sig setLane_sig]
  · rw [hreg _ (errCode_ne_marker l), rd_laneHalt _ _ _ _ (fun k _ => errCode_ne_schStat l k)]

/-- STOP, from every state that takes it, drives the targets safe and leaves the lane loaded. -/
theorem laneStop_toLoaded {d : Dev} {l : Nat}
    (h : (laneOf d l).st = .running ∨ (laneOf d l).st = .paused ∨ (laneOf d l).st = .done ∨ (laneOf d l).st = .fault) :
    laneStop d l = laneToLoaded d l := by
  unfold laneStop
  obtain h | h | h | h := h <;> rw [h]

/-- ABORT acts as STOP where the image names no recovery step. -/
theorem laneAbort_toLoaded {d : Dev} {l : Nat} (hst : (laneOf d l).st = .running ∨ (laneOf d l).st = .paused) (h : (laneOf d l).img.abort = 0) :
    laneAbort d l = laneToLoaded d l := by
  unfold laneAbort
  simp only [if_pos hst, h]

/-- ABORT sends the lane, running, to the recovery step that the image names. -/
theorem laneAbort_goto {d : Dev} {l : Nat} (hst : (laneOf d l).st = .running ∨ (laneOf d l).st = .paused) (h : (laneOf d l).img.abort ≠ 0) :
    laneAbort d l = laneGoto (setLane d l { laneOf d l with st := .running }) l ((nameIx (laneOf d l).img.steps (laneOf d l).img.abort).getD 0) := by
  unfold laneAbort
  simp only [if_pos hst]

/-- Settles O16: each command by what the lane does to the device as issued; SQ_CMD, which the command has written, is none of the
registers that the lane reads or shows. -/
theorem laneCommandsMoveTheLane : Obligations.LaneCommandsMoveTheLane := by
  unfold Obligations.LaneCommandsMoveTheLane
  intro s
  refine ⟨?nop, ?load, ?unload, ?start, ?pause, ?cont, ?stop, ?abortToLoaded, ?abortToStep⟩
  case nop =>
    intro l hl ha
    exact exec_host (f := fun _ d => d) rfl (decide_eq_true hl) ha (by decide) rfl rfl
  case load =>
    intro l hl ha hst
    have hempty : (laneOf (issued s.dev (.sq l) 0x100 1) l).st = .empty := by rw [laneOf_issued]; exact hst
    refine exec_host (f := fun _ d => laneLoad d l) rfl (decide_eq_true hl) ha (by decide) (by rw [laneLoad_empty hempty, rd_setLane]) ?_
    rw [laneLoad_empty hempty, loadCopy_sqIssued hl, loadLen_sqIssued, laneOf_issued]
    unfold rdN
    rw [rd_sqIssued _ _ _ (by unfold SQ_LOAD_ADDR SQ_CMD; omega), rd_sqIssued _ _ _ (by unfold SQ_LOAD_LEN SQ_CMD; omega)]
  case unload =>
    intro l hl ha hst
    obtain ⟨hlane, hmark, hown, hoth, harm, herr⟩ := laneUnload_spec (d := issued s.dev (.sq l) 0x100 2) (by rw [laneOf_issued]; exact hst)
    unfold ownedBy at hown hoth
    rw [issued_attr] at hown hoth
    refine completes_host (f := fun _ d => laneUnload d l) rfl (decide_eq_true hl) ha (by decide) herr ⟨?_, hmark, hown, fun n hn => ?_, harm⟩
    · rw [hlane, laneOf_issued]
    · obtain ⟨hat, hsv⟩ := hoth n hn
      unfold attrOf sigVal at *
      rw [hat, hsv, issued_attr, issued_sig]
      exact ⟨rfl, rfl⟩
  case start =>
    rintro l name i ⟨hl, hname⟩ ha hst hrun hix
    have hspec := laneStart_spec (d := issued s.dev (.sq l) 0x100 (w32 (3 + 65536 * name))) (l := l) (name := name) (i := i)
    rw [laneOf_issued, runBit_sqIssued, issued_sig] at hspec
    obtain ⟨hpost, herr⟩ := hspec hst hrun hix
    exact completes_host (f := fun _ d => laneStart d l name) rfl (by simp only [hl, hname, decide_true, Bool.and_self]) ha (by decide) herr hpost
  case pause =>
    intro l hl ha hst
    have hpause := lanePause_running (d := issued s.dev (.sq l) 0x100 4) (l := l) (by rw [laneOf_issued]; exact hst)
    rw [laneOf_issued] at hpause
    exact exec_host (f := fun _ d => lanePause d l) rfl (decide_eq_true hl) ha (by decide) (by rw [hpause, rd_setLane]) hpause
  case cont =>
    intro l hl ha hst
    have hcont := laneContinue_paused (d := issued s.dev (.sq l) 0x100 5) (l := l) (by rw [laneOf_issued]; exact hst)
    rw [laneOf_issued] at hcont
    exact exec_host (f := fun _ d => laneContinue d l) rfl (decide_eq_true hl) ha (by decide) (by rw [hcont, rd_setLane]) hcont
  case stop =>
    intro l hl ha hst
    have hstop := laneStop_toLoaded (d := issued s.dev (.sq l) 0x100 6) (l := l) (by rw [laneOf_issued]; exact hst)
    obtain ⟨hloaded, himg, hmark, harm, hsafe, herr⟩ := laneToLoaded_facts (issued s.dev (.sq l) 0x100 6) l
    rw [← hstop, laneOf_issued] at himg hsafe
    rw [← hstop] at hloaded hmark harm herr
    rw [issued_stage2] at hsafe
    exact completes_host (f := fun _ d => laneStop d l) rfl (decide_eq_true hl) ha (by decide) herr ⟨hloaded, himg, hmark, harm, hsafe⟩
  case abortToLoaded =>
    intro l hl ha hst hab
    have habort := laneAbort_toLoaded (d := issued s.dev (.sq l) 0x100 7) (l := l) (by rw [laneOf_issued]; exact hst) (by rw [laneOf_issued]; exact hab)
    obtain ⟨hloaded, -, hmark, -, hsafe, herr⟩ := laneToLoaded_facts (issued s.dev (.sq l) 0x100 7) l
    rw [← habort] at hloaded hmark hsafe herr
    rw [laneOf_issued, issued_stage2] at hsafe
    exact completes_host (f := fun _ d => laneAbort d l) rfl (decide_eq_true hl) ha (by decide) herr ⟨hloaded, hmark, hsafe⟩
  case abortToStep =>
    intro l hl ha hst hab
    have habort := laneAbort_goto (d := issued s.dev (.sq l) 0x100 7) (l := l) (by rw [laneOf_issued]; exact hst) (by rw [laneOf_issued]; exact hab)
    rw [laneOf_issued, laneGoto, laneOf_setLane_same] at habort
    refine completes_host (f := fun _ d => laneAbort d l) rfl (decide_eq_true hl) ha (by decide) ?_ ⟨?_, ?_, ?_, ?_⟩
    · rw [habort, rd_setLane, rd_setLane]
    · rw [habort, laneOf_setLane_same]
    · rw [habort, laneOf_setLane_same]
    · rw [habort, setLane_stage2, setLane_stage2, issued_stage2]
    · rw [habort, setLane_sig, setLane_sig, issued_sig]

end Sys2Proof.Machine
end


section
/-! PROOFS. The end of a step's duration and the timeout of a WAIT (R74, R78), and the scheduled slots of a lane (R87 to R89). -/

namespace Sys2Proof.Machine

/-! ### The end of a duration (R74) -/

/-- The current step of a running lane reaches its duration at the coming tick. -/
theorem stepEnds_true {d : Dev} {l : Nat} (hst : (laneOf d l).st = .running) (hheld : held d = false) (hentry : (laneOf d l).entry = none)
    (hmid : (laneOf d l).mid = false) (hdur : (laneStep d l).dur ≠ 0) (hle : (laneStep d l).dur ≤ rdN d (SQ_ELAPSED l) + 1) :
    stepEnds d l = true := by
  simp [stepEnds, hst, hheld, hentry, hmid, hdur, hle]

/-- Outside every block the step after the current one comes next. -/
theorem durationGoes_next {d : Dev} {l : Nat} (hstack : (laneOf d l).stack = []) (hkind : (laneStep d l).kind ≠ 2) :
    durationGoes d l = (setLane d l { laneOf d l with stack := [] }, some (laneIx d l + 1)) := by
  unfold durationGoes laneNext
  simp only [if_neg hkind, hstack, passOn]

/-- A WAIT that times out goes to its target. -/
theorem durationGoes_target {d : Dev} {l : Nat} (hstack : (laneOf d l).stack = []) (hkind : (laneStep d l).kind = 2)
    (htarget : (laneStep d l).target ≠ 0) :
    durationGoes d l = (setLane d l { laneOf d l with stack := [] }, some (laneStep d l).targetIx) := by
  unfold durationGoes laneJump keepBlocks
  simp only [if_pos hkind, if_neg htarget, hstack, List.filter_nil]

/-- A WAIT without a target ends in the fault WAIT_TIMEOUT (R74). -/
theorem endsNow_fault {d : Dev} {l : Nat} (hkind : (laneStep d l).kind = 2) (htarget : (laneStep d l).target = 0) :
    endsNow d l = laneFault d l 0x0102 := by
  unfold endsNow durationGoes
  simp only [if_pos hkind, if_pos htarget]

/-- From d to e lane l alone has changed, by the step that it enters at the coming tick. -/
def EntersNext (l j : Nat) (d e : Dev) : Prop :=
  laneOf e l = { laneOf d l with entry := some j } ∧ (∀ m, m ≠ l → laneOf e m = laneOf d m) ∧ e = { d with lanes := e.lanes }

theorem endsNow_enters {d : Dev} {l j : Nat} (hstack : (laneOf d l).stack = [])
    (hgoes : durationGoes d l = (setLane d l { laneOf d l with stack := [] }, some j)) : EntersNext l j d (endsNow d l) := by
  unfold endsNow
  rw [hgoes]
  simp only [laneOf_setLane_same]
  refine ⟨?_, fun m hm => ?_, rfl⟩
  · rw [laneOf_setLane_same, ← hstack]
  · rw [laneOf_setLane_ne _ _ hm, laneOf_setLane_ne _ _ hm]

/-- A lane's fault: its page shows the code and the step, and its targets go to their safe values, marked SAFE (R22, R67, R467). -/
theorem laneFault_spec {l : Nat} (hl : l < 16) (d : Dev) (code : Nat) :
    (laneOf (laneFault d l code) l).st = .fault ∧ rdN (laneFault d l code) (sqBase l + ERR_CODE) % 65536 = code % 65536
      ∧ rd (laneFault d l code) (sqBase l + ERR_ADDR) = w32 (laneIx d l)
      ∧ (laneFault d l code).stage2 = d.stage2 ++ (laneOf d l).img.targets.map (fun t => ⟨t.n, t.safe, true⟩)
      ∧ (laneFault d l code).sig = d.sig := by
  obtain ⟨x, hx, hrec⟩ : ∃ x, x = err (laneHalt (laneSafe d l true) l .fault) (.sq l) code (laneIx d l) ∧ Recorded x (laneFault d l code) :=
    ⟨_, rfl, recorded_fieldFault _ _ _ _ _⟩
  have hcode : sqBase l + ERR_CODE < dbBase := by unfold sqBase ERR_CODE dbBase; omega
  have haddr : sqBase l + ERR_ADDR < dbBase := by unfold sqBase ERR_ADDR dbBase; omega
  obtain ⟨t, u, w, hlane⟩ := laneHalt_lane (laneSafe d l true) l .fault
  refine ⟨?_, ?_, ?_, ?_, ?_⟩
  · rw [recorded_laneOf hrec, hx, laneOf_err, hlane]
  · unfold rdN
    rw [recorded_rd hrec (.inl hcode), hx]
    exact err_code _ (.sq l) _ _
  · rw [recorded_rd hrec (.inl haddr), hx]
    exact err_addr _ (.sq l) _ _
  · rw [recorded_stage2 hrec, hx, err_stage2, laneHalt_keep (·.stage2) wr_stage2 setLane_stage2, laneSafe_stage2]
  · rw [recorded_sig hrec, hx, err_sig, laneHalt_keep (·.sig) wr_sig setLane_sig, laneSafe_keep (·.sig) (fun _ _ _ _ => rfl)]

/-! ### The control word of a slot (R87, R89) -/

/-- ARM and LATEPOL of the words that the rows write. -/
theorem schCtrl_arm : ∀ pol, bit (w32 (1 + 2 * b2n pol)) 0 = true ∧ (w32 (1 + 2 * b2n pol)).toNat % 4 = 1 + 2 * b2n pol
    ∧ bit (w32 (1 + 2 * b2n pol)) 1 = pol := by decide
theorem schCtrl_disarm : ∀ pol, bit (w32 (2 * b2n pol)) 0 = false ∧ (w32 (2 * b2n pol)).toNat % 4 = 2 * b2n pol
    ∧ bit (w32 (2 * b2n pol)) 1 = pol := by decide

/-- The late action of a slot is as its own control word says. -/
theorem latePol_of_rd {d : Dev} {l k : Nat} {v : W32} (h : rd d (SQ_SCH_CTRL l k) = v) : latePol d l k = bit v 1 :=
  congrArg (fun w => bit w 1) h

/-- A slot with a payload of a lane that has started is armed with the due time that stands (R76, R87). -/
theorem laneArmWrite_arm {d : Dev} {l k : Nat} (pol : Bool) (hst : (laneOf d l).st = .running ∨ (laneOf d l).st = .paused ∨ (laneOf d l).st = .done)
    (hkind : (nth (laneOf d l).img.sched k default).kind ≠ 0) :
    laneArmWrite d l k (w32 (1 + 2 * b2n pol)) = armSlot (wrN d (SQ_SCH_CTRL l k) (1 + 2 * b2n pol)) l k := by
  obtain ⟨harm, hlow, -⟩ := schCtrl_arm pol
  have htakes : ¬((laneOf d l).st = .empty ∨ (laneOf d l).st = .loaded ∨ (laneOf d l).st = .fault) := by
    obtain h | h | h := hst <;> simp [h]
  unfold laneArmWrite
  simp only [harm, hlow, if_true, if_neg htakes, if_neg hkind]

theorem laneArmWrite_disarm (d : Dev) (l k : Nat) (pol : Bool) :
    laneArmWrite d l k (w32 (2 * b2n pol)) = disarmSlot (wrN d (SQ_SCH_CTRL l k) (2 * b2n pol)) l k := by
  obtain ⟨harm, hlow, -⟩ := schCtrl_disarm pol
  unfold laneArmWrite
  simp only [harm, hlow, Bool.false_eq_true, if_false]

theorem rd64_schTime_ctrl (d : Dev) (l k v : Nat) : rd64 (wrN d (SQ_SCH_CTRL l k) v) (SQ_SCH_TIME l k) = rd64 d (SQ_SCH_TIME l k) :=
  rd64_wr_ne _ _ (by unfold SQ_SCH_TIME SQ_SCH_CTRL; omega) (by unfold SQ_SCH_TIME SQ_SCH_CTRL; omega)

/-- A slot without an arm in waiting is not late. -/
theorem late_laneUnarm (x : Lane) (k : Nat) : (laneUnarm x k).late.contains k = false := by simp [laneUnarm]

theorem late_armed (x : Lane) (k t : Nat) : (armed x k t).late.contains k = false := late_laneUnarm x k

theorem due_armed (x : Lane) (k t : Nat) : tget 0 (armed x k t).due k = t := tget_tset_same 0 _ k t

theorem st_armed (x : Lane) (k t : Nat) : (armed x k t).st = x.st := rfl

/-- The device with slot k of lane l armed for a due time, its control word written. -/
def slotSet (d : Dev) (l k : Nat) (pol : Bool) : Dev :=
  setLane (wrN (wrN d (SQ_SCH_CTRL l k) (1 + 2 * b2n pol)) (SQ_SCH_STAT l k) 1) l (armed (laneOf d l) k (rd64 d (SQ_SCH_TIME l k)))

theorem laneOf_slotSet (d : Dev) (l k : Nat) (pol : Bool) : laneOf (slotSet d l k pol) l = armed (laneOf d l) k (rd64 d (SQ_SCH_TIME l k)) :=
  laneOf_setLane_same _ _ _

theorem slotT_slotSet (d : Dev) (l k : Nat) (pol : Bool) : slotT (slotSet d l k pol) l k = rd64 d (SQ_SCH_TIME l k) := by
  unfold slotT
  rw [laneOf_slotSet, due_armed]

theorem rd_slotSet_stat (d : Dev) (l k : Nat) (pol : Bool) : rd (slotSet d l k pol) (SQ_SCH_STAT l k) = 1 := by
  unfold slotSet
  rw [rd_setLane, rd_wrN_same]
  rfl

theorem slotArmed_slotSet (d : Dev) (l k : Nat) (pol : Bool) : slotArmed (slotSet d l k pol) l k = true := by
  unfold slotArmed rdBit
  rw [rd_slotSet_stat]
  decide

theorem rd_slotSet_ne (d : Dev) (l k : Nat) (pol : Bool) {a : Nat} (hs : a ≠ SQ_SCH_STAT l k) (hc : a ≠ SQ_SCH_CTRL l k) :
    rd (slotSet d l k pol) a = rd d a := by
  unfold slotSet
  rw [rd_setLane, rd_wrN_ne _ _ hs, rd_wrN_ne _ _ hc]

theorem latePol_slotSet (d : Dev) (l k : Nat) (pol : Bool) : latePol (slotSet d l k pol) l k = pol := by
  have hctrl : rd (slotSet d l k pol) (SQ_SCH_CTRL l k) = w32 (1 + 2 * b2n pol) := by
    unfold slotSet
    rw [rd_setLane, rd_wrN_ne _ _ (by unfold SQ_SCH_CTRL SQ_SCH_STAT; omega), rd_wrN_same]
  obtain ⟨-, -, hpol⟩ := schCtrl_arm pol
  rw [latePol_of_rd hctrl, hpol]

theorem sig_slotSet (d : Dev) (l k : Nat) (pol : Bool) : (slotSet d l k pol).sig = d.sig := by
  unfold slotSet
  rw [setLane_sig, wrN_sig, wrN_sig]

theorem rd_slotSet_lateCnt (d : Dev) (l k : Nat) (pol : Bool) : rd (slotSet d l k pol) (SQ_LATE_CNT l) = rd d (SQ_LATE_CNT l) :=
  rd_slotSet_ne _ _ _ _ (by unfold SQ_LATE_CNT SQ_SCH_STAT; omega) (by unfold SQ_LATE_CNT SQ_SCH_CTRL; omega)

/-- An arm is judged by the due time that stands as the command comes (R87, R88). -/
theorem armSlot_ctrl_ontime {d : Dev} {l k : Nat} (pol : Bool) (h : d.tt + 10000 < rd64 d (SQ_SCH_TIME l k)) :
    armSlot (wrN d (SQ_SCH_CTRL l k) (1 + 2 * b2n pol)) l k = slotSet d l k pol := by
  rw [armSlot_ontime _ _ _ (by rw [wrN_tt, rd64_schTime_ctrl]; exact h), rd64_schTime_ctrl, laneOf_wrN]
  rfl
theorem armSlot_ctrl_late {d : Dev} {l k : Nat} (pol : Bool) (h : rd64 d (SQ_SCH_TIME l k) ≤ d.tt + 10000) :
    armSlot (wrN d (SQ_SCH_CTRL l k) (1 + 2 * b2n pol)) l k = lateAction (slotSet d l k pol) l k := by
  rw [armSlot_late _ _ _ (by rw [wrN_tt, rd64_schTime_ctrl]; exact h), rd64_schTime_ctrl, laneOf_wrN]
  rfl

/-! ### A slot that fires (R87) -/

theorem slotsLive_of {x : Lane} (h : x.st = .running ∨ x.st = .paused ∨ x.st = .done) : slotsLive x = true := by
  obtain h | h | h := h <;> simp [slotsLive, h]

/-- The device with slot k of lane l shown as fired and its arm gone; what the lane's own steps have yet to arm stays. -/
def slotSpent (d : Dev) (l k : Nat) : Dev :=
  setLane (wrN d (SQ_SCH_STAT l k) 2) l { laneUnarm (laneOf d l) k with staged := (laneOf d l).staged }

theorem laneOf_slotSpent (d : Dev) (l k : Nat) :
    laneOf (slotSpent d l k) l = { laneUnarm (laneOf d l) k with staged := (laneOf d l).staged } := laneOf_setLane_same _ _ _

/-- A fired slot keeps the image that the targets belong to. -/
theorem laneTarget_slotSpent (d : Dev) (l k n : Nat) : laneTarget (slotSpent d l k) l n = laneTarget d l n := by
  unfold laneTarget
  rw [laneOf_slotSpent]
  rfl

theorem rd_slotSpent_stat (d : Dev) (l k : Nat) : rd (slotSpent d l k) (SQ_SCH_STAT l k) = 2 := by
  unfold slotSpent
  rw [rd_setLane, rd_wrN_same]
  rfl

theorem safeReq_slotSpent (d : Dev) (l k : Nat) : safeReq (slotSpent d l k) (.sq l) = safeReq d (.sq l) := by
  have hctrl : rd (slotSpent d l k) (pageBase (.sq l) + BLK_CTRL) = rd d (pageBase (.sq l) + BLK_CTRL) := by
    unfold slotSpent
    rw [rd_setLane, rd_wrN_ne _ _ (by unfold pageBase BLK_CTRL SQ_SCH_STAT; simp only; omega)]
  exact congrArg (fun w => bit w 1) hctrl

/-- A slot that is due executes its payload, with its arm gone. -/
theorem schedSlotFire_due {d : Dev} {l k : Nat} (hst : (laneOf d l).st = .running ∨ (laneOf d l).st = .paused ∨ (laneOf d l).st = .done)
    (hheld : held d = false) (hdue : slotDue d l k (nextTT d) = true) :
    schedSlotFire d l k = laneAct (slotSpent d l k) l (nth (laneOf d l).img.sched k default) (slotLoc (slotSpent d l k) l k) := by
  unfold schedSlotFire slotFire
  simp only [hheld, Bool.false_eq_true, if_false, slotsLive_of hst, hdue, Bool.and_self, if_true, slotSpent]

/-- SIG_WRITE to a target of the lane, while no safe state is requested, stages the value (R76). -/
theorem actSigWrite_target {d : Dev} {l n v : Nat} {t : LTarget} (ht : laneTarget d l n = some t) (hsafe : safeReq d (.sq l) = false) :
    actSigWrite d l ⟨1, 0, n, v, 0⟩ = put2 d n (w32 v) false := by
  unfold actSigWrite laneWrite
  simp only [ht, hsafe, Bool.false_eq_true, if_false]

/-- Settles O18: an end by the step that durationGoes gives; a slot by the device with the slot set, on which LATE_ACTION works where
the due time has passed; a fire by the payload on the device with the arm gone. -/
theorem laneStepsAndSlotsActAtTheirTick : Obligations.LaneStepsAndSlotsActAtTheirTick := by
  unfold Obligations.LaneStepsAndSlotsActAtTheirTick
  intro s
  refine ⟨?durationEnd, ?timeout, ?timeoutFault, ?arm, ?armLate, ?disarm, ?fire⟩
  case durationEnd =>
    rintro l hl ⟨hst, hheld, hentry, hmid, hstack⟩ ⟨hkind, hdur, hle⟩
    have hends : stepDurationEnd s.dev l = endsNow s.dev l := if_pos ⟨stepEnds_true hst hheld hentry hmid hdur hle, hkind⟩
    refine completes_onDev (f := fun _ d => stepDurationEnd d l) rfl (decide_eq_true hl) ?_
    rw [hends]
    exact endsNow_enters hstack (durationGoes_next hstack (by omega))
  case timeout =>
    rintro l hl ⟨hst, hheld, hentry, hmid, hstack⟩ ⟨hkind, hdur, hle, hcond⟩ htarget
    have hends : waitTimeout s.dev l = endsNow s.dev l := if_pos ⟨stepEnds_true hst hheld hentry hmid hdur hle, hkind, hcond⟩
    refine completes_onDev (f := fun _ d => waitTimeout d l) rfl (decide_eq_true hl) ?_
    rw [hends]
    exact endsNow_enters hstack (durationGoes_target hstack hkind htarget)
  case timeoutFault =>
    rintro l hl ⟨hst, hheld, hentry, hmid⟩ ⟨hkind, hdur, hle, hcond⟩ htarget
    have hends : waitTimeout s.dev l = laneFault s.dev l 0x0102 :=
      (if_pos ⟨stepEnds_true hst hheld hentry hmid hdur hle, hkind, hcond⟩).trans (endsNow_fault hkind htarget)
    refine completes_onDev (f := fun _ d => waitTimeout d l) rfl (decide_eq_true hl) ?_
    rw [hends]
    exact laneFault_spec hl s.dev 0x0102
  case arm =>
    rintro l k pol ⟨hl, hk⟩ ha hst hkind htime
    have harm : laneArmWrite s.dev l k (w32 (1 + 2 * b2n pol)) = slotSet s.dev l k pol :=
      (laneArmWrite_arm pol hst hkind).trans (armSlot_ctrl_ontime pol htime)
    refine completes_admitted (f := fun _ d => laneArmWrite d l k (w32 (1 + 2 * b2n pol))) rfl (by simp only [hl, hk, decide_true, Bool.and_self]) ha ?_
    rw [harm]
    refine ⟨slotArmed_slotSet _ _ _ _, rd_slotSet_stat _ _ _ _, latePol_slotSet _ _ _ _, slotT_slotSet _ _ _ _, ?_, ?_, rd_slotSet_lateCnt _ _ _ _, sig_slotSet _ _ _ _⟩
    · rw [laneOf_slotSet, late_armed]
    · rw [laneOf_slotSet, st_armed]
  case armLate =>
    rintro l k pol ⟨hl, hk⟩ ha hst hkind htime
    have harm : laneArmWrite s.dev l k (w32 (1 + 2 * b2n pol)) = lateAction (slotSet s.dev l k pol) l k :=
      (laneArmWrite_arm pol hst hkind).trans (armSlot_ctrl_late pol htime)
    refine completes_admitted (f := fun _ d => laneArmWrite d l k (w32 (1 + 2 * b2n pol))) rfl (by simp only [hl, hk, decide_true, Bool.and_self]) ha ?_
    rw [harm]
    obtain ⟨hcnt, hslot, hstat, hlane, hsig⟩ := lateAction_facts (slotSet s.dev l k pol) l k hk
    rw [latePol_slotSet] at hslot hstat hlane
    refine ⟨by rw [hcnt, rd_slotSet_lateCnt], hslot, ?_, ?_, ?_, by rw [hsig, sig_slotSet]⟩
    · rw [hstat]
      cases pol <;> rfl
    · rw [hlane, slotT_slotSet]
    · rw [hlane]
      cases pol <;> simp
  case disarm =>
    rintro l k pol ⟨hl, hk⟩ ha
    refine completes_admitted (f := fun _ d => laneArmWrite d l k (w32 (2 * b2n pol))) rfl (by simp only [hl, hk, decide_true, Bool.and_self]) ha ?_
    rw [laneArmWrite_disarm]
    obtain ⟨-, -, hpol⟩ := schCtrl_disarm pol
    have hctrl : rd (disarmSlot (wrN s.dev (SQ_SCH_CTRL l k) (2 * b2n pol)) l k) (SQ_SCH_CTRL l k) = w32 (2 * b2n pol) := by
      rw [rd_disarmSlot _ _ _ _ (by unfold SQ_SCH_CTRL SQ_SCH_STAT; omega), rd_wrN_same]
    refine ⟨?_, (latePol_of_rd hctrl).trans hpol, late_disarmSlot _ _ _, ?_, ?_⟩
    · rw [slotArmed_disarmSlot _ _ _ _ hk hk]
      simp
    · rw [st_disarmSlot, laneOf_wrN]
    · rw [disarmSlot_keep (·.sig) wr_sig setLane_sig, wrN_sig]
  case fire =>
    rintro l k n v t ⟨hl, hk⟩ hst ⟨hheld, hdue⟩ hpay ht hsafe
    have hfire : schedSlotFire s.dev l k = put2 (slotSpent s.dev l k) n (w32 v) false := by
      rw [schedSlotFire_due hst hheld hdue, hpay]
      exact actSigWrite_target ((laneTarget_slotSpent _ _ _ _).trans ht) ((safeReq_slotSpent _ _ _).trans hsafe)
    refine completes_onDev (f := fun _ d => schedSlotFire d l k) rfl (by simp only [hl, hk, decide_true, Bool.and_self]) ?_
    rw [hfire]
    have hlane : laneOf (put2 (slotSpent s.dev l k) n (w32 v) false) l = { laneUnarm (laneOf s.dev l) k with staged := (laneOf s.dev l).staged } :=
      laneOf_slotSpent s.dev l k
    rw [hlane]
    refine ⟨?_, ?_, late_laneUnarm _ _, rfl, ?_⟩
    · rw [rd_put2, rd_slotSpent_stat]
    · rw [put2, slotSpent, setLane_stage2, wrN_stage2]
    · rw [put2, slotSpent, setLane_sig, wrN_sig]

end Sys2Proof.Machine
end


section
/-! PROOFS. Windows of a converter core (R144 to R146): the conversion that an unpaired core starts, its position after it, and the shadow
that a commit puts in force. -/

namespace Sys2Proof.Machine

/-! ### Pairing -/

/-- Pairing is read from AC_CFG of the even core and BLK_CTRL of both. -/
theorem paired_congr {d e : Dev} (k : Nat) (hcfg : rd e (AC_CFG (evenOf k)) = rd d (AC_CFG (evenOf k)))
    (hctrl : ∀ j, rd e (pageBase (.ac j) + BLK_CTRL) = rd d (pageBase (.ac j) + BLK_CTRL)) : paired e k = paired d k := by
  unfold paired runBit rdBit
  rw [hcfg, hctrl, hctrl]

theorem paired_setCore (d : Dev) (k j : Nat) (x : Core) : paired (setCore d k x) j = paired d j :=
  paired_congr j (rd_setCore _ _ _ _) (fun _ => rd_setCore _ _ _ _)

theorem settledOf_unpaired {d : Dev} {k : Nat} (h : paired d k = false) : settledOf d k = (coreOf d k).settled := by
  unfold settledOf
  rw [h]
  rfl

/-! ### The window of an unpaired core (R145, R153) -/

/-- An exchange changes slices and takes the exchange away, nothing else of the core. -/
theorem doExchange_frame (x : Core) : doExchange x = { x with slices := (doExchange x).slices, xchg := (doExchange x).xchg } := by
  unfold doExchange
  split
  · split <;> rfl
  · rfl

theorem doExchange_none {x : Core} (h : x.xchg = none) : doExchange x = x := by
  unfold doExchange
  rw [h]

/-- A core x whose current slot has started its window on the next entry. -/
def sampled (d : Dev) (k w0 : Nat) (x : Core) : Core :=
  { x with
    flight := x.flight ++ [⟨seqEntry d k x.pos % 16, seqEntry d k x.pos / 128 % 2 == 1, x.tag,
      (sliceIn x (fun t => t.role == .active && t.slot == x.slot)).getD 0, w0, (coreOf d k).settled⟩]
    slot := (x.slot + 1) % 8 }

theorem adcWindow_unpaired {d : Dev} {k : Nat} (w0 : Nat) (hconv : acConverts d k = true) (hp : paired d k = false) :
    adcWindow d k w0 = windowNext (setCore d k (sampled d k w0 (doExchange (coreOf d k)))) k := by
  unfold adcWindow
  simp only [hconv, if_true, hp, Bool.false_eq_true, if_false, settledOf_unpaired hp]
  rfl

/-- Before the last entry the position moves on. -/
theorem windowNext_on {d : Dev} {k : Nat} {x : Core} (hp : paired d k = false) (h : x.pos + 1 < x.len) :
    windowNext (setCore d k x) k = setCore (setCore d k x) k { x with pos := x.pos + 1 } := by
  unfold windowNext
  simp only [paired_setCore, hp, Bool.false_eq_true, if_false, coreOf_setCore_same, if_neg (Nat.not_le.mpr h)]

/-- After the last entry the sequence begins anew with the next tag, with the shadow where one is committed (R146). -/
theorem windowNext_wrap {d : Dev} {k : Nat} {x : Core} (hp : paired d k = false) (h : x.len ≤ x.pos + 1) :
    coreOf (windowNext (setCore d k x) k) k = { x with
      pos := 0, tag := (x.tag + 1) % 16, pend := false, len := if x.pend then fld (rd d (AC_SEQ_LEN k)) 6 0 else x.len } := by
  unfold windowNext
  simp only [paired_setCore, hp, Bool.false_eq_true, if_false, coreOf_setCore_same, if_pos h]
  cases hpend : x.pend with
  | true => simp only [if_true, coreOf_takeShadow, coreOf_setCore_same, rd_setCore]
  | false => simp only [Bool.false_eq_true, if_false, coreOf_setCore_same]

/-! ### The shadow (R146) -/

/-- A shadow taken writes the active sequence's registers alone. -/
theorem rd_takeShadow_ne (d : Dev) (k : Nat) {a : Nat} (h : ∀ w, a ≠ AC_SEQA k w) : rd (takeShadow d k) a = rd d a := by
  unfold takeShadow
  simp only [rd_setCore]
  exact foldl_keep (fun d => rd d a) _ _ (fun w _ d => rd_wr_ne _ _ (h w)) d

/-- A core that does not convert takes the shadow at once. -/
theorem seqCommit_idle {d : Dev} {k : Nat} (h : (coreOf d k).on = false) : seqCommit d k = takeShadow d k := if_pos (.inl h)

/-- A core that converts its own sequence takes it at the next wrap. -/
theorem seqCommit_running {d : Dev} {k : Nat} (hon : (coreOf d k).on = true) (hlen : (coreOf d k).len ≠ 0) (hp : paired d k = false) :
    seqCommit d k = setCore d k { coreOf d k with pend := true } := by
  unfold seqCommit
  exact if_neg (by simp [hon, hlen, hp])

/-- A commit is no write of a register that pairing reads. -/
theorem paired_issued_commit (d : Dev) (k j : Nat) (v : W32) : paired (issued d (.ac k) 0x10C v) j = paired d j :=
  paired_congr j (rd_issued_ne _ _ _ _ _ (by simp only [pageBase]; unfold AC_CFG acBase; omega))
    (fun i => rd_issued_ne _ _ _ _ _ (by simp only [pageBase]; unfold acBase BLK_CTRL; omega))

end Sys2Proof.Machine
end


section
/-! PROOFS. The delivered result of a conversion (R147), starved channels (R150), the rotation of the slices and their calibration (R153,
R155), and the statement on converter cores. -/

namespace Sys2Proof.Machine

/-! ### A delivered result (R147) -/

/-- The word of a result: VALID, CAL, OVR, OPEN, TAG and the sample (Table 6-7). -/
def resultWord (valid cal ovr opn : Bool) (tag : Nat) (s : Int) : W32 :=
  w32 (0x80000000 * b2n valid + 0x40000000 * b2n cal + 0x20000000 * b2n ovr + 0x10000000 * b2n opn + 0x1000000 * tag + (s % 0x1000000).toNat)

/-- A result is valid by the reference at its start and now, and by its channel's front end. -/
def resultValid (d : Dev) (k : Nat) (cv : Conv) : Bool := cv.settled && settledOf d k && (chOf d (resCore d k) cv.ch).settling.isNone

/-- The open-wire counts leave the reference as it is. -/
theorem settledOf_owResult (d : Dev) (k j n : Nat) (v : Int) : settledOf (owResult d j n v) k = settledOf d k := by
  have hset : ∀ d c i, (coreOf (setCh d j n c) i).settled = (coreOf d i).settled := fun d c i => by rw [coreOf_setCh]
  have hpair : ∀ d b, paired (wrBit d (AC_OPEN j) n b) k = paired d k := fun d b =>
    paired_congr k (rd_wrBit_ne _ _ _ (by unfold AC_CFG AC_OPEN acBase; omega))
      (fun i => rd_wrBit_ne _ _ _ (by simp only [pageBase]; unfold AC_OPEN acBase BLK_CTRL; omega))
  refine owResult_keep (fun d => settledOf d k) d j n v (fun d c => ?_) (fun d b => ?_)
  · show settledOf (setCh d j n c) k = settledOf d k
    unfold settledOf
    rw [hset, setCh, paired_setCore]
  · show settledOf (wrBit d (AC_OPEN j) n b) k = settledOf d k
    unfold settledOf
    rw [hpair, coreOf_wrBit]

/-- A result that passed its check and is not withheld: its word is shown, and nothing is staged by it. -/
theorem deliver_shown {d : Dev} {k : Nat} {cv : Conv} (fresh ovr : Bool) (s : Int) (how : owMode d (resCore d k) cv.ch ≠ 2) :
    rd (deliver d k cv fresh true ovr s) (AC_CH_LAST (resCore d k) cv.ch)
        = resultWord (resultValid d k cv) (fresh && resultValid d k cv) ovr (chOf (deliver d k cv fresh true ovr s) (resCore d k) cv.ch).open_
            cv.tag s
      ∧ (coreOf (deliver d k cv fresh true ovr s) k).flight = (coreOf d k).flight
      ∧ (deliver d k cv fresh true ovr s).stage1 = d.stage1 ∧ (deliver d k cv fresh true ovr s).sig = d.sig := by
  have hflight : (coreOf (owResult d (resCore d k) cv.ch s) k).flight = (coreOf d k).flight :=
    owResult_keep (fun d => (coreOf d k).flight) _ _ _ _ (fun _ _ => by rw [coreOf_setCh]) (fun _ _ => by rw [coreOf_wrBit])
  have hstage : (owResult d (resCore d k) cv.ch s).stage1 = d.stage1 :=
    owResult_keep (·.stage1) _ _ _ _ (fun _ _ => rfl) (fun _ _ => wrBit_stage1 _ _ _ _)
  have hsig : (owResult d (resCore d k) cv.ch s).sig = d.sig :=
    owResult_keep (·.sig) _ _ _ _ (fun _ _ => rfl) (fun _ _ => wrBit_sig _ _ _ _)
  have hnot : (owMode d (resCore d k) cv.ch == 2) = false := by simpa using how
  unfold deliver
  simp only [hnot, Bool.false_and, Bool.not_false, Bool.and_true, settledOf_owResult, owResult_settling]
  obtain ⟨hword, hfl, hst, hsg, hopen⟩ := result_tail _ _ _ _ _ _ _ _
  exact ⟨by rw [hword, hopen]; rfl, (hfl k).trans hflight, hst.trans hstage, hsg.trans hsig⟩

/-- A core whose oldest conversion has been delivered and has passed its check. -/
def deliveredCore (x : Core) (cv : Conv) (rest : List Conv) : Core :=
  leave (setSlice { x with flight := rest } cv.slice { sliceOf x cv.slice with fresh := false, fails := 0 })

/-- A conversion that passed its check retires no slice. -/
theorem adcDone_ok {d : Dev} {k : Nat} {cv : Conv} {rest : List Conv} (sample : Int) (ovr : Bool) (h : (coreOf d k).flight = cv :: rest) :
    adcDone d k sample ovr true = deliver (setCore d k (deliveredCore (coreOf d k) cv rest)) k cv (sliceOf (coreOf d k) cv.slice).fresh true
      (ovr || decide (0x800000 ≤ sample) || decide (sample ≤ -0x800000)) (clampI (-0x800000) 0x7FFFFF sample) := by
  unfold adcDone
  simp only [h]
  exact if_neg (by simp)

/-- What a result is judged by does not change with the delivery itself. -/
theorem setCore_delivered (d : Dev) (k : Nat) (cv : Conv) (rest : List Conv) :
    (∀ j, resCore (setCore d k (deliveredCore (coreOf d k) cv rest)) j = resCore d j)
      ∧ (∀ j n, owMode (setCore d k (deliveredCore (coreOf d k) cv rest)) j n = owMode d j n)
      ∧ resultValid (setCore d k (deliveredCore (coreOf d k) cv rest)) k cv = resultValid d k cv := by
  have hres : ∀ j, resCore (setCore d k (deliveredCore (coreOf d k) cv rest)) j = resCore d j := fun j => by
    unfold resCore; rw [paired_setCore]
  have hset : ∀ j, (coreOf (setCore d k (deliveredCore (coreOf d k) cv rest)) j).settled = (coreOf d j).settled := fun j => by
    rw [coreOf_setCore]
    split
    · next h => subst h; rfl
    · rfl
  have hch : ∀ j n, chOf (setCore d k (deliveredCore (coreOf d k) cv rest)) j n = chOf d j n := fun j n => by
    unfold chOf
    rw [coreOf_setCore]
    split
    · next h => subst h; rfl
    · rfl
  refine ⟨hres, fun j n => ?_, ?_⟩
  · unfold owMode; rw [rd_setCore, setCore_role]
  · unfold resultValid settledOf; rw [hres, hch, paired_setCore, hset]

/-- The oldest conversion, checked and not withheld, shows the sample within 24 bits; OVR also where the sample lies beyond them. -/
theorem adcDone_shown {d : Dev} {k : Nat} {cv : Conv} {rest : List Conv} (sample : Int) (ovr : Bool) (h : (coreOf d k).flight = cv :: rest)
    (how : owMode d (resCore d k) cv.ch ≠ 2) :
    rd (adcDone d k sample ovr true) (AC_CH_LAST (resCore d k) cv.ch)
        = resultWord (resultValid d k cv) ((sliceOf (coreOf d k) cv.slice).fresh && resultValid d k cv)
            (ovr || decide (0x800000 ≤ sample) || decide (sample ≤ -0x800000)) (chOf (adcDone d k sample ovr true) (resCore d k) cv.ch).open_
            cv.tag (clampI (-0x800000) 0x7FFFFF sample)
      ∧ (coreOf (adcDone d k sample ovr true) k).flight = rest ∧ (adcDone d k sample ovr true).stage1 = d.stage1
      ∧ (adcDone d k sample ovr true).sig = d.sig := by
  obtain ⟨hres, hmode, hvalid⟩ := setCore_delivered d k cv rest
  rw [adcDone_ok sample ovr h]
  obtain ⟨hword, hflight, hstage, hsig⟩ := deliver_shown (d := setCore d k (deliveredCore (coreOf d k) cv rest)) (k := k) (cv := cv)
    (sliceOf (coreOf d k) cv.slice).fresh (ovr || decide (0x800000 ≤ sample) || decide (sample ≤ -0x800000))
    (clampI (-0x800000) 0x7FFFFF sample) (by rw [hmode, hres]; exact how)
  rw [hres, hvalid] at hword
  refine ⟨hword, ?_, hstage, hsig⟩
  rw [hflight, coreOf_setCore_same]
  rfl

/-! ### Starved channels (R150) -/

/-- The staged safe value of a channel that is claimed and set to show it. -/
def starvedPut (d : Dev) (k n : Nat) : List SigW :=
  if bit (rd d (AC_CH_DST k n)) 16 && bit (rd d (AC_CH_CFG k n)) 12 then [⟨fld (rd d (AC_CH_DST k n)) 14 0, acSafe d k n, true⟩] else []

/-- A starved channel is marked and stages its safe value. -/
theorem adcStarved_due {d : Dev} {k n : Nat} (h : (coreOf d k).on = true ∧ (chOf d k n).any_ = false ∧ 16 ≤ bp d - (chOf d k n).lastBp) :
    adcStarved d k n = { wrBit d (AC_INVAL k) n true with stage1 := d.stage1 ++ starvedPut d k n } := by
  have hcfg : rd (wrBit d (AC_INVAL k) n true) (AC_CH_CFG k n) = rd d (AC_CH_CFG k n) := rd_wrBit_ne _ _ _ (by unfold AC_CH_CFG AC_INVAL; omega)
  have hsafe : acSafe (wrBit d (AC_INVAL k) n true) k n = acSafe d k n := by
    unfold acSafe rdBit
    rw [rd_wrBit_ne _ _ _ (by unfold AC_CH_DST AC_INVAL; omega), rd_wrBit_ne _ _ _ (by unfold AC_CH_SAFE AC_INVAL; omega)]
  unfold adcStarved starvedPut rdBit
  simp only [if_pos h, hcfg, hsafe, Bool.and_eq_true]
  split
  · rw [put1, wrBit_stage1]
  · rw [List.append_nil, ← wrBit_stage1 d (AC_INVAL k) n true]

theorem adcStarved_spec {d : Dev} {k n : Nat} (hn : n < 16)
    (h : (coreOf d k).on = true ∧ (chOf d k n).any_ = false ∧ 16 ≤ bp d - (chOf d k n).lastBp) :
    (∀ i < 16, bit (rd (adcStarved d k n) (AC_INVAL k)) i = (decide (i = n) || bit (rd d (AC_INVAL k)) i))
      ∧ (adcStarved d k n).stage1 = d.stage1 ++ starvedPut d k n ∧ (adcStarved d k n).cores = d.cores ∧ (adcStarved d k n).sig = d.sig := by
  have hinval : rd (wrBit d (AC_INVAL k) n true) (AC_INVAL k) = putBit (rd d (AC_INVAL k)) n true := rd_wr_same _ _ _
  have hregs : (adcStarved d k n).regs = (wrBit d (AC_INVAL k) n true).regs := by rw [adcStarved_due h]
  refine ⟨fun i _ => ?_, by rw [adcStarved_due h], by rw [adcStarved_due h, wrBit_cores], by rw [adcStarved_due h, wrBit_sig]⟩
  rw [rd_congr hregs, hinval, bit_putBit _ _ _ _ (by omega)]
  by_cases hi : i = n <;> simp [hi]

/-! ### Rotation (R153) -/

/-- A slice with one more period in its slot. -/
def aged (t : Slice) : Slice := if t.role = .active then { t with periods := min 65535 (t.periods + 1) } else t

theorem role_aged (t : Slice) : (aged t).role = t.role := by
  unfold aged
  split <;> rfl

theorem role_nth_aged (l : List Slice) (i : Nat) : (nth (l.map aged) i default).role = (nth l i default).role := by
  unfold nth
  rw [List.getElem?_map]
  cases l[i]? with
  | none => rfl
  | some t => exact role_aged t

/-- The active slice with the most periods, and its periods. -/
def oldest (sl : List Slice) : Option (Nat × Nat) :=
  (List.range 9).foldl (fun b i =>
    let s := nth sl i default
    if s.role ≠ .active then b else match b with
      | some (j, q) => if q < s.periods then some (i, s.periods) else some (j, q)
      | none => some (i, s.periods)) none

theorem oldest_spec {sl : List Slice} (h : (nth sl 0 default).role = .active) :
    ∃ out q, oldest sl = some (out, q) ∧ (nth sl out default).role = .active
      ∧ ∀ i < 9, (nth sl i default).role = .active → (nth sl i default).periods ≤ (nth sl out default).periods := by
  obtain ⟨hact, -, hmax⟩ := best_spec sl (List.range 9) none (fun _ hp => nomatch hp)
  obtain ⟨⟨out, q⟩, hsome, -⟩ := hmax 0 (by decide) h
  obtain ⟨hrole, hper⟩ := hact _ hsome
  refine ⟨out, q, hsome, hrole, fun i hi hia => ?_⟩
  obtain ⟨p, hp, hle⟩ := hmax i (List.mem_range.mpr hi) hia
  cases hsome.symm.trans hp
  exact hle.trans hper.ge

/-- At a boundary of a core that rotates, the oldest active slice and the spare are due to change places. -/
theorem calRotation_due {d : Dev} {k sp out q : Nat}
    (hrot : (coreOf d k).on = true ∧ (coreOf d k).quar = false ∧ (coreOf d k).xchg = none ∧ calPaused d k = false
      ∧ (coreOf d k).rotAt ≠ some (bp d))
    (hper : 0 < calPer d k ∧ bp d % calPer d k = 0) (hsp : sliceIn (coreOf d k) (fun t => t.role == .spare) = some sp)
    (hout : oldest ((coreOf d k).slices.map aged) = some (out, q)) :
    calRotation d k = setCore d k { coreOf d k with slices := (coreOf d k).slices.map aged, rotAt := some (bp d), xchg := some (out, sp) } := by
  obtain ⟨hon, hquar, hx, hp, hat⟩ := hrot
  have hdue : dueAt (bp d) (calPer d k) 0 = true := by simp [dueAt, hper]
  have hgo : ¬((coreOf d k).on = false ∨ (coreOf d k).quar ∨ calPaused d k ∨ dueAt (bp d) (calPer d k) 0 = false
      ∨ (coreOf d k).xchg.isSome ∨ (coreOf d k).rotAt = some (bp d)) := by simp [hon, hquar, hx, hp, hat, hdue]
  have hrow : calRotation d k = match oldest ((coreOf d k).slices.map aged), sliceIn (coreOf d k) (fun t => t.role == .spare) with
      | some (out, _), some sp => setCore d k { coreOf d k with slices := (coreOf d k).slices.map aged, rotAt := some (bp d), xchg := some (out, sp) }
      | _, _ => setCore d k { coreOf d k with slices := (coreOf d k).slices.map aged, rotAt := some (bp d) } := if_neg hgo
  rw [hrow, hout, hsp]

/-! ### Calibration (R153, R155) -/

/-- A good measurement is stored, counted, and its slice becomes the spare. -/
theorem sliceCalDone_good {d : Dev} {k i : Nat} {off gain skew : Int} (hi : sliceIn (coreOf d k) (fun t => t.role == .calibrating) = some i)
    (hrun : (coreOf d k).quar = false ∧ calPaused d k = false) (hgood : calGood off gain skew = true) :
    sliceCalDone d k (some (off, gain, skew)) = bump (setCore (wrN (wrN (wrN d (AC_SL_OFF k i) (off % 0x1000000).toNat)
      (AC_SL_GAIN k i) (gain % 0x1000000).toNat) (AC_SL_SKEW k i) (skew % 65536).toNat) k (setSlice (coreOf d k) i ⟨.spare, 0, 0, false, 0⟩))
      (AC_CAL_CNT k) := by
  unfold sliceCalDone
  simp only [hi]
  rw [if_neg (by simp [hrun]), if_pos hgood]

theorem sliceCalDone_stored {d : Dev} {k i : Nat} {off gain skew : Int} (hsl : sliceIn (coreOf d k) (fun t => t.role == .calibrating) = some i)
    (hrun : (coreOf d k).quar = false ∧ calPaused d k = false) (hgood : calGood off gain skew = true) :
    coreOf (sliceCalDone d k (some (off, gain, skew))) k = setSlice (coreOf d k) i ⟨.spare, 0, 0, false, 0⟩
      ∧ rd (sliceCalDone d k (some (off, gain, skew))) (AC_CAL_CNT k) = rd d (AC_CAL_CNT k) + 1
      ∧ rd (sliceCalDone d k (some (off, gain, skew))) (AC_SL_OFF k i) = w32 (off % 0x1000000).toNat
      ∧ rd (sliceCalDone d k (some (off, gain, skew))) (AC_SL_GAIN k i) = w32 (gain % 0x1000000).toNat
      ∧ rd (sliceCalDone d k (some (off, gain, skew))) (AC_SL_SKEW k i) = w32 (skew % 65536).toNat
      ∧ (sliceCalDone d k (some (off, gain, skew))).db = d.db := by
  rw [sliceCalDone_good hsl hrun hgood]
  have hoff : AC_SL_OFF k i + 4 = AC_SL_GAIN k i := by unfold AC_SL_OFF AC_SL_GAIN; omega
  have hgain : AC_SL_GAIN k i + 4 = AC_SL_SKEW k i := by unfold AC_SL_GAIN AC_SL_SKEW; omega
  have hcnt : AC_CAL_CNT k < AC_SL_OFF k i := by unfold AC_CAL_CNT AC_SL_OFF; omega
  refine ⟨?_, ?_, ?_, ?_, ?_, ?_⟩
  · rw [coreOf_bump, coreOf_setCore_same]
  · rw [rd_bump_same, rd_setCore, rd_wrN_ne _ _ (by omega), rd_wrN_ne _ _ (by omega), rd_wrN_ne _ _ (by omega)]
  · rw [rd_bump_ne _ (by omega), rd_setCore, rd_wrN_ne _ _ (by omega), rd_wrN_ne _ _ (by omega), rd_wrN_same]
  · rw [rd_bump_ne _ (by omega), rd_setCore, rd_wrN_ne _ _ (by omega), rd_wrN_same]
  · rw [rd_bump_ne _ (by omega), rd_setCore, rd_wrN_same]
  · rw [bump_db, setCore_db, wrN_db, wrN_db, wrN_db]

/-- Without a measurement the calibrating slice is retired. -/
theorem sliceCalDone_none {d : Dev} {k i : Nat} (hi : sliceIn (coreOf d k) (fun t => t.role == .calibrating) = some i)
    (hrun : (coreOf d k).quar = false ∧ calPaused d k = false) : sliceCalDone d k none = retire d k i 0 := by
  unfold sliceCalDone
  simp only [hi]
  exact if_neg (by simp [hrun])

/-- A core's quarantine is its error and its record. -/
theorem acQuarantine_new {d : Dev} {k : Nat} (code : Nat) (h : (coreOf d k).quar = false) :
    Recorded (err (setCore d k { coreOf d k with quar := true, xchg := none, flight := [] }) (.ac k) code 0) (acQuarantine d k code) := by
  unfold acQuarantine
  rw [if_neg (by simp [h])]
  exact recorded_tileQuar _ _ _ _

/-- The error registers of a converter core lie below those that reports change. -/
theorem acErr_recorded {d e : Dev} {k code r : Nat} (hk : k < 16) (h : Recorded (err d (.ac k) code r) e) :
    rdN e (acBase k + ERR_CODE) % 65536 = code % 65536 ∧ rd e (acBase k + ERR_ADDR) = w32 r := by
  refine ⟨?_, ?_⟩
  · rw [rdN, recorded_rd h (.inl (by unfold acBase ERR_CODE dbBase; omega))]
    exact err_code d (.ac k) code r
  · rw [recorded_rd h (.inl (by unfold acBase ERR_ADDR dbBase; omega))]
    exact err_addr d (.ac k) code r

/-- Settles O22: each clause is the operation's own case above. -/
theorem converterCoresTakeTheirWindows : Obligations.ConverterCoresTakeTheirWindows := by
  unfold Obligations.ConverterCoresTakeTheirWindows
  intro s
  refine ⟨?window, ?wrap, ?done, ?starved, ?commitIdle, ?commitRun, ?settled, ?ref, ?rotation, ?calGood, ?calNone, ?storeUe⟩
  case window =>
    rintro k w0 hk ⟨hconv, hp⟩ hpos hx
    refine completes_onDev (f := fun _ d => adcWindow d k w0) rfl (decide_eq_true hk) ?_
    rw [adcWindow_unpaired w0 hconv hp, doExchange_none hx, windowNext_on (x := sampled s.dev k w0 (coreOf s.dev k)) hp hpos]
    refine ⟨coreOf_setCore_same _ _ _, fun j hj => ?_, rfl⟩
    rw [coreOf_setCore_ne _ _ hj, coreOf_setCore_ne _ _ hj]
  case wrap =>
    rintro k w0 hk ⟨hconv, hp⟩ hpos
    refine completes_onDev (f := fun _ d => adcWindow d k w0) rfl (decide_eq_true hk) ?_
    have hlen : (sampled s.dev k w0 (doExchange (coreOf s.dev k))).len ≤ (sampled s.dev k w0 (doExchange (coreOf s.dev k))).pos + 1 := by
      rw [doExchange_frame]; exact hpos
    rw [adcWindow_unpaired w0 hconv hp, windowNext_wrap hp hlen, doExchange_frame]
    exact ⟨rfl, rfl, rfl, List.length_append, rfl⟩
  case done =>
    rintro k cv rest sample ovr ⟨hk, -⟩ hflight how
    exact completes_onDev (f := fun _ d => adcDone d k sample ovr true) rfl (decide_eq_true hk) (adcDone_shown sample ovr hflight how)
  case starved =>
    rintro k n ⟨hk, hn⟩ h
    exact completes_onDev (f := fun _ d => adcStarved d k n) rfl (by simp [hk, hn]) (adcStarved_spec hn h)
  case commitIdle =>
    intro k hk ha hoff
    have hidle : seqCommit (issued s.dev (.ac k) 0x10C 1) k = takeShadow (issued s.dev (.ac k) 0x10C 1) k :=
      seqCommit_idle (by rw [coreOf_issued]; exact hoff)
    refine completes_host (f := fun _ d => seqCommit d k) rfl (decide_eq_true hk) ha (by decide) ?_ ?_
    · rw [hidle, rd_takeShadow_ne _ _ (fun w => by simp only [pageBase]; unfold AC_SEQA ERR_CODE; omega)]
    · rw [hidle]
      refine ⟨fun w hw => ?_, ?_⟩
      · rw [rd_takeShadow _ _ _ hw, rd_issued_ne _ _ _ _ _ (by simp only [pageBase]; unfold AC_SEQ; omega)]
      · rw [coreOf_takeShadow, coreOf_issued, rd_issued_ne _ _ _ _ _ (by simp only [pageBase]; unfold AC_SEQ_LEN; omega)]
  case commitRun =>
    rintro k hk ha ⟨hon, hlen, hp⟩
    have hrun : seqCommit (issued s.dev (.ac k) 0x10C 1) k = setCore (issued s.dev (.ac k) 0x10C 1) k { coreOf s.dev k with pend := true } := by
      rw [seqCommit_running (by rw [coreOf_issued]; exact hon) (by rw [coreOf_issued]; exact hlen)
        (by rw [paired_issued_commit]; exact hp), coreOf_issued]
    exact exec_host (f := fun _ d => seqCommit d k) rfl (decide_eq_true hk) ha (by decide) (by rw [hrun, rd_setCore]) hrun
  case settled =>
    rintro k n b ⟨hk, hn⟩ ⟨hset, hbp⟩
    have hend : rangeSettled s.dev k n = setCh s.dev k n { chOf s.dev k n with settling := none } := by
      unfold rangeSettled; rw [hset]; exact if_pos hbp
    refine completes_onDev (f := fun _ d => rangeSettled d k n) rfl (by simp [hk, hn]) ?_
    rw [hend]
    refine ⟨by rw [chOf_setCh, if_pos ⟨rfl, rfl⟩], fun j m h => ?_, rfl⟩
    rw [chOf_setCh, if_neg (by omega)]
  case ref =>
    intro k hk
    exact ⟨exec_onDev (f := fun _ d => refSettle d k) rfl (decide_eq_true hk) rfl,
      exec_onDev (f := fun _ d => refLost d k) rfl (decide_eq_true hk) rfl⟩
  case rotation =>
    intro k sp hk hrot hper hsp hact
    refine completes_onDev (f := fun _ d => calRotation d k) rfl (decide_eq_true hk) ?_
    obtain ⟨out, q, hout, hrole, hmax⟩ := oldest_spec ((role_nth_aged (coreOf s.dev k).slices 0).trans hact)
    rw [calRotation_due hrot hper hsp hout]
    refine ⟨out, ?_⟩
    simp only [coreOf_setCore_same]
    exact ⟨trivial, hrole, hmax, rfl, rfl⟩
  case calGood =>
    rintro k i off gain skew ⟨hk, hi⟩ hsl hrun hgood
    exact completes_onDev (f := fun _ d => sliceCalDone d k (some (off, gain, skew))) rfl (decide_eq_true hk) (sliceCalDone_stored hsl hrun hgood)
  case calNone =>
    rintro k i ⟨hk, hi⟩ hsl hrun
    refine completes_onDev (f := fun _ d => sliceCalDone d k none) rfl (decide_eq_true hk) ?_
    rw [sliceCalDone_none hsl hrun]
    have hrec : Recorded (err (setCore s.dev k (setSlice (coreOf s.dev k) i ⟨.retired, 0, 0, false, 0⟩)) (.ac k) 0x0406 i) (retire s.dev k i 0) :=
      recorded_fieldFault _ _ _ _ _
    obtain ⟨hcode, haddr⟩ := acErr_recorded hk hrec
    refine ⟨?_, hcode, haddr, hrec⟩
    rw [recorded_coreOf hrec, coreOf_err, coreOf_setCore_same]
  case storeUe =>
    intro k hk hquar
    refine completes_onDev (f := fun _ d => calStoreUe d k) rfl (decide_eq_true hk) ?_
    have hrec : Recorded _ (calStoreUe s.dev k) := acQuarantine_new 0x0404 hquar
    refine ⟨?_, (acErr_recorded hk hrec).1, fun j hj => ?_, ?_, ?_⟩
    · rw [recorded_coreOf hrec, coreOf_err, coreOf_setCore_same]
    · rw [recorded_coreOf hrec, coreOf_err, coreOf_setCore_ne _ _ hj]
    · rw [recorded_sig hrec, err_sig, setCore_sig]
    · rw [recorded_aos hrec, err_aos, setCore_aos]

end Sys2Proof.Machine
end


section
/-! PROOFS. The open-wire pulse of the converter cores (R157, R158). -/

namespace Sys2Proof.Machine

/-! ### The pulsed channels (R157, R158) -/

/-- The same change to every pulsed channel, where repeating it does nothing. -/
def pulseEach (f : AcCh → AcCh) (d : Dev) : Dev := (pulseChans d).foldl (fun d e => setCh d e.1 e.2 (f (chOf d e.1 e.2))) d

/-- A channel at the start of its pulse, and at the end. -/
def pulseStarted (c : AcCh) : AcCh := { c with hist := [], skip := false }
def pulseEnded (c : AcCh) : AcCh := { c with hist := [] }

theorem owPulseStart_eq {d : Dev} (h : bp d % 10000 = 0) : owPulseStart d = pulseEach pulseStarted d := if_pos h
theorem owPulseEnd_eq {d : Dev} (h : bp d % 10000 = 150) : owPulseEnd d = pulseEach pulseEnded d := if_pos h

/-- The pulsed channels change, and nothing else of the device. -/
theorem pulseEach_spec {f : AcCh → AcCh} (hf : ∀ c, f (f c) = f c) {d : Dev} {k n : Nat} (h : (k, n) ∈ pulseChans d) :
    chOf (pulseEach f d) k n = f (chOf d k n) ∧ (∀ j m, (j, m) ∉ pulseChans d → chOf (pulseEach f d) j m = chOf d j m)
      ∧ pulseEach f d = { d with cores := (pulseEach f d).cores } :=
  ⟨(mapChans f hf _ d k n).1 h, fun j m => (mapChans f hf _ d j m).2,
    pulse_only (fun d e => setCh d e.1 e.2 (f (chOf d e.1 e.2))) _ (fun _ _ => rfl) d⟩

/-- The channels that the pulse judges: the pulsed ones whose open-wire fields stood through this window. -/
def judgedChans (d : Dev) : List (Nat × Nat) := (pulseChans d).filter (fun e => !(chOf d e.1 e.2).skip)

theorem mem_judgedChans (d : Dev) (j m : Nat) : (j, m) ∈ judgedChans d ↔ (j, m) ∈ pulseChans d ∧ (chOf d j m).skip = false := by
  rw [judgedChans, List.mem_filter, Bool.not_eq_true']

/-- The decision, channel by channel: a judged one is open where eight samples were taken and all showed it. -/
theorem owPulseDecide_chan {d : Dev} (h : bp d % 10000 = 100) (j m : Nat) :
    ((j, m) ∈ judgedChans d → (chOf (owPulseDecide d) j m).open_ = (decide ((chOf d j m).hist.length = 8) && (chOf d j m).hist.all (· == true)))
      ∧ (chOf (owPulseDecide d) j m).hist = (chOf d j m).hist ∧ ((j, m) ∉ judgedChans d → chOf (owPulseDecide d) j m = chOf d j m) := by
  unfold owPulseDecide
  rw [if_pos h]
  exact decideOpen (judgedChans d) d j m

theorem owPulseDecide_keep {γ : Type} (P : Dev → γ) (d : Dev) (h : ∀ d k n b, P (setOpen d k n b) = P d) : P (owPulseDecide d) = P d := by
  unfold owPulseDecide
  split
  · exact foldl_keep P _ _ (fun _ _ _ => h _ _ _ _) d
  · rfl

/-- Settles O23: start and end change each pulsed channel alike; the decision opens or closes those that stood through the window. -/
theorem openWirePulsesTestTheirChannels : Obligations.OpenWirePulsesTestTheirChannels := by
  unfold Obligations.OpenWirePulsesTestTheirChannels
  intro s
  refine ⟨?start, ?stop, ?decide⟩
  case start =>
    intro k n hbp h
    refine completes_onDev (f := fun _ d => owPulseStart d) rfl rfl ?_
    rw [owPulseStart_eq hbp]
    exact pulseEach_spec (f := pulseStarted) (fun _ => rfl) h
  case stop =>
    intro k n hbp h
    refine completes_onDev (f := fun _ d => owPulseEnd d) rfl rfl ?_
    rw [owPulseEnd_eq hbp]
    exact pulseEach_spec (f := pulseEnded) (fun _ => rfl) h
  case decide =>
    intro k n hbp h hskip
    refine completes_onDev (f := fun _ d => owPulseDecide d) rfl rfl ?_
    obtain ⟨hopen, hhist, -⟩ := owPulseDecide_chan hbp k n
    refine ⟨hopen ((mem_judgedChans _ _ _).mpr ⟨h, hskip⟩), hhist, fun j m hjm => ?_,
      owPulseDecide_keep (·.sig) s.dev (fun _ _ _ _ => ?_), owPulseDecide_keep (·.stage1) s.dev (fun _ _ _ _ => ?_)⟩
    · refine (owPulseDecide_chan hbp j m).2.2 (fun hmem => ?_)
      obtain ⟨hin, hstood⟩ := (mem_judgedChans _ _ _).mp hmem
      exact hjm.elim (· hin) (fun hskipped => by rw [hskipped] at hstood; cases hstood)
    · rw [setOpen, wrBit_sig]; rfl
    · rw [setOpen, wrBit_stage1]; rfl

end Sys2Proof.Machine
end


section
/-! PROOFS. Faults of analog outputs and of digital pins (R161 to R163, R168, R170), and the accepted edges and scheduled switchings of
digital pins (R167, R169). -/

namespace Sys2Proof.Machine

/-! ### Faults of outputs and pins (R163, R170) -/

/-- From d to e channel c alone has taken a fault: it holds x, its page counts it and shows it (Table 6-12). -/
def AoFaulted (c : Nat) (x : AoCh) (d e : Dev) : Prop :=
  aoOf e c = x ∧ rd e (AO_FLT_CNT (c / 4) (c % 4)) = rd d (AO_FLT_CNT (c / 4) (c % 4)) + 1
    ∧ rdN e (pageBase (.ao (c / 4)) + ERR_CODE) % 65536 = 0x0411 ∧ rd e (pageBase (.ao (c / 4)) + ERR_ADDR) = w32 c
    ∧ (∀ j, j ≠ c → aoOf e j = aoOf d j) ∧ e.sig = d.sig ∧ e.dios = d.dios

/-- A live channel whose driver first shows the fault's flag, in x. -/
theorem aoFault_flagged {d : Dev} {c : Nat} {x : AoCh} (cause : Nat) (hc : c < 64) (hx : x.st = .running ∨ x.st = .safe) :
    AoFaulted c { x with st := .fault, fcause := cause } d (aoFault (setAo d c x) c cause) := by
  obtain ⟨hch, hcnt, hcode, haddr, hoth, hsig, hdios⟩ := aoFault_facts (setAo d c x) c cause hc (by rw [aoOf_setAo_same]; exact hx)
  refine ⟨?_, ?_, hcode, haddr, fun j hj => ?_, ?_, ?_⟩
  · rw [hch, aoOf_setAo_same]
  · rw [hcnt, rd_setAo]
  · rw [hoth j hj, aoOf_setAo_ne _ _ hj]
  · rw [hsig, setAo_sig]
  · rw [hdios, setAo_dios]

/-- From d to e pin n alone has taken a fault: it holds x, its page counts it and shows it (Table 6-15). -/
def DioFaulted (n : Nat) (x : DioPin) (d e : Dev) : Prop :=
  dioOf e n = x ∧ rd e (DIO_FLT_CNT (n / 8) (n % 8)) = rd d (DIO_FLT_CNT (n / 8) (n % 8)) + 1
    ∧ rdN e (pageBase (.dio (n / 8)) + ERR_CODE) % 65536 = 0x0421 ∧ rd e (pageBase (.dio (n / 8)) + ERR_ADDR) = w32 n
    ∧ (∀ j, j ≠ n → dioOf e j = dioOf d j) ∧ e.sig = d.sig ∧ e.aos = d.aos

/-- A live pin whose switch first shows the fault's flag, in x. -/
theorem dioFault_flagged {d : Dev} {n : Nat} {x : DioPin} (cause : Nat) (hn : n < 128) (hx : x.st = .running ∨ x.st = .safe) :
    DioFaulted n { swOff x with st := .fault, fcause := cause, queue := [] } d (dioFault (setDio d n x) n cause) := by
  obtain ⟨hpin, hcnt, hcode, haddr, hoth, hsig, haos⟩ := dioFault_facts (setDio d n x) n cause hn (by rw [dioOf_setDio_same]; exact hx)
  refine ⟨?_, ?_, hcode, haddr, fun j hj => ?_, ?_, ?_⟩
  · rw [hpin, dioOf_setDio_same]
  · rw [hcnt, rd_setDio]
  · rw [hoth j hj, dioOf_setDio_ne _ _ hj]
  · rw [hsig, setDio_sig]
  · rw [haos, setDio_aos]

/-- Settles O24: each event sets its flag and is then the fault of a live channel or pin; undercurrent sets its flag alone. -/
theorem outputChannelsFault : Obligations.OutputChannelsFault := by
  unfold Obligations.OutputChannelsFault
  intro s
  refine ⟨?otemp, ?pin, ?under⟩
  case otemp =>
    intro c hc h
    exact ⟨completes_onDev (f := fun _ d => aoOtemp d c) rfl (decide_eq_true hc) (aoFault_flagged 2 hc h),
      completes_onDev (f := fun _ d => aoIlimFault d c) rfl (decide_eq_true hc) (aoFault_flagged 1 hc h),
      completes_onDev (f := fun _ d => aoReadbackFault d c) rfl (decide_eq_true hc) (aoFault_flagged 3 hc h)⟩
  case pin =>
    intro n hn h
    exact ⟨completes_onDev (f := fun _ d => dioOtemp d n) rfl (decide_eq_true hn) (dioFault_flagged 2 hn h),
      completes_onDev (f := fun _ d => dioIlimFault d n) rfl (decide_eq_true hn) (dioFault_flagged 1 hn h)⟩
  case under =>
    intro n hn h
    exact exec_onDev (f := fun _ d => dioUndercurrent d n) rfl (decide_eq_true hn) (if_pos h)

/-! ### Accepted edges (R167) -/

/-- The stamp that an edge writes when its level is accepted as acc (R167). -/
def edgeStamp (n : Nat) (acc : Bool) : Nat := if acc then DIO_TS_RISE (n / 8) (n % 8) else DIO_TS_FALL (n / 8) (n % 8)

/-- The two stamps of a pin and its edge count are registers of their own (Table 6-14). -/
theorem edgeStamp_apart (n : Nat) (acc : Bool) :
    (edgeStamp n (!acc) + 4 < edgeStamp n acc ∨ edgeStamp n acc + 4 < edgeStamp n (!acc))
      ∧ edgeStamp n acc + 4 < DIO_EDGE_CNT (n / 8) (n % 8) := by
  unfold edgeStamp DIO_TS_RISE DIO_TS_FALL DIO_EDGE_CNT
  cases acc <;> simp only [Bool.not_true, Bool.not_false, Bool.false_eq_true, if_true, if_false] <;> omega

/-- An edge to another level is accepted: stamped and counted. -/
theorem dioEdge_accepted {d : Dev} {n : Nat} {lvl : Bool} (ts : Nat) (hst : (dioOf d n).st = .input)
    (hacc : (dioOf d n).acc = !(xor lvl (bit (dioCfg d n) 2))) :
    dioEdge d n lvl ts = bump (wr64 (setDio (setDio d n { dioOf d n with raw := lvl }) n
      { dioOf d n with raw := lvl, acc := xor lvl (bit (dioCfg d n) 2) }) (edgeStamp n (xor lvl (bit (dioCfg d n) 2))) ts)
        (DIO_EDGE_CNT (n / 8) (n % 8)) := by
  have hcfg : dioCfg (setDio d n { dioOf d n with raw := lvl }) n = dioCfg d n := rd_setDio _ _ _ _
  unfold dioEdge
  simp only [hcfg, dioOf_setDio_same]
  exact if_pos ⟨hst, by rw [hacc]; exact (Bool.not_ne_self _).symm⟩

/-! ### Scheduled switchings (R169) -/

/-- A push in time, behind the last entry and with a place left, joins the queue. -/
theorem dioPush_queued {d : Dev} {n : Nat} (lvl : Bool) (hmode : dioMode d n = 3) (hlen : (dioOf d n).queue.length < 4)
    (hlast : ∀ e ∈ (dioOf d n).queue.getLast?, e.1 < rd64 d (DIO_SCH_TIME (n / 8) (n % 8)))
    (htime : d.tt + 10000 < rd64 d (DIO_SCH_TIME (n / 8) (n % 8))) :
    dioPush d n lvl = setDio d n { dioOf d n with queue := (dioOf d n).queue ++ [(rd64 d (DIO_SCH_TIME (n / 8) (n % 8)), lvl)] } := by
  unfold dioPush
  cases hq : (dioOf d n).queue.getLast? with
  | none => simp only [hq]; rw [if_neg (by simp [hmode]; omega), if_neg (by omega)]
  | some e =>
    have he := hlast e hq
    simp only [hq]
    rw [if_neg (by simp [hmode]; omega), if_neg (by omega)]

/-- The head of the queue, due on a running pin, is the switch's command. -/
theorem dioSched_due {d : Dev} {n t : Nat} {lvl : Bool} {rest : List (Nat × Bool)} (hq : (dioOf d n).queue = (t, lvl) :: rest)
    (ht : t ≤ tbNs d) (hst : (dioOf d n).st = .running) :
    dioSched d n = dioSwitch (setDio d n { dioOf d n with queue := rest }) n lvl := by
  unfold dioSched
  simp only [hq]
  exact if_pos ⟨ht, hst⟩

/-- A command that turns no switch on moves the switch alone. -/
theorem dioSwitch_unworn {d : Dev} {n : Nat} {b : Bool} (h : b = false ∨ (dioOf d n).level = true) :
    dioSwitch d n b = setDio d n (if b then { dioOf d n with level := true } else swOff (dioOf d n)) := by
  unfold dioSwitch
  exact if_neg (by obtain h | h := h <;> simp [h])

/-- A switch turned on is counted in the wear ledger (R171, R446). -/
theorem dioSwitch_on {d : Dev} {n : Nat} (h : (dioOf d n).level = false) :
    dioSwitch d n true = wearAdd (setDio d n { dioOf d n with level := true }) n 1 := by
  unfold dioSwitch
  exact if_pos (by simp [h])

theorem dioOf_wearAdd (d : Dev) (e k j : Nat) : dioOf (wearAdd d e k) j = dioOf d j := by
  unfold dioOf; rw [(wearAdd_facts d e k).2.1]

/-- Settles O25: the operations of an edge, a push, a flush and a switching, each in the case that the statement names. -/
theorem digitalPinsTimeTheirEdges : Obligations.DigitalPinsTimeTheirEdges := by
  unfold Obligations.DigitalPinsTimeTheirEdges
  intro s
  refine ⟨?edge, ?push, ?flush, ?switch, ?switchOn⟩
  case edge =>
    intro n lvl ts hn hst hacc
    refine completes_onDev (f := fun _ d => dioEdge d n lvl ts) rfl (decide_eq_true hn) ?_
    rw [dioEdge_accepted ts hst hacc]
    generalize xor lvl (bit (dioCfg s.dev n) 2) = acc
    obtain ⟨hstamps, hcnt⟩ := edgeStamp_apart n acc
    have hother : (if acc then DIO_TS_FALL (n / 8) (n % 8) else DIO_TS_RISE (n / 8) (n % 8)) = edgeStamp n (!acc) := by cases acc <;> rfl
    have hown : (if acc then DIO_TS_RISE (n / 8) (n % 8) else DIO_TS_FALL (n / 8) (n % 8)) = edgeStamp n acc := rfl
    have hcntOther := (edgeStamp_apart n (!acc)).2
    rw [hother, hown]
    refine ⟨?_, ?_, ?_, ?_, fun j hj => ?_, ?_⟩
    · rw [dioOf_bump, dioOf_wr64, dioOf_setDio_same]
    · exact (rd64_wr_ne _ _ (by omega) (by omega)).trans (rd64_wr64_same _ _ _)
    · unfold rd64
      rw [rd_bump_ne _ (by omega), rd_bump_ne _ (by omega), rd_wr64_ne _ _ (by omega) (by omega), rd_wr64_ne _ _ (by omega) (by omega)]
      simp only [rd_setDio]
    · rw [rd_bump_same, rd_wr64_ne _ _ (by omega) (by omega), rd_setDio, rd_setDio]
    · rw [dioOf_bump, dioOf_wr64, dioOf_setDio_ne _ _ hj, dioOf_setDio_ne _ _ hj]
    · rw [bump_stage1, wr64_stage1, setDio_stage1, setDio_stage1]
  case push =>
    rintro n lvl hn ha ⟨hmode, hlen⟩ hlast htime
    exact exec_admitted (f := fun _ d => dioPush d n lvl) rfl (decide_eq_true hn) ha (dioPush_queued lvl hmode hlen hlast htime)
  case flush =>
    intro n hn ha
    exact exec_admitted (f := fun _ d => dioFlush d n) rfl (decide_eq_true hn) ha rfl
  case switch =>
    rintro n t lvl rest hn ⟨hq, ht, hst⟩ hlvl
    refine exec_onDev (f := fun _ d => dioSched d n) rfl (decide_eq_true hn) ((dioSched_due hq ht hst).trans ?_)
    rw [dioSwitch_unworn (by rw [dioOf_setDio_same]; exact hlvl), dioOf_setDio_same]
    rfl
  case switchOn =>
    rintro n t rest hn ⟨hq, ht, hst, hoff⟩
    refine completes_onDev (f := fun _ d => dioSched d n) rfl (decide_eq_true hn) ?_
    rw [dioSched_due hq ht hst, dioSwitch_on (by rw [dioOf_setDio_same]; exact hoff), dioOf_setDio_same]
    obtain ⟨hcount, -, hsig⟩ := wearAdd_facts (setDio (setDio s.dev n { dioOf s.dev n with queue := rest }) n
      { dioOf s.dev n with queue := rest, level := true }) n 1
    refine ⟨?_, ?_, fun j hj => ?_, ?_⟩
    · rw [dioOf_wearAdd, dioOf_setDio_same]
    · exact hcount
    · rw [dioOf_wearAdd, dioOf_setDio_ne _ _ hj, dioOf_setDio_ne _ _ hj]
    · rw [hsig, setDio_sig, setDio_sig]

end Sys2Proof.Machine
end


section
/-! PROOFS. The move commands of an axis: absolute and relative moves, updates and jogs (R180, R182 to R184, R186, R187). -/

namespace Sys2Proof.Machine

/-! ### What an axis finds when its command has been issued (R176) -/

theorem moveLimits_axIssued (d : Dev) (a : Nat) (v : W32) : moveLimits (issued d (.ax a) 0x100 v) a = moveLimits d a :=
  congrArg AxRegs.limits (axRegs_issued d a v)

theorem movedAxis_axIssued (d : Dev) (a : Nat) (v : W32) (t : Int) : movedAxis (issued d (.ax a) 0x100 v) a t = movedAxis d a t :=
  movedAxis_congr _ _ _ _ (axOf_issued _ _ _ _ _) (fun _ h => ax_issued_rd _ _ _ _ h)

/-- A command that replaces its axis alone completes, with every other axis and every signal as they were. -/
theorem completes_axis {c : Instr} {s : State} {a : Nat} {v : W32} {f : Dev → Dev} {x : Axis} {post : Dev → Prop} (ha : a < 64)
    (he : exec c s = onDev (decide (a < 64)) (fun _ d => hostCmd d (.ax a) 0x100 v f) s) (had : admits s.dev (.ax a) 0x100 = true)
    (hf : f (issued s.dev (.ax a) 0x100 v) = setAx (issued s.dev (.ax a) 0x100 v) a x)
    (hp : ∀ d, axOf d a = x → (∀ b, b ≠ a → axOf d b = axOf s.dev b) → d.sig = s.dev.sig → post d) : Completes c s post := by
  refine ⟨_, exec_axis ha he had hf, hp _ (axOf_setAx_same _ _ _) (fun b hb => ?_) ?_⟩
  · rw [axOf_setAx_ne _ _ hb, axOf_issued]
  · rw [setAx_sig, issued_sig]

/-! ### Moves and jogs from rest -/

theorem axMoveRel_rest {d : Dev} {a : Nat} (hm : moveRefusal d a (relTarget d a (axReg d (AX_TGT a))) false = none) (hv : (axOf d a).v = 0)
    (hn : ¬((axOf d a).st = .idle ∧ relTarget d a (axReg d (AX_TGT a)) = posCmd (axOf d a))) :
    axMoveRel d a = setAx d a (movedAxis d a (relTarget d a (axReg d (AX_TGT a)))) :=
  (axRow2 d a).trans (axMoveTo_rest d a 2 _ false hm hv hn)

/-- The axis as a jog from standstill, without soft limits, plans it: in a direction, with the soft limit of that side as its target (R187). -/
def joggedAxis (d : Dev) (a : Nat) (dir lim : Int) : Axis :=
  { axOf d a with
    st := .moving
    jogDir := dir
    jog := true
    done := false
    overshoot := false
    reverse := false
    interrupted := false
    estop := false
    lim := axRegs d a
    target := lim
    plan := planSpeed (axOf d a) (dir * axReg d (AX_VMAX a)) (axReg d (AX_AMAX a)) (axReg d (AX_DMAX a)) (axReg d (AX_JMAX a)) }

theorem joggedAxis_axIssued (d : Dev) (a : Nat) (v : W32) (dir lim : Int) :
    joggedAxis (issued d (.ax a) 0x100 v) a dir lim = joggedAxis d a dir lim := by
  unfold joggedAxis
  rw [axRegs_issued, ax_issued_AX_VMAX_reg, ax_issued_AX_AMAX_reg, ax_issued_AX_DMAX_reg, ax_issued_AX_JMAX_reg, axOf_issued]

section
variable {d : Dev} {a : Nat} (hl : ∀ x ∈ moveLimits d a, 0 < x) (hst : (axOf d a).st = .idle) (hv : (axOf d a).v = 0) (hs : softOn (axOf d a) = false)
  (hp : (axOf d a).limP.on = false) (hn : (axOf d a).limN.on = false) (hg : gateClosed d a = false) (hr : rateOk d a (axReg d (AX_VMAX a)) = true)
include hl hst hv hs hp hn hg hr

theorem axJogPos_rest : axJog d a false = setAx d a (joggedAxis d a 1 (axReg d (AX_SLIM_POS a))) := by
  rw [axRow4, axJogCmd_rest d a 4 1 (.inl rfl) hl hst hv hs hp hn hg hr, if_pos (by decide), joggedAxis]

theorem axJogNeg_rest : axJog d a true = setAx d a (joggedAxis d a (-1) (axReg d (AX_SLIM_NEG a))) := by
  rw [axRow5, axJogCmd_rest d a 5 (-1) (.inr rfl) hl hst hv hs hp hn hg hr, if_neg (by decide), joggedAxis]

end

/-- Settles O26: each command finds the axis and its registers as they stood before AX_CMD was written, and is then the move, the
replan or the jog of that case. -/
theorem axesTakeMoveCommands : Obligations.AxesTakeMoveCommands := by
  unfold Obligations.AxesTakeMoveCommands
  intro s
  refine ⟨?move, ?moveRel, ?moveDone, ?moveUp, ?update, ?jog⟩
  case move =>
    rintro a ha had hm ⟨hv, hn⟩
    have hmove := axMoveAbs_rest (issued s.dev (.ax a) 0x100 1) a
    rw [moveRefusal_issued _ _ _ _ _ ha, movedAxis_axIssued, ax_issued_AX_TGT_reg, axOf_issued] at hmove
    exact exec_axis (f := (axMoveAbs · a)) ha rfl had (hmove hm hv hn)
  case moveRel =>
    rintro a ha had hm ⟨hv, hn⟩
    have hmove := @axMoveRel_rest (issued s.dev (.ax a) 0x100 2) a
    rw [moveRefusal_issued _ _ _ _ _ ha, movedAxis_axIssued, relTarget_issued, ax_issued_AX_TGT_reg, axOf_issued] at hmove
    exact exec_axis (f := (axMoveRel · a)) ha rfl had (hmove hm hv hn)
  case moveDone =>
    rintro a ha had hm ⟨hst, ht⟩
    have hdone := axMoveAbs_there (issued s.dev (.ax a) 0x100 1) a
    rw [moveRefusal_issued _ _ _ _ _ ha, ax_issued_AX_TGT_reg, axOf_issued, axRegs_issued, ht] at hdone
    exact exec_host (f := fun _ d => axMoveAbs d a) rfl (decide_eq_true ha) had (by decide)
      (by rw [hdone hm ⟨hst, rfl⟩, ax_err_bump]) (hdone hm ⟨hst, rfl⟩)
  case moveUp =>
    rintro a ha had hm ⟨hst, hv, hahead, hsoft⟩
    have hup := axMoveAbs_up (issued s.dev (.ax a) 0x100 1) a
    rw [moveRefusal_issued _ _ _ _ _ ha, ax_issued_AX_TGT_reg, ax_issued_AX_DMAX_reg, ax_issued_AX_JMAX_reg, axOf_issued] at hup
    obtain ⟨y, hy, hmoving, htgt, hover, hrev, hp, hvel⟩ := hup hm hst hv hahead hsoft
    refine completes_axis (f := (axMoveAbs · a)) ha rfl had hy ?_
    rintro d rfl hoth hsig
    exact ⟨hmoving, htgt, hover, hrev, hp, hvel, hoth, hsig⟩
  case update =>
    rintro a ha had hl ⟨hst, hj, hv⟩ hs ⟨hahead, hturn⟩ ⟨ht, hr⟩
    have hup := axUpdate_up (issued s.dev (.ax a) 0x100 3) a
    rw [moveLimits_axIssued, beyond_issued, rateOk_issued _ _ _ _ ha, axRegs_issued, ax_issued_AX_VMAX_reg, ax_issued_AX_AMAX_reg,
      ax_issued_AX_DMAX_reg, ax_issued_AX_JMAX_reg, axOf_issued] at hup
    refine completes_axis (f := (axUpdate · a)) ha rfl had (hup hl hst hj hv hs hahead hturn ht hr) ?_
    intro d hax hoth hsig
    rw [hax]
    exact ⟨hst, rfl, rfl, rfl, rfl, rfl, rfl, hoth, hsig⟩
  case jog =>
    rintro a ha had hl ⟨hst, hv, hs⟩ ⟨hp, hn, hg, hr⟩
    have hpos := @axJogPos_rest (issued s.dev (.ax a) 0x100 4) a
    have hneg := @axJogNeg_rest (issued s.dev (.ax a) 0x100 5) a
    rw [moveLimits_axIssued, gateClosed_issued, rateOk_issued _ _ _ _ ha, joggedAxis_axIssued, ax_issued_AX_VMAX_reg, axOf_issued] at hpos hneg
    rw [ax_issued_AX_SLIM_POS_reg] at hpos
    rw [ax_issued_AX_SLIM_NEG_reg] at hneg
    exact ⟨exec_axis (f := (axJog · a false)) ha rfl had (hpos hl hst hv hs hp hn hg hr),
      exec_axis (f := (axJog · a true)) ha rfl had (hneg hl hst hv hs hp hn hg hr)⟩

end Sys2Proof.Machine
end


section
/-! PROOFS. The other commands of an axis: stop, gear release, emergency stop, homing, gearing and SET_POS (R180, R181, R188, R192, R193,
R205, R206). -/

namespace Sys2Proof.Machine

/-! ### What these commands read besides their limits -/

theorem rdN_axIssued {d : Dev} {a r : Nat} {v : W32} (h : axBase a + 0x104 ≤ r) : rdN (issued d (.ax a) 0x100 v) r = rdN d r :=
  congrArg BitVec.toNat (ax_issued_rd d a r v h)

theorem rdBit_axIssued {d : Dev} {a r : Nat} {v : W32} (i : Nat) (h : axBase a + 0x104 ≤ r) : rdBit (issued d (.ax a) 0x100 v) r i = rdBit d r i :=
  congrArg (bit · i) (ax_issued_rd d a r v h)

theorem hMethod_axIssued (d : Dev) (a : Nat) (v : W32) : hMethod (issued d (.ax a) 0x100 v) a = hMethod d a :=
  congrArg (fld · 2 0) (ax_issued_AX_HOME_CFG d a v)

theorem posAct_axIssued (d : Dev) (a : Nat) (v : W32) : posAct (issued d (.ax a) 0x100 v) a = posAct d a := by
  unfold posAct fbEn
  rw [rdBit_axIssued _ (by unfold AX_CFG; omega), axOf_issued]

/-! ### Stops (R180) -/

/-- The axis as STOP and GEAR_RELEASE leave it: to rest under the limits of the command, a homing run broken off. -/
def stoppedAxis (d : Dev) (a : Nat) : Axis :=
  { axOf d a with
    st := .stopping
    lim := axRegs d a
    plan := planHalt (axOf d a) (axReg d (AX_DMAX a)) (axReg d (AX_JMAX a))
    jog := false
    armed := none
    estop := false
    done := false
    hres := if (axOf d a).st = .homing then 4 else (axOf d a).hres
    hphase := 0
    hnext := .none }

theorem stoppedAxis_axIssued (d : Dev) (a : Nat) (v : W32) : stoppedAxis (issued d (.ax a) 0x100 v) a = stoppedAxis d a := by
  unfold stoppedAxis
  rw [axRegs_issued, ax_issued_AX_DMAX_reg, ax_issued_AX_JMAX_reg, axOf_issued]

theorem axStop_stops {d : Dev} {a : Nat} (hd : 0 < axReg d (AX_DMAX a)) (hj : 0 < axReg d (AX_JMAX a))
    (hst : (axOf d a).st = .moving ∨ (axOf d a).st = .homing ∨ (axOf d a).st = .geared) : axStop d a = setAx d a (stoppedAxis d a) := by
  rw [axRow6, axStop_ok d a 6 hd hj hst, axThen_no, stoppedAxis]

theorem axGearRelease_stops {d : Dev} {a : Nat} (hd : 0 < axReg d (AX_DMAX a)) (hj : 0 < axReg d (AX_JMAX a)) (hst : (axOf d a).st = .geared) :
    axGearRelease d a = setAx d a (stoppedAxis d a) := by
  rw [axRow11, axReleaseCmd, if_pos hst, axStop_ok d a 11 hd hj (.inr (.inr hst)), axThen_no, stoppedAxis]

/-- Settles O27: each command finds the axis and its registers as they stood before AX_CMD was written, in a state that takes it. -/
theorem axesStopHomeAndFollow : Obligations.AxesStopHomeAndFollow := by
  unfold Obligations.AxesStopHomeAndFollow
  intro s
  refine ⟨?stop, ?release, ?estop, ?home, ?homeHere, ?engage, ?arm, ?setPos⟩
  case stop =>
    rintro a ha had ⟨hd, hj⟩ hst
    have hstop := @axStop_stops (issued s.dev (.ax a) 0x100 6) a
    rw [stoppedAxis_axIssued, ax_issued_AX_DMAX_reg, ax_issued_AX_JMAX_reg, axOf_issued] at hstop
    exact exec_axis (f := (axStop · a)) ha rfl had (hstop hd hj hst)
  case release =>
    rintro a ha had ⟨hd, hj⟩ hst
    have hstop := @axGearRelease_stops (issued s.dev (.ax a) 0x100 11) a
    rw [stoppedAxis_axIssued, ax_issued_AX_DMAX_reg, ax_issued_AX_JMAX_reg, axOf_issued, stoppedAxis] at hstop
    refine exec_axis (f := (axGearRelease · a)) ha rfl had ((hstop hd hj hst).trans ?_)
    rw [if_neg (by rw [hst]; decide)]
  case estop =>
    rintro a ha had ⟨hd, hj⟩ hst
    have hestop := axEstop_ok (issued s.dev (.ax a) 0x100 7) a
    rw [ax_issued_AX_EDEC_reg, ax_issued_AX_EJERK_reg, axOf_issued] at hestop
    exact exec_axis (f := (axEstop · a)) ha rfl had (hestop hd hj hst)
  case home =>
    rintro a ha had ⟨hst, hg, hr⟩ hl ⟨hm, hsw⟩
    have hhome := axHome_search (issued s.dev (.ax a) 0x100 8) a
    rw [hMethod_axIssued, gateClosed_issued, rateOk_issued _ _ _ _ ha, axRegs_issued, ax_issued_AX_VMAX_reg, ax_issued_AX_AMAX_reg,
      ax_issued_AX_DMAX_reg, ax_issued_AX_JMAX_reg, axOf_issued] at hhome
    obtain ⟨y, hy, hhoming, hphase, href, hres, hdir, hplan, hp⟩ := hhome hst hg hr hl hm hsw
    refine completes_axis (f := (axHome · a)) ha rfl had hy ?_
    rintro d rfl hoth hsig
    exact ⟨hhoming, hphase, href, hres, hdir, hplan, hp, hoth, hsig⟩
  case homeHere =>
    rintro a ha had ⟨hst, hg, hr⟩ ⟨ham, hdm, hjm⟩ hm
    have hhome := axHome_here (issued s.dev (.ax a) 0x100 8) a
    rw [hMethod_axIssued, gateClosed_issued, rateOk_issued _ _ _ _ ha, posAct_axIssued, ax_issued_AX_VMAX_reg, ax_issued_AX_AMAX_reg,
      ax_issued_AX_DMAX_reg, ax_issued_AX_JMAX_reg, ax_issued_AX_HOME_OFS_reg, axOf_issued] at hhome
    obtain ⟨y, hy, hhoming, hphase, hnext, hp, hfb⟩ := hhome hst hg hr ham hdm hjm hm
    refine completes_axis (f := (axHome · a)) ha rfl had hy ?_
    rintro d rfl hoth hsig
    exact ⟨hhoming, hphase, hnext, hp, hfb, hoth, hsig⟩
  case engage =>
    rintro a ha had ⟨hst, hg, href⟩ hden
    have hgear := axEngage_ok (issued s.dev (.ax a) 0x100 9) a
    rw [gateClosed_issued, rdBit_axIssued _ (by unfold AX_CFG; omega), rdN_axIssued (by unfold AX_GEAR_DEN; omega),
      rdN_axIssued (by unfold AX_GEAR_NUM; omega), axRegs_issued, axOf_issued] at hgear
    exact exec_axis (f := (axGearEngage · a)) ha rfl had (hgear hst hg href hden)
  case arm =>
    rintro a ha had ⟨hst, hden⟩
    have harm := axArm_ok (issued s.dev (.ax a) 0x100 10) a
    rw [rdN_axIssued (by unfold AX_GEAR_ADEN; omega), rdN_axIssued (by unfold AX_GEAR_ANUM; omega), rdBit_axIssued _ (by unfold AX_GEAR_ADIR; omega),
      ax_issued_AX_GEAR_MPOS_reg, axOf_issued] at harm
    exact exec_axis (f := (axGearArm · a)) ha rfl had (harm hst hden)
  case setPos =>
    intro a ha had hst
    have hset := axSetPos_ok (issued s.dev (.ax a) 0x100 12) a
    rw [ax_issued_AX_TGT_reg, axOf_issued] at hset
    exact exec_axis (f := (axSetPos · a)) ha rfl had (hset hst)

end Sys2Proof.Machine
end


section
/-! PROOFS. The group commands of a motion tile (R172, R180, R95). -/

namespace Sys2Proof.Machine

/-! ### The masked axes of a tile -/

/-- The axes that a group command of tile m names: those of the tile whose bit of MT_GRP_MASK is set. -/
def maskedAxes (d : Dev) (m : Nat) : List Nat :=
  ((List.range 8).filter (fun i => bit (w32 (fld (rd d (MT_GRP_MASK m)) 7 0)) i)).map (fun i => 8 * m + i)

theorem mtGroup_go (d : Dev) (m : Nat) : mtGroup d m 3 = (maskedAxes d m).foldl axMoveAbs d := rfl

theorem maskedAxes_nodup (d : Dev) (m : Nat) : (maskedAxes d m).Nodup :=
  (List.nodup_range.filter _).map (fun i j (h : 8 * m + i = 8 * m + j) => by omega)

theorem exists_of_mem_maskedAxes {d : Dev} {m b : Nat} (h : b ∈ maskedAxes d m) : ∃ i < 8, b = 8 * m + i ∧ rdBit d (MT_GRP_MASK m) i = true := by
  obtain ⟨i, hi, rfl⟩ := List.mem_map.mp h
  have hi8 : i < 8 := List.mem_range.mp (List.mem_of_mem_filter hi)
  exact ⟨i, hi8, rfl, (mtMask_mem d m i hi8).mp h⟩

/-- GO, where every masked axis stands, accepts the move and is off its target: the masked axes move, every other axis stands. -/
theorem mtGo_spec {d : Dev} {m : Nat} (hm : m < 8) (hv : ∀ i < 8, (axOf d (8 * m + i)).v = 0)
    (hok : ∀ i < 8, rdBit d (MT_GRP_MASK m) i = true → moveRefusal d (8 * m + i) (axReg d (AX_TGT (8 * m + i))) true = none)
    (hoff : ∀ i < 8, rdBit d (MT_GRP_MASK m) i = true → axReg d (AX_TGT (8 * m + i)) ≠ posCmd (axOf d (8 * m + i))) :
    (∀ i < 8, axOf (mtGroup d m 3) (8 * m + i) =
        if rdBit d (MT_GRP_MASK m) i then movedAxis d (8 * m + i) (axReg d (AX_TGT (8 * m + i))) else axOf d (8 * m + i))
      ∧ (∀ b, b < 8 * m ∨ 8 * m + 8 ≤ b → axOf (mtGroup d m 3) b = axOf d b)
      ∧ (∀ r, rd (mtGroup d m 3) r = rd d r) ∧ (mtGroup d m 3).sig = d.sig := by
  obtain ⟨haxes, hregs, hsig⟩ := goFold (maskedAxes d m) d (maskedAxes_nodup d m) (fun a ha => by
    obtain ⟨i, hi, rfl, hbit⟩ := exists_of_mem_maskedAxes ha
    exact ⟨by omega, hok i hi hbit, hv i hi, fun h => hoff i hi hbit h.2⟩)
  rw [← mtGroup_go] at haxes hregs hsig
  refine ⟨fun i hi => ?_, fun b hb => ?_, hregs, hsig⟩
  · rw [haxes]
    exact if_congr (mtMask_mem d m i hi) rfl rfl
  · rw [haxes, if_neg]
    intro hmem
    obtain ⟨i, hi, rfl, -⟩ := exists_of_mem_maskedAxes hmem
    omega

/-! ### What a tile finds when its command has been issued -/

theorem mtGrpMask_mtIssued (d : Dev) (m i : Nat) (v : W32) : rdBit (issued d (.mt m) 0x118 v) (MT_GRP_MASK m) i = rdBit d (MT_GRP_MASK m) i :=
  congrArg (bit · i) (rd_issued_ne _ _ _ _ _ (by unfold MT_GRP_MASK pageBase; simp only; omega))

theorem runBit_mtIssued (d : Dev) (m a : Nat) (v : W32) : runBit (issued d (.mt m) 0x118 v) (.ax a) = runBit d (.ax a) :=
  congrArg (bit · 0) (rd_issued_ne _ _ _ _ _ (by unfold BLK_CTRL pageBase axBase mtBase; simp only; omega))

/-- The registers of a tile's axes lie beyond its own page. -/
theorem rd_mtIssued_axis {d : Dev} {m i r : Nat} {v : W32} (hi : i < 8) (h : axBase (8 * m + i) + 0x104 ≤ r) :
    rd (issued d (.mt m) 0x118 v) r = rd d r :=
  rd_issued_ne _ _ _ _ _ (by unfold axBase mtBase at h; unfold pageBase mtBase; simp only; omega)

theorem axReg_mtIssued_tgt {d : Dev} {m i : Nat} {v : W32} (hi : i < 8) :
    axReg (issued d (.mt m) 0x118 v) (AX_TGT (8 * m + i)) = axReg d (AX_TGT (8 * m + i)) := by
  unfold axReg rd64
  rw [rd_mtIssued_axis hi (by unfold AX_TGT; omega), rd_mtIssued_axis hi (by unfold AX_TGT; omega)]

theorem moveRefusal_mtIssued {d : Dev} {m i : Nat} {v : W32} (hm : m < 8) (hi : i < 8) (t : Int) (b : Bool) :
    moveRefusal (issued d (.mt m) 0x118 v) (8 * m + i) t b = moveRefusal d (8 * m + i) t b :=
  moveRefusal_congr _ _ _ _ _ (by omega) (axOf_issued _ _ _ _ _) (issued_sig _ _ _ _) (fun _ h => rd_mtIssued_axis hi h)

theorem movedAxis_mtIssued {d : Dev} {m i : Nat} {v : W32} (hi : i < 8) (t : Int) :
    movedAxis (issued d (.mt m) 0x118 v) (8 * m + i) t = movedAxis d (8 * m + i) t :=
  movedAxis_congr _ _ _ _ (axOf_issued _ _ _ _ _) (fun _ h => rd_mtIssued_axis hi h)

/-- Settles O28: RUN as the fold over the masked axes leaves it; GO as the moves of those axes, which do not touch one another. -/
theorem motionTilesCommandTheirAxes : Obligations.MotionTilesCommandTheirAxes := by
  unfold Obligations.MotionTilesCommandTheirAxes
  intro s
  refine ⟨?run, ?go⟩
  case run =>
    intro m hm had
    obtain ⟨⟨-, haxesOn, herrOn⟩, -⟩ := mtGroup_facts (issued s.dev (.mt m) 0x118 1) m 0 (by decide)
    obtain ⟨-, -, haxesOff, herrOff⟩ := mtGroup_facts (issued s.dev (.mt m) 0x118 2) m 0 (by decide)
    refine ⟨completes_host (f := fun _ d => mtGroup d m 1) rfl (decide_eq_true hm) had (by decide) herrOn ⟨fun i hi => ?_, haxesOn.trans (issued_axes ..)⟩,
      completes_host (f := fun _ d => mtGroup d m 2) rfl (decide_eq_true hm) had (by decide) herrOff ⟨fun i hi => ?_, haxesOff.trans (issued_axes ..)⟩⟩
    · obtain ⟨⟨hrun, -⟩, -⟩ := mtGroup_facts (issued s.dev (.mt m) 0x118 1) m i hi
      rw [hrun, mtGrpMask_mtIssued, runBit_mtIssued]
      cases rdBit s.dev (MT_GRP_MASK m) i <;> rfl
    · obtain ⟨-, hrun, -⟩ := mtGroup_facts (issued s.dev (.mt m) 0x118 2) m i hi
      rw [hrun, mtGrpMask_mtIssued, runBit_mtIssued]
      cases rdBit s.dev (MT_GRP_MASK m) i <;> rfl
  case go =>
    intro m hm had hv hok hoff
    obtain ⟨hin, hout, hregs, hsig⟩ := @mtGo_spec (issued s.dev (.mt m) 0x118 3) m hm
      (fun i hi => by rw [axOf_issued]; exact hv i hi)
      (fun i hi => by rw [mtGrpMask_mtIssued, axReg_mtIssued_tgt hi, moveRefusal_mtIssued hm hi]; exact hok i hi)
      (fun i hi => by rw [mtGrpMask_mtIssued, axReg_mtIssued_tgt hi, axOf_issued]; exact hoff i hi)
    refine completes_host (f := fun _ d => mtGroup d m 3) rfl (decide_eq_true hm) had (by decide) (hregs _) ⟨fun i hi => ?_, fun b hb => ?_, ?_⟩
    · rw [hin i hi, mtGrpMask_mtIssued, axReg_mtIssued_tgt hi, movedAxis_mtIssued hi, axOf_issued]
      rfl
    · rw [hout b hb, axOf_issued]
    · rw [hsig, issued_sig]

end Sys2Proof.Machine
end


section
/-! PROOFS. How moves end: profile ends, standstills, switches, stalls and chatter (R180, R189, R195, R204 to R206, R208). -/

namespace Sys2Proof.Machine

/-! ### Standstill (R180, R206) -/

section
variable {d : Dev} {a : Nat} (hrest : atRest (axOf d a) = true)
include hrest

theorem axStandstill_stopping (hst : (axOf d a).st = .stopping) : axStandstill d a =
    bump (setAx d a { axOf d a with st := (if runBit d (.ax a) then AxSt.idle else .disabled), done := true }) (AX_MOVE_CNT a) := by
  unfold axStandstill
  simp only [hrest, hst, Bool.true_eq_false, if_false]

theorem axStandstill_estopping (hst : (axOf d a).st = .estopping) :
    axStandstill d a = setAx d a { axOf d a with st := if runBit d (.ax a) then AxSt.idle else .disabled } := by
  unfold axStandstill
  simp only [hrest, hst, Bool.true_eq_false, if_false]

theorem axStandstill_homed (hst : (axOf d a).st = .homing) (hnext : (axOf d a).hnext = .ok) : axStandstill d a = homeEnd d a 1 true := by
  unfold axStandstill
  simp only [hrest, hst, hnext, Bool.true_eq_false, if_false]

end

/-! ### Switches (R189, R204) -/

theorem swPut_home (x : Axis) (t : Sw) : swPut x 0 t = { x with home := t } := rfl

theorem swPut_limP (x : Axis) (t : Sw) : swPut x 2 t = { x with limP := t } := rfl

/-- The plan of an emergency stop is that of any axis with the same speed and acceleration. -/
theorem estopPlan_gen {d : Dev} {a : Nat} (x : Axis) {y : Axis} (hv : y.v = x.v) (ha : y.a = x.a) :
    estopPlan d a y = { y with plan := planHalt x (axReg d (AX_EDEC a)) (axReg d (AX_EJERK a)), jog := false, estop := true, armed := none } := by
  rw [estopPlan, planHalt_gen x _ _ hv ha]

theorem estopPlan_setAx (d : Dev) (a b : Nat) (x y : Axis) : estopPlan (setAx d b y) a x = estopPlan d a x := by
  unfold estopPlan
  rw [axReg_setAx, axReg_setAx]

section
variable {d : Dev} {a w : Nat} {on : Bool} {pos : Int} {idx : Nat} {x : Axis} (hx : swPut (axOf d a) w ⟨on, 0, pos, idx⟩ = x)
include hx

/-- A change of the home switch outside homing is taken, and that is all. -/
theorem switchChange_taken (hst : x.st ≠ .homing) (hw : w = 0) : switchChange d a w on pos idx = setAx d a x := by
  unfold switchChange
  simp only [hx]
  rw [if_neg hst, if_neg (by omega)]

/-- A limit that a moving axis reaches in its direction of travel is taken and halts it (R189). -/
theorem switchChange_halts (hst : x.st = .moving) (hon : on = true) (hdir : (w = 2 ∧ 0 < x.v) ∨ (w = 1 ∧ x.v < 0)) :
    switchChange d a w on pos idx = err (setAx (setAx d a x) a { estopPlan d a x with st := .estopping }) (.ax a) 0x0322 0 := by
  unfold switchChange
  simp only [hx]
  rw [if_neg (by rw [hst]; decide), if_pos ⟨hon, .inl hst, hdir⟩, estopPlan_setAx]

end

/-- The event of a switch in use whose state is the other one. -/
theorem axSwitchEvent_change {d : Dev} {a w : Nat} {on : Bool} (hon : (swOf (axOf d a) w).on ≠ on) (hen : bit (swSrc d a w) 22 = true) :
    axSwitchEvent d a w on = switchChange d a w on (posAct d a) (idxCount d a) := if_pos ⟨hon, hen⟩

/-! ### Faults and chatter (R195, R208) -/

/-- The limits of the emergency stop are no part of AX_FLT_POS. -/
theorem estopPlan_fltPos (d : Dev) (a v : Nat) (x : Axis) : estopPlan (wr64 d (AX_FLT_POS a) v) a x = estopPlan d a x := by
  have hreg : ∀ r, r + 8 ≤ AX_FLT_POS a → axReg (wr64 d (AX_FLT_POS a) v) r = axReg d r := fun r h =>
    congrArg s64 (rd64_wr64_ne d v (.inl h))
  unfold estopPlan
  rw [hreg _ (by unfold AX_EDEC AX_FLT_POS; omega), hreg _ (by unfold AX_EJERK AX_FLT_POS; omega)]

/-- Chatter leaves the axis under its emergency stop, with the code and the position at the fault shown. -/
theorem homeChatter_facts {d : Dev} {a : Nat} (ha : a < 64) :
    axOf (homeChatter d a) a = { estopPlan d a (axOf d a) with hphase := 0, hnext := .chatter }
      ∧ rdN (homeChatter d a) (axBase a + ERR_CODE) % 65536 = 0x0321
      ∧ rd64 (homeChatter d a) (AX_FLT_POS a) = mk64 (lo64 (u64 (posCmd (axOf d a)))) (hi64 (u64 (posCmd (axOf d a))))
      ∧ (∀ b, b ≠ a → axOf (homeChatter d a) b = axOf d b) ∧ (homeChatter d a).sig = d.sig := by
  unfold homeChatter
  simp only [estopPlan_fltPos]
  exact axStop_facts d a 0x0321 _ ha (by decide)

theorem axStall_faults {d : Dev} {a : Nat} (hout : (axOf d a).devOut = true) (htime : fld (rd d (AX_DEV_CFG a)) 31 16 ≤ (axOf d a).devTimer)
    (hlive : axLive (axOf d a).st = true) : axStall d a = axFault d a 0x0311 :=
  (if_pos ⟨hout, htime⟩).trans (if_pos hlive)

/-- Settles O29: each event finds the axis in the state that the statement names, and is then that one case of it. -/
theorem axesEndTheirMoves : Obligations.AxesEndTheirMoves := by
  unfold Obligations.AxesEndTheirMoves
  intro s
  refine ⟨?profileEnd, ?standstill, ?standEstop, ?standHome, ?switchHome, ?switchLimit, ?stall, ?chatter⟩
  case profileEnd =>
    intro a ha hend
    exact exec_onDev (f := fun _ d => axProfileEnd d a) rfl (decide_eq_true ha) (if_pos hend)
  case standstill =>
    intro a ha hrest hst
    exact exec_onDev (f := fun _ d => axStandstill d a) rfl (decide_eq_true ha) (axStandstill_stopping hrest hst)
  case standEstop =>
    intro a ha hrest hst
    exact exec_onDev (f := fun _ d => axStandstill d a) rfl (decide_eq_true ha) (axStandstill_estopping hrest hst)
  case standHome =>
    rintro a ha hrest ⟨hst, hnext⟩
    exact exec_onDev (f := fun _ d => axStandstill d a) rfl (decide_eq_true ha) (axStandstill_homed hrest hst hnext)
  case switchHome =>
    rintro a on ha ⟨hst, hon, hen⟩
    exact exec_onDev (f := fun _ d => axSwitchEvent d a 0 on) rfl (by simp [ha])
      ((axSwitchEvent_change (w := 0) hon hen).trans (switchChange_taken (swPut_home _ _) hst rfl))
  case switchLimit =>
    rintro a ha ⟨hst, hoff, hen, hv⟩
    have hon : (swOf (axOf s.dev a) 2).on ≠ true := ne_true_of_eq_false hoff
    refine exec_onDev (f := fun _ d => axSwitchEvent d a 2 true) rfl (by simp [ha]) ?_
    rw [axSwitchEvent_change hon hen, switchChange_halts (swPut_limP _ _) hst rfl (.inl ⟨rfl, hv⟩),
      estopPlan_gen (axOf s.dev a) (by rfl) (by rfl)]
  case stall =>
    rintro a ha ⟨hout, htime, hlive⟩
    refine completes_onDev (f := fun _ d => axStall d a) rfl (decide_eq_true ha) ?_
    rw [axStall_faults hout htime hlive]
    exact axFault_facts s.dev a 0x0311 ha (by decide)
  case chatter =>
    intro a ha hchat
    refine completes_onDev (f := fun _ d => axChatterEvent d a) rfl (decide_eq_true ha) ?_
    rw [show axChatterEvent s.dev a = homeChatter s.dev a from if_pos hchat]
    exact homeChatter_facts ha

end Sys2Proof.Machine
end


section
/-! PROOFS. Encoder interfaces: quadrature errors, index marks and SSI frames (R201 to R203). -/

namespace Sys2Proof.Machine

/-! ### SSI frames (R202) -/

section
variable {d : Dev} {e : Nat} (hrun : runBit d (.enc e) = true) (hmode : encMode d e = 2)
include hrun hmode

theorem ssi_takes : ¬(runBit d (.enc e) = false ∨ encMode d e ≠ 2) := by simp [hrun, hmode]

/-- A good frame is the position, VALID, and the end of any row of errors. -/
theorem encSsi_good (raw : Nat) : encSsi d e raw true =
    setEnc (wr64 d (ENC_POS e) (if rdBit d (ENC_SSI e) 6 then grayNat 6 (raw % 2 ^ fld (rd d (ENC_SSI e)) 5 0) % 2 ^ fld (rd d (ENC_SSI e)) 5 0
      else raw % 2 ^ fld (rd d (ENC_SSI e)) 5 0)) e { encOf d e with valid := true, ssiErr := 0 } :=
  (if_neg (ssi_takes hrun hmode)).trans (if_pos rfl)

/-- A frame in error is counted; the third in a row clears VALID. -/
theorem encSsi_bad (raw : Nat) : encSsi d e raw false =
    setEnc (bump d (ENC_SSI_ERR_CNT e)) e
      { encOf d e with ssiErr := (encOf d e).ssiErr + 1, valid := (encOf d e).valid && decide ((encOf d e).ssiErr + 1 < 3) } :=
  (if_neg (ssi_takes hrun hmode)).trans (if_neg Bool.false_ne_true)

end

/-! ### Index marks (R201) -/

/-- What an index mark leaves: the count and the stamp at its edge, its own count, and the level of Z. -/
theorem encIndex_spec {d : Dev} {e : Nat} (pos ts : Nat) (hrun : runBit d (.enc e) = true) (hmode : encMode d e = 1)
    (hen : rdBit d (ENC_CFG e) 6 = true) :
    encIndex d e pos ts = setEnc (bump (wr64 (wr64 d (ENC_Z_POS e) pos) (ENC_Z_TS e) ts) (ENC_Z_CNT e)) e
      { encOf d e with z := !rdBit d (ENC_CFG e) 7 } :=
  if_pos ⟨hrun, hmode, hen⟩

theorem rd64_setEnc (d : Dev) (k : Nat) (x : Enc) (a : Nat) : rd64 (setEnc d k x) a = rd64 d a := by unfold rd64; rw [rd_setEnc, rd_setEnc]

theorem rd64_bump_ne {d : Dev} {a b : Nat} (h : b ≠ a) (h' : b + 4 ≠ a) : rd64 (bump d a) b = rd64 d b := rd64_wr_ne d _ h h'

/-- Settles O30: each event by the one effect it has on an interface that runs in its mode. -/
theorem encodersCount : Obligations.EncodersCount := by
  unfold Obligations.EncodersCount
  intro s
  refine ⟨?quad, ?index, ?ssi, ?ssiGray⟩
  case quad =>
    intro e he hq
    exact exec_onDev (f := fun _ d => encQuadError d e) rfl (decide_eq_true he) (if_pos hq)
  case index =>
    rintro e pos ts he ⟨hrun, hmode, hen⟩
    refine completes_onDev (f := fun _ d => encIndex d e pos ts) rfl (decide_eq_true he) ?_
    rw [encIndex_spec pos ts hrun hmode hen]
    have hpos : ENC_Z_POS e + 8 ≤ ENC_Z_TS e ∧ ENC_POS e + 8 ≤ ENC_Z_POS e := by unfold ENC_Z_POS ENC_Z_TS ENC_POS; omega
    have hcnt : ENC_Z_TS e + 8 ≤ ENC_Z_CNT e := by unfold ENC_Z_CNT ENC_Z_TS; omega
    refine ⟨?_, ?_, ?_, ?_, encOf_setEnc_same _ _ _, fun j hj => ?_, ?_⟩
    · rw [rd64_setEnc, rd64_bump_ne (by omega) (by omega), rd64_wr64_ne _ _ (by omega), rd64_wr64_same]
    · rw [rd64_setEnc, rd64_bump_ne (by omega) (by omega), rd64_wr64_same]
    · rw [rd_setEnc, rd_bump_same, rd_wr64_ne _ _ (by omega) (by omega), rd_wr64_ne _ _ (by omega) (by omega)]
    · rw [rd64_setEnc, rd64_bump_ne (by omega) (by omega), rd64_wr64_ne _ _ (by omega), rd64_wr64_ne _ _ (by omega)]
    · rw [encOf_setEnc_ne _ _ hj, encOf_bump, encOf_wr64, encOf_wr64]
    · rw [setEnc_stage1, bump_stage1, wr64_stage1, wr64_stage1]
  case ssi =>
    rintro e raw he ⟨hrun, hmode, hbin⟩
    refine ⟨exec_onDev (f := fun _ d => encSsi d e raw true) rfl (decide_eq_true he) ?_,
      exec_onDev (f := fun _ d => encSsi d e raw false) rfl (decide_eq_true he) (encSsi_bad hrun hmode raw)⟩
    rw [encSsi_good hrun hmode, if_neg (by rw [hbin]; decide)]
  case ssiGray =>
    rintro e raw he ⟨hrun, hmode, hgray⟩
    refine exec_onDev (f := fun _ d => encSsi d e raw true) rfl (decide_eq_true he) ?_
    rw [encSsi_good hrun hmode, if_pos hgray]

end Sys2Proof.Machine
end


section
/-! PROOFS. Instructions of logic programs that work on LB, ACC and X, branches, jumps and arithmetic (R217, R220, R221). -/

namespace Sys2Proof.Machine

/-! ### One instruction executed -/

section
variable {c : Instr} {s : State} {p o : Nat} {t : TInst} {w : W32} {f : LCtx → W32 → LCtx} {e : LCtx}

/-- An instruction of the released task that is next, with effect e on its context: the processor holds that task as e has it. -/
theorem completes_insn {post : Dev → Prop} (he : exec c s = onDev (decide (p < 4)) (fun _ d => lpInsn o f d p) s) (hp : p < 4)
    (hn : nextInsn s.dev p = some (t, w)) (ho : opcodeOf w = o) (hf : f (logicCtx s.dev p t w) w = e)
    (hpost : post (setLp e.d p (setInst e.x e.t))) : Completes c s post :=
  completes_onDev he (decide_eq_true hp) (by rw [lpInsn_runs f hn ho, hf]; exact hpost)

/-- An instruction that works on its released task alone is a step of it. -/
theorem completes_logicStep {t' : TInst} (he : exec c s = onDev (decide (p < 4)) (fun _ d => lpInsn o f d p) s) (hp : p < 4)
    (hn : nextInsn s.dev p = some (t, w)) (ho : opcodeOf w = o) (hf : f (logicCtx s.dev p t w) w = e)
    (hx : e.x = (logicCtx s.dev p t w).x) (ht : e.t = t') (hk : t'.k = t.k) (hd : e.d = { s.dev with regs := e.d.regs }) :
    Completes c s (fun d => LogicStep s.dev d p w t t') :=
  completes_insn he hp hn ho hf (logicStep_of hx ht hk hd)

theorem completes_setLB {b : Bool} (he : exec c s = onDev (decide (p < 4)) (fun _ d => lpInsn o f d p) s) (hp : p < 4)
    (hn : nextInsn s.dev p = some (t, w)) (ho : opcodeOf w = o) (hs : Sees (logicCtx s.dev p t w) e)
    (hf : f (logicCtx s.dev p t w) w = setLB e b) :
    Completes c s (fun d => LogicStep s.dev d p w t { t with lb := b, pc := t.pc + 1, cyc := t.cyc + opCycles (opcodeOf w) }) :=
  completes_insn he hp hn ho hf (logicStep_setLB b hs)

theorem completes_setACC {v : W16} (he : exec c s = onDev (decide (p < 4)) (fun _ d => lpInsn o f d p) s) (hp : p < 4)
    (hn : nextInsn s.dev p = some (t, w)) (ho : opcodeOf w = o) (hs : Sees (logicCtx s.dev p t w) e)
    (hf : f (logicCtx s.dev p t w) w = setACC e v) :
    Completes c s (fun d => LogicStep s.dev d p w t { t with acc := v, pc := t.pc + 1, cyc := t.cyc + opCycles (opcodeOf w) }) :=
  completes_insn he hp hn ho hf (logicStep_setACC v hs)

/-- A jump, taken or not, is a step that sets the address alone. -/
theorem completes_jump {b : Bool} (he : exec c s = onDev (decide (p < 4)) (fun _ d => lpInsn o f d p) s) (hp : p < 4)
    (hn : nextInsn s.dev p = some (t, w)) (ho : opcodeOf w = o)
    (hf : f (logicCtx s.dev p t w) w = setPC (logicCtx s.dev p t w) (if b then jumpTo w else t.pc + 1)) :
    Completes c s (fun d => LogicStep s.dev d p w t
      { t with pc := if b then w.toNat % 131072 else t.pc + 1, cyc := t.cyc + opCycles (opcodeOf w) }) :=
  completes_logicStep he hp hn ho hf rfl rfl rfl rfl

end

/-- The context of an instruction with its opcode known: its cycles. -/
theorem logicCtx_t {d : Dev} {p o : Nat} {t : TInst} {w : W32} (ho : opcodeOf w = o) :
    (logicCtx d p t w).t = { t with pc := t.pc + 1, cyc := t.cyc + opCycles o } := by subst ho; rfl

theorem insnPOP_cons {c : LCtx} {b : Bool} {f : Nat} {r : List (Bool × Nat)} (w : W32) (h : c.t.stack = (b, f) :: r) :
    insnPOP c w = setLB { c with t := { c.t with stack := r } }
      (if f = 0 then b && c.t.lb else if f = 1 then b || c.t.lb else b != c.t.lb) := by
  unfold insnPOP
  rw [h]

theorem insnJC_setPC (c : LCtx) (w : W32) : insnJC c w = setPC c (if c.t.lb then jumpTo w else c.t.pc) := by
  unfold insnJC
  split <;> rfl

theorem insnJNC_setPC (c : LCtx) (w : W32) : insnJNC c w = setPC c (if !c.t.lb then jumpTo w else c.t.pc) := by
  unfold insnJNC
  cases c.t.lb <;> rfl

/-- Settles O32: each opcode sets LB, ACC, X, the branch stack or the address of the context in which it runs. -/
theorem bitInstructionsWorkOnLB : Obligations.BitInstructionsWorkOnLB := by
  unfold Obligations.BitInstructionsWorkOnLB
  intro s
  refine ⟨?bits, ?branch, ?push, ?words, ?ldx, ?jumps⟩
  case bits =>
    intro p t w e hp hn he ho
    have hbit := sees_bitV (logicCtx s.dev p t w) w
    have hword := sees_wordV (logicCtx s.dev p t w) w
    simp only [List.mem_cons, List.not_mem_nil, or_false] at he
    rcases he with rfl | rfl | rfl | rfl | rfl | rfl | rfl | rfl | rfl | rfl | rfl | rfl
    · exact completes_setLB (f := insnNOP) rfl hp hn ho (sees_refl _) rfl
    · exact completes_setLB (f := insnLD) rfl hp hn ho hbit rfl
    · exact completes_setLB (f := insnLDN) rfl hp hn ho hbit rfl
    · exact completes_setLB (f := insnAND) rfl hp hn ho hbit rfl
    · exact completes_setLB (f := insnANDN) rfl hp hn ho hbit rfl
    · exact completes_setLB (f := insnOR) rfl hp hn ho hbit rfl
    · exact completes_setLB (f := insnORN) rfl hp hn ho hbit rfl
    · exact completes_setLB (f := insnXOR) rfl hp hn ho hbit rfl
    · exact completes_setLB (f := insnNOT) rfl hp hn ho (sees_refl _) rfl
    · exact completes_setLB (f := insnCEQ) rfl hp hn ho hword rfl
    · exact completes_setLB (f := insnCGT) rfl hp hn ho hword rfl
    · exact completes_setLB (f := insnCLT) rfl hp hn ho hword rfl
  case branch =>
    rintro p t w f b r hp hn ⟨ho, hstack⟩
    refine completes_logicStep (f := insnPOP) rfl hp hn ho (insnPOP_cons (c := logicCtx s.dev p t w) w hstack) rfl ?_ rfl rfl
    unfold setLB
    simp only [logicCtx_t ho]
    rfl
  case push =>
    intro p t w e hp hn he ho
    simp only [List.mem_cons, List.not_mem_nil, or_false] at he
    rcases he with rfl | rfl | rfl
    · exact completes_logicStep (f := insnANDP) rfl hp hn ho rfl rfl rfl rfl rfl
    · exact completes_logicStep (f := insnORP) rfl hp hn ho rfl rfl rfl rfl rfl
    · exact completes_logicStep (f := insnXORP) rfl hp hn ho rfl rfl rfl rfl rfl
  case words =>
    intro p t w e hp hn he ho
    have hword := sees_wordV (logicCtx s.dev p t w) w
    simp only [List.mem_cons, List.not_mem_nil, or_false] at he
    rcases he with rfl | rfl | rfl | rfl | rfl | rfl
    · exact completes_setACC (f := insnLDW) rfl hp hn ho hword rfl
    · exact completes_setACC (f := insnANDW) rfl hp hn ho hword rfl
    · exact completes_setACC (f := insnORW) rfl hp hn ho hword rfl
    · exact completes_setACC (f := insnXORW) rfl hp hn ho hword rfl
    · exact completes_setACC (f := insnSHL) rfl hp hn ho (sees_refl _) rfl
    · exact completes_setACC (f := insnSHR) rfl hp hn ho (sees_refl _) rfl
  case ldx =>
    intro p t w hp hn ho
    obtain ⟨-, hx, ht, -, hd⟩ := sees_wordV (logicCtx s.dev p t w) w
    refine completes_logicStep (f := insnLDX) rfl hp hn ho rfl hx ?_ rfl hd
    show { (wordV (logicCtx s.dev p t w) w).2.t with x := (wordV (logicCtx s.dev p t w) w).1 } = _
    rw [ht, logicCtx_t ho]
    rfl
  case jumps =>
    intro p t w e hp hn he ho
    simp only [List.mem_cons, List.not_mem_nil, or_false] at he
    rcases he with rfl | rfl | rfl
    · exact completes_jump (f := insnJMP) rfl hp hn ho rfl
    · exact completes_jump (f := insnJC) rfl hp hn ho (insnJC_setPC (logicCtx s.dev p t w) w)
    · exact completes_jump (f := insnJNC) rfl hp hn ho (insnJNC_setPC (logicCtx s.dev p t w) w)

/-! ### Arithmetic -/

/-- What a task keeps, with OV raised where the exact result does not fit, and with DZ raised (Table 8-5). -/
def raisedOV (b : Bool) (k : TKeep) : TKeep := { k with ov := k.ov || b }
def raisedDZ (k : TKeep) : TKeep := { k with dz := true }

/-- A result in ACC, and the flags of the task as g has them: of all else of the processor nothing has moved. -/
theorem flagStep {d : Dev} {p : Nat} {t : TInst} {w : W32} {c e : LCtx} {v : W16} (g : TKeep → TKeep) (hs : Sees (logicCtx d p t w) c)
    (he : e.d = (setACC c v).d ∧ e.t = (setACC c v).t ∧ e.x = { (setACC c v).x with keep := e.x.keep }
      ∧ ∀ k, keepOf e.x k = if k = (setACC c v).t.k then g (keepOf (setACC c v).x k) else keepOf (setACC c v).x k) :
    lpOf (setLp e.d p (setInst e.x e.t)) p = { (logicCtx d p t w).x with
        insts := (lpOf d p).insts.map (fun u => if u.k = t.k then { t with acc := v, pc := t.pc + 1, cyc := t.cyc + opCycles (opcodeOf w) } else u)
        keep := (lpOf (setLp e.d p (setInst e.x e.t)) p).keep }
      ∧ (∀ k, keepOf (lpOf (setLp e.d p (setInst e.x e.t)) p) k = if k = t.k then g (keepOf (lpOf d p) k) else keepOf (lpOf d p) k)
      ∧ (∀ q, q ≠ p → lpOf (setLp e.d p (setInst e.x e.t)) q = lpOf d q)
      ∧ (setLp e.d p (setInst e.x e.t)).sig = d.sig ∧ (setLp e.d p (setInst e.x e.t)).stage2 = d.stage2 := by
  obtain ⟨-, cx, ct, -, cd⟩ := hs
  obtain ⟨hd, ht, hx, hkeep⟩ := he
  have hinst : e.t = { t with acc := v, pc := t.pc + 1, cyc := t.cyc + opCycles (opcodeOf w) } := by rw [ht, setACC, ct]; rfl
  have hdev : e.d = { d with regs := e.d.regs } := by rw [hd]; exact cd
  have hlp : e.x = { (logicCtx d p t w).x with keep := e.x.keep } := hx.trans (by rw [setACC, cx])
  refine ⟨?_, fun k => ?_, fun q hq => ?_, ?_, ?_⟩
  · rw [lpOf_setLp_same, hinst]
    unfold setInst
    rw [hlp]
    rfl
  · rw [lpOf_setLp_same]
    refine (hkeep k).trans ?_
    rw [setACC, cx, ct]
    rfl
  · rw [lpOf_setLp_ne _ _ hq, hdev]
    rfl
  · rw [setLp_sig, hdev]
  · rw [setLp_stage2, hdev]

theorem insnDIV_exact {c : LCtx} {w : W32} (h : (wordV c w).1 ≠ 0) :
    insnDIV c w = accSat (wordV c w).2 (Int.tdiv c.t.acc.toInt (wordV c w).1.toInt) := if_neg h

theorem insnDIV_zero {c : LCtx} {w : W32} (h : (wordV c w).1 = 0) : insnDIV c w = raiseDZ (setACC (wordV c w).2 0) := if_pos h

/-- Settles O33: the four operations put their result into ACC and raise OV by the exact one; a division by 0 raises DZ. -/
theorem arithmeticSetsACCAndItsFlags : Obligations.ArithmeticSetsACCAndItsFlags := by
  unfold Obligations.ArithmeticSetsACCAndItsFlags
  intro s
  refine ⟨?arith, ?divZero⟩
  case arith =>
    rintro p t w e hp hn he ⟨ho, hdiv⟩
    have hword := sees_wordV (logicCtx s.dev p t w) w
    simp only [List.mem_cons, List.not_mem_nil, or_false] at he
    rcases he with rfl | rfl | rfl | rfl
    · exact completes_insn (f := insnADD) rfl hp hn ho rfl (flagStep (raisedOV _) hword (raiseOV_facts _ _))
    · exact completes_insn (f := insnSUB) rfl hp hn ho rfl (flagStep (raisedOV _) hword (raiseOV_facts _ _))
    · exact completes_insn (f := insnMUL) rfl hp hn ho rfl (flagStep (raisedOV _) hword (raiseOV_facts _ _))
    · have hne : (wordV (logicCtx s.dev p t w) w).1 ≠ 0 := by
        rintro h
        exact hdiv.elim (fun h0 => h0 (by rw [h]; rfl)) (fun h0 => h0 rfl)
      exact completes_insn (f := insnDIV) rfl hp hn ho (insnDIV_exact hne) (flagStep (raisedOV _) hword (raiseOV_facts _ _))
  case divZero =>
    rintro p t w hp hn ⟨ho, hzero⟩
    refine completes_insn (f := insnDIV) rfl hp hn ho (insnDIV_zero hzero) ?_
    obtain ⟨hlp, hkeep, -, hsig, -⟩ := flagStep raisedDZ (sees_wordV (logicCtx s.dev p t w) w) (raiseDZ_facts (setACC _ 0))
    rw [show opCycles (opcodeOf w) = 8 by rw [ho]; rfl] at hlp
    exact ⟨hlp, hkeep, hsig⟩

end Sys2Proof.Machine
end


section
/-! PROOFS. Stores of logic programs: the addressed bit or word, and nothing else (R212, R215, R220, R222). -/

namespace Sys2Proof.Machine

/-- What an instruction may write of the shared area lies in its processor's own quarter (Table 8-4). -/
theorem inWrite_quarter {c : LCtx} {w : W32} {word : Bool} (h : inWrite c w word = true) (ha : areaOf w = 3) :
    operandAddr c w / (if word then 4096 else 65536) = c.p := by
  unfold inWrite at h
  obtain ⟨-, hmay⟩ := Bool.and_eq_true_iff.mp h
  rw [ha] at hmay
  cases word <;> exact eq_of_beq hmay

/-- A bit of M, W, S or H is stored with the word in which it lies. -/
theorem writeBit_writeWord (c : LCtx) {a : Nat} (n : Nat) (b : Bool) (ha : a < 4) : ∃ v, writeBit c a n b = writeWord c a (n / 16) v :=
  match a, ha with
  | 0, _ | 1, _ | 2, _ | 3, _ => ⟨_, rfl⟩

/-- A store that an instruction may make, with no force standing: it adds to the outputs and shared words that the released task has written. -/
def Stores (d : Dev) (p : Nat) (t : TInst) (w : W32) (c : LCtx) : Prop :=
  c.d = d ∧ c.t = { (logicCtx d p t w).t with outs := c.t.outs, hw := c.t.hw } ∧ c.x.slots = (lpOf d p).slots ∧ c.x.keep = (lpOf d p).keep

theorem stores_writeWord (d : Dev) (p : Nat) (t : TInst) (w : W32) (a n : Nat) (v : W16) :
    Stores d p t w (writeWord (logicCtx d p t w) a n v) := by
  obtain ⟨hd, -, -, hslots, -, hkeep, -, ht⟩ := writeWord_keep (logicCtx d p t w) a n v
  exact ⟨hd, ht, hslots, hkeep⟩

theorem storeBit_spec {d : Dev} {p : Nat} {t : TInst} {w : W32} (v : Bool) (hin : inWrite (logicCtx d p t w) w false = true) (ha : areaOf w < 4)
    (hf : (lpOf d p).forces = []) :
    Stores d p t w (storeBit (logicCtx d p t w) w v)
      ∧ ∀ a n, readBit (storeBit (logicCtx d p t w) w v) a n
        = if a = areaOf w ∧ n = operandAddr (logicCtx d p t w) w then v else readBit (logicCtx d p t w) a n := by
  rw [show storeBit (logicCtx d p t w) w v = writeBit (logicCtx d p t w) (areaOf w) (operandAddr (logicCtx d p t w) w) v from if_pos hin]
  refine ⟨?_, fun a n => readBit_writeBit _ _ _ a n v ha (inWrite_quarter hin) hf⟩
  obtain ⟨u, hu⟩ := writeBit_writeWord (logicCtx d p t w) (operandAddr (logicCtx d p t w) w) v ha
  rw [hu]
  exact stores_writeWord d p t w _ _ u

theorem storeWord_spec {d : Dev} {p : Nat} {t : TInst} {w : W32} (v : W16) (hin : inWrite (logicCtx d p t w) w true = true) (ha : areaOf w < 4)
    (hf : (lpOf d p).forces = []) :
    Stores d p t w (storeWord (logicCtx d p t w) w v)
      ∧ ∀ a n, readWord (storeWord (logicCtx d p t w) w v) a n
        = if a = areaOf w ∧ n = operandAddr (logicCtx d p t w) w then v else readWord (logicCtx d p t w) a n := by
  rw [show storeWord (logicCtx d p t w) w v = writeWord (logicCtx d p t w) (areaOf w) (operandAddr (logicCtx d p t w) w) v from if_pos hin]
  exact ⟨stores_writeWord d p t w _ _ v, fun a n => readWord_writeWord _ _ _ a n v ha (inWrite_quarter hin) hf⟩

/-- An instruction that stores, of the words or the bits that read reads: the device holds the processor that the store leaves. -/
theorem exec_store {c : Instr} {s : State} {p o : Nat} {t : TInst} {w : W32} {f : LCtx → W32 → LCtx} {e : LCtx} {α : Type}
    {read : LCtx → Nat → Nat → α} {v : α} (he : exec c s = onDev (decide (p < 4)) (fun _ d => lpInsn o f d p) s) (hp : p < 4)
    (hn : nextInsn s.dev p = some (t, w)) (ho : opcodeOf w = o) (hf : f (logicCtx s.dev p t w) w = e)
    (h : Stores s.dev p t w e ∧ ∀ a n, read e a n
      = if a = areaOf w ∧ n = operandAddr (logicCtx s.dev p t w) w then v else read (logicCtx s.dev p t w) a n) :
    ∃ e : LCtx, exec c s = .next { s with dev := setLp s.dev p (setInst e.x e.t) }
      ∧ read e (areaOf w) (operandAddr (logicCtx s.dev p t w) w) = v
      ∧ (∀ a n, (a ≠ areaOf w ∨ n ≠ operandAddr (logicCtx s.dev p t w) w) → read e a n = read (logicCtx s.dev p t w) a n)
      ∧ e.t = { (logicCtx s.dev p t w).t with outs := e.t.outs, hw := e.t.hw } ∧ e.x.slots = (lpOf s.dev p).slots
      ∧ e.x.keep = (lpOf s.dev p).keep := by
  obtain ⟨⟨hd, hrest⟩, hread⟩ := h
  refine ⟨e, exec_onDev he (decide_eq_true hp) (store_runs hn ho hf hd), ?_, fun a n h => ?_, hrest⟩
  · rw [hread, if_pos ⟨rfl, rfl⟩]
  · rw [hread, if_neg (fun ⟨h1, h2⟩ => h.elim (· h1) (· h2))]

/-- A conditional instruction while LB is 0: its context unchanged. -/
theorem if_lb_clear {d : Dev} {p : Nat} {t : TInst} {w : W32} {e : LCtx} (h : t.lb = false) :
    (if (logicCtx d p t w).t.lb then e else logicCtx d p t w) = logicCtx d p t w := if_neg (ne_true_of_eq_false h)

/-- A conditional instruction while LB is 1: its effect. -/
theorem if_lb_set {d : Dev} {p : Nat} {t : TInst} {w : W32} {e : LCtx} (h : t.lb = true) :
    (if (logicCtx d p t w).t.lb then e else logicCtx d p t w) = e := if_pos h

/-- Settles O34: each store is the store of its bit or its word; with LB 0 a conditional one leaves its context. -/
theorem storesReachTheirArea : Obligations.StoresReachTheirArea := by
  unfold Obligations.StoresReachTheirArea
  intro s
  refine ⟨?bit, ?word, ?notWhenLBisClear⟩
  case bit =>
    rintro p t w e hp hn he ⟨ho, hlb⟩ ⟨hin, ha, hforce⟩
    simp only [List.mem_cons, List.not_mem_nil, or_false] at he
    rcases he with rfl | rfl | rfl | rfl
    · exact exec_store (f := insnST) rfl hp hn ho rfl (storeBit_spec _ hin ha hforce)
    · exact exec_store (f := insnSTN) rfl hp hn ho rfl (storeBit_spec _ hin ha hforce)
    · exact exec_store (f := insnSET) rfl hp hn ho (if_lb_set (hlb.resolve_right (by simp))) (storeBit_spec _ hin ha hforce)
    · exact exec_store (f := insnRST) rfl hp hn ho (if_lb_set (hlb.resolve_right (by simp))) (storeBit_spec _ hin ha hforce)
  case word =>
    rintro p t w e hp hn he ⟨ho, hlb⟩ ⟨hin, ha, hforce⟩
    simp only [List.mem_cons, List.not_mem_nil, or_false] at he
    rcases he with rfl | rfl
    · exact exec_store (f := insnSTW) rfl hp hn ho rfl (storeWord_spec _ hin ha hforce)
    · exact exec_store (f := insnSTWC) rfl hp hn ho (if_lb_set (hlb.resolve_right (by simp))) (storeWord_spec _ hin ha hforce)
  case notWhenLBisClear =>
    rintro p t w e hp hn he ⟨ho, hlb⟩
    simp only [List.mem_cons, List.not_mem_nil, or_false] at he
    rcases he with rfl | rfl | rfl | rfl | rfl | rfl
    · exact completes_logicStep (f := insnSET) rfl hp hn ho (if_lb_clear hlb) rfl rfl rfl rfl
    · exact completes_logicStep (f := insnRST) rfl hp hn ho (if_lb_clear hlb) rfl rfl rfl rfl
    · exact completes_logicStep (f := insnSTWC) rfl hp hn ho (if_lb_clear hlb) rfl rfl rfl rfl
    · exact completes_logicStep (f := insnCRS) rfl hp hn ho (if_lb_clear hlb) rfl rfl rfl rfl
    · exact completes_logicStep (f := insnCLD) rfl hp hn ho (if_lb_clear hlb) rfl rfl rfl rfl
    · exact completes_logicStep (f := insnTRIG) rfl hp hn ho (if_lb_clear hlb) rfl rfl rfl rfl

end Sys2Proof.Machine
end


section
/-! PROOFS. Timers, counters, edge detectors, slot instructions, TRIG and END (R216, R220, R223 to R225). -/

namespace Sys2Proof.Machine

/-- An instruction of a slot is a step that stages the slot and sets LB. -/
theorem completes_slot {c : Instr} {s : State} {p o cy : Nat} {t : TInst} {w : W32} {f : LCtx → W32 → LCtx} {r r' : Slot × Bool}
    (he : exec c s = onDev (decide (p < 4)) (fun _ d => lpInsn o f d p) s) (hp : p < 4) (hn : nextInsn s.dev p = some (t, w))
    (ho : opcodeOf w = o) (hc : opCycles o = cy)
    (hf : f (logicCtx s.dev p t w) w = setLB (putSlot (logicCtx s.dev p t w) (w.toNat % 8192) r.1) r.2) (hr : r = r') :
    Completes c s (fun d => LogicStep s.dev d p w t
      { t with lb := r'.2, sl := aput t.sl (w.toNat % 8192) r'.1, pc := t.pc + 1, cyc := t.cyc + cy }) :=
  completes_logicStep he hp hn ho hf rfl (logicSlotStep ho hc rfl hr) rfl rfl

/-- An instruction that writes a slot alone. -/
theorem completes_put {c : Instr} {s : State} {p o cy : Nat} {t : TInst} {w : W32} {f : LCtx → W32 → LCtx} {u : Slot}
    (he : exec c s = onDev (decide (p < 4)) (fun _ d => lpInsn o f d p) s) (hp : p < 4) (hn : nextInsn s.dev p = some (t, w))
    (ho : opcodeOf w = o) (hc : opCycles o = cy) (hf : f (logicCtx s.dev p t w) w = putSlot (logicCtx s.dev p t w) (w.toNat % 8192) u) :
    Completes c s (fun d => LogicStep s.dev d p w t { t with sl := aput t.sl (w.toNat % 8192) u, pc := t.pc + 1, cyc := t.cyc + cy }) :=
  completes_logicStep he hp hn ho hf rfl (by subst ho hc; rfl) rfl rfl

/-- The device after END: the times of the task's last run (Table 8-1). -/
theorem insnEND_times {d : Dev} {p : Nat} {t : TInst} {w : W32} (ho : opcodeOf w = 0x3C) :
    rd (insnEND (logicCtx d p t w) w).d (LP_TK_LAST p t.k) = w32 (min 0xFFFFFFFF (t.cyc + 1))
      ∧ rd (insnEND (logicCtx d p t w) w).d (LP_TK_PEAK p t.k)
        = w32 (max (rdN d (LP_TK_PEAK p t.k)) (min 0xFFFFFFFF ((bp d - t.rel) * 4000 + ((lpOf d p).at_ + switchCost (lpOf d p) t + 1)))) := by
  have hne : LP_TK_LAST p t.k ≠ LP_TK_PEAK p t.k := by unfold LP_TK_LAST LP_TK_PEAK; omega
  have hcy : opCycles (opcodeOf w) = 1 := by rw [ho]; rfl
  unfold insnEND logicCtx
  simp only [hcy]
  rw [rd_wrN_ne _ _ hne, rd_wrN_same, rd_wrN_same]
  exact ⟨rfl, rfl⟩

/-- Settles O35: each instruction by what its timer, its edge detector or its slot becomes; TRIG and END by what they leave outside
the released task. -/
theorem timersAndEdgesKeepTheirSlots : Obligations.TimersAndEdgesKeepTheirSlots := by
  unfold Obligations.TimersAndEdgesKeepTheirSlots
  intro s
  refine ⟨?timers, ?tof, ?tp, ?edges, ?puts, ?trig, ?ends⟩
  case timers =>
    rintro p t w hp hn ⟨ho, hkind, hinit⟩
    exact completes_slot (f := insnTON) rfl hp hn ho rfl rfl (timerExec_ton _ t.lb t.rel hkind hinit)
  case tof =>
    rintro p t w hp hn ⟨ho, hkind, hinit⟩
    exact completes_slot (f := insnTOF) rfl hp hn ho rfl rfl (timerExec_tof _ t.lb t.rel hkind hinit)
  case tp =>
    rintro p t w hp hn ⟨ho, hkind, hinit⟩
    exact completes_slot (f := insnTP) rfl hp hn ho rfl rfl (timerExec_tp _ t.lb t.rel hkind hinit)
  case edges =>
    rintro p t w e hp hn he ⟨ho, hkind⟩
    simp only [List.mem_cons, List.not_mem_nil, or_false] at he
    rcases he with rfl | rfl
    · exact completes_slot (f := insnRED) rfl hp hn ho rfl rfl (edgeExec_facts _ t.lb _ (.inl ⟨hkind, rfl⟩))
    · exact completes_slot (f := insnFED) rfl hp hn ho rfl rfl (edgeExec_facts _ t.lb _ (.inr ⟨hkind, rfl⟩))
  case puts =>
    rintro p t w e hp hn he ⟨ho, hlb⟩
    simp only [List.mem_cons, List.not_mem_nil, or_false] at he
    rcases he with rfl | rfl | rfl | rfl
    · exact completes_put (f := insnCRS) rfl hp hn ho rfl (if_lb_set (hlb.resolve_right (by simp)))
    · exact completes_put (f := insnCLD) rfl hp hn ho rfl (if_lb_set (hlb.resolve_right (by simp)))
    · exact completes_put (f := insnLPT) rfl hp hn ho rfl rfl
    · exact completes_put (f := insnLPV) rfl hp hn ho rfl rfl
  case trig =>
    rintro p t w hp hn ⟨ho, hlb⟩
    refine completes_insn (f := insnTRIG) rfl hp hn ho (if_lb_set hlb) ⟨rfl, ?_, fun q hq => lpOf_setLp_ne _ _ hq, rfl, rfl⟩
    rw [lpOf_setLp_same, logicCtx_t ho]
    rfl
  case ends =>
    intro p t w hp hn ho
    refine completes_insn (f := insnEND) rfl hp hn ho rfl ⟨logicStep_of rfl ?_ rfl rfl, insnEND_times ho⟩
    unfold insnEND
    simp only [logicCtx_t ho]
    rfl

/-! ### Counters (R224) -/

/-- One count keeps a value within 16 bits. -/
theorem count_within {v : Int} (hlo : -32768 ≤ v) (hhi : v ≤ 32767) (rise : Bool) :
    (-32768 ≤ (if rise then min (v + 1) 32767 else v) ∧ (if rise then min (v + 1) 32767 else v) ≤ 32767)
      ∧ -32768 ≤ (if rise then max (v - 1) (-32768) else v) ∧ (if rise then max (v - 1) (-32768) else v) ≤ 32767 := by
  cases rise
  · exact ⟨⟨hlo, hhi⟩, hlo, hhi⟩
  · simp only [if_true]
    omega

/-- Settles O36: CTU and CTD are the counter's execution, which keeps its value within 16 bits. -/
theorem countersCountRisingEdges : Obligations.CountersCountRisingEdges := by
  unfold Obligations.CountersCountRisingEdges
  rintro s p t w e hp hn he ⟨ho, hkind⟩ ⟨hlo, hhi⟩
  simp only [List.mem_cons, List.not_mem_nil, or_false] at he
  rcases he with rfl | rfl
  · exact ⟨completes_slot (f := insnCTU) rfl hp hn ho rfl rfl (counterExec_up _ t.lb hkind), (count_within hlo hhi _).1⟩
  · exact ⟨completes_slot (f := insnCTD) rfl hp hn ho rfl rfl (counterExec_down _ t.lb hkind), (count_within hlo hhi _).2⟩

end Sys2Proof.Machine
end


section
/-! PROOFS. The force commands of a logic processor (R211, R229). -/

namespace Sys2Proof.Machine

/-- An admitted command of a processor's page that makes no error completes with its effect on the device as issued. -/
theorem completes_lpCmd {c : Instr} {s : State} {p off : Nat} {v : W32} {f : Dev → Dev} {e : Dev} {post : Dev → Prop}
    (he : exec c s = onDev (decide (p < 4)) (fun _ d => hostCmd d (.lp p) off v f) s) (hp : p < 4) (ha : admits s.dev (.lp p) off = true)
    (ho : off ≠ ERR_CODE) (hf : f (issued s.dev (.lp p) off v) = e)
    (herr : rd e (pageBase (.lp p) + ERR_CODE) = rd (issued s.dev (.lp p) off v) (pageBase (.lp p) + ERR_CODE)) (hpost : post e) :
    Completes c s post :=
  completes_host (f := fun _ d => f d) he (decide_eq_true hp) ha ho (by rw [hf]; exact herr) (by rw [hf]; exact hpost)

/-- What a command finds in a register of its page that is not the command's. -/
theorem rd_lpCmd {d : Dev} {p off a : Nat} {v : W32} (h : a ≠ lpBase p + off) : rd (issued d (.lp p) off v) a = rd d a := rd_issued_ne _ _ _ _ _ h
theorem rdN_lpCmd {d : Dev} {p off a : Nat} {v : W32} (h : a ≠ lpBase p + off) : rdN (issued d (.lp p) off v) a = rdN d a := by
  unfold rdN
  rw [rd_lpCmd h]

/-- The error code of a page is none of its other registers. -/
theorem lpErr_wrN {d : Dev} {p r v : Nat} (h : lpBase p + 0x100 ≤ r) :
    rd (wrN d r v) (pageBase (.lp p) + ERR_CODE) = rd d (pageBase (.lp p) + ERR_CODE) :=
  rd_wrN_ne _ _ (by show lpBase p + ERR_CODE ≠ r; unfold ERR_CODE; omega)

/-- The value that SET gives a force: for a bit its lowest bit. -/
def forceVal (d : Dev) (p : Nat) (y : LSym) : Nat := if y.word then fld (rd d (LP_FRC_VAL p)) 15 0 else fld (rd d (LP_FRC_VAL p)) 15 0 % 2

/-- The force table with a force set: replaced, or added. -/
def forcesSet (fs : List (Nat × Nat)) (id v : Nat) : List (Nat × Nat) :=
  if fs.any (fun f => f.1 == id) then fs.map (fun f => if f.1 = id then (id, v) else f) else fs ++ [(id, v)]

section
variable {d : Dev} {p : Nat}

/-- SET of a symbol: refused where a new force finds the table full, else carried out. -/
theorem forceSet_known {y : LSym} (hst : frcState (lpOf d p) = false) (hy : symOf (lpOf d p).prog (rdN d (LP_FRC_SYM p)) = some y) :
    forceSet d p = if (lpOf d p).forces.any (fun f => f.1 == rdN d (LP_FRC_SYM p)) = false ∧ 1024 ≤ (lpOf d p).forces.length
      then wrN d (LP_FRC_RES p) 1
      else forceDone d p 1 (rdN d (LP_FRC_SYM p)) (forceVal d p y) (forcesSet (lpOf d p).forces (rdN d (LP_FRC_SYM p)) (forceVal d p y)) := by
  have hval : (if y.word = true then fld (rd d (LP_FRC_VAL p)) 15 0 else fld (rd d (LP_FRC_VAL p)) 15 0 % 2) = forceVal d p y := rfl
  unfold forceSet forcesSet
  simp only [hst, hy, hval, Bool.false_eq_true, if_false]
  by_cases hany : (lpOf d p).forces.any (fun f => f.1 == rdN d (LP_FRC_SYM p)) = true
  · rw [if_pos hany, if_pos hany, if_neg (fun h => ne_true_of_eq_false h.1 hany)]
  · by_cases hfull : 1024 ≤ (lpOf d p).forces.length
    · rw [if_neg hany, if_pos hfull, if_pos ⟨eq_false_of_ne_true hany, hfull⟩]
    · rw [if_neg hany, if_neg hany, if_neg hfull, if_neg (fun h => hfull h.2)]

theorem forceRemove_found {f : Nat × Nat} (hst : frcState (lpOf d p) = false)
    (hy : (symOf (lpOf d p).prog (rdN d (LP_FRC_SYM p))).isSome = true)
    (hf : (lpOf d p).forces.find? (fun f => f.1 == rdN d (LP_FRC_SYM p)) = some f) :
    forceRemove d p = forceDone d p 2 (rdN d (LP_FRC_SYM p)) f.2 ((lpOf d p).forces.filter (fun g => g.1 != rdN d (LP_FRC_SYM p))) := by
  have hsym : (symOf (lpOf d p).prog (rdN d (LP_FRC_SYM p))).isNone = false := by rw [← Option.not_isSome, hy]; rfl
  unfold forceRemove
  simp only [hst, hsym, hf, Bool.false_eq_true, if_false]

theorem forceClearAll_known (hst : frcState (lpOf d p) = false) : forceClearAll d p = forceDone d p 3 0 0 [] :=
  if_neg (ne_true_of_eq_false hst)

/-- Without a program each force command answers 4 and does nothing. -/
theorem force_noProgram (hst : frcState (lpOf d p) = true) :
    forceSet d p = wrN d (LP_FRC_RES p) 4 ∧ forceRemove d p = wrN d (LP_FRC_RES p) 4 ∧ forceClearAll d p = wrN d (LP_FRC_RES p) 4 :=
  ⟨if_pos hst, if_pos hst, if_pos hst⟩

end

/-- Settles O38: each command finds the table and its registers as they stood, and is then the one change of the table. -/
theorem forcesHoldSymbols : Obligations.ForcesHoldSymbols := by
  unfold Obligations.ForcesHoldSymbols
  intro s
  have hsymN : ∀ p v, rdN (issued s.dev (.lp p) 0x144 v) (LP_FRC_SYM p) = rdN s.dev (LP_FRC_SYM p) := fun p v =>
    rdN_lpCmd (by unfold LP_FRC_SYM; omega)
  have hval : ∀ p v y, forceVal (issued s.dev (.lp p) 0x144 v) p y = forceVal s.dev p y := fun p v y => by
    unfold forceVal
    rw [rd_lpCmd (by unfold LP_FRC_VAL; omega)]
  refine ⟨?set, ?remove, ?clearAll, ?noProgram⟩
  case set =>
    intro p y hp ha hst hy
    have hset := forceSet_known (d := issued s.dev (.lp p) 0x144 1) (p := p) (y := y) (by rw [lpOf_issued]; exact hst)
      (by rw [lpOf_issued, hsymN]; exact hy)
    rw [lpOf_issued, hsymN, hval] at hset
    by_cases hfull : (lpOf s.dev p).forces.any (fun f => f.1 == rdN s.dev (LP_FRC_SYM p)) = false ∧ 1024 ≤ (lpOf s.dev p).forces.length
    · rw [if_pos hfull] at hset
      refine completes_lpCmd (f := fun d => forceSet d p) rfl hp ha (by decide) hset (lpErr_wrN (by unfold LP_FRC_RES; omega)) ?_
      rw [if_pos hfull, lpOf_wrN, lpOf_issued, rd_wrN_same]
      exact ⟨rfl, rfl⟩
    · rw [if_neg hfull] at hset
      obtain ⟨hlp, -, hres, hcount, herr⟩ := forceDone_facts (issued s.dev (.lp p) 0x144 1) p 1 (rdN s.dev (LP_FRC_SYM p)) (forceVal s.dev p y)
        (forcesSet (lpOf s.dev p).forces (rdN s.dev (LP_FRC_SYM p)) (forceVal s.dev p y)) hp
      refine completes_lpCmd (f := fun d => forceSet d p) rfl hp ha (by decide) hset herr ?_
      rw [if_neg hfull, hlp, lpOf_issued]
      exact ⟨rfl, hres, hcount⟩
  case remove =>
    rintro p f hp ha ⟨hst, hy⟩ hf
    have hrem := forceRemove_found (d := issued s.dev (.lp p) 0x144 2) (p := p) (f := f) (by rw [lpOf_issued]; exact hst)
      (by rw [lpOf_issued, hsymN]; exact hy) (by rw [lpOf_issued, hsymN]; exact hf)
    rw [lpOf_issued, hsymN] at hrem
    obtain ⟨hlp, hother, hres, hcount, herr⟩ := forceDone_facts (issued s.dev (.lp p) 0x144 2) p 2 (rdN s.dev (LP_FRC_SYM p)) f.2
      ((lpOf s.dev p).forces.filter (fun g => g.1 != rdN s.dev (LP_FRC_SYM p))) hp
    refine completes_lpCmd (f := fun d => forceRemove d p) rfl hp ha (by decide) hrem herr ?_
    rw [hlp, lpOf_issued]
    exact ⟨rfl, hres, hcount, fun q hq => (hother q hq).trans (lpOf_issued _ _ _ _ _)⟩
  case clearAll =>
    intro p hp ha hst
    obtain ⟨hlp, hother, hres, hcount, herr⟩ := forceDone_facts (issued s.dev (.lp p) 0x144 3) p 3 0 0 [] hp
    refine completes_lpCmd (f := fun d => forceClearAll d p) rfl hp ha (by decide) (forceClearAll_known (by rw [lpOf_issued]; exact hst)) herr ?_
    rw [hlp, lpOf_issued]
    exact ⟨rfl, hres, hcount, fun q hq => (hother q hq).trans (lpOf_issued _ _ _ _ _)⟩
  case noProgram =>
    intro p c hp ha hst hc
    have hnone : ∀ v, frcState (lpOf (issued s.dev (.lp p) 0x144 v) p) = true := fun v => by rw [lpOf_issued]; exact hst
    have hpost : ∀ v, rd (wrN (issued s.dev (.lp p) 0x144 v) (LP_FRC_RES p) 4) (LP_FRC_RES p) = 4
        ∧ ∀ q, lpOf (wrN (issued s.dev (.lp p) 0x144 v) (LP_FRC_RES p) 4) q = lpOf s.dev q := fun v =>
      ⟨rd_wrN_same _ _ _, fun q => (lpOf_wrN _ _ _ _).trans (lpOf_issued _ _ _ _ _)⟩
    have hreg : lpBase p + 0x100 ≤ LP_FRC_RES p := by unfold LP_FRC_RES; omega
    simp only [List.mem_cons, List.not_mem_nil, or_false] at hc
    rcases hc with rfl | rfl | rfl
    · exact completes_lpCmd (f := fun d => forceSet d p) rfl hp ha (by decide) (force_noProgram (hnone 1)).1 (lpErr_wrN hreg) (hpost 1)
    · exact completes_lpCmd (f := fun d => forceRemove d p) rfl hp ha (by decide) (force_noProgram (hnone 2)).2.1 (lpErr_wrN hreg) (hpost 2)
    · exact completes_lpCmd (f := fun d => forceClearAll d p) rfl hp ha (by decide) (force_noProgram (hnone 3)).2.2 (lpErr_wrN hreg) (hpost 3)

end Sys2Proof.Machine
end


section
/-! PROOFS. Tasks of a logic processor: releases, deadlines and overruns (R215 to R219), and writes of its variable window (R213). -/

namespace Sys2Proof.Machine

/-! ### Releases and deadlines -/

theorem taskRelease_due {d : Dev} {p k : Nat} {t : LTask} (ht : taskOf (lpOf d p) k = some t) (hdue : lpDue d p t = true) :
    taskRelease d p k = setLp d p { setKeep (lpOf d p) k { keepOf (lpOf d p) k with
        count := ((keepOf (lpOf d p) k).count + 1) % 65536, first := false, changed := false, resumed := false, synced := false, pend := false } with
      insts := (lpOf d p).insts ++ [mkInst d p t] } := by
  unfold taskRelease
  simp only [ht, if_pos hdue]

/-- The signal image of a released task shows each of its inputs as committed (R215). -/
theorem mkInst_image {d : Dev} {p : Nat} {t : LTask} {i : LIn} (hi : i ∈ insOf (lpOf d p) t.k) : tget 0 (mkInst d p t).image i.n = sigVal d i.n :=
  image_take (sigVal d) _ _ (List.mem_append_left _ (List.mem_map_of_mem hi))

/-- The value that an output of a released task is committed with: under SAFE_REQ its safe value, else the last written one (R46, R215). -/
def outVal (d : Dev) (p : Nat) (u : TInst) (o : LOut) : W32 :=
  if safeReq d (.lp p) then o.safe else (tfind u.outs o.n).getD (sigVal d o.n)

/-- The outputs staged one after the other are staged with the values that they have at first. -/
theorem stageOuts (p : Nat) (u : TInst) (l : List LOut) : ∀ d : Dev,
    l.foldl (fun d o => put2 d o.n (outVal d p u o) false) d = { d with stage2 := d.stage2 ++ l.map (fun o => ⟨o.n, outVal d p u o, false⟩) } := by
  induction l with
  | nil => intro d; rw [List.map_nil, List.append_nil]; rfl
  | cons o l ih =>
    intro d
    rw [List.foldl_cons, ih, List.map_cons, List.append_cons]
    rfl

/-- A released task that has ended commits what it has written, all together (R215). -/
theorem commitInst_spec (d : Dev) (p : Nat) (u : TInst) :
    commitInst d p u = setLp { d with
        stage2 := d.stage2 ++ (outsOf (lpOf d p) u.k).map (fun o => ⟨o.n, outVal d p u o, false⟩)
        shared := u.hw.foldl (fun m e => tset 0 m e.1 e.2) d.shared } p
      { lpOf d p with slots := u.sl.foldl (fun m e => tset slot0 m e.1 e.2) (lpOf d p).slots, insts := (lpOf d p).insts.filter (fun v => v.k != u.k) } := by
  unfold commitInst
  extract_lets x y z
  have hy : y = { d with stage2 := d.stage2 ++ (outsOf (lpOf d p) u.k).map (fun o => ⟨o.n, outVal d p u o, false⟩) } := stageOuts p u _ d
  rw [show z = { y with shared := u.hw.foldl (fun m e => tset 0 m e.1 e.2) y.shared } from rfl, hy]

theorem taskDeadline_ended {d : Dev} {p k : Nat} {u : TInst} (hu : instOf (lpOf d p) k = some u)
    (h : (lpOf d p).st = .running ∧ u.dead ≤ bp d ∧ u.ended = true) : taskDeadline d p k = commitInst d p u := by
  unfold taskDeadline
  simp only [hu]
  rw [if_pos ⟨h.1, h.2.1⟩, if_pos h.2.2]

theorem taskDeadline_unfinished {d : Dev} {p k : Nat} {u : TInst} (hu : instOf (lpOf d p) k = some u)
    (h : (lpOf d p).st = .running ∧ u.dead ≤ bp d ∧ u.ended = false) : taskDeadline d p k = lpOverrun d p u := by
  unfold taskDeadline
  simp only [hu]
  rw [if_pos ⟨h.1, h.2.1⟩, if_neg (ne_true_of_eq_false h.2.2)]

/-- An overrun is a quarantine that names the task (R219). -/
theorem lpOverrun_facts {d : Dev} {p : Nat} {u : TInst} (hp : p < 4) (hk : u.k < 16) :
    lpOf (lpOverrun d p u) p = { lpOf d p with st := .quarantined, insts := [], current := none }
      ∧ rd (lpOverrun d p u) (LP_OVR_INFO p) = w32 u.k ∧ rdN (lpOverrun d p u) (lpBase p + ERR_CODE) % 65536 = 0x0603
      ∧ (lpOverrun d p u).stage2 = d.stage2 ++ (lpOf d p).prog.outs.map (fun o => ⟨o.n, o.safe, true⟩) ∧ (lpOverrun d p u).sig = d.sig
      ∧ ∀ q, q ≠ p → lpOf (lpOverrun d p u) q = lpOf d q := by
  obtain ⟨hlp, hstage, hcode, -, hsig, hother⟩ := lpQuarantine_facts d p 0x0603 0 (by decide)
  have hrec : Recorded (wrN (lpQuarantine d p 0x0603 0) (LP_OVR_INFO p) (u.k % 16)) (lpOverrun d p u) := recorded_report _ _ _ _
  refine ⟨?_, ?_, ?_, ?_, ?_, fun q hq => ?_⟩
  · rw [recorded_lpOf hrec, lpOf_wrN, hlp]
  · rw [recorded_lp hrec p _ hp (by unfold LP_OVR_INFO; omega), rd_wrN_same, Nat.mod_eq_of_lt hk]
  · unfold rdN at hcode ⊢
    rw [recorded_lp hrec p _ hp (by unfold ERR_CODE; omega), rd_wrN_ne _ _ (by unfold ERR_CODE LP_OVR_INFO; omega)]
    exact hcode
  · rw [recorded_stage2 hrec, wrN_stage2, hstage]
  · rw [recorded_sig hrec, wrN_sig, hsig]
  · rw [recorded_lpOf hrec, lpOf_wrN, hother q hq]

/-! ### The variable window -/

section
variable {d : Dev} {p off : Nat} (v : W16) (hf : (lpOf d p).forces = [])
include hf

theorem varWord_bits (h : off < 0x2000) : varWord d p off v = setLp d p { lpOf d p with m := tset 0 (lpOf d p).m (off / 2) v } := by
  unfold varWord
  simp only [if_pos h, keepForced_none _ hf]

theorem varWord_words (h : 0x10000 ≤ off ∧ off < 0x30000) :
    varWord d p off v = setLp d p { lpOf d p with w := tset 0 (lpOf d p).w ((off - 0x10000) / 2) v } := by
  unfold varWord
  simp only [if_neg (show ¬off < 0x2000 by omega), if_pos h, keepForced_none _ hf]

/-- A word of the shared area, which the processor of its quarter holds too. -/
theorem varWord_shared {q wa : Nat} (h : 0x300000 ≤ off ∧ off < 0x308000) (hwa : (off - 0x300000) / 2 = wa) (hq : wa / 4096 = q) :
    varWord d p off v = setLp { d with shared := tset 0 d.shared wa v } q { lpOf d q with h := tset 0 (lpOf d q).h wa v } := by
  subst hwa hq
  unfold varWord
  simp only [if_neg (show ¬off < 0x2000 by omega), if_neg (show ¬(0x10000 ≤ off ∧ off < 0x30000) by omega), if_pos h, keepForced_none _ hf]
  rfl

end

/-- A 32-bit write of the window is two writes of 16-bit words. -/
theorem lpVarWrite_words {d : Dev} {p off : Nat} (val : W32) (h : off % 4 = 0) :
    lpVarWrite d p off val = varWord (varWord d p off (halfOf val false)) p (off + 2) (halfOf val true) := by
  unfold lpVarWrite
  simp only [show off / 4 * 4 = off by omega]

/-- With nothing that waits and no pair a write of the window has its effect at once (R213). -/
theorem varRow_now {d : Dev} {p off : Nat} (val : W32) (h : windowsOn d = true ∧ pairEn d = false ∧ d.cfgq = []) (hr : varRange off = true) :
    varRow d p off val = lpVarWrite d p off val := by
  obtain ⟨hwin, hpair, hq⟩ := h
  unfold varRow
  rw [if_neg (by simp [hwin, hr]), if_neg (by simp [hpair, hq])]

theorem varRow_later {d : Dev} {p off : Nat} (val : W32) (hwin : windowsOn d = true) (hr : varRange off = true)
    (h : pairEn d = true ∨ d.cfgq.any (fun w => match pageAt (w.addr % 2 ^ 28) with | some (q, _) => commitPage q | none => true) = true) :
    varRow d p off val = varWrite d (varWin + p * 0x400000 + off) 15 val 0 := by
  unfold varRow
  rw [if_neg (by simp [hwin, hr])]
  exact if_pos h

/-- A write of the window that waits joins its line, or the pair's (R268). -/
theorem varWrite_queued {d : Dev} {p off : Nat} (val : W32) (ho : off < 0x400000) (hr : varRange off = true) :
    (pairEn d = false → varWrite d (varWin + p * 0x400000 + off) 15 val 0
        = { d with cfgq := d.cfgq ++ [⟨varWin + p * 0x400000 + off + 2 ^ 28 * 15, val, 0⟩] })
      ∧ (pairEn d = true → accepts d = true → d.tw.queue.length < 1024 → varWrite d (varWin + p * 0x400000 + off) 15 val 0
        = poPush d ⟨varWin + p * 0x400000 + off + 2 ^ 28 * 15, val, 0⟩) := by
  have hoff : (varWin + p * 0x400000 + off - varWin) % 0x400000 = off := by omega
  unfold varWrite
  simp only [hoff, hr, Bool.true_eq_false, if_false]
  refine ⟨fun h => if_pos h, fun h ha hl => ?_⟩
  rw [if_neg (by simp [h]), if_neg (by simp [ha]), if_neg (by omega)]

theorem varRange_iff {off : Nat} : varRange off = true ↔ off < 0x2000 ∨ (0x10000 ≤ off ∧ off < 0x30000) ∨ (0x300000 ≤ off ∧ off < 0x308000) := by
  unfold varRange
  simp [or_assoc]

/-- Settles O39: a release and a deadline by what they leave of the processor; a write of the window by its two words, or by the line that
it joins. -/
theorem tasksReleaseAndCommit : Obligations.TasksReleaseAndCommit := by
  unfold Obligations.TasksReleaseAndCommit
  intro s
  refine ⟨?release, ?deadline, ?overrun, ?memoryUe, ?varWrite, ?varWaits, ?varOutside⟩
  case release =>
    rintro p k t ⟨hp, hk⟩ ⟨ht, rfl⟩ ⟨hst, hinst⟩ hdue
    have hlpDue : lpDue s.dev p t = true := by
      unfold lpDue
      simp only [hst, hinst, hdue, Option.isNone_none, beq_self_eq_true, Bool.and_self]
    refine completes_onDev (f := fun _ d => taskRelease d p t.k) rfl (by simp [hp, hk]) ?_
    rw [taskRelease_due ht hlpDue, lpOf_setLp_same]
    refine ⟨mkInst s.dev p t, rfl, rfl, rfl, rfl, rfl, rfl, rfl, rfl, rfl, rfl, rfl, fun i hi => mkInst_image hi, rfl, ?_,
      fun q hq => lpOf_setLp_ne _ _ hq, rfl, rfl⟩
    exact (keepOf_setKeep _ _ _ _).trans (if_pos rfl)
  case deadline =>
    rintro p k u ⟨hp, hk⟩ ⟨hu, rfl⟩ hend
    refine completes_onDev (f := fun _ d => taskDeadline d p u.k) rfl (by simp [hp, hk]) ?_
    rw [taskDeadline_ended hu hend, commitInst_spec]
    exact ⟨rfl, rfl, lpOf_setLp_same _ _ _, fun q hq => lpOf_setLp_ne _ _ hq, rfl⟩
  case overrun =>
    rintro p k u ⟨hp, hk⟩ ⟨hu, rfl⟩ hover
    refine completes_onDev (f := fun _ d => taskDeadline d p u.k) rfl (by simp [hp, hk]) ?_
    rw [taskDeadline_unfinished hu hover]
    exact lpOverrun_facts hp hk
  case memoryUe =>
    intro p off hp hst
    exact completes_onDev (f := fun _ d => lpMemoryUe d p off) rfl (decide_eq_true hp) (memUe_facts s.dev p off hp hst)
  case varWrite =>
    rintro p off val ⟨hp, hoff, h4⟩ hnow hforce
    have hok : (decide (p < 4) && decide (off < 0x400000) && decide (off % 4 = 0)) = true := by simp [hp, hoff, h4]
    refine ⟨fun h => ?_, fun h => ?_, fun h => ?_⟩
    · refine exec_onDev (f := fun _ d => varRow d p off val) rfl hok ?_
      have hm : ∀ x : Tab W16, (lpOf (setLp s.dev p { lpOf s.dev p with m := x }) p).forces = [] := fun x => by
        rw [lpOf_setLp_same]; exact hforce
      rw [varRow_now val hnow (varRange_iff.mpr (.inl h)), lpVarWrite_words val h4, varWord_bits _ hforce h, varWord_bits _ (hm _) (by omega),
        lpOf_setLp_same, show (off + 2) / 2 = off / 2 + 1 by omega]
    · refine exec_onDev (f := fun _ d => varRow d p off val) rfl hok ?_
      have hw : ∀ x : Tab W16, (lpOf (setLp s.dev p { lpOf s.dev p with w := x }) p).forces = [] := fun x => by
        rw [lpOf_setLp_same]; exact hforce
      rw [varRow_now val hnow (varRange_iff.mpr (.inr (.inl h))), lpVarWrite_words val h4, varWord_words _ hforce h,
        varWord_words _ (hw _) (by omega), lpOf_setLp_same, show (off + 2 - 0x10000) / 2 = (off - 0x10000) / 2 + 1 by omega]
    · refine completes_onDev (f := fun _ d => varRow d p off val) rfl hok ?_
      rw [varRow_now val hnow (varRange_iff.mpr (.inr (.inr h))), lpVarWrite_words val h4, varWord_shared _ hforce h rfl rfl]
      generalize hq : (off - 0x300000) / 2 / 4096 = q
      have hh : (lpOf (setLp { s.dev with shared := tset 0 s.dev.shared ((off - 0x300000) / 2) (halfOf val false) } q
          { lpOf s.dev q with h := tset 0 (lpOf s.dev q).h ((off - 0x300000) / 2) (halfOf val false) }) p).forces = [] := by
        rw [lpOf_setLp]
        split
        · next hpq => rw [← hpq]; exact hforce
        · exact hforce
      rw [varWord_shared (wa := (off - 0x300000) / 2 + 1) (q := q) _ hh (by omega) (by omega) (by omega)]
      refine ⟨rfl, ?_, rfl, rfl⟩
      rw [lpOf_setLp_same, lpOf_setLp_same]
  case varWaits =>
    rintro p off val ⟨hp, hoff, h4⟩ hwin
    have hok : (decide (p < 4) && decide (off < 0x400000) && decide (off % 4 = 0)) = true := by simp [hp, h4]; omega
    have hr : varRange off = true := varRange_iff.mpr (.inl hoff)
    obtain ⟨hline, hpair⟩ := varWrite_queued (d := s.dev) (p := p) val (show off < 0x400000 by omega) hr
    refine ⟨fun hen hacc => ?_, fun q o w hen ⟨hw, hpage, hq⟩ => ?_⟩
    · refine exec_onDev (f := fun _ d => varRow d p off val) rfl hok ?_
      rw [varRow_later val hwin hr (.inl hen), hpair hen hacc.1 hacc.2]
      rfl
    · refine exec_onDev (f := fun _ d => varRow d p off val) rfl hok ?_
      have hany : s.dev.cfgq.any (fun w => match pageAt (w.addr % 2 ^ 28) with | some (q, _) => commitPage q | none => true) = true :=
        List.any_eq_true.mpr ⟨w, hw, by rw [hpage]; exact hq⟩
      rw [varRow_later val hwin hr (.inr hany), hline hen]
  case varOutside =>
    rintro p off val ⟨hp, hoff, h4⟩ ⟨-, hr⟩ hpow
    refine exec_onDev (f := fun _ d => varRow d p off val) rfl (by simp [hp, hoff, h4]) ?_
    unfold varRow
    rw [if_pos (.inr hr), if_pos hpow]

end Sys2Proof.Machine
end


section
/-! PROOFS. Programs of a logic processor: LOAD and STAGE, the ends of their verification, UNLOAD and UNSTAGE (R211, R230, R231). -/

namespace Sys2Proof.Machine

/-- An admitted command of a processor's page that makes no error answers its effect on the device as issued. -/
theorem exec_lpCmd {c : Instr} {s : State} {p off : Nat} {v : W32} {f : Dev → Dev} {e : Dev}
    (he : exec c s = onDev (decide (p < 4)) (fun _ d => hostCmd d (.lp p) off v f) s) (hp : p < 4) (ha : admits s.dev (.lp p) off = true)
    (ho : off ≠ ERR_CODE) (hf : f (issued s.dev (.lp p) off v) = e)
    (herr : rd e (pageBase (.lp p) + ERR_CODE) = rd (issued s.dev (.lp p) off v) (pageBase (.lp p) + ERR_CODE)) :
    exec c s = .next { s with dev := e } :=
  exec_host (f := fun _ d => f d) he (decide_eq_true hp) ha ho (by rw [hf]; exact herr) hf

/-! ### LOAD and STAGE (R230, R231) -/

/-- The container that LP_LOAD_ADDR and LP_LOAD_LEN give is the one they gave before the command was written. -/
theorem lpLoad_issued {d : Dev} {p : Nat} (v : W32) (hst : (lpOf d p).st = .empty) :
    lpLoad (issued d (.lp p) 0x100 v) p = setLp (issued d (.lp p) 0x100 v) p { lpOf d p with
      st := .loading
      copy := loadCopy (issued d (.lp p) 0x100 v) (rdN d (LP_LOAD_ADDR p)) (rdN d (LP_LOAD_LEN p))
      copyLen := loadLen (issued d (.lp p) 0x100 v) (rdN d (LP_LOAD_ADDR p)) (rdN d (LP_LOAD_LEN p)) } := by
  unfold lpLoad lpLoadFrom
  rw [lpOf_issued, rdN_lpCmd (by unfold LP_LOAD_ADDR; omega), rdN_lpCmd (by unfold LP_LOAD_LEN; omega)]
  exact if_pos hst

theorem lpStage_issued {d : Dev} {p : Nat} (v : W32) (hst : ((lpOf d p).st = .loaded ∨ (lpOf d p).st = .running) ∧ (lpOf d p).stage = .none) :
    lpStage (issued d (.lp p) 0x100 v) p = setLp (issued d (.lp p) 0x100 v) p { lpOf d p with
      stage := .verifying
      copy := loadCopy (issued d (.lp p) 0x100 v) (rdN d (LP_LOAD_ADDR p)) (rdN d (LP_LOAD_LEN p))
      copyLen := loadLen (issued d (.lp p) 0x100 v) (rdN d (LP_LOAD_ADDR p)) (rdN d (LP_LOAD_LEN p)) } := by
  unfold lpStage
  rw [lpOf_issued, rdN_lpCmd (by unfold LP_LOAD_LEN; omega), rdN_lpCmd (by unfold LP_LOAD_ADDR; omega)]
  exact if_pos hst

/-! ### The end of a verification (R294, Table 8-11) -/

/-- From d to e a LOAD or STAGE of processor p has failed with a code, and left the processor as x. -/
def LpRefused (p c : Nat) (x : Lp) (d e : Dev) : Prop :=
  lpOf e p = x ∧ rd e (LP_LOAD_RES p) = w32 c ∧ rdN e (lpBase p + ERR_CODE) % 65536 = 0x0606 ∧ e.attr = d.attr ∧ e.sig = d.sig

/-- What a failed LOAD leaves: no claim has moved (R20). -/
theorem LpRefused.load {p c : Nat} {x : Lp} {d e : Dev} (h : LpRefused p c x d e) :
    lpOf e p = x ∧ rd e (LP_LOAD_RES p) = w32 c ∧ rdN e (lpBase p + ERR_CODE) % 65536 = 0x0606 ∧ e.attr = d.attr := by
  obtain ⟨hlp, hres, hcode, hattr, -⟩ := h
  exact ⟨hlp, hres, hcode, hattr⟩

/-- What a failed STAGE leaves: no entry has moved. -/
theorem LpRefused.stage {p c : Nat} {x : Lp} {d e : Dev} (h : LpRefused p c x d e) :
    lpOf e p = x ∧ rd e (LP_LOAD_RES p) = w32 c ∧ rdN e (lpBase p + ERR_CODE) % 65536 = 0x0606 ∧ e.sig = d.sig := by
  obtain ⟨hlp, hres, hcode, -, hsig⟩ := h
  exact ⟨hlp, hres, hcode, hsig⟩

theorem lpLoadFail_refused (d : Dev) (p c : Nat) (x : Lp) : LpRefused p c x d (lpLoadFail (setLp d p x) p c) := by
  obtain ⟨hlp, hres, hcode, hkept⟩ := loadFail_facts (setLp d p x) p
  exact ⟨(hlp c).trans (lpOf_setLp_same _ _ _), hres c, hcode c, hkept c⟩

/-- The directory entry of a kept image is no part of the processor, its registers or the signal table. -/
theorem lpRefused_keepImage {p c : Nat} {x : Lp} {d e : Dev} (h : LpRefused p c x d e) (q : Page) (b t : Nat) (bs : List W8) (n : Nat) (ok : Bool) :
    LpRefused p c x d (keepImage q b t bs n ok e) := by
  obtain ⟨hlp, hres, hcode, hattr, hsig⟩ := h
  obtain ⟨kattr, ksig⟩ := keepImage_attr q b t bs n ok e
  refine ⟨?_, ?_, ?_, kattr.trans hattr, ksig.trans hsig⟩
  · rw [keepImage_lp, hlp]
  · rw [keepImage_rd, hres]
  · unfold rdN at hcode ⊢
    rw [keepImage_rd, hcode]

section
variable {d : Dev} {p : Nat}

theorem lpVerify_error {c : Nat} (hst : (lpOf d p).st = .loading) (hc : lpCheck d p = .error c) :
    lpVerify d p = lpLoadFail (setLp d p { lpOf d p with st := .empty, copy := [], copyLen := 0 }) p c := by
  unfold lpVerify
  simp only [if_pos hst, hc]

theorem lpVerify_ok {pr : LProg} (hst : (lpOf d p).st = .loading) (hc : lpCheck d p = .ok pr) :
    lpVerify d p = if pr.outs.any (fun o => sigTaken d o.n clsLp p)
      then lpLoadFail (setLp d p { lpOf d p with st := .empty, copy := [], copyLen := 0 }) p 0x0B else lpLoadOk d p pr := by
  unfold lpVerify
  simp only [if_pos hst, hc]

theorem lpStageDone_error {c : Nat} (hst : (lpOf d p).stage = .verifying) (hc : lpCheck d p = .error c) :
    lpStageDone d p = lpLoadFail (setLp d p { lpOf d p with stage := .none, copy := [], copyLen := 0 }) p c := by
  unfold lpStageDone
  simp only [if_pos hst, hc]

theorem lpStageDone_ok {pr : LProg} (hst : (lpOf d p).stage = .verifying) (hc : lpCheck d p = .ok pr) :
    lpStageDone d p = if kindClash (lpOf d p).prog pr then lpLoadFail (setLp d p { lpOf d p with stage := .none, copy := [], copyLen := 0 }) p 0x0A
      else if 1000000 < progLcm (lpOf d p).prog then lpLoadFail (setLp d p { lpOf d p with stage := .none, copy := [], copyLen := 0 }) p 0x0C
      else wrN (wrN (setLp d p { lpOf d p with stage := .staged, next := pr, copy := [], copyLen := 0 }) (LP_LOAD_RES p) 0) (LP_STAGE_ID p) pr.id := by
  unfold lpStageDone
  simp only [if_pos hst, hc]

/-- A refused LOAD, with the directory as it was or not. -/
theorem lpVerified_refused {c : Nat} (h : lpVerify d p = lpLoadFail (setLp d p { lpOf d p with st := .empty, copy := [], copyLen := 0 }) p c) :
    LpRefused p c { lpOf d p with st := .empty, copy := [], copyLen := 0 } d (lpVerified d p) :=
  lpRefused_keepImage (by rw [h]; exact lpLoadFail_refused _ _ _ _) _ _ _ _ _ _

theorem lpStaged_refused {c : Nat} (h : lpStageDone d p = lpLoadFail (setLp d p { lpOf d p with stage := .none, copy := [], copyLen := 0 }) p c) :
    LpRefused p c { lpOf d p with stage := .none, copy := [], copyLen := 0 } d (lpStaged d p) :=
  lpRefused_keepImage (by rw [h]; exact lpLoadFail_refused _ _ _ _) _ _ _ _ _ _

/-- A verified LOAD: the program is the processor's, with new slots. -/
theorem lpVerified_loaded {pr : LProg} (h : lpVerify d p = lpLoadOk d p pr) :
    (lpOf (lpVerified d p) p).st = .loaded ∧ (lpOf (lpVerified d p) p).prog = pr ∧ (lpOf (lpVerified d p) p).slots = buildSlots pr newSlot
      ∧ (lpOf (lpVerified d p) p).insts = [] ∧ rd (lpVerified d p) (LP_LOAD_RES p) = 0 ∧ rd (lpVerified d p) (LP_PROG_ID p) = w32 pr.id := by
  obtain ⟨hkeep, hres, hid⟩ := loadOk_facts d p pr
  unfold lpVerified
  simp only [keepImage_lp, keepImage_rd, h]
  exact ⟨hkeep (·.st) (fun _ _ _ _ => rfl), hkeep (·.prog) (fun _ _ _ _ => rfl), hkeep (·.slots) (fun _ _ _ _ => rfl),
    hkeep (·.insts) (fun _ _ _ _ => rfl), hres, hid⟩

/-- A verified STAGE: the program waits in the inactive bank. -/
theorem lpStaged_staged {pr : LProg} (h : lpStageDone d p = wrN (wrN (setLp d p { lpOf d p with stage := .staged, next := pr, copy := [], copyLen := 0 })
      (LP_LOAD_RES p) 0) (LP_STAGE_ID p) pr.id) :
    lpOf (lpStaged d p) p = { lpOf d p with stage := .staged, next := pr, copy := [], copyLen := 0 } ∧ rd (lpStaged d p) (LP_LOAD_RES p) = 0
      ∧ rd (lpStaged d p) (LP_STAGE_ID p) = w32 pr.id ∧ (lpStaged d p).sig = d.sig := by
  unfold lpStaged
  simp only [keepImage_lp, keepImage_rd, keepImage_attr, h]
  refine ⟨?_, ?_, rd_wrN_same _ _ _, by rw [wrN_sig, wrN_sig, setLp_sig]⟩
  · rw [lpOf_wrN, lpOf_wrN, lpOf_setLp_same]
  · rw [rd_wrN_ne _ _ (by unfold LP_LOAD_RES LP_STAGE_ID; omega), rd_wrN_same]
    rfl

end

/-! ### UNLOAD (R230, R464) -/

section
variable {d : Dev} {p : Nat} (hst : (lpOf d p).st = .loaded)
include hst

theorem lpUnload_loaded : lpUnload d p = wrN (wrN (wrN (setLp (releaseAll d (ownedBy d clsLp p)) p
    { lp0 with bank := (lpOf d p).bank, m := (lpOf d p).m, w := (lpOf d p).w, h := (lpOf d p).h, offMs := (lpOf d p).offMs, at_ := (lpOf d p).at_,
               cmds := (lpOf d p).cmds }) (LP_PROG_ID p) 0) (LP_STAGE_ID p) 0) (LP_FRC_COUNT p) 0 := if_pos hst

theorem lpUnload_lp : lpOf (lpUnload d p) p =
    { lp0 with bank := (lpOf d p).bank, m := (lpOf d p).m, w := (lpOf d p).w, h := (lpOf d p).h, offMs := (lpOf d p).offMs, at_ := (lpOf d p).at_,
               cmds := (lpOf d p).cmds } := by
  rw [lpUnload_loaded hst, lpOf_wrN, lpOf_wrN, lpOf_wrN, lpOf_setLp_same]

/-- UNLOAD shows no program and no forces, and makes no error. -/
theorem lpUnload_regs : rd (lpUnload d p) (LP_PROG_ID p) = 0 ∧ rd (lpUnload d p) (LP_FRC_COUNT p) = 0
    ∧ rd (lpUnload d p) (pageBase (.lp p) + ERR_CODE) = rd d (pageBase (.lp p) + ERR_CODE) := by
  rw [lpUnload_loaded hst]
  refine ⟨?_, rd_wrN_same _ _ _, ?_⟩
  · rw [rd_wrN_ne _ _ (by unfold LP_PROG_ID LP_FRC_COUNT; omega), rd_wrN_ne _ _ (by unfold LP_PROG_ID LP_STAGE_ID; omega), rd_wrN_same]
    rfl
  · rw [lpErr_wrN (by unfold LP_FRC_COUNT; omega), lpErr_wrN (by unfold LP_STAGE_ID; omega), lpErr_wrN (by unfold LP_PROG_ID; omega), rd_setLp,
      rd_releaseAll]

/-- UNLOAD releases the processor's entries, and those alone (R464). -/
theorem lpUnload_entries : (∀ n ∈ ownedBy d clsLp p, attrOf (lpUnload d p) n = 0)
    ∧ ∀ n, n ∉ ownedBy d clsLp p → attrOf (lpUnload d p) n = attrOf d n ∧ sigVal (lpUnload d p) n = sigVal d n := by
  have hattr : ∀ n, attrOf (lpUnload d p) n = attrOf (releaseAll d (ownedBy d clsLp p)) n := fun n => by
    unfold attrOf
    rw [lpUnload_loaded hst, wrN_attr, wrN_attr, wrN_attr, setLp_attr]
  have hsig : ∀ n, sigVal (lpUnload d p) n = sigVal (releaseAll d (ownedBy d clsLp p)) n := fun n => by
    unfold sigVal
    rw [lpUnload_loaded hst, wrN_sig, wrN_sig, wrN_sig, setLp_sig]
  refine ⟨fun n hn => ?_, fun n hn => ⟨?_, ?_⟩⟩
  · rw [hattr, attrOf_releaseAll, if_pos hn]
  · rw [hattr, attrOf_releaseAll, if_neg hn]
  · rw [hsig, sigVal_releaseAll _ _ _ hn]

end

theorem ownedBy_issued (d : Dev) (q : Page) (off : Nat) (v : W32) (cls inst : Nat) : ownedBy (issued d q off v) cls inst = ownedBy d cls inst := by
  unfold ownedBy
  rw [issued_attr]

end Sys2Proof.Machine
end


section
/-! PROOFS. The on-line change of a logic processor's program: CHANGE, CANCEL, triggers and the change point (R216, R231 to R234), and the
statement on programs. -/

namespace Sys2Proof.Machine

/-! ### CHANGE and CANCEL (R231, R232) -/

/-- The processor with a change pending, before its point is set. -/
def changing (x : Lp) (drop : Bool) : Lp := { x with stage := .pending, chgDrop := drop, deferrals := 0 }

/-- LP_CHG_BP names no change point: a running processor was given a BP that its tasks do not share, or one too soon (R232). -/
def chgBad (d : Dev) (p : Nat) : Prop :=
  (lpOf d p).st = .running ∧ rd64 d (LP_CHG_BP p) ≠ 0
    ∧ ¬(rd64 d (LP_CHG_BP p) % progLcm (lpOf d p).prog = 0 ∧ bp d + 2 ≤ rd64 d (LP_CHG_BP p))

/-- The change point that CHANGE sets (R232). -/
def chgSet (d : Dev) (p : Nat) : Nat :=
  if (lpOf d p).st = .loaded then bp d + 1
  else if rd64 d (LP_CHG_BP p) = 0 then chgPoint (lpOf d p) (bp d + 2) else rd64 d (LP_CHG_BP p)

section
variable {d : Dev} {p : Nat} (h : (lpOf d p).stage = .staged ∧ ((lpOf d p).st = .loaded ∨ (lpOf d p).st = .running))
include h

theorem lpChange_bad (hbad : chgBad d p) : lpChange d p = changeFail (setLp d p (changing (lpOf d p) (rdBit d (LP_CMD p) 8))) p 1
    (rd64 d (LP_CHG_BP p)) false (fates (changing (lpOf d p) (rdBit d (LP_CMD p) 8)) false) := by
  obtain ⟨hrun, hreq, hpt⟩ := hbad
  have hreg : ∀ x a, rd64 (setLp d p x) a = rd64 d a := fun x a => by unfold rd64; rw [rd_setLp, rd_setLp]
  have hbp : ∀ x, bp (setLp d p x) = bp d := fun x => hreg x _
  have hload : (lpOf d p).st ≠ .loaded := by rw [hrun]; decide
  unfold lpChange
  simp only [if_pos h, if_neg hload, hreg, hbp, if_neg hreq, if_neg hpt, lpOf_setLp_same]
  rfl

/-- A change refused for its point: the bank stays STAGED, and the result says so (Table 8-12). -/
theorem lpChange_bad_facts (hp : p < 4) (hbad : chgBad d p) :
    lpOf (lpChange d p) p = { lpOf d p with chgDrop := rdBit d (LP_CMD p) 8, deferrals := 0 } ∧ rd (lpChange d p) (LP_CHG_RES p) = 1
      ∧ rd (lpChange d p) (LP_CHG_CNT p) = rd d (LP_CHG_CNT p) + 1
      ∧ rd (lpChange d p) (pageBase (.lp p) + ERR_CODE) = rd d (pageBase (.lp p) + ERR_CODE) := by
  obtain ⟨hlp, -, hres, hcount, herr, -, -⟩ := changeFail_facts (setLp d p (changing (lpOf d p) (rdBit d (LP_CMD p) 8))) p 1
    (rd64 d (LP_CHG_BP p)) false (fates (changing (lpOf d p) (rdBit d (LP_CMD p) 8)) false) hp
  rw [← lpChange_bad h hbad] at hlp hres hcount herr
  rw [lpOf_setLp_same] at hlp hres
  rw [rd_setLp] at hcount herr
  refine ⟨hlp.trans ?_, hres, hcount, herr⟩
  unfold changing
  rw [← h.1]

theorem lpChange_good (hgood : ¬chgBad d p) : lpChange d p = setLp (setLp d p (changing (lpOf d p) (rdBit d (LP_CMD p) 8))) p
    { changing (lpOf d p) (rdBit d (LP_CMD p) 8) with chgAt := chgSet d p } := by
  have hreg : ∀ x a, rd64 (setLp d p x) a = rd64 d a := fun x a => by unfold rd64; rw [rd_setLp, rd_setLp]
  have hbp : ∀ x, bp (setLp d p x) = bp d := fun x => hreg x _
  unfold lpChange
  simp only [if_pos h, hreg, hbp, lpOf_setLp_same]
  unfold chgSet
  rcases h.2 with hload | hrun
  · rw [if_pos hload, if_pos hload]
    rfl
  · have hload : (lpOf d p).st ≠ .loaded := by rw [hrun]; decide
    rw [if_neg hload, if_neg hload]
    by_cases hreq : rd64 d (LP_CHG_BP p) = 0
    · rw [if_pos hreq, if_pos hreq]
      rfl
    · rw [if_neg hreq, if_neg hreq, if_pos (by_contra fun hpt => hgood ⟨hrun, hreq, hpt⟩)]
      rfl

end

section
variable {d : Dev} {p : Nat} (v : W32) (hp : p < 4)
include hp

theorem rd64_chgBp_issued : rd64 (issued d (.lp p) 0x100 v) (LP_CHG_BP p) = rd64 d (LP_CHG_BP p) :=
  rd64_lp_issued d p 0x100 0x120 v (by decide) (by decide) (by decide) hp

theorem chgBad_issued : chgBad (issued d (.lp p) 0x100 v) p ↔ chgBad d p := by
  unfold chgBad
  rw [lpOf_issued, rd64_chgBp_issued v hp, bp_lp_issued]

theorem chgSet_issued : chgSet (issued d (.lp p) 0x100 v) p = chgSet d p := by
  unfold chgSet
  rw [lpOf_issued, rd64_chgBp_issued v hp, bp_lp_issued]

end

/-- DROP_FORCES is bit 8 of the command that was written (Table 8-9). -/
theorem dropForces_issued (d : Dev) (p : Nat) (drop : Bool) : rdBit (issued d (.lp p) 0x100 (w32 (5 + 256 * b2n drop))) (LP_CMD p) 8 = drop := by
  have hbits : wpBits (.lp p) 0x100 = wpBits (.lp 0) 0x100 := rfl
  have hbit : ∀ b : Bool, bit (w32 (5 + 256 * b2n b) &&& wpBits (.lp 0) 0x100) 8 = b := by decide +kernel
  have hrd : rd (issued d (.lp p) 0x100 (w32 (5 + 256 * b2n drop))) (LP_CMD p) = w32 (5 + 256 * b2n drop) &&& wpBits (.lp p) 0x100 :=
    rd_issued_same d (.lp p) 0x100 _
  unfold rdBit
  rw [hrd, hbits, hbit]

/-! ### Triggers (R216) -/

/-- The event tasks that LP_EVT_TRIG names. -/
def trigNamed (d : Dev) (p : Nat) : List Nat := (List.range 8).filter (fun e => rdBit d (LP_EVT_TRIG p) e)

theorem mem_trigNamed {d : Dev} {p e : Nat} (he : e < 8) : decide (e ∈ trigNamed d p) = rdBit d (LP_EVT_TRIG p) e := by
  unfold trigNamed
  simp [he]

theorem lpTrig_issued {d : Dev} {p : Nat} (v : W32) (h : (trigNamed d p).all (triggerKnown d p) = true) :
    lpTrig (issued d (.lp p) 0x100 v) p = (trigNamed d p).foldl (fun d e => trigger d p e) (issued d (.lp p) 0x100 v) := by
  have hnamed : trigNamed (issued d (.lp p) 0x100 v) p = trigNamed d p := by
    unfold trigNamed rdBit
    rw [rd_lpCmd (by unfold LP_EVT_TRIG; omega)]
  have hknown : triggerKnown (issued d (.lp p) 0x100 v) p = triggerKnown d p := by
    funext e
    unfold triggerKnown
    rw [lpOf_issued]
  rw [← hnamed, ← hknown] at h
  rw [← hnamed]
  exact if_pos h

/-! ### The change point (R232, R233) -/

section
variable {d : Dev} {p : Nat}
  (h : (lpOf d p).stage = .pending ∧ ((lpOf d p).st = .loaded ∨ (lpOf d p).st = .running) ∧ (lpOf d p).chgAt ≤ bp d)
include h

/-- A change that finds a task released is deferred, and after sixteen deferrals given up. -/
theorem changePoint_busy (hi : (lpOf d p).insts ≠ []) : changePoint d p = if 16 ≤ (lpOf d p).deferrals
    then changeFail d p 4 (lpOf d p).chgAt true (fates (lpOf d p) false)
    else setLp (wrN d (LP_CHG_RES p) (256 * ((lpOf d p).deferrals + 1))) p
      { lpOf d p with chgAt := (lpOf d p).chgAt + progLcm (lpOf d p).prog, deferrals := (lpOf d p).deferrals + 1 } :=
  (if_pos h).trans (if_pos (List.isEmpty_eq_false_iff.mpr hi))

theorem changePoint_free (hi : (lpOf d p).insts = []) : changePoint d p =
    if (lpOf d p).forces.any (dropped (lpOf d p)) = true ∧ (lpOf d p).chgDrop = false
    then changeFail d p 2 (lpOf d p).chgAt true (fates (lpOf d p) false)
    else if (lpOf d p).next.outs.any (fun o => sigTaken d o.n clsLp p)
    then changeFail (dropForces d p) p 3 (lpOf d p).chgAt true (fates (lpOf d p) true) else lpSwap d p (lpOf d p).chgAt :=
  (if_pos h).trans (if_neg (by rw [hi]; simp))

end

/-- Settles O37: LOAD, STAGE and their verification by the outcome of the check; the other commands and the change point by the one case that
the processor's state leaves. -/
theorem processorsLoadAndChangeTheirPrograms : Obligations.ProcessorsLoadAndChangeTheirPrograms := by
  unfold Obligations.ProcessorsLoadAndChangeTheirPrograms
  intro s
  have hcnt : ∀ p v, rd (issued s.dev (.lp p) 0x100 v) (LP_CHG_CNT p) = rd s.dev (LP_CHG_CNT p) := fun p v =>
    rd_lpCmd (by unfold LP_CHG_CNT; omega)
  refine ⟨?load, ?stage, ?loadVerified, ?stageVerified, ?unload, ?unstage, ?change, ?cancel, ?trigger, ?changeDeferred, ?changeRefused, ?changed⟩
  case load =>
    intro p hp ha hst
    exact exec_lpCmd (f := fun d => lpLoad d p) rfl hp ha (by decide) (lpLoad_issued 1 hst) (rd_setLp _ _ _ _)
  case stage =>
    intro p hp ha hst
    exact exec_lpCmd (f := fun d => lpStage d p) rfl hp ha (by decide) (lpStage_issued 3 hst) (rd_setLp _ _ _ _)
  case loadVerified =>
    intro p hp hst
    refine completes_onDev (f := fun _ d => lpVerified d p) rfl (decide_eq_true hp) ?_
    cases hc : lpCheck s.dev p with
    | error c => exact (lpVerified_refused (lpVerify_error hst hc)).load
    | ok pr =>
      have hok := lpVerify_ok hst hc
      by_cases htaken : pr.outs.any (fun o => sigTaken s.dev o.n clsLp p) = true
      · exact (if_pos htaken).mpr (lpVerified_refused (hok.trans (if_pos htaken))).load
      · exact (if_neg htaken).mpr (lpVerified_loaded (hok.trans (if_neg htaken)))
  case stageVerified =>
    intro p hp hst
    refine completes_onDev (f := fun _ d => lpStaged d p) rfl (decide_eq_true hp) ?_
    cases hc : lpCheck s.dev p with
    | error c => exact (lpStaged_refused (lpStageDone_error hst hc)).stage
    | ok pr =>
      have hok := lpStageDone_ok hst hc
      by_cases hclash : kindClash (lpOf s.dev p).prog pr = true
      · exact (if_pos hclash).mpr (lpStaged_refused (hok.trans (if_pos hclash))).stage
      · have hfit := hok.trans (if_neg hclash)
        by_cases hlcm : 1000000 < progLcm (lpOf s.dev p).prog
        · exact (if_neg hclash).mpr ((if_pos hlcm).mpr (lpStaged_refused (hfit.trans (if_pos hlcm))).stage)
        · exact (if_neg hclash).mpr ((if_neg hlcm).mpr (lpStaged_staged (hfit.trans (if_neg hlcm))))
  case unload =>
    intro p hp ha hst
    have hst' : (lpOf (issued s.dev (.lp p) 0x100 2) p).st = .loaded := by rw [lpOf_issued]; exact hst
    obtain ⟨hid, hcount, herr⟩ := lpUnload_regs hst'
    have hlp := lpUnload_lp hst'
    have hent := lpUnload_entries hst'
    rw [lpOf_issued] at hlp
    rw [ownedBy_issued] at hent
    exact completes_lpCmd (f := fun d => lpUnload d p) rfl hp ha (by decide) rfl herr ⟨hlp, hid, hcount, hent⟩
  case unstage =>
    intro p hp ha hst
    have hun : lpUnstage (issued s.dev (.lp p) 0x100 4) p
        = wrN (setLp (issued s.dev (.lp p) 0x100 4) p { lpOf s.dev p with stage := .none, next := noProg }) (LP_STAGE_ID p) 0 := by
      unfold lpUnstage
      rw [lpOf_issued]
      exact if_pos hst
    exact exec_lpCmd (f := fun d => lpUnstage d p) rfl hp ha (by decide) hun
      ((lpErr_wrN (by unfold LP_STAGE_ID; omega)).trans (rd_setLp _ _ _ _))
  case change =>
    intro p drop hp ha hst
    have hst' := hst
    rw [← lpOf_issued s.dev (.lp p) 0x100 (w32 (5 + 256 * b2n drop)) p] at hst'
    by_cases hbad : chgBad s.dev p
    · obtain ⟨hlp, hres, hcount, herr⟩ := lpChange_bad_facts hst' hp ((chgBad_issued _ hp).mpr hbad)
      rw [lpOf_issued, dropForces_issued] at hlp
      rw [hcnt] at hcount
      exact completes_lpCmd (f := fun d => lpChange d p) rfl hp ha (by decide) rfl herr ((if_pos hbad).mpr ⟨hlp, hres, hcount⟩)
    · have hch := lpChange_good hst' (fun h => hbad ((chgBad_issued _ hp).mp h))
      rw [lpOf_issued, dropForces_issued, chgSet_issued _ hp] at hch
      refine completes_lpCmd (f := fun d => lpChange d p) rfl hp ha (by decide) hch (by rw [rd_setLp, rd_setLp])
        ((if_neg hbad).mpr ⟨lpOf_setLp_same _ _ _, ?_⟩)
      rw [rd_setLp, rd_setLp, hcnt]
  case cancel =>
    intro p hp ha hst
    have hcan : lpCancel (issued s.dev (.lp p) 0x100 6) p
        = changeFail (issued s.dev (.lp p) 0x100 6) p 5 (lpOf s.dev p).chgAt false (fates (lpOf s.dev p) false) := by
      unfold lpCancel
      rw [lpOf_issued]
      exact if_pos hst
    obtain ⟨hlp, hother, hres, hcount, herr, hsig, hstage⟩ :=
      changeFail_facts (issued s.dev (.lp p) 0x100 6) p 5 (lpOf s.dev p).chgAt false (fates (lpOf s.dev p) false) hp
    rw [lpOf_issued] at hlp hres
    exact completes_lpCmd (f := fun d => lpCancel d p) rfl hp ha (by decide) hcan herr
      ⟨hlp, hres, hcount.trans (by rw [hcnt]), fun q hq => (hother q hq).trans (lpOf_issued _ _ _ _ _),
        hsig.trans (issued_sig _ _ _ _), hstage.trans (issued_stage2 _ _ _ _)⟩
  case trigger =>
    intro p hp ha hall
    obtain ⟨hpend, hlp, hreg⟩ := triggers_pend p (trigNamed s.dev p) (issued s.dev (.lp p) 0x100 7)
    have herr : pageBase (.lp p) + ERR_CODE ≠ LP_MERGE_CNT p := by show lpBase p + ERR_CODE ≠ _; unfold ERR_CODE LP_MERGE_CNT; omega
    refine completes_lpCmd (f := fun d => lpTrig d p) rfl hp ha (by decide) (lpTrig_issued 7 hall) (hreg _ herr) ⟨fun e he => ?_, ?_⟩
    · rw [hpend e, mem_trigNamed he, lpOf_issued]
    · rw [lpOf_issued] at hlp
      exact hlp
  case changeDeferred =>
    intro p hp hpend hi
    refine completes_onDev (f := fun _ d => changePoint d p) rfl (decide_eq_true hp) ?_
    rw [changePoint_busy hpend hi]
    by_cases h16 : 16 ≤ (lpOf s.dev p).deferrals
    · obtain ⟨hlp, -, hres, -⟩ := changeFail_facts s.dev p 4 (lpOf s.dev p).chgAt true (fates (lpOf s.dev p) false) hp
      rw [if_pos h16, if_pos h16]
      exact ⟨hlp, hres⟩
    · rw [if_neg h16, if_neg h16, lpOf_setLp_same, rd_setLp, rd_wrN_same]
      exact ⟨rfl, rfl⟩
  case changeRefused =>
    rintro p hp hpend ⟨hi, hwhy⟩
    refine completes_onDev (f := fun _ d => changePoint d p) rfl (decide_eq_true hp) ?_
    rw [changePoint_free hpend hi]
    by_cases hforce : (lpOf s.dev p).forces.any (dropped (lpOf s.dev p)) = true ∧ (lpOf s.dev p).chgDrop = false
    · obtain ⟨hlp, -, hres, -, -, hsig, -⟩ := changeFail_facts s.dev p 2 (lpOf s.dev p).chgAt true (fates (lpOf s.dev p) false) hp
      simp only [if_pos hforce]
      exact ⟨hlp, hres, hsig⟩
    · obtain ⟨hlp, -, hres, -, -, hsig, -⟩ := changeFail_facts (dropForces s.dev p) p 3 (lpOf s.dev p).chgAt true (fates (lpOf s.dev p) true) hp
      have hdrop : lpOf (dropForces s.dev p) p = { lpOf s.dev p with forces := (lpOf s.dev p).forces.filter (fun f => !dropped (lpOf s.dev p) f) } :=
        (lpOf_wrN _ _ _ _).trans (lpOf_setLp_same _ _ _)
      rw [hdrop] at hlp hres
      simp only [if_neg hforce, if_pos (hwhy.resolve_left hforce)]
      exact ⟨hlp, hres, hsig⟩
  case changed =>
    rintro p hp hpend ⟨hi, hdrop⟩ hfree
    have hforce : ¬((lpOf s.dev p).forces.any (dropped (lpOf s.dev p)) = true ∧ (lpOf s.dev p).chgDrop = false) := fun ⟨h1, h2⟩ =>
      hdrop.elim (fun h => ne_true_of_eq_false h h1) (fun h => ne_true_of_eq_false h2 h)
    refine completes_onDev (f := fun _ d => changePoint d p) rfl (decide_eq_true hp) ?_
    rw [changePoint_free hpend hi, if_neg hforce, if_neg (ne_true_of_eq_false hfree)]
    obtain ⟨hprog, hbank, hstage, -, hst, hforces, hslots, hid, hsid, hcount, hres⟩ := lpSwap_facts s.dev p (lpOf s.dev p).chgAt hp
    exact ⟨hprog, hbank, hstage, hst, hforces, hslots, hid, hsid, hcount, hres⟩

end Sys2Proof.Machine
end

section
/-! PROOFS. What a frame of the partner finds when it arrives (R262), and what keeping it, comparing digests and measuring an offset do with it
(R265, R266, R270, R366). -/

namespace Sys2Proof.Machine

/-! ### Arrival (R262) -/

/-- Noting a frame's counter reaches the counters of the lanes and nothing else. -/
theorem noted_counters (d : Dev) (h : TwHead) : ∃ c0 c1, noted d h = setTw d { d.tw with ctr0 := c0, ctr1 := c1 } := by
  by_cases hl : h.lane = 0
  · exact ⟨some h.ctr, d.tw.ctr1, by unfold noted; rw [if_pos hl]⟩
  · exact ⟨d.tw.ctr0, some h.ctr, by unfold noted; rw [if_neg hl]⟩

/-- What no counter of a lane decides reads after a noted frame as before it. -/
theorem noted_reads {γ : Type} (P : Dev → γ) (d : Dev) (h : TwHead) (hP : ∀ c0 c1, P (setTw d { d.tw with ctr0 := c0, ctr1 := c1 }) = P d) :
    P (noted d h) = P d := by
  obtain ⟨c0, c1, hn⟩ := noted_counters d h
  rw [hn]
  exact hP c0 c1

theorem follows_noted (d : Dev) (h : TwHead) : follows (noted d h) = follows d := noted_reads follows d h fun _ _ => rfl
theorem followsPair_noted (d : Dev) (h : TwHead) : followsPair (noted d h) = followsPair d := noted_reads followsPair d h fun _ _ => rfl
theorem onGrid_noted (d : Dev) (h : TwHead) : onGrid (noted d h) = onGrid d := noted_reads onGrid d h fun _ _ => rfl
theorem integOk_noted (d : Dev) (h : TwHead) : integOk (noted d h) = integOk d := noted_reads integOk d h fun _ _ => rfl
theorem mayReturn_noted (d : Dev) (h : TwHead) : mayReturn (noted d h) = mayReturn d := noted_reads mayReturn d h fun _ _ => rfl
theorem twRuns_noted (d : Dev) (h : TwHead) : twRuns (noted d h) = twRuns d := noted_reads twRuns d h fun _ _ => rfl
theorem twPaired_noted (d : Dev) (h : TwHead) : twPaired (noted d h) = twPaired d := noted_reads twPaired d h fun _ _ => rfl

/-- A trusted lane is an authenticated partner. -/
theorem twPaired_of_laneUp {d : Dev} {n : Nat} (h : laneUp d n = true) : twPaired d = true := by
  unfold laneUp at h
  unfold twPaired
  split at h <;> simp [h]

/-- A frame that arrives comes from an authenticated partner, in a pair that runs. -/
theorem arrives_paired {d : Dev} {h : TwHead} (ha : Arrives d h) : twRuns (noted d h) = true ∧ twPaired (noted d h) = true := by
  obtain ⟨hruns, hup, -, -⟩ := ha
  exact ⟨(twRuns_noted d h).trans hruns, (twPaired_noted d h).trans (twPaired_of_laneUp hup)⟩

/-- So its effect is not turned away for want of a partner. -/
theorem arrives_not_alone {d : Dev} {h : TwHead} (ha : Arrives d h) : ¬(twRuns (noted d h) = false ∨ twPaired (noted d h) = false) := by
  obtain ⟨hruns, hpaired⟩ := arrives_paired ha
  rw [hruns, hpaired]
  decide

/-- A module that answers the partner sends on its lanes. -/
theorem arrives_sends {d : Dev} {h : TwHead} (ha : Arrives d h) : (pairEn (noted d h) && twPaired (noted d h)) = true := by
  obtain ⟨hruns, hpaired⟩ := arrives_paired ha
  unfold twRuns at hruns
  rw [Bool.and_eq_true] at hruns
  rw [hruns.1, hpaired]
  rfl

section
variable {c : Instr} {s : State} {h : TwHead} {ok : Bool} {f : Dev → Dev} (he : exec c s = onDev ok (fun _ d => laneFrame d h f) s) (hok : ok = true)
include he hok

theorem exec_frame {d : Dev} (ha : Arrives s.dev h) (hd : f (noted s.dev h) = d) : exec c s = .next { s with dev := d } :=
  exec_onDev he hok ((laneFrame_arrives s.dev h f ha).trans hd)

theorem completes_frame {post : Dev → Prop} (ha : Arrives s.dev h) (hp : post (f (noted s.dev h))) : Completes c s post :=
  completes_onDev he hok (by rw [laneFrame_arrives s.dev h f ha]; exact hp)

theorem exec_spoilt (hd : Discarded s.dev h) : exec c s = .next { s with dev := bump s.dev TW_LANE_ERR_CNT } :=
  exec_onDev he hok (laneFrame_discarded s.dev h f hd)

end

/-! ### Frames kept for their BP, and replies (R265, R266, R268, R283) -/

/-- A frame that a following module does not have yet waits for its BP, with its counter noted. -/
theorem keepFrame_noted {d : Dev} (h : TwHead) {n : Nat} {f : TwFrame} (hnew : follows d = true ∧ (onGrid d = true → bp d < n) ∧ d.tw.frames.contains f = false)
    (hroom : d.role = .syncing → ∀ g ∈ d.tw.frames, n < frameBp g + 10000) :
    keepFrame (noted d h) n f = setTw (noted d h) { (noted d h).tw with frames := d.tw.frames ++ [f] } := by
  obtain ⟨hfollows, hlater, hfresh⟩ := hnew
  have hframes : (noted d h).tw.frames = d.tw.frames := noted_reads (fun d => d.tw.frames) d h fun _ _ => rfl
  have hkeep := keepFrame_kept (noted d h) n f ((follows_noted d h).trans hfollows) (fun hg => hlater ((onGrid_noted d h).symm.trans hg))
    (by rw [hframes]; exact hfresh) (by rw [hframes]; exact hroom)
  rw [hframes] at hkeep
  exact hkeep

/-- The authority's copy of a reply stands in its slot, and nothing else changes (R266). -/
theorem plForward_facts {d : Dev} {seg k : Nat} (bs : List W8) (hrole : d.role = .standby) (hk : k < (plOf d seg).slots.length) :
    slOf (plForward d seg k bs) seg k = { slOf d seg k with fwd := some bs, due := (slOf d seg k).due || plL3 (plOf d seg) }
      ∧ (∀ j, j ≠ k → slOf (plForward d seg k bs) seg j = slOf d seg j) ∧ (∀ g, g ≠ seg → plOf (plForward d seg k bs) g = plOf d g)
      ∧ (plForward d seg k bs).regs = d.regs ∧ (plForward d seg k bs).sig = d.sig := by
  have hset : plForward d seg k bs = setSl d seg k { slOf d seg k with fwd := some bs, due := (slOf d seg k).due || plL3 (plOf d seg) } :=
    if_pos ⟨Or.inl hrole, hk⟩
  rw [hset]
  exact ⟨slOf_setSl_same _ _ _ _ hk, fun j hj => slOf_setSl_ne _ _ _ _ _ hj, fun g hg => plOf_setPl_ne _ _ hg, rfl, rfl⟩

/-! ### Digests (R270) -/

/-- The device at the comparison of an epoch's digests: their entries used up, the registers of TW_EPOCH and of the digests written. -/
def comparing (d : Dev) (e own peer : Nat) : Dev :=
  wr64 (wr64 (wr64 (setTw d { d.tw with own := d.tw.own.filter (fun p => p.1 != e), peer := d.tw.peer.filter (fun p => p.1 != e) }) TW_EPOCH e)
    TW_DIG_OWN own) TW_DIG_PEER peer

theorem comparing_tw (d : Dev) (e own peer : Nat) : (comparing d e own peer).tw =
    { d.tw with own := d.tw.own.filter (fun p => p.1 != e), peer := d.tw.peer.filter (fun p => p.1 != e) } := by
  unfold comparing
  rw [wr64_tw, wr64_tw, wr64_tw]
  rfl

theorem comparing_role (d : Dev) (e own peer : Nat) : (comparing d e own peer).role = d.role := by unfold comparing; simp
theorem comparing_sig (d : Dev) (e own peer : Nat) : (comparing d e own peer).sig = d.sig := by unfold comparing; simp

theorem rd_comparing (d : Dev) (e own peer : Nat) {a : Nat} (ha : a < TW_EPOCH ∨ TW_DIG_PEER + 8 ≤ a) :
    rd (comparing d e own peer) a = rd d a := by
  have he : TW_EPOCH = twBase + 0x120 := rfl
  have ho : TW_DIG_OWN = twBase + 0x128 := rfl
  have hp : TW_DIG_PEER = twBase + 0x130 := rfl
  unfold comparing
  rw [rd_wr64_ne _ _ (by omega) (by omega), rd_wr64_ne _ _ (by omega) (by omega), rd_wr64_ne _ _ (by omega) (by omega), rd_setTw]

theorem comparing_shown (d : Dev) (e own peer : Nat) : rd64 (comparing d e own peer) TW_EPOCH = e % 2 ^ 64
    ∧ rd64 (comparing d e own peer) TW_DIG_OWN = own % 2 ^ 64 ∧ rd64 (comparing d e own peer) TW_DIG_PEER = peer % 2 ^ 64 := by
  unfold comparing
  refine ⟨?_, ?_, rd64_wr64 _ _ _⟩
  · rw [rd64_wr64_ne _ _ (by decide), rd64_wr64_ne _ _ (by decide), rd64_wr64]
  · rw [rd64_wr64_ne _ _ (by decide), rd64_wr64]

/-- The comparison itself leaves the lanes to the partner as they were. -/
theorem comparing_sends (d : Dev) (e own peer : Nat) :
    (pairEn (comparing d e own peer) && twPaired (comparing d e own peer)) = (pairEn d && twPaired d) := by
  unfold pairEn rdBit twPaired
  rw [rd_comparing _ _ _ _ (by decide), comparing_tw]

/-- Equal digests count as a match, and confirm a sync (R270, R284). -/
theorem compareDigest_equal (d : Dev) (e x : Nat) : compareDigest d e x x =
    setTw (comparing d e x x) { (comparing d e x x).tw with matches_ := min 255 (d.tw.matches_ + 1)
                                                            phase := if d.role = .syncing ∧ d.tw.phase = 4 then 5 else d.tw.phase } := by
  obtain ⟨z, hz⟩ : ∃ z, z = setTw (comparing d e x x) { (comparing d e x x).tw with matches_ := min 255 ((comparing d e x x).tw.matches_ + 1) } := ⟨_, rfl⟩
  have hcmp : compareDigest d e x x = if z.role = .syncing ∧ z.tw.phase = 4 then setTw z { z.tw with phase := 5 } else z := by
    rw [hz]; exact if_neg (fun h => h rfl)
  have hrole : z.role = d.role := by rw [hz, setTw_role, comparing_role]
  have hphase : z.tw.phase = d.tw.phase := by rw [hz, setTw_tw, comparing_tw]
  have htw := comparing_tw d e x x
  rw [hcmp, hrole, hphase, hz]
  clear hcmp hz
  generalize comparing d e x x = y at *
  rw [htw]
  by_cases h : d.role = .syncing ∧ d.tw.phase = 4
  · rw [if_pos h, if_pos h]
    rfl
  · rw [if_neg h, if_neg h]

/-- What a match shows, counts and leaves. -/
theorem matched_facts {d m : Dev} {e x : Nat} (hm : compareDigest d e x x = m) :
    rd64 m TW_EPOCH = e % 2 ^ 64 ∧ rd64 m TW_DIG_OWN = x % 2 ^ 64 ∧ rd64 m TW_DIG_PEER = x % 2 ^ 64 ∧ m.tw.matches_ = min 255 (d.tw.matches_ + 1)
      ∧ rd m TW_DIG_MIS_CNT = rd d TW_DIG_MIS_CNT ∧ m.tw.phase = (if d.role = .syncing ∧ d.tw.phase = 4 then 5 else d.tw.phase)
      ∧ m.role = d.role ∧ m.sig = d.sig := by
  have hrole := comparing_role d e x x
  have hsig := comparing_sig d e x x
  have hcnt : rd (comparing d e x x) TW_DIG_MIS_CNT = rd d TW_DIG_MIS_CNT := rd_comparing _ _ _ _ (by decide)
  obtain ⟨hepoch, hown, hpeer⟩ := comparing_shown d e x x
  rw [← hm, compareDigest_equal]
  clear hm
  generalize comparing d e x x = y at *
  exact ⟨hepoch, hown, hpeer, rfl, hcnt, rfl, hrole, hsig⟩

theorem compareDigest_unequal (d : Dev) (e : Nat) {own peer : Nat} (h : own ≠ peer) :
    compareDigest d e own peer = mismatch (comparing d e own peer) e own peer := if_pos h

/-- A mismatch ends the run of equal digests and is counted; a standby asks for a sync, and a sync that was to be confirmed has failed (R270, R285). -/
theorem mismatch_facts {d m : Dev} {e own peer : Nat} (hm : mismatch d e own peer = m) :
    m.tw.matches_ = 0 ∧ m.tw.asked = false ∧ rd m TW_DIG_MIS_CNT = rd d TW_DIG_MIS_CNT + 1
      ∧ (d.role = .standby → m.tw.phase = 1 ∧ m.tw.baseOk = false ∧ ((pairEn d && twPaired d) = true → .ctrl 0 ∈ m.tw.sent))
      ∧ (d.role = .syncing ∧ d.tw.phase = 4 → m.tw.phase = 2 ∧ m.tw.fails = d.tw.fails + 1) := by
  obtain ⟨x, hx⟩ : ∃ x, x = bump (setTw d { d.tw with matches_ := 0, asked := false }) TW_DIG_MIS_CNT := ⟨_, rfl⟩
  obtain ⟨y, hy⟩ : ∃ y, y = if authoritative x then report x 0x0061 7 (pay64 e ++ pay64 own ++ pay64 peer) else x := ⟨_, rfl⟩
  have hmis : m = if y.role = .standby then wantSync y else if y.role = .syncing ∧ y.tw.phase = 4 then syncFail y 4 else y := by
    rw [← hm, hy, hx]; rfl
  have hrec : Recorded x y := by rw [hy]; exact ite_prop (Recorded x) (recorded_report _ _ _ _) (Recorded.refl x)
  have htw : y.tw = { d.tw with matches_ := 0, asked := false } := by rw [recorded_tw hrec, hx, bump_tw]; rfl
  have hrole : y.role = d.role := by rw [recorded_role hrec, hx, bump_role, setTw_role]
  have hcnt : rd y TW_DIG_MIS_CNT = rd d TW_DIG_MIS_CNT + 1 := by rw [recorded_rd hrec (Or.inl (by decide)), hx, rd_bump_same, rd_setTw]
  have hpair : pairEn y = pairEn d := by
    unfold pairEn rdBit
    rw [recorded_rd hrec (Or.inl (by decide)), hx, rd_bump_ne _ (by decide), rd_setTw]
  rw [hmis, hrole, htw]
  by_cases hstandby : d.role = .standby
  · obtain ⟨hwtw, -, -, hwregs⟩ := wantSync_facts y
    rw [if_pos hstandby, hwtw, rd_congr hwregs, hcnt, hpair, htw]
    refine ⟨rfl, rfl, rfl, fun _ => ⟨rfl, rfl, fun hsends => ?_⟩, fun hsync => absurd (hstandby.symm.trans hsync.1) (by decide)⟩
    have hsends' : (pairEn d && twPaired y) = true := by unfold twPaired at hsends ⊢; rw [htw]; exact hsends
    rw [if_pos hsends']
    exact List.mem_append_right _ (List.mem_singleton_self _)
  · rw [if_neg hstandby]
    by_cases hsync : d.role = .syncing ∧ d.tw.phase = 4
    · obtain ⟨hftw, hfcnt, -, -⟩ := syncFail_facts y 4
      have hmiscnt : rd (syncFail y 4) TW_DIG_MIS_CNT = rd y TW_DIG_MIS_CNT := by
        unfold syncFail
        rw [rd_setTw, recorded_rd (recorded_pairLink _ _ _ _) (Or.inl (by decide)), rd_bump_ne _ (by decide)]
      rw [if_pos hsync, hftw, hmiscnt, hcnt, htw]
      exact ⟨rfl, rfl, rfl, fun h => absurd h hstandby, fun _ => ⟨rfl, rfl⟩⟩
    · rw [if_neg hsync, htw]
      exact ⟨rfl, rfl, hcnt, fun h => absurd h hstandby, fun h => absurd h hsync⟩

/-- The device with the partner's digest of an epoch noted. -/
def digestNoted (d : Dev) (e g : Nat) : Dev := setTw d { d.tw with peer := (e, g % 2 ^ 64) :: d.tw.peer.filter (fun p => p.1 != e) }

section
variable {d : Dev} {h : TwHead} (ha : Arrives d h) (e g : Nat)
include ha

theorem digestReceive_waits (hown : digestAt d.tw.own e = none) : digestReceive (noted d h) e g = digestNoted (noted d h) e g := by
  have hsame : digestAt (noted d h).tw.own e = none := (noted_reads (fun d => digestAt d.tw.own e) d h fun _ _ => rfl).trans hown
  unfold digestReceive
  rw [if_neg (arrives_not_alone ha)]
  show (match digestAt (noted d h).tw.own e with
    | some own => compareDigest (digestNoted (noted d h) e g) e own (g % 2 ^ 64)
    | none => digestNoted (noted d h) e g) = _
  rw [hsame]

theorem digestReceive_compares {o : Nat} (hown : digestAt d.tw.own e = some o) :
    digestReceive (noted d h) e g = compareDigest (digestNoted (noted d h) e g) e o (g % 2 ^ 64) := by
  have hsame : digestAt (noted d h).tw.own e = some o := (noted_reads (fun d => digestAt d.tw.own e) d h fun _ _ => rfl).trans hown
  unfold digestReceive
  rw [if_neg (arrives_not_alone ha)]
  show (match digestAt (noted d h).tw.own e with
    | some own => compareDigest (digestNoted (noted d h) e g) e own (g % 2 ^ 64)
    | none => digestNoted (noted d h) e g) = _
  rw [hsame]

end

/-- What the partner's digest leaves until it is compared. -/
theorem digestNoted_facts (d : Dev) (h : TwHead) (e g : Nat) :
    (digestNoted (noted d h) e g).tw.matches_ = d.tw.matches_ ∧ (digestNoted (noted d h) e g).tw.phase = d.tw.phase
      ∧ (digestNoted (noted d h) e g).tw.fails = d.tw.fails ∧ (digestNoted (noted d h) e g).role = d.role
      ∧ (digestNoted (noted d h) e g).sig = d.sig ∧ ∀ a, rd (digestNoted (noted d h) e g) a = rd d a := by
  obtain ⟨c0, c1, hn⟩ := noted_counters d h
  rw [hn]
  exact ⟨rfl, rfl, rfl, rfl, rfl, fun a => rd_congr rfl a⟩

/-! ### The pair's time base (R366) -/

/-- A TIME frame of the BP shows the offset u and the authority's trim; beyond 1 µs the time base steps, from 1 ns it slews (R363, R366). -/
theorem timeFrame_facts {d e : Dev} {ns fr : Nat} {trim : W32} {u : Int} (he : timeFrame d (bp d) ns fr trim = e) (hfollow : pairFollow d = true)
    (hu : u = ((ns * 2 ^ 24 + fr % 2 ^ 24 : Nat) : Int) - (d.tt * 2 ^ 24 + d.ttFrac : Nat)) :
    rd e TB_PAIR_OFS = w32i (clampI (-2147483648) 2147483647 (Int.tdiv u oneNs)) ∧ e.tw.trim = trim
      ∧ (1000 * oneNs < u ∨ u < -(1000 * oneNs) → e.tb = { d.tb with pairStep := some u })
      ∧ (oneNs ≤ u ∧ u ≤ 1000 * oneNs ∨ -(1000 * oneNs) ≤ u ∧ u ≤ -oneNs → e.tb.pairSlew = some u ∧ e.tb.pairStep = d.tb.pairStep)
      ∧ (-oneNs < u ∧ u < oneNs → e.tb.pairSlew = none ∧ e.tb.phase = 0)
      ∧ (∀ a, a ≠ TB_PAIR_OFS → a ≠ TB_INC → rd e a = rd d a) ∧ e.sig = d.sig := by
  obtain ⟨x, hx⟩ : ∃ x, x = wr (setTw d { d.tw with trim := trim }) TB_PAIR_OFS (w32i (clampI (-2147483648) 2147483647 (Int.tdiv u oneNs))) := ⟨_, rfl⟩
  obtain ⟨y, hy⟩ : ∃ y, y = (freeNum x).2 := ⟨_, rfl⟩
  have hcmp : e = if 1000 * oneNs < u ∨ u < -(1000 * oneNs) then setTb x { x.tb with pairStep := some u }
      else slewStart y u (1 + (freeNum x).1 % (phaseMax y).toNat) true := by
    rw [← he, hy, hx, hu]
    exact if_neg (by rw [hfollow]; simp)
  have hofs : rd x TB_PAIR_OFS = w32i (clampI (-2147483648) 2147483647 (Int.tdiv u oneNs)) := by rw [hx, rd_wr_same]
  have htrim : x.tw.trim = trim := by rw [hx, wr_tw, setTw_tw]
  have htb : x.tb = d.tb := by rw [hx, wr_tb]; rfl
  have hsig : x.sig = d.sig := by rw [hx, wr_sig]; rfl
  have hrd : ∀ a, a ≠ TB_PAIR_OFS → rd x a = rd d a := fun a ha => by rw [hx, rd_wr_ne _ _ ha, rd_setTw]
  have hone : oneNs = 16777216 := rfl
  have hfree : y.tb = x.tb ∧ y.tw = x.tw ∧ y.sig = x.sig ∧ ∀ a, rd y a = rd x a := by rw [hy]; exact ⟨rfl, rfl, rfl, fun a => rd_congr rfl a⟩
  obtain ⟨hytb, hytw, hysig, hyrd⟩ := hfree
  rw [hcmp]
  clear hcmp he
  by_cases hstep : 1000 * oneNs < u ∨ u < -(1000 * oneNs)
  · rw [if_pos hstep]
    refine ⟨(rd_setTb _ _ _).trans hofs, htrim, fun _ => ?_, fun h => ?_, fun h => ?_, fun a ha _ => (rd_setTb _ _ _).trans (hrd a ha), hsig⟩
    · rw [← htb]; rfl
    · omega
    · omega
  · rw [if_neg hstep]
    by_cases hslew : oneNs ≤ u ∨ u ≤ -oneNs
    · obtain ⟨hs, -, hstp, hsrd, hssig, hstw⟩ := slewStart_pair y u (1 + (freeNum x).1 % (phaseMax y).toNat) hslew
      refine ⟨?_, ?_, fun h => absurd h hstep, fun _ => ⟨hs, ?_⟩, fun h => ?_, fun a ha hb => ?_, ?_⟩
      · rw [hsrd _ (by decide), hyrd, hofs]
      · rw [hstw, hytw, htrim]
      · rw [hstp, hytb, htb]
      · omega
      · rw [hsrd a hb, hyrd, hrd a ha]
      · rw [hssig, hysig, hsig]
    · have hnear : -oneNs < u ∧ u < oneNs := by omega
      obtain ⟨hetb, herd, hesig, hetw⟩ := slewEnd_pair y
      rw [show slewStart y u (1 + (freeNum x).1 % (phaseMax y).toNat) true = slewEnd y from if_pos hnear]
      refine ⟨?_, ?_, fun h => absurd h hstep, fun h => ?_, fun _ => ?_, fun a ha hb => ?_, ?_⟩
      · rw [herd _ (by decide), hyrd, hofs]
      · rw [hetw, hytw, htrim]
      · omega
      · rw [hetb]; exact ⟨rfl, rfl⟩
      · rw [herd a hb, hyrd, hrd a ha]
      · rw [hesig, hysig, hsig]

end Sys2Proof.Machine
end

section
/-! PROOFS. The frames of a sync and of control (R282, R283, R285, R286), and the statement on twin frames. -/

namespace Sys2Proof.Machine

/-- The pages of the recipe lanes exist. -/
theorem pageOk_sq : ∀ l < 16, pageOk (.sq l) = true := by decide

/-! ### CTRL frames (R282, R286) -/

/-- An offer, or RETURN_NOW: authority is asked for where nothing but the hold-off is missing, else the wish stands (R286). -/
theorem askReturn_facts {d e : Dev} (he : askReturn (setTw d { d.tw with askNow := true }) = e) :
    e.tw.asked = (d.tw.asked || mayReturn d) ∧ e.tw.askNow = !mayReturn d
      ∧ (mayReturn d = true → (pairEn d && twPaired d) = true → e.tw.sent = d.tw.sent ++ [.ctrl 1]) ∧ e.regs = d.regs ∧ e.role = d.role ∧ e.sig = d.sig := by
  subst he
  rw [askReturn_now]
  cases hmay : mayReturn d
  · rw [if_neg (by simp)]
    exact ⟨(Bool.or_false _).symm, rfl, fun h => absurd h (by decide), rfl, rfl, rfl⟩
  · rw [if_pos rfl, twSend_tw, twSend_regs, twSend_role, twSend_sig]
    exact ⟨(Bool.or_true _).symm, rfl, fun _ hsends => if_pos hsends, rfl, rfl, rfl⟩

section
variable {d : Dev} {h : TwHead} (ha : Arrives d h)
include ha

/-- The authoritative module serves a sync request from its next boundary (R282). -/
theorem ctrlFrame_request (hauth : authoritative d = true) : ctrlFrame (noted d h) 0 = setTw (noted d h) { (noted d h).tw with serve := true } :=
  (if_neg (arrives_not_alone ha)).trans (if_pos ⟨rfl, hauth⟩)

/-- The authority names the BP of the handover that it has been asked for (R287). -/
theorem ctrlFrame_return (hrole : d.role = .authority) (hfree : d.tw.handover = none) (hinteg : integOk d = true) :
    ctrlFrame (noted d h) 1 = setTw (noted d h) { (noted d h).tw with handover := some ((bp d + 14) / 5 * 5) } :=
  have hfree' : (noted d h).tw.handover = none := (noted_reads (fun d => d.tw.handover) d h fun _ _ => rfl).trans hfree
  (if_neg (arrives_not_alone ha)).trans ((if_neg (by simp)).trans (if_pos ⟨rfl, hrole, hfree', (integOk_noted d h).trans hinteg⟩))

theorem ctrlFrame_offer (hrole : d.role = .standby) : ctrlFrame (noted d h) 2 = askReturn (setTw (noted d h) { (noted d h).tw with askNow := true }) :=
  (if_neg (arrives_not_alone ha)).trans ((if_neg (by simp)).trans ((if_neg (by simp)).trans (if_pos ⟨rfl, hrole⟩)))

/-! ### Images (R70, R282, log entry 57) -/

/-- An image of a load goes to the lane that loads. -/
theorem imageFrame_load {l : Nat} (bank typ : Nat) (bs : List W8) (hfollows : followsPair d = true) (hloading : (laneOf d l).st = .loading) :
    imageFrame (noted d h) (.sq l) bank typ bs = setLane (noted d h) l { laneOf d l with copy := bs, copyLen := bs.length } :=
  (if_neg (arrives_not_alone ha)).trans ((if_pos ((followsPair_noted d h).trans hfollows)).trans (if_pos hloading))

/-- An image of the sync goes to the directory, where its container and its key are right. -/
theorem imageFrame_sync (p : Page) (bank typ : Nat) (bs : List W8) (hrole : d.role = .syncing) (hbase : d.tw.baseOk = false)
    (hphase : d.tw.phase = 1 ∨ d.tw.phase = 2) : imageFrame (noted d h) p bank typ bs =
      if containerCheck d bs typ bs.length = 0 then dirPut (noted d h) p bank typ bs.length ((bs.drop 0x20).take 32) else noted d h := by
  have hfollows : ¬followsPair (noted d h) = true := by
    rw [followsPair_noted]
    unfold followsPair
    rw [hrole, hbase]
    simp
  have hphase' : (noted d h).tw.phase = d.tw.phase := noted_reads (fun d => d.tw.phase) d h fun _ _ => rfl
  have hcheck : containerCheck (noted d h) bs typ bs.length = containerCheck d bs typ bs.length :=
    noted_reads (fun d => containerCheck d bs typ bs.length) d h fun _ _ => rfl
  refine (if_neg (arrives_not_alone ha)).trans ((if_neg hfollows).trans ?_)
  rw [hphase', hcheck, noted_role]
  by_cases hc : containerCheck d bs typ bs.length = 0
  · rw [if_pos ⟨hrole, hphase, hc⟩, if_pos hc]
  · rw [if_neg (fun hg => hc hg.2.2), if_neg hc]

end

/-! ### Chunks of the base (R283, R285) -/

/-- A chunk that passes is collected, one that fails is sent again, and its third failure fails the sync. -/
theorem baseFrame_facts {d e : Dev} {k : Nat} {ok : Bool} (he : baseFrame d k ok = e) (hfollows : follows d = true) (hrole : d.role = .syncing)
    (hhalt : d.tw.halt = false) (hphase : d.tw.phase = 1 ∨ d.tw.phase = 2) :
    (if ok then e.tw.chunks = (if k ∈ d.tw.chunks then d.tw.chunks else k :: d.tw.chunks) ∧ e.tw.chunkFails = d.tw.chunkFails ∧ e.tw.fails = d.tw.fails
      else if 2 ≤ d.tw.chunkFails.count k then e.tw.chunks = [] ∧ e.tw.chunkFails = [] ∧ e.tw.fails = d.tw.fails + 1
        ∧ e.tw.halt = decide (3 ≤ d.tw.fails + 1) ∧ rd e TW_SYNC_FAIL_CNT = rd d TW_SYNC_FAIL_CNT + 1
      else e.tw.chunks = d.tw.chunks ∧ e.tw.chunkFails = k :: d.tw.chunkFails ∧ e.tw.fails = d.tw.fails)
      ∧ e.tw.phase = 2 ∧ e.role = d.role ∧ e.sig = d.sig := by
  have hlive : ¬(follows d = false ∨ d.role ≠ .syncing ∨ d.tw.halt = true ∨ ¬(d.tw.phase = 1 ∨ d.tw.phase = 2)) := by
    rw [hfollows, hrole, hhalt]
    simp [hphase]
  cases ok
  · have hfailed : baseFrame d k false = if 2 ≤ d.tw.chunkFails.count k then syncFail d 2 else setTw d { d.tw with phase := 2, chunkFails := k :: d.tw.chunkFails } :=
      (if_neg hlive).trans (if_neg Bool.false_ne_true)
    rw [← he, hfailed, if_neg Bool.false_ne_true]
    by_cases hthird : 2 ≤ d.tw.chunkFails.count k
    · obtain ⟨htw, hcnt, hr, hs⟩ := syncFail_facts d 2
      rw [if_pos hthird, if_pos hthird, htw, hhalt]
      exact ⟨⟨rfl, rfl, rfl, Bool.false_or _, hcnt⟩, rfl, hr, hs⟩
    · rw [if_neg hthird, if_neg hthird]
      exact ⟨⟨rfl, rfl, rfl⟩, rfl, rfl, rfl⟩
  · have hpassed : baseFrame d k true = setTw d { d.tw with phase := 2, chunks := if k ∈ d.tw.chunks then d.tw.chunks else k :: d.tw.chunks } :=
      (if_neg hlive).trans (if_pos rfl)
    rw [← he, hpassed, if_pos rfl]
    exact ⟨⟨rfl, rfl, rfl⟩, rfl, rfl, rfl⟩

/-! ### The installed base (R257, R283) -/

/-- The base is the partner's state of boundary e; the pair's own part leads to CATCHUP, and what is each module's own stays. -/
theorem baseInstalled_facts {d : Dev} (e : Nat) (b : Snap) (hfollows : follows d = true) (hrole : d.role = .syncing) (hhalt : d.tw.halt = false)
    (hphase : d.tw.phase = 2) (hon : d.power.phase = .on) :
    (baseInstalled d e b).tw = { d.tw with phase := 3, baseOk := true, baseAt := e, joining := false, seq := mk64 (tget 0 b.regs TW_PO_SEQ) (tget 0 b.regs (TW_PO_SEQ + 4)) }
      ∧ (baseInstalled d e b).sig = b.sig ∧ (baseInstalled d e b).cells = b.cells ∧ (baseInstalled d e b).lanes = b.lanes
      ∧ bp (baseInstalled d e b) = e % 2 ^ 64 ∧ (baseInstalled d e b).sf.hash = d.sf.hash ∧ (baseInstalled d e b).dir = d.dir := by
  obtain ⟨hsig, -, hlanes, -, hcells, -, -, -, htw, hbp, hsf, hdir, -⟩ := install_facts d e b
  obtain ⟨x, hx⟩ : ∃ x, x = setTw (install d e b) { (install d e b).tw with phase := 3, baseOk := true, baseAt := e, joining := false } := ⟨_, rfl⟩
  obtain ⟨m, j, hbase, -⟩ := baselineStart_facts x
  have hstart : baselineStart (setTw (install d e b) { (install d e b).tw with phase := 3, baseOk := true, baseAt := e, joining := false }) = { x with mram := m, jn := j } := by
    rw [← hx]; exact hbase
  rw [baseInstalled_eq d e b hfollows hrole hhalt hphase hon hstart]
  refine ⟨?_, ?_, ?_, ?_, ?_, ?_, ?_⟩
  · show x.tw = _
    rw [hx, setTw_tw, htw]
  · show x.sig = _
    rw [hx, setTw_sig, hsig]
  · show x.cells = _
    rw [hx, setTw_cells, hcells]
  · show x.lanes = _
    rw [hx, setTw_lanes, hlanes]
  · show bp x = _
    rw [hx, bp_setTw, hbp]
  · show x.sf.hash = _
    rw [hx, setTw_sf, hsf]
    rfl
  · show x.dir = _
    rw [hx, setTw_dir, hdir]

/-- Settles O43: each frame is taken on the device with its counter noted, where the pair stands as before it. -/
theorem twinFramesTakeEffect : Obligations.TwinFramesTakeEffect := by
  unfold Obligations.TwinFramesTakeEffect
  intro s
  refine ⟨?kept, ?reply, ?digestWaits, ?digestEqual, ?digestDiffers, ?syncRequest, ?returnAsked, ?offered, ?loadImage, ?syncImage, ?baseChunk,
    ?base, ?time, ?beat, ?spoilt⟩
  case kept =>
    rintro h n tt first seg k vals ws bs c f ⟨hl, hseg, hk⟩ ha hnew hroom hc
    have hkeep := keepFrame_noted h hnew hroom
    rcases hc with hc | ⟨hrole, hc⟩
    · rw [List.mem_cons, List.mem_singleton, Prod.mk.injEq, Prod.mk.injEq] at hc
      rcases hc with ⟨rfl, rfl⟩ | ⟨rfl, rfl⟩
      · exact exec_frame (f := fun d => inputFrame d n tt vals) rfl (decide_eq_true hl) ha hkeep
      · exact exec_frame (f := fun d => writesFrame d n first ws) rfl (decide_eq_true hl) ha hkeep
    · rw [Prod.mk.injEq] at hc
      obtain ⟨rfl, rfl⟩ := hc
      refine exec_frame (f := fun d => plialeFrame d n seg k bs) rfl (by simp [hl, hseg, hk]) ha ?_
      have hwaits : plialeFrame (noted s.dev h) n seg k bs = keepFrame (noted s.dev h) n (.pliale n seg k bs) :=
        if_neg (by rw [noted_role, hrole]; decide)
      exact hwaits.trans hkeep
  case reply =>
    rintro h n seg k bs ⟨hl, hseg, hk⟩ ha ⟨hrole, hslot⟩
    refine completes_frame (f := fun d => plialeFrame d n seg k bs) rfl (by simp [hl, hseg, hk]) ha ?_
    have hnow : plialeFrame (noted s.dev h) n seg k bs = plForward (noted s.dev h) seg k bs := if_pos hrole
    rw [hnow]
    exact plForward_facts bs hrole hslot
  case digestWaits =>
    intro h e g hl ha hown
    have hpeer : (noted s.dev h).tw.peer = s.dev.tw.peer := noted_reads (fun d => d.tw.peer) s.dev h fun _ _ => rfl
    refine exec_frame (f := fun d => digestReceive d e g) rfl (decide_eq_true hl) ha ((digestReceive_waits ha e g hown).trans ?_)
    unfold digestNoted
    rw [hpeer]
  case digestEqual =>
    intro h e g hl ha hown
    refine completes_frame (f := fun d => digestReceive d e g) rfl (decide_eq_true hl) ha ?_
    obtain ⟨z, hz⟩ : ∃ z, z = digestNoted (noted s.dev h) e g := ⟨_, rfl⟩
    obtain ⟨hmatches, hphase, -, hrole, hsig, hrd⟩ := hz ▸ digestNoted_facts s.dev h e g
    obtain ⟨hepoch, hshown, hpeer, hcount, hcnt, hconfirm, hmrole, hmsig⟩ := matched_facts (d := z) (e := e) (x := g % 2 ^ 64) rfl
    rw [Nat.mod_mod] at hshown hpeer
    rw [hmatches] at hcount
    rw [hphase, hrole] at hconfirm
    rw [digestReceive_compares ha e g hown, ← hz]
    exact ⟨hepoch, hshown, hpeer, hcount, hcnt.trans (hrd _), hconfirm, hmrole.trans hrole, hmsig.trans hsig⟩
  case digestDiffers =>
    rintro h e g o hl ha ⟨hown, hne⟩
    refine completes_frame (f := fun d => digestReceive d e g) rfl (decide_eq_true hl) ha ?_
    obtain ⟨z, hz⟩ : ∃ z, z = digestNoted (noted s.dev h) e g := ⟨_, rfl⟩
    obtain ⟨-, hphase, hfails, hrole, hsig, hrd⟩ := hz ▸ digestNoted_facts s.dev h e g
    have hsends : (pairEn z && twPaired z) = true := hz ▸ arrives_sends ha
    have hcmp : digestReceive (noted s.dev h) e g = _ := (digestReceive_compares ha e g hown).trans (compareDigest_unequal _ e hne)
    obtain ⟨hmatches, hasked, hcnt, hstandby, hsync⟩ := mismatch_facts (d := comparing z e o (g % 2 ^ 64)) (e := e) (own := o) (peer := g % 2 ^ 64) rfl
    obtain ⟨-, hmsig, hmrole, -⟩ := digestKept_mismatch (comparing z e o (g % 2 ^ 64)) e o (g % 2 ^ 64)
    rw [comparing_role, hrole] at hstandby hsync hmrole
    rw [comparing_tw, hphase, hfails] at hsync
    rw [comparing_sends] at hstandby
    rw [← hz] at hcmp
    simp only [hcmp]
    refine ⟨hmatches, hasked, ?_, fun hr => ?_, hsync, hmrole, hmsig.trans ((comparing_sig _ _ _ _).trans hsig)⟩
    · rw [hcnt, rd_comparing _ _ _ _ (by decide), hrd]
    · obtain ⟨hp, hbase, hsent⟩ := hstandby hr
      exact ⟨hp, hbase, hsent hsends⟩
  case syncRequest =>
    exact fun h hl ha hauth => exec_frame (f := fun d => ctrlFrame d 0) rfl (by simp [hl]) ha (ctrlFrame_request ha hauth)
  case returnAsked =>
    rintro h hl ha ⟨hrole, hfree, hinteg⟩
    exact exec_frame (f := fun d => ctrlFrame d 1) rfl (by simp [hl]) ha (ctrlFrame_return ha hrole hfree hinteg)
  case offered =>
    intro h hl ha hrole
    refine completes_frame (f := fun d => ctrlFrame d 2) rfl (by simp [hl]) ha ?_
    obtain ⟨hasked, hnow, hsent, hregs, hr, -⟩ := askReturn_facts (d := noted s.dev h) rfl
    have htw : (noted s.dev h).tw.asked = s.dev.tw.asked ∧ (noted s.dev h).tw.sent = s.dev.tw.sent :=
      ⟨noted_reads (fun d => d.tw.asked) s.dev h fun _ _ => rfl, noted_reads (fun d => d.tw.sent) s.dev h fun _ _ => rfl⟩
    rw [mayReturn_noted, htw.1] at hasked
    rw [mayReturn_noted] at hnow
    rw [mayReturn_noted, htw.2] at hsent
    rw [ctrlFrame_offer ha hrole]
    exact ⟨hasked, hnow, fun hmay => hsent hmay (arrives_sends ha), hregs, hr⟩
  case loadImage =>
    rintro h l bank typ bs ⟨hl, hlane, hbank, htyp⟩ ha ⟨hfollows, hloading⟩
    refine completes_frame (f := fun d => imageFrame d (.sq l) bank typ bs) rfl (by simp [pageOk_sq l hlane, hl, hbank, htyp]) ha ?_
    rw [imageFrame_load ha bank typ bs hfollows hloading]
    exact ⟨laneOf_setLane_same _ _ _, fun k hk => laneOf_setLane_ne _ _ hk, rfl, rfl, rfl⟩
  case syncImage =>
    rintro h p bank typ bs ⟨hl, hpage, hbank, htyp⟩ ha ⟨hrole, hbase, hphase⟩
    exact exec_frame (f := fun d => imageFrame d p bank typ bs) rfl (by simp [hpage, hl, hbank, htyp]) ha
      (imageFrame_sync ha p bank typ bs hrole hbase hphase)
  case baseChunk =>
    rintro h k ok hl ha ⟨hrole, hhalt, hphase⟩
    refine completes_frame (f := fun d => baseFrame d k ok) rfl (decide_eq_true hl) ha ?_
    obtain ⟨hruns, hpaired⟩ := arrives_paired ha
    have hfollows : follows (noted s.dev h) = true := by
      unfold follows
      rw [hruns, hpaired, noted_role, hrole]
      rfl
    obtain ⟨c0, c1, hn⟩ := noted_counters s.dev h
    rw [hn] at hfollows ⊢
    exact baseFrame_facts (d := setTw s.dev { s.dev.tw with ctr0 := c0, ctr1 := c1 }) rfl hfollows hrole hhalt hphase
  case base =>
    rintro e b ⟨hfollows, hrole, hhalt, hphase, hbase, hon⟩
    have hfacts := baseInstalled_facts e b hfollows hrole hhalt hphase hon
    have hjoined : (baseInstalled s.dev e b).tw.baseOk = true := by rw [hfacts.1]
    exact ⟨exec_onDev (f := fun v d => baseJoined v d e b) rfl rfl (if_pos ⟨hbase, hjoined⟩), hfacts⟩
  case time =>
    rintro h n ns fr trim u ⟨hl, rfl⟩ ha hfollow hu
    refine completes_frame (f := fun d => timeFrame d (bp s.dev) ns fr trim) rfl (decide_eq_true hl) ha ?_
    exact timeFrame_facts (d := noted s.dev h) rfl hfollow hu
  case beat =>
    intro h b hl ha
    refine exec_frame (f := fun d => beatReceive d b) rfl (decide_eq_true hl) ha ((if_pos (arrives_paired ha)).trans ?_)
    obtain ⟨c0, c1, hn⟩ := noted_counters s.dev h
    rw [hn]
    cases hb : b.handover <;> rfl
  case spoilt =>
    rintro h n tt first seg k bank typ vals ws bs ok trim b p c ⟨hl, hseg, hk, hpage, hbank, htyp⟩ hd hc
    simp only [List.mem_cons, List.not_mem_nil, or_false] at hc
    rcases hc with rfl | rfl | rfl | rfl | rfl | rfl | rfl | rfl | rfl
    · exact exec_spoilt (f := fun d => inputFrame d n tt vals) rfl (decide_eq_true hl) hd
    · exact exec_spoilt (f := fun d => writesFrame d n first ws) rfl (decide_eq_true hl) hd
    · exact exec_spoilt (f := fun d => plialeFrame d n seg k bs) rfl (by simp [hl, hseg, Nat.lt_trans hk (by decide : 3 < 32)]) hd
    · exact exec_spoilt (f := fun d => digestReceive d n tt) rfl (decide_eq_true hl) hd
    · exact exec_spoilt (f := fun d => ctrlFrame d k) rfl (by simp [hl, hk]) hd
    · exact exec_spoilt (f := fun d => imageFrame d p bank typ bs) rfl (by simp [hpage, hl, hbank, htyp]) hd
    · exact exec_spoilt (f := fun d => baseFrame d n ok) rfl (decide_eq_true hl) hd
    · exact exec_spoilt (f := fun d => timeFrame d n tt first trim) rfl (decide_eq_true hl) hd
    · exact exec_spoilt (f := fun d => beatReceive d b) rfl (decide_eq_true hl) hd

end Sys2Proof.Machine
end

section
/-! PROOFS. Lanes that train, are trusted and are lost (R261, R262, R264), the Lantern and its witness check (R277, R279), the wires (R275, R280),
and the statement on lanes and wires. -/

namespace Sys2Proof.Machine

/-! ### Lanes (R261, R262, R264) -/

/-- A lane takes its flags. -/
theorem setTwLane_same (d : Dev) (n : Nat) (tr up retry : Bool) :
    laneTr (setTwLane d n tr up retry) n = tr ∧ laneUp (setTwLane d n tr up retry) n = up ∧ laneRetry (setTwLane d n tr up retry) n = retry := by
  unfold setTwLane laneTr laneUp laneRetry
  by_cases h : n = 0
  · simp only [if_pos h]; exact ⟨rfl, rfl, rfl⟩
  · simp only [if_neg h]; exact ⟨rfl, rfl, rfl⟩

/-- The other lane keeps its own. -/
theorem setTwLane_other (d : Dev) {n : Nat} (hn : n < 2) (tr up retry : Bool) :
    laneTr (setTwLane d n tr up retry) (1 - n) = laneTr d (1 - n) ∧ laneUp (setTwLane d n tr up retry) (1 - n) = laneUp d (1 - n) := by
  obtain rfl | rfl : n = 0 ∨ n = 1 := by omega
  · exact ⟨rfl, rfl⟩
  · exact ⟨rfl, rfl⟩

/-- A lane whose exchange has succeeded, before a sync is wanted for it: fresh keys, and the record (R261, R262). -/
def laneTrusted (d : Dev) (n : Nat) : Dev := pairLink (freshCtr (setTwLane d n true true false) n) 2 n 0

theorem laneTrusted_facts (d : Dev) {n : Nat} (hn : n < 2) :
    laneTr (laneTrusted d n) n = true ∧ laneUp (laneTrusted d n) n = true ∧ laneRetry (laneTrusted d n) n = false
      ∧ (if n = 0 then (laneTrusted d n).tw.ctr0 else (laneTrusted d n).tw.ctr1) = none ∧ laneUp (laneTrusted d n) (1 - n) = laneUp d (1 - n)
      ∧ (laneTrusted d n).tw.phase = d.tw.phase ∧ (laneTrusted d n).tw.orphan = d.tw.orphan ∧ (laneTrusted d n).tw.withdrawn = d.tw.withdrawn := by
  have htw : (laneTrusted d n).tw = (freshCtr (setTwLane d n true true false) n).tw := recorded_tw (recorded_pairLink _ _ _ _)
  unfold laneTr laneUp laneRetry
  rw [htw]
  obtain rfl | rfl : n = 0 ∨ n = 1 := by omega
  · exact ⟨rfl, rfl, rfl, rfl, rfl, rfl, rfl, rfl⟩
  · exact ⟨rfl, rfl, rfl, rfl, rfl, rfl, rfl, rfl⟩

theorem laneTrusted_kept (d : Dev) (n : Nat) : (laneTrusted d n).role = d.role ∧ (laneTrusted d n).sig = d.sig
    ∧ ∀ a, a < dbBase → rd (laneTrusted d n) a = rd d a := by
  have hrec : Recorded (freshCtr (setTwLane d n true true false) n) (laneTrusted d n) := recorded_pairLink _ _ _ _
  exact ⟨(recorded_role hrec).trans rfl, (recorded_sig hrec).trans rfl, fun a ha => (recorded_rd hrec (Or.inl ha)).trans (rd_congr rfl a)⟩

/-- A trusted lane gives an orphan, and a module that has withdrawn, a partner to be synced from (R279). -/
theorem laneAuthDone_trusted {d : Dev} {n : Nat} (hn : n < 2) (hopen : ¬(twRuns d = false ∨ laneTr d n = false ∨ laneUp d n = true))
    (hstrap : d.tw.strapErr = false) : laneAuthDone d n true false =
      if (d.role = .standby ∧ d.tw.orphan = true) ∨ (d.role = .syncing ∧ d.tw.withdrawn = true) then wantSync (laneTrusted d n) else laneTrusted d n := by
  obtain ⟨-, -, -, -, -, -, horphan, hwithdrawn⟩ := laneTrusted_facts d hn
  obtain ⟨hrole, -, -⟩ := laneTrusted_kept d n
  have hdone : laneAuthDone d n true false = if ((laneTrusted d n).role = .standby ∧ (laneTrusted d n).tw.orphan = true)
      ∨ ((laneTrusted d n).role = .syncing ∧ (laneTrusted d n).tw.withdrawn = true) then wantSync (laneTrusted d n) else laneTrusted d n :=
    (if_neg hopen).trans ((if_neg (by rw [hstrap]; simp)).trans (if_pos rfl))
  rw [hdone, hrole, horphan, hwithdrawn]

theorem laneAuthDone_failed {d : Dev} {n : Nat} (hopen : ¬(twRuns d = false ∨ laneTr d n = false ∨ laneUp d n = true)) (hstrap : d.tw.strapErr = false) :
    laneAuthDone d n false false = pairLink (bump (setTwLane d n true false true) TW_AUTH_FAIL_CNT) 3 n 0 :=
  (if_neg hopen).trans ((if_neg (by rw [hstrap]; simp)).trans (if_neg (by decide)))

/-- A wanted sync leaves the lanes as they are. -/
theorem wantSync_lane (d : Dev) (n : Nat) : laneTr (wantSync d) n = laneTr d n ∧ laneUp (wantSync d) n = laneUp d n ∧ laneRetry (wantSync d) n = laneRetry d n
    ∧ (wantSync d).tw.ctr0 = d.tw.ctr0 ∧ (wantSync d).tw.ctr1 = d.tw.ctr1 := by
  unfold laneTr laneUp laneRetry
  rw [(wantSync_facts d).1]
  exact ⟨rfl, rfl, rfl, rfl, rfl⟩

/-! ### The witness check and the wires (R275, R279) -/

/-- The counts of every segment start anew with the check. -/
theorem witnessStart_counts (d : Dev) : ∀ e ∈ (witnessStart d).pls, e.2.wr = 0 ∧ e.2.wp = 0 := by
  intro e he
  obtain ⟨p, -, rfl⟩ := List.mem_map.mp (show e ∈ d.pls.map (fun p => (p.1, { p.2 with wr := 0, wp := 0 })) from he)
  exact ⟨rfl, rfl⟩

theorem wireOk_setWire (d : Dev) {w : Nat} (b : Bool) (hw : w < 2) : wireOk (setWire d w b) w = b ∧ wireOk (setWire d w b) (1 - w) = wireOk d (1 - w) := by
  obtain rfl | rfl : w = 0 ∨ w = 1 := by omega
  · exact ⟨rfl, rfl⟩
  · exact ⟨rfl, rfl⟩

theorem wireOk_congr {d e : Dev} (h : e.tw = d.tw) (w : Nat) : wireOk e w = wireOk d w := by unfold wireOk; rw [h]

theorem wireFail_counted (d : Dev) (w : Nat) (h : pairEn d = true ∧ wireOk d w = true) : rd (wireFail d w) GL_WIRE_CNT = rd d GL_WIRE_CNT + 1 := by
  have hfail : wireFail d w = report (bump (setWire d w false) GL_WIRE_CNT) 0x0063 9 [w32 (w % 2), 1, w32 (glStat (bump (setWire d w false) GL_WIRE_CNT))] := if_pos h
  rw [hfail, recorded_rd (recorded_report _ _ _ _) (Or.inl (by decide)), rd_bump_same]
  rfl

/-- A wire healthy again is recorded, and not counted. -/
theorem recorded_wireHealthy (d : Dev) (w : Nat) (h : pairEn d = true ∧ wireOk d w = false) : Recorded (setWire d w true) (wireHealthy d w) := by
  have hheal : wireHealthy d w = report (setWire d w true) 0x0063 9 [w32 (w % 2), 2, w32 (glStat (setWire d w true))] := if_pos h
  rw [hheal]
  exact recorded_report _ _ _ _

/-! ### Channels that disagree (R280) -/

/-- The device as channels that disagree leave it before it enters Held: the train released, the copies as found, counted and recorded. -/
def disagreed (d : Dev) (a b : Bool) : Dev :=
  report (bump (setTw d { d.tw with hold := false, authA := a, authB := b }) GL_DISAGREE_CNT) 0x0064 9 [w32 (b2n a), w32 (b2n b), w32 (roleNum d.role)]

theorem authDisagree_held {d : Dev} {a b : Bool} (h : pairEn d = true ∧ a ≠ b ∧ (d.power.phase = .on ∨ d.power.phase = .boot)) :
    authDisagree d a b = enterHeld (disagreed d a b) (blkId .gl) (Config.faultCode 8) 0 := if_pos h

theorem disagreed_facts (d : Dev) (a b : Bool) : (disagreed d a b).tw = { d.tw with hold := false, authA := a, authB := b }
    ∧ (disagreed d a b).role = d.role ∧ (disagreed d a b).power = d.power ∧ rd (disagreed d a b) GL_DISAGREE_CNT = rd d GL_DISAGREE_CNT + 1
    ∧ pairEn (disagreed d a b) = pairEn d := by
  have hrec : Recorded (bump (setTw d { d.tw with hold := false, authA := a, authB := b }) GL_DISAGREE_CNT) (disagreed d a b) := recorded_report _ _ _ _
  refine ⟨?_, ?_, ?_, ?_, ?_⟩
  · rw [recorded_tw hrec, bump_tw]; rfl
  · rw [recorded_role hrec, bump_role]; rfl
  · rw [recorded_power hrec, bump_power]; rfl
  · rw [recorded_rd hrec (Or.inl (by decide)), rd_bump_same, rd_setTw]
  · unfold pairEn rdBit
    rw [recorded_rd hrec (Or.inl (by decide)), rd_bump_ne _ (by decide), rd_setTw]

/-! ### Forwarded frames that are missed (R267, log entry 44) -/

/-- A change of the pair that is counted: nothing else of the device is reached. -/
theorem counted_facts (d : Dev) (t : Twin) (c : Nat) : (bump (setTw d t) c).tw = t ∧ rd (bump (setTw d t) c) c = rd d c + 1
    ∧ (∀ a, a ≠ c → rd (bump (setTw d t) c) a = rd d a) ∧ (bump (setTw d t) c).role = d.role ∧ (bump (setTw d t) c).sig = d.sig := by
  refine ⟨rfl, ?_, fun a ha => ?_, rfl, rfl⟩
  · rw [rd_bump_same, rd_setTw]
  · rw [rd_bump_ne _ ha, rd_setTw]

theorem forwardMiss_input {d : Dev} {n : Nat} (hrole : d.role = .standby) (hnew : d.tw.counted ≠ n) :
    forwardMiss d n 0 = bump (setTw d { d.tw with counted := n }) TW_FWD_MISS_CNT :=
  if_neg (by rw [hrole]; simp [hnew])

theorem forwardMiss_reply {d : Dev} (n : Nat) (hrole : d.role = .standby) : forwardMiss d n 1 = bump (setTw d d.tw) TW_FWD_MISS_CNT :=
  if_neg (by rw [hrole]; simp)

/-- Settles O44: lanes by what their flags become, wires and channels by the record that a report leaves the rest of the device beside. -/
theorem twinLanesAreTrustedAndLost : Obligations.TwinLanesAreTrustedAndLost := by
  unfold Obligations.TwinLanesAreTrustedAndLost
  intro s
  have hopen : ∀ n, laneTr s.dev n = true → laneUp s.dev n = false → twRuns s.dev = true →
      ¬(twRuns s.dev = false ∨ laneTr s.dev n = false ∨ laneUp s.dev n = true) := fun n htr hup hruns => by rw [htr, hup, hruns]; decide
  refine ⟨?trained, ?trusted, ?strap, ?authFailed, ?retried, ?down, ?lantern, ?holder, ?wireFails, ?wireHealthy, ?disagree, ?disagreeBoot,
    ?missInput, ?missReply, ?joined, ?late⟩
  case trained =>
    intro n hn h
    refine completes_onDev (f := fun _ d => laneTrained d n) rfl (decide_eq_true hn) ?_
    rw [show laneTrained s.dev n = setTwLane s.dev n true false false from if_pos h]
    obtain ⟨htr, hup, hretry⟩ := setTwLane_same s.dev n true false false
    exact ⟨htr, hup, hretry, rfl, setTwLane_other s.dev hn true false false⟩
  case trusted =>
    rintro n hn ⟨hruns, htr, hup, hstrap⟩
    refine completes_onDev (f := fun _ d => laneAuthDone d n true false) rfl (decide_eq_true hn) ?_
    rw [laneAuthDone_trusted hn (hopen n htr hup hruns) hstrap]
    obtain ⟨htr', hup', hretry', hctr, hother, hphase, -, -⟩ := laneTrusted_facts s.dev hn
    obtain ⟨hrole, hsig, hrd⟩ := laneTrusted_kept s.dev n
    by_cases hwant : (s.dev.role = .standby ∧ s.dev.tw.orphan = true) ∨ (s.dev.role = .syncing ∧ s.dev.tw.withdrawn = true)
    · obtain ⟨hwtw, hwrole, hwsig, hwregs⟩ := wantSync_facts (laneTrusted s.dev n)
      obtain ⟨hwtr, hwup, hwretry, hwctr0, hwctr1⟩ := wantSync_lane (laneTrusted s.dev n) n
      rw [if_pos hwant, if_pos hwant, hwctr0, hwctr1]
      exact ⟨hwtr.trans htr', hwup.trans hup', hwretry.trans hretry', hctr, (wantSync_lane _ _).2.1.trans hother, by rw [hwtw],
        (rd_congr hwregs _).trans (hrd _ (by decide)), hwrole.trans hrole, hwsig.trans hsig⟩
    · rw [if_neg hwant, if_neg hwant]
      exact ⟨htr', hup', hretry', hctr, hother, hphase, hrd _ (by decide), hrole, hsig⟩
  case strap =>
    rintro n ok hn ⟨hruns, htr, hup⟩
    refine completes_onDev (f := fun _ d => laneAuthDone d n ok true) rfl (decide_eq_true hn) ?_
    rw [show laneAuthDone s.dev n ok true = setTw (setTwLane s.dev n true false false) { (setTwLane s.dev n true false false).tw with strapErr := true } from
      (if_neg (hopen n htr hup hruns)).trans (if_pos (Or.inl rfl))]
    obtain ⟨-, hup', hretry'⟩ := setTwLane_same s.dev n true false false
    exact ⟨hup', hretry', rfl, rfl⟩
  case authFailed =>
    rintro n hn ⟨hruns, htr, hup, hstrap⟩
    refine completes_onDev (f := fun _ d => laneAuthDone d n false false) rfl (decide_eq_true hn) ?_
    rw [laneAuthDone_failed (hopen n htr hup hruns) hstrap]
    have hrec := recorded_pairLink (bump (setTwLane s.dev n true false true) TW_AUTH_FAIL_CNT) 3 n 0
    obtain ⟨hup', htr', hretry'⟩ := recorded_laneUp hrec n
    obtain ⟨hother, -, -⟩ := recorded_laneUp hrec (1 - n)
    obtain ⟨hltr, hlup, hlretry⟩ := setTwLane_same s.dev n true false true
    refine ⟨htr'.trans hltr, hup'.trans hlup, hretry'.trans hlretry, ?_, hother.trans (setTwLane_other s.dev hn true false true).2, (recorded_role hrec).trans rfl,
      (recorded_sig hrec).trans rfl⟩
    rw [recorded_rd hrec (Or.inl (by decide)), rd_bump_same]
    rfl
  case retried =>
    rintro n ⟨hn, hretry⟩
    refine completes_onDev (f := fun _ d => authRetry d n) rfl (decide_eq_true hn) ?_
    rw [show authRetry s.dev n = setTwLane s.dev n (laneTr s.dev n) false false from if_pos hretry]
    obtain ⟨htr, hup, hretry'⟩ := setTwLane_same s.dev n (laneTr s.dev n) false false
    exact ⟨htr, hup, hretry', (setTwLane_other s.dev hn _ _ _).2, rfl⟩
  case down =>
    intro n hn h
    refine completes_onDev (f := fun _ d => twinLaneDown d n) rfl (decide_eq_true hn) ?_
    rw [show twinLaneDown s.dev n = pairLink (setTwLane s.dev n false false false) 1 n 0 from if_pos h]
    have hrec := recorded_pairLink (setTwLane s.dev n false false false) 1 n 0
    obtain ⟨hup, htr, hretry⟩ := recorded_laneUp hrec n
    obtain ⟨houp, hotr, -⟩ := recorded_laneUp hrec (1 - n)
    obtain ⟨hltr, hlup, hlretry⟩ := setTwLane_same s.dev n false false false
    obtain ⟨hltr', hlup'⟩ := setTwLane_other s.dev hn false false false
    exact ⟨htr.trans hltr, hup.trans hlup, hretry.trans hlretry, hotr.trans hltr', houp.trans hlup', (recorded_role hrec).trans rfl,
      (recorded_sig hrec).trans rfl, fun a ha => (recorded_rd hrec (Or.inl ha)).trans (rd_congr rfl a)⟩
  case lantern =>
    intro h
    refine completes_onDev (f := fun _ d => lanternFailure d) rfl rfl ?_
    obtain ⟨x, hx⟩ : ∃ x, x = setTw s.dev { s.dev.tw with failure := true } := ⟨_, rfl⟩
    have hfail : lanternFailure s.dev = if s.dev.role = .standby ∧ s.dev.tw.holder.isSome = true ∧ s.dev.tw.witness = none then witnessStart x else x := by
      rw [hx]; exact if_pos h
    rw [hfail]
    by_cases hcheck : s.dev.role = .standby ∧ s.dev.tw.holder.isSome = true ∧ s.dev.tw.witness = none
    · obtain ⟨hwtw, hwregs, hwrole, hwsig⟩ := witnessStart_facts x
      simp only [if_pos hcheck, hwtw, hwregs, hwrole, hwsig]
      subst hx
      exact ⟨rfl, rfl, rfl, rfl, congrArg some (bp_setTw _ _), witnessStart_counts _⟩
    · simp only [if_neg hcheck]
      subst hx
      exact ⟨rfl, rfl, rfl, rfl, rfl, rfl⟩
  case holder =>
    intro code hcode h
    refine exec_onDev (f := fun _ d => holderDecoded d code) rfl (decide_eq_true hcode) ((if_pos h).trans ?_)
    rw [Nat.mod_eq_of_lt hcode]
  case wireFails =>
    rintro w hw ⟨hen, hok⟩
    refine completes_onDev (f := fun _ d => wireFail d w) rfl (decide_eq_true hw) ?_
    obtain ⟨htw, hrole, hsig, hrd⟩ := wireFail_facts s.dev w hen hok
    obtain ⟨hsame, hother⟩ := wireOk_setWire s.dev false hw
    exact ⟨(wireOk_congr htw w).trans hsame, (wireOk_congr htw (1 - w)).trans hother, wireFail_counted s.dev w ⟨hen, hok⟩, hrole, hsig, hrd⟩
  case wireHealthy =>
    intro w hw h
    refine completes_onDev (f := fun _ d => wireHealthy d w) rfl (decide_eq_true hw) ?_
    have hrec := recorded_wireHealthy s.dev w h
    obtain ⟨hsame, hother⟩ := wireOk_setWire s.dev true hw
    exact ⟨(wireOk_congr (recorded_tw hrec) w).trans hsame, (wireOk_congr (recorded_tw hrec) (1 - w)).trans hother, (recorded_role hrec).trans rfl,
      (recorded_sig hrec).trans rfl, fun a ha => (recorded_rd hrec (Or.inl ha)).trans (rd_congr rfl a)⟩
  case disagree =>
    rintro a b ⟨hen, hne, hon⟩
    refine completes_onDev (f := fun _ d => authDisagree d a b) rfl rfl ?_
    rw [authDisagree_held ⟨hen, hne, Or.inl hon⟩]
    obtain ⟨htw, -, hpower, hcnt, hpair⟩ := disagreed_facts s.dev a b
    obtain ⟨hheld, hhold, ha, hb, hrole, hrd⟩ := enterHeld_on (disagreed s.dev a b) (blkId .gl) (Config.faultCode 8) 0 (by rw [hpower]; exact hon) (hpair.trans hen)
    rw [htw] at ha hb
    have hcopies : (a && !b) = a ∧ (b && !a) = b := by cases a <;> cases b <;> simp at hne ⊢
    exact ⟨hheld.trans (by rw [hpower]), hhold, ha.trans hcopies.1, hb.trans hcopies.2, (hrd _ (by decide) (by decide) (by decide)).trans hcnt, hrole⟩
  case disagreeBoot =>
    rintro a b ⟨hen, hne, hboot⟩
    refine completes_onDev (f := fun _ d => authDisagree d a b) rfl rfl ?_
    rw [authDisagree_held ⟨hen, hne, Or.inr hboot⟩]
    obtain ⟨htw, hrole, hpower, hcnt, -⟩ := disagreed_facts s.dev a b
    generalize disagreed s.dev a b = x at *
    rw [← hpower] at hboot
    rw [show enterHeld x (blkId .gl) (Config.faultCode 8) 0 =
      { x with power := { x.power with heldPending := x.power.heldPending ++ [⟨blkId .gl, w32 (Config.faultCode 8), w32 0⟩] } } from if_pos hboot]
    dsimp only
    rw [htw, hrole, ← hpower]
    exact ⟨hboot, List.length_append, rfl, rfl, rfl, (rd_congr rfl _).trans hcnt, rfl⟩
  case missInput =>
    rintro hrole ⟨hnone, hnew⟩
    refine completes_onDev (f := fun _ d => forwardMiss d (bp d + 1) (missKind d (bp d + 1))) rfl rfl ?_
    rw [show missKind s.dev (bp s.dev + 1) = 0 from if_pos ⟨by rw [hnone]; rfl, hnew⟩, forwardMiss_input hrole hnew]
    obtain ⟨htw, hcnt, hrd, -, hsig⟩ := counted_facts s.dev { s.dev.tw with counted := bp s.dev + 1 } TW_FWD_MISS_CNT
    exact ⟨hcnt, htw, hrd, hsig⟩
  case missReply =>
    intro hrole hthere
    refine completes_onDev (f := fun _ d => forwardMiss d (bp d + 1) (missKind d (bp d + 1))) rfl rfl ?_
    have hkind : missKind s.dev (bp s.dev + 1) = 1 := by
      refine if_neg ?_
      rintro ⟨hnone, hnew⟩
      rcases hthere with hsome | hold
      · rw [Option.isNone_iff_eq_none] at hnone
        rw [hnone] at hsome
        exact absurd hsome (by decide)
      · exact hnew hold
    rw [hkind, forwardMiss_reply _ hrole]
    obtain ⟨htw, hcnt, hrd, -, hsig⟩ := counted_facts s.dev s.dev.tw TW_FWD_MISS_CNT
    exact ⟨hcnt, htw, hrd, hsig⟩
  case joined =>
    rintro ⟨hrole, hphase, hframes⟩
    have hcaught : caughtUp s.dev = true := List.all_eq_true.mpr fun f hf => decide_eq_true (hframes f hf)
    exact exec_onDev (f := fun _ d => catchupJoined d) rfl rfl (if_pos ⟨hrole, hphase, hcaught⟩)
  case late =>
    intro h
    refine completes_onDev (f := fun _ d => catchupTimeout d) rfl rfl ?_
    rw [show catchupTimeout s.dev = syncFail s.dev 3 from if_pos h]
    exact syncFail_facts s.dev 3

end Sys2Proof.Machine
end

section
/-! PROOFS. The Guyline, the witness check's end, the twin commands and the handover (R273, R274, R276, R279, R285 to R289), and the statement on
them. -/

namespace Sys2Proof.Machine

/-! ### The line and the witness check (R274, R276, R279) -/

/-- A line lost leaves no holder; a standby with a failed wire becomes an orphan, with a record, and nothing else changes (R276). -/
theorem holderLost_facts {d : Dev} (h : pairEn d = true ∧ (d.tw.holder.isSome = true ∨ d.tw.hold = true)) :
    (holderLost d).tw = { d.tw with holder := none, idle := true, hold := false, won := false, orphan := d.tw.orphan || (d.role == .standby && !integOk d) }
      ∧ (holderLost d).role = d.role ∧ (holderLost d).sig = d.sig ∧ ∀ a, a < dbBase → rd (holderLost d) a = rd d a := by
  obtain ⟨x, hx⟩ : ∃ x, x = setTw d { d.tw with holder := none, idle := true, hold := false, won := false } := ⟨_, rfl⟩
  have hlost : holderLost d = if d.role = .standby ∧ integOk d = false then pairLink (setTw x { x.tw with orphan := true }) 7 0 0 else x := by
    rw [hx]; exact if_pos h
  rw [hlost]
  by_cases hc : d.role = .standby ∧ integOk d = false
  · have hrec := recorded_pairLink (setTw x { x.tw with orphan := true }) 7 0 0
    have horphan : (d.tw.orphan || (d.role == .standby && !integOk d)) = true := by rw [hc.1, hc.2]; exact Bool.or_true _
    rw [if_pos hc, horphan, recorded_tw hrec, recorded_role hrec, recorded_sig hrec]
    subst hx
    exact ⟨rfl, rfl, rfl, fun a ha => (recorded_rd hrec (Or.inl ha)).trans (rd_congr rfl a)⟩
  · have horphan : (d.role == .standby && !integOk d) = false := by
      rw [Bool.eq_false_iff]
      intro hb
      rw [Bool.and_eq_true, Bool.not_eq_true', beq_iff_eq] at hb
      exact hc hb
    rw [if_neg hc, horphan, Bool.or_false, hx]
    exact ⟨rfl, rfl, rfl, fun a _ => rd_setTw _ _ _⟩

/-- The device as the end of a witness check leaves the pair: ORPHAN or WITHDRAWN (Table 10-5). -/
def witnessed (d : Dev) (orphan : Bool) : Dev :=
  setTw d { d.tw with witness := none, orphan := d.tw.orphan || orphan, withdrawn := d.tw.withdrawn || !orphan }

/-- A module that heard replies and no partner's copy in them is an orphan; which of the two it became is recorded. -/
theorem recorded_witnessEnd {d : Dev} {b r p : Nat} (hw : d.tw.witness = some b) (hr : r = (d.pls.map (fun e => e.2.wr)).foldl (· + ·) 0)
    (hp : p = (d.pls.map (fun e => e.2.wp)).foldl (· + ·) 0) : Recorded (witnessed d (decide (0 < r ∧ p = 0))) (witnessEnd d) := by
  unfold witnessEnd witnessed
  rw [hw]
  dsimp only
  rw [← hr, ← hp]
  by_cases hc : 0 < r ∧ p = 0
  · rw [if_pos hc, decide_eq_true hc, Bool.or_true, Bool.not_true, Bool.or_false]
    exact recorded_pairLink _ _ _ _
  · rw [if_neg hc, decide_eq_false hc, Bool.or_false, Bool.not_false, Bool.or_true]
    exact recorded_pairLink _ _ _ _

/-! ### The commands of the Guyline (R276, R289) -/

/-- FORCE_SEIZE is given its key, in a role that may force, on a free line (R276). -/
def mayForce (d : Dev) (key : Nat) : Prop :=
  key = 0x5EE5 ∧ (d.role = .standby ∨ d.role = .syncing) ∧ d.power.phase ≠ .held ∧ d.tw.holder = none ∧ pairEn d = true

theorem mayForce_issued (d : Dev) (key : Nat) (v : W32) : mayForce (issued d .gl 0x108 v) key ↔ mayForce d key := by
  unfold mayForce
  rw [pairEn_issued d v .gl 0x108 (by decide), issued_role, issued_power, issued_tw]

/-! ### The commands of the twin page (R285, R286, R288) -/

/-- A command of the twin page finds the other registers, and so the pair and the conditions of a return, as they were. -/
theorem pairEn_twIssued (d : Dev) (v : W32) : pairEn (issued d .tw 0x104 v) = pairEn d := pairEn_issued d v .tw 0x104 (by decide)

theorem pref_twIssued (d : Dev) (v : W32) : pref (issued d .tw 0x104 v) = pref d := by
  unfold pref rdBit
  rw [rd_issued_ne _ _ _ _ _ (by decide)]

theorem mayReturn_twIssued (d : Dev) (v : W32) : mayReturn (issued d .tw 0x104 v) = mayReturn d := by
  unfold mayReturn autoReturn rdBit integOk
  rw [pref_twIssued, rd_issued_ne _ _ _ _ _ (by decide), issued_role, issued_tw]

/-- A twin command whose code has no meaning in the module's role is refused (Table 10-8). -/
theorem completes_twRefused {c : Instr} {s : State} {v : W32} {f : Dev → Dev} (he : exec c s = onDev true (fun _ d => hostCmd d .tw 0x104 v f) s)
    (ha : admits s.dev .tw 0x104 = true) (hf : f (issued s.dev .tw 0x104 v) = twRefuse (issued s.dev .tw 0x104 v)) :
    Completes c s (fun d => rdN d (twBase + ERR_CODE) % 65536 = 0x0A01 ∧ rd d (twBase + ERR_ADDR) = w32 TW_CMD ∧ d.tw = s.dev.tw ∧ d.role = s.dev.role) :=
  completes_onDev (f := fun _ d => hostCmd d .tw 0x104 v f) he rfl (hostCmd_errs s.dev .tw 0x104 v f 0x0A01 TW_CMD ha (by decide) (by decide) hf)

/-! ### The handover (R287) -/

/-- At BP h the old authority has stopped its train and shows STANDBY. -/
theorem handoverAt_authority {d : Dev} {n : Nat} (hh : d.tw.handover = some n) (hrole : d.role = .authority) : handoverAt d n =
    setRole (setTw d { d.tw with hold := false, idle := true, authA := false, authB := false, standbyAt := n, holdDone := false, asked := false }) .standby 5 :=
  (if_neg (not_not_intro hh)).trans (if_pos hrole)

theorem handoverAt_preferred {d : Dev} {n : Nat} (hh : d.tw.handover = some n) (h : d.role = .standby ∧ pref d = true ∧ d.tw.hold = false) :
    handoverAt d n = setTw d { d.tw with seizing := true, holder := none, idle := true } :=
  (if_neg (not_not_intro hh)).trans ((if_neg (by rw [h.1]; decide)).trans (if_pos h))

/-- A handover that fails is abandoned, with a record: the preferred unit stops seizing and waits again, the other seizes its line back (R287). -/
theorem handoverTimeout_facts {d : Dev} (hh : d.tw.handover = some (bp d)) (hrole : d.role = .standby) (hhold : d.tw.hold = false) (hfree : d.tw.holder = none) :
    (handoverTimeout d).tw = (if pref d then { d.tw with handover := none, asked := false, seizing := false, standbyAt := bp d, holdDone := false }
        else { d.tw with handover := none, asked := false, seizing := true })
      ∧ (handoverTimeout d).role = d.role ∧ (handoverTimeout d).sig = d.sig ∧ ∀ a, a < dbBase → rd (handoverTimeout d) a = rd d a := by
  obtain ⟨x, hx⟩ : ∃ x, x = pairLink (setTw d { d.tw with handover := none, asked := false }) 5 0 0 := ⟨_, rfl⟩
  have hrec : Recorded (setTw d { d.tw with handover := none, asked := false }) x := hx ▸ recorded_pairLink _ _ _ _
  have hrd : ∀ a, a < dbBase → rd x a = rd d a := fun a ha => (recorded_rd hrec (Or.inl ha)).trans (rd_setTw _ _ _)
  have hpref : pref x = pref d := by unfold pref rdBit; rw [hrd _ (by decide)]
  have hbp : bp x = bp d := by unfold bp rd64; rw [hrd _ (by decide), hrd _ (by decide)]
  have hend : handoverTimeout d = if pref x then setTw x { x.tw with seizing := false, standbyAt := bp x, holdDone := false } else setTw x { x.tw with seizing := true } := by
    unfold handoverTimeout
    rw [hh, hx]
    exact if_neg (by rw [hrole, hhold, hfree]; simp)
  have hkept : ∀ t, (setTw x t).role = d.role ∧ (setTw x t).sig = d.sig ∧ ∀ a, a < dbBase → rd (setTw x t) a = rd d a := fun t =>
    ⟨(recorded_role hrec).trans rfl, (recorded_sig hrec).trans rfl, fun a ha => (rd_setTw _ _ _).trans (hrd a ha)⟩
  rw [hend, hpref, hbp, recorded_tw hrec]
  cases pref d
  · exact ⟨rfl, hkept _⟩
  · exact ⟨rfl, hkept _⟩

/-- Settles O45: events of the line by the operation's one case, commands on the device as issued, refusals by the error that the page shows. -/
theorem guylineSeizesReleasesAndHandsOver : Obligations.GuylineSeizesReleasesAndHandsOver := by
  unfold Obligations.GuylineSeizesReleasesAndHandsOver
  intro s
  refine ⟨?seize, ?mayNotSeize, ?won, ?lost, ?holderLost, ?force, ?forceRefused, ?retest, ?witnessEnds, ?release, ?resync, ?clearHalt, ?returnNow,
    ?wrongRole, ?holdOff, ?handover, ?handoverPreferred, ?abandoned⟩
  case seize => exact fun h => exec_onDev (f := fun _ d => seize d) rfl rfl (if_pos h)
  case mayNotSeize => exact fun h => exec_onDev (f := fun _ d => seize d) (d := s.dev) rfl rfl (if_neg (ne_true_of_eq_false h))
  case won =>
    intro h
    refine completes_onDev (f := fun _ d => seizureWon d) rfl rfl ?_
    rw [show seizureWon s.dev = bump (setTw s.dev { s.dev.tw with
      seizing := false, hold := true, won := true, lostSz := false, idle := false, holder := none, authA := true, authB := true }) GL_SEIZE_CNT from if_pos h]
    exact counted_facts s.dev _ GL_SEIZE_CNT
  case lost =>
    intro h
    refine completes_onDev (f := fun _ d => seizureLost d) rfl rfl ?_
    rw [show seizureLost s.dev = bump (setTw s.dev { s.dev.tw with seizing := false, lostSz := true }) GL_LOSS_CNT from if_pos h]
    exact counted_facts s.dev _ GL_LOSS_CNT
  case holderLost => exact fun h => completes_onDev (f := fun _ d => holderLost d) rfl rfl (holderLost_facts h)
  case force =>
    rintro key ⟨rfl, ha⟩ hmay
    have hseize : glForce (issued s.dev .gl 0x108 (w32 (1 + 65536 * 0x5EE5))) 0x5EE5 = setTw (issued s.dev .gl 0x108 (w32 (1 + 65536 * 0x5EE5)))
        { s.dev.tw with seizing := true, lostSz := false } := if_pos ((mayForce_issued _ _ _).mpr ⟨rfl, hmay⟩)
    refine completes_host (f := fun _ d => glForce d 0x5EE5) rfl rfl ha (by decide) ?_ ?_
    · rw [hseize, rd_setTw]
    · rw [hseize]; exact ⟨rfl, rfl, rfl⟩
  case forceRefused =>
    rintro key ⟨hkey, ha⟩ hnot
    have herr : glForce (issued s.dev .gl 0x108 (w32 (1 + 65536 * key))) key = err (issued s.dev .gl 0x108 (w32 (1 + 65536 * key))) .gl 0x0A11 GL_CMD :=
      if_neg (fun h => hnot ((mayForce_issued _ _ _).mp h))
    exact completes_onDev (f := fun _ d => hostCmd d .gl 0x108 (w32 (1 + 65536 * key)) (fun d => glForce d key)) rfl (decide_eq_true hkey)
      (hostCmd_errs s.dev .gl 0x108 (w32 (1 + 65536 * key)) (fun d => glForce d key) 0x0A11 GL_CMD ha (by decide) (by decide) herr)
  case retest =>
    rintro a b ⟨ha, hen⟩
    have hen' := (pairEn_issued s.dev 2 .gl 0x108 (by decide)).trans hen
    obtain ⟨hwa, hwb, hrole, hsig, hrd⟩ := wireTest_facts (issued s.dev .gl 0x108 2) a b hen'
    have htest : glRetest (issued s.dev .gl 0x108 2) a b = wireTest (issued s.dev .gl 0x108 2) a b := if_pos hen'
    refine completes_host (f := fun _ d => glRetest d a b) rfl rfl ha (by decide) ?_ ?_
    · rw [htest]; exact hrd _ (by decide) (by decide)
    · rw [htest]; exact ⟨hwa, hwb, hrole.trans rfl, hsig.trans rfl⟩
  case witnessEnds =>
    rintro b r p ⟨hw, hr, hp⟩
    have hrec := recorded_witnessEnd hw hr hp
    exact completes_onDev (f := fun _ d => witnessEnd d) rfl rfl ⟨recorded_tw hrec, (recorded_role hrec).trans rfl, (recorded_sig hrec).trans rfl,
      fun a ha => (recorded_rd hrec (Or.inl ha)).trans (rd_congr rfl a)⟩
  case release =>
    rintro ⟨ha, hrole⟩
    have hsend : twRelease (issued s.dev .tw 0x104 1) = twSend (setTw (issued s.dev .tw 0x104 1) { s.dev.tw with asked := true }) (.ctrl 2) := if_pos hrole
    refine completes_host (f := fun _ d => twRelease d) rfl rfl ha (by decide) ?_ ?_
    · rw [hsend, rd_twSend, rd_setTw]
    · have hen : pairEn (setTw (issued s.dev .tw 0x104 1) { s.dev.tw with asked := true }) = pairEn s.dev := pairEn_twIssued s.dev 1
      rw [hsend, twSend_tw, twSend_role, twSend_sig, hen]
      exact ⟨rfl, hrole, rfl⟩
  case resync =>
    rintro ⟨ha, hrole⟩
    obtain ⟨x, hx⟩ : ∃ x, x = setTw (issued s.dev .tw 0x104 2) { s.dev.tw with halt := false, fails := 0 } := ⟨_, rfl⟩
    have hwant : twResync (issued s.dev .tw 0x104 2) = wantSync x := hx ▸ if_pos hrole
    obtain ⟨hwtw, hwrole, hwsig, hwregs⟩ := wantSync_facts x
    refine completes_host (f := fun _ d => twResync d) rfl rfl ha (by decide) ?_ ?_
    · rw [hwant, rd_congr hwregs, hx, rd_setTw]
    · have hen : pairEn x = pairEn s.dev := hx ▸ pairEn_twIssued s.dev 2
      rw [hwant, hwtw, hwrole, hwsig, hen, hx]
      exact ⟨rfl, rfl, rfl⟩
  case clearHalt =>
    rintro ⟨ha, hrole⟩
    have hclear : twClearHalt (issued s.dev .tw 0x104 3) = setTw (issued s.dev .tw 0x104 3) { s.dev.tw with halt := false, fails := 0 } := if_pos hrole
    refine completes_host (f := fun _ d => twClearHalt d) rfl rfl ha (by decide) ?_ ?_
    · rw [hclear, rd_setTw]
    · rw [hclear]; exact ⟨rfl, hrole, rfl⟩
  case returnNow =>
    rintro ⟨ha, hrole, hpref⟩
    have hask : twReturnNow (issued s.dev .tw 0x104 4) = askReturn (setTw (issued s.dev .tw 0x104 4) { (issued s.dev .tw 0x104 4).tw with askNow := true }) :=
      if_pos ⟨hrole, (pref_twIssued s.dev 4).trans hpref⟩
    obtain ⟨hasked, hnow, -, hregs, hr, hsig⟩ := askReturn_facts (d := issued s.dev .tw 0x104 4) rfl
    rw [mayReturn_twIssued] at hasked hnow
    refine completes_host (f := fun _ d => twReturnNow d) rfl rfl ha (by decide) ?_ ?_
    · rw [hask, rd_congr hregs]
    · rw [hask]; exact ⟨hasked, hnow, hr.trans hrole, hsig.trans rfl⟩
  case wrongRole =>
    rintro c ha (⟨rfl, h⟩ | ⟨rfl, h⟩ | ⟨rfl, h⟩ | ⟨rfl, h⟩)
    · exact completes_twRefused (f := twRelease) rfl ha (if_neg h)
    · exact completes_twRefused (f := twResync) rfl ha (if_neg h)
    · exact completes_twRefused (f := twClearHalt) rfl ha (if_neg h)
    · exact completes_twRefused (f := twReturnNow) rfl ha (if_neg (by rw [pref_twIssued]; exact h))
  case holdOff => exact fun h => exec_onDev (f := fun _ d => holdoffExpired d) rfl rfl (if_pos h)
  case handover =>
    rintro ⟨hh, hrole⟩
    refine completes_onDev (f := fun _ d => handoverAt d (bp d + 1)) rfl rfl ?_
    rw [handoverAt_authority hh hrole]
    obtain ⟨hr, htw, hcnt, hsig, -, -⟩ := setRole_facts (setTw s.dev { s.dev.tw with
      hold := false, idle := true, authA := false, authB := false, standbyAt := bp s.dev + 1, holdDone := false, asked := false }) .standby 5 (by rw [setTw_role, hrole]; decide)
    exact ⟨hr, htw, hcnt.trans (by rw [rd_setTw]), hsig⟩
  case handoverPreferred =>
    rintro ⟨hh, h⟩
    exact exec_onDev (f := fun _ d => handoverAt d (bp d + 1)) rfl rfl (handoverAt_preferred hh h)
  case abandoned =>
    rintro ⟨hh, hrole, hhold, hfree⟩
    obtain ⟨htw, hr, hsig, hrd⟩ := handoverTimeout_facts hh hrole hhold hfree
    exact completes_onDev (f := fun _ d => handoverTimeout d) rfl rfl ⟨htw, hr.trans hrole, hsig, hrd⟩

end Sys2Proof.Machine
end

section
/-! PROOFS. Resets by their sources, refused reset commands and the return of VIN (R290 to R292, R297, R307, R308, R438), and the statement on
them. -/

namespace Sys2Proof.Machine

/-! ### Reset commands (R438) -/

/-- What a reset command writes: its code in the low half of PWR_CMD and its key in the high half. -/
def resetWord (code key : Nat) : W32 := w32 (code + 65536 * key)

/-- The value of an issued reset command is not the reset value of PWR_CMD, which a reset leaves in it. -/
theorem resetWord_ne_reset : ∀ code ∈ [1, 2], resetOf PWR_CMD ≠ resetWord code 0xC01D &&& wpBits .pwr 0x104 := by decide +kernel

theorem warmKept_pwrCmd : warmKept PWR_CMD = false := by decide +kernel
theorem coldKept_pwrCmd : coldKept PWR_CMD = false := by decide +kernel

/-- A reset that follows a command puts PWR_CMD back. -/
theorem WarmlyReset.pwrCmd {src : Nat} {d e : Dev} (h : WarmlyReset src d e) : rd e PWR_CMD = resetOf PWR_CMD := by
  obtain ⟨-, -, -, -, -, -, -, -, hreg, -⟩ := h
  rw [hreg _ (by decide) (by decide) (by decide), warmKept_pwrCmd, if_neg (by decide)]

theorem ColdlyReset.pwrCmd {src : Nat} {d e : Dev} (h : ColdlyReset src d e) : rd e PWR_CMD = resetOf PWR_CMD := by
  obtain ⟨-, -, -, -, -, -, -, -, -, -, -, -, -, hreg⟩ := h
  rw [hreg _ (by decide) (.inl (by decide)) (by decide) (by decide), coldKept_pwrCmd, if_neg (by decide)]

theorem resettable_issued (d : Dev) (p : Page) (off : Nat) (v : W32) : resettable (issued d p off v) = resettable d := by
  unfold resettable powered
  rw [issued_power]

/-- A command of the power page whose effect is a reset completes with it: no error stands where the reset has put PWR_CMD back. -/
theorem completes_resetCommand {c : Instr} {s : State} {code : Nat} {f : Dev → Dev} {e : Dev} {post : Dev → Prop} (hc : code ∈ [1, 2])
    (he : exec c s = onDev true (fun _ d => hostCmd d .pwr 0x104 (resetWord code 0xC01D) f) s) (ha : admits s.dev .pwr 0x104 = true)
    (hf : f (issued s.dev .pwr 0x104 (resetWord code 0xC01D)) = e) (hreg : rd e PWR_CMD = resetOf PWR_CMD) (hp : post e) : Completes c s post := by
  have hgone : rd (f (issued s.dev .pwr 0x104 (resetWord code 0xC01D))) (pageBase .pwr + 0x104) ≠ resetWord code 0xC01D &&& wpBits .pwr 0x104 := by
    rw [hf, show pageBase .pwr + 0x104 = PWR_CMD from rfl, hreg]
    exact resetWord_ne_reset code hc
  refine completes_onDev (f := fun _ d => hostCmd d .pwr 0x104 (resetWord code 0xC01D) f) he rfl ?_
  rw [hostCmd_gone _ _ _ _ _ ha hgone, hf]
  exact hp

/-- A reset command with another key is refused, and resets nothing. -/
theorem completes_wrongKey {c : Instr} {s : State} {v : W32} {ok : Bool} {f : Dev → Dev} (he : exec c s = onDev ok (fun _ d => hostCmd d .pwr 0x104 v f) s)
    (hok : ok = true) (ha : admits s.dev .pwr 0x104 = true) (hf : ∀ d, f d = err d .pwr 0x1411 PWR_CMD) : Completes c s (Refused .pwr 0x1411 PWR_CMD s.dev) :=
  completes_onDev (f := fun _ d => hostCmd d .pwr 0x104 v f) he hok (hostCmd_refused _ _ _ _ _ _ _ ha (by decide) (by decide) (by decide) (hf _))

/-- Without power a reset finds nothing to end. -/
theorem warmReset_unpowered {d : Dev} (src : Nat) (h : resettable d = false) : warmReset d src = d := if_pos h
theorem coldReset_unpowered {d : Dev} (src : Nat) (h : resettable d = false) : coldReset d src = d := if_pos h

/-! ### The return of VIN (R297, R439) -/

/-- The counts of the keep-alive domain as VIN finds them: those of MRAM where the domain has lost them (R439). -/
def countsBack (d : Dev) (ka : Nat) : Dev :=
  if d.power.phase = .off then
    wrFld (wrN (wr64 (wr64 d PWR_KA_RTC 0) PWR_OPT_MS d.power.kaOpt) PWR_PCC d.power.kaPcc) HLTH_INSERT 15 0 d.power.kaIns
  else wr64 d PWR_KA_RTC ((rd64 d PWR_KA_RTC + ka) % 2 ^ 64)

theorem vinRise_eq {d : Dev} (ka : Nat) (h : powered d = false ∧ d.power.pres = true) :
    vinRise d ka = setPow (wrN (countsBack d ka) PWR_PCC ((pcc (countsBack d ka) + 1) % 2 ^ 24))
      { d.power with phase := .boot, kaLost := decide (d.power.phase = .off), fail := .no } := by
  unfold vinRise countsBack
  rw [if_pos h]
  by_cases hoff : d.power.phase = .off
  · simp only [hoff, decide_true, if_true, wrN_power, wrFld_power, wr64_power]
  · simp only [hoff, decide_false, Bool.false_eq_true, if_false, wrN_power, wr64_power]

theorem countsBack_keeps (d : Dev) (ka : Nat) : (countsBack d ka).role = d.role ∧ (countsBack d ka).sig = d.sig ∧ (countsBack d ka).jn = d.jn := by
  unfold countsBack
  split <;> simp

theorem rd64_wrFld_ne (d : Dev) {a b : Nat} (hi lo v : Nat) (h : b ≠ a) (h' : b + 4 ≠ a) : rd64 (wrFld d a hi lo v) b = rd64 d b :=
  rd64_wr_ne d _ h h'

/-- KA_RTC has run on through the loss, or begins at 0; PCC is the count of the domain, or its copy in MRAM. -/
theorem countsBack_counts (d : Dev) (ka : Nat) :
    rd64 (countsBack d ka) PWR_KA_RTC = (if d.power.phase = .off then 0 else (rd64 d PWR_KA_RTC + ka) % 2 ^ 64)
      ∧ pcc (countsBack d ka) = (if d.power.phase = .off then d.power.kaPcc % 2 ^ 32 else pcc d) := by
  unfold countsBack pcc rdN
  by_cases hoff : d.power.phase = .off
  · simp only [if_pos hoff]
    constructor
    · rw [rd64_wrFld_ne _ _ _ _ (by decide) (by decide), rd64_wrN_ne _ _ (by decide) (by decide), rd64_wr64_ne _ _ (by decide), rd64_wr64,
        Nat.zero_mod]
    · rw [rd_wrFld_ne _ _ _ _ (by decide), rd_wrN_same, w32_toNat_mod]
  · simp only [if_neg hoff]
    constructor
    · rw [rd64_wr64, Nat.mod_mod]
    · rw [rd_wr64_ne _ _ (by decide) (by decide)]

theorem vinRise_facts {d : Dev} (ka : Nat) (h : powered d = false ∧ d.power.pres = true) :
    (vinRise d ka).power = { d.power with phase := .boot, kaLost := decide (d.power.phase = .off), fail := .no }
      ∧ rd64 (vinRise d ka) PWR_KA_RTC = (if d.power.phase = .off then 0 else (rd64 d PWR_KA_RTC + ka) % 2 ^ 64)
      ∧ pcc (vinRise d ka) = ((if d.power.phase = .off then d.power.kaPcc else pcc d) + 1) % 2 ^ 24
      ∧ (vinRise d ka).role = d.role ∧ (vinRise d ka).sig = d.sig ∧ (vinRise d ka).jn = d.jn := by
  obtain ⟨hrole, hsig, hjn⟩ := countsBack_keeps d ka
  obtain ⟨hrtc, hpcc⟩ := countsBack_counts d ka
  rw [vinRise_eq ka h]
  refine ⟨rfl, ?_, ?_, hrole, hsig, hjn⟩
  · rw [rd64_setPow, rd64_wrN_ne _ _ (by decide) (by decide), hrtc]
  · unfold pcc rdN at hpcc ⊢
    rw [rd_setPow, rd_wrN_same, w32_toNat_mod, hpcc]
    split <;> omega

/-! ### Resets -/

/-- Settles O47: each source by its reset of the device, a reset command on the device as issued, a wrong key by its error. -/
theorem resetsBlankTheModule : Obligations.ResetsBlankTheModule := by
  unfold Obligations.ResetsBlankTheModule
  intro s
  refine ⟨?warm, ?brownout, ?noBrownout, ?warmCommand, ?cold, ?coldCommand, ?wrongKey, ?unpowered, ?vinReturns, ?noReturn⟩
  case warm =>
    rintro c src ⟨hc, h⟩
    have hw : ∀ n, WarmlyReset n s.dev (warmReset s.dev n) := fun n => warmlyReset s.dev n h
    simp only [List.mem_cons, Prod.mk.injEq, List.not_mem_nil, or_false] at hc
    rcases hc with ⟨rfl, rfl⟩ | ⟨rfl, rfl⟩ | ⟨rfl, rfl⟩ | ⟨rfl, rfl⟩ | ⟨rfl, rfl⟩
    · exact completes_onDev (f := fun _ d => warmReset d 1) rfl rfl (hw 1)
    · exact completes_onDev (f := fun _ d => warmReset d 2) rfl rfl (hw 2)
    · exact completes_onDev (f := fun _ d => warmReset d 3) rfl rfl (hw 3)
    · exact completes_onDev (f := fun _ d => warmReset d 5) rfl rfl (hw 5)
    · exact completes_onDev (f := fun _ d => supWatchdog d) rfl rfl (hw 2)
  case brownout =>
    rintro ⟨hfail, hpres, h⟩
    refine completes_onDev (f := fun _ d => brownout d) rfl rfl ?_
    rw [show brownout s.dev = warmReset s.dev 5 from if_pos ⟨hfail, hpres⟩]
    exact warmlyReset s.dev 5 h
  case noBrownout => exact fun h => exec_onDev (f := fun _ d => brownout d) (d := s.dev) rfl rfl (if_neg h)
  case warmCommand =>
    rintro ⟨ha, h⟩
    have hw := warmlyReset (issued s.dev .pwr 0x104 (resetWord 1 0xC01D)) 1 ((resettable_issued _ _ _ _).trans h)
    exact completes_resetCommand (f := fun d => pwrWarm d 0xC01D) (by decide) rfl ha (if_pos rfl) hw.pwrCmd (warmlyReset_issued _ _ _ _ hw)
  case cold =>
    rintro c src ⟨hc, h⟩
    have hcold : ∀ n, ColdlyReset n s.dev (coldReset s.dev n) := fun n => coldlyReset s.dev n h
    simp only [List.mem_cons, Prod.mk.injEq, List.not_mem_nil, or_false] at hc
    rcases hc with ⟨rfl, rfl⟩ | ⟨rfl, rfl⟩ | ⟨rfl, rfl⟩
    · exact completes_onDev (f := fun _ d => coldReset d 4) rfl rfl (hcold 4)
    · exact completes_onDev (f := fun _ d => coldReset d 6) rfl rfl (hcold 6)
    · exact completes_onDev (f := fun _ d => servicePort d) rfl rfl (hcold 6)
  case coldCommand =>
    rintro ⟨ha, h⟩
    have hcold := coldlyReset (issued s.dev .pwr 0x104 (resetWord 2 0xC01D)) 4 ((resettable_issued _ _ _ _).trans h)
    exact completes_resetCommand (f := fun d => pwrCold d 0xC01D) (by decide) rfl ha (if_pos rfl) hcold.pwrCmd (coldlyReset_issued _ _ _ _ hcold)
  case wrongKey =>
    rintro c key ⟨hlt, hkey, rfl | rfl, ha⟩
    · exact completes_wrongKey (f := fun d => pwrWarm d key) rfl (decide_eq_true hlt) ha (fun _ => if_neg hkey)
    · exact completes_wrongKey (f := fun d => pwrCold d key) rfl (decide_eq_true hlt) ha (fun _ => if_neg hkey)
  case unpowered =>
    rintro c ⟨hc, h⟩
    have hw : ∀ n, warmReset s.dev n = s.dev := fun n => warmReset_unpowered n h
    have hcold : ∀ n, coldReset s.dev n = s.dev := fun n => coldReset_unpowered n h
    simp only [List.mem_cons, List.not_mem_nil, or_false] at hc
    rcases hc with rfl | rfl | rfl | rfl | rfl | rfl | rfl | rfl
    · exact exec_onDev (f := fun _ d => warmReset d 1) (d := s.dev) rfl rfl (hw 1)
    · exact exec_onDev (f := fun _ d => warmReset d 2) (d := s.dev) rfl rfl (hw 2)
    · exact exec_onDev (f := fun _ d => warmReset d 3) (d := s.dev) rfl rfl (hw 3)
    · exact exec_onDev (f := fun _ d => warmReset d 5) (d := s.dev) rfl rfl (hw 5)
    · exact exec_onDev (f := fun _ d => supWatchdog d) (d := s.dev) rfl rfl (hw 2)
    · exact exec_onDev (f := fun _ d => coldReset d 4) (d := s.dev) rfl rfl (hcold 4)
    · exact exec_onDev (f := fun _ d => coldReset d 6) (d := s.dev) rfl rfl (hcold 6)
    · exact exec_onDev (f := fun _ d => servicePort d) (d := s.dev) rfl rfl (hcold 6)
  case vinReturns => exact fun ka h => completes_onDev (f := fun _ d => vinRise d ka) rfl rfl (vinRise_facts ka h)
  case noReturn => exact fun ka h => exec_onDev (f := fun _ d => vinRise d ka) (d := s.dev) rfl rfl (if_neg h)

end Sys2Proof.Machine
end

section
/-! PROOFS. Power failure, the final commit, the hold-up energy and the supplies (R291, R304 to R308, R437, R439, R442, R453), and the statement
on them. -/

namespace Sys2Proof.Machine

/-! ### A failure declared (R304, R305, R441) -/

/-- In Ready and Run the final boundary follows; elsewhere nothing is committed. REMOVED clears in both (log entry 36). -/
theorem powerFailure_declared {d : Dev} (hp : powered d = true) (hfail : d.power.fail = .no) (hon : d.power.phase = .on) :
    powerFailure d = setPow (wrBit d HLTH_INSERT 16 false) { d.power with fail := .declared } := by
  unfold powerFailure
  rw [if_neg (by simp [hp, hfail])]
  simp only [wrBit_power, if_pos hon]

theorem powerFailure_noCommit {d : Dev} (hp : powered d = true) (hfail : d.power.fail = .no) (hon : d.power.phase ≠ .on) :
    powerFailure d = setPow (wrBit d HLTH_INSERT 16 false) { d.power with fail := .done, heldPending := [] } := by
  unfold powerFailure
  rw [if_neg (by simp [hp, hfail])]
  simp only [wrBit_power, if_neg hon]

/-! ### The end of a drain (R300, R305) -/

/-- A drain's end leaves none, keeps power, role and signals, and shows itself on the Strongbox page alone. -/
theorem drainEnd_keeps (d : Dev) : (drainEnd d).jn.draining = none ∧ (drainEnd d).power = d.power ∧ (drainEnd d).role = d.role ∧ (drainEnd d).sig = d.sig
    ∧ ∀ a, (a < SB_NUMBER ∨ SB_SKIP_CNT ≤ a) → rd (drainEnd d) a = rd d a := by
  unfold drainEnd
  split
  · next c _ =>
    obtain ⟨hnone, -, -, -, -, -, -, hsig, -, hrole, hreg, hpow, -, -⟩ := commitDone_facts d c
    exact ⟨hnone, hpow, hrole, hsig, hreg⟩
  · next hnone => exact ⟨hnone, rfl, rfl, rfl, fun _ _ => rfl⟩

theorem drainEnd_commits {d : Dev} {c : Commit} (h : d.jn.draining = some c) : drainEnd d = commitDone d c := by
  unfold drainEnd
  rw [h]

/-! ### The keep-alive copies (R439) -/

/-- The counts of the keep-alive domain, as they are copied to MRAM. -/
def withCopies (d : Dev) (p : Power) : Power := { p with kaPcc := pcc d, kaOpt := optMs d, kaIns := fld (rd d HLTH_INSERT) 15 0 }

/-- The copies are taken from four registers alone. -/
theorem withCopies_congr {d e : Dev} (p : Power) (hpcc : rd e PWR_PCC = rd d PWR_PCC) (hlo : rd e PWR_OPT_MS = rd d PWR_OPT_MS)
    (hhi : rd e (PWR_OPT_MS + 4) = rd d (PWR_OPT_MS + 4)) (hins : rd e HLTH_INSERT = rd d HLTH_INSERT) : withCopies e p = withCopies d p := by
  unfold withCopies pcc optMs rdN
  rw [hpcc, rd64_eq hlo hhi, hins]

/-- The record with FINAL is complete: the drain has ended, and the counts are copied. -/
theorem finalCommitDone_facts {d : Dev} (h : d.power.fail = .draining) :
    (finalCommitDone d).power = withCopies d { d.power with fail := .done } ∧ (finalCommitDone d).jn = (drainEnd d).jn
      ∧ (finalCommitDone d).role = d.role ∧ (finalCommitDone d).sig = d.sig ∧ ∀ a, rd (finalCommitDone d) a = rd (drainEnd d) a := by
  obtain ⟨-, hpow, hrole, hsig, hreg⟩ := drainEnd_keeps d
  obtain ⟨x, hx⟩ : ∃ x, x = wearSave (drainEnd d) := ⟨_, rfl⟩
  have hmem : x = { drainEnd d with mram := x.mram } := hx ▸ wearSave_eq (drainEnd d)
  have hrd : ∀ a, rd x a = rd (drainEnd d) a := fun a => rd_congr (by rw [hmem]) a
  have hdone : finalCommitDone d = setPow x (withCopies x { x.power with fail := .done }) := hx ▸ if_pos h
  have hxpow : x.power = d.power := by rw [hmem]; exact hpow
  rw [hdone]
  refine ⟨?_, ?_, ?_, ?_, fun a => (rd_setPow _ _ _).trans (hrd a)⟩
  · rw [← hxpow]
    exact withCopies_congr _ ((hrd _).trans (hreg _ (.inl (by decide)))) ((hrd _).trans (hreg _ (.inl (by decide))))
      ((hrd _).trans (hreg _ (.inl (by decide)))) ((hrd _).trans (hreg _ (.inr (by decide))))
  · rw [setPow_jn, hmem]
  · rw [setPow_role, hmem]; exact hrole
  · rw [setPow_sig, hmem]; exact hsig

/-! ### HOLDUP_OK (R306, R442) -/

/-- The device with HOLDUP_OK as given. -/
def withHoldup (d : Dev) (ok : Bool) : Dev := { d with power := { d.power with holdupOk := ok } }

@[simp] theorem withHoldup_power (d : Dev) (ok : Bool) : (withHoldup d ok).power = { d.power with holdupOk := ok } := rfl
@[simp] theorem withHoldup_role (d : Dev) (ok : Bool) : (withHoldup d ok).role = d.role := rfl
@[simp] theorem withHoldup_sig (d : Dev) (ok : Bool) : (withHoldup d ok).sig = d.sig := rfl
@[simp] theorem rd_withHoldup (d : Dev) (ok : Bool) (a : Nat) : rd (withHoldup d ok) a = rd d a := rd_congr rfl a

theorem withHoldup_same {d : Dev} {ok : Bool} (h : d.power.holdupOk = ok) : withHoldup d ok = d := by
  subst h
  rfl

theorem pwrState_withHoldup (d : Dev) (ok : Bool) : pwrState (withHoldup d ok) = pwrState d := rfl

/-- HOLDUP_OK clears, with a record where control runs. -/
theorem holdupLow_eq {d : Dev} (h : d.power.holdupOk = true) :
    holdupLow d = if pwrState d = 3 then report (withHoldup d false) 0x0006 2 [w32 (fld (rd d PWR_HOLDUP) 15 0)] else withHoldup d false := if_pos h

theorem holdupLow_idle {d : Dev} (h : d.power.holdupOk = false) : holdupLow d = d := if_neg (by rw [h]; decide)

/-- Whether it was set or clear, HOLDUP_OK is clear, and all that can stand beside is a record. -/
theorem holdupLow_recorded (d : Dev) : Recorded (withHoldup d false) (holdupLow d) := by
  by_cases h : d.power.holdupOk = true
  · rw [holdupLow_eq h]
    exact ite_prop (Recorded (withHoldup d false)) (recorded_report _ _ _ _) (Recorded.refl _)
  · have hclear := eq_false_of_ne_true h
    rw [holdupLow_idle hclear, withHoldup_same hclear]
    exact Recorded.refl d

theorem holdupSet_powered {d : Dev} (h : powered d = true) : holdupSet d = withHoldup d true := if_pos h

/-- The registers that a measurement shows. -/
def holdupShown (d : Dev) (esr cap energy : Nat) : Dev := wrN (wrN d HLTH_ESR (esr % 65536 + cap % 65536 * 65536)) PWR_HOLDUP (energy % 65536)

theorem holdupShown_keeps (d : Dev) (esr cap energy : Nat) :
    (holdupShown d esr cap energy).power = d.power ∧ (holdupShown d esr cap energy).role = d.role ∧ (holdupShown d esr cap energy).sig = d.sig := by
  unfold holdupShown
  simp

theorem powered_holdupShown (d : Dev) (esr cap energy : Nat) : powered (holdupShown d esr cap energy) = powered d := by
  unfold powered
  rw [(holdupShown_keeps d esr cap energy).1]

/-- A measurement shows what it found and sets HOLDUP_OK by its energy; all that can stand beside is a record. -/
theorem holdupMeasure_recorded {d : Dev} (esr cap energy : Nat) (h : powered d = true) :
    Recorded (withHoldup (holdupShown d esr cap energy) (decide (150 ≤ energy))) (holdupMeasure d esr cap energy) := by
  have hm : holdupMeasure d esr cap energy
      = if 150 ≤ energy then holdupSet (holdupShown d esr cap energy) else holdupLow (holdupShown d esr cap energy) := if_pos h
  rw [hm]
  by_cases he : 150 ≤ energy
  · rw [if_pos he, decide_eq_true he, holdupSet_powered ((powered_holdupShown _ _ _ _).trans h)]
    exact Recorded.refl _
  · rw [if_neg he, decide_eq_false he]
    exact holdupLow_recorded _

theorem holdupMeasure_facts {d : Dev} (esr cap energy : Nat) (h : powered d = true) :
    rd (holdupMeasure d esr cap energy) HLTH_ESR = w32 (esr % 65536 + cap % 65536 * 65536) ∧ rd (holdupMeasure d esr cap energy) PWR_HOLDUP = w32 (energy % 65536)
      ∧ (holdupMeasure d esr cap energy).power = { d.power with holdupOk := decide (150 ≤ energy) } ∧ (holdupMeasure d esr cap energy).role = d.role
      ∧ (holdupMeasure d esr cap energy).sig = d.sig
      ∧ ∀ a, a < dbBase → a ≠ HLTH_ESR → a ≠ PWR_HOLDUP → rd (holdupMeasure d esr cap energy) a = rd d a := by
  have hrec := holdupMeasure_recorded esr cap energy h
  obtain ⟨hpow, hrole, hsig⟩ := holdupShown_keeps d esr cap energy
  have hrd : ∀ a, a < dbBase → rd (holdupMeasure d esr cap energy) a = rd (holdupShown d esr cap energy) a := fun a ha =>
    (recorded_rd hrec (.inl ha)).trans (rd_withHoldup _ _ _)
  refine ⟨?_, ?_, ?_, ?_, ?_, fun a ha hesr hhold => ?_⟩
  · rw [hrd _ (by decide), holdupShown, rd_wrN_ne _ _ (by decide), rd_wrN_same]
  · rw [hrd _ (by decide), holdupShown, rd_wrN_same]
  · rw [recorded_power hrec, withHoldup_power, hpow]
  · rw [recorded_role hrec, withHoldup_role, hrole]
  · rw [recorded_sig hrec, withHoldup_sig, hsig]
  · rw [hrd _ ha, holdupShown, rd_wrN_ne _ _ hhold, rd_wrN_ne _ _ hesr]

/-! ### The field supply (R453) -/

/-- The fall of the field supply shows the voltage in its half of PWR_VIN, with a record. -/
theorem vfldLow_facts {d : Dev} {mv : Nat} (h : powered d = true ∧ mv < 17000 ∧ d.power.vfldLow = false) :
    (vfldLowEvent d mv).power = { d.power with vfldLow := true } ∧ fld (rd (vfldLowEvent d mv) PWR_VIN) 31 16 = mv
      ∧ fld (rd (vfldLowEvent d mv) PWR_VIN) 15 0 = fld (rd d PWR_VIN) 15 0
      ∧ Recorded (wrFld { d with power := { d.power with vfldLow := true } } PWR_VIN 31 16 mv) (vfldLowEvent d mv)
      ∧ (vfldLowEvent d mv).dios = d.dios ∧ (vfldLowEvent d mv).role = d.role ∧ (vfldLowEvent d mv).sig = d.sig := by
  have hev : vfldLowEvent d mv = fieldFault (wrFld { d with power := { d.power with vfldLow := true } } PWR_VIN 31 16 mv) .pwr (Config.faultCode 7) 0 mv := if_pos h
  have hrec : Recorded (wrFld { d with power := { d.power with vfldLow := true } } PWR_VIN 31 16 mv) (vfldLowEvent d mv) := hev ▸ recorded_fieldFault _ _ _ _ _
  have hreg : rd (vfldLowEvent d mv) PWR_VIN = putFld (rd d PWR_VIN) 31 16 mv := (recorded_rd hrec (.inl (by decide))).trans (rd_wr_same _ _ _)
  obtain ⟨-, hmv, -⟩ := h
  refine ⟨(recorded_power hrec).trans (wrFld_power _ _ _ _ _), ?_, ?_, hrec, (recorded_dios hrec).trans (wrFld_dios _ _ _ _ _),
    (recorded_role hrec).trans (wrFld_role _ _ _ _ _), (recorded_sig hrec).trans (wrFld_sig _ _ _ _ _)⟩
  · rw [hreg, fld_putFld_same _ _ _ _ (by decide) (by decide)]
    exact Nat.mod_eq_of_lt (lt_trans hmv (by decide))
  · rw [hreg, fld_putFld_ne _ _ _ _ _ _ (by decide) (by decide) (by decide) (by decide)]

/-! ### Power failure -/

/-- Settles O48: a failure by the phase that it finds, the final commit by its drain's end, HOLDUP_OK and the field supply by the registers and the
one record beside them. -/
theorem powerFailsAndHoldUpCarries : Obligations.PowerFailsAndHoldUpCarries := by
  unfold Obligations.PowerFailsAndHoldUpCarries
  intro s
  refine ⟨?declared, ?noCommit, ?declaredOnce, ?finalCommit, ?noFinalCommit, ?spent, ?notSpent, ?okSet, ?low, ?alreadyLow, ?measure, ?holdExpires, ?noHold,
    ?vinLow, ?fieldLow, ?fieldBack, ?fieldStays, ?unpowered⟩
  case declared =>
    rintro ⟨hp, hfail, hon⟩
    exact exec_onDev (f := fun _ d => powerFailure d) rfl rfl (powerFailure_declared hp hfail hon)
  case noCommit =>
    rintro ⟨hp, hfail, hon⟩
    exact exec_onDev (f := fun _ d => powerFailure d) rfl rfl (powerFailure_noCommit hp hfail hon)
  case declaredOnce => exact fun h => exec_onDev (f := fun _ d => powerFailure d) (d := s.dev) rfl rfl (if_pos h)
  case finalCommit =>
    intro h
    refine completes_onDev (f := fun _ d => finalCommitDone d) rfl rfl ?_
    obtain ⟨hpow, hjn, hrole, hsig, hrd⟩ := finalCommitDone_facts h
    obtain ⟨hnone, -⟩ := drainEnd_keeps s.dev
    refine ⟨hpow, by rw [hjn, hnone], hrole, hsig, fun c hc => ?_⟩
    obtain ⟨-, htop, -, hhead, hnum, hbound, hdig, -⟩ := commitDone_facts s.dev c
    rw [drainEnd_commits hc] at hjn hrd
    rw [hjn, rd64_eq (hrd _) (hrd _), rd64_eq (hrd _) (hrd _), rd64_eq (hrd _) (hrd _)]
    exact ⟨htop, hhead, hnum, hbound, hdig⟩
  case noFinalCommit => exact fun h => exec_onDev (f := fun _ d => finalCommitDone d) (d := s.dev) rfl rfl (if_neg h)
  case spent => exact fun h => completes_onDev (f := fun _ d => holdupSpent d) rfl rfl (powerLost s.dev h)
  case notSpent => exact fun h => exec_onDev (f := fun _ d => holdupSpent d) (d := s.dev) rfl rfl (if_neg h)
  case okSet => exact fun h => exec_onDev (f := fun _ d => holdupSet d) rfl rfl (holdupSet_powered h)
  case low =>
    rintro mj ⟨hok, rfl⟩
    have hlow := holdupLow_eq hok
    have hrec := holdupLow_recorded s.dev
    exact completes_onDev (f := fun _ d => holdupLow d) rfl rfl
      ⟨recorded_power hrec, fun h => hlow.trans (if_neg h), fun h => hlow.trans (if_pos h), hrec⟩
  case alreadyLow => exact fun h => exec_onDev (f := fun _ d => holdupLow d) (d := s.dev) rfl rfl (holdupLow_idle h)
  case measure =>
    exact fun esr cap energy h => completes_onDev (f := fun _ d => holdupMeasure d esr cap energy) rfl rfl (holdupMeasure_facts esr cap energy h)
  case holdExpires =>
    intro h
    refine completes_onDev (f := fun _ d => outputHoldExpired d) rfl rfl ?_
    rw [show outputHoldExpired s.dev = holdExpire s.dev from if_pos h]
    exact holdExpire_facts s.dev
  case noHold => exact fun h => exec_onDev (f := fun _ d => outputHoldExpired d) (d := s.dev) rfl rfl (if_neg (ne_true_of_eq_false h))
  case vinLow => exact fun low h => exec_onDev (f := fun _ d => vinLowEvent d low) rfl rfl (if_pos h)
  case fieldLow => exact fun mv h => completes_onDev (f := fun _ d => vfldLowEvent d mv) rfl rfl (vfldLow_facts h)
  case fieldBack => exact fun mv h => exec_onDev (f := fun _ d => vfldRestored d mv) rfl rfl (if_pos h)
  case fieldStays =>
    rintro mv ⟨hlow, hback⟩
    exact ⟨exec_onDev (f := fun _ d => vfldLowEvent d mv) (d := s.dev) rfl rfl (if_neg hlow),
      exec_onDev (f := fun _ d => vfldRestored d mv) (d := s.dev) rfl rfl (if_neg hback)⟩
  case unpowered =>
    rintro c esr cap energy low ⟨h, hc⟩
    have hoff : ¬powered s.dev = true := ne_true_of_eq_false h
    simp only [List.mem_cons, List.not_mem_nil, or_false] at hc
    rcases hc with rfl | rfl | rfl | rfl | rfl
    · exact exec_onDev (f := fun _ d => holdupSet d) (d := s.dev) rfl rfl (if_neg hoff)
    · exact exec_onDev (f := fun _ d => holdupMeasure d esr cap energy) (d := s.dev) rfl rfl (if_neg hoff)
    · exact exec_onDev (f := fun _ d => vinLowEvent d low) (d := s.dev) rfl rfl (if_neg hoff)
    · exact exec_onDev (f := fun _ d => powerFailure d) (d := s.dev) rfl rfl (if_pos (.inl h))
    · exact exec_onDev (f := fun _ d => holdupSpent d) (d := s.dev) rfl rfl (if_neg (fun hs => hoff hs.1))

end Sys2Proof.Machine
end

section
/-! PROOFS. The journal's epochs and commits, its commands, firmware installs, the keep-alive store and hot plug (R295, R298, R300, R302, R305,
R317, R438 to R441), and the statement on them. -/

namespace Sys2Proof.Machine

/-! ### Epochs (R298, R300, R302) -/

/-- At a due boundary a drain begins with the next commit number. -/
theorem journalEpoch_drains {d : Dev} (h : journalRuns d = true ∧ d.jn.due = true) (hnone : d.jn.draining = none) :
    journalEpoch d = drainStart d (snapshot d (boundarySnap d) false false) := by
  unfold journalEpoch
  rw [if_pos h, hnone]

/-- While a drain runs the boundary is skipped, and counted. -/
theorem journalEpoch_skips {d : Dev} (h : journalRuns d = true ∧ d.jn.due = true) (hbusy : d.jn.draining ≠ none) :
    journalEpoch d = bump (setJn d { d.jn with due := false, shadow := none }) SB_SKIP_CNT := by
  obtain ⟨c, hc⟩ := Option.ne_none_iff_exists'.mp hbusy
  unfold journalEpoch
  rw [if_pos h, hc]

/-- What a module asked for a sync sends beside reaches the twin's state alone. -/
theorem epochServed_eq (d : Dev) : epochServed d = { journalEpoch d with tw := (epochServed d).tw } := by
  unfold epochServed
  split
  · rw [twSend_dev]; rfl
  · rfl

theorem rd_epochServed (d : Dev) (a : Nat) : rd (epochServed d) a = rd (journalEpoch d) a := rd_congr (by rw [epochServed_eq]) a

theorem epochServed_idle {d : Dev} (h : ¬(journalRuns d = true ∧ d.jn.due = true)) : epochServed d = d := by
  have hserve : ¬(d.tw.serve = true ∧ authoritative d = true ∧ journalRuns d = true ∧ d.jn.due = true) := fun hs => h hs.2.2
  exact (if_neg hserve).trans (if_neg h)

/-! ### Commits (R270, R300) -/

/-- The drain's end: its commit record, and the digest's way to the partner, which leaves the journal and the Strongbox page. -/
theorem journalCommit_facts {d : Dev} {c : Commit} (hc : d.jn.draining = some c) (hf : c.final = false) :
    DigestKept (commitDone d c) (journalCommit d) := by
  have hj : journalCommit d = askReturn (ownDigest (commitDone d c) c.boundary c.digest) := by
    unfold journalCommit
    rw [hc]
    exact if_neg (ne_true_of_eq_false hf)
  rw [hj]
  exact (digestKept_own _ _ _).trans (digestKept_askReturn _)

theorem journalCommit_idle {d : Dev} (h : ∀ c, d.jn.draining = some c → c.final = true) : journalCommit d = d := by
  unfold journalCommit
  split
  · rfl
  · next c hc => exact if_pos (h c hc)

/-! ### Firmware installs (R295, R438) -/

theorem pwrInstall_begins {d : Dev} (hp : powered d = true) (hi : d.power.installing = false) :
    pwrInstall d = setPow d { d.power with installing := true } :=
  (if_neg (by simp [hp])).trans (if_neg (ne_true_of_eq_false hi))

theorem pwrInstall_busy {d : Dev} (hp : powered d = true) (hi : d.power.installing = true) : pwrInstall d = err d .pwr 0x1412 PWR_CMD :=
  (if_neg (by simp [hp])).trans (if_pos hi)

theorem powered_issued (d : Dev) (p : Page) (off : Nat) (v : W32) : powered (issued d p off v) = powered d := resettable_issued d p off v

/-- The result of an install: that of the checks, or BAD_CONTAINER where a read failed or the container does not lie in the address space. -/
def installResult (d : Dev) (kid : Nat) (bs : List W8) (ok : Bool) : Nat :=
  if ok && decide (rd64 d PWR_INST_ADDR + rdN d PWR_INST_LEN ≤ 2 ^ 64) then fwCheck kid bs (rdN d PWR_INST_LEN) else 1

/-- The other bank with a good container in it, for the next start. -/
def bankInstalled (d : Dev) (bs : List W8) : Dev :=
  dirPut { d with
    power := { d.power with newBank := true, badBanks := d.power.badBanks.filter (· != otherBank d)
                            fw := tset none d.power.fw (otherBank d) (some ((bs.drop 0x20).take 32, num bs 0x0C 4)) }
    mram := mput d.mram (bankAt (otherBank d)) bs } .pwr (otherBank d) 1 (rdN d PWR_INST_LEN) ((bs.drop 0x20).take 32)

theorem rd_bankInstalled (d : Dev) (bs : List W8) (a : Nat) : rd (bankInstalled d bs) a = rd d a := rd_dirPut _ _ _ _ _ _ _

/-- The end of an install with its result, shown and counted. -/
def installEnd (d : Dev) (c : Nat) : Dev := bump (wrN (setPow d { d.power with installing := false }) PWR_INST_RES c) PWR_INST_CNT

/-- An install ends: the other bank is written where its result is 0. -/
theorem installDone_eq {d : Dev} (kid : Nat) (bs : List W8) (ok : Bool) (h : d.power.installing = true) :
    installDone d kid bs ok = installEnd (if installResult d kid bs ok = 0 then bankInstalled d bs else d) (installResult d kid bs ok) := if_pos h

theorem installEnd_regs (d : Dev) (c : Nat) : rd (installEnd d c) PWR_INST_RES = w32 c ∧ rd (installEnd d c) PWR_INST_CNT = rd d PWR_INST_CNT + 1
    ∧ ∀ a, a ≠ PWR_INST_RES → a ≠ PWR_INST_CNT → rd (installEnd d c) a = rd d a := by
  unfold installEnd
  refine ⟨?_, ?_, fun a hres hcnt => ?_⟩
  · rw [rd_bump_ne _ (by decide), rd_wrN_same]
  · rw [rd_bump_same, rd_wrN_ne _ _ (by decide), rd_setPow]
  · rw [rd_bump_ne _ hcnt, rd_wrN_ne _ _ hres, rd_setPow]

theorem installEnd_keeps (d : Dev) (c : Nat) : (installEnd d c).power = { d.power with installing := false } ∧ (installEnd d c).mram = d.mram
    ∧ (installEnd d c).dir = d.dir ∧ (installEnd d c).sig = d.sig ∧ (installEnd d c).role = d.role := ⟨rfl, rfl, rfl, rfl, rfl⟩

/-! ### Hot plug (R440, R441) -/

theorem powerFailure_facts {d : Dev} (h : powered d = true ∧ d.power.fail = .no) :
    (powerFailure d).power.fail = (if d.power.phase = .on then .declared else .done) ∧ (powerFailure d).role = d.role ∧ (powerFailure d).sig = d.sig
      ∧ ∀ a, rd (powerFailure d) a = rd (wrBit d HLTH_INSERT 16 false) a := by
  obtain ⟨hp, hfail⟩ := h
  by_cases hon : d.power.phase = .on
  · rw [powerFailure_declared hp hfail hon, if_pos hon]
    exact ⟨rfl, (setPow_role _ _).trans (wrBit_role _ _ _ _), (setPow_sig _ _).trans (wrBit_sig _ _ _ _), rd_setPow _ _⟩
  · rw [powerFailure_noCommit hp hfail hon, if_neg hon]
    exact ⟨rfl, (setPow_role _ _).trans (wrBit_role _ _ _ _), (setPow_sig _ _).trans (wrBit_sig _ _ _ _), rd_setPow _ _⟩

/-- REMOVED is one bit of HLTH_INSERT, above the count of insertions. -/
theorem fld_insert_wrBit (d : Dev) (b : Bool) : fld (rd (wrBit d HLTH_INSERT 16 b) HLTH_INSERT) 15 0 = fld (rd d HLTH_INSERT) 15 0 := by
  unfold wrBit putBit
  rw [rd_wr_same, fld_putFld_ne _ _ _ _ _ _ (by decide) (by decide) (by decide) (by decide)]

/-- A removal is a power failure first, then REMOVED. -/
theorem removal_facts {d : Dev} (hpres : d.power.pres = true) (h : powered d = true ∧ d.power.fail = .no) :
    (removal d).power.pres = false ∧ (removal d).power.fail = (if d.power.phase = .on then .declared else .done) ∧ rdBit (removal d) HLTH_INSERT 16 = true
      ∧ fld (rd (removal d) HLTH_INSERT) 15 0 = fld (rd d HLTH_INSERT) 15 0 ∧ (∀ a, a ≠ HLTH_INSERT → rd (removal d) a = rd d a)
      ∧ (removal d).sig = d.sig ∧ (removal d).role = d.role := by
  obtain ⟨hfail, hrole, hsig, hreg⟩ := powerFailure_facts h
  have hrem : removal d = wrBit (setPow (powerFailure d) { (powerFailure d).power with pres := false }) HLTH_INSERT 16 true := if_pos hpres
  rw [hrem]
  refine ⟨rfl, hfail, ?_, ?_, fun a ha => ?_, (wrBit_sig _ _ _ _).trans hsig, (wrBit_role _ _ _ _).trans hrole⟩
  · unfold rdBit wrBit
    rw [rd_wr_same, bit_putBit _ _ _ _ (by decide), if_pos rfl]
  · rw [fld_insert_wrBit, rd_setPow, hreg, fld_insert_wrBit]
  · rw [rd_wrBit_ne _ _ _ ha, rd_setPow, hreg, rd_wrBit_ne _ _ _ ha]

theorem insertion_facts {d : Dev} (h : d.power.pres = false) :
    (insertion d).power = { d.power with pres := true } ∧ fld (rd (insertion d) HLTH_INSERT) 15 0 = (fld (rd d HLTH_INSERT) 15 0 + 1) % 65536
      ∧ (∀ a, a ≠ HLTH_INSERT → rd (insertion d) a = rd d a) ∧ (insertion d).sig = d.sig ∧ (insertion d).role = d.role := by
  have hins : insertion d = wrFld (setPow d { d.power with pres := true }) HLTH_INSERT 15 0 (fld (rd d HLTH_INSERT) 15 0 + 1) :=
    if_neg (ne_true_of_eq_false h)
  rw [hins]
  refine ⟨rfl, ?_, fun a ha => ?_, rfl, rfl⟩
  · unfold wrFld
    rw [rd_wr_same, fld_putFld_same _ _ _ _ (by decide) (by decide)]
    rfl
  · rw [rd_wrFld_ne _ _ _ _ ha, rd_setPow]

/-! ### The journal, installs and the keep-alive domain -/

/-- Settles O49: an epoch by the drain that it finds or begins, a commit by its record, commands on the device as issued, an install's end by its
result, an insertion and a removal by the bits of one register. -/
theorem journalCommitsAndFirmwareInstalls : Obligations.JournalCommitsAndFirmwareInstalls := by
  unfold Obligations.JournalCommitsAndFirmwareInstalls
  intro s
  refine ⟨?epoch, ?epochSkipped, ?noEpoch, ?commit, ?noCommit, ?forceCold, ?cancelCold, ?install, ?installBusy, ?installEnds, ?noInstall, ?persist,
    ?storeLost, ?storeStands, ?inserted, ?removed⟩
  case epoch =>
    rintro n ⟨hrun, hdue, hnone, rfl⟩
    refine completes_onDev (f := fun _ d => epochServed d) rfl rfl ?_
    rw [epochServed_eq, journalEpoch_drains ⟨hrun, hdue⟩ hnone]
    exact ⟨rfl, rfl, rfl, rfl, rfl⟩
  case epochSkipped =>
    rintro ⟨hrun, hdue, hbusy⟩
    refine completes_onDev (f := fun _ d => epochServed d) rfl rfl ?_
    have hskip := journalEpoch_skips ⟨hrun, hdue⟩ hbusy
    refine ⟨?_, ?_, fun a ha => ?_, ?_, ?_⟩
    · rw [epochServed_eq, hskip]; rfl
    · rw [rd_epochServed, hskip, rd_bump_same, rd_setJn]
    · rw [rd_epochServed, hskip, rd_bump_ne _ ha, rd_setJn]
    · rw [epochServed_eq, hskip]; rfl
    · rw [epochServed_eq, hskip]; rfl
  case noEpoch => exact fun h => exec_onDev (f := fun _ d => epochServed d) rfl rfl (epochServed_idle h)
  case commit =>
    rintro c ⟨hc, hf⟩
    refine completes_onDev (f := fun _ d => journalCommit d) rfl rfl ?_
    obtain ⟨hjn, hsig, hrole, hreg⟩ := journalCommit_facts hc hf
    obtain ⟨cnone, ctop, cstarts, -, cnum, cbound, cdig, csig, ccommits, crole, -⟩ := commitDone_facts s.dev c
    have hpage : ∀ a, sbBase ≤ a → a + 4 < sbBase + 0x1000 → rd64 (journalCommit s.dev) a = rd64 (commitDone s.dev c) a := fun a hlo hhi =>
      rd64_eq (hreg a hlo (by omega)) (hreg (a + 4) (by omega) hhi)
    rw [hjn, hpage _ (by decide) (by decide), hpage _ (by decide) (by decide), hpage _ (by decide) (by decide)]
    exact ⟨cnone, ctop, cstarts, ccommits, cnum, cbound, cdig, hsig.trans csig, hrole.trans crole⟩
  case noCommit => exact fun h => exec_onDev (f := fun _ d => journalCommit d) rfl rfl (journalCommit_idle h)
  case forceCold => exact fun ha => exec_host (f := fun _ d => forceCold d) rfl rfl ha (by decide) (rd_setJn _ _ _) rfl
  case cancelCold => exact fun ha => exec_host (f := fun _ d => cancelCold d) rfl rfl ha (by decide) (rd_setJn _ _ _) rfl
  case install =>
    rintro ⟨ha, hp, hi⟩
    have hbegin := pwrInstall_begins (d := issued s.dev .pwr 0x104 3) ((powered_issued _ _ _ _).trans hp) hi
    refine exec_host (f := fun _ d => pwrInstall d) rfl rfl ha (by decide) ?_ hbegin
    rw [hbegin, rd_setPow]
  case installBusy =>
    rintro ⟨ha, hp, hi⟩
    exact completes_onDev (f := fun _ d => hostCmd d .pwr 0x104 3 pwrInstall) rfl rfl (hostCmd_refused _ _ _ _ _ _ _ ha (by decide) (by decide) (by decide)
      (pwrInstall_busy ((powered_issued _ _ _ _).trans hp) hi))
  case installEnds =>
    rintro bs ok n b c ⟨hi, rfl, rfl⟩ hc
    refine completes_onDev (f := fun v d => installDone d v.vendorKid bs ok) rfl rfl ?_
    change c = installResult s.dev s.vault.vendorKid bs ok at hc
    rw [installDone_eq s.vault.vendorKid bs ok hi, ← hc]
    by_cases h0 : c = 0
    · rw [if_pos h0]
      obtain ⟨hres, hcnt, hreg⟩ := installEnd_regs (bankInstalled s.dev bs) c
      obtain ⟨hpow, hmram, -, hsig, hrole⟩ := installEnd_keeps (bankInstalled s.dev bs) c
      rw [rd_bankInstalled] at hcnt
      exact ⟨hres, hcnt, hsig, hrole, fun _ => ⟨hpow, hmram⟩, fun h => absurd h0 h, fun a h1 h2 => (hreg a h1 h2).trans (rd_bankInstalled _ _ _)⟩
    · rw [if_neg h0]
      obtain ⟨hres, hcnt, hreg⟩ := installEnd_regs s.dev c
      obtain ⟨hpow, hmram, hdir, hsig, hrole⟩ := installEnd_keeps s.dev c
      exact ⟨hres, hcnt, hsig, hrole, fun h => absurd h h0, fun _ => ⟨hpow, hmram, hdir⟩, hreg⟩
  case noInstall =>
    exact fun bs ok h => exec_onDev (f := fun v d => installDone d v.vendorKid bs ok) (d := s.dev) rfl rfl (if_neg (ne_true_of_eq_false h))
  case persist => exact fun h => exec_onDev (f := fun _ d => keepalivePersist d) rfl rfl (if_pos h)
  case storeLost => exact fun h => exec_onDev (f := fun _ d => kaStoreLost d) rfl rfl (if_pos h)
  case storeStands => exact fun h => exec_onDev (f := fun _ d => kaStoreLost d) (d := s.dev) rfl rfl (if_neg h)
  case inserted => exact fun h => completes_onDev (f := fun _ d => insertion d) rfl rfl (insertion_facts h)
  case removed =>
    rintro ⟨hpres, h⟩
    exact completes_onDev (f := fun _ d => removal d) rfl rfl (removal_facts hpres h)

end Sys2Proof.Machine
end

section
/-! PROOFS. What a command of a Pliale segment's page finds when it has been issued (R338), the end of a schedule's verification (R324, Table 12-6),
and the statement on segment commands (R324, R333, R335, Table 12-11). -/

namespace Sys2Proof.Machine

/-! ### Registers of a segment's page -/

/-- Two registers of one segment's page differ where their offsets do. -/
theorem plReg_ne {seg a b : Nat} (h : a ≠ b) : plBase seg + a ≠ plBase seg + b := by omega

/-- BP_CNT lies below the pages of the segments. -/
theorem OnlySeg.bp_eq {seg : Nat} {as : List Nat} {ws : List SigW} {d e : Dev} (h : OnlySeg seg as ws d e) (has : ∀ a ∈ as, plBase seg ≤ a) : bp e = bp d := by
  have hout : ∀ a, a < plBase 0 → rd e a = rd d a := fun a ha => h.2.2 a (fun hm => by
    have := has a hm
    unfold plBase at this ha
    omega)
  unfold bp rd64
  rw [hout _ (by decide), hout _ (by decide)]

theorem OnlySeg.rdN_eq {seg : Nat} {as : List Nat} {ws : List SigW} {d e : Dev} (h : OnlySeg seg as ws d e) {a : Nat} (ha : a ∉ as) : rdN e a = rdN d a :=
  congrArg BitVec.toNat (h.2.2 a ha)

/-! ### Commands as issued -/

/-- An admitted command of a segment's page whose effect lies in the segment and in registers of the page, ERR_CODE not among them, completes with
that effect and its command register written. -/
theorem completes_plCmd {c : Instr} {s : State} {seg off : Nat} {v : W32} {f : Dev → Dev} {ok : Bool} {as : List Nat} {ws : List SigW} {post : Dev → Prop}
    (he : exec c s = onDev ok (fun _ d => hostCmd d (.pl seg) off v f) s) (hok : ok = true) (ha : admits s.dev (.pl seg) off = true) (hoff : off ≠ ERR_CODE)
    (hf : OnlySeg seg as ws (issued s.dev (.pl seg) off v) (f (issued s.dev (.pl seg) off v))) (has : plBase seg + ERR_CODE ∉ as)
    (hp : OnlySeg seg ((plBase seg + off) :: as) ws s.dev (f (issued s.dev (.pl seg) off v)) → post (f (issued s.dev (.pl seg) off v))) :
    Completes c s post :=
  completes_host (f := fun _ d => f d) he hok ha hoff (hf.2.2 _ has) (hp ((onlySeg_issued seg s.dev (.pl seg) off v).trans hf))

/-- A command of a segment's page that its state does not take is refused (Table 12-11). -/
theorem refused_plCmd {c : Instr} {s : State} {seg off : Nat} {v : W32} {f : Dev → Dev} {ok : Bool}
    (he : exec c s = onDev ok (fun _ d => hostCmd d (.pl seg) off v f) s) (hok : ok = true) (ha : admits s.dev (.pl seg) off = true) (hoff : off ≠ ERR_CODE)
    (hoff' : off ≠ ERR_ADDR) (hf : f (issued s.dev (.pl seg) off v) = plRefuse (issued s.dev (.pl seg) off v) seg 0x0C01 (plBase seg + off)) :
    Completes c s (Refused (.pl seg) 0x0C01 (plBase seg + off) s.dev) :=
  completes_onDev (f := fun _ d => hostCmd d (.pl seg) off v f) he hok (hostCmd_refused _ _ _ _ _ _ _ ha (by decide) hoff hoff' hf)

section
variable (d : Dev) (seg : Nat) (v : W32)

theorem rd_plIssued {off a : Nat} (h : a ≠ plBase seg + off) : rd (issued d (.pl seg) off v) a = rd d a := rd_issued_ne _ _ _ _ _ h

theorem bp_plIssued (off : Nat) : bp (issued d (.pl seg) off v) = bp d :=
  (onlySeg_issued seg d (.pl seg) off v).bp_eq (fun a ha => by
    obtain rfl := List.mem_singleton.mp ha
    exact Nat.le_add_right (plBase seg) off)

theorem runBit_plIssued {off : Nat} (h : BLK_CTRL ≠ off) : runBit (issued d (.pl seg) off v) (.pl seg) = runBit d (.pl seg) :=
  congrArg (bit · 0) (rd_plIssued d seg v (a := plBase seg + BLK_CTRL) (plReg_ne h))

/-- The request buffer is as it stood before PL_LCMD was written. -/
theorem areq_plIssued : areqLen (issued d (.pl seg) 0x108 v) seg = areqLen d seg ∧ areqMax (issued d (.pl seg) 0x108 v) seg = areqMax d seg
    ∧ areqNs (issued d (.pl seg) 0x108 v) seg = areqNs d seg := by
  have hlen : areqLen (issued d (.pl seg) 0x108 v) seg = areqLen d seg :=
    congrArg (fld · 16 8) (rd_plIssued d seg v (a := PL_AREQ_HDR seg) (plReg_ne (by decide)))
  have hmax : areqMax (issued d (.pl seg) 0x108 v) seg = areqMax d seg :=
    congrArg (fld · 31 16) (rd_plIssued d seg v (a := PL_AREQ_DATA seg 0) (plReg_ne (by decide)))
  refine ⟨hlen, hmax, ?_⟩
  unfold areqNs
  rw [hlen, hmax, plOf_issued]

/-- The registers of the memory banks lie beyond the segments' pages: LOAD reads the container that stands in the window as it comes (R294, R419). -/
theorem sramCopy_plIssued (hseg : seg < 16) (a n : Nat) : sramCopy (issued d (.pl seg) 0x104 v) a n = sramCopy d a n := by
  have hilv : ilvW (issued d (.pl seg) 0x104 v) = ilvW d := by
    unfold ilvW
    rw [rd_plIssued _ _ _ (by unfold MB_ILV mbBase plBase; omega)]
  have hbank : bankOn (issued d (.pl seg) 0x104 v) = bankOn d := funext fun b => by
    unfold bankOn bankSt
    rw [rd_plIssued _ _ _ (by unfold MB_STAT mbBase plBase; omega)]
  unfold sramCopy rangeOn segOf segBytes
  rw [hilv, hbank, issued_sram]

theorem sramLen_plIssued (a n : Nat) : sramLen (issued d (.pl seg) 0x104 v) a n = sramLen d a n := by
  unfold sramLen rangeBad
  rw [issued_poison]

theorem plLoad_issued (hseg : seg < 16) (hst : (plOf d seg).st = .empty) :
    plLoad (issued d (.pl seg) 0x104 v) seg = setPl (issued d (.pl seg) 0x104 v) seg { pl0 with
      st := .loading
      copy := sramCopy d (rdN d (PL_LOAD_ADDR seg)) (rdN d (PL_LOAD_LEN seg))
      copyLen := sramLen d (rdN d (PL_LOAD_ADDR seg)) (rdN d (PL_LOAD_LEN seg)) } := by
  have haddr : rdN (issued d (.pl seg) 0x104 v) (PL_LOAD_ADDR seg) = rdN d (PL_LOAD_ADDR seg) :=
    congrArg BitVec.toNat (rd_plIssued d seg v (plReg_ne (by decide)))
  have hlen : rdN (issued d (.pl seg) 0x104 v) (PL_LOAD_LEN seg) = rdN d (PL_LOAD_LEN seg) :=
    congrArg BitVec.toNat (rd_plIssued d seg v (plReg_ne (by decide)))
  unfold plLoad
  rw [plOf_issued, if_pos hst]
  simp only [haddr, hlen, sramCopy_plIssued d seg v hseg, sramLen_plIssued]

end

/-! ### START, RESTART (R333) -/

theorem plToListen_only (d : Dev) (seg c : Nat) : OnlySeg seg [] [] d (plToListen d seg c)
    ∧ plOf (plToListen d seg c) seg = { plOf d seg with st := .listen, heardAt := bp d, coll := c, cycles := 0, closing := 0, start := none, kept := false } :=
  ⟨onlySeg_setPl _ _ _, plOf_setPl_same _ _ _⟩

theorem plStart_only {d : Dev} {seg : Nat} (h : (plOf d seg).st = .stopped ∧ runBit d (.pl seg) = true) : OnlySeg seg [] [] d (plStart d seg)
    ∧ plOf (plStart d seg) seg = { plOf d seg with
        st := .listen, heardAt := bp d, coll := 0, cycles := 0, closing := 0, start := none, kept := false, dup := false
        slots := (plOf d seg).slots.map slInit } := by
  obtain ⟨hlisten, hpl⟩ := plToListen_only d seg 0
  unfold plStart
  rw [if_pos h]
  refine ⟨hlisten.trans (onlySeg_setPl _ _ _), ?_⟩
  rw [plOf_setPl_same, hpl]

/-! ### The end of a verification (R324, Table 12-6) -/

/-- From d to e the load of segment seg has ended with a failure code: EMPTY, the code shown, nothing else moved. -/
def PlRefused (seg r : Nat) (d e : Dev) : Prop :=
  plOf e seg = pl0 ∧ rd e (PL_LOAD_RES seg) = w32 r ∧ rdN e (plBase seg + ERR_CODE) % 65536 = 0x0C05
    ∧ OnlySeg seg [PL_LOAD_RES seg, plBase seg + ERR_CODE, plBase seg + ERR_ADDR] [] d e

theorem plLoadFail_refused (d : Dev) (seg r : Nat) : PlRefused seg r d (plLoadFail d seg r) := by
  unfold plLoadFail
  refine ⟨?_, ?_, err_code _ (.pl seg) _ _, ?_⟩
  · rw [plOf_err, plOf_wrN, plOf_setPl_same]
  · exact (rd_err_ne _ (.pl seg) _ _ (plReg_ne (a := 0x11C) (by decide)) (plReg_ne (a := 0x11C) (by decide))).trans (rd_wrN_same _ _ _)
  · exact ((onlySeg_setPl seg d pl0).trans (onlySeg_wrN seg _ _ _)).trans (onlySeg_err seg _ (.pl seg) _ _)

/-- The claims of a schedule, made one after the other. -/
def plClaimAll (d : Dev) (es : List (Nat × Nat × Bool × W32)) : Dev := es.foldl (fun d e => claim d e.1 clsPl e.2.1 e.2.2.1 e.2.2.2) d

/-- What a claim keeps, the claims of a schedule keep. -/
theorem plClaimAll_keep {γ : Type} (P : Dev → γ) (hP : ∀ d n c i w v, P (claim d n c i w v) = P d) (d : Dev) (es : List (Nat × Nat × Bool × W32)) :
    P (plClaimAll d es) = P d :=
  foldl_keep P _ es (fun _ _ _ => hP _ _ _ _ _ _) d

/-- An entry that is claimed shows its latest claim; every other one is as it was (R20, R463). -/
theorem plClaimAll_entry (es : List (Nat × Nat × Bool × W32)) : ∀ (d : Dev) (n : Nat),
    (n ∉ es.map (·.1) ∧ attrOf (plClaimAll d es) n = attrOf d n ∧ sigVal (plClaimAll d es) n = sigVal d n)
      ∨ ∃ e, e ∈ es ∧ e.1 = n ∧ attrOf (plClaimAll d es) n = attrWord clsPl e.2.1 e.2.2.1 ∧ sigVal (plClaimAll d es) n = sigForm e.2.2.1 e.2.2.2 := by
  induction es with
  | nil => exact fun d n => .inl ⟨List.not_mem_nil, rfl, rfl⟩
  | cons y t ih =>
    intro d n
    rcases ih (claim d y.1 clsPl y.2.1 y.2.2.1 y.2.2.2) n with ⟨hn, ha, hs⟩ | ⟨e, he, hen, hae, hse⟩
    · rw [attrOf_claim] at ha
      rw [sigVal_claim] at hs
      by_cases hy : n = y.1
      · rw [if_pos hy] at ha hs
        exact .inr ⟨y, List.mem_cons_self .., hy.symm, ha, hs⟩
      · rw [if_neg hy] at ha hs
        refine .inl ⟨?_, ha, hs⟩
        rw [List.map_cons, List.mem_cons, not_or]
        exact ⟨hy, hn⟩
    · exact .inr ⟨e, List.mem_cons_of_mem _ he, hen, hae, hse⟩

/-- From d to e segment seg has been loaded with schedule c: STOPPED, with its claims. -/
def PlLoaded (seg : Nat) (c : PlSched) (d e : Dev) : Prop :=
  plOf e seg = { pl0 with st := .stopped, sched := some c, cyc := c.cyc, slots := c.ents.map (fun _ => { sl0 with st := .init }) }
    ∧ rd e (PL_LOAD_RES seg) = 0 ∧ rd e (PL_SCHED_ID seg) = w32 c.id ∧ rd e (PL_CYCLE seg) = w32 c.cyc
    ∧ (∀ n, (n ∉ (plClaims seg c).map (·.1) ∧ attrOf e n = attrOf d n ∧ sigVal e n = sigVal d n)
        ∨ ∃ x, x ∈ plClaims seg c ∧ x.1 = n ∧ attrOf e n = attrWord clsPl x.2.1 x.2.2.1 ∧ sigVal e n = sigForm x.2.2.1 x.2.2.2)

theorem plLoadOk_loaded (d : Dev) (seg : Nat) (c : PlSched) : PlLoaded seg c d (plLoadOk d seg c)
    ∧ (plLoadOk d seg c).dir = d.dir ∧ (plLoadOk d seg c).power = d.power ∧ (plLoadOk d seg c).role = d.role := by
  unfold plLoadOk
  refine ⟨⟨?_, ?_, ?_, rd_wrN_same _ _ _, plClaimAll_entry _ d⟩, plClaimAll_keep (·.dir) (fun _ _ _ _ _ _ => rfl) d _,
    plClaimAll_keep (·.power) (fun _ _ _ _ _ _ => rfl) d _, plClaimAll_keep (·.role) (fun _ _ _ _ _ _ => rfl) d _⟩
  · rw [plOf_wrN, plOf_wrN, plOf_wrN, plOf_setPl_same]
  · rw [rd_wrN_ne _ _ (by exact plReg_ne (by decide)), rd_wrN_ne _ _ (by exact plReg_ne (by decide)), rd_wrN_same]
    rfl
  · rw [rd_wrN_ne _ _ (by exact plReg_ne (by decide)), rd_wrN_same]

/-! The outcomes in the order of the checks: the container, the image's own rules, the owners of its entries. -/

section
variable {d : Dev} {seg : Nat} (hst : (plOf d seg).st = .loading)
include hst

theorem plVerify_container {r : Nat} (hc : containerCheck d (plOf d seg).copy 5 (plOf d seg).copyLen = r + 1) : plVerify d seg = plLoadFail d seg (r + 1) := by
  unfold plVerify
  simp only [if_neg (not_not_intro hst), hc]

theorem plVerify_image {r : Nat} (hc : containerCheck d (plOf d seg).copy 5 (plOf d seg).copyLen = 0)
    (hp : parseSched (bodyOf (plOf d seg).copy) = .error r) : plVerify d seg = plLoadFail d seg r := by
  unfold plVerify
  simp only [if_neg (not_not_intro hst), hc, hp]

theorem plVerify_parsed {c : PlSched} (hc : containerCheck d (plOf d seg).copy 5 (plOf d seg).copyLen = 0)
    (hp : parseSched (bodyOf (plOf d seg).copy) = .ok c) :
    plVerify d seg = if (plClaims seg c).any (fun e => sigTaken d e.1 clsPl e.2.1) then plLoadFail d seg 7 else plLoadOk d seg c := by
  unfold plVerify
  simp only [if_neg (not_not_intro hst), hc, hp]

/-- What PL_VERIFY_DONE makes of what the verification leaves: an entry of the directory, where the load has succeeded (R296). -/
theorem plVerified_eq {e : Dev} (h : plVerify d seg = e) : plVerified d seg = if (plOf e seg).st == .stopped
    then dirPut e (.pl seg) 0 5 (plOf d seg).copyLen (((plOf d seg).copy.drop 0x20).take 32) else e := by
  subst h
  unfold plVerified keepImage
  simp only [hst, beq_self_eq_true, Bool.true_and]

theorem plVerified_loaded {c : PlSched} (h : plVerify d seg = plLoadOk d seg c) : PlLoaded seg c d (plVerified d seg)
    ∧ (plVerified d seg).dir = (dirPut d (.pl seg) 0 5 (plOf d seg).copyLen (((plOf d seg).copy.drop 0x20).take 32)).dir
    ∧ (plVerified d seg).power = d.power ∧ (plVerified d seg).role = d.role := by
  obtain ⟨⟨hpl, hres, hid, hcyc, hclaims⟩, hdir, hpower, hrole⟩ := plLoadOk_loaded d seg c
  rw [plVerified_eq hst h]
  generalize plLoadOk d seg c = e at hpl hres hid hcyc hclaims hdir hpower hrole ⊢
  rw [if_pos (by rw [hpl]; rfl)]
  refine ⟨⟨hpl, ?_, ?_, ?_, hclaims⟩, ?_, hpower, hrole⟩
  · rw [rd_dirPut, hres]
  · rw [rd_dirPut, hid]
  · rw [rd_dirPut, hcyc]
  · unfold dirPut
    rw [hdir]

/-- A load that has failed is not entered. -/
theorem plVerified_refused {r : Nat} (h : plVerify d seg = plLoadFail d seg r) : PlRefused seg r d (plVerified d seg) := by
  obtain ⟨hempty, hfail⟩ := plLoadFail_refused d seg r
  rw [plVerified_eq hst h, if_neg (by rw [hempty]; decide)]
  exact ⟨hempty, hfail⟩

end

theorem plVerified_idle {d : Dev} {seg : Nat} (h : (plOf d seg).st ≠ .loading) : plVerified d seg = d := by
  have hsame : plVerify d seg = d := if_pos h
  unfold plVerified
  rw [hsame]
  exact if_neg (by rw [Bool.and_eq_true, beq_iff_eq]; exact fun hs => h hs.1)

/-! ### UNLOAD (R333, R335, R464) -/

/-- The device as UNLOAD releases its entries: a request that waits or has been sent ends as aborted (R335). -/
def plUnasked (d : Dev) (seg : Nat) : Dev := if (plOf d seg).asked then acycEnd d seg 3 4 else d

theorem plUnload_eq {d : Dev} {seg : Nat} {c : PlSched} (hst : (plOf d seg).st = .stopped) (hc : (plOf d seg).sched = some c) :
    plUnload d seg = setPl (releaseAll (plUnasked d seg) ((plClaims seg c).map (·.1))) seg pl0 := by
  unfold plUnload
  simp only [if_pos hst, hc]
  rfl

theorem plUnasked_only (d : Dev) (seg : Nat) : OnlySeg seg (if (plOf d seg).asked then [PL_ACYC_STAT seg, PL_ACYC_CNT seg] else []) [] d (plUnasked d seg)
    ∧ ((plOf d seg).asked = true → rd (plUnasked d seg) (PL_ACYC_STAT seg) = w32 (3 + 256 * 4) ∧ rd (plUnasked d seg) (PL_ACYC_CNT seg) = rd d (PL_ACYC_CNT seg) + 1) := by
  unfold plUnasked
  obtain ⟨honly, -, hstat, hcnt⟩ := acycEnd_only d seg 3 4
  split
  · exact ⟨honly, fun _ => ⟨hstat, hcnt⟩⟩
  · next h => exact ⟨OnlySeg.refl _ _, fun ha => absurd ha h⟩

/-- UNLOAD empties the segment and releases its entries, and those alone. -/
theorem plUnload_facts {d : Dev} {seg : Nat} {c : PlSched} (hst : (plOf d seg).st = .stopped) (hc : (plOf d seg).sched = some c) :
    plOf (plUnload d seg) seg = pl0 ∧ (∀ r, r ≠ seg → plOf (plUnload d seg) r = plOf d r)
      ∧ (∀ n, attrOf (plUnload d seg) n = if n ∈ (plClaims seg c).map (·.1) then 0 else attrOf d n)
      ∧ (∀ n, n ∉ (plClaims seg c).map (·.1) → sigVal (plUnload d seg) n = sigVal d n)
      ∧ (∀ a, rd (plUnload d seg) a = rd (plUnasked d seg) a) ∧ (plUnload d seg).power = d.power ∧ (plUnload d seg).role = d.role := by
  obtain ⟨honly, -⟩ := plUnasked_only d seg
  rw [plUnload_eq hst hc]
  generalize hns : (plClaims seg c).map (·.1) = ns
  have hpls : (releaseAll (plUnasked d seg) ns).pls = (plUnasked d seg).pls := foldl_keep (·.pls) release ns (fun _ _ _ => rfl) _
  refine ⟨plOf_setPl_same _ _ _, fun r hr => ?_, fun n => ?_, fun n hn => ?_, fun a => ?_, ?_, ?_⟩
  · rw [plOf_setPl_ne _ _ hr, ← honly.2.1 r hr]
    unfold plOf
    rw [hpls]
  · refine (attrOf_releaseAll ns (plUnasked d seg) n).trans ?_
    unfold attrOf
    rw [honly.attr]
  · refine (sigVal_releaseAll ns (plUnasked d seg) n hn).trans ?_
    unfold sigVal
    rw [honly.sig]
  · rw [rd_setPl, rd_releaseAll]
  · exact (foldl_keep (·.power) release ns (fun _ _ _ => rfl) _).trans honly.power
  · exact (foldl_keep (·.role) release ns (fun _ _ _ => rfl) _).trans honly.role

/-! ### STOP and ACYC (R333, R335) -/

theorem pl_unasked {x : Pl} (hwait : x.wait = false) (hasked : x.asked = false) : { x with wait := false, asked := false } = x := by
  cases x
  simp only at hwait hasked
  rw [hwait, hasked]

theorem plStop_halts {d : Dev} {seg : Nat} (hst : (plOf d seg).st = .running ∨ (plOf d seg).st = .listen ∨ (plOf d seg).st = .halted) :
    plStop d seg = plToStopped d seg (if (plOf d seg).st = .running then 2 else 0) := by
  unfold plStop plHalt
  rcases hst with h | h | h <;> rw [h] <;> rfl

theorem plStop_refuses {d : Dev} {seg : Nat} (hst : (plOf d seg).st ≠ .running ∧ (plOf d seg).st ≠ .listen ∧ (plOf d seg).st ≠ .halted) :
    plStop d seg = plRefuse d seg 0x0C01 (PL_CMD seg) := by
  obtain ⟨hrun, hlisten, hhalt⟩ := hst
  unfold plStop
  split
  · next h => exact absurd h hrun
  · next h => exact absurd h hlisten
  · next h => exact absurd h hhalt
  · rfl

section
variable {d : Dev} {seg : Nat} (hst : (plOf d seg).st = .listen ∨ (plOf d seg).st = .running) (hwait : (plOf d seg).wait = false)
  (hasked : (plOf d seg).asked = false)
include hst hwait hasked

/-- A segment in LISTEN or RUNNING without a request takes one. -/
theorem acyc_taken : ¬(((plOf d seg).st ≠ .listen ∧ (plOf d seg).st ≠ .running) ∨ (plOf d seg).wait = true ∨ (plOf d seg).asked = true) := by
  rw [hwait, hasked]
  rintro (⟨hlisten, hrun⟩ | h | h)
  · exact hst.elim hlisten hrun
  · exact absurd h (by decide)
  · exact absurd h (by decide)

variable {c : PlSched} (hc : (plOf d seg).sched = some c)
include hc

theorem plAcyc_waits (h : 4 ≤ areqLen d seg ∧ 4 ≤ areqMax d seg ∧ areqNs d seg ≤ c.acycLen) :
    plAcyc d seg = setPl (wrN d (PL_ACYC_STAT seg) 1) seg { plOf d seg with wait := true } := by
  obtain ⟨hlen, hmax, hns⟩ := h
  unfold plAcyc
  simp only [if_neg (acyc_taken hst hwait hasked), hc]
  rw [if_neg (by omega), if_neg (by omega)]

theorem plAcyc_ends (h : areqLen d seg < 4 ∨ areqMax d seg < 4 ∨ c.acycLen < areqNs d seg) :
    plAcyc d seg = acycEnd d seg 3 (if areqLen d seg < 4 ∨ areqMax d seg < 4 then 5 else 3) := by
  unfold plAcyc
  simp only [if_neg (acyc_taken hst hwait hasked), hc]
  by_cases hzero : areqLen d seg < 4 ∨ areqMax d seg < 4
  · rw [if_pos hzero, if_pos hzero]
  · rw [if_neg hzero, if_neg hzero, if_pos (by omega)]

end

/-- The register of a refused command, by the state that does not take it. -/
theorem refused_plCmds {s : State} {seg k off : Nat} {c : Instr} (hseg : seg < 16) (hk : k < 32) (ha : admits s.dev (.pl seg) off = true)
    (h : (off = 0x104 ∧ ((c = .plLoad seg ∧ (plOf s.dev seg).st ≠ .empty) ∨ (c = .plUnload seg ∧ (plOf s.dev seg).st ≠ .stopped)
        ∨ (c = .plStart seg ∧ ¬((plOf s.dev seg).st = .stopped ∧ runBit s.dev (.pl seg) = true))
        ∨ (c = .plStop seg ∧ (plOf s.dev seg).st ≠ .running ∧ (plOf s.dev seg).st ≠ .listen ∧ (plOf s.dev seg).st ≠ .halted)))
      ∨ (off = 0x108 ∧ ((c = .plRestart seg ∧ (plOf s.dev seg).st ≠ .halted)
        ∨ (c = .plAcyc seg ∧ (((plOf s.dev seg).st ≠ .listen ∧ (plOf s.dev seg).st ≠ .running) ∨ (plOf s.dev seg).wait = true ∨ (plOf s.dev seg).asked = true))
        ∨ (c = .plResync seg k ∧ ¬((plOf s.dev seg).st = .running ∧ k < (plOf s.dev seg).slots.length))))) :
    Completes c s (Refused (.pl seg) 0x0C01 (plBase seg + off) s.dev) := by
  have hok : decide (seg < 16) = true := decide_eq_true hseg
  have hpl : ∀ off v, plOf (issued s.dev (.pl seg) off v) seg = plOf s.dev seg := fun off v => plOf_issued _ _ _ _ _
  rcases h with ⟨rfl, ⟨rfl, h⟩ | ⟨rfl, h⟩ | ⟨rfl, h⟩ | ⟨rfl, h⟩⟩ | ⟨rfl, ⟨rfl, h⟩ | ⟨rfl, h⟩ | ⟨rfl, h⟩⟩
  · exact refused_plCmd (f := fun d => plLoad d seg) rfl hok ha (by decide) (by decide) (if_neg (by rw [hpl]; exact h))
  · exact refused_plCmd (f := fun d => plUnload d seg) rfl hok ha (by decide) (by decide) (if_neg (by rw [hpl]; exact h))
  · exact refused_plCmd (f := fun d => plStart d seg) rfl hok ha (by decide) (by decide)
      (if_neg (by rw [hpl, runBit_plIssued _ _ _ (by decide)]; exact h))
  · exact refused_plCmd (f := fun d => plStop d seg) rfl hok ha (by decide) (by decide) (plStop_refuses (by rw [hpl]; exact h))
  · exact refused_plCmd (f := fun d => plRestart d seg) rfl hok ha (by decide) (by decide) (if_neg (by rw [hpl]; exact h))
  · exact refused_plCmd (f := fun d => plAcyc d seg) rfl hok ha (by decide) (by decide) (if_pos (by rw [hpl]; exact h))
  · exact refused_plCmd (f := fun d => plResync d seg k) rfl (by rw [hok, decide_eq_true hk]; rfl) ha (by decide) (by decide)
      (if_neg (by rw [hpl]; exact h))

/-! ### Segment commands -/

/-- Settles O52: each command by what it does to the segment as issued, a verification by the first check that fails or by none, refusals by the error
that the page shows. -/
theorem segmentCommandsMoveTheSegment : Obligations.SegmentCommandsMoveTheSegment := by
  unfold Obligations.SegmentCommandsMoveTheSegment
  intro s
  refine ⟨?load, ?verified, ?notLoading, ?unload, ?start, ?stop, ?restart, ?acyc, ?acycEnds, ?resync, ?refused⟩
  case load =>
    rintro seg ⟨hseg, ha, hst⟩
    have hload := plLoad_issued s.dev seg 1 hseg hst
    refine completes_plCmd (f := fun d => plLoad d seg) rfl (decide_eq_true hseg) ha (by decide) (by rw [hload]; exact onlySeg_setPl _ _ _)
      List.not_mem_nil (fun honly => ⟨?_, honly⟩)
    rw [hload, plOf_setPl_same]
  case verified =>
    rintro seg x ⟨hseg, rfl, hst⟩
    refine completes_onDev (f := fun _ d => plVerified d seg) rfl (decide_eq_true hseg) ?_
    cases hc : containerCheck s.dev (plOf s.dev seg).copy 5 (plOf s.dev seg).copyLen with
    | succ r => exact plVerified_refused hst (plVerify_container hst hc)
    | zero =>
      cases hp : parseSched (bodyOf (plOf s.dev seg).copy) with
      | error r => exact plVerified_refused hst (plVerify_image hst hc hp)
      | ok c =>
        have hparsed := plVerify_parsed hst hc hp
        by_cases htaken : (plClaims seg c).any (fun e => sigTaken s.dev e.1 clsPl e.2.1) = true
        · rw [if_pos htaken] at hparsed
          simp only [if_pos htaken]
          exact plVerified_refused hst hparsed
        · rw [if_neg htaken] at hparsed
          simp only [if_neg htaken]
          obtain ⟨⟨hpl, hres, hid, hcyc, hclaims⟩, hdir, hpower, hrole⟩ := plVerified_loaded hst hparsed
          exact ⟨hpl, hres, hid, hcyc, hclaims, hdir, hpower, hrole⟩
  case notLoading => exact fun seg ⟨hseg, hst⟩ => exec_onDev (f := fun _ d => plVerified d seg) rfl (decide_eq_true hseg) (plVerified_idle hst)
  case unload =>
    rintro seg c x ⟨hseg, ha, rfl, hst, hc⟩
    have hpl : plOf (issued s.dev (.pl seg) 0x104 2) seg = plOf s.dev seg := plOf_issued _ _ _ _ _
    obtain ⟨hempty, hother, hattr, hsig, hregs, hpower, hrole⟩ := plUnload_facts (d := issued s.dev (.pl seg) 0x104 2) (c := c) (by rw [hpl, hst]) (by rw [hpl, hc])
    obtain ⟨honly, hends⟩ := plUnasked_only (issued s.dev (.pl seg) 0x104 2) seg
    rw [hpl] at honly hends
    refine completes_host (f := fun _ d => plUnload d seg) rfl (decide_eq_true hseg) ha (by decide) ?_
      ⟨hempty, fun r hr => (hother r hr).trans (plOf_issued _ _ _ _ _), ?_, ?_, fun hasked => ?_, fun a hcmd hacyc => ?_, hpower, hrole⟩
    · refine (hregs _).trans (honly.2.2 _ ?_)
      split
      · rw [List.mem_pair, not_or]
        exact ⟨plReg_ne (by decide), plReg_ne (by decide)⟩
      · exact List.not_mem_nil
    · exact fun n => by rw [hattr]; rfl
    · exact fun n hn => by rw [hsig n hn]; rfl
    · obtain ⟨hstat, hcnt⟩ := hends hasked
      rw [hregs, hregs, hstat, hcnt, rd_plIssued _ _ _ (by exact plReg_ne (by decide))]
      exact ⟨rfl, rfl⟩
    · refine (hregs a).trans ((honly.2.2 a ?_).trans (rd_plIssued _ _ _ hcmd))
      split
      · next hasked =>
        rw [List.mem_pair, not_or]
        exact hacyc hasked
      · exact List.not_mem_nil
  case start =>
    rintro seg x ⟨hseg, ha, rfl, hst, hrun⟩
    obtain ⟨honly, hpl⟩ := plStart_only (d := issued s.dev (.pl seg) 0x104 3) (seg := seg)
      ⟨by rw [plOf_issued, hst], by rw [runBit_plIssued _ _ _ (by decide), hrun]⟩
    refine completes_plCmd (f := fun d => plStart d seg) rfl (decide_eq_true hseg) ha (by decide) honly List.not_mem_nil (fun h => ⟨?_, h⟩)
    rw [hpl, plOf_issued, bp_plIssued]
  case stop =>
    rintro seg x ⟨hseg, ha, rfl, hst⟩
    have hpl : plOf (issued s.dev (.pl seg) 0x104 4) seg = plOf s.dev seg := plOf_issued _ _ _ _ _
    have hstop := plStop_halts (d := issued s.dev (.pl seg) 0x104 4) (seg := seg) (by rw [hpl]; exact hst)
    obtain ⟨honly, hx, hends⟩ := plToStopped_only (issued s.dev (.pl seg) 0x104 4) seg (if (plOf s.dev seg).st = .running then 2 else 0)
    rw [hpl] at hstop honly hx hends
    rw [← hstop] at honly hx hends
    refine completes_plCmd (f := fun d => plStop d seg) rfl (decide_eq_true hseg) ha (by decide) honly ?_ (fun h => ⟨hx, h, fun hwait => ?_⟩)
    · split
      · rw [List.mem_pair, not_or]
        exact ⟨plReg_ne (by decide), plReg_ne (by decide)⟩
      · exact List.not_mem_nil
    · obtain ⟨hstat, hcnt⟩ := hends hwait
      rw [hstat, hcnt, rd_plIssued _ _ _ (by exact plReg_ne (by decide))]
      exact ⟨rfl, rfl⟩
  case restart =>
    rintro seg x ⟨hseg, ha, rfl, hst⟩
    have hrestart : plRestart (issued s.dev (.pl seg) 0x108 1) seg = plToListen (issued s.dev (.pl seg) 0x108 1) seg 0 := if_pos (by rw [plOf_issued, hst])
    obtain ⟨honly, hpl⟩ := plToListen_only (issued s.dev (.pl seg) 0x108 1) seg 0
    rw [← hrestart] at honly hpl
    refine completes_plCmd (f := fun d => plRestart d seg) rfl (decide_eq_true hseg) ha (by decide) honly List.not_mem_nil (fun h => ⟨?_, h⟩)
    rw [hpl, plOf_issued, bp_plIssued]
  case acyc =>
    rintro seg x c ⟨hseg, ha, rfl, hst, hwait, hasked, hc⟩ hfits
    have hpl : plOf (issued s.dev (.pl seg) 0x108 2) seg = plOf s.dev seg := plOf_issued _ _ _ _ _
    obtain ⟨hlen, hmax, hns⟩ := areq_plIssued s.dev seg 2
    have hwaits := plAcyc_waits (d := issued s.dev (.pl seg) 0x108 2) (by rw [hpl]; exact hst) (by rw [hpl, hwait]) (by rw [hpl, hasked])
      (by rw [hpl, hc]) (by rw [hlen, hmax, hns]; exact hfits)
    refine completes_plCmd (f := fun d => plAcyc d seg) rfl (decide_eq_true hseg) ha (by decide)
      (by rw [hwaits]; exact (onlySeg_wrN seg _ _ _).trans (onlySeg_setPl seg _ _)) ?_ (fun h => ⟨?_, ?_, h⟩)
    · exact fun h => plReg_ne (by decide) (List.mem_singleton.mp h)
    · rw [hwaits, plOf_setPl_same, hpl]
    · rw [hwaits, rd_setPl, rd_wrN_same]
      rfl
  case acycEnds =>
    rintro seg x c ⟨hseg, ha, rfl, hst, hwait, hasked, hc⟩ hends
    have hpl : plOf (issued s.dev (.pl seg) 0x108 2) seg = plOf s.dev seg := plOf_issued _ _ _ _ _
    obtain ⟨hlen, hmax, hns⟩ := areq_plIssued s.dev seg 2
    have hend := plAcyc_ends (d := issued s.dev (.pl seg) 0x108 2) (by rw [hpl]; exact hst) (by rw [hpl, hwait]) (by rw [hpl, hasked])
      (by rw [hpl, hc]) (by rw [hlen, hmax, hns]; exact hends)
    rw [hlen, hmax] at hend
    obtain ⟨honly, hx, hstat, hcnt⟩ := acycEnd_only (issued s.dev (.pl seg) 0x108 2) seg 3 (if areqLen s.dev seg < 4 ∨ areqMax s.dev seg < 4 then 5 else 3)
    rw [← hend] at honly hx hstat hcnt
    refine completes_plCmd (f := fun d => plAcyc d seg) rfl (decide_eq_true hseg) ha (by decide) honly ?_ (fun h => ⟨?_, hstat, ?_, h⟩)
    · rw [List.mem_pair, not_or]
      exact ⟨plReg_ne (by decide), plReg_ne (by decide)⟩
    · rw [hx, hpl, pl_unasked hwait hasked]
    · rw [hcnt, rd_plIssued _ _ _ (by exact plReg_ne (by decide))]
  case resync =>
    rintro seg k x ⟨hseg, hk, ha, rfl, hst⟩
    have hresync : plResync (issued s.dev (.pl seg) 0x108 (w32 (3 + 256 * k))) seg k
        = setPl (issued s.dev (.pl seg) 0x108 (w32 (3 + 256 * k))) seg { plOf s.dev seg with resync := (plOf s.dev seg).resync ++ [k] } := by
      unfold plResync
      rw [plOf_issued]
      exact if_pos hst
    refine completes_plCmd (f := fun d => plResync d seg k) rfl (by rw [decide_eq_true hseg, decide_eq_true hk]; rfl) ha (by decide)
      (by rw [hresync]; exact onlySeg_setPl _ _ _) List.not_mem_nil (fun honly => ⟨?_, honly⟩)
    rw [hresync, plOf_setPl_same]
  case refused =>
    rintro seg k off c x ⟨hseg, hk, ha, rfl⟩ h
    exact refused_plCmds hseg hk ha h

end Sys2Proof.Machine
end


section
/-! PROOFS. The cycle of a Pliale segment: SYNC and POLL (R321, R322), and the replies of its slots (R330, R331, Table 12-7). -/

namespace Sys2Proof.Machine

/-! ### SYNC and POLL (R321, R322) -/

/-- SYNC does not show the frames sent in its cycle. -/
theorem syncPay_sent (d : Dev) (seg : Nat) (fs : List (Nat × List W8)) : syncPay (setPl d seg { plOf d seg with sent := fs }) seg = syncPay d seg := by
  unfold syncPay
  rw [plOf_setPl_same]
  rfl

/-- A cycle that starts shows its number and sends its SYNC, and nothing else yet. -/
theorem cycleStart_facts {d : Dev} {seg : Nat} {y : Pl}
    (h : ((plOf d seg).st = .running ∨ (plOf d seg).closing = 2) ∧ 0 < (plOf d seg).cyc ∧ bp d % (plOf d seg).cyc = 0)
    (hy : y = { plOf d seg with
      cyc := fld (rd d (PL_CYCLE seg)) 9 0, start := some (bp d), cycles := (plOf d seg).cycles + 1, violators := []
      closing := if (plOf d seg).closing = 2 then 1 else 0
      slots := (plOf d seg).slots.map (fun z => { z with got := false, heard := false, spoilt := false }) }) :
    rd (cycleStart d seg) (PL_CYC_NUM seg) = w32 (cycleNo d y) ∧ OnlySeg seg [PL_CYC_NUM seg] [] d (cycleStart d seg)
      ∧ plOf (cycleStart d seg) seg = { y with
          sent := [(0, plFrame (fld (rd d (PL_CFG seg)) 4 0) 0 0 (cycleNo d y) (syncPay (cycleStart d seg) seg))] } := by
  obtain ⟨m, hm⟩ : ∃ m, m = wrN (setPl d seg y) (PL_CYC_NUM seg) (cycleNo d y) := ⟨_, rfl⟩
  have honly : OnlySeg seg [PL_CYC_NUM seg] [] d m := by
    rw [hm]
    exact (onlySeg_setPl seg d y).trans (onlySeg_wrN seg _ _ _)
  have hpl : plOf m seg = y := by rw [hm, plOf_wrN, plOf_setPl_same]
  have hcfg : rd m (PL_CFG seg) = rd d (PL_CFG seg) := honly.2.2 _ (fun hmem => plReg_ne (by decide) (List.mem_singleton.mp hmem))
  have hno : cycleNo m y = cycleNo d y := by
    unfold cycleNo
    rw [honly.bp_eq (by simp [PL_CYC_NUM])]
  have hstart : cycleStart d seg = setPl m seg { plOf m seg with
      sent := [(0, plFrame (fld (rd m (PL_CFG seg)) 4 0) 0 0 (cycleNo m y) (syncPay m seg))] } := by
    unfold cycleStart
    simp only [if_pos h, ← hy, ← hm]
  rw [hstart, syncPay_sent, plOf_setPl_same, hpl, hcfg, hno, rd_setPl]
  exact ⟨by rw [hm, rd_wrN_same], honly.trans (onlySeg_setPl seg m _), rfl⟩

theorem cycleStart_last {d : Dev} {seg : Nat} (hst : (plOf d seg).st ≠ .running) (h : (plOf d seg).closing = 1 ∧ 0 < (plOf d seg).cyc ∧ bp d % (plOf d seg).cyc = 0) :
    cycleStart d seg = setPl d seg { plOf d seg with closing := 0, start := none } := by
  have hlive : ¬((plOf d seg).st = .running ∨ (plOf d seg).closing = 2) := by
    rw [h.1]
    exact fun ho => ho.elim hst (by decide)
  unfold cycleStart
  exact (if_neg (fun hs => hlive hs.1)).trans (if_pos h)

theorem cycleStart_none {d : Dev} {seg : Nat} (h : ((plOf d seg).st ≠ .running ∧ (plOf d seg).closing ≠ 1 ∧ (plOf d seg).closing ≠ 2) ∨ (plOf d seg).cyc = 0
    ∨ bp d % (plOf d seg).cyc ≠ 0) : cycleStart d seg = d := by
  have hno : (plOf d seg).cyc = 0 ∨ bp d % (plOf d seg).cyc ≠ 0 → ¬(0 < (plOf d seg).cyc ∧ bp d % (plOf d seg).cyc = 0) := by omega
  unfold cycleStart
  rcases h with ⟨hst, h1, h2⟩ | h
  · exact (if_neg (fun hs => hs.1.elim hst h2)).trans (if_neg (fun hs => h1 hs.1))
  · exact (if_neg (fun hs => hno h hs.2)).trans (if_neg (fun hs => hno h hs.2))

theorem plSend_only (d : Dev) (seg at_ : Nat) (f : List W8) : OnlySeg seg [] [] d (plSend d seg at_ f)
    ∧ plOf (plSend d seg at_ f) seg = { plOf d seg with sent := (plOf d seg).sent ++ [(at_, f)] } := ⟨onlySeg_setPl _ _ _, plOf_setPl_same _ _ _⟩

/-! ### Slots -/

/-- What the slots read as after one of them has been replaced. -/
theorem slots_lset {d e : Dev} {seg k : Nat} {y : SlS} (h : (plOf e seg).slots = lset (plOf d seg).slots k y) (hk : k < (plOf d seg).slots.length) :
    slOf e seg k = y ∧ ∀ i, i ≠ k → slOf e seg i = slOf d seg i := by
  unfold slOf
  rw [h]
  refine ⟨by rw [nth_lset, if_pos ⟨rfl, hk⟩], fun i hi => ?_⟩
  rw [nth_lset, if_neg (fun hs => hi hs.1)]

/-- A reception heard in slot i changes that flag alone, of a slot or of none. -/
theorem heard_slots (d : Dev) (seg i : Nat) : ∀ k, ∃ b, slOf (setSl d seg i { slOf d seg i with heard := true }) seg k = { slOf d seg k with heard := b } := by
  intro k
  by_cases hk : k = i
  · subst hk
    by_cases hlen : k < (plOf d seg).slots.length
    · exact ⟨true, slOf_setSl_same _ _ _ _ hlen⟩
    · refine ⟨(slOf d seg k).heard, ?_⟩
      unfold slOf
      rw [plOf_setSl]
      dsimp only
      rw [nth_lset, if_neg (fun hs => hlen hs.2)]
  · exact ⟨(slOf d seg k).heard, slOf_setSl_ne _ _ _ _ _ hk⟩

/-! ### Replies (R330, R331) -/

theorem frValid_length {good : Bool} {bs : List W8} (h : frValid good bs = true) : 10 ≤ bs.length := by
  unfold frValid at h
  simp only [Bool.and_eq_true, decide_eq_true_eq] at h
  exact h.1.1.1.2

/-- The device with the arrival error of a reply of slot k at instant j. -/
def replyTimed (d : Dev) (seg k j : Nat) : Dev := setErr d seg k ((j : Int) - (plEnt (plOf d seg) k).replyOfs)

theorem replyTimed_only (d : Dev) (seg k j : Nat) : OnlySeg seg [PL_SL_TIME seg k] [] d (replyTimed d seg k j) ∧ plOf (replyTimed d seg k j) seg = plOf d seg
    ∧ fld (rd (replyTimed d seg k j) (PL_SL_TIME seg k)) 31 16 = ((clampI (-32768) 32767 ((j : Int) - (plEnt (plOf d seg) k).replyOfs)) % 65536).toNat := by
  refine ⟨onlySeg_wrFld _ _ _ _ _ _, plOf_wrFld _ _ _ _ _ _, ?_⟩
  unfold replyTimed setErr wrFld
  rw [rd_wr_same, fld_putFld_same _ _ _ _ (by decide) (by decide)]
  omega

/-- The cycle's number, a slot's edge register and the count of violations are none of a slot's times. -/
theorem notSlTime (seg k : Nat) : PL_CYC_NUM seg ∉ [PL_SL_TIME seg k] ∧ PL_SL_EDGE seg k ∉ [PL_SL_TIME seg k] ∧ PL_EDGE_CNT seg ∉ [PL_SL_TIME seg k] := by
  simp only [List.mem_singleton, PL_CYC_NUM, PL_SL_EDGE, PL_EDGE_CNT, PL_SL_TIME]
  omega

/-- The device with a reply of slot k at instant j timed and heard. -/
def replyHeard (d : Dev) (seg k j : Nat) : Dev := setSl (replyTimed d seg k j) seg k { slOf d seg k with heard := true }

theorem replyHeard_only {d : Dev} {seg k j : Nat} (hk : k < (plOf d seg).slots.length) : OnlySeg seg [PL_SL_TIME seg k] [] d (replyHeard d seg k j)
    ∧ plOf (replyHeard d seg k j) seg = { plOf d seg with slots := lset (plOf d seg).slots k { slOf d seg k with heard := true } }
    ∧ slOf (replyHeard d seg k j) seg k = { slOf d seg k with heard := true } ∧ ∀ i, i ≠ k → slOf (replyHeard d seg k j) seg i = slOf d seg i := by
  obtain ⟨honly, hpl, -⟩ := replyTimed_only d seg k j
  have hheard : plOf (replyHeard d seg k j) seg = { plOf d seg with slots := lset (plOf d seg).slots k { slOf d seg k with heard := true } } := by
    unfold replyHeard
    rw [plOf_setSl, hpl]
  exact ⟨honly.trans (onlySeg_setSl seg _ _ _), hheard, slots_lset (congrArg Pl.slots hheard) hk⟩

section
variable {d : Dev} {seg k j : Nat} {bs : List W8} (hlive : plLive (plOf d seg) = true)
include hlive

/-- A valid REPLY of slot k is timed, and then judged by its window. -/
theorem replyReceive_valid (h : frValid true bs = true ∧ frType bs = 2 ∧ addrSlot (plOf d seg) (frAddr bs) = some k) :
    replyReceive d seg j true bs = if inWin (plOf d seg) (plEnt (plOf d seg) k) j = false then edgeViolation (replyTimed d seg k j) seg k j (frLen bs)
      else if frSeq bs = rdN (replyTimed d seg k j) (PL_CYC_NUM seg) % 65536 ∧ frLen bs = (plEnt (plOf d seg) k).inLen then
        (if (slOf (setSl (replyTimed d seg k j) seg k { slOf (replyTimed d seg k j) seg k with heard := true }) seg k).mute
          then setSl (replyTimed d seg k j) seg k { slOf (replyTimed d seg k j) seg k with heard := true }
          else accept (setSl (replyTimed d seg k j) seg k { slOf (replyTimed d seg k j) seg k with heard := true }) seg k bs)
      else badReception (replyTimed d seg k j) seg j true := by
  obtain ⟨hv, ht, hk⟩ := h
  have hlen : 6 ≤ bs.length := le_trans (by decide) (frValid_length hv)
  unfold replyReceive
  simp only [hlive, hv, ht, hk, hlen, Bool.true_eq_false, if_false, and_self, if_true, Bool.true_and, beq_self_eq_true]
  rfl

/-- A REPLY of the present cycle in its window, of a slot that is not SILENT, is accepted. -/
theorem replyReceive_accepts (h : frValid true bs = true ∧ frType bs = 2 ∧ addrSlot (plOf d seg) (frAddr bs) = some k)
    (hin : inWin (plOf d seg) (plEnt (plOf d seg) k) j = true) (hcyc : frSeq bs = rdN d (PL_CYC_NUM seg) % 65536 ∧ frLen bs = (plEnt (plOf d seg) k).inLen)
    (hmute : (slOf d seg k).mute = false) (hk : k < (plOf d seg).slots.length) :
    replyReceive d seg j true bs = accept (replyHeard d seg k j) seg k bs := by
  obtain ⟨honly, hpl, -⟩ := replyTimed_only d seg k j
  have hno : rdN (replyTimed d seg k j) (PL_CYC_NUM seg) = rdN d (PL_CYC_NUM seg) := honly.rdN_eq (notSlTime seg k).1
  have hheard : slOf (replyHeard d seg k j) seg k = { slOf d seg k with heard := true } := (replyHeard_only hk).2.2.1
  rw [replyReceive_valid hlive h, hin, hno, slOf_of_plOf hpl k, if_neg (by decide), if_pos hcyc]
  refine if_neg ?_
  have hm : (slOf (replyHeard d seg k j) seg k).mute = false := by
    rw [hheard]
    exact hmute
  exact ne_true_of_eq_false hm

/-- A reception that does not decode, in no slot's window, is counted (R331). -/
theorem replyReceive_corrupt (hwin : winSlot (plOf d seg) j = none) : replyReceive d seg j false bs = bump d (PL_CRC_CNT seg) := by
  have hv : frValid false bs = false := rfl
  unfold replyReceive badReception
  simp only [hlive, hv, hwin, Bool.true_eq_false, Bool.false_eq_true, false_and, if_false, Bool.false_and]

end

/-- An accepted reply: its slot, the segment's count, and WIT_DIFF (R330, R337). -/
theorem accept_facts {d : Dev} {seg k : Nat} (bs : List W8) (hk : k < (plOf d seg).slots.length) :
    (slOf (accept d seg k bs) seg k = { slOf d seg k with
        got := !(slOf d seg k).spoilt, data := frPay bs, witness := frFlags bs, edgeRun := 0, due := plL3 (plOf d seg) && !(slOf d seg k).spoilt }
      ∧ ∀ i, i ≠ k → slOf (accept d seg k bs) seg i = slOf d seg i)
      ∧ (plOf (accept d seg k bs) seg).wr = (plOf d seg).wr + 1 ∧ (∀ r, r ≠ seg → plOf (accept d seg k bs) r = plOf d r)
      ∧ rd (accept d seg k bs) (PL_WIT_DIFF_CNT seg) = rd d (PL_WIT_DIFF_CNT seg) + (if frFlags bs / 4 % 2 = 1 then 1 else 0)
      ∧ (∀ a, a ≠ PL_WIT_DIFF_CNT seg → rd (accept d seg k bs) a = rd d a)
      ∧ (accept d seg k bs).sig = d.sig ∧ (accept d seg k bs).stage1 = d.stage1 := by
  obtain ⟨m, hm⟩ : ∃ m, m = setPl d seg { plOf d seg with
      wr := (plOf d seg).wr + 1
      wp := (plOf d seg).wp + b2n (frFlags bs % 4 == if rdBit d (PL_CFG seg) 6 then 1 else 2) } := ⟨_, rfl⟩
  obtain ⟨n, hn⟩ : ∃ n, n = setSl m seg k { slOf d seg k with
      got := !(slOf d seg k).spoilt, data := frPay bs, witness := frFlags bs, edgeRun := 0, due := plL3 (plOf d seg) && !(slOf d seg k).spoilt } := ⟨_, rfl⟩
  obtain ⟨t, ht⟩ : ∃ t, t = if n.role = .authority ∧ (slOf d seg k).spoilt = false then twSend n (.pliale (bp n) seg k (frPay bs)) else n := ⟨_, rfl⟩
  have haccept : accept d seg k bs = if frFlags bs / 4 % 2 = 1 then bump t (PL_WIT_DIFF_CNT seg) else t := by
    unfold accept
    rw [ht, hn, hm]
  have hmpl : plOf m seg = { plOf d seg with
      wr := (plOf d seg).wr + 1
      wp := (plOf d seg).wp + b2n (frFlags bs % 4 == if rdBit d (PL_CFG seg) 6 then 1 else 2) } := by rw [hm, plOf_setPl_same]
  have honly : OnlySeg seg [] [] d n := by
    rw [hn, hm]
    exact (onlySeg_setPl seg d _).trans (onlySeg_setSl seg _ _ _)
  have hnpl : (plOf n seg).wr = (plOf d seg).wr + 1 ∧ (plOf n seg).slots = lset (plOf d seg).slots k { slOf d seg k with
      got := !(slOf d seg k).spoilt, data := frPay bs, witness := frFlags bs, edgeRun := 0, due := plL3 (plOf d seg) && !(slOf d seg k).spoilt } := by
    rw [hn, plOf_setSl, hmpl]
    exact ⟨rfl, rfl⟩
  have hkeep : ∀ {γ : Type} (P : Dev → γ), (∀ e w, P { e with tw := w } = P e) → P t = P n := fun P hP => by
    rw [ht]
    refine ite_prop (fun e : Dev => P e = P n) ?_ rfl
    rw [twSend_dev]
    exact hP _ _
  have hkept : ∀ {γ : Type} (P : Dev → γ), (∀ e w, P { e with tw := w } = P e) → (∀ e, P (bump e (PL_WIT_DIFF_CNT seg)) = P e) → P (accept d seg k bs) = P n :=
    fun P hP hb => by
      rw [haccept]
      exact ite_prop (fun e : Dev => P e = P n) ((hb t).trans (hkeep P hP)) (hkeep P hP)
  have hpl : ∀ r, plOf (accept d seg k bs) r = plOf n r := fun r => hkept (plOf · r) (fun _ _ => rfl) (fun _ => plOf_bump _ _ _)
  refine ⟨slots_lset ((congrArg Pl.slots (hpl seg)).trans hnpl.2) hk, (congrArg Pl.wr (hpl seg)).trans hnpl.1, fun r hr => (hpl r).trans (honly.2.1 r hr), ?_,
    fun a ha => ?_, ?_, ?_⟩
  · have htw : rd t (PL_WIT_DIFF_CNT seg) = rd d (PL_WIT_DIFF_CNT seg) :=
      (hkeep (rd · (PL_WIT_DIFF_CNT seg)) (fun _ _ => rd_congr rfl _)).trans (honly.2.2 _ List.not_mem_nil)
    rw [haccept]
    split
    · rw [rd_bump_same, htw]
    · exact htw.trans (BitVec.add_zero _).symm
  · exact (hkept (rd · a) (fun _ _ => rd_congr rfl _) (fun _ => rd_bump_ne _ ha)).trans (honly.2.2 a List.not_mem_nil)
  · exact (hkept (·.sig) (fun _ _ => rfl) (fun _ => rfl)).trans honly.sig
  · exact ((hkept (·.stage1) (fun _ _ => rfl) (fun _ => rfl)).trans honly.stage1).trans (List.append_nil _)

/-- The device with a reception noted in the window that instant j falls in (R331). -/
def windowHeard (d : Dev) (seg j : Nat) : Dev := match winSlot (plOf d seg) j with
  | some i => setSl d seg i { slOf d seg i with heard := true }
  | none => d

theorem windowHeard_only (d : Dev) (seg j : Nat) : OnlySeg seg [] [] d (windowHeard d seg j)
    ∧ (∃ l, plOf (windowHeard d seg j) seg = { plOf d seg with slots := l }) ∧ ∀ k, ∃ b, slOf (windowHeard d seg j) seg k = { slOf d seg k with heard := b } := by
  unfold windowHeard
  split
  · exact ⟨onlySeg_setSl _ _ _ _, ⟨_, plOf_setSl _ _ _ _⟩, heard_slots d seg _⟩
  · exact ⟨OnlySeg.refl _ _, ⟨_, rfl⟩, fun k => ⟨_, rfl⟩⟩

/-- A slot-edge violation: counted in its slot and in the segment, its run up to 3, a violator of the cycle; the third in a row asks for RESYNC (R331). -/
theorem edgeViolation_facts {d : Dev} {seg k : Nat} (j len : Nat) (hk : k < (plOf d seg).slots.length) :
    ((slOf (edgeViolation d seg k j len) seg k).edgeRun = min 3 ((slOf d seg k).edgeRun + 1) ∧ (slOf (edgeViolation d seg k j len) seg k).st = (slOf d seg k).st
        ∧ (slOf (edgeViolation d seg k j len) seg k).got = (slOf d seg k).got)
      ∧ rd (edgeViolation d seg k j len) (PL_EDGE_CNT seg) = rd d (PL_EDGE_CNT seg) + 1
      ∧ fld (rd (edgeViolation d seg k j len) (PL_SL_EDGE seg k)) 15 0 = (fld (rd d (PL_SL_EDGE seg k)) 15 0 + 1) % 65536
      ∧ (plOf (edgeViolation d seg k j len) seg).violators = (plOf d seg).violators ++ [(k, j, j + frameNs len)]
      ∧ (plOf (edgeViolation d seg k j len) seg).resync
          = (if (slOf d seg k).edgeRun = 2 ∧ (slOf d seg k).st = .active then (plOf d seg).resync ++ [k] else (plOf d seg).resync)
      ∧ OnlySeg seg [PL_SL_EDGE seg k, PL_EDGE_CNT seg] [] d (edgeViolation d seg k j len) := by
  obtain ⟨m, hm⟩ : ∃ m, m = bump (bumpLo d (PL_SL_EDGE seg k)) (PL_EDGE_CNT seg) := ⟨_, rfl⟩
  obtain ⟨n, hn⟩ : ∃ n, n = setSl m seg k { slOf d seg k with edgeRun := min 3 ((slOf d seg k).edgeRun + 1) } := ⟨_, rfl⟩
  have hedge : edgeViolation d seg k j len = setPl (windowHeard n seg j) seg { plOf (windowHeard n seg j) seg with
      violators := (plOf (windowHeard n seg j) seg).violators ++ [(k, j, j + frameNs len)]
      resync := if min 3 ((slOf d seg k).edgeRun + 1) = 3 ∧ (slOf d seg k).edgeRun = 2 ∧ (slOf d seg k).st = .active
        then (plOf (windowHeard n seg j) seg).resync ++ [k] else (plOf (windowHeard n seg j) seg).resync } := by
    rw [hn, hm]
    rfl
  have hreg : PL_EDGE_CNT seg ≠ PL_SL_EDGE seg k := by
    unfold PL_EDGE_CNT PL_SL_EDGE
    omega
  have hmonly : OnlySeg seg [PL_SL_EDGE seg k, PL_EDGE_CNT seg] [] d m := by
    rw [hm]
    exact (onlySeg_wrFld seg d _ _ _ _).trans (onlySeg_bump seg _ _)
  have hmpl : plOf m seg = plOf d seg := by
    rw [hm, plOf_bump]
    exact plOf_wrFld _ _ _ _ _ _
  obtain ⟨hwonly, ⟨l, hwpl⟩, hwsl⟩ := windowHeard_only n seg j
  have hnpl : plOf n seg = { plOf d seg with slots := lset (plOf d seg).slots k { slOf d seg k with edgeRun := min 3 ((slOf d seg k).edgeRun + 1) } } := by
    rw [hn, plOf_setSl, hmpl]
  have hnsl : slOf n seg k = { slOf d seg k with edgeRun := min 3 ((slOf d seg k).edgeRun + 1) } := (slots_lset (congrArg Pl.slots hnpl) hk).1
  have honly := (hmonly.trans (by rw [hn]; exact onlySeg_setSl seg m k _ : OnlySeg seg [] [] m n)).trans hwonly
  have hregs : ∀ a, rd (edgeViolation d seg k j len) a = rd m a := fun a => by
    rw [hedge, rd_setPl, hwonly.2.2 a List.not_mem_nil, hn, rd_setSl]
  have hpl : plOf (edgeViolation d seg k j len) seg = { plOf d seg with
      slots := l, violators := (plOf d seg).violators ++ [(k, j, j + frameNs len)]
      resync := if min 3 ((slOf d seg k).edgeRun + 1) = 3 ∧ (slOf d seg k).edgeRun = 2 ∧ (slOf d seg k).st = .active
        then (plOf d seg).resync ++ [k] else (plOf d seg).resync } := by
    rw [hedge, plOf_setPl_same, hwpl, hnpl]
  obtain ⟨b, hb⟩ := hwsl k
  have hsl : slOf (edgeViolation d seg k j len) seg k = { slOf d seg k with edgeRun := min 3 ((slOf d seg k).edgeRun + 1), heard := b } := by
    rw [hnsl] at hb
    rw [← hb]
    unfold slOf
    rw [hpl, hwpl]
  refine ⟨?_, ?_, ?_, ?_, ?_, ?_⟩
  · rw [hsl]
    exact ⟨rfl, rfl, rfl⟩
  · rw [hregs, hm, rd_bump_same]
    unfold bumpLo
    rw [rd_wrFld_ne _ _ _ _ hreg]
  · rw [hregs, hm, rd_bump_ne _ (Ne.symm hreg)]
    unfold bumpLo wrFld
    rw [rd_wr_same, fld_putFld_same _ _ _ _ (by decide) (by decide)]
    rfl
  · rw [hpl]
  · rw [hpl]
    refine if_congr ⟨fun h => h.2, fun h => ⟨?_, h⟩⟩ rfl rfl
    rw [h.1]
    rfl
  · rw [hedge]
    exact honly.trans (onlySeg_setPl seg _ _)

end Sys2Proof.Machine
end


section
/-! PROOFS. The acyclic window of a Pliale segment: what it sends (R327, R332, R335), the slots at its end (R332, Table 12-8), delay measurement (R327)
and the end of a request (R335). -/

namespace Sys2Proof.Machine

/-! ### Frames of a window -/

/-- From d to e segment seg has sent the frames fs; beside them its slots may have changed, and nothing else. -/
def PlSent (seg : Nat) (fs : List (Nat × List W8)) (d e : Dev) : Prop :=
  OnlySeg seg [] [] d e ∧ ∃ l, plOf e seg = { plOf d seg with sent := (plOf d seg).sent ++ fs, slots := l }

theorem PlSent.refl (seg : Nat) (d : Dev) : PlSent seg [] d d := ⟨OnlySeg.refl _ _, _, by rw [List.append_nil]⟩

theorem PlSent.trans {seg : Nat} {fs gs : List (Nat × List W8)} {d e f : Dev} (h : PlSent seg fs d e) (g : PlSent seg gs e f) : PlSent seg (fs ++ gs) d f := by
  obtain ⟨honly, l, hl⟩ := h
  obtain ⟨gonly, n, hn⟩ := g
  refine ⟨honly.trans gonly, n, ?_⟩
  rw [hn, hl, List.append_assoc]

theorem plSent_plSend (d : Dev) (seg at_ : Nat) (f : List W8) : PlSent seg [(at_, f)] d (plSend d seg at_ f) := ⟨onlySeg_setPl _ _ _, _, plOf_setPl_same _ _ _⟩

theorem plSent_setSl (d : Dev) (seg k : Nat) (y : SlS) : PlSent seg [] d (setSl d seg k y) :=
  ⟨onlySeg_setSl _ _ _ _, _, by rw [plOf_setSl, List.append_nil]⟩

/-- What each step of a fold sends, the fold sends one after the other. -/
theorem plSent_foldl {β : Type} {seg : Nat} {f : Dev → β → Dev} {g : β → List (Nat × List W8)} (h : ∀ d b, PlSent seg (g b) d (f d b)) (l : List β) :
    ∀ d, PlSent seg (l.flatMap g) d (l.foldl f d) := by
  induction l with
  | nil => exact fun d => PlSent.refl _ _
  | cons b t ih => exact fun d => (h d b).trans (ih _)

/-- A fold that sends one frame for each item. -/
theorem plSent_sends {β : Type} (seg : Nat) (at_ : β → Nat) (fr : β → List W8) (l : List β) (d : Dev) :
    PlSent seg (l.map (fun b => (at_ b, fr b))) d (l.foldl (fun d b => plSend d seg (at_ b) (fr b)) d) := by
  rw [List.map_eq_flatMap]
  exact plSent_foldl (fun d b => plSent_plSend d seg (at_ b) (fr b)) l d

/-! ### The start of the window (R327, R332, R335) -/

/-- The waiting request is sent, where it fits. -/
def requestSent (d : Dev) (seg : Nat) (c : PlSched) (ask : Bool) : Dev :=
  if ask then plSend (setPl d seg { plOf d seg with wait := false, asked := true }) seg c.acycOfs (plFrame (fld (rd d (PL_AREQ_HDR seg)) 4 0) 3 0
    (rdN d (PL_CYC_NUM seg)) ((bytes32 ((List.range 64).map (fun i => rd d (PL_AREQ_DATA seg i)))).take (areqLen d seg)))
  else d

/-- COMMAND RESYNC is sent from an instant on to the slots rs of segment x, which wait no longer. -/
def resyncsSent (d : Dev) (seg : Nat) (x : Pl) (seq from_ : Nat) (rs : List (Nat × Nat)) : Dev :=
  let e := rs.foldl (fun d e => plSend d seg (from_ + e.2 * frameNs 4) (plFrame (plEnt x e.1).addr 7 0 seq [1, 0, 0, 0])) d
  setPl e seg { plOf e seg with resync := x.resync.drop rs.length }

/-- MEASURE exchanges of one slot of a plan are sent from an instant on, and awaited. -/
def slotMeasures (seg : Nat) (x : Pl) (seq from_ : Nat) (d : Dev) (e : Nat × Nat) : Dev :=
  (List.range e.2).foldl (fun d i => plSend d seg (from_ + 4600 * i) (plFrame (plEnt x e.1).addr 5 0 seq []))
    (setSl d seg e.1 { slOf d seg e.1 with asked := e.2 })

/-- The same for every slot of a plan. -/
def measuresSent (d : Dev) (seg : Nat) (x : Pl) (seq from_ : Nat) (plan : List (Nat × Nat)) : Dev := plan.foldl (slotMeasures seg x seq from_) d

theorem requestSent_only (d : Dev) (seg : Nat) (c : PlSched) (ask : Bool) : OnlySeg seg [] [] d (requestSent d seg c ask)
    ∧ plOf (requestSent d seg c ask) seg = { plOf d seg with
        wait := (plOf d seg).wait && !ask, asked := (plOf d seg).asked || ask
        sent := (plOf d seg).sent ++ (if ask then [(c.acycOfs, plFrame (fld (rd d (PL_AREQ_HDR seg)) 4 0) 3 0 (rdN d (PL_CYC_NUM seg))
          ((bytes32 ((List.range 64).map (fun i => rd d (PL_AREQ_DATA seg i)))).take (areqLen d seg)))] else []) } := by
  unfold requestSent
  cases ask with
  | true =>
    rw [if_pos rfl, if_pos rfl]
    refine ⟨(onlySeg_setPl seg d _).trans (plSend_only _ seg _ _).1, ?_⟩
    rw [(plSend_only _ seg _ _).2, plOf_setPl_same, Bool.not_true, Bool.and_false, Bool.or_true]
  | false =>
    rw [if_neg (by decide), if_neg (by decide), Bool.not_false, Bool.and_true, Bool.or_false, List.append_nil]
    exact ⟨OnlySeg.refl _ _, rfl⟩

theorem resyncsSent_only (d : Dev) (seg : Nat) (x : Pl) (seq from_ : Nat) (rs : List (Nat × Nat)) : OnlySeg seg [] [] d (resyncsSent d seg x seq from_ rs)
    ∧ ∃ l, plOf (resyncsSent d seg x seq from_ rs) seg = { plOf d seg with
        resync := x.resync.drop rs.length, slots := l
        sent := (plOf d seg).sent ++ rs.map (fun e => (from_ + e.2 * frameNs 4, plFrame (plEnt x e.1).addr 7 0 seq [1, 0, 0, 0])) } := by
  obtain ⟨honly, l, hl⟩ := plSent_sends seg (fun e : Nat × Nat => from_ + e.2 * frameNs 4) (fun e => plFrame (plEnt x e.1).addr 7 0 seq [1, 0, 0, 0]) rs d
  refine ⟨honly.trans (onlySeg_setPl seg _ _), l, ?_⟩
  unfold resyncsSent
  rw [plOf_setPl_same, hl]

theorem slotMeasures_sent (seg : Nat) (x : Pl) (seq from_ : Nat) (d : Dev) (e : Nat × Nat) :
    PlSent seg ((List.range e.2).map (fun i => (from_ + 4600 * i, plFrame (plEnt x e.1).addr 5 0 seq []))) d (slotMeasures seg x seq from_ d e) := by
  have hset := plSent_setSl d seg e.1 { slOf d seg e.1 with asked := e.2 }
  have h := hset.trans (plSent_sends seg (fun i => from_ + 4600 * i) (fun _ => plFrame (plEnt x e.1).addr 5 0 seq []) (List.range e.2) _)
  rw [List.nil_append] at h
  exact h

theorem measuresSent_sent (d : Dev) (seg : Nat) (x : Pl) (seq from_ : Nat) (plan : List (Nat × Nat)) :
    PlSent seg (plan.flatMap (fun e => (List.range e.2).map (fun i => (from_ + 4600 * i, plFrame (plEnt x e.1).addr 5 0 seq [])))) d
      (measuresSent d seg x seq from_ plan) := plSent_foldl (slotMeasures_sent seg x seq from_) plan d

section
variable {d : Dev} {seg : Nat} {c : PlSched} {t1 t2 : Nat} {rs : List (Nat × Nat)} {ask : Bool}
  (hlive : plLive (plOf d seg) = true) (hc : (plOf d seg).sched = some c)
  (hask : ask = ((plOf d seg).wait && decide (areqNs d seg ≤ c.acycLen))) (ht1 : t1 = if ask then areqNs d seg else 0)
  (hrs : rs = (plOf d seg).resync.zipIdx.filter (fun e => decide (t1 + (e.2 + 1) * frameNs 4 ≤ c.acycLen))) (ht2 : t2 = t1 + rs.length * frameNs 4)
include hlive hc hask ht1 hrs ht2

/-- The window sends the request, then RESYNC, then MEASURE frames. -/
theorem acycStart_eq : acycStart d seg = measuresSent (resyncsSent (requestSent d seg c ask) seg (plOf d seg) (rdN d (PL_CYC_NUM seg)) (c.acycOfs + t1) rs) seg
    (plOf d seg) (rdN d (PL_CYC_NUM seg)) (c.acycOfs + t2) (measPlan (plOf d seg).slots (c.acycLen - t2) (measSlots (plOf d seg))) := by
  subst ht2 hrs ht1 hask
  unfold acycStart
  dsimp only
  split
  · next h => exact nomatch hc.symm.trans h
  · next e h =>
    obtain rfl := Option.some.inj (hc.symm.trans h)
    exact if_neg (by rw [hlive]; decide)

theorem acycStart_facts : OnlySeg seg [] [] d (acycStart d seg) ∧ (plOf (acycStart d seg) seg).wait = ((plOf d seg).wait && !ask)
    ∧ (plOf (acycStart d seg) seg).asked = ((plOf d seg).asked || ask) ∧ (plOf (acycStart d seg) seg).resync = (plOf d seg).resync.drop rs.length
    ∧ (plOf (acycStart d seg) seg).sent = (plOf d seg).sent ++ (if ask then [(c.acycOfs, plFrame (fld (rd d (PL_AREQ_HDR seg)) 4 0) 3 0 (rdN d (PL_CYC_NUM seg))
          ((bytes32 ((List.range 64).map (fun i => rd d (PL_AREQ_DATA seg i)))).take (areqLen d seg)))] else [])
        ++ rs.map (fun e => (c.acycOfs + t1 + e.2 * frameNs 4, plFrame (plEnt (plOf d seg) e.1).addr 7 0 (rdN d (PL_CYC_NUM seg)) [1, 0, 0, 0]))
        ++ (measPlan (plOf d seg).slots (c.acycLen - t2) (measSlots (plOf d seg))).flatMap (fun e => (List.range e.2).map (fun i =>
          (c.acycOfs + t2 + 4600 * i, plFrame (plEnt (plOf d seg) e.1).addr 5 0 (rdN d (PL_CYC_NUM seg)) []))) := by
  rw [acycStart_eq hlive hc hask ht1 hrs ht2]
  obtain ⟨qonly, hq⟩ := requestSent_only d seg c ask
  obtain ⟨ronly, l, hr⟩ := resyncsSent_only (requestSent d seg c ask) seg (plOf d seg) (rdN d (PL_CYC_NUM seg)) (c.acycOfs + t1) rs
  obtain ⟨monly, n, hm⟩ := measuresSent_sent (resyncsSent (requestSent d seg c ask) seg (plOf d seg) (rdN d (PL_CYC_NUM seg)) (c.acycOfs + t1) rs) seg
    (plOf d seg) (rdN d (PL_CYC_NUM seg)) (c.acycOfs + t2) (measPlan (plOf d seg).slots (c.acycLen - t2) (measSlots (plOf d seg)))
  refine ⟨(qonly.trans ronly).trans monly, ?_⟩
  rw [hm, hr, hq]
  exact ⟨rfl, rfl, rfl, rfl⟩

end

theorem acycStart_none {d : Dev} {seg : Nat} (h : plLive (plOf d seg) = false ∨ (plOf d seg).sched = none) : acycStart d seg = d := by
  unfold acycStart
  rcases h with h | h
  · simp only [h, if_true]
    split <;> rfl
  · simp only [h]

/-! ### Reports of a segment -/

/-- The registers of the segments' pages are none that a report changes. -/
theorem recorded_plReg {d e : Dev} (h : Recorded d e) {seg off : Nat} (hseg : seg < 16) (hoff : off < 0x2000) : rd e (plBase seg + off) = rd d (plBase seg + off) :=
  recorded_rd h (.inr ⟨by unfold dbBase plBase; omega, by unfold plBase trBase; omega⟩)

/-- What a change of segment seg leaves where reports have been taken after it. -/
theorem onlySeg_recorded {seg : Nat} {as : List Nat} {ws : List SigW} {d m e : Dev} (h : OnlySeg seg as ws d m) (hr : Recorded m e) :
    e.stage1 = d.stage1 ++ ws ∧ (∀ r, r ≠ seg → plOf e r = plOf d r) ∧ e.sig = d.sig ∧ e.power = d.power ∧ e.role = d.role :=
  ⟨(recorded_stage1 hr).trans h.stage1, fun r hn => (recorded_plOf hr r).trans (h.2.1 r hn), (recorded_sig hr).trans h.sig,
    (recorded_power hr).trans h.power, (recorded_role hr).trans h.role⟩

/-! ### The slots at the end of the window (R332, Table 12-8) -/

/-- From d to e slot k of segment seg has become z; RESYNC may have been asked for, and a report taken. -/
def SlotSet (seg k : Nat) (z : SlS) (d e : Dev) : Prop :=
  ∃ m, OnlySeg seg [] [] d m ∧ (plOf m seg).st = (plOf d seg).st ∧ (plOf m seg).slots = lset (plOf d seg).slots k z ∧ Recorded m e

theorem slotSet_setSl (d : Dev) (seg k : Nat) (z : SlS) : SlotSet seg k z d (setSl d seg k z) :=
  ⟨_, onlySeg_setSl _ _ _ _, by rw [plOf_setSl], by rw [plOf_setSl], Recorded.refl _⟩

theorem slotSet_resync (d : Dev) (seg k : Nat) (z : SlS) (l : List Nat) :
    SlotSet seg k z d (setPl (setSl d seg k z) seg { plOf (setSl d seg k z) seg with resync := l }) :=
  ⟨_, (onlySeg_setSl seg d k z).trans (onlySeg_setPl seg _ _), by rw [plOf_setPl_same, plOf_setSl], by rw [plOf_setPl_same, plOf_setSl], Recorded.refl _⟩

theorem slotSet_busEvent (d : Dev) (seg k : Nat) (z : SlS) (p : Page) (src ev cnt : Nat) : SlotSet seg k z d (busEvent (setSl d seg k z) p src ev cnt) :=
  ⟨_, onlySeg_setSl _ _ _ _, by rw [plOf_setSl], by rw [plOf_setSl], recorded_busEvent _ _ _ _ _⟩

/-- A cycle in which nothing was heard of a slot is counted (R331). -/
def missCounted (d : Dev) (seg k : Nat) : Dev := if (slOf d seg k).heard || (slOf d seg k).got then d else bumpLo d (PL_SL_MISC seg k)

theorem missCounted_only (d : Dev) (seg k : Nat) : OnlySeg seg [PL_SL_MISC seg k] [] d (missCounted d seg k) ∧ plOf (missCounted d seg k) seg = plOf d seg
    ∧ rd (missCounted d seg k) (PL_SL_MISC seg k) = (if (slOf d seg k).heard || (slOf d seg k).got then rd d (PL_SL_MISC seg k)
      else putFld (rd d (PL_SL_MISC seg k)) 15 0 (fld (rd d (PL_SL_MISC seg k)) 15 0 + 1)) := by
  unfold missCounted
  split
  · exact ⟨(OnlySeg.refl _ _).mono (fun _ h => absurd h List.not_mem_nil), rfl, rfl⟩
  · exact ⟨onlySeg_wrFld _ _ _ _ _ _, plOf_wrFld _ _ _ _ _ _, rd_wr_same _ _ _⟩

/-- The state that slot y enters at the end of a window, for a segment's LOST_N (Table 12-8). -/
def slotEnters (lim : Nat) (y : SlS) : SlSt :=
  if y.st = .off then .off else if y.st = .init ∨ y.st = .silent then (if y.measured then .seeking else y.st) else if y.st = .seeking ∧ y.got = true then .active
    else if (if y.got then 0 else y.lostRun + 1) ≥ lim ∧ 0 < lim then .init else if y.st = .active ∧ y.edgeRun = 3 then .silent else y.st

/-- What the end of a window makes of slot y: its state, INVALID and MISS_RUN. -/
def SlotJudged (lim : Nat) (y z : SlS) : Prop :=
  z.st = slotEnters lim y ∧ (y.st ≠ .off → z.invalid = !y.got ∧ z.missRun = (if y.got then 0 else min 65535 (y.missRun + 1)))

theorem slotEnters_measuring {lim : Nat} {y : SlS} (h : y.st = .init ∨ y.st = .silent) : slotEnters lim y = if y.measured then .seeking else y.st := by
  unfold slotEnters
  rw [if_neg (by rcases h with h | h <;> rw [h] <;> decide), if_pos h]

theorem slotEnters_working {lim : Nat} {y : SlS} (h : y.st = .seeking ∨ y.st = .active) : slotEnters lim y = if y.st = .seeking ∧ y.got = true then .active
    else if (if y.got then 0 else y.lostRun + 1) ≥ lim ∧ 0 < lim then .init else if y.st = .active ∧ y.edgeRun = 3 then .silent else y.st := by
  unfold slotEnters
  rw [if_neg (by rcases h with h | h <;> rw [h] <;> decide), if_neg (by rcases h with h | h <;> rw [h] <;> decide)]

theorem slotStep_off {d : Dev} {seg k : Nat} (hst : (slOf d seg k).st = .off) : slotStep d seg k = missCounted d seg k := by
  unfold slotStep
  simp only [hst]
  rfl

/-- A slot's evaluation sets it, whatever asks for RESYNC or is reported beside. -/
def SlotStepped (lim : Nat) (y : SlS) (seg k : Nat) (d e : Dev) : Prop := ∃ z, SlotJudged lim y z ∧ SlotSet seg k z d e

section
variable {lim : Nat} {y z : SlS} {d : Dev} {seg k : Nat} (hst : z.st = slotEnters lim y)
  (hz : z.invalid = (!y.got) ∧ z.missRun = if y.got then 0 else min 65535 (y.missRun + 1))
include hst hz

theorem slotStepped_set : SlotStepped lim y seg k d (setSl d seg k z) := ⟨z, ⟨hst, fun _ => hz⟩, slotSet_setSl _ _ _ _⟩

theorem slotStepped_resync {l : List Nat} : SlotStepped lim y seg k d (setPl (setSl d seg k z) seg { plOf (setSl d seg k z) seg with resync := l }) :=
  ⟨z, ⟨hst, fun _ => hz⟩, slotSet_resync _ _ _ _ _⟩

theorem slotStepped_busEvent {p : Page} {src ev cnt : Nat} : SlotStepped lim y seg k d (busEvent (setSl d seg k z) p src ev cnt) :=
  ⟨z, ⟨hst, fun _ => hz⟩, slotSet_busEvent _ _ _ _ _ _ _ _⟩

end

/-- One evaluation of Table 12-8, by the state of the slot. -/
theorem slotStep_stepped {d : Dev} {seg k : Nat} (hst : (slOf d seg k).st ≠ .off) :
    SlotStepped (fld (rd d (PL_CFG seg)) 15 8) (slOf d seg k) seg k (missCounted d seg k) (slotStep d seg k) := by
  have hmiss : (if (slOf d seg k).heard || (slOf d seg k).got then d else bumpLo d (PL_SL_MISC seg k)) = missCounted d seg k := rfl
  unfold slotStep
  simp only [hmiss]
  generalize fld (rd d (PL_CFG seg)) 15 8 = lim
  generalize missCounted d seg k = m
  generalize slOf d seg k = y at hst ⊢
  cases hy : y.st with
  | off => exact absurd hy hst
  | init =>
    refine slotStepped_set ?_ ?_
    · rw [slotEnters_measuring (.inl hy), hy]
      split <;> rfl
    · split <;> exact ⟨rfl, rfl⟩
  | silent =>
    refine slotStepped_set ?_ ?_
    · rw [slotEnters_measuring (.inr hy), hy]
      split <;> rfl
    · split <;> exact ⟨rfl, rfl⟩
  | seeking | active =>
    have hw := slotEnters_working (lim := lim) (y := y) (by rw [hy]; decide)
    rw [hy] at hw
    refine iteInduction (motive := SlotStepped lim y seg k m) (fun hacc => ?_) (fun hacc => ?_)
    · refine slotStepped_set ?_ ?_
      · rw [hw, if_pos hacc]
      · exact ⟨rfl, rfl⟩
    refine iteInduction (motive := SlotStepped lim y seg k m) (fun hlost => ?_) (fun hlost => ?_)
    · refine slotStepped_resync ?_ ?_
      · rw [hw, if_neg hacc, if_pos hlost]
      · exact ⟨rfl, rfl⟩
    refine iteInduction (motive := SlotStepped lim y seg k m) (fun hedge => ?_) (fun hedge => ?_)
    · refine slotStepped_busEvent ?_ ?_
      · rw [hw, if_neg hacc, if_neg hlost, if_pos hedge]
      · exact ⟨rfl, rfl⟩
    · refine slotStepped_set ?_ ?_
      · rw [hw, if_neg hacc, if_neg hlost, if_neg hedge]
      · exact ⟨rfl, rfl⟩

/-- From d to e slot k of segment seg and its MISS count stand. -/
def SlotKept (seg k : Nat) (d e : Dev) : Prop := slOf e seg k = slOf d seg k ∧ rd e (PL_SL_MISC seg k) = rd d (PL_SL_MISC seg k)

/-- What every evaluation of a slot of segment seg leaves. -/
def SlotsOnly (seg : Nat) (d e : Dev) : Prop :=
  (plOf e seg).st = (plOf d seg).st ∧ (plOf e seg).slots.length = (plOf d seg).slots.length ∧ rd e (PL_CFG seg) = rd d (PL_CFG seg)
    ∧ (∀ r, r ≠ seg → plOf e r = plOf d r) ∧ e.sig = d.sig ∧ e.stage1 = d.stage1

theorem SlotsOnly.refl (seg : Nat) (d : Dev) : SlotsOnly seg d d := ⟨rfl, rfl, rfl, fun _ _ => rfl, rfl, rfl⟩

theorem SlotsOnly.trans {seg : Nat} {d e f : Dev} (h : SlotsOnly seg d e) (g : SlotsOnly seg e f) : SlotsOnly seg d f := by
  obtain ⟨hst, hlen, hcfg, hother, hsig, hstage⟩ := h
  obtain ⟨gst, glen, gcfg, gother, gsig, gstage⟩ := g
  exact ⟨gst.trans hst, glen.trans hlen, gcfg.trans hcfg, fun r hr => (gother r hr).trans (hother r hr), gsig.trans hsig, gstage.trans hstage⟩

theorem slMisc_off (seg k : Nat) : PL_SL_MISC seg k = plBase seg + (0x100C + 16 * k) := Nat.add_assoc _ _ _

theorem missCounted_slots (d : Dev) (seg k : Nat) : SlotsOnly seg d (missCounted d seg k) ∧ slOf (missCounted d seg k) seg k = slOf d seg k
    ∧ ∀ i, i ≠ k → SlotKept seg i d (missCounted d seg k) := by
  obtain ⟨honly, hpl, -⟩ := missCounted_only d seg k
  have hreg : ∀ off, off ≠ 0x100C + 16 * k → rd (missCounted d seg k) (plBase seg + off) = rd d (plBase seg + off) := fun off hoff =>
    honly.2.2 _ (fun h => plReg_ne hoff ((List.mem_singleton.mp h).trans (slMisc_off seg k)))
  refine ⟨⟨by rw [hpl], by rw [hpl], hreg 0x100 (by omega), honly.2.1, honly.sig, honly.stage1.trans (List.append_nil _)⟩, slOf_of_plOf hpl k,
    fun i hi => ⟨slOf_of_plOf hpl i, ?_⟩⟩
  rw [slMisc_off]
  exact hreg _ (by omega)

section
variable {seg : Nat} (hseg : seg < 16)
include hseg

/-- A slot that has been set is what it has become; the others and the segment's registers stand. -/
theorem SlotSet.facts {k : Nat} {z : SlS} {m e : Dev} (h : SlotSet seg k z m e) (hlen : k < (plOf m seg).slots.length) :
    SlotsOnly seg m e ∧ slOf e seg k = z ∧ (∀ i, i ≠ k → slOf e seg i = slOf m seg i)
      ∧ ∀ i, i < 32 → rd e (PL_SL_MISC seg i) = rd m (PL_SL_MISC seg i) := by
  obtain ⟨n, honly, hst, hslots, hrec⟩ := h
  obtain ⟨hstage, hother, hsig, -, -⟩ := onlySeg_recorded honly hrec
  have hpl := recorded_plOf hrec seg
  have hreg : ∀ off, off < 0x2000 → rd e (plBase seg + off) = rd m (plBase seg + off) := fun off hoff =>
    (recorded_plReg hrec hseg hoff).trans (honly.2.2 _ List.not_mem_nil)
  obtain ⟨hsame, hne⟩ := slots_lset (d := m) (e := e) (k := k) (by rw [hpl, hslots]) hlen
  refine ⟨⟨by rw [hpl, hst], by rw [hpl, hslots, length_lset], hreg 0x100 (by decide), hother, hsig, hstage.trans (List.append_nil _)⟩, hsame, hne,
    fun i hi => ?_⟩
  rw [slMisc_off]
  exact hreg _ (by omega)

/-- The evaluation of one slot, of a segment that has it: the slot judged, its misses counted, every other slot as it was. -/
theorem slotStep_facts {d : Dev} {k : Nat} (hlen : k < (plOf d seg).slots.length) : SlotsOnly seg d (slotStep d seg k)
    ∧ SlotJudged (fld (rd d (PL_CFG seg)) 15 8) (slOf d seg k) (slOf (slotStep d seg k) seg k)
    ∧ (k < 32 → rd (slotStep d seg k) (PL_SL_MISC seg k) = rd (missCounted d seg k) (PL_SL_MISC seg k))
    ∧ ∀ i, i ≠ k → i < 32 → SlotKept seg i d (slotStep d seg k) := by
  obtain ⟨honly, hsame, hne⟩ := missCounted_slots d seg k
  by_cases hst : (slOf d seg k).st = .off
  · rw [slotStep_off hst, hsame]
    refine ⟨honly, ⟨?_, fun h => absurd hst h⟩, fun _ => rfl, fun i hi _ => hne i hi⟩
    unfold slotEnters
    rw [if_pos hst, hst]
  · obtain ⟨z, hjudged, hset⟩ := slotStep_stepped hst
    obtain ⟨zonly, zsame, zne, zreg⟩ := hset.facts hseg (by rw [honly.2.1]; exact hlen)
    rw [zsame]
    exact ⟨honly.trans zonly, hjudged, zreg k, fun i hi hlt => ⟨(zne i hi).trans (hne i hi).1, (zreg i hlt).trans (hne i hi).2⟩⟩

/-- The evaluation of other slots leaves slot k. -/
theorem slotSteps_kept {k : Nat} (hk : k < 32) (l : List Nat) : ∀ d, k ∉ l → (∀ i ∈ l, i < (plOf d seg).slots.length) →
    SlotsOnly seg d (l.foldl (fun d i => slotStep d seg i) d) ∧ SlotKept seg k d (l.foldl (fun d i => slotStep d seg i) d) := by
  induction l with
  | nil => exact fun d _ _ => ⟨SlotsOnly.refl _ _, rfl, rfl⟩
  | cons i t ih =>
    intro d hmem hlen
    rw [List.mem_cons, not_or] at hmem
    obtain ⟨hki, hkt⟩ := hmem
    obtain ⟨honly, -, -, hkept⟩ := slotStep_facts hseg (hlen i (List.mem_cons_self ..))
    obtain ⟨hsl, hmisc⟩ := hkept k hki hk
    obtain ⟨tonly, tsl, tmisc⟩ := ih (slotStep d seg i) hkt (fun j hj => by
      rw [honly.2.1]
      exact hlen j (List.mem_cons_of_mem _ hj))
    exact ⟨honly.trans tonly, tsl.trans hsl, tmisc.trans hmisc⟩

/-- At the end of a window each slot moves through its states, each by itself. -/
theorem acycWindowEnd_facts {d : Dev} {k : Nat} (hlive : plLive (plOf d seg) = true) (hk : k < 32) (hlen : k < (plOf d seg).slots.length) :
    SlotsOnly seg d (acycWindowEnd d seg) ∧ SlotJudged (fld (rd d (PL_CFG seg)) 15 8) (slOf d seg k) (slOf (acycWindowEnd d seg) seg k)
      ∧ rd (acycWindowEnd d seg) (PL_SL_MISC seg k) = rd (missCounted d seg k) (PL_SL_MISC seg k) := by
  obtain ⟨before, after, hsplit⟩ := List.append_of_mem (List.mem_range.mpr hlen)
  have hnodup : (before ++ k :: after).Nodup := hsplit ▸ List.nodup_range
  have hlt : ∀ i ∈ before ++ k :: after, i < (plOf d seg).slots.length := fun i hi => List.mem_range.mp (hsplit ▸ hi)
  obtain ⟨-, hcons, hdisj⟩ := List.nodup_append.mp hnodup
  have hbefore : k ∉ before := fun h => hdisj k h k (List.mem_cons_self ..) rfl
  have hafter : k ∉ after := (List.nodup_cons.mp hcons).1
  obtain ⟨bonly, bsl, bmisc⟩ := slotSteps_kept hseg hk before d hbefore (fun i hi => hlt i (List.mem_append_left _ hi))
  have hend : acycWindowEnd d seg = after.foldl (fun d i => slotStep d seg i) (slotStep (before.foldl (fun d i => slotStep d seg i) d) seg k) := by
    unfold acycWindowEnd
    rw [if_pos hlive, hsplit, List.foldl_append, List.foldl_cons]
  generalize before.foldl (fun d i => slotStep d seg i) d = m at bonly bsl bmisc hend
  obtain ⟨konly, kjudged, kmisc, -⟩ := slotStep_facts hseg (d := m) (k := k) (by rw [bonly.2.1]; exact hlen)
  obtain ⟨aonly, asl, amisc⟩ := slotSteps_kept hseg hk after (slotStep m seg k) hafter (fun i hi => by
    rw [konly.2.1, bonly.2.1]
    exact hlt i (List.mem_append_right _ (List.mem_cons_of_mem _ hi)))
  rw [bonly.2.2.1, bsl] at kjudged
  rw [hend, asl, amisc, kmisc hk, (missCounted_only m seg k).2.2, (missCounted_only d seg k).2.2, bsl, bmisc]
  exact ⟨(bonly.trans konly).trans aonly, kjudged, rfl⟩

end

/-! ### Delay measurement (R327) -/

section
variable {d : Dev} {seg k dt : Nat} {t : Int} (hasked : (slOf d seg k).asked ≠ 0) (hlive : plLive (plOf d seg) = true)
  (ht : t = (slOf d seg k).sum + ((dt : Int) - 2000))
include hasked hlive ht

/-- An answer that is not the fourth is counted and summed. -/
theorem measRsp_counts (h : (slOf d seg k).answers + 1 < 4) : measRsp d seg k dt
    = setSl d seg k { slOf d seg k with asked := (slOf d seg k).asked - 1, answers := (slOf d seg k).answers + 1, sum := t } := by
  subst ht
  unfold measRsp
  exact (if_neg (by simp [hasked, hlive])).trans (if_pos h)

/-- A delay beyond the range sets DELAY_RANGE, and the slot is measured anew. -/
theorem measRsp_range (h : ¬(slOf d seg k).answers + 1 < 4) (hrange : 500 < (t + 4) / 8) : measRsp d seg k dt
    = setSl d seg k { slOf d seg k with asked := (slOf d seg k).asked - 1, range := true, answers := 0, sum := 0 } := by
  subst ht
  unfold measRsp
  exact (if_neg (by simp [hasked, hlive])).trans ((if_neg h).trans (if_pos hrange))

/-- The fourth answer gives the delay, and SET_DELAY is sent. -/
theorem measRsp_delay (h : ¬(slOf d seg k).answers + 1 < 4) (hrange : ¬500 < (t + 4) / 8) (hlen : k < (plOf d seg).slots.length) :
    (slOf (measRsp d seg k dt) seg k = { slOf d seg k with
          asked := (slOf d seg k).asked - 1, answers := (slOf d seg k).answers + 1, sum := t, range := false, measured := true }
        ∧ ∀ i, i ≠ k → slOf (measRsp d seg k dt) seg i = slOf d seg i)
      ∧ OnlySeg seg [PL_SL_TIME seg k] [] d (measRsp d seg k dt) ∧ fld (rd (measRsp d seg k dt) (PL_SL_TIME seg k)) 15 0 = ((t + 4) / 8).toNat % 65536
      ∧ (plOf (measRsp d seg k dt) seg).sent = (plOf d seg).sent ++ [((plOf d seg).sched.elim 0 (·.acycOfs),
          plFrame (plEnt (plOf d seg) k).addr 7 0 (rdN d (PL_CYC_NUM seg)) ([2] ++ leBytes 2 ((t + 4) / 8).toNat ++ [0]))] := by
  obtain ⟨m, hm⟩ : ∃ m, m = wrFld (setSl d seg k { slOf d seg k with
    asked := (slOf d seg k).asked - 1, answers := (slOf d seg k).answers + 1, sum := t, range := false, measured := true }) (PL_SL_TIME seg k) 15 0
      ((t + 4) / 8).toNat := ⟨_, rfl⟩
  have hsent : measRsp d seg k dt = plSend m seg (match (plOf m seg).sched with
      | some c => c.acycOfs
      | none => 0) (plFrame (plEnt (plOf m seg) k).addr 7 0 (rdN m (PL_CYC_NUM seg)) ([2] ++ leBytes 2 ((t + 4) / 8).toNat ++ [0])) := by
    subst hm ht
    unfold measRsp
    exact (if_neg (by simp [hasked, hlive])).trans ((if_neg h).trans (if_neg hrange))
  have honly : OnlySeg seg [PL_SL_TIME seg k] [] d m := by
    rw [hm]
    exact (onlySeg_setSl seg d k _).trans (onlySeg_wrFld seg _ _ _ _ _)
  have hpl : plOf m seg = { plOf d seg with slots := lset (plOf d seg).slots k { slOf d seg k with
      asked := (slOf d seg k).asked - 1, answers := (slOf d seg k).answers + 1, sum := t, range := false, measured := true } } := by
    rw [hm, plOf_wrFld, plOf_setSl]
  obtain ⟨sonly, spl⟩ := plSend_only m seg (match (plOf m seg).sched with
      | some c => c.acycOfs
      | none => 0) (plFrame (plEnt (plOf m seg) k).addr 7 0 (rdN m (PL_CYC_NUM seg)) ([2] ++ leBytes 2 ((t + 4) / 8).toNat ++ [0]))
  rw [← hsent] at sonly spl
  refine ⟨slots_lset (by rw [spl, hpl]) hlen, honly.trans sonly, ?_, ?_⟩
  · rw [sonly.2.2 _ List.not_mem_nil, hm]
    unfold wrFld
    rw [rd_wr_same, fld_putFld_same _ _ _ _ (by decide) (by decide)]
    rfl
  · have hno : rdN m (PL_CYC_NUM seg) = rdN d (PL_CYC_NUM seg) := honly.rdN_eq (fun hmem => by
      have := List.mem_singleton.mp hmem
      unfold PL_CYC_NUM PL_SL_TIME at this
      omega)
    rw [spl, hpl, hno]
    cases (plOf d seg).sched <;> rfl

end

/-! ### The end of a request (R335) -/

/-- The words of a response, in the response buffer. -/
def responseKept (d : Dev) (seg n : Nat) (ws : List W32) : Dev := (ws.zipIdx n).foldl (fun d e => wr d (PL_ARSP_DATA seg e.2) e.1) d

/-- The response buffer holds the words, one after the other; other registers stand. -/
theorem responseKept_facts (seg : Nat) (ws : List W32) : ∀ (d : Dev) (n : Nat),
    (∃ r, responseKept d seg n ws = { d with regs := r }) ∧ (∀ a, a < PL_ARSP_DATA seg n → rd (responseKept d seg n ws) a = rd d a)
      ∧ ∀ i, i < ws.length → rd (responseKept d seg n ws) (PL_ARSP_DATA seg (n + i)) = nth ws i 0 := by
  induction ws with
  | nil => exact fun d n => ⟨⟨d.regs, rfl⟩, fun _ _ => rfl, fun i hi => absurd hi (Nat.not_lt_zero i)⟩
  | cons w t ih =>
    intro d n
    obtain ⟨hregs, hlow, hwords⟩ := ih (wr d (PL_ARSP_DATA seg n) w) (n + 1)
    have hcons : responseKept d seg n (w :: t) = responseKept (wr d (PL_ARSP_DATA seg n) w) seg (n + 1) t := rfl
    have hnext : PL_ARSP_DATA seg n < PL_ARSP_DATA seg (n + 1) := by
      unfold PL_ARSP_DATA
      omega
    rw [hcons]
    refine ⟨regs_regs (regs_wr d _ _) hregs, fun a ha => ?_, fun i hi => ?_⟩
    · rw [hlow a (lt_trans ha hnext), rd_wr_ne _ _ (Nat.ne_of_lt ha)]
    · cases i with
      | zero => exact (hlow _ hnext).trans (rd_wr_same _ _ _)
      | succ i =>
        rw [show n + (i + 1) = n + 1 + i by omega, hwords i (Nat.lt_of_succ_lt_succ hi)]
        rfl

section
variable {d : Dev} {seg j : Nat} {good : Bool} {bs : List W8} (hasked : (plOf d seg).asked = true)
  (hwin : 900 ≤ j + plGuard (plOf d seg) / 2 ∧ j ≤ 2100 + plGuard (plOf d seg) / 2)
include hasked hwin

theorem acycRsp_awaited : ¬((plOf d seg).asked = false ∨ j + plGuard (plOf d seg) / 2 < 900 ∨ 2100 + plGuard (plOf d seg) / 2 < j) := by
  rw [hasked]
  simp
  omega

/-- A response that is valid and fits is kept, and ends the request. -/
theorem acycRsp_good (hv : (frValid good bs && frType bs == 4 && decide (frLen bs ≤ areqMax d seg)) = true) : acycRsp d seg j good bs
    = acycEnd (responseKept (wrN d (PL_ARSP_HDR seg) (frAddr bs + 256 * frLen bs)) seg 0 (words32 (frPay bs ++ [0, 0, 0]))) seg 2 0 := by
  unfold acycRsp
  exact (if_neg (acycRsp_awaited hasked hwin)).trans (if_pos hv)

/-- Any other reception in its window ends it as bad. -/
theorem acycRsp_bad (hv : ¬(frValid good bs && frType bs == 4 && decide (frLen bs ≤ areqMax d seg)) = true) : acycRsp d seg j good bs = acycEnd d seg 3 2 := by
  unfold acycRsp
  exact (if_neg (acycRsp_awaited hasked hwin)).trans (if_neg hv)

/-- What the end of a request by a good response shows. -/
theorem acycRsp_good_facts (hv : (frValid good bs && frType bs == 4 && decide (frLen bs ≤ areqMax d seg)) = true) :
    plOf (acycRsp d seg j good bs) seg = { plOf d seg with wait := false, asked := false }
      ∧ rd (acycRsp d seg j good bs) (PL_ACYC_CNT seg) = rd d (PL_ACYC_CNT seg) + 1
      ∧ acycRsp d seg j good bs = { d with pls := (acycRsp d seg j good bs).pls, regs := (acycRsp d seg j good bs).regs }
      ∧ (∀ r, r ≠ seg → plOf (acycRsp d seg j good bs) r = plOf d r) ∧ rd (acycRsp d seg j good bs) (PL_ACYC_STAT seg) = 2
      ∧ rd (acycRsp d seg j good bs) (PL_ARSP_HDR seg) = w32 (frAddr bs + 256 * frLen bs)
      ∧ ∀ i, i < (words32 (frPay bs ++ [0, 0, 0])).length → rd (acycRsp d seg j good bs) (PL_ARSP_DATA seg i) = nth (words32 (frPay bs ++ [0, 0, 0])) i 0 := by
  rw [acycRsp_good hasked hwin hv]
  obtain ⟨hwrites, hbelow, hwords⟩ := responseKept_facts seg (words32 (frPay bs ++ [0, 0, 0])) (wrN d (PL_ARSP_HDR seg) (frAddr bs + 256 * frLen bs)) 0
  obtain ⟨r, hregs⟩ := regs_regs (regs_wr d (PL_ARSP_HDR seg) _) hwrites
  generalize responseKept (wrN d (PL_ARSP_HDR seg) (frAddr bs + 256 * frLen bs)) seg 0 (words32 (frPay bs ++ [0, 0, 0])) = m at hregs hbelow hwords ⊢
  obtain ⟨honly, hpl, hstat, hcnt⟩ := acycEnd_only m seg 2 0
  have hother : ∀ q, plOf m q = plOf d q := fun q => (congrArg (plOf · q) hregs).trans rfl
  have hlow : ∀ off, off < 0x1700 → rd m (plBase seg + off) = rd (wrN d (PL_ARSP_HDR seg) (frAddr bs + 256 * frLen bs)) (plBase seg + off) := fun off hoff =>
    hbelow _ (Nat.add_lt_add_left hoff _)
  have hreg : ∀ off, 0x164 < off → rd (acycEnd m seg 2 0) (plBase seg + off) = rd m (plBase seg + off) := fun off hoff =>
    honly.2.2 _ (fun hmem => (List.mem_pair.mp hmem).elim (plReg_ne (by omega)) (plReg_ne (by omega)))
  refine ⟨by rw [hpl, hother], ?_, ?_, fun q hq => (honly.2.1 q hq).trans (hother q), hstat, ?_, fun i hi => ?_⟩
  · exact hcnt.trans (congrArg (· + 1) ((hlow 0x164 (by decide)).trans (rd_wrN_ne _ _ (plReg_ne (by decide)))))
  · have h := honly.1
    rw [List.append_nil, hregs] at h
    rw [hregs]
    exact h
  · exact (hreg 0x1404 (by decide)).trans ((hlow 0x1404 (by decide)).trans (rd_wrN_same _ _ _))
  · have h := hwords i hi
    rw [Nat.zero_add] at h
    rw [← h]
    unfold PL_ARSP_DATA
    rw [Nat.add_assoc]
    exact hreg _ (by omega)

end

end Sys2Proof.Machine
end


section
/-! PROOFS. Foreign masters, collisions and store errors of a Pliale segment (R333), and the statement on its cycles. -/

namespace Sys2Proof.Machine

/-! ### A foreign SYNC, collisions and store errors (R333) -/

/-- The registers that the end of a waiting request moves lie in the segment's page, below its counters' end. -/
theorem acycRegs_page {seg : Nat} {w : Bool} : ∀ a ∈ (if w then [PL_ACYC_STAT seg, PL_ACYC_CNT seg] else []), plBase seg + 0x160 ≤ a ∧ a ≤ plBase seg + 0x164 := by
  intro a ha
  split at ha
  · rcases List.mem_pair.mp ha with rfl | rfl
    · exact ⟨Nat.le_refl _, Nat.add_le_add_left (by decide) _⟩
    · exact ⟨Nat.add_le_add_left (by decide) _, Nat.le_refl _⟩
  · exact absurd ha List.not_mem_nil

/-- A waiting request aborted and the safe inputs staged. -/
theorem plSafe_abort (d : Dev) (seg : Nat) (b : Bool) :
    OnlySeg seg (if (plOf d seg).wait then [PL_ACYC_STAT seg, PL_ACYC_CNT seg] else []) (segSafe (plOf d seg) b) d (plSafe (acycAbort d seg) seg b)
      ∧ plOf (plSafe (acycAbort d seg) seg b) seg = { plOf d seg with wait := false, asked := (plOf d seg).asked && !(plOf d seg).wait } := by
  obtain ⟨honly, hpl, -⟩ := acycAbort_only d seg
  have hsafe : segSafe (plOf (acycAbort d seg) seg) b = segSafe (plOf d seg) b := by
    rw [hpl]
    rfl
  refine ⟨?_, (plOf_plSafe _ _ _ _).trans hpl⟩
  have h := honly.trans (onlySeg_plSafe seg (acycAbort d seg) b)
  rw [hsafe, List.append_nil] at h
  exact h

/-- A foreign SYNC stops the segment with DUP_MASTER. -/
theorem foreignSync_facts {d : Dev} {seg : Nat} (hseg : seg < 16) (hst : (plOf d seg).st = .listen ∨ (plOf d seg).st = .running) :
    plOf (foreignSync d seg) seg = { plOf d seg with
        st := .stopped, closing := 0, start := none, dup := true, wait := false, asked := (plOf d seg).asked && !(plOf d seg).wait }
      ∧ rd (foreignSync d seg) (PL_DUP_CNT seg) = rd d (PL_DUP_CNT seg) + 1 ∧ (foreignSync d seg).stage1 = d.stage1 ++ segSafe (plOf d seg) false
      ∧ (∀ r, r ≠ seg → plOf (foreignSync d seg) r = plOf d r) ∧ (foreignSync d seg).sig = d.sig ∧ (foreignSync d seg).power = d.power
      ∧ (foreignSync d seg).role = d.role := by
  obtain ⟨honly, hpl, -⟩ := plToStopped_only d seg 0
  obtain ⟨m, hm⟩ : ∃ m, m = bump (plToStopped d seg 0) (PL_DUP_CNT seg) := ⟨_, rfl⟩
  obtain ⟨n, hn⟩ : ∃ n, n = setPl m seg { plOf m seg with dup := true } := ⟨_, rfl⟩
  have hrec : Recorded n (foreignSync d seg) := by
    unfold foreignSync
    rw [if_pos hst, hn, hm]
    exact recorded_busEvent _ _ _ _ _
  have hbump : OnlySeg seg [PL_DUP_CNT seg] [] (plToStopped d seg 0) m := by
    rw [hm]
    exact onlySeg_bump seg _ _
  have hdup : OnlySeg seg [] [] m n := by
    rw [hn]
    exact onlySeg_setPl seg m _
  have hnonly := (honly.trans hbump).trans hdup
  obtain ⟨hstage, hother, hsig, hpower, hrole⟩ := onlySeg_recorded hnonly hrec
  refine ⟨?_, ?_, ?_, hother, hsig, hpower, hrole⟩
  · rw [recorded_plOf hrec, hn, plOf_setPl_same, hm, plOf_bump, hpl]
  · refine (recorded_plReg hrec hseg (off := 0x138) (by decide)).trans ?_
    rw [hn, rd_setPl, hm]
    refine (rd_bump_same _ _).trans (congrArg (· + 1) (honly.2.2 _ (fun hmem => ?_)))
    have := acycRegs_page _ hmem
    unfold PL_DUP_CNT at this
    omega
  · rw [hstage, List.append_nil, List.append_nil]

/-- The segment after a SYNC collision: LISTEN again, or HALTED at the third (R333). -/
def plCollided (x : Pl) (now : Nat) : Pl :=
  if x.coll < 2 then { x with st := .listen, heardAt := now, coll := x.coll + 1, cycles := 0, closing := 0, start := none, kept := false, wait := false, asked := x.asked && !x.wait }
  else { x with st := .halted, coll := 3, start := none, wait := false, asked := x.asked && !x.wait }

theorem syncCollision_facts {d : Dev} {seg : Nat} (k : Nat) (hseg : seg < 16) (hst : (plOf d seg).st = .running) (hcyc : (plOf d seg).cycles ≤ 8) :
    rd (plCollision d seg true k) (PL_COLL_CNT seg) = rd d (PL_COLL_CNT seg) + 1 ∧ (plCollision d seg true k).stage1 = d.stage1 ++ segSafe (plOf d seg) false
      ∧ (∀ r, r ≠ seg → plOf (plCollision d seg true k) r = plOf d r) ∧ plOf (plCollision d seg true k) seg = plCollided (plOf d seg) (bp d)
      ∧ (plCollision d seg true k).sig = d.sig ∧ (plCollision d seg true k).power = d.power ∧ (plCollision d seg true k).role = d.role := by
  have hlive : plLive (plOf d seg) = true := by
    unfold plLive
    rw [hst]
    rfl
  obtain ⟨m, hm⟩ : ∃ m, m = bump d (PL_COLL_CNT seg) := ⟨_, rfl⟩
  have hmonly : OnlySeg seg [PL_COLL_CNT seg] [] d m := by
    rw [hm]
    exact onlySeg_bump seg d _
  have hmpl : plOf m seg = plOf d seg := by rw [hm, plOf_bump]
  have hcnt : rd m (PL_COLL_CNT seg) = rd d (PL_COLL_CNT seg) + 1 := by rw [hm, rd_bump_same]
  have hnotAcyc : PL_COLL_CNT seg ∉ (if (plOf d seg).wait then [PL_ACYC_STAT seg, PL_ACYC_CNT seg] else []) := fun hmem => by
    have := acycRegs_page _ hmem
    unfold PL_COLL_CNT at this
    omega
  have hfirst : plCollision d seg true k = if (plOf d seg).coll < 2 then plSafe (plToListen (acycAbort m seg) seg ((plOf d seg).coll + 1)) seg false
      else busEvent (setPl (plSafe (acycAbort m seg) seg false) seg { plOf (plSafe (acycAbort m seg) seg false) seg with st := .halted, coll := 3, start := none })
        (.pl seg) (304 + 2 * seg) (Config.busEventCode 0) (rdN (plSafe (acycAbort m seg) seg false) (PL_COLL_CNT seg)) := by
    unfold plCollision
    simp only [hlive, Bool.true_eq_false, if_false, ← hm]
    exact if_pos ⟨trivial, hst, hcyc⟩
  by_cases hcoll : (plOf d seg).coll < 2
  · rw [if_pos hcoll] at hfirst
    obtain ⟨aonly, hapl, -⟩ := acycAbort_only m seg
    rw [hmpl] at aonly hapl
    obtain ⟨lonly, hlpl⟩ := plToListen_only (acycAbort m seg) seg ((plOf d seg).coll + 1)
    have hbp : bp (acycAbort m seg) = bp d := by
      rw [aonly.bp_eq (fun a ha => by have := acycRegs_page a ha; omega), hmonly.bp_eq (by simp [PL_COLL_CNT])]
    have hsafe : segSafe (plOf (plToListen (acycAbort m seg) seg ((plOf d seg).coll + 1)) seg) false = segSafe (plOf d seg) false := by
      rw [hlpl, hapl]
      rfl
    have honly := ((hmonly.trans aonly).trans lonly).trans (onlySeg_plSafe seg _ false)
    rw [hsafe, ← hfirst] at honly
    refine ⟨?_, by rw [honly.stage1]; simp, honly.2.1, ?_, honly.sig, honly.power, honly.role⟩
    · rw [hfirst, rd_plSafe, lonly.2.2 _ List.not_mem_nil, aonly.2.2 _ hnotAcyc, hcnt]
    · rw [hfirst, plOf_plSafe, hlpl, hapl, hbp]
      unfold plCollided
      rw [if_pos hcoll]
  · rw [if_neg hcoll] at hfirst
    obtain ⟨aonly, hapl⟩ := plSafe_abort m seg false
    rw [hmpl] at aonly hapl
    obtain ⟨n, hn⟩ : ∃ n, n = setPl (plSafe (acycAbort m seg) seg false) seg
      { plOf (plSafe (acycAbort m seg) seg false) seg with st := .halted, coll := 3, start := none } := ⟨_, rfl⟩
    have hrec : Recorded n (plCollision d seg true k) := by
      rw [hfirst, hn]
      exact recorded_busEvent _ _ _ _ _
    have hnonly : OnlySeg seg _ _ d n := (hmonly.trans aonly).trans (by rw [hn]; exact onlySeg_setPl seg _ _)
    obtain ⟨hstage, hother, hsig, hpower, hrole⟩ := onlySeg_recorded hnonly hrec
    refine ⟨?_, by rw [hstage]; simp, hother, ?_, hsig, hpower, hrole⟩
    · refine (recorded_plReg hrec hseg (off := 0x140) (by decide)).trans ?_
      rw [hn, rd_setPl]
      exact (aonly.2.2 _ hnotAcyc).trans hcnt
    · rw [recorded_plOf hrec, hn, plOf_setPl_same, hapl]
      unfold plCollided
      rw [if_neg hcoll]

/-- A collision of another frame of a slot spoils the slot's cycle (R333). -/
theorem slotCollision_eq {d : Dev} {seg k : Nat} (hlive : plLive (plOf d seg) = true) :
    plCollision d seg false k = setSl (bump d (PL_COLL_CNT seg)) seg k { slOf d seg k with got := false, due := false, spoilt := true } := by
  unfold plCollision
  simp only [hlive, Bool.true_eq_false, if_false, Bool.false_eq_true, false_and]
  rfl

/-- A store error quarantines the segment. -/
theorem schedUe_facts {d : Dev} {seg : Nat} (hseg : seg < 16) (hst : ¬((plOf d seg).st = .empty ∨ (plOf d seg).st = .quarantined)) :
    plOf (schedUe d seg) seg = { plOf d seg with st := .quarantined, closing := 0, start := none, wait := false, asked := (plOf d seg).asked && !(plOf d seg).wait }
      ∧ rdN (schedUe d seg) (plBase seg + ERR_CODE) % 65536 = 0x0C04 ∧ (schedUe d seg).stage1 = d.stage1 ++ segSafe (plOf d seg) true
      ∧ (∀ r, r ≠ seg → plOf (schedUe d seg) r = plOf d r) ∧ (schedUe d seg).sig = d.sig ∧ (schedUe d seg).power = d.power ∧ (schedUe d seg).role = d.role := by
  obtain ⟨aonly, hapl⟩ := plSafe_abort d seg true
  obtain ⟨m, hm⟩ : ∃ m, m = setPl (plSafe (acycAbort d seg) seg true) seg
    { plOf (plSafe (acycAbort d seg) seg true) seg with st := .quarantined, closing := 0, start := none } := ⟨_, rfl⟩
  have hrec : Recorded (err m (.pl seg) 0x0C04 0) (schedUe d seg) := by
    unfold schedUe
    rw [if_neg hst, hm]
    exact recorded_tileQuar _ _ _ _
  have honly : OnlySeg seg _ _ d (err m (.pl seg) 0x0C04 0) := (aonly.trans (by rw [hm]; exact onlySeg_setPl seg _ _)).trans (onlySeg_err seg m (.pl seg) 0x0C04 0)
  obtain ⟨hstage, hother, hsig, hpower, hrole⟩ := onlySeg_recorded honly hrec
  refine ⟨?_, ?_, by rw [hstage]; simp, hother, hsig, hpower, hrole⟩
  · rw [recorded_plOf hrec, plOf_err, hm, plOf_setPl_same, hapl]
  · unfold rdN
    rw [recorded_plReg hrec hseg (by decide)]
    exact err_code m (.pl seg) 0x0C04 0

/-! ### Cycles -/

/-- Settles O53: each bus event by what it does to the segment while the buses run, and by nothing while they do not. -/
theorem segmentsRunTheirCycles : Obligations.SegmentsRunTheirCycles := by
  unfold Obligations.SegmentsRunTheirCycles
  intro s
  have hbus : ∀ {seg k : Nat}, seg < 16 → k < 32 → (decide (seg < 16) && decide (k < 32)) = true := fun hseg hk => by
    rw [decide_eq_true hseg, decide_eq_true hk]
    rfl
  refine ⟨?still, ?cycle, ?lastCycleEnds, ?noCycle, ?poll, ?noPoll, ?accepted, ?edge, ?corrupt, ?unheard, ?window, ?noWindow, ?slots, ?measured, ?notAsked,
    ?answered, ?notAwaited, ?timeout, ?foreign, ?syncCollides, ?slotCollides, ?activity, ?silence, ?notSilent, ?storeError⟩
  case still =>
    rintro seg k j dt good sync bs c ⟨hseg, hk, hoff⟩ hmem
    have hstill : ∀ {c : Instr} {f : Dev → Dev} {ok : Bool}, exec c s = onDev ok (fun _ d => onBus f d) s → ok = true → exec c s = .next s :=
      fun he hok => exec_bus_same he hok (fun hon => absurd hon (by rw [hoff]; decide))
    have hd : decide (seg < 16) = true := decide_eq_true hseg
    simp only [List.mem_cons, List.not_mem_nil, or_false] at hmem
    rcases hmem with rfl | rfl | rfl | rfl | rfl | rfl | rfl | rfl | rfl | rfl | rfl | rfl
    · exact hstill (f := fun d => cycleStart d seg) rfl hd
    · exact hstill (f := fun d => pollSend d seg k) rfl (hbus hseg hk)
    · exact hstill (f := fun d => replyReceive d seg j good bs) rfl hd
    · exact hstill (f := fun d => acycWindowEnd d seg) rfl hd
    · exact hstill (f := fun d => acycStart d seg) rfl hd
    · exact hstill (f := fun d => measRsp d seg k dt) rfl (hbus hseg hk)
    · exact hstill (f := fun d => acycRsp d seg j good bs) rfl hd
    · exact hstill (f := fun d => acycTimeout d seg) rfl hd
    · exact hstill (f := fun d => foreignSync d seg) rfl hd
    · exact hstill (f := fun d => plCollision d seg sync k) rfl (hbus hseg hk)
    · exact hstill (f := fun d => lineActivity d seg) rfl hd
    · exact hstill (f := fun d => listenExpired d seg) rfl hd
  case cycle =>
    rintro seg x y ⟨hseg, hon, rfl, hcycle⟩ hy
    exact completes_bus (f := fun d => cycleStart d seg) rfl (decide_eq_true hseg) hon (cycleStart_facts hcycle hy)
  case lastCycleEnds =>
    rintro seg x ⟨hseg, hon, rfl, hst, hlast⟩
    exact exec_bus (f := fun d => cycleStart d seg) rfl (decide_eq_true hseg) hon (cycleStart_last hst hlast)
  case noCycle =>
    rintro seg x ⟨hseg, rfl, hno⟩
    exact exec_bus_same (f := fun d => cycleStart d seg) rfl (decide_eq_true hseg) (fun _ => cycleStart_none hno)
  case poll =>
    rintro seg k x ⟨hseg, hk, hon, rfl, hpoll⟩
    refine completes_bus (f := fun d => pollSend d seg k) rfl (hbus hseg hk) hon ?_
    simp only [pollSend, if_pos hpoll]
    exact plSend_only _ _ _ _
  case noPoll =>
    rintro seg k x ⟨hseg, hk, rfl, hno⟩
    exact exec_bus_same (f := fun d => pollSend d seg k) rfl (hbus hseg hk) (fun _ => if_neg hno)
  case accepted =>
    rintro seg k j bs x y ⟨hseg, hon, rfl, hlive, hlen, rfl, hmute⟩ ⟨hv, ht, hk, hin, hcyc⟩
    refine completes_bus (f := fun d => replyReceive d seg j true bs) rfl (decide_eq_true hseg) hon ?_
    simp only [replyReceive_accepts hlive ⟨hv, ht, hk⟩ hin hcyc hmute hlen]
    obtain ⟨honly, hpl, hsame, hne⟩ := replyHeard_only (d := s.dev) (seg := seg) (k := k) (j := j) hlen
    obtain ⟨⟨asame, ane⟩, hwr, hother, hdiff, hregs, hsig, hstage⟩ := accept_facts (d := replyHeard s.dev seg k j) (seg := seg) (k := k) bs
      (by rw [hpl, length_lset]; exact hlen)
    rw [hsame, hpl] at asame
    have hwit : PL_WIT_DIFF_CNT seg ≠ PL_SL_TIME seg k := by
      unfold PL_WIT_DIFF_CNT PL_SL_TIME
      omega
    refine ⟨asame, fun i hi => (ane i hi).trans (hne i hi), by rw [hwr, hpl], fun r hr => (hother r hr).trans (honly.2.1 r hr), ?_, ?_,
      hsig.trans honly.sig, hstage.trans (honly.stage1.trans (List.append_nil _))⟩
    · rw [hregs _ (Ne.symm hwit)]
      unfold replyHeard
      rw [rd_setSl]
      exact (replyTimed_only s.dev seg k j).2.2
    · rw [hdiff, honly.2.2 _ (fun h => hwit (List.mem_singleton.mp h))]
  case edge =>
    rintro seg k j bs x y ⟨hseg, hon, rfl, hlive, hlen, -, rfl⟩ ⟨hv, ht, hk, hin⟩
    refine completes_bus (f := fun d => replyReceive d seg j true bs) rfl (decide_eq_true hseg) hon ?_
    simp only [(replyReceive_valid hlive ⟨hv, ht, hk⟩).trans (if_pos hin)]
    obtain ⟨tonly, hpl, -⟩ := replyTimed_only s.dev seg k j
    obtain ⟨⟨hrun, hst, hgot⟩, hcnt, hedge, hviol, hresync, honly⟩ := edgeViolation_facts (d := replyTimed s.dev seg k j) (seg := seg) (k := k) j (frLen bs)
      (by rw [hpl]; exact hlen)
    rw [slOf_of_plOf hpl k] at hrun hst hgot hresync
    rw [hpl] at hviol hresync
    obtain ⟨-, hslEdge, hedgeCnt⟩ := notSlTime seg k
    rw [tonly.2.2 _ hslEdge] at hedge
    rw [tonly.2.2 _ hedgeCnt] at hcnt
    exact ⟨hrun, hst, hgot, hcnt, hedge, hviol, hresync, tonly.trans honly⟩
  case corrupt =>
    rintro seg j bs x ⟨hseg, hon, rfl, hlive, hwin⟩
    refine completes_bus (f := fun d => replyReceive d seg j false bs) rfl (decide_eq_true hseg) hon ?_
    simp only [replyReceive_corrupt hlive hwin]
    exact ⟨rd_bump_same _ _, plOf_bump _ _ _, onlySeg_bump _ _ _⟩
  case unheard =>
    rintro seg j good bs x ⟨hseg, rfl, hlive⟩
    exact exec_bus_same (f := fun d => replyReceive d seg j good bs) rfl (decide_eq_true hseg) (fun _ => if_pos hlive)
  case window =>
    rintro seg x c t1 t2 rs ask ⟨hseg, hon, rfl, hlive, hc⟩ ⟨hask, ht1⟩ ⟨hrs, ht2⟩
    exact completes_bus (f := fun d => acycStart d seg) rfl (decide_eq_true hseg) hon (acycStart_facts hlive hc hask ht1 hrs ht2)
  case noWindow =>
    rintro seg x ⟨hseg, rfl, hno⟩
    exact exec_bus_same (f := fun d => acycStart d seg) rfl (decide_eq_true hseg) (fun _ => acycStart_none hno)
  case slots =>
    rintro seg k x y lim ⟨hseg, hon, rfl, hlive, hlen, hk, rfl, rfl⟩
    obtain ⟨⟨hst, hcount, -, hother, hsig, hstage⟩, ⟨henters, hjudged⟩, hmisc⟩ := acycWindowEnd_facts hseg hlive hk hlen
    exact completes_bus (f := fun d => acycWindowEnd d seg) rfl (decide_eq_true hseg) hon
      ⟨henters, hjudged, hmisc.trans (missCounted_only s.dev seg k).2.2, hst, hcount, hother, hsig, hstage⟩
  case measured =>
    rintro seg k dt x y t ⟨hseg, hk, hon, rfl, hlive, hlen, rfl, hasked, ht⟩
    refine completes_bus (f := fun d => measRsp d seg k dt) rfl (hbus hseg hk) hon ?_
    have hset : ∀ z, OnlySeg seg [PL_SL_TIME seg k] [] s.dev (setSl s.dev seg k z) := fun z =>
      (onlySeg_setSl seg s.dev k z).mono (fun _ h => absurd h List.not_mem_nil)
    by_cases hfew : (slOf s.dev seg k).answers + 1 < 4
    · simp only [if_pos hfew, measRsp_counts hasked hlive ht hfew]
      exact ⟨hset _, fun i hi => slOf_setSl_ne _ _ _ _ _ hi, slOf_setSl_same _ _ _ _ hlen, rd_setSl _ _ _ _ _⟩
    by_cases hrange : 500 < (t + 4) / 8
    · simp only [if_neg hfew, if_pos hrange, measRsp_range hasked hlive ht hfew hrange]
      exact ⟨hset _, fun i hi => slOf_setSl_ne _ _ _ _ _ hi, slOf_setSl_same _ _ _ _ hlen, rd_setSl _ _ _ _ _⟩
    · simp only [if_neg hfew, if_neg hrange]
      obtain ⟨⟨hsame, hne⟩, honly, htime, hsent⟩ := measRsp_delay hasked hlive ht hfew hrange hlen
      exact ⟨honly, hne, hsame, htime, hsent⟩
  case notAsked =>
    rintro seg k dt ⟨hseg, hk, hno⟩
    exact exec_bus_same (f := fun d => measRsp d seg k dt) rfl (hbus hseg hk) (fun _ => if_pos hno)
  case answered =>
    rintro seg j good bs x ⟨hseg, hon, rfl, hasked, hwin⟩
    refine completes_bus (f := fun d => acycRsp d seg j good bs) rfl (decide_eq_true hseg) hon ?_
    by_cases hv : (frValid good bs && frType bs == 4 && decide (frLen bs ≤ areqMax s.dev seg)) = true
    · simp only [if_pos hv]
      exact acycRsp_good_facts hasked hwin hv
    · simp only [if_neg hv, acycRsp_bad hasked hwin hv]
      obtain ⟨honly, hpl, hstat, hcnt⟩ := acycEnd_only s.dev seg 3 2
      have hkept := honly.1
      rw [List.append_nil] at hkept
      exact ⟨hpl, hcnt, hkept, honly.2.1, hstat, honly⟩
  case notAwaited =>
    rintro seg j good bs x ⟨hseg, rfl, hno⟩
    exact exec_bus_same (f := fun d => acycRsp d seg j good bs) rfl (decide_eq_true hseg) (fun _ => if_pos hno)
  case timeout =>
    rintro seg x ⟨hseg, hon, rfl, hasked⟩
    refine completes_bus (f := fun d => acycTimeout d seg) rfl (decide_eq_true hseg) hon ?_
    simp only [acycTimeout, if_pos hasked]
    obtain ⟨honly, hpl, hstat, hcnt⟩ := acycEnd_only s.dev seg 3 1
    exact ⟨hpl, hstat, hcnt, honly⟩
  case foreign =>
    rintro seg x ⟨hseg, hon, rfl, hst⟩
    exact completes_bus (f := fun d => foreignSync d seg) rfl (decide_eq_true hseg) hon (foreignSync_facts hseg hst)
  case syncCollides =>
    rintro seg k x ⟨hseg, hk, hon, rfl, hst, hcyc⟩
    exact completes_bus (f := fun d => plCollision d seg true k) rfl (hbus hseg hk) hon (syncCollision_facts k hseg hst hcyc)
  case slotCollides =>
    rintro seg k x ⟨hseg, hk, hon, rfl, hlive, hlen⟩
    refine completes_bus (f := fun d => plCollision d seg false k) rfl (hbus hseg hk) hon ?_
    have hpl : plOf (bump s.dev (PL_COLL_CNT seg)) seg = plOf s.dev seg := plOf_bump _ _ _
    simp only [slotCollision_eq hlive]
    refine ⟨by rw [rd_setSl, rd_bump_same], (onlySeg_bump seg s.dev _).trans (onlySeg_setSl seg _ _ _), slOf_setSl_same _ _ _ _ (by rw [hpl]; exact hlen),
      fun i hi => (slOf_setSl_ne _ _ _ _ _ hi).trans (slOf_of_plOf hpl i)⟩
  case activity =>
    rintro seg x ⟨hseg, hon, rfl⟩
    exact exec_bus (f := fun d => lineActivity d seg) rfl (decide_eq_true hseg) hon rfl
  case silence =>
    rintro seg x ⟨hseg, hon, rfl, hsilent⟩
    exact exec_bus (f := fun d => listenExpired d seg) rfl (decide_eq_true hseg) hon (if_pos hsilent)
  case notSilent =>
    rintro seg x ⟨hseg, rfl, hno⟩
    exact exec_bus_same (f := fun d => listenExpired d seg) rfl (decide_eq_true hseg)
      (fun _ => if_neg (fun h => hno.elim (fun hst => hst h.1) (fun hlt => absurd h.2 (Nat.not_le.mpr hlt))))
  case storeError =>
    rintro seg x ⟨hseg, rfl⟩
    refine completes_onDev (f := fun _ d => schedUe d seg) rfl (decide_eq_true hseg) ?_
    by_cases hst : (plOf s.dev seg).st = .empty ∨ (plOf s.dev seg).st = .quarantined
    · simp only [if_pos hst]
      exact if_pos hst
    · simp only [if_neg hst]
      exact schedUe_facts hseg hst

end Sys2Proof.Machine
end
